-- ==== Sys2Proof/Word.lean ====
section
/-!
DEFINITION. The word types of the block and the two container types that `State` is built from: a sparse map keyed by a
plain number, and a fixed row of four (one entry for each berth B0–B3).
-/
namespace Sys2Proof

/-- One byte. -/
abbrev Byte := BitVec 8
/-- A 16-bit word. -/
abbrev W16 := BitVec 16
/-- A 32-bit word: a CRS register, an FP32 value's bits. -/
abbrev W32 := BitVec 32
/-- A 64-bit word: a count, a tick, a step counter. -/
abbrev W64 := BitVec 64
/-- A 256-bit word: a digest, a key. -/
abbrev W256 := BitVec 256

/-- A sparse map from numbers: key and value pairs, keys rising, absent keys at their default. -/
abbrev NMap (α : Type) := List (Nat × α)

/-- One value for each of the four berths B0–B3. -/
structure Four (α : Type) where
  b0 : α
  b1 : α
  b2 : α
  b3 : α
  deriving DecidableEq, Repr

end Sys2Proof
end

