-- ==== Sys2Proof/Syntax.lean ====
section
/-!
DEFINITION. The commands and events of the block: `Instr` has one constructor for each row of spec/opcode_table.json, in the
table's order. The operands are what the row's packet, register access, pin or environment brings with it. Structures that the
spec gives a byte layout (operation, collective, shard, factor-slot, channel and group descriptors) are carried as those bytes
and read by the layouts of R37, R280, R164, R127, R186 and R277.
-/
namespace Sys2Proof

/-- The part number (R2, R3). -/
inductive Variant where
  | kmz4100
  | kmz4110
  | kmz4120
  deriving DecidableEq, Repr

/-- What an ECP command packet carries beside its parameters: the interface and peer it came from (R425), and the header and
security fields of R394 and R395 that Quay checks by R409. `tagOk` is the outcome of the GCM tag check under the named key;
`extra` says that a reserved parameter or a trailing byte is non-zero (R399). -/
structure EcpHdr where
  iface    : Nat
  peer     : Nat
  version  : Nat
  berth    : Nat
  plane    : Nat
  epoch    : Nat
  seq      : W32
  auth     : Bool
  keyEpoch : Nat
  ivSalt   : W32
  tagOk    : Bool
  extra    : Bool
  deriving DecidableEq, Repr

/-- Which write alias an access uses (R439): offset bits [13:12]. -/
inductive Alias where
  | plain
  | set
  | clear
  | toggle
  deriving DecidableEq, Repr

/-- A CRS write as it meets one register: the requester of R435, the alias and the value. -/
structure CrsWrite where
  req   : Nat
  al    : Alias
  value : W32
  deriving DecidableEq, Repr

/-- Array cycles counted under one cause code of R59. -/
abbrev CauseCycles := List (List Nat × Nat)

/-- A Cliff flit (R246), its header fields and payload. -/
structure Flit where
  vc      : Nat
  cls     : Nat
  first   : Bool
  last    : Bool
  detour  : Bool
  dst     : Nat
  hops    : Nat
  src     : Nat
  len     : Nat
  seq     : Nat
  ack     : Nat
  ackV    : Bool
  nak     : Bool
  crSel   : Nat
  crTotal : Nat
  hcrc    : BitVec 16
  payload : List Byte
  deriving DecidableEq, Repr

/-- What the IDENT exchange of R248 and R249 tells a port of its peer. -/
structure Ident where
  serial  : Nat
  port    : Nat
  coord   : Option Nat
  replay  : Nat
  latPs   : Nat
  deriving DecidableEq, Repr

/-- A Longshore packet header (R285) and its data. -/
structure LshPkt where
  src     : Nat
  op      : Nat
  kind    : Nat
  nf      : Bool
  inv     : Bool
  retx    : Bool
  berth   : Nat
  group   : Nat
  epoch   : Nat
  level   : Nat
  try_    : Nat
  cseq    : Nat
  step    : W32
  node    : Nat
  chunk   : Nat
  aux     : Nat
  crcOk   : Bool
  data    : List Byte
  deriving DecidableEq, Repr

/-- An Offshore packet (R365): the header's fields, the plaintext of its payload, and its tag over their ciphertext. `rsv4` and `rsv7`
are the reserved bits of byte 4 and byte 7, `device` all of bytes 12–15. -/
structure OfsPkt where
  magic    : Nat
  version  : Nat
  type     : Nat
  route    : Nat
  keyEpoch : Nat
  srcSite  : Nat
  dstSite  : Nat
  session  : W32
  device   : Nat
  round    : Nat
  pseq     : Nat
  stream   : Nat
  offset   : Nat
  objLen   : Nat
  aux      : W32
  reset    : Bool
  rsv4     : Nat
  rsv7     : Nat
  iv       : BitVec 96
  len      : Nat
  tag      : BitVec 128
  payload  : List Byte
  deriving DecidableEq, Repr

/-- One mirror of an Offshore session as OFS_OPEN names it (R346). -/
structure OfsPeerParam where
  site     : Nat
  addrE0   : BitVec 128
  addrE1   : BitVec 128
  idHash   : W256
  mbps     : Nat
  deriving DecidableEq, Repr

/-- The parameters of OFS_OPEN (R346). -/
structure OfsParams where
  session  : W32
  berth    : Nat
  site     : Nat
  members  : W16
  h        : Nat
  sMax     : Nat
  fmt      : Nat
  etaChan  : Nat
  mu       : W32
  nesterov : Nat
  w1       : W32
  w2       : W32
  w3       : W32
  udpPort  : Nat
  peers    : List OfsPeerParam
  store    : Nat
  rxStore  : Nat
  rekey    : Nat
  join     : Option (Nat × Nat)
  deriving DecidableEq, Repr

/-- What a received Ethernet frame shows the discard rules R387, R390 and R391. -/
structure FrameInfo where
  fcsOk      : Bool
  etherType  : Nat
  tags       : Nat
  vid        : Nat
  size       : Nat
  multicast  : Bool
  groupOk    : Bool
  extHeader  : Bool
  nextHeader : Nat
  icmpType   : Nat
  udpPort    : Nat
  udpSum     : Nat
  udpSumOk   : Bool
  deriving DecidableEq, Repr

/-- What L0 reads at a tick edge (R485): input and temperatures, and the gating that its firmware chooses. -/
structure TickInputs where
  vinMv    : Nat
  iin10mA  : Nat
  watts    : Nat
  logicC   : Nat
  hbmC     : Nat
  boardC   : Nat
  gate     : Nat
  ptpNs    : Nat
  deriving DecidableEq, Repr

/-- A Seawall request (R329, R334): class, slot, mode, direction, IV and tag of a decryption, additional authenticated data, data (the
plaintext to encrypt or the ciphertext to decrypt) and the transit buffer of its output. -/
structure SwlParams where
  cls     : Nat
  slot    : Nat
  gmac    : Bool
  decrypt : Bool
  iv      : BitVec 96
  aad     : List Byte
  data    : List Byte
  buffer  : Nat
  tag     : BitVec 128
  deriving DecidableEq, Repr

/-- A PTP message as timestamped (R392): kind 0 announce, 1 sync, 2 follow-up, 3 delay response; the offset that the servo
computes from it, and the PTP time. -/
structure PtpInfo where
  iface    : Nat
  domain   : Nat
  kind     : Nat
  offsetNs : Int
  timeNs   : Nat
  locks    : Bool
  deriving DecidableEq, Repr

/-- The commands and events of the block, one for each row of the opcode table. -/
inductive Instr where
  | devInfo (h : EcpHdr)
  | hello (h : EcpHdr) (major minor : Nat) (encapKey hostKey sig : List Byte)
  | berthClose (h : EcpHdr)
  | rekey (h : EcpHdr) (encapKey : List Byte)
  | ping (h : EcpHdr)
  | eventAck (h : EcpHdr) (upTo : W32)
  | alloc (h : EcpHdr) (size : W64) (tier policy : Nat)
  | free (h : EcpHdr) (handle : BitVec 48)
  | objectRelease (berth object : Nat)
  | memConfig (h : EcpHdr) (t1 t2 t3 spill stageBalance : Nat)
  | write (h : EcpHdr) (handle : BitVec 48) (signal : W16) (offset : W64) (data : List Byte)
  | read (h : EcpHdr) (handle : BitVec 48) (offset : W64) (length pace : Nat)
  | code (h : EcpHdr) (source destination : BitVec 48) (fmt : Nat)
  | decode (h : EcpHdr) (source destination : BitVec 48)
  | signal (h : EcpHdr) (slot count : Nat)
  | submit (h : EcpHdr) (index : W32) (descs : List (List Byte))
  | postColl (h : EcpHdr) (channel : Nat) (index : W32) (descs : List (List Byte))
  | streamResume (h : EcpHdr) (mode : Nat)
  | streamFlush (h : EcpHdr) (nextIndex : W32) (mask : W16)
  | recomputeReg (h : EcpHdr) (handle : BitVec 48) (descs : List (List Byte))
  | censusRead (h : EcpHdr) (layer count : Nat)
  | streamMode (h : EcpHdr) (mode pause : Nat)
  | groupWrite (h : EcpHdr) (entry : List Byte)
  | groupRelease (h : EcpHdr) (group : Nat)
  | discover (h : EcpHdr) (tag sx sy sz : Nat)
  | templateClear (h : EcpHdr) (layer : Nat)
  | fslotAlloc (h : EcpHdr)
  | fslotWrite (h : EcpHdr) (slot : Nat) (desc : List Byte)
  | fslotRelease (h : EcpHdr) (slot : Nat)
  | solverWs (h : EcpHdr) (handle : BitVec 48)
  | shardWrite (h : EcpHdr) (shard : Nat) (desc : List Byte)
  | shardRelease (h : EcpHdr) (shard : Nat)
  | stateLoad (h : EcpHdr) (shard : Nat) (step : W64) (handle : BitVec 48)
  | updWs (h : EcpHdr) (handle : BitVec 48)
  | progLoad (h : EcpHdr) (slot : Nat) (words : List W32)
  | schedWrite (h : EcpHdr) (channel : Nat) (desc : List Byte)
  | stepSet (h : EcpHdr) (step : W64)
  | ofsOpen (h : EcpHdr) (p : OfsParams)
  | ofsStream (h : EcpHdr) (stream shard : Nat)
  | ofsSite (h : EcpHdr) (site : Nat) (add : Bool) (round : Nat) (donor : Bool)
  | ofsRekey (h : EcpHdr)
  | ofsClose (h : EcpHdr)
  | regRead (h : EcpHdr) (offset : W32) (count : Nat)
  | regWrite (h : EcpHdr) (offset value : W32)
  | mbxRead (h : EcpHdr) (source : Nat)
  | crashRead (h : EcpHdr) (offset : W32) (length : Nat)
  | returnToService (h : EcpHdr) (tilesOk hbmOk ddrOk : Bool)
  | errlogRead (h : EcpHdr) (first : W32)
  | diag (h : EcpHdr) (test : Nat) (argument : W64)
  | domainReset (h : EcpHdr) (domain : Nat)
  | fwStage (h : EcpHdr) (offset : Nat) (data : List Byte)
  | fwActivate (h : EcpHdr) (image : Nat)
  | attest (h : EcpHdr) (nonce : List Byte)
  | lifecycle (h : EcpHdr) (target : Nat) (token : List Byte)
  | pwrStatus (h : EcpHdr)
  | pwrCap (h : EcpHdr) (watts : Nat)
  | ecpPacketInvalid (iface udpLen : Nat) (packet : List Byte)
  | frameDiscard (iface : Nat) (f : FrameInfo)
  | neighbourSolicitation (iface : Nat) (target source : BitVec 128) (sourceMac : BitVec 48)
  | neighbourAdvertisement (iface : Nat) (target : BitVec 128) (mac : BitVec 48)
  | echoRequest (iface : Nat) (target source : BitVec 128) (body : List Byte)
  | ptpMessage (p : PtpInfo)
  | ptpAnnounceTimeout
  | linkChange (iface : Nat) (up : Bool)
  | hostLinkDownTimeout (port : Nat)
  | leaseExpiry (berth : Nat)
  | eventResend (berth : Nat)
  | submitHoldTimeout (berth : Nat) (seq : W32)
  | opStart (idle : CauseCycles)
  | opComplete (stalls : CauseCycles)
  | triggerHoldRelease (cycles : Nat)
  | enginePassComplete (stalls : CauseCycles)
  | updateStart (berth : Nat)
  | tileFault (tile cause : Nat)
  | waveWatchdogExpiry (tile cycles : Nat)
  | tileStoreCe (count : Nat)
  | shfIssueEnWrite (w : CrsWrite)
  | shfCounterClear (w : CrsWrite)
  | numDirtyPop (berth : Nat) (w : CrsWrite)
  | stepBoundary (berth : Nat)
  | shardFetch (shard : Nat) (step : W64) (requester : Nat)
  | pagerMoveStart
  | pagerMoveComplete (berth object page : Nat)
  | pageZeroComplete (tier channel : Nat)
  | memoryScrub (tier unit corrected : Nat) (bad : List Nat)
  | errorWindowExpiry
  | ddrChannelLost (channel : Nat)
  | hbmStackFail (stack : Nat)
  | portTrainingStep (port : Nat) (ident : Ident)
  | trainingTimeout (port : Nat)
  | portRetryTimer (port : Nat)
  | latencyProbe (port ps : Nat)
  | flitReceive (port : Nat) (flit : Flit) (held begun : Option Nat)
  | replayTimerExpiry (port waitedNs : Nat)
  | portDown (port state : Nat)
  | portRetrainWrite (port : Nat) (w : CrsWrite)
  | portEnableClear (port : Nat) (w : CrsWrite)
  | cableRemoved (port : Nat)
  | cableSupplyOvercurrent (port milliamps : Nat)
  | assignReceive (port x y z tag sx sy sz peerPort : Nat)
  | reportReceive (device : Nat)
  | conflictReceive
  | walkTimeout
  | tickFlitReceive (port : Nat) (count : W64) (residencePs : Nat) (edgeErr10ps : Int)
  | tickHoldover
  | triggerTake (berth : Nat)
  | collectiveStart (berth channel : Nat)
  | collectiveComplete (berth channel : Nat)
  | collectiveDataReceive (p : LshPkt)
  | collectiveAckReceive (p : LshPkt)
  | collectiveReqReceive (p : LshPkt)
  | collectiveTimeout (berth channel : Nat)
  | closeWaveStart (berth : Nat)
  | flagReceive (p : LshPkt)
  | closeWaveTimeout (berth : Nat)
  | countRound (berth : Nat)
  | countReceive (p : LshPkt)
  | shingleRequestComplete
  | shingleSlotGrant
  | seawallRequest (p : SwlParams)
  | seawallRequestComplete (cls : Nat)
  | keyLoad (w : CrsWrite)
  | keyLoadResume
  | keyRetire (w : CrsWrite)
  | keyErase (w : CrsWrite)
  | seawallAlarm (sensor : Nat)
  | alarmClear (w : CrsWrite) (firing : BitVec 4)
  | entropyFail
  | entropyRecover
  | entropyTimeout
  | offshoreWaitEnd (berth : Nat)
  | offshoreWaitTimeout (berth : Nat)
  | ofsDataReceive (p : OfsPkt) (nowUs : Nat)
  | ofsSnapReceive (p : OfsPkt) (nowUs : Nat)
  | ofsSackReceive (p : OfsPkt) (nowUs : Nat)
  | ofsSackSend (berth peer nowUs : Nat)
  | ofsRtoExpiry (berth peer nowUs : Nat)
  | pacingRateStep (berth peer nowUs : Nat)
  | ofsProbeSend (berth peer nowUs : Nat)
  | ofsProbeReceive (p : OfsPkt) (nowUs : Nat)
  | routeDown (berth peer route nowUs : Nat)
  | peerLost (berth peer : Nat)
  | keyInitReceive (p : OfsPkt) (nowUs : Nat)
  | keyRespReceive (p : OfsPkt) (nowUs : Nat)
  | keyInitResend (berth peer nowUs : Nat)
  | handshakeTimeout (berth peer nowUs : Nat)
  | handshakeRetry (berth peer : Nat)
  | registerWrite (req : Nat) (offset value : W32)
  | mbxSelWrite (w : CrsWrite)
  | mbxSnapshotReady (req : Nat)
  | mbxD3Read (req : Nat) (al : Alias)
  | mbxDiscard (w : CrsWrite)
  | icuClaimRead (req : Nat) (al : Alias)
  | icfClaimRead (req : Nat) (al : Alias)
  | icuEoiWrite (w : CrsWrite)
  | icfEoiWrite (w : CrsWrite)
  | icuPendWrite (n : Nat) (w : CrsWrite)
  | icuStormUnmask (n : Nat) (w : CrsWrite)
  | interruptSourceEvent (source : Nat) (asserted : Bool)
  | bcnWakeNow (w : CrsWrite)
  | bcnTimerExpiry
  | tidUsedRead (req core : Nat) (al : Alias)
  | tideTick (t : TickInputs)
  | coreTickDone (w : CrsWrite) (used10ns : Nat)
  | coreWatchdogExpiry (core : Nat)
  | coreRestart (w : CrsWrite)
  | coreRestartFallback (core : Nat)
  | coreRestartDone (core : Nat)
  | activationProceed
  | activationDeferTimeout
  | activationRestartFail
  | rollbackCounterRaise
  | supplySag32
  | supplySag30
  | supplySag27
  | orderlyStopReset
  | supplyRecover (vinMv : Nat)
  | nvWriteResume
  | supplyRestore
  | inputOvervoltage (vinMv overMs : Nat)
  | overcurrent (amps : Nat)
  | brakeAssert
  | brakeRelease
  | clampRelease (amps : Nat)
  | brakeReminder
  | thermEmergencyClock
  | thermClockReturn
  | thermTrip (hbm : Bool) (sensor celsius : Nat)
  | tripResetRelease
  | sleepEnter (w : CrsWrite)
  | sleepExit (w : CrsWrite)
  | powerOnStage (ok : Bool) (detail : Nat)
  | startupStepTimeout
  | modResetAssert
  | modResetRelease
  | leakDetect
  | crystalFault
  | crystalRecover
  | holdoverExpiry
  | pllUnlock (pll : Nat)
  | rstReqGo (w : CrsWrite)
  | hangDetect (domain : Nat)
  | domainQuiesceDone (domain : Nat)
  | crashRecordDone
  | domainResetRelease (domain : Nat)
  | domainReady (domain : Nat)
  | recoveryWindowEnd (domain : Nat)
  | deviceResetDelayed
  | rstLogAckWrite (w : CrsWrite)
  | lifecycleErase
  | admissionLoad (w : CrsWrite)
  | admissionClear (w : CrsWrite)
  | ethIpLoad (w : CrsWrite)
  | ethIpClear (w : CrsWrite)
  | flashRead (w : CrsWrite)
  | flashProgram (w : CrsWrite)
  | flashErase (w : CrsWrite)
  | flashOpDone (deviceError : Bool)
  | mgtAttnWrite (w : CrsWrite)
  | i3cSetPointer (offset : W32)
  | i3cRegWrite (offset value : W32)
  | i3cRegRead (n : Nat)
  | entdaa (address : BitVec 7) (wins : Bool)
  | rstdaa
  | setnewda (address : BitVec 7)
  | getpid
  | getbcr
  | getdcr
  | getstatus
  | enec (events : Byte)
  | disec (events : Byte)
  | rstact (action : Byte)
  | jtagBypass
  | jtagIdcode
  | jtagSamplePreload (pins : Nat)
  | jtagExtest (pins : Nat)
  | jtagProvision
  | jtagDebugOpen (token : List Byte)
  | aonPowerLoss
  | cableSeated (port : Nat)
  | unsupportedOpcode (h : EcpHdr) (opcode : Nat)
  | ofsDataSend (berth peer nowUs : Nat)
  deriving DecidableEq, Repr

end Sys2Proof
end

