-- ==== Sys2Proof/Decode.lean ====
section
/-!
DEFINITION. The block takes commands, not words: no row of the opcode table gives its command bits, so no word spells a command.
-/
namespace Sys2Proof

/-- The command that a word spells by the opcode table's bits: none, since the table gives no row any bits. -/
def decodeTableWord (_nbits _w : Nat) : Option Instr := none

end Sys2Proof
end

