-- ==== Sys2Proof/Config.lean ====
section
/-!
DEFINITION. What the spec leaves open or takes from outside: constants of one module (serial number, MAC base, OTP contents),
the cryptographic primitives that the spec names by standard, and free values. None has a body: a claim is true whatever they are.
-/
namespace Sys2Proof.Config
open Sys2Proof

/-! ### One module's constants -/

/-- Module serial number, 16 bytes (R446). -/
opaque serial : BitVec 128
/-- Base MAC address in OTP (R388). -/
opaque baseMac : BitVec 48
/-- ROM identity digest of the stepping (R547). -/
opaque romDigest : W256
/-- OTP hashes of the four firmware keys and of the four token keys (R539). -/
opaque fwKeyHash : Nat → W256
opaque tokenKeyHash : Nat → W256
/-- OTP revoke bits of the firmware and token keys (R539). -/
opaque fwKeyRevoked : Nat → Bool
opaque tokenKeyRevoked : Nat → Bool
/-- The token key of an index (R539): a requester of R551 names it by the index, its hash stands in OTP. -/
opaque tokenKeyOf : Nat → List Byte
/-- Identity public key that the device secret yields (R539). -/
opaque identityKey : List Byte
/-- Identity certificate, 6,003 bytes (R540). -/
opaque certificate : List Byte
/-- The 16 bytes of firmware versions that DEV_INFO returns (R420 gives no layout). -/
opaque firmwareVersions : List Byte
/-- Minor version of the running interface (R404). -/
opaque interfaceMinor : Nat

/-! ### Cryptography (R402–R405, R329, R376, R541–R551) -/

/-- AES-256-GCM of NIST SP 800-38D (R329): the keystream byte of a position under a key and an IV, and the tag of additional
authenticated data and ciphertext. -/
opaque gcmStream : W256 → BitVec 96 → Nat → Byte
opaque gcmTag : W256 → BitVec 96 → List Byte → List Byte → BitVec 128
/-- SHA3-256. -/
opaque sha3 : List Byte → W256
/-- SHAKE256: input and number of output bytes. -/
opaque shake256 : List Byte → Nat → List Byte
/-- ML-DSA-44 and ML-DSA-87 verification: public key, message, signature. -/
opaque mldsa44Verify : List Byte → List Byte → List Byte → Bool
opaque mldsa87Verify : List Byte → List Byte → List Byte → Bool
/-- ML-DSA-44 signature by the module's identity key. -/
opaque mldsa44Sign : List Byte → List Byte
/-- ML-KEM-768: ciphertext and shared secret for an encapsulation key, by random draw. -/
opaque kemCiphertext : List Byte → Nat → List Byte
opaque kemSecret : List Byte → Nat → List Byte
/-- ML-KEM-768: a fresh encapsulation key, and the secret that its owner finds in a ciphertext, by random draw. -/
opaque kemKey : Nat → List Byte
opaque kemDecap : Nat → List Byte → List Byte

/-! ### Free values -/

/-- A free value of any width: bits that the spec does not state. -/
opaque freeNat : Nat → Nat
/-- A free 32-bit word. -/
opaque freeW32 : Nat → W32
/-- Which of the FP32 values within 2 ulp of its function an activation code 0x2 to 0x6 gives on an input (R50). -/
opaque activationPick : Nat → W32 → Nat
/-- Rank of the owner of a factor slot in its reduce group, as a member that is not the owner knows it (R139): group, slot. -/
opaque slotOwner : Nat → Nat → Nat
/-- The result data of a diagnostic test (R420). -/
opaque diagResult : Nat → W64 → List Byte
/-- A byte of a tile store as a crash record samples it: sample, tile, address in the store (R33, R521). -/
opaque tileStoreByte : Nat → Nat → Nat → Byte
/-- What a module knows of the mirror in a site that OFS_SITE adds (R361 names the site only): route addresses, hash of the identity
key and pacing rate, by session and site. -/
opaque siteAddr0 : W32 → Nat → BitVec 128
opaque siteAddr1 : W32 → Nat → BitVec 128
opaque siteHash : W32 → Nat → W256
opaque siteMbps : W32 → Nat → Nat

end Sys2Proof.Config
end

