-- ==== Sys2Proof/Machine/Base.lean ====
section
/-!
DEFINITION. Plain helpers: sparse maps, the row of four, byte order, bit fields. Everything here is mendable.
-/
namespace Sys2Proof.Machine
open Sys2Proof

/-! ### Sparse maps -/

/-- The value stored under a key. -/
def mget {α : Type} : NMap α → Nat → Option α
  | [], _ => none
  | (k, v) :: m, i => if k = i then some v else mget m i

/-- The value stored under a key, or a default. -/
def mgetD {α : Type} (m : NMap α) (i : Nat) (d : α) : α := (mget m i).getD d

/-- Store a value, keeping the keys rising. -/
def mset {α : Type} : NMap α → Nat → α → NMap α
  | [], i, v => [(i, v)]
  | (k, w) :: m, i, v => if k = i then (i, v) :: m else if i < k then (i, v) :: (k, w) :: m else (k, w) :: mset m i v

/-- Remove a key. -/
def mdel {α : Type} (m : NMap α) (i : Nat) : NMap α := m.filter (fun p => p.1 ≠ i)

/-- Keep the entries that a test accepts. -/
def mfilter {α : Type} (m : NMap α) (f : Nat → α → Bool) : NMap α := m.filter (fun p => f p.1 p.2)

/-- Change the entry of a key, if there is one. -/
def mmod {α : Type} (m : NMap α) (i : Nat) (f : α → α) : NMap α :=
  match mget m i with
  | some v => mset m i (f v)
  | none => m

/-- Store a value, listing no entry that equals the default. -/
def msetD {α : Type} [DecidableEq α] (m : NMap α) (i : Nat) (v d : α) : NMap α :=
  if v = d then mdel m i else mset m i v

/-! ### The row of four -/

/-- The value for berth `i`; any number above 3 reads the last. -/
def fget {α : Type} (q : Four α) : Nat → α
  | 0 => q.b0
  | 1 => q.b1
  | 2 => q.b2
  | _ => q.b3

/-- Replace the value for berth `i`. -/
def fset {α : Type} (q : Four α) (i : Nat) (v : α) : Four α :=
  match i with
  | 0 => { q with b0 := v }
  | 1 => { q with b1 := v }
  | 2 => { q with b2 := v }
  | _ => { q with b3 := v }

/-- Change the value for berth `i`. -/
def fmod {α : Type} (q : Four α) (i : Nat) (f : α → α) : Four α := fset q i (f (fget q i))

/-- The same value for every berth. -/
def four {α : Type} (a : α) : Four α := ⟨a, a, a, a⟩

/-- The berth numbers. -/
def berths : List Nat := [0, 1, 2, 3]

/-! ### Bytes and fields -/

/-- Bits `hi` down to `lo` of a number. -/
def bits (v hi lo : Nat) : Nat := (v >>> lo) % 2 ^ (hi + 1 - lo)

/-- One bit of a number. -/
def bit (v i : Nat) : Bool := v.testBit i

/-- Number with 1 for true. -/
def b2n (b : Bool) : Nat := if b then 1 else 0

/-- Number read from bytes, least significant byte first (R9). -/
def leNat : List Byte → Nat
  | [] => 0
  | b :: bs => b.toNat + 256 * leNat bs

/-- Number read from bytes, most significant byte first (R9). -/
def beNat (bs : List Byte) : Nat := leNat bs.reverse

/-- `n` bytes of a number, least significant first. -/
def toLe : Nat → Nat → List Byte
  | 0, _ => []
  | n + 1, v => BitVec.ofNat 8 v :: toLe n (v / 256)

/-- `n` bytes of a number, most significant first. -/
def toBe (n v : Nat) : List Byte := (toLe n v).reverse

/-- `n` bytes from offset `o`, zeros beyond the end. -/
def slice (bs : List Byte) (o n : Nat) : List Byte :=
  let t := (bs.drop o).take n
  t ++ List.replicate (n - t.length) 0

/-- Little-endian field of `n` bytes at offset `o` of a structure. -/
def fld (bs : List Byte) (o n : Nat) : Nat := leNat (slice bs o n)

/-- Bits of a little-endian field. -/
def fldBits (bs : List Byte) (o n hi lo : Nat) : Nat := bits (fld bs o n) hi lo

/-- Every byte of a list is zero. -/
def allZero (bs : List Byte) : Bool := bs.all (· == 0)

/-- `n` zero bytes. -/
def zeros (n : Nat) : List Byte := List.replicate n 0

/-- Ceiling of a quotient. -/
def cdiv (a b : Nat) : Nat := (a + b - 1) / b

/-- Numbers `a` to `a + n - 1`. -/
def rangeFrom (a n : Nat) : List Nat := (List.range n).map (a + ·)

/-- Ceiling of the base-2 logarithm: the least L with n ≤ 2^L. -/
def clog2 (n : Nat) : Nat := Nat.clog 2 n

/-- The entry at an index, or a default. -/
def nth {α : Type} (l : List α) (i : Nat) (d : α) : α := (l[i]?).getD d

/-- Replace the entry at an index. -/
def setNth {α : Type} (l : List α) (i : Nat) (v : α) : List α := l.set i v

/-- Cut a list into blocks of `n`. Structural in the fuel `k`. -/
def chunksAux {α : Type} (n : Nat) : Nat → List α → List (List α)
  | 0, _ => []
  | k + 1, l => if l.isEmpty then [] else l.take n :: chunksAux n k (l.drop n)

/-- Cut a list into blocks of `n`, the last one shorter. -/
def chunks {α : Type} (n : Nat) (l : List α) : List (List α) := chunksAux n l.length l

/-- Insert an entry before the first whose key is greater. -/
def insertBy {α : Type} (key : α → Nat) (x : α) : List α → List α
  | [] => [x]
  | y :: l => if key x < key y then x :: y :: l else y :: insertBy key x l

/-- Sort by a key, equal keys in their order. -/
def sortBy {α : Type} (key : α → Nat) (l : List α) : List α := l.foldl (fun acc x => insertBy key x acc) []

/-- Saturating increment of a count at `top`. -/
def satAdd (top a b : Nat) : Nat := if a + b > top then top else a + b

/-- Replace a bit field of a word. -/
def putBits (w : W32) (hi lo v : Nat) : W32 :=
  BitVec.ofNat 32 (w.toNat - bits w.toNat hi lo * 2 ^ lo + (v % 2 ^ (hi + 1 - lo)) * 2 ^ lo)

/-- One bit of the reflected CRC-32C. -/
def crcBit (c : Nat) : Nat := if c % 2 = 1 then (c / 2) ^^^ 0x82F63B78 else c / 2

/-- One byte. -/
def crcByte (c : Nat) (b : Byte) : Nat :=
  crcBit (crcBit (crcBit (crcBit (crcBit (crcBit (crcBit (crcBit (c ^^^ b.toNat))))))))

/-- One bit and one byte of CRC-16/CCITT-FALSE: polynomial 0x1021, most significant bit first. -/
def crc16Bit (c : Nat) : Nat := if c / 32768 = 1 then (2 * c % 65536) ^^^ 0x1021 else 2 * c
def crc16Byte (c : Nat) (b : Byte) : Nat :=
  crc16Bit (crc16Bit (crc16Bit (crc16Bit (crc16Bit (crc16Bit (crc16Bit (crc16Bit (c ^^^ (256 * b.toNat)))))))))

/-- CRC-16/CCITT-FALSE of bytes (R246). -/
def crc16 (bs : List Byte) : Nat := bs.foldl crc16Byte 0xFFFF

/-- CRC-32C of bytes. -/
def crc32c (bs : List Byte) : Nat := (bs.foldl crcByte 0xFFFFFFFF) ^^^ 0xFFFFFFFF

end Sys2Proof.Machine
end

