-- ==== Sys2Proof/Machine/RegTable.lean ====
section
/-!
DEFINITION. The register tables of the spec: every register of every CRS block with its fields, their types (R12), reset values
and permitted writers (R435). Registers of a range share one row. Values that depend on the variant, on the source or core
number, or on OTP and straps are supplied in Machine/Regs.lean.
-/
namespace Sys2Proof.Machine
open Sys2Proof

/-- Register field types (R12). -/
inductive RegType where
  | rw
  | ro
  | wo
  | w1c
  | rwl
  deriving DecidableEq, Repr

/-- A field: bits, type, reset value, and the requesters whose writes it accepts, one bit each (R435). -/
structure FieldSpec where
  hi      : Nat
  lo      : Nat
  ty      : RegType
  reset   : Nat
  writers : Nat
  deriving DecidableEq, Repr

/-- A register, or `n` registers of one layout `step` bytes apart, at a block offset. -/
structure RegSpec where
  off    : Nat
  n      : Nat
  step   : Nat
  fields : List FieldSpec
  deriving DecidableEq, Repr

/-- Every requester of R435. -/
def anyReq : Nat := 0x3FF

/-- The SHF block (R66). -/
def regsSHF : List RegSpec := [
  ⟨0x000, 1, 4, [⟨31, 16, .ro, 21318, anyReq⟩, ⟨15, 0, .ro, 256, anyReq⟩]⟩,  -- SHF_ID
  ⟨0x004, 1, 4, [⟨0, 0, .rw, 0, anyReq⟩, ⟨1, 1, .rw, 0, anyReq⟩, ⟨2, 2, .rw, 1, anyReq⟩]⟩,  -- SHF_CTL
  ⟨0x008, 1, 4, [⟨0, 0, .ro, 0, anyReq⟩, ⟨1, 1, .ro, 1, anyReq⟩, ⟨3, 2, .ro, 0, anyReq⟩, ⟨4, 4, .ro, 0, anyReq⟩, ⟨5, 5, .ro, 0, anyReq⟩, ⟨6, 6, .ro, 0, anyReq⟩, ⟨7, 7, .ro, 0, anyReq⟩]⟩,  -- SHF_STAT
  ⟨0x00C, 1, 4, [⟨31, 0, .ro, 0, anyReq⟩]⟩,  -- SHF_CUR_OP
  ⟨0x010, 1, 4, [⟨15, 0, .ro, 0, anyReq⟩, ⟨23, 16, .ro, 0, anyReq⟩]⟩,  -- SHF_CUR_LAYER
  ⟨0x020, 4, 4, [⟨0, 0, .rw, 0, anyReq⟩, ⟨1, 1, .rw, 0, anyReq⟩, ⟨2, 2, .rw, 0, anyReq⟩, ⟨15, 8, .rw, 1, 0x100⟩]⟩,  -- SHF_BERTH_CTL0
  ⟨0x030, 4, 4, [⟨0, 0, .ro, 0, anyReq⟩, ⟨1, 1, .ro, 0, anyReq⟩, ⟨2, 2, .ro, 0, anyReq⟩, ⟨15, 8, .ro, 0, anyReq⟩, ⟨31, 16, .ro, 0, anyReq⟩]⟩,  -- SHF_BERTH_STAT0
  ⟨0x040, 1, 4, [⟨31, 0, .rw, 16384, anyReq⟩]⟩,  -- SHF_FILL_CAP
  ⟨0x044, 1, 4, [⟨31, 0, .rwl, 65536, anyReq⟩]⟩,  -- SHF_QUANTUM
  ⟨0x050, 1, 4, [⟨0, 0, .ro, 0, anyReq⟩, ⟨1, 1, .ro, 0, anyReq⟩, ⟨2, 2, .ro, 0, anyReq⟩, ⟨3, 3, .ro, 0, anyReq⟩, ⟨25, 16, .ro, 0, anyReq⟩]⟩,  -- SHF_FAULT
  ⟨0x054, 1, 4, [⟨15, 0, .ro, 0, anyReq⟩]⟩,  -- SHF_CE_COUNT
  ⟨0x058, 1, 4, [⟨15, 0, .rw, 256, anyReq⟩]⟩,  -- SHF_CE_THRESH
  ⟨0x060, 1, 4, [⟨0, 0, .w1c, 0, anyReq⟩, ⟨1, 1, .w1c, 0, anyReq⟩, ⟨2, 2, .w1c, 0, anyReq⟩, ⟨3, 3, .w1c, 0, anyReq⟩]⟩,  -- SHF_IRQ_STAT
  ⟨0x064, 1, 4, [⟨3, 0, .rw, 3, anyReq⟩]⟩,  -- SHF_IRQ_EN
  ⟨0x074, 1, 4, [⟨0, 0, .rw, 0, anyReq⟩, ⟨1, 1, .wo, 0, anyReq⟩]⟩,  -- SHF_CNT_CTL
  ⟨0x080, 1, 4, [⟨23, 0, .rwl, 16384, anyReq⟩]⟩,  -- SHF_WDOG
  ⟨0x084, 1, 4, [⟨0, 0, .rw, 0, anyReq⟩]⟩]  -- SHF_LOCK

/-- The NUM block (R100). -/
def regsNUM : List RegSpec := [
  ⟨0x000, 1, 4, [⟨31, 16, .ro, 20053, anyReq⟩, ⟨15, 0, .ro, 256, anyReq⟩]⟩,  -- NUM_ID
  ⟨0x004, 1, 4, [⟨0, 0, .rw, 1, anyReq⟩]⟩,  -- NUM_CTL
  ⟨0x010, 4, 4, [⟨0, 0, .rw, 0, anyReq⟩]⟩,  -- NUM_BERTH_CTL0
  ⟨0x020, 4, 4, [⟨9, 0, .rw, 0, anyReq⟩]⟩,  -- NUM_CEN_IDX0
  ⟨0x030, 4, 4, [⟨9, 0, .ro, 0, anyReq⟩, ⟨15, 15, .ro, 0, anyReq⟩, ⟨31, 16, .ro, 0, anyReq⟩]⟩,  -- NUM_DIRTY0
  ⟨0x040, 4, 4, [⟨0, 0, .wo, 0, anyReq⟩]⟩,  -- NUM_DIRTY_POP0
  ⟨0x050, 4, 4, [⟨31, 0, .wo, 0, anyReq⟩]⟩,  -- NUM_SEED_LO0
  ⟨0x060, 4, 4, [⟨31, 0, .wo, 0, anyReq⟩]⟩,  -- NUM_SEED_HI0
  ⟨0x070, 1, 4, [⟨3, 0, .w1c, 0, anyReq⟩, ⟨7, 4, .w1c, 0, anyReq⟩, ⟨11, 8, .w1c, 0, anyReq⟩]⟩,  -- NUM_IRQ_STAT
  ⟨0x074, 1, 4, [⟨2, 0, .rw, 7, anyReq⟩]⟩]  -- NUM_IRQ_EN

/-- The SND block (R158). -/
def regsSND : List RegSpec := [
  ⟨0x000, 1, 4, [⟨31, 16, .ro, 21326, anyReq⟩, ⟨15, 0, .ro, 256, anyReq⟩]⟩,  -- SND_ID
  ⟨0x004, 1, 4, [⟨0, 0, .rw, 1, anyReq⟩]⟩,  -- SND_CTL
  ⟨0x010, 4, 4, [⟨15, 0, .rw, 64, anyReq⟩]⟩,  -- SND_STAGE_QUOTA0
  ⟨0x020, 4, 4, [⟨15, 0, .ro, 0, anyReq⟩]⟩,  -- SND_STAGE_USED0
  ⟨0x030, 1, 4, [⟨12, 0, .ro, 0, anyReq⟩]⟩,  -- SND_SLOTS
  ⟨0x034, 1, 4, [⟨11, 0, .ro, 0, anyReq⟩, ⟨15, 12, .ro, 0, anyReq⟩, ⟨17, 16, .ro, 0, anyReq⟩]⟩,  -- SND_ERR
  ⟨0x040, 1, 4, [⟨0, 0, .w1c, 0, anyReq⟩, ⟨1, 1, .w1c, 0, anyReq⟩]⟩,  -- SND_IRQ_STAT
  ⟨0x044, 1, 4, [⟨1, 0, .rw, 1, anyReq⟩]⟩]  -- SND_IRQ_EN

/-- The SLV block (R160). -/
def regsSLV : List RegSpec := [
  ⟨0x000, 1, 4, [⟨31, 16, .ro, 21324, anyReq⟩, ⟨15, 0, .ro, 256, anyReq⟩]⟩,  -- SLV_ID
  ⟨0x004, 1, 4, [⟨0, 0, .rw, 1, anyReq⟩]⟩,  -- SLV_CTL
  ⟨0x008, 1, 4, [⟨31, 0, .rwl, 897581056, anyReq⟩]⟩,  -- SLV_TAU
  ⟨0x00C, 1, 4, [⟨31, 0, .rwl, 947912704, anyReq⟩]⟩,  -- SLV_TOL
  ⟨0x010, 1, 4, [⟨31, 0, .rwl, 981467136, anyReq⟩]⟩,  -- SLV_TOL_ORTH
  ⟨0x014, 1, 4, [⟨7, 0, .rwl, 24, anyReq⟩, ⟨15, 8, .rwl, 8, anyReq⟩, ⟨23, 16, .rwl, 12, anyReq⟩]⟩,  -- SLV_ITER
  ⟨0x018, 1, 4, [⟨3, 0, .rwl, 2, anyReq⟩]⟩,  -- SLV_LAG
  ⟨0x020, 1, 4, [⟨0, 0, .ro, 0, anyReq⟩, ⟨2, 1, .ro, 0, anyReq⟩, ⟨15, 4, .ro, 0, anyReq⟩, ⟨18, 16, .ro, 0, anyReq⟩, ⟨21, 19, .ro, 0, anyReq⟩]⟩,  -- SLV_STAT
  ⟨0x024, 1, 4, [⟨15, 0, .ro, 0, anyReq⟩]⟩,  -- SLV_QUEUED
  ⟨0x028, 1, 4, [⟨11, 0, .ro, 0, anyReq⟩, ⟨15, 12, .ro, 0, anyReq⟩, ⟨17, 16, .ro, 0, anyReq⟩, ⟨31, 24, .ro, 0, anyReq⟩]⟩,  -- SLV_LAST
  ⟨0x030, 1, 4, [⟨0, 0, .w1c, 0, anyReq⟩, ⟨1, 1, .w1c, 0, anyReq⟩, ⟨2, 2, .w1c, 0, anyReq⟩, ⟨3, 3, .w1c, 0, anyReq⟩]⟩,  -- SLV_IRQ_STAT
  ⟨0x034, 1, 4, [⟨3, 0, .rw, 5, anyReq⟩]⟩,  -- SLV_IRQ_EN
  ⟨0x038, 1, 4, [⟨0, 0, .rw, 0, anyReq⟩]⟩]  -- SLV_LOCK

/-- The UPD block (R196). -/
def regsUPD : List RegSpec := [
  ⟨0x000, 1, 4, [⟨31, 16, .ro, 21840, anyReq⟩, ⟨15, 0, .ro, 256, anyReq⟩]⟩,  -- UPD_ID
  ⟨0x004, 1, 4, [⟨0, 0, .rw, 1, anyReq⟩]⟩,  -- UPD_CTL
  ⟨0x008, 1, 4, [⟨0, 0, .ro, 0, anyReq⟩, ⟨2, 1, .ro, 0, anyReq⟩, ⟨4, 3, .ro, 0, anyReq⟩, ⟨7, 5, .ro, 0, anyReq⟩, ⟨31, 16, .ro, 0, anyReq⟩]⟩,  -- UPD_STAT
  ⟨0x00C, 1, 4, [⟨7, 0, .rwl, 8, anyReq⟩]⟩,  -- UPD_SKIP_LIMIT
  ⟨0x010, 4, 4, [⟨7, 0, .ro, 0, anyReq⟩, ⟨8, 8, .ro, 0, anyReq⟩, ⟨9, 9, .ro, 0, anyReq⟩, ⟨31, 16, .ro, 0, anyReq⟩]⟩,  -- UPD_BERTH_STAT0
  ⟨0x020, 4, 4, [⟨15, 0, .rw, 0, anyReq⟩]⟩,  -- UPD_TRIG0
  ⟨0x030, 1, 4, [⟨31, 0, .ro, 0, anyReq⟩]⟩,  -- UPD_PROG
  ⟨0x034, 1, 4, [⟨7, 0, .ro, 0, anyReq⟩, ⟨12, 8, .ro, 0, anyReq⟩, ⟨23, 16, .ro, 0, anyReq⟩, ⟨25, 24, .ro, 0, anyReq⟩]⟩,  -- UPD_ERR
  ⟨0x040, 1, 4, [⟨0, 0, .w1c, 0, anyReq⟩, ⟨1, 1, .w1c, 0, anyReq⟩, ⟨2, 2, .w1c, 0, anyReq⟩, ⟨3, 3, .w1c, 0, anyReq⟩, ⟨4, 4, .w1c, 0, anyReq⟩]⟩,  -- UPD_IRQ_STAT
  ⟨0x044, 1, 4, [⟨4, 0, .rw, 21, anyReq⟩]⟩,  -- UPD_IRQ_EN
  ⟨0x048, 1, 4, [⟨0, 0, .rw, 0, anyReq⟩]⟩]  -- UPD_LOCK

/-- The ALM block (R198). -/
def regsALM : List RegSpec := [
  ⟨0x000, 1, 4, [⟨31, 16, .ro, 16716, anyReq⟩, ⟨15, 0, .ro, 256, anyReq⟩]⟩,  -- ALM_ID
  ⟨0x010, 4, 4, [⟨31, 0, .ro, 0, anyReq⟩]⟩,  -- ALM_EVAL0
  ⟨0x020, 1, 4, [⟨5, 0, .ro, 0, anyReq⟩, ⟨9, 8, .ro, 0, anyReq⟩, ⟨15, 12, .ro, 0, anyReq⟩]⟩,  -- ALM_ERR
  ⟨0x030, 1, 4, [⟨0, 0, .w1c, 0, anyReq⟩]⟩,  -- ALM_IRQ_STAT
  ⟨0x034, 1, 4, [⟨0, 0, .rw, 1, anyReq⟩]⟩]  -- ALM_IRQ_EN

/-- The HBR block (R232). -/
def regsHBR : List RegSpec := [
  ⟨0x000, 1, 4, [⟨31, 16, .ro, 18498, anyReq⟩, ⟨15, 0, .ro, 256, anyReq⟩]⟩,  -- HBR_ID
  ⟨0x010, 4, 4, [⟨8, 0, .rw, 72, anyReq⟩]⟩,  -- HBR_PART0
  ⟨0x020, 4, 4, [⟨8, 0, .ro, 0, anyReq⟩, ⟨24, 16, .ro, 0, anyReq⟩]⟩,  -- HBR_USED0
  ⟨0x030, 1, 4, [⟨15, 0, .ro, 0, anyReq⟩]⟩,  -- HBR_CE_COUNT
  ⟨0x034, 1, 4, [⟨15, 0, .rw, 256, anyReq⟩]⟩,  -- HBR_CE_THRESH
  ⟨0x038, 1, 4, [⟨31, 0, .rwl, 1000, anyReq⟩]⟩,  -- HBR_SCRUB
  ⟨0x040, 1, 4, [⟨1, 0, .ro, 0, anyReq⟩, ⟨3, 2, .ro, 0, anyReq⟩, ⟨5, 4, .ro, 0, anyReq⟩, ⟨6, 6, .ro, 0, anyReq⟩, ⟨29, 8, .ro, 0, anyReq⟩]⟩,  -- HBR_ERR
  ⟨0x050, 1, 4, [⟨0, 0, .w1c, 0, anyReq⟩, ⟨1, 1, .w1c, 0, anyReq⟩, ⟨2, 2, .w1c, 0, anyReq⟩]⟩,  -- HBR_IRQ_STAT
  ⟨0x054, 1, 4, [⟨2, 0, .rw, 3, anyReq⟩]⟩,  -- HBR_IRQ_EN
  ⟨0x058, 1, 4, [⟨0, 0, .rw, 0, anyReq⟩]⟩]  -- HBR_LOCK

/-- The PGR block (R234). -/
def regsPGR : List RegSpec := [
  ⟨0x000, 1, 4, [⟨31, 16, .ro, 20551, anyReq⟩, ⟨15, 0, .ro, 256, anyReq⟩]⟩,  -- PGR_ID
  ⟨0x004, 1, 4, [⟨0, 0, .rw, 1, anyReq⟩, ⟨15, 8, .rw, 64, anyReq⟩]⟩,  -- PGR_CTL
  ⟨0x008, 1, 4, [⟨15, 0, .rw, 64, anyReq⟩]⟩,  -- PGR_HEADROOM
  ⟨0x010, 4, 4, [⟨17, 0, .rw, 49024, anyReq⟩]⟩,  -- PGR_T2_QUOTA0
  ⟨0x020, 4, 4, [⟨20, 0, .rw, 0, anyReq⟩]⟩,  -- PGR_T3_QUOTA0
  ⟨0x030, 4, 4, [⟨17, 0, .rw, 128, anyReq⟩]⟩,  -- PGR_SPILL0
  ⟨0x040, 4, 4, [⟨17, 0, .ro, 0, anyReq⟩]⟩,  -- PGR_T2_USED0
  ⟨0x050, 4, 4, [⟨20, 0, .ro, 0, anyReq⟩]⟩,  -- PGR_T3_USED0
  ⟨0x060, 1, 4, [⟨4, 0, .ro, 0, anyReq⟩, ⟨11, 8, .ro, 0, anyReq⟩]⟩,  -- PGR_STAT
  ⟨0x064, 1, 4, [⟨1, 0, .ro, 0, anyReq⟩, ⟨3, 2, .ro, 0, anyReq⟩]⟩,  -- PGR_ERR
  ⟨0x070, 1, 4, [⟨0, 0, .w1c, 0, anyReq⟩, ⟨1, 1, .w1c, 0, anyReq⟩, ⟨2, 2, .w1c, 0, anyReq⟩]⟩,  -- PGR_IRQ_STAT
  ⟨0x074, 1, 4, [⟨2, 0, .rw, 5, anyReq⟩]⟩]  -- PGR_IRQ_EN

/-- The HBM block (R236). -/
def regsHBM : List RegSpec := [
  ⟨0x000, 1, 4, [⟨31, 16, .ro, 18509, anyReq⟩, ⟨15, 0, .ro, 256, anyReq⟩]⟩,  -- HBM_ID
  ⟨0x004, 1, 4, [⟨7, 0, .ro, 0, anyReq⟩, ⟨15, 8, .ro, 0, anyReq⟩]⟩,  -- HBM_STAT
  ⟨0x008, 1, 4, [⟨15, 0, .rw, 1024, anyReq⟩]⟩,  -- HBM_CE_THRESH
  ⟨0x010, 8, 4, [⟨15, 0, .ro, 0, anyReq⟩]⟩,  -- HBM_CE_COUNT0
  ⟨0x030, 1, 4, [⟨31, 0, .rwl, 16777216, anyReq⟩]⟩,  -- HBM_SCRUB
  ⟨0x034, 1, 4, [⟨2, 0, .ro, 0, anyReq⟩, ⟨7, 3, .ro, 0, anyReq⟩, ⟨8, 8, .ro, 0, anyReq⟩]⟩,  -- HBM_ERR
  ⟨0x040, 1, 4, [⟨0, 0, .w1c, 0, anyReq⟩, ⟨1, 1, .w1c, 0, anyReq⟩, ⟨2, 2, .w1c, 0, anyReq⟩]⟩,  -- HBM_IRQ_STAT
  ⟨0x044, 1, 4, [⟨2, 0, .rw, 7, anyReq⟩]⟩,  -- HBM_IRQ_EN
  ⟨0x048, 1, 4, [⟨0, 0, .rw, 0, anyReq⟩]⟩]  -- HBM_LOCK

/-- The DDR block (R238). -/
def regsDDR : List RegSpec := [
  ⟨0x000, 1, 4, [⟨31, 16, .ro, 17476, anyReq⟩, ⟨15, 0, .ro, 256, anyReq⟩]⟩,  -- DDR_ID
  ⟨0x004, 1, 4, [⟨11, 0, .ro, 0, anyReq⟩, ⟨27, 16, .ro, 0, anyReq⟩]⟩,  -- DDR_STAT
  ⟨0x008, 1, 4, [⟨23, 0, .ro, 0, anyReq⟩]⟩,  -- DDR_CAP
  ⟨0x00C, 1, 4, [⟨15, 0, .rw, 1024, anyReq⟩]⟩,  -- DDR_CE_THRESH
  ⟨0x010, 1, 4, [⟨7, 0, .rwl, 4, anyReq⟩]⟩,  -- DDR_UE_LIMIT
  ⟨0x020, 12, 4, [⟨15, 0, .ro, 0, anyReq⟩, ⟨23, 16, .ro, 0, anyReq⟩]⟩,  -- DDR_CE_COUNT0
  ⟨0x050, 1, 4, [⟨31, 0, .rwl, 67108864, anyReq⟩]⟩,  -- DDR_SCRUB
  ⟨0x054, 1, 4, [⟨3, 0, .ro, 0, anyReq⟩, ⟨4, 4, .ro, 0, anyReq⟩, ⟨5, 5, .ro, 0, anyReq⟩]⟩,  -- DDR_ERR
  ⟨0x060, 1, 4, [⟨0, 0, .w1c, 0, anyReq⟩, ⟨1, 1, .w1c, 0, anyReq⟩, ⟨2, 2, .w1c, 0, anyReq⟩]⟩,  -- DDR_IRQ_STAT
  ⟨0x064, 1, 4, [⟨2, 0, .rw, 7, anyReq⟩]⟩,  -- DDR_IRQ_EN
  ⟨0x068, 1, 4, [⟨0, 0, .rw, 0, anyReq⟩]⟩]  -- DDR_LOCK

/-- The CLF port sub-block (R272). -/
def regsCLFP : List RegSpec := [
  ⟨0x000, 1, 4, [⟨3, 0, .ro, 0, anyReq⟩, ⟨31, 16, .ro, 17228, anyReq⟩]⟩,  -- CLF_PID
  ⟨0x004, 1, 4, [⟨0, 0, .rw, 1, anyReq⟩, ⟨1, 1, .wo, 0, anyReq⟩, ⟨2, 2, .rw, 0, anyReq⟩]⟩,  -- CLF_PCTL
  ⟨0x008, 1, 4, [⟨3, 0, .ro, 0, anyReq⟩, ⟨11, 4, .ro, 0, anyReq⟩, ⟨12, 12, .ro, 0, anyReq⟩, ⟨31, 16, .ro, 0, anyReq⟩]⟩,  -- CLF_PSTAT
  ⟨0x00C, 1, 4, [⟨16, 0, .ro, 0, anyReq⟩, ⟨17, 17, .ro, 0, anyReq⟩, ⟨23, 20, .ro, 0, anyReq⟩]⟩,  -- CLF_PEER
  ⟨0x010, 1, 4, [⟨15, 0, .ro, 0, anyReq⟩]⟩,  -- CLF_LAT
  ⟨0x014, 1, 4, [⟨15, 0, .rw, 8192, anyReq⟩]⟩,  -- CLF_THRESH
  ⟨0x018, 1, 4, [⟨7, 0, .rwl, 16, anyReq⟩, ⟨31, 16, .rwl, 1000, anyReq⟩]⟩,  -- CLF_RETRY
  ⟨0x01C, 1, 4, [⟨3, 0, .ro, 0, anyReq⟩, ⟨7, 4, .ro, 0, anyReq⟩]⟩,  -- CLF_TRAIN
  ⟨0x030, 1, 4, [⟨0, 0, .w1c, 0, anyReq⟩, ⟨1, 1, .w1c, 0, anyReq⟩, ⟨2, 2, .w1c, 0, anyReq⟩, ⟨3, 3, .w1c, 0, anyReq⟩, ⟨4, 4, .w1c, 0, anyReq⟩]⟩,  -- CLF_PIRQ_STAT
  ⟨0x034, 1, 4, [⟨4, 0, .rw, 30, anyReq⟩]⟩]  -- CLF_PIRQ_EN

/-- The CLF common sub-block (R273). -/
def regsCLFC : List RegSpec := [
  ⟨0x000, 1, 4, [⟨31, 16, .ro, 17228, anyReq⟩, ⟨15, 0, .ro, 256, anyReq⟩]⟩,  -- CLF_ID
  ⟨0x004, 1, 4, [⟨5, 0, .ro, 0, anyReq⟩, ⟨11, 6, .ro, 0, anyReq⟩, ⟨16, 12, .ro, 0, anyReq⟩, ⟨17, 17, .ro, 0, anyReq⟩, ⟨18, 18, .ro, 0, anyReq⟩]⟩,  -- CLF_COORD
  ⟨0x008, 1, 4, [⟨6, 0, .ro, 0, anyReq⟩, ⟨14, 8, .ro, 0, anyReq⟩, ⟨21, 16, .ro, 0, anyReq⟩]⟩,  -- CLF_DIMS
  ⟨0x00C, 1, 4, [⟨15, 0, .ro, 0, anyReq⟩]⟩,  -- CLF_DOMAIN
  ⟨0x010, 1, 4, [⟨17, 0, .ro, 0, anyReq⟩, ⟨31, 18, .ro, 0, anyReq⟩]⟩,  -- CLF_DISC_COUNT
  ⟨0x014, 1, 4, [⟨15, 0, .rwl, 5000, anyReq⟩, ⟨31, 16, .rwl, 20000, anyReq⟩]⟩,  -- CLF_TMO
  ⟨0x018, 1, 4, [⟨5, 0, .ro, 0, anyReq⟩]⟩,  -- CLF_DIRS
  ⟨0x01C, 1, 4, [⟨3, 0, .ro, 0, anyReq⟩, ⟨4, 4, .ro, 0, anyReq⟩, ⟨31, 16, .ro, 0, anyReq⟩]⟩,  -- CLF_TICK
  ⟨0x030, 1, 4, [⟨0, 0, .w1c, 0, anyReq⟩, ⟨1, 1, .w1c, 0, anyReq⟩, ⟨2, 2, .w1c, 0, anyReq⟩, ⟨3, 3, .w1c, 0, anyReq⟩]⟩,  -- CLF_IRQ_STAT
  ⟨0x034, 1, 4, [⟨3, 0, .rw, 15, anyReq⟩]⟩,  -- CLF_IRQ_EN
  ⟨0x038, 1, 4, [⟨0, 0, .rw, 0, anyReq⟩]⟩]  -- CLF_LOCK

/-- The LSH block (R305). -/
def regsLSH : List RegSpec := [
  ⟨0x000, 1, 4, [⟨31, 16, .ro, 19539, anyReq⟩, ⟨15, 0, .ro, 256, anyReq⟩]⟩,  -- LSH_ID
  ⟨0x004, 1, 4, [⟨0, 0, .rw, 1, anyReq⟩]⟩,  -- LSH_CTL
  ⟨0x008, 1, 4, [⟨7, 0, .rwl, 64, anyReq⟩]⟩,  -- LSH_WINDOW
  ⟨0x00C, 1, 4, [⟨15, 0, .rwl, 200, anyReq⟩]⟩,  -- LSH_TMO
  ⟨0x010, 4, 4, [⟨15, 0, .rw, 0, anyReq⟩]⟩,  -- LSH_TIMED0
  ⟨0x020, 4, 4, [⟨15, 0, .ro, 0, anyReq⟩, ⟨16, 16, .ro, 0, anyReq⟩, ⟨18, 17, .ro, 0, anyReq⟩, ⟨31, 19, .ro, 0, anyReq⟩]⟩,  -- LSH_STAT0
  ⟨0x030, 4, 4, [⟨0, 0, .ro, 0, anyReq⟩, ⟨1, 1, .ro, 0, anyReq⟩, ⟨2, 2, .ro, 0, anyReq⟩, ⟨15, 8, .ro, 0, anyReq⟩, ⟨23, 16, .ro, 0, anyReq⟩]⟩,  -- LSH_FLAG0
  ⟨0x040, 1, 4, [⟨15, 0, .ro, 0, anyReq⟩, ⟨19, 16, .ro, 0, anyReq⟩, ⟨21, 20, .ro, 0, anyReq⟩]⟩,  -- LSH_ERR
  ⟨0x050, 1, 4, [⟨0, 0, .w1c, 0, anyReq⟩, ⟨1, 1, .w1c, 0, anyReq⟩, ⟨2, 2, .w1c, 0, anyReq⟩, ⟨3, 3, .w1c, 0, anyReq⟩, ⟨4, 4, .w1c, 0, anyReq⟩]⟩,  -- LSH_IRQ_STAT
  ⟨0x054, 1, 4, [⟨4, 0, .rw, 11, anyReq⟩]⟩,  -- LSH_IRQ_EN
  ⟨0x058, 1, 4, [⟨0, 0, .rw, 0, anyReq⟩]⟩]  -- LSH_LOCK

/-- The SHG block (R340). -/
def regsSHG : List RegSpec := [
  ⟨0x000, 1, 4, [⟨31, 16, .ro, 21319, anyReq⟩, ⟨15, 0, .ro, 256, anyReq⟩]⟩,  -- SHG_ID
  ⟨0x004, 1, 4, [⟨0, 0, .rw, 1, anyReq⟩]⟩,  -- SHG_CTL
  ⟨0x008, 1, 4, [⟨6, 0, .ro, 0, anyReq⟩, ⟨14, 8, .ro, 0, anyReq⟩, ⟨16, 16, .ro, 0, anyReq⟩]⟩,  -- SHG_STAT
  ⟨0x010, 1, 4, [⟨5, 0, .rw, 0, anyReq⟩]⟩,  -- SHG_SLOT_SEL
  ⟨0x014, 1, 4, [⟨1, 0, .ro, 0, anyReq⟩, ⟨5, 2, .ro, 0, anyReq⟩, ⟨7, 6, .ro, 0, anyReq⟩, ⟨31, 8, .ro, 0, anyReq⟩]⟩,  -- SHG_SLOT_STAT
  ⟨0x020, 1, 4, [⟨5, 0, .ro, 0, anyReq⟩, ⟨11, 8, .ro, 0, anyReq⟩, ⟨13, 12, .ro, 0, anyReq⟩]⟩,  -- SHG_ERR
  ⟨0x030, 1, 4, [⟨0, 0, .w1c, 0, anyReq⟩, ⟨1, 1, .w1c, 0, anyReq⟩, ⟨2, 2, .w1c, 0, anyReq⟩, ⟨3, 3, .w1c, 0, anyReq⟩]⟩,  -- SHG_IRQ_STAT
  ⟨0x034, 1, 4, [⟨3, 0, .rw, 7, anyReq⟩]⟩]  -- SHG_IRQ_EN

/-- The SWL block (R342). -/
def regsSWL : List RegSpec := [
  ⟨0x000, 1, 4, [⟨31, 16, .ro, 21335, anyReq⟩, ⟨15, 0, .ro, 256, anyReq⟩]⟩,  -- SWL_ID
  ⟨0x004, 1, 4, [⟨0, 0, .rw, 1, anyReq⟩]⟩,  -- SWL_CTL
  ⟨0x008, 1, 4, [⟨6, 0, .ro, 0, anyReq⟩, ⟨11, 8, .ro, 0, anyReq⟩, ⟨12, 12, .ro, 0, anyReq⟩, ⟨13, 13, .ro, 0, anyReq⟩]⟩,  -- SWL_STAT
  ⟨0x010, 1, 4, [⟨4, 0, .rw, 0, 0x082⟩]⟩,  -- SWL_KSEL
  ⟨0x020, 8, 4, [⟨31, 0, .wo, 0, 0x082⟩]⟩,  -- SWL_KEY0
  ⟨0x040, 1, 4, [⟨31, 0, .wo, 0, 0x082⟩]⟩,  -- SWL_SALT
  ⟨0x044, 1, 4, [⟨0, 0, .wo, 0, 0x082⟩, ⟨1, 1, .wo, 0, 0x082⟩, ⟨2, 2, .wo, 0, 0x082⟩, ⟨5, 4, .rw, 0, 0x082⟩, ⟨7, 6, .rw, 0, 0x082⟩, ⟨15, 8, .rw, 0, 0x082⟩]⟩,  -- SWL_KCTL
  ⟨0x048, 1, 4, [⟨1, 0, .ro, 0, anyReq⟩, ⟨3, 2, .ro, 0, anyReq⟩, ⟨5, 4, .ro, 0, anyReq⟩, ⟨6, 6, .ro, 0, anyReq⟩, ⟨15, 8, .ro, 0, anyReq⟩, ⟨22, 16, .ro, 0, anyReq⟩]⟩,  -- SWL_KSTAT
  ⟨0x050, 1, 4, [⟨0, 0, .ro, 0, 0x002⟩, ⟨1, 1, .ro, 0, 0x002⟩, ⟨2, 2, .ro, 0, 0x002⟩, ⟨3, 3, .ro, 0, 0x002⟩, ⟨8, 8, .wo, 0, 0x002⟩]⟩,  -- SWL_ALARM
  ⟨0x054, 1, 4, [⟨3, 0, .rwl, 15, anyReq⟩]⟩,  -- SWL_ALARM_EN
  ⟨0x060, 1, 4, [⟨4, 0, .ro, 0, anyReq⟩, ⟨11, 8, .ro, 0, anyReq⟩, ⟨13, 12, .ro, 0, anyReq⟩]⟩,  -- SWL_ERR
  ⟨0x070, 1, 4, [⟨0, 0, .w1c, 0, anyReq⟩, ⟨1, 1, .w1c, 0, anyReq⟩, ⟨2, 2, .w1c, 0, anyReq⟩, ⟨3, 3, .w1c, 0, anyReq⟩, ⟨4, 4, .w1c, 0, anyReq⟩]⟩,  -- SWL_IRQ_STAT
  ⟨0x074, 1, 4, [⟨4, 0, .rw, 15, anyReq⟩]⟩,  -- SWL_IRQ_EN
  ⟨0x078, 1, 4, [⟨0, 0, .rw, 0, anyReq⟩]⟩]  -- SWL_LOCK

/-- The OFS block (R382). -/
def regsOFS : List RegSpec := [
  ⟨0x000, 1, 4, [⟨31, 16, .ro, 20294, anyReq⟩, ⟨15, 0, .ro, 256, anyReq⟩]⟩,  -- OFS_ID
  ⟨0x004, 1, 4, [⟨0, 0, .rw, 1, anyReq⟩]⟩,  -- OFS_CTL
  ⟨0x010, 4, 4, [⟨2, 0, .ro, 0, anyReq⟩, ⟨3, 3, .ro, 0, anyReq⟩, ⟨7, 4, .ro, 0, anyReq⟩, ⟨23, 8, .ro, 0, anyReq⟩, ⟨25, 24, .ro, 0, anyReq⟩]⟩,  -- OFS_STAT0
  ⟨0x020, 4, 4, [⟨31, 0, .ro, 0, anyReq⟩]⟩,  -- OFS_ROUND0
  ⟨0x030, 1, 4, [⟨3, 0, .rw, 0, anyReq⟩, ⟨5, 4, .rw, 0, anyReq⟩]⟩,  -- OFS_PEER_SEL
  ⟨0x034, 1, 4, [⟨1, 0, .ro, 0, anyReq⟩, ⟨2, 2, .ro, 0, anyReq⟩, ⟨3, 3, .ro, 0, anyReq⟩, ⟨4, 4, .ro, 0, anyReq⟩, ⟨5, 5, .ro, 0, anyReq⟩, ⟨15, 8, .ro, 0, anyReq⟩, ⟨31, 16, .ro, 0, anyReq⟩]⟩,  -- OFS_PEER_STAT
  ⟨0x038, 1, 4, [⟨31, 0, .ro, 0, anyReq⟩]⟩,  -- OFS_PEER_RATE
  ⟨0x040, 1, 4, [⟨31, 0, .rwl, 100000, anyReq⟩]⟩,  -- OFS_WAIT
  ⟨0x044, 1, 4, [⟨31, 0, .rwl, 300000, anyReq⟩]⟩,  -- OFS_PEER_TMO
  ⟨0x048, 1, 4, [⟨15, 0, .rwl, 200, anyReq⟩, ⟨31, 16, .rwl, 1000, anyReq⟩]⟩,  -- OFS_RTO
  ⟨0x04C, 1, 4, [⟨15, 0, .rw, 2000, anyReq⟩]⟩,  -- OFS_FAILBACK
  ⟨0x050, 1, 4, [⟨3, 0, .ro, 0, anyReq⟩, ⟨5, 4, .ro, 0, anyReq⟩, ⟨11, 8, .ro, 0, anyReq⟩, ⟨27, 12, .ro, 0, anyReq⟩]⟩,  -- OFS_ERR
  ⟨0x060, 1, 4, [⟨0, 0, .w1c, 0, anyReq⟩, ⟨1, 1, .w1c, 0, anyReq⟩, ⟨2, 2, .w1c, 0, anyReq⟩, ⟨3, 3, .w1c, 0, anyReq⟩, ⟨4, 4, .w1c, 0, anyReq⟩, ⟨5, 5, .w1c, 0, anyReq⟩, ⟨6, 6, .w1c, 0, anyReq⟩, ⟨7, 7, .w1c, 0, anyReq⟩, ⟨8, 8, .w1c, 0, anyReq⟩, ⟨9, 9, .w1c, 0, anyReq⟩]⟩,  -- OFS_IRQ_STAT
  ⟨0x064, 1, 4, [⟨9, 0, .rw, 991, anyReq⟩]⟩,  -- OFS_IRQ_EN
  ⟨0x068, 1, 4, [⟨0, 0, .rw, 0, anyReq⟩]⟩]  -- OFS_LOCK

/-- The ETH block (R428). -/
def regsETH : List RegSpec := [
  ⟨0x000, 1, 4, [⟨31, 16, .ro, 17748, anyReq⟩, ⟨15, 0, .ro, 256, anyReq⟩]⟩,  -- ETH_ID
  ⟨0x004, 1, 4, [⟨0, 0, .rw, 1, anyReq⟩, ⟨1, 1, .rw, 0, anyReq⟩, ⟨2, 2, .rw, 1, anyReq⟩, ⟨3, 3, .rw, 0, anyReq⟩, ⟨4, 4, .rw, 1, anyReq⟩]⟩,  -- ETH_CTL
  ⟨0x008, 1, 4, [⟨3, 0, .ro, 0, anyReq⟩, ⟨7, 4, .ro, 0, anyReq⟩, ⟨8, 8, .ro, 0, anyReq⟩, ⟨9, 9, .ro, 0, anyReq⟩]⟩,  -- ETH_STAT
  ⟨0x00C, 1, 4, [⟨15, 0, .rwl, 47100, anyReq⟩]⟩,  -- ETH_ECP_PORT
  ⟨0x010, 4, 4, [⟨11, 0, .rw, 0, anyReq⟩, ⟨14, 12, .rw, 0, anyReq⟩]⟩,  -- ETH_VLAN0
  ⟨0x020, 1, 4, [⟨5, 0, .rw, 0, anyReq⟩]⟩,  -- ETH_DSCP
  ⟨0x024, 1, 4, [⟨7, 0, .rw, 0, anyReq⟩, ⟨8, 8, .rw, 0, anyReq⟩]⟩,  -- ETH_PTP
  ⟨0x030, 1, 4, [⟨1, 0, .rw, 0, 0x140⟩, ⟨3, 2, .rw, 0, 0x140⟩]⟩,  -- ETH_IP_SEL
  ⟨0x034, 4, 4, [⟨31, 0, .rw, 0, 0x140⟩]⟩,  -- ETH_IP0
  ⟨0x044, 1, 4, [⟨0, 0, .wo, 0, 0x140⟩, ⟨1, 1, .wo, 0, 0x140⟩]⟩,  -- ETH_IP_CTL
  ⟨0x050, 1, 4, [⟨0, 0, .w1c, 0, anyReq⟩, ⟨1, 1, .w1c, 0, anyReq⟩, ⟨2, 2, .w1c, 0, anyReq⟩]⟩,  -- ETH_IRQ_STAT
  ⟨0x054, 1, 4, [⟨2, 0, .rw, 7, anyReq⟩]⟩,  -- ETH_IRQ_EN
  ⟨0x058, 1, 4, [⟨0, 0, .rw, 0, anyReq⟩]⟩]  -- ETH_LOCK

/-- The CMD block (R430). -/
def regsCMD : List RegSpec := [
  ⟨0x000, 1, 4, [⟨31, 16, .ro, 17229, anyReq⟩, ⟨15, 0, .ro, 256, anyReq⟩]⟩,  -- CMD_ID
  ⟨0x004, 1, 4, [⟨0, 0, .rw, 1, anyReq⟩]⟩,  -- CMD_CTL
  ⟨0x010, 4, 4, [⟨1, 0, .ro, 0, anyReq⟩, ⟨2, 2, .ro, 0, anyReq⟩, ⟨3, 3, .ro, 0, anyReq⟩, ⟨7, 4, .ro, 0, anyReq⟩, ⟨15, 8, .ro, 0, anyReq⟩, ⟨24, 16, .ro, 0, anyReq⟩]⟩,  -- CMD_BERTH_STAT0
  ⟨0x020, 1, 4, [⟨1, 0, .rw, 0, 0x102⟩]⟩,  -- CMD_ADM_SEL
  ⟨0x024, 8, 4, [⟨31, 0, .wo, 0, 0x102⟩]⟩,  -- CMD_ADM_HASH0
  ⟨0x044, 1, 4, [⟨0, 0, .wo, 0, 0x102⟩, ⟨1, 1, .wo, 0, 0x102⟩, ⟨2, 2, .rw, 0, 0x102⟩]⟩,  -- CMD_ADM_CTL
  ⟨0x050, 1, 4, [⟨15, 0, .rw, 10, anyReq⟩]⟩,  -- CMD_RETRY
  ⟨0x054, 1, 4, [⟨31, 0, .rwl, 3000000, anyReq⟩]⟩,  -- CMD_LEASE
  ⟨0x058, 1, 4, [⟨15, 0, .rw, 100, anyReq⟩]⟩,  -- CMD_EVT_RTO
  ⟨0x05C, 1, 4, [⟨15, 0, .rw, 100, anyReq⟩]⟩,  -- CMD_HOLD
  ⟨0x060, 1, 4, [⟨15, 0, .ro, 0, anyReq⟩]⟩,  -- CMD_EPOCH
  ⟨0x070, 1, 4, [⟨0, 0, .w1c, 0, anyReq⟩, ⟨1, 1, .w1c, 0, anyReq⟩, ⟨2, 2, .w1c, 0, anyReq⟩, ⟨3, 3, .w1c, 0, anyReq⟩, ⟨4, 4, .w1c, 0, anyReq⟩]⟩,  -- CMD_IRQ_STAT
  ⟨0x074, 1, 4, [⟨4, 0, .rw, 29, anyReq⟩]⟩,  -- CMD_IRQ_EN
  ⟨0x078, 1, 4, [⟨0, 0, .rw, 0, anyReq⟩]⟩]  -- CMD_LOCK

/-- The DEV block (R462). -/
def regsDEV : List RegSpec := [
  ⟨0x000, 1, 4, [⟨31, 16, .ro, 17494, anyReq⟩, ⟨15, 0, .ro, 256, anyReq⟩]⟩,  -- DEV_ID
  ⟨0x004, 1, 4, [⟨15, 0, .ro, 0, anyReq⟩, ⟨23, 16, .ro, 1, anyReq⟩]⟩,  -- DEV_PART
  ⟨0x008, 1, 4, [⟨11, 0, .ro, 0, anyReq⟩, ⟨12, 12, .ro, 0, anyReq⟩, ⟨13, 13, .ro, 0, anyReq⟩, ⟨14, 14, .ro, 1, anyReq⟩, ⟨15, 15, .ro, 1, anyReq⟩]⟩,  -- DEV_CAP
  ⟨0x010, 5, 4, [⟨31, 0, .ro, 0, anyReq⟩]⟩,  -- DEV_DECODE0
  ⟨0x030, 1, 4, [⟨3, 0, .ro, 0, anyReq⟩]⟩,  -- DEV_WHOAMI
  ⟨0x034, 1, 4, [⟨19, 0, .ro, 0, anyReq⟩, ⟨23, 20, .ro, 0, anyReq⟩, ⟨24, 24, .ro, 0, anyReq⟩]⟩]  -- DEV_ERR

/-- The MBX block (R463). -/
def regsMBX : List RegSpec := [
  ⟨0x000, 1, 4, [⟨31, 16, .ro, 19778, anyReq⟩, ⟨15, 0, .ro, 256, anyReq⟩]⟩,  -- MBX_ID
  ⟨0x004, 1, 4, [⟨15, 0, .rw, 0, anyReq⟩]⟩,  -- MBX_SEL
  ⟨0x008, 1, 4, [⟨0, 0, .ro, 0, anyReq⟩, ⟨1, 1, .ro, 0, anyReq⟩, ⟨2, 2, .ro, 0, anyReq⟩, ⟨3, 3, .ro, 0, anyReq⟩, ⟨4, 4, .ro, 0, anyReq⟩]⟩,  -- MBX_STAT
  ⟨0x00C, 1, 4, [⟨0, 0, .wo, 0, anyReq⟩]⟩,  -- MBX_CTL
  ⟨0x010, 4, 4, [⟨31, 0, .ro, 0, anyReq⟩]⟩]  -- MBX_D0

/-- The ICU block (R464). -/
def regsICU : List RegSpec := [
  ⟨0x000, 1, 4, [⟨31, 16, .ro, 18755, anyReq⟩, ⟨15, 0, .ro, 256, anyReq⟩]⟩,  -- ICU_ID
  ⟨0x004, 1, 4, [⟨0, 0, .rw, 1, anyReq⟩]⟩,  -- ICU_CTL
  ⟨0x008, 1, 4, [⟨8, 0, .ro, 0, anyReq⟩, ⟨9, 9, .w1c, 0, anyReq⟩]⟩,  -- ICU_STAT
  ⟨0x010, 1, 4, [⟨9, 0, .ro, 1023, anyReq⟩]⟩,  -- ICU_CLAIM
  ⟨0x014, 1, 4, [⟨9, 0, .wo, 0, anyReq⟩]⟩,  -- ICU_EOI
  ⟨0x018, 1, 4, [⟨9, 0, .ro, 1023, anyReq⟩]⟩,  -- ICU_SELF
  ⟨0x100, 8, 4, [⟨31, 0, .rw, 0, anyReq⟩]⟩,  -- ICU_PEND0
  ⟨0x120, 8, 4, [⟨31, 0, .ro, 0, anyReq⟩]⟩,  -- ICU_ACT0
  ⟨0x140, 8, 4, [⟨31, 0, .w1c, 0, anyReq⟩]⟩,  -- ICU_STORM0
  ⟨0x160, 8, 4, [⟨31, 0, .ro, 0, anyReq⟩]⟩,  -- ICU_LEVEL0
  ⟨0x180, 1, 4, [⟨0, 0, .rw, 0, anyReq⟩]⟩,  -- ICU_LOCK
  ⟨0x400, 256, 4, [⟨7, 0, .rwl, 0, anyReq⟩, ⟨8, 8, .rwl, 0, anyReq⟩, ⟨9, 9, .rwl, 0, anyReq⟩, ⟨10, 10, .ro, 0, anyReq⟩]⟩,  -- ICU_CFG0
  ⟨0x800, 256, 4, [⟨15, 0, .rw, 0, anyReq⟩]⟩]  -- ICU_CNT0

/-- The ICF block (R465). -/
def regsICF : List RegSpec := [
  ⟨0x000, 1, 4, [⟨31, 16, .ro, 18758, anyReq⟩, ⟨15, 0, .ro, 256, anyReq⟩]⟩,  -- ICF_ID
  ⟨0x010, 1, 4, [⟨9, 0, .ro, 1023, anyReq⟩]⟩,  -- ICF_CLAIM
  ⟨0x014, 1, 4, [⟨9, 0, .wo, 0, anyReq⟩]⟩,  -- ICF_EOI
  ⟨0x018, 1, 4, [⟨9, 0, .ro, 1023, anyReq⟩]⟩,  -- ICF_SELF
  ⟨0x020, 8, 4, [⟨9, 0, .ro, 1023, anyReq⟩]⟩]  -- ICF_HOLD0

/-- The BCN block (R466). -/
def regsBCN : List RegSpec := [
  ⟨0x000, 1, 4, [⟨31, 16, .ro, 16963, anyReq⟩, ⟨15, 0, .ro, 256, anyReq⟩]⟩,  -- BCN_ID
  ⟨0x004, 1, 4, [⟨15, 0, .rw, 0, anyReq⟩]⟩,  -- BCN_WATCH
  ⟨0x008, 1, 4, [⟨15, 0, .ro, 0, anyReq⟩]⟩,  -- BCN_LEVEL
  ⟨0x00C, 1, 4, [⟨15, 0, .w1c, 0, anyReq⟩]⟩,  -- BCN_CAUSE
  ⟨0x010, 1, 4, [⟨31, 0, .rw, 0, anyReq⟩]⟩,  -- BCN_TIMER
  ⟨0x014, 1, 4, [⟨0, 0, .wo, 0, anyReq⟩]⟩]  -- BCN_CTL

/-- The TID block (R499). -/
def regsTID : List RegSpec := [
  ⟨0x000, 1, 4, [⟨31, 16, .ro, 21577, anyReq⟩, ⟨15, 0, .ro, 256, anyReq⟩]⟩,  -- TID_ID
  ⟨0x004, 1, 4, [⟨0, 0, .rw, 1, anyReq⟩]⟩,  -- TID_CTL
  ⟨0x008, 1, 4, [⟨1, 0, .ro, 0, anyReq⟩, ⟨2, 2, .ro, 0, anyReq⟩]⟩,  -- TID_STAT
  ⟨0x00C, 1, 4, [⟨31, 0, .ro, 0, anyReq⟩]⟩,  -- TID_LO
  ⟨0x010, 1, 4, [⟨31, 0, .ro, 0, anyReq⟩]⟩,  -- TID_PTP_OFF
  ⟨0x014, 1, 4, [⟨0, 0, .wo, 0, anyReq⟩]⟩,  -- TID_DONE
  ⟨0x020, 8, 4, [⟨9, 0, .rwl, 0, anyReq⟩]⟩,  -- TID_BUDGET0
  ⟨0x040, 8, 4, [⟨15, 0, .ro, 0, anyReq⟩, ⟨31, 16, .ro, 0, anyReq⟩]⟩,  -- TID_USED0
  ⟨0x060, 1, 4, [⟨23, 0, .ro, 0, anyReq⟩, ⟨31, 24, .ro, 0, anyReq⟩]⟩,  -- TID_TELEM
  ⟨0x064, 1, 4, [⟨15, 0, .rwl, 100, anyReq⟩]⟩,  -- TID_WDOG
  ⟨0x068, 1, 4, [⟨7, 0, .w1c, 0, anyReq⟩]⟩,  -- TID_WD_CAUSE
  ⟨0x06C, 1, 4, [⟨7, 0, .wo, 0, 0x042⟩]⟩,  -- TID_RESTART
  ⟨0x080, 1, 4, [⟨0, 0, .w1c, 0, anyReq⟩, ⟨1, 1, .w1c, 0, anyReq⟩, ⟨2, 2, .w1c, 0, anyReq⟩]⟩,  -- TID_IRQ_STAT
  ⟨0x084, 1, 4, [⟨2, 0, .rw, 6, anyReq⟩]⟩,  -- TID_IRQ_EN
  ⟨0x088, 1, 4, [⟨0, 0, .rw, 0, anyReq⟩]⟩]  -- TID_LOCK

/-- The PWR block (R501). -/
def regsPWR : List RegSpec := [
  ⟨0x000, 1, 4, [⟨31, 16, .ro, 20567, anyReq⟩, ⟨15, 0, .ro, 256, anyReq⟩]⟩,  -- PWR_ID
  ⟨0x004, 1, 4, [⟨0, 0, .rw, 0, 0x140⟩]⟩,  -- PWR_CTL
  ⟨0x008, 1, 4, [⟨0, 0, .ro, 0, anyReq⟩, ⟨1, 1, .ro, 0, anyReq⟩, ⟨2, 2, .ro, 0, anyReq⟩, ⟨3, 3, .ro, 0, anyReq⟩, ⟨4, 4, .ro, 0, anyReq⟩, ⟨5, 5, .ro, 0, anyReq⟩, ⟨6, 6, .ro, 0, anyReq⟩, ⟨7, 7, .ro, 0, anyReq⟩, ⟨8, 8, .ro, 0, anyReq⟩, ⟨9, 9, .ro, 0, anyReq⟩, ⟨22, 16, .ro, 0, anyReq⟩, ⟨30, 24, .ro, 0, anyReq⟩]⟩,  -- PWR_STAT
  ⟨0x00C, 1, 4, [⟨15, 0, .ro, 0, anyReq⟩, ⟨31, 16, .ro, 0, anyReq⟩]⟩,  -- PWR_VIN
  ⟨0x010, 1, 4, [⟨15, 0, .ro, 0, anyReq⟩]⟩,  -- PWR_PIN
  ⟨0x014, 1, 4, [⟨7, 0, .ro, 0, anyReq⟩, ⟨15, 8, .ro, 0, anyReq⟩, ⟨23, 16, .ro, 0, anyReq⟩]⟩,  -- PWR_TEMP
  ⟨0x018, 1, 4, [⟨15, 0, .rw, 2000, anyReq⟩]⟩,  -- PWR_CAP
  ⟨0x01C, 1, 4, [⟨6, 0, .rw, 0, 0x001⟩]⟩,  -- PWR_GATE
  ⟨0x020, 1, 4, [⟨6, 0, .rwl, 48, anyReq⟩, ⟨31, 16, .rwl, 10, anyReq⟩]⟩,  -- PWR_CLAMP
  ⟨0x024, 1, 4, [⟨6, 0, .rwl, 72, anyReq⟩]⟩,  -- PWR_OC
  ⟨0x028, 1, 4, [⟨7, 0, .rw, 90, anyReq⟩, ⟨15, 8, .rw, 85, anyReq⟩]⟩,  -- PWR_TLIM
  ⟨0x02C, 1, 4, [⟨15, 0, .rwl, 10, anyReq⟩, ⟨31, 16, .rwl, 1000, anyReq⟩]⟩,  -- PWR_EMERG
  ⟨0x040, 1, 4, [⟨0, 0, .w1c, 0, anyReq⟩, ⟨1, 1, .w1c, 0, anyReq⟩, ⟨2, 2, .w1c, 0, anyReq⟩, ⟨3, 3, .w1c, 0, anyReq⟩, ⟨4, 4, .w1c, 0, anyReq⟩]⟩,  -- PWR_IRQ_STAT
  ⟨0x044, 1, 4, [⟨4, 0, .rw, 30, anyReq⟩]⟩,  -- PWR_IRQ_EN
  ⟨0x048, 1, 4, [⟨0, 0, .rw, 0, anyReq⟩]⟩]  -- PWR_LOCK

/-- The CLK block (R534). -/
def regsCLK : List RegSpec := [
  ⟨0x000, 1, 4, [⟨31, 16, .ro, 17227, anyReq⟩, ⟨15, 0, .ro, 256, anyReq⟩]⟩,  -- CLK_ID
  ⟨0x004, 1, 4, [⟨4, 0, .ro, 0, anyReq⟩, ⟨5, 5, .ro, 0, anyReq⟩, ⟨6, 6, .ro, 0, anyReq⟩, ⟨7, 7, .ro, 0, anyReq⟩, ⟨13, 8, .ro, 0, anyReq⟩]⟩,  -- CLK_STAT
  ⟨0x008, 1, 4, [⟨2, 0, .rw, 0, anyReq⟩]⟩,  -- CLK_MEAS_SEL
  ⟨0x00C, 1, 4, [⟨15, 0, .ro, 0, anyReq⟩]⟩,  -- CLK_MEAS
  ⟨0x010, 1, 4, [⟨31, 0, .rwl, 10000, anyReq⟩]⟩,  -- CLK_HOLD
  ⟨0x030, 1, 4, [⟨0, 0, .w1c, 0, anyReq⟩, ⟨1, 1, .w1c, 0, anyReq⟩, ⟨2, 2, .w1c, 0, anyReq⟩]⟩,  -- CLK_IRQ_STAT
  ⟨0x034, 1, 4, [⟨2, 0, .rw, 7, anyReq⟩]⟩,  -- CLK_IRQ_EN
  ⟨0x038, 1, 4, [⟨0, 0, .rw, 0, anyReq⟩]⟩]  -- CLK_LOCK

/-- The RST block (R536). -/
def regsRST : List RegSpec := [
  ⟨0x000, 1, 4, [⟨31, 16, .ro, 21075, anyReq⟩, ⟨15, 0, .ro, 256, anyReq⟩]⟩,  -- RST_ID
  ⟨0x004, 1, 4, [⟨5, 0, .wo, 0, 0x042⟩, ⟨8, 8, .wo, 0, 0x042⟩]⟩,  -- RST_REQ
  ⟨0x008, 1, 4, [⟨5, 0, .ro, 0, anyReq⟩, ⟨6, 6, .ro, 0, anyReq⟩, ⟨7, 7, .ro, 0, anyReq⟩, ⟨8, 8, .ro, 0, anyReq⟩, ⟨9, 9, .ro, 0, anyReq⟩, ⟨17, 16, .ro, 0, anyReq⟩]⟩,  -- RST_STAT
  ⟨0x00C, 2, 4, [⟨31, 0, .ro, 0, anyReq⟩]⟩,  -- RST_RECOV0
  ⟨0x020, 1, 4, [⟨6, 0, .ro, 0, anyReq⟩, ⟨7, 7, .ro, 0, anyReq⟩, ⟨31, 16, .ro, 0, anyReq⟩]⟩,  -- RST_LOG
  ⟨0x024, 1, 4, [⟨31, 0, .ro, 0, anyReq⟩]⟩,  -- RST_LOG_SEQ
  ⟨0x028, 1, 4, [⟨31, 0, .wo, 0, 0x040⟩]⟩,  -- RST_LOG_ACK
  ⟨0x030, 1, 4, [⟨15, 0, .rwl, 20, anyReq⟩]⟩,  -- RST_HANG
  ⟨0x034, 1, 4, [⟨15, 0, .rwl, 100, anyReq⟩]⟩,  -- RST_SETTLE
  ⟨0x038, 1, 4, [⟨19, 0, .rw, 524288, anyReq⟩]⟩,  -- RST_CRASH_OFF
  ⟨0x040, 16, 4, [⟨31, 0, .ro, 0, anyReq⟩]⟩,  -- RST_GEN0
  ⟨0x080, 1, 4, [⟨8, 0, .ro, 0, anyReq⟩]⟩,  -- RST_REPLACE
  ⟨0x090, 1, 4, [⟨0, 0, .w1c, 0, anyReq⟩, ⟨1, 1, .w1c, 0, anyReq⟩, ⟨2, 2, .w1c, 0, anyReq⟩, ⟨3, 3, .w1c, 0, anyReq⟩, ⟨4, 4, .w1c, 0, anyReq⟩, ⟨5, 5, .w1c, 0, anyReq⟩, ⟨6, 6, .w1c, 0, anyReq⟩]⟩,  -- RST_IRQ_STAT
  ⟨0x094, 1, 4, [⟨6, 0, .rw, 127, anyReq⟩]⟩,  -- RST_IRQ_EN
  ⟨0x098, 1, 4, [⟨0, 0, .rw, 0, anyReq⟩]⟩]  -- RST_LOCK

/-- The SEC block (R558). -/
def regsSEC : List RegSpec := [
  ⟨0x000, 1, 4, [⟨31, 16, .ro, 21317, anyReq⟩, ⟨15, 0, .ro, 256, anyReq⟩]⟩,  -- SEC_ID
  ⟨0x004, 1, 4, [⟨2, 0, .ro, 0, anyReq⟩, ⟨3, 3, .ro, 0, anyReq⟩, ⟨5, 4, .ro, 0, anyReq⟩]⟩,  -- SEC_LC
  ⟨0x008, 1, 4, [⟨0, 0, .ro, 0, anyReq⟩, ⟨1, 1, .ro, 0, anyReq⟩, ⟨2, 2, .ro, 0, anyReq⟩, ⟨3, 3, .ro, 0, anyReq⟩, ⟨4, 4, .ro, 0, anyReq⟩, ⟨5, 5, .ro, 0, anyReq⟩]⟩,  -- SEC_STAT
  ⟨0x00C, 1, 4, [⟨7, 0, .ro, 0, anyReq⟩, ⟨15, 8, .ro, 0, anyReq⟩, ⟨23, 16, .ro, 0, anyReq⟩]⟩,  -- SEC_RB
  ⟨0x010, 1, 4, [⟨31, 0, .rwl, 6000000, anyReq⟩]⟩,  -- SEC_RB_DELAY
  ⟨0x014, 1, 4, [⟨3, 0, .ro, 0, anyReq⟩]⟩,  -- SEC_TOKEN
  ⟨0x020, 1, 4, [⟨0, 0, .w1c, 0, anyReq⟩, ⟨1, 1, .w1c, 0, anyReq⟩, ⟨2, 2, .w1c, 0, anyReq⟩, ⟨3, 3, .w1c, 0, anyReq⟩, ⟨4, 4, .w1c, 0, anyReq⟩]⟩,  -- SEC_IRQ_STAT
  ⟨0x024, 1, 4, [⟨4, 0, .rw, 31, anyReq⟩]⟩,  -- SEC_IRQ_EN
  ⟨0x028, 1, 4, [⟨0, 0, .rw, 0, anyReq⟩]⟩]  -- SEC_LOCK

/-- The MGT block (R584). -/
def regsMGT : List RegSpec := [
  ⟨0x000, 1, 4, [⟨31, 16, .ro, 19783, anyReq⟩, ⟨15, 0, .ro, 256, anyReq⟩]⟩,  -- MGT_ID
  ⟨0x004, 1, 4, [⟨5, 0, .ro, 0, anyReq⟩]⟩,  -- MGT_STRAP
  ⟨0x008, 1, 4, [⟨6, 0, .ro, 0, anyReq⟩, ⟨7, 7, .ro, 0, anyReq⟩, ⟨8, 8, .ro, 1, anyReq⟩]⟩,  -- MGT_I3C
  ⟨0x00C, 1, 4, [⟨0, 0, .w1c, 0, anyReq⟩, ⟨1, 1, .w1c, 0, anyReq⟩, ⟨2, 2, .w1c, 0, anyReq⟩, ⟨3, 3, .w1c, 0, anyReq⟩, ⟨4, 4, .w1c, 0, anyReq⟩, ⟨5, 5, .w1c, 0, anyReq⟩, ⟨6, 6, .w1c, 0, anyReq⟩]⟩,  -- MGT_ALERT
  ⟨0x010, 1, 4, [⟨6, 0, .rw, 127, anyReq⟩]⟩,  -- MGT_ALERT_EN
  ⟨0x014, 1, 4, [⟨31, 0, .rw, 0, 0x100⟩]⟩,  -- MGT_ATTN
  ⟨0x018, 1, 4, [⟨0, 0, .ro, 0, anyReq⟩, ⟨1, 1, .ro, 0, anyReq⟩, ⟨2, 2, .ro, 0, anyReq⟩, ⟨3, 3, .ro, 0, anyReq⟩, ⟨15, 4, .ro, 0, anyReq⟩]⟩,  -- MGT_SIG
  ⟨0x020, 1, 4, [⟨1, 0, .wo, 0, 0x102⟩, ⟨4, 4, .rw, 0, 0x102⟩, ⟨8, 8, .ro, 0, 0x102⟩, ⟨11, 9, .ro, 0, 0x102⟩]⟩,  -- MGT_FL_CTL
  ⟨0x024, 1, 4, [⟨25, 0, .rw, 0, anyReq⟩]⟩,  -- MGT_FL_ADDR
  ⟨0x080, 32, 4, [⟨31, 0, .rw, 0, anyReq⟩]⟩]  -- MGT_FL_BUF0

/-- The registers of a window (R433), CLF by its common sub-block. -/
def windowRegs : Nat → List RegSpec
  | 12 => regsSHF
  | 13 => regsNUM
  | 14 => regsSND
  | 15 => regsSLV
  | 16 => regsUPD
  | 17 => regsALM
  | 20 => regsHBR
  | 21 => regsPGR
  | 22 => regsHBM
  | 23 => regsDDR
  | 24 => regsCLFC
  | 25 => regsLSH
  | 28 => regsSHG
  | 29 => regsSWL
  | 30 => regsOFS
  | 32 => regsETH
  | 33 => regsCMD
  | 0 => regsDEV
  | 1 => regsMBX
  | 2 => regsICU
  | 3 => regsICF
  | 4 => regsBCN
  | 5 => regsTID
  | 8 => regsPWR
  | 6 => regsCLK
  | 7 => regsRST
  | 9 => regsSEC
  | 36 => regsMGT
  | _ => []

end Sys2Proof.Machine
end

