-- ==== Sys2Proof/Machine/RegNames.lean ====
section
/-!
DEFINITION. The names of the spec's registers and fields: a register or field is its plain CRS offset (of the first register of a
range), its bits and the distance to the next register of the range. The offsets and bits are those of the register tables.
-/
namespace Sys2Proof.Machine
open Sys2Proof

/-- A field: plain CRS offset, high and low bit, and the distance between registers of a range. -/
structure Fld where
  off  : Nat
  hi   : Nat
  lo   : Nat
  step : Nat
  deriving DecidableEq, Repr

/-- The same field of register `i` of its range. -/
def Fld.at (f : Fld) (i : Nat) : Fld := { f with off := f.off + f.step * i }


/-! SHF -/
def SHF_ID : Fld := ⟨0x30000, 31, 0, 0x4⟩
def SHF_ID_version : Fld := ⟨0x30000, 15, 0, 0x4⟩
def SHF_CTL : Fld := ⟨0x30004, 31, 0, 0x4⟩
def SHF_CTL_issue_en : Fld := ⟨0x30004, 0, 0, 0x4⟩
def SHF_CTL_pause_all : Fld := ⟨0x30004, 1, 1, 0x4⟩
def SHF_CTL_auto_pack : Fld := ⟨0x30004, 2, 2, 0x4⟩
def SHF_STAT : Fld := ⟨0x30008, 31, 0, 0x4⟩
def SHF_STAT_running : Fld := ⟨0x30008, 0, 0, 0x4⟩
def SHF_STAT_halted : Fld := ⟨0x30008, 1, 1, 0x4⟩
def SHF_STAT_berth : Fld := ⟨0x30008, 3, 2, 0x4⟩
def SHF_STAT_engine : Fld := ⟨0x30008, 4, 4, 0x4⟩
def SHF_STAT_filler : Fld := ⟨0x30008, 5, 5, 0x4⟩
def SHF_STAT_fault : Fld := ⟨0x30008, 6, 6, 0x4⟩
def SHF_STAT_emerg_clk : Fld := ⟨0x30008, 7, 7, 0x4⟩
def SHF_CUR_OP : Fld := ⟨0x3000C, 31, 0, 0x4⟩
def SHF_CUR_LAYER : Fld := ⟨0x30010, 31, 0, 0x4⟩
def SHF_CUR_LAYER_layer : Fld := ⟨0x30010, 15, 0, 0x4⟩
def SHF_CUR_LAYER_opcode : Fld := ⟨0x30010, 23, 16, 0x4⟩
def SHF_BERTH_CTL : Fld := ⟨0x30020, 31, 0, 0x4⟩
def SHF_BERTH_CTL_enable : Fld := ⟨0x30020, 0, 0, 0x4⟩
def SHF_BERTH_CTL_mode : Fld := ⟨0x30020, 1, 1, 0x4⟩
def SHF_BERTH_CTL_pause : Fld := ⟨0x30020, 2, 2, 0x4⟩
def SHF_BERTH_CTL_weight : Fld := ⟨0x30020, 15, 8, 0x4⟩
def SHF_BERTH_STAT : Fld := ⟨0x30030, 31, 0, 0x4⟩
def SHF_BERTH_STAT_queued : Fld := ⟨0x30030, 0, 0, 0x4⟩
def SHF_BERTH_STAT_waiting : Fld := ⟨0x30030, 1, 1, 0x4⟩
def SHF_BERTH_STAT_halted : Fld := ⟨0x30030, 2, 2, 0x4⟩
def SHF_BERTH_STAT_error : Fld := ⟨0x30030, 15, 8, 0x4⟩
def SHF_BERTH_STAT_completed : Fld := ⟨0x30030, 31, 16, 0x4⟩
def SHF_FILL_CAP : Fld := ⟨0x30040, 31, 0, 0x4⟩
def SHF_QUANTUM : Fld := ⟨0x30044, 31, 0, 0x4⟩
def SHF_FAULT : Fld := ⟨0x30050, 31, 0, 0x4⟩
def SHF_FAULT_bist : Fld := ⟨0x30050, 0, 0, 0x4⟩
def SHF_FAULT_parity : Fld := ⟨0x30050, 1, 1, 0x4⟩
def SHF_FAULT_tstore_ue : Fld := ⟨0x30050, 2, 2, 0x4⟩
def SHF_FAULT_watchdog : Fld := ⟨0x30050, 3, 3, 0x4⟩
def SHF_FAULT_tile : Fld := ⟨0x30050, 25, 16, 0x4⟩
def SHF_CE_COUNT : Fld := ⟨0x30054, 31, 0, 0x4⟩
def SHF_CE_COUNT_count : Fld := ⟨0x30054, 15, 0, 0x4⟩
def SHF_CE_THRESH : Fld := ⟨0x30058, 31, 0, 0x4⟩
def SHF_CE_THRESH_thresh : Fld := ⟨0x30058, 15, 0, 0x4⟩
def SHF_IRQ_STAT : Fld := ⟨0x30060, 31, 0, 0x4⟩
def SHF_IRQ_STAT_op_error : Fld := ⟨0x30060, 0, 0, 0x4⟩
def SHF_IRQ_STAT_tile_fault : Fld := ⟨0x30060, 1, 1, 0x4⟩
def SHF_IRQ_STAT_ce_thresh : Fld := ⟨0x30060, 2, 2, 0x4⟩
def SHF_IRQ_STAT_fill_stall : Fld := ⟨0x30060, 3, 3, 0x4⟩
def SHF_IRQ_EN : Fld := ⟨0x30064, 31, 0, 0x4⟩
def SHF_IRQ_EN_enable : Fld := ⟨0x30064, 3, 0, 0x4⟩
def SHF_CNT_CTL : Fld := ⟨0x30074, 31, 0, 0x4⟩
def SHF_CNT_CTL_freeze : Fld := ⟨0x30074, 0, 0, 0x4⟩
def SHF_CNT_CTL_clear : Fld := ⟨0x30074, 1, 1, 0x4⟩
def SHF_WDOG : Fld := ⟨0x30080, 31, 0, 0x4⟩
def SHF_WDOG_cycles : Fld := ⟨0x30080, 23, 0, 0x4⟩
def SHF_LOCK : Fld := ⟨0x30084, 31, 0, 0x4⟩
def SHF_LOCK_lock : Fld := ⟨0x30084, 0, 0, 0x4⟩

/-! NUM -/
def NUM_ID : Fld := ⟨0x34000, 31, 0, 0x4⟩
def NUM_ID_version : Fld := ⟨0x34000, 15, 0, 0x4⟩
def NUM_CTL : Fld := ⟨0x34004, 31, 0, 0x4⟩
def NUM_CTL_census_en : Fld := ⟨0x34004, 0, 0, 0x4⟩
def NUM_BERTH_CTL : Fld := ⟨0x34010, 31, 0, 0x4⟩
def NUM_BERTH_CTL_precise : Fld := ⟨0x34010, 0, 0, 0x4⟩
def NUM_CEN_IDX : Fld := ⟨0x34020, 31, 0, 0x4⟩
def NUM_CEN_IDX_entry : Fld := ⟨0x34020, 9, 0, 0x4⟩
def NUM_DIRTY : Fld := ⟨0x34030, 31, 0, 0x4⟩
def NUM_DIRTY_entry : Fld := ⟨0x34030, 9, 0, 0x4⟩
def NUM_DIRTY_valid : Fld := ⟨0x34030, 15, 15, 0x4⟩
def NUM_DIRTY_tag : Fld := ⟨0x34030, 31, 16, 0x4⟩
def NUM_DIRTY_POP : Fld := ⟨0x34040, 31, 0, 0x4⟩
def NUM_DIRTY_POP_pop : Fld := ⟨0x34040, 0, 0, 0x4⟩
def NUM_SEED_LO : Fld := ⟨0x34050, 31, 0, 0x4⟩
def NUM_SEED_HI : Fld := ⟨0x34060, 31, 0, 0x4⟩
def NUM_IRQ_STAT : Fld := ⟨0x34070, 31, 0, 0x4⟩
def NUM_IRQ_STAT_dirty_ovf : Fld := ⟨0x34070, 3, 0, 0x4⟩
def NUM_IRQ_STAT_alias : Fld := ⟨0x34070, 7, 4, 0x4⟩
def NUM_IRQ_STAT_sat : Fld := ⟨0x34070, 11, 8, 0x4⟩
def NUM_IRQ_EN : Fld := ⟨0x34074, 31, 0, 0x4⟩
def NUM_IRQ_EN_enable : Fld := ⟨0x34074, 2, 0, 0x4⟩

/-! SND -/
def SND_ID : Fld := ⟨0x38000, 31, 0, 0x4⟩
def SND_ID_version : Fld := ⟨0x38000, 15, 0, 0x4⟩
def SND_CTL : Fld := ⟨0x38004, 31, 0, 0x4⟩
def SND_CTL_tap_en : Fld := ⟨0x38004, 0, 0, 0x4⟩
def SND_STAGE_QUOTA : Fld := ⟨0x38010, 31, 0, 0x4⟩
def SND_STAGE_QUOTA_mib : Fld := ⟨0x38010, 15, 0, 0x4⟩
def SND_STAGE_USED : Fld := ⟨0x38020, 31, 0, 0x4⟩
def SND_STAGE_USED_mib : Fld := ⟨0x38020, 15, 0, 0x4⟩
def SND_SLOTS : Fld := ⟨0x38030, 31, 0, 0x4⟩
def SND_SLOTS_allocated : Fld := ⟨0x38030, 12, 0, 0x4⟩
def SND_ERR : Fld := ⟨0x38034, 31, 0, 0x4⟩
def SND_ERR_slot : Fld := ⟨0x38034, 11, 0, 0x4⟩
def SND_ERR_cause : Fld := ⟨0x38034, 15, 12, 0x4⟩
def SND_ERR_berth : Fld := ⟨0x38034, 17, 16, 0x4⟩
def SND_IRQ_STAT : Fld := ⟨0x38040, 31, 0, 0x4⟩
def SND_IRQ_STAT_tap_reject : Fld := ⟨0x38040, 0, 0, 0x4⟩
def SND_IRQ_STAT_merge_wait : Fld := ⟨0x38040, 1, 1, 0x4⟩
def SND_IRQ_EN : Fld := ⟨0x38044, 31, 0, 0x4⟩
def SND_IRQ_EN_enable : Fld := ⟨0x38044, 1, 0, 0x4⟩

/-! SLV -/
def SLV_ID : Fld := ⟨0x3C000, 31, 0, 0x4⟩
def SLV_ID_version : Fld := ⟨0x3C000, 15, 0, 0x4⟩
def SLV_CTL : Fld := ⟨0x3C004, 31, 0, 0x4⟩
def SLV_CTL_run : Fld := ⟨0x3C004, 0, 0, 0x4⟩
def SLV_TAU : Fld := ⟨0x3C008, 31, 0, 0x4⟩
def SLV_TOL : Fld := ⟨0x3C00C, 31, 0, 0x4⟩
def SLV_TOL_ORTH : Fld := ⟨0x3C010, 31, 0, 0x4⟩
def SLV_ITER : Fld := ⟨0x3C014, 31, 0, 0x4⟩
def SLV_ITER_cold_max : Fld := ⟨0x3C014, 7, 0, 0x4⟩
def SLV_ITER_warm_max : Fld := ⟨0x3C014, 15, 8, 0x4⟩
def SLV_ITER_orth_max : Fld := ⟨0x3C014, 23, 16, 0x4⟩
def SLV_LAG : Fld := ⟨0x3C018, 31, 0, 0x4⟩
def SLV_LAG_lag : Fld := ⟨0x3C018, 3, 0, 0x4⟩
def SLV_STAT : Fld := ⟨0x3C020, 31, 0, 0x4⟩
def SLV_STAT_busy : Fld := ⟨0x3C020, 0, 0, 0x4⟩
def SLV_STAT_berth : Fld := ⟨0x3C020, 2, 1, 0x4⟩
def SLV_STAT_slot : Fld := ⟨0x3C020, 15, 4, 0x4⟩
def SLV_STAT_op : Fld := ⟨0x3C020, 18, 16, 0x4⟩
def SLV_STAT_attempt : Fld := ⟨0x3C020, 21, 19, 0x4⟩
def SLV_QUEUED : Fld := ⟨0x3C024, 31, 0, 0x4⟩
def SLV_QUEUED_problems : Fld := ⟨0x3C024, 15, 0, 0x4⟩
def SLV_LAST : Fld := ⟨0x3C028, 31, 0, 0x4⟩
def SLV_LAST_slot : Fld := ⟨0x3C028, 11, 0, 0x4⟩
def SLV_LAST_code : Fld := ⟨0x3C028, 15, 12, 0x4⟩
def SLV_LAST_berth : Fld := ⟨0x3C028, 17, 16, 0x4⟩
def SLV_LAST_iterations : Fld := ⟨0x3C028, 31, 24, 0x4⟩
def SLV_IRQ_STAT : Fld := ⟨0x3C030, 31, 0, 0x4⟩
def SLV_IRQ_STAT_held : Fld := ⟨0x3C030, 0, 0, 0x4⟩
def SLV_IRQ_STAT_cold : Fld := ⟨0x3C030, 1, 1, 0x4⟩
def SLV_IRQ_STAT_late : Fld := ⟨0x3C030, 2, 2, 0x4⟩
def SLV_IRQ_STAT_orth_zero : Fld := ⟨0x3C030, 3, 3, 0x4⟩
def SLV_IRQ_EN : Fld := ⟨0x3C034, 31, 0, 0x4⟩
def SLV_IRQ_EN_enable : Fld := ⟨0x3C034, 3, 0, 0x4⟩
def SLV_LOCK : Fld := ⟨0x3C038, 31, 0, 0x4⟩
def SLV_LOCK_lock : Fld := ⟨0x3C038, 0, 0, 0x4⟩

/-! UPD -/
def UPD_ID : Fld := ⟨0x40000, 31, 0, 0x4⟩
def UPD_ID_version : Fld := ⟨0x40000, 15, 0, 0x4⟩
def UPD_CTL : Fld := ⟨0x40004, 31, 0, 0x4⟩
def UPD_CTL_run : Fld := ⟨0x40004, 0, 0, 0x4⟩
def UPD_STAT : Fld := ⟨0x40008, 31, 0, 0x4⟩
def UPD_STAT_busy : Fld := ⟨0x40008, 0, 0, 0x4⟩
def UPD_STAT_berth : Fld := ⟨0x40008, 2, 1, 0x4⟩
def UPD_STAT_class : Fld := ⟨0x40008, 4, 3, 0x4⟩
def UPD_STAT_rule : Fld := ⟨0x40008, 7, 5, 0x4⟩
def UPD_STAT_layer : Fld := ⟨0x40008, 31, 16, 0x4⟩
def UPD_SKIP_LIMIT : Fld := ⟨0x4000C, 31, 0, 0x4⟩
def UPD_SKIP_LIMIT_limit : Fld := ⟨0x4000C, 7, 0, 0x4⟩
def UPD_BERTH_STAT : Fld := ⟨0x40010, 31, 0, 0x4⟩
def UPD_BERTH_STAT_skips : Fld := ⟨0x40010, 7, 0, 0x4⟩
def UPD_BERTH_STAT_paused : Fld := ⟨0x40010, 8, 8, 0x4⟩
def UPD_BERTH_STAT_committing : Fld := ⟨0x40010, 9, 9, 0x4⟩
def UPD_BERTH_STAT_shards : Fld := ⟨0x40010, 31, 16, 0x4⟩
def UPD_TRIG : Fld := ⟨0x40020, 31, 0, 0x4⟩
def UPD_TRIG_triggers : Fld := ⟨0x40020, 15, 0, 0x4⟩
def UPD_PROG : Fld := ⟨0x40030, 31, 0, 0x4⟩
def UPD_ERR : Fld := ⟨0x40034, 31, 0, 0x4⟩
def UPD_ERR_code : Fld := ⟨0x40034, 7, 0, 0x4⟩
def UPD_ERR_slot : Fld := ⟨0x40034, 12, 8, 0x4⟩
def UPD_ERR_instr : Fld := ⟨0x40034, 23, 16, 0x4⟩
def UPD_ERR_berth : Fld := ⟨0x40034, 25, 24, 0x4⟩
def UPD_IRQ_STAT : Fld := ⟨0x40040, 31, 0, 0x4⟩
def UPD_IRQ_STAT_held : Fld := ⟨0x40040, 0, 0, 0x4⟩
def UPD_IRQ_STAT_skip : Fld := ⟨0x40040, 1, 1, 0x4⟩
def UPD_IRQ_STAT_skip_limit : Fld := ⟨0x40040, 2, 2, 0x4⟩
def UPD_IRQ_STAT_fetch_wait : Fld := ⟨0x40040, 3, 3, 0x4⟩
def UPD_IRQ_STAT_prog_reject : Fld := ⟨0x40040, 4, 4, 0x4⟩
def UPD_IRQ_EN : Fld := ⟨0x40044, 31, 0, 0x4⟩
def UPD_IRQ_EN_enable : Fld := ⟨0x40044, 4, 0, 0x4⟩
def UPD_LOCK : Fld := ⟨0x40048, 31, 0, 0x4⟩
def UPD_LOCK_lock : Fld := ⟨0x40048, 0, 0, 0x4⟩

/-! ALM -/
def ALM_ID : Fld := ⟨0x44000, 31, 0, 0x4⟩
def ALM_ID_version : Fld := ⟨0x44000, 15, 0, 0x4⟩
def ALM_EVAL : Fld := ⟨0x44010, 31, 0, 0x4⟩
def ALM_ERR : Fld := ⟨0x44020, 31, 0, 0x4⟩
def ALM_ERR_channel : Fld := ⟨0x44020, 5, 0, 0x4⟩
def ALM_ERR_berth : Fld := ⟨0x44020, 9, 8, 0x4⟩
def ALM_ERR_cause : Fld := ⟨0x44020, 15, 12, 0x4⟩
def ALM_IRQ_STAT : Fld := ⟨0x44030, 31, 0, 0x4⟩
def ALM_IRQ_STAT_bad_value : Fld := ⟨0x44030, 0, 0, 0x4⟩
def ALM_IRQ_EN : Fld := ⟨0x44034, 31, 0, 0x4⟩
def ALM_IRQ_EN_enable : Fld := ⟨0x44034, 0, 0, 0x4⟩

/-! HBR -/
def HBR_ID : Fld := ⟨0x50000, 31, 0, 0x4⟩
def HBR_ID_version : Fld := ⟨0x50000, 15, 0, 0x4⟩
def HBR_PART : Fld := ⟨0x50010, 31, 0, 0x4⟩
def HBR_PART_pages : Fld := ⟨0x50010, 8, 0, 0x4⟩
def HBR_USED : Fld := ⟨0x50020, 31, 0, 0x4⟩
def HBR_USED_pages : Fld := ⟨0x50020, 8, 0, 0x4⟩
def HBR_USED_held : Fld := ⟨0x50020, 24, 16, 0x4⟩
def HBR_CE_COUNT : Fld := ⟨0x50030, 31, 0, 0x4⟩
def HBR_CE_COUNT_count : Fld := ⟨0x50030, 15, 0, 0x4⟩
def HBR_CE_THRESH : Fld := ⟨0x50034, 31, 0, 0x4⟩
def HBR_CE_THRESH_thresh : Fld := ⟨0x50034, 15, 0, 0x4⟩
def HBR_SCRUB : Fld := ⟨0x50038, 31, 0, 0x4⟩
def HBR_ERR : Fld := ⟨0x50040, 31, 0, 0x4⟩
def HBR_ERR_segment : Fld := ⟨0x50040, 1, 0, 0x4⟩
def HBR_ERR_area : Fld := ⟨0x50040, 3, 2, 0x4⟩
def HBR_ERR_berth : Fld := ⟨0x50040, 5, 4, 0x4⟩
def HBR_ERR_scrub : Fld := ⟨0x50040, 6, 6, 0x4⟩
def HBR_ERR_line : Fld := ⟨0x50040, 29, 8, 0x4⟩
def HBR_IRQ_STAT : Fld := ⟨0x50050, 31, 0, 0x4⟩
def HBR_IRQ_STAT_ce_thresh : Fld := ⟨0x50050, 0, 0, 0x4⟩
def HBR_IRQ_STAT_ue : Fld := ⟨0x50050, 1, 1, 0x4⟩
def HBR_IRQ_STAT_part_full : Fld := ⟨0x50050, 2, 2, 0x4⟩
def HBR_IRQ_EN : Fld := ⟨0x50054, 31, 0, 0x4⟩
def HBR_IRQ_EN_enable : Fld := ⟨0x50054, 2, 0, 0x4⟩
def HBR_LOCK : Fld := ⟨0x50058, 31, 0, 0x4⟩
def HBR_LOCK_lock : Fld := ⟨0x50058, 0, 0, 0x4⟩

/-! PGR -/
def PGR_ID : Fld := ⟨0x54000, 31, 0, 0x4⟩
def PGR_ID_version : Fld := ⟨0x54000, 15, 0, 0x4⟩
def PGR_CTL : Fld := ⟨0x54004, 31, 0, 0x4⟩
def PGR_CTL_run : Fld := ⟨0x54004, 0, 0, 0x4⟩
def PGR_CTL_lookahead : Fld := ⟨0x54004, 15, 8, 0x4⟩
def PGR_HEADROOM : Fld := ⟨0x54008, 31, 0, 0x4⟩
def PGR_HEADROOM_pages : Fld := ⟨0x54008, 15, 0, 0x4⟩
def PGR_T2_QUOTA : Fld := ⟨0x54010, 31, 0, 0x4⟩
def PGR_T2_QUOTA_pages : Fld := ⟨0x54010, 17, 0, 0x4⟩
def PGR_T3_QUOTA : Fld := ⟨0x54020, 31, 0, 0x4⟩
def PGR_T3_QUOTA_pages : Fld := ⟨0x54020, 20, 0, 0x4⟩
def PGR_SPILL : Fld := ⟨0x54030, 31, 0, 0x4⟩
def PGR_SPILL_pages : Fld := ⟨0x54030, 17, 0, 0x4⟩
def PGR_T2_USED : Fld := ⟨0x54040, 31, 0, 0x4⟩
def PGR_T2_USED_pages : Fld := ⟨0x54040, 17, 0, 0x4⟩
def PGR_T3_USED : Fld := ⟨0x54050, 31, 0, 0x4⟩
def PGR_T3_USED_pages : Fld := ⟨0x54050, 20, 0, 0x4⟩
def PGR_STAT : Fld := ⟨0x54060, 31, 0, 0x4⟩
def PGR_STAT_in_flight : Fld := ⟨0x54060, 4, 0, 0x4⟩
def PGR_STAT_stage_balance : Fld := ⟨0x54060, 11, 8, 0x4⟩
def PGR_ERR : Fld := ⟨0x54064, 31, 0, 0x4⟩
def PGR_ERR_berth : Fld := ⟨0x54064, 1, 0, 0x4⟩
def PGR_ERR_cause : Fld := ⟨0x54064, 3, 2, 0x4⟩
def PGR_IRQ_STAT : Fld := ⟨0x54070, 31, 0, 0x4⟩
def PGR_IRQ_STAT_halt : Fld := ⟨0x54070, 0, 0, 0x4⟩
def PGR_IRQ_STAT_spill : Fld := ⟨0x54070, 1, 1, 0x4⟩
def PGR_IRQ_STAT_move_ue : Fld := ⟨0x54070, 2, 2, 0x4⟩
def PGR_IRQ_EN : Fld := ⟨0x54074, 31, 0, 0x4⟩
def PGR_IRQ_EN_enable : Fld := ⟨0x54074, 2, 0, 0x4⟩

/-! HBM -/
def HBM_ID : Fld := ⟨0x58000, 31, 0, 0x4⟩
def HBM_ID_version : Fld := ⟨0x58000, 15, 0, 0x4⟩
def HBM_STAT : Fld := ⟨0x58004, 31, 0, 0x4⟩
def HBM_STAT_ok : Fld := ⟨0x58004, 7, 0, 0x4⟩
def HBM_STAT_failed : Fld := ⟨0x58004, 15, 8, 0x4⟩
def HBM_CE_THRESH : Fld := ⟨0x58008, 31, 0, 0x4⟩
def HBM_CE_THRESH_thresh : Fld := ⟨0x58008, 15, 0, 0x4⟩
def HBM_CE_COUNT : Fld := ⟨0x58010, 31, 0, 0x4⟩
def HBM_CE_COUNT_count : Fld := ⟨0x58010, 15, 0, 0x4⟩
def HBM_SCRUB : Fld := ⟨0x58030, 31, 0, 0x4⟩
def HBM_ERR : Fld := ⟨0x58034, 31, 0, 0x4⟩
def HBM_ERR_stack : Fld := ⟨0x58034, 2, 0, 0x4⟩
def HBM_ERR_channel : Fld := ⟨0x58034, 7, 3, 0x4⟩
def HBM_ERR_scrub : Fld := ⟨0x58034, 8, 8, 0x4⟩
def HBM_IRQ_STAT : Fld := ⟨0x58040, 31, 0, 0x4⟩
def HBM_IRQ_STAT_ce_thresh : Fld := ⟨0x58040, 0, 0, 0x4⟩
def HBM_IRQ_STAT_ue : Fld := ⟨0x58040, 1, 1, 0x4⟩
def HBM_IRQ_STAT_stack_fail : Fld := ⟨0x58040, 2, 2, 0x4⟩
def HBM_IRQ_EN : Fld := ⟨0x58044, 31, 0, 0x4⟩
def HBM_IRQ_EN_enable : Fld := ⟨0x58044, 2, 0, 0x4⟩
def HBM_LOCK : Fld := ⟨0x58048, 31, 0, 0x4⟩
def HBM_LOCK_lock : Fld := ⟨0x58048, 0, 0, 0x4⟩

/-! DDR -/
def DDR_ID : Fld := ⟨0x5C000, 31, 0, 0x4⟩
def DDR_ID_version : Fld := ⟨0x5C000, 15, 0, 0x4⟩
def DDR_STAT : Fld := ⟨0x5C004, 31, 0, 0x4⟩
def DDR_STAT_in_service : Fld := ⟨0x5C004, 11, 0, 0x4⟩
def DDR_STAT_lost : Fld := ⟨0x5C004, 27, 16, 0x4⟩
def DDR_CAP : Fld := ⟨0x5C008, 31, 0, 0x4⟩
def DDR_CAP_cap : Fld := ⟨0x5C008, 23, 0, 0x4⟩
def DDR_CE_THRESH : Fld := ⟨0x5C00C, 31, 0, 0x4⟩
def DDR_CE_THRESH_thresh : Fld := ⟨0x5C00C, 15, 0, 0x4⟩
def DDR_UE_LIMIT : Fld := ⟨0x5C010, 31, 0, 0x4⟩
def DDR_UE_LIMIT_limit : Fld := ⟨0x5C010, 7, 0, 0x4⟩
def DDR_CE_COUNT : Fld := ⟨0x5C020, 31, 0, 0x4⟩
def DDR_CE_COUNT_ce : Fld := ⟨0x5C020, 15, 0, 0x4⟩
def DDR_CE_COUNT_ue : Fld := ⟨0x5C020, 23, 16, 0x4⟩
def DDR_SCRUB : Fld := ⟨0x5C050, 31, 0, 0x4⟩
def DDR_ERR : Fld := ⟨0x5C054, 31, 0, 0x4⟩
def DDR_ERR_channel : Fld := ⟨0x5C054, 3, 0, 0x4⟩
def DDR_ERR_subchannel : Fld := ⟨0x5C054, 4, 4, 0x4⟩
def DDR_ERR_scrub : Fld := ⟨0x5C054, 5, 5, 0x4⟩
def DDR_IRQ_STAT : Fld := ⟨0x5C060, 31, 0, 0x4⟩
def DDR_IRQ_STAT_ce_thresh : Fld := ⟨0x5C060, 0, 0, 0x4⟩
def DDR_IRQ_STAT_ue : Fld := ⟨0x5C060, 1, 1, 0x4⟩
def DDR_IRQ_STAT_chan_lost : Fld := ⟨0x5C060, 2, 2, 0x4⟩
def DDR_IRQ_EN : Fld := ⟨0x5C064, 31, 0, 0x4⟩
def DDR_IRQ_EN_enable : Fld := ⟨0x5C064, 2, 0, 0x4⟩
def DDR_LOCK : Fld := ⟨0x5C068, 31, 0, 0x4⟩
def DDR_LOCK_lock : Fld := ⟨0x5C068, 0, 0, 0x4⟩

/-! CLF -/
def CLF_PID : Fld := ⟨0x60000, 31, 0, 0x400⟩
def CLF_PID_port : Fld := ⟨0x60000, 3, 0, 0x400⟩
def CLF_PCTL : Fld := ⟨0x60004, 31, 0, 0x400⟩
def CLF_PCTL_enable : Fld := ⟨0x60004, 0, 0, 0x400⟩
def CLF_PCTL_retrain : Fld := ⟨0x60004, 1, 1, 0x400⟩
def CLF_PCTL_loopback : Fld := ⟨0x60004, 2, 2, 0x400⟩
def CLF_PSTAT : Fld := ⟨0x60008, 31, 0, 0x400⟩
def CLF_PSTAT_state : Fld := ⟨0x60008, 3, 0, 0x400⟩
def CLF_PSTAT_signal : Fld := ⟨0x60008, 11, 4, 0x400⟩
def CLF_PSTAT_reversed : Fld := ⟨0x60008, 12, 12, 0x400⟩
def CLF_PSTAT_ce_rate : Fld := ⟨0x60008, 31, 16, 0x400⟩
def CLF_PEER : Fld := ⟨0x6000C, 31, 0, 0x400⟩
def CLF_PEER_device : Fld := ⟨0x6000C, 16, 0, 0x400⟩
def CLF_PEER_valid : Fld := ⟨0x6000C, 17, 17, 0x400⟩
def CLF_PEER_port : Fld := ⟨0x6000C, 23, 20, 0x400⟩
def CLF_LAT : Fld := ⟨0x60010, 31, 0, 0x400⟩
def CLF_LAT_ps : Fld := ⟨0x60010, 15, 0, 0x400⟩
def CLF_THRESH : Fld := ⟨0x60014, 31, 0, 0x400⟩
def CLF_THRESH_thresh : Fld := ⟨0x60014, 15, 0, 0x400⟩
def CLF_RETRY : Fld := ⟨0x60018, 31, 0, 0x400⟩
def CLF_RETRY_limit : Fld := ⟨0x60018, 7, 0, 0x400⟩
def CLF_RETRY_timer : Fld := ⟨0x60018, 31, 16, 0x400⟩
def CLF_TRAIN : Fld := ⟨0x6001C, 31, 0, 0x400⟩
def CLF_TRAIN_attempts : Fld := ⟨0x6001C, 3, 0, 0x400⟩
def CLF_TRAIN_cause : Fld := ⟨0x6001C, 7, 4, 0x400⟩
def CLF_PIRQ_STAT : Fld := ⟨0x60030, 31, 0, 0x400⟩
def CLF_PIRQ_STAT_up : Fld := ⟨0x60030, 0, 0, 0x400⟩
def CLF_PIRQ_STAT_down : Fld := ⟨0x60030, 1, 1, 0x400⟩
def CLF_PIRQ_STAT_failed : Fld := ⟨0x60030, 2, 2, 0x400⟩
def CLF_PIRQ_STAT_miswired : Fld := ⟨0x60030, 3, 3, 0x400⟩
def CLF_PIRQ_STAT_ce_thresh : Fld := ⟨0x60030, 4, 4, 0x400⟩
def CLF_PIRQ_EN : Fld := ⟨0x60034, 31, 0, 0x400⟩
def CLF_PIRQ_EN_enable : Fld := ⟨0x60034, 4, 0, 0x400⟩
def CLF_ID : Fld := ⟨0x63000, 31, 0, 0x4⟩
def CLF_COORD : Fld := ⟨0x63004, 31, 0, 0x4⟩
def CLF_COORD_x : Fld := ⟨0x63004, 5, 0, 0x4⟩
def CLF_COORD_y : Fld := ⟨0x63004, 11, 6, 0x4⟩
def CLF_COORD_z : Fld := ⟨0x63004, 16, 12, 0x4⟩
def CLF_COORD_valid : Fld := ⟨0x63004, 17, 17, 0x4⟩
def CLF_COORD_anchor : Fld := ⟨0x63004, 18, 18, 0x4⟩
def CLF_DIMS : Fld := ⟨0x63008, 31, 0, 0x4⟩
def CLF_DIMS_sx : Fld := ⟨0x63008, 6, 0, 0x4⟩
def CLF_DIMS_sy : Fld := ⟨0x63008, 14, 8, 0x4⟩
def CLF_DIMS_sz : Fld := ⟨0x63008, 21, 16, 0x4⟩
def CLF_DOMAIN : Fld := ⟨0x6300C, 31, 0, 0x4⟩
def CLF_DOMAIN_tag : Fld := ⟨0x6300C, 15, 0, 0x4⟩
def CLF_DISC_COUNT : Fld := ⟨0x63010, 31, 0, 0x4⟩
def CLF_DISC_COUNT_reports : Fld := ⟨0x63010, 17, 0, 0x4⟩
def CLF_DISC_COUNT_conflicts : Fld := ⟨0x63010, 31, 18, 0x4⟩
def CLF_TMO : Fld := ⟨0x63014, 31, 0, 0x4⟩
def CLF_TMO_train : Fld := ⟨0x63014, 15, 0, 0x4⟩
def CLF_TMO_disc : Fld := ⟨0x63014, 31, 16, 0x4⟩
def CLF_DIRS : Fld := ⟨0x63018, 31, 0, 0x4⟩
def CLF_DIRS_usable : Fld := ⟨0x63018, 5, 0, 0x4⟩
def CLF_TICK : Fld := ⟨0x6301C, 31, 0, 0x4⟩
def CLF_TICK_upstream : Fld := ⟨0x6301C, 3, 0, 0x4⟩
def CLF_TICK_locked : Fld := ⟨0x6301C, 4, 4, 0x4⟩
def CLF_TICK_offset : Fld := ⟨0x6301C, 31, 16, 0x4⟩
def CLF_IRQ_STAT : Fld := ⟨0x63030, 31, 0, 0x4⟩
def CLF_IRQ_STAT_disc_done : Fld := ⟨0x63030, 0, 0, 0x4⟩
def CLF_IRQ_STAT_conflict : Fld := ⟨0x63030, 1, 1, 0x4⟩
def CLF_IRQ_STAT_unreach : Fld := ⟨0x63030, 2, 2, 0x4⟩
def CLF_IRQ_STAT_tick_lost : Fld := ⟨0x63030, 3, 3, 0x4⟩
def CLF_IRQ_EN : Fld := ⟨0x63034, 31, 0, 0x4⟩
def CLF_IRQ_EN_enable : Fld := ⟨0x63034, 3, 0, 0x4⟩
def CLF_LOCK : Fld := ⟨0x63038, 31, 0, 0x4⟩
def CLF_LOCK_lock : Fld := ⟨0x63038, 0, 0, 0x4⟩

/-! LSH -/
def LSH_ID : Fld := ⟨0x64000, 31, 0, 0x4⟩
def LSH_ID_version : Fld := ⟨0x64000, 15, 0, 0x4⟩
def LSH_CTL : Fld := ⟨0x64004, 31, 0, 0x4⟩
def LSH_CTL_run : Fld := ⟨0x64004, 0, 0, 0x4⟩
def LSH_WINDOW : Fld := ⟨0x64008, 31, 0, 0x4⟩
def LSH_WINDOW_packets : Fld := ⟨0x64008, 7, 0, 0x4⟩
def LSH_TMO : Fld := ⟨0x6400C, 31, 0, 0x4⟩
def LSH_TMO_ticks : Fld := ⟨0x6400C, 15, 0, 0x4⟩
def LSH_TIMED : Fld := ⟨0x64010, 31, 0, 0x4⟩
def LSH_TIMED_timed : Fld := ⟨0x64010, 15, 0, 0x4⟩
def LSH_STAT : Fld := ⟨0x64020, 31, 0, 0x4⟩
def LSH_STAT_active : Fld := ⟨0x64020, 15, 0, 0x4⟩
def LSH_STAT_halted : Fld := ⟨0x64020, 16, 16, 0x4⟩
def LSH_STAT_permute : Fld := ⟨0x64020, 18, 17, 0x4⟩
def LSH_STAT_groups : Fld := ⟨0x64020, 31, 19, 0x4⟩
def LSH_FLAG : Fld := ⟨0x64030, 31, 0, 0x4⟩
def LSH_FLAG_flag : Fld := ⟨0x64030, 0, 0, 0x4⟩
def LSH_FLAG_decided : Fld := ⟨0x64030, 1, 1, 0x4⟩
def LSH_FLAG_skip : Fld := ⟨0x64030, 2, 2, 0x4⟩
def LSH_FLAG_round : Fld := ⟨0x64030, 15, 8, 0x4⟩
def LSH_FLAG_diameter : Fld := ⟨0x64030, 23, 16, 0x4⟩
def LSH_ERR : Fld := ⟨0x64040, 31, 0, 0x4⟩
def LSH_ERR_group : Fld := ⟨0x64040, 15, 0, 0x4⟩
def LSH_ERR_cause : Fld := ⟨0x64040, 19, 16, 0x4⟩
def LSH_ERR_berth : Fld := ⟨0x64040, 21, 20, 0x4⟩
def LSH_IRQ_STAT : Fld := ⟨0x64050, 31, 0, 0x4⟩
def LSH_IRQ_STAT_timeout : Fld := ⟨0x64050, 0, 0, 0x4⟩
def LSH_IRQ_STAT_close_tmo : Fld := ⟨0x64050, 1, 1, 0x4⟩
def LSH_IRQ_STAT_stale : Fld := ⟨0x64050, 2, 2, 0x4⟩
def LSH_IRQ_STAT_permute_done : Fld := ⟨0x64050, 3, 3, 0x4⟩
def LSH_IRQ_STAT_crc : Fld := ⟨0x64050, 4, 4, 0x4⟩
def LSH_IRQ_EN : Fld := ⟨0x64054, 31, 0, 0x4⟩
def LSH_IRQ_EN_enable : Fld := ⟨0x64054, 4, 0, 0x4⟩
def LSH_LOCK : Fld := ⟨0x64058, 31, 0, 0x4⟩
def LSH_LOCK_lock : Fld := ⟨0x64058, 0, 0, 0x4⟩

/-! SHG -/
def SHG_ID : Fld := ⟨0x70000, 31, 0, 0x4⟩
def SHG_ID_version : Fld := ⟨0x70000, 15, 0, 0x4⟩
def SHG_CTL : Fld := ⟨0x70004, 31, 0, 0x4⟩
def SHG_CTL_run : Fld := ⟨0x70004, 0, 0, 0x4⟩
def SHG_STAT : Fld := ⟨0x70008, 31, 0, 0x4⟩
def SHG_STAT_used : Fld := ⟨0x70008, 6, 0, 0x4⟩
def SHG_STAT_retiring : Fld := ⟨0x70008, 14, 8, 0x4⟩
def SHG_STAT_busy : Fld := ⟨0x70008, 16, 16, 0x4⟩
def SHG_SLOT_SEL : Fld := ⟨0x70010, 31, 0, 0x4⟩
def SHG_SLOT_SEL_slot : Fld := ⟨0x70010, 5, 0, 0x4⟩
def SHG_SLOT_STAT : Fld := ⟨0x70014, 31, 0, 0x4⟩
def SHG_SLOT_STAT_state : Fld := ⟨0x70014, 1, 0, 0x4⟩
def SHG_SLOT_STAT_version : Fld := ⟨0x70014, 5, 2, 0x4⟩
def SHG_SLOT_STAT_user : Fld := ⟨0x70014, 7, 6, 0x4⟩
def SHG_SLOT_STAT_inflight : Fld := ⟨0x70014, 31, 8, 0x4⟩
def SHG_ERR : Fld := ⟨0x70020, 31, 0, 0x4⟩
def SHG_ERR_slot : Fld := ⟨0x70020, 5, 0, 0x4⟩
def SHG_ERR_cause : Fld := ⟨0x70020, 11, 8, 0x4⟩
def SHG_ERR_berth : Fld := ⟨0x70020, 13, 12, 0x4⟩
def SHG_IRQ_STAT : Fld := ⟨0x70030, 31, 0, 0x4⟩
def SHG_IRQ_STAT_crc : Fld := ⟨0x70030, 0, 0, 0x4⟩
def SHG_IRQ_STAT_version : Fld := ⟨0x70030, 1, 1, 0x4⟩
def SHG_IRQ_STAT_nonfinite : Fld := ⟨0x70030, 2, 2, 0x4⟩
def SHG_IRQ_STAT_slot_wait : Fld := ⟨0x70030, 3, 3, 0x4⟩
def SHG_IRQ_EN : Fld := ⟨0x70034, 31, 0, 0x4⟩
def SHG_IRQ_EN_enable : Fld := ⟨0x70034, 3, 0, 0x4⟩

/-! SWL -/
def SWL_ID : Fld := ⟨0x74000, 31, 0, 0x4⟩
def SWL_ID_version : Fld := ⟨0x74000, 15, 0, 0x4⟩
def SWL_CTL : Fld := ⟨0x74004, 31, 0, 0x4⟩
def SWL_CTL_run : Fld := ⟨0x74004, 0, 0, 0x4⟩
def SWL_STAT : Fld := ⟨0x74008, 31, 0, 0x4⟩
def SWL_STAT_queued : Fld := ⟨0x74008, 6, 0, 0x4⟩
def SWL_STAT_pipes : Fld := ⟨0x74008, 11, 8, 0x4⟩
def SWL_STAT_entropy_ok : Fld := ⟨0x74008, 12, 12, 0x4⟩
def SWL_STAT_alarm : Fld := ⟨0x74008, 13, 13, 0x4⟩
def SWL_KSEL : Fld := ⟨0x74010, 31, 0, 0x4⟩
def SWL_KSEL_slot : Fld := ⟨0x74010, 4, 0, 0x4⟩
def SWL_KEY : Fld := ⟨0x74020, 31, 0, 0x4⟩
def SWL_SALT : Fld := ⟨0x74040, 31, 0, 0x4⟩
def SWL_KCTL : Fld := ⟨0x74044, 31, 0, 0x4⟩
def SWL_KCTL_load : Fld := ⟨0x74044, 0, 0, 0x4⟩
def SWL_KCTL_retire : Fld := ⟨0x74044, 1, 1, 0x4⟩
def SWL_KCTL_erase : Fld := ⟨0x74044, 2, 2, 0x4⟩
def SWL_KCTL_owner : Fld := ⟨0x74044, 5, 4, 0x4⟩
def SWL_KCTL_dir : Fld := ⟨0x74044, 7, 6, 0x4⟩
def SWL_KCTL_epoch : Fld := ⟨0x74044, 15, 8, 0x4⟩
def SWL_KSTAT : Fld := ⟨0x74048, 31, 0, 0x4⟩
def SWL_KSTAT_state : Fld := ⟨0x74048, 1, 0, 0x4⟩
def SWL_KSTAT_owner : Fld := ⟨0x74048, 3, 2, 0x4⟩
def SWL_KSTAT_dir : Fld := ⟨0x74048, 5, 4, 0x4⟩
def SWL_KSTAT_erased_by_alarm : Fld := ⟨0x74048, 6, 6, 0x4⟩
def SWL_KSTAT_epoch : Fld := ⟨0x74048, 15, 8, 0x4⟩
def SWL_KSTAT_pending : Fld := ⟨0x74048, 22, 16, 0x4⟩
def SWL_ALARM : Fld := ⟨0x74050, 31, 0, 0x4⟩
def SWL_ALARM_volt : Fld := ⟨0x74050, 0, 0, 0x4⟩
def SWL_ALARM_clock : Fld := ⟨0x74050, 1, 1, 0x4⟩
def SWL_ALARM_temp : Fld := ⟨0x74050, 2, 2, 0x4⟩
def SWL_ALARM_tamper : Fld := ⟨0x74050, 3, 3, 0x4⟩
def SWL_ALARM_clear : Fld := ⟨0x74050, 8, 8, 0x4⟩
def SWL_ALARM_EN : Fld := ⟨0x74054, 31, 0, 0x4⟩
def SWL_ALARM_EN_arm : Fld := ⟨0x74054, 3, 0, 0x4⟩
def SWL_ERR : Fld := ⟨0x74060, 31, 0, 0x4⟩
def SWL_ERR_slot : Fld := ⟨0x74060, 4, 0, 0x4⟩
def SWL_ERR_code : Fld := ⟨0x74060, 11, 8, 0x4⟩
def SWL_ERR_class : Fld := ⟨0x74060, 13, 12, 0x4⟩
def SWL_IRQ_STAT : Fld := ⟨0x74070, 31, 0, 0x4⟩
def SWL_IRQ_STAT_auth : Fld := ⟨0x74070, 0, 0, 0x4⟩
def SWL_IRQ_STAT_alarm : Fld := ⟨0x74070, 1, 1, 0x4⟩
def SWL_IRQ_STAT_entropy : Fld := ⟨0x74070, 2, 2, 0x4⟩
def SWL_IRQ_STAT_exhausted : Fld := ⟨0x74070, 3, 3, 0x4⟩
def SWL_IRQ_STAT_reject : Fld := ⟨0x74070, 4, 4, 0x4⟩
def SWL_IRQ_EN : Fld := ⟨0x74074, 31, 0, 0x4⟩
def SWL_IRQ_EN_enable : Fld := ⟨0x74074, 4, 0, 0x4⟩
def SWL_LOCK : Fld := ⟨0x74078, 31, 0, 0x4⟩
def SWL_LOCK_lock : Fld := ⟨0x74078, 0, 0, 0x4⟩

/-! OFS -/
def OFS_ID : Fld := ⟨0x78000, 31, 0, 0x4⟩
def OFS_ID_version : Fld := ⟨0x78000, 15, 0, 0x4⟩
def OFS_CTL : Fld := ⟨0x78004, 31, 0, 0x4⟩
def OFS_CTL_run : Fld := ⟨0x78004, 0, 0, 0x4⟩
def OFS_STAT : Fld := ⟨0x78010, 31, 0, 0x4⟩
def OFS_STAT_phase : Fld := ⟨0x78010, 2, 0, 0x4⟩
def OFS_STAT_open : Fld := ⟨0x78010, 3, 3, 0x4⟩
def OFS_STAT_site : Fld := ⟨0x78010, 7, 4, 0x4⟩
def OFS_STAT_members : Fld := ⟨0x78010, 23, 8, 0x4⟩
def OFS_STAT_s_max : Fld := ⟨0x78010, 25, 24, 0x4⟩
def OFS_ROUND : Fld := ⟨0x78020, 31, 0, 0x4⟩
def OFS_PEER_SEL : Fld := ⟨0x78030, 31, 0, 0x4⟩
def OFS_PEER_SEL_site : Fld := ⟨0x78030, 3, 0, 0x4⟩
def OFS_PEER_SEL_berth : Fld := ⟨0x78030, 5, 4, 0x4⟩
def OFS_PEER_STAT : Fld := ⟨0x78034, 31, 0, 0x4⟩
def OFS_PEER_STAT_state : Fld := ⟨0x78034, 1, 0, 0x4⟩
def OFS_PEER_STAT_route : Fld := ⟨0x78034, 2, 2, 0x4⟩
def OFS_PEER_STAT_e0_ok : Fld := ⟨0x78034, 3, 3, 0x4⟩
def OFS_PEER_STAT_e1_ok : Fld := ⟨0x78034, 4, 4, 0x4⟩
def OFS_PEER_STAT_rekeying : Fld := ⟨0x78034, 5, 5, 0x4⟩
def OFS_PEER_STAT_key_epoch : Fld := ⟨0x78034, 15, 8, 0x4⟩
def OFS_PEER_STAT_srtt : Fld := ⟨0x78034, 31, 16, 0x4⟩
def OFS_PEER_RATE : Fld := ⟨0x78038, 31, 0, 0x4⟩
def OFS_WAIT : Fld := ⟨0x78040, 31, 0, 0x4⟩
def OFS_PEER_TMO : Fld := ⟨0x78044, 31, 0, 0x4⟩
def OFS_RTO : Fld := ⟨0x78048, 31, 0, 0x4⟩
def OFS_RTO_min_us : Fld := ⟨0x78048, 15, 0, 0x4⟩
def OFS_RTO_max_ms : Fld := ⟨0x78048, 31, 16, 0x4⟩
def OFS_FAILBACK : Fld := ⟨0x7804C, 31, 0, 0x4⟩
def OFS_FAILBACK_intervals : Fld := ⟨0x7804C, 15, 0, 0x4⟩
def OFS_ERR : Fld := ⟨0x78050, 31, 0, 0x4⟩
def OFS_ERR_site : Fld := ⟨0x78050, 3, 0, 0x4⟩
def OFS_ERR_berth : Fld := ⟨0x78050, 5, 4, 0x4⟩
def OFS_ERR_cause : Fld := ⟨0x78050, 11, 8, 0x4⟩
def OFS_ERR_stream : Fld := ⟨0x78050, 27, 12, 0x4⟩
def OFS_IRQ_STAT : Fld := ⟨0x78060, 31, 0, 0x4⟩
def OFS_IRQ_STAT_drop : Fld := ⟨0x78060, 0, 0, 0x4⟩
def OFS_IRQ_STAT_lost : Fld := ⟨0x78060, 1, 1, 0x4⟩
def OFS_IRQ_STAT_failover : Fld := ⟨0x78060, 2, 2, 0x4⟩
def OFS_IRQ_STAT_withheld : Fld := ⟨0x78060, 3, 3, 0x4⟩
def OFS_IRQ_STAT_held : Fld := ⟨0x78060, 4, 4, 0x4⟩
def OFS_IRQ_STAT_auth : Fld := ⟨0x78060, 5, 5, 0x4⟩
def OFS_IRQ_STAT_diverge : Fld := ⟨0x78060, 6, 6, 0x4⟩
def OFS_IRQ_STAT_join_done : Fld := ⟨0x78060, 7, 7, 0x4⟩
def OFS_IRQ_STAT_key_fail : Fld := ⟨0x78060, 8, 8, 0x4⟩
def OFS_IRQ_STAT_stream : Fld := ⟨0x78060, 9, 9, 0x4⟩
def OFS_IRQ_EN : Fld := ⟨0x78064, 31, 0, 0x4⟩
def OFS_IRQ_EN_enable : Fld := ⟨0x78064, 9, 0, 0x4⟩
def OFS_LOCK : Fld := ⟨0x78068, 31, 0, 0x4⟩
def OFS_LOCK_lock : Fld := ⟨0x78068, 0, 0, 0x4⟩

/-! ETH -/
def ETH_ID : Fld := ⟨0x80000, 31, 0, 0x4⟩
def ETH_ID_version : Fld := ⟨0x80000, 15, 0, 0x4⟩
def ETH_CTL : Fld := ⟨0x80004, 31, 0, 0x4⟩
def ETH_CTL_e0_en : Fld := ⟨0x80004, 0, 0, 0x4⟩
def ETH_CTL_e0_split : Fld := ⟨0x80004, 1, 1, 0x4⟩
def ETH_CTL_e1_en : Fld := ⟨0x80004, 2, 2, 0x4⟩
def ETH_CTL_e1_split : Fld := ⟨0x80004, 3, 3, 0x4⟩
def ETH_CTL_ptp_en : Fld := ⟨0x80004, 4, 4, 0x4⟩
def ETH_STAT : Fld := ⟨0x80008, 31, 0, 0x4⟩
def ETH_STAT_link : Fld := ⟨0x80008, 3, 0, 0x4⟩
def ETH_STAT_fec_lock : Fld := ⟨0x80008, 7, 4, 0x4⟩
def ETH_STAT_ptp_locked : Fld := ⟨0x80008, 8, 8, 0x4⟩
def ETH_STAT_ptp_port : Fld := ⟨0x80008, 9, 9, 0x4⟩
def ETH_ECP_PORT : Fld := ⟨0x8000C, 31, 0, 0x4⟩
def ETH_ECP_PORT_port : Fld := ⟨0x8000C, 15, 0, 0x4⟩
def ETH_VLAN : Fld := ⟨0x80010, 31, 0, 0x4⟩
def ETH_VLAN_vid : Fld := ⟨0x80010, 11, 0, 0x4⟩
def ETH_VLAN_pcp : Fld := ⟨0x80010, 14, 12, 0x4⟩
def ETH_DSCP : Fld := ⟨0x80020, 31, 0, 0x4⟩
def ETH_DSCP_ecp : Fld := ⟨0x80020, 5, 0, 0x4⟩
def ETH_PTP : Fld := ⟨0x80024, 31, 0, 0x4⟩
def ETH_PTP_domain : Fld := ⟨0x80024, 7, 0, 0x4⟩
def ETH_PTP_e1_first : Fld := ⟨0x80024, 8, 8, 0x4⟩
def ETH_IP_SEL : Fld := ⟨0x80030, 31, 0, 0x4⟩
def ETH_IP_SEL_interface : Fld := ⟨0x80030, 1, 0, 0x4⟩
def ETH_IP_SEL_index : Fld := ⟨0x80030, 3, 2, 0x4⟩
def ETH_IP : Fld := ⟨0x80034, 31, 0, 0x4⟩
def ETH_IP_CTL : Fld := ⟨0x80044, 31, 0, 0x4⟩
def ETH_IP_CTL_load : Fld := ⟨0x80044, 0, 0, 0x4⟩
def ETH_IP_CTL_clear : Fld := ⟨0x80044, 1, 1, 0x4⟩
def ETH_IRQ_STAT : Fld := ⟨0x80050, 31, 0, 0x4⟩
def ETH_IRQ_STAT_link : Fld := ⟨0x80050, 0, 0, 0x4⟩
def ETH_IRQ_STAT_ptp_lost : Fld := ⟨0x80050, 1, 1, 0x4⟩
def ETH_IRQ_STAT_rx_drop : Fld := ⟨0x80050, 2, 2, 0x4⟩
def ETH_IRQ_EN : Fld := ⟨0x80054, 31, 0, 0x4⟩
def ETH_IRQ_EN_enable : Fld := ⟨0x80054, 2, 0, 0x4⟩
def ETH_LOCK : Fld := ⟨0x80058, 31, 0, 0x4⟩
def ETH_LOCK_lock : Fld := ⟨0x80058, 0, 0, 0x4⟩

/-! CMD -/
def CMD_ID : Fld := ⟨0x84000, 31, 0, 0x4⟩
def CMD_ID_version : Fld := ⟨0x84000, 15, 0, 0x4⟩
def CMD_CTL : Fld := ⟨0x84004, 31, 0, 0x4⟩
def CMD_CTL_run : Fld := ⟨0x84004, 0, 0, 0x4⟩
def CMD_BERTH_STAT : Fld := ⟨0x84010, 31, 0, 0x4⟩
def CMD_BERTH_STAT_state : Fld := ⟨0x84010, 1, 0, 0x4⟩
def CMD_BERTH_STAT_admitted : Fld := ⟨0x84010, 2, 2, 0x4⟩
def CMD_BERTH_STAT_admin : Fld := ⟨0x84010, 3, 3, 0x4⟩
def CMD_BERTH_STAT_held : Fld := ⟨0x84010, 7, 4, 0x4⟩
def CMD_BERTH_STAT_key_epoch : Fld := ⟨0x84010, 15, 8, 0x4⟩
def CMD_BERTH_STAT_in_flight : Fld := ⟨0x84010, 24, 16, 0x4⟩
def CMD_ADM_SEL : Fld := ⟨0x84020, 31, 0, 0x4⟩
def CMD_ADM_SEL_berth : Fld := ⟨0x84020, 1, 0, 0x4⟩
def CMD_ADM_HASH : Fld := ⟨0x84024, 31, 0, 0x4⟩
def CMD_ADM_CTL : Fld := ⟨0x84044, 31, 0, 0x4⟩
def CMD_ADM_CTL_load : Fld := ⟨0x84044, 0, 0, 0x4⟩
def CMD_ADM_CTL_clear : Fld := ⟨0x84044, 1, 1, 0x4⟩
def CMD_ADM_CTL_admin : Fld := ⟨0x84044, 2, 2, 0x4⟩
def CMD_RETRY : Fld := ⟨0x84050, 31, 0, 0x4⟩
def CMD_RETRY_ticks : Fld := ⟨0x84050, 15, 0, 0x4⟩
def CMD_LEASE : Fld := ⟨0x84054, 31, 0, 0x4⟩
def CMD_EVT_RTO : Fld := ⟨0x84058, 31, 0, 0x4⟩
def CMD_EVT_RTO_ticks : Fld := ⟨0x84058, 15, 0, 0x4⟩
def CMD_HOLD : Fld := ⟨0x8405C, 31, 0, 0x4⟩
def CMD_HOLD_ticks : Fld := ⟨0x8405C, 15, 0, 0x4⟩
def CMD_EPOCH : Fld := ⟨0x84060, 31, 0, 0x4⟩
def CMD_EPOCH_epoch : Fld := ⟨0x84060, 15, 0, 0x4⟩
def CMD_IRQ_STAT : Fld := ⟨0x84070, 31, 0, 0x4⟩
def CMD_IRQ_STAT_auth_fail : Fld := ⟨0x84070, 0, 0, 0x4⟩
def CMD_IRQ_STAT_busy : Fld := ⟨0x84070, 1, 1, 0x4⟩
def CMD_IRQ_STAT_evt_lost : Fld := ⟨0x84070, 2, 2, 0x4⟩
def CMD_IRQ_STAT_lease : Fld := ⟨0x84070, 3, 3, 0x4⟩
def CMD_IRQ_STAT_version : Fld := ⟨0x84070, 4, 4, 0x4⟩
def CMD_IRQ_EN : Fld := ⟨0x84074, 31, 0, 0x4⟩
def CMD_IRQ_EN_enable : Fld := ⟨0x84074, 4, 0, 0x4⟩
def CMD_LOCK : Fld := ⟨0x84078, 31, 0, 0x4⟩
def CMD_LOCK_lock : Fld := ⟨0x84078, 0, 0, 0x4⟩

/-! DEV -/
def DEV_ID : Fld := ⟨0x00000, 31, 0, 0x4⟩
def DEV_ID_version : Fld := ⟨0x00000, 15, 0, 0x4⟩
def DEV_PART : Fld := ⟨0x00004, 31, 0, 0x4⟩
def DEV_PART_part : Fld := ⟨0x00004, 15, 0, 0x4⟩
def DEV_PART_stepping : Fld := ⟨0x00004, 23, 16, 0x4⟩
def DEV_CAP : Fld := ⟨0x00008, 31, 0, 0x4⟩
def DEV_CAP_cliff : Fld := ⟨0x00008, 11, 0, 0x4⟩
def DEV_CAP_offshore : Fld := ⟨0x00008, 12, 12, 0x4⟩
def DEV_CAP_ddr : Fld := ⟨0x00008, 13, 13, 0x4⟩
def DEV_CAP_shingle : Fld := ⟨0x00008, 14, 14, 0x4⟩
def DEV_CAP_seawall : Fld := ⟨0x00008, 15, 15, 0x4⟩
def DEV_DECODE : Fld := ⟨0x00010, 31, 0, 0x4⟩
def DEV_WHOAMI : Fld := ⟨0x00030, 31, 0, 0x4⟩
def DEV_WHOAMI_requester : Fld := ⟨0x00030, 3, 0, 0x4⟩
def DEV_ERR : Fld := ⟨0x00034, 31, 0, 0x4⟩
def DEV_ERR_offset : Fld := ⟨0x00034, 19, 0, 0x4⟩
def DEV_ERR_requester : Fld := ⟨0x00034, 23, 20, 0x4⟩
def DEV_ERR_write : Fld := ⟨0x00034, 24, 24, 0x4⟩

/-! MBX -/
def MBX_ID : Fld := ⟨0x04000, 31, 0, 0x4⟩
def MBX_ID_version : Fld := ⟨0x04000, 15, 0, 0x4⟩
def MBX_SEL : Fld := ⟨0x04004, 31, 0, 0x4⟩
def MBX_SEL_source : Fld := ⟨0x04004, 15, 0, 0x4⟩
def MBX_STAT : Fld := ⟨0x04008, 31, 0, 0x4⟩
def MBX_STAT_valid : Fld := ⟨0x04008, 0, 0, 0x4⟩
def MBX_STAT_busy : Fld := ⟨0x04008, 1, 1, 0x4⟩
def MBX_STAT_err : Fld := ⟨0x04008, 2, 2, 0x4⟩
def MBX_STAT_ignored : Fld := ⟨0x04008, 3, 3, 0x4⟩
def MBX_STAT_cleared : Fld := ⟨0x04008, 4, 4, 0x4⟩
def MBX_CTL : Fld := ⟨0x0400C, 31, 0, 0x4⟩
def MBX_CTL_discard : Fld := ⟨0x0400C, 0, 0, 0x4⟩
def MBX_D : Fld := ⟨0x04010, 31, 0, 0x4⟩

/-! ICU -/
def ICU_ID : Fld := ⟨0x08000, 31, 0, 0x4⟩
def ICU_ID_version : Fld := ⟨0x08000, 15, 0, 0x4⟩
def ICU_CTL : Fld := ⟨0x08004, 31, 0, 0x4⟩
def ICU_CTL_en : Fld := ⟨0x08004, 0, 0, 0x4⟩
def ICU_STAT : Fld := ⟨0x08008, 31, 0, 0x4⟩
def ICU_STAT_storms : Fld := ⟨0x08008, 8, 0, 0x4⟩
def ICU_STAT_bad_eoi : Fld := ⟨0x08008, 9, 9, 0x4⟩
def ICU_CLAIM : Fld := ⟨0x08010, 31, 0, 0x4⟩
def ICU_CLAIM_source : Fld := ⟨0x08010, 9, 0, 0x4⟩
def ICU_EOI : Fld := ⟨0x08014, 31, 0, 0x4⟩
def ICU_EOI_source : Fld := ⟨0x08014, 9, 0, 0x4⟩
def ICU_SELF : Fld := ⟨0x08018, 31, 0, 0x4⟩
def ICU_SELF_source : Fld := ⟨0x08018, 9, 0, 0x4⟩
def ICU_PEND : Fld := ⟨0x08100, 31, 0, 0x4⟩
def ICU_ACT : Fld := ⟨0x08120, 31, 0, 0x4⟩
def ICU_STORM : Fld := ⟨0x08140, 31, 0, 0x4⟩
def ICU_LEVEL : Fld := ⟨0x08160, 31, 0, 0x4⟩
def ICU_LOCK : Fld := ⟨0x08180, 31, 0, 0x4⟩
def ICU_LOCK_lock : Fld := ⟨0x08180, 0, 0, 0x4⟩
def ICU_CFG : Fld := ⟨0x08400, 31, 0, 0x4⟩
def ICU_CFG_targets : Fld := ⟨0x08400, 7, 0, 0x4⟩
def ICU_CFG_enable : Fld := ⟨0x08400, 8, 8, 0x4⟩
def ICU_CFG_fast : Fld := ⟨0x08400, 9, 9, 0x4⟩
def ICU_CFG_edge : Fld := ⟨0x08400, 10, 10, 0x4⟩
def ICU_CNT : Fld := ⟨0x08800, 31, 0, 0x4⟩
def ICU_CNT_count : Fld := ⟨0x08800, 15, 0, 0x4⟩

/-! ICF -/
def ICF_ID : Fld := ⟨0x0C000, 31, 0, 0x4⟩
def ICF_ID_version : Fld := ⟨0x0C000, 15, 0, 0x4⟩
def ICF_CLAIM : Fld := ⟨0x0C010, 31, 0, 0x4⟩
def ICF_CLAIM_source : Fld := ⟨0x0C010, 9, 0, 0x4⟩
def ICF_EOI : Fld := ⟨0x0C014, 31, 0, 0x4⟩
def ICF_EOI_source : Fld := ⟨0x0C014, 9, 0, 0x4⟩
def ICF_SELF : Fld := ⟨0x0C018, 31, 0, 0x4⟩
def ICF_SELF_source : Fld := ⟨0x0C018, 9, 0, 0x4⟩
def ICF_HOLD : Fld := ⟨0x0C020, 31, 0, 0x4⟩
def ICF_HOLD_source : Fld := ⟨0x0C020, 9, 0, 0x4⟩

/-! BCN -/
def BCN_ID : Fld := ⟨0x10000, 31, 0, 0x4⟩
def BCN_ID_version : Fld := ⟨0x10000, 15, 0, 0x4⟩
def BCN_WATCH : Fld := ⟨0x10004, 31, 0, 0x4⟩
def BCN_WATCH_watch : Fld := ⟨0x10004, 15, 0, 0x4⟩
def BCN_LEVEL : Fld := ⟨0x10008, 31, 0, 0x4⟩
def BCN_LEVEL_level : Fld := ⟨0x10008, 15, 0, 0x4⟩
def BCN_CAUSE : Fld := ⟨0x1000C, 31, 0, 0x4⟩
def BCN_CAUSE_cause : Fld := ⟨0x1000C, 15, 0, 0x4⟩
def BCN_TIMER : Fld := ⟨0x10010, 31, 0, 0x4⟩
def BCN_CTL : Fld := ⟨0x10014, 31, 0, 0x4⟩
def BCN_CTL_wake_now : Fld := ⟨0x10014, 0, 0, 0x4⟩

/-! TID -/
def TID_ID : Fld := ⟨0x14000, 31, 0, 0x4⟩
def TID_CTL : Fld := ⟨0x14004, 31, 0, 0x4⟩
def TID_CTL_ptp_steer : Fld := ⟨0x14004, 0, 0, 0x4⟩
def TID_STAT : Fld := ⟨0x14008, 31, 0, 0x4⟩
def TID_STAT_source : Fld := ⟨0x14008, 1, 0, 0x4⟩
def TID_STAT_ptp_set : Fld := ⟨0x14008, 2, 2, 0x4⟩
def TID_LO : Fld := ⟨0x1400C, 31, 0, 0x4⟩
def TID_PTP_OFF : Fld := ⟨0x14010, 31, 0, 0x4⟩
def TID_DONE : Fld := ⟨0x14014, 31, 0, 0x4⟩
def TID_DONE_done : Fld := ⟨0x14014, 0, 0, 0x4⟩
def TID_BUDGET : Fld := ⟨0x14020, 31, 0, 0x4⟩
def TID_BUDGET_budget : Fld := ⟨0x14020, 9, 0, 0x4⟩
def TID_USED : Fld := ⟨0x14040, 31, 0, 0x4⟩
def TID_USED_last : Fld := ⟨0x14040, 15, 0, 0x4⟩
def TID_USED_peak : Fld := ⟨0x14040, 31, 16, 0x4⟩
def TID_TELEM : Fld := ⟨0x14060, 31, 0, 0x4⟩
def TID_TELEM_h : Fld := ⟨0x14060, 23, 0, 0x4⟩
def TID_TELEM_overrun : Fld := ⟨0x14060, 31, 24, 0x4⟩
def TID_WDOG : Fld := ⟨0x14064, 31, 0, 0x4⟩
def TID_WDOG_ticks : Fld := ⟨0x14064, 15, 0, 0x4⟩
def TID_WD_CAUSE : Fld := ⟨0x14068, 31, 0, 0x4⟩
def TID_WD_CAUSE_cores : Fld := ⟨0x14068, 7, 0, 0x4⟩
def TID_RESTART : Fld := ⟨0x1406C, 31, 0, 0x4⟩
def TID_RESTART_cores : Fld := ⟨0x1406C, 7, 0, 0x4⟩
def TID_IRQ_STAT : Fld := ⟨0x14080, 31, 0, 0x4⟩
def TID_IRQ_STAT_overrun : Fld := ⟨0x14080, 0, 0, 0x4⟩
def TID_IRQ_STAT_telem : Fld := ⟨0x14080, 1, 1, 0x4⟩
def TID_IRQ_STAT_restart : Fld := ⟨0x14080, 2, 2, 0x4⟩
def TID_IRQ_EN : Fld := ⟨0x14084, 31, 0, 0x4⟩
def TID_IRQ_EN_enable : Fld := ⟨0x14084, 2, 0, 0x4⟩
def TID_LOCK : Fld := ⟨0x14088, 31, 0, 0x4⟩
def TID_LOCK_lock : Fld := ⟨0x14088, 0, 0, 0x4⟩

/-! PWR -/
def PWR_ID : Fld := ⟨0x20000, 31, 0, 0x4⟩
def PWR_CTL : Fld := ⟨0x20004, 31, 0, 0x4⟩
def PWR_CTL_sleep : Fld := ⟨0x20004, 0, 0, 0x4⟩
def PWR_STAT : Fld := ⟨0x20008, 31, 0, 0x4⟩
def PWR_STAT_emergency : Fld := ⟨0x20008, 0, 0, 0x4⟩
def PWR_STAT_brake : Fld := ⟨0x20008, 1, 1, 0x4⟩
def PWR_STAT_overcurrent : Fld := ⟨0x20008, 2, 2, 0x4⟩
def PWR_STAT_sag32 : Fld := ⟨0x20008, 3, 3, 0x4⟩
def PWR_STAT_sag30 : Fld := ⟨0x20008, 4, 4, 0x4⟩
def PWR_STAT_sag27 : Fld := ⟨0x20008, 5, 5, 0x4⟩
def PWR_STAT_therm_warn : Fld := ⟨0x20008, 6, 6, 0x4⟩
def PWR_STAT_emerg_clk : Fld := ⟨0x20008, 7, 7, 0x4⟩
def PWR_STAT_clamp : Fld := ⟨0x20008, 8, 8, 0x4⟩
def PWR_STAT_nv_block : Fld := ⟨0x20008, 9, 9, 0x4⟩
def PWR_STAT_gate : Fld := ⟨0x20008, 22, 16, 0x4⟩
def PWR_STAT_gate_hw : Fld := ⟨0x20008, 30, 24, 0x4⟩
def PWR_VIN : Fld := ⟨0x2000C, 31, 0, 0x4⟩
def PWR_VIN_mv : Fld := ⟨0x2000C, 15, 0, 0x4⟩
def PWR_VIN_iin : Fld := ⟨0x2000C, 31, 16, 0x4⟩
def PWR_PIN : Fld := ⟨0x20010, 31, 0, 0x4⟩
def PWR_PIN_watts : Fld := ⟨0x20010, 15, 0, 0x4⟩
def PWR_TEMP : Fld := ⟨0x20014, 31, 0, 0x4⟩
def PWR_TEMP_logic : Fld := ⟨0x20014, 7, 0, 0x4⟩
def PWR_TEMP_hbm : Fld := ⟨0x20014, 15, 8, 0x4⟩
def PWR_TEMP_board : Fld := ⟨0x20014, 23, 16, 0x4⟩
def PWR_CAP : Fld := ⟨0x20018, 31, 0, 0x4⟩
def PWR_CAP_watts : Fld := ⟨0x20018, 15, 0, 0x4⟩
def PWR_GATE : Fld := ⟨0x2001C, 31, 0, 0x4⟩
def PWR_GATE_g : Fld := ⟨0x2001C, 6, 0, 0x4⟩
def PWR_CLAMP : Fld := ⟨0x20020, 31, 0, 0x4⟩
def PWR_CLAMP_g : Fld := ⟨0x20020, 6, 0, 0x4⟩
def PWR_CLAMP_hold : Fld := ⟨0x20020, 31, 16, 0x4⟩
def PWR_OC : Fld := ⟨0x20024, 31, 0, 0x4⟩
def PWR_OC_amps : Fld := ⟨0x20024, 6, 0, 0x4⟩
def PWR_TLIM : Fld := ⟨0x20028, 31, 0, 0x4⟩
def PWR_TLIM_logic : Fld := ⟨0x20028, 7, 0, 0x4⟩
def PWR_TLIM_hbm : Fld := ⟨0x20028, 15, 8, 0x4⟩
def PWR_EMERG : Fld := ⟨0x2002C, 31, 0, 0x4⟩
def PWR_EMERG_warn_ticks : Fld := ⟨0x2002C, 15, 0, 0x4⟩
def PWR_EMERG_clear_ticks : Fld := ⟨0x2002C, 31, 16, 0x4⟩
def PWR_IRQ_STAT : Fld := ⟨0x20040, 31, 0, 0x4⟩
def PWR_IRQ_STAT_cap : Fld := ⟨0x20040, 0, 0, 0x4⟩
def PWR_IRQ_STAT_emerg_clk : Fld := ⟨0x20040, 1, 1, 0x4⟩
def PWR_IRQ_STAT_clamp : Fld := ⟨0x20040, 2, 2, 0x4⟩
def PWR_IRQ_STAT_nv_block : Fld := ⟨0x20040, 3, 3, 0x4⟩
def PWR_IRQ_STAT_sleep_refused : Fld := ⟨0x20040, 4, 4, 0x4⟩
def PWR_IRQ_EN : Fld := ⟨0x20044, 31, 0, 0x4⟩
def PWR_IRQ_EN_enable : Fld := ⟨0x20044, 4, 0, 0x4⟩
def PWR_LOCK : Fld := ⟨0x20048, 31, 0, 0x4⟩
def PWR_LOCK_lock : Fld := ⟨0x20048, 0, 0, 0x4⟩

/-! CLK -/
def CLK_ID : Fld := ⟨0x18000, 31, 0, 0x4⟩
def CLK_STAT : Fld := ⟨0x18004, 31, 0, 0x4⟩
def CLK_STAT_locked : Fld := ⟨0x18004, 4, 0, 0x4⟩
def CLK_STAT_xtal_ok : Fld := ⟨0x18004, 5, 5, 0x4⟩
def CLK_STAT_holdover : Fld := ⟨0x18004, 6, 6, 0x4⟩
def CLK_STAT_arr_emerg : Fld := ⟨0x18004, 7, 7, 0x4⟩
def CLK_STAT_running : Fld := ⟨0x18004, 13, 8, 0x4⟩
def CLK_MEAS_SEL : Fld := ⟨0x18008, 31, 0, 0x4⟩
def CLK_MEAS_SEL_domain : Fld := ⟨0x18008, 2, 0, 0x4⟩
def CLK_MEAS : Fld := ⟨0x1800C, 31, 0, 0x4⟩
def CLK_MEAS_freq : Fld := ⟨0x1800C, 15, 0, 0x4⟩
def CLK_HOLD : Fld := ⟨0x18010, 31, 0, 0x4⟩
def CLK_IRQ_STAT : Fld := ⟨0x18030, 31, 0, 0x4⟩
def CLK_IRQ_STAT_unlock : Fld := ⟨0x18030, 0, 0, 0x4⟩
def CLK_IRQ_STAT_xtal : Fld := ⟨0x18030, 1, 1, 0x4⟩
def CLK_IRQ_STAT_hold_end : Fld := ⟨0x18030, 2, 2, 0x4⟩
def CLK_IRQ_EN : Fld := ⟨0x18034, 31, 0, 0x4⟩
def CLK_IRQ_EN_enable : Fld := ⟨0x18034, 2, 0, 0x4⟩
def CLK_LOCK : Fld := ⟨0x18038, 31, 0, 0x4⟩
def CLK_LOCK_lock : Fld := ⟨0x18038, 0, 0, 0x4⟩

/-! RST -/
def RST_ID : Fld := ⟨0x1C000, 31, 0, 0x4⟩
def RST_REQ : Fld := ⟨0x1C004, 31, 0, 0x4⟩
def RST_REQ_domain : Fld := ⟨0x1C004, 5, 0, 0x4⟩
def RST_REQ_go : Fld := ⟨0x1C004, 8, 8, 0x4⟩
def RST_STAT : Fld := ⟨0x1C008, 31, 0, 0x4⟩
def RST_STAT_last : Fld := ⟨0x1C008, 5, 0, 0x4⟩
def RST_STAT_busy : Fld := ⟨0x1C008, 6, 6, 0x4⟩
def RST_STAT_crash_busy : Fld := ⟨0x1C008, 7, 7, 0x4⟩
def RST_STAT_oos : Fld := ⟨0x1C008, 8, 8, 0x4⟩
def RST_STAT_oos_flash : Fld := ⟨0x1C008, 9, 9, 0x4⟩
def RST_STAT_dev_resets : Fld := ⟨0x1C008, 17, 16, 0x4⟩
def RST_RECOV : Fld := ⟨0x1C00C, 31, 0, 0x4⟩
def RST_LOG : Fld := ⟨0x1C020, 31, 0, 0x4⟩
def RST_LOG_count : Fld := ⟨0x1C020, 6, 0, 0x4⟩
def RST_LOG_overflow : Fld := ⟨0x1C020, 7, 7, 0x4⟩
def RST_LOG_lost : Fld := ⟨0x1C020, 31, 16, 0x4⟩
def RST_LOG_SEQ : Fld := ⟨0x1C024, 31, 0, 0x4⟩
def RST_LOG_ACK : Fld := ⟨0x1C028, 31, 0, 0x4⟩
def RST_HANG : Fld := ⟨0x1C030, 31, 0, 0x4⟩
def RST_HANG_ticks : Fld := ⟨0x1C030, 15, 0, 0x4⟩
def RST_SETTLE : Fld := ⟨0x1C034, 31, 0, 0x4⟩
def RST_SETTLE_ticks : Fld := ⟨0x1C034, 15, 0, 0x4⟩
def RST_CRASH_OFF : Fld := ⟨0x1C038, 31, 0, 0x4⟩
def RST_CRASH_OFF_offset : Fld := ⟨0x1C038, 19, 0, 0x4⟩
def RST_GEN : Fld := ⟨0x1C040, 31, 0, 0x4⟩
def RST_REPLACE : Fld := ⟨0x1C080, 31, 0, 0x4⟩
def RST_REPLACE_causes : Fld := ⟨0x1C080, 8, 0, 0x4⟩
def RST_IRQ_STAT : Fld := ⟨0x1C090, 31, 0, 0x4⟩
def RST_IRQ_STAT_reset : Fld := ⟨0x1C090, 0, 0, 0x4⟩
def RST_IRQ_STAT_nested : Fld := ⟨0x1C090, 1, 1, 0x4⟩
def RST_IRQ_STAT_escalate : Fld := ⟨0x1C090, 2, 2, 0x4⟩
def RST_IRQ_STAT_overflow : Fld := ⟨0x1C090, 3, 3, 0x4⟩
def RST_IRQ_STAT_oos : Fld := ⟨0x1C090, 4, 4, 0x4⟩
def RST_IRQ_STAT_replace : Fld := ⟨0x1C090, 5, 5, 0x4⟩
def RST_IRQ_STAT_hang : Fld := ⟨0x1C090, 6, 6, 0x4⟩
def RST_IRQ_EN : Fld := ⟨0x1C094, 31, 0, 0x4⟩
def RST_IRQ_EN_enable : Fld := ⟨0x1C094, 6, 0, 0x4⟩
def RST_LOCK : Fld := ⟨0x1C098, 31, 0, 0x4⟩
def RST_LOCK_lock : Fld := ⟨0x1C098, 0, 0, 0x4⟩

/-! SEC -/
def SEC_ID : Fld := ⟨0x24000, 31, 0, 0x4⟩
def SEC_LC : Fld := ⟨0x24004, 31, 0, 0x4⟩
def SEC_LC_state : Fld := ⟨0x24004, 2, 0, 0x4⟩
def SEC_LC_debug_open : Fld := ⟨0x24004, 3, 3, 0x4⟩
def SEC_LC_refurbished : Fld := ⟨0x24004, 5, 4, 0x4⟩
def SEC_STAT : Fld := ⟨0x24008, 31, 0, 0x4⟩
def SEC_STAT_image : Fld := ⟨0x24008, 0, 0, 0x4⟩
def SEC_STAT_identity_ok : Fld := ⟨0x24008, 1, 1, 0x4⟩
def SEC_STAT_cert_ok : Fld := ⟨0x24008, 2, 2, 0x4⟩
def SEC_STAT_fallback : Fld := ⟨0x24008, 3, 3, 0x4⟩
def SEC_STAT_rb_pending : Fld := ⟨0x24008, 4, 4, 0x4⟩
def SEC_STAT_token_lockout : Fld := ⟨0x24008, 5, 5, 0x4⟩
def SEC_RB : Fld := ⟨0x2400C, 31, 0, 0x4⟩
def SEC_RB_counter : Fld := ⟨0x2400C, 7, 0, 0x4⟩
def SEC_RB_active_svn : Fld := ⟨0x2400C, 15, 8, 0x4⟩
def SEC_RB_inactive_svn : Fld := ⟨0x2400C, 23, 16, 0x4⟩
def SEC_RB_DELAY : Fld := ⟨0x24010, 31, 0, 0x4⟩
def SEC_TOKEN : Fld := ⟨0x24014, 31, 0, 0x4⟩
def SEC_TOKEN_refused : Fld := ⟨0x24014, 3, 0, 0x4⟩
def SEC_IRQ_STAT : Fld := ⟨0x24020, 31, 0, 0x4⟩
def SEC_IRQ_STAT_token_fail : Fld := ⟨0x24020, 0, 0, 0x4⟩
def SEC_IRQ_STAT_debug_open : Fld := ⟨0x24020, 1, 1, 0x4⟩
def SEC_IRQ_STAT_rb_advance : Fld := ⟨0x24020, 2, 2, 0x4⟩
def SEC_IRQ_STAT_lc_change : Fld := ⟨0x24020, 3, 3, 0x4⟩
def SEC_IRQ_STAT_fallback : Fld := ⟨0x24020, 4, 4, 0x4⟩
def SEC_IRQ_EN : Fld := ⟨0x24024, 31, 0, 0x4⟩
def SEC_IRQ_EN_enable : Fld := ⟨0x24024, 4, 0, 0x4⟩
def SEC_LOCK : Fld := ⟨0x24028, 31, 0, 0x4⟩
def SEC_LOCK_lock : Fld := ⟨0x24028, 0, 0, 0x4⟩

/-! MGT -/
def MGT_ID : Fld := ⟨0x90000, 31, 0, 0x4⟩
def MGT_STRAP : Fld := ⟨0x90004, 31, 0, 0x4⟩
def MGT_STRAP_slot : Fld := ⟨0x90004, 5, 0, 0x4⟩
def MGT_I3C : Fld := ⟨0x90008, 31, 0, 0x4⟩
def MGT_I3C_dyn_addr : Fld := ⟨0x90008, 6, 0, 0x4⟩
def MGT_I3C_assigned : Fld := ⟨0x90008, 7, 7, 0x4⟩
def MGT_I3C_ibi_en : Fld := ⟨0x90008, 8, 8, 0x4⟩
def MGT_ALERT : Fld := ⟨0x9000C, 31, 0, 0x4⟩
def MGT_ALERT_brake : Fld := ⟨0x9000C, 0, 0, 0x4⟩
def MGT_ALERT_replace : Fld := ⟨0x9000C, 1, 1, 0x4⟩
def MGT_ALERT_oos : Fld := ⟨0x9000C, 2, 2, 0x4⟩
def MGT_ALERT_trip : Fld := ⟨0x9000C, 3, 3, 0x4⟩
def MGT_ALERT_leak : Fld := ⟨0x9000C, 4, 4, 0x4⟩
def MGT_ALERT_start : Fld := ⟨0x9000C, 5, 5, 0x4⟩
def MGT_ALERT_nv : Fld := ⟨0x9000C, 6, 6, 0x4⟩
def MGT_ALERT_EN : Fld := ⟨0x90010, 31, 0, 0x4⟩
def MGT_ALERT_EN_enable : Fld := ⟨0x90010, 6, 0, 0x4⟩
def MGT_ATTN : Fld := ⟨0x90014, 31, 0, 0x4⟩
def MGT_SIG : Fld := ⟨0x90018, 31, 0, 0x4⟩
def MGT_SIG_brake_n : Fld := ⟨0x90018, 0, 0, 0x4⟩
def MGT_SIG_reset_n : Fld := ⟨0x90018, 1, 1, 0x4⟩
def MGT_SIG_leak : Fld := ⟨0x90018, 2, 2, 0x4⟩
def MGT_SIG_fw_running : Fld := ⟨0x90018, 3, 3, 0x4⟩
def MGT_SIG_cbl_prsnt : Fld := ⟨0x90018, 15, 4, 0x4⟩
def MGT_FL_CTL : Fld := ⟨0x90020, 31, 0, 0x4⟩
def MGT_FL_CTL_op : Fld := ⟨0x90020, 1, 0, 0x4⟩
def MGT_FL_CTL_flash : Fld := ⟨0x90020, 4, 4, 0x4⟩
def MGT_FL_CTL_busy : Fld := ⟨0x90020, 8, 8, 0x4⟩
def MGT_FL_CTL_err : Fld := ⟨0x90020, 11, 9, 0x4⟩
def MGT_FL_ADDR : Fld := ⟨0x90024, 31, 0, 0x4⟩
def MGT_FL_ADDR_addr : Fld := ⟨0x90024, 25, 0, 0x4⟩
def MGT_FL_BUF : Fld := ⟨0x90080, 31, 0, 0x4⟩

end Sys2Proof.Machine
end

