-- ==== Sys2Proof/Machine/State.lean ====
section
/-!
DEFINITION. The state of one Marez module: every register, queue, table, buffer, latch and pin level that the spec gives the
block, as plain data, one structure for each unit, and the queue of waiting commands. `State.reset` is the module at power-on
(R564 step 1). CRS registers whose value is nothing but a stored word live in `regs`, keyed by their plain CRS offset, with the
reset values of the register table (Machine/RegTable.lean) as the default; registers that show other state are views of it.
-/
namespace Sys2Proof.Machine
open Sys2Proof

/-! ### Outputs -/

/-- A packet or signal that leaves the block. `status`, `data` and `event` are ECP packets (R394, R397, R417, R423). -/
inductive Tx where
  /-- ECP status: interface, peer, opcode, sequence, berth, authenticated, status, retry_after, final, detail, result data. -/
  | status (iface peer opcode : Nat) (seq : W32) (berth : Nat) (auth : Bool) (status retry : Nat) (final : Bool)
      (detail : Nat) (data : List Byte)
  /-- ECP data packet of a READ: berth, sequence, offset, bytes. -/
  | data (iface peer : Nat) (seq : W32) (berth : Nat) (offset : Nat) (bytes : List Byte)
  /-- ECP event packet: berth, event sequence and the 96-byte payload. -/
  | event (iface peer berth : Nat) (seq : W32) (payload : List Byte)
  /-- A flit handed to a Cliff port's transmitter. -/
  | flit (port : Nat) (f : Flit)
  /-- A Longshore packet handed to the Cliff fabric for a destination device. -/
  | lsh (dst : Nat) (p : LshPkt)
  /-- A walk message (R257): 0 assign and 2 conflict on a port, 1 report by its route (port 12), with its fields. -/
  | walk (port kind : Nat) (fields : List Nat)
  /-- An Offshore packet sent on a route to a peer site: type, resend flag and packet. -/
  | ofs (berth peer type : Nat) (retx : Bool) (p : OfsPkt) (dest : BitVec 128) (port : Nat) (bytes : List Byte)
  /-- An Ethernet answer made in hardware: 0 neighbour advertisement, 1 echo reply, 2 neighbour solicitation, 3 PTP. -/
  | eth (iface kind : Nat) (dst : BitVec 128) (body : List Byte)
  /-- Words returned by a register read, with the requester and first offset. -/
  | words (req : Nat) (offset : Nat) (ws : List W32)
  /-- Sideband answer: an I3C CCC code or in-band interrupt with its bytes. -/
  | i3c (code : Nat) (bytes : List Byte)
  /-- JTAG answer: instruction code and the data register shifted out. -/
  | jtag (code : Nat) (value : Nat)
  /-- A working-copy fetch served to a requester: shard, step_lo and the element bits (R168). -/
  | fetch (shard requester : Nat) (stepLo : W32) (wide : Bool) (elems : List W32)
  deriving DecidableEq, Repr

/-! ### The Shelf, numbers, Sounding, Solver, Update Engine, Almanac -/

/-- An engine pass waiting in a berth's engine queue (R154, R175): opcode 0x20–0x2E; the factor slot, or the shard for 0x28–0x2E;
the block; for SND_COV the staging entry, or for kinds 2 and 3 the shard; its cost in cycles; the step. -/
structure EngPass where
  code  : Nat
  slot  : Nat
  block : Nat
  stage : Nat
  cost  : Nat
  step  : W64
  deriving DecidableEq, Repr

/-- The operation that holds the array (R52, R53). -/
structure RunOp where
  berth    : Nat
  engine   : Bool
  filler   : Bool
  desc     : List Byte
  pass     : EngPass
  /-- Job seed and step counter when it started (R91, R92). -/
  seed     : W64
  step     : W64
  /-- The mask bitmap as read at the start, and whether that read failed (R111). -/
  mask     : List Byte
  maskBad  : Bool
  /-- Cycles by cause that the counters have yet to take: issuing, fixed and turn-buffer cycles (R46, R47, R60, R105); and its
  whole cost in cycles. -/
  active   : Nat
  fixed    : Nat
  turn     : Nat
  cost     : Nat
  /-- The staging entry that a tap filled, if any (R132). -/
  tap      : Option Nat
  /-- Whether it is part of a recompute segment (R121, R122). -/
  segment  : Bool
  /-- For UPD_PRE_L and UPD_PRE_R: the factor slot's descriptor and live blocks as read when the pass started (R173). -/
  fdesc    : List Byte
  factor   : List (List (List W32))
  deriving DecidableEq, Repr

/-- A layer-finished trigger (R114). -/
structure Trigger where
  berth  : Nat
  layer  : Nat
  step   : W64
  handle : BitVec 48
  deriving DecidableEq, Repr

/-- The Shelf scheduler, its queues and event slots. -/
structure Shelf where
  /-- Berth stream queues, oldest first (R204). -/
  streams    : Four (List (List Byte))
  /-- Engine queues (R39, R55). -/
  engines    : Four (List EngPass)
  /-- Deficits in cycles (R53, R54). -/
  deficit    : Four Int
  /-- Berth served last (R53). -/
  lastServed : Nat
  /-- Whether the berth's last operation was an engine pass; absent before its first (R55). -/
  lastEngine : Four (Option Bool)
  /-- The running operation. -/
  running    : Option RunOp
  /-- A completion held for a full layer-finished queue (R116). -/
  heldDone   : Option RunOp
  /-- Remaining operations of a berth's open recompute segment, the stored step and seed, and the tensor's object (R121, R122). -/
  segment    : Four (List (List Byte))
  segStep    : Four W64
  segSeed    : Four W64
  segObject  : Four Nat
  /-- The stream head has been fetched and passed its checks, and waits to start (R41, R119). -/
  fetched    : Four Bool
  /-- Streams halted by R42, with the error code and the rejected descriptor. -/
  halted     : Four Bool
  error      : Four Nat
  rejected   : Four (Option (List Byte))
  /-- Stream halts whose cause is an undecided step (R294). -/
  undecided  : Four Bool
  /-- Operations completed, modulo 2^16. -/
  completed  : Four W16
  /-- Event-slot counters, 1,024 for each berth, key 1,024 · berth + slot (R44). -/
  slots      : NMap W16
  /-- Layer-finished queues (R116), layers that triggered in the step (R115) and triggers posted in the step (R190). -/
  triggers   : Four (List Trigger)
  triggered  : Four (List Nat)
  posted     : Four Nat
  /-- Length of the present FILL_CAP interval in cycles (SHF_IRQ_STAT.fill_stall). -/
  fillRun    : Nat
  /-- Cause counters by code and active cycles by berth (R60, R61): keys 0–14 and 16–19. -/
  causes     : NMap W64
  /-- Fault record: tile and cause word, op_seq, tick (R61). -/
  faultOp    : W32
  faultTick  : W64
  faulted    : Bool
  /-- An HBM4 stack failure has stopped the array (R230). -/
  stackStop  : Bool
  /-- Whether the last started operation was an engine pass and of a filler berth, its berth, op_seq, layer and opcode. -/
  lastInfo   : Nat × Bool × Bool × W32 × Nat × Nat
  deriving DecidableEq, Repr

/-- One census entry (R97): the layer tag and sixteen 32-bit counters (format-major, category-minor). -/
structure CensusEntry where
  tag    : Nat
  counts : List Nat
  deriving DecidableEq, Repr

/-- The census, the job seeds and the 64-bit totals of the berth cores (R91, R97–R99). -/
structure Numbers where
  seeds  : Four W64
  /-- Key 1,024 · berth + entry. -/
  census : NMap CensusEntry
  /-- Dirty queues of 64 entries (R98). -/
  dirty  : Four (List Nat)
  /-- 64-bit per-layer totals, key 65,536 · berth + layer (R99, R420). -/
  totals : NMap (List W64)
  deriving DecidableEq, Repr

/-- The refresh of a slot from its issue to its flip (R138–R142). -/
structure Refresh where
  step     : W64
  desc     : List Byte
  /-- Apply lag L as read at the issue (R162). -/
  lag      : Nat
  /-- Blocks still to solve, and whether the reduce of F is still running (R139). -/
  blocks   : List Nat
  reducing : Bool
  /-- The Solver input, block by block in row-major order, once it has been read. -/
  input    : Option (List W32)
  /-- Highest result code and largest iteration count so far, λ of the channel at the issue, and the final λ. -/
  code     : Nat
  iters    : Nat
  lam      : W32
  lamOut   : W32
  done     : Bool
  deriving DecidableEq, Repr

/-- A factor slot (R127). -/
structure FSlot where
  berth   : Nat
  desc    : Option (List Byte)
  /-- Merges so far, tokens sampled this step, blocks of G written this step (R133, R135). -/
  merges  : Nat
  tokens  : Nat
  gDone   : List Nat
  /-- Live result buffer, 0 or 1 (R141). -/
  live    : Nat
  refresh : Option Refresh
  /-- Last step for which a refresh was issued (R138). -/
  lastRef : Option W64
  deriving DecidableEq, Repr

/-- Staged tokens of one tap (R132): FP32 or BF16 rows of d values. -/
structure Stage where
  id    : Nat
  berth : Nat
  slot  : Nat
  step  : W64
  wide  : Bool
  rows  : List (List W32)
  left  : Nat
  deriving DecidableEq, Repr

/-- Sounding: the factor slots and the staging area. -/
structure Sounding where
  slots  : NMap FSlot
  stages : List Stage
  nextId : Nat
  deriving DecidableEq, Repr

/-- One block of a Solver problem (R146): result code once it has ended, its value when one was computed, iterations, λ. -/
structure BlockRes where
  block : Nat
  code  : Option Nat
  value : List W32
  iters : Nat
  lam   : W32
  deriving DecidableEq, Repr

/-- A Solver problem (R146, R152, R155): one block, a batch of blocks or an ORTH request of a shard. -/
structure Problem where
  berth   : Nat
  slot    : Nat
  layer   : Nat
  orth    : Bool
  shard   : Nat
  started : Bool
  attempt : Nat
  blocks  : List BlockRes
  /-- Passes of the attempt that have not been issued, each opcode and cost. -/
  passes  : List (Nat × Nat)
  deriving DecidableEq, Repr

/-- The Solver. -/
structure Solver where
  queues    : Four (List Problem)
  workspace : Four (BitVec 48)
  /-- Last finished block: slot, code, berth, iterations; last hold with λ and step (R161). -/
  last      : W32
  holdLast  : W32
  holdLam   : W32
  holdStep  : W64
  deriving DecidableEq, Repr

/-- A registered shard and its commit word (R164, R167). -/
structure Shard where
  berth    : Nat
  desc     : List Byte
  /-- A rewritten descriptor that applies from the next boundary (R195). -/
  next     : Option (List Byte)
  live     : Nat
  heldLast : Bool
  stepLo   : W32
  /-- Order in which its reduction completed in this step; 0 when none has (R170). -/
  reduced  : Nat
  /-- Its update was started in this step (R170). -/
  started  : Bool
  deriving DecidableEq, Repr

/-- An update in progress (R170–R176). -/
structure Update where
  shard   : Nat
  berth   : Nat
  step    : W64
  passes  : List EngPass
  reruns  : Nat
  /-- Every value read so far was finite (R176). -/
  finite  : Bool
  /-- Its ORTH request is with the Solver (R173). -/
  orthing : Bool
  deriving DecidableEq, Repr

/-- A fetch of a working copy held for a boundary (R169). -/
structure Fetch where
  shard : Nat
  step  : W64
  req   : Nat
  deriving DecidableEq, Repr

/-- An update program in a slot (R177–R181). -/
structure Prog where
  berth : Nat
  words : List W32
  deriving DecidableEq, Repr

/-- An Almanac channel (R186–R188): descriptor, value and the step of its evaluation. -/
structure Chan where
  desc  : List Byte
  value : Option W32
  /-- The value is an integer: what the descriptor asked for when it was evaluated (R189). -/
  isInt : Bool
  step  : W64
  deriving DecidableEq, Repr

/-- The Update Engine and the Almanac. -/
structure Updater where
  shards    : NMap Shard
  updates   : List Update
  fetches   : List Fetch
  progs     : NMap Prog
  workspace : Four (BitVec 48)
  steps     : Four W64
  commits   : Four W64
  skips     : Four Nat
  skipTotal : Four W64
  /-- Paused by R194. -/
  paused    : Four Bool
  /-- Rank that the next completed reduction takes (R170). -/
  nextRank  : Nat
  holdShard : W32
  holdLayer : W32
  holdStep  : W64
  /-- Almanac channels, key 64 · berth + channel. -/
  chans     : NMap Chan
  evalStep  : Four W32
  deriving DecidableEq, Repr

/-! ### Memory -/

/-- Where a page stands (R212): a tier, with the DDR5 channel for T3. -/
structure PageLoc where
  tier    : Nat
  channel : Nat
  deriving DecidableEq, Repr

/-- An object of the object table (R204, R206). `moved` lists the pages that stand elsewhere than in `tier`. -/
structure Obj where
  size    : Nat
  pages   : Nat
  tier    : Nat
  policy  : Nat
  moved   : NMap PageLoc
  dropped : Bool
  coded   : Bool
  /-- Its free has been accepted (R210). -/
  freeing : Bool
  lastUse : Nat
  /-- Its recompute segment, with the step and seed in which the tensor was first computed (R120, R122). -/
  segment : List (List Byte)
  segStep : W64
  segSeed : W64
  deriving DecidableEq, Repr

/-- A page move in flight (R214, R216): kind 0 promotion, 1 demotion, 2 re-home. -/
structure Move where
  berth   : Nat
  object  : Nat
  page    : Nat
  kind    : Nat
  channel : Nat
  deriving DecidableEq, Repr

/-- A page that waits to be made resident: level 1 demand, 2 shard state, 3 prefetch (R214). -/
structure Want where
  berth  : Nat
  object : Nat
  page   : Nat
  level  : Nat
  /-- A pending version slot or handle_g is re-homed without reading T3 (R216). -/
  rehome : Bool
  deriving DecidableEq, Repr

/-- An allocation that waits for room (R208, R215); `policy` is 256 times the tier plus the policy. -/
structure PendAlloc where
  berth  : Nat
  seq    : W32
  size   : Nat
  policy : Nat
  deriving DecidableEq, Repr

/-- A reduced page held in the Harbour partition or spilled to T2 (R219). -/
structure HeldPage where
  berth   : Nat
  object  : Nat
  page    : Nat
  spilled : Bool
  bytes   : List (Nat × Byte)
  deriving DecidableEq, Repr

/-- Objects, pages, the Pager and the stored bytes. -/
structure Memory where
  /-- Key berth · 2^30 + object number. -/
  objects  : NMap Obj
  /-- Next object number of each berth (R207). -/
  nextObj  : Four Nat
  /-- Every stored byte; address (berth · 2^30 + object) · 2^43 + offset. -/
  bytes    : List Host.Cell
  /-- First byte addresses of the codewords whose read is uncorrectable: 8 bytes in T1, 64 in T2 and T3 (R224, R226). -/
  bad      : List Nat
  /-- Freed pages not yet zeroed: tier, channel, count (R209). -/
  zeroing  : List (Nat × Nat × Nat)
  moves    : List Move
  wants    : List Want
  allocs   : List PendAlloc
  /-- Descriptors at the head of each stream that the lookahead window has taken in (R213). -/
  entered  : Four Nat
  held     : List HeldPage
  balance  : Four Bool
  /-- Next channel of the rotation (R217), last berth served at each level (R214). -/
  rotate   : Nat
  lastRr   : Nat
  /-- Use stamp (R215). -/
  clock    : Nat
  /-- Start of the present window of 2^20 ticks (R229). -/
  window   : W64
  /-- T3 pages, by page address, whose promotion was abandoned for an uncorrectable error (R225). -/
  unread   : List Nat
  /-- Last uncorrectable error (R233, R237, R239): tick for Harbour, address and tick for T2 and T3. -/
  ueT1     : W64
  ueT2     : W64 × W64
  ueT3     : W64 × W64
  deriving DecidableEq, Repr

/-! ### Cliff and Longshore -/

/-- A flit on its way through an output port: the input port that it came in on (12 for the local endpoint), the receive buffer of that
port which it still occupies, and the flit with its rewritten header (R252–R254). -/
structure OutFlit where
  input : Nat
  buf   : Option Nat
  flit  : Flit
  deriving DecidableEq, Repr

/-- The route of a packet that is coming in on a virtual channel (R247, R254, R259): its output port, none for this module or a dropped
packet; the class and detour mark that it leaves with; its flits so far. -/
structure InRoute where
  out    : Option Nat
  cls    : Nat
  detour : Bool
  flits  : Nat
  deriving DecidableEq, Repr

/-- One Cliff port (R248–R253, R267). -/
structure Port where
  /-- Tick at which the present state and the whole attempt began. -/
  since    : W64
  attempt  : W64
  seated   : Bool
  supply   : Bool
  serial   : Nat
  /-- Sequenced flits not yet acknowledged, oldest first. -/
  replay   : List OutFlit
  txSeq    : Nat
  rxNext   : Nat
  /-- The receiver discards until the resend (R250). -/
  nakking  : Bool
  resends  : Nat
  /-- Per buffer 0–9: flits sent, the peer's freed total, and the flits freed here (R246, R252). -/
  sent     : NMap Nat
  credit   : NMap Nat
  freed    : NMap Nat
  /-- Flits waiting for credit or arbitration, oldest first, and collective flits sent since the last point flit (R253). -/
  waiting  : List OutFlit
  wrr      : Nat
  /-- By virtual channel: the input served last, and whether its packet is still being sent (R247, R253). -/
  turn     : NMap (Nat × Bool)
  /-- Packets being received, by virtual channel. -/
  partials : NMap InRoute
  /-- Flits already acknowledged whose packet is not yet acknowledged whole (R267). -/
  acked    : List OutFlit
  /-- The present training is a retrain that keeps the replay buffer (R251); the port has a part in REPLACE_REQUEST (R267). -/
  retrain  : Bool
  part     : Bool
  /-- Corrected symbols in the window (R269). -/
  symbols  : Nat
  window   : W64
  deriving DecidableEq, Repr

/-- A coordinate walk that this module anchors (R258). -/
structure Walk where
  berth : Nat
  seq   : W32
  start : W64
  /-- A restart of L7 lost it, so that it ends by its timeout (R276). -/
  lost  : Bool
  deriving DecidableEq, Repr

/-- The Cliff block: ports 0–11 and the walk. -/
structure Cliff where
  ports     : NMap Port
  walk      : Option Walk
  /-- Tick of the last tick flit on the upstream port (R266). -/
  lastTick  : W64
  /-- Residual edge correction still to apply, 10 ps units (R266). -/
  slew      : Int
  /-- Index in its pair of the port that the last collective packet of a direction took (R260). -/
  alternate : NMap Nat
  /-- Tick at which the coordinates were last assigned (R270). -/
  walkAt    : W64
  deriving DecidableEq, Repr

/-- A Longshore group entry (R277) with its member list as read. -/
structure Group where
  entry   : List Byte
  members : List Nat
  /-- Collective number within the step (R286). -/
  cseq    : Nat
  /-- Close neighbours and close diameter (R279). -/
  close   : List Nat
  diam    : Nat
  deriving DecidableEq, Repr

/-- A collective in progress (R284–R289). -/
structure Coll where
  desc    : List Byte
  op      : Nat
  cseq    : Nat
  epoch   : Nat
  step    : W32
  try_    : Nat
  /-- Its source, and the rank whose contribution that holds (R300). -/
  src     : BitVec 48
  srcRank : Nat
  /-- Nodes held, key (level · 2^18 + node) · 2^32 + chunk: FP32 words of a reduction; parts of a movement once written. -/
  nodes   : NMap (List W32)
  /-- Keys of the nodes that are invalid under R225. -/
  invs    : List Nat
  /-- Chunks of the result that have been written. -/
  written : List Nat
  /-- Packets still to send; packets unacknowledged by destination; packets accepted and not yet acknowledged by source. -/
  toSend  : List (Nat × LshPkt)
  unacked : NMap Nat
  granted : NMap Nat
  accepted : Nat
  /-- Tick of the last progress once all was sent (R302). -/
  since   : W64
  done    : Bool
  fault   : Bool
  deriving DecidableEq, Repr

/-- A Longshore channel (R284, R414). -/
structure LChan where
  queue  : List (List Byte)
  active : List Coll
  /-- Collectives of the step that have completed: their sources and nodes answer late REQ packets (R286, R300). -/
  past   : List Coll
  pos    : W32
  halted : Bool
  deriving DecidableEq, Repr

/-- An entry of a permute map (R298). -/
structure MapEnt where
  src   : BitVec 48
  first : Nat
  pages : Nat
  rank  : Nat
  dst   : BitVec 48
  deriving DecidableEq, Repr

/-- PERMUTE of a berth (R299): phase 0 none, 1 fence, 2 move, 3 install. -/
structure Permute where
  phase    : Nat
  desc     : List Byte
  /-- The map as read at the start, and the handles that this module reads and writes for it. -/
  entries  : List MapEnt
  handles  : List (BitVec 48)
  /-- Data packets sent and accepted under the old epoch, and those of the move. -/
  sent     : W64
  accepted : W64
  moveSent : W64
  moveAcc  : W64
  /-- Sums of COUNT rounds by phase, round, tree level and node; the round begun last, and whether its total is still out. -/
  got      : NMap (W64 × W64)
  round    : Nat
  waiting  : Bool
  /-- Move packets still to send, unacknowledged ones by destination, accepted ones to acknowledge by source, and those accepted, by
  source rank and chunk (R286, R287). -/
  toSend   : List (Nat × LshPkt)
  unacked  : NMap Nat
  granted  : NMap Nat
  seen     : List (Nat × Nat)
  deriving DecidableEq, Repr

/-- Close wave of a berth (R291–R295). -/
structure Close where
  flag     : Bool
  decided  : Bool
  skip     : Bool
  running  : Bool
  round    : Nat
  start    : W64
  /-- FLAG packets received: round, device, flag. -/
  got      : List (Nat × Nat × Bool)
  deriving DecidableEq, Repr

/-- Longshore. -/
structure Longshore where
  /-- Live and staged groups, key 65,536 · berth + group. -/
  live      : NMap Group
  staged    : NMap Group
  /-- Channels, key 16 · berth + channel. -/
  chans     : NMap LChan
  /-- Data packets of collectives that have not started here, oldest first. -/
  early     : List LshPkt
  /-- Packets that wait while LSH_CTL.run is clear, by destination (R305). -/
  outbox    : List (Nat × LshPkt)
  /-- Devices of which a packet of the step has failed its dcrc, so that its data is asked for again (R286). -/
  suspects  : Four (List Nat)
  /-- A reset abandoned a reduction of the step, so that it cannot complete (R190, R307). -/
  lost      : Four Bool
  /-- Templates in posting order (R283) and template copies that wait for a full channel (R304). -/
  templates : Four (List (List Byte))
  copies    : Four (List (List Byte))
  close     : Four Close
  permute   : Four Permute
  failRank  : W32
  failTick  : W64
  deriving DecidableEq, Repr

/-! ### Shingle, Seawall, Offshore -/

/-- A Shingle table slot (R319): state 0 FREE, 1 BUILDING, 2 LIVE, 3 RETIRING; user as SHG_SLOT_STAT. -/
structure TSlot where
  state    : Nat
  version  : Nat
  user     : Nat
  inflight : Nat
  table    : List Nat
  deriving DecidableEq, Repr

/-- A Shingle request in progress or waiting for a slot (R320, R323): code command or decode command. -/
structure ShgReq where
  berth   : Nat
  seq     : W32
  decode  : Bool
  src     : BitVec 48
  dst     : BitVec 48
  fmt     : Nat
  slot    : Option Nat
  /-- An OFS_STREAM that waits for a table slot (R320, R349): its stream index and shard. -/
  stream  : Option (Nat × Nat)
  deriving DecidableEq, Repr

/-- Shingle. -/
structure Shingle where
  slots    : NMap TSlot
  reqs     : List ShgReq
  errBlock : W32
  errTick  : W64
  deriving DecidableEq, Repr

/-- A Seawall key slot (R331). -/
structure KeySlot where
  state   : Nat
  key     : W256
  salt    : W32
  owner   : Nat
  dir     : Nat
  epoch   : Nat
  counter : W64
  erased  : Bool
  deriving DecidableEq, Repr

/-- A queued Seawall request with the IV that it was given (R330, R334). -/
structure SwlReq where
  p  : SwlParams
  iv : BitVec 96
  deriving DecidableEq, Repr

/-- A finished Seawall request: buffer, status code (0 OK), IV, and the output and tag that are released with status OK (R336). -/
structure SwlDone where
  buffer : Nat
  code   : Nat
  iv     : BitVec 96
  out    : List Byte
  tag    : BitVec 128
  deriving DecidableEq, Repr

/-- Seawall. -/
structure Seawall where
  slots     : NMap KeySlot
  stageKey  : W256
  stageSalt : W32
  queue     : List SwlReq
  done      : List SwlDone
  /-- Bytes of the Harbour transit buffers that requests name (R336). -/
  transit   : NMap (List Byte)
  /-- A load waiting for pending requests on its slot (R339): slot, owner, direction, epoch. -/
  loadWait  : Option (Nat × Nat × Nat × Nat)
  /-- DRBG state is seeded (R337) and the tick at which the entropy source failed. -/
  seeded    : Bool
  failTick  : Option W64
  alarmTick : W64
  alarmLast : W32
  deriving DecidableEq, Repr

/-- A packet kept in a peer's retransmit store (R372). -/
structure OfsSent where
  pkt   : OfsPkt
  /-- The stored ciphertext, which a resend uses again (R330). -/
  ct    : List Byte
  type  : Nat
  route : Nat
  atUs  : Nat
  missed : Nat
  resent : Bool
  deriving DecidableEq, Repr

/-- Round-trip estimate of one route (R370), µs; `seen` marks a first sample. -/
structure Rtt where
  seen   : Bool
  srtt   : Nat
  rttvar : Nat
  rto    : Nat
  deriving DecidableEq, Repr

/-- A key handshake with a peer (R376, R377). -/
structure Handshake where
  epoch   : Nat
  reset   : Bool
  initiator : Bool
  /-- The random draw of the initiator's ML-KEM key pair, and the KEY_INIT payload. -/
  draw    : Nat
  payload : List Byte
  startUs : Nat
  lastUs  : Nat
  failedAt : Option W64
  deriving DecidableEq, Repr

/-- One mirror of a session. -/
structure OfsPeer where
  param    : OfsPeerParam
  /-- 0 none, 1 up, 2 LOST, 3 joining. -/
  state    : Nat
  route    : Nat
  /-- Last authenticated packet on E0 and E1 in µs, and on either in ticks; the peer's rx_ok; consecutive good E0 intervals. -/
  lastE0   : Option Nat
  lastE1   : Option Nat
  lastAny  : W64
  rxOk     : Nat
  goodE0   : Nat
  /-- Last probe number sent, the times of the last ones, and the last numbers received on each route with their times. -/
  probeTx  : Nat
  probeSent : List (Nat × Nat)
  probeRx0 : Nat
  probeRx1 : Nat
  probeAt0 : Nat
  probeAt1 : Nat
  rtt0     : Rtt
  rtt1     : Rtt
  rto      : Nat
  /-- Pacing rate in Mbit/s, last step, token bucket in bits and its last fill in µs (R371). -/
  rate     : Nat
  rateUs   : Nat
  tokens   : Nat
  tokenUs  : Nat
  txq      : List (Nat × OfsPkt)
  sent     : List OfsSent
  nextPseq : Nat
  /-- Received pseq ranges, ascending and inclusive; highest received and its time; packets since the last SACK and the time of the
  first of them; the highest round that the peer has settled. -/
  gotPseq  : List (Nat × Nat)
  high     : Nat
  highUs   : Nat
  unsacked : Nat
  unsackUs : Option Nat
  settled  : Option Nat
  /-- Current and old key slots with their epochs, handshake, rekey wanted, peer heard under the new epoch. -/
  key      : Option (Nat × Nat)
  oldKey   : Option (Nat × Nat)
  hs       : Option Handshake
  rekeyDue : Bool
  heardNew : Bool
  /-- The last KEY_INIT payload answered and the KEY_RESP payload that answered it (R377). -/
  lastInit : List Byte
  lastResp : List Byte
  deriving DecidableEq, Repr

/-- An Offshore stream (R349): its shard and the handles of its coded objects. -/
structure OfsStream where
  shard    : Nat
  anchor   : BitVec 48
  outer    : BitVec 48
  resid    : BitVec 48
  newResid : BitVec 48
  /-- The own contribution's decoded values of the round in CLOSE, or absent when withheld. -/
  own      : Option (List W32)
  /-- CLOSE and APPLY of the present round are over for the stream. -/
  closed   : Bool
  applied  : Bool
  /-- CRC-32C of the decoded anchor used in CLOSE (R359), and the round in which the stream was registered. -/
  crc      : W32
  /-- The anchor could be decoded in CLOSE. -/
  crcOk    : Bool
  since    : Nat
  deriving DecidableEq, Repr

/-- An incoming contribution (R367): site, round, stream, declared length, bytes held, completion, withheld, applied. -/
structure OfsRecv where
  site     : Nat
  round    : Nat
  stream   : Nat
  part     : Nat
  objLen   : Nat
  bytes    : NMap Byte
  complete : Bool
  withheld : Bool
  applied  : Bool
  /-- Its header names another element count than the stream has (R349): its packets are discarded. -/
  wrong    : Bool
  crc      : W32
  deriving DecidableEq, Repr

/-- A coded contribution on its way to the peers: round, stream, table slot and the byte range of each block (R320). -/
structure OfsSend where
  round  : Nat
  stream : Nat
  slot   : Nat
  blocks : List (Nat × Nat)
  deriving DecidableEq, Repr

/-- An Offshore session (R346). -/
structure Session where
  p        : OfsParams
  /-- 1 local, 2 CLOSE, 3 WAIT, 4 APPLY, 5 joining. -/
  phase    : Nat
  round    : Nat
  waitFrom : W64
  settled  : Option Nat
  lastRekey : Nat
  /-- Membership changes: site, add, round, donor. -/
  changes  : List (Nat × Bool × Nat × Bool)
  streams  : NMap OfsStream
  peers    : NMap OfsPeer
  recv     : List OfsRecv
  sending  : List OfsSend
  /-- Pages of the stores: T2, and T3 by channel (R347). -/
  storeT2  : Nat
  storeT3  : NMap Nat
  /-- OFS_OPEN of a joiner answered later: berth and sequence. -/
  joinSeq  : Option W32
  installed : List (Nat × Nat)
  /-- Contributions that were missing when their round was settled (R354): round, site, stream, whether one has arrived since. -/
  lost     : List (Nat × Nat × Nat × Bool)
  deriving DecidableEq, Repr

/-- Offshore. -/
structure Offshore where
  sessions  : Four (Option Session)
  lastRound : W32
  lastTick  : W64
  /-- Key slots of the Offshore range in use (R332), and the peer that is rekeying (R378). -/
  rekeying  : Option (Nat × Nat)
  deriving DecidableEq, Repr

/-! ### Host ports, Quay, CRS access, interrupts -/

/-- An answer kept for retransmission (R410, R411). -/
structure Cached where
  seq    : W32
  opcode : Nat
  status : Nat
  retry  : Nat
  detail : Nat
  data   : List Byte
  deriving DecidableEq, Repr

/-- A queued event (R423, R425). -/
structure Ev where
  seq     : W32
  payload : List Byte
  deriving DecidableEq, Repr

/-- A submission held for a gap (R414): channel absent for SUBMIT. -/
structure HeldSub where
  seq     : W32
  iface   : Nat
  peer    : Nat
  channel : Option Nat
  index   : W32
  descs   : List (List Byte)
  tick    : W64
  deriving DecidableEq, Repr

/-- One berth's session (R400–R412, R425). -/
structure Berth where
  /-- 0 CLOSED, 1 OPEN, 2 DETACHED (R401). -/
  state    : Nat
  /-- Closing: the running operation of R58 has yet to complete. -/
  closing  : Bool
  admitted : Option W256
  admin    : Bool
  keyEpoch : Nat
  keySlot  : Nat
  hostSalt : W32
  /-- During REKEY: the next epoch, its key slot and host salt (R407). -/
  nextKey  : Option (Nat × Nat × W32)
  /-- Sequence window: highest accepted and sequences seen within 1,024 (R410). -/
  high     : Option W32
  seen     : List W32
  cache    : List Cached
  inflight : List (W32 × Nat)
  hello    : Option (List Byte × Cached)
  rekeyAns : Option (W32 × Cached)
  /-- An authenticated command has arrived since HELLO (R411). -/
  authed   : Bool
  held     : List HeldSub
  /-- Next expected stream position (R414). -/
  pos      : W32
  evSeq    : W32
  events   : List Ev
  evLost   : Nat
  evTick   : W64
  iface    : Nat
  peer     : Nat
  lastCmd  : W64
  /-- Whether REKEY_NEEDED has been sent for this key (R407). -/
  rekeyAsked : Bool
  deriving DecidableEq, Repr

/-- Quay and the host ports. -/
structure Quay where
  berths    : Four Berth
  stageHash : W256
  /-- Packets discarded and counted without a berth (R393, R409 steps 1 and 3). -/
  invalid   : W64
  /-- Unauthenticated statuses sent in the present tick by interface (R409). -/
  unauth    : NMap Nat
  deriving DecidableEq, Repr

/-- Ethernet: addresses, neighbours, link-down ticks, PTP. -/
structure Ether where
  /-- Loaded addresses, key 4 · interface + index (R389). -/
  addrs     : NMap (BitVec 128)
  /-- Neighbour cache: interface, address, MAC (R390). -/
  neigh     : List (Nat × BitVec 128 × BitVec 48)
  downSince : NMap W64
  /-- How often PTP has moved to the other port, modulo 2; ports in succession that lost their master; a first lock has happened. -/
  ptpPort   : Nat
  ptpMissed : Nat
  ptpLocked : Bool
  /-- PTP time at the last tick edge, and the PTP-derived count minus the own one (R483, R500). -/
  ptpNs     : W64
  ptpDiff   : W64
  /-- Whether any berth was ever opened since power-on (R483). -/
  opened    : Bool
  deriving DecidableEq, Repr

/-- One mailbox bank (R441–R444, R463). -/
structure Bank where
  sel     : W16
  valid   : Bool
  busy    : Bool
  err     : Bool
  ignored : Bool
  cleared : Bool
  discard : Bool
  /-- The snapshot, and the one on its way. -/
  data    : W32 × W32 × W32 × W32
  coming  : W32 × W32 × W32 × W32
  comErr  : Bool
  comClr  : Bool
  deriving DecidableEq, Repr

/-- The interrupt controller (R447–R457). -/
structure Icu where
  pending : BitVec 256
  active  : BitVec 256
  storm   : BitVec 256
  /-- Present inputs of level sources. -/
  input   : BitVec 256
  counts  : NMap W16
  /-- Rises of each level source's pending bit in the present tick (R455). -/
  rises   : NMap Nat
  /-- Claims held, key core: normal and fast (R451). -/
  normal  : NMap Nat
  fast    : NMap Nat
  /-- The last Beacon wake: BCN_CAUSE and the tick after it (R446). -/
  wakeCause : W32
  wakeTick  : W64
  deriving DecidableEq, Repr

/-! ### Lighthouse, power, resets, security, module edge -/

/-- One Lighthouse core's tick work (R470–R475). -/
structure Core where
  /-- Tick work begun and not yet ended, and an edge has passed meanwhile (R471). -/
  busy     : Bool
  late     : Bool
  lastDone : W64
  overruns : Nat
  clean    : Nat
  telem    : Nat
  overran  : Bool
  used     : Nat
  peak     : Nat
  expired  : Option W64
  /-- Tick at which its restart began, or of a restart that waits (L0, R475). -/
  restart  : Option W64
  waiting  : Bool
  deriving DecidableEq, Repr

/-- A firmware activation in progress (R477). -/
structure Activation where
  berth    : Nat
  seq      : W32
  image    : Nat
  old      : Nat
  deferred : Option W64
  /-- Cores still to restart, first the one restarting. -/
  left     : List Nat
  deriving DecidableEq, Repr

/-- Lighthouse: the cores, the tick and activation. -/
structure Lighthouse where
  cores   : NMap Core
  tick    : W64
  act     : Option Activation
  /-- Requests that L0 has taken in the present tick (R469). -/
  pwrReqs : Nat
  deriving DecidableEq, Repr

/-- Power, thermal and supply conditions (R484–R497). -/
structure Power where
  brake     : Bool
  overcur   : Bool
  sag32     : Bool
  sag30     : Bool
  sag27     : Bool
  overvolt  : Bool
  warn      : Bool
  boardHot  : Bool
  tripped   : Bool
  emergClk  : Bool
  /-- Ticks for which a clamp cause has been absent, THERM_WARN asserted, sensors cool, input at or above 32.0 V,
  sensors below their warning limits, and clear ticks in succession. -/
  clampGone : Nat
  warnFor   : Nat
  coolFor   : Nat
  vinOk     : Nat
  coldFor   : Nat
  clear     : Nat
  clamp     : Bool
  /-- An emergency held at some time in the present tick (R484). -/
  emergTick : Bool
  nvBlocked : Bool
  stopAt    : Option W64
  resetHeld : Bool
  reminder  : W64
  asleep    : Bool
  /-- Input energy since power-on in units of 10 µJ (R502). -/
  energy    : W64
  lastEmerg : W32
  lastWatts : W32
  lastTick  : W64
  deriving DecidableEq, Repr

/-- A domain reset in progress (R514): phase 1 record, 2 quiesce, 3 crash record, 4 reset, 5 restart, 6 recovery window. -/
structure DomReset where
  phase   : Nat
  since   : W64
  byCmd   : Bool
  crash   : Bool
  deriving DecidableEq, Repr

/-- An error-log entry (R524). -/
structure LogEntry where
  seq    : W32
  tick   : W64
  domain : Nat
  cls    : Nat
  gen    : Nat
  inRec  : Bool
  source : Nat
  detail : W64
  berth  : Nat
  deriving DecidableEq, Repr

/-- A crash record (R521): its header, generations, metadata and log; tile samples are free values by index. -/
structure Crash where
  domain  : Nat
  cls     : Nat
  epoch   : W16
  tick    : W64
  logSeq  : W32
  offset  : W32
  gens    : List Nat
  meta_   : List Byte
  log     : List LogEntry
  sample  : Nat
  deriving DecidableEq, Repr

/-- Reset domains, escalation, error log, crash records (R510–R530). -/
structure Resets where
  gens      : NMap Nat
  domains   : NMap DomReset
  /-- DOMAIN_RESET commands to answer when ready: domain, berth, sequence; a delayed DEVICE reset and its tick. -/
  answers   : List (Nat × Nat × W32)
  delayed   : Option (W64 × Nat)
  /-- Counted resets: domain and tick (R527); counts by domain since power-on. -/
  history   : List (Nat × W64)
  total     : NMap W64
  last      : Nat
  log       : List LogEntry
  logSeq    : W32
  overflow  : Bool
  lost      : Nat
  lostTotal : W64
  /-- The log in Lighthouse shared data, 4,096 entries (R523). -/
  shared    : List LogEntry
  crashes   : List Crash
  crashing  : List Nat
  latch     : Bool
  flashOos  : Bool
  flashWait : Bool
  oosCause  : Nat
  oosDomain : Nat
  oosTick   : W64
  /-- The module answers DEV_INFO and HELLO (R564 step 8); cores run firmware; stage of R564 reached, 0–8. -/
  serving   : Bool
  running   : Bool
  stage     : Nat
  /-- MOD_RESET_N holds a DEVICE reset (R569); a failed start-up step holds one (R564). -/
  pinHeld   : Bool
  devHeld   : Bool
  /-- The third counted DEVICE reset within 60,000,000 ticks: the module comes up out of service (R527). -/
  devOos    : Bool
  /-- Tick at which the crystal fault began, while it holds (R509). -/
  holdTick  : Option W64
  /-- Tick at which a domain was last ready, and those at which the step of R564 in hand and the count for step 8 began. -/
  upAt      : NMap W64
  stageAt   : W64
  railsAt   : W64
  deriving DecidableEq, Repr

/-- Identity, life cycle, images, measurements (R539–R560). -/
structure Security where
  life      : Nat
  refurb    : Nat
  debug     : Bool
  image     : Nat
  selector  : Nat
  rbBits    : Nat
  /-- Ticks for which the active image has run (R544). -/
  ranFor    : Nat
  idOk      : Bool
  certOk    : Bool
  fallback  : Bool
  slots     : NMap W256
  challenge : BitVec 128
  refused   : Nat
  erased    : Bool
  /-- LIFECYCLE transition to RETURN or DECOMMISSIONED that waits for its erasure: target and tick (R554). -/
  leaving   : Option (Nat × W64)
  /-- The key store of flash 0 and of flash 1 passes its tag (R540). -/
  keyStore  : Bool × Bool
  /-- Header of the running image, bytes 0–255, and svn of the other image as the last boot or activation found it. -/
  header    : List Byte
  otherSvn  : Nat
  epoch     : W16
  epochNv   : W16
  epochWait : Bool
  deriving DecidableEq, Repr

/-- A sideband flash operation in progress (R578). -/
structure FlashOp where
  op    : Nat
  flash : Nat
  addr  : Nat
  deriving DecidableEq, Repr

/-- The module edge: sideband, flash and JTAG (R569–R586). -/
structure Edge where
  pointer : W32
  op      : Option FlashOp
  /-- Flash bytes that differ from the erased value 0xFF, key flash · 2^26 + address. -/
  flash   : NMap Byte
  leak    : Bool
  straps  : BitVec 6
  rstact  : Byte
  jtagIr  : Nat
  bscan   : Nat
  deriving DecidableEq, Repr

/-! ### The whole -/

/-- Why a step can stop. -/
inductive Fault where
  /-- Raised by no meaning: the spec gives every command of the table an effect. Kept so that the type is inhabited; safe. -/
  | none
  deriving DecidableEq, Repr

/-- Why a command can be refused. -/
inductive Refusal where
  /-- Raised by an arm of `exec` whose meaning has not been written; safe. -/
  | notModelled (mnemonic : String)
  deriving DecidableEq, Repr

/-- The state of the block. -/
structure State where
  /-- Waiting commands, first in, first out. -/
  pending : List Instr
  variant : Variant
  /-- The model's own counter of free values taken so far. -/
  free    : Nat
  /-- The model's own record of what has left the block, newest first. -/
  tx      : List Tx
  /-- Stored CRS words that differ from their reset value, by plain CRS offset. -/
  regs    : NMap W32
  /-- The 64-bit counts of the mailbox, by source identifier. -/
  counts  : NMap W64
  banks   : NMap Bank
  icu     : Icu
  shelf   : Shelf
  num     : Numbers
  snd     : Sounding
  slv     : Solver
  upd     : Updater
  mem     : Memory
  clf     : Cliff
  lsh     : Longshore
  shg     : Shingle
  swl     : Seawall
  ofs     : Offshore
  quay    : Quay
  eth     : Ether
  lh      : Lighthouse
  pwr     : Power
  rst     : Resets
  sec     : Security
  edge    : Edge
  deriving DecidableEq, Repr

/-! ### The module at power-on (R564 step 1) -/

/-- The same value for the four berths. -/
def fourOf {α : Type} (a : α) : Four α := ⟨a, a, a, a⟩

/-- Shelf at power-on (R66): no work; SHF_STAT.berth reads 0, so the scan of R53 begins at B0. -/
def Shelf.reset : Shelf :=
  { streams := fourOf [], engines := fourOf [], deficit := fourOf 0, lastServed := 0, lastEngine := fourOf none, running := none,
    heldDone := none, segment := fourOf [], segStep := fourOf 0, segSeed := fourOf 0, segObject := fourOf 0, fetched := fourOf false,
    halted := fourOf false,
    error := fourOf 0, rejected := fourOf none, undecided := fourOf false, completed := fourOf 0, slots := [],
    triggers := fourOf [], triggered := fourOf [], posted := fourOf 0, fillRun := 0, causes := [], faultOp := 0, faultTick := 0,
    faulted := false, stackStop := false, lastInfo := (0, false, false, 0, 0, 0) }

/-- Census, seeds and totals at power-on (R103). -/
def Numbers.reset : Numbers := { seeds := fourOf 0, census := [], dirty := fourOf [], totals := [] }

/-- Sounding at power-on (R163). -/
def Sounding.reset : Sounding := { slots := [], stages := [], nextId := 0 }

/-- The Solver at power-on (R163). -/
def Solver.reset : Solver := { queues := fourOf [], workspace := fourOf 0, last := 0, holdLast := 0, holdLam := 0, holdStep := 0 }

/-- The Update Engine and Almanac at power-on (R200). -/
def Updater.reset : Updater :=
  { shards := [], updates := [], fetches := [], progs := [], workspace := fourOf 0, steps := fourOf 0, commits := fourOf 0,
    skips := fourOf 0, skipTotal := fourOf 0, paused := fourOf false, nextRank := 1, holdShard := 0, holdLayer := 0,
    holdStep := 0, chans := [], evalStep := fourOf 0 }

/-- Memory at power-on (R240): no object; handles count from 1 (R207). -/
def Memory.reset : Memory :=
  { objects := [], nextObj := fourOf 1, bytes := [], bad := [], zeroing := [], moves := [], wants := [], allocs := [], entered := fourOf 0,
    held := [], balance := fourOf false, rotate := 0, lastRr := 0, clock := 0, window := 0, unread := [],
    ueT1 := 0, ueT2 := (0, 0), ueT3 := (0, 0) }

/-- Cliff at power-on (R276). -/
def Cliff.reset : Cliff := { ports := [], walk := none, lastTick := 0, slew := 0, alternate := [], walkAt := 0 }

/-- No close wave (R292). -/
def Close.none : Close := { flag := false, decided := false, skip := false, running := false, round := 0, start := 0, got := [] }

/-- No PERMUTE (R299). -/
def Permute.none : Permute := 
  { phase := 0, desc := [], entries := [], handles := [], sent := 0, accepted := 0, moveSent := 0, moveAcc := 0, got := [], round := 0,
    waiting := false, toSend := [], unacked := [], granted := [], seen := [] }

/-- Longshore at power-on (R307). -/
def Longshore.reset : Longshore :=
  { live := [], staged := [], chans := [], early := [], outbox := [], suspects := fourOf [], lost := fourOf false, templates := fourOf [], copies := fourOf [], close := fourOf Close.none,
    permute := fourOf Permute.none, failRank := 0, failTick := 0 }

/-- Shingle at power-on (R345). -/
def Shingle.reset : Shingle := { slots := [], reqs := [], errBlock := 0, errTick := 0 }

/-- Seawall at power-on (R345). -/
def Seawall.reset : Seawall :=
  { slots := [], stageKey := 0, stageSalt := 0, queue := [], done := [], loadWait := none, transit := [], seeded := false, failTick := none,
    alarmTick := 0, alarmLast := 0 }

/-- Offshore at power-on (R384). -/
def Offshore.reset : Offshore := { sessions := fourOf none, lastRound := 0, lastTick := 0, rekeying := none }

/-- A closed, unadmitted berth (R432). -/
def Berth.reset : Berth :=
  { state := 0, closing := false, admitted := none, admin := false, keyEpoch := 0, keySlot := 0, hostSalt := 0, nextKey := none,
    high := none, seen := [], cache := [], inflight := [], hello := none, rekeyAns := none, authed := false, held := [], pos := 0,
    evSeq := 0, events := [], evLost := 0, evTick := 0, iface := 0, peer := 0, lastCmd := 0, rekeyAsked := false }

/-- Quay at power-on (R432). -/
def Quay.reset : Quay := { berths := fourOf Berth.reset, stageHash := 0, invalid := 0, unauth := [] }

/-- Ethernet at power-on (R432): link-local addresses only. -/
def Ether.reset : Ether :=
  { addrs := [], neigh := [], downSince := [], ptpPort := 0, ptpMissed := 0, ptpLocked := false, ptpNs := 0, ptpDiff := 0, opened := false }

/-- The interrupt controller at power-on (R467). -/
def Icu.reset : Icu :=
  { pending := 0, active := 0, storm := 0, input := 0, counts := [], rises := [], normal := [], fast := [], wakeCause := 0,
    wakeTick := 0 }

/-- Lighthouse at power-on: no core runs (R564). -/
def Lighthouse.reset : Lighthouse := { cores := [], tick := 0, act := none, pwrReqs := 0 }

/-- Power at power-on (R504): no condition holds. -/
def Power.reset : Power :=
  { brake := false, overcur := false, sag32 := false, sag30 := false, sag27 := false, overvolt := false, warn := false,
    boardHot := false, tripped := false, emergClk := false, clampGone := 0, warnFor := 0, coolFor := 0, vinOk := 0, coldFor := 0,
    clear := 0, clamp := false, emergTick := false, nvBlocked := false, stopAt := none, resetHeld := false, reminder := 0,
    asleep := false, energy := 0, lastEmerg := 0, lastWatts := 0, lastTick := 0 }

/-- Resets at power-on (R538); the module has yet to start (R564). -/
def Resets.reset : Resets :=
  { gens := [], domains := [], answers := [], delayed := none, history := [], total := [], last := 0, log := [], logSeq := 0,
    overflow := false, lost := 0, lostTotal := 0, shared := [], crashes := [], crashing := [], latch := false, flashOos := false,
    flashWait := false, oosCause := 0, oosDomain := 0, oosTick := 0, serving := false, running := false, stage := 0, pinHeld := false,
    devHeld := false, devOos := false, holdTick := none, upAt := [], stageAt := 0, railsAt := 0 }

/-- Identity and life cycle before anything is read: OTP as SECURED, counter 0, image A (DESIGN CHOICE, log 6). -/
def Security.reset : Security :=
  { life := 2, refurb := 0, debug := false, image := 0, selector := 0, rbBits := 0, ranFor := 0, idOk := false, certOk := false,
    fallback := false, slots := [], challenge := 0, refused := 0, erased := false, leaving := none, keyStore := (true, true), header := [], otherSvn := 0, epoch := 0,
    epochNv := 0, epochWait := false }

/-- The module edge at power-on: flash erased, straps 0 (DESIGN CHOICE, logs 6 and 7). -/
def Edge.reset : Edge := { pointer := 0, op := none, flash := [], leak := false, straps := 0, rstact := 0, jtagIr := 0, bscan := 0 }

/-- The block right after power-on, with no command waiting. -/
def State.reset : State :=
  { pending := [], variant := .kmz4100, free := 0, tx := [], regs := [], counts := [], banks := [], icu := Icu.reset,
    shelf := Shelf.reset, num := Numbers.reset, snd := Sounding.reset, slv := Solver.reset, upd := Updater.reset,
    mem := Memory.reset, clf := Cliff.reset, lsh := Longshore.reset, shg := Shingle.reset, swl := Seawall.reset,
    ofs := Offshore.reset, quay := Quay.reset, eth := Ether.reset, lh := Lighthouse.reset, pwr := Power.reset,
    rst := Resets.reset, sec := Security.reset, edge := Edge.reset }

end Sys2Proof.Machine
end

