-- ==== Sys2Proof/Machine/Regs.lean ====
section
/-!
DEFINITION. Register storage: the reset word of every offset, the stored word, and reading and writing one named field as the
hardware does. A CRS write as a requester makes it is `fieldWrite` (R12, R439, R435).
-/
namespace Sys2Proof.Machine
open Sys2Proof

/-! ### Variant (R3, R28) -/

/-- Cliff ports present, one bit each (R3). -/
def portMask : Variant → Nat
  | .kmz4120 => 0x555
  | _ => 0xFFF

/-- The Offshore engine is present. -/
def hasOffshore : Variant → Bool
  | .kmz4100 => true
  | _ => false

/-- The DDR5 tier is present. -/
def hasDdr : Variant → Bool
  | .kmz4120 => false
  | _ => true

/-- DEV_PART.part (R462). -/
def partCode : Variant → Nat
  | .kmz4100 => 0x1004
  | .kmz4110 => 0x100E
  | .kmz4120 => 0x1018

/-- DEV_CAP (R462). -/
def devCap (v : Variant) : Nat := portMask v + 2 ^ 12 * b2n (hasOffshore v) + 2 ^ 13 * b2n (hasDdr v) + 0xC000

/-- DEV_DECODE0–DEV_DECODE4 (R434). -/
def devDecode (v : Variant) : Nat → Nat
  | 0 => 0x88888C88
  | 1 => 0x888A0088
  | 2 => if hasDdr v then 0x88880088 else 0x08880088
  | 3 => if hasOffshore v then 0x0888008F else 0x0088008F
  | 4 => 0x00080088
  | _ => 0

/-- Port n exists on the variant. -/
def portPresent (v : Variant) (n : Nat) : Bool := n < 12 && bit (portMask v) n

/-! ### Where an offset lands (R14, R433, R271) -/

/-- Offset bits that a window decodes (R433); 0 for a window with no block. -/
def decodeWidth (w : Nat) : Nat :=
  if w = 2 then 12 else if w = 12 then 10 else if (windowRegs w).isEmpty then 0 else 8

/-- The window holds no block (R433). -/
def emptyWindow (off : Nat) : Bool := off ≥ 0x94000 || decodeWidth (off / 0x4000) = 0

/-- The window's unit is absent on the variant (R5). -/
def absentWindow (v : Variant) (off : Nat) : Bool :=
  let w := off / 0x4000
  (w = 30 && !hasOffshore v) || (w = 23 && !hasDdr v)

/-- Plain offset of the register that an offset reaches: alias bits dropped, the decode width applied (R14, R439, R271). -/
def plainOffset (off : Nat) : Nat :=
  let w := off / 0x4000
  let o := off % 0x4000 / 4 * 4
  if w = 24 then w * 0x4000 + o / 0x400 * 0x400 + o % 0x100 else w * 0x4000 + o % 2 ^ decodeWidth w

/-- The alias that an offset selects; CLF has none (R271). -/
def aliasOf (off : Nat) : Alias :=
  if off / 0x4000 = 24 then .plain
  else match off / 0x1000 % 4 with
    | 0 => .plain
    | 1 => .set
    | 2 => .clear
    | _ => .toggle

/-- The register rows that serve a plain offset, and the offset within the block. -/
def regRows (v : Variant) (off : Nat) : List RegSpec × Nat :=
  let w := off / 0x4000
  let o := off % 0x4000
  if absentWindow v off then ([], 0)
  else if w = 24 then
    if o / 0x400 = 12 then (regsCLFC, o % 0x400)
    else if portPresent v (o / 0x400) then (regsCLFP, o % 0x400) else ([], 0)
  else (windowRegs w, o)

/-- The row holds the block offset. -/
def RegSpec.holds (r : RegSpec) (o : Nat) : Bool := r.off ≤ o && o < r.off + r.n * r.step && (o - r.off) % r.step = 0

/-- The register at a plain offset, if one is implemented there. -/
def regSpec (v : Variant) (off : Nat) : Option RegSpec :=
  (regRows v off).1.find? (fun r => r.holds (regRows v off).2)

/-! ### Reset values -/

/-- Sources 0–255 with an edge trigger: ICU_CFGs.edge (R448, R464). Units raise level sources; software sources are edges. -/
def edgeSource (n : Nat) : Bool :=
  if n < 16 then n ∈ [3, 4, 6, 8, 9, 10, 11, 12, 15] else n ≥ 224

/-- Reset word of the fields of a row. -/
def resetFields : List FieldSpec → Nat
  | [] => 0
  | f :: fs => f.reset * 2 ^ f.lo + resetFields fs

/-- Reset value of the register at a plain offset, with what depends on port, source or core number. -/
def resetWord (v : Variant) (off : Nat) : W32 :=
  match regSpec v off with
  | none => 0
  | some r =>
    let extra :=
      if off / 0x4000 = 24 && off % 0x400 = 0 && off < 0x63000 then off % 0x4000 / 0x400
      else if ICU_CFG.off ≤ off && off < ICU_CFG.off + 0x400 then 0x400 * b2n (edgeSource ((off - ICU_CFG.off) / 4))
      else if TID_BUDGET.off ≤ off && off < TID_BUDGET.off + 0x20 then
        (match (off - TID_BUDGET.off) / 4 with
          | 0 => 0x258
          | 1 => 0x1F4
          | 6 => 0x1F4
          | _ => 0x320)
      else 0
    BitVec.ofNat 32 (resetFields r.fields + extra)

/-! ### Stored words -/

/-- The stored word at a plain offset. -/
def regWord (s : State) (off : Nat) : W32 := (mget s.regs off).getD (resetWord s.variant off)

/-- Store a word; a word equal to its reset value is not listed. -/
def setWord (s : State) (off : Nat) (w : W32) : State := { s with regs := msetD s.regs off w (resetWord s.variant off) }

/-- The value of a field. -/
def rd (s : State) (f : Fld) : Nat := bits (regWord s f.off).toNat f.hi f.lo

/-- The one-bit field is set. -/
def rdb (s : State) (f : Fld) : Bool := rd s f ≠ 0

/-- Give a field a value, as the hardware does. -/
def wr (s : State) (f : Fld) (v : Nat) : State := setWord s f.off (putBits (regWord s f.off) f.hi f.lo v)

/-- Set every bit of a field that `v` names. -/
def wrOr (s : State) (f : Fld) (v : Nat) : State := wr s f (rd s f ||| v)

/-- Give several fields values. -/
def wrs (s : State) : List (Fld × Nat) → State
  | [] => s
  | (f, v) :: l => wrs (wr s f v) l

/-- A field for which 0 acts as 1. -/
def rd1 (s : State) (f : Fld) : Nat := if rd s f = 0 then 1 else rd s f

/-- Restore the registers of a window to their reset values, except the offsets named. -/
def resetWindow (s : State) (w : Nat) (keep : List Nat) : State :=
  { s with regs := s.regs.filter (fun p => p.1 / 0x4000 ≠ w || p.1 ∈ keep) }

/-! ### A requester's write (R12, R435, R439) -/

/-- New stored bits of a field: old bits, written bits, type, alias, lock. -/
def fieldWrite (ty : RegType) (al : Alias) (locked : Bool) (old v full : Nat) : Nat :=
  match ty, al with
  | .ro, _ => old
  | .wo, _ => old
  | .w1c, _ => old - (old &&& v)
  | .rwl, .plain => if locked then old else v
  | .rwl, .set => if locked then old else old ||| v
  | .rwl, .clear => if locked then old else old - (old &&& v)
  | .rwl, .toggle => if locked then old else (old ^^^ v) % (full + 1)
  | .rw, .plain => v
  | .rw, .set => old ||| v
  | .rw, .clear => old - (old &&& v)
  | .rw, .toggle => (old ^^^ v) % (full + 1)

/-- Write the fields of a row into a word. `lockBit` says that a written 0 is ignored, `locked` gives the lock by field. -/
def writeFields (req : Nat) (al : Alias) (value : W32) (lockBit : Bool) (locked : FieldSpec → Bool) : List FieldSpec → W32 → W32
  | [], w => w
  | f :: fs, w =>
    let old := bits w.toNat f.hi f.lo
    let v := bits value.toNat f.hi f.lo
    let new := fieldWrite f.ty al (locked f) old v (2 ^ (f.hi + 1 - f.lo) - 1)
    let new := if lockBit then old ||| new else new
    writeFields req al value lockBit locked fs (if f.writers.testBit req then putBits w f.hi f.lo new else w)

/-- Plain offset of the lock register of a window; 0 where it has none. -/
def lockOffset : Nat → Nat
  | 2 => ICU_LOCK.off
  | 5 => TID_LOCK.off
  | 6 => CLK_LOCK.off
  | 7 => RST_LOCK.off
  | 8 => PWR_LOCK.off
  | 9 => SEC_LOCK.off
  | 12 => SHF_LOCK.off
  | 15 => SLV_LOCK.off
  | 16 => UPD_LOCK.off
  | 20 => HBR_LOCK.off
  | 22 => HBM_LOCK.off
  | 23 => DDR_LOCK.off
  | 24 => CLF_LOCK.off
  | 25 => LSH_LOCK.off
  | 29 => SWL_LOCK.off
  | 30 => OFS_LOCK.off
  | 32 => ETH_LOCK.off
  | 33 => CMD_LOCK.off
  | _ => 0

/-- The lock of a window's RWL fields is set. -/
def windowLocked (s : State) (w : Nat) : Bool := lockOffset w ≠ 0 && bit (regWord s (lockOffset w)).toNat 0

/-- The RWL fields of the register at a plain offset are locked. ICU_CFG locks only for sources 0–15 and 192–223 (R457). -/
def regLocked (s : State) (off : Nat) : Bool :=
  let w := off / 0x4000
  if ICU_CFG.off ≤ off && off < ICU_CFG.off + 0x400 then
    let n := (off - ICU_CFG.off) / 4
    windowLocked s 2 && (n < 16 || (192 ≤ n && n < 224))
  else windowLocked s w

/-- The offset is a lock register, whose lock bit only sets. -/
def isLockReg (off : Nat) : Bool := off ≠ 0 && lockOffset (off / 0x4000) = off

/-- What a requester's write stores in the register that a plain offset names: every field by its type, alias, lock and
writers; nothing where no register is implemented. A write that would clear a bit of SWL_ALARM_EN outside BLANK is ignored (R343). -/
def storeWrite (s : State) (off : Nat) (c : CrsWrite) : State :=
  match regSpec s.variant off with
  | none => s
  | some r =>
    let old := regWord s off
    let new := writeFields c.req c.al c.value (isLockReg off) (fun _ => regLocked s off) r.fields old
    if off = SWL_ALARM_EN.off && s.sec.life ≠ 0 && new ||| old ≠ new then s else setWord s off new

/-- The bits of a write that act on a WO field: plain and set aliases only, from a permitted requester (R439). -/
def woBits (s : State) (f : Fld) (c : CrsWrite) : Nat :=
  match regSpec s.variant f.off with
  | none => 0
  | some r =>
    if c.al = .plain || c.al = .set then
      if r.fields.any (fun x => x.lo = f.lo && x.writers.testBit c.req) then bits c.value.toNat f.hi f.lo else 0
    else 0

end Sys2Proof.Machine
end

