-- ==== Sys2Proof/Machine/Ops.lean ====
section
/-!
DEFINITION. Named operations that every family shares: counts, outputs, free values, alerts, event packets, interrupt sources,
the error log, reset entry and escalation, leaving service, stream halts and the step flag.
-/
namespace Sys2Proof.Machine
open Sys2Proof

/-! ### Counts, outputs, free values -/

/-- Add to a 64-bit mailbox count. -/
def count (s : State) (id n : Nat) : State := { s with counts := mset s.counts id (mgetD s.counts id 0 + BitVec.ofNat 64 n) }

/-- Count a frame of an interface, with its bytes up to the FCS and its tag where the interface has one: sent or received (R387,
R429). -/
def countFrame (s : State) (i : Nat) (sent : Bool) (ip : Nat) : State :=
  let n := ip + 18 + (if rd s (ETH_VLAN_vid.at i) ≠ 0 then 4 else 0)
  count (count s (0x1B00 + 0x10 * i + b2n sent) 1) (0x1B06 + 0x10 * i + b2n sent) n

/-- Interface and IPv6 bytes of an output that leaves on a host port (R393, R397, R417, R423, R365). -/
def frameOf : Tx → Option (Nat × Nat)
  | .status i _ _ _ _ _ _ _ _ _ data => some (i, 128 + data.length)
  | .data i _ _ _ _ bytes => some (i, 128 + bytes.length)
  | .event i _ _ _ payload => some (i, 112 + payload.length)
  | .ofs _ _ _ _ p _ _ _ => some (2 * p.route, 128 + p.payload.length)
  | .eth i _ _ body => some (i, 40 + body.length)
  | _ => none

/-- Something leaves the block. -/
def emit (s : State) (t : Tx) : State :=
  let s := match frameOf t with
    | some (i, n) => countFrame s i true n
    | none => s
  { s with tx := t :: s.tx }

/-- Several things leave the block, in order. -/
def emitAll (s : State) : List Tx → State
  | [] => s
  | t :: ts => emitAll (emit s t) ts

/-- The number of the next free value. -/
def useFree (s : State) : State := { s with free := s.free + 1 }

/-- The tick counter (R481). -/
def now (s : State) : Nat := s.lh.tick.toNat

/-- Ticks passed since a tick. -/
def since (s : State) (t : W64) : Nat := now s - t.toNat

/-- Apply an operation for each element of a list. -/
def foldS {α : Type} (f : State → α → State) : State → List α → State
  | s, [] => s
  | s, x :: xs => foldS f (f s x) xs

/-! ### Alerts and the in-band interrupt (R569, R571) -/

/-- MOD_ALERT_N is low: an enabled bit of MGT_ALERT is set (R569). -/
def alertLow (s : State) : Bool := rd s MGT_ALERT &&& rd s MGT_ALERT_EN_enable ≠ 0

/-- Set a bit of MGT_ALERT; an enabled bit that rises raises an IBI with the alert byte when the controller allows it (R571). -/
def setAlert (s : State) (i : Nat) : State :=
  let s1 := wrOr s MGT_ALERT (2 ^ i)
  if !bit (rd s MGT_ALERT) i && bit (rd s MGT_ALERT_EN_enable) i && rdb s MGT_I3C_ibi_en && rdb s MGT_I3C_assigned then
    emit s1 (.i3c 0 [BitVec.ofNat 8 (rd s1 MGT_ALERT)])
  else s1

/-! ### Events (R423–R425) -/

/-- Payload of an event packet (R423): code, status, op_seq, tick, step counter, data. -/
def eventPayload (s : State) (b code status : Nat) (opSeq : W32) (data : List Byte) : List Byte :=
  toBe 2 code ++ toBe 2 status ++ toBe 4 opSeq.toNat ++ toBe 8 (now s) ++ toBe 8 (fget s.upd.steps b).toNat ++ zeros 8
    ++ slice data 0 64

/-- Change a berth of Quay. -/
def modBerth (s : State) (b : Nat) (f : Berth → Berth) : State :=
  { s with quay := { s.quay with berths := fmod s.quay.berths b f } }

/-- The berth's session record. -/
def berthOf (s : State) (b : Nat) : Berth := fget s.quay.berths b

/-- Send one queued event when the berth is OPEN, counting it (R425, R431). -/
def sendEvent (s : State) (b : Nat) (e : Ev) : State :=
  let q := berthOf s b
  if q.state = 1 then count (emit s (.event q.iface q.peer b e.seq e.payload)) (0x1C06 + 0x10 * b) 1 else s

/-- Queue an event for a berth that is not CLOSED and send it; a full queue counts it as lost (R425). -/
def putEvent (s : State) (b : Nat) (payload : List Byte) : State :=
  let q := berthOf s b
  if q.state = 0 then s
  else if q.events.length < 1024 then
    let e : Ev := ⟨q.evSeq, payload⟩
    let s := modBerth s b fun q =>
      { q with events := q.events ++ [e], evSeq := q.evSeq + 1, evTick := if q.events.isEmpty then s.lh.tick else q.evTick }
    sendEvent s b e
  else
    let s := modBerth s b fun q => { q with evLost := q.evLost + 1 }
    count (wrOr s CMD_IRQ_STAT_evt_lost 1) (0x1C07 + 0x10 * b) 1

/-- Queue an event by its code (R424). -/
def event (s : State) (b code status : Nat) (opSeq : W32) (data : List Byte) : State :=
  putEvent s b (eventPayload s b code status opSeq data)

/-- An event to every berth that is not CLOSED (codes 0x0008–0x000B, R424). -/
def eventAll (s : State) (code status : Nat) (data : List Byte) : State :=
  foldS (fun s b => event s b code status 0 data) s berths

/-- POWER event with its cause and the input power (R424, R503). -/
def powerEvent (s : State) (cause : Nat) : State := eventAll s 0x000B 0 (toBe 1 cause ++ toBe 2 (rd s PWR_PIN_watts))

/-! ### Interrupt sources (R449, R450, R458) -/

/-- Raise an event count, saturating (R450). -/
def icuCount (s : State) (n : Nat) : State :=
  { s with icu := { s.icu with counts := mset s.icu.counts n (BitVec.ofNat 16 (satAdd 65535 (mgetD s.icu.counts n 0).toNat 1)) } }

/-- Set one bit of a 256-bit vector to a value. -/
def putBit (v : BitVec 256) (n : Nat) (x : Bool) : BitVec 256 :=
  if x then v ||| BitVec.ofNat 256 (2 ^ n) else v &&& ~~~ BitVec.ofNat 256 (2 ^ n)

/-- Set or clear a source's pending bit. -/
def setPending (s : State) (n : Nat) (x : Bool) : State := { s with icu := { s.icu with pending := putBit s.icu.pending n x } }

/-- The clocks start again: sleep ends, and every port begins to train (R458, R497). -/
def wakeClocks (s : State) : State :=
  let s := wr { s with pwr := { s.pwr with asleep := false } } PWR_CTL_sleep 0
  foldS (fun s p => if portPresent s.variant p && rdb s (CLF_PCTL_enable.at p) then wr s (CLF_PSTAT_state.at p) 1 else s) s
    (List.range 12)

/-- Beacon sends a wake request with the causes given (R458, R459): causes latched, wake counted and recorded. -/
def beaconWake (s : State) (causes : Nat) : State :=
  let s := count (wrOr s BCN_CAUSE_cause causes) 0x0200 1
  let s := { s with icu := { s.icu with wakeCause := regWord s BCN_CAUSE.off, wakeTick := s.lh.tick + 1 } }
  if s.pwr.asleep then wakeClocks s else s

/-- During sleep, a watched always-on source that asserts wakes the module (R458). -/
def beaconCatch (s : State) (n : Nat) : State :=
  if s.pwr.asleep && n < 16 && bit (rd s BCN_WATCH_watch) n then beaconWake s (2 ^ n) else s

/-- One edge event of a source: pending set, count raised, Beacon told (R449, R450). -/
def fireEdge (s : State) (n : Nat) : State := beaconCatch (icuCount (setPending s n true) n) n

/-! ### Reset domains (R510, R511) -/

/-- The domain exists on the variant (R511). -/
def domainExists (v : Variant) (d : Nat) : Bool :=
  if d = 0x15 then hasOffshore v
  else if d = 6 then hasDdr v
  else if 8 ≤ d && d ≤ 0x13 then portPresent v (d - 8)
  else d ≤ 5 || (0x14 ≤ d && d ≤ 0x1A) || (0x20 ≤ d && d ≤ 0x27) || d = 0x3F

/-- The code names a domain of R510 on some variant; every other code is reserved. -/
def domainCode (d : Nat) : Bool := d ≤ 6 || (8 ≤ d && d ≤ 0x1A) || (0x20 ≤ d && d ≤ 0x27) || d = 0x3F

/-- The enclosing domain (R510, R511). -/
def enclosing (v : Variant) (d : Nat) : Nat :=
  if 8 ≤ d && d ≤ 0x13 then 0x14
  else if d = 0x16 || d = 0x17 then (if hasOffshore v then 0x15 else 0x3F)
  else if d = 0x19 || d = 0x1A then 0x18
  else 0x3F

/-- The domain is in reset or in its recovery window. -/
def recovering (s : State) (d : Nat) : Bool := (mget s.rst.domains d).isSome

/-- The domain is in reset: from phase 1 until it is ready (R514). -/
def inReset (s : State) (d : Nat) : Bool :=
  match mget s.rst.domains d with
  | some r => r.phase < 6
  | none => false

/-- Generation of a domain (R512). -/
def genOf (s : State) (d : Nat) : Nat := mgetD s.rst.gens d 0

/-! ### The error log (R523–R525) -/

/-- Write one log entry, or count it lost when the log is full (R525). -/
def logRaw (s : State) (domain cls source : Nat) (detail : W64) (berth : Nat) : State :=
  if s.rst.log.length < 64 then
    let e : LogEntry := ⟨s.rst.logSeq, s.lh.tick, domain, cls, genOf s domain, recovering s domain, source, detail, berth⟩
    { s with rst := { s.rst with log := s.rst.log ++ [e], logSeq := s.rst.logSeq + 1 } }
  else
    wrOr { s with rst := { s.rst with overflow := true, lost := satAdd 65535 s.rst.lost 1, lostTotal := s.rst.lostTotal + 1 } }
      RST_IRQ_STAT_overflow 1

/-- Resets of a domain that count toward R527 and lie within the last `w` ticks. -/
def recentResets (s : State) (d w : Nat) : Nat :=
  (s.rst.history.filter (fun p => p.1 = d && since s p.2 < w)).length

/-- The domain's reset calls for a crash record (R520): SHELF, HARBOUR, HBM, DDRT and DEVICE. -/
def wantsCrash (d : Nat) : Bool := d ≤ 6 || d = 0x3F

/-- Record that a domain enters reset (R512, R514 phase 1, R527): log entry of class 0x05, generation, counted history. -/
def recordReset (s : State) (d : Nat) (counted : Bool) : State :=
  let s := logRaw s d 0x05 0 0 0xFF
  let rst := s.rst
  { s with rst := { rst with
      gens := mset rst.gens d ((genOf s d + 1) % 256)
      last := d
      history := if counted then (d, s.lh.tick) :: rst.history else rst.history
      total := if counted then mset rst.total d (mgetD rst.total d 0 + 1) else rst.total } }

/-- The third counted DEVICE reset within 60,000,000 ticks brings the module up out of service (R527). -/
def noteThird (s : State) : State :=
  if recentResets s 0x3F 60000000 ≥ 3 then { s with rst := { s.rst with devOos := true } } else s

/-- A further DEVICE reset toward R527 while one is in progress (R526). -/
def countDevice (s : State) : State :=
  noteThird { s with rst := { s.rst with
      history := (0x3F, s.lh.tick) :: s.rst.history, total := mset s.rst.total 0x3F (mgetD s.rst.total 0x3F 0 + 1) } }

/-- Begin a DEVICE reset (R518, R526, R527). One already in progress only counts as a further one. The reset waits for its crash
record where it takes one (R520); otherwise it is asserted at the next event of its phase. -/
def enterDevice (s : State) (counted crash : Bool) : State :=
  if inReset s 0x3F then
    if counted then countDevice s else s
  else
    let s := noteThird (recordReset s 0x3F counted)
    { s with rst := { s.rst with
        domains := mset s.rst.domains 0x3F ⟨if crash then 3 else 4, s.lh.tick, false, crash⟩
        crashing := if crash then s.rst.crashing ++ [0x3F] else s.rst.crashing } }

/-- Begin a reset of a domain (R514), or the DEVICE reset that escalation puts in its place (R527): a fourth counted reset
within 6,000,000 ticks. -/
def enterReset (s : State) (d : Nat) (byCmd crash : Bool) : State :=
  if d = 0x3F then enterDevice s true crash
  else if recentResets s d 6000000 ≥ 3 then
    enterDevice (wrOr (logRaw s d 0x06 0 0 0xFF) RST_IRQ_STAT_escalate 1) true true
  else
    let s := recordReset s d true
    { s with rst := { s.rst with domains := mset s.rst.domains d ⟨2, s.lh.tick, byCmd, crash && wantsCrash d⟩ } }

/-- Reset the enclosing domain, one step further when that one is recovering too (R526). Structural in the fuel, which the depth
of R510 bounds. -/
def escalateFrom : Nat → State → Nat → State
  | 0, s, _ => s
  | k + 1, s, d =>
    if d = 0x3F then countDevice s
    else if recovering s (enclosing s.variant d) then escalateFrom k s (enclosing s.variant d)
    else enterReset s (enclosing s.variant d) false true

/-- A nested error in a domain (R526): logged with class 0x07, and the enclosing domain resets at once. -/
def nestedError (s : State) (d : Nat) : State :=
  escalateFrom 4 (wrOr (logRaw s d 0x07 0 0 0xFF) RST_IRQ_STAT_nested 1) d

/-- An event that the error log records with a domain's code (R523, R526): an entry of its class, or a nested error while the
domain is in reset or in its recovery window. -/
def logError (s : State) (domain cls source : Nat) (detail : W64) (berth : Nat) : State :=
  if recovering s domain then nestedError s domain else logRaw s domain cls source detail berth

/-! ### Degraded service and leaving service (R528, R530) -/

/-- Raise a cause of REPLACE_REQUEST; a cause that rises asserts the alert and sends the event with every bit (R530). -/
def raiseReplace (s : State) (i : Nat) : State :=
  if bit (rd s RST_REPLACE_causes) i then s
  else
    let s := wrOr (wrOr s RST_REPLACE_causes (2 ^ i)) RST_IRQ_STAT_replace 1
    let s := setAlert s 1
    eventAll s 0x0008 0 (toBe 4 (rd s RST_REPLACE_causes))

/-- Withdraw a cause of REPLACE_REQUEST (R530). -/
def dropReplace (s : State) (i : Nat) : State :=
  wr s RST_REPLACE_causes (rd s RST_REPLACE_causes - (if bit (rd s RST_REPLACE_causes) i then 2 ^ i else 0))

/-- An orderly stop runs: no unit starts new work (R493). -/
def stopping (s : State) : Bool := s.pwr.stopAt.isSome

/-- Non-volatile writes are stopped (R492). -/
def nvStopped (s : State) : Bool := s.pwr.sag32 || s.pwr.sag30 || s.pwr.sag27 || s.pwr.nvBlocked

/-- The module is out of service: the AON latch or the flash flag (RST_STAT.oos). -/
def outOfService (s : State) : Bool := s.rst.latch || s.rst.flashOos

/-- The module goes OUT_OF_SERVICE (R528, R588): latch, flash flag as soon as R492 allows, alert, events, log entry. -/
def leaveService (s : State) (cause domain : Nat) : State :=
  let entry := if cause = 1 then logRaw else logError
  let s := entry s domain 0x0A 0 (BitVec.ofNat 64 cause) 0xFF
  let stop := nvStopped s
  let s := { s with rst := { s.rst with
      latch := true, oosCause := cause, oosDomain := domain, oosTick := s.lh.tick, flashOos := s.rst.flashOos || !stop, flashWait := stop } }
  let s := wrOr s RST_IRQ_STAT_oos 1
  let s := if stop then wrOr s PWR_IRQ_STAT_nv_block 1 else s
  let s := setAlert s 2
  eventAll s 0x0009 0x0060 (toBe 1 cause)

/-! ### The step flag and stream halts (R42, R291) -/

/-- Set the berth's step flag (R291). -/
def setFlag (s : State) (b : Nat) : State :=
  { s with lsh := { s.lsh with close := fmod s.lsh.close b fun c => { c with flag := true } } }

/-- Halt a berth's stream (R42): halted and error code, and the STREAM_HALTED event of origin 0x01 (R588). -/
def haltStream (s : State) (b code : Nat) (opSeq : W32) (desc : Option (List Byte)) : State :=
  let s := { s with shelf := { s.shelf with
      halted := fset s.shelf.halted b true, error := fset s.shelf.error b code, rejected := fset s.shelf.rejected b desc
      fetched := fset s.shelf.fetched b false } }
  let s := wrOr s SHF_IRQ_STAT_op_error 1
  event s b 0x0002 0x0020 opSeq (toBe 1 0x01 ++ toBe 1 code)

/-- OP_FAULT event with unit and tier (R588, R589). -/
def opFault (s : State) (b : Nat) (opSeq : W32) (unit tier : Nat) : State :=
  event s b 0x0005 0x0080 opSeq (toBe 1 unit ++ toBe 1 tier)

/-- Increment an event slot of a berth (R44). -/
def bumpSlot (s : State) (b slot n : Nat) : State :=
  let k := 1024 * b + slot % 1024
  { s with shelf := { s.shelf with slots := mset s.shelf.slots k (mgetD s.shelf.slots k 0 + BitVec.ofNat 16 n) } }

/-- A slot has reached a wait count (R44): always for 0, else (counter − wait) mod 2^16 < 2^15. -/
def slotReady (s : State) (b slot wait : Nat) : Bool :=
  wait = 0 || (mgetD s.shelf.slots (1024 * b + slot % 1024) 0 - BitVec.ofNat 16 wait).toNat < 2 ^ 15

end Sys2Proof.Machine
end

