-- ==== Sys2Proof/Machine/Ecp.lean ====
section
/-!
DEFINITION. Quay intake: the checks of R409 in their order, the sequence window of R410, the caches of R411, commands in flight
(R412), and the status packets that answer a command (R397).
-/
namespace Sys2Proof.Machine
open Sys2Proof

/-! ### Status codes (R398) -/

def stOK : Nat := 0x0000
def stBUSY : Nat := 0x0001
def stDEFERRED : Nat := 0x0002
def stUNSUPPORTED : Nat := 0x0010
def stABSENT : Nat := 0x0011
def stBAD : Nat := 0x0020
def stSTALE : Nat := 0x0030
def stLOCKED : Nat := 0x0040
def stVERSION : Nat := 0x0050
def stOOS : Nat := 0x0060
def stAUTH : Nat := 0x0070
def stFAULT : Nat := 0x0080

/-- How a command's meaning answers: a final status with detail and result data, BUSY after some ticks, an interim DEFERRED, or
an answer that a later event sends. -/
inductive Ans where
  | fin (status detail : Nat) (data : List Byte)
  | busy (retry : Nat)
  | deferred
  | later
  deriving DecidableEq, Repr

/-- OK with result data. -/
def Ans.ok (data : List Byte) : Ans := .fin 0 0 data

/-- BAD_PARAM with its reason. -/
def Ans.bad (detail : Nat) : Ans := .fin 0x0020 detail []

/-! ### Opcodes (R413, R419, R420) -/

/-- Plane of an opcode's group (R419). -/
def planeOf (op : Nat) : Nat :=
  let g := op / 256
  if g = 1 || g = 2 || g = 8 then 1 else if 3 ≤ g && g ≤ 7 then 0 else 2

/-- Opcodes that need the admin right (R420). -/
def needsAdmin (op : Nat) : Bool := op ∈ [0x0902, 0x0904, 0x0905, 0x0A01, 0x0A02, 0x0A04, 0x0B02]

/-- Groups that a module out of service still serves (R409 step 9). -/
def servedOos (op : Nat) : Bool := op / 256 ∈ [1, 2, 9]

/-- The unit that an opcode's group needs is absent (R28). -/
def unitAbsent (v : Variant) (op : Nat) : Bool := op / 256 = 7 && !hasOffshore v

/-- Opcodes that Quay executes itself (R413). -/
def quayOpcode (op : Nat) : Bool := op ∈ [0x0204, 0x0205, 0x0304, 0x0305, 0x0308, 0x0401, 0x0402]

/-- retry_after of a BUSY whose rule gives none (R398). -/
def busyTicks (s : State) : Nat := rd1 s CMD_RETRY_ticks

/-! ### Lighthouse cores -/

/-- A core with no tick work, claim or restart. -/
def Core.idle : Core :=
  { busy := false, late := false, lastDone := 0, overruns := 0, clean := 0, telem := 0, overran := false, used := 0, peak := 0, expired := none,
    restart := none, waiting := false }

/-- The record of core Lk. -/
def coreOf (s : State) (k : Nat) : Core := mgetD s.lh.cores k Core.idle

/-- Change the record of core Lk. -/
def modCore (s : State) (k : Nat) (f : Core → Core) : State :=
  { s with lh := { s.lh with cores := mset s.lh.cores k (f (coreOf s k)) } }

/-- Core Lk runs: not restarting, and its domain not in reset (R22, R474). -/
def coreUp (s : State) (k : Nat) : Bool := (coreOf s k).restart.isNone && !inReset s (0x20 + k)

/-- Core Lk serves commands (R22): it runs, has not overrun its tick, and neither its watchdog has expired nor does its restart wait. -/
def coreServes (s : State) (k : Nat) : Bool :=
  coreUp s k && !(coreOf s k).late && (coreOf s k).expired.isNone && !(coreOf s k).waiting

/-! ### Sending statuses -/

/-- A status that is not authenticated, at most 16 a tick and interface (R409). -/
def unauthStatus (s : State) (h : EcpHdr) (op status detail : Nat) (data : List Byte) : State :=
  let n := mgetD s.quay.unauth h.iface 0
  if n < 16 then
    let s := { s with quay := { s.quay with unauth := mset s.quay.unauth h.iface (n + 1) } }
    let s := emit s (.status h.iface h.peer op h.seq h.berth false status 0 true detail data)
    if h.berth < 4 then count s (0x1C01 + 0x10 * h.berth) 1 else s
  else { s with quay := { s.quay with invalid := s.quay.invalid + 1 } }

/-- Discard a packet and count it (R393, R409). -/
def discardPacket (s : State) : State := { s with quay := { s.quay with invalid := s.quay.invalid + 1 } }

/-- An authenticated status packet to an address, counted (R397, R431). -/
def sendStatus (s : State) (iface peer b op : Nat) (seq : W32) (status retry : Nat) (final : Bool) (detail : Nat)
    (data : List Byte) : State :=
  count (emit s (.status iface peer op seq b true status retry final detail data)) (0x1C01 + 0x10 * b) 1

/-- A BUSY answer: counted, its interrupt status set (R430, R431). -/
def sendBusy (s : State) (h : EcpHdr) (op retry : Nat) : State :=
  let s := count (wrOr s CMD_IRQ_STAT_busy 1) (0x1C02 + 0x10 * h.berth) 1
  sendStatus s h.iface h.peer h.berth op h.seq stBUSY retry true 0 []

/-- Keep a final status for retransmission: the last 1,024 whose data is at most 256 bytes (R411). -/
def keepStatus (s : State) (b op : Nat) (seq : W32) (status detail : Nat) (data : List Byte) : State :=
  if data.length ≤ 256 then
    modBerth s b fun q => { q with cache := (⟨seq, op, status, 0, detail, data⟩ :: q.cache).take 1024 }
  else s

/-- The final status of a command in flight: out of flight, cached, and sent when the berth is OPEN (R411, R412, R427). -/
def finish (s : State) (b op : Nat) (seq : W32) (status detail : Nat) (data : List Byte) : State :=
  if !((berthOf s b).inflight.any fun p => p.1 = seq) then s
  else
  let s := modBerth s b fun q => { q with inflight := q.inflight.filter (fun p => p.1 ≠ seq) }
  let s := keepStatus s b op seq status detail data
  let q := berthOf s b
  if q.state = 1 then sendStatus s q.iface q.peer b op seq status 0 true detail data else s

/-- A final BUSY to a command that was held: its sequence counts as unseen again (R410, R414). -/
def finishBusy (s : State) (b op : Nat) (seq : W32) : State :=
  let s := modBerth s b fun q =>
    { q with inflight := q.inflight.filter (fun p => p.1 ≠ seq), seen := q.seen.filter (· ≠ seq) }
  let q := berthOf s b
  if q.state = 1 then
    sendStatus (count (wrOr s CMD_IRQ_STAT_busy 1) (0x1C02 + 0x10 * b) 1) q.iface q.peer b op seq stBUSY (busyTicks s) true 0 []
  else s

/-- An interim DEFERRED of a command in flight. -/
def sendDeferred (s : State) (b op : Nat) (seq : W32) : State :=
  let q := berthOf s b
  if q.state = 1 then sendStatus s q.iface q.peer b op seq stDEFERRED 0 false 0 [] else s

/-! ### The sequence window (R410) -/

/-- What the window says of a sequence: accepted, seen, or below the window. -/
inductive SeqView where
  | fresh
  | seen
  | below
  deriving DecidableEq, Repr

/-- Judge a sequence against the window, modulo 2^32. -/
def seqView (q : Berth) (seq : W32) : SeqView :=
  match q.high with
  | none => .fresh
  | some hi =>
    if (seq - hi).toNat ≠ 0 && (seq - hi).toNat < 2 ^ 31 then .fresh
    else if (hi - seq).toNat ≥ 1024 then .below
    else if seq ∈ q.seen then .seen
    else .fresh

/-- Accept a sequence: the highest one becomes h, and the record keeps those within 1,024 of it. -/
def acceptSeq (q : Berth) (seq : W32) : Berth :=
  let hi := match q.high with
    | none => seq
    | some hi => if (seq - hi).toNat ≠ 0 && (seq - hi).toNat < 2 ^ 31 then seq else hi
  { q with high := some hi, seen := (seq :: q.seen).filter (fun x => (hi - x).toNat < 1024) }

/-! ### Intake (R409) -/

/-- Quay takes packets: the module serves, is awake, runs no orderly stop, and neither QUAY nor the port is in reset. -/
def intakeUp (s : State) (iface : Nat) : Bool :=
  s.rst.serving && !s.pwr.asleep && s.pwr.stopAt.isNone && s.sec.life ≠ 0 && !inReset s 0x18 && !inReset s (0x19 + iface / 2)

/-- The frame of an ECP packet arrives. The operands of a command do not give the length of its packet: its bytes are a free value
(log 46). -/
def frameIn (s : State) (i : Nat) : State := countFrame (useFree s) i false (Config.freeNat s.free)

/-- Seawall holds a key in a slot. -/
def keyLive (s : State) (n : Nat) : Bool :=
  match mget s.swl.slots n with
  | some k => k.state ≠ 0
  | none => false

/-- Step 7: auth set, the key epoch held in a live key slot, the salt right, the tag valid. -/
def authOk (s : State) (q : Berth) (h : EcpHdr) : Bool :=
  h.auth && h.tagOk &&
    ((h.keyEpoch = q.keyEpoch && h.ivSalt = q.hostSalt && keyLive s q.keySlot) ||
      (match q.nextKey with
        | some (e, n, salt) => h.keyEpoch = e && h.ivSalt = salt && keyLive s n
        | none => false))

/-- Zero a Seawall key slot and make it EMPTY. -/
def clearKeySlot (s : State) (n : Nat) : State := { s with swl := { s.swl with slots := mdel s.swl.slots n } }

/-- An authenticated command: the address and time of the latest one, and the first under a new key epoch retires the old slot
(R407, R425). -/
def noteCommand (s : State) (h : EcpHdr) : State :=
  let q := berthOf s h.berth
  let s := modBerth s h.berth fun q =>
    { q with iface := h.iface, peer := h.peer, lastCmd := s.lh.tick, authed := true }
  match q.nextKey with
  | some (e, slot, salt) =>
    if h.keyEpoch = e then
      modBerth (clearKeySlot s q.keySlot) h.berth fun q =>
        { q with keyEpoch := e, keySlot := slot, hostSalt := salt, nextKey := none, rekeyAsked := false }
    else s
  | none => s

/-- Send a kept answer again (R410, R411). -/
def resend (s : State) (h : EcpHdr) (op : Nat) (c : Cached) : State :=
  sendStatus s h.iface h.peer h.berth op h.seq c.status c.retry true c.detail c.data

/-- Steps 9 to 14 of R409: the first failure, if any. `cores` are the cores that the command is forwarded to. -/
def intakeCheck (s : State) (h : EcpHdr) (op : Nat) (cores : List Nat) : Option Ans :=
  let q := berthOf s h.berth
  if outOfService s && !servedOos op then some (.fin stOOS 0 [])
  else if h.plane ≠ planeOf op then some (.bad 0)
  else if unitAbsent s.variant op then some (.fin stABSENT 0 [])
  else if !rdb s CMD_CTL_run then some (.busy (busyTicks s))
  else if q.inflight.length ≥ 256 then some (.busy (busyTicks s))
  else if needsAdmin op && !q.admin then some (.fin stLOCKED 0 [])
  else if !quayOpcode op && !((2 + h.berth) :: cores).all (coreServes s) then some (.busy (busyTicks s))
  else if h.extra then some (.bad 0)
  else none

/-- Carry out an answer: BUSY leaves the window as it was, everything else marks the sequence as seen (R410, R412). -/
def conclude (t : State) (h : EcpHdr) (op : Nat) (a : Ans) : State :=
  match a with
  | .busy n => sendBusy t h op n
  | .fin st d data =>
    let t := count (modBerth t h.berth fun q => acceptSeq q h.seq) (0x1C00 + 0x10 * h.berth) 1
    sendStatus (keepStatus t h.berth op h.seq st d data) h.iface h.peer h.berth op h.seq st 0 true d data
  | .deferred =>
    let t := modBerth t h.berth fun q => { acceptSeq q h.seq with inflight := (h.seq, op) :: q.inflight }
    sendDeferred (count t (0x1C00 + 0x10 * h.berth) 1) h.berth op h.seq
  | .later =>
    let t := modBerth t h.berth fun q => { acceptSeq q h.seq with inflight := (h.seq, op) :: q.inflight }
    count t (0x1C00 + 0x10 * h.berth) 1

/-- A command past step 8: admitted and run, or refused by the first failing step. -/
def runAdmitted (s : State) (h : EcpHdr) (op : Nat) (cores : List Nat) (body : State → State × Ans) : State :=
  match intakeCheck s h op cores with
  | some a => conclude s h op a
  | none => conclude (body s).1 h op (body s).2

/-- A berth command's way through steps 2 to 8 of R409 and through R410; `run` is what follows. -/
def ecpSteps (s : State) (h : EcpHdr) (op : Nat) (run : State → State) : State :=
  if h.version ≠ 1 then unauthStatus (wrOr s CMD_IRQ_STAT_version 1) h op stVERSION 0 []
  else if h.berth ≥ 4 then discardPacket s
  else if s.sec.life = 4 then unauthStatus s h op stOOS 0 []
  else if h.epoch ≠ s.sec.epoch.toNat then unauthStatus s h op stSTALE 0 []
  else if (berthOf s h.berth).state ≠ 1 then unauthStatus s h op stSTALE 0 []
  else if !authOk s (berthOf s h.berth) h then
    unauthStatus (count (wrOr s CMD_IRQ_STAT_auth_fail 1) (0x1C03 + 0x10 * h.berth) 1) h op stAUTH 0 []
  else
    let s := noteCommand s h
    let q := berthOf s h.berth
    match seqView q h.seq with
    | .below => count s (0x1C05 + 0x10 * h.berth) 1
    | .fresh => run s
    | .seen =>
      let s := count s (0x1C04 + 0x10 * h.berth) 1
      if q.inflight.any (fun p => p.1 = h.seq) then s
      else match q.cache.find? (fun c => c.seq = h.seq) with
        | some c => resend s h op c
        | none =>
          match q.rekeyAns with
          | some (_, c) => if op = 0x0203 then resend s h op c else run s
          | none => run s

/-- A berth command of a packet that passes step 1. -/
def ecpWith (s : State) (h : EcpHdr) (op : Nat) (run : State → State) : State :=
  if !intakeUp s h.iface then s else ecpSteps (frameIn s h.iface) h op run

/-- A berth command. `body` is its own effect and answer, `cores` are the cores that it is forwarded to. -/
def ecpRun (s : State) (h : EcpHdr) (op : Nat) (cores : List Nat) (body : State → State × Ans) : State :=
  ecpWith s h op fun s => runAdmitted s h op cores body

end Sys2Proof.Machine
end

