-- ==== Sys2Proof/Machine/Float.lean ====
section
/-!
DEFINITION. Numbers on the Shelf (R68–R92): exact values, the four formats and FP64, rounding, arithmetic, comparisons, stochastic
rounding, the tree of R79, the dot products of R80 and R88, and Philox.
-/
namespace Sys2Proof.Machine
open Sys2Proof

/-- An exact value: NaN, an infinity, or sign · m · 2^e. -/
inductive Fl where
  | nan
  | inf (neg : Bool)
  | fin (neg : Bool) (m : Nat) (e : Int)
  deriving DecidableEq, Repr

/-- A binary format (R68): exponent bits, stored significand bits, bias, and whether it is E4M3, which has no infinity. -/
structure Fmt where
  ew   : Nat
  mw   : Nat
  bias : Nat
  e4m3 : Bool
  deriving DecidableEq, Repr

def fmtBF16 : Fmt := ⟨8, 7, 127, false⟩
def fmtFP32 : Fmt := ⟨8, 23, 127, false⟩
def fmtE4M3 : Fmt := ⟨4, 3, 7, true⟩
def fmtE5M2 : Fmt := ⟨5, 2, 15, false⟩
/-- The FP64 of the Almanac (R188). -/
def fmtFP64 : Fmt := ⟨11, 52, 1023, false⟩

/-- Format of a code (R38). -/
def fmtOf : Nat → Fmt
  | 0 => fmtBF16
  | 1 => fmtFP32
  | 2 => fmtE4M3
  | _ => fmtE5M2

/-- Bytes of an element of a format code. -/
def esz : Nat → Nat
  | 0 => 2
  | 1 => 4
  | _ => 1

/-- The value that an encoding stands for (R68, R69). -/
def decodeFl (f : Fmt) (w : Nat) : Fl :=
  let neg := bit w (f.ew + f.mw)
  let e := bits w (f.ew + f.mw - 1) f.mw
  let m := w % 2 ^ f.mw
  if f.e4m3 then
    if e = 15 && m = 7 then .nan
    else if e = 0 then .fin neg m (1 - f.bias - f.mw) else .fin neg (m + 2 ^ f.mw) (e - f.bias - f.mw)
  else if e = 2 ^ f.ew - 1 then (if m = 0 then .inf neg else .nan)
  else if e = 0 then .fin neg m (1 - f.bias - f.mw)
  else .fin neg (m + 2 ^ f.mw) (e - f.bias - f.mw)

/-- Canonical quiet NaN of a format (R70). -/
def nanBits (f : Fmt) : Nat := if f.e4m3 then 0x7F else (2 ^ f.ew - 1) * 2 ^ f.mw + 2 ^ (f.mw - 1)

/-- Encoding of an infinity, and of the largest finite value, without sign. -/
def infBits (f : Fmt) : Nat := if f.e4m3 then 0x7F else (2 ^ f.ew - 1) * 2 ^ f.mw
def maxBits (f : Fmt) : Nat := infBits f - 1

/-- m shifted right by k bits, rounded to nearest, ties to even (R74). -/
def rneShift (m k : Nat) : Nat :=
  let q := m >>> k
  let r := m % 2 ^ k
  if k = 0 then m else if 2 * r > 2 ^ k then q + 1 else if 2 * r < 2 ^ k then q else q + q % 2

/-- Magnitude encoding of a finite non-zero value, rounded by R74; it may run past the largest finite encoding. -/
def roundMag (f : Fmt) (m : Nat) (e : Int) : Nat :=
  let top : Int := Nat.log2 m + e
  let emin : Int := 1 - f.bias
  let q : Int := max top emin - f.mw
  let n := if e ≥ q then m <<< (e - q).toNat else rneShift m (q - e).toNat
  ((q + f.mw + f.bias).toNat) * 2 ^ f.mw + n - 2 ^ f.mw

/-- Round a value to a format, overflowing by R76. -/
def encodeFl (f : Fmt) (sat : Bool) (v : Fl) : Nat :=
  let sgn (neg : Bool) := if neg then 2 ^ (f.ew + f.mw) else 0
  let ovf (neg : Bool) :=
    if sat && f.mw < 4 then sgn neg + maxBits f else if f.e4m3 then nanBits f else sgn neg + infBits f
  match v with
  | .nan => nanBits f
  | .inf neg => ovf neg
  | .fin neg m e =>
    if m = 0 then sgn neg
    else
      let b := roundMag f m e
      if b ≥ infBits f then ovf neg else sgn neg + b

/-- FP32 bits of a value. -/
def f32 (v : Fl) : W32 := BitVec.ofNat 32 (encodeFl fmtFP32 false v)

/-- The value of FP32 bits. -/
def v32 (w : W32) : Fl := decodeFl fmtFP32 w.toNat

/-- FP32 bits of an element of a format code: exact (R75). -/
def widen (code : Nat) (w : Nat) : W32 := if code = 1 then BitVec.ofNat 32 w else f32 (decodeFl (fmtOf code) w)

/-- Cast of an FP32 value to a format code (R75, R76). -/
def castTo (code : Nat) (sat : Bool) (w : W32) : Nat := encodeFl (fmtOf code) sat (v32 w)

/-! ### Exact arithmetic (R71) -/

/-- Signed integer of a finite value at a common exponent. -/
def signedAt (neg : Bool) (m : Nat) (e lo : Int) : Int :=
  let x : Int := (m <<< (e - lo).toNat : Nat)
  if neg then -x else x

/-- Sum of two values, exact. -/
def addFl : Fl → Fl → Fl
  | .nan, _ => .nan
  | _, .nan => .nan
  | .inf a, .inf b => if a = b then .inf a else .nan
  | .inf a, _ => .inf a
  | _, .inf b => .inf b
  | .fin sa ma ea, .fin sb mb eb =>
    let lo := min ea eb
    let x := signedAt sa ma ea lo + signedAt sb mb eb lo
    if x = 0 then (if ma = 0 && mb = 0 then .fin (sa && sb) 0 0 else .fin false 0 0) else .fin (x < 0) x.natAbs lo

/-- Negation. -/
def negFl : Fl → Fl
  | .nan => .nan
  | .inf s => .inf (!s)
  | .fin s m e => .fin (!s) m e

/-- Product of two values, exact. -/
def mulFl : Fl → Fl → Fl
  | .nan, _ => .nan
  | _, .nan => .nan
  | .inf a, .inf b => .inf (a ^^ b)
  | .inf a, .fin b m _ => if m = 0 then .nan else .inf (a ^^ b)
  | .fin a m _, .inf b => if m = 0 then .nan else .inf (a ^^ b)
  | .fin a m e, .fin b n g => .fin (a ^^ b) (m * n) (e + g)

/-- Quotient of two values to `p` bits with a sticky bit below them: it rounds as the exact quotient does in a format of at most
p − 2 significand bits. -/
def divFl (p : Nat) : Fl → Fl → Fl
  | .nan, _ => .nan
  | _, .nan => .nan
  | .inf _, .inf _ => .nan
  | .inf a, .fin b _ _ => .inf (a ^^ b)
  | .fin a _ _, .inf b => .fin (a ^^ b) 0 0
  | .fin a m e, .fin b n g =>
    if n = 0 then (if m = 0 then .nan else .inf (a ^^ b))
    else if m = 0 then .fin (a ^^ b) 0 0
    else
      let k := p + Nat.log2 n + 1
      let q := (m <<< k) / n
      let r := (m <<< k) % n
      .fin (a ^^ b) (2 * q + (if r = 0 then 0 else 1)) (e - g - k - 1)

/-- Square root to `p` bits with a sticky bit; of a negative value NaN, of −0 −0. -/
def sqrtFl (p : Nat) : Fl → Fl
  | .nan => .nan
  | .inf s => if s then .nan else .inf false
  | .fin s m e =>
    if m = 0 then .fin s 0 0
    else if s then .nan
    else
      let odd : Nat := if e % 2 = 0 then 0 else 1
      let x := m <<< (2 * p + odd)
      let q := Nat.sqrt x
      .fin false (2 * q + (if q * q = x then 0 else 1)) ((e - odd) / 2 - p - 1)

/-- Order of two values that are not NaN: −1, 0 or 1; +0 and −0 compare equal (R73). -/
def cmpFl : Fl → Fl → Int
  | .nan, _ => 0
  | _, .nan => 0
  | .inf a, .inf b => if a = b then 0 else if a then -1 else 1
  | .inf a, _ => if a then -1 else 1
  | _, .inf b => if b then 1 else -1
  | .fin sa ma ea, .fin sb mb eb =>
    let lo := min ea eb
    let x := signedAt sa ma ea lo - signedAt sb mb eb lo
    if x < 0 then -1 else if x = 0 then 0 else 1

/-! ### FP32 operations, each rounded by R74 -/

def fadd (a b : W32) : W32 := f32 (addFl (v32 a) (v32 b))
def fneg (a : W32) : W32 := if v32 a = .nan then BitVec.ofNat 32 (nanBits fmtFP32) else a ^^^ 0x80000000#32
def fsub (a b : W32) : W32 := f32 (addFl (v32 a) (negFl (v32 b)))
def fmul (a b : W32) : W32 := f32 (mulFl (v32 a) (v32 b))
def fdiv (a b : W32) : W32 := f32 (divFl 40 (v32 a) (v32 b))
def fsqrt (a : W32) : W32 := f32 (sqrtFl 40 (v32 a))
def fabs (a : W32) : W32 := if v32 a = .nan then BitVec.ofNat 32 (nanBits fmtFP32) else a &&& 0x7FFFFFFF#32

def isNan (a : W32) : Bool := v32 a = .nan
def isFinite (a : W32) : Bool :=
  match v32 a with
  | .fin _ _ _ => true
  | _ => false

/-- FP32 constants. -/
def nan32 : W32 := 0x7FC00000#32
def one32 : W32 := 0x3F800000#32

/-- FP32 of an integer and of an integer times a power of two. -/
def f32Nat (n : Nat) : W32 := f32 (.fin false n 0)
def f32Scaled (n : Nat) (e : Int) : W32 := f32 (.fin false n e)

/-- Comparisons of R73: LT and LE by value, false when unordered. -/
def flt (a b : W32) : Bool := !isNan a && !isNan b && cmpFl (v32 a) (v32 b) < 0
def fle (a b : W32) : Bool := !isNan a && !isNan b && cmpFl (v32 a) (v32 b) ≤ 0
def feq (a b : W32) : Bool := !isNan a && !isNan b && cmpFl (v32 a) (v32 b) = 0
/-- NE is true when the values are not equal, and when either is NaN (R73). -/
def fne (a b : W32) : Bool := !feq a b

/-- MAX and MIN of R72. -/
def fmax (a b : W32) : W32 :=
  if isNan a || isNan b then nan32
  else if cmpFl (v32 a) (v32 b) = 0 then (if a = 0x80000000#32 then b else a)
  else if flt a b then b else a
def fmin (a b : W32) : W32 :=
  if isNan a || isNan b then nan32
  else if cmpFl (v32 a) (v32 b) = 0 then (if a = 0x80000000#32 then a else b)
  else if flt a b then a else b

/-- Every value of a list is finite. -/
def allFinite (l : List W32) : Bool := l.all isFinite

/-! ### Stochastic rounding (R78) -/

/-- FP32 to BF16 with 16 random bits. -/
def srBf16 (x : W32) (r : Nat) : Nat :=
  if isNan x then 0x7FC0
  else if !isFinite x then x.toNat / 65536
  else
    let u := x.toNat % 2 ^ 31 + r % 65536
    (x.toNat / 65536) / 32768 * 32768 + u / 65536

/-! ### The tree of R79 -/

/-- Combine two slots; an absent slot leaves the other. -/
def comb (op : W32 → W32 → W32) : Option W32 → Option W32 → Option W32
  | none, b => b
  | a, none => a
  | some a, some b => some (op a b)

/-- One level: neighbours combined. -/
def treeLevel (op : W32 → W32 → W32) : List (Option W32) → List (Option W32)
  | a :: b :: l => comb op a b :: treeLevel op l
  | l => l

/-- `n` levels. -/
def treeLevels (op : W32 → W32 → W32) : Nat → List (Option W32) → List (Option W32)
  | 0, l => l
  | n + 1, l => treeLevels op n (treeLevel op l)

/-- Tree combination of 2^n slots; absent when every slot is. -/
def tree (op : W32 → W32 → W32) (n : Nat) (l : List (Option W32)) : Option W32 :=
  match treeLevels op n (l ++ List.replicate (2 ^ n - l.length) none) with
  | v :: _ => v
  | [] => none

/-! ### Dot products (R80, R88) -/

/-- Native dot product of `k` terms after an initial value (R80). -/
def dotNative (a b : Nat → W32) (k : Nat) (init : Option W32) : Option W32 :=
  (List.range (cdiv k 64)).foldl (fun acc kb =>
    comb fadd acc (tree fadd 6 ((List.range 64).map fun j =>
      if 64 * kb + j < k then some (fmul (a (64 * kb + j)) (b (64 * kb + j))) else none))) init

/-- FP32 bits of a value rounded to BF16. -/
def rneBf16 (a : W32) : W32 := widen 0 (castTo 0 false a)

/-- The pieces hi, mid and lo of an FP32 operand (R86), as FP32 bits; an absent piece is none. -/
def splitPiece (x : W32) (i : Nat) : Option W32 :=
  if !isFinite x then (if i = 0 then some (rneBf16 x) else none)
  else
    let h := rneBf16 x
    let hi := if isFinite h then h else x &&& 0xFFFF0000#32
    let r1 := fsub x hi
    let mid := rneBf16 r1
    let lo := rneBf16 (fsub r1 mid)
    match i with
    | 0 => some hi
    | 1 => if mid.toNat % 2 ^ 31 = 0 then none else some mid
    | _ => if lo.toNat % 2 ^ 31 = 0 then none else some lo

/-- Passes of a split mode in combination order (R87): pieces of A and B, 0 hi, 1 mid, 2 lo. -/
def splitPasses (prec : Nat) : List (Nat × Nat) :=
  if prec = 1 then [(1, 0), (0, 1), (0, 0)] else [(2, 0), (0, 2), (1, 1), (1, 0), (0, 1), (0, 0)]

/-- One product of a split pass: both pieces present, and only hi·hi for a non-finite operand (R88). -/
def splitTerm (x y : W32) (p : Nat × Nat) : Option W32 :=
  if (!isFinite x || !isFinite y) && p ≠ (0, 0) then none
  else match splitPiece x p.1, splitPiece y p.2 with
    | some u, some v => some (fmul u v)
    | _, _ => none

/-- Split-mode dot product (R88). -/
def dotSplit (prec : Nat) (a b : Nat → W32) (k : Nat) (init : Option W32) : Option W32 :=
  (List.range (cdiv k 64)).foldl (fun acc kb =>
    let blk := (splitPasses prec).foldl (fun s p =>
      comb fadd s (tree fadd 6 ((List.range 64).map fun j =>
        if 64 * kb + j < k then splitTerm (a (64 * kb + j)) (b (64 * kb + j)) p else none))) none
    comb fadd acc blk) init

/-- Dot product in a precision mode: 0 native, 1 BF16x2, 2 BF16x3; +0 when no term is present. -/
def dot (prec : Nat) (a b : Nat → W32) (k : Nat) (init : Option W32) : W32 :=
  ((if prec = 0 then dotNative a b k init else dotSplit prec a b k init)).getD 0

/-- Sum of values in blocks of 64, each by the tree, the blocks left to right (R82). -/
def reduce64 (op : W32 → W32 → W32) (l : List W32) : Option W32 :=
  (chunks 64 l).foldl (fun acc blk => comb op acc (tree op 6 (blk.map some))) none

/-! ### Philox (R90–R92) -/

/-- One round. -/
def philoxRound (c : W32 × W32 × W32 × W32) (k0 k1 : W32) : W32 × W32 × W32 × W32 :=
  let p0 := 0xD2511F53 * c.1.toNat
  let p1 := 0xCD9E8D57 * c.2.2.1.toNat
  (BitVec.ofNat 32 (p1 / 2 ^ 32) ^^^ c.2.1 ^^^ k0, BitVec.ofNat 32 p1, BitVec.ofNat 32 (p0 / 2 ^ 32) ^^^ c.2.2.2 ^^^ k1,
    BitVec.ofNat 32 p0)

/-- `n` rounds. -/
def philoxRounds : Nat → W32 × W32 × W32 × W32 → W32 → W32 → W32 × W32 × W32 × W32
  | 0, c, _, _ => c
  | n + 1, c, k0, k1 => philoxRounds n (philoxRound c k0 k1) (k0 + 0x9E3779B9#32) (k1 + 0xBB67AE85#32)

/-- Philox4x32-10 (R90). -/
def philox (c0 c1 c2 c3 k0 k1 : W32) : W32 × W32 × W32 × W32 := philoxRounds 10 (c0, c1, c2, c3) k0 k1

/-- Word `i` of an output. -/
def philoxWord (o : W32 × W32 × W32 × W32) (i : Nat) : W32 :=
  match i with
  | 0 => o.1
  | 1 => o.2.1
  | 2 => o.2.2.1
  | _ => o.2.2.2

/-- The 16-bit value of lane `j` (R92). -/
def philoxLane (o : W32 × W32 × W32 × W32) (j : Nat) : Nat :=
  let w := (philoxWord o (j / 2)).toNat
  if j % 2 = 0 then w % 65536 else w / 65536

/-- Random bits of a dropout element (R51, R92). -/
def dropBits (seed step : W64) (stream index : Nat) : Nat :=
  let g := index / 8
  philoxLane (philox (BitVec.ofNat 32 g) (BitVec.ofNat 32 (g / 2 ^ 32 % 256)) (BitVec.ofNat 32 step.toNat)
    (BitVec.ofNat 32 stream) (BitVec.ofNat 32 seed.toNat) (BitVec.ofNat 32 (seed.toNat / 2 ^ 32))) (index % 8)

/-- Random bits of the stochastic rounding of a parameter (R78, R92). -/
def srBits (seed step : W64) (index : Nat) : Nat :=
  let g := index / 8
  philoxLane (philox (BitVec.ofNat 32 g) (BitVec.ofNat 32 (0x80000000 + g / 2 ^ 32 % 2048)) (BitVec.ofNat 32 step.toNat) 0
    (BitVec.ofNat 32 seed.toNat) (BitVec.ofNat 32 (seed.toNat / 2 ^ 32))) (index % 8)

end Sys2Proof.Machine
end

