-- ==== Sys2Proof/Machine/Desc.lean ====
section
/-!
DEFINITION. The byte layouts of descriptors: operation (R37), collective (R280), factor slot (R127), shard (R164), Almanac channel
(R186), group entry (R277), and the tensor handle (R206). Each is read from its bytes into named fields.
-/
namespace Sys2Proof.Machine
open Sys2Proof

/-! ### Handles (R206) -/

/-- A tensor handle as a number. -/
abbrev Hdl := BitVec 48

def hBerth (h : Hdl) : Nat := bits h.toNat 47 46
def hObj (h : Hdl) : Nat := bits h.toNat 45 16
def hView (h : Hdl) : Nat := bits h.toNat 15 0

/-- The handle of an object, with view 0. -/
def mkHandle (b obj : Nat) : Hdl := BitVec.ofNat 48 (b * 2 ^ 46 + obj * 2 ^ 16)

/-- A handle field of a structure. -/
def fldH (d : List Byte) (o : Nat) : Hdl := BitVec.ofNat 48 (fld d o 6)

/-- A 32-bit field of a structure. -/
def fldW (d : List Byte) (o : Nat) : W32 := BitVec.ofNat 32 (fld d o 4)

/-! ### Operation descriptors (R37) -/

/-- The fields of an operation descriptor. -/
structure Op where
  opcode : Nat
  layerLast : Bool
  event : Bool
  census : Bool
  layer : Nat
  seq : W32
  ha : Hdl
  hb : Hdl
  hc : Hdl
  hd : Hdl
  m : Nat
  n : Nat
  k : Nat
  batch : Nat
  pack : Nat
  prec : Nat
  fa : Nat
  fb : Nat
  fc : Nat
  fd : Nat
  turnA : Bool
  turnB : Bool
  blkA : Bool
  blkB : Bool
  blkC : Bool
  blkD : Bool
  ldA : Nat
  ldB : Nat
  ldCD : Nat
  maskMode : Nat
  hmask : Hdl
  tapSel : Nat
  tapKind : Nat
  tapSlot : Nat
  stream : Nat
  epScale : Bool
  epAddc : Bool
  epBias : Bool
  biasRow : Bool
  act : Nat
  epDrop : Bool
  sat : Bool
  reduce : Nat
  alpha : W32
  beta : W32
  hbias : Hdl
  keep : Nat
  waitSlot : Nat
  waitCount : Nat
  sigSlot : Nat
  sigEn : Bool
  /-- Some reserved field is not 0. -/
  rsv : Bool
  deriving DecidableEq, Repr

/-- Read an operation descriptor (R37). -/
def parseOp (d : List Byte) : Op :=
  let b (o hi lo : Nat) : Nat := fldBits d o 1 hi lo
  let w (o hi lo : Nat) : Nat := fldBits d o 2 hi lo
  let q (o hi lo : Nat) : Nat := fldBits d o 4 hi lo
  { opcode := b 0 7 0, layerLast := b 1 0 0 ≠ 0, event := b 1 1 1 ≠ 0, census := b 1 2 2 ≠ 0, layer := fld d 2 2, seq := fldW d 4,
    ha := fldH d 8, hb := fldH d 14, hc := fldH d 20, hd := fldH d 26, m := fld d 32 4, n := fld d 36 4, k := fld d 40 4,
    batch := fld d 44 2, pack := b 46 1 0, prec := b 47 1 0, fa := b 48 3 0, fb := b 48 7 4, fc := b 49 3 0, fd := b 49 7 4,
    turnA := b 50 0 0 ≠ 0, turnB := b 50 1 1 ≠ 0, blkA := b 50 4 4 ≠ 0, blkB := b 50 5 5 ≠ 0, blkC := b 50 6 6 ≠ 0,
    blkD := b 50 7 7 ≠ 0, ldA := fld d 52 4, ldB := fld d 56 4, ldCD := fld d 60 4, maskMode := b 64 1 0, hmask := fldH d 66,
    tapSel := w 72 1 0, tapKind := w 72 2 2, tapSlot := w 72 15 4, stream := fld d 76 4, epScale := w 80 0 0 ≠ 0,
    epAddc := w 80 1 1 ≠ 0, epBias := w 80 2 2 ≠ 0, biasRow := w 80 3 3 ≠ 0, act := w 80 7 4, epDrop := w 80 8 8 ≠ 0,
    sat := w 80 9 9 ≠ 0, reduce := b 82 1 0, alpha := fldW d 84, beta := fldW d 88, hbias := fldH d 92, keep := fld d 98 2,
    waitSlot := q 100 9 0, waitCount := q 100 31 16, sigSlot := q 104 9 0, sigEn := q 104 31 31 ≠ 0,
    rsv := b 1 7 3 ≠ 0 || b 46 7 2 ≠ 0 || b 47 7 2 ≠ 0 || b 50 3 2 ≠ 0 || b 51 7 0 ≠ 0 || b 64 7 2 ≠ 0 || b 65 7 0 ≠ 0
      || w 72 3 3 ≠ 0 || fld d 74 2 ≠ 0 || w 80 15 10 ≠ 0 || b 82 7 2 ≠ 0 || b 83 7 0 ≠ 0 || q 100 15 10 ≠ 0
      || q 104 30 10 ≠ 0 || fld d 108 20 ≠ 0 }

/-- The handles that an opcode uses (R39, R592), in the descriptor's order. -/
def opHandles (o : Op) : List Hdl :=
  let ep : List Hdl := if o.epBias then [o.hbias] else []
  let mask : List Hdl := if o.maskMode ≠ 0 then [o.hmask] else []
  let addc : List Hdl := if o.epAddc then [o.hc] else []
  match o.opcode with
  | 0x01 => [o.ha, o.hb] ++ addc ++ [o.hd] ++ mask ++ ep
  | 0x02 => [o.ha, o.hb, o.hd] ++ mask
  | 0x08 => [o.ha] ++ addc ++ [o.hd] ++ mask ++ ep
  | 0x09 => [o.ha, o.hd] ++ mask
  | _ => []

/-! ### Collective descriptors (R280) -/

/-- The fields of a collective descriptor. -/
structure CollD where
  op : Nat
  chan : Nat
  red : Nat
  onTrig : Bool
  sigEn : Bool
  event : Bool
  group : Nat
  fin : Nat
  fout : Nat
  shard : Bool
  layer : Nat
  src : Hdl
  dst : Hdl
  count : Nat
  root : Nat
  waitSlot : Nat
  waitCount : Nat
  sigSlot : Nat
  seq : W32
  rsv : Bool
  deriving DecidableEq, Repr

/-- Read a collective descriptor (R280). -/
def parseColl (d : List Byte) : CollD :=
  let b (o hi lo : Nat) : Nat := fldBits d o 1 hi lo
  let q (o hi lo : Nat) : Nat := fldBits d o 4 hi lo
  { op := b 0 3 0, chan := b 0 7 4, red := b 1 1 0, onTrig := b 1 2 2 ≠ 0, sigEn := b 1 3 3 ≠ 0, event := b 1 4 4 ≠ 0,
    group := fld d 2 2, fin := b 4 3 0, fout := b 4 7 4, shard := b 5 0 0 ≠ 0, layer := fld d 6 2, src := fldH d 8,
    dst := fldH d 14, count := fldBits d 20 8 41 0, root := q 28 16 0, waitSlot := q 32 9 0, waitCount := q 32 31 16,
    sigSlot := q 36 9 0, seq := fldW d 40,
    rsv := b 1 7 5 ≠ 0 || b 5 7 1 ≠ 0 || fldBits d 20 8 63 42 ≠ 0 || q 28 31 17 ≠ 0 || q 32 15 10 ≠ 0 || q 36 31 10 ≠ 0
      || fld d 44 20 ≠ 0 }

/-! ### Factor-slot descriptors (R127) -/

/-- The fields of a factor-slot descriptor. -/
structure FsD where
  kind : Nat
  owner : Bool
  harbour : Bool
  dampRel : Bool
  op : Nat
  pCode : Nat
  shift : Nat
  layer : Nat
  d : Nat
  bCode : Nat
  lamChan : Nat
  group : Nat
  beta : W32
  scale : W32
  hf : Hdl
  hp : Hdl
  hash : W64
  rsv : Bool
  deriving DecidableEq, Repr

/-- Read a factor-slot descriptor (R127). -/
def parseFs (d : List Byte) : FsD :=
  let b (o hi lo : Nat) : Nat := fldBits d o 1 hi lo
  { kind := b 0 1 0, owner := b 0 2 2 ≠ 0, harbour := b 0 3 3 ≠ 0, dampRel := b 0 4 4 ≠ 0, op := b 1 1 0, pCode := b 1 3 2,
    shift := b 1 6 4, layer := fld d 2 2, d := fld d 4 4, bCode := b 8 2 0, lamChan := fld d 9 1, group := fld d 10 2,
    beta := fldW d 12, scale := fldW d 16, hf := fldH d 20, hp := fldH d 26, hash := BitVec.ofNat 64 (fld d 32 8),
    rsv := b 0 7 5 ≠ 0 || b 1 7 7 ≠ 0 || b 8 7 3 ≠ 0 || fld d 40 24 ≠ 0 }

/-- Block size b, number of blocks and size of block u (R127, R128). -/
def FsD.b (f : FsD) : Nat := 512 * 2 ^ f.bCode
def FsD.nb (f : FsD) : Nat := cdiv f.d f.b
def FsD.e (f : FsD) (u : Nat) : Nat := if u + 1 < f.nb then f.b else f.d - u * f.b

/-- Side of a block in the blocked layout, padded to whole 64 × 64 blocks (R106). -/
def FsD.pe (f : FsD) (u : Nat) : Nat := 64 * cdiv (f.e u) 64

/-- Stored elements of the blocks before block u, and of all blocks (R129). -/
def FsD.before (f : FsD) (u : Nat) : Nat := ((List.range u).map fun v => f.pe v * f.pe v).sum
def FsD.elems (f : FsD) : Nat := f.before f.nb

/-! ### Shard descriptors (R164) -/

/-- The fields of a shard descriptor. -/
structure ShD where
  cls : Nat
  rule : Nat
  wide : Bool
  m2 : Nat
  prec : Nat
  nesterov : Bool
  graft : Bool
  layer : Nat
  prog : Nat
  lrChan : Nat
  wdChan : Nat
  momChan : Nat
  base : Nat
  slotL : Nat
  rows : Nat
  cols : Nat
  ha : Hdl
  hb : Hdl
  hg : Hdl
  slotR : Nat
  p0 : W32
  p1 : W32
  p2 : W32
  p3 : W32
  p4 : W32
  rsv : Bool
  deriving DecidableEq, Repr

/-- Read a shard descriptor (R164). -/
def parseSh (d : List Byte) : ShD :=
  let b (o hi lo : Nat) : Nat := fldBits d o 1 hi lo
  { cls := b 0 1 0, rule := b 0 4 2, wide := b 0 5 5 ≠ 0, m2 := b 1 1 0, prec := b 1 3 2, nesterov := b 1 4 4 ≠ 0,
    graft := b 1 5 5 ≠ 0, layer := fld d 2 2, prog := b 4 4 0, lrChan := fld d 5 1, wdChan := fld d 6 1, momChan := fld d 7 1,
    base := fldBits d 8 6 45 0, slotL := fldBits d 14 2 11 0, rows := fld d 16 4, cols := fld d 20 4, ha := fldH d 24,
    hb := fldH d 30, hg := fldH d 36, slotR := fldBits d 42 2 11 0, p0 := fldW d 44, p1 := fldW d 48, p2 := fldW d 52,
    p3 := fldW d 56, p4 := fldW d 60,
    rsv := b 0 7 6 ≠ 0 || b 1 7 6 ≠ 0 || b 4 7 5 ≠ 0 || fldBits d 8 6 47 46 ≠ 0 || fldBits d 14 2 15 12 ≠ 0
      || fldBits d 42 2 15 12 ≠ 0 }

/-- Elements of a shard. -/
def ShD.size (d : ShD) : Nat := d.rows * d.cols

/-- Offsets in a version slot (R166): header at 0, master, momentum, second moment, and the whole length. -/
def ShD.momOff (d : ShD) : Nat := 64 + 64 * cdiv (4 * d.size) 64
def ShD.secOff (d : ShD) : Nat := d.momOff + 64 * cdiv (4 * d.size) 64
def ShD.slotLen (d : ShD) : Nat :=
  match d.m2 with
  | 1 => d.secOff + d.rows * cdiv d.cols 64 * 36
  | 2 => d.secOff + 4 * (d.rows + d.cols + 1)
  | _ => d.momOff + 4 * d.size

/-! ### Almanac channels (R186) and group entries (R277) -/

/-- The fields of a channel descriptor. -/
structure ChD where
  form : Nat
  integer : Bool
  enabled : Bool
  base : W32
  peak : W32
  final : W32
  w : Nat
  h : Nat
  d : Nat
  aux : W32
  rsv : Bool
  deriving DecidableEq, Repr

/-- Read a channel descriptor (R186). -/
def parseCh (d : List Byte) : ChD :=
  let b (o hi lo : Nat) : Nat := fldBits d o 1 hi lo
  { form := b 0 3 0, integer := b 0 4 4 ≠ 0, enabled := b 0 5 5 ≠ 0, base := fldW d 4, peak := fldW d 8, final := fldW d 12,
    w := fld d 16 4, h := fld d 20 4, d := fld d 24 4, aux := fldW d 28, rsv := b 0 7 6 ≠ 0 || fld d 1 3 ≠ 0 }

/-- The fields of a group entry. -/
structure GrpD where
  axis : Nat
  plan : Nat
  staged : Bool
  berth : Nat
  group : Nat
  size : Nat
  rank : Nat
  epoch : Nat
  timeout : Nat
  members : Hdl
  rsv : Bool
  deriving DecidableEq, Repr

/-- Read a group entry (R277). -/
def parseGrp (d : List Byte) : GrpD :=
  let b (o hi lo : Nat) : Nat := fldBits d o 1 hi lo
  { axis := b 0 2 0, plan := b 0 4 3, staged := b 0 5 5 ≠ 0, berth := b 1 1 0, group := fld d 2 2, size := fldBits d 4 4 17 0,
    rank := fldBits d 8 4 16 0, epoch := fld d 12 2, timeout := fld d 14 2, members := fldH d 16,
    rsv := b 0 7 6 ≠ 0 || b 1 7 2 ≠ 0 || fldBits d 4 4 31 18 ≠ 0 || fldBits d 8 4 31 17 ≠ 0 || fld d 22 42 ≠ 0 }

end Sys2Proof.Machine
end

