-- ==== Sys2Proof/Machine/Mem.lean ====
section
/-!
DEFINITION. Objects, pages and bytes (R201–R212, R224–R229): object lookup, where a page stands, page counts against quotas,
reading and writing bytes, uncorrectable errors, allocation and release.
-/
namespace Sys2Proof.Machine
open Sys2Proof

/-! ### Objects and addresses (R206) -/

/-- Bytes of a page (R201). -/
def pageSize : Nat := 2 ^ 21

/-- Key of an object in the object table. -/
def okey (b o : Nat) : Nat := b * 2 ^ 30 + o

/-- Byte address of the start of an object. -/
def objBase (b o : Nat) : Nat := okey b o * 2 ^ 43

/-- Byte address of the first byte that a handle names. -/
def addrOf (h : Hdl) : Nat := objBase (hBerth h) (hObj h) + hView h * pageSize

/-- The object of a berth and number. -/
def objAt (s : State) (b o : Nat) : Option Obj := mget s.mem.objects (okey b o)

/-- The object that a handle names. -/
def objOf (s : State) (h : Hdl) : Option Obj := objAt s (hBerth h) (hObj h)

/-- Change the memory structure. -/
def modMem (s : State) (f : Memory → Memory) : State := { s with mem := f s.mem }

/-- Change an object. -/
def modObj (s : State) (b o : Nat) (f : Obj → Obj) : State :=
  modMem s fun m => { m with objects := mmod m.objects (okey b o) f }

/-- The handle's object is allocated to the berth, no free of it has been accepted, and the view lies in it (R206, R210). -/
def allocated (s : State) (b : Nat) (h : Hdl) : Bool :=
  match objOf s h with
  | some o => hBerth h = b && !o.freeing && hView h < o.pages
  | none => false

/-- Bytes from the view's first page to the object's end (R206). -/
def extent (s : State) (h : Hdl) : Nat :=
  match objOf s h with
  | some o => (o.pages - hView h) * pageSize
  | none => 0

/-- The object's use stamp becomes the newest (R215). -/
def touch (s : State) (h : Hdl) : State :=
  let s := modMem s fun m => { m with clock := m.clock + 1 }
  modObj s (hBerth h) (hObj h) fun o => { o with lastUse := s.mem.clock }

/-! ### Where a page stands (R212) -/

/-- The place of a page of an object. -/
def pageLoc (o : Obj) (p : Nat) : PageLoc := (mget o.moved p).getD ⟨o.tier, 0⟩

/-- Give a page a place. -/
def setLoc (o : Obj) (p : Nat) (l : PageLoc) : Obj :=
  { o with moved := if l.tier = o.tier && o.tier ≠ 3 then mdel o.moved p else mset o.moved p l }

/-- Channel n of the DDR5 tier is lost (R223). -/
def chanLost (s : State) (n : Nat) : Bool := bit (rd s DDR_STAT_lost) n

/-- A page of the object stands on a lost channel. -/
def lostPage (s : State) (o : Obj) : Bool := o.moved.any fun p => p.2.tier = 3 && chanLost s p.2.channel

/-- The handle's object is dropped (R212), or treated as dropped: it has a lost page and a recompute segment (R223). -/
def isDropped (s : State) (h : Hdl) : Bool :=
  match objOf s h with
  | some o => o.dropped || (!o.segment.isEmpty && lostPage s o)
  | none => false

/-- The tier of the byte at an address: 0 when no object holds it. -/
def tierAt (s : State) (a : Nat) : Nat :=
  match mget s.mem.objects (a / 2 ^ 43) with
  | some o => (pageLoc o (a % 2 ^ 43 / pageSize)).tier
  | none => 0

/-- Channel of the byte at an address. -/
def chanAt (s : State) (a : Nat) : Nat :=
  match mget s.mem.objects (a / 2 ^ 43) with
  | some o => (pageLoc o (a % 2 ^ 43 / pageSize)).channel
  | none => 0

/-- Pages that a range of `n` bytes at an address touches, as page addresses. -/
def pagesOf (a n : Nat) : List Nat :=
  if n = 0 then [] else (rangeFrom (a / pageSize) (cdiv (a % pageSize + n) pageSize)).map (· * pageSize)

/-! ### Page counts (R205, R208, R211) -/

/-- Pages of an object in a tier. -/
def tierPages (t : Nat) (o : Obj) : Nat :=
  if o.dropped then 0
  else (o.moved.filter (fun p => p.2.tier = t)).length + (if o.tier = t then o.pages - o.moved.length else 0)

/-- The objects of a berth, key and object. -/
def objsOf (s : State) (b : Nat) : NMap Obj := s.mem.objects.filter (fun p => p.1 / 2 ^ 30 = b)

/-- Pages that the stores of a berth's Offshore session hold in a tier (R347). -/
def storePages (s : State) (b t : Nat) : Nat :=
  match fget s.ofs.sessions b with
  | some x => if t = 2 then x.storeT2 else if t = 3 then (x.storeT3.map (·.2)).sum else 0
  | none => 0

/-- Store pages on a DDR5 channel. -/
def storeChan (s : State) (ch : Nat) : Nat :=
  (berths.map fun b => match fget s.ofs.sessions b with
    | some x => mgetD x.storeT3 ch 0
    | none => 0).sum

/-- Pages of a berth's objects in a tier, with its stores and those that a move in flight will take. -/
def usedPages (s : State) (b t : Nat) : Nat :=
  storePages s b t +
  ((objsOf s b).map fun p => tierPages t p.2).sum
    + (s.mem.moves.filter fun m => m.berth = b && ((t = 2 && m.kind ≠ 1) || (t = 3 && m.kind = 1))).length

/-- Staged bytes of an entry in blocked layout (R132). -/
def stageBytes (st : Stage) : Nat :=
  let cols := match st.rows with
    | r :: _ => r.length
    | [] => 0
  64 * cdiv st.rows.length 64 * (64 * cdiv cols 64) * (if st.wide then 4 else 2)

/-- Staged bytes of a berth. -/
def stagedBytes (s : State) (b : Nat) : Nat := ((s.snd.stages.filter (fun x => x.berth = b)).map stageBytes).sum

/-- Held result pages of a berth in its partition, and spilled ones (R219). -/
def heldCount (s : State) (b : Nat) : Nat := (s.mem.held.filter (fun h => h.berth = b && !h.spilled)).length
def spillCount (s : State) (b : Nat) : Nat := (s.mem.held.filter (fun h => h.berth = b && h.spilled)).length

/-- Partition pages that a berth uses (R205). -/
def partUsed (s : State) (b : Nat) : Nat := usedPages s b 1 + cdiv (stagedBytes s b) pageSize + heldCount s b

/-- Freed pages of a tier that are not yet zeroed (R209); channel only for T3. -/
def dirtyPages (s : State) (t ch : Nat) : Nat :=
  ((s.mem.zeroing.filter (fun z => z.1 = t && z.2.1 = ch)).map fun z => z.2.2).sum

/-- Free partition pages of a berth that are zeroed (R205, R209). -/
def freeT1 (s : State) (b : Nat) : Nat :=
  min (rd s (HBR_PART_pages.at b) - partUsed s b) (288 - (berths.map (partUsed s)).sum - dirtyPages s 1 0)

/-- T2 pages that a berth's quota leaves, its spill reserve taken out (R208, R211). -/
def quotaT2 (s : State) (b : Nat) : Nat :=
  rd s (PGR_T2_QUOTA_pages.at b) - rd s (PGR_SPILL_pages.at b) - usedPages s b 2

/-- Zeroed free T2 pages of the module, the 512 reserved ones left out (R211). -/
def physT2 (s : State) : Nat :=
  196096 - (berths.map fun b => usedPages s b 2 + spillCount s b).sum - dirtyPages s 2 0

/-- T2 pages that a berth can be given now. -/
def freeT2 (s : State) (b : Nat) : Nat := min (quotaT2 s b) (physT2 s)

/-- Pages of a channel: its capacity code of DDR_CAP, none when it is out of service (R222). -/
def chanCap (s : State) (ch : Nat) : Nat :=
  if bit (rd s DDR_STAT_in_service) ch then
    match bits (rd s DDR_CAP_cap) (2 * ch + 1) (2 * ch) with
    | 0 => 0
    | 1 => 32768
    | 2 => 65536
    | _ => 131072
  else 0

/-- T3 pages in service. -/
def totalT3 (s : State) : Nat := ((List.range 12).map (chanCap s)).sum

/-- Pages in use on a channel, moves to it among them. -/
def chanUsed (s : State) (ch : Nat) : Nat :=
  (s.mem.objects.map fun p => (p.2.moved.filter (fun q => q.2.tier = 3 && q.2.channel = ch)).length).sum
    + (s.mem.moves.filter (fun m => m.kind = 1 && m.channel = ch)).length + storeChan s ch

/-- Zeroed free pages of a channel. -/
def chanFree (s : State) (ch : Nat) : Nat := chanCap s ch - chanUsed s ch - dirtyPages s 3 ch

/-- T3 pages that a berth's quota leaves. -/
def quotaT3 (s : State) (b : Nat) : Nat :=
  if hasDdr s.variant then rd s (PGR_T3_QUOTA_pages.at b) - usedPages s b 3 else 0

/-- T3 pages that a berth can be given now. -/
def freeT3 (s : State) (b : Nat) : Nat := min (quotaT3 s b) (((List.range 12).map (chanFree s)).sum)

/-- The next channel in rotation with a free page (R217). -/
def nextChan (free : List Nat) (cur : Nat) : Option Nat :=
  ((List.range 12).map fun i => (cur + i) % 12).find? (fun c => nth free c 0 > 0)

/-- Channels for `n` pages in rotation, and where the rotation then stands. -/
def placeChans : Nat → List Nat → Nat → List Nat → Option (List Nat × Nat)
  | 0, _, cur, acc => some (acc.reverse, cur)
  | n + 1, free, cur, acc =>
    match nextChan free cur with
    | none => none
    | some c => placeChans n (free.set c (nth free c 0 - 1)) ((c + 1) % 12) (c :: acc)

/-! ### Bytes -/

/-- The stored byte at an address; an unlisted byte reads 0 (R209). -/
def cellGet : List Host.Cell → Nat → Byte
  | [], _ => 0
  | (k, v) :: m, a => if k = a then v else cellGet m a

/-- Store a byte, keeping the canonical form: addresses rising, no zero listed. -/
def cellPut : List Host.Cell → Nat → Byte → List Host.Cell
  | [], a, v => if v = 0 then [] else [(a, v)]
  | (k, w) :: m, a, v =>
    if a < k then (if v = 0 then (k, w) :: m else (a, v) :: (k, w) :: m)
    else if a = k then (if v = 0 then m else (a, v) :: m)
    else (k, w) :: cellPut m a v

/-- Store consecutive bytes. -/
def cellPuts : List Host.Cell → Nat → List Byte → List Host.Cell
  | m, _, [] => m
  | m, a, b :: bs => cellPuts (cellPut m a b) (a + 1) bs

/-- The canonical form: addresses strictly rising and no zero listed. -/
def cellsOk : List Host.Cell → Bool
  | [] => true
  | [(_, v)] => v ≠ 0
  | (k, v) :: (l, w) :: m => v ≠ 0 && k < l && cellsOk ((l, w) :: m)

/-- The stored bytes are in their canonical form. -/
def Memory.wf (m : Memory) : Bool := cellsOk m.bytes

/-- Drop the bytes of an address range. -/
def cellDrop (m : List Host.Cell) (a n : Nat) : List Host.Cell := m.filter (fun c => c.1 < a || a + n ≤ c.1)

/-! ### Uncorrectable words (R224–R227) -/

/-- Bytes of a codeword of a tier (R224). -/
def cwSize (tier : Nat) : Nat := if tier = 1 then 8 else 64

/-- Reading `n` bytes at an address meets an uncorrectable word or a lost page (R223, R226). -/
def badRange (s : State) (a n : Nat) : Bool :=
  s.mem.bad.any (fun c => c < a + n && a < c + cwSize (tierAt s c))
    || (pagesOf a n).any (fun p => tierAt s p = 3 && chanLost s (chanAt s p))

/-- The stored bytes of a range, whatever stands there. -/
def peek (s : State) (a n : Nat) : List Byte := (List.range n).map fun i => cellGet s.mem.bytes (a + i)

/-- Read `n` bytes from an offset of a handle: the bytes, and whether the read met an uncorrectable error. -/
def readH (s : State) (h : Hdl) (off n : Nat) : List Byte × Bool := (peek s (addrOf h + off) n, badRange s (addrOf h + off) n)

/-- A bad codeword that a write of `n` bytes at `a` covers only in part, so that its read-modify-write fails (R227). -/
def partBad (s : State) (a n c : Nat) : Bool :=
  let w := cwSize (tierAt s c)
  c < a + n && a < c + w && !(a ≤ c && c + w ≤ a + n)

/-- A lost page that a write of `n` bytes at `a` meets with only part of a codeword. -/
def partLost (s : State) (a n : Nat) : Bool :=
  n ≠ 0 && ((a % 64 ≠ 0 && tierAt s a = 3 && chanLost s (chanAt s a))
    || ((a + n) % 64 ≠ 0 && tierAt s (a + n - 1) = 3 && chanLost s (chanAt s (a + n - 1))))

/-- A write of `n` bytes at an address fails by R227. -/
def badWrite (s : State) (a n : Nat) : Bool := s.mem.bad.any (partBad s a n) || partLost s a n

/-- Bytes of a write that stand outside the bad codewords that it covers only in part: value kept where the write is not made. -/
def maskWrite (s : State) (a : Nat) (bs : List Byte) : List Byte :=
  let blocked := s.mem.bad.filter (partBad s a bs.length)
  if blocked.isEmpty then bs
  else bs.mapIdx fun i b =>
    if blocked.any (fun c => c ≤ a + i && a + i < c + cwSize (tierAt s c)) then cellGet s.mem.bytes (a + i) else b

/-- Write bytes at an offset of a handle: nothing outside an object, part of a bad codeword is not written, and a whole codeword
written reads again (R226, R227). The second result says that R227 stopped part of the write. -/
def writeH (s : State) (h : Hdl) (off : Nat) (bs : List Byte) : State × Bool :=
  let a := addrOf h + off
  let n := bs.length
  match objOf s h with
  | none => (s, false)
  | some o =>
    if hView h * pageSize + off + n ≤ o.pages * pageSize then
      let fail := badWrite s a n
      let bs := maskWrite s a bs
      (modMem s fun m => { m with
        bytes := cellPuts m.bytes a bs
        bad := m.bad.filter (fun c => !(a ≤ c && c + cwSize (tierAt s c) ≤ a + n)) }, fail)
    else (s, false)

/-- FP32 words of `n` elements from an offset of a handle. -/
def readF32 (s : State) (h : Hdl) (off n : Nat) : List W32 × Bool :=
  let r := readH s h off (4 * n)
  ((chunks 4 r.1).map fun q => BitVec.ofNat 32 (leNat q), r.2)

/-- FP32 words from an offset of a handle, the canonical quiet NaN in place of each value of a failed word (R225). -/
def readF32N (s : State) (h : Hdl) (off n : Nat) : List W32 × Bool :=
  let r := readF32 s h off n
  (if r.2 then r.1.mapIdx fun i w => if badRange s (addrOf h + off + 4 * i) 4 then nan32 else w else r.1, r.2)

/-- Bytes of FP32 words. -/
def wordBytes (l : List W32) : List Byte := l.flatMap fun w => toLe 4 w.toNat

/-- Write FP32 words. -/
def writeF32 (s : State) (h : Hdl) (off : Nat) (l : List W32) : State × Bool := writeH s h off (wordBytes l)

/-! ### A lost channel and an uncorrectable error (R223, R225) -/

/-- Domain code of a tier (R510). -/
def tierDomain (tier : Nat) : Nat := if tier = 1 then 4 else if tier = 2 then 5 else 6

/-- A DDR5 channel is lost (R223): out of service, demotions to it abandoned. Objects with a lost page and a segment are treated as
dropped from now on (`isDropped`). -/
def loseChannel (s : State) (ch : Nat) : State :=
  if chanLost s ch then s
  else
    let s := wr s DDR_STAT_in_service (rd s DDR_STAT_in_service - 2 ^ ch * b2n (bit (rd s DDR_STAT_in_service) ch))
    let s := wrOr (wrOr s DDR_STAT_lost (2 ^ ch)) DDR_IRQ_STAT_chan_lost 1
    let s := modMem s fun m => { m with moves := m.moves.filter fun x => !(x.kind = 1 && x.channel = ch) }
    raiseReplace s 4

/-- An uncorrectable error in a tier, on a channel of T3, in pages of a berth or outside every page (R225): the unit's error register,
status bit and record, the error log, and the channel's count of R223. -/
def noteUeIn (s : State) (t ch a b : Nat) (scrub : Bool) : State :=
  let x := Config.freeNat s.free
  let s := useFree s
  let s := logError s (tierDomain t) 0x02 0 (BitVec.ofNat 64 x) b
  match t with
  | 1 =>
    let s := wrs s [(HBR_ERR_segment, a / 2 ^ 43 + a % 2 ^ 43 / pageSize), (HBR_ERR_area, 2), (HBR_ERR_berth, b),
      (HBR_ERR_scrub, b2n scrub), (HBR_ERR_line, x)]
    modMem (wrOr s HBR_IRQ_STAT_ue 1) fun m => { m with ueT1 := s.lh.tick }
  | 3 =>
    let s := wrs s [(DDR_ERR_channel, ch), (DDR_ERR_subchannel, x), (DDR_ERR_scrub, b2n scrub)]
    let s := modMem (wrOr s DDR_IRQ_STAT_ue 1) fun m => { m with ueT3 := (BitVec.ofNat 64 x, s.lh.tick) }
    let s := wr s (DDR_CE_COUNT_ue.at ch) (satAdd 255 (rd s (DDR_CE_COUNT_ue.at ch)) 1)
    if rd s (DDR_CE_COUNT_ue.at ch) ≥ rd1 s DDR_UE_LIMIT_limit then loseChannel s ch else s
  | _ =>
    let s := wrs s [(HBM_ERR_stack, a % 2 ^ 43 / 512), (HBM_ERR_channel, x), (HBM_ERR_scrub, b2n scrub)]
    modMem (wrOr s HBM_IRQ_STAT_ue 1) fun m => { m with ueT2 := (BitVec.ofNat 64 x, s.lh.tick) }

/-- An uncorrectable error at an address of an object. -/
def noteUe (s : State) (a : Nat) (scrub : Bool) : State := noteUeIn s (tierAt s a) (chanAt s a) a (a / 2 ^ 73) scrub

/-- First bad codeword that a range meets, or the range's own start for a lost page. -/
def badAt (s : State) (a n : Nat) : Nat :=
  (s.mem.bad.find? (fun c => c < a + n && a < c + cwSize (tierAt s c))).getD a

/-- Record the uncorrectable error that a read of a range met, if it met one. -/
def noteRead (s : State) (h : Hdl) (off n : Nat) : State :=
  if badRange s (addrOf h + off) n then noteUe s (badAt s (addrOf h + off) n) false else s

/-- Write bytes at an offset of a handle, the uncorrectable error of a read-modify-write noted (R227). -/
def writeN (s : State) (h : Hdl) (off : Nat) (bs : List Byte) : State × Bool :=
  let w := writeH s h off bs
  (if w.2 then noteUe w.1 (badAt w.1 (addrOf h + off) bs.length) false else w.1, w.2)

/-! ### Allocation (R207, R208) -/

/-- The next free object number of a berth and the counter after it (R207); fuel for the skipping of numbers still allocated. -/
def nextNumber (s : State) (b : Nat) : Nat → Nat → Nat
  | 0, n => n
  | k + 1, n =>
    let n := if n ≥ 2 ^ 30 || n = 0 then 1 else n
    if (objAt s b n).isSome then nextNumber s b k (n + 1) else n

/-- Place an object with pages where given; answers its handle. -/
def placeObject (s : State) (b pages tier policy : Nat) (moved : NMap PageLoc) (coded : Bool) : State × Hdl :=
  let n := nextNumber s b (s.mem.objects.length + 2) (fget s.mem.nextObj b)
  let o : Obj := ⟨pages * pageSize, pages, tier, policy, moved, false, coded, false, s.mem.clock + 1, [], 0, 0⟩
  (modMem s fun m => { m with
    objects := mset m.objects (okey b n) o
    nextObj := fset m.nextObj b (if n + 1 ≥ 2 ^ 30 then 1 else n + 1)
    clock := m.clock + 1 }, mkHandle b n)

/-- Place pages `from` onward of an object in T3 by rotation (R217). -/
def t3Pages (s : State) (first n : Nat) : Option (NMap PageLoc × Nat) :=
  match placeChans n ((List.range 12).map (chanFree s)) s.mem.rotate [] with
  | some (cs, cur) => some (cs.mapIdx fun i c => (first + i, ⟨3, c⟩), cur)
  | none => none

/-- Offshore streams registered in the module: each may hold four objects more while a round replaces its own. -/
def streamCount (s : State) : Nat :=
  (berths.map fun b => match fget s.ofs.sessions b with
    | some x => x.streams.length
    | none => 0).sum

/-- Table room for `n` objects of `pages` pages in all (R204), room for waiting allocations kept back. -/
def tableRoom (s : State) (n pages : Nat) : Bool :=
  s.mem.objects.length + s.mem.allocs.length + 4 * streamCount s + n ≤ 262144
    && (s.mem.objects.map fun p => p.2.pages).sum + (s.mem.allocs.map fun a => cdiv a.size pageSize).sum + pages ≤ 2097152

/-! ### Release (R209, R210) -/

/-- Count freed pages as waiting to be zeroed (R209). -/
def addZeroing (l : List (Nat × Nat × Nat)) (t ch n : Nat) : List (Nat × Nat × Nat) :=
  match l with
  | [] => if n = 0 then [] else [(t, ch, n)]
  | (t', c', k) :: r => if t' = t && c' = ch then (t', c', k + n) :: r else (t', c', k) :: addZeroing r t ch n

/-- The pages of an object go to zeroing. -/
def zeroPages (l : List (Nat × Nat × Nat)) (o : Obj) : List (Nat × Nat × Nat) :=
  let l := addZeroing (addZeroing l 1 0 (tierPages 1 o)) 2 0 (tierPages 2 o)
  if o.dropped then l else o.moved.foldl (fun l p => if p.2.tier = 3 then addZeroing l 3 p.2.channel 1 else l) l

/-- Release an object: pages to zeroing, bytes, segment and table entries gone, moves and wants of it abandoned (R210). -/
def releaseObject (s : State) (b n : Nat) : State :=
  match objAt s b n with
  | none => s
  | some o =>
    modMem s fun m => { m with
      objects := mdel m.objects (okey b n)
      bytes := cellDrop m.bytes (objBase b n) (2 ^ 43)
      bad := m.bad.filter (fun c => c / 2 ^ 43 ≠ okey b n)
      unread := m.unread.filter (fun c => c / 2 ^ 43 ≠ okey b n)
      zeroing := zeroPages m.zeroing o
      moves := m.moves.filter (fun x => !(x.berth = b && x.object = n))
      wants := m.wants.filter (fun x => !(x.berth = b && x.object = n))
      held := m.held.filter (fun x => !(x.berth = b && x.object = n)) }

/-- Drop an object whole: its pages go to zeroing and its content is gone; counted (R215, R235). -/
def dropObject (s : State) (b n : Nat) : State :=
  match objAt s b n with
  | none => s
  | some o =>
    let s := modMem s fun m => { m with
      objects := mset m.objects (okey b n) { o with dropped := true, moved := [] }
      bytes := cellDrop m.bytes (objBase b n) (2 ^ 43)
      bad := m.bad.filter (fun c => c / 2 ^ 43 ≠ okey b n)
      zeroing := zeroPages m.zeroing o
      moves := m.moves.filter (fun x => !(x.berth = b && x.object = n)) }
    count s (0x1220 + b) 1

end Sys2Proof.Machine
end

