-- ==== Sys2Proof/Machine/Pager.lean ====
section
/-!
DEFINITION. The Pager (R212–R219, R231): pins, policies, victims, allocation with room making, and the moves that PAGER_MOVE_START
and PAGER_MOVE_COMPLETE make.
-/
namespace Sys2Proof.Machine
open Sys2Proof

/-! ### What pins a page (R212) -/

/-- Handles that an engine pass uses: of its factor slot or its shard (R154, R175). -/
def passHandles (s : State) (b : Nat) (e : EngPass) : List Hdl :=
  if e.code < 0x28 then
    match mget s.snd.slots e.slot with
    | some f => (match f.desc with
      | some d => [(parseFs d).hf, (parseFs d).hp]
      | none => []) ++ [fget s.slv.workspace b]
    | none => [fget s.slv.workspace b]
  else match mget s.upd.shards e.slot with
    | some sh => [(parseSh sh.desc).ha, (parseSh sh.desc).hb, (parseSh sh.desc).hg, fget s.upd.workspace b]
    | none => []

/-- Handles that a fetched operation or pass uses. -/
def runHandles (s : State) (r : RunOp) : List Hdl := if r.engine then passHandles s r.berth r.pass else opHandles (parseOp r.desc)

/-- Handles of everything fetched: the running operation, a held completion, open segments, and the stream heads that wait to start. -/
def fetchedHandles (s : State) : List Hdl :=
  let run := match s.shelf.running with
    | some r => runHandles s r
    | none => []
  let held := match s.shelf.heldDone with
    | some r => runHandles s r
    | none => []
  let seg := berths.flatMap fun b => (fget s.shelf.segment b).flatMap fun d => opHandles (parseOp d)
  let heads := berths.flatMap fun b =>
    if fget s.shelf.fetched b then
      (match fget s.shelf.streams b with
        | d :: _ => opHandles (parseOp d)
        | [] => [])
    else []
  run ++ held ++ seg ++ heads

/-- A demotion in flight of an object that an operation names is cancelled, and the T2 copy stands (R119, R231). -/
def keepResident (s : State) (h : Hdl) : State :=
  modMem s fun m => { m with moves := m.moves.filter fun x => !(x.berth = hBerth h && x.object = hObj h && x.kind = 1) }

/-- Handles of the collectives that a berth's channels hold, queued and in progress. -/
def collHandles (s : State) (queued : Bool) : List Hdl :=
  s.lsh.chans.flatMap fun p =>
    (p.2.active.flatMap fun c => [c.src, (parseColl c.desc).dst])
      ++ (if queued then p.2.queue.flatMap fun d => [(parseColl d).src, (parseColl d).dst] else [])

/-- Handles that PERMUTE reads its map from, moves from and moves to. -/
def permHandles (s : State) : List Hdl :=
  berths.flatMap fun b =>
    let p := fget s.lsh.permute b
    if p.phase = 0 then [] else (parseColl p.desc).src :: p.handles

/-- Row 5 of R191 still waits for Offshore's CLOSE, WAIT and APPLY (R350). -/
def roundOpen (s : State) (b : Nat) : Bool :=
  match fget s.ofs.sessions b with
  | some x => x.phase = 2 || x.phase = 3 || x.phase = 4
  | none => false

/-- Handles of Offshore streams whose round is in progress. -/
def roundHandles (s : State) : List Hdl :=
  berths.flatMap fun b =>
    match fget s.ofs.sessions b with
    | some x =>
      if x.phase = 1 then []
      else x.streams.flatMap fun p =>
        [p.2.anchor, p.2.outer, p.2.resid, p.2.newResid] ++
          (match mget s.upd.shards p.2.shard with
            | some sh => [(parseSh sh.desc).ha, (parseSh sh.desc).hb]
            | none => [])
    | none => []

/-- A shard's reduction has started in this step (R212, R214). -/
def reductionStarted (s : State) (sh : Shard) : Bool :=
  sh.reduced ≠ 0 || sh.started
    || s.lsh.chans.any fun p => p.2.active.any fun c =>
      (parseColl c.desc).op ≤ 2 && hObj (parseColl c.desc).dst = hObj (parseSh sh.desc).hg
        && hBerth (parseColl c.desc).dst = hBerth (parseSh sh.desc).hg

/-- Handles pinned by reductions until the boundary. -/
def reductionHandles (s : State) : List Hdl :=
  s.upd.shards.flatMap fun p =>
    if reductionStarted s p.2 then [(parseSh p.2.desc).hg, (parseSh p.2.desc).ha, (parseSh p.2.desc).hb] else []

/-- Handles of fetches of working copies and of CODE and DECODE requests that wait for their pages (R202). -/
def waitingHandles (s : State) : List Hdl :=
  (s.upd.fetches.flatMap fun f => match mget s.upd.shards f.shard with
    | some sh => [if sh.live = 0 then (parseSh sh.desc).ha else (parseSh sh.desc).hb]
    | none => []) ++ s.shg.reqs.flatMap fun r => [r.src, r.dst]

/-- Mask bitmaps of queued descriptors and of registered recompute segments. -/
def maskHandles (s : State) : List Hdl :=
  let of (l : List (List Byte)) : List Hdl := l.flatMap fun d => if (parseOp d).maskMode ≠ 0 then [(parseOp d).hmask] else []
  berths.flatMap (fun b => of (fget s.shelf.streams b)) ++ s.mem.objects.flatMap fun p => of p.2.segment

/-- Every handle whose object is pinned. -/
def pinnedHandles (s : State) : List Hdl :=
  fetchedHandles s ++ collHandles s false ++ permHandles s ++ roundHandles s ++ reductionHandles s ++ waitingHandles s ++ maskHandles s

/-- The handle names the object of a key. -/
def namesKey (k : Nat) (h : Hdl) : Bool := okey (hBerth h) (hObj h) = k

/-! ### Policies, windows and victims (R118, R213, R215) -/

/-- Policy in effect (R118, R125). -/
def effPolicy (s : State) (b : Nat) (o : Obj) : Nat :=
  if fget s.mem.balance b then 0
  else if hasDdr s.variant then (if o.policy ≥ 2 && o.segment.isEmpty then 1 else o.policy)
  else if o.policy ≥ 2 && !o.segment.isEmpty then 2 else 0

/-- Descriptors of a berth's lookahead window (R213). -/
def window (s : State) (b : Nat) : List (List Byte) := (fget s.shelf.streams b).take (rd1 s PGR_CTL_lookahead)

/-- Handles that a descriptor's window entry names: its own, and for layer_last those of the layer's shards (R213). -/
def windowHandles (s : State) (b : Nat) (d : List Byte) : List Hdl :=
  let o := parseOp d
  opHandles o ++ (if o.layerLast then s.upd.shards.flatMap fun p =>
    if p.2.berth = b && (parseSh p.2.desc).layer = o.layer then
      [(parseSh p.2.desc).hg, (parseSh p.2.desc).ha, (parseSh p.2.desc).hb] else [] else [])

/-- Position of the first window descriptor that names an object. -/
def windowPos (s : State) (b k : Nat) : Option Nat := (window s b).findIdx? fun d => (windowHandles s b d).any (namesKey k)

/-- Rank of an object as a victim: unnamed ones by least recent use, then named ones, latest-named first. -/
def victimRank (s : State) (b k : Nat) (o : Obj) : Nat × Nat :=
  match windowPos s b k with
  | none => (0, o.lastUse)
  | some i => (1, 2 ^ 32 - i)

/-- T2 pages of an object that no move is taking, but those whose demotion has met an uncorrectable word that still stands (R225). -/
def demotable (s : State) (k : Nat) (o : Obj) : List Nat :=
  (List.range o.pages).filter fun p =>
    (pageLoc o p).tier = 2 && !(s.mem.moves.any fun m => okey m.berth m.object = k && m.page = p)
      && !(k * 2 ^ 43 + p * pageSize ∈ s.mem.unread && badRange s (k * 2 ^ 43 + p * pageSize) pageSize)

/-- What the Pager does to a victim: drop it whole, or demote a page to a channel. -/
inductive Victim where
  | drop (object : Nat)
  | demote (object page channel : Nat)
  deriving DecidableEq, Repr

/-- T3 can take one more page of the berth: on which channel (R217). -/
def t3Slot (s : State) (b : Nat) : Option Nat :=
  if quotaT3 s b > 0 then nextChan ((List.range 12).map (chanFree s)) s.mem.rotate else none

/-- How an object can give T2 pages. -/
def victimOf (s : State) (b k : Nat) (o : Obj) : Option Victim :=
  let n := k % 2 ^ 30
  if o.dropped || tierPages 2 o = 0 then none
  else match effPolicy s b o with
    | 0 => none
    | 2 => some (.drop n)
    | pol =>
      match demotable s k o, t3Slot s b with
      | p :: _, some c => some (.demote n p c)
      | _, none => if pol = 3 then some (.drop n) else none
      | [], _ => none

/-- Better victim of two ranked ones. -/
def lowerRank (a b : (Nat × Nat) × Victim) : (Nat × Nat) × Victim :=
  if b.1.1 < a.1.1 || (b.1.1 = a.1.1 && b.1.2 < a.1.2) then b else a

/-- The victim that R215 takes next for a berth. -/
def nextVictim (s : State) (b : Nat) : Option Victim :=
  let pins := pinnedHandles s
  let cands := (objsOf s b).filterMap fun p =>
    if pins.any (namesKey p.1) then none
    else (victimOf s b p.1 p.2).map fun v => (victimRank s b p.1 p.2, v)
  match cands with
  | [] => none
  | c :: cs => some (cs.foldl lowerRank c).2

/-- T2 pages that victims of a berth could still give, demotions in flight among them (R208, R215). Pages that cannot be demoted for an
uncorrectable word give nothing, unless their object is dropped once T3 is full. -/
def makeable (s : State) (b : Nat) : Nat :=
  let pins := pinnedHandles s
  let objs := (objsOf s b).filter fun p => !pins.any (namesKey p.1) && !p.2.dropped
  let going := (s.mem.moves.filter fun m => m.berth = b && m.kind = 1).length
  let sumOf (pol : Nat) (f : Nat × Obj → Nat) := ((objs.filter fun p => effPolicy s b p.2 = pol).map f).sum
  let moves (p : Nat × Obj) : Nat := (demotable s p.1 p.2).length
  let whole (p : Nat × Obj) : Nat := tierPages 2 p.2
  let one := sumOf 1 moves + going
  let room := freeT3 s b + going
  sumOf 2 whole + (if one + sumOf 3 moves ≤ room then one + sumOf 3 moves else min one room + sumOf 3 whole)

/-- Take a victim: drop it, or start the demotion of its page. -/
def takeVictim (s : State) (b : Nat) : Victim → State
  | .drop n => dropObject s b n
  | .demote n p c =>
    modMem s fun m => { m with moves := m.moves ++ [⟨b, n, p, 1, c⟩], rotate := (c + 1) % 12 }

/-! ### Allocation (R208, R231) -/

/-- What an allocation meets now: placed, refused with a reason, or waiting for room. -/
inductive AllocView where
  | placed (s : State) (h : Hdl)
  | refuse (detail : Nat)
  | wait
  deriving DecidableEq, Repr

/-- Place an object whose first pages go to T2 and the rest to T3. -/
def placeSplit (s : State) (b pages t2 policy : Nat) : AllocView :=
  match t3Pages s t2 (pages - t2) with
  | some (moved, cur) =>
    let r := placeObject (modMem s fun m => { m with rotate := cur }) b pages 2 policy moved false
    .placed r.1 r.2
  | none => .refuse 0x04

/-- Try an allocation of T2 pages; with a quota below the berth's use it fails (R211), and in stage-balancing mode every policy acts as KEEP (R125, R208). -/
def allocT2 (s : State) (b pages policy : Nat) : AllocView :=
  if rd s (PGR_T2_QUOTA_pages.at b) < usedPages s b 2 then .refuse 0x04
  else if pages ≤ freeT2 s b then
    let r := placeObject s b pages 2 policy [] false
    .placed r.1 r.2
  else if pages ≤ quotaT2 s b then .wait
  else if pages ≤ quotaT2 s b + makeable s b then .wait
  else if (policy = 1 || policy = 3) && !fget s.mem.balance b then
    if makeable s b > 0 then .wait
    else if pages - quotaT2 s b ≤ freeT3 s b then
      (if quotaT2 s b ≤ physT2 s then placeSplit s b pages (quotaT2 s b) policy else .wait)
    else .refuse 0x04
  else .refuse 0x04

/-- Try an allocation in a tier. -/
def allocTry (s : State) (b pages tier policy : Nat) : AllocView :=
  match tier with
  | 1 =>
    if pages ≤ freeT1 s b then
      let r := placeObject s b pages 1 policy [] false
      .placed r.1 r.2
    else if partUsed s b + pages ≤ rd s (HBR_PART_pages.at b) then .wait
    else .refuse 0x04
  | 2 => allocT2 s b pages policy
  | _ =>
    if pages ≤ quotaT3 s b then
      match t3Pages s 0 pages with
      | some (moved, cur) =>
        let r := placeObject (modMem s fun m => { m with rotate := cur }) b pages 3 policy moved false
        .placed r.1 r.2
      | none => if ((List.range 12).map (dirtyPages s 3)).sum > 0 then .wait else .refuse 0x04
    else .refuse 0x04

/-- The rows of R208 in order: the first that is broken, or what the allocation meets. -/
def allocCheck (s : State) (b size tier policy : Nat) : Except (Nat × Nat) AllocView :=
  let pages := cdiv size pageSize
  if size = 0 || size > 2 ^ 42 then .error (stBAD, 0x01)
  else if tier = 3 && !hasDdr s.variant then .error (stABSENT, 0)
  else if tier = 0 || tier > 3 then .error (stBAD, 0x02)
  else if policy > 3 || (tier = 1 && policy ≠ 0) then .error (stBAD, 0x03)
  else match allocTry s b pages tier policy with
    | .refuse d => .error (stBAD, d)
    | v => if tableRoom s 1 pages then .ok v else .error (stBAD, 0x05)

/-- Answer pending allocations, whose table entries are kept for them, that can be placed now, and those that can no longer be (R208, R231). -/
def tryAlloc (s : State) (p : PendAlloc) : State :=
  let drop (s : State) := modMem s fun m => { m with allocs := m.allocs.filter (· ≠ p) }
  let tier := p.policy / 256
  let policy := p.policy % 256
  match allocTry s p.berth (cdiv p.size pageSize) tier policy with
  | .placed s' h => finish (drop s') p.berth 0x0301 p.seq stOK 0 (toBe 6 h.toNat)
  | .refuse d => finish (drop s) p.berth 0x0301 p.seq stBAD d []
  | .wait => s

/-- Every pending allocation in order. -/
def tryAllocs (s : State) : State := foldS tryAlloc s s.mem.allocs

/-! ### Moves (R214–R218) -/

/-- The page of a want is on its way already. -/
def inMove (s : State) (b o p : Nat) : Bool := s.mem.moves.any fun m => m.berth = b && m.object = o && m.page = p

/-- Begin to make a page resident: cancel its demotion (R231), or start a promotion or re-home. -/
def startPromotion (s : State) (b o p : Nat) (rehome : Bool) : State :=
  modMem s fun m => { m with moves := m.moves ++ [⟨b, o, p, if rehome then 2 else 0, 0⟩] }

/-- A berth's demand cannot be met (R218). -/
def pagerHalt (s : State) (b : Nat) : State :=
  let s := wrs (wrOr s PGR_IRQ_STAT_halt 1) [(PGR_ERR_berth, b), (PGR_ERR_cause, 1)]
  let s := modMem s fun m => { m with wants := m.wants.filter (fun w => !(w.berth = b && w.level = 1)) }
  match fget s.shelf.streams b with
  | d :: _ => haltStream s b 0x05 (parseOp d).seq (some d)
  | [] => haltStream s b 0x05 0 none

/-- Berths in rotation after the last one served. -/
def rrBerths (last : Nat) : List Nat := (List.range 4).map fun i => (last + 1 + i) % 4

/-- A want whose page still stands in T3 and is in no promotion. -/
def wantOpen (s : State) (w : Want) : Bool :=
  match objAt s w.berth w.object with
  | some o => !o.dropped && (pageLoc o w.page).tier = 3
      && !(s.mem.moves.any fun m => m.berth = w.berth && m.object = w.object && m.page = w.page && m.kind ≠ 1)
  | none => false

/-- Serve a want: start its move, or take a victim for it. None when it has to wait. -/
def serveWant (s : State) (w : Want) : Option State :=
  if freeT2 s w.berth > 0 then some (startPromotion s w.berth w.object w.page w.rehome)
  else match nextVictim s w.berth with
    | some v => some (takeVictim s w.berth v)
    | none =>
      if w.level = 1 && quotaT2 s w.berth = 0 && !(s.mem.moves.any fun m => m.berth = w.berth && m.kind = 1) then
        some (pagerHalt s w.berth)
      else none

/-- First answer of a list of attempts. -/
def firstOf : List (Option State) → Option State
  | [] => none
  | some s :: _ => some s
  | none :: l => firstOf l

/-- The wants of one level, by berth in rotation and within a berth in the order in which they were raised (R214): shard state in the
order in which reductions started, prefetches in queue order. -/
def wantsOf (s : State) (level : Nat) : List Want :=
  let open_ := s.mem.wants.filter fun w => w.level = level && wantOpen s w
  (rrBerths s.mem.lastRr).flatMap fun b => open_.filter (fun w => w.berth = b)

/-- Pages of a handle's object that stand in T3. -/
def offPages (s : State) (h : Hdl) : List Nat :=
  match objOf s h with
  | some o => (List.range o.pages).filter fun p => (pageLoc o p).tier = 3
  | none => []

/-- Pages of a version slot or gradient that an update needs: those from the view on that the section reaches. -/
def neededPages (s : State) (h : Hdl) (len : Nat) : List Nat :=
  (offPages s h).filter fun p => hView h ≤ p && p < hView h + cdiv len pageSize

/-- Ask the Pager for a page at a level of R214. -/
def wantPage (s : State) (h : Hdl) (p level : Nat) (rehome : Bool) : State :=
  let w : Want := ⟨hBerth h, hObj h, p, level, rehome⟩
  if s.mem.wants.any fun x => x.berth = w.berth && x.object = w.object && x.page = p && x.level = level then s
  else modMem s fun m => { m with wants := m.wants ++ [w] }

/-- A page that a demand need not wait for: its promotion was abandoned, or its channel is lost (R223, R225). -/
def givenUp (s : State) (h : Hdl) (p : Nat) : Bool :=
  let a := objBase (hBerth h) (hObj h) + p * pageSize
  (a ∈ s.mem.unread) || chanLost s (chanAt s a)

/-- Pages of handles that wait in T3, from each view on. -/
def missingPages (s : State) (hs : List Hdl) : List (Hdl × Nat) :=
  hs.flatMap fun h => ((offPages s h).filter fun p => hView h ≤ p && !givenUp s h p).map fun p => (h, p)

/-- Ask for pages at a level of R214. -/
def demand (s : State) (level : Nat) (l : List (Hdl × Nat)) : State := foldS (fun s (q : Hdl × Nat) => wantPage s q.1 q.2 level false) s l

/-- Make the objects of handles ready for a unit that works on T1 and T2 only (R202): demotions of them are cancelled, and pages that
stand in T3 are asked for at a level. With none left to wait for, the unit goes on. -/
def residentAt (level : Nat) (s : State) (hs : List Hdl) : State × Bool :=
  let s := foldS keepResident s hs
  let miss := missingPages s hs
  (demand s level miss, miss.isEmpty)

/-- What an operation or pass of the Shelf needs is a demand (level 1 of R214). -/
def resident (s : State) (hs : List Hdl) : State × Bool := residentAt 1 s hs

/-- What the units outside the Shelf need: R214 gives their pages no level; they are served with level 2 (DESIGN CHOICE, log 179). -/
def residentFor (s : State) (hs : List Hdl) : State × Bool := residentAt 2 s hs

/-- Objects of a berth with a lost page and a segment, which no one uses, are dropped (R223). -/
def dropLost (s : State) : State :=
  let pins := pinnedHandles s
  foldS (fun s (p : Nat × Obj) =>
    if !p.2.dropped && !p.2.segment.isEmpty && lostPage s p.2 && !pins.any (namesKey p.1) then dropObject s (p.1 / 2 ^ 30) (p.1 % 2 ^ 30)
    else s) s s.mem.objects

/-- A descriptor enters the lookahead window of its berth: a prefetch is queued for every offloaded page that it names (R213). -/
def enterDesc (b : Nat) (s : State) (d : List Byte) : State :=
  foldS (fun s h =>
    match objOf s h with
    | some o =>
      if hBerth h = b && !o.dropped then
        foldS (fun s p => if wantOpen s ⟨b, hObj h, p, 3, false⟩ then wantPage s h p 3 false else s) s
          (rangeFrom (hView h) (o.pages - hView h))
      else s
    | none => s) s (windowHandles s b d)

/-- Every berth's window takes in the descriptors that have come into it, once each. -/
def enterWindow (s : State) : State :=
  foldS (fun s b =>
    let n := fget s.mem.entered b
    let w := window s b
    modMem (foldS (enterDesc b) s (w.drop n)) fun m => { m with entered := fset m.entered b (max n w.length) }) s berths

/-- Descriptors leave the head of a berth's stream: one, or all of them with their prefetches. -/
def leaveWindow (s : State) (b : Nat) : State := modMem s fun m => { m with entered := fmod m.entered b (· - 1) }
def clearWindow (s : State) (b : Nat) : State :=
  modMem s fun m => { m with entered := fset m.entered b 0, wants := m.wants.filter fun w => !(w.berth = b && w.level = 3) }

/-- Room for the oldest waiting T2 allocation of a berth that has no open demand (R208, R231). -/
def serveAlloc (s : State) : Option State :=
  firstOf (s.mem.allocs.map fun a =>
    if a.policy / 256 = 2 && quotaT2 s a.berth < cdiv a.size pageSize
        && !(s.mem.wants.any fun w => w.berth = a.berth && w.level = 1) then
      (nextVictim s a.berth).map (takeVictim s a.berth)
    else none)

/-- Headroom (level 4 of R214). -/
def serveHeadroom (s : State) : Option State :=
  firstOf ((rrBerths s.mem.lastRr).map fun b =>
    if quotaT2 s b < rd s PGR_HEADROOM_pages then (nextVictim s b).map (takeVictim s b) else none)

/-- The Pager's next action by the order of R214; none when it has nothing to do. -/
def pagerNext (s : State) : Option State :=
  firstOf [firstOf ((wantsOf s 1).map (serveWant s)), serveAlloc s, firstOf ((wantsOf s 2).map (serveWant s)),
    firstOf ((wantsOf s 3).map (serveWant s)), serveHeadroom s]

/-- The berth that a move or halt of the Pager served, for the rotation of R214. -/
def servedBerth (old new : State) : Nat :=
  match new.mem.moves.getLast? with
  | some m => if old.mem.moves.length < new.mem.moves.length then m.berth else old.mem.lastRr
  | none => old.mem.lastRr

/-- A page's move is over; wants of it that it met are gone. -/
def endMove (s : State) (m : Move) : State :=
  modMem s fun x => { x with
    moves := x.moves.filter (· ≠ m)
    wants := x.wants.filter (fun w => !(m.kind ≠ 1 && w.berth = m.berth && w.object = m.object && w.page = m.page)) }

/-- A move met an uncorrectable error or a lost page (R225): the page stays where it is, and is not tried again while the word stands. -/
def failMove (s : State) (m : Move) (a : Nat) : State :=
  let lost := tierAt s a = 3 && chanLost s (chanAt s a)
  let s := wrs (wrOr s PGR_IRQ_STAT_move_ue 1) [(PGR_ERR_berth, m.berth), (PGR_ERR_cause, if lost then 3 else 2)]
  let s := noteUe s (badAt s a pageSize) false
  modMem s fun x => { x with unread := if a ∈ x.unread then x.unread else a :: x.unread }

/-- Copy a held or spilled result page into its page; its space goes to zeroing (R209, R219). -/
def landHeld (s : State) (b o p : Nat) : State :=
  let mine := s.mem.held.filter fun h => h.berth = b && h.object = o && h.page = p
  let a := objBase b o + p * pageSize
  modMem s fun m => { m with
    bytes := mine.foldl (fun bs h => h.bytes.foldl (fun bs c => cellPut bs (a + c.1) c.2) bs) m.bytes
    zeroing := addZeroing (addZeroing m.zeroing 1 0 (mine.filter fun h => !h.spilled).length) 2 0 (mine.filter fun h => h.spilled).length
    held := m.held.filter (fun h => !(h.berth = b && h.object = o && h.page = p)) }

/-- A move completes (R209, R216, R219, R225, R235). -/
def completeMove (s : State) (m : Move) : State :=
  let a := objBase m.berth m.object + m.page * pageSize
  match objAt s m.berth m.object with
  | none => endMove s m
  | some o =>
    let from_ := pageLoc o m.page
    if m.kind ≠ 2 && badRange s a pageSize then endMove (failMove s m a) m
    else match m.kind with
      | 1 =>
        let s := modObj (endMove s m) m.berth m.object fun o => setLoc o m.page ⟨3, m.channel⟩
        count (modMem s fun x => { x with zeroing := addZeroing x.zeroing 2 0 1 }) (0x1210 + m.berth) 1
      | k =>
        let s := modObj (endMove s m) m.berth m.object fun o => setLoc o m.page ⟨2, 0⟩
        let s := modMem s fun x => { x with
          zeroing := addZeroing x.zeroing 3 from_.channel 1
          unread := x.unread.filter (· ≠ a)
          bytes := if k = 2 then cellDrop x.bytes a pageSize else x.bytes
          bad := if k = 2 then x.bad.filter (fun c => !(a ≤ c && c < a + pageSize)) else x.bad }
        let s := landHeld s m.berth m.object m.page
        if k = 2 then s else count s (0x1200 + m.berth) 1

/-- PAGER_MOVE_START: one move more, of at most 16, while PGR_CTL.run is set (R214, R216, R234). -/
def execPagerMoveStart (s : State) : Host.Outcome State Fault Refusal :=
  .next <|
    if rdb s PGR_CTL_run && s.mem.moves.length < 16 && !inReset s 4 && !stopping s then
      let s := dropLost (enterWindow s)
      match pagerNext s with
      | some t => tryAllocs (modMem t fun m => { m with lastRr := servedBerth s t })
      | none => tryAllocs s
    else s

/-- PAGE_ZERO_COMPLETE: one freed page of a tier is zeroed and counts as free (R209). -/
def execPageZeroComplete (tier channel : Nat) (s : State) : Host.Outcome State Fault Refusal :=
  .next <|
    let ch := if tier = 3 then channel else 0
    if dirtyPages s tier ch > 0 then
      tryAllocs (modMem s fun m => { m with
        zeroing := (m.zeroing.map fun z => if z.1 = tier && z.2.1 = ch then (z.1, z.2.1, z.2.2 - 1) else z).filter (fun z => z.2.2 ≠ 0) })
    else s

end Sys2Proof.Machine
end

