-- ==== Sys2Proof/Machine/Codec.lean ====
section
/-!
DEFINITION. Shingle's codec as functions of bytes: CRC-32C, the quantised formats and the quantiser (R309–R311), planes (R313), the
rANS coder (R314), blocks (R315, R316), tables (R317, R318) and coded objects (R322).
-/
namespace Sys2Proof.Machine
open Sys2Proof

/-! ### Quantised formats (R309, R310) -/

/-- Code bits of a Q format code 0x8–0xA. -/
def qBits (fmt : Nat) : Nat := if fmt = 8 then 2 else if fmt = 9 then 4 else 8

/-- Largest code of a Q format. -/
def qMax (fmt : Nat) : Nat := 2 ^ (qBits fmt - 1) - 1

/-- Blocks of 64 elements. -/
def qBlocks (e : Nat) : Nat := cdiv e 64

/-- Bytes of the scale plane and of the code plane for e elements. -/
def scaleLen (e : Nat) : Nat := 2 * qBlocks e
def codeLen (fmt e : Nat) : Nat := qBlocks e * 8 * qBits fmt

/-- The code that a decoder reads: two's complement, with −2^(b−1) read as −qmax (R310). -/
def readCode (fmt raw : Nat) : Int :=
  let b := qBits fmt
  if raw = 2 ^ (b - 1) then -(qMax fmt : Int) else if raw > 2 ^ (b - 1) then (raw : Int) - 2 ^ b else raw

/-- FP32 of an integer. -/
def f32Int (i : Int) : W32 := f32 (.fin (i < 0) i.natAbs 0)

/-- Decoded value of a code under a BF16 scale (R311). -/
def codeValue (scale : Nat) (q : Int) : W32 := fmul (widen 0 scale) (f32Int q)

/-- Element `i` of a quantised tensor, from its scale and code planes. -/
def qElem (fmt : Nat) (scales codes : List Byte) (i : Nat) : W32 :=
  let b := qBits fmt
  codeValue (fld scales (2 * (i / 64)) 2) (readCode fmt (bits (fld codes (i * b / 8) 1) (i * b % 8 + b - 1) (i * b % 8)))

/-- Decoded values of e elements (R311). -/
def dequant (fmt e : Nat) (scales codes : List Byte) : List W32 := (List.range e).map (qElem fmt scales codes)

/-- A number rounded to an integer, ties to even. -/
def rneInt (v : Fl) : Int :=
  match v with
  | .fin s m e =>
    let n := if e ≥ 0 then m <<< e.toNat else rneShift m (-e).toNat
    if s then -(n : Int) else n
  | _ => 0

/-- Scale, codes and new residual (BF16) of one block of at most 64 elements (R311). -/
def quantBlock (fmt : Nat) (x : List W32) : Nat × List Int × List Nat :=
  let amax := (tree fmax 6 (x.map fun v => some (fabs v))).getD 0
  let s0 := castTo 0 false (fdiv amax (f32Nat (qMax fmt)))
  let s := if s0 = 0x7F80 then 0x7F7F else s0
  let q := x.map fun v =>
    if s = 0 then (0 : Int)
    else max (-(qMax fmt : Int)) (min (qMax fmt : Int) (rneInt (v32 (fdiv v (widen 0 s)))))
  let r := List.zipWith (fun v c => castTo 0 false (fsub v (codeValue s c))) x q
  (s, q, r)

/-- Pack codes of b bits, least significant first, padded to whole blocks of 64. -/
def packCodes (fmt : Nat) (q : List Int) : List Byte :=
  let b := qBits fmt
  let u := (q ++ List.replicate (64 * qBlocks q.length - q.length) 0).map fun c => (c % (2 ^ b : Int)).toNat
  (chunks (8 / b) u).map fun g => BitVec.ofNat 8 (g.foldr (fun c acc => c + 2 ^ b * acc) 0)

/-- The inputs x of the quantiser: difference plus residual, FP32 (R311). -/
def quantInputs (d : List W32) (r : List Nat) : List W32 := List.zipWith (fun a b => fadd a (widen 0 b)) d r

/-- Quantise a tensor: scale plane, code plane and new BF16 residuals; absent when any input is not finite (R312). -/
def quantTensor (fmt : Nat) (d : List W32) (r : List Nat) : Option (List Byte × List Byte × List Nat) :=
  let x := quantInputs d r
  if allFinite x then
    let bl := (chunks 64 x).map (quantBlock fmt)
    some ((bl.map fun t => toLe 2 t.1).flatten, packCodes fmt (bl.map fun t => t.2.1).flatten, (bl.map fun t => t.2.2).flatten)
  else none

/-! ### Planes (R313) -/

/-- Kind of a format code: 1 BF16, 2 FP32, 3 one byte a symbol. -/
def planeKind (fmt : Nat) : Nat := if fmt = 0 then 1 else if fmt = 1 then 2 else 3

/-- Bytes of an element of a kind. -/
def kindSize (kind : Nat) : Nat := if kind = 1 then 2 else if kind = 2 then 4 else 1

/-- Symbol of an element: the exponent, or the byte itself. -/
def symbolOf (kind w : Nat) : Nat := if kind = 1 then bits w 14 7 else if kind = 2 then bits w 30 23 else w

/-- Raw-plane bytes of an element. -/
def rawOf (kind w : Nat) : List Byte :=
  if kind = 1 then toLe 1 (bits w 15 15 * 128 + w % 128)
  else if kind = 2 then toLe 3 (bits w 31 31 * 2 ^ 23 + w % 2 ^ 23)
  else []

/-- Raw-plane bytes an element has. -/
def rawSize (kind : Nat) : Nat := if kind = 1 then 1 else if kind = 2 then 3 else 0

/-- The element that a symbol and its raw-plane value make. -/
def joinPlanes (kind sym raw : Nat) : Nat :=
  if kind = 1 then bits raw 7 7 * 2 ^ 15 + sym * 128 + raw % 128
  else if kind = 2 then bits raw 23 23 * 2 ^ 31 + sym * 2 ^ 23 + raw % 2 ^ 23
  else sym

/-- Elements of a raw block. -/
def elemsOf (kind : Nat) (bs : List Byte) : List Nat := (chunks (kindSize kind) bs).map leNat

/-- Symbols of a raw block. -/
def symbolsOf (kind : Nat) (bs : List Byte) : List Nat := (elemsOf kind bs).map (symbolOf kind)

/-! ### Tables (R317, R318) -/

/-- Count of each byte value. -/
def histogram (syms : List Nat) : List Nat := syms.foldl (fun h s => h.set s (nth h s 0 + 1)) (List.replicate 256 0)

/-- Index of the first largest entry. -/
def argMax (l : List Nat) : Nat :=
  ((List.range l.length).foldl (fun best i => if nth l i 0 > nth l best 0 then i else best) 0)

/-- Raise or lower frequencies until they sum to 4,096 (R317). Structural in the fuel; 4,096 rounds suffice. -/
def balance : Nat → List Nat → List Nat → List Nat
  | 0, _, f => f
  | k + 1, cnt, f =>
    if f.sum < 4096 then balance k cnt (f.set (argMax cnt) (nth f (argMax cnt) 0 + 1))
    else if f.sum > 4096 then
      let g := f.map fun x => if x > 1 then x else 0
      balance k cnt (f.set (argMax g) (nth f (argMax g) 0 - 1))
    else f

/-- Frequencies of a table from symbol counts (R317). -/
def buildTable (cnt : List Nat) : List Nat :=
  let n := cnt.sum
  balance 8192 cnt (cnt.map fun c => if c = 0 then 0 else max 1 (c * 4096 / n))

/-- Sum of the frequencies below s. -/
def cumFreq (f : List Nat) (s : Nat) : Nat := (f.take s).sum

/-- A table record (R318). -/
def tableRecord (slot version n : Nat) (f : List Nat) : List Byte :=
  toLe 1 slot ++ toLe 1 version ++ zeros 2 ++ toLe 4 n ++ zeros 8 ++ (f.map (toLe 2)).flatten

/-- Frequencies of a record. -/
def recordFreqs (r : List Byte) : List Nat := (List.range 256).map fun i => fld r (16 + 2 * i) 2

/-- A record is accepted: frequencies sum to 4,096 and reserved bytes are 0 (R318). -/
def recordOk (r : List Byte) : Bool :=
  (recordFreqs r).sum = 4096 && fld r 1 1 < 16 && allZero (slice r 2 2) && allZero (slice r 8 8)

/-! ### rANS (R314) -/

/-- Renormalise a state while it is at least `lim`, giving its bytes in order. Structural in the fuel; four rounds suffice. -/
def renormOut : Nat → Nat → Nat → Nat × List Byte
  | 0, _, x => (x, [])
  | k + 1, lim, x =>
    if x ≥ lim then
      let r := renormOut k lim (x / 256)
      (r.1, BitVec.ofNat 8 x :: r.2)
    else (x, [])

/-- Encode one symbol with index i: states and output so far. -/
def ransPut (f : List Nat) (acc : List Nat × List Byte) (p : Nat × Nat) : List Nat × List Byte :=
  let j := p.1 % 8
  let fs := nth f p.2 0
  let r := renormOut 4 (fs * 2 ^ 19) (nth acc.1 j 0)
  let x := (r.1 / fs) * 4096 + r.1 % fs + cumFreq f p.2
  (acc.1.set j x, acc.2 ++ r.2)

/-- The rANS stream of symbols (R314): eight states, then the output reversed. -/
def ransEncode (f : List Nat) (syms : List Nat) : List Byte :=
  let r := ((List.zip (List.range syms.length) syms).reverse).foldl (ransPut f) (List.replicate 8 (2 ^ 23), [])
  (r.1.map (toLe 4)).flatten ++ r.2.reverse

/-- The byte whose range holds t. -/
def symAt (f : List Nat) (t : Nat) : Nat :=
  ((List.range 256).find? (fun s => cumFreq f s ≤ t && t < cumFreq f s + nth f s 0)).getD 0

/-- Read bytes into a state until it reaches 2^23; none when the stream is short. Structural in the bytes. -/
def renormIn : List Byte → Nat → Option (Nat × List Byte)
  | [], x => if x < 2 ^ 23 then none else some (x, [])
  | b :: l, x => if x < 2 ^ 23 then renormIn l (x * 256 + b.toNat) else some (x, b :: l)

/-- Decode `n` symbols from index i: structural in n. -/
def ransGet (f : List Nat) : Nat → Nat → List Nat → List Byte → Option (List Nat)
  | 0, _, xs, bs => if xs.all (· = 2 ^ 23) && bs.isEmpty then some [] else none
  | n + 1, i, xs, bs =>
    let j := i % 8
    let x := nth xs j 0
    let t := x % 4096
    let s := symAt f t
    match renormIn bs (nth f s 0 * (x / 4096) + t - cumFreq f s) with
    | none => none
    | some (y, l) => (ransGet f n (i + 1) (xs.set j y) l).map (s :: ·)

/-- Decode a stream of `n` symbols; none where R314 fails. -/
def ransDecode (f : List Nat) (n : Nat) (bs : List Byte) : Option (List Nat) :=
  if bs.length < 32 then none
  else ransGet f n 0 ((List.range 8).map fun j => fld bs (4 * j) 4) (bs.drop 32)

/-! ### Blocks (R315, R316) -/

/-- A stored block of a raw block, before padding: header and payload. -/
def encodeBlock (kind slot version : Nat) (f : List Nat) (raw : List Byte) : List Byte :=
  let coded := ((elemsOf kind raw).map (rawOf kind)).flatten ++ ransEncode f (symbolsOf kind raw)
  let asRaw := coded.length > 3584 || coded.length > raw.length
  let pay := if asRaw then raw else coded
  let head := toLe 1 (kind + 16 * b2n asRaw) ++ toLe 1 slot ++ toLe 1 version ++ zeros 1 ++ toLe 2 raw.length ++ toLe 2 pay.length
  head ++ toLe 4 (crc32c (head ++ pay)) ++ zeros 4 ++ pay

/-- Why a block does not decode: its header or CRC (R316), its rANS stream (R314), or a version that is not the slot's (R321). -/
inductive BlockErr where
  | failed
  | stream
  | version
  deriving DecidableEq, Repr

/-- The cause that SHG_ERR records (R340). -/
def BlockErr.cause : BlockErr → Nat
  | .failed => 1
  | .stream => 4
  | .version => 3

/-- Decode one stored block under a table (R314, R316, R321). -/
def decodeBlock (kind version : Nat) (f : List Nat) (bs : List Byte) : Except BlockErr (List Byte) :=
  let rawLen := fldBits bs 4 2 12 0
  let payLen := fldBits bs 6 2 12 0
  let isRaw := fldBits bs 0 1 4 4 = 1
  let pay := slice bs 16 payLen
  let rsv := fldBits bs 0 1 7 5 = 0 && fldBits bs 1 1 7 6 = 0 && fldBits bs 2 1 7 4 = 0 && fld bs 3 1 = 0
    && fldBits bs 4 2 15 13 = 0 && fldBits bs 6 2 15 13 = 0 && allZero (slice bs 12 4)
  if !rsv || fldBits bs 0 1 3 0 ≠ kind || rawLen = 0 || rawLen > 4096 || rawLen % kindSize kind ≠ 0 then .error .failed
  else if crc32c (slice bs 0 8 ++ pay) ≠ fld bs 8 4 then .error .failed
  else if fldBits bs 2 1 3 0 ≠ version then .error .version
  else if isRaw then (if payLen = rawLen then .ok pay else .error .failed)
  else if payLen < 32 || payLen > 3584 then .error .failed
  else
    let n := rawLen / kindSize kind
    let rs := rawSize kind
    match ransDecode f n (pay.drop (n * rs)) with
    | none => .error .stream
    | some syms =>
      .ok (((List.zip (List.range n) syms).map fun p => toLe (kindSize kind) (joinPlanes kind p.2 (fld pay (p.1 * rs) rs))).flatten)

/-! ### Coded objects (R322) -/

/-- Pad bytes with zeros to a multiple of 64. -/
def pad64 (bs : List Byte) : List Byte := bs ++ zeros (64 * cdiv bs.length 64 - bs.length)

/-- Offsets of padded parts laid end to end, in units of 64 bytes, from a start. -/
def offsets64 : Nat → List (List Byte) → List Nat
  | _, [] => []
  | o, b :: l => o :: offsets64 (o + b.length / 64) l

/-- A coded object: format, slot and version, the plane to code and the side plane. -/
def encodeObject (fmt slot version : Nat) (plane side : List Byte) : List Byte :=
  let kind := planeKind fmt
  let f := buildTable (histogram (symbolsOf kind plane))
  let rec_ := tableRecord slot version (symbolsOf kind plane).length f
  let blocks := (chunks 4096 plane).map fun b => pad64 (encodeBlock kind slot version f b)
  let idxLen := 64 * cdiv (4 * blocks.length) 64
  let side64 := pad64 side
  let start := (640 + idxLen + side64.length) / 64
  let idx := ((offsets64 start blocks).map (toLe 4)).flatten
  let head := toLe 2 0x5348 ++ toLe 1 1 ++ toLe 1 fmt ++ toLe 8 plane.length ++ toLe 4 blocks.length ++ toLe 1 slot
    ++ toLe 1 version ++ zeros 2 ++ toLe 4 side.length ++ toLe 4 (crc32c rec_) ++ toLe 4 (crc32c idx) ++ toLe 4 (crc32c side)
  pad64 (head ++ toLe 4 (crc32c head)) ++ slice rec_ 0 576 ++ pad64 idx ++ side64 ++ blocks.flatten

/-- What a coded object's header says: format, raw length, blocks, slot, version, side length. -/
structure CodedHead where
  fmt     : Nat
  rawLen  : Nat
  blocks  : Nat
  slot    : Nat
  version : Nat
  sideLen : Nat
  deriving DecidableEq, Repr

/-- Header, table, index and side plane of a coded object, when all of their checks pass (R322, R328). -/
def codedHead (bs : List Byte) : Option CodedHead :=
  let h : CodedHead := ⟨fldBits bs 3 1 3 0, fldBits bs 4 8 42 0, fld bs 12 4, fldBits bs 16 1 5 0, fldBits bs 17 1 3 0, fld bs 20 4⟩
  let idxLen := 64 * cdiv (4 * h.blocks) 64
  let ok := fld bs 0 2 = 0x5348 && fld bs 2 1 = 1 && crc32c (slice bs 0 36) = fld bs 36 4
    && (h.fmt < 4 || (8 ≤ h.fmt && h.fmt ≤ 10)) && recordOk (slice bs 64 528)
    && crc32c (slice bs 64 528) = fld bs 24 4 && crc32c (slice bs 640 (4 * h.blocks)) = fld bs 28 4
    && crc32c (slice bs (640 + idxLen) h.sideLen) = fld bs 32 4
  if ok then some h else none

/-- Version and frequencies of a coded object's table record (R318, R322). -/
def recordVersion (bs : List Byte) : Nat := fldBits bs 65 1 3 0
def recordTable (bs : List Byte) : List Nat := recordFreqs (slice bs 64 528)

/-- Raw blocks of a coded object in order, decoded with the table of a slot (R321). -/
def decodeWith (version : Nat) (f : List Nat) (h : CodedHead) (bs : List Byte) : List (Except BlockErr (List Byte)) :=
  (List.range h.blocks).map fun i =>
    let o := 64 * fld bs (640 + 4 * i) 4
    decodeBlock (planeKind h.fmt) version f (slice bs o (16 + fldBits bs (o + 6) 2 12 0))

/-- Raw blocks of a coded object, decoded with the table that it carries. -/
def decodeBlocks (h : CodedHead) (bs : List Byte) : List (Except BlockErr (List Byte)) :=
  decodeWith (recordVersion bs) (recordTable bs) h bs

/-- The cause of a block's failure, 0 for a block that decodes. -/
def causeOfBlock : Except BlockErr (List Byte) → Nat
  | .ok _ => 0
  | .error e => e.cause

/-- Why the head of a coded object fails: 6 a bad table record, else 2 an object CRC. -/
def headCause (bs : List Byte) : Nat :=
  if crc32c (slice bs 64 528) = fld bs 24 4 && !recordOk (slice bs 64 528) then 6 else 2

/-- The side plane of a coded object. -/
def sidePlane (h : CodedHead) (bs : List Byte) : List Byte := slice bs (640 + 64 * cdiv (4 * h.blocks) 64) h.sideLen

/-- Decoded blocks laid end to end when every one decodes. -/
def joinBlocks (l : List (Except BlockErr (List Byte))) : Option (List Byte) :=
  l.foldr (fun b acc =>
    match b, acc with
    | .ok x, some l => some (x ++ l)
    | _, _ => none) (some [])

/-- Decoded plane of a coded object when every block decodes. -/
def decodePlane (h : CodedHead) (bs : List Byte) : Option (List Byte) := joinBlocks (decodeBlocks h bs)

/-- What a whole coded object meets when it is decoded: the causes of its failures with their blocks, and the blocks that decode. -/
structure Decoded where
  fails  : List (Nat × Nat)
  blocks : Nat
  deriving DecidableEq, Repr

/-- Failures and successes of decoded blocks. -/
def Decoded.ofBlocks (l : List Nat) : Decoded :=
  ⟨(l.mapIdx fun i c => (c, i)).filter fun p => p.1 ≠ 0, (l.filter (· = 0)).length⟩

/-- The outcome of decoding a whole coded object. -/
def decoded (bs : List Byte) : Decoded :=
  match codedHead bs with
  | none => ⟨[(headCause bs, 0)], 0⟩
  | some h => Decoded.ofBlocks ((decodeBlocks h bs).map causeOfBlock)

end Sys2Proof.Machine
end

