-- ==== Sys2Proof/Machine/Operands.lean ====
section
/-!
DEFINITION. Operand forms: the stored geometry of an operand (R104, R106–R108, R590), reading its elements from an ordinary or a
coded object (R75, R225, R324, R328), masks (R109–R111), packing and waves (R34–R36, R48), and cycle costs (R46, R47, R105).
-/
namespace Sys2Proof.Machine
open Sys2Proof

/-! ### Stored geometry -/

/-- Stored shape of one batch item: rows, columns, row stride, blocked layout, format code; and the number of items. -/
structure Geo where
  rows : Nat
  cols : Nat
  ld   : Nat
  blk  : Bool
  fmt  : Nat
  items : Nat
  deriving DecidableEq, Repr

/-- The opcode is MATMUL or MATMUL_ACC. -/
def isMM (o : Op) : Bool := o.opcode = 1 || o.opcode = 2

/-- Geometries of A, B, C and D (R104, R590, R592). -/
def geoA (o : Op) : Geo :=
  if isMM o then (if o.turnA then ⟨o.k, o.m, o.ldA, o.blkA, o.fa, o.batch⟩ else ⟨o.m, o.k, o.ldA, o.blkA, o.fa, o.batch⟩)
  else ⟨o.m, o.n, o.ldA, o.blkA, o.fa, o.batch⟩
def geoB (o : Op) : Geo := if o.turnB then ⟨o.n, o.k, o.ldB, o.blkB, o.fb, o.batch⟩ else ⟨o.k, o.n, o.ldB, o.blkB, o.fb, o.batch⟩
def geoC (o : Op) : Geo := ⟨o.m, o.n, o.ldCD, o.blkC, o.fc, o.batch⟩
def geoD (o : Op) : Geo :=
  if o.opcode = 9 then ⟨o.batch, o.m, o.ldCD, o.blkD, o.fd, 1⟩ else ⟨o.m, o.n, o.ldCD, o.blkD, o.fd, o.batch⟩

/-- Byte offset of element (b, r, c) from the start of the view: blocked by R106; row-major items follow each other, rows times
the row stride apart (DESIGN CHOICE, log 8). -/
def elemOff (g : Geo) (b r c : Nat) : Nat :=
  if g.blk then
    let rp := 64 * cdiv g.rows 64
    let cp := 64 * cdiv g.cols 64
    (b * (rp * cp) + (r / 64 * (cp / 64) + c / 64) * 4096 + r % 64 * 64 + c % 64) * esz g.fmt
  else ((b * g.rows + r) * g.ld + c) * esz g.fmt

/-- Bytes that an operand spans. -/
def span (g : Geo) : Nat :=
  if g.blk then g.items * (64 * cdiv g.rows 64) * (64 * cdiv g.cols 64) * esz g.fmt
  else elemOff g (g.items - 1) (g.rows - 1) (g.cols - 1) + esz g.fmt

/-- Every element position of an operand. -/
def positions (g : Geo) : List (Nat × Nat × Nat) :=
  (List.range g.items).flatMap fun b => (List.range g.rows).flatMap fun r => (List.range g.cols).map fun c => (b, r, c)

/-! ### Reading (R75, R225, R324, R328) -/

/-- The bytes of an operand: from the view, or decoded from a coded object; and which byte ranges of it failed. -/
structure Source where
  bytes  : List Byte
  failed : List (Nat × Nat)
  /-- The failure is Shingle's (R328). -/
  coded  : Bool
  /-- Of a coded object: the cause of each block's failure, 0 where it decodes; that of the head's failure, 0 where it checks. -/
  causes : List Nat
  head   : Nat
  deriving DecidableEq, Repr

/-- The handle names a coded object. -/
def isCoded (s : State) (h : Hdl) : Bool :=
  match objOf s h with
  | some o => o.coded
  | none => false

/-- Stored bytes of a coded object, to the end of the last block that its index names. -/
def codedBytes (s : State) (h : Hdl) : List Byte :=
  let n := fld (peek s (addrOf h) 64) 12 4
  let last := if n = 0 then 0 else 64 * fld (peek s (addrOf h + 640 + 4 * (n - 1)) 4) 0 4
  peek s (addrOf h) (min (extent s h) (max (last + 4160) (704 + 4 * n + fld (peek s (addrOf h) 64) 20 4)))

/-- Header of a coded object, when it checks. -/
def codedRaw (s : State) (h : Hdl) : Option CodedHead :=
  codedHead (peek s (addrOf h) (640 + 64 * cdiv (4 * fld (peek s (addrOf h) 64) 12 4) 64 + fld (peek s (addrOf h) 64) 20 4))

/-- Decode an operand's plane, block by block: a failed block fails its raw bytes, a failed header the whole (R328). -/
def codedSource (s : State) (h : Hdl) : Source :=
  match codedRaw s h with
  | none => ⟨[], [(0, 2 ^ 43)], true, [], headCause (codedBytes s h)⟩
  | some hd =>
    let bs := codedBytes s h
    let parts := decodeBlocks hd bs
    let lenOf (i : Nat) := if i + 1 < hd.blocks then 4096 else hd.rawLen - 4096 * (hd.blocks - 1)
    let one (i : Nat) (r : Except BlockErr (List Byte)) : List Byte × List (Nat × Nat) :=
      let o := 64 * fld bs (640 + 4 * i) 4
      match r with
      | .ok x => if badRange s (addrOf h + o) (16 + fldBits bs (o + 6) 2 12 0) then (x, [(4096 * i, lenOf i)]) else (x, [])
      | .error _ => (zeros (lenOf i), [(4096 * i, lenOf i)])
    let out := parts.mapIdx one
    let causes := parts.map causeOfBlock
    ⟨out.flatMap (·.1), out.flatMap (·.2), causes.any (· ≠ 0), causes, 0⟩

/-- Change Shingle's structure. -/
def modShg (s : State) (f : Shingle → Shingle) : State := { s with shg := f s.shg }

/-- SHG_ERR and its block and tick (R340, R341). -/
def shgError (s : State) (slot cause berth block : Nat) : State :=
  let s := wrs s [(SHG_ERR_slot, slot), (SHG_ERR_cause, cause), (SHG_ERR_berth, berth)]
  modShg s fun g => { g with errBlock := BitVec.ofNat 32 block, errTick := s.lh.tick }

/-- A failed check of a block or an object: status bit and count of its kind, and SHG_ERR (R321, R328, R341). -/
def shgFail (s : State) (b slot : Nat) (e : Nat × Nat) : State :=
  shgError (if e.1 = 3 then count (wrOr s SHG_IRQ_STAT_version 1) 0x1806 1 else count (wrOr s SHG_IRQ_STAT_crc 1) 0x1805 1) slot e.1 b e.2

/-- Blocks have been decoded: those that decode counted, every failure recorded, the last one standing in SHG_ERR. -/
def shgReport (s : State) (b slot : Nat) (d : Decoded) : State := foldS (fun s e => shgFail s b slot e) (count s 0x1804 d.blocks) d.fails

/-- Bad codewords of memory that a range of a handle meets, as byte ranges from the view. -/
def badParts (s : State) (h : Hdl) (n : Nat) : List (Nat × Nat) :=
  let a := addrOf h
  let words := (s.mem.bad.filter fun c => c < a + n && a < c + cwSize (tierAt s c)).map fun c =>
    (c - a, c + cwSize (tierAt s c) - max c a)
  let pages := ((pagesOf a n).filter fun p => tierAt s p = 3 && chanLost s (chanAt s p)).map fun p => (p - a, p + pageSize - max p a)
  words ++ pages

/-- The bytes of an operand of `n` bytes. -/
def loadSource (s : State) (h : Hdl) (n : Nat) : Source :=
  if isCoded s h then codedSource s h else ⟨peek s (addrOf h) n, badParts s h n, false, [], 0⟩

/-- A byte range meets a failed one. -/
def hits (l : List (Nat × Nat)) (o n : Nat) : Bool := l.any fun p => p.1 < o + n && o < p.1 + p.2

/-- Element (b, r, c) as FP32 bits: the canonical quiet NaN where its word failed (R225). -/
def elemVal (src : Source) (g : Geo) (b r c : Nat) : W32 :=
  let o := elemOff g b r c
  if hits src.failed o (esz g.fmt) then nan32 else widen g.fmt (leNat (slice src.bytes o (esz g.fmt)))

/-- Reading an element fails. -/
def elemBad (src : Source) (g : Geo) (b r c : Nat) : Bool := hits src.failed (elemOff g b r c) (esz g.fmt)

/-! ### Masks, packing and waves -/

/-- Bits that a mask uses (R109). -/
def maskBits (o : Op) : Nat :=
  match o.maskMode with
  | 1 => o.m
  | 2 => cdiv o.m 64 * cdiv o.n 64
  | _ => 0

/-- Bit i of a bitmap. -/
def maskBit (mask : List Byte) (i : Nat) : Bool := (nth mask (i / 8) 0).getLsbD (i % 8)

/-- Element (m, n) is computed and written (R109, R110). -/
def unmasked (o : Op) (mask : List Byte) (i j : Nat) : Bool :=
  match o.maskMode with
  | 0 => true
  | 1 => maskBit mask i
  | _ => maskBit mask (i / 64 * cdiv o.n 64 + j / 64)

/-- Output block (i, j) holds an unmasked element. -/
def blockRuns (o : Op) (mask : List Byte) (i j : Nat) : Bool :=
  match o.maskMode with
  | 0 => true
  | 1 => (rangeFrom (64 * i) (min 64 (o.m - 64 * i))).any (maskBit mask)
  | _ => maskBit mask (i * cdiv o.n 64 + j)

/-- Packing factor (R35): pack codes 1 to 3 force 1, 2 and 4; 0 chooses, or gives 1 when auto_pack is clear. -/
def packOf (auto_ : Bool) (pack m n : Nat) : Nat :=
  match pack with
  | 0 => if !auto_ then 1 else if m ≤ 512 && n ≤ 512 then 4 else if m ≤ 1024 && n ≤ 1024 then 2 else 1
  | 1 => 1
  | 2 => 2
  | _ => 4

/-- Side of a sub-grid in tiles. -/
def gridSide (s : Nat) : Nat := 32 / s

/-- The wave (row, column) runs: some block of it is unmasked (R48). -/
def waveRuns (o : Op) (s : Nat) (mask : List Byte) (wi wj : Nat) : Bool :=
  let g := gridSide s
  o.maskMode = 0 ||
    (rangeFrom (wi * g) (min g (cdiv o.m 64 - wi * g))).any fun i =>
      (rangeFrom (wj * g) (min g (cdiv o.n 64 - wj * g))).any fun j => blockRuns o mask i j

/-- Wave rows and columns of an operation. -/
def waveRows (o : Op) (s : Nat) : Nat := cdiv o.m (64 * gridSide s)
def waveCols (o : Op) (s : Nat) : Nat := cdiv o.n (64 * gridSide s)

/-- Waves that run (R46, R48). -/
def wavesRun (o : Op) (s : Nat) (mask : List Byte) : Nat :=
  let one := if o.maskMode = 0 then waveRows o s * waveCols o s
    else ((List.range (waveRows o s)).flatMap fun i => (List.range (waveCols o s)).filter fun j => waveRuns o s mask i j).length
  cdiv o.batch (s * s) * one

/-! ### Costs (R43, R46, R47, R105) -/

/-- Twice the cycles per k value (R43): 0 when formats and precision form no row. -/
def twiceP (prec fa fb : Nat) : Nat :=
  if prec = 0 then (if fa = 0 && fb = 0 then 2 else if (fa = 2 || fa = 3) && (fb = 2 || fb = 3) then 1 else 0)
  else if fa = 1 && fb = 1 then (if prec = 1 then 6 else if prec = 2 then 12 else 0) else 0

/-- Cycles of one wave of a product over k with 2p given (R46). -/
def waveCycles (k p2 : Nat) : Nat := max (cdiv k 64 * 32 * p2) 64

/-- R46 for an unmasked product of a batch, with packing by R35. An engine pass always packs so, whatever SHF_CTL.auto_pack holds
(DESIGN CHOICE, log 177). -/
def gemmCost (batch m n k p2 : Nat) : Nat :=
  let s := packOf true 0 m n
  160 + cdiv batch (s * s) * cdiv m (64 * gridSide s) * cdiv n (64 * gridSide s) * waveCycles k p2

/-- R46 counting only the waves on and below the diagonal (R134). -/
def symmCost (batch e k p2 : Nat) : Nat :=
  let s := packOf true 0 e e
  let q := cdiv e (64 * gridSide s)
  160 + cdiv batch (s * s) * (q * (q + 1) / 2) * waveCycles k p2

/-- R47 for `e` elements and `bytes` moved. -/
def vecCost (e bytes : Nat) : Nat := 160 + max (cdiv e 131072) (cdiv bytes 64000)

/-- Bytes that ELTWISE and ROW_REDUCE move (R47): A, C and the bias where used, and D (DESIGN CHOICE, log 9). -/
def movedBytes (o : Op) : Nat :=
  let e := o.batch * o.m * o.n
  if o.opcode = 9 then e * esz o.fa + o.batch * o.m * esz o.fd
  else e * esz o.fa + (if o.epAddc then e * esz o.fc else 0) + (if o.epBias then 4 * (if o.biasRow then o.m else o.n) else 0)
    + e * esz o.fd

/-- Cycles of a host operation: issuing, fixed and turn-buffer cycles (R46, R47, R105). The cycle of WAIT_SIGNAL is an issuing one, which
counts as ACTIVE_STREAM (DESIGN CHOICE, log 195). -/
def opCost (o : Op) (s waves : Nat) : Nat × Nat × Nat :=
  if o.opcode = 0x3F then (1, 0, 0)
  else if isMM o then
    let p2 := twiceP o.prec o.fa o.fb
    let tb := (if o.turnA && !o.blkA then esz o.fa else 0) + (if o.turnB && !o.blkB then esz o.fb else 0)
    let base := waveCycles o.k p2
    let full := max (cdiv o.k 64 * max (32 * p2) (32 * s * tb)) 64
    (waves * base, 160, waves * (full - base))
  else (vecCost (o.batch * o.m * o.n) (movedBytes o) - 160, 160, 0)

/-- The scheduler's cost of a stream head, by R46 or R47, with every wave (R53). -/
def headCost (s : State) (d : List Byte) : Nat :=
  let o := parseOp d
  let sp := packOf (rdb s SHF_CTL_auto_pack) o.pack o.m o.n
  let c := opCost o sp (wavesRun { o with maskMode := 0 } sp [])
  c.1 + c.2.1

/-! ### Contiguous writes -/

/-- Cut a map of bytes into contiguous runs. -/
def runsOf : NMap Byte → List (Nat × List Byte)
  | [] => []
  | (k, v) :: m =>
    match runsOf m with
    | (k', l) :: r => if k' = k + 1 then (k, v :: l) :: r else (k, [v]) :: (k', l) :: r
    | [] => [(k, [v])]

/-- Add bytes at an offset to a map of bytes. -/
def putBytes (m : NMap Byte) (o : Nat) : List Byte → NMap Byte
  | [] => m
  | b :: bs => putBytes (mset m o b) (o + 1) bs

/-- Write a map of bytes to a handle, run by run; whether a read-modify-write failed, which is noted (R227). -/
def writeRuns (s : State) (h : Hdl) (m : NMap Byte) : State × Bool :=
  (runsOf m).foldl (fun acc r =>
    let w := writeN acc.1 h r.1 r.2
    (w.1, acc.2 || w.2)) (s, false)

end Sys2Proof.Machine
end

