-- ==== Sys2Proof/Machine/Curv.lean ====
section
/-!
DEFINITION. The matrix work of Sounding and the Solver (R133–R135, R143–R152): symmetric products, LDLᵀ inverse, coupled Newton
roots, orthogonalisation, and the passes that each takes.
-/
namespace Sys2Proof.Machine
open Sys2Proof

/-- A matrix of FP32 values by rows. -/
abbrev Mat := List (List W32)

/-- Element of a matrix. -/
def at2 (m : Mat) (r c : Nat) : W32 := nth (nth m r []) c 0

/-- A matrix from a function of row and column. -/
def build (rows cols : Nat) (f : Nat → Nat → W32) : Mat := (List.range rows).map fun r => (List.range cols).map fun c => f r c

/-- Rows of a flat list. -/
def ofFlat (cols : Nat) (l : List W32) : Mat := chunks cols l

/-- Only the blocks on and below the diagonal of 2,048-wide waves are computed; the others are transposes of their mirrors (R134). -/
def symm (e : Nat) (f : Nat → Nat → W32) : Mat := build e e fun r c => if r / 2048 ≥ c / 2048 then f r c else f c r

/-- Product of two matrices in a precision mode (R80, R88). -/
def mulMat (prec rows k cols : Nat) (a b : Mat) : Mat := build rows cols fun r c => dot prec (at2 a r) (fun i => at2 b i c) k none

/-- Symmetric product in BF16x3 (SLV_SYMM). -/
def mulSym (e : Nat) (a b : Mat) : Mat := symm e fun r c => dot 2 (at2 a r) (fun i => at2 b i c) e none

/-! ### Scalar reductions (R143) -/

/-- Trace. -/
def trace (e : Nat) (a : Mat) : W32 := (reduce64 fadd ((List.range e).map fun i => at2 a i i)).getD 0

/-- Largest diagonal element, 1 when that is 0 (R145). -/
def diagMax (e : Nat) (a : Mat) : W32 :=
  let m := (reduce64 fmax ((List.range e).map fun i => at2 a i i)).getD 0
  if feq m 0 then one32 else m

/-- Largest |m − i|. -/
def deviation (e : Nat) (m : Mat) : W32 :=
  (reduce64 fmax ((List.range e).flatMap fun r => (List.range e).map fun c =>
    fabs (fsub (at2 m r c) (if r = c then one32 else 0)))).getD 0

/-- Frobenius norm of values in row-major order. -/
def frobenius (l : List W32) : W32 := fsqrt ((reduce64 fadd (l.map fun v => fmul v v)).getD 0)

/-- x^(−1/2^n), correctly rounded: n square roots and a quotient carried with 200 bits. -/
def invRoot (x : W32) (n : Nat) : W32 :=
  let r := (List.range n).foldl (fun v _ => sqrtFl 200 v) (v32 x)
  f32 (divFl 200 (.fin false 1 0) r)

/-- The λ-damped block: a + λ · I. -/
def damp (e : Nat) (a : Mat) (lam : W32) : Mat := build e e fun r c => if r = c then fadd (at2 a r c) lam else at2 a r c

/-! ### Inverse by LDLᵀ (R144, R145) -/

/-- Sum over ascending terms; absent when there is none. -/
def sumUp (l : List W32) : Option W32 := l.foldl (fun acc v => comb fadd acc (some v)) none

/-- Difference with an absent term. -/
def subOpt (a : W32) : Option W32 → W32
  | none => a
  | some b => fsub a b

/-- The factors so far: columns of L, each from row 0, and d. -/
structure Ldl where
  cols : Mat
  d    : List W32
  deriving DecidableEq, Repr

/-- l[r, c] of the factors. -/
def Ldl.l (f : Ldl) (r c : Nat) : W32 := at2 f.cols c r

/-- One column of a panel that starts at column p; none when its pivot fails. -/
def ldlCol (e : Nat) (h : Mat) (floor_ : W32) (p : Nat) (f : Ldl) (c : Nat) : Option Ldl :=
  let prev := rangeFrom p (c - p)
  let dv := subOpt (at2 h c c) (sumUp (prev.map fun l => fmul (fmul (f.l c l) (f.l c l)) (nth f.d l 0)))
  if isFinite dv && flt floor_ dv then
    let col := (List.range e).map fun r =>
      if r < c then (0 : W32)
      else if r = c then one32
      else fdiv (subOpt (at2 h r c) (sumUp (prev.map fun l => fmul (fmul (f.l r l) (nth f.d l 0)) (f.l c l)))) dv
    some ⟨f.cols ++ [col], f.d ++ [dv]⟩
  else none

/-- Columns of a panel. -/
def ldlPanel (e : Nat) (h : Mat) (floor_ : W32) (p : Nat) : List Nat → Ldl → Option Ldl
  | [], f => some f
  | c :: cs, f =>
    match ldlCol e h floor_ p f c with
    | some f => ldlPanel e h floor_ p cs f
    | none => none

/-- Trailing update after the panel that starts at p and is w wide (SLV_SYMM, BF16x3). -/
def ldlTrail (e : Nat) (h : Mat) (f : Ldl) (p w : Nat) : Mat :=
  build e e fun r c =>
    if r < p + w || c < p + w || c > r then at2 h r c
    else fsub (at2 h r c) (dot 2 (fun i => fmul (f.l r (p + i)) (nth f.d (p + i) 0)) (fun i => f.l c (p + i)) w none)

/-- The panels in turn; fuel is their number. A failed pivot answers how many panels have been worked on, its own among them. -/
def ldlPanels (e w : Nat) (floor_ : W32) : Nat → Nat → Mat → Ldl → Except Nat Ldl
  | 0, _, _, f => .ok f
  | n + 1, p, h, f =>
    match ldlPanel e h floor_ p (rangeFrom p (min w (e - p))) f with
    | some f => ldlPanels e w floor_ n (p + w) (ldlTrail e h f p (min w (e - p))) f
    | none => .error (p / w + 1)

/-- Inverse of the unit lower factor within a diagonal 64-block: row by row on the vector units. -/
def lowInvRows (f : Ldl) (p n : Nat) : Mat :=
  (List.range n).foldl (fun y r => y ++ [(List.range n).map fun c =>
    if c > r then 0 else if c = r then one32
    else match sumUp ((rangeFrom c (r - c)).map fun k => fmul (f.l (p + r) (p + k)) (at2 y k c)) with
      | some v => fneg v
      | none => 0]) []

/-- Inverse of the unit lower factor: diagonal 64-blocks, then block rows by products in BF16x3. -/
def lowInv (e : Nat) (f : Ldl) : Mat :=
  let nb := cdiv e 64
  let size (i : Nat) := min 64 (e - 64 * i)
  (List.range nb).foldl (fun (y : Mat) i =>
    let dg := lowInvRows f (64 * i) (size i)
    let row (r : Nat) : List W32 := (List.range e).map fun c =>
      let j := c / 64
      if j > i then 0
      else if j = i then at2 dg r (c - 64 * i)
      else
        let w (q : Nat) : W32 := dot 2 (fun k => f.l (64 * i + q) (64 * j + k)) (fun k => at2 y (64 * j + k) c) (64 * (i - j)) none
        fneg (dot 2 (fun q => at2 dg r q) w (size i) none)
    y ++ (List.range (size i)).map row) []

/-- Every element of a matrix is finite. -/
def matFinite (m : Mat) : Bool := m.all allFinite

/-- One LDLᵀ attempt on a damped block (R144): the inverse, or the number of panels worked on when a pivot fails. A result that is not
finite fails the attempt after every pass (R141), with the number of panels plus 1. -/
def ldlInv (e : Nat) (h : Mat) (floor_ : W32) : Except Nat Mat :=
  let w := min e 2048
  match ldlPanels e w floor_ (cdiv e w) 0 h ⟨[], []⟩ with
  | .error j => .error j
  | .ok f =>
    let y := lowInv e f
    let z := build e e fun k c => fmul (fdiv one32 (nth f.d k 0)) (at2 y k c)
    let x := symm e fun r c => dot 2 (fun k => at2 y k r) (fun k => at2 z k c) e none
    if matFinite x then .ok x else .error (cdiv e w + 1)

/-! ### Roots (R148–R151) -/

/-- n squarings. -/
def squarings (e : Nat) : Nat → Mat → Mat
  | 0, m => m
  | n + 1, m => squarings e n (mulSym e m m)

/-- The iteration of R148 from iteration number k, with `left` iterations remaining: the root and the iterations done, or failure
after some. `prev` holds the last two deviations. -/
def iterate (e lg : Nat) (tol : W32) : Nat → Nat → Mat → Mat → Option W32 → Option W32 → Except Nat (Mat × Nat)
  | 0, k, x, m, _, _ => if fle (deviation e m) tol then .ok (x, k - 1) else .error (k - 1)
  | left + 1, k, x, m, prev, prev2 =>
    let res := deviation e m
    let worse := match prev, prev2 with
      | some a, some b => k ≥ 3 && flt a res && flt b a
      | _, _ => false
    if fle res tol then .ok (x, k - 1)
    else if !isFinite res || worse then .error (k - 1)
    else
      let p1 := f32Nat (2 ^ lg + 1)
      let ip := f32Scaled 1 (-(lg : Int))
      let t := build e e fun r c => fmul (fsub (if r = c then p1 else 0) (at2 m r c)) ip
      iterate e lg tol left (k + 1) (mulSym e x t) (mulSym e (squarings e lg t) m) (some res) prev

/-- A cold start (R149). -/
def rootCold (e lg : Nat) (tol : W32) (kmax : Nat) (h : Mat) : Except Nat (Mat × Nat) :=
  let t := trace e h
  let x0 := invRoot t lg
  let sc := fdiv one32 t
  iterate e lg tol kmax 1 (build e e fun r c => if r = c then x0 else 0) (build e e fun r c => fmul (at2 h r c) sc) none none

/-- A warm start from the live root (R151): the root and iterations, or the iterations spent and whether the check was what failed. -/
def rootWarm (e lg : Nat) (tol : W32) (kmax : Nat) (h r : Mat) : Except (Nat × Bool) (Mat × Nat) :=
  let conj (y : Mat) : Mat := mulSym e (mulMat 2 e e e y h) y
  match iterate e lg tol kmax 1 r (conj (squarings e (lg - 1) r)) none none with
  | .error k => .error (k, false)
  | .ok (x, k) =>
    if fle (deviation e (conj (squarings e (lg - 1) x))) (fmul (f32Nat 4) tol) then .ok (x, k) else .error (k, true)

/-! ### Orthogonalisation (R152, R153) -/

/-- Settings of an ORTH request: precision, quintic form, iterations, coefficients, tolerance. -/
structure OrthSet where
  prec    : Nat
  quintic : Bool
  kmax    : Nat
  qa : W32
  qb : W32
  qc : W32
  tol : W32
  deriving DecidableEq, Repr

/-- What native precision holds between passes (R152). -/
def hold (prec : Nat) (m : Mat) : Mat := if prec = 0 then m.map fun r => r.map rneBf16 else m

/-- A product in the request's precision; native operands stand in BF16. -/
def orthMul (prec rows k cols : Nat) (a b : Mat) : Mat := mulMat prec rows k cols a b

/-- The loop of R152: the result and the iterations done. -/
def orthLoop (st : OrthSet) (a c : Nat) : Nat → Nat → Mat → Mat × Nat
  | 0, k, x => (x, k)
  | left + 1, k, x =>
    let xt := build c a fun r i => at2 x i r
    let s := hold st.prec (symm a fun r i => dot st.prec (at2 x r) (fun q => at2 xt q i) c none)
    if !st.quintic && fle (deviation a s) st.tol then (x, k)
    else
      let last := left = 0
      let keep (m : Mat) := if last then m else hold st.prec m
      let x' : Mat :=
        if st.quintic then
          let q := hold st.prec (symm a fun r i =>
            fadd (fmul (dot st.prec (at2 s r) (fun t => at2 s t i) a none) st.qc) (fmul st.qb (at2 s r i)))
          let qx := orthMul st.prec a a c q x
          build a c fun r i => fadd (at2 qx r i) (fmul st.qa (at2 x r i))
        else
          let sx := orthMul st.prec a a c s x
          build a c fun r i => fadd (fmul (f32Scaled 1 (-1) ||| 0x80000000#32) (at2 sx r i)) (fmul (f32Scaled 3 (-1)) (at2 x r i))
      orthLoop st a c left (k + 1) (keep x')

/-- The polar factor of an a × c matrix, with a ≤ c after transposition; none for ORTH_ZERO (R152, R153). -/
def orthSolve (st : OrthSet) (rows cols : Nat) (g : List W32) : Option (List W32) × Nat :=
  let flip_ := rows > cols
  let a := if flip_ then cols else rows
  let c := if flip_ then rows else cols
  let gm := ofFlat cols g
  let m : Mat := if flip_ then build a c fun r i => at2 gm i r else gm
  let nrm := frobenius (if flip_ then m.flatten else g)
  if feq nrm 0 || !isFinite nrm then (none, 0)
  else
    let inv := fdiv one32 nrm
    let x := hold st.prec (build a c fun r i => fmul (at2 m r i) inv)
    let r := orthLoop st a c st.kmax 0 x
    if matFinite r.1 then
      (some (if flip_ then (build rows cols fun r' i => at2 r.1 i r').flatten else r.1.flatten), r.2)
    else (none, r.2)

/-! ### Passes of an attempt (R154, R156) -/

/-- Cost of SLV_VEC for a batch of blocks of size e. -/
def slvVec (batch e : Nat) : Nat × Nat := (0x25, vecCost (batch * e * e) (8 * batch * e * e))
/-- Costs of SLV_SYMM and SLV_GEMM in BF16x3. -/
def slvSymm (batch e : Nat) : Nat × Nat := (0x22, symmCost batch e e 12)
def slvGemm (batch e : Nat) : Nat × Nat := (0x23, gemmCost batch e e e 12)

/-- Passes of an LDLᵀ attempt of which `panels` panels are worked on: with fewer than its last, or a pivot that fails in the last,
it ends at that panel; a number above the panels' stands for the whole attempt. -/
def invPasses (batch e panels : Nat) : List (Nat × Nat) :=
  let w := min e 2048
  let q := cdiv e w
  [slvVec batch e] ++ ((List.range (min panels q)).flatMap fun j =>
      (0x24, 160 + 40 * min w (e - j * w) * batch) ::
        (if j + 1 < min panels q then [(0x22, symmCost batch (e - (j + 1) * w) w 12)] else []))
    ++ (if panels ≤ q then [] else
      ((rangeFrom 1 (q - 1)).map fun d => (0x23, 160 + 12288 * d * (q - d) * batch)) ++ [slvVec batch e, slvSymm batch e])

/-- Passes of k iterations of R148 with the VEC pass that ends them. -/
def iterPasses (batch e lg k : Nat) : List (Nat × Nat) :=
  ((List.range k).flatMap fun _ => slvVec batch e :: List.replicate (2 + lg) (slvSymm batch e)) ++ [slvVec batch e]

/-- Passes of the setup or the check of a warm start. -/
def warmPasses (batch e lg : Nat) : List (Nat × Nat) :=
  List.replicate (lg - 1) (slvSymm batch e) ++ [slvGemm batch e, slvSymm batch e, slvVec batch e]

/-- Passes of an ORTH request of k iterations. -/
def orthPasses (st : OrthSet) (rows cols k : Nat) : List (Nat × Nat) :=
  let a := min rows cols
  let c := max rows cols
  let p2 := if st.prec = 0 then 2 else if st.prec = 1 then 6 else 12
  let s1 : Nat × Nat := (0x22, symmCost 1 a c p2)
  let s2 : Nat × Nat := (0x22, symmCost 1 a a p2)
  let g : Nat × Nat := (0x23, gemmCost 1 a c a p2)
  let one : List (Nat × Nat) := if st.quintic then [s1, s2, g] else [s1, g]
  let tail : List (Nat × Nat) := if !st.quintic && k < st.kmax then [s1] else []
  (0x25, vecCost (rows * cols) ((if st.prec = 0 then 6 else 8) * rows * cols)) :: ((List.range k).flatMap fun _ => one) ++ tail

end Sys2Proof.Machine
end

