-- ==== Sys2Proof/Machine/Flags.lean ====
section
/-!
DEFINITION. What results leave behind: the census of values that leave the range of their format (R96–R98), and the step flag.
-/
namespace Sys2Proof.Machine
open Sys2Proof

/-- Category of R96 for a value before the cast and the written bits: 0 OVF, 1 NAN, 2 SUB, 3 ZERO. -/
def category (code : Nat) (v : W32) (w : Nat) : Option Nat :=
  let f := fmtOf code
  match v32 v with
  | .nan => some 1
  | .inf _ => none
  | .fin _ m _ =>
    if m = 0 then none
    else match decodeFl f (encodeFl f false (v32 v)) with
      | .nan => some 0
      | .inf _ => some 0
      | .fin _ _ _ =>
        let e := bits w (f.ew + f.mw - 1) f.mw
        let x := w % 2 ^ f.mw
        if e = 0 && x = 0 then some 3 else if e = 0 then some 2 else none

/-- Counts of the four categories in a list of them. -/
def tally (l : List (Option Nat)) : List Nat := (List.range 4).map fun c => l.countP (· = some c)

/-- Change the census structure. -/
def modNum (s : State) (f : Numbers → Numbers) : State := { s with num := f s.num }

/-- Add counts of a format to a list of sixteen, each saturating at 2^32 − 1 (R97). -/
def addCounts (cnt : List Nat) (fmt : Nat) (n : List Nat) : List Nat :=
  (List.range 16).map fun i => satAdd 0xFFFFFFFF (nth cnt i 0) (if i / 4 = fmt then nth n (i % 4) 0 else 0)

/-- Count into the census of a berth (R96–R98): a counter that is counted into and stands at its top has saturated. -/
def census (s : State) (b layer fmt : Nat) (n : List Nat) : State :=
  if n.all (· = 0) then s
  else
    let k := 1024 * b + layer % 1024
    let e := (mget s.num.census k).getD ⟨0, List.replicate 16 0⟩
    let fresh := e.counts.all (· = 0)
    let cnt := addCounts e.counts fmt n
    let s := if fresh then
        (if (fget s.num.dirty b).length < 64 then
          modNum s fun x => { x with dirty := fmod x.dirty b (· ++ [layer % 1024]) }
        else wrOr s NUM_IRQ_STAT_dirty_ovf (2 ^ b))
      else if e.tag ≠ layer then wrOr s NUM_IRQ_STAT_alias (2 ^ b) else s
    let top (i : Nat) : Bool := i / 4 = fmt && nth n (i % 4) 0 ≠ 0 && nth cnt i 0 = 0xFFFFFFFF
    let s := if (List.range 16).any top then wrOr s NUM_IRQ_STAT_sat (2 ^ b) else s
    modNum s fun x => { x with census := mset x.census k ⟨if fresh then layer else e.tag, cnt⟩ }

/-- Sample a berth's census as its core does once a tick (R99): the dirty entries, or all of them after an overflow, go to the
64-bit totals and return to zero. -/
def censusSample (s : State) (b : Nat) : State :=
  let ovf := bit (rd s NUM_IRQ_STAT_dirty_ovf) b
  let idx := if ovf then List.range 1024 else fget s.num.dirty b
  let take (s : State) (i : Nat) : State :=
    match mget s.num.census (1024 * b + i) with
    | none => s
    | some e =>
      let k := 65536 * b + e.tag
      let old := (mget s.num.totals k).getD (List.replicate 16 0)
      modNum s fun x => { x with
        totals := if e.counts.all (· = 0) then x.totals else mset x.totals k (List.zipWith (fun o c => o + BitVec.ofNat 64 c) old e.counts)
        census := mset x.census (1024 * b + i) ⟨e.tag, List.replicate 16 0⟩ }
  modNum (foldS take s idx) fun x => { x with dirty := fset x.dirty b [] }

end Sys2Proof.Machine
end

