-- ==== Sys2Proof/Machine/Solver.lean ====
section
/-!
DEFINITION. Sounding and the Solver at work (R127–R162): the blocks of a factor slot in memory, SND_COV and SND_MERGE, refreshes,
Solver problems and their attempts, result buffers and the flip.
-/
namespace Sys2Proof.Machine
open Sys2Proof

/-! ### Access -/

/-- Change Sounding, the Solver, a factor slot, a berth's engine queue. -/
def modSnd (s : State) (f : Sounding → Sounding) : State := { s with snd := f s.snd }
def modSlv (s : State) (f : Solver → Solver) : State := { s with slv := f s.slv }
def modFs (s : State) (n : Nat) (f : FSlot → FSlot) : State := modSnd s fun x => { x with slots := mmod x.slots n f }
def pushPass (s : State) (b : Nat) (e : EngPass) : State :=
  { s with shelf := { s.shelf with engines := fmod s.shelf.engines b (· ++ [e]) } }

/-- Value of an Almanac channel for this step, as FP32 (R177, R188): an integer channel's number converted. A descriptor
written since applies from the next evaluation (R189). -/
def almanac (s : State) (b c : Nat) : W32 :=
  match mget s.upd.chans (64 * b + c) with
  | none => 0
  | some ch =>
    match ch.value with
    | some v => if ch.isInt then f32Nat v.toNat else v
    | none => if (parseCh ch.desc).integer then one32 else 0

/-- Row and column of a stored position of a blocked square matrix whose padded side is `pe` (R106). -/
def blkPos (pe i : Nat) : Nat × Nat :=
  let per := pe / 64
  (i / 4096 / per * 64 + i % 4096 / 64, i / 4096 % per * 64 + i % 64)

/-- Stored position of an element. -/
def blkIdx (pe r c : Nat) : Nat := (r / 64 * (pe / 64) + c / 64) * 4096 + r % 64 * 64 + c % 64

/-- Read a blocked square matrix of side e (R106, R225). -/
def readBlk (s : State) (h : Hdl) (off e : Nat) : Mat × Bool :=
  let pe := 64 * cdiv e 64
  let r := readF32N s h off (pe * pe)
  (build e e fun i j => nth r.1 (blkIdx pe i j) 0, r.2)

/-- Write a blocked square matrix of side e, +0 in its padding (R107). -/
def writeBlk (s : State) (h : Hdl) (off e : Nat) (m : Mat) : State × Bool :=
  let pe := 64 * cdiv e 64
  writeF32 s h off ((List.range (pe * pe)).map fun i =>
    let p := blkPos pe i
    if p.1 < e && p.2 < e then at2 m p.1 p.2 else 0)

/-- An engine pass met an uncorrectable error (R225, R589): the step flag, the log and OP_FAULT of its unit. -/
def passFault (s : State) (b unit : Nat) (h : Hdl) (off n : Nat) : State :=
  opFault (setFlag (noteRead s h off n) b) b 0 unit (tierAt s (addrOf h + off))

/-- The same when a flag says that the access failed. -/
def faultIf (bad : Bool) (s : State) (b unit : Nat) (h : Hdl) (off n : Nat) : State := if bad then passFault s b unit h off n else s

/-- Offsets of block u of F, of G and of result buffer i (R129). -/
def offF (f : FsD) (u : Nat) : Nat := 4 * f.before u
def offG (f : FsD) (u : Nat) : Nat := 4 * (f.elems + f.before u)
def offP (f : FsD) (i u : Nat) : Nat := 64 + 4 * (i * f.elems + f.before u)
/-- Bytes of a stored block. -/
def lenBlk (f : FsD) (u : Nat) : Nat := 4 * (f.pe u * f.pe u)

/-! ### Sounding passes (R133–R137) -/

/-- The product of a SND_COV pass: rows of values over which it sums, the offset of its columns, previous content. -/
def covBlock (e base k prec : Nat) (val : Nat → Nat → W32) (prev : Option Mat) : Mat :=
  symm e fun r c => dot prec (fun i => val i (base + r)) (fun i => val i (base + c)) k (prev.map fun m => at2 m r c)

/-- Change the staging of a berth; partition pages that it gives up go to zeroing (R205, R209). -/
def modStages (s : State) (b : Nat) (f : List Stage → List Stage) : State :=
  let t := modSnd s fun x => { x with stages := f x.stages }
  let gone := cdiv (stagedBytes s b) pageSize - cdiv (stagedBytes t b) pageSize
  if gone = 0 then t else modMem t fun m => { m with zeroing := addZeroing m.zeroing 1 0 gone }

/-- A staged operand of a berth has one pass less to serve, and is freed with the last (R133). -/
def lowerStage (s : State) (b id : Nat) : State :=
  modStages s b fun l => (l.map fun y => if y.id = id then { y with left := y.left - 1 } else y).filter (fun y => y.left ≠ 0)

/-- SND_COV of a block (R133, R137). A pass whose slot has been released writes nothing and still lets its staging go. -/
def doCov (s : State) (b : Nat) (e : EngPass) : State :=
  match mget s.snd.slots e.slot with
  | none => lowerStage s b e.stage
  | some f =>
    match f.desc with
    | none => lowerStage s b e.stage
    | some d =>
      let fd := parseFs d
      let u := e.block
      let side := fd.e u
      let prevR := readBlk s fd.hf (offG fd u) side
      let first := !(u ∈ f.gDone)
      let prev := if first then none else some prevR.1
      let go (s : State) (k prec : Nat) (val : Nat → Nat → W32) (bad : Bool) (h : Hdl) (n : Nat) : State :=
        let w := writeBlk s fd.hf (offG fd u) side (covBlock side (u * fd.b) k prec val prev)
        let s := modFs w.1 e.slot fun f => { f with gDone := if first then u :: f.gDone else f.gDone }
        let s := faultIf bad s b 0x02 h 0 n
        faultIf ((!first && prevR.2) || w.2) s b 0x02 fd.hf (offG fd u) (lenBlk fd u)
      let s := count s (0x0E10 + b) 1
      if fd.kind < 2 then
        match s.snd.stages.find? (fun st => st.id = e.stage) with
        | none => s
        | some st =>
          let s := go s st.rows.length (if st.wide then 2 else 0) (fun i c => at2 st.rows i c) false 0 0
          lowerStage s b e.stage
      else
        match mget s.upd.shards e.stage with
        | none => s
        | some sh =>
          let sd := parseSh sh.desc
          let g := readF32N s sd.hg 0 sd.size
          let gm := ofFlat sd.cols g.1
          let s := modFs s e.slot fun f => { f with tokens := 1 }
          if fd.kind = 2 then go s sd.cols 2 (fun i r => at2 gm r i) g.2 sd.hg (4 * sd.size)
          else go s sd.rows 2 (fun i c => at2 gm i c) g.2 sd.hg (4 * sd.size)

/-- One element of the moving average (R135). -/
def mergeElem (fd : FsD) (f g : W32) (t n : Nat) : W32 :=
  if n = 0 then fmul (fdiv fd.scale (f32Nat t)) g
  else fadd (fmul (fdiv (fmul (fsub one32 fd.beta) fd.scale) (f32Nat t)) g) (fmul fd.beta f)

/-- Elements of all blocks, block by block in row-major order. -/
def readAllF (s : State) (fd : FsD) : List W32 × Bool :=
  (List.range fd.nb).foldl (fun acc u =>
    let r := readBlk s fd.hf (offF fd u) (fd.e u)
    (acc.1 ++ r.1.flatten, acc.2 || r.2)) ([], false)

/-- A merge of a step before `step` is queued for the slot, or runs (R138). -/
def mergePending (s : State) (b n : Nat) (step : W64) : Bool :=
  let hit (e : EngPass) : Bool := e.code = 0x21 && e.slot = n && e.step.toNat < step.toNat
  (fget s.shelf.engines b).any hit || (match s.shelf.running with
    | some r => r.engine && r.berth = b && hit r.pass
    | none => false)

/-- Read F as the Solver's input once no merge of an earlier step of the slot is pending (R138). -/
def captureInput (s : State) (n : Nat) : State :=
  match mget s.snd.slots n with
  | none => s
  | some f =>
    match f.refresh with
    | none => s
    | some r =>
      let fd := parseFs r.desc
      if r.reducing || r.input.isSome || mergePending s f.berth n r.step then s
      else
        let x := readAllF s fd
        let s := modFs s n fun f => { f with refresh := some { r with input := some x.1 } }
        faultIf x.2 s f.berth 0x02 fd.hf 0 (4 * fd.elems)

/-- SND_MERGE of a slot (R135): `e.stage` holds the sampled tokens. G is empty afterwards. -/
def doMerge (s : State) (b : Nat) (e : EngPass) : State :=
  match mget s.snd.slots e.slot with
  | none => s
  | some f =>
    match f.desc with
    | none => s
    | some d =>
      let fd := parseFs d
      let one (s : State) (u : Nat) : State :=
        let side := fd.e u
        let fm := readBlk s fd.hf (offF fd u) side
        let gm := readBlk s fd.hf (offG fd u) side
        let w := writeBlk s fd.hf (offF fd u) side (build side side fun r c => mergeElem fd (at2 fm.1 r c) (at2 gm.1 r c) e.stage f.merges)
        faultIf ((f.merges ≠ 0 && fm.2) || gm.2 || w.2) w.1 b 0x02 fd.hf (if gm.2 then offG fd u else offF fd u) (lenBlk fd u)
      let s := foldS one s (List.range fd.nb)
      captureInput (count (modFs s e.slot fun f => { f with merges := f.merges + 1, gDone := [] }) (0x0E20 + b) 1) e.slot

/-- Cost of a SND_COV pass of a block over k terms. -/
def covCost (side k : Nat) (wide : Bool) : Nat := symmCost 1 side k (if wide then 12 else 2)

/-- Cost of a SND_MERGE pass over the blocks of a slot (R154). -/
def mergeCost (fd : FsD) : Nat :=
  let e := ((List.range fd.nb).map fun u => fd.e u * fd.e u).sum
  vecCost e (12 * e)

/-- At a committing boundary: a merge for every slot of the berth that got a SND_COV pass in the step, queued ones among them: those
have sampled tokens (R135). -/
def queueMerges (s : State) (b : Nat) (step : W64) : State :=
  foldS (fun s (p : Nat × FSlot) =>
    match p.2.desc with
    | some d =>
      if p.2.berth = b && p.2.tokens ≠ 0 then
        let s := pushPass s b ⟨0x21, p.1, 0, p.2.tokens, mergeCost (parseFs d), step⟩
        modFs s p.1 fun f => { f with tokens := 0 }
      else s
    | none => s) s s.snd.slots

/-- At a skip of a step: accumulators that it touched empty, tokens 0, its queued SND_COV passes and their staging discarded (R136);
one on the array finds no staging and writes nothing. An accumulator that still waits for the merge of an earlier step keeps its
blocks. -/
def discardCov (s : State) (b : Nat) (step : W64) : State :=
  let s := { s with shelf := { s.shelf with engines := fmod s.shelf.engines b (·.filter (fun e => !(e.code = 0x20 && e.step = step))) } }
  let s := modSnd s fun x => { x with
    slots := x.slots.map fun p => if p.2.berth = b then
        (p.1, { p.2 with gDone := if mergePending s b p.1 step then p.2.gDone else [], tokens := 0 }) else p }
  modStages s b (·.filter fun st => !(st.berth = b && st.step = step))

/-! ### Refreshes (R138–R142) -/

/-- Insert a problem behind the started one and the ORTH requests, by layer, slot and block (R155). -/
def insertProblem (l : List Problem) (p : Problem) : List Problem :=
  match l with
  | [] => [p]
  | q :: r =>
    let key (x : Problem) := (x.layer * 4096 + x.slot) * 4096 + (match x.blocks with
      | y :: _ => y.block
      | [] => 0)
    if q.started || q.orth || key q ≤ key p then q :: insertProblem r p else p :: q :: r

/-- Insert an ORTH request behind the started problem and earlier ORTH requests (R155). -/
def insertOrth (l : List Problem) (p : Problem) : List Problem :=
  match l with
  | [] => [p]
  | q :: r => if q.started || q.orth then q :: insertOrth r p else p :: q :: r

/-- A block not yet solved. -/
def freshBlock (u : Nat) : BlockRes := ⟨u, none, [], 0, 0⟩

/-- Problems of a slot's refresh: all blocks of 512 or 1,024 together, others one by one (R155). -/
def slotProblems (b n : Nat) (fd : FsD) : List Problem :=
  if fd.b ≤ 1024 then [⟨b, n, fd.layer, false, 0, false, 0, (List.range fd.nb).map freshBlock, []⟩]
  else (List.range fd.nb).map fun u => ⟨b, n, fd.layer, false, 0, false, 0, [freshBlock u], []⟩

/-- Issue the refresh of a slot at the boundary that opens a step (R138, R139, R162); `reducing` when F is averaged over a group. -/
def issueRefresh (s : State) (b n : Nat) (step : W64) (reducing : Bool) : State :=
  match mget s.snd.slots n with
  | none => s
  | some f =>
    match f.desc with
    | none => s
    | some d =>
      let fd := parseFs d
      let lam := almanac s b fd.lamChan
      let r : Refresh := ⟨step, d, rd1 s SLV_LAG_lag, List.range fd.nb, reducing, none, 0, 0, lam, lam, false⟩
      let s := modFs s n fun f => { f with refresh := some r, lastRef := some step }
      let s := modSlv s fun x => { x with
        queues := fmod x.queues b fun q => (slotProblems b n fd).foldl insertProblem q }
      -- with an earlier merge of the slot still pending, F is read when that merge completes
      captureInput s n

/-- The refresh's result goes live (R140, R142). -/
def flipRefresh (s : State) (n : Nat) (r : Refresh) : State :=
  let fd := parseFs r.desc
  let rec_ := toLe 8 fd.hash.toNat ++ toLe 4 r.step.toNat ++ toLe 4 r.lamOut.toNat ++ toLe 1 fd.op ++ toLe 1 fd.pCode
    ++ toLe 1 fd.bCode ++ toLe 1 r.code ++ toLe 4 r.iters ++ zeros 40
  let w := writeH s fd.hp 0 rec_
  modFs w.1 n fun f => { f with live := 1 - f.live, refresh := none }

/-- The slot's refresh is due at the berth's present step (R140). -/
def refreshDue (s : State) (f : FSlot) (r : Refresh) : Bool :=
  (fget s.upd.steps f.berth).toNat ≥ r.step.toNat + r.lag

/-- Flip a slot whose refresh is complete and due. -/
def flipIfDue (s : State) (n : Nat) : State :=
  match mget s.snd.slots n with
  | some f =>
    match f.refresh with
    | some r => if r.done && refreshDue s f r then flipRefresh s n r else s
    | none => s
  | none => s

/-- An update that uses the slot has to wait for its refresh (R140). -/
def refreshLate (s : State) (n : Nat) : Bool :=
  match mget s.snd.slots n with
  | some f =>
    match f.refresh with
    | some r => !r.done && refreshDue s f r
    | none => false
  | none => false

/-! ### Attempts (R144–R151) -/

/-- Offset of block u in a refresh's input. -/
def inputOff (fd : FsD) (u : Nat) : Nat := ((List.range u).map fun v => fd.e v * fd.e v).sum

/-- log2 p of a ROOT slot. -/
def FsD.lg (f : FsD) : Nat := f.pCode + 1

/-- The record permits a warm start (R150). -/
def warmOk (s : State) (fd : FsD) : Bool :=
  let r := (readH s fd.hp 0 64).1
  fld r 0 8 = fd.hash.toNat && fld r 16 1 = fd.op && fld r 17 1 = fd.pCode && fld r 18 1 = fd.bCode && fld r 19 1 ≤ 2

/-- What one attempt on a block gives: value when it succeeded, iterations, whether it cold-started, whether it warm-started, whether
the check of that start was made and whether it failed, the iterations of the warm start, and the panels of an inverse. -/
structure Tried where
  value : Option Mat
  iters : Nat
  cold  : Bool
  warm  : Bool
  check : Bool
  reject : Bool
  warmIt : Nat
  panels : Nat
  deriving DecidableEq, Repr

/-- One attempt (R144, R149–R151). A warm start that its check fails is rejected; one whose iteration fails starts cold without counting
as a rejection (DEDUCED, log 199). -/
def tryBlock (s : State) (fd : FsD) (live u : Nat) (a : Mat) (lam : W32) : Tried :=
  let e := fd.e u
  let h := damp e a lam
  if fd.op = 1 then
    match ldlInv e h (fmul (regWord s SLV_TAU.off) (diagMax e a)) with
    | .ok x => ⟨some x, 0, false, false, false, false, 0, cdiv e (min e 2048) + 1⟩
    | .error j => ⟨none, 0, false, false, false, false, 0, j⟩
  else
    let tol := regWord s SLV_TOL.off
    let cold (warm reject : Bool) (w : Nat) : Tried :=
      match rootCold e fd.lg tol (rd1 s SLV_ITER_cold_max) h with
      | .ok (x, k) => ⟨some x, k, true, warm, reject, reject, w, 0⟩
      | .error k => ⟨none, k, true, warm, reject, reject, w, 0⟩
    if warmOk s fd then
      match rootWarm e fd.lg tol (rd1 s SLV_ITER_warm_max) h (readBlk s fd.hp (offP fd live u) e).1 with
      | .ok (x, k) => ⟨some x, k, false, true, true, false, k, 0⟩
      | .error (k, checked) => cold true checked k
    else cold false false 0

/-- Passes of a batch of attempts: what a failure leaves undone is not issued, once it holds for the whole batch. -/
def triedPasses (fd : FsD) (e : Nat) (l : List Tried) : List (Nat × Nat) :=
  let n := l.length
  let mx (f : Tried → Nat) (l : List Tried) := (l.map f).foldl max 0
  if n = 0 then []
  else if fd.op = 1 then invPasses n e (mx (·.panels) l)
  else
    let warm := l.filter fun t => t.warm
    let checked := l.filter fun t => t.check
    let colds := l.filter fun t => t.cold
    (if warm.isEmpty then [] else warmPasses warm.length e fd.lg ++ iterPasses warm.length e fd.lg (mx (·.warmIt) warm)
        ++ (if checked.isEmpty then [] else warmPasses checked.length e fd.lg))
      ++ (if colds.isEmpty then [] else slvVec colds.length e :: iterPasses colds.length e fd.lg (mx (·.iters) colds))

/-- λ of attempt i (R146). -/
def lamOf (s : State) (fd : FsD) (u : Nat) (a : Mat) (lam : W32) (i : Nat) : W32 :=
  let e := fd.e u
  let lam0 := if fd.dampRel then fmul lam (fdiv (trace e a) (f32Nat e)) else lam
  if i = 0 then lam0 else fmul (fmax lam0 (fmul (regWord s SLV_TAU.off) (diagMax e a))) (f32Nat (2 ^ i))

/-- The Solver workspace of a berth is large enough for blocks of side e (R156). -/
def slvRoom (s : State) (b e : Nat) : Bool :=
  let h := fget s.slv.workspace b
  allocated s b h && 24 * e * e ≤ extent s h

/-- Run attempt `p.attempt` of a refresh problem: blocks that end, and the passes that it takes. -/
def refreshAttempt (s : State) (p : Problem) (f : FSlot) (r : Refresh) : Problem × Nat :=
  let fd := parseFs r.desc
  let inp := r.input.getD []
  let block (u : Nat) : Mat := ofFlat (fd.e u) ((inp.drop (inputOff fd u)).take (fd.e u * fd.e u))
  let pre (x : BlockRes) : BlockRes :=
    if x.code.isSome then x
    else if !slvRoom s p.berth fd.b then { x with code := some 5 }
    else if f.merges = 0 then { x with code := some 3 }
    else if !matFinite (block x.block) then { x with code := some 8 }
    else x
  let xs := p.blocks.map pre
  let tried := xs.filterMap fun x =>
    if x.code.isSome then none
    else
      let lam := lamOf s fd x.block (block x.block) r.lam p.attempt
      some (x.block, lam, tryBlock s fd f.live x.block (block x.block) lam)
  let apply (x : BlockRes) : BlockRes :=
    match tried.find? (fun t => t.1 = x.block) with
    | none => x
    | some (_, lam, t) =>
      match t.value with
      | some m => { x with code := some (if t.cold then 2 else if p.attempt = 0 then 0 else 1), value := m.flatten, iters := t.iters, lam := lam }
      | none => { x with code := if p.attempt = 4 then some 8 else none, iters := t.iters, lam := lam }
  let e := match p.blocks with
    | x :: _ => fd.e x.block
    | [] => 0
  ({ p with started := true, blocks := xs.map apply, passes := triedPasses fd e (tried.map (·.2.2)) },
    (tried.filter fun t => t.2.2.reject).length)

/-- Settings of an ORTH request (R152, R164, R173). -/
def orthSet (s : State) (d : ShD) : OrthSet :=
  let k := d.p3.toNat % 256
  ⟨d.prec, k ≠ 0, if k = 0 then rd1 s SLV_ITER_orth_max else k, d.p0, d.p1, d.p2, regWord s SLV_TOL_ORTH.off⟩

/-- Run an ORTH request: the input is d at the start of the update workspace. -/
def orthAttempt (s : State) (p : Problem) : Problem :=
  match mget s.upd.shards p.shard with
  | none => { p with started := true, blocks := [⟨0, some 4, [], 0, 0⟩] }
  | some sh =>
    let d := parseSh sh.desc
    if !slvRoom s p.berth (min d.rows d.cols) then { p with started := true, blocks := [⟨0, some 5, [], 0, 0⟩] }
    else
      let st := orthSet s d
      let g := (readF32N s (fget s.upd.workspace p.berth) 0 d.size).1
      let r := orthSolve st d.rows d.cols g
      { p with started := true, passes := orthPasses st d.rows d.cols r.2,
               blocks := [match r.1 with
                 | some x => ⟨0, some 0, x, r.2, 0⟩
                 | none => ⟨0, some 4, List.replicate d.size 0, r.2, 0⟩] }

/-! ### Results (R141, R146, R147, R161) -/

/-- Record the end of a block: last block, counts, status bits, and the last hold of R146 and R147 (PIVOT_HELD or NO_STATS). -/
def blockEnd (s : State) (b slot code iters : Nat) (lam : W32) : State :=
  let w := BitVec.ofNat 32 (slot + 4096 * code + 65536 * b + 2 ^ 24 * min iters 255)
  let s := count (modSlv s fun x => { x with last := w }) (0x0F00 + code) 1
  let s := if code = 8 || code = 5 then wrOr s SLV_IRQ_STAT_held 1 else s
  let s := if code = 2 then wrOr s SLV_IRQ_STAT_cold 1 else s
  let s := if code = 4 then wrOr s SLV_IRQ_STAT_orth_zero 1 else s
  if code = 8 || code = 3 then modSlv s fun x => { x with holdLast := w, holdLam := lam, holdStep := fget s.upd.steps b } else s

/-- Write one block of a refresh's new buffer: its value, or a copy of the live block (R141, R147). -/
def writeResult (s : State) (b n : Nat) (f : FSlot) (fd : FsD) (x : BlockRes) : State :=
  let e := fd.e x.block
  let code := x.code.getD 8
  let m := if code ≤ 2 then ofFlat e x.value else (readBlk s fd.hp (offP fd f.live x.block) e).1
  let w := writeBlk s fd.hp (offP fd (1 - f.live) x.block) e m
  blockEnd (faultIf w.2 w.1 b 0x02 fd.hp (offP fd (1 - f.live) x.block) (lenBlk fd x.block)) b n code x.iters x.lam

/-- A refresh problem has ended: results written, the refresh's summary brought up to date. The record's final λ is that of the last
block that ended with a result; without one, the channel's (DESIGN CHOICE, log 177). -/
def endRefresh (s : State) (p : Problem) : State :=
  match mget s.snd.slots p.slot with
  | none => s
  | some f =>
    match f.refresh with
    | none => s
    | some r =>
      let fd := parseFs r.desc
      let s := foldS (fun s x => writeResult s p.berth p.slot f fd x) s p.blocks
      let mine := p.blocks.map (·.block)
      let left := r.blocks.filter fun u => !(u ∈ mine)
      let r' := { r with
        blocks := left
        code := p.blocks.foldl (fun c x => max c (x.code.getD 8)) r.code
        iters := p.blocks.foldl (fun k x => max k x.iters) r.iters
        lamOut := p.blocks.foldl (fun l x => if x.code.getD 8 ≤ 2 then x.lam else l) r.lamOut
        done := left.isEmpty }
      flipIfDue (modFs s p.slot fun f => { f with refresh := some r' }) p.slot

/-- Replace the problem at the head of a berth's queue. -/
def setHead (s : State) (b : Nat) (p : Problem) : State :=
  modSlv s fun x => { x with queues := fmod x.queues b fun q => p :: q.tail }

/-- Issue the head problem's next pass, or its next attempt; the problem has ended when neither is left. -/
def slvIssue (s : State) (b : Nat) (p : Problem) : State :=
  match p.passes with
  | q :: qs =>
    let u := match p.blocks with
      | x :: _ => x.block
      | [] => 0
    pushPass (setHead s b { p with passes := qs }) b ⟨q.1, p.slot, u, 0, q.2, fget s.upd.steps b⟩
  | [] => setHead s b p

/-- The head problem has no pass left and every block has its code. -/
def slvEnded (p : Problem) : Bool := p.started && p.passes.isEmpty && p.blocks.all (·.code.isSome)

/-- Begin an attempt of the head problem. -/
def slvAttempt (s : State) (b : Nat) (p : Problem) : State × Problem :=
  if p.orth then (s, orthAttempt s p)
  else
    match mget s.snd.slots p.slot with
    | none => (s, { p with started := true, blocks := [] })
    | some f =>
      match f.refresh with
      | none => (s, { p with started := true, blocks := [] })
      | some r =>
        let a := refreshAttempt s p f r
        (count s 0x0F10 a.2, a.1)

/-- The head problem's input stands ready. -/
def slvCanStart (s : State) (p : Problem) : Bool :=
  p.orth || match mget s.snd.slots p.slot with
    | some f =>
      (match f.refresh with
      | some r => r.input.isSome
      | none => true)
    | none => true

end Sys2Proof.Machine
end

