-- ==== Sys2Proof/Machine/Almanac.lean ====
section
/-!
DEFINITION. The Almanac (R186–R189): schedule channels evaluated in FP64, every operation rounded to nearest even; sqrt, cos and pow
correctly rounded.
-/
namespace Sys2Proof.Machine
open Sys2Proof

/-! ### FP64 (R188) -/

/-- Round a value to FP64. Magnitudes far outside the format go to an infinity or a zero at once. -/
def r64 (v : Fl) : Fl :=
  match v with
  | .fin s m e =>
    if m = 0 then .fin s 0 0
    else
      let top : Int := Nat.log2 m + e
      if top > 1100 then .inf s else if top < -1200 then .fin s 0 0
      else decodeFl fmtFP64 (encodeFl fmtFP64 false v)
  | v => v

def add64 (a b : Fl) : Fl := r64 (addFl a b)
def sub64 (a b : Fl) : Fl := r64 (addFl a (negFl b))
def mul64 (a b : Fl) : Fl := r64 (mulFl a b)
def div64 (a b : Fl) : Fl := r64 (divFl 80 a b)
def sqrt64 (a : Fl) : Fl := r64 (sqrtFl 80 a)
/-- An integer as FP64. -/
def nat64 (n : Nat) : Fl := r64 (.fin false n 0)

/-- A significand cut to 256 bits. -/
def cut (m : Nat) (e : Int) : Nat × Int :=
  let l := Nat.log2 m
  if l < 256 then (m, e) else (m >>> (l - 255), e + ((l - 255 : Nat) : Int))

/-- Trailing zero bits moved into the exponent, at most `k` of them. -/
def odd : Nat → Nat → Int → Nat × Int
  | 0, m, e => (m, e)
  | k + 1, m, e => if m % 2 = 0 && m ≠ 0 then odd k (m / 2) (e + 1) else (m, e)

/-- m^k · 2^(e·k) by squaring, 256 bits carried; fuel is the length of k in bits. -/
def powMag : Nat → Nat → Int → Nat → Nat × Int
  | 0, _, _, _ => (1, 0)
  | f + 1, m, e, k =>
    if k = 0 then (1, 0)
    else
      let h := powMag f m e (k / 2)
      let q := cut (h.1 * h.1) (2 * h.2)
      if k % 2 = 1 then cut (q.1 * m) (q.2 + e) else q

/-- pow(x, k) for an integer k ≥ 0, correctly rounded: pow(x, 0) = 1 for every x (DEDUCED, log 27). -/
def pow64 (x : Fl) (k : Nat) : Fl :=
  if k = 0 then .fin false 1 0
  else match x with
    | .nan => .nan
    | .inf s => .inf (s && k % 2 = 1)
    | .fin s m e =>
      let s' := s && k % 2 = 1
      if m = 0 then .fin s' 0 0
      else
        let o := odd 64 m e
        let r := powMag (Nat.log2 k + 1) o.1 o.2 k
        r64 (.fin s' r.1 r.2)

/-- The FP64 value nearest π: 0x400921FB54442D18. -/
def pi64 : Fl := .fin false 0x1921FB54442D18 (-51)

/-- Terms of the cosine series with 400 fraction bits: the next term, its number, the sum. -/
def cosTerms : Nat → Nat → Int → Int → Int → Int
  | 0, _, _, _, acc => acc
  | n + 1, k, y2, t, acc =>
    let t' := -(t * y2 / 2 ^ 400) / ((2 * k + 1) * (2 * k + 2) : Nat)
    cosTerms n (k + 1) y2 t' (acc + t')

/-- cos of a finite value in 0–π, correctly rounded. -/
def cos64 (x : Fl) : Fl :=
  match x with
  | .fin _ m e =>
    if m = 0 then .fin false 1 0
    else
      let y : Nat := if e ≥ -400 then m <<< (e + 400).toNat else m >>> (-400 - e).toNat
      let y2 : Int := ((y * y / 2 ^ 400 : Nat) : Int)
      let one : Int := 2 ^ 400
      let c := cosTerms 120 0 y2 one one
      r64 (.fin (c < 0) c.natAbs (-400))
  | _ => .nan

/-! ### Evaluation (R187, R188) -/

/-- The FP64 value of a channel at a step (R187). Step counts enter the arithmetic as FP64 values. -/
def evalChan (c : ChD) (n : Nat) : Fl :=
  let base := v32 c.base
  let peak := v32 c.peak
  let final := v32 c.final
  if c.form = 0 then base
  else if c.form = 5 then div64 (nat64 1) (sub64 (nat64 1) (pow64 base (n + 1)))
  else if n < c.w then add64 base (mul64 (sub64 peak base) (div64 (nat64 n) (nat64 c.w)))
  else
    let t := n - c.w
    if c.form = 3 then mul64 peak (sqrt64 (div64 (nat64 (max c.w 1)) (nat64 (t + max c.w 1))))
    else if c.form = 4 then mul64 peak (pow64 (v32 c.aux) (t / c.d))
    else if t < c.h then peak
    else
      let t := t - c.h
      let aux := c.aux.toNat
      let len := if aux = 0 then c.d else aux
      let t := if aux ≠ 0 then t % aux else t
      if t ≥ len then final
      else
        let x := div64 (nat64 t) (nat64 len)
        if c.form = 1 then
          add64 final (div64 (mul64 (sub64 peak final) (add64 (nat64 1) (cos64 (mul64 pi64 x)))) (nat64 2))
        else add64 peak (mul64 (sub64 final peak) x)

/-- Nearest integer, ties to even, clamped to 1–2^31 − 1 (R188). -/
def clampInt (neg : Bool) (m : Nat) (e : Int) : Nat :=
  if neg || m = 0 then 1
  else
    let top : Int := Nat.log2 m + e
    if top ≥ 40 then 2 ^ 31 - 1
    else
      let k := if e ≥ 0 then m <<< e.toNat else rneShift m (-e).toNat
      max 1 (min k (2 ^ 31 - 1))

/-- The delivered word: none when the result is not finite (R188). -/
def chanWord (c : ChD) (n : Nat) : Option W32 :=
  match evalChan c n with
  | .fin s m e =>
    if c.integer then some (BitVec.ofNat 32 (clampInt s m e))
    else
      let w := f32 (.fin s m e)
      if isFinite w then some w else none
  | _ => none

/-- Change the Update Engine's structure. -/
def modUpd (s : State) (f : Updater → Updater) : State := { s with upd := f s.upd }

/-- Evaluate one channel of a berth for its step counter: a non-finite result keeps the previous value,
+0 or the integer 1 where there is none (R188). -/
def evalOne (b : Nat) (s : State) (p : Nat × Chan) : State :=
  let c := parseCh p.2.desc
  let n := fget s.upd.steps b
  if p.1 / 64 ≠ b || !c.enabled then s
  else
    match chanWord c n.toNat with
    | some w => modUpd s fun u => { u with chans := mset u.chans p.1 { p.2 with value := some w, isInt := c.integer, step := n } }
    | none =>
      let s := if p.2.value.isSome then s
        else modUpd s fun u => { u with chans := mset u.chans p.1 { p.2 with value := some (if c.integer then 1 else 0), isInt := c.integer } }
      wrs (wrOr s ALM_IRQ_STAT_bad_value 1) [(ALM_ERR_channel, p.1 % 64), (ALM_ERR_berth, b), (ALM_ERR_cause, 1)]

/-- The Almanac evaluates every enabled channel of a berth (R189). -/
def almEval (s : State) (b : Nat) : State :=
  let s := foldS (evalOne b) s s.upd.chans
  modUpd s fun u => { u with evalStep := fset u.evalStep b (BitVec.ofNat 32 (fget u.steps b).toNat) }

/-- R186: a channel descriptor that SCHED_WRITE refuses. -/
def chanRefused (channel : Nat) (d : List Byte) : Bool :=
  let c := parseCh d
  c.rsv || c.form > 5 || (c.form = 4 && c.d = 0)
    || (c.form = 5 && !(fle 0 c.base && flt c.base one32)) || (channel = 63 && !c.integer) || channel ≥ 64

end Sys2Proof.Machine
end

