-- ==== Sys2Proof/Machine/Program.lean ====
section
/-!
DEFINITION. Update programs (R177–R182) and the second moment's two encodings (R183, R184).
-/
namespace Sys2Proof.Machine
open Sys2Proof

/-! ### Instructions (R178, R179) -/

/-- Fields of an instruction word. -/
structure PIns where
  op  : Nat
  d   : Nat
  a   : Nat
  b   : Nat
  c   : Nat
  imm : Nat
  deriving DecidableEq, Repr

/-- Read an instruction word. -/
def parseIns (w : W32) : PIns :=
  let n := w.toNat
  ⟨bits n 31 26, bits n 25 22, bits n 21 18, bits n 17 14, bits n 13 10, bits n 9 0⟩

/-- Weight of an opcode in cycles for each 131,072 elements; none for a reserved one (R179). -/
def insWeight (op : Nat) : Option Nat :=
  if op ≤ 4 then some 1
  else if op ∈ [0x0B, 0x0D, 0x0E] then some 4
  else if op = 0x14 || op = 0x15 then some 6
  else if op = 0x16 || op = 0x17 then some 8
  else if 8 ≤ op && op ≤ 0x18 then some 1
  else if op = 0x3F then some 0
  else none

/-- Whether an opcode uses d, a, b, c, and the bits of imm that it uses. -/
def insUses (op : Nat) : Bool × Bool × Bool × Bool × Nat :=
  if op = 0 || op = 0x3F then (false, false, false, false, 0)
  else if op = 1 || op = 4 then (true, false, false, false, 0x3FF)
  else if op = 2 then (false, true, false, false, 0x3FF)
  else if op = 3 then (true, false, false, false, 0xF)
  else if op = 0x0C then (true, true, true, true, 0)
  else if op = 0x13 then (true, true, true, true, 7)
  else if op ∈ [0x08, 0x09, 0x0A, 0x0B, 0x11, 0x12] then (true, true, true, false, 0)
  else (true, true, false, false, 0)

/-- A field that the instruction does not use is not 0. -/
def insStray (i : PIns) : Bool :=
  let u := insUses i.op
  (!u.1 && i.d ≠ 0) || (!u.2.1 && i.a ≠ 0) || (!u.2.2.1 && i.b ≠ 0) || (!u.2.2.2.1 && i.c ≠ 0)
    || i.imm &&& u.2.2.2.2 ≠ i.imm

/-- Fault of one instruction in the order of R181: its index, the last index, streams stored before; 0 for none. -/
def insFault (idx last : Nat) (stored : List Nat) (i : PIns) : Nat :=
  if (insWeight i.op).isNone then 0x02
  else if insStray i then 0x03
  else if (i.op = 1 && i.imm > 3) || (i.op = 2 && i.imm > 2) then 0x05
  else if i.op = 4 && i.imm ≥ 64 then 0x06
  else if i.op = 0x13 && i.imm ≥ 6 then 0x08
  else if i.op = 2 && i.imm ∈ stored then 0x04
  else if (i.op == 0x3F) != (idx == last) then 0x07
  else 0

/-- First fault of a program from instruction `idx` on: code and index (R181). -/
def progFault (last : Nat) : Nat → List Nat → List W32 → Option (Nat × Nat)
  | _, _, [] => none
  | idx, stored, w :: ws =>
    let i := parseIns w
    let f := insFault idx last stored i
    if f ≠ 0 then some (f, idx) else progFault last (idx + 1) (if i.op = 2 then i.imm :: stored else stored) ws

/-- Check a program (R181): fault 0x01, then the instructions. -/
def progCheck (ws : List W32) : Option (Nat × Nat) :=
  if ws.isEmpty || ws.length > 256 then some (1, 0) else progFault (ws.length - 1) 0 [] ws

/-- Sum of the weights of a program (R182), and whether it loads G. -/
def progWeight (ws : List W32) : Nat := (ws.map fun w => (insWeight (parseIns w).op).getD 0).sum
def progLoadsG (ws : List W32) : Bool := ws.any fun w => (parseIns w).op = 1 && (parseIns w).imm = 0
/-- The program stores a stream. -/
def progStores (ws : List W32) (st : Nat) : Bool := ws.any fun w => (parseIns w).op = 2 && (parseIns w).imm = st
/-- Channels that a program loads. -/
def progChans (ws : List W32) : List Nat := ws.filterMap fun w => if (parseIns w).op = 4 then some (parseIns w).imm else none

/-! ### A run (R177–R180) -/

/-- Vector registers, one list of values each, and what ST stored by stream. -/
structure PRun where
  regs : NMap (List W32)
  out  : NMap (List W32)
  deriving DecidableEq, Repr

/-- What a program reads: streams by code, scalars, Almanac values. -/
structure PIn where
  rows    : Nat
  cols    : Nat
  streams : NMap (List W32)
  scalars : List W32
  chans   : NMap W32
  deriving DecidableEq, Repr

/-- Correctly rounded 1 / √a: +∞ for +0, −∞ for −0, NaN for a < 0. -/
def frsqrt (a : W32) : W32 := f32 (divFl 200 (.fin false 1 0) (sqrtFl 200 (v32 a)))

/-- SIGN (R179). -/
def fsign (a : W32) : W32 := if isNan a then nan32 else if flt 0 a then one32 else if flt a 0 then fneg one32 else a

/-- Comparison of CSEL. -/
def fcmp (code : Nat) (a b : W32) : Bool :=
  match code with
  | 0 => feq a b
  | 1 => fne a b
  | 2 => flt a b
  | 3 => fle a b
  | 4 => flt b a
  | _ => fle b a

/-- Every element of a group receives the group's reduction. -/
def spread (f : List W32 → Option W32) (l : List W32) : List W32 := List.replicate l.length ((f l).getD 0)

/-- Blocks of R166: at most 64 consecutive elements of one row. -/
def byBlock (cols : Nat) (f : List W32 → List W32) (l : List W32) : List W32 :=
  (chunks cols l).flatMap fun row => (chunks 64 row).flatMap f

/-- One instruction. -/
def insRun (x : PIn) (r : PRun) (w : W32) : PRun :=
  let i := parseIns w
  let e := x.rows * x.cols
  let v (k : Nat) : List W32 := (mget r.regs k).getD (List.replicate e 0)
  let set (l : List W32) : PRun := { r with regs := mset r.regs i.d l }
  let one (f : W32 → W32) : PRun := set ((v i.a).map f)
  let two (f : W32 → W32 → W32) : PRun := set (List.zipWith f (v i.a) (v i.b))
  match i.op with
  | 0x01 => set ((mget x.streams i.imm).getD (List.replicate e 0))
  | 0x02 => { r with out := mset r.out i.imm (v i.a) }
  | 0x03 => set (List.replicate e (nth x.scalars i.imm 0))
  | 0x04 => set (List.replicate e ((mget x.chans i.imm).getD 0))
  | 0x08 => two fadd
  | 0x09 => two fsub
  | 0x0A => two fmul
  | 0x0B => two fdiv
  | 0x0C => set (List.zipWith fadd (List.zipWith fmul (v i.a) (v i.b)) (v i.c))
  | 0x0D => one fsqrt
  | 0x0E => one frsqrt
  | 0x0F => one fabs
  | 0x10 => one fneg
  | 0x11 => two fmax
  | 0x12 => two fmin
  | 0x13 => set (List.zipWith (fun c p => if c then p.1 else p.2) (List.zipWith (fcmp i.imm) (v i.a) (v i.b))
      (List.zipWith Prod.mk (v i.c) (v i.d)))
  | 0x14 => set (byBlock x.cols (spread fun l => tree fadd 6 (l.map some)) (v i.a))
  | 0x15 => set (byBlock x.cols (spread fun l => tree fmax 6 (l.map some)) (v i.a))
  | 0x16 => set ((chunks x.cols (v i.a)).flatMap (spread (reduce64 fadd)))
  | 0x17 => set ((chunks x.cols (v i.a)).flatMap (spread (reduce64 fmax)))
  | 0x18 => one fsign
  | _ => r

/-- Run a program over every element (R180). -/
def progRun (x : PIn) (ws : List W32) : NMap (List W32) := (ws.foldl (insRun x) ⟨[], []⟩).out

/-! ### The sketch (R183) -/

/-- q[c] and t[c]. -/
def sketchQ (c : Nat) : W32 := fdiv (f32Nat (c * c)) (f32Nat 225)
def sketchT (c : Nat) : W32 := f32 (mulFl (addFl (v32 (sketchQ c)) (v32 (sketchQ (c + 1)))) (.fin false 1 (-1)))

/-- Negatives, −0 and NaN become +0. -/
def nonNeg (v : W32) : W32 := if flt 0 v then v else 0

/-- The 36 bytes of a block. -/
def sketchBlock (l : List W32) : List Byte :=
  let v := l.map nonNeg
  let scale := (tree fmax 6 (v.map some)).getD 0
  let ts := (List.range 15).map sketchT
  let codes := v.map fun x => if feq scale 0 then 0 else (ts.filter fun t => fle t (fdiv x scale)).length
  toLe 4 scale.toNat ++ (List.range 32).map fun j => BitVec.ofNat 8 (nth codes (2 * j) 0 + 16 * nth codes (2 * j + 1) 0)

/-- The second-moment section of a sketch. -/
def sketchEnc (cols : Nat) (l : List W32) : List Byte := (chunks cols l).flatMap fun row => (chunks 64 row).flatMap sketchBlock

/-- Decoded values of the block of `n` elements at an offset; `bad` says which bytes failed to read (R225). -/
def sketchDecBlock (n : Nat) (b : List Byte) (o : Nat) (bad : Nat → Nat → Bool) : List W32 :=
  let scale := if bad o 4 then nan32 else BitVec.ofNat 32 (leNat (slice b o 4))
  (List.range n).map fun j =>
    let y := (nth b (o + 4 + j / 2) 0).toNat
    if bad (o + 4 + j / 2) 1 then nan32 else fmul scale (sketchQ (if j % 2 = 0 then y % 16 else y / 16))

/-- Decode a sketch section. -/
def sketchDec (rows cols : Nat) (b : List Byte) (bad : Nat → Nat → Bool) : List W32 :=
  let nb := cdiv cols 64
  (List.range rows).flatMap fun r => (List.range nb).flatMap fun k =>
    sketchDecBlock (min 64 (cols - 64 * k)) b ((r * nb + k) * 36) bad

/-! ### The factored form (R184) -/

/-- Row sums, column sums and total. -/
def factorEnc (rows cols : Nat) (l : List W32) : List W32 :=
  let m := ofFlat cols (l.map nonNeg)
  let rs := (List.range rows).map fun r => (reduce64 fadd (nth m r [])).getD 0
  let cs := (List.range cols).map fun c => (reduce64 fadd ((List.range rows).map fun r => at2 m r c)).getD 0
  rs ++ cs ++ [(reduce64 fadd rs).getD 0]

/-- Decode the factored form. -/
def factorDec (rows cols : Nat) (l : List W32) : List W32 :=
  let s := nth l (rows + cols) 0
  (List.range rows).flatMap fun r => (List.range cols).map fun c =>
    if feq s 0 then 0 else fdiv (fmul (nth l r 0) (nth l (rows + c) 0)) s

end Sys2Proof.Machine
end

