-- ==== Sys2Proof/Machine/Update.lean ====
section
/-!
DEFINITION. The Update Engine at work (R164–R185): version slots and headers, the passes of each rule, held updates, the start of
an update, and working copies.
-/
namespace Sys2Proof.Machine
open Sys2Proof

/-! ### Shards, slots and headers (R164–R172) -/

/-- The shard of a number. -/
def shardOf (s : State) (n : Nat) : Option Shard := mget s.upd.shards n
/-- Change a shard. -/
def modShard (s : State) (n : Nat) (f : Shard → Shard) : State := modUpd s fun u => { u with shards := mmod u.shards n f }

/-- Handles of the live and of the pending version slot (R167). -/
def liveH (sh : Shard) : Hdl := if sh.live = 0 then (parseSh sh.desc).ha else (parseSh sh.desc).hb
def pendH (sh : Shard) : Hdl := if sh.live = 0 then (parseSh sh.desc).hb else (parseSh sh.desc).ha

/-- Header states of R166. -/
def hdWRITING : Nat := 1
def hdCOMPLETE : Nat := 2
def hdHELD : Nat := 3
def hdABANDONED : Nat := 4

/-- Write the pending slot's header (R166, R172). -/
def putHeader (s : State) (sh : Shard) (step : W64) (st : Nat) : State × Bool :=
  writeN s (pendH sh) 0 (toLe 8 step.toNat ++ toLe 1 st ++ zeros 55)

/-- Step and state of the pending slot's header. -/
def getHeader (s : State) (sh : Shard) : Nat × Nat :=
  let b := (readH s (pendH sh) 0 16).1
  (fld b 0 8, fld b 8 1)

/-- Value of an Almanac channel that a descriptor names; 0xFF gives the other value. -/
def chanOr (s : State) (b c : Nat) (other : W32) : W32 := if c = 0xFF then other else almanac s b c

/-- η, ω and μ of a shard (R174, R177). -/
def shEta (s : State) (b : Nat) (d : ShD) : W32 := almanac s b d.lrChan
def shOm (s : State) (b : Nat) (d : ShD) : W32 := chanOr s b d.wdChan 0
def shMu (s : State) (b : Nat) (d : ShD) : W32 := chanOr s b d.momChan d.p4

/-! ### Passes and costs (R173, R175, R182) -/

/-- The factor slot's descriptor. -/
def fsOf (s : State) (n : Nat) : Option FsD :=
  match mget s.snd.slots n with
  | some f => f.desc.map parseFs
  | none => none

/-- Twice p of a shard's precision. -/
def shP2 (d : ShD) : Nat := if d.prec = 1 then 6 else if d.prec = 2 then 12 else 2

/-- The product passes of one factor: blocks of 512 or 1,024 as one batch, others one by one (R175). -/
def prePasses (code n : Nat) (step : W64) (d : ShD) (fd : FsD) : List EngPass :=
  let cost (batch e : Nat) := if code = 0x28 then gemmCost batch e d.cols e (shP2 d) else gemmCost batch d.rows e e (shP2 d)
  if fd.b ≤ 1024 then [⟨code, n, 0, 0, cost fd.nb (fd.e 0), step⟩]
  else (List.range fd.nb).map fun u => ⟨code, n, u, 0, cost 1 (fd.e u), step⟩

/-- Bytes of the second-moment section. -/
def secLen (d : ShD) : Nat := d.slotLen - (if d.m2 = 0 then d.slotLen else d.secOff)

/-- Cost of UPD_PROG (R182). -/
def progCost (d : ShD) (ws : List W32) : Nat :=
  let e := d.size
  let bytes := (if progLoadsG ws then 4 * e else 0) + 16 * e + 2 * secLen d
  160 + max (cdiv e 131072 * progWeight ws) (cdiv bytes 64000)

/-- SND_COV passes on a slot of kind 2 or 3 (R137). -/
def covPasses (s : State) (n slot : Nat) (step : W64) (d : ShD) : List EngPass :=
  match fsOf s slot with
  | none => []
  | some fd =>
    (List.range fd.nb).map fun u => ⟨0x20, slot, u, n, covCost (fd.e u) (if fd.kind = 2 then d.cols else d.rows) true, step⟩

/-- Passes of a shard's update up to its end, or up to the ORTH request of ORTHO (R173). -/
def updPasses (s : State) (n : Nat) (sh : Shard) (step : W64) : List EngPass :=
  let d := parseSh sh.desc
  let e := d.size
  let pre := (match fsOf s d.slotL with
      | some f => prePasses 0x28 n step d f
      | none => []) ++ (match fsOf s d.slotR with
      | some f => prePasses 0x29 n step d f
      | none => [])
  let mom : List EngPass := [⟨0x2A, n, 0, 0, vecCost e (20 * e), step⟩]
  if d.cls = 1 then
    match mget s.upd.progs d.prog with
    | some p => [⟨0x2E, n, 0, 0, progCost d p.words, step⟩]
    | none => []
  else match d.rule with
    | 0 => pre ++ mom
    | 1 => covPasses s n d.slotL step d ++ covPasses s n d.slotR step d ++ pre
        ++ (if d.graft then [⟨0x2D, n, 0, 0, vecCost e (8 * e), step⟩] else []) ++ mom
    | _ => [⟨0x2B, n, 0, 0, vecCost e (16 * e), step⟩]

/-- The pass that ends an ORTHO update. -/
def mom2Pass (n : Nat) (d : ShD) (step : W64) : EngPass := ⟨0x2C, n, 0, 0, vecCost d.size (12 * d.size), step⟩

/-- Queue passes on a berth's engine queue. -/
def pushPasses (s : State) (b : Nat) (l : List EngPass) : State := foldS (fun s e => pushPass s b e) s l

/-! ### What an update reads and writes -/

/-- A read of FP32 values by the Update Engine: the values with NaN for failed words (R225), and the state with the error noted. -/
def updRead (s : State) (b : Nat) (h : Hdl) (off n : Nat) : State × List W32 :=
  let r := readF32N s h off n
  (faultIf r.2 s b 0x03 h off (4 * n), r.1)

/-- A write of FP32 values by the Update Engine (R227). -/
def updWrite (s : State) (b : Nat) (h : Hdl) (off : Nat) (bs : List Byte) : State :=
  let w := writeH s h off bs
  faultIf w.2 w.1 b 0x03 h off bs.length

/-- Change the update in progress of a shard. -/
def modUpdate (s : State) (n : Nat) (f : Update → Update) : State :=
  modUpd s fun u => { u with updates := u.updates.map fun x => if x.shard = n then f x else x }

/-- The update in progress of a shard. -/
def updateOf (s : State) (n : Nat) : Option Update := s.upd.updates.find? fun x => x.shard = n

/-- Record whether values read so far are finite (R176). -/
def noteFinite (s : State) (n : Nat) (ok : Bool) : State := modUpdate s n fun x => { x with finite := x.finite && ok }

/-- The update is over: its record and any pass still queued are gone. -/
def dropUpdate (s : State) (b n : Nat) : State :=
  let s := modUpd s fun u => { u with updates := u.updates.filter (fun x => x.shard ≠ n) }
  { s with shelf := { s.shelf with engines := fmod s.shelf.engines b (·.filter fun e => !(e.code ≥ 0x28 && e.slot = n)) } }

/-- The update ends COMPLETE (R172). -/
def endUpdate (s : State) (b n : Nat) (sh : Shard) (step : W64) : State :=
  dropUpdate (putHeader s sh step hdCOMPLETE).1 b n

/-- The update is held (R176). -/
def holdUpdate (s : State) (b n : Nat) (sh : Shard) (step : W64) : State :=
  let s := count (wrOr (putHeader s sh step hdHELD).1 UPD_IRQ_STAT_held 1) (0x1030 + b) 1
  let s := modUpd s fun u => { u with
    holdShard := BitVec.ofNat 32 n, holdLayer := BitVec.ofNat 32 (parseSh sh.desc).layer, holdStep := step }
  dropUpdate s b n

/-- Write sections in order, each with whether its values may stand; a section that may not while every input is finite holds the
update, and nothing more is written. True when it was held. -/
def putSections (s : State) (b n : Nat) (sh : Shard) (step : W64) (finite : Bool) : List (Nat × List Byte × Bool) → State × Bool
  | [] => (s, false)
  | (off, bs, ok) :: l =>
    if finite && !ok then (holdUpdate s b n sh step, true)
    else putSections (updWrite s b (pendH sh) off bs) b n sh step finite l

/-- A matrix elementwise. -/
def zip2 (f : W32 → W32 → W32) (a b : List W32) : List W32 := List.zipWith f a b

/-! ### The passes (R173, R174) -/

/-- The live result block u of a factor slot, as a product pass reads it when it starts. -/
def liveBlock (s : State) (slot u : Nat) : Mat × Hdl × Nat × Nat × Bool :=
  match mget s.snd.slots slot with
  | some f => (match f.desc with
    | some d =>
      let fd := parseFs d
      let r := readBlk s fd.hp (offP fd f.live u) (fd.e u)
      (r.1, fd.hp, offP fd f.live u, lenBlk fd u, r.2)
    | none => ([], 0, 0, 0, false))
  | none => ([], 0, 0, 0, false)

/-- Blocks that a product pass works on. -/
def passBlocks (fd : FsD) (u : Nat) : List Nat := if fd.b ≤ 1024 then List.range fd.nb else [u]

/-- UPD_PRE_L or UPD_PRE_R of one block: rows or columns of the product are replaced in the workspace. -/
def preBlock (s : State) (b : Nat) (left : Bool) (d : ShD) (fd : FsD) (src : Mat) (dst : Nat) (p : Nat × Mat) : State :=
  let ws := fget s.upd.workspace b
  let e := fd.e p.1
  let o := p.1 * fd.b
  if left then
    let rows := (List.range e).flatMap fun r => (List.range d.cols).map fun c =>
      dot d.prec (at2 p.2 r) (fun k => at2 src (o + k) c) e none
    updWrite s b ws (dst + 4 * (o * d.cols)) (wordBytes rows)
  else
    foldS (fun s r =>
      updWrite s b ws (dst + 4 * (r * d.cols + o)) (wordBytes ((List.range e).map fun c =>
        dot d.prec (fun k => at2 src r (o + k)) (fun k => at2 p.2 k c) e none))) s (List.range d.rows)

/-- UPD_PRE_L (T := P_L · G) and UPD_PRE_R (U := T · P_R), T at the workspace's start and U behind it, with the slot's descriptor and
live blocks as the pass read them at its start. -/
def doPre (s : State) (b n u : Nat) (left : Bool) (sh : Shard) (fdesc : List Byte) (factor : List Mat) : State :=
  let d := parseSh sh.desc
  let fd := parseFs fdesc
  if fdesc.isEmpty then s
  else
    let r := if left then updRead s b d.hg 0 d.size else updRead s b (fget s.upd.workspace b) 0 d.size
    let s := if left then noteFinite r.1 n (allFinite r.2) else r.1
    foldS (preBlock · b left d fd (ofFlat d.cols r.2) (if left then 0 else 4 * d.size) ·) s ((passBlocks fd u).zip factor)

/-- UPD_NORM: U rescaled to the gradient's norm; skipped when ‖U‖ is 0 or not finite (R173). -/
def doNorm (s : State) (b : Nat) (sh : Shard) : State :=
  let d := parseSh sh.desc
  let ws := fget s.upd.workspace b
  let g := updRead s b d.hg 0 d.size
  let u := updRead g.1 b ws (4 * d.size) d.size
  let nu := frobenius u.2
  if feq nu 0 || !isFinite nu then u.1
  else
    let k := fdiv (frobenius g.2) nu
    updWrite u.1 b ws (4 * d.size) (wordBytes (u.2.map fun v => fmul v k))

/-- w' := w − η (d + ω w) or w − η (o s + ω w). -/
def stepW (eta om : W32) (w d : W32) : W32 := fsub w (fmul eta (fadd d (fmul om w)))

/-- UPD_MOM (R174). -/
def doMom (s : State) (b n : Nat) (sh : Shard) (step : W64) : State :=
  let d := parseSh sh.desc
  let e := d.size
  let (s, w) := updRead s b (liveH sh) 64 e
  let (s, m) := updRead s b (liveH sh) d.momOff e
  let (s, u) := updRead s b (fget s.upd.workspace b) (4 * e) e
  let eta := shEta s b d
  let om := shOm s b d
  let mu := shMu s b d
  let s := noteFinite s n (allFinite w && allFinite m && isFinite eta && (d.wdChan = 0xFF || isFinite om)
    && (d.momChan = 0xFF || isFinite mu))
  let fin := ((updateOf s n).map (·.finite)).getD true
  let m' := zip2 (fun a x => fadd (fmul mu a) x) m u
  let dd := if d.nesterov then zip2 (fun a x => fadd (fmul mu a) x) m' u else m'
  let w' := zip2 (stepW eta om) w dd
  let r := putSections s b n sh step fin [(d.momOff, wordBytes m', allFinite m'), (64, wordBytes w', allFinite w')]
  if r.2 then r.1 else endUpdate r.1 b n sh step

/-- UPD_MOM1 (R174): the momentum, d into the workspace, and the ORTH request of R152. -/
def doMom1 (s : State) (b n : Nat) (sh : Shard) (step : W64) : State :=
  let d := parseSh sh.desc
  let e := d.size
  let (s, m) := updRead s b (liveH sh) d.momOff e
  let (s, g) := updRead s b d.hg 0 e
  let mu := shMu s b d
  let s := noteFinite s n (allFinite m && allFinite g && (d.momChan = 0xFF || isFinite mu))
  let fin := ((updateOf s n).map (·.finite)).getD true
  let m' := zip2 (fun a x => fadd (fmul mu a) x) m g
  let dd := if d.nesterov then zip2 (fun x a => fadd x (fmul mu a)) g m' else m'
  let r := putSections s b n sh step fin [(d.momOff, wordBytes m', allFinite m')]
  if r.2 then r.1
  else
    let s := updWrite r.1 b (fget s.upd.workspace b) 0 (wordBytes dd)
    let s := modUpdate s n fun x => { x with orthing := true }
    modSlv s fun x => { x with queues := fmod x.queues b fun q => insertOrth q ⟨b, 0, d.layer, true, n, false, 0, [freshBlock 0], []⟩ }

/-- UPD_MOM2 (R174): the weights, from the Solver's result in the workspace. -/
def doMom2 (s : State) (b n : Nat) (sh : Shard) (step : W64) : State :=
  let d := parseSh sh.desc
  let e := d.size
  let (s, w) := updRead s b (liveH sh) 64 e
  let (s, o) := updRead s b (fget s.upd.workspace b) (4 * e) e
  let eta := shEta s b d
  let om := shOm s b d
  let s := noteFinite s n (allFinite w && isFinite eta && (d.wdChan = 0xFF || isFinite om))
  let fin := ((updateOf s n).map (·.finite)).getD true
  let k := f32 (sqrtFl 60 (if d.rows > d.cols then divFl 200 (.fin false d.rows 0) (.fin false d.cols 0) else .fin false 1 0))
  let w' := zip2 (fun w o => stepW eta om w (fmul o k)) w o
  let r := putSections s b n sh step fin [(64, wordBytes w', allFinite w')]
  if r.2 then r.1 else endUpdate r.1 b n sh step

/-- Live second moment, decoded (R183, R184). -/
def readV (s : State) (b : Nat) (sh : Shard) : State × List W32 :=
  let d := parseSh sh.desc
  let h := liveH sh
  match d.m2 with
  | 1 =>
    let r := readH s h d.secOff (secLen d)
    (faultIf r.2 s b 0x03 h d.secOff (secLen d),
      sketchDec d.rows d.cols r.1 fun o n => r.2 && badRange s (addrOf h + d.secOff + o) n)
  | 2 =>
    let r := updRead s b h d.secOff (d.rows + d.cols + 1)
    (r.1, factorDec d.rows d.cols r.2)
  | _ => (s, List.replicate d.size 0)

/-- UPD_PROG (R177–R184). -/
def doProg (s : State) (b n : Nat) (sh : Shard) (step : W64) : State :=
  let d := parseSh sh.desc
  let e := d.size
  match mget s.upd.progs d.prog with
  | none => s
  | some p =>
    let loads := progLoadsG p.words
    let (s, g) := if loads then updRead s b d.hg 0 e else (s, List.replicate e 0)
    let (s, w) := updRead s b (liveH sh) 64 e
    let (s, m) := updRead s b (liveH sh) d.momOff e
    let (s, v) := readV s b sh
    let eta := shEta s b d
    let om := shOm s b d
    let mu := shMu s b d
    let chans := (progChans p.words).map fun c => (c, almanac s b c)
    let sc := [eta, om, mu, f32Nat (step.toNat + 1), d.p0, d.p1, d.p2, d.p3, d.p4, one32]
    let fin := (!loads || allFinite g) && allFinite w && allFinite m && allFinite v && isFinite eta
      && (d.wdChan = 0xFF || isFinite om) && (d.momChan = 0xFF || isFinite mu) && chans.all fun c => isFinite c.2
    let out := progRun ⟨d.rows, d.cols, [(0, g), (1, w), (2, m), (3, v)], sc, chans⟩ p.words
    -- a stream without an ST is copied from the live slot (R180)
    let sec (st off len : Nat) (enc : List W32 → List Byte) (ok : List W32 → Bool) : Nat × List Byte × Bool :=
      match mget out st with
      | some l => (off, enc l, ok l)
      | none => (off, (readH s (liveH sh) off len).1, true)
    let vs : List (Nat × List Byte × Bool) :=
      match d.m2 with
      | 1 => [sec 2 d.secOff (secLen d) (sketchEnc d.cols) allFinite]
      | 2 => [sec 2 d.secOff (secLen d) (fun l => wordBytes (factorEnc d.rows d.cols l))
          (fun l => allFinite l && allFinite (factorEnc d.rows d.cols l))]
      | _ => []
    let r := putSections s b n sh step fin ([sec 1 d.momOff (4 * e) wordBytes allFinite] ++ vs ++ [sec 0 64 (4 * e) wordBytes allFinite])
    if r.2 then r.1 else endUpdate r.1 b n sh step

/-- A pass of the Update Engine completes. -/
def doUpdPass (s : State) (b : Nat) (e : EngPass) (fdesc : List Byte) (factor : List Mat) : State :=
  match shardOf s e.slot with
  | none => s
  | some sh =>
    match e.code with
    | 0x28 => doPre s b e.slot e.block true sh fdesc factor
    | 0x29 => doPre s b e.slot e.block false sh fdesc factor
    | 0x2A => doMom s b e.slot sh e.step
    | 0x2B => doMom1 s b e.slot sh e.step
    | 0x2C => doMom2 s b e.slot sh e.step
    | 0x2D => doNorm s b sh
    | _ => doProg s b e.slot sh e.step

/-- The ORTH request of a shard has ended: its result into the workspace, and UPD_MOM2 queued (R152, R153, R173). A request without
workspace leaves the workspace as it was. -/
def orthDone (s : State) (b n : Nat) (x : BlockRes) : State :=
  let s := blockEnd s b 0 (x.code.getD 4) x.iters x.lam
  match shardOf s n with
  | none => s
  | some sh =>
    let d := parseSh sh.desc
    match updateOf s n with
    | none => s
    | some u =>
      let s := if x.code = some 5 then s else updWrite s b (fget s.upd.workspace b) (4 * d.size) (wordBytes x.value)
      pushPass (modUpdate s n fun u => { u with orthing := false }) b (mom2Pass n d u.step)

/-! ### The Solver moves on -/

/-- The head problem of a berth has ended. -/
def slvFinish (s : State) (b : Nat) (p : Problem) : State :=
  let s := modSlv s fun x => { x with queues := fmod x.queues b (·.tail) }
  if p.orth then foldS (fun s x => orthDone s b p.shard x) s p.blocks else endRefresh s p

/-- One move of a berth's Solver: start an attempt, issue a pass, or end the head problem. True when the head ended. -/
def slvMove (s : State) (b : Nat) : State × Bool :=
  match fget s.slv.queues b with
  | [] => (s, false)
  | p :: _ =>
    if !p.started then
      if slvCanStart s p then
        let r := slvAttempt s b p
        if slvEnded r.2 then (slvFinish (setHead r.1 b r.2) b r.2, true) else (slvIssue r.1 b r.2, false)
      else (s, false)
    else if !p.passes.isEmpty then (slvIssue s b p, false)
    else if slvEnded p then (slvFinish s b p, true)
    else
      -- another attempt with a larger λ (R146)
      let r := slvAttempt s b { p with attempt := p.attempt + 1 }
      (slvIssue r.1 b r.2, false)

/-- Moves until a pass stands queued or nothing is left; fuel is the number of problems. -/
def slvRun : Nat → State → Nat → State
  | 0, s, _ => s
  | k + 1, s, b =>
    let r := slvMove s b
    if r.2 then slvRun k r.1 b else r.1

/-- Passes of the Solver wait in a berth's engine queue, or one runs. -/
def slvPending (s : State) (b : Nat) : Bool :=
  let isSlv (e : EngPass) : Bool := 0x22 ≤ e.code && e.code ≤ 0x25
  (fget s.shelf.engines b).any isSlv || (match s.shelf.running with
    | some r => r.engine && r.berth = b && isSlv r.pass
    | none => false)

/-- The Solver issues the next pass of a berth whose last one is over. -/
def slvKick (s : State) (b : Nat) : State :=
  if slvPending s b then s else slvRun ((fget s.slv.queues b).length + 1) s b

/-! ### Starting an update (R170, R214, R220) -/

/-- Pages of a shard's state that have yet to become resident, with whether the page is re-homed (R216). -/
def shardMissing (s : State) (sh : Shard) : List (Hdl × Nat × Bool) :=
  let d := parseSh sh.desc
  let of (h : Hdl) (len : Nat) (re : Bool) := ((neededPages s h len).filter fun p => re || !givenUp s h p).map fun p => (h, p, re)
  of d.hg (4 * d.size) true ++ of (liveH sh) d.slotLen false ++ of (pendH sh) d.slotLen true

/-- handle_g holds no page that waits in the partition or spilled (R219). -/
def gradLanded (s : State) (d : ShD) : Bool := !(s.mem.held.any fun h => h.berth = hBerth d.hg && h.object = hObj d.hg)

/-- The reduction of the shard is complete and its update has not started, in the order of R170: rank, layer, number. -/
def readyShards (s : State) (b : Nat) : List (Nat × Shard) :=
  let l := s.upd.shards.filter fun p => p.2.berth = b && p.2.reduced ≠ 0 && !p.2.started
  let key (p : Nat × Shard) : Nat := (p.2.reduced * 65536 + (parseSh p.2.desc).layer) * 65536 + p.1
  sortBy key l

/-- The shard's update uses a factor slot whose refresh is due and not complete (R140). -/
def shardLate (s : State) (d : ShD) : Bool := d.cls = 0 && d.rule < 2 && (refreshLate s d.slotL || refreshLate s d.slotR)

/-- Start a shard's update: header WRITING, passes queued (R172, R173). -/
def beginUpdate (s : State) (b n : Nat) (sh : Shard) : State :=
  let step := fget s.upd.steps b
  let s := (putHeader s sh step hdWRITING).1
  let ps := updPasses s n sh step
  let s := modShard s n fun x => { x with started := true }
  let s := modUpd s fun u => { u with updates := u.updates.filter (fun x => x.shard ≠ n) ++ [⟨n, b, step, ps, 0, true, false⟩] }
  let s := pushPasses s b ps
  touch (touch (touch s (parseSh sh.desc).ha) (parseSh sh.desc).hb) (parseSh sh.desc).hg

/-- A late update waits: the status bit and count of R140 and R161, once for each update. -/
def noteLate (s : State) (b n : Nat) : State :=
  if (updateOf s n).isSome then s
  else
    let s := count (wrOr s SLV_IRQ_STAT_late 1) 0x0F11 1
    modUpd s fun u => { u with updates := u.updates ++ [⟨n, b, fget u.steps b, [], 0, true, false⟩] }

/-- An ORTHO update is in progress, so that the berth's workspace is in use between its passes. -/
def orthBusy (s : State) (b : Nat) : Bool :=
  s.upd.updates.any fun x => x.berth = b && !x.passes.isEmpty && (match shardOf s x.shard with
    | some sh => (parseSh sh.desc).cls = 0 && (parseSh sh.desc).rule = 2
    | none => false)

/-- Ask for the pages of a shard's gradient and version slots, in that order (level 2 of R214). -/
def wantShard (s : State) (sh : Shard) : State :=
  foldS (fun s (q : Hdl × Nat × Bool) => wantPage s q.1 q.2.1 2 q.2.2) s (shardMissing s sh)

/-- Consider the ready shards in order: start the first that can start. A missing page or a late refresh lets the next one go. -/
def tryStart (b : Nat) : List (Nat × Shard) → State → State
  | [], s => s
  | (n, sh) :: l, s =>
    let d := parseSh sh.desc
    if !(shardMissing s sh).isEmpty then tryStart b l (wantShard s sh)
    else if !gradLanded s d then tryStart b l s
    else if shardLate s d then tryStart b l (noteLate s b n)
    else if d.cls = 0 && orthBusy s b then tryStart b l s
    else beginUpdate s b n sh

/-- UPDATE_START of a berth: its next ready update starts (R170, R195, R220). -/
def execUpdateStart (berth : Nat) (s : State) : Host.Outcome State Fault Refusal :=
  .next <|
    if rdb s UPD_CTL_run && !inReset s 4 && !roundOpen s berth then tryStart berth (readyShards s berth) s else s

/-- A reduction has completed into a handle: the shards whose handle_g it is take their rank (R170). -/
def reductionInto (s : State) (h : Hdl) : State :=
  let s' := modUpd s fun u => { u with
    shards := u.shards.map fun p =>
      if (parseSh p.2.desc).hg = h && p.2.reduced = 0 then (p.1, { p.2 with reduced := u.nextRank }) else p
    nextRank := u.nextRank + 1 }
  s'

/-! ### Working copies (R168, R169) -/

/-- Element bits of a shard's working copy from the live slot. The census counts nothing here: R96 counts only operations with census_en,
although the text under R78 counts a carry into infinity (DESIGN CHOICE, log 198). -/
def workingCopy (s : State) (sh : Shard) : List W32 :=
  let d := parseSh sh.desc
  let w := (readF32N s (liveH sh) 64 d.size).1
  if d.wide then w
  else
    let seed := fget s.num.seeds sh.berth
    w.mapIdx fun i x => BitVec.ofNat 32 (srBf16 x (srBits seed (BitVec.ofNat 64 sh.stepLo.toNat) (d.base + i)))

/-- Serve a fetch from the live slot. -/
def serveFetch (s : State) (n req : Nat) (sh : Shard) : State :=
  let d := parseSh sh.desc
  let s := emit s (.fetch n req sh.stepLo d.wide (workingCopy s sh))
  touch (noteRead s (liveH sh) 64 (4 * d.size)) (liveH sh)

/-- A held fetch has its boundary behind it (R169, R381). -/
def fetchDue (s : State) (b : Nat) (step : W64) : Bool :=
  let n := (fget s.upd.steps b).toNat
  step.toNat < n || (n = step.toNat && !roundOpen s b)

/-- The pages that a fetch reads are in T2, or asked for (R202). -/
def fetchReady (s : State) (sh : Shard) : State × Bool := residentFor s [liveH sh]

/-- Serve the fetches of a berth that are due and whose pages are resident, in their order. -/
def serveDue (s : State) (b : Nat) : State :=
  foldS (fun s (f : Fetch) => match shardOf s f.shard with
    | some sh =>
      if sh.berth = b && fetchDue s b f.step then
        let r := fetchReady s sh
        if r.2 then serveFetch (modUpd r.1 fun u => { u with fetches := u.fetches.erase f }) f.shard f.req sh else r.1
      else s
    | none => s) s s.upd.fetches

/-- PAGER_MOVE_COMPLETE of a page in flight: the move ends, allocations and fetches that waited for it go on (R202, R216, R231). -/
def execPagerMoveComplete (berth object page : Nat) (s : State) : Host.Outcome State Fault Refusal :=
  .next <|
    match s.mem.moves.find? fun m => m.berth = berth && m.object = object && m.page = page with
    | some m => serveDue (tryAllocs (completeMove s m)) berth
    | none => s

/-- SHARD_FETCH for a step: served, or held until row 5 of the boundary that opens that step (R169, R381), and then until the shard's
pages are resident (R202). -/
def execShardFetch (shard : Nat) (step : W64) (requester : Nat) (s : State) : Host.Outcome State Fault Refusal :=
  .next <|
    match shardOf s shard with
    | none => s
    | some sh =>
      let hold (s : State) : State := modUpd s fun u => { u with fetches := u.fetches ++ [⟨shard, step, requester⟩] }
      if !fetchDue s sh.berth step then hold (wrOr s UPD_IRQ_STAT_fetch_wait 1)
      else
        let r := fetchReady s sh
        if r.2 then serveFetch r.1 shard requester sh else hold r.1

end Sys2Proof.Machine
end

