-- ==== Sys2Proof/Machine/Close.lean ====
section
/-!
DEFINITION. What a berth keeps of its job when it closes: nothing (R58, R195, R231, R304, R381, R587), and leaving an Offshore
session.
-/
namespace Sys2Proof.Machine
open Sys2Proof

/-- Erase the key slots that a peer holds. -/
def dropPeerKeys (s : State) (p : OfsPeer) : State :=
  let clear (s : State) : Option (Nat × Nat) → State
    | some k => clearKeySlot s k.1
    | none => s
  clear (clear s p.key) p.oldKey

/-- Free the coded objects of a session's streams. -/
def freeStreamObjects (s : State) (x : Session) : State :=
  foldS (fun s (p : Nat × OfsStream) =>
    foldS (fun s (h : Hdl) => releaseObject s (hBerth h) (hObj h)) s [p.2.anchor, p.2.outer, p.2.resid, p.2.newResid]) s x.streams

/-- Leave the Offshore session of a berth: unacknowledged packets abandoned, stores, objects and key slots freed (R381). -/
def leaveSession (s : State) (b : Nat) : State :=
  match fget s.ofs.sessions b with
  | none => s
  | some x =>
    let s := foldS (fun s (p : Nat × OfsPeer) => dropPeerKeys s p.2) s x.peers
    let s := freeStreamObjects s x
    let slots := x.sending.map (·.slot)
    let freed : NMap TSlot := s.shg.slots.map fun (p : Nat × TSlot) =>
      if p.1 ∈ slots then (p.1, { p.2 with state := 0, user := 0, inflight := 0, table := [] }) else p
    let s := { s with shg := { s.shg with slots := freed } }
    { s with ofs := { s.ofs with
        sessions := fset s.ofs.sessions b none
        rekeying := match s.ofs.rekeying with
          | some (b', p) => if b' = b then none else some (b', p)
          | none => none } }

/-- Keys outside a range. -/
def mdelRange {α : Type} (m : NMap α) (a n : Nat) : NMap α := m.filter fun p => p.1 < a || a + n ≤ p.1

/-- The Shelf's part of a berth: queues, slots, triggers and halts gone (R54, R55, R58, R587). -/
def clearShelf (s : State) (b : Nat) : State :=
  let s := clearWindow s b
  let x := s.shelf
  { s with shelf := { x with
      streams := fset x.streams b [], engines := fset x.engines b [], deficit := fset x.deficit b 0
      lastEngine := fset x.lastEngine b none, halted := fset x.halted b false, rejected := fset x.rejected b none
      undecided := fset x.undecided b false, slots := mdelRange x.slots (1024 * b) 1024, triggers := fset x.triggers b []
      triggered := fset x.triggered b [], posted := fset x.posted b 0
      segment := fset x.segment b [], fetched := fset x.fetched b false } }

/-- Sounding, the Solver and the Update Engine of a berth at power-on (R587). -/
def clearEngines (s : State) (b : Nat) : State :=
  let s := modStages s b (·.filter fun x => x.berth ≠ b)
  let u := s.upd
  let mine := (u.shards.filter fun p => p.2.berth = b).map (·.1)
  let s := modSnd s fun x => { x with slots := mfilter x.slots fun _ f => f.berth ≠ b }
  let s := modSlv s fun x => { x with queues := fset x.queues b [], workspace := fset x.workspace b 0 }
  modUpd s fun u => { u with
    shards := mfilter u.shards fun _ x => x.berth ≠ b
    updates := u.updates.filter (fun x => x.berth ≠ b)
    fetches := u.fetches.filter (fun x => !(x.shard ∈ mine))
    progs := mfilter u.progs fun _ x => x.berth ≠ b
    workspace := fset u.workspace b 0, steps := fset u.steps b 0, commits := fset u.commits b 0, skips := fset u.skips b 0
    skipTotal := fset u.skipTotal b 0, paused := fset u.paused b false
    chans := mdelRange u.chans (64 * b) 64, evalStep := fset u.evalStep b 0 }

/-- Longshore's part of a berth: groups, templates and collectives gone (R304, R587). -/
def clearLongshore (s : State) (b : Nat) : State :=
  let l := s.lsh
  { s with lsh := { l with
      live := mdelRange l.live (65536 * b) 65536, staged := mdelRange l.staged (65536 * b) 65536
      chans := mdel (mdelRange l.chans (16 * b) 16) (16 * b + 64), templates := fset l.templates b [], copies := fset l.copies b []
      early := l.early.filter (fun p => p.berth ≠ b), outbox := l.outbox.filter (fun q => q.2.berth ≠ b), suspects := fset l.suspects b []
      close := fset l.close b Close.none, permute := fset l.permute b Permute.none } }

/-- The census and the job seed of a berth (R587). -/
def clearNumbers (s : State) (b : Nat) : State :=
  modNum s fun x => { x with
    seeds := fset x.seeds b 0, census := mdelRange x.census (1024 * b) 1024, dirty := fset x.dirty b []
    totals := mdelRange x.totals (65536 * b) 65536 }

/-- Every object of a berth is freed; allocations and wants of it are gone (R231). -/
def freeObjects (s : State) (b : Nat) : State :=
  let s := foldS (fun s (p : Nat × Obj) => releaseObject s b (p.1 % 2 ^ 30)) s (objsOf s b)
  modMem s fun m => { m with
    allocs := m.allocs.filter (fun a => a.berth ≠ b), wants := m.wants.filter (fun w => w.berth ≠ b)
    moves := m.moves.filter (fun x => x.berth ≠ b), held := m.held.filter (fun h => h.berth ≠ b) }

/-- Shingle requests of a berth are abandoned, their table slots freed. -/
def clearShingle (s : State) (b : Nat) : State :=
  let mine := s.shg.reqs.filter fun r => r.berth = b
  { s with shg := { s.shg with
      reqs := s.shg.reqs.filter (fun r => r.berth ≠ b)
      slots := s.shg.slots.map fun p =>
        if mine.any fun r => r.slot = some p.1 then (p.1, { p.2 with state := 0, user := 0, inflight := 0, table := [] }) else p } }

/-- The berth's job is cleared (R587). -/
def clearJob (s : State) (b : Nat) : State :=
  let s := leaveSession s b
  let s := clearShingle (freeObjects s b) b
  modBerth (clearNumbers (clearLongshore (clearEngines (clearShelf s b) b) b) b) b fun q => { q with closing := false }

/-- An operation of the berth holds the array, or its completion is held. -/
def holdsArray (s : State) (b : Nat) : Bool :=
  (match s.shelf.running with
    | some r => r.berth = b
    | none => false)
  || (match s.shelf.heldDone with
    | some r => r.berth = b
    | none => false)

end Sys2Proof.Machine
end

