-- ==== Sys2Proof/Machine/Route.lean ====
section
/-!
DEFINITION. The Cliff fabric as a sender sees it (R241, R246–R253, R256, R259–R263): coordinates, routing, flits, credits, and a
port's transmitter.
-/
namespace Sys2Proof.Machine
open Sys2Proof

/-! ### Ports and coordinates -/

/-- A port that has not trained. -/
def Port.idle : Port :=
  { since := 0, attempt := 0, seated := false, supply := false, serial := 0, replay := [], txSeq := 0, rxNext := 0, nakking := false,
    resends := 0, sent := [], credit := [], freed := [], waiting := [], wrr := 0, turn := [], partials := [], acked := [], retrain := false, part := false, symbols := 0, window := 0 }

/-- Change the Cliff structure. -/
def modClf (s : State) (f : Cliff → Cliff) : State := { s with clf := f s.clf }
/-- The record of a port, and changing it. -/
def portOf (s : State) (n : Nat) : Port := mgetD s.clf.ports n Port.idle
def modPort (s : State) (n : Nat) (f : Port → Port) : State := modClf s fun c => { c with ports := mset c.ports n (f (portOf s n)) }

/-- Training state of a port (R248), and giving it one. -/
def pState (s : State) (n : Nat) : Nat := rd s (CLF_PSTAT_state.at n)
def stUP : Nat := 6
def stFAILED : Nat := 7
def stMISWIRED : Nat := 8

/-- The port carries traffic (R248, R272). -/
def usable (s : State) (n : Nat) : Bool := portPresent s.variant n && pState s n = stUP && !rdb s (CLF_PCTL_loopback.at n)

/-- The module's device ID (R256). -/
def ownId (s : State) : Nat := rd s CLF_COORD_x + 64 * rd s CLF_COORD_y + 4096 * rd s CLF_COORD_z

/-- Coordinate of a device ID in a dimension, and the size of a dimension. -/
def coordOf (id d : Nat) : Nat := if d = 0 then id % 64 else if d = 1 then id / 64 % 64 else id / 4096 % 32
def dimSize (s : State) (d : Nat) : Nat := if d = 0 then rd s CLF_DIMS_sx else if d = 1 then rd s CLF_DIMS_sy else rd s CLF_DIMS_sz

/-- Ports of a direction: dimension and sign (R241). -/
def dirPorts (s : State) (d : Nat) (plus : Bool) : List Nat :=
  let b := 4 * d + (if plus then 0 else 2)
  [b, b + 1].filter (portPresent s.variant)

/-- Usable ports of a direction. -/
def dirUp (s : State) (d : Nat) (plus : Bool) : List Nat := (dirPorts s d plus).filter (usable s)

/-! ### Routing (R259–R262) -/

/-- Where a packet goes: to this module, out on a direction with a class and detour mark, or nowhere. -/
inductive Hop where
  | here
  | out (d : Nat) (plus detour : Bool) (cls : Nat)
  | drop
  deriving DecidableEq, Repr

/-- Distance to cover in a dimension in the positive direction (R259). -/
def delta (s : State) (dst d : Nat) : Nat :=
  let n := dimSize s d
  (coordOf dst d + n - coordOf (ownId s) d % n) % n

/-- The first dimension with distance to cover, in the shorter direction, + on a tie. -/
def firstDim (s : State) (dst : Nat) : Option (Nat × Bool) :=
  ([0, 1, 2].find? fun d => delta s dst d ≠ 0).map fun d => (d, 2 * delta s dst d ≤ dimSize s d)

/-- The hop crosses the dateline between size − 1 and 0. -/
def crosses (s : State) (d : Nat) (plus : Bool) : Bool :=
  let c := coordOf (ownId s) d
  if plus then c + 1 = dimSize s d else c = 0

/-- Side directions of R262 that are usable, in their order. -/
def sideDirs (s : State) (d : Nat) : List (Nat × Bool) :=
  ([(d + 1) % 3, (d + 2) % 3].flatMap fun e => if dimSize s e > 1 then [(e, true), (e, false)] else []).filter
    fun p => !(dirUp s p.1 p.2).isEmpty

/-- Route a packet that came in on a port of dimension `inDim` (3 for a local one) with a class and detour mark. -/
def routePkt (s : State) (inDim dst cls : Nat) (detour : Bool) : Hop :=
  match firstDim s dst with
  | none => .here
  | some (d, plus) =>
    if !(dirUp s d plus).isEmpty then
      let c := if d ≠ inDim then (if detour then 2 else 0) else cls
      let c := if crosses s d plus && !detour then 1 else c
      .out d plus detour c
    else match sideDirs s d with
      | (e, q) :: _ => .out e q true 2
      | [] => .drop

/-- The port of a direction that a packet takes (R260); the state remembers a collective packet's turn. -/
def pickPort (s : State) (d : Nat) (plus : Bool) (vc src dst : Nat) : State × Nat :=
  match dirUp s d plus with
  | [p, q] =>
    let k := 2 * d + (if plus then 0 else 1)
    if vc = 0 then
      let i := (mgetD s.clf.alternate k 1 + 1) % 2
      (modClf s fun c => { c with alternate := mset c.alternate k i }, if i = 0 then p else q)
    else (s, if (src ^^^ dst) % 2 = 0 then p else q)
  | p :: _ => (s, p)
  | [] => (s, 0)

/-- A packet is dropped for want of a direction (R262). -/
def unreachable (s : State) : State := count (wrOr s CLF_IRQ_STAT_unreach 1) 0x16C0 1

/-! ### Flits and the transmitter (R246–R253) -/

/-- Receive buffer of a virtual channel and class, by cr_sel code, and its size. -/
def bufOf (vc cls : Nat) : Nat := if vc ≥ 3 then 9 else 3 * vc + cls
def bufSize (vc : Nat) : Nat := if vc = 0 then 112 else if vc = 1 then 48 else 8

/-- Bytes 0–13 of a flit's header (R246). -/
def flitHead (f : Flit) : List Byte :=
  toLe 1 (f.vc + 4 * f.cls + 16 * b2n f.first + 32 * b2n f.last + 64 * b2n f.detour) ++ toLe 3 (f.dst + 2 ^ 17 * f.hops) ++ toLe 3 f.src
    ++ toLe 1 f.len ++ toLe 2 f.seq ++ toLe 2 (f.ack + 4096 * b2n f.ackV + 8192 * b2n f.nak) ++ toLe 2 (f.crSel + 16 * f.crTotal)

/-- The header CRC of a flit, and a flit that carries its own (R246). -/
def flitCrc (f : Flit) : BitVec 16 := BitVec.ofNat 16 (crc16 (flitHead f))
def sealFlit (f : Flit) : Flit := { f with hcrc := flitCrc f }

/-- The 256 bytes of a flit on the link (R246). -/
def flitBytes (f : Flit) : List Byte := flitHead f ++ toLe 2 f.hcrc.toNat ++ f.payload ++ zeros (240 - f.payload.length)

/-- The received header passes its hcrc (R250). -/
def hcrcOk (f : Flit) : Bool := f.hcrc = flitCrc f

/-- Symbols of a codeword and of its data, the lane of a symbol, and the most symbol errors that the receiver corrects (R245). -/
def cwSymbols : Nat := 272
def cwData : Nat := 257
def laneOf (i : Nat) : Nat := i % 8
def cwCorrects : Nat := 6

/-- A packet's flits: at most 32, of at most 240 payload bytes each (R247). -/
def packetFlits (vc cls src dst hops : Nat) (detour : Bool) (bytes : List Byte) : List Flit :=
  let parts := if bytes.isEmpty then [[]] else (chunks 240 bytes).take 32
  parts.mapIdx fun i b =>
    { vc := vc, cls := cls, first := i = 0, last := i + 1 = parts.length, detour := detour, dst := dst, hops := hops, src := src,
      len := b.length, seq := 0, ack := 0, ackV := true, nak := false, crSel := 15, crTotal := 0, hcrc := 0, payload := b }

/-- Credit is held for a flit (R252). -/
def hasCredit (p : Port) (f : Flit) : Bool :=
  let b := bufOf f.vc f.cls
  (mgetD p.sent b 0 + 4096 - mgetD p.credit b 0 % 4096) % 4096 < bufSize f.vc

/-- Input of local packets in the round robin of R253. -/
def localInput : Nat := 12

/-- The next flit of a virtual channel: that of the packet being sent, else the first of a packet of the next input in rotation. -/
def nextOn (p : Port) (vc : Nat) : Option OutFlit :=
  let of_ (i : Nat) : Option OutFlit := p.waiting.find? fun x => x.input = i && x.flit.vc = vc
  match mget p.turn vc with
  | some (i, true) => of_ i
  | some (i, false) => (List.range 13).findSome? fun k => of_ ((i + 1 + k) % 13)
  | none => (List.range 13).findSome? of_

/-- That flit, when its credit is held (R252, R253). -/
def readyOn (p : Port) (vc : Nat) : Option OutFlit :=
  match nextOn p vc with
  | some x => if hasCredit p x.flit then some x else none
  | none => none

/-- The next flit to send (R253). -/
def nextFlit (p : Port) : Option OutFlit :=
  let order := if p.wrr < 3 then [3, 2, 0, 1] else [3, 2, 1, 0]
  order.findSome? (readyOn p)

/-- Hand a flit to a port's transmitter: ack, nak and a credit total as they stand now, the CRC over them; counted (R247, R275). -/
def emitFlit (s : State) (n : Nat) (cr : Nat) (f : Flit) : State :=
  let p := portOf s n
  let f := { f with ack := (p.rxNext + 4095) % 4096, ackV := true, nak := p.nakking, crSel := cr, crTotal := mgetD p.freed cr 0 }
  count (emit s (.flit n (sealFlit f))) (0x1604 + 0x10 * n) 1

/-- An idle flit: ack, nak and one credit total (R247). -/
def idleOn (s : State) (n cr : Nat) : State :=
  emitFlit s n cr
    { vc := 0, cls := 0, first := false, last := false, detour := false, dst := 0, hops := 0, src := 0, len := 0, seq := 0, ack := 0
      ackV := true, nak := false, crSel := 15, crTotal := 0, hcrc := 0, payload := [] }

/-- A receive buffer of a port gets a flit's place back, and the peer learns of it (R252). -/
def freeBuffer (s : State) (n buf : Nat) : State :=
  let s := modPort s n fun p => { p with freed := mset p.freed buf ((mgetD p.freed buf 0 + 1) % 4096) }
  if usable s n then idleOn s n buf else s

/-- Send a flit: rewritten header, replay copy, counts; its place in the receive buffer that it waited in is free (R247, R250, R252). -/
def sendFlit (s : State) (n : Nat) (x : OutFlit) : State :=
  let p := portOf s n
  let f := x.flit
  let b := bufOf f.vc f.cls
  let g := { f with seq := p.txSeq, hops := f.hops + 1 }
  let s := modPort s n fun p => { p with
    replay := p.replay ++ [⟨x.input, none, g⟩], txSeq := (p.txSeq + 1) % 4096, sent := mset p.sent b ((mgetD p.sent b 0 + 1) % 4096)
    waiting := p.waiting.erase x, turn := mset p.turn f.vc (x.input, !f.last)
    wrr := if f.vc = 1 then 0 else if f.vc = 0 then min 3 (p.wrr + 1) else p.wrr }
  let s := emitFlit s n (p.txSeq % 10) g
  match x.buf with
  | some k => freeBuffer s x.input k
  | none => s

/-- Send what credit and the replay buffer allow; fuel is the number of waiting flits. -/
def pumpPort : Nat → State → Nat → State
  | 0, s, _ => s
  | k + 1, s, n =>
    let p := portOf s n
    if !usable s n || p.replay.length ≥ 512 then s
    else match nextFlit p with
      | some x => pumpPort k (sendFlit s n x) n
      | none => s

/-- Pump a port. -/
def pump (s : State) (n : Nat) : State := pumpPort (portOf s n).waiting.length s n

/-- Put flits on a port's transmitter. -/
def enqueueOut (s : State) (n : Nat) (l : List OutFlit) : State := pump (modPort s n fun p => { p with waiting := p.waiting ++ l }) n

/-- Put a packet of this module on a port's transmitter. -/
def enqueueFlits (s : State) (n : Nat) (l : List Flit) : State := enqueueOut s n (l.map fun f => ⟨localInput, none, f⟩)

/-- Send a packet from this module (R259–R262). -/
def fabricSend (s : State) (vc dst : Nat) (bytes : List Byte) : State :=
  match routePkt s 3 dst 0 false with
  | .here => s
  | .drop => unreachable s
  | .out d plus det cls =>
    let r := pickPort s d plus vc (ownId s) dst
    enqueueFlits r.1 r.2 (packetFlits vc cls (ownId s) dst 0 det bytes)

/-! ### Longshore packets on the fabric (R285) -/

/-- The 32 header bytes and the data of a Longshore packet. -/
def lshBytes (p : LshPkt) : List Byte :=
  let h := toLe 1 (p.op + 16 * p.kind) ++ toLe 1 (b2n p.nf + 2 * b2n p.inv + 4 * b2n p.retx + 16 * p.berth) ++ toLe 2 p.group
    ++ toLe 2 p.epoch ++ toLe 1 p.level ++ toLe 1 p.try_ ++ toLe 2 p.cseq ++ zeros 2 ++ toLe 4 p.step.toNat ++ toLe 4 p.node
    ++ toLe 4 p.chunk ++ toLe 2 p.data.length ++ toLe 2 p.aux
  h ++ toLe 4 (crc32c (h ++ p.data)) ++ p.data

/-- Put a Longshore packet on the fabric: collective channel, or control for FENCE, FLAG and COUNT. Data bytes and REQ packets are
counted as they leave (R306). -/
def lshEmit (s : State) (dst : Nat) (p : LshPkt) : State :=
  let s := if p.kind = 0 then count s (0x1700 + p.berth) p.data.length else if p.kind = 2 then count s 0x1722 1 else s
  fabricSend (emit s (.lsh dst p)) (if p.kind ≥ 3 then 2 else 0) dst (lshBytes p)

/-- Send a Longshore packet; while LSH_CTL.run is clear it waits (R305). -/
def lshSend (s : State) (dst : Nat) (p : LshPkt) : State :=
  if rdb s LSH_CTL_run then lshEmit s dst p
  else { s with lsh := { s.lsh with outbox := s.lsh.outbox ++ [(dst, p)] } }

/-- The packets that waited for LSH_CTL.run leave in their order; the step flag is the one that stands now (R291). -/
def lshFlush (s : State) : State :=
  let l := s.lsh.outbox
  let flag (p : LshPkt) : Bool := p.nf || (p.kind ≤ 2 && (fget s.lsh.close p.berth).flag)
  foldS (fun s (q : Nat × LshPkt) => lshEmit s q.1 { q.2 with nf := flag q.2 }) { s with lsh := { s.lsh with outbox := [] } } l

end Sys2Proof.Machine
end

