-- ==== Sys2Proof/Machine/Longshore.lean ====
section
/-!
DEFINITION. Longshore's collectives (R277–R291, R301–R304): groups, the geometry of a reduction, packets, the nodes of R288, results,
start, completion, timeouts, and the packets that arrive. Reductions carry FP32 at every level, in chunks of 1,792 elements
(DESIGN CHOICE, log 41).
-/
namespace Sys2Proof.Machine
open Sys2Proof

/-! ### Access -/

/-- Change Longshore's structure. -/
def modLsh (s : State) (f : Longshore → Longshore) : State := { s with lsh := f s.lsh }

/-- A live group of a berth. -/
def groupOf (s : State) (b g : Nat) : Option Group := mget s.lsh.live (65536 * b + g)

/-- The berth's live close group: number and entry. -/
def closeGroup (s : State) (b : Nat) : Option (Nat × Group) :=
  (s.lsh.live.find? fun p => p.1 / 65536 = b && (parseGrp p.2.entry).axis = 4).map fun p => (p.1 % 65536, p.2)

/-- The record of a channel. -/
def LChan.none : LChan := { queue := [], active := [], past := [], pos := 0, halted := false }
def chanOf (s : State) (b c : Nat) : LChan := mgetD s.lsh.chans (16 * b + c) LChan.none
def modChan (s : State) (b c : Nat) (f : LChan → LChan) : State :=
  modLsh s fun l => { l with chans := mset l.chans (16 * b + c) (f (chanOf s b c)) }

/-- The step flag of a berth. -/
def flagOf (s : State) (b : Nat) : Bool := (fget s.lsh.close b).flag
/-- Low 8 bits of the skip total. -/
def tryOf (s : State) (b : Nat) : Nat := (fget s.upd.skipTotal b).toNat % 256
/-- Change the close wave of a berth. -/
def modClose (s : State) (b : Nat) (f : Close → Close) : State := modLsh s fun l => { l with close := fmod l.close b f }
/-- Change the PERMUTE of a berth. -/
def modPerm (s : State) (b : Nat) (f : Permute → Permute) : State := modLsh s fun l => { l with permute := fmod l.permute b f }

/-- Timeout of a group in ticks (R302). -/
def groupTmo (s : State) (g : GrpD) : Nat := if g.timeout = 0 then rd1 s LSH_TMO_ticks else g.timeout

/-! ### The geometry of a collective (R281, R289) -/

/-- What a collective's packets and nodes are counted by. -/
structure Geom where
  d       : CollD
  size    : Nat
  rank    : Nat
  levels  : Nat
  halving : Bool
  members : List Nat
  deriving DecidableEq, Repr

/-- Elements of an equal shard, and of shard s (R281). -/
def Geom.sh (g : Geom) : Nat := cdiv g.d.count g.size
/-- One shard owned by the root under DIRECT with shard = 1. -/
def Geom.whole (g : Geom) : Bool := g.d.op = 2 && g.d.shard && !g.halving
def Geom.shards (g : Geom) : Nat := if g.whole then 1 else g.size
def Geom.owner (g : Geom) (k : Nat) : Nat := if g.whole then g.d.root else k
def Geom.len (g : Geom) (k : Nat) : Nat := if g.whole then g.d.count else min g.sh (g.d.count - k * g.sh)
def Geom.start (g : Geom) (k : Nat) : Nat := if g.whole then 0 else k * g.sh

/-- Elements of a chunk in FP32. -/
def chunkElems : Nat := 1792
/-- Chunks of a full shard, and of shard k. -/
def Geom.cmax (g : Geom) : Nat := cdiv (if g.whole then g.d.count else g.sh) chunkElems
def Geom.chunks (g : Geom) (k : Nat) : Nat := cdiv (g.len k) chunkElems

/-- Reductions and movements. -/
def isRed (op : Nat) : Bool := op = 1 || op = 2

/-- The plan of a reduction (R289): automatic takes HALVING when every shard, the last among them, holds 7,168 bytes in FP32. -/
def planHalving (p size count : Nat) : Bool :=
  let two := size = 2 ^ Nat.log2 size
  p = 2 || (p = 0 && two && 4 * (count - (size - 1) * cdiv count size) ≥ 7168)

/-- Geometry from a descriptor and its group. -/
def geomOf (d : CollD) (grp : Group) : Geom :=
  let e := parseGrp grp.entry
  { d := d, size := e.size, rank := e.rank, levels := clog2 e.size, halving := isRed d.op && planHalving e.plan e.size d.count,
    members := grp.members }

/-- Device ID of a rank, and rank of a device. -/
def Geom.dev (g : Geom) (r : Nat) : Nat := nth g.members r 0
def Geom.rankOf (g : Geom) (dev : Nat) : Option Nat := g.members.findIdx? (· = dev)

/-- Key of a node (R285). -/
def nodeKey (level node chunk : Nat) : Nat := (level * 2 ^ 18 + node) * 2 ^ 32 + chunk

/-- Ranks that a shard's root goes to: for each shard k, the ranks that write it (R281). -/
def Geom.takers (g : Geom) (k : Nat) : List Nat :=
  if g.d.op = 1 then List.range g.size else if g.d.shard then [g.d.root] else [g.owner k]

/-- Chunk number on the wire of chunk c of shard k at a level: within the shards that go together (DIRECT and roots: the shard). -/
def Geom.wire (g : Geom) (level k c : Nat) : Nat :=
  if g.halving && level < g.levels then k / 2 ^ (level + 1) * g.cmax + c else c

/-- Shard and chunk that a packet from a rank carries. -/
def Geom.unwire (g : Geom) (level from_ chunk : Nat) : Nat × Nat :=
  if level ≥ g.levels then ((if g.whole then 0 else from_), chunk)
  else if g.halving then (chunk / (max g.cmax 1) * 2 ^ (level + 1) + g.rank % 2 ^ (level + 1), chunk % (max g.cmax 1))
  else ((if g.whole then 0 else g.rank), chunk)

/-- What a reduction has to receive: level, node, wire chunk and the rank that sends it. -/
def Geom.expects (g : Geom) : List (Nat × Nat × Nat × Nat) :=
  let all (k : Nat) := List.range (g.chunks k)
  let parts :=
    if g.halving then (List.range g.levels).flatMap fun l =>
      let p := g.rank ^^^ 2 ^ l
      ((List.range g.size).filter fun k => k % 2 ^ (l + 1) = g.rank % 2 ^ (l + 1)).flatMap fun k =>
        (all k).map fun c => (l, p / 2 ^ l, g.wire l k c, p)
    else ((List.range g.shards).filter fun k => g.owner k = g.rank).flatMap fun k =>
      ((List.range g.size).filter (· ≠ g.rank)).flatMap fun q => (all k).map fun c => (0, q, c, q)
  let roots := ((List.range g.shards).filter fun k => g.owner k ≠ g.rank && g.rank ∈ g.takers k).flatMap fun k =>
    (all k).map fun c => (g.levels, g.owner k, c, g.owner k)
  parts ++ roots

/-- Bytes that each rank contributes to each receiver of a movement. -/
def Geom.part (g : Geom) : Nat := g.d.count * esz g.d.fin

/-- Packets of a part of `n` bytes. -/
def moveChunks (n : Nat) : Nat := cdiv n 7168

/-- What a movement has to receive. -/
def Geom.moves (g : Geom) : List (Nat × Nat × Nat × Nat) :=
  let others := (List.range g.size).filter (· ≠ g.rank)
  if g.d.op = 6 then others.map fun q => (0, q, 0, q)
  else if g.d.op = 5 then (if g.rank = g.d.root then [] else (List.range (moveChunks g.part)).map fun c => (0, g.d.root, c, g.d.root))
  else others.flatMap fun q => (List.range (moveChunks g.part)).map fun c => (0, q, c, q)

/-- Everything that this rank has to receive. -/
def Geom.owed (g : Geom) : List (Nat × Nat × Nat × Nat) := if isRed g.d.op then g.expects else g.moves

/-! ### A collective in progress -/

/-- Where a collective in progress stands: berth, channel, position. -/
structure CRef where
  b : Nat
  c : Nat
  i : Nat
  deriving DecidableEq, Repr

/-- The collective at a reference. -/
def collAt (s : State) (r : CRef) : Option Coll := (chanOf s r.b r.c).active[r.i]?
/-- Change it. -/
def modColl (s : State) (r : CRef) (f : Coll → Coll) : State :=
  modChan s r.b r.c fun x => { x with active := x.active.mapIdx fun i y => if i = r.i then f y else y }

/-- Geometry of a collective, while its group is live. -/
def collGeom (s : State) (b : Nat) (c : Coll) : Option Geom :=
  (groupOf s b (parseColl c.desc).group).map (geomOf (parseColl c.desc))

/-- The internal channel that carries the reduces of factor slots (R139). -/
def slotChan : Nat := 64
/-- Every channel of a berth. -/
def allChans : List Nat := List.range 16 ++ [slotChan]

/-- The collective that a packet names (R286). -/
def findColl (s : State) (p : LshPkt) : Option CRef :=
  allChans.findSome? fun c =>
    ((chanOf s p.berth c).active.findIdx? fun x =>
      (parseColl x.desc).group = p.group && x.cseq = p.cseq && x.step = p.step && x.try_ = p.try_).map fun i => ⟨p.berth, c, i⟩

/-- A packet of a collective (R285). -/
def collPkt (s : State) (b : Nat) (c : Coll) (kind level node chunk aux : Nat) (inv retx : Bool) (data : List Byte) : LshPkt :=
  { src := ownId s, op := c.op, kind := kind, nf := flagOf s b, inv := inv, retx := retx, berth := b
    group := (parseColl c.desc).group, epoch := c.epoch, level := level, try_ := c.try_, cseq := c.cseq, step := c.step
    node := node, chunk := chunk, aux := aux, crcOk := true, data := data }

/-- Packets of a collective that the window lets go now, and those that stay (R287). -/
def splitWindow (w : Nat) : List (Nat × LshPkt) → NMap Nat → List (Nat × LshPkt) × List (Nat × LshPkt) × NMap Nat
  | [], u => ([], [], u)
  | (d, p) :: l, u =>
    if mgetD u d 0 < w then
      let r := splitWindow w l (mset u d (mgetD u d 0 + 1))
      ((d, p) :: r.1, r.2.1, r.2.2)
    else
      let r := splitWindow w l u
      (r.1, (d, p) :: r.2.1, r.2.2)

/-- Send what the window allows (R287, R305); nothing of the old epoch once a fence has begun (R299). -/
def pumpColl (s : State) (r : CRef) : State :=
  if !rdb s LSH_CTL_run || (fget s.lsh.permute r.b).phase ≠ 0 then s
  else match collAt s r with
    | none => s
    | some c =>
      let w := splitWindow (rd1 s LSH_WINDOW_packets) c.toSend c.unacked
      let s := modColl s r fun c => { c with
        toSend := w.2.1, unacked := w.2.2, since := if w.2.1.isEmpty && !c.toSend.isEmpty then s.lh.tick else c.since }
      foldS (fun s (q : Nat × LshPkt) =>
        let p := { q.2 with nf := flagOf s r.b }
        let s := modPerm s r.b fun x => { x with sent := if p.retx then x.sent else x.sent + 1 }
        lshSend s q.1 p) s w.1

/-- Every collective of a berth sends what it can. -/
def pumpAll (s : State) (b : Nat) : State :=
  foldS (fun s c => foldS (fun s i => pumpColl s ⟨b, c, i⟩) s (List.range (chanOf s b c).active.length)) s allChans

/-- Queue a data packet for a rank. -/
def sendTo (s : State) (r : CRef) (g : Geom) (rank level node chunk : Nat) (inv : Bool) (data : List Byte) : State :=
  match collAt s r with
  | none => s
  | some c => modColl s r fun c' => { c' with
      toSend := c'.toSend ++ [(g.dev rank, collPkt s r.b c 0 level node chunk 0 inv false data)] }

/-- The berth's flag is set when a value is not finite (R291). -/
def flagValues (s : State) (b : Nat) (ok : Bool) : State := if ok then s else setFlag s b

/-! ### Results in memory (R219, R284, R288) -/

/-- A handle's bytes from an offset lie in the handle_g of a shard. -/
def isGrad (s : State) (h : Hdl) : Bool := s.upd.shards.any fun p => (parseSh p.2.desc).hg = h

/-- Cut a write at page borders: offset in the object and bytes. -/
def pageParts (off : Nat) (bs : List Byte) : List (Nat × List Byte) :=
  (chunks pageSize (List.replicate (off % pageSize) (0 : Byte) ++ bs)).mapIdx fun i l =>
    if i = 0 then (off, l.drop (off % pageSize)) else ((off / pageSize + i) * pageSize, l)

/-- The page of a berth's object already holds results. -/
def heldHere (s : State) (b o p : Nat) : Bool := s.mem.held.any fun h => h.berth = b && h.object = o && h.page = p

/-- Room to hold or spill a page: neither is left when it answers none. -/
def holdRoom (s : State) (b : Nat) : Option Bool :=
  if freeT1 s b > 0 then some false
  else if spillCount s b < rd s (PGR_SPILL_pages.at b) then some true else none

/-- Hold result bytes of a page that stands in T3 (R219). None when neither the partition nor the spill reserve has room. -/
def holdBytes (s : State) (b o p off : Nat) (bs : List Byte) : Option State :=
  let add (l : List (Nat × Byte)) : List (Nat × Byte) := l ++ bs.mapIdx fun i x => (off + i, x)
  if heldHere s b o p then
    some (modMem s fun m => { m with
      held := m.held.map fun h => if h.berth = b && h.object = o && h.page = p then { h with bytes := add h.bytes } else h })
  else match holdRoom s b with
    | none => none
    | some sp =>
      let s := if sp then count (wrOr (wrOr s HBR_IRQ_STAT_part_full 1) PGR_IRQ_STAT_spill 1) (0x1230 + b) 1 else s
      some (modMem s fun m => { m with held := m.held ++ [⟨b, o, p, sp, add []⟩] })

/-- Write part of a collective's result. None when R219 back-pressures it. -/
def writePart (s : State) (b : Nat) (h : Hdl) (off : Nat) (bs : List Byte) : Option State :=
  match objOf s h with
  | none => some s
  | some o =>
    let at_ := hView h * pageSize + off
    (pageParts at_ bs).foldl (fun acc q => acc.bind fun s =>
      let p := q.1 / pageSize
      if (pageLoc o p).tier = 3 && isGrad s h then
        (holdBytes s b (hObj h) p (q.1 % pageSize) q.2).map fun s => wantPage s h p 2 true
      else
        let w := writeN s h (q.1 - hView h * pageSize) q.2
        some (if w.2 then setFlag w.1 b else w.1)) (some s)

/-- Bytes of FP32 values rounded to a result format (R288). -/
def roundOut (f : Nat) (l : List W32) : List Byte := l.flatMap fun v => toLe (esz f) (castTo f false v)

/-- Offset of a shard's chunk in a rank's result (R281). -/
def Geom.dstOff (g : Geom) (k c : Nat) : Nat :=
  (if g.d.op = 2 && !g.d.shard then c * chunkElems else g.start k + c * chunkElems) * esz g.d.fout

/-- Write the root of a chunk into this rank's result, once. -/
def writeRoot (s : State) (r : CRef) (g : Geom) (k c : Nat) (v : List W32) : State :=
  let id := k * 2 ^ 32 + c
  match collAt s r with
  | none => s
  | some x =>
    if id ∈ x.written then s
    else if r.c = slotChan then modColl s r fun x => { x with written := id :: x.written }
    else match writePart s r.b g.d.dst (g.dstOff k c) (roundOut g.d.fout v) with
      | some s => modColl s r fun x => { x with written := id :: x.written }
      | none => wrOr s HBR_IRQ_STAT_part_full 1

/-! ### Nodes (R288, R289) -/

/-- Combine siblings. -/
def redOp (red : Nat) : W32 → W32 → W32 := if red = 2 then fmax else if red = 3 then fmin else fadd

/-- What a root becomes: multiplied once by fp32(1 / R) for an average. -/
def rootVal (g : Geom) (v : List W32) : List W32 :=
  if g.d.red = 1 then
    let k := fdiv one32 (f32Nat g.size)
    v.map fun x => fmul x k
  else v

/-- Keep a node, and whether it is invalid under R225. -/
def putNode (s : State) (r : CRef) (key : Nat) (v : List W32) (inv : Bool) : State :=
  modColl s r fun x => { x with nodes := mset x.nodes key v, invs := if inv && !(key ∈ x.invs) then key :: x.invs else x.invs }

/-- A node that the collective holds, with whether it is invalid. -/
def heldNode (c : Coll) (key : Nat) : Option (List W32 × Bool) := (mget c.nodes key).map fun v => (v, decide (key ∈ c.invs))

/-- A root has been formed here: it is written, and sent to the other ranks that take it. -/
def deliverRoot (s : State) (r : CRef) (g : Geom) (k c : Nat) (v : List W32) (inv : Bool) : State :=
  let v := rootVal g v
  let s := flagValues s r.b (allFinite v)
  let s := putNode s r (nodeKey g.levels 0 (k * g.cmax + c)) v inv
  foldS (fun s q =>
    if q = g.rank then writeRoot s r g k c v else sendTo s r g q g.levels g.rank c inv (wordBytes v)) s (g.takers k)

/-- A node of a chunk is held here: it is sent on, or combined with its sibling once that is here; fuel is the levels left. A node
formed from an invalid child is invalid (R225). -/
def addNode : Nat → State → CRef → Geom → Nat → Nat → Nat → Nat → List W32 → Bool → State
  | 0, s, r, g, _, _, k, c, v, inv => deliverRoot s r g k c v inv
  | fuel + 1, s, r, g, level, node, k, c, v, inv =>
    let s := flagValues s r.b (allFinite v)
    if level ≥ g.levels then deliverRoot s r g k c v inv
    else
      let gc := k * g.cmax + c
      let s := putNode s r (nodeKey level node gc) v inv
      if g.halving && k / 2 ^ level % 2 ≠ g.rank / 2 ^ level % 2 then
        sendTo s r g (g.rank ^^^ 2 ^ level) level node (g.wire level k c) inv (wordBytes v)
      else
        let sib := node ^^^ 1
        if sib * 2 ^ level ≥ g.size then addNode fuel s r g (level + 1) (node / 2) k c v inv
        else match (collAt s r).bind fun x => heldNode x (nodeKey level sib gc) with
          | none => s
          | some w =>
            let f := redOp g.d.red
            let u := if node % 2 = 0 then List.zipWith f v w.1 else List.zipWith f w.1 v
            addNode fuel s r g (level + 1) (node / 2) k c u (inv || w.2)

/-- This rank's own contribution, given by its elements and by which of them are invalid: each chunk kept or sent (R288, R289). -/
def contribute (s : State) (r : CRef) (g : Geom) (val : Nat → W32) (invAt : Nat → Nat → Bool) : State :=
  let one (s : State) (k c : Nat) : State :=
    let a := g.start k + c * chunkElems
    let m := min chunkElems (g.len k - c * chunkElems)
    let v := (rangeFrom a m).map val
    if g.halving || g.owner k = g.rank then addNode 18 s r g 0 g.rank k c v (invAt a m)
    else
      let s := sendTo (flagValues s r.b (allFinite v)) r g (g.owner k) 0 g.rank c (invAt a m) (wordBytes v)
      putNode s r (nodeKey 0 g.rank (k * g.cmax + c)) v (invAt a m)
  foldS (fun s k => foldS (fun s c => one s k c) s (List.range (g.chunks k))) s (List.range g.shards)

/-- The own contribution read from a source handle and converted to FP32 (R288, R225). -/
def ownContribution (s : State) (r : CRef) (g : Geom) (src : Hdl) : State :=
  let n := g.d.count
  let e := esz g.d.fin
  let raw := readH s src 0 (n * e)
  let val (i : Nat) : W32 :=
    if raw.2 && badRange s (addrOf src + i * e) e then nan32 else widen g.d.fin (leNat (slice raw.1 (i * e) e))
  let s := if raw.2 then setFlag (noteRead s src 0 (n * e)) r.b else s
  contribute s r g val fun a m => raw.2 && badRange s (addrOf src + a * e) (m * e)

/-- The average factor F of a slot as this rank contributes it: its blocks in row-major order (R139), by the slot's descriptor as it
stood at the issue, which the internal descriptor carries behind its own 64 bytes (R157). -/
def slotContribution (s : State) (r : CRef) (g : Geom) (desc : List Byte) : State :=
  let fd := parseFs (desc.drop 64)
  let x := readAllF s fd
  let s := faultIf x.2 s r.b 0x02 fd.hf 0 (4 * fd.elems)
  contribute s r g (fun i => nth x.1 i 0) fun _ _ => x.2

/-! ### Movements (R281) -/

/-- Every value of a run of bytes of a format is finite. -/
def bytesFinite (f : Nat) (bs : List Byte) : Bool := (chunks (esz f) bs).all fun q => isFinite (widen f (leNat q))

/-- Write a part of rank q into this rank's result. -/
def writeMove (s : State) (r : CRef) (g : Geom) (q c : Nat) (bs : List Byte) : State :=
  let off := (if g.d.op = 5 then 0 else q * g.part) + c * 7168
  let id := q * 2 ^ 32 + c
  match collAt s r with
  | none => s
  | some x =>
    if id ∈ x.written then s
    else match writePart (flagValues s r.b (bytesFinite g.d.fin bs)) r.b g.d.dst off bs with
      | some s => modColl s r fun x => { x with written := id :: x.written, nodes := mset x.nodes (nodeKey 0 q c) [] }
      | none => wrOr s HBR_IRQ_STAT_part_full 1

/-- This rank's own part of a movement: to each other rank, and into its own result. -/
def ownMovement (s : State) (r : CRef) (g : Geom) (src : Hdl) : State :=
  let others := (List.range g.size).filter (· ≠ g.rank)
  if g.d.op = 6 then foldS (fun s q => sendTo s r g q 0 g.rank 0 false []) s others
  else if g.d.op = 5 && g.rank ≠ g.d.root then s
  else
    let n := g.part
    let total := if g.d.op = 4 then n * g.size else n
    let s := if (readH s src 0 total).2 then setFlag (noteRead s src 0 total) r.b else s
    let chunk (q c : Nat) : List Byte × Bool :=
      let a := (if g.d.op = 4 then q * n else 0) + c * 7168
      readH s src a (min 7168 (n - c * 7168))
    let toRank (s : State) (q : Nat) : State :=
      foldS (fun s c =>
        let x := chunk q c
        if q = g.rank then writeMove s r g q c x.1
        else sendTo (flagValues s r.b (bytesFinite g.d.fin x.1)) r g q 0 g.rank c x.2 x.1) s (List.range (moveChunks n))
    foldS toRank s (List.range g.size)

/-! ### What is missing, and when a collective is done -/

/-- A collective has received the packet (level, node, wire chunk) of a rank. -/
def hasPart (g : Geom) (c : Coll) (q : Nat × Nat × Nat × Nat) : Bool :=
  if !isRed g.d.op then (mget c.nodes (nodeKey 0 q.2.1 q.2.2.1)).isSome
  else
    let u := g.unwire q.1 q.2.2.2 q.2.2.1
    if q.1 ≥ g.levels then (u.1 * 2 ^ 32 + u.2) ∈ c.written
      || (mget c.nodes (nodeKey g.levels (q.2.1 + 1) (u.1 * g.cmax + u.2))).isSome
    else (mget c.nodes (nodeKey q.1 q.2.1 (u.1 * g.cmax + u.2))).isSome

/-- Packets that the collective still lacks. -/
def missingParts (g : Geom) (c : Coll) : List (Nat × Nat × Nat × Nat) := g.owed.filter fun q => !hasPart g c q

/-- Chunks of this rank's result that are still to be written. -/
def unwritten (g : Geom) (c : Coll) : List (Nat × Nat) :=
  if isRed g.d.op then
    ((List.range g.shards).filter fun k => g.rank ∈ g.takers k).flatMap fun k =>
      (List.range (g.chunks k)).filterMap fun i => if (k * 2 ^ 32 + i) ∈ c.written then none else some (k, i)
  else if g.d.op = 6 then []
  else
    (if g.d.op = 5 then [g.d.root] else List.range g.size).flatMap fun q =>
      (List.range (moveChunks g.part)).filterMap fun i => if (q * 2 ^ 32 + i) ∈ c.written then none else some (q, i)

/-- Everything owed has arrived, every result is written and every packet is sent. -/
def collDone (g : Geom) (c : Coll) : Bool := (missingParts g c).isEmpty && (unwritten g c).isEmpty && c.toSend.isEmpty

/-- Roots held here that R219 kept from being written are tried again. -/
def retryRoots (s : State) (r : CRef) : State :=
  match collAt s r with
  | none => s
  | some c => match collGeom s r.b c with
    | none => s
    | some g =>
      if isRed g.d.op then
        foldS (fun s (q : Nat × Nat) =>
          let own := mget c.nodes (nodeKey g.levels 0 (q.1 * g.cmax + q.2))
          let got := mget c.nodes (nodeKey g.levels (g.owner q.1 + 1) (q.1 * g.cmax + q.2))
          match own, got with
          | some v, _ => writeRoot s r g q.1 q.2 v
          | none, some v => writeRoot s r g q.1 q.2 v
          | none, none => s) s (unwritten g c)
      else s

/-! ### Acknowledgement (R287, R290) -/

/-- A node that has come from a peer: not one of this rank's own chain (R290). -/
def cameIn (g : Geom) (level node : Nat) : Bool :=
  level < g.levels && node ≠ g.rank / 2 ^ level && (g.halving || level = 0)

/-- Bytes of the nodes that a collective has received and whose siblings it still awaits (R288, R290). -/
def waitingBytes (g : Geom) (c : Coll) : Nat :=
  (c.nodes.map fun p =>
    let level := p.1 / 2 ^ 32 / 2 ^ 18
    let node := p.1 / 2 ^ 32 % 2 ^ 18
    if cameIn g level node && (node ^^^ 1) * 2 ^ level < g.size && (mget c.nodes (nodeKey level (node ^^^ 1) (p.1 % 2 ^ 32))).isNone then
      4 * p.2.length
    else 0).sum

/-- Bytes of the reorder buffer that a berth's collectives hold: nodes that await their siblings, and packets that came early. -/
def reorderUsed (s : State) (b : Nat) : Nat :=
  (allChans.flatMap fun c => (chanOf s b c).active.map fun x => match collGeom s b x with
    | some g => if isRed g.d.op then waitingBytes g x else 0
    | none => 0).sum
    + ((s.lsh.early.filter fun p => p.berth = b).map fun p => p.data.length).sum

/-- Berths that have open groups share 64 MiB equally. -/
def reorderShare (s : State) : Nat :=
  2 ^ 26 / max 1 ((berths.filter fun b => s.lsh.live.any fun p => p.1 / 65536 = b).length)

/-- Acknowledge packets of a rank: every 16, and the last of the collective, while the reorder buffer has room. -/
def sendAck (s : State) (r : CRef) (g : Geom) (q : Nat) : State :=
  match collAt s r with
  | none => s
  | some c =>
    let n := mgetD c.granted q 0
    let last := !(missingParts g c).any fun m => m.2.2.2 = q
    if n = 0 || (n < 16 && !last) || reorderUsed s r.b > reorderShare s then s
    else
      let s := modColl s r fun c => { c with granted := mset c.granted q 0 }
      lshSend s (g.dev q) (collPkt s r.b c 1 0 0 0 n false false [])

/-- Acknowledge whatever can be acknowledged for a collective. -/
def sendAcks (s : State) (r : CRef) : State :=
  match collAt s r with
  | none => s
  | some c => match collGeom s r.b c with
    | none => s
    | some g => foldS (fun s (p : Nat × Nat) => sendAck s r g p.1) s c.granted

/-- Acknowledge whatever can be acknowledged for a berth: room that one collective gives back serves the others (R287). -/
def ackAll (s : State) (b : Nat) : State :=
  foldS (fun s c => foldS (fun s i => sendAcks s ⟨b, c, i⟩) s (List.range (chanOf s b c).active.length)) s allChans

/-! ### Data packets (R286, R288) -/

/-- A data packet is accepted on its arrival: counted once for its item, whether the original or a resend in its stead came first
(DEDUCED, log 185), and the step flag set for invalid data (R225, R299, R306). -/
def noteAccept (s : State) (p : LshPkt) : State :=
  let s := count s (0x1710 + p.berth) p.data.length
  let s := modPerm s p.berth fun x => { x with accepted := x.accepted + 1 }
  if p.inv then setFlag s p.berth else s

/-- Take a data packet into a collective in progress. -/
def acceptData (s : State) (r : CRef) (g : Geom) (p : LshPkt) (early : Bool) : State :=
  match g.rankOf p.src, collAt s r with
  | some q, some c =>
    if hasPart g c (p.level, p.node, p.chunk, q) then count s 0x1721 1
    else
      let s := if early then s else noteAccept s p
      let s := modColl s r fun c => { c with
        accepted := c.accepted + 1, since := s.lh.tick, granted := mset c.granted q (mgetD c.granted q 0 + 1) }
      let s :=
        if isRed g.d.op then
          let u := g.unwire p.level q p.chunk
          let v := (chunks 4 p.data).map fun w => BitVec.ofNat 32 (leNat w)
          if p.level ≥ g.levels then
            let s := flagValues s r.b (allFinite v)
            writeRoot (putNode s r (nodeKey g.levels (q + 1) (u.1 * g.cmax + u.2)) v p.inv) r g u.1 u.2 v
          else addNode 18 s r g p.level p.node u.1 u.2 v p.inv
        else if g.d.op = 6 then modColl s r fun c => { c with nodes := mset c.nodes (nodeKey 0 q 0) [] }
        else writeMove s r g q p.chunk p.data
      pumpColl (ackAll s r.b) r
  | _, _ => s

/-- A packet is stale (R286). -/
def staleDrop (s : State) : State := count (wrOr s LSH_IRQ_STAT_stale 1) 0x1720 1

/-- The packet belongs to the group's live epoch and the berth's present step and try. -/
def current (s : State) (p : LshPkt) : Bool :=
  match groupOf s p.berth p.group with
  | some g => p.epoch = (parseGrp g.entry).epoch && p.step.toNat = (fget s.upd.steps p.berth).toNat % 2 ^ 32 && p.try_ = tryOf s p.berth
  | none => false

/-- Ask a device for data again (R286, R300); the packet carries the step flag as it stands (R291). -/
def sendReq (s : State) (dev : Nat) (p : LshPkt) : State :=
  lshSend s dev { p with kind := 2, data := [], retx := false, inv := false, nf := flagOf s p.berth }

/-- Completion accounting: every part that a collective still lacks, of one device or of all, is asked for again (R286, R300). -/
def askMissing (s : State) (r : CRef) (dev : Option Nat) : State :=
  match collAt s r with
  | none => s
  | some c => match collGeom s r.b c with
    | none => s
    | some g => foldS (fun s (m : Nat × Nat × Nat × Nat) =>
        let d := g.dev m.2.2.2
        if dev = none || dev = some d then sendReq s d (collPkt s r.b c 2 m.1 m.2.1 m.2.2.1 0 false false []) else s) s (missingParts g c)

/-! ### Start (R283, R284, R301) -/

/-- A new collective. -/
def freshColl (s : State) (b : Nat) (d : List Byte) (g : Group) : Coll :=
  let c := parseColl d
  { desc := d, op := c.op, cseq := g.cseq, epoch := (parseGrp g.entry).epoch, step := BitVec.ofNat 32 (fget s.upd.steps b).toNat
    try_ := tryOf s b, src := c.src, srcRank := (parseGrp g.entry).rank, nodes := [], invs := [], written := [], toSend := [], unacked := [], granted := [], accepted := 0
    since := s.lh.tick, done := false, fault := false }

/-- A timed channel of the berth has a collective in progress, other than channel c (R301). -/
def timedOther (s : State) (b c : Nat) : Bool :=
  (List.range 16).any fun k => k ≠ c && bit (rd s (LSH_TIMED_timed.at b)) k && !(chanOf s b k).active.isEmpty

/-- A merge of the slot for a step before the present one has yet to complete, so that F is not the one to average (R138, R139). -/
def mergeAhead (s : State) (b slot : Nat) : Bool :=
  mergePending s b slot (fget s.upd.steps b)

/-- The head of a channel's queue may start. -/
def collMayStart (s : State) (b c : Nat) : Bool :=
  let x := chanOf s b c
  rdb s LSH_CTL_run && !inReset s 0x14 && !inReset s 0x3F && !stopping s && rdb s CLF_COORD_valid && !x.halted && x.active.length < 8
    && (fget s.lsh.permute b).phase = 0 && !fget s.shelf.undecided b && !timedOther s b c
    && (match x.queue with
      | d :: _ => slotReady s b (parseColl d).waitSlot (parseColl d).waitCount && !(c = slotChan && mergeAhead s b (parseColl d).layer)
      | [] => false)

/-- Place template copies in their channels, each where its own channel has room and no earlier copy waits for it (R283, R304). -/
def placeCopies (b : Nat) (l : List (List Byte)) (s : State) : State :=
  foldS (fun s d =>
    let c := (parseColl d).chan
    if (chanOf s b c).queue.length < 256 && !((fget s.lsh.copies b).any fun e => (parseColl e).chan = c) then
      modChan s b c fun x => { x with queue := x.queue ++ [d] }
    else modLsh s fun y => { y with copies := fmod y.copies b (· ++ [d]) }) (modLsh s fun y => { y with copies := fset y.copies b [] }) l

/-- The handles that a collective of this rank uses in T1 and T2 (R202): what it reads, and its result unless R219 holds that. -/
def collUses (s : State) (g : Geom) (fdesc : List Byte) (slot : Bool) : List Hdl :=
  if slot then [(parseFs fdesc).hf]
  else
    let reads := isRed g.d.op || g.d.op = 3 || g.d.op = 4 || (g.d.op = 5 && g.rank = g.d.root)
    let writes := g.d.op ≠ 6 && !(g.d.op = 2 && g.d.shard && g.rank ≠ g.d.root) && !isGrad s g.d.dst
    (if reads then [g.d.src] else []) ++ (if writes then [g.d.dst] else [])

/-- A reduction into the gradient of shards begins: their gradient and version slots are asked for (level 2 of R214). -/
def wantShards (s : State) (h : Hdl) : State :=
  foldS (fun s (p : Nat × Shard) => if (parseSh p.2.desc).hg = h then wantShard s p.2 else s) s s.upd.shards

/-- Start a collective: sources read, its own nodes formed, packets sent, and packets that came early taken in. -/
def startColl (s : State) (b c : Nat) (d : List Byte) (grp : Group) : State :=
  let g := parseColl d
  let x := freshColl s b d grp
  let s := modChan s b c fun y => { y with queue := y.queue.tail, active := y.active ++ [x] }
  let s := modLsh s fun l => { l with live := mset l.live (65536 * b + g.group) { grp with cseq := grp.cseq + 1 } }
  let r : CRef := ⟨b, c, (chanOf s b c).active.length - 1⟩
  let geo := geomOf g grp
  let s := if c = slotChan then slotContribution s r geo d
    else if isRed g.op then ownContribution s r geo g.src else ownMovement s r geo g.src
  let s := pumpColl s r
  let mine (p : LshPkt) : Bool := p.berth = b && p.group = g.group && p.cseq = x.cseq && p.step = x.step && p.try_ = x.try_
  let early := s.lsh.early.filter mine
  let s := modLsh s fun l => { l with early := l.early.filter (fun p => !mine p) }
  let s := foldS (fun s p => acceptData s r geo p true) s (early.filter fun p => p.epoch = x.epoch)
  -- data that came before a PERMUTE, or whose packet failed, is asked for again
  let s := if early.any fun p => p.epoch ≠ x.epoch then askMissing s r none
    else foldS (fun s dev => askMissing s r (some dev)) s (fget s.lsh.suspects b)
  let s := if isRed g.op && c ≠ slotChan then wantShards s g.dst else s
  placeCopies b (fget s.lsh.copies b) s

/-- Read a permute map (R298). -/
def permMap (s : State) (d : CollD) : List MapEnt :=
  let r := readH s d.src 0 (24 * d.count)
  if r.2 then []
  else (chunks 24 r.1).map fun e => ⟨fldH e 0, fld e 6 4, fld e 10 4, fldBits e 14 4 16 0, fldH e 18⟩

/-- The staged close group of a berth. -/
def stagedClose (s : State) (b : Nat) : Option Group :=
  (s.lsh.staged.find? fun p => p.1 / 65536 = b && (parseGrp p.2.entry).axis = 4).map (·.2)

/-- PERMUTE starts once its map and what it moves here are resident (R202): the map is read, and the fence begins (R297, R299). A map
that cannot be read sets the step flag and moves nothing (DESIGN CHOICE, log 186). -/
def startPermute (s : State) (b : Nat) (d : List Byte) : State :=
  let x := parseColl d
  let r := residentFor s [x.src]
  if !r.2 then r.1
  else
    let s := r.1
    let l := permMap s x
    let me := (stagedClose s b).map fun g => (parseGrp g.entry).rank
    let hs := (l.flatMap fun e => (if allocated s b e.src then [e.src] else [])
      ++ (if me = some e.rank && allocated s b e.dst then [e.dst] else [])).eraseDups
    let r := residentFor s hs
    if !r.2 then r.1
    else
      let s := if badRange r.1 (addrOf x.src) (24 * x.count) then setFlag (noteRead r.1 x.src 0 (24 * x.count)) b else r.1
      let s := modChan s b 0 fun y => { y with queue := y.queue.tail }
      modPerm s b fun y => { y with phase := 1, desc := d, entries := l, handles := hs, round := 0, waiting := false }

/-- COLLECTIVE_START of a channel's head (R284, R301). -/
def execCollectiveStart (berth channel : Nat) (s : State) : Host.Outcome State Fault Refusal :=
  .next <|
    if !collMayStart s berth channel then s
    else match (chanOf s berth channel).queue with
      | d :: _ =>
        if (parseColl d).op = 7 then startPermute s berth d
        else (match groupOf s berth (parseColl d).group with
          | some g =>
            let r := residentFor s (collUses s (geomOf (parseColl d) g) (d.drop 64) (channel = slotChan))
            if r.2 then startColl r.1 berth channel d g else r.1
          | none => modChan s berth channel fun y => { y with queue := y.queue.tail })
      | [] => s

/-- TRIGGER_TAKE: the oldest trigger of a berth gives a copy of each template of its layer (R283, R304). -/
def execTriggerTake (berth : Nat) (s : State) : Host.Outcome State Fault Refusal :=
  .next <|
    if inReset s 0x14 then s
    else match fget s.shelf.triggers berth with
    | [] => s
    | t :: ts =>
      let ds := (fget s.lsh.templates berth).filter fun d => (parseColl d).layer = t.layer
      if (fget s.lsh.copies berth).length ≥ 1024 then s
      else
        let copy (d : List Byte) : List Byte :=
          let d := d.set 1 (nth d 1 0 &&& 0xFB)
          if (parseColl d).src = 0 then d.take 8 ++ toLe 6 t.handle.toNat ++ d.drop 14 else d
        let taken := { s with shelf := { s.shelf with triggers := fset s.shelf.triggers berth ts } }
        let t := placeCopies berth (fget s.lsh.copies berth ++ ds.map copy) taken
        if (fget t.lsh.copies berth).length > 1024 then s else t

/-! ### Completion (R284, R170) -/

/-- This rank holds the complete reduction in its result. -/
def receives (g : Geom) : Bool := isRed g.d.op && (g.d.op = 1 || !g.d.shard || g.rank = g.d.root)

/-- Take a collective out of its channel. -/
def removeColl (s : State) (r : CRef) : State :=
  modChan s r.b r.c fun x => { x with active := x.active.eraseIdx r.i }

/-- The descriptor of the reduce of a slot's F toward the owner's rank: REDUCE, average, FP32, one shard (R139, DESIGN CHOICE, log 42);
its layer field holds the slot. The slot's own descriptor follows as it stands at the issue (R157). -/
def slotDesc (slot root : Nat) (d : List Byte) : List Byte :=
  let fd := parseFs d
  let n := ((List.range fd.nb).map fun u => fd.e u * fd.e u).sum
  [2, 1] ++ toLe 2 fd.group ++ [0x11, 1] ++ toLe 2 slot ++ toLe 6 fd.hf.toNat ++ zeros 6 ++ toLe 8 n ++ toLe 4 root ++ zeros 32 ++ slice d 0 64

/-- Queue the reduce of a slot. A module that is not the owner takes the owner's rank from `Config.slotOwner`, since R127 gives it
no field for it. -/
def queueSlotReduce (s : State) (b slot : Nat) (d : List Byte) : State :=
  let fd := parseFs d
  match groupOf s b fd.group with
  | none => s
  | some g =>
    let root := if fd.owner then (parseGrp g.entry).rank else Config.slotOwner fd.group slot % (parseGrp g.entry).size
    modChan s b slotChan fun x => { x with queue := x.queue ++ [slotDesc slot root d] }

/-- The averaged F of a finished reduce becomes the Solver's input at the owner (R139). -/
def slotReduced (s : State) (b : Nat) (c : Coll) (g : Geom) : State :=
  let slot := g.d.layer
  if g.rank ≠ g.d.root then s
  else
    let chunk (k i : Nat) : List W32 :=
      match mget c.nodes (nodeKey g.levels 0 (k * g.cmax + i)), mget c.nodes (nodeKey g.levels (g.owner k + 1) (k * g.cmax + i)) with
      | some v, _ => v
      | none, some v => v
      | none, none => []
    let v := (List.range g.shards).flatMap fun k => (List.range (g.chunks k)).flatMap (chunk k)
    let s := modFs s slot fun f => { f with refresh := f.refresh.map fun r => { r with input := some v } }
    slvKick s b

/-- COLLECTIVE_COMPLETE of the oldest collective of a channel (R284). -/
def execCollectiveComplete (berth channel : Nat) (s : State) : Host.Outcome State Fault Refusal :=
  .next <|
    let r : CRef := ⟨berth, channel, 0⟩
    let s := if inReset s 0x14 then s else retryRoots s r
    match collAt s r with
    | none => s
    | some c => match collGeom s berth c with
      | none => s
      | some g =>
        if !collDone g c || inReset s 0x14 then s
        else
          let s := modChan (removeColl s r) berth channel fun x => { x with past := x.past ++ [c] }
          let s := ackAll s berth
          if channel = slotChan then slotReduced s berth c g
          else
          let s := foldS touch s [c.src, g.d.dst]
          let s := if receives g then reductionInto s g.d.dst else s
          let s := if g.d.sigEn then bumpSlot s berth g.d.sigSlot 1 else s
          let s := if g.d.event then event s berth 0x0003 stOK g.d.seq (toBe 2 g.d.group) else s
          placeCopies berth (fget s.lsh.copies berth) s

/-! ### Failure (R302, R588) -/

/-- Halt a berth's stream for Longshore: no error code, an event of its own origin. -/
def haltFor (s : State) (b : Nat) (seq : W32) (data : List Byte) : State :=
  event { s with shelf := { s.shelf with halted := fset s.shelf.halted b true } } b 0x0002 stFAULT seq data

/-- Halt every channel of a berth. -/
def haltChannels (s : State) (b : Nat) : State :=
  foldS (fun s c => modChan s b c fun x => { x with halted := true }) s (List.range 16)

/-- What the end of a collective with DEVICE_FAULT does (R302): the flag, the record with the lowest missing rank, the halts, the
event. -/
def failNamed (s : State) (b group low cause : Nat) (seq : W32) : State :=
  let s := wrs (wrOr (setFlag s b) LSH_IRQ_STAT_timeout 1) [(LSH_ERR_group, group), (LSH_ERR_cause, cause), (LSH_ERR_berth, b)]
  let s := modLsh s fun l => { l with failRank := BitVec.ofNat 32 low, failTick := s.lh.tick }
  let s := event s b 0x0004 stFAULT seq (toBe 2 group ++ toBe 4 low)
  haltFor (haltChannels s b) b seq (toBe 1 3 ++ toBe 1 cause ++ toBe 2 group ++ toBe 4 low)

/-- Lowest of some ranks; 0 when there is none. -/
def lowest : List Nat → Nat
  | [] => 0
  | q :: qs => qs.foldl min q

/-- A collective in progress fails: cause 0x1 timeout, 0x3 missing source (R302). -/
def failColl (s : State) (r : CRef) (c : Coll) (g : Geom) (cause : Nat) : State :=
  ackAll (failNamed (removeColl s r) r.b g.d.group (lowest ((missingParts g c).map fun m => m.2.2.2)) cause g.d.seq) r.b

/-- COLLECTIVE_TIMEOUT of a channel: its oldest collective that has sent everything and has received nothing for the group's
timeout fails (R302). -/
def execCollectiveTimeout (berth channel : Nat) (s : State) : Host.Outcome State Fault Refusal :=
  .next <|
    let late (c : Coll) : Bool :=
      match collGeom s berth c with
      | some g => c.toSend.isEmpty && !collDone g c && (match groupOf s berth g.d.group with
        | some e => since s c.since ≥ groupTmo s (parseGrp e.entry)
        | none => false)
      | none => false
    match (chanOf s berth channel).active.findIdx? late with
    | none => s
    | some i =>
      let r : CRef := ⟨berth, channel, i⟩
      match collAt s r with
      | none => s
      | some c => match collGeom s berth c with
        | some g => failColl s r c g 1
        | none => s

/-! ### PERMUTE (R297–R300) -/

/-- Packets of a page, and the number of the first packet of each entry: entries follow each other over the whole map. -/
def pagePkts : Nat := cdiv pageSize 7168
def entFirst (l : List MapEnt) (i : Nat) : Nat := ((l.take i).map fun e => e.pages * pagePkts).sum

/-- The packet's data of an entry: offset in its run of pages and length. -/
def entPart (k : Nat) : Nat × Nat :=
  let o := k / pagePkts * pageSize + k % pagePkts * 7168
  (o, min 7168 (pageSize - k % pagePkts * 7168))

/-- The entry of a map that a chunk belongs to, with its first chunk. -/
def entOf (l : List MapEnt) (chunk : Nat) : Option (MapEnt × Nat) :=
  (List.range l.length).findSome? fun i =>
    if entFirst l i ≤ chunk && chunk < entFirst l (i + 1) then (l[i]?).map fun e => (e, entFirst l i) else none

/-- A packet of PERMUTE. -/
def permPkt (s : State) (b : Nat) (epoch kind node chunk : Nat) (data : List Byte) : LshPkt :=
  let p := fget s.lsh.permute b
  { src := ownId s, op := 7, kind := kind, nf := flagOf s b, inv := false, retx := false, berth := b
    group := (parseColl p.desc).group, epoch := epoch, level := 0, try_ := tryOf s b, cseq := 0
    step := BitVec.ofNat 32 (fget s.upd.steps b).toNat, node := node, chunk := chunk, aux := 0, crcOk := true, data := data }

/-- This module's rank in the old close group, and the old and the new entries, while a PERMUTE runs. -/
structure PermRole where
  rank : Nat
  old  : Group
  new  : Group
  deriving DecidableEq, Repr

def permRole (s : State) (b : Nat) : Option PermRole :=
  match stagedClose s b, closeGroup s b with
  | some ng, some og => some ⟨(parseGrp og.2.entry).rank, og.2, ng⟩
  | _, _ => none

/-- Send move packets that the window of R287 allows. -/
def pumpPerm (s : State) (b : Nat) : State :=
  if !rdb s LSH_CTL_run then s
  else
    let p := fget s.lsh.permute b
    let w := splitWindow (rd1 s LSH_WINDOW_packets) p.toSend p.unacked
    foldS (fun s (q : Nat × LshPkt) => lshSend s q.1 { q.2 with nf := flagOf s b })
      (modPerm s b fun x => { x with toSend := w.2.1, unacked := w.2.2 }) w.1

/-- One packet's worth of an entry as this module holds it, with an uncorrectable read noted; NaN and infinity set the step flag
(R225, R291). -/
def movePart (s : State) (b fmt : Nat) (e : MapEnt) (k : Nat) : State × List Byte × Bool :=
  let o := entPart k
  let x := readH s e.src (e.first * pageSize + o.1) o.2
  let s := if x.2 then setFlag (noteRead s e.src (e.first * pageSize + o.1) o.2) b else s
  (flagValues s b (bytesFinite fmt x.1), x)

/-- Write a packet's worth of an entry into its destination. -/
def landPart (s : State) (b : Nat) (e : MapEnt) (k : Nat) (bs : List Byte) : State :=
  let w := writeN s e.dst (entPart k).1 bs
  if w.2 then setFlag w.1 b else w.1

/-- Phase 2: every entry whose source this module holds is sent, or copied locally (R298, R299). -/
def permMove (s : State) (b : Nat) : State :=
  let p := fget s.lsh.permute b
  let fmt := (parseColl p.desc).fin
  match permRole s b with
  | none => s
  | some role =>
    let me := (parseGrp role.new.entry).rank
    let epoch := (parseGrp role.new.entry).epoch
    let one (s : State) (i : Nat) : State :=
      match p.entries[i]? with
      | none => s
      | some e =>
        if !allocated s b e.src then s
        else foldS (fun s k =>
          let x := movePart s b fmt e k
          if e.rank = me then landPart x.1 b e k x.2.1
          else
            let q := { permPkt x.1 b epoch 0 role.rank (entFirst p.entries i + k) x.2.1 with inv := x.2.2 }
            modPerm x.1 b fun y => { y with moveSent := y.moveSent + 1, toSend := y.toSend ++ [(nth role.new.members e.rank 0, q)] })
          s (List.range (e.pages * pagePkts))
    pumpPerm (foldS one s (List.range p.entries.length)) b

/-- The destination of a map entry that brings a handle's object, from its start, to this module (R300). The map names a source by the
handle that it has on its own module, taken as the same handle on every member (DEDUCED, log 187). -/
def movedTo (l : List MapEnt) (me : Nat) (h : Hdl) : Option Hdl :=
  (l.find? fun e => e.rank = me && e.src = h && e.first = 0).map (·.dst)

/-- A collective in progress is carried over into its group's new entry (R300). A rank that stays goes on, its packets sent to the
modules that now hold their ranks. A rank that is new to this module takes the source that the map moved here, and forms and sends
its contribution again; without it the collective fails. -/
def carryOne (l : List MapEnt) (me : Nat) (old : NMap Group) (s : State) (r : CRef) : State :=
  match collAt s r with
  | none => s
  | some x =>
    let d := parseColl x.desc
    match mget old (65536 * r.b + d.group), groupOf s r.b d.group with
    | some og, some ng =>
      let o := geomOf d og
      let g := geomOf d ng
      let epoch := (parseGrp ng.entry).epoch
      let remap (q : Nat × LshPkt) : Nat × LshPkt := (match o.rankOf q.1 with
        | some k => g.dev k
        | none => q.1, { q.2 with epoch := epoch })
      let s := modColl s r fun x => { x with epoch := epoch, since := s.lh.tick, toSend := x.toSend.map remap, unacked := [], granted := [] }
      if g.rank = o.rank then s
      else match movedTo l me d.src with
        | none => if (collUses s g [] false).contains d.src then failColl s r x g 3 else modColl s r fun x => { x with toSend := [], written := [] }
        | some h =>
          let s := modColl s r fun x => { x with src := h, srcRank := g.rank, toSend := [], written := [] }
          if isRed g.d.op then ownContribution s r g h else ownMovement s r g h
    | _, _ => s

/-- Carried-over collectives ask the new holders for what they lack (R300). -/
def carryOver (s : State) (b : Nat) (l : List MapEnt) (old : NMap Group) : State :=
  let me := match closeGroup s b with
    | some g => (parseGrp g.2.entry).rank
    | none => 0
  foldS (fun s c => foldS (fun s i =>
    let r : CRef := ⟨b, c, i⟩
    let s := carryOne l me old s r
    pumpColl (askMissing s r none) r) s (List.range (chanOf s b c).active.length).reverse) s allChans

/-- Phase 3: staged entries become live, old ones go; PERMUTE completes (R299). A group goes on with its collective numbers, so that no
new collective of the step takes the name of one that is carried over. -/
def permInstall (s : State) (b : Nat) : State :=
  let p := fget s.lsh.permute b
  let d := parseColl p.desc
  let old := s.lsh.live.filter fun q => q.1 / 65536 = b
  let number (q : Nat × Group) : Group := { q.2 with cseq := ((mget old q.1).map (·.cseq)).getD 0 }
  let s := modLsh s fun l => { l with
    live := (l.staged.filter fun q => q.1 / 65536 = b).foldl (fun m q => mset m q.1 (number q)) (mfilter l.live fun k _ => k / 65536 ≠ b)
    staged := mfilter l.staged fun k _ => k / 65536 ≠ b
    permute := fset l.permute b Permute.none }
  let s := wrOr s LSH_IRQ_STAT_permute_done 1
  let s := carryOver s b p.entries old
  let s := if d.sigEn then bumpSlot s b d.sigSlot 1 else s
  if d.event then event s b 0x0003 stOK d.seq (toBe 2 d.group) else s

/-! The COUNT rounds of R299: the two sums go up the tree of R79 by rank, the member of rank 0 tells the totals to all. The data of a
COUNT packet is the model's: the sums, 8 bytes each, and the phase (DESIGN CHOICE, log 188). -/

/-- Key of a tree node's sums. -/
def countKey (phase round level node : Nat) : Nat := ((phase * 2 ^ 32 + round) * 32 + level) * 2 ^ 18 + node

/-- Keep a node's sums. -/
def putSum (s : State) (b key : Nat) (v : W64 × W64) : State := modPerm s b fun x => { x with got := mset x.got key v }

/-- Send a node's sums to a rank of the old close group. -/
def sendSum (s : State) (b : Nat) (role : PermRole) (rank phase round level node : Nat) (v : W64 × W64) : State :=
  lshSend s (nth role.old.members rank 0)
    { permPkt s b (parseGrp role.old.entry).epoch 5 node round (toLe 8 v.1.toNat ++ toLe 8 v.2.toNat ++ toLe 1 phase) with level := level }

/-- The totals of the round in hand are known: equal ones end the phase (R299). -/
def totalIn (s : State) (b : Nat) (v : W64 × W64) : State :=
  let s := modPerm s b fun x => { x with waiting := false }
  if v.1 ≠ v.2 then s
  else if (fget s.lsh.permute b).phase = 1 then permMove (modPerm s b fun x => { x with phase := 2, round := 0 }) b
  else permInstall s b

/-- This member's node at a level of the tree of the round in hand: sent to the rank that forms its parent, combined with its sibling
once that is here, or the totals; fuel is the levels left. -/
def climb : Nat → State → Nat → PermRole → Nat → Nat → W64 × W64 → State
  | 0, s, _, _, _, _, _ => s
  | k + 1, s, b, role, level, node, v =>
    let p := fget s.lsh.permute b
    let size := (parseGrp role.old.entry).size
    let s := putSum s b (countKey p.phase p.round level node) v
    if level ≥ clog2 size then
      totalIn (foldS (fun s q => sendSum s b role (q + 1) p.phase p.round level node v) s (List.range (size - 1))) b v
    else if node % 2 = 1 then sendSum s b role ((node - 1) * 2 ^ level) p.phase p.round level node v
    else if (node + 1) * 2 ^ level ≥ size then climb k s b role (level + 1) (node / 2) v
    else match mget p.got (countKey p.phase p.round level (node + 1)) with
      | some w => climb k s b role (level + 1) (node / 2) (v.1 + w.1, v.2 + w.2)
      | none => s

/-- Climb from this member's own sums of the round in hand. -/
def climbOwn (s : State) (b : Nat) (role : PermRole) : State :=
  let p := fget s.lsh.permute b
  match mget p.got (countKey p.phase p.round 0 role.rank) with
  | some v => climb 19 s b role 0 role.rank v
  | none => s

/-- COUNT_ROUND of a berth, once per tick while a fence or a move runs: a new round of sums, or what the round in hand has not had
answered again (R299). -/
def execCountRound (berth : Nat) (s : State) : Host.Outcome State Fault Refusal :=
  .next <|
    let p := fget s.lsh.permute berth
    match permRole s berth with
    | none => s
    | some role =>
      if p.phase = 0 || inReset s 0x14 || !rdb s LSH_CTL_run then s
      else if p.waiting then climbOwn s berth role
      else
        let own := if p.phase = 1 then (p.sent, p.accepted) else (p.moveSent, p.moveAcc)
        let s := modPerm s berth fun x => { x with
          round := p.round + 1, waiting := true, got := mset x.got (countKey p.phase (p.round + 1) 0 role.rank) own }
        climbOwn s berth role

/-- COUNT_RECEIVE: a member's sums of a round, or its totals. A sum of a round whose totals are known here is answered with them. -/
def execCountReceive (p : LshPkt) (s : State) : Host.Outcome State Fault Refusal :=
  .next <|
    if inReset s 0x14 then s
    else if !p.crcOk then count (wrOr s LSH_IRQ_STAT_crc 1) 0x1723 1
    else match closeGroup s p.berth with
      | none => staleDrop s
      | some g =>
        let b := p.berth
        let e := parseGrp g.2.entry
        let phase := fld p.data 16 1
        let x := fget s.lsh.permute b
        if p.epoch ≠ e.epoch || phase = 0 || phase < x.phase || p.step.toNat ≠ (fget s.upd.steps b).toNat % 2 ^ 32 || p.try_ ≠ tryOf s b then
          staleDrop s
        else
          let s := if p.nf then setFlag s b else s
          let v := (BitVec.ofNat 64 (fld p.data 0 8), BitVec.ofNat 64 (fld p.data 8 8))
          let top := clog2 e.size
          let s := putSum s b (countKey phase p.chunk p.level p.node) v
          match permRole s b with
          | none => s
          | some role =>
            if p.level ≥ top then
              if x.waiting && x.phase = phase && x.round = p.chunk then totalIn s b v else s
            else match mget x.got (countKey phase p.chunk top 0), role.old.members.findIdx? (· = p.src) with
              | some w, some q => sendSum s b role q phase p.chunk top 0 w
              | _, _ => if x.waiting && x.phase = phase && x.round = p.chunk then climbOwn s b role else s

/-- A page's data arrives for a move (R286, R287, R298, R299). -/
def permData (s : State) (p : LshPkt) (role : PermRole) : State :=
  let b := p.berth
  let x := fget s.lsh.permute b
  match entOf x.entries p.chunk with
  | none => staleDrop s
  | some (e, first) =>
    if e.rank ≠ (parseGrp role.new.entry).rank then staleDrop s
    else if (p.node, p.chunk) ∈ x.seen then count s 0x1721 1
    else
      let k := p.chunk - first
      let s := count s (0x1710 + b) p.data.length
      let s := if p.inv || !bytesFinite (parseColl x.desc).fin p.data then setFlag s b else s
      let s := landPart s b e k p.data
      let n := mgetD x.granted p.src 0 + 1
      let ack := n ≥ 16 || k + 1 = e.pages * pagePkts
      let s := modPerm s b fun y => { y with
        moveAcc := y.moveAcc + 1, seen := (p.node, p.chunk) :: y.seen, granted := mset y.granted p.src (if ack then 0 else n) }
      if ack then lshSend s p.src { permPkt s b p.epoch 1 0 0 [] with aux := n } else s

/-- A packet of a move belongs to the new epoch, and to the berth's present step and try (R286, R299). -/
def permCurrent (s : State) (p : LshPkt) : Option PermRole :=
  match permRole s p.berth with
  | some role =>
    if (fget s.lsh.permute p.berth).phase ≥ 1 && p.epoch = (parseGrp role.new.entry).epoch
        && p.step.toNat = (fget s.upd.steps p.berth).toNat % 2 ^ 32 && p.try_ = tryOf s p.berth then some role else none
  | none => none

/-- What a move still lacks is asked for again of a device (R286): the packets for this module that it has not sent. -/
def askMove (s : State) (b dev : Nat) : State :=
  match permRole s b with
  | none => s
  | some role =>
    let x := fget s.lsh.permute b
    match role.old.members.findIdx? (· = dev) with
    | none => s
    | some q =>
      if x.phase < 2 then s
      else foldS (fun s i => match x.entries[i]? with
        | none => s
        | some e =>
          if e.rank ≠ (parseGrp role.new.entry).rank || e.rank = q then s
          else foldS (fun s k =>
            let c := entFirst x.entries i + k
            if (q, c) ∈ x.seen then s
            else sendReq s dev (permPkt s b (parseGrp role.new.entry).epoch 2 q c [])) s (List.range (e.pages * pagePkts)))
        s (List.range x.entries.length)

/-! ### Packets that arrive (R286, R287, R300) -/

/-- A packet has failed its dcrc: it is discarded and counted, and completion accounting asks its device again for what the berths'
collectives and moves lack of it; one that starts later asks then (R286). -/
def crcFailed (s : State) (dev : Nat) : State :=
  let s := count (wrOr s LSH_IRQ_STAT_crc 1) 0x1723 1
  foldS (fun s b =>
    let s := modLsh s fun l => { l with suspects := fmod l.suspects b fun ds => if dev ∈ ds then ds else dev :: ds }
    let s := foldS (fun s c => foldS (fun s i => askMissing s ⟨b, c, i⟩ (some dev)) s (List.range (chanOf s b c).active.length)) s allChans
    askMove s b dev) s berths

/-- COLLECTIVE_DATA_RECEIVE (R286, R288, R291). -/
def execCollectiveDataReceive (p : LshPkt) (s : State) : Host.Outcome State Fault Refusal :=
  .next <|
    if inReset s 0x14 then s
    else if !p.crcOk then crcFailed s p.src
    else if p.op = 7 then
      (match permCurrent s p with
        | some role => permData (if p.nf then setFlag s p.berth else s) p role
        | none => staleDrop s)
    else if !current s p then staleDrop s
    else
      let s := if p.nf then setFlag s p.berth else s
      match findColl s p with
      | some r => (match (collAt s r).bind (collGeom s p.berth) with
        | some g => acceptData s r g p false
        | none => s)
      | none =>
        let started := match groupOf s p.berth p.group with
          | some g => p.cseq < g.cseq
          | none => true
        if started || s.lsh.early.any (fun q => q.src = p.src && q.group = p.group && q.cseq = p.cseq && q.berth = p.berth
            && q.level = p.level && q.node = p.node && q.chunk = p.chunk) then count s 0x1721 1
        else modLsh (noteAccept s p) fun l => { l with early := l.early ++ [p] }

/-- COLLECTIVE_ACK_RECEIVE: packets acknowledged, the window granted again (R287). -/
def execCollectiveAckReceive (p : LshPkt) (s : State) : Host.Outcome State Fault Refusal :=
  .next <|
    if inReset s 0x14 then s
    else if !p.crcOk then count (wrOr s LSH_IRQ_STAT_crc 1) 0x1723 1
    else if p.op = 7 then
      (if (permCurrent s p).isNone then staleDrop s
        else
          let s := if p.nf then setFlag s p.berth else s
          pumpPerm (modPerm s p.berth fun x => { x with unacked := mset x.unacked p.src (mgetD x.unacked p.src 0 - p.aux) }) p.berth)
    else if !current s p then staleDrop s
    else
      let s := if p.nf then setFlag s p.berth else s
      match findColl s p with
      | some r =>
        let s := modColl s r fun c => { c with since := s.lh.tick, unacked := mset c.unacked p.src (mgetD c.unacked p.src 0 - p.aux) }
        pumpColl s r
      | none => s

/-- The data of a node or part that this module holds or can rebuild, and whether it is invalid (R300). -/
def rebuild (s : State) (b : Nat) (g : Geom) (c : Coll) (p : LshPkt) : Option (List Byte × Bool) :=
  let own := p.level = 0 && p.node = c.srcRank && allocated s b c.src
  if !isRed g.d.op then
    if g.d.op = 6 then (if p.node = g.rank then some ([], false) else none)
    else if !own then none
    else
      let a := (if g.d.op = 4 then (match g.rankOf p.src with
        | some q => q * g.part
        | none => 0) else 0) + p.chunk * 7168
      some (readH s c.src a (min 7168 (g.part - p.chunk * 7168)))
  else
    -- the shard and chunk as the requester counts them
    let q := (g.rankOf p.src).getD 0
    let u := ({ g with rank := q } : Geom).unwire p.level g.rank p.chunk
    let gc := u.1 * g.cmax + u.2
    let bytes (v : List W32 × Bool) : List Byte × Bool := (wordBytes v.1, v.2)
    if p.level ≥ g.levels then (heldNode c (nodeKey g.levels 0 gc)).map bytes
    else match heldNode c (nodeKey p.level p.node gc) with
      | some v => some (bytes v)
      | none =>
        if own then
          let a := g.start u.1 + u.2 * chunkElems
          let e := esz g.d.fin
          let m := min chunkElems (g.len u.1 - u.2 * chunkElems)
          let raw := readH s c.src (a * e) (m * e)
          some (wordBytes ((chunks e raw.1).map fun w => widen g.d.fin (leNat w)), raw.2)
        else if p.level = 0 then none
        else
          let l := heldNode c (nodeKey (p.level - 1) (2 * p.node) gc)
          let h := heldNode c (nodeKey (p.level - 1) (2 * p.node + 1) gc)
          match l, h with
          | some x, some y => some (wordBytes (List.zipWith (redOp g.d.red) x.1 y.1), x.2 || y.2)
          | some x, none => if (2 * p.node + 1) * 2 ^ (p.level - 1) ≥ g.size then some (bytes x) else none
          | none, _ => none

/-- The record of a collective of the step that has completed here, by the name in a packet. -/
def findPast (s : State) (p : LshPkt) : Option Coll :=
  allChans.findSome? fun c => (chanOf s p.berth c).past.find? fun x =>
    (parseColl x.desc).group = p.group && x.cseq = p.cseq && x.step = p.step && x.try_ = p.try_

/-- Answer a REQ from a collective's record: the data with retx set. A level-0 node or a part whose source this module lacks is missing
(none); a node that is not formed yet is sent once it is. -/
def answerReq (s : State) (g : Geom) (c : Coll) (p : LshPkt) : Option State :=
  match rebuild s p.berth g c p with
  | some x => some (lshSend s p.src { collPkt s p.berth c 0 p.level p.node p.chunk 0 x.2 true x.1 with epoch := p.epoch })
  | none => if p.level = 0 && (isRed g.d.op || g.d.op ≠ 6) then none else some s

/-- A REQ for move data: the packet's worth of the entry again, with retx set. -/
def answerMove (s : State) (p : LshPkt) (role : PermRole) : State :=
  let x := fget s.lsh.permute p.berth
  match entOf x.entries p.chunk with
  | none => s
  | some (e, first) =>
    if !allocated s p.berth e.src || p.node ≠ role.rank then s
    else
      let y := movePart s p.berth (parseColl x.desc).fin e (p.chunk - first)
      lshSend y.1 p.src { permPkt y.1 p.berth p.epoch 0 role.rank p.chunk y.2.1 with inv := y.2.2, retx := true }

/-- COLLECTIVE_REQ_RECEIVE: the data is rebuilt and sent with retx set; a missing source fails the collective (R300, R302). -/
def execCollectiveReqReceive (p : LshPkt) (s : State) : Host.Outcome State Fault Refusal :=
  .next <|
    if inReset s 0x14 then s
    else if !p.crcOk then count (wrOr s LSH_IRQ_STAT_crc 1) 0x1723 1
    else if p.op = 7 then
      (match permCurrent s p with
        | some role => answerMove (if p.nf then setFlag s p.berth else s) p role
        | none => staleDrop s)
    else if !current s p then staleDrop s
    else
      let s := if p.nf then setFlag s p.berth else s
      match findColl s p, findPast s p with
      | some r, _ => (match collAt s r with
        | none => s
        | some c => match collGeom s p.berth c with
          | none => s
          | some g => (match answerReq s g c p with
            | some t => t
            | none => failColl s r c g 3))
      | none, some c => (match collGeom s p.berth c with
        | none => s
        | some g => (match answerReq s g c p with
          | some t => t
          | none => failNamed s p.berth g.d.group g.rank 3 g.d.seq))
      | none, none =>
        let started : Bool := match groupOf s p.berth p.group with
          | some g => p.cseq < g.cseq
          | none => false
        if started then failNamed s p.berth p.group (((groupOf s p.berth p.group).map fun g => (parseGrp g.entry).rank).getD 0) 3 0 else s

end Sys2Proof.Machine
end

