-- ==== Sys2Proof/Machine/Boundary.lean ====
section
/-!
DEFINITION. The step boundary (R25, R26, R190–R195) and the close wave that decides it (R291–R295). The commands of the wave stand
here; STEP_BOUNDARY itself stands with Offshore, whose round work runs between rows 4 and 5 of R191.
-/
namespace Sys2Proof.Machine
open Sys2Proof

/-! ### The conditions of R190 -/

/-- A reduction of the step is queued, waits as a copy or as a trigger, runs, or was lost to a reset (R190, R307). -/
def reductionsLeft (s : State) (b : Nat) : Bool :=
  let red (d : List Byte) : Bool := isRed (parseColl d).op
  fget s.lsh.lost b
  || allChans.any (fun c => (chanOf s b c).queue.any red || (chanOf s b c).active.any fun x => isRed x.op)
  || (fget s.lsh.copies b).any red
  || (fget s.shelf.triggers b).any fun t => (fget s.lsh.templates b).any fun d => red d && (parseColl d).layer = t.layer

/-- An owned update has yet to end (R190). -/
def updatesLeft (s : State) (b : Nat) : Bool := !(readyShards s b).isEmpty || s.upd.updates.any fun x => x.berth = b

/-- Every condition of R190 but the decision. -/
def boundaryMet (s : State) (b : Nat) : Bool :=
  rd s (UPD_TRIG_triggers.at b) ≠ 0 && rd s (UPD_TRIG_triggers.at b) ≤ fget s.shelf.posted b && !reductionsLeft s b
    && !updatesLeft s b && !roundOpen s b && !fget s.shelf.undecided b && !inReset s 0x3F

/-- The close wave is not needed: no close group, or one of diameter 0 (R292). -/
def waveless (s : State) (b : Nat) : Bool :=
  match closeGroup s b with
  | some g => g.2.diam = 0
  | none => true

/-- The decision when it is known: some true to skip (R25, R292). -/
def decision (s : State) (b : Nat) : Option Bool :=
  if !boundaryMet s b then none
  else if waveless s b then some (flagOf s b)
  else if (fget s.lsh.close b).decided then some (fget s.lsh.close b).skip
  else none

/-! ### The close wave (R291–R295) -/

/-- Send a round's FLAG packet to every close neighbour. -/
def sendFlags (s : State) (b : Nat) (n : Nat) (g : Group) (round : Nat) : State :=
  let p : LshPkt :=
    { src := ownId s, op := 0, kind := 4, nf := flagOf s b, inv := false, retx := false, berth := b, group := n
      epoch := (parseGrp g.entry).epoch, level := 0, try_ := tryOf s b, cseq := 0
      step := BitVec.ofNat 32 (fget s.upd.steps b).toNat, node := 0, chunk := 0, aux := round, crcOk := true, data := [] }
  foldS (fun s d => lshSend s d p) s g.close

/-- Rounds that are complete are closed: their flags ORed in, the next one sent, or the decision made. Fuel bounds the rounds. -/
def advanceWave : Nat → State → Nat → Nat → Group → State
  | 0, s, _, _, _ => s
  | k + 1, s, b, n, g =>
    let c := fget s.lsh.close b
    let r := c.round + 1
    let of_ (d : Nat) := c.got.find? fun x => x.1 = r && x.2.1 = d
    if !c.running || !rdb s LSH_CTL_run || !(g.close.all fun d => (of_ d).isSome) then s
    else
      let s := if c.got.any fun x => x.1 = r && x.2.2 then setFlag s b else s
      let s := modClose s b fun c => { c with round := r, start := s.lh.tick }
      if r < g.diam then advanceWave k (sendFlags s b n g (r + 1)) b n g
      else modClose s b fun c => { c with running := false, decided := true, skip := c.flag }

/-- Round 1 is sent under a fresh timeout. -/
def startWave (s : State) (b : Nat) : State :=
  match closeGroup s b with
  | none => s
  | some (n, g) =>
    if g.diam = 0 || !rdb s LSH_CTL_run || inReset s 0x14 then s
    else
      let s := modClose s b fun c => { c with running := true, decided := false, round := 0, start := s.lh.tick }
      advanceWave (g.diam + 1) (sendFlags s b n g 1) b n g

/-- CLOSE_WAVE_START of a berth that has met every other condition (R292). -/
def execCloseWaveStart (berth : Nat) (s : State) : Host.Outcome State Fault Refusal :=
  .next <|
    let c := fget s.lsh.close berth
    if boundaryMet s berth && !waveless s berth && !c.running && !c.decided then startWave s berth else s

/-- FLAG_RECEIVE (R291, R292): the flag is ORed in, and a complete round leads on. -/
def execFlagReceive (p : LshPkt) (s : State) : Host.Outcome State Fault Refusal :=
  .next <|
    if inReset s 0x14 then s
    else if !p.crcOk then count (wrOr s LSH_IRQ_STAT_crc 1) 0x1723 1
    else match closeGroup s p.berth with
      | none => staleDrop s
      | some (n, g) =>
        if p.group ≠ n || !current s p then staleDrop s
        else
          let s := if p.nf then setFlag s p.berth else s
          let s := modClose s p.berth fun c =>
            { c with got := c.got.filter (fun x => !(x.1 = p.aux && x.2.1 = p.src)) ++ [(p.aux, p.src, p.nf)] }
          advanceWave (g.diam + 1) s p.berth n g

/-- Close neighbours whose flag of the present round is missing, in ascending order. -/
def silent (c : Close) (g : Group) : List Nat :=
  sortBy id (g.close.filter fun d => !(c.got.any fun x => x.1 = c.round + 1 && x.2.1 = d))

/-- CLOSE_WAVE_TIMEOUT: the berth halts with its step undecided (R294, R588). -/
def execCloseWaveTimeout (berth : Nat) (s : State) : Host.Outcome State Fault Refusal :=
  .next <|
    match closeGroup s berth with
    | none => s
    | some (n, g) =>
      let c := fget s.lsh.close berth
      if !c.running || since s c.start < groupTmo s (parseGrp g.entry) then s
      else
        let miss := silent c g
        let s := modClose s berth fun c => { c with running := false }
        let s := { s with shelf := { s.shelf with undecided := fset s.shelf.undecided berth true } }
        let s := wrs (wrOr s LSH_IRQ_STAT_close_tmo 1) [(LSH_ERR_group, n), (LSH_ERR_cause, 2), (LSH_ERR_berth, berth)]
        let low := lowest (miss.filterMap fun d => g.members.findIdx? (· = d))
        let s := modLsh s fun l => { l with failRank := BitVec.ofNat 32 low, failTick := s.lh.tick }
        haltFor s berth 0 (toBe 1 2 ++ toBe 1 miss.length ++ zeros 2 ++ miss.flatMap (toBe 4 ·))

/-! ### The rows of R191 -/

/-- Row 2: one shard's commit word, by the pending header alone. -/
def flipShard (b : Nat) (n : W64) (s : State) (p : Nat × Shard) : State :=
  if p.2.berth ≠ b then s
  else
    let bad := (readH s (pendH p.2) 0 16).2
    let h := getHeader s p.2
    let s := noteRead s (pendH p.2) 0 16
    if bad || h.1 ≠ n.toNat then s
    else if h.2 = hdCOMPLETE then
      modShard s p.1 fun x => { x with live := 1 - x.live, heldLast := false, stepLo := BitVec.ofNat 32 n.toNat }
    else if h.2 = hdHELD then modShard s p.1 fun x => { x with heldLast := true }
    else s

/-- Row 1 of a skip: the pending header of the step becomes ABANDONED. -/
def abandonShard (b : Nat) (n : W64) (s : State) (p : Nat × Shard) : State :=
  if p.2.berth = b && (getHeader s p.2).1 = n.toNat then (putHeader s p.2 n hdABANDONED).1 else s

/-- What ends with the step: shards take their next descriptor and may update again, the trigger record, the close wave and the
collective numbers start again (R115, R170, R195, R286). -/
def closeStep (s : State) (b : Nat) : State :=
  let s := modUpd s fun u => { u with
    shards := u.shards.map fun p =>
      if p.2.berth = b then (p.1, { p.2 with desc := p.2.next.getD p.2.desc, next := none, reduced := 0, started := false }) else p
    updates := u.updates.filter (fun x => x.berth ≠ b) }
  let s := { s with shelf := { s.shelf with triggered := fset s.shelf.triggered b [], posted := fset s.shelf.posted b 0 } }
  let s := foldS (fun s c => modChan s b c fun x => { x with past := [] }) s (allChans.filter fun c => !(chanOf s b c).past.isEmpty)
  modLsh s fun l => { l with
    close := fset l.close b Close.none, lost := fset l.lost b false
    early := l.early.filter (fun p => p.berth ≠ b), suspects := fset l.suspects b []
    live := l.live.map fun p => if p.1 / 65536 = b then (p.1, { p.2 with cseq := 0 }) else p
    permute := fmod l.permute b fun x => if x.phase = 0 then { x with sent := 0, accepted := 0 } else x }

/-- A skip abandons the step's triggers and collectives (R117, R303). -/
def abandonStep (s : State) (b : Nat) : State :=
  let s := { s with shelf := { s.shelf with triggers := fset s.shelf.triggers b [] } }
  let s := foldS (fun s c => modChan s b c fun x => { x with queue := [], active := [] }) s allChans
  modLsh s fun l => { l with copies := fset l.copies b [] }

/-- Rows 1 to 4 of a committing boundary. -/
def commitRows (s : State) (b : Nat) : State :=
  let n := fget s.upd.steps b
  let s := modUpd s fun u => { u with commits := fset u.commits b n }
  let s := foldS (flipShard b n) s s.upd.shards
  let s := modUpd s fun u => { u with skips := fset u.skips b 0, steps := fset u.steps b (n + 1) }
  queueMerges (closeStep s b) b n

/-- The pause of R194 when the count reaches the limit. -/
def skipLimit (s : State) (b : Nat) : State :=
  let k := fget s.upd.skips b
  if rd s UPD_SKIP_LIMIT_limit ≠ 0 && k = rd s UPD_SKIP_LIMIT_limit then
    let s := modUpd s fun u => { u with paused := fset u.paused b true }
    let s := wrOr (wr s (SHF_BERTH_CTL_pause.at b) 1) UPD_IRQ_STAT_skip_limit 1
    event s b 0x0006 stOK 0 (toBe 1 k)
  else s

/-- Rows 1 to 4 of a skipped step. -/
def skipRows (s : State) (b : Nat) : State :=
  let n := fget s.upd.steps b
  let s := foldS (abandonShard b n) s s.upd.shards
  let s := modUpd s fun u => { u with skips := fmod u.skips b (· + 1), skipTotal := fmod u.skipTotal b (· + 1) }
  let s := skipLimit (wrOr s UPD_IRQ_STAT_skip 1) b
  discardCov (closeStep (abandonStep s b) b) b n

/-- The refresh interval N for the step: max(N, L + 1); none while channel 63 is disabled (R138, R189). -/
def refreshEvery (s : State) (b : Nat) : Option Nat :=
  match mget s.upd.chans (64 * b + 63) with
  | none => none
  | some ch =>
    if (parseCh ch.desc).enabled then
      some (max (match ch.value with
        | some v => v.toNat
        | none => 1) (rd1 s SLV_LAG_lag + 1))
    else none

/-- Issue the refresh of one slot, or send its F toward the owner (R138, R139). -/
def refreshSlot (b : Nat) (n : W64) (s : State) (p : Nat × FSlot) : State :=
  match p.2.desc with
  | none => s
  | some d =>
    let fd := parseFs d
    if p.2.berth ≠ b || fd.op = 0 || p.2.lastRef = some n || p.2.refresh.isSome || (!fd.owner && fd.group = 0) then s
    else
      let s := if fd.owner then issueRefresh s b p.1 n (fd.group ≠ 0)
        else modFs s p.1 fun f => { f with lastRef := some n }
      if fd.group ≠ 0 then queueSlotReduce s b p.1 d else s

/-- Row 5: the Almanac, refreshes issued and flipped, held fetches served. -/
def rowFive (s : State) (b : Nat) : State :=
  let s := almEval s b
  let n := fget s.upd.steps b
  let s := foldS (fun s (p : Nat × FSlot) => if p.2.berth = b then flipIfDue s p.1 else s) s s.snd.slots
  let s := match refreshEvery s b with
    | some k => if n.toNat % k = 0 then foldS (refreshSlot b n) s s.snd.slots else s
    | none => s
  serveDue (slvKick s b) b

end Sys2Proof.Machine
end

