-- ==== Sys2Proof/Machine/Cliff.lean ====
section
/-!
DEFINITION. The Cliff ports (R241–R276): training, replay and credits, transit, degraded ports, the coordinate walk and the tick.
-/
namespace Sys2Proof.Machine
open Sys2Proof

/-! ### Port states (R248, R267, R268) -/

/-- Coordinates are assigned (R258). -/
def discovered (s : State) : Bool := rdb s CLF_COORD_valid

/-- The port may train: present, enabled, awake and out of reset. -/
def mayTrain (s : State) (n : Nat) : Bool :=
  portPresent s.variant n && rdb s (CLF_PCTL_enable.at n) && !s.pwr.asleep && !inReset s (8 + n) && !inReset s 0x3F

/-- Give a port a training state, noting the tick. -/
def toState (s : State) (n st : Nat) : State :=
  modPort (wr s (CLF_PSTAT_state.at n) st) n fun p => { p with since := s.lh.tick }

/-- An attempt begins in DETECT. -/
def startAttempt (s : State) (n : Nat) : State := modPort (toState s n 1) n fun p => { p with attempt := s.lh.tick }

/-- The flit goes on a packet whose last flit so far is this one. -/
def follows (x y : OutFlit) : Bool := x.flit.vc = y.flit.vc && x.input = y.input && !x.flit.last && !y.flit.first

/-- Put a flit into the packet that it goes on, or begin a packet with it. -/
def joinPacket (l : List (List OutFlit)) (y : OutFlit) : List (List OutFlit) :=
  let mine (pk : List OutFlit) : Bool := match pk.getLast? with
    | some x => follows x y
    | none => false
  if l.any mine then l.map fun pk => if mine pk then pk ++ [y] else pk else l ++ [[y]]

/-- Packets that a port has not delivered, in the order in which they began: flits of packets acknowledged in part, unacknowledged ones
and waiting ones. Tick flits are link-local and stay behind (R264). -/
def undelivered (p : Port) : List (List OutFlit) :=
  let undo (x : OutFlit) : OutFlit := { x with flit := { x.flit with hops := x.flit.hops - 1 } }
  let l := (p.acked ++ p.replay).map undo ++ p.waiting
  (l.filter fun x => x.flit.vc ≠ 3).foldl joinPacket []

/-- The new route of a packet of a port's direction (R267): the direction's other port, or a detour (R262); port, detour mark, class. -/
def newRoute (s : State) (n : Nat) (f : Flit) : State × Option (Nat × Bool × Nat) :=
  let d := n / 4
  let plus := n % 4 < 2
  if !(dirUp s d plus).isEmpty then
    let r := pickPort s d plus f.vc f.src f.dst
    (r.1, some (r.2, f.detour, f.cls))
  else match sideDirs s d with
    | (e, q) :: _ =>
      let r := pickPort s e q f.vc f.src f.dst
      (r.1, some (r.2, true, 2))
    | [] => (unreachable s, none)

/-- The packet that is coming in on an input and virtual channel goes out by another route from here on. -/
def setRoute (s : State) (i vc : Nat) (out : Option (Nat × Bool × Nat)) : State :=
  match mget (portOf s i).partials vc with
  | none => s
  | some r =>
    let r := match out with
      | some o => { r with out := some o.1, detour := o.2.1, cls := o.2.2 }
      | none => { r with out := none }
    modPort s i fun p => { p with partials := mset p.partials vc r }

/-- Send a packet of a failed port by its new route (R267), with what is still to come of it. -/
def reroute (n : Nat) (s : State) (pk : List OutFlit) : State :=
  match pk, pk.getLast? with
  | x :: _, some z =>
    let r := newRoute s n x.flit
    let s := if z.flit.last || x.input = localInput then r.1 else setRoute r.1 x.input x.flit.vc r.2
    (match r.2 with
      | some (q, det, cls) => enqueueOut s q (pk.map fun x => { x with flit := { x.flit with detour := det, cls := cls } })
      | none => foldS (fun s (x : OutFlit) => match x.buf with
        | some k => freeBuffer s x.input k
        | none => s) s pk)
  | _, _ => s

/-- A port's buffers as at link-up. -/
def clearLink (p : Port) : Port :=
  { p with replay := [], txSeq := 0, rxNext := 0, nakking := false, resends := 0, sent := [], credit := [], freed := []
           waiting := [], wrr := 0, turn := [], partials := [], acked := [], retrain := false }

/-- Flits of an output without those of a packet that is still coming in on an input and virtual channel. -/
def dropOpen (i vc : Nat) : List OutFlit → List OutFlit
  | [] => []
  | x :: l =>
    let same (y : OutFlit) : Bool := y.input = i && y.flit.vc = vc
    if same x && !x.flit.last && !(l.any fun y => same y && y.flit.last) then dropOpen i vc l else x :: dropOpen i vc l

/-- The packet that is coming in on a virtual channel of an input is broken off: what is left of it here is discarded, and its output
serves other packets (R247, R267). -/
def abortRoute (s : State) (n vc : Nat) : State :=
  match mget (portOf s n).partials vc with
  | none => s
  | some r =>
    let s := modPort s n fun p => { p with partials := mdel p.partials vc }
    match r.out with
    | none => s
    | some q =>
      let left := dropOpen n vc (portOf s q).waiting
      let held := ((portOf s q).waiting.filter fun x => !(x ∈ left)).filterMap (·.buf)
      let s := modPort s q fun p => { p with
        waiting := left
        turn := if mget p.turn vc = some (n, true) then mset p.turn vc (n, false) else p.turn }
      pump (foldS (fun s k => freeBuffer s n k) s held) q

/-- Every packet that is coming in on a port is broken off. -/
def abortInput (s : State) (n : Nat) : State := foldS (fun s vc => abortRoute s n vc) s [0, 1, 2]

/-- Whole packets that came in on a port and wait at outputs no longer occupy its receive buffers. -/
def releaseInput (s : State) (n : Nat) : State :=
  foldS (fun s q => modPort s q fun p => { p with waiting := p.waiting.map fun x => if x.input = n then { x with buf := none } else x }) s
    ((List.range 12).filter fun q => (portOf s q).waiting.any fun x => x.input = n)

/-- The receive buffers of a port are discarded, and with them the packets that wait in them for other ports (R268). -/
def discardInput (s : State) (n : Nat) : State :=
  foldS (fun s q => pump (modPort s q fun p => { p with
      waiting := p.waiting.filter fun x => x.input ≠ n
      turn := p.turn.map fun t => if t.2 = (n, true) then (t.1, (n, false)) else t }) q) (abortInput s n)
    ((List.range 12).filter fun q => (portOf s q).waiting.any fun x => x.input = n)

/-- The port's part in REPLACE_REQUEST is raised (R267, R530) once coordinates are assigned. -/
def raisePart (s : State) (n : Nat) : State :=
  if discovered s then raiseReplace (modPort s n fun p => { p with part := true }) 5 else s

/-- The port's part is withdrawn; the cause falls with the last part. -/
def dropPart (s : State) (n : Nat) : State :=
  let had := (portOf s n).part
  let s := modPort s n fun p => { p with part := false }
  if had && !(s.clf.ports.any fun p => p.2.part) then dropReplace s 5 else s

/-- The upstream port of R265: the lowest usable port toward device 0. -/
def upstreamPort (s : State) : Option Nat :=
  match firstDim s 0 with
  | some (d, plus) => (dirUp s d plus).head?
  | none => none

/-- Set the upstream port of a module that has coordinates and is no anchor (R265). -/
def setUpstream (s : State) : State :=
  match upstreamPort s with
  | some p => if discovered s && !rdb s CLF_COORD_anchor then wr s CLF_TICK_upstream p else s
  | none => s

/-- Give a port a state, noting that it left UP (R272). -/
def leaveState (s : State) (n st : Nat) : State :=
  let was := pState s n
  let s := toState s n st
  if was = stUP then wrOr s (CLF_PIRQ_STAT_down.at n) 1 else s

/-- The error log's entry of a port failure (R523, R524): a port that leaves UP, or goes FAILED or MISWIRED (DEDUCED, log 202). -/
def logPortFail (s : State) (n st : Nat) : State :=
  if pState s n = stUP || st ≠ 0 then logError s (8 + n) 0x09 0 (BitVec.ofNat 64 n) 0xFF else s

/-- A port fails into DOWN, FAILED or MISWIRED (R267): its undelivered packets go by the new route. What it had received in part is
broken off; what it had received whole goes on. -/
def portFail (s : State) (n st : Nat) : State :=
  let l := undelivered (portOf s n)
  let s := releaseInput (abortInput (logPortFail s n st) n) n
  let s := leaveState (modPort s n clearLink) n st
  let s := if st = stFAILED then wrOr s (CLF_PIRQ_STAT_failed.at n) 1
    else if st = stMISWIRED then wrOr s (CLF_PIRQ_STAT_miswired.at n) 1 else s
  let s := if st = 0 then wrs s [(CLF_PSTAT_signal.at n, 0), (CLF_PSTAT_reversed.at n, 0)] else s
  foldS (reroute n) (setUpstream (raisePart s n)) l

/-- A reset of domain CLIFFn (R268): replay and receive buffers discarded. A packet that waits whole for the port, in another port's
receive buffer or from this module, goes by the new route; one half sent is lost with the replay buffer. -/
def portReset (s : State) (n : Nat) : State :=
  let l := (undelivered { portOf s n with acked := [], replay := [] }).filter fun pk => pk.any (·.flit.first)
  let s := leaveState (modPort (discardInput s n) n clearLink) n 0
  let s := wrs s [(CLF_PSTAT_signal.at n, 0), (CLF_PSTAT_reversed.at n, 0)]
  foldS (reroute n) (setUpstream (raisePart s n)) (l.filter fun pk => pk.any fun x => x.input ≠ n)

/-- A retrain that keeps the replay buffer (R251). -/
def portRetrain (s : State) (n : Nat) : State :=
  let up := pState s n = stUP
  let s := count s (0x1606 + 0x10 * n) 1
  let s := if up then wrOr s (CLF_PIRQ_STAT_down.at n) 1 else s
  startAttempt (modPort s n fun p => { p with retrain := up || p.retrain, nakking := false, resends := 0 }) n

/-! ### Training -/

/-- Limit of a training state in ticks (R248). -/
def stepLimit : Nat → Nat
  | 1 => 1
  | 2 => 2000
  | 3 => 10
  | 4 => 1
  | _ => 2

/-- The other port of a port's direction. -/
def pairOf (n : Nat) : Nat := if n % 2 = 0 then n + 1 else n - 1

/-- Acknowledged flits whose packet is not yet acknowledged whole: those after the last packet end of their channel. -/
def openFlits : List OutFlit → List OutFlit
  | [] => []
  | x :: l => if x.flit.last || l.any (fun y => y.flit.vc = x.flit.vc && y.flit.last) then openFlits l else x :: openFlits l

/-- Flits that the peer has leave the replay buffer. -/
def dropSent (p : Port) (has_ : Flit → Bool) : Port :=
  { p with replay := p.replay.filter (fun x => !has_ x.flit), acked := openFlits (p.acked ++ p.replay.filter fun x => has_ x.flit) }

/-- Resend the flits of the replay buffer in their order, each with its header rewritten (R247, R250). -/
def resendFlits (s : State) (n : Nat) : State := foldS (fun s (x : OutFlit) => emitFlit s n (x.flit.seq % 10) x.flit) s (portOf s n).replay

/-- The port reaches UP: the transmitter resends from the first flit that the receiver lacks (R251). -/
def portUp (s : State) (n : Nat) (id : Ident) : State :=
  let again := (portOf s n).retrain
  let s := modPort s n fun p =>
    if p.retrain then { dropSent p (fun f => (f.seq + 4096 - id.replay) % 4096 ≥ 2048) with retrain := false, resends := 0, nakking := false }
    else clearLink p
  let s := wr (wrOr (toState s n stUP) (CLF_PIRQ_STAT_up.at n) 1) (CLF_TRAIN_attempts.at n) 0
  let s := if again then resendFlits s n else s
  pump (setUpstream (dropPart s n)) n

/-- IDENT ends (R249): peer, latency, and the wiring tests. -/
def identDone (s : State) (n : Nat) (id : Ident) : State :=
  let s := wrs s [((CLF_PEER_port.at n), id.port), ((CLF_LAT_ps.at n), min 65535 (id.latPs / 2))]
  let s := match id.coord with
    | some c => wrs s [((CLF_PEER_device.at n), c), ((CLF_PEER_valid.at n), 1)]
    | none => wr s (CLF_PEER_valid.at n) 0
  let s := modPort s n fun p => { p with serial := id.serial }
  let q := pairOf n
  let differs := portPresent s.variant q && pState s q = stUP && (portOf s q).serial ≠ id.serial
  if id.port ≠ n ^^^ 2 || (differs && q < n) then portFail s n stMISWIRED
  else
    let s := if differs then portFail s q stMISWIRED else s
    portUp s n id

/-- PORT_TRAINING_STEP: the port completes its present state and takes the next one; from DOWN an attempt begins. -/
def execPortTrainingStep (port : Nat) (ident : Ident) (s : State) : Host.Outcome State Fault Refusal :=
  .next <|
    if !mayTrain s port then s
    else match pState s port with
      | 0 => startAttempt s port
      | 1 => toState (wr s (CLF_PSTAT_signal.at port) 0xFF) port 2
      | 2 => toState s port 3
      | 3 => toState (wr (useFree s) (CLF_PSTAT_reversed.at port) (Config.freeNat s.free % 2)) port 4  -- as cabled (log 50)
      | 4 => toState s port 5
      | 5 => identDone s port ident
      | _ => s

/-- An attempt fails (R248, R251): FAILED for a retrain or at the eighth failure, else DOWN to try again. -/
def attemptFails (s : State) (n : Nat) : State :=
  let a := satAdd 15 (rd s (CLF_TRAIN_attempts.at n)) 1
  let s := wrs s [((CLF_TRAIN_cause.at n), pState s n), ((CLF_TRAIN_attempts.at n), a)]
  if (portOf s n).retrain || a ≥ 8 then portFail s n stFAILED else toState s n 0

/-- TRAINING_TIMEOUT: the present state's limit or CLF_TMO.train has passed. -/
def execTrainingTimeout (port : Nat) (s : State) : Host.Outcome State Fault Refusal :=
  .next <|
    let st := pState s port
    let p := portOf s port
    if portPresent s.variant port && 1 ≤ st && st ≤ 5
        && (since s p.since ≥ stepLimit st || since s p.attempt ≥ rd s CLF_TMO_train) then attemptFails s port
    else s

/-- PORT_RETRY_TIMER: a FAILED port tries again after 100,000 ticks. -/
def execPortRetryTimer (port : Nat) (s : State) : Host.Outcome State Fault Refusal :=
  .next <|
    if mayTrain s port && pState s port = stFAILED && since s (portOf s port).since ≥ 100000 then startAttempt s port else s

/-- LATENCY_PROBE: half the measured round trip (R249). -/
def execLatencyProbe (port ps : Nat) (s : State) : Host.Outcome State Fault Refusal :=
  .next <| if usable s port then wr s (CLF_LAT_ps.at port) (min 65535 (ps / 2)) else s

/-! ### Replay, credits and transit (R250–R263) -/

/-- The idle flit that answers a received one: ack, nak and one credit total. -/
def idleFlit (s : State) (n : Nat) : State := idleOn s n ((portOf s n).rxNext % 10)

/-- A flit that an ack covers. -/
def acked (ack : Nat) (f : Flit) : Bool := (ack + 4096 - f.seq) % 4096 < 2048

/-- Take in an ack: covered flits leave the replay buffer. -/
def takeAck (s : State) (n ack : Nat) : State :=
  if (portOf s n).replay.any fun x => acked ack x.flit then pump (modPort s n fun p => { dropSent p (acked ack) with resends := 0 }) n
  else s

/-- Take in a credit total. -/
def takeCredit (s : State) (n sel total : Nat) : State :=
  if sel ≥ 10 then s else pump (modPort s n fun p => { p with credit := mset p.credit sel (total % 4096) }) n

/-- Resend every unacknowledged flit (R250), or retrain after CLF_RETRYn.limit resends without progress (R251). -/
def resendAll (s : State) (n : Nat) : State :=
  let p := portOf s n
  if p.replay.isEmpty then s
  else if p.resends ≥ rd1 s (CLF_RETRY_limit.at n) then portRetrain s n
  else
    resendFlits (count (modPort s n fun p => { p with resends := p.resends + 1 }) (0x1603 + 0x10 * n) 1) n

/-- The route of a packet whose first flit has come in on a port (R259–R263): dropped when its hops have reached 127, or when no
direction is usable; one for this module is left to its endpoint's own command. -/
def openRoute (s : State) (n : Nat) (f : Flit) : State :=
  let put (s : State) (out : Option Nat) (cls : Nat) (det : Bool) : State :=
    modPort s n fun p => { p with partials := mset p.partials f.vc ⟨out, cls, det, 0⟩ }
  if f.hops ≥ 127 then put (count (wrOr s CLF_IRQ_STAT_unreach 1) 0x16C1 1) none f.cls f.detour
  else match routePkt s (n / 4) f.dst f.cls f.detour with
    | .here => put s none f.cls f.detour
    | .drop => put (unreachable s) none f.cls f.detour
    | .out d plus det cls =>
      let r := pickPort s d plus f.vc f.src f.dst
      put r.1 (some r.2) cls (f.detour || det)

/-- Accept a flit that is in sequence: it goes to its output at once, and waits there in this port's receive buffer until it leaves
(R252–R254). A flit that goes on no packet, or beyond 32 of one, is discarded (R247). -/
def acceptFlit (s : State) (n : Nat) (f : Flit) : State :=
  let buf := bufOf f.vc f.cls
  let s := modPort s n fun p => { p with rxNext := (p.rxNext + 1) % 4096, nakking := false }
  if f.vc ≥ 3 then freeBuffer s n buf
  else
    let s := if f.first then openRoute (abortRoute s n f.vc) n f else s
    match mget (portOf s n).partials f.vc with
    | none => freeBuffer s n buf
    | some r =>
      if r.flits ≥ 32 then freeBuffer (abortRoute s n f.vc) n buf
      else
        let s := modPort s n fun p => { p with
          partials := if f.last then mdel p.partials f.vc else mset p.partials f.vc { r with flits := r.flits + 1 } }
        match r.out with
        | none => freeBuffer s n buf
        | some q => enqueueOut (count s 0x16C2 1) q [⟨n, some buf, { f with cls := r.cls, detour := r.detour }⟩]

/-- The window's corrected symbols are above the port's threshold (R269). -/
def ceOver (s : State) (n : Nat) : Bool := min 65535 ((portOf s n).symbols / 1000) > rd s (CLF_THRESH_thresh.at n)

/-- The symbol errors of codewords: up to six of a codeword are corrected, one with more is uncorrectable (R245);
codewords and corrected symbols are counted, and the window's threshold is tested (R269, R275); a count that comes to exceed it is
logged (R523). -/
def countCodewords (s : State) (n : Nat) (symbols : List Nat) : State :=
  let fixed := symbols.filter fun e => 0 < e && e ≤ cwCorrects
  let lost := symbols.filter fun e => cwCorrects < e
  let s := count s (0x1600 + 0x10 * n) fixed.length
  let s := count s (0x1601 + 0x10 * n) lost.length
  let s := count s (0x1602 + 0x10 * n) fixed.sum
  let was := ceOver s n
  let s := modPort s n fun p => { p with symbols := p.symbols + fixed.sum }
  if ceOver s n && fixed.sum ≠ 0 then
    let s := if was then s else logError s (8 + n) 0x01 0 (BitVec.ofNat 64 n) 0xFF
    raiseReplace (wrOr s (CLF_PIRQ_STAT_ce_thresh.at n) 1) 6
  else s

/-- FLIT_RECEIVE on a port (R245, R250). A flit lies in one codeword or straddles two; the operands are the symbol errors of a codeword
that an earlier flit began, counted with that one, and of one that this flit begins, counted here. -/
def execFlitReceive (port : Nat) (flit : Flit) (held begun : Option Nat) (s : State) : Host.Outcome State Fault Refusal :=
  .next <|
    if !usable s port || inReset s (8 + port) then s
    else
      let s := countCodewords (count s (0x1605 + 0x10 * port) 1) port begun.toList
      if (held.toList ++ begun.toList).any (fun e => cwCorrects < e) || !hcrcOk flit then idleFlit (modPort s port fun p => { p with nakking := true }) port
      else
        let s := if flit.ackV then takeAck s port flit.ack else s
        let s := takeCredit s port flit.crSel flit.crTotal
        let s := if flit.ackV && flit.nak then resendAll s port else s
        if flit.len = 0 then s
        else if flit.seq = (portOf s port).rxNext then idleFlit (acceptFlit s port flit) port
        else idleFlit (modPort s port fun p => { p with nakking := true }) port

/-- REPLAY_TIMER_EXPIRY: the oldest unacknowledged flit has waited CLF_RETRYn.timer nanoseconds (R250). -/
def execReplayTimerExpiry (port waitedNs : Nat) (s : State) : Host.Outcome State Fault Refusal :=
  .next <| if usable s port && waitedNs ≥ rd s (CLF_RETRY_timer.at port) then resendAll s port else s

/-! ### Ports that fail -/

/-- PORT_DOWN: an UP port goes DOWN, FAILED or MISWIRED (R267). -/
def execPortDown (port state : Nat) (s : State) : Host.Outcome State Fault Refusal :=
  .next <|
    if portPresent s.variant port && pState s port = stUP && (state = 0 || state = stFAILED || state = stMISWIRED) then
      portFail s port state
    else s

/-- A write of CLF_PCTLn (R272, R276): enable cleared fails the port, retrain starts one. -/
def writePctl (s : State) (n : Nat) (c : CrsWrite) : State :=
  let s' := storeWrite s (CLF_PCTL.at n).off c
  if !portPresent s.variant n then s
  else if !rdb s' (CLF_PCTL_enable.at n) then
    if !rdb s (CLF_PCTL_enable.at n) then s' else portFail s' n 0
  else if woBits s' (CLF_PCTL_retrain.at n) c ≠ 0 && mayTrain s' n then portRetrain s' n
  else pump s' n

/-- PORT_RETRAIN_WRITE: a write of CLF_PCTLn.retrain (R272). -/
def execPortRetrainWrite (port : Nat) (w : CrsWrite) (s : State) : Host.Outcome State Fault Refusal := .next <| writePctl s port w

/-- PORT_ENABLE_CLEAR: a write of CLF_PCTLn that clears enable (R276). -/
def execPortEnableClear (port : Nat) (w : CrsWrite) (s : State) : Host.Outcome State Fault Refusal :=
  .next <| let s := writePctl s port w; s

/-- CABLE_REMOVED: the port fails and CBL_3V3 is switched off (R583). -/
def execCableRemoved (port : Nat) (s : State) : Host.Outcome State Fault Refusal :=
  .next <|
    if !portPresent s.variant port then s
    else
      let s := modPort s port fun p => { p with seated := false, supply := false }
      if pState s port = 0 then s else portFail s port 0

/-- CABLE_SEATED: the supply is on; a MISWIRED port is retried (R249, R576). -/
def execCableSeated (port : Nat) (s : State) : Host.Outcome State Fault Refusal :=
  .next <|
    if !portPresent s.variant port then s
    else
      let s := modPort s port fun p => { p with seated := true, supply := true }
      if mayTrain s port && pState s port = stMISWIRED then startAttempt s port else s

/-- CABLE_SUPPLY_OVERCURRENT: above 1.2 A the supply is switched off (R576). -/
def execCableSupplyOvercurrent (port milliamps : Nat) (s : State) : Host.Outcome State Fault Refusal :=
  .next <| if portPresent s.variant port && milliamps > 1200 then modPort s port fun p => { p with supply := false } else s

/-! ### The coordinate walk (R256–R258) -/

/-- Change the anchor's walk record to none and answer its DISCOVER: reports and conflicts. -/
def endWalk (s : State) (w : Walk) (ok : Bool) : State :=
  let s := wrOr (modClf s fun c => { c with walk := none }) CLF_IRQ_STAT_disc_done 1
  finish s w.berth 0x0503 w.seq (if ok then stOK else stFAULT) 0
    (toBe 4 (rd s CLF_DISC_COUNT_reports) ++ toBe 4 (rd s CLF_DISC_COUNT_conflicts))

/-- Ports in state UP. -/
def upPorts (s : State) : List Nat := (List.range 12).filter (usable s)

/-- Send the assign message on every UP port. -/
def sendAssign (s : State) : State :=
  foldS (fun s r => emit s (.walk r 0
    [rd s CLF_COORD_x, rd s CLF_COORD_y, rd s CLF_COORD_z, rd s CLF_DOMAIN_tag, rd s CLF_DIMS_sx, rd s CLF_DIMS_sy, rd s CLF_DIMS_sz, r]))
    s (upPorts s)

/-- The bytes of a walk message on the point channel: its kind and the sender's device ID (DESIGN CHOICE, log 189). -/
def walkBody (s : State) (kind : Nat) : List Byte := toLe 1 kind ++ toLe 4 (ownId s)

/-- Send a report to device 0, a point packet routed by R259 (R257). -/
def sendReport (s : State) : State := fabricSend (emit s (.walk 12 1 [ownId s])) 1 0 (walkBody s 1)

/-- Send a conflict to the anchor of the walk (R257): a point packet for device 0, handed to the port that the assign message came on,
since this module's own coordinates may belong to another domain (DEDUCED, log 201). -/
def sendConflict (s : State) (q : Nat) : State :=
  let s := emit (wrOr s CLF_IRQ_STAT_conflict 1) (.walk q 2 [ownId s])
  enqueueFlits s q (packetFlits 1 0 (ownId s) 0 0 false (walkBody s 2))

/-- Take coordinates, tag and sizes. -/
def setCoord (s : State) (x y z tag sx sy sz : Nat) (anchor : Bool) : State :=
  wrs (modClf s fun c => { c with walkAt := s.lh.tick }) [(CLF_COORD_x, x), (CLF_COORD_y, y), (CLF_COORD_z, z), (CLF_COORD_valid, 1), (CLF_COORD_anchor, b2n anchor),
    (CLF_DOMAIN_tag, tag), (CLF_DIMS_sx, sx), (CLF_DIMS_sy, sy), (CLF_DIMS_sz, sz)]

/-- Some berth is open: OPEN, or DETACHED with its job running (R257, R258, R401; DEDUCED, log 190). -/
def anyBerth (s : State) : Bool := berths.any fun b => (berthOf s b).state ≠ 0

/-- The walk that assigned the coordinates may still be in progress: less than CLF_TMO.disc ticks have passed (R258). Then another
walk's assignment does not replace the first (R270; DEDUCED, log 190). -/
def walkRecent (s : State) : Bool := discovered s && since s s.clf.walkAt < rd s CLF_TMO_disc

/-- ASSIGN_RECEIVE: the pseudocode of R257, run by L7. -/
def execAssignReceive (port x y z tag sx sy sz peerPort : Nat) (s : State) : Host.Outcome State Fault Refusal :=
  .next <|
    if !usable s port || !coreUp s 7 then s
    else if port ≠ peerPort ^^^ 2 then portFail s port stMISWIRED
    else
      let d := peerPort / 4
      let step (c n : Nat) : Nat := (c + n + (if peerPort % 4 < 2 then 1 else n - 1)) % max n 1
      let mx := if d = 0 then step x sx else x
      let my := if d = 1 then step y sy else y
      let mz := if d = 2 then step z sz else z
      let mine := mx + 64 * my + 4096 * mz
      let same := ownId s = mine && rd s CLF_DOMAIN_tag = tag
      if (anyBerth s || (walkRecent s && rd s CLF_DOMAIN_tag ≠ tag)) && discovered s && !same then sendConflict s port
      else if discovered s && rd s CLF_DOMAIN_tag = tag then
        if ownId s ≠ mine || rd s CLF_DIMS_sx ≠ sx || rd s CLF_DIMS_sy ≠ sy || rd s CLF_DIMS_sz ≠ sz then sendConflict s port else s
      else
        let s := setUpstream (setCoord s mx my mz tag sx sy sz false)
        sendAssign (sendReport s)

/-- The walk has succeeded. -/
def walkComplete (s : State) : Bool :=
  rd s CLF_DISC_COUNT_conflicts = 0
    && rd s CLF_DISC_COUNT_reports + 1 ≥ rd s CLF_DIMS_sx * rd s CLF_DIMS_sy * rd s CLF_DIMS_sz

/-- REPORT_RECEIVE at the anchor (R258). -/
def execReportReceive (device : Nat) (s : State) : Host.Outcome State Fault Refusal :=
  .next <|
    if !rdb s CLF_COORD_anchor || device ≥ 2 ^ 17 then s
    else
      let s := wr s CLF_DISC_COUNT_reports (satAdd (2 ^ 18 - 1) (rd s CLF_DISC_COUNT_reports) 1)
      match s.clf.walk with
      | some w => if walkComplete s && !w.lost then endWalk s w true else s
      | none => s

/-- CONFLICT_RECEIVE at the anchor: the walk fails (R258). -/
def execConflictReceive (s : State) : Host.Outcome State Fault Refusal :=
  .next <|
    if !rdb s CLF_COORD_anchor then s
    else
      let s := wr s CLF_DISC_COUNT_conflicts (satAdd 16383 (rd s CLF_DISC_COUNT_conflicts) 1)
      let s := wrOr s CLF_IRQ_STAT_conflict 1
      match s.clf.walk with
      | some w => if w.lost then s else endWalk s w false
      | none => s

/-- WALK_TIMEOUT (R258). -/
def execWalkTimeout (s : State) : Host.Outcome State Fault Refusal :=
  .next <|
    match s.clf.walk with
    | some w => if since s w.start ≥ rd s CLF_TMO_disc then endWalk s w false else s
    | none => s

/-- DISCOVER (R257, R258): sizes, a walk in progress, coordinates that the open berth keeps, else the walk starts. -/
def startWalk (s : State) (b : Nat) (seq : W32) (tag sx sy sz : Nat) : State × Ans :=
  if sx = 0 || 64 < sx || sy = 0 || 64 < sy || sz = 0 || 32 < sz then (s, .bad 0)
  else if s.clf.walk.isSome then (s, .busy (busyTicks s))
  else if discovered s && (rd s CLF_DOMAIN_tag ≠ tag || ownId s ≠ 0 || rd s CLF_DIMS_sx ≠ sx || rd s CLF_DIMS_sy ≠ sy
      || rd s CLF_DIMS_sz ≠ sz) then
    let s := wrs s [(CLF_DISC_COUNT_reports, 0), (CLF_DISC_COUNT_conflicts, 1)]
    (wrOr (wrOr s CLF_IRQ_STAT_conflict 1) CLF_IRQ_STAT_disc_done 1, .fin stFAULT 0 (toBe 4 0 ++ toBe 4 1))
  else
    let s := wrs (setCoord s 0 0 0 tag sx sy sz true) [(CLF_DISC_COUNT_reports, 0), (CLF_DISC_COUNT_conflicts, 0)]
    let s := sendAssign s
    if walkComplete s then (wrOr s CLF_IRQ_STAT_disc_done 1, .ok (zeros 8))
    else (modClf s fun c => { c with walk := some ⟨b, seq, s.lh.tick, false⟩ }, .later)

/-! ### The tick (R264–R266) -/

/-- A tick flit leaves on the lowest usable port of each direction: the count, then the picoseconds from the edge to the flit, at most
1 µs, which the spec leaves to the moment (R264). -/
def sendTicks (s : State) : State :=
  foldS (fun s (q : Nat × Bool) => match dirUp s q.1 q.2 with
    | p :: _ =>
      let body := toLe 8 (now s) ++ toLe 4 (Config.freeNat s.free % 1000001) ++ zeros 228
      enqueueFlits (useFree s) p (packetFlits 3 0 (ownId s) 0 0 false body)
    | [] => s) s [(0, true), (0, false), (1, true), (1, false), (2, true), (2, false)]

/-- Signed 16-bit code of a correction. -/
def code16 (i : Int) : Nat := (i % 65536).toNat

/-- A correction of at most 10 ns is applied; the rest stays to apply (R266). -/
def applySlew (s : State) (e : Int) : State :=
  let a := if e > 1000 then 1000 else if e < -1000 then -1000 else e
  modClf (wr s CLF_TICK_offset (code16 a)) fun c => { c with slew := e - a }

/-- At each tick edge the next part, of at most 10 ns, of a correction that is still to apply (R266). -/
def slewTick (s : State) : State := if s.clf.slew = 0 then s else applySlew s s.clf.slew

/-- TICK_FLIT_RECEIVE: the edge is realigned by the time from it to the flit's arrival, less link delay and residence (R265), and the
counter raised to a higher count (R482). -/
def execTickFlitReceive (port : Nat) (count : W64) (residencePs : Nat) (edgeErr10ps : Int) (s : State) :
    Host.Outcome State Fault Refusal :=
  .next <|
    if !usable s port || !discovered s || rdb s CLF_COORD_anchor || rd s CLF_TICK_upstream ≠ port then s
    else
      let e := edgeErr10ps - ((rd s (CLF_LAT_ps.at port) + residencePs) / 10 : Nat)
      let s := wr (applySlew s e) CLF_TICK_locked 1
      let s := if count.toNat > now s then { s with lh := { s.lh with tick := count } } else s
      modClf s fun c => { c with lastTick := s.lh.tick }

/-- Ports one hop nearer to device 0 in some dimension, from the one after a port on, in ascending order around. -/
def nearerPorts (s : State) (cur : Nat) : List Nat :=
  let near (p : Nat) : Bool :=
    let d := p / 4
    let n := dimSize s d
    let delta := (n - coordOf (ownId s) d) % n
    n > 1 && delta ≠ 0 && (if p % 4 < 2 then 2 * delta ≤ n else n ≤ 2 * delta)
  ((List.range 12).map fun i => (cur + 1 + i) % 12).filter fun p => usable s p && near p && p ≠ cur

/-- TICK_HOLDOVER: three ticks without a tick flit on the upstream port (R266). -/
def execTickHoldover (s : State) : Host.Outcome State Fault Refusal :=
  .next <|
    if !discovered s || rdb s CLF_COORD_anchor || since s s.clf.lastTick < 3 then s
    else
      let s := wr (wrOr s CLF_IRQ_STAT_tick_lost 1) CLF_TICK_locked 0
      match nearerPorts s (rd s CLF_TICK_upstream) with
      | p :: _ => modClf (wr s CLF_TICK_upstream p) fun c => { c with lastTick := s.lh.tick }
      | [] => s

end Sys2Proof.Machine
end

