-- ==== Sys2Proof/Machine/Seawall.lean ====
section
/-!
DEFINITION. Seawall (R329–R339): key slots, the request queue, alarms and the entropy source. A request runs as a whole when it
completes; AES-256-GCM itself is a pair of constants without body (log 43).
-/
namespace Sys2Proof.Machine
open Sys2Proof

/-- Change Seawall's structure. -/
def modSwl (s : State) (f : Seawall → Seawall) : State := { s with swl := f s.swl }

/-- An EMPTY key slot. -/
def KeySlot.empty : KeySlot :=
  { state := 0, key := 0, salt := 0, owner := 0, dir := 0, epoch := 0, counter := 0, erased := false }

/-- The key slot of a number. -/
def keySlot (s : State) (n : Nat) : KeySlot := mgetD s.swl.slots n KeySlot.empty

/-- Change a key slot. -/
def modKey (s : State) (n : Nat) (f : KeySlot → KeySlot) : State := modSwl s fun w => { w with slots := mset w.slots n (f (keySlot s n)) }

/-- Owner class of a slot's range (R332). -/
def slotClass (n : Nat) : Nat := if n < 8 then 0 else if n < 28 then 1 else if n < 30 then 2 else 3

/-- An alarm is latched (R338). -/
def alarmLatched (s : State) : Bool := rd s SWL_ALARM % 16 ≠ 0

/-- Requests that name a slot. -/
def keyPending (s : State) (n : Nat) : Nat := (s.swl.queue.filter fun r => r.p.slot = n).length

/-- Seawall is in reset. -/
def swlInReset (s : State) : Bool := inReset s 0x16 || inReset s 0x3F

/-! ### Loading a key (R331–R333) -/

/-- A key becomes ACTIVE in a slot with counter 0. -/
def putKey (s : State) (n : Nat) (key : W256) (salt : W32) (owner dir epoch : Nat) : State :=
  let k : KeySlot := { state := 1, key := key, salt := salt, owner := owner, dir := dir, epoch := epoch, counter := 0, erased := false }
  modSwl s fun w => { w with slots := mset w.slots n k }

/-- Load the staged key into a slot and zero the staging, that of SWL_KCTL with it (R342). -/
def loadStaged (s : State) (n owner dir epoch : Nat) : State :=
  let s := putKey s n s.swl.stageKey s.swl.stageSalt owner dir epoch
  let s := wrs s [(SWL_KCTL_owner, 0), (SWL_KCTL_dir, 0), (SWL_KCTL_epoch, 0)]
  modSwl s fun w => { w with stageKey := 0, stageSalt := 0, loadWait := none }

/-- A refused request or load: status bit and SWL_ERR. -/
def swlReject (s : State) (slot code cls : Nat) : State :=
  wrs (wrOr s SWL_IRQ_STAT_reject 1) [(SWL_ERR_slot, slot), (SWL_ERR_code, code), (SWL_ERR_class, cls)]

/-- The load of SWL_KCTL (R332, R333, R338, R339): refused for its class or direction, delayed while requests name the slot. -/
def keyLoadNow (s : State) : State :=
  let n := rd s SWL_KSEL_slot
  let owner := rd s SWL_KCTL_owner
  let dir := rd s SWL_KCTL_dir
  if alarmLatched s then s
  else if owner ≠ slotClass n then swlReject s n 3 owner
  else if dir = 0 then swlReject s n 4 owner
  else if keyPending s n ≠ 0 then modSwl s fun w => { w with loadWait := some (n, owner, dir, rd s SWL_KCTL_epoch) }
  else loadStaged s n owner dir (rd s SWL_KCTL_epoch)

/-- Retire the selected slot. -/
def keyRetireNow (s : State) : State :=
  let n := rd s SWL_KSEL_slot
  if (keySlot s n).state = 0 then s else modKey s n fun k => { k with state := 2 }

/-- Erase the selected slot. -/
def keyEraseNow (s : State) : State := clearKeySlot s (rd s SWL_KSEL_slot)

/-- A write of SWL_KCTL: the staged fields, then what its action bits ask for. -/
def writeKctl (s : State) (c : CrsWrite) : State :=
  let s := storeWrite s SWL_KCTL.off c
  if swlInReset s then s
  else
    let s := if woBits s SWL_KCTL_load c ≠ 0 then keyLoadNow s else s
    let s := if woBits s SWL_KCTL_retire c ≠ 0 then keyRetireNow s else s
    if woBits s SWL_KCTL_erase c ≠ 0 then keyEraseNow s else s

/-- KEY_LOAD: a write of SWL_KCTL with load set. -/
def execKeyLoad (w : CrsWrite) (s : State) : Host.Outcome State Fault Refusal := .next <| writeKctl s w
/-- KEY_RETIRE: a write of SWL_KCTL with retire set. -/
def execKeyRetire (w : CrsWrite) (s : State) : Host.Outcome State Fault Refusal := .next <| let s := writeKctl s w; s
/-- KEY_ERASE: a write of SWL_KCTL with erase set. -/
def execKeyErase (w : CrsWrite) (s : State) : Host.Outcome State Fault Refusal := .next <| let t := writeKctl s w; t

/-- KEY_LOAD_RESUME: the delayed load once no request names the slot (R339). -/
def execKeyLoadResume (s : State) : Host.Outcome State Fault Refusal :=
  .next <|
    match s.swl.loadWait with
    | some (n, owner, dir, epoch) => if keyPending s n = 0 && !swlInReset s && !alarmLatched s then loadStaged s n owner dir epoch else s
    | none => s

/-! ### Requests (R329, R330, R334–R336) -/

/-- Data under the keystream of a key and an IV: GCM's encryption and its decryption (R329). -/
def gcmCrypt (key : W256) (iv : BitVec 96) (data : List Byte) : List Byte := data.mapIdx fun i x => x ^^^ Config.gcmStream key iv i

/-- Why a request is refused (R334); 0 when it is not. -/
def swlCheck (s : State) (p : SwlParams) : Nat :=
  let k := keySlot s p.slot
  if p.slot ≥ 32 || k.state = 0 then 2
  else if k.owner ≠ p.cls then 3
  else if !(if p.decrypt then k.dir / 2 % 2 = 1 else k.dir % 2 = 1) then 4
  else if !p.decrypt && k.state = 2 then 5
  else if !p.decrypt && k.state = 3 then 6
  else if p.aad.length > 4096 || p.data.length > 16777216 || (p.gmac && !p.data.isEmpty) then 7
  else 0

/-- A request ends without output. -/
def swlFinish (s : State) (buffer code : Nat) (iv : BitVec 96) : State :=
  modSwl s fun w => { w with done := w.done ++ [⟨buffer, code, iv, [], 0⟩] }

/-- A request ends with status OK: its output, written to its transit buffer, is released with IV and tag (R330, R336). -/
def swlRelease (s : State) (buffer : Nat) (iv : BitVec 96) (out : List Byte) (tag : BitVec 128) : State :=
  modSwl s fun w => { w with done := w.done ++ [⟨buffer, 0, iv, out, tag⟩], transit := mset w.transit buffer out }

/-- The REKEY_NEEDED event when a berth's counter passes 2^48 (R407). -/
def askRekey (s : State) (n : Nat) : State :=
  let b := n / 2
  let q := berthOf s b
  if n < 8 && q.keySlot = n && q.state ≠ 0 && !q.rekeyAsked && (keySlot s n).counter.toNat > 2 ^ 48 then
    event (modBerth s b fun q => { q with rekeyAsked := true }) b 0x000C stOK 0 (toBe 1 q.keyEpoch)
  else s

/-- The peer of an Offshore slot whose counter has just passed 2^48 is due for a rekey (R378). -/
def markSlotRekey (s : State) (n : Nat) : State :=
  if 8 ≤ n && n < 28 && (keySlot s n).counter.toNat = 2 ^ 48 + 1 then
    let mine (p : Nat × OfsPeer) : Nat × OfsPeer :=
      (p.1, { p.2 with rekeyDue := p.2.rekeyDue || (match p.2.key with
        | some k => k.1 = n
        | none => false) })
    let mark (x : Session) : Session := { x with peers := x.peers.map mine }
    { s with ofs := { s.ofs with
        sessions := berths.foldl (fun q b => fmod q b fun x => x.map mark) s.ofs.sessions } }
  else s

/-- Take the next IV of a slot: salt and counter, which then counts on (R330). -/
def takeIv (s : State) (n : Nat) : State × BitVec 96 :=
  let k := keySlot s n
  let iv : BitVec 96 := BitVec.ofNat 96 (k.salt.toNat * 2 ^ 64 + k.counter.toNat)
  let full := k.counter.toNat + 1 = 2 ^ 64 - 1
  let s := modKey s n fun k => { k with counter := k.counter + 1, state := if full then 3 else k.state }
  (markSlotRekey (askRekey (if full then wrOr s SWL_IRQ_STAT_exhausted 1 else s) n) n, iv)

/-- SEAWALL_REQUEST: queued, refused by code, or left with its requester while the queue or the class's share of it is full. -/
def execSeawallRequest (p : SwlParams) (s : State) : Host.Outcome State Fault Refusal :=
  .next <|
    let code := swlCheck s p
    if swlInReset s then s
    else if code ≠ 0 then swlFinish (swlReject s p.slot code p.cls) p.buffer code 0
    else if s.swl.queue.length ≥ 64 || (s.swl.queue.filter fun r => r.p.cls = p.cls).length ≥ 32 then s
    else
      let r := if p.decrypt then (s, p.iv) else takeIv s p.slot
      modSwl r.1 fun w => { w with queue := w.queue ++ [⟨p, r.2⟩] }

/-- Seawall starts blocks: run set, the DRBG seeded and the entropy source healthy (R337, R342). -/
def swlRuns (s : State) : Bool := rdb s SWL_CTL_run && s.swl.seeded && s.swl.failTick.isNone && !swlInReset s && !stopping s

/-- End a request with a failing code, releasing no output. -/
def swlFail (s : State) (r : SwlReq) (code : Nat) : State :=
  swlFinish (wrs s [(SWL_ERR_slot, r.p.slot), (SWL_ERR_code, code), (SWL_ERR_class, r.p.cls)]) r.p.buffer code r.iv

/-- The tag that a request's key gives its additional data and its ciphertext. -/
def tagOf (key : W256) (r : SwlReq) : BitVec 128 :=
  Config.gcmTag key r.iv r.p.aad (if r.p.decrypt then r.p.data else gcmCrypt key r.iv r.p.data)

/-- SEAWALL_REQUEST_COMPLETE: the oldest request of a class ends (R335, R336). One whose key was erased meanwhile has no key; a
decryption whose tag does not match zeroes its buffer. -/
def execSeawallRequestComplete (cls : Nat) (s : State) : Host.Outcome State Fault Refusal :=
  .next <|
    match s.swl.queue.find? fun r => r.p.cls = cls with
    | none => s
    | some r =>
      if !swlRuns s then s
      else
        let s := modSwl s fun w => { w with queue := w.queue.eraseP fun x => x.p.cls = cls }
        if (keySlot s r.p.slot).state = 0 then swlFail s r 2
        else
          let key := (keySlot s r.p.slot).key
          if r.p.decrypt && r.p.tag ≠ tagOf key r then
            let s := modSwl s fun w => { w with transit := mset w.transit r.p.buffer (zeros r.p.data.length) }
            swlFail (count (wrOr s SWL_IRQ_STAT_auth 1) 0x1902 1) r 1
          else swlRelease (count s (if r.p.decrypt then 0x1901 else 0x1900) r.p.data.length) r.p.buffer r.iv
            (gcmCrypt key r.iv r.p.data) (tagOf key r)

/-! ### Alarms and entropy (R337, R338) -/

/-- Fail every queued request with a code. -/
def failAll (s : State) (code : Nat) : State :=
  foldS (fun s r => swlFail s r code) (modSwl s fun w => { w with queue := [] }) s.swl.queue

/-- Every key, salt and the DRBG state are zeroed, every slot EMPTY (R338); `byAlarm` marks the slots. -/
def zeroKeys (s : State) (byAlarm : Bool) : State :=
  let e : KeySlot := { KeySlot.empty with erased := byAlarm }
  modSwl s fun w => { w with
    slots := if byAlarm then (List.range 32).map fun n => (n, e) else []
    stageKey := 0, stageSalt := 0, loadWait := none, seeded := false }

/-- What an alarm does (R338): keys zeroed, requests failed, the interrupt, the count and the tick of the last one. -/
def alarmActs (s : State) : State :=
  let s := failAll (zeroKeys s true) 8
  let s := count (wrOr s SWL_IRQ_STAT_alarm 1) 0x1940 1
  modSwl s fun w => { w with alarmTick := s.lh.tick, alarmLast := regWord s SWL_ALARM.off }

/-- SEAWALL_ALARM of sensor 0 voltage, 1 clock, 2 temperature, 3 tamper: acts when SWL_ALARM_EN arms it. -/
def execSeawallAlarm (sensor : Nat) (s : State) : Host.Outcome State Fault Refusal :=
  .next <|
    if !bit (rd s SWL_ALARM_EN_arm) sensor then s
    else alarmActs (wrOr s SWL_ALARM (2 ^ sensor))

/-- ENTROPY_FAIL: the health tests fail; no further block starts (R337). -/
def execEntropyFail (s : State) : Host.Outcome State Fault Refusal :=
  .next <|
    if s.swl.failTick.isSome then s
    else wrOr (modSwl s fun w => { w with failTick := some s.lh.tick }) SWL_IRQ_STAT_entropy 1

/-- ENTROPY_RECOVER: the source passes its tests, and the DRBG is seeded afresh (R337, R345). -/
def execEntropyRecover (s : State) : Host.Outcome State Fault Refusal :=
  .next <| modSwl s fun w => { w with failTick := none, seeded := true }

/-- ENTROPY_TIMEOUT: 100 ticks without recovery fail every request (R337). -/
def execEntropyTimeout (s : State) : Host.Outcome State Fault Refusal :=
  .next <|
    match s.swl.failTick with
    | some t => if since s t ≥ 100 then failAll s 9 else s
    | none => s

/-- A reset of the SEAWALL domain: as an alarm, with no cause latched (R339). -/
def resetSeawall (s : State) : State := alarmActs s

/-! ### Offshore's packets (R366) -/

/-- Seawall serves an encryption of Offshore, class 1, under a slot: it starts blocks, and refuses nothing (R334). -/
def canSeal (s : State) (n : Nat) : Bool := swlRuns s && swlCheck s ⟨1, n, false, false, 0, [], [], 0, 0⟩ = 0

/-- Encrypt under a slot with its next IV, as one request of Offshore that runs at once (DESIGN CHOICE, log 192): IV, ciphertext and
tag. The additional data may hold the IV. -/
def sealData (s : State) (n : Nat) (aad : BitVec 96 → List Byte) (data : List Byte) :
    State × BitVec 96 × List Byte × BitVec 128 :=
  let key := (keySlot s n).key
  let r := takeIv s n
  let ct := gcmCrypt key r.2 data
  (count r.1 0x1900 data.length, r.2, ct, Config.gcmTag key r.2 (aad r.2) ct)

/-- A tag that does not match: status bit, count and SWL_ERR (R336, R344). -/
def tagFailed (s : State) (n : Nat) : State :=
  wrs (count (wrOr s SWL_IRQ_STAT_auth 1) 0x1902 1) [(SWL_ERR_slot, n), (SWL_ERR_code, 1), (SWL_ERR_class, 1)]

end Sys2Proof.Machine
end

