-- ==== Sys2Proof/Machine/Elementary.lean ====
section
/-!
DEFINITION. The activation functions of R50 whose value is given only within an accuracy: the exact function in fixed point, and the
FP32 values within 2 ulp of it. Which of them the hardware gives is free.
-/
namespace Sys2Proof.Machine
open Sys2Proof

/-! ### Fixed point: integers that stand for n / 2^640 -/

/-- Fraction bits. -/
def fxBits : Nat := 640

/-- One. -/
def fxOne : Int := (2 ^ fxBits : Nat)

/-- Product and quotient, rounded down. -/
def fxMul (a b : Int) : Int := (a * b) / fxOne
def fxDiv (a b : Int) : Int := (a * fxOne) / b

/-- arctan(1/n): 460 terms of its series. -/
def fxArctanInv (n : Nat) : Int :=
  ((List.range 460).foldl (fun (acc : Int × Int) i =>
    (acc.1 + (if i % 2 = 0 then acc.2 / (2 * i + 1 : Nat) else -(acc.2 / (2 * i + 1 : Nat))), acc.2 / (n * n : Nat))) (0, fxOne / n)).1

/-- π (Machin). -/
def fxPi : Int := 16 * fxArctanInv 5 - 4 * fxArctanInv 239

/-- √(2/π). -/
def fxRoot2Pi : Int := (Nat.sqrt (fxDiv (2 * fxOne) fxPi * fxOne).toNat : Nat)

/-- e^(−x) for x ≥ 0: the series at x / 2^12, squared twelve times; 0 from 2^12 on, where it is below the last fraction bit. -/
def fxExpNeg (x : Int) : Int :=
  if x ≥ 4096 * fxOne then 0
  else
    let y := x / 4096
    let r := ((List.range 220).foldl (fun (acc : Int × Int) i =>
      let t := -(fxMul acc.2 y) / (i + 1 : Nat)
      (acc.1 + t, t)) (fxOne, fxOne)).1
    (List.range 12).foldl (fun v _ => fxMul v v) r

/-- The logistic function. -/
def fxSigmoid (x : Int) : Int :=
  if x ≥ 0 then fxDiv fxOne (fxOne + fxExpNeg x)
  else
    let e := fxExpNeg (-x)
    fxDiv e (fxOne + e)

/-- tanh. -/
def fxTanh (x : Int) : Int := 2 * fxSigmoid (2 * x) - fxOne

/-- (1 + erf(x/√2)) / 2 for |x| < 16: 1/2 + x · √(1/2π) · Σ (−x²/2)^n / (n! (2n + 1)). -/
def fxPhi (x : Int) : Int :=
  if x ≥ 16 * fxOne then fxOne
  else if x ≤ -16 * fxOne then 0
  else
    let q := fxMul x x / 2
    let s := ((List.range 900).foldl (fun (acc : Int × Int) i =>
      (acc.1 + acc.2 / (2 * i + 1 : Nat), -(fxMul acc.2 q) / (i + 1 : Nat))) (0, x)).1
    fxOne / 2 + fxMul s fxRoot2Pi / 2

/-- An FP32 value in fixed point. -/
def fxOf (v : W32) : Int :=
  match v32 v with
  | .fin neg m e =>
    let n : Int := (m <<< (fxBits + e).toNat : Nat)
    if neg then -n else n
  | _ => 0

/-- The functions of codes 2 to 6 (R50). The tanh form of GELU is v · sigmoid(2 √(2/π) (v + 0.044715 v³)). -/
def fxActivation (code : Nat) (v : W32) : Int :=
  let x := fxOf v
  match code with
  | 2 => fxMul x (fxSigmoid (2 * fxMul fxRoot2Pi (x + fxMul (fxDiv (44715 * fxOne) (1000000 * fxOne)) (fxMul x (fxMul x x)))))
  | 3 => fxMul x (fxPhi x)
  | 4 => fxMul x (fxSigmoid x)
  | 5 => fxSigmoid x
  | _ => fxTanh x

/-! ### The values within 2 ulp -/

/-- Unit in the last place of FP32 at a fixed-point value: that of its binade, of the subnormals below it. -/
def fxUlp (t : Int) : Int := (2 ^ (max (Nat.log2 t.natAbs) (fxBits - 126) - 23) : Nat)

/-- The FP32 value nearest to a fixed-point one. -/
def fxRound (t : Int) : W32 := f32 (.fin (t < 0) t.natAbs (-(fxBits : Int)))

/-- Place of an FP32 encoding among the finite ones, and the encodings at a place. -/
def fxPlace (w : W32) : Int := if w.toNat < 2 ^ 31 then w.toNat else -((w.toNat - 2 ^ 31 : Nat) : Int)
def fxAt (p : Int) : List W32 :=
  if p = 0 then [0, 0x80000000#32]
  else if p.natAbs ≥ 0x7F800000 then []
  else [BitVec.ofNat 32 (p.natAbs + if p < 0 then 2 ^ 31 else 0)]

/-- The FP32 values within 2 ulp of a fixed-point one, in ascending order. -/
def within2 (t : Int) : List W32 :=
  let p := fxPlace (fxRound t)
  ([-3, -2, -1, 0, 1, 2, 3] : List Int).flatMap fun k => (fxAt (p + k)).filter fun w => (fxOf w - t).natAbs ≤ (2 * fxUlp t).natAbs

/-- A function of codes 2 to 6 on a number (R50): some value within 2 ulp. An infinity gives the limit; of −∞ the first three have no
stated value. -/
def activated (code : Nat) (v : W32) : W32 :=
  match v32 v with
  | .nan => nan32
  | .inf neg =>
    if code = 5 then (if neg then 0 else one32)
    else if code = 6 then (if neg then fneg one32 else one32)
    else if neg then Config.freeW32 (v.toNat + code) else v
  | .fin _ _ _ =>
    let l := within2 (fxActivation code v)
    nth l (Config.activationPick code v % l.length) (fxRound (fxActivation code v))

end Sys2Proof.Machine
end

