-- ==== Sys2Proof/Machine/Compute.lean ====
section
/-!
DEFINITION. The results of MATMUL, MATMUL_ACC, ELTWISE and ROW_REDUCE (R39, R40, R49–R51, R80–R82, R88, R106–R110, R590), and
validation at fetch (R41, R93, R112, R131, R324).
-/
namespace Sys2Proof.Machine
open Sys2Proof

/-! ### The epilogue (R49–R51, R77) -/

/-- Activation functions (R50): codes 2 to 6 give some value within their stated accuracy. -/
def activate (code : Nat) (v : W32) : W32 :=
  match code with
  | 0 => v
  | 1 => fmax v 0
  | 7 => fmul v v
  | c => activated c v

/-- The dropout scale 65,536 / keep, rounded once (R77). -/
def dropScale (keep : Nat) : W32 := fdiv (f32Nat 65536) (f32Nat keep)

/-- The epilogue of one element: accumulator, C, bias, element index (R49, R51). -/
def epilogue (o : Op) (seed step : W64) (acc c bias : W32) (index : Nat) : W32 :=
  let v := if o.epScale then fmul acc o.alpha else acc
  let v := if o.epAddc then fadd v (fmul o.beta c) else v
  let v := if o.epBias then fadd v bias else v
  let v := activate o.act v
  if o.epDrop then (if dropBits seed step o.stream index < o.keep then fmul v (dropScale o.keep) else 0) else v

/-! ### Results -/

/-- What an operation yields: bytes of D by offset, census counts, and whether a read failed, with the failed tier (R588). -/
structure OpOut where
  writes : NMap Byte
  counts : List Nat
  failed : Bool
  tier   : Nat
  /-- Bad codewords that it read, by handle and offset. -/
  bad    : List (Hdl × Nat)
  deriving DecidableEq, Repr

/-- The sources of an operation. -/
structure Sources where
  a : Source
  b : Source
  c : Source
  d : Source
  bias : Source
  deriving DecidableEq, Repr

/-- No bytes. -/
def noSource : Source := ⟨[], [], false, [], 0⟩

/-- Load what an opcode reads (R39, R40, R592). -/
def loadAll (s : State) (o : Op) : Sources :=
  { a := loadSource s o.ha (span (geoA o))
    b := if isMM o then loadSource s o.hb (span (geoB o)) else noSource
    c := if o.epAddc && (o.opcode = 1 || o.opcode = 8) then loadSource s o.hc (span (geoC o)) else noSource
    d := if o.opcode = 2 then loadSource s o.hd (span (geoD o)) else noSource
    bias := if o.epBias && (o.opcode = 1 || o.opcode = 8) then loadSource s o.hbias (4 * (if o.biasRow then o.m else o.n)) else noSource }

/-- Element (i, j) of op(A) and of op(B) for a batch item (R104). -/
def aElem (o : Op) (x : Sources) (b i kk : Nat) : W32 := if o.turnA then elemVal x.a (geoA o) b kk i else elemVal x.a (geoA o) b i kk
def bElem (o : Op) (x : Sources) (b kk j : Nat) : W32 := if o.turnB then elemVal x.b (geoB o) b j kk else elemVal x.b (geoB o) b kk j

/-- The geometry of a vector of FP32 values. -/
def geoVec (n : Nat) : Geo := ⟨1, n, n, false, 1, 1⟩

/-- The FP32 value of an element of D before the cast. -/
def resultAt (o : Op) (x : Sources) (seed step : W64) (b i j : Nat) : W32 :=
  let ep (acc : W32) := epilogue o seed step acc (elemVal x.c (geoC o) b i j)
    (elemVal x.bias (geoVec (if o.biasRow then o.m else o.n)) 0 0 (if o.biasRow then i else j)) ((b * o.m + i) * o.n + j)
  match o.opcode with
  | 1 => ep (dot o.prec (aElem o x b i) (fun kk => bElem o x b kk j) o.k none)
  | 2 => dot o.prec (aElem o x b i) (fun kk => bElem o x b kk j) o.k (some (elemVal x.d (geoD o) b i j))
  | _ => ep (elemVal x.a (geoA o) b i j)

/-- A row reduction (R82). -/
def rowReduce (kind : Nat) (l : List W32) : W32 :=
  match kind with
  | 1 => (reduce64 fmax l).getD 0
  | 2 => (reduce64 fmin l).getD 0
  | 3 => (reduce64 fadd (l.map fun v => fmul v v)).getD 0
  | _ => (reduce64 fadd l).getD 0

/-- Positions that an operation writes, in order: (item, row, column) of D as the operation numbers them. -/
def written (o : Op) (mask : List Byte) : List (Nat × Nat × Nat) :=
  if o.opcode = 9 then (List.range o.batch).flatMap fun b => (List.range o.m).map fun i => (0, b, i)
  else (positions (geoD o)).filter fun p => unmasked o mask p.2.1 p.2.2

/-- Values of the written positions. -/
def results (o : Op) (x : Sources) (seed step : W64) (mask : List Byte) : List ((Nat × Nat × Nat) × W32) :=
  (written o mask).map fun p =>
    if o.opcode = 9 then (p, rowReduce o.reduce ((List.range o.n).map (elemVal x.a (geoA o) p.2.1 p.2.2)))
    else (p, resultAt o x seed step p.1 p.2.1 p.2.2)

/-- Written bits of a value (R75, R76): MATMUL_ACC has no cast beyond FP32. -/
def castOut (o : Op) (v : W32) : Nat := castTo o.fd o.sat v

/-- Bytes of D by offset: the values, and +0 in the padding of each blocked block that is written (R107). -/
def outBytes (o : Op) (mask : List Byte) (rs : List ((Nat × Nat × Nat) × W32)) : NMap Byte :=
  let g := geoD o
  let m := rs.foldl (fun m p => putBytes m (elemOff g p.1.1 p.1.2.1 p.1.2.2) (toLe (esz o.fd) (castOut o p.2))) ([] : NMap Byte)
  if !o.blkD then m
  else
    let pads := (List.range g.items).flatMap fun b => (List.range (64 * cdiv g.rows 64)).flatMap fun r =>
      (List.range (64 * cdiv g.cols 64)).filterMap fun c =>
        if (r ≥ g.rows || c ≥ g.cols) && (o.opcode = 9 || blockRuns o mask (r / 64) (c / 64)) then some (b, r, c) else none
    pads.foldl (fun m p => putBytes m (elemOff g p.1 p.2.1 p.2.2) (toLe (esz o.fd) 0)) m

/-- Positions of A, B, C, D and the bias that an operation reads (R110, R225): the panels of the waves that run; elsewhere the
elements of unmasked results. -/
def readsA (o : Op) (s : Nat) (mask : List Byte) : List (Nat × Nat × Nat) :=
  if isMM o then (positions (geoA o)).filter fun p =>
    let i := (if o.turnA then p.2.2 else p.2.1) / 64 / gridSide s
    (List.range (waveCols o s)).any (waveRuns o s mask i)
  else positions (geoA o)
def readsB (o : Op) (s : Nat) (mask : List Byte) : List (Nat × Nat × Nat) :=
  if isMM o then (positions (geoB o)).filter fun p =>
    let j := (if o.turnB then p.2.1 else p.2.2) / 64 / gridSide s
    (List.range (waveRows o s)).any fun i => waveRuns o s mask i j
  else []

/-- Bad codewords that reads at some positions meet, and whether any fails. -/
def badReads (s : State) (h : Hdl) (src : Source) (g : Geo) (ps : List (Nat × Nat × Nat)) : Bool × List (Hdl × Nat) :=
  if src.failed.isEmpty then (false, [])
  else
    let offs := (ps.filter fun p => elemBad src g p.1 p.2.1 p.2.2).map fun p => elemOff g p.1 p.2.1 p.2.2
    if offs.isEmpty then (false, [])
    else if isCoded s h then (true, ((s.mem.bad.filter fun c => c / 2 ^ 43 = addrOf h / 2 ^ 43).map fun c => (h, c)))
    else (true, (s.mem.bad.filter fun c => offs.any fun o => c < addrOf h + o + esz g.fmt && addrOf h + o < c + cwSize (tierAt s c)).map
      fun c => (h, c))

/-- Tier that OP_FAULT names for a failed read (R588). -/
def faultTier (s : State) (h : Hdl) (src : Source) : Nat := if src.coded then 0xFE else tierAt s (addrOf h)

/-- First failing read of several. -/
def firstFail : List (Bool × Nat × List (Hdl × Nat)) → Bool × Nat × List (Hdl × Nat)
  | [] => (false, 0, [])
  | (f, t, l) :: r =>
    let q := firstFail r
    (f || q.1, if f then t else q.2.1, l ++ q.2.2)

/-- Compute an operation: mask as read at its start, job seed and step (R91, R92, R111). -/
def compute (s : State) (o : Op) (sp : Nat) (mask : List Byte) (seed step : W64) (cens : Bool) : OpOut :=
  if o.opcode = 0x3F then ⟨[], [], false, 0, []⟩
  else
    let x := loadAll s o
    let rs := results o x seed step mask
    let ps := rs.map (·.1)
    let vec := if o.epBias then (List.range (if o.biasRow then o.m else o.n)).map fun i => (0, 0, i) else []
    let part (h : Hdl) (src : Source) (g : Geo) (l : List (Nat × Nat × Nat)) :=
      let r := badReads s h src g l
      (r.1, faultTier s h src, r.2)
    let f := firstFail [part o.ha x.a (geoA o) (readsA o sp mask), part o.hb x.b (geoB o) (readsB o sp mask),
      part o.hd x.d (geoD o) ps, part o.hc x.c (geoC o) ps, part o.hbias x.bias (geoVec (if o.biasRow then o.m else o.n)) vec]
    { writes := outBytes o mask rs
      counts := if cens then tally (rs.map fun p => category o.fd p.2 (castOut o p.2)) else []
      failed := f.1, tier := f.2.1, bad := f.2.2 }

/-! ### Waves and tiles (R34, R36), and the coded operands that they read (R327, R328) -/

/-- Output block (i, j) is computed by this tile of a grid that is packed by s (R34, R36): the tile of sub-grid q that R34 deals the
block, the sub-grids counted in row-major order. -/
def tileOf (sp q i j : Nat) : Nat :=
  let g := gridSide sp
  (q / sp * g + i % g) * 32 + (q % sp * g + j % g)

/-- The waves of an operation in their order (R34, R36): group of batch items outermost, then wave rows, then wave columns. -/
def waveOrder (o : Op) (sp : Nat) (mask : List Byte) : List (Nat × Nat × Nat) :=
  (List.range (cdiv o.batch (sp * sp))).flatMap fun w => (List.range (waveRows o sp)).flatMap fun i =>
    ((List.range (waveCols o sp)).filter fun j => waveRuns o sp mask i j).map fun j => (w, i, j)

/-- The blocks that the tiles compute in a wave: tile, batch item, block row and column. A sub-grid without a batch item idles. -/
def waveBlocks (o : Op) (sp : Nat) (w : Nat × Nat × Nat) : List (Nat × Nat × Nat × Nat) :=
  let g := gridSide sp
  ((List.range (sp * sp)).filter fun q => w.1 * (sp * sp) + q < o.batch).flatMap fun q =>
    (rangeFrom (w.2.1 * g) (min g (cdiv o.m 64 - w.2.1 * g))).flatMap fun i =>
      (rangeFrom (w.2.2 * g) (min g (cdiv o.n 64 - w.2.2 * g))).map fun j => (tileOf sp q i j, w.1 * (sp * sp) + q, i, j)

/-- An element of A or of B is read in a wave. -/
def inWave (o : Op) (sp : Nat) (ofA : Bool) (w : Nat × Nat × Nat) (p : Nat × Nat × Nat) : Bool :=
  let line := if ofA then (if o.turnA then p.2.2 else p.2.1) else (if o.turnB then p.2.1 else p.2.2)
  p.1 / (sp * sp) = w.1 && line / 64 / gridSide sp = (if ofA then w.2.1 else w.2.2)

/-- Blocks of a coded operand in the order of their decoding: each once in every wave that reads it (R327). -/
def blocksDecoded (o : Op) (sp : Nat) (mask : List Byte) (ofA : Bool) : List Nat :=
  let g := if ofA then geoA o else geoB o
  (waveOrder o sp mask).flatMap fun w =>
    (((positions g).filter (inWave o sp ofA w)).map fun p => elemOff g p.1 p.2.1 p.2.2 / 4096).eraseDups

/-- A coded operand has been decoded for the Shelf: the blocks that its waves read are counted and their failures recorded. No table
slot is taken for it; SHG_ERR names the slot of the object's header (DESIGN CHOICE, log 191). -/
def noteCoded (s : State) (b : Nat) (o : Op) (sp : Nat) (mask : List Byte) (ofA : Bool) : State :=
  let h := if ofA then o.ha else o.hb
  if !isMM o || !isCoded s h then s
  else
    let src := codedSource s h
    let slot := fldBits (peek s (addrOf h) 64) 16 1 5 0
    if src.head ≠ 0 then shgFail s b slot (src.head, 0)
    else
      let l := (blocksDecoded o sp mask ofA).map fun i => (nth src.causes i 0, i)
      shgReport s b slot ⟨l.filter fun p => p.1 ≠ 0, (l.filter fun p => p.1 = 0).length⟩

/-- Shingle starts blocks: SHG_CTL.run set, its domain out of reset (R340). -/
def shgRuns (s : State) : Bool := rdb s SHG_CTL_run && !inReset s 0x17 && !inReset s 0x3F

/-- An operation waits for the expander, which counts as EXPAND (R340). -/
def expandWaits (s : State) (o : Op) : Bool := isMM o && (isCoded s o.ha || isCoded s o.hb) && !shgRuns s

/-! ### Validation (R41, R93, R112, R131, R324) -/

/-- Format codes that an opcode uses (R592). -/
def fmtsUsed (o : Op) : List Nat :=
  let c := if o.epAddc then [o.fc] else []
  match o.opcode with
  | 0x01 => [o.fa, o.fb] ++ c ++ [o.fd]
  | 0x02 => [o.fa, o.fb, o.fd]
  | 0x08 => [o.fa] ++ c ++ [o.fd]
  | 0x09 => [o.fa, o.fd]
  | _ => []

/-- The operands with a stored shape that an opcode uses: handle, geometry. -/
def operands (o : Op) : List (Hdl × Geo) :=
  let c := if o.epAddc then [(o.hc, geoC o)] else []
  match o.opcode with
  | 0x01 => [(o.ha, geoA o), (o.hb, geoB o)] ++ c ++ [(o.hd, geoD o)]
  | 0x02 => [(o.ha, geoA o), (o.hb, geoB o), (o.hd, geoD o)]
  | 0x08 => [(o.ha, geoA o)] ++ c ++ [(o.hd, geoD o)]
  | 0x09 => [(o.ha, geoA o), (o.hd, geoD o)]
  | _ => []

/-- Bytes that an operand's handle offers: the decoded length of a coded object, else its extent. -/
def offered (s : State) (h : Hdl) : Nat :=
  if isCoded s h then
    match codedRaw s h with
    | some hd => hd.rawLen
    | none => 2 ^ 43
  else extent s h

/-- Tokens of a tapped operand that are sampled (R130): item and token. -/
def sampled (o : Op) (shift : Nat) : List (Nat × Nat) :=
  let toks := if o.tapSel = 1 then o.m else o.n
  (List.range o.batch).flatMap fun c => (List.range toks).filterMap fun t =>
    if (c * cdiv toks 64 + t / 64) % 2 ^ shift = 0 then some (c, t) else none

/-- The tapped operand is staged as FP32 (R132). -/
def tapWide (o : Op) : Bool := (if o.tapSel = 1 then o.fa else o.fb) = 1

/-- Staged bytes of `n` tokens of dimension `d` (R132). -/
def stageLen (n d : Nat) (wide : Bool) : Nat := 64 * cdiv n 64 * (64 * cdiv d 64) * (if wide then 4 else 2)

/-- Tap checks of R131, by SND_ERR cause: 0 when the tap is good. An allocated slot whose descriptor was never written counts as not
allocated, cause 1 (DESIGN CHOICE, log 197). -/
def tapCause (s : State) (b : Nat) (o : Op) : Nat :=
  match mget s.snd.slots o.tapSlot with
  | none => 1
  | some f =>
    match f.desc with
    | none => 1
    | some d =>
      let fd := parseFs d
      if f.berth ≠ b then 1
      else if o.tapKind ≠ fd.kind || fd.kind ≥ 2 then 2
      else if o.k ≠ fd.d then 3
      else if stageLen (sampled o fd.shift).length o.k (tapWide o) > rd s (SND_STAGE_QUOTA_mib.at b) * 2 ^ 20 then 4
      else 0

/-- Reserved fields and reserved values that the opcode uses (row 2 of R41); a segment ignores tap_sel (R122). -/
def rowReserved (o : Op) (inSegment : Bool) : Bool :=
  o.rsv || (fmtsUsed o).any (· > 3) || (isMM o && o.prec = 3) || o.maskMode = 3 || (o.opcode ≠ 0x3F && !inSegment && o.tapSel = 3) || o.act ≥ 8
    || (o.epDrop && o.keep = 0 && (o.opcode = 1 || o.opcode = 8))

/-- A row-major operand breaks row 5 of R41: stride below the row length, or extent beyond the object. -/
def rowExtent (s : State) (p : Hdl × Geo) : Bool := !p.2.blk && (p.2.ld < p.2.cols || span p.2 > offered s p.1)

/-- Format row of R41, with R93. -/
def rowFormat (s : State) (b : Nat) (o : Op) : Bool :=
  (rdb s (NUM_BERTH_CTL_precise.at b) && (fmtsUsed o).any (fun f => f = 2 || f = 3))
    || (isMM o && twiceP o.prec o.fa o.fb = 0) || (o.opcode = 2 && o.fd ≠ 1)
    || ((o.opcode = 2 || o.opcode = 9 || o.opcode = 0x3F) && (o.epScale || o.epAddc || o.epBias || o.epDrop || o.act ≠ 0))

/-- A forced pack breaks R35. -/
def rowPack (o : Op) : Bool := isMM o && o.pack ≥ 2 && (o.m > 2048 / packOf true o.pack 0 0 || o.n > 2048 / packOf true o.pack 0 0)

/-- A blocked operand breaks R108. -/
def rowStride (o : Op) : Bool :=
  (o.blkA && o.ldA ≠ 0 && o.opcode ≠ 0x3F) || (isMM o && o.blkB && o.ldB ≠ 0)
    || (o.blkC && o.blkD && o.ldCD ≠ 0 && o.epAddc && (o.opcode = 1 || o.opcode = 8))

/-- Handles of the fields other than A and B of a product. -/
def otherHandles (o : Op) : List Hdl :=
  if isMM o then
    (if o.epAddc && o.opcode = 1 then [o.hc] else []) ++ [o.hd] ++ (if o.maskMode ≠ 0 then [o.hmask] else [])
      ++ (if o.epBias && o.opcode = 1 then [o.hbias] else [])
  else opHandles o

/-- A coded object stands where R324 does not let it, or breaks the conditions of A and B. -/
def rowCodedPlace (s : State) (o : Op) : Bool := (otherHandles o).any (isCoded s)
def rowCodedForm (s : State) (o : Op) : Bool :=
  let bad (h : Hdl) (f : Nat) := isCoded s h && (hView h ≠ 0 || match codedRaw s h with
    | some hd => hd.fmt ≠ f
    | none => false)
  isMM o && (bad o.ha o.fa || bad o.hb o.fb)

/-- Error code of a descriptor at fetch, 0 when it is good: R41 in its order, then R112, R131 and R324. `inSegment` ignores the tap
and layer_last (R122). -/
def opError (s : State) (b : Nat) (o : Op) (inSegment : Bool) : Nat :=
  let tap := o.tapSel ≠ 0 && o.opcode ≠ 0x3F && !inSegment
  if !(o.opcode ∈ [0x01, 0x02, 0x08, 0x09, 0x3F]) then 0x01
  else if rowReserved o inSegment then 0x02
  else if o.m = 0 || o.n = 0 || o.k = 0 || o.batch = 0 || (!isMM o && o.k ≠ 1) then 0x03
  else if !(opHandles o).all (allocated s b) then 0x04
  else if (operands o).any (rowExtent s) || (o.epBias && (o.opcode = 1 || o.opcode = 8)
      && 4 * (if o.biasRow then o.m else o.n) > extent s o.hbias) then 0x05
  else if rowFormat s b o then 0x06
  else if rowPack o then 0x07
  else if tap && tapCause s b o = 1 then 0x08
  else if (o.turnA || o.turnB || o.maskMode ≠ 0) && !isMM o then 0x03
  else if o.maskMode ≠ 0 && (maskBits o > 8 * extent s o.hmask || maskBits o > 524288) then 0x05
  else if rowStride o then 0x05
  else if (operands o).any (fun p => p.2.blk && span p.2 > offered s p.1) then 0x05
  else if o.layerLast && !inSegment && ((o.opcode = 8) || (o.opcode ≠ 0x3F && o.fd ≠ 1)) then 0x06
  else if o.maskMode ≠ 0 && tap then 0x08
  else if tap && tapCause s b o ≠ 0 then 0x08
  else if rowCodedPlace s o then 0x04
  else if rowCodedForm s o then 0x06
  else 0

end Sys2Proof.Machine
end

