-- ==== Sys2Proof/Machine/Tiers.lean ====
section
/-!
DEFINITION. Background events of the memory tiers: scrub, error windows, a lost DDR5 channel (R223, R228, R229).
-/
namespace Sys2Proof.Machine
open Sys2Proof

/-- A count that rises from `old` to `new` reaches its threshold (R229, R64). -/
def reaches (old new thresh : Nat) : Bool := old < new && thresh ≤ new && (old < thresh || old = 0)

/-- Corrected errors of a tier's unit (R229): count, total, threshold. -/
def corrected (s : State) (tier unit n : Nat) : State :=
  let cnt : Fld := if tier = 1 then HBR_CE_COUNT_count else if tier = 2 then HBM_CE_COUNT_count.at unit else DDR_CE_COUNT_ce.at unit
  let thr : Fld := if tier = 1 then HBR_CE_THRESH_thresh else if tier = 2 then HBM_CE_THRESH_thresh else DDR_CE_THRESH_thresh
  let irq : Fld := if tier = 1 then HBR_IRQ_STAT_ce_thresh else if tier = 2 then HBM_IRQ_STAT_ce_thresh else DDR_IRQ_STAT_ce_thresh
  let id := if tier = 1 then 0x1500 else if tier = 2 then 0x1300 + unit else 0x1400 + unit
  let old := rd s cnt
  let s := count (wr s cnt (satAdd 65535 old n)) id n
  if reaches old (rd s cnt) (rd s thr) then
    raiseReplace (logError (wrOr s irq 1) (tierDomain tier) 0x01 0 (BitVec.ofNat 64 unit) 0xFF) tier
  else s

/-- Area of a byte of Harbour outside every page, by its offset in its segment (R203): 0 system, 1 transit, 2 pool. -/
def harbourArea (o : Nat) : Nat := if o < 16 * 2 ^ 20 then 0 else if o < 112 * 2 ^ 20 then 1 else 2

/-- An uncorrectable word that the scrub of a unit finds (R228): left unchanged and logged. An address below 2^30, where no object lies
(object number 0 is never assigned), names Harbour's own bytes, 2^28 for each segment (DESIGN CHOICE, log 178): one in the system area
resets HARBOUR (R225). Any other address outside every object names a free page. -/
def scrubFind (tier unit : Nat) (s : State) (a : Nat) : State :=
  let c := a / cwSize tier * cwSize tier
  if tierAt s c = tier then
    let s := modMem s fun m => { m with bad := if c ∈ m.bad then m.bad else c :: m.bad }
    noteUe s c true
  else if tierAt s c ≠ 0 then s
  else if tier = 1 && c < 2 ^ 30 then
    let area := harbourArea (c % 2 ^ 28)
    let s := wrs s [(HBR_ERR_segment, c / 2 ^ 28), (HBR_ERR_area, area), (HBR_ERR_berth, 0), (HBR_ERR_scrub, 1),
      (HBR_ERR_line, c % 2 ^ 28 / 64)]
    let s := modMem (wrOr s HBR_IRQ_STAT_ue 1) fun m => { m with ueT1 := s.lh.tick }
    let s := logError s 4 0x02 0 (BitVec.ofNat 64 c) 0xFF
    if area = 0 && !recovering s 4 then enterReset s 4 false true else s
  else noteUeIn s tier unit c 0xFF true

/-- MEMORY_SCRUB of a unit of a tier: corrected words counted, uncorrectable ones logged (R228, R229). -/
def execMemoryScrub (tier unit corrected_ : Nat) (bad : List Nat) (s : State) : Host.Outcome State Fault Refusal :=
  .next <|
    let units := if tier = 1 then 4 else if tier = 2 then 8 else 12
    if tier = 0 || tier > 3 || unit ≥ units || (tier = 3 && !hasDdr s.variant) || inReset s (tierDomain tier) then s
    else foldS (scrubFind tier unit) (if corrected_ = 0 then s else corrected s tier unit corrected_) bad

/-- ERROR_WINDOW_EXPIRY: a window of 2^20 ticks ends, and every windowed count starts again (R64, R223, R229, R269). -/
def execErrorWindowExpiry (s : State) : Host.Outcome State Fault Refusal :=
  .next <|
    if since s s.mem.window ≥ 2 ^ 20 then
      let s := wrs s [(SHF_CE_COUNT_count, 0), (HBR_CE_COUNT_count, 0)]
      let s := wrs s ((List.range 8).map fun i => (HBM_CE_COUNT_count.at i, 0))
      let s := if hasDdr s.variant then wrs s ((List.range 12).flatMap fun i => [(DDR_CE_COUNT_ce.at i, 0), (DDR_CE_COUNT_ue.at i, 0)]) else s
      let s := { s with clf := { s.clf with ports := s.clf.ports.map fun p => (p.1, { p.2 with symbols := 0, window := s.lh.tick }) } }
      modMem s fun m => { m with window := s.lh.tick }
    else s

/-- DDR_CHANNEL_LOST: a channel in service stops responding (R223). -/
def execDdrChannelLost (channel : Nat) (s : State) : Host.Outcome State Fault Refusal :=
  .next <| if hasDdr s.variant && channel < 12 && bit (rd s DDR_STAT_in_service) channel then loseChannel s channel else s

end Sys2Proof.Machine
end

