-- ==== Sys2Proof/Machine/Shelf.lean ====
section
/-!
DEFINITION. The Shelf scheduler (R41–R65, R109–R124, R130–R133): picking, fetching, starting and completing operations and engine
passes, recompute segments, taps, triggers, tile faults.
-/
namespace Sys2Proof.Machine
open Sys2Proof

/-! ### Cause counters (R59–R61) -/

/-- Change the Shelf's structure. -/
def modShelf (s : State) (f : Shelf → Shelf) : State := { s with shelf := f s.shelf }

/-- Count cycles under a key of the counters, unless SHF_CNT_CTL.freeze is set. -/
def addCause (s : State) (k n : Nat) : State :=
  if n = 0 || rdb s SHF_CNT_CTL_freeze then s
  else modShelf s fun x => { x with causes := mset x.causes k (mgetD x.causes k 0 + BitVec.ofNat 64 n) }

/-- Count active cycles of a berth under a cause. -/
def addActive (s : State) (b k n : Nat) : State := addCause (addCause s k n) (16 + b) n

/-- The idle and stall causes in the order of precedence of R59. -/
def causeOrder : List Nat := [0xE, 0xD, 0xC, 0xB, 0x7, 0x9, 0x8, 0x6, 0xA, 0x4, 0x5, 0x3]

/-- The cause under which cycles count when several hold: the one that R59 lists first; EMPTY when none is named. -/
def causeOf (l : List Nat) : Nat := (causeOrder.find? fun c => c ∈ l).getD 0x3

/-- Count intervals of cycles, each under the first of the causes that hold in it. -/
def addCauses (s : State) (l : CauseCycles) : State := foldS (fun s (p : List Nat × Nat) => addCause s (causeOf p.1) p.2) s l

/-- Cycles of several intervals together. -/
def allCycles (l : CauseCycles) : Nat := (l.map (·.2)).sum

/-- A FILL_CAP interval ends; one longer than fill_cap sets fill_stall (R66). -/
def endFillRun (s : State) : State :=
  let s := if s.shelf.fillRun > rd s SHF_FILL_CAP then wrOr s SHF_IRQ_STAT_fill_stall 1 else s
  modShelf s fun x => { x with fillRun := 0 }

/-- One idle interval: counted, and the FILL_CAP interval grows or ends. -/
def noteInterval (s : State) (p : List Nat × Nat) : State :=
  if p.2 = 0 then s
  else
    let s := addCause s (causeOf p.1) p.2
    if causeOf p.1 = 0x5 then modShelf s fun x => { x with fillRun := x.fillRun + p.2 } else endFillRun s

/-- Idle cycles before a scheduling decision, interval by interval in the order of time (R59, R66). -/
def noteIdle (s : State) (idle : CauseCycles) : State := foldS noteInterval s idle

/-- The cycles that the running operation has taken so far are counted: a part of those still uncounted, which no command states
(a free value). A freeze or a clear in its midst therefore keeps what came before it (R60). -/
def countRunning (s : State) : State :=
  match s.shelf.running with
  | none => s
  | some r =>
    let part (k n : Nat) : Nat := Config.freeNat (s.free + k) % (n + 1)
    let a := part 0 r.active
    let f := part 1 r.fixed
    let t := part 2 r.turn
    let s := useFree (useFree (useFree s))
    let s := if r.segment then addActive s r.berth 0 (a + f + t)
      else addCause (addCause (addActive s r.berth (if r.engine then 1 else 0) a) 2 f) 8 t
    modShelf s fun x => { x with running := some { r with active := r.active - a, fixed := r.fixed - f, turn := r.turn - t } }

/-! ### Heads (R44, R52–R57) -/

/-- A ready head of a berth. -/
inductive Head where
  /-- The next operation of the berth's open recompute segment, ahead of its stream head (R121). -/
  | segment (d : List Byte)
  | stream (d : List Byte)
  | engine (e : EngPass)
  deriving DecidableEq, Repr

/-- Any SHELF domain, HARBOUR or the device is in reset (R515, R516). -/
def shelfInReset (s : State) : Bool := [0, 1, 2, 3, 4, 0x3F].any (inReset s)

/-- The array issues: no fault, issue_en set, awake, no stop, no reset (R52, R63, R65, R230, R489). -/
def shelfRuns (s : State) : Bool :=
  !s.shelf.faulted && !s.shelf.stackStop && rdb s SHF_CTL_issue_en && !s.pwr.asleep && !stopping s && !s.pwr.tripped && !shelfInReset s

/-- The scheduler may start an operation. -/
def shelfFree (s : State) : Bool :=
  shelfRuns s && !rdb s SHF_CTL_pause_all && s.shelf.running.isNone && s.shelf.heldDone.isNone

/-- A merge waits until the reduce of its slot has read F (R157): while that reduce is queued in the internal channel of the berth
for a step that is not after the merge's. -/
def mergeWaits (s : State) (e : EngPass) : Bool :=
  e.code = 0x21 && (match mget s.snd.slots e.slot with
    | some f =>
      (match f.lastRef with
      | some r => r.toNat ≤ e.step.toNat
      | none => false)
      && (match mget s.lsh.chans (16 * f.berth + 64) with
        | some x => x.queue.any fun d => (parseColl d).layer = e.slot
        | none => false)
    | none => false)

/-- The pass belongs to an update: UPD passes, and SND_COV of a slot of kind 2 or 3 (R137, R173). -/
def updatePass (s : State) (e : EngPass) : Bool :=
  e.code ≥ 0x28 || (e.code = 0x20 && (match fsOf s e.slot with
    | some f => 2 ≤ f.kind
    | none => false))

/-- The engine head may start: run bits (R157, R195), merges. -/
def engReady (s : State) (e : EngPass) : Bool :=
  if 0x22 ≤ e.code && e.code ≤ 0x25 then rdb s SLV_CTL_run
  else if updatePass s e then rdb s UPD_CTL_run
  else !mergeWaits s e

/-- The tap of a descriptor takes part: set, and SND_CTL.tap_en set. -/
def tapOn (s : State) (o : Op) : Bool := o.tapSel ≠ 0 && o.opcode ≠ 0x3F && rdb s SND_CTL_tap_en

/-- Room for a staged operand in the berth's quota and partition (R132, R205): none, quota, or partition missing. -/
def stageRoom (s : State) (b : Nat) (o : Op) (fd : FsD) : Nat :=
  let len := stageLen (sampled o fd.shift).length o.k (tapWide o)
  let have_ := stagedBytes s b
  if have_ + len > rd s (SND_STAGE_QUOTA_mib.at b) * 2 ^ 20 then 1
  else if cdiv (have_ + len) pageSize - cdiv have_ pageSize > freeT1 s b then 2 else 0

/-- A fetched tapping operation waits for staging room (R132). -/
def tapWaits (s : State) (b : Nat) (o : Op) : Bool :=
  fget s.shelf.fetched b && tapOn s o && (match fsOf s o.tapSlot with
    | some fd => stageRoom s b o fd ≠ 0
    | none => false)

/-- The head of a berth's stream that may be picked: the next operation of an open segment, which waits on no event slot (R122), or
the queue's head once its event slot allows it and, where it waits for staging, room has come. Other berths may be picked between the
operations of a segment, and the berth's own pause and enable bits apply to it (DEDUCED, log 200). -/
def streamHead (s : State) (b : Nat) : Option Head :=
  if fget s.shelf.halted b then none
  else match fget s.shelf.segment b, fget s.shelf.streams b with
    | d :: _, _ => some (.segment d)
    | [], d :: _ =>
      if slotReady s b (parseOp d).waitSlot (parseOp d).waitCount && !tapWaits s b (parseOp d) then some (.stream d) else none
    | [], [] => none

/-- The ready head of a berth, alternating by R55. -/
def headOf (s : State) (b : Nat) : Option Head :=
  if !rdb s (SHF_BERTH_CTL_enable.at b) || rdb s (SHF_BERTH_CTL_pause.at b) then none
  else
    let st := streamHead s b
    let en := match fget s.shelf.engines b with
      | e :: _ => if engReady s e then some (Head.engine e) else none
      | [] => none
    match st, en with
    | some h, some g => if fget s.shelf.lastEngine b = some false then some g else some h
    | some h, none => some h
    | none, g => g

/-- Cost of a head by R46 or R47. -/
def costOf (s : State) : Head → Nat
  | .segment d => headCost s d
  | .stream d => headCost s d
  | .engine e => e.cost

/-- Berths in the order of the scan of R53. -/
def scanOrder (s : State) : List Nat := (List.range 4).map fun i => (s.shelf.lastServed + i) % 4

/-- weight · quantum of a berth. -/
def berthShare (s : State) (b : Nat) : Nat := rd1 s (SHF_BERTH_CTL_weight.at b) * rd1 s SHF_QUANTUM

/-- Rounds of replenishment that give a deficit above 0. -/
def roundsFor (s : State) (b : Nat) : Nat :=
  let d := fget s.shelf.deficit b
  if d > 0 then 0 else cdiv (1 - d).toNat (berthShare s b)

/-- The pick among candidate berths (R53): the scan, after as many replenishments as make some berth positive. -/
def pickBerth (s : State) (cands : List Nat) : State × Option Nat :=
  match cands with
  | [] => (s, none)
  | c :: cs =>
    let n := cs.foldl (fun k b => min k (roundsFor s b)) (roundsFor s c)
    let s := if n = 0 then s else foldS (fun s b => modShelf s fun x => { x with
      deficit := fmod x.deficit b fun d => min (d + (n * berthShare s b : Nat)) (2 * berthShare s b : Nat) }) s cands
    (s, (scanOrder s).find? fun b => b ∈ cands && fget s.shelf.deficit b > 0)

/-- Filler berth. -/
def isFiller (s : State) (b : Nat) : Bool := rdb s (SHF_BERTH_CTL_mode.at b)

/-- A berth's queues are empty. -/
def queuesEmpty (s : State) (b : Nat) : Bool := (fget s.shelf.streams b).isEmpty && (fget s.shelf.engines b).isEmpty

/-- A berth whose queues are both empty has deficit 0, as the scheduler finds when the array is free (R54, R56). -/
def restDeficits (s : State) : State :=
  if shelfFree s then
    foldS (fun s b => if queuesEmpty s b then modShelf s fun x => { x with deficit := fset x.deficit b 0 } else s) s berths
  else s

/-- The berth that R53 picks. -/
def choose (s : State) : State × Option Nat :=
  let ready := berths.filter fun b => (headOf s b).isSome
  let p := ready.filter fun b => !isFiller s b
  if !p.isEmpty then pickBerth s p
  else
    let f := ready.filter (isFiller s)
    let waiting := berths.any fun b => !isFiller s b && !queuesEmpty s b
    let f := if waiting then f.filter fun b => match headOf s b with
        | some h => costOf s h ≤ rd s SHF_FILL_CAP
        | none => false
      else f
    pickBerth s f

/-! ### Fetch (R41, R119, R121, R124, R131, R132) -/

/-- Charge cycles to a berth's deficit. -/
def charge (s : State) (b n : Nat) : State := modShelf s fun x => { x with deficit := fmod x.deficit b fun d => d - (n : Int) }

/-- Sampled tokens and their rows (R130, R132). -/
def tapRows (s : State) (o : Op) (fd : FsD) : List (List W32) :=
  let x := loadAll s o
  (sampled o fd.shift).map fun p =>
    (List.range o.k).map fun kk => if o.tapSel = 1 then aElem o x p.1 p.2 kk else bElem o x p.1 kk p.2

/-- Reject a fetched descriptor (R42), recording a tap rejection of R131. -/
def rejectOp (s : State) (b : Nat) (o : Op) (d : List Byte) (err : Nat) : State :=
  let c := if err ≠ 8 then 0 else if tapCause s b o = 1 then 1 else if o.maskMode ≠ 0 then 0 else tapCause s b o
  let s := if c = 0 then s
    else wrs (wrOr s SND_IRQ_STAT_tap_reject 1) [(SND_ERR_slot, o.tapSlot), (SND_ERR_cause, c), (SND_ERR_berth, b)]
  haltStream s b err o.seq (some d)

/-- A dropped operand of a fetched descriptor. -/
def droppedOf (s : State) (o : Op) : Option Hdl := (opHandles o).find? (isDropped s)

/-- Allocate fresh pages for a dropped tensor and open its segment, take a victim for it, wait, or halt (R121, R124). The operands of
the consumer itself are pinned by its fetch (R119), so none of them is taken. -/
def beginSegment (s : State) (b : Nat) (d : List Byte) (h : Hdl) : State :=
  match objOf s h with
  | none => s
  | some x =>
    if !x.dropped then dropObject s b (hObj h)
    else if x.pages ≤ freeT2 s b then
      let s := modObj s b (hObj h) fun x => { x with dropped := false, tier := 2, moved := [] }
      modShelf s fun y => { y with
        segment := fset y.segment b x.segment, segStep := fset y.segStep b x.segStep, segSeed := fset y.segSeed b x.segSeed
        segObject := fset y.segObject b (hObj h) }
    else if x.pages ≤ quotaT2 s b then s
    else match nextVictim s b with
      | some v => if rdb s PGR_CTL_run && s.mem.moves.length < 16 then takeVictim s b v else s
      | none => if s.mem.moves.any fun m => m.berth = b && m.kind = 1 then s else haltStream s b 0x05 (parseOp d).seq (some d)

/-- Put an operation on the array: mask read, cost by cause (R46–R48, R59, R111). -/
def launch (s : State) (b : Nat) (d : List Byte) (inSeg : Bool) (tap : Option Nat) : State :=
  let o := parseOp d
  let mask := if o.maskMode = 0 then ([], false) else readH s o.hmask 0 (cdiv (maskBits o) 8)
  let s := if o.maskMode ≠ 0 then noteRead s o.hmask 0 (cdiv (maskBits o) 8) else s
  let sp := packOf (rdb s SHF_CTL_auto_pack) o.pack o.m o.n
  let c := opCost o sp (wavesRun o sp mask.1)
  let r : RunOp :=
    { berth := b, engine := false, filler := isFiller s b, desc := d, pass := ⟨0, 0, 0, 0, 0, 0⟩
      seed := if inSeg then fget s.shelf.segSeed b else fget s.num.seeds b
      step := if inSeg then fget s.shelf.segStep b else fget s.upd.steps b
      mask := mask.1, maskBad := mask.2, active := c.1, fixed := c.2.1, turn := c.2.2, cost := c.1 + c.2.1 + c.2.2, tap := tap
      segment := inSeg, fdesc := [], factor := [] }
  let s := endFillRun s
  let s := modShelf s fun x => { x with
    running := some r, lastServed := b, lastEngine := fset x.lastEngine b (some false)
    lastInfo := (b, false, isFiller s b, o.seq, o.layer, o.opcode) }
  foldS touch s (opHandles o)

/-- The stream head leaves its queue. -/
def popHead (s : State) (b : Nat) : State :=
  leaveWindow (modShelf s fun x => { x with streams := fmod x.streams b (·.tail), fetched := fset x.fetched b false }) b

/-- Start a fetched stream head, with its staging captured where it taps (R130–R132). Without room it waits, and a full partition is
noted. -/
def startHead (s : State) (b : Nat) (d : List Byte) : State :=
  let o := parseOp d
  match (if tapOn s o then fsOf s o.tapSlot else none) with
  | none => launch (popHead s b) b d false none
  | some fd =>
    match stageRoom s b o fd with
    | 0 =>
      let id := s.snd.nextId
      let st : Stage := ⟨id, b, o.tapSlot, fget s.upd.steps b, tapWide o, tapRows s o fd, fd.nb⟩
      let s := modSnd s fun x => { x with stages := x.stages ++ [st], nextId := id + 1 }
      launch (popHead s b) b d false (some id)
    | 2 => wrOr s HBR_IRQ_STAT_part_full 1
    | _ => s

/-- Fetch the stream head of a picked berth: checked once (R41), then pinned until it starts (R119). A demotion in flight of a page
that it names is cancelled, the T2 copy standing (R119, R231). -/
def fetchHead (s : State) (b : Nat) (d : List Byte) : State :=
  let o := parseOp d
  let err := if fget s.shelf.fetched b then 0 else opError s b o false
  if err ≠ 0 then rejectOp s b o d err
  else
    let s := modShelf s fun x => { x with fetched := fset x.fetched b true }
    match droppedOf s o with
    | some h => beginSegment (foldS keepResident s (opHandles o)) b d h
    | none =>
      let r := resident s (opHandles o)
      if r.2 && !expandWaits r.1 o then startHead r.1 b d else r.1

/-- The next operation of a berth's recompute segment (R121, R122). One that can no longer run halts the stream, and the tensor is
dropped again. -/
def startSegment (s : State) (b : Nat) (d : List Byte) : State :=
  let o := parseOp d
  let err := opError s b o true
  if err ≠ 0 then
    let s := dropObject s b (fget s.shelf.segObject b)
    haltStream (modShelf s fun x => { x with segment := fset x.segment b [] }) b err o.seq (some d)
  else
    let r := resident s (opHandles o)
    if r.2 && !expandWaits r.1 o then launch (modShelf r.1 fun x => { x with segment := fmod x.segment b (·.tail) }) b d true none else r.1

/-- The live factor blocks that a product pass works on, read when it starts (R173): the slot's descriptor and the blocks, with read
errors and finiteness noted. Nothing for other passes. -/
def factorAtStart (s : State) (b : Nat) (e : EngPass) : State × List Byte × List Mat :=
  if e.code ≠ 0x28 && e.code ≠ 0x29 then (s, [], [])
  else match shardOf s e.slot with
    | none => (s, [], [])
    | some sh =>
      let d := parseSh sh.desc
      let slot := if e.code = 0x28 then d.slotL else d.slotR
      match (mget s.snd.slots slot).bind (·.desc) with
      | none => (s, [], [])
      | some fdesc =>
        let ps := (passBlocks (parseFs fdesc) e.block).map (liveBlock s slot)
        let s := foldS (fun s (p : Mat × Hdl × Nat × Nat × Bool) =>
          noteFinite (faultIf p.2.2.2.2 s b 0x03 p.2.1 p.2.2.1 p.2.2.2.1) e.slot (matFinite p.1)) s ps
        (s, fdesc, ps.map (·.1))

/-- Start an engine pass. It has no op_seq: SHF_CUR_OP and a fault record read 0 for it (DESIGN CHOICE, log 177). -/
def startPass (s : State) (b : Nat) (e : EngPass) : State :=
  let r := resident s (passHandles s b e)
  let s := r.1
  if !r.2 then s
  else
    let layer := if e.code < 0x28 then ((fsOf s e.slot).map (·.layer)).getD 0 else ((shardOf s e.slot).map fun x => (parseSh x.desc).layer).getD 0
    let (s, fdesc, factor) := factorAtStart s b e
    let r : RunOp :=
      { berth := b, engine := true, filler := isFiller s b, desc := [], pass := e, seed := fget s.num.seeds b
        step := fget s.upd.steps b, mask := [], maskBad := false, active := e.cost - 160, fixed := min e.cost 160, turn := 0
        cost := e.cost, tap := none, segment := false, fdesc := fdesc, factor := factor }
    let s := endFillRun s
    modShelf s fun x => { x with
      engines := fmod x.engines b (·.tail), running := some r, lastServed := b, lastEngine := fset x.lastEngine b (some true)
      lastInfo := (b, true, isFiller s b, 0, layer, e.code) }

/-- Merges that wait for a reduce are noted (R157). -/
def noteMergeWait (s : State) : State :=
  if berths.any fun b => match fget s.shelf.engines b with
    | e :: _ => mergeWaits s e
    | [] => false
  then wrOr s SND_IRQ_STAT_merge_wait 1 else s

/-- OP_START: the scheduling decision at an operation boundary, after idle cycles by cause (R53–R56, R59). -/
def execOpStart (idle : CauseCycles) (s : State) : Host.Outcome State Fault Refusal :=
  .next <|
    let s := noteIdle s idle
    if !shelfFree s then s
    else
      let s := noteMergeWait s
      match choose (restDeficits s) with
      | (s, none) => s
      | (s, some b) =>
        match headOf s b with
        | some (.segment d) => startSegment s b d
        | some (.stream d) => fetchHead s b d
        | some (.engine e) => startPass s b e
        | none => s

/-! ### Completion (R44, R45, R58, R96, R114–R116, R133, R589) -/

/-- The SND_COV passes of a staged operand, one for each block, in ascending order (R133). -/
def queueCov (s : State) (b id : Nat) : State :=
  match s.snd.stages.find? fun st => st.id = id with
  | none => s
  | some st =>
    match fsOf s st.slot with
    | none => modStages s b (·.filter fun y => y.id ≠ id)
    | some fd =>
      let n := st.rows.length
      let s := count s (0x0E00 + b) n
      let s := modFs s st.slot fun f => { f with tokens := f.tokens + n }
      foldS (fun s u => pushPass s b ⟨0x20, st.slot, u, id, covCost (fd.e u) n st.wide, st.step⟩) s (List.range fd.nb)

/-- Post the layer-finished trigger of a completed operation (R114, R115, R190). -/
def postTrigger (s : State) (b : Nat) (o : Op) : State :=
  if o.layerLast && !(o.layer ∈ fget s.shelf.triggered b) then
    modShelf s fun x => { x with
      triggers := fmod x.triggers b (· ++ [⟨b, o.layer, fget s.upd.steps b, o.hd⟩])
      triggered := fmod x.triggered b (o.layer :: ·), posted := fmod x.posted b (· + 1) }
  else s

/-- Operations completed, modulo 2^16 (R66): host operations and engine passes (DESIGN CHOICE, log 52). -/
def doneCount (s : State) (b : Nat) : State := modShelf s fun x => { x with completed := fmod x.completed b (· + 1) }

/-- An operation completes: staging handed over, signal, count, trigger, event. `failed` ends it with DEVICE_FAULT (R589). -/
def finishOp (s : State) (r : RunOp) (failed : Bool) : State :=
  let o := parseOp r.desc
  let b := r.berth
  let s := match r.tap with
    | some id => queueCov s b id
    | none => s
  let s := if o.sigEn then bumpSlot s b o.sigSlot 1 else s
  let s := postTrigger (doneCount s b) b o
  if o.event && !failed then event s b 0x0001 stOK o.seq [] else s

/-- The trigger queue of a berth is full for the operation's trigger (R116). -/
def triggerBlocked (s : State) (b : Nat) (o : Op) : Bool :=
  o.layerLast && !(o.layer ∈ fget s.shelf.triggered b) && (fget s.shelf.triggers b).length ≥ 1024

/-- The running operation leaves the array: its cycles counted and charged. Those of a recompute segment count as ACTIVE_STREAM,
the fixed and turn-buffer ones among them (R121). -/
def leaveArray (s : State) (r : RunOp) (stalls : CauseCycles) : State :=
  let s := if r.segment then addActive s r.berth 0 (r.active + r.fixed + r.turn)
    else addCause (addCause (addActive s r.berth (if r.engine then 1 else 0) r.active) 2 r.fixed) 8 r.turn
  let s := addCauses s stalls
  let s := charge s r.berth (r.cost + allCycles stalls)
  modShelf s fun x => { x with running := none }

/-- Errors of an operation: every bad codeword logged, the step flag, OP_FAULT (R225, R589). -/
def opFaults (s : State) (b : Nat) (o : Op) (bad : List Nat) (tier : Nat) : State :=
  let s := foldS (fun s a => noteUe s a false) s bad
  opFault (setFlag s b) b o.seq 0x01 tier

/-- Carry out an operation's writes; the result says whether it failed (R45, R111, R225). -/
def retireOp (s : State) (r : RunOp) : State × Bool :=
  let o := parseOp r.desc
  if r.maskBad then (opFaults s r.berth o [] (tierAt s (addrOf o.hmask)), true)
  else
    let cens := o.census && !r.segment && rdb s NUM_CTL_census_en && o.opcode ≠ 0x3F
    let out := compute s o (packOf (rdb s SHF_CTL_auto_pack) o.pack o.m o.n) r.mask r.seed r.step cens
    let sp := packOf (rdb s SHF_CTL_auto_pack) o.pack o.m o.n
    let s := noteCoded (noteCoded s r.berth o sp r.mask true) r.berth o sp r.mask false
    let w := writeRuns s o.hd out.writes
    let s := if cens then census w.1 r.berth o.layer o.fd out.counts else w.1
    let s := if r.segment || o.opcode = 0x3F then s
      else modObj s (hBerth o.hd) (hObj o.hd) fun x => { x with segStep := r.step, segSeed := r.seed }
    if out.failed || w.2 then
      (opFaults s r.berth o (out.bad.map (·.2)).eraseDups (if out.failed then out.tier else tierAt s (addrOf o.hd)), true)
    else (s, false)

/-- OP_COMPLETE: the running host operation ends, with its stall cycles by cause. -/
def execOpComplete (stalls : CauseCycles) (s : State) : Host.Outcome State Fault Refusal :=
  .next <|
    match s.shelf.running with
    | none => s
    | some r =>
      if r.engine || !shelfRuns s || expandWaits s (parseOp r.desc) then s
      else
        let w := retireOp (leaveArray s r stalls) r
        let s := w.1
        if (berthOf s r.berth).closing then clearJob (doneCount s r.berth) r.berth
        else if r.segment then s
        else if triggerBlocked s r.berth (parseOp r.desc) then
          modShelf s fun x => { x with heldDone := some { r with maskBad := w.2 } }
        else restDeficits (finishOp s r w.2)

/-- TRIGGER_HOLD_RELEASE: the held completion goes through once an entry is free; its cycles count as OUTPUT (R116). -/
def execTriggerHoldRelease (cycles : Nat) (s : State) : Host.Outcome State Fault Refusal :=
  .next <|
    match s.shelf.heldDone with
    | none => s
    | some r =>
      if triggerBlocked s r.berth (parseOp r.desc) then s
      else
        let s := charge (addCause s 0xA cycles) r.berth cycles
        let s := modShelf s fun x => { x with heldDone := none }
        if (berthOf s r.berth).closing then clearJob (doneCount s r.berth) r.berth else restDeficits (finishOp s r r.maskBad)

/-- What an engine pass writes (R133, R135, R154, R175). -/
def passEffect (s : State) (r : RunOp) : State :=
  let b := r.berth
  let e := r.pass
  if e.code = 0x20 then doCov s b e
  else if e.code = 0x21 then doMerge s b e
  else if e.code ≤ 0x25 then s
  else doUpdPass s b e r.fdesc r.factor

/-- ENGINE_PASS_COMPLETE: the running engine pass ends, and its engine moves on. -/
def execEnginePassComplete (stalls : CauseCycles) (s : State) : Host.Outcome State Fault Refusal :=
  .next <|
    match s.shelf.running with
    | none => s
    | some r =>
      if !r.engine || !shelfRuns s then s
      else
        let s := passEffect (doneCount (leaveArray s r stalls) r.berth) r
        if (berthOf s r.berth).closing then clearJob s r.berth
        else restDeficits (if r.pass.code = 0x20 then s else slvKick s r.berth)

/-! ### Tile faults (R62–R64, R230) -/

/-- Ask for a crash record of a domain (R520). -/
def queueCrash (s : State) (d : Nat) : State := { s with rst := { s.rst with crashing := s.rst.crashing ++ [d] } }

/-- The work of the array fails (R63): the running operation with DEVICE_FAULT, every queued one with OUT_OF_SERVICE. -/
def failWork (s : State) (tier : Nat) : State :=
  let fail (s : State) (r : RunOp) : State :=
    opFault (setFlag s r.berth) r.berth (if r.engine then 0 else (parseOp r.desc).seq) 0x04 tier
  let s := match s.shelf.running with
    | some r => fail s r
    | none => s
  let s := match s.shelf.heldDone with
    | some r => fail s r
    | none => s
  let s := foldS clearWindow s berths
  modShelf s fun x => { x with
    running := none, heldDone := none, segment := fourOf [], fetched := fourOf false, streams := fourOf [], engines := fourOf [] }

/-- op_seq of the operation on the array, 0 when none is. -/
def runningSeq (s : State) : W32 :=
  match s.shelf.running with
  | some r => if r.engine then 0 else (parseOp r.desc).seq
  | none => 0

/-- The compute die of a tile (R34, R588). -/
def tileDie (tile : Nat) : Nat := tile % 32 / 16 + 2 * (tile / 512)

/-- A tile fault (R63): cause 0 self-test, 1 parity, 2 tile store, 3 watchdog. -/
def tileFault (s : State) (tile cause : Nat) : State :=
  if s.shelf.faulted then s
  else
    let seq := runningSeq s
    let s := wrs (wr s SHF_FAULT_tile tile) [(⟨SHF_FAULT.off, cause, cause, 4⟩, 1)]
    let s := failWork s (if cause = 2 then 0x00 else 0xFF)
    let s := modShelf s fun x => { x with faulted := true, faultOp := seq, faultTick := s.lh.tick }
    let s := wrOr s SHF_IRQ_STAT_tile_fault 1
    let s := if cause = 2 then logError s (tileDie tile) 0x02 0 (BitVec.ofNat 64 tile) 0xFF
      else if cause = 3 then logError s (tileDie tile) 0x08 0 (BitVec.ofNat 64 tile) 0xFF else s
    leaveService (queueCrash s (tileDie tile)) 0x02 (tileDie tile)

/-- The tile has a block to compute in some wave of the running operation; an engine pass may use any. -/
def tileWorks (s : State) (tile : Nat) : Bool :=
  match s.shelf.running with
  | none => false
  | some r =>
    let o := parseOp r.desc
    let sp := packOf (rdb s SHF_CTL_auto_pack) o.pack o.m o.n
    r.engine || !isMM o || (waveOrder o sp r.mask).any fun w => (waveBlocks o sp w).any fun x => x.1 = tile

/-- TILE_FAULT of a tile. -/
def execTileFault (tile cause : Nat) (s : State) : Host.Outcome State Fault Refusal := .next <| tileFault s tile cause

/-- WAVE_WATCHDOG_EXPIRY: a tile has not completed a wave within SHF_WDOG cycles of its last neighbour (R62). -/
def execWaveWatchdogExpiry (tile cycles : Nat) (s : State) : Host.Outcome State Fault Refusal :=
  .next <| if tileWorks s tile && cycles ≥ rd s SHF_WDOG_cycles then tileFault s tile 3 else s

/-- TILE_STORE_CE: corrected tile-store errors (R64). -/
def execTileStoreCe (count_ : Nat) (s : State) : Host.Outcome State Fault Refusal :=
  .next <|
    let old := rd s SHF_CE_COUNT_count
    let s := wr s SHF_CE_COUNT_count (satAdd 65535 old count_)
    if reaches old (rd s SHF_CE_COUNT_count) (rd s SHF_CE_THRESH_thresh) then
      raiseReplace (logError (wrOr s SHF_IRQ_STAT_ce_thresh 1) 0 0x01 0 0 0xFF) 0
    else s

/-- HBM_STACK_FAIL: a stack fails without sparing; the module acts as at a tile fault, with the stack in HBM_STAT (R230). The registers
and the record of a tile fault stay as they are, for a tile fault to come (DESIGN CHOICE, log 177). -/
def execHbmStackFail (stack : Nat) (s : State) : Host.Outcome State Fault Refusal :=
  .next <|
    if bit (rd s HBM_STAT_failed) stack then s
    else
      let ok := rd s HBM_STAT_ok
      let s := wrs s [(HBM_STAT_failed, rd s HBM_STAT_failed ||| 2 ^ stack), (HBM_STAT_ok, ok - 2 ^ stack * b2n (bit ok stack))]
      let s := wrOr (failWork s 0xFF) HBM_IRQ_STAT_stack_fail 1
      let s := modShelf s fun x => { x with stackStop := true }
      leaveService (queueCrash s 5) 0x03 5

end Sys2Proof.Machine
end

