-- ==== Sys2Proof/Machine/Session.lean ====
section
/-!
DEFINITION. Sessions of a berth (R400–R412, R423–R427): DEV_INFO, HELLO, BERTH_CLOSE, REKEY, PING, EVENT_ACK, the lease, event
resends, and packets that Quay refuses.
-/
namespace Sys2Proof.Machine
open Sys2Proof

/-! ### Closing a berth (R58, R401, R427, R587) -/

/-- Answer every command of a berth in flight with STALE_GENERATION. -/
def staleAll (s : State) (b : Nat) : State :=
  foldS (fun s (p : W32 × Nat) => finish s b p.2 p.1 stSTALE 0 []) s (berthOf s b).inflight

/-- Erase the key slots of a berth's session. -/
def dropKeys (s : State) (b : Nat) : State := clearKeySlot (clearKeySlot s (2 * b)) (2 * b + 1)

/-- The berth closes: commands in flight answered, keys erased, the session gone; its job is cleared at once, or when the operation
that holds the array has completed. -/
def closeBerth (s : State) (b : Nat) (keepAdmission : Bool) : State :=
  if (berthOf s b).state = 0 then
    if keepAdmission then s else modBerth s b fun q => { q with admitted := none, admin := false }
  else
    let s := dropKeys (staleAll s b) b
    let busy := holdsArray s b
    let s := modBerth s b fun q =>
      { Berth.reset with
        admitted := if keepAdmission then q.admitted else none, admin := keepAdmission && q.admin, closing := busy }
    let s := match s.clf.walk with
      | some w => if w.berth = b then { s with clf := { s.clf with walk := none } } else s
      | none => s
    if busy then { s with shelf := { s.shelf with streams := fset s.shelf.streams b [], engines := fset s.shelf.engines b [] } }
    else clearJob s b

/-- BERTH_CLOSE (0x0202): answered OK, then the berth closes. -/
def execBerthClose (h : EcpHdr) (s : State) : Host.Outcome State Fault Refusal :=
  .next <|
    let s := ecpRun s h 0x0202 [] fun s => (modBerth s h.berth fun q => { q with closing := true }, .ok [])
    let q := berthOf s h.berth
    if h.berth < 4 && q.closing && q.state = 1 then closeBerth s h.berth true else s

/-! ### DEV_INFO (R420) -/

/-- MAC address of an interface (R388). -/
def macOf (i : Nat) : Nat := (Config.baseMac.toNat + i) % 2 ^ 48

/-- Digits of the part number. -/
def partText : Variant → List Byte
  | .kmz4100 => [0x4B, 0x4D, 0x5A, 0x2D, 0x34, 0x31, 0x30, 0x30]
  | .kmz4110 => [0x4B, 0x4D, 0x5A, 0x2D, 0x34, 0x31, 0x31, 0x30]
  | .kmz4120 => [0x4B, 0x4D, 0x5A, 0x2D, 0x34, 0x31, 0x32, 0x30]

/-- Result data of DEV_INFO: the part number as text (DESIGN CHOICE, log 45). -/
def devInfoData (s : State) : List Byte :=
  slice (partText s.variant) 0 16 ++ toBe 4 (devCap s.variant) ++ toBe 2 s.sec.epoch.toNat ++ toBe 2 1 ++ toBe 2 Config.interfaceMinor
    ++ toBe 16 Config.serial.toNat
    ++ (if s.sec.life = 4 then zeros 32 else toBe 32 (Config.sha3 Config.identityKey).toNat)
    ++ (List.range 4).flatMap (fun i => toBe 6 (macOf i)) ++ slice Config.firmwareVersions 0 16

/-- A BUSY that is not authenticated, for a core that does not run. -/
def unauthBusy (s : State) (h : EcpHdr) (op : Nat) : State :=
  let n := mgetD s.quay.unauth h.iface 0
  if n < 16 then
    let s := { s with quay := { s.quay with unauth := mset s.quay.unauth h.iface (n + 1) } }
    let s := emit s (.status h.iface h.peer op h.seq h.berth false stBUSY (busyTicks s) true 0 [])
    if h.berth < 4 then count (count s (0x1C01 + 0x10 * h.berth) 1) (0x1C02 + 0x10 * h.berth) 1 else s
  else discardPacket s

/-- DEV_INFO past step 1 of R409. -/
def devInfo (s : State) (h : EcpHdr) : State :=
  if h.version ≠ 1 then unauthStatus (wrOr s CMD_IRQ_STAT_version 1) h 0x0101 stVERSION 0 []
  else if h.berth ≥ 4 && h.berth ≠ 0xFF then discardPacket s
  else if s.sec.life = 4 then unauthStatus s h 0x0101 stOOS 0 []
  else if !coreServes s 6 then unauthBusy s h 0x0101
  else if h.extra then unauthStatus s h 0x0101 stBAD 0 []
  else unauthStatus s h 0x0101 stOK 0 (devInfoData s)

/-- DEV_INFO (0x0101), by L6, for a berth or for the device. -/
def execDevInfo (h : EcpHdr) (s : State) : Host.Outcome State Fault Refusal :=
  .next <| if !intakeUp s h.iface then s else devInfo (frameIn s h.iface) h

/-! ### HELLO and REKEY (R402–R407) -/

/-- The HELLO payload, and the header bytes that its signature covers. -/
def helloPayload (major minor : Nat) (encap key sig : List Byte) : List Byte :=
  toBe 2 major ++ toBe 2 minor ++ zeros 4 ++ encap ++ key ++ sig
def helloHeader (h : EcpHdr) (len : Nat) : List Byte :=
  toBe 2 0x4B56 ++ toBe 1 h.version ++ toBe 1 0 ++ toBe 1 h.berth ++ toBe 1 h.plane ++ toBe 2 0x0201 ++ toBe 4 h.seq.toNat
    ++ toBe 2 h.epoch ++ toBe 2 len

/-- The 40 derived bytes (R405). -/
def deriveKey (s : State) (b : Nat) (secret payload : List Byte) (keyEpoch : Nat) : List Byte :=
  Config.shake256 (secret ++ toBe 32 (Config.sha3 payload).toNat ++ toBe 1 b ++ toBe 2 s.sec.epoch.toNat ++ toBe 1 keyEpoch) 40

/-- Load derived bytes into a berth's key slot; answers the host salt. -/
def loadBerthKey (s : State) (slot keyEpoch : Nat) (d : List Byte) : State × W32 :=
  (putKey s slot (BitVec.ofNat 256 (leNat (slice d 0 32))) (BitVec.ofNat 32 (beNat (slice d 36 4))) 0 3 keyEpoch,
    BitVec.ofNat 32 (beNat (slice d 32 4)))

/-- Send every queued event of a berth. -/
def sendEvents (s : State) (b : Nat) : State :=
  let s := foldS (fun s e => sendEvent s b e) s (berthOf s b).events
  modBerth s b fun q => { q with evTick := s.lh.tick }

/-- A HELLO that passes: a new key, the berth OPEN, the answer kept, queued events sent. -/
def helloOk (s : State) (h : EcpHdr) (minor : Nat) (encap payload : List Byte) : State :=
  let b := h.berth
  let n := s.free
  let s := dropKeys (useFree s) b
  let ct := Config.kemCiphertext encap n
  let r := loadBerthKey s (2 * b) 0 (deriveKey s b (Config.kemSecret encap n) payload 0)
  let s := r.1
  let ans := toBe 2 1 ++ toBe 2 (min minor Config.interfaceMinor) ++ toBe 2 s.sec.epoch.toNat ++ toBe 2 0
    ++ toBe 4 (rd s CMD_LEASE) ++ slice ct 0 1088 ++ slice Config.identityKey 0 1312
  let data := ans ++ Config.mldsa44Sign (toBe 32 (Config.sha3 payload).toNat ++ ans)
  let s := modBerth s b fun q => { q with
    state := 1, keyEpoch := 0, keySlot := 2 * b, hostSalt := r.2, nextKey := none, rekeyAsked := false
    hello := some (payload, ⟨h.seq, 0x0201, stOK, 0, 0, data⟩), authed := false, iface := h.iface, peer := h.peer
    lastCmd := s.lh.tick }
  let s := { s with eth := { s.eth with opened := true } }
  sendEvents (unauthStatus s h 0x0201 stOK 0 data) b

/-- A HELLO that fails authentication. -/
def helloFail (s : State) (h : EcpHdr) : State :=
  unauthStatus (count (wrOr s CMD_IRQ_STAT_auth_fail 1) (0x1C03 + 0x10 * h.berth) 1) h 0x0201 stAUTH 0 []

/-- Version, admitted identity, signature; then the key is derived and loaded. While requests name the key slot the load waits (R339):
the HELLO is answered BUSY (DEDUCED, log 193). -/
def helloCheck (s : State) (h : EcpHdr) (major minor : Nat) (encapKey hostKey sig payload : List Byte) : State :=
  if major ≠ 1 then
    unauthStatus (wrOr s CMD_IRQ_STAT_version 1) h 0x0201 stVERSION (2 ^ 16 + Config.interfaceMinor % 2 ^ 16) []
  else if (berthOf s h.berth).admitted ≠ some (Config.sha3 hostKey) then helloFail s h
  else if !Config.mldsa44Verify hostKey (helloHeader h payload.length ++ payload.take 2504) sig then helloFail s h
  else if alarmLatched s || swlInReset s || keyPending s (2 * h.berth) ≠ 0 then unauthBusy s h 0x0201
  else helloOk s h minor encapKey payload

/-- HELLO past step 1 of R409: the checks of R403 in order. -/
def helloSteps (s : State) (h : EcpHdr) (major minor : Nat) (encapKey hostKey sig : List Byte) : State :=
  let payload := helloPayload major minor encapKey hostKey sig
  let q := berthOf s h.berth
  if h.version ≠ 1 then unauthStatus (wrOr s CMD_IRQ_STAT_version 1) h 0x0201 stVERSION 0 []
  else if h.berth ≥ 4 then discardPacket s
  else if s.sec.life = 4 then unauthStatus s h 0x0201 stOOS 0 []
  else if !coreServes s (2 + h.berth) || !coreServes s 1 || q.closing then unauthBusy s h 0x0201
  else if h.extra then unauthStatus s h 0x0201 stBAD 0 []
  else match q.hello with
    | some (p, c) =>
      if q.state = 1 && !q.authed && p = payload then unauthStatus s h 0x0201 c.status c.detail c.data
      else helloCheck s h major minor encapKey hostKey sig payload
    | none => helloCheck s h major minor encapKey hostKey sig payload

/-- HELLO (0x0201). -/
def execHello (h : EcpHdr) (major minor : Nat) (encapKey hostKey sig : List Byte) (s : State) : Host.Outcome State Fault Refusal :=
  .next <| if !intakeUp s h.iface then s else helloSteps (frameIn s h.iface) h major minor encapKey hostKey sig

/-- REKEY (0x0203): the next key in the berth's other slot, once no request names it (R339, log 193); the answer is kept. -/
def execRekey (h : EcpHdr) (encapKey : List Byte) (s : State) : Host.Outcome State Fault Refusal :=
  .next <| ecpRun s h 0x0203 [1] fun s =>
    let b := h.berth
    let q := berthOf s b
    let slot := if q.keySlot = 2 * b then 2 * b + 1 else 2 * b
    if q.nextKey.isSome || alarmLatched s || swlInReset s || keyPending s slot ≠ 0 then (s, .busy (busyTicks s))
    else
      let n := s.free
      let e := (q.keyEpoch + 1) % 256
      let payload := match q.hello with
        | some p => p.1
        | none => []
      let ct := slice (Config.kemCiphertext encapKey n) 0 1088
      let r := loadBerthKey (useFree s) slot e (deriveKey s b (Config.kemSecret encapKey n) payload e)
      let s := modBerth r.1 b fun q => { q with
        nextKey := some (e, slot, r.2), rekeyAns := some (h.seq, ⟨h.seq, 0x0203, stOK, 0, 0, ct⟩) }
      (s, .ok ct)

/-! ### PING and events (R420, R425) -/

/-- PING (0x0204): the lease ticks left, after this command has renewed it. -/
def execPing (h : EcpHdr) (s : State) : Host.Outcome State Fault Refusal :=
  .next <| ecpRun s h 0x0204 [] fun s => (s, .ok (toBe 4 (rd s CMD_LEASE - since s (berthOf s h.berth).lastCmd)))

/-- Queue the EVENTS_LOST event once an entry is free. -/
def tellLost (s : State) (b : Nat) : State :=
  let q := berthOf s b
  if q.evLost > 0 && q.events.length < 1024 then
    event (modBerth s b fun q => { q with evLost := 0 }) b 0x00FF stOK 0 (toBe 4 q.evLost)
  else s

/-- EVENT_ACK (0x0205): events up to a sequence leave the queue. -/
def execEventAck (h : EcpHdr) (upTo : W32) (s : State) : Host.Outcome State Fault Refusal :=
  .next <| ecpRun s h 0x0205 [] fun s =>
    let s := modBerth s h.berth fun q => { q with events := q.events.filter (fun e => (upTo - e.seq).toNat ≥ 2 ^ 31) }
    (tellLost s h.berth, .ok [])

/-- EVENT_RESEND of a berth: every unacknowledged event again after CMD_EVT_RTO ticks. -/
def execEventResend (berth : Nat) (s : State) : Host.Outcome State Fault Refusal :=
  .next <|
    let q := berthOf s berth
    if q.state = 1 && !q.events.isEmpty && since s q.evTick ≥ rd1 s CMD_EVT_RTO_ticks then sendEvents s berth else s

/-- The berth becomes DETACHED: its key is gone, everything else stays (R401). -/
def detach (s : State) (b : Nat) : State :=
  modBerth (dropKeys s b) b fun q => { q with state := 2, nextKey := none }

/-- LEASE_EXPIRY of an OPEN berth (R401). -/
def execLeaseExpiry (berth : Nat) (s : State) : Host.Outcome State Fault Refusal :=
  .next <|
    let q := berthOf s berth
    if q.state = 1 && rd s CMD_LEASE ≠ 0 && since s q.lastCmd ≥ rd s CMD_LEASE then
      detach (wrOr s CMD_IRQ_STAT_lease 1) berth
    else s

/-! ### Packets that Quay refuses (R393, R394, R409) -/

/-- The raw packet passes step 1 of R409. -/
def packetOk (udpLen : Nat) (p : List Byte) : Bool :=
  let be (o n : Nat) := beNat (slice p o n)
  p.length = udpLen && 64 ≤ udpLen && be 0 2 = 0x4B56 && bits (be 3 1) 2 1 = 0 && bits (be 3 1) 7 3 = 0
    && allZero (slice p 16 16) && allZero (slice p 45 3) && 64 + be 14 2 = udpLen && be 14 2 ≤ 8888
    && (bits (be 3 1) 0 0 = 1 || (allZero (slice p 32 16) && allZero (p.drop (udpLen - 16))))

/-- ECP_PACKET_INVALID: a packet that fails step 1 is discarded and counted. -/
def execEcpPacketInvalid (iface udpLen : Nat) (packet : List Byte) (s : State) : Host.Outcome State Fault Refusal :=
  .next <| if intakeUp s iface && !packetOk udpLen packet then discardPacket (countFrame s iface false (48 + udpLen)) else s

/-- The opcodes of R420. -/
def knownOpcode (op : Nat) : Bool :=
  op ∈ [0x0101, 0x0201, 0x0202, 0x0203, 0x0204, 0x0205, 0x0301, 0x0302, 0x0303, 0x0304, 0x0305, 0x0306, 0x0307, 0x0308, 0x0401,
    0x0402, 0x0403, 0x0404, 0x0405, 0x0406, 0x0407, 0x0501, 0x0502, 0x0503, 0x0504, 0x0601, 0x0602, 0x0603, 0x0604, 0x0605, 0x0606,
    0x0607, 0x0608, 0x0609, 0x060A, 0x060B, 0x0701, 0x0702, 0x0703, 0x0704, 0x0705, 0x0801, 0x0802, 0x0803, 0x0901, 0x0902, 0x0903,
    0x0904, 0x0905, 0x0A01, 0x0A02, 0x0A03, 0x0A04, 0x0B01, 0x0B02]

/-- UNSUPPORTED_OPCODE: step 10 of R409 for an opcode outside R420. -/
def execUnsupportedOpcode (h : EcpHdr) (opcode : Nat) (s : State) : Host.Outcome State Fault Refusal :=
  .next <|
    if knownOpcode opcode then s
    else ecpWith s h opcode fun s =>
      conclude s h opcode (.fin (if outOfService s && !servedOos opcode then stOOS else stUNSUPPORTED) 0 [])

end Sys2Proof.Machine
end

