-- ==== Sys2Proof/Machine/Shingle.lean ====
section
/-!
DEFINITION. Shingle's table slots and its code and decode requests (R309–R328); the formats themselves stand in Codec.
-/
namespace Sys2Proof.Machine
open Sys2Proof

/-- A FREE slot. -/
def TSlot.free : TSlot := { state := 0, version := 0, user := 0, inflight := 0, table := [] }

/-- The table slot of a number. -/
def tslot (s : State) (n : Nat) : TSlot := mgetD s.shg.slots n TSlot.free
/-- Change a table slot. -/
def modTslot (s : State) (n : Nat) (f : TSlot → TSlot) : State := modShg s fun g => { g with slots := mset g.slots n (f (tslot s n)) }

/-- The lowest FREE slot. -/
def freeTslot (s : State) : Option Nat := (List.range 64).find? fun n => (tslot s n).state = 0

/-- A slot whose owner releases it: RETIRING, and FREE at once when no block is in flight (R319, R320). -/
def retireTslot (s : State) (n : Nat) : State :=
  modTslot s n fun t => if t.inflight = 0 then { t with state := 0, user := 0, table := [] } else { t with state := 3 }

/-- A block coded with a slot is released (R320). -/
def releaseBlock (s : State) (n : Nat) : State :=
  let s := modTslot s n fun t => { t with inflight := t.inflight - 1 }
  if (tslot s n).state = 3 then retireTslot s n else s

/-- A code request takes a FREE slot: BUILDING, with the next version (R319). -/
def buildTslot (s : State) (n user : Nat) : State :=
  modTslot s n fun t => { state := 1, version := (t.version + 1) % 16, user := user, inflight := 0, table := [] }

/-- The histogram pass of a slot ends: LIVE with its table (R319, R323). -/
def liveTslot (s : State) (n : Nat) (f : List Nat) : State := modTslot s n fun t => { t with state := 2, table := f }

/-- A table record is loaded into a FREE slot: LIVE, with the version that the record carries (R319, R323). -/
def loadTslot (s : State) (n user : Nat) (bytes : List Byte) : State :=
  modTslot s n fun _ => { state := 2, version := recordVersion bytes, user := user, inflight := 0, table := recordTable bytes }

/-- A request takes a FREE slot: a decode's loads the object's record, once its pages lie in HBM (R202, R319, R323). -/
def takeTslot (s : State) (n : Nat) (r : ShgReq) : State × Bool :=
  if r.decode then
    let q := residentFor s [r.src]
    if q.2 then (loadTslot q.1 n 0 (peek q.1 (addrOf r.src) 640), true) else (q.1, false)
  else (buildTslot s n 2, true)

/-- A new request takes a slot, or waits for one (R320). -/
def queueShg (s : State) (r : ShgReq) : State :=
  match freeTslot s with
  | some n =>
    let q := takeTslot s n r
    modShg q.1 fun g => { g with reqs := g.reqs ++ [if q.2 then { r with slot := some n } else r] }
  | none => modShg (wrOr s SHG_IRQ_STAT_slot_wait 1) fun g => { g with reqs := g.reqs ++ [r] }

/-- The oldest waiting request takes a slot that has become FREE. -/
def grantSlot (s : State) : State :=
  match freeTslot s, s.shg.reqs.findIdx? (fun r => r.slot.isNone) with
  | some n, some i => match s.shg.reqs[i]? with
    | some r =>
      let q := takeTslot s n r
      if q.2 then modShg q.1 fun g => { g with reqs := g.reqs.set i { r with slot := some n } } else q.1
    | none => s
  | _, _ => s

/-- Count an object that Shingle has coded (R341). -/
def countCoded (s : State) (plane bytes : List Byte) : State :=
  let blocks := chunks 4096 plane
  let raw := (List.range blocks.length).filter fun i => fldBits bytes (64 * fld bytes (640 + 4 * i) 4) 1 4 4 = 1
  count (count (count (count s 0x1800 plane.length) 0x1801 bytes.length) 0x1802 blocks.length) 0x1803 raw.length

/-- A format that Shingle codes. -/
def codedFmt (f : Nat) : Bool := f < 4 || (8 ≤ f && f ≤ 10)

/-- The planes of an ordinary object of a format: the plane to code, and the scale plane of a Q format, which stands before its code
plane (R310). -/
def planesOf (fmt : Nat) (bs : List Byte) : List Byte × List Byte :=
  if fmt < 8 then (bs, [])
  else
    let nq := bs.length / (2 + 8 * qBits fmt)
    (slice bs (2 * nq) (nq * 8 * qBits fmt), slice bs 0 (2 * nq))

/-- CODE (R323, R324): handles of the berth, ordinary objects that are not dropped, a destination of policy KEEP or OFFLOAD. -/
def codeStart (s : State) (b : Nat) (seq : W32) (src dst : Hdl) (fmt : Nat) : State × Ans :=
  let badPolicy := match objOf s dst with
    | some o => o.policy > 1
    | none => true
  if !allocated s b src || !allocated s b dst || isDropped s src || isDropped s dst || isCoded s src || isCoded s dst || badPolicy || hView dst ≠ 0
      || !codedFmt fmt then (s, .bad 0)
  else (queueShg s ⟨b, seq, false, src, dst, fmt, none, none⟩, .later)

/-- DECODE (R323): the source is a coded object. -/
def decodeStart (s : State) (b : Nat) (seq : W32) (src dst : Hdl) : State × Ans :=
  let codedSrc := match objOf s src with
    | some o => o.coded && !o.dropped
    | none => false
  if !allocated s b src || !allocated s b dst || isDropped s dst || !codedSrc || hView src ≠ 0 then (s, .bad 0)
  else (queueShg s ⟨b, seq, true, src, dst, 0, none, none⟩, .later)

/-- A code request completes: stored bytes, or the failure that its data meets. -/
def finishCode (s : State) (r : ShgReq) (slot : Nat) : State :=
  let rd := readH s r.src 0 (extent s r.src)
  let pl := planesOf r.fmt rd.1
  let bytes := encodeObject r.fmt slot (tslot s slot).version pl.1 pl.2
  let s := liveTslot s slot (recordTable bytes)
  if rd.2 then finish (noteRead s r.src 0 (extent s r.src)) r.berth 0x0306 r.seq stFAULT 0 []
  else if bytes.length > 2 ^ 38 || bytes.length > extent s r.dst then finish s r.berth 0x0306 r.seq stBAD 0 []
  else
    let w := writeN s r.dst 0 bytes
    if w.2 then finish w.1 r.berth 0x0306 r.seq stFAULT 0 []
    else
      let s := modObj w.1 (hBerth r.dst) (hObj r.dst) fun o => { o with coded := true }
      let s := countCoded s pl.1 bytes
      finish (touch (touch s r.src) r.dst) r.berth 0x0306 r.seq stOK 0 (toBe 8 bytes.length)

/-- A decode request completes: the decoded form written, or DEVICE_FAULT for a failed check, which writes nothing (log 44). Its
blocks are decoded with the slot's table (R321). -/
def finishDecode (s : State) (r : ShgReq) (slot : Nat) : State :=
  let rd := readH s r.src 0 (extent s r.src)
  let fail (s : State) : State := finish s r.berth 0x0307 r.seq stFAULT 0 []
  if rd.2 then fail (noteRead s r.src 0 (extent s r.src))
  else match codedHead rd.1 with
    | none => fail (shgFail s r.berth slot (headCause rd.1, 0))
    | some h =>
      let l := decodeWith (tslot s slot).version (tslot s slot).table h rd.1
      let s := shgReport s r.berth slot (Decoded.ofBlocks (l.map causeOfBlock))
      match joinBlocks l with
      | none => fail s
      | some plane =>
        let out := sidePlane h rd.1 ++ plane
        if out.length > extent s r.dst then finish s r.berth 0x0307 r.seq stBAD 0 []
        else
          let w := writeN s r.dst 0 out
          if w.2 then fail w.1
          else
            let s := modObj w.1 (hBerth r.dst) (hObj r.dst) fun o => { o with coded := false }
            finish (touch (touch s r.src) r.dst) r.berth 0x0307 r.seq stOK 0 []

/-- SHINGLE_REQUEST_COMPLETE: the oldest request that holds a slot ends, and its slot passes through RETIRING to FREE (R323). -/
def execShingleRequestComplete (s : State) : Host.Outcome State Fault Refusal :=
  .next <|
    match s.shg.reqs.find? (fun r => r.slot.isSome) with
    | none => s
    | some r =>
      if !shgRuns s then s
      else if !(residentFor s [r.src, r.dst]).2 then (residentFor s [r.src, r.dst]).1
      else
        let s := (residentFor s [r.src, r.dst]).1
        let n := r.slot.getD 0
        let s := modShg s fun g => { g with reqs := g.reqs.erase r }
        let s := if r.decode then finishDecode s r n else finishCode s r n
        retireTslot s n

/-- The command that a request came with. -/
def ShgReq.opcode (r : ShgReq) : Nat := if r.stream.isSome then 0x0702 else if r.decode then 0x0307 else 0x0306

/-- A reset of the SHINGLE domain (R339): every slot FREE, requests fail with DEVICE_FAULT. Offshore's blocks in flight hold no slot
any more; their packets stand. -/
def resetShingle (s : State) : State :=
  let l := s.shg.reqs
  let s := modShg s fun g => { g with reqs := [], slots := g.slots.map fun p => (p.1, { p.2 with state := 0, user := 0, inflight := 0, table := [] }) }
  let s := { s with ofs := { s.ofs with sessions := berths.foldl (fun q b => fmod q b fun x => x.map fun y => { y with sending := [] }) s.ofs.sessions } }
  foldS (fun s r => finish s r.berth r.opcode r.seq stFAULT 0 []) s l

end Sys2Proof.Machine
end

