-- ==== Sys2Proof/Machine/OfsBase.lean ====
section
/-!
DEFINITION. Offshore's sessions, membership, peers, packets and keys (R346–R348, R361, R365–R380), as far as rounds and transport
share them. Times of packets are in µs; where a step has no µs of its own, ten times its tick (R7).
-/
namespace Sys2Proof.Machine
open Sys2Proof

/-! ### Access -/

/-- Change Offshore's structure. -/
def modOfs (s : State) (f : Offshore → Offshore) : State := { s with ofs := f s.ofs }

/-- The session of a berth, and changing it. -/
def sessOf (s : State) (b : Nat) : Option Session := fget s.ofs.sessions b
def modSess (s : State) (b : Nat) (f : Session → Session) : State :=
  modOfs s fun o => { o with sessions := fmod o.sessions b fun x => x.map f }

/-- A peer of a session, and changing it. -/
def peerAt (s : State) (b p : Nat) : Option OfsPeer :=
  match sessOf s b with
  | some x => mget x.peers p
  | none => none
def modPeer (s : State) (b p : Nat) (f : OfsPeer → OfsPeer) : State := modSess s b fun x => { x with peers := mmod x.peers p f }

/-- Change a stream of a session. -/
def modStream (s : State) (b i : Nat) (f : OfsStream → OfsStream) : State :=
  modSess s b fun x => { x with streams := mmod x.streams i f }

/-- Count an event of a berth's session (R383). -/
def ofsCount (s : State) (b c n : Nat) : State := count s (0x1A00 + 0x10 * b + c) n

/-- Record an event in OFS_ERR with its round and tick (R382, R383). -/
def ofsErr (s : State) (b site cause stream round : Nat) : State :=
  let s := wrs s [(OFS_ERR_site, site), (OFS_ERR_berth, b), (OFS_ERR_cause, cause), (OFS_ERR_stream, stream)]
  modOfs s fun o => { o with lastRound := BitVec.ofNat 32 round, lastTick := s.lh.tick }

/-- The OFFSHORE domain is in reset. -/
def ofsInReset (s : State) : Bool := inReset s 0x15 || inReset s 0x3F

/-- The present time in µs. -/
def usNow (s : State) : Nat := 10 * now s

/-! ### Rounds and membership (R348, R361) -/

/-- The module's current round. -/
def curRound (s : State) (b : Nat) (x : Session) : Nat := (fget s.upd.steps b).toNat / x.p.h

/-- Membership mask of a round: the session's mask with every change of a round up to it. -/
def membersAt (x : Session) (round : Nat) : Nat :=
  let l := sortBy (fun c : Nat × Bool × Nat × Bool => c.2.2.1) (x.changes.filter fun c => c.2.2.1 ≤ round)
  l.foldl (fun m c => if c.2.1 then m ||| 2 ^ c.1 else m - (if bit m c.1 then 2 ^ c.1 else 0)) x.p.members.toNat

/-- Sites of a mask other than the own one. -/
def otherSites (x : Session) (mask : Nat) : List Nat := (List.range 16).filter fun p => bit mask p && p ≠ x.p.site

/-- Number of sites in a mask. -/
def siteCount (mask : Nat) : Nat := ((List.range 16).filter (bit mask)).length

/-- A peer that packets are sent to: up or joining. -/
def reachable (s : State) (b p : Nat) : Bool :=
  match peerAt s b p with
  | some q => q.state = 1 || q.state = 3
  | none => false

/-! ### A peer's record -/

/-- No round-trip sample yet. -/
def Rtt.none : Rtt := { seen := false, srtt := 0, rttvar := 0, rto := 0 }

/-- A new peer at a time in µs and ticks. -/
def newPeer (s : State) (q : OfsPeerParam) (state us : Nat) : OfsPeer :=
  { param := q, state := state, route := 0, lastE0 := none, lastE1 := none, lastAny := s.lh.tick, rxOk := 3, goodE0 := 0, probeTx := 0
    probeSent := [], probeRx0 := 0, probeRx1 := 0, probeAt0 := 0, probeAt1 := 0, rtt0 := Rtt.none, rtt1 := Rtt.none
    rto := rd s OFS_RTO_min_us, rate := q.mbps, rateUs := us, tokens := 524288, tokenUs := us, txq := [], sent := [], nextPseq := 0
    gotPseq := [], high := 0, highUs := 0, unsacked := 0, unsackUs := none, settled := none, key := none, oldKey := none, hs := none
    rekeyDue := false, heardNew := false, lastInit := [], lastResp := [] }

/-- The estimate of a route. -/
def rttOf (q : OfsPeer) (route : Nat) : Rtt := if route = 0 then q.rtt0 else q.rtt1

/-- Least and greatest timer in µs (R370). -/
def rtoMin (s : State) : Nat := rd s OFS_RTO_min_us
def rtoMax (s : State) : Nat := 1000 * rd1 s OFS_RTO_max_ms

/-- One sample of a route's round trip (R370). -/
def rttSample (s : State) (e : Rtt) (r : Nat) : Rtt :=
  let jump : Rtt := { e with seen := true, srtt := r, rttvar := r / 2 }
  let e := if !e.seen || r > e.srtt + 8 * e.rttvar then jump
    else
      let d := if e.srtt ≥ r then e.srtt - r else r - e.srtt
      { e with rttvar := (3 * e.rttvar + d) / 4, srtt := (7 * e.srtt + r) / 8 }
  { e with rto := min (rtoMax s) (max (rtoMin s) (e.srtt + max 10 (4 * e.rttvar))) }

/-- Take a sample into a peer's record; the active route's estimate gives its timer. -/
def takeSample (s : State) (q : OfsPeer) (route r : Nat) : OfsPeer :=
  let e := rttSample s (rttOf q route) r
  let q := if route = 0 then { q with rtt0 := e } else { q with rtt1 := e }
  if route = q.route then { q with rto := e.rto } else q

/-! ### Packets (R365–R367, R371) -/

/-- A packet of a session without payload: header fields that every type shares. -/
def basePkt (s : State) (b p : Nat) (x : Session) (route : Nat) : OfsPkt :=
  { magic := 0x4B4F, version := 1, type := 0, route := route, keyEpoch := 0, srcSite := x.p.site, dstSite := p, session := x.p.session
    device := ownId s, round := curRound s b x, pseq := 0, stream := 0, offset := 0, objLen := 0, aux := 0, reset := false, rsv4 := 0
    rsv7 := 0, iv := 0, len := 0, tag := 0, payload := [] }

/-- Ethernet wire bytes of a packet: headers, tag and payload, framing (R366, R371). -/
def wireBytes (p : OfsPkt) : Nat := 128 + p.payload.length + 38

/-- The 64 header bytes of a packet, byte 4 given (R365). -/
def headerWith (byte4 : Nat) (p : OfsPkt) : List Byte :=
  toBe 2 p.magic ++ toBe 1 p.version ++ toBe 1 p.type ++ toBe 1 byte4 ++ toBe 1 p.keyEpoch ++ toBe 1 (16 * p.srcSite + p.dstSite)
    ++ toBe 1 p.rsv7 ++ toBe 4 p.session.toNat ++ toBe 4 p.device ++ toBe 4 p.round ++ toBe 8 p.pseq ++ toBe 12 p.iv.toNat
    ++ toBe 2 p.stream ++ toBe 2 p.len ++ toBe 8 p.offset ++ toBe 8 p.objLen ++ toBe 4 p.aux.toNat

/-- The header as it is sent. -/
def ofsHeader (retx : Bool) (p : OfsPkt) : List Byte := headerWith (b2n retx + 2 * p.route + 4 * b2n p.reset + 8 * p.rsv4) p

/-- The additional authenticated data: the header with byte 4 read as 0 (R366). -/
def ofsAad (p : OfsPkt) : List Byte := headerWith 0 p

/-- The transmission of a packet whose payload has a ciphertext: to the peer's address on its route and the session's port, header,
ciphertext and tag (R346, R365). -/
def ofsTx (s : State) (b peer : Nat) (retx : Bool) (p : OfsPkt) (ct : List Byte) : Tx :=
  let dest : BitVec 128 := match peerAt s b peer with
    | some q => if p.route = 0 then q.param.addrE0 else q.param.addrE1
    | none => 0
  let port := match sessOf s b with
    | some x => x.p.udpPort
    | none => 0
  .ofs b peer p.type retx p dest port (ofsHeader retx p ++ ct ++ toBe 16 p.tag.toNat)

/-- A packet leaves; its wire bytes are counted. -/
def sendOfs (s : State) (b peer : Nat) (retx : Bool) (p : OfsPkt) (ct : List Byte) : State :=
  ofsCount (emit s (ofsTx s b peer retx p ct)) b 2 (wireBytes p)

/-- A packet of a type, its length field set. -/
def ofsForm (type : Nat) (p : OfsPkt) : OfsPkt := { p with type := type, len := p.payload.length }

/-- Protect a packet under a key slot (R366): the next IV of the slot, ciphertext and tag. -/
def sealOfs (s : State) (n : Nat) (p : OfsPkt) : State × OfsPkt × List Byte :=
  let r := sealData s n (fun iv => ofsAad { p with iv := iv }) p.payload
  (r.1, { p with iv := r.2.1, tag := r.2.2.2 }, r.2.2.1)

/-- Protect a packet of a type and send it. -/
def sendSealed (s : State) (b peer n type : Nat) (p : OfsPkt) : State :=
  let r := sealOfs s n (ofsForm type p)
  sendOfs r.1 b peer false r.2.1 r.2.2

/-- The packets of an object: 8,832 bytes each, in ascending offset (R367); one without data for a withheld contribution. -/
def cutObject (s : State) (b p : Nat) (x : Session) (round stream : Nat) (aux : W32) (bytes : List Byte) : List OfsPkt :=
  let one (i : Nat) (c : List Byte) : OfsPkt :=
    { basePkt s b p x 0 with round := round, stream := stream, offset := 8832 * i, objLen := bytes.length, aux := aux, payload := c }
  if bytes.isEmpty then [one 0 []] else (chunks 8832 bytes).mapIdx one

/-- Queue packets of a type (1 DATA, 6 SNAP) to a peer. -/
def queueOfs (s : State) (b p type : Nat) (l : List OfsPkt) : State :=
  modPeer s b p fun q => { q with txq := q.txq ++ l.map fun x => (type, x) }

/-- Blocks of a contribution that some packet, queued or unacknowledged, still carries. -/
def blocksLeft (x : Session) (c : OfsSend) : Nat :=
  let mine (t : Nat) (p : OfsPkt) : Bool := t = 1 && p.round = c.round && p.stream = c.stream
  let ps := x.peers.flatMap fun q =>
    (q.2.txq.filterMap fun e => if mine e.1 e.2 then some e.2 else none)
      ++ (q.2.sent.filterMap fun e => if mine e.type e.pkt then some e.pkt else none)
  (c.blocks.filter fun r => ps.any fun p => r.1 < p.offset + p.payload.length && p.offset < r.1 + r.2).length

/-- Blocks that have been acknowledged or abandoned release their table slots (R320). -/
def settleSlots (s : State) (b : Nat) : State :=
  match sessOf s b with
  | none => s
  | some x =>
    let s := foldS (fun s (c : OfsSend) =>
      let n := blocksLeft x c
      if n = 0 then modTslot s c.slot fun t => { t with state := 0, user := 0, inflight := 0, table := [] }
      else modTslot s c.slot fun t => { t with inflight := n }) s x.sending
    modSess s b fun y => { y with sending := y.sending.filter fun c => blocksLeft x c ≠ 0 }

/-! ### Keys (R376–R380) -/

/-- The Seawall slot of a key is live. -/
def keyReady (s : State) : Option (Nat × Nat) → Bool
  | some k => keyLive s k.1
  | none => false

/-- Header bytes 8–19 of a KEY packet: session, device, round 0. -/
def keyHeader (x : Session) (device : Nat) : List Byte := toBe 4 x.p.session.toNat ++ toBe 4 device ++ zeros 4

/-- Seawall can take keys: no alarm, no reset. -/
def keysOpen (s : State) : Bool := !alarmLatched s && !swlInReset s

/-- Send the KEY_INIT of a handshake. -/
def sendInit (s : State) (b p : Nat) (x : Session) (q : OfsPeer) (h : Handshake) : State :=
  sendOfs s b p false
    (ofsForm 4 { basePkt s b p x q.route with keyEpoch := h.epoch, round := 0, reset := h.reset, payload := h.payload }) h.payload

/-- Begin a handshake with a peer as initiator: a fresh ML-KEM pair, KEY_INIT sent (R376). -/
def beginHandshake (s : State) (b p epoch : Nat) (reset : Bool) : State :=
  match sessOf s b, peerAt s b p with
  | some x, some q =>
    let n := s.free
    let ek := slice (Config.kemKey n) 0 1184
    let body := toBe 1 epoch ++ ek ++ slice Config.identityKey 0 1312
      ++ slice (Config.mldsa44Sign (keyHeader x (ownId s) ++ toBe 1 epoch ++ ek)) 0 2420
    let h : Handshake :=
      { epoch := epoch, reset := reset, initiator := true, draw := n, payload := body, startUs := usNow s, lastUs := usNow s
        failedAt := none }
    sendInit (modPeer (useFree s) b p fun q => { q with hs := some h }) b p x q h
  | _, _ => s

/-- The first handshake with a peer, by the end with the lower site (R376). -/
def firstHandshake (s : State) (b p : Nat) : State :=
  match sessOf s b with
  | some x => if x.p.site < p then beginHandshake s b p 0 false else s
  | none => s

/-- The lowest free key slot of Offshore's range (R332) that no request names (R339). -/
def freeKeySlot (s : State) : Option Nat := (rangeFrom 8 20).find? fun n => !keyLive s n && keyPending s n = 0

/-- Load an agreed key: the old one retires, or is erased with everything sent under it after a reset handshake (R377, R378, R380). -/
def installKey (s : State) (b p epoch : Nat) (reset : Bool) (secret : List Byte) : State :=
  match sessOf s b, peerAt s b p with
  | some x, some q =>
    let lo := min x.p.site p
    let hi := max x.p.site p
    let d := Config.shake256 (secret ++ toBe 4 x.p.session.toNat ++ toBe 4 (ownId s) ++ toBe 1 lo ++ toBe 1 hi ++ toBe 1 epoch) 40
    let salt := if x.p.site = lo then fld (slice d 32 4).reverse 0 4 else fld (slice d 36 4).reverse 0 4
    let s := if reset then dropPeerKeys s q else s
    match freeKeySlot s with
    | none => s
    | some n =>
      let s := putKey s n (BitVec.ofNat 256 (leNat (slice d 0 32))) (BitVec.ofNat 32 salt) 1 3 epoch
      if reset then
        let again := (sortBy (fun e : OfsSent => e.pkt.pseq) q.sent).map fun e => (e.type, { e.pkt with pseq := 0 })
        modPeer s b p fun q => { q with
          key := some (n, epoch), oldKey := none, hs := none, heardNew := false, sent := [], txq := again ++ q.txq }
      else
        let s := match q.key with
          | some k => modKey s k.1 fun y => { y with state := if y.state = 0 then 0 else 2 }
          | none => s
        modPeer s b p fun q => { q with key := some (n, epoch), oldKey := q.key, hs := none, heardNew := false, rekeyDue := false }
  | _, _ => s

/-- Begin the rekey of the next peer that is due, once none is in hand (R378). -/
def startRekeys (s : State) : State :=
  if s.ofs.rekeying.isSome || !keysOpen s || !coreUp s 7 then s
  else
    let due (b : Nat) : Option (Nat × Nat) :=
      match sessOf s b with
      | some x => (x.peers.find? fun p => p.2.rekeyDue && p.2.state = 1 && p.2.hs.isNone && keyReady s p.2.key && x.p.site < p.1).map
          fun p => (b, p.1)
      | none => none
    match berths.findSome? due with
    | none => s
    | some (b, p) =>
      let e := match peerAt s b p with
        | some q => (match q.key with
          | some k => (k.2 + 1) % 256
          | none => 0)
        | none => 0
      beginHandshake (modOfs s fun o => { o with rekeying := some (b, p) }) b p e false

/-- Mark every peer of a session as due for a rekey. -/
def markRekeys (s : State) (b : Nat) : State :=
  modSess s b fun x => { x with peers := x.peers.map fun p => (p.1, { p.2 with rekeyDue := p.2.key.isSome }) }

/-- The old slot goes once nothing sent under it is left and the peer has used the new epoch (R378). -/
def eraseOld (s : State) (b p : Nat) : State :=
  match peerAt s b p with
  | none => s
  | some q =>
    match q.oldKey with
    | none => s
    | some k =>
      if q.heardNew && !(q.sent.any fun e => e.pkt.keyEpoch = k.2) then
        let s := modPeer (clearKeySlot s k.1) b p fun q => { q with oldKey := none }
        if s.ofs.rekeying = some (b, p) then startRekeys (modOfs s fun o => { o with rekeying := none }) else s
      else s

/-- Reset handshakes with every peer after an alarm or a SEAWALL reset (R380). -/
def resetHandshakes (s : State) : State :=
  if !keysOpen s then s
  else
    let s := modOfs s fun o => { o with rekeying := none }
    foldS (fun s b => match sessOf s b with
      | some x => foldS (fun s (p : Nat × OfsPeer) =>
          if p.2.state = 1 || p.2.state = 3 then
            (match p.2.key with
              | some k => beginHandshake s b p.1 ((k.2 + 2) % 256) true
              | none => firstHandshake s b p.1)
          else s) s x.peers
      | none => s) s berths

/-- Handshakes in progress start again after a restart of L7 (R381). -/
def restartHandshakes (s : State) : State :=
  foldS (fun s b => match sessOf s b with
    | some x => foldS (fun s (p : Nat × OfsPeer) => match p.2.hs with
        | some h => if h.initiator then beginHandshake s b p.1 h.epoch h.reset else s
        | none => s) s x.peers
    | none => s) s berths

/-! ### A peer is lost or leaves -/

/-- Abandon every packet to a peer. -/
def abandonPeer (s : State) (b p : Nat) : State := settleSlots (modPeer s b p fun q => { q with txq := [], sent := [] }) b

end Sys2Proof.Machine
end

