-- ==== Sys2Proof/Machine/OfsRound.lean ====
section
/-!
DEFINITION. Offshore's rounds (R346–R364): the host's commands, CLOSE, WAIT and APPLY at a round's boundary, STEP_BOUNDARY with them
(R191, R350), and the snapshots of a donor.
-/
namespace Sys2Proof.Machine
open Sys2Proof

/-! ### Coded tensors (R322, R349) -/

/-- A whole coded tensor as Offshore reads it with a table slot, element by element; absent when a read or a check fails, which is
noted (R225, R328). -/
def readCoded (s : State) (b slot : Nat) (h : Hdl) : State × Option (List Nat) :=
  let len := (codedBytes s h).length
  let src := codedSource s h
  let bad := badRange s (addrOf h) len
  let s := noteRead s h 0 len
  match codedRaw s h with
  | none => (shgFail s b slot (src.head, 0), none)
  | some hd =>
    let s := shgReport s b slot (Decoded.ofBlocks src.causes)
    if src.coded || bad then (s, none) else (s, some (elemsOf (planeKind hd.fmt) src.bytes))

/-- Stored bytes of a coded object of E elements, if its table is built in a slot. -/
def codeElems (fmt slot version : Nat) (l : List Nat) : List Byte := encodeObject fmt slot version (l.flatMap (toLe (esz fmt))) []

/-- Code a tensor into a fresh object of policy KEEP in T2, with a table built in a FREE slot that is free again afterwards. -/
def newCoded (s : State) (b fmt slot : Nat) (l : List Nat) : State × Hdl :=
  let v := ((tslot s slot).version + 1) % 16
  let bytes := codeElems fmt slot v l
  let s := countCoded (modTslot s slot fun t => { t with version := v }) (l.flatMap (toLe (esz fmt))) bytes
  let r := placeObject s b (cdiv bytes.length pageSize) 2 0 [] true
  ((writeH r.1 r.2 0 bytes).1, r.2)

/-- The bytes of a coded object as stored, padding of its last block included. -/
def storedBytes (s : State) (h : Hdl) : List Byte :=
  let bs := codedBytes s h
  let n := fld bs 12 4
  let o := 64 * fld bs (640 + 4 * (n - 1)) 4
  let head := 640 + 64 * cdiv (4 * n) 64 + 64 * cdiv (fld bs 20 4) 64
  slice bs 0 (if n = 0 then head else o + 64 * cdiv (16 + fldBits bs (o + 6) 2 12 0) 64)

/-! ### CLOSE (R351, R352) -/

/-- A site that OFS_SITE has added again after it was LOST, in a round before the one that it joins in: nothing is sent to it or awaited
from it (R363). -/
def rejoins (x : Session) (p round : Nat) : Bool :=
  (match mget x.peers p with
    | some q => q.state = 3
    | none => false) && x.changes.any fun c => c.1 = p && c.2.1 && round < c.2.2.1

/-- Member peers of a round to which packets go. -/
def memberPeers (s : State) (b : Nat) (x : Session) (round : Nat) : List Nat :=
  (otherSites x (membersAt x round)).filter fun p => reachable s b p && !rejoins x p round

/-- Withhold a stream's contribution of the round. The CRC of the anchor is absent where the anchor could not be decoded. -/
def withholdStream (s : State) (b i : Nat) (x : Session) (own : Option W32) : State :=
  let crc := own.getD 0
  let s := ofsErr (ofsCount (wrOr s OFS_IRQ_STAT_withheld 1) b 6 1) b x.p.site 3 i x.round
  let s := foldS (fun s p => queueOfs s b p 1 (cutObject s b p x x.round i crc [])) s (memberPeers s b x x.round)
  modStream s b i fun t => { t with own := none, newResid := 0, closed := true, crc := crc, crcOk := own.isSome }

/-- Byte range of each block of a coded object. -/
def blockRanges (bytes : List Byte) : List (Nat × Nat) :=
  (List.range (fld bytes 12 4)).map fun k =>
    let o := 64 * fld bytes (640 + 4 * k) 4
    (o, 16 + fldBits bytes (o + 6) 2 12 0)

/-- Send a stream's contribution: coded with a table slot that stays RETIRING until every block is acknowledged or abandoned. -/
def sendContribution (s : State) (b i slot : Nat) (x : Session) (e : Nat) (crc : W32) (scales codes : List Byte) (newResid : Hdl) : State :=
  let v := ((tslot s slot).version + 1) % 16
  let bytes := encodeObject x.p.fmt slot v codes scales
  let ranges := blockRanges bytes
  let s := countCoded s codes bytes
  let s := modTslot s slot fun _ => { state := 3, version := v, user := 1, inflight := ranges.length, table := recordTable bytes }
  let s := modSess s b fun x => { x with sending := x.sending ++ [⟨x.round, i, slot, ranges⟩] }
  let s := foldS (fun s p => queueOfs s b p 1 (cutObject s b p x x.round i crc bytes)) s (memberPeers s b x x.round)
  let s := modStream s b i fun t => { t with
    own := some (dequant x.p.fmt e scales codes), newResid := newResid, closed := true, crc := crc, crcOk := true }
  settleSlots s b

/-- CLOSE of one stream, with a FREE table slot. -/
def closeStream (s : State) (b i slot : Nat) (x : Session) (t : OfsStream) (sh : Shard) : State :=
  let e := (parseSh sh.desc).size
  let m := readF32 s (liveH sh) 64 e
  let s := noteRead s (liveH sh) 64 (4 * e)
  let ra := readCoded s b slot t.anchor
  let rr := readCoded ra.1 b slot t.resid
  let s := rr.1
  match ra.2, rr.2 with
  | some a, some r =>
    let aw := a.map (BitVec.ofNat 32)
    let crc : W32 := BitVec.ofNat 32 (crc32c (wordBytes aw))
    if m.2 then withholdStream s b i x (some crc)
    else match quantTensor x.p.fmt (zip2 fsub aw m.1) r with
      | none => withholdStream (shgError (wrOr s SHG_IRQ_STAT_nonfinite 1) slot 5 b 0) b i x (some crc)
      | some (scales, codes, resid) =>
        let n := newCoded s b 0 slot resid
        sendContribution n.1 b i slot x e crc scales codes n.2
  | some a, none => withholdStream s b i x (some (BitVec.ofNat 32 (crc32c (wordBytes (a.map (BitVec.ofNat 32))))))
  | none, _ => withholdStream s b i x none

/-- Rounds may work: OFS_CTL.run for CLOSE, the domain out of reset, and Shingle starting blocks (R340). -/
def closeRuns (s : State) : Bool := rdb s OFS_CTL_run && !ofsInReset s && !stopping s && shgRuns s

/-- CLOSE of the next stream in ascending order; it waits while no table slot is FREE (R320). -/
def closeNext (b : Nat) (s : State) (i : Nat) : State :=
  match sessOf s b with
  | none => s
  | some x =>
    match mget x.streams i, freeTslot s with
    | some t, some n =>
      if t.closed then s
      else match shardOf s t.shard with
        | some sh => closeStream s b i n x t sh
        | none => modStream s b i fun t => { t with own := none, closed := true }
    | some t, none => if t.closed then s else wrOr s SHG_IRQ_STAT_slot_wait 1
    | none, _ => s

/-- Stream indices of a session, ascending. -/
def streamsOf (s : State) (b : Nat) : List Nat :=
  match sessOf s b with
  | some x => sortBy id (x.streams.map (·.1))
  | none => []

/-- CLOSE as far as it gets; once every stream is closed, WAIT begins. -/
def closeRun (s : State) (b : Nat) : State :=
  match sessOf s b with
  | none => s
  | some x =>
    if x.phase ≠ 2 || !closeRuns s then s
    else
      let s := foldS (closeNext b) s (streamsOf s b)
      modSess s b fun x => if x.streams.all fun p => p.2.closed then { x with phase := 3, waitFrom := s.lh.tick } else x

/-! ### WAIT (R353, R354) -/

/-- The incoming object of a site, round, stream and part. -/
def recvOf (x : Session) (site round stream part : Nat) : Option OfsRecv :=
  x.recv.find? fun r => r.site = site && r.round = round && r.stream = stream && r.part = part

/-- A contribution that has not arrived complete or withheld. -/
def recvMissing (x : Session) (site round stream : Nat) : Bool :=
  match recvOf x site round stream 0 with
  | some r => !(r.complete || r.withheld || r.applied)
  | none => true

/-- Contributions of a round that are missing: site and stream, in ascending order. -/
def missingOf (x : Session) (round : Nat) : List (Nat × Nat) :=
  (otherSites x (membersAt x round)).flatMap fun p =>
    (sortBy id ((x.streams.filter fun t => t.2.since ≤ round).map (·.1))).filterMap fun i =>
      if recvMissing x p round i then some (p, i) else none

/-- A peer of a session is LOST. -/
def peerIsLost (x : Session) (p : Nat) : Bool :=
  match mget x.peers p with
  | some q => q.state = 2
  | none => false

/-- WAIT may end: round b − S_max does not exist, or nothing of it is missing from a peer that is not LOST. -/
def waitMet (x : Session) : Bool :=
  x.round < x.p.sMax
    || (missingOf x (x.round - x.p.sMax)).all fun m => peerIsLost x m.1 || rejoins x m.1 (x.round - x.p.sMax)

/-- Settle round b − S_max: what is missing counts as dropped, the first is recorded, and what has not arrived whole goes. -/
def settleRound (s : State) (b : Nat) : State :=
  match sessOf s b with
  | none => s
  | some x =>
    if x.round < x.p.sMax then s
    else
      let j := x.round - x.p.sMax
      let miss := missingOf x j
      let s := match miss with
        | [] => s
        | m :: _ => ofsErr (ofsCount (wrOr s OFS_IRQ_STAT_drop 1) b 5 miss.length) b m.1 1 m.2 j
      modSess s b fun x => { x with
        settled := some j, lost := x.lost ++ miss.map fun m => (j, m.1, m.2, false)
        recv := x.recv.filter fun r => !(r.round ≤ j && r.part = 0 && !(r.complete || r.withheld || r.applied)) }

/-! ### APPLY (R355–R359) -/

/-- Bytes of an incoming object. -/
def recvBytes (r : OfsRecv) : List Byte := (rangeFrom 0 r.objLen).map fun k => mgetD r.bytes k 0

/-- Decoded values of a received contribution of e elements. -/
def recvValues (x : Session) (e : Nat) (r : OfsRecv) : Option (List W32) :=
  let bs := recvBytes r
  match codedHead bs with
  | none => none
  | some h => match decodePlane h bs with
    | some codes => if h.fmt = x.p.fmt then some (dequant h.fmt e (sidePlane h bs) codes) else none
    | none => none

/-- The weight of a staleness (R346). -/
def staleWeight (p : OfsParams) (k : Nat) : W32 := if k = 0 then one32 else if k = 1 then p.w1 else if k = 2 then p.w2 else p.w3

/-- The terms of APPLY for a stream, ordered by round and then site: round, site, values. -/
def applyTerms (x : Session) (i e : Nat) (t : OfsStream) : List (Nat × Nat × List W32) :=
  let own := match t.own with
    | some v => [(x.round, x.p.site, v)]
    | none => []
  let far := x.recv.filterMap fun r =>
    if r.stream = i && r.part = 0 && r.complete && !r.withheld && !r.applied && r.round ≤ x.round && x.round ≤ r.round + x.p.sMax then
      (recvValues x e r).map fun v => (r.round, r.site, v)
    else none
  sortBy (fun q : Nat × Nat × List W32 => 16 * q.1 + q.2.1) (own ++ far)

/-- g of R355: the weighted sum, or +0 throughout. -/
def applySum (x : Session) (e : Nat) (terms : List (Nat × Nat × List W32)) : List W32 :=
  let part (q : Nat × Nat × List W32) : List W32 :=
    let c := fdiv (staleWeight x.p (x.round - q.1)) (f32Nat (siteCount (membersAt x q.1)))
    q.2.2.map (fmul c)
  match terms with
  | [] => List.replicate e 0
  | q :: l => l.foldl (fun g q => zip2 fadd g (part q)) (part q)

/-- Anchor, outer momentum after the update (R355). -/
def outerStep (mu eta : W32) (nesterov : Bool) (anchor mom g : List W32) : List W32 × List W32 :=
  let m' := zip2 (fun m x => fadd (fmul mu m) x) mom g
  let u := if nesterov then zip2 (fun m x => fadd (fmul mu m) x) m' g else m'
  (zip2 (fun a y => fsub a (fmul eta y)) anchor u, m')

/-- Mark the contributions of a stream that APPLY has taken. -/
def takenRecv (x : Session) (i : Nat) (terms : List (Nat × Nat × List W32)) : List OfsRecv :=
  x.recv.map fun r =>
    if r.part = 0 && r.stream = i && (terms.any fun q => q.1 = r.round && q.2.1 = r.site) then { r with applied := true, bytes := [] }
    else r

/-- A held stream (R357): nothing written, the new residual given up. -/
def holdStream (s : State) (b i : Nat) (x : Session) (t : OfsStream) : State :=
  let s := ofsErr (ofsCount (wrOr s OFS_IRQ_STAT_held 1) b 10 1) b x.p.site 4 i x.round
  let s := releaseObject s (hBerth t.newResid) (hObj t.newResid)
  modStream s b i fun t => { t with newResid := 0, own := none, applied := true }

/-- The one action of R356: the pending slot COMPLETE with the committed step, the commit word flipped, the handles swapped. -/
def swapStream (s : State) (b i slot : Nat) (t : OfsStream) (sh : Shard) (a m : List W32) (moments : List Byte) : State :=
  let d := parseSh sh.desc
  let s := (writeH s (pendH sh) 64 (wordBytes a)).1
  let s := (writeH s (pendH sh) d.momOff moments).1
  let s := (putHeader s sh (fget s.upd.commits b) hdCOMPLETE).1
  let na := newCoded s b 1 slot (a.map (·.toNat))
  let nm := newCoded na.1 b 0 slot (m.map (castTo 0 false))
  let s := modShard nm.1 t.shard fun y => { y with live := 1 - y.live }
  let s := modStream s b i fun t => { t with
    anchor := na.2, outer := nm.2, resid := if t.newResid = 0 then t.resid else t.newResid, newResid := 0, own := none, applied := true }
  let s := releaseObject (releaseObject s (hBerth t.anchor) (hObj t.anchor)) (hBerth t.outer) (hObj t.outer)
  if t.newResid = 0 then s else releaseObject s (hBerth t.resid) (hObj t.resid)

/-- With S_max = 0 the anchor_crc of every contribution of the round of which DATA has come, whole, withheld or not, is compared with
the CRC of the own anchor (R359). -/
def checkAnchors (s : State) (b : Nat) : State :=
  match sessOf s b with
  | none => s
  | some x =>
    if x.p.sMax ≠ 0 then s
    else foldS (fun s (r : OfsRecv) =>
      let other : Bool := match mget x.streams r.stream with
        | some t => t.crcOk && r.crc ≠ t.crc
        | none => false
      if r.part = 0 && r.round = x.round && other then
        ofsErr (ofsCount (wrOr s OFS_IRQ_STAT_diverge 1) b 11 1) b r.site 8 r.stream x.round
      else s) s x.recv

/-- APPLY of one stream, with a FREE table slot. -/
def applyStream (s : State) (b i slot : Nat) (x : Session) (t : OfsStream) (sh : Shard) : State :=
  let d := parseSh sh.desc
  let terms := applyTerms x i d.size t
  let ra := readCoded s b slot t.anchor
  let ro := readCoded ra.1 b slot t.outer
  let mom := readH ro.1 (liveH sh) d.momOff (d.slotLen - d.momOff)
  let s := noteRead ro.1 (liveH sh) d.momOff (d.slotLen - d.momOff)
  let s := ofsCount (modSess s b fun x => { x with recv := takenRecv x i terms }) b 4 terms.length
  match ra.2, ro.2 with
  | some a, some o =>
    let aw := a.map (BitVec.ofNat 32)
    let r := outerStep x.p.mu (almanac s b x.p.etaChan) (x.p.nesterov = 1) aw (o.map (widen 0)) (applySum x d.size terms)
    if mom.2 || !allFinite r.1 || !allFinite r.2 then holdStream s b i x t
    else swapStream s b i slot t sh r.1 r.2 mom.1
  | _, _ => holdStream s b i x t

/-- APPLY of the next stream; it waits while no table slot is FREE. -/
def applyNext (b : Nat) (s : State) (i : Nat) : State :=
  match sessOf s b with
  | none => s
  | some x =>
    match mget x.streams i, freeTslot s with
    | some t, some n =>
      if t.applied then s
      else match shardOf s t.shard with
        | some sh => applyStream s b i n x t sh
        | none => modStream s b i fun t => { t with applied := true }
    | some t, none => if t.applied then s else wrOr s SHG_IRQ_STAT_slot_wait 1
    | none, _ => s

/-! ### The end of a round -/

/-- A donor's snapshot of every stream to a site (R363). -/
def sendSnapshots (s : State) (b p : Nat) : State :=
  match sessOf s b with
  | none => s
  | some x =>
    foldS (fun s i => match mget x.streams i with
      | none => s
      | some t =>
        let one (s : State) (h : Hdl) (part : Nat) : State :=
          if badRange s (addrOf h) (codedBytes s h).length then noteRead s h 0 (codedBytes s h).length
          else queueOfs s b p 6 (cutObject s b p x x.round i (BitVec.ofNat 32 (part * 2 ^ 24)) (storedBytes s h))
        one (one s t.anchor 0) t.outer 1) s (streamsOf s b)

/-- Joining peers whose round begins are up; a site removed long enough ago to have nothing left to apply goes (R361, R363). -/
def movePeers (s : State) (b : Nat) : State :=
  match sessOf s b with
  | none => s
  | some x =>
    let next := x.round + 1
    let gone := x.peers.filter fun p =>
      !(bit (membersAt x next) p.1) && x.changes.any fun c => c.1 = p.1 && !c.2.1 && c.2.2.1 + x.p.sMax ≤ x.round
        && !(x.changes.any fun c => c.1 = p.1 && c.2.1 && c.2.2.1 > x.round)
    let s := foldS (fun s (p : Nat × OfsPeer) => dropPeerKeys (abandonPeer s b p.1) p.2) s gone
    let up (p : Nat × OfsPeer) : Nat × OfsPeer :=
      if p.2.state = 3 && bit (membersAt x next) p.1 then (p.1, { p.2 with state := 1 }) else p
    modSess s b fun x => { x with peers := (x.peers.filter fun p => !(gone.any fun g => g.1 = p.1)).map up }

/-- A round ends: snapshots, membership, a rekey that is due, and row 5 of R191 (R350, R363, R378). -/
def endRound (s : State) (b : Nat) : State :=
  match sessOf s b with
  | none => s
  | some x =>
    let joiners := x.changes.filter fun c => c.2.1 && c.2.2.2 && c.2.2.1 = x.round + 1
    let s := foldS (fun s (c : Nat × Bool × Nat × Bool) => sendSnapshots s b c.1) s joiners
    let s := movePeers s b
    let due := x.p.rekey ≠ 0 && x.lastRekey + x.p.rekey ≤ x.round + 1
    let s := if due then startRekeys (modSess (markRekeys s b) b fun x => { x with lastRekey := x.round + 1 }) else s
    let s := modSess s b fun x => { x with
      phase := 1, recv := x.recv.filter fun r => match x.settled with
        | some j => !(r.part = 0 && r.round ≤ j)
        | none => true }
    rowFive s b

/-- APPLY as far as it gets; once every stream is applied, the round ends. -/
def applyRun (s : State) (b : Nat) : State :=
  match sessOf s b with
  | none => s
  | some x =>
    if x.phase ≠ 4 || ofsInReset s || !shgRuns s then s
    else
      let s := foldS (applyNext b) s (streamsOf s b)
      match sessOf s b with
      | some x => if x.streams.all fun p => p.2.applied then endRound s b else s
      | none => s

/-! ### Decoding what has come (R364, R367) -/

/-- Change an incoming object. -/
def modRecv (s : State) (b site round stream part : Nat) (f : OfsRecv → OfsRecv) : State :=
  modSess s b fun x => { x with recv := x.recv.map fun r =>
    if r.site = site && r.round = round && r.stream = stream && r.part = part then f r else r }

/-- An incoming contribution holds all of its bytes and is not decoded yet. -/
def toDecode (r : OfsRecv) : Bool :=
  r.part = 0 && 0 < r.objLen && r.objLen ≤ r.bytes.length && !(r.complete || r.withheld || r.applied || r.wrong)

/-- Elements of a stream. -/
def streamSize (s : State) (x : Session) (i : Nat) : Nat :=
  match (mget x.streams i).bind fun t => shardOf s t.shard with
  | some sh => (parseSh sh.desc).size
  | none => 0

/-- Decode a contribution with a table slot (R321, R323): complete, or withheld when a check fails (R328). -/
def completeRecv (b slot : Nat) (x : Session) (s : State) (r : OfsRecv) : State :=
  let s := retireTslot (shgReport (loadTslot s slot 1 (recvBytes r)) b slot (decoded (recvBytes r))) slot
  let good := (recvValues x (streamSize s x r.stream) r).isSome
  modRecv s b r.site r.round r.stream 0 fun y =>
    if good then { y with complete := true } else { y with withheld := true, bytes := [] }

/-- Decode every contribution that holds all of its bytes; it waits while Shingle starts no block or no table slot is FREE (R320, R340). -/
def completeAll (s : State) (b : Nat) : State :=
  match sessOf s b with
  | none => s
  | some x =>
    let l := x.recv.filter toDecode
    if l.isEmpty || !shgRuns s || ofsInReset s then s
    else match freeTslot s with
      | some n => foldS (completeRecv b n x) s l
      | none => wrOr s SHG_IRQ_STAT_slot_wait 1

/-- Bytes of a whole incoming snapshot part. -/
def partBytes (x : Session) (stream part : Nat) : Option (List Byte) :=
  match x.recv.find? fun r => r.stream = stream && r.part = part + 2 && r.complete with
  | some r => some (recvBytes r)
  | none => none

/-- Elements of a coded object that has arrived, of a format and count. -/
def snapElems (bs : List Byte) (fmt e : Nat) : Option (List Nat) :=
  match codedHead bs, e with
  | some h, _ =>
    if h.fmt ≠ fmt || h.rawLen ≠ e * esz fmt then none else (decodePlane h bs).map (elemsOf (planeKind fmt))
  | none, _ => none

/-- A fresh coded object that holds given bytes. -/
def placeCoded (s : State) (b : Nat) (bytes : List Byte) : State × Hdl :=
  let r := placeObject s b (cdiv bytes.length pageSize) 2 0 [] true
  ((writeH r.1 r.2 0 bytes).1, r.2)

/-- Write a slot of a joined stream: master the anchor, momentum and second moment +0. -/
def fillSlot (s : State) (h : Hdl) (d : ShD) (a : List W32) : State :=
  (writeH (writeF32 s h 64 a).1 h d.momOff (zeros (d.slotLen - d.momOff))).1

/-- Every stream of a join is installed: OFS_OPEN is answered, and the session is local. -/
def joinDone (s : State) (b : Nat) : State :=
  match sessOf s b with
  | none => s
  | some x =>
    if x.phase = 5 && !x.streams.isEmpty && x.streams.all fun t => x.installed.any fun i => i.1 = t.1 then
      let s := modSess (wrOr s OFS_IRQ_STAT_join_done 1) b fun x => { x with phase := 1, joinSeq := none }
      match x.joinSeq with
      | some q => finish s b 0x0701 q stOK 0 []
      | none => s
    else s

/-- Install a stream once both parts of its snapshot are whole (R364), decoded with a table slot (R367). -/
def installStream (b slot : Nat) (s : State) (i : Nat) : State :=
  match sessOf s b with
  | none => s
  | some x =>
    match mget x.streams i, partBytes x i 0, partBytes x i 1 with
    | some t, some ab, some ob =>
      match shardOf s t.shard with
      | none => s
      | some sh =>
        let d := parseSh sh.desc
        let s := loadTslot (loadTslot s slot 1 ab) slot 1 ob
        let s := retireTslot (shgReport (shgReport s b slot (decoded ab)) b slot (decoded ob)) slot
        match snapElems ab 1 d.size, snapElems ob 0 d.size with
        | some a, some _ =>
          let aw := a.map (BitVec.ofNat 32)
          let na := placeCoded s b ab
          let no := placeCoded na.1 b ob
          let s := fillSlot (fillSlot no.1 d.ha d aw) d.hb d aw
          let s := modShard s t.shard fun y => { y with live := 0 }
          let s := releaseObject (releaseObject s (hBerth t.anchor) (hObj t.anchor)) (hBerth t.outer) (hObj t.outer)
          let s := modStream s b i fun t => { t with anchor := na.2, outer := no.2 }
          joinDone (modSess s b fun x => { x with
            installed := x.installed ++ [(i, 0)], recv := x.recv.filter fun r => r.stream ≠ i || r.part < 2 }) b
        | _, _ => modSess s b fun x => { x with recv := x.recv.filter fun r => r.stream ≠ i || r.part < 2 }
    | _, _, _ => s

/-- A stream of a joining session has both parts of its snapshot whole. -/
def snapWhole (x : Session) (i : Nat) : Bool :=
  (mget x.streams i).isSome && (partBytes x i 0).isSome && (partBytes x i 1).isSome

/-- Install every stream whose snapshot is whole; it waits while Shingle starts no block or no table slot is FREE (R320, R340). -/
def installAll (s : State) (b : Nat) : State :=
  match sessOf s b with
  | none => s
  | some x =>
    if !(streamsOf s b).any (snapWhole x) || !shgRuns s || ofsInReset s then s
    else match freeTslot s with
      | some n => foldS (installStream b n) s (streamsOf s b)
      | none => wrOr s SHG_IRQ_STAT_slot_wait 1

/-- Go on with what waited for a table slot: contributions and snapshots to decode, a round. -/
def ofsContinue (s : State) (b : Nat) : State := applyRun (closeRun (installAll (completeAll s b) b) b) b
def ofsContinueAll (s : State) : State := foldS ofsContinue s berths

/-- WAIT ends: the anchors are compared, the round is settled and APPLY begins. -/
def endWait (s : State) (b : Nat) : State := applyRun (modSess (settleRound (checkAnchors s b) b) b fun x => { x with phase := 4 }) b

/-- OFFSHORE_WAIT_END of a berth in WAIT (R353). -/
def execOffshoreWaitEnd (berth : Nat) (s : State) : Host.Outcome State Fault Refusal :=
  .next <|
    match sessOf s berth with
    | some x => if x.phase = 3 && waitMet x && !ofsInReset s then endWait s berth else s
    | none => s

/-- OFFSHORE_WAIT_TIMEOUT after OFS_WAIT ticks (R353). -/
def execOffshoreWaitTimeout (berth : Nat) (s : State) : Host.Outcome State Fault Refusal :=
  .next <|
    match sessOf s berth with
    | some x => if x.phase = 3 && since s x.waitFrom ≥ rd1 s OFS_WAIT && !ofsInReset s then endWait s berth else s
    | none => s

/-- A round begins to close at the boundary that sets the counter to a multiple of H (R350). -/
def startRound (s : State) (b : Nat) : State :=
  match sessOf s b with
  | none => rowFive s b
  | some x =>
    let n := (fget s.upd.steps b).toNat
    if x.phase = 1 && n % x.p.h = 0 && n ≠ 0 then
      let fresh (p : Nat × OfsStream) : Nat × OfsStream := (p.1, { p.2 with closed := false, applied := false, own := none, newResid := 0 })
      closeRun (modSess s b fun x => { x with phase := 2, round := n / x.p.h - 1, streams := x.streams.map fresh }) b
    else rowFive s b

/-- STEP_BOUNDARY of a berth that meets the conditions with a decision (R190, R191, R350). -/
def execStepBoundary (berth : Nat) (s : State) : Host.Outcome State Fault Refusal :=
  .next <|
    match decision s berth with
    | none => s
    | some true => skipRows s berth
    | some false => startRound (commitRows s berth) berth

/-! ### The host's commands (R346–R349, R361, R378, R381) -/

/-- FP32 x with 0 ≤ x ≤ 1. -/
def unitRange (x : W32) : Bool := fle 0 x && fle x one32

/-- The parameters keep to the table of R346. -/
def ofsParamsOk (b : Nat) (p : OfsParams) : Bool :=
  let mask := p.members.toNat
  let others := (List.range 16).filter fun i => bit mask i && i ≠ p.site
  p.session ≠ 0 && p.berth = b && p.site < 16 && bit mask p.site && 2 ≤ siteCount mask && 8 ≤ p.h && p.h ≤ 65535 && p.sMax ≤ 3
    && 8 ≤ p.fmt && p.fmt ≤ 10 && p.etaChan ≤ 62 && fle 0 p.mu && flt p.mu one32 && p.nesterov ≤ 1
    && unitRange p.w1 && unitRange p.w2 && unitRange p.w3 && p.udpPort < 65536
    && sortBy id (p.peers.map (·.site)) = others && p.peers.all (fun q => 100 ≤ q.mbps && q.mbps ≤ 800000)
    && 8 ≤ p.store && p.store ≤ 1024 && 1 ≤ p.rxStore && p.rxStore ≤ 256
    && (match p.join with
      | some (d, _) => d ∈ others
      | none => true)

/-- Peers of every open session. -/
def peersOpen (s : State) : Nat := (berths.map fun b => match sessOf s b with
  | some x => x.peers.length
  | none => 0).sum

/-- Pages of the stores: T2, and T3 by channel with where the rotation then stands; absent when they do not fit (R347). -/
def placeStores (s : State) (b : Nat) (p : OfsParams) : Option (Nat × NMap Nat × Nat) :=
  let tx := cdiv (p.peers.length * p.store * 2 ^ 20) pageSize
  let rx := p.rxStore * 512
  let far := min rx (freeT3 s b)
  if tx + (rx - far) > freeT2 s b then none
  else match placeChans far ((List.range 12).map (chanFree s)) s.mem.rotate [] with
    | none => none
    | some (cs, cur) => some (tx + (rx - far), cs.foldl (fun m c => mset m c (mgetD m c 0 + 1)) [], cur)

/-- OFS_OPEN (0x0701); a joining session is answered once every stream is installed (R364). -/
def execOfsOpen (h : EcpHdr) (p : OfsParams) (s : State) : Host.Outcome State Fault Refusal :=
  .next <| ecpRun s h 0x0701 [7] fun s =>
    let b := h.berth
    let n := (fget s.upd.steps b).toNat
    if (sessOf s b).isSome then (s, .busy (busyTicks s))
    else if !ofsParamsOk b p || n % p.h ≠ 0 || peersOpen s + p.peers.length > 19 then (s, .bad 0)
    else match placeStores s b p with
      | none => (s, .bad 0)
      | some (t2, t3, cur) =>
        let us := usNow s
        let x : Session :=
          { p := p, phase := if p.join.isSome then 5 else 1, round := n / p.h, waitFrom := s.lh.tick, settled := none
            lastRekey := n / p.h, changes := [], streams := [], peers := p.peers.foldl (fun m q => mset m q.site (newPeer s q 1 us)) []
            recv := [], sending := [], storeT2 := t2, storeT3 := t3, joinSeq := p.join.map fun _ => h.seq, installed := [], lost := [] }
        let s := modMem s fun m => { m with rotate := cur }
        let s := modOfs s fun o => { o with sessions := fset o.sessions b (some x) }
        let s := foldS (fun s q => firstHandshake s b q.1) s x.peers
        (s, if p.join.isSome then .later else .ok [])

/-- Boundary work of a round is in hand. -/
def inRound (x : Session) : Bool := x.phase = 2 || x.phase = 3 || x.phase = 4

/-- Register a stream with a table slot: three coded objects, from the live master and zeros (R349). -/
def registerStream (s : State) (b stream shard slot : Nat) : State × Ans :=
  match sessOf s b, shardOf s shard with
  | some x, some sh =>
    if sh.berth ≠ b || (mget x.streams stream).isSome then (s, .bad 0)
    else if inRound x then (s, .busy (busyTicks s))
    else
      let e := (parseSh sh.desc).size
      let m := readF32 s (liveH sh) 64 e
      let zero := List.replicate e 0
      let pages (l : List Byte) := cdiv l.length pageSize
      let v := ((tslot s slot).version + 1) % 16
      let need := pages (codeElems 1 slot v (m.1.map (·.toNat))) + 2 * pages (codeElems 0 slot v zero)
      if m.2 then (noteRead s (liveH sh) 64 (4 * e), .fin stFAULT 0 [])
      else if need > freeT2 s b || !tableRoom s 3 need then (s, .bad 0x04)
      else
        let a := newCoded s b 1 slot (m.1.map (·.toNat))
        let o := newCoded a.1 b 0 slot zero
        let r := newCoded o.1 b 0 slot zero
        let t : OfsStream :=
          { shard := shard, anchor := a.2, outer := o.2, resid := r.2, newResid := 0, own := none, closed := false, applied := false
            crc := 0, crcOk := false, since := curRound s b x }
        (modSess r.1 b fun x => { x with streams := mset x.streams stream t }, .ok [])
  | _, _ => (s, .bad 0)

/-- A registration of the stream already waits for a slot. -/
def streamWaits (s : State) (b stream : Nat) : Bool := s.shg.reqs.any fun r => r.berth = b && (r.stream.map (·.1)) = some stream

/-- OFS_STREAM (0x0702): it waits while Shingle starts no block or no table slot is FREE (R320). -/
def execOfsStream (h : EcpHdr) (stream shard : Nat) (s : State) : Host.Outcome State Fault Refusal :=
  .next <| ecpRun s h 0x0702 [7] fun s =>
    let b := h.berth
    if stream > 65535 || streamWaits s b stream then (s, .bad 0)
    else match sessOf s b, shardOf s shard with
      | some x, some sh =>
        if sh.berth ≠ b || (mget x.streams stream).isSome then (s, .bad 0)
        else if inRound x then (s, .busy (busyTicks s))
        else match (if shgRuns s then freeTslot s else none) with
          | some n => registerStream s b stream shard n
          | none =>
            let s := if shgRuns s then wrOr s SHG_IRQ_STAT_slot_wait 1 else s
            (modShg s fun g => { g with reqs := g.reqs ++ [⟨b, h.seq, false, 0, 0, 0, none, some (stream, shard)⟩] }, .later)
      | _, _ => (s, .bad 0)

/-- A waiting OFS_STREAM goes on with a table slot: answered, or still waiting while a round is in hand. -/
def grantStream (s : State) (r : ShgReq) (stream shard slot : Nat) : State :=
  let q := registerStream s r.berth stream shard slot
  let t := modShg q.1 fun g => { g with reqs := g.reqs.erase r }
  match q.2 with
  | .fin st d l => finish t r.berth 0x0702 r.seq st d l
  | _ => s

/-- SHINGLE_SLOT_GRANT: the oldest waiting request takes a slot that has become FREE; with none waiting, what else of Offshore waited
for one goes on (R320). -/
def execShingleSlotGrant (s : State) : Host.Outcome State Fault Refusal :=
  .next <|
    match s.shg.reqs.find? fun r => r.slot.isNone with
    | none => ofsContinueAll s
    | some r =>
      match r.stream, freeTslot s with
      | none, _ => grantSlot s
      | some (i, sh), some n => if shgRuns s then grantStream s r i sh n else s
      | some _, none => s

/-- The mirror that an added site brings: as OFS_OPEN named it, or what the module knows of it (R361 names the site only). -/
def addedParam (x : Session) (site : Nat) : OfsPeerParam :=
  match x.p.peers.find? fun q => q.site = site with
  | some q => q
  | none => { site := site, addrE0 := Config.siteAddr0 x.p.session site, addrE1 := Config.siteAddr1 x.p.session site
              idHash := Config.siteHash x.p.session site, mbps := Config.siteMbps x.p.session site }

/-- OFS_SITE (0x0703): a change of membership from a round onward; a LOST site that is added again starts afresh (R360, R361). -/
def execOfsSite (h : EcpHdr) (site : Nat) (add : Bool) (round : Nat) (donor : Bool) (s : State) : Host.Outcome State Fault Refusal :=
  .next <| ecpRun s h 0x0703 [7] fun s =>
    let b := h.berth
    match sessOf s b with
    | none => (s, .bad 0)
    | some x =>
      let cur := curRound s b x
      let fresh := match mget x.peers site with
        | some q => q.state = 2
        | none => true
      let extra := add && fresh && site ≠ x.p.site
      let over_ := extra && (mget x.peers site).isNone && peersOpen s ≥ 19
      if round < cur + 2 || site > 15 || site = x.p.site || over_ then (s, .fin stBAD 0 (toBe 4 cur))
      else
        let s := modSess s b fun x => { x with
          changes := x.changes.filter (fun c => !(c.1 = site && c.2.2.1 > cur)) ++ [(site, add, round, donor)] }
        if extra then
          let s := match mget x.peers site with
            | some q => dropPeerKeys s q
            | none => s
          let s := modSess s b fun x => { x with peers := mset x.peers site (newPeer s (addedParam x site) 3 (usNow s)) }
          (firstHandshake s b site, .ok [])
        else (s, .ok [])

/-- OFS_REKEY (0x0704): every peer of the session is due (R378). -/
def execOfsRekey (h : EcpHdr) (s : State) : Host.Outcome State Fault Refusal :=
  .next <| ecpRun s h 0x0704 [7] fun s =>
    if (sessOf s h.berth).isNone then (s, .bad 0) else (startRekeys (markRekeys s h.berth), .ok [])

/-- OFS_CLOSE (0x0705): the session goes, an open round ends, and an OFS_OPEN that waits is answered (R381). -/
def execOfsClose (h : EcpHdr) (s : State) : Host.Outcome State Fault Refusal :=
  .next <| ecpRun s h 0x0705 [7] fun s =>
    let b := h.berth
    match sessOf s b with
    | none => (s, .bad 0)
    | some x =>
      let t := leaveSession s b
      let t := if inRound x then rowFive t b else t
      let t := match x.joinSeq with
        | some q => finish t b 0x0701 q stFAULT 0 []
        | none => t
      (startRekeys t, .ok [])

end Sys2Proof.Machine
end

