-- ==== Sys2Proof/Machine/OfsLink.lean ====
section
/-!
DEFINITION. Offshore's transport, routes and keys (R365–R381): packets received and sent, acknowledgement and timers, probes and
routes, a lost peer, key handshakes, and the reset of the OFFSHORE domain.
-/
namespace Sys2Proof.Machine
open Sys2Proof

/-! ### Which session a packet belongs to (R366, R379) -/

/-- Open berth whose session has an identifier. -/
def berthOfSession (s : State) (id : W32) : Option Nat :=
  berths.find? fun b => match sessOf s b with
    | some x => x.p.session = id
    | none => false

/-- The Seawall slot of the key of an epoch that a peer's record holds, live in Seawall. -/
def epochSlot (s : State) (q : OfsPeer) (e : Nat) : Option Nat :=
  let live (k : Option (Nat × Nat)) : Option Nat := (k.filter fun k => k.2 = e && keyLive s k.1).map (·.1)
  match live q.key with
  | some n => some n
  | none => live q.oldKey

/-- The key of an epoch is held. -/
def epochHeld (s : State) (q : OfsPeer) (e : Nat) : Bool := (epochSlot s q e).isSome

/-- Device and sites of a packet match, its fixed fields hold their values, its reserved fields are 0, and its length field is its
payload's (R365, R366). -/
def addressed (s : State) (x : Session) (p : OfsPkt) : Bool :=
  p.magic = 0x4B4F && p.version = 1 && p.device = ownId s && p.dstSite = x.p.site && (mget x.peers p.srcSite).isSome
    && p.rsv4 = 0 && p.rsv7 = 0 && p.len = p.payload.length && (p.type = 1 || p.type = 6 || p.stream = 0)
    && (p.type ≠ 6 || p.aux.toNat % 2 ^ 24 = 0)

/-- The tag of a packet is the one that a slot's key gives its header and the ciphertext of its payload (R366). -/
def tagFits (s : State) (n : Nat) (p : OfsPkt) : Bool :=
  p.tag = Config.gcmTag (keySlot s n).key p.iv (ofsAad p) (gcmCrypt (keySlot s n).key p.iv p.payload)

/-- A packet discarded under R366 or R379. -/
def authDiscard (s : State) (b : Nat) (p : OfsPkt) : State :=
  ofsErr (ofsCount (wrOr s OFS_IRQ_STAT_auth 1) b 9 1) b p.srcSite 5 0 p.round

/-- An authenticated packet has arrived: its route and its peer are heard (R360, R374). -/
def hearPeer (s : State) (b : Nat) (p : OfsPkt) (us : Nat) : State :=
  modPeer s b p.srcSite fun q => { q with
    lastE0 := if p.route = 0 then some us else q.lastE0, lastE1 := if p.route = 0 then q.lastE1 else some us
    lastAny := s.lh.tick }

/-- One that a session key protects: a first one under the new epoch is noted too. -/
def heard (s : State) (b : Nat) (p : OfsPkt) (us : Nat) : State :=
  let s := modPeer (hearPeer s b p us) b p.srcSite fun q => { q with
    heardNew := q.heardNew || (match q.key with
      | some k => k.2 = p.keyEpoch
      | none => false) }
  eraseOld s b p.srcSite

/-- Receive a packet of a type that Seawall protects: authenticated, then handed on with its berth; one of a LOST peer only counts
(R360). While Seawall starts no block none is taken (DESIGN CHOICE, log 192). -/
def ofsReceive (s : State) (type : Nat) (p : OfsPkt) (us : Nat) (body : State → Nat → State) : State :=
  if !hasOffshore s.variant || ofsInReset s then s
  else
    let s := countFrame s (2 * p.route) false (128 + p.payload.length)
    match berthOfSession s p.session with
    | none => authDiscard s 0 p
    | some b =>
      match sessOf s b, peerAt s b p.srcSite with
      | some x, some q =>
        match (if p.type = type && addressed s x p then epochSlot s q p.keyEpoch else none) with
        | none => authDiscard s b p
        | some n =>
          if !swlRuns s then s
          else if !tagFits s n p then authDiscard (tagFailed s n) b p
          else
            let s := count s 0x1901 p.payload.length
            if q.state = 2 then ofsCount s b 8 1 else body (heard s b p us) b
      | _, _ => authDiscard s b p

/-! ### Acknowledging (R368) -/

/-- Add a number to ascending inclusive ranges. -/
def addRange (l : List (Nat × Nat)) (n : Nat) : List (Nat × Nat) :=
  let near (r : Nat × Nat) : Bool := r.1 ≤ n + 1 && n ≤ r.2 + 1
  let lo := (l.filter near).foldl (fun a r => min a r.1) n
  let hi := (l.filter near).foldl (fun a r => max a r.2) n
  sortBy (fun r : Nat × Nat => r.1) ((lo, hi) :: l.filter fun r => !near r)

/-- cum of R368: 2^64 − 1 while packet 0 has not arrived. -/
def cumOf (l : List (Nat × Nat)) : Nat :=
  match l with
  | (0, hi) :: _ => hi
  | _ => 2 ^ 64 - 1

/-- The SACK payload. -/
def sackPayload (x : Session) (q : OfsPeer) (us : Nat) : List Byte :=
  let rs := (q.gotPseq.filter fun r => r.1 ≠ 0).take 32
  toBe 8 (cumOf q.gotPseq) ++ toBe 8 q.high ++ toBe 4 (us - q.highUs) ++ toBe 4 (x.settled.getD 0xFFFFFFFF) ++ toBe 1 rs.length
    ++ zeros 7 ++ rs.flatMap fun r => toBe 8 r.1 ++ toBe 8 r.2

/-- Send a SACK to a peer, once a key is live. -/
def sendSack (s : State) (b p us : Nat) : State :=
  match sessOf s b, peerAt s b p with
  | some x, some q =>
    match q.key with
    | some k =>
      if !keyLive s k.1 || !canSeal s k.1 then s
      else
        let s := sendSealed s b p k.1 2 { basePkt s b p x q.route with keyEpoch := k.2, payload := sackPayload x q us }
        modPeer s b p fun q => { q with unsacked := 0, unsackUs := none }
    | none => s
  | _, _ => s

/-- A DATA or SNAP packet is to be acknowledged; the sixteenth sends a SACK. -/
def ackLater (s : State) (b : Nat) (p : OfsPkt) (us : Nat) : State :=
  let s := modPeer s b p.srcSite fun q =>
    let newest := q.gotPseq.isEmpty || p.pseq > q.high
    { q with
      gotPseq := addRange q.gotPseq p.pseq, high := if newest then p.pseq else q.high, highUs := if newest then us else q.highUs
      unsacked := q.unsacked + 1, unsackUs := some (q.unsackUs.getD us) }
  match peerAt s b p.srcSite with
  | some q => if q.unsacked ≥ 16 then sendSack s b p.srcSite us else s
  | none => s

/-- OFS_SACK_SEND, 50 µs after the first packet that is not acknowledged (R368). -/
def execOfsSackSend (berth peer nowUs : Nat) (s : State) : Host.Outcome State Fault Refusal :=
  .next <|
    match peerAt s berth peer with
    | some q => match q.unsackUs with
      | some t => if nowUs ≥ t + 50 && q.state ≠ 2 && !ofsInReset s then sendSack s berth peer nowUs else s
      | none => s
    | none => s

/-! ### DATA (R349, R354, R359, R367, R372) -/

/-- A stream mismatch: discarded, counted, noted (R349). -/
def mismatch (s : State) (b : Nat) (p : OfsPkt) : State :=
  ofsErr (ofsCount (wrOr s OFS_IRQ_STAT_stream 1) b 8 1) b p.srcSite 7 p.stream p.round

/-- Bytes that the receive store holds. -/
def recvHeld (x : Session) : Nat := (x.recv.map fun r => r.bytes.length).sum

/-- The incoming object of a packet, made on its first packet. -/
def openRecv (x : Session) (p : OfsPkt) (part : Nat) : OfsRecv × Session :=
  match recvOf x p.srcSite p.round p.stream part with
  | some r => (r, x)
  | none =>
    let r : OfsRecv :=
      { site := p.srcSite, round := p.round, stream := p.stream, part := part, objLen := p.objLen, bytes := [], complete := false
        withheld := false, applied := false, wrong := false, crc := p.aux }
    (r, { x with recv := x.recv ++ [r] })

/-- The first packet of an object says how many bytes its plane has. -/
def countWrong (p : OfsPkt) (len : Nat) : Bool := p.offset = 0 && p.payload.length ≥ 12 && fld p.payload 4 8 ≠ len

/-- Store a packet's payload in its incoming object. Answers whether the packet is to be acknowledged. -/
def storePayload (s : State) (b : Nat) (x : Session) (p : OfsPkt) (part : Nat) : State × Bool :=
  let r := openRecv x p part
  let new := (rangeFrom p.offset p.payload.length).filter fun k => (mget r.1.bytes k).isNone
  if r.1.complete || r.1.withheld || r.1.applied then (ofsCount s b 8 1, true)
  else if r.1.wrong then (mismatch s b p, true)
  else if r.1.objLen ≠ p.objLen || p.offset + p.payload.length > p.objLen then (mismatch s b p, true)
  else if new.isEmpty then (ofsCount s b 8 1, true)
  else if recvHeld x + new.length > x.p.rxStore * 2 ^ 30 then (ofsCount s b 8 1, false)
  else
    let s := ofsCount (modSess s b fun _ => r.2) b 3 p.payload.length
    (modRecv s b p.srcSite p.round p.stream part fun y => { y with bytes := putBytes y.bytes p.offset p.payload }, true)

/-- A packet of a settled round (R354): the contribution, where it was missing then, is counted as dropped on its first packet (log 194);
what had arrived is a duplicate. -/
def takeLate (s : State) (b : Nat) (x : Session) (p : OfsPkt) : State :=
  let mine (c : Nat × Nat × Nat × Bool) : Bool := c.1 = p.round && c.2.1 = p.srcSite && c.2.2.1 = p.stream && !c.2.2.2
  if x.lost.any mine then
    let s := modSess s b fun x => { x with lost := x.lost.map fun c => if mine c then (c.1, c.2.1, c.2.2.1, true) else c }
    ofsErr (ofsCount (wrOr s OFS_IRQ_STAT_drop 1) b 5 1) b p.srcSite 1 p.stream p.round
  else ofsCount s b 8 1

/-- An object of another element count: what it has brought goes, and its later packets are mismatches too (R349). -/
def wrongObject (s : State) (b : Nat) (x : Session) (p : OfsPkt) : State :=
  modRecv (modSess s b fun y => { y with recv := (openRecv x p 0).2.recv }) b p.srcSite p.round p.stream 0 fun r =>
    if r.complete || r.withheld || r.applied then r else { r with wrong := true, bytes := [] }

/-- The data of a DATA packet. Answers whether it is to be acknowledged. -/
def takeData (s : State) (b : Nat) (p : OfsPkt) : State × Bool :=
  match sessOf s b with
  | none => (s, true)
  | some x =>
    let late : Bool := match x.settled with
      | some j => p.round ≤ j
      | none => false
    if late then (takeLate s b x p, true)
    else if !bit (membersAt x p.round) p.srcSite then (ofsCount s b 8 1, true)
    else match mget x.streams p.stream with
      | none => (mismatch s b p, true)
      | some _ =>
        if p.objLen = 0 then
          let r := openRecv x p 0
          if r.1.complete || r.1.withheld || r.1.applied then (ofsCount s b 8 1, true)
          else
            (modRecv (modSess s b fun _ => r.2) b p.srcSite p.round p.stream 0 fun y => { y with withheld := true, bytes := [] }, true)
        else if countWrong p (codeLen x.p.fmt (streamSize s x p.stream)) then (wrongObject (mismatch s b p) b x p, true)
        else
          let r := storePayload s b x p 0
          (completeAll r.1 b, r.2)

/-- OFS_DATA_RECEIVE. -/
def execOfsDataReceive (p : OfsPkt) (nowUs : Nat) (s : State) : Host.Outcome State Fault Refusal :=
  .next <| ofsReceive s 1 p nowUs fun s b =>
    let r := takeData s b p
    if r.2 then ackLater r.1 b p nowUs else r.1

/-! ### SNAP (R363, R364) -/

/-- The data of a SNAP packet; parts are held as parts 2 and 3 until both are whole. -/
def takeSnap (s : State) (b : Nat) (p : OfsPkt) : State × Bool :=
  match sessOf s b with
  | none => (s, true)
  | some x =>
    let part := bits p.aux.toNat 31 24
    let donor := match x.p.join with
      | some (d, _) => d = p.srcSite
      | none => false
    if x.phase ≠ 5 || !donor || part > 1 || x.installed.any fun i => i.1 = p.stream then (ofsCount s b 8 1, true)
    else if (mget x.streams p.stream).isNone then (mismatch s b p, false)
    else
      let r := storePayload s b x p (part + 2)
      let whole (y : OfsRecv) : OfsRecv := if y.bytes.length ≥ y.objLen then { y with complete := true } else y
      (installAll (modRecv r.1 b p.srcSite p.round p.stream (part + 2) whole) b, r.2)

/-- OFS_SNAP_RECEIVE. -/
def execOfsSnapReceive (p : OfsPkt) (nowUs : Nat) (s : State) : Host.Outcome State Fault Refusal :=
  .next <| ofsReceive s 6 p nowUs fun s b =>
    let r := takeSnap s b p
    if r.2 then ackLater r.1 b p nowUs else r.1

/-! ### Sending and resending (R367, R369–R372) -/

/-- Spend tokens on a packet that is sent outside its turn. -/
def spend (q : OfsPeer) (p : OfsPkt) : OfsPeer := { q with tokens := q.tokens - 8 * wireBytes p }

/-- Resend a stored packet on the active route, with its pseq, epoch, IV, tag and stored ciphertext (R330). -/
def resendOfs (b p us : Nat) (s : State) (e : OfsSent) : State :=
  match peerAt s b p with
  | none => s
  | some q =>
    let pk := { e.pkt with route := q.route }
    let again (y : OfsSent) : OfsSent :=
      if y.pkt.pseq = e.pkt.pseq then { y with pkt := pk, route := q.route, atUs := us, missed := 0, resent := true } else y
    modPeer (sendOfs (ofsCount s b 1 1) b p true pk e.ct) b p fun q => spend { q with sent := q.sent.map again } pk

/-- Tokens of a peer's bucket at a time. -/
def tokensAt (q : OfsPeer) (us : Nat) : Nat := min 524288 (q.tokens + (us - q.tokenUs) * q.rate)

/-- Ciphertext bytes in a peer's retransmit store. -/
def storeHeld (q : OfsPeer) : Nat := (q.sent.map fun e => e.pkt.payload.length).sum

/-- Send the packet at the front of a peer's queue. -/
def sendNext (s : State) (b p us : Nat) (x : Session) (q : OfsPeer) (k : Nat × Nat) : State :=
  match q.txq with
  | [] => s
  | (type, pk) :: rest =>
    let need := 8 * wireBytes pk
    if tokensAt q us < need || storeHeld q + pk.payload.length > x.p.store * 2 ^ 20 then s
    else
      let r := sealOfs s k.1 (ofsForm type { pk with pseq := q.nextPseq, keyEpoch := k.2, route := q.route })
      let e : OfsSent := { pkt := r.2.1, ct := r.2.2, type := type, route := q.route, atUs := us, missed := 0, resent := false }
      let s := modPeer r.1 b p fun q => { q with
        txq := rest, sent := q.sent ++ [e], nextPseq := q.nextPseq + 1, tokens := tokensAt q us - need, tokenUs := us }
      sendOfs (ofsCount s b 0 1) b p false r.2.1 r.2.2

/-- OFS_DATA_SEND (R371, R372): the next queued packet, when the bucket, the store and a live key allow. -/
def execOfsDataSend (berth peer nowUs : Nat) (s : State) : Host.Outcome State Fault Refusal :=
  .next <|
    match sessOf s berth, peerAt s berth peer with
    | some x, some q => match q.key with
      | some k =>
        if !rdb s OFS_CTL_run || ofsInReset s || stopping s || !keyLive s k.1 || !canSeal s k.1 || !reachable s berth peer then s
        else sendNext s berth peer nowUs x q k
      | none => s
    | _, _ => s

/-- What a SACK says of a packet. -/
structure Sack where
  cum     : Nat
  echo    : Nat
  hold    : Nat
  settled : Nat
  ranges  : List (Nat × Nat)
  deriving DecidableEq, Repr

/-- Read a SACK payload (R368). -/
def parseSack (bs : List Byte) : Sack :=
  let be (o n : Nat) := beNat (slice bs o n)
  ⟨be 0 8, be 8 8, be 16 4, be 20 4, (List.range (min 32 (be 24 1))).map fun i => (be (32 + 16 * i) 8, be (40 + 16 * i) 8)⟩

/-- The SACK shows a packet as received, or shows a later range and not it. -/
def Sack.has (k : Sack) (n : Nat) : Bool := (k.cum ≠ 2 ^ 64 - 1 && n ≤ k.cum) || k.ranges.any fun r => r.1 ≤ n && n ≤ r.2
def Sack.passes (k : Sack) (n : Nat) : Bool := k.ranges.any fun r => n < r.1

/-- A packet of a round that the peer has settled (R369). -/
def Sack.over (k : Sack) (type round : Nat) : Bool := type = 1 && k.settled ≠ 0xFFFFFFFF && round ≤ k.settled

/-- The round-trip sample of a SACK's echo, when that packet was never resent (R370). -/
def sackSample (s : State) (q : OfsPeer) (k : Sack) (us : Nat) : OfsPeer :=
  match q.sent.find? fun e => e.pkt.pseq = k.echo with
  | some e => if e.resent || !k.has k.echo then q else takeSample s q e.route (us - e.atUs - k.hold)
  | none => q

/-- What a SACK leaves of the packets sent. -/
def sackSent (k : Sack) (l : List OfsSent) : List OfsSent :=
  (l.filter fun e => !k.has e.pkt.pseq && !k.over e.type e.pkt.round).map fun e =>
    { e with missed := if k.passes e.pkt.pseq then e.missed + 1 else 0 }

/-- OFS_SACK_RECEIVE (R369): acknowledged and settled packets go, packets missed three times in succession are resent. -/
def execOfsSackReceive (p : OfsPkt) (nowUs : Nat) (s : State) : Host.Outcome State Fault Refusal :=
  .next <| ofsReceive s 2 p nowUs fun s b =>
    let k := parseSack p.payload
    let s := modPeer s b p.srcSite fun q =>
      let q := sackSample s q k nowUs
      { q with
        sent := sackSent k q.sent, txq := q.txq.filter fun e => !k.over e.1 e.2.round
        settled := if k.settled = 0xFFFFFFFF then q.settled else some (max k.settled (q.settled.getD 0)) }
    let again := match peerAt s b p.srcSite with
      | some q => q.sent.filter fun e => e.missed ≥ 3
      | none => []
    let s := foldS (resendOfs b p.srcSite nowUs) s again
    ofsContinueAll (eraseOld (settleSlots s b) b p.srcSite)

/-- OFS_RTO_EXPIRY (R369, R371): every unacknowledged packet again, the timer doubled, the rate halved. -/
def execOfsRtoExpiry (berth peer nowUs : Nat) (s : State) : Host.Outcome State Fault Refusal :=
  .next <|
    match peerAt s berth peer with
    | none => s
    | some q =>
      let due := q.sent.any fun e => nowUs ≥ e.atUs + q.rto
      if !due || ofsInReset s then s
      else
        let s := modPeer s berth peer fun q => { q with
          rto := min (rtoMax s) (2 * q.rto), rate := max (q.rate / 2) (q.param.mbps / 16), rateUs := nowUs }
        foldS (resendOfs berth peer nowUs) s q.sent

/-- PACING_RATE_STEP: each srtt without an expiry (R371). -/
def execPacingRateStep (berth peer nowUs : Nat) (s : State) : Host.Outcome State Fault Refusal :=
  .next <|
    match peerAt s berth peer with
    | none => s
    | some q =>
      if (rttOf q q.route).seen && nowUs ≥ q.rateUs + (rttOf q q.route).srtt && !ofsInReset s then
        modPeer s berth peer fun q => { q with rate := min q.param.mbps (q.rate + q.param.mbps / 16), rateUs := nowUs }
      else s

/-! ### Probes and routes (R373–R375) -/

/-- The peer was heard on a route within the last 1,500 µs. -/
def routeHeard (q : OfsPeer) (route us : Nat) : Bool :=
  match if route = 0 then q.lastE0 else q.lastE1 with
  | some t => us < t + 1500
  | none => false

/-- A route is up in both directions: by the own view and the peer's rx_ok. -/
def routeUp (q : OfsPeer) (route us : Nat) : Bool := routeHeard q route us && bit q.rxOk route

/-- The PROBE of a route. -/
def probePayload (q : OfsPeer) (n route us : Nat) : List Byte :=
  let last := if route = 0 then q.probeRx0 else q.probeRx1
  let at_ := if route = 0 then q.probeAt0 else q.probeAt1
  toBe 8 n ++ toBe 8 last ++ toBe 4 (if last = 0 then 0 else us - at_)
    ++ toBe 1 (b2n (routeHeard q 0 us) + 2 * b2n (routeHeard q 1 us))

/-- OFS_PROBE_SEND: the next number on both routes. -/
def execOfsProbeSend (berth peer nowUs : Nat) (s : State) : Host.Outcome State Fault Refusal :=
  .next <|
    match sessOf s berth, peerAt s berth peer with
    | some x, some q => match q.key with
      | some k =>
        if !keyLive s k.1 || !canSeal s k.1 || !reachable s berth peer || ofsInReset s then s
        else
          let n := q.probeTx + 1
          let one (s : State) (route : Nat) : State :=
            sendSealed s berth peer k.1 3 { basePkt s berth peer x route with keyEpoch := k.2, payload := probePayload q n route nowUs }
          modPeer (one (one s 0) 1) berth peer fun q => { q with
            probeTx := n, probeSent := ((n, nowUs) :: q.probeSent).take 4096
            goodE0 := if routeUp q 0 nowUs then q.goodE0 else 0 }
      | none => s
    | _, _ => s

/-- Make a route active: its estimate is taken and, after a failure, what was sent on the failed one within 2 · srtt is resent. -/
def switchRoute (s : State) (b p route us : Nat) (failed : Bool) : State :=
  match peerAt s b p with
  | none => s
  | some q =>
    let s := modPeer s b p fun q => { q with route := route, rto := if (rttOf q route).seen then (rttOf q route).rto else q.rto }
    let s := ofsCount s b 7 1
    if failed then
      let recent := q.sent.filter fun e => e.route = q.route && us ≤ e.atUs + 2 * (rttOf q q.route).srtt
      foldS (resendOfs b p us) (wrOr s OFS_IRQ_STAT_failover 1) recent
    else s

/-- ROUTE_DOWN of a route from which nothing authenticated has come for 1,500 µs (R374). -/
def execRouteDown (berth peer route nowUs : Nat) (s : State) : Host.Outcome State Fault Refusal :=
  .next <|
    match peerAt s berth peer with
    | none => s
    | some q =>
      if routeHeard q route nowUs || route > 1 || !reachable s berth peer || ofsInReset s then s
      else
        let s := if route = 0 then modPeer s berth peer fun q => { q with goodE0 := 0 } else s
        if route = q.route then switchRoute s berth peer (1 - route) nowUs true else s

/-- What a PROBE leaves in the peer's record. -/
def takeProbe (s : State) (q : OfsPeer) (p : OfsPkt) (us : Nat) : OfsPeer :=
  let be (o n : Nat) := beNat (slice p.payload o n)
  let q := match q.probeSent.find? fun e => e.1 = be 8 8 with
    | some e => takeSample s q p.route (us - e.2 - be 16 4)
    | none => q
  let q := if p.route = 0 then { q with probeRx0 := be 0 8, probeAt0 := us } else { q with probeRx1 := be 0 8, probeAt1 := us }
  let q := { q with rxOk := be 20 1 % 4 }
  { q with goodE0 := if !routeUp q 0 us then 0 else if p.route = 0 then q.goodE0 + 1 else q.goodE0 }

/-- OFS_PROBE_RECEIVE (R373–R375). -/
def execOfsProbeReceive (p : OfsPkt) (nowUs : Nat) (s : State) : Host.Outcome State Fault Refusal :=
  .next <| ofsReceive s 3 p nowUs fun s b =>
    let s := modPeer s b p.srcSite fun q => takeProbe s q p nowUs
    match peerAt s b p.srcSite with
    | none => s
    | some q =>
      if !bit q.rxOk q.route then switchRoute s b p.srcSite (1 - q.route) nowUs true
      else if q.route = 1 && q.goodE0 ≥ rd1 s OFS_FAILBACK_intervals then switchRoute s b p.srcSite 0 nowUs false
      else s

/-! ### A lost peer (R360, R364) -/

/-- The donor of a join is lost: OFS_OPEN fails and the session goes. -/
def joinFailed (s : State) (b p : Nat) (x : Session) : State :=
  let donor := match x.p.join with
    | some (d, _) => d = p
    | none => false
  if x.phase = 5 && donor then
    let s := event (ofsErr s b p 9 0 x.round) b 0x0007 stFAULT 0 (toBe 1 p ++ toBe 1 9)
    match x.joinSeq with
    | some q => finish (leaveSession s b) b 0x0701 q stFAULT 0 []
    | none => leaveSession s b
  else s

/-- WAIT for a peer ends with it. -/
def waitGoesOn (s : State) (b : Nat) : State :=
  match sessOf s b with
  | some x => if x.phase = 3 && waitMet x && !ofsInReset s then endWait s b else s
  | none => s

/-- PEER_LOST after OFS_PEER_TMO ticks without an authenticated packet. -/
def execPeerLost (berth peer : Nat) (s : State) : Host.Outcome State Fault Refusal :=
  .next <|
    match sessOf s berth, peerAt s berth peer with
    | some x, some q =>
      if !reachable s berth peer || since s q.lastAny < rd1 s OFS_PEER_TMO || ofsInReset s then s
      else
        let s := match q.oldKey with
          | some k => clearKeySlot s k.1
          | none => s
        let s := modPeer s berth peer fun q => { q with state := 2, hs := none, rekeyDue := false, oldKey := none }
        let s := modOfs (abandonPeer s berth peer) fun o => { o with rekeying := if o.rekeying = some (berth, peer) then none else o.rekeying }
        let s := ofsErr (wrOr s OFS_IRQ_STAT_lost 1) berth peer 2 0 (curRound s berth x)
        let s := event s berth 0x0007 stOK 0 (toBe 1 peer ++ toBe 1 2)
        ofsContinueAll (startRekeys (waitGoesOn (joinFailed s berth peer x) berth))
    | _, _ => s

/-! ### Key handshakes (R376–R380) -/

/-- A handshake that fails: key_fail, and the time from which it is tried again. -/
def handshakeFails (s : State) (b p : Nat) : State :=
  modPeer (wrOr s OFS_IRQ_STAT_key_fail 1) b p fun q => { q with hs := q.hs.map fun h => { h with failedAt := some s.lh.tick } }

/-- A failure of identity or signature. -/
def identityFails (s : State) (b : Nat) (p : OfsPkt) : State := handshakeFails (ofsErr s b p.srcSite 6 0 p.round) b p.srcSite

/-- Header bytes 8–19 of a packet that has come. -/
def pktHeader (p : OfsPkt) : List Byte := toBe 4 p.session.toNat ++ toBe 4 p.device ++ toBe 4 p.round

/-- Receive a KEY packet: session, device, sites and reserved fields checked, by a running L7 (R366). -/
def keyReceive (s : State) (type : Nat) (p : OfsPkt) (len : Nat) (body : State → Nat → Session → OfsPeer → State) : State :=
  if !hasOffshore s.variant || ofsInReset s then s
  else
    let s := countFrame s (2 * p.route) false (128 + p.payload.length)
    match berthOfSession s p.session with
    | none => authDiscard s 0 p
    | some b =>
      match sessOf s b, peerAt s b p.srcSite with
      | some x, some q =>
        if p.type ≠ type || !addressed s x p || p.payload.length ≠ len then authDiscard s b p
        else if q.state = 2 then ofsCount s b 8 1
        else if !keysOpen s || !coreUp s 7 then s
        else body s b x q
      | _, _ => authDiscard s b p

/-- The epoch that an initiator may begin with a peer: the next one, any before the first key, and that after the next in a reset. -/
def epochFits (q : OfsPeer) (reset : Bool) (e : Nat) : Bool :=
  match q.key with
  | some k => if reset then e = (k.2 + 2) % 256 else e = (k.2 + 1) % 256
  | none => true

/-- The answer to a KEY_INIT. -/
def respPayload (s : State) (x : Session) (e draw : Nat) (init ek : List Byte) : List Byte :=
  let ct := slice (Config.kemCiphertext ek draw) 0 1088
  toBe 1 e ++ ct ++ slice Config.identityKey 0 1312
    ++ slice (Config.mldsa44Sign (keyHeader x (ownId s) ++ toBe 1 e ++ ct ++ toBe 32 (Config.sha3 init).toNat)) 0 2420

/-- Send a KEY_RESP. -/
def sendResp (s : State) (b p : Nat) (x : Session) (q : OfsPeer) (e : Nat) (reset : Bool) (payload : List Byte) : State :=
  sendOfs s b p false (ofsForm 5 { basePkt s b p x q.route with keyEpoch := e, round := 0, reset := reset, payload := payload }) payload

/-- A rekey of another peer is in hand, or a key would be the third of this one (R378, R379). -/
def keyWaits (s : State) (b p : Nat) (q : OfsPeer) (reset : Bool) : Bool :=
  !reset && q.key.isSome && (q.oldKey.isSome || (s.ofs.rekeying.isSome && s.ofs.rekeying ≠ some (b, p)))

/-- KEY_INIT_RECEIVE: identity and signature, then the answer and the key; a repeated one gets the same answer (R376, R377). -/
def execKeyInitReceive (p : OfsPkt) (nowUs : Nat) (s : State) : Host.Outcome State Fault Refusal :=
  .next <| keyReceive s 4 p 4917 fun s b x q =>
    let e := beNat (slice p.payload 0 1)
    let ek := slice p.payload 1 1184
    let pk := slice p.payload 1185 1312
    if p.payload = q.lastInit then sendResp (hearPeer s b p nowUs) b p.srcSite x q e p.reset q.lastResp
    else if Config.sha3 pk ≠ q.param.idHash
        || !Config.mldsa44Verify pk (pktHeader p ++ toBe 1 e ++ ek) (slice p.payload 2497 2420) then identityFails s b p
    else if (!p.reset && x.p.site < p.srcSite) || !epochFits q p.reset e || keyWaits s b p.srcSite q p.reset
        || (freeKeySlot s).isNone then hearPeer s b p nowUs
    else
      let s := hearPeer s b p nowUs
      let n := s.free
      let resp := respPayload s x e n p.payload ek
      let again := q.key.isSome && !p.reset
      let s := modOfs (useFree s) fun o => { o with rekeying := if again then some (b, p.srcSite) else o.rekeying }
      let s := installKey s b p.srcSite e p.reset (Config.kemSecret ek n)
      let s := modPeer s b p.srcSite fun q => { q with lastInit := p.payload, lastResp := resp }
      settleSlots (sendResp s b p.srcSite x q e p.reset resp) b

/-- KEY_RESP_RECEIVE: the same checks, then decapsulated and loaded (R376, R377). -/
def execKeyRespReceive (p : OfsPkt) (nowUs : Nat) (s : State) : Host.Outcome State Fault Refusal :=
  .next <| keyReceive s 5 p 4821 fun s b _ q =>
    match q.hs with
    | none => s
    | some h =>
      let e := beNat (slice p.payload 0 1)
      let ct := slice p.payload 1 1088
      let pk := slice p.payload 1089 1312
      if !h.initiator || h.failedAt.isSome || e ≠ h.epoch then s
      else if Config.sha3 pk ≠ q.param.idHash
          || !Config.mldsa44Verify pk (pktHeader p ++ toBe 1 e ++ ct ++ toBe 32 (Config.sha3 h.payload).toNat)
            (slice p.payload 2401 2420) then identityFails s b p
      else settleSlots (installKey (hearPeer s b p nowUs) b p.srcSite e h.reset (Config.kemDecap h.draw ct)) b

/-- The handshake of a peer in progress, as initiator. -/
def openHandshake (q : OfsPeer) : Option Handshake :=
  match q.hs with
  | some h => if h.initiator && h.failedAt.isNone then some h else none
  | none => none

/-- KEY_INIT_RESEND every 1 ms (R377). -/
def execKeyInitResend (berth peer nowUs : Nat) (s : State) : Host.Outcome State Fault Refusal :=
  .next <|
    match sessOf s berth, peerAt s berth peer with
    | some x, some q => match openHandshake q with
      | some h =>
        if nowUs < h.lastUs + 1000 || !keysOpen s || !coreUp s 7 || ofsInReset s then s
        else sendInit (modPeer s berth peer fun q => { q with hs := some { h with lastUs := nowUs } }) berth peer x q h
      | none => s
    | _, _ => s

/-- HANDSHAKE_TIMEOUT after 100 ms (R377). -/
def execHandshakeTimeout (berth peer nowUs : Nat) (s : State) : Host.Outcome State Fault Refusal :=
  .next <|
    match peerAt s berth peer with
    | some q => match openHandshake q with
      | some h => if nowUs ≥ h.startUs + 100000 then handshakeFails s berth peer else s
      | none => s
    | none => s

/-- HANDSHAKE_RETRY 1,000 ticks after a failure (R377). -/
def execHandshakeRetry (berth peer : Nat) (s : State) : Host.Outcome State Fault Refusal :=
  .next <|
    match peerAt s berth peer with
    | none => s
    | some q => match q.hs with
      | none => s
      | some h => match h.failedAt with
        | some t =>
          if since s t ≥ 1000 && h.initiator && keysOpen s && coreUp s 7 && !ofsInReset s then beginHandshake s berth peer h.epoch h.reset
          else s
        | none => s

/-- ALARM_CLEAR: SWL_ALARM.clear, once no sensor fires; then a reset handshake with each peer (R338, R380). -/
def clearAlarm (s : State) (c : CrsWrite) (firing : Nat) : State :=
  let s := storeWrite s SWL_ALARM.off c
  if woBits s SWL_ALARM_clear c = 0 || firing ≠ 0 || !alarmLatched s || inReset s 0x16 then s
  else resetHandshakes (wr s SWL_ALARM (rd s SWL_ALARM / 16 * 16))

def execAlarmClear (w : CrsWrite) (firing : BitVec 4) (s : State) : Host.Outcome State Fault Refusal :=
  .next <| clearAlarm s w firing.toNat

/-! ### The OFFSHORE domain (R384) -/

/-- A reset of the domain: the stores and packets in flight are lost, and what was not acknowledged is sent again as new packets. -/
def resetOffshore (s : State) : State :=
  let again (q : OfsPeer) : OfsPeer :=
    let l := (sortBy (fun e : OfsSent => e.pkt.pseq) q.sent).map fun e => (e.type, { e.pkt with pseq := 0 })
    { q with sent := [], txq := l ++ q.txq }
  foldS (fun s b => modSess s b fun x => { x with
    recv := x.recv.filter (fun r => r.applied || r.withheld), peers := x.peers.map fun p => (p.1, again p.2) }) s berths

end Sys2Proof.Machine
end

