-- ==== Sys2Proof/Machine/Ether.lean ====
section
/-!
DEFINITION. The host ports' Ethernet (R385–R392, R428, R429): frames discarded, Neighbour Discovery and Echo answered in hardware,
addresses, links, and PTP.
-/
namespace Sys2Proof.Machine
open Sys2Proof

/-- Change the Ethernet structure. -/
def modEth (s : State) (f : Ether → Ether) : State := { s with eth := f s.eth }

/-! ### Addresses (R388, R389) -/

/-- The link-local address of an interface: fe80::/64 with the modified EUI-64 of its MAC address. -/
def linkLocal (i : Nat) : BitVec 128 :=
  let m := macOf i ^^^ 2 ^ 41
  BitVec.ofNat 128 (0xFE80 * 2 ^ 112 + m / 2 ^ 24 * 2 ^ 40 + 0xFFFE * 2 ^ 24 + m % 2 ^ 24)

/-- The addresses that an interface has. -/
def ownAddrs (s : State) (i : Nat) : List (BitVec 128) :=
  linkLocal i :: (List.range 3).filterMap fun k => mget s.eth.addrs (4 * i + k)

/-- An interface's port works: out of reset, the module awake. -/
def ethRuns (s : State) (i : Nat) : Bool := i < 4 && !inReset s (0x19 + i / 2) && !inReset s 0x3F && !s.pwr.asleep

/-- The staged address: ETH_IP0 holds bytes 0–3, byte 0 in bits [31:24]. -/
def stagedIp (s : State) : BitVec 128 :=
  BitVec.ofNat 128 ((List.range 4).foldl (fun a k => a * 2 ^ 32 + rd s (ETH_IP.at k)) 0)

/-- A write of ETH_IP_CTL, from the sideband and L6: load, then clear. -/
def writeIpCtl (s : State) (c : CrsWrite) : State :=
  let k := 4 * rd s ETH_IP_SEL_interface + rd s ETH_IP_SEL_index
  let s := if woBits s ETH_IP_CTL_load c ≠ 0 then modEth s fun e => { e with addrs := mset e.addrs k (stagedIp s) } else s
  if woBits s ETH_IP_CTL_clear c ≠ 0 then modEth s fun e => { e with addrs := mdel e.addrs k } else s

/-- ETH_IP_LOAD: a write of ETH_IP_CTL with load set. -/
def execEthIpLoad (w : CrsWrite) (s : State) : Host.Outcome State Fault Refusal := .next <| writeIpCtl s w
/-- ETH_IP_CLEAR: a write of ETH_IP_CTL with clear set. -/
def execEthIpClear (w : CrsWrite) (s : State) : Host.Outcome State Fault Refusal := .next <| let t := writeIpCtl s w; t

/-! ### Frames that are discarded (R386, R387, R390, R391) -/

/-- UDP ports that are served. -/
def udpServed (s : State) (port : Nat) : Bool :=
  port = rd s ETH_ECP_PORT_port || port = 319 || port = 320 || berths.any fun b => match sessOf s b with
    | some x => x.p.udpPort = port
    | none => false

/-- A frame that R387 discards. -/
def frameBad (s : State) (i : Nat) (f : FrameInfo) : Bool :=
  let vid := rd s (ETH_VLAN_vid.at i)
  !f.fcsOk || f.etherType ≠ 0x86DD || f.tags > 1 || f.size > 9022 || (vid ≠ 0 && !(f.tags = 1 && f.vid = vid))

/-- A packet that R390 or R391 discards. -/
def packetBad (s : State) (f : FrameInfo) : Bool :=
  (f.multicast && !f.groupOk) || f.extHeader
    || (if f.nextHeader = 17 then f.udpSum = 0 || !f.udpSumOk || !udpServed s f.udpPort
        else if f.nextHeader = 58 then !(f.icmpType = 128 || f.icmpType = 135 || f.icmpType = 136)
        else true)

/-- FRAME_DISCARD. -/
def execFrameDiscard (iface : Nat) (f : FrameInfo) (s : State) : Host.Outcome State Fault Refusal :=
  .next <|
    if !ethRuns s iface || !(frameBad s iface f || packetBad s f) then s
    else
      let s := count (count s (0x1B00 + 0x10 * iface) 1) (0x1B06 + 0x10 * iface) f.size
      let s := if f.fcsOk then s else count s (0x1B02 + 0x10 * iface) 1
      count s (0x1B05 + 0x10 * iface) 1

/-! ### Neighbour Discovery and Echo (R390) -/

/-- One's-complement checksum of bytes (RFC 1071), which the spec's ICMPv6 takes from its standard. -/
def netSum (l : List Byte) : Nat :=
  let n := ((chunks 2 l).map fun w => beNat (slice w 0 2)).sum
  let n := n % 65536 + n / 65536
  let n := n % 65536 + n / 65536
  65535 - (n % 65536 + n / 65536)

/-- An ICMPv6 message: type, code 0, checksum over the pseudo-header, and its body. -/
def icmp (type : Nat) (src dst : BitVec 128) (body : List Byte) : List Byte :=
  let msg (sum : Nat) : List Byte := toBe 1 type ++ zeros 1 ++ toBe 2 sum ++ body
  msg (netSum (toBe 16 src.toNat ++ toBe 16 dst.toNat ++ toBe 4 (4 + body.length) ++ zeros 3 ++ toBe 1 58 ++ msg 0))

/-- All nodes on the link, ff02::1. -/
def allNodes : BitVec 128 := 0xFF020000000000000000000000000001#128

/-- The cache learns a neighbour. -/
def learn (s : State) (i : Nat) (a : BitVec 128) (mac : BitVec 48) : State :=
  modEth s fun e => { e with neigh := (i, a, mac) :: e.neigh.filter fun n => !(n.1 = i && n.2.1 = a) }

/-- NEIGHBOUR_SOLICITATION for an own address: a Neighbour Advertisement with the MAC address, sent to all nodes when the solicitation
has no source. -/
def execNeighbourSolicitation (iface : Nat) (target source : BitVec 128) (sourceMac : BitVec 48) (s : State) :
    Host.Outcome State Fault Refusal :=
  .next <|
    if !ethRuns s iface then s
    else
      let s := countFrame s iface false 72
      if !(target ∈ ownAddrs s iface) then s
      else
        let s := if source = 0 then s else learn s iface source sourceMac
        let dst := if source = 0 then allNodes else source
        let flags := if source = 0 then 0x20 else 0x60
        emit s (.eth iface 0 dst
          (icmp 136 target dst (toBe 1 flags ++ zeros 3 ++ toBe 16 target.toNat ++ toBe 1 2 ++ toBe 1 1 ++ toBe 6 (macOf iface))))

/-- NEIGHBOUR_ADVERTISEMENT: the default router or an on-link peer is resolved. -/
def execNeighbourAdvertisement (iface : Nat) (target : BitVec 128) (mac : BitVec 48) (s : State) : Host.Outcome State Fault Refusal :=
  .next <| if ethRuns s iface then learn (countFrame s iface false 72) iface target mac else s

/-- ECHO_REQUEST to an own address: an Echo Reply with the request's body. -/
def execEchoRequest (iface : Nat) (target source : BitVec 128) (body : List Byte) (s : State) : Host.Outcome State Fault Refusal :=
  .next <|
    if !ethRuns s iface then s
    else
      let s := countFrame s iface false (44 + body.length)
      if target ∈ ownAddrs s iface then emit s (.eth iface 1 source (icmp 129 target source body)) else s

/-! ### Links (R375, R385, R429, R530) -/

/-- Interfaces of a host port in its mode (R385). -/
def ifacesOf (s : State) (port : Nat) : List Nat :=
  if rdb s (if port = 0 then ETH_CTL_e0_split else ETH_CTL_e1_split) then [2 * port, 2 * port + 1] else [2 * port]

/-- A host port is enabled. -/
def portEnabled (s : State) (port : Nat) : Bool := rdb s (if port = 0 then ETH_CTL_e0_en else ETH_CTL_e1_en)

/-- An interface's link is up. -/
def linkUp (s : State) (i : Nat) : Bool := bit (rd s ETH_STAT_link) i

/-- A link that has been down for 100 ticks or more; one that was never up is down since power-on. -/
def downLong (s : State) (i : Nat) : Bool := !linkUp s i && since s (mgetD s.eth.downSince i 0) ≥ 100

/-- The link of an interface goes up or down. -/
def setLink (s : State) (i : Nat) (up : Bool) : State :=
  if linkUp s i = up then s
  else
    let put (s : State) (f : Fld) : State := wr s f (if up then rd s f ||| 2 ^ i else rd s f - (rd s f &&& 2 ^ i))
    let s := wrOr (put (put s ETH_STAT_link) ETH_STAT_fec_lock) ETH_IRQ_STAT_link 1
    let s := modEth s fun e => { e with downSince := if up then mdel e.downSince i else mset e.downSince i s.lh.tick }
    if up && !([0, 1].any fun p => portEnabled s p && (ifacesOf s p).any (downLong s)) then dropReplace s 7 else s

/-- LINK_CHANGE of an interface of an enabled port. -/
def execLinkChange (iface : Nat) (up : Bool) (s : State) : Host.Outcome State Fault Refusal :=
  .next <|
    if !ethRuns s iface || (up && !(portEnabled s (iface / 2) && iface ∈ ifacesOf s (iface / 2))) then s else setLink s iface up

/-- HOST_LINK_DOWN_TIMEOUT of an enabled port (R375, R530). -/
def execHostLinkDownTimeout (port : Nat) (s : State) : Host.Outcome State Fault Refusal :=
  .next <| if port < 2 && portEnabled s port && (ifacesOf s port).any (downLong s) then raiseReplace s 7 else s

/-- A write of ETH_CTL: a change of a port's enable or split retrains its interfaces (R432). -/
def writeEthCtl (s : State) (c : CrsWrite) : State :=
  let t := storeWrite s ETH_CTL.off c
  foldS (fun t p =>
    if bits (rd s ETH_CTL) (2 * p + 1) (2 * p) = bits (rd t ETH_CTL) (2 * p + 1) (2 * p) then t
    else setLink (setLink t (2 * p) false) (2 * p + 1) false) t [0, 1]

/-! ### PTP (R392, R483) -/

/-- The interface on which PTP runs: E0 or E1, moved by lost masters. -/
def ptpIface (s : State) : Nat := 2 * ((rd s ETH_PTP_e1_first + s.eth.ptpPort) % 2)

/-- The module is its domain's anchor. -/
def isAnchor (s : State) : Bool := discovered s && rdb s CLF_COORD_anchor

/-- A signed value saturated to 32 bits. -/
def sat32 (i : Int) : Nat := (max (-(2 ^ 31)) (min (2 ^ 31 - 1) i) % 2 ^ 32).toNat

/-- What the servo's sample does: the first lock may set the count of an anchor that never opened a berth; later the offset and the
difference are reported. -/
def servo (s : State) (p : PtpInfo) : State :=
  let first := p.locks && !s.eth.ptpLocked
  let s := modEth (wr s ETH_STAT_ptp_locked (b2n p.locks)) fun e => { e with ptpLocked := e.ptpLocked || p.locks }
  let want := p.timeNs / 10000
  let s := if first && isAnchor s && !s.eth.opened && want > now s then
      wr { s with lh := { s.lh with tick := BitVec.ofNat 64 want } } TID_STAT_ptp_set 1
    else s
  let s := modEth s fun e => { e with ptpDiff := BitVec.ofNat 64 want - s.lh.tick }
  if isAnchor s && rdb s TID_CTL_ptp_steer && p.locks then wr s TID_PTP_OFF (sat32 p.offsetNs) else s

/-- PTP_MESSAGE in the module's domain on the port in use: an Announce shows a master, any other message feeds the servo of L7. -/
def execPtpMessage (p : PtpInfo) (s : State) : Host.Outcome State Fault Refusal :=
  .next <|
    if !ethRuns s p.iface || !rdb s ETH_CTL_ptp_en || p.iface ≠ ptpIface s || p.domain ≠ rd s ETH_PTP_domain then s
    else if p.kind = 0 then modEth s fun e => { e with ptpMissed := 0 }
    else if coreUp s 7 then servo s p
    else s

/-- PTP_ANNOUNCE_TIMEOUT: three intervals without an Announce move PTP to the other port. -/
def execPtpAnnounceTimeout (s : State) : Host.Outcome State Fault Refusal :=
  .next <|
    if !rdb s ETH_CTL_ptp_en then s
    else
      let n := s.eth.ptpMissed + 1
      let s := modEth (wr s ETH_STAT_ptp_locked 0) fun e => { e with ptpPort := (e.ptpPort + 1) % 2, ptpMissed := n }
      if n ≥ 2 then wrOr s ETH_IRQ_STAT_ptp_lost 1 else s

end Sys2Proof.Machine
end

