-- ==== Sys2Proof/Machine/Icu.lean ====
section
/-!
DEFINITION. The interrupt controller and Beacon (R447–R461): inputs of level sources, pending bits, storms, claims and their ends,
software sets, and wake requests.
-/
namespace Sys2Proof.Machine
open Sys2Proof

/-- Change the controller's structure. -/
def modIcu (s : State) (f : Icu → Icu) : State := { s with icu := f s.icu }

/-! ### Inputs (R447, R448) -/

/-- The units' sources: first source, how many, their first status field and their first enable field, one bit a source (R67, R159, …). -/
def lineRows : List (Nat × Nat × Fld × Fld) :=
  [(16, 4, SHF_IRQ_STAT, SHF_IRQ_EN), (24, 2, SND_IRQ_STAT, SND_IRQ_EN), (28, 4, SLV_IRQ_STAT, SLV_IRQ_EN),
   (32, 5, UPD_IRQ_STAT, UPD_IRQ_EN), (40, 1, ALM_IRQ_STAT, ALM_IRQ_EN), (64, 3, HBR_IRQ_STAT, HBR_IRQ_EN),
   (68, 3, PGR_IRQ_STAT, PGR_IRQ_EN), (72, 3, HBM_IRQ_STAT, HBM_IRQ_EN), (76, 3, DDR_IRQ_STAT, DDR_IRQ_EN),
   (108, 4, CLF_IRQ_STAT, CLF_IRQ_EN), (112, 5, LSH_IRQ_STAT, LSH_IRQ_EN), (128, 8, OFS_IRQ_STAT, OFS_IRQ_EN),
   (136, 4, SHG_IRQ_STAT, SHG_IRQ_EN)] ++
  [(144, 5, SWL_IRQ_STAT, SWL_IRQ_EN), (160, 3, ETH_IRQ_STAT, ETH_IRQ_EN), (168, 5, CMD_IRQ_STAT, CMD_IRQ_EN),
   (192, 5, PWR_IRQ_STAT, PWR_IRQ_EN), (200, 3, TID_IRQ_STAT, TID_IRQ_EN), (204, 3, CLK_IRQ_STAT, CLK_IRQ_EN),
   (208, 7, RST_IRQ_STAT, RST_IRQ_EN), (216, 5, SEC_IRQ_STAT, SEC_IRQ_EN)]

/-- Status and enable of a source of one row. -/
def rowLine (s : State) (n : Nat) (r : Nat × Nat × Fld × Fld) : Bool :=
  r.1 ≤ n && n < r.1 + r.2.1 && bit (rd s r.2.2.1) (n - r.1) && bit (rd s r.2.2.2) (n - r.1)

/-- The line of a unit's source 16–223: its status bit and its enable bit are both set. -/
def unitLine (s : State) (n : Nat) : Bool :=
  if 20 ≤ n && n ≤ 22 then bits (rd s NUM_IRQ_STAT) (4 * (n - 20) + 3) (4 * (n - 20)) ≠ 0 && bit (rd s NUM_IRQ_EN) (n - 20)
  else if 96 ≤ n && n ≤ 107 then rd s (CLF_PIRQ_STAT.at (n - 96)) &&& rd s (CLF_PIRQ_EN.at (n - 96)) ≠ 0
  else if n = 140 || n = 141 then bit (rd s OFS_IRQ_STAT) (n - 132) && bit (rd s OFS_IRQ_EN) (n - 132)
  else lineRows.any (rowLine s n)

/-- The present input of a level source; one from outside that State does not show keeps the value last given. -/
def levelInput (s : State) (n : Nat) : Bool :=
  if n = 0 then s.pwr.brake
  else if n = 1 then s.pwr.sag32
  else if n = 2 then s.pwr.sag30
  else if n = 5 then rd s PWR_TEMP_logic > 100 || rd s PWR_TEMP_hbm > 95
  else if n = 7 then s.pwr.boardHot
  else if n = 13 then s.icu.input.getLsbD 13
  else if n = 14 then !rdb s CLK_STAT_xtal_ok
  else if 16 ≤ n && n < 224 then unitLine s n
  else false

/-! ### Level sources (R449, R450, R455) -/

/-- A source is storm-masked: its pending bit is held clear, the masking is logged and counted, and source 255 reports it. -/
def stormMask (s : State) (n : Nat) : State :=
  let s := modIcu (setPending s n false) fun i => { i with storm := putBit i.storm n true }
  fireEdge (logError (count s 0x0100 1) 0x3F 4 n (BitVec.ofNat 64 n) 0xFF) 255

/-- A rise of a level source's pending bit: counted, and the sixteenth in one tick masks it; while masked it only counts. -/
def levelRise (s : State) (n : Nat) : State :=
  let s := icuCount s n
  if s.icu.storm.getLsbD n then s
  else
    let k := mgetD s.icu.rises n 0 + 1
    let s := modIcu s fun i => { i with rises := mset i.rises n k }
    if k ≥ 16 then stormMask s n else setPending s n true

/-- Hold a level source's pending bit to its input: set while it is asserted and the source is not active. -/
def levelHold (s : State) (n : Nat) : State :=
  if levelInput s n && !s.icu.active.getLsbD n && !s.icu.pending.getLsbD n && !s.icu.storm.getLsbD n then levelRise s n else s

/-- The input of a level source reaches the controller. -/
def levelEvent (s : State) (n : Nat) (on : Bool) : State :=
  let was := s.icu.input.getLsbD n
  let s := modIcu s fun i => { i with input := putBit i.input n on }
  if !on then setPending s n false
  else
    let s := if was then s else beaconCatch s n
    if s.icu.storm.getLsbD n && !was then icuCount s n else levelHold s n

/-- A source that some chapter assigns (R447, R448). -/
def assigned (n : Nat) : Bool :=
  n < 16 || n = 20 || n = 21 || n = 22 || (96 ≤ n && n ≤ 107) || n = 140 || n = 141
    || lineRows.any fun r => r.1 ≤ n && n < r.1 + r.2.1

/-- INTERRUPT_SOURCE_EVENT: the condition of a source reaches the controller. The edges that State shows fire with their own events;
receive signals (9–11) and the TAMPER input come with the operand. -/
def execInterruptSourceEvent (source : Nat) (asserted : Bool) (s : State) : Host.Outcome State Fault Refusal :=
  .next <|
    if source ≥ 224 || !assigned source then s
    else if edgeSource source then (if asserted && 9 ≤ source && source ≤ 11 then fireEdge s source else s)
    else if source = 13 then levelEvent s 13 asserted
    else levelEvent s source (levelInput s source)

/-! ### Software sets and clears (R449, R456, R461) -/

/-- One software set of a source. -/
def softSet (s : State) (n : Nat) : State := if s.icu.storm.getLsbD n then icuCount s n else fireEdge s n

/-- A software clear of a pending bit: a level source that is still asserted pends again. -/
def softClear (s : State) (n : Nat) : State :=
  let s := setPending s n false
  if edgeSource n then s else levelHold s n

/-- A write of ICU_PENDn, bit by bit. -/
def writePend (s : State) (n : Nat) (c : CrsWrite) : State :=
  foldS (fun s j =>
    let k := 32 * n + j
    let v := c.value.getLsbD j
    let old := s.icu.pending.getLsbD k
    match c.al with
    | .set => if v then softSet s k else s
    | .clear => if v then softClear s k else s
    | .plain => if v && !old then softSet s k else if !v && old then softClear s k else s
    | .toggle => if v && !old then softSet s k else if v && old then softClear s k else s) s (List.range 32)

/-- ICU_PEND_WRITE of ICU_PENDn. -/
def execIcuPendWrite (n : Nat) (w : CrsWrite) (s : State) : Host.Outcome State Fault Refusal :=
  .next <| if n < 8 then writePend s n w else s

/-- A write of ICU_STORMn: a 1 unmasks, and a source still asserted pends again with a fresh count of rises. -/
def writeStorm (s : State) (n : Nat) (c : CrsWrite) : State :=
  foldS (fun s j =>
    let k := 32 * n + j
    if c.value.getLsbD j && s.icu.storm.getLsbD k then
      levelHold (modIcu s fun i => { i with storm := putBit i.storm k false, rises := mdel i.rises k }) k
    else s) s (List.range 32)

/-- ICU_STORM_UNMASK: a write of ICU_STORMn. -/
def execIcuStormUnmask (n : Nat) (w : CrsWrite) (s : State) : Host.Outcome State Fault Refusal :=
  .next <| if n < 8 then writeStorm s n w else s

/-! ### Claims (R451–R454) -/

/-- Claims of a class. -/
def claims (s : State) (fast : Bool) : NMap Nat := if fast then s.icu.fast else s.icu.normal

/-- Source s may be claimed by core k in a class. -/
def claimable (s : State) (k : Nat) (fast : Bool) (n : Nat) : Bool :=
  s.icu.pending.getLsbD n && !s.icu.active.getLsbD n && !s.icu.storm.getLsbD n && rdb s (ICU_CFG_enable.at n) && rdb s ICU_CTL_en
    && bit (rd s (ICU_CFG_targets.at n)) k && (rd s (ICU_CFG_fast.at n) = 1) == fast && (mget (claims s fast) k).isNone

/-- A plain read of a claim register: the source, or 0x3FF; the state after it. -/
def claimRead (s : State) (req : Nat) (al : Alias) (fast : Bool) : State × Nat :=
  if req ≥ 8 || al ≠ .plain then (s, 0x3FF)
  else match (List.range 256).find? (claimable s req fast) with
    | none => (s, 0x3FF)
    | some n =>
      (modIcu (setPending s n false) fun i => { i with
        active := putBit i.active n true
        normal := if fast then i.normal else mset i.normal req n
        fast := if fast then mset i.fast req n else i.fast }, n)

/-- A read returns one word. -/
def answerWord (r : State × Nat) (req off : Nat) : State := emit r.1 (.words req off [BitVec.ofNat 32 r.2])

/-- ICU_CLAIM_READ. -/
def execIcuClaimRead (req : Nat) (al : Alias) (s : State) : Host.Outcome State Fault Refusal :=
  .next <| answerWord (claimRead s req al false) req ICU_CLAIM.off

/-- ICF_CLAIM_READ. -/
def execIcfClaimRead (req : Nat) (al : Alias) (s : State) : Host.Outcome State Fault Refusal :=
  .next <| answerWord (claimRead s req al true) req ICF_CLAIM.off

/-- A claim ends: the active bit clears, and a level source still asserted pends again. -/
def endClaim (s : State) (k n : Nat) (fast : Bool) : State :=
  let s := modIcu s fun i => { i with
    active := putBit i.active n false
    normal := if fast then i.normal else mdel i.normal k
    fast := if fast then mdel i.fast k else i.fast }
  if edgeSource n then s else levelHold s n

/-- A write of ICU_EOI or ICF_EOI; one that names no claim of the core is ignored and noted. -/
def writeEoi (s : State) (fast : Bool) (c : CrsWrite) : State :=
  if c.al = .clear || c.al = .toggle then s
  else
    let n := bits c.value.toNat 9 0
    if c.req < 8 && mget (claims s fast) c.req = some n then endClaim s c.req n fast
    else count (wrOr s ICU_STAT_bad_eoi 1) 0x0101 1

/-- ICU_EOI_WRITE. -/
def execIcuEoiWrite (w : CrsWrite) (s : State) : Host.Outcome State Fault Refusal := .next <| writeEoi s false w
/-- ICF_EOI_WRITE. -/
def execIcfEoiWrite (w : CrsWrite) (s : State) : Host.Outcome State Fault Refusal := .next <| writeEoi s true w

/-- The claims of a core end as by EOI, and edge sources that it held pend again (R461). -/
def dropClaims (s : State) (k : Nat) : State :=
  let one (s : State) (fast : Bool) : State :=
    match mget (claims s fast) k with
    | some n =>
      let s := endClaim s k n fast
      if edgeSource n then setPending s n true else s
    | none => s
  one (one s false) true

/-! ### Beacon (R458–R460) -/

/-- A write of BCN_CTL: wake_now requests a wake with cause bit 15. -/
def writeBcnCtl (s : State) (c : CrsWrite) : State := if woBits s BCN_CTL_wake_now c ≠ 0 then beaconWake s (2 ^ 15) else s

/-- BCN_WAKE_NOW. -/
def execBcnWakeNow (w : CrsWrite) (s : State) : Host.Outcome State Fault Refusal := .next <| writeBcnCtl s w

/-- BCN_TIMER_EXPIRY: the timer ends its last interval and fires source 12. -/
def execBcnTimerExpiry (s : State) : Host.Outcome State Fault Refusal :=
  .next <| if rd s BCN_TIMER = 0 then s else fireEdge (wr s BCN_TIMER 0) 12

end Sys2Proof.Machine
end

