-- ==== Sys2Proof/Machine/Lighthouse.lean ====
section
/-!
DEFINITION. Lighthouse (R468–R482), emergencies and gating (R484–R489): tick work, overruns, watchdogs and restarts of the cores, and
everything that a tick edge brings.
-/
namespace Sys2Proof.Machine
open Sys2Proof

/-- Change the power structure. -/
def modPwr (s : State) (f : Power → Power) : State := { s with pwr := f s.pwr }

/-- Change the reset structure. -/
def modRst (s : State) (f : Resets → Resets) : State := { s with rst := f s.rst }

/-- Change the security structure. -/
def modSec (s : State) (f : Security → Security) : State := { s with sec := f s.sec }

/-! ### Emergencies and gating (R484, R488, R489) -/

/-- An emergency holds now (R484). -/
def emergency (s : State) : Bool :=
  let p := s.pwr
  p.brake || p.sag32 || p.sag30 || p.sag27 || p.overcur || p.warn || p.boardHot || p.tripped || p.clamp || p.emergClk

/-- Gating by the hardware: the largest row of R489 that applies. -/
def gHw (s : State) : Nat :=
  let p := s.pwr
  if p.sag27 || p.tripped || p.stopAt.isSome then 64
  else max (if p.clamp then min 64 (rd s PWR_CLAMP_g) else 0) (if p.sag30 then 26 else 0)

/-- Gating by L0: values above 64 act as 64. -/
def gL0 (s : State) : Nat := min 64 (rd s PWR_GATE_g)

/-- Effective gating (R488). -/
def gating (s : State) : Nat := max (gL0 s) (gHw s)

/-- PWR_STAT (R501). -/
def pwrStat (s : State) : Nat :=
  let p := s.pwr
  b2n (emergency s) + 2 * b2n p.brake + 4 * b2n (p.clamp && p.overcur) + 8 * b2n p.sag32 + 16 * b2n p.sag30
    + 32 * b2n p.stopAt.isSome + 64 * b2n p.warn + 128 * b2n p.emergClk + 256 * b2n (gHw s > 0) + 512 * b2n (nvStopped s)
    + 2 ^ 16 * gating s + 2 ^ 24 * gHw s

/-- Change the conditions: an emergency that holds afterwards spoils the tick, and one that begins is recorded (R484, R502). -/
def condition (s : State) (f : Power → Power) : State :=
  let t := modPwr s f
  if emergency t then
    modPwr t fun p =>
      if emergency s then { p with emergTick := true }
      else { p with
        emergTick := true, lastEmerg := BitVec.ofNat 32 (pwrStat t), lastWatts := BitVec.ofNat 32 (rd s PWR_PIN_watts)
        lastTick := s.lh.tick }
  else t

/-- Two clear ticks in succession have passed and no emergency holds (R475, R477, R492). -/
def clearTwice (s : State) : Bool := !emergency s && s.pwr.clear ≥ 2

/-! ### Restarts of a core (R474, R475) -/

/-- Core Lk runs firmware now. -/
def coreRuns (s : State) (k : Nat) : Bool := k < 8 && s.rst.running && !s.pwr.asleep && !inReset s 0x3F && coreUp s k

/-- A restart of a core begins: its claims end, its bank empties, and a walk or handshake of L7 is lost. -/
def startRestart (s : State) (k : Nat) : State :=
  let s := dropClaims s k
  let s := modCore s k fun c => { c with busy := false, late := false, expired := none, restart := some s.lh.tick, waiting := false }
  let s := { s with banks := mdel s.banks k }
  if k = 7 then { s with clf := { s.clf with walk := s.clf.walk.map fun w => { w with lost := true } } } else s

/-- A restart that is due: one of L0 waits while an emergency holds. -/
def dueRestart (s : State) (k : Nat) : State :=
  if k = 0 && emergency s then modCore s 0 fun c => { c with waiting := true } else startRestart s k

/-- A restarted core runs again. -/
def coreRunsAgain (s : State) (k : Nat) : State :=
  let s := modCore s k fun c => { c with restart := none, busy := false, late := false, lastDone := s.lh.tick }
  let s := count (wrOr s TID_IRQ_STAT_restart 1) (0x0320 + k) 1
  if k = 7 then restartHandshakes s else s

/-- A write of TID_RESTART: L6 restarts any core, L1 only L6, and bit 0 is ignored during an emergency. -/
def writeTidRestart (s : State) (c : CrsWrite) : State :=
  let m := woBits s TID_RESTART_cores c
  foldS (fun s k =>
    if bit m k && (c.req = 6 || (c.req = 1 && k = 6)) && !(k = 0 && emergency s) then startRestart s k else s) s (List.range 8)

/-- CORE_RESTART: a write of TID_RESTART. -/
def execCoreRestart (w : CrsWrite) (s : State) : Host.Outcome State Fault Refusal := .next <| writeTidRestart s w

/-- CORE_RESTART_FALLBACK: TID_WDOG ticks after the expiry no restart has begun, so the hardware restarts the core (R473). -/
def execCoreRestartFallback (core : Nat) (s : State) : Host.Outcome State Fault Refusal :=
  .next <|
    match (coreOf s core).expired with
    | some t =>
      if core < 8 && since s t ≥ rd1 s TID_WDOG_ticks && (coreOf s core).restart.isNone && !(coreOf s core).waiting then
        dueRestart s core
      else s
    | none => s

/-! ### Tick work (R470–R473) -/

/-- The edge of core Lk: new work, or an overrun. -/
def coreEdge (s : State) (k : Nat) : State :=
  if !coreRuns s k then s
  else
    let c := coreOf s k
    if c.busy then
      let s := count (wrOr s TID_IRQ_STAT_overrun 1) (0x0310 + k) 1
      let n := c.overruns + 1
      let s := if n ≥ 3 && c.telem < 6 then wrOr s TID_IRQ_STAT_telem 1 else s
      modCore s k fun c => { c with
        late := true, overran := true, clean := 0, overruns := if n ≥ 3 then 0 else n
        telem := if n ≥ 3 then min 6 (c.telem + 1) else c.telem }
    else
      let n := if c.used ≤ rd s (TID_BUDGET_budget.at k) then c.clean + 1 else 0
      modCore s k fun c => { c with
        busy := true, overran := false, overruns := 0, clean := if n ≥ 1000 then 0 else n
        telem := if n ≥ 1000 then c.telem - 1 else c.telem }

/-- A core ends its tick work after a time in units of 10 ns; work that is late begins again at once (R471). -/
def endTickWork (s : State) (k used : Nat) : State :=
  modCore s k fun c =>
    let u := min 65535 used
    if c.busy then { c with used := u, peak := max c.peak u, lastDone := s.lh.tick, busy := c.late, late := false }
    else { c with lastDone := s.lh.tick }

/-- A write of TID_DONE. -/
def writeTidDone (s : State) (c : CrsWrite) (used : Nat) : State :=
  if c.req < 8 && woBits s TID_DONE_done c ≠ 0 && coreRuns s c.req then endTickWork s c.req used else s

/-- CORE_TICK_DONE. -/
def execCoreTickDone (w : CrsWrite) (used10ns : Nat) (s : State) : Host.Outcome State Fault Refusal :=
  .next <| writeTidDone s w used10ns

/-- CORE_WATCHDOG_EXPIRY: no TID_DONE for TID_WDOG ticks (R473, R523). -/
def execCoreWatchdogExpiry (core : Nat) (s : State) : Host.Outcome State Fault Refusal :=
  .next <|
    let c := coreOf s core
    if !coreRuns s core || c.expired.isSome || c.waiting || since s c.lastDone < rd1 s TID_WDOG_ticks then s
    else
      let s := modCore (wrOr s TID_WD_CAUSE_cores (2 ^ core)) core fun c => { c with expired := some s.lh.tick }
      logError (fireEdge s 15) (0x20 + core) 8 15 (BitVec.ofNat 64 core) 0xFF

/-! ### The tick edge -/

/-- The tick that ends was clear or not (R484). -/
def endClearTick (s : State) : State :=
  modPwr s fun p => { p with clear := if p.emergTick || emergency s then 0 else p.clear + 1, emergTick := emergency s }

/-- One more tick of a condition, or none. -/
def runOf (n : Nat) (on : Bool) : Nat := if on then n + 1 else 0

/-- PWR_OC.amps: values outside 40–75 act as 72 (R501). -/
def ocAmps (s : State) : Nat := if 40 ≤ rd s PWR_OC_amps && rd s PWR_OC_amps ≤ 75 then rd s PWR_OC_amps else 72

/-- The causes of the clamp are absent at an input current in units of 10 mA (R490). -/
def clampFree (s : State) (amps10mA : Nat) : Bool :=
  !s.pwr.brake && (!s.pwr.overcur || amps10mA < 100 * (ocAmps s - 6))

/-- What the monitors read: the registers, THERM_WARN, BOARD_TEMP and the runs of ticks that later events need (R490–R496). -/
def readSensors (s : State) (t : TickInputs) : State :=
  let s :=
    if s.pwr.asleep || inReset s 0x3F then s
    else wrs s [(PWR_VIN_mv, min 65535 t.vinMv), (PWR_VIN_iin, min 65535 t.iin10mA), (PWR_PIN_watts, min 65535 t.watts),
      (PWR_TEMP_logic, min 255 t.logicC), (PWR_TEMP_hbm, min 255 t.hbmC), (PWR_TEMP_board, min 255 t.boardC)]
  let warn := t.logicC > 100 || t.hbmC > 95 || t.boardC > 85
  let free := clampFree s t.iin10mA
  condition s fun p => { p with
    warn := warn, boardHot := t.boardC > 85, warnFor := runOf p.warnFor warn
    coolFor := runOf p.coolFor (t.logicC ≤ 95 && t.hbmC ≤ 90 && t.boardC ≤ 80)
    coldFor := runOf p.coldFor (t.logicC < 100 && t.hbmC < 95 && t.boardC < 85)
    vinOk := runOf p.vinOk (t.vinMv ≥ 32000), clampGone := runOf p.clampGone free
    energy := p.energy + BitVec.ofNat 64 t.watts }

/-- The limit of input power that L0 holds (R485). -/
def powerLimit (s : State) : Nat := min (min (rd s PWR_CAP_watts) 2000) (if s.pwr.sag30 then 1200 else 2000)

/-- L0's loop: the gating that its firmware chooses, lowered by at most 4 (R485). -/
def powerLoop (s : State) (t : TickInputs) : State :=
  if !coreRuns s 0 then s
  else
    let cur := gL0 s
    let s := wr s PWR_GATE_g (if t.gate ≥ cur then min 64 t.gate else max t.gate (cur - 4))
    if t.watts > powerLimit s then count (wrOr s PWR_IRQ_STAT_cap 1) 0x0601 1 else s

/-- What runs on the always-on clock (R460, R502, R535, R544). -/
def alwaysOn (s : State) : State :=
  let s := if s.pwr.emergClk then count s 0x0602 1 else s
  let s := if rdb s CLK_STAT_holdover then count s 0x0410 1 else s
  let s := if rd s BCN_TIMER > 1 then wr s BCN_TIMER (rd s BCN_TIMER - 1) else s
  if s.rst.running then modSec s fun x => { x with ranFor := x.ranFor + 1 } else s

/-- What L7, the berth cores and a waiting L0 do at the edge (R99, R378, R475). -/
def coreWork (s : State) : State :=
  let s := foldS (fun s b => if coreRuns s (2 + b) then censusSample s b else s) s berths
  let s := if (coreOf s 0).waiting && clearTwice s then startRestart s 0 else s
  if coreRuns s 7 then startRekeys s else s

/-- PTP at the edge (R483, R500). -/
def ptpEdge (s : State) (t : TickInputs) : State :=
  if rdb s ETH_STAT_ptp_locked then
    modEth s fun e => { e with ptpNs := BitVec.ofNat 64 t.ptpNs, ptpDiff := BitVec.ofNat 64 (t.ptpNs / 10000) - s.lh.tick }
  else modEth s fun e => { e with ptpNs := 0 }

/-- TIDE_TICK: the counter rises, every limit by the tick starts afresh, and tick flits leave (R264, R481). -/
def execTideTick (t : TickInputs) (s : State) : Host.Outcome State Fault Refusal :=
  .next <|
    let s := endClearTick s
    let s := { s with
      lh := { s.lh with tick := s.lh.tick + 1, pwrReqs := 0 }, icu := { s.icu with rises := [] }
      quay := { s.quay with unauth := [] } }
    let s := readSensors s t
    let s := foldS coreEdge s (List.range 8)
    let s := ptpEdge (alwaysOn (powerLoop s t)) t
    let s := coreWork s
    if s.pwr.asleep || inReset s 0x3F then s else sendTicks (slewTick s)

/-! ### TID_USED (R499) -/

/-- TID_USEDk as read; a plain read clears the peak. -/
def tidUsedRead (s : State) (al : Alias) (k : Nat) : State × Nat :=
  let c := coreOf s k
  (if al = .plain then modCore s k fun c => { c with peak := 0 } else s, c.used + 65536 * c.peak)

/-- TID_USED_READ. -/
def execTidUsedRead (req core : Nat) (al : Alias) (s : State) : Host.Outcome State Fault Refusal :=
  .next <| if core < 8 then answerWord (tidUsedRead s al core) req (TID_USED.off + 4 * core) else s

end Sys2Proof.Machine
end

