-- ==== Sys2Proof/Machine/Security.lean ====
section
/-!
DEFINITION. Identity, measurements, images and the life cycle (R539–R560), FW_STAGE and the activation of an image (R476–R480).
-/
namespace Sys2Proof.Machine
open Sys2Proof

/-- A fresh free value. -/
def fresh (s : State) : State × Nat := (useFree s, Config.freeNat s.free)

/-- Bytes of a digest. -/
def digest (l : List Byte) : List Byte := toBe 32 (Config.sha3 l).toNat

/-! ### Flash -/

/-- A byte of a flash; an erased byte reads 0xFF (log 7). -/
def flashByte (s : State) (f a : Nat) : Byte := mgetD s.edge.flash (f * 2 ^ 26 + a) 0xFF

/-- Bytes of a flash. -/
def flashBytes (s : State) (f a n : Nat) : List Byte := (List.range n).map fun i => flashByte s f (a + i)

/-- Write one byte of a flash. -/
def putFlash (s : State) (f a : Nat) (b : Byte) : State :=
  { s with edge := { s.edge with flash := msetD s.edge.flash (f * 2 ^ 26 + a) b 0xFF } }

/-- Write bytes of a flash; a write into the last 1 MiB spoils the key store that stands there. -/
def writeFlash (s : State) (f : Nat) : Nat → List Byte → State
  | _, [] => s
  | a, b :: bs =>
    let s := putFlash s f a b
    let s := if a ≥ 63 * 2 ^ 20 then
        modSec s fun x => { x with keyStore := if f = 0 then (false, x.keyStore.2) else (x.keyStore.1, false) }
      else s
    writeFlash s f (a + 1) bs

/-! ### Measurements (R546, R547) -/

/-- Extend a measurement slot with a tag and a digest. -/
def extend (s : State) (i tag : Nat) (d : List Byte) : State :=
  let old := toBe 32 (mgetD s.sec.slots i 0).toNat
  modSec s fun x => { x with slots := mset x.slots i (Config.sha3 (old ++ [BitVec.ofNat 8 tag] ++ d)) }

/-- MS0: ROM identity and OTP configuration. -/
def measureRom (s : State) : State :=
  let s := extend s 0 0x01 (toBe 32 Config.romDigest.toNat)
  let keys := (List.range 4).flatMap fun i => toBe 32 (Config.fwKeyHash i).toNat ++ toBe 32 (Config.tokenKeyHash i).toNat
    ++ toLe 1 (b2n (Config.fwKeyRevoked i)) ++ toLe 1 (b2n (Config.tokenKeyRevoked i))
  extend s 0 0x02 (digest (toLe 1 s.sec.life ++ toLe 1 s.sec.rbBits ++ keys))

/-- MS3: the security configuration, once the locks stand. -/
def measureLocks (s : State) : State :=
  let w (off : Nat) : List Byte := toLe 4 (regWord s off).toNat
  let cfg := (List.range 16 ++ rangeFrom 192 32).flatMap fun n => w (ICU_CFG.off + 4 * n)
  let locks := (List.range 37).flatMap fun k => if lockOffset k = 0 then [] else toLe 1 (b2n (windowLocked s k))
  extend s 3 0x30 (digest (cfg ++ w SWL_ALARM_EN.off ++ locks))

/-- MS5: a life-cycle change. -/
def measureLife (s : State) : State := extend s 5 0x51 (toLe 1 s.sec.life ++ zeros 31)

/-! ### Images (R541, R542) -/

/-- Header bytes 0–255 of the image in a flash. -/
def imageHeader (s : State) (f : Nat) : List Byte := flashBytes s f 0 256

/-- svn, build number and interface major of a header. -/
def svnOf (h : List Byte) : Nat := fld h 16 4
def buildOf (h : List Byte) : Nat := fld h 12 4
def majorOf (h : List Byte) : Nat := fld h 8 2

/-- Bit of the part mask for a variant. -/
def partBit : Variant → Nat
  | .kmz4100 => 0
  | .kmz4110 => 1
  | .kmz4120 => 2

/-- The first check of R542 that an image fails, by its detail code. -/
def imageFailure (s : State) (f : Nat) : Option Nat :=
  let h := imageHeader s f
  let len := fld h 24 8
  let rsv := fld h 6 2 = 0 && allZero (slice h 192 64) && (List.range 8).all fun k => fld h (64 + 16 * k + 12) 4 = 0
  if fld h 0 4 ≠ 0x4B4D4657 || fld h 4 1 ≠ 1 || !rsv || 4096 + len + 4627 > 63 * 2 ^ 20 then some 1
  else
    let key := fld h 5 1
    let pub := flashBytes s f 256 2592
    if key > 3 || Config.sha3 pub ≠ Config.fwKeyHash key || Config.fwKeyRevoked key then some 2
    else if !Config.mldsa87Verify pub h (flashBytes s f (4096 + len) 4627) then some 3
    else if digest (flashBytes s f 4096 len) ≠ slice h 32 32 then some 4
    else if svnOf h < s.sec.rbBits then some 5
    else if !bit (fld h 20 4) (partBit s.variant) then some 6
    else if (List.range 8).any fun k => fld h (64 + 16 * k) 4 + fld h (68 + 16 * k) 4 > len then some 7
    else none

/-- svn of an image, 0 when it fails R542. -/
def goodSvn (s : State) (f : Nat) : Nat := if (imageFailure s f).isNone then svnOf (imageHeader s f) else 0

/-- The image that runs, with what the registers and quotes show of it. -/
def runImage (s : State) (f : Nat) : State :=
  let other := goodSvn s (1 - f)
  modSec s fun x => { x with image := f, header := imageHeader s f, otherSvn := other, ranFor := 0 }

/-- The counter is below the active svn (R544). -/
def rbPending (s : State) : Bool := s.rst.running && s.sec.rbBits < svnOf s.sec.header

/-- The boot ROM: the image of the selector, or the other one, verified, measured and run (R543, R547); false when both fail. -/
def bootImage (s : State) : State × Bool :=
  let s := measureRom s
  let sel := s.sec.selector
  let pick : Option Nat :=
    if (imageFailure s sel).isNone then some sel else if (imageFailure s (1 - sel)).isNone then some (1 - sel) else none
  match pick with
  | none => (s, false)
  | some f =>
    let h := imageHeader s f
    let s := extend (extend s 1 0x10 (digest h)) 1 0x11 (digest (flashBytes s f 256 2592))
    let s := foldS (fun s k =>
      extend s 2 (0x20 + k) (digest (flashBytes s f (4096 + fld h (64 + 16 * k) 4) (fld h (68 + 16 * k) 4)))) s (List.range 8)
    let s := runImage s f
    let s := if f ≠ sel then wrOr (modSec s fun x => { x with fallback := true }) SEC_IRQ_STAT_fallback 1 else s
    (s, true)

/-! ### Identity (R539, R540) -/

/-- The identity key and the certificate stand, as L1 finds them at boot; a good key store restores the other one. -/
def deriveIdentity (s : State) : State :=
  modSec s fun x =>
    let id := 1 ≤ x.life && x.life ≤ 3 && !x.erased
    let any := x.keyStore.1 || x.keyStore.2
    { x with idOk := id, certOk := id && any, keyStore := (any, any) }

/-- A fresh challenge (R551). -/
def newChallenge (s : State) : State :=
  let r := fresh s
  modSec r.1 fun x => { x with challenge := BitVec.ofNat 128 r.2 }

/-! ### FW_STAGE and FW_ACTIVATE (R476–R480) -/

/-- FW_STAGE (0x0A01). -/
def execFwStage (h : EcpHdr) (offset : Nat) (data : List Byte) (s : State) : Host.Outcome State Fault Refusal :=
  .next <| ecpRun s h 0x0A01 [1] fun s =>
    if data.isEmpty || data.length > 8192 then (s, .bad 0)
    else if offset + data.length > 2 ^ 26 then (s, .bad 0)
    else if nvStopped s then (wrOr s PWR_IRQ_STAT_nv_block 1, .busy 100)
    else (writeFlash s (1 - s.sec.image) offset data, .ok [])

/-- Order in which an activation restarts the cores. -/
def activationOrder : List Nat := [0, 1, 6, 7, 2, 3, 4, 5]

/-- Step 4: the selector is written, MS4 extended, and the first restart begins. -/
def beginActivation (s : State) (a : Activation) : State :=
  let s := extend s 4 0x40 (digest (imageHeader s a.image))
  let s := modSec s fun x => { x with selector := a.image }
  startRestart { s with lh := { s.lh with act := some { a with deferred := none, left := activationOrder } } } 0

/-- FW_ACTIVATE (0x0A02). -/
def execFwActivate (h : EcpHdr) (image : Nat) (s : State) : Host.Outcome State Fault Refusal :=
  .next <|
    let t := ecpRun s h 0x0A02 [1] fun s =>
      if image > 1 || image = s.sec.image then (s, .bad 0)
      else if s.lh.act.isSome then (s, .busy (busyTicks s))
      else match imageFailure s image with
        | some d => (s, .fin stAUTH d [])
        | none =>
          let a : Activation := ⟨h.berth, h.seq, image, s.sec.selector, none, []⟩
          if clearTwice s then ({ s with lh := { s.lh with act := some a } }, .later)
          else ({ s with lh := { s.lh with act := some { a with deferred := some s.lh.tick } } }, .deferred)
    match t.lh.act with
    | some a => if s.lh.act.isNone && a.deferred.isNone then beginActivation t a else t
    | none => t

/-- ACTIVATION_PROCEED: two clear ticks have passed. -/
def execActivationProceed (s : State) : Host.Outcome State Fault Refusal :=
  .next <|
    match s.lh.act with
    | some a => if a.deferred.isSome && clearTwice s then beginActivation s a else s
    | none => s

/-- The activation is over. -/
def dropActivation (s : State) : State := { s with lh := { s.lh with act := none } }

/-- ACTIVATION_DEFER_TIMEOUT: 1,000,000 ticks after the interim DEFERRED, a final one. -/
def execActivationDeferTimeout (s : State) : Host.Outcome State Fault Refusal :=
  .next <|
    match s.lh.act with
    | some a =>
      (match a.deferred with
        | some t =>
          if since s t ≥ 1000000 && !clearTwice s then finish (dropActivation s) a.berth 0x0A02 a.seq stDEFERRED 0 [] else s
        | none => s)
    | none => s

/-- ACTIVATION_RESTART_FAIL: the selector goes back, and the cores restarted so far restart from the previous image (R479). -/
def execActivationRestartFail (s : State) : Host.Outcome State Fault Refusal :=
  .next <|
    match s.lh.act with
    | some a =>
      (match a.left with
        | k :: rest =>
          (match (coreOf s k).restart with
            | some t =>
              if since s t < 20 then s
              else
                let s := modSec (dropActivation s) fun x => { x with selector := a.old, ranFor := 0 }
                let again := activationOrder.filter fun j => !(j ∈ rest)
                finish (foldS dueRestart s again) a.berth 0x0A02 a.seq stFAULT 0 []
            | none => s)
        | [] => s)
    | none => s

/-- Every core runs the new image: the final OK; another interface major closes the berths (R480). -/
def endActivation (s : State) (a : Activation) : State :=
  let old := majorOf s.sec.header
  let s := runImage (dropActivation s) a.image
  let s := finish s a.berth 0x0A02 a.seq 0 0 []
  if majorOf s.sec.header ≠ old then foldS (fun s b => closeBerth s b true) s berths else s

/-- CORE_RESTART_DONE: the core runs again; during an activation the next core follows (R474, R477). -/
def execCoreRestartDone (core : Nat) (s : State) : Host.Outcome State Fault Refusal :=
  .next <|
    if core ≥ 8 || (coreOf s core).restart.isNone then s
    else
      let s := coreRunsAgain s core
      match s.lh.act with
      | some a =>
        (match a.left with
          | k :: rest =>
            if k ≠ core then s
            else match rest with
              | [] => endActivation s a
              | j :: _ => startRestart { s with lh := { s.lh with act := some { a with left := rest } } } j
          | [] => s)
      | none => s

/-- ROLLBACK_COUNTER_RAISE (R544). -/
def execRollbackCounterRaise (s : State) : Host.Outcome State Fault Refusal :=
  .next <|
    if !rbPending s || s.sec.ranFor < rd1 s SEC_RB_DELAY || nvStopped s || s.lh.act.isSome then s
    else wrOr (modSec s fun x => { x with rbBits := svnOf x.header }) SEC_IRQ_STAT_rb_advance 1

/-! ### ATTEST (R548) -/

/-- The admitted identities in berth order. -/
def admittedBytes (s : State) : List Byte :=
  berths.flatMap fun b => match (berthOf s b).admitted with
    | some d => toBe 32 d.toNat
    | none => zeros 32

/-- Bytes 0–6,386 of a quote. -/
def quoteBody (s : State) (nonce : List Byte) : List Byte :=
  let flags := b2n s.sec.debug + 2 * b2n (outOfService s) + 4 * b2n (rd s SWL_ALARM ≠ 0) + 8 * b2n s.sec.fallback
    + 16 * b2n (rbPending s)
  toLe 2 0x5154 ++ toLe 1 1 ++ toLe 1 s.sec.life ++ toLe 2 s.sec.epoch.toNat ++ zeros 2 ++ toLe 8 (now s) ++ slice nonce 0 32
    ++ toLe 16 Config.serial.toNat ++ toLe 2 (partCode s.variant) ++ toLe 1 1 ++ zeros 1 ++ toLe 4 (devCap s.variant)
    ++ toLe 4 s.sec.rbBits ++ toLe 4 (svnOf s.sec.header) ++ toLe 4 (buildOf s.sec.header) ++ toLe 2 (majorOf s.sec.header)
    ++ toLe 2 (fld s.sec.header 10 2) ++ toLe 1 s.sec.image ++ toLe 1 flags ++ zeros 6
    ++ (List.range 8).flatMap (fun i => toBe 32 (mgetD s.sec.slots i 0).toNat) ++ digest (admittedBytes s)
    ++ slice Config.certificate 0 6003

/-- ATTEST (0x0A03). -/
def execAttest (h : EcpHdr) (nonce : List Byte) (s : State) : Host.Outcome State Fault Refusal :=
  .next <| ecpRun s h 0x0A03 [1] fun s =>
    if nonce.length ≠ 32 then (s, .bad 0)
    else if !s.sec.certOk then (s, .fin stFAULT 0 [])
    else
      let q := quoteBody s nonce
      (count s 0x0720 1, .ok (q ++ slice (Config.mldsa44Sign q) 0 2420))

/-! ### Tokens (R551, R552) -/

/-- The token is good for a target: every field matches, the key is right and not revoked, the signature verifies. The key is that of
the index that the token names. -/
def tokenGood (s : State) (target : Nat) (t : List Byte) (key : List Byte) : Bool :=
  let k := fld t 38 1
  t.length = 2484 && fld t 0 2 = 0x544B && fld t 2 1 = 1 && fld t 3 1 = target && fld t 4 16 = Config.serial.toNat
    && slice t 20 16 = toLe 16 s.sec.challenge.toNat && fld t 36 2 = s.sec.epoch.toNat && k < 4 && allZero (slice t 39 25)
    && Config.sha3 key = Config.tokenKeyHash k && !Config.tokenKeyRevoked k
    && Config.mldsa44Verify key (slice t 0 64) (slice t 64 2420)

/-- The key of the index that a token names (Config, log 47). -/
def tokenKey (t : List Byte) : List Byte := Config.tokenKeyOf (fld t 38 1)

/-- Check a vendor token; accepted or refused, it replaces the challenge. -/
def checkToken (s : State) (target : Nat) (t : List Byte) : State × Bool :=
  if s.sec.refused ≥ 8 then (s, false)
  else if tokenGood s target t (tokenKey t) then (newChallenge s, true)
  else
    let s := modSec s fun x => { x with refused := x.refused + 1 }
    (newChallenge (count (wrOr s SEC_IRQ_STAT_token_fail 1) 0x0721 1), false)

/-! ### Life cycle (R549–R555) -/

/-- Enter a state at once: burned, measured. -/
def enterLife (s : State) (life : Nat) : State :=
  measureLife (wrOr (modSec s fun x => { x with life := life }) SEC_IRQ_STAT_lc_change 1)

/-- A transition that erases first: it waits ten ticks (R554). -/
def leaveLife (s : State) (life : Nat) : State :=
  wrOr (modSec s fun x => { x with leaving := some (life, s.lh.tick) }) SEC_IRQ_STAT_lc_change 1

/-- Debug opens (R553). -/
def openDebug (s : State) (t : List Byte) : State :=
  extend (wrOr (modSec s fun x => { x with debug := true }) SEC_IRQ_STAT_debug_open 1) 5 0x50 (digest t)

/-- The transition of R550 that a request asks for, and its answer. -/
def lifeRequest (s : State) (target : Nat) (t : List Byte) : State × Ans :=
  let l := s.sec.life
  let withToken (f : State → State) : State × Ans :=
    let r := checkToken s target t
    if r.2 then (f r.1, .ok []) else (r.1, .fin stAUTH 0 [])
  if l = 1 && target = 2 then if s.sec.certOk then (enterLife s 2, .ok []) else (s, .bad 1)
  else if l = 2 && target = 3 then withToken fun s => leaveLife s 3
  else if l = 3 && target = 2 then
    if s.sec.refurb ≥ 3 then (s, .bad 1)
    else withToken fun s => enterLife (modSec s fun x => { x with refurb := x.refurb + 1 }) 2
  else if 1 ≤ l && l ≤ 3 && target = 4 then if t = [0xDC] then (leaveLife s 4, .ok []) else (s, .fin stAUTH 0 [])
  else if (l = 1 || l = 3) && target = 0x10 then withToken fun s => openDebug s t
  else (s, .bad 1)

/-- LIFECYCLE (0x0A04). -/
def execLifecycle (h : EcpHdr) (target : Nat) (token : List Byte) (s : State) : Host.Outcome State Fault Refusal :=
  .next <| ecpRun s h 0x0A04 [1] fun s =>
    if nvStopped s then (wrOr s PWR_IRQ_STAT_nv_block 1, .busy (busyTicks s))
    else if s.sec.leaving.isSome || s.lh.act.isSome then (s, .busy (busyTicks s))
    else if token.isEmpty || token.length > 4096 then (s, .bad 0)
    else lifeRequest s target token

/-- LIFECYCLE_ERASE: ten ticks after the OK, keys, admissions and secrets go, the OTP is burned and a DEVICE reset follows. -/
def execLifecycleErase (s : State) : Host.Outcome State Fault Refusal :=
  .next <|
    match s.sec.leaving with
    | some (life, t) =>
      if s.sec.life = life || since s t < 10 || nvStopped s || inReset s 0x3F then s
      else
        let s := { s with swl := { s.swl with slots := [], loadWait := none } }
        let s := foldS (fun s b => closeBerth s b false) s berths
        let s := modSec s fun x => { x with life := life, erased := x.erased || life = 4 }
        enterDevice (measureLife s) true true
    | none => s

/-! ### JTAG (R549, R550, R579) -/

/-- JTAG answers with a data register. -/
def jtagOut (s : State) (ir v : Nat) : State := emit { s with edge := { s.edge with jtagIr := ir } } (.jtag ir v)

/-- IDCODE (R579). -/
def idcode (v : Variant) : Nat := 2 ^ 28 + 2 ^ 12 * partCode v + 2 * 0x5D9 + 1

/-- JTAG_BYPASS: one bit, 0. -/
def execJtagBypass (s : State) : Host.Outcome State Fault Refusal := .next <| jtagOut s 0 0

/-- JTAG_IDCODE. -/
def execJtagIdcode (s : State) : Host.Outcome State Fault Refusal := .next <| jtagOut s 1 (idcode s.variant)

/-- JTAG_SAMPLE_PRELOAD: the pins are captured and shifted out; not in DECOMMISSIONED. -/
def execJtagSamplePreload (pins : Nat) (s : State) : Host.Outcome State Fault Refusal :=
  .next <| if s.sec.life = 4 then s else jtagOut { s with edge := { s.edge with bscan := pins } } 2 pins

/-- JTAG_EXTEST: the boundary-scan register drives the pins; in SECURED only while MOD_RESET_N holds the module in reset. -/
def execJtagExtest (pins : Nat) (s : State) : Host.Outcome State Fault Refusal :=
  .next <|
    if s.sec.life = 4 || (s.sec.life = 2 && !s.rst.pinHeld) then s
    else jtagOut { s with edge := { s.edge with bscan := pins } } 3 pins

/-- JTAG_PROVISION: BLANK to PROVISIONED, where the device secret is made and the certificate written; or PROVISIONED to SECURED. -/
def execJtagProvision (s : State) : Host.Outcome State Fault Refusal :=
  .next <|
    if nvStopped s then s
    else if s.sec.life = 0 then
      deriveIdentity (enterLife (modSec s fun x => { x with keyStore := (true, true) }) 1)
    else if s.sec.life = 1 && s.sec.certOk then enterLife s 2
    else s

/-- JTAG_DEBUG_OPEN: a vendor token opens debug in PROVISIONED or RETURN. -/
def execJtagDebugOpen (token : List Byte) (s : State) : Host.Outcome State Fault Refusal :=
  .next <|
    if (s.sec.life = 1 || s.sec.life = 3) && s.sec.leaving.isNone then (lifeRequest s 0x10 token).1 else s

end Sys2Proof.Machine
end

