-- ==== Sys2Proof/Machine/Resets.lean ====
section
/-!
DEFINITION. Clocks, resets and recovery (R505–R538): what a reset of each domain does, the DEVICE reset and the start of the module
(R518, R564), the error log, crash records, and the commands of group 0x09.
-/
namespace Sys2Proof.Machine
open Sys2Proof

/-! ### Crash records (R520–R522) -/

/-- SHF_STAT, SHF_CUR_OP and SHF_CUR_LAYER (R66). -/
def shfStat (s : State) : Nat :=
  let i := s.shelf.lastInfo
  let r := s.shelf.running.isSome
  b2n r + 2 * b2n (!rdb s SHF_CTL_issue_en || s.shelf.faulted || s.shelf.stackStop) + 4 * (i.1 % 4) + 16 * b2n (r && i.2.1) + 32 * b2n (r && i.2.2.1)
    + 64 * b2n s.shelf.faulted + 128 * b2n s.pwr.emergClk
def shfCurOp (s : State) : Nat := s.shelf.lastInfo.2.2.2.1.toNat
def shfCurLayer (s : State) : Nat := s.shelf.lastInfo.2.2.2.2.1 % 65536 + 65536 * (s.shelf.lastInfo.2.2.2.2.2 % 256)

/-- Bytes of a free number: bits that the spec does not state. -/
def freeBytes (v n : Nat) : List Byte := (List.range n).map fun i => BitVec.ofNat 8 (v / 256 ^ i)

/-- Harbour metadata of a record: head descriptors, commit records, three registers, then moves and table entries, whose layouts the
spec does not give (free values, log 48). -/
def crashMeta (s : State) (v : Nat) : List Byte :=
  let head (b : Nat) : List Byte := match fget s.shelf.streams b with
    | d :: _ => slice d 0 128
    | [] => zeros 128
  let named := (berths.flatMap fun b => match fget s.shelf.streams b with
    | d :: _ => (opHandles (parseOp d)).map fun h => okey (hBerth h) (hObj h)
    | [] => []) ++ s.mem.moves.map fun m => okey m.berth m.object
  berths.flatMap head ++ berths.flatMap (fun b => toLe 8 (fget s.upd.commits b).toNat) ++ toLe 4 (shfCurOp s) ++ toLe 4 (shfCurLayer s)
    ++ toLe 4 (shfStat s) ++ freeBytes v (16 * s.mem.moves.length + 32 * named.eraseDups.length)

/-- An entry as 32 bytes (R524). -/
def entryBytes (e : LogEntry) : List Byte :=
  toLe 4 e.seq.toNat ++ toLe 8 e.tick.toNat ++ toLe 1 e.domain ++ toLe 1 e.cls ++ toLe 1 e.gen ++ toLe 1 (b2n e.inRec)
    ++ toLe 2 e.source ++ zeros 2 ++ toLe 8 e.detail.toNat ++ toLe 1 e.berth ++ zeros 3

/-- Take a crash record of a domain; the last four are kept. -/
def takeCrash (s : State) (d : Nat) : State :=
  let n := s.free
  let s := useFree (useFree s)
  let e := (s.rst.log.filter fun e => e.domain = d).getLast?
  let c : Crash :=
    { domain := d, cls := (e.map (·.cls)).getD 0, epoch := s.sec.epoch, tick := s.lh.tick, logSeq := (e.map (·.seq)).getD 0
      offset := BitVec.ofNat 32 (rd s RST_CRASH_OFF_offset / 256 * 256), gens := (List.range 64).map (genOf s)
      meta_ := crashMeta s (Config.freeNat n), log := s.rst.log, sample := n + 1 }
  modRst s fun r => { r with crashes := (c :: r.crashes).take 4 }

/-- The regions of a tile store in their order, sizes in KiB (R33): operand rings A and B, accumulators, vector scratch, engine
reserve. No command and no CRS offset reaches them. -/
def tileRegions : List Nat := [256, 256, 128, 256, 128]

/-- The region that an address of a tile store lies in, and the offset within it; none past the end of the store. -/
def tileRegion (a : Nat) : Option (Nat × Nat) :=
  ((List.range 5).map fun i => (i, 1024 * (tileRegions.take i).sum)).findSome? fun r =>
    if r.2 ≤ a && a < r.2 + 1024 * nth tileRegions r.1 0 then some (r.1, a - r.2) else none

/-- A sampled byte of a tile store: 0 where the store has no region. -/
def tileSample (sample tile a : Nat) : Byte := if (tileRegion a).isSome then Config.tileStoreByte sample tile a else 0

/-- A byte of a crash record (R521); which samples met an error, and the samples themselves, are free values. -/
def crashByte (c : Crash) (i : Nat) : Byte :=
  let v := Config.freeNat c.sample
  let head := toLe 2 0x4352 ++ toLe 1 1 ++ toLe 1 c.domain ++ toLe 1 c.cls ++ toLe 1 0 ++ toLe 2 c.epoch.toNat ++ toLe 8 c.tick.toNat
    ++ toLe 4 c.logSeq.toNat ++ toLe 4 c.offset.toNat ++ c.gens.flatMap (toLe 1)
  if i < 88 then nth head i 0
  else if i < 216 then BitVec.ofNat 8 (v / 256 ^ (i - 88))
  else if i < 256 then 0
  else if i < 262400 then tileSample c.sample ((i - 256) / 256) (c.offset.toNat + (i - 256) % 256)
  else if i < 327936 then nth c.meta_ (i - 262400) 0
  else match c.log[(i - 327936) / 32]? with
    | some e => nth (entryBytes e) ((i - 327936) % 32) 0
    | none => 0

/-! ### The DEVICE reset (R518, R432, R467, R538, R560, R586) -/

/-- Offsets whose words stand: Beacon, MGT but for the flash buffer, RST_REPLACE, and the crystal's and PLLs' state. -/
def survives (off : Nat) : Bool :=
  off = BCN_WATCH.off || off = BCN_CAUSE.off || off = BCN_TIMER.off || off = RST_REPLACE.off || off = CLK_STAT.off
    || (0x90000 ≤ off && off < MGT_FL_BUF.off)

/-- Counts that run since power-on or sit in the always-on domain. -/
def countSurvives (id : Nat) : Bool :=
  id = 0x0200 || (0x0400 ≤ id && id ≤ 0x0410) || id = 0x0720 || id = 0x0721 || (0x0800 ≤ id && id ≤ 0x0804)

/-- Cables stay where they are. -/
def bareCliff (s : State) : Cliff :=
  { Cliff.reset with ports := s.clf.ports.map fun p => (p.1, { Port.idle with seated := p.2.seated, supply := p.2.supply }) }

/-- The state while DEVICE reset is asserted. -/
def deviceState (s : State) : State :=
  let p := s.pwr
  let r := s.rst
  let gone : Bool := match s.sec.leaving with
    | some (l, _) => decide (l = s.sec.life)
    | none => false
  { State.reset with
    pending := s.pending, variant := s.variant, free := s.free, tx := s.tx
    regs := mfilter s.regs fun k _ => survives k
    counts := mfilter s.counts fun k _ => countSurvives k
    icu := { Icu.reset with
      input := s.icu.input &&& 0x2000, counts := mfilter s.icu.counts fun k _ => k < 16, wakeCause := s.icu.wakeCause
      wakeTick := s.icu.wakeTick }
    clf := bareCliff s
    eth := { Ether.reset with
      opened := s.eth.opened, ptpLocked := s.eth.ptpLocked, downSince := (List.range 4).map fun i => (i, s.lh.tick) }
    lh := { Lighthouse.reset with tick := s.lh.tick }
    pwr := { p with
      emergClk := false, warnFor := 0, coolFor := 0, nvBlocked := p.nvBlocked, stopAt := none, reminder := p.reminder, asleep := false }
    rst := { r with
      domains := [(0x3F, ⟨4, s.lh.tick, false, false⟩)], answers := [], delayed := none, log := [], overflow := false, lost := 0
      shared := [], crashes := (if gone then [] else r.crashes), crashing := [], serving := false, running := false
      stage := min r.stage 5 }
    sec := { s.sec with
      debug := false, slots := [], fallback := false, ranFor := 0, idOk := false, certOk := false, header := [], otherSvn := 0
      leaving := none }
    edge := s.edge }

/-- DEVICE reset is asserted. -/
def assertDevice (s : State) : State := deviceState s

/-- Something holds the DEVICE reset: MOD_RESET_N, the input, the temperature or a failed start. -/
def deviceHeld (s : State) : Bool := s.rst.pinHeld || s.rst.devHeld || s.pwr.resetHeld || s.pwr.tripped

/-- The DEVICE reset is released: PLLs lock and the boot ROM begins (R564 step 6). -/
def releaseDevice (s : State) : State :=
  match mget s.rst.domains 0x3F with
  | some r =>
    if r.phase = 4 && !deviceHeld s then
      modRst (if s.rst.stage = 5 then wr s CLK_STAT_locked 0x1F else s) fun x =>
        { x with domains := mset x.domains 0x3F { r with phase := 5, since := s.lh.tick }, stageAt := s.lh.tick, railsAt := s.lh.tick }
    else s
  | none => s

/-- Enter a DEVICE reset that takes no crash record and assert it at once. -/
def resetNow (s : State) (counted : Bool) : State :=
  if inReset s 0x3F then s else assertDevice (enterDevice s counted false)

/-! ### What a domain's reset does (R510, R513, R516, R517) -/

/-- D of a MATMUL_ACC that a SHELF reset interrupts: prior value or partial sum, which the spec leaves open. -/
def looseSum (s : State) (r : RunOp) : State :=
  let o := parseOp r.desc
  let out := compute s o (packOf (rdb s SHF_CTL_auto_pack) o.pack o.m o.n) r.mask r.seed r.step false
  let v := Config.freeNat s.free
  let l : NMap Byte := out.writes.mapIdx fun i p => (p.1, BitVec.ofNat 8 (v / 256 ^ i))
  (writeRuns (useFree s) o.hd l).1

/-- The shard whose update a running engine pass belongs to: its UPD passes, its SND_COV passes (R137), and the Solver's passes on its
ORTH request (R173). -/
def updateHit (s : State) (r : RunOp) : Option Nat :=
  if r.pass.code ≥ 0x28 then some r.pass.slot
  else if r.pass.code = 0x20 then (if updatePass s r.pass then some r.pass.stage else none)
  else if r.pass.code ≥ 0x22 then (match fget s.slv.queues r.berth with
    | p :: _ => if p.orth then some p.shard else none
    | [] => none)
  else none

/-- The interrupted update of a shard starts again from its first pass, its SND_COV passes among them, so that the blocks of G that
they wrote are written anew (R193, R531). A second interruption is a nested error. -/
def rerunUpdate (s : State) (k n b : Nat) : State :=
  match updateOf s n with
  | none => s
  | some u =>
    if u.reruns ≥ 1 then nestedError s k
    else
      let own (e : EngPass) : Bool := (e.code ≥ 0x28 && e.slot = n) || (e.code = 0x20 && e.stage = n && updatePass s e)
      let again := fun (s : State) (e : EngPass) =>
        if e.code = 0x20 then modFs s e.slot fun f => { f with gDone := f.gDone.filter (· ≠ e.block) } else s
      let s := modUpdate s n fun u => { u with reruns := u.reruns + 1, finite := true, orthing := false }
      let s := foldS again s u.passes
      let s := modSlv s fun x => { x with queues := fmod x.queues b (·.filter fun p => !(p.orth && p.shard = n)) }
      modShelf s fun x => { x with
        running := none, engines := fmod x.engines b fun l => u.passes ++ l.filter (!own ·) }

/-- The operation that a SHELF reset interrupts (R516). -/
def interruptShelf (s : State) (k : Nat) : State :=
  match s.shelf.running with
  | none => s
  | some r =>
    if r.engine then (match updateHit s r with
      | some n => rerunUpdate s k n r.berth
      | none => s)
    else if (parseOp r.desc).opcode = 2 then
      let o := parseOp r.desc
      let s := looseSum (leaveArray s r []) r
      let s := opFault (setFlag s r.berth) r.berth o.seq 0x01 0xFF
      if (berthOf s r.berth).closing then clearJob (doneCount s r.berth) r.berth
      else if r.segment then s
      else if triggerBlocked s r.berth o then modShelf s fun x => { x with heldDone := some { r with maskBad := true } }
      else finishOp s r true
    else s

/-- A HARBOUR reset loses what the system area held: objects, queues, tables, Offshore sessions; keys and coordinates stand. -/
def resetHarbour (s : State) : State :=
  let one (s : State) (b : Nat) : State :=
    let s := clearShingle (freeObjects (leaveSession s b) b) b
    let s := modShelf s fun x => { x with
      running := (x.running.filter fun r => r.berth ≠ b), heldDone := (x.heldDone.filter fun r => r.berth ≠ b) }
    let s := clearNumbers (clearEngines (clearShelf s b) b) b
    let s := foldS (fun s c => modChan s b c fun x => { x with active := [], queue := [] }) s allChans
    modBerth s b fun q => { q with held := [], cache := [], events := [] }
  let s := foldS one s berths
  modRst s fun r => { r with shared := [] }

/-- A LONGSHORE reset abandons the collectives in progress; groups and templates stand (R307). -/
def resetLongshore (s : State) : State :=
  let one (s : State) (b : Nat) : State :=
    let red := allChans.any fun c => (chanOf s b c).active.any fun x => isRed x.op
    let s := foldS (fun s c => modChan s b c fun x => { x with active := [], past := [] }) s allChans
    modLsh s fun l => { l with
      lost := if red then fset l.lost b true else l.lost
      permute := fset l.permute b Permute.none }
  modLsh (foldS one s berths) fun l => { l with early := [], outbox := [], suspects := fourOf [] }

/-- A QUAY reset: every berth DETACHED, with windows and status caches lost (R427). -/
def resetQuay (s : State) : State :=
  foldS (fun s b =>
    if (berthOf s b).state = 0 then s
    else modBerth (detach s b) b fun q => { q with
      high := none, seen := [], cache := [], inflight := [], hello := none, rekeyAns := none, held := [] }) s berths

/-- Reset is asserted to a domain other than DEVICE. -/
def assertUnit (s : State) (d : Nat) : State :=
  if d < 4 then
    let others := [0, 1, 2, 3].any fun j => j ≠ d && (match mget s.rst.domains j with
      | some r => r.phase = 4 || r.phase = 5
      | none => false)
    if others then s else interruptShelf s d
  else if d = 4 then resetHarbour s
  else if 8 ≤ d && d ≤ 0x13 then portReset s (d - 8)
  else if d = 0x14 then resetLongshore s
  else if d = 0x15 then resetOffshore s
  else if d = 0x16 then resetSeawall s
  else if d = 0x17 then resetShingle s
  else if d = 0x18 then resetQuay s
  else if d = 0x19 || d = 0x1A then foldS (fun s i => setLink s i false) s (ifacesOf s (d - 0x19))
  else if 0x20 ≤ d && d ≤ 0x27 then startRestart s (d - 0x20)
  else s

/-- A domain other than DEVICE is ready. -/
def readyUnit (s : State) (d : Nat) : State :=
  if 8 ≤ d && d ≤ 0x13 then (if mayTrain s (d - 8) then startAttempt s (d - 8) else s)
  else if d = 0x15 then ofsContinueAll s
  else if d = 0x16 then resetHandshakes (modSwl s fun w => { w with seeded := w.failTick.isNone })
  else if 0x20 ≤ d && d ≤ 0x27 then coreRunsAgain s (d - 0x20)
  else s

/-- Give a domain's reset a phase. -/
def toPhase (s : State) (d n : Nat) : State :=
  modRst s fun r => { r with domains := mmod r.domains d fun x => { x with phase := n, since := s.lh.tick } }

/-- Phase 4: reset asserted. -/
def assertDomain (s : State) (d : Nat) : State :=
  if d = 0x3F then assertDevice s else assertUnit (toPhase s d 4) d

/-- The present phase of a domain's reset; 0 when none is in progress. -/
def phaseOf (s : State) (d : Nat) : Nat :=
  match mget s.rst.domains d with
  | some r => r.phase
  | none => 0

/-! ### The phases of R514 -/

/-- DOMAIN_QUIESCE_DONE: the crash record follows where the domain calls for one, else the reset. -/
def execDomainQuiesceDone (domain : Nat) (s : State) : Host.Outcome State Fault Refusal :=
  .next <|
    match mget s.rst.domains domain with
    | some r =>
      if r.phase ≠ 2 then s
      else if r.crash && !r.byCmd then modRst (toPhase s domain 3) fun x => { x with crashing := x.crashing ++ [domain] }
      else assertDomain s domain
    | none => s

/-- CRASH_RECORD_DONE: the record at the head is complete, and the reset that waits for it is asserted. -/
def execCrashRecordDone (s : State) : Host.Outcome State Fault Refusal :=
  .next <|
    match s.rst.crashing with
    | [] => s
    | d :: rest =>
      let s := modRst (takeCrash s d) fun r => { r with crashing := rest }
      if phaseOf s d = 3 then assertDomain s d else s

/-- The present phase of a domain's reset has lasted so many ticks (R514). -/
def phaseFor (s : State) (d n : Nat) : Bool :=
  match mget s.rst.domains d with
  | some r => since s r.since ≥ n
  | none => false

/-- Ticks of a domain's restart (R514). -/
def restartTicks (d : Nat) : Nat := if d < 4 then 2 else if d = 5 || d = 6 then 5 else if 0x20 ≤ d && d ≤ 0x27 then 20 else 3

/-- DOMAIN_RESET_RELEASE: reset has been held for its tick. -/
def execDomainResetRelease (domain : Nat) (s : State) : Host.Outcome State Fault Refusal :=
  .next <|
    if phaseOf s domain ≠ 4 || !phaseFor s domain 1 then s
    else if domain = 0x3F then releaseDevice s
    else toPhase s domain 5

/-- The DOMAIN_RESET event to every berth that is not CLOSED (R424, R514). -/
def resetEvent (s : State) (d : Nat) : State := eventAll s 0x000A 0 (toBe 1 d ++ toBe 1 (genOf s d))

/-- DOMAIN_READY after the ticks of its restart: the unit works again, and events and answers leave. -/
def execDomainReady (domain : Nat) (s : State) : Host.Outcome State Fault Refusal :=
  .next <|
    if domain = 0x3F || phaseOf s domain ≠ 5 || !phaseFor s domain (restartTicks domain) then s
    else
      let s := modRst s fun r => { r with upAt := mset r.upAt domain s.lh.tick }
      let s := readyUnit (toPhase s domain 6) domain
      let s := resetEvent (wrOr s RST_IRQ_STAT_reset 1) domain
      let mine := s.rst.answers.filter fun a => a.1 = domain
      let s := modRst s fun r => { r with answers := r.answers.filter fun a => a.1 ≠ domain }
      foldS (fun s (a : Nat × Nat × W32) => finish s a.2.1 0x0905 a.2.2 0 0 (toBe 1 (genOf s domain))) s mine

/-- RECOVERY_WINDOW_END: RST_SETTLE ticks after ready. -/
def execRecoveryWindowEnd (domain : Nat) (s : State) : Host.Outcome State Fault Refusal :=
  .next <|
    match mget s.rst.domains domain with
    | some r =>
      if r.phase = 6 && since s r.since ≥ rd1 s RST_SETTLE_ticks then modRst s fun x => { x with domains := mdel x.domains domain } else s
    | none => s

/-! ### What starts a reset -/

/-- A reset that L6 or a hang asks for: nested while the domain recovers (R526); one of L0 waits out an emergency (R475). -/
def askReset (s : State) (d : Nat) : State :=
  if !domainCode d || !domainExists s.variant d || inReset s 0x3F then s
  else if recovering s d then nestedError s d
  else if d = 0x20 && emergency s then modCore s 0 fun c => { c with waiting := true }
  else enterReset s d false true

/-- A write of RST_REQ. -/
def writeRstReq (s : State) (c : CrsWrite) : State :=
  if woBits s RST_REQ_go c = 0 then s
  else
    let d := bits c.value.toNat 5 0
    if c.req = 6 || (c.req = 1 && d = 0x26) then askReset s d else s

/-- RST_REQ_GO. -/
def execRstReqGo (w : CrsWrite) (s : State) : Host.Outcome State Fault Refusal := .next <| writeRstReq s w

/-- A request of another domain can have been held for RST_HANG ticks: so long has the domain been ready, or the module served. -/
def hangPossible (s : State) (d : Nat) : Bool :=
  since s (match mget s.rst.upAt d with
    | some t => t
    | none => s.rst.stageAt) ≥ rd1 s RST_HANG_ticks

/-- HANG_DETECT: the domain that holds a request resets; the Shelf scheduler's hang resets SHELF0–SHELF3 together; the cores have
their watchdogs (R515). -/
def execHangDetect (domain : Nat) (s : State) : Host.Outcome State Fault Refusal :=
  .next <|
    if !domainExists s.variant domain || domain = 0x3F || (0x20 ≤ domain && domain ≤ 0x27) || inReset s 0x3F || !hangPossible s domain then s
    else
      let rec_ := recovering s domain
      let s := logError (wrOr s RST_IRQ_STAT_hang 1) domain 3 0 (BitVec.ofNat 64 domain) 0xFF
      if rec_ then s
      else if domain < 4 then foldS (fun s d => if recovering s d || inReset s 0x3F then s else enterReset s d false true) s [0, 1, 2, 3]
      else enterReset s domain false true

/-- DOMAIN_RESET (0x0905): R519. -/
def execDomainReset (h : EcpHdr) (domain : Nat) (s : State) : Host.Outcome State Fault Refusal :=
  .next <| ecpRun s h 0x0905 [6] fun s =>
    if !domainCode domain then (s, .bad 1)
    else if !domainExists s.variant domain then (s, .fin stABSENT 0 [])
    else match s.rst.delayed with
      | some (_, g) => if domain = 0x3F then (s, .ok (toBe 1 g)) else (s, .busy (busyTicks s))
      | none =>
        if recovering s domain then (s, .busy (busyTicks s))
        else if domain = 0x3F then
          let g := (genOf s 0x3F + 1) % 256
          (modRst s fun r => { r with delayed := some (s.lh.tick, g) }, .ok (toBe 1 g))
        else if domain = 0x20 && emergency s then (s, .busy (busyTicks s))
        else if domain = 0x22 + h.berth then (s, .bad 2)
        else
          let s := modRst s fun r => { r with answers := r.answers ++ [(domain, h.berth, h.seq)] }
          (enterReset s domain true true, .later)

/-- DEVICE_RESET_DELAYED: ten ticks after the OK. -/
def execDeviceResetDelayed (s : State) : Host.Outcome State Fault Refusal :=
  .next <|
    match s.rst.delayed with
    | some (t, _) => if since s t ≥ 10 then enterDevice (modRst s fun r => { r with delayed := none }) true true else s
    | none => s

/-! ### Clocks (R509) -/

/-- CRYSTAL_FAULT: holdover begins and REPLACE_REQUEST is raised. -/
def execCrystalFault (s : State) : Host.Outcome State Fault Refusal :=
  .next <|
    if rdb s CLK_STAT_holdover then s
    else
      let s := wrOr (wrs s [(CLK_STAT_xtal_ok, 0), (CLK_STAT_holdover, 1)]) CLK_IRQ_STAT_xtal 1
      raiseReplace (logError (modRst s fun r => { r with holdTick := some s.lh.tick }) 0x3F 0x0C 14 0 0xFF) 8

/-- CRYSTAL_RECOVER: holdover ends. -/
def execCrystalRecover (s : State) : Host.Outcome State Fault Refusal :=
  .next <|
    if !rdb s CLK_STAT_holdover then s
    else
      let s := wrOr (wrs s [(CLK_STAT_xtal_ok, 1), (CLK_STAT_holdover, 0)]) CLK_IRQ_STAT_hold_end 1
      dropReplace (modRst s fun r => { r with holdTick := none }) 8

/-- HOLDOVER_EXPIRY: CLK_HOLD ticks without recovery take the module out of service. -/
def execHoldoverExpiry (s : State) : Host.Outcome State Fault Refusal :=
  .next <|
    match s.rst.holdTick with
    | some t =>
      if since s t < rd1 s CLK_HOLD then s
      else
        let s := wrOr (modRst s fun r => { r with holdTick := none }) CLK_IRQ_STAT_hold_end 1
        if s.rst.latch then s else leaveService s 0x04 0x3F
    | none => s

/-- PLL_UNLOCK: a DEVICE reset (R509, R535). -/
def execPllUnlock (pll : Nat) (s : State) : Host.Outcome State Fault Refusal :=
  .next <|
    if pll ≥ 5 then s
    else
      let s := count (wrOr s CLK_IRQ_STAT_unlock 1) (0x0400 + pll) 1
      enterDevice (wr s CLK_STAT_locked (rd s CLK_STAT_locked - (rd s CLK_STAT_locked &&& 2 ^ pll))) true true

/-! ### The start of the module (R564, R408, R222, R528) -/

/-- A start-up step fails: the module stays in DEVICE reset, and MOD_ALERT_N says so. -/
def startFails (s : State) : State :=
  let s := setAlert s 5
  modRst s fun r => { r with devHeld := true, domains := mset r.domains 0x3F ⟨4, s.lh.tick, false, false⟩ }

/-- L1 advances the device epoch and keeps it in flash, or later when the supply stops the write (R408). -/
def advanceEpoch (s : State) : State :=
  modSec s fun x =>
    let e := if x.epoch = 65535 then 1 else x.epoch + 1
    { x with epoch := e, epochNv := if nvStopped s then x.epochNv else e, epochWait := nvStopped s }

/-- Step 6: an image boots, or none does, and the sideband alone serves (R543). -/
def bootStep (s : State) : State :=
  let r := bootImage s
  if r.2 then
    let s := newChallenge (deriveIdentity (advanceEpoch r.1))
    let s := foldS (fun s k => modCore s k fun _ => { Core.idle with lastDone := s.lh.tick }) s (List.range 8)
    modRst s fun x => { x with running := true, stage := 6, stageAt := s.lh.tick }
  else setAlert r.1 5

/-- Step 7: memory trained; the channels in service and those left out, the capacity codes and the T3 quotas follow (R222). -/
def trainStep (s : State) (detail : Nat) : State :=
  let s := wr s HBM_STAT_ok (0xFF - rd s HBM_STAT_failed)
  let s := if hasDdr s.variant then
      let up := bits detail 35 24
      let s := wrs s [(DDR_CAP_cap, bits detail 23 0), (DDR_STAT_in_service, up), (DDR_STAT_lost, 0xFFF - up)]
      foldS (fun s b => wr s (PGR_T3_QUOTA_pages.at b) (totalT3 s / 4)) s berths
    else s
  modRst s fun x => { x with stage := 7, stageAt := s.lh.tick }

/-- Firmware finds the flash flag set: the module stays out of service (R528, cause 0x05 of R588). -/
def staysOut (s : State) : State :=
  let s := logRaw s 0x3F 0x0A 0 5 0xFF
  setAlert (wrOr (modRst s fun r => { r with oosCause := 5, oosDomain := 0x3F, oosTick := s.lh.tick }) RST_IRQ_STAT_oos 1) 2

/-- Step 8: the module answers; issue_en is set unless it is out of service; a DEVICE reset is ready (R65, R514, R527). -/
def serveStep (s : State) : State :=
  let s := if s.rst.devOos && !s.rst.latch then leaveService s 0x01 0x3F
    else if s.rst.flashOos && !s.rst.latch then staysOut s else s
  let s := modRst s fun r => { r with serving := true, stage := 8, devOos := false, stageAt := s.lh.tick, upAt := [] }
  let s := if outOfService s then s else wr s SHF_CTL_issue_en 1
  if phaseOf s 0x3F = 5 then wrOr (toPhase s 0x3F 6) RST_IRQ_STAT_reset 1 else s

/-- POWER_ON_STAGE: the next step of R564 completes. `detail` gives the straps at step 1; at step 7 the capacity codes (23:0) and
channels in service (35:24), or the tile that failed self-test. -/
def execPowerOnStage (ok : Bool) (detail : Nat) (s : State) : Host.Outcome State Fault Refusal :=
  .next <|
    let n := s.rst.stage
    if s.rst.devHeld || n ≥ 8 || (n ≥ 5 && (s.rst.pinHeld || phaseOf s 0x3F = 4 || phaseOf s 0x3F = 3)) then s
    else if n = 0 then
      if !ok then startFails s
      else
        let s := { s with edge := { s.edge with straps := BitVec.ofNat 6 detail } }
        modRst (wr s CLK_STAT_xtal_ok 1) fun r => { r with stage := 1, stageAt := s.lh.tick }
    else if n = 1 then (if ok && s.pwr.vinOk ≥ 100 then modRst s fun r => { r with stage := 2, stageAt := s.lh.tick } else s)
    else if n ≤ 4 then
      if !ok then startFails s
      else modRst (if n = 4 then wr s CLK_STAT_locked 0x1F else s) fun r =>
        { r with stage := n + 1, stageAt := s.lh.tick, railsAt := if n = 3 then s.lh.tick else r.railsAt }
    else if n = 5 then bootStep s
    else if n = 6 then (if ok then trainStep s detail else tileFault (trainStep s 0) (detail % 1024) 0)
    else if ok then serveStep s else startFails s

/-- The step of R564 in hand has passed a limit that is counted in ticks: 50,000 for step 6, 100,000 for step 7, and 200,000 from the
end of step 4 for step 8 (R10). The limits of steps 1 to 5 are times. -/
def stepExpired (s : State) : Bool :=
  match s.rst.stage with
  | 5 => since s s.rst.stageAt ≥ 50000
  | 6 => since s s.rst.stageAt ≥ 100000
  | 7 => since s s.rst.railsAt ≥ 200000
  | _ => true

/-- STARTUP_STEP_TIMEOUT: the step in hand has passed its limit; step 2 has none. Step 6 and those after it wait for MOD_RESET_N. -/
def execStartupStepTimeout (s : State) : Host.Outcome State Fault Refusal :=
  .next <|
    if s.rst.stage ≥ 8 || s.rst.stage = 1 || s.rst.devHeld || phaseOf s 0x3F = 4 || (s.rst.stage ≥ 5 && s.rst.pinHeld)
      || !stepExpired s then s
    else startFails s

/-! ### The pins MOD_RESET_N and leak (R569, R582, R583) -/

/-- MOD_RESET_ASSERT: a DEVICE reset is held; an orderly stop completes first. -/
def execModResetAssert (s : State) : Host.Outcome State Fault Refusal :=
  .next <|
    if s.rst.pinHeld then s
    else
      let s := count (modRst s fun r => { r with pinHeld := true, devHeld := false }) 0x0801 1
      if s.pwr.stopAt.isSome then s
      else if inReset s 0x3F then (if phaseOf s 0x3F = 5 then toPhase (assertDevice s) 0x3F 4 else s)
      else resetNow s false

/-- MOD_RESET_RELEASE. -/
def execModResetRelease (s : State) : Host.Outcome State Fault Refusal :=
  .next <| if s.rst.pinHeld then releaseDevice (modRst s fun r => { r with pinHeld := false, stageAt := s.lh.tick, railsAt := s.lh.tick }) else s

/-- LEAK_DETECT: the alert and nothing else. -/
def execLeakDetect (s : State) : Host.Outcome State Fault Refusal :=
  .next <| setAlert { s with edge := { s.edge with leak := true } } 4

/-- AON_POWER_LOSS: everything is lost but flash, OTP and the levels on the pins (R565). -/
def execAonPowerLoss (s : State) : Host.Outcome State Fault Refusal :=
  .next <|
    { State.reset with
      pending := s.pending, variant := s.variant, free := s.free, tx := s.tx
      clf := bareCliff s
      pwr := { Power.reset with brake := s.pwr.brake }
      rst := { Resets.reset with flashOos := s.rst.flashOos, pinHeld := s.rst.pinHeld }
      sec := { Security.reset with
        life := s.sec.life, refurb := s.sec.refurb, rbBits := s.sec.rbBits, erased := s.sec.erased, selector := s.sec.selector
        keyStore := s.sec.keyStore, epoch := s.sec.epochNv, epochNv := s.sec.epochNv }
      edge := { Edge.reset with flash := s.edge.flash, leak := s.edge.leak } }

/-! ### The error log (R523–R525) -/

/-- An entry's sequence is at or below another, modulo 2^32. -/
def seqUpTo (e seq : W32) : Bool := (seq - e).toNat < 2 ^ 31

/-- A write of RST_LOG_ACK by L6: the entries go to the shared log and free their slots; after an overflow an entry says how many were
lost. -/
def writeLogAck (s : State) (c : CrsWrite) : State :=
  if c.req ≠ 6 || c.al = .clear || c.al = .toggle then s
  else
    let out := s.rst.log.filter fun e => seqUpTo e.seq c.value
    let over_ := s.rst.overflow && !out.isEmpty
    let lost := s.rst.lost
    let shared := s.rst.shared ++ out
    let s := modRst s fun r => { r with
      log := r.log.filter fun e => !seqUpTo e.seq c.value
      shared := shared.drop (shared.length - 4096), overflow := r.overflow && !over_, lost := if over_ then 0 else r.lost }
    if over_ then logRaw s 0x3F 0x0B 0 (BitVec.ofNat 64 lost) 0xFF else s

/-- RST_LOG_ACK_WRITE. -/
def execRstLogAckWrite (w : CrsWrite) (s : State) : Host.Outcome State Fault Refusal := .next <| writeLogAck s w

/-- ERRLOG_READ (0x0903): entries of the shared log from a sequence on, as many as a packet holds. -/
def execErrlogRead (h : EcpHdr) (first : W32) (s : State) : Host.Outcome State Fault Refusal :=
  .next <| ecpRun s h 0x0903 [6] fun s =>
    (s, .ok (((s.rst.shared.filter fun e => seqUpTo first e.seq).take 277).flatMap entryBytes))

/-- CRASH_READ (0x0901). -/
def execCrashRead (h : EcpHdr) (offset : W32) (length : Nat) (s : State) : Host.Outcome State Fault Refusal :=
  .next <| ecpRun s h 0x0901 [6] fun s =>
    let n := bits offset.toNat 31 30
    let o := bits offset.toNat 29 0
    if length = 0 || length > 8192 || o + length > 329984 then (s, .bad 0)
    else match s.rst.crashes[n]? with
      | some c => (s, .ok ((List.range length).map fun i => crashByte c (o + i)))
      | none => (s, .ok (zeros length))

/-! ### Return to service and diagnostics (R529, R420) -/

/-- RETURN_TO_SERVICE (0x0902). The operands say whether self-test, HBM4 training and DDR5 training pass. -/
def execReturnToService (h : EcpHdr) (tilesOk hbmOk ddrOk : Bool) (s : State) : Host.Outcome State Fault Refusal :=
  .next <| ecpRun s h 0x0902 [6] fun s =>
    if !s.rst.flashOos then (s, .bad 1)
    else if s.rst.latch then (s, .fin stOOS 0 [])
    else if nvStopped s then (wrOr s PWR_IRQ_STAT_nv_block 1, .busy (busyTicks s))
    else if tilesOk && hbmOk && (ddrOk || !hasDdr s.variant) then
      (wr (modRst s fun x => { x with flashOos := false, history := [] }) SHF_CTL_issue_en 1, .ok [])
    else (s, .fin stFAULT 0 [])

/-- DIAG (0x0904): a test that the spec leaves to itself; its result is a free value. -/
def execDiag (h : EcpHdr) (test : Nat) (argument : W64) (s : State) : Host.Outcome State Fault Refusal :=
  .next <| ecpRun s h 0x0904 [6] fun s => (s, .ok (slice (Config.diagResult test argument) 0 256))

end Sys2Proof.Machine
end

