-- ==== Sys2Proof/Machine/Power.lean ====
section
/-!
DEFINITION. Power, supply and temperature (R484–R497, R562): the hardware clamp, the sag thresholds and the orderly stop, the
emergency clock and the thermal trip, sleep, and the commands of group 0x0B.
-/
namespace Sys2Proof.Machine
open Sys2Proof

/-! ### The hardware clamp (R489–R491) -/

/-- The clamp engages, counted once. -/
def engageClamp (s : State) : State :=
  if s.pwr.clamp then modPwr s fun p => { p with clampGone := 0 }
  else condition (count (wrOr s PWR_IRQ_STAT_clamp 1) 0x0603 1) fun p => { p with clamp := true, clampGone := 0 }

/-- BRAKE_ASSERT: PWR_BRAKE_N low after its filter; the edge is counted, the clamp engages, POWER tells of it. -/
def execBrakeAssert (s : State) : Host.Outcome State Fault Refusal :=
  .next <|
    let s := count s 0x0800 1
    if s.pwr.brake then s
    else
      let s := condition s fun p => { p with brake := true, reminder := s.lh.tick }
      powerEvent (engageClamp s) 1

/-- BRAKE_RELEASE: the hold of R490 begins. -/
def execBrakeRelease (s : State) : Host.Outcome State Fault Refusal :=
  .next <| modPwr s fun p => { p with brake := false, clampGone := 0 }

/-- OVERCURRENT: the input current stays above PWR_OC.amps for 2 µs. -/
def execOvercurrent (amps : Nat) (s : State) : Host.Outcome State Fault Refusal :=
  .next <|
    if amps ≤ ocAmps s then s
    else
      let s := condition (fireEdge s 4) fun p => { p with overcur := true }
      powerEvent (engageClamp s) 2

/-- CLAMP_RELEASE: its causes have been absent for PWR_CLAMP.hold ticks. -/
def execClampRelease (amps : Nat) (s : State) : Host.Outcome State Fault Refusal :=
  .next <|
    if !s.pwr.clamp || !clampFree s (100 * amps) || s.pwr.clampGone < rd1 s PWR_CLAMP_hold then s
    else wrOr (modPwr s fun p => { p with clamp := false, overcur := false }) PWR_IRQ_STAT_clamp 1

/-- BRAKE_REMINDER: once every 100,000 ticks while the brake is held. -/
def execBrakeReminder (s : State) : Host.Outcome State Fault Refusal :=
  .next <|
    if !s.pwr.brake || since s s.pwr.reminder < 100000 then s
    else powerEvent (setAlert (modPwr s fun p => { p with reminder := s.lh.tick }) 0) 1

/-! ### The supply (R492, R493, R562) -/

/-- SUPPLY_SAG_32: non-volatile writes stop. -/
def execSupplySag32 (s : State) : Host.Outcome State Fault Refusal :=
  .next <| condition s fun p => { p with sag32 := true, nvBlocked := true }

/-- SUPPLY_SAG_30: g_hw is 26 and the power limit 1,200 W. -/
def execSupplySag30 (s : State) : Host.Outcome State Fault Refusal :=
  .next <| if s.pwr.sag30 then s else powerEvent (condition s fun p => { p with sag30 := true, nvBlocked := true }) 3

/-- The orderly stop begins. -/
def beginStop (s : State) : State :=
  if stopping s then s else powerEvent (modPwr s fun p => { p with stopAt := some s.lh.tick }) 4

/-- SUPPLY_SAG_27: source 3 fires and the orderly stop begins. -/
def execSupplySag27 (s : State) : Host.Outcome State Fault Refusal :=
  .next <|
    if s.pwr.sag27 then s
    else beginStop (condition (fireEdge s 3) fun p => { p with sag27 := true, nvBlocked := true })

/-- INPUT_OVERVOLTAGE: the input switch opens and the orderly stop runs; before the hold-up store is charged the module starts again
from step 1 (R583). -/
def execInputOvervoltage (vinMv overMs : Nat) (s : State) : Host.Outcome State Fault Refusal :=
  .next <|
    if !(vinMv > 50000 || (vinMv > 40000 && overMs > 100)) then s
    else
      let s := modPwr s fun p => { p with overvolt := true, vinOk := 0 }
      if s.rst.stage < 3 then modRst s fun r => { r with stage := 0 } else beginStop s

/-- ORDERLY_STOP_RESET: 500 µs into the stop the DEVICE reset is asserted, uncounted and without a crash record, and held. -/
def execOrderlyStopReset (s : State) : Host.Outcome State Fault Refusal :=
  .next <|
    match s.pwr.stopAt with
    | some t =>
      if since s t < 50 then s
      else
        let s := modPwr s fun p => { p with resetHeld := true, vinOk := 0 }
        if inReset s 0x3F then assertDevice s else resetNow s false
    | none => s

/-- SUPPLY_RECOVER: each sag ends once the input is 0.5 V above its threshold. -/
def execSupplyRecover (vinMv : Nat) (s : State) : Host.Outcome State Fault Refusal :=
  .next <| modPwr s fun p => { p with
    sag32 := p.sag32 && vinMv ≤ 32500, sag30 := p.sag30 && vinMv ≤ 30500, sag27 := p.sag27 && vinMv ≤ 27500 }

/-- NV_WRITE_RESUME: after two clear ticks the writes that waited are made. -/
def execNvWriteResume (s : State) : Host.Outcome State Fault Refusal :=
  .next <|
    if !s.pwr.nvBlocked || s.pwr.sag32 || s.pwr.sag30 || s.pwr.sag27 || !clearTwice s then s
    else
      let s := modPwr s fun p => { p with nvBlocked := false }
      let s := modRst s fun r => { r with flashOos := r.flashOos || r.flashWait, flashWait := false }
      modSec s fun x => { x with epochNv := if x.epochWait then x.epoch else x.epochNv, epochWait := false }

/-- SUPPLY_RESTORE: 100 ticks at or above 32.0 V release the reset of an orderly stop. -/
def execSupplyRestore (s : State) : Host.Outcome State Fault Refusal :=
  .next <|
    if !s.pwr.resetHeld || s.pwr.vinOk < 100 then s
    else releaseDevice (modPwr s fun p => { p with resetHeld := false, overvolt := false })

/-! ### Temperature (R494–R496) -/

/-- THERM_EMERGENCY_CLOCK: L0 switches the array to 0.800 GHz. -/
def execThermEmergencyClock (s : State) : Host.Outcome State Fault Refusal :=
  .next <|
    if s.pwr.emergClk || !coreRuns s 0 || s.pwr.warnFor < rd1 s PWR_EMERG_warn_ticks then s
    else powerEvent (wrOr (condition s fun p => { p with emergClk := true }) PWR_IRQ_STAT_emerg_clk 1) 5

/-- THERM_CLOCK_RETURN: L0 switches it back to 1.000 GHz. -/
def execThermClockReturn (s : State) : Host.Outcome State Fault Refusal :=
  .next <|
    if !s.pwr.emergClk || !coreRuns s 0 || s.pwr.coolFor < rd1 s PWR_EMERG_clear_ticks then s
    else powerEvent (wrOr (modPwr s fun p => { p with emergClk := false }) PWR_IRQ_STAT_emerg_clk 1) 6

/-- THERM_TRIP: the array stops, THERM_TRIP_N falls, a crash record is taken, and a DEVICE reset follows that counts. -/
def execThermTrip (hbm : Bool) (sensor celsius : Nat) (s : State) : Host.Outcome State Fault Refusal :=
  .next <|
    if celsius < (if hbm then 105 else 110) || s.pwr.tripped then s
    else
      let s := condition (fireEdge s 6) fun p => { p with tripped := true, coldFor := 0 }
      enterDevice (powerEvent (setAlert s 3) 7) true true

/-- TRIP_RESET_RELEASE: every sensor has been below its warning limit for 1,000 ticks. -/
def execTripResetRelease (s : State) : Host.Outcome State Fault Refusal :=
  .next <|
    if !s.pwr.tripped || s.pwr.coldFor < 1000 then s else releaseDevice (modPwr s fun p => { p with tripped := false })

/-! ### Sleep (R497) -/

/-- The module goes to sleep: every port is down. -/
def enterSleep (s : State) : State :=
  let s := modPwr s fun p => { p with asleep := true }
  let s := foldS (fun s p => if portPresent s.variant p then leaveState (modPort s p clearLink) p 0 else s) s (List.range 12)
  foldS (fun s i => setLink s i false) s (List.range 4)

/-- A write of PWR_CTL. -/
def writePwrCtl (s : State) (c : CrsWrite) : State :=
  let was := rdb s PWR_CTL_sleep
  let t := storeWrite s PWR_CTL.off c
  let now_ := rdb t PWR_CTL_sleep
  if !was && now_ then
    if berths.any fun b => (berthOf s b).state ≠ 0 then wrOr s PWR_IRQ_STAT_sleep_refused 1 else enterSleep t
  else if was && !now_ then wakeClocks t
  else t

/-- SLEEP_ENTER: a write that sets PWR_CTL.sleep. -/
def execSleepEnter (w : CrsWrite) (s : State) : Host.Outcome State Fault Refusal := .next <| writePwrCtl s w

/-- SLEEP_EXIT: a write that clears it. -/
def execSleepExit (w : CrsWrite) (s : State) : Host.Outcome State Fault Refusal := .next <| writePwrCtl s w

/-! ### PWR_STATUS and PWR_CAP (R469, R486, R487) -/

/-- L0 takes a request, or has no room left in the tick. -/
def l0Take (s : State) (f : State → State × Ans) : State × Ans :=
  if s.lh.pwrReqs ≥ 4 then (s, .busy (busyTicks s)) else f { s with lh := { s.lh with pwrReqs := s.lh.pwrReqs + 1 } }

/-- PWR_STATUS (0x0B01). -/
def execPwrStatus (h : EcpHdr) (s : State) : Host.Outcome State Fault Refusal :=
  .next <| ecpRun s h 0x0B01 [0] fun s => l0Take s fun s =>
    (s, .ok (toBe 2 (rd s PWR_PIN_watts) ++ toBe 2 (rd s PWR_VIN_mv) ++ toBe 2 (rd s PWR_VIN_iin) ++ toBe 1 (rd s PWR_TEMP_logic)
      ++ toBe 1 (rd s PWR_TEMP_hbm) ++ toBe 1 (rd s PWR_TEMP_board) ++ toBe 1 (gating s) ++ toBe 2 (pwrStat s % 65536)
      ++ toBe 4 (rd s PWR_CAP_watts)))

/-- PWR_CAP (0x0B02). -/
def execPwrCap (h : EcpHdr) (watts : Nat) (s : State) : Host.Outcome State Fault Refusal :=
  .next <| ecpRun s h 0x0B02 [0] fun s => l0Take s fun s =>
    if watts = 0 then (wr s PWR_CAP_watts 2000, .ok [])
    else if 800 ≤ watts && watts ≤ 2000 then (wr s PWR_CAP_watts watts, .ok [])
    else (s, .bad 1)

end Sys2Proof.Machine
end

