-- ==== Sys2Proof/Machine/Edge.lean ====
section
/-!
DEFINITION. The module's edge (R569–R586): the flashes through MGT, the attention register, and the I3C target's common commands.
-/
namespace Sys2Proof.Machine
open Sys2Proof

/-! ### The flashes through MGT (R578, R584) -/

/-- A byte as MGT reads it: the ciphertext of a key store that stands is a free value. -/
def mgtByte (s : State) (f a v i : Nat) : Byte :=
  let stands := if f = 0 then s.sec.keyStore.1 else s.sec.keyStore.2
  if a ≥ 63 * 2 ^ 20 && stands then BitVec.ofNat 8 (v / 256 ^ i) else flashByte s f a

/-- The 128 bytes of the buffer. -/
def bufBytes (s : State) : List Byte := (List.range 32).flatMap fun i => toLe 4 (rd s (MGT_FL_BUF.at i))

/-- Put 128 bytes into the buffer. -/
def putBuf (s : State) (bs : List Byte) : State :=
  foldS (fun s i => wr s (MGT_FL_BUF.at i) (fld bs (4 * i) 4)) s (List.range 32)

/-- First byte and length that an operation works on. -/
def flashSpan (op addr : Nat) : Nat × Nat := if op = 3 then (addr / 65536 * 65536, 65536) else (addr / 128 * 128, 128)

/-- A write of MGT_FL_CTL: an operation begins, or is refused with its reason; ignored while one is in progress. -/
def writeFlCtl (s : State) (c : CrsWrite) : State :=
  let op := woBits s MGT_FL_CTL_op c
  let s := storeWrite s MGT_FL_CTL.off c
  if op = 0 || s.edge.op.isSome then s
  else
    let a := flashSpan op (rd s MGT_FL_ADDR_addr)
    if op ≥ 2 && a.1 ≥ 63 * 2 ^ 20 && s.sec.life ≠ 0 then wr s MGT_FL_CTL_err 1
    else if op ≥ 2 && nvStopped s then wr s MGT_FL_CTL_err 2
    else
      let s := wrs s [(MGT_FL_CTL_busy, 1), (MGT_FL_CTL_err, 0)]
      { s with edge := { s.edge with op := some ⟨op, rd s MGT_FL_CTL_flash, a.1⟩ } }

/-- FLASH_READ: op 1 of MGT_FL_CTL. -/
def execFlashRead (w : CrsWrite) (s : State) : Host.Outcome State Fault Refusal := .next <| writeFlCtl s w
/-- FLASH_PROGRAM: op 2. -/
def execFlashProgram (w : CrsWrite) (s : State) : Host.Outcome State Fault Refusal := .next <| writeFlCtl s w
/-- FLASH_ERASE: op 3. -/
def execFlashErase (w : CrsWrite) (s : State) : Host.Outcome State Fault Refusal := .next <| writeFlCtl s w

/-- Erase bytes of a flash. -/
def eraseFlash (s : State) (f a n : Nat) : State :=
  let k := f * 2 ^ 26 + a
  let s := { s with edge := { s.edge with flash := mfilter s.edge.flash fun i _ => i < k || k + n ≤ i } }
  if a ≥ 63 * 2 ^ 20 then modSec s fun x => { x with keyStore := if f = 0 then (false, x.keyStore.2) else (x.keyStore.1, false) } else s

/-- The effect of an operation that ends; after a device error the bytes that it worked on are free values. -/
def flashEffect (s : State) (o : FlashOp) (bad : Bool) : State :=
  let v := Config.freeNat s.free
  let s := useFree s
  let junk (n : Nat) : List Byte := freeBytes v n
  if o.op = 1 then putBuf s (if bad then junk 128 else (List.range 128).map fun i => mgtByte s o.flash (o.addr + i) v i)
  else if o.op = 2 then writeFlash s o.flash o.addr (if bad then junk 128 else bufBytes s)
  else if bad then writeFlash s o.flash o.addr (junk 65536)
  else count (eraseFlash s o.flash o.addr 65536) 0x0804 1

/-- FLASH_OP_DONE. -/
def execFlashOpDone (deviceError : Bool) (s : State) : Host.Outcome State Fault Refusal :=
  .next <|
    match s.edge.op with
    | none => s
    | some o =>
      let s := flashEffect { s with edge := { s.edge with op := none } } o deviceError
      let s := wr s MGT_FL_CTL_busy 0
      if deviceError then setAlert (wr s MGT_FL_CTL_err 3) 6 else s

/-! ### The attention register (R584, R585) -/

/-- A write of MGT_ATTN: only the sideband's is taken, and it fires source 8. -/
def writeAttn (s : State) (c : CrsWrite) : State :=
  if c.req = 8 then fireEdge (storeWrite s MGT_ATTN.off c) 8 else s

/-- MGT_ATTN_WRITE. -/
def execMgtAttnWrite (w : CrsWrite) (s : State) : Host.Outcome State Fault Refusal := .next <| writeAttn s w

/-! ### The I3C target (R571) -/

/-- PID of the module. -/
def i3cPid (s : State) : Nat := 0x3A5 * 2 ^ 33 + s.edge.straps.toNat * 2 ^ 26 + partCode s.variant * 2 ^ 10

/-- The module holds a dynamic address. -/
def onBus (s : State) : Bool := rdb s MGT_I3C_assigned

/-- A directed command's answer, counted as a transfer. -/
def cccAnswer (s : State) (code : Nat) (bs : List Byte) : State :=
  if onBus s then emit (count s 0x0802 1) (.i3c code bs) else s

/-- ENTDAA: a target without an address sends its PID, BCR and DCR, and takes the address if it wins. -/
def execEntdaa (address : BitVec 7) (wins : Bool) (s : State) : Host.Outcome State Fault Refusal :=
  .next <|
    if onBus s || s.rst.stage = 0 then s
    else
      let s := emit s (.i3c 0x07 (toBe 6 (i3cPid s) ++ [0x06, 0x00]))
      if wins then wrs s [(MGT_I3C_dyn_addr, address.toNat), (MGT_I3C_assigned, 1)] else s

/-- RSTDAA: the address is gone. -/
def execRstdaa (s : State) : Host.Outcome State Fault Refusal := .next <| wrs s [(MGT_I3C_dyn_addr, 0), (MGT_I3C_assigned, 0)]

/-- SETNEWDA: another address. -/
def execSetnewda (address : BitVec 7) (s : State) : Host.Outcome State Fault Refusal :=
  .next <| if onBus s then wr (count s 0x0802 1) MGT_I3C_dyn_addr address.toNat else s

/-- GETPID. -/
def execGetpid (s : State) : Host.Outcome State Fault Refusal := .next <| cccAnswer s 0x8D (toBe 6 (i3cPid s))

/-- GETBCR. -/
def execGetbcr (s : State) : Host.Outcome State Fault Refusal := .next <| cccAnswer s 0x8E [0x06]

/-- GETDCR. -/
def execGetdcr (s : State) : Host.Outcome State Fault Refusal := .next <| cccAnswer s 0x8F [0x00]

/-- GETSTATUS: two bytes whose content the spec does not give (free value, log 49). -/
def execGetstatus (s : State) : Host.Outcome State Fault Refusal :=
  .next <| let r := fresh s; cccAnswer r.1 0x90 (toBe 2 (r.2 % 65536))

/-- ENEC: event bit 0 enables in-band interrupts. -/
def execEnec (events : Byte) (s : State) : Host.Outcome State Fault Refusal :=
  .next <| if events.getLsbD 0 then wr s MGT_I3C_ibi_en 1 else s

/-- DISEC: event bit 0 disables them. -/
def execDisec (events : Byte) (s : State) : Host.Outcome State Fault Refusal :=
  .next <| if events.getLsbD 0 then wr s MGT_I3C_ibi_en 0 else s

/-- RSTACT: the configured reset action is kept. -/
def execRstact (action : Byte) (s : State) : Host.Outcome State Fault Refusal :=
  .next <| { s with edge := { s.edge with rstact := action } }

end Sys2Proof.Machine
end

