-- ==== Sys2Proof/Machine/Mbx.lean ====
section
/-!
DEFINITION. The mailbox (R441–R446): what every source identifier reads, the banks of the requesters, and MBX_READ.
-/
namespace Sys2Proof.Machine
open Sys2Proof

/-- Four data words. -/
abbrev Quad := W32 × W32 × W32 × W32

/-- Four zero words. -/
def qZero : Quad := (0, 0, 0, 0)

/-- A 64-bit value: MBX_D0 low, MBX_D1 high. -/
def q64 (v : W64) : Quad := (BitVec.ofNat 32 v.toNat, BitVec.ofNat 32 (v.toNat / 2 ^ 32), 0, 0)

/-- Two words and a 64-bit value in MBX_D2 and MBX_D3. -/
def qRec (a b : W32) (t : W64) : Quad := (a, b, BitVec.ofNat 32 t.toNat, BitVec.ofNat 32 (t.toNat / 2 ^ 32))

/-- Sixteen bytes, the lowest four in MBX_D0. -/
def qBytes (bs : List Byte) : Quad :=
  (BitVec.ofNat 32 (fld bs 0 4), BitVec.ofNat 32 (fld bs 4 4), BitVec.ofNat 32 (fld bs 8 4), BitVec.ofNat 32 (fld bs 12 4))

/-! ### Sources (R445) -/

/-- First identifier and number of the sources that are 64-bit counts. -/
def countRows : List (Nat × Nat) :=
  [(0x0010, 1), (0x0100, 2), (0x0200, 1), (0x0310, 8), (0x0320, 8), (0x0400, 5), (0x0410, 1), (0x0601, 3), (0x0720, 2), (0x0800, 5),
   (0x0E00, 4), (0x0E10, 4), (0x0E20, 4), (0x0F00, 9), (0x0F10, 2), (0x1030, 4), (0x1200, 4), (0x1210, 4), (0x1220, 4), (0x1230, 4)] ++
  [(0x1300, 8), (0x1400, 12), (0x1500, 1), (0x16C0, 3), (0x1700, 4), (0x1710, 4), (0x1720, 4), (0x1730, 32), (0x1800, 7), (0x1900, 3),
   (0x1940, 1)]

/-- Counts of a unit that comes several times, sixteen identifiers apart: first identifier, how many units, counts of each. -/
def unitRows : List (Nat × Nat × Nat) := [(0x1600, 12, 7), (0x1A00, 4, 12), (0x1B00, 4, 8), (0x1C00, 4, 8)]

/-- The identifier names a 64-bit count. -/
def isCount (id : Nat) : Bool :=
  countRows.any (fun r => r.1 ≤ id && id < r.1 + r.2)
    || unitRows.any fun r => r.1 ≤ id && (id - r.1) / 16 < r.2.1 && (id - r.1) % 16 < r.2.2

/-- DEV, BCN and TID (R446, R500). -/
def srcDev (s : State) (id : Nat) : Option Quad :=
  if id = 0x0000 then some (qBytes (toLe 16 Config.serial.toNat))
  else if id = 0x0001 then some (q64 (BitVec.ofNat 64 Config.baseMac.toNat))
  else if id = 0x0002 || id = 0x0003 then
    some (if s.sec.life = 4 then qZero else qBytes ((digest Config.identityKey).drop (16 * (id - 2))))
  else if id = 0x0201 then some (qRec s.icu.wakeCause 0 s.icu.wakeTick)
  else if id = 0x0300 then some (q64 s.lh.tick)
  else if id = 0x0301 then some (q64 s.eth.ptpNs)
  else if id = 0x0302 then some (q64 s.eth.ptpDiff)
  else none

/-- RST and PWR (R537, R502). -/
def srcRst (s : State) (id : Nat) : Option Quad :=
  if 0x0500 ≤ id && id < 0x0580 then
    match s.rst.log[(id - 0x0500) / 2]? with
    | some e => some (qBytes ((entryBytes e).drop (16 * (id % 2))))
    | none => some qZero
  else if 0x0580 ≤ id && id < 0x05C0 then
    if domainCode (id - 0x0580) then some (q64 (mgetD s.rst.total (id - 0x0580) 0)) else none
  else if id = 0x05C0 then
    some (if s.rst.oosCause = 0 then qZero
      else qRec (BitVec.ofNat 32 (0x0A + 256 * s.rst.oosCause)) (BitVec.ofNat 32 s.rst.oosDomain) s.rst.oosTick)
  else if id = 0x05C1 then some (q64 s.rst.lostTotal)
  else if id = 0x0600 then some (q64 (BitVec.ofNat 64 (s.pwr.energy.toNat / 100)))
  else if id = 0x0610 then some (qRec s.pwr.lastEmerg s.pwr.lastWatts s.pwr.lastTick)
  else none

/-- SEC (R560). -/
def srcSec (s : State) (id : Nat) : Option Quad :=
  if 0x0700 ≤ id && id < 0x0710 then
    some (qBytes ((toBe 32 (mgetD s.sec.slots ((id - 0x0700) / 2) 0).toNat).drop (16 * (id % 2))))
  else if id = 0x0710 then some (qBytes (toLe 16 s.sec.challenge.toNat))
  else none

/-- SHF_FAULT as MBX_D0, op_seq and tick of the fault (R61). -/
def srcShf (s : State) (id : Nat) : Option Quad :=
  if 0x0C00 ≤ id && id ≤ 0x0C0E then some (q64 (mgetD s.shelf.causes (id - 0x0C00) 0))
  else if 0x0C10 ≤ id && id ≤ 0x0C13 then some (q64 (mgetD s.shelf.causes (id - 0x0C00) 0))
  else if id = 0x0C20 then some (if s.shelf.faulted then qRec (regWord s SHF_FAULT.off) s.shelf.faultOp s.shelf.faultTick else qZero)
  else none

/-- The census counters of one format in the entry that NUM_CEN_IDXb selects (R99). -/
def censusQuad (s : State) (b f : Nat) : Quad :=
  match mget s.num.census (1024 * b + rd s (NUM_CEN_IDX.at b) % 1024) with
  | some e =>
    (BitVec.ofNat 32 (nth e.counts (4 * f) 0), BitVec.ofNat 32 (nth e.counts (4 * f + 1) 0), BitVec.ofNat 32 (nth e.counts (4 * f + 2) 0),
      BitVec.ofNat 32 (nth e.counts (4 * f + 3) 0))
  | none => qZero

/-- NUM (R104). -/
def srcNum (s : State) (id : Nat) : Option Quad :=
  if 0x0D00 ≤ id && id < 0x0D10 then some (censusQuad s ((id - 0x0D00) / 4) (id % 4))
  else if 0x0D10 ≤ id && id < 0x0D14 then some (q64 (fget s.num.seeds (id - 0x0D10)))
  else none

/-- SLV, UPD and ALM (R161, R200). -/
def srcUpd (s : State) (id : Nat) : Option Quad :=
  let u := s.upd
  if id = 0x0F20 then some (qRec s.slv.holdLast s.slv.holdLam s.slv.holdStep)
  else if 0x1000 ≤ id && id < 0x1004 then some (q64 (fget u.steps (id % 4)))
  else if 0x1010 ≤ id && id < 0x1014 then some (q64 (fget u.commits (id % 4)))
  else if 0x1020 ≤ id && id < 0x1024 then some (q64 (fget u.skipTotal (id % 4)))
  else if id = 0x1040 then some (qRec u.holdShard u.holdLayer u.holdStep)
  else if 0x1100 ≤ id && id < 0x1200 then
    match mget u.chans (id - 0x1100) with
    | some c => some (c.value.getD 0, BitVec.ofNat 32 c.step.toNat, BitVec.ofNat 32 (c.step.toNat / 2 ^ 32), 0)
    | none => some qZero
  else none

/-- HBM, DDR and HBR: an address or the error register, and the tick of the last uncorrectable error (R233, R237, R239). -/
def srcMem (s : State) (id : Nat) : Option Quad :=
  let two (p : W64 × W64) : Quad := qRec (BitVec.ofNat 32 p.1.toNat) (BitVec.ofNat 32 (p.1.toNat / 2 ^ 32)) p.2
  if id = 0x1310 then some (two s.mem.ueT2)
  else if id = 0x1410 then some (two s.mem.ueT3)
  else if id = 0x1510 then some (qRec (regWord s HBR_ERR.off) 0 s.mem.ueT1)
  else none

/-- LSH, SHG, SWL and OFS (R306, R328, R344, R383). -/
def srcNet (s : State) (id : Nat) : Option Quad :=
  if id = 0x1780 then some (qRec (regWord s LSH_ERR.off) s.lsh.failRank s.lsh.failTick)
  else if id = 0x1810 then some (qRec (regWord s SHG_ERR.off) s.shg.errBlock s.shg.errTick)
  else if 0x1910 ≤ id && id < 0x1930 then some (q64 (keySlot s (id - 0x1910)).counter)
  else if id = 0x1950 then some (qRec s.swl.alarmLast 0 s.swl.alarmTick)
  else if id = 0x1A80 then some (qRec (regWord s OFS_ERR.off) s.ofs.lastRound s.ofs.lastTick)
  else none

/-- Four bytes of an address as ETH_IPi holds them: the first in bits [31:24]. -/
def ipWord (a : BitVec 128) (i : Nat) : W32 := BitVec.ofNat 32 (a.toNat / 2 ^ (96 - 32 * i))

/-- ETH (R429). -/
def srcEth (s : State) (id : Nat) : Option Quad :=
  if 0x1B40 ≤ id && id < 0x1B44 then some (q64 (BitVec.ofNat 64 (macOf (id - 0x1B40))))
  else if 0x1B50 ≤ id && id < 0x1B60 then
    let a := mgetD s.eth.addrs (id - 0x1B50) 0
    some (ipWord a 0, ipWord a 1, ipWord a 2, ipWord a 3)
  else none

/-- A source of a unit that the variant lacks. -/
def sourceAbsent (v : Variant) (id : Nat) : Bool :=
  (id / 256 = 0x1A && !hasOffshore v) || (id / 256 = 0x14 && !hasDdr v)
    || (0x1600 ≤ id && id < 0x16C0 && !portPresent v ((id - 0x1600) / 16))

/-- The four words of a source; none where the identifier has no source. -/
def mbxSource (s : State) (id : Nat) : Option Quad :=
  let v :=
    if isCount id then some (q64 (mgetD s.counts id 0))
    else srcDev s id <|> srcRst s id <|> srcSec s id <|> srcShf s id <|> srcNum s id <|> srcUpd s id <|> srcMem s id <|> srcNet s id
      <|> srcEth s id
  if sourceAbsent s.variant id then v.map fun _ => qZero else v

/-- The source is read and cleared. -/
def readClear (id : Nat) : Bool := 0x0D00 ≤ id && id < 0x0D10

/-- The snapshot zeroes the four counters that it took (R99). -/
def clearSource (s : State) (id : Nat) : State :=
  if !readClear id then s
  else
    let b := (id - 0x0D00) / 4
    let f := id % 4
    modNum s fun x => { x with
      census := mmod x.census (1024 * b + rd s (NUM_CEN_IDX.at b) % 1024) fun e =>
        { e with counts := e.counts.mapIdx fun i c => if i / 4 = f then 0 else c } }

/-! ### Banks (R441–R444, R463) -/

/-- An empty bank. -/
def Bank.empty : Bank :=
  { sel := 0, valid := false, busy := false, err := false, ignored := false, cleared := false, discard := false, data := qZero,
    coming := qZero, comErr := false, comClr := false }

/-- A requester's bank. -/
def bankOf (s : State) (req : Nat) : Bank := mgetD s.banks req Bank.empty
/-- Change a requester's bank. -/
def modBank (s : State) (req : Nat) (f : Bank → Bank) : State := { s with banks := mset s.banks req (f (bankOf s req)) }

/-- A bank whose snapshot is gone. -/
def Bank.drop (k : Bank) : Bank := { k with valid := false, err := false, cleared := false, data := qZero }

/-- A write of MBX_SEL: a plain one takes the snapshot, or is ignored while busy or valid is set. -/
def writeSel (s : State) (c : CrsWrite) : State :=
  if c.al ≠ .plain || c.req ≥ 10 then s
  else
    let k := bankOf s c.req
    if k.busy || k.valid then modBank s c.req fun k => { k with ignored := true }
    else
      let id := c.value.toNat % 65536
      let v := mbxSource s id
      clearSource (modBank s c.req fun k => { k with
        sel := BitVec.ofNat 16 id, busy := true, ignored := false, discard := false
        coming := v.getD qZero, comErr := v.isNone, comClr := readClear id }) id

/-- MBX_SEL_WRITE. -/
def execMbxSelWrite (w : CrsWrite) (s : State) : Host.Outcome State Fault Refusal := .next <| writeSel s w

/-- The snapshot arrives; one that was discarded meanwhile leaves the bank empty. -/
def snapshotReady (s : State) (req : Nat) : State :=
  if (bankOf s req).busy then
    modBank s req fun k =>
      if k.discard then { k.drop with busy := false, discard := false, coming := qZero }
      else { k with busy := false, valid := true, err := k.comErr, cleared := k.comClr, data := k.coming, coming := qZero }
  else s

/-- MBX_SNAPSHOT_READY. -/
def execMbxSnapshotReady (req : Nat) (s : State) : Host.Outcome State Fault Refusal := .next <| snapshotReady s req

/-- A read of MBX_D3; the plain one clears valid. -/
def d3Read (s : State) (req : Nat) (al : Alias) : State × Nat :=
  let k := bankOf s req
  (if al = .plain && k.valid then modBank s req Bank.drop else s, k.data.2.2.2.toNat)

/-- MBX_D3_READ. -/
def execMbxD3Read (req : Nat) (al : Alias) (s : State) : Host.Outcome State Fault Refusal :=
  .next <| if req < 10 then answerWord (d3Read s req al) req (MBX_D.at 3).off else s

/-- A write of MBX_CTL: discard drops the snapshot, or the one on its way. -/
def writeMbxCtl (s : State) (c : CrsWrite) : State :=
  if woBits s MBX_CTL_discard c = 0 then s
  else modBank s c.req fun k => if k.busy then { k with discard := true } else k.drop

/-- MBX_DISCARD. -/
def execMbxDiscard (w : CrsWrite) (s : State) : Host.Outcome State Fault Refusal := .next <| writeMbxCtl s w

/-- MBX_STAT and the data words of a requester's bank, by block offset. -/
def bankRead (s : State) (req o : Nat) : Nat :=
  let k := bankOf s req
  if o = 4 then k.sel.toNat
  else if o = 8 then b2n k.valid + 2 * b2n k.busy + 4 * b2n k.err + 8 * b2n k.ignored + 16 * b2n k.cleared
  else if o = 0x10 then k.data.1.toNat
  else if o = 0x14 then k.data.2.1.toNat
  else if o = 0x18 then k.data.2.2.1.toNat
  else if o = 0x1C then k.data.2.2.2.toNat
  else 0

/-! ### MBX_READ (R422) -/

/-- The four words as MBX_READ returns them: most significant byte first. -/
def quadBytes (q : Quad) : List Byte := toBe 4 q.1.toNat ++ toBe 4 q.2.1.toNat ++ toBe 4 q.2.2.1.toNat ++ toBe 4 q.2.2.2.toNat

/-- The whole sequence in the HOST bank as one action; an identifier without a source reads zeros. -/
def hostSequence (s : State) (id : Nat) : State × Quad :=
  let s := modBank s 9 fun _ => Bank.empty
  let s := snapshotReady (writeSel s ⟨9, .plain, BitVec.ofNat 32 id⟩) 9
  ((d3Read s 9 .plain).1, (bankOf s 9).data)

/-- MBX_READ (0x0803). -/
def execMbxRead (h : EcpHdr) (source : Nat) (s : State) : Host.Outcome State Fault Refusal :=
  .next <| ecpRun s h 0x0803 [] fun s => let r := hostSequence s (source % 65536); (r.1, .ok (quadBytes r.2))

end Sys2Proof.Machine
end

