-- ==== Sys2Proof/Machine/Crs.lean ====
section
/-!
DEFINITION. The control register space (R433–R440): what every register reads, what a read of it does, and what a requester's write
does, whatever way it comes: REG_READ, REG_WRITE, the sideband or a Lighthouse core.
-/
namespace Sys2Proof.Machine
open Sys2Proof

/-- Number of the register of a range that a plain offset names. -/
def idx (f : Fld) (n off : Nat) : Option Nat :=
  if f.off ≤ off && off < f.off + n * f.step && (off - f.off) % f.step = 0 then some ((off - f.off) / f.step) else none

/-- The value of the first entry whose range holds the offset. -/
def pick (off : Nat) : List (Fld × Nat × (Nat → Nat)) → Option Nat
  | [] => none
  | (f, n, v) :: l =>
    match idx f n off with
    | some i => some (v i)
    | none => pick off l

/-- One bit for each of the first `n` numbers that pass a test. -/
def bitsOf (n : Nat) (f : Nat → Bool) : Nat := ((List.range n).map fun i => 2 ^ i * b2n (f i)).sum

/-! ### Registers that show other state -/

/-- The stored word of a register. -/
def stored (s : State) (f : Fld) : Nat := (regWord s f.off).toNat

/-- DEV and MBX (R462, R463). -/
def viewDev (s : State) (req off : Nat) : Option Nat :=
  pick off [(DEV_PART, 1, fun _ => partCode s.variant + 2 ^ 16), (DEV_CAP, 1, fun _ => devCap s.variant),
    (DEV_DECODE, 5, fun i => devDecode s.variant i), (DEV_WHOAMI, 1, fun _ => req), (MBX_SEL, 1, fun _ => bankRead s req 4),
    (MBX_STAT, 1, fun _ => bankRead s req 8), (MBX_D, 4, fun i => bankRead s req (0x10 + 4 * i))]

/-- A claim that a requester holds, or 0x3FF. -/
def heldClaim (m : NMap Nat) (k : Nat) : Nat := if k < 8 then mgetD m k 0x3FF else 0x3FF

/-- ICU, ICF and BCN (R464–R466). A claim register claims nothing here. -/
def viewIcu (s : State) (req off : Nat) : Option Nat :=
  let word (v : BitVec 256) (i : Nat) : Nat := v.toNat / 2 ^ (32 * i) % 2 ^ 32
  pick off [(ICU_STAT, 1, fun _ => stored s ICU_STAT + ((List.range 256).filter s.icu.storm.getLsbD).length),
    (ICU_CLAIM, 1, fun _ => 0x3FF), (ICF_CLAIM, 1, fun _ => 0x3FF), (ICU_SELF, 1, fun _ => heldClaim s.icu.normal req),
    (ICF_SELF, 1, fun _ => heldClaim s.icu.fast req), (ICF_HOLD, 8, fun i => heldClaim s.icu.fast i),
    (ICU_PEND, 8, word s.icu.pending), (ICU_ACT, 8, word s.icu.active), (ICU_STORM, 8, word s.icu.storm),
    (ICU_LEVEL, 8, fun i => bitsOf 32 fun j => levelInput s (32 * i + j)), (ICU_CNT, 256, fun i => (mgetD s.icu.counts i 0).toNat),
    (BCN_LEVEL, 1, fun _ => bitsOf 16 (levelInput s))]

/-- Edge source of the tick (R481). -/
def tickSource (s : State) : Nat :=
  if !discovered s then 0
  else if isAnchor s then b2n (rdb s TID_CTL_ptp_steer && rdb s ETH_STAT_ptp_locked)
  else if rdb s CLF_TICK_locked then 2 else 3

/-- The clock of a domain of R505 runs: not in sleep, its PLL locked, DEVICE reset not asserted; the crystal's always does. -/
def clockRuns (s : State) (d : Nat) : Bool := d = 5 || (d < 5 && !s.pwr.asleep && bit (rd s CLK_STAT_locked) d && phaseOf s 0x3F ≠ 4)

/-- Frequency of a clock domain in units of 0.1 MHz (R505); within the tolerance of a holdover it is a free value. -/
def clockFreq (s : State) (d : Nat) : Nat :=
  if !clockRuns s d then 0
  else if rdb s CLK_STAT_holdover then Config.freeNat s.free % 65536
  else nth [if s.pwr.emergClk then 8000 else 10000, 15000, 20000, 15625, 20000, 250] d 0

/-- TID, CLK and PWR (R499, R534, R501). TID_USED clears nothing here. -/
def viewTid (s : State) (off : Nat) : Option Nat :=
  pick off [(TID_STAT, 1, fun _ => stored s TID_STAT + tickSource s), (TID_LO, 1, fun _ => now s % 2 ^ 32),
    (TID_USED, 8, fun i => (tidUsedRead s .set i).2),
    (TID_TELEM, 1, fun _ => ((List.range 8).map fun k => 8 ^ k * ((coreOf s k).telem % 8) + 2 ^ (24 + k) * b2n (coreOf s k).overran).sum),
    (CLK_STAT, 1, fun _ => stored s CLK_STAT + 128 * b2n s.pwr.emergClk + 256 * bitsOf 6 (clockRuns s)),
    (CLK_MEAS, 1, fun _ => clockFreq s (rd s CLK_MEAS_SEL_domain)), (PWR_STAT, 1, fun _ => pwrStat s)]

/-- Sequence of the oldest unacknowledged log entry; with none, once one has been taken, a value that the spec does not state. -/
def oldestSeq (s : State) : Nat :=
  match s.rst.log with
  | e :: _ => e.seq.toNat
  | [] => if s.rst.logSeq = 0 then 0 else Config.freeNat s.free % 2 ^ 32

/-- RST, SEC and MGT (R536, R559, R585). -/
def viewRst (s : State) (off : Nat) : Option Nat :=
  let r := s.rst
  let x := s.sec
  pick off [(RST_STAT, 1, fun _ => r.last + 64 * b2n (!r.domains.isEmpty) + 128 * b2n (!r.crashing.isEmpty) + 256 * b2n (outOfService s)
      + 512 * b2n r.flashWait + 65536 * min 2 (recentResets s 0x3F 60000000)),
    (RST_RECOV, 2, fun i => bitsOf 32 fun j => recovering s (32 * i + j)),
    (RST_LOG, 1, fun _ => r.log.length + 128 * b2n r.overflow + 65536 * r.lost), (RST_LOG_SEQ, 1, fun _ => oldestSeq s),
    (RST_GEN, 16, fun i => genOf s (4 * i) + 256 * genOf s (4 * i + 1) + 65536 * genOf s (4 * i + 2) + 2 ^ 24 * genOf s (4 * i + 3)),
    (SEC_LC, 1, fun _ => x.life + 8 * b2n x.debug + 16 * x.refurb),
    (SEC_STAT, 1, fun _ => x.image + 2 * b2n x.idOk + 4 * b2n x.certOk + 8 * b2n x.fallback + 16 * b2n (rbPending s)
      + 32 * b2n (decide (x.refused ≥ 8))),
    (SEC_RB, 1, fun _ => x.rbBits + 256 * (svnOf x.header % 256) + 65536 * (x.otherSvn % 256)),
    (SEC_TOKEN, 1, fun _ => min 8 x.refused), (MGT_STRAP, 1, fun _ => s.edge.straps.toNat),
    (MGT_SIG, 1, fun _ => b2n (!s.pwr.brake) + 2 * b2n (!r.pinHeld) + 4 * b2n s.edge.leak
      + 8 * b2n ((List.range 8).any (coreRuns s)) + 16 * bitsOf 12 fun n => portPresent s.variant n && (portOf s n).seated)]

/-- A berth's queues hold work. -/
def berthQueued (s : State) (b : Nat) : Bool := !(fget s.shelf.streams b).isEmpty || !(fget s.shelf.engines b).isEmpty

/-- The berth's only head waits on its event slot; an engine pass waits on none. -/
def berthWaiting (s : State) (b : Nat) : Bool :=
  (fget s.shelf.engines b).isEmpty && match fget s.shelf.streams b with
    | d :: _ => !slotReady s b (parseOp d).waitSlot (parseOp d).waitCount
    | [] => false

/-- The head of a berth's dirty queue with its tag (R98). -/
def dirtyHead (s : State) (b : Nat) : Nat :=
  match fget s.num.dirty b with
  | e :: _ =>
    e + 0x8000 + 65536 * (match mget s.num.census (1024 * b + e) with
      | some c => c.tag % 65536
      | none => 0)
  | [] => 0

/-- SHF, NUM and SND (R66, R104, R159). -/
def viewShf (s : State) (off : Nat) : Option Nat :=
  let x := s.shelf
  pick off [(SHF_STAT, 1, fun _ => shfStat s), (SHF_CUR_OP, 1, fun _ => shfCurOp s), (SHF_CUR_LAYER, 1, fun _ => shfCurLayer s),
    (SHF_BERTH_STAT, 4, fun b => b2n (berthQueued s b) + 2 * b2n (berthWaiting s b) + 4 * b2n (fget x.halted b)
      + 256 * (fget x.error b % 256) + 65536 * (fget x.completed b).toNat),
    (NUM_DIRTY, 4, dirtyHead s), (SND_STAGE_USED, 4, fun b => cdiv (stagedBytes s b) (2 ^ 20)), (SND_SLOTS, 1, fun _ => s.snd.slots.length)]

/-- The first berth whose Solver problem is in progress, with it. -/
def slvNow (s : State) : Option (Nat × Problem) :=
  berths.findSome? fun b => match fget s.slv.queues b with
    | p :: _ => if p.started then some (b, p) else none
    | [] => none

/-- SLV_STAT (R160). -/
def slvStat (s : State) : Nat :=
  match slvNow s with
  | none => 0
  | some (b, p) =>
    let op := if p.orth then 3 else match (mget s.snd.slots p.slot).bind (·.refresh) with
      | some r => (parseFs r.desc).op
      | none => 0
    1 + 2 * b + 16 * (if p.orth then 0 else p.slot) + 65536 * op + 2 ^ 19 * min 4 p.attempt

/-- UPD_STAT (R200). -/
def updStat (s : State) : Nat :=
  match s.upd.updates with
  | [] => 0
  | u :: _ =>
    match shardOf s u.shard with
    | some sh => 1 + 2 * u.berth + 8 * (parseSh sh.desc).cls + 32 * ((parseSh sh.desc).rule % 8) + 65536 * (parseSh sh.desc).layer
    | none => 1 + 2 * u.berth

/-- SLV, UPD and ALM (R160, R200). -/
def viewUpd (s : State) (off : Nat) : Option Nat :=
  let u := s.upd
  pick off [(SLV_STAT, 1, fun _ => slvStat s),
    (SLV_QUEUED, 1, fun _ => min 65535 (berths.map fun b => (fget s.slv.queues b).length).sum), (SLV_LAST, 1, fun _ => s.slv.last.toNat),
    (UPD_STAT, 1, fun _ => updStat s),
    (UPD_BERTH_STAT, 4, fun b => min 255 (fget u.skips b) + 256 * b2n (fget u.paused b)
      + 65536 * min 65535 (u.shards.filter fun p => p.2.berth = b).length),
    (UPD_PROG, 1, fun _ => bitsOf 32 fun n => (mget u.progs n).isSome), (ALM_EVAL, 4, fun b => (fget u.evalStep b).toNat)]

/-- HBR and PGR (R232, R234). On a KMZ-4120 the T3 registers read 0. -/
def viewMem (s : State) (off : Nat) : Option Nat :=
  pick off [(HBR_USED, 4, fun b => partUsed s b + 65536 * heldCount s b), (PGR_T2_USED, 4, fun b => usedPages s b 2 + spillCount s b),
    (PGR_T3_USED, 4, fun b => if hasDdr s.variant then usedPages s b 3 else 0),
    (PGR_T3_QUOTA, 4, fun b => if hasDdr s.variant then stored s (PGR_T3_QUOTA.at b) else 0),
    (PGR_STAT, 1, fun _ => s.mem.moves.length + 256 * bitsOf 4 (fget s.mem.balance))]

/-- LSH_STATb (R305). -/
def lshStat (s : State) (b : Nat) : Nat :=
  bitsOf 16 (fun c => !(chanOf s b c).active.isEmpty) + 2 ^ 16 * b2n (fget s.shelf.undecided b || (List.range 16).any fun c => (chanOf s b c).halted)
    + 2 ^ 17 * ((fget s.lsh.permute b).phase % 4) + 2 ^ 19 * min 8191 (s.lsh.live.filter fun p => p.1 / 65536 = b).length

/-- LSH_FLAGb (R305). -/
def lshFlag (s : State) (b : Nat) : Nat :=
  let c := fget s.lsh.close b
  let d := match closeGroup s b with
    | some (_, g) => min 255 g.diam
    | none => 0
  b2n c.flag + 2 * b2n c.decided + 4 * b2n c.skip + 256 * (c.round % 256) + 65536 * d

/-- CLF and LSH (R272, R305). -/
def viewClf (s : State) (off : Nat) : Option Nat :=
  pick off [(CLF_PSTAT, 12, fun n => stored s (CLF_PSTAT.at n) + 65536 * min 65535 ((portOf s n).symbols / 1000)),
    (CLF_DIRS, 1, fun _ => bitsOf 6 fun i => (dirPorts s (i / 2) (decide (i % 2 = 0))).any fun n => portPresent s.variant n && pState s n = stUP),
    (LSH_STAT, 4, lshStat s), (LSH_FLAG, 4, lshFlag s)]

/-- Table slots in a state that passes a test. -/
def slotsIn (s : State) (f : Nat → Bool) : Nat := ((List.range 64).filter fun n => f (tslot s n).state).length

/-- SWL_KSTAT of the selected slot (R343). -/
def swlKstat (s : State) : Nat :=
  let n := rd s SWL_KSEL_slot
  let k := keySlot s n
  k.state + 4 * k.owner + 16 * k.dir + 64 * b2n k.erased + 256 * (k.epoch % 256) + 65536 * keyPending s n

/-- Pipelines that are busy: which of the four serve the queued requests the spec does not say (free value). -/
def swlPipes (s : State) : Nat := if swlRuns s && !s.swl.queue.isEmpty then Config.freeNat s.free % 16 else 0

/-- SHG and SWL (R327, R343). -/
def viewSwl (s : State) (off : Nat) : Option Nat :=
  pick off [(SHG_STAT, 1, fun _ => slotsIn s (· ≠ 0) + 256 * slotsIn s (· = 3) + 65536 * b2n (s.shg.reqs.any fun r => r.slot.isSome)),
    (SHG_SLOT_STAT, 1, fun _ =>
      let t := tslot s (rd s SHG_SLOT_SEL_slot)
      t.state + 4 * (t.version % 16) + 64 * t.user + 256 * (t.inflight % 2 ^ 24)),
    (SWL_STAT, 1, fun _ => s.swl.queue.length + 256 * swlPipes s + 4096 * b2n (s.swl.seeded && s.swl.failTick.isNone)
      + 8192 * b2n (alarmLatched s)),
    (SWL_KSTAT, 1, fun _ => swlKstat s)]

/-- OFS_STATb (R382). -/
def ofsStat (s : State) (b : Nat) : Nat :=
  match sessOf s b with
  | some x => x.phase + 8 + 16 * x.p.site + 256 * membersAt x (curRound s b x) + 2 ^ 24 * (x.p.sMax % 4)
  | none => 0

/-- OFS_PEER_STAT of the selected peer (R382). -/
def ofsPeerStat (s : State) : Nat :=
  match peerAt s (rd s OFS_PEER_SEL_berth) (rd s OFS_PEER_SEL_site) with
  | some q =>
    q.state + 4 * q.route + 8 * b2n (routeUp q 0 (usNow s)) + 16 * b2n (routeUp q 1 (usNow s)) + 32 * b2n q.hs.isSome
      + 256 * (match q.key with
        | some k => k.2 % 256
        | none => 0)
      + 65536 * min 65535 (rttOf q q.route).srtt
  | none => 0

/-- OFS (R382). -/
def viewOfs (s : State) (off : Nat) : Option Nat :=
  pick off [(OFS_STAT, 4, ofsStat s), (OFS_ROUND, 4, fun b => match sessOf s b with
      | some x => curRound s b x % 2 ^ 32
      | none => 0),
    (OFS_PEER_STAT, 1, fun _ => ofsPeerStat s),
    (OFS_PEER_RATE, 1, fun _ => match peerAt s (rd s OFS_PEER_SEL_berth) (rd s OFS_PEER_SEL_site) with
      | some q => q.rate
      | none => 0)]

/-- ETH and CMD (R430, R432). -/
def viewCmd (s : State) (off : Nat) : Option Nat :=
  pick off [(ETH_STAT, 1, fun _ => stored s ETH_STAT + 512 * (ptpIface s / 2)),
    (CMD_BERTH_STAT, 4, fun b =>
      let q := berthOf s b
      q.state + 4 * b2n q.admitted.isSome + 8 * b2n q.admin + 16 * min 15 q.held.length + 256 * ((match q.nextKey with
        | some (e, _, _) => e
        | none => q.keyEpoch) % 256)
        + 65536 * min 256 q.inflight.length),
    (CMD_EPOCH, 1, fun _ => s.sec.epoch.toNat)]

/-- The word of a register that shows other state. -/
def view (s : State) (req off : Nat) : Option Nat :=
  viewDev s req off <|> viewIcu s req off <|> viewTid s off <|> viewRst s off <|> viewShf s off <|> viewUpd s off <|> viewMem s off
    <|> viewClf s off <|> viewSwl s off <|> viewOfs s off <|> viewCmd s off

/-! ### Reads (R433, R436, R440) -/

/-- An access to an empty window is recorded and counted. -/
def noteEmpty (s : State) (off req : Nat) (write : Bool) : State :=
  count (wrs s [(DEV_ERR_offset, off), (DEV_ERR_requester, req), (DEV_ERR_write, b2n write)]) 0x0010 1

/-- The word that a plain offset reads, with no side effect; 0 where no register is implemented. -/
def plainWord (s : State) (req o : Nat) : W32 :=
  if (regSpec s.variant o).isNone then 0
  else match view s req o with
    | some v => BitVec.ofNat 32 v
    | none => regWord s o

/-- One read: the word, and what a plain read of a side-effecting register does. -/
def crsRead (s : State) (req off : Nat) : State × W32 :=
  if emptyWindow off then (noteEmpty s (off / 4 * 4) req false, 0)
  else
    let o := plainOffset off
    let al := aliasOf off
    if al ≠ .plain then (s, plainWord s req o)
    else if o = ICU_CLAIM.off then (let r := claimRead s req al false; (r.1, BitVec.ofNat 32 r.2))
    else if o = ICF_CLAIM.off then (let r := claimRead s req al true; (r.1, BitVec.ofNat 32 r.2))
    else if o = (MBX_D.at 3).off then (let r := d3Read s req al; (r.1, BitVec.ofNat 32 r.2))
    else match idx TID_USED 8 o with
      | some k => let r := tidUsedRead s al k; (r.1, BitVec.ofNat 32 r.2)
      | none => (s, plainWord s req o)

/-- Consecutive reads, in order. -/
def crsReads : Nat → State → Nat → Nat → State × List W32
  | 0, s, _, _ => (s, [])
  | n + 1, s, req, off =>
    let r := crsRead s req off
    let t := crsReads n r.1 req (off + 4)
    (t.1, r.2 :: t.2)

/-! ### Writes with a behaviour of their own -/

/-- A write acts on a WO field: a plain or set write of a requester that the field accepts (R439). -/
def woHit (s : State) (f : Fld) (c : CrsWrite) : Bool :=
  decide (c.al = .plain ∨ c.al = .set) && match regSpec s.variant f.off with
    | some r => r.fields.any fun x => decide (x.lo = f.lo) && x.writers.testBit c.req
    | none => false

/-- SHF_CNT_CTL: a 1 in clear zeroes every counter (R60). -/
def writeCntCtl (s : State) (c : CrsWrite) : State :=
  let s := storeWrite (countRunning s) SHF_CNT_CTL.off c
  if woBits s SHF_CNT_CTL_clear c ≠ 0 then modShelf s fun x => { x with causes := [] } else s

/-- SHF_ISSUE_EN_WRITE: a write of SHF_CTL; with issue_en clear no operation starts or goes on (R66). -/
def execShfIssueEnWrite (w : CrsWrite) (s : State) : Host.Outcome State Fault Refusal := .next <| storeWrite s SHF_CTL.off w

/-- SHF_COUNTER_CLEAR: a write of SHF_CNT_CTL. -/
def execShfCounterClear (w : CrsWrite) (s : State) : Host.Outcome State Fault Refusal := .next <| writeCntCtl s w

/-- NUM_DIRTY_POPb: a 1 removes the head of the dirty queue (R98). -/
def writePop (s : State) (b : Nat) (c : CrsWrite) : State :=
  if woBits s (NUM_DIRTY_POP_pop.at b) c ≠ 0 then modNum s fun x => { x with dirty := fmod x.dirty b List.tail } else s

/-- NUM_DIRTY_POP. -/
def execNumDirtyPop (berth : Nat) (w : CrsWrite) (s : State) : Host.Outcome State Fault Refusal :=
  .next <| if berth < 4 then writePop s berth w else s

/-- NUM_SEED_LOb and NUM_SEED_HIb (R91). -/
def writeSeed (s : State) (b : Nat) (high : Bool) (c : CrsWrite) : State :=
  let f := if high then NUM_SEED_HI.at b else NUM_SEED_LO.at b
  if !woHit s f c then s
  else
    let v := (fget s.num.seeds b).toNat
    let n := if high then v % 2 ^ 32 + 2 ^ 32 * c.value.toNat else v / 2 ^ 32 * 2 ^ 32 + c.value.toNat
    modNum s fun x => { x with seeds := fset x.seeds b (BitVec.ofNat 64 n) }

/-- Replace word `i` of a 256-bit staging, word 0 lowest. -/
def putWord (v : W256) (i : Nat) (w : W32) : W256 :=
  BitVec.ofNat 256 (v.toNat - v.toNat / 2 ^ (32 * i) % 2 ^ 32 * 2 ^ (32 * i) + w.toNat * 2 ^ (32 * i))

/-- CMD_ADM_HASHi stages four bytes of the hash, the first in bits [31:24] (R400). -/
def writeAdmHash (s : State) (i : Nat) (c : CrsWrite) : State :=
  if woHit s (CMD_ADM_HASH.at i) c then { s with quay := { s.quay with stageHash := putWord s.quay.stageHash (7 - i) c.value } } else s

/-- CMD_ADM_CTL: load admits the staged identity and right and zeroes the staging; clear removes the admission and closes the berth
(R400). -/
def writeAdmCtl (s : State) (c : CrsWrite) : State :=
  let s := storeWrite s CMD_ADM_CTL.off c
  let b := rd s CMD_ADM_SEL_berth
  let s := if woBits s CMD_ADM_CTL_load c ≠ 0 then
      let h := s.quay.stageHash
      let right := rdb s CMD_ADM_CTL_admin
      let s := modBerth s b fun q => { q with admitted := some h, admin := right }
      wr { s with quay := { s.quay with stageHash := 0 } } CMD_ADM_CTL_admin 0
    else s
  if woBits s CMD_ADM_CTL_clear c ≠ 0 then closeBerth s b false else s

/-- ADMISSION_LOAD: a write of CMD_ADM_CTL with load set. -/
def execAdmissionLoad (w : CrsWrite) (s : State) : Host.Outcome State Fault Refusal := .next <| writeAdmCtl s w

/-- ADMISSION_CLEAR: a write of CMD_ADM_CTL with clear set. -/
def execAdmissionClear (w : CrsWrite) (s : State) : Host.Outcome State Fault Refusal := .next <| let t := writeAdmCtl s w; t

/-- SWL_KEYi: four bytes of the staged key, the lowest in bits [7:0] (R333). -/
def writeKey (s : State) (i : Nat) (c : CrsWrite) : State :=
  if woHit s (SWL_KEY.at i) c then modSwl s fun w => { w with stageKey := putWord w.stageKey i c.value } else s

/-- SWL_SALT (R330, R333). -/
def writeSalt (s : State) (c : CrsWrite) : State := if woHit s SWL_SALT c then modSwl s fun w => { w with stageSalt := c.value } else s

/-- ICU_CNTn: firmware restarts a count (R450). -/
def writeCnt (s : State) (n : Nat) (c : CrsWrite) : State :=
  let old := (mgetD s.icu.counts n 0).toNat
  let new := fieldWrite .rw c.al false old (c.value.toNat % 65536) 65535
  modIcu s fun i => { i with counts := mset i.counts n (BitVec.ofNat 16 new) }

/-- ICU_LOCK: when L1 sets the lock the security settings are measured (R547). -/
def writeIcuLock (s : State) (c : CrsWrite) : State :=
  let t := storeWrite s ICU_LOCK.off c
  if c.req = 1 && !windowLocked s 2 && windowLocked t 2 then measureLocks t else t

/-- LSH_CTL: with run set, the packets that waited leave, and collectives, moves and close waves go on (R305). -/
def writeLshCtl (s : State) (c : CrsWrite) : State :=
  let s := storeWrite s LSH_CTL.off c
  if !rdb s LSH_CTL_run then s
  else foldS (fun s b =>
    let s := pumpPerm (pumpAll s b) b
    match closeGroup s b with
    | some (n, g) => if (fget s.lsh.close b).running then advanceWave (g.diam + 1) s b n g else s
    | none => s) (lshFlush s) berths

/-- OFS_CTL: with run set, rounds go on (R384). -/
def writeOfsCtl (s : State) (c : CrsWrite) : State :=
  let s := storeWrite s OFS_CTL.off c
  if rdb s OFS_CTL_run then ofsContinueAll s else s

/-- A write through CRS of SWL_ALARM.clear: whether a sensor still fires is not in State (free value). -/
def writeAlarm (s : State) (c : CrsWrite) : State :=
  if woBits s SWL_ALARM_clear c ≠ 0 then clearAlarm (useFree s) c (Config.freeNat s.free % 16) else s

/-- A write through CRS of TID_DONE: how long the tick's work took is not in State (free value). -/
def writeDone (s : State) (c : CrsWrite) : State :=
  if woBits s TID_DONE_done c ≠ 0 then writeTidDone (useFree s) c (Config.freeNat s.free % 65536) else s

/-! ### One write (R433, R436, R439) -/

/-- Registers of a range whose write has a behaviour of its own. -/
def rangeWrite (s : State) (o : Nat) (c : CrsWrite) : List (Fld × Nat × (State → Nat → CrsWrite → State)) → Option State
  | [] => none
  | (f, n, w) :: l =>
    match idx f n o with
    | some i => some (w s i c)
    | none => rangeWrite s o c l

/-- Every register whose write has a behaviour of its own. -/
def writeHooks : List (Fld × Nat × (State → Nat → CrsWrite → State)) :=
  [(ICU_PEND, 8, writePend), (ICU_STORM, 8, writeStorm), (ICU_CNT, 256, writeCnt), (ICU_EOI, 1, fun s _ c => writeEoi s false c),
   (ICF_EOI, 1, fun s _ c => writeEoi s true c), (ICU_LOCK, 1, fun s _ c => writeIcuLock s c), (BCN_CTL, 1, fun s _ c => writeBcnCtl s c),
   (MBX_SEL, 1, fun s _ c => writeSel s c), (MBX_CTL, 1, fun s _ c => writeMbxCtl s c), (TID_DONE, 1, fun s _ c => writeDone s c),
   (TID_RESTART, 1, fun s _ c => writeTidRestart s c), (PWR_CTL, 1, fun s _ c => writePwrCtl s c)] ++
  [(RST_REQ, 1, fun s _ c => writeRstReq s c), (RST_LOG_ACK, 1, fun s _ c => writeLogAck s c), (MGT_FL_CTL, 1, fun s _ c => writeFlCtl s c),
   (MGT_ATTN, 1, fun s _ c => writeAttn s c), (SHF_CNT_CTL, 1, fun s _ c => writeCntCtl s c), (NUM_DIRTY_POP, 4, writePop),
   (NUM_SEED_LO, 4, fun s b c => writeSeed s b false c), (NUM_SEED_HI, 4, fun s b c => writeSeed s b true c),
   (CLF_PCTL, 12, writePctl), (LSH_CTL, 1, fun s _ c => writeLshCtl s c), (SWL_KEY, 8, writeKey), (SWL_SALT, 1, fun s _ c => writeSalt s c)] ++
  [(SWL_KCTL, 1, fun s _ c => writeKctl s c), (SWL_ALARM, 1, fun s _ c => writeAlarm s c), (OFS_CTL, 1, fun s _ c => writeOfsCtl s c),
   (ETH_CTL, 1, fun s _ c => writeEthCtl s c), (ETH_IP_CTL, 1, fun s _ c => writeIpCtl s c), (CMD_ADM_HASH, 8, writeAdmHash),
   (CMD_ADM_CTL, 1, fun s _ c => writeAdmCtl s c)]

/-- A write of a plain offset by its requester and alias. -/
def plainWrite (s : State) (o : Nat) (c : CrsWrite) : State :=
  if (regSpec s.variant o).isNone || (!hasDdr s.variant && (idx PGR_T3_QUOTA 4 o).isSome) then s
  else (rangeWrite s o c writeHooks).getD (storeWrite s o c)

/-- One write of a requester to a CRS offset. -/
def crsWrite (s : State) (req off : Nat) (v : W32) : State :=
  if emptyWindow off then noteEmpty s (off / 4 * 4) req true else plainWrite s (plainOffset off) ⟨req, aliasOf off, v⟩

/-- REGISTER_WRITE: a write of a requester to a register. -/
def execRegisterWrite (req : Nat) (offset value : W32) (s : State) : Host.Outcome State Fault Refusal :=
  .next <| if req < 10 then crsWrite s req offset.toNat value else s

/-! ### REG_READ and REG_WRITE (R421, R438) -/

/-- REG_READ (0x0801): plain reads as HOST. -/
def execRegRead (h : EcpHdr) (offset : W32) (count : Nat) (s : State) : Host.Outcome State Fault Refusal :=
  .next <| ecpRun s h 0x0801 [] fun s =>
    if offset.toNat % 4 ≠ 0 then (s, .bad 0x01)
    else if count = 0 || count > 64 then (s, .bad 0)
    else if offset.toNat % 0x4000 + 4 * count > 0x4000 then (s, .bad 0x02)
    else
      let r := crsReads count s 9 offset.toNat
      (r.1, .ok (r.2.flatMap fun w => toBe 4 w.toNat))

/-- Registers that a berth without the admin right may write (R421). -/
def ownRegister (b o : Nat) : Bool :=
  [(NUM_SEED_LO.at b).off, (NUM_SEED_HI.at b).off, (NUM_BERTH_CTL.at b).off, (NUM_CEN_IDX.at b).off, (LSH_TIMED.at b).off].contains o

/-- REG_WRITE (0x0802): one word as HOST, at any alias; no berth has the right to MBX_SEL (DEDUCED, log 51). -/
def execRegWrite (h : EcpHdr) (offset value : W32) (s : State) : Host.Outcome State Fault Refusal :=
  .next <| ecpRun s h 0x0802 [] fun s =>
    let o := plainOffset offset.toNat
    if offset.toNat % 4 ≠ 0 then (s, .bad 0x01)
    else if !emptyWindow offset.toNat && o = MBX_SEL.off then (s, .fin stLOCKED 0 [])
    else if !(berthOf s h.berth).admin && (emptyWindow offset.toNat || !ownRegister h.berth o) then (s, .fin stLOCKED 0 [])
    else (crsWrite s 9 offset.toNat value, .ok [])

end Sys2Proof.Machine
end

