-- ==== Sys2Proof/Machine/Engines.lean ====
section
/-!
DEFINITION. Commands of group 0x06xx: factor slots (R127–R129, R157), workspaces (R156, R165), shards and their state (R164–R168,
R195), update programs (R181, R185), Almanac channels (R186) and the step counter (R591).
-/
namespace Sys2Proof.Machine
open Sys2Proof

/-! ### Factor slots -/

/-- A factor slot before its descriptor is written. -/
def FSlot.fresh (b : Nat) : FSlot :=
  { berth := b, desc := none, merges := 0, tokens := 0, gDone := [], live := 0, refresh := none, lastRef := none }

/-- FSLOT_ALLOC (0x0601): the lowest free slot. -/
def execFslotAlloc (h : EcpHdr) (s : State) : Host.Outcome State Fault Refusal :=
  .next <| ecpRun s h 0x0601 [] fun s =>
    match (List.range 4096).find? fun n => (mget s.snd.slots n).isNone with
    | some n => (modSnd s fun x => { x with slots := mset x.slots n (FSlot.fresh h.berth) }, .ok (toBe 2 n))
    | none => (s, .bad 0)

/-- The slot is allocated to the berth. -/
def slotMine (s : State) (b n : Nat) : Bool :=
  match mget s.snd.slots n with
  | some f => f.berth = b
  | none => false

/-- Every field of a slot descriptor keeps its range, and the handles are large enough (R127, R129). -/
def fslotOk (s : State) (b : Nat) (f : FsD) : Bool :=
  let p := f.op ≠ 0 && f.owner
  !f.rsv && f.op ≠ 3 && f.pCode ≠ 3 && f.shift ≠ 7 && 1 ≤ f.d && f.d ≤ 1048576 && f.bCode ≤ 5 && f.lamChan < 64
  && fle 0 f.beta && flt f.beta one32
  && allocated s b f.hf && 8 * f.elems ≤ extent s f.hf
  && (if p then allocated s b f.hp && 64 + 8 * f.elems ≤ extent s f.hp else f.hp = 0)

/-- The result buffers and the record of a slot at its creation, which is its first descriptor with a handle_p (R141, R142): the
identity in both buffers, NO_STATS in byte 19 and 0 in the record's other bytes. -/
def initSlot (s : State) (f : FsD) : State :=
  if f.op = 0 || !f.owner then s
  else
    let one (s : State) (i u : Nat) : State :=
      (writeBlk s f.hp (offP f i u) (f.e u) (build (f.e u) (f.e u) fun r c => if r = c then one32 else 0)).1
    foldS (fun s u => one (one s 0 u) 1 u) (writeN s f.hp 0 (zeros 19 ++ [3] ++ zeros 44)).1 (List.range f.nb)

/-- FSLOT_WRITE (0x0602). -/
def execFslotWrite (h : EcpHdr) (slot : Nat) (desc : List Byte) (s : State) : Host.Outcome State Fault Refusal :=
  .next <| ecpRun s h 0x0602 [] fun s =>
    if !slotMine s h.berth slot || !fslotOk s h.berth (parseFs desc) then (s, .bad 0)
    else
      let new := ((mget s.snd.slots slot).bind (·.desc)).isNone
      let s := if new then initSlot s (parseFs desc) else s
      (modFs s slot fun f => { f with desc := some desc }, .ok [])

/-- A refresh of the slot, or its reduce, is in progress (R157). -/
def slotBusy (s : State) (b n : Nat) : Bool :=
  let red (d : List Byte) : Bool := (parseColl d).layer = n
  (match mget s.snd.slots n with
    | some f => (match f.refresh with
      | some r => !r.done
      | none => false)
    | none => false)
  || (chanOf s b slotChan).queue.any red || (chanOf s b slotChan).active.any fun c => red c.desc

/-- FSLOT_RELEASE (0x0603). -/
def execFslotRelease (h : EcpHdr) (slot : Nat) (s : State) : Host.Outcome State Fault Refusal :=
  .next <| ecpRun s h 0x0603 [] fun s =>
    if !slotMine s h.berth slot then (s, .bad 0)
    else if slotBusy s h.berth slot then (s, .busy (busyTicks s))
    else (modSnd s fun x => { x with slots := mdel x.slots slot }, .ok [])

/-! ### Workspaces -/

/-- SOLVER_WS (0x0604). -/
def execSolverWs (h : EcpHdr) (handle : BitVec 48) (s : State) : Host.Outcome State Fault Refusal :=
  .next <| ecpRun s h 0x0604 [] fun s =>
    if !allocated s h.berth handle then (s, .bad 0)
    else (modSlv s fun x => { x with workspace := fset x.workspace h.berth handle }, .ok [])

/-- UPD_WS (0x0608). -/
def execUpdWs (h : EcpHdr) (handle : BitVec 48) (s : State) : Host.Outcome State Fault Refusal :=
  .next <| ecpRun s h 0x0608 [] fun s =>
    if !allocated s h.berth handle then (s, .bad 0)
    else (modUpd s fun x => { x with workspace := fset x.workspace h.berth handle }, .ok [])

/-! ### Shards (R164–R168, R195) -/

/-- A channel number names an enabled channel of the berth. -/
def chanNamed (s : State) (b c : Nat) : Bool :=
  match mget s.upd.chans (64 * b + c) with
  | some x => c < 64 && (parseCh x.desc).enabled
  | none => false

/-- A factor slot of the berth with kind, op and dimension. -/
def slotIs (s : State) (b n kind op d : Nat) : Bool :=
  slotMine s b n && (match fsOf s n with
    | some f => f.kind = kind && f.op = op && f.d = d
    | none => false)

/-- What a shard's rule asks for (R165). -/
def shardRuleOk (s : State) (b : Nat) (d : ShD) : Bool :=
  if d.cls = 0 then
    let ws := fget s.upd.workspace b
    d.m2 = 0 && ws ≠ 0 && 8 * d.size ≤ extent s ws
    && (match d.rule with
      | 0 => d.prec ≠ 0 && slotIs s b d.slotL 0 1 d.rows && slotIs s b d.slotR 1 1 d.cols
      | 1 => d.prec ≠ 0 && slotIs s b d.slotL 2 2 d.rows && slotIs s b d.slotR 3 2 d.cols
      | _ => min d.rows d.cols ≤ 16384 && max d.rows d.cols ≤ 65536 && d.p3.toNat ≤ 16)
  else match mget s.upd.progs d.prog with
    | some p => p.berth = b
    | none => false

/-- The descriptor passes R165. -/
def shardOk (s : State) (b n : Nat) (d : ShD) : Bool :=
  !d.rsv && d.cls ≤ 1 && d.rule ≤ (if d.cls = 0 then 2 else 0) && d.m2 ≠ 3 && d.prec ≠ 3 && d.rows ≠ 0 && d.cols ≠ 0
  && (match shardOf s n with
    | some sh => sh.berth = b
    | none => true)
  && allocated s b d.ha && allocated s b d.hb && allocated s b d.hg
  && d.slotLen ≤ extent s d.ha && d.slotLen ≤ extent s d.hb && 4 * d.size ≤ extent s d.hg
  && d.base + d.size ≤ 2 ^ 46
  && chanNamed s b d.lrChan && (d.wdChan = 0xFF || chanNamed s b d.wdChan) && (d.momChan = 0xFF || chanNamed s b d.momChan)
  && shardRuleOk s b d

/-- The shard has, or has had, an update in this step, or its reduction is complete (R195). -/
def shardBusy (s : State) (n : Nat) : Bool :=
  (updateOf s n).isSome || (match shardOf s n with
    | some sh => sh.reduced ≠ 0 || sh.started
    | none => false)

/-- SHARD_WRITE (0x0605): a new shard gets its commit word; a rewrite during the shard's update applies from the boundary. -/
def execShardWrite (h : EcpHdr) (shard : Nat) (desc : List Byte) (s : State) : Host.Outcome State Fault Refusal :=
  .next <| ecpRun s h 0x0605 [] fun s =>
    let b := h.berth
    if !shardOk s b shard (parseSh desc) then (s, .bad 0)
    else if (shardOf s shard).isNone then
      let sh : Shard := ⟨b, desc, none, 0, false, BitVec.ofNat 32 (fget s.upd.steps b).toNat, 0, false⟩
      (modUpd s fun u => { u with shards := mset u.shards shard sh }, .ok [])
    else if shardBusy s shard then (modShard s shard fun x => { x with next := some desc }, .ok [])
    else (modShard s shard fun x => { x with desc := desc, next := none }, .ok [])

/-- The shard is registered for the berth. -/
def shardMine (s : State) (b n : Nat) : Bool :=
  match shardOf s n with
  | some sh => sh.berth = b
  | none => false

/-- The shard carries an Offshore stream (R349). -/
def shardStreamed (s : State) (b n : Nat) : Bool :=
  match fget s.ofs.sessions b with
  | some x => x.streams.any fun p => p.2.shard = n
  | none => false

/-- SHARD_RELEASE (0x0606). -/
def execShardRelease (h : EcpHdr) (shard : Nat) (s : State) : Host.Outcome State Fault Refusal :=
  .next <| ecpRun s h 0x0606 [] fun s =>
    if !shardMine s h.berth shard then (s, .bad 0)
    else if shardBusy s shard || shardStreamed s h.berth shard then (s, .busy (busyTicks s))
    else (modUpd s fun u => { u with shards := mdel u.shards shard, fetches := u.fetches.filter fun f => f.shard ≠ shard }, .ok [])

/-- STATE_LOAD (0x0607): a version-slot image becomes the content of the live slot, and step_lo the step named. -/
def execStateLoad (h : EcpHdr) (shard : Nat) (step : W64) (handle : BitVec 48) (s : State) : Host.Outcome State Fault Refusal :=
  .next <| ecpRun s h 0x0607 [] fun s =>
    let b := h.berth
    match shardOf s shard with
    | none => (s, .bad 0)
    | some sh =>
      let n := (parseSh sh.desc).slotLen
      if sh.berth ≠ b || !allocated s b handle || isDropped s handle || extent s handle < n then (s, .bad 0)
      else if shardBusy s shard then (s, .busy (busyTicks s))
      else
        let r := readH s handle 0 n
        if r.2 then (noteRead s handle 0 n, .fin stFAULT 0 [])
        else
          let w := writeH s (liveH sh) 0 r.1
          if w.2 then (noteUe w.1 (badAt s (addrOf (liveH sh)) n) false, .fin stFAULT 0 [])
          else (modShard w.1 shard fun x => { x with stepLo := BitVec.ofNat 32 step.toNat }, .ok [])

/-! ### Programs, channels, the step counter -/

/-- A queued or running update names the program slot (R185). -/
def progNamed (s : State) (n : Nat) : Bool :=
  s.upd.shards.any fun p =>
    (parseSh p.2.desc).cls = 1 && (parseSh p.2.desc).prog = n
      && ((updateOf s p.1).isSome || (p.2.reduced ≠ 0 && !p.2.started))

/-- PROG_LOAD (0x0609): the faults of R181 in their order. -/
def execProgLoad (h : EcpHdr) (slot : Nat) (words : List W32) (s : State) : Host.Outcome State Fault Refusal :=
  .next <| ecpRun s h 0x0609 [] fun s =>
    let b := h.berth
    let taken : Bool := match mget s.upd.progs slot with
      | some p => p.berth ≠ b
      | none => false
    if slot ≥ 32 then (s, .bad 0x09)
    else if taken then (s, .bad 0x0A)
    else if progNamed s slot then (s, .busy (busyTicks s))
    else match progCheck words with
      | some (code, i) =>
        (wrs (wrOr s UPD_IRQ_STAT_prog_reject 1)
          [(UPD_ERR_code, code), (UPD_ERR_slot, slot), (UPD_ERR_instr, i), (UPD_ERR_berth, b)], .bad code)
      | none => (modUpd s fun u => { u with progs := mset u.progs slot ⟨b, words⟩ }, .ok [])

/-- SCHED_WRITE (0x060A): the channel keeps its value until the next evaluation (R189). -/
def execSchedWrite (h : EcpHdr) (channel : Nat) (desc : List Byte) (s : State) : Host.Outcome State Fault Refusal :=
  .next <| ecpRun s h 0x060A [] fun s =>
    if chanRefused channel desc then (s, .bad 0)
    else
      let k := 64 * h.berth + channel
      let c : Chan := match mget s.upd.chans k with
        | some c => { c with desc := desc }
        | none => ⟨desc, none, false, 0⟩
      (modUpd s fun u => { u with chans := mset u.chans k c }, .ok [])

/-- STEP_SET (0x060B). -/
def execStepSet (h : EcpHdr) (step : W64) (s : State) : Host.Outcome State Fault Refusal :=
  .next <| ecpRun s h 0x060B [] fun s =>
    if fget s.shelf.posted h.berth ≠ 0 then (s, .busy (busyTicks s))
    else (almEval (modUpd s fun u => { u with steps := fset u.steps h.berth step }) h.berth, .ok [])

end Sys2Proof.Machine
end

