-- ==== Sys2Proof/Machine/Mapping.lean ====
section
/-!
DEFINITION. Commands of group 0x05xx: group entries with their close diameter and hop counts (R277–R279, R296), the coordinate walk
(R257, R258) and templates (R283).
-/
namespace Sys2Proof.Machine
open Sys2Proof

/-! ### Distances in the torus (R241, R279, R296) -/

/-- Hops between two devices in one dimension and in all. -/
def dimHops (s : State) (d a b : Nat) : Nat :=
  let n := dimSize s d
  let x := (coordOf a d + n - coordOf b d) % n
  min x (n - x)
def hopsOf (s : State) (a b : Nat) : Nat := dimHops s 0 a b + dimHops s 1 a b + dimHops s 2 a b

/-- Members that are torus neighbours of a device. -/
def nbrsIn (s : State) (members : List Nat) (a : Nat) : List Nat := members.filter fun b => hopsOf s a b = 1

/-- Spread from a front over neighbours: steps taken and devices seen. Fuel bounds the steps. -/
def spreadFrom (nbr : Nat → List Nat) : Nat → List Nat → List Nat → Nat → Nat × List Nat
  | 0, seen, _, d => (d, seen)
  | k + 1, seen, front, d =>
    let next := (front.flatMap nbr).eraseDups.filter fun x => !(x ∈ seen)
    if next.isEmpty then (d, seen) else spreadFrom nbr k (seen ++ next) next (d + 1)

/-- Close diameter of a connected set; none when it is not connected (R279). -/
def closeDiam (s : State) (members : List Nat) : Option Nat :=
  let far := members.map fun a => spreadFrom (nbrsIn s members) members.length [a] [a] 0
  if far.all fun p => p.2.length = members.length then some ((far.map (·.1)).foldl max 0) else none

/-- The pairs of a group's plan, as ranks (R296): HALVING partners, or every two ranks. -/
def planPairs (plan size : Nat) : List (Nat × Nat) :=
  if plan = 2 || (plan = 0 && 2 ^ clog2 size = size) then
    (List.range size).flatMap fun r => (List.range (clog2 size)).map fun l => (r, r ^^^ 2 ^ l)
  else (List.range size).flatMap fun i => ((List.range size).filter (· ≠ i)).map fun j => (i, j)

/-- Largest hop count and the mean as a 16.16 number, truncated. -/
def planHops (s : State) (plan : Nat) (members : List Nat) : Nat × Nat :=
  let l := (planPairs plan members.length).map fun p => hopsOf s (nth members p.1 0) (nth members p.2 0)
  (l.foldl max 0, if l.isEmpty then 0 else l.sum * 65536 / l.length)

/-! ### GROUP_WRITE and GROUP_RELEASE (R277–R279) -/

/-- The entry's own fields keep their ranges (R277, R278). -/
def grpFieldsOk (b : Nat) (g : GrpD) : Bool :=
  !g.rsv && g.axis ≤ 4 && g.plan ≠ 3 && g.berth = b && g.group ≠ 0 && 1 ≤ g.size && g.size ≤ 131072 && g.rank < g.size
  && (g.plan ≠ 2 || 2 ^ clog2 g.size = g.size)

/-- Live entries and room allow the entry. -/
def grpPlaceOk (s : State) (b : Nat) (g : GrpD) : Bool :=
  (g.staged || (!(s.lsh.live.any fun p => p.1 % 65536 = g.group) && !(g.axis = 4 && (closeGroup s b).isSome)))
  && ((if g.staged then (mget s.lsh.staged (65536 * b + g.group)).isSome else false)
      || s.lsh.live.length + s.lsh.staged.length < 4096)

/-- The member list as words, and as device IDs. -/
def memberWords (s : State) (g : GrpD) : List Nat := (chunks 4 (readH s g.members 0 (4 * g.size)).1).map leNat

/-- The list keeps R278. -/
def membersOk (s : State) (g : GrpD) (ws : List Nat) : Bool :=
  ws.all (fun w => w < 2 ^ 17 && (List.range 3).all fun d => coordOf w d < dimSize s d)
  && ws.eraseDups.length = ws.length && rdb s CLF_COORD_valid && nth ws g.rank (2 ^ 32) = ownId s

/-- Write an entry that passed every check: the command's answer gives D and the hop counts. -/
def writeGroup (s : State) (b : Nat) (entry : List Byte) (g : GrpD) (ws : List Nat) (diam : Nat) : State × Ans :=
  let e : Group := ⟨entry, ws, 0, if g.axis = 4 then nbrsIn s ws (ownId s) else [], diam⟩
  let h := planHops s g.plan ws
  let k := 65536 * b + g.group
  (modLsh s fun l => if g.staged then { l with staged := mset l.staged k e } else { l with live := mset l.live k e },
    .ok (toBe 1 (min diam 255) ++ toBe 4 h.1 ++ toBe 4 h.2))

/-- GROUP_WRITE (0x0501). -/
def execGroupWrite (h : EcpHdr) (entry : List Byte) (s : State) : Host.Outcome State Fault Refusal :=
  .next <| ecpRun s h 0x0501 [] fun s =>
    let b := h.berth
    let g := parseGrp entry
    let n := 4 * g.size
    let listed := allocated s b g.members && !isCoded s g.members && n ≤ extent s g.members
    if listed && (readH s g.members 0 n).2 then (noteRead s g.members 0 n, .fin stFAULT 0 [])
    else if !grpFieldsOk b g || !grpPlaceOk s b g || !listed || !membersOk s g (memberWords s g) then (s, .bad 0)
    else if g.axis = 4 then
      (match closeDiam s (memberWords s g) with
        | some d => writeGroup s b entry g (memberWords s g) d
        | none => (s, .bad 0))
    else writeGroup s b entry g (memberWords s g) 0

/-- A collective of the group is queued, in progress, copied, or is the running PERMUTE. -/
def groupBusy (s : State) (b group : Nat) : Bool :=
  let names (d : List Byte) : Bool := (parseColl d).group = group
  allChans.any (fun c => (chanOf s b c).queue.any names || (chanOf s b c).active.any fun x => names x.desc)
  || (fget s.lsh.copies b).any names || ((fget s.lsh.permute b).phase ≠ 0 && names (fget s.lsh.permute b).desc)

/-- GROUP_RELEASE (0x0502). -/
def execGroupRelease (h : EcpHdr) (group : Nat) (s : State) : Host.Outcome State Fault Refusal :=
  .next <| ecpRun s h 0x0502 [] fun s =>
    let b := h.berth
    let k := 65536 * b + group
    if (mget s.lsh.live k).isNone && (mget s.lsh.staged k).isNone then (s, .bad 0x01)
    else if (fget s.lsh.templates b).any fun d => (parseColl d).group = group then (s, .bad 0x02)
    else if groupBusy s b group then (s, .busy (busyTicks s))
    else (modLsh s fun l => { l with live := mdel l.live k, staged := mdel l.staged k }, .ok [])

/-! ### DISCOVER and TEMPLATE_CLEAR -/

/-- DISCOVER (0x0503). -/
def execDiscover (h : EcpHdr) (tag sx sy sz : Nat) (s : State) : Host.Outcome State Fault Refusal :=
  .next <| ecpRun s h 0x0503 [7] fun s => startWalk s h.berth h.seq tag sx sy sz

/-- TEMPLATE_CLEAR (0x0504): the layer's templates go. -/
def execTemplateClear (h : EcpHdr) (layer : Nat) (s : State) : Host.Outcome State Fault Refusal :=
  .next <| ecpRun s h 0x0504 [] fun s =>
    (modLsh s fun l => { l with templates := fmod l.templates h.berth fun ds => ds.filter fun d => (parseColl d).layer ≠ layer },
      .ok [])

end Sys2Proof.Machine
end

