-- ==== Sys2Proof/Machine/MemCmds.lean ====
section
/-!
DEFINITION. Commands of group 0x03xx: objects and quotas (R208–R211), transfers by Quay (R325, R416, R417), event slots (R418), and
Shingle's CODE and DECODE (R323); and the release of a freed object (R210).
-/
namespace Sys2Proof.Machine
open Sys2Proof

/-! ### Objects -/

/-- ALLOC (0x0301): refused by the first broken row of R208, answered with the handle, or left waiting for room. -/
def execAlloc (h : EcpHdr) (size : W64) (tier policy : Nat) (s : State) : Host.Outcome State Fault Refusal :=
  .next <| ecpRun s h 0x0301 [] fun s =>
    match allocCheck s h.berth size.toNat tier policy with
    | .error (st, d) => (s, .fin st d [])
    | .ok (.placed s' hd) => (s', .ok (toBe 6 hd.toNat))
    | .ok (.refuse d) => (s, .bad d)
    | .ok .wait =>
      (modMem s fun m => { m with allocs := m.allocs ++ [⟨h.berth, h.seq, size.toNat, 256 * tier + policy⟩] }, .later)

/-- The object is an operand of another object's registered recompute segment (R120, R210). -/
def segmentOperand (s : State) (b n : Nat) : Bool :=
  s.mem.objects.any fun p => p.1 ≠ okey b n && p.2.segment.any fun d => (opHandles (parseOp d)).any (namesKey (okey b n))

/-- FREE (0x0302): accepted; the object goes with its OBJECT_RELEASE. -/
def execFree (h : EcpHdr) (handle : BitVec 48) (s : State) : Host.Outcome State Fault Refusal :=
  .next <| ecpRun s h 0x0302 [] fun s =>
    match objOf s handle with
    | none => (s, .bad 0x01)
    | some o =>
      if hBerth handle ≠ h.berth || o.freeing then (s, .bad 0x01)
      else if segmentOperand s h.berth (hObj handle) then (s, .bad 0x02)
      else (modObj s h.berth (hObj handle) fun o => { o with freeing := true }, .ok [])

/-- Something fetched, a transfer or a collective still names the object (R210). -/
def stillNamed (s : State) (b n : Nat) : Bool :=
  (fetchedHandles s ++ collHandles s true ++ roundHandles s).any (namesKey (okey b n))
  || s.shg.reqs.any fun r => namesKey (okey b n) r.src || namesKey (okey b n) r.dst

/-- OBJECT_RELEASE of a freed object that nothing names any longer. -/
def execObjectRelease (berth object : Nat) (s : State) : Host.Outcome State Fault Refusal :=
  .next <|
    match objAt s berth object with
    | none => s
    | some o => if o.freeing && !stillNamed s berth object then tryAllocs (releaseObject s berth object) else s

/-- T3 quota of a berth; the KMZ-4120 has none (R5). -/
def t3Quota (s : State) (b : Nat) : Nat := if hasDdr s.variant then rd s (PGR_T3_QUOTA_pages.at b) else 0

/-- Sum of a quota over the other berths. -/
def otherSum (f : Nat → Nat) (b : Nat) : Nat := ((berths.filter (· ≠ b)).map f).sum

/-- MEM_CONFIG keeps every rule of R211. -/
def memConfigOk (s : State) (b t1 t2 t3 spill bal : Nat) : Bool :=
  t1 + otherSum (fun n => rd s (HBR_PART_pages.at n)) b ≤ 288 && partUsed s b ≤ t1
  && t2 + otherSum (fun n => rd s (PGR_T2_QUOTA_pages.at n)) b ≤ 196096
  && t3 + otherSum (t3Quota s) b ≤ totalT3 s
  && spill ≤ t2 && bal < 2
  && (bal = b2n (fget s.mem.balance b) || (usedPages s b 3 = 0 && (objsOf s b).all fun p => !p.2.dropped))

/-- Lowered quotas fail the berth's allocations in their tiers that have yet to be placed, with reason 0x04 (R231). -/
def failAllocs (s : State) (b t1 t2 t3 : Nat) : State :=
  let low (t : Nat) : Bool := match t with
    | 1 => decide (t1 < rd s (HBR_PART_pages.at b))
    | 2 => decide (t2 < rd s (PGR_T2_QUOTA_pages.at b))
    | _ => decide (t3 < t3Quota s b)
  let l := s.mem.allocs.filter fun a => a.berth = b && low (a.policy / 256)
  let s := modMem s fun m => { m with allocs := m.allocs.filter fun a => !(a.berth = b && low (a.policy / 256)) }
  foldS (fun s a => finish s b 0x0301 a.seq stBAD 0x04 []) s l

/-- MEM_CONFIG (0x0303): a T3 quota on a KMZ-4120, which has no T3, is ABSENT_UNIT (R6, R29). -/
def execMemConfig (h : EcpHdr) (t1 t2 t3 spill stageBalance : Nat) (s : State) : Host.Outcome State Fault Refusal :=
  .next <| ecpRun s h 0x0303 [] fun s =>
    let b := h.berth
    if t3 ≠ 0 && !hasDdr s.variant then (s, .fin stABSENT 0 [])
    else if !memConfigOk s b t1 t2 t3 spill stageBalance then (s, .bad 0)
    else
      let s := failAllocs s b t1 t2 t3
      let s := wrs s [(HBR_PART_pages.at b, t1), (PGR_T2_QUOTA_pages.at b, t2), (PGR_SPILL_pages.at b, spill)]
      let s := if hasDdr s.variant then wr s (PGR_T3_QUOTA_pages.at b) t3 else s
      (tryAllocs (modMem s fun m => { m with balance := fset m.balance b (stageBalance = 1) }), .ok [])

/-! ### Transfers (R325, R416, R417) -/

/-- A transfer's range: the handle is allocated to the berth, not dropped, and holds the bytes. -/
def rangeOk (s : State) (b : Nat) (hd : Hdl) (off n : Nat) : Bool := allocated s b hd && !isDropped s hd && off + n ≤ extent s hd

/-- The bytes of an object form a coded object whose header and CRCs all check (R325). Its policy must be KEEP or OFFLOAD (R324). -/
def codedWhole (s : State) (b n : Nat) : Bool :=
  let hd := mkHandle b n
  fld (peek s (objBase b n) 2) 0 2 = 0x5348 &&
    (match codedRaw s hd with
      | some x => (decodeBlocks x (codedBytes s hd)).all fun r => match r with
        | .ok _ => true
        | .error _ => false
      | none => false)

/-- WRITE (0x0304): in place in any tier, then the signal; signal bits [14:10] mean nothing. -/
def execWrite (h : EcpHdr) (handle : BitVec 48) (signal : W16) (offset : W64) (data : List Byte) (s : State) :
    Host.Outcome State Fault Refusal :=
  .next <| ecpRun s h 0x0304 [] fun s =>
    let off := offset.toNat
    if data.isEmpty || data.length > 8192 || !rangeOk s h.berth handle off data.length then (s, .bad 0)
    else
      let a := addrOf handle + off
      if badWrite s a data.length then (noteUe s (badAt s a data.length) false, .fin stFAULT 0 [])
      else
        let w := writeH (touch s handle) handle off data
        let n := hObj handle
        let s := modObj w.1 h.berth n fun o => { o with coded := o.policy ≤ 1 && codedWhole w.1 h.berth n }
        (if bit signal.toNat 15 then bumpSlot s h.berth (signal.toNat % 1024) 1 else s, .ok [])

/-- The data packets of a READ, 8,192 bytes each. -/
def readPackets (h : EcpHdr) (off : Nat) (bs : List Byte) : List Tx :=
  (chunks 8192 bs).mapIdx fun i c => .data h.iface h.peer h.seq h.berth (off + 8192 * i) c

/-- READ (0x0305): the whole range is read and checked before any byte leaves. -/
def execRead (h : EcpHdr) (handle : BitVec 48) (offset : W64) (length _pace : Nat) (s : State) : Host.Outcome State Fault Refusal :=
  .next <| ecpRun s h 0x0305 [] fun s =>
    let off := offset.toNat
    if length = 0 || length > 1048576 || !rangeOk s h.berth handle off length then (s, .bad 0)
    else
      let r := readH s handle off length
      if r.2 then (noteRead s handle off length, .fin stFAULT 0 [])
      else (emitAll (touch s handle) (readPackets h off r.1), .ok [])

/-- SIGNAL (0x0308): one increment of an event slot. -/
def execSignal (h : EcpHdr) (slot count : Nat) (s : State) : Host.Outcome State Fault Refusal :=
  .next <| ecpRun s h 0x0308 [] fun s =>
    if slot > 1023 || count = 0 || count > 32767 then (s, .bad 0) else (bumpSlot s h.berth slot count, .ok [])

/-! ### Coding (R323) -/

/-- CODE (0x0306). -/
def execCode (h : EcpHdr) (source destination : BitVec 48) (fmt : Nat) (s : State) : Host.Outcome State Fault Refusal :=
  .next <| ecpRun s h 0x0306 [] fun s => codeStart s h.berth h.seq source destination fmt

/-- DECODE (0x0307). -/
def execDecode (h : EcpHdr) (source destination : BitVec 48) (s : State) : Host.Outcome State Fault Refusal :=
  .next <| ecpRun s h 0x0307 [] fun s => decodeStart s h.berth h.seq source destination

end Sys2Proof.Machine
end

