-- ==== Sys2Proof/Machine/Sideband.lean ====
section
/-!
DEFINITION. The sideband's private transfers (R573): the read pointer, one-word writes and reads of 1 to 64 words, as requester 8.
-/
namespace Sys2Proof.Machine
open Sys2Proof

/-- DEVICE is out of reset and a core runs firmware, or the offset lies in the MGT block. -/
def sideReaches (s : State) (off : Nat) : Bool :=
  off / 0x4000 = 36 || (!inReset s 0x3F && (List.range 8).any (coreRuns s))

/-- A transfer that is NACKed or discarded is counted. -/
def sideLost (s : State) : State := count s 0x0803 1

/-- I3C_SET_POINTER. -/
def execI3cSetPointer (offset : W32) (s : State) : Host.Outcome State Fault Refusal :=
  .next <| if onBus s then count { s with edge := { s.edge with pointer := offset } } 0x0802 1 else s

/-- I3C_REG_WRITE. -/
def execI3cRegWrite (offset value : W32) (s : State) : Host.Outcome State Fault Refusal :=
  .next <|
    if !onBus s then s
    else
      let s := count s 0x0802 1
      if sideReaches s offset.toNat then crsWrite s 8 offset.toNat value else sideLost s

/-- Words from the pointer on; out of reach they read 0. -/
def sideReads : Nat → State → Nat → State × List W32
  | 0, s, _ => (s, [])
  | n + 1, s, off =>
    let r := if sideReaches s off then crsRead s 8 off else (s, 0)
    let t := sideReads n r.1 (off + 4)
    (t.1, r.2 :: t.2)

/-- I3C_REG_READ of n words. -/
def execI3cRegRead (n : Nat) (s : State) : Host.Outcome State Fault Refusal :=
  .next <|
    if !onBus s then s
    else
      let s := count s 0x0802 1
      if n = 0 || n > 64 then sideLost s
      else
        let p := s.edge.pointer
        let r := sideReads n s p.toNat
        emit { r.1 with edge := { r.1.edge with pointer := p + BitVec.ofNat 32 (4 * n) } } (.words 8 p.toNat r.2)

end Sys2Proof.Machine
end

