-- ==== Sys2Proof/Machine/Stream.lean ====
section
/-!
DEFINITION. Commands of group 0x04xx: submissions and their order (R282, R414), resuming and flushing a stream (R295, R415),
recompute segments (R120), census totals (R99, R420) and the stream mode (R422).
-/
namespace Sys2Proof.Machine
open Sys2Proof

/-! ### Posting collectives (R282, R297) -/

/-- Bytes of the source and of the result that a descriptor needs on this rank (R281); none for a handle that is not used. -/
def collSizes (c : CollD) (size rank : Nat) : Option Nat × Option Nat :=
  let n := c.count
  let sh := cdiv n size
  let mine : Nat := min sh (n - rank * sh)
  let root := rank = c.root
  let elems : Option Nat × Option Nat :=
    match c.op with
    | 1 => (some n, some n)
    | 2 => (some n, if c.shard then (if root then some n else none) else some mine)
    | 3 => (some n, some (size * n))
    | 4 => (some (size * n), some (size * n))
    | 5 => (if root then some n else none, some n)
    | _ => (none, none)
  if c.op = 7 then (some (24 * n), none)
  else (elems.1.map (· * esz c.fin), elems.2.map (· * esz c.fout))

/-- A handle that a collective uses is allocated to the berth, ordinary (R324), and holds the bytes. -/
def collHandleOk (s : State) (b : Nat) (h : Hdl) : Option Nat → Bool
  | none => true
  | some n => allocated s b h && n ≤ extent s h && !isCoded s h

/-- Templates of a layer that a berth holds. -/
def templatesOf (s : State) (b layer : Nat) : Nat := ((fget s.lsh.templates b).filter fun d => (parseColl d).layer = layer).length

/-- A descriptor passes R282 on a channel that holds `queued` descriptors. Movements use the formats of R38. -/
def collOk (s : State) (b channel queued : Nat) (d : List Byte) : Bool :=
  let c := parseColl d
  match groupOf s b c.group with
  | none => false
  | some g =>
    let e := parseGrp g.entry
    let sz := collSizes c e.size e.rank
    !c.rsv && 1 ≤ c.op && c.op ≤ 7 && rdb s CLF_COORD_valid
    && (if isRed c.op then c.fin < 2 && c.fout < 2 else c.op = 6 || (c.fin < 4 && c.fout = c.fin))
    && c.root < e.size && c.chan = channel && queued < 256 && (c.op ≠ 7 || channel = 0)
    && ((c.onTrig && c.src = 0) || collHandleOk s b c.src sz.1) && collHandleOk s b c.dst sz.2
    && (!c.onTrig || templatesOf s b c.layer < 4)

/-- The berth stands at a step boundary: no layer has finished in the step, nothing updates, and no PERMUTE runs (R297). -/
def atBoundary (s : State) (b : Nat) : Bool :=
  fget s.shelf.posted b = 0 && (fget s.shelf.triggers b).isEmpty && !updatesLeft s b && (fget s.lsh.permute b).phase = 0

/-- Post descriptors in order, each a template or a queue entry; none when one is refused. -/
def postAll (b channel : Nat) : List (List Byte) → State → Option State
  | [], s => some s
  | d :: ds, s =>
    if !collOk s b channel (chanOf s b channel).queue.length d then none
    else if (parseColl d).onTrig then
      postAll b channel ds (modLsh s fun l => { l with templates := fmod l.templates b (· ++ [d]) })
    else postAll b channel ds (modChan s b channel fun x => { x with queue := x.queue ++ [d] })

/-! ### Submission order (R414) -/

/-- `a` lies above `b`, modulo 2^32. -/
def above (a b : W32) : Bool := a ≠ b && (a - b).toNat < 2 ^ 31

/-- Next expected position of the stream or of a channel. -/
def nextPos (s : State) (b : Nat) : Option Nat → W32
  | none => (berthOf s b).pos
  | some c => (chanOf s b c).pos

/-- Place descriptors whose index is the next position: everything, or BUSY for want of room, or refused by R282. -/
def placeDescs (s : State) (b : Nat) (channel : Option Nat) (ds : List (List Byte)) : State × Ans :=
  let n := BitVec.ofNat 32 ds.length
  match channel with
  | none =>
    if (fget s.shelf.streams b).length + ds.length > 16384 then (s, .busy (busyTicks s))
    else
      let s := enterWindow (modShelf s fun x => { x with streams := fmod x.streams b (· ++ ds) })
      (modBerth s b fun q => { q with pos := q.pos + n }, .ok [])
  | some c =>
    let queued := (ds.filter fun d => !(parseColl d).onTrig).length
    let held := (chanOf s b c).queue.length
    if !(ds.all fun d => collOk s b c held d) then (s, .bad 0)
    else if held + queued > 256 then (s, .busy (busyTicks s))
    else if (ds.any fun d => (parseColl d).op = 7) && !atBoundary s b then (s, .busy (busyTicks s))
    else match postAll b c ds s with
      | some s' => (modChan s' b c fun x => { x with pos := x.pos + n }, .ok [])
      | none => (s, .bad 0)

/-- Act on an index; none while the packet has to wait for a gap. -/
def tryPlace (s : State) (b : Nat) (channel : Option Nat) (index : W32) (ds : List (List Byte)) : Option (State × Ans) :=
  let nxt := nextPos s b channel
  let stop := index + BitVec.ofNat 32 ds.length
  if index = nxt then some (placeDescs s b channel ds)
  else if above index nxt then none
  else if above stop nxt then some (s, .bad 0)
  else some (s, .ok [])

/-- Opcode of a held packet. -/
def heldOp (x : HeldSub) : Nat := if x.channel.isNone then 0x0401 else 0x0402

/-- Answer a held packet. -/
def answerHeld (s : State) (b : Nat) (x : HeldSub) : Ans → State
  | .fin st d data => finish s b (heldOp x) x.seq st d data
  | _ => finishBusy s b (heldOp x) x.seq

/-- Held packets whose gap has been filled are acted on, each filling perhaps another gap. Fuel is the number held. -/
def releaseHeld : Nat → State → Nat → State
  | 0, s, _ => s
  | k + 1, s, b =>
    match (berthOf s b).held.find? fun x => (tryPlace s b x.channel x.index x.descs).isSome with
    | none => s
    | some x =>
      let s := modBerth s b fun q => { q with held := q.held.erase x }
      match tryPlace s b x.channel x.index x.descs with
      | some r => releaseHeld k (answerHeld r.1 b x r.2) b
      | none => s

/-- A submission: acted on, held, or refused while eight packets are held. -/
def submission (s : State) (h : EcpHdr) (channel : Option Nat) (index : W32) (ds : List (List Byte)) : State × Ans :=
  let b := h.berth
  match tryPlace s b channel index ds with
  | some r => (releaseHeld (berthOf s b).held.length r.1 b, r.2)
  | none =>
    if (berthOf s b).held.length ≥ 8 then (s, .busy (busyTicks s))
    else (modBerth s b fun q => { q with held := q.held ++ [⟨h.seq, h.iface, h.peer, channel, index, ds, s.lh.tick⟩] }, .later)

/-- SUBMIT (0x0401). -/
def execSubmit (h : EcpHdr) (index : W32) (descs : List (List Byte)) (s : State) : Host.Outcome State Fault Refusal :=
  .next <| ecpRun s h 0x0401 [] fun s =>
    if descs.isEmpty || descs.length > 64 then (s, .bad 0) else submission s h none index descs

/-- POST_COLL (0x0402). -/
def execPostColl (h : EcpHdr) (channel : Nat) (index : W32) (descs : List (List Byte)) (s : State) :
    Host.Outcome State Fault Refusal :=
  .next <| ecpRun s h 0x0402 [] fun s =>
    if descs.isEmpty || descs.length > 128 || channel > 15 then (s, .bad 0) else submission s h (some channel) index descs

/-- SUBMIT_HOLD_TIMEOUT: a packet held for CMD_HOLD ticks is answered BUSY. -/
def execSubmitHoldTimeout (berth : Nat) (seq : W32) (s : State) : Host.Outcome State Fault Refusal :=
  .next <|
    match (berthOf s berth).held.find? fun x => x.seq = seq with
    | some x =>
      if since s x.tick ≥ rd1 s CMD_HOLD_ticks then
        finishBusy (modBerth s berth fun q => { q with held := q.held.erase x }) berth (heldOp x) seq
      else s
    | none => s

/-! ### STREAM_RESUME and STREAM_FLUSH (R295, R415) -/

/-- The stream's halt is lifted; the rejected descriptor goes when `drop` says so. SHF_BERTH_STAT.error keeps its code (DESIGN CHOICE,
log 196). -/
def liftHalt (s : State) (b : Nat) (drop : Bool) : State :=
  let rejected := (fget s.shelf.rejected b).isSome
  let s := if drop && rejected then leaveWindow s b else s
  modShelf s fun x => { x with
    halted := fset x.halted b false, rejected := fset x.rejected b none, fetched := fset x.fetched b false
    streams := if drop && rejected then fmod x.streams b List.tail else x.streams }

/-- STREAM_RESUME (0x0403): mode 0 drops the rejected descriptor; an undecided step starts its close wave again. -/
def execStreamResume (h : EcpHdr) (mode : Nat) (s : State) : Host.Outcome State Fault Refusal :=
  .next <| ecpRun s h 0x0403 [] fun s =>
    let b := h.berth
    if mode > 1 then (s, .bad 0)
    else
      let open_ := fget s.shelf.undecided b
      let s := liftHalt s b (mode = 0)
      let s := modShelf s fun x => { x with undecided := fset x.undecided b false }
      (if open_ then startWave s b else s, .ok [])

/-- Discard a channel's work (R303, R415). -/
def flushChannel (b : Nat) (s : State) (c : Nat) : State :=
  let s := modChan s b c fun x => { x with queue := [], active := [], pos := 0, halted := false }
  modLsh s fun l => { l with copies := fmod l.copies b fun ds => ds.filter fun d => (parseColl d).chan ≠ c }

/-- Held packets of the stream and of the named channels leave without an answer. -/
def dropHeld (s : State) (b : Nat) (mask : W16) : State :=
  let gone (x : HeldSub) : Bool := match x.channel with
    | none => true
    | some c => bit mask.toNat c
  modBerth s b fun q => { q with
    inflight := q.inflight.filter fun p => !(q.held.any fun x => gone x && x.seq = p.1)
    held := q.held.filter fun x => !gone x }

/-- STREAM_FLUSH (0x0404). -/
def execStreamFlush (h : EcpHdr) (nextIndex : W32) (mask : W16) (s : State) : Host.Outcome State Fault Refusal :=
  .next <| ecpRun s h 0x0404 [] fun s =>
    let b := h.berth
    if (fget s.lsh.permute b).phase ≠ 0 && bit mask.toNat 0 then (s, .busy (busyTicks s))
    else
      let s := if fget s.shelf.undecided b then
          skipRows (modShelf s fun x => { x with undecided := fset x.undecided b false }) b else s
      let s := dropHeld (clearWindow (modShelf s fun x => { x with streams := fset x.streams b [], fetched := fset x.fetched b false }) b) b mask
      let s := ackAll (foldS (flushChannel b) s ((List.range 16).filter fun c => bit mask.toNat c)) b
      let s := modLsh s fun l => { l with lost := fset l.lost b false }
      (restDeficits (liftHalt (modBerth s b fun q => { q with pos := nextIndex }) b false), .ok [])

/-! ### Recompute segments, census totals, stream mode -/

/-- A segment keeps R120: host opcodes, the last one writes the tensor, and every operand but the tensor as a result is allocated
with policy 0 or 1. -/
def segmentOk (s : State) (b : Nat) (h : Hdl) (ds : List (List Byte)) : Bool :=
  let k := okey (hBerth h) (hObj h)
  let plain (x : Hdl) : Bool := allocated s b x && (match objOf s x with
    | some o => o.policy < 2
    | none => false)
  allocated s b h
  && ds.all (fun d =>
    let o := parseOp d
    o.opcode ∈ [0x01, 0x02, 0x08, 0x09, 0x3F] && ((opHandles o).erase o.hd).all plain
      && (o.opcode = 0x3F || namesKey k o.hd || plain o.hd))
  && (match ds.getLast? with
    | some d => (parseOp d).opcode ≠ 0x3F && namesKey k (parseOp d).hd
    | none => false)

/-- RECOMPUTE_REG (0x0405). -/
def execRecomputeReg (h : EcpHdr) (handle : BitVec 48) (descs : List (List Byte)) (s : State) : Host.Outcome State Fault Refusal :=
  .next <| ecpRun s h 0x0405 [] fun s =>
    let b := h.berth
    let used := (s.mem.objects.filter fun p => !p.2.segment.isEmpty && p.1 ≠ okey b (hObj handle)).length
    if descs.isEmpty || descs.length > 64 || fget s.mem.balance b then (s, .bad 0)
    else if !segmentOk s b handle descs then (s, .bad 0x01)
    else if used ≥ 1024 then (s, .bad 0x02)
    else (modObj s b (hObj handle) fun o => { o with segment := descs }, .ok [])

/-- CENSUS_READ (0x0406): sixteen 64-bit totals of each layer. -/
def execCensusRead (h : EcpHdr) (layer count : Nat) (s : State) : Host.Outcome State Fault Refusal :=
  .next <| ecpRun s h 0x0406 [] fun s =>
    if count = 0 || count > 64 || layer + count > 65536 then (s, .bad 0)
    else
      let one (l : Nat) : List Byte :=
        toBe 2 l ++ zeros 6 ++ ((mget s.num.totals (65536 * h.berth + l)).getD (List.replicate 16 0)).flatMap fun v => toBe 8 v.toNat
      (s, .ok ((rangeFrom layer count).flatMap one))

/-- STREAM_MODE (0x0407): only mode and pause of SHF_BERTH_CTLb. -/
def execStreamMode (h : EcpHdr) (mode pause : Nat) (s : State) : Host.Outcome State Fault Refusal :=
  .next <| ecpRun s h 0x0407 [] fun s =>
    if mode > 1 || pause > 1 then (s, .bad 0)
    else
      let s := wrs s [(SHF_BERTH_CTL_mode.at h.berth, mode), (SHF_BERTH_CTL_pause.at h.berth, pause)]
      (if pause = 0 then modUpd s fun u => { u with paused := fset u.paused h.berth false } else s, .ok [])

end Sys2Proof.Machine
end

