-- ==== Sys2Proof/Machine/Dispatch.lean ====
section
/-!
DEFINITION. One arm for each command: a direct call of its meaning.
-/
namespace Sys2Proof.Machine
open Sys2Proof

/-- The effect of a command on everything but the queue. -/
def exec (i : Instr) (s : State) : Host.Outcome State Fault Refusal :=
  match i with
  | .devInfo h => Sys2Proof.Machine.execDevInfo h s
  | .hello h major minor encapKey hostKey sig => Sys2Proof.Machine.execHello h major minor encapKey hostKey sig s
  | .berthClose h => Sys2Proof.Machine.execBerthClose h s
  | .rekey h encapKey => Sys2Proof.Machine.execRekey h encapKey s
  | .ping h => Sys2Proof.Machine.execPing h s
  | .eventAck h upTo => Sys2Proof.Machine.execEventAck h upTo s
  | .alloc h size tier policy => Sys2Proof.Machine.execAlloc h size tier policy s
  | .free h handle => Sys2Proof.Machine.execFree h handle s
  | .objectRelease berth object => Sys2Proof.Machine.execObjectRelease berth object s
  | .memConfig h t1 t2 t3 spill stageBalance => Sys2Proof.Machine.execMemConfig h t1 t2 t3 spill stageBalance s
  | .write h handle signal offset data => Sys2Proof.Machine.execWrite h handle signal offset data s
  | .read h handle offset length pace => Sys2Proof.Machine.execRead h handle offset length pace s
  | .code h source destination fmt => Sys2Proof.Machine.execCode h source destination fmt s
  | .decode h source destination => Sys2Proof.Machine.execDecode h source destination s
  | .signal h slot count => Sys2Proof.Machine.execSignal h slot count s
  | .submit h index descs => Sys2Proof.Machine.execSubmit h index descs s
  | .postColl h channel index descs => Sys2Proof.Machine.execPostColl h channel index descs s
  | .streamResume h mode => Sys2Proof.Machine.execStreamResume h mode s
  | .streamFlush h nextIndex mask => Sys2Proof.Machine.execStreamFlush h nextIndex mask s
  | .recomputeReg h handle descs => Sys2Proof.Machine.execRecomputeReg h handle descs s
  | .censusRead h layer count => Sys2Proof.Machine.execCensusRead h layer count s
  | .streamMode h mode pause => Sys2Proof.Machine.execStreamMode h mode pause s
  | .groupWrite h entry => Sys2Proof.Machine.execGroupWrite h entry s
  | .groupRelease h group => Sys2Proof.Machine.execGroupRelease h group s
  | .discover h tag sx sy sz => Sys2Proof.Machine.execDiscover h tag sx sy sz s
  | .templateClear h layer => Sys2Proof.Machine.execTemplateClear h layer s
  | .fslotAlloc h => Sys2Proof.Machine.execFslotAlloc h s
  | .fslotWrite h slot desc => Sys2Proof.Machine.execFslotWrite h slot desc s
  | .fslotRelease h slot => Sys2Proof.Machine.execFslotRelease h slot s
  | .solverWs h handle => Sys2Proof.Machine.execSolverWs h handle s
  | .shardWrite h shard desc => Sys2Proof.Machine.execShardWrite h shard desc s
  | .shardRelease h shard => Sys2Proof.Machine.execShardRelease h shard s
  | .stateLoad h shard step handle => Sys2Proof.Machine.execStateLoad h shard step handle s
  | .updWs h handle => Sys2Proof.Machine.execUpdWs h handle s
  | .progLoad h slot words => Sys2Proof.Machine.execProgLoad h slot words s
  | .schedWrite h channel desc => Sys2Proof.Machine.execSchedWrite h channel desc s
  | .stepSet h step => Sys2Proof.Machine.execStepSet h step s
  | .ofsOpen h p => Sys2Proof.Machine.execOfsOpen h p s
  | .ofsStream h stream shard => Sys2Proof.Machine.execOfsStream h stream shard s
  | .ofsSite h site add round donor => Sys2Proof.Machine.execOfsSite h site add round donor s
  | .ofsRekey h => Sys2Proof.Machine.execOfsRekey h s
  | .ofsClose h => Sys2Proof.Machine.execOfsClose h s
  | .regRead h offset count => Sys2Proof.Machine.execRegRead h offset count s
  | .regWrite h offset value => Sys2Proof.Machine.execRegWrite h offset value s
  | .mbxRead h source => Sys2Proof.Machine.execMbxRead h source s
  | .crashRead h offset length => Sys2Proof.Machine.execCrashRead h offset length s
  | .returnToService h tilesOk hbmOk ddrOk => Sys2Proof.Machine.execReturnToService h tilesOk hbmOk ddrOk s
  | .errlogRead h first => Sys2Proof.Machine.execErrlogRead h first s
  | .diag h test argument => Sys2Proof.Machine.execDiag h test argument s
  | .domainReset h domain => Sys2Proof.Machine.execDomainReset h domain s
  | .fwStage h offset data => Sys2Proof.Machine.execFwStage h offset data s
  | .fwActivate h image => Sys2Proof.Machine.execFwActivate h image s
  | .attest h nonce => Sys2Proof.Machine.execAttest h nonce s
  | .lifecycle h target token => Sys2Proof.Machine.execLifecycle h target token s
  | .pwrStatus h => Sys2Proof.Machine.execPwrStatus h s
  | .pwrCap h watts => Sys2Proof.Machine.execPwrCap h watts s
  | .ecpPacketInvalid iface udpLen packet => Sys2Proof.Machine.execEcpPacketInvalid iface udpLen packet s
  | .frameDiscard iface f => Sys2Proof.Machine.execFrameDiscard iface f s
  | .neighbourSolicitation iface target source sourceMac => Sys2Proof.Machine.execNeighbourSolicitation iface target source sourceMac s
  | .neighbourAdvertisement iface target mac => Sys2Proof.Machine.execNeighbourAdvertisement iface target mac s
  | .echoRequest iface target source body => Sys2Proof.Machine.execEchoRequest iface target source body s
  | .ptpMessage p => Sys2Proof.Machine.execPtpMessage p s
  | .ptpAnnounceTimeout => Sys2Proof.Machine.execPtpAnnounceTimeout s
  | .linkChange iface up => Sys2Proof.Machine.execLinkChange iface up s
  | .hostLinkDownTimeout port => Sys2Proof.Machine.execHostLinkDownTimeout port s
  | .leaseExpiry berth => Sys2Proof.Machine.execLeaseExpiry berth s
  | .eventResend berth => Sys2Proof.Machine.execEventResend berth s
  | .submitHoldTimeout berth seq => Sys2Proof.Machine.execSubmitHoldTimeout berth seq s
  | .opStart idle => Sys2Proof.Machine.execOpStart idle s
  | .opComplete stalls => Sys2Proof.Machine.execOpComplete stalls s
  | .triggerHoldRelease cycles => Sys2Proof.Machine.execTriggerHoldRelease cycles s
  | .enginePassComplete stalls => Sys2Proof.Machine.execEnginePassComplete stalls s
  | .updateStart berth => Sys2Proof.Machine.execUpdateStart berth s
  | .tileFault tile cause => Sys2Proof.Machine.execTileFault tile cause s
  | .waveWatchdogExpiry tile cycles => Sys2Proof.Machine.execWaveWatchdogExpiry tile cycles s
  | .tileStoreCe count => Sys2Proof.Machine.execTileStoreCe count s
  | .shfIssueEnWrite w => Sys2Proof.Machine.execShfIssueEnWrite w s
  | .shfCounterClear w => Sys2Proof.Machine.execShfCounterClear w s
  | .numDirtyPop berth w => Sys2Proof.Machine.execNumDirtyPop berth w s
  | .stepBoundary berth => Sys2Proof.Machine.execStepBoundary berth s
  | .shardFetch shard step requester => Sys2Proof.Machine.execShardFetch shard step requester s
  | .pagerMoveStart => Sys2Proof.Machine.execPagerMoveStart s
  | .pagerMoveComplete berth object page => Sys2Proof.Machine.execPagerMoveComplete berth object page s
  | .pageZeroComplete tier channel => Sys2Proof.Machine.execPageZeroComplete tier channel s
  | .memoryScrub tier unit corrected bad => Sys2Proof.Machine.execMemoryScrub tier unit corrected bad s
  | .errorWindowExpiry => Sys2Proof.Machine.execErrorWindowExpiry s
  | .ddrChannelLost channel => Sys2Proof.Machine.execDdrChannelLost channel s
  | .hbmStackFail stack => Sys2Proof.Machine.execHbmStackFail stack s
  | .portTrainingStep port ident => Sys2Proof.Machine.execPortTrainingStep port ident s
  | .trainingTimeout port => Sys2Proof.Machine.execTrainingTimeout port s
  | .portRetryTimer port => Sys2Proof.Machine.execPortRetryTimer port s
  | .latencyProbe port ps => Sys2Proof.Machine.execLatencyProbe port ps s
  | .flitReceive port flit held begun => Sys2Proof.Machine.execFlitReceive port flit held begun s
  | .replayTimerExpiry port waitedNs => Sys2Proof.Machine.execReplayTimerExpiry port waitedNs s
  | .portDown port state => Sys2Proof.Machine.execPortDown port state s
  | .portRetrainWrite port w => Sys2Proof.Machine.execPortRetrainWrite port w s
  | .portEnableClear port w => Sys2Proof.Machine.execPortEnableClear port w s
  | .cableRemoved port => Sys2Proof.Machine.execCableRemoved port s
  | .cableSupplyOvercurrent port milliamps => Sys2Proof.Machine.execCableSupplyOvercurrent port milliamps s
  | .assignReceive port x y z tag sx sy sz peerPort => Sys2Proof.Machine.execAssignReceive port x y z tag sx sy sz peerPort s
  | .reportReceive device => Sys2Proof.Machine.execReportReceive device s
  | .conflictReceive => Sys2Proof.Machine.execConflictReceive s
  | .walkTimeout => Sys2Proof.Machine.execWalkTimeout s
  | .tickFlitReceive port count residencePs edgeErr10ps => Sys2Proof.Machine.execTickFlitReceive port count residencePs edgeErr10ps s
  | .tickHoldover => Sys2Proof.Machine.execTickHoldover s
  | .triggerTake berth => Sys2Proof.Machine.execTriggerTake berth s
  | .collectiveStart berth channel => Sys2Proof.Machine.execCollectiveStart berth channel s
  | .collectiveComplete berth channel => Sys2Proof.Machine.execCollectiveComplete berth channel s
  | .collectiveDataReceive p => Sys2Proof.Machine.execCollectiveDataReceive p s
  | .collectiveAckReceive p => Sys2Proof.Machine.execCollectiveAckReceive p s
  | .collectiveReqReceive p => Sys2Proof.Machine.execCollectiveReqReceive p s
  | .collectiveTimeout berth channel => Sys2Proof.Machine.execCollectiveTimeout berth channel s
  | .closeWaveStart berth => Sys2Proof.Machine.execCloseWaveStart berth s
  | .flagReceive p => Sys2Proof.Machine.execFlagReceive p s
  | .closeWaveTimeout berth => Sys2Proof.Machine.execCloseWaveTimeout berth s
  | .countRound berth => Sys2Proof.Machine.execCountRound berth s
  | .countReceive p => Sys2Proof.Machine.execCountReceive p s
  | .shingleRequestComplete => Sys2Proof.Machine.execShingleRequestComplete s
  | .shingleSlotGrant => Sys2Proof.Machine.execShingleSlotGrant s
  | .seawallRequest p => Sys2Proof.Machine.execSeawallRequest p s
  | .seawallRequestComplete cls => Sys2Proof.Machine.execSeawallRequestComplete cls s
  | .keyLoad w => Sys2Proof.Machine.execKeyLoad w s
  | .keyLoadResume => Sys2Proof.Machine.execKeyLoadResume s
  | .keyRetire w => Sys2Proof.Machine.execKeyRetire w s
  | .keyErase w => Sys2Proof.Machine.execKeyErase w s
  | .seawallAlarm sensor => Sys2Proof.Machine.execSeawallAlarm sensor s
  | .alarmClear w firing => Sys2Proof.Machine.execAlarmClear w firing s
  | .entropyFail => Sys2Proof.Machine.execEntropyFail s
  | .entropyRecover => Sys2Proof.Machine.execEntropyRecover s
  | .entropyTimeout => Sys2Proof.Machine.execEntropyTimeout s
  | .offshoreWaitEnd berth => Sys2Proof.Machine.execOffshoreWaitEnd berth s
  | .offshoreWaitTimeout berth => Sys2Proof.Machine.execOffshoreWaitTimeout berth s
  | .ofsDataReceive p nowUs => Sys2Proof.Machine.execOfsDataReceive p nowUs s
  | .ofsSnapReceive p nowUs => Sys2Proof.Machine.execOfsSnapReceive p nowUs s
  | .ofsSackReceive p nowUs => Sys2Proof.Machine.execOfsSackReceive p nowUs s
  | .ofsSackSend berth peer nowUs => Sys2Proof.Machine.execOfsSackSend berth peer nowUs s
  | .ofsRtoExpiry berth peer nowUs => Sys2Proof.Machine.execOfsRtoExpiry berth peer nowUs s
  | .pacingRateStep berth peer nowUs => Sys2Proof.Machine.execPacingRateStep berth peer nowUs s
  | .ofsProbeSend berth peer nowUs => Sys2Proof.Machine.execOfsProbeSend berth peer nowUs s
  | .ofsProbeReceive p nowUs => Sys2Proof.Machine.execOfsProbeReceive p nowUs s
  | .routeDown berth peer route nowUs => Sys2Proof.Machine.execRouteDown berth peer route nowUs s
  | .peerLost berth peer => Sys2Proof.Machine.execPeerLost berth peer s
  | .keyInitReceive p nowUs => Sys2Proof.Machine.execKeyInitReceive p nowUs s
  | .keyRespReceive p nowUs => Sys2Proof.Machine.execKeyRespReceive p nowUs s
  | .keyInitResend berth peer nowUs => Sys2Proof.Machine.execKeyInitResend berth peer nowUs s
  | .handshakeTimeout berth peer nowUs => Sys2Proof.Machine.execHandshakeTimeout berth peer nowUs s
  | .handshakeRetry berth peer => Sys2Proof.Machine.execHandshakeRetry berth peer s
  | .registerWrite req offset value => Sys2Proof.Machine.execRegisterWrite req offset value s
  | .mbxSelWrite w => Sys2Proof.Machine.execMbxSelWrite w s
  | .mbxSnapshotReady req => Sys2Proof.Machine.execMbxSnapshotReady req s
  | .mbxD3Read req al => Sys2Proof.Machine.execMbxD3Read req al s
  | .mbxDiscard w => Sys2Proof.Machine.execMbxDiscard w s
  | .icuClaimRead req al => Sys2Proof.Machine.execIcuClaimRead req al s
  | .icfClaimRead req al => Sys2Proof.Machine.execIcfClaimRead req al s
  | .icuEoiWrite w => Sys2Proof.Machine.execIcuEoiWrite w s
  | .icfEoiWrite w => Sys2Proof.Machine.execIcfEoiWrite w s
  | .icuPendWrite n w => Sys2Proof.Machine.execIcuPendWrite n w s
  | .icuStormUnmask n w => Sys2Proof.Machine.execIcuStormUnmask n w s
  | .interruptSourceEvent source asserted => Sys2Proof.Machine.execInterruptSourceEvent source asserted s
  | .bcnWakeNow w => Sys2Proof.Machine.execBcnWakeNow w s
  | .bcnTimerExpiry => Sys2Proof.Machine.execBcnTimerExpiry s
  | .tidUsedRead req core al => Sys2Proof.Machine.execTidUsedRead req core al s
  | .tideTick t => Sys2Proof.Machine.execTideTick t s
  | .coreTickDone w used10ns => Sys2Proof.Machine.execCoreTickDone w used10ns s
  | .coreWatchdogExpiry core => Sys2Proof.Machine.execCoreWatchdogExpiry core s
  | .coreRestart w => Sys2Proof.Machine.execCoreRestart w s
  | .coreRestartFallback core => Sys2Proof.Machine.execCoreRestartFallback core s
  | .coreRestartDone core => Sys2Proof.Machine.execCoreRestartDone core s
  | .activationProceed => Sys2Proof.Machine.execActivationProceed s
  | .activationDeferTimeout => Sys2Proof.Machine.execActivationDeferTimeout s
  | .activationRestartFail => Sys2Proof.Machine.execActivationRestartFail s
  | .rollbackCounterRaise => Sys2Proof.Machine.execRollbackCounterRaise s
  | .supplySag32 => Sys2Proof.Machine.execSupplySag32 s
  | .supplySag30 => Sys2Proof.Machine.execSupplySag30 s
  | .supplySag27 => Sys2Proof.Machine.execSupplySag27 s
  | .orderlyStopReset => Sys2Proof.Machine.execOrderlyStopReset s
  | .supplyRecover vinMv => Sys2Proof.Machine.execSupplyRecover vinMv s
  | .nvWriteResume => Sys2Proof.Machine.execNvWriteResume s
  | .supplyRestore => Sys2Proof.Machine.execSupplyRestore s
  | .inputOvervoltage vinMv overMs => Sys2Proof.Machine.execInputOvervoltage vinMv overMs s
  | .overcurrent amps => Sys2Proof.Machine.execOvercurrent amps s
  | .brakeAssert => Sys2Proof.Machine.execBrakeAssert s
  | .brakeRelease => Sys2Proof.Machine.execBrakeRelease s
  | .clampRelease amps => Sys2Proof.Machine.execClampRelease amps s
  | .brakeReminder => Sys2Proof.Machine.execBrakeReminder s
  | .thermEmergencyClock => Sys2Proof.Machine.execThermEmergencyClock s
  | .thermClockReturn => Sys2Proof.Machine.execThermClockReturn s
  | .thermTrip hbm sensor celsius => Sys2Proof.Machine.execThermTrip hbm sensor celsius s
  | .tripResetRelease => Sys2Proof.Machine.execTripResetRelease s
  | .sleepEnter w => Sys2Proof.Machine.execSleepEnter w s
  | .sleepExit w => Sys2Proof.Machine.execSleepExit w s
  | .powerOnStage ok detail => Sys2Proof.Machine.execPowerOnStage ok detail s
  | .startupStepTimeout => Sys2Proof.Machine.execStartupStepTimeout s
  | .modResetAssert => Sys2Proof.Machine.execModResetAssert s
  | .modResetRelease => Sys2Proof.Machine.execModResetRelease s
  | .leakDetect => Sys2Proof.Machine.execLeakDetect s
  | .crystalFault => Sys2Proof.Machine.execCrystalFault s
  | .crystalRecover => Sys2Proof.Machine.execCrystalRecover s
  | .holdoverExpiry => Sys2Proof.Machine.execHoldoverExpiry s
  | .pllUnlock pll => Sys2Proof.Machine.execPllUnlock pll s
  | .rstReqGo w => Sys2Proof.Machine.execRstReqGo w s
  | .hangDetect domain => Sys2Proof.Machine.execHangDetect domain s
  | .domainQuiesceDone domain => Sys2Proof.Machine.execDomainQuiesceDone domain s
  | .crashRecordDone => Sys2Proof.Machine.execCrashRecordDone s
  | .domainResetRelease domain => Sys2Proof.Machine.execDomainResetRelease domain s
  | .domainReady domain => Sys2Proof.Machine.execDomainReady domain s
  | .recoveryWindowEnd domain => Sys2Proof.Machine.execRecoveryWindowEnd domain s
  | .deviceResetDelayed => Sys2Proof.Machine.execDeviceResetDelayed s
  | .rstLogAckWrite w => Sys2Proof.Machine.execRstLogAckWrite w s
  | .lifecycleErase => Sys2Proof.Machine.execLifecycleErase s
  | .admissionLoad w => Sys2Proof.Machine.execAdmissionLoad w s
  | .admissionClear w => Sys2Proof.Machine.execAdmissionClear w s
  | .ethIpLoad w => Sys2Proof.Machine.execEthIpLoad w s
  | .ethIpClear w => Sys2Proof.Machine.execEthIpClear w s
  | .flashRead w => Sys2Proof.Machine.execFlashRead w s
  | .flashProgram w => Sys2Proof.Machine.execFlashProgram w s
  | .flashErase w => Sys2Proof.Machine.execFlashErase w s
  | .flashOpDone deviceError => Sys2Proof.Machine.execFlashOpDone deviceError s
  | .mgtAttnWrite w => Sys2Proof.Machine.execMgtAttnWrite w s
  | .i3cSetPointer offset => Sys2Proof.Machine.execI3cSetPointer offset s
  | .i3cRegWrite offset value => Sys2Proof.Machine.execI3cRegWrite offset value s
  | .i3cRegRead n => Sys2Proof.Machine.execI3cRegRead n s
  | .entdaa address wins => Sys2Proof.Machine.execEntdaa address wins s
  | .rstdaa => Sys2Proof.Machine.execRstdaa s
  | .setnewda address => Sys2Proof.Machine.execSetnewda address s
  | .getpid => Sys2Proof.Machine.execGetpid s
  | .getbcr => Sys2Proof.Machine.execGetbcr s
  | .getdcr => Sys2Proof.Machine.execGetdcr s
  | .getstatus => Sys2Proof.Machine.execGetstatus s
  | .enec events => Sys2Proof.Machine.execEnec events s
  | .disec events => Sys2Proof.Machine.execDisec events s
  | .rstact action => Sys2Proof.Machine.execRstact action s
  | .jtagBypass => Sys2Proof.Machine.execJtagBypass s
  | .jtagIdcode => Sys2Proof.Machine.execJtagIdcode s
  | .jtagSamplePreload pins => Sys2Proof.Machine.execJtagSamplePreload pins s
  | .jtagExtest pins => Sys2Proof.Machine.execJtagExtest pins s
  | .jtagProvision => Sys2Proof.Machine.execJtagProvision s
  | .jtagDebugOpen token => Sys2Proof.Machine.execJtagDebugOpen token s
  | .aonPowerLoss => Sys2Proof.Machine.execAonPowerLoss s
  | .cableSeated port => Sys2Proof.Machine.execCableSeated port s
  | .unsupportedOpcode h opcode => Sys2Proof.Machine.execUnsupportedOpcode h opcode s
  | .ofsDataSend berth peer nowUs => Sys2Proof.Machine.execOfsDataSend berth peer nowUs s

end Sys2Proof.Machine
end

