-- ==== Sys2Proof/Safety.lean ====
section
/-!
DEFINITION. The words in which claims speak: the parts of the state and frames over them, canonical memory and registers, and what
it means that a command is admitted by Quay and answered.
-/
namespace Sys2Proof.Safety
open Sys2Proof Sys2Proof.Machine

/-! ### Frames -/

/-- The parts of the state: one for each field, with the stored bytes of memory apart from the rest of it. `life` looks at the life
cycle state alone: it stands, and a transition that waits (R554) has at most been dropped. -/
inductive Part where
  | pending | variant | free | tx | regs | counts | banks | icu | shelf | num | snd | slv | upd | mem | bytes | clf | lsh | shg
  | swl | ofs | quay | eth | lh | pwr | rst | sec | life | edge
  deriving DecidableEq, Repr

/-- A part is the same in two states. -/
def Part.same (s t : State) : Part → Prop
  | .pending => t.pending = s.pending
  | .variant => t.variant = s.variant
  | .free => t.free = s.free
  | .tx => t.tx = s.tx
  | .regs => t.regs = s.regs
  | .counts => t.counts = s.counts
  | .banks => t.banks = s.banks
  | .icu => t.icu = s.icu
  | .shelf => t.shelf = s.shelf
  | .num => t.num = s.num
  | .snd => t.snd = s.snd
  | .slv => t.slv = s.slv
  | .upd => t.upd = s.upd
  | .mem => { t.mem with bytes := s.mem.bytes } = s.mem
  | .bytes => t.mem.bytes = s.mem.bytes
  | .clf => t.clf = s.clf
  | .lsh => t.lsh = s.lsh
  | .shg => t.shg = s.shg
  | .swl => t.swl = s.swl
  | .ofs => t.ofs = s.ofs
  | .quay => t.quay = s.quay
  | .eth => t.eth = s.eth
  | .lh => t.lh = s.lh
  | .pwr => t.pwr = s.pwr
  | .rst => t.rst = s.rst
  | .sec => t.sec = s.sec
  | .life => t.sec.life = s.sec.life ∧ (t.sec.leaving = s.sec.leaving ∨ t.sec.leaving = none)
  | .edge => t.edge = s.edge

/-- Nothing outside the parts listed differs. -/
def Frame (ps : List Part) (s t : State) : Prop := ∀ p, p ∉ ps → p.same s t

/-- The parts that a command can change, in whatever state it is carried out; no command changes any other. -/
def footprint : Instr → List Part
  | .devInfo _ => [.free, .tx, .regs, .counts, .quay]
  | .hello _ _ _ _ _ _ => [.free, .tx, .regs, .counts, .swl, .quay, .eth]
  | .berthClose _ => [.free, .tx, .regs, .counts, .shelf, .num, .snd, .slv, .upd, .mem, .bytes, .clf, .lsh, .shg, .swl, .ofs, .quay]
  | .rekey _ _ => [.free, .tx, .regs, .counts, .swl, .quay]
  | .ping _ => [.free, .tx, .regs, .counts, .swl, .quay]
  | .eventAck _ _ => [.free, .tx, .regs, .counts, .swl, .quay]
  | .alloc _ _ _ _ => [.free, .tx, .regs, .counts, .mem, .swl, .quay]
  | .free _ _ => [.free, .tx, .regs, .counts, .mem, .swl, .quay]
  | .objectRelease _ _ => [.tx, .counts, .mem, .bytes, .quay]
  | .memConfig _ _ _ _ _ _ => [.free, .tx, .regs, .counts, .mem, .swl, .quay]
  | .write _ _ _ _ _ => [.free, .tx, .regs, .counts, .shelf, .mem, .bytes, .swl, .quay, .rst]
  | .read _ _ _ _ _ => [.free, .tx, .regs, .counts, .mem, .swl, .quay, .rst]
  | .code _ _ _ _ => [.free, .tx, .regs, .counts, .mem, .shg, .swl, .quay]
  | .decode _ _ _ => [.free, .tx, .regs, .counts, .mem, .shg, .swl, .quay]
  | .signal _ _ _ => [.free, .tx, .regs, .counts, .shelf, .swl, .quay]
  | .submit _ _ _ => [.free, .tx, .regs, .counts, .shelf, .mem, .lsh, .swl, .quay]
  | .postColl _ _ _ _ => [.free, .tx, .regs, .counts, .shelf, .mem, .lsh, .swl, .quay]
  | .streamResume _ _ => [.free, .tx, .regs, .counts, .shelf, .mem, .clf, .lsh, .swl, .quay]
  | .streamFlush _ _ _ => [.free, .tx, .regs, .counts, .shelf, .snd, .upd, .mem, .bytes, .clf, .lsh, .swl, .quay, .rst]
  | .recomputeReg _ _ _ => [.free, .tx, .regs, .counts, .mem, .swl, .quay]
  | .censusRead _ _ _ => [.free, .tx, .regs, .counts, .swl, .quay]
  | .streamMode _ _ _ => [.free, .tx, .regs, .counts, .upd, .swl, .quay]
  | .groupWrite _ _ => [.free, .tx, .regs, .counts, .mem, .lsh, .swl, .quay, .rst]
  | .groupRelease _ _ => [.free, .tx, .regs, .counts, .lsh, .swl, .quay]
  | .discover _ _ _ _ _ => [.free, .tx, .regs, .counts, .clf, .swl, .quay]
  | .templateClear _ _ => [.free, .tx, .regs, .counts, .lsh, .swl, .quay]
  | .fslotAlloc _ => [.free, .tx, .regs, .counts, .snd, .swl, .quay]
  | .fslotWrite _ _ _ => [.free, .tx, .regs, .counts, .snd, .mem, .bytes, .swl, .quay, .rst]
  | .fslotRelease _ _ => [.free, .tx, .regs, .counts, .snd, .swl, .quay]
  | .solverWs _ _ => [.free, .tx, .regs, .counts, .slv, .swl, .quay]
  | .shardWrite _ _ _ => [.free, .tx, .regs, .counts, .upd, .swl, .quay]
  | .shardRelease _ _ => [.free, .tx, .regs, .counts, .upd, .swl, .quay]
  | .stateLoad _ _ _ _ => [.free, .tx, .regs, .counts, .upd, .mem, .bytes, .swl, .quay, .rst]
  | .updWs _ _ => [.free, .tx, .regs, .counts, .upd, .swl, .quay]
  | .progLoad _ _ _ => [.free, .tx, .regs, .counts, .upd, .swl, .quay]
  | .schedWrite _ _ _ => [.free, .tx, .regs, .counts, .upd, .swl, .quay]
  | .stepSet _ _ => [.free, .tx, .regs, .counts, .upd, .swl, .quay]
  | .ofsOpen _ _ => [.free, .tx, .regs, .counts, .mem, .swl, .ofs, .quay]
  | .ofsStream _ _ _ => [.free, .tx, .regs, .counts, .mem, .bytes, .shg, .swl, .ofs, .quay, .rst]
  | .ofsSite _ _ _ _ _ => [.free, .tx, .regs, .counts, .swl, .ofs, .quay]
  | .ofsRekey _ => [.free, .tx, .regs, .counts, .swl, .ofs, .quay]
  | .ofsClose _ => [.free, .tx, .regs, .counts, .shelf, .snd, .slv, .upd, .mem, .bytes, .lsh, .shg, .swl, .ofs, .quay, .rst]
  | .regRead _ _ _ => [.free, .tx, .regs, .counts, .banks, .icu, .swl, .quay, .lh]
  | .regWrite _ _ _ => [.free, .tx, .regs, .counts, .banks, .icu, .shelf, .num, .snd, .slv, .upd, .mem, .bytes,
      .clf, .lsh, .shg, .swl, .ofs, .quay, .eth, .lh, .pwr, .rst, .sec, .edge]
  | .mbxRead _ _ => [.free, .tx, .regs, .counts, .banks, .num, .swl, .quay]
  | .crashRead _ _ _ => [.free, .tx, .regs, .counts, .swl, .quay]
  | .returnToService _ _ _ _ => [.free, .tx, .regs, .counts, .swl, .quay, .rst]
  | .errlogRead _ _ => [.free, .tx, .regs, .counts, .swl, .quay]
  | .diag _ _ _ => [.free, .tx, .regs, .counts, .swl, .quay]
  | .domainReset _ _ => [.free, .tx, .regs, .counts, .swl, .quay, .rst]
  | .fwStage _ _ _ => [.free, .tx, .regs, .counts, .swl, .quay, .sec, .edge]
  | .fwActivate _ _ => [.free, .tx, .regs, .counts, .banks, .icu, .clf, .swl, .quay, .lh, .pwr, .rst, .sec]
  | .attest _ _ => [.free, .tx, .regs, .counts, .swl, .quay]
  | .lifecycle _ _ _ => [.free, .tx, .regs, .counts, .swl, .quay, .sec, .life]
  | .pwrStatus _ => [.free, .tx, .regs, .counts, .swl, .quay, .lh]
  | .pwrCap _ _ => [.free, .tx, .regs, .counts, .swl, .quay, .lh]
  | .ecpPacketInvalid _ _ _ => [.counts, .quay]
  | .frameDiscard _ _ => [.counts]
  | .neighbourSolicitation _ _ _ _ => [.tx, .counts, .eth]
  | .neighbourAdvertisement _ _ _ => [.counts, .eth]
  | .echoRequest _ _ _ _ => [.tx, .counts]
  | .ptpMessage _ => [.regs, .eth, .lh]
  | .ptpAnnounceTimeout => [.regs, .eth]
  | .linkChange _ _ => [.regs, .eth]
  | .hostLinkDownTimeout _ => [.tx, .regs, .counts, .quay]
  | .leaseExpiry _ => [.regs, .swl, .quay]
  | .eventResend _ => [.tx, .counts, .quay]
  | .submitHoldTimeout _ _ => [.tx, .regs, .counts, .quay]
  | .opStart _ => [.free, .tx, .regs, .counts, .shelf, .snd, .upd, .mem, .bytes, .lsh, .quay, .rst]
  | .opComplete _ => [.free, .tx, .regs, .counts, .shelf, .num, .snd, .slv, .upd, .mem, .bytes, .lsh, .shg, .swl, .ofs, .quay, .rst]
  | .triggerHoldRelease _ => [.tx, .regs, .counts, .shelf, .num, .snd, .slv, .upd, .mem, .bytes, .lsh, .shg, .swl, .ofs, .quay]
  | .enginePassComplete _ => [.free, .tx, .regs, .counts, .shelf, .num, .snd, .slv, .upd, .mem, .bytes, .lsh, .shg,
      .swl, .ofs, .quay, .rst]
  | .updateStart _ => [.free, .tx, .regs, .counts, .shelf, .upd, .mem, .bytes, .quay, .rst]
  | .tileFault _ _ => [.tx, .regs, .counts, .shelf, .mem, .lsh, .quay, .rst]
  | .waveWatchdogExpiry _ _ => [.tx, .regs, .counts, .shelf, .mem, .lsh, .quay, .rst]
  | .tileStoreCe _ => [.tx, .regs, .counts, .quay, .rst]
  | .shfIssueEnWrite _ => [.regs]
  | .shfCounterClear _ => [.free, .regs, .shelf]
  | .numDirtyPop _ _ => [.num]
  | .stepBoundary _ => [.free, .tx, .regs, .counts, .shelf, .snd, .slv, .upd, .mem, .bytes, .lsh, .shg, .ofs, .quay, .rst]
  | .shardFetch _ _ _ => [.free, .tx, .regs, .counts, .upd, .mem, .quay, .rst]
  | .pagerMoveStart => [.tx, .regs, .counts, .shelf, .mem, .bytes, .quay]
  | .pagerMoveComplete _ _ _ => [.free, .tx, .regs, .counts, .upd, .mem, .bytes, .quay, .rst]
  | .pageZeroComplete _ _ => [.tx, .counts, .mem, .quay]
  | .memoryScrub _ _ _ _ => [.free, .tx, .regs, .counts, .mem, .quay, .rst]
  | .errorWindowExpiry => [.regs, .mem, .clf]
  | .ddrChannelLost _ => [.tx, .regs, .counts, .mem, .quay]
  | .hbmStackFail _ => [.tx, .regs, .counts, .shelf, .mem, .lsh, .quay, .rst]
  | .portTrainingStep _ _ => [.free, .tx, .regs, .counts, .clf, .quay, .rst]
  | .trainingTimeout _ => [.tx, .regs, .counts, .clf, .quay, .rst]
  | .portRetryTimer _ => [.regs, .clf]
  | .latencyProbe _ _ => [.regs]
  | .flitReceive _ _ _ _ => [.tx, .regs, .counts, .clf, .quay, .rst]
  | .replayTimerExpiry _ _ => [.tx, .regs, .counts, .clf]
  | .portDown _ _ => [.tx, .regs, .counts, .clf, .quay, .rst]
  | .portRetrainWrite _ _ => [.tx, .regs, .counts, .clf, .quay, .rst]
  | .portEnableClear _ _ => [.tx, .regs, .counts, .clf, .quay, .rst]
  | .cableRemoved _ => [.tx, .regs, .counts, .clf, .quay, .rst]
  | .cableSupplyOvercurrent _ _ => [.clf]
  | .assignReceive _ _ _ _ _ _ _ _ _ => [.tx, .regs, .counts, .clf, .quay, .rst]
  | .reportReceive _ => [.tx, .regs, .counts, .clf, .quay]
  | .conflictReceive => [.tx, .regs, .counts, .clf, .quay]
  | .walkTimeout => [.tx, .regs, .counts, .clf, .quay]
  | .tickFlitReceive _ _ _ _ => [.regs, .clf, .lh]
  | .tickHoldover => [.regs, .clf]
  | .triggerTake _ => [.shelf, .lsh]
  | .collectiveStart _ _ => [.free, .tx, .regs, .counts, .mem, .bytes, .clf, .lsh, .quay, .rst]
  | .collectiveComplete _ _ => [.free, .tx, .regs, .counts, .shelf, .snd, .slv, .upd, .mem, .bytes, .clf, .lsh, .quay, .rst]
  | .collectiveDataReceive _ => [.free, .tx, .regs, .counts, .mem, .bytes, .clf, .lsh, .quay, .rst]
  | .collectiveAckReceive _ => [.tx, .regs, .counts, .clf, .lsh]
  | .collectiveReqReceive _ => [.free, .tx, .regs, .counts, .shelf, .mem, .clf, .lsh, .quay, .rst]
  | .collectiveTimeout _ _ => [.tx, .regs, .counts, .shelf, .clf, .lsh, .quay]
  | .closeWaveStart _ => [.tx, .regs, .counts, .clf, .lsh]
  | .flagReceive _ => [.tx, .regs, .counts, .clf, .lsh]
  | .closeWaveTimeout _ => [.tx, .regs, .counts, .shelf, .lsh, .quay]
  | .countRound _ => [.free, .tx, .regs, .counts, .shelf, .mem, .bytes, .clf, .lsh, .quay, .rst]
  | .countReceive _ => [.free, .tx, .regs, .counts, .shelf, .mem, .bytes, .clf, .lsh, .quay, .rst]
  | .shingleRequestComplete => [.free, .tx, .regs, .counts, .mem, .bytes, .shg, .quay, .rst]
  | .shingleSlotGrant => [.free, .tx, .regs, .counts, .shelf, .snd, .slv, .upd, .mem, .bytes, .lsh, .shg, .swl, .ofs, .quay, .rst]
  | .seawallRequest _ => [.tx, .regs, .counts, .swl, .ofs, .quay]
  | .seawallRequestComplete _ => [.regs, .counts, .swl]
  | .keyLoad _ => [.regs, .swl]
  | .keyLoadResume => [.regs, .swl]
  | .keyRetire _ => [.regs, .swl]
  | .keyErase _ => [.regs, .swl]
  | .seawallAlarm _ => [.regs, .counts, .swl]
  | .alarmClear _ _ => [.free, .tx, .regs, .counts, .ofs]
  | .entropyFail => [.regs, .swl]
  | .entropyRecover => [.swl]
  | .entropyTimeout => [.regs, .swl]
  | .offshoreWaitEnd _ => [.free, .tx, .regs, .counts, .shelf, .snd, .slv, .upd, .mem, .bytes, .lsh, .shg, .swl, .ofs, .quay, .rst]
  | .offshoreWaitTimeout _ => [.free, .tx, .regs, .counts, .shelf, .snd, .slv, .upd, .mem, .bytes, .lsh, .shg, .swl, .ofs, .quay, .rst]
  | .ofsDataReceive _ _ => [.free, .tx, .regs, .counts, .shg, .swl, .ofs, .quay]
  | .ofsSnapReceive _ _ => [.free, .tx, .regs, .counts, .upd, .mem, .bytes, .shg, .swl, .ofs, .quay]
  | .ofsSackReceive _ _ => [.free, .tx, .regs, .counts, .shelf, .snd, .slv, .upd, .mem, .bytes, .lsh, .shg, .swl, .ofs, .quay, .rst]
  | .ofsSackSend _ _ _ => [.tx, .regs, .counts, .swl, .ofs, .quay]
  | .ofsRtoExpiry _ _ _ => [.tx, .counts, .ofs]
  | .pacingRateStep _ _ _ => [.ofs]
  | .ofsProbeSend _ _ _ => [.tx, .regs, .counts, .swl, .ofs, .quay]
  | .ofsProbeReceive _ _ => [.free, .tx, .regs, .counts, .swl, .ofs]
  | .routeDown _ _ _ _ => [.tx, .regs, .counts, .ofs]
  | .peerLost _ _ => [.free, .tx, .regs, .counts, .shelf, .snd, .slv, .upd, .mem, .bytes, .lsh, .shg, .swl, .ofs, .quay, .rst]
  | .keyInitReceive _ _ => [.free, .tx, .regs, .counts, .shg, .swl, .ofs]
  | .keyRespReceive _ _ => [.regs, .counts, .shg, .swl, .ofs]
  | .keyInitResend _ _ _ => [.tx, .counts, .ofs]
  | .handshakeTimeout _ _ _ => [.regs, .ofs]
  | .handshakeRetry _ _ => [.free, .tx, .counts, .ofs]
  | .registerWrite _ _ _ => [.free, .tx, .regs, .counts, .banks, .icu, .shelf, .num, .snd, .slv, .upd, .mem, .bytes,
      .clf, .lsh, .shg, .swl, .ofs, .quay, .eth, .lh, .pwr, .rst, .sec, .edge]
  | .mbxSelWrite _ => [.banks, .num]
  | .mbxSnapshotReady _ => [.banks]
  | .mbxD3Read _ _ => [.tx, .counts, .banks]
  | .mbxDiscard _ => [.banks]
  | .icuClaimRead _ _ => [.tx, .counts, .icu]
  | .icfClaimRead _ _ => [.tx, .counts, .icu]
  | .icuEoiWrite _ => [.regs, .counts, .icu, .pwr, .rst]
  | .icfEoiWrite _ => [.regs, .counts, .icu, .pwr, .rst]
  | .icuPendWrite _ _ => [.regs, .counts, .icu, .pwr, .rst]
  | .icuStormUnmask _ _ => [.regs, .counts, .icu, .pwr, .rst]
  | .interruptSourceEvent _ _ => [.regs, .counts, .icu, .pwr, .rst]
  | .bcnWakeNow _ => [.regs, .counts, .icu, .pwr]
  | .bcnTimerExpiry => [.regs, .counts, .icu, .pwr]
  | .tidUsedRead _ _ _ => [.tx, .counts, .lh]
  | .tideTick _ => [.free, .tx, .regs, .counts, .banks, .icu, .num, .clf, .ofs, .quay, .eth, .lh, .pwr, .rst, .sec]
  | .coreTickDone _ _ => [.lh]
  | .coreWatchdogExpiry _ => [.regs, .counts, .icu, .lh, .pwr, .rst]
  | .coreRestart _ => [.regs, .counts, .banks, .icu, .clf, .lh, .pwr, .rst]
  | .coreRestartFallback _ => [.regs, .counts, .banks, .icu, .clf, .lh, .pwr, .rst]
  | .coreRestartDone _ => [.free, .tx, .regs, .counts, .banks, .icu, .shelf, .num, .snd, .slv, .upd, .mem, .bytes,
      .clf, .lsh, .shg, .swl, .ofs, .quay, .lh, .pwr, .rst, .sec]
  | .activationProceed => [.regs, .counts, .banks, .icu, .clf, .lh, .pwr, .rst, .sec]
  | .activationDeferTimeout => [.tx, .counts, .quay, .lh]
  | .activationRestartFail => [.tx, .regs, .counts, .banks, .icu, .clf, .quay, .lh, .pwr, .rst, .sec]
  | .rollbackCounterRaise => [.regs, .sec]
  | .supplySag32 => [.pwr]
  | .supplySag30 => [.tx, .regs, .counts, .quay, .pwr]
  | .supplySag27 => [.tx, .regs, .counts, .icu, .quay, .pwr]
  | .orderlyStopReset => [.regs, .counts, .banks, .icu, .shelf, .num, .snd, .slv, .upd, .mem, .bytes, .clf, .lsh,
      .shg, .swl, .ofs, .quay, .eth, .lh, .pwr, .rst, .sec, .edge]
  | .supplyRecover _ => [.pwr]
  | .nvWriteResume => [.pwr, .rst, .sec]
  | .supplyRestore => [.regs, .pwr, .rst]
  | .inputOvervoltage _ _ => [.tx, .regs, .counts, .quay, .pwr, .rst]
  | .overcurrent _ => [.tx, .regs, .counts, .icu, .quay, .pwr]
  | .brakeAssert => [.tx, .regs, .counts, .quay, .pwr]
  | .brakeRelease => [.pwr]
  | .clampRelease _ => [.regs, .pwr]
  | .brakeReminder => [.tx, .regs, .counts, .quay, .pwr]
  | .thermEmergencyClock => [.tx, .regs, .counts, .quay, .pwr]
  | .thermClockReturn => [.tx, .regs, .counts, .quay, .pwr]
  | .thermTrip _ _ _ => [.tx, .regs, .counts, .icu, .quay, .pwr, .rst]
  | .tripResetRelease => [.regs, .pwr, .rst]
  | .sleepEnter _ => [.regs, .clf, .eth, .pwr]
  | .sleepExit _ => [.regs, .clf, .eth, .pwr]
  | .powerOnStage _ _ => [.free, .tx, .regs, .counts, .shelf, .mem, .lsh, .quay, .lh, .rst, .sec, .edge]
  | .startupStepTimeout => [.tx, .regs, .counts, .rst]
  | .modResetAssert => [.regs, .counts, .banks, .icu, .shelf, .num, .snd, .slv, .upd, .mem, .bytes, .clf, .lsh,
      .shg, .swl, .ofs, .quay, .eth, .lh, .pwr, .rst, .sec, .edge]
  | .modResetRelease => [.regs, .rst]
  | .leakDetect => [.tx, .regs, .counts, .edge]
  | .crystalFault => [.tx, .regs, .counts, .quay, .rst]
  | .crystalRecover => [.regs, .rst]
  | .holdoverExpiry => [.tx, .regs, .counts, .quay, .rst]
  | .pllUnlock _ => [.regs, .counts, .rst]
  | .rstReqGo _ => [.regs, .lh, .rst]
  | .hangDetect _ => [.regs, .rst]
  | .domainQuiesceDone _ => [.free, .tx, .regs, .counts, .banks, .icu, .shelf, .num, .snd, .slv, .upd, .mem, .bytes,
      .clf, .lsh, .shg, .swl, .ofs, .quay, .eth, .lh, .pwr, .rst, .sec, .edge]
  | .crashRecordDone => [.free, .tx, .regs, .counts, .banks, .icu, .shelf, .num, .snd, .slv, .upd, .mem, .bytes,
      .clf, .lsh, .shg, .swl, .ofs, .quay, .eth, .lh, .pwr, .rst, .sec, .edge]
  | .domainResetRelease _ => [.regs, .rst]
  | .domainReady _ => [.free, .tx, .regs, .counts, .shelf, .snd, .slv, .upd, .mem, .bytes, .clf, .lsh, .shg, .swl, .ofs, .quay, .lh, .rst]
  | .recoveryWindowEnd _ => [.rst]
  | .deviceResetDelayed => [.regs, .rst]
  | .rstLogAckWrite _ => [.regs, .rst]
  | .lifecycleErase => [.tx, .regs, .counts, .shelf, .num, .snd, .slv, .upd, .mem, .bytes, .clf, .lsh, .shg,
      .swl, .ofs, .quay, .rst, .sec, .life]
  | .admissionLoad _ => [.tx, .regs, .counts, .shelf, .num, .snd, .slv, .upd, .mem, .bytes, .clf, .lsh, .shg, .swl, .ofs, .quay]
  | .admissionClear _ => [.tx, .regs, .counts, .shelf, .num, .snd, .slv, .upd, .mem, .bytes, .clf, .lsh, .shg, .swl, .ofs, .quay]
  | .ethIpLoad _ => [.eth]
  | .ethIpClear _ => [.eth]
  | .flashRead _ => [.regs, .edge]
  | .flashProgram _ => [.regs, .edge]
  | .flashErase _ => [.regs, .edge]
  | .flashOpDone _ => [.free, .tx, .regs, .counts, .sec, .edge]
  | .mgtAttnWrite _ => [.regs, .counts, .icu, .pwr]
  | .i3cSetPointer _ => [.counts, .edge]
  | .i3cRegWrite _ _ => [.free, .tx, .regs, .counts, .banks, .icu, .shelf, .num, .snd, .slv, .upd, .mem, .bytes,
      .clf, .lsh, .shg, .swl, .ofs, .quay, .eth, .lh, .pwr, .rst, .sec, .edge]
  | .i3cRegRead _ => [.tx, .regs, .counts, .banks, .icu, .lh, .edge]
  | .entdaa _ _ => [.tx, .regs, .counts]
  | .rstdaa => [.regs]
  | .setnewda _ => [.regs, .counts]
  | .getpid => [.tx, .counts]
  | .getbcr => [.tx, .counts]
  | .getdcr => [.tx, .counts]
  | .getstatus => [.free, .tx, .counts]
  | .enec _ => [.regs]
  | .disec _ => [.regs]
  | .rstact _ => [.edge]
  | .jtagBypass => [.tx, .counts, .edge]
  | .jtagIdcode => [.tx, .counts, .edge]
  | .jtagSamplePreload _ => [.tx, .counts, .edge]
  | .jtagExtest _ => [.tx, .counts, .edge]
  | .jtagProvision => [.regs, .sec, .life]
  | .jtagDebugOpen _ => [.free, .regs, .counts, .sec, .life]
  | .aonPowerLoss => [.regs, .counts, .banks, .icu, .shelf, .num, .snd, .slv, .upd, .mem, .bytes, .clf, .lsh,
      .shg, .swl, .ofs, .quay, .eth, .lh, .pwr, .rst, .sec, .edge]
  | .cableSeated _ => [.regs, .clf]
  | .unsupportedOpcode _ _ => [.free, .tx, .regs, .counts, .swl, .quay]
  | .ofsDataSend _ _ _ => [.tx, .regs, .counts, .swl, .ofs, .quay]

/-! ### Canonical memory and registers -/

/-- The listed CRS words: keys strictly rising, and no word that equals its register's reset value. -/
def regsOk (v : Variant) : NMap W32 → Bool
  | [] => true
  | [(k, w)] => w ≠ resetWord v k
  | (k, w) :: (l, x) :: m => w ≠ resetWord v k && k < l && regsOk v ((l, x) :: m)

/-- The state lists stored bytes and stored CRS words in their one canonical form, so that equal contents are equal data. -/
def Canonical (s : State) : Prop := s.mem.wf = true ∧ regsOk s.variant s.regs = true

/-! ### The life cycle (R549, R550, R554, R555) -/

/-- The life-cycle code is one of R549, and a transition that erases first is one of R550: it waits for its erasure or has just made it. -/
def lifeOk (s : State) : Prop :=
  match s.sec.leaving with
  | none => s.sec.life ≤ 4
  | some (l, _) => (2 ≤ s.sec.life ∧ s.sec.life ≤ 3 ∧ l = 3) ∨ (1 ≤ s.sec.life ∧ s.sec.life ≤ 4 ∧ l = 4)

/-- The transitions of R550 that change the state. -/
def lifeArcs : List (Nat × Nat) := [(0, 1), (1, 2), (2, 3), (3, 2), (1, 4), (2, 4), (3, 4)]

/-! ### Commands of a host (R393–R412) -/

/-- The state in which an accepted command is carried out: its frame is counted, its berth notes the address and the time, and a first
command under a new key epoch has retired the old key slot (R407, R425, R429). -/
def arrive (s : State) (h : EcpHdr) : State := noteCommand (frameIn s h.iface) h

/-- Quay accepts the command's packet: steps 2 to 8 of R409 pass and its sequence is new to the window of R410. -/
def accepted (s : State) (h : EcpHdr) : Bool :=
  h.iface < 4 && intakeUp s h.iface && h.version = 1 && h.berth < 4 && s.sec.life ≠ 4 && h.epoch = s.sec.epoch.toNat
    && (berthOf s h.berth).state = 1 && authOk s (berthOf s h.berth) h && seqView (berthOf s h.berth) h.seq = .fresh

/-- Quay admits the command: its packet is accepted and steps 9 to 14 of R409 pass. -/
def admitted (s : State) (h : EcpHdr) (op : Nat) (cores : List Nat) : Bool := accepted s h && (intakeCheck s h op cores).isNone

/-- The command of an authenticated berth that a host sends: its header, its opcode (R420) and, beside the core of its berth, the cores
that it is forwarded to (R413). DEV_INFO, HELLO and undefined opcodes have ways of their own. -/
def hostCommand : Instr → Option (EcpHdr × Nat × List Nat)
  | .devInfo _ => none
  | .hello _ _ _ _ _ _ => none
  | .berthClose h => some (h, 0x0202, [])
  | .rekey h _ => some (h, 0x0203, [1])
  | .ping h => some (h, 0x0204, [])
  | .eventAck h _ => some (h, 0x0205, [])
  | .alloc h _ _ _ => some (h, 0x0301, [])
  | .free h _ => some (h, 0x0302, [])
  | .objectRelease _ _ => none
  | .memConfig h _ _ _ _ _ => some (h, 0x0303, [])
  | .write h _ _ _ _ => some (h, 0x0304, [])
  | .read h _ _ _ _ => some (h, 0x0305, [])
  | .code h _ _ _ => some (h, 0x0306, [])
  | .decode h _ _ => some (h, 0x0307, [])
  | .signal h _ _ => some (h, 0x0308, [])
  | .submit h _ _ => some (h, 0x0401, [])
  | .postColl h _ _ _ => some (h, 0x0402, [])
  | .streamResume h _ => some (h, 0x0403, [])
  | .streamFlush h _ _ => some (h, 0x0404, [])
  | .recomputeReg h _ _ => some (h, 0x0405, [])
  | .censusRead h _ _ => some (h, 0x0406, [])
  | .streamMode h _ _ => some (h, 0x0407, [])
  | .groupWrite h _ => some (h, 0x0501, [])
  | .groupRelease h _ => some (h, 0x0502, [])
  | .discover h _ _ _ _ => some (h, 0x0503, [7])
  | .templateClear h _ => some (h, 0x0504, [])
  | .fslotAlloc h => some (h, 0x0601, [])
  | .fslotWrite h _ _ => some (h, 0x0602, [])
  | .fslotRelease h _ => some (h, 0x0603, [])
  | .solverWs h _ => some (h, 0x0604, [])
  | .shardWrite h _ _ => some (h, 0x0605, [])
  | .shardRelease h _ => some (h, 0x0606, [])
  | .stateLoad h _ _ _ => some (h, 0x0607, [])
  | .updWs h _ => some (h, 0x0608, [])
  | .progLoad h _ _ => some (h, 0x0609, [])
  | .schedWrite h _ _ => some (h, 0x060A, [])
  | .stepSet h _ => some (h, 0x060B, [])
  | .ofsOpen h _ => some (h, 0x0701, [7])
  | .ofsStream h _ _ => some (h, 0x0702, [7])
  | .ofsSite h _ _ _ _ => some (h, 0x0703, [7])
  | .ofsRekey h => some (h, 0x0704, [7])
  | .ofsClose h => some (h, 0x0705, [7])
  | .regRead h _ _ => some (h, 0x0801, [])
  | .regWrite h _ _ => some (h, 0x0802, [])
  | .mbxRead h _ => some (h, 0x0803, [])
  | .crashRead h _ _ => some (h, 0x0901, [6])
  | .returnToService h _ _ _ => some (h, 0x0902, [6])
  | .errlogRead h _ => some (h, 0x0903, [6])
  | .diag h _ _ => some (h, 0x0904, [6])
  | .domainReset h _ => some (h, 0x0905, [6])
  | .fwStage h _ _ => some (h, 0x0A01, [1])
  | .fwActivate h _ => some (h, 0x0A02, [1])
  | .attest h _ => some (h, 0x0A03, [1])
  | .lifecycle h _ _ => some (h, 0x0A04, [1])
  | .pwrStatus h => some (h, 0x0B01, [0])
  | .pwrCap h _ => some (h, 0x0B02, [0])
  | .ecpPacketInvalid _ _ _ => none
  | .frameDiscard _ _ => none
  | .neighbourSolicitation _ _ _ _ => none
  | .neighbourAdvertisement _ _ _ => none
  | .echoRequest _ _ _ _ => none
  | .ptpMessage _ => none
  | .ptpAnnounceTimeout => none
  | .linkChange _ _ => none
  | .hostLinkDownTimeout _ => none
  | .leaseExpiry _ => none
  | .eventResend _ => none
  | .submitHoldTimeout _ _ => none
  | .opStart _ => none
  | .opComplete _ => none
  | .triggerHoldRelease _ => none
  | .enginePassComplete _ => none
  | .updateStart _ => none
  | .tileFault _ _ => none
  | .waveWatchdogExpiry _ _ => none
  | .tileStoreCe _ => none
  | .shfIssueEnWrite _ => none
  | .shfCounterClear _ => none
  | .numDirtyPop _ _ => none
  | .stepBoundary _ => none
  | .shardFetch _ _ _ => none
  | .pagerMoveStart => none
  | .pagerMoveComplete _ _ _ => none
  | .pageZeroComplete _ _ => none
  | .memoryScrub _ _ _ _ => none
  | .errorWindowExpiry => none
  | .ddrChannelLost _ => none
  | .hbmStackFail _ => none
  | .portTrainingStep _ _ => none
  | .trainingTimeout _ => none
  | .portRetryTimer _ => none
  | .latencyProbe _ _ => none
  | .flitReceive _ _ _ _ => none
  | .replayTimerExpiry _ _ => none
  | .portDown _ _ => none
  | .portRetrainWrite _ _ => none
  | .portEnableClear _ _ => none
  | .cableRemoved _ => none
  | .cableSupplyOvercurrent _ _ => none
  | .assignReceive _ _ _ _ _ _ _ _ _ => none
  | .reportReceive _ => none
  | .conflictReceive => none
  | .walkTimeout => none
  | .tickFlitReceive _ _ _ _ => none
  | .tickHoldover => none
  | .triggerTake _ => none
  | .collectiveStart _ _ => none
  | .collectiveComplete _ _ => none
  | .collectiveDataReceive _ => none
  | .collectiveAckReceive _ => none
  | .collectiveReqReceive _ => none
  | .collectiveTimeout _ _ => none
  | .closeWaveStart _ => none
  | .flagReceive _ => none
  | .closeWaveTimeout _ => none
  | .countRound _ => none
  | .countReceive _ => none
  | .shingleRequestComplete => none
  | .shingleSlotGrant => none
  | .seawallRequest _ => none
  | .seawallRequestComplete _ => none
  | .keyLoad _ => none
  | .keyLoadResume => none
  | .keyRetire _ => none
  | .keyErase _ => none
  | .seawallAlarm _ => none
  | .alarmClear _ _ => none
  | .entropyFail => none
  | .entropyRecover => none
  | .entropyTimeout => none
  | .offshoreWaitEnd _ => none
  | .offshoreWaitTimeout _ => none
  | .ofsDataReceive _ _ => none
  | .ofsSnapReceive _ _ => none
  | .ofsSackReceive _ _ => none
  | .ofsSackSend _ _ _ => none
  | .ofsRtoExpiry _ _ _ => none
  | .pacingRateStep _ _ _ => none
  | .ofsProbeSend _ _ _ => none
  | .ofsProbeReceive _ _ => none
  | .routeDown _ _ _ _ => none
  | .peerLost _ _ => none
  | .keyInitReceive _ _ => none
  | .keyRespReceive _ _ => none
  | .keyInitResend _ _ _ => none
  | .handshakeTimeout _ _ _ => none
  | .handshakeRetry _ _ => none
  | .registerWrite _ _ _ => none
  | .mbxSelWrite _ => none
  | .mbxSnapshotReady _ => none
  | .mbxD3Read _ _ => none
  | .mbxDiscard _ => none
  | .icuClaimRead _ _ => none
  | .icfClaimRead _ _ => none
  | .icuEoiWrite _ => none
  | .icfEoiWrite _ => none
  | .icuPendWrite _ _ => none
  | .icuStormUnmask _ _ => none
  | .interruptSourceEvent _ _ => none
  | .bcnWakeNow _ => none
  | .bcnTimerExpiry => none
  | .tidUsedRead _ _ _ => none
  | .tideTick _ => none
  | .coreTickDone _ _ => none
  | .coreWatchdogExpiry _ => none
  | .coreRestart _ => none
  | .coreRestartFallback _ => none
  | .coreRestartDone _ => none
  | .activationProceed => none
  | .activationDeferTimeout => none
  | .activationRestartFail => none
  | .rollbackCounterRaise => none
  | .supplySag32 => none
  | .supplySag30 => none
  | .supplySag27 => none
  | .orderlyStopReset => none
  | .supplyRecover _ => none
  | .nvWriteResume => none
  | .supplyRestore => none
  | .inputOvervoltage _ _ => none
  | .overcurrent _ => none
  | .brakeAssert => none
  | .brakeRelease => none
  | .clampRelease _ => none
  | .brakeReminder => none
  | .thermEmergencyClock => none
  | .thermClockReturn => none
  | .thermTrip _ _ _ => none
  | .tripResetRelease => none
  | .sleepEnter _ => none
  | .sleepExit _ => none
  | .powerOnStage _ _ => none
  | .startupStepTimeout => none
  | .modResetAssert => none
  | .modResetRelease => none
  | .leakDetect => none
  | .crystalFault => none
  | .crystalRecover => none
  | .holdoverExpiry => none
  | .pllUnlock _ => none
  | .rstReqGo _ => none
  | .hangDetect _ => none
  | .domainQuiesceDone _ => none
  | .crashRecordDone => none
  | .domainResetRelease _ => none
  | .domainReady _ => none
  | .recoveryWindowEnd _ => none
  | .deviceResetDelayed => none
  | .rstLogAckWrite _ => none
  | .lifecycleErase => none
  | .admissionLoad _ => none
  | .admissionClear _ => none
  | .ethIpLoad _ => none
  | .ethIpClear _ => none
  | .flashRead _ => none
  | .flashProgram _ => none
  | .flashErase _ => none
  | .flashOpDone _ => none
  | .mgtAttnWrite _ => none
  | .i3cSetPointer _ => none
  | .i3cRegWrite _ _ => none
  | .i3cRegRead _ => none
  | .entdaa _ _ => none
  | .rstdaa => none
  | .setnewda _ => none
  | .getpid => none
  | .getbcr => none
  | .getdcr => none
  | .getstatus => none
  | .enec _ => none
  | .disec _ => none
  | .rstact _ => none
  | .jtagBypass => none
  | .jtagIdcode => none
  | .jtagSamplePreload _ => none
  | .jtagExtest _ => none
  | .jtagProvision => none
  | .jtagDebugOpen _ => none
  | .aonPowerLoss => none
  | .cableSeated _ => none
  | .unsupportedOpcode _ _ => none
  | .ofsDataSend _ _ _ => none

/-- Quay finds the command's packet authentic: steps 2 to 7 of R409 pass. -/
def authentic (s : State) (h : EcpHdr) : Bool :=
  h.iface < 4 && intakeUp s h.iface && h.version = 1 && h.berth < 4 && s.sec.life ≠ 4 && h.epoch = s.sec.epoch.toNat
    && (berthOf s h.berth).state = 1 && authOk s (berthOf s h.berth) h

/-- What a refusal before authentication leaves: one status packet that is not authenticated, or, beyond 16 of the interface in the tick,
a packet discarded and counted (R409). -/
def Unauthenticated (s t : State) (h : EcpHdr) (op status : Nat) : Prop :=
  if mgetD s.quay.unauth h.iface 0 < 16 then
    t.tx = .status h.iface h.peer op h.seq h.berth false status 0 true 0 [] :: s.tx
      ∧ t.quay = { s.quay with unauth := mset s.quay.unauth h.iface (mgetD s.quay.unauth h.iface 0 + 1) }
  else t.tx = s.tx ∧ t.quay = { s.quay with invalid := s.quay.invalid + 1 }

/-- The key slots after the command: the old slot of the berth is empty when this is the first command under its new key epoch. -/
def slotsAfter (s : State) (h : EcpHdr) : NMap KeySlot :=
  match (berthOf s h.berth).nextKey with
  | some (e, _, _) => if h.keyEpoch = e then mdel s.swl.slots (berthOf s h.berth).keySlot else s.swl.slots
  | none => s.swl.slots

/-- The counts that a command and its answer raise: frames and bytes of the interface, and the berth's own. -/
def ecpCounts (h : EcpHdr) : List Nat :=
  [0x1B00 + 0x10 * h.iface, 0x1B01 + 0x10 * h.iface, 0x1B06 + 0x10 * h.iface, 0x1B07 + 0x10 * h.iface,
    0x1C00 + 0x10 * h.berth, 0x1C01 + 0x10 * h.berth]

/-- Two records of a berth differ at most in what the intake of a command keeps: address, time, keys, window and kept answers. -/
def sameWork (q r : Berth) : Prop :=
  { r with
    iface := q.iface, peer := q.peer, lastCmd := q.lastCmd, authed := q.authed, keyEpoch := q.keyEpoch, keySlot := q.keySlot
    hostSalt := q.hostSalt, nextKey := q.nextKey, rekeyAsked := q.rekeyAsked, high := q.high, seen := q.seen, cache := q.cache } = q

/-- The command was answered with a final status: the packets `out` and then the status packet leave, its sequence counts as seen, the
answer is kept for retransmission, the accepted command and the status are counted. The berth's other fields are as `f` makes them; no
other berth, nothing else of Quay and no count but those of the frames and `ids` differs. -/
structure AnsweredWith (f : Berth → Berth) (ids : List Nat) (out : List Tx) (s t : State) (h : EcpHdr) (op status detail : Nat)
    (data : List Byte) : Prop where
  sent     : t.tx = .status h.iface h.peer op h.seq h.berth true status 0 true detail data :: (out ++ s.tx)
  seen     : seqView (berthOf t h.berth) h.seq = .seen
  kept     : data.length ≤ 256 → (berthOf t h.berth).cache.head? = some ⟨h.seq, op, status, 0, detail, data⟩
  work     : sameWork (f (berthOf s h.berth)) (berthOf t h.berth)
  others   : ∀ b, b < 4 → b ≠ h.berth → berthOf t b = berthOf s b
  quay     : { t.quay with berths := s.quay.berths } = s.quay
  accepted : mgetD t.counts (0x1C00 + 0x10 * h.berth) 0 = mgetD s.counts (0x1C00 + 0x10 * h.berth) 0 + 1
  statuses : mgetD t.counts (0x1C01 + 0x10 * h.berth) 0 = mgetD s.counts (0x1C01 + 0x10 * h.berth) 0 + 1
  counts   : ∀ id, id ∉ ecpCounts h → id ∉ ids → mgetD t.counts id 0 = mgetD s.counts id 0

/-- The command was answered with a final status and has no other effect on Quay and Seawall. -/
def Answered (s t : State) (h : EcpHdr) (op status detail : Nat) (data : List Byte) : Prop :=
  AnsweredWith id [] [] s t h op status detail data ∧ t.swl = { s.swl with slots := slotsAfter s h }

/-- The result data of the HELLO answer that a berth keeps. -/
def keptData (s : State) (b : Nat) : List Byte :=
  match (berthOf s b).hello with
  | some (_, c) => c.data
  | none => []

/-- The command was accepted and is in flight with no final status (R412): the packets `out` leave, its sequence counts as seen, the
accepted command is counted. The berth's other fields are as `f` makes them, with the command in flight; no other berth, nothing else
of Quay and no count but those of the frames and `ids` differs. -/
structure TakenWith (f : Berth → Berth) (ids : List Nat) (out : List Tx) (s t : State) (h : EcpHdr) (op : Nat) : Prop where
  sent     : t.tx = out ++ s.tx
  seen     : seqView (berthOf t h.berth) h.seq = .seen
  work     : sameWork { f (berthOf s h.berth) with inflight := (h.seq, op) :: (f (berthOf s h.berth)).inflight } (berthOf t h.berth)
  others   : ∀ b, b < 4 → b ≠ h.berth → berthOf t b = berthOf s b
  quay     : { t.quay with berths := s.quay.berths } = s.quay
  accepted : mgetD t.counts (0x1C00 + 0x10 * h.berth) 0 = mgetD s.counts (0x1C00 + 0x10 * h.berth) 0 + 1
  counts   : ∀ id, id ∉ ecpCounts h → id ∉ ids → mgetD t.counts id 0 = mgetD s.counts id 0

/-- No session record of another berth differs. -/
def OtherBerths (b : Nat) (s t : State) : Prop := ∀ c, c < 4 → c ≠ b → berthOf t c = berthOf s c

/-- Every byte of memory outside the `n` bytes at `a` reads as before. -/
def BytesBut (a n : Nat) (s t : State) : Prop := ∀ x, (x < a ∨ a + n ≤ x) → cellGet t.mem.bytes x = cellGet s.mem.bytes x

/-- The `n` bytes at `a` read 0. -/
def BytesZero (a n : Nat) (t : State) : Prop := ∀ x, a ≤ x → x < a + n → cellGet t.mem.bytes x = 0

/-- A session record once an event is queued for it (R425): nothing for a CLOSED berth, counted as lost when the queue is full. -/
def queueEvent (tick : W64) (q : Berth) (payload : List Byte) : Berth :=
  if q.state = 0 then q
  else if q.events.length < 1024 then
    { q with events := q.events ++ [⟨q.evSeq, payload⟩], evSeq := q.evSeq + 1, evTick := if q.events.isEmpty then tick else q.evTick }
  else { q with evLost := q.evLost + 1 }

/-- The berth's record differs by the events queued, and by nothing else. -/
def EventsTo (b : Nat) (payloads : List (List Byte)) (s t : State) : Prop :=
  berthOf t b = payloads.foldl (queueEvent s.lh.tick) (berthOf s b)

/-- Every berth is told the same event (codes 0x0008 to 0x000B of R424). -/
def EventToAll (code status : Nat) (data : List Byte) (s t : State) : Prop :=
  ∀ b, b < 4 → EventsTo b [eventPayload s b code status 0 data] s t

/-- A cause of REPLACE_REQUEST is raised (R530): its bit stands, and when it was clear the interrupt status and the alert rise and every
berth is told every cause. -/
def ReplaceRaised (i : Nat) (s t : State) : Prop :=
  rd t RST_REPLACE_causes = rd s RST_REPLACE_causes ||| 2 ^ i ∧
    (bit (rd s RST_REPLACE_causes) i = false → rdb t RST_IRQ_STAT_replace = true ∧ bit (rd t MGT_ALERT) 1 = true ∧
      EventToAll 0x0008 0 (toBe 4 (rd t RST_REPLACE_causes)) s t)

/-- Every CRS register but those at the offsets named reads as before. -/
def RegsBut (offs : List Nat) (s t : State) : Prop := ∀ off, off ∉ offs → regWord t off = regWord s off

/-- Every mailbox count but those named is as before. -/
def CountsBut (ids : List Nat) (s t : State) : Prop := ∀ id, id ∉ ids → mgetD t.counts id 0 = mgetD s.counts id 0

/-- Flash `f` holds `data` at offset `a`, and every other byte of both flashes reads as before. -/
def FlashIs (f a : Nat) (data : List Byte) (s t : State) : Prop :=
  ∀ g i, g < 2 → i < 2 ^ 26 →
    flashByte t g i = if g = f ∧ a ≤ i ∧ i < a + data.length then data.getD (i - a) 0 else flashByte s g i

/-- Measurement slot `i` has been extended with a tag and a digest, and no other slot differs (R546). -/
def Extended (i tag : Nat) (d : List Byte) (s t : State) : Prop :=
  t.sec.slots = mset s.sec.slots i (Config.sha3 (toBe 32 (mgetD s.sec.slots i 0).toNat ++ [BitVec.ofNat 8 tag] ++ d))

/-- The power conditions are `p`, with the note of an emergency that holds and the record of one that begins (R484, R502). -/
def PowerIs (p : Power) (s t : State) : Prop :=
  { t.pwr with emergTick := p.emergTick, lastEmerg := p.lastEmerg, lastWatts := p.lastWatts, lastTick := p.lastTick } = p ∧
    (emergency t = true → t.pwr.emergTick = true) ∧
    (emergency s = false → emergency t = true → t.pwr.lastTick = s.lh.tick ∧ t.pwr.lastWatts = BitVec.ofNat 32 (rd s PWR_PIN_watts))

/-- Every berth is told of a power cause, with the input power (R424, R503). -/
def PowerEvent (cause : Nat) (s t : State) : Prop := EventToAll 0x000B 0 (toBe 1 cause ++ toBe 2 (rd s PWR_PIN_watts)) s t

/-- An edge source is pending, counted once (R450). -/
def FiredEdge (n : Nat) (s t : State) : Prop :=
  t.icu = { s.icu with pending := putBit s.icu.pending n true
                       counts := mset s.icu.counts n (BitVec.ofNat 16 (min 65535 ((mgetD s.icu.counts n 0).toNat + 1))) }

/-- A counted reset of domain `d` begins, outside a DEVICE reset (R514): its generation rises, it quiesces, with a crash record where the
domain calls for one. A DEVICE reset takes its record at once, and stands in for a fourth counted reset within 6,000,000 ticks (R527). -/
def ResetBegins (d : Nat) (s t : State) : Prop :=
  if d = 0x3F ∨ 3 ≤ recentResets s d 6000000 then
    mget t.rst.domains 0x3F = some ⟨3, s.lh.tick, false, true⟩ ∧ genOf t 0x3F = (genOf s 0x3F + 1) % 256 ∧
      t.rst.history = (0x3F, s.lh.tick) :: s.rst.history ∧ t.rst.crashing = s.rst.crashing ++ [0x3F]
  else
    mget t.rst.domains d = some ⟨2, s.lh.tick, false, wantsCrash d⟩ ∧ genOf t d = (genOf s d + 1) % 256 ∧
      t.rst.history = (d, s.lh.tick) :: s.rst.history ∧ t.rst.crashing = s.rst.crashing

/-- No requester's mailbox bank but one differs (R441). -/
def OtherBanks (req : Nat) (s t : State) : Prop := ∀ q, q ≠ req → bankOf t q = bankOf s q

/-- A packet that Offshore accepts (R366, R379): the module has the engine, out of reset; session, device, sites and fixed fields match; Seawall starts
blocks, and the tag verifies under a key that the peer's record holds. -/
abbrev OfsGenuine (s : State) (b : Nat) (x : Session) (q : OfsPeer) (p : OfsPkt) : Prop :=
  hasOffshore s.variant = true ∧ ofsInReset s = false ∧ berthOfSession s p.session = some b ∧ sessOf s b = some x ∧
    mget x.peers p.srcSite = some q ∧ addressed s x p = true ∧ swlRuns s = true ∧
    (epochSlot s q p.keyEpoch).any (fun n => tagFits s n p) = true

/-- The sessions of the other berths stand. -/
def OtherSessions (b : Nat) (s t : State) : Prop := ∀ c, c < 4 → c ≠ b → sessOf t c = sessOf s c

/-- A peer's record once an authenticated packet has come: the route and the peer are heard. -/
def heardPeer (s : State) (q : OfsPeer) (p : OfsPkt) (us : Nat) : OfsPeer :=
  { q with
    lastE0 := if p.route = 0 then some us else q.lastE0, lastE1 := if p.route = 0 then q.lastE1 else some us, lastAny := s.lh.tick
    heardNew := q.heardNew || q.key.any fun k => k.2 = p.keyEpoch }

/-- What every command of a host may change, whatever it does. -/
def ecpParts : List Part := [.free, .tx, .counts, .quay, .swl]

end Sys2Proof.Safety
end

