-- ==== Sys2Proof/WellFormed.lean ====
section
/-!
DEFINITION. Which operands a command can carry at all: berth, interface, port, core, domain, register and slot numbers within their
ranges, packet fields within their widths, structures of their stated size. What Quay or a unit checks and answers is a meaning,
not a well-formedness rule: a reserved value that a rule answers with a status is well formed here.
-/
namespace Sys2Proof

/-- The fields of an ECP header fit their widths (R394, R395); four interfaces (R383). -/
def EcpHdr.wf (h : EcpHdr) : Bool :=
  h.iface < 4 && h.version < 256 && h.berth < 256 && h.plane < 256 && h.epoch < 65536 && h.keyEpoch < 256

/-- A requester of R435. -/
def CrsWrite.wf (w : CrsWrite) : Bool := w.req < 10

/-- Flit fields fit R246. -/
def Flit.wf (f : Flit) : Bool :=
  f.vc < 4 && f.cls < 4 && f.dst < 2 ^ 17 && f.hops < 128 && f.src < 2 ^ 17 && f.len ≤ 240 && f.payload.length ≤ 240
  && f.seq < 4096 && f.ack < 4096 && f.crSel < 16 && f.crTotal < 4096

/-- Longshore header fields fit R285. -/
def LshPkt.wf (p : LshPkt) : Bool := p.op < 8 && p.kind < 8 && p.berth < 4 && p.chunk < 2 ^ 32 && p.level < 32

/-- An Offshore packet names two routes, sixteen sites and at most 8,872 payload bytes (R365). -/
def OfsPkt.wf (p : OfsPkt) : Bool :=
  p.magic < 2 ^ 16 && p.version < 256 && p.type < 256 && p.route < 2 && p.rsv4 < 32 && p.keyEpoch < 256 && p.srcSite < 16
  && p.dstSite < 16 && p.rsv7 < 256 && p.device < 2 ^ 32 && p.round < 2 ^ 32 && p.pseq < 2 ^ 64 && p.stream < 2 ^ 16 && p.len < 2 ^ 16
  && p.offset < 2 ^ 64 && p.objLen < 2 ^ 64 && p.payload.length ≤ 8872

/-- A list of structures of one size. -/
def sized (n : Nat) (ds : List (List Byte)) : Bool := ds.all (fun d => d.length = n)

/-- A command's operands lie in their ranges. -/
def Instr.wf : Instr → Bool
  | .devInfo h => h.wf
  | .hello h _ _ k hk sg => h.wf && k.length = 1184 && hk.length = 1312 && sg.length = 2420
  | .berthClose h => h.wf
  | .rekey h k => h.wf && k.length = 1184
  | .ping h => h.wf
  | .eventAck h _ => h.wf
  | .alloc h _ t p => h.wf && t < 256 && p < 256
  | .free h _ => h.wf
  | .objectRelease b o => b < 4 && o < 2 ^ 30
  | .memConfig h a b c d e => h.wf && a < 65536 && b < 65536 && c < 65536 && d < 65536 && e < 65536
  | .write h _ _ _ d => h.wf && d.length < 65536
  | .read h _ _ n p => h.wf && n < 2 ^ 32 && p < 65536
  | .code h _ _ f => h.wf && f < 256
  | .decode h _ _ => h.wf
  | .signal h sl c => h.wf && sl < 65536 && c < 65536
  | .submit h _ ds => h.wf && sized 128 ds
  | .postColl h ch _ ds => h.wf && ch < 256 && sized 64 ds
  | .streamResume h m => h.wf && m < 256
  | .streamFlush h _ _ => h.wf
  | .recomputeReg h _ ds => h.wf && sized 128 ds
  | .censusRead h l c => h.wf && l < 65536 && c < 65536
  | .streamMode h m p => h.wf && m < 256 && p < 256
  | .groupWrite h e => h.wf && e.length = 64
  | .groupRelease h g => h.wf && g < 65536
  | .discover h t x y z => h.wf && t < 256 && x < 65536 && y < 65536 && z < 65536
  | .templateClear h l => h.wf && l < 65536
  | .fslotAlloc h => h.wf
  | .fslotWrite h n d => h.wf && n < 65536 && d.length = 64
  | .fslotRelease h n => h.wf && n < 65536
  | .solverWs h _ => h.wf
  | .shardWrite h n d => h.wf && n < 65536 && d.length = 64
  | .shardRelease h n => h.wf && n < 65536
  | .stateLoad h n _ _ => h.wf && n < 65536
  | .updWs h _ => h.wf
  | .progLoad h n ws => h.wf && n < 256 && ws.length < 65536
  | .schedWrite h c d => h.wf && c < 256 && d.length = 32
  | .stepSet h _ => h.wf
  | .ofsOpen h _ => h.wf
  | .ofsStream h a b => h.wf && a < 65536 && b < 65536
  | .ofsSite h a _ r _ => h.wf && a < 256 && r < 2 ^ 32
  | .ofsRekey h => h.wf
  | .ofsClose h => h.wf
  | .regRead h _ c => h.wf && c < 65536
  | .regWrite h _ _ => h.wf
  | .mbxRead h n => h.wf && n < 65536
  | .crashRead h _ n => h.wf && n < 2 ^ 32
  | .returnToService h _ _ _ => h.wf
  | .errlogRead h _ => h.wf
  | .diag h t _ => h.wf && t < 65536
  | .domainReset h d => h.wf && d < 256
  | .fwStage h o d => h.wf && o < 2 ^ 32 && d.length < 65536
  | .fwActivate h i => h.wf && i < 256
  | .attest h n => h.wf && n.length = 32
  | .lifecycle h t _ => h.wf && t < 256
  | .pwrStatus h => h.wf
  | .pwrCap h w => h.wf && w < 65536
  | .ecpPacketInvalid i n _ => i < 4 && n < 65536
  | .frameDiscard i _ => i < 4
  | .neighbourSolicitation i _ _ _ => i < 4
  | .neighbourAdvertisement i _ _ => i < 4
  | .echoRequest i _ _ _ => i < 4
  | .ptpMessage p => p.iface < 4 && p.domain < 256 && p.kind < 4
  | .ptpAnnounceTimeout => true
  | .linkChange i _ => i < 4
  | .hostLinkDownTimeout p => p < 2
  | .leaseExpiry b => b < 4
  | .eventResend b => b < 4
  | .submitHoldTimeout b _ => b < 4
  | .opStart l => l.all (fun p => p.1.all (· < 15))
  | .opComplete l => l.all (fun p => p.1.all (· < 15))
  | .triggerHoldRelease _ => true
  | .enginePassComplete l => l.all (fun p => p.1.all (· < 15))
  | .updateStart b => b < 4
  | .tileFault t c => t < 1024 && c < 4
  | .waveWatchdogExpiry t _ => t < 1024
  | .tileStoreCe _ => true
  | .shfIssueEnWrite w => w.wf
  | .shfCounterClear w => w.wf
  | .numDirtyPop b w => b < 4 && w.wf
  | .stepBoundary b => b < 4
  | .shardFetch n _ _ => n < 65536
  | .pagerMoveStart => true
  | .pagerMoveComplete b o _ => b < 4 && o < 2 ^ 30
  | .pageZeroComplete t c => 1 ≤ t && t < 4 && c < 12
  | .memoryScrub t _ _ _ => t < 4
  | .errorWindowExpiry => true
  | .ddrChannelLost c => c < 12
  | .hbmStackFail n => n < 8
  | .portTrainingStep p _ => p < 12
  | .trainingTimeout p => p < 12
  | .portRetryTimer p => p < 12
  | .latencyProbe p _ => p < 12
  | .flitReceive p f c k => p < 12 && f.wf && (c.isSome || k.isSome)
  | .replayTimerExpiry p _ => p < 12
  | .portDown p st => p < 12 && st < 16
  | .portRetrainWrite p w => p < 12 && w.wf
  | .portEnableClear p w => p < 12 && w.wf
  | .cableRemoved p => p < 12
  | .cableSupplyOvercurrent p _ => p < 12
  | .assignReceive p x y z _ _ _ _ q => p < 12 && x < 64 && y < 64 && z < 64 && q < 12
  | .reportReceive d => d < 2 ^ 18
  | .conflictReceive => true
  | .walkTimeout => true
  | .tickFlitReceive p _ _ _ => p < 12
  | .tickHoldover => true
  | .triggerTake b => b < 4
  | .collectiveStart b c => b < 4 && (c < 16 || c = 64)
  | .collectiveComplete b c => b < 4 && (c < 16 || c = 64)
  | .collectiveDataReceive p => p.wf
  | .collectiveAckReceive p => p.wf
  | .collectiveReqReceive p => p.wf
  | .collectiveTimeout b c => b < 4 && (c < 16 || c = 64)
  | .closeWaveStart b => b < 4
  | .flagReceive p => p.wf
  | .closeWaveTimeout b => b < 4
  | .countRound b => b < 4
  | .countReceive p => p.wf
  | .shingleRequestComplete => true
  | .shingleSlotGrant => true
  | .seawallRequest p => p.cls < 8
  | .seawallRequestComplete c => c < 8
  | .keyLoad w => w.wf
  | .keyLoadResume => true
  | .keyRetire w => w.wf
  | .keyErase w => w.wf
  | .seawallAlarm n => n < 4
  | .alarmClear w _ => w.wf
  | .entropyFail => true
  | .entropyRecover => true
  | .entropyTimeout => true
  | .offshoreWaitEnd b => b < 4
  | .offshoreWaitTimeout b => b < 4
  | .ofsDataReceive p _ => p.wf
  | .ofsSnapReceive p _ => p.wf
  | .ofsSackReceive p _ => p.wf
  | .ofsSackSend b p _ => b < 4 && p < 16
  | .ofsRtoExpiry b p _ => b < 4 && p < 16
  | .pacingRateStep b p _ => b < 4 && p < 16
  | .ofsProbeSend b p _ => b < 4 && p < 16
  | .ofsProbeReceive p _ => p.wf
  | .routeDown b p r _ => b < 4 && p < 16 && r < 2
  | .peerLost b p => b < 4 && p < 16
  | .keyInitReceive p _ => p.wf
  | .keyRespReceive p _ => p.wf
  | .keyInitResend b p _ => b < 4 && p < 16
  | .handshakeTimeout b p _ => b < 4 && p < 16
  | .handshakeRetry b p => b < 4 && p < 16
  | .registerWrite r _ _ => r < 10
  | .mbxSelWrite w => w.wf
  | .mbxSnapshotReady r => r < 10
  | .mbxD3Read r _ => r < 10
  | .mbxDiscard w => w.wf
  | .icuClaimRead r _ => r < 10
  | .icfClaimRead r _ => r < 10
  | .icuEoiWrite w => w.wf
  | .icfEoiWrite w => w.wf
  | .icuPendWrite n w => n < 8 && w.wf
  | .icuStormUnmask n w => n < 8 && w.wf
  | .interruptSourceEvent n _ => n < 256
  | .bcnWakeNow w => w.wf
  | .bcnTimerExpiry => true
  | .tidUsedRead r c _ => r < 10 && c < 8
  | .tideTick _ => true
  | .coreTickDone w _ => w.wf
  | .coreWatchdogExpiry c => c < 8
  | .coreRestart w => w.wf
  | .coreRestartFallback c => c < 8
  | .coreRestartDone c => c < 8
  | .activationProceed => true
  | .activationDeferTimeout => true
  | .activationRestartFail => true
  | .rollbackCounterRaise => true
  | .supplySag32 => true
  | .supplySag30 => true
  | .supplySag27 => true
  | .orderlyStopReset => true
  | .supplyRecover _ => true
  | .nvWriteResume => true
  | .supplyRestore => true
  | .inputOvervoltage _ _ => true
  | .overcurrent _ => true
  | .brakeAssert => true
  | .brakeRelease => true
  | .clampRelease _ => true
  | .brakeReminder => true
  | .thermEmergencyClock => true
  | .thermClockReturn => true
  | .thermTrip _ _ _ => true
  | .tripResetRelease => true
  | .sleepEnter w => w.wf
  | .sleepExit w => w.wf
  | .powerOnStage _ _ => true
  | .startupStepTimeout => true
  | .modResetAssert => true
  | .modResetRelease => true
  | .leakDetect => true
  | .crystalFault => true
  | .crystalRecover => true
  | .holdoverExpiry => true
  | .pllUnlock p => p < 8
  | .rstReqGo w => w.wf
  | .hangDetect d => d < 64
  | .domainQuiesceDone d => d < 64
  | .crashRecordDone => true
  | .domainResetRelease d => d < 64
  | .domainReady d => d < 64
  | .recoveryWindowEnd d => d < 64
  | .deviceResetDelayed => true
  | .rstLogAckWrite w => w.wf
  | .lifecycleErase => true
  | .admissionLoad w => w.wf
  | .admissionClear w => w.wf
  | .ethIpLoad w => w.wf
  | .ethIpClear w => w.wf
  | .flashRead w => w.wf
  | .flashProgram w => w.wf
  | .flashErase w => w.wf
  | .flashOpDone _ => true
  | .mgtAttnWrite w => w.wf
  | .i3cSetPointer _ => true
  | .i3cRegWrite _ _ => true
  | .i3cRegRead _ => true
  | .entdaa _ _ => true
  | .rstdaa => true
  | .setnewda _ => true
  | .getpid => true
  | .getbcr => true
  | .getdcr => true
  | .getstatus => true
  | .enec _ => true
  | .disec _ => true
  | .rstact _ => true
  | .jtagBypass => true
  | .jtagIdcode => true
  | .jtagSamplePreload _ => true
  | .jtagExtest _ => true
  | .jtagProvision => true
  | .jtagDebugOpen _ => true
  | .aonPowerLoss => true
  | .cableSeated p => p < 12
  | .unsupportedOpcode h op => h.wf && op < 65536
  | .ofsDataSend b p _ => b < 4 && p < 16

end Sys2Proof
end

