-- ==== Sys2Proof/Certificates/Slice0/Obligations.lean ====
section
/-!
DEFINITION. The statements for the provers: what the commands of each family do, where they complete and what they leave unchanged.
-/
open Sys2Proof Sys2Proof.Machine Sys2Proof.Safety

/-- One step takes the command at the front of the queue and answers what `exec` answers for it on the state with the queue's rest. -/
def Obligations.StepRunsFrontCommand : Prop :=
  ∀ (c : Instr) (cs : List Instr) (s : State), step { s with pending := c :: cs } = exec c { s with pending := cs }

/-- The model's choice (log 1): with no command waiting, a step answers the state as it is; time passes through commands only. -/
def Obligations.EmptyQueueIdles : Prop := ∀ s : State, s.pending = [] → step s = .next s

/-- At power-on every berth is CLOSED and unadmitted with no window, cache or event (R432); every seed is 0 and the census is empty (R103);
no factor slot, Solver problem, shard, program, channel, object, group or session exists (R163, R200, R240, R384); every step counter is 0;
every table slot and key slot is empty (R345); no count has counted; no mailbox bank holds anything and no source pends (R467); every
generation is 0, the error log is empty and the module is in service (R538); no command waits, memory and registers list nothing. The
life-cycle code, which OTP decides, is the model's choice (log 6): it is one of R549. -/
def Obligations.PowerOnState : Prop :=
  (∀ b, b < 4 → (berthOf State.reset b).state = 0 ∧ (berthOf State.reset b).admitted = none ∧ (berthOf State.reset b).high = none ∧
    (berthOf State.reset b).seen = [] ∧ (berthOf State.reset b).cache = [] ∧ (berthOf State.reset b).events = [] ∧
    fget State.reset.num.seeds b = 0 ∧ fget State.reset.num.dirty b = [] ∧ fget State.reset.slv.queues b = [] ∧
    fget State.reset.upd.steps b = 0 ∧ fget State.reset.upd.skips b = 0 ∧ fget State.reset.mem.balance b = false ∧
    fget State.reset.ofs.sessions b = none) ∧
  (∀ n, mget State.reset.num.census n = none ∧ mget State.reset.snd.slots n = none ∧ mget State.reset.upd.shards n = none ∧
    mget State.reset.upd.progs n = none ∧ mget State.reset.upd.chans n = none ∧ mget State.reset.mem.objects n = none ∧
    mget State.reset.lsh.live n = none ∧ mget State.reset.shg.slots n = none ∧ mget State.reset.swl.slots n = none ∧
    mgetD State.reset.counts n 0 = 0 ∧ mget State.reset.banks n = none ∧ State.reset.icu.pending.getLsbD n = false ∧
    genOf State.reset n = 0 ∧ regWord State.reset n = resetWord .kmz4100 n) ∧
  (∀ (_ : Unit), State.reset.rst.log = [] ∧ outOfService State.reset = false ∧ State.reset.pending = [] ∧ Canonical State.reset ∧ lifeOk State.reset)

/-- From every state that has it, every step keeps the canonical form: stored bytes rise by address and none equals what an unlisted byte
reads as, listed registers rise by offset and none equals its reset value. Equal contents are therefore equal data. -/
def Obligations.StepsKeepCanonicalForm : Prop :=
  ∀ s t : State, Canonical s → step s = .next t → Canonical t

/-- Whatever the state and the operands, every command of the table is carried out and answers a next state. The commands that wait stay as
they are, no command changes the part number, what has left the block stays on record, no free value is taken twice, and no part of the
state outside the command's footprint differs: a command of one unit changes nothing of a unit that its rules do not name. -/
def Obligations.EveryCommandKeepsToItsFootprint : Prop :=
  ∀ (c : Instr) (s : State), ∃ t, exec c s = .next t ∧ t.pending = s.pending ∧ t.variant = s.variant ∧ s.tx <:+ t.tx ∧ s.free ≤ t.free ∧
    Frame (footprint c) s t

/-- From every state whose life-cycle code is one of R549 and whose waiting transition is one of R550, every command leaves such a state, and
the code stays or moves along a transition of R550. From DECOMMISSIONED it never moves. -/
def Obligations.LifeCycleTransitions : Prop :=
  ∀ (c : Instr) (s t : State), lifeOk s → exec c s = .next t →
    lifeOk t ∧ (t.sec.life = s.sec.life ∨ (s.sec.life, t.sec.life) ∈ lifeArcs) ∧ (s.sec.life = 4 → t.sec.life = 4)

/-- Steps 2 to 7 of R409, in their order, for every command of an authenticated berth: while Quay takes no packets nothing happens; a wrong
version is answered VERSION_MISMATCH, a berth above 3 is discarded and counted, a DECOMMISSIONED module answers OUT_OF_SERVICE, a wrong
epoch and a berth that is not OPEN are answered STALE_GENERATION, a failed key or tag AUTH_FAIL, which is counted. Those statuses are not
authenticated and at most 16 leave in a tick. The command has no other effect: no sequence is seen, nothing runs. -/
def Obligations.RefusedBeforeAuthentication : Prop :=
  (∀ (c : Instr) (s : State) (h : EcpHdr) (op : Nat) (cores : List Nat),
    hostCommand c = some (h, op, cores) →
    (op = 0x0202 → (berthOf s h.berth).closing = false) →
    intakeUp s h.iface = false →
    exec c s = .next s) ∧
  (∀ (c : Instr) (s : State) (h : EcpHdr) (op : Nat) (cores : List Nat),
    hostCommand c = some (h, op, cores) →
    (op = 0x0202 → (berthOf s h.berth).closing = false) →
    intakeUp s h.iface = true → h.iface < 4 →
    ∃ t, exec c s = .next t ∧ Frame [.free, .tx, .regs, .counts, .quay] s t ∧ RegsBut [CMD_IRQ_STAT_version.off] s t ∧
      (h.version ≠ 1 → Unauthenticated s t h op 0x0050 ∧ rdb t CMD_IRQ_STAT_version = true) ∧
      (h.version = 1 → h.berth ≥ 4 → t.tx = s.tx ∧ t.quay = { s.quay with invalid := s.quay.invalid + 1 } ∧ t.regs = s.regs) ∧
      (h.version = 1 → h.berth < 4 → s.sec.life = 4 → Unauthenticated s t h op 0x0060 ∧ t.regs = s.regs) ∧
      (h.version = 1 → h.berth < 4 → s.sec.life ≠ 4 → h.epoch ≠ s.sec.epoch.toNat → Unauthenticated s t h op 0x0030 ∧ t.regs = s.regs) ∧
      (h.version = 1 → h.berth < 4 → s.sec.life ≠ 4 → h.epoch = s.sec.epoch.toNat → (berthOf s h.berth).state ≠ 1 →
        Unauthenticated s t h op 0x0030 ∧ t.regs = s.regs) ∧
      (h.version = 1 → h.berth < 4 → s.sec.life ≠ 4 → h.epoch = s.sec.epoch.toNat → (berthOf s h.berth).state = 1 →
        authOk s (berthOf s h.berth) h = false →
        Unauthenticated s t h op 0x0070 ∧ rdb t CMD_IRQ_STAT_auth_fail = true ∧
          mgetD t.counts (0x1C03 + 0x10 * h.berth) 0 = mgetD s.counts (0x1C03 + 0x10 * h.berth) 0 + 1))

/-- The sequence window of R410, modulo 2^32. A sequence above h is accepted and becomes h; an unseen one within the window is accepted and
leaves h; what is accepted counts as seen, and the record keeps only sequences from h − 1,023 to h. A seen sequence whose final status is
kept is answered with it again; one still in progress is ignored; one below the window is discarded and counted: none of these runs the
command. A BUSY answer, at intake or to a command that was held, leaves no sequence marked as seen. -/
def Obligations.SequenceWindow : Prop :=
  (∀ (q : Berth) (hi seq : W32),
    q.high = some hi →
    ((0 < (seq - hi).toNat ∧ (seq - hi).toNat < 2 ^ 31) → seqView q seq = .fresh ∧ (acceptSeq q seq).high = some seq) ∧
    ((hi - seq).toNat < 1024 → seq ∉ q.seen → seqView q seq = .fresh ∧ (acceptSeq q seq).high = some hi) ∧
    ((hi - seq).toNat < 1024 → seq ∈ q.seen → seqView q seq = .seen) ∧
    (1024 ≤ (hi - seq).toNat → (hi - seq).toNat ≤ 2 ^ 31 → seqView q seq = .below) ∧
    (seqView q seq = .fresh → seqView (acceptSeq q seq) seq = .seen) ∧
    (acceptSeq q seq).seen.all (fun x => ((acceptSeq q seq).high.getD 0 - x).toNat < 1024) = true) ∧
  (∀ (c : Instr) (s : State) (h : EcpHdr) (op : Nat) (cores : List Nat) (k : Cached),
    hostCommand c = some (h, op, cores) →
    (op = 0x0202 → (berthOf s h.berth).closing = false) →
    authentic s h = true →
    seqView (berthOf s h.berth) h.seq = .seen →
    (berthOf s h.berth).inflight.any (fun p => p.1 = h.seq) = false →
    (berthOf s h.berth).cache.find? (fun x => x.seq = h.seq) = some k →
    ∃ t, exec c s = .next t ∧ Frame [.free, .tx, .counts, .swl, .quay] s t ∧
      t.tx = .status h.iface h.peer op h.seq h.berth true k.status k.retry true k.detail k.data :: s.tx ∧
      mgetD t.counts (0x1C04 + 0x10 * h.berth) 0 = mgetD s.counts (0x1C04 + 0x10 * h.berth) 0 + 1) ∧
  (∀ (c : Instr) (s : State) (h : EcpHdr) (op : Nat) (cores : List Nat),
    hostCommand c = some (h, op, cores) →
    (op = 0x0202 → (berthOf s h.berth).closing = false) →
    authentic s h = true →
    seqView (berthOf s h.berth) h.seq = .seen →
    (berthOf s h.berth).inflight.any (fun p => p.1 = h.seq) = true →
    ∃ t, exec c s = .next t ∧ Frame [.free, .counts, .swl, .quay] s t ∧
      mgetD t.counts (0x1C04 + 0x10 * h.berth) 0 = mgetD s.counts (0x1C04 + 0x10 * h.berth) 0 + 1) ∧
  (∀ (c : Instr) (s : State) (h : EcpHdr) (op : Nat) (cores : List Nat),
    hostCommand c = some (h, op, cores) →
    (op = 0x0202 → (berthOf s h.berth).closing = false) →
    authentic s h = true →
    seqView (berthOf s h.berth) h.seq = .below →
    ∃ t, exec c s = .next t ∧ Frame [.free, .counts, .swl, .quay] s t ∧
      mgetD t.counts (0x1C05 + 0x10 * h.berth) 0 = mgetD s.counts (0x1C05 + 0x10 * h.berth) 0 + 1) ∧
  (∀ (u : State) (h : EcpHdr) (op n : Nat),
    berthOf (conclude u h op (.busy n)) h.berth = berthOf u h.berth ∧
      (conclude u h op (.busy n)).tx = .status h.iface h.peer op h.seq h.berth true 0x0001 n true 0 [] :: u.tx) ∧
  (∀ (u : State) (b op : Nat) (seq : W32), seq ∉ (berthOf (finishBusy u b op seq) b).seen)

/-- Steps 9 to 14 of R409 for every command of an authenticated berth whose packet is accepted: out of service, wrong plane, absent unit,
256 in flight or intake stopped, no admin right, core unavailable, a reserved parameter. The first failing step gives the status; nothing of
the command runs, and BUSY marks no sequence as seen. -/
def Obligations.RefusedAfterAuthentication : Prop :=
  ∀ (c : Instr) (s : State) (h : EcpHdr) (op : Nat) (cores : List Nat),
    hostCommand c = some (h, op, cores) →
    (op = 0x0202 → (berthOf s h.berth).closing = false) →
    accepted s h = true →
    (intakeCheck s h op cores).isSome = true →
    ∃ t, exec c s = .next t ∧ Frame (.regs :: ecpParts) s t ∧ RegsBut [CMD_IRQ_STAT_busy.off] s t ∧
      if outOfService s = true ∧ servedOos op = false then Answered s t h op 0x0060 0 []
      else if h.plane ≠ planeOf op then Answered s t h op 0x0020 0 []
      else if unitAbsent s.variant op = true then Answered s t h op 0x0011 0 []
      else if needsAdmin op = true ∧ (berthOf s h.berth).admin = false ∧ rdb s CMD_CTL_run = true ∧
          (berthOf s h.berth).inflight.length < 256 then Answered s t h op 0x0040 0 []
      else if rdb s CMD_CTL_run = false ∨ (berthOf s h.berth).inflight.length ≥ 256 ∨
          (quayOpcode op = false ∧ ((2 + h.berth) :: cores).any (fun k => !coreServes s k) = true) then
        t.tx = .status h.iface h.peer op h.seq h.berth true 0x0001 (busyTicks s) true 0 [] :: s.tx ∧
          (berthOf t h.berth).high = (berthOf s h.berth).high ∧ (berthOf t h.berth).seen = (berthOf s h.berth).seen
      else h.extra = true ∧ Answered s t h op 0x0020 0 []

/-- A write of bytes at an offset of a handle, in place in any tier, whose range lies in the object. When no uncorrectable codeword is covered
in part, the bytes read back, every codeword written whole reads again, and the read meets no error unless a DDR5 channel is lost. In any case
no byte outside the range changes; a codeword covered in part keeps its bytes and stays uncorrectable, the write fails (R227), and no codeword
outside the range changes (R226). Nothing but the stored bytes and the marks of uncorrectable codewords differs. -/
def Obligations.MemoryReadAfterWrite : Prop :=
  (∀ (s : State) (h : Hdl) (off : Nat) (bs : List Byte) (o : Obj),
    objOf s h = some o →
    hView h * pageSize + off + bs.length ≤ o.pages * pageSize →
    badWrite s (addrOf h + off) bs.length = false →
    (writeH s h off bs).2 = false ∧ (readH (writeH s h off bs).1 h off bs.length).1 = bs ∧
      (rd s DDR_STAT_lost = 0 → (readH (writeH s h off bs).1 h off bs.length).2 = false)) ∧
  (∀ (s : State) (h : Hdl) (off : Nat) (bs : List Byte) (o : Obj),
    objOf s h = some o →
    hView h * pageSize + off + bs.length ≤ o.pages * pageSize →
    BytesBut (addrOf h + off) bs.length s (writeH s h off bs).1 ∧ Frame [.mem, .bytes] s (writeH s h off bs).1 ∧
      { (writeH s h off bs).1.mem with bytes := s.mem.bytes, bad := s.mem.bad } = s.mem) ∧
  (∀ (s : State) (h : Hdl) (off : Nat) (bs : List Byte) (o : Obj) (c : Nat),
    objOf s h = some o →
    hView h * pageSize + off + bs.length ≤ o.pages * pageSize →
    c ∈ s.mem.bad →
    (c ∈ (writeH s h off bs).1.mem.bad ↔ ¬ (addrOf h + off ≤ c ∧ c + cwSize (tierAt s c) ≤ addrOf h + off + bs.length)) ∧
      (partBad s (addrOf h + off) bs.length c = true → (writeH s h off bs).2 = true ∧
        ∀ i, i < cwSize (tierAt s c) → cellGet (writeH s h off bs).1.mem.bytes (c + i) = cellGet s.mem.bytes (c + i)))

/-- A unit that the part lacks (the Offshore engine, the DDR5 tier, a Cliff port): its bit of DEV_CAP is clear, and set for a unit that the part
has; every offset of its CRS block reads 0 for every requester and a read has no effect; a write by any requester changes nothing at all. -/
def Obligations.AbsentUnits : Prop :=
  (∀ (v : Variant), bit (devCap v) 12 = hasOffshore v ∧ bit (devCap v) 13 = hasDdr v ∧ ∀ p, p < 12 → bit (devCap v) p = portPresent v p) ∧
  (∀ (s : State) (req off : Nat) (w : W32),
    ((off / 0x4000 = 30 ∧ hasOffshore s.variant = false) ∨ (off / 0x4000 = 23 ∧ hasDdr s.variant = false) ∨
      (off / 0x4000 = 24 ∧ off % 0x4000 / 0x400 < 12 ∧ portPresent s.variant (off % 0x4000 / 0x400) = false)) →
    crsRead s req off = (s, 0) ∧ crsWrite s req off w = s)

/-- PING answers the lease ticks left, which this very command has renewed (R401, R420). EVENT_ACK drops the events up to the sequence
named and, when events were lost and a place is free, queues one EVENTS_LOST with their number (R425). An opcode outside R420 is
answered UNSUPPORTED (step 10 of R409). Nothing else differs. -/
def Obligations.PingEventAckUnsupported : Prop :=
  (∀ (s : State) (h : EcpHdr), admitted s h 0x0204 [] = true →
    ∃ t, exec (.ping h) s = .next t ∧ Answered s t h 0x0204 0 0 (toBe 4 (rd s CMD_LEASE)) ∧ Frame ecpParts s t) ∧
  (∀ (s : State) (h : EcpHdr) (upTo : W32), admitted s h 0x0205 [] = true →
    ∀ (left : List Ev) (e : Ev), left = (berthOf s h.berth).events.filter (fun e => (upTo - e.seq).toNat ≥ 2 ^ 31) →
    e = ⟨(berthOf s h.berth).evSeq, eventPayload s h.berth 0x00FF 0 0 (toBe 4 (berthOf s h.berth).evLost)⟩ →
    ∃ t, exec (.eventAck h upTo) s = .next t ∧ Frame ecpParts s t ∧ t.swl = { s.swl with slots := slotsAfter s h } ∧
      if (berthOf s h.berth).evLost > 0 ∧ left.length < 1024 then
          AnsweredWith (fun q => { q with
              events := left ++ [e], evSeq := e.seq + 1, evLost := 0, evTick := if left.isEmpty then s.lh.tick else q.evTick })
            [0x1C06 + 0x10 * h.berth] [.event h.iface h.peer h.berth e.seq e.payload] s t h 0x0205 0 0 []
      else AnsweredWith (fun q => { q with events := left }) [] [] s t h 0x0205 0 0 []) ∧
  (∀ (s : State) (h : EcpHdr) (op : Nat), accepted s h = true → knownOpcode op = false →
    (outOfService s = true → servedOos op = true) →
    ∃ t, exec (.unsupportedOpcode h op) s = .next t ∧ Answered s t h op 0x0010 0 [] ∧ Frame ecpParts s t)

/-- DEV_INFO answers the identity of the module and changes nothing else. A HELLO by the admitted identity with a valid signature opens the berth: its old keys
are erased, the new key stands in the berth's first slot with counter 0 and key epoch 0, the answer is kept, every queued event is sent after it,
and window, caches and everything of the job stay (R401). A HELLO equal to the kept one before any authenticated command is answered with the
kept answer and changes nothing (R411). REKEY puts the next key in the berth's other slot and keeps its answer. BERTH_CLOSE is answered OK;
then the berth is CLOSED with no keys, window, cache, events or commands in flight, and its admission stays. -/
def Obligations.SessionOpensRekeysCloses : Prop :=
  (∀ (s : State) (h : EcpHdr),
    intakeUp s h.iface = true → h.version = 1 → (h.berth < 4 ∨ h.berth = 0xFF) → s.sec.life ≠ 4 → coreServes s 6 = true → h.extra = false →
    mgetD s.quay.unauth h.iface 0 < 16 →
    ∃ t, exec (.devInfo h) s = .next t ∧ Frame [.free, .tx, .counts, .quay] s t ∧ t.quay.berths = s.quay.berths ∧
      t.tx = .status h.iface h.peer 0x0101 h.seq h.berth false 0 0 true 0 (devInfoData s) :: s.tx) ∧
  (∀ (s : State) (h : EcpHdr) (major minor : Nat) (encapKey hostKey sig payload : List Byte),
    payload = helloPayload major minor encapKey hostKey sig →
    intakeUp s h.iface = true → h.version = 1 → h.berth < 4 → s.sec.life ≠ 4 → coreServes s (2 + h.berth) = true → coreServes s 1 = true →
    (berthOf s h.berth).closing = false → h.extra = false →
    ((berthOf s h.berth).state = 1 → (berthOf s h.berth).authed = false → (berthOf s h.berth).hello.all (fun p => p.1 ≠ payload) = true) →
    major = 1 → (berthOf s h.berth).admitted = some (Config.sha3 hostKey) →
    Config.mldsa44Verify hostKey (helloHeader h payload.length ++ payload.take 2504) sig = true →
    alarmLatched s = false → swlInReset s = false → keyPending s (2 * h.berth) = 0 → mgetD s.quay.unauth h.iface 0 < 16 →
    ∃ t, exec (.hello h major minor encapKey hostKey sig) s = .next t ∧ Frame [.free, .tx, .counts, .swl, .quay, .eth] s t ∧
      t.swl = { s.swl with
        slots := (mset (mdel (mdel s.swl.slots (2 * h.berth)) (2 * h.berth + 1)) (2 * h.berth)
          { keySlot t (2 * h.berth) with state := 1, owner := 0, dir := 3, epoch := 0, counter := 0, erased := false }) } ∧
      berthOf t h.berth = { berthOf s h.berth with
        state := 1, keyEpoch := 0, keySlot := 2 * h.berth, hostSalt := (berthOf t h.berth).hostSalt, nextKey := none, rekeyAsked := false
        hello := some (payload, ⟨h.seq, 0x0201, 0, 0, 0, keptData t h.berth⟩), authed := false, iface := h.iface, peer := h.peer
        lastCmd := s.lh.tick, evTick := s.lh.tick } ∧
      t.tx = ((berthOf s h.berth).events.reverse.map fun e => .event h.iface h.peer h.berth e.seq e.payload) ++
        .status h.iface h.peer 0x0201 h.seq h.berth false 0 0 true 0 (keptData t h.berth) :: s.tx ∧
      OtherBerths h.berth s t) ∧
  (∀ (s : State) (h : EcpHdr) (major minor : Nat) (encapKey hostKey sig : List Byte) (k : Cached),
    intakeUp s h.iface = true → h.version = 1 → h.berth < 4 → s.sec.life ≠ 4 → coreServes s (2 + h.berth) = true → coreServes s 1 = true →
    (berthOf s h.berth).closing = false → h.extra = false → (berthOf s h.berth).state = 1 → (berthOf s h.berth).authed = false →
    (berthOf s h.berth).hello = some (helloPayload major minor encapKey hostKey sig, k) →
    mgetD s.quay.unauth h.iface 0 < 16 →
    ∃ t, exec (.hello h major minor encapKey hostKey sig) s = .next t ∧ Frame [.free, .tx, .counts, .quay] s t ∧
      t.quay.berths = s.quay.berths ∧
      t.tx = .status h.iface h.peer 0x0201 h.seq h.berth false k.status 0 true k.detail k.data :: s.tx) ∧
  (∀ (s : State) (h : EcpHdr) (encapKey ct : List Byte) (slot : Nat),
    admitted s h 0x0203 [1] = true →
    (berthOf s h.berth).nextKey = none →
    alarmLatched s = false → swlInReset s = false →
    slot = (if (berthOf s h.berth).keySlot = 2 * h.berth then 2 * h.berth + 1 else 2 * h.berth) → keyPending s slot = 0 →
    ct = slice (Config.kemCiphertext encapKey (s.free + 1)) 0 1088 →
    ∃ t, exec (.rekey h encapKey) s = .next t ∧ Frame ecpParts s t ∧
      t.swl = { s.swl with
        slots := (mset s.swl.slots slot { keySlot t slot with
          state := 1, owner := 0, dir := 3, epoch := ((berthOf s h.berth).keyEpoch + 1) % 256, counter := 0, erased := false }) } ∧
      (berthOf t h.berth).nextKey.map (fun n => (n.1, n.2.1)) = some (((berthOf s h.berth).keyEpoch + 1) % 256, slot) ∧
      (berthOf t h.berth).keySlot = (berthOf s h.berth).keySlot ∧
      (berthOf t h.berth).rekeyAns = some (h.seq, ⟨h.seq, 0x0203, 0, 0, 0, ct⟩) ∧
      t.tx = .status h.iface h.peer 0x0203 h.seq h.berth true 0 0 true 0 ct :: s.tx) ∧
  (∀ (s : State) (h : EcpHdr),
    admitted s h 0x0202 [] = true →
    ∃ t, exec (.berthClose h) s = .next t ∧ Frame (footprint (.berthClose h)) s t ∧
      (.status h.iface h.peer 0x0202 h.seq h.berth true 0 0 true 0 [] :: s.tx) <:+ t.tx ∧
      berthOf t h.berth = { Berth.reset with
        admitted := (berthOf s h.berth).admitted, admin := (berthOf s h.berth).admin, closing := holdsArray s h.berth } ∧
      mget t.swl.slots (2 * h.berth) = none ∧ mget t.swl.slots (2 * h.berth + 1) = none ∧
      fget t.shelf.streams h.berth = [] ∧ fget t.shelf.engines h.berth = [])

/-- LEASE_EXPIRY of an OPEN berth whose lease has run out: DETACHED, keys erased, the rest of the session kept. EVENT_RESEND: every queued event
leaves again, in order. SUBMIT_HOLD_TIMEOUT: the packet held too long is answered BUSY and its sequence is unseen again. ECP_PACKET_INVALID: a
packet that fails step 1 of R409 is counted and nothing else. HOST_LINK_DOWN_TIMEOUT raises cause 7 of REPLACE_REQUEST. None of them acts
before its time. -/
def Obligations.SessionTimers : Prop :=
  (∀ (s : State) (b : Nat),
    b < 4 → (berthOf s b).state = 1 → rd s CMD_LEASE ≠ 0 → since s (berthOf s b).lastCmd ≥ rd s CMD_LEASE →
    ∃ t, exec (.leaseExpiry b) s = .next t ∧ Frame [.regs, .swl, .quay] s t ∧ RegsBut [CMD_IRQ_STAT_lease.off] s t ∧
      rdb t CMD_IRQ_STAT_lease = true ∧ berthOf t b = { berthOf s b with state := 2, nextKey := none } ∧
      t.swl = { s.swl with slots := mdel (mdel s.swl.slots (2 * b)) (2 * b + 1) } ∧ OtherBerths b s t) ∧
  (∀ (s : State) (b : Nat),
    ((berthOf s b).state ≠ 1 ∨ rd s CMD_LEASE = 0 ∨ since s (berthOf s b).lastCmd < rd s CMD_LEASE) →
    exec (.leaseExpiry b) s = .next s) ∧
  (∀ (s : State) (b : Nat),
    b < 4 → (berthOf s b).state = 1 → (berthOf s b).events ≠ [] → since s (berthOf s b).evTick ≥ rd1 s CMD_EVT_RTO_ticks →
    ∃ t, exec (.eventResend b) s = .next t ∧ Frame [.tx, .counts, .quay] s t ∧
      t.tx = ((berthOf s b).events.reverse.map fun e => .event (berthOf s b).iface (berthOf s b).peer b e.seq e.payload) ++ s.tx ∧
      berthOf t b = { berthOf s b with evTick := s.lh.tick } ∧ OtherBerths b s t ∧
      mgetD t.counts (0x1C06 + 0x10 * b) 0 = mgetD s.counts (0x1C06 + 0x10 * b) 0 + BitVec.ofNat 64 (berthOf s b).events.length) ∧
  (∀ (s : State) (b : Nat) (seq : W32) (x : HeldSub),
    b < 4 → (berthOf s b).held.find? (fun y => y.seq = seq) = some x → since s x.tick ≥ rd1 s CMD_HOLD_ticks →
    ∃ t, exec (.submitHoldTimeout b seq) s = .next t ∧ Frame [.tx, .regs, .counts, .quay] s t ∧ RegsBut [CMD_IRQ_STAT_busy.off] s t ∧
      berthOf t b = { berthOf s b with
        held := (berthOf s b).held.erase x, inflight := (berthOf s b).inflight.filter (fun p => p.1 ≠ seq)
        seen := (berthOf s b).seen.filter (· ≠ seq) } ∧ OtherBerths b s t ∧
      t.tx = (if (berthOf s b).state = 1 then
        [.status (berthOf s b).iface (berthOf s b).peer (if x.channel.isNone then 0x0401 else 0x0402) seq b true 0x0001 (busyTicks s) true 0 []]
        else []) ++ s.tx) ∧
  (∀ (s : State) (i udpLen : Nat) (p : List Byte),
    intakeUp s i = true → packetOk udpLen p = false →
    ∃ t, exec (.ecpPacketInvalid i udpLen p) s = .next t ∧ Frame [.counts, .quay] s t ∧
      t.quay = { s.quay with invalid := s.quay.invalid + 1 } ∧ CountsBut [0x1B00 + 0x10 * i, 0x1B06 + 0x10 * i] s t ∧
      mgetD t.counts (0x1B00 + 0x10 * i) 0 = mgetD s.counts (0x1B00 + 0x10 * i) 0 + 1) ∧
  (∀ (s : State) (p : Nat),
    p < 2 → portEnabled s p = true → (ifacesOf s p).any (downLong s) = true →
    ∃ t, exec (.hostLinkDownTimeout p) s = .next t ∧ Frame [.tx, .regs, .counts, .quay] s t ∧ ReplaceRaised 7 s t ∧
      RegsBut [RST_REPLACE_causes.off, RST_IRQ_STAT_replace.off, MGT_ALERT.off, CMD_IRQ_STAT_evt_lost.off] s t)

/-- The number of a new object is the first that is not allocated, counting up from the berth's counter and from 1 again after 2^30 − 1; every
number passed is still allocated, and the counter moves to the number after it. So a freed number comes again only when its turn comes round. -/
def Obligations.ObjectNumbers : Prop :=
  ∀ (s : State) (b pages tier policy c : Nat) (moved : NMap PageLoc) (coded : Bool) (t : State) (hd : Hdl),
    b < 4 → 1 ≤ c → c < 2 ^ 30 → fget s.mem.nextObj b = c → s.mem.objects.length ≤ 262144 →
    placeObject s b pages tier policy moved coded = (t, hd) →
    ∃ k, k ≤ s.mem.objects.length ∧ (let n := (c - 1 + k) % (2 ^ 30 - 1) + 1
      objAt s b n = none ∧ (objAt t b n).isSome = true ∧ hd = mkHandle b n ∧
      (∀ j, j < k → (objAt s b ((c - 1 + j) % (2 ^ 30 - 1) + 1)).isSome = true) ∧
      fget t.mem.nextObj b = n % (2 ^ 30 - 1) + 1 ∧
      ∀ m, m ≠ okey b n → mget t.mem.objects m = mget s.mem.objects m)

/-- ALLOC that fits its tier answers the handle of a new object, placed whole in T1 or T2 or by rotation over the channels of T3, and changes no
other object; one that fits its T2 quota but not the zeroed pages of the moment waits in flight; a broken row of R208 is answered with its
reason and allocates nothing. FREE marks the object as freed. OBJECT_RELEASE of a freed object that nothing names removes it and its
bytes and sends its pages to zeroing; one still named stays. MEM_CONFIG that keeps the rules of R211 sets the berth's quotas; one
that asks a KMZ-4120 for T3 pages is answered ABSENT_UNIT (R29). -/
def Obligations.ObjectCommands : Prop :=
  (∀ (s : State) (h : EcpHdr) (size : W64) (tier policy pages n rot : Nat) (moved : NMap PageLoc),
    admitted s h 0x0301 [] = true →
    pages = cdiv size.toNat pageSize → size ≠ 0 → size.toNat ≤ 2 ^ 42 → policy ≤ 3 → tableRoom s 1 pages = true →
    n = nextNumber s h.berth (s.mem.objects.length + 2) (fget s.mem.nextObj h.berth) →
    ((tier = 1 ∧ policy = 0 ∧ pages ≤ freeT1 s h.berth ∧ moved = [] ∧ rot = s.mem.rotate) ∨
      (tier = 2 ∧ pages ≤ freeT2 s h.berth ∧ moved = [] ∧ rot = s.mem.rotate) ∨
      (tier = 3 ∧ hasDdr s.variant = true ∧ pages ≤ quotaT3 s h.berth ∧ t3Pages s 0 pages = some (moved, rot))) →
    ∃ t, exec (.alloc h size tier policy) s = .next t ∧ Frame (.mem :: ecpParts) s t ∧
      Answered s t h 0x0301 0 0 (toBe 6 (mkHandle h.berth n).toNat) ∧
      t.mem = { s.mem with
        objects := (mset s.mem.objects (okey h.berth n)
          ⟨pages * pageSize, pages, tier, policy, moved, false, false, false, s.mem.clock + 1, [], 0, 0⟩)
        nextObj := (fset s.mem.nextObj h.berth (if n + 1 ≥ 2 ^ 30 then 1 else n + 1))
        clock := s.mem.clock + 1, rotate := rot }) ∧
  (∀ (s : State) (h : EcpHdr) (size : W64) (policy pages : Nat),
    admitted s h 0x0301 [] = true →
    pages = cdiv size.toNat pageSize → size ≠ 0 → size.toNat ≤ 2 ^ 42 → policy ≤ 3 → tableRoom s 1 pages = true →
    freeT2 s h.berth < pages → pages ≤ quotaT2 s h.berth →
    ∃ t, exec (.alloc h size 2 policy) s = .next t ∧ Frame (.mem :: ecpParts) s t ∧ TakenWith id [] [] s t h 0x0301 ∧
      t.mem = { s.mem with allocs := s.mem.allocs ++ [⟨h.berth, h.seq, size.toNat, 256 * 2 + policy⟩] }) ∧
  (∀ (s : State) (h : EcpHdr) (size : W64) (tier policy : Nat),
    admitted s h 0x0301 [] = true →
    ∃ t, exec (.alloc h size tier policy) s = .next t ∧
      ((size = 0 ∨ size.toNat > 2 ^ 42) → Answered s t h 0x0301 0x0020 1 [] ∧ Frame ecpParts s t) ∧
      (size ≠ 0 ∧ size.toNat ≤ 2 ^ 42 ∧ tier = 3 ∧ hasDdr s.variant = false → Answered s t h 0x0301 0x0011 0 [] ∧ Frame ecpParts s t) ∧
      (size ≠ 0 ∧ size.toNat ≤ 2 ^ 42 ∧ (tier = 0 ∨ tier > 3) → Answered s t h 0x0301 0x0020 2 [] ∧ Frame ecpParts s t) ∧
      (size ≠ 0 ∧ size.toNat ≤ 2 ^ 42 ∧ tier = 1 ∧ policy ≠ 0 → Answered s t h 0x0301 0x0020 3 [] ∧ Frame ecpParts s t)) ∧
  (∀ (s : State) (h : EcpHdr) (handle : BitVec 48) (o : Obj),
    admitted s h 0x0302 [] = true →
    objOf s handle = some o → hBerth handle = h.berth → o.freeing = false → segmentOperand s h.berth (hObj handle) = false →
    ∃ t, exec (.free h handle) s = .next t ∧ Frame (.mem :: ecpParts) s t ∧ Answered s t h 0x0302 0 0 [] ∧
      t.mem = { s.mem with objects := mset s.mem.objects (okey h.berth (hObj handle)) { o with freeing := true } }) ∧
  (∀ (s : State) (b n : Nat) (o : Obj),
    objAt s b n = some o → o.freeing = true → stillNamed s b n = false → s.mem.allocs = [] →
    ∃ t, exec (.objectRelease b n) s = .next t ∧ Frame [.mem, .bytes] s t ∧ objAt t b n = none ∧ t.mem.objects = mdel s.mem.objects (okey b n) ∧
      BytesBut (objBase b n) (2 ^ 43) s t ∧ BytesZero (objBase b n) (2 ^ 43) t ∧ t.mem.zeroing = zeroPages s.mem.zeroing o) ∧
  (∀ (s : State) (b n : Nat) (o : Obj),
    objAt s b n = some o → (o.freeing = false ∨ stillNamed s b n = true) → exec (.objectRelease b n) s = .next s) ∧
  (∀ (s : State) (h : EcpHdr) (t1 t2 t3 spill bal : Nat),
    admitted s h 0x0303 [] = true →
    (t3 ≠ 0 → hasDdr s.variant = true) → memConfigOk s h.berth t1 t2 t3 spill bal = true → s.mem.allocs = [] →
    ∃ t, exec (.memConfig h t1 t2 t3 spill bal) s = .next t ∧ Frame (.regs :: .mem :: ecpParts) s t ∧ Answered s t h 0x0303 0 0 [] ∧
      RegsBut [(HBR_PART_pages.at h.berth).off, (PGR_T2_QUOTA_pages.at h.berth).off, (PGR_T3_QUOTA_pages.at h.berth).off,
        (PGR_SPILL_pages.at h.berth).off] s t ∧
      rd t (HBR_PART_pages.at h.berth) = t1 ∧ rd t (PGR_T2_QUOTA_pages.at h.berth) = t2 ∧ rd t (PGR_SPILL_pages.at h.berth) = spill ∧
      t3Quota t h.berth = (if hasDdr s.variant then t3 else 0) ∧
      t.mem = { s.mem with balance := fset s.mem.balance h.berth (decide (bal = 1)) }) ∧
  (∀ (s : State) (h : EcpHdr) (t1 t2 t3 spill bal : Nat),
    admitted s h 0x0303 [] = true → t3 ≠ 0 → hasDdr s.variant = false →
    ∃ t, exec (.memConfig h t1 t2 t3 spill bal) s = .next t ∧ Frame ecpParts s t ∧ Answered s t h 0x0303 0x0011 0 [])

/-- WRITE into an object stores its data in place, in whatever tier, changes no other byte and no other object, and then increments the event slot
that its signal names; one that covers an uncorrectable codeword in part is answered DEVICE_FAULT. READ sends the range in data packets of at
most 8,192 bytes, in order, and then its status, and changes no byte; a range with an uncorrectable word, or a dropped tensor, sends nothing.
SIGNAL adds its count to an event slot, modulo 2^16. CODE and DECODE of proper objects wait in flight as Shingle requests, with the lowest FREE table
slot where there is one: BUILDING with the next version for CODE; for DECODE, once the object's pages lie in HBM, LIVE with its record's version. -/
def Obligations.TransferCommands : Prop :=
  (∀ (s : State) (h : EcpHdr) (handle : BitVec 48) (signal : W16) (offset : W64) (data : List Byte) (a : Nat),
    admitted s h 0x0304 [] = true →
    a = addrOf handle + offset.toNat → data ≠ [] → data.length ≤ 8192 → rangeOk s h.berth handle offset.toNat data.length = true →
    badWrite s a data.length = false →
    ∃ t, exec (.write h handle signal offset data) s = .next t ∧ Frame (.shelf :: .mem :: .bytes :: ecpParts) s t ∧
      Answered s t h 0x0304 0 0 [] ∧ peek t a data.length = data ∧ BytesBut a data.length s t ∧
      mdel t.mem.objects (okey h.berth (hObj handle)) = mdel s.mem.objects (okey h.berth (hObj handle)) ∧
      t.shelf = { s.shelf with
        slots := (if bit signal.toNat 15 then mset s.shelf.slots (1024 * h.berth + signal.toNat % 1024)
          (mgetD s.shelf.slots (1024 * h.berth + signal.toNat % 1024) 0 + 1) else s.shelf.slots) }) ∧
  (∀ (s : State) (h : EcpHdr) (handle : BitVec 48) (signal : W16) (offset : W64) (data : List Byte) (a : Nat),
    admitted s h 0x0304 [] = true →
    a = addrOf handle + offset.toNat → data ≠ [] → data.length ≤ 8192 → rangeOk s h.berth handle offset.toNat data.length = true →
    badWrite s a data.length = true →
    ∃ t, exec (.write h handle signal offset data) s = .next t ∧ BytesBut a data.length s t ∧ t.shelf = s.shelf ∧
      t.tx.head? = some (.status h.iface h.peer 0x0304 h.seq h.berth true 0x0080 0 true 0 [])) ∧
  (∀ (s : State) (h : EcpHdr) (handle : BitVec 48) (offset : W64) (length pace a : Nat),
    admitted s h 0x0305 [] = true →
    a = addrOf handle + offset.toNat → 1 ≤ length → length ≤ 1048576 → rangeOk s h.berth handle offset.toNat length = true →
    badRange s a length = false →
    ∃ t, exec (.read h handle offset length pace) s = .next t ∧ Frame (.mem :: ecpParts) s t ∧
      AnsweredWith id [] ((chunks 8192 (peek s a length)).mapIdx fun i c =>
        Tx.data h.iface h.peer h.seq h.berth (offset.toNat + 8192 * i) c).reverse s t h 0x0305 0 0 []) ∧
  (∀ (s : State) (h : EcpHdr) (handle : BitVec 48) (offset : W64) (length pace : Nat),
    admitted s h 0x0305 [] = true →
    (length = 0 ∨ length > 1048576 ∨ rangeOk s h.berth handle offset.toNat length = false ∨ isDropped s handle = true) →
    ∃ t, exec (.read h handle offset length pace) s = .next t ∧ Frame ecpParts s t ∧ Answered s t h 0x0305 0x0020 0 []) ∧
  (∀ (s : State) (h : EcpHdr) (handle : BitVec 48) (offset : W64) (length pace a : Nat),
    admitted s h 0x0305 [] = true →
    a = addrOf handle + offset.toNat → 1 ≤ length → length ≤ 1048576 → rangeOk s h.berth handle offset.toNat length = true →
    badRange s a length = true →
    ∃ t, exec (.read h handle offset length pace) s = .next t ∧
      t.tx.head? = some (.status h.iface h.peer 0x0305 h.seq h.berth true 0x0080 0 true 0 [])) ∧
  (∀ (s : State) (h : EcpHdr) (slot n : Nat),
    admitted s h 0x0308 [] = true →
    slot ≤ 1023 → 1 ≤ n → n ≤ 32767 →
    ∃ t, exec (.signal h slot n) s = .next t ∧ Frame (.shelf :: ecpParts) s t ∧ Answered s t h 0x0308 0 0 [] ∧
      t.shelf = { s.shelf with slots := (mset s.shelf.slots (1024 * h.berth + slot)
        (mgetD s.shelf.slots (1024 * h.berth + slot) 0 + BitVec.ofNat 16 n)) }) ∧
  (∀ (s : State) (h : EcpHdr) (slot n : Nat),
    admitted s h 0x0308 [] = true →
    (slot > 1023 ∨ n = 0 ∨ n > 32767) →
    ∃ t, exec (.signal h slot n) s = .next t ∧ Frame ecpParts s t ∧ Answered s t h 0x0308 0x0020 0 []) ∧
  (∀ (s : State) (h : EcpHdr) (src dst : BitVec 48) (fmt : Nat) (o d : Obj),
    admitted s h 0x0306 [] = true →
    allocated s h.berth src = true → allocated s h.berth dst = true → objOf s src = some o → objOf s dst = some d →
    o.dropped = false → d.dropped = false → o.coded = false → d.coded = false → d.policy ≤ 1 → hView dst = 0 → codedFmt fmt = true →
    ∃ t, exec (.code h src dst fmt) s = .next t ∧ Frame (.regs :: .shg :: ecpParts) s t ∧ TakenWith id [] [] s t h 0x0306 ∧
      RegsBut [SHG_IRQ_STAT_slot_wait.off] s t ∧
      t.shg.reqs = s.shg.reqs ++ [⟨h.berth, h.seq, false, src, dst, fmt, freeTslot s, none⟩] ∧
      (freeTslot s).all (fun n => (tslot t n).state = 1 ∧ (tslot t n).version = ((tslot s n).version + 1) % 16) = true) ∧
  (∀ (s : State) (h : EcpHdr) (src dst : BitVec 48) (o d : Obj),
    admitted s h 0x0307 [] = true →
    allocated s h.berth src = true → allocated s h.berth dst = true → objOf s src = some o → objOf s dst = some d →
    o.dropped = false → d.dropped = false → o.coded = true → hView src = 0 →
    ∃ t, exec (.decode h src dst) s = .next t ∧ Frame (.regs :: .shg :: .mem :: ecpParts) s t ∧ TakenWith id [] [] s t h 0x0307 ∧
      RegsBut [SHG_IRQ_STAT_slot_wait.off] s t ∧ t.mem.objects = s.mem.objects ∧
      t.shg.reqs = s.shg.reqs ++ [⟨h.berth, h.seq, true, src, dst, 0, if missingPages s [src] = [] then freeTslot s else none, none⟩] ∧
      (missingPages s [src] = [] → (freeTslot s).all (fun n => (tslot t n).state = 2 ∧
        (tslot t n).version = recordVersion (peek s (addrOf src) 640)) = true))

/-- A packet whose index is the next expected position is placed whole and the position moves past it; one above it is held in flight for its
gap, eight at most, and then answered BUSY; one wholly below is answered OK and places nothing; one that only overlaps is answered BAD_PARAM;
one that does not fit is answered BUSY. Descriptors that come into the lookahead window only queue prefetches (R213). A POST_COLL places queue entries on its channel and templates in posting order. -/
def Obligations.SubmissionOrder : Prop :=
  (∀ (s : State) (h : EcpHdr) (index : W32) (descs : List (List Byte)),
    admitted s h 0x0401 [] = true → descs ≠ [] → descs.length ≤ 64 →
    index = (berthOf s h.berth).pos → (berthOf s h.berth).held = [] → (fget s.shelf.streams h.berth).length + descs.length ≤ 16384 →
    ∃ t, exec (.submit h index descs) s = .next t ∧ Frame (.shelf :: .mem :: ecpParts) s t ∧
      AnsweredWith (fun q => { q with pos := q.pos + BitVec.ofNat 32 descs.length }) [] [] s t h 0x0401 0 0 [] ∧
      t.mem = { s.mem with wants := t.mem.wants, entered := t.mem.entered } ∧ t.mem.wants.take s.mem.wants.length = s.mem.wants ∧
      (t.mem.wants.drop s.mem.wants.length).all (fun w => w.level = 3) = true ∧
      t.shelf = { s.shelf with streams := (fset s.shelf.streams h.berth (fget s.shelf.streams h.berth ++ descs)) }) ∧
  (∀ (s : State) (h : EcpHdr) (index : W32) (descs : List (List Byte)),
    admitted s h 0x0401 [] = true → descs ≠ [] → descs.length ≤ 64 →
    0 < (index - (berthOf s h.berth).pos).toNat → (index - (berthOf s h.berth).pos).toNat < 2 ^ 31 → (berthOf s h.berth).held.length < 8 →
    ∃ t, exec (.submit h index descs) s = .next t ∧ Frame ecpParts s t ∧
      TakenWith (fun q => { q with held := q.held ++ [⟨h.seq, h.iface, h.peer, none, index, descs, s.lh.tick⟩] }) [] [] s t h 0x0401) ∧
  (∀ (s : State) (h : EcpHdr) (index : W32) (descs : List (List Byte)),
    admitted s h 0x0401 [] = true → descs ≠ [] → descs.length ≤ 64 →
    ((0 < (index - (berthOf s h.berth).pos).toNat ∧ (index - (berthOf s h.berth).pos).toNat < 2 ^ 31 ∧ (berthOf s h.berth).held.length ≥ 8) ∨
      (index = (berthOf s h.berth).pos ∧ (fget s.shelf.streams h.berth).length + descs.length > 16384 ∧ (berthOf s h.berth).held = [])) →
    ∃ t, exec (.submit h index descs) s = .next t ∧ Frame (.regs :: ecpParts) s t ∧
      (berthOf t h.berth).high = (berthOf s h.berth).high ∧ (berthOf t h.berth).seen = (berthOf s h.berth).seen ∧
      t.tx = .status h.iface h.peer 0x0401 h.seq h.berth true 0x0001 (busyTicks s) true 0 [] :: s.tx) ∧
  (∀ (s : State) (h : EcpHdr) (index : W32) (descs : List (List Byte)) (below : Nat),
    admitted s h 0x0401 [] = true → descs ≠ [] → descs.length ≤ 64 →
    below = ((berthOf s h.berth).pos - index).toNat → 0 < below → below ≤ 2 ^ 31 → (berthOf s h.berth).held = [] →
    ∃ t, exec (.submit h index descs) s = .next t ∧ Frame ecpParts s t ∧
      if descs.length ≤ below then Answered s t h 0x0401 0 0 [] else Answered s t h 0x0401 0x0020 0 []) ∧
  (∀ (s : State) (h : EcpHdr) (channel : Nat) (index : W32) (descs : List (List Byte)),
    admitted s h 0x0402 [] = true → descs ≠ [] → descs.length ≤ 128 → channel ≤ 15 →
    index = (chanOf s h.berth channel).pos → (berthOf s h.berth).held = [] →
    (chanOf s h.berth channel).queue.length + (descs.filter fun d => !(parseColl d).onTrig).length ≤ 256 →
    (descs.any (fun d => (parseColl d).op = 7) = true → atBoundary s h.berth = true) →
    (postAll h.berth channel descs s).isSome = true →
    ∃ t, exec (.postColl h channel index descs) s = .next t ∧ Frame (.lsh :: ecpParts) s t ∧ Answered s t h 0x0402 0 0 [] ∧
      chanOf t h.berth channel = { chanOf s h.berth channel with
        queue := (chanOf s h.berth channel).queue ++ descs.filter (fun d => !(parseColl d).onTrig)
        pos := index + BitVec.ofNat 32 descs.length } ∧
      fget t.lsh.templates h.berth = fget s.lsh.templates h.berth ++ descs.filter (fun d => (parseColl d).onTrig)) ∧
  (∀ (s : State) (h : EcpHdr) (channel : Nat) (index : W32) (descs : List (List Byte)),
    admitted s h 0x0402 [] = true → descs ≠ [] → descs.length ≤ 128 → channel ≤ 15 →
    0 < (index - (chanOf s h.berth channel).pos).toNat → (index - (chanOf s h.berth channel).pos).toNat < 2 ^ 31 →
    (berthOf s h.berth).held.length < 8 →
    ∃ t, exec (.postColl h channel index descs) s = .next t ∧ Frame ecpParts s t ∧
      TakenWith (fun q => { q with held := q.held ++ [⟨h.seq, h.iface, h.peer, some channel, index, descs, s.lh.tick⟩] }) [] [] s t h 0x0402)

/-- STREAM_RESUME lifts the halt; mode 0 drops the rejected descriptor, mode 1 keeps it. STREAM_FLUSH empties the stream and the channels named, sets the
next index, forgets held packets without an answer and lifts the halt; channels not named keep their work. RECOMPUTE_REG with a proper segment
registers it for its tensor. CENSUS_READ answers the sixteen totals of each layer. STREAM_MODE writes mode and pause of its own berth; pause 0 also
ends a pause of R194. -/
def Obligations.StreamCommands : Prop :=
  (∀ (s : State) (h : EcpHdr) (mode : Nat),
    admitted s h 0x0403 [] = true → mode ≤ 1 → fget s.shelf.undecided h.berth = false →
    ∃ t, exec (.streamResume h mode) s = .next t ∧ Frame (.shelf :: .mem :: ecpParts) s t ∧ Answered s t h 0x0403 0 0 [] ∧
      t.mem = { s.mem with entered := (if mode = 0 ∧ (fget s.shelf.rejected h.berth).isSome = true then
        fset s.mem.entered h.berth (fget s.mem.entered h.berth - 1) else s.mem.entered) } ∧
      t.shelf = { s.shelf with
        halted := (fset s.shelf.halted h.berth false), rejected := (fset s.shelf.rejected h.berth none)
        fetched := (fset s.shelf.fetched h.berth false)
        undecided := (fset s.shelf.undecided h.berth false)
        streams := (if mode = 0 ∧ (fget s.shelf.rejected h.berth).isSome = true then
          fset s.shelf.streams h.berth (fget s.shelf.streams h.berth).tail else s.shelf.streams) }) ∧
  (∀ (s : State) (h : EcpHdr) (mode : Nat),
    admitted s h 0x0403 [] = true → mode ≤ 1 → fget s.shelf.undecided h.berth = true →
    ∃ t, exec (.streamResume h mode) s = .next t ∧ Frame (footprint (.streamResume h mode)) s t ∧
      fget t.shelf.undecided h.berth = false ∧ t.tx.head? = some (.status h.iface h.peer 0x0403 h.seq h.berth true 0 0 true 0 [])) ∧
  (∀ (s : State) (h : EcpHdr) (index : W32) (mask : W16),
    admitted s h 0x0404 [] = true → ((fget s.lsh.permute h.berth).phase = 0 ∨ bit mask.toNat 0 = false) → fget s.shelf.undecided h.berth = false →
    (∀ c ∈ allChans, bit mask.toNat c = false → (chanOf s h.berth c).active = []) →
    ∃ t, exec (.streamFlush h index mask) s = .next t ∧ Frame (.shelf :: .lsh :: .mem :: ecpParts) s t ∧
      AnsweredWith (fun q => { q with
        inflight := q.inflight.filter (fun p => !(q.held.any fun x =>
          (match x.channel with | none => true | some c => bit mask.toNat c) && x.seq = p.1))
        held := q.held.filter (fun x => !(match x.channel with | none => true | some c => bit mask.toNat c)), pos := index })
        [] [] s t h 0x0404 0 0 [] ∧
      t.mem = { s.mem with
        entered := fset s.mem.entered h.berth 0, wants := s.mem.wants.filter fun w => !(w.berth = h.berth && w.level = 3) } ∧
      t.shelf.running = s.shelf.running ∧ t.shelf.slots = s.shelf.slots ∧ t.lsh.live = s.lsh.live ∧ t.lsh.templates = s.lsh.templates ∧
      (List.range 16).all (fun c => chanOf t h.berth c = if bit mask.toNat c then
        { chanOf s h.berth c with queue := [], active := [], pos := 0, halted := false } else chanOf s h.berth c) = true) ∧
  (∀ (s : State) (h : EcpHdr) (index : W32) (mask : W16),
    admitted s h 0x0404 [] = true → ((fget s.lsh.permute h.berth).phase = 0 ∨ bit mask.toNat 0 = false) →
    ∃ t, exec (.streamFlush h index mask) s = .next t ∧ Frame (footprint (.streamFlush h index mask)) s t ∧
      t.tx.head? = some (.status h.iface h.peer 0x0404 h.seq h.berth true 0 0 true 0 []) ∧ (berthOf t h.berth).pos = index ∧
      fget t.shelf.streams h.berth = [] ∧ fget t.shelf.halted h.berth = false ∧ fget t.shelf.rejected h.berth = none ∧
      fget t.shelf.undecided h.berth = false ∧ fget t.shelf.fetched h.berth = false ∧
      (List.range 16).all (fun c => bit mask.toNat c == false || ((chanOf t h.berth c).queue.isEmpty && (chanOf t h.berth c).active.isEmpty
        && !(chanOf t h.berth c).halted && (chanOf t h.berth c).pos = 0)) = true) ∧
  (∀ (s : State) (h : EcpHdr) (handle : BitVec 48) (descs : List (List Byte)) (o : Obj),
    admitted s h 0x0405 [] = true → descs ≠ [] → descs.length ≤ 64 → fget s.mem.balance h.berth = false →
    objAt s h.berth (hObj handle) = some o → segmentOk s h.berth handle descs = true →
    (s.mem.objects.filter fun p => !p.2.segment.isEmpty && p.1 ≠ okey h.berth (hObj handle)).length < 1024 →
    ∃ t, exec (.recomputeReg h handle descs) s = .next t ∧ Frame (.mem :: ecpParts) s t ∧ Answered s t h 0x0405 0 0 [] ∧
      t.mem = { s.mem with objects := mset s.mem.objects (okey h.berth (hObj handle)) { o with segment := descs } }) ∧
  (∀ (s : State) (h : EcpHdr) (layer n : Nat),
    admitted s h 0x0406 [] = true → 1 ≤ n → n ≤ 64 → layer + n ≤ 65536 →
    ∃ t, exec (.censusRead h layer n) s = .next t ∧ Frame ecpParts s t ∧
      Answered s t h 0x0406 0 0 ((rangeFrom layer n).flatMap fun l => toBe 2 l ++ zeros 6 ++
        ((mget s.num.totals (65536 * h.berth + l)).getD (List.replicate 16 0)).flatMap fun v => toBe 8 v.toNat)) ∧
  (∀ (s : State) (h : EcpHdr) (mode pause : Nat),
    admitted s h 0x0407 [] = true → mode ≤ 1 → pause ≤ 1 →
    ∃ t, exec (.streamMode h mode pause) s = .next t ∧ Frame (.regs :: .upd :: ecpParts) s t ∧ Answered s t h 0x0407 0 0 [] ∧
      RegsBut [(SHF_BERTH_CTL_mode.at h.berth).off] s t ∧ rd t (SHF_BERTH_CTL_mode.at h.berth) = mode ∧
      rd t (SHF_BERTH_CTL_pause.at h.berth) = pause ∧
      rd t (SHF_BERTH_CTL_enable.at h.berth) = rd s (SHF_BERTH_CTL_enable.at h.berth) ∧
      t.upd = { s.upd with paused := (if pause = 0 then fset s.upd.paused h.berth false else s.upd.paused) })

/-- GROUP_WRITE of an entry that keeps its ranges, whose place is free and whose member list names this module at its rank, stores the entry live
or staged with the members as read, and answers D and the hop counts; a close group is stored only when its members are connected.
GROUP_RELEASE removes the entry, unless a template or work names it. DISCOVER takes coordinate 0, the tag and the sizes as the anchor, sends the assign
message on every UP port and waits for the walk; a ring of one module ends at once; sizes out of range are BAD_PARAM. TEMPLATE_CLEAR drops the
layer's templates and no others. -/
def Obligations.MappingCommands : Prop :=
  (∀ (s : State) (h : EcpHdr) (entry : List Byte) (g : GrpD) (ws : List Nat) (d : Nat),
    admitted s h 0x0501 [] = true → g = parseGrp entry → ws = memberWords s g →
    allocated s h.berth g.members = true → isCoded s g.members = false → 4 * g.size ≤ extent s g.members → badRange s (addrOf g.members) (4 * g.size) = false →
    grpFieldsOk h.berth g = true → grpPlaceOk s h.berth g = true → membersOk s g ws = true →
    ((g.axis ≠ 4 ∧ d = 0) ∨ (g.axis = 4 ∧ closeDiam s ws = some d)) →
    ∃ t, exec (.groupWrite h entry) s = .next t ∧ Frame (.lsh :: ecpParts) s t ∧
      Answered s t h 0x0501 0 0 (toBe 1 (min d 255) ++ toBe 4 (planHops s g.plan ws).1 ++ toBe 4 (planHops s g.plan ws).2) ∧
      t.lsh = (let e : Group := ⟨entry, ws, 0, if g.axis = 4 then nbrsIn s ws (ownId s) else [], d⟩
        if g.staged then { s.lsh with staged := mset s.lsh.staged (65536 * h.berth + g.group) e }
        else { s.lsh with live := mset s.lsh.live (65536 * h.berth + g.group) e })) ∧
  (∀ (s : State) (h : EcpHdr) (entry : List Byte) (g : GrpD),
    admitted s h 0x0501 [] = true → g = parseGrp entry → (grpFieldsOk h.berth g = false ∨ grpPlaceOk s h.berth g = false) →
    badRange s (addrOf g.members) (4 * g.size) = false →
    ∃ t, exec (.groupWrite h entry) s = .next t ∧ Frame ecpParts s t ∧ Answered s t h 0x0501 0x0020 0 []) ∧
  (∀ (s : State) (h : EcpHdr) (group k : Nat),
    admitted s h 0x0502 [] = true → k = 65536 * h.berth + group → ((mget s.lsh.live k).isSome = true ∨ (mget s.lsh.staged k).isSome = true) →
    (fget s.lsh.templates h.berth).any (fun d => (parseColl d).group = group) = false → groupBusy s h.berth group = false →
    ∃ t, exec (.groupRelease h group) s = .next t ∧ Frame (.lsh :: ecpParts) s t ∧ Answered s t h 0x0502 0 0 [] ∧
      t.lsh = { s.lsh with live := mdel s.lsh.live k, staged := mdel s.lsh.staged k }) ∧
  (∀ (s : State) (h : EcpHdr) (group k : Nat),
    admitted s h 0x0502 [] = true → k = 65536 * h.berth + group →
    ∃ t, exec (.groupRelease h group) s = .next t ∧
      ((mget s.lsh.live k).isSome = false ∧ (mget s.lsh.staged k).isSome = false → Answered s t h 0x0502 0x0020 1 [] ∧ Frame ecpParts s t) ∧
      ((mget s.lsh.live k).isSome = true ∧ (fget s.lsh.templates h.berth).any (fun d => (parseColl d).group = group) = true →
        Answered s t h 0x0502 0x0020 2 [] ∧ Frame ecpParts s t)) ∧
  (∀ (s : State) (h : EcpHdr) (tag sx sy sz : Nat),
    admitted s h 0x0503 [7] = true → 1 ≤ sx → sx ≤ 64 → 1 ≤ sy → sy ≤ 64 → 1 ≤ sz → sz ≤ 32 → tag < 2 ^ 16 →
    s.clf.walk = none → discovered s = false →
    ∃ t, exec (.discover h tag sx sy sz) s = .next t ∧ Frame (.regs :: .clf :: ecpParts) s t ∧
      RegsBut [CLF_COORD_x.off, CLF_DOMAIN_tag.off, CLF_DIMS_sx.off, CLF_DISC_COUNT_reports.off, CLF_IRQ_STAT_disc_done.off] s t ∧
      discovered t = true ∧ rdb t CLF_COORD_anchor = true ∧ ownId t = 0 ∧ rd t CLF_DOMAIN_tag = tag ∧
      rd t CLF_DIMS_sx = sx ∧ rd t CLF_DIMS_sy = sy ∧ rd t CLF_DIMS_sz = sz ∧
      (let out := ((upPorts s).map fun r => Tx.walk r 0 [0, 0, 0, tag, sx, sy, sz, r]).reverse
        if sx * sy * sz = 1 then AnsweredWith id [] out s t h 0x0503 0 0 (zeros 8) ∧ t.clf = { s.clf with walkAt := s.lh.tick }
        else TakenWith id [] out s t h 0x0503 ∧ t.clf = { s.clf with walk := some ⟨h.berth, h.seq, s.lh.tick, false⟩, walkAt := s.lh.tick })) ∧
  (∀ (s : State) (h : EcpHdr) (tag sx sy sz : Nat),
    admitted s h 0x0503 [7] = true → (sx = 0 ∨ 64 < sx ∨ sy = 0 ∨ 64 < sy ∨ sz = 0 ∨ 32 < sz) →
    ∃ t, exec (.discover h tag sx sy sz) s = .next t ∧ Frame ecpParts s t ∧ Answered s t h 0x0503 0x0020 0 []) ∧
  (∀ (s : State) (h : EcpHdr) (layer : Nat),
    admitted s h 0x0504 [] = true →
    ∃ t, exec (.templateClear h layer) s = .next t ∧ Frame (.lsh :: ecpParts) s t ∧ Answered s t h 0x0504 0 0 [] ∧
      t.lsh = { s.lsh with templates := (fset s.lsh.templates h.berth
        ((fget s.lsh.templates h.berth).filter fun d => (parseColl d).layer ≠ layer)) })

/-- FSLOT_ALLOC takes the lowest free of the 4,096 slots for the berth and answers its number; with none free it is BAD_PARAM. FSLOT_WRITE of a descriptor
that keeps its ranges replaces the descriptor of a slot of the berth and nothing else of the slot; the first one with a handle_p also creates the slot's
record, NO_STATS in its byte 19, and writes no byte outside the record and the two result buffers; any other, or a slot of another berth, is
BAD_PARAM and writes nothing. FSLOT_RELEASE removes the slot, but is BUSY while its refresh or reduce is in progress. SOLVER_WS and UPD_WS set the
berth's workspace handle; a handle that is not allocated is BAD_PARAM. -/
def Obligations.SlotsAndWorkspaces : Prop :=
  (∀ (s : State) (h : EcpHdr) (n : Nat),
    admitted s h 0x0601 [] = true → n < 4096 → mget s.snd.slots n = none →
    (∀ m, m < n → (mget s.snd.slots m).isSome = true) →
    ∃ t, exec (.fslotAlloc h) s = .next t ∧ Frame (.snd :: ecpParts) s t ∧ Answered s t h 0x0601 0 0 (toBe 2 n) ∧
      t.snd = { s.snd with slots := mset s.snd.slots n (FSlot.fresh h.berth) }) ∧
  (∀ (s : State) (h : EcpHdr),
    admitted s h 0x0601 [] = true → (∀ m, m < 4096 → (mget s.snd.slots m).isSome = true) →
    ∃ t, exec (.fslotAlloc h) s = .next t ∧ Frame ecpParts s t ∧ Answered s t h 0x0601 0x0020 0 []) ∧
  (∀ (s : State) (h : EcpHdr) (slot : Nat) (desc : List Byte) (f : FSlot),
    admitted s h 0x0602 [] = true → mget s.snd.slots slot = some f →
    (f.desc.isSome = true ∨ (parseFs desc).op = 0 ∨ (parseFs desc).owner = false ∨ f.berth ≠ h.berth ∨ fslotOk s h.berth (parseFs desc) = false) →
    ∃ t, exec (.fslotWrite h slot desc) s = .next t ∧ Frame (.snd :: ecpParts) s t ∧
      if f.berth = h.berth ∧ fslotOk s h.berth (parseFs desc) = true then
        Answered s t h 0x0602 0 0 [] ∧ t.snd = { s.snd with slots := mset s.snd.slots slot { f with desc := some desc } }
      else Answered s t h 0x0602 0x0020 0 [] ∧ t.snd = s.snd) ∧
  (∀ (s : State) (h : EcpHdr) (slot : Nat) (desc : List Byte) (f : FSlot) (d : FsD),
    admitted s h 0x0602 [] = true → mget s.snd.slots slot = some f → f.berth = h.berth → f.desc = none → d = parseFs desc →
    fslotOk s h.berth d = true → d.op ≠ 0 → d.owner = true → badRange s (addrOf d.hp) (64 + 8 * d.elems) = false →
    ∃ t, exec (.fslotWrite h slot desc) s = .next t ∧ Frame (.snd :: .bytes :: ecpParts) s t ∧ Answered s t h 0x0602 0 0 [] ∧
      t.snd = { s.snd with slots := mset s.snd.slots slot { f with desc := some desc } } ∧
      BytesBut (addrOf d.hp) (64 + 8 * d.elems) s t ∧ peek t (addrOf d.hp) 64 = zeros 19 ++ [3] ++ zeros 44) ∧
  (∀ (s : State) (h : EcpHdr) (slot : Nat) (f : FSlot),
    admitted s h 0x0603 [] = true → mget s.snd.slots slot = some f → f.berth = h.berth →
    ∃ t, exec (.fslotRelease h slot) s = .next t ∧ Frame (.regs :: .snd :: ecpParts) s t ∧
      if slotBusy s h.berth slot = true then
        t.tx = .status h.iface h.peer 0x0603 h.seq h.berth true 0x0001 (busyTicks s) true 0 [] :: s.tx ∧ t.snd = s.snd ∧
          (berthOf t h.berth).high = (berthOf s h.berth).high
      else Answered s t h 0x0603 0 0 [] ∧ t.snd = { s.snd with slots := mdel s.snd.slots slot } ∧ t.regs = s.regs) ∧
  (∀ (s : State) (h : EcpHdr) (handle : BitVec 48),
    admitted s h 0x0604 [] = true →
    ∃ t, exec (.solverWs h handle) s = .next t ∧ Frame (.slv :: ecpParts) s t ∧
      if allocated s h.berth handle = true then
        Answered s t h 0x0604 0 0 [] ∧ t.slv = { s.slv with workspace := (fset s.slv.workspace h.berth handle) }
      else Answered s t h 0x0604 0x0020 0 [] ∧ t.slv = s.slv) ∧
  (∀ (s : State) (h : EcpHdr) (handle : BitVec 48),
    admitted s h 0x0608 [] = true →
    ∃ t, exec (.updWs h handle) s = .next t ∧ Frame (.upd :: ecpParts) s t ∧
      if allocated s h.berth handle = true then
        Answered s t h 0x0608 0 0 [] ∧ t.upd = { s.upd with workspace := (fset s.upd.workspace h.berth handle) }
      else Answered s t h 0x0608 0x0020 0 [] ∧ t.upd = s.upd)

/-- SHARD_WRITE of a proper descriptor registers a new shard with its commit word at the berth's step; for a registered shard it replaces the
descriptor at once, or from the next boundary when the shard's update has begun; an improper one is BAD_PARAM. SHARD_RELEASE removes the shard
and its waiting fetches. STATE_LOAD copies a version-slot image into the live slot and sets step_lo. PROG_LOAD stores a program that passes the
checks; one that fails is BAD_PARAM with its fault code, recorded in UPD_ERR. SCHED_WRITE replaces a channel's descriptor and keeps its value.
STEP_SET sets the step counter and evaluates the channels, but is BUSY once a trigger was posted in the step. -/
def Obligations.ShardCommands : Prop :=
  (∀ (s : State) (h : EcpHdr) (n : Nat) (desc : List Byte),
    admitted s h 0x0605 [] = true → shardOk s h.berth n (parseSh desc) = true → shardOf s n = none →
    ∃ t, exec (.shardWrite h n desc) s = .next t ∧ Frame (.upd :: ecpParts) s t ∧ Answered s t h 0x0605 0 0 [] ∧
      t.upd = { s.upd with shards := (mset s.upd.shards n ⟨h.berth, desc, none, 0, false, (fget s.upd.steps h.berth).setWidth 32, 0, false⟩) }) ∧
  (∀ (s : State) (h : EcpHdr) (n : Nat) (desc : List Byte) (x : Shard),
    admitted s h 0x0605 [] = true → shardOk s h.berth n (parseSh desc) = true → mget s.upd.shards n = some x →
    ∃ t, exec (.shardWrite h n desc) s = .next t ∧ Frame (.upd :: ecpParts) s t ∧ Answered s t h 0x0605 0 0 [] ∧
      t.upd = { s.upd with shards := (mset s.upd.shards n
        (if (updateOf s n).isSome = true ∨ x.reduced ≠ 0 ∨ x.started = true then { x with next := some desc }
          else { x with desc := desc, next := none })) }) ∧
  (∀ (s : State) (h : EcpHdr) (n : Nat) (desc : List Byte),
    admitted s h 0x0605 [] = true → shardOk s h.berth n (parseSh desc) = false →
    ∃ t, exec (.shardWrite h n desc) s = .next t ∧ Frame ecpParts s t ∧ Answered s t h 0x0605 0x0020 0 []) ∧
  (∀ (s : State) (h : EcpHdr) (n : Nat) (x : Shard),
    admitted s h 0x0606 [] = true → mget s.upd.shards n = some x → x.berth = h.berth → shardBusy s n = false →
    shardStreamed s h.berth n = false →
    ∃ t, exec (.shardRelease h n) s = .next t ∧ Frame (.upd :: ecpParts) s t ∧ Answered s t h 0x0606 0 0 [] ∧
      t.upd = { s.upd with shards := mdel s.upd.shards n, fetches := (s.upd.fetches.filter fun f => f.shard ≠ n) }) ∧
  (∀ (s : State) (h : EcpHdr) (n : Nat) (step : W64) (handle : BitVec 48) (x : Shard) (len : Nat),
    admitted s h 0x0607 [] = true → mget s.upd.shards n = some x → x.berth = h.berth → allocated s h.berth handle = true →
    isDropped s handle = false → len = (parseSh x.desc).slotLen → len ≤ extent s handle → shardBusy s n = false →
    len ≤ 2 ^ 43 →
    badRange s (addrOf handle) len = false → badWrite s (addrOf (liveH x)) len = false →
    ∃ t, exec (.stateLoad h n step handle) s = .next t ∧ Frame (footprint (.stateLoad h n step handle)) s t ∧
      t.tx = .status h.iface h.peer 0x0607 h.seq h.berth true 0 0 true 0 [] :: s.tx ∧
      peek t (addrOf (liveH x)) len = peek s (addrOf handle) len ∧ BytesBut (addrOf (liveH x)) len s t ∧
      t.upd = { s.upd with shards := (mset s.upd.shards n { x with stepLo := step.setWidth 32 }) }) ∧
  (∀ (s : State) (h : EcpHdr) (slot : Nat) (words : List W32),
    admitted s h 0x0609 [] = true → slot < 32 → (mget s.upd.progs slot).all (fun p => p.berth = h.berth) = true → progNamed s slot = false →
    progCheck words = none →
    ∃ t, exec (.progLoad h slot words) s = .next t ∧ Frame (.upd :: ecpParts) s t ∧ Answered s t h 0x0609 0 0 [] ∧
      t.upd = { s.upd with progs := (mset s.upd.progs slot ⟨h.berth, words⟩) }) ∧
  (∀ (s : State) (h : EcpHdr) (slot : Nat) (words : List W32) (code i : Nat),
    admitted s h 0x0609 [] = true → slot < 32 → (mget s.upd.progs slot).all (fun p => p.berth = h.berth) = true → progNamed s slot = false →
    progCheck words = some (code, i) →
    ∃ t, exec (.progLoad h slot words) s = .next t ∧ Frame (.regs :: ecpParts) s t ∧ Answered s t h 0x0609 0x0020 code [] ∧
      RegsBut [UPD_IRQ_STAT_prog_reject.off, UPD_ERR_code.off] s t ∧ rdb t UPD_IRQ_STAT_prog_reject = true ∧ rd t UPD_ERR_code = code ∧
      rd t UPD_ERR_slot = slot ∧ rd t UPD_ERR_instr = i ∧ rd t UPD_ERR_berth = h.berth) ∧
  (∀ (s : State) (h : EcpHdr) (slot : Nat) (words : List W32),
    admitted s h 0x0609 [] = true →
    ∃ t, exec (.progLoad h slot words) s = .next t ∧
      (32 ≤ slot → Answered s t h 0x0609 0x0020 0x09 [] ∧ Frame ecpParts s t) ∧
      (slot < 32 → (mget s.upd.progs slot).any (fun p => p.berth ≠ h.berth) = true → Answered s t h 0x0609 0x0020 0x0A [] ∧ Frame ecpParts s t)) ∧
  (∀ (s : State) (h : EcpHdr) (channel : Nat) (desc : List Byte),
    admitted s h 0x060A [] = true →
    ∃ t, exec (.schedWrite h channel desc) s = .next t ∧ Frame (.upd :: ecpParts) s t ∧
      if chanRefused channel desc = true then Answered s t h 0x060A 0x0020 0 [] ∧ t.upd = s.upd
      else Answered s t h 0x060A 0 0 [] ∧ t.upd = { s.upd with chans := (mset s.upd.chans (64 * h.berth + channel)
        (match mget s.upd.chans (64 * h.berth + channel) with
          | some c => { c with desc := desc }
          | none => ⟨desc, none, false, 0⟩)) }) ∧
  (∀ (s : State) (h : EcpHdr) (step : W64),
    admitted s h 0x060B [] = true →
    ∃ t, exec (.stepSet h step) s = .next t ∧ Frame (.regs :: .upd :: ecpParts) s t ∧
      if fget s.shelf.posted h.berth ≠ 0 then
        t.tx = .status h.iface h.peer 0x060B h.seq h.berth true 0x0001 (busyTicks s) true 0 [] :: s.tx ∧ t.upd = s.upd
      else Answered s t h 0x060B 0 0 [] ∧ fget t.upd.steps h.berth = step ∧ fget t.upd.evalStep h.berth = step.setWidth 32 ∧
        t.upd.shards = s.upd.shards ∧ t.upd.progs = s.upd.progs ∧ fget t.upd.commits h.berth = fget s.upd.commits h.berth)

/-- OFS_OPEN with proper parameters, at a multiple of H, opens the berth's session with those parameters, in local steps, and is answered at once; a
joining session waits in flight; an open session is BUSY. OFS_STREAM adds one stream for a shard of the berth, with three objects of its own, outside a
round; while no table slot is FREE or SHG_CTL.run is 0 it waits in flight. OFS_SITE of another site, two rounds ahead or more, records the change; an added site becomes a joining peer. One too early is BAD_PARAM with the
current round. OFS_REKEY makes every peer with a key due for a rekey. OFS_CLOSE outside a round removes the session, its keys and its objects, and leaves every
shard and every other session. -/
def Obligations.OffshoreCommands : Prop :=
  (∀ (s : State) (h : EcpHdr) (p : OfsParams) (n t2 cur : Nat) (t3 : NMap Nat),
    admitted s h 0x0701 [7] = true → sessOf s h.berth = none → ofsParamsOk h.berth p = true →
    n = (fget s.upd.steps h.berth).toNat / p.h → (fget s.upd.steps h.berth).toNat % p.h = 0 → peersOpen s + p.peers.length ≤ 19 →
    placeStores s h.berth p = some (t2, t3, cur) →
    ∃ t, exec (.ofsOpen h p) s = .next t ∧ Frame (.mem :: .ofs :: .regs :: ecpParts) s t ∧
      (∃ y, sessOf t h.berth = some y ∧ y.p = p ∧ y.phase = (if p.join.isSome then 5 else 1) ∧ y.round = n ∧ y.streams = [] ∧
        y.recv = [] ∧ y.changes = [] ∧ y.storeT2 = t2 ∧ y.storeT3 = t3 ∧ y.settled = none ∧
        (∀ q, q ∈ p.peers → (mget y.peers q.site).any (fun z => z.param.site = q.site ∧ z.state = 1 ∧ z.key = none) = true)) ∧
      (∀ c, c < 4 → c ≠ h.berth → sessOf t c = sessOf s c) ∧ t.mem = { s.mem with rotate := cur } ∧
      (p.join = none → t.tx.head? = some (.status h.iface h.peer 0x0701 h.seq h.berth true 0 0 true 0 [])) ∧
      (p.join.isSome = true → (berthOf t h.berth).inflight = (h.seq, 0x0701) :: (berthOf s h.berth).inflight)) ∧
  (∀ (s : State) (h : EcpHdr) (p : OfsParams),
    admitted s h 0x0701 [7] = true →
    ((sessOf s h.berth).isSome = true ∨ (sessOf s h.berth = none ∧ ofsParamsOk h.berth p = false)) →
    ∃ t, exec (.ofsOpen h p) s = .next t ∧ Frame (.regs :: ecpParts) s t ∧
      if (sessOf s h.berth).isSome = true then
        t.tx = .status h.iface h.peer 0x0701 h.seq h.berth true 0x0001 (busyTicks s) true 0 [] :: s.tx
      else Answered s t h 0x0701 0x0020 0 []) ∧
  (∀ (s : State) (h : EcpHdr) (stream shard slot e v need : Nat) (x : Session) (sh : Shard) (m : List W32),
    admitted s h 0x0702 [7] = true → sessOf s h.berth = some x → mget s.upd.shards shard = some sh → sh.berth = h.berth →
    mget x.streams stream = none → stream ≤ 65535 → inRound x = false → shgRuns s = true → streamWaits s h.berth stream = false →
    freeTslot s = some slot →
    e = (parseSh sh.desc).size → m = (readF32 s (liveH sh) 64 e).1 → (readF32 s (liveH sh) 64 e).2 = false →
    v = ((tslot s slot).version + 1) % 16 →
    need = cdiv (codeElems 1 slot v (m.map (·.toNat))).length pageSize
      + 2 * cdiv (codeElems 0 slot v (List.replicate e 0)).length pageSize →
    need ≤ freeT2 s h.berth → tableRoom s 3 need = true →
    ∃ t, exec (.ofsStream h stream shard) s = .next t ∧ Frame (footprint (.ofsStream h stream shard)) s t ∧
      t.tx = .status h.iface h.peer 0x0702 h.seq h.berth true 0 0 true 0 [] :: s.tx ∧ t.upd = s.upd ∧
      (∃ z, sessOf t h.berth = some z ∧ { z with streams := x.streams } = x ∧ ∃ y, mget z.streams stream = some y ∧
        z.streams = mset x.streams stream y ∧ y.shard = shard ∧ y.newResid = 0 ∧ y.own = none ∧ y.since = curRound s h.berth x)) ∧
  (∀ (s : State) (h : EcpHdr) (stream shard : Nat) (x : Session) (sh : Shard),
    admitted s h 0x0702 [7] = true → sessOf s h.berth = some x → mget s.upd.shards shard = some sh → sh.berth = h.berth →
    mget x.streams stream = none → stream ≤ 65535 → inRound x = false → streamWaits s h.berth stream = false →
    (shgRuns s = false ∨ freeTslot s = none) →
    ∃ t, exec (.ofsStream h stream shard) s = .next t ∧ Frame (.shg :: .regs :: ecpParts) s t ∧ TakenWith id [] [] s t h 0x0702 ∧
      t.shg = { s.shg with reqs := s.shg.reqs ++ [⟨h.berth, h.seq, false, 0, 0, 0, none, some (stream, shard)⟩] } ∧
      (rdb t SHG_IRQ_STAT_slot_wait = true ∨ shgRuns s = false)) ∧
  (∀ (s : State) (h : EcpHdr) (site round : Nat) (add donor : Bool) (x : Session),
    admitted s h 0x0703 [7] = true → sessOf s h.berth = some x → site ≤ 15 → site ≠ x.p.site → curRound s h.berth x + 2 ≤ round →
    (add = true → (mget x.peers site).isSome = false → peersOpen s < 19) →
    ∃ t, exec (.ofsSite h site add round donor) s = .next t ∧ Frame (.ofs :: .regs :: ecpParts) s t ∧
      t.tx.head? = some (.status h.iface h.peer 0x0703 h.seq h.berth true 0 0 true 0 []) ∧
      (∃ y, sessOf t h.berth = some y ∧ { y with changes := x.changes, peers := x.peers } = x ∧
        y.changes = x.changes.filter (fun c => !(c.1 = site && c.2.2.1 > curRound s h.berth x)) ++ [(site, add, round, donor)] ∧
        (if add = true ∧ (mget x.peers site).all (fun q => q.state = 2) = true then (mget y.peers site).any (fun z => z.state = 3 ∧ z.key = none) = true
          else y.peers = x.peers)) ∧
      (∀ c, c < 4 → c ≠ h.berth → sessOf t c = sessOf s c)) ∧
  (∀ (s : State) (h : EcpHdr) (site round : Nat) (add donor : Bool) (x : Session),
    admitted s h 0x0703 [7] = true → sessOf s h.berth = some x → (round < curRound s h.berth x + 2 ∨ 15 < site ∨ site = x.p.site) →
    ∃ t, exec (.ofsSite h site add round donor) s = .next t ∧ Frame ecpParts s t ∧
      Answered s t h 0x0703 0x0020 0 (toBe 4 (curRound s h.berth x))) ∧
  (∀ (s : State) (h : EcpHdr) (x : Session),
    admitted s h 0x0704 [7] = true → sessOf s h.berth = some x →
    ∃ t, exec (.ofsRekey h) s = .next t ∧ Frame (.ofs :: .regs :: ecpParts) s t ∧
      t.tx.head? = some (.status h.iface h.peer 0x0704 h.seq h.berth true 0 0 true 0 []) ∧
      (∃ y, sessOf t h.berth = some y ∧ { y with peers := x.peers } = x ∧
        (y.peers.map fun p => (p.1, p.2.key, p.2.rekeyDue)) = x.peers.map fun p => (p.1, p.2.key, p.2.key.isSome))) ∧
  (∀ (s : State) (h : EcpHdr) (x : Session),
    admitted s h 0x0705 [7] = true → sessOf s h.berth = some x → inRound x = false → x.joinSeq = none →
    ∃ t, exec (.ofsClose h) s = .next t ∧ Frame (.mem :: .bytes :: .shg :: .ofs :: .regs :: ecpParts) s t ∧ sessOf t h.berth = none ∧
      t.tx.head? = some (.status h.iface h.peer 0x0705 h.seq h.berth true 0 0 true 0 []) ∧
      x.peers.all (fun p => p.2.key.all fun k => mget t.swl.slots k.1 = none) = true) ∧
  (∀ (s : State) (h : EcpHdr) (op : Nat) (c : Instr),
    ((∃ a b, c = .ofsStream h a b ∧ op = 0x0702) ∨ (∃ a b d e, c = .ofsSite h a b d e ∧ op = 0x0703) ∨ (c = .ofsRekey h ∧ op = 0x0704) ∨
      (c = .ofsClose h ∧ op = 0x0705)) →
    admitted s h op [7] = true → sessOf s h.berth = none →
    ∃ t, exec c s = .next t ∧ Frame ecpParts s t ∧ Answered s t h op 0x0020 0 [])

/-- A DATA, SNAP, SACK or PROBE packet whose fixed fields, addresses or key epoch fail, or whose tag is not the one that the key gives its header and
ciphertext, is counted and recorded in OFS_ERR with cause 5, a wrong tag in SWL_ERR too, and no session changes; one of a LOST peer only counts. A genuine DATA packet of an open round stores its bytes at its offset in the incoming contribution and is to be acknowledged; one that
declares no length marks the contribution withheld. A genuine SNAP packet of a joining session's donor stores its bytes. A SACK removes what it shows received and raises
the miss count of what it passes. OFS_SACK_SEND, 50 µs after the first unacknowledged packet, sends the acknowledgement. OFS_DATA_SEND sends the packet at the front of the
queue under the next pseq and the current key, and keeps it in the retransmit store. Both seal it under the slot's next IV, which the slot's counter
moves past (until the counter reaches the rekey mark of 2^48). -/
def Obligations.OffshorePackets : Prop :=
  (∀ (s : State) (c : Instr) (p : OfsPkt) (us b ty : Nat) (x : Session),
    (c, ty) ∈ [(.ofsDataReceive p us, 1), (.ofsSnapReceive p us, 6), (.ofsSackReceive p us, 2), (.ofsProbeReceive p us, 3)] →
    hasOffshore s.variant = true → ofsInReset s = false → berthOfSession s p.session = some b → sessOf s b = some x →
    (mget x.peers p.srcSite).all (fun q => !(p.type = ty && addressed s x p) || !epochHeld s q p.keyEpoch) = true →
    ∃ t, exec c s = .next t ∧ Frame [.regs, .counts, .ofs] s t ∧ t.ofs.sessions = s.ofs.sessions ∧
      RegsBut [OFS_IRQ_STAT_auth.off, OFS_ERR_cause.off] s t ∧ rdb t OFS_IRQ_STAT_auth = true ∧ rd t OFS_ERR_cause = 5 ∧ rd t OFS_ERR_berth = b ∧
      t.ofs.lastTick = s.lh.tick ∧
      CountsBut [0x1B00 + 0x20 * p.route, 0x1B06 + 0x20 * p.route, 0x1A09 + 0x10 * b] s t ∧
      mgetD t.counts (0x1A09 + 0x10 * b) 0 = mgetD s.counts (0x1A09 + 0x10 * b) 0 + 1) ∧
  (∀ (s : State) (c : Instr) (p : OfsPkt) (us b ty n : Nat) (x : Session) (q : OfsPeer),
    (c, ty) ∈ [(.ofsDataReceive p us, 1), (.ofsSnapReceive p us, 6), (.ofsSackReceive p us, 2), (.ofsProbeReceive p us, 3)] →
    hasOffshore s.variant = true → ofsInReset s = false → berthOfSession s p.session = some b → sessOf s b = some x →
    mget x.peers p.srcSite = some q → p.type = ty → addressed s x p = true → swlRuns s = true → epochSlot s q p.keyEpoch = some n → n < 32 →
    tagFits s n p = false →
    ∃ t, exec c s = .next t ∧ Frame [.regs, .counts, .ofs] s t ∧ t.ofs.sessions = s.ofs.sessions ∧
      RegsBut [OFS_IRQ_STAT_auth.off, OFS_ERR_cause.off, SWL_IRQ_STAT_auth.off, SWL_ERR_code.off] s t ∧ rdb t OFS_IRQ_STAT_auth = true ∧
      rd t OFS_ERR_cause = 5 ∧ rdb t SWL_IRQ_STAT_auth = true ∧ rd t SWL_ERR_slot = n ∧ rd t SWL_ERR_code = 1 ∧
      CountsBut [0x1B00 + 0x20 * p.route, 0x1B06 + 0x20 * p.route, 0x1902, 0x1A09 + 0x10 * b] s t ∧
      mgetD t.counts 0x1902 0 = mgetD s.counts 0x1902 0 + 1) ∧
  (∀ (s : State) (c : Instr) (p : OfsPkt) (us b ty : Nat) (x : Session) (q : OfsPeer),
    (c, ty) ∈ [(.ofsDataReceive p us, 1), (.ofsSnapReceive p us, 6), (.ofsSackReceive p us, 2), (.ofsProbeReceive p us, 3)] →
    p.type = ty → OfsGenuine s b x q p → q.state = 2 →
    ∃ t, exec c s = .next t ∧ Frame [.counts] s t ∧
      CountsBut [0x1B00 + 0x20 * p.route, 0x1B06 + 0x20 * p.route, 0x1901, 0x1A08 + 0x10 * b] s t ∧
      mgetD t.counts (0x1A08 + 0x10 * b) 0 = mgetD s.counts (0x1A08 + 0x10 * b) 0 + 1) ∧
  (∀ (s : State) (p : OfsPkt) (us b e : Nat) (x : Session) (q : OfsPeer) (st : OfsStream) (sh : Shard) (r : OfsRecv),
    p.type = 1 → OfsGenuine s b x q p → q.state ≠ 2 → q.oldKey = none → q.unsacked < 15 → x.recv.any toDecode = false →
    x.settled.all (fun j => j < p.round) = true → bit (membersAt x p.round) p.srcSite = true → mget x.streams p.stream = some st →
    mget s.upd.shards st.shard = some sh → e = (parseSh sh.desc).size → countWrong p (codeLen x.p.fmt e) = false →
    r = (openRecv x p 0).1 → r.complete = false → r.withheld = false → r.applied = false → r.wrong = false → r.objLen = p.objLen → p.objLen ≠ 0 →
    p.offset + p.payload.length ≤ p.objLen → ((rangeFrom p.offset p.payload.length).any fun k => (mget r.bytes k).isNone) = true →
    recvHeld x + p.payload.length ≤ x.p.rxStore * 2 ^ 30 → (putBytes r.bytes p.offset p.payload).length < p.objLen →
    ∃ t, exec (.ofsDataReceive p us) s = .next t ∧ Frame [.counts, .ofs] s t ∧ OtherSessions b s t ∧
      (∃ y, sessOf t b = some y ∧ { y with peers := x.peers, recv := x.recv } = x ∧
        recvOf y p.srcSite p.round p.stream 0 = some { r with bytes := putBytes r.bytes p.offset p.payload } ∧
        y.peers = mset x.peers p.srcSite { heardPeer s q p us with
          gotPseq := addRange q.gotPseq p.pseq, high := (if q.gotPseq.isEmpty || p.pseq > q.high then p.pseq else q.high)
          highUs := (if q.gotPseq.isEmpty || p.pseq > q.high then us else q.highUs), unsacked := q.unsacked + 1
          unsackUs := some (q.unsackUs.getD us) }) ∧
      mgetD t.counts (0x1A03 + 0x10 * b) 0 = mgetD s.counts (0x1A03 + 0x10 * b) 0 + BitVec.ofNat 64 p.payload.length) ∧
  (∀ (s : State) (p : OfsPkt) (us b : Nat) (x : Session) (q : OfsPeer) (r : OfsRecv),
    p.type = 1 → OfsGenuine s b x q p → q.state ≠ 2 → q.oldKey = none → q.unsacked < 15 →
    x.settled.all (fun j => j < p.round) = true → bit (membersAt x p.round) p.srcSite = true → (mget x.streams p.stream).isSome = true →
    r = (openRecv x p 0).1 → r.complete = false → r.withheld = false → r.applied = false → p.objLen = 0 →
    ∃ t, exec (.ofsDataReceive p us) s = .next t ∧ Frame [.counts, .ofs] s t ∧ OtherSessions b s t ∧
      (∃ y, sessOf t b = some y ∧ { y with peers := x.peers, recv := x.recv } = x ∧
        recvOf y p.srcSite p.round p.stream 0 = some { r with withheld := true, bytes := [] })) ∧
  (∀ (s : State) (p : OfsPkt) (us b part : Nat) (x : Session) (q : OfsPeer) (d : Nat) (j : Nat) (r : OfsRecv),
    p.type = 6 → OfsGenuine s b x q p → q.state ≠ 2 → q.oldKey = none → q.unsacked < 15 → (streamsOf s b).any (snapWhole x) = false →
    part = bits p.aux.toNat 31 24 → x.phase = 5 → x.p.join = some (d, j) → d = p.srcSite → part ≤ 1 →
    (x.installed.any fun i => i.1 = p.stream) = false → (mget x.streams p.stream).isSome = true →
    r = (openRecv x p (part + 2)).1 → r.complete = false → r.withheld = false → r.applied = false → r.wrong = false → r.objLen = p.objLen →
    p.offset + p.payload.length ≤ p.objLen → ((rangeFrom p.offset p.payload.length).any fun k => (mget r.bytes k).isNone) = true →
    recvHeld x + p.payload.length ≤ x.p.rxStore * 2 ^ 30 → (putBytes r.bytes p.offset p.payload).length < p.objLen →
    ∃ t, exec (.ofsSnapReceive p us) s = .next t ∧ Frame [.counts, .ofs] s t ∧ OtherSessions b s t ∧
      (∃ y, sessOf t b = some y ∧ { y with peers := x.peers, recv := x.recv } = x ∧
        recvOf y p.srcSite p.round p.stream (part + 2) = some { r with bytes := putBytes r.bytes p.offset p.payload })) ∧
  (∀ (s : State) (p : OfsPkt) (us b : Nat) (x : Session) (q : OfsPeer) (k : Sack),
    p.type = 2 → OfsGenuine s b x q p → q.state ≠ 2 → q.oldKey = none → k = parseSack p.payload → x.sending = [] →
    (q.sent.all fun e => e.missed < 2) = true →
    (berths.all fun c => (sessOf s c).all fun y => y.phase ≠ 2 && y.phase ≠ 4 && !y.recv.any toDecode && !(streamsOf s c).any (snapWhole y)) = true →
    ∃ t, exec (.ofsSackReceive p us) s = .next t ∧ Frame [.counts, .ofs] s t ∧ OtherSessions b s t ∧
      (∃ y, sessOf t b = some y ∧ { y with peers := x.peers } = x ∧
        y.peers = mset x.peers p.srcSite { sackSample s (heardPeer s q p us) k us with
          sent := (q.sent.filter fun e => !k.has e.pkt.pseq && !k.over e.type e.pkt.round).map fun e =>
            ({ e with missed := if k.passes e.pkt.pseq then e.missed + 1 else 0 } : OfsSent)
          txq := q.txq.filter (fun e => !k.over e.1 e.2.round)
          settled := (if k.settled = 0xFFFFFFFF then q.settled else some (max k.settled (q.settled.getD 0))) })) ∧
  (∀ (s : State) (b p us at_ : Nat) (x : Session) (q : OfsPeer) (n e : Nat) (r : State × OfsPkt × List Byte),
    sessOf s b = some x → b < 4 → mget x.peers p = some q → q.unsackUs = some at_ → q.state ≠ 2 → ofsInReset s = false → q.key = some (n, e) →
    keyLive s n = true → canSeal s n = true → 8 ≤ n → (keySlot s n).counter.toNat < 2 ^ 48 →
    r = sealOfs s n (ofsForm 2 { basePkt s b p x q.route with keyEpoch := e, payload := sackPayload x q us }) →
    ∃ t, exec (.ofsSackSend b p us) s = .next t ∧
      if us ≥ at_ + 50 then
        Frame [.tx, .counts, .swl, .ofs] s t ∧ OtherSessions b s t ∧ t.tx = ofsTx s b p false r.2.1 r.2.2 :: s.tx ∧
        t.swl = { s.swl with slots := mset s.swl.slots n { keySlot s n with counter := (keySlot s n).counter + 1 } } ∧
        r.2.1.iv = BitVec.ofNat 96 ((keySlot s n).salt.toNat * 2 ^ 64 + (keySlot s n).counter.toNat) ∧
        sessOf t b = some { x with peers := (mset x.peers p { q with unsacked := 0, unsackUs := none }) }
      else t = s) ∧
  (∀ (s : State) (b p us type need : Nat) (x : Session) (q : OfsPeer) (n e : Nat) (pk : OfsPkt) (rest : List (Nat × OfsPkt))
    (r : State × OfsPkt × List Byte),
    sessOf s b = some x → b < 4 → mget x.peers p = some q → q.key = some (n, e) → keyLive s n = true → (q.state = 1 ∨ q.state = 3) →
    rdb s OFS_CTL_run = true → ofsInReset s = false → stopping s = false → q.txq = (type, pk) :: rest → need = 8 * wireBytes pk →
    canSeal s n = true → 8 ≤ n → (keySlot s n).counter.toNat < 2 ^ 48 →
    r = sealOfs s n (ofsForm type { pk with pseq := q.nextPseq, keyEpoch := e, route := q.route }) →
    ∃ t, exec (.ofsDataSend b p us) s = .next t ∧
      if need ≤ min 524288 (q.tokens + (us - q.tokenUs) * q.rate) ∧ storeHeld q + pk.payload.length ≤ x.p.store * 2 ^ 20 then
        Frame [.tx, .counts, .swl, .ofs] s t ∧ OtherSessions b s t ∧ t.tx = ofsTx s b p false r.2.1 r.2.2 :: s.tx ∧
        t.swl = { s.swl with slots := mset s.swl.slots n { keySlot s n with counter := (keySlot s n).counter + 1 } } ∧
        mgetD t.counts (0x1A00 + 0x10 * b) 0 = mgetD s.counts (0x1A00 + 0x10 * b) 0 + 1 ∧
        sessOf t b = some { x with peers := (mset x.peers p { q with
          txq := rest, sent := q.sent ++ [⟨r.2.1, r.2.2, type, q.route, us, 0, false⟩]
          nextPseq := q.nextPseq + 1, tokens := tokensAt q us - need, tokenUs := us }) }
      else t = s)

/-- OFS_RTO_EXPIRY resends every unacknowledged packet, doubles the timer and halves the rate; PACING_RATE_STEP raises the rate by a sixteenth; OFS_PROBE_SEND sends the
next probe on both routes; OFS_PROBE_RECEIVE takes what the probe says, and leaves a route that the peer no longer hears; ROUTE_DOWN of the active route makes the other
route active. PEER_LOST marks the peer LOST, drops what was queued and sent to it and tells the berth. OFFSHORE_WAIT_END with nothing missing, and OFFSHORE_WAIT_TIMEOUT after its time,
settle the round that is S_max behind and begin APPLY. Before its time each leaves the state as it is. -/
def Obligations.OffshoreTimers : Prop :=
  (∀ (s : State) (b p us : Nat) (x : Session) (q : OfsPeer),
    sessOf s b = some x → b < 4 → mget x.peers p = some q → ofsInReset s = false →
    ∃ t, exec (.ofsRtoExpiry b p us) s = .next t ∧
      if (q.sent.any fun e => us ≥ e.atUs + q.rto) = true then
        Frame [.tx, .counts, .ofs] s t ∧ OtherSessions b s t ∧
        t.tx = (q.sent.map fun e => ofsTx s b p true { e.pkt with route := q.route } e.ct).reverse ++ s.tx ∧
        (∃ y, sessOf t b = some y ∧ { y with peers := x.peers } = x ∧ ∃ r, mget y.peers p = some r ∧ y.peers = mset x.peers p r ∧
          r.rto = min (rtoMax s) (2 * q.rto) ∧ r.rate = max (q.rate / 2) (q.param.mbps / 16) ∧ r.rateUs = us ∧
          r.sent.map (fun e => e.pkt.pseq) = q.sent.map (fun e => e.pkt.pseq) ∧
          (r.sent.all fun e => e.resent && e.route = q.route && e.atUs = us && e.missed = 0) = true)
      else t = s) ∧
  (∀ (s : State) (b p us : Nat) (x : Session) (q : OfsPeer),
    sessOf s b = some x → b < 4 → mget x.peers p = some q → ofsInReset s = false →
    exec (.pacingRateStep b p us) s = .next
      (if (rttOf q q.route).seen = true ∧ us ≥ q.rateUs + (rttOf q q.route).srtt then
        { s with ofs := { s.ofs with sessions := (fset s.ofs.sessions b (some { x with
          peers := mset x.peers p { q with rate := min q.param.mbps (q.rate + q.param.mbps / 16), rateUs := us } })) } }
      else s)) ∧
  (∀ (s : State) (b p us n e : Nat) (x : Session) (q : OfsPeer) (r0 r1 : State × OfsPkt × List Byte),
    sessOf s b = some x → b < 4 → mget x.peers p = some q → ofsInReset s = false → q.key = some (n, e) → keyLive s n = true →
    (q.state = 1 ∨ q.state = 3) → canSeal s n = true → 8 ≤ n → (keySlot s n).counter.toNat + 1 < 2 ^ 48 →
    r0 = sealOfs s n (ofsForm 3 { basePkt s b p x 0 with keyEpoch := e, payload := probePayload q (q.probeTx + 1) 0 us }) →
    r1 = sealOfs r0.1 n (ofsForm 3 { basePkt s b p x 1 with keyEpoch := e, payload := probePayload q (q.probeTx + 1) 1 us }) →
    ∃ t, exec (.ofsProbeSend b p us) s = .next t ∧ Frame [.tx, .counts, .swl, .ofs] s t ∧ OtherSessions b s t ∧
      t.tx = ofsTx s b p false r1.2.1 r1.2.2 :: ofsTx s b p false r0.2.1 r0.2.2 :: s.tx ∧
      t.swl = r1.1.swl ∧ (keySlot t n).counter = (keySlot s n).counter + 2 ∧
      sessOf t b = some { x with peers := (mset x.peers p { q with
        probeTx := q.probeTx + 1, probeSent := (((q.probeTx + 1, us) :: q.probeSent).take 4096)
        goodE0 := (if routeUp q 0 us then q.goodE0 else 0) }) }) ∧
  (∀ (s : State) (p : OfsPkt) (b us : Nat) (x : Session) (q r : OfsPeer),
    p.type = 3 → OfsGenuine s b x q p → q.state ≠ 2 → q.oldKey = none → r = takeProbe s (heardPeer s q p us) p us → q.route ≤ 1 →
    ∃ t, exec (.ofsProbeReceive p us) s = .next t ∧ OtherSessions b s t ∧
      (if bit r.rxOk q.route = true ∧ (q.route = 0 ∨ r.goodE0 < rd1 s OFS_FAILBACK_intervals) then
        Frame [.counts, .ofs] s t ∧ sessOf t b = some { x with peers := mset x.peers p.srcSite r }
      else Frame [.tx, .regs, .counts, .ofs] s t ∧ (∃ y, sessOf t b = some y ∧ { y with peers := x.peers } = x ∧
        (mget y.peers p.srcSite).any (fun z => z.route = 1 - q.route) = true) ∧
        rdb t OFS_IRQ_STAT_failover = (rdb s OFS_IRQ_STAT_failover || !bit r.rxOk q.route))) ∧
  (∀ (s : State) (b p us route : Nat) (x : Session) (q : OfsPeer),
    sessOf s b = some x → b < 4 → mget x.peers p = some q → ofsInReset s = false → (q.state = 1 ∨ q.state = 3) → route ≤ 1 →
    ∃ t, exec (.routeDown b p route us) s = .next t ∧
      if routeHeard q route us = true then t = s
      else OtherSessions b s t ∧ Frame [.tx, .regs, .counts, .ofs] s t ∧
        (∃ y, sessOf t b = some y ∧ { y with peers := x.peers } = x ∧ (mget y.peers p).any (fun z =>
          z.route = (if route = q.route then 1 - route else q.route) && z.goodE0 = (if route = 0 then 0 else q.goodE0)) = true) ∧
        (route = q.route → rdb t OFS_IRQ_STAT_failover = true) ∧ (route ≠ q.route → t.tx = s.tx ∧ t.regs = s.regs)) ∧
  (∀ (s : State) (b p : Nat) (x : Session) (q : OfsPeer),
    sessOf s b = some x → b < 4 → mget x.peers p = some q → ofsInReset s = false → (q.state = 1 ∨ q.state = 3) →
    (berths.all fun c => (sessOf s c).all fun y => y.phase = 1 && !y.recv.any toDecode && !(streamsOf s c).any (snapWhole y)) = true →
    ∃ t, exec (.peerLost b p) s = .next t ∧
      if since s q.lastAny < rd1 s OFS_PEER_TMO then t = s
      else Frame [.free, .tx, .regs, .counts, .shg, .swl, .ofs, .quay] s t ∧ rdb t OFS_IRQ_STAT_lost = true ∧ rd t OFS_ERR_cause = 2 ∧
        rd t OFS_ERR_site = p % 16 ∧ EventsTo b [eventPayload s b 0x0007 0 0 (toBe 1 p ++ toBe 1 2)] s t ∧
        (∃ y, sessOf t b = some y ∧ (mget y.peers p).any (fun z =>
          z.state = 2 && z.hs.isNone && z.txq.isEmpty && z.sent.isEmpty && z.oldKey.isNone && z.key = q.key) = true)) ∧
  (∀ (s : State) (b : Nat) (x : Session) (c : Instr),
    sessOf s b = some x → b < 4 → x.phase = 3 → ofsInReset s = false →
    ((c = .offshoreWaitEnd b ∧ waitMet x = true) ∨ (c = .offshoreWaitTimeout b ∧ since s x.waitFrom ≥ rd1 s OFS_WAIT)) →
    ∃ t, exec c s = .next t ∧ Frame (footprint c) s t ∧
      ∃ y, sessOf t b = some y ∧ (y.phase = 4 ∨ y.phase = 1) ∧ y.round = x.round ∧ y.p = x.p ∧
        y.settled = (if x.round < x.p.sMax then x.settled else some (x.round - x.p.sMax)) ∧
        (x.p.sMax ≤ x.round → ∀ m, (missingOf x (x.round - x.p.sMax)).head? = some m →
          rdb t OFS_IRQ_STAT_drop = true)) ∧
  (∀ (s : State) (b : Nat),
    ((sessOf s b).all (fun x => x.phase ≠ 3 || !waitMet x) = true → exec (.offshoreWaitEnd b) s = .next s) ∧
    ((sessOf s b).all (fun x => x.phase ≠ 3 || since s x.waitFrom < rd1 s OFS_WAIT) = true → exec (.offshoreWaitTimeout b) s = .next s))

/-- A KEY packet whose addresses or length fail is counted and recorded, and no session changes. A KEY_INIT equal to the last one answered gets the same answer. One whose identity or signature fails is not heard and is
recorded with cause 6 and key_fail. A proper one is answered with KEY_RESP, and the agreed key stands in the lowest free slot of Offshore's range with counter 0; the
key before it becomes the old key. A proper KEY_RESP to the module's own handshake loads the key in the same way. KEY_INIT_RESEND sends the same KEY_INIT each millisecond;
HANDSHAKE_TIMEOUT after 100 ms fails the handshake; HANDSHAKE_RETRY 1,000 ticks later begins it afresh. -/
def Obligations.OffshoreKeys : Prop :=
  (∀ (s : State) (c : Instr) (p : OfsPkt) (us b len ty : Nat) (x : Session) (q : OfsPeer),
    ((c = .keyInitReceive p us ∧ len = 4917 ∧ ty = 4) ∨ (c = .keyRespReceive p us ∧ len = 4821 ∧ ty = 5)) →
    hasOffshore s.variant = true → ofsInReset s = false → berthOfSession s p.session = some b → sessOf s b = some x →
    mget x.peers p.srcSite = some q → (p.type ≠ ty ∨ addressed s x p = false ∨ p.payload.length ≠ len) →
    ∃ t, exec c s = .next t ∧ Frame [.regs, .counts, .ofs] s t ∧ t.ofs.sessions = s.ofs.sessions ∧ rdb t OFS_IRQ_STAT_auth = true ∧
      rd t OFS_ERR_cause = 5 ∧ mgetD t.counts (0x1A09 + 0x10 * b) 0 = mgetD s.counts (0x1A09 + 0x10 * b) 0 + 1) ∧
  (∀ (s : State) (p : OfsPkt) (us b : Nat) (x : Session) (q : OfsPeer),
    hasOffshore s.variant = true → ofsInReset s = false → berthOfSession s p.session = some b → sessOf s b = some x →
    mget x.peers p.srcSite = some q → p.type = 4 → addressed s x p = true → p.payload.length = 4917 → q.state ≠ 2 → keysOpen s = true → coreUp s 7 = true →
    p.payload = q.lastInit →
    ∃ t, exec (.keyInitReceive p us) s = .next t ∧ Frame [.tx, .counts, .ofs] s t ∧ OtherSessions b s t ∧
      sessOf t b = some { x with peers := (mset x.peers p.srcSite { q with
        lastE0 := if p.route = 0 then some us else q.lastE0, lastE1 := if p.route = 0 then q.lastE1 else some us, lastAny := s.lh.tick }) } ∧
      t.tx = ofsTx s b p.srcSite false (ofsForm 5 { basePkt s b p.srcSite x q.route with
        keyEpoch := beNat (slice p.payload 0 1), round := 0, reset := p.reset, payload := q.lastResp }) q.lastResp :: s.tx) ∧
  (∀ (s : State) (p : OfsPkt) (us b e n : Nat) (x : Session) (q : OfsPeer) (pk ek : List Byte),
    hasOffshore s.variant = true → ofsInReset s = false → berthOfSession s p.session = some b → sessOf s b = some x →
    mget x.peers p.srcSite = some q → p.type = 4 → addressed s x p = true → p.payload.length = 4917 → q.state ≠ 2 → keysOpen s = true → coreUp s 7 = true →
    p.payload ≠ q.lastInit → e = beNat (slice p.payload 0 1) → ek = slice p.payload 1 1184 → pk = slice p.payload 1185 1312 →
    Config.sha3 pk = q.param.idHash → Config.mldsa44Verify pk (pktHeader p ++ toBe 1 e ++ ek) (slice p.payload 2497 2420) = true →
    p.reset = false → p.srcSite < x.p.site → epochFits q false e = true → keyWaits s b p.srcSite q false = false → freeKeySlot s = some n →
    q.key.all (fun k => keyLive s k.1) = true → x.sending = [] →
    ∃ t, exec (.keyInitReceive p us) s = .next t ∧ Frame [.free, .tx, .counts, .swl, .ofs] s t ∧ OtherSessions b s t ∧
      t.tx = ofsTx s b p.srcSite false (ofsForm 5 { basePkt s b p.srcSite x q.route with
        keyEpoch := e, round := 0, payload := respPayload s x e s.free p.payload ek }) (respPayload s x e s.free p.payload ek) :: s.tx ∧
      sessOf t b = some { x with peers := (mset x.peers p.srcSite { q with
        lastE0 := if p.route = 0 then some us else q.lastE0, lastE1 := if p.route = 0 then q.lastE1 else some us, lastAny := s.lh.tick
        key := some (n, e), oldKey := q.key, hs := none, heardNew := false, rekeyDue := false, lastInit := p.payload
        lastResp := respPayload s x e s.free p.payload ek }) } ∧
      (mget t.swl.slots n).any (fun k => k.state = 1 && k.owner = 1 && k.dir = 3 && k.epoch = e && k.counter = 0) = true ∧
      q.key.all (fun k => (mget t.swl.slots k.1).any fun y => y.state = 2) = true) ∧
  (∀ (s : State) (p : OfsPkt) (us b : Nat) (x : Session) (q : OfsPeer),
    hasOffshore s.variant = true → ofsInReset s = false → berthOfSession s p.session = some b → sessOf s b = some x →
    mget x.peers p.srcSite = some q → p.type = 4 → addressed s x p = true → p.payload.length = 4917 → q.state ≠ 2 → keysOpen s = true → coreUp s 7 = true →
    p.payload ≠ q.lastInit → Config.sha3 (slice p.payload 1185 1312) ≠ q.param.idHash →
    ∃ t, exec (.keyInitReceive p us) s = .next t ∧ Frame [.regs, .counts, .ofs] s t ∧ OtherSessions b s t ∧
      rdb t OFS_IRQ_STAT_key_fail = true ∧ rd t OFS_ERR_cause = 6 ∧
      sessOf t b = some { x with peers := (mset x.peers p.srcSite { q with hs := q.hs.map fun h => { h with failedAt := some s.lh.tick } }) }) ∧
  (∀ (s : State) (p : OfsPkt) (us b e n : Nat) (x : Session) (q : OfsPeer) (h : Handshake) (pk ct : List Byte),
    hasOffshore s.variant = true → ofsInReset s = false → berthOfSession s p.session = some b → sessOf s b = some x →
    mget x.peers p.srcSite = some q → p.type = 5 → addressed s x p = true → p.payload.length = 4821 → q.state ≠ 2 → keysOpen s = true → coreUp s 7 = true →
    q.hs = some h → h.initiator = true → h.failedAt = none → h.reset = false → e = beNat (slice p.payload 0 1) → e = h.epoch →
    ct = slice p.payload 1 1088 → pk = slice p.payload 1089 1312 → Config.sha3 pk = q.param.idHash →
    Config.mldsa44Verify pk (pktHeader p ++ toBe 1 e ++ ct ++ toBe 32 (Config.sha3 h.payload).toNat) (slice p.payload 2401 2420) = true →
    freeKeySlot s = some n → q.key.all (fun k => keyLive s k.1) = true → x.sending = [] →
    ∃ t, exec (.keyRespReceive p us) s = .next t ∧ Frame [.counts, .swl, .ofs] s t ∧ OtherSessions b s t ∧
      sessOf t b = some { x with peers := (mset x.peers p.srcSite { q with
        lastE0 := if p.route = 0 then some us else q.lastE0, lastE1 := if p.route = 0 then q.lastE1 else some us, lastAny := s.lh.tick
        key := some (n, e), oldKey := q.key, hs := none, heardNew := false, rekeyDue := false }) } ∧
      (mget t.swl.slots n).any (fun k => k.state = 1 && k.owner = 1 && k.dir = 3 && k.epoch = e && k.counter = 0) = true) ∧
  (∀ (s : State) (b p us : Nat) (x : Session) (q : OfsPeer) (h : Handshake),
    sessOf s b = some x → b < 4 → mget x.peers p = some q → q.hs = some h → h.initiator = true → h.failedAt = none → keysOpen s = true →
    coreUp s 7 = true → ofsInReset s = false →
    ∃ t, exec (.keyInitResend b p us) s = .next t ∧
      if us < h.lastUs + 1000 then t = s
      else Frame [.tx, .counts, .ofs] s t ∧ OtherSessions b s t ∧
        t.tx = ofsTx s b p false
          (ofsForm 4 { basePkt s b p x q.route with keyEpoch := h.epoch, round := 0, reset := h.reset, payload := h.payload }) h.payload :: s.tx ∧
        sessOf t b = some { x with peers := (mset x.peers p { q with hs := some { h with lastUs := us } }) }) ∧
  (∀ (s : State) (b p us : Nat) (x : Session) (q : OfsPeer) (h : Handshake),
    sessOf s b = some x → b < 4 → mget x.peers p = some q → q.hs = some h → h.initiator = true → h.failedAt = none →
    ∃ t, exec (.handshakeTimeout b p us) s = .next t ∧
      if us < h.startUs + 100000 then t = s
      else Frame [.regs, .ofs] s t ∧ RegsBut [OFS_IRQ_STAT_key_fail.off] s t ∧ OtherSessions b s t ∧ rdb t OFS_IRQ_STAT_key_fail = true ∧
        sessOf t b = some { x with peers := (mset x.peers p { q with hs := some { h with failedAt := some s.lh.tick } }) }) ∧
  (∀ (s : State) (b p : Nat) (x : Session) (q : OfsPeer) (h : Handshake) (at_ : W64),
    sessOf s b = some x → b < 4 → mget x.peers p = some q → q.hs = some h → h.initiator = true → h.failedAt = some at_ → keysOpen s = true →
    coreUp s 7 = true → ofsInReset s = false →
    ∃ t, exec (.handshakeRetry b p) s = .next t ∧
      if since s at_ < 1000 then t = s
      else Frame [.free, .tx, .counts, .ofs] s t ∧ OtherSessions b s t ∧
        (∃ y, sessOf t b = some y ∧ { y with peers := x.peers } = x ∧ ∃ r, mget y.peers p = some r ∧ { r with hs := q.hs } = q ∧ ∃ g, r.hs = some g ∧
          { g with payload := [] } = ⟨h.epoch, h.reset, true, s.free, [], usNow s, usNow s, none⟩ ∧
          t.tx = ofsTx s b p false
            (ofsForm 4 { basePkt s b p x q.route with keyEpoch := h.epoch, round := 0, reset := h.reset, payload := g.payload }) g.payload :: s.tx))

/-- A write of SWL_KCTL by L1 or L7 loads the staged key into the selected slot as ACTIVE with counter 0 and zeroes the staging; it is refused for a wrong owner class or
direction 0, does nothing under an alarm, and waits while requests name the slot. Retire makes a slot RETIRING, erase makes it EMPTY. A request that passes the checks is queued; an encryption
takes the IV salt‖counter and the counter counts on; a failing one ends at once with its code. The oldest request of a class ends OK, its output in the transit buffer and
released with IV and tag, or, on a tag that does not match, with code 1, the buffer zeroed and nothing released. An armed alarm zeroes every key and the staging and fails every queued request with code 8; a sensor that is not armed does nothing. A failed entropy source fails every request after 100 ticks. -/
def Obligations.SeawallKeysAndRequests : Prop :=
  (∀ (s : State) (req owner dir epoch n : Nat) (w : CrsWrite),
    (req = 1 ∨ req = 7) → owner < 4 → dir < 4 → epoch < 256 → n = rd s SWL_KSEL_slot →
    w = ⟨req, .plain, BitVec.ofNat 32 (1 + 16 * owner + 64 * dir + 256 * epoch)⟩ → swlInReset s = false →
    ∃ t, exec (.keyLoad w) s = .next t ∧ Frame [.regs, .swl] s t ∧
      (alarmLatched s = true → t.swl = s.swl) ∧
      (alarmLatched s = false → (owner ≠ slotClass n ∨ dir = 0) → t.swl = s.swl ∧ rdb t SWL_IRQ_STAT_reject = true ∧ rd t SWL_ERR_slot = n ∧
        rd t SWL_ERR_code = (if owner ≠ slotClass n then 3 else 4)) ∧
      (alarmLatched s = false → owner = slotClass n → dir ≠ 0 → keyPending s n = 0 →
        rd t SWL_KCTL_owner = 0 ∧ rd t SWL_KCTL_dir = 0 ∧ rd t SWL_KCTL_epoch = 0) ∧
      (alarmLatched s = false → owner = slotClass n → dir ≠ 0 → RegsBut [SWL_KCTL.off] s t ∧
        t.swl = (if keyPending s n ≠ 0 then { s.swl with loadWait := some (n, owner, dir, epoch) }
          else { s.swl with slots := mset s.swl.slots n ⟨1, s.swl.stageKey, s.swl.stageSalt, owner, dir, epoch, 0, false⟩
                            stageKey := 0, stageSalt := 0, loadWait := none }))) ∧
  (∀ (s : State) (n owner dir epoch : Nat),
    s.swl.loadWait = some (n, owner, dir, epoch) →
    ∃ t, exec .keyLoadResume s = .next t ∧
      if keyPending s n = 0 ∧ swlInReset s = false ∧ alarmLatched s = false then
        Frame [.regs, .swl] s t ∧ RegsBut [SWL_KCTL.off] s t ∧ rd t SWL_KCTL_owner = 0 ∧ rd t SWL_KCTL_dir = 0 ∧ rd t SWL_KCTL_epoch = 0 ∧
        t.swl = { s.swl with slots := mset s.swl.slots n ⟨1, s.swl.stageKey, s.swl.stageSalt, owner, dir, epoch, 0, false⟩
                             stageKey := 0, stageSalt := 0, loadWait := none }
      else t = s) ∧
  (∀ (s : State) (req n : Nat),
    (req = 1 ∨ req = 7) → n = rd s SWL_KSEL_slot → swlInReset s = false →
    (∃ t, exec (.keyRetire ⟨req, .plain, 2⟩) s = .next t ∧ Frame [.regs, .swl] s t ∧ RegsBut [SWL_KCTL.off] s t ∧
      t.swl = (if (keySlot s n).state = 0 then s.swl else { s.swl with slots := mset s.swl.slots n { keySlot s n with state := 2 } })) ∧
    (∃ t, exec (.keyErase ⟨req, .plain, 4⟩) s = .next t ∧ Frame [.regs, .swl] s t ∧ RegsBut [SWL_KCTL.off] s t ∧
      t.swl = { s.swl with slots := mdel s.swl.slots n })) ∧
  (∀ (s : State) (p : SwlParams) (k : KeySlot) (iv : BitVec 96),
    swlInReset s = false → swlCheck s p = 0 → k = keySlot s p.slot →
    iv = (if p.decrypt then p.iv else BitVec.ofNat 96 (k.salt.toNat * 2 ^ 64 + k.counter.toNat)) →
    ∃ t, exec (.seawallRequest p) s = .next t ∧
      if s.swl.queue.length ≥ 64 ∨ (s.swl.queue.filter fun r => r.p.cls = p.cls).length ≥ 32 then t = s
      else Frame [.tx, .regs, .counts, .swl, .ofs, .quay] s t ∧ (p.decrypt = true → Frame [.swl] s t) ∧
        t.swl = { s.swl with
          queue := s.swl.queue ++ [⟨p, iv⟩]
          slots := (if p.decrypt then s.swl.slots else mset s.swl.slots p.slot { k with
            counter := k.counter + 1, state := (if k.counter.toNat + 1 = 2 ^ 64 - 1 then 3 else k.state) }) }) ∧
  (∀ (s : State) (p : SwlParams),
    swlInReset s = false → swlCheck s p ≠ 0 →
    ∃ t, exec (.seawallRequest p) s = .next t ∧ Frame [.regs, .swl] s t ∧ RegsBut [SWL_IRQ_STAT_reject.off, SWL_ERR_slot.off] s t ∧
      rdb t SWL_IRQ_STAT_reject = true ∧ rd t SWL_ERR_code = swlCheck s p ∧ rd t SWL_ERR_slot = p.slot % 32 ∧
      t.swl = { s.swl with done := s.swl.done ++ [⟨p.buffer, swlCheck s p, 0, [], 0⟩] }) ∧
  (∀ (s : State) (cls : Nat) (r : SwlReq) (key : W256),
    swlRuns s = true → s.swl.queue.find? (fun r => r.p.cls = cls) = some r → (keySlot s r.p.slot).state ≠ 0 → key = (keySlot s r.p.slot).key →
    (r.p.decrypt = false ∨ r.p.tag = tagOf key r) →
    ∃ t, exec (.seawallRequestComplete cls) s = .next t ∧ Frame [.counts, .swl] s t ∧
      t.swl = { s.swl with
        queue := s.swl.queue.eraseP (fun x => x.p.cls = cls)
        done := s.swl.done ++ [⟨r.p.buffer, 0, r.iv, gcmCrypt key r.iv r.p.data, tagOf key r⟩]
        transit := mset s.swl.transit r.p.buffer (gcmCrypt key r.iv r.p.data) } ∧
      CountsBut [0x1900, 0x1901] s t ∧ mgetD t.counts (if r.p.decrypt then 0x1901 else 0x1900) 0 =
        mgetD s.counts (if r.p.decrypt then 0x1901 else 0x1900) 0 + BitVec.ofNat 64 r.p.data.length) ∧
  (∀ (s : State) (cls : Nat) (r : SwlReq),
    swlRuns s = true → s.swl.queue.find? (fun r => r.p.cls = cls) = some r → (keySlot s r.p.slot).state ≠ 0 → r.p.decrypt = true →
    r.p.tag ≠ tagOf (keySlot s r.p.slot).key r →
    ∃ t, exec (.seawallRequestComplete cls) s = .next t ∧ Frame [.regs, .counts, .swl] s t ∧
      t.swl = { s.swl with
        queue := s.swl.queue.eraseP (fun x => x.p.cls = cls), done := s.swl.done ++ [⟨r.p.buffer, 1, r.iv, [], 0⟩]
        transit := mset s.swl.transit r.p.buffer (zeros r.p.data.length) } ∧
      CountsBut [0x1902] s t ∧ rdb t SWL_IRQ_STAT_auth = true ∧ rd t SWL_ERR_code = 1) ∧
  (∀ (s : State) (sensor : Nat),
    sensor < 4 →
    ∃ t, exec (.seawallAlarm sensor) s = .next t ∧
      if bit (rd s SWL_ALARM_EN_arm) sensor = false then t = s
      else Frame [.regs, .counts, .swl] s t ∧ rd t SWL_ALARM = rd s SWL_ALARM ||| 2 ^ sensor ∧ rdb t SWL_IRQ_STAT_alarm = true ∧
        CountsBut [0x1940] s t ∧ mgetD t.counts 0x1940 0 = mgetD s.counts 0x1940 0 + 1 ∧
        (∀ n, n < 32 → keySlot t n = { KeySlot.empty with erased := true }) ∧
        t.swl.stageKey = 0 ∧ t.swl.stageSalt = 0 ∧ t.swl.seeded = false ∧ t.swl.queue = [] ∧ t.swl.loadWait = none ∧
        t.swl.done = s.swl.done ++ s.swl.queue.map (fun r => ⟨r.p.buffer, 8, r.iv, [], 0⟩) ∧ t.swl.alarmTick = s.lh.tick) ∧
  (∀ (s : State) (req : Nat) (firing : BitVec 4) (w : CrsWrite),
    ((firing ≠ 0 ∨ alarmLatched s = false ∨ inReset s 0x16 = true) → exec (.alarmClear w firing) s = .next (storeWrite s SWL_ALARM.off w)) ∧
    (firing = 0 → alarmLatched s = true → inReset s 0x16 = false → woBits s SWL_ALARM_clear w ≠ 0 →
      ∃ t, exec (.alarmClear w firing) s = .next t ∧ Frame [.free, .tx, .regs, .counts, .ofs] s t ∧ alarmLatched t = false)) ∧
  (∀ (s : State),
    (s.swl.failTick = none → ∃ t, exec .entropyFail s = .next t ∧ Frame [.regs, .swl] s t ∧ RegsBut [SWL_IRQ_STAT_entropy.off] s t ∧
      rdb t SWL_IRQ_STAT_entropy = true ∧ t.swl = { s.swl with failTick := some s.lh.tick }) ∧
    (s.swl.failTick.isSome = true → exec .entropyFail s = .next s) ∧
    exec .entropyRecover s = .next { s with swl := { s.swl with failTick := none, seeded := true } }) ∧
  (∀ (s : State),
    (s.swl.failTick.all fun x => since s x < 100) = true → exec .entropyTimeout s = .next s) ∧
  (∀ (s : State) (at_ : W64),
    s.swl.failTick = some at_ → since s at_ ≥ 100 →
    ∃ t, exec .entropyTimeout s = .next t ∧ Frame [.regs, .swl] s t ∧
      t.swl = { s.swl with queue := [], done := s.swl.done ++ s.swl.queue.map (fun r => ⟨r.p.buffer, 9, r.iv, [], 0⟩) })

/-- A read at an alias offset changes nothing. It returns what a plain read of the same register returns; at an alias of ICU_CLAIM or ICF_CLAIM it returns 0x3FF
and claims nothing, and at an alias of MBX_D3 valid stays set. -/
def Obligations.AliasReads : Prop :=
  (∀ (s : State) (req off : Nat),
    emptyWindow off = false → aliasOf off ≠ .plain →
    (crsRead s req off).1 = s ∧
      (plainOffset off ≠ ICU_CLAIM.off → plainOffset off ≠ ICF_CLAIM.off → (crsRead s req off).2 = (crsRead s req (plainOffset off)).2) ∧
      (plainOffset off = ICU_CLAIM.off ∨ plainOffset off = ICF_CLAIM.off → (crsRead s req off).2 = 0x3FF) ∧
      (plainOffset off = (MBX_D.at 3).off → bankOf (crsRead s req off).1 req = bankOf s req)) ∧
  (∀ (s : State) (req : Nat) (al : Alias),
    al ≠ .plain → claimRead s req al false = (s, 0x3FF) ∧ claimRead s req al true = (s, 0x3FF) ∧ (d3Read s req al).1 = s)

/-- A requester's write to a stored register, field by field: a field whose writers do not include the requester, and RO and WO fields, keep their value; RW
stores, sets, clears or toggles by the alias; W1C clears the bits written as 1; RWL acts as RW while its lock is clear and is ignored once it is set. No other
register and no other state changes. The lock registers and SWL_ALARM_EN, whose bits only set, are not meant. -/
def Obligations.FieldWrites : Prop :=
  ∀ (s : State) (off : Nat) (c : CrsWrite) (r : RegSpec) (f : FieldSpec) (old v new : Nat),
    regSpec s.variant off = some r → f ∈ r.fields → isLockReg off = false → off ≠ SWL_ALARM_EN.off →
    old = bits (regWord s off).toNat f.hi f.lo → v = bits c.value.toNat f.hi f.lo → new = bits (regWord (storeWrite s off c) off).toNat f.hi f.lo →
    Frame [.regs] s (storeWrite s off c) ∧ RegsBut [off] s (storeWrite s off c) ∧
      (f.writers.testBit c.req = false → new = old) ∧ (f.ty = .ro ∨ f.ty = .wo → new = old) ∧
      (f.ty = .w1c → f.writers.testBit c.req = true → new = old - (old &&& v)) ∧
      (f.ty = .rwl → regLocked s off = true → new = old) ∧
      (f.ty = .rw ∨ (f.ty = .rwl ∧ regLocked s off = false) → f.writers.testBit c.req = true →
        new = match c.al with
          | .plain => v
          | .set => old ||| v
          | .clear => old - (old &&& v)
          | .toggle => old ^^^ v)

/-- REG_READ answers the words that HOST reads at consecutive offsets, with the effects of plain reads; a misaligned offset is BAD_PARAM 0x01 and a range past its window
BAD_PARAM 0x02. REG_WRITE performs HOST's write; MBX_SEL, and without the admin right every register but the berth's own, is LOCKED. REGISTER_WRITE of a stored
register stores by its fields; an access to an empty window is recorded and counted and changes no register else; an offset with no register changes nothing. -/
def Obligations.RegisterCommands : Prop :=
  (∀ (s u : State) (h : EcpHdr) (offset : W32) (n : Nat) (r : State × List W32),
    admitted s h 0x0801 [] = true → offset.toNat % 4 = 0 → 1 ≤ n → n ≤ 64 → offset.toNat % 0x4000 + 4 * n ≤ 0x4000 →
    u = arrive s h → r = crsReads n u 9 offset.toNat →
    ∃ t, exec (.regRead h offset n) s = .next t ∧ Frame [.tx, .counts, .quay] r.1 t ∧ r.2.length = n ∧
      t.tx.head? = some (.status h.iface h.peer 0x0801 h.seq h.berth true 0 0 true 0 (r.2.flatMap fun w => toBe 4 w.toNat))) ∧
  (∀ (s : State) (h : EcpHdr) (offset : W32) (n : Nat),
    admitted s h 0x0801 [] = true → (offset.toNat % 4 ≠ 0 ∨ (1 ≤ n ∧ n ≤ 64 ∧ offset.toNat % 0x4000 + 4 * n > 0x4000)) →
    ∃ t, exec (.regRead h offset n) s = .next t ∧ Frame ecpParts s t ∧ Answered s t h 0x0801 0x0020 (if offset.toNat % 4 ≠ 0 then 1 else 2) []) ∧
  (∀ (s : State) (h : EcpHdr) (offset value : W32) (o : Nat),
    admitted s h 0x0802 [] = true → offset.toNat % 4 = 0 → o = plainOffset offset.toNat → (emptyWindow offset.toNat = true ∨ o ≠ MBX_SEL.off) →
    ((berthOf s h.berth).admin = true ∨ (emptyWindow offset.toNat = false ∧ ownRegister h.berth o = true)) →
    ∃ t, exec (.regWrite h offset value) s = .next t ∧ Frame [.tx, .counts, .quay] (crsWrite (arrive s h) 9 offset.toNat value) t ∧
      ((rangeWrite s o ⟨9, aliasOf offset.toNat, value⟩ writeHooks).isNone = true → emptyWindow offset.toNat = false → Answered s t h 0x0802 0 0 [])) ∧
  (∀ (s : State) (h : EcpHdr) (offset value : W32) (o : Nat),
    admitted s h 0x0802 [] = true → o = plainOffset offset.toNat →
    (offset.toNat % 4 ≠ 0 ∨ (emptyWindow offset.toNat = false ∧ o = MBX_SEL.off) ∨
      ((berthOf s h.berth).admin = false ∧ (emptyWindow offset.toNat = true ∨ ownRegister h.berth o = false))) →
    ∃ t, exec (.regWrite h offset value) s = .next t ∧ Frame ecpParts s t ∧
      if offset.toNat % 4 ≠ 0 then Answered s t h 0x0802 0x0020 1 [] else Answered s t h 0x0802 0x0040 0 []) ∧
  (∀ (s : State) (req : Nat) (offset value : W32) (o : Nat),
    req < 10 → emptyWindow offset.toNat = false → o = plainOffset offset.toNat →
    (rangeWrite s o ⟨req, aliasOf offset.toNat, value⟩ writeHooks).isNone = true → (PGR_T3_QUOTA.off ≤ o → o < PGR_T3_QUOTA.off + 16 → hasDdr s.variant = true) →
    exec (.registerWrite req offset value) s = .next
      (if (regSpec s.variant o).isSome = true then storeWrite s o ⟨req, aliasOf offset.toNat, value⟩ else s)) ∧
  (∀ (s : State) (req : Nat) (offset value : W32),
    req < 10 → emptyWindow offset.toNat = true →
    ∃ t, exec (.registerWrite req offset value) s = .next t ∧ Frame [.regs, .counts] s t ∧ RegsBut [DEV_ERR_offset.off, DEV_ERR_requester.off] s t ∧
      rd t DEV_ERR_offset = offset.toNat / 4 * 4 % 2 ^ (DEV_ERR_offset.hi + 1 - DEV_ERR_offset.lo) ∧ rd t DEV_ERR_requester = req ∧ rdb t DEV_ERR_write = true ∧
      CountsBut [0x0010] s t ∧ mgetD t.counts 0x0010 0 = mgetD s.counts 0x0010 0 + 1)

/-- A plain write of MBX_SEL to an idle bank takes the snapshot of the source and sets busy; one while busy or valid only sets ignored; one through an alias changes nothing. When the
snapshot arrives the bank holds its words and valid is set, with err for an identifier without a source; one that was discarded leaves the bank empty. A plain read of MBX_D3 returns the word and clears valid; at an
alias valid stays. MBX_CTL.discard drops the snapshot. No command touches another requester's bank. MBX_READ answers the four words of the source and leaves no snapshot in the HOST bank. -/
def Obligations.MailboxSequence : Prop :=
  (∀ (s : State) (c : CrsWrite),
    ∃ t, exec (.mbxSelWrite c) s = .next t ∧ Frame [.banks, .num] s t ∧ OtherBanks c.req s t ∧
      if c.al ≠ .plain ∨ 10 ≤ c.req then t = s
      else if (bankOf s c.req).busy = true ∨ (bankOf s c.req).valid = true then
        bankOf t c.req = { bankOf s c.req with ignored := true } ∧ t.num = s.num
      else bankOf t c.req = { bankOf s c.req with
          sel := (BitVec.ofNat 16 (c.value.toNat % 65536)), busy := true, ignored := false, discard := false
          coming := (mbxSource s (c.value.toNat % 65536)).getD (0, 0, 0, 0), comErr := (mbxSource s (c.value.toNat % 65536)).isNone
          comClr := readClear (c.value.toNat % 65536) } ∧
        t.num = (clearSource s (c.value.toNat % 65536)).num) ∧
  (∀ (s : State) (req : Nat),
    ∃ t, exec (.mbxSnapshotReady req) s = .next t ∧ Frame [.banks] s t ∧ OtherBanks req s t ∧
      if (bankOf s req).busy = false then t = s
      else (bankOf t req).busy = false ∧ (bankOf t req).valid = !(bankOf s req).discard ∧
        (bankOf t req).err = (!(bankOf s req).discard && (bankOf s req).comErr) ∧
        (bankOf t req).data = (if (bankOf s req).discard then (0, 0, 0, 0) else (bankOf s req).coming)) ∧
  (∀ (s : State) (req : Nat) (al : Alias),
    req < 10 →
    ∃ t, exec (.mbxD3Read req al) s = .next t ∧ Frame [.tx, .banks] s t ∧ OtherBanks req s t ∧
      t.tx = .words req (MBX_D.at 3).off [(bankOf s req).data.2.2.2] :: s.tx ∧
      (if al = .plain then (bankOf t req).valid = false else bankOf t req = bankOf s req)) ∧
  (∀ (s : State) (req : Nat),
    req < 10 →
    ∃ t, exec (.mbxDiscard ⟨req, .plain, 1⟩) s = .next t ∧ Frame [.banks] s t ∧ OtherBanks req s t ∧
      (if (bankOf s req).busy = true then bankOf t req = { bankOf s req with discard := true }
      else (bankOf t req).valid = false ∧ (bankOf t req).data = (0, 0, 0, 0) ∧ (bankOf t req).sel = (bankOf s req).sel)) ∧
  (∀ (s : State) (h : EcpHdr) (id : Nat) (q : Quad),
    admitted s h 0x0803 [] = true → id < 65536 → q = (mbxSource (arrive s h) id).getD (0, 0, 0, 0) →
    ∃ t, exec (.mbxRead h id) s = .next t ∧ Frame (.banks :: .num :: ecpParts) s t ∧ (bankOf t 9).valid = false ∧ (bankOf t 9).busy = false ∧
      OtherBanks 9 s t ∧
      t.tx.head? = some (.status h.iface h.peer 0x0803 h.seq h.berth true 0 0 true 0 (quadBytes q)))

/-- A plain claim read by a core takes its lowest claimable source of the class: pending clears, active is set, the core holds the claim, the source number returns; with none it returns
0x3FF. An end of interrupt of a held source clears active, and a level source still asserted pends again; any other is ignored and noted. A set of ICU_PEND pends the sources written, counted, but
those storm-masked only count; a clear clears edge sources. Unmasking clears the storm bit, and an asserted level source that is not active pends. A source event of a level source that falls clears
pending; one that rises pends and counts unless active. BCN_CTL.wake_now records cause 15; the timer's expiry fires source 12. -/
def Obligations.InterruptController : Prop :=
  (∀ (s : State) (k n : Nat) (fast : Bool),
    k < 8 → n < 256 → claimable s k fast n = true → (∀ m, m < n → claimable s k fast m = false) →
    ∃ t, exec (if fast then .icfClaimRead k .plain else .icuClaimRead k .plain) s = .next t ∧ Frame [.tx, .icu] s t ∧
      t.tx = .words k (if fast then ICF_CLAIM.off else ICU_CLAIM.off) [BitVec.ofNat 32 n] :: s.tx ∧
      t.icu = { s.icu with
        pending := putBit s.icu.pending n false, active := putBit s.icu.active n true
        normal := (if fast then s.icu.normal else mset s.icu.normal k n), fast := (if fast then mset s.icu.fast k n else s.icu.fast) }) ∧
  (∀ (s : State) (k : Nat) (fast : Bool) (al : Alias),
    (8 ≤ k ∨ al ≠ .plain ∨ (List.range 256).all (fun n => !claimable s k fast n) = true) →
    ∃ t, exec (if fast then .icfClaimRead k al else .icuClaimRead k al) s = .next t ∧ Frame [.tx] s t ∧
      t.tx = .words k (if fast then ICF_CLAIM.off else ICU_CLAIM.off) [0x3FF] :: s.tx) ∧
  (∀ (s : State) (k n : Nat) (fast : Bool),
    k < 8 → n < 256 → mget (claims s fast) k = some n → (edgeSource n = true ∨ levelInput s n = false) →
    ∃ t, exec (if fast then .icfEoiWrite ⟨k, .plain, BitVec.ofNat 32 n⟩ else .icuEoiWrite ⟨k, .plain, BitVec.ofNat 32 n⟩) s = .next t ∧ Frame [.icu] s t ∧
      t.icu = { s.icu with
        active := putBit s.icu.active n false
        normal := (if fast then s.icu.normal else mdel s.icu.normal k), fast := (if fast then mdel s.icu.fast k else s.icu.fast) }) ∧
  (∀ (s : State) (k n : Nat),
    k < 8 → n < 256 → mget s.icu.normal k = some n → edgeSource n = false → levelInput s n = true → s.icu.storm.getLsbD n = false →
    mgetD s.icu.rises n 0 < 15 →
    ∃ t, exec (.icuEoiWrite ⟨k, .plain, BitVec.ofNat 32 n⟩) s = .next t ∧ Frame [.icu] s t ∧ t.icu.active.getLsbD n = false ∧
      t.icu.pending.getLsbD n = true ∧ t.icu.normal = mdel s.icu.normal k) ∧
  (∀ (s : State) (w : CrsWrite) (n : Nat) (fast : Bool),
    (w.al = .plain ∨ w.al = .set) → n = bits w.value.toNat 9 0 → (8 ≤ w.req ∨ mget (claims s fast) w.req ≠ some n) →
    ∃ t, exec (if fast then .icfEoiWrite w else .icuEoiWrite w) s = .next t ∧ Frame [.regs, .counts] s t ∧ RegsBut [ICU_STAT_bad_eoi.off] s t ∧
      rdb t ICU_STAT_bad_eoi = true ∧ CountsBut [0x0101] s t ∧ mgetD t.counts 0x0101 0 = mgetD s.counts 0x0101 0 + 1) ∧
  (∀ (s : State) (n req : Nat) (v : W32),
    n < 8 → s.pwr.asleep = false →
    ∃ t, exec (.icuPendWrite n ⟨req, .set, v⟩) s = .next t ∧ Frame [.icu] s t ∧
      (List.range 256).all (fun k =>
        let hit := k / 32 = n && v.getLsbD (k % 32)
        t.icu.pending.getLsbD k = (s.icu.pending.getLsbD k || (hit && !s.icu.storm.getLsbD k))
          && (mgetD t.icu.counts k 0).toNat = min 65535 ((mgetD s.icu.counts k 0).toNat + b2n hit)
          && t.icu.active.getLsbD k = s.icu.active.getLsbD k && t.icu.storm.getLsbD k = s.icu.storm.getLsbD k) = true) ∧
  (∀ (s : State) (req : Nat) (v : W32),
    ∃ t, exec (.icuPendWrite 7 ⟨req, .clear, v⟩) s = .next t ∧ Frame [.icu] s t ∧
      (List.range 256).all (fun k =>
        t.icu.pending.getLsbD k = (s.icu.pending.getLsbD k && !(k / 32 = 7 && v.getLsbD (k % 32)))) = true ∧
      t.icu.counts = s.icu.counts ∧ t.icu.active = s.icu.active) ∧
  (∀ (s : State) (n : Nat) (w : CrsWrite),
    n < 8 →
    ∃ t, exec (.icuStormUnmask n w) s = .next t ∧ Frame [.icu] s t ∧ t.icu.active = s.icu.active ∧
      (List.range 256).all (fun k =>
        let hit := k / 32 = n && w.value.getLsbD (k % 32) && s.icu.storm.getLsbD k
        t.icu.storm.getLsbD k = (s.icu.storm.getLsbD k && !hit)
          && t.icu.pending.getLsbD k = (s.icu.pending.getLsbD k || (hit && levelInput s k && !s.icu.active.getLsbD k))) = true) ∧
  (∀ (s : State) (n : Nat) (on : Bool),
    n < 224 → assigned n = true → edgeSource n = false → on = (if n = 13 then on else levelInput s n) → s.pwr.asleep = false → mgetD s.icu.rises n 0 < 15 →
    s.icu.storm.getLsbD n = false →
    ∃ t, exec (.interruptSourceEvent n on) s = .next t ∧ Frame [.icu] s t ∧ t.icu.input.getLsbD n = on ∧ t.icu.active = s.icu.active ∧
      t.icu.pending.getLsbD n = (on && (s.icu.pending.getLsbD n || !s.icu.active.getLsbD n)) ∧
      (List.range 256).all (fun k => k = n || t.icu.pending.getLsbD k = s.icu.pending.getLsbD k) = true ∧
      (mgetD t.icu.counts n 0).toNat = min 65535 ((mgetD s.icu.counts n 0).toNat + b2n (on && !s.icu.pending.getLsbD n && !s.icu.active.getLsbD n))) ∧
  (∀ (s : State) (n : Nat),
    9 ≤ n → n ≤ 11 → s.pwr.asleep = false →
    exec (.interruptSourceEvent n true) s = .next { s with icu := { s.icu with
      pending := putBit s.icu.pending n true, counts := mset s.icu.counts n (BitVec.ofNat 16 (min 65535 ((mgetD s.icu.counts n 0).toNat + 1))) } }) ∧
  (∀ (s : State) (w : CrsWrite),
    woBits s BCN_CTL_wake_now w ≠ 0 → s.pwr.asleep = false →
    ∃ t, exec (.bcnWakeNow w) s = .next t ∧ Frame [.regs, .counts, .icu] s t ∧ RegsBut [BCN_CAUSE.off] s t ∧ bit (rd t BCN_CAUSE_cause) 15 = true ∧
      CountsBut [0x0200] s t ∧ mgetD t.counts 0x0200 0 = mgetD s.counts 0x0200 0 + 1 ∧ t.icu.wakeTick = s.lh.tick + 1 ∧ t.icu.pending = s.icu.pending) ∧
  (∀ (s : State),
    rd s BCN_TIMER ≠ 0 → s.pwr.asleep = false →
    ∃ t, exec .bcnTimerExpiry s = .next t ∧ Frame [.regs, .icu] s t ∧ RegsBut [BCN_TIMER.off] s t ∧ rd t BCN_TIMER = 0 ∧
      t.icu = { s.icu with pending := putBit s.icu.pending 12 true
                           counts := mset s.icu.counts 12 (BitVec.ofNat 16 (min 65535 ((mgetD s.icu.counts 12 0).toNat + 1))) })

/-- CRASH_READ and ERRLOG_READ answer bytes of a crash record and whole entries of the shared log. A write of RST_LOG_ACK by L6 moves the entries up to the number to the shared log; after
an overflow one entry says how many were lost. RETURN_TO_SERVICE with the tests passed clears the flash flag and the counted resets and lets operations issue; with a test failed it is DEVICE_FAULT and the
module stays out. DIAG answers 256 bytes (what they are is the model's free value) and changes nothing. DOMAIN_RESET begins the reset of an existing domain that is not recovering and is answered
once the domain is ready; one of DEVICE is answered at once with the next generation and delayed; a reserved code is BAD_PARAM, an absent domain UNIT_ABSENT, a recovering one BUSY. L0 takes four power commands a tick: PWR_STATUS
answers the monitors, PWR_CAP sets the cap to 800–2,000 W or, with 0, to 2,000 W. -/
def Obligations.ServiceCommands : Prop :=
  (∀ (s : State) (h : EcpHdr) (offset : W32) (length : Nat),
    admitted s h 0x0901 [6] = true →
    ∃ t, exec (.crashRead h offset length) s = .next t ∧ Frame ecpParts s t ∧
      if length = 0 ∨ 8192 < length ∨ bits offset.toNat 29 0 + length > 329984 then Answered s t h 0x0901 0x0020 0 []
      else Answered s t h 0x0901 0 0 ((rangeFrom (bits offset.toNat 29 0) length).map fun i =>
        (s.rst.crashes[bits offset.toNat 31 30]?).elim 0 fun c => crashByte c i)) ∧
  (∀ (s : State) (h : EcpHdr) (first : W32),
    admitted s h 0x0903 [6] = true →
    ∃ t, exec (.errlogRead h first) s = .next t ∧ Frame ecpParts s t ∧
      Answered s t h 0x0903 0 0 (((s.rst.shared.filter fun e => (e.seq - first).toNat < 2 ^ 31).take 277).flatMap entryBytes)) ∧
  (∀ (s : State) (al : Alias) (v : W32) (out : List LogEntry),
    (al = .plain ∨ al = .set) → s.rst.log.length ≤ 64 → out = s.rst.log.filter (fun e => (v - e.seq).toNat < 2 ^ 31) →
    ∃ t, exec (.rstLogAckWrite ⟨6, al, v⟩) s = .next t ∧ Frame [.regs, .rst] s t ∧
      t.rst.shared = (s.rst.shared ++ out).drop ((s.rst.shared ++ out).length - 4096) ∧
      (if s.rst.overflow = true ∧ out ≠ [] then
        t.rst.log = s.rst.log.filter (fun e => !((v - e.seq).toNat < 2 ^ 31)) ++
          [⟨s.rst.logSeq, s.lh.tick, 0x3F, 0x0B, genOf s 0x3F, recovering s 0x3F, 0, BitVec.ofNat 64 s.rst.lost, 0xFF⟩] ∧
        t.rst.overflow = false ∧ t.rst.lost = 0
      else t.rst.log = s.rst.log.filter (fun e => !((v - e.seq).toNat < 2 ^ 31)) ∧ t.rst.overflow = s.rst.overflow ∧ t.rst.lost = s.rst.lost)) ∧
  (∀ (s : State) (w : CrsWrite),
    (w.req ≠ 6 ∨ w.al = .clear ∨ w.al = .toggle) → exec (.rstLogAckWrite w) s = .next s) ∧
  (∀ (s : State) (h : EcpHdr) (tiles hbm ddr : Bool),
    admitted s h 0x0902 [6] = true → s.rst.flashOos = true → s.rst.latch = false → nvStopped s = false →
    ∃ t, exec (.returnToService h tiles hbm ddr) s = .next t ∧ Frame (.regs :: .rst :: ecpParts) s t ∧
      if tiles = true ∧ hbm = true ∧ (ddr = true ∨ hasDdr s.variant = false) then
        Answered s t h 0x0902 0 0 [] ∧ t.rst = { s.rst with flashOos := false, history := [] } ∧ RegsBut [SHF_CTL_issue_en.off] s t ∧
          rdb t SHF_CTL_issue_en = true ∧ outOfService t = false
      else Answered s t h 0x0902 0x0080 0 [] ∧ t.rst = s.rst ∧ t.regs = s.regs) ∧
  (∀ (s : State) (h : EcpHdr) (tiles hbm ddr : Bool),
    admitted s h 0x0902 [6] = true → (s.rst.flashOos = false ∨ s.rst.latch = true) →
    ∃ t, exec (.returnToService h tiles hbm ddr) s = .next t ∧ Frame ecpParts s t ∧
      if s.rst.flashOos = false then Answered s t h 0x0902 0x0020 1 [] else Answered s t h 0x0902 0x0060 0 []) ∧
  (∀ (s : State) (h : EcpHdr) (test : Nat) (argument : W64),
    admitted s h 0x0904 [6] = true →
    ∃ t, exec (.diag h test argument) s = .next t ∧ Frame ecpParts s t ∧ Answered s t h 0x0904 0 0 (slice (Config.diagResult test argument) 0 256)) ∧
  (∀ (s : State) (h : EcpHdr) (d : Nat),
    admitted s h 0x0905 [6] = true → domainExists s.variant d = true → d ≠ 0x3F → s.rst.delayed = none → recovering s d = false →
    ¬(d = 0x20 ∧ emergency s = true) → d ≠ 0x22 + h.berth → recentResets s d 6000000 < 3 →
    ∃ t, exec (.domainReset h d) s = .next t ∧ Frame (.regs :: .rst :: ecpParts) s t ∧ TakenWith id [] [] s t h 0x0905 ∧
      mget t.rst.domains d = some ⟨2, s.lh.tick, true, wantsCrash d⟩ ∧ t.rst.answers = s.rst.answers ++ [(d, h.berth, h.seq)] ∧
      genOf t d = (genOf s d + 1) % 256 ∧ mdel t.rst.domains d = mdel s.rst.domains d ∧ mdel t.rst.gens d = mdel s.rst.gens d ∧
      t.rst.history = (d, s.lh.tick) :: s.rst.history ∧ t.rst.last = d) ∧
  (∀ (s : State) (h : EcpHdr) (d : Nat),
    admitted s h 0x0905 [6] = true →
    ∃ t, exec (.domainReset h d) s = .next t ∧
      (domainCode d = false → Frame ecpParts s t ∧ Answered s t h 0x0905 0x0020 1 []) ∧
      (domainCode d = true → domainExists s.variant d = false → Frame ecpParts s t ∧ Answered s t h 0x0905 0x0011 0 []) ∧
      (domainExists s.variant d = true → s.rst.delayed = none → recovering s d = true →
        t.tx = .status h.iface h.peer 0x0905 h.seq h.berth true 0x0001 (busyTicks s) true 0 [] :: s.tx ∧ t.rst = s.rst) ∧
      (d = 0x3F → s.rst.delayed = none → recovering s d = false → Frame (.rst :: ecpParts) s t ∧
        t.rst = { s.rst with delayed := some (s.lh.tick, (genOf s 0x3F + 1) % 256) } ∧
        Answered s t h 0x0905 0 0 (toBe 1 ((genOf s 0x3F + 1) % 256)))) ∧
  (∀ (s : State) (h : EcpHdr),
    admitted s h 0x0B01 [0] = true →
    ∃ t, exec (.pwrStatus h) s = .next t ∧ Frame (.regs :: .lh :: ecpParts) s t ∧
      if s.lh.pwrReqs ≥ 4 then
        t.tx = .status h.iface h.peer 0x0B01 h.seq h.berth true 0x0001 (busyTicks s) true 0 [] :: s.tx ∧ t.lh = s.lh
      else t.lh = { s.lh with pwrReqs := s.lh.pwrReqs + 1 } ∧ t.regs = s.regs ∧
        Answered s t h 0x0B01 0 0 (toBe 2 (rd s PWR_PIN_watts) ++ toBe 2 (rd s PWR_VIN_mv) ++ toBe 2 (rd s PWR_VIN_iin) ++ toBe 1 (rd s PWR_TEMP_logic)
          ++ toBe 1 (rd s PWR_TEMP_hbm) ++ toBe 1 (rd s PWR_TEMP_board) ++ toBe 1 (gating s) ++ toBe 2 (pwrStat s % 65536) ++ toBe 4 (rd s PWR_CAP_watts))) ∧
  (∀ (s : State) (h : EcpHdr) (watts : Nat),
    admitted s h 0x0B02 [0] = true → s.lh.pwrReqs < 4 →
    ∃ t, exec (.pwrCap h watts) s = .next t ∧ Frame (.regs :: .lh :: ecpParts) s t ∧ t.lh = { s.lh with pwrReqs := s.lh.pwrReqs + 1 } ∧
      if watts = 0 ∨ (800 ≤ watts ∧ watts ≤ 2000) then
        Answered s t h 0x0B02 0 0 [] ∧ RegsBut [PWR_CAP_watts.off] s t ∧ rd t PWR_CAP_watts = (if watts = 0 then 2000 else watts)
      else Answered s t h 0x0B02 0x0020 1 [] ∧ t.regs = s.regs)

/-- BRAKE_ASSERT counts the edge and engages the clamp with a POWER event; BRAKE_RELEASE ends the brake; the reminder repeats alert and event each 100,000 ticks. OVERCURRENT above PWR_OC fires source 4
and engages the clamp. CLAMP_RELEASE ends the clamp once its causes have been gone for the hold. A sag below 32 V stops non-volatile writes; below 30 V event 3; below 27 V source 3 fires and the orderly
stop begins. ORDERLY_STOP_RESET 500 µs later asserts the DEVICE reset and holds it. SUPPLY_RECOVER ends the sags 0.5 V above their thresholds; NV_WRITE_RESUME lets the waiting writes happen after two clear ticks; SUPPLY_RESTORE
releases the reset after 100 good ticks. An over-voltage opens the switch and begins the stop. None acts before its condition holds. Which POWER causes brake and over-current send is the model's choice. -/
def Obligations.PowerConditions : Prop :=
  (∀ (s : State),
    ∃ t, exec .brakeAssert s = .next t ∧ (s.pwr.brake = true → CountsBut [0x0800] s t) ∧
      mgetD t.counts 0x0800 0 = mgetD s.counts 0x0800 0 + 1 ∧
      if s.pwr.brake = true then Frame [.counts] s t
      else Frame [.tx, .regs, .counts, .quay, .pwr] s t ∧ PowerEvent 1 s t ∧
        PowerIs { s.pwr with brake := true, reminder := s.lh.tick, clamp := true, clampGone := 0 } s t ∧ gHw t ≥ min 64 (rd s PWR_CLAMP_g) ∧
        (s.pwr.clamp = false → rdb t PWR_IRQ_STAT_clamp = true ∧ mgetD t.counts 0x0603 0 = mgetD s.counts 0x0603 0 + 1)) ∧
  (∀ (s : State),
    exec .brakeRelease s = .next { s with pwr := { s.pwr with brake := false, clampGone := 0 } }) ∧
  (∀ (s : State),
    ∃ t, exec .brakeReminder s = .next t ∧
      if s.pwr.brake = false ∨ since s s.pwr.reminder < 100000 then t = s
      else Frame [.tx, .regs, .counts, .quay, .pwr] s t ∧ PowerEvent 1 s t ∧ bit (rd t MGT_ALERT) 0 = true ∧
        t.pwr = { s.pwr with reminder := s.lh.tick }) ∧
  (∀ (s : State) (amps : Nat),
    ∃ t, exec (.overcurrent amps) s = .next t ∧
      if amps ≤ ocAmps s then t = s
      else Frame [.tx, .regs, .counts, .icu, .quay, .pwr] s t ∧ PowerEvent 2 s t ∧
        (s.pwr.asleep = false → FiredEdge 4 s t ∧ PowerIs { s.pwr with overcur := true, clamp := true, clampGone := 0 } s t)) ∧
  (∀ (s : State) (amps : Nat),
    ∃ t, exec (.clampRelease amps) s = .next t ∧
      if s.pwr.clamp = true ∧ s.pwr.brake = false ∧ (s.pwr.overcur = false ∨ amps < ocAmps s - 6) ∧ s.pwr.clampGone ≥ rd1 s PWR_CLAMP_hold then
        Frame [.regs, .pwr] s t ∧ RegsBut [PWR_IRQ_STAT_clamp.off] s t ∧ rdb t PWR_IRQ_STAT_clamp = true ∧
        t.pwr = { s.pwr with clamp := false, overcur := false }
      else t = s) ∧
  (∀ (s : State),
    ∃ t, exec .supplySag32 s = .next t ∧ Frame [.pwr] s t ∧ PowerIs { s.pwr with sag32 := true, nvBlocked := true } s t ∧ nvStopped t = true) ∧
  (∀ (s : State),
    ∃ t, exec .supplySag30 s = .next t ∧
      if s.pwr.sag30 = true then t = s
      else Frame [.tx, .regs, .counts, .quay, .pwr] s t ∧ PowerEvent 3 s t ∧ PowerIs { s.pwr with sag30 := true, nvBlocked := true } s t ∧ gHw t ≥ 26) ∧
  (∀ (s : State),
    ∃ t, exec .supplySag27 s = .next t ∧
      if s.pwr.sag27 = true then t = s
      else Frame [.tx, .regs, .counts, .icu, .quay, .pwr] s t ∧ gHw t = 64 ∧ t.pwr.sag27 = true ∧ t.pwr.nvBlocked = true ∧
        t.pwr.stopAt = some (s.pwr.stopAt.getD s.lh.tick) ∧ (s.pwr.stopAt = none → PowerEvent 4 s t) ∧ (s.pwr.asleep = false → FiredEdge 3 s t)) ∧
  (∀ (s : State) (at_ : W64),
    s.pwr.stopAt = some at_ →
    ∃ t, exec .orderlyStopReset s = .next t ∧
      if since s at_ < 50 then t = s
      else Frame (footprint .orderlyStopReset) s t ∧ mget t.rst.domains 0x3F = some ⟨4, s.lh.tick, false, false⟩ ∧ t.rst.domains.length = 1 ∧
        t.pwr.resetHeld = true ∧ t.pwr.stopAt = none ∧ t.rst.serving = false ∧ t.rst.running = false ∧
        t.rst.history = s.rst.history ∧ t.edge.flash = s.edge.flash ∧ t.sec.life = s.sec.life) ∧
  (∀ (s : State) (mv : Nat),
    exec (.supplyRecover mv) s = .next { s with pwr := { s.pwr with
      sag32 := s.pwr.sag32 && mv ≤ 32500, sag30 := s.pwr.sag30 && mv ≤ 30500, sag27 := s.pwr.sag27 && mv ≤ 27500 } }) ∧
  (∀ (s : State),
    exec .nvWriteResume s = .next
      (if s.pwr.nvBlocked = true ∧ s.pwr.sag32 = false ∧ s.pwr.sag30 = false ∧ s.pwr.sag27 = false ∧ emergency s = false ∧ 2 ≤ s.pwr.clear then
        { s with
          pwr := { s.pwr with nvBlocked := false }, rst := { s.rst with flashOos := s.rst.flashOos || s.rst.flashWait, flashWait := false }
          sec := { s.sec with epochNv := if s.sec.epochWait then s.sec.epoch else s.sec.epochNv, epochWait := false } }
      else s)) ∧
  (∀ (s : State),
    ∃ t, exec .supplyRestore s = .next t ∧
      if s.pwr.resetHeld = false ∨ s.pwr.vinOk < 100 then t = s
      else Frame [.regs, .pwr, .rst] s t ∧ t.pwr = { s.pwr with resetHeld := false, overvolt := false } ∧
        (phaseOf s 0x3F = 4 → s.rst.pinHeld = false → s.rst.devHeld = false → s.pwr.tripped = false → phaseOf t 0x3F = 5)) ∧
  (∀ (s : State) (mv ms : Nat),
    ∃ t, exec (.inputOvervoltage mv ms) s = .next t ∧
      if mv ≤ 40000 ∨ (mv ≤ 50000 ∧ ms ≤ 100) then t = s
      else Frame [.tx, .regs, .counts, .quay, .pwr, .rst] s t ∧ t.pwr.overvolt = true ∧ t.pwr.vinOk = 0 ∧
        (s.rst.stage < 3 → t.rst = { s.rst with stage := 0 } ∧ t.pwr.stopAt = s.pwr.stopAt) ∧
        (3 ≤ s.rst.stage → t.rst = s.rst ∧ t.pwr.stopAt = some (s.pwr.stopAt.getD s.lh.tick) ∧ (s.pwr.stopAt = none → PowerEvent 4 s t)))

/-- L0 switches the array clock to 0.800 GHz once THERM_WARN has held for PWR_EMERG.warn ticks, and back after PWR_EMERG.clear cool ticks, each with a POWER event. A die at its trip
limit fires source 6, sets the alert, sends event 7 and begins a counted DEVICE reset that waits for its crash record; the trip is released after 1,000 cold ticks. A write that sets PWR_CTL.sleep is refused while a berth is
not CLOSED; otherwise the module sleeps with every port and link down. A write that clears it wakes the module, and every enabled port begins to train. -/
def Obligations.ThermalAndSleep : Prop :=
  (∀ (s : State),
    ∃ t, exec .thermEmergencyClock s = .next t ∧
      if s.pwr.emergClk = true ∨ coreRuns s 0 = false ∨ s.pwr.warnFor < rd1 s PWR_EMERG_warn_ticks then t = s
      else Frame [.tx, .regs, .counts, .quay, .pwr] s t ∧ PowerEvent 5 s t ∧ PowerIs { s.pwr with emergClk := true } s t ∧
        rdb t PWR_IRQ_STAT_emerg_clk = true) ∧
  (∀ (s : State),
    ∃ t, exec .thermClockReturn s = .next t ∧
      if s.pwr.emergClk = false ∨ coreRuns s 0 = false ∨ s.pwr.coolFor < rd1 s PWR_EMERG_clear_ticks then t = s
      else Frame [.tx, .regs, .counts, .quay, .pwr] s t ∧ PowerEvent 6 s t ∧ t.pwr = { s.pwr with emergClk := false } ∧
        rdb t PWR_IRQ_STAT_emerg_clk = true) ∧
  (∀ (s : State) (hbm : Bool) (sensor celsius : Nat),
    ∃ t, exec (.thermTrip hbm sensor celsius) s = .next t ∧
      if celsius < (if hbm then 105 else 110) ∨ s.pwr.tripped = true then t = s
      else Frame [.tx, .regs, .counts, .icu, .quay, .pwr, .rst] s t ∧ t.pwr.tripped = true ∧ gHw t = 64 ∧ bit (rd t MGT_ALERT) 3 = true ∧ PowerEvent 7 s t ∧
        (s.pwr.asleep = false → FiredEdge 6 s t) ∧ t.rst.history = (0x3F, s.lh.tick) :: s.rst.history ∧
        (inReset s 0x3F = false → mget t.rst.domains 0x3F = some ⟨3, s.lh.tick, false, true⟩ ∧ t.rst.crashing = s.rst.crashing ++ [0x3F] ∧
          genOf t 0x3F = (genOf s 0x3F + 1) % 256)) ∧
  (∀ (s : State),
    ∃ t, exec .tripResetRelease s = .next t ∧
      if s.pwr.tripped = false ∨ s.pwr.coldFor < 1000 then t = s
      else Frame [.regs, .pwr, .rst] s t ∧ t.pwr = { s.pwr with tripped := false } ∧
        (phaseOf s 0x3F = 4 → s.rst.pinHeld = false → s.rst.devHeld = false → s.pwr.resetHeld = false → phaseOf t 0x3F = 5)) ∧
  (∀ (s : State) (req : Nat),
    (req = 6 ∨ req = 8) → rdb s PWR_CTL_sleep = false →
    ∃ t, exec (.sleepEnter ⟨req, .set, 1⟩) s = .next t ∧
      if berths.any (fun b => (berthOf s b).state ≠ 0) = true then
        Frame [.regs] s t ∧ RegsBut [PWR_IRQ_STAT_sleep_refused.off] s t ∧ rdb t PWR_IRQ_STAT_sleep_refused = true ∧ rdb t PWR_CTL_sleep = false
      else Frame [.regs, .clf, .eth, .pwr] s t ∧ t.pwr = { s.pwr with asleep := true } ∧ rdb t PWR_CTL_sleep = true ∧
        (List.range 12).all (fun p => !portPresent s.variant p || pState t p = 0) = true ∧ (List.range 4).all (fun i => !linkUp t i) = true) ∧
  (∀ (s : State) (req : Nat),
    (req = 6 ∨ req = 8) → rdb s PWR_CTL_sleep = true →
    ∃ t, exec (.sleepExit ⟨req, .clear, 1⟩) s = .next t ∧ Frame [.regs, .pwr] s t ∧ t.pwr = { s.pwr with asleep := false } ∧ rdb t PWR_CTL_sleep = false ∧
      (List.range 12).all (fun p => !(portPresent s.variant p && rdb s (CLF_PCTL_enable.at p)) || pState t p = 1) = true)

/-- FW_STAGE stores its data in the flash that does not run, and changes no other byte; BUSY while non-volatile writes are stopped. FW_ACTIVATE of an image that fails verification is AUTH_FAIL with the failing
check and changes nothing; of the running image BAD_PARAM; a verified image is deferred while an emergency is recent, else the selector is written, MS4 extended and core 0 restarts, with the command in flight. ACTIVATION_PROCEED begins a
deferred one after two clear ticks; ACTIVATION_DEFER_TIMEOUT gives it up with a final DEFERRED; ACTIVATION_RESTART_FAIL puts the selector back and answers DEVICE_FAULT. ATTEST answers the quote over the nonce
and its signature. ROLLBACK_COUNTER_RAISE burns the svn once the image has run long enough. -/
def Obligations.FirmwareCommands : Prop :=
  (∀ (s : State) (h : EcpHdr) (offset : Nat) (data : List Byte),
    admitted s h 0x0A01 [1] = true → data ≠ [] → data.length ≤ 8192 → offset + data.length ≤ 2 ^ 26 → nvStopped s = false →
    ∃ t, exec (.fwStage h offset data) s = .next t ∧ Frame (.sec :: .edge :: ecpParts) s t ∧ Answered s t h 0x0A01 0 0 [] ∧
      FlashIs (1 - s.sec.image) offset data s t ∧ { t.edge with flash := s.edge.flash } = s.edge ∧ { t.sec with keyStore := s.sec.keyStore } = s.sec ∧
      (offset + data.length ≤ 63 * 2 ^ 20 → t.sec = s.sec)) ∧
  (∀ (s : State) (h : EcpHdr) (offset : Nat) (data : List Byte),
    admitted s h 0x0A01 [1] = true → (data = [] ∨ 8192 < data.length ∨ offset + data.length > 2 ^ 26) →
    ∃ t, exec (.fwStage h offset data) s = .next t ∧ Frame ecpParts s t ∧ Answered s t h 0x0A01 0x0020 0 []) ∧
  (∀ (s : State) (h : EcpHdr) (image d : Nat),
    admitted s h 0x0A02 [1] = true → s.lh.act = none →
    ∃ t, exec (.fwActivate h image) s = .next t ∧
      (image > 1 ∨ image = s.sec.image → Frame ecpParts s t ∧ Answered s t h 0x0A02 0x0020 0 []) ∧
      (image ≤ 1 → image ≠ s.sec.image → imageFailure s image = some d → Frame ecpParts s t ∧ Answered s t h 0x0A02 0x0070 d [])) ∧
  (∀ (s : State) (h : EcpHdr) (image : Nat),
    admitted s h 0x0A02 [1] = true → s.lh.act = none → image ≤ 1 → image ≠ s.sec.image → imageFailure s image = none →
    ∃ t, exec (.fwActivate h image) s = .next t ∧ Frame (footprint (.fwActivate h image)) s t ∧
      (berthOf t h.berth).inflight = (h.seq, 0x0A02) :: (berthOf s h.berth).inflight ∧
      if emergency s = false ∧ 2 ≤ s.pwr.clear then
        t.sec.selector = image ∧ t.lh.act = some ⟨h.berth, h.seq, image, s.sec.selector, none, [0, 1, 6, 7, 2, 3, 4, 5]⟩ ∧
          (coreOf t 0).restart = some s.lh.tick ∧ Extended 4 0x40 (digest (imageHeader s image)) s t
      else t.lh.act = some ⟨h.berth, h.seq, image, s.sec.selector, some s.lh.tick, []⟩ ∧ t.sec = s.sec ∧ t.rst = s.rst) ∧
  (∀ (s : State) (a : Activation) (at_ : W64),
    s.lh.act = some a → a.deferred = some at_ →
    (∃ t, exec .activationProceed s = .next t ∧
      if emergency s = false ∧ 2 ≤ s.pwr.clear then
        Frame (footprint .activationProceed) s t ∧ t.sec.selector = a.image ∧ (coreOf t 0).restart = some s.lh.tick ∧
        t.lh.act = some { a with deferred := none, left := [0, 1, 6, 7, 2, 3, 4, 5] } ∧ Extended 4 0x40 (digest (imageHeader s a.image)) s t
      else t = s) ∧
    (∃ t, exec .activationDeferTimeout s = .next t ∧
      if since s at_ ≥ 1000000 ∧ ¬(emergency s = false ∧ 2 ≤ s.pwr.clear) then
        Frame [.tx, .counts, .quay, .lh] s t ∧ t.lh = { s.lh with act := none } ∧
        ((berthOf s a.berth).inflight.any (fun p => p.1 = a.seq) = true → (berthOf s a.berth).state = 1 →
          t.tx.head? = some (.status (berthOf s a.berth).iface (berthOf s a.berth).peer 0x0A02 a.seq a.berth true 0x0002 0 true 0 []))
      else t = s)) ∧
  (∀ (s : State) (a : Activation) (k : Nat) (rest : List Nat) (at_ : W64),
    s.lh.act = some a → a.left = k :: rest → (coreOf s k).restart = some at_ →
    ∃ t, exec .activationRestartFail s = .next t ∧
      if since s at_ < 20 then t = s
      else Frame (footprint .activationRestartFail) s t ∧ t.sec.selector = a.old ∧ t.lh.act = none ∧ t.sec.slots = s.sec.slots ∧
        (berthOf t a.berth).inflight = (berthOf s a.berth).inflight.filter (fun p => p.1 ≠ a.seq)) ∧
  (∀ (s : State) (h : EcpHdr) (nonce : List Byte),
    admitted s h 0x0A03 [1] = true →
    ∃ t, exec (.attest h nonce) s = .next t ∧ Frame ecpParts s t ∧
      if nonce.length ≠ 32 then Answered s t h 0x0A03 0x0020 0 []
      else if s.sec.certOk = false then Answered s t h 0x0A03 0x0080 0 []
      else AnsweredWith id [0x0720] [] s t h 0x0A03 0 0 (quoteBody s nonce ++ slice (Config.mldsa44Sign (quoteBody s nonce)) 0 2420) ∧
        mgetD t.counts 0x0720 0 = mgetD s.counts 0x0720 0 + 1) ∧
  (∀ (s : State),
    ∃ t, exec .rollbackCounterRaise s = .next t ∧
      if s.rst.running = true ∧ s.sec.rbBits < svnOf s.sec.header ∧ s.sec.ranFor ≥ rd1 s SEC_RB_DELAY ∧ nvStopped s = false ∧ s.lh.act = none then
        Frame [.regs, .sec] s t ∧ RegsBut [SEC_IRQ_STAT_rb_advance.off] s t ∧ rdb t SEC_IRQ_STAT_rb_advance = true ∧
        t.sec = { s.sec with rbBits := svnOf s.sec.header }
      else t = s)

/-- LIFECYCLE follows the table of R550: PROVISIONED to SECURED when the certificate stands; a vendor token for SECURED to RETURN, for RETURN to SECURED at most three times and for opening debug; the byte 0xDC
for DECOMMISSIONED; every other request is BAD_PARAM with detail 1. A token that fails is AUTH_FAIL, counted, and replaces the challenge; after eight, AUTH_FAIL unchecked. A transition that erases waits: ten ticks later LIFECYCLE_ERASE
empties the key slots, closes every berth with its admission, burns the state and enters a DEVICE reset. JTAG answers BYPASS, IDCODE, SAMPLE/PRELOAD and EXTEST as the life-cycle state allows, provisions a BLANK module, and opens debug with a
token. A command that the state does not allow changes nothing. -/
def Obligations.LifecycleAndJtag : Prop :=
  (∀ (s : State) (h : EcpHdr) (target : Nat) (token : List Byte),
    admitted s h 0x0A04 [1] = true → nvStopped s = false → s.sec.leaving = none → s.lh.act = none → token ≠ [] → token.length ≤ 4096 →
    ∃ t, exec (.lifecycle h target token) s = .next t ∧ Frame (.regs :: .sec :: .life :: ecpParts) s t ∧ RegsBut [SEC_IRQ_STAT_lc_change.off] s t ∧
      if s.sec.life = 1 ∧ target = 2 ∧ s.sec.certOk = true then
        Answered s t h 0x0A04 0 0 [] ∧ rdb t SEC_IRQ_STAT_lc_change = true ∧
        { t.sec with slots := s.sec.slots } = { s.sec with life := 2 } ∧ Extended 5 0x51 (toLe 1 2 ++ zeros 31) s t
      else if (s.sec.life = 2 ∧ target = 3) ∨ (s.sec.life = 3 ∧ target = 2 ∧ s.sec.refurb < 3) ∨ ((s.sec.life = 1 ∨ s.sec.life = 3) ∧ target = 0x10) then
        if 8 ≤ s.sec.refused then Answered s t h 0x0A04 0x0070 0 [] ∧ t.sec = s.sec
        else if tokenGood s target token (tokenKey token) = true then
          Answered s t h 0x0A04 0 0 [] ∧ { t.sec with challenge := s.sec.challenge, slots := s.sec.slots } =
            (if target = 3 then { s.sec with leaving := some (3, s.lh.tick) }
             else if target = 2 then { s.sec with life := 2, refurb := s.sec.refurb + 1 }
             else { s.sec with debug := true })
        else
          AnsweredWith id [0x0721] [] s t h 0x0A04 0x0070 0 [] ∧ mgetD t.counts 0x0721 0 = mgetD s.counts 0x0721 0 + 1 ∧
          rdb t SEC_IRQ_STAT_token_fail = true ∧ { t.sec with challenge := s.sec.challenge } = { s.sec with refused := s.sec.refused + 1 }
      else if 1 ≤ s.sec.life ∧ s.sec.life ≤ 3 ∧ target = 4 then
        if token = [0xDC] then Answered s t h 0x0A04 0 0 [] ∧ t.sec = { s.sec with leaving := some (4, s.lh.tick) } ∧ rdb t SEC_IRQ_STAT_lc_change = true
        else Answered s t h 0x0A04 0x0070 0 [] ∧ t.sec = s.sec
      else Answered s t h 0x0A04 0x0020 1 [] ∧ t.sec = s.sec) ∧
  (∀ (s : State) (h : EcpHdr) (target : Nat) (token : List Byte),
    admitted s h 0x0A04 [1] = true →
    ∃ t, exec (.lifecycle h target token) s = .next t ∧
      (nvStopped s = true ∨ s.sec.leaving ≠ none ∨ s.lh.act ≠ none →
        t.tx = .status h.iface h.peer 0x0A04 h.seq h.berth true 0x0001 (busyTicks s) true 0 [] :: s.tx ∧ t.sec = s.sec) ∧
      (nvStopped s = false → s.sec.leaving = none → s.lh.act = none → (token = [] ∨ 4096 < token.length) →
        Frame ecpParts s t ∧ Answered s t h 0x0A04 0x0020 0 [])) ∧
  (∀ (s : State) (life : Nat) (at_ : W64),
    s.sec.leaving = some (life, at_) →
    ∃ t, exec .lifecycleErase s = .next t ∧
      if s.sec.life = life ∨ since s at_ < 10 ∨ nvStopped s = true ∨ inReset s 0x3F = true then t = s
      else Frame (footprint .lifecycleErase) s t ∧ t.sec.life = life ∧ t.swl.slots = [] ∧ (life = 4 → t.sec.erased = true) ∧
        (∀ b, b < 4 → (berthOf t b).state = 0 ∧ (berthOf t b).admitted = none) ∧
        mget t.rst.domains 0x3F = some ⟨3, s.lh.tick, false, true⟩ ∧ Extended 5 0x51 (toLe 1 life ++ zeros 31) s t) ∧
  (∀ (s : State) (pins : Nat),
    exec .jtagBypass s = .next { s with edge := { s.edge with jtagIr := 0 }, tx := .jtag 0 0 :: s.tx } ∧
    exec .jtagIdcode s = .next { s with
      edge := { s.edge with jtagIr := 1 }
      tx := .jtag 1 (match s.variant with | .kmz4100 => 0x11004BB3 | .kmz4110 => 0x1100EBB3 | .kmz4120 => 0x11018BB3) :: s.tx } ∧
    exec (.jtagSamplePreload pins) s = .next (if s.sec.life = 4 then s else
      { s with edge := { s.edge with jtagIr := 2, bscan := pins }, tx := .jtag 2 pins :: s.tx }) ∧
    exec (.jtagExtest pins) s = .next (if s.sec.life = 4 ∨ (s.sec.life = 2 ∧ s.rst.pinHeld = false) then s else
      { s with edge := { s.edge with jtagIr := 3, bscan := pins }, tx := .jtag 3 pins :: s.tx })) ∧
  (∀ (s : State),
    ∃ t, exec .jtagProvision s = .next t ∧
      if nvStopped s = false ∧ (s.sec.life = 0 ∨ (s.sec.life = 1 ∧ s.sec.certOk = true)) then
        Frame [.regs, .sec, .life] s t ∧ RegsBut [SEC_IRQ_STAT_lc_change.off] s t ∧ rdb t SEC_IRQ_STAT_lc_change = true ∧
        t.sec.life = s.sec.life + 1 ∧ Extended 5 0x51 (toLe 1 (s.sec.life + 1) ++ zeros 31) s t ∧
        (s.sec.life = 0 → s.sec.erased = false → t.sec.idOk = true ∧ t.sec.certOk = true)
      else t = s) ∧
  (∀ (s : State) (token : List Byte),
    ∃ t, exec (.jtagDebugOpen token) s = .next t ∧
      if (s.sec.life = 1 ∨ s.sec.life = 3) ∧ s.sec.leaving = none ∧ s.sec.refused < 8 then
        Frame [.free, .regs, .counts, .sec] s t ∧ RegsBut [SEC_IRQ_STAT_lc_change.off] s t ∧
        if tokenGood s 0x10 token (tokenKey token) = true then
          t.sec.debug = true ∧ rdb t SEC_IRQ_STAT_debug_open = true ∧ t.counts = s.counts ∧
          { t.sec with challenge := s.sec.challenge, slots := s.sec.slots } = { s.sec with debug := true } ∧ Extended 5 0x50 (digest token) s t
        else
          rdb t SEC_IRQ_STAT_token_fail = true ∧ { t.sec with challenge := s.sec.challenge } = { s.sec with refused := s.sec.refused + 1 } ∧
          CountsBut [0x0721] s t ∧ mgetD t.counts 0x0721 0 = mgetD s.counts 0x0721 0 + 1
      else t = s)

/-- TIDE_TICK adds 1 to the counter, starts every limit by the tick afresh, adds the input power to the energy, counts clear ticks, sets the sensor registers and gives each running core its tick work, or an over-run. CORE_TICK_DONE
records the time used and ends the work, or begins late work at once. TID_USED_READ answers the times and, plain, clears the peak. CORE_WATCHDOG_EXPIRY fires source 15 and marks the core. CORE_RESTART restarts the cores written, L0 not in an
emergency; CORE_RESTART_FALLBACK restarts an expired core by itself. CORE_RESTART_DONE runs the core again, and an activation goes on with the next core or ends. TICK_FLIT_RECEIVE on the upstream port locks the tick and never lowers the
counter; TICK_HOLDOVER after three ticks without one drops the lock. -/
def Obligations.TickAndCores : Prop :=
  (∀ (s : State) (i : TickInputs),
    ∃ t, exec (.tideTick i) s = .next t ∧ Frame (footprint (.tideTick i)) s t ∧
      t.lh.tick = s.lh.tick + 1 ∧ t.lh.pwrReqs = 0 ∧ t.quay.unauth = [] ∧ t.pwr.energy = s.pwr.energy + BitVec.ofNat 64 i.watts ∧
      t.pwr.clear = (if s.pwr.emergTick = true ∨ emergency s = true then 0 else s.pwr.clear + 1) ∧
      (s.pwr.asleep = false → inReset s 0x3F = false → rd t PWR_PIN_watts = min 65535 i.watts ∧ rd t PWR_TEMP_board = min 255 i.boardC) ∧
      (coreRuns s 0 = true → rd t PWR_GATE_g = if i.gate ≥ gL0 s then min 64 i.gate else max i.gate (gL0 s - 4)) ∧
      (∀ k, k < 8 → 0 < k →
        if coreRuns s k = false then coreOf t k = coreOf s k
        else (coreOf t k).busy = true ∧ ((coreOf s k).busy = true → (coreOf t k).late = true ∧ (coreOf t k).overran = true ∧
          mgetD t.counts (0x0310 + k) 0 = mgetD s.counts (0x0310 + k) 0 + 1 ∧
          (coreOf t k).telem = if (coreOf s k).overruns ≥ 2 then min 6 ((coreOf s k).telem + 1) else (coreOf s k).telem))) ∧
  (∀ (s : State) (w : CrsWrite) (used : Nat),
    ∃ t, exec (.coreTickDone w used) s = .next t ∧ Frame [.lh] s t ∧ { t.lh with cores := s.lh.cores } = s.lh ∧
      if w.req < 8 ∧ woBits s TID_DONE_done w ≠ 0 ∧ coreRuns s w.req = true then
        (∀ k, k < 8 → k ≠ w.req → coreOf t k = coreOf s k) ∧ (coreOf t w.req).lastDone = s.lh.tick ∧
        ((coreOf s w.req).busy = true → (coreOf t w.req).used = min 65535 used ∧ (coreOf t w.req).peak = max (coreOf s w.req).peak (min 65535 used) ∧
          (coreOf t w.req).busy = (coreOf s w.req).late ∧ (coreOf t w.req).late = false)
      else t = s) ∧
  (∀ (s : State) (req core : Nat) (al : Alias),
    core < 8 →
    ∃ t, exec (.tidUsedRead req core al) s = .next t ∧ Frame [.tx, .lh] s t ∧
      t.tx = .words req (TID_USED.off + 4 * core) [BitVec.ofNat 32 ((coreOf s core).used + 65536 * (coreOf s core).peak)] :: s.tx ∧
      (if al = .plain then coreOf t core = { coreOf s core with peak := 0 } else t.lh = s.lh)) ∧
  (∀ (s : State) (core : Nat),
    ∃ t, exec (.coreWatchdogExpiry core) s = .next t ∧
      if coreRuns s core = true ∧ (coreOf s core).expired = none ∧ (coreOf s core).waiting = false ∧ rd1 s TID_WDOG_ticks ≤ since s (coreOf s core).lastDone then
        Frame (footprint (.coreWatchdogExpiry core)) s t ∧ bit (rd t TID_WD_CAUSE_cores) core = true ∧ FiredEdge 15 s t ∧
        coreOf t core = { coreOf s core with expired := some s.lh.tick } ∧ (∀ k, k < 8 → k ≠ core → coreOf t k = coreOf s k)
      else t = s) ∧
  (∀ (s : State) (w : CrsWrite),
    ∃ t, exec (.coreRestart w) s = .next t ∧ Frame (footprint (.coreRestart w)) s t ∧ (∀ k, k < 8 →
      if bit (woBits s TID_RESTART_cores w) k = true ∧ (w.req = 6 ∨ (w.req = 1 ∧ k = 6)) ∧ ¬(k = 0 ∧ emergency s = true) then
        (coreOf t k).restart = some s.lh.tick ∧ (coreOf t k).busy = false ∧ (coreOf t k).expired = none ∧ mget t.banks k = none
      else coreOf t k = coreOf s k ∧ mget t.banks k = mget s.banks k)) ∧
  (∀ (s : State) (core : Nat),
    ∃ t, exec (.coreRestartFallback core) s = .next t ∧
      if core < 8 ∧ ((coreOf s core).expired.any fun at_ => rd1 s TID_WDOG_ticks ≤ since s at_) = true ∧ (coreOf s core).restart = none ∧ (coreOf s core).waiting = false then
        Frame (footprint (.coreRestartFallback core)) s t ∧ (∀ k, k < 8 → k ≠ core → coreOf t k = coreOf s k) ∧
        (if core = 0 ∧ emergency s = true then coreOf t 0 = { coreOf s 0 with waiting := true }
        else (coreOf t core).restart = some s.lh.tick ∧ (coreOf t core).busy = false ∧ mget t.banks core = none)
      else t = s) ∧
  (∀ (s : State) (core : Nat),
    ∃ t, exec (.coreRestartDone core) s = .next t ∧
      if core < 8 ∧ (coreOf s core).restart.isSome = true then
        Frame (footprint (.coreRestartDone core)) s t ∧
        (s.lh.act = none → coreOf t core = { coreOf s core with restart := none, busy := false, late := false, lastDone := s.lh.tick } ∧
          rdb t TID_IRQ_STAT_restart = true ∧ mgetD t.counts (0x0320 + core) 0 = mgetD s.counts (0x0320 + core) 0 + 1 ∧
          ∀ k, k < 8 → k ≠ core → coreOf t k = coreOf s k)
      else t = s) ∧
  (∀ (s : State) (a : Activation) (core : Nat) (rest : List Nat),
    s.lh.act = some a → a.left = core :: rest → core < 8 → (coreOf s core).restart.isSome = true →
    ∃ t, exec (.coreRestartDone core) s = .next t ∧ (coreOf t core).restart = (if rest.head? = some core then some s.lh.tick else none) ∧
      match rest with
      | j :: _ => t.lh.act = some { a with left := rest } ∧ (coreOf t j).restart = some s.lh.tick ∧ t.sec = s.sec
      | [] => t.lh.act = none ∧ t.sec.image = a.image ∧ t.sec.header = imageHeader s a.image ∧ t.sec.ranFor = 0) ∧
  (∀ (s : State) (port : Nat) (n : W64) (ps : Nat) (e : Int),
    ∃ t, exec (.tickFlitReceive port n ps e) s = .next t ∧
      if usable s port = true ∧ discovered s = true ∧ rdb s CLF_COORD_anchor = false ∧ rd s CLF_TICK_upstream = port then
        Frame [.regs, .clf, .lh] s t ∧ RegsBut [CLF_TICK.off] s t ∧ rdb t CLF_TICK_locked = true ∧
        t.lh = { s.lh with tick := if s.lh.tick < n then n else s.lh.tick } ∧ t.clf.lastTick = t.lh.tick ∧
        -1000 ≤ e - ((rd s (CLF_LAT_ps.at port) + ps) / 10 : Nat) - t.clf.slew ∧ e - ((rd s (CLF_LAT_ps.at port) + ps) / 10 : Nat) - t.clf.slew ≤ 1000
      else t = s) ∧
  (∀ (s : State),
    ∃ t, exec .tickHoldover s = .next t ∧
      if discovered s = true ∧ rdb s CLF_COORD_anchor = false ∧ 3 ≤ since s s.clf.lastTick then
        Frame [.regs, .clf] s t ∧ RegsBut [CLF_TICK.off, CLF_IRQ_STAT_tick_lost.off] s t ∧ rdb t CLF_IRQ_STAT_tick_lost = true ∧ rdb t CLF_TICK_locked = false ∧
        (rd t CLF_TICK_upstream = rd s CLF_TICK_upstream ∨ usable s (rd t CLF_TICK_upstream) = true) ∧
        t.clf = if (nearerPorts s (rd s CLF_TICK_upstream)).isEmpty then s.clf else { s.clf with lastTick := s.lh.tick }
      else t = s)

/-- Each POWER_ON_STAGE takes the next step of R564: straps and crystal, input good for 100 ticks, supplies, the PLLs, the boot ROM, training, service. A failed step leaves the module in DEVICE reset with the
alert of start-up. The boot runs the image of the selector, else the other one, and advances the epoch; with neither the alert rises and no core runs. The step is not taken while the module is held in reset. In service the
module answers, SHF_CTL.issue_en is set unless it is out of service, and a DEVICE reset is ready. STARTUP_STEP_TIMEOUT fails the step in hand, but not step 2,
and step 6 after 50,000 ticks, step 7 after 100,000, step 8 after 200,000 from the end of step 4 (R10). AON_POWER_LOSS leaves the state of power-on but for flash, OTP and the pins. -/
def Obligations.StartOfTheModule : Prop :=
  (∀ (s : State) (ok : Bool) (d : Nat),
    s.rst.devHeld = true ∨ 8 ≤ s.rst.stage ∨ (5 ≤ s.rst.stage ∧ (s.rst.pinHeld = true ∨ phaseOf s 0x3F = 4 ∨ phaseOf s 0x3F = 3)) →
    exec (.powerOnStage ok d) s = .next s) ∧
  (∀ (s : State) (ok : Bool) (d : Nat),
    s.rst.devHeld = false → s.rst.stage ≤ 4 →
    ∃ t, exec (.powerOnStage ok d) s = .next t ∧ Frame [.tx, .regs, .counts, .rst, .edge] s t ∧
      if s.rst.stage = 1 then t = if ok = true ∧ 100 ≤ s.pwr.vinOk then { s with rst := { s.rst with stage := 2, stageAt := s.lh.tick } } else s
      else if ok = true then t.rst = { s.rst with
          stage := s.rst.stage + 1, stageAt := s.lh.tick, railsAt := if s.rst.stage = 3 then s.lh.tick else s.rst.railsAt } ∧ t.tx = s.tx ∧ t.counts = s.counts ∧ RegsBut [CLK_STAT.off] s t ∧
        (s.rst.stage = 0 → t.edge = { s.edge with straps := BitVec.ofNat 6 d } ∧ rdb t CLK_STAT_xtal_ok = true) ∧
        (s.rst.stage = 4 → t.edge = s.edge ∧ rd t CLK_STAT_locked = 0x1F)
      else t.rst = { s.rst with devHeld := true, domains := mset s.rst.domains 0x3F ⟨4, s.lh.tick, false, false⟩ } ∧ bit (rd t MGT_ALERT) 5 = true) ∧
  (∀ (s : State) (ok : Bool) (d : Nat),
    s.rst.devHeld = false → s.rst.stage = 5 → s.rst.pinHeld = false → phaseOf s 0x3F ≠ 4 → phaseOf s 0x3F ≠ 3 →
    ∃ t, exec (.powerOnStage ok d) s = .next t ∧ Frame [.free, .tx, .regs, .counts, .lh, .rst, .sec] s t ∧ t.sec.life = s.sec.life ∧
      t.sec.selector = s.sec.selector ∧
      if imageFailure s s.sec.selector = none ∨ imageFailure s (1 - s.sec.selector) = none then
        t.rst = { s.rst with running := true, stage := 6, stageAt := s.lh.tick } ∧ t.sec.image = (if imageFailure s s.sec.selector = none then s.sec.selector else 1 - s.sec.selector) ∧
        t.sec.epoch = (if s.sec.epoch = 65535 then 1 else s.sec.epoch + 1) ∧
        (if nvStopped s = true then t.sec.epochNv = s.sec.epochNv ∧ t.sec.epochWait = true else t.sec.epochNv = t.sec.epoch) ∧
        (∀ k, k < 8 → coreOf t k = { Core.idle with lastDone := s.lh.tick })
      else t.rst = s.rst ∧ t.sec.epoch = s.sec.epoch ∧ bit (rd t MGT_ALERT) 5 = true) ∧
  (∀ (s : State) (d : Nat),
    s.rst.devHeld = false → s.rst.stage = 6 → s.rst.pinHeld = false → phaseOf s 0x3F ≠ 4 → phaseOf s 0x3F ≠ 3 →
    ∃ t, exec (.powerOnStage true d) s = .next t ∧ Frame [.regs, .rst] s t ∧ t.rst = { s.rst with stage := 7, stageAt := s.lh.tick } ∧
      rd t HBM_STAT_ok = 0xFF - rd s HBM_STAT_failed ∧ (hasDdr s.variant = true → rd t DDR_CAP_cap = d % 2 ^ 24 ∧ rd t DDR_STAT_in_service = d / 2 ^ 24 % 4096 ∧
        rd t DDR_STAT_lost = 4095 - d / 2 ^ 24 % 4096)) ∧
  (∀ (s : State) (d : Nat),
    s.rst.devHeld = false → s.rst.stage = 7 → s.rst.pinHeld = false → phaseOf s 0x3F ≠ 4 → phaseOf s 0x3F ≠ 3 →
    (∃ t, exec (.powerOnStage true d) s = .next t ∧ Frame [.tx, .regs, .counts, .quay, .rst] s t ∧ t.rst.serving = true ∧ t.rst.stage = 8 ∧ t.rst.devOos = false ∧
      phaseOf t 0x3F = (if phaseOf s 0x3F = 5 then 6 else phaseOf s 0x3F) ∧
      (s.rst.devOos = false → outOfService s = false → Frame [.regs, .rst] s t ∧ rdb t SHF_CTL_issue_en = true ∧ RegsBut [SHF_CTL.off, RST_IRQ_STAT_reset.off] s t) ∧
      (s.rst.devOos = true → s.rst.latch = false → t.rst.latch = true ∧ t.rst.oosCause = 1 ∧ rdb t SHF_CTL_issue_en = rdb s SHF_CTL_issue_en)) ∧
    (∃ t, exec (.powerOnStage false d) s = .next t ∧ t.rst.devHeld = true ∧ phaseOf t 0x3F = 4 ∧ t.rst.serving = s.rst.serving ∧ bit (rd t MGT_ALERT) 5 = true)) ∧
  (∀ (s : State),
    ∃ t, exec .startupStepTimeout s = .next t ∧
      if 8 ≤ s.rst.stage ∨ s.rst.stage = 1 ∨ s.rst.devHeld = true ∨ phaseOf s 0x3F = 4 ∨ (5 ≤ s.rst.stage ∧ s.rst.pinHeld = true) ∨
        (s.rst.stage = 5 ∧ since s s.rst.stageAt < 50000) ∨ (s.rst.stage = 6 ∧ since s s.rst.stageAt < 100000) ∨
        (s.rst.stage = 7 ∧ since s s.rst.railsAt < 200000) then t = s
      else Frame [.tx, .regs, .counts, .rst] s t ∧ bit (rd t MGT_ALERT) 5 = true ∧
        t.rst = { s.rst with devHeld := true, domains := mset s.rst.domains 0x3F ⟨4, s.lh.tick, false, false⟩ }) ∧
  (∀ (s : State),
    ∃ t, exec .aonPowerLoss s = .next t ∧ t.regs = [] ∧ t.counts = [] ∧ t.mem.bytes = [] ∧ t.lh.tick = 0 ∧ t.rst.stage = 0 ∧ t.rst.serving = false ∧
      t.rst.latch = false ∧ t.rst.flashOos = s.rst.flashOos ∧ t.rst.pinHeld = s.rst.pinHeld ∧ t.swl.slots = [] ∧ (∀ b, b < 4 → berthOf t b = Berth.reset) ∧
      t.edge.flash = s.edge.flash ∧ t.sec.life = s.sec.life ∧ t.sec.rbBits = s.sec.rbBits ∧ t.sec.selector = s.sec.selector ∧ t.sec.epoch = s.sec.epochNv ∧
      t.sec.refused = 0 ∧ t.pending = s.pending ∧ t.variant = s.variant)

/-- MOD_RESET_ASSERT is counted, holds a DEVICE reset that does not count toward escalation, and waits for an orderly stop; MOD_RESET_RELEASE ends it unless something else holds it. LEAK_DETECT raises the alert and nothing
else. CRYSTAL_FAULT begins holdover, marks the time and raises REPLACE_REQUEST cause 8; CRYSTAL_RECOVER ends both; HOLDOVER_EXPIRY after CLK_HOLD ticks takes the module out of service with cause 4. PLL_UNLOCK counts the PLL, clears its
lock and enters a DEVICE reset, or counts one more when one runs. -/
def Obligations.ResetPinAndClocks : Prop :=
  (∀ (s : State),
    ∃ t, exec .modResetAssert s = .next t ∧
      if s.rst.pinHeld = true then t = s
      else t.rst.pinHeld = true ∧ t.rst.devHeld = false ∧ t.rst.history = s.rst.history ∧ mgetD t.counts 0x0801 0 = mgetD s.counts 0x0801 0 + 1 ∧
        t.edge.flash = s.edge.flash ∧ t.sec.life = s.sec.life ∧ t.lh.tick = s.lh.tick ∧
        (s.pwr.stopAt.isSome = true → Frame [.counts, .rst] s t ∧ t.rst = { s.rst with pinHeld := true, devHeld := false }) ∧
        (s.pwr.stopAt = none → inReset s 0x3F = false → Frame (footprint .modResetAssert) s t ∧ t.rst.domains = [(0x3F, ⟨4, s.lh.tick, false, false⟩)] ∧
          t.rst.serving = false ∧ t.rst.running = false ∧ t.mem.bytes = [] ∧ t.swl.slots = [] ∧ ∀ b, b < 4 → (berthOf t b).state = 0)) ∧
  (∀ (s : State),
    ∃ t, exec .modResetRelease s = .next t ∧
      if s.rst.pinHeld = false then t = s
      else Frame [.regs, .rst] s t ∧ t.rst.pinHeld = false ∧
        phaseOf t 0x3F = if phaseOf s 0x3F = 4 ∧ s.rst.devHeld = false ∧ s.pwr.resetHeld = false ∧ s.pwr.tripped = false then 5 else phaseOf s 0x3F) ∧
  (∀ (s : State),
    ∃ t, exec .leakDetect s = .next t ∧ Frame [.tx, .regs, .counts, .edge] s t ∧ RegsBut [MGT_ALERT.off] s t ∧ t.edge = { s.edge with leak := true } ∧
      rd t MGT_ALERT = rd s MGT_ALERT ||| 16) ∧
  (∀ (s : State),
    ∃ t, exec .crystalFault s = .next t ∧
      if rdb s CLK_STAT_holdover = true then t = s
      else Frame [.tx, .regs, .counts, .quay, .rst] s t ∧ rdb t CLK_STAT_holdover = true ∧ rdb t CLK_STAT_xtal_ok = false ∧ rdb t CLK_IRQ_STAT_xtal = true ∧
        t.rst.holdTick = some s.lh.tick ∧ ReplaceRaised 8 s t) ∧
  (∀ (s : State),
    ∃ t, exec .crystalRecover s = .next t ∧
      if rdb s CLK_STAT_holdover = false then t = s
      else Frame [.regs, .rst] s t ∧ rdb t CLK_STAT_holdover = false ∧ rdb t CLK_STAT_xtal_ok = true ∧ rdb t CLK_IRQ_STAT_hold_end = true ∧
        t.rst = { s.rst with holdTick := none } ∧ bit (rd t RST_REPLACE_causes) 8 = false) ∧
  (∀ (s : State),
    ∃ t, exec .holdoverExpiry s = .next t ∧
      if (s.rst.holdTick.any fun at_ => rd1 s CLK_HOLD ≤ since s at_) = true then
        Frame [.tx, .regs, .counts, .quay, .rst] s t ∧ t.rst.holdTick = none ∧ rdb t CLK_IRQ_STAT_hold_end = true ∧
        (s.rst.latch = true → t.rst = { s.rst with holdTick := none }) ∧
        (s.rst.latch = false → t.rst.latch = true ∧ t.rst.oosCause = 4 ∧ t.rst.oosDomain = 0x3F ∧ rdb t RST_IRQ_STAT_oos = true ∧ bit (rd t MGT_ALERT) 2 = true ∧
          EventToAll 0x0009 0x0060 [4] s t ∧ (if nvStopped s = true then t.rst.flashWait = true else t.rst.flashOos = true))
      else t = s) ∧
  (∀ (s : State) (pll : Nat),
    ∃ t, exec (.pllUnlock pll) s = .next t ∧
      if 5 ≤ pll then t = s
      else Frame [.regs, .counts, .rst] s t ∧ CountsBut [0x0400 + pll] s t ∧ mgetD t.counts (0x0400 + pll) 0 = mgetD s.counts (0x0400 + pll) 0 + 1 ∧
        rdb t CLK_IRQ_STAT_unlock = true ∧ bit (rd t CLK_STAT_locked) pll = false ∧ t.rst.history = (0x3F, s.lh.tick) :: s.rst.history ∧ inReset t 0x3F = true ∧
        (inReset s 0x3F = true → t.rst.domains = s.rst.domains) ∧
        (inReset s 0x3F = false → mget t.rst.domains 0x3F = some ⟨3, s.lh.tick, false, true⟩ ∧ t.rst.crashing = s.rst.crashing ++ [0x3F]))

/-- RST_REQ and a hang begin a reset of an existing domain: the generation rises and it quiesces; a fourth counted reset within 60 s is a DEVICE reset instead; in a domain that recovers it is a nested error that resets the
enclosing domain; the scheduler's hang resets SHELF0–SHELF3. A reset of L0 waits out an emergency. Quiesced, the domain waits for its crash record or is reset: objects, keys, sessions or the core are lost by its row. CRASH_RECORD_DONE keeps
the newest four records. Released, the domain restarts; ready, the status rises and berths and the DOMAIN_RESET command are told; RST_SETTLE ticks later the recovery window ends. A delayed DEVICE reset begins after ten ticks. -/
def Obligations.DomainResets : Prop :=
  (∀ (s : State) (w : CrsWrite) (d : Nat),
    d = bits w.value.toNat 5 0 →
    ∃ t, exec (.rstReqGo w) s = .next t ∧
      if woBits s RST_REQ_go w = 0 ∨ ¬(w.req = 6 ∨ (w.req = 1 ∧ d = 0x26)) ∨ domainCode d = false ∨ domainExists s.variant d = false ∨ inReset s 0x3F = true then t = s
      else if recovering s d = true then
        Frame [.regs, .rst] s t ∧ rdb t RST_IRQ_STAT_nested = true ∧ (d ≠ 0x3F → recovering s (enclosing s.variant d) = false → ResetBegins (enclosing s.variant d) s t) ∧
        (d = 0x3F → t.rst.history = (0x3F, s.lh.tick) :: s.rst.history ∧ t.rst.domains = s.rst.domains)
      else if d = 0x20 ∧ emergency s = true then Frame [.lh] s t ∧ coreOf t 0 = { coreOf s 0 with waiting := true }
      else Frame [.regs, .rst] s t ∧ ResetBegins d s t) ∧
  (∀ (s : State) (d : Nat),
    ∃ t, exec (.hangDetect d) s = .next t ∧
      if domainExists s.variant d = false ∨ d = 0x3F ∨ (0x20 ≤ d ∧ d ≤ 0x27) ∨ inReset s 0x3F = true ∨
        since s ((mget s.rst.upAt d).getD s.rst.stageAt) < rd1 s RST_HANG_ticks then t = s
      else Frame [.regs, .rst] s t ∧ rdb t RST_IRQ_STAT_hang = true ∧
        (recovering s d = true → rdb t RST_IRQ_STAT_nested = true ∧ (recovering s (enclosing s.variant d) = false → ResetBegins (enclosing s.variant d) s t)) ∧
        (recovering s d = false → 4 ≤ d → ResetBegins d s t) ∧
        (recovering s d = false → d < 4 → (∀ k, k < 4 → recentResets s k 6000000 < 3) →
          ∀ k, k < 4 → recovering s k = false → mget t.rst.domains k = some ⟨2, s.lh.tick, false, true⟩ ∧ genOf t k = (genOf s k + 1) % 256)) ∧
  (∀ (s : State) (d : Nat),
    ∃ t, exec (.domainQuiesceDone d) s = .next t ∧
      if phaseOf s d ≠ 2 then t = s
      else if ((mget s.rst.domains d).any fun r => r.crash && !r.byCmd) = true then
        Frame [.rst] s t ∧ phaseOf t d = 3 ∧ t.rst.crashing = s.rst.crashing ++ [d] ∧ { t.rst with domains := s.rst.domains, crashing := s.rst.crashing } = s.rst
      else Frame (footprint (.domainQuiesceDone d)) s t ∧ phaseOf t d = 4 ∧
        (d = 4 → (∀ b, b < 4 → objsOf t b = []) ∧ t.rst.shared = [] ∧ ((∀ b, b < 4 → sessOf s b = none) → t.swl.slots = s.swl.slots)) ∧
        (d = 0x16 → ∀ n, n < 32 → mget t.swl.slots n = some { KeySlot.empty with erased := true }) ∧
        (d = 0x18 → ∀ b, b < 4 → (berthOf t b).state ≠ 1 ∧ (berthOf t b).admitted = (berthOf s b).admitted ∧ (berthOf t b).cache = if (berthOf s b).state = 0 then (berthOf s b).cache else []) ∧
        (8 ≤ d → d ≤ 0x13 → rd t (CLF_PSTAT_state.at (d - 8)) = 0) ∧
        (0x20 ≤ d → d ≤ 0x27 → (coreOf t (d - 0x20)).restart = some s.lh.tick)) ∧
  (∀ (s : State) (d : Nat) (rest : List Nat),
    (s.rst.crashing = [] → exec .crashRecordDone s = .next s) ∧
    (s.rst.crashing = d :: rest →
      ∃ t, exec .crashRecordDone s = .next t ∧
        if phaseOf s d = 3 then phaseOf t d = 4 ∧ Frame (footprint .crashRecordDone) s t
        else Frame [.free, .rst] s t ∧ t.rst.crashing = rest ∧ (t.rst.crashes.head?.map (·.domain)) = some d ∧
          t.rst.crashes.length = min 4 (s.rst.crashes.length + 1) ∧ t.rst.domains = s.rst.domains)) ∧
  (∀ (s : State) (d : Nat),
    ∃ t, exec (.domainResetRelease d) s = .next t ∧
      if phaseOf s d ≠ 4 ∨ (mget s.rst.domains d).any (fun r => since s r.since < 1) = true ∨ (d = 0x3F ∧ deviceHeld s = true) then t = s
      else Frame [.regs, .rst] s t ∧ phaseOf t d = 5 ∧
        { t.rst with domains := s.rst.domains, stageAt := s.rst.stageAt, railsAt := s.rst.railsAt } = s.rst ∧
        (t.rst.stageAt, t.rst.railsAt) = (if d = 0x3F then (s.lh.tick, s.lh.tick) else (s.rst.stageAt, s.rst.railsAt)) ∧
        (if d = 0x3F ∧ s.rst.stage = 5 then rd t CLK_STAT_locked = 0x1F else t.regs = s.regs)) ∧
  (∀ (s : State) (d : Nat),
    ∃ t, exec (.domainReady d) s = .next t ∧
      if d = 0x3F ∨ phaseOf s d ≠ 5 ∨ (mget s.rst.domains d).any (fun r => since s r.since < restartTicks d) = true then t = s
      else Frame (footprint (.domainReady d)) s t ∧ phaseOf t d = 6 ∧ rdb t RST_IRQ_STAT_reset = true ∧ t.rst.answers = s.rst.answers.filter (fun a => a.1 ≠ d) ∧
        (d ≤ 6 ∨ d = 0x14 ∨ (0x17 ≤ d ∧ d ≤ 0x1A) →
          (s.rst.answers.all (fun a => a.1 ≠ d) = true → EventToAll 0x000A 0 (toBe 1 d ++ toBe 1 (genOf s d)) s t) ∧
          ∀ a, a ∈ s.rst.answers → s.rst.answers.filter (fun x => x.1 = d) = [a] → (berthOf s a.2.1).state = 1 → ((berthOf s a.2.1).inflight.any fun p => p.1 = a.2.2) = true →
            t.tx.head? = some (.status (berthOf s a.2.1).iface (berthOf s a.2.1).peer 0x0905 a.2.2 a.2.1 true 0 0 true 0 (toBe 1 (genOf s d))))) ∧
  (∀ (s : State) (d : Nat),
    exec (.recoveryWindowEnd d) s = .next
      (if phaseOf s d = 6 ∧ ((mget s.rst.domains d).any fun r => rd1 s RST_SETTLE_ticks ≤ since s r.since) = true then
        { s with rst := { s.rst with domains := mdel s.rst.domains d } }
      else s)) ∧
  (∀ (s : State),
    ∃ t, exec .deviceResetDelayed s = .next t ∧
      if (s.rst.delayed.any fun p => 10 ≤ since s p.1) = true then
        Frame [.regs, .rst] s t ∧ t.rst.delayed = none ∧ (inReset s 0x3F = false → ResetBegins 0x3F s t) ∧
        (inReset s 0x3F = true → t.rst.domains = s.rst.domains ∧ t.rst.history = (0x3F, s.lh.tick) :: s.rst.history)
      else t = s)

/-- CMD_ADM_CTL.load admits the staged identity with the right written and empties the staging; clear removes the admission and closes the berth. ETH_IP_CTL loads or clears the selected address. MGT_FL_CTL begins a read, a
program of 128 bytes or an erase of 64 KiB unless one runs; the key-store region outside BLANK is err 1, a stopped supply err 2. FLASH_OP_DONE fills the buffer, writes its bytes or erases the sector, and clears busy; a device error is err 3
with the alert, what it leaves is free. MGT_ATTN takes the sideband's message and fires source 8. Another requester's write of these controls changes nothing. -/
def Obligations.SidebandControls : Prop :=
  (∀ (s : State) (w : CrsWrite) (b : Nat),
    b = rd s CMD_ADM_SEL_berth → w.al = .plain →
    (∃ t, exec (.admissionLoad w) s = .next t ∧
      (w.req ≠ 1 → w.req ≠ 8 → Frame [.regs] s t ∧ RegsBut [] s t) ∧
      (w.req = 1 ∨ w.req = 8 → bit w.value.toNat 0 = true → bit w.value.toNat 1 = false →
        Frame [.regs, .quay] s t ∧ OtherBerths b s t ∧ berthOf t b = { berthOf s b with admitted := some s.quay.stageHash, admin := bit w.value.toNat 2 } ∧
        t.quay.stageHash = 0 ∧ rdb t CMD_ADM_CTL_admin = false)) ∧
    (∃ t, exec (.admissionClear w) s = .next t ∧
      (w.req ≠ 1 → w.req ≠ 8 → Frame [.regs] s t ∧ RegsBut [] s t) ∧
      (w.req = 1 ∨ w.req = 8 → bit w.value.toNat 1 = true → bit w.value.toNat 0 = false →
        Frame (footprint (.admissionClear w)) s t ∧ (berthOf t b).state = 0 ∧ (berthOf t b).admitted = none ∧ (berthOf t b).admin = false))) ∧
  (∀ (s : State) (w : CrsWrite) (k : Nat),
    k = 4 * rd s ETH_IP_SEL_interface + rd s ETH_IP_SEL_index → w.al = .plain →
    (∃ t, exec (.ethIpLoad w) s = .next t ∧
      (w.req ≠ 6 → w.req ≠ 8 → t = s) ∧
      (w.req = 6 ∨ w.req = 8 → bit w.value.toNat 0 = true → bit w.value.toNat 1 = false →
        t = { s with eth := { s.eth with addrs := mset s.eth.addrs k (stagedIp s) } } ∧ (k % 4 ≠ 3 → stagedIp s ∈ ownAddrs t (k / 4)))) ∧
    (∃ t, exec (.ethIpClear w) s = .next t ∧
      (w.req ≠ 6 → w.req ≠ 8 → t = s) ∧
      (w.req = 6 ∨ w.req = 8 → bit w.value.toNat 1 = true → bit w.value.toNat 0 = false →
        t = { s with eth := { s.eth with addrs := mdel s.eth.addrs k } }))) ∧
  (∀ (s : State) (c : Instr) (w : CrsWrite) (op f a : Nat),
    (c = .flashRead w ∨ c = .flashProgram w ∨ c = .flashErase w) → w.al = .plain → (w.req = 1 ∨ w.req = 8) → 1 ≤ op → op ≤ 3 → f < 2 →
    w.value = BitVec.ofNat 32 (op + 16 * f) → a = (if op = 3 then rd s MGT_FL_ADDR_addr / 65536 * 65536 else rd s MGT_FL_ADDR_addr / 128 * 128) →
    ∃ t, exec c s = .next t ∧ Frame [.regs, .edge] s t ∧ RegsBut [MGT_FL_CTL.off] s t ∧ rd t MGT_FL_CTL_flash = f ∧
      if s.edge.op.isSome = true then t.edge = s.edge
      else if op ≠ 1 ∧ 63 * 2 ^ 20 ≤ a ∧ s.sec.life ≠ 0 then t.edge = s.edge ∧ rd t MGT_FL_CTL_err = 1
      else if op ≠ 1 ∧ nvStopped s = true then t.edge = s.edge ∧ rd t MGT_FL_CTL_err = 2
      else rdb t MGT_FL_CTL_busy = true ∧ rd t MGT_FL_CTL_err = 0 ∧ t.edge = { s.edge with op := some ⟨op, f, a⟩ }) ∧
  (∀ (s : State) (o : FlashOp) (bad : Bool),
    s.edge.op = some o → o.flash < 2 → 1 ≤ o.op → o.op ≤ 3 → o.addr + (if o.op = 3 then 65536 else 128) ≤ 2 ^ 26 →
    ∃ t, exec (.flashOpDone bad) s = .next t ∧ Frame [.free, .tx, .regs, .counts, .sec, .edge] s t ∧ t.edge.op = none ∧ rdb t MGT_FL_CTL_busy = false ∧
      if bad = true then rd t MGT_FL_CTL_err = 3 ∧ bit (rd t MGT_ALERT) 6 = true
      else
        (o.op = 1 → t.edge.flash = s.edge.flash ∧ t.sec = s.sec ∧ t.counts = s.counts ∧
          (o.addr < 62 * 2 ^ 20 → ∀ i, i < 32 → rd t (MGT_FL_BUF.at i) = fld (flashBytes s o.flash o.addr 128) (4 * i) 4)) ∧
        (o.op = 2 → FlashIs o.flash o.addr (bufBytes s) s t ∧ t.counts = s.counts) ∧
        (o.op = 3 → FlashIs o.flash o.addr (List.replicate 65536 0xFF) s t ∧ mgetD t.counts 0x0804 0 = mgetD s.counts 0x0804 0 + 1) ∧
        (o.op ≠ 1 → o.addr < 62 * 2 ^ 20 → t.sec = s.sec)) ∧
  (∀ (s : State) (bad : Bool),
    s.edge.op = none → exec (.flashOpDone bad) s = .next s) ∧
  (∀ (s : State) (w : CrsWrite),
    ∃ t, exec (.mgtAttnWrite w) s = .next t ∧
      (w.req ≠ 8 → t = s) ∧
      (w.req = 8 → w.al = .plain → s.pwr.asleep = false → Frame [.regs, .icu] s t ∧ RegsBut [MGT_ATTN.off] s t ∧ regWord t MGT_ATTN.off = w.value ∧ FiredEdge 8 s t))

/-- A target without an address answers ENTDAA with its PID (SLOT_ID and part code in their fields), BCR 0x06 and DCR 0x00, and takes the address if it wins. RSTDAA drops it, SETNEWDA changes it. GETPID, GETBCR,
GETDCR and GETSTATUS answer only with an address, and are counted; what GETSTATUS holds is the model's free value. ENEC and DISEC set and clear ibi_en by event bit 0; RSTACT keeps its action. Private transfers set the pointer, write one
word as requester 8, or read n words from the pointer, which advances. While DEVICE is in reset or no core runs, a write outside MGT is discarded and counted, and reads there return 0. Without an address nothing happens. -/
def Obligations.I3cTarget : Prop :=
  (∀ (s : State) (address : BitVec 7) (wins : Bool) (pid : Nat),
    pid = 0x3A5 * 2 ^ 33 + s.edge.straps.toNat * 2 ^ 26 + (match s.variant with | .kmz4100 => 0x1004 | .kmz4110 => 0x100E | .kmz4120 => 0x1018) * 2 ^ 10 →
    (∃ t, exec (.entdaa address wins) s = .next t ∧
      if rdb s MGT_I3C_assigned = true ∨ s.rst.stage = 0 then t = s
      else Frame [.tx, .regs] s t ∧ RegsBut [MGT_I3C.off] s t ∧ t.tx = .i3c 0x07 (toBe 6 pid ++ [0x06, 0x00]) :: s.tx ∧
        (if wins then rd t MGT_I3C_dyn_addr = address.toNat ∧ rdb t MGT_I3C_assigned = true else t.regs = s.regs)) ∧
    (∃ t, exec .getpid s = .next t ∧ if rdb s MGT_I3C_assigned = true then t = count { s with tx := .i3c 0x8D (toBe 6 pid) :: s.tx } 0x0802 1 else t = s)) ∧
  (∀ (s : State) (address : BitVec 7),
    (∃ t, exec .rstdaa s = .next t ∧ Frame [.regs] s t ∧ RegsBut [MGT_I3C.off] s t ∧ rd t MGT_I3C_dyn_addr = 0 ∧ rdb t MGT_I3C_assigned = false ∧
      rd t MGT_I3C_ibi_en = rd s MGT_I3C_ibi_en) ∧
    (∃ t, exec (.setnewda address) s = .next t ∧
      if rdb s MGT_I3C_assigned = true then Frame [.regs, .counts] s t ∧ CountsBut [0x0802] s t ∧ RegsBut [MGT_I3C.off] s t ∧
        rd t MGT_I3C_dyn_addr = address.toNat ∧ rdb t MGT_I3C_assigned = true ∧ mgetD t.counts 0x0802 0 = mgetD s.counts 0x0802 0 + 1
      else t = s)) ∧
  (∀ (s : State) (a : Byte),
    (∃ t, exec .getbcr s = .next t ∧ if rdb s MGT_I3C_assigned = true then t = count { s with tx := .i3c 0x8E [0x06] :: s.tx } 0x0802 1 else t = s) ∧
    (∃ t, exec .getdcr s = .next t ∧ if rdb s MGT_I3C_assigned = true then t = count { s with tx := .i3c 0x8F [0x00] :: s.tx } 0x0802 1 else t = s) ∧
    (∃ t, exec .getstatus s = .next t ∧ Frame [.free, .tx, .counts] s t ∧
      if rdb s MGT_I3C_assigned = true then
        t = count { s with free := s.free + 1, tx := .i3c 0x90 (toBe 2 (Config.freeNat s.free % 65536)) :: s.tx } 0x0802 1
      else t.tx = s.tx ∧ t.counts = s.counts) ∧
    (∃ t, exec (.enec a) s = .next t ∧ Frame [.regs] s t ∧ RegsBut [MGT_I3C.off] s t ∧ rdb t MGT_I3C_ibi_en = (a.getLsbD 0 || rdb s MGT_I3C_ibi_en) ∧
      rd t MGT_I3C_dyn_addr = rd s MGT_I3C_dyn_addr) ∧
    (∃ t, exec (.disec a) s = .next t ∧ Frame [.regs] s t ∧ RegsBut [MGT_I3C.off] s t ∧ rdb t MGT_I3C_ibi_en = (!a.getLsbD 0 && rdb s MGT_I3C_ibi_en) ∧
      rd t MGT_I3C_dyn_addr = rd s MGT_I3C_dyn_addr) ∧
    exec (.rstact a) s = .next { s with edge := { s.edge with rstact := a } }) ∧
  (∀ (s : State) (off v : W32),
    rdb s MGT_I3C_assigned = false → exec (.i3cSetPointer off) s = .next s ∧ exec (.i3cRegWrite off v) s = .next s ∧ exec (.i3cRegRead v.toNat) s = .next s) ∧
  (∀ (s : State) (off v : W32),
    rdb s MGT_I3C_assigned = true →
    exec (.i3cSetPointer off) s = .next (count { s with edge := { s.edge with pointer := off } } 0x0802 1) ∧
    (∃ t, exec (.i3cRegWrite off v) s = .next t ∧
      if off.toNat / 0x4000 ≠ 36 ∧ (inReset s 0x3F = true ∨ (List.range 8).any (coreRuns s) = false) then
        Frame [.counts] s t ∧ CountsBut [0x0802, 0x0803] s t ∧ mgetD t.counts 0x0802 0 = mgetD s.counts 0x0802 0 + 1 ∧ mgetD t.counts 0x0803 0 = mgetD s.counts 0x0803 0 + 1
      else t = crsWrite (count s 0x0802 1) 8 off.toNat v)) ∧
  (∀ (s : State) (n : Nat),
    rdb s MGT_I3C_assigned = true → 1 ≤ n → n ≤ 64 →
    ∃ t, exec (.i3cRegRead n) s = .next t ∧ Frame (footprint (.i3cRegRead n)) s t ∧ t.edge = { s.edge with pointer := s.edge.pointer + BitVec.ofNat 32 (4 * n) } ∧
      t.tx = .words 8 s.edge.pointer.toNat (sideReads n (count s 0x0802 1) s.edge.pointer.toNat).2 :: s.tx ∧
      ((sideReads n (count s 0x0802 1) s.edge.pointer.toNat).2).length = n ∧
      (s.edge.pointer.toNat + 4 * n ≤ 36 * 0x4000 → inReset s 0x3F = true → t.tx.head? = some (.words 8 s.edge.pointer.toNat (List.replicate n 0)) ∧ t.regs = s.regs)) ∧
  (∀ (s : State) (n : Nat),
    rdb s MGT_I3C_assigned = true → (n = 0 ∨ 64 < n) →
    ∃ t, exec (.i3cRegRead n) s = .next t ∧ Frame [.counts] s t ∧ CountsBut [0x0802, 0x0803] s t ∧ mgetD t.counts 0x0803 0 = mgetD s.counts 0x0803 0 + 1)

/-- A frame that R387, R390 or R391 discards is counted, with FCS errors apart, and has no other effect. A Neighbour Solicitation for an own address is answered with the MAC address, to all nodes when it has no source, and the
neighbour is learnt; one for another address is only counted. A Neighbour Advertisement is learnt. An Echo Request to an own address is answered with its body. LINK_CHANGE sets the link's bits and the status, and notes since when a link
is down. PTP acts on the port and domain in use: an Announce shows a master, another message feeds the servo; the first lock may set the count of an anchor that never opened a berth, upwards only. Three lost announces move PTP
to the other port. -/
def Obligations.HostPorts : Prop :=
  (∀ (s : State) (i : Nat) (f : FrameInfo),
    ∃ t, exec (.frameDiscard i f) s = .next t ∧
      (f.fcsOk = false ∨ f.etherType ≠ 0x86DD ∨ 9022 < f.size ∨ 1 < f.tags ∨ f.extHeader = true ∨ (f.nextHeader ≠ 17 ∧ f.nextHeader ≠ 58) ∨ (f.nextHeader = 17 ∧ f.udpSum = 0) →
        (frameBad s i f || packetBad s f) = true) ∧
      if ethRuns s i = true ∧ (frameBad s i f || packetBad s f) = true then
        Frame [.counts] s t ∧ CountsBut [0x1B00 + 0x10 * i, 0x1B02 + 0x10 * i, 0x1B05 + 0x10 * i, 0x1B06 + 0x10 * i] s t ∧
        mgetD t.counts (0x1B00 + 0x10 * i) 0 = mgetD s.counts (0x1B00 + 0x10 * i) 0 + 1 ∧ mgetD t.counts (0x1B05 + 0x10 * i) 0 = mgetD s.counts (0x1B05 + 0x10 * i) 0 + 1 ∧
        mgetD t.counts (0x1B02 + 0x10 * i) 0 = mgetD s.counts (0x1B02 + 0x10 * i) 0 + (if f.fcsOk then 0 else 1) ∧
        mgetD t.counts (0x1B06 + 0x10 * i) 0 = mgetD s.counts (0x1B06 + 0x10 * i) 0 + BitVec.ofNat 64 f.size
      else t = s) ∧
  (∀ (s : State) (i : Nat) (target source : BitVec 128) (mac : BitVec 48) (dst : BitVec 128),
    dst = (if source = 0 then 0xFF020000000000000000000000000001#128 else source) →
    ∃ t, exec (.neighbourSolicitation i target source mac) s = .next t ∧
      if ethRuns s i = false then t = s
      else if target ∈ ownAddrs s i then
        Frame [.tx, .counts, .eth] s t ∧ t.eth = { s.eth with neigh := t.eth.neigh } ∧
        t.tx = .eth i 0 dst (icmp 136 target dst ([if source = 0 then 0x20 else 0x60, 0, 0, 0] ++ toBe 16 target.toNat ++ [2, 1] ++ toBe 6 (macOf i))) :: s.tx ∧
        (if source = 0 then t.eth = s.eth else t.eth.neigh = (i, source, mac) :: s.eth.neigh.filter fun n => !(n.1 = i && n.2.1 = source))
      else Frame [.counts] s t ∧ CountsBut [0x1B00 + 0x10 * i, 0x1B06 + 0x10 * i] s t) ∧
  (∀ (s : State) (i : Nat) (target : BitVec 128) (mac : BitVec 48),
    ∃ t, exec (.neighbourAdvertisement i target mac) s = .next t ∧
      if ethRuns s i = false then t = s
      else Frame [.counts, .eth] s t ∧ CountsBut [0x1B00 + 0x10 * i, 0x1B06 + 0x10 * i] s t ∧
        t.eth = { s.eth with neigh := (i, target, mac) :: s.eth.neigh.filter fun n => !(n.1 = i && n.2.1 = target) }) ∧
  (∀ (s : State) (i : Nat) (target source : BitVec 128) (body : List Byte),
    ∃ t, exec (.echoRequest i target source body) s = .next t ∧
      if ethRuns s i = false then t = s
      else Frame [.tx, .counts] s t ∧ t.tx = (if target ∈ ownAddrs s i then .eth i 1 source (icmp 129 target source body) :: s.tx else s.tx)) ∧
  (∀ (s : State) (i : Nat) (up : Bool),
    ∃ t, exec (.linkChange i up) s = .next t ∧
      if ethRuns s i = false ∨ (up = true ∧ ¬(portEnabled s (i / 2) = true ∧ i ∈ ifacesOf s (i / 2))) ∨ linkUp s i = up then t = s
      else Frame [.regs, .eth] s t ∧ RegsBut [ETH_STAT.off, ETH_IRQ_STAT_link.off, RST_REPLACE.off] s t ∧ linkUp t i = up ∧ rdb t ETH_IRQ_STAT_link = true ∧
        (∀ j, j < 4 → j ≠ i → linkUp t j = linkUp s j) ∧ (if up then mget t.eth.downSince i = none else mget t.eth.downSince i = some s.lh.tick ∧ rd t RST_REPLACE_causes = rd s RST_REPLACE_causes)) ∧
  (∀ (s : State) (p : PtpInfo),
    ∃ t, exec (.ptpMessage p) s = .next t ∧
      if ethRuns s p.iface = false ∨ rdb s ETH_CTL_ptp_en = false ∨ p.iface ≠ ptpIface s ∨ p.domain ≠ rd s ETH_PTP_domain then t = s
      else if p.kind = 0 then t = { s with eth := { s.eth with ptpMissed := 0 } }
      else if coreUp s 7 = false then t = s
      else Frame [.regs, .eth, .lh] s t ∧ RegsBut [ETH_STAT.off, TID_STAT.off, TID_PTP_OFF.off] s t ∧ rdb t ETH_STAT_ptp_locked = p.locks ∧
        t.lh = { s.lh with tick :=
          if p.locks = true ∧ s.eth.ptpLocked = false ∧ isAnchor s = true ∧ s.eth.opened = false ∧ now s < p.timeNs / 10000 then BitVec.ofNat 64 (p.timeNs / 10000) else s.lh.tick } ∧
        t.eth = { s.eth with ptpLocked := s.eth.ptpLocked || p.locks, ptpDiff := BitVec.ofNat 64 (p.timeNs / 10000) - t.lh.tick } ∧
        (isAnchor s = true → rdb s TID_CTL_ptp_steer = true → p.locks = true → rd t TID_PTP_OFF = sat32 p.offsetNs)) ∧
  (∀ (s : State),
    ∃ t, exec .ptpAnnounceTimeout s = .next t ∧
      if rdb s ETH_CTL_ptp_en = false then t = s
      else Frame [.regs, .eth] s t ∧ RegsBut [ETH_STAT.off, ETH_IRQ_STAT_ptp_lost.off] s t ∧ rdb t ETH_STAT_ptp_locked = false ∧
        t.eth = { s.eth with ptpPort := (s.eth.ptpPort + 1) % 2, ptpMissed := s.eth.ptpMissed + 1 } ∧ (1 ≤ s.eth.ptpMissed → rdb t ETH_IRQ_STAT_ptp_lost = true))

/-- The pick is a berth with a ready head, primary when any primary berth has one, and there is a pick when a primary head is ready. OP_START with the array free fetches the picked stream head: one that breaks a rule of R41 halts the
stream with its error and tells the host; a good one with its pages resident starts and leaves its queue; a ready engine head starts likewise; with nothing ready, or the array taken, no operation starts. OP_COMPLETE writes D as
computed, signals, counts, posts the trigger and the event; a failed mask writes nothing, sets the step flag and sends OP_FAULT; a full trigger queue holds the completion until TRIGGER_HOLD_RELEASE. ENGINE_PASS_COMPLETE
frees the array. UPDATE_START starts the first ready shard whose state is resident. -/
def Obligations.ShelfScheduling : Prop :=
  (∀ (s : State) (b : Nat),
    ((choose (restDeficits s)).2 = some b →
      b < 4 ∧ (headOf s b).isSome = true ∧ (isFiller s b = true → ∀ c, c < 4 → isFiller s c = false → headOf s c = none)) ∧
    (b < 4 → isFiller s b = false → (headOf s b).isSome = true → ((choose (restDeficits s)).2).isSome = true)) ∧
  (∀ (s : State) (idle : CauseCycles),
    (shelfFree s = false ∨ ∀ b, b < 4 → headOf s b = none) →
    ∃ t, exec (.opStart idle) s = .next t ∧ Frame [.regs, .shelf] s t ∧ t.shelf.running = s.shelf.running ∧ t.shelf.streams = s.shelf.streams ∧
      t.shelf.engines = s.shelf.engines ∧ t.shelf.halted = s.shelf.halted ∧ t.shelf.segment = s.shelf.segment) ∧
  (∀ (s : State) (idle : CauseCycles) (b : Nat) (d : List Byte),
    shelfFree s = true → (choose (restDeficits s)).2 = some b → headOf s b = some (.stream d) →
    ∃ t, exec (.opStart idle) s = .next t ∧ Frame (footprint (.opStart idle)) s t ∧
      (fget s.shelf.fetched b = false → opError s b (parseOp d) false ≠ 0 →
        t.shelf.running = none ∧ t.shelf.streams = s.shelf.streams ∧ fget t.shelf.halted b = true ∧ fget t.shelf.error b = opError s b (parseOp d) false ∧
        t.mem = s.mem ∧ EventsTo b [eventPayload s b 0x0002 0x0020 (parseOp d).seq (toBe 1 0x01 ++ toBe 1 (opError s b (parseOp d) false))] s t ∧ OtherBerths b s t) ∧
      (fget s.shelf.fetched b = true ∨ opError s b (parseOp d) false = 0 → droppedOf s (parseOp d) = none → missingPages s (opHandles (parseOp d)) = [] → expandWaits s (parseOp d) = false → tapOn s (parseOp d) = false →
        t.shelf.streams = (fset s.shelf.streams b ((fget s.shelf.streams b).tail)) ∧ fget t.shelf.fetched b = false ∧ t.shelf.segment = s.shelf.segment ∧ t.shelf.lastServed = b ∧ fget t.shelf.lastEngine b = some false ∧
        (t.shelf.running.any fun r => r.berth == b && !r.engine && r.desc == d && !r.segment && r.seed == fget s.num.seeds b && r.step == fget s.upd.steps b) = true ∧
        ((parseOp d).maskMode = 0 → Frame [.regs, .shelf, .mem] s t))) ∧
  (∀ (s : State) (idle : CauseCycles) (b : Nat) (d : List Byte),
    shelfFree s = true → (choose (restDeficits s)).2 = some b → headOf s b = some (.segment d) → opError s b (parseOp d) true = 0 →
    ∃ t, exec (.opStart idle) s = .next t ∧ Frame (footprint (.opStart idle)) s t ∧ t.shelf.streams = s.shelf.streams ∧ t.shelf.halted = s.shelf.halted ∧ t.mem.bytes = s.mem.bytes ∧
      if missingPages s (opHandles (parseOp d)) = [] ∧ expandWaits s (parseOp d) = false then
        t.shelf.segment = (fset s.shelf.segment b ((fget s.shelf.segment b).tail)) ∧
        (t.shelf.running.any fun r => r.berth == b && !r.engine && r.desc == d && r.segment && r.seed == fget s.shelf.segSeed b && r.step == fget s.shelf.segStep b) = true
      else t.shelf.running = none ∧ t.shelf.segment = s.shelf.segment) ∧
  (∀ (s : State) (idle : CauseCycles) (b : Nat) (e : EngPass),
    shelfFree s = true → (choose (restDeficits s)).2 = some b → headOf s b = some (.engine e) →
    ∃ t, exec (.opStart idle) s = .next t ∧ t.shelf.streams = s.shelf.streams ∧
      if missingPages s (passHandles s b e) = [] then
        Frame (if e.code = 0x28 ∨ e.code = 0x29 then footprint (.opStart idle) else [.regs, .shelf, .mem]) s t ∧ t.shelf.engines = (fset s.shelf.engines b ((fget s.shelf.engines b).tail)) ∧ fget t.shelf.lastEngine b = some true ∧
        (t.shelf.running.any fun r => r.berth == b && r.engine && r.pass == e) = true
      else Frame [.regs, .shelf, .mem] s t ∧ t.shelf.running = none ∧ t.shelf.engines = s.shelf.engines) ∧
  (∀ (s : State) (stalls : CauseCycles),
    (shelfRuns s = false ∨ (s.shelf.running.all fun r => r.engine || expandWaits s (parseOp r.desc)) = true → exec (.opComplete stalls) s = .next s) ∧
    (shelfRuns s = false ∨ (s.shelf.running.all fun r => !r.engine) = true → exec (.enginePassComplete stalls) s = .next s)) ∧
  (∀ (s : State) (stalls : CauseCycles) (r : RunOp) (o : Op) (out : OpOut) (cens : Bool),
    s.shelf.running = some r → r.engine = false → shelfRuns s = true → (berthOf s r.berth).closing = false → r.segment = false → r.maskBad = false →
    o = parseOp r.desc → expandWaits s o = false → triggerBlocked s r.berth o = false → cens = (o.census && rdb s NUM_CTL_census_en && o.opcode ≠ 0x3F) →
    out = compute s o (packOf (rdb s SHF_CTL_auto_pack) o.pack o.m o.n) r.mask r.seed r.step cens → out.failed = false → (writeRuns s o.hd out.writes).2 = false →
    ∃ t, exec (.opComplete stalls) s = .next t ∧ Frame (footprint (.opComplete stalls)) s t ∧ t.shelf.running = none ∧
      t.mem.bytes = (writeRuns s o.hd out.writes).1.mem.bytes ∧ fget t.shelf.completed r.berth = fget s.shelf.completed r.berth + 1 ∧
      (o.sigEn = true → mgetD t.shelf.slots (1024 * r.berth + o.sigSlot % 1024) 0 = mgetD s.shelf.slots (1024 * r.berth + o.sigSlot % 1024) 0 + 1) ∧
      (o.layerLast = true → o.layer ∉ fget s.shelf.triggered r.berth → fget t.shelf.triggers r.berth = fget s.shelf.triggers r.berth ++ [⟨r.berth, o.layer, fget s.upd.steps r.berth, o.hd⟩]) ∧
      (o.layerLast = false → t.shelf.triggers = s.shelf.triggers) ∧
      (cens = false → EventsTo r.berth (if o.event then [eventPayload s r.berth 0x0001 0 o.seq []] else []) s t)) ∧
  (∀ (s : State) (stalls : CauseCycles) (r : RunOp) (o : Op),
    s.shelf.running = some r → r.engine = false → shelfRuns s = true → (berthOf s r.berth).closing = false → r.segment = false → o = parseOp r.desc → expandWaits s o = false →
    (triggerBlocked s r.berth o = true → ∃ t, exec (.opComplete stalls) s = .next t ∧ t.shelf.running = none ∧ t.shelf.completed = s.shelf.completed ∧
      (t.shelf.heldDone.any fun q => q.berth == r.berth && q.desc == r.desc) = true) ∧
    (triggerBlocked s r.berth o = false → r.maskBad = true → ∃ t, exec (.opComplete stalls) s = .next t ∧ t.mem.bytes = s.mem.bytes ∧ t.shelf.running = none ∧
      (fget t.lsh.close r.berth).flag = true ∧ fget t.shelf.completed r.berth = fget s.shelf.completed r.berth + 1 ∧
      EventsTo r.berth [eventPayload s r.berth 0x0005 0x0080 o.seq (toBe 1 0x01 ++ toBe 1 (tierAt s (addrOf o.hmask)))] s t)) ∧
  (∀ (s : State) (cycles : Nat) (r : RunOp),
    s.shelf.heldDone = some r →
    ∃ t, exec (.triggerHoldRelease cycles) s = .next t ∧
      if triggerBlocked s r.berth (parseOp r.desc) = true then t = s
      else Frame (footprint (.triggerHoldRelease cycles)) s t ∧ t.shelf.heldDone = none ∧
        if (berthOf s r.berth).closing then (berthOf t r.berth).closing = false
        else t.mem = s.mem ∧ fget t.shelf.completed r.berth = fget s.shelf.completed r.berth + 1) ∧
  (∀ (s : State) (stalls : CauseCycles) (r : RunOp),
    s.shelf.running = some r → r.engine = true → shelfRuns s = true → (berthOf s r.berth).closing = false →
    ∃ t, exec (.enginePassComplete stalls) s = .next t ∧ Frame (footprint (.enginePassComplete stalls)) s t ∧ t.shelf.running = none ∧
      fget t.shelf.completed r.berth = fget s.shelf.completed r.berth + 1 ∧ t.shelf.streams = s.shelf.streams) ∧
  (∀ (s : State) (b : Nat),
    ∃ t, exec (.updateStart b) s = .next t ∧ (rdb s UPD_CTL_run = false ∨ inReset s 4 = true ∨ roundOpen s b = true ∨ readyShards s b = [] → t = s) ∧
      (rdb s UPD_CTL_run = true → inReset s 4 = false → roundOpen s b = false → ∀ p, (readyShards s b).head? = some p →
        shardMissing s p.2 = [] → gradLanded s (parseSh p.2.desc) = true → shardLate s (parseSh p.2.desc) = false → ((parseSh p.2.desc).cls = 0 → orthBusy s b = false) →
        Frame (footprint (.updateStart b)) s t ∧ ((shardOf t p.1).any fun x => x.started) = true ∧ t.mem.bytes = (putHeader s p.2 (fget s.upd.steps b) hdWRITING).1.mem.bytes ∧
        ((updateOf t p.1).any fun u => u.berth == b && u.step == fget s.upd.steps b && u.finite) = true ∧
        (fget s.shelf.engines b) <+: (fget t.shelf.engines b)))

/-- A tile fault ends all work: the array and every queue are empty, the running operation's berth has its step flag set, the fault record holds tile, cause, operation and tick, the die's crash record is queued, and the module is out
of service with cause 0x02; memory stands. A wave in which a tile with a block takes as long as SHF_WDOG is a tile fault of cause watchdog. A second fault changes nothing. A failed HBM stack acts alike, with cause 0x03, moves to the failed stacks and sets stack_fail (the registers of a tile fault stay: log 177). Corrected
tile-store errors are counted, saturating, and raise REPLACE_REQUEST at the threshold alone. SHF_CTL takes a plain write; clear in SHF_CNT_CTL zeroes the cause counters; a pop removes one berth's oldest dirty entry. -/
def Obligations.ShelfFaults : Prop :=
  (∀ (s : State) (tile cause : Nat),
    s.shelf.faulted = false → tile < 1024 → cause < 4 →
    ∃ t, exec (.tileFault tile cause) s = .next t ∧ Frame (footprint (.tileFault tile cause)) s t ∧ t.shelf.faulted = true ∧ t.shelf.running = none ∧ t.shelf.heldDone = none ∧
      (∀ b, b < 4 → fget t.shelf.streams b = [] ∧ fget t.shelf.engines b = [] ∧ fget t.shelf.segment b = []) ∧ rd t SHF_FAULT_tile = tile ∧ rdb t ⟨SHF_FAULT.off, cause, cause, 4⟩ = true ∧
      t.shelf.faultTick = s.lh.tick ∧ t.shelf.faultOp = (s.shelf.running.elim 0 fun r => if r.engine then 0 else (parseOp r.desc).seq) ∧
      (∀ r, s.shelf.running = some r → (fget t.lsh.close r.berth).flag = true) ∧ tile % 32 / 16 + 2 * (tile / 512) ∈ t.rst.crashing ∧
      t.rst.latch = true ∧ t.rst.oosCause = 0x02 ∧ outOfService t = true ∧ bit (rd t MGT_ALERT) 2 = true ∧ t.mem.bytes = s.mem.bytes ∧ t.mem.objects = s.mem.objects) ∧
  (∀ (s : State) (tile cause cycles : Nat),
    s.shelf.faulted = true → exec (.tileFault tile cause) s = .next s ∧ exec (.waveWatchdogExpiry tile cycles) s = .next s) ∧
  (∀ (s : State) (tile cycles : Nat),
    exec (.waveWatchdogExpiry tile cycles) s =
      if tileWorks s tile = true ∧ rd s SHF_WDOG_cycles ≤ cycles then exec (.tileFault tile 3) s else .next s) ∧
  (∀ (s : State) (n : Nat),
    ∃ t, exec (.tileStoreCe n) s = .next t ∧ rd t SHF_CE_COUNT_count = min 65535 (rd s SHF_CE_COUNT_count + n) ∧ t.shelf = s.shelf ∧ t.mem = s.mem ∧
      (rd t SHF_CE_COUNT_count < rd s SHF_CE_THRESH_thresh → Frame [.regs] s t ∧ RegsBut [SHF_CE_COUNT.off] s t) ∧
      (recovering s 0 = false → rd s SHF_CE_COUNT_count < rd s SHF_CE_THRESH_thresh → rd s SHF_CE_THRESH_thresh ≤ rd t SHF_CE_COUNT_count → n ≠ 0 →
        ReplaceRaised 0 s t ∧ rdb t SHF_IRQ_STAT_ce_thresh = true)) ∧
  (∀ (s : State) (k : Nat),
    k < 8 → bit (rd s HBM_STAT_failed) k = false →
    ∃ t, exec (.hbmStackFail k) s = .next t ∧ Frame (footprint (.hbmStackFail k)) s t ∧ bit (rd t HBM_STAT_failed) k = true ∧ bit (rd t HBM_STAT_ok) k = false ∧
      (∀ j, j < 8 → j ≠ k → bit (rd t HBM_STAT_failed) j = bit (rd s HBM_STAT_failed) j ∧ bit (rd t HBM_STAT_ok) j = bit (rd s HBM_STAT_ok) j) ∧
      t.shelf.running = none ∧ (∀ b, b < 4 → fget t.shelf.streams b = [] ∧ fget t.shelf.engines b = [] ∧ fget t.shelf.segment b = []) ∧ t.shelf.stackStop = true ∧ t.shelf.faulted = s.shelf.faulted ∧ rdb t HBM_IRQ_STAT_stack_fail = true ∧ t.rst.latch = true ∧ t.rst.oosCause = 0x03 ∧
      t.mem.bytes = s.mem.bytes ∧ t.mem.objects = s.mem.objects) ∧
  (∀ (s : State) (w : CrsWrite),
    w.al = .plain → w.req < 10 →
    ∃ t, exec (.shfIssueEnWrite w) s = .next t ∧ Frame [.regs] s t ∧ RegsBut [SHF_CTL.off] s t ∧ rd t SHF_CTL_issue_en = w.value.toNat % 2) ∧
  (∀ (s : State) (w : CrsWrite),
    w.al = .plain ∨ w.al = .set → w.req < 10 →
    ∃ t, exec (.shfCounterClear w) s = .next t ∧ RegsBut [SHF_CNT_CTL.off] s t ∧
      Frame (footprint (.shfCounterClear w)) s t ∧ (bit w.value.toNat 1 = true → t.shelf.causes = []) ∧
      (t.shelf.running.map fun r => (r.berth, r.desc, r.pass, r.cost)) = (s.shelf.running.map fun r => (r.berth, r.desc, r.pass, r.cost)) ∧
      (s.shelf.running = none → t.shelf = (if bit w.value.toNat 1 then { s.shelf with causes := [] } else s.shelf) ∧ Frame [.regs, .shelf] s t) ∧
      (w.al = .plain → rd t SHF_CNT_CTL_freeze = w.value.toNat % 2)) ∧
  (∀ (s : State) (b : Nat) (w : CrsWrite),
    b < 4 → w.al = .plain → w.req < 10 →
    ∃ t, exec (.numDirtyPop b w) s = .next t ∧ Frame [.num] s t ∧
      t.num = if bit w.value.toNat 0 then { s.num with dirty := fset s.num.dirty b (fget s.num.dirty b).tail } else s.num)

/-- A boundary whose conditions or decision are open changes nothing. One that commits outside an Offshore session records the step, flips every shard whose pending header is COMPLETE for it, marks only held_last for a HELD one, leaves
the other shards and berths, raises the counter by 1, clears the skip count, the triggers posted and the step flag, and serves the fetches held for the new step. One that skips leaves every commit word and the counter, marks
the pending headers of the step ABANDONED, counts the skip, drops the step's triggers and collectives, and pauses the berth with SKIP_LIMIT at the limit. SHARD_FETCH answers from the live slot, or waits for its step or for pages in T3. -/
def Obligations.StepBoundaryRows : Prop :=
  (∀ (s : State) (b : Nat), decision s b = none → exec (.stepBoundary b) s = .next s) ∧
  (∀ (s : State) (b : Nat) (n : W64),
    b < 4 → decision s b = some false → sessOf s b = none → n = fget s.upd.steps b → (s.upd.shards.map fun p => p.1).Nodup →
    (∀ p ∈ s.upd.shards, p.2.berth = b → (readH s (pendH p.2) 0 16).2 = false) →
    ∃ t, exec (.stepBoundary b) s = .next t ∧ Frame (footprint (.stepBoundary b)) s t ∧ fget t.upd.commits b = n ∧ fget t.upd.steps b = n + 1 ∧ fget t.upd.skips b = 0 ∧
      t.upd.skipTotal = s.upd.skipTotal ∧ fget t.shelf.posted b = 0 ∧ fget t.shelf.triggered b = [] ∧ (fget t.lsh.close b).flag = false ∧ (fget t.lsh.close b).decided = false ∧
      (∀ c, c < 4 → c ≠ b → fget t.upd.steps c = fget s.upd.steps c ∧ fget t.upd.commits c = fget s.upd.commits c ∧ fget t.shelf.posted c = fget s.shelf.posted c ∧
        fget t.lsh.close c = fget s.lsh.close c) ∧
      (∀ p ∈ s.upd.shards, p.2.berth ≠ b → mget t.upd.shards p.1 = some p.2) ∧
      (∀ p ∈ s.upd.shards, p.2.berth = b →
        mget t.upd.shards p.1 = some (
          let q := { p.2 with desc := p.2.next.getD p.2.desc, next := none, reduced := 0, started := false }
          if getHeader s p.2 == (n.toNat, 2) then { q with live := 1 - p.2.live, heldLast := false, stepLo := BitVec.ofNat 32 n.toNat }
          else if getHeader s p.2 == (n.toNat, 3) then { q with heldLast := true } else q)) ∧
      ((∀ o ∈ s.mem.objects, o.2.moved = [] ∧ o.2.tier ≠ 3) →
        ∀ f ∈ s.upd.fetches, (∃ sh, mget s.upd.shards f.shard = some sh ∧ sh.berth = b) → f.step.toNat ≤ (n + 1).toNat →
        f ∉ t.upd.fetches ∧ t.tx.any (fun m => match m with
          | .fetch k r _ _ _ => k == f.shard && r == f.req
          | _ => false) = true)) ∧
  (∀ (s : State) (b : Nat) (n : W64) (k : Nat),
    b < 4 → decision s b = some true → n = fget s.upd.steps b → k = fget s.upd.skips b + 1 → (s.upd.shards.map fun p => p.1).Nodup →
    ∃ t, exec (.stepBoundary b) s = .next t ∧ Frame (footprint (.stepBoundary b)) s t ∧ t.upd.steps = s.upd.steps ∧ t.upd.commits = s.upd.commits ∧ fget t.upd.skips b = k ∧
      fget t.upd.skipTotal b = fget s.upd.skipTotal b + 1 ∧ fget t.shelf.triggers b = [] ∧ fget t.shelf.triggered b = [] ∧ fget t.shelf.posted b = 0 ∧
      (∀ c, c < 16 → (chanOf t b c).queue = [] ∧ (chanOf t b c).active = []) ∧ fget t.lsh.copies b = [] ∧ rdb t UPD_IRQ_STAT_skip = true ∧
      (∀ p ∈ s.upd.shards, (mget t.upd.shards p.1).map (fun x => (x.berth, x.live, x.heldLast, x.stepLo)) = some (p.2.berth, p.2.live, p.2.heldLast, p.2.stepLo)) ∧
      (fget t.upd.paused b = (fget s.upd.paused b || (k == rd s UPD_SKIP_LIMIT_limit))) ∧
      EventsTo b (if k = rd s UPD_SKIP_LIMIT_limit then [eventPayload s b 0x0006 0 0 (toBe 1 k)] else []) s t ∧ OtherBerths b s t) ∧
  (∀ (s : State) (b : Nat) (p : Nat × Shard),
    b < 4 → decision s b = some true → s.upd.shards = [p] → p.2.berth = b → (getHeader s p.2).1 = (fget s.upd.steps b).toNat →
    (readH s (pendH p.2) 0 64).2 = false → allocated s b (pendH p.2) = true →
    ∃ t, exec (.stepBoundary b) s = .next t ∧ getHeader t p.2 = ((fget s.upd.steps b).toNat, 4)) ∧
  (∀ (s : State) (i req : Nat) (step : W64) (sh : Shard) (n : Nat),
    mget s.upd.shards i = some sh → n = (fget s.upd.steps sh.berth).toNat →
    ∃ t, exec (.shardFetch i step req) s = .next t ∧ t.upd.shards = s.upd.shards ∧
      if n < step.toNat ∨ (n = step.toNat ∧ roundOpen s sh.berth = true) then
        Frame [.regs, .upd] s t ∧ t.upd = { s.upd with fetches := s.upd.fetches ++ [⟨i, step, req⟩] } ∧ rdb t UPD_IRQ_STAT_fetch_wait = true
      else if missingPages s [liveH sh] ≠ [] then Frame [.mem, .upd] s t ∧ t.upd = { s.upd with fetches := s.upd.fetches ++ [⟨i, step, req⟩] } ∧ t.mem.bytes = s.mem.bytes
      else t.upd = s.upd ∧ t.mem.bytes = s.mem.bytes ∧ t.tx = .fetch i req sh.stepLo (parseSh sh.desc).wide (workingCopy s sh) :: s.tx ∧
        ((parseSh sh.desc).wide = true → workingCopy s sh = (readF32N s (liveH sh) 64 (parseSh sh.desc).size).1)) ∧
  (∀ (s : State) (i req : Nat) (step : W64), mget s.upd.shards i = none → exec (.shardFetch i step req) s = .next s)

/-- PAGER_MOVE_START does nothing while the Pager is stopped, has sixteen moves in flight or HARBOUR is in reset. An operation that is fetched cancels the demotions in flight of the objects that it names, and no other move. The first open demand in rotation starts a
promotion into a free T2 page, and that berth becomes the last served. A completed demotion puts the page into its T3 channel, a promotion into T2, each counted, the page left goes to be zeroed, and no byte that can be
read changes; the other pages and objects stay. A move that meets an uncorrectable word leaves the page where it is and names berth and cause. Each zeroed page lowers its channel's count of pages to zero by one. -/
def Obligations.PagerMoves : Prop :=
  (∀ (s : State), rdb s PGR_CTL_run = false ∨ 16 ≤ s.mem.moves.length ∨ inReset s 4 = true ∨ stopping s = true → exec .pagerMoveStart s = .next s) ∧
  (∀ (s : State) (idle : CauseCycles) (b : Nat) (d : List Byte),
    shelfFree s = true → (choose (restDeficits s)).2 = some b → headOf s b = some (.stream d) → fget s.shelf.fetched b = true ∨ opError s b (parseOp d) false = 0 → droppedOf s (parseOp d) = none →
    ∃ t, exec (.opStart idle) s = .next t ∧ t.mem.bytes = s.mem.bytes ∧
      t.mem.moves = s.mem.moves.filter fun m => m.kind != 1 || !(opHandles (parseOp d)).any fun h => m.berth == hBerth h && m.object == hObj h) ∧
  (∀ (s : State) (w : Want),
    rdb s PGR_CTL_run = true → s.mem.moves.length < 16 → inReset s 4 = false → stopping s = false → s.mem.allocs = [] →
    (∀ b, b < 4 → (window s b).length ≤ fget s.mem.entered b) → (s.mem.objects.all fun p => p.2.segment.isEmpty || !lostPage s p.2) = true →
    (wantsOf s 1).head? = some w → freeT2 s w.berth > 0 →
    ∃ t, exec .pagerMoveStart s = .next t ∧ Frame [.mem] s t ∧ t.mem.moves = s.mem.moves ++ [⟨w.berth, w.object, w.page, if w.rehome then 2 else 0, 0⟩] ∧
      t.mem.lastRr = w.berth ∧ t.mem.objects = s.mem.objects ∧ t.mem.bytes = s.mem.bytes ∧ t.mem.wants = s.mem.wants) ∧
  (∀ (s : State) (m : Move) (o : Obj),
    s.mem.moves.find? (fun x => x.berth = m.berth && x.object = m.object && x.page = m.page) = some m → m.kind ≤ 1 → objAt s m.berth m.object = some o →
    badRange s (objBase m.berth m.object + m.page * pageSize) pageSize = false → s.mem.allocs = [] → s.upd.fetches = [] → o.tier = 2 → m.page < 2 ^ 22 →
    (s.mem.held.any fun h => h.berth == m.berth && h.object == m.object && h.page == m.page) = false →
    ∃ t, exec (.pagerMoveComplete m.berth m.object m.page) s = .next t ∧ Frame [.counts, .mem] s t ∧ t.mem.bytes = s.mem.bytes ∧ m ∉ t.mem.moves ∧
      CountsBut [if m.kind = 1 then 0x1210 + m.berth else 0x1200 + m.berth] s t ∧
      mgetD t.counts (if m.kind = 1 then 0x1210 + m.berth else 0x1200 + m.berth) 0 = mgetD s.counts (if m.kind = 1 then 0x1210 + m.berth else 0x1200 + m.berth) 0 + 1 ∧
      (∃ o', objAt t m.berth m.object = some o' ∧ pageLoc o' m.page = (if m.kind = 1 then ⟨3, m.channel⟩ else ⟨2, 0⟩) ∧ { o' with moved := o.moved } = o ∧
        ∀ p, p < o.pages → p ≠ m.page → pageLoc o' p = pageLoc o p) ∧
      mdel t.mem.objects (okey m.berth m.object) = mdel s.mem.objects (okey m.berth m.object) ∧
      (m.kind = 1 → dirtyPages t 2 0 = dirtyPages s 2 0 + 1) ∧
      (m.kind = 0 → dirtyPages t 3 (pageLoc o m.page).channel = dirtyPages s 3 (pageLoc o m.page).channel + 1)) ∧
  (∀ (s : State) (m : Move) (o : Obj),
    s.mem.moves.find? (fun x => x.berth = m.berth && x.object = m.object && x.page = m.page) = some m → m.kind ≤ 1 → objAt s m.berth m.object = some o →
    badRange s (objBase m.berth m.object + m.page * pageSize) pageSize = true → s.mem.allocs = [] → s.upd.fetches = [] → tierAt s (objBase m.berth m.object + m.page * pageSize) = 2 → m.berth < 4 →
    ∃ t, exec (.pagerMoveComplete m.berth m.object m.page) s = .next t ∧ m ∉ t.mem.moves ∧ t.mem.objects = s.mem.objects ∧ t.mem.bytes = s.mem.bytes ∧
      rdb t PGR_IRQ_STAT_move_ue = true ∧ rd t PGR_ERR_berth = m.berth ∧ rd t PGR_ERR_cause = 2) ∧
  (∀ (s : State) (b o p : Nat),
    s.mem.moves.find? (fun x => x.berth = b && x.object = o && x.page = p) = none → exec (.pagerMoveComplete b o p) s = .next s) ∧
  (∀ (s : State) (tier channel ch : Nat),
    ch = (if tier = 3 then channel else 0) → s.mem.allocs = [] → (s.mem.zeroing.map fun z => (z.1, z.2.1)).Nodup → (s.mem.zeroing.all fun z => z.2.2 != 0) = true →
    ∃ t, exec (.pageZeroComplete tier channel) s = .next t ∧ Frame [.mem] s t ∧ t.mem.bytes = s.mem.bytes ∧ t.mem.objects = s.mem.objects ∧ dirtyPages t tier ch = dirtyPages s tier ch - 1 ∧
      t.mem.zeroing.filter (fun z => (z.1, z.2.1) ≠ (tier, ch)) = s.mem.zeroing.filter (fun z => (z.1, z.2.1) ≠ (tier, ch)))

/-- A scrub of a unit in service adds its corrected words to that unit's count, saturating, and raises REPLACE_REQUEST when the count reaches its threshold; an uncorrectable word that it finds in the tier is listed unreadable and its
bytes stand. A unit that the module lacks, or whose tier is in reset, is not scrubbed. ERROR_WINDOW_EXPIRY after 2^20 ticks zeroes every windowed count, the ports' symbol counts too, and starts a window. A lost channel leaves
service, objects with a page on it and a segment read as dropped, demotions to it end, and REPLACE_REQUEST rises; the Pager drops such an object with its bytes once nothing pins it; a channel that is not in service cannot be lost. -/
def Obligations.MemoryErrors : Prop :=
  (∀ (s : State) (tier unit n : Nat) (bad : List Nat),
    tier = 0 ∨ 3 < tier ∨ (if tier = 1 then 4 else if tier = 2 then 8 else 12) ≤ unit ∨ (tier = 3 ∧ hasDdr s.variant = false) ∨ inReset s (tierDomain tier) = true →
    exec (.memoryScrub tier unit n bad) s = .next s) ∧
  (∀ (s : State) (unit n : Nat),
    unit < 8 → inReset s 5 = false → recovering s 5 = false →
    ∃ t, exec (.memoryScrub 2 unit n []) s = .next t ∧ Frame (footprint (.memoryScrub 2 unit n [])) s t ∧ t.mem.bad = s.mem.bad ∧ t.mem.bytes = s.mem.bytes ∧
      rd t (HBM_CE_COUNT_count.at unit) = min 65535 (rd s (HBM_CE_COUNT_count.at unit) + n) ∧
      (n ≠ 0 → rd s (HBM_CE_COUNT_count.at unit) < rd s HBM_CE_THRESH_thresh → rd s HBM_CE_THRESH_thresh ≤ rd t (HBM_CE_COUNT_count.at unit) →
        ReplaceRaised 2 s t ∧ rdb t HBM_IRQ_STAT_ce_thresh = true) ∧
      (rd t (HBM_CE_COUNT_count.at unit) < rd s HBM_CE_THRESH_thresh → t.quay = s.quay ∧ t.rst = s.rst)) ∧
  (∀ (s : State) (unit a c : Nat),
    unit < 8 → inReset s 5 = false → c = a / 64 * 64 → tierAt s c = 2 →
    ∃ t, exec (.memoryScrub 2 unit 0 [a]) s = .next t ∧ Frame (footprint (.memoryScrub 2 unit 0 [a])) s t ∧ t.mem.bytes = s.mem.bytes ∧ t.mem.objects = s.mem.objects ∧
      c ∈ t.mem.bad ∧ (∀ x ∈ t.mem.bad, x = c ∨ x ∈ s.mem.bad) ∧ (∀ x ∈ s.mem.bad, x ∈ t.mem.bad) ∧ badRange t c 64 = true ∧ rdb t HBM_IRQ_STAT_ue = true) ∧
  (∀ (s : State),
    ∃ t, exec .errorWindowExpiry s = .next t ∧
      if since s s.mem.window < 2 ^ 20 then t = s
      else Frame [.regs, .mem, .clf] s t ∧ t.mem = { s.mem with window := s.lh.tick } ∧ rd t SHF_CE_COUNT_count = 0 ∧ rd t HBR_CE_COUNT_count = 0 ∧
        (∀ i, i < 8 → rd t (HBM_CE_COUNT_count.at i) = 0) ∧ (hasDdr s.variant = true → ∀ i, i < 12 → rd t (DDR_CE_COUNT_ce.at i) = 0 ∧ rd t (DDR_CE_COUNT_ue.at i) = 0) ∧
        (∀ p ∈ t.clf.ports, p.2.symbols = 0 ∧ p.2.window = s.lh.tick) ∧ rd t SHF_CE_THRESH_thresh = rd s SHF_CE_THRESH_thresh) ∧
  (∀ (s : State) (ch : Nat),
    hasDdr s.variant = false ∨ 12 ≤ ch ∨ bit (rd s DDR_STAT_in_service) ch = false → exec (.ddrChannelLost ch) s = .next s) ∧
  (∀ (s : State) (ch : Nat),
    hasDdr s.variant = true → ch < 12 → bit (rd s DDR_STAT_in_service) ch = true → chanLost s ch = false →
    ∃ t, exec (.ddrChannelLost ch) s = .next t ∧ Frame (footprint (.ddrChannelLost ch)) s t ∧ bit (rd t DDR_STAT_in_service) ch = false ∧ chanLost t ch = true ∧
      (∀ c, c < 12 → c ≠ ch → bit (rd t DDR_STAT_in_service) c = bit (rd s DDR_STAT_in_service) c ∧ chanLost t c = chanLost s c) ∧
      rdb t DDR_IRQ_STAT_chan_lost = true ∧ ReplaceRaised 4 s t ∧
      t.mem.objects = s.mem.objects ∧ t.mem.bytes = s.mem.bytes ∧
      (∀ h o, objOf s h = some o → (o.moved.any fun q => q.2.tier == 3 && q.2.channel == ch) = true → o.segment ≠ [] → isDropped t h = true) ∧
      (∀ m ∈ t.mem.moves, ¬(m.kind = 1 ∧ m.channel = ch) ∧ m ∈ s.mem.moves)) ∧
  (∀ (s : State) (k : Nat) (o : Obj),
    rdb s PGR_CTL_run = true → s.mem.moves.length < 16 → inReset s 4 = false → stopping s = false → s.mem.wants = [] → s.mem.allocs = [] →
    (∀ b, b < 4 → (window s b).length ≤ fget s.mem.entered b) → s.mem.objects = [(k, o)] → lostPage s o = true → o.segment ≠ [] → o.dropped = false →
    (pinnedHandles s).any (namesKey k) = false →
    ∃ t, exec .pagerMoveStart s = .next t ∧ t.mem.objects = [(k, { o with dropped := true, moved := [] })] ∧ BytesZero (k * 2 ^ 43) 4096 t)

/-- A port that may not train (absent, disabled, asleep, in reset) takes no training step. One that may goes from each state below IDENT to the next at its step, an attempt beginning at DETECT with the signal of eight lanes at its end.
IDENT records the peer's port, coordinates and serial, half the round trip, and ends UP with fresh buffers, or for a retrain with the flits the peer lacks sent again in order, each with the present ack and credit; with a peer port other than its own xor 2, or another module than
its lower-numbered pair reaches, it is MISWIRED. A state past its limit, or an attempt past CLF_TMO.train, fails the attempt: DOWN, and FAILED at the eighth or for a retrain; FAILED tries again after 100,000 ticks. -/
def Obligations.PortTraining : Prop :=
  (∀ (s : State) (n : Nat) (id : Ident),
    mayTrain s n = false → exec (.portTrainingStep n id) s = .next s ∧ exec (.portRetryTimer n) s = .next s) ∧
  (∀ (s : State) (n k : Nat) (id : Ident),
    n < 12 → mayTrain s n = true → k = pState s n → k < 5 →
    ∃ t, exec (.portTrainingStep n id) s = .next t ∧ Frame [.free, .regs, .clf] s t ∧ RegsBut [(CLF_PSTAT.at n).off] s t ∧ pState t n = k + 1 ∧
      portOf t n = { portOf s n with since := s.lh.tick, attempt := if k = 0 then s.lh.tick else (portOf s n).attempt } ∧ mdel t.clf.ports n = mdel s.clf.ports n ∧
      rd t (CLF_PSTAT_signal.at n) = (if k = 1 then 0xFF else rd s (CLF_PSTAT_signal.at n)) ∧ (k ≠ 3 → t.free = s.free)) ∧
  (∀ (s : State) (n q : Nat) (id : Ident) (p : Port),
    n < 12 → mayTrain s n = true → pState s n = 5 → q = (if n % 2 = 0 then n + 1 else n - 1) → p = portOf s n →
    id.port = n ^^^ 2 → (portPresent s.variant q = false ∨ pState s q ≠ 6 ∨ (portOf s q).serial = id.serial) → p.waiting = [] →
    ∃ t, exec (.portTrainingStep n id) s = .next t ∧ Frame [.tx, .counts, .regs, .clf] s t ∧ CountsBut [0x1604 + 0x10 * n] s t ∧ pState t n = 6 ∧ rd t (CLF_PEER_port.at n) = id.port ∧
      rd t (CLF_LAT_ps.at n) = min 65535 (id.latPs / 2) ∧ rdb t (CLF_PIRQ_STAT_up.at n) = true ∧ rd t (CLF_TRAIN_attempts.at n) = 0 ∧
      rdb t (CLF_PEER_valid.at n) = id.coord.isSome ∧ (∀ c, id.coord = some c → c < 2 ^ 17 → rd t (CLF_PEER_device.at n) = c) ∧ mdel t.clf.ports n = mdel s.clf.ports n ∧
      (p.retrain = false → t.tx = s.tx ∧ portOf t n = { clearLink p with since := s.lh.tick, serial := id.serial, part := false }) ∧
      (p.retrain = true →
        (portOf t n).replay = p.replay.filter (fun x => (x.flit.seq + 4096 - id.replay) % 4096 < 2048) ∧ (portOf t n).retrain = false ∧ (portOf t n).txSeq = p.txSeq ∧
        (portOf t n).rxNext = p.rxNext ∧ 
        t.tx = ((portOf t n).replay.map fun x => Tx.flit n (sealFlit { x.flit with
          ack := (p.rxNext + 4095) % 4096, ackV := true, nak := false, crSel := x.flit.seq % 10, crTotal := mgetD p.freed (x.flit.seq % 10) 0 })).reverse ++ s.tx)) ∧
  (∀ (s : State) (n q : Nat) (id : Ident),
    n < 12 → mayTrain s n = true → pState s n = 5 → q = (if n % 2 = 0 then n + 1 else n - 1) →
    (id.port ≠ n ^^^ 2 ∨ (q < n ∧ portPresent s.variant q = true ∧ pState s q = 6 ∧ (portOf s q).serial ≠ id.serial)) →
    ∃ t, exec (.portTrainingStep n id) s = .next t ∧ Frame (footprint (.portTrainingStep n id)) s t ∧ pState t n = 8 ∧ rdb t (CLF_PIRQ_STAT_miswired.at n) = true ∧
      (portOf t n).replay = [] ∧ (portOf t n).waiting = [] ∧ pState t q = pState s q) ∧
  (∀ (s : State) (n a : Nat),
    n < 12 → portPresent s.variant n = true → 1 ≤ pState s n → pState s n ≤ 5 →
    (since s (portOf s n).since ≥ (if pState s n = 1 then 1 else if pState s n = 2 then 2000 else if pState s n = 3 then 10 else if pState s n = 4 then 1 else 2) ∨
      since s (portOf s n).attempt ≥ rd s CLF_TMO_train) →
    a = min 15 (rd s (CLF_TRAIN_attempts.at n) + 1) →
    ∃ t, exec (.trainingTimeout n) s = .next t ∧ Frame (footprint (.trainingTimeout n)) s t ∧ rd t (CLF_TRAIN_attempts.at n) = a ∧ rd t (CLF_TRAIN_cause.at n) = pState s n ∧
      pState t n = (if (portOf s n).retrain = true ∨ 8 ≤ a then 7 else 0) ∧
      ((portOf s n).retrain = true ∨ 8 ≤ a → rdb t (CLF_PIRQ_STAT_failed.at n) = true ∧ (portOf t n).replay = [] ∧ (portOf t n).waiting = []) ∧
      ((portOf s n).retrain = false → a < 8 → Frame [.regs, .clf] s t ∧ (portOf t n).replay = (portOf s n).replay ∧ (portOf t n).waiting = (portOf s n).waiting)) ∧
  (∀ (s : State) (n : Nat),
    portPresent s.variant n = false ∨ pState s n = 0 ∨ 5 < pState s n ∨
      (since s (portOf s n).since < (if pState s n = 1 then 1 else if pState s n = 2 then 2000 else if pState s n = 3 then 10 else if pState s n = 4 then 1 else 2) ∧
        since s (portOf s n).attempt < rd s CLF_TMO_train) →
    exec (.trainingTimeout n) s = .next s) ∧
  (∀ (s : State) (n : Nat),
    n < 12 → mayTrain s n = true →
    ∃ t, exec (.portRetryTimer n) s = .next t ∧
      if pState s n = 7 ∧ 100000 ≤ since s (portOf s n).since then
        pState t n = 1 ∧ Frame [.regs, .clf] s t ∧ portOf t n = { portOf s n with since := s.lh.tick, attempt := s.lh.tick }
      else t = s) ∧
  (∀ (s : State) (n ps : Nat),
    n < 12 →
    ∃ t, exec (.latencyProbe n ps) s = .next t ∧
      if usable s n = true then Frame [.regs] s t ∧ RegsBut [(CLF_LAT.at n).off] s t ∧ rd t (CLF_LAT_ps.at n) = min 65535 (ps / 2) else t = s)

/-- A port that is not UP, or in reset, takes no flit. A flit under a codeword of more than six symbol errors, with a bad hcrc or out of order is answered by an idle flit with nak and the last good number, and nothing of it is taken; a good one in order moves
the expected number and the credit by one and is acknowledged; one in transit goes out at once with one hop more, and one of 127 hops is dropped. An ack removes the flits that it covers from the replay buffer, in order; a nak, or the replay timer, sends the rest again, and after the limit of resends the
port retrains with them. PORT_DOWN, a clear of enable and a cable removed end the port with its buffers cleared, and PORT_DOWN stands in the error log; a write of retrain begins an attempt; a cable seated is supplied and retries a MISWIRED port; over-current cuts the supply. -/
def Obligations.PortTraffic : Prop :=
  (∀ (s : State) (n ns : Nat) (f : Flit) (c k : Option Nat),
    usable s n = false → exec (.flitReceive n f c k) s = .next s ∧ exec (.replayTimerExpiry n ns) s = .next s) ∧
  (∀ (s : State) (n : Nat) (f : Flit) (c k : Option Nat) (p : Port),
    n < 12 → usable s n = true → inReset s (8 + n) = false → p = portOf s n → (∀ e ∈ k, e = 0 ∨ 6 < e) →
    ((∃ e ∈ c, 6 < e) ∨ (∃ e ∈ k, 6 < e) ∨ f.hcrc ≠ flitCrc f ∨ (f.ackV = false ∧ f.crSel = 15 ∧ f.len ≠ 0 ∧ f.seq ≠ p.rxNext)) →
    ∃ t, exec (.flitReceive n f c k) s = .next t ∧ Frame [.tx, .counts, .clf] s t ∧ portOf t n = { p with nakking := true } ∧ mdel t.clf.ports n = mdel s.clf.ports n ∧
      (t.tx.tail = s.tx ∧ (t.tx.head?.any fun m => match m with
        | .flit q g => q == n && g.nak && g.len == 0 && g.ackV && g.ack == (p.rxNext + 4095) % 4096 && hcrcOk g
        | _ => false) = true) ∧
      CountsBut [0x1601 + 0x10 * n, 0x1604 + 0x10 * n, 0x1605 + 0x10 * n] s t ∧ mgetD t.counts (0x1605 + 0x10 * n) 0 = mgetD s.counts (0x1605 + 0x10 * n) 0 + 1) ∧
  (∀ (s : State) (n : Nat) (f : Flit) (c k : Option Nat) (p : Port) (b : Nat),
    n < 12 → usable s n = true → inReset s (8 + n) = false → p = portOf s n → f.hcrc = flitCrc f → f.ackV = false → f.crSel = 15 → f.len ≠ 0 → f.seq = p.rxNext →
    (∀ e ∈ c, e ≤ 6) → (∀ e ∈ k, e ≤ 6) → min 65535 ((p.symbols + k.getD 0) / 1000) ≤ rd s (CLF_THRESH_thresh.at n) → b = bufOf f.vc f.cls → f.vc < 3 → f.first = true → mget p.partials f.vc = none →
    (f.last = true → f.hops < 127 → routePkt s (n / 4) f.dst f.cls f.detour = .here →
      ∃ t, exec (.flitReceive n f c k) s = .next t ∧ Frame [.tx, .counts, .clf] s t ∧
        portOf t n = { p with rxNext := (p.rxNext + 1) % 4096, nakking := false, freed := mset p.freed b ((mgetD p.freed b 0 + 1) % 4096), symbols := p.symbols + k.getD 0 } ∧
        (t.tx.head?.any fun m => match m with
          | .flit q g => q == n && !g.nak && g.len == 0 && g.ack == ((p.rxNext + 1) % 4096 + 4095) % 4096 && hcrcOk g
          | _ => false) = true ∧ t.tx.drop 2 = s.tx ∧ CountsBut [0x1600 + 0x10 * n, 0x1602 + 0x10 * n, 0x1604 + 0x10 * n, 0x1605 + 0x10 * n] s t ∧
        mgetD t.counts (0x1602 + 0x10 * n) 0 = mgetD s.counts (0x1602 + 0x10 * n) 0 + BitVec.ofNat 64 (k.getD 0)) ∧
    (127 ≤ f.hops →
      ∃ t, exec (.flitReceive n f c k) s = .next t ∧ rdb t CLF_IRQ_STAT_unreach = true ∧ mgetD t.counts 0x16C1 0 = mgetD s.counts 0x16C1 0 + 1 ∧
        mdel t.clf.ports n = mdel s.clf.ports n ∧ (portOf t n).rxNext = (p.rxNext + 1) % 4096)) ∧
  (∀ (s : State) (n : Nat) (f : Flit) (c k : Option Nat) (p : Port) (b d q cls : Nat) (plus det : Bool) (x : OutFlit),
    n < 12 → usable s n = true → inReset s (8 + n) = false → p = portOf s n → f.hcrc = flitCrc f → f.ackV = false → f.crSel = 15 → f.len ≠ 0 → f.seq = p.rxNext →
    (∀ e ∈ c, e ≤ 6) → (∀ e ∈ k, e ≤ 6) → min 65535 ((p.symbols + k.getD 0) / 1000) ≤ rd s (CLF_THRESH_thresh.at n) → b = bufOf f.vc f.cls → f.vc < 3 → f.first = true → mget p.partials f.vc = none →
      f.hops < 127 → routePkt s (n / 4) f.dst f.cls f.detour = .out d plus det cls → dirUp s d plus = [q] → q ≠ n →
      x = ⟨n, some b, { f with cls := cls, detour := f.detour || det }⟩ → nextFlit { portOf s q with waiting := [x] } = some x → (portOf s q).waiting = [] → (portOf s q).replay.length < 512 →
      ∃ t, exec (.flitReceive n f c k) s = .next t ∧ Frame [.tx, .counts, .clf] s t ∧ (portOf t q).waiting = [] ∧
        (portOf t q).replay = (portOf s q).replay ++ [⟨n, none, { x.flit with seq := (portOf s q).txSeq, hops := f.hops + 1 }⟩] ∧ (portOf t q).txSeq = ((portOf s q).txSeq + 1) % 4096 ∧
        mget (portOf t n).freed b = some ((mgetD p.freed b 0 + 1) % 4096) ∧ mgetD t.counts 0x16C2 0 = mgetD s.counts 0x16C2 0 + 1 ∧
        (t.tx.any fun m => match m with
          | .flit k g => k == q && g.hops == f.hops + 1 && g.dst == f.dst && g.src == f.src && g.cls == cls && g.payload == f.payload && hcrcOk g
          | _ => false) = true) ∧
  (∀ (s : State) (n : Nat) (f : Flit) (p : Port),
    n < 12 → usable s n = true → inReset s (8 + n) = false → p = portOf s n → f.hcrc = flitCrc f → f.ackV = true → f.nak = false → f.crSel = 15 → f.len = 0 → p.waiting = [] →
    ∃ t, exec (.flitReceive n f (some 0) none) s = .next t ∧ Frame [.counts, .clf] s t ∧ (portOf t n).replay = p.replay.filter (fun x => !decide ((f.ack + 4096 - x.flit.seq) % 4096 < 2048)) ∧
      (portOf t n).txSeq = p.txSeq ∧ (portOf t n).rxNext = p.rxNext ∧ (portOf t n).resends = (if (portOf t n).replay = p.replay then p.resends else 0)) ∧
  (∀ (s : State) (n ns : Nat) (p : Port),
    n < 12 → usable s n = true → p = portOf s n → rd s (CLF_RETRY_timer.at n) ≤ ns → p.replay ≠ [] →
    ∃ t, exec (.replayTimerExpiry n ns) s = .next t ∧ Frame (footprint (.replayTimerExpiry n ns)) s t ∧ (portOf t n).replay = p.replay ∧ mdel t.clf.ports n = mdel s.clf.ports n ∧
      (p.resends < rd1 s (CLF_RETRY_limit.at n) →
        t.tx = (p.replay.map fun x => Tx.flit n (sealFlit { x.flit with
          ack := (p.rxNext + 4095) % 4096, ackV := true, nak := p.nakking, crSel := x.flit.seq % 10, crTotal := mgetD p.freed (x.flit.seq % 10) 0 })).reverse ++ s.tx ∧
        t.regs = s.regs ∧ (portOf t n).resends = p.resends + 1 ∧ mgetD t.counts (0x1603 + 0x10 * n) 0 = mgetD s.counts (0x1603 + 0x10 * n) 0 + 1 ∧
        mgetD t.counts (0x1604 + 0x10 * n) 0 = mgetD s.counts (0x1604 + 0x10 * n) 0 + BitVec.ofNat 64 p.replay.length) ∧
      (rd1 s (CLF_RETRY_limit.at n) ≤ p.resends →
        t.tx = s.tx ∧ pState t n = 1 ∧ (portOf t n).retrain = true ∧ (portOf t n).attempt = s.lh.tick ∧ rdb t (CLF_PIRQ_STAT_down.at n) = true)) ∧
  (∀ (s : State) (n ns : Nat), (portOf s n).replay = [] ∨ ns < rd s (CLF_RETRY_timer.at n) → exec (.replayTimerExpiry n ns) s = .next s) ∧
  (∀ (s : State) (n st : Nat),
    n < 12 →
    ∃ t, exec (.portDown n st) s = .next t ∧
      if portPresent s.variant n = true ∧ pState s n = 6 ∧ (st = 0 ∨ st = 7 ∨ st = 8) then
        Frame (footprint (.portDown n st)) s t ∧ pState t n = st ∧ rdb t (CLF_PIRQ_STAT_down.at n) = true ∧ (portOf t n).replay = [] ∧ (portOf t n).waiting = [] ∧ (portOf t n).since = s.lh.tick ∧
        (discovered s = true → ReplaceRaised 5 s t) ∧
        (recovering s (8 + n) = false → s.rst.log.length < 64 →
          t.rst.log = s.rst.log ++ [⟨s.rst.logSeq, s.lh.tick, 8 + n, 9, genOf s (8 + n), false, 0, BitVec.ofNat 64 n, 0xFF⟩])
      else t = s) ∧
  (∀ (s : State) (n : Nat) (w : CrsWrite),
    n < 12 → portPresent s.variant n = true → w.al = .plain → w.req < 10 → bit w.value.toNat 0 = false →
    ∃ t, exec (.portEnableClear n w) s = .next t ∧ rdb t (CLF_PCTL_enable.at n) = false ∧ (rdb s (CLF_PCTL_enable.at n) = true → pState t n = 0 ∧ (portOf t n).replay = [] ∧ (portOf t n).waiting = []) ∧
      (rdb s (CLF_PCTL_enable.at n) = false → Frame [.regs] s t ∧ pState t n = pState s n)) ∧
  (∀ (s : State) (n : Nat) (w : CrsWrite),
    n < 12 → mayTrain s n = true → w.al = .plain → w.req < 10 → bit w.value.toNat 0 = true → bit w.value.toNat 1 = true →
    ∃ t, exec (.portRetrainWrite n w) s = .next t ∧ Frame [.regs, .counts, .clf] s t ∧ pState t n = 1 ∧ (portOf t n).replay = (portOf s n).replay ∧ (portOf t n).attempt = s.lh.tick ∧
      (portOf t n).retrain = (decide (pState s n = 6) || (portOf s n).retrain) ∧ mgetD t.counts (0x1606 + 0x10 * n) 0 = mgetD s.counts (0x1606 + 0x10 * n) 0 + 1) ∧
  (∀ (s : State) (n : Nat),
    n < 12 → portPresent s.variant n = true →
    (∃ t, exec (.cableRemoved n) s = .next t ∧ pState t n = 0 ∧ (portOf t n).seated = false ∧ (portOf t n).supply = false ∧ (pState s n ≠ 0 → (portOf t n).replay = [])) ∧
    (∃ t, exec (.cableSeated n) s = .next t ∧ (portOf t n).seated = true ∧ (portOf t n).supply = true ∧ Frame [.regs, .clf] s t ∧
      pState t n = (if pState s n = 8 ∧ mayTrain s n = true then 1 else pState s n))) ∧
  (∀ (s : State) (n ma : Nat),
    ∃ t, exec (.cableSupplyOvercurrent n ma) s = .next t ∧
      if portPresent s.variant n = true ∧ 1200 < ma then Frame [.clf] s t ∧ portOf t n = { portOf s n with supply := false } ∧ mdel t.clf.ports n = mdel s.clf.ports n else t = s)

/-- An assign message on a port that is not UP, or while L7 does not run, changes nothing; on a port whose number is not the peer's xor 2 it makes the port MISWIRED. A module without coordinates, or of another domain with no berth
open, takes the sender's coordinates moved by one in the port's dimension, modulo its size, with tag and sizes, reports to device 0 and sends an assign message on every UP port. One with a berth open, or on a walk still in progress (log 190), keeps its coordinates
against another tag or place and sends a conflict (log 189); one of the same tag, place and sizes does nothing. The anchor counts each report and conflict; the last report ends the walk with OK, a conflict or CLF_TMO.disc with DEVICE_FAULT, each with the counts. -/
def Obligations.CoordinateWalk : Prop :=
  (∀ (s : State) (n x y z tag sx sy sz p : Nat),
    usable s n = false ∨ coreUp s 7 = false → exec (.assignReceive n x y z tag sx sy sz p) s = .next s) ∧
  (∀ (s : State) (n x y z tag sx sy sz p : Nat),
    n < 12 → usable s n = true → coreUp s 7 = true → n ≠ p ^^^ 2 →
    ∃ t, exec (.assignReceive n x y z tag sx sy sz p) s = .next t ∧ Frame (footprint (.assignReceive n x y z tag sx sy sz p)) s t ∧ pState t n = 8 ∧ rdb t (CLF_PIRQ_STAT_miswired.at n) = true ∧
      ownId t = ownId s) ∧
  (∀ (s : State) (n x y z tag sx sy sz p mx my mz : Nat),
    n < 12 → usable s n = true → coreUp s 7 = true → n = p ^^^ 2 → x < 64 → y < 64 → z < 32 → tag < 65536 → 1 ≤ sx → sx ≤ 64 → 1 ≤ sy → sy ≤ 64 → 1 ≤ sz → sz ≤ 32 →
    (discovered s = false ∨ (rd s CLF_DOMAIN_tag ≠ tag ∧ walkRecent s = false ∧ ∀ b, b < 4 → (berthOf s b).state = 0)) →
    (mx : Int) = (if p / 4 = 0 then ((x : Int) + if p % 4 < 2 then 1 else -1) % sx else x) →
    (my : Int) = (if p / 4 = 1 then ((y : Int) + if p % 4 < 2 then 1 else -1) % sy else y) →
    (mz : Int) = (if p / 4 = 2 then ((z : Int) + if p % 4 < 2 then 1 else -1) % sz else z) →
    ∃ t, exec (.assignReceive n x y z tag sx sy sz p) s = .next t ∧ Frame (footprint (.assignReceive n x y z tag sx sy sz p)) s t ∧ discovered t = true ∧ ownId t = mx + 64 * my + 4096 * mz ∧
      rd t CLF_DOMAIN_tag = tag ∧ rd t CLF_DIMS_sx = sx ∧ rd t CLF_DIMS_sy = sy ∧ rd t CLF_DIMS_sz = sz ∧ rdb t CLF_COORD_anchor = false ∧
      t.tx.any (fun m => match m with
        | .walk 12 1 l => l == [ownId t]
        | _ => false) = true ∧
      (∀ r, r < 12 → usable s r = true → Tx.walk r 0 [mx, my, mz, tag, sx, sy, sz, r] ∈ t.tx) ∧ t.quay = s.quay ∧ t.clf.walk = s.clf.walk ∧ t.clf.walkAt = s.lh.tick) ∧
  (∀ (s : State) (n x y z tag sx sy sz p mx my mz : Nat),
    n < 12 → usable s n = true → coreUp s 7 = true → n = p ^^^ 2 → 1 ≤ sx → 1 ≤ sy → 1 ≤ sz → discovered s = true →
    (mx : Int) = (if p / 4 = 0 then ((x : Int) + if p % 4 < 2 then 1 else -1) % sx else x) →
    (my : Int) = (if p / 4 = 1 then ((y : Int) + if p % 4 < 2 then 1 else -1) % sy else y) →
    (mz : Int) = (if p / 4 = 2 then ((z : Int) + if p % 4 < 2 then 1 else -1) % sz else z) →
    ((rd s CLF_DOMAIN_tag = tag ∧ ownId s = mx + 64 * my + 4096 * mz ∧ rd s CLF_DIMS_sx = sx ∧ rd s CLF_DIMS_sy = sy ∧ rd s CLF_DIMS_sz = sz) →
      exec (.assignReceive n x y z tag sx sy sz p) s = .next s) ∧
    (((∃ b, b < 4 ∧ (berthOf s b).state ≠ 0) ∧ (rd s CLF_DOMAIN_tag ≠ tag ∨ ownId s ≠ mx + 64 * my + 4096 * mz)) ∨ (walkRecent s = true ∧ rd s CLF_DOMAIN_tag ≠ tag) ∨
        (rd s CLF_DOMAIN_tag = tag ∧ (ownId s ≠ mx + 64 * my + 4096 * mz ∨ rd s CLF_DIMS_sx ≠ sx ∨ rd s CLF_DIMS_sy ≠ sy ∨ rd s CLF_DIMS_sz ≠ sz)) →
      ∃ t, exec (.assignReceive n x y z tag sx sy sz p) s = .next t ∧ ownId t = ownId s ∧ rd t CLF_DOMAIN_tag = rd s CLF_DOMAIN_tag ∧ rdb t CLF_IRQ_STAT_conflict = true ∧ s.tx <:+ t.tx ∧
        ((t.tx.take (t.tx.length - s.tx.length)).any fun m => match m with
          | .walk k 2 l => k == n && l == [ownId s]
          | _ => false) = true ∧ t.quay = s.quay ∧
        (usable s n = true → (portOf s n).waiting = [] → (portOf s n).replay = [] → (portOf s n).sent = [] → (portOf s n).credit = [] → (portOf s n).turn = [] → (portOf s n).wrr = 0 →
          (portOf t n).replay.length = 1 ∧ (portOf t n).waiting = []))) ∧
  (∀ (s : State) (dev : Nat),
    (rdb s CLF_COORD_anchor = false → exec (.reportReceive dev) s = .next s ∧ exec .conflictReceive s = .next s) ∧
    (s.clf.walk = none → exec .walkTimeout s = .next s)) ∧
  (∀ (s : State) (dev k : Nat) (w : Walk) (q : Berth),
    rdb s CLF_COORD_anchor = true → dev < 2 ^ 17 → s.clf.walk = some w → w.lost = false → q = berthOf s w.berth → k = min (2 ^ 18 - 1) (rd s CLF_DISC_COUNT_reports + 1) →
    ∃ t, exec (.reportReceive dev) s = .next t ∧ Frame (footprint (.reportReceive dev)) s t ∧ rd t CLF_DISC_COUNT_reports = k ∧
      if rd s CLF_DISC_COUNT_conflicts = 0 ∧ rd s CLF_DIMS_sx * rd s CLF_DIMS_sy * rd s CLF_DIMS_sz ≤ k + 1 then
        t.clf.walk = none ∧ rdb t CLF_IRQ_STAT_disc_done = true ∧
          (q.state = 1 → (w.seq, 0x0503) ∈ q.inflight → t.tx.head? = some (.status q.iface q.peer 0x0503 w.seq w.berth true 0 0 true 0 (toBe 4 k ++ toBe 4 0)))
      else t.clf = s.clf ∧ t.quay = s.quay ∧ t.tx = s.tx) ∧
  (∀ (s : State) (k : Nat) (w : Walk) (q : Berth),
    s.clf.walk = some w → q = berthOf s w.berth →
    (rdb s CLF_COORD_anchor = true → w.lost = false → k = min 16383 (rd s CLF_DISC_COUNT_conflicts + 1) →
      ∃ t, exec .conflictReceive s = .next t ∧ Frame (footprint .conflictReceive) s t ∧ rd t CLF_DISC_COUNT_conflicts = k ∧ t.clf.walk = none ∧ rdb t CLF_IRQ_STAT_conflict = true ∧
        (q.state = 1 → (w.seq, 0x0503) ∈ q.inflight →
          t.tx.head? = some (.status q.iface q.peer 0x0503 w.seq w.berth true 0x0080 0 true 0 (toBe 4 (rd s CLF_DISC_COUNT_reports) ++ toBe 4 k)))) ∧
    (since s w.start < rd s CLF_TMO_disc → exec .walkTimeout s = .next s) ∧
    (rd s CLF_TMO_disc ≤ since s w.start →
      ∃ t, exec .walkTimeout s = .next t ∧ Frame (footprint .walkTimeout) s t ∧ t.clf.walk = none ∧ rdb t CLF_IRQ_STAT_disc_done = true ∧
        (q.state = 1 → (w.seq, 0x0503) ∈ q.inflight →
          t.tx.head? = some (.status q.iface q.peer 0x0503 w.seq w.berth true 0x0080 0 true 0 (toBe 4 (rd s CLF_DISC_COUNT_reports) ++ toBe 4 (rd s CLF_DISC_COUNT_conflicts))))))

/-- CLOSE_WAVE_START acts only where every other condition holds and a close group with neighbours exists; it sends a FLAG packet of round 1 with the step flag to each close neighbour. A FLAG packet of the live epoch, step and try is kept and
its flag joins the berth's at once; others are counted stale or corrupt. A round with every neighbour's flag sends the next round, and the last round decides: skip exactly when a flag was set. A wave that does not complete within the
group's timeout decides nothing, halts the berth with its step undecided, and names the silent neighbours in its event. Where a set flag joins before its round is complete is the model's choice (log 89). -/
def Obligations.CloseWave : Prop :=
  (∀ (s : State) (b : Nat),
    boundaryMet s b = false ∨ waveless s b = true ∨ (fget s.lsh.close b).running = true ∨ (fget s.lsh.close b).decided = true ∨ rdb s LSH_CTL_run = false ∨ inReset s 0x14 = true →
    exec (.closeWaveStart b) s = .next s) ∧
  (∀ (s : State) (b n : Nat) (g : Group),
    b < 4 → boundaryMet s b = true → closeGroup s b = some (n, g) → g.diam ≠ 0 → (fget s.lsh.close b).running = false → (fget s.lsh.close b).decided = false → rdb s LSH_CTL_run = true →
    inReset s 0x14 = false → (∃ d ∈ g.close, ∀ x ∈ (fget s.lsh.close b).got, x.1 = 1 → x.2.1 ≠ d) →
    ∃ t, exec (.closeWaveStart b) s = .next t ∧ Frame (footprint (.closeWaveStart b)) s t ∧
      fget t.lsh.close b = { fget s.lsh.close b with running := true, decided := false, round := 0, start := s.lh.tick } ∧
      (∀ c, c < 4 → c ≠ b → fget t.lsh.close c = fget s.lsh.close c) ∧
      ∀ d ∈ g.close, t.tx.any (fun m => match m with
        | .lsh e p => e == d && p.kind == 4 && p.aux == 1 && p.nf == (fget s.lsh.close b).flag && p.berth == b && p.group == n && p.src == ownId s &&
            p.epoch == (parseGrp g.entry).epoch && p.data.isEmpty && p.step == BitVec.ofNat 32 (fget s.upd.steps b).toNat
        | _ => false) = true) ∧
  (∀ (s : State) (p : LshPkt),
    (inReset s 0x14 = true → exec (.flagReceive p) s = .next s) ∧
    (inReset s 0x14 = false → p.crcOk = false →
      ∃ t, exec (.flagReceive p) s = .next t ∧ Frame [.regs, .counts] s t ∧ rdb t LSH_IRQ_STAT_crc = true ∧ mgetD t.counts 0x1723 0 = mgetD s.counts 0x1723 0 + 1 ∧ CountsBut [0x1723] s t) ∧
    (inReset s 0x14 = false → p.crcOk = true → (((closeGroup s p.berth).all fun q => q.1 != p.group) = true ∨ current s p = false) →
      ∃ t, exec (.flagReceive p) s = .next t ∧ Frame [.regs, .counts] s t ∧ rdb t LSH_IRQ_STAT_stale = true ∧ mgetD t.counts 0x1720 0 = mgetD s.counts 0x1720 0 + 1)) ∧
  (∀ (s : State) (p : LshPkt) (n : Nat) (g : Group) (c : Close),
    inReset s 0x14 = false → p.crcOk = true → closeGroup s p.berth = some (n, g) → p.group = n → current s p = true → c = fget s.lsh.close p.berth →
    (c.running = false ∨ rdb s LSH_CTL_run = false ∨ (∃ d ∈ g.close, d ≠ p.src ∧ ∀ x ∈ c.got, x.1 = c.round + 1 → x.2.1 ≠ d)) →
    ∃ t, exec (.flagReceive p) s = .next t ∧ Frame [.lsh] s t ∧
      fget t.lsh.close p.berth = { c with flag := c.flag || p.nf, got := c.got.filter (fun x => !(x.1 = p.aux && x.2.1 = p.src)) ++ [(p.aux, p.src, p.nf)] }) ∧
  (∀ (s : State) (p : LshPkt) (n : Nat) (g : Group) (c : Close),
    inReset s 0x14 = false → p.crcOk = true → closeGroup s p.berth = some (n, g) → p.group = n → current s p = true → c = fget s.lsh.close p.berth → c.running = true → rdb s LSH_CTL_run = true →
    p.aux = c.round + 1 → (∀ d ∈ g.close, d = p.src ∨ ∃ x ∈ c.got, x.1 = c.round + 1 ∧ x.2.1 = d) →
    ∃ t, exec (.flagReceive p) s = .next t ∧ Frame (footprint (.flagReceive p)) s t ∧ t.upd = s.upd ∧
      (g.diam ≤ p.aux →
        t.tx = s.tx ∧ (fget t.lsh.close p.berth).running = false ∧ (fget t.lsh.close p.berth).decided = true ∧ (fget t.lsh.close p.berth).round = p.aux ∧
          ((fget t.lsh.close p.berth).skip = true ↔ c.flag = true ∨ p.nf = true ∨ ∃ x ∈ c.got, x.1 = p.aux ∧ x.2.1 ≠ p.src ∧ x.2.2 = true)) ∧
      (p.aux < g.diam → (∃ d ∈ g.close, ∀ x ∈ c.got, x.1 = p.aux + 1 → x.2.1 ≠ d) →
        (fget t.lsh.close p.berth).running = true ∧ (fget t.lsh.close p.berth).decided = c.decided ∧ (fget t.lsh.close p.berth).round = p.aux ∧ (fget t.lsh.close p.berth).start = s.lh.tick ∧
          ∀ d ∈ g.close, t.tx.any (fun m => match m with
            | .lsh e q => e == d && q.kind == 4 && q.aux == p.aux + 1 && q.nf == (fget t.lsh.close p.berth).flag && q.berth == p.berth && q.group == n
            | _ => false) = true)) ∧
  (∀ (s : State) (b n : Nat) (g : Group) (c : Close) (miss : List Nat),
    b < 4 → closeGroup s b = some (n, g) → c = fget s.lsh.close b → miss = silent c g →
    ∃ t, exec (.closeWaveTimeout b) s = .next t ∧
      if c.running = false ∨ since s c.start < (if (parseGrp g.entry).timeout = 0 then rd1 s LSH_TMO_ticks else (parseGrp g.entry).timeout) then t = s
      else Frame (footprint (.closeWaveTimeout b)) s t ∧ fget t.shelf.undecided b = true ∧ fget t.shelf.halted b = true ∧ fget t.lsh.close b = { c with running := false } ∧
        rdb t LSH_IRQ_STAT_close_tmo = true ∧ rd t LSH_ERR_group = n % 65536 ∧ rd t LSH_ERR_cause = 2 ∧ rd t LSH_ERR_berth = b ∧ t.lsh.failTick = s.lh.tick ∧
        (∀ d ∈ miss, d ∈ g.close ∧ ∀ x ∈ c.got, x.1 = c.round + 1 → x.2.1 ≠ d) ∧ (∀ d ∈ g.close, (∀ x ∈ c.got, x.1 = c.round + 1 → x.2.1 ≠ d) → d ∈ miss) ∧
        EventsTo b [eventPayload s b 0x0002 0x0080 0 (toBe 1 2 ++ toBe 1 miss.length ++ zeros 2 ++ miss.flatMap (toBe 4 ·))] s t ∧ OtherBerths b s t)

/-- SHINGLE_REQUEST_COMPLETE ends the oldest request that holds a table slot and frees the slot. A code request writes the coded object of R322 to its destination, marks it coded and answers OK with the coded length; an unreadable source or
a destination that cannot be written is DEVICE_FAULT, one too small BAD_PARAM. A decode request whose head, table or blocks, read with its slot's table, fail their checks writes nothing (log 44), records why and answers DEVICE_FAULT; a good one writes its decoded
planes and clears the mark. With pages in T3 it waits, and they are asked for. With run clear, in reset or with no request nothing ends. A slot that is free goes to the oldest request that waits, with the next version for a code request and the record's for a decode. -/
def Obligations.ShingleRequests : Prop :=
  (∀ (s : State), rdb s SHG_CTL_run = false ∨ inReset s 0x17 = true ∨ inReset s 0x3F = true ∨ (s.shg.reqs.all fun r => r.slot.isNone) = true → exec .shingleRequestComplete s = .next s) ∧
  (∀ (s : State) (r : ShgReq) (n : Nat) (q : Berth) (src : List Byte × Bool) (bytes : List Byte),
    rdb s SHG_CTL_run = true → inReset s 0x17 = false → inReset s 0x3F = false → s.shg.reqs.find? (fun r => r.slot.isSome) = some r → r.slot = some n → (tslot s n).inflight = 0 →
    r.decode = false → missingPages s [r.src, r.dst] = [] → q = berthOf s r.berth → q.state = 1 → (r.seq, 0x0306) ∈ q.inflight → src = readH s r.src 0 (extent s r.src) →
    bytes = encodeObject r.fmt n (tslot s n).version (planesOf r.fmt src.1).1 (planesOf r.fmt src.1).2 →
    ∃ t, exec .shingleRequestComplete s = .next t ∧ Frame (footprint .shingleRequestComplete) s t ∧ t.shg.reqs = s.shg.reqs.erase r ∧ (tslot t n).state = 0 ∧ (tslot t n).table = [] ∧
      if src.2 = true then t.tx.head? = some (.status q.iface q.peer 0x0306 r.seq r.berth true 0x0080 0 true 0 [])
      else if 2 ^ 38 < bytes.length ∨ extent s r.dst < bytes.length then
        t.tx.head? = some (.status q.iface q.peer 0x0306 r.seq r.berth true 0x0020 0 true 0 []) ∧ t.mem.bytes = s.mem.bytes ∧ t.mem.objects = s.mem.objects
      else t.mem.bytes = (writeH s r.dst 0 bytes).1.mem.bytes ∧
        if (writeH s r.dst 0 bytes).2 = true then t.tx.head? = some (.status q.iface q.peer 0x0306 r.seq r.berth true 0x0080 0 true 0 [])
        else t.tx.head? = some (.status q.iface q.peer 0x0306 r.seq r.berth true 0 0 true 0 (toBe 8 bytes.length)) ∧
          (objOf t r.dst).all (fun o => o.coded) = true ∧ mgetD t.counts 0x1801 0 = mgetD s.counts 0x1801 0 + BitVec.ofNat 64 bytes.length) ∧
  (∀ (s : State) (r : ShgReq) (n : Nat) (q : Berth) (src : List Byte × Bool),
    rdb s SHG_CTL_run = true → inReset s 0x17 = false → inReset s 0x3F = false → s.shg.reqs.find? (fun r => r.slot.isSome) = some r → r.slot = some n → (tslot s n).inflight = 0 →
    r.decode = true → missingPages s [r.src, r.dst] = [] → q = berthOf s r.berth → q.state = 1 → q.inflight.any (fun p => p.1 = r.seq) = true → src = readH s r.src 0 (extent s r.src) → src.2 = false →
    ∃ t, exec .shingleRequestComplete s = .next t ∧ Frame (footprint .shingleRequestComplete) s t ∧ t.shg.reqs = s.shg.reqs.erase r ∧ (tslot t n).state = 0 ∧
      match codedHead src.1 with
      | none => t.mem.bytes = s.mem.bytes ∧ rd t SHG_ERR_cause = headCause src.1 ∧ rdb t SHG_IRQ_STAT_crc = true ∧
          t.tx.head? = some (.status q.iface q.peer 0x0307 r.seq r.berth true 0x0080 0 true 0 [])
      | some h =>
        match joinBlocks (decodeWith (tslot s n).version (tslot s n).table h src.1) with
        | none => t.mem.bytes = s.mem.bytes ∧
            some (rd t SHG_ERR_cause) = (((decodeWith (tslot s n).version (tslot s n).table h src.1).map causeOfBlock).filter (· ≠ 0)).getLast? ∧
            t.tx.head? = some (.status q.iface q.peer 0x0307 r.seq r.berth true 0x0080 0 true 0 [])
        | some plane =>
          mgetD t.counts 0x1804 0 = mgetD s.counts 0x1804 0 + BitVec.ofNat 64 h.blocks ∧
          if extent s r.dst < (sidePlane h src.1 ++ plane).length then t.mem.bytes = s.mem.bytes ∧ t.tx.head? = some (.status q.iface q.peer 0x0307 r.seq r.berth true 0x0020 0 true 0 [])
          else t.mem.bytes = (writeH s r.dst 0 (sidePlane h src.1 ++ plane)).1.mem.bytes ∧
            ((writeH s r.dst 0 (sidePlane h src.1 ++ plane)).2 = false →
              t.tx.head? = some (.status q.iface q.peer 0x0307 r.seq r.berth true 0 0 true 0 []) ∧ (objOf t r.dst).all (fun o => !o.coded) = true)) ∧
  (∀ (s : State) (r : ShgReq),
    rdb s SHG_CTL_run = true → inReset s 0x17 = false → inReset s 0x3F = false → s.shg.reqs.find? (fun r => r.slot.isSome) = some r → missingPages s [r.src, r.dst] ≠ [] →
    ∃ t, exec .shingleRequestComplete s = .next t ∧ Frame [.mem] s t ∧ t.mem.bytes = s.mem.bytes ∧ t.mem.objects = s.mem.objects ∧
      ∀ x ∈ missingPages s [r.src, r.dst], (t.mem.wants.any fun w => w.berth == hBerth x.1 && w.object == hObj x.1 && w.page == x.2 && w.level == 2) = true) ∧
  (∀ (s : State) (r : ShgReq) (i n : Nat),
    s.shg.reqs.findIdx? (fun r => r.slot.isNone) = some i → s.shg.reqs[i]? = some r → r.stream = none → (r.decode = true → missingPages s [r.src] = []) →
    n < 64 → (tslot s n).state = 0 → (∀ k, k < n → (tslot s k).state ≠ 0) →
    ∃ t, exec .shingleSlotGrant s = .next t ∧ Frame (if r.decode then [.shg, .mem] else [.shg]) s t ∧ t.mem.bytes = s.mem.bytes ∧
      t.shg.reqs = s.shg.reqs.set i { r with slot := some n } ∧ (tslot t n).state = (if r.decode then 2 else 1) ∧
      (tslot t n).version = (if r.decode then recordVersion (peek s (addrOf r.src) 640) else ((tslot s n).version + 1) % 16) ∧ (tslot t n).user = (if r.decode then 0 else 2) ∧
      (r.decode = true → (tslot t n).table = recordTable (peek s (addrOf r.src) 640)) ∧
      (∀ k, k < 64 → k ≠ n → tslot t k = tslot s k))

/-- TRIGGER_TAKE takes the oldest trigger and gives each template of its layer one copy, in posting order, with handle_src 0 replaced by the trigger's handle; copies go to the end of their channels, and those without
room in their own channel wait in the berth's list; with that list full, in reset or without a trigger nothing is taken. COLLECTIVE_START does nothing while a condition of R284 or R301 is open; one whose pages stand in T3 waits for them; a PERMUTE starts its fence; any other
takes the group's next collective number, and a BARRIER sends one packet to every other member. COLLECTIVE_COMPLETE ends the oldest collective of a channel once all is done, kept for late requests until the boundary: its slot and event signal, and a reduction counts as
reached. A collective that has waited for its group's timeout fails with the lowest missing rank named, and halts the berth's stream and its sixteen channels. That copies lose on_trigger is the model's choice (log 176). -/
def Obligations.CollectiveRows : Prop :=
  (∀ (s : State) (b : Nat),
    (inReset s 0x14 = true ∨ fget s.shelf.triggers b = [] ∨
      1024 ≤ (fget s.lsh.copies b).length) →
    exec (.triggerTake b) s = .next s) ∧
  (∀ (s : State) (b : Nat) (t : Trigger) (ts : List Trigger) (l : List (List Byte)),
    b < 4 → inReset s 0x14 = false → fget s.shelf.triggers b = t :: ts →
    (fget s.lsh.copies b).length + ((fget s.lsh.templates b).filter fun d => (parseColl d).layer = t.layer).length ≤ 1024 →
    l = fget s.lsh.copies b ++ ((fget s.lsh.templates b).filter fun d => (parseColl d).layer = t.layer).map (fun d =>
      let e := d.set 1 (nth d 1 0 &&& 0xFB)
      if (parseColl d).src = 0 then e.take 8 ++ toLe 6 t.handle.toNat ++ e.drop 14 else e) →
    ∃ u, exec (.triggerTake b) s = .next u ∧ Frame [.shelf, .lsh] s u ∧ u.shelf = { s.shelf with triggers := fset s.shelf.triggers b ts } ∧ u.lsh.templates = s.lsh.templates ∧
      (∀ c, c < 16 → chanOf u b c = { chanOf s b c with queue := (chanOf s b c).queue ++ (l.filter fun d => (parseColl d).chan = c).take (256 - (chanOf s b c).queue.length) } ∧
        ((fget u.lsh.copies b).filter fun d => (parseColl d).chan = c) = (l.filter fun d => (parseColl d).chan = c).drop (256 - (chanOf s b c).queue.length))) ∧
  (∀ (s : State) (b c : Nat), collMayStart s b c = false → exec (.collectiveStart b c) s = .next s) ∧
  (∀ (s : State) (b : Nat) (d : List Byte) (rest : List (List Byte)),
    b < 4 → collMayStart s b 0 = true → (chanOf s b 0).queue = d :: rest → (parseColl d).op = 7 →
    (missingPages s [(parseColl d).src] ≠ [] → ∃ t, exec (.collectiveStart b 0) s = .next t ∧ Frame [.mem] s t ∧ t.mem.bytes = s.mem.bytes ∧ t.mem.objects = s.mem.objects) ∧
    ((∀ o ∈ s.mem.objects, (o.2.moved.all fun p => p.2.tier != 3) = true ∧ o.2.tier ≠ 3) →
      ∃ t, exec (.collectiveStart b 0) s = .next t ∧ Frame (footprint (.collectiveStart b 0)) s t ∧ chanOf t b 0 = { chanOf s b 0 with queue := rest } ∧ t.mem.bytes = s.mem.bytes ∧
        fget t.lsh.permute b = { fget s.lsh.permute b with phase := 1, desc := d, entries := permMap s (parseColl d), handles := (fget t.lsh.permute b).handles, round := 0, waiting := false } ∧
        t.lsh.live = s.lsh.live ∧ (badRange s (addrOf (parseColl d).src) (24 * (parseColl d).count) = false → Frame [.lsh, .mem] s t ∧ t.lsh.close = s.lsh.close))) ∧
  (∀ (s : State) (b c n : Nat) (d : List Byte) (rest : List (List Byte)) (g : Group),
    b < 4 → c < 16 → collMayStart s b c = true → (chanOf s b c).queue = d :: rest → (parseColl d).op ≠ 7 → n = (parseColl d).group → groupOf s b n = some g → fget s.lsh.copies b = [] →
    ∃ t, exec (.collectiveStart b c) s = .next t ∧ Frame (footprint (.collectiveStart b c)) s t ∧
      if missingPages s (collUses s (geomOf (parseColl d) g) [] false) ≠ [] then Frame [.mem] s t ∧ t.mem.bytes = s.mem.bytes ∧ t.mem.objects = s.mem.objects else mget t.lsh.live (65536 * b + n) = some { g with cseq := g.cseq + 1 } ∧ (chanOf t b c).queue = rest ∧
      ((chanOf t b c).active.getLast?.any fun x => x.desc = d && x.cseq = g.cseq && x.epoch = (parseGrp g.entry).epoch && x.step = BitVec.ofNat 32 (fget s.upd.steps b).toNat && x.try_ = tryOf s b) = true ∧
      (chanOf t b c).active.length = (chanOf s b c).active.length + 1) ∧
  (∀ (s : State) (b c n : Nat) (d : List Byte) (rest : List (List Byte)) (g : Group),
    b < 4 → c < 16 → collMayStart s b c = true → (chanOf s b c).queue = d :: rest → (parseColl d).op = 6 → n = (parseColl d).group → groupOf s b n = some g →
    (s.lsh.early.all fun p => !(p.berth = b && p.group = n && p.cseq = g.cseq)) = true → g.members.length = (parseGrp g.entry).size → g.members.Nodup →
    ∃ t, exec (.collectiveStart b c) s = .next t ∧ Frame (footprint (.collectiveStart b c)) s t ∧ t.mem.bytes = s.mem.bytes ∧ (chanOf t b c).active.dropLast = (chanOf s b c).active ∧
      (∀ q, q < (parseGrp g.entry).size → q ≠ (parseGrp g.entry).rank → t.tx.any (fun m => match m with
        | .lsh e p => e == nth g.members q 0 && p.op == 6 && p.kind == 0 && p.data.isEmpty && p.group == n && p.cseq == g.cseq && p.berth == b && p.src == ownId s &&
            p.epoch == (parseGrp g.entry).epoch && p.try_ == tryOf s b && p.nf == flagOf s b && p.node == (parseGrp g.entry).rank
        | _ => false) = true)) ∧
  (∀ (s : State) (b c : Nat) (x : Coll) (rest : List Coll) (g : Geom),
    b < 4 → c < 16 → inReset s 0x14 = false → (chanOf s b c).active = x :: rest → collGeom s b x = some g → unwritten g x = [] →
    if collDone g x = false then exec (.collectiveComplete b c) s = .next s
    else ∃ t, exec (.collectiveComplete b c) s = .next t ∧ Frame (footprint (.collectiveComplete b c)) s t ∧
      ((chanOf t b c).active.map fun y => (y.desc, y.cseq, y.nodes, y.written)) = (rest.map fun y => (y.desc, y.cseq, y.nodes, y.written)) ∧ (chanOf t b c).past = (chanOf s b c).past ++ [x] ∧
      t.shelf = (if g.d.sigEn = true then { s.shelf with slots := mset s.shelf.slots (1024 * b + g.d.sigSlot) (mgetD s.shelf.slots (1024 * b + g.d.sigSlot) 0 + 1) } else s.shelf) ∧
      t.mem.bytes = s.mem.bytes ∧
      (receives g = false → t.upd = s.upd) ∧
      (receives g = true → ∀ p ∈ s.upd.shards, (p.1, if (parseSh p.2.desc).hg = g.d.dst ∧ p.2.reduced = 0 then { p.2 with reduced := s.upd.nextRank } else p.2) ∈ t.upd.shards) ∧
      ((∀ k ∈ allChans, ∀ y ∈ (chanOf s b k).active, ∀ p ∈ y.granted, p.2 = 0) → (chanOf t b c).active = rest ∧ if g.d.event = true then EventsTo b [eventPayload s b 0x0003 0 g.d.seq (toBe 2 g.d.group)] s t else t.quay = s.quay ∧ t.tx = s.tx)) ∧
  (∀ (s : State) (b c : Nat),
    (inReset s 0x14 = true ∨ (chanOf s b c).active = []) → exec (.collectiveComplete b c) s = .next s) ∧
  (∀ (s : State) (b c : Nat),
    (∀ x ∈ (chanOf s b c).active, x.toSend.isEmpty = false ∨ (collGeom s b x).any (fun g => collDone g x) = true ∨ since s x.since < groupTmo s (parseGrp ((groupOf s b (parseColl x.desc).group).map (·.entry) |>.getD []))) →
    exec (.collectiveTimeout b c) s = .next s) ∧
  (∀ (s : State) (b c : Nat) (x : Coll) (rest : List Coll) (g : Geom) (e : Group) (ranks : List Nat),
    b < 4 → c < 16 → (chanOf s b c).active = x :: rest → collGeom s b x = some g → groupOf s b g.d.group = some e → x.toSend = [] → groupTmo s (parseGrp e.entry) ≤ since s x.since →
    ranks = (missingParts g x).map (fun m => m.2.2.2) → ranks ≠ [] →
    ∃ t, exec (.collectiveTimeout b c) s = .next t ∧ Frame (footprint (.collectiveTimeout b c)) s t ∧
      ((chanOf t b c).active.map fun y => (y.desc, y.cseq, y.nodes, y.written)) = (rest.map fun y => (y.desc, y.cseq, y.nodes, y.written)) ∧ (∀ k, k < 16 → (chanOf t b k).halted = true) ∧
      fget t.shelf.halted b = true ∧ (fget t.lsh.close b).flag = true ∧ rdb t LSH_IRQ_STAT_timeout = true ∧ rd t LSH_ERR_group = g.d.group ∧ rd t LSH_ERR_cause = 1 ∧ rd t LSH_ERR_berth = b ∧
      t.lsh.failTick = s.lh.tick ∧ t.lsh.failRank.toNat ∈ ranks ∧ (∀ q ∈ ranks, t.lsh.failRank.toNat ≤ q) ∧
      OtherBerths b s t ∧ ((∀ k ∈ allChans, ∀ y ∈ (chanOf s b k).active, ∀ p ∈ y.granted, p.2 = 0) → (chanOf t b c).active = rest ∧
      EventsTo b [eventPayload s b 0x0004 0x0080 g.d.seq (toBe 2 g.d.group ++ toBe 4 t.lsh.failRank.toNat),
        eventPayload s b 0x0002 0x0080 g.d.seq (toBe 1 3 ++ toBe 1 1 ++ toBe 2 g.d.group ++ toBe 4 t.lsh.failRank.toNat)] s t))

/-- A packet that fails its CRC is counted, and the data that its device owes is asked for again; one of another epoch, step or try is counted stale. Data of a collective that has not started is kept and counted; a second copy is counted as a
duplicate. In a DIRECT reduction of two ranks the arriving node meets this rank's own, rank 0's on the left, and the root, averaged when asked, is kept and sent to the other rank. An acknowledgement opens the window and lets the next packet
go. A request is answered from the retained source, or fails the collective. COUNT_ROUND sends an odd member's sums to its neighbour in the tree and keeps the others' until their sibling is there; totals that differ end the round, equal ones the
phase, and the install makes the staged entries live with the numbers of the old ones. Move data goes to its entry's destination once. The tree's packets are the model's form (log 188). -/
def Obligations.CollectivePackets : Prop :=
  (∀ (s : State) (p : LshPkt) (c : Instr),
    (c = .collectiveDataReceive p ∨ c = .collectiveAckReceive p ∨ c = .collectiveReqReceive p ∨ c = .countReceive p) → inReset s 0x14 = true → exec c s = .next s) ∧
  (∀ (s : State) (p : LshPkt) (c : Instr),
    (c = .collectiveDataReceive p ∨ c = .collectiveAckReceive p ∨ c = .collectiveReqReceive p ∨ c = .countReceive p) → inReset s 0x14 = false → p.crcOk = false →
    ∃ t, exec c s = .next t ∧ Frame (footprint c) s t ∧ rdb t LSH_IRQ_STAT_crc = true ∧ mgetD t.counts 0x1723 0 = mgetD s.counts 0x1723 0 + 1 ∧ t.lsh.chans = s.lsh.chans ∧ t.lsh.early = s.lsh.early ∧
      (c ≠ .collectiveDataReceive p → t.lsh = s.lsh) ∧ (c = .collectiveDataReceive p → ∀ b, b < 4 → p.src ∈ fget t.lsh.suspects b)) ∧
  (∀ (s : State) (p : LshPkt) (r : CRef) (x : Coll) (g : Geom) (m : Nat × Nat × Nat × Nat),
    inReset s 0x14 = false → p.crcOk = false → rdb s LSH_CTL_run = true → r.b < 4 → r.c ∈ allChans → collAt s r = some x → collGeom s r.b x = some g → m ∈ missingParts g x → g.dev m.2.2.2 = p.src →
    ∃ t, exec (.collectiveDataReceive p) s = .next t ∧ t.tx.any (fun y => match y with
      | .lsh e q => e == p.src && q.kind == 2 && q.level == m.1 && q.node == m.2.1 && q.chunk == m.2.2.1 && q.cseq == x.cseq && q.berth == r.b && q.group == g.d.group && q.nf == flagOf s r.b &&
          q.data.isEmpty && q.src == ownId s
      | _ => false) = true) ∧
  (∀ (s : State) (p : LshPkt) (c : Instr),
    c = .collectiveDataReceive p ∨ c = .collectiveAckReceive p ∨ c = .collectiveReqReceive p → inReset s 0x14 = false → p.crcOk = true →
    (if p.op = 7 then permCurrent s p = none else current s p = false) →
    ∃ t, exec c s = .next t ∧ Frame [.regs, .counts] s t ∧ RegsBut [LSH_IRQ_STAT_stale.off] s t ∧ CountsBut [0x1720] s t ∧ rdb t LSH_IRQ_STAT_stale = true ∧
      mgetD t.counts 0x1720 0 = mgetD s.counts 0x1720 0 + 1) ∧
  (∀ (s : State) (p : LshPkt) (g : Group) (dup : Bool),
    p.berth < 4 → inReset s 0x14 = false → p.crcOk = true → p.op ≠ 7 → current s p = true → findColl s p = none → groupOf s p.berth p.group = some g →
    dup = (decide (p.cseq < g.cseq) || s.lsh.early.any fun q => (q.src, q.group, q.cseq, q.berth) = (p.src, p.group, p.cseq, p.berth) && (q.level, q.node, q.chunk) = (p.level, p.node, p.chunk)) →
    ∃ t, exec (.collectiveDataReceive p) s = .next t ∧ Frame [.counts, .lsh] s t ∧ flagOf t p.berth = (flagOf s p.berth || p.nf || (!dup && p.inv)) ∧
      t.lsh.early = (if dup = true then s.lsh.early else s.lsh.early ++ [p]) ∧
      mgetD t.counts 0x1721 0 = (if dup = true then mgetD s.counts 0x1721 0 + 1 else mgetD s.counts 0x1721 0) ∧
      (dup = false → mgetD t.counts (0x1710 + p.berth) 0 = mgetD s.counts (0x1710 + p.berth) 0 + BitVec.ofNat 64 p.data.length ∧
        (fget t.lsh.permute p.berth).accepted = (fget s.lsh.permute p.berth).accepted + 1) ∧ CountsBut [0x1721, 0x1710 + p.berth] s t) ∧
  (∀ (s : State) (p : LshPkt) (r : CRef) (x : Coll) (g : Geom) (q : Nat),
    p.berth < 4 → inReset s 0x14 = false → p.crcOk = true → p.op ≠ 7 → current s p = true → findColl s p = some r → collAt s r = some x → collGeom s p.berth x = some g →
    g.rankOf p.src = some q → hasPart g x (p.level, p.node, p.chunk, q) = true →
    ∃ t, exec (.collectiveDataReceive p) s = .next t ∧ Frame [.counts, .lsh] s t ∧ t.lsh.chans = s.lsh.chans ∧ flagOf t p.berth = (flagOf s p.berth || p.nf) ∧
      mgetD t.counts 0x1721 0 = mgetD s.counts 0x1721 0 + 1 ∧ CountsBut [0x1721] s t) ∧
  (∀ (s : State) (p : LshPkt) (r : CRef) (x : Coll) (g : Geom) (gc : Nat) (v w root : List W32) (f : W32 → W32 → W32),
    p.berth < 4 → inReset s 0x14 = false → p.crcOk = true → current s p = true → findColl s p = some r → r.c < 16 → collAt s r = some x → collGeom s p.berth x = some g →
    g.d.op = 1 → p.op ≠ 7 → g.size = 2 → g.rank < 2 → g.halving = false → p.level = 0 → p.node = 1 - g.rank → g.rankOf p.src = some p.node → gc = g.rank * g.cmax + p.chunk →
    mget x.nodes (nodeKey 0 g.rank gc) = some v → mget x.nodes (nodeKey 0 p.node gc) = none → w = (chunks 4 p.data).map (fun l => BitVec.ofNat 32 (leNat l)) →
    f = (if g.d.red = 2 then fmax else if g.d.red = 3 then fmin else fadd) →
    root = (if g.rank = 0 then List.zipWith f v w else List.zipWith f w v).map (fun y => if g.d.red = 1 then fmul y (fdiv one32 (f32Nat 2)) else y) →
    ∃ t, exec (.collectiveDataReceive p) s = .next t ∧ Frame (footprint (.collectiveDataReceive p)) s t ∧
      ((collAt t r).bind fun y => mget y.nodes (nodeKey 1 0 gc)) = some root ∧ ((collAt t r).bind fun y => mget y.nodes (nodeKey 0 p.node gc)) = some w ∧
      ((collAt t r).any fun y => y.accepted = x.accepted + 1) = true ∧
      (p.nf = true ∨ p.inv = true ∨ allFinite w = false ∨ allFinite root = false → flagOf t p.berth = true) ∧
      (rdb s LSH_CTL_run = true → (fget s.lsh.permute r.b).phase = 0 → x.toSend = [] → mgetD x.unacked (g.dev p.node) 0 < rd1 s LSH_WINDOW_packets →
        t.tx.any (fun m => match m with
          | .lsh e y => e == g.dev p.node && y.kind == 0 && y.level == 1 && y.node == g.rank && y.chunk == p.chunk && y.cseq == x.cseq && y.data == wordBytes root
          | _ => false) = true)) ∧
  (∀ (s : State) (p : LshPkt) (r : CRef) (x : Coll),
    p.berth < 4 → inReset s 0x14 = false → p.crcOk = true → p.op ≠ 7 → current s p = true → findColl s p = some r → collAt s r = some x →
    ∃ t, exec (.collectiveAckReceive p) s = .next t ∧ Frame (footprint (.collectiveAckReceive p)) s t ∧ flagOf t p.berth = (flagOf s p.berth || p.nf) ∧
      (x.toSend = [] → collAt t r = some { x with since := s.lh.tick, unacked := mset x.unacked p.src (mgetD x.unacked p.src 0 - p.aux) } ∧ t.tx = s.tx) ∧
      (∀ q ∈ x.toSend.head?, q.1 = p.src → rdb s LSH_CTL_run = true → (fget s.lsh.permute p.berth).phase = 0 → mgetD x.unacked p.src 0 - p.aux < rd1 s LSH_WINDOW_packets →
        t.tx.any (fun m => match m with
          | .lsh e y => e == p.src && y == { q.2 with nf := flagOf t p.berth }
          | _ => false) = true)) ∧
  (∀ (s : State) (p : LshPkt) (r : CRef) (x : Coll) (g : Geom) (q a m : Nat),
    p.berth < 4 → inReset s 0x14 = false → p.crcOk = true → p.op ≠ 7 → rdb s LSH_CTL_run = true → current s p = true → findColl s p = some r → r.c < 16 → collAt s r = some x → collGeom s p.berth x = some g →
    x.srcRank = g.rank → g.d.op = 1 → 2 ≤ g.size → g.halving = false → p.level = 0 → p.node = g.rank → g.rankOf p.src = some q →
    mget x.nodes (nodeKey 0 g.rank (q * g.cmax + p.chunk)) = none → a = q * cdiv g.d.count g.size + p.chunk * 1792 → m = min 1792 (g.len q - p.chunk * 1792) →
    ∃ t, exec (.collectiveReqReceive p) s = .next t ∧ Frame (footprint (.collectiveReqReceive p)) s t ∧
      if allocated s r.b x.src = true then
        t.tx.any (fun y => match y with
          | .lsh e y => e == p.src && y.kind == 0 && y.retx && y.level == 0 && y.node == g.rank && y.chunk == p.chunk && y.cseq == x.cseq &&
              y.inv == (readH s x.src (a * esz g.d.fin) (m * esz g.d.fin)).2 &&
              y.data == wordBytes ((chunks (esz g.d.fin) (readH s x.src (a * esz g.d.fin) (m * esz g.d.fin)).1).map fun l => widen g.d.fin (leNat l))
          | _ => false) = true ∧ t.shelf = s.shelf ∧ t.quay = s.quay
      else rd t LSH_ERR_cause = 3 ∧ rd t LSH_ERR_group = g.d.group ∧ flagOf t r.b = true ∧ fget t.shelf.halted r.b = true ∧ (∀ k, k < 16 → (chanOf t r.b k).halted = true) ∧
        ((chanOf t r.b r.c).active.map fun y => (y.desc, y.cseq, y.nodes)) = (((chanOf s r.b r.c).active.eraseIdx r.i).map fun y => (y.desc, y.cseq, y.nodes))) ∧
  (∀ (s : State) (b : Nat), (fget s.lsh.permute b).phase = 0 ∨ permRole s b = none ∨ inReset s 0x14 = true ∨ rdb s LSH_CTL_run = false → exec (.countRound b) s = .next s) ∧
  (∀ (s : State) (b r size : Nat) (role : PermRole) (x : Permute) (v : W64 × W64),
    b < 4 → x = fget s.lsh.permute b → x.phase ≠ 0 → inReset s 0x14 = false → rdb s LSH_CTL_run = true → permRole s b = some role → size = (parseGrp role.old.entry).size → 2 ≤ size →
    r = (if x.waiting then x.round else x.round + 1) → (x.waiting = true → mget x.got (countKey x.phase r 0 role.rank) = some v) →
    (x.waiting = false → v = if x.phase = 1 then (x.sent, x.accepted) else (x.moveSent, x.moveAcc)) →
    (role.rank % 2 = 1 ∨ (role.rank + 1 < size ∧ mget x.got (countKey x.phase r 0 (role.rank + 1)) = none)) →
    ∃ t, exec (.countRound b) s = .next t ∧ Frame (footprint (.countRound b)) s t ∧ t.mem = s.mem ∧ t.lsh.live = s.lsh.live ∧ t.lsh.chans = s.lsh.chans ∧
      fget t.lsh.permute b = { x with round := r, waiting := true, got := (fget t.lsh.permute b).got } ∧ mget (fget t.lsh.permute b).got (countKey x.phase r 0 role.rank) = some v ∧
      if role.rank % 2 = 1 then
        t.tx.any (fun m => match m with
          | .lsh e p => e == nth role.old.members (role.rank - 1) 0 && p.kind == 5 && p.op == 7 && p.level == 0 && p.chunk == r && p.node == role.rank && p.epoch == (parseGrp role.old.entry).epoch &&
              p.data == toLe 8 v.1.toNat ++ toLe 8 v.2.toNat ++ toLe 1 x.phase
          | _ => false) = true
      else t.tx = s.tx) ∧
  (∀ (s : State) (p : LshPkt) (x : Permute),
    inReset s 0x14 = false → p.crcOk = true → x = fget s.lsh.permute p.berth →
    (fld p.data 16 1 = 0 ∨ fld p.data 16 1 < x.phase ∨ ((closeGroup s p.berth).any fun g => p.epoch = (parseGrp g.2.entry).epoch) = false ∨
      p.step.toNat ≠ (fget s.upd.steps p.berth).toNat % 2 ^ 32 ∨ p.try_ ≠ tryOf s p.berth) →
    ∃ t, exec (.countReceive p) s = .next t ∧ Frame [.regs, .counts] s t ∧ RegsBut [LSH_IRQ_STAT_stale.off] s t ∧ rdb t LSH_IRQ_STAT_stale = true ∧ mgetD t.counts 0x1720 0 = mgetD s.counts 0x1720 0 + 1) ∧
  (∀ (s : State) (p : LshPkt) (n : Nat) (g : Group) (x : Permute) (role : PermRole) (v : W64 × W64) (k : Nat),
    p.berth < 4 → inReset s 0x14 = false → p.crcOk = true → x = fget s.lsh.permute p.berth → x.phase ≠ 0 → fld p.data 16 1 = x.phase → closeGroup s p.berth = some (n, g) →
    permRole s p.berth = some role → p.epoch = (parseGrp g.entry).epoch → p.step.toNat = (fget s.upd.steps p.berth).toNat % 2 ^ 32 → p.try_ = tryOf s p.berth → v = (BitVec.ofNat 64 (fld p.data 0 8), BitVec.ofNat 64 (fld p.data 8 8)) →
    k = countKey x.phase p.chunk p.level p.node → (s.lsh.staged.map fun q => q.1).Nodup →
    ∃ t, exec (.countReceive p) s = .next t ∧ Frame (footprint (.countReceive p)) s t ∧ (p.nf = true → flagOf t p.berth = true) ∧
      if p.level < clog2 (parseGrp g.entry).size then
        (mget x.got (countKey x.phase p.chunk (clog2 (parseGrp g.entry).size) 0) = none → x.waiting = false ∨ x.round ≠ p.chunk →
          t.lsh.permute = (fset s.lsh.permute p.berth { x with got := mset x.got k v }) ∧ t.tx = s.tx ∧ t.mem = s.mem ∧ t.lsh.live = s.lsh.live)
      else if x.waiting = false ∨ x.round ≠ p.chunk then t.lsh.permute = (fset s.lsh.permute p.berth { x with got := mset x.got k v }) ∧ t.tx = s.tx ∧ t.mem = s.mem
      else if v.1 ≠ v.2 then t.lsh.permute = (fset s.lsh.permute p.berth { x with got := mset x.got k v, waiting := false }) ∧ t.tx = s.tx ∧ t.mem = s.mem ∧ t.lsh.live = s.lsh.live
      else if x.phase = 1 then (fget t.lsh.permute p.berth).phase = 2 ∧ (fget t.lsh.permute p.berth).round = 0 ∧ (fget t.lsh.permute p.berth).desc = x.desc ∧ t.lsh.live = s.lsh.live
      else (fget t.lsh.permute p.berth).phase = 0 ∧ rdb t LSH_IRQ_STAT_permute_done = true ∧
        (∀ q ∈ s.lsh.staged, q.1 / 65536 = p.berth → mget t.lsh.live q.1 = some { q.2 with cseq := ((mget s.lsh.live q.1).map fun o => o.cseq).getD 0 }) ∧ (∀ q ∈ t.lsh.staged, q.1 / 65536 ≠ p.berth) ∧
        (∀ q ∈ s.lsh.live, (if q.1 / 65536 = p.berth then (∀ y ∈ s.lsh.staged, y.1 ≠ q.1) → mget t.lsh.live q.1 = none else mget t.lsh.live q.1 = mget s.lsh.live q.1)) ∧
        ((parseColl x.desc).sigEn = true → mgetD t.shelf.slots (1024 * p.berth + (parseColl x.desc).sigSlot) 0 = mgetD s.shelf.slots (1024 * p.berth + (parseColl x.desc).sigSlot) 0 + 1)) ∧
  (∀ (s : State) (p : LshPkt) (role : PermRole) (x : Permute) (e : MapEnt) (first : Nat) (w : State × Bool),
    p.berth < 4 → inReset s 0x14 = false → p.crcOk = true → p.op = 7 → permCurrent s p = some role → x = fget s.lsh.permute p.berth → entOf x.entries p.chunk = some (e, first) →
    e.rank = (parseGrp role.new.entry).rank → w = writeH s e.dst ((p.chunk - first) / 293 * 2097152 + (p.chunk - first) % 293 * 7168) p.data →
    ∃ t, exec (.collectiveDataReceive p) s = .next t ∧ Frame (footprint (.collectiveDataReceive p)) s t ∧
      if (p.node, p.chunk) ∈ x.seen then t.mem = s.mem ∧ mgetD t.counts 0x1721 0 = mgetD s.counts 0x1721 0 + 1 ∧ t.lsh.permute = s.lsh.permute
      else t.mem.bytes = w.1.mem.bytes ∧ (fget t.lsh.permute p.berth).moveAcc = x.moveAcc + 1 ∧ (p.node, p.chunk) ∈ (fget t.lsh.permute p.berth).seen ∧
        mgetD t.counts (0x1710 + p.berth) 0 = mgetD s.counts (0x1710 + p.berth) 0 + BitVec.ofNat 64 p.data.length ∧
        (p.nf = true ∨ p.inv = true ∨ w.2 = true ∨ bytesFinite (parseColl x.desc).fin p.data = false → flagOf t p.berth = true))

/-- For each command of the list, the conditions under which it has its effect, and its last message. An admitted ALLOC that its tier has room for answers OK with the handle of an object of its size; an admitted FREE of an own object answers OK
and leaves it freed; OBJECT_RELEASE of a freed object that nothing names ends it; an admitted MEM_CONFIG that keeps R211 answers OK with the quotas set; an admitted WRITE within an object answers OK and its bytes read back; an admitted READ
answers OK after its data; an admitted SIGNAL answers OK and its slot has counted; an admitted CODE or DECODE of proper objects is accepted and its request stands last in Shingle's queue. -/
def Obligations.MemoryCommandsEnd : Prop :=
  (∀ (s : State) (h : EcpHdr) (size : W64) (tier policy pages n : Nat),
    admitted s h 0x0301 [] = true → n = nextNumber s h.berth (s.mem.objects.length + 2) (fget s.mem.nextObj h.berth) → pages = cdiv size.toNat pageSize → size ≠ 0 → size.toNat ≤ 2 ^ 42 → policy ≤ 3 → tableRoom s 1 pages = true →
    ((tier = 1 ∧ policy = 0 ∧ pages ≤ freeT1 s h.berth) ∨ (tier = 2 ∧ pages ≤ freeT2 s h.berth) ∨
      (tier = 3 ∧ hasDdr s.variant = true ∧ pages ≤ quotaT3 s h.berth ∧ (t3Pages s 0 pages).isSome = true)) →
    ∃ t, exec (.alloc h size tier policy) s = .next t ∧ ((objAt t h.berth n).any fun o => o.size == pages * pageSize && o.pages == pages && o.tier == tier && o.policy == policy) = true ∧
      t.tx.head? = some (.status h.iface h.peer 0x0301 h.seq h.berth true 0 0 true 0 (toBe 6 (mkHandle h.berth n).toNat))) ∧
  (∀ (s : State) (h : EcpHdr) (handle : BitVec 48) (o : Obj),
    admitted s h 0x0302 [] = true → objOf s handle = some o → hBerth handle = h.berth → o.freeing = false → segmentOperand s h.berth (hObj handle) = false →
    ∃ t, exec (.free h handle) s = .next t ∧ objOf t handle = some { o with freeing := true } ∧ t.tx.head? = some (.status h.iface h.peer 0x0302 h.seq h.berth true 0 0 true 0 [])) ∧
  (∀ (s : State) (b n : Nat),
    ((objAt s b n).any fun o => o.freeing) = true → stillNamed s b n = false → s.mem.allocs = [] →
    ∃ t, exec (.objectRelease b n) s = .next t ∧ objAt t b n = none ∧ t.regs = s.regs ∧ t.tx = s.tx) ∧
  (∀ (s : State) (h : EcpHdr) (t1 t2 t3 spill bal : Nat),
    admitted s h 0x0303 [] = true → (t3 ≠ 0 → hasDdr s.variant = true) → memConfigOk s h.berth t1 t2 t3 spill bal = true → s.mem.allocs = [] →
    ∃ t, exec (.memConfig h t1 t2 t3 spill bal) s = .next t ∧ rd t (HBR_PART_pages.at h.berth) = t1 ∧ rd t (PGR_T2_QUOTA_pages.at h.berth) = t2 ∧
      rd t (PGR_SPILL_pages.at h.berth) = spill ∧ t.tx.head? = some (.status h.iface h.peer 0x0303 h.seq h.berth true 0 0 true 0 [])) ∧
  (∀ (s : State) (h : EcpHdr) (handle : BitVec 48) (signal : W16) (offset : W64) (data : List Byte),
    admitted s h 0x0304 [] = true → data ≠ [] → data.length ≤ 8192 → rangeOk s h.berth handle offset.toNat data.length = true →
    badWrite s (addrOf handle + offset.toNat) data.length = false →
    ∃ t, exec (.write h handle signal offset data) s = .next t ∧ peek t (addrOf handle + offset.toNat) data.length = data ∧
      t.tx.head? = some (.status h.iface h.peer 0x0304 h.seq h.berth true 0 0 true 0 [])) ∧
  (∀ (s : State) (h : EcpHdr) (handle : BitVec 48) (offset : W64) (length pace : Nat),
    admitted s h 0x0305 [] = true → 1 ≤ length → length ≤ 1048576 → rangeOk s h.berth handle offset.toNat length = true → badRange s (addrOf handle + offset.toNat) length = false →
    ∃ t, exec (.read h handle offset length pace) s = .next t ∧ t.mem.bytes = s.mem.bytes ∧ t.tx.head? = some (.status h.iface h.peer 0x0305 h.seq h.berth true 0 0 true 0 []) ∧
      t.tx.any (fun m => m == Tx.data h.iface h.peer h.seq h.berth offset.toNat (peek s (addrOf handle + offset.toNat) (min 8192 length))) = true) ∧
  (∀ (s : State) (h : EcpHdr) (slot n : Nat),
    admitted s h 0x0308 [] = true → slot ≤ 1023 → 1 ≤ n → n ≤ 32767 →
    ∃ t, exec (.signal h slot n) s = .next t ∧ mgetD t.shelf.slots (1024 * h.berth + slot) 0 = mgetD s.shelf.slots (1024 * h.berth + slot) 0 + BitVec.ofNat 16 n ∧
      t.tx.head? = some (.status h.iface h.peer 0x0308 h.seq h.berth true 0 0 true 0 [])) ∧
  (∀ (s : State) (h : EcpHdr) (src dst : BitVec 48) (fmt : Nat),
    admitted s h 0x0306 [] = true → allocated s h.berth src = true → allocated s h.berth dst = true → isDropped s src = false → isDropped s dst = false → isCoded s src = false → isCoded s dst = false →
    ((objOf s dst).any fun o => o.policy ≤ 1) = true → hView dst = 0 → codedFmt fmt = true →
    ∃ t, exec (.code h src dst fmt) s = .next t ∧ (t.shg.reqs.getLast?.any fun r => r.seq == h.seq && r.berth == h.berth && !r.decode && r.src == src && r.dst == dst && r.fmt == fmt) = true ∧
      ((berthOf t h.berth).inflight.any fun q => q.1 = h.seq) = true) ∧
  (∀ (s : State) (h : EcpHdr) (src dst : BitVec 48),
    admitted s h 0x0307 [] = true → allocated s h.berth src = true → allocated s h.berth dst = true → isDropped s dst = false → ((objOf s src).any fun o => o.coded && !o.dropped) = true → hView src = 0 →
    ∃ t, exec (.decode h src dst) s = .next t ∧ (t.shg.reqs.getLast?.any fun r => r.seq == h.seq && r.berth == h.berth && r.decode && r.src == src && r.dst == dst) = true ∧
      ((berthOf t h.berth).inflight.any fun q => q.1 = h.seq) = true)
end

