-- ==== Sys2Proof/Laws/Cells.lean ====
section
/-!
SUPPORT. The byte cells and the listed CRS words: what reading after writing gives, and that every operation keeps the canonical form.
-/
namespace Sys2Proof.Laws
open Sys2Proof Sys2Proof.Machine Sys2Proof.Safety

/-! ### Byte cells -/

theorem cellsOk_cons {k : Nat} {v : Byte} {m : List Host.Cell} :
    cellsOk ((k, v) :: m) = true ↔ v ≠ 0 ∧ (∀ c ∈ m, k < c.1) ∧ cellsOk m = true := by
  induction m generalizing k v with
  | nil => simp [cellsOk]
  | cons c m ih =>
    obtain ⟨l, w⟩ := c
    simp only [cellsOk, Bool.and_eq_true, decide_eq_true_eq, List.mem_cons, forall_eq_or_imp]
    constructor
    · rintro ⟨⟨hv, hk⟩, hm⟩
      exact ⟨by simpa using hv, ⟨hk, fun c hc => lt_trans hk ((ih.1 hm).2.1 c hc)⟩, hm⟩
    · rintro ⟨hv, ⟨hk, -⟩, hm⟩
      exact ⟨⟨by simpa using hv, hk⟩, hm⟩

theorem cellsOk_filter (f : Host.Cell → Bool) {m : List Host.Cell} (h : cellsOk m = true) : cellsOk (m.filter f) = true := by
  induction m with
  | nil => rfl
  | cons c m ih =>
    obtain ⟨k, v⟩ := c
    obtain ⟨hv, hk, hm⟩ := cellsOk_cons.1 h
    rw [List.filter_cons]
    split
    · exact cellsOk_cons.2 ⟨hv, fun c hc => hk c (List.mem_filter.1 hc).1, ih hm⟩
    · exact ih hm

theorem mem_cellPut {m : List Host.Cell} {a : Nat} {v : Byte} {c : Host.Cell} (h : c ∈ cellPut m a v) : c = (a, v) ∨ c ∈ m := by
  induction m with
  | nil => simp only [cellPut] at h; split at h <;> simp_all
  | cons d m ih =>
    obtain ⟨k, w⟩ := d
    simp only [cellPut] at h
    split at h
    · split at h <;> simp_all
    · split at h
      · split at h <;> (simp_all; try grind)
      · simp only [List.mem_cons] at h ⊢
        rcases h with h | h
        · exact .inr (.inl h)
        · rcases ih h with h | h
          · exact .inl h
          · exact .inr (.inr h)

theorem cellsOk_cellPut {m : List Host.Cell} (a : Nat) (v : Byte) (h : cellsOk m = true) : cellsOk (cellPut m a v) = true := by
  induction m with
  | nil => simp only [cellPut]; split <;> simp_all [cellsOk]
  | cons d m ih =>
    obtain ⟨k, w⟩ := d
    obtain ⟨hw, hk, hm⟩ := cellsOk_cons.1 h
    simp only [cellPut]
    split
    · split
      · exact h
      · rename_i hak hv
        refine cellsOk_cons.2 ⟨hv, fun c hc => ?_, h⟩
        rcases List.mem_cons.1 hc with rfl | hc
        · exact hak
        · exact lt_trans hak (hk c hc)
    · split
      · split
        · exact hm
        · rename_i hv
          subst_vars
          exact cellsOk_cons.2 ⟨hv, hk, hm⟩
      · refine cellsOk_cons.2 ⟨hw, fun c hc => ?_, ih hm⟩
        rcases mem_cellPut hc with rfl | hc
        · show k < a; omega
        · exact hk c hc

theorem cellsOk_cellPuts {m : List Host.Cell} (a : Nat) (bs : List Byte) (h : cellsOk m = true) : cellsOk (cellPuts m a bs) = true := by
  induction bs generalizing m a with
  | nil => exact h
  | cons b bs ih => exact ih _ (cellsOk_cellPut a b h)

theorem cellsOk_cellDrop {m : List Host.Cell} (a n : Nat) (h : cellsOk m = true) : cellsOk (cellDrop m a n) = true :=
  cellsOk_filter _ h

theorem cellsOk_foldl {α : Type} (f : List Host.Cell → α → List Host.Cell) (hf : ∀ m x, cellsOk m = true → cellsOk (f m x) = true)
    (l : List α) {m : List Host.Cell} (h : cellsOk m = true) : cellsOk (l.foldl f m) = true := by
  induction l generalizing m with
  | nil => exact h
  | cons x l ih => exact ih (hf m x h)

theorem cellGet_of_lt {m : List Host.Cell} {a : Nat} (h : ∀ c ∈ m, a < c.1) : cellGet m a = 0 := by
  induction m with
  | nil => rfl
  | cons d m ih =>
    obtain ⟨k, w⟩ := d
    have := h (k, w) (by simp)
    simp only [cellGet]
    rw [if_neg (by simp at this; omega)]
    exact ih fun c hc => h c (by simp [hc])

/-- Reading a byte after one was stored. -/
theorem cellGet_cellPut {m : List Host.Cell} (h : cellsOk m = true) (a x : Nat) (v : Byte) :
    cellGet (cellPut m a v) x = if x = a then v else cellGet m x := by
  induction m with
  | nil =>
    simp only [cellPut]
    split
    · subst_vars; simp [cellGet]
    · simp only [cellGet]; split <;> split <;> simp_all
  | cons d m ih =>
    obtain ⟨k, w⟩ := d
    obtain ⟨hw, hk, hm⟩ := cellsOk_cons.1 h
    simp only [cellPut]
    split
    · rename_i hak
      split
      · subst_vars
        split
        · subst_vars
          exact cellGet_of_lt fun c hc => by
            rcases List.mem_cons.1 hc with rfl | hc
            · exact hak
            · exact lt_trans hak (hk c hc)
        · rfl
      · simp only [cellGet]
        by_cases hx : x = a
        · subst hx; simp
        · rw [if_neg (fun e => hx e.symm), if_neg hx]
    · split
      · subst_vars
        split
        · subst_vars
          split
          · subst_vars
            exact cellGet_of_lt hk
          · simp only [cellGet]
            rw [if_neg (by omega)]
        · simp only [cellGet]
          split <;> split <;> first | rfl | (subst_vars; omega)
      · simp only [cellGet, ih hm]
        split <;> split <;> first | rfl | (subst_vars; omega)

theorem cellGet_cellPuts {m : List Host.Cell} (h : cellsOk m = true) (a x : Nat) (bs : List Byte) :
    cellGet (cellPuts m a bs) x = if a ≤ x ∧ x < a + bs.length then (bs[x - a]?).getD 0 else cellGet m x := by
  induction bs generalizing m a with
  | nil => simp only [cellPuts, List.length_nil]; rw [if_neg (by omega)]
  | cons b bs ih =>
    simp only [cellPuts]
    rw [ih (cellsOk_cellPut a b h), cellGet_cellPut h]
    simp only [List.length_cons]
    by_cases h1 : x = a
    · subst h1
      rw [if_neg (by omega), if_pos rfl, if_pos (by omega)]
      simp
    · by_cases h2 : a + 1 ≤ x ∧ x < a + 1 + bs.length
      · rw [if_pos h2, if_pos (by omega)]
        have : x - a = (x - (a + 1)) + 1 := by omega
        rw [this, List.getElem?_cons_succ]
      · rw [if_neg h2, if_neg h1, if_neg (by omega)]

theorem cellGet_cellDrop {m : List Host.Cell} (h : cellsOk m = true) (a n x : Nat) :
    cellGet (cellDrop m a n) x = if a ≤ x ∧ x < a + n then 0 else cellGet m x := by
  induction m with
  | nil => simp [cellDrop, cellGet]
  | cons d m ih =>
    obtain ⟨k, w⟩ := d
    obtain ⟨hw, hk, hm⟩ := cellsOk_cons.1 h
    have ih := ih hm
    simp only [cellDrop] at ih ⊢
    rw [List.filter_cons]
    split
    · rename_i hb
      simp only [Bool.or_eq_true, decide_eq_true_eq] at hb
      simp only [cellGet]
      split
      · subst_vars
        rw [if_neg (by omega)]
      · exact ih
    · rename_i hb
      simp only [Bool.or_eq_true, decide_eq_true_eq, not_or, not_lt, not_le] at hb
      rw [ih]
      split
      · rfl
      · simp only [cellGet]
        rw [if_neg (by omega)]

/-! ### Listed CRS words -/

theorem regsOk_cons {v : Variant} {k : Nat} {w : W32} {m : NMap W32} :
    regsOk v ((k, w) :: m) = true ↔ w ≠ resetWord v k ∧ (∀ c ∈ m, k < c.1) ∧ regsOk v m = true := by
  induction m generalizing k w with
  | nil => simp [regsOk]
  | cons c m ih =>
    obtain ⟨l, x⟩ := c
    simp only [regsOk, Bool.and_eq_true, decide_eq_true_eq, List.mem_cons, forall_eq_or_imp]
    constructor
    · rintro ⟨⟨hv, hk⟩, hm⟩
      exact ⟨hv, ⟨hk, fun c hc => lt_trans hk ((ih.1 hm).2.1 c hc)⟩, hm⟩
    · rintro ⟨hv, ⟨hk, -⟩, hm⟩
      exact ⟨⟨hv, hk⟩, hm⟩

theorem regsOk_filter {v : Variant} (f : Nat × W32 → Bool) {m : NMap W32} (h : regsOk v m = true) : regsOk v (m.filter f) = true := by
  induction m with
  | nil => rfl
  | cons c m ih =>
    obtain ⟨k, w⟩ := c
    obtain ⟨hv, hk, hm⟩ := regsOk_cons.1 h
    rw [List.filter_cons]
    split
    · exact regsOk_cons.2 ⟨hv, fun c hc => hk c (List.mem_filter.1 hc).1, ih hm⟩
    · exact ih hm

theorem mem_mset {α : Type} {m : NMap α} {i : Nat} {v : α} {c : Nat × α} (h : c ∈ mset m i v) : c = (i, v) ∨ c ∈ m := by
  induction m with
  | nil => simpa [mset] using h
  | cons d m ih =>
    obtain ⟨k, w⟩ := d
    simp only [mset] at h
    split at h
    · simp_all; grind
    · split at h
      · simp_all
      · simp only [List.mem_cons] at h ⊢
        rcases h with h | h
        · exact .inr (.inl h)
        · rcases ih h with h | h
          · exact .inl h
          · exact .inr (.inr h)

theorem regsOk_mset {v : Variant} {m : NMap W32} {i : Nat} {w : W32} (hw : w ≠ resetWord v i) (h : regsOk v m = true) :
    regsOk v (mset m i w) = true := by
  induction m with
  | nil => simpa [mset, regsOk] using hw
  | cons d m ih =>
    obtain ⟨k, x⟩ := d
    obtain ⟨hx, hk, hm⟩ := regsOk_cons.1 h
    simp only [mset]
    split
    · subst_vars
      exact regsOk_cons.2 ⟨hw, hk, hm⟩
    · split
      · rename_i hik
        refine regsOk_cons.2 ⟨hw, fun c hc => ?_, h⟩
        rcases List.mem_cons.1 hc with rfl | hc
        · exact hik
        · exact lt_trans hik (hk c hc)
      · refine regsOk_cons.2 ⟨hx, fun c hc => ?_, ih hm⟩
        rcases mem_mset hc with rfl | hc
        · show k < i; omega
        · exact hk c hc

theorem regsOk_msetD {v : Variant} {m : NMap W32} (i : Nat) (w : W32) (h : regsOk v m = true) :
    regsOk v (msetD m i w (resetWord v i)) = true := by
  unfold msetD
  split
  · exact regsOk_filter _ h
  · exact regsOk_mset ‹_› h

/-! ### Sparse maps -/

@[simp] theorem mget_mset {α : Type} (m : NMap α) (i j : Nat) (v : α) : mget (mset m i v) j = if j = i then some v else mget m j := by
  induction m with
  | nil => simp only [mset, mget, eq_comm (a := i)]
  | cons d m ih =>
    obtain ⟨k, w⟩ := d
    simp only [mset]
    by_cases hki : k = i
    · subst hki; rw [if_pos rfl]; simp only [mget, eq_comm (a := k)]; split <;> rfl
    · rw [if_neg hki]
      by_cases hik : i < k
      · rw [if_pos hik]; simp only [mget, eq_comm (a := i)]
      · rw [if_neg hik]; simp only [mget, ih]
        by_cases hj : j = i
        · subst hj; rw [if_neg hki, if_pos rfl, if_pos rfl]
        · rw [if_neg hj, if_neg hj]

@[simp] theorem mget_mdel {α : Type} (m : NMap α) (i j : Nat) : mget (mdel m i) j = if j = i then none else mget m j := by
  induction m with
  | nil => simp [mdel, mget]
  | cons d m ih =>
    obtain ⟨k, w⟩ := d
    simp only [mdel] at ih ⊢
    rw [List.filter_cons]
    split
    · rename_i hki
      simp only [mget, ih]
      by_cases hj : j = i
      · subst hj; rw [if_neg (by simpa using hki), if_pos rfl, if_pos rfl]
      · rw [if_neg hj, if_neg hj]
    · rename_i hki
      have hki : k = i := by simpa using hki
      rw [ih]; simp only [mget]
      by_cases hj : j = i
      · rw [if_pos hj, if_pos hj]
      · rw [if_neg hj, if_neg hj, if_neg (by omega)]

@[simp] theorem mgetD_mset {α : Type} (m : NMap α) (i j : Nat) (v d : α) : mgetD (mset m i v) j d = if j = i then v else mgetD m j d := by
  unfold mgetD; rw [mget_mset]; split <;> rfl

@[simp] theorem mgetD_mdel {α : Type} (m : NMap α) (i j : Nat) (d : α) : mgetD (mdel m i) j d = if j = i then d else mgetD m j d := by
  unfold mgetD; rw [mget_mdel]; split <;> rfl

theorem mget_msetD {α : Type} [DecidableEq α] (m : NMap α) (i j : Nat) (v d : α) :
    (mget (msetD m i v d) j).getD d = if j = i then v else (mget m j).getD d := by
  unfold msetD; split
  · rw [mget_mdel]; split <;> simp_all
  · rw [mget_mset]; split <;> rfl

/-! ### The row of four -/

theorem fget_fset {α : Type} (q : Four α) (i j : Nat) (v : α) : fget (fset q i v) j = if min j 3 = min i 3 then v else fget q j := by
  rcases i with _ | _ | _ | i <;> rcases j with _ | _ | _ | j <;> simp [fget, fset]

@[simp] theorem fget_fset_same {α : Type} (q : Four α) (i : Nat) (v : α) : fget (fset q i v) i = v := by simp [fget_fset]

@[simp] theorem fget_fmod_same {α : Type} (q : Four α) (i : Nat) (f : α → α) : fget (fmod q i f) i = f (fget q i) := by simp [fmod]

theorem fget_fmod {α : Type} (q : Four α) (i j : Nat) (f : α → α) (hi : i < 4) (hj : j < 4) :
    fget (fmod q i f) j = if j = i then f (fget q i) else fget q j := by
  unfold fmod; rw [fget_fset]
  by_cases h : j = i
  · subst h; simp
  · rw [if_neg (by omega), if_neg h]

end Sys2Proof.Laws
end

