-- ==== Sys2Proof/Laws/Rel.lean ====
section
/-!
SUPPORT. `Rel ps s t`: what every operation of the model keeps. The queue, the variant, the outputs that have left, the canonical form
and the counter of free values behave as they must, and nothing outside the parts `ps` differs. The lemmas here carry it through
the shapes that definitions take: an update of one field, a test, a binding, a pair, an option, a fold.
-/
namespace Sys2Proof.Laws
open Sys2Proof Sys2Proof.Machine Sys2Proof.Safety

/-- The parts of the first list are among those of the second. -/
abbrev Sub (a b : List Part) : Prop := ∀ p ∈ a, p ∈ b

theorem Sub.trans {a b c : List Part} (h : Sub a b) (h' : Sub b c) : Sub a c := fun p hp => h' p (h p hp)

/-- What every operation keeps, beside the parts that it may change. -/
structure Rel (ps : List Part) (s t : State) : Prop where
  pending : t.pending = s.pending
  variant : t.variant = s.variant
  free    : s.free ≤ t.free
  tx      : s.tx <:+ t.tx
  canon   : Canonical s → Canonical t
  frame   : Frame ps s t

theorem Part.same_refl (p : Part) (s : State) : p.same s s := by cases p <;> first | rfl | exact ⟨rfl, .inl rfl⟩

theorem Part.same_trans {p : Part} {s t u : State} (h : p.same s t) (h' : p.same t u) : p.same s u := by
  cases p <;> simp only [Part.same] at * <;> try exact h'.trans h
  · rw [← h, ← h']
  · refine ⟨h'.1.trans h.1, ?_⟩
    rcases h'.2 with e | e
    · rw [e]; exact h.2
    · exact .inr e

theorem Rel.refl {ps : List Part} {s : State} : Rel ps s s :=
  ⟨rfl, rfl, le_refl _, List.suffix_refl _, id, fun p _ => Part.same_refl p s⟩

theorem Rel.trans {ps : List Part} {s t u : State} (h : Rel ps s t) (h' : Rel ps t u) : Rel ps s u :=
  ⟨h'.pending.trans h.pending, h'.variant.trans h.variant, h.free.trans h'.free, h.tx.trans h'.tx, fun x => h'.canon (h.canon x),
    fun p hp => Part.same_trans (h.frame p hp) (h'.frame p hp)⟩

/-- The first state of a pair, an option or an outcome is related. -/
abbrev Rel1 {α : Type} (ps : List Part) (s : State) (r : State × α) : Prop := Rel ps s r.1
def RelO (ps : List Part) (s : State) (o : Option State) : Prop := ∀ t, o = some t → Rel ps s t
def RelP {α : Type} (ps : List Part) (s : State) (o : Option (State × α)) : Prop := ∀ t, o = some t → Rel ps s t.1
def Ends (ps : List Part) (s : State) (o : Host.Outcome State Fault Refusal) : Prop := ∃ t, o = .next t ∧ Rel ps s t

section shapes
variable {ps : List Part} {z s : State}

theorem of_eq1 {α : Type} {r : State × α} {t : State} {x : α} (e : r = (t, x)) (h : Rel1 ps z r) : Rel ps z t := by subst e; exact h
theorem of_eqO {o : Option State} {t : State} (e : o = some t) (h : RelO ps z o) : Rel ps z t := h t e
theorem of_eqP {α : Type} {o : Option (State × α)} {t : State × α} (e : o = some t) (h : RelP ps z o) : Rel ps z t.1 := h t e
theorem of_eqP2 {α : Type} {o : Option (State × α)} {t : State} {x : α} (e : o = some (t, x)) (h : RelP ps z o) : Rel ps z t := h _ e
theorem ofPair {α : Type} {t : State} {x : α} (h : Rel ps z t) : Rel1 ps z (t, x) := h
theorem ofSome {t : State} (h : Rel ps z t) : RelO ps z (some t) := fun _ e => Option.some.inj e ▸ h
theorem ofNone : RelO ps z none := fun _ e => nomatch e
theorem ofSomeP {α : Type} {t : State × α} (h : Rel ps z t.1) : RelP ps z (some t) := fun _ e => Option.some.inj e ▸ h
theorem ofNoneP {α : Type} : RelP (α := α) ps z none := fun _ e => nomatch e
theorem ofNext {t : State} (h : Rel ps z t) : Ends ps z (.next t) := ⟨t, rfl, h⟩

theorem iteP {β : Sort*} {P : β → Prop} {c : Prop} [Decidable c] {a b : β} (ha : P a) (hb : P b) : P (if c then a else b) := by
  split <;> assumption
theorem condP {β : Sort*} {P : β → Prop} {c : Bool} {a b : β} (ha : P a) (hb : P b) : P (bif c then a else b) := by
  cases c <;> assumption

theorem foldSP {α : Type} {f : State → α → State} (h : Rel ps z s) (hf : ∀ t x, Rel ps z t → Rel ps z (f t x)) (l : List α) :
    Rel ps z (foldS f s l) := by
  induction l generalizing s with
  | nil => exact h
  | cons x l ih => exact ih (hf s x h)

theorem foldlP {α : Type} {f : State → α → State} (h : Rel ps z s) (hf : ∀ t x, Rel ps z t → Rel ps z (f t x)) (l : List α) :
    Rel ps z (l.foldl f s) := by
  induction l generalizing s with
  | nil => exact h
  | cons x l ih => exact ih (hf s x h)

theorem foldl1P {α β : Type} {f : State × β → α → State × β} {r : State × β} (h : Rel1 ps z r)
    (hf : ∀ t x, Rel1 ps z t → Rel1 ps z (f t x)) (l : List α) : Rel1 ps z (l.foldl f r) := by
  induction l generalizing r with
  | nil => exact h
  | cons x l ih => exact ih (hf r x h)

theorem firstOfP {l : List (Option State)} (h : ∀ o ∈ l, RelO ps z o) : RelO ps z (firstOf l) := by
  induction l with
  | nil => exact ofNone
  | cons o l ih =>
    cases o with
    | none => exact ih fun o ho => h o (List.mem_cons_of_mem _ ho)
    | some t => exact h (some t) (List.mem_cons_self ..)

theorem mapO {α : Type} {f : α → State} {o : Option α} (h : ∀ a, Rel ps z (f a)) : RelO ps z (o.map f) := by
  cases o with
  | none => exact ofNone
  | some a => exact ofSome (h a)

theorem mapO2 {f : State → State} {o : Option State} (ho : RelO ps z o) (h : ∀ a, Rel ps z a → Rel ps z (f a)) :
    RelO ps z (o.map f) := by
  cases o with
  | none => exact ofNone
  | some a => exact ofSome (h a (ho a rfl))

theorem bindO {f : State → Option State} {o : Option State} (ho : RelO ps z o) (h : ∀ a, Rel ps z a → RelO ps z (f a)) :
    RelO ps z (o.bind f) := by
  cases o with
  | none => exact ofNone
  | some a => exact h a (ho a rfl)

theorem getDO {o : Option State} {t : State} (ho : RelO ps z o) (h : Rel ps z t) : Rel ps z (o.getD t) := by
  cases o with
  | none => exact h
  | some a => exact ho a rfl

theorem foldlOptP {α : Type} {f : Option State → α → Option State} {o : Option State} (h : RelO ps z o)
    (hf : ∀ t x, RelO ps z t → RelO ps z (f t x)) (l : List α) : RelO ps z (l.foldl f o) := by
  induction l generalizing o with
  | nil => exact h
  | cons x l ih => exact ih (hf o x h)

theorem rangeWriteP {o : Nat} {c : CrsWrite} {l : List (Fld × Nat × (State → Nat → CrsWrite → State))} (_ : Rel ps z s)
    (hl : ∀ e ∈ l, ∀ i, Rel ps z (e.2.2 s i c)) : RelO ps z (rangeWrite s o c l) := by
  induction l with
  | nil => exact ofNone
  | cons e l ih =>
    obtain ⟨f, n, w⟩ := e
    unfold rangeWrite
    split
    · exact ofSome (hl _ (List.mem_cons_self ..) _)
    · exact ih fun e he => hl e (List.mem_cons_of_mem _ he)

/-! ### An update of one field -/

theorem frame_add {p : Part} {t : State} (h : Rel ps z s) (hp : p ∈ ps) (hq : ∀ q, q ≠ p → q.same s t) : Frame ps z t := fun q hq' =>
  Part.same_trans (h.frame q hq') (hq q fun e => hq' (e ▸ hp))

theorem rel_counts (h : Rel ps z s) (hp : Part.counts ∈ ps) {v} : Rel ps z { s with counts := v } :=
  ⟨h.pending, h.variant, h.free, h.tx, h.canon, frame_add h hp fun q hq => by
    cases q <;> first | rfl | exact ⟨rfl, .inl rfl⟩ | exact absurd rfl hq⟩

theorem rel_banks (h : Rel ps z s) (hp : Part.banks ∈ ps) {v} : Rel ps z { s with banks := v } :=
  ⟨h.pending, h.variant, h.free, h.tx, h.canon, frame_add h hp fun q hq => by
    cases q <;> first | rfl | exact ⟨rfl, .inl rfl⟩ | exact absurd rfl hq⟩

theorem rel_icu (h : Rel ps z s) (hp : Part.icu ∈ ps) {v} : Rel ps z { s with icu := v } :=
  ⟨h.pending, h.variant, h.free, h.tx, h.canon, frame_add h hp fun q hq => by
    cases q <;> first | rfl | exact ⟨rfl, .inl rfl⟩ | exact absurd rfl hq⟩

theorem rel_shelf (h : Rel ps z s) (hp : Part.shelf ∈ ps) {v} : Rel ps z { s with shelf := v } :=
  ⟨h.pending, h.variant, h.free, h.tx, h.canon, frame_add h hp fun q hq => by
    cases q <;> first | rfl | exact ⟨rfl, .inl rfl⟩ | exact absurd rfl hq⟩

theorem rel_num (h : Rel ps z s) (hp : Part.num ∈ ps) {v} : Rel ps z { s with num := v } :=
  ⟨h.pending, h.variant, h.free, h.tx, h.canon, frame_add h hp fun q hq => by
    cases q <;> first | rfl | exact ⟨rfl, .inl rfl⟩ | exact absurd rfl hq⟩

theorem rel_snd (h : Rel ps z s) (hp : Part.snd ∈ ps) {v} : Rel ps z { s with snd := v } :=
  ⟨h.pending, h.variant, h.free, h.tx, h.canon, frame_add h hp fun q hq => by
    cases q <;> first | rfl | exact ⟨rfl, .inl rfl⟩ | exact absurd rfl hq⟩

theorem rel_slv (h : Rel ps z s) (hp : Part.slv ∈ ps) {v} : Rel ps z { s with slv := v } :=
  ⟨h.pending, h.variant, h.free, h.tx, h.canon, frame_add h hp fun q hq => by
    cases q <;> first | rfl | exact ⟨rfl, .inl rfl⟩ | exact absurd rfl hq⟩

theorem rel_upd (h : Rel ps z s) (hp : Part.upd ∈ ps) {v} : Rel ps z { s with upd := v } :=
  ⟨h.pending, h.variant, h.free, h.tx, h.canon, frame_add h hp fun q hq => by
    cases q <;> first | rfl | exact ⟨rfl, .inl rfl⟩ | exact absurd rfl hq⟩

theorem rel_clf (h : Rel ps z s) (hp : Part.clf ∈ ps) {v} : Rel ps z { s with clf := v } :=
  ⟨h.pending, h.variant, h.free, h.tx, h.canon, frame_add h hp fun q hq => by
    cases q <;> first | rfl | exact ⟨rfl, .inl rfl⟩ | exact absurd rfl hq⟩

theorem rel_lsh (h : Rel ps z s) (hp : Part.lsh ∈ ps) {v} : Rel ps z { s with lsh := v } :=
  ⟨h.pending, h.variant, h.free, h.tx, h.canon, frame_add h hp fun q hq => by
    cases q <;> first | rfl | exact ⟨rfl, .inl rfl⟩ | exact absurd rfl hq⟩

theorem rel_shg (h : Rel ps z s) (hp : Part.shg ∈ ps) {v} : Rel ps z { s with shg := v } :=
  ⟨h.pending, h.variant, h.free, h.tx, h.canon, frame_add h hp fun q hq => by
    cases q <;> first | rfl | exact ⟨rfl, .inl rfl⟩ | exact absurd rfl hq⟩

theorem rel_swl (h : Rel ps z s) (hp : Part.swl ∈ ps) {v} : Rel ps z { s with swl := v } :=
  ⟨h.pending, h.variant, h.free, h.tx, h.canon, frame_add h hp fun q hq => by
    cases q <;> first | rfl | exact ⟨rfl, .inl rfl⟩ | exact absurd rfl hq⟩

theorem rel_ofs (h : Rel ps z s) (hp : Part.ofs ∈ ps) {v} : Rel ps z { s with ofs := v } :=
  ⟨h.pending, h.variant, h.free, h.tx, h.canon, frame_add h hp fun q hq => by
    cases q <;> first | rfl | exact ⟨rfl, .inl rfl⟩ | exact absurd rfl hq⟩

theorem rel_quay (h : Rel ps z s) (hp : Part.quay ∈ ps) {v} : Rel ps z { s with quay := v } :=
  ⟨h.pending, h.variant, h.free, h.tx, h.canon, frame_add h hp fun q hq => by
    cases q <;> first | rfl | exact ⟨rfl, .inl rfl⟩ | exact absurd rfl hq⟩

theorem rel_eth (h : Rel ps z s) (hp : Part.eth ∈ ps) {v} : Rel ps z { s with eth := v } :=
  ⟨h.pending, h.variant, h.free, h.tx, h.canon, frame_add h hp fun q hq => by
    cases q <;> first | rfl | exact ⟨rfl, .inl rfl⟩ | exact absurd rfl hq⟩

theorem rel_lh (h : Rel ps z s) (hp : Part.lh ∈ ps) {v} : Rel ps z { s with lh := v } :=
  ⟨h.pending, h.variant, h.free, h.tx, h.canon, frame_add h hp fun q hq => by
    cases q <;> first | rfl | exact ⟨rfl, .inl rfl⟩ | exact absurd rfl hq⟩

theorem rel_pwr (h : Rel ps z s) (hp : Part.pwr ∈ ps) {v} : Rel ps z { s with pwr := v } :=
  ⟨h.pending, h.variant, h.free, h.tx, h.canon, frame_add h hp fun q hq => by
    cases q <;> first | rfl | exact ⟨rfl, .inl rfl⟩ | exact absurd rfl hq⟩

theorem rel_rst (h : Rel ps z s) (hp : Part.rst ∈ ps) {v} : Rel ps z { s with rst := v } :=
  ⟨h.pending, h.variant, h.free, h.tx, h.canon, frame_add h hp fun q hq => by
    cases q <;> first | rfl | exact ⟨rfl, .inl rfl⟩ | exact absurd rfl hq⟩

/-- A change of the security record that leaves the life cycle as it is. -/
theorem rel_sec (h : Rel ps z s) (hp : Part.sec ∈ ps) {v} (hl : v.life = s.sec.life ∧ (v.leaving = s.sec.leaving ∨ v.leaving = none)) :
    Rel ps z { s with sec := v } :=
  ⟨h.pending, h.variant, h.free, h.tx, h.canon, frame_add h hp fun q hq => by
    cases q <;> first | rfl | exact hl | exact absurd rfl hq⟩

theorem rel_modSec (h : Rel ps z s) (hp : Part.sec ∈ ps) {f : Security → Security}
    (hl : (f s.sec).life = s.sec.life ∧ ((f s.sec).leaving = s.sec.leaving ∨ (f s.sec).leaving = none)) : Rel ps z (modSec s f) :=
  rel_sec h hp hl

/-- A change of the life cycle. -/
theorem rel_modSecLife (h : Rel ps z s) (hp : Part.sec ∈ ps) (hl : Part.life ∈ ps) {f : Security → Security} : Rel ps z (modSec s f) :=
  ⟨h.pending, h.variant, h.free, h.tx, h.canon, fun q hq => Part.same_trans (h.frame q hq) (by
    cases q <;> first | rfl | exact absurd hp hq | exact absurd hl hq)⟩

theorem rel_edge (h : Rel ps z s) (hp : Part.edge ∈ ps) {v} : Rel ps z { s with edge := v } :=
  ⟨h.pending, h.variant, h.free, h.tx, h.canon, frame_add h hp fun q hq => by
    cases q <;> first | rfl | exact ⟨rfl, .inl rfl⟩ | exact absurd rfl hq⟩

/-- An update of several fields at once. -/
theorem rel_many {t : State} (h : Rel ps z s) (hf : t.pending = s.pending ∧ t.variant = s.variant ∧ t.free = s.free ∧ t.tx = s.tx
    ∧ t.regs = s.regs ∧ t.mem = s.mem) (hq : ∀ q, q ∉ ps → q.same s t) : Rel ps z t := by
  obtain ⟨h1, h2, h3, h4, h5, h6⟩ := hf
  refine ⟨h1.trans h.pending, h2.trans h.variant, h3 ▸ h.free, h4 ▸ h.tx, fun c => ?_,
    fun q hq' => Part.same_trans (h.frame q hq') (hq q hq')⟩
  have := h.canon c
  unfold Canonical at *
  rw [h6, h2, h5]
  exact this

theorem rel_setWord (h : Rel ps z s) (hp : Part.regs ∈ ps) {off w} : Rel ps z (setWord s off w) :=
  ⟨h.pending, h.variant, h.free, h.tx, fun c => ⟨(h.canon c).1, regsOk_msetD off w (h.canon c).2⟩,
    frame_add h hp fun q hq => by
    cases q <;> first | rfl | exact ⟨rfl, .inl rfl⟩ | exact absurd rfl hq⟩

theorem rel_resetWindow (h : Rel ps z s) (hp : Part.regs ∈ ps) {w keep} : Rel ps z (resetWindow s w keep) :=
  ⟨h.pending, h.variant, h.free, h.tx, fun c => ⟨(h.canon c).1, regsOk_filter _ (h.canon c).2⟩,
    frame_add h hp fun q hq => by
    cases q <;> first | rfl | exact ⟨rfl, .inl rfl⟩ | exact absurd rfl hq⟩

theorem rel_useFree (h : Rel ps z s) (hp : Part.free ∈ ps) : Rel ps z (useFree s) :=
  ⟨h.pending, h.variant, h.free.trans (Nat.le_succ _), h.tx, h.canon,
    frame_add h hp fun q hq => by
    cases q <;> first | rfl | exact ⟨rfl, .inl rfl⟩ | exact absurd rfl hq⟩

theorem rel_txCons (h : Rel ps z s) (hp : Part.tx ∈ ps) {x : Tx} : Rel ps z { s with tx := x :: s.tx } :=
  ⟨h.pending, h.variant, h.free, h.tx.trans (List.suffix_cons _ _), h.canon,
    frame_add h hp fun q hq => by
    cases q <;> first | rfl | exact ⟨rfl, .inl rfl⟩ | exact absurd rfl hq⟩

/-- A change of memory that leaves the stored bytes as they are. -/
theorem rel_modMem (h : Rel ps z s) (hp : Part.mem ∈ ps) {f : Memory → Memory} (hf : (f s.mem).bytes = s.mem.bytes) :
    Rel ps z (modMem s f) :=
  ⟨h.pending, h.variant, h.free, h.tx, fun c => ⟨by have := (h.canon c).1; simpa [modMem, Memory.wf, hf] using this, (h.canon c).2⟩,
    frame_add h hp fun q hq => by
    cases q <;> first | rfl | exact ⟨rfl, .inl rfl⟩ | exact absurd rfl hq | exact hf⟩

/-- A change of memory that may store bytes. -/
theorem rel_modMemBytes (h : Rel ps z s) (hp : Part.mem ∈ ps) (hb : Part.bytes ∈ ps) {f : Memory → Memory}
    (hf : cellsOk s.mem.bytes = true → cellsOk (f s.mem).bytes = true) : Rel ps z (modMem s f) :=
  ⟨h.pending, h.variant, h.free, h.tx, fun c => ⟨hf (h.canon c).1, (h.canon c).2⟩,
    fun q hq => Part.same_trans (h.frame q hq) (by cases q <;> first | rfl | exact ⟨rfl, .inl rfl⟩ | exact absurd hp hq | exact absurd hb hq)⟩

end shapes

end Sys2Proof.Laws
end

