-- ==== Sys2Proof/Laws/RelOps.lean ====
section
/-!
SUPPORT. One lemma for each operation on registers, counts, outputs, events, alerts, the error log and Quay's intake: it keeps `Rel`, and the parts
listed are all that it can change.
-/
namespace Sys2Proof.Laws
open Sys2Proof Sys2Proof.Machine Sys2Proof.Safety

/-! ### Regs -/

theorem rel_wr {ps_ : List Part} {z_ : State} {s : State} {f : Fld} {v : Nat} (h0_ : Rel ps_ z_ s) (hp_ : Sub [.regs] ps_) :
    Rel ps_ z_ (wr s f v) := by
  unfold wr
  refine rel_setWord ?_ (hp_ _ (by decide))
  · assumption

theorem rel_wrs {ps_ : List Part} {z_ : State} {s : State} {y1 : List (Fld × Nat)} (h0_ : Rel ps_ z_ s) (hp_ : Sub [.regs] ps_) :
    Rel ps_ z_ (wrs s y1) := by
  induction y1 generalizing s with
  | nil => exact h0_
  | cons p l ih => exact ih (rel_wr h0_ hp_)

theorem rel_wrOr {ps_ : List Part} {z_ : State} {s : State} {f : Fld} {v : Nat} (h0_ : Rel ps_ z_ s) (hp_ : Sub [.regs] ps_) :
    Rel ps_ z_ (wrOr s f v) := by
  unfold wrOr
  refine rel_wr ?_ (Sub.trans (by decide) hp_)
  · assumption

theorem rel_storeWrite {ps_ : List Part} {z_ : State} {s : State} {off : Nat} {c : CrsWrite} (h0_ : Rel ps_ z_ s) (hp_ : Sub [.regs] ps_) :
    Rel ps_ z_ (storeWrite s off c) := by
  unfold storeWrite
  split
  · assumption
  · extract_lets -merge -underBinder x4_0 x4_1
    clear_value x4_0 x4_1
    refine iteP (P := Rel ps_ z_) ?_ ?_
    · assumption
    · refine rel_setWord ?_ (hp_ _ (by decide))
      · assumption

/-! ### Ops -/

theorem rel_modBerth {ps_ : List Part} {z_ : State} {s : State} {b : Nat} {f : Berth → Berth} (h0_ : Rel ps_ z_ s) (hp_ : Sub [.quay] ps_) :
    Rel ps_ z_ (modBerth s b f) := by
  unfold modBerth
  extract_lets -merge -underBinder x2_0
  clear_value x2_0
  refine rel_quay ?_ (hp_ _ (by decide))
  assumption

theorem rel_count {ps_ : List Part} {z_ : State} {s : State} {id : Nat} {n : Nat} (h0_ : Rel ps_ z_ s) (hp_ : Sub [.counts] ps_) :
    Rel ps_ z_ (count s id n) := by
  unfold count
  refine rel_counts ?_ (hp_ _ (by decide))
  assumption

theorem rel_countFrame {ps_ : List Part} {z_ : State} {s : State} {i : Nat} {sent : Bool} {ip : Nat} (h0_ : Rel ps_ z_ s) (hp_ : Sub [.counts] ps_) :
    Rel ps_ z_ (countFrame s i sent ip) := by
  unfold countFrame
  extract_lets -merge -underBinder x2_0
  clear_value x2_0
  refine rel_count ?_ (Sub.trans (by decide) hp_)
  · refine rel_count ?_ (Sub.trans (by decide) hp_)
    · assumption

theorem rel_emit {ps_ : List Part} {z_ : State} {s : State} {t : Tx} (h0_ : Rel ps_ z_ s) (hp_ : Sub [.tx, .counts] ps_) :
    Rel ps_ z_ (emit s t) := by
  unfold emit
  extract_lets -merge -underBinder x2_0
  have hx2_0 : Rel ps_ z_ x2_0 := by
    unfold x2_0
    split
    · refine rel_countFrame ?_ (Sub.trans (by decide) hp_)
      · assumption
    · assumption
  clear_value x2_0
  refine rel_txCons ?_ (hp_ _ (by decide))
  assumption

theorem rel_sendEvent {ps_ : List Part} {z_ : State} {s : State} {b : Nat} {e : Ev} (h0_ : Rel ps_ z_ s) (hp_ : Sub [.tx, .counts] ps_) :
    Rel ps_ z_ (sendEvent s b e) := by
  unfold sendEvent
  extract_lets -merge -underBinder x2_0
  clear_value x2_0
  refine iteP (P := Rel ps_ z_) ?_ ?_
  · refine rel_count ?_ (Sub.trans (by decide) hp_)
    · refine rel_emit ?_ (Sub.trans (by decide) hp_)
      · assumption
  · assumption

theorem rel_putEvent {ps_ : List Part} {z_ : State} {s : State} {b : Nat} {payload : List Byte} (h0_ : Rel ps_ z_ s) (hp_ : Sub [.tx, .regs, .counts, .quay] ps_) :
    Rel ps_ z_ (putEvent s b payload) := by
  unfold putEvent
  extract_lets -merge -underBinder x2_0 x2_1 x2_2 x2_3
  clear_value x2_0 x2_1
  have hx2_2 : Rel ps_ z_ x2_2 := by
    unfold x2_2
    refine rel_modBerth ?_ (Sub.trans (by decide) hp_)
    · assumption
  clear_value x2_2
  have hx2_3 : Rel ps_ z_ x2_3 := by
    unfold x2_3
    refine rel_modBerth ?_ (Sub.trans (by decide) hp_)
    · assumption
  clear_value x2_3
  refine iteP (P := Rel ps_ z_) ?_ ?_
  · assumption
  · refine iteP (P := Rel ps_ z_) ?_ ?_
    · refine rel_sendEvent ?_ (Sub.trans (by decide) hp_)
      · assumption
    · refine rel_count ?_ (Sub.trans (by decide) hp_)
      · refine rel_wrOr ?_ (Sub.trans (by decide) hp_)
        · assumption

theorem rel_event {ps_ : List Part} {z_ : State} {s : State} {b : Nat} {code : Nat} {status : Nat} {opSeq : W32} {data : List Byte} (h0_ : Rel ps_ z_ s) (hp_ : Sub [.tx, .regs, .counts, .quay] ps_) :
    Rel ps_ z_ (event s b code status opSeq data) := by
  unfold event
  refine rel_putEvent ?_ (Sub.trans (by decide) hp_)
  · assumption

theorem rel_opFault {ps_ : List Part} {z_ : State} {s : State} {b : Nat} {opSeq : W32} {unit : Nat} {tier : Nat} (h0_ : Rel ps_ z_ s) (hp_ : Sub [.tx, .regs, .counts, .quay] ps_) :
    Rel ps_ z_ (opFault s b opSeq unit tier) := by
  unfold opFault
  refine rel_event ?_ (Sub.trans (by decide) hp_)
  · assumption

theorem rel_setFlag {ps_ : List Part} {z_ : State} {s : State} {b : Nat} (h0_ : Rel ps_ z_ s) (hp_ : Sub [.lsh] ps_) :
    Rel ps_ z_ (setFlag s b) := by
  unfold setFlag
  extract_lets -merge -underBinder x2_0
  clear_value x2_0
  refine rel_lsh ?_ (hp_ _ (by decide))
  assumption

theorem rel_noteThird {ps_ : List Part} {z_ : State} {s : State} (h0_ : Rel ps_ z_ s) (hp_ : Sub [.rst] ps_) :
    Rel ps_ z_ (noteThird s) := by
  unfold noteThird
  extract_lets -merge -underBinder x2_0
  clear_value x2_0
  refine iteP (P := Rel ps_ z_) ?_ ?_
  · refine rel_rst ?_ (hp_ _ (by decide))
    assumption
  · assumption

theorem rel_countDevice {ps_ : List Part} {z_ : State} {s : State} (h0_ : Rel ps_ z_ s) (hp_ : Sub [.rst] ps_) :
    Rel ps_ z_ (countDevice s) := by
  unfold countDevice
  extract_lets -merge -underBinder x2_0
  clear_value x2_0
  refine rel_noteThird ?_ (Sub.trans (by decide) hp_)
  · refine rel_rst ?_ (hp_ _ (by decide))
    assumption

theorem rel_logRaw {ps_ : List Part} {z_ : State} {s : State} {domain : Nat} {cls : Nat} {source : Nat} {detail : W64} {berth : Nat} (h0_ : Rel ps_ z_ s) (hp_ : Sub [.regs, .rst] ps_) :
    Rel ps_ z_ (logRaw s domain cls source detail berth) := by
  unfold logRaw
  extract_lets -merge -underBinder x2_0 x2_1 x2_2
  clear_value x2_0 x2_1 x2_2
  refine iteP (P := Rel ps_ z_) ?_ ?_
  · refine rel_rst ?_ (hp_ _ (by decide))
    assumption
  · refine rel_wrOr ?_ (Sub.trans (by decide) hp_)
    · refine rel_rst ?_ (hp_ _ (by decide))
      assumption

theorem rel_recordReset {ps_ : List Part} {z_ : State} {s : State} {d : Nat} {counted : Bool} (h0_ : Rel ps_ z_ s) (hp_ : Sub [.regs, .rst] ps_) :
    Rel ps_ z_ (recordReset s d counted) := by
  unfold recordReset
  extract_lets -merge -underBinder x2_0 x2_1
  have hx2_0 : Rel ps_ z_ x2_0 := by
    unfold x2_0
    refine rel_logRaw ?_ (Sub.trans (by decide) hp_)
    · assumption
  clear_value x2_0 x2_1
  refine rel_rst ?_ (hp_ _ (by decide))
  assumption

theorem rel_enterDevice {ps_ : List Part} {z_ : State} {s : State} {counted : Bool} {crash : Bool} (h0_ : Rel ps_ z_ s) (hp_ : Sub [.regs, .rst] ps_) :
    Rel ps_ z_ (enterDevice s counted crash) := by
  unfold enterDevice
  extract_lets -merge -underBinder x2_0 x2_1
  have hx2_0 : Rel ps_ z_ x2_0 := by
    unfold x2_0
    refine rel_noteThird ?_ (Sub.trans (by decide) hp_)
    · refine rel_recordReset ?_ (Sub.trans (by decide) hp_)
      · assumption
  clear_value x2_0 x2_1
  refine iteP (P := Rel ps_ z_) ?_ ?_
  · refine iteP (P := Rel ps_ z_) ?_ ?_
    · refine rel_countDevice ?_ (Sub.trans (by decide) hp_)
      · assumption
    · assumption
  · refine rel_rst ?_ (hp_ _ (by decide))
    assumption

theorem rel_enterReset {ps_ : List Part} {z_ : State} {s : State} {d : Nat} {byCmd : Bool} {crash : Bool} (h0_ : Rel ps_ z_ s) (hp_ : Sub [.regs, .rst] ps_) :
    Rel ps_ z_ (enterReset s d byCmd crash) := by
  unfold enterReset
  extract_lets -merge -underBinder x2_0 x2_1
  have hx2_0 : Rel ps_ z_ x2_0 := by
    unfold x2_0
    refine rel_recordReset ?_ (Sub.trans (by decide) hp_)
    · assumption
  clear_value x2_0 x2_1
  refine iteP (P := Rel ps_ z_) ?_ ?_
  · refine rel_enterDevice ?_ (Sub.trans (by decide) hp_)
    · assumption
  · refine iteP (P := Rel ps_ z_) ?_ ?_
    · refine rel_enterDevice ?_ (Sub.trans (by decide) hp_)
      · refine rel_wrOr ?_ (Sub.trans (by decide) hp_)
        · refine rel_logRaw ?_ (Sub.trans (by decide) hp_)
          · assumption
    · refine rel_rst ?_ (hp_ _ (by decide))
      assumption

theorem rel_escalateFrom {ps_ : List Part} {z_ : State} {y0 : Nat} {y1 : State} {y2 : Nat} (h1_ : Rel ps_ z_ y1) (hp_ : Sub [.regs, .rst] ps_) :
    Rel ps_ z_ (escalateFrom y0 y1 y2) := by
  induction y0 generalizing y1 y2 with
  | zero => exact h1_
  | succ k ih =>
    unfold escalateFrom
    refine iteP (P := Rel ps_ z_) (rel_countDevice h1_ (Sub.trans (by decide) hp_)) (iteP (P := Rel ps_ z_) (ih h1_) ?_)
    exact rel_enterReset h1_ (Sub.trans (by decide) hp_)

theorem rel_setAlert {ps_ : List Part} {z_ : State} {s : State} {i : Nat} (h0_ : Rel ps_ z_ s) (hp_ : Sub [.tx, .regs, .counts] ps_) :
    Rel ps_ z_ (setAlert s i) := by
  unfold setAlert
  extract_lets -merge -underBinder x2_0
  have hx2_0 : Rel ps_ z_ x2_0 := by
    unfold x2_0
    refine rel_wrOr ?_ (Sub.trans (by decide) hp_)
    · assumption
  clear_value x2_0
  refine iteP (P := Rel ps_ z_) ?_ ?_
  · refine rel_emit ?_ (Sub.trans (by decide) hp_)
    · assumption
  · assumption

theorem rel_eventAll {ps_ : List Part} {z_ : State} {s : State} {code : Nat} {status : Nat} {data : List Byte} (h0_ : Rel ps_ z_ s) (hp_ : Sub [.tx, .regs, .counts, .quay] ps_) :
    Rel ps_ z_ (eventAll s code status data) := by
  unfold eventAll
  refine foldSP ?_ ?_ _
  · assumption
  · intro a4_0 a4_1 h4_0
    refine rel_event ?_ (Sub.trans (by decide) hp_)
    · assumption

theorem rel_raiseReplace {ps_ : List Part} {z_ : State} {s : State} {i : Nat} (h0_ : Rel ps_ z_ s) (hp_ : Sub [.tx, .regs, .counts, .quay] ps_) :
    Rel ps_ z_ (raiseReplace s i) := by
  unfold raiseReplace
  extract_lets -merge -underBinder x2_0 x2_1
  have hx2_0 : Rel ps_ z_ x2_0 := by
    unfold x2_0
    refine rel_wrOr ?_ (Sub.trans (by decide) hp_)
    · refine rel_wrOr ?_ (Sub.trans (by decide) hp_)
      · assumption
  clear_value x2_0
  have hx2_1 : Rel ps_ z_ x2_1 := by
    unfold x2_1
    refine rel_setAlert ?_ (Sub.trans (by decide) hp_)
    · assumption
  clear_value x2_1
  refine iteP (P := Rel ps_ z_) ?_ ?_
  · assumption
  · refine rel_eventAll ?_ (Sub.trans (by decide) hp_)
    · assumption

theorem rel_powerEvent {ps_ : List Part} {z_ : State} {s : State} {cause : Nat} (h0_ : Rel ps_ z_ s) (hp_ : Sub [.tx, .regs, .counts, .quay] ps_) :
    Rel ps_ z_ (powerEvent s cause) := by
  unfold powerEvent
  refine rel_eventAll ?_ (Sub.trans (by decide) hp_)
  · assumption

theorem rel_wakeClocks {ps_ : List Part} {z_ : State} {s : State} (h0_ : Rel ps_ z_ s) (hp_ : Sub [.regs, .pwr] ps_) :
    Rel ps_ z_ (wakeClocks s) := by
  unfold wakeClocks
  extract_lets -merge -underBinder x2_0 x2_1
  clear_value x2_0
  have hx2_1 : Rel ps_ z_ x2_1 := by
    unfold x2_1
    refine rel_wr ?_ (Sub.trans (by decide) hp_)
    · refine rel_pwr ?_ (hp_ _ (by decide))
      assumption
  clear_value x2_1
  refine foldSP ?_ ?_ _
  · assumption
  · intro a4_0 a4_1 h4_0
    refine iteP (P := Rel ps_ z_) ?_ ?_
    · refine rel_wr ?_ (Sub.trans (by decide) hp_)
      · assumption
    · assumption

theorem rel_nestedError {ps_ : List Part} {z_ : State} {s : State} {d : Nat} (h0_ : Rel ps_ z_ s) (hp_ : Sub [.regs, .rst] ps_) :
    Rel ps_ z_ (nestedError s d) := by
  unfold nestedError
  refine rel_escalateFrom ?_ (Sub.trans (by decide) hp_)
  · refine rel_wrOr ?_ (Sub.trans (by decide) hp_)
    · refine rel_logRaw ?_ (Sub.trans (by decide) hp_)
      · assumption

theorem rel_logError {ps_ : List Part} {z_ : State} {s : State} {domain : Nat} {cls : Nat} {source : Nat} {detail : W64} {berth : Nat} (h0_ : Rel ps_ z_ s) (hp_ : Sub [.regs, .rst] ps_) :
    Rel ps_ z_ (logError s domain cls source detail berth) := by
  unfold logError
  refine iteP (P := Rel ps_ z_) ?_ ?_
  · refine rel_nestedError ?_ (Sub.trans (by decide) hp_)
    · assumption
  · refine rel_logRaw ?_ (Sub.trans (by decide) hp_)
    · assumption

theorem rel_emitAll {ps_ : List Part} {z_ : State} {s : State} {y1 : List Tx} (h0_ : Rel ps_ z_ s) (hp_ : Sub [.tx, .counts] ps_) :
    Rel ps_ z_ (emitAll s y1) := by
  induction y1 generalizing s with
  | nil => exact h0_
  | cons p l ih => exact ih (rel_emit h0_ hp_)

theorem rel_setPending {ps_ : List Part} {z_ : State} {s : State} {n : Nat} {x : Bool} (h0_ : Rel ps_ z_ s) (hp_ : Sub [.icu] ps_) :
    Rel ps_ z_ (setPending s n x) := by
  unfold setPending
  extract_lets -merge -underBinder x2_0
  clear_value x2_0
  refine rel_icu ?_ (hp_ _ (by decide))
  assumption

theorem rel_leaveService {ps_ : List Part} {z_ : State} {s : State} {cause : Nat} {domain : Nat} (h0_ : Rel ps_ z_ s) (hp_ : Sub [.tx, .regs, .counts, .quay, .rst] ps_) :
    Rel ps_ z_ (leaveService s cause domain) := by
  unfold leaveService
  extract_lets -merge -underBinder x0 x1 x2 x3 x4 x5 x6 x7
  have h1 : Rel ps_ z_ x1 := by
    unfold x1 x0
    split
    · exact rel_logRaw h0_ (Sub.trans (by decide) hp_)
    · exact rel_logError h0_ (Sub.trans (by decide) hp_)
  clear_value x1
  have h4 : Rel ps_ z_ x4 := rel_rst h1 (hp_ _ (by decide))
  clear_value x2 x3 x4
  have h5 : Rel ps_ z_ x5 := rel_wrOr h4 (Sub.trans (by decide) hp_)
  clear_value x5
  have h6 : Rel ps_ z_ x6 := by
    unfold x6
    exact iteP (P := Rel ps_ z_) (rel_wrOr h5 (Sub.trans (by decide) hp_)) h5
  clear_value x6
  have h7 : Rel ps_ z_ x7 := rel_setAlert h6 (Sub.trans (by decide) hp_)
  clear_value x7
  exact rel_eventAll h7 (Sub.trans (by decide) hp_)

theorem rel_beaconWake {ps_ : List Part} {z_ : State} {s : State} {causes : Nat} (h0_ : Rel ps_ z_ s) (hp_ : Sub [.regs, .counts, .icu, .pwr] ps_) :
    Rel ps_ z_ (beaconWake s causes) := by
  unfold beaconWake
  extract_lets -merge -underBinder x2_0 x2_1 x2_2
  have hx2_0 : Rel ps_ z_ x2_0 := by
    unfold x2_0
    refine rel_count ?_ (Sub.trans (by decide) hp_)
    · refine rel_wrOr ?_ (Sub.trans (by decide) hp_)
      · assumption
  clear_value x2_0 x2_1
  have hx2_2 : Rel ps_ z_ x2_2 := by
    unfold x2_2
    refine rel_icu ?_ (hp_ _ (by decide))
    assumption
  clear_value x2_2
  refine iteP (P := Rel ps_ z_) ?_ ?_
  · refine rel_wakeClocks ?_ (Sub.trans (by decide) hp_)
    · assumption
  · assumption

theorem rel_beaconCatch {ps_ : List Part} {z_ : State} {s : State} {n : Nat} (h0_ : Rel ps_ z_ s) (hp_ : Sub [.regs, .counts, .icu, .pwr] ps_) :
    Rel ps_ z_ (beaconCatch s n) := by
  unfold beaconCatch
  refine iteP (P := Rel ps_ z_) ?_ ?_
  · refine rel_beaconWake ?_ (Sub.trans (by decide) hp_)
    · assumption
  · assumption

theorem rel_icuCount {ps_ : List Part} {z_ : State} {s : State} {n : Nat} (h0_ : Rel ps_ z_ s) (hp_ : Sub [.icu] ps_) :
    Rel ps_ z_ (icuCount s n) := by
  unfold icuCount
  extract_lets -merge -underBinder x2_0
  clear_value x2_0
  refine rel_icu ?_ (hp_ _ (by decide))
  assumption

theorem rel_fireEdge {ps_ : List Part} {z_ : State} {s : State} {n : Nat} (h0_ : Rel ps_ z_ s) (hp_ : Sub [.regs, .counts, .icu, .pwr] ps_) :
    Rel ps_ z_ (fireEdge s n) := by
  unfold fireEdge
  refine rel_beaconCatch ?_ (Sub.trans (by decide) hp_)
  · refine rel_icuCount ?_ (Sub.trans (by decide) hp_)
    · refine rel_setPending ?_ (Sub.trans (by decide) hp_)
      · assumption

theorem rel_dropReplace {ps_ : List Part} {z_ : State} {s : State} {i : Nat} (h0_ : Rel ps_ z_ s) (hp_ : Sub [.regs] ps_) :
    Rel ps_ z_ (dropReplace s i) := by
  unfold dropReplace
  refine rel_wr ?_ (Sub.trans (by decide) hp_)
  · assumption

theorem rel_bumpSlot {ps_ : List Part} {z_ : State} {s : State} {b : Nat} {slot : Nat} {n : Nat} (h0_ : Rel ps_ z_ s) (hp_ : Sub [.shelf] ps_) :
    Rel ps_ z_ (bumpSlot s b slot n) := by
  unfold bumpSlot
  extract_lets -merge -underBinder x2_0 x2_1
  clear_value x2_0 x2_1
  refine rel_shelf ?_ (hp_ _ (by decide))
  assumption

theorem rel_haltStream {ps_ : List Part} {z_ : State} {s : State} {b : Nat} {code : Nat} {opSeq : W32} {desc : Option (List Byte)} (h0_ : Rel ps_ z_ s) (hp_ : Sub [.tx, .regs, .counts, .shelf, .quay] ps_) :
    Rel ps_ z_ (haltStream s b code opSeq desc) := by
  unfold haltStream
  extract_lets -merge -underBinder x2_0 x2_1 x2_2
  clear_value x2_0
  have hx2_1 : Rel ps_ z_ x2_1 := by
    unfold x2_1
    refine rel_shelf ?_ (hp_ _ (by decide))
    assumption
  clear_value x2_1
  have hx2_2 : Rel ps_ z_ x2_2 := by
    unfold x2_2
    refine rel_wrOr ?_ (Sub.trans (by decide) hp_)
    · assumption
  clear_value x2_2
  refine rel_event ?_ (Sub.trans (by decide) hp_)
  · assumption

/-! ### Ecp -/

theorem rel_keepStatus {ps_ : List Part} {z_ : State} {s : State} {b : Nat} {op : Nat} {seq : W32} {status : Nat} {detail : Nat} {data : List Byte} (h0_ : Rel ps_ z_ s) (hp_ : Sub [.quay] ps_) :
    Rel ps_ z_ (keepStatus s b op seq status detail data) := by
  unfold keepStatus
  refine iteP (P := Rel ps_ z_) ?_ ?_
  · refine rel_modBerth ?_ (Sub.trans (by decide) hp_)
    · assumption
  · assumption

theorem rel_clearKeySlot {ps_ : List Part} {z_ : State} {s : State} {n : Nat} (h0_ : Rel ps_ z_ s) (hp_ : Sub [.swl] ps_) :
    Rel ps_ z_ (clearKeySlot s n) := by
  unfold clearKeySlot
  extract_lets -merge -underBinder x2_0
  clear_value x2_0
  refine rel_swl ?_ (hp_ _ (by decide))
  assumption

theorem rel_noteCommand {ps_ : List Part} {z_ : State} {s : State} {h : EcpHdr} (h0_ : Rel ps_ z_ s) (hp_ : Sub [.swl, .quay] ps_) :
    Rel ps_ z_ (noteCommand s h) := by
  unfold noteCommand
  extract_lets -merge -underBinder x2_0 x2_1
  clear_value x2_0
  have hx2_1 : Rel ps_ z_ x2_1 := by
    unfold x2_1
    refine rel_modBerth ?_ (Sub.trans (by decide) hp_)
    · assumption
  clear_value x2_1
  split
  · refine iteP (P := Rel ps_ z_) ?_ ?_
    · refine rel_modBerth ?_ (Sub.trans (by decide) hp_)
      · refine rel_clearKeySlot ?_ (Sub.trans (by decide) hp_)
        · assumption
    · assumption
  · assumption

theorem rel_discardPacket {ps_ : List Part} {z_ : State} {s : State} (h0_ : Rel ps_ z_ s) (hp_ : Sub [.quay] ps_) :
    Rel ps_ z_ (discardPacket s) := by
  unfold discardPacket
  extract_lets -merge -underBinder x2_0
  clear_value x2_0
  refine rel_quay ?_ (hp_ _ (by decide))
  assumption

theorem rel_sendStatus {ps_ : List Part} {z_ : State} {s : State} {iface : Nat} {peer : Nat} {b : Nat} {op : Nat} {seq : W32} {status : Nat} {retry : Nat} {final : Bool} {detail : Nat} {data : List Byte} (h0_ : Rel ps_ z_ s) (hp_ : Sub [.tx, .counts] ps_) :
    Rel ps_ z_ (sendStatus s iface peer b op seq status retry final detail data) := by
  unfold sendStatus
  refine rel_count ?_ (Sub.trans (by decide) hp_)
  · refine rel_emit ?_ (Sub.trans (by decide) hp_)
    · assumption

theorem rel_sendBusy {ps_ : List Part} {z_ : State} {s : State} {h : EcpHdr} {op : Nat} {retry : Nat} (h0_ : Rel ps_ z_ s) (hp_ : Sub [.tx, .regs, .counts] ps_) :
    Rel ps_ z_ (sendBusy s h op retry) := by
  unfold sendBusy
  extract_lets -merge -underBinder x2_0
  have hx2_0 : Rel ps_ z_ x2_0 := by
    unfold x2_0
    refine rel_count ?_ (Sub.trans (by decide) hp_)
    · refine rel_wrOr ?_ (Sub.trans (by decide) hp_)
      · assumption
  clear_value x2_0
  refine rel_sendStatus ?_ (Sub.trans (by decide) hp_)
  · assumption

theorem rel_sendDeferred {ps_ : List Part} {z_ : State} {s : State} {b : Nat} {op : Nat} {seq : W32} (h0_ : Rel ps_ z_ s) (hp_ : Sub [.tx, .counts] ps_) :
    Rel ps_ z_ (sendDeferred s b op seq) := by
  unfold sendDeferred
  extract_lets -merge -underBinder x2_0
  clear_value x2_0
  refine iteP (P := Rel ps_ z_) ?_ ?_
  · refine rel_sendStatus ?_ (Sub.trans (by decide) hp_)
    · assumption
  · assumption

theorem rel_conclude {ps_ : List Part} {z_ : State} {t : State} {h : EcpHdr} {op : Nat} {a : Ans} (h0_ : Rel ps_ z_ t) (hp_ : Sub [.tx, .regs, .counts, .quay] ps_) :
    Rel ps_ z_ (conclude t h op a) := by
  unfold conclude
  split
  · refine rel_sendBusy ?_ (Sub.trans (by decide) hp_)
    · assumption
  · extract_lets -merge -underBinder x4_0
    have hx4_0 : Rel ps_ z_ x4_0 := by
      unfold x4_0
      refine rel_count ?_ (Sub.trans (by decide) hp_)
      · refine rel_modBerth ?_ (Sub.trans (by decide) hp_)
        · assumption
    clear_value x4_0
    refine rel_sendStatus ?_ (Sub.trans (by decide) hp_)
    · refine rel_keepStatus ?_ (Sub.trans (by decide) hp_)
      · assumption
  · extract_lets -merge -underBinder x4_0
    have hx4_0 : Rel ps_ z_ x4_0 := by
      unfold x4_0
      refine rel_modBerth ?_ (Sub.trans (by decide) hp_)
      · assumption
    clear_value x4_0
    refine rel_sendDeferred ?_ (Sub.trans (by decide) hp_)
    · refine rel_count ?_ (Sub.trans (by decide) hp_)
      · assumption
  · extract_lets -merge -underBinder x4_0
    have hx4_0 : Rel ps_ z_ x4_0 := by
      unfold x4_0
      refine rel_modBerth ?_ (Sub.trans (by decide) hp_)
      · assumption
    clear_value x4_0
    refine rel_count ?_ (Sub.trans (by decide) hp_)
    · assumption

theorem rel_frameIn {ps_ : List Part} {z_ : State} {s : State} {i : Nat} (h0_ : Rel ps_ z_ s) (hp_ : Sub [.free, .counts] ps_) :
    Rel ps_ z_ (frameIn s i) := by
  unfold frameIn
  refine rel_countFrame ?_ (Sub.trans (by decide) hp_)
  · refine rel_useFree ?_ (hp_ _ (by decide))
    · assumption

theorem rel_unauthStatus {ps_ : List Part} {z_ : State} {s : State} {h : EcpHdr} {op : Nat} {status : Nat} {detail : Nat} {data : List Byte} (h0_ : Rel ps_ z_ s) (hp_ : Sub [.tx, .counts, .quay] ps_) :
    Rel ps_ z_ (unauthStatus s h op status detail data) := by
  unfold unauthStatus
  extract_lets -merge -underBinder x2_0 x2_1 x2_2 x2_3 x2_4
  clear_value x2_0 x2_1
  have hx2_2 : Rel ps_ z_ x2_2 := by
    unfold x2_2
    refine rel_quay ?_ (hp_ _ (by decide))
    assumption
  clear_value x2_2
  have hx2_3 : Rel ps_ z_ x2_3 := by
    unfold x2_3
    refine rel_emit ?_ (Sub.trans (by decide) hp_)
    · assumption
  clear_value x2_3 x2_4
  refine iteP (P := Rel ps_ z_) ?_ ?_
  · refine iteP (P := Rel ps_ z_) ?_ ?_
    · refine rel_count ?_ (Sub.trans (by decide) hp_)
      · assumption
    · assumption
  · refine rel_quay ?_ (hp_ _ (by decide))
    assumption

theorem rel_resend {ps_ : List Part} {z_ : State} {s : State} {h : EcpHdr} {op : Nat} {c : Cached} (h0_ : Rel ps_ z_ s) (hp_ : Sub [.tx, .counts] ps_) :
    Rel ps_ z_ (resend s h op c) := by
  unfold resend
  refine rel_sendStatus ?_ (Sub.trans (by decide) hp_)
  · assumption

theorem rel_ecpSteps {ps_ : List Part} {z_ : State} {s : State} {h : EcpHdr} {op : Nat} {run : State → State} (h0_ : Rel ps_ z_ s) (h3_ : ∀ a0, Rel ps_ z_ a0 → Rel ps_ z_ (run a0)) (hp_ : Sub [.tx, .regs, .counts, .swl, .quay] ps_) :
    Rel ps_ z_ (ecpSteps s h op run) := by
  unfold ecpSteps
  extract_lets -merge -underBinder x2_0 x2_1
  have hx2_0 : Rel ps_ z_ x2_0 := by
    unfold x2_0
    refine rel_noteCommand ?_ (Sub.trans (by decide) hp_)
    · assumption
  clear_value x2_0 x2_1
  refine iteP (P := Rel ps_ z_) ?_ ?_
  · refine rel_unauthStatus ?_ (Sub.trans (by decide) hp_)
    · refine rel_wrOr ?_ (Sub.trans (by decide) hp_)
      · assumption
  · refine iteP (P := Rel ps_ z_) ?_ ?_
    · refine rel_discardPacket ?_ (Sub.trans (by decide) hp_)
      · assumption
    · refine iteP (P := Rel ps_ z_) ?_ ?_
      · refine rel_unauthStatus ?_ (Sub.trans (by decide) hp_)
        · assumption
      · refine iteP (P := Rel ps_ z_) ?_ ?_
        · refine rel_unauthStatus ?_ (Sub.trans (by decide) hp_)
          · assumption
        · refine iteP (P := Rel ps_ z_) ?_ ?_
          · refine rel_unauthStatus ?_ (Sub.trans (by decide) hp_)
            · assumption
          · refine iteP (P := Rel ps_ z_) ?_ ?_
            · refine rel_unauthStatus ?_ (Sub.trans (by decide) hp_)
              · refine rel_count ?_ (Sub.trans (by decide) hp_)
                · refine rel_wrOr ?_ (Sub.trans (by decide) hp_)
                  · assumption
            · split
              · refine rel_count ?_ (Sub.trans (by decide) hp_)
                · assumption
              · refine h3_ _ ?_
                assumption
              · extract_lets -merge -underBinder x16_0
                have hx16_0 : Rel ps_ z_ x16_0 := by
                  unfold x16_0
                  refine rel_count ?_ (Sub.trans (by decide) hp_)
                  · assumption
                clear_value x16_0
                refine iteP (P := Rel ps_ z_) ?_ ?_
                · assumption
                · split
                  · refine rel_resend ?_ (Sub.trans (by decide) hp_)
                    · assumption
                  · split
                    · refine iteP (P := Rel ps_ z_) ?_ ?_
                      · refine rel_resend ?_ (Sub.trans (by decide) hp_)
                        · assumption
                      · refine h3_ _ ?_
                        assumption
                    · refine h3_ _ ?_
                      assumption

theorem rel_ecpWith {ps_ : List Part} {z_ : State} {s : State} {h : EcpHdr} {op : Nat} {run : State → State} (h0_ : Rel ps_ z_ s) (h3_ : ∀ a0, Rel ps_ z_ a0 → Rel ps_ z_ (run a0)) (hp_ : Sub [.free, .tx, .regs, .counts, .swl, .quay] ps_) :
    Rel ps_ z_ (ecpWith s h op run) := by
  unfold ecpWith
  refine iteP (P := Rel ps_ z_) ?_ ?_
  · assumption
  · refine rel_ecpSteps ?_ ?_ (Sub.trans (by decide) hp_)
    · refine rel_frameIn ?_ (Sub.trans (by decide) hp_)
      · assumption
    · intro a6_0 h6_0
      refine h3_ _ ?_
      assumption

theorem rel_runAdmitted {ps_ : List Part} {z_ : State} {s : State} {h : EcpHdr} {op : Nat} {cores : List Nat} {body : State → State × Ans} (h0_ : Rel ps_ z_ s) (h4_ : ∀ a0, Rel ps_ z_ a0 → Rel1 ps_ z_ (body a0)) (hp_ : Sub [.tx, .regs, .counts, .quay] ps_) :
    Rel ps_ z_ (runAdmitted s h op cores body) := by
  unfold runAdmitted
  split
  · refine rel_conclude ?_ (Sub.trans (by decide) hp_)
    · assumption
  · refine rel_conclude ?_ (Sub.trans (by decide) hp_)
    · refine (?_ : Rel1 ps_ z_ _)
      refine h4_ _ ?_
      assumption

theorem rel_ecpRun {ps_ : List Part} {z_ : State} {s : State} {h : EcpHdr} {op : Nat} {cores : List Nat} {body : State → State × Ans} (h0_ : Rel ps_ z_ s) (h4_ : ∀ a0, Rel ps_ z_ a0 → Rel1 ps_ z_ (body a0)) (hp_ : Sub [.free, .tx, .regs, .counts, .swl, .quay] ps_) :
    Rel ps_ z_ (ecpRun s h op cores body) := by
  unfold ecpRun
  refine rel_ecpWith ?_ ?_ (Sub.trans (by decide) hp_)
  · assumption
  · intro a4_0 h4_0
    refine rel_runAdmitted ?_ ?_ (Sub.trans (by decide) hp_)
    · assumption
    · intro a6_0 h6_0
      refine h4_ _ ?_
      assumption

theorem rel_finish {ps_ : List Part} {z_ : State} {s : State} {b : Nat} {op : Nat} {seq : W32} {status : Nat} {detail : Nat} {data : List Byte} (h0_ : Rel ps_ z_ s) (hp_ : Sub [.tx, .counts, .quay] ps_) :
    Rel ps_ z_ (finish s b op seq status detail data) := by
  unfold finish
  extract_lets -merge -underBinder x2_0 x2_1 x2_2
  have hx2_0 : Rel ps_ z_ x2_0 := by
    unfold x2_0
    refine rel_modBerth ?_ (Sub.trans (by decide) hp_)
    · assumption
  clear_value x2_0
  have hx2_1 : Rel ps_ z_ x2_1 := by
    unfold x2_1
    refine rel_keepStatus ?_ (Sub.trans (by decide) hp_)
    · assumption
  clear_value x2_1 x2_2
  refine iteP (P := Rel ps_ z_) ?_ ?_
  · assumption
  · refine iteP (P := Rel ps_ z_) ?_ ?_
    · refine rel_sendStatus ?_ (Sub.trans (by decide) hp_)
      · assumption
    · assumption

theorem rel_modCore {ps_ : List Part} {z_ : State} {s : State} {k : Nat} {f : Core → Core} (h0_ : Rel ps_ z_ s) (hp_ : Sub [.lh] ps_) :
    Rel ps_ z_ (modCore s k f) := by
  unfold modCore
  extract_lets -merge -underBinder x2_0
  clear_value x2_0
  refine rel_lh ?_ (hp_ _ (by decide))
  assumption

theorem rel_finishBusy {ps_ : List Part} {z_ : State} {s : State} {b : Nat} {op : Nat} {seq : W32} (h0_ : Rel ps_ z_ s) (hp_ : Sub [.tx, .regs, .counts, .quay] ps_) :
    Rel ps_ z_ (finishBusy s b op seq) := by
  unfold finishBusy
  extract_lets -merge -underBinder x2_0 x2_1
  have hx2_0 : Rel ps_ z_ x2_0 := by
    unfold x2_0
    refine rel_modBerth ?_ (Sub.trans (by decide) hp_)
    · assumption
  clear_value x2_0 x2_1
  refine iteP (P := Rel ps_ z_) ?_ ?_
  · refine rel_sendStatus ?_ (Sub.trans (by decide) hp_)
    · refine rel_count ?_ (Sub.trans (by decide) hp_)
      · refine rel_wrOr ?_ (Sub.trans (by decide) hp_)
        · assumption
  · assumption

end Sys2Proof.Laws
end

