-- ==== Sys2Proof/Laws/RelMem.lean ====
section
/-!
SUPPORT. One lemma for each operation on memory, the Pager, operands, the engines and closing a berth's work: it keeps `Rel`, and the parts
listed are all that it can change.
-/
namespace Sys2Proof.Laws
open Sys2Proof Sys2Proof.Machine Sys2Proof.Safety

/-! ### Mem -/

theorem rel_writeH {ps_ : List Part} {z_ : State} {s : State} {h : Hdl} {off : Nat} {bs : List Byte} (h0_ : Rel ps_ z_ s) (hp_ : Sub [.mem, .bytes] ps_) :
    Rel1 ps_ z_ (writeH s h off bs) := by
  unfold writeH
  extract_lets -merge -underBinder x2_0 x2_1
  clear_value x2_0 x2_1
  split
  · refine ofPair ?_
    assumption
  · extract_lets -merge -underBinder x4_0 x4_1
    clear_value x4_0 x4_1
    refine iteP (P := Rel1 ps_ z_) ?_ ?_
    · refine ofPair ?_
      refine rel_modMemBytes ?_ (hp_ _ (by decide)) (hp_ _ (by decide)) ?_
      · assumption
      · (first | exact cellsOk_cellPuts _ _ | exact cellsOk_cellDrop _ _ | exact cellsOk_foldl _ (fun m x => cellsOk_cellDrop _ _) _ | exact cellsOk_foldl _ (fun m h => cellsOk_foldl _ (fun m c => cellsOk_cellPut _ _) _) _ | (intro hk; dsimp only; split; exact cellsOk_cellDrop _ _ hk; exact hk))
    · refine ofPair ?_
      assumption

theorem rel_placeObject {ps_ : List Part} {z_ : State} {s : State} {b : Nat} {pages : Nat} {tier : Nat} {policy : Nat} {moved : NMap PageLoc} {coded : Bool} (h0_ : Rel ps_ z_ s) (hp_ : Sub [.mem] ps_) :
    Rel1 ps_ z_ (placeObject s b pages tier policy moved coded) := by
  unfold placeObject
  extract_lets -merge -underBinder x2_0 x2_1
  clear_value x2_0 x2_1
  refine ofPair ?_
  refine rel_modMem ?_ (hp_ _ (by decide)) rfl
  assumption

theorem rel_loseChannel {ps_ : List Part} {z_ : State} {s : State} {ch : Nat} (h0_ : Rel ps_ z_ s) (hp_ : Sub [.tx, .regs, .counts, .mem, .quay] ps_) :
    Rel ps_ z_ (loseChannel s ch) := by
  unfold loseChannel
  extract_lets -merge -underBinder x2_0 x2_1 x2_2
  have hx2_0 : Rel ps_ z_ x2_0 := by
    unfold x2_0
    refine rel_wr ?_ (Sub.trans (by decide) hp_)
    · assumption
  clear_value x2_0
  have hx2_1 : Rel ps_ z_ x2_1 := by
    unfold x2_1
    refine rel_wrOr ?_ (Sub.trans (by decide) hp_)
    · refine rel_wrOr ?_ (Sub.trans (by decide) hp_)
      · assumption
  clear_value x2_1
  have hx2_2 : Rel ps_ z_ x2_2 := by
    unfold x2_2
    refine rel_modMem ?_ (hp_ _ (by decide)) rfl
    assumption
  clear_value x2_2
  refine iteP (P := Rel ps_ z_) ?_ ?_
  · assumption
  · refine rel_raiseReplace ?_ (Sub.trans (by decide) hp_)
    · assumption

theorem rel_noteUeIn {ps_ : List Part} {z_ : State} {s : State} {t : Nat} {ch : Nat} {a : Nat} {b : Nat} {scrub : Bool} (h0_ : Rel ps_ z_ s) (hp_ : Sub [.free, .tx, .regs, .counts, .mem, .quay, .rst] ps_) :
    Rel ps_ z_ (noteUeIn s t ch a b scrub) := by
  unfold noteUeIn
  extract_lets -merge -underBinder x2_0 x2_1 x2_2
  clear_value x2_0
  have hx2_1 : Rel ps_ z_ x2_1 := by
    unfold x2_1
    refine rel_useFree ?_ (hp_ _ (by decide))
    · assumption
  clear_value x2_1
  have hx2_2 : Rel ps_ z_ x2_2 := by
    unfold x2_2
    refine rel_logError ?_ (Sub.trans (by decide) hp_)
    · assumption
  clear_value x2_2
  split
  · extract_lets -merge -underBinder x4_0
    have hx4_0 : Rel ps_ z_ x4_0 := by
      unfold x4_0
      refine rel_wrs ?_ (Sub.trans (by decide) hp_)
      · assumption
    clear_value x4_0
    refine rel_modMem ?_ (hp_ _ (by decide)) rfl
    refine rel_wrOr ?_ (Sub.trans (by decide) hp_)
    · assumption
  · extract_lets -merge -underBinder x4_0 x4_1 x4_2
    have hx4_0 : Rel ps_ z_ x4_0 := by
      unfold x4_0
      refine rel_wrs ?_ (Sub.trans (by decide) hp_)
      · assumption
    clear_value x4_0
    have hx4_1 : Rel ps_ z_ x4_1 := by
      unfold x4_1
      refine rel_modMem ?_ (hp_ _ (by decide)) rfl
      refine rel_wrOr ?_ (Sub.trans (by decide) hp_)
      · assumption
    clear_value x4_1
    have hx4_2 : Rel ps_ z_ x4_2 := by
      unfold x4_2
      refine rel_wr ?_ (Sub.trans (by decide) hp_)
      · assumption
    clear_value x4_2
    refine iteP (P := Rel ps_ z_) ?_ ?_
    · refine rel_loseChannel ?_ (Sub.trans (by decide) hp_)
      · assumption
    · assumption
  · extract_lets -merge -underBinder x4_0
    have hx4_0 : Rel ps_ z_ x4_0 := by
      unfold x4_0
      refine rel_wrs ?_ (Sub.trans (by decide) hp_)
      · assumption
    clear_value x4_0
    refine rel_modMem ?_ (hp_ _ (by decide)) rfl
    refine rel_wrOr ?_ (Sub.trans (by decide) hp_)
    · assumption

theorem rel_noteUe {ps_ : List Part} {z_ : State} {s : State} {a : Nat} {scrub : Bool} (h0_ : Rel ps_ z_ s) (hp_ : Sub [.free, .tx, .regs, .counts, .mem, .quay, .rst] ps_) :
    Rel ps_ z_ (noteUe s a scrub) := by
  unfold noteUe
  refine rel_noteUeIn ?_ (Sub.trans (by decide) hp_)
  · assumption

theorem rel_noteRead {ps_ : List Part} {z_ : State} {s : State} {h : Hdl} {off : Nat} {n : Nat} (h0_ : Rel ps_ z_ s) (hp_ : Sub [.free, .tx, .regs, .counts, .mem, .quay, .rst] ps_) :
    Rel ps_ z_ (noteRead s h off n) := by
  unfold noteRead
  refine iteP (P := Rel ps_ z_) ?_ ?_
  · refine rel_noteUe ?_ (Sub.trans (by decide) hp_)
    · assumption
  · assumption

theorem rel_writeN {ps_ : List Part} {z_ : State} {s : State} {h : Hdl} {off : Nat} {bs : List Byte} (h0_ : Rel ps_ z_ s) (hp_ : Sub [.free, .tx, .regs, .counts, .mem, .bytes, .quay, .rst] ps_) :
    Rel1 ps_ z_ (writeN s h off bs) := by
  unfold writeN
  extract_lets -merge -underBinder x2_0
  have hx2_0 : Rel1 ps_ z_ x2_0 := by
    unfold x2_0
    refine rel_writeH ?_ (Sub.trans (by decide) hp_)
    · assumption
  clear_value x2_0
  refine ofPair ?_
  refine iteP (P := Rel ps_ z_) ?_ ?_
  · refine rel_noteUe ?_ (Sub.trans (by decide) hp_)
    · refine (?_ : Rel1 ps_ z_ _)
      assumption
  · refine (?_ : Rel1 ps_ z_ _)
    assumption

theorem rel_modObj {ps_ : List Part} {z_ : State} {s : State} {b : Nat} {o : Nat} {f : Obj → Obj} (h0_ : Rel ps_ z_ s) (hp_ : Sub [.mem] ps_) :
    Rel ps_ z_ (modObj s b o f) := by
  unfold modObj
  refine rel_modMem ?_ (hp_ _ (by decide)) rfl
  assumption

theorem rel_touch {ps_ : List Part} {z_ : State} {s : State} {h : Hdl} (h0_ : Rel ps_ z_ s) (hp_ : Sub [.mem] ps_) :
    Rel ps_ z_ (touch s h) := by
  unfold touch
  extract_lets -merge -underBinder x2_0
  have hx2_0 : Rel ps_ z_ x2_0 := by
    unfold x2_0
    refine rel_modMem ?_ (hp_ _ (by decide)) rfl
    assumption
  clear_value x2_0
  refine rel_modObj ?_ (Sub.trans (by decide) hp_)
  · assumption

theorem rel_releaseObject {ps_ : List Part} {z_ : State} {s : State} {b : Nat} {n : Nat} (h0_ : Rel ps_ z_ s) (hp_ : Sub [.mem, .bytes] ps_) :
    Rel ps_ z_ (releaseObject s b n) := by
  unfold releaseObject
  split
  · assumption
  · refine rel_modMemBytes ?_ (hp_ _ (by decide)) (hp_ _ (by decide)) ?_
    · assumption
    · (first | exact cellsOk_cellPuts _ _ | exact cellsOk_cellDrop _ _ | exact cellsOk_foldl _ (fun m x => cellsOk_cellDrop _ _) _ | exact cellsOk_foldl _ (fun m h => cellsOk_foldl _ (fun m c => cellsOk_cellPut _ _) _) _ | (intro hk; dsimp only; split; exact cellsOk_cellDrop _ _ hk; exact hk))

theorem rel_writeF32 {ps_ : List Part} {z_ : State} {s : State} {h : Hdl} {off : Nat} {l : List W32} (h0_ : Rel ps_ z_ s) (hp_ : Sub [.mem, .bytes] ps_) :
    Rel1 ps_ z_ (writeF32 s h off l) := by
  unfold writeF32
  refine rel_writeH ?_ (Sub.trans (by decide) hp_)
  · assumption

theorem rel_dropObject {ps_ : List Part} {z_ : State} {s : State} {b : Nat} {n : Nat} (h0_ : Rel ps_ z_ s) (hp_ : Sub [.counts, .mem, .bytes] ps_) :
    Rel ps_ z_ (dropObject s b n) := by
  unfold dropObject
  split
  · assumption
  · extract_lets -merge -underBinder x4_0
    have hx4_0 : Rel ps_ z_ x4_0 := by
      unfold x4_0
      refine rel_modMemBytes ?_ (hp_ _ (by decide)) (hp_ _ (by decide)) ?_
      · assumption
      · (first | exact cellsOk_cellPuts _ _ | exact cellsOk_cellDrop _ _ | exact cellsOk_foldl _ (fun m x => cellsOk_cellDrop _ _) _ | exact cellsOk_foldl _ (fun m h => cellsOk_foldl _ (fun m c => cellsOk_cellPut _ _) _) _ | (intro hk; dsimp only; split; exact cellsOk_cellDrop _ _ hk; exact hk))
    clear_value x4_0
    refine rel_count ?_ (Sub.trans (by decide) hp_)
    · assumption

/-! ### Pager -/

theorem rel_endMove {ps_ : List Part} {z_ : State} {s : State} {m : Move} (h0_ : Rel ps_ z_ s) (hp_ : Sub [.mem] ps_) :
    Rel ps_ z_ (endMove s m) := by
  unfold endMove
  refine rel_modMem ?_ (hp_ _ (by decide)) rfl
  assumption

theorem rel_failMove {ps_ : List Part} {z_ : State} {s : State} {m : Move} {a : Nat} (h0_ : Rel ps_ z_ s) (hp_ : Sub [.free, .tx, .regs, .counts, .mem, .quay, .rst] ps_) :
    Rel ps_ z_ (failMove s m a) := by
  unfold failMove
  extract_lets -merge -underBinder x2_0 x2_1 x2_2
  clear_value x2_0
  have hx2_1 : Rel ps_ z_ x2_1 := by
    unfold x2_1
    refine rel_wrs ?_ (Sub.trans (by decide) hp_)
    · refine rel_wrOr ?_ (Sub.trans (by decide) hp_)
      · assumption
  clear_value x2_1
  have hx2_2 : Rel ps_ z_ x2_2 := by
    unfold x2_2
    refine rel_noteUe ?_ (Sub.trans (by decide) hp_)
    · assumption
  clear_value x2_2
  refine rel_modMem ?_ (hp_ _ (by decide)) rfl
  assumption

theorem rel_landHeld {ps_ : List Part} {z_ : State} {s : State} {b : Nat} {o : Nat} {p : Nat} (h0_ : Rel ps_ z_ s) (hp_ : Sub [.mem, .bytes] ps_) :
    Rel ps_ z_ (landHeld s b o p) := by
  unfold landHeld
  extract_lets -merge -underBinder x2_0 x2_1
  clear_value x2_0 x2_1
  refine rel_modMemBytes ?_ (hp_ _ (by decide)) (hp_ _ (by decide)) ?_
  · assumption
  · (first | exact cellsOk_cellPuts _ _ | exact cellsOk_cellDrop _ _ | exact cellsOk_foldl _ (fun m x => cellsOk_cellDrop _ _) _ | exact cellsOk_foldl _ (fun m h => cellsOk_foldl _ (fun m c => cellsOk_cellPut _ _) _) _ | (intro hk; dsimp only; split; exact cellsOk_cellDrop _ _ hk; exact hk))

theorem rel_completeMove {ps_ : List Part} {z_ : State} {s : State} {m : Move} (h0_ : Rel ps_ z_ s) (hp_ : Sub [.free, .tx, .regs, .counts, .mem, .bytes, .quay, .rst] ps_) :
    Rel ps_ z_ (completeMove s m) := by
  unfold completeMove
  extract_lets -merge -underBinder x2_0
  clear_value x2_0
  split
  · refine rel_endMove ?_ (Sub.trans (by decide) hp_)
    · assumption
  · extract_lets -merge -underBinder x4_0
    clear_value x4_0
    refine iteP (P := Rel ps_ z_) ?_ ?_
    · refine rel_endMove ?_ (Sub.trans (by decide) hp_)
      · refine rel_failMove ?_ (Sub.trans (by decide) hp_)
        · assumption
    · split
      · extract_lets -merge -underBinder x8_0
        have hx8_0 : Rel ps_ z_ x8_0 := by
          unfold x8_0
          refine rel_modObj ?_ (Sub.trans (by decide) hp_)
          · refine rel_endMove ?_ (Sub.trans (by decide) hp_)
            · assumption
        clear_value x8_0
        refine rel_count ?_ (Sub.trans (by decide) hp_)
        · refine rel_modMem ?_ (hp_ _ (by decide)) rfl
          assumption
      · extract_lets -merge -underBinder x8_0 x8_1 x8_2
        have hx8_0 : Rel ps_ z_ x8_0 := by
          unfold x8_0
          refine rel_modObj ?_ (Sub.trans (by decide) hp_)
          · refine rel_endMove ?_ (Sub.trans (by decide) hp_)
            · assumption
        clear_value x8_0
        have hx8_1 : Rel ps_ z_ x8_1 := by
          unfold x8_1
          refine rel_modMemBytes ?_ (hp_ _ (by decide)) (hp_ _ (by decide)) ?_
          · assumption
          · (first | exact cellsOk_cellPuts _ _ | exact cellsOk_cellDrop _ _ | exact cellsOk_foldl _ (fun m x => cellsOk_cellDrop _ _) _ | exact cellsOk_foldl _ (fun m h => cellsOk_foldl _ (fun m c => cellsOk_cellPut _ _) _) _ | (intro hk; dsimp only; split; exact cellsOk_cellDrop _ _ hk; exact hk))
        clear_value x8_1
        have hx8_2 : Rel ps_ z_ x8_2 := by
          unfold x8_2
          refine rel_landHeld ?_ (Sub.trans (by decide) hp_)
          · assumption
        clear_value x8_2
        refine iteP (P := Rel ps_ z_) ?_ ?_
        · assumption
        · refine rel_count ?_ (Sub.trans (by decide) hp_)
          · assumption

theorem rel_allocT2 {ps_ : List Part} {z_ : State} {s t : State} {b pages policy : Nat} {x : Hdl} (h_ : Rel ps_ z_ s)
    (hp_ : Sub [.mem] ps_) (e : allocT2 s b pages policy = .placed t x) : Rel ps_ z_ t := by
  unfold allocT2 at e
  split at e
  · cases e
  split at e
  · cases e; exact rel_placeObject h_ hp_
  · unfold placeSplit at e
    repeat' split at e
    all_goals first
      | (cases e; exact rel_placeObject (rel_modMem h_ (hp_ _ (by decide)) rfl) hp_)
      | cases e

theorem rel_allocTry {ps_ : List Part} {z_ : State} {s t : State} {b pages tier policy : Nat} {x : Hdl} (h_ : Rel ps_ z_ s)
    (hp_ : Sub [.mem] ps_) (e : allocTry s b pages tier policy = .placed t x) : Rel ps_ z_ t := by
  unfold allocTry at e
  split at e
  · split at e
    · cases e; exact rel_placeObject h_ hp_
    · split at e <;> cases e
  · exact rel_allocT2 h_ hp_ e
  · split at e
    · split at e
      · cases e; exact rel_placeObject (rel_modMem h_ (hp_ _ (by decide)) rfl) hp_
      · split at e <;> cases e
    · cases e

theorem rel_allocCheck {ps_ : List Part} {z_ : State} {s t : State} {b size tier policy : Nat} {x : Hdl} (h_ : Rel ps_ z_ s)
    (hp_ : Sub [.mem] ps_) (e : allocCheck s b size tier policy = .ok (.placed t x)) : Rel ps_ z_ t := by
  unfold allocCheck at e
  extract_lets -merge p at e
  split at e
  · cases e
  split at e
  · cases e
  split at e
  · cases e
  split at e
  · cases e
  split at e
  · cases e
  split at e
  · exact rel_allocTry h_ hp_ (by injection e)
  · cases e

theorem rel_tryAlloc {ps_ : List Part} {z_ : State} {s : State} {p : PendAlloc} (h0_ : Rel ps_ z_ s) (hp_ : Sub [.tx, .counts, .mem, .quay] ps_) :
    Rel ps_ z_ (tryAlloc s p) := by
  unfold tryAlloc
  extract_lets -merge -underBinder x0 x1 x2
  have hx0 : ∀ a, Rel ps_ z_ a → Rel ps_ z_ (x0 a) := fun a ha => rel_modMem ha (hp_ _ (by decide)) rfl
  clear_value x0 x1 x2
  split
  · rename_i heq
    exact rel_finish (hx0 _ (rel_allocTry h0_ (Sub.trans (by decide) hp_) heq)) (Sub.trans (by decide) hp_)
  · exact rel_finish (hx0 _ h0_) (Sub.trans (by decide) hp_)
  · exact h0_

theorem rel_tryAllocs {ps_ : List Part} {z_ : State} {s : State} (h0_ : Rel ps_ z_ s) (hp_ : Sub [.tx, .counts, .mem, .quay] ps_) :
    Rel ps_ z_ (tryAllocs s) := by
  unfold tryAllocs
  refine foldSP ?_ ?_ _
  · assumption
  · intro a4_0 a4_1 h4_0
    refine rel_tryAlloc ?_ (Sub.trans (by decide) hp_)
    · assumption

theorem rel_clearWindow {ps_ : List Part} {z_ : State} {s : State} {b : Nat} (h0_ : Rel ps_ z_ s) (hp_ : Sub [.mem] ps_) :
    Rel ps_ z_ (clearWindow s b) := by
  unfold clearWindow
  refine rel_modMem ?_ (hp_ _ (by decide)) rfl
  assumption

theorem rel_keepResident {ps_ : List Part} {z_ : State} {s : State} {h : Hdl} (h0_ : Rel ps_ z_ s) (hp_ : Sub [.mem] ps_) :
    Rel ps_ z_ (keepResident s h) := by
  unfold keepResident
  refine rel_modMem ?_ (hp_ _ (by decide)) rfl
  assumption

theorem rel_wantPage {ps_ : List Part} {z_ : State} {s : State} {h : Hdl} {p : Nat} {level : Nat} {rehome : Bool} (h0_ : Rel ps_ z_ s) (hp_ : Sub [.mem] ps_) :
    Rel ps_ z_ (wantPage s h p level rehome) := by
  unfold wantPage
  extract_lets -merge -underBinder x2_0
  clear_value x2_0
  refine iteP (P := Rel ps_ z_) ?_ ?_
  · assumption
  · refine rel_modMem ?_ (hp_ _ (by decide)) rfl
    assumption

theorem rel_demand {ps_ : List Part} {z_ : State} {s : State} {level : Nat} {l : List (Hdl × Nat)} (h0_ : Rel ps_ z_ s) (hp_ : Sub [.mem] ps_) :
    Rel ps_ z_ (demand s level l) := by
  unfold demand
  refine foldSP ?_ ?_ _
  · assumption
  · intro a4_0 a4_1 h4_0
    refine rel_wantPage ?_ (Sub.trans (by decide) hp_)
    · assumption

theorem rel_residentAt {ps_ : List Part} {z_ : State} {level : Nat} {s : State} {hs : List Hdl} (h1_ : Rel ps_ z_ s) (hp_ : Sub [.mem] ps_) :
    Rel1 ps_ z_ (residentAt level s hs) := by
  unfold residentAt
  extract_lets -merge -underBinder x2_0 x2_1
  have hx2_0 : Rel ps_ z_ x2_0 := by
    unfold x2_0
    refine foldSP ?_ ?_ _
    · assumption
    · intro a6_0 a6_1 h6_0
      refine rel_keepResident ?_ (Sub.trans (by decide) hp_)
      · assumption
  clear_value x2_0 x2_1
  refine ofPair ?_
  refine rel_demand ?_ (Sub.trans (by decide) hp_)
  · assumption

theorem rel_residentFor {ps_ : List Part} {z_ : State} {s : State} {hs : List Hdl} (h0_ : Rel ps_ z_ s) (hp_ : Sub [.mem] ps_) :
    Rel1 ps_ z_ (residentFor s hs) := by
  unfold residentFor
  refine rel_residentAt ?_ (Sub.trans (by decide) hp_)
  · assumption

theorem rel_takeVictim {ps_ : List Part} {z_ : State} {s : State} {b : Nat} {a : Victim} (h0_ : Rel ps_ z_ s) (hp_ : Sub [.counts, .mem, .bytes] ps_) :
    Rel ps_ z_ (takeVictim s b a) := by
  unfold takeVictim
  split
  · exact rel_dropObject h0_ (Sub.trans (by decide) hp_)
  · exact rel_modMem h0_ (hp_ _ (by decide)) rfl

theorem rel_serveHeadroom {ps_ : List Part} {z_ : State} {s : State} (h0_ : Rel ps_ z_ s) (hp_ : Sub [.counts, .mem, .bytes] ps_) :
    RelO ps_ z_ (serveHeadroom s) := by
  unfold serveHeadroom
  refine firstOfP fun o ho => ?_
  obtain ⟨a, -, rfl⟩ := List.mem_map.1 ho
  refine iteP (P := RelO ps_ z_) (mapO fun v => ?_) ofNone
  exact rel_takeVictim h0_ hp_

theorem rel_enterDesc {ps_ : List Part} {z_ : State} {b : Nat} {s : State} {d : List Byte} (h1_ : Rel ps_ z_ s) (hp_ : Sub [.mem] ps_) :
    Rel ps_ z_ (enterDesc b s d) := by
  unfold enterDesc
  refine foldSP ?_ ?_ _
  · assumption
  · intro a4_0 a4_1 h4_0
    split
    · refine iteP (P := Rel ps_ z_) ?_ ?_
      · refine foldSP ?_ ?_ _
        · assumption
        · intro a10_0 a10_1 h10_0
          refine iteP (P := Rel ps_ z_) ?_ ?_
          · refine rel_wantPage ?_ (Sub.trans (by decide) hp_)
            · assumption
          · assumption
      · assumption
    · assumption

theorem rel_execPageZeroComplete {ps_ : List Part} {z_ : State} {tier : Nat} {channel : Nat} {s : State} (h2_ : Rel ps_ z_ s) (hp_ : Sub [.tx, .counts, .mem, .quay] ps_) :
    Ends ps_ z_ (execPageZeroComplete tier channel s) := by
  unfold execPageZeroComplete
  extract_lets -merge -underBinder x2_0
  clear_value x2_0
  refine ofNext ?_
  refine iteP (P := Rel ps_ z_) ?_ ?_
  · refine rel_tryAllocs ?_ (Sub.trans (by decide) hp_)
    · refine rel_modMem ?_ (hp_ _ (by decide)) rfl
      assumption
  · assumption

theorem rel_startPromotion {ps_ : List Part} {z_ : State} {s : State} {b : Nat} {o : Nat} {p : Nat} {rehome : Bool} (h0_ : Rel ps_ z_ s) (hp_ : Sub [.mem] ps_) :
    Rel ps_ z_ (startPromotion s b o p rehome) := by
  unfold startPromotion
  refine rel_modMem ?_ (hp_ _ (by decide)) rfl
  assumption

theorem rel_pagerHalt {ps_ : List Part} {z_ : State} {s : State} {b : Nat} (h0_ : Rel ps_ z_ s) (hp_ : Sub [.tx, .regs, .counts, .shelf, .mem, .quay] ps_) :
    Rel ps_ z_ (pagerHalt s b) := by
  unfold pagerHalt
  extract_lets -merge -underBinder x2_0 x2_1
  have hx2_0 : Rel ps_ z_ x2_0 := by
    unfold x2_0
    refine rel_wrs ?_ (Sub.trans (by decide) hp_)
    · refine rel_wrOr ?_ (Sub.trans (by decide) hp_)
      · assumption
  clear_value x2_0
  have hx2_1 : Rel ps_ z_ x2_1 := by
    unfold x2_1
    refine rel_modMem ?_ (hp_ _ (by decide)) rfl
    assumption
  clear_value x2_1
  split
  · refine rel_haltStream ?_ (Sub.trans (by decide) hp_)
    · assumption
  · refine rel_haltStream ?_ (Sub.trans (by decide) hp_)
    · assumption

theorem rel_serveWant {ps_ : List Part} {z_ : State} {s : State} {w : Want} (h0_ : Rel ps_ z_ s) (hp_ : Sub [.tx, .regs, .counts, .shelf, .mem, .bytes, .quay] ps_) :
    RelO ps_ z_ (serveWant s w) := by
  unfold serveWant
  refine iteP (P := RelO ps_ z_) ?_ ?_
  · refine ofSome ?_
    refine rel_startPromotion ?_ (Sub.trans (by decide) hp_)
    · assumption
  · split
    · refine ofSome ?_
      refine rel_takeVictim ?_ (Sub.trans (by decide) hp_)
      · assumption
    · refine iteP (P := RelO ps_ z_) ?_ ?_
      · refine ofSome ?_
        refine rel_pagerHalt ?_ (Sub.trans (by decide) hp_)
        · assumption
      · exact ofNone

theorem rel_serveAlloc {ps_ : List Part} {z_ : State} {s : State} (h0_ : Rel ps_ z_ s) (hp_ : Sub [.counts, .mem, .bytes] ps_) :
    RelO ps_ z_ (serveAlloc s) := by
  unfold serveAlloc
  refine firstOfP fun o ho => ?_
  obtain ⟨a, -, rfl⟩ := List.mem_map.1 ho
  refine iteP (P := RelO ps_ z_) (mapO fun v => ?_) ofNone
  exact rel_takeVictim h0_ hp_

theorem rel_pagerNext {ps_ : List Part} {z_ : State} {s : State} (h0_ : Rel ps_ z_ s) (hp_ : Sub [.tx, .regs, .counts, .shelf, .mem, .bytes, .quay] ps_) :
    RelO ps_ z_ (pagerNext s) := by
  unfold pagerNext
  refine firstOfP fun o ho => ?_
  simp only [List.mem_cons, List.not_mem_nil, or_false] at ho
  have hw : ∀ (l : List Want), RelO ps_ z_ (firstOf (l.map (serveWant s))) := fun l => firstOfP fun o ho => by
    obtain ⟨a, -, rfl⟩ := List.mem_map.1 ho
    exact rel_serveWant h0_ (Sub.trans (by decide) hp_)
  rcases ho with rfl | rfl | rfl | rfl | rfl
  · exact hw _
  · exact rel_serveAlloc h0_ (Sub.trans (by decide) hp_)
  · exact hw _
  · exact hw _
  · exact rel_serveHeadroom h0_ (Sub.trans (by decide) hp_)

theorem rel_resident {ps_ : List Part} {z_ : State} {s : State} {hs : List Hdl} (h0_ : Rel ps_ z_ s) (hp_ : Sub [.mem] ps_) :
    Rel1 ps_ z_ (resident s hs) := by
  unfold resident
  refine rel_residentAt ?_ (Sub.trans (by decide) hp_)
  · assumption

theorem rel_leaveWindow {ps_ : List Part} {z_ : State} {s : State} {b : Nat} (h0_ : Rel ps_ z_ s) (hp_ : Sub [.mem] ps_) :
    Rel ps_ z_ (leaveWindow s b) := by
  unfold leaveWindow
  refine rel_modMem ?_ (hp_ _ (by decide)) rfl
  assumption

theorem rel_dropLost {ps_ : List Part} {z_ : State} {s : State} (h0_ : Rel ps_ z_ s) (hp_ : Sub [.counts, .mem, .bytes] ps_) :
    Rel ps_ z_ (dropLost s) := by
  unfold dropLost
  extract_lets -merge -underBinder x2_0
  clear_value x2_0
  refine foldSP ?_ ?_ _
  · assumption
  · intro a4_0 a4_1 h4_0
    refine iteP (P := Rel ps_ z_) ?_ ?_
    · refine rel_dropObject ?_ (Sub.trans (by decide) hp_)
      · assumption
    · assumption

theorem rel_enterWindow {ps_ : List Part} {z_ : State} {s : State} (h0_ : Rel ps_ z_ s) (hp_ : Sub [.mem] ps_) :
    Rel ps_ z_ (enterWindow s) := by
  unfold enterWindow
  refine foldSP ?_ ?_ _
  · assumption
  · intro a4_0 a4_1 h4_0
    extract_lets -merge -underBinder x4_0 x4_1
    clear_value x4_0 x4_1
    refine rel_modMem ?_ (hp_ _ (by decide)) rfl
    refine foldSP ?_ ?_ _
    · assumption
    · intro a6_0 a6_1 h6_0
      refine rel_enterDesc ?_ (Sub.trans (by decide) hp_)
      · assumption

theorem rel_execPagerMoveStart {ps_ : List Part} {z_ : State} {s : State} (h0_ : Rel ps_ z_ s) (hp_ : Sub [.tx, .regs, .counts, .shelf, .mem, .bytes, .quay] ps_) :
    Ends ps_ z_ (execPagerMoveStart s) := by
  unfold execPagerMoveStart
  extract_lets -merge -underBinder x2_0
  have hx2_0 : Rel ps_ z_ x2_0 := by
    unfold x2_0
    refine rel_dropLost ?_ (Sub.trans (by decide) hp_)
    · refine rel_enterWindow ?_ (Sub.trans (by decide) hp_)
      · assumption
  clear_value x2_0
  refine ofNext ?_
  refine iteP (P := Rel ps_ z_) ?_ ?_
  · split
    · rename_i q4_0
      try have hq4_0 := of_eqO (ps := ps_) (z := z_) q4_0 (by
          refine rel_pagerNext ?_ (Sub.trans (by decide) hp_)
          · assumption
          )
      refine rel_tryAllocs ?_ (Sub.trans (by decide) hp_)
      · refine rel_modMem ?_ (hp_ _ (by decide)) rfl
        assumption
    · rename_i q4_0
      try have hq4_0 := of_eqO (ps := ps_) (z := z_) q4_0 (by
          refine rel_pagerNext ?_ (Sub.trans (by decide) hp_)
          · assumption
          )
      refine rel_tryAllocs ?_ (Sub.trans (by decide) hp_)
      · assumption
  · assumption

/-! ### Tiers -/

theorem rel_corrected {ps_ : List Part} {z_ : State} {s : State} {tier : Nat} {unit : Nat} {n : Nat} (h0_ : Rel ps_ z_ s) (hp_ : Sub [.tx, .regs, .counts, .quay, .rst] ps_) :
    Rel ps_ z_ (corrected s tier unit n) := by
  unfold corrected
  extract_lets -merge -underBinder x2_0 x2_1 x2_2 x2_3 x2_4 x2_5
  clear_value x2_0 x2_1 x2_2 x2_3 x2_4
  have hx2_5 : Rel ps_ z_ x2_5 := by
    unfold x2_5
    refine rel_count ?_ (Sub.trans (by decide) hp_)
    · refine rel_wr ?_ (Sub.trans (by decide) hp_)
      · assumption
  clear_value x2_5
  refine iteP (P := Rel ps_ z_) ?_ ?_
  · refine rel_raiseReplace ?_ (Sub.trans (by decide) hp_)
    · refine rel_logError ?_ (Sub.trans (by decide) hp_)
      · refine rel_wrOr ?_ (Sub.trans (by decide) hp_)
        · assumption
  · assumption

theorem rel_scrubFind {ps_ : List Part} {z_ : State} {tier : Nat} {unit : Nat} {s : State} {a : Nat} (h2_ : Rel ps_ z_ s) (hp_ : Sub [.free, .tx, .regs, .counts, .mem, .quay, .rst] ps_) :
    Rel ps_ z_ (scrubFind tier unit s a) := by
  unfold scrubFind
  extract_lets -merge -underBinder x2_0 x2_1 x2_2 x2_3 x2_4 x2_5
  clear_value x2_0
  have hx2_1 : Rel ps_ z_ x2_1 := by
    unfold x2_1
    refine rel_modMem ?_ (hp_ _ (by decide)) rfl
    assumption
  clear_value x2_1 x2_2
  have hx2_3 : Rel ps_ z_ x2_3 := by
    unfold x2_3
    refine rel_wrs ?_ (Sub.trans (by decide) hp_)
    · assumption
  clear_value x2_3
  have hx2_4 : Rel ps_ z_ x2_4 := by
    unfold x2_4
    refine rel_modMem ?_ (hp_ _ (by decide)) rfl
    refine rel_wrOr ?_ (Sub.trans (by decide) hp_)
    · assumption
  clear_value x2_4
  have hx2_5 : Rel ps_ z_ x2_5 := by
    unfold x2_5
    refine rel_logError ?_ (Sub.trans (by decide) hp_)
    · assumption
  clear_value x2_5
  refine iteP (P := Rel ps_ z_) ?_ ?_
  · refine rel_noteUe ?_ (Sub.trans (by decide) hp_)
    · assumption
  · refine iteP (P := Rel ps_ z_) ?_ ?_
    · assumption
    · refine iteP (P := Rel ps_ z_) ?_ ?_
      · refine iteP (P := Rel ps_ z_) ?_ ?_
        · refine rel_enterReset ?_ (Sub.trans (by decide) hp_)
          · assumption
        · assumption
      · refine rel_noteUeIn ?_ (Sub.trans (by decide) hp_)
        · assumption

theorem rel_execMemoryScrub {ps_ : List Part} {z_ : State} {tier : Nat} {unit : Nat} {corrected_ : Nat} {bad : List Nat} {s : State} (h4_ : Rel ps_ z_ s) (hp_ : Sub [.free, .tx, .regs, .counts, .mem, .quay, .rst] ps_) :
    Ends ps_ z_ (execMemoryScrub tier unit corrected_ bad s) := by
  unfold execMemoryScrub
  extract_lets -merge -underBinder x2_0
  clear_value x2_0
  refine ofNext ?_
  refine iteP (P := Rel ps_ z_) ?_ ?_
  · assumption
  · refine foldSP ?_ ?_ _
    · refine iteP (P := Rel ps_ z_) ?_ ?_
      · assumption
      · refine rel_corrected ?_ (Sub.trans (by decide) hp_)
        · assumption
    · intro a6_0 a6_1 h6_0
      refine rel_scrubFind ?_ (Sub.trans (by decide) hp_)
      · assumption

theorem rel_execDdrChannelLost {ps_ : List Part} {z_ : State} {channel : Nat} {s : State} (h1_ : Rel ps_ z_ s) (hp_ : Sub [.tx, .regs, .counts, .mem, .quay] ps_) :
    Ends ps_ z_ (execDdrChannelLost channel s) := by
  unfold execDdrChannelLost
  refine ofNext ?_
  refine iteP (P := Rel ps_ z_) ?_ ?_
  · refine rel_loseChannel ?_ (Sub.trans (by decide) hp_)
    · assumption
  · assumption

theorem rel_execErrorWindowExpiry {ps_ : List Part} {z_ : State} {s : State} (h0_ : Rel ps_ z_ s) (hp_ : Sub [.regs, .mem, .clf] ps_) :
    Ends ps_ z_ (execErrorWindowExpiry s) := by
  unfold execErrorWindowExpiry
  extract_lets -merge -underBinder x2_0 x2_1 x2_2 x2_3 x2_4
  have hx2_0 : Rel ps_ z_ x2_0 := by
    unfold x2_0
    refine rel_wrs ?_ (Sub.trans (by decide) hp_)
    · assumption
  clear_value x2_0
  have hx2_1 : Rel ps_ z_ x2_1 := by
    unfold x2_1
    refine rel_wrs ?_ (Sub.trans (by decide) hp_)
    · assumption
  clear_value x2_1
  have hx2_2 : Rel ps_ z_ x2_2 := by
    unfold x2_2
    refine iteP (P := Rel ps_ z_) ?_ ?_
    · refine rel_wrs ?_ (Sub.trans (by decide) hp_)
      · assumption
    · assumption
  clear_value x2_2 x2_3
  have hx2_4 : Rel ps_ z_ x2_4 := by
    unfold x2_4
    refine rel_clf ?_ (hp_ _ (by decide))
    assumption
  clear_value x2_4
  refine ofNext ?_
  refine iteP (P := Rel ps_ z_) ?_ ?_
  · refine rel_modMem ?_ (hp_ _ (by decide)) rfl
    assumption
  · assumption

/-! ### Operands -/

theorem rel_modShg {ps_ : List Part} {z_ : State} {s : State} {f : Shingle → Shingle} (h0_ : Rel ps_ z_ s) (hp_ : Sub [.shg] ps_) :
    Rel ps_ z_ (modShg s f) := by
  unfold modShg
  refine rel_shg ?_ (hp_ _ (by decide))
  assumption

theorem rel_shgError {ps_ : List Part} {z_ : State} {s : State} {slot : Nat} {cause : Nat} {berth : Nat} {block : Nat} (h0_ : Rel ps_ z_ s) (hp_ : Sub [.regs, .shg] ps_) :
    Rel ps_ z_ (shgError s slot cause berth block) := by
  unfold shgError
  extract_lets -merge -underBinder x2_0
  have hx2_0 : Rel ps_ z_ x2_0 := by
    unfold x2_0
    refine rel_wrs ?_ (Sub.trans (by decide) hp_)
    · assumption
  clear_value x2_0
  refine rel_modShg ?_ (Sub.trans (by decide) hp_)
  · assumption

theorem rel_shgFail {ps_ : List Part} {z_ : State} {s : State} {b : Nat} {slot : Nat} {e : Nat × Nat} (h0_ : Rel ps_ z_ s) (hp_ : Sub [.regs, .counts, .shg] ps_) :
    Rel ps_ z_ (shgFail s b slot e) := by
  unfold shgFail
  refine rel_shgError ?_ (Sub.trans (by decide) hp_)
  · refine iteP (P := Rel ps_ z_) ?_ ?_
    · refine rel_count ?_ (Sub.trans (by decide) hp_)
      · refine rel_wrOr ?_ (Sub.trans (by decide) hp_)
        · assumption
    · refine rel_count ?_ (Sub.trans (by decide) hp_)
      · refine rel_wrOr ?_ (Sub.trans (by decide) hp_)
        · assumption

theorem rel_shgReport {ps_ : List Part} {z_ : State} {s : State} {b : Nat} {slot : Nat} {d : Decoded} (h0_ : Rel ps_ z_ s) (hp_ : Sub [.regs, .counts, .shg] ps_) :
    Rel ps_ z_ (shgReport s b slot d) := by
  unfold shgReport
  refine foldSP ?_ ?_ _
  · refine rel_count ?_ (Sub.trans (by decide) hp_)
    · assumption
  · intro a4_0 a4_1 h4_0
    refine rel_shgFail ?_ (Sub.trans (by decide) hp_)
    · assumption

theorem rel_writeRuns {ps_ : List Part} {z_ : State} {s : State} {h : Hdl} {m : NMap Byte} (h0_ : Rel ps_ z_ s) (hp_ : Sub [.free, .tx, .regs, .counts, .mem, .bytes, .quay, .rst] ps_) :
    Rel1 ps_ z_ (writeRuns s h m) := by
  unfold writeRuns
  refine foldl1P ?_ ?_ _
  · refine ofPair ?_
    assumption
  · intro a4_0 a4_1 h4_0
    extract_lets -merge -underBinder x4_0
    have hx4_0 : Rel1 ps_ z_ x4_0 := by
      unfold x4_0
      refine rel_writeN ?_ (Sub.trans (by decide) hp_)
      · refine (?_ : Rel1 ps_ z_ _)
        assumption
    clear_value x4_0
    refine ofPair ?_
    refine (?_ : Rel1 ps_ z_ _)
    assumption

/-! ### Flags -/

theorem rel_modNum {ps_ : List Part} {z_ : State} {s : State} {f : Numbers → Numbers} (h0_ : Rel ps_ z_ s) (hp_ : Sub [.num] ps_) :
    Rel ps_ z_ (modNum s f) := by
  unfold modNum
  refine rel_num ?_ (hp_ _ (by decide))
  assumption

theorem rel_census {ps_ : List Part} {z_ : State} {s : State} {b : Nat} {layer : Nat} {fmt : Nat} {n : List Nat} (h0_ : Rel ps_ z_ s) (hp_ : Sub [.regs, .num] ps_) :
    Rel ps_ z_ (census s b layer fmt n) := by
  unfold census
  extract_lets -merge -underBinder x2_0 x2_1 x2_2 x2_3 x2_4 x2_5 x2_6
  clear_value x2_0 x2_1 x2_2 x2_3
  have hx2_4 : Rel ps_ z_ x2_4 := by
    unfold x2_4
    refine iteP (P := Rel ps_ z_) ?_ ?_
    · refine iteP (P := Rel ps_ z_) ?_ ?_
      · refine rel_modNum ?_ (Sub.trans (by decide) hp_)
        · assumption
      · refine rel_wrOr ?_ (Sub.trans (by decide) hp_)
        · assumption
    · refine iteP (P := Rel ps_ z_) ?_ ?_
      · refine rel_wrOr ?_ (Sub.trans (by decide) hp_)
        · assumption
      · assumption
  clear_value x2_4 x2_5
  have hx2_6 : Rel ps_ z_ x2_6 := by
    unfold x2_6
    refine iteP (P := Rel ps_ z_) ?_ ?_
    · refine rel_wrOr ?_ (Sub.trans (by decide) hp_)
      · assumption
    · assumption
  clear_value x2_6
  refine iteP (P := Rel ps_ z_) ?_ ?_
  · assumption
  · refine rel_modNum ?_ (Sub.trans (by decide) hp_)
    · assumption

theorem rel_censusSample {ps_ : List Part} {z_ : State} {s : State} {b : Nat} (h0_ : Rel ps_ z_ s) (hp_ : Sub [.num] ps_) :
    Rel ps_ z_ (censusSample s b) := by
  unfold censusSample
  extract_lets -merge -underBinder x2_0 x2_1 x2_2
  clear_value x2_0 x2_1
  have hx2_2 : ∀ a0, Rel ps_ z_ a0 → ∀ a1, Rel ps_ z_ (x2_2 a0 a1) := by
    intro a0_ h0_ a1_
    unfold x2_2
    split
    · assumption
    · extract_lets -merge -underBinder x6_0 x6_1
      clear_value x6_0 x6_1
      refine rel_modNum ?_ (Sub.trans (by decide) hp_)
      · assumption
  clear_value x2_2
  refine rel_modNum ?_ (Sub.trans (by decide) hp_)
  · refine foldSP ?_ ?_ _
    · assumption
    · intro a6_0 a6_1 h6_0
      refine hx2_2 _ ?_ _
      assumption

/-! ### Compute -/

theorem rel_noteCoded {ps_ : List Part} {z_ : State} {s : State} {b : Nat} {o : Op} {sp : Nat} {mask : List Byte} {ofA : Bool} (h0_ : Rel ps_ z_ s) (hp_ : Sub [.regs, .counts, .shg] ps_) :
    Rel ps_ z_ (noteCoded s b o sp mask ofA) := by
  unfold noteCoded
  extract_lets -merge -underBinder x2_0 x2_1 x2_2 x2_3
  clear_value x2_0 x2_1 x2_2 x2_3
  refine iteP (P := Rel ps_ z_) ?_ ?_
  · assumption
  · refine iteP (P := Rel ps_ z_) ?_ ?_
    · refine rel_shgFail ?_ (Sub.trans (by decide) hp_)
      · assumption
    · refine rel_shgReport ?_ (Sub.trans (by decide) hp_)
      · assumption

/-! ### Curv -/



/-! ### Solver -/

theorem rel_writeBlk {ps_ : List Part} {z_ : State} {s : State} {h : Hdl} {off : Nat} {e : Nat} {m : Mat} (h0_ : Rel ps_ z_ s) (hp_ : Sub [.mem, .bytes] ps_) :
    Rel1 ps_ z_ (writeBlk s h off e m) := by
  unfold writeBlk
  extract_lets -merge -underBinder x2_0
  clear_value x2_0
  refine rel_writeF32 ?_ (Sub.trans (by decide) hp_)
  · assumption

theorem rel_modSlv {ps_ : List Part} {z_ : State} {s : State} {f : Solver → Solver} (h0_ : Rel ps_ z_ s) (hp_ : Sub [.slv] ps_) :
    Rel ps_ z_ (modSlv s f) := by
  unfold modSlv
  refine rel_slv ?_ (hp_ _ (by decide))
  assumption

theorem rel_blockEnd {ps_ : List Part} {z_ : State} {s : State} {b : Nat} {slot : Nat} {code : Nat} {iters : Nat} {lam : W32} (h0_ : Rel ps_ z_ s) (hp_ : Sub [.regs, .counts, .slv] ps_) :
    Rel ps_ z_ (blockEnd s b slot code iters lam) := by
  unfold blockEnd
  extract_lets -merge -underBinder x2_0 x2_1 x2_2 x2_3 x2_4
  clear_value x2_0
  have hx2_1 : Rel ps_ z_ x2_1 := by
    unfold x2_1
    refine rel_count ?_ (Sub.trans (by decide) hp_)
    · refine rel_modSlv ?_ (Sub.trans (by decide) hp_)
      · assumption
  clear_value x2_1
  have hx2_2 : Rel ps_ z_ x2_2 := by
    unfold x2_2
    refine iteP (P := Rel ps_ z_) ?_ ?_
    · refine rel_wrOr ?_ (Sub.trans (by decide) hp_)
      · assumption
    · assumption
  clear_value x2_2
  have hx2_3 : Rel ps_ z_ x2_3 := by
    unfold x2_3
    refine iteP (P := Rel ps_ z_) ?_ ?_
    · refine rel_wrOr ?_ (Sub.trans (by decide) hp_)
      · assumption
    · assumption
  clear_value x2_3
  have hx2_4 : Rel ps_ z_ x2_4 := by
    unfold x2_4
    refine iteP (P := Rel ps_ z_) ?_ ?_
    · refine rel_wrOr ?_ (Sub.trans (by decide) hp_)
      · assumption
    · assumption
  clear_value x2_4
  refine iteP (P := Rel ps_ z_) ?_ ?_
  · refine rel_modSlv ?_ (Sub.trans (by decide) hp_)
    · assumption
  · assumption

theorem rel_passFault {ps_ : List Part} {z_ : State} {s : State} {b : Nat} {unit : Nat} {h : Hdl} {off : Nat} {n : Nat} (h0_ : Rel ps_ z_ s) (hp_ : Sub [.free, .tx, .regs, .counts, .mem, .lsh, .quay, .rst] ps_) :
    Rel ps_ z_ (passFault s b unit h off n) := by
  unfold passFault
  refine rel_opFault ?_ (Sub.trans (by decide) hp_)
  · refine rel_setFlag ?_ (Sub.trans (by decide) hp_)
    · refine rel_noteRead ?_ (Sub.trans (by decide) hp_)
      · assumption

theorem rel_faultIf {ps_ : List Part} {z_ : State} {bad : Bool} {s : State} {b : Nat} {unit : Nat} {h : Hdl} {off : Nat} {n : Nat} (h1_ : Rel ps_ z_ s) (hp_ : Sub [.free, .tx, .regs, .counts, .mem, .lsh, .quay, .rst] ps_) :
    Rel ps_ z_ (faultIf bad s b unit h off n) := by
  unfold faultIf
  refine iteP (P := Rel ps_ z_) ?_ ?_
  · refine rel_passFault ?_ (Sub.trans (by decide) hp_)
    · assumption
  · assumption

theorem rel_writeResult {ps_ : List Part} {z_ : State} {s : State} {b : Nat} {n : Nat} {f : FSlot} {fd : FsD} {x : BlockRes} (h0_ : Rel ps_ z_ s) (hp_ : Sub [.free, .tx, .regs, .counts, .slv, .mem, .bytes, .lsh, .quay, .rst] ps_) :
    Rel ps_ z_ (writeResult s b n f fd x) := by
  unfold writeResult
  extract_lets -merge -underBinder x2_0 x2_1 x2_2 x2_3
  clear_value x2_0 x2_1 x2_2
  have hx2_3 : Rel1 ps_ z_ x2_3 := by
    unfold x2_3
    refine rel_writeBlk ?_ (Sub.trans (by decide) hp_)
    · assumption
  clear_value x2_3
  refine rel_blockEnd ?_ (Sub.trans (by decide) hp_)
  · refine rel_faultIf ?_ (Sub.trans (by decide) hp_)
    · refine (?_ : Rel1 ps_ z_ _)
      assumption

theorem rel_modSnd {ps_ : List Part} {z_ : State} {s : State} {f : Sounding → Sounding} (h0_ : Rel ps_ z_ s) (hp_ : Sub [.snd] ps_) :
    Rel ps_ z_ (modSnd s f) := by
  unfold modSnd
  refine rel_snd ?_ (hp_ _ (by decide))
  assumption

theorem rel_modStages {ps_ : List Part} {z_ : State} {s : State} {b : Nat} {f : List Stage → List Stage} (h0_ : Rel ps_ z_ s) (hp_ : Sub [.snd, .mem] ps_) :
    Rel ps_ z_ (modStages s b f) := by
  unfold modStages
  extract_lets -merge -underBinder x2_0 x2_1
  have hx2_0 : Rel ps_ z_ x2_0 := by
    unfold x2_0
    refine rel_modSnd ?_ (Sub.trans (by decide) hp_)
    · assumption
  clear_value x2_0 x2_1
  refine iteP (P := Rel ps_ z_) ?_ ?_
  · assumption
  · refine rel_modMem ?_ (hp_ _ (by decide)) rfl
    assumption

theorem rel_lowerStage {ps_ : List Part} {z_ : State} {s : State} {b : Nat} {id : Nat} (h0_ : Rel ps_ z_ s) (hp_ : Sub [.snd, .mem] ps_) :
    Rel ps_ z_ (lowerStage s b id) := by
  unfold lowerStage
  refine rel_modStages ?_ (Sub.trans (by decide) hp_)
  · assumption

theorem rel_modFs {ps_ : List Part} {z_ : State} {s : State} {n : Nat} {f : FSlot → FSlot} (h0_ : Rel ps_ z_ s) (hp_ : Sub [.snd] ps_) :
    Rel ps_ z_ (modFs s n f) := by
  unfold modFs
  refine rel_modSnd ?_ (Sub.trans (by decide) hp_)
  · assumption

theorem rel_doCov {ps_ : List Part} {z_ : State} {s : State} {b : Nat} {e : EngPass} (h0_ : Rel ps_ z_ s) (hp_ : Sub [.free, .tx, .regs, .counts, .snd, .mem, .bytes, .lsh, .quay, .rst] ps_) :
    Rel ps_ z_ (doCov s b e) := by
  unfold doCov
  split
  · refine rel_lowerStage ?_ (Sub.trans (by decide) hp_)
    · assumption
  · split
    · refine rel_lowerStage ?_ (Sub.trans (by decide) hp_)
      · assumption
    · extract_lets -merge -underBinder x6_0 x6_1 x6_2 x6_3 x6_4 x6_5 x6_6 x6_7
      clear_value x6_0 x6_1 x6_2 x6_3 x6_4 x6_5
      have hx6_6 : ∀ a0, Rel ps_ z_ a0 → ∀ a1, ∀ a2, ∀ a3, ∀ a4, ∀ a5, ∀ a6, Rel ps_ z_ (x6_6 a0 a1 a2 a3 a4 a5 a6) := by
        intro a0_ h0_ a1_ a2_ a3_ a4_ a5_ a6_
        unfold x6_6
        extract_lets -merge -underBinder x8_0 x8_1 x8_2
        have hx8_0 : Rel1 ps_ z_ x8_0 := by
          unfold x8_0
          refine rel_writeBlk ?_ (Sub.trans (by decide) hp_)
          · assumption
        clear_value x8_0
        have hx8_1 : Rel ps_ z_ x8_1 := by
          unfold x8_1
          refine rel_modFs ?_ (Sub.trans (by decide) hp_)
          · refine (?_ : Rel1 ps_ z_ _)
            assumption
        clear_value x8_1
        have hx8_2 : Rel ps_ z_ x8_2 := by
          unfold x8_2
          refine rel_faultIf ?_ (Sub.trans (by decide) hp_)
          · assumption
        clear_value x8_2
        refine rel_faultIf ?_ (Sub.trans (by decide) hp_)
        · assumption
      clear_value x6_6
      have hx6_7 : Rel ps_ z_ x6_7 := by
        unfold x6_7
        refine rel_count ?_ (Sub.trans (by decide) hp_)
        · assumption
      clear_value x6_7
      refine iteP (P := Rel ps_ z_) ?_ ?_
      · split
        · assumption
        · extract_lets -merge -underBinder x10_0
          have hx10_0 : Rel ps_ z_ x10_0 := by
            unfold x10_0
            refine hx6_6 _ ?_ _ _ _ _ _ _
            assumption
          clear_value x10_0
          refine rel_lowerStage ?_ (Sub.trans (by decide) hp_)
          · assumption
      · split
        · assumption
        · extract_lets -merge -underBinder x10_0 x10_1 x10_2 x10_3
          clear_value x10_0 x10_1 x10_2
          have hx10_3 : Rel ps_ z_ x10_3 := by
            unfold x10_3
            refine rel_modFs ?_ (Sub.trans (by decide) hp_)
            · assumption
          clear_value x10_3
          refine iteP (P := Rel ps_ z_) ?_ ?_
          · refine hx6_6 _ ?_ _ _ _ _ _ _
            assumption
          · refine hx6_6 _ ?_ _ _ _ _ _ _
            assumption

theorem rel_pushPass {ps_ : List Part} {z_ : State} {s : State} {b : Nat} {e : EngPass} (h0_ : Rel ps_ z_ s) (hp_ : Sub [.shelf] ps_) :
    Rel ps_ z_ (pushPass s b e) := by
  unfold pushPass
  extract_lets -merge -underBinder x2_0
  clear_value x2_0
  refine rel_shelf ?_ (hp_ _ (by decide))
  assumption

theorem rel_queueMerges {ps_ : List Part} {z_ : State} {s : State} {b : Nat} {step : W64} (h0_ : Rel ps_ z_ s) (hp_ : Sub [.shelf, .snd] ps_) :
    Rel ps_ z_ (queueMerges s b step) := by
  unfold queueMerges
  refine foldSP ?_ ?_ _
  · assumption
  · intro a4_0 a4_1 h4_0
    split
    · extract_lets -merge -underBinder x6_0
      have hx6_0 : Rel ps_ z_ x6_0 := by
        unfold x6_0
        refine rel_pushPass ?_ (Sub.trans (by decide) hp_)
        · assumption
      clear_value x6_0
      refine iteP (P := Rel ps_ z_) ?_ ?_
      · refine rel_modFs ?_ (Sub.trans (by decide) hp_)
        · assumption
      · assumption
    · assumption

theorem rel_flipRefresh {ps_ : List Part} {z_ : State} {s : State} {n : Nat} {r : Refresh} (h0_ : Rel ps_ z_ s) (hp_ : Sub [.snd, .mem, .bytes] ps_) :
    Rel ps_ z_ (flipRefresh s n r) := by
  unfold flipRefresh
  extract_lets -merge -underBinder x2_0 x2_1 x2_2
  clear_value x2_0 x2_1
  have hx2_2 : Rel1 ps_ z_ x2_2 := by
    unfold x2_2
    refine rel_writeH ?_ (Sub.trans (by decide) hp_)
    · assumption
  clear_value x2_2
  refine rel_modFs ?_ (Sub.trans (by decide) hp_)
  · refine (?_ : Rel1 ps_ z_ _)
    assumption

theorem rel_flipIfDue {ps_ : List Part} {z_ : State} {s : State} {n : Nat} (h0_ : Rel ps_ z_ s) (hp_ : Sub [.snd, .mem, .bytes] ps_) :
    Rel ps_ z_ (flipIfDue s n) := by
  unfold flipIfDue
  split
  · split
    · refine iteP (P := Rel ps_ z_) ?_ ?_
      · refine rel_flipRefresh ?_ (Sub.trans (by decide) hp_)
        · assumption
      · assumption
    · assumption
  · assumption

theorem rel_endRefresh {ps_ : List Part} {z_ : State} {s : State} {p : Problem} (h0_ : Rel ps_ z_ s) (hp_ : Sub [.free, .tx, .regs, .counts, .snd, .slv, .mem, .bytes, .lsh, .quay, .rst] ps_) :
    Rel ps_ z_ (endRefresh s p) := by
  unfold endRefresh
  split
  · assumption
  · split
    · assumption
    · extract_lets -merge -underBinder x6_0 x6_1 x6_2 x6_3 x6_4
      clear_value x6_0
      have hx6_1 : Rel ps_ z_ x6_1 := by
        unfold x6_1
        refine foldSP ?_ ?_ _
        · assumption
        · intro a10_0 a10_1 h10_0
          refine rel_writeResult ?_ (Sub.trans (by decide) hp_)
          · assumption
      clear_value x6_1 x6_2 x6_3 x6_4
      refine rel_flipIfDue ?_ (Sub.trans (by decide) hp_)
      · refine rel_modFs ?_ (Sub.trans (by decide) hp_)
        · assumption

theorem rel_captureInput {ps_ : List Part} {z_ : State} {s : State} {n : Nat} (h0_ : Rel ps_ z_ s) (hp_ : Sub [.free, .tx, .regs, .counts, .snd, .mem, .lsh, .quay, .rst] ps_) :
    Rel ps_ z_ (captureInput s n) := by
  unfold captureInput
  split
  · assumption
  · split
    · assumption
    · extract_lets -merge -underBinder x6_0 x6_1 x6_2
      clear_value x6_0 x6_1
      have hx6_2 : Rel ps_ z_ x6_2 := by
        unfold x6_2
        refine rel_modFs ?_ (Sub.trans (by decide) hp_)
        · assumption
      clear_value x6_2
      refine iteP (P := Rel ps_ z_) ?_ ?_
      · assumption
      · refine rel_faultIf ?_ (Sub.trans (by decide) hp_)
        · assumption

theorem rel_doMerge {ps_ : List Part} {z_ : State} {s : State} {b : Nat} {e : EngPass} (h0_ : Rel ps_ z_ s) (hp_ : Sub [.free, .tx, .regs, .counts, .snd, .mem, .bytes, .lsh, .quay, .rst] ps_) :
    Rel ps_ z_ (doMerge s b e) := by
  unfold doMerge
  split
  · assumption
  · split
    · assumption
    · extract_lets -merge -underBinder x6_0 x6_1 x6_2
      clear_value x6_0
      have hx6_1 : ∀ a0, Rel ps_ z_ a0 → ∀ a1, Rel ps_ z_ (x6_1 a0 a1) := by
        intro a0_ h0_ a1_
        unfold x6_1
        extract_lets -merge -underBinder x8_0 x8_1 x8_2 x8_3
        clear_value x8_0 x8_1 x8_2
        have hx8_3 : Rel1 ps_ z_ x8_3 := by
          unfold x8_3
          refine rel_writeBlk ?_ (Sub.trans (by decide) hp_)
          · assumption
        clear_value x8_3
        refine rel_faultIf ?_ (Sub.trans (by decide) hp_)
        · refine (?_ : Rel1 ps_ z_ _)
          assumption
      clear_value x6_1
      have hx6_2 : Rel ps_ z_ x6_2 := by
        unfold x6_2
        refine foldSP ?_ ?_ _
        · assumption
        · intro a10_0 a10_1 h10_0
          refine hx6_1 _ ?_ _
          assumption
      clear_value x6_2
      refine rel_captureInput ?_ (Sub.trans (by decide) hp_)
      · refine rel_count ?_ (Sub.trans (by decide) hp_)
        · refine rel_modFs ?_ (Sub.trans (by decide) hp_)
          · assumption

theorem rel_slvAttempt {ps_ : List Part} {z_ : State} {s : State} {b : Nat} {p : Problem} (h0_ : Rel ps_ z_ s) (hp_ : Sub [.counts] ps_) :
    Rel1 ps_ z_ (slvAttempt s b p) := by
  unfold slvAttempt
  refine iteP (P := Rel1 ps_ z_) ?_ ?_
  · refine ofPair ?_
    assumption
  · split
    · refine ofPair ?_
      assumption
    · split
      · refine ofPair ?_
        assumption
      · extract_lets -merge -underBinder x8_0
        clear_value x8_0
        refine ofPair ?_
        refine rel_count ?_ (Sub.trans (by decide) hp_)
        · assumption

theorem rel_discardCov {ps_ : List Part} {z_ : State} {s : State} {b : Nat} {step : W64} (h0_ : Rel ps_ z_ s) (hp_ : Sub [.shelf, .snd, .mem] ps_) :
    Rel ps_ z_ (discardCov s b step) := by
  unfold discardCov
  extract_lets -merge -underBinder x2_0 x2_1 x2_2
  clear_value x2_0
  have hx2_1 : Rel ps_ z_ x2_1 := by
    unfold x2_1
    refine rel_shelf ?_ (hp_ _ (by decide))
    assumption
  clear_value x2_1
  have hx2_2 : Rel ps_ z_ x2_2 := by
    unfold x2_2
    refine rel_modSnd ?_ (Sub.trans (by decide) hp_)
    · assumption
  clear_value x2_2
  refine rel_modStages ?_ (Sub.trans (by decide) hp_)
  · assumption

theorem rel_setHead {ps_ : List Part} {z_ : State} {s : State} {b : Nat} {p : Problem} (h0_ : Rel ps_ z_ s) (hp_ : Sub [.slv] ps_) :
    Rel ps_ z_ (setHead s b p) := by
  unfold setHead
  refine rel_modSlv ?_ (Sub.trans (by decide) hp_)
  · assumption

theorem rel_slvIssue {ps_ : List Part} {z_ : State} {s : State} {b : Nat} {p : Problem} (h0_ : Rel ps_ z_ s) (hp_ : Sub [.shelf, .slv] ps_) :
    Rel ps_ z_ (slvIssue s b p) := by
  unfold slvIssue
  split
  · extract_lets -merge -underBinder x4_0
    clear_value x4_0
    refine rel_pushPass ?_ (Sub.trans (by decide) hp_)
    · refine rel_setHead ?_ (Sub.trans (by decide) hp_)
      · assumption
  · refine rel_setHead ?_ (Sub.trans (by decide) hp_)
    · assumption

theorem rel_issueRefresh {ps_ : List Part} {z_ : State} {s : State} {b : Nat} {n : Nat} {step : W64} {reducing : Bool} (h0_ : Rel ps_ z_ s) (hp_ : Sub [.free, .tx, .regs, .counts, .snd, .slv, .mem, .lsh, .quay, .rst] ps_) :
    Rel ps_ z_ (issueRefresh s b n step reducing) := by
  unfold issueRefresh
  split
  · assumption
  · split
    · assumption
    · extract_lets -merge -underBinder x6_0 x6_1 x6_2 x6_3 x6_4
      clear_value x6_0 x6_1 x6_2
      have hx6_3 : Rel ps_ z_ x6_3 := by
        unfold x6_3
        refine rel_modFs ?_ (Sub.trans (by decide) hp_)
        · assumption
      clear_value x6_3
      have hx6_4 : Rel ps_ z_ x6_4 := by
        unfold x6_4
        refine rel_modSlv ?_ (Sub.trans (by decide) hp_)
        · assumption
      clear_value x6_4
      refine rel_captureInput ?_ (Sub.trans (by decide) hp_)
      · assumption

/-! ### Almanac -/

theorem rel_modUpd {ps_ : List Part} {z_ : State} {s : State} {f : Updater → Updater} (h0_ : Rel ps_ z_ s) (hp_ : Sub [.upd] ps_) :
    Rel ps_ z_ (modUpd s f) := by
  unfold modUpd
  refine rel_upd ?_ (hp_ _ (by decide))
  assumption

theorem rel_evalOne {ps_ : List Part} {z_ : State} {b : Nat} {s : State} {p : Nat × Chan} (h1_ : Rel ps_ z_ s) (hp_ : Sub [.regs, .upd] ps_) :
    Rel ps_ z_ (evalOne b s p) := by
  unfold evalOne
  extract_lets -merge -underBinder x2_0 x2_1
  clear_value x2_0 x2_1
  refine iteP (P := Rel ps_ z_) ?_ ?_
  · assumption
  · split
    · refine rel_modUpd ?_ (Sub.trans (by decide) hp_)
      · assumption
    · extract_lets -merge -underBinder x6_0
      have hx6_0 : Rel ps_ z_ x6_0 := by
        unfold x6_0
        refine iteP (P := Rel ps_ z_) ?_ ?_
        · assumption
        · refine rel_modUpd ?_ (Sub.trans (by decide) hp_)
          · assumption
      clear_value x6_0
      refine rel_wrs ?_ (Sub.trans (by decide) hp_)
      · refine rel_wrOr ?_ (Sub.trans (by decide) hp_)
        · assumption

theorem rel_almEval {ps_ : List Part} {z_ : State} {s : State} {b : Nat} (h0_ : Rel ps_ z_ s) (hp_ : Sub [.regs, .upd] ps_) :
    Rel ps_ z_ (almEval s b) := by
  unfold almEval
  extract_lets -merge -underBinder x2_0
  have hx2_0 : Rel ps_ z_ x2_0 := by
    unfold x2_0
    refine foldSP ?_ ?_ _
    · assumption
    · intro a6_0 a6_1 h6_0
      refine rel_evalOne ?_ (Sub.trans (by decide) hp_)
      · assumption
  clear_value x2_0
  refine rel_modUpd ?_ (Sub.trans (by decide) hp_)
  · assumption

/-! ### Update -/

theorem rel_updWrite {ps_ : List Part} {z_ : State} {s : State} {b : Nat} {h : Hdl} {off : Nat} {bs : List Byte} (h0_ : Rel ps_ z_ s) (hp_ : Sub [.free, .tx, .regs, .counts, .mem, .bytes, .lsh, .quay, .rst] ps_) :
    Rel ps_ z_ (updWrite s b h off bs) := by
  unfold updWrite
  extract_lets -merge -underBinder x2_0
  have hx2_0 : Rel1 ps_ z_ x2_0 := by
    unfold x2_0
    refine rel_writeH ?_ (Sub.trans (by decide) hp_)
    · assumption
  clear_value x2_0
  refine rel_faultIf ?_ (Sub.trans (by decide) hp_)
  · refine (?_ : Rel1 ps_ z_ _)
    assumption

theorem rel_modUpdate {ps_ : List Part} {z_ : State} {s : State} {n : Nat} {f : Update → Update} (h0_ : Rel ps_ z_ s) (hp_ : Sub [.upd] ps_) :
    Rel ps_ z_ (modUpdate s n f) := by
  unfold modUpdate
  refine rel_modUpd ?_ (Sub.trans (by decide) hp_)
  · assumption

theorem rel_orthDone {ps_ : List Part} {z_ : State} {s : State} {b : Nat} {n : Nat} {x : BlockRes} (h0_ : Rel ps_ z_ s) (hp_ : Sub [.free, .tx, .regs, .counts, .shelf, .slv, .upd, .mem, .bytes, .lsh, .quay, .rst] ps_) :
    Rel ps_ z_ (orthDone s b n x) := by
  unfold orthDone
  extract_lets -merge -underBinder x2_0
  have hx2_0 : Rel ps_ z_ x2_0 := by
    unfold x2_0
    refine rel_blockEnd ?_ (Sub.trans (by decide) hp_)
    · assumption
  clear_value x2_0
  split
  · assumption
  · extract_lets -merge -underBinder x4_0
    clear_value x4_0
    split
    · assumption
    · extract_lets -merge -underBinder x6_0
      have hx6_0 : Rel ps_ z_ x6_0 := by
        unfold x6_0
        refine iteP (P := Rel ps_ z_) ?_ ?_
        · assumption
        · refine rel_updWrite ?_ (Sub.trans (by decide) hp_)
          · assumption
      clear_value x6_0
      refine rel_pushPass ?_ (Sub.trans (by decide) hp_)
      · refine rel_modUpdate ?_ (Sub.trans (by decide) hp_)
        · assumption

theorem rel_slvFinish {ps_ : List Part} {z_ : State} {s : State} {b : Nat} {p : Problem} (h0_ : Rel ps_ z_ s) (hp_ : Sub [.free, .tx, .regs, .counts, .shelf, .snd, .slv, .upd, .mem, .bytes, .lsh, .quay, .rst] ps_) :
    Rel ps_ z_ (slvFinish s b p) := by
  unfold slvFinish
  extract_lets -merge -underBinder x2_0
  have hx2_0 : Rel ps_ z_ x2_0 := by
    unfold x2_0
    refine rel_modSlv ?_ (Sub.trans (by decide) hp_)
    · assumption
  clear_value x2_0
  refine iteP (P := Rel ps_ z_) ?_ ?_
  · refine foldSP ?_ ?_ _
    · assumption
    · intro a6_0 a6_1 h6_0
      refine rel_orthDone ?_ (Sub.trans (by decide) hp_)
      · assumption
  · refine rel_endRefresh ?_ (Sub.trans (by decide) hp_)
    · assumption

theorem rel_slvMove {ps_ : List Part} {z_ : State} {s : State} {b : Nat} (h0_ : Rel ps_ z_ s) (hp_ : Sub [.free, .tx, .regs, .counts, .shelf, .snd, .slv, .upd, .mem, .bytes, .lsh, .quay, .rst] ps_) :
    Rel1 ps_ z_ (slvMove s b) := by
  unfold slvMove
  split
  · refine ofPair ?_
    assumption
  · extract_lets -merge -underBinder x4_0 x4_1
    have hx4_0 : Rel1 ps_ z_ x4_0 := by
      unfold x4_0
      refine rel_slvAttempt ?_ (Sub.trans (by decide) hp_)
      · assumption
    clear_value x4_0
    have hx4_1 : Rel1 ps_ z_ x4_1 := by
      unfold x4_1
      refine rel_slvAttempt ?_ (Sub.trans (by decide) hp_)
      · assumption
    clear_value x4_1
    refine iteP (P := Rel1 ps_ z_) ?_ ?_
    · refine iteP (P := Rel1 ps_ z_) ?_ ?_
      · refine iteP (P := Rel1 ps_ z_) ?_ ?_
        · refine ofPair ?_
          refine rel_slvFinish ?_ (Sub.trans (by decide) hp_)
          · refine rel_setHead ?_ (Sub.trans (by decide) hp_)
            · refine (?_ : Rel1 ps_ z_ _)
              assumption
        · refine ofPair ?_
          refine rel_slvIssue ?_ (Sub.trans (by decide) hp_)
          · refine (?_ : Rel1 ps_ z_ _)
            assumption
      · refine ofPair ?_
        assumption
    · refine iteP (P := Rel1 ps_ z_) ?_ ?_
      · refine ofPair ?_
        refine rel_slvIssue ?_ (Sub.trans (by decide) hp_)
        · assumption
      · refine iteP (P := Rel1 ps_ z_) ?_ ?_
        · refine ofPair ?_
          refine rel_slvFinish ?_ (Sub.trans (by decide) hp_)
          · assumption
        · refine ofPair ?_
          refine rel_slvIssue ?_ (Sub.trans (by decide) hp_)
          · refine (?_ : Rel1 ps_ z_ _)
            assumption

theorem rel_wantShard {ps_ : List Part} {z_ : State} {s : State} {sh : Shard} (h0_ : Rel ps_ z_ s) (hp_ : Sub [.mem] ps_) :
    Rel ps_ z_ (wantShard s sh) := by
  unfold wantShard
  refine foldSP ?_ ?_ _
  · assumption
  · intro a4_0 a4_1 h4_0
    refine rel_wantPage ?_ (Sub.trans (by decide) hp_)
    · assumption

theorem rel_noteLate {ps_ : List Part} {z_ : State} {s : State} {b : Nat} {n : Nat} (h0_ : Rel ps_ z_ s) (hp_ : Sub [.regs, .counts, .upd] ps_) :
    Rel ps_ z_ (noteLate s b n) := by
  unfold noteLate
  extract_lets -merge -underBinder x2_0
  have hx2_0 : Rel ps_ z_ x2_0 := by
    unfold x2_0
    refine rel_count ?_ (Sub.trans (by decide) hp_)
    · refine rel_wrOr ?_ (Sub.trans (by decide) hp_)
      · assumption
  clear_value x2_0
  refine iteP (P := Rel ps_ z_) ?_ ?_
  · assumption
  · refine rel_modUpd ?_ (Sub.trans (by decide) hp_)
    · assumption

theorem rel_putHeader {ps_ : List Part} {z_ : State} {s : State} {sh : Shard} {step : W64} {st : Nat} (h0_ : Rel ps_ z_ s) (hp_ : Sub [.free, .tx, .regs, .counts, .mem, .bytes, .quay, .rst] ps_) :
    Rel1 ps_ z_ (putHeader s sh step st) := by
  unfold putHeader
  refine rel_writeN ?_ (Sub.trans (by decide) hp_)
  · assumption

theorem rel_modShard {ps_ : List Part} {z_ : State} {s : State} {n : Nat} {f : Shard → Shard} (h0_ : Rel ps_ z_ s) (hp_ : Sub [.upd] ps_) :
    Rel ps_ z_ (modShard s n f) := by
  unfold modShard
  refine rel_modUpd ?_ (Sub.trans (by decide) hp_)
  · assumption

theorem rel_pushPasses {ps_ : List Part} {z_ : State} {s : State} {b : Nat} {l : List EngPass} (h0_ : Rel ps_ z_ s) (hp_ : Sub [.shelf] ps_) :
    Rel ps_ z_ (pushPasses s b l) := by
  unfold pushPasses
  refine foldSP ?_ ?_ _
  · assumption
  · intro a4_0 a4_1 h4_0
    refine rel_pushPass ?_ (Sub.trans (by decide) hp_)
    · assumption

theorem rel_beginUpdate {ps_ : List Part} {z_ : State} {s : State} {b : Nat} {n : Nat} {sh : Shard} (h0_ : Rel ps_ z_ s) (hp_ : Sub [.free, .tx, .regs, .counts, .shelf, .upd, .mem, .bytes, .quay, .rst] ps_) :
    Rel ps_ z_ (beginUpdate s b n sh) := by
  unfold beginUpdate
  extract_lets -merge -underBinder x2_0 x2_1 x2_2 x2_3 x2_4 x2_5
  clear_value x2_0
  have hx2_1 : Rel ps_ z_ x2_1 := by
    unfold x2_1
    refine (?_ : Rel1 ps_ z_ _)
    refine rel_putHeader ?_ (Sub.trans (by decide) hp_)
    · assumption
  clear_value x2_1 x2_2
  have hx2_3 : Rel ps_ z_ x2_3 := by
    unfold x2_3
    refine rel_modShard ?_ (Sub.trans (by decide) hp_)
    · assumption
  clear_value x2_3
  have hx2_4 : Rel ps_ z_ x2_4 := by
    unfold x2_4
    refine rel_modUpd ?_ (Sub.trans (by decide) hp_)
    · assumption
  clear_value x2_4
  have hx2_5 : Rel ps_ z_ x2_5 := by
    unfold x2_5
    refine rel_pushPasses ?_ (Sub.trans (by decide) hp_)
    · assumption
  clear_value x2_5
  refine rel_touch ?_ (Sub.trans (by decide) hp_)
  · refine rel_touch ?_ (Sub.trans (by decide) hp_)
    · refine rel_touch ?_ (Sub.trans (by decide) hp_)
      · assumption

theorem rel_tryStart {ps_ : List Part} {z_ : State} {b : Nat} {y1 : List (Nat × Shard)} {y2 : State} (h2_ : Rel ps_ z_ y2) (hp_ : Sub [.free, .tx, .regs, .counts, .shelf, .upd, .mem, .bytes, .quay, .rst] ps_) :
    Rel ps_ z_ (tryStart b y1 y2) := by
  induction y1 generalizing y2 with
  | nil => exact h2_
  | cons p l ih =>
    obtain ⟨n, sh⟩ := p
    unfold tryStart
    extract_lets -merge -underBinder x0
    clear_value x0
    refine iteP (P := Rel ps_ z_) (ih (rel_wantShard h2_ (Sub.trans (by decide) hp_))) ?_
    refine iteP (P := Rel ps_ z_) (ih h2_) ?_
    refine iteP (P := Rel ps_ z_) (ih (rel_noteLate h2_ (Sub.trans (by decide) hp_))) ?_
    exact iteP (P := Rel ps_ z_) (ih h2_) (rel_beginUpdate h2_ (Sub.trans (by decide) hp_))

theorem rel_updRead {ps_ : List Part} {z_ : State} {s : State} {b : Nat} {h : Hdl} {off : Nat} {n : Nat} (h0_ : Rel ps_ z_ s) (hp_ : Sub [.free, .tx, .regs, .counts, .mem, .lsh, .quay, .rst] ps_) :
    Rel1 ps_ z_ (updRead s b h off n) := by
  unfold updRead
  extract_lets -merge -underBinder x2_0
  clear_value x2_0
  refine ofPair ?_
  refine rel_faultIf ?_ (Sub.trans (by decide) hp_)
  · assumption

theorem rel_doNorm {ps_ : List Part} {z_ : State} {s : State} {b : Nat} {sh : Shard} (h0_ : Rel ps_ z_ s) (hp_ : Sub [.free, .tx, .regs, .counts, .mem, .bytes, .lsh, .quay, .rst] ps_) :
    Rel ps_ z_ (doNorm s b sh) := by
  unfold doNorm
  extract_lets -merge -underBinder x2_0 x2_1 x2_2 x2_3 x2_4 x2_5
  clear_value x2_0 x2_1
  have hx2_2 : Rel1 ps_ z_ x2_2 := by
    unfold x2_2
    refine rel_updRead ?_ (Sub.trans (by decide) hp_)
    · assumption
  clear_value x2_2
  have hx2_3 : Rel1 ps_ z_ x2_3 := by
    unfold x2_3
    refine rel_updRead ?_ (Sub.trans (by decide) hp_)
    · refine (?_ : Rel1 ps_ z_ _)
      assumption
  clear_value x2_3 x2_4 x2_5
  refine iteP (P := Rel ps_ z_) ?_ ?_
  · refine (?_ : Rel1 ps_ z_ _)
    assumption
  · refine rel_updWrite ?_ (Sub.trans (by decide) hp_)
    · refine (?_ : Rel1 ps_ z_ _)
      assumption

theorem rel_noteFinite {ps_ : List Part} {z_ : State} {s : State} {n : Nat} {ok : Bool} (h0_ : Rel ps_ z_ s) (hp_ : Sub [.upd] ps_) :
    Rel ps_ z_ (noteFinite s n ok) := by
  unfold noteFinite
  refine rel_modUpdate ?_ (Sub.trans (by decide) hp_)
  · assumption

theorem rel_dropUpdate {ps_ : List Part} {z_ : State} {s : State} {b : Nat} {n : Nat} (h0_ : Rel ps_ z_ s) (hp_ : Sub [.shelf, .upd] ps_) :
    Rel ps_ z_ (dropUpdate s b n) := by
  unfold dropUpdate
  extract_lets -merge -underBinder x2_0 x2_1
  have hx2_0 : Rel ps_ z_ x2_0 := by
    unfold x2_0
    refine rel_modUpd ?_ (Sub.trans (by decide) hp_)
    · assumption
  clear_value x2_0 x2_1
  refine rel_shelf ?_ (hp_ _ (by decide))
  assumption

theorem rel_holdUpdate {ps_ : List Part} {z_ : State} {s : State} {b : Nat} {n : Nat} {sh : Shard} {step : W64} (h0_ : Rel ps_ z_ s) (hp_ : Sub [.free, .tx, .regs, .counts, .shelf, .upd, .mem, .bytes, .quay, .rst] ps_) :
    Rel ps_ z_ (holdUpdate s b n sh step) := by
  unfold holdUpdate
  extract_lets -merge -underBinder x2_0 x2_1
  have hx2_0 : Rel ps_ z_ x2_0 := by
    unfold x2_0
    refine rel_count ?_ (Sub.trans (by decide) hp_)
    · refine rel_wrOr ?_ (Sub.trans (by decide) hp_)
      · refine (?_ : Rel1 ps_ z_ _)
        refine rel_putHeader ?_ (Sub.trans (by decide) hp_)
        · assumption
  clear_value x2_0
  have hx2_1 : Rel ps_ z_ x2_1 := by
    unfold x2_1
    refine rel_modUpd ?_ (Sub.trans (by decide) hp_)
    · assumption
  clear_value x2_1
  refine rel_dropUpdate ?_ (Sub.trans (by decide) hp_)
  · assumption

theorem rel_preBlock {ps_ : List Part} {z_ : State} {s : State} {b : Nat} {left : Bool} {d : ShD} {fd : FsD} {src : Mat} {dst : Nat} {p : Nat × Mat} (h0_ : Rel ps_ z_ s) (hp_ : Sub [.free, .tx, .regs, .counts, .mem, .bytes, .lsh, .quay, .rst] ps_) :
    Rel ps_ z_ (preBlock s b left d fd src dst p) := by
  unfold preBlock
  extract_lets -merge -underBinder x2_0 x2_1 x2_2 x2_3
  clear_value x2_0 x2_1 x2_2 x2_3
  refine iteP (P := Rel ps_ z_) ?_ ?_
  · refine rel_updWrite ?_ (Sub.trans (by decide) hp_)
    · assumption
  · refine foldSP ?_ ?_ _
    · assumption
    · intro a6_0 a6_1 h6_0
      refine rel_updWrite ?_ (Sub.trans (by decide) hp_)
      · assumption

theorem rel_doPre {ps_ : List Part} {z_ : State} {s : State} {b : Nat} {n : Nat} {u : Nat} {left : Bool} {sh : Shard} {fdesc : List Byte} {factor : List Mat} (h0_ : Rel ps_ z_ s) (hp_ : Sub [.free, .tx, .regs, .counts, .upd, .mem, .bytes, .lsh, .quay, .rst] ps_) :
    Rel ps_ z_ (doPre s b n u left sh fdesc factor) := by
  unfold doPre
  extract_lets -merge -underBinder x2_0 x2_1 x2_2 x2_3
  clear_value x2_0 x2_1
  have hx2_2 : Rel1 ps_ z_ x2_2 := by
    unfold x2_2
    refine iteP (P := Rel1 ps_ z_) ?_ ?_
    · refine rel_updRead ?_ (Sub.trans (by decide) hp_)
      · assumption
    · refine rel_updRead ?_ (Sub.trans (by decide) hp_)
      · assumption
  clear_value x2_2
  have hx2_3 : Rel ps_ z_ x2_3 := by
    unfold x2_3
    refine iteP (P := Rel ps_ z_) ?_ ?_
    · refine rel_noteFinite ?_ (Sub.trans (by decide) hp_)
      · refine (?_ : Rel1 ps_ z_ _)
        assumption
    · refine (?_ : Rel1 ps_ z_ _)
      assumption
  clear_value x2_3
  refine iteP (P := Rel ps_ z_) ?_ ?_
  · assumption
  · refine foldSP ?_ ?_ _
    · assumption
    · intro a6_0 a6_1 h6_0
      refine rel_preBlock ?_ (Sub.trans (by decide) hp_)
      · assumption

theorem rel_fetchReady {ps_ : List Part} {z_ : State} {s : State} {sh : Shard} (h0_ : Rel ps_ z_ s) (hp_ : Sub [.mem] ps_) :
    Rel1 ps_ z_ (fetchReady s sh) := by
  unfold fetchReady
  refine rel_residentFor ?_ (Sub.trans (by decide) hp_)
  · assumption

theorem rel_serveFetch {ps_ : List Part} {z_ : State} {s : State} {n : Nat} {req : Nat} {sh : Shard} (h0_ : Rel ps_ z_ s) (hp_ : Sub [.free, .tx, .regs, .counts, .mem, .quay, .rst] ps_) :
    Rel ps_ z_ (serveFetch s n req sh) := by
  unfold serveFetch
  extract_lets -merge -underBinder x2_0 x2_1
  clear_value x2_0
  have hx2_1 : Rel ps_ z_ x2_1 := by
    unfold x2_1
    refine rel_emit ?_ (Sub.trans (by decide) hp_)
    · assumption
  clear_value x2_1
  refine rel_touch ?_ (Sub.trans (by decide) hp_)
  · refine rel_noteRead ?_ (Sub.trans (by decide) hp_)
    · assumption

theorem rel_serveDue {ps_ : List Part} {z_ : State} {s : State} {b : Nat} (h0_ : Rel ps_ z_ s) (hp_ : Sub [.free, .tx, .regs, .counts, .upd, .mem, .quay, .rst] ps_) :
    Rel ps_ z_ (serveDue s b) := by
  unfold serveDue
  refine foldSP ?_ ?_ _
  · assumption
  · intro a4_0 a4_1 h4_0
    split
    · extract_lets -merge -underBinder x6_0
      have hx6_0 : Rel1 ps_ z_ x6_0 := by
        unfold x6_0
        refine rel_fetchReady ?_ (Sub.trans (by decide) hp_)
        · assumption
      clear_value x6_0
      refine iteP (P := Rel ps_ z_) ?_ ?_
      · refine iteP (P := Rel ps_ z_) ?_ ?_
        · refine rel_serveFetch ?_ (Sub.trans (by decide) hp_)
          · refine rel_modUpd ?_ (Sub.trans (by decide) hp_)
            · refine (?_ : Rel1 ps_ z_ _)
              assumption
        · refine (?_ : Rel1 ps_ z_ _)
          assumption
      · assumption
    · assumption

theorem rel_putSections {ps_ : List Part} {z_ : State} {s : State} {b : Nat} {n : Nat} {sh : Shard} {step : W64} {finite : Bool} {y6 : List (Nat × List Byte × Bool)} (h0_ : Rel ps_ z_ s) (hp_ : Sub [.free, .tx, .regs, .counts, .shelf, .upd, .mem, .bytes, .lsh, .quay, .rst] ps_) :
    Rel1 ps_ z_ (putSections s b n sh step finite y6) := by
  induction y6 generalizing s with
  | nil => exact h0_
  | cons p l ih =>
    obtain ⟨off, bs, ok⟩ := p
    unfold putSections
    refine iteP (P := Rel1 ps_ z_) (ofPair (rel_holdUpdate h0_ (Sub.trans (by decide) hp_))) ?_
    exact ih (rel_updWrite h0_ (Sub.trans (by decide) hp_))

theorem rel_doMom1 {ps_ : List Part} {z_ : State} {s : State} {b : Nat} {n : Nat} {sh : Shard} {step : W64} (h0_ : Rel ps_ z_ s) (hp_ : Sub [.free, .tx, .regs, .counts, .shelf, .slv, .upd, .mem, .bytes, .lsh, .quay, .rst] ps_) :
    Rel ps_ z_ (doMom1 s b n sh step) := by
  unfold doMom1
  extract_lets -merge -underBinder x2_0 x2_1
  clear_value x2_0 x2_1
  split
  · rename_i q2_0
    have hq2_0 := of_eq1 (ps := ps_) (z := z_) q2_0 (by
        refine rel_updRead ?_ (Sub.trans (by decide) hp_)
        · assumption
        )
    split
    · rename_i q4_0
      have hq4_0 := of_eq1 (ps := ps_) (z := z_) q4_0 (by
          refine rel_updRead ?_ (Sub.trans (by decide) hp_)
          · assumption
          )
      extract_lets -merge -underBinder x6_0 x6_1 x6_2 x6_3 x6_4 x6_5 x6_6 x6_7
      clear_value x6_0
      have hx6_1 : Rel ps_ z_ x6_1 := by
        unfold x6_1
        refine rel_noteFinite ?_ (Sub.trans (by decide) hp_)
        · assumption
      clear_value x6_1 x6_2 x6_3 x6_4
      have hx6_5 : Rel1 ps_ z_ x6_5 := by
        unfold x6_5
        refine rel_putSections ?_ (Sub.trans (by decide) hp_)
        · assumption
      clear_value x6_5
      have hx6_6 : Rel ps_ z_ x6_6 := by
        unfold x6_6
        refine rel_updWrite ?_ (Sub.trans (by decide) hp_)
        · refine (?_ : Rel1 ps_ z_ _)
          assumption
      clear_value x6_6
      have hx6_7 : Rel ps_ z_ x6_7 := by
        unfold x6_7
        refine rel_modUpdate ?_ (Sub.trans (by decide) hp_)
        · assumption
      clear_value x6_7
      refine iteP (P := Rel ps_ z_) ?_ ?_
      · refine (?_ : Rel1 ps_ z_ _)
        assumption
      · refine rel_modSlv ?_ (Sub.trans (by decide) hp_)
        · assumption

theorem rel_execUpdateStart {ps_ : List Part} {z_ : State} {berth : Nat} {s : State} (h1_ : Rel ps_ z_ s) (hp_ : Sub [.free, .tx, .regs, .counts, .shelf, .upd, .mem, .bytes, .quay, .rst] ps_) :
    Ends ps_ z_ (execUpdateStart berth s) := by
  unfold execUpdateStart
  refine ofNext ?_
  refine iteP (P := Rel ps_ z_) ?_ ?_
  · refine rel_tryStart ?_ (Sub.trans (by decide) hp_)
    · assumption
  · assumption

theorem rel_endUpdate {ps_ : List Part} {z_ : State} {s : State} {b : Nat} {n : Nat} {sh : Shard} {step : W64} (h0_ : Rel ps_ z_ s) (hp_ : Sub [.free, .tx, .regs, .counts, .shelf, .upd, .mem, .bytes, .quay, .rst] ps_) :
    Rel ps_ z_ (endUpdate s b n sh step) := by
  unfold endUpdate
  refine rel_dropUpdate ?_ (Sub.trans (by decide) hp_)
  · refine (?_ : Rel1 ps_ z_ _)
    refine rel_putHeader ?_ (Sub.trans (by decide) hp_)
    · assumption

theorem rel_doMom2 {ps_ : List Part} {z_ : State} {s : State} {b : Nat} {n : Nat} {sh : Shard} {step : W64} (h0_ : Rel ps_ z_ s) (hp_ : Sub [.free, .tx, .regs, .counts, .shelf, .upd, .mem, .bytes, .lsh, .quay, .rst] ps_) :
    Rel ps_ z_ (doMom2 s b n sh step) := by
  unfold doMom2
  extract_lets -merge -underBinder x2_0 x2_1
  clear_value x2_0 x2_1
  split
  · rename_i q2_0
    have hq2_0 := of_eq1 (ps := ps_) (z := z_) q2_0 (by
        refine rel_updRead ?_ (Sub.trans (by decide) hp_)
        · assumption
        )
    split
    · rename_i q4_0
      have hq4_0 := of_eq1 (ps := ps_) (z := z_) q4_0 (by
          refine rel_updRead ?_ (Sub.trans (by decide) hp_)
          · assumption
          )
      extract_lets -merge -underBinder x6_0 x6_1 x6_2 x6_3 x6_4 x6_5 x6_6
      clear_value x6_0 x6_1
      have hx6_2 : Rel ps_ z_ x6_2 := by
        unfold x6_2
        refine rel_noteFinite ?_ (Sub.trans (by decide) hp_)
        · assumption
      clear_value x6_2 x6_3 x6_4 x6_5
      have hx6_6 : Rel1 ps_ z_ x6_6 := by
        unfold x6_6
        refine rel_putSections ?_ (Sub.trans (by decide) hp_)
        · assumption
      clear_value x6_6
      refine iteP (P := Rel ps_ z_) ?_ ?_
      · refine (?_ : Rel1 ps_ z_ _)
        assumption
      · refine rel_endUpdate ?_ (Sub.trans (by decide) hp_)
        · refine (?_ : Rel1 ps_ z_ _)
          assumption

theorem rel_doMom {ps_ : List Part} {z_ : State} {s : State} {b : Nat} {n : Nat} {sh : Shard} {step : W64} (h0_ : Rel ps_ z_ s) (hp_ : Sub [.free, .tx, .regs, .counts, .shelf, .upd, .mem, .bytes, .lsh, .quay, .rst] ps_) :
    Rel ps_ z_ (doMom s b n sh step) := by
  unfold doMom
  extract_lets -merge -underBinder x2_0 x2_1
  clear_value x2_0 x2_1
  split
  · rename_i q2_0
    have hq2_0 := of_eq1 (ps := ps_) (z := z_) q2_0 (by
        refine rel_updRead ?_ (Sub.trans (by decide) hp_)
        · assumption
        )
    split
    · rename_i q4_0
      have hq4_0 := of_eq1 (ps := ps_) (z := z_) q4_0 (by
          refine rel_updRead ?_ (Sub.trans (by decide) hp_)
          · assumption
          )
      split
      · rename_i q6_0
        have hq6_0 := of_eq1 (ps := ps_) (z := z_) q6_0 (by
            refine rel_updRead ?_ (Sub.trans (by decide) hp_)
            · assumption
            )
        extract_lets -merge -underBinder x8_0 x8_1 x8_2 x8_3 x8_4 x8_5 x8_6 x8_7 x8_8
        clear_value x8_0 x8_1 x8_2
        have hx8_3 : Rel ps_ z_ x8_3 := by
          unfold x8_3
          refine rel_noteFinite ?_ (Sub.trans (by decide) hp_)
          · assumption
        clear_value x8_3 x8_4 x8_5 x8_6 x8_7
        have hx8_8 : Rel1 ps_ z_ x8_8 := by
          unfold x8_8
          refine rel_putSections ?_ (Sub.trans (by decide) hp_)
          · assumption
        clear_value x8_8
        refine iteP (P := Rel ps_ z_) ?_ ?_
        · refine (?_ : Rel1 ps_ z_ _)
          assumption
        · refine rel_endUpdate ?_ (Sub.trans (by decide) hp_)
          · refine (?_ : Rel1 ps_ z_ _)
            assumption

theorem rel_readV {ps_ : List Part} {z_ : State} {s : State} {b : Nat} {sh : Shard} (h0_ : Rel ps_ z_ s) (hp_ : Sub [.free, .tx, .regs, .counts, .mem, .lsh, .quay, .rst] ps_) :
    Rel1 ps_ z_ (readV s b sh) := by
  unfold readV
  extract_lets -merge -underBinder x2_0 x2_1
  clear_value x2_0 x2_1
  split
  · extract_lets -merge -underBinder x4_0
    clear_value x4_0
    refine ofPair ?_
    refine rel_faultIf ?_ (Sub.trans (by decide) hp_)
    · assumption
  · extract_lets -merge -underBinder x4_0
    have hx4_0 : Rel1 ps_ z_ x4_0 := by
      unfold x4_0
      refine rel_updRead ?_ (Sub.trans (by decide) hp_)
      · assumption
    clear_value x4_0
    refine ofPair ?_
    refine (?_ : Rel1 ps_ z_ _)
    assumption
  · refine ofPair ?_
    assumption

theorem rel_doProg {ps_ : List Part} {z_ : State} {s : State} {b : Nat} {n : Nat} {sh : Shard} {step : W64} (h0_ : Rel ps_ z_ s) (hp_ : Sub [.free, .tx, .regs, .counts, .shelf, .upd, .mem, .bytes, .lsh, .quay, .rst] ps_) :
    Rel ps_ z_ (doProg s b n sh step) := by
  unfold doProg
  extract_lets -merge -underBinder x2_0 x2_1
  clear_value x2_0 x2_1
  split
  · assumption
  · extract_lets -merge -underBinder x4_0
    clear_value x4_0
    split
    · rename_i q4_0
      have hq4_0 := of_eq1 (ps := ps_) (z := z_) q4_0 (by
          refine iteP (P := Rel1 ps_ z_) ?_ ?_
          · refine rel_updRead ?_ (Sub.trans (by decide) hp_)
            · assumption
          · refine ofPair ?_
            assumption
          )
      split
      · rename_i q6_0
        have hq6_0 := of_eq1 (ps := ps_) (z := z_) q6_0 (by
            refine rel_updRead ?_ (Sub.trans (by decide) hp_)
            · assumption
            )
        split
        · rename_i q8_0
          have hq8_0 := of_eq1 (ps := ps_) (z := z_) q8_0 (by
              refine rel_updRead ?_ (Sub.trans (by decide) hp_)
              · assumption
              )
          split
          · rename_i q10_0
            have hq10_0 := of_eq1 (ps := ps_) (z := z_) q10_0 (by
                refine rel_readV ?_ (Sub.trans (by decide) hp_)
                · assumption
                )
            extract_lets -merge -underBinder x12_0 x12_1 x12_2 x12_3 x12_4 x12_5 x12_6 x12_7 x12_8 x12_9
            clear_value x12_0 x12_1 x12_2 x12_3 x12_4 x12_5 x12_6 x12_7 x12_8
            have hx12_9 : Rel1 ps_ z_ x12_9 := by
              unfold x12_9
              refine rel_putSections ?_ (Sub.trans (by decide) hp_)
              · assumption
            clear_value x12_9
            refine iteP (P := Rel ps_ z_) ?_ ?_
            · refine (?_ : Rel1 ps_ z_ _)
              assumption
            · refine rel_endUpdate ?_ (Sub.trans (by decide) hp_)
              · refine (?_ : Rel1 ps_ z_ _)
                assumption

theorem rel_doUpdPass {ps_ : List Part} {z_ : State} {s : State} {b : Nat} {e : EngPass} {fdesc : List Byte} {factor : List Mat} (h0_ : Rel ps_ z_ s) (hp_ : Sub [.free, .tx, .regs, .counts, .shelf, .slv, .upd, .mem, .bytes, .lsh, .quay, .rst] ps_) :
    Rel ps_ z_ (doUpdPass s b e fdesc factor) := by
  unfold doUpdPass
  split
  · assumption
  · split
    · refine rel_doPre ?_ (Sub.trans (by decide) hp_)
      · assumption
    · refine rel_doPre ?_ (Sub.trans (by decide) hp_)
      · assumption
    · refine rel_doMom ?_ (Sub.trans (by decide) hp_)
      · assumption
    · refine rel_doMom1 ?_ (Sub.trans (by decide) hp_)
      · assumption
    · refine rel_doMom2 ?_ (Sub.trans (by decide) hp_)
      · assumption
    · refine rel_doNorm ?_ (Sub.trans (by decide) hp_)
      · assumption
    · refine rel_doProg ?_ (Sub.trans (by decide) hp_)
      · assumption

theorem rel_slvRun {ps_ : List Part} {z_ : State} {y0 : Nat} {y1 : State} {y2 : Nat} (h1_ : Rel ps_ z_ y1) (hp_ : Sub [.free, .tx, .regs, .counts, .shelf, .snd, .slv, .upd, .mem, .bytes, .lsh, .quay, .rst] ps_) :
    Rel ps_ z_ (slvRun y0 y1 y2) := by
  induction y0 generalizing y1 with
  | zero => exact h1_
  | succ k ih =>
    unfold slvRun
    have h := rel_slvMove (ps_ := ps_) (z_ := z_) (s := y1) (b := y2) h1_ (Sub.trans (by decide) hp_)
    exact iteP (P := Rel ps_ z_) (ih h) h

theorem rel_reductionInto {ps_ : List Part} {z_ : State} {s : State} {h : Hdl} (h0_ : Rel ps_ z_ s) (hp_ : Sub [.upd] ps_) :
    Rel ps_ z_ (reductionInto s h) := by
  unfold reductionInto
  extract_lets -merge -underBinder x2_0
  have hx2_0 : Rel ps_ z_ x2_0 := by
    unfold x2_0
    refine rel_modUpd ?_ (Sub.trans (by decide) hp_)
    · assumption
  clear_value x2_0
  assumption

theorem rel_execPagerMoveComplete {ps_ : List Part} {z_ : State} {berth : Nat} {object : Nat} {page : Nat} {s : State} (h3_ : Rel ps_ z_ s) (hp_ : Sub [.free, .tx, .regs, .counts, .upd, .mem, .bytes, .quay, .rst] ps_) :
    Ends ps_ z_ (execPagerMoveComplete berth object page s) := by
  unfold execPagerMoveComplete
  refine ofNext ?_
  split
  · refine rel_serveDue ?_ (Sub.trans (by decide) hp_)
    · refine rel_tryAllocs ?_ (Sub.trans (by decide) hp_)
      · refine rel_completeMove ?_ (Sub.trans (by decide) hp_)
        · assumption
  · assumption

theorem rel_slvKick {ps_ : List Part} {z_ : State} {s : State} {b : Nat} (h0_ : Rel ps_ z_ s) (hp_ : Sub [.free, .tx, .regs, .counts, .shelf, .snd, .slv, .upd, .mem, .bytes, .lsh, .quay, .rst] ps_) :
    Rel ps_ z_ (slvKick s b) := by
  unfold slvKick
  refine iteP (P := Rel ps_ z_) ?_ ?_
  · assumption
  · refine rel_slvRun ?_ (Sub.trans (by decide) hp_)
    · assumption

theorem rel_execShardFetch {ps_ : List Part} {z_ : State} {shard : Nat} {step : W64} {requester : Nat} {s : State} (h3_ : Rel ps_ z_ s) (hp_ : Sub [.free, .tx, .regs, .counts, .upd, .mem, .quay, .rst] ps_) :
    Ends ps_ z_ (execShardFetch shard step requester s) := by
  unfold execShardFetch
  refine ofNext ?_
  split
  · assumption
  · extract_lets -merge -underBinder x4_0 x4_1
    have hx4_0 : ∀ a0, Rel ps_ z_ a0 → Rel ps_ z_ (x4_0 a0) := by
      intro a0_ h0_
      unfold x4_0
      refine rel_modUpd ?_ (Sub.trans (by decide) hp_)
      · assumption
    clear_value x4_0
    have hx4_1 : Rel1 ps_ z_ x4_1 := by
      unfold x4_1
      refine rel_fetchReady ?_ (Sub.trans (by decide) hp_)
      · assumption
    clear_value x4_1
    refine iteP (P := Rel ps_ z_) ?_ ?_
    · refine hx4_0 _ ?_
      refine rel_wrOr ?_ (Sub.trans (by decide) hp_)
      · assumption
    · refine iteP (P := Rel ps_ z_) ?_ ?_
      · refine rel_serveFetch ?_ (Sub.trans (by decide) hp_)
        · refine (?_ : Rel1 ps_ z_ _)
          assumption
      · refine hx4_0 _ ?_
        refine (?_ : Rel1 ps_ z_ _)
        assumption

/-! ### Close -/

theorem rel_clearShelf {ps_ : List Part} {z_ : State} {s : State} {b : Nat} (h0_ : Rel ps_ z_ s) (hp_ : Sub [.shelf, .mem] ps_) :
    Rel ps_ z_ (clearShelf s b) := by
  unfold clearShelf
  extract_lets -merge -underBinder x2_0 x2_1
  have hx2_0 : Rel ps_ z_ x2_0 := by
    unfold x2_0
    refine rel_clearWindow ?_ (Sub.trans (by decide) hp_)
    · assumption
  clear_value x2_0 x2_1
  refine rel_shelf ?_ (hp_ _ (by decide))
  assumption

theorem rel_clearShingle {ps_ : List Part} {z_ : State} {s : State} {b : Nat} (h0_ : Rel ps_ z_ s) (hp_ : Sub [.shg] ps_) :
    Rel ps_ z_ (clearShingle s b) := by
  unfold clearShingle
  extract_lets -merge -underBinder x2_0 x2_1
  clear_value x2_0 x2_1
  refine rel_shg ?_ (hp_ _ (by decide))
  assumption

theorem rel_freeStreamObjects {ps_ : List Part} {z_ : State} {s : State} {x : Session} (h0_ : Rel ps_ z_ s) (hp_ : Sub [.mem, .bytes] ps_) :
    Rel ps_ z_ (freeStreamObjects s x) := by
  unfold freeStreamObjects
  refine foldSP ?_ ?_ _
  · assumption
  · intro a4_0 a4_1 h4_0
    refine foldSP ?_ ?_ _
    · assumption
    · intro a6_0 a6_1 h6_0
      refine rel_releaseObject ?_ (Sub.trans (by decide) hp_)
      · assumption

theorem rel_clearNumbers {ps_ : List Part} {z_ : State} {s : State} {b : Nat} (h0_ : Rel ps_ z_ s) (hp_ : Sub [.num] ps_) :
    Rel ps_ z_ (clearNumbers s b) := by
  unfold clearNumbers
  refine rel_modNum ?_ (Sub.trans (by decide) hp_)
  · assumption

theorem rel_freeObjects {ps_ : List Part} {z_ : State} {s : State} {b : Nat} (h0_ : Rel ps_ z_ s) (hp_ : Sub [.mem, .bytes] ps_) :
    Rel ps_ z_ (freeObjects s b) := by
  unfold freeObjects
  extract_lets -merge -underBinder x2_0
  have hx2_0 : Rel ps_ z_ x2_0 := by
    unfold x2_0
    refine foldSP ?_ ?_ _
    · assumption
    · intro a6_0 a6_1 h6_0
      refine rel_releaseObject ?_ (Sub.trans (by decide) hp_)
      · assumption
  clear_value x2_0
  refine rel_modMem ?_ (hp_ _ (by decide)) rfl
  assumption

theorem rel_dropPeerKeys {ps_ : List Part} {z_ : State} {s : State} {p : OfsPeer} (h0_ : Rel ps_ z_ s) (hp_ : Sub [.swl] ps_) :
    Rel ps_ z_ (dropPeerKeys s p) := by
  unfold dropPeerKeys
  extract_lets -merge -underBinder x2_0
  have hx2_0 : ∀ a0, Rel ps_ z_ a0 → ∀ a1, Rel ps_ z_ (x2_0 a0 a1) := by
    intro a0_ h0_ a1_
    unfold x2_0
    split
    · refine rel_clearKeySlot ?_ (Sub.trans (by decide) hp_)
      · assumption
    · assumption
  clear_value x2_0
  refine hx2_0 _ ?_ _
  refine hx2_0 _ ?_ _
  assumption

theorem rel_leaveSession {ps_ : List Part} {z_ : State} {s : State} {b : Nat} (h0_ : Rel ps_ z_ s) (hp_ : Sub [.mem, .bytes, .shg, .swl, .ofs] ps_) :
    Rel ps_ z_ (leaveSession s b) := by
  unfold leaveSession
  split
  · assumption
  · extract_lets -merge -underBinder x4_0 x4_1 x4_2 x4_3 x4_4 x4_5 x4_6
    have hx4_0 : Rel ps_ z_ x4_0 := by
      unfold x4_0
      refine foldSP ?_ ?_ _
      · assumption
      · intro a8_0 a8_1 h8_0
        refine rel_dropPeerKeys ?_ (Sub.trans (by decide) hp_)
        · assumption
    clear_value x4_0
    have hx4_1 : Rel ps_ z_ x4_1 := by
      unfold x4_1
      refine rel_freeStreamObjects ?_ (Sub.trans (by decide) hp_)
      · assumption
    clear_value x4_1 x4_2 x4_3 x4_4
    have hx4_5 : Rel ps_ z_ x4_5 := by
      unfold x4_5
      refine rel_shg ?_ (hp_ _ (by decide))
      assumption
    clear_value x4_5 x4_6
    refine rel_ofs ?_ (hp_ _ (by decide))
    assumption

theorem rel_clearLongshore {ps_ : List Part} {z_ : State} {s : State} {b : Nat} (h0_ : Rel ps_ z_ s) (hp_ : Sub [.lsh] ps_) :
    Rel ps_ z_ (clearLongshore s b) := by
  unfold clearLongshore
  extract_lets -merge -underBinder x2_0
  clear_value x2_0
  refine rel_lsh ?_ (hp_ _ (by decide))
  assumption

theorem rel_clearEngines {ps_ : List Part} {z_ : State} {s : State} {b : Nat} (h0_ : Rel ps_ z_ s) (hp_ : Sub [.snd, .slv, .upd, .mem] ps_) :
    Rel ps_ z_ (clearEngines s b) := by
  unfold clearEngines
  extract_lets -merge -underBinder x2_0 x2_1 x2_2 x2_3 x2_4
  have hx2_0 : Rel ps_ z_ x2_0 := by
    unfold x2_0
    refine rel_modStages ?_ (Sub.trans (by decide) hp_)
    · assumption
  clear_value x2_0 x2_1 x2_2
  have hx2_3 : Rel ps_ z_ x2_3 := by
    unfold x2_3
    refine rel_modSnd ?_ (Sub.trans (by decide) hp_)
    · assumption
  clear_value x2_3
  have hx2_4 : Rel ps_ z_ x2_4 := by
    unfold x2_4
    refine rel_modSlv ?_ (Sub.trans (by decide) hp_)
    · assumption
  clear_value x2_4
  refine rel_modUpd ?_ (Sub.trans (by decide) hp_)
  · assumption

theorem rel_clearJob {ps_ : List Part} {z_ : State} {s : State} {b : Nat} (h0_ : Rel ps_ z_ s) (hp_ : Sub [.shelf, .num, .snd, .slv, .upd, .mem, .bytes, .lsh, .shg, .swl, .ofs, .quay] ps_) :
    Rel ps_ z_ (clearJob s b) := by
  unfold clearJob
  extract_lets -merge -underBinder x2_0 x2_1
  have hx2_0 : Rel ps_ z_ x2_0 := by
    unfold x2_0
    refine rel_leaveSession ?_ (Sub.trans (by decide) hp_)
    · assumption
  clear_value x2_0
  have hx2_1 : Rel ps_ z_ x2_1 := by
    unfold x2_1
    refine rel_clearShingle ?_ (Sub.trans (by decide) hp_)
    · refine rel_freeObjects ?_ (Sub.trans (by decide) hp_)
      · assumption
  clear_value x2_1
  refine rel_modBerth ?_ (Sub.trans (by decide) hp_)
  · refine rel_clearNumbers ?_ (Sub.trans (by decide) hp_)
    · refine rel_clearLongshore ?_ (Sub.trans (by decide) hp_)
      · refine rel_clearEngines ?_ (Sub.trans (by decide) hp_)
        · refine rel_clearShelf ?_ (Sub.trans (by decide) hp_)
          · assumption

end Sys2Proof.Laws
end

