-- ==== Sys2Proof/Laws/RelLinks.lean ====
section
/-!
SUPPORT. One lemma for each operation on the Shelf, Cliff, Longshore and the step boundary: it keeps `Rel`, and the parts
listed are all that it can change.
-/
namespace Sys2Proof.Laws
open Sys2Proof Sys2Proof.Machine Sys2Proof.Safety

/-! ### Route -/

theorem rel_unreachable {ps_ : List Part} {z_ : State} {s : State} (h0_ : Rel ps_ z_ s) (hp_ : Sub [.regs, .counts] ps_) :
    Rel ps_ z_ (unreachable s) := by
  unfold unreachable
  refine rel_count ?_ (Sub.trans (by decide) hp_)
  · refine rel_wrOr ?_ (Sub.trans (by decide) hp_)
    · assumption

theorem rel_modClf {ps_ : List Part} {z_ : State} {s : State} {f : Cliff → Cliff} (h0_ : Rel ps_ z_ s) (hp_ : Sub [.clf] ps_) :
    Rel ps_ z_ (modClf s f) := by
  unfold modClf
  refine rel_clf ?_ (hp_ _ (by decide))
  assumption

theorem rel_pickPort {ps_ : List Part} {z_ : State} {s : State} {d : Nat} {plus : Bool} {vc : Nat} {src : Nat} {dst : Nat} (h0_ : Rel ps_ z_ s) (hp_ : Sub [.clf] ps_) :
    Rel1 ps_ z_ (pickPort s d plus vc src dst) := by
  unfold pickPort
  split
  · extract_lets -merge -underBinder x4_0 x4_1
    clear_value x4_0 x4_1
    refine iteP (P := Rel1 ps_ z_) ?_ ?_
    · refine ofPair ?_
      refine rel_modClf ?_ (Sub.trans (by decide) hp_)
      · assumption
    · refine ofPair ?_
      assumption
  · refine ofPair ?_
    assumption
  · refine ofPair ?_
    assumption

theorem rel_modPort {ps_ : List Part} {z_ : State} {s : State} {n : Nat} {f : Port → Port} (h0_ : Rel ps_ z_ s) (hp_ : Sub [.clf] ps_) :
    Rel ps_ z_ (modPort s n f) := by
  unfold modPort
  refine rel_modClf ?_ (Sub.trans (by decide) hp_)
  · assumption

theorem rel_emitFlit {ps_ : List Part} {z_ : State} {s : State} {n : Nat} {cr : Nat} {f : Flit} (h0_ : Rel ps_ z_ s) (hp_ : Sub [.tx, .counts] ps_) :
    Rel ps_ z_ (emitFlit s n cr f) := by
  unfold emitFlit
  extract_lets -merge -underBinder x2_0 x2_1
  clear_value x2_0 x2_1
  refine rel_count ?_ (Sub.trans (by decide) hp_)
  · refine rel_emit ?_ (Sub.trans (by decide) hp_)
    · assumption

theorem rel_idleOn {ps_ : List Part} {z_ : State} {s : State} {n : Nat} {cr : Nat} (h0_ : Rel ps_ z_ s) (hp_ : Sub [.tx, .counts] ps_) :
    Rel ps_ z_ (idleOn s n cr) := by
  unfold idleOn
  refine rel_emitFlit ?_ (Sub.trans (by decide) hp_)
  · assumption

theorem rel_freeBuffer {ps_ : List Part} {z_ : State} {s : State} {n : Nat} {buf : Nat} (h0_ : Rel ps_ z_ s) (hp_ : Sub [.tx, .counts, .clf] ps_) :
    Rel ps_ z_ (freeBuffer s n buf) := by
  unfold freeBuffer
  extract_lets -merge -underBinder x2_0
  have hx2_0 : Rel ps_ z_ x2_0 := by
    unfold x2_0
    refine rel_modPort ?_ (Sub.trans (by decide) hp_)
    · assumption
  clear_value x2_0
  refine iteP (P := Rel ps_ z_) ?_ ?_
  · refine rel_idleOn ?_ (Sub.trans (by decide) hp_)
    · assumption
  · assumption

theorem rel_sendFlit {ps_ : List Part} {z_ : State} {s : State} {n : Nat} {x : OutFlit} (h0_ : Rel ps_ z_ s) (hp_ : Sub [.tx, .counts, .clf] ps_) :
    Rel ps_ z_ (sendFlit s n x) := by
  unfold sendFlit
  extract_lets -merge -underBinder x2_0 x2_1 x2_2 x2_3 x2_4 x2_5
  clear_value x2_0 x2_1 x2_2 x2_3
  have hx2_4 : Rel ps_ z_ x2_4 := by
    unfold x2_4
    refine rel_modPort ?_ (Sub.trans (by decide) hp_)
    · assumption
  clear_value x2_4
  have hx2_5 : Rel ps_ z_ x2_5 := by
    unfold x2_5
    refine rel_emitFlit ?_ (Sub.trans (by decide) hp_)
    · assumption
  clear_value x2_5
  split
  · refine rel_freeBuffer ?_ (Sub.trans (by decide) hp_)
    · assumption
  · assumption

theorem rel_pumpPort {ps_ : List Part} {z_ : State} {y0 : Nat} {y1 : State} {y2 : Nat} (h1_ : Rel ps_ z_ y1) (hp_ : Sub [.tx, .counts, .clf] ps_) :
    Rel ps_ z_ (pumpPort y0 y1 y2) := by
  induction y0 generalizing y1 with
  | zero => exact h1_
  | succ k ih =>
    unfold pumpPort
    extract_lets -merge -underBinder x0
    clear_value x0
    refine iteP (P := Rel ps_ z_) h1_ ?_
    split
    · exact ih (rel_sendFlit h1_ (Sub.trans (by decide) hp_))
    · exact h1_

theorem rel_pump {ps_ : List Part} {z_ : State} {s : State} {n : Nat} (h0_ : Rel ps_ z_ s) (hp_ : Sub [.tx, .counts, .clf] ps_) :
    Rel ps_ z_ (pump s n) := by
  unfold pump
  refine rel_pumpPort ?_ (Sub.trans (by decide) hp_)
  · assumption

theorem rel_enqueueOut {ps_ : List Part} {z_ : State} {s : State} {n : Nat} {l : List OutFlit} (h0_ : Rel ps_ z_ s) (hp_ : Sub [.tx, .counts, .clf] ps_) :
    Rel ps_ z_ (enqueueOut s n l) := by
  unfold enqueueOut
  refine rel_pump ?_ (Sub.trans (by decide) hp_)
  · refine rel_modPort ?_ (Sub.trans (by decide) hp_)
    · assumption

theorem rel_enqueueFlits {ps_ : List Part} {z_ : State} {s : State} {n : Nat} {l : List Flit} (h0_ : Rel ps_ z_ s) (hp_ : Sub [.tx, .counts, .clf] ps_) :
    Rel ps_ z_ (enqueueFlits s n l) := by
  unfold enqueueFlits
  refine rel_enqueueOut ?_ (Sub.trans (by decide) hp_)
  · assumption

theorem rel_fabricSend {ps_ : List Part} {z_ : State} {s : State} {vc : Nat} {dst : Nat} {bytes : List Byte} (h0_ : Rel ps_ z_ s) (hp_ : Sub [.tx, .regs, .counts, .clf] ps_) :
    Rel ps_ z_ (fabricSend s vc dst bytes) := by
  unfold fabricSend
  split
  · assumption
  · refine rel_unreachable ?_ (Sub.trans (by decide) hp_)
    · assumption
  · extract_lets -merge -underBinder x4_0
    have hx4_0 : Rel1 ps_ z_ x4_0 := by
      unfold x4_0
      refine rel_pickPort ?_ (Sub.trans (by decide) hp_)
      · assumption
    clear_value x4_0
    refine rel_enqueueFlits ?_ (Sub.trans (by decide) hp_)
    · refine (?_ : Rel1 ps_ z_ _)
      assumption

theorem rel_lshEmit {ps_ : List Part} {z_ : State} {s : State} {dst : Nat} {p : LshPkt} (h0_ : Rel ps_ z_ s) (hp_ : Sub [.tx, .regs, .counts, .clf] ps_) :
    Rel ps_ z_ (lshEmit s dst p) := by
  unfold lshEmit
  extract_lets -merge -underBinder x2_0
  have hx2_0 : Rel ps_ z_ x2_0 := by
    unfold x2_0
    refine iteP (P := Rel ps_ z_) ?_ ?_
    · refine rel_count ?_ (Sub.trans (by decide) hp_)
      · assumption
    · refine iteP (P := Rel ps_ z_) ?_ ?_
      · refine rel_count ?_ (Sub.trans (by decide) hp_)
        · assumption
      · assumption
  clear_value x2_0
  refine rel_fabricSend ?_ (Sub.trans (by decide) hp_)
  · refine rel_emit ?_ (Sub.trans (by decide) hp_)
    · assumption

theorem rel_lshFlush {ps_ : List Part} {z_ : State} {s : State} (h0_ : Rel ps_ z_ s) (hp_ : Sub [.tx, .regs, .counts, .clf, .lsh] ps_) :
    Rel ps_ z_ (lshFlush s) := by
  unfold lshFlush
  extract_lets -merge -underBinder x2_0 x2_1 x2_2
  clear_value x2_0 x2_1 x2_2
  refine foldSP ?_ ?_ _
  · refine rel_lsh ?_ (hp_ _ (by decide))
    assumption
  · intro a4_0 a4_1 h4_0
    extract_lets -merge -underBinder x4_0
    clear_value x4_0
    refine rel_lshEmit ?_ (Sub.trans (by decide) hp_)
    · assumption

theorem rel_lshSend {ps_ : List Part} {z_ : State} {s : State} {dst : Nat} {p : LshPkt} (h0_ : Rel ps_ z_ s) (hp_ : Sub [.tx, .regs, .counts, .clf, .lsh] ps_) :
    Rel ps_ z_ (lshSend s dst p) := by
  unfold lshSend
  extract_lets -merge -underBinder x2_0
  clear_value x2_0
  refine iteP (P := Rel ps_ z_) ?_ ?_
  · refine rel_lshEmit ?_ (Sub.trans (by decide) hp_)
    · assumption
  · refine rel_lsh ?_ (hp_ _ (by decide))
    assumption

/-! ### Shelf -/

theorem rel_modShelf {ps_ : List Part} {z_ : State} {s : State} {f : Shelf → Shelf} (h0_ : Rel ps_ z_ s) (hp_ : Sub [.shelf] ps_) :
    Rel ps_ z_ (modShelf s f) := by
  unfold modShelf
  refine rel_shelf ?_ (hp_ _ (by decide))
  assumption

theorem rel_charge {ps_ : List Part} {z_ : State} {s : State} {b : Nat} {n : Nat} (h0_ : Rel ps_ z_ s) (hp_ : Sub [.shelf] ps_) :
    Rel ps_ z_ (charge s b n) := by
  unfold charge
  refine rel_modShelf ?_ (Sub.trans (by decide) hp_)
  · assumption

theorem rel_addCause {ps_ : List Part} {z_ : State} {s : State} {k : Nat} {n : Nat} (h0_ : Rel ps_ z_ s) (hp_ : Sub [.shelf] ps_) :
    Rel ps_ z_ (addCause s k n) := by
  unfold addCause
  refine iteP (P := Rel ps_ z_) ?_ ?_
  · assumption
  · refine rel_modShelf ?_ (Sub.trans (by decide) hp_)
    · assumption

theorem rel_doneCount {ps_ : List Part} {z_ : State} {s : State} {b : Nat} (h0_ : Rel ps_ z_ s) (hp_ : Sub [.shelf] ps_) :
    Rel ps_ z_ (doneCount s b) := by
  unfold doneCount
  refine rel_modShelf ?_ (Sub.trans (by decide) hp_)
  · assumption

theorem rel_restDeficits {ps_ : List Part} {z_ : State} {s : State} (h0_ : Rel ps_ z_ s) (hp_ : Sub [.shelf] ps_) :
    Rel ps_ z_ (restDeficits s) := by
  unfold restDeficits
  refine iteP (P := Rel ps_ z_) ?_ ?_
  · refine foldSP ?_ ?_ _
    · assumption
    · intro a6_0 a6_1 h6_0
      refine iteP (P := Rel ps_ z_) ?_ ?_
      · refine rel_modShelf ?_ (Sub.trans (by decide) hp_)
        · assumption
      · assumption
  · assumption

theorem rel_queueCov {ps_ : List Part} {z_ : State} {s : State} {b : Nat} {id : Nat} (h0_ : Rel ps_ z_ s) (hp_ : Sub [.counts, .shelf, .snd, .mem] ps_) :
    Rel ps_ z_ (queueCov s b id) := by
  unfold queueCov
  split
  · assumption
  · split
    · refine rel_modStages ?_ (Sub.trans (by decide) hp_)
      · assumption
    · extract_lets -merge -underBinder x6_0 x6_1 x6_2
      clear_value x6_0
      have hx6_1 : Rel ps_ z_ x6_1 := by
        unfold x6_1
        refine rel_count ?_ (Sub.trans (by decide) hp_)
        · assumption
      clear_value x6_1
      have hx6_2 : Rel ps_ z_ x6_2 := by
        unfold x6_2
        refine rel_modFs ?_ (Sub.trans (by decide) hp_)
        · assumption
      clear_value x6_2
      refine foldSP ?_ ?_ _
      · assumption
      · intro a8_0 a8_1 h8_0
        refine rel_pushPass ?_ (Sub.trans (by decide) hp_)
        · assumption

theorem rel_postTrigger {ps_ : List Part} {z_ : State} {s : State} {b : Nat} {o : Op} (h0_ : Rel ps_ z_ s) (hp_ : Sub [.shelf] ps_) :
    Rel ps_ z_ (postTrigger s b o) := by
  unfold postTrigger
  refine iteP (P := Rel ps_ z_) ?_ ?_
  · refine rel_modShelf ?_ (Sub.trans (by decide) hp_)
    · assumption
  · assumption

theorem rel_finishOp {ps_ : List Part} {z_ : State} {s : State} {r : RunOp} {failed : Bool} (h0_ : Rel ps_ z_ s) (hp_ : Sub [.tx, .regs, .counts, .shelf, .snd, .mem, .quay] ps_) :
    Rel ps_ z_ (finishOp s r failed) := by
  unfold finishOp
  extract_lets -merge -underBinder x2_0 x2_1 x2_2 x2_3 x2_4
  clear_value x2_0 x2_1
  have hx2_2 : Rel ps_ z_ x2_2 := by
    unfold x2_2
    split
    · refine rel_queueCov ?_ (Sub.trans (by decide) hp_)
      · assumption
    · assumption
  clear_value x2_2
  have hx2_3 : Rel ps_ z_ x2_3 := by
    unfold x2_3
    refine iteP (P := Rel ps_ z_) ?_ ?_
    · refine rel_bumpSlot ?_ (Sub.trans (by decide) hp_)
      · assumption
    · assumption
  clear_value x2_3
  have hx2_4 : Rel ps_ z_ x2_4 := by
    unfold x2_4
    refine rel_postTrigger ?_ (Sub.trans (by decide) hp_)
    · refine rel_doneCount ?_ (Sub.trans (by decide) hp_)
      · assumption
  clear_value x2_4
  refine iteP (P := Rel ps_ z_) ?_ ?_
  · refine rel_event ?_ (Sub.trans (by decide) hp_)
    · assumption
  · assumption

theorem rel_execTriggerHoldRelease {ps_ : List Part} {z_ : State} {cycles : Nat} {s : State} (h1_ : Rel ps_ z_ s) (hp_ : Sub [.tx, .regs, .counts, .shelf, .num, .snd, .slv, .upd, .mem, .bytes, .lsh, .shg, .swl, .ofs, .quay] ps_) :
    Ends ps_ z_ (execTriggerHoldRelease cycles s) := by
  unfold execTriggerHoldRelease
  refine ofNext ?_
  split
  · assumption
  · extract_lets -merge -underBinder x4_0 x4_1
    have hx4_0 : Rel ps_ z_ x4_0 := by
      unfold x4_0
      refine rel_charge ?_ (Sub.trans (by decide) hp_)
      · refine rel_addCause ?_ (Sub.trans (by decide) hp_)
        · assumption
    clear_value x4_0
    have hx4_1 : Rel ps_ z_ x4_1 := by
      unfold x4_1
      refine rel_modShelf ?_ (Sub.trans (by decide) hp_)
      · assumption
    clear_value x4_1
    refine iteP (P := Rel ps_ z_) ?_ ?_
    · assumption
    · refine iteP (P := Rel ps_ z_) ?_ ?_
      · refine rel_clearJob ?_ (Sub.trans (by decide) hp_)
        · refine rel_doneCount ?_ (Sub.trans (by decide) hp_)
          · assumption
      · refine rel_restDeficits ?_ (Sub.trans (by decide) hp_)
        · refine rel_finishOp ?_ (Sub.trans (by decide) hp_)
          · assumption

theorem rel_opFaults {ps_ : List Part} {z_ : State} {s : State} {b : Nat} {o : Op} {bad : List Nat} {tier : Nat} (h0_ : Rel ps_ z_ s) (hp_ : Sub [.free, .tx, .regs, .counts, .mem, .lsh, .quay, .rst] ps_) :
    Rel ps_ z_ (opFaults s b o bad tier) := by
  unfold opFaults
  extract_lets -merge -underBinder x2_0
  have hx2_0 : Rel ps_ z_ x2_0 := by
    unfold x2_0
    refine foldSP ?_ ?_ _
    · assumption
    · intro a6_0 a6_1 h6_0
      refine rel_noteUe ?_ (Sub.trans (by decide) hp_)
      · assumption
  clear_value x2_0
  refine rel_opFault ?_ (Sub.trans (by decide) hp_)
  · refine rel_setFlag ?_ (Sub.trans (by decide) hp_)
    · assumption

theorem rel_retireOp {ps_ : List Part} {z_ : State} {s : State} {r : RunOp} (h0_ : Rel ps_ z_ s) (hp_ : Sub [.free, .tx, .regs, .counts, .num, .mem, .bytes, .lsh, .shg, .quay, .rst] ps_) :
    Rel1 ps_ z_ (retireOp s r) := by
  unfold retireOp
  extract_lets -merge -underBinder x2_0 x2_1 x2_2 x2_3 x2_4 x2_5 x2_6 x2_7
  clear_value x2_0 x2_1 x2_2 x2_3
  have hx2_4 : Rel ps_ z_ x2_4 := by
    unfold x2_4
    refine rel_noteCoded ?_ (Sub.trans (by decide) hp_)
    · refine rel_noteCoded ?_ (Sub.trans (by decide) hp_)
      · assumption
  clear_value x2_4
  have hx2_5 : Rel1 ps_ z_ x2_5 := by
    unfold x2_5
    refine rel_writeRuns ?_ (Sub.trans (by decide) hp_)
    · assumption
  clear_value x2_5
  have hx2_6 : Rel ps_ z_ x2_6 := by
    unfold x2_6
    refine iteP (P := Rel ps_ z_) ?_ ?_
    · refine rel_census ?_ (Sub.trans (by decide) hp_)
      · refine (?_ : Rel1 ps_ z_ _)
        assumption
    · refine (?_ : Rel1 ps_ z_ _)
      assumption
  clear_value x2_6
  have hx2_7 : Rel ps_ z_ x2_7 := by
    unfold x2_7
    refine iteP (P := Rel ps_ z_) ?_ ?_
    · assumption
    · refine rel_modObj ?_ (Sub.trans (by decide) hp_)
      · assumption
  clear_value x2_7
  refine iteP (P := Rel1 ps_ z_) ?_ ?_
  · refine ofPair ?_
    refine rel_opFaults ?_ (Sub.trans (by decide) hp_)
    · assumption
  · refine iteP (P := Rel1 ps_ z_) ?_ ?_
    · refine ofPair ?_
      refine rel_opFaults ?_ (Sub.trans (by decide) hp_)
      · assumption
    · refine ofPair ?_
      assumption

theorem rel_addActive {ps_ : List Part} {z_ : State} {s : State} {b : Nat} {k : Nat} {n : Nat} (h0_ : Rel ps_ z_ s) (hp_ : Sub [.shelf] ps_) :
    Rel ps_ z_ (addActive s b k n) := by
  unfold addActive
  refine rel_addCause ?_ (Sub.trans (by decide) hp_)
  · refine rel_addCause ?_ (Sub.trans (by decide) hp_)
    · assumption

theorem rel_addCauses {ps_ : List Part} {z_ : State} {s : State} {l : CauseCycles} (h0_ : Rel ps_ z_ s) (hp_ : Sub [.shelf] ps_) :
    Rel ps_ z_ (addCauses s l) := by
  unfold addCauses
  refine foldSP ?_ ?_ _
  · assumption
  · intro a4_0 a4_1 h4_0
    refine rel_addCause ?_ (Sub.trans (by decide) hp_)
    · assumption

theorem rel_leaveArray {ps_ : List Part} {z_ : State} {s : State} {r : RunOp} {stalls : CauseCycles} (h0_ : Rel ps_ z_ s) (hp_ : Sub [.shelf] ps_) :
    Rel ps_ z_ (leaveArray s r stalls) := by
  unfold leaveArray
  extract_lets -merge -underBinder x2_0 x2_1 x2_2
  have hx2_0 : Rel ps_ z_ x2_0 := by
    unfold x2_0
    refine iteP (P := Rel ps_ z_) ?_ ?_
    · refine rel_addActive ?_ (Sub.trans (by decide) hp_)
      · assumption
    · refine rel_addCause ?_ (Sub.trans (by decide) hp_)
      · refine rel_addCause ?_ (Sub.trans (by decide) hp_)
        · refine rel_addActive ?_ (Sub.trans (by decide) hp_)
          · assumption
  clear_value x2_0
  have hx2_1 : Rel ps_ z_ x2_1 := by
    unfold x2_1
    refine rel_addCauses ?_ (Sub.trans (by decide) hp_)
    · assumption
  clear_value x2_1
  have hx2_2 : Rel ps_ z_ x2_2 := by
    unfold x2_2
    refine rel_charge ?_ (Sub.trans (by decide) hp_)
    · assumption
  clear_value x2_2
  refine rel_modShelf ?_ (Sub.trans (by decide) hp_)
  · assumption

theorem rel_execOpComplete {ps_ : List Part} {z_ : State} {stalls : CauseCycles} {s : State} (h1_ : Rel ps_ z_ s) (hp_ : Sub [.free, .tx, .regs, .counts, .shelf, .num, .snd, .slv, .upd, .mem, .bytes, .lsh, .shg, .swl, .ofs, .quay, .rst] ps_) :
    Ends ps_ z_ (execOpComplete stalls s) := by
  unfold execOpComplete
  refine ofNext ?_
  split
  · assumption
  · extract_lets -merge -underBinder x4_0 x4_1
    have hx4_0 : Rel1 ps_ z_ x4_0 := by
      unfold x4_0
      refine rel_retireOp ?_ (Sub.trans (by decide) hp_)
      · refine rel_leaveArray ?_ (Sub.trans (by decide) hp_)
        · assumption
    clear_value x4_0
    have hx4_1 : Rel ps_ z_ x4_1 := by
      unfold x4_1
      refine (?_ : Rel1 ps_ z_ _)
      assumption
    clear_value x4_1
    refine iteP (P := Rel ps_ z_) ?_ ?_
    · assumption
    · refine iteP (P := Rel ps_ z_) ?_ ?_
      · refine rel_clearJob ?_ (Sub.trans (by decide) hp_)
        · refine rel_doneCount ?_ (Sub.trans (by decide) hp_)
          · assumption
      · refine iteP (P := Rel ps_ z_) ?_ ?_
        · assumption
        · refine iteP (P := Rel ps_ z_) ?_ ?_
          · refine rel_modShelf ?_ (Sub.trans (by decide) hp_)
            · assumption
          · refine rel_restDeficits ?_ (Sub.trans (by decide) hp_)
            · refine rel_finishOp ?_ (Sub.trans (by decide) hp_)
              · assumption

theorem rel_pickBerth {ps_ : List Part} {z_ : State} {s : State} {cands : List Nat} (h0_ : Rel ps_ z_ s) (hp_ : Sub [.shelf] ps_) :
    Rel1 ps_ z_ (pickBerth s cands) := by
  unfold pickBerth
  split
  · refine ofPair ?_
    assumption
  · extract_lets -merge -underBinder x4_0 x4_1
    clear_value x4_0
    have hx4_1 : Rel ps_ z_ x4_1 := by
      unfold x4_1
      refine iteP (P := Rel ps_ z_) ?_ ?_
      · assumption
      · refine foldSP ?_ ?_ _
        · assumption
        · intro a10_0 a10_1 h10_0
          refine rel_modShelf ?_ (Sub.trans (by decide) hp_)
          · assumption
    clear_value x4_1
    refine ofPair ?_
    assumption

theorem rel_choose {ps_ : List Part} {z_ : State} {s : State} (h0_ : Rel ps_ z_ s) (hp_ : Sub [.shelf] ps_) :
    Rel1 ps_ z_ (choose s) := by
  unfold choose
  extract_lets -merge -underBinder x2_0 x2_1 x2_2 x2_3 x2_4
  clear_value x2_0 x2_1 x2_2 x2_3 x2_4
  refine iteP (P := Rel1 ps_ z_) ?_ ?_
  · refine rel_pickBerth ?_ (Sub.trans (by decide) hp_)
    · assumption
  · refine rel_pickBerth ?_ (Sub.trans (by decide) hp_)
    · assumption

theorem rel_rejectOp {ps_ : List Part} {z_ : State} {s : State} {b : Nat} {o : Op} {d : List Byte} {err : Nat} (h0_ : Rel ps_ z_ s) (hp_ : Sub [.tx, .regs, .counts, .shelf, .quay] ps_) :
    Rel ps_ z_ (rejectOp s b o d err) := by
  unfold rejectOp
  extract_lets -merge -underBinder x2_0 x2_1
  clear_value x2_0
  have hx2_1 : Rel ps_ z_ x2_1 := by
    unfold x2_1
    refine iteP (P := Rel ps_ z_) ?_ ?_
    · assumption
    · refine rel_wrs ?_ (Sub.trans (by decide) hp_)
      · refine rel_wrOr ?_ (Sub.trans (by decide) hp_)
        · assumption
  clear_value x2_1
  refine rel_haltStream ?_ (Sub.trans (by decide) hp_)
  · assumption

theorem rel_endFillRun {ps_ : List Part} {z_ : State} {s : State} (h0_ : Rel ps_ z_ s) (hp_ : Sub [.regs, .shelf] ps_) :
    Rel ps_ z_ (endFillRun s) := by
  unfold endFillRun
  extract_lets -merge -underBinder x2_0
  have hx2_0 : Rel ps_ z_ x2_0 := by
    unfold x2_0
    refine iteP (P := Rel ps_ z_) ?_ ?_
    · refine rel_wrOr ?_ (Sub.trans (by decide) hp_)
      · assumption
    · assumption
  clear_value x2_0
  refine rel_modShelf ?_ (Sub.trans (by decide) hp_)
  · assumption

theorem rel_launch {ps_ : List Part} {z_ : State} {s : State} {b : Nat} {d : List Byte} {inSeg : Bool} {tap : Option Nat} (h0_ : Rel ps_ z_ s) (hp_ : Sub [.free, .tx, .regs, .counts, .shelf, .mem, .quay, .rst] ps_) :
    Rel ps_ z_ (launch s b d inSeg tap) := by
  unfold launch
  extract_lets -merge -underBinder x2_0 x2_1 x2_2 x2_3 x2_4 x2_5 x2_6 x2_7
  clear_value x2_0 x2_1
  have hx2_2 : Rel ps_ z_ x2_2 := by
    unfold x2_2
    refine iteP (P := Rel ps_ z_) ?_ ?_
    · refine rel_noteRead ?_ (Sub.trans (by decide) hp_)
      · assumption
    · assumption
  clear_value x2_2 x2_3 x2_4 x2_5
  have hx2_6 : Rel ps_ z_ x2_6 := by
    unfold x2_6
    refine rel_endFillRun ?_ (Sub.trans (by decide) hp_)
    · assumption
  clear_value x2_6
  have hx2_7 : Rel ps_ z_ x2_7 := by
    unfold x2_7
    refine rel_modShelf ?_ (Sub.trans (by decide) hp_)
    · assumption
  clear_value x2_7
  refine foldSP ?_ ?_ _
  · assumption
  · intro a4_0 a4_1 h4_0
    refine rel_touch ?_ (Sub.trans (by decide) hp_)
    · assumption

theorem rel_popHead {ps_ : List Part} {z_ : State} {s : State} {b : Nat} (h0_ : Rel ps_ z_ s) (hp_ : Sub [.shelf, .mem] ps_) :
    Rel ps_ z_ (popHead s b) := by
  unfold popHead
  refine rel_leaveWindow ?_ (Sub.trans (by decide) hp_)
  · refine rel_modShelf ?_ (Sub.trans (by decide) hp_)
    · assumption

theorem rel_startHead {ps_ : List Part} {z_ : State} {s : State} {b : Nat} {d : List Byte} (h0_ : Rel ps_ z_ s) (hp_ : Sub [.free, .tx, .regs, .counts, .shelf, .snd, .mem, .quay, .rst] ps_) :
    Rel ps_ z_ (startHead s b d) := by
  unfold startHead
  extract_lets -merge -underBinder x2_0
  clear_value x2_0
  split
  · refine rel_launch ?_ (Sub.trans (by decide) hp_)
    · refine rel_popHead ?_ (Sub.trans (by decide) hp_)
      · assumption
  · split
    · extract_lets -merge -underBinder x6_0 x6_1 x6_2
      clear_value x6_0 x6_1
      have hx6_2 : Rel ps_ z_ x6_2 := by
        unfold x6_2
        refine rel_modSnd ?_ (Sub.trans (by decide) hp_)
        · assumption
      clear_value x6_2
      refine rel_launch ?_ (Sub.trans (by decide) hp_)
      · refine rel_popHead ?_ (Sub.trans (by decide) hp_)
        · assumption
    · refine rel_wrOr ?_ (Sub.trans (by decide) hp_)
      · assumption
    · assumption

theorem rel_failWork {ps_ : List Part} {z_ : State} {s : State} {tier : Nat} (h0_ : Rel ps_ z_ s) (hp_ : Sub [.tx, .regs, .counts, .shelf, .mem, .lsh, .quay] ps_) :
    Rel ps_ z_ (failWork s tier) := by
  unfold failWork
  extract_lets -merge -underBinder x2_0 x2_1 x2_2 x2_3
  have hx2_0 : ∀ a0, Rel ps_ z_ a0 → ∀ a1, Rel ps_ z_ (x2_0 a0 a1) := by
    intro a0_ h0_ a1_
    unfold x2_0
    refine rel_opFault ?_ (Sub.trans (by decide) hp_)
    · refine rel_setFlag ?_ (Sub.trans (by decide) hp_)
      · assumption
  clear_value x2_0
  have hx2_1 : Rel ps_ z_ x2_1 := by
    unfold x2_1
    split
    · refine hx2_0 _ ?_ _
      assumption
    · assumption
  clear_value x2_1
  have hx2_2 : Rel ps_ z_ x2_2 := by
    unfold x2_2
    split
    · refine hx2_0 _ ?_ _
      assumption
    · assumption
  clear_value x2_2
  have hx2_3 : Rel ps_ z_ x2_3 := by
    unfold x2_3
    refine foldSP ?_ ?_ _
    · assumption
    · intro a6_0 a6_1 h6_0
      refine rel_clearWindow ?_ (Sub.trans (by decide) hp_)
      · assumption
  clear_value x2_3
  refine rel_modShelf ?_ (Sub.trans (by decide) hp_)
  · assumption

theorem rel_queueCrash {ps_ : List Part} {z_ : State} {s : State} {d : Nat} (h0_ : Rel ps_ z_ s) (hp_ : Sub [.rst] ps_) :
    Rel ps_ z_ (queueCrash s d) := by
  unfold queueCrash
  extract_lets -merge -underBinder x2_0
  clear_value x2_0
  refine rel_rst ?_ (hp_ _ (by decide))
  assumption

theorem rel_execHbmStackFail {ps_ : List Part} {z_ : State} {stack : Nat} {s : State} (h1_ : Rel ps_ z_ s) (hp_ : Sub [.tx, .regs, .counts, .shelf, .mem, .lsh, .quay, .rst] ps_) :
    Ends ps_ z_ (execHbmStackFail stack s) := by
  unfold execHbmStackFail
  extract_lets -merge -underBinder x2_0 x2_1 x2_2 x2_3
  clear_value x2_0
  have hx2_1 : Rel ps_ z_ x2_1 := by
    unfold x2_1
    refine rel_wrs ?_ (Sub.trans (by decide) hp_)
    · assumption
  clear_value x2_1
  have hx2_2 : Rel ps_ z_ x2_2 := by
    unfold x2_2
    refine rel_wrOr ?_ (Sub.trans (by decide) hp_)
    · refine rel_failWork ?_ (Sub.trans (by decide) hp_)
      · assumption
  clear_value x2_2
  have hx2_3 : Rel ps_ z_ x2_3 := by
    unfold x2_3
    refine rel_modShelf ?_ (Sub.trans (by decide) hp_)
    · assumption
  clear_value x2_3
  refine ofNext ?_
  refine iteP (P := Rel ps_ z_) ?_ ?_
  · assumption
  · refine rel_leaveService ?_ (Sub.trans (by decide) hp_)
    · refine rel_queueCrash ?_ (Sub.trans (by decide) hp_)
      · assumption

theorem rel_tileFault {ps_ : List Part} {z_ : State} {s : State} {tile : Nat} {cause : Nat} (h0_ : Rel ps_ z_ s) (hp_ : Sub [.tx, .regs, .counts, .shelf, .mem, .lsh, .quay, .rst] ps_) :
    Rel ps_ z_ (tileFault s tile cause) := by
  unfold tileFault
  extract_lets -merge -underBinder x2_0 x2_1 x2_2 x2_3 x2_4 x2_5
  clear_value x2_0
  have hx2_1 : Rel ps_ z_ x2_1 := by
    unfold x2_1
    refine rel_wrs ?_ (Sub.trans (by decide) hp_)
    · refine rel_wr ?_ (Sub.trans (by decide) hp_)
      · assumption
  clear_value x2_1
  have hx2_2 : Rel ps_ z_ x2_2 := by
    unfold x2_2
    refine rel_failWork ?_ (Sub.trans (by decide) hp_)
    · assumption
  clear_value x2_2
  have hx2_3 : Rel ps_ z_ x2_3 := by
    unfold x2_3
    refine rel_modShelf ?_ (Sub.trans (by decide) hp_)
    · assumption
  clear_value x2_3
  have hx2_4 : Rel ps_ z_ x2_4 := by
    unfold x2_4
    refine rel_wrOr ?_ (Sub.trans (by decide) hp_)
    · assumption
  clear_value x2_4
  have hx2_5 : Rel ps_ z_ x2_5 := by
    unfold x2_5
    refine iteP (P := Rel ps_ z_) ?_ ?_
    · refine rel_logError ?_ (Sub.trans (by decide) hp_)
      · assumption
    · refine iteP (P := Rel ps_ z_) ?_ ?_
      · refine rel_logError ?_ (Sub.trans (by decide) hp_)
        · assumption
      · assumption
  clear_value x2_5
  refine iteP (P := Rel ps_ z_) ?_ ?_
  · assumption
  · refine rel_leaveService ?_ (Sub.trans (by decide) hp_)
    · refine rel_queueCrash ?_ (Sub.trans (by decide) hp_)
      · assumption

theorem rel_execTileFault {ps_ : List Part} {z_ : State} {tile : Nat} {cause : Nat} {s : State} (h2_ : Rel ps_ z_ s) (hp_ : Sub [.tx, .regs, .counts, .shelf, .mem, .lsh, .quay, .rst] ps_) :
    Ends ps_ z_ (execTileFault tile cause s) := by
  unfold execTileFault
  refine ofNext ?_
  refine rel_tileFault ?_ (Sub.trans (by decide) hp_)
  · assumption

theorem rel_execTileStoreCe {ps_ : List Part} {z_ : State} {count_ : Nat} {s : State} (h1_ : Rel ps_ z_ s) (hp_ : Sub [.tx, .regs, .counts, .quay, .rst] ps_) :
    Ends ps_ z_ (execTileStoreCe count_ s) := by
  unfold execTileStoreCe
  extract_lets -merge -underBinder x2_0 x2_1
  clear_value x2_0
  have hx2_1 : Rel ps_ z_ x2_1 := by
    unfold x2_1
    refine rel_wr ?_ (Sub.trans (by decide) hp_)
    · assumption
  clear_value x2_1
  refine ofNext ?_
  refine iteP (P := Rel ps_ z_) ?_ ?_
  · refine rel_raiseReplace ?_ (Sub.trans (by decide) hp_)
    · refine rel_logError ?_ (Sub.trans (by decide) hp_)
      · refine rel_wrOr ?_ (Sub.trans (by decide) hp_)
        · assumption
  · assumption

theorem rel_factorAtStart {ps_ : List Part} {z_ : State} {s : State} {b : Nat} {e : EngPass} (h0_ : Rel ps_ z_ s) (hp_ : Sub [.free, .tx, .regs, .counts, .upd, .mem, .lsh, .quay, .rst] ps_) :
    Rel1 ps_ z_ (factorAtStart s b e) := by
  unfold factorAtStart
  refine iteP (P := Rel1 ps_ z_) ?_ ?_
  · refine ofPair ?_
    assumption
  · split
    · refine ofPair ?_
      assumption
    · extract_lets -merge -underBinder x6_0 x6_1
      clear_value x6_0 x6_1
      split
      · refine ofPair ?_
        assumption
      · extract_lets -merge -underBinder x8_0 x8_1
        clear_value x8_0
        have hx8_1 : Rel ps_ z_ x8_1 := by
          unfold x8_1
          refine foldSP ?_ ?_ _
          · assumption
          · intro a12_0 a12_1 h12_0
            refine rel_noteFinite ?_ (Sub.trans (by decide) hp_)
            · refine rel_faultIf ?_ (Sub.trans (by decide) hp_)
              · assumption
        clear_value x8_1
        refine ofPair ?_
        assumption

theorem rel_startPass {ps_ : List Part} {z_ : State} {s : State} {b : Nat} {e : EngPass} (h0_ : Rel ps_ z_ s) (hp_ : Sub [.free, .tx, .regs, .counts, .shelf, .upd, .mem, .lsh, .quay, .rst] ps_) :
    Rel ps_ z_ (startPass s b e) := by
  unfold startPass
  extract_lets -merge -underBinder x2_0 x2_1 x2_2
  have hx2_0 : Rel1 ps_ z_ x2_0 := by
    unfold x2_0
    refine rel_resident ?_ (Sub.trans (by decide) hp_)
    · assumption
  clear_value x2_0
  have hx2_1 : Rel ps_ z_ x2_1 := by
    unfold x2_1
    refine (?_ : Rel1 ps_ z_ _)
    assumption
  clear_value x2_1 x2_2
  refine iteP (P := Rel ps_ z_) ?_ ?_
  · assumption
  · split
    · rename_i q4_0
      have hq4_0 := of_eq1 (ps := ps_) (z := z_) q4_0 (by
          refine rel_factorAtStart ?_ (Sub.trans (by decide) hp_)
          · assumption
          )
      extract_lets -merge -underBinder x6_0 x6_1
      clear_value x6_0
      have hx6_1 : Rel ps_ z_ x6_1 := by
        unfold x6_1
        refine rel_endFillRun ?_ (Sub.trans (by decide) hp_)
        · assumption
      clear_value x6_1
      refine rel_modShelf ?_ (Sub.trans (by decide) hp_)
      · assumption

theorem rel_execWaveWatchdogExpiry {ps_ : List Part} {z_ : State} {tile : Nat} {cycles : Nat} {s : State} (h2_ : Rel ps_ z_ s) (hp_ : Sub [.tx, .regs, .counts, .shelf, .mem, .lsh, .quay, .rst] ps_) :
    Ends ps_ z_ (execWaveWatchdogExpiry tile cycles s) := by
  unfold execWaveWatchdogExpiry
  refine ofNext ?_
  refine iteP (P := Rel ps_ z_) ?_ ?_
  · refine rel_tileFault ?_ (Sub.trans (by decide) hp_)
    · assumption
  · assumption

theorem rel_noteInterval {ps_ : List Part} {z_ : State} {s : State} {p : List Nat × Nat} (h0_ : Rel ps_ z_ s) (hp_ : Sub [.regs, .shelf] ps_) :
    Rel ps_ z_ (noteInterval s p) := by
  unfold noteInterval
  extract_lets -merge -underBinder x2_0
  have hx2_0 : Rel ps_ z_ x2_0 := by
    unfold x2_0
    refine rel_addCause ?_ (Sub.trans (by decide) hp_)
    · assumption
  clear_value x2_0
  refine iteP (P := Rel ps_ z_) ?_ ?_
  · assumption
  · refine iteP (P := Rel ps_ z_) ?_ ?_
    · refine rel_modShelf ?_ (Sub.trans (by decide) hp_)
      · assumption
    · refine rel_endFillRun ?_ (Sub.trans (by decide) hp_)
      · assumption

theorem rel_noteIdle {ps_ : List Part} {z_ : State} {s : State} {idle : CauseCycles} (h0_ : Rel ps_ z_ s) (hp_ : Sub [.regs, .shelf] ps_) :
    Rel ps_ z_ (noteIdle s idle) := by
  unfold noteIdle
  refine foldSP ?_ ?_ _
  · assumption
  · intro a4_0 a4_1 h4_0
    refine rel_noteInterval ?_ (Sub.trans (by decide) hp_)
    · assumption

theorem rel_noteMergeWait {ps_ : List Part} {z_ : State} {s : State} (h0_ : Rel ps_ z_ s) (hp_ : Sub [.regs] ps_) :
    Rel ps_ z_ (noteMergeWait s) := by
  unfold noteMergeWait
  refine iteP (P := Rel ps_ z_) ?_ ?_
  · refine rel_wrOr ?_ (Sub.trans (by decide) hp_)
    · assumption
  · assumption

theorem rel_startSegment {ps_ : List Part} {z_ : State} {s : State} {b : Nat} {d : List Byte} (h0_ : Rel ps_ z_ s) (hp_ : Sub [.free, .tx, .regs, .counts, .shelf, .mem, .bytes, .quay, .rst] ps_) :
    Rel ps_ z_ (startSegment s b d) := by
  unfold startSegment
  extract_lets -merge -underBinder x2_0 x2_1 x2_2 x2_3
  clear_value x2_0 x2_1
  have hx2_2 : Rel ps_ z_ x2_2 := by
    unfold x2_2
    refine rel_dropObject ?_ (Sub.trans (by decide) hp_)
    · assumption
  clear_value x2_2
  have hx2_3 : Rel1 ps_ z_ x2_3 := by
    unfold x2_3
    refine rel_resident ?_ (Sub.trans (by decide) hp_)
    · assumption
  clear_value x2_3
  refine iteP (P := Rel ps_ z_) ?_ ?_
  · refine rel_haltStream ?_ (Sub.trans (by decide) hp_)
    · refine rel_modShelf ?_ (Sub.trans (by decide) hp_)
      · assumption
  · refine iteP (P := Rel ps_ z_) ?_ ?_
    · refine rel_launch ?_ (Sub.trans (by decide) hp_)
      · refine rel_modShelf ?_ (Sub.trans (by decide) hp_)
        · refine (?_ : Rel1 ps_ z_ _)
          assumption
    · refine (?_ : Rel1 ps_ z_ _)
      assumption

theorem rel_beginSegment {ps_ : List Part} {z_ : State} {s : State} {b : Nat} {d : List Byte} {h : Hdl} (h0_ : Rel ps_ z_ s) (hp_ : Sub [.tx, .regs, .counts, .shelf, .mem, .bytes, .quay] ps_) :
    Rel ps_ z_ (beginSegment s b d h) := by
  unfold beginSegment
  split
  · assumption
  · extract_lets -merge -underBinder x4_0
    have hx4_0 : Rel ps_ z_ x4_0 := by
      unfold x4_0
      refine rel_modObj ?_ (Sub.trans (by decide) hp_)
      · assumption
    clear_value x4_0
    refine iteP (P := Rel ps_ z_) ?_ ?_
    · refine rel_dropObject ?_ (Sub.trans (by decide) hp_)
      · assumption
    · refine iteP (P := Rel ps_ z_) ?_ ?_
      · refine rel_modShelf ?_ (Sub.trans (by decide) hp_)
        · assumption
      · refine iteP (P := Rel ps_ z_) ?_ ?_
        · assumption
        · split
          · refine iteP (P := Rel ps_ z_) ?_ ?_
            · refine rel_takeVictim ?_ (Sub.trans (by decide) hp_)
              · assumption
            · assumption
          · refine iteP (P := Rel ps_ z_) ?_ ?_
            · assumption
            · refine rel_haltStream ?_ (Sub.trans (by decide) hp_)
              · assumption

theorem rel_fetchHead {ps_ : List Part} {z_ : State} {s : State} {b : Nat} {d : List Byte} (h0_ : Rel ps_ z_ s) (hp_ : Sub [.free, .tx, .regs, .counts, .shelf, .snd, .mem, .bytes, .quay, .rst] ps_) :
    Rel ps_ z_ (fetchHead s b d) := by
  unfold fetchHead
  extract_lets -merge -underBinder x2_0 x2_1 x2_2
  clear_value x2_0 x2_1
  have hx2_2 : Rel ps_ z_ x2_2 := by
    unfold x2_2
    refine rel_modShelf ?_ (Sub.trans (by decide) hp_)
    · assumption
  clear_value x2_2
  refine iteP (P := Rel ps_ z_) ?_ ?_
  · refine rel_rejectOp ?_ (Sub.trans (by decide) hp_)
    · assumption
  · split
    · refine rel_beginSegment ?_ (Sub.trans (by decide) hp_)
      · refine foldSP ?_ ?_ _
        · assumption
        · intro a10_0 a10_1 h10_0
          refine rel_keepResident ?_ (Sub.trans (by decide) hp_)
          · assumption
    · extract_lets -merge -underBinder x6_0
      have hx6_0 : Rel1 ps_ z_ x6_0 := by
        unfold x6_0
        refine rel_resident ?_ (Sub.trans (by decide) hp_)
        · assumption
      clear_value x6_0
      refine iteP (P := Rel ps_ z_) ?_ ?_
      · refine rel_startHead ?_ (Sub.trans (by decide) hp_)
        · refine (?_ : Rel1 ps_ z_ _)
          assumption
      · refine (?_ : Rel1 ps_ z_ _)
        assumption

theorem rel_execOpStart {ps_ : List Part} {z_ : State} {idle : CauseCycles} {s : State} (h1_ : Rel ps_ z_ s) (hp_ : Sub [.free, .tx, .regs, .counts, .shelf, .snd, .upd, .mem, .bytes, .lsh, .quay, .rst] ps_) :
    Ends ps_ z_ (execOpStart idle s) := by
  unfold execOpStart
  extract_lets -merge -underBinder x2_0 x2_1
  have hx2_0 : Rel ps_ z_ x2_0 := by
    unfold x2_0
    refine rel_noteIdle ?_ (Sub.trans (by decide) hp_)
    · assumption
  clear_value x2_0
  have hx2_1 : Rel ps_ z_ x2_1 := by
    unfold x2_1
    refine rel_noteMergeWait ?_ (Sub.trans (by decide) hp_)
    · assumption
  clear_value x2_1
  refine ofNext ?_
  refine iteP (P := Rel ps_ z_) ?_ ?_
  · assumption
  · split
    · rename_i q4_0
      have hq4_0 := of_eq1 (ps := ps_) (z := z_) q4_0 (by
          refine rel_choose ?_ (Sub.trans (by decide) hp_)
          · refine rel_restDeficits ?_ (Sub.trans (by decide) hp_)
            · assumption
          )
      assumption
    · rename_i q4_0
      have hq4_0 := of_eq1 (ps := ps_) (z := z_) q4_0 (by
          refine rel_choose ?_ (Sub.trans (by decide) hp_)
          · refine rel_restDeficits ?_ (Sub.trans (by decide) hp_)
            · assumption
          )
      split
      · refine rel_startSegment ?_ (Sub.trans (by decide) hp_)
        · assumption
      · refine rel_fetchHead ?_ (Sub.trans (by decide) hp_)
        · assumption
      · refine rel_startPass ?_ (Sub.trans (by decide) hp_)
        · assumption
      · assumption

theorem rel_passEffect {ps_ : List Part} {z_ : State} {s : State} {r : RunOp} (h0_ : Rel ps_ z_ s) (hp_ : Sub [.free, .tx, .regs, .counts, .shelf, .snd, .slv, .upd, .mem, .bytes, .lsh, .quay, .rst] ps_) :
    Rel ps_ z_ (passEffect s r) := by
  unfold passEffect
  extract_lets -merge -underBinder x2_0 x2_1
  clear_value x2_0 x2_1
  refine iteP (P := Rel ps_ z_) ?_ ?_
  · refine rel_doCov ?_ (Sub.trans (by decide) hp_)
    · assumption
  · refine iteP (P := Rel ps_ z_) ?_ ?_
    · refine rel_doMerge ?_ (Sub.trans (by decide) hp_)
      · assumption
    · refine iteP (P := Rel ps_ z_) ?_ ?_
      · assumption
      · refine rel_doUpdPass ?_ (Sub.trans (by decide) hp_)
        · assumption

theorem rel_execEnginePassComplete {ps_ : List Part} {z_ : State} {stalls : CauseCycles} {s : State} (h1_ : Rel ps_ z_ s) (hp_ : Sub [.free, .tx, .regs, .counts, .shelf, .num, .snd, .slv, .upd, .mem, .bytes, .lsh, .shg, .swl, .ofs, .quay, .rst] ps_) :
    Ends ps_ z_ (execEnginePassComplete stalls s) := by
  unfold execEnginePassComplete
  refine ofNext ?_
  split
  · assumption
  · extract_lets -merge -underBinder x4_0
    have hx4_0 : Rel ps_ z_ x4_0 := by
      unfold x4_0
      refine rel_passEffect ?_ (Sub.trans (by decide) hp_)
      · refine rel_doneCount ?_ (Sub.trans (by decide) hp_)
        · refine rel_leaveArray ?_ (Sub.trans (by decide) hp_)
          · assumption
    clear_value x4_0
    refine iteP (P := Rel ps_ z_) ?_ ?_
    · assumption
    · refine iteP (P := Rel ps_ z_) ?_ ?_
      · refine rel_clearJob ?_ (Sub.trans (by decide) hp_)
        · assumption
      · refine rel_restDeficits ?_ (Sub.trans (by decide) hp_)
        · refine iteP (P := Rel ps_ z_) ?_ ?_
          · assumption
          · refine rel_slvKick ?_ (Sub.trans (by decide) hp_)
            · assumption

theorem rel_countRunning {ps_ : List Part} {z_ : State} {s : State} (h0_ : Rel ps_ z_ s) (hp_ : Sub [.free, .shelf] ps_) :
    Rel ps_ z_ (countRunning s) := by
  unfold countRunning
  split
  · assumption
  · extract_lets -merge -underBinder x4_0 x4_1 x4_2 x4_3 x4_4 x4_5
    clear_value x4_0 x4_1 x4_2 x4_3
    have hx4_4 : Rel ps_ z_ x4_4 := by
      unfold x4_4
      refine rel_useFree ?_ (hp_ _ (by decide))
      · refine rel_useFree ?_ (hp_ _ (by decide))
        · refine rel_useFree ?_ (hp_ _ (by decide))
          · assumption
    clear_value x4_4
    have hx4_5 : Rel ps_ z_ x4_5 := by
      unfold x4_5
      refine iteP (P := Rel ps_ z_) ?_ ?_
      · refine rel_addActive ?_ (Sub.trans (by decide) hp_)
        · assumption
      · refine rel_addCause ?_ (Sub.trans (by decide) hp_)
        · refine rel_addCause ?_ (Sub.trans (by decide) hp_)
          · refine rel_addActive ?_ (Sub.trans (by decide) hp_)
            · assumption
    clear_value x4_5
    refine rel_modShelf ?_ (Sub.trans (by decide) hp_)
    · assumption

/-! ### Longshore -/

theorem rel_modLsh {ps_ : List Part} {z_ : State} {s : State} {f : Longshore → Longshore} (h0_ : Rel ps_ z_ s) (hp_ : Sub [.lsh] ps_) :
    Rel ps_ z_ (modLsh s f) := by
  unfold modLsh
  refine rel_lsh ?_ (hp_ _ (by decide))
  assumption

theorem rel_modChan {ps_ : List Part} {z_ : State} {s : State} {b : Nat} {c : Nat} {f : LChan → LChan} (h0_ : Rel ps_ z_ s) (hp_ : Sub [.lsh] ps_) :
    Rel ps_ z_ (modChan s b c f) := by
  unfold modChan
  refine rel_modLsh ?_ (Sub.trans (by decide) hp_)
  · assumption

theorem rel_modColl {ps_ : List Part} {z_ : State} {s : State} {r : CRef} {f : Coll → Coll} (h0_ : Rel ps_ z_ s) (hp_ : Sub [.lsh] ps_) :
    Rel ps_ z_ (modColl s r f) := by
  unfold modColl
  refine rel_modChan ?_ (Sub.trans (by decide) hp_)
  · assumption

theorem rel_holdBytes {ps_ : List Part} {z_ : State} {s : State} {b : Nat} {o : Nat} {p : Nat} {off : Nat} {bs : List Byte} (h0_ : Rel ps_ z_ s) (hp_ : Sub [.regs, .counts, .mem] ps_) :
    RelO ps_ z_ (holdBytes s b o p off bs) := by
  unfold holdBytes
  extract_lets -merge -underBinder x2_0
  clear_value x2_0
  refine iteP (P := RelO ps_ z_) ?_ ?_
  · refine ofSome ?_
    refine rel_modMem ?_ (hp_ _ (by decide)) rfl
    assumption
  · split
    · exact ofNone
    · extract_lets -merge -underBinder x6_0
      have hx6_0 : Rel ps_ z_ x6_0 := by
        unfold x6_0
        refine iteP (P := Rel ps_ z_) ?_ ?_
        · refine rel_count ?_ (Sub.trans (by decide) hp_)
          · refine rel_wrOr ?_ (Sub.trans (by decide) hp_)
            · refine rel_wrOr ?_ (Sub.trans (by decide) hp_)
              · assumption
        · assumption
      clear_value x6_0
      refine ofSome ?_
      refine rel_modMem ?_ (hp_ _ (by decide)) rfl
      assumption

theorem rel_writePart {ps_ : List Part} {z_ : State} {s : State} {b : Nat} {h : Hdl} {off : Nat} {bs : List Byte} (h0_ : Rel ps_ z_ s) (hp_ : Sub [.free, .tx, .regs, .counts, .mem, .bytes, .lsh, .quay, .rst] ps_) :
    RelO ps_ z_ (writePart s b h off bs) := by
  unfold writePart
  split
  · exact ofSome h0_
  · rename_i o _
    extract_lets -merge -underBinder x0
    clear_value x0
    refine foldlOptP (ofSome h0_) (fun acc q hacc => ?_) _
    refine bindO hacc fun t ht => ?_
    extract_lets -merge -underBinder x1 x2
    have h2 : Rel ps_ z_ x2.1 := rel_writeN ht (Sub.trans (by decide) hp_)
    clear_value x1 x2
    refine iteP (P := RelO ps_ z_) (mapO2 (rel_holdBytes ht (Sub.trans (by decide) hp_)) fun u hu => ?_) (ofSome ?_)
    · exact rel_wantPage hu (Sub.trans (by decide) hp_)
    · exact iteP (P := Rel ps_ z_) (rel_setFlag h2 (Sub.trans (by decide) hp_)) h2

theorem rel_writeRoot {ps_ : List Part} {z_ : State} {s : State} {r : CRef} {g : Geom} {k : Nat} {c : Nat} {v : List W32} (h0_ : Rel ps_ z_ s) (hp_ : Sub [.free, .tx, .regs, .counts, .mem, .bytes, .lsh, .quay, .rst] ps_) :
    Rel ps_ z_ (writeRoot s r g k c v) := by
  unfold writeRoot
  extract_lets -merge -underBinder x2_0
  clear_value x2_0
  split
  · assumption
  · refine iteP (P := Rel ps_ z_) ?_ ?_
    · assumption
    · refine iteP (P := Rel ps_ z_) ?_ ?_
      · refine rel_modColl ?_ (Sub.trans (by decide) hp_)
        · assumption
      · split
        · rename_i q8_0
          try have hq8_0 := of_eqO (ps := ps_) (z := z_) q8_0 (by
              refine rel_writePart ?_ (Sub.trans (by decide) hp_)
              · assumption
              )
          refine rel_modColl ?_ (Sub.trans (by decide) hp_)
          · assumption
        · rename_i q8_0
          try have hq8_0 := of_eqO (ps := ps_) (z := z_) q8_0 (by
              refine rel_writePart ?_ (Sub.trans (by decide) hp_)
              · assumption
              )
          refine rel_wrOr ?_ (Sub.trans (by decide) hp_)
          · assumption

theorem rel_haltFor {ps_ : List Part} {z_ : State} {s : State} {b : Nat} {seq : W32} {data : List Byte} (h0_ : Rel ps_ z_ s) (hp_ : Sub [.tx, .regs, .counts, .shelf, .quay] ps_) :
    Rel ps_ z_ (haltFor s b seq data) := by
  unfold haltFor
  extract_lets -merge -underBinder x2_0
  clear_value x2_0
  refine rel_event ?_ (Sub.trans (by decide) hp_)
  · refine rel_shelf ?_ (hp_ _ (by decide))
    assumption

theorem rel_haltChannels {ps_ : List Part} {z_ : State} {s : State} {b : Nat} (h0_ : Rel ps_ z_ s) (hp_ : Sub [.lsh] ps_) :
    Rel ps_ z_ (haltChannels s b) := by
  unfold haltChannels
  refine foldSP ?_ ?_ _
  · assumption
  · intro a4_0 a4_1 h4_0
    refine rel_modChan ?_ (Sub.trans (by decide) hp_)
    · assumption

theorem rel_failNamed {ps_ : List Part} {z_ : State} {s : State} {b : Nat} {group : Nat} {low : Nat} {cause : Nat} {seq : W32} (h0_ : Rel ps_ z_ s) (hp_ : Sub [.tx, .regs, .counts, .shelf, .lsh, .quay] ps_) :
    Rel ps_ z_ (failNamed s b group low cause seq) := by
  unfold failNamed
  extract_lets -merge -underBinder x2_0 x2_1 x2_2
  have hx2_0 : Rel ps_ z_ x2_0 := by
    unfold x2_0
    refine rel_wrs ?_ (Sub.trans (by decide) hp_)
    · refine rel_wrOr ?_ (Sub.trans (by decide) hp_)
      · refine rel_setFlag ?_ (Sub.trans (by decide) hp_)
        · assumption
  clear_value x2_0
  have hx2_1 : Rel ps_ z_ x2_1 := by
    unfold x2_1
    refine rel_modLsh ?_ (Sub.trans (by decide) hp_)
    · assumption
  clear_value x2_1
  have hx2_2 : Rel ps_ z_ x2_2 := by
    unfold x2_2
    refine rel_event ?_ (Sub.trans (by decide) hp_)
    · assumption
  clear_value x2_2
  refine rel_haltFor ?_ (Sub.trans (by decide) hp_)
  · refine rel_haltChannels ?_ (Sub.trans (by decide) hp_)
    · assumption

theorem rel_flagValues {ps_ : List Part} {z_ : State} {s : State} {b : Nat} {ok : Bool} (h0_ : Rel ps_ z_ s) (hp_ : Sub [.lsh] ps_) :
    Rel ps_ z_ (flagValues s b ok) := by
  unfold flagValues
  refine iteP (P := Rel ps_ z_) ?_ ?_
  · assumption
  · refine rel_setFlag ?_ (Sub.trans (by decide) hp_)
    · assumption

theorem rel_placeCopies {ps_ : List Part} {z_ : State} {b : Nat} {l : List (List Byte)} {s : State} (h2_ : Rel ps_ z_ s) (hp_ : Sub [.lsh] ps_) :
    Rel ps_ z_ (placeCopies b l s) := by
  unfold placeCopies
  refine foldSP ?_ ?_ _
  · refine rel_modLsh ?_ (Sub.trans (by decide) hp_)
    · assumption
  · intro a4_0 a4_1 h4_0
    extract_lets -merge -underBinder x4_0
    clear_value x4_0
    refine iteP (P := Rel ps_ z_) ?_ ?_
    · refine rel_modChan ?_ (Sub.trans (by decide) hp_)
      · assumption
    · refine rel_modLsh ?_ (Sub.trans (by decide) hp_)
      · assumption

theorem rel_sendReq {ps_ : List Part} {z_ : State} {s : State} {dev : Nat} {p : LshPkt} (h0_ : Rel ps_ z_ s) (hp_ : Sub [.tx, .regs, .counts, .clf, .lsh] ps_) :
    Rel ps_ z_ (sendReq s dev p) := by
  unfold sendReq
  refine rel_lshSend ?_ (Sub.trans (by decide) hp_)
  · assumption

theorem rel_askMissing {ps_ : List Part} {z_ : State} {s : State} {r : CRef} {dev : Option Nat} (h0_ : Rel ps_ z_ s) (hp_ : Sub [.tx, .regs, .counts, .clf, .lsh] ps_) :
    Rel ps_ z_ (askMissing s r dev) := by
  unfold askMissing
  split
  · assumption
  · split
    · assumption
    · refine foldSP ?_ ?_ _
      · assumption
      · intro a8_0 a8_1 h8_0
        extract_lets -merge -underBinder x8_0
        clear_value x8_0
        refine iteP (P := Rel ps_ z_) ?_ ?_
        · refine rel_sendReq ?_ (Sub.trans (by decide) hp_)
          · assumption
        · assumption

theorem rel_askMove {ps_ : List Part} {z_ : State} {s : State} {b : Nat} {dev : Nat} (h0_ : Rel ps_ z_ s) (hp_ : Sub [.tx, .regs, .counts, .clf, .lsh] ps_) :
    Rel ps_ z_ (askMove s b dev) := by
  unfold askMove
  split
  · assumption
  · extract_lets -merge -underBinder x4_0
    clear_value x4_0
    split
    · assumption
    · refine iteP (P := Rel ps_ z_) ?_ ?_
      · assumption
      · refine foldSP ?_ ?_ _
        · assumption
        · intro a10_0 a10_1 h10_0
          split
          · assumption
          · refine iteP (P := Rel ps_ z_) ?_ ?_
            · assumption
            · refine foldSP ?_ ?_ _
              · assumption
              · intro a16_0 a16_1 h16_0
                extract_lets -merge -underBinder x16_0
                clear_value x16_0
                refine iteP (P := Rel ps_ z_) ?_ ?_
                · assumption
                · refine rel_sendReq ?_ (Sub.trans (by decide) hp_)
                  · assumption

theorem rel_crcFailed {ps_ : List Part} {z_ : State} {s : State} {dev : Nat} (h0_ : Rel ps_ z_ s) (hp_ : Sub [.tx, .regs, .counts, .clf, .lsh] ps_) :
    Rel ps_ z_ (crcFailed s dev) := by
  unfold crcFailed
  extract_lets -merge -underBinder x2_0
  have hx2_0 : Rel ps_ z_ x2_0 := by
    unfold x2_0
    refine rel_count ?_ (Sub.trans (by decide) hp_)
    · refine rel_wrOr ?_ (Sub.trans (by decide) hp_)
      · assumption
  clear_value x2_0
  refine foldSP ?_ ?_ _
  · assumption
  · intro a4_0 a4_1 h4_0
    extract_lets -merge -underBinder x4_0 x4_1
    have hx4_0 : Rel ps_ z_ x4_0 := by
      unfold x4_0
      refine rel_modLsh ?_ (Sub.trans (by decide) hp_)
      · assumption
    clear_value x4_0
    have hx4_1 : Rel ps_ z_ x4_1 := by
      unfold x4_1
      refine foldSP ?_ ?_ _
      · assumption
      · intro a8_0 a8_1 h8_0
        refine foldSP ?_ ?_ _
        · assumption
        · intro a10_0 a10_1 h10_0
          refine rel_askMissing ?_ (Sub.trans (by decide) hp_)
          · assumption
    clear_value x4_1
    refine rel_askMove ?_ (Sub.trans (by decide) hp_)
    · assumption

theorem rel_staleDrop {ps_ : List Part} {z_ : State} {s : State} (h0_ : Rel ps_ z_ s) (hp_ : Sub [.regs, .counts] ps_) :
    Rel ps_ z_ (staleDrop s) := by
  unfold staleDrop
  refine rel_count ?_ (Sub.trans (by decide) hp_)
  · refine rel_wrOr ?_ (Sub.trans (by decide) hp_)
    · assumption

theorem rel_landPart {ps_ : List Part} {z_ : State} {s : State} {b : Nat} {e : MapEnt} {k : Nat} {bs : List Byte} (h0_ : Rel ps_ z_ s) (hp_ : Sub [.free, .tx, .regs, .counts, .mem, .bytes, .lsh, .quay, .rst] ps_) :
    Rel ps_ z_ (landPart s b e k bs) := by
  unfold landPart
  extract_lets -merge -underBinder x2_0
  have hx2_0 : Rel1 ps_ z_ x2_0 := by
    unfold x2_0
    refine rel_writeN ?_ (Sub.trans (by decide) hp_)
    · assumption
  clear_value x2_0
  refine iteP (P := Rel ps_ z_) ?_ ?_
  · refine rel_setFlag ?_ (Sub.trans (by decide) hp_)
    · refine (?_ : Rel1 ps_ z_ _)
      assumption
  · refine (?_ : Rel1 ps_ z_ _)
    assumption

theorem rel_modPerm {ps_ : List Part} {z_ : State} {s : State} {b : Nat} {f : Permute → Permute} (h0_ : Rel ps_ z_ s) (hp_ : Sub [.lsh] ps_) :
    Rel ps_ z_ (modPerm s b f) := by
  unfold modPerm
  refine rel_modLsh ?_ (Sub.trans (by decide) hp_)
  · assumption

theorem rel_permData {ps_ : List Part} {z_ : State} {s : State} {p : LshPkt} {role : PermRole} (h0_ : Rel ps_ z_ s) (hp_ : Sub [.free, .tx, .regs, .counts, .mem, .bytes, .clf, .lsh, .quay, .rst] ps_) :
    Rel ps_ z_ (permData s p role) := by
  unfold permData
  extract_lets -merge -underBinder x2_0 x2_1
  clear_value x2_0 x2_1
  split
  · refine rel_staleDrop ?_ (Sub.trans (by decide) hp_)
    · assumption
  · extract_lets -merge -underBinder x4_0 x4_1 x4_2 x4_3 x4_4 x4_5 x4_6 x4_7
    clear_value x4_0
    have hx4_1 : Rel ps_ z_ x4_1 := by
      unfold x4_1
      refine rel_count ?_ (Sub.trans (by decide) hp_)
      · assumption
    clear_value x4_1
    have hx4_2 : Rel ps_ z_ x4_2 := by
      unfold x4_2
      refine iteP (P := Rel ps_ z_) ?_ ?_
      · refine rel_setFlag ?_ (Sub.trans (by decide) hp_)
        · assumption
      · assumption
    clear_value x4_2
    have hx4_3 : Rel ps_ z_ x4_3 := by
      unfold x4_3
      refine rel_landPart ?_ (Sub.trans (by decide) hp_)
      · assumption
    clear_value x4_3 x4_4 x4_5
    have hx4_6 : Rel ps_ z_ x4_6 := by
      unfold x4_6
      refine rel_modPerm ?_ (Sub.trans (by decide) hp_)
      · assumption
    clear_value x4_6 x4_7
    refine iteP (P := Rel ps_ z_) ?_ ?_
    · refine rel_staleDrop ?_ (Sub.trans (by decide) hp_)
      · assumption
    · refine iteP (P := Rel ps_ z_) ?_ ?_
      · refine rel_count ?_ (Sub.trans (by decide) hp_)
        · assumption
      · refine iteP (P := Rel ps_ z_) ?_ ?_
        · refine rel_lshSend ?_ (Sub.trans (by decide) hp_)
          · assumption
        · assumption

theorem rel_noteAccept {ps_ : List Part} {z_ : State} {s : State} {p : LshPkt} (h0_ : Rel ps_ z_ s) (hp_ : Sub [.counts, .lsh] ps_) :
    Rel ps_ z_ (noteAccept s p) := by
  unfold noteAccept
  extract_lets -merge -underBinder x2_0 x2_1
  have hx2_0 : Rel ps_ z_ x2_0 := by
    unfold x2_0
    refine rel_count ?_ (Sub.trans (by decide) hp_)
    · assumption
  clear_value x2_0
  have hx2_1 : Rel ps_ z_ x2_1 := by
    unfold x2_1
    refine rel_modPerm ?_ (Sub.trans (by decide) hp_)
    · assumption
  clear_value x2_1
  refine iteP (P := Rel ps_ z_) ?_ ?_
  · refine rel_setFlag ?_ (Sub.trans (by decide) hp_)
    · assumption
  · assumption

theorem rel_putNode {ps_ : List Part} {z_ : State} {s : State} {r : CRef} {key : Nat} {v : List W32} {inv : Bool} (h0_ : Rel ps_ z_ s) (hp_ : Sub [.lsh] ps_) :
    Rel ps_ z_ (putNode s r key v inv) := by
  unfold putNode
  refine rel_modColl ?_ (Sub.trans (by decide) hp_)
  · assumption

theorem rel_sendTo {ps_ : List Part} {z_ : State} {s : State} {r : CRef} {g : Geom} {rank : Nat} {level : Nat} {node : Nat} {chunk : Nat} {inv : Bool} {data : List Byte} (h0_ : Rel ps_ z_ s) (hp_ : Sub [.lsh] ps_) :
    Rel ps_ z_ (sendTo s r g rank level node chunk inv data) := by
  unfold sendTo
  split
  · assumption
  · refine rel_modColl ?_ (Sub.trans (by decide) hp_)
    · assumption

theorem rel_deliverRoot {ps_ : List Part} {z_ : State} {s : State} {r : CRef} {g : Geom} {k : Nat} {c : Nat} {v : List W32} {inv : Bool} (h0_ : Rel ps_ z_ s) (hp_ : Sub [.free, .tx, .regs, .counts, .mem, .bytes, .lsh, .quay, .rst] ps_) :
    Rel ps_ z_ (deliverRoot s r g k c v inv) := by
  unfold deliverRoot
  extract_lets -merge -underBinder x2_0 x2_1 x2_2
  clear_value x2_0
  have hx2_1 : Rel ps_ z_ x2_1 := by
    unfold x2_1
    refine rel_flagValues ?_ (Sub.trans (by decide) hp_)
    · assumption
  clear_value x2_1
  have hx2_2 : Rel ps_ z_ x2_2 := by
    unfold x2_2
    refine rel_putNode ?_ (Sub.trans (by decide) hp_)
    · assumption
  clear_value x2_2
  refine foldSP ?_ ?_ _
  · assumption
  · intro a4_0 a4_1 h4_0
    refine iteP (P := Rel ps_ z_) ?_ ?_
    · refine rel_writeRoot ?_ (Sub.trans (by decide) hp_)
      · assumption
    · refine rel_sendTo ?_ (Sub.trans (by decide) hp_)
      · assumption

theorem rel_addNode {ps_ : List Part} {z_ : State} {y0 : Nat} {y1 : State} {y2 : CRef} {y3 : Geom} {y4 : Nat} {y5 : Nat} {y6 : Nat} {y7 : Nat} {y8 : List W32} {y9 : Bool} (h1_ : Rel ps_ z_ y1) (hp_ : Sub [.free, .tx, .regs, .counts, .mem, .bytes, .lsh, .quay, .rst] ps_) :
    Rel ps_ z_ (addNode y0 y1 y2 y3 y4 y5 y6 y7 y8 y9) := by
  induction y0 generalizing y1 y4 y5 y8 y9 with
  | zero => exact rel_deliverRoot h1_ (Sub.trans (by decide) hp_)
  | succ k ih =>
    unfold addNode
    extract_lets -merge -underBinder x0 x1 x2 x3
    have h0 : Rel ps_ z_ x0 := rel_flagValues h1_ (Sub.trans (by decide) hp_)
    clear_value x0
    have h2 : Rel ps_ z_ x2 := rel_modColl h0 (Sub.trans (by decide) hp_)
    clear_value x1 x2 x3
    refine iteP (P := Rel ps_ z_) (rel_deliverRoot h0 (Sub.trans (by decide) hp_)) ?_
    refine iteP (P := Rel ps_ z_) (rel_sendTo h2 (Sub.trans (by decide) hp_)) ?_
    refine iteP (P := Rel ps_ z_) (ih h2) ?_
    split
    · exact h2
    · exact ih h2

theorem rel_writeMove {ps_ : List Part} {z_ : State} {s : State} {r : CRef} {g : Geom} {q : Nat} {c : Nat} {bs : List Byte} (h0_ : Rel ps_ z_ s) (hp_ : Sub [.free, .tx, .regs, .counts, .mem, .bytes, .lsh, .quay, .rst] ps_) :
    Rel ps_ z_ (writeMove s r g q c bs) := by
  unfold writeMove
  extract_lets -merge -underBinder x2_0 x2_1
  clear_value x2_0 x2_1
  split
  · assumption
  · refine iteP (P := Rel ps_ z_) ?_ ?_
    · assumption
    · split
      · rename_i q6_0
        try have hq6_0 := of_eqO (ps := ps_) (z := z_) q6_0 (by
            refine rel_writePart ?_ (Sub.trans (by decide) hp_)
            · refine rel_flagValues ?_ (Sub.trans (by decide) hp_)
              · assumption
            )
        refine rel_modColl ?_ (Sub.trans (by decide) hp_)
        · assumption
      · rename_i q6_0
        try have hq6_0 := of_eqO (ps := ps_) (z := z_) q6_0 (by
            refine rel_writePart ?_ (Sub.trans (by decide) hp_)
            · refine rel_flagValues ?_ (Sub.trans (by decide) hp_)
              · assumption
            )
        refine rel_wrOr ?_ (Sub.trans (by decide) hp_)
        · assumption

theorem rel_pumpColl {ps_ : List Part} {z_ : State} {s : State} {r : CRef} (h0_ : Rel ps_ z_ s) (hp_ : Sub [.tx, .regs, .counts, .clf, .lsh] ps_) :
    Rel ps_ z_ (pumpColl s r) := by
  unfold pumpColl
  refine iteP (P := Rel ps_ z_) ?_ ?_
  · assumption
  · split
    · assumption
    · extract_lets -merge -underBinder x6_0 x6_1
      clear_value x6_0
      have hx6_1 : Rel ps_ z_ x6_1 := by
        unfold x6_1
        refine rel_modColl ?_ (Sub.trans (by decide) hp_)
        · assumption
      clear_value x6_1
      refine foldSP ?_ ?_ _
      · assumption
      · intro a8_0 a8_1 h8_0
        extract_lets -merge -underBinder x8_0 x8_1 x8_2
        clear_value x8_0 x8_1
        have hx8_2 : Rel ps_ z_ x8_2 := by
          unfold x8_2
          refine rel_modPerm ?_ (Sub.trans (by decide) hp_)
          · assumption
        clear_value x8_2
        refine rel_lshSend ?_ (Sub.trans (by decide) hp_)
        · assumption

theorem rel_sendAck {ps_ : List Part} {z_ : State} {s : State} {r : CRef} {g : Geom} {q : Nat} (h0_ : Rel ps_ z_ s) (hp_ : Sub [.tx, .regs, .counts, .clf, .lsh] ps_) :
    Rel ps_ z_ (sendAck s r g q) := by
  unfold sendAck
  split
  · assumption
  · extract_lets -merge -underBinder x4_0 x4_1 x4_2
    clear_value x4_0 x4_1
    have hx4_2 : Rel ps_ z_ x4_2 := by
      unfold x4_2
      refine rel_modColl ?_ (Sub.trans (by decide) hp_)
      · assumption
    clear_value x4_2
    refine iteP (P := Rel ps_ z_) ?_ ?_
    · assumption
    · refine rel_lshSend ?_ (Sub.trans (by decide) hp_)
      · assumption

theorem rel_sendAcks {ps_ : List Part} {z_ : State} {s : State} {r : CRef} (h0_ : Rel ps_ z_ s) (hp_ : Sub [.tx, .regs, .counts, .clf, .lsh] ps_) :
    Rel ps_ z_ (sendAcks s r) := by
  unfold sendAcks
  split
  · assumption
  · split
    · assumption
    · refine foldSP ?_ ?_ _
      · assumption
      · intro a8_0 a8_1 h8_0
        refine rel_sendAck ?_ (Sub.trans (by decide) hp_)
        · assumption

theorem rel_ackAll {ps_ : List Part} {z_ : State} {s : State} {b : Nat} (h0_ : Rel ps_ z_ s) (hp_ : Sub [.tx, .regs, .counts, .clf, .lsh] ps_) :
    Rel ps_ z_ (ackAll s b) := by
  unfold ackAll
  refine foldSP ?_ ?_ _
  · assumption
  · intro a4_0 a4_1 h4_0
    refine foldSP ?_ ?_ _
    · assumption
    · intro a6_0 a6_1 h6_0
      refine rel_sendAcks ?_ (Sub.trans (by decide) hp_)
      · assumption

theorem rel_acceptData {ps_ : List Part} {z_ : State} {s : State} {r : CRef} {g : Geom} {p : LshPkt} {early : Bool} (h0_ : Rel ps_ z_ s) (hp_ : Sub [.free, .tx, .regs, .counts, .mem, .bytes, .clf, .lsh, .quay, .rst] ps_) :
    Rel ps_ z_ (acceptData s r g p early) := by
  unfold acceptData
  split
  · extract_lets -merge -underBinder x4_0 x4_1 x4_2 x4_3 x4_4 x4_5
    have hx4_0 : Rel ps_ z_ x4_0 := by
      unfold x4_0
      refine iteP (P := Rel ps_ z_) ?_ ?_
      · assumption
      · refine rel_noteAccept ?_ (Sub.trans (by decide) hp_)
        · assumption
    clear_value x4_0
    have hx4_1 : Rel ps_ z_ x4_1 := by
      unfold x4_1
      refine rel_modColl ?_ (Sub.trans (by decide) hp_)
      · assumption
    clear_value x4_1 x4_2 x4_3
    have hx4_4 : Rel ps_ z_ x4_4 := by
      unfold x4_4
      refine rel_flagValues ?_ (Sub.trans (by decide) hp_)
      · assumption
    clear_value x4_4
    have hx4_5 : Rel ps_ z_ x4_5 := by
      unfold x4_5
      refine iteP (P := Rel ps_ z_) ?_ ?_
      · refine iteP (P := Rel ps_ z_) ?_ ?_
        · refine rel_writeRoot ?_ (Sub.trans (by decide) hp_)
          · refine rel_putNode ?_ (Sub.trans (by decide) hp_)
            · assumption
        · refine rel_addNode ?_ (Sub.trans (by decide) hp_)
          · assumption
      · refine iteP (P := Rel ps_ z_) ?_ ?_
        · refine rel_modColl ?_ (Sub.trans (by decide) hp_)
          · assumption
        · refine rel_writeMove ?_ (Sub.trans (by decide) hp_)
          · assumption
    clear_value x4_5
    refine iteP (P := Rel ps_ z_) ?_ ?_
    · refine rel_count ?_ (Sub.trans (by decide) hp_)
      · assumption
    · refine rel_pumpColl ?_ (Sub.trans (by decide) hp_)
      · refine rel_ackAll ?_ (Sub.trans (by decide) hp_)
        · assumption
  · assumption

theorem rel_execCollectiveDataReceive {ps_ : List Part} {z_ : State} {p : LshPkt} {s : State} (h1_ : Rel ps_ z_ s) (hp_ : Sub [.free, .tx, .regs, .counts, .mem, .bytes, .clf, .lsh, .quay, .rst] ps_) :
    Ends ps_ z_ (execCollectiveDataReceive p s) := by
  unfold execCollectiveDataReceive
  extract_lets -merge -underBinder x2_0
  have hx2_0 : Rel ps_ z_ x2_0 := by
    unfold x2_0
    refine iteP (P := Rel ps_ z_) ?_ ?_
    · refine rel_setFlag ?_ (Sub.trans (by decide) hp_)
      · assumption
    · assumption
  clear_value x2_0
  refine ofNext ?_
  refine iteP (P := Rel ps_ z_) ?_ ?_
  · assumption
  · refine iteP (P := Rel ps_ z_) ?_ ?_
    · refine rel_crcFailed ?_ (Sub.trans (by decide) hp_)
      · assumption
    · refine iteP (P := Rel ps_ z_) ?_ ?_
      · split
        · refine rel_permData ?_ (Sub.trans (by decide) hp_)
          · refine iteP (P := Rel ps_ z_) ?_ ?_
            · refine rel_setFlag ?_ (Sub.trans (by decide) hp_)
              · assumption
            · assumption
        · refine rel_staleDrop ?_ (Sub.trans (by decide) hp_)
          · assumption
      · refine iteP (P := Rel ps_ z_) ?_ ?_
        · refine rel_staleDrop ?_ (Sub.trans (by decide) hp_)
          · assumption
        · split
          · split
            · refine rel_acceptData ?_ (Sub.trans (by decide) hp_)
              · assumption
            · assumption
          · extract_lets -merge -underBinder x12_0
            clear_value x12_0
            refine iteP (P := Rel ps_ z_) ?_ ?_
            · refine rel_count ?_ (Sub.trans (by decide) hp_)
              · assumption
            · refine rel_modLsh ?_ (Sub.trans (by decide) hp_)
              · refine rel_noteAccept ?_ (Sub.trans (by decide) hp_)
                · assumption

theorem rel_movePart {ps_ : List Part} {z_ : State} {s : State} {b : Nat} {fmt : Nat} {e : MapEnt} {k : Nat} (h0_ : Rel ps_ z_ s) (hp_ : Sub [.free, .tx, .regs, .counts, .mem, .lsh, .quay, .rst] ps_) :
    Rel1 ps_ z_ (movePart s b fmt e k) := by
  unfold movePart
  extract_lets -merge -underBinder x2_0 x2_1 x2_2
  clear_value x2_0 x2_1
  have hx2_2 : Rel ps_ z_ x2_2 := by
    unfold x2_2
    refine iteP (P := Rel ps_ z_) ?_ ?_
    · refine rel_setFlag ?_ (Sub.trans (by decide) hp_)
      · refine rel_noteRead ?_ (Sub.trans (by decide) hp_)
        · assumption
    · assumption
  clear_value x2_2
  refine ofPair ?_
  refine rel_flagValues ?_ (Sub.trans (by decide) hp_)
  · assumption

theorem rel_answerMove {ps_ : List Part} {z_ : State} {s : State} {p : LshPkt} {role : PermRole} (h0_ : Rel ps_ z_ s) (hp_ : Sub [.free, .tx, .regs, .counts, .mem, .clf, .lsh, .quay, .rst] ps_) :
    Rel ps_ z_ (answerMove s p role) := by
  unfold answerMove
  extract_lets -merge -underBinder x2_0
  clear_value x2_0
  split
  · assumption
  · extract_lets -merge -underBinder x4_0 x4_1
    have hx4_0 : Rel1 ps_ z_ x4_0 := by
      unfold x4_0
      refine rel_movePart ?_ (Sub.trans (by decide) hp_)
      · assumption
    clear_value x4_0 x4_1
    refine iteP (P := Rel ps_ z_) ?_ ?_
    · assumption
    · refine rel_lshSend ?_ (Sub.trans (by decide) hp_)
      · refine (?_ : Rel1 ps_ z_ _)
        assumption

theorem rel_answerReq {ps_ : List Part} {z_ : State} {s : State} {g : Geom} {c : Coll} {p : LshPkt} (h0_ : Rel ps_ z_ s) (hp_ : Sub [.tx, .regs, .counts, .clf, .lsh] ps_) :
    RelO ps_ z_ (answerReq s g c p) := by
  unfold answerReq
  split
  · extract_lets -merge -underBinder x4_0
    clear_value x4_0
    refine ofSome ?_
    refine rel_lshSend ?_ (Sub.trans (by decide) hp_)
    · assumption
  · refine iteP (P := RelO ps_ z_) ?_ ?_
    · exact ofNone
    · refine ofSome ?_
      assumption

theorem rel_removeColl {ps_ : List Part} {z_ : State} {s : State} {r : CRef} (h0_ : Rel ps_ z_ s) (hp_ : Sub [.lsh] ps_) :
    Rel ps_ z_ (removeColl s r) := by
  unfold removeColl
  refine rel_modChan ?_ (Sub.trans (by decide) hp_)
  · assumption

theorem rel_failColl {ps_ : List Part} {z_ : State} {s : State} {r : CRef} {c : Coll} {g : Geom} {cause : Nat} (h0_ : Rel ps_ z_ s) (hp_ : Sub [.tx, .regs, .counts, .shelf, .clf, .lsh, .quay] ps_) :
    Rel ps_ z_ (failColl s r c g cause) := by
  unfold failColl
  refine rel_ackAll ?_ (Sub.trans (by decide) hp_)
  · refine rel_failNamed ?_ (Sub.trans (by decide) hp_)
    · refine rel_removeColl ?_ (Sub.trans (by decide) hp_)
      · assumption

theorem rel_execCollectiveReqReceive {ps_ : List Part} {z_ : State} {p : LshPkt} {s : State} (h1_ : Rel ps_ z_ s) (hp_ : Sub [.free, .tx, .regs, .counts, .shelf, .mem, .clf, .lsh, .quay, .rst] ps_) :
    Ends ps_ z_ (execCollectiveReqReceive p s) := by
  unfold execCollectiveReqReceive
  extract_lets -merge -underBinder x2_0
  have hx2_0 : Rel ps_ z_ x2_0 := by
    unfold x2_0
    refine iteP (P := Rel ps_ z_) ?_ ?_
    · refine rel_setFlag ?_ (Sub.trans (by decide) hp_)
      · assumption
    · assumption
  clear_value x2_0
  refine ofNext ?_
  refine iteP (P := Rel ps_ z_) ?_ ?_
  · assumption
  · refine iteP (P := Rel ps_ z_) ?_ ?_
    · refine rel_count ?_ (Sub.trans (by decide) hp_)
      · refine rel_wrOr ?_ (Sub.trans (by decide) hp_)
        · assumption
    · refine iteP (P := Rel ps_ z_) ?_ ?_
      · split
        · refine rel_answerMove ?_ (Sub.trans (by decide) hp_)
          · refine iteP (P := Rel ps_ z_) ?_ ?_
            · refine rel_setFlag ?_ (Sub.trans (by decide) hp_)
              · assumption
            · assumption
        · refine rel_staleDrop ?_ (Sub.trans (by decide) hp_)
          · assumption
      · refine iteP (P := Rel ps_ z_) ?_ ?_
        · refine rel_staleDrop ?_ (Sub.trans (by decide) hp_)
          · assumption
        · split
          · split
            · assumption
            · split
              · assumption
              · split
                · rename_i q16_0
                  try have hq16_0 := of_eqO (ps := ps_) (z := z_) q16_0 (by
                      refine rel_answerReq ?_ (Sub.trans (by decide) hp_)
                      · assumption
                      )
                  assumption
                · rename_i q16_0
                  try have hq16_0 := of_eqO (ps := ps_) (z := z_) q16_0 (by
                      refine rel_answerReq ?_ (Sub.trans (by decide) hp_)
                      · assumption
                      )
                  refine rel_failColl ?_ (Sub.trans (by decide) hp_)
                  · assumption
          · split
            · assumption
            · split
              · rename_i q14_0
                try have hq14_0 := of_eqO (ps := ps_) (z := z_) q14_0 (by
                    refine rel_answerReq ?_ (Sub.trans (by decide) hp_)
                    · assumption
                    )
                assumption
              · rename_i q14_0
                try have hq14_0 := of_eqO (ps := ps_) (z := z_) q14_0 (by
                    refine rel_answerReq ?_ (Sub.trans (by decide) hp_)
                    · assumption
                    )
                refine rel_failNamed ?_ (Sub.trans (by decide) hp_)
                · assumption
          · extract_lets -merge -underBinder x12_0
            clear_value x12_0
            refine iteP (P := Rel ps_ z_) ?_ ?_
            · refine rel_failNamed ?_ (Sub.trans (by decide) hp_)
              · assumption
            · assumption

theorem rel_ownMovement {ps_ : List Part} {z_ : State} {s : State} {r : CRef} {g : Geom} {src : Hdl} (h0_ : Rel ps_ z_ s) (hp_ : Sub [.free, .tx, .regs, .counts, .mem, .bytes, .lsh, .quay, .rst] ps_) :
    Rel ps_ z_ (ownMovement s r g src) := by
  unfold ownMovement
  extract_lets -merge -underBinder x2_0 x2_1 x2_2 x2_3 x2_4 x2_5
  clear_value x2_0 x2_1 x2_2
  have hx2_3 : Rel ps_ z_ x2_3 := by
    unfold x2_3
    refine iteP (P := Rel ps_ z_) ?_ ?_
    · refine rel_setFlag ?_ (Sub.trans (by decide) hp_)
      · refine rel_noteRead ?_ (Sub.trans (by decide) hp_)
        · assumption
    · assumption
  clear_value x2_3 x2_4
  have hx2_5 : ∀ a0, Rel ps_ z_ a0 → ∀ a1, Rel ps_ z_ (x2_5 a0 a1) := by
    intro a0_ h0_ a1_
    unfold x2_5
    refine foldSP ?_ ?_ _
    · assumption
    · intro a6_0 a6_1 h6_0
      extract_lets -merge -underBinder x6_0
      clear_value x6_0
      refine iteP (P := Rel ps_ z_) ?_ ?_
      · refine rel_writeMove ?_ (Sub.trans (by decide) hp_)
        · assumption
      · refine rel_sendTo ?_ (Sub.trans (by decide) hp_)
        · refine rel_flagValues ?_ (Sub.trans (by decide) hp_)
          · assumption
  clear_value x2_5
  refine iteP (P := Rel ps_ z_) ?_ ?_
  · refine foldSP ?_ ?_ _
    · assumption
    · intro a6_0 a6_1 h6_0
      refine rel_sendTo ?_ (Sub.trans (by decide) hp_)
      · assumption
  · refine iteP (P := Rel ps_ z_) ?_ ?_
    · assumption
    · refine foldSP ?_ ?_ _
      · assumption
      · intro a8_0 a8_1 h8_0
        refine hx2_5 _ ?_ _
        assumption

theorem rel_contribute {ps_ : List Part} {z_ : State} {s : State} {r : CRef} {g : Geom} {val : Nat → W32} {invAt : Nat → Nat → Bool} (h0_ : Rel ps_ z_ s) (hp_ : Sub [.free, .tx, .regs, .counts, .mem, .bytes, .lsh, .quay, .rst] ps_) :
    Rel ps_ z_ (contribute s r g val invAt) := by
  unfold contribute
  extract_lets -merge -underBinder x2_0
  have hx2_0 : ∀ a0, Rel ps_ z_ a0 → ∀ a1, ∀ a2, Rel ps_ z_ (x2_0 a0 a1 a2) := by
    intro a0_ h0_ a1_ a2_
    unfold x2_0
    extract_lets -merge -underBinder x4_0 x4_1 x4_2 x4_3
    clear_value x4_0 x4_1 x4_2
    have hx4_3 : Rel ps_ z_ x4_3 := by
      unfold x4_3
      refine rel_sendTo ?_ (Sub.trans (by decide) hp_)
      · refine rel_flagValues ?_ (Sub.trans (by decide) hp_)
        · assumption
    clear_value x4_3
    refine iteP (P := Rel ps_ z_) ?_ ?_
    · refine rel_addNode ?_ (Sub.trans (by decide) hp_)
      · assumption
    · refine rel_putNode ?_ (Sub.trans (by decide) hp_)
      · assumption
  clear_value x2_0
  refine foldSP ?_ ?_ _
  · assumption
  · intro a4_0 a4_1 h4_0
    refine foldSP ?_ ?_ _
    · assumption
    · intro a6_0 a6_1 h6_0
      refine hx2_0 _ ?_ _ _
      assumption

theorem rel_pumpAll {ps_ : List Part} {z_ : State} {s : State} {b : Nat} (h0_ : Rel ps_ z_ s) (hp_ : Sub [.tx, .regs, .counts, .clf, .lsh] ps_) :
    Rel ps_ z_ (pumpAll s b) := by
  unfold pumpAll
  refine foldSP ?_ ?_ _
  · assumption
  · intro a4_0 a4_1 h4_0
    refine foldSP ?_ ?_ _
    · assumption
    · intro a6_0 a6_1 h6_0
      refine rel_pumpColl ?_ (Sub.trans (by decide) hp_)
      · assumption

theorem rel_putSum {ps_ : List Part} {z_ : State} {s : State} {b : Nat} {key : Nat} {v : W64 × W64} (h0_ : Rel ps_ z_ s) (hp_ : Sub [.lsh] ps_) :
    Rel ps_ z_ (putSum s b key v) := by
  unfold putSum
  refine rel_modPerm ?_ (Sub.trans (by decide) hp_)
  · assumption

theorem rel_pumpPerm {ps_ : List Part} {z_ : State} {s : State} {b : Nat} (h0_ : Rel ps_ z_ s) (hp_ : Sub [.tx, .regs, .counts, .clf, .lsh] ps_) :
    Rel ps_ z_ (pumpPerm s b) := by
  unfold pumpPerm
  extract_lets -merge -underBinder x2_0 x2_1
  clear_value x2_0 x2_1
  refine iteP (P := Rel ps_ z_) ?_ ?_
  · assumption
  · refine foldSP ?_ ?_ _
    · refine rel_modPerm ?_ (Sub.trans (by decide) hp_)
      · assumption
    · intro a6_0 a6_1 h6_0
      extract_lets -merge -underBinder x6_0
      clear_value x6_0
      refine rel_lshSend ?_ (Sub.trans (by decide) hp_)
      · assumption

theorem rel_permMove {ps_ : List Part} {z_ : State} {s : State} {b : Nat} (h0_ : Rel ps_ z_ s) (hp_ : Sub [.free, .tx, .regs, .counts, .mem, .bytes, .clf, .lsh, .quay, .rst] ps_) :
    Rel ps_ z_ (permMove s b) := by
  unfold permMove
  extract_lets -merge -underBinder x2_0 x2_1
  clear_value x2_0 x2_1
  split
  · assumption
  · extract_lets -merge -underBinder x4_0 x4_1 x4_2
    clear_value x4_0 x4_1
    have hx4_2 : ∀ a0, Rel ps_ z_ a0 → ∀ a1, Rel ps_ z_ (x4_2 a0 a1) := by
      intro a0_ h0_ a1_
      unfold x4_2
      split
      · assumption
      · refine iteP (P := Rel ps_ z_) ?_ ?_
        · assumption
        · refine foldSP ?_ ?_ _
          · assumption
          · intro a12_0 a12_1 h12_0
            extract_lets -merge -underBinder x12_0 x12_1 x12_2
            have hx12_0 : Rel1 ps_ z_ x12_0 := by
              unfold x12_0
              refine rel_movePart ?_ (Sub.trans (by decide) hp_)
              · assumption
            clear_value x12_0 x12_1 x12_2
            refine iteP (P := Rel ps_ z_) ?_ ?_
            · refine rel_landPart ?_ (Sub.trans (by decide) hp_)
              · refine (?_ : Rel1 ps_ z_ _)
                assumption
            · refine rel_modPerm ?_ (Sub.trans (by decide) hp_)
              · refine (?_ : Rel1 ps_ z_ _)
                assumption
    clear_value x4_2
    refine rel_pumpPerm ?_ (Sub.trans (by decide) hp_)
    · refine foldSP ?_ ?_ _
      · assumption
      · intro a8_0 a8_1 h8_0
        refine hx4_2 _ ?_ _
        assumption

theorem rel_ownContribution {ps_ : List Part} {z_ : State} {s : State} {r : CRef} {g : Geom} {src : Hdl} (h0_ : Rel ps_ z_ s) (hp_ : Sub [.free, .tx, .regs, .counts, .mem, .bytes, .lsh, .quay, .rst] ps_) :
    Rel ps_ z_ (ownContribution s r g src) := by
  unfold ownContribution
  extract_lets -merge -underBinder x2_0 x2_1 x2_2 x2_3 x2_4
  clear_value x2_0 x2_1 x2_2 x2_3
  have hx2_4 : Rel ps_ z_ x2_4 := by
    unfold x2_4
    refine iteP (P := Rel ps_ z_) ?_ ?_
    · refine rel_setFlag ?_ (Sub.trans (by decide) hp_)
      · refine rel_noteRead ?_ (Sub.trans (by decide) hp_)
        · assumption
    · assumption
  clear_value x2_4
  refine rel_contribute ?_ (Sub.trans (by decide) hp_)
  · assumption

theorem rel_carryOne {ps_ : List Part} {z_ : State} {l : List MapEnt} {me : Nat} {old : NMap Group} {s : State} {r : CRef} (h3_ : Rel ps_ z_ s) (hp_ : Sub [.free, .tx, .regs, .counts, .shelf, .mem, .bytes, .clf, .lsh, .quay, .rst] ps_) :
    Rel ps_ z_ (carryOne l me old s r) := by
  unfold carryOne
  split
  · assumption
  · extract_lets -merge -underBinder x4_0
    clear_value x4_0
    split
    · extract_lets -merge -underBinder x6_0 x6_1 x6_2 x6_3 x6_4
      clear_value x6_0 x6_1 x6_2 x6_3
      have hx6_4 : Rel ps_ z_ x6_4 := by
        unfold x6_4
        refine rel_modColl ?_ (Sub.trans (by decide) hp_)
        · assumption
      clear_value x6_4
      refine iteP (P := Rel ps_ z_) ?_ ?_
      · assumption
      · split
        · refine iteP (P := Rel ps_ z_) ?_ ?_
          · refine rel_failColl ?_ (Sub.trans (by decide) hp_)
            · assumption
          · refine rel_modColl ?_ (Sub.trans (by decide) hp_)
            · assumption
        · extract_lets -merge -underBinder x10_0
          have hx10_0 : Rel ps_ z_ x10_0 := by
            unfold x10_0
            refine rel_modColl ?_ (Sub.trans (by decide) hp_)
            · assumption
          clear_value x10_0
          refine iteP (P := Rel ps_ z_) ?_ ?_
          · refine rel_ownContribution ?_ (Sub.trans (by decide) hp_)
            · assumption
          · refine rel_ownMovement ?_ (Sub.trans (by decide) hp_)
            · assumption
    · assumption

theorem rel_carryOver {ps_ : List Part} {z_ : State} {s : State} {b : Nat} {l : List MapEnt} {old : NMap Group} (h0_ : Rel ps_ z_ s) (hp_ : Sub [.free, .tx, .regs, .counts, .shelf, .mem, .bytes, .clf, .lsh, .quay, .rst] ps_) :
    Rel ps_ z_ (carryOver s b l old) := by
  unfold carryOver
  extract_lets -merge -underBinder x2_0
  clear_value x2_0
  refine foldSP ?_ ?_ _
  · assumption
  · intro a4_0 a4_1 h4_0
    refine foldSP ?_ ?_ _
    · assumption
    · intro a6_0 a6_1 h6_0
      extract_lets -merge -underBinder x6_0 x6_1
      clear_value x6_0
      have hx6_1 : Rel ps_ z_ x6_1 := by
        unfold x6_1
        refine rel_carryOne ?_ (Sub.trans (by decide) hp_)
        · assumption
      clear_value x6_1
      refine rel_pumpColl ?_ (Sub.trans (by decide) hp_)
      · refine rel_askMissing ?_ (Sub.trans (by decide) hp_)
        · assumption

theorem rel_permInstall {ps_ : List Part} {z_ : State} {s : State} {b : Nat} (h0_ : Rel ps_ z_ s) (hp_ : Sub [.free, .tx, .regs, .counts, .shelf, .mem, .bytes, .clf, .lsh, .quay, .rst] ps_) :
    Rel ps_ z_ (permInstall s b) := by
  unfold permInstall
  extract_lets -merge -underBinder x2_0 x2_1 x2_2 x2_3 x2_4 x2_5 x2_6 x2_7
  clear_value x2_0 x2_1 x2_2 x2_3
  have hx2_4 : Rel ps_ z_ x2_4 := by
    unfold x2_4
    refine rel_modLsh ?_ (Sub.trans (by decide) hp_)
    · assumption
  clear_value x2_4
  have hx2_5 : Rel ps_ z_ x2_5 := by
    unfold x2_5
    refine rel_wrOr ?_ (Sub.trans (by decide) hp_)
    · assumption
  clear_value x2_5
  have hx2_6 : Rel ps_ z_ x2_6 := by
    unfold x2_6
    refine rel_carryOver ?_ (Sub.trans (by decide) hp_)
    · assumption
  clear_value x2_6
  have hx2_7 : Rel ps_ z_ x2_7 := by
    unfold x2_7
    refine iteP (P := Rel ps_ z_) ?_ ?_
    · refine rel_bumpSlot ?_ (Sub.trans (by decide) hp_)
      · assumption
    · assumption
  clear_value x2_7
  refine iteP (P := Rel ps_ z_) ?_ ?_
  · refine rel_event ?_ (Sub.trans (by decide) hp_)
    · assumption
  · assumption

theorem rel_totalIn {ps_ : List Part} {z_ : State} {s : State} {b : Nat} {v : W64 × W64} (h0_ : Rel ps_ z_ s) (hp_ : Sub [.free, .tx, .regs, .counts, .shelf, .mem, .bytes, .clf, .lsh, .quay, .rst] ps_) :
    Rel ps_ z_ (totalIn s b v) := by
  unfold totalIn
  extract_lets -merge -underBinder x2_0
  have hx2_0 : Rel ps_ z_ x2_0 := by
    unfold x2_0
    refine rel_modPerm ?_ (Sub.trans (by decide) hp_)
    · assumption
  clear_value x2_0
  refine iteP (P := Rel ps_ z_) ?_ ?_
  · assumption
  · refine iteP (P := Rel ps_ z_) ?_ ?_
    · refine rel_permMove ?_ (Sub.trans (by decide) hp_)
      · refine rel_modPerm ?_ (Sub.trans (by decide) hp_)
        · assumption
    · refine rel_permInstall ?_ (Sub.trans (by decide) hp_)
      · assumption

theorem rel_sendSum {ps_ : List Part} {z_ : State} {s : State} {b : Nat} {role : PermRole} {rank : Nat} {phase : Nat} {round : Nat} {level : Nat} {node : Nat} {v : W64 × W64} (h0_ : Rel ps_ z_ s) (hp_ : Sub [.tx, .regs, .counts, .clf, .lsh] ps_) :
    Rel ps_ z_ (sendSum s b role rank phase round level node v) := by
  unfold sendSum
  extract_lets -merge -underBinder x2_0
  clear_value x2_0
  refine rel_lshSend ?_ (Sub.trans (by decide) hp_)
  · assumption

theorem rel_climb {ps_ : List Part} {z_ : State} {y0 : Nat} {y1 : State} {y2 : Nat} {y3 : PermRole} {y4 : Nat} {y5 : Nat} {y6 : W64 × W64} (h1_ : Rel ps_ z_ y1) (hp_ : Sub [.free, .tx, .regs, .counts, .shelf, .mem, .bytes, .clf, .lsh, .quay, .rst] ps_) :
    Rel ps_ z_ (climb y0 y1 y2 y3 y4 y5 y6) := by
  induction y0 generalizing y1 y4 y5 y6 with
  | zero => exact h1_
  | succ k ih =>
    unfold climb
    extract_lets -merge -underBinder x0 x1 x2
    have h2 : Rel ps_ z_ x2 := rel_putSum h1_ (Sub.trans (by decide) hp_)
    clear_value x0 x1 x2
    refine iteP (P := Rel ps_ z_) ?_ ?_
    · refine rel_totalIn ?_ (Sub.trans (by decide) hp_)
      exact foldSP h2 (fun t q ht => rel_sendSum ht (Sub.trans (by decide) hp_)) _
    refine iteP (P := Rel ps_ z_) (rel_sendSum h2 (Sub.trans (by decide) hp_)) ?_
    refine iteP (P := Rel ps_ z_) (ih h2) ?_
    split
    · exact ih h2
    · exact h2

theorem rel_climbOwn {ps_ : List Part} {z_ : State} {s : State} {b : Nat} {role : PermRole} (h0_ : Rel ps_ z_ s) (hp_ : Sub [.free, .tx, .regs, .counts, .shelf, .mem, .bytes, .clf, .lsh, .quay, .rst] ps_) :
    Rel ps_ z_ (climbOwn s b role) := by
  unfold climbOwn
  extract_lets -merge -underBinder x2_0
  clear_value x2_0
  split
  · refine rel_climb ?_ (Sub.trans (by decide) hp_)
    · assumption
  · assumption

theorem rel_execCountReceive {ps_ : List Part} {z_ : State} {p : LshPkt} {s : State} (h1_ : Rel ps_ z_ s) (hp_ : Sub [.free, .tx, .regs, .counts, .shelf, .mem, .bytes, .clf, .lsh, .quay, .rst] ps_) :
    Ends ps_ z_ (execCountReceive p s) := by
  unfold execCountReceive
  refine ofNext ?_
  refine iteP (P := Rel ps_ z_) ?_ ?_
  · assumption
  · refine iteP (P := Rel ps_ z_) ?_ ?_
    · refine rel_count ?_ (Sub.trans (by decide) hp_)
      · refine rel_wrOr ?_ (Sub.trans (by decide) hp_)
        · assumption
    · split
      · refine rel_staleDrop ?_ (Sub.trans (by decide) hp_)
        · assumption
      · extract_lets -merge -underBinder x8_0 x8_1 x8_2 x8_3 x8_4 x8_5 x8_6 x8_7
        clear_value x8_0 x8_1 x8_2 x8_3
        have hx8_4 : Rel ps_ z_ x8_4 := by
          unfold x8_4
          refine iteP (P := Rel ps_ z_) ?_ ?_
          · refine rel_setFlag ?_ (Sub.trans (by decide) hp_)
            · assumption
          · assumption
        clear_value x8_4 x8_5 x8_6
        have hx8_7 : Rel ps_ z_ x8_7 := by
          unfold x8_7
          refine rel_putSum ?_ (Sub.trans (by decide) hp_)
          · assumption
        clear_value x8_7
        refine iteP (P := Rel ps_ z_) ?_ ?_
        · refine rel_staleDrop ?_ (Sub.trans (by decide) hp_)
          · assumption
        · split
          · assumption
          · refine iteP (P := Rel ps_ z_) ?_ ?_
            · refine iteP (P := Rel ps_ z_) ?_ ?_
              · refine rel_totalIn ?_ (Sub.trans (by decide) hp_)
                · assumption
              · assumption
            · split
              · refine rel_sendSum ?_ (Sub.trans (by decide) hp_)
                · assumption
              · refine iteP (P := Rel ps_ z_) ?_ ?_
                · refine rel_climbOwn ?_ (Sub.trans (by decide) hp_)
                  · assumption
                · assumption

theorem rel_queueSlotReduce {ps_ : List Part} {z_ : State} {s : State} {b : Nat} {slot : Nat} {d : List Byte} (h0_ : Rel ps_ z_ s) (hp_ : Sub [.lsh] ps_) :
    Rel ps_ z_ (queueSlotReduce s b slot d) := by
  unfold queueSlotReduce
  extract_lets -merge -underBinder x2_0
  clear_value x2_0
  split
  · assumption
  · extract_lets -merge -underBinder x4_0
    clear_value x4_0
    refine rel_modChan ?_ (Sub.trans (by decide) hp_)
    · assumption

theorem rel_wantShards {ps_ : List Part} {z_ : State} {s : State} {h : Hdl} (h0_ : Rel ps_ z_ s) (hp_ : Sub [.mem] ps_) :
    Rel ps_ z_ (wantShards s h) := by
  unfold wantShards
  refine foldSP ?_ ?_ _
  · assumption
  · intro a4_0 a4_1 h4_0
    refine iteP (P := Rel ps_ z_) ?_ ?_
    · refine rel_wantShard ?_ (Sub.trans (by decide) hp_)
      · assumption
    · assumption

theorem rel_retryRoots {ps_ : List Part} {z_ : State} {s : State} {r : CRef} (h0_ : Rel ps_ z_ s) (hp_ : Sub [.free, .tx, .regs, .counts, .mem, .bytes, .lsh, .quay, .rst] ps_) :
    Rel ps_ z_ (retryRoots s r) := by
  unfold retryRoots
  split
  · assumption
  · split
    · assumption
    · refine iteP (P := Rel ps_ z_) ?_ ?_
      · refine foldSP ?_ ?_ _
        · assumption
        · intro a10_0 a10_1 h10_0
          extract_lets -merge -underBinder x10_0 x10_1
          clear_value x10_0 x10_1
          split
          · refine rel_writeRoot ?_ (Sub.trans (by decide) hp_)
            · assumption
          · refine rel_writeRoot ?_ (Sub.trans (by decide) hp_)
            · assumption
          · assumption
      · assumption

theorem rel_startPermute {ps_ : List Part} {z_ : State} {s : State} {b : Nat} {d : List Byte} (h0_ : Rel ps_ z_ s) (hp_ : Sub [.free, .tx, .regs, .counts, .mem, .lsh, .quay, .rst] ps_) :
    Rel ps_ z_ (startPermute s b d) := by
  unfold startPermute
  extract_lets -merge -underBinder x2_0 x2_1 x2_2 x2_3 x2_4 x2_5 x2_6 x2_7 x2_8
  clear_value x2_0
  have hx2_1 : Rel1 ps_ z_ x2_1 := by
    unfold x2_1
    refine rel_residentFor ?_ (Sub.trans (by decide) hp_)
    · assumption
  clear_value x2_1
  have hx2_2 : Rel ps_ z_ x2_2 := by
    unfold x2_2
    refine (?_ : Rel1 ps_ z_ _)
    assumption
  clear_value x2_2 x2_3 x2_4 x2_5
  have hx2_6 : Rel1 ps_ z_ x2_6 := by
    unfold x2_6
    refine rel_residentFor ?_ (Sub.trans (by decide) hp_)
    · assumption
  clear_value x2_6
  have hx2_7 : Rel ps_ z_ x2_7 := by
    unfold x2_7
    refine iteP (P := Rel ps_ z_) ?_ ?_
    · refine rel_setFlag ?_ (Sub.trans (by decide) hp_)
      · refine rel_noteRead ?_ (Sub.trans (by decide) hp_)
        · refine (?_ : Rel1 ps_ z_ _)
          assumption
    · refine (?_ : Rel1 ps_ z_ _)
      assumption
  clear_value x2_7
  have hx2_8 : Rel ps_ z_ x2_8 := by
    unfold x2_8
    refine rel_modChan ?_ (Sub.trans (by decide) hp_)
    · assumption
  clear_value x2_8
  refine iteP (P := Rel ps_ z_) ?_ ?_
  · refine (?_ : Rel1 ps_ z_ _)
    assumption
  · refine iteP (P := Rel ps_ z_) ?_ ?_
    · refine (?_ : Rel1 ps_ z_ _)
      assumption
    · refine rel_modPerm ?_ (Sub.trans (by decide) hp_)
      · assumption

theorem rel_slotContribution {ps_ : List Part} {z_ : State} {s : State} {r : CRef} {g : Geom} {desc : List Byte} (h0_ : Rel ps_ z_ s) (hp_ : Sub [.free, .tx, .regs, .counts, .mem, .bytes, .lsh, .quay, .rst] ps_) :
    Rel ps_ z_ (slotContribution s r g desc) := by
  unfold slotContribution
  extract_lets -merge -underBinder x2_0 x2_1 x2_2
  clear_value x2_0 x2_1
  have hx2_2 : Rel ps_ z_ x2_2 := by
    unfold x2_2
    refine rel_faultIf ?_ (Sub.trans (by decide) hp_)
    · assumption
  clear_value x2_2
  refine rel_contribute ?_ (Sub.trans (by decide) hp_)
  · assumption

theorem rel_startColl {ps_ : List Part} {z_ : State} {s : State} {b : Nat} {c : Nat} {d : List Byte} {grp : Group} (h0_ : Rel ps_ z_ s) (hp_ : Sub [.free, .tx, .regs, .counts, .mem, .bytes, .clf, .lsh, .quay, .rst] ps_) :
    Rel ps_ z_ (startColl s b c d grp) := by
  unfold startColl
  extract_lets -merge -underBinder x2_0 x2_1 x2_2 x2_3 x2_4 x2_5 x2_6 x2_7 x2_8 x2_9 x2_10 x2_11 x2_12 x2_13
  clear_value x2_0 x2_1
  have hx2_2 : Rel ps_ z_ x2_2 := by
    unfold x2_2
    refine rel_modChan ?_ (Sub.trans (by decide) hp_)
    · assumption
  clear_value x2_2
  have hx2_3 : Rel ps_ z_ x2_3 := by
    unfold x2_3
    refine rel_modLsh ?_ (Sub.trans (by decide) hp_)
    · assumption
  clear_value x2_3 x2_4 x2_5
  have hx2_6 : Rel ps_ z_ x2_6 := by
    unfold x2_6
    refine iteP (P := Rel ps_ z_) ?_ ?_
    · refine rel_slotContribution ?_ (Sub.trans (by decide) hp_)
      · assumption
    · refine iteP (P := Rel ps_ z_) ?_ ?_
      · refine rel_ownContribution ?_ (Sub.trans (by decide) hp_)
        · assumption
      · refine rel_ownMovement ?_ (Sub.trans (by decide) hp_)
        · assumption
  clear_value x2_6
  have hx2_7 : Rel ps_ z_ x2_7 := by
    unfold x2_7
    refine rel_pumpColl ?_ (Sub.trans (by decide) hp_)
    · assumption
  clear_value x2_7 x2_8 x2_9
  have hx2_10 : Rel ps_ z_ x2_10 := by
    unfold x2_10
    refine rel_modLsh ?_ (Sub.trans (by decide) hp_)
    · assumption
  clear_value x2_10
  have hx2_11 : Rel ps_ z_ x2_11 := by
    unfold x2_11
    refine foldSP ?_ ?_ _
    · assumption
    · intro a6_0 a6_1 h6_0
      refine rel_acceptData ?_ (Sub.trans (by decide) hp_)
      · assumption
  clear_value x2_11
  have hx2_12 : Rel ps_ z_ x2_12 := by
    unfold x2_12
    refine iteP (P := Rel ps_ z_) ?_ ?_
    · refine rel_askMissing ?_ (Sub.trans (by decide) hp_)
      · assumption
    · refine foldSP ?_ ?_ _
      · assumption
      · intro a8_0 a8_1 h8_0
        refine rel_askMissing ?_ (Sub.trans (by decide) hp_)
        · assumption
  clear_value x2_12
  have hx2_13 : Rel ps_ z_ x2_13 := by
    unfold x2_13
    refine iteP (P := Rel ps_ z_) ?_ ?_
    · refine rel_wantShards ?_ (Sub.trans (by decide) hp_)
      · assumption
    · assumption
  clear_value x2_13
  refine rel_placeCopies ?_ (Sub.trans (by decide) hp_)
  · assumption

theorem rel_execCollectiveStart {ps_ : List Part} {z_ : State} {berth : Nat} {channel : Nat} {s : State} (h2_ : Rel ps_ z_ s) (hp_ : Sub [.free, .tx, .regs, .counts, .mem, .bytes, .clf, .lsh, .quay, .rst] ps_) :
    Ends ps_ z_ (execCollectiveStart berth channel s) := by
  unfold execCollectiveStart
  refine ofNext ?_
  refine iteP (P := Rel ps_ z_) ?_ ?_
  · assumption
  · split
    · refine iteP (P := Rel ps_ z_) ?_ ?_
      · refine rel_startPermute ?_ (Sub.trans (by decide) hp_)
        · assumption
      · split
        · extract_lets -merge -underBinder x10_0
          have hx10_0 : Rel1 ps_ z_ x10_0 := by
            unfold x10_0
            refine rel_residentFor ?_ (Sub.trans (by decide) hp_)
            · assumption
          clear_value x10_0
          refine iteP (P := Rel ps_ z_) ?_ ?_
          · refine rel_startColl ?_ (Sub.trans (by decide) hp_)
            · refine (?_ : Rel1 ps_ z_ _)
              assumption
          · refine (?_ : Rel1 ps_ z_ _)
            assumption
        · refine rel_modChan ?_ (Sub.trans (by decide) hp_)
          · assumption
    · assumption

theorem rel_modClose {ps_ : List Part} {z_ : State} {s : State} {b : Nat} {f : Close → Close} (h0_ : Rel ps_ z_ s) (hp_ : Sub [.lsh] ps_) :
    Rel ps_ z_ (modClose s b f) := by
  unfold modClose
  refine rel_modLsh ?_ (Sub.trans (by decide) hp_)
  · assumption

theorem rel_execCollectiveAckReceive {ps_ : List Part} {z_ : State} {p : LshPkt} {s : State} (h1_ : Rel ps_ z_ s) (hp_ : Sub [.tx, .regs, .counts, .clf, .lsh] ps_) :
    Ends ps_ z_ (execCollectiveAckReceive p s) := by
  unfold execCollectiveAckReceive
  extract_lets -merge -underBinder x2_0 x2_1
  have hx2_0 : Rel ps_ z_ x2_0 := by
    unfold x2_0
    refine iteP (P := Rel ps_ z_) ?_ ?_
    · refine rel_setFlag ?_ (Sub.trans (by decide) hp_)
      · assumption
    · assumption
  clear_value x2_0
  have hx2_1 : Rel ps_ z_ x2_1 := by
    unfold x2_1
    refine iteP (P := Rel ps_ z_) ?_ ?_
    · refine rel_setFlag ?_ (Sub.trans (by decide) hp_)
      · assumption
    · assumption
  clear_value x2_1
  refine ofNext ?_
  refine iteP (P := Rel ps_ z_) ?_ ?_
  · assumption
  · refine iteP (P := Rel ps_ z_) ?_ ?_
    · refine rel_count ?_ (Sub.trans (by decide) hp_)
      · refine rel_wrOr ?_ (Sub.trans (by decide) hp_)
        · assumption
    · refine iteP (P := Rel ps_ z_) ?_ ?_
      · refine iteP (P := Rel ps_ z_) ?_ ?_
        · refine rel_staleDrop ?_ (Sub.trans (by decide) hp_)
          · assumption
        · refine rel_pumpPerm ?_ (Sub.trans (by decide) hp_)
          · refine rel_modPerm ?_ (Sub.trans (by decide) hp_)
            · assumption
      · refine iteP (P := Rel ps_ z_) ?_ ?_
        · refine rel_staleDrop ?_ (Sub.trans (by decide) hp_)
          · assumption
        · split
          · extract_lets -merge -underBinder x12_0
            have hx12_0 : Rel ps_ z_ x12_0 := by
              unfold x12_0
              refine rel_modColl ?_ (Sub.trans (by decide) hp_)
              · assumption
            clear_value x12_0
            refine rel_pumpColl ?_ (Sub.trans (by decide) hp_)
            · assumption
          · assumption

theorem rel_execTriggerTake {ps_ : List Part} {z_ : State} {berth : Nat} {s : State} (h1_ : Rel ps_ z_ s) (hp_ : Sub [.shelf, .lsh] ps_) :
    Ends ps_ z_ (execTriggerTake berth s) := by
  unfold execTriggerTake
  refine ofNext ?_
  refine iteP (P := Rel ps_ z_) ?_ ?_
  · assumption
  · split
    · assumption
    · extract_lets -merge -underBinder x6_0 x6_1 x6_2 x6_3 x6_4
      clear_value x6_0 x6_1 x6_2
      have hx6_3 : Rel ps_ z_ x6_3 := by
        unfold x6_3
        refine rel_shelf ?_ (hp_ _ (by decide))
        assumption
      clear_value x6_3
      have hx6_4 : Rel ps_ z_ x6_4 := by
        unfold x6_4
        refine rel_placeCopies ?_ (Sub.trans (by decide) hp_)
        · assumption
      clear_value x6_4
      refine iteP (P := Rel ps_ z_) ?_ ?_
      · assumption
      · refine iteP (P := Rel ps_ z_) ?_ ?_
        · assumption
        · assumption

theorem rel_execCollectiveTimeout {ps_ : List Part} {z_ : State} {berth : Nat} {channel : Nat} {s : State} (h2_ : Rel ps_ z_ s) (hp_ : Sub [.tx, .regs, .counts, .shelf, .clf, .lsh, .quay] ps_) :
    Ends ps_ z_ (execCollectiveTimeout berth channel s) := by
  unfold execCollectiveTimeout
  extract_lets -merge -underBinder x2_0
  clear_value x2_0
  refine ofNext ?_
  split
  · assumption
  · extract_lets -merge -underBinder x4_0
    clear_value x4_0
    split
    · assumption
    · split
      · refine rel_failColl ?_ (Sub.trans (by decide) hp_)
        · assumption
      · assumption

theorem rel_slotReduced {ps_ : List Part} {z_ : State} {s : State} {b : Nat} {c : Coll} {g : Geom} (h0_ : Rel ps_ z_ s) (hp_ : Sub [.free, .tx, .regs, .counts, .shelf, .snd, .slv, .upd, .mem, .bytes, .lsh, .quay, .rst] ps_) :
    Rel ps_ z_ (slotReduced s b c g) := by
  unfold slotReduced
  extract_lets -merge -underBinder x2_0 x2_1 x2_2 x2_3
  clear_value x2_0 x2_1 x2_2
  have hx2_3 : Rel ps_ z_ x2_3 := by
    unfold x2_3
    refine rel_modFs ?_ (Sub.trans (by decide) hp_)
    · assumption
  clear_value x2_3
  refine iteP (P := Rel ps_ z_) ?_ ?_
  · assumption
  · refine rel_slvKick ?_ (Sub.trans (by decide) hp_)
    · assumption

theorem rel_execCollectiveComplete {ps_ : List Part} {z_ : State} {berth : Nat} {channel : Nat} {s : State} (h2_ : Rel ps_ z_ s) (hp_ : Sub [.free, .tx, .regs, .counts, .shelf, .snd, .slv, .upd, .mem, .bytes, .clf, .lsh, .quay, .rst] ps_) :
    Ends ps_ z_ (execCollectiveComplete berth channel s) := by
  unfold execCollectiveComplete
  extract_lets -merge -underBinder x2_0 x2_1
  clear_value x2_0
  have hx2_1 : Rel ps_ z_ x2_1 := by
    unfold x2_1
    refine iteP (P := Rel ps_ z_) ?_ ?_
    · assumption
    · refine rel_retryRoots ?_ (Sub.trans (by decide) hp_)
      · assumption
  clear_value x2_1
  refine ofNext ?_
  split
  · assumption
  · split
    · assumption
    · extract_lets -merge -underBinder x6_0 x6_1 x6_2 x6_3 x6_4 x6_5
      have hx6_0 : Rel ps_ z_ x6_0 := by
        unfold x6_0
        refine rel_modChan ?_ (Sub.trans (by decide) hp_)
        · refine rel_removeColl ?_ (Sub.trans (by decide) hp_)
          · assumption
      clear_value x6_0
      have hx6_1 : Rel ps_ z_ x6_1 := by
        unfold x6_1
        refine rel_ackAll ?_ (Sub.trans (by decide) hp_)
        · assumption
      clear_value x6_1
      have hx6_2 : Rel ps_ z_ x6_2 := by
        unfold x6_2
        refine foldSP ?_ ?_ _
        · assumption
        · intro a10_0 a10_1 h10_0
          refine rel_touch ?_ (Sub.trans (by decide) hp_)
          · assumption
      clear_value x6_2
      have hx6_3 : Rel ps_ z_ x6_3 := by
        unfold x6_3
        refine iteP (P := Rel ps_ z_) ?_ ?_
        · refine rel_reductionInto ?_ (Sub.trans (by decide) hp_)
          · assumption
        · assumption
      clear_value x6_3
      have hx6_4 : Rel ps_ z_ x6_4 := by
        unfold x6_4
        refine iteP (P := Rel ps_ z_) ?_ ?_
        · refine rel_bumpSlot ?_ (Sub.trans (by decide) hp_)
          · assumption
        · assumption
      clear_value x6_4
      have hx6_5 : Rel ps_ z_ x6_5 := by
        unfold x6_5
        refine iteP (P := Rel ps_ z_) ?_ ?_
        · refine rel_event ?_ (Sub.trans (by decide) hp_)
          · assumption
        · assumption
      clear_value x6_5
      refine iteP (P := Rel ps_ z_) ?_ ?_
      · assumption
      · refine iteP (P := Rel ps_ z_) ?_ ?_
        · refine rel_slotReduced ?_ (Sub.trans (by decide) hp_)
          · assumption
        · refine rel_placeCopies ?_ (Sub.trans (by decide) hp_)
          · assumption

theorem rel_execCountRound {ps_ : List Part} {z_ : State} {berth : Nat} {s : State} (h1_ : Rel ps_ z_ s) (hp_ : Sub [.free, .tx, .regs, .counts, .shelf, .mem, .bytes, .clf, .lsh, .quay, .rst] ps_) :
    Ends ps_ z_ (execCountRound berth s) := by
  unfold execCountRound
  extract_lets -merge -underBinder x2_0
  clear_value x2_0
  refine ofNext ?_
  split
  · assumption
  · extract_lets -merge -underBinder x4_0 x4_1
    clear_value x4_0
    have hx4_1 : Rel ps_ z_ x4_1 := by
      unfold x4_1
      refine rel_modPerm ?_ (Sub.trans (by decide) hp_)
      · assumption
    clear_value x4_1
    refine iteP (P := Rel ps_ z_) ?_ ?_
    · assumption
    · refine iteP (P := Rel ps_ z_) ?_ ?_
      · refine rel_climbOwn ?_ (Sub.trans (by decide) hp_)
        · assumption
      · refine rel_climbOwn ?_ (Sub.trans (by decide) hp_)
        · assumption

/-! ### Boundary -/

theorem rel_refreshSlot {ps_ : List Part} {z_ : State} {b : Nat} {n : W64} {s : State} {p : Nat × FSlot} (h2_ : Rel ps_ z_ s) (hp_ : Sub [.free, .tx, .regs, .counts, .snd, .slv, .mem, .lsh, .quay, .rst] ps_) :
    Rel ps_ z_ (refreshSlot b n s p) := by
  unfold refreshSlot
  split
  · assumption
  · extract_lets -merge -underBinder x4_0 x4_1
    clear_value x4_0
    have hx4_1 : Rel ps_ z_ x4_1 := by
      unfold x4_1
      refine iteP (P := Rel ps_ z_) ?_ ?_
      · refine rel_issueRefresh ?_ (Sub.trans (by decide) hp_)
        · assumption
      · refine rel_modFs ?_ (Sub.trans (by decide) hp_)
        · assumption
    clear_value x4_1
    refine iteP (P := Rel ps_ z_) ?_ ?_
    · assumption
    · refine iteP (P := Rel ps_ z_) ?_ ?_
      · refine rel_queueSlotReduce ?_ (Sub.trans (by decide) hp_)
        · assumption
      · assumption

theorem rel_flipShard {ps_ : List Part} {z_ : State} {b : Nat} {n : W64} {s : State} {p : Nat × Shard} (h2_ : Rel ps_ z_ s) (hp_ : Sub [.free, .tx, .regs, .counts, .upd, .mem, .quay, .rst] ps_) :
    Rel ps_ z_ (flipShard b n s p) := by
  unfold flipShard
  extract_lets -merge -underBinder x2_0 x2_1 x2_2
  clear_value x2_0 x2_1
  have hx2_2 : Rel ps_ z_ x2_2 := by
    unfold x2_2
    refine rel_noteRead ?_ (Sub.trans (by decide) hp_)
    · assumption
  clear_value x2_2
  refine iteP (P := Rel ps_ z_) ?_ ?_
  · assumption
  · refine iteP (P := Rel ps_ z_) ?_ ?_
    · assumption
    · refine iteP (P := Rel ps_ z_) ?_ ?_
      · refine rel_modShard ?_ (Sub.trans (by decide) hp_)
        · assumption
      · refine iteP (P := Rel ps_ z_) ?_ ?_
        · refine rel_modShard ?_ (Sub.trans (by decide) hp_)
          · assumption
        · assumption

theorem rel_sendFlags {ps_ : List Part} {z_ : State} {s : State} {b : Nat} {n : Nat} {g : Group} {round : Nat} (h0_ : Rel ps_ z_ s) (hp_ : Sub [.tx, .regs, .counts, .clf, .lsh] ps_) :
    Rel ps_ z_ (sendFlags s b n g round) := by
  unfold sendFlags
  extract_lets -merge -underBinder x2_0
  clear_value x2_0
  refine foldSP ?_ ?_ _
  · assumption
  · intro a4_0 a4_1 h4_0
    refine rel_lshSend ?_ (Sub.trans (by decide) hp_)
    · assumption

theorem rel_advanceWave {ps_ : List Part} {z_ : State} {y0 : Nat} {y1 : State} {y2 : Nat} {y3 : Nat} {y4 : Group} (h1_ : Rel ps_ z_ y1) (hp_ : Sub [.tx, .regs, .counts, .clf, .lsh] ps_) :
    Rel ps_ z_ (advanceWave y0 y1 y2 y3 y4) := by
  induction y0 generalizing y1 with
  | zero => exact h1_
  | succ k ih =>
    unfold advanceWave
    extract_lets -merge -underBinder x0 x1 x2 x3 x4
    clear_value x0 x1 x2
    have h3 : Rel ps_ z_ x3 := by
      unfold x3
      exact iteP (P := Rel ps_ z_) (rel_setFlag h1_ (Sub.trans (by decide) hp_)) h1_
    clear_value x3
    have h4 : Rel ps_ z_ x4 := rel_modClose h3 (Sub.trans (by decide) hp_)
    clear_value x4
    refine iteP (P := Rel ps_ z_) h1_ (iteP (P := Rel ps_ z_) (ih ?_) ?_)
    · exact rel_sendFlags h4 (Sub.trans (by decide) hp_)
    · exact rel_modClose h4 (Sub.trans (by decide) hp_)

theorem rel_startWave {ps_ : List Part} {z_ : State} {s : State} {b : Nat} (h0_ : Rel ps_ z_ s) (hp_ : Sub [.tx, .regs, .counts, .clf, .lsh] ps_) :
    Rel ps_ z_ (startWave s b) := by
  unfold startWave
  split
  · assumption
  · extract_lets -merge -underBinder x4_0
    have hx4_0 : Rel ps_ z_ x4_0 := by
      unfold x4_0
      refine rel_modClose ?_ (Sub.trans (by decide) hp_)
      · assumption
    clear_value x4_0
    refine iteP (P := Rel ps_ z_) ?_ ?_
    · assumption
    · refine rel_advanceWave ?_ (Sub.trans (by decide) hp_)
      · refine rel_sendFlags ?_ (Sub.trans (by decide) hp_)
        · assumption

theorem rel_execCloseWaveStart {ps_ : List Part} {z_ : State} {berth : Nat} {s : State} (h1_ : Rel ps_ z_ s) (hp_ : Sub [.tx, .regs, .counts, .clf, .lsh] ps_) :
    Ends ps_ z_ (execCloseWaveStart berth s) := by
  unfold execCloseWaveStart
  extract_lets -merge -underBinder x2_0
  clear_value x2_0
  refine ofNext ?_
  refine iteP (P := Rel ps_ z_) ?_ ?_
  · refine rel_startWave ?_ (Sub.trans (by decide) hp_)
    · assumption
  · assumption

theorem rel_closeStep {ps_ : List Part} {z_ : State} {s : State} {b : Nat} (h0_ : Rel ps_ z_ s) (hp_ : Sub [.shelf, .upd, .lsh] ps_) :
    Rel ps_ z_ (closeStep s b) := by
  unfold closeStep
  extract_lets -merge -underBinder x2_0 x2_1 x2_2 x2_3
  have hx2_0 : Rel ps_ z_ x2_0 := by
    unfold x2_0
    refine rel_modUpd ?_ (Sub.trans (by decide) hp_)
    · assumption
  clear_value x2_0 x2_1
  have hx2_2 : Rel ps_ z_ x2_2 := by
    unfold x2_2
    refine rel_shelf ?_ (hp_ _ (by decide))
    assumption
  clear_value x2_2
  have hx2_3 : Rel ps_ z_ x2_3 := by
    unfold x2_3
    refine foldSP ?_ ?_ _
    · assumption
    · intro a6_0 a6_1 h6_0
      refine rel_modChan ?_ (Sub.trans (by decide) hp_)
      · assumption
  clear_value x2_3
  refine rel_modLsh ?_ (Sub.trans (by decide) hp_)
  · assumption

theorem rel_commitRows {ps_ : List Part} {z_ : State} {s : State} {b : Nat} (h0_ : Rel ps_ z_ s) (hp_ : Sub [.free, .tx, .regs, .counts, .shelf, .snd, .upd, .mem, .lsh, .quay, .rst] ps_) :
    Rel ps_ z_ (commitRows s b) := by
  unfold commitRows
  extract_lets -merge -underBinder x2_0 x2_1 x2_2 x2_3
  clear_value x2_0
  have hx2_1 : Rel ps_ z_ x2_1 := by
    unfold x2_1
    refine rel_modUpd ?_ (Sub.trans (by decide) hp_)
    · assumption
  clear_value x2_1
  have hx2_2 : Rel ps_ z_ x2_2 := by
    unfold x2_2
    refine foldSP ?_ ?_ _
    · assumption
    · intro a6_0 a6_1 h6_0
      refine rel_flipShard ?_ (Sub.trans (by decide) hp_)
      · assumption
  clear_value x2_2
  have hx2_3 : Rel ps_ z_ x2_3 := by
    unfold x2_3
    refine rel_modUpd ?_ (Sub.trans (by decide) hp_)
    · assumption
  clear_value x2_3
  refine rel_queueMerges ?_ (Sub.trans (by decide) hp_)
  · refine rel_closeStep ?_ (Sub.trans (by decide) hp_)
    · assumption

theorem rel_rowFive {ps_ : List Part} {z_ : State} {s : State} {b : Nat} (h0_ : Rel ps_ z_ s) (hp_ : Sub [.free, .tx, .regs, .counts, .shelf, .snd, .slv, .upd, .mem, .bytes, .lsh, .quay, .rst] ps_) :
    Rel ps_ z_ (rowFive s b) := by
  unfold rowFive
  extract_lets -merge -underBinder x2_0 x2_1 x2_2 x2_3
  have hx2_0 : Rel ps_ z_ x2_0 := by
    unfold x2_0
    refine rel_almEval ?_ (Sub.trans (by decide) hp_)
    · assumption
  clear_value x2_0 x2_1
  have hx2_2 : Rel ps_ z_ x2_2 := by
    unfold x2_2
    refine foldSP ?_ ?_ _
    · assumption
    · intro a6_0 a6_1 h6_0
      refine iteP (P := Rel ps_ z_) ?_ ?_
      · refine rel_flipIfDue ?_ (Sub.trans (by decide) hp_)
        · assumption
      · assumption
  clear_value x2_2
  have hx2_3 : Rel ps_ z_ x2_3 := by
    unfold x2_3
    split
    · refine iteP (P := Rel ps_ z_) ?_ ?_
      · refine foldSP ?_ ?_ _
        · assumption
        · intro a10_0 a10_1 h10_0
          refine rel_refreshSlot ?_ (Sub.trans (by decide) hp_)
          · assumption
      · assumption
    · assumption
  clear_value x2_3
  refine rel_serveDue ?_ (Sub.trans (by decide) hp_)
  · refine rel_slvKick ?_ (Sub.trans (by decide) hp_)
    · assumption

theorem rel_abandonShard {ps_ : List Part} {z_ : State} {b : Nat} {n : W64} {s : State} {p : Nat × Shard} (h2_ : Rel ps_ z_ s) (hp_ : Sub [.free, .tx, .regs, .counts, .mem, .bytes, .quay, .rst] ps_) :
    Rel ps_ z_ (abandonShard b n s p) := by
  unfold abandonShard
  refine iteP (P := Rel ps_ z_) ?_ ?_
  · refine (?_ : Rel1 ps_ z_ _)
    refine rel_putHeader ?_ (Sub.trans (by decide) hp_)
    · assumption
  · assumption

theorem rel_skipLimit {ps_ : List Part} {z_ : State} {s : State} {b : Nat} (h0_ : Rel ps_ z_ s) (hp_ : Sub [.tx, .regs, .counts, .upd, .quay] ps_) :
    Rel ps_ z_ (skipLimit s b) := by
  unfold skipLimit
  extract_lets -merge -underBinder x2_0 x2_1 x2_2
  clear_value x2_0
  have hx2_1 : Rel ps_ z_ x2_1 := by
    unfold x2_1
    refine rel_modUpd ?_ (Sub.trans (by decide) hp_)
    · assumption
  clear_value x2_1
  have hx2_2 : Rel ps_ z_ x2_2 := by
    unfold x2_2
    refine rel_wrOr ?_ (Sub.trans (by decide) hp_)
    · refine rel_wr ?_ (Sub.trans (by decide) hp_)
      · assumption
  clear_value x2_2
  refine iteP (P := Rel ps_ z_) ?_ ?_
  · refine rel_event ?_ (Sub.trans (by decide) hp_)
    · assumption
  · assumption

theorem rel_abandonStep {ps_ : List Part} {z_ : State} {s : State} {b : Nat} (h0_ : Rel ps_ z_ s) (hp_ : Sub [.shelf, .lsh] ps_) :
    Rel ps_ z_ (abandonStep s b) := by
  unfold abandonStep
  extract_lets -merge -underBinder x2_0 x2_1 x2_2
  clear_value x2_0
  have hx2_1 : Rel ps_ z_ x2_1 := by
    unfold x2_1
    refine rel_shelf ?_ (hp_ _ (by decide))
    assumption
  clear_value x2_1
  have hx2_2 : Rel ps_ z_ x2_2 := by
    unfold x2_2
    refine foldSP ?_ ?_ _
    · assumption
    · intro a6_0 a6_1 h6_0
      refine rel_modChan ?_ (Sub.trans (by decide) hp_)
      · assumption
  clear_value x2_2
  refine rel_modLsh ?_ (Sub.trans (by decide) hp_)
  · assumption

theorem rel_skipRows {ps_ : List Part} {z_ : State} {s : State} {b : Nat} (h0_ : Rel ps_ z_ s) (hp_ : Sub [.free, .tx, .regs, .counts, .shelf, .snd, .upd, .mem, .bytes, .lsh, .quay, .rst] ps_) :
    Rel ps_ z_ (skipRows s b) := by
  unfold skipRows
  extract_lets -merge -underBinder x2_0 x2_1 x2_2 x2_3
  clear_value x2_0
  have hx2_1 : Rel ps_ z_ x2_1 := by
    unfold x2_1
    refine foldSP ?_ ?_ _
    · assumption
    · intro a6_0 a6_1 h6_0
      refine rel_abandonShard ?_ (Sub.trans (by decide) hp_)
      · assumption
  clear_value x2_1
  have hx2_2 : Rel ps_ z_ x2_2 := by
    unfold x2_2
    refine rel_modUpd ?_ (Sub.trans (by decide) hp_)
    · assumption
  clear_value x2_2
  have hx2_3 : Rel ps_ z_ x2_3 := by
    unfold x2_3
    refine rel_skipLimit ?_ (Sub.trans (by decide) hp_)
    · refine rel_wrOr ?_ (Sub.trans (by decide) hp_)
      · assumption
  clear_value x2_3
  refine rel_discardCov ?_ (Sub.trans (by decide) hp_)
  · refine rel_closeStep ?_ (Sub.trans (by decide) hp_)
    · refine rel_abandonStep ?_ (Sub.trans (by decide) hp_)
      · assumption

theorem rel_execFlagReceive {ps_ : List Part} {z_ : State} {p : LshPkt} {s : State} (h1_ : Rel ps_ z_ s) (hp_ : Sub [.tx, .regs, .counts, .clf, .lsh] ps_) :
    Ends ps_ z_ (execFlagReceive p s) := by
  unfold execFlagReceive
  refine ofNext ?_
  refine iteP (P := Rel ps_ z_) ?_ ?_
  · assumption
  · refine iteP (P := Rel ps_ z_) ?_ ?_
    · refine rel_count ?_ (Sub.trans (by decide) hp_)
      · refine rel_wrOr ?_ (Sub.trans (by decide) hp_)
        · assumption
    · split
      · refine rel_staleDrop ?_ (Sub.trans (by decide) hp_)
        · assumption
      · extract_lets -merge -underBinder x8_0 x8_1
        have hx8_0 : Rel ps_ z_ x8_0 := by
          unfold x8_0
          refine iteP (P := Rel ps_ z_) ?_ ?_
          · refine rel_setFlag ?_ (Sub.trans (by decide) hp_)
            · assumption
          · assumption
        clear_value x8_0
        have hx8_1 : Rel ps_ z_ x8_1 := by
          unfold x8_1
          refine rel_modClose ?_ (Sub.trans (by decide) hp_)
          · assumption
        clear_value x8_1
        refine iteP (P := Rel ps_ z_) ?_ ?_
        · refine rel_staleDrop ?_ (Sub.trans (by decide) hp_)
          · assumption
        · refine rel_advanceWave ?_ (Sub.trans (by decide) hp_)
          · assumption

theorem rel_execCloseWaveTimeout {ps_ : List Part} {z_ : State} {berth : Nat} {s : State} (h1_ : Rel ps_ z_ s) (hp_ : Sub [.tx, .regs, .counts, .shelf, .lsh, .quay] ps_) :
    Ends ps_ z_ (execCloseWaveTimeout berth s) := by
  unfold execCloseWaveTimeout
  refine ofNext ?_
  split
  · assumption
  · extract_lets -merge -underBinder x4_0 x4_1 x4_2 x4_3 x4_4 x4_5 x4_6 x4_7
    clear_value x4_0 x4_1
    have hx4_2 : Rel ps_ z_ x4_2 := by
      unfold x4_2
      refine rel_modClose ?_ (Sub.trans (by decide) hp_)
      · assumption
    clear_value x4_2 x4_3
    have hx4_4 : Rel ps_ z_ x4_4 := by
      unfold x4_4
      refine rel_shelf ?_ (hp_ _ (by decide))
      assumption
    clear_value x4_4
    have hx4_5 : Rel ps_ z_ x4_5 := by
      unfold x4_5
      refine rel_wrs ?_ (Sub.trans (by decide) hp_)
      · refine rel_wrOr ?_ (Sub.trans (by decide) hp_)
        · assumption
    clear_value x4_5 x4_6
    have hx4_7 : Rel ps_ z_ x4_7 := by
      unfold x4_7
      refine rel_modLsh ?_ (Sub.trans (by decide) hp_)
      · assumption
    clear_value x4_7
    refine iteP (P := Rel ps_ z_) ?_ ?_
    · assumption
    · refine rel_haltFor ?_ (Sub.trans (by decide) hp_)
      · assumption

/-! ### Cliff -/

theorem rel_countCodewords {ps_ : List Part} {z_ : State} {s : State} {n : Nat} {symbols : List Nat} (h0_ : Rel ps_ z_ s) (hp_ : Sub [.tx, .regs, .counts, .clf, .quay, .rst] ps_) :
    Rel ps_ z_ (countCodewords s n symbols) := by
  unfold countCodewords
  extract_lets -merge -underBinder x2_0 x2_1 x2_2 x2_3 x2_4 x2_w x2_5
  clear_value x2_0 x2_1
  have hx2_2 : Rel ps_ z_ x2_2 := by
    unfold x2_2
    refine rel_count ?_ (Sub.trans (by decide) hp_)
    · assumption
  clear_value x2_2
  have hx2_3 : Rel ps_ z_ x2_3 := by
    unfold x2_3
    refine rel_count ?_ (Sub.trans (by decide) hp_)
    · assumption
  clear_value x2_3
  have hx2_4 : Rel ps_ z_ x2_4 := by
    unfold x2_4
    refine rel_count ?_ (Sub.trans (by decide) hp_)
    · assumption
  clear_value x2_4 x2_w
  have hx2_5 : Rel ps_ z_ x2_5 := by
    unfold x2_5
    refine rel_modPort ?_ (Sub.trans (by decide) hp_)
    · assumption
  clear_value x2_5
  refine iteP (P := Rel ps_ z_) ?_ ?_
  · refine rel_raiseReplace ?_ (Sub.trans (by decide) hp_)
    · refine rel_wrOr ?_ (Sub.trans (by decide) hp_)
      · refine iteP (P := Rel ps_ z_) ?_ ?_
        · assumption
        · refine rel_logError ?_ (Sub.trans (by decide) hp_)
          · assumption
  · assumption

theorem rel_idleFlit {ps_ : List Part} {z_ : State} {s : State} {n : Nat} (h0_ : Rel ps_ z_ s) (hp_ : Sub [.tx, .counts] ps_) :
    Rel ps_ z_ (idleFlit s n) := by
  unfold idleFlit
  refine rel_idleOn ?_ (Sub.trans (by decide) hp_)
  · assumption

theorem rel_takeAck {ps_ : List Part} {z_ : State} {s : State} {n : Nat} {ack : Nat} (h0_ : Rel ps_ z_ s) (hp_ : Sub [.tx, .counts, .clf] ps_) :
    Rel ps_ z_ (takeAck s n ack) := by
  unfold takeAck
  refine iteP (P := Rel ps_ z_) ?_ ?_
  · refine rel_pump ?_ (Sub.trans (by decide) hp_)
    · refine rel_modPort ?_ (Sub.trans (by decide) hp_)
      · assumption
  · assumption

theorem rel_takeCredit {ps_ : List Part} {z_ : State} {s : State} {n : Nat} {sel : Nat} {total : Nat} (h0_ : Rel ps_ z_ s) (hp_ : Sub [.tx, .counts, .clf] ps_) :
    Rel ps_ z_ (takeCredit s n sel total) := by
  unfold takeCredit
  refine iteP (P := Rel ps_ z_) ?_ ?_
  · assumption
  · refine rel_pump ?_ (Sub.trans (by decide) hp_)
    · refine rel_modPort ?_ (Sub.trans (by decide) hp_)
      · assumption

theorem rel_toState {ps_ : List Part} {z_ : State} {s : State} {n : Nat} {st : Nat} (h0_ : Rel ps_ z_ s) (hp_ : Sub [.regs, .clf] ps_) :
    Rel ps_ z_ (toState s n st) := by
  unfold toState
  refine rel_modPort ?_ (Sub.trans (by decide) hp_)
  · refine rel_wr ?_ (Sub.trans (by decide) hp_)
    · assumption

theorem rel_startAttempt {ps_ : List Part} {z_ : State} {s : State} {n : Nat} (h0_ : Rel ps_ z_ s) (hp_ : Sub [.regs, .clf] ps_) :
    Rel ps_ z_ (startAttempt s n) := by
  unfold startAttempt
  refine rel_modPort ?_ (Sub.trans (by decide) hp_)
  · refine rel_toState ?_ (Sub.trans (by decide) hp_)
    · assumption

theorem rel_portRetrain {ps_ : List Part} {z_ : State} {s : State} {n : Nat} (h0_ : Rel ps_ z_ s) (hp_ : Sub [.regs, .counts, .clf] ps_) :
    Rel ps_ z_ (portRetrain s n) := by
  unfold portRetrain
  extract_lets -merge -underBinder x2_0 x2_1 x2_2
  have hx2_1 : Rel ps_ z_ x2_1 := by
    unfold x2_1
    refine rel_count ?_ (Sub.trans (by decide) hp_)
    · assumption
  clear_value x2_1
  have hx2_2 : Rel ps_ z_ x2_2 := by
    unfold x2_2
    refine iteP (P := Rel ps_ z_) ?_ ?_
    · refine rel_wrOr ?_ (Sub.trans (by decide) hp_)
      · assumption
    · assumption
  clear_value x2_2
  refine rel_startAttempt ?_ (Sub.trans (by decide) hp_)
  · refine rel_modPort ?_ (Sub.trans (by decide) hp_)
    · assumption

theorem rel_resendFlits {ps_ : List Part} {z_ : State} {s : State} {n : Nat} (h0_ : Rel ps_ z_ s) (hp_ : Sub [.tx, .counts] ps_) :
    Rel ps_ z_ (resendFlits s n) := by
  unfold resendFlits
  refine foldSP ?_ ?_ _
  · assumption
  · intro a4_0 a4_1 h4_0
    refine rel_emitFlit ?_ (Sub.trans (by decide) hp_)
    · assumption

theorem rel_resendAll {ps_ : List Part} {z_ : State} {s : State} {n : Nat} (h0_ : Rel ps_ z_ s) (hp_ : Sub [.tx, .regs, .counts, .clf] ps_) :
    Rel ps_ z_ (resendAll s n) := by
  unfold resendAll
  extract_lets -merge -underBinder x2_0
  clear_value x2_0
  refine iteP (P := Rel ps_ z_) ?_ ?_
  · assumption
  · refine iteP (P := Rel ps_ z_) ?_ ?_
    · refine rel_portRetrain ?_ (Sub.trans (by decide) hp_)
      · assumption
    · refine rel_resendFlits ?_ (Sub.trans (by decide) hp_)
      · refine rel_count ?_ (Sub.trans (by decide) hp_)
        · refine rel_modPort ?_ (Sub.trans (by decide) hp_)
          · assumption

theorem rel_openRoute {ps_ : List Part} {z_ : State} {s : State} {n : Nat} {f : Flit} (h0_ : Rel ps_ z_ s) (hp_ : Sub [.regs, .counts, .clf] ps_) :
    Rel ps_ z_ (openRoute s n f) := by
  unfold openRoute
  extract_lets -merge -underBinder x2_0
  have hx2_0 : ∀ a0, Rel ps_ z_ a0 → ∀ a1, ∀ a2, ∀ a3, Rel ps_ z_ (x2_0 a0 a1 a2 a3) := by
    intro a0_ h0_ a1_ a2_ a3_
    unfold x2_0
    refine rel_modPort ?_ (Sub.trans (by decide) hp_)
    · assumption
  clear_value x2_0
  refine iteP (P := Rel ps_ z_) ?_ ?_
  · refine hx2_0 _ ?_ _ _ _
    refine rel_count ?_ (Sub.trans (by decide) hp_)
    · refine rel_wrOr ?_ (Sub.trans (by decide) hp_)
      · assumption
  · split
    · refine hx2_0 _ ?_ _ _ _
      assumption
    · refine hx2_0 _ ?_ _ _ _
      refine rel_unreachable ?_ (Sub.trans (by decide) hp_)
      · assumption
    · extract_lets -merge -underBinder x6_0
      have hx6_0 : Rel1 ps_ z_ x6_0 := by
        unfold x6_0
        refine rel_pickPort ?_ (Sub.trans (by decide) hp_)
        · assumption
      clear_value x6_0
      refine hx2_0 _ ?_ _ _ _
      refine (?_ : Rel1 ps_ z_ _)
      assumption

theorem rel_abortRoute {ps_ : List Part} {z_ : State} {s : State} {n : Nat} {vc : Nat} (h0_ : Rel ps_ z_ s) (hp_ : Sub [.tx, .counts, .clf] ps_) :
    Rel ps_ z_ (abortRoute s n vc) := by
  unfold abortRoute
  split
  · assumption
  · extract_lets -merge -underBinder x4_0
    have hx4_0 : Rel ps_ z_ x4_0 := by
      unfold x4_0
      refine rel_modPort ?_ (Sub.trans (by decide) hp_)
      · assumption
    clear_value x4_0
    split
    · assumption
    · extract_lets -merge -underBinder x6_0 x6_1 x6_2
      clear_value x6_0 x6_1
      have hx6_2 : Rel ps_ z_ x6_2 := by
        unfold x6_2
        refine rel_modPort ?_ (Sub.trans (by decide) hp_)
        · assumption
      clear_value x6_2
      refine rel_pump ?_ (Sub.trans (by decide) hp_)
      · refine foldSP ?_ ?_ _
        · assumption
        · intro a10_0 a10_1 h10_0
          refine rel_freeBuffer ?_ (Sub.trans (by decide) hp_)
          · assumption

theorem rel_acceptFlit {ps_ : List Part} {z_ : State} {s : State} {n : Nat} {f : Flit} (h0_ : Rel ps_ z_ s) (hp_ : Sub [.tx, .regs, .counts, .clf] ps_) :
    Rel ps_ z_ (acceptFlit s n f) := by
  unfold acceptFlit
  extract_lets -merge -underBinder x2_0 x2_1 x2_2
  clear_value x2_0
  have hx2_1 : Rel ps_ z_ x2_1 := by
    unfold x2_1
    refine rel_modPort ?_ (Sub.trans (by decide) hp_)
    · assumption
  clear_value x2_1
  have hx2_2 : Rel ps_ z_ x2_2 := by
    unfold x2_2
    refine iteP (P := Rel ps_ z_) ?_ ?_
    · refine rel_openRoute ?_ (Sub.trans (by decide) hp_)
      · refine rel_abortRoute ?_ (Sub.trans (by decide) hp_)
        · assumption
    · assumption
  clear_value x2_2
  refine iteP (P := Rel ps_ z_) ?_ ?_
  · refine rel_freeBuffer ?_ (Sub.trans (by decide) hp_)
    · assumption
  · split
    · refine rel_freeBuffer ?_ (Sub.trans (by decide) hp_)
      · assumption
    · extract_lets -merge -underBinder x6_0
      have hx6_0 : Rel ps_ z_ x6_0 := by
        unfold x6_0
        refine rel_modPort ?_ (Sub.trans (by decide) hp_)
        · assumption
      clear_value x6_0
      refine iteP (P := Rel ps_ z_) ?_ ?_
      · refine rel_freeBuffer ?_ (Sub.trans (by decide) hp_)
        · refine rel_abortRoute ?_ (Sub.trans (by decide) hp_)
          · assumption
      · split
        · refine rel_freeBuffer ?_ (Sub.trans (by decide) hp_)
          · assumption
        · refine rel_enqueueOut ?_ (Sub.trans (by decide) hp_)
          · refine rel_count ?_ (Sub.trans (by decide) hp_)
            · assumption

theorem rel_execFlitReceive {ps_ : List Part} {z_ : State} {port : Nat} {flit : Flit} {held begun : Option Nat} {s : State} (h3_ : Rel ps_ z_ s) (hp_ : Sub [.tx, .regs, .counts, .clf, .quay, .rst] ps_) :
    Ends ps_ z_ (execFlitReceive port flit held begun s) := by
  unfold execFlitReceive
  extract_lets -merge -underBinder x2_0 x2_1 x2_2 x2_3
  have hx2_0 : Rel ps_ z_ x2_0 := by
    unfold x2_0
    refine rel_countCodewords ?_ (Sub.trans (by decide) hp_)
    · refine rel_count ?_ (Sub.trans (by decide) hp_)
      · assumption
  clear_value x2_0
  have hx2_1 : Rel ps_ z_ x2_1 := by
    unfold x2_1
    refine iteP (P := Rel ps_ z_) ?_ ?_
    · refine rel_takeAck ?_ (Sub.trans (by decide) hp_)
      · assumption
    · assumption
  clear_value x2_1
  have hx2_2 : Rel ps_ z_ x2_2 := by
    unfold x2_2
    refine rel_takeCredit ?_ (Sub.trans (by decide) hp_)
    · assumption
  clear_value x2_2
  have hx2_3 : Rel ps_ z_ x2_3 := by
    unfold x2_3
    refine iteP (P := Rel ps_ z_) ?_ ?_
    · refine rel_resendAll ?_ (Sub.trans (by decide) hp_)
      · assumption
    · assumption
  clear_value x2_3
  refine ofNext ?_
  refine iteP (P := Rel ps_ z_) ?_ ?_
  · assumption
  · refine iteP (P := Rel ps_ z_) ?_ ?_
    · refine rel_idleFlit ?_ (Sub.trans (by decide) hp_)
      · refine rel_modPort ?_ (Sub.trans (by decide) hp_)
        · assumption
    · refine iteP (P := Rel ps_ z_) ?_ ?_
      · assumption
      · refine iteP (P := Rel ps_ z_) ?_ ?_
        · refine rel_idleFlit ?_ (Sub.trans (by decide) hp_)
          · refine rel_acceptFlit ?_ (Sub.trans (by decide) hp_)
            · assumption
        · refine rel_idleFlit ?_ (Sub.trans (by decide) hp_)
          · refine rel_modPort ?_ (Sub.trans (by decide) hp_)
            · assumption

theorem rel_newRoute {ps_ : List Part} {z_ : State} {s : State} {n : Nat} {f : Flit} (h0_ : Rel ps_ z_ s) (hp_ : Sub [.regs, .counts, .clf] ps_) :
    Rel1 ps_ z_ (newRoute s n f) := by
  unfold newRoute
  extract_lets -merge -underBinder x2_0 x2_1 x2_2
  clear_value x2_0
  have hx2_2 : Rel1 ps_ z_ x2_2 := by
    unfold x2_2
    refine rel_pickPort ?_ (Sub.trans (by decide) hp_)
    · assumption
  clear_value x2_2
  refine iteP (P := Rel1 ps_ z_) ?_ ?_
  · refine ofPair ?_
    refine (?_ : Rel1 ps_ z_ _)
    assumption
  · split
    · extract_lets -merge -underBinder x6_0
      have hx6_0 : Rel1 ps_ z_ x6_0 := by
        unfold x6_0
        refine rel_pickPort ?_ (Sub.trans (by decide) hp_)
        · assumption
      clear_value x6_0
      refine ofPair ?_
      refine (?_ : Rel1 ps_ z_ _)
      assumption
    · refine ofPair ?_
      refine rel_unreachable ?_ (Sub.trans (by decide) hp_)
      · assumption

theorem rel_releaseInput {ps_ : List Part} {z_ : State} {s : State} {n : Nat} (h0_ : Rel ps_ z_ s) (hp_ : Sub [.clf] ps_) :
    Rel ps_ z_ (releaseInput s n) := by
  unfold releaseInput
  refine foldSP ?_ ?_ _
  · assumption
  · intro a4_0 a4_1 h4_0
    refine rel_modPort ?_ (Sub.trans (by decide) hp_)
    · assumption

theorem rel_abortInput {ps_ : List Part} {z_ : State} {s : State} {n : Nat} (h0_ : Rel ps_ z_ s) (hp_ : Sub [.tx, .counts, .clf] ps_) :
    Rel ps_ z_ (abortInput s n) := by
  unfold abortInput
  refine foldSP ?_ ?_ _
  · assumption
  · intro a4_0 a4_1 h4_0
    refine rel_abortRoute ?_ (Sub.trans (by decide) hp_)
    · assumption

theorem rel_leaveState {ps_ : List Part} {z_ : State} {s : State} {n : Nat} {st : Nat} (h0_ : Rel ps_ z_ s) (hp_ : Sub [.regs, .clf] ps_) :
    Rel ps_ z_ (leaveState s n st) := by
  unfold leaveState
  extract_lets -merge -underBinder x2_0 x2_1
  clear_value x2_0
  have hx2_1 : Rel ps_ z_ x2_1 := by
    unfold x2_1
    refine rel_toState ?_ (Sub.trans (by decide) hp_)
    · assumption
  clear_value x2_1
  refine iteP (P := Rel ps_ z_) ?_ ?_
  · refine rel_wrOr ?_ (Sub.trans (by decide) hp_)
    · assumption
  · assumption

theorem rel_setRoute {ps_ : List Part} {z_ : State} {s : State} {i : Nat} {vc : Nat} {out : Option (Nat × Bool × Nat)} (h0_ : Rel ps_ z_ s) (hp_ : Sub [.clf] ps_) :
    Rel ps_ z_ (setRoute s i vc out) := by
  unfold setRoute
  split
  · assumption
  · extract_lets -merge -underBinder x4_0
    clear_value x4_0
    refine rel_modPort ?_ (Sub.trans (by decide) hp_)
    · assumption

theorem rel_reroute {ps_ : List Part} {z_ : State} {n : Nat} {s : State} {pk : List OutFlit} (h1_ : Rel ps_ z_ s) (hp_ : Sub [.tx, .regs, .counts, .clf] ps_) :
    Rel ps_ z_ (reroute n s pk) := by
  unfold reroute
  split
  · extract_lets -merge -underBinder x4_0 x4_1
    have hx4_0 : Rel1 ps_ z_ x4_0 := by
      unfold x4_0
      refine rel_newRoute ?_ (Sub.trans (by decide) hp_)
      · assumption
    clear_value x4_0
    have hx4_1 : Rel ps_ z_ x4_1 := by
      unfold x4_1
      refine iteP (P := Rel ps_ z_) ?_ ?_
      · refine (?_ : Rel1 ps_ z_ _)
        assumption
      · refine rel_setRoute ?_ (Sub.trans (by decide) hp_)
        · refine (?_ : Rel1 ps_ z_ _)
          assumption
    clear_value x4_1
    split
    · refine rel_enqueueOut ?_ (Sub.trans (by decide) hp_)
      · assumption
    · refine foldSP ?_ ?_ _
      · assumption
      · intro a8_0 a8_1 h8_0
        split
        · refine rel_freeBuffer ?_ (Sub.trans (by decide) hp_)
          · assumption
        · assumption
  · assumption

theorem rel_setUpstream {ps_ : List Part} {z_ : State} {s : State} (h0_ : Rel ps_ z_ s) (hp_ : Sub [.regs] ps_) :
    Rel ps_ z_ (setUpstream s) := by
  unfold setUpstream
  split
  · refine iteP (P := Rel ps_ z_) ?_ ?_
    · refine rel_wr ?_ (Sub.trans (by decide) hp_)
      · assumption
    · assumption
  · assumption

theorem rel_raisePart {ps_ : List Part} {z_ : State} {s : State} {n : Nat} (h0_ : Rel ps_ z_ s) (hp_ : Sub [.tx, .regs, .counts, .clf, .quay] ps_) :
    Rel ps_ z_ (raisePart s n) := by
  unfold raisePart
  refine iteP (P := Rel ps_ z_) ?_ ?_
  · refine rel_raiseReplace ?_ (Sub.trans (by decide) hp_)
    · refine rel_modPort ?_ (Sub.trans (by decide) hp_)
      · assumption
  · assumption

theorem rel_logPortFail {ps_ : List Part} {z_ : State} {s : State} {n : Nat} {st : Nat} (h0_ : Rel ps_ z_ s) (hp_ : Sub [.regs, .rst] ps_) :
    Rel ps_ z_ (logPortFail s n st) := by
  unfold logPortFail
  refine iteP (P := Rel ps_ z_) ?_ ?_
  · refine rel_logError ?_ (Sub.trans (by decide) hp_)
    · assumption
  · assumption

theorem rel_portFail {ps_ : List Part} {z_ : State} {s : State} {n : Nat} {st : Nat} (h0_ : Rel ps_ z_ s) (hp_ : Sub [.tx, .regs, .counts, .clf, .quay, .rst] ps_) :
    Rel ps_ z_ (portFail s n st) := by
  unfold portFail
  extract_lets -merge -underBinder x2_0 x2_1 x2_2 x2_3 x2_4
  clear_value x2_0
  have hx2_1 : Rel ps_ z_ x2_1 := by
    unfold x2_1
    refine rel_releaseInput ?_ (Sub.trans (by decide) hp_)
    · refine rel_abortInput ?_ (Sub.trans (by decide) hp_)
      · refine rel_logPortFail ?_ (Sub.trans (by decide) hp_)
        · assumption
  clear_value x2_1
  have hx2_2 : Rel ps_ z_ x2_2 := by
    unfold x2_2
    refine rel_leaveState ?_ (Sub.trans (by decide) hp_)
    · refine rel_modPort ?_ (Sub.trans (by decide) hp_)
      · assumption
  clear_value x2_2
  have hx2_3 : Rel ps_ z_ x2_3 := by
    unfold x2_3
    refine iteP (P := Rel ps_ z_) ?_ ?_
    · refine rel_wrOr ?_ (Sub.trans (by decide) hp_)
      · assumption
    · refine iteP (P := Rel ps_ z_) ?_ ?_
      · refine rel_wrOr ?_ (Sub.trans (by decide) hp_)
        · assumption
      · assumption
  clear_value x2_3
  have hx2_4 : Rel ps_ z_ x2_4 := by
    unfold x2_4
    refine iteP (P := Rel ps_ z_) ?_ ?_
    · refine rel_wrs ?_ (Sub.trans (by decide) hp_)
      · assumption
    · assumption
  clear_value x2_4
  refine foldSP ?_ ?_ _
  · refine rel_setUpstream ?_ (Sub.trans (by decide) hp_)
    · refine rel_raisePart ?_ (Sub.trans (by decide) hp_)
      · assumption
  · intro a4_0 a4_1 h4_0
    refine rel_reroute ?_ (Sub.trans (by decide) hp_)
    · assumption

theorem rel_execPortDown {ps_ : List Part} {z_ : State} {port : Nat} {state : Nat} {s : State} (h2_ : Rel ps_ z_ s) (hp_ : Sub [.tx, .regs, .counts, .clf, .quay, .rst] ps_) :
    Ends ps_ z_ (execPortDown port state s) := by
  unfold execPortDown
  refine ofNext ?_
  refine iteP (P := Rel ps_ z_) ?_ ?_
  · refine rel_portFail ?_ (Sub.trans (by decide) hp_)
    · assumption
  · assumption

theorem rel_execLatencyProbe {ps_ : List Part} {z_ : State} {port : Nat} {ps : Nat} {s : State} (h2_ : Rel ps_ z_ s) (hp_ : Sub [.regs] ps_) :
    Ends ps_ z_ (execLatencyProbe port ps s) := by
  unfold execLatencyProbe
  refine ofNext ?_
  refine iteP (P := Rel ps_ z_) ?_ ?_
  · refine rel_wr ?_ (Sub.trans (by decide) hp_)
    · assumption
  · assumption

theorem rel_applySlew {ps_ : List Part} {z_ : State} {s : State} {e : ℤ} (h0_ : Rel ps_ z_ s) (hp_ : Sub [.regs, .clf] ps_) :
    Rel ps_ z_ (applySlew s e) := by
  unfold applySlew
  extract_lets -merge -underBinder x2_0
  clear_value x2_0
  refine rel_modClf ?_ (Sub.trans (by decide) hp_)
  · refine rel_wr ?_ (Sub.trans (by decide) hp_)
    · assumption

theorem rel_execTickFlitReceive {ps_ : List Part} {z_ : State} {port : Nat} {count : W64} {residencePs : Nat} {edgeErr10ps : ℤ} {s : State} (h4_ : Rel ps_ z_ s) (hp_ : Sub [.regs, .clf, .lh] ps_) :
    Ends ps_ z_ (execTickFlitReceive port count residencePs edgeErr10ps s) := by
  unfold execTickFlitReceive
  extract_lets -merge -underBinder x2_0 x2_1 x2_2 x2_3
  clear_value x2_0
  have hx2_1 : Rel ps_ z_ x2_1 := by
    unfold x2_1
    refine rel_wr ?_ (Sub.trans (by decide) hp_)
    · refine rel_applySlew ?_ (Sub.trans (by decide) hp_)
      · assumption
  clear_value x2_1 x2_2
  have hx2_3 : Rel ps_ z_ x2_3 := by
    unfold x2_3
    refine iteP (P := Rel ps_ z_) ?_ ?_
    · refine rel_lh ?_ (hp_ _ (by decide))
      assumption
    · assumption
  clear_value x2_3
  refine ofNext ?_
  refine iteP (P := Rel ps_ z_) ?_ ?_
  · assumption
  · refine rel_modClf ?_ (Sub.trans (by decide) hp_)
    · assumption

theorem rel_sendReport {ps_ : List Part} {z_ : State} {s : State} (h0_ : Rel ps_ z_ s) (hp_ : Sub [.tx, .regs, .counts, .clf] ps_) :
    Rel ps_ z_ (sendReport s) := by
  unfold sendReport
  refine rel_fabricSend ?_ (Sub.trans (by decide) hp_)
  · refine rel_emit ?_ (Sub.trans (by decide) hp_)
    · assumption

theorem rel_endWalk {ps_ : List Part} {z_ : State} {s : State} {w : Walk} {ok : Bool} (h0_ : Rel ps_ z_ s) (hp_ : Sub [.tx, .regs, .counts, .clf, .quay] ps_) :
    Rel ps_ z_ (endWalk s w ok) := by
  unfold endWalk
  extract_lets -merge -underBinder x2_0
  have hx2_0 : Rel ps_ z_ x2_0 := by
    unfold x2_0
    refine rel_wrOr ?_ (Sub.trans (by decide) hp_)
    · refine rel_modClf ?_ (Sub.trans (by decide) hp_)
      · assumption
  clear_value x2_0
  refine rel_finish ?_ (Sub.trans (by decide) hp_)
  · assumption

theorem rel_execConflictReceive {ps_ : List Part} {z_ : State} {s : State} (h0_ : Rel ps_ z_ s) (hp_ : Sub [.tx, .regs, .counts, .clf, .quay] ps_) :
    Ends ps_ z_ (execConflictReceive s) := by
  unfold execConflictReceive
  extract_lets -merge -underBinder x2_0 x2_1
  have hx2_0 : Rel ps_ z_ x2_0 := by
    unfold x2_0
    refine rel_wr ?_ (Sub.trans (by decide) hp_)
    · assumption
  clear_value x2_0
  have hx2_1 : Rel ps_ z_ x2_1 := by
    unfold x2_1
    refine rel_wrOr ?_ (Sub.trans (by decide) hp_)
    · assumption
  clear_value x2_1
  refine ofNext ?_
  refine iteP (P := Rel ps_ z_) ?_ ?_
  · assumption
  · split
    · refine iteP (P := Rel ps_ z_) ?_ ?_
      · assumption
      · refine rel_endWalk ?_ (Sub.trans (by decide) hp_)
        · assumption
    · assumption

theorem rel_dropPart {ps_ : List Part} {z_ : State} {s : State} {n : Nat} (h0_ : Rel ps_ z_ s) (hp_ : Sub [.regs, .clf] ps_) :
    Rel ps_ z_ (dropPart s n) := by
  unfold dropPart
  extract_lets -merge -underBinder x2_0 x2_1
  clear_value x2_0
  have hx2_1 : Rel ps_ z_ x2_1 := by
    unfold x2_1
    refine rel_modPort ?_ (Sub.trans (by decide) hp_)
    · assumption
  clear_value x2_1
  refine iteP (P := Rel ps_ z_) ?_ ?_
  · refine rel_dropReplace ?_ (Sub.trans (by decide) hp_)
    · assumption
  · assumption

theorem rel_portUp {ps_ : List Part} {z_ : State} {s : State} {n : Nat} {id : Ident} (h0_ : Rel ps_ z_ s) (hp_ : Sub [.tx, .regs, .counts, .clf] ps_) :
    Rel ps_ z_ (portUp s n id) := by
  unfold portUp
  extract_lets -merge -underBinder x2_0 x2_1 x2_2 x2_3
  clear_value x2_0
  have hx2_1 : Rel ps_ z_ x2_1 := by
    unfold x2_1
    refine rel_modPort ?_ (Sub.trans (by decide) hp_)
    · assumption
  clear_value x2_1
  have hx2_2 : Rel ps_ z_ x2_2 := by
    unfold x2_2
    refine rel_wr ?_ (Sub.trans (by decide) hp_)
    · refine rel_wrOr ?_ (Sub.trans (by decide) hp_)
      · refine rel_toState ?_ (Sub.trans (by decide) hp_)
        · assumption
  clear_value x2_2
  have hx2_3 : Rel ps_ z_ x2_3 := by
    unfold x2_3
    refine iteP (P := Rel ps_ z_) ?_ ?_
    · refine rel_resendFlits ?_ (Sub.trans (by decide) hp_)
      · assumption
    · assumption
  clear_value x2_3
  refine rel_pump ?_ (Sub.trans (by decide) hp_)
  · refine rel_setUpstream ?_ (Sub.trans (by decide) hp_)
    · refine rel_dropPart ?_ (Sub.trans (by decide) hp_)
      · assumption

theorem rel_identDone {ps_ : List Part} {z_ : State} {s : State} {n : Nat} {id : Ident} (h0_ : Rel ps_ z_ s) (hp_ : Sub [.tx, .regs, .counts, .clf, .quay, .rst] ps_) :
    Rel ps_ z_ (identDone s n id) := by
  unfold identDone
  extract_lets -merge -underBinder x2_0 x2_1 x2_2 x2_3 x2_4 x2_5
  have hx2_0 : Rel ps_ z_ x2_0 := by
    unfold x2_0
    refine rel_wrs ?_ (Sub.trans (by decide) hp_)
    · assumption
  clear_value x2_0
  have hx2_1 : Rel ps_ z_ x2_1 := by
    unfold x2_1
    split
    · refine rel_wrs ?_ (Sub.trans (by decide) hp_)
      · assumption
    · refine rel_wr ?_ (Sub.trans (by decide) hp_)
      · assumption
  clear_value x2_1
  have hx2_2 : Rel ps_ z_ x2_2 := by
    unfold x2_2
    refine rel_modPort ?_ (Sub.trans (by decide) hp_)
    · assumption
  clear_value x2_2 x2_3 x2_4
  have hx2_5 : Rel ps_ z_ x2_5 := by
    unfold x2_5
    refine iteP (P := Rel ps_ z_) ?_ ?_
    · refine rel_portFail ?_ (Sub.trans (by decide) hp_)
      · assumption
    · assumption
  clear_value x2_5
  refine iteP (P := Rel ps_ z_) ?_ ?_
  · refine rel_portFail ?_ (Sub.trans (by decide) hp_)
    · assumption
  · refine rel_portUp ?_ (Sub.trans (by decide) hp_)
    · assumption

theorem rel_setCoord {ps_ : List Part} {z_ : State} {s : State} {x : Nat} {y : Nat} {z : Nat} {tag : Nat} {sx : Nat} {sy : Nat} {sz : Nat} {anchor : Bool} (h0_ : Rel ps_ z_ s) (hp_ : Sub [.regs, .clf] ps_) :
    Rel ps_ z_ (setCoord s x y z tag sx sy sz anchor) := by
  unfold setCoord
  refine rel_wrs ?_ (Sub.trans (by decide) hp_)
  · refine rel_modClf ?_ (Sub.trans (by decide) hp_)
    · assumption

theorem rel_sendAssign {ps_ : List Part} {z_ : State} {s : State} (h0_ : Rel ps_ z_ s) (hp_ : Sub [.tx, .counts] ps_) :
    Rel ps_ z_ (sendAssign s) := by
  unfold sendAssign
  refine foldSP ?_ ?_ _
  · assumption
  · intro a4_0 a4_1 h4_0
    refine rel_emit ?_ (Sub.trans (by decide) hp_)
    · assumption

theorem rel_startWalk {ps_ : List Part} {z_ : State} {s : State} {b : Nat} {seq : W32} {tag : Nat} {sx : Nat} {sy : Nat} {sz : Nat} (h0_ : Rel ps_ z_ s) (hp_ : Sub [.tx, .regs, .counts, .clf] ps_) :
    Rel1 ps_ z_ (startWalk s b seq tag sx sy sz) := by
  unfold startWalk
  extract_lets -merge -underBinder x2_0 x2_1 x2_2
  have hx2_0 : Rel ps_ z_ x2_0 := by
    unfold x2_0
    refine rel_wrs ?_ (Sub.trans (by decide) hp_)
    · assumption
  clear_value x2_0
  have hx2_1 : Rel ps_ z_ x2_1 := by
    unfold x2_1
    refine rel_wrs ?_ (Sub.trans (by decide) hp_)
    · refine rel_setCoord ?_ (Sub.trans (by decide) hp_)
      · assumption
  clear_value x2_1
  have hx2_2 : Rel ps_ z_ x2_2 := by
    unfold x2_2
    refine rel_sendAssign ?_ (Sub.trans (by decide) hp_)
    · assumption
  clear_value x2_2
  refine iteP (P := Rel1 ps_ z_) ?_ ?_
  · refine ofPair ?_
    assumption
  · refine iteP (P := Rel1 ps_ z_) ?_ ?_
    · refine ofPair ?_
      assumption
    · refine iteP (P := Rel1 ps_ z_) ?_ ?_
      · refine ofPair ?_
        refine rel_wrOr ?_ (Sub.trans (by decide) hp_)
        · refine rel_wrOr ?_ (Sub.trans (by decide) hp_)
          · assumption
      · refine iteP (P := Rel1 ps_ z_) ?_ ?_
        · refine ofPair ?_
          refine rel_wrOr ?_ (Sub.trans (by decide) hp_)
          · assumption
        · refine ofPair ?_
          refine rel_modClf ?_ (Sub.trans (by decide) hp_)
          · assumption

theorem rel_execCableSeated {ps_ : List Part} {z_ : State} {port : Nat} {s : State} (h1_ : Rel ps_ z_ s) (hp_ : Sub [.regs, .clf] ps_) :
    Ends ps_ z_ (execCableSeated port s) := by
  unfold execCableSeated
  extract_lets -merge -underBinder x2_0
  have hx2_0 : Rel ps_ z_ x2_0 := by
    unfold x2_0
    refine rel_modPort ?_ (Sub.trans (by decide) hp_)
    · assumption
  clear_value x2_0
  refine ofNext ?_
  refine iteP (P := Rel ps_ z_) ?_ ?_
  · assumption
  · refine iteP (P := Rel ps_ z_) ?_ ?_
    · refine rel_startAttempt ?_ (Sub.trans (by decide) hp_)
      · assumption
    · assumption

theorem rel_execPortTrainingStep {ps_ : List Part} {z_ : State} {port : Nat} {ident : Ident} {s : State} (h2_ : Rel ps_ z_ s) (hp_ : Sub [.free, .tx, .regs, .counts, .clf, .quay, .rst] ps_) :
    Ends ps_ z_ (execPortTrainingStep port ident s) := by
  unfold execPortTrainingStep
  refine ofNext ?_
  refine iteP (P := Rel ps_ z_) ?_ ?_
  · assumption
  · split
    · refine rel_startAttempt ?_ (Sub.trans (by decide) hp_)
      · assumption
    · refine rel_toState ?_ (Sub.trans (by decide) hp_)
      · refine rel_wr ?_ (Sub.trans (by decide) hp_)
        · assumption
    · refine rel_toState ?_ (Sub.trans (by decide) hp_)
      · assumption
    · refine rel_toState ?_ (Sub.trans (by decide) hp_)
      · refine rel_wr ?_ (Sub.trans (by decide) hp_)
        · refine rel_useFree ?_ (hp_ _ (by decide))
          · assumption
    · refine rel_toState ?_ (Sub.trans (by decide) hp_)
      · assumption
    · refine rel_identDone ?_ (Sub.trans (by decide) hp_)
      · assumption
    · assumption

theorem rel_sendTicks {ps_ : List Part} {z_ : State} {s : State} (h0_ : Rel ps_ z_ s) (hp_ : Sub [.free, .tx, .counts, .clf] ps_) :
    Rel ps_ z_ (sendTicks s) := by
  unfold sendTicks
  refine foldSP ?_ ?_ _
  · assumption
  · intro a4_0 a4_1 h4_0
    split
    · extract_lets -merge -underBinder x6_0
      clear_value x6_0
      refine rel_enqueueFlits ?_ (Sub.trans (by decide) hp_)
      · refine rel_useFree ?_ (hp_ _ (by decide))
        · assumption
    · assumption

theorem rel_sendConflict {ps_ : List Part} {z_ : State} {s : State} {q : Nat} (h0_ : Rel ps_ z_ s) (hp_ : Sub [.tx, .regs, .counts, .clf] ps_) :
    Rel ps_ z_ (sendConflict s q) := by
  unfold sendConflict
  extract_lets -merge -underBinder x2_0
  have hx2_0 : Rel ps_ z_ x2_0 := by
    unfold x2_0
    refine rel_emit ?_ (Sub.trans (by decide) hp_)
    · refine rel_wrOr ?_ (Sub.trans (by decide) hp_)
      · assumption
  clear_value x2_0
  refine rel_enqueueFlits ?_ (Sub.trans (by decide) hp_)
  · assumption

theorem rel_discardInput {ps_ : List Part} {z_ : State} {s : State} {n : Nat} (h0_ : Rel ps_ z_ s) (hp_ : Sub [.tx, .counts, .clf] ps_) :
    Rel ps_ z_ (discardInput s n) := by
  unfold discardInput
  refine foldSP ?_ ?_ _
  · refine rel_abortInput ?_ (Sub.trans (by decide) hp_)
    · assumption
  · intro a4_0 a4_1 h4_0
    refine rel_pump ?_ (Sub.trans (by decide) hp_)
    · refine rel_modPort ?_ (Sub.trans (by decide) hp_)
      · assumption

theorem rel_execTickHoldover {ps_ : List Part} {z_ : State} {s : State} (h0_ : Rel ps_ z_ s) (hp_ : Sub [.regs, .clf] ps_) :
    Ends ps_ z_ (execTickHoldover s) := by
  unfold execTickHoldover
  extract_lets -merge -underBinder x2_0
  have hx2_0 : Rel ps_ z_ x2_0 := by
    unfold x2_0
    refine rel_wr ?_ (Sub.trans (by decide) hp_)
    · refine rel_wrOr ?_ (Sub.trans (by decide) hp_)
      · assumption
  clear_value x2_0
  refine ofNext ?_
  refine iteP (P := Rel ps_ z_) ?_ ?_
  · assumption
  · split
    · refine rel_modClf ?_ (Sub.trans (by decide) hp_)
      · refine rel_wr ?_ (Sub.trans (by decide) hp_)
        · assumption
    · assumption

theorem rel_execCableSupplyOvercurrent {ps_ : List Part} {z_ : State} {port : Nat} {milliamps : Nat} {s : State} (h2_ : Rel ps_ z_ s) (hp_ : Sub [.clf] ps_) :
    Ends ps_ z_ (execCableSupplyOvercurrent port milliamps s) := by
  unfold execCableSupplyOvercurrent
  refine ofNext ?_
  refine iteP (P := Rel ps_ z_) ?_ ?_
  · refine rel_modPort ?_ (Sub.trans (by decide) hp_)
    · assumption
  · assumption

theorem rel_portReset {ps_ : List Part} {z_ : State} {s : State} {n : Nat} (h0_ : Rel ps_ z_ s) (hp_ : Sub [.tx, .regs, .counts, .clf, .quay] ps_) :
    Rel ps_ z_ (portReset s n) := by
  unfold portReset
  extract_lets -merge -underBinder x2_0 x2_1 x2_2 x2_3
  clear_value x2_0 x2_1
  have hx2_2 : Rel ps_ z_ x2_2 := by
    unfold x2_2
    refine rel_leaveState ?_ (Sub.trans (by decide) hp_)
    · refine rel_modPort ?_ (Sub.trans (by decide) hp_)
      · refine rel_discardInput ?_ (Sub.trans (by decide) hp_)
        · assumption
  clear_value x2_2
  have hx2_3 : Rel ps_ z_ x2_3 := by
    unfold x2_3
    refine rel_wrs ?_ (Sub.trans (by decide) hp_)
    · assumption
  clear_value x2_3
  refine foldSP ?_ ?_ _
  · refine rel_setUpstream ?_ (Sub.trans (by decide) hp_)
    · refine rel_raisePart ?_ (Sub.trans (by decide) hp_)
      · assumption
  · intro a4_0 a4_1 h4_0
    refine rel_reroute ?_ (Sub.trans (by decide) hp_)
    · assumption

theorem rel_writePctl {ps_ : List Part} {z_ : State} {s : State} {n : Nat} {c : CrsWrite} (h0_ : Rel ps_ z_ s) (hp_ : Sub [.tx, .regs, .counts, .clf, .quay, .rst] ps_) :
    Rel ps_ z_ (writePctl s n c) := by
  unfold writePctl
  extract_lets -merge -underBinder x2_0
  have hx2_0 : Rel ps_ z_ x2_0 := by
    unfold x2_0
    refine rel_storeWrite ?_ (Sub.trans (by decide) hp_)
    · assumption
  clear_value x2_0
  refine iteP (P := Rel ps_ z_) ?_ ?_
  · assumption
  · refine iteP (P := Rel ps_ z_) ?_ ?_
    · refine iteP (P := Rel ps_ z_) ?_ ?_
      · assumption
      · refine rel_portFail ?_ (Sub.trans (by decide) hp_)
        · assumption
    · refine iteP (P := Rel ps_ z_) ?_ ?_
      · refine rel_portRetrain ?_ (Sub.trans (by decide) hp_)
        · assumption
      · refine rel_pump ?_ (Sub.trans (by decide) hp_)
        · assumption

theorem rel_execPortEnableClear {ps_ : List Part} {z_ : State} {port : Nat} {w : CrsWrite} {s : State} (h2_ : Rel ps_ z_ s) (hp_ : Sub [.tx, .regs, .counts, .clf, .quay, .rst] ps_) :
    Ends ps_ z_ (execPortEnableClear port w s) := by
  unfold execPortEnableClear
  extract_lets -merge -underBinder x2_0
  have hx2_0 : Rel ps_ z_ x2_0 := by
    unfold x2_0
    refine rel_writePctl ?_ (Sub.trans (by decide) hp_)
    · assumption
  clear_value x2_0
  refine ofNext ?_
  assumption

theorem rel_execCableRemoved {ps_ : List Part} {z_ : State} {port : Nat} {s : State} (h1_ : Rel ps_ z_ s) (hp_ : Sub [.tx, .regs, .counts, .clf, .quay, .rst] ps_) :
    Ends ps_ z_ (execCableRemoved port s) := by
  unfold execCableRemoved
  extract_lets -merge -underBinder x2_0
  have hx2_0 : Rel ps_ z_ x2_0 := by
    unfold x2_0
    refine rel_modPort ?_ (Sub.trans (by decide) hp_)
    · assumption
  clear_value x2_0
  refine ofNext ?_
  refine iteP (P := Rel ps_ z_) ?_ ?_
  · assumption
  · refine iteP (P := Rel ps_ z_) ?_ ?_
    · assumption
    · refine rel_portFail ?_ (Sub.trans (by decide) hp_)
      · assumption

theorem rel_execPortRetryTimer {ps_ : List Part} {z_ : State} {port : Nat} {s : State} (h1_ : Rel ps_ z_ s) (hp_ : Sub [.regs, .clf] ps_) :
    Ends ps_ z_ (execPortRetryTimer port s) := by
  unfold execPortRetryTimer
  refine ofNext ?_
  refine iteP (P := Rel ps_ z_) ?_ ?_
  · refine rel_startAttempt ?_ (Sub.trans (by decide) hp_)
    · assumption
  · assumption

theorem rel_execReplayTimerExpiry {ps_ : List Part} {z_ : State} {port : Nat} {waitedNs : Nat} {s : State} (h2_ : Rel ps_ z_ s) (hp_ : Sub [.tx, .regs, .counts, .clf] ps_) :
    Ends ps_ z_ (execReplayTimerExpiry port waitedNs s) := by
  unfold execReplayTimerExpiry
  refine ofNext ?_
  refine iteP (P := Rel ps_ z_) ?_ ?_
  · refine rel_resendAll ?_ (Sub.trans (by decide) hp_)
    · assumption
  · assumption

theorem rel_slewTick {ps_ : List Part} {z_ : State} {s : State} (h0_ : Rel ps_ z_ s) (hp_ : Sub [.regs, .clf] ps_) :
    Rel ps_ z_ (slewTick s) := by
  unfold slewTick
  refine iteP (P := Rel ps_ z_) ?_ ?_
  · assumption
  · refine rel_applySlew ?_ (Sub.trans (by decide) hp_)
    · assumption

theorem rel_execPortRetrainWrite {ps_ : List Part} {z_ : State} {port : Nat} {w : CrsWrite} {s : State} (h2_ : Rel ps_ z_ s) (hp_ : Sub [.tx, .regs, .counts, .clf, .quay, .rst] ps_) :
    Ends ps_ z_ (execPortRetrainWrite port w s) := by
  unfold execPortRetrainWrite
  refine ofNext ?_
  refine rel_writePctl ?_ (Sub.trans (by decide) hp_)
  · assumption

theorem rel_attemptFails {ps_ : List Part} {z_ : State} {s : State} {n : Nat} (h0_ : Rel ps_ z_ s) (hp_ : Sub [.tx, .regs, .counts, .clf, .quay, .rst] ps_) :
    Rel ps_ z_ (attemptFails s n) := by
  unfold attemptFails
  extract_lets -merge -underBinder x2_0 x2_1
  clear_value x2_0
  have hx2_1 : Rel ps_ z_ x2_1 := by
    unfold x2_1
    refine rel_wrs ?_ (Sub.trans (by decide) hp_)
    · assumption
  clear_value x2_1
  refine iteP (P := Rel ps_ z_) ?_ ?_
  · refine rel_portFail ?_ (Sub.trans (by decide) hp_)
    · assumption
  · refine rel_toState ?_ (Sub.trans (by decide) hp_)
    · assumption

theorem rel_execReportReceive {ps_ : List Part} {z_ : State} {device : Nat} {s : State} (h1_ : Rel ps_ z_ s) (hp_ : Sub [.tx, .regs, .counts, .clf, .quay] ps_) :
    Ends ps_ z_ (execReportReceive device s) := by
  unfold execReportReceive
  extract_lets -merge -underBinder x2_0
  have hx2_0 : Rel ps_ z_ x2_0 := by
    unfold x2_0
    refine rel_wr ?_ (Sub.trans (by decide) hp_)
    · assumption
  clear_value x2_0
  refine ofNext ?_
  refine iteP (P := Rel ps_ z_) ?_ ?_
  · assumption
  · split
    · refine iteP (P := Rel ps_ z_) ?_ ?_
      · refine rel_endWalk ?_ (Sub.trans (by decide) hp_)
        · assumption
      · assumption
    · assumption

theorem rel_execAssignReceive {ps_ : List Part} {z_ : State} {port : Nat} {x : Nat} {y : Nat} {z : Nat} {tag : Nat} {sx : Nat} {sy : Nat} {sz : Nat} {peerPort : Nat} {s : State} (h9_ : Rel ps_ z_ s) (hp_ : Sub [.tx, .regs, .counts, .clf, .quay, .rst] ps_) :
    Ends ps_ z_ (execAssignReceive port x y z tag sx sy sz peerPort s) := by
  unfold execAssignReceive
  extract_lets -merge -underBinder x2_0 x2_1 x2_2 x2_3 x2_4 x2_5 x2_6 x2_7
  clear_value x2_0 x2_1 x2_2 x2_3 x2_4 x2_5 x2_6
  have hx2_7 : Rel ps_ z_ x2_7 := by
    unfold x2_7
    refine rel_setUpstream ?_ (Sub.trans (by decide) hp_)
    · refine rel_setCoord ?_ (Sub.trans (by decide) hp_)
      · assumption
  clear_value x2_7
  refine ofNext ?_
  refine iteP (P := Rel ps_ z_) ?_ ?_
  · assumption
  · refine iteP (P := Rel ps_ z_) ?_ ?_
    · refine rel_portFail ?_ (Sub.trans (by decide) hp_)
      · assumption
    · refine iteP (P := Rel ps_ z_) ?_ ?_
      · refine rel_sendConflict ?_ (Sub.trans (by decide) hp_)
        · assumption
      · refine iteP (P := Rel ps_ z_) ?_ ?_
        · refine iteP (P := Rel ps_ z_) ?_ ?_
          · refine rel_sendConflict ?_ (Sub.trans (by decide) hp_)
            · assumption
          · assumption
        · refine rel_sendAssign ?_ (Sub.trans (by decide) hp_)
          · refine rel_sendReport ?_ (Sub.trans (by decide) hp_)
            · assumption

theorem rel_execTrainingTimeout {ps_ : List Part} {z_ : State} {port : Nat} {s : State} (h1_ : Rel ps_ z_ s) (hp_ : Sub [.tx, .regs, .counts, .clf, .quay, .rst] ps_) :
    Ends ps_ z_ (execTrainingTimeout port s) := by
  unfold execTrainingTimeout
  extract_lets -merge -underBinder x2_0 x2_1
  clear_value x2_0 x2_1
  refine ofNext ?_
  refine iteP (P := Rel ps_ z_) ?_ ?_
  · refine rel_attemptFails ?_ (Sub.trans (by decide) hp_)
    · assumption
  · assumption

theorem rel_execWalkTimeout {ps_ : List Part} {z_ : State} {s : State} (h0_ : Rel ps_ z_ s) (hp_ : Sub [.tx, .regs, .counts, .clf, .quay] ps_) :
    Ends ps_ z_ (execWalkTimeout s) := by
  unfold execWalkTimeout
  refine ofNext ?_
  split
  · refine iteP (P := Rel ps_ z_) ?_ ?_
    · refine rel_endWalk ?_ (Sub.trans (by decide) hp_)
      · assumption
    · assumption
  · assumption

end Sys2Proof.Laws
end

