-- ==== Sys2Proof/Laws/RelSessions.lean ====
section
/-!
SUPPORT. One lemma for each operation on Seawall, Shingle and the host commands: it keeps `Rel`, and the parts
listed are all that it can change.
-/
namespace Sys2Proof.Laws
open Sys2Proof Sys2Proof.Machine Sys2Proof.Safety

/-! ### Seawall -/

theorem rel_swlReject {ps_ : List Part} {z_ : State} {s : State} {slot : Nat} {code : Nat} {cls : Nat} (h0_ : Rel ps_ z_ s) (hp_ : Sub [.regs] ps_) :
    Rel ps_ z_ (swlReject s slot code cls) := by
  unfold swlReject
  refine rel_wrs ?_ (Sub.trans (by decide) hp_)
  · refine rel_wrOr ?_ (Sub.trans (by decide) hp_)
    · assumption

theorem rel_modSwl {ps_ : List Part} {z_ : State} {s : State} {f : Seawall → Seawall} (h0_ : Rel ps_ z_ s) (hp_ : Sub [.swl] ps_) :
    Rel ps_ z_ (modSwl s f) := by
  unfold modSwl
  refine rel_swl ?_ (hp_ _ (by decide))
  assumption

theorem rel_putKey {ps_ : List Part} {z_ : State} {s : State} {n : Nat} {key : W256} {salt : W32} {owner : Nat} {dir : Nat} {epoch : Nat} (h0_ : Rel ps_ z_ s) (hp_ : Sub [.swl] ps_) :
    Rel ps_ z_ (putKey s n key salt owner dir epoch) := by
  unfold putKey
  extract_lets -merge -underBinder x2_0
  clear_value x2_0
  refine rel_modSwl ?_ (Sub.trans (by decide) hp_)
  · assumption

theorem rel_loadStaged {ps_ : List Part} {z_ : State} {s : State} {n : Nat} {owner : Nat} {dir : Nat} {epoch : Nat} (h0_ : Rel ps_ z_ s) (hp_ : Sub [.regs, .swl] ps_) :
    Rel ps_ z_ (loadStaged s n owner dir epoch) := by
  unfold loadStaged
  extract_lets -merge -underBinder x2_0 x2_1
  have hx2_0 : Rel ps_ z_ x2_0 := by
    unfold x2_0
    refine rel_putKey ?_ (Sub.trans (by decide) hp_)
    · assumption
  clear_value x2_0
  have hx2_1 : Rel ps_ z_ x2_1 := by
    unfold x2_1
    refine rel_wrs ?_ (Sub.trans (by decide) hp_)
    · assumption
  clear_value x2_1
  refine rel_modSwl ?_ (Sub.trans (by decide) hp_)
  · assumption

theorem rel_keyLoadNow {ps_ : List Part} {z_ : State} {s : State} (h0_ : Rel ps_ z_ s) (hp_ : Sub [.regs, .swl] ps_) :
    Rel ps_ z_ (keyLoadNow s) := by
  unfold keyLoadNow
  extract_lets -merge -underBinder x2_0 x2_1 x2_2
  clear_value x2_0 x2_1 x2_2
  refine iteP (P := Rel ps_ z_) ?_ ?_
  · assumption
  · refine iteP (P := Rel ps_ z_) ?_ ?_
    · refine rel_swlReject ?_ (Sub.trans (by decide) hp_)
      · assumption
    · refine iteP (P := Rel ps_ z_) ?_ ?_
      · refine rel_swlReject ?_ (Sub.trans (by decide) hp_)
        · assumption
      · refine iteP (P := Rel ps_ z_) ?_ ?_
        · refine rel_modSwl ?_ (Sub.trans (by decide) hp_)
          · assumption
        · refine rel_loadStaged ?_ (Sub.trans (by decide) hp_)
          · assumption

theorem rel_modKey {ps_ : List Part} {z_ : State} {s : State} {n : Nat} {f : KeySlot → KeySlot} (h0_ : Rel ps_ z_ s) (hp_ : Sub [.swl] ps_) :
    Rel ps_ z_ (modKey s n f) := by
  unfold modKey
  refine rel_modSwl ?_ (Sub.trans (by decide) hp_)
  · assumption

theorem rel_keyRetireNow {ps_ : List Part} {z_ : State} {s : State} (h0_ : Rel ps_ z_ s) (hp_ : Sub [.swl] ps_) :
    Rel ps_ z_ (keyRetireNow s) := by
  unfold keyRetireNow
  extract_lets -merge -underBinder x2_0
  clear_value x2_0
  refine iteP (P := Rel ps_ z_) ?_ ?_
  · assumption
  · refine rel_modKey ?_ (Sub.trans (by decide) hp_)
    · assumption

theorem rel_keyEraseNow {ps_ : List Part} {z_ : State} {s : State} (h0_ : Rel ps_ z_ s) (hp_ : Sub [.swl] ps_) :
    Rel ps_ z_ (keyEraseNow s) := by
  unfold keyEraseNow
  refine rel_clearKeySlot ?_ (Sub.trans (by decide) hp_)
  · assumption

theorem rel_writeKctl {ps_ : List Part} {z_ : State} {s : State} {c : CrsWrite} (h0_ : Rel ps_ z_ s) (hp_ : Sub [.regs, .swl] ps_) :
    Rel ps_ z_ (writeKctl s c) := by
  unfold writeKctl
  extract_lets -merge -underBinder x2_0 x2_1 x2_2
  have hx2_0 : Rel ps_ z_ x2_0 := by
    unfold x2_0
    refine rel_storeWrite ?_ (Sub.trans (by decide) hp_)
    · assumption
  clear_value x2_0
  have hx2_1 : Rel ps_ z_ x2_1 := by
    unfold x2_1
    refine iteP (P := Rel ps_ z_) ?_ ?_
    · refine rel_keyLoadNow ?_ (Sub.trans (by decide) hp_)
      · assumption
    · assumption
  clear_value x2_1
  have hx2_2 : Rel ps_ z_ x2_2 := by
    unfold x2_2
    refine iteP (P := Rel ps_ z_) ?_ ?_
    · refine rel_keyRetireNow ?_ (Sub.trans (by decide) hp_)
      · assumption
    · assumption
  clear_value x2_2
  refine iteP (P := Rel ps_ z_) ?_ ?_
  · assumption
  · refine iteP (P := Rel ps_ z_) ?_ ?_
    · refine rel_keyEraseNow ?_ (Sub.trans (by decide) hp_)
      · assumption
    · assumption

theorem rel_swlFinish {ps_ : List Part} {z_ : State} {s : State} {buffer : Nat} {code : Nat} {iv : BitVec 96} (h0_ : Rel ps_ z_ s) (hp_ : Sub [.swl] ps_) :
    Rel ps_ z_ (swlFinish s buffer code iv) := by
  unfold swlFinish
  refine rel_modSwl ?_ (Sub.trans (by decide) hp_)
  · assumption

theorem rel_swlFail {ps_ : List Part} {z_ : State} {s : State} {r : SwlReq} {code : Nat} (h0_ : Rel ps_ z_ s) (hp_ : Sub [.regs, .swl] ps_) :
    Rel ps_ z_ (swlFail s r code) := by
  unfold swlFail
  refine rel_swlFinish ?_ (Sub.trans (by decide) hp_)
  · refine rel_wrs ?_ (Sub.trans (by decide) hp_)
    · assumption

theorem rel_failAll {ps_ : List Part} {z_ : State} {s : State} {code : Nat} (h0_ : Rel ps_ z_ s) (hp_ : Sub [.regs, .swl] ps_) :
    Rel ps_ z_ (failAll s code) := by
  unfold failAll
  refine foldSP ?_ ?_ _
  · refine rel_modSwl ?_ (Sub.trans (by decide) hp_)
    · assumption
  · intro a4_0 a4_1 h4_0
    refine rel_swlFail ?_ (Sub.trans (by decide) hp_)
    · assumption

theorem rel_zeroKeys {ps_ : List Part} {z_ : State} {s : State} {byAlarm : Bool} (h0_ : Rel ps_ z_ s) (hp_ : Sub [.swl] ps_) :
    Rel ps_ z_ (zeroKeys s byAlarm) := by
  unfold zeroKeys
  extract_lets -merge -underBinder x2_0 x2_1
  clear_value x2_0 x2_1
  refine rel_modSwl ?_ (Sub.trans (by decide) hp_)
  · assumption

theorem rel_alarmActs {ps_ : List Part} {z_ : State} {s : State} (h0_ : Rel ps_ z_ s) (hp_ : Sub [.regs, .counts, .swl] ps_) :
    Rel ps_ z_ (alarmActs s) := by
  unfold alarmActs
  extract_lets -merge -underBinder x2_0 x2_1
  have hx2_0 : Rel ps_ z_ x2_0 := by
    unfold x2_0
    refine rel_failAll ?_ (Sub.trans (by decide) hp_)
    · refine rel_zeroKeys ?_ (Sub.trans (by decide) hp_)
      · assumption
  clear_value x2_0
  have hx2_1 : Rel ps_ z_ x2_1 := by
    unfold x2_1
    refine rel_count ?_ (Sub.trans (by decide) hp_)
    · refine rel_wrOr ?_ (Sub.trans (by decide) hp_)
      · assumption
  clear_value x2_1
  refine rel_modSwl ?_ (Sub.trans (by decide) hp_)
  · assumption

theorem rel_execSeawallAlarm {ps_ : List Part} {z_ : State} {sensor : Nat} {s : State} (h1_ : Rel ps_ z_ s) (hp_ : Sub [.regs, .counts, .swl] ps_) :
    Ends ps_ z_ (execSeawallAlarm sensor s) := by
  unfold execSeawallAlarm
  refine ofNext ?_
  refine iteP (P := Rel ps_ z_) ?_ ?_
  · assumption
  · refine rel_alarmActs ?_ (Sub.trans (by decide) hp_)
    · refine rel_wrOr ?_ (Sub.trans (by decide) hp_)
      · assumption

theorem rel_swlRelease {ps_ : List Part} {z_ : State} {s : State} {buffer : Nat} {iv : BitVec 96} {out : List Byte} {tag : BitVec 128} (h0_ : Rel ps_ z_ s) (hp_ : Sub [.swl] ps_) :
    Rel ps_ z_ (swlRelease s buffer iv out tag) := by
  unfold swlRelease
  refine rel_modSwl ?_ (Sub.trans (by decide) hp_)
  · assumption

theorem rel_markSlotRekey {ps_ : List Part} {z_ : State} {s : State} {n : Nat} (h0_ : Rel ps_ z_ s) (hp_ : Sub [.ofs] ps_) :
    Rel ps_ z_ (markSlotRekey s n) := by
  unfold markSlotRekey
  extract_lets -merge -underBinder x2_0 x2_1 x2_2
  clear_value x2_0 x2_1 x2_2
  refine iteP (P := Rel ps_ z_) ?_ ?_
  · refine rel_ofs ?_ (hp_ _ (by decide))
    assumption
  · assumption

theorem rel_askRekey {ps_ : List Part} {z_ : State} {s : State} {n : Nat} (h0_ : Rel ps_ z_ s) (hp_ : Sub [.tx, .regs, .counts, .quay] ps_) :
    Rel ps_ z_ (askRekey s n) := by
  unfold askRekey
  extract_lets -merge -underBinder x2_0 x2_1
  clear_value x2_0 x2_1
  refine iteP (P := Rel ps_ z_) ?_ ?_
  · refine rel_event ?_ (Sub.trans (by decide) hp_)
    · refine rel_modBerth ?_ (Sub.trans (by decide) hp_)
      · assumption
  · assumption

theorem rel_takeIv {ps_ : List Part} {z_ : State} {s : State} {n : Nat} (h0_ : Rel ps_ z_ s) (hp_ : Sub [.tx, .regs, .counts, .swl, .ofs, .quay] ps_) :
    Rel1 ps_ z_ (takeIv s n) := by
  unfold takeIv
  extract_lets -merge -underBinder x2_0 x2_1 x2_2 x2_3
  clear_value x2_0 x2_1
  have hx2_3 : Rel ps_ z_ x2_3 := by
    unfold x2_3
    refine rel_modKey ?_ (Sub.trans (by decide) hp_)
    · assumption
  clear_value x2_3
  refine ofPair ?_
  refine rel_markSlotRekey ?_ (Sub.trans (by decide) hp_)
  · refine rel_askRekey ?_ (Sub.trans (by decide) hp_)
    · refine iteP (P := Rel ps_ z_) ?_ ?_
      · refine rel_wrOr ?_ (Sub.trans (by decide) hp_)
        · assumption
      · assumption

theorem rel_execKeyLoadResume {ps_ : List Part} {z_ : State} {s : State} (h0_ : Rel ps_ z_ s) (hp_ : Sub [.regs, .swl] ps_) :
    Ends ps_ z_ (execKeyLoadResume s) := by
  unfold execKeyLoadResume
  refine ofNext ?_
  split
  · refine iteP (P := Rel ps_ z_) ?_ ?_
    · refine rel_loadStaged ?_ (Sub.trans (by decide) hp_)
      · assumption
    · assumption
  · assumption

theorem rel_tagFailed {ps_ : List Part} {z_ : State} {s : State} {n : Nat} (h0_ : Rel ps_ z_ s) (hp_ : Sub [.regs, .counts] ps_) :
    Rel ps_ z_ (tagFailed s n) := by
  unfold tagFailed
  refine rel_wrs ?_ (Sub.trans (by decide) hp_)
  · refine rel_count ?_ (Sub.trans (by decide) hp_)
    · refine rel_wrOr ?_ (Sub.trans (by decide) hp_)
      · assumption

theorem rel_execKeyLoad {ps_ : List Part} {z_ : State} {w : CrsWrite} {s : State} (h1_ : Rel ps_ z_ s) (hp_ : Sub [.regs, .swl] ps_) :
    Ends ps_ z_ (execKeyLoad w s) := by
  unfold execKeyLoad
  refine ofNext ?_
  refine rel_writeKctl ?_ (Sub.trans (by decide) hp_)
  · assumption

theorem rel_sealData {ps_ : List Part} {z_ : State} {s : State} {n : Nat} {aad : BitVec 96 → List Byte} {data : List Byte} (h0_ : Rel ps_ z_ s) (hp_ : Sub [.tx, .regs, .counts, .swl, .ofs, .quay] ps_) :
    Rel1 ps_ z_ (sealData s n aad data) := by
  unfold sealData
  extract_lets -merge -underBinder x2_0 x2_1 x2_2
  clear_value x2_0
  have hx2_1 : Rel1 ps_ z_ x2_1 := by
    unfold x2_1
    refine rel_takeIv ?_ (Sub.trans (by decide) hp_)
    · assumption
  clear_value x2_1 x2_2
  refine ofPair ?_
  refine rel_count ?_ (Sub.trans (by decide) hp_)
  · refine (?_ : Rel1 ps_ z_ _)
    assumption

theorem rel_execEntropyFail {ps_ : List Part} {z_ : State} {s : State} (h0_ : Rel ps_ z_ s) (hp_ : Sub [.regs, .swl] ps_) :
    Ends ps_ z_ (execEntropyFail s) := by
  unfold execEntropyFail
  refine ofNext ?_
  refine iteP (P := Rel ps_ z_) ?_ ?_
  · assumption
  · refine rel_wrOr ?_ (Sub.trans (by decide) hp_)
    · refine rel_modSwl ?_ (Sub.trans (by decide) hp_)
      · assumption

theorem rel_execKeyRetire {ps_ : List Part} {z_ : State} {w : CrsWrite} {s : State} (h1_ : Rel ps_ z_ s) (hp_ : Sub [.regs, .swl] ps_) :
    Ends ps_ z_ (execKeyRetire w s) := by
  unfold execKeyRetire
  extract_lets -merge -underBinder x2_0
  have hx2_0 : Rel ps_ z_ x2_0 := by
    unfold x2_0
    refine rel_writeKctl ?_ (Sub.trans (by decide) hp_)
    · assumption
  clear_value x2_0
  refine ofNext ?_
  assumption

theorem rel_execEntropyTimeout {ps_ : List Part} {z_ : State} {s : State} (h0_ : Rel ps_ z_ s) (hp_ : Sub [.regs, .swl] ps_) :
    Ends ps_ z_ (execEntropyTimeout s) := by
  unfold execEntropyTimeout
  refine ofNext ?_
  split
  · refine iteP (P := Rel ps_ z_) ?_ ?_
    · refine rel_failAll ?_ (Sub.trans (by decide) hp_)
      · assumption
    · assumption
  · assumption

theorem rel_execSeawallRequest {ps_ : List Part} {z_ : State} {p : SwlParams} {s : State} (h1_ : Rel ps_ z_ s) (hp_ : Sub [.tx, .regs, .counts, .swl, .ofs, .quay] ps_) :
    Ends ps_ z_ (execSeawallRequest p s) := by
  unfold execSeawallRequest
  extract_lets -merge -underBinder x2_0 x2_1
  clear_value x2_0
  have hx2_1 : Rel1 ps_ z_ x2_1 := by
    unfold x2_1
    refine iteP (P := Rel1 ps_ z_) ?_ ?_
    · refine ofPair ?_
      assumption
    · refine rel_takeIv ?_ (Sub.trans (by decide) hp_)
      · assumption
  clear_value x2_1
  refine ofNext ?_
  refine iteP (P := Rel ps_ z_) ?_ ?_
  · assumption
  · refine iteP (P := Rel ps_ z_) ?_ ?_
    · refine rel_swlFinish ?_ (Sub.trans (by decide) hp_)
      · refine rel_swlReject ?_ (Sub.trans (by decide) hp_)
        · assumption
    · refine iteP (P := Rel ps_ z_) ?_ ?_
      · assumption
      · refine rel_modSwl ?_ (Sub.trans (by decide) hp_)
        · refine (?_ : Rel1 ps_ z_ _)
          assumption

theorem rel_resetSeawall {ps_ : List Part} {z_ : State} {s : State} (h0_ : Rel ps_ z_ s) (hp_ : Sub [.regs, .counts, .swl] ps_) :
    Rel ps_ z_ (resetSeawall s) := by
  unfold resetSeawall
  refine rel_alarmActs ?_ (Sub.trans (by decide) hp_)
  · assumption

theorem rel_execEntropyRecover {ps_ : List Part} {z_ : State} {s : State} (h0_ : Rel ps_ z_ s) (hp_ : Sub [.swl] ps_) :
    Ends ps_ z_ (execEntropyRecover s) := by
  unfold execEntropyRecover
  refine ofNext ?_
  refine rel_modSwl ?_ (Sub.trans (by decide) hp_)
  · assumption

theorem rel_execKeyErase {ps_ : List Part} {z_ : State} {w : CrsWrite} {s : State} (h1_ : Rel ps_ z_ s) (hp_ : Sub [.regs, .swl] ps_) :
    Ends ps_ z_ (execKeyErase w s) := by
  unfold execKeyErase
  extract_lets -merge -underBinder x2_0
  have hx2_0 : Rel ps_ z_ x2_0 := by
    unfold x2_0
    refine rel_writeKctl ?_ (Sub.trans (by decide) hp_)
    · assumption
  clear_value x2_0
  refine ofNext ?_
  assumption

theorem rel_execSeawallRequestComplete {ps_ : List Part} {z_ : State} {cls : Nat} {s : State} (h1_ : Rel ps_ z_ s) (hp_ : Sub [.regs, .counts, .swl] ps_) :
    Ends ps_ z_ (execSeawallRequestComplete cls s) := by
  unfold execSeawallRequestComplete
  refine ofNext ?_
  split
  · assumption
  · extract_lets -merge -underBinder x4_0 x4_1 x4_2
    have hx4_0 : Rel ps_ z_ x4_0 := by
      unfold x4_0
      refine rel_modSwl ?_ (Sub.trans (by decide) hp_)
      · assumption
    clear_value x4_0 x4_1
    have hx4_2 : Rel ps_ z_ x4_2 := by
      unfold x4_2
      refine rel_modSwl ?_ (Sub.trans (by decide) hp_)
      · assumption
    clear_value x4_2
    refine iteP (P := Rel ps_ z_) ?_ ?_
    · assumption
    · refine iteP (P := Rel ps_ z_) ?_ ?_
      · refine rel_swlFail ?_ (Sub.trans (by decide) hp_)
        · assumption
      · refine iteP (P := Rel ps_ z_) ?_ ?_
        · refine rel_swlFail ?_ (Sub.trans (by decide) hp_)
          · refine rel_count ?_ (Sub.trans (by decide) hp_)
            · refine rel_wrOr ?_ (Sub.trans (by decide) hp_)
              · assumption
        · refine rel_swlRelease ?_ (Sub.trans (by decide) hp_)
          · refine rel_count ?_ (Sub.trans (by decide) hp_)
            · assumption

/-! ### Shingle -/

theorem rel_finishDecode {ps_ : List Part} {z_ : State} {s : State} {r : ShgReq} {slot : Nat} (h0_ : Rel ps_ z_ s) (hp_ : Sub [.free, .tx, .regs, .counts, .mem, .bytes, .shg, .quay, .rst] ps_) :
    Rel ps_ z_ (finishDecode s r slot) := by
  unfold finishDecode
  extract_lets -merge -underBinder x2_0 x2_1
  clear_value x2_0
  have hx2_1 : ∀ a0, Rel ps_ z_ a0 → Rel ps_ z_ (x2_1 a0) := by
    intro a0_ h0_
    unfold x2_1
    refine rel_finish ?_ (Sub.trans (by decide) hp_)
    · assumption
  clear_value x2_1
  refine iteP (P := Rel ps_ z_) ?_ ?_
  · refine hx2_1 _ ?_
    refine rel_noteRead ?_ (Sub.trans (by decide) hp_)
    · assumption
  · split
    · refine hx2_1 _ ?_
      refine rel_shgFail ?_ (Sub.trans (by decide) hp_)
      · assumption
    · extract_lets -merge -underBinder x6_0 x6_1
      clear_value x6_0
      have hx6_1 : Rel ps_ z_ x6_1 := by
        unfold x6_1
        refine rel_shgReport ?_ (Sub.trans (by decide) hp_)
        · assumption
      clear_value x6_1
      split
      · refine hx2_1 _ ?_
        assumption
      · extract_lets -merge -underBinder x8_0 x8_1 x8_2
        clear_value x8_0
        have hx8_1 : Rel1 ps_ z_ x8_1 := by
          unfold x8_1
          refine rel_writeN ?_ (Sub.trans (by decide) hp_)
          · assumption
        clear_value x8_1
        have hx8_2 : Rel ps_ z_ x8_2 := by
          unfold x8_2
          refine rel_modObj ?_ (Sub.trans (by decide) hp_)
          · refine (?_ : Rel1 ps_ z_ _)
            assumption
        clear_value x8_2
        refine iteP (P := Rel ps_ z_) ?_ ?_
        · refine rel_finish ?_ (Sub.trans (by decide) hp_)
          · assumption
        · refine iteP (P := Rel ps_ z_) ?_ ?_
          · refine hx2_1 _ ?_
            refine (?_ : Rel1 ps_ z_ _)
            assumption
          · refine rel_finish ?_ (Sub.trans (by decide) hp_)
            · refine rel_touch ?_ (Sub.trans (by decide) hp_)
              · refine rel_touch ?_ (Sub.trans (by decide) hp_)
                · assumption

theorem rel_modTslot {ps_ : List Part} {z_ : State} {s : State} {n : Nat} {f : TSlot → TSlot} (h0_ : Rel ps_ z_ s) (hp_ : Sub [.shg] ps_) :
    Rel ps_ z_ (modTslot s n f) := by
  unfold modTslot
  refine rel_modShg ?_ (Sub.trans (by decide) hp_)
  · assumption

theorem rel_liveTslot {ps_ : List Part} {z_ : State} {s : State} {n : Nat} {f : List Nat} (h0_ : Rel ps_ z_ s) (hp_ : Sub [.shg] ps_) :
    Rel ps_ z_ (liveTslot s n f) := by
  unfold liveTslot
  refine rel_modTslot ?_ (Sub.trans (by decide) hp_)
  · assumption

theorem rel_countCoded {ps_ : List Part} {z_ : State} {s : State} {plane : List Byte} {bytes : List Byte} (h0_ : Rel ps_ z_ s) (hp_ : Sub [.counts] ps_) :
    Rel ps_ z_ (countCoded s plane bytes) := by
  unfold countCoded
  extract_lets -merge -underBinder x2_0 x2_1
  clear_value x2_0 x2_1
  refine rel_count ?_ (Sub.trans (by decide) hp_)
  · refine rel_count ?_ (Sub.trans (by decide) hp_)
    · refine rel_count ?_ (Sub.trans (by decide) hp_)
      · refine rel_count ?_ (Sub.trans (by decide) hp_)
        · assumption

theorem rel_finishCode {ps_ : List Part} {z_ : State} {s : State} {r : ShgReq} {slot : Nat} (h0_ : Rel ps_ z_ s) (hp_ : Sub [.free, .tx, .regs, .counts, .mem, .bytes, .shg, .quay, .rst] ps_) :
    Rel ps_ z_ (finishCode s r slot) := by
  unfold finishCode
  extract_lets -merge -underBinder x2_0 x2_1 x2_2 x2_3 x2_4 x2_5 x2_6
  clear_value x2_0 x2_1 x2_2
  have hx2_3 : Rel ps_ z_ x2_3 := by
    unfold x2_3
    refine rel_liveTslot ?_ (Sub.trans (by decide) hp_)
    · assumption
  clear_value x2_3
  have hx2_4 : Rel1 ps_ z_ x2_4 := by
    unfold x2_4
    refine rel_writeN ?_ (Sub.trans (by decide) hp_)
    · assumption
  clear_value x2_4
  have hx2_5 : Rel ps_ z_ x2_5 := by
    unfold x2_5
    refine rel_modObj ?_ (Sub.trans (by decide) hp_)
    · refine (?_ : Rel1 ps_ z_ _)
      assumption
  clear_value x2_5
  have hx2_6 : Rel ps_ z_ x2_6 := by
    unfold x2_6
    refine rel_countCoded ?_ (Sub.trans (by decide) hp_)
    · assumption
  clear_value x2_6
  refine iteP (P := Rel ps_ z_) ?_ ?_
  · refine rel_finish ?_ (Sub.trans (by decide) hp_)
    · refine rel_noteRead ?_ (Sub.trans (by decide) hp_)
      · assumption
  · refine iteP (P := Rel ps_ z_) ?_ ?_
    · refine rel_finish ?_ (Sub.trans (by decide) hp_)
      · assumption
    · refine iteP (P := Rel ps_ z_) ?_ ?_
      · refine rel_finish ?_ (Sub.trans (by decide) hp_)
        · refine (?_ : Rel1 ps_ z_ _)
          assumption
      · refine rel_finish ?_ (Sub.trans (by decide) hp_)
        · refine rel_touch ?_ (Sub.trans (by decide) hp_)
          · refine rel_touch ?_ (Sub.trans (by decide) hp_)
            · assumption

theorem rel_retireTslot {ps_ : List Part} {z_ : State} {s : State} {n : Nat} (h0_ : Rel ps_ z_ s) (hp_ : Sub [.shg] ps_) :
    Rel ps_ z_ (retireTslot s n) := by
  unfold retireTslot
  refine rel_modTslot ?_ (Sub.trans (by decide) hp_)
  · assumption

theorem rel_execShingleRequestComplete {ps_ : List Part} {z_ : State} {s : State} (h0_ : Rel ps_ z_ s) (hp_ : Sub [.free, .tx, .regs, .counts, .mem, .bytes, .shg, .quay, .rst] ps_) :
    Ends ps_ z_ (execShingleRequestComplete s) := by
  unfold execShingleRequestComplete
  refine ofNext ?_
  split
  · assumption
  · extract_lets -merge -underBinder x4_0 x4_1 x4_2 x4_3
    have hx4_0 : Rel ps_ z_ x4_0 := by
      unfold x4_0
      refine (?_ : Rel1 ps_ z_ _)
      refine rel_residentFor ?_ (Sub.trans (by decide) hp_)
      · assumption
    clear_value x4_0 x4_1
    have hx4_2 : Rel ps_ z_ x4_2 := by
      unfold x4_2
      refine rel_modShg ?_ (Sub.trans (by decide) hp_)
      · assumption
    clear_value x4_2
    have hx4_3 : Rel ps_ z_ x4_3 := by
      unfold x4_3
      refine iteP (P := Rel ps_ z_) ?_ ?_
      · refine rel_finishDecode ?_ (Sub.trans (by decide) hp_)
        · assumption
      · refine rel_finishCode ?_ (Sub.trans (by decide) hp_)
        · assumption
    clear_value x4_3
    refine iteP (P := Rel ps_ z_) ?_ ?_
    · assumption
    · refine iteP (P := Rel ps_ z_) ?_ ?_
      · refine (?_ : Rel1 ps_ z_ _)
        refine rel_residentFor ?_ (Sub.trans (by decide) hp_)
        · assumption
      · refine rel_retireTslot ?_ (Sub.trans (by decide) hp_)
        · assumption

theorem rel_loadTslot {ps_ : List Part} {z_ : State} {s : State} {n : Nat} {user : Nat} {bytes : List Byte} (h0_ : Rel ps_ z_ s) (hp_ : Sub [.shg] ps_) :
    Rel ps_ z_ (loadTslot s n user bytes) := by
  unfold loadTslot
  refine rel_modTslot ?_ (Sub.trans (by decide) hp_)
  · assumption

theorem rel_buildTslot {ps_ : List Part} {z_ : State} {s : State} {n : Nat} {user : Nat} (h0_ : Rel ps_ z_ s) (hp_ : Sub [.shg] ps_) :
    Rel ps_ z_ (buildTslot s n user) := by
  unfold buildTslot
  refine rel_modTslot ?_ (Sub.trans (by decide) hp_)
  · assumption

theorem rel_takeTslot {ps_ : List Part} {z_ : State} {s : State} {n : Nat} {r : ShgReq} (h0_ : Rel ps_ z_ s) (hp_ : Sub [.mem, .shg] ps_) :
    Rel1 ps_ z_ (takeTslot s n r) := by
  unfold takeTslot
  extract_lets -merge -underBinder x2_0
  have hx2_0 : Rel1 ps_ z_ x2_0 := by
    unfold x2_0
    refine rel_residentFor ?_ (Sub.trans (by decide) hp_)
    · assumption
  clear_value x2_0
  refine iteP (P := Rel1 ps_ z_) ?_ ?_
  · refine iteP (P := Rel1 ps_ z_) ?_ ?_
    · refine ofPair ?_
      refine rel_loadTslot ?_ (Sub.trans (by decide) hp_)
      · refine (?_ : Rel1 ps_ z_ _)
        assumption
    · refine ofPair ?_
      refine (?_ : Rel1 ps_ z_ _)
      assumption
  · refine ofPair ?_
    refine rel_buildTslot ?_ (Sub.trans (by decide) hp_)
    · assumption

theorem rel_queueShg {ps_ : List Part} {z_ : State} {s : State} {r : ShgReq} (h0_ : Rel ps_ z_ s) (hp_ : Sub [.regs, .mem, .shg] ps_) :
    Rel ps_ z_ (queueShg s r) := by
  unfold queueShg
  split
  · extract_lets -merge -underBinder x4_0
    have hx4_0 : Rel1 ps_ z_ x4_0 := by
      unfold x4_0
      refine rel_takeTslot ?_ (Sub.trans (by decide) hp_)
      · assumption
    clear_value x4_0
    refine rel_modShg ?_ (Sub.trans (by decide) hp_)
    · refine (?_ : Rel1 ps_ z_ _)
      assumption
  · refine rel_modShg ?_ (Sub.trans (by decide) hp_)
    · refine rel_wrOr ?_ (Sub.trans (by decide) hp_)
      · assumption

theorem rel_codeStart {ps_ : List Part} {z_ : State} {s : State} {b : Nat} {seq : W32} {src : Hdl} {dst : Hdl} {fmt : Nat} (h0_ : Rel ps_ z_ s) (hp_ : Sub [.regs, .mem, .shg] ps_) :
    Rel1 ps_ z_ (codeStart s b seq src dst fmt) := by
  unfold codeStart
  extract_lets -merge -underBinder x2_0
  clear_value x2_0
  refine iteP (P := Rel1 ps_ z_) ?_ ?_
  · refine ofPair ?_
    assumption
  · refine ofPair ?_
    refine rel_queueShg ?_ (Sub.trans (by decide) hp_)
    · assumption

theorem rel_decodeStart {ps_ : List Part} {z_ : State} {s : State} {b : Nat} {seq : W32} {src : Hdl} {dst : Hdl} (h0_ : Rel ps_ z_ s) (hp_ : Sub [.regs, .mem, .shg] ps_) :
    Rel1 ps_ z_ (decodeStart s b seq src dst) := by
  unfold decodeStart
  extract_lets -merge -underBinder x2_0
  clear_value x2_0
  refine iteP (P := Rel1 ps_ z_) ?_ ?_
  · refine ofPair ?_
    assumption
  · refine ofPair ?_
    refine rel_queueShg ?_ (Sub.trans (by decide) hp_)
    · assumption

theorem rel_releaseBlock {ps_ : List Part} {z_ : State} {s : State} {n : Nat} (h0_ : Rel ps_ z_ s) (hp_ : Sub [.shg] ps_) :
    Rel ps_ z_ (releaseBlock s n) := by
  unfold releaseBlock
  extract_lets -merge -underBinder x2_0
  have hx2_0 : Rel ps_ z_ x2_0 := by
    unfold x2_0
    refine rel_modTslot ?_ (Sub.trans (by decide) hp_)
    · assumption
  clear_value x2_0
  refine iteP (P := Rel ps_ z_) ?_ ?_
  · refine rel_retireTslot ?_ (Sub.trans (by decide) hp_)
    · assumption
  · assumption

theorem rel_grantSlot {ps_ : List Part} {z_ : State} {s : State} (h0_ : Rel ps_ z_ s) (hp_ : Sub [.mem, .shg] ps_) :
    Rel ps_ z_ (grantSlot s) := by
  unfold grantSlot
  split
  · split
    · extract_lets -merge -underBinder x6_0
      have hx6_0 : Rel1 ps_ z_ x6_0 := by
        unfold x6_0
        refine rel_takeTslot ?_ (Sub.trans (by decide) hp_)
        · assumption
      clear_value x6_0
      refine iteP (P := Rel ps_ z_) ?_ ?_
      · refine rel_modShg ?_ (Sub.trans (by decide) hp_)
        · refine (?_ : Rel1 ps_ z_ _)
          assumption
      · refine (?_ : Rel1 ps_ z_ _)
        assumption
    · assumption
  · assumption

theorem rel_resetShingle {ps_ : List Part} {z_ : State} {s : State} (h0_ : Rel ps_ z_ s) (hp_ : Sub [.tx, .counts, .shg, .ofs, .quay] ps_) :
    Rel ps_ z_ (resetShingle s) := by
  unfold resetShingle
  extract_lets -merge -underBinder x2_0 x2_1 x2_2 x2_3
  clear_value x2_0
  have hx2_1 : Rel ps_ z_ x2_1 := by
    unfold x2_1
    refine rel_modShg ?_ (Sub.trans (by decide) hp_)
    · assumption
  clear_value x2_1 x2_2
  have hx2_3 : Rel ps_ z_ x2_3 := by
    unfold x2_3
    refine rel_ofs ?_ (hp_ _ (by decide))
    assumption
  clear_value x2_3
  refine foldSP ?_ ?_ _
  · assumption
  · intro a4_0 a4_1 h4_0
    refine rel_finish ?_ (Sub.trans (by decide) hp_)
    · assumption

/-! ### Session -/

theorem rel_sendEvents {ps_ : List Part} {z_ : State} {s : State} {b : Nat} (h0_ : Rel ps_ z_ s) (hp_ : Sub [.tx, .counts, .quay] ps_) :
    Rel ps_ z_ (sendEvents s b) := by
  unfold sendEvents
  extract_lets -merge -underBinder x2_0
  have hx2_0 : Rel ps_ z_ x2_0 := by
    unfold x2_0
    refine foldSP ?_ ?_ _
    · assumption
    · intro a6_0 a6_1 h6_0
      refine rel_sendEvent ?_ (Sub.trans (by decide) hp_)
      · assumption
  clear_value x2_0
  refine rel_modBerth ?_ (Sub.trans (by decide) hp_)
  · assumption

theorem rel_execEventResend {ps_ : List Part} {z_ : State} {berth : Nat} {s : State} (h1_ : Rel ps_ z_ s) (hp_ : Sub [.tx, .counts, .quay] ps_) :
    Ends ps_ z_ (execEventResend berth s) := by
  unfold execEventResend
  extract_lets -merge -underBinder x2_0
  clear_value x2_0
  refine ofNext ?_
  refine iteP (P := Rel ps_ z_) ?_ ?_
  · refine rel_sendEvents ?_ (Sub.trans (by decide) hp_)
    · assumption
  · assumption

theorem rel_execEcpPacketInvalid {ps_ : List Part} {z_ : State} {iface : Nat} {udpLen : Nat} {packet : List Byte} {s : State} (h3_ : Rel ps_ z_ s) (hp_ : Sub [.counts, .quay] ps_) :
    Ends ps_ z_ (execEcpPacketInvalid iface udpLen packet s) := by
  unfold execEcpPacketInvalid
  refine ofNext ?_
  refine iteP (P := Rel ps_ z_) ?_ ?_
  · refine rel_discardPacket ?_ (Sub.trans (by decide) hp_)
    · refine rel_countFrame ?_ (Sub.trans (by decide) hp_)
      · assumption
  · assumption

theorem rel_execUnsupportedOpcode {ps_ : List Part} {z_ : State} {h : EcpHdr} {opcode : Nat} {s : State} (h2_ : Rel ps_ z_ s) (hp_ : Sub [.free, .tx, .regs, .counts, .swl, .quay] ps_) :
    Ends ps_ z_ (execUnsupportedOpcode h opcode s) := by
  unfold execUnsupportedOpcode
  refine ofNext ?_
  refine iteP (P := Rel ps_ z_) ?_ ?_
  · assumption
  · refine rel_ecpWith ?_ ?_ (Sub.trans (by decide) hp_)
    · assumption
    · intro a6_0 h6_0
      refine rel_conclude ?_ (Sub.trans (by decide) hp_)
      · assumption

theorem rel_helloFail {ps_ : List Part} {z_ : State} {s : State} {h : EcpHdr} (h0_ : Rel ps_ z_ s) (hp_ : Sub [.tx, .regs, .counts, .quay] ps_) :
    Rel ps_ z_ (helloFail s h) := by
  unfold helloFail
  refine rel_unauthStatus ?_ (Sub.trans (by decide) hp_)
  · refine rel_count ?_ (Sub.trans (by decide) hp_)
    · refine rel_wrOr ?_ (Sub.trans (by decide) hp_)
      · assumption

theorem rel_unauthBusy {ps_ : List Part} {z_ : State} {s : State} {h : EcpHdr} {op : Nat} (h0_ : Rel ps_ z_ s) (hp_ : Sub [.tx, .counts, .quay] ps_) :
    Rel ps_ z_ (unauthBusy s h op) := by
  unfold unauthBusy
  extract_lets -merge -underBinder x2_0 x2_1 x2_2 x2_3
  clear_value x2_0 x2_1
  have hx2_2 : Rel ps_ z_ x2_2 := by
    unfold x2_2
    refine rel_quay ?_ (hp_ _ (by decide))
    assumption
  clear_value x2_2
  have hx2_3 : Rel ps_ z_ x2_3 := by
    unfold x2_3
    refine rel_emit ?_ (Sub.trans (by decide) hp_)
    · assumption
  clear_value x2_3
  refine iteP (P := Rel ps_ z_) ?_ ?_
  · refine iteP (P := Rel ps_ z_) ?_ ?_
    · refine rel_count ?_ (Sub.trans (by decide) hp_)
      · refine rel_count ?_ (Sub.trans (by decide) hp_)
        · assumption
    · assumption
  · refine rel_discardPacket ?_ (Sub.trans (by decide) hp_)
    · assumption

theorem rel_dropKeys {ps_ : List Part} {z_ : State} {s : State} {b : Nat} (h0_ : Rel ps_ z_ s) (hp_ : Sub [.swl] ps_) :
    Rel ps_ z_ (dropKeys s b) := by
  unfold dropKeys
  refine rel_clearKeySlot ?_ (Sub.trans (by decide) hp_)
  · refine rel_clearKeySlot ?_ (Sub.trans (by decide) hp_)
    · assumption

theorem rel_loadBerthKey {ps_ : List Part} {z_ : State} {s : State} {slot : Nat} {keyEpoch : Nat} {d : List Byte} (h0_ : Rel ps_ z_ s) (hp_ : Sub [.swl] ps_) :
    Rel1 ps_ z_ (loadBerthKey s slot keyEpoch d) := by
  unfold loadBerthKey
  refine ofPair ?_
  refine rel_putKey ?_ (Sub.trans (by decide) hp_)
  · assumption

theorem rel_helloOk {ps_ : List Part} {z_ : State} {s : State} {h : EcpHdr} {minor : Nat} {encap : List Byte} {payload : List Byte} (h0_ : Rel ps_ z_ s) (hp_ : Sub [.free, .tx, .counts, .swl, .quay, .eth] ps_) :
    Rel ps_ z_ (helloOk s h minor encap payload) := by
  unfold helloOk
  extract_lets -merge -underBinder x2_0 x2_1 x2_2 x2_3 x2_4 x2_5 x2_6 x2_7 x2_8 x2_9 x2_10
  clear_value x2_0 x2_1
  have hx2_2 : Rel ps_ z_ x2_2 := by
    unfold x2_2
    refine rel_dropKeys ?_ (Sub.trans (by decide) hp_)
    · refine rel_useFree ?_ (hp_ _ (by decide))
      · assumption
  clear_value x2_2 x2_3
  have hx2_4 : Rel1 ps_ z_ x2_4 := by
    unfold x2_4
    refine rel_loadBerthKey ?_ (Sub.trans (by decide) hp_)
    · assumption
  clear_value x2_4
  have hx2_5 : Rel ps_ z_ x2_5 := by
    unfold x2_5
    refine (?_ : Rel1 ps_ z_ _)
    assumption
  clear_value x2_5 x2_6 x2_7
  have hx2_8 : Rel ps_ z_ x2_8 := by
    unfold x2_8
    refine rel_modBerth ?_ (Sub.trans (by decide) hp_)
    · assumption
  clear_value x2_8 x2_9
  have hx2_10 : Rel ps_ z_ x2_10 := by
    unfold x2_10
    refine rel_eth ?_ (hp_ _ (by decide))
    assumption
  clear_value x2_10
  refine rel_sendEvents ?_ (Sub.trans (by decide) hp_)
  · refine rel_unauthStatus ?_ (Sub.trans (by decide) hp_)
    · assumption

theorem rel_helloCheck {ps_ : List Part} {z_ : State} {s : State} {h : EcpHdr} {major : Nat} {minor : Nat} {encapKey : List Byte} {hostKey : List Byte} {sig : List Byte} {payload : List Byte} (h0_ : Rel ps_ z_ s) (hp_ : Sub [.free, .tx, .regs, .counts, .swl, .quay, .eth] ps_) :
    Rel ps_ z_ (helloCheck s h major minor encapKey hostKey sig payload) := by
  unfold helloCheck
  refine iteP (P := Rel ps_ z_) ?_ ?_
  · refine rel_unauthStatus ?_ (Sub.trans (by decide) hp_)
    · refine rel_wrOr ?_ (Sub.trans (by decide) hp_)
      · assumption
  · refine iteP (P := Rel ps_ z_) ?_ ?_
    · refine rel_helloFail ?_ (Sub.trans (by decide) hp_)
      · assumption
    · refine iteP (P := Rel ps_ z_) ?_ ?_
      · refine rel_helloFail ?_ (Sub.trans (by decide) hp_)
        · assumption
      · refine iteP (P := Rel ps_ z_) ?_ ?_
        · refine rel_unauthBusy ?_ (Sub.trans (by decide) hp_)
          · assumption
        · refine rel_helloOk ?_ (Sub.trans (by decide) hp_)
          · assumption

theorem rel_helloSteps {ps_ : List Part} {z_ : State} {s : State} {h : EcpHdr} {major : Nat} {minor : Nat} {encapKey : List Byte} {hostKey : List Byte} {sig : List Byte} (h0_ : Rel ps_ z_ s) (hp_ : Sub [.free, .tx, .regs, .counts, .swl, .quay, .eth] ps_) :
    Rel ps_ z_ (helloSteps s h major minor encapKey hostKey sig) := by
  unfold helloSteps
  extract_lets -merge -underBinder x2_0 x2_1
  clear_value x2_0 x2_1
  refine iteP (P := Rel ps_ z_) ?_ ?_
  · refine rel_unauthStatus ?_ (Sub.trans (by decide) hp_)
    · refine rel_wrOr ?_ (Sub.trans (by decide) hp_)
      · assumption
  · refine iteP (P := Rel ps_ z_) ?_ ?_
    · refine rel_discardPacket ?_ (Sub.trans (by decide) hp_)
      · assumption
    · refine iteP (P := Rel ps_ z_) ?_ ?_
      · refine rel_unauthStatus ?_ (Sub.trans (by decide) hp_)
        · assumption
      · refine iteP (P := Rel ps_ z_) ?_ ?_
        · refine rel_unauthBusy ?_ (Sub.trans (by decide) hp_)
          · assumption
        · refine iteP (P := Rel ps_ z_) ?_ ?_
          · refine rel_unauthStatus ?_ (Sub.trans (by decide) hp_)
            · assumption
          · split
            · refine iteP (P := Rel ps_ z_) ?_ ?_
              · refine rel_unauthStatus ?_ (Sub.trans (by decide) hp_)
                · assumption
              · refine rel_helloCheck ?_ (Sub.trans (by decide) hp_)
                · assumption
            · refine rel_helloCheck ?_ (Sub.trans (by decide) hp_)
              · assumption

theorem rel_staleAll {ps_ : List Part} {z_ : State} {s : State} {b : Nat} (h0_ : Rel ps_ z_ s) (hp_ : Sub [.tx, .counts, .quay] ps_) :
    Rel ps_ z_ (staleAll s b) := by
  unfold staleAll
  refine foldSP ?_ ?_ _
  · assumption
  · intro a4_0 a4_1 h4_0
    refine rel_finish ?_ (Sub.trans (by decide) hp_)
    · assumption

theorem rel_closeBerth {ps_ : List Part} {z_ : State} {s : State} {b : Nat} {keepAdmission : Bool} (h0_ : Rel ps_ z_ s) (hp_ : Sub [.tx, .counts, .shelf, .num, .snd, .slv, .upd, .mem, .bytes, .clf, .lsh, .shg, .swl, .ofs, .quay] ps_) :
    Rel ps_ z_ (closeBerth s b keepAdmission) := by
  unfold closeBerth
  extract_lets -merge -underBinder x2_0 x2_1 x2_2 x2_3 x2_4
  have hx2_0 : Rel ps_ z_ x2_0 := by
    unfold x2_0
    refine rel_dropKeys ?_ (Sub.trans (by decide) hp_)
    · refine rel_staleAll ?_ (Sub.trans (by decide) hp_)
      · assumption
  clear_value x2_0 x2_1
  have hx2_2 : Rel ps_ z_ x2_2 := by
    unfold x2_2
    refine rel_modBerth ?_ (Sub.trans (by decide) hp_)
    · assumption
  clear_value x2_2
  have hx2_3 : Rel ps_ z_ x2_3 := by
    unfold x2_3
    split
    · extract_lets -merge -underBinder x6_0
      clear_value x6_0
      refine iteP (P := Rel ps_ z_) ?_ ?_
      · refine rel_clf ?_ (hp_ _ (by decide))
        assumption
      · assumption
    · assumption
  clear_value x2_3 x2_4
  refine iteP (P := Rel ps_ z_) ?_ ?_
  · refine iteP (P := Rel ps_ z_) ?_ ?_
    · assumption
    · refine rel_modBerth ?_ (Sub.trans (by decide) hp_)
      · assumption
  · refine iteP (P := Rel ps_ z_) ?_ ?_
    · refine rel_shelf ?_ (hp_ _ (by decide))
      assumption
    · refine rel_clearJob ?_ (Sub.trans (by decide) hp_)
      · assumption

theorem rel_devInfo {ps_ : List Part} {z_ : State} {s : State} {h : EcpHdr} (h0_ : Rel ps_ z_ s) (hp_ : Sub [.tx, .regs, .counts, .quay] ps_) :
    Rel ps_ z_ (devInfo s h) := by
  unfold devInfo
  refine iteP (P := Rel ps_ z_) ?_ ?_
  · refine rel_unauthStatus ?_ (Sub.trans (by decide) hp_)
    · refine rel_wrOr ?_ (Sub.trans (by decide) hp_)
      · assumption
  · refine iteP (P := Rel ps_ z_) ?_ ?_
    · refine rel_discardPacket ?_ (Sub.trans (by decide) hp_)
      · assumption
    · refine iteP (P := Rel ps_ z_) ?_ ?_
      · refine rel_unauthStatus ?_ (Sub.trans (by decide) hp_)
        · assumption
      · refine iteP (P := Rel ps_ z_) ?_ ?_
        · refine rel_unauthBusy ?_ (Sub.trans (by decide) hp_)
          · assumption
        · refine iteP (P := Rel ps_ z_) ?_ ?_
          · refine rel_unauthStatus ?_ (Sub.trans (by decide) hp_)
            · assumption
          · refine rel_unauthStatus ?_ (Sub.trans (by decide) hp_)
            · assumption

theorem rel_tellLost {ps_ : List Part} {z_ : State} {s : State} {b : Nat} (h0_ : Rel ps_ z_ s) (hp_ : Sub [.tx, .regs, .counts, .quay] ps_) :
    Rel ps_ z_ (tellLost s b) := by
  unfold tellLost
  extract_lets -merge -underBinder x2_0
  clear_value x2_0
  refine iteP (P := Rel ps_ z_) ?_ ?_
  · refine rel_event ?_ (Sub.trans (by decide) hp_)
    · refine rel_modBerth ?_ (Sub.trans (by decide) hp_)
      · assumption
  · assumption

theorem rel_execEventAck {ps_ : List Part} {z_ : State} {h : EcpHdr} {upTo : W32} {s : State} (h2_ : Rel ps_ z_ s) (hp_ : Sub [.free, .tx, .regs, .counts, .swl, .quay] ps_) :
    Ends ps_ z_ (execEventAck h upTo s) := by
  unfold execEventAck
  refine ofNext ?_
  refine rel_ecpRun ?_ ?_ (Sub.trans (by decide) hp_)
  · assumption
  · intro a4_0 h4_0
    extract_lets -merge -underBinder x4_0
    have hx4_0 : Rel ps_ z_ x4_0 := by
      unfold x4_0
      refine rel_modBerth ?_ (Sub.trans (by decide) hp_)
      · assumption
    clear_value x4_0
    refine ofPair ?_
    refine rel_tellLost ?_ (Sub.trans (by decide) hp_)
    · assumption

theorem rel_execRekey {ps_ : List Part} {z_ : State} {h : EcpHdr} {encapKey : List Byte} {s : State} (h2_ : Rel ps_ z_ s) (hp_ : Sub [.free, .tx, .regs, .counts, .swl, .quay] ps_) :
    Ends ps_ z_ (execRekey h encapKey s) := by
  unfold execRekey
  refine ofNext ?_
  refine rel_ecpRun ?_ ?_ (Sub.trans (by decide) hp_)
  · assumption
  · intro a4_0 h4_0
    extract_lets -merge -underBinder x4_0 x4_1 x4_2 x4_3 x4_4 x4_5 x4_6 x4_7 x4_8
    clear_value x4_0 x4_1 x4_2 x4_3 x4_4 x4_5 x4_6
    have hx4_7 : Rel1 ps_ z_ x4_7 := by
      unfold x4_7
      refine rel_loadBerthKey ?_ (Sub.trans (by decide) hp_)
      · refine rel_useFree ?_ (hp_ _ (by decide))
        · assumption
    clear_value x4_7
    have hx4_8 : Rel ps_ z_ x4_8 := by
      unfold x4_8
      refine rel_modBerth ?_ (Sub.trans (by decide) hp_)
      · refine (?_ : Rel1 ps_ z_ _)
        assumption
    clear_value x4_8
    refine iteP (P := Rel1 ps_ z_) ?_ ?_
    · refine ofPair ?_
      assumption
    · refine ofPair ?_
      assumption

theorem rel_execHello {ps_ : List Part} {z_ : State} {h : EcpHdr} {major : Nat} {minor : Nat} {encapKey : List Byte} {hostKey : List Byte} {sig : List Byte} {s : State} (h6_ : Rel ps_ z_ s) (hp_ : Sub [.free, .tx, .regs, .counts, .swl, .quay, .eth] ps_) :
    Ends ps_ z_ (execHello h major minor encapKey hostKey sig s) := by
  unfold execHello
  refine ofNext ?_
  refine iteP (P := Rel ps_ z_) ?_ ?_
  · assumption
  · refine rel_helloSteps ?_ (Sub.trans (by decide) hp_)
    · refine rel_frameIn ?_ (Sub.trans (by decide) hp_)
      · assumption

theorem rel_execDevInfo {ps_ : List Part} {z_ : State} {h : EcpHdr} {s : State} (h1_ : Rel ps_ z_ s) (hp_ : Sub [.free, .tx, .regs, .counts, .quay] ps_) :
    Ends ps_ z_ (execDevInfo h s) := by
  unfold execDevInfo
  refine ofNext ?_
  refine iteP (P := Rel ps_ z_) ?_ ?_
  · assumption
  · refine rel_devInfo ?_ (Sub.trans (by decide) hp_)
    · refine rel_frameIn ?_ (Sub.trans (by decide) hp_)
      · assumption

theorem rel_detach {ps_ : List Part} {z_ : State} {s : State} {b : Nat} (h0_ : Rel ps_ z_ s) (hp_ : Sub [.swl, .quay] ps_) :
    Rel ps_ z_ (detach s b) := by
  unfold detach
  refine rel_modBerth ?_ (Sub.trans (by decide) hp_)
  · refine rel_dropKeys ?_ (Sub.trans (by decide) hp_)
    · assumption

theorem rel_execLeaseExpiry {ps_ : List Part} {z_ : State} {berth : Nat} {s : State} (h1_ : Rel ps_ z_ s) (hp_ : Sub [.regs, .swl, .quay] ps_) :
    Ends ps_ z_ (execLeaseExpiry berth s) := by
  unfold execLeaseExpiry
  extract_lets -merge -underBinder x2_0
  clear_value x2_0
  refine ofNext ?_
  refine iteP (P := Rel ps_ z_) ?_ ?_
  · refine rel_detach ?_ (Sub.trans (by decide) hp_)
    · refine rel_wrOr ?_ (Sub.trans (by decide) hp_)
      · assumption
  · assumption

theorem rel_execPing {ps_ : List Part} {z_ : State} {h : EcpHdr} {s : State} (h1_ : Rel ps_ z_ s) (hp_ : Sub [.free, .tx, .regs, .counts, .swl, .quay] ps_) :
    Ends ps_ z_ (execPing h s) := by
  unfold execPing
  refine ofNext ?_
  refine rel_ecpRun ?_ ?_ (Sub.trans (by decide) hp_)
  · assumption
  · intro a4_0 h4_0
    refine ofPair ?_
    assumption

theorem rel_execBerthClose {ps_ : List Part} {z_ : State} {h : EcpHdr} {s : State} (h1_ : Rel ps_ z_ s) (hp_ : Sub [.free, .tx, .regs, .counts, .shelf, .num, .snd, .slv, .upd, .mem, .bytes, .clf, .lsh, .shg, .swl, .ofs, .quay] ps_) :
    Ends ps_ z_ (execBerthClose h s) := by
  unfold execBerthClose
  extract_lets -merge -underBinder x2_0 x2_1
  have hx2_0 : Rel ps_ z_ x2_0 := by
    unfold x2_0
    refine rel_ecpRun ?_ ?_ (Sub.trans (by decide) hp_)
    · assumption
    · intro a6_0 h6_0
      refine ofPair ?_
      refine rel_modBerth ?_ (Sub.trans (by decide) hp_)
      · assumption
  clear_value x2_0 x2_1
  refine ofNext ?_
  refine iteP (P := Rel ps_ z_) ?_ ?_
  · refine rel_closeBerth ?_ (Sub.trans (by decide) hp_)
    · assumption
  · assumption

/-! ### MemCmds -/

theorem rel_execDecode {ps_ : List Part} {z_ : State} {h : EcpHdr} {source : BitVec 48} {destination : BitVec 48} {s : State} (h3_ : Rel ps_ z_ s) (hp_ : Sub [.free, .tx, .regs, .counts, .mem, .shg, .swl, .quay] ps_) :
    Ends ps_ z_ (execDecode h source destination s) := by
  unfold execDecode
  refine ofNext ?_
  refine rel_ecpRun ?_ ?_ (Sub.trans (by decide) hp_)
  · assumption
  · intro a4_0 h4_0
    refine rel_decodeStart ?_ (Sub.trans (by decide) hp_)
    · assumption

theorem rel_failAllocs {ps_ : List Part} {z_ : State} {s : State} {b : Nat} {t1 : Nat} {t2 : Nat} {t3 : Nat} (h0_ : Rel ps_ z_ s) (hp_ : Sub [.tx, .counts, .mem, .quay] ps_) :
    Rel ps_ z_ (failAllocs s b t1 t2 t3) := by
  unfold failAllocs
  extract_lets -merge -underBinder x2_0 x2_1 x2_2
  clear_value x2_0 x2_1
  have hx2_2 : Rel ps_ z_ x2_2 := by
    unfold x2_2
    refine rel_modMem ?_ (hp_ _ (by decide)) rfl
    assumption
  clear_value x2_2
  refine foldSP ?_ ?_ _
  · assumption
  · intro a4_0 a4_1 h4_0
    refine rel_finish ?_ (Sub.trans (by decide) hp_)
    · assumption

theorem rel_execMemConfig {ps_ : List Part} {z_ : State} {h : EcpHdr} {t1 : Nat} {t2 : Nat} {t3 : Nat} {spill : Nat} {stageBalance : Nat} {s : State} (h6_ : Rel ps_ z_ s) (hp_ : Sub [.free, .tx, .regs, .counts, .mem, .swl, .quay] ps_) :
    Ends ps_ z_ (execMemConfig h t1 t2 t3 spill stageBalance s) := by
  unfold execMemConfig
  refine ofNext ?_
  refine rel_ecpRun ?_ ?_ (Sub.trans (by decide) hp_)
  · assumption
  · intro a4_0 h4_0
    extract_lets -merge -underBinder x4_0 x4_1 x4_2 x4_3
    clear_value x4_0
    have hx4_1 : Rel ps_ z_ x4_1 := by
      unfold x4_1
      refine rel_failAllocs ?_ (Sub.trans (by decide) hp_)
      · assumption
    clear_value x4_1
    have hx4_2 : Rel ps_ z_ x4_2 := by
      unfold x4_2
      refine rel_wrs ?_ (Sub.trans (by decide) hp_)
      · assumption
    clear_value x4_2
    have hx4_3 : Rel ps_ z_ x4_3 := by
      unfold x4_3
      refine iteP (P := Rel ps_ z_) ?_ ?_
      · refine rel_wr ?_ (Sub.trans (by decide) hp_)
        · assumption
      · assumption
    clear_value x4_3
    refine iteP (P := Rel1 ps_ z_) ?_ ?_
    · refine ofPair ?_
      assumption
    · refine iteP (P := Rel1 ps_ z_) ?_ ?_
      · refine ofPair ?_
        assumption
      · refine ofPair ?_
        refine rel_tryAllocs ?_ (Sub.trans (by decide) hp_)
        · refine rel_modMem ?_ (hp_ _ (by decide)) rfl
          assumption

theorem rel_execFree {ps_ : List Part} {z_ : State} {h : EcpHdr} {handle : BitVec 48} {s : State} (h2_ : Rel ps_ z_ s) (hp_ : Sub [.free, .tx, .regs, .counts, .mem, .swl, .quay] ps_) :
    Ends ps_ z_ (execFree h handle s) := by
  unfold execFree
  refine ofNext ?_
  refine rel_ecpRun ?_ ?_ (Sub.trans (by decide) hp_)
  · assumption
  · intro a4_0 h4_0
    split
    · refine ofPair ?_
      assumption
    · refine iteP (P := Rel1 ps_ z_) ?_ ?_
      · refine ofPair ?_
        assumption
      · refine iteP (P := Rel1 ps_ z_) ?_ ?_
        · refine ofPair ?_
          assumption
        · refine ofPair ?_
          refine rel_modObj ?_ (Sub.trans (by decide) hp_)
          · assumption

theorem rel_execObjectRelease {ps_ : List Part} {z_ : State} {berth : Nat} {object : Nat} {s : State} (h2_ : Rel ps_ z_ s) (hp_ : Sub [.tx, .counts, .mem, .bytes, .quay] ps_) :
    Ends ps_ z_ (execObjectRelease berth object s) := by
  unfold execObjectRelease
  refine ofNext ?_
  split
  · assumption
  · refine iteP (P := Rel ps_ z_) ?_ ?_
    · refine rel_tryAllocs ?_ (Sub.trans (by decide) hp_)
      · refine rel_releaseObject ?_ (Sub.trans (by decide) hp_)
        · assumption
    · assumption

theorem rel_execRead {ps_ : List Part} {z_ : State} {h : EcpHdr} {handle : BitVec 48} {offset : W64} {length : Nat} {_pace : Nat} {s : State} (h5_ : Rel ps_ z_ s) (hp_ : Sub [.free, .tx, .regs, .counts, .mem, .swl, .quay, .rst] ps_) :
    Ends ps_ z_ (execRead h handle offset length _pace s) := by
  unfold execRead
  refine ofNext ?_
  refine rel_ecpRun ?_ ?_ (Sub.trans (by decide) hp_)
  · assumption
  · intro a4_0 h4_0
    extract_lets -merge -underBinder x4_0 x4_1
    clear_value x4_0 x4_1
    refine iteP (P := Rel1 ps_ z_) ?_ ?_
    · refine ofPair ?_
      assumption
    · refine iteP (P := Rel1 ps_ z_) ?_ ?_
      · refine ofPair ?_
        refine rel_noteRead ?_ (Sub.trans (by decide) hp_)
        · assumption
      · refine ofPair ?_
        refine rel_emitAll ?_ (Sub.trans (by decide) hp_)
        · refine rel_touch ?_ (Sub.trans (by decide) hp_)
          · assumption

theorem rel_execCode {ps_ : List Part} {z_ : State} {h : EcpHdr} {source : BitVec 48} {destination : BitVec 48} {fmt : Nat} {s : State} (h4_ : Rel ps_ z_ s) (hp_ : Sub [.free, .tx, .regs, .counts, .mem, .shg, .swl, .quay] ps_) :
    Ends ps_ z_ (execCode h source destination fmt s) := by
  unfold execCode
  refine ofNext ?_
  refine rel_ecpRun ?_ ?_ (Sub.trans (by decide) hp_)
  · assumption
  · intro a4_0 h4_0
    refine rel_codeStart ?_ (Sub.trans (by decide) hp_)
    · assumption

theorem rel_execSignal {ps_ : List Part} {z_ : State} {h : EcpHdr} {slot : Nat} {count : Nat} {s : State} (h3_ : Rel ps_ z_ s) (hp_ : Sub [.free, .tx, .regs, .counts, .shelf, .swl, .quay] ps_) :
    Ends ps_ z_ (execSignal h slot count s) := by
  unfold execSignal
  refine ofNext ?_
  refine rel_ecpRun ?_ ?_ (Sub.trans (by decide) hp_)
  · assumption
  · intro a4_0 h4_0
    refine iteP (P := Rel1 ps_ z_) ?_ ?_
    · refine ofPair ?_
      assumption
    · refine ofPair ?_
      refine rel_bumpSlot ?_ (Sub.trans (by decide) hp_)
      · assumption

theorem rel_execWrite {ps_ : List Part} {z_ : State} {h : EcpHdr} {handle : BitVec 48} {signal : W16} {offset : W64} {data : List Byte} {s : State} (h5_ : Rel ps_ z_ s) (hp_ : Sub [.free, .tx, .regs, .counts, .shelf, .mem, .bytes, .swl, .quay, .rst] ps_) :
    Ends ps_ z_ (execWrite h handle signal offset data s) := by
  unfold execWrite
  refine ofNext ?_
  refine rel_ecpRun ?_ ?_ (Sub.trans (by decide) hp_)
  · assumption
  · intro a4_0 h4_0
    extract_lets -merge -underBinder x4_0 x4_1 x4_2 x4_3 x4_4
    clear_value x4_0 x4_1
    have hx4_2 : Rel1 ps_ z_ x4_2 := by
      unfold x4_2
      refine rel_writeH ?_ (Sub.trans (by decide) hp_)
      · refine rel_touch ?_ (Sub.trans (by decide) hp_)
        · assumption
    clear_value x4_2 x4_3
    have hx4_4 : Rel ps_ z_ x4_4 := by
      unfold x4_4
      refine rel_modObj ?_ (Sub.trans (by decide) hp_)
      · refine (?_ : Rel1 ps_ z_ _)
        assumption
    clear_value x4_4
    refine iteP (P := Rel1 ps_ z_) ?_ ?_
    · refine ofPair ?_
      assumption
    · refine iteP (P := Rel1 ps_ z_) ?_ ?_
      · refine ofPair ?_
        refine rel_noteUe ?_ (Sub.trans (by decide) hp_)
        · assumption
      · refine ofPair ?_
        refine iteP (P := Rel ps_ z_) ?_ ?_
        · refine rel_bumpSlot ?_ (Sub.trans (by decide) hp_)
          · assumption
        · assumption

theorem rel_execAlloc {ps_ : List Part} {z_ : State} {h : EcpHdr} {size : W64} {tier : Nat} {policy : Nat} {s : State} (h4_ : Rel ps_ z_ s) (hp_ : Sub [.free, .tx, .regs, .counts, .mem, .swl, .quay] ps_) :
    Ends ps_ z_ (execAlloc h size tier policy s) := by
  unfold execAlloc
  refine ofNext ?_
  refine rel_ecpRun ?_ ?_ (Sub.trans (by decide) hp_)
  · assumption
  · intro a4_0 h4_0
    split
    · exact h4_0
    · rename_i heq
      exact rel_allocCheck h4_0 (Sub.trans (by decide) hp_) heq
    · exact h4_0
    · refine ofPair ?_
      refine rel_modMem ?_ (hp_ _ (by decide)) rfl
      assumption

/-! ### Stream -/

theorem rel_postAll {ps_ : List Part} {z_ : State} {b : Nat} {channel : Nat} {y2 : List (List Byte)} {y3 : State} (h3_ : Rel ps_ z_ y3) (hp_ : Sub [.lsh] ps_) :
    RelO ps_ z_ (postAll b channel y2 y3) := by
  induction y2 generalizing y3 with
  | nil => exact ofSome h3_
  | cons d l ih =>
    unfold postAll
    refine iteP (P := RelO ps_ z_) ofNone (iteP (P := RelO ps_ z_) (ih ?_) (ih ?_))
    · exact rel_modLsh h3_ (Sub.trans (by decide) hp_)
    · exact rel_modChan h3_ (Sub.trans (by decide) hp_)

theorem rel_placeDescs {ps_ : List Part} {z_ : State} {s : State} {b : Nat} {channel : Option Nat} {ds : List (List Byte)} (h0_ : Rel ps_ z_ s) (hp_ : Sub [.shelf, .mem, .lsh, .quay] ps_) :
    Rel1 ps_ z_ (placeDescs s b channel ds) := by
  unfold placeDescs
  extract_lets -merge -underBinder x2_0
  clear_value x2_0
  split
  · extract_lets -merge -underBinder x4_0
    have hx4_0 : Rel ps_ z_ x4_0 := by
      unfold x4_0
      refine rel_enterWindow ?_ (Sub.trans (by decide) hp_)
      · refine rel_modShelf ?_ (Sub.trans (by decide) hp_)
        · assumption
    clear_value x4_0
    refine iteP (P := Rel1 ps_ z_) ?_ ?_
    · refine ofPair ?_
      assumption
    · refine ofPair ?_
      refine rel_modBerth ?_ (Sub.trans (by decide) hp_)
      · assumption
  · extract_lets -merge -underBinder x4_0 x4_1
    clear_value x4_0 x4_1
    refine iteP (P := Rel1 ps_ z_) ?_ ?_
    · refine ofPair ?_
      assumption
    · refine iteP (P := Rel1 ps_ z_) ?_ ?_
      · refine ofPair ?_
        assumption
      · refine iteP (P := Rel1 ps_ z_) ?_ ?_
        · refine ofPair ?_
          assumption
        · split
          · rename_i q10_0
            try have hq10_0 := of_eqO (ps := ps_) (z := z_) q10_0 (by
                refine rel_postAll ?_ (Sub.trans (by decide) hp_)
                · assumption
                )
            refine ofPair ?_
            refine rel_modChan ?_ (Sub.trans (by decide) hp_)
            · assumption
          · rename_i q10_0
            try have hq10_0 := of_eqO (ps := ps_) (z := z_) q10_0 (by
                refine rel_postAll ?_ (Sub.trans (by decide) hp_)
                · assumption
                )
            refine ofPair ?_
            assumption

theorem rel_tryPlace {ps_ : List Part} {z_ : State} {s : State} {b : Nat} {channel : Option Nat} {index : W32} {ds : List (List Byte)} (h0_ : Rel ps_ z_ s) (hp_ : Sub [.shelf, .mem, .lsh, .quay] ps_) :
    RelP ps_ z_ (tryPlace s b channel index ds) := by
  unfold tryPlace
  extract_lets -merge -underBinder x2_0 x2_1
  clear_value x2_0 x2_1
  refine iteP (P := RelP ps_ z_) ?_ ?_
  · refine ofSomeP ?_
    refine (?_ : Rel1 ps_ z_ _)
    refine rel_placeDescs ?_ (Sub.trans (by decide) hp_)
    · assumption
  · refine iteP (P := RelP ps_ z_) ?_ ?_
    · exact ofNoneP
    · refine iteP (P := RelP ps_ z_) ?_ ?_
      · refine ofSomeP ?_
        refine (?_ : Rel1 ps_ z_ _)
        refine ofPair ?_
        assumption
      · refine ofSomeP ?_
        refine (?_ : Rel1 ps_ z_ _)
        refine ofPair ?_
        assumption

theorem rel_answerHeld {ps_ : List Part} {z_ : State} {s : State} {b : Nat} {x : HeldSub} {a : Ans} (h0_ : Rel ps_ z_ s) (hp_ : Sub [.tx, .regs, .counts, .quay] ps_) :
    Rel ps_ z_ (answerHeld s b x a) := by
  unfold answerHeld
  split
  · refine rel_finish ?_ (Sub.trans (by decide) hp_)
    · assumption
  · refine rel_finishBusy ?_ (Sub.trans (by decide) hp_)
    · assumption

theorem rel_releaseHeld {ps_ : List Part} {z_ : State} {y0 : Nat} {y1 : State} {y2 : Nat} (h1_ : Rel ps_ z_ y1) (hp_ : Sub [.tx, .regs, .counts, .shelf, .mem, .lsh, .quay] ps_) :
    Rel ps_ z_ (releaseHeld y0 y1 y2) := by
  induction y0 generalizing y1 with
  | zero => exact h1_
  | succ k ih =>
    unfold releaseHeld
    split
    · exact h1_
    · rename_i x hx
      extract_lets -merge -underBinder x0
      have h0 : Rel ps_ z_ x0 := rel_modBerth h1_ (Sub.trans (by decide) hp_)
      clear_value x0
      split
      · rename_i r hr
        exact ih (rel_answerHeld (of_eqP hr (rel_tryPlace h0 (Sub.trans (by decide) hp_))) (Sub.trans (by decide) hp_))
      · exact h0

theorem rel_submission {ps_ : List Part} {z_ : State} {s : State} {h : EcpHdr} {channel : Option Nat} {index : W32} {ds : List (List Byte)} (h0_ : Rel ps_ z_ s) (hp_ : Sub [.tx, .regs, .counts, .shelf, .mem, .lsh, .quay] ps_) :
    Rel1 ps_ z_ (submission s h channel index ds) := by
  unfold submission
  extract_lets -merge -underBinder x2_0
  clear_value x2_0
  split
  · rename_i q2_0
    try have hq2_0 := of_eqP (ps := ps_) (z := z_) q2_0 (by
        refine rel_tryPlace ?_ (Sub.trans (by decide) hp_)
        · assumption
        )
    refine ofPair ?_
    refine rel_releaseHeld ?_ (Sub.trans (by decide) hp_)
    · refine (?_ : Rel1 ps_ z_ _)
      assumption
  · rename_i q2_0
    try have hq2_0 := of_eqP (ps := ps_) (z := z_) q2_0 (by
        refine rel_tryPlace ?_ (Sub.trans (by decide) hp_)
        · assumption
        )
    refine iteP (P := Rel1 ps_ z_) ?_ ?_
    · refine ofPair ?_
      assumption
    · refine ofPair ?_
      refine rel_modBerth ?_ (Sub.trans (by decide) hp_)
      · assumption

theorem rel_execPostColl {ps_ : List Part} {z_ : State} {h : EcpHdr} {channel : Nat} {index : W32} {descs : List (List Byte)} {s : State} (h4_ : Rel ps_ z_ s) (hp_ : Sub [.free, .tx, .regs, .counts, .shelf, .mem, .lsh, .swl, .quay] ps_) :
    Ends ps_ z_ (execPostColl h channel index descs s) := by
  unfold execPostColl
  refine ofNext ?_
  refine rel_ecpRun ?_ ?_ (Sub.trans (by decide) hp_)
  · assumption
  · intro a4_0 h4_0
    refine iteP (P := Rel1 ps_ z_) ?_ ?_
    · refine ofPair ?_
      assumption
    · refine rel_submission ?_ (Sub.trans (by decide) hp_)
      · assumption

theorem rel_dropHeld {ps_ : List Part} {z_ : State} {s : State} {b : Nat} {mask : W16} (h0_ : Rel ps_ z_ s) (hp_ : Sub [.quay] ps_) :
    Rel ps_ z_ (dropHeld s b mask) := by
  unfold dropHeld
  extract_lets -merge -underBinder x2_0
  clear_value x2_0
  refine rel_modBerth ?_ (Sub.trans (by decide) hp_)
  · assumption

theorem rel_execCensusRead {ps_ : List Part} {z_ : State} {h : EcpHdr} {layer : Nat} {count : Nat} {s : State} (h3_ : Rel ps_ z_ s) (hp_ : Sub [.free, .tx, .regs, .counts, .swl, .quay] ps_) :
    Ends ps_ z_ (execCensusRead h layer count s) := by
  unfold execCensusRead
  refine ofNext ?_
  refine rel_ecpRun ?_ ?_ (Sub.trans (by decide) hp_)
  · assumption
  · intro a4_0 h4_0
    extract_lets -merge -underBinder x4_0
    clear_value x4_0
    refine iteP (P := Rel1 ps_ z_) ?_ ?_
    · refine ofPair ?_
      assumption
    · refine ofPair ?_
      assumption

theorem rel_liftHalt {ps_ : List Part} {z_ : State} {s : State} {b : Nat} {drop : Bool} (h0_ : Rel ps_ z_ s) (hp_ : Sub [.shelf, .mem] ps_) :
    Rel ps_ z_ (liftHalt s b drop) := by
  unfold liftHalt
  extract_lets -merge -underBinder x2_0 x2_1
  clear_value x2_0
  have hx2_1 : Rel ps_ z_ x2_1 := by
    unfold x2_1
    refine iteP (P := Rel ps_ z_) ?_ ?_
    · refine rel_leaveWindow ?_ (Sub.trans (by decide) hp_)
      · assumption
    · assumption
  clear_value x2_1
  refine rel_modShelf ?_ (Sub.trans (by decide) hp_)
  · assumption

theorem rel_execSubmitHoldTimeout {ps_ : List Part} {z_ : State} {berth : Nat} {seq : W32} {s : State} (h2_ : Rel ps_ z_ s) (hp_ : Sub [.tx, .regs, .counts, .quay] ps_) :
    Ends ps_ z_ (execSubmitHoldTimeout berth seq s) := by
  unfold execSubmitHoldTimeout
  refine ofNext ?_
  split
  · refine iteP (P := Rel ps_ z_) ?_ ?_
    · refine rel_finishBusy ?_ (Sub.trans (by decide) hp_)
      · refine rel_modBerth ?_ (Sub.trans (by decide) hp_)
        · assumption
    · assumption
  · assumption

theorem rel_flushChannel {ps_ : List Part} {z_ : State} {b : Nat} {s : State} {c : Nat} (h1_ : Rel ps_ z_ s) (hp_ : Sub [.lsh] ps_) :
    Rel ps_ z_ (flushChannel b s c) := by
  unfold flushChannel
  extract_lets -merge -underBinder x2_0
  have hx2_0 : Rel ps_ z_ x2_0 := by
    unfold x2_0
    refine rel_modChan ?_ (Sub.trans (by decide) hp_)
    · assumption
  clear_value x2_0
  refine rel_modLsh ?_ (Sub.trans (by decide) hp_)
  · assumption

theorem rel_execSubmit {ps_ : List Part} {z_ : State} {h : EcpHdr} {index : W32} {descs : List (List Byte)} {s : State} (h3_ : Rel ps_ z_ s) (hp_ : Sub [.free, .tx, .regs, .counts, .shelf, .mem, .lsh, .swl, .quay] ps_) :
    Ends ps_ z_ (execSubmit h index descs s) := by
  unfold execSubmit
  refine ofNext ?_
  refine rel_ecpRun ?_ ?_ (Sub.trans (by decide) hp_)
  · assumption
  · intro a4_0 h4_0
    refine iteP (P := Rel1 ps_ z_) ?_ ?_
    · refine ofPair ?_
      assumption
    · refine rel_submission ?_ (Sub.trans (by decide) hp_)
      · assumption

theorem rel_execStreamResume {ps_ : List Part} {z_ : State} {h : EcpHdr} {mode : Nat} {s : State} (h2_ : Rel ps_ z_ s) (hp_ : Sub [.free, .tx, .regs, .counts, .shelf, .mem, .clf, .lsh, .swl, .quay] ps_) :
    Ends ps_ z_ (execStreamResume h mode s) := by
  unfold execStreamResume
  refine ofNext ?_
  refine rel_ecpRun ?_ ?_ (Sub.trans (by decide) hp_)
  · assumption
  · intro a4_0 h4_0
    extract_lets -merge -underBinder x4_0 x4_1 x4_2 x4_3
    clear_value x4_0 x4_1
    have hx4_2 : Rel ps_ z_ x4_2 := by
      unfold x4_2
      refine rel_liftHalt ?_ (Sub.trans (by decide) hp_)
      · assumption
    clear_value x4_2
    have hx4_3 : Rel ps_ z_ x4_3 := by
      unfold x4_3
      refine rel_modShelf ?_ (Sub.trans (by decide) hp_)
      · assumption
    clear_value x4_3
    refine iteP (P := Rel1 ps_ z_) ?_ ?_
    · refine ofPair ?_
      assumption
    · refine ofPair ?_
      refine iteP (P := Rel ps_ z_) ?_ ?_
      · refine rel_startWave ?_ (Sub.trans (by decide) hp_)
        · assumption
      · assumption

theorem rel_execRecomputeReg {ps_ : List Part} {z_ : State} {h : EcpHdr} {handle : BitVec 48} {descs : List (List Byte)} {s : State} (h3_ : Rel ps_ z_ s) (hp_ : Sub [.free, .tx, .regs, .counts, .mem, .swl, .quay] ps_) :
    Ends ps_ z_ (execRecomputeReg h handle descs s) := by
  unfold execRecomputeReg
  refine ofNext ?_
  refine rel_ecpRun ?_ ?_ (Sub.trans (by decide) hp_)
  · assumption
  · intro a4_0 h4_0
    extract_lets -merge -underBinder x4_0 x4_1
    clear_value x4_0 x4_1
    refine iteP (P := Rel1 ps_ z_) ?_ ?_
    · refine ofPair ?_
      assumption
    · refine iteP (P := Rel1 ps_ z_) ?_ ?_
      · refine ofPair ?_
        assumption
      · refine iteP (P := Rel1 ps_ z_) ?_ ?_
        · refine ofPair ?_
          assumption
        · refine ofPair ?_
          refine rel_modObj ?_ (Sub.trans (by decide) hp_)
          · assumption

theorem rel_execStreamFlush {ps_ : List Part} {z_ : State} {h : EcpHdr} {nextIndex : W32} {mask : W16} {s : State} (h3_ : Rel ps_ z_ s) (hp_ : Sub [.free, .tx, .regs, .counts, .shelf, .snd, .upd, .mem, .bytes, .clf, .lsh, .swl, .quay, .rst] ps_) :
    Ends ps_ z_ (execStreamFlush h nextIndex mask s) := by
  unfold execStreamFlush
  refine ofNext ?_
  refine rel_ecpRun ?_ ?_ (Sub.trans (by decide) hp_)
  · assumption
  · intro a4_0 h4_0
    extract_lets -merge -underBinder x4_0 x4_1 x4_2 x4_3 x4_4
    clear_value x4_0
    have hx4_1 : Rel ps_ z_ x4_1 := by
      unfold x4_1
      refine iteP (P := Rel ps_ z_) ?_ ?_
      · refine rel_skipRows ?_ (Sub.trans (by decide) hp_)
        · refine rel_modShelf ?_ (Sub.trans (by decide) hp_)
          · assumption
      · assumption
    clear_value x4_1
    have hx4_2 : Rel ps_ z_ x4_2 := by
      unfold x4_2
      refine rel_dropHeld ?_ (Sub.trans (by decide) hp_)
      · refine rel_clearWindow ?_ (Sub.trans (by decide) hp_)
        · refine rel_modShelf ?_ (Sub.trans (by decide) hp_)
          · assumption
    clear_value x4_2
    have hx4_3 : Rel ps_ z_ x4_3 := by
      unfold x4_3
      refine rel_ackAll ?_ (Sub.trans (by decide) hp_)
      · refine foldSP ?_ ?_ _
        · assumption
        · intro a10_0 a10_1 h10_0
          refine rel_flushChannel ?_ (Sub.trans (by decide) hp_)
          · assumption
    clear_value x4_3
    have hx4_4 : Rel ps_ z_ x4_4 := by
      unfold x4_4
      refine rel_modLsh ?_ (Sub.trans (by decide) hp_)
      · assumption
    clear_value x4_4
    refine iteP (P := Rel1 ps_ z_) ?_ ?_
    · refine ofPair ?_
      assumption
    · refine ofPair ?_
      refine rel_restDeficits ?_ (Sub.trans (by decide) hp_)
      · refine rel_liftHalt ?_ (Sub.trans (by decide) hp_)
        · refine rel_modBerth ?_ (Sub.trans (by decide) hp_)
          · assumption

theorem rel_execStreamMode {ps_ : List Part} {z_ : State} {h : EcpHdr} {mode : Nat} {pause : Nat} {s : State} (h3_ : Rel ps_ z_ s) (hp_ : Sub [.free, .tx, .regs, .counts, .upd, .swl, .quay] ps_) :
    Ends ps_ z_ (execStreamMode h mode pause s) := by
  unfold execStreamMode
  refine ofNext ?_
  refine rel_ecpRun ?_ ?_ (Sub.trans (by decide) hp_)
  · assumption
  · intro a4_0 h4_0
    extract_lets -merge -underBinder x4_0
    have hx4_0 : Rel ps_ z_ x4_0 := by
      unfold x4_0
      refine rel_wrs ?_ (Sub.trans (by decide) hp_)
      · assumption
    clear_value x4_0
    refine iteP (P := Rel1 ps_ z_) ?_ ?_
    · refine ofPair ?_
      assumption
    · refine ofPair ?_
      refine iteP (P := Rel ps_ z_) ?_ ?_
      · refine rel_modUpd ?_ (Sub.trans (by decide) hp_)
        · assumption
      · assumption

/-! ### Mapping -/

theorem rel_writeGroup {ps_ : List Part} {z_ : State} {s : State} {b : Nat} {entry : List Byte} {g : GrpD} {ws : List Nat} {diam : Nat} (h0_ : Rel ps_ z_ s) (hp_ : Sub [.lsh] ps_) :
    Rel1 ps_ z_ (writeGroup s b entry g ws diam) := by
  unfold writeGroup
  extract_lets -merge -underBinder x2_0 x2_1 x2_2
  clear_value x2_0 x2_1 x2_2
  refine ofPair ?_
  refine rel_modLsh ?_ (Sub.trans (by decide) hp_)
  · assumption

theorem rel_execGroupWrite {ps_ : List Part} {z_ : State} {h : EcpHdr} {entry : List Byte} {s : State} (h2_ : Rel ps_ z_ s) (hp_ : Sub [.free, .tx, .regs, .counts, .mem, .lsh, .swl, .quay, .rst] ps_) :
    Ends ps_ z_ (execGroupWrite h entry s) := by
  unfold execGroupWrite
  refine ofNext ?_
  refine rel_ecpRun ?_ ?_ (Sub.trans (by decide) hp_)
  · assumption
  · intro a4_0 h4_0
    extract_lets -merge -underBinder x4_0 x4_1 x4_2 x4_3
    clear_value x4_0 x4_1 x4_2 x4_3
    refine iteP (P := Rel1 ps_ z_) ?_ ?_
    · refine ofPair ?_
      refine rel_noteRead ?_ (Sub.trans (by decide) hp_)
      · assumption
    · refine iteP (P := Rel1 ps_ z_) ?_ ?_
      · refine ofPair ?_
        assumption
      · refine iteP (P := Rel1 ps_ z_) ?_ ?_
        · split
          · refine rel_writeGroup ?_ (Sub.trans (by decide) hp_)
            · assumption
          · refine ofPair ?_
            assumption
        · refine rel_writeGroup ?_ (Sub.trans (by decide) hp_)
          · assumption

theorem rel_execGroupRelease {ps_ : List Part} {z_ : State} {h : EcpHdr} {group : Nat} {s : State} (h2_ : Rel ps_ z_ s) (hp_ : Sub [.free, .tx, .regs, .counts, .lsh, .swl, .quay] ps_) :
    Ends ps_ z_ (execGroupRelease h group s) := by
  unfold execGroupRelease
  refine ofNext ?_
  refine rel_ecpRun ?_ ?_ (Sub.trans (by decide) hp_)
  · assumption
  · intro a4_0 h4_0
    extract_lets -merge -underBinder x4_0 x4_1
    clear_value x4_0 x4_1
    refine iteP (P := Rel1 ps_ z_) ?_ ?_
    · refine ofPair ?_
      assumption
    · refine iteP (P := Rel1 ps_ z_) ?_ ?_
      · refine ofPair ?_
        assumption
      · refine iteP (P := Rel1 ps_ z_) ?_ ?_
        · refine ofPair ?_
          assumption
        · refine ofPair ?_
          refine rel_modLsh ?_ (Sub.trans (by decide) hp_)
          · assumption

theorem rel_execTemplateClear {ps_ : List Part} {z_ : State} {h : EcpHdr} {layer : Nat} {s : State} (h2_ : Rel ps_ z_ s) (hp_ : Sub [.free, .tx, .regs, .counts, .lsh, .swl, .quay] ps_) :
    Ends ps_ z_ (execTemplateClear h layer s) := by
  unfold execTemplateClear
  refine ofNext ?_
  refine rel_ecpRun ?_ ?_ (Sub.trans (by decide) hp_)
  · assumption
  · intro a4_0 h4_0
    refine ofPair ?_
    refine rel_modLsh ?_ (Sub.trans (by decide) hp_)
    · assumption

theorem rel_execDiscover {ps_ : List Part} {z_ : State} {h : EcpHdr} {tag : Nat} {sx : Nat} {sy : Nat} {sz : Nat} {s : State} (h5_ : Rel ps_ z_ s) (hp_ : Sub [.free, .tx, .regs, .counts, .clf, .swl, .quay] ps_) :
    Ends ps_ z_ (execDiscover h tag sx sy sz s) := by
  unfold execDiscover
  refine ofNext ?_
  refine rel_ecpRun ?_ ?_ (Sub.trans (by decide) hp_)
  · assumption
  · intro a4_0 h4_0
    refine rel_startWalk ?_ (Sub.trans (by decide) hp_)
    · assumption

/-! ### Engines -/

theorem rel_execShardRelease {ps_ : List Part} {z_ : State} {h : EcpHdr} {shard : Nat} {s : State} (h2_ : Rel ps_ z_ s) (hp_ : Sub [.free, .tx, .regs, .counts, .upd, .swl, .quay] ps_) :
    Ends ps_ z_ (execShardRelease h shard s) := by
  unfold execShardRelease
  refine ofNext ?_
  refine rel_ecpRun ?_ ?_ (Sub.trans (by decide) hp_)
  · assumption
  · intro a4_0 h4_0
    refine iteP (P := Rel1 ps_ z_) ?_ ?_
    · refine ofPair ?_
      assumption
    · refine iteP (P := Rel1 ps_ z_) ?_ ?_
      · refine ofPair ?_
        assumption
      · refine ofPair ?_
        refine rel_modUpd ?_ (Sub.trans (by decide) hp_)
        · assumption

theorem rel_execProgLoad {ps_ : List Part} {z_ : State} {h : EcpHdr} {slot : Nat} {words : List W32} {s : State} (h3_ : Rel ps_ z_ s) (hp_ : Sub [.free, .tx, .regs, .counts, .upd, .swl, .quay] ps_) :
    Ends ps_ z_ (execProgLoad h slot words s) := by
  unfold execProgLoad
  refine ofNext ?_
  refine rel_ecpRun ?_ ?_ (Sub.trans (by decide) hp_)
  · assumption
  · intro a4_0 h4_0
    extract_lets -merge -underBinder x4_0 x4_1
    clear_value x4_0 x4_1
    refine iteP (P := Rel1 ps_ z_) ?_ ?_
    · refine ofPair ?_
      assumption
    · refine iteP (P := Rel1 ps_ z_) ?_ ?_
      · refine ofPair ?_
        assumption
      · refine iteP (P := Rel1 ps_ z_) ?_ ?_
        · refine ofPair ?_
          assumption
        · split
          · refine ofPair ?_
            refine rel_wrs ?_ (Sub.trans (by decide) hp_)
            · refine rel_wrOr ?_ (Sub.trans (by decide) hp_)
              · assumption
          · refine ofPair ?_
            refine rel_modUpd ?_ (Sub.trans (by decide) hp_)
            · assumption

theorem rel_initSlot {ps_ : List Part} {z_ : State} {s : State} {f : FsD} (h0_ : Rel ps_ z_ s) (hp_ : Sub [.free, .tx, .regs, .counts, .mem, .bytes, .quay, .rst] ps_) :
    Rel ps_ z_ (initSlot s f) := by
  unfold initSlot
  extract_lets -merge -underBinder x2_0
  have hx2_0 : ∀ a0, Rel ps_ z_ a0 → ∀ a1, ∀ a2, Rel ps_ z_ (x2_0 a0 a1 a2) := by
    intro a0_ h0_ a1_ a2_
    unfold x2_0
    refine (?_ : Rel1 ps_ z_ _)
    refine rel_writeBlk ?_ (Sub.trans (by decide) hp_)
    · assumption
  clear_value x2_0
  refine iteP (P := Rel ps_ z_) ?_ ?_
  · assumption
  · refine foldSP ?_ ?_ _
    · refine (?_ : Rel1 ps_ z_ _)
      refine rel_writeN ?_ (Sub.trans (by decide) hp_)
      · assumption
    · intro a6_0 a6_1 h6_0
      refine hx2_0 _ ?_ _ _
      refine hx2_0 _ ?_ _ _
      assumption

theorem rel_execSchedWrite {ps_ : List Part} {z_ : State} {h : EcpHdr} {channel : Nat} {desc : List Byte} {s : State} (h3_ : Rel ps_ z_ s) (hp_ : Sub [.free, .tx, .regs, .counts, .upd, .swl, .quay] ps_) :
    Ends ps_ z_ (execSchedWrite h channel desc s) := by
  unfold execSchedWrite
  refine ofNext ?_
  refine rel_ecpRun ?_ ?_ (Sub.trans (by decide) hp_)
  · assumption
  · intro a4_0 h4_0
    extract_lets -merge -underBinder x4_0 x4_1
    clear_value x4_0 x4_1
    refine iteP (P := Rel1 ps_ z_) ?_ ?_
    · refine ofPair ?_
      assumption
    · refine ofPair ?_
      refine rel_modUpd ?_ (Sub.trans (by decide) hp_)
      · assumption

theorem rel_execStateLoad {ps_ : List Part} {z_ : State} {h : EcpHdr} {shard : Nat} {step : W64} {handle : BitVec 48} {s : State} (h4_ : Rel ps_ z_ s) (hp_ : Sub [.free, .tx, .regs, .counts, .upd, .mem, .bytes, .swl, .quay, .rst] ps_) :
    Ends ps_ z_ (execStateLoad h shard step handle s) := by
  unfold execStateLoad
  refine ofNext ?_
  refine rel_ecpRun ?_ ?_ (Sub.trans (by decide) hp_)
  · assumption
  · intro a4_0 h4_0
    extract_lets -merge -underBinder x4_0
    clear_value x4_0
    split
    · refine ofPair ?_
      assumption
    · extract_lets -merge -underBinder x6_0 x6_1 x6_2
      clear_value x6_0 x6_1
      have hx6_2 : Rel1 ps_ z_ x6_2 := by
        unfold x6_2
        refine rel_writeH ?_ (Sub.trans (by decide) hp_)
        · assumption
      clear_value x6_2
      refine iteP (P := Rel1 ps_ z_) ?_ ?_
      · refine ofPair ?_
        assumption
      · refine iteP (P := Rel1 ps_ z_) ?_ ?_
        · refine ofPair ?_
          assumption
        · refine iteP (P := Rel1 ps_ z_) ?_ ?_
          · refine ofPair ?_
            refine rel_noteRead ?_ (Sub.trans (by decide) hp_)
            · assumption
          · refine iteP (P := Rel1 ps_ z_) ?_ ?_
            · refine ofPair ?_
              refine rel_noteUe ?_ (Sub.trans (by decide) hp_)
              · refine (?_ : Rel1 ps_ z_ _)
                assumption
            · refine ofPair ?_
              refine rel_modShard ?_ (Sub.trans (by decide) hp_)
              · refine (?_ : Rel1 ps_ z_ _)
                assumption

theorem rel_execSolverWs {ps_ : List Part} {z_ : State} {h : EcpHdr} {handle : BitVec 48} {s : State} (h2_ : Rel ps_ z_ s) (hp_ : Sub [.free, .tx, .regs, .counts, .slv, .swl, .quay] ps_) :
    Ends ps_ z_ (execSolverWs h handle s) := by
  unfold execSolverWs
  refine ofNext ?_
  refine rel_ecpRun ?_ ?_ (Sub.trans (by decide) hp_)
  · assumption
  · intro a4_0 h4_0
    refine iteP (P := Rel1 ps_ z_) ?_ ?_
    · refine ofPair ?_
      assumption
    · refine ofPair ?_
      refine rel_modSlv ?_ (Sub.trans (by decide) hp_)
      · assumption

theorem rel_execUpdWs {ps_ : List Part} {z_ : State} {h : EcpHdr} {handle : BitVec 48} {s : State} (h2_ : Rel ps_ z_ s) (hp_ : Sub [.free, .tx, .regs, .counts, .upd, .swl, .quay] ps_) :
    Ends ps_ z_ (execUpdWs h handle s) := by
  unfold execUpdWs
  refine ofNext ?_
  refine rel_ecpRun ?_ ?_ (Sub.trans (by decide) hp_)
  · assumption
  · intro a4_0 h4_0
    refine iteP (P := Rel1 ps_ z_) ?_ ?_
    · refine ofPair ?_
      assumption
    · refine ofPair ?_
      refine rel_modUpd ?_ (Sub.trans (by decide) hp_)
      · assumption

theorem rel_execFslotWrite {ps_ : List Part} {z_ : State} {h : EcpHdr} {slot : Nat} {desc : List Byte} {s : State} (h3_ : Rel ps_ z_ s) (hp_ : Sub [.free, .tx, .regs, .counts, .snd, .mem, .bytes, .swl, .quay, .rst] ps_) :
    Ends ps_ z_ (execFslotWrite h slot desc s) := by
  unfold execFslotWrite
  refine ofNext ?_
  refine rel_ecpRun ?_ ?_ (Sub.trans (by decide) hp_)
  · assumption
  · intro a4_0 h4_0
    extract_lets -merge -underBinder x4_0 x4_1
    clear_value x4_0
    have hx4_1 : Rel ps_ z_ x4_1 := by
      unfold x4_1
      refine iteP (P := Rel ps_ z_) ?_ ?_
      · refine rel_initSlot ?_ (Sub.trans (by decide) hp_)
        · assumption
      · assumption
    clear_value x4_1
    refine iteP (P := Rel1 ps_ z_) ?_ ?_
    · refine ofPair ?_
      assumption
    · refine ofPair ?_
      refine rel_modFs ?_ (Sub.trans (by decide) hp_)
      · assumption

theorem rel_execFslotAlloc {ps_ : List Part} {z_ : State} {h : EcpHdr} {s : State} (h1_ : Rel ps_ z_ s) (hp_ : Sub [.free, .tx, .regs, .counts, .snd, .swl, .quay] ps_) :
    Ends ps_ z_ (execFslotAlloc h s) := by
  unfold execFslotAlloc
  refine ofNext ?_
  refine rel_ecpRun ?_ ?_ (Sub.trans (by decide) hp_)
  · assumption
  · intro a4_0 h4_0
    split
    · refine ofPair ?_
      refine rel_modSnd ?_ (Sub.trans (by decide) hp_)
      · assumption
    · refine ofPair ?_
      assumption

theorem rel_execFslotRelease {ps_ : List Part} {z_ : State} {h : EcpHdr} {slot : Nat} {s : State} (h2_ : Rel ps_ z_ s) (hp_ : Sub [.free, .tx, .regs, .counts, .snd, .swl, .quay] ps_) :
    Ends ps_ z_ (execFslotRelease h slot s) := by
  unfold execFslotRelease
  refine ofNext ?_
  refine rel_ecpRun ?_ ?_ (Sub.trans (by decide) hp_)
  · assumption
  · intro a4_0 h4_0
    refine iteP (P := Rel1 ps_ z_) ?_ ?_
    · refine ofPair ?_
      assumption
    · refine iteP (P := Rel1 ps_ z_) ?_ ?_
      · refine ofPair ?_
        assumption
      · refine ofPair ?_
        refine rel_modSnd ?_ (Sub.trans (by decide) hp_)
        · assumption

theorem rel_execShardWrite {ps_ : List Part} {z_ : State} {h : EcpHdr} {shard : Nat} {desc : List Byte} {s : State} (h3_ : Rel ps_ z_ s) (hp_ : Sub [.free, .tx, .regs, .counts, .upd, .swl, .quay] ps_) :
    Ends ps_ z_ (execShardWrite h shard desc s) := by
  unfold execShardWrite
  refine ofNext ?_
  refine rel_ecpRun ?_ ?_ (Sub.trans (by decide) hp_)
  · assumption
  · intro a4_0 h4_0
    extract_lets -merge -underBinder x4_0 x4_1
    clear_value x4_0 x4_1
    refine iteP (P := Rel1 ps_ z_) ?_ ?_
    · refine ofPair ?_
      assumption
    · refine iteP (P := Rel1 ps_ z_) ?_ ?_
      · refine ofPair ?_
        refine rel_modUpd ?_ (Sub.trans (by decide) hp_)
        · assumption
      · refine iteP (P := Rel1 ps_ z_) ?_ ?_
        · refine ofPair ?_
          refine rel_modShard ?_ (Sub.trans (by decide) hp_)
          · assumption
        · refine ofPair ?_
          refine rel_modShard ?_ (Sub.trans (by decide) hp_)
          · assumption

theorem rel_execStepSet {ps_ : List Part} {z_ : State} {h : EcpHdr} {step : W64} {s : State} (h2_ : Rel ps_ z_ s) (hp_ : Sub [.free, .tx, .regs, .counts, .upd, .swl, .quay] ps_) :
    Ends ps_ z_ (execStepSet h step s) := by
  unfold execStepSet
  refine ofNext ?_
  refine rel_ecpRun ?_ ?_ (Sub.trans (by decide) hp_)
  · assumption
  · intro a4_0 h4_0
    refine iteP (P := Rel1 ps_ z_) ?_ ?_
    · refine ofPair ?_
      assumption
    · refine ofPair ?_
      refine rel_almEval ?_ (Sub.trans (by decide) hp_)
      · refine rel_modUpd ?_ (Sub.trans (by decide) hp_)
        · assumption

end Sys2Proof.Laws
end

