-- ==== Sys2Proof/Laws/RelOffshore.lean ====
section
/-!
SUPPORT. One lemma for each operation on Offshore and Ethernet: it keeps `Rel`, and the parts
listed are all that it can change.
-/
namespace Sys2Proof.Laws
open Sys2Proof Sys2Proof.Machine Sys2Proof.Safety

/-! ### OfsBase -/

theorem rel_ofsCount {ps_ : List Part} {z_ : State} {s : State} {b : Nat} {c : Nat} {n : Nat} (h0_ : Rel ps_ z_ s) (hp_ : Sub [.counts] ps_) :
    Rel ps_ z_ (ofsCount s b c n) := by
  unfold ofsCount
  refine rel_count ?_ (Sub.trans (by decide) hp_)
  · assumption

theorem rel_sendOfs {ps_ : List Part} {z_ : State} {s : State} {b : Nat} {peer : Nat} {retx : Bool} {p : OfsPkt} {ct : List Byte} (h0_ : Rel ps_ z_ s) (hp_ : Sub [.tx, .counts] ps_) :
    Rel ps_ z_ (sendOfs s b peer retx p ct) := by
  unfold sendOfs
  refine rel_ofsCount ?_ (Sub.trans (by decide) hp_)
  · refine rel_emit ?_ (Sub.trans (by decide) hp_)
    · assumption

theorem rel_sendInit {ps_ : List Part} {z_ : State} {s : State} {b : Nat} {p : Nat} {x : Session} {q : OfsPeer} {h : Handshake} (h0_ : Rel ps_ z_ s) (hp_ : Sub [.tx, .counts] ps_) :
    Rel ps_ z_ (sendInit s b p x q h) := by
  unfold sendInit
  extract_lets -merge -underBinder x2_0
  clear_value x2_0
  refine rel_sendOfs ?_ (Sub.trans (by decide) hp_)
  · assumption

theorem rel_modOfs {ps_ : List Part} {z_ : State} {s : State} {f : Offshore → Offshore} (h0_ : Rel ps_ z_ s) (hp_ : Sub [.ofs] ps_) :
    Rel ps_ z_ (modOfs s f) := by
  unfold modOfs
  refine rel_ofs ?_ (hp_ _ (by decide))
  assumption

theorem rel_modSess {ps_ : List Part} {z_ : State} {s : State} {b : Nat} {f : Session → Session} (h0_ : Rel ps_ z_ s) (hp_ : Sub [.ofs] ps_) :
    Rel ps_ z_ (modSess s b f) := by
  unfold modSess
  refine rel_modOfs ?_ (Sub.trans (by decide) hp_)
  · assumption

theorem rel_modPeer {ps_ : List Part} {z_ : State} {s : State} {b : Nat} {p : Nat} {f : OfsPeer → OfsPeer} (h0_ : Rel ps_ z_ s) (hp_ : Sub [.ofs] ps_) :
    Rel ps_ z_ (modPeer s b p f) := by
  unfold modPeer
  refine rel_modSess ?_ (Sub.trans (by decide) hp_)
  · assumption

theorem rel_beginHandshake {ps_ : List Part} {z_ : State} {s : State} {b : Nat} {p : Nat} {epoch : Nat} {reset : Bool} (h0_ : Rel ps_ z_ s) (hp_ : Sub [.free, .tx, .counts, .ofs] ps_) :
    Rel ps_ z_ (beginHandshake s b p epoch reset) := by
  unfold beginHandshake
  split
  · extract_lets -merge -underBinder x4_0 x4_1 x4_2 x4_3
    clear_value x4_0 x4_1 x4_2 x4_3
    refine rel_sendInit ?_ (Sub.trans (by decide) hp_)
    · refine rel_modPeer ?_ (Sub.trans (by decide) hp_)
      · refine rel_useFree ?_ (hp_ _ (by decide))
        · assumption
  · assumption

theorem rel_firstHandshake {ps_ : List Part} {z_ : State} {s : State} {b : Nat} {p : Nat} (h0_ : Rel ps_ z_ s) (hp_ : Sub [.free, .tx, .counts, .ofs] ps_) :
    Rel ps_ z_ (firstHandshake s b p) := by
  unfold firstHandshake
  split
  · refine iteP (P := Rel ps_ z_) ?_ ?_
    · refine rel_beginHandshake ?_ (Sub.trans (by decide) hp_)
      · assumption
    · assumption
  · assumption

theorem rel_settleSlots {ps_ : List Part} {z_ : State} {s : State} {b : Nat} (h0_ : Rel ps_ z_ s) (hp_ : Sub [.shg, .ofs] ps_) :
    Rel ps_ z_ (settleSlots s b) := by
  unfold settleSlots
  split
  · assumption
  · extract_lets -merge -underBinder x4_0
    have hx4_0 : Rel ps_ z_ x4_0 := by
      unfold x4_0
      refine foldSP ?_ ?_ _
      · assumption
      · intro a8_0 a8_1 h8_0
        extract_lets -merge -underBinder x8_0
        clear_value x8_0
        refine iteP (P := Rel ps_ z_) ?_ ?_
        · refine rel_modTslot ?_ (Sub.trans (by decide) hp_)
          · assumption
        · refine rel_modTslot ?_ (Sub.trans (by decide) hp_)
          · assumption
    clear_value x4_0
    refine rel_modSess ?_ (Sub.trans (by decide) hp_)
    · assumption

theorem rel_ofsErr {ps_ : List Part} {z_ : State} {s : State} {b : Nat} {site : Nat} {cause : Nat} {stream : Nat} {round : Nat} (h0_ : Rel ps_ z_ s) (hp_ : Sub [.regs, .ofs] ps_) :
    Rel ps_ z_ (ofsErr s b site cause stream round) := by
  unfold ofsErr
  extract_lets -merge -underBinder x2_0
  have hx2_0 : Rel ps_ z_ x2_0 := by
    unfold x2_0
    refine rel_wrs ?_ (Sub.trans (by decide) hp_)
    · assumption
  clear_value x2_0
  refine rel_modOfs ?_ (Sub.trans (by decide) hp_)
  · assumption

theorem rel_startRekeys {ps_ : List Part} {z_ : State} {s : State} (h0_ : Rel ps_ z_ s) (hp_ : Sub [.free, .tx, .counts, .ofs] ps_) :
    Rel ps_ z_ (startRekeys s) := by
  unfold startRekeys
  extract_lets -merge -underBinder x2_0
  clear_value x2_0
  refine iteP (P := Rel ps_ z_) ?_ ?_
  · assumption
  · split
    · assumption
    · extract_lets -merge -underBinder x6_0
      clear_value x6_0
      refine rel_beginHandshake ?_ (Sub.trans (by decide) hp_)
      · refine rel_modOfs ?_ (Sub.trans (by decide) hp_)
        · assumption

theorem rel_restartHandshakes {ps_ : List Part} {z_ : State} {s : State} (h0_ : Rel ps_ z_ s) (hp_ : Sub [.free, .tx, .counts, .ofs] ps_) :
    Rel ps_ z_ (restartHandshakes s) := by
  unfold restartHandshakes
  refine foldSP ?_ ?_ _
  · assumption
  · intro a4_0 a4_1 h4_0
    split
    · refine foldSP ?_ ?_ _
      · assumption
      · intro a8_0 a8_1 h8_0
        split
        · refine iteP (P := Rel ps_ z_) ?_ ?_
          · refine rel_beginHandshake ?_ (Sub.trans (by decide) hp_)
            · assumption
          · assumption
        · assumption
    · assumption

theorem rel_abandonPeer {ps_ : List Part} {z_ : State} {s : State} {b : Nat} {p : Nat} (h0_ : Rel ps_ z_ s) (hp_ : Sub [.shg, .ofs] ps_) :
    Rel ps_ z_ (abandonPeer s b p) := by
  unfold abandonPeer
  refine rel_settleSlots ?_ (Sub.trans (by decide) hp_)
  · refine rel_modPeer ?_ (Sub.trans (by decide) hp_)
    · assumption

theorem rel_resetHandshakes {ps_ : List Part} {z_ : State} {s : State} (h0_ : Rel ps_ z_ s) (hp_ : Sub [.free, .tx, .counts, .ofs] ps_) :
    Rel ps_ z_ (resetHandshakes s) := by
  unfold resetHandshakes
  extract_lets -merge -underBinder x2_0
  have hx2_0 : Rel ps_ z_ x2_0 := by
    unfold x2_0
    refine rel_modOfs ?_ (Sub.trans (by decide) hp_)
    · assumption
  clear_value x2_0
  refine iteP (P := Rel ps_ z_) ?_ ?_
  · assumption
  · refine foldSP ?_ ?_ _
    · assumption
    · intro a6_0 a6_1 h6_0
      split
      · refine foldSP ?_ ?_ _
        · assumption
        · intro a10_0 a10_1 h10_0
          refine iteP (P := Rel ps_ z_) ?_ ?_
          · split
            · refine rel_beginHandshake ?_ (Sub.trans (by decide) hp_)
              · assumption
            · refine rel_firstHandshake ?_ (Sub.trans (by decide) hp_)
              · assumption
          · assumption
      · assumption

theorem rel_sealOfs {ps_ : List Part} {z_ : State} {s : State} {n : Nat} {p : OfsPkt} (h0_ : Rel ps_ z_ s) (hp_ : Sub [.tx, .regs, .counts, .swl, .ofs, .quay] ps_) :
    Rel1 ps_ z_ (sealOfs s n p) := by
  unfold sealOfs
  extract_lets -merge -underBinder x2_0
  have hx2_0 : Rel1 ps_ z_ x2_0 := by
    unfold x2_0
    refine rel_sealData ?_ (Sub.trans (by decide) hp_)
    · assumption
  clear_value x2_0
  refine ofPair ?_
  refine (?_ : Rel1 ps_ z_ _)
  assumption

theorem rel_sendSealed {ps_ : List Part} {z_ : State} {s : State} {b : Nat} {peer : Nat} {n : Nat} {type : Nat} {p : OfsPkt} (h0_ : Rel ps_ z_ s) (hp_ : Sub [.tx, .regs, .counts, .swl, .ofs, .quay] ps_) :
    Rel ps_ z_ (sendSealed s b peer n type p) := by
  unfold sendSealed
  extract_lets -merge -underBinder x2_0
  have hx2_0 : Rel1 ps_ z_ x2_0 := by
    unfold x2_0
    refine rel_sealOfs ?_ (Sub.trans (by decide) hp_)
    · assumption
  clear_value x2_0
  refine rel_sendOfs ?_ (Sub.trans (by decide) hp_)
  · refine (?_ : Rel1 ps_ z_ _)
    assumption

theorem rel_markRekeys {ps_ : List Part} {z_ : State} {s : State} {b : Nat} (h0_ : Rel ps_ z_ s) (hp_ : Sub [.ofs] ps_) :
    Rel ps_ z_ (markRekeys s b) := by
  unfold markRekeys
  refine rel_modSess ?_ (Sub.trans (by decide) hp_)
  · assumption

theorem rel_installKey {ps_ : List Part} {z_ : State} {s : State} {b : Nat} {p : Nat} {epoch : Nat} {reset : Bool} {secret : List Byte} (h0_ : Rel ps_ z_ s) (hp_ : Sub [.swl, .ofs] ps_) :
    Rel ps_ z_ (installKey s b p epoch reset secret) := by
  unfold installKey
  split
  · extract_lets -merge -underBinder x4_0 x4_1 x4_2 x4_3 x4_4
    clear_value x4_0 x4_1 x4_2 x4_3
    have hx4_4 : Rel ps_ z_ x4_4 := by
      unfold x4_4
      refine iteP (P := Rel ps_ z_) ?_ ?_
      · refine rel_dropPeerKeys ?_ (Sub.trans (by decide) hp_)
        · assumption
      · assumption
    clear_value x4_4
    split
    · assumption
    · extract_lets -merge -underBinder x6_0 x6_1 x6_2
      have hx6_0 : Rel ps_ z_ x6_0 := by
        unfold x6_0
        refine rel_putKey ?_ (Sub.trans (by decide) hp_)
        · assumption
      clear_value x6_0 x6_1
      have hx6_2 : Rel ps_ z_ x6_2 := by
        unfold x6_2
        split
        · refine rel_modKey ?_ (Sub.trans (by decide) hp_)
          · assumption
        · assumption
      clear_value x6_2
      refine iteP (P := Rel ps_ z_) ?_ ?_
      · refine rel_modPeer ?_ (Sub.trans (by decide) hp_)
        · assumption
      · refine rel_modPeer ?_ (Sub.trans (by decide) hp_)
        · assumption
  · assumption

theorem rel_eraseOld {ps_ : List Part} {z_ : State} {s : State} {b : Nat} {p : Nat} (h0_ : Rel ps_ z_ s) (hp_ : Sub [.free, .tx, .counts, .swl, .ofs] ps_) :
    Rel ps_ z_ (eraseOld s b p) := by
  unfold eraseOld
  split
  · assumption
  · split
    · assumption
    · extract_lets -merge -underBinder x6_0
      have hx6_0 : Rel ps_ z_ x6_0 := by
        unfold x6_0
        refine rel_modPeer ?_ (Sub.trans (by decide) hp_)
        · refine rel_clearKeySlot ?_ (Sub.trans (by decide) hp_)
          · assumption
      clear_value x6_0
      refine iteP (P := Rel ps_ z_) ?_ ?_
      · refine iteP (P := Rel ps_ z_) ?_ ?_
        · refine rel_startRekeys ?_ (Sub.trans (by decide) hp_)
          · refine rel_modOfs ?_ (Sub.trans (by decide) hp_)
            · assumption
        · assumption
      · assumption

theorem rel_queueOfs {ps_ : List Part} {z_ : State} {s : State} {b : Nat} {p : Nat} {type : Nat} {l : List OfsPkt} (h0_ : Rel ps_ z_ s) (hp_ : Sub [.ofs] ps_) :
    Rel ps_ z_ (queueOfs s b p type l) := by
  unfold queueOfs
  refine rel_modPeer ?_ (Sub.trans (by decide) hp_)
  · assumption

theorem rel_modStream {ps_ : List Part} {z_ : State} {s : State} {b : Nat} {i : Nat} {f : OfsStream → OfsStream} (h0_ : Rel ps_ z_ s) (hp_ : Sub [.ofs] ps_) :
    Rel ps_ z_ (modStream s b i f) := by
  unfold modStream
  refine rel_modSess ?_ (Sub.trans (by decide) hp_)
  · assumption

/-! ### OfsRound -/

theorem rel_placeCoded {ps_ : List Part} {z_ : State} {s : State} {b : Nat} {bytes : List Byte} (h0_ : Rel ps_ z_ s) (hp_ : Sub [.mem, .bytes] ps_) :
    Rel1 ps_ z_ (placeCoded s b bytes) := by
  unfold placeCoded
  extract_lets -merge -underBinder x2_0
  have hx2_0 : Rel1 ps_ z_ x2_0 := by
    unfold x2_0
    refine rel_placeObject ?_ (Sub.trans (by decide) hp_)
    · assumption
  clear_value x2_0
  refine ofPair ?_
  refine (?_ : Rel1 ps_ z_ _)
  refine rel_writeH ?_ (Sub.trans (by decide) hp_)
  · refine (?_ : Rel1 ps_ z_ _)
    assumption

theorem rel_fillSlot {ps_ : List Part} {z_ : State} {s : State} {h : Hdl} {d : ShD} {a : List W32} (h0_ : Rel ps_ z_ s) (hp_ : Sub [.mem, .bytes] ps_) :
    Rel ps_ z_ (fillSlot s h d a) := by
  unfold fillSlot
  refine (?_ : Rel1 ps_ z_ _)
  refine rel_writeH ?_ (Sub.trans (by decide) hp_)
  · refine (?_ : Rel1 ps_ z_ _)
    refine rel_writeF32 ?_ (Sub.trans (by decide) hp_)
    · assumption

theorem rel_joinDone {ps_ : List Part} {z_ : State} {s : State} {b : Nat} (h0_ : Rel ps_ z_ s) (hp_ : Sub [.tx, .regs, .counts, .ofs, .quay] ps_) :
    Rel ps_ z_ (joinDone s b) := by
  unfold joinDone
  split
  · assumption
  · extract_lets -merge -underBinder x4_0
    have hx4_0 : Rel ps_ z_ x4_0 := by
      unfold x4_0
      refine rel_modSess ?_ (Sub.trans (by decide) hp_)
      · refine rel_wrOr ?_ (Sub.trans (by decide) hp_)
        · assumption
    clear_value x4_0
    refine iteP (P := Rel ps_ z_) ?_ ?_
    · split
      · refine rel_finish ?_ (Sub.trans (by decide) hp_)
        · assumption
      · assumption
    · assumption

theorem rel_installStream {ps_ : List Part} {z_ : State} {b : Nat} {slot : Nat} {s : State} {i : Nat} (h2_ : Rel ps_ z_ s) (hp_ : Sub [.tx, .regs, .counts, .upd, .mem, .bytes, .shg, .ofs, .quay] ps_) :
    Rel ps_ z_ (installStream b slot s i) := by
  unfold installStream
  split
  · assumption
  · split
    · split
      · assumption
      · extract_lets -merge -underBinder x8_0 x8_1 x8_2
        clear_value x8_0
        have hx8_1 : Rel ps_ z_ x8_1 := by
          unfold x8_1
          refine rel_loadTslot ?_ (Sub.trans (by decide) hp_)
          · refine rel_loadTslot ?_ (Sub.trans (by decide) hp_)
            · assumption
        clear_value x8_1
        have hx8_2 : Rel ps_ z_ x8_2 := by
          unfold x8_2
          refine rel_retireTslot ?_ (Sub.trans (by decide) hp_)
          · refine rel_shgReport ?_ (Sub.trans (by decide) hp_)
            · refine rel_shgReport ?_ (Sub.trans (by decide) hp_)
              · assumption
        clear_value x8_2
        split
        · extract_lets -merge -underBinder x10_0 x10_1 x10_2 x10_3 x10_4 x10_5 x10_6
          clear_value x10_0
          have hx10_1 : Rel1 ps_ z_ x10_1 := by
            unfold x10_1
            refine rel_placeCoded ?_ (Sub.trans (by decide) hp_)
            · assumption
          clear_value x10_1
          have hx10_2 : Rel1 ps_ z_ x10_2 := by
            unfold x10_2
            refine rel_placeCoded ?_ (Sub.trans (by decide) hp_)
            · refine (?_ : Rel1 ps_ z_ _)
              assumption
          clear_value x10_2
          have hx10_3 : Rel ps_ z_ x10_3 := by
            unfold x10_3
            refine rel_fillSlot ?_ (Sub.trans (by decide) hp_)
            · refine rel_fillSlot ?_ (Sub.trans (by decide) hp_)
              · refine (?_ : Rel1 ps_ z_ _)
                assumption
          clear_value x10_3
          have hx10_4 : Rel ps_ z_ x10_4 := by
            unfold x10_4
            refine rel_modShard ?_ (Sub.trans (by decide) hp_)
            · assumption
          clear_value x10_4
          have hx10_5 : Rel ps_ z_ x10_5 := by
            unfold x10_5
            refine rel_releaseObject ?_ (Sub.trans (by decide) hp_)
            · refine rel_releaseObject ?_ (Sub.trans (by decide) hp_)
              · assumption
          clear_value x10_5
          have hx10_6 : Rel ps_ z_ x10_6 := by
            unfold x10_6
            refine rel_modStream ?_ (Sub.trans (by decide) hp_)
            · assumption
          clear_value x10_6
          refine rel_joinDone ?_ (Sub.trans (by decide) hp_)
          · refine rel_modSess ?_ (Sub.trans (by decide) hp_)
            · assumption
        · refine rel_modSess ?_ (Sub.trans (by decide) hp_)
          · assumption
    · assumption

theorem rel_readCoded {ps_ : List Part} {z_ : State} {s : State} {b : Nat} {slot : Nat} {h : Hdl} (h0_ : Rel ps_ z_ s) (hp_ : Sub [.free, .tx, .regs, .counts, .mem, .shg, .quay, .rst] ps_) :
    Rel1 ps_ z_ (readCoded s b slot h) := by
  unfold readCoded
  extract_lets -merge -underBinder x2_0 x2_1 x2_2 x2_3
  clear_value x2_0 x2_1 x2_2
  have hx2_3 : Rel ps_ z_ x2_3 := by
    unfold x2_3
    refine rel_noteRead ?_ (Sub.trans (by decide) hp_)
    · assumption
  clear_value x2_3
  split
  · refine ofPair ?_
    refine rel_shgFail ?_ (Sub.trans (by decide) hp_)
    · assumption
  · extract_lets -merge -underBinder x4_0
    have hx4_0 : Rel ps_ z_ x4_0 := by
      unfold x4_0
      refine rel_shgReport ?_ (Sub.trans (by decide) hp_)
      · assumption
    clear_value x4_0
    refine iteP (P := Rel1 ps_ z_) ?_ ?_
    · refine ofPair ?_
      assumption
    · refine ofPair ?_
      assumption

theorem rel_holdStream {ps_ : List Part} {z_ : State} {s : State} {b : Nat} {i : Nat} {x : Session} {t : OfsStream} (h0_ : Rel ps_ z_ s) (hp_ : Sub [.regs, .counts, .mem, .bytes, .ofs] ps_) :
    Rel ps_ z_ (holdStream s b i x t) := by
  unfold holdStream
  extract_lets -merge -underBinder x2_0 x2_1
  have hx2_0 : Rel ps_ z_ x2_0 := by
    unfold x2_0
    refine rel_ofsErr ?_ (Sub.trans (by decide) hp_)
    · refine rel_ofsCount ?_ (Sub.trans (by decide) hp_)
      · refine rel_wrOr ?_ (Sub.trans (by decide) hp_)
        · assumption
  clear_value x2_0
  have hx2_1 : Rel ps_ z_ x2_1 := by
    unfold x2_1
    refine rel_releaseObject ?_ (Sub.trans (by decide) hp_)
    · assumption
  clear_value x2_1
  refine rel_modStream ?_ (Sub.trans (by decide) hp_)
  · assumption

theorem rel_newCoded {ps_ : List Part} {z_ : State} {s : State} {b : Nat} {fmt : Nat} {slot : Nat} {l : List Nat} (h0_ : Rel ps_ z_ s) (hp_ : Sub [.counts, .mem, .bytes, .shg] ps_) :
    Rel1 ps_ z_ (newCoded s b fmt slot l) := by
  unfold newCoded
  extract_lets -merge -underBinder x2_0 x2_1 x2_2 x2_3
  clear_value x2_0 x2_1
  have hx2_2 : Rel ps_ z_ x2_2 := by
    unfold x2_2
    refine rel_countCoded ?_ (Sub.trans (by decide) hp_)
    · refine rel_modTslot ?_ (Sub.trans (by decide) hp_)
      · assumption
  clear_value x2_2
  have hx2_3 : Rel1 ps_ z_ x2_3 := by
    unfold x2_3
    refine rel_placeObject ?_ (Sub.trans (by decide) hp_)
    · assumption
  clear_value x2_3
  refine ofPair ?_
  refine (?_ : Rel1 ps_ z_ _)
  refine rel_writeH ?_ (Sub.trans (by decide) hp_)
  · refine (?_ : Rel1 ps_ z_ _)
    assumption

theorem rel_swapStream {ps_ : List Part} {z_ : State} {s : State} {b : Nat} {i : Nat} {slot : Nat} {t : OfsStream} {sh : Shard} {a : List W32} {m : List W32} {moments : List Byte} (h0_ : Rel ps_ z_ s) (hp_ : Sub [.free, .tx, .regs, .counts, .upd, .mem, .bytes, .shg, .ofs, .quay, .rst] ps_) :
    Rel ps_ z_ (swapStream s b i slot t sh a m moments) := by
  unfold swapStream
  extract_lets -merge -underBinder x2_0 x2_1 x2_2 x2_3 x2_4 x2_5 x2_6 x2_7 x2_8
  clear_value x2_0
  have hx2_1 : Rel ps_ z_ x2_1 := by
    unfold x2_1
    refine (?_ : Rel1 ps_ z_ _)
    refine rel_writeH ?_ (Sub.trans (by decide) hp_)
    · assumption
  clear_value x2_1
  have hx2_2 : Rel ps_ z_ x2_2 := by
    unfold x2_2
    refine (?_ : Rel1 ps_ z_ _)
    refine rel_writeH ?_ (Sub.trans (by decide) hp_)
    · assumption
  clear_value x2_2
  have hx2_3 : Rel ps_ z_ x2_3 := by
    unfold x2_3
    refine (?_ : Rel1 ps_ z_ _)
    refine rel_putHeader ?_ (Sub.trans (by decide) hp_)
    · assumption
  clear_value x2_3
  have hx2_4 : Rel1 ps_ z_ x2_4 := by
    unfold x2_4
    refine rel_newCoded ?_ (Sub.trans (by decide) hp_)
    · assumption
  clear_value x2_4
  have hx2_5 : Rel1 ps_ z_ x2_5 := by
    unfold x2_5
    refine rel_newCoded ?_ (Sub.trans (by decide) hp_)
    · refine (?_ : Rel1 ps_ z_ _)
      assumption
  clear_value x2_5
  have hx2_6 : Rel ps_ z_ x2_6 := by
    unfold x2_6
    refine rel_modShard ?_ (Sub.trans (by decide) hp_)
    · refine (?_ : Rel1 ps_ z_ _)
      assumption
  clear_value x2_6
  have hx2_7 : Rel ps_ z_ x2_7 := by
    unfold x2_7
    refine rel_modStream ?_ (Sub.trans (by decide) hp_)
    · assumption
  clear_value x2_7
  have hx2_8 : Rel ps_ z_ x2_8 := by
    unfold x2_8
    refine rel_releaseObject ?_ (Sub.trans (by decide) hp_)
    · refine rel_releaseObject ?_ (Sub.trans (by decide) hp_)
      · assumption
  clear_value x2_8
  refine iteP (P := Rel ps_ z_) ?_ ?_
  · assumption
  · refine rel_releaseObject ?_ (Sub.trans (by decide) hp_)
    · assumption

theorem rel_applyStream {ps_ : List Part} {z_ : State} {s : State} {b : Nat} {i : Nat} {slot : Nat} {x : Session} {t : OfsStream} {sh : Shard} (h0_ : Rel ps_ z_ s) (hp_ : Sub [.free, .tx, .regs, .counts, .upd, .mem, .bytes, .shg, .ofs, .quay, .rst] ps_) :
    Rel ps_ z_ (applyStream s b i slot x t sh) := by
  unfold applyStream
  extract_lets -merge -underBinder x2_0 x2_1 x2_2 x2_3 x2_4 x2_5 x2_6
  clear_value x2_0 x2_1
  have hx2_2 : Rel1 ps_ z_ x2_2 := by
    unfold x2_2
    refine rel_readCoded ?_ (Sub.trans (by decide) hp_)
    · assumption
  clear_value x2_2
  have hx2_3 : Rel1 ps_ z_ x2_3 := by
    unfold x2_3
    refine rel_readCoded ?_ (Sub.trans (by decide) hp_)
    · refine (?_ : Rel1 ps_ z_ _)
      assumption
  clear_value x2_3 x2_4
  have hx2_5 : Rel ps_ z_ x2_5 := by
    unfold x2_5
    refine rel_noteRead ?_ (Sub.trans (by decide) hp_)
    · refine (?_ : Rel1 ps_ z_ _)
      assumption
  clear_value x2_5
  have hx2_6 : Rel ps_ z_ x2_6 := by
    unfold x2_6
    refine rel_ofsCount ?_ (Sub.trans (by decide) hp_)
    · refine rel_modSess ?_ (Sub.trans (by decide) hp_)
      · assumption
  clear_value x2_6
  split
  · extract_lets -merge -underBinder x4_0 x4_1
    clear_value x4_0 x4_1
    refine iteP (P := Rel ps_ z_) ?_ ?_
    · refine rel_holdStream ?_ (Sub.trans (by decide) hp_)
      · assumption
    · refine rel_swapStream ?_ (Sub.trans (by decide) hp_)
      · assumption
  · refine rel_holdStream ?_ (Sub.trans (by decide) hp_)
    · assumption

theorem rel_applyNext {ps_ : List Part} {z_ : State} {b : Nat} {s : State} {i : Nat} (h1_ : Rel ps_ z_ s) (hp_ : Sub [.free, .tx, .regs, .counts, .upd, .mem, .bytes, .shg, .ofs, .quay, .rst] ps_) :
    Rel ps_ z_ (applyNext b s i) := by
  unfold applyNext
  split
  · assumption
  · split
    · refine iteP (P := Rel ps_ z_) ?_ ?_
      · assumption
      · split
        · refine rel_applyStream ?_ (Sub.trans (by decide) hp_)
          · assumption
        · refine rel_modStream ?_ (Sub.trans (by decide) hp_)
          · assumption
    · refine iteP (P := Rel ps_ z_) ?_ ?_
      · assumption
      · refine rel_wrOr ?_ (Sub.trans (by decide) hp_)
        · assumption
    · assumption

theorem rel_sendSnapshots {ps_ : List Part} {z_ : State} {s : State} {b : Nat} {p : Nat} (h0_ : Rel ps_ z_ s) (hp_ : Sub [.free, .tx, .regs, .counts, .mem, .ofs, .quay, .rst] ps_) :
    Rel ps_ z_ (sendSnapshots s b p) := by
  unfold sendSnapshots
  split
  · assumption
  · refine foldSP ?_ ?_ _
    · assumption
    · intro a6_0 a6_1 h6_0
      split
      · assumption
      · extract_lets -merge -underBinder x8_0
        have hx8_0 : ∀ a0, Rel ps_ z_ a0 → ∀ a1, ∀ a2, Rel ps_ z_ (x8_0 a0 a1 a2) := by
          intro a0_ h0_ a1_ a2_
          unfold x8_0
          refine iteP (P := Rel ps_ z_) ?_ ?_
          · refine rel_noteRead ?_ (Sub.trans (by decide) hp_)
            · assumption
          · refine rel_queueOfs ?_ (Sub.trans (by decide) hp_)
            · assumption
        clear_value x8_0
        refine hx8_0 _ ?_ _ _
        refine hx8_0 _ ?_ _ _
        assumption

theorem rel_movePeers {ps_ : List Part} {z_ : State} {s : State} {b : Nat} (h0_ : Rel ps_ z_ s) (hp_ : Sub [.shg, .swl, .ofs] ps_) :
    Rel ps_ z_ (movePeers s b) := by
  unfold movePeers
  split
  · assumption
  · extract_lets -merge -underBinder x4_0 x4_1 x4_2 x4_3
    clear_value x4_0 x4_1
    have hx4_2 : Rel ps_ z_ x4_2 := by
      unfold x4_2
      refine foldSP ?_ ?_ _
      · assumption
      · intro a8_0 a8_1 h8_0
        refine rel_dropPeerKeys ?_ (Sub.trans (by decide) hp_)
        · refine rel_abandonPeer ?_ (Sub.trans (by decide) hp_)
          · assumption
    clear_value x4_2 x4_3
    refine rel_modSess ?_ (Sub.trans (by decide) hp_)
    · assumption

theorem rel_endRound {ps_ : List Part} {z_ : State} {s : State} {b : Nat} (h0_ : Rel ps_ z_ s) (hp_ : Sub [.free, .tx, .regs, .counts, .shelf, .snd, .slv, .upd, .mem, .bytes, .lsh, .shg, .swl, .ofs, .quay, .rst] ps_) :
    Rel ps_ z_ (endRound s b) := by
  unfold endRound
  split
  · assumption
  · extract_lets -merge -underBinder x4_0 x4_1 x4_2 x4_3 x4_4 x4_5
    clear_value x4_0
    have hx4_1 : Rel ps_ z_ x4_1 := by
      unfold x4_1
      refine foldSP ?_ ?_ _
      · assumption
      · intro a8_0 a8_1 h8_0
        refine rel_sendSnapshots ?_ (Sub.trans (by decide) hp_)
        · assumption
    clear_value x4_1
    have hx4_2 : Rel ps_ z_ x4_2 := by
      unfold x4_2
      refine rel_movePeers ?_ (Sub.trans (by decide) hp_)
      · assumption
    clear_value x4_2 x4_3
    have hx4_4 : Rel ps_ z_ x4_4 := by
      unfold x4_4
      refine iteP (P := Rel ps_ z_) ?_ ?_
      · refine rel_startRekeys ?_ (Sub.trans (by decide) hp_)
        · refine rel_modSess ?_ (Sub.trans (by decide) hp_)
          · refine rel_markRekeys ?_ (Sub.trans (by decide) hp_)
            · assumption
      · assumption
    clear_value x4_4
    have hx4_5 : Rel ps_ z_ x4_5 := by
      unfold x4_5
      refine rel_modSess ?_ (Sub.trans (by decide) hp_)
      · assumption
    clear_value x4_5
    refine rel_rowFive ?_ (Sub.trans (by decide) hp_)
    · assumption

theorem rel_applyRun {ps_ : List Part} {z_ : State} {s : State} {b : Nat} (h0_ : Rel ps_ z_ s) (hp_ : Sub [.free, .tx, .regs, .counts, .shelf, .snd, .slv, .upd, .mem, .bytes, .lsh, .shg, .swl, .ofs, .quay, .rst] ps_) :
    Rel ps_ z_ (applyRun s b) := by
  unfold applyRun
  split
  · assumption
  · extract_lets -merge -underBinder x4_0
    have hx4_0 : Rel ps_ z_ x4_0 := by
      unfold x4_0
      refine foldSP ?_ ?_ _
      · assumption
      · intro a8_0 a8_1 h8_0
        refine rel_applyNext ?_ (Sub.trans (by decide) hp_)
        · assumption
    clear_value x4_0
    refine iteP (P := Rel ps_ z_) ?_ ?_
    · assumption
    · split
      · refine iteP (P := Rel ps_ z_) ?_ ?_
        · refine rel_endRound ?_ (Sub.trans (by decide) hp_)
          · assumption
        · assumption
      · assumption

theorem rel_withholdStream {ps_ : List Part} {z_ : State} {s : State} {b : Nat} {i : Nat} {x : Session} {own : Option W32} (h0_ : Rel ps_ z_ s) (hp_ : Sub [.regs, .counts, .ofs] ps_) :
    Rel ps_ z_ (withholdStream s b i x own) := by
  unfold withholdStream
  extract_lets -merge -underBinder x2_0 x2_1 x2_2
  clear_value x2_0
  have hx2_1 : Rel ps_ z_ x2_1 := by
    unfold x2_1
    refine rel_ofsErr ?_ (Sub.trans (by decide) hp_)
    · refine rel_ofsCount ?_ (Sub.trans (by decide) hp_)
      · refine rel_wrOr ?_ (Sub.trans (by decide) hp_)
        · assumption
  clear_value x2_1
  have hx2_2 : Rel ps_ z_ x2_2 := by
    unfold x2_2
    refine foldSP ?_ ?_ _
    · assumption
    · intro a6_0 a6_1 h6_0
      refine rel_queueOfs ?_ (Sub.trans (by decide) hp_)
      · assumption
  clear_value x2_2
  refine rel_modStream ?_ (Sub.trans (by decide) hp_)
  · assumption

theorem rel_sendContribution {ps_ : List Part} {z_ : State} {s : State} {b : Nat} {i : Nat} {slot : Nat} {x : Session} {e : Nat} {crc : W32} {scales : List Byte} {codes : List Byte} {newResid : Hdl} (h0_ : Rel ps_ z_ s) (hp_ : Sub [.counts, .shg, .ofs] ps_) :
    Rel ps_ z_ (sendContribution s b i slot x e crc scales codes newResid) := by
  unfold sendContribution
  extract_lets -merge -underBinder x2_0 x2_1 x2_2 x2_3 x2_4 x2_5 x2_6 x2_7
  clear_value x2_0 x2_1 x2_2
  have hx2_3 : Rel ps_ z_ x2_3 := by
    unfold x2_3
    refine rel_countCoded ?_ (Sub.trans (by decide) hp_)
    · assumption
  clear_value x2_3
  have hx2_4 : Rel ps_ z_ x2_4 := by
    unfold x2_4
    refine rel_modTslot ?_ (Sub.trans (by decide) hp_)
    · assumption
  clear_value x2_4
  have hx2_5 : Rel ps_ z_ x2_5 := by
    unfold x2_5
    refine rel_modSess ?_ (Sub.trans (by decide) hp_)
    · assumption
  clear_value x2_5
  have hx2_6 : Rel ps_ z_ x2_6 := by
    unfold x2_6
    refine foldSP ?_ ?_ _
    · assumption
    · intro a6_0 a6_1 h6_0
      refine rel_queueOfs ?_ (Sub.trans (by decide) hp_)
      · assumption
  clear_value x2_6
  have hx2_7 : Rel ps_ z_ x2_7 := by
    unfold x2_7
    refine rel_modStream ?_ (Sub.trans (by decide) hp_)
    · assumption
  clear_value x2_7
  refine rel_settleSlots ?_ (Sub.trans (by decide) hp_)
  · assumption

theorem rel_closeStream {ps_ : List Part} {z_ : State} {s : State} {b : Nat} {i : Nat} {slot : Nat} {x : Session} {t : OfsStream} {sh : Shard} (h0_ : Rel ps_ z_ s) (hp_ : Sub [.free, .tx, .regs, .counts, .mem, .bytes, .shg, .ofs, .quay, .rst] ps_) :
    Rel ps_ z_ (closeStream s b i slot x t sh) := by
  unfold closeStream
  extract_lets -merge -underBinder x2_0 x2_1 x2_2 x2_3 x2_4 x2_5
  clear_value x2_0 x2_1
  have hx2_2 : Rel ps_ z_ x2_2 := by
    unfold x2_2
    refine rel_noteRead ?_ (Sub.trans (by decide) hp_)
    · assumption
  clear_value x2_2
  have hx2_3 : Rel1 ps_ z_ x2_3 := by
    unfold x2_3
    refine rel_readCoded ?_ (Sub.trans (by decide) hp_)
    · assumption
  clear_value x2_3
  have hx2_4 : Rel1 ps_ z_ x2_4 := by
    unfold x2_4
    refine rel_readCoded ?_ (Sub.trans (by decide) hp_)
    · refine (?_ : Rel1 ps_ z_ _)
      assumption
  clear_value x2_4
  have hx2_5 : Rel ps_ z_ x2_5 := by
    unfold x2_5
    refine (?_ : Rel1 ps_ z_ _)
    assumption
  clear_value x2_5
  split
  · extract_lets -merge -underBinder x4_0 x4_1
    clear_value x4_0 x4_1
    refine iteP (P := Rel ps_ z_) ?_ ?_
    · refine rel_withholdStream ?_ (Sub.trans (by decide) hp_)
      · assumption
    · split
      · refine rel_withholdStream ?_ (Sub.trans (by decide) hp_)
        · refine rel_shgError ?_ (Sub.trans (by decide) hp_)
          · refine rel_wrOr ?_ (Sub.trans (by decide) hp_)
            · assumption
      · extract_lets -merge -underBinder x8_0
        have hx8_0 : Rel1 ps_ z_ x8_0 := by
          unfold x8_0
          refine rel_newCoded ?_ (Sub.trans (by decide) hp_)
          · assumption
        clear_value x8_0
        refine rel_sendContribution ?_ (Sub.trans (by decide) hp_)
        · refine (?_ : Rel1 ps_ z_ _)
          assumption
  · refine rel_withholdStream ?_ (Sub.trans (by decide) hp_)
    · assumption
  · refine rel_withholdStream ?_ (Sub.trans (by decide) hp_)
    · assumption

theorem rel_closeNext {ps_ : List Part} {z_ : State} {b : Nat} {s : State} {i : Nat} (h1_ : Rel ps_ z_ s) (hp_ : Sub [.free, .tx, .regs, .counts, .mem, .bytes, .shg, .ofs, .quay, .rst] ps_) :
    Rel ps_ z_ (closeNext b s i) := by
  unfold closeNext
  split
  · assumption
  · split
    · refine iteP (P := Rel ps_ z_) ?_ ?_
      · assumption
      · split
        · refine rel_closeStream ?_ (Sub.trans (by decide) hp_)
          · assumption
        · refine rel_modStream ?_ (Sub.trans (by decide) hp_)
          · assumption
    · refine iteP (P := Rel ps_ z_) ?_ ?_
      · assumption
      · refine rel_wrOr ?_ (Sub.trans (by decide) hp_)
        · assumption
    · assumption

theorem rel_closeRun {ps_ : List Part} {z_ : State} {s : State} {b : Nat} (h0_ : Rel ps_ z_ s) (hp_ : Sub [.free, .tx, .regs, .counts, .mem, .bytes, .shg, .ofs, .quay, .rst] ps_) :
    Rel ps_ z_ (closeRun s b) := by
  unfold closeRun
  split
  · assumption
  · extract_lets -merge -underBinder x4_0
    have hx4_0 : Rel ps_ z_ x4_0 := by
      unfold x4_0
      refine foldSP ?_ ?_ _
      · assumption
      · intro a8_0 a8_1 h8_0
        refine rel_closeNext ?_ (Sub.trans (by decide) hp_)
        · assumption
    clear_value x4_0
    refine iteP (P := Rel ps_ z_) ?_ ?_
    · assumption
    · refine rel_modSess ?_ (Sub.trans (by decide) hp_)
      · assumption

theorem rel_installAll {ps_ : List Part} {z_ : State} {s : State} {b : Nat} (h0_ : Rel ps_ z_ s) (hp_ : Sub [.tx, .regs, .counts, .upd, .mem, .bytes, .shg, .ofs, .quay] ps_) :
    Rel ps_ z_ (installAll s b) := by
  unfold installAll
  split
  · assumption
  · refine iteP (P := Rel ps_ z_) ?_ ?_
    · assumption
    · split
      · refine foldSP ?_ ?_ _
        · assumption
        · intro a10_0 a10_1 h10_0
          refine rel_installStream ?_ (Sub.trans (by decide) hp_)
          · assumption
      · refine rel_wrOr ?_ (Sub.trans (by decide) hp_)
        · assumption

theorem rel_modRecv {ps_ : List Part} {z_ : State} {s : State} {b : Nat} {site : Nat} {round : Nat} {stream : Nat} {part : Nat} {f : OfsRecv → OfsRecv} (h0_ : Rel ps_ z_ s) (hp_ : Sub [.ofs] ps_) :
    Rel ps_ z_ (modRecv s b site round stream part f) := by
  unfold modRecv
  refine rel_modSess ?_ (Sub.trans (by decide) hp_)
  · assumption

theorem rel_completeRecv {ps_ : List Part} {z_ : State} {b : Nat} {slot : Nat} {x : Session} {s : State} {r : OfsRecv} (h3_ : Rel ps_ z_ s) (hp_ : Sub [.regs, .counts, .shg, .ofs] ps_) :
    Rel ps_ z_ (completeRecv b slot x s r) := by
  unfold completeRecv
  extract_lets -merge -underBinder x2_0 x2_1
  have hx2_0 : Rel ps_ z_ x2_0 := by
    unfold x2_0
    refine rel_retireTslot ?_ (Sub.trans (by decide) hp_)
    · refine rel_shgReport ?_ (Sub.trans (by decide) hp_)
      · refine rel_loadTslot ?_ (Sub.trans (by decide) hp_)
        · assumption
  clear_value x2_0 x2_1
  refine rel_modRecv ?_ (Sub.trans (by decide) hp_)
  · assumption

theorem rel_completeAll {ps_ : List Part} {z_ : State} {s : State} {b : Nat} (h0_ : Rel ps_ z_ s) (hp_ : Sub [.regs, .counts, .shg, .ofs] ps_) :
    Rel ps_ z_ (completeAll s b) := by
  unfold completeAll
  split
  · assumption
  · extract_lets -merge -underBinder x4_0
    clear_value x4_0
    refine iteP (P := Rel ps_ z_) ?_ ?_
    · assumption
    · split
      · refine foldSP ?_ ?_ _
        · assumption
        · intro a10_0 a10_1 h10_0
          refine rel_completeRecv ?_ (Sub.trans (by decide) hp_)
          · assumption
      · refine rel_wrOr ?_ (Sub.trans (by decide) hp_)
        · assumption

theorem rel_ofsContinue {ps_ : List Part} {z_ : State} {s : State} {b : Nat} (h0_ : Rel ps_ z_ s) (hp_ : Sub [.free, .tx, .regs, .counts, .shelf, .snd, .slv, .upd, .mem, .bytes, .lsh, .shg, .swl, .ofs, .quay, .rst] ps_) :
    Rel ps_ z_ (ofsContinue s b) := by
  unfold ofsContinue
  refine rel_applyRun ?_ (Sub.trans (by decide) hp_)
  · refine rel_closeRun ?_ (Sub.trans (by decide) hp_)
    · refine rel_installAll ?_ (Sub.trans (by decide) hp_)
      · refine rel_completeAll ?_ (Sub.trans (by decide) hp_)
        · assumption

theorem rel_ofsContinueAll {ps_ : List Part} {z_ : State} {s : State} (h0_ : Rel ps_ z_ s) (hp_ : Sub [.free, .tx, .regs, .counts, .shelf, .snd, .slv, .upd, .mem, .bytes, .lsh, .shg, .swl, .ofs, .quay, .rst] ps_) :
    Rel ps_ z_ (ofsContinueAll s) := by
  unfold ofsContinueAll
  refine foldSP ?_ ?_ _
  · assumption
  · intro a4_0 a4_1 h4_0
    refine rel_ofsContinue ?_ (Sub.trans (by decide) hp_)
    · assumption

theorem rel_registerStream {ps_ : List Part} {z_ : State} {s : State} {b : Nat} {stream : Nat} {shard : Nat} {slot : Nat} (h0_ : Rel ps_ z_ s) (hp_ : Sub [.free, .tx, .regs, .counts, .mem, .bytes, .shg, .ofs, .quay, .rst] ps_) :
    Rel1 ps_ z_ (registerStream s b stream shard slot) := by
  unfold registerStream
  split
  · extract_lets -merge -underBinder x4_0 x4_1 x4_2 x4_3 x4_4 x4_5 x4_6 x4_7 x4_8 x4_9
    clear_value x4_0 x4_1 x4_2 x4_3 x4_4 x4_5
    have hx4_6 : Rel1 ps_ z_ x4_6 := by
      unfold x4_6
      refine rel_newCoded ?_ (Sub.trans (by decide) hp_)
      · assumption
    clear_value x4_6
    have hx4_7 : Rel1 ps_ z_ x4_7 := by
      unfold x4_7
      refine rel_newCoded ?_ (Sub.trans (by decide) hp_)
      · refine (?_ : Rel1 ps_ z_ _)
        assumption
    clear_value x4_7
    have hx4_8 : Rel1 ps_ z_ x4_8 := by
      unfold x4_8
      refine rel_newCoded ?_ (Sub.trans (by decide) hp_)
      · refine (?_ : Rel1 ps_ z_ _)
        assumption
    clear_value x4_8 x4_9
    refine iteP (P := Rel1 ps_ z_) ?_ ?_
    · refine ofPair ?_
      assumption
    · refine iteP (P := Rel1 ps_ z_) ?_ ?_
      · refine ofPair ?_
        assumption
      · refine iteP (P := Rel1 ps_ z_) ?_ ?_
        · refine ofPair ?_
          refine rel_noteRead ?_ (Sub.trans (by decide) hp_)
          · assumption
        · refine iteP (P := Rel1 ps_ z_) ?_ ?_
          · refine ofPair ?_
            assumption
          · refine ofPair ?_
            refine rel_modSess ?_ (Sub.trans (by decide) hp_)
            · refine (?_ : Rel1 ps_ z_ _)
              assumption
  · refine ofPair ?_
    assumption

theorem rel_grantStream {ps_ : List Part} {z_ : State} {s : State} {r : ShgReq} {stream : Nat} {shard : Nat} {slot : Nat} (h0_ : Rel ps_ z_ s) (hp_ : Sub [.free, .tx, .regs, .counts, .mem, .bytes, .shg, .ofs, .quay, .rst] ps_) :
    Rel ps_ z_ (grantStream s r stream shard slot) := by
  unfold grantStream
  extract_lets -merge -underBinder x2_0 x2_1
  have hx2_0 : Rel1 ps_ z_ x2_0 := by
    unfold x2_0
    refine rel_registerStream ?_ (Sub.trans (by decide) hp_)
    · assumption
  clear_value x2_0
  have hx2_1 : Rel ps_ z_ x2_1 := by
    unfold x2_1
    refine rel_modShg ?_ (Sub.trans (by decide) hp_)
    · refine (?_ : Rel1 ps_ z_ _)
      assumption
  clear_value x2_1
  split
  · refine rel_finish ?_ (Sub.trans (by decide) hp_)
    · assumption
  · assumption

theorem rel_execShingleSlotGrant {ps_ : List Part} {z_ : State} {s : State} (h0_ : Rel ps_ z_ s) (hp_ : Sub [.free, .tx, .regs, .counts, .shelf, .snd, .slv, .upd, .mem, .bytes, .lsh, .shg, .swl, .ofs, .quay, .rst] ps_) :
    Ends ps_ z_ (execShingleSlotGrant s) := by
  unfold execShingleSlotGrant
  refine ofNext ?_
  split
  · refine rel_ofsContinueAll ?_ (Sub.trans (by decide) hp_)
    · assumption
  · split
    · refine rel_grantSlot ?_ (Sub.trans (by decide) hp_)
      · assumption
    · refine iteP (P := Rel ps_ z_) ?_ ?_
      · refine rel_grantStream ?_ (Sub.trans (by decide) hp_)
        · assumption
      · assumption
    · assumption

theorem rel_checkAnchors {ps_ : List Part} {z_ : State} {s : State} {b : Nat} (h0_ : Rel ps_ z_ s) (hp_ : Sub [.regs, .counts, .ofs] ps_) :
    Rel ps_ z_ (checkAnchors s b) := by
  unfold checkAnchors
  split
  · assumption
  · refine iteP (P := Rel ps_ z_) ?_ ?_
    · assumption
    · refine foldSP ?_ ?_ _
      · assumption
      · intro a8_0 a8_1 h8_0
        extract_lets -merge -underBinder x8_0
        clear_value x8_0
        refine iteP (P := Rel ps_ z_) ?_ ?_
        · refine rel_ofsErr ?_ (Sub.trans (by decide) hp_)
          · refine rel_ofsCount ?_ (Sub.trans (by decide) hp_)
            · refine rel_wrOr ?_ (Sub.trans (by decide) hp_)
              · assumption
        · assumption

theorem rel_execOfsStream {ps_ : List Part} {z_ : State} {h : EcpHdr} {stream : Nat} {shard : Nat} {s : State} (h3_ : Rel ps_ z_ s) (hp_ : Sub [.free, .tx, .regs, .counts, .mem, .bytes, .shg, .swl, .ofs, .quay, .rst] ps_) :
    Ends ps_ z_ (execOfsStream h stream shard s) := by
  unfold execOfsStream
  refine ofNext ?_
  refine rel_ecpRun ?_ ?_ (Sub.trans (by decide) hp_)
  · assumption
  · intro a4_0 h4_0
    extract_lets -merge -underBinder x4_0
    clear_value x4_0
    refine iteP (P := Rel1 ps_ z_) ?_ ?_
    · refine ofPair ?_
      assumption
    · split
      · refine iteP (P := Rel1 ps_ z_) ?_ ?_
        · refine ofPair ?_
          assumption
        · refine iteP (P := Rel1 ps_ z_) ?_ ?_
          · refine ofPair ?_
            assumption
          · split
            · refine rel_registerStream ?_ (Sub.trans (by decide) hp_)
              · assumption
            · extract_lets -merge -underBinder x14_0
              have hx14_0 : Rel ps_ z_ x14_0 := by
                unfold x14_0
                refine iteP (P := Rel ps_ z_) ?_ ?_
                · refine rel_wrOr ?_ (Sub.trans (by decide) hp_)
                  · assumption
                · assumption
              clear_value x14_0
              refine ofPair ?_
              refine rel_modShg ?_ (Sub.trans (by decide) hp_)
              · assumption
      · refine ofPair ?_
        assumption

theorem rel_startRound {ps_ : List Part} {z_ : State} {s : State} {b : Nat} (h0_ : Rel ps_ z_ s) (hp_ : Sub [.free, .tx, .regs, .counts, .shelf, .snd, .slv, .upd, .mem, .bytes, .lsh, .shg, .ofs, .quay, .rst] ps_) :
    Rel ps_ z_ (startRound s b) := by
  unfold startRound
  split
  · refine rel_rowFive ?_ (Sub.trans (by decide) hp_)
    · assumption
  · extract_lets -merge -underBinder x4_0 x4_1
    clear_value x4_0 x4_1
    refine iteP (P := Rel ps_ z_) ?_ ?_
    · refine rel_closeRun ?_ (Sub.trans (by decide) hp_)
      · refine rel_modSess ?_ (Sub.trans (by decide) hp_)
        · assumption
    · refine rel_rowFive ?_ (Sub.trans (by decide) hp_)
      · assumption

theorem rel_settleRound {ps_ : List Part} {z_ : State} {s : State} {b : Nat} (h0_ : Rel ps_ z_ s) (hp_ : Sub [.regs, .counts, .ofs] ps_) :
    Rel ps_ z_ (settleRound s b) := by
  unfold settleRound
  split
  · assumption
  · extract_lets -merge -underBinder x4_0 x4_1 x4_2
    clear_value x4_0 x4_1
    have hx4_2 : Rel ps_ z_ x4_2 := by
      unfold x4_2
      split
      · assumption
      · refine rel_ofsErr ?_ (Sub.trans (by decide) hp_)
        · refine rel_ofsCount ?_ (Sub.trans (by decide) hp_)
          · refine rel_wrOr ?_ (Sub.trans (by decide) hp_)
            · assumption
    clear_value x4_2
    refine iteP (P := Rel ps_ z_) ?_ ?_
    · assumption
    · refine rel_modSess ?_ (Sub.trans (by decide) hp_)
      · assumption

theorem rel_execStepBoundary {ps_ : List Part} {z_ : State} {berth : Nat} {s : State} (h1_ : Rel ps_ z_ s) (hp_ : Sub [.free, .tx, .regs, .counts, .shelf, .snd, .slv, .upd, .mem, .bytes, .lsh, .shg, .ofs, .quay, .rst] ps_) :
    Ends ps_ z_ (execStepBoundary berth s) := by
  unfold execStepBoundary
  refine ofNext ?_
  split
  · assumption
  · refine rel_skipRows ?_ (Sub.trans (by decide) hp_)
    · assumption
  · refine rel_startRound ?_ (Sub.trans (by decide) hp_)
    · refine rel_commitRows ?_ (Sub.trans (by decide) hp_)
      · assumption

theorem rel_execOfsSite {ps_ : List Part} {z_ : State} {h : EcpHdr} {site : Nat} {add : Bool} {round : Nat} {donor : Bool} {s : State} (h5_ : Rel ps_ z_ s) (hp_ : Sub [.free, .tx, .regs, .counts, .swl, .ofs, .quay] ps_) :
    Ends ps_ z_ (execOfsSite h site add round donor s) := by
  unfold execOfsSite
  refine ofNext ?_
  refine rel_ecpRun ?_ ?_ (Sub.trans (by decide) hp_)
  · assumption
  · intro a4_0 h4_0
    extract_lets -merge -underBinder x4_0
    clear_value x4_0
    split
    · refine ofPair ?_
      assumption
    · extract_lets -merge -underBinder x6_0 x6_1 x6_2 x6_3 x6_4 x6_5 x6_6
      clear_value x6_0 x6_1 x6_2 x6_3
      have hx6_4 : Rel ps_ z_ x6_4 := by
        unfold x6_4
        refine rel_modSess ?_ (Sub.trans (by decide) hp_)
        · assumption
      clear_value x6_4
      have hx6_5 : Rel ps_ z_ x6_5 := by
        unfold x6_5
        split
        · refine rel_dropPeerKeys ?_ (Sub.trans (by decide) hp_)
          · assumption
        · assumption
      clear_value x6_5
      have hx6_6 : Rel ps_ z_ x6_6 := by
        unfold x6_6
        refine rel_modSess ?_ (Sub.trans (by decide) hp_)
        · assumption
      clear_value x6_6
      refine iteP (P := Rel1 ps_ z_) ?_ ?_
      · refine ofPair ?_
        assumption
      · refine iteP (P := Rel1 ps_ z_) ?_ ?_
        · refine ofPair ?_
          refine rel_firstHandshake ?_ (Sub.trans (by decide) hp_)
          · assumption
        · refine ofPair ?_
          assumption

theorem rel_execOfsOpen {ps_ : List Part} {z_ : State} {h : EcpHdr} {p : OfsParams} {s : State} (h2_ : Rel ps_ z_ s) (hp_ : Sub [.free, .tx, .regs, .counts, .mem, .swl, .ofs, .quay] ps_) :
    Ends ps_ z_ (execOfsOpen h p s) := by
  unfold execOfsOpen
  refine ofNext ?_
  refine rel_ecpRun ?_ ?_ (Sub.trans (by decide) hp_)
  · assumption
  · intro a4_0 h4_0
    extract_lets -merge -underBinder x4_0 x4_1
    clear_value x4_0 x4_1
    refine iteP (P := Rel1 ps_ z_) ?_ ?_
    · refine ofPair ?_
      assumption
    · refine iteP (P := Rel1 ps_ z_) ?_ ?_
      · refine ofPair ?_
        assumption
      · split
        · refine ofPair ?_
          assumption
        · extract_lets -merge -underBinder x10_0 x10_1 x10_2 x10_3 x10_4
          clear_value x10_0 x10_1
          have hx10_2 : Rel ps_ z_ x10_2 := by
            unfold x10_2
            refine rel_modMem ?_ (hp_ _ (by decide)) rfl
            assumption
          clear_value x10_2
          have hx10_3 : Rel ps_ z_ x10_3 := by
            unfold x10_3
            refine rel_modOfs ?_ (Sub.trans (by decide) hp_)
            · assumption
          clear_value x10_3
          have hx10_4 : Rel ps_ z_ x10_4 := by
            unfold x10_4
            refine foldSP ?_ ?_ _
            · assumption
            · intro a14_0 a14_1 h14_0
              refine rel_firstHandshake ?_ (Sub.trans (by decide) hp_)
              · assumption
          clear_value x10_4
          refine ofPair ?_
          assumption

theorem rel_execOfsClose {ps_ : List Part} {z_ : State} {h : EcpHdr} {s : State} (h1_ : Rel ps_ z_ s) (hp_ : Sub [.free, .tx, .regs, .counts, .shelf, .snd, .slv, .upd, .mem, .bytes, .lsh, .shg, .swl, .ofs, .quay, .rst] ps_) :
    Ends ps_ z_ (execOfsClose h s) := by
  unfold execOfsClose
  refine ofNext ?_
  refine rel_ecpRun ?_ ?_ (Sub.trans (by decide) hp_)
  · assumption
  · intro a4_0 h4_0
    extract_lets -merge -underBinder x4_0
    clear_value x4_0
    split
    · refine ofPair ?_
      assumption
    · extract_lets -merge -underBinder x6_0 x6_1 x6_2
      have hx6_0 : Rel ps_ z_ x6_0 := by
        unfold x6_0
        refine rel_leaveSession ?_ (Sub.trans (by decide) hp_)
        · assumption
      clear_value x6_0
      have hx6_1 : Rel ps_ z_ x6_1 := by
        unfold x6_1
        refine iteP (P := Rel ps_ z_) ?_ ?_
        · refine rel_rowFive ?_ (Sub.trans (by decide) hp_)
          · assumption
        · assumption
      clear_value x6_1
      have hx6_2 : Rel ps_ z_ x6_2 := by
        unfold x6_2
        split
        · refine rel_finish ?_ (Sub.trans (by decide) hp_)
          · assumption
        · assumption
      clear_value x6_2
      refine ofPair ?_
      refine rel_startRekeys ?_ (Sub.trans (by decide) hp_)
      · assumption

theorem rel_execOfsRekey {ps_ : List Part} {z_ : State} {h : EcpHdr} {s : State} (h1_ : Rel ps_ z_ s) (hp_ : Sub [.free, .tx, .regs, .counts, .swl, .ofs, .quay] ps_) :
    Ends ps_ z_ (execOfsRekey h s) := by
  unfold execOfsRekey
  refine ofNext ?_
  refine rel_ecpRun ?_ ?_ (Sub.trans (by decide) hp_)
  · assumption
  · intro a4_0 h4_0
    refine iteP (P := Rel1 ps_ z_) ?_ ?_
    · refine ofPair ?_
      assumption
    · refine ofPair ?_
      refine rel_startRekeys ?_ (Sub.trans (by decide) hp_)
      · refine rel_markRekeys ?_ (Sub.trans (by decide) hp_)
        · assumption

theorem rel_endWait {ps_ : List Part} {z_ : State} {s : State} {b : Nat} (h0_ : Rel ps_ z_ s) (hp_ : Sub [.free, .tx, .regs, .counts, .shelf, .snd, .slv, .upd, .mem, .bytes, .lsh, .shg, .swl, .ofs, .quay, .rst] ps_) :
    Rel ps_ z_ (endWait s b) := by
  unfold endWait
  refine rel_applyRun ?_ (Sub.trans (by decide) hp_)
  · refine rel_modSess ?_ (Sub.trans (by decide) hp_)
    · refine rel_settleRound ?_ (Sub.trans (by decide) hp_)
      · refine rel_checkAnchors ?_ (Sub.trans (by decide) hp_)
        · assumption

theorem rel_execOffshoreWaitTimeout {ps_ : List Part} {z_ : State} {berth : Nat} {s : State} (h1_ : Rel ps_ z_ s) (hp_ : Sub [.free, .tx, .regs, .counts, .shelf, .snd, .slv, .upd, .mem, .bytes, .lsh, .shg, .swl, .ofs, .quay, .rst] ps_) :
    Ends ps_ z_ (execOffshoreWaitTimeout berth s) := by
  unfold execOffshoreWaitTimeout
  refine ofNext ?_
  split
  · refine iteP (P := Rel ps_ z_) ?_ ?_
    · refine rel_endWait ?_ (Sub.trans (by decide) hp_)
      · assumption
    · assumption
  · assumption

theorem rel_execOffshoreWaitEnd {ps_ : List Part} {z_ : State} {berth : Nat} {s : State} (h1_ : Rel ps_ z_ s) (hp_ : Sub [.free, .tx, .regs, .counts, .shelf, .snd, .slv, .upd, .mem, .bytes, .lsh, .shg, .swl, .ofs, .quay, .rst] ps_) :
    Ends ps_ z_ (execOffshoreWaitEnd berth s) := by
  unfold execOffshoreWaitEnd
  refine ofNext ?_
  split
  · refine iteP (P := Rel ps_ z_) ?_ ?_
    · refine rel_endWait ?_ (Sub.trans (by decide) hp_)
      · assumption
    · assumption
  · assumption

/-! ### OfsLink -/

theorem rel_sendNext {ps_ : List Part} {z_ : State} {s : State} {b : Nat} {p : Nat} {us : Nat} {x : Session} {q : OfsPeer} {k : Nat × Nat} (h0_ : Rel ps_ z_ s) (hp_ : Sub [.tx, .regs, .counts, .swl, .ofs, .quay] ps_) :
    Rel ps_ z_ (sendNext s b p us x q k) := by
  unfold sendNext
  split
  · assumption
  · extract_lets -merge -underBinder x4_0 x4_1 x4_2 x4_3
    clear_value x4_0
    have hx4_1 : Rel1 ps_ z_ x4_1 := by
      unfold x4_1
      refine rel_sealOfs ?_ (Sub.trans (by decide) hp_)
      · assumption
    clear_value x4_1 x4_2
    have hx4_3 : Rel ps_ z_ x4_3 := by
      unfold x4_3
      refine rel_modPeer ?_ (Sub.trans (by decide) hp_)
      · refine (?_ : Rel1 ps_ z_ _)
        assumption
    clear_value x4_3
    refine iteP (P := Rel ps_ z_) ?_ ?_
    · assumption
    · refine rel_sendOfs ?_ (Sub.trans (by decide) hp_)
      · refine rel_ofsCount ?_ (Sub.trans (by decide) hp_)
        · assumption

theorem rel_execOfsDataSend {ps_ : List Part} {z_ : State} {berth : Nat} {peer : Nat} {nowUs : Nat} {s : State} (h3_ : Rel ps_ z_ s) (hp_ : Sub [.tx, .regs, .counts, .swl, .ofs, .quay] ps_) :
    Ends ps_ z_ (execOfsDataSend berth peer nowUs s) := by
  unfold execOfsDataSend
  refine ofNext ?_
  split
  · split
    · refine iteP (P := Rel ps_ z_) ?_ ?_
      · assumption
      · refine rel_sendNext ?_ (Sub.trans (by decide) hp_)
        · assumption
    · assumption
  · assumption

theorem rel_mismatch {ps_ : List Part} {z_ : State} {s : State} {b : Nat} {p : OfsPkt} (h0_ : Rel ps_ z_ s) (hp_ : Sub [.regs, .counts, .ofs] ps_) :
    Rel ps_ z_ (mismatch s b p) := by
  unfold mismatch
  refine rel_ofsErr ?_ (Sub.trans (by decide) hp_)
  · refine rel_ofsCount ?_ (Sub.trans (by decide) hp_)
    · refine rel_wrOr ?_ (Sub.trans (by decide) hp_)
      · assumption

theorem rel_storePayload {ps_ : List Part} {z_ : State} {s : State} {b : Nat} {x : Session} {p : OfsPkt} {part : Nat} (h0_ : Rel ps_ z_ s) (hp_ : Sub [.regs, .counts, .ofs] ps_) :
    Rel1 ps_ z_ (storePayload s b x p part) := by
  unfold storePayload
  extract_lets -merge -underBinder x2_0 x2_1 x2_2
  clear_value x2_0 x2_1
  have hx2_2 : Rel ps_ z_ x2_2 := by
    unfold x2_2
    refine rel_ofsCount ?_ (Sub.trans (by decide) hp_)
    · refine rel_modSess ?_ (Sub.trans (by decide) hp_)
      · assumption
  clear_value x2_2
  refine iteP (P := Rel1 ps_ z_) ?_ ?_
  · refine ofPair ?_
    refine rel_ofsCount ?_ (Sub.trans (by decide) hp_)
    · assumption
  · refine iteP (P := Rel1 ps_ z_) ?_ ?_
    · refine ofPair ?_
      refine rel_mismatch ?_ (Sub.trans (by decide) hp_)
      · assumption
    · refine iteP (P := Rel1 ps_ z_) ?_ ?_
      · refine ofPair ?_
        refine rel_mismatch ?_ (Sub.trans (by decide) hp_)
        · assumption
      · refine iteP (P := Rel1 ps_ z_) ?_ ?_
        · refine ofPair ?_
          refine rel_ofsCount ?_ (Sub.trans (by decide) hp_)
          · assumption
        · refine iteP (P := Rel1 ps_ z_) ?_ ?_
          · refine ofPair ?_
            refine rel_ofsCount ?_ (Sub.trans (by decide) hp_)
            · assumption
          · refine ofPair ?_
            refine rel_modRecv ?_ (Sub.trans (by decide) hp_)
            · assumption

theorem rel_waitGoesOn {ps_ : List Part} {z_ : State} {s : State} {b : Nat} (h0_ : Rel ps_ z_ s) (hp_ : Sub [.free, .tx, .regs, .counts, .shelf, .snd, .slv, .upd, .mem, .bytes, .lsh, .shg, .swl, .ofs, .quay, .rst] ps_) :
    Rel ps_ z_ (waitGoesOn s b) := by
  unfold waitGoesOn
  split
  · refine iteP (P := Rel ps_ z_) ?_ ?_
    · refine rel_endWait ?_ (Sub.trans (by decide) hp_)
      · assumption
    · assumption
  · assumption

theorem rel_joinFailed {ps_ : List Part} {z_ : State} {s : State} {b : Nat} {p : Nat} {x : Session} (h0_ : Rel ps_ z_ s) (hp_ : Sub [.tx, .regs, .counts, .mem, .bytes, .shg, .swl, .ofs, .quay] ps_) :
    Rel ps_ z_ (joinFailed s b p x) := by
  unfold joinFailed
  extract_lets -merge -underBinder x2_0 x2_1
  clear_value x2_0
  have hx2_1 : Rel ps_ z_ x2_1 := by
    unfold x2_1
    refine rel_event ?_ (Sub.trans (by decide) hp_)
    · refine rel_ofsErr ?_ (Sub.trans (by decide) hp_)
      · assumption
  clear_value x2_1
  refine iteP (P := Rel ps_ z_) ?_ ?_
  · split
    · refine rel_finish ?_ (Sub.trans (by decide) hp_)
      · refine rel_leaveSession ?_ (Sub.trans (by decide) hp_)
        · assumption
    · refine rel_leaveSession ?_ (Sub.trans (by decide) hp_)
      · assumption
  · assumption

theorem rel_wrongObject {ps_ : List Part} {z_ : State} {s : State} {b : Nat} {x : Session} {p : OfsPkt} (h0_ : Rel ps_ z_ s) (hp_ : Sub [.ofs] ps_) :
    Rel ps_ z_ (wrongObject s b x p) := by
  unfold wrongObject
  refine rel_modRecv ?_ (Sub.trans (by decide) hp_)
  · refine rel_modSess ?_ (Sub.trans (by decide) hp_)
    · assumption

theorem rel_clearAlarm {ps_ : List Part} {z_ : State} {s : State} {c : CrsWrite} {firing : Nat} (h0_ : Rel ps_ z_ s) (hp_ : Sub [.free, .tx, .regs, .counts, .ofs] ps_) :
    Rel ps_ z_ (clearAlarm s c firing) := by
  unfold clearAlarm
  extract_lets -merge -underBinder x2_0
  have hx2_0 : Rel ps_ z_ x2_0 := by
    unfold x2_0
    refine rel_storeWrite ?_ (Sub.trans (by decide) hp_)
    · assumption
  clear_value x2_0
  refine iteP (P := Rel ps_ z_) ?_ ?_
  · assumption
  · refine rel_resetHandshakes ?_ (Sub.trans (by decide) hp_)
    · refine rel_wr ?_ (Sub.trans (by decide) hp_)
      · assumption

theorem rel_execAlarmClear {ps_ : List Part} {z_ : State} {w : CrsWrite} {firing : BitVec 4} {s : State} (h2_ : Rel ps_ z_ s) (hp_ : Sub [.free, .tx, .regs, .counts, .ofs] ps_) :
    Ends ps_ z_ (execAlarmClear w firing s) := by
  unfold execAlarmClear
  refine ofNext ?_
  refine rel_clearAlarm ?_ (Sub.trans (by decide) hp_)
  · assumption

theorem rel_execPacingRateStep {ps_ : List Part} {z_ : State} {berth : Nat} {peer : Nat} {nowUs : Nat} {s : State} (h3_ : Rel ps_ z_ s) (hp_ : Sub [.ofs] ps_) :
    Ends ps_ z_ (execPacingRateStep berth peer nowUs s) := by
  unfold execPacingRateStep
  refine ofNext ?_
  split
  · assumption
  · refine iteP (P := Rel ps_ z_) ?_ ?_
    · refine rel_modPeer ?_ (Sub.trans (by decide) hp_)
      · assumption
    · assumption

theorem rel_resetOffshore {ps_ : List Part} {z_ : State} {s : State} (h0_ : Rel ps_ z_ s) (hp_ : Sub [.ofs] ps_) :
    Rel ps_ z_ (resetOffshore s) := by
  unfold resetOffshore
  extract_lets -merge -underBinder x2_0
  clear_value x2_0
  refine foldSP ?_ ?_ _
  · assumption
  · intro a4_0 a4_1 h4_0
    refine rel_modSess ?_ (Sub.trans (by decide) hp_)
    · assumption

theorem rel_authDiscard {ps_ : List Part} {z_ : State} {s : State} {b : Nat} {p : OfsPkt} (h0_ : Rel ps_ z_ s) (hp_ : Sub [.regs, .counts, .ofs] ps_) :
    Rel ps_ z_ (authDiscard s b p) := by
  unfold authDiscard
  refine rel_ofsErr ?_ (Sub.trans (by decide) hp_)
  · refine rel_ofsCount ?_ (Sub.trans (by decide) hp_)
    · refine rel_wrOr ?_ (Sub.trans (by decide) hp_)
      · assumption

theorem rel_takeLate {ps_ : List Part} {z_ : State} {s : State} {b : Nat} {x : Session} {p : OfsPkt} (h0_ : Rel ps_ z_ s) (hp_ : Sub [.regs, .counts, .ofs] ps_) :
    Rel ps_ z_ (takeLate s b x p) := by
  unfold takeLate
  extract_lets -merge -underBinder x2_0 x2_1
  clear_value x2_0
  have hx2_1 : Rel ps_ z_ x2_1 := by
    unfold x2_1
    refine rel_modSess ?_ (Sub.trans (by decide) hp_)
    · assumption
  clear_value x2_1
  refine iteP (P := Rel ps_ z_) ?_ ?_
  · refine rel_ofsErr ?_ (Sub.trans (by decide) hp_)
    · refine rel_ofsCount ?_ (Sub.trans (by decide) hp_)
      · refine rel_wrOr ?_ (Sub.trans (by decide) hp_)
        · assumption
  · refine rel_ofsCount ?_ (Sub.trans (by decide) hp_)
    · assumption

theorem rel_takeData {ps_ : List Part} {z_ : State} {s : State} {b : Nat} {p : OfsPkt} (h0_ : Rel ps_ z_ s) (hp_ : Sub [.regs, .counts, .shg, .ofs] ps_) :
    Rel1 ps_ z_ (takeData s b p) := by
  unfold takeData
  split
  · refine ofPair ?_
    assumption
  · extract_lets -merge -underBinder x4_0
    clear_value x4_0
    refine iteP (P := Rel1 ps_ z_) ?_ ?_
    · refine ofPair ?_
      refine rel_takeLate ?_ (Sub.trans (by decide) hp_)
      · assumption
    · refine iteP (P := Rel1 ps_ z_) ?_ ?_
      · refine ofPair ?_
        refine rel_ofsCount ?_ (Sub.trans (by decide) hp_)
        · assumption
      · split
        · refine ofPair ?_
          refine rel_mismatch ?_ (Sub.trans (by decide) hp_)
          · assumption
        · extract_lets -merge -underBinder x10_0 x10_1
          clear_value x10_0
          have hx10_1 : Rel1 ps_ z_ x10_1 := by
            unfold x10_1
            refine rel_storePayload ?_ (Sub.trans (by decide) hp_)
            · assumption
          clear_value x10_1
          refine iteP (P := Rel1 ps_ z_) ?_ ?_
          · refine iteP (P := Rel1 ps_ z_) ?_ ?_
            · refine ofPair ?_
              refine rel_ofsCount ?_ (Sub.trans (by decide) hp_)
              · assumption
            · refine ofPair ?_
              refine rel_modRecv ?_ (Sub.trans (by decide) hp_)
              · refine rel_modSess ?_ (Sub.trans (by decide) hp_)
                · assumption
          · refine iteP (P := Rel1 ps_ z_) ?_ ?_
            · refine ofPair ?_
              refine rel_wrongObject ?_ (Sub.trans (by decide) hp_)
              · refine rel_mismatch ?_ (Sub.trans (by decide) hp_)
                · assumption
            · refine ofPair ?_
              refine rel_completeAll ?_ (Sub.trans (by decide) hp_)
              · refine (?_ : Rel1 ps_ z_ _)
                assumption

theorem rel_resendOfs {ps_ : List Part} {z_ : State} {b : Nat} {p : Nat} {us : Nat} {s : State} {e : OfsSent} (h3_ : Rel ps_ z_ s) (hp_ : Sub [.tx, .counts, .ofs] ps_) :
    Rel ps_ z_ (resendOfs b p us s e) := by
  unfold resendOfs
  split
  · assumption
  · extract_lets -merge -underBinder x4_0 x4_1 x4_2
    clear_value x4_0 x4_1 x4_2
    refine rel_modPeer ?_ (Sub.trans (by decide) hp_)
    · refine rel_sendOfs ?_ (Sub.trans (by decide) hp_)
      · refine rel_ofsCount ?_ (Sub.trans (by decide) hp_)
        · assumption

theorem rel_switchRoute {ps_ : List Part} {z_ : State} {s : State} {b : Nat} {p : Nat} {route : Nat} {us : Nat} {failed : Bool} (h0_ : Rel ps_ z_ s) (hp_ : Sub [.tx, .regs, .counts, .ofs] ps_) :
    Rel ps_ z_ (switchRoute s b p route us failed) := by
  unfold switchRoute
  split
  · assumption
  · extract_lets -merge -underBinder x4_0 x4_1 x4_2
    have hx4_0 : Rel ps_ z_ x4_0 := by
      unfold x4_0
      refine rel_modPeer ?_ (Sub.trans (by decide) hp_)
      · assumption
    clear_value x4_0
    have hx4_1 : Rel ps_ z_ x4_1 := by
      unfold x4_1
      refine rel_ofsCount ?_ (Sub.trans (by decide) hp_)
      · assumption
    clear_value x4_1 x4_2
    refine iteP (P := Rel ps_ z_) ?_ ?_
    · refine foldSP ?_ ?_ _
      · refine rel_wrOr ?_ (Sub.trans (by decide) hp_)
        · assumption
      · intro a8_0 a8_1 h8_0
        refine rel_resendOfs ?_ (Sub.trans (by decide) hp_)
        · assumption
    · assumption

theorem rel_execRouteDown {ps_ : List Part} {z_ : State} {berth : Nat} {peer : Nat} {route : Nat} {nowUs : Nat} {s : State} (h4_ : Rel ps_ z_ s) (hp_ : Sub [.tx, .regs, .counts, .ofs] ps_) :
    Ends ps_ z_ (execRouteDown berth peer route nowUs s) := by
  unfold execRouteDown
  refine ofNext ?_
  split
  · assumption
  · extract_lets -merge -underBinder x4_0
    have hx4_0 : Rel ps_ z_ x4_0 := by
      unfold x4_0
      refine iteP (P := Rel ps_ z_) ?_ ?_
      · refine rel_modPeer ?_ (Sub.trans (by decide) hp_)
        · assumption
      · assumption
    clear_value x4_0
    refine iteP (P := Rel ps_ z_) ?_ ?_
    · assumption
    · refine iteP (P := Rel ps_ z_) ?_ ?_
      · refine rel_switchRoute ?_ (Sub.trans (by decide) hp_)
        · assumption
      · assumption

theorem rel_execHandshakeRetry {ps_ : List Part} {z_ : State} {berth : Nat} {peer : Nat} {s : State} (h2_ : Rel ps_ z_ s) (hp_ : Sub [.free, .tx, .counts, .ofs] ps_) :
    Ends ps_ z_ (execHandshakeRetry berth peer s) := by
  unfold execHandshakeRetry
  refine ofNext ?_
  split
  · assumption
  · split
    · assumption
    · split
      · refine iteP (P := Rel ps_ z_) ?_ ?_
        · refine rel_beginHandshake ?_ (Sub.trans (by decide) hp_)
          · assumption
        · assumption
      · assumption

theorem rel_handshakeFails {ps_ : List Part} {z_ : State} {s : State} {b : Nat} {p : Nat} (h0_ : Rel ps_ z_ s) (hp_ : Sub [.regs, .ofs] ps_) :
    Rel ps_ z_ (handshakeFails s b p) := by
  unfold handshakeFails
  refine rel_modPeer ?_ (Sub.trans (by decide) hp_)
  · refine rel_wrOr ?_ (Sub.trans (by decide) hp_)
    · assumption

theorem rel_identityFails {ps_ : List Part} {z_ : State} {s : State} {b : Nat} {p : OfsPkt} (h0_ : Rel ps_ z_ s) (hp_ : Sub [.regs, .ofs] ps_) :
    Rel ps_ z_ (identityFails s b p) := by
  unfold identityFails
  refine rel_handshakeFails ?_ (Sub.trans (by decide) hp_)
  · refine rel_ofsErr ?_ (Sub.trans (by decide) hp_)
    · assumption

theorem rel_keyReceive {ps_ : List Part} {z_ : State} {s : State} {type : Nat} {p : OfsPkt} {len : Nat} {body : State → Nat → Session → OfsPeer → State} (h0_ : Rel ps_ z_ s) (h4_ : ∀ a0, Rel ps_ z_ a0 → ∀ a1, ∀ a2, ∀ a3, Rel ps_ z_ (body a0 a1 a2 a3)) (hp_ : Sub [.regs, .counts, .ofs] ps_) :
    Rel ps_ z_ (keyReceive s type p len body) := by
  unfold keyReceive
  extract_lets -merge -underBinder x2_0
  have hx2_0 : Rel ps_ z_ x2_0 := by
    unfold x2_0
    refine rel_countFrame ?_ (Sub.trans (by decide) hp_)
    · assumption
  clear_value x2_0
  refine iteP (P := Rel ps_ z_) ?_ ?_
  · assumption
  · split
    · refine rel_authDiscard ?_ (Sub.trans (by decide) hp_)
      · assumption
    · split
      · refine iteP (P := Rel ps_ z_) ?_ ?_
        · refine rel_authDiscard ?_ (Sub.trans (by decide) hp_)
          · assumption
        · refine iteP (P := Rel ps_ z_) ?_ ?_
          · refine rel_ofsCount ?_ (Sub.trans (by decide) hp_)
            · assumption
          · refine iteP (P := Rel ps_ z_) ?_ ?_
            · assumption
            · refine h4_ _ ?_ _ _ _
              assumption
      · refine rel_authDiscard ?_ (Sub.trans (by decide) hp_)
        · assumption

theorem rel_execOfsProbeSend {ps_ : List Part} {z_ : State} {berth : Nat} {peer : Nat} {nowUs : Nat} {s : State} (h3_ : Rel ps_ z_ s) (hp_ : Sub [.tx, .regs, .counts, .swl, .ofs, .quay] ps_) :
    Ends ps_ z_ (execOfsProbeSend berth peer nowUs s) := by
  unfold execOfsProbeSend
  refine ofNext ?_
  split
  · split
    · extract_lets -merge -underBinder x6_0 x6_1
      clear_value x6_0
      have hx6_1 : ∀ a0, Rel ps_ z_ a0 → ∀ a1, Rel ps_ z_ (x6_1 a0 a1) := by
        intro a0_ h0_ a1_
        unfold x6_1
        extract_lets -merge -underBinder x8_0
        clear_value x8_0
        refine rel_sendSealed ?_ (Sub.trans (by decide) hp_)
        · assumption
      clear_value x6_1
      refine iteP (P := Rel ps_ z_) ?_ ?_
      · assumption
      · refine rel_modPeer ?_ (Sub.trans (by decide) hp_)
        · refine hx6_1 _ ?_ _
          refine hx6_1 _ ?_ _
          assumption
    · assumption
  · assumption

theorem rel_hearPeer {ps_ : List Part} {z_ : State} {s : State} {b : Nat} {p : OfsPkt} {us : Nat} (h0_ : Rel ps_ z_ s) (hp_ : Sub [.ofs] ps_) :
    Rel ps_ z_ (hearPeer s b p us) := by
  unfold hearPeer
  refine rel_modPeer ?_ (Sub.trans (by decide) hp_)
  · assumption

theorem rel_heard {ps_ : List Part} {z_ : State} {s : State} {b : Nat} {p : OfsPkt} {us : Nat} (h0_ : Rel ps_ z_ s) (hp_ : Sub [.free, .tx, .counts, .swl, .ofs] ps_) :
    Rel ps_ z_ (heard s b p us) := by
  unfold heard
  extract_lets -merge -underBinder x2_0
  have hx2_0 : Rel ps_ z_ x2_0 := by
    unfold x2_0
    refine rel_modPeer ?_ (Sub.trans (by decide) hp_)
    · refine rel_hearPeer ?_ (Sub.trans (by decide) hp_)
      · assumption
  clear_value x2_0
  refine rel_eraseOld ?_ (Sub.trans (by decide) hp_)
  · assumption

theorem rel_ofsReceive {ps_ : List Part} {z_ : State} {s : State} {type : Nat} {p : OfsPkt} {us : Nat} {body : State → Nat → State} (h0_ : Rel ps_ z_ s) (h4_ : ∀ a0, Rel ps_ z_ a0 → ∀ a1, Rel ps_ z_ (body a0 a1)) (hp_ : Sub [.free, .tx, .regs, .counts, .swl, .ofs] ps_) :
    Rel ps_ z_ (ofsReceive s type p us body) := by
  unfold ofsReceive
  extract_lets -merge -underBinder x2_0
  have hx2_0 : Rel ps_ z_ x2_0 := by
    unfold x2_0
    refine rel_countFrame ?_ (Sub.trans (by decide) hp_)
    · assumption
  clear_value x2_0
  refine iteP (P := Rel ps_ z_) ?_ ?_
  · assumption
  · split
    · refine rel_authDiscard ?_ (Sub.trans (by decide) hp_)
      · assumption
    · split
      · split
        · refine rel_authDiscard ?_ (Sub.trans (by decide) hp_)
          · assumption
        · extract_lets -merge -underBinder x10_0
          have hx10_0 : Rel ps_ z_ x10_0 := by
            unfold x10_0
            refine rel_count ?_ (Sub.trans (by decide) hp_)
            · assumption
          clear_value x10_0
          refine iteP (P := Rel ps_ z_) ?_ ?_
          · assumption
          · refine iteP (P := Rel ps_ z_) ?_ ?_
            · refine rel_authDiscard ?_ (Sub.trans (by decide) hp_)
              · refine rel_tagFailed ?_ (Sub.trans (by decide) hp_)
                · assumption
            · refine iteP (P := Rel ps_ z_) ?_ ?_
              · refine rel_ofsCount ?_ (Sub.trans (by decide) hp_)
                · assumption
              · refine h4_ _ ?_ _
                refine rel_heard ?_ (Sub.trans (by decide) hp_)
                · assumption
      · refine rel_authDiscard ?_ (Sub.trans (by decide) hp_)
        · assumption

theorem rel_sendSack {ps_ : List Part} {z_ : State} {s : State} {b : Nat} {p : Nat} {us : Nat} (h0_ : Rel ps_ z_ s) (hp_ : Sub [.tx, .regs, .counts, .swl, .ofs, .quay] ps_) :
    Rel ps_ z_ (sendSack s b p us) := by
  unfold sendSack
  split
  · split
    · extract_lets -merge -underBinder x6_0 x6_1
      clear_value x6_0
      have hx6_1 : Rel ps_ z_ x6_1 := by
        unfold x6_1
        refine rel_sendSealed ?_ (Sub.trans (by decide) hp_)
        · assumption
      clear_value x6_1
      refine iteP (P := Rel ps_ z_) ?_ ?_
      · assumption
      · refine rel_modPeer ?_ (Sub.trans (by decide) hp_)
        · assumption
    · assumption
  · assumption

theorem rel_ackLater {ps_ : List Part} {z_ : State} {s : State} {b : Nat} {p : OfsPkt} {us : Nat} (h0_ : Rel ps_ z_ s) (hp_ : Sub [.tx, .regs, .counts, .swl, .ofs, .quay] ps_) :
    Rel ps_ z_ (ackLater s b p us) := by
  unfold ackLater
  extract_lets -merge -underBinder x2_0
  have hx2_0 : Rel ps_ z_ x2_0 := by
    unfold x2_0
    refine rel_modPeer ?_ (Sub.trans (by decide) hp_)
    · assumption
  clear_value x2_0
  split
  · refine iteP (P := Rel ps_ z_) ?_ ?_
    · refine rel_sendSack ?_ (Sub.trans (by decide) hp_)
      · assumption
    · assumption
  · assumption

theorem rel_execOfsDataReceive {ps_ : List Part} {z_ : State} {p : OfsPkt} {nowUs : Nat} {s : State} (h2_ : Rel ps_ z_ s) (hp_ : Sub [.free, .tx, .regs, .counts, .shg, .swl, .ofs, .quay] ps_) :
    Ends ps_ z_ (execOfsDataReceive p nowUs s) := by
  unfold execOfsDataReceive
  refine ofNext ?_
  refine rel_ofsReceive ?_ ?_ (Sub.trans (by decide) hp_)
  · assumption
  · intro a4_0 a4_1 h4_0
    extract_lets -merge -underBinder x4_0
    have hx4_0 : Rel1 ps_ z_ x4_0 := by
      unfold x4_0
      refine rel_takeData ?_ (Sub.trans (by decide) hp_)
      · assumption
    clear_value x4_0
    refine iteP (P := Rel ps_ z_) ?_ ?_
    · refine rel_ackLater ?_ (Sub.trans (by decide) hp_)
      · refine (?_ : Rel1 ps_ z_ _)
        assumption
    · refine (?_ : Rel1 ps_ z_ _)
      assumption

theorem rel_execKeyRespReceive {ps_ : List Part} {z_ : State} {p : OfsPkt} {nowUs : Nat} {s : State} (h2_ : Rel ps_ z_ s) (hp_ : Sub [.regs, .counts, .shg, .swl, .ofs] ps_) :
    Ends ps_ z_ (execKeyRespReceive p nowUs s) := by
  unfold execKeyRespReceive
  refine ofNext ?_
  refine rel_keyReceive ?_ ?_ (Sub.trans (by decide) hp_)
  · assumption
  · intro a4_0 a4_1 a4_2 a4_3 h4_0
    split
    · assumption
    · extract_lets -merge -underBinder x6_0 x6_1 x6_2
      clear_value x6_0 x6_1 x6_2
      refine iteP (P := Rel ps_ z_) ?_ ?_
      · assumption
      · refine iteP (P := Rel ps_ z_) ?_ ?_
        · refine rel_identityFails ?_ (Sub.trans (by decide) hp_)
          · assumption
        · refine rel_settleSlots ?_ (Sub.trans (by decide) hp_)
          · refine rel_installKey ?_ (Sub.trans (by decide) hp_)
            · refine rel_hearPeer ?_ (Sub.trans (by decide) hp_)
              · assumption

theorem rel_execPeerLost {ps_ : List Part} {z_ : State} {berth : Nat} {peer : Nat} {s : State} (h2_ : Rel ps_ z_ s) (hp_ : Sub [.free, .tx, .regs, .counts, .shelf, .snd, .slv, .upd, .mem, .bytes, .lsh, .shg, .swl, .ofs, .quay, .rst] ps_) :
    Ends ps_ z_ (execPeerLost berth peer s) := by
  unfold execPeerLost
  refine ofNext ?_
  split
  · extract_lets -merge -underBinder x4_0 x4_1 x4_2 x4_3 x4_4
    have hx4_0 : Rel ps_ z_ x4_0 := by
      unfold x4_0
      split
      · refine rel_clearKeySlot ?_ (Sub.trans (by decide) hp_)
        · assumption
      · assumption
    clear_value x4_0
    have hx4_1 : Rel ps_ z_ x4_1 := by
      unfold x4_1
      refine rel_modPeer ?_ (Sub.trans (by decide) hp_)
      · assumption
    clear_value x4_1
    have hx4_2 : Rel ps_ z_ x4_2 := by
      unfold x4_2
      refine rel_modOfs ?_ (Sub.trans (by decide) hp_)
      · refine rel_abandonPeer ?_ (Sub.trans (by decide) hp_)
        · assumption
    clear_value x4_2
    have hx4_3 : Rel ps_ z_ x4_3 := by
      unfold x4_3
      refine rel_ofsErr ?_ (Sub.trans (by decide) hp_)
      · refine rel_wrOr ?_ (Sub.trans (by decide) hp_)
        · assumption
    clear_value x4_3
    have hx4_4 : Rel ps_ z_ x4_4 := by
      unfold x4_4
      refine rel_event ?_ (Sub.trans (by decide) hp_)
      · assumption
    clear_value x4_4
    refine iteP (P := Rel ps_ z_) ?_ ?_
    · assumption
    · refine rel_ofsContinueAll ?_ (Sub.trans (by decide) hp_)
      · refine rel_startRekeys ?_ (Sub.trans (by decide) hp_)
        · refine rel_waitGoesOn ?_ (Sub.trans (by decide) hp_)
          · refine rel_joinFailed ?_ (Sub.trans (by decide) hp_)
            · assumption
  · assumption

theorem rel_takeSnap {ps_ : List Part} {z_ : State} {s : State} {b : Nat} {p : OfsPkt} (h0_ : Rel ps_ z_ s) (hp_ : Sub [.tx, .regs, .counts, .upd, .mem, .bytes, .shg, .ofs, .quay] ps_) :
    Rel1 ps_ z_ (takeSnap s b p) := by
  unfold takeSnap
  split
  · refine ofPair ?_
    assumption
  · extract_lets -merge -underBinder x4_0 x4_1 x4_2 x4_3
    clear_value x4_0 x4_1
    have hx4_2 : Rel1 ps_ z_ x4_2 := by
      unfold x4_2
      refine rel_storePayload ?_ (Sub.trans (by decide) hp_)
      · assumption
    clear_value x4_2 x4_3
    refine iteP (P := Rel1 ps_ z_) ?_ ?_
    · refine ofPair ?_
      refine rel_ofsCount ?_ (Sub.trans (by decide) hp_)
      · assumption
    · refine iteP (P := Rel1 ps_ z_) ?_ ?_
      · refine ofPair ?_
        refine rel_mismatch ?_ (Sub.trans (by decide) hp_)
        · assumption
      · refine ofPair ?_
        refine rel_installAll ?_ (Sub.trans (by decide) hp_)
        · refine rel_modRecv ?_ (Sub.trans (by decide) hp_)
          · refine (?_ : Rel1 ps_ z_ _)
            assumption

theorem rel_execHandshakeTimeout {ps_ : List Part} {z_ : State} {berth : Nat} {peer : Nat} {nowUs : Nat} {s : State} (h3_ : Rel ps_ z_ s) (hp_ : Sub [.regs, .ofs] ps_) :
    Ends ps_ z_ (execHandshakeTimeout berth peer nowUs s) := by
  unfold execHandshakeTimeout
  refine ofNext ?_
  split
  · split
    · refine iteP (P := Rel ps_ z_) ?_ ?_
      · refine rel_handshakeFails ?_ (Sub.trans (by decide) hp_)
        · assumption
      · assumption
    · assumption
  · assumption

theorem rel_execOfsProbeReceive {ps_ : List Part} {z_ : State} {p : OfsPkt} {nowUs : Nat} {s : State} (h2_ : Rel ps_ z_ s) (hp_ : Sub [.free, .tx, .regs, .counts, .swl, .ofs] ps_) :
    Ends ps_ z_ (execOfsProbeReceive p nowUs s) := by
  unfold execOfsProbeReceive
  refine ofNext ?_
  refine rel_ofsReceive ?_ ?_ (Sub.trans (by decide) hp_)
  · assumption
  · intro a4_0 a4_1 h4_0
    extract_lets -merge -underBinder x4_0
    have hx4_0 : Rel ps_ z_ x4_0 := by
      unfold x4_0
      refine rel_modPeer ?_ (Sub.trans (by decide) hp_)
      · assumption
    clear_value x4_0
    split
    · assumption
    · refine iteP (P := Rel ps_ z_) ?_ ?_
      · refine rel_switchRoute ?_ (Sub.trans (by decide) hp_)
        · assumption
      · refine iteP (P := Rel ps_ z_) ?_ ?_
        · refine rel_switchRoute ?_ (Sub.trans (by decide) hp_)
          · assumption
        · assumption

theorem rel_sendResp {ps_ : List Part} {z_ : State} {s : State} {b : Nat} {p : Nat} {x : Session} {q : OfsPeer} {e : Nat} {reset : Bool} {payload : List Byte} (h0_ : Rel ps_ z_ s) (hp_ : Sub [.tx, .counts] ps_) :
    Rel ps_ z_ (sendResp s b p x q e reset payload) := by
  unfold sendResp
  extract_lets -merge -underBinder x2_0
  clear_value x2_0
  refine rel_sendOfs ?_ (Sub.trans (by decide) hp_)
  · assumption

theorem rel_execOfsSackReceive {ps_ : List Part} {z_ : State} {p : OfsPkt} {nowUs : Nat} {s : State} (h2_ : Rel ps_ z_ s) (hp_ : Sub [.free, .tx, .regs, .counts, .shelf, .snd, .slv, .upd, .mem, .bytes, .lsh, .shg, .swl, .ofs, .quay, .rst] ps_) :
    Ends ps_ z_ (execOfsSackReceive p nowUs s) := by
  unfold execOfsSackReceive
  refine ofNext ?_
  refine rel_ofsReceive ?_ ?_ (Sub.trans (by decide) hp_)
  · assumption
  · intro a4_0 a4_1 h4_0
    extract_lets -merge -underBinder x4_0 x4_1 x4_2 x4_3
    clear_value x4_0
    have hx4_1 : Rel ps_ z_ x4_1 := by
      unfold x4_1
      refine rel_modPeer ?_ (Sub.trans (by decide) hp_)
      · assumption
    clear_value x4_1 x4_2
    have hx4_3 : Rel ps_ z_ x4_3 := by
      unfold x4_3
      refine foldSP ?_ ?_ _
      · assumption
      · intro a8_0 a8_1 h8_0
        refine rel_resendOfs ?_ (Sub.trans (by decide) hp_)
        · assumption
    clear_value x4_3
    refine rel_ofsContinueAll ?_ (Sub.trans (by decide) hp_)
    · refine rel_eraseOld ?_ (Sub.trans (by decide) hp_)
      · refine rel_settleSlots ?_ (Sub.trans (by decide) hp_)
        · assumption

theorem rel_execOfsSnapReceive {ps_ : List Part} {z_ : State} {p : OfsPkt} {nowUs : Nat} {s : State} (h2_ : Rel ps_ z_ s) (hp_ : Sub [.free, .tx, .regs, .counts, .upd, .mem, .bytes, .shg, .swl, .ofs, .quay] ps_) :
    Ends ps_ z_ (execOfsSnapReceive p nowUs s) := by
  unfold execOfsSnapReceive
  refine ofNext ?_
  refine rel_ofsReceive ?_ ?_ (Sub.trans (by decide) hp_)
  · assumption
  · intro a4_0 a4_1 h4_0
    extract_lets -merge -underBinder x4_0
    have hx4_0 : Rel1 ps_ z_ x4_0 := by
      unfold x4_0
      refine rel_takeSnap ?_ (Sub.trans (by decide) hp_)
      · assumption
    clear_value x4_0
    refine iteP (P := Rel ps_ z_) ?_ ?_
    · refine rel_ackLater ?_ (Sub.trans (by decide) hp_)
      · refine (?_ : Rel1 ps_ z_ _)
        assumption
    · refine (?_ : Rel1 ps_ z_ _)
      assumption

theorem rel_execOfsRtoExpiry {ps_ : List Part} {z_ : State} {berth : Nat} {peer : Nat} {nowUs : Nat} {s : State} (h3_ : Rel ps_ z_ s) (hp_ : Sub [.tx, .counts, .ofs] ps_) :
    Ends ps_ z_ (execOfsRtoExpiry berth peer nowUs s) := by
  unfold execOfsRtoExpiry
  refine ofNext ?_
  split
  · assumption
  · extract_lets -merge -underBinder x4_0 x4_1
    clear_value x4_0
    have hx4_1 : Rel ps_ z_ x4_1 := by
      unfold x4_1
      refine rel_modPeer ?_ (Sub.trans (by decide) hp_)
      · assumption
    clear_value x4_1
    refine iteP (P := Rel ps_ z_) ?_ ?_
    · assumption
    · refine foldSP ?_ ?_ _
      · assumption
      · intro a8_0 a8_1 h8_0
        refine rel_resendOfs ?_ (Sub.trans (by decide) hp_)
        · assumption

theorem rel_execKeyInitResend {ps_ : List Part} {z_ : State} {berth : Nat} {peer : Nat} {nowUs : Nat} {s : State} (h3_ : Rel ps_ z_ s) (hp_ : Sub [.tx, .counts, .ofs] ps_) :
    Ends ps_ z_ (execKeyInitResend berth peer nowUs s) := by
  unfold execKeyInitResend
  refine ofNext ?_
  split
  · split
    · refine iteP (P := Rel ps_ z_) ?_ ?_
      · assumption
      · refine rel_sendInit ?_ (Sub.trans (by decide) hp_)
        · refine rel_modPeer ?_ (Sub.trans (by decide) hp_)
          · assumption
    · assumption
  · assumption

theorem rel_execOfsSackSend {ps_ : List Part} {z_ : State} {berth : Nat} {peer : Nat} {nowUs : Nat} {s : State} (h3_ : Rel ps_ z_ s) (hp_ : Sub [.tx, .regs, .counts, .swl, .ofs, .quay] ps_) :
    Ends ps_ z_ (execOfsSackSend berth peer nowUs s) := by
  unfold execOfsSackSend
  refine ofNext ?_
  split
  · split
    · refine iteP (P := Rel ps_ z_) ?_ ?_
      · refine rel_sendSack ?_ (Sub.trans (by decide) hp_)
        · assumption
      · assumption
    · assumption
  · assumption

theorem rel_execKeyInitReceive {ps_ : List Part} {z_ : State} {p : OfsPkt} {nowUs : Nat} {s : State} (h2_ : Rel ps_ z_ s) (hp_ : Sub [.free, .tx, .regs, .counts, .shg, .swl, .ofs] ps_) :
    Ends ps_ z_ (execKeyInitReceive p nowUs s) := by
  unfold execKeyInitReceive
  refine ofNext ?_
  refine rel_keyReceive ?_ ?_ (Sub.trans (by decide) hp_)
  · assumption
  · intro a4_0 a4_1 a4_2 a4_3 h4_0
    extract_lets -merge -underBinder x4_0 x4_1 x4_2 x4_3 x4_4 x4_5 x4_6 x4_7 x4_8 x4_9
    clear_value x4_0 x4_1 x4_2
    have hx4_3 : Rel ps_ z_ x4_3 := by
      unfold x4_3
      refine rel_hearPeer ?_ (Sub.trans (by decide) hp_)
      · assumption
    clear_value x4_3 x4_4 x4_5 x4_6
    have hx4_7 : Rel ps_ z_ x4_7 := by
      unfold x4_7
      refine rel_modOfs ?_ (Sub.trans (by decide) hp_)
      · refine rel_useFree ?_ (hp_ _ (by decide))
        · assumption
    clear_value x4_7
    have hx4_8 : Rel ps_ z_ x4_8 := by
      unfold x4_8
      refine rel_installKey ?_ (Sub.trans (by decide) hp_)
      · assumption
    clear_value x4_8
    have hx4_9 : Rel ps_ z_ x4_9 := by
      unfold x4_9
      refine rel_modPeer ?_ (Sub.trans (by decide) hp_)
      · assumption
    clear_value x4_9
    refine iteP (P := Rel ps_ z_) ?_ ?_
    · refine rel_sendResp ?_ (Sub.trans (by decide) hp_)
      · refine rel_hearPeer ?_ (Sub.trans (by decide) hp_)
        · assumption
    · refine iteP (P := Rel ps_ z_) ?_ ?_
      · refine rel_identityFails ?_ (Sub.trans (by decide) hp_)
        · assumption
      · refine iteP (P := Rel ps_ z_) ?_ ?_
        · refine rel_hearPeer ?_ (Sub.trans (by decide) hp_)
          · assumption
        · refine rel_settleSlots ?_ (Sub.trans (by decide) hp_)
          · refine rel_sendResp ?_ (Sub.trans (by decide) hp_)
            · assumption

/-! ### Ether -/

theorem rel_modEth {ps_ : List Part} {z_ : State} {s : State} {f : Ether → Ether} (h0_ : Rel ps_ z_ s) (hp_ : Sub [.eth] ps_) :
    Rel ps_ z_ (modEth s f) := by
  unfold modEth
  refine rel_eth ?_ (hp_ _ (by decide))
  assumption

theorem rel_servo {ps_ : List Part} {z_ : State} {s : State} {p : PtpInfo} (h0_ : Rel ps_ z_ s) (hp_ : Sub [.regs, .eth, .lh] ps_) :
    Rel ps_ z_ (servo s p) := by
  unfold servo
  extract_lets -merge -underBinder x2_0 x2_1 x2_2 x2_3 x2_4 x2_5
  clear_value x2_0
  have hx2_1 : Rel ps_ z_ x2_1 := by
    unfold x2_1
    refine rel_modEth ?_ (Sub.trans (by decide) hp_)
    · refine rel_wr ?_ (Sub.trans (by decide) hp_)
      · assumption
  clear_value x2_1 x2_2 x2_3
  have hx2_4 : Rel ps_ z_ x2_4 := by
    unfold x2_4
    refine iteP (P := Rel ps_ z_) ?_ ?_
    · refine rel_wr ?_ (Sub.trans (by decide) hp_)
      · refine rel_lh ?_ (hp_ _ (by decide))
        assumption
    · assumption
  clear_value x2_4
  have hx2_5 : Rel ps_ z_ x2_5 := by
    unfold x2_5
    refine rel_modEth ?_ (Sub.trans (by decide) hp_)
    · assumption
  clear_value x2_5
  refine iteP (P := Rel ps_ z_) ?_ ?_
  · refine rel_wr ?_ (Sub.trans (by decide) hp_)
    · assumption
  · assumption

theorem rel_execPtpMessage {ps_ : List Part} {z_ : State} {p : PtpInfo} {s : State} (h1_ : Rel ps_ z_ s) (hp_ : Sub [.regs, .eth, .lh] ps_) :
    Ends ps_ z_ (execPtpMessage p s) := by
  unfold execPtpMessage
  refine ofNext ?_
  refine iteP (P := Rel ps_ z_) ?_ ?_
  · assumption
  · refine iteP (P := Rel ps_ z_) ?_ ?_
    · refine rel_modEth ?_ (Sub.trans (by decide) hp_)
      · assumption
    · refine iteP (P := Rel ps_ z_) ?_ ?_
      · refine rel_servo ?_ (Sub.trans (by decide) hp_)
        · assumption
      · assumption

theorem rel_writeIpCtl {ps_ : List Part} {z_ : State} {s : State} {c : CrsWrite} (h0_ : Rel ps_ z_ s) (hp_ : Sub [.eth] ps_) :
    Rel ps_ z_ (writeIpCtl s c) := by
  unfold writeIpCtl
  extract_lets -merge -underBinder x2_0 x2_1
  clear_value x2_0
  have hx2_1 : Rel ps_ z_ x2_1 := by
    unfold x2_1
    refine iteP (P := Rel ps_ z_) ?_ ?_
    · refine rel_modEth ?_ (Sub.trans (by decide) hp_)
      · assumption
    · assumption
  clear_value x2_1
  refine iteP (P := Rel ps_ z_) ?_ ?_
  · refine rel_modEth ?_ (Sub.trans (by decide) hp_)
    · assumption
  · assumption

theorem rel_execEthIpLoad {ps_ : List Part} {z_ : State} {w : CrsWrite} {s : State} (h1_ : Rel ps_ z_ s) (hp_ : Sub [.eth] ps_) :
    Ends ps_ z_ (execEthIpLoad w s) := by
  unfold execEthIpLoad
  refine ofNext ?_
  refine rel_writeIpCtl ?_ (Sub.trans (by decide) hp_)
  · assumption

theorem rel_execPtpAnnounceTimeout {ps_ : List Part} {z_ : State} {s : State} (h0_ : Rel ps_ z_ s) (hp_ : Sub [.regs, .eth] ps_) :
    Ends ps_ z_ (execPtpAnnounceTimeout s) := by
  unfold execPtpAnnounceTimeout
  extract_lets -merge -underBinder x2_0 x2_1
  clear_value x2_0
  have hx2_1 : Rel ps_ z_ x2_1 := by
    unfold x2_1
    refine rel_modEth ?_ (Sub.trans (by decide) hp_)
    · refine rel_wr ?_ (Sub.trans (by decide) hp_)
      · assumption
  clear_value x2_1
  refine ofNext ?_
  refine iteP (P := Rel ps_ z_) ?_ ?_
  · assumption
  · refine iteP (P := Rel ps_ z_) ?_ ?_
    · refine rel_wrOr ?_ (Sub.trans (by decide) hp_)
      · assumption
    · assumption

theorem rel_learn {ps_ : List Part} {z_ : State} {s : State} {i : Nat} {a : BitVec 128} {mac : BitVec 48} (h0_ : Rel ps_ z_ s) (hp_ : Sub [.eth] ps_) :
    Rel ps_ z_ (learn s i a mac) := by
  unfold learn
  refine rel_modEth ?_ (Sub.trans (by decide) hp_)
  · assumption

theorem rel_execEthIpClear {ps_ : List Part} {z_ : State} {w : CrsWrite} {s : State} (h1_ : Rel ps_ z_ s) (hp_ : Sub [.eth] ps_) :
    Ends ps_ z_ (execEthIpClear w s) := by
  unfold execEthIpClear
  extract_lets -merge -underBinder x2_0
  have hx2_0 : Rel ps_ z_ x2_0 := by
    unfold x2_0
    refine rel_writeIpCtl ?_ (Sub.trans (by decide) hp_)
    · assumption
  clear_value x2_0
  refine ofNext ?_
  assumption

theorem rel_execNeighbourSolicitation {ps_ : List Part} {z_ : State} {iface : Nat} {target : BitVec 128} {source : BitVec 128} {sourceMac : BitVec 48} {s : State} (h4_ : Rel ps_ z_ s) (hp_ : Sub [.tx, .counts, .eth] ps_) :
    Ends ps_ z_ (execNeighbourSolicitation iface target source sourceMac s) := by
  unfold execNeighbourSolicitation
  extract_lets -merge -underBinder x2_0 x2_1 x2_2 x2_3
  have hx2_0 : Rel ps_ z_ x2_0 := by
    unfold x2_0
    refine rel_countFrame ?_ (Sub.trans (by decide) hp_)
    · assumption
  clear_value x2_0
  have hx2_1 : Rel ps_ z_ x2_1 := by
    unfold x2_1
    refine iteP (P := Rel ps_ z_) ?_ ?_
    · assumption
    · refine rel_learn ?_ (Sub.trans (by decide) hp_)
      · assumption
  clear_value x2_1 x2_2 x2_3
  refine ofNext ?_
  refine iteP (P := Rel ps_ z_) ?_ ?_
  · assumption
  · refine iteP (P := Rel ps_ z_) ?_ ?_
    · assumption
    · refine rel_emit ?_ (Sub.trans (by decide) hp_)
      · assumption

theorem rel_setLink {ps_ : List Part} {z_ : State} {s : State} {i : Nat} {up : Bool} (h0_ : Rel ps_ z_ s) (hp_ : Sub [.regs, .eth] ps_) :
    Rel ps_ z_ (setLink s i up) := by
  unfold setLink
  extract_lets -merge -underBinder x2_0 x2_1 x2_2
  have hx2_0 : ∀ a0, Rel ps_ z_ a0 → ∀ a1, Rel ps_ z_ (x2_0 a0 a1) := by
    intro a0_ h0_ a1_
    unfold x2_0
    refine rel_wr ?_ (Sub.trans (by decide) hp_)
    · assumption
  clear_value x2_0
  have hx2_1 : Rel ps_ z_ x2_1 := by
    unfold x2_1
    refine rel_wrOr ?_ (Sub.trans (by decide) hp_)
    · refine hx2_0 _ ?_ _
      refine hx2_0 _ ?_ _
      assumption
  clear_value x2_1
  have hx2_2 : Rel ps_ z_ x2_2 := by
    unfold x2_2
    refine rel_modEth ?_ (Sub.trans (by decide) hp_)
    · assumption
  clear_value x2_2
  refine iteP (P := Rel ps_ z_) ?_ ?_
  · assumption
  · refine iteP (P := Rel ps_ z_) ?_ ?_
    · refine rel_dropReplace ?_ (Sub.trans (by decide) hp_)
      · assumption
    · assumption

theorem rel_writeEthCtl {ps_ : List Part} {z_ : State} {s : State} {c : CrsWrite} (h0_ : Rel ps_ z_ s) (hp_ : Sub [.regs, .eth] ps_) :
    Rel ps_ z_ (writeEthCtl s c) := by
  unfold writeEthCtl
  extract_lets -merge -underBinder x2_0
  have hx2_0 : Rel ps_ z_ x2_0 := by
    unfold x2_0
    refine rel_storeWrite ?_ (Sub.trans (by decide) hp_)
    · assumption
  clear_value x2_0
  refine foldSP ?_ ?_ _
  · assumption
  · intro a4_0 a4_1 h4_0
    refine iteP (P := Rel ps_ z_) ?_ ?_
    · assumption
    · refine rel_setLink ?_ (Sub.trans (by decide) hp_)
      · refine rel_setLink ?_ (Sub.trans (by decide) hp_)
        · assumption

theorem rel_execFrameDiscard {ps_ : List Part} {z_ : State} {iface : Nat} {f : FrameInfo} {s : State} (h2_ : Rel ps_ z_ s) (hp_ : Sub [.counts] ps_) :
    Ends ps_ z_ (execFrameDiscard iface f s) := by
  unfold execFrameDiscard
  extract_lets -merge -underBinder x2_0 x2_1
  have hx2_0 : Rel ps_ z_ x2_0 := by
    unfold x2_0
    refine rel_count ?_ (Sub.trans (by decide) hp_)
    · refine rel_count ?_ (Sub.trans (by decide) hp_)
      · assumption
  clear_value x2_0
  have hx2_1 : Rel ps_ z_ x2_1 := by
    unfold x2_1
    refine iteP (P := Rel ps_ z_) ?_ ?_
    · assumption
    · refine rel_count ?_ (Sub.trans (by decide) hp_)
      · assumption
  clear_value x2_1
  refine ofNext ?_
  refine iteP (P := Rel ps_ z_) ?_ ?_
  · assumption
  · refine rel_count ?_ (Sub.trans (by decide) hp_)
    · assumption

theorem rel_execEchoRequest {ps_ : List Part} {z_ : State} {iface : Nat} {target : BitVec 128} {source : BitVec 128} {body : List Byte} {s : State} (h4_ : Rel ps_ z_ s) (hp_ : Sub [.tx, .counts] ps_) :
    Ends ps_ z_ (execEchoRequest iface target source body s) := by
  unfold execEchoRequest
  extract_lets -merge -underBinder x2_0
  have hx2_0 : Rel ps_ z_ x2_0 := by
    unfold x2_0
    refine rel_countFrame ?_ (Sub.trans (by decide) hp_)
    · assumption
  clear_value x2_0
  refine ofNext ?_
  refine iteP (P := Rel ps_ z_) ?_ ?_
  · assumption
  · refine iteP (P := Rel ps_ z_) ?_ ?_
    · refine rel_emit ?_ (Sub.trans (by decide) hp_)
      · assumption
    · assumption

theorem rel_execHostLinkDownTimeout {ps_ : List Part} {z_ : State} {port : Nat} {s : State} (h1_ : Rel ps_ z_ s) (hp_ : Sub [.tx, .regs, .counts, .quay] ps_) :
    Ends ps_ z_ (execHostLinkDownTimeout port s) := by
  unfold execHostLinkDownTimeout
  refine ofNext ?_
  refine iteP (P := Rel ps_ z_) ?_ ?_
  · refine rel_raiseReplace ?_ (Sub.trans (by decide) hp_)
    · assumption
  · assumption

theorem rel_execLinkChange {ps_ : List Part} {z_ : State} {iface : Nat} {up : Bool} {s : State} (h2_ : Rel ps_ z_ s) (hp_ : Sub [.regs, .eth] ps_) :
    Ends ps_ z_ (execLinkChange iface up s) := by
  unfold execLinkChange
  refine ofNext ?_
  refine iteP (P := Rel ps_ z_) ?_ ?_
  · assumption
  · refine rel_setLink ?_ (Sub.trans (by decide) hp_)
    · assumption

theorem rel_execNeighbourAdvertisement {ps_ : List Part} {z_ : State} {iface : Nat} {target : BitVec 128} {mac : BitVec 48} {s : State} (h3_ : Rel ps_ z_ s) (hp_ : Sub [.counts, .eth] ps_) :
    Ends ps_ z_ (execNeighbourAdvertisement iface target mac s) := by
  unfold execNeighbourAdvertisement
  refine ofNext ?_
  refine iteP (P := Rel ps_ z_) ?_ ?_
  · refine rel_learn ?_ (Sub.trans (by decide) hp_)
    · refine rel_countFrame ?_ (Sub.trans (by decide) hp_)
      · assumption
  · assumption

end Sys2Proof.Laws
end

