-- ==== Sys2Proof/Laws/RelModule.lean ====
section
/-!
SUPPORT. One lemma for each operation on interrupts, Lighthouse, security and resets: it keeps `Rel`, and the parts
listed are all that it can change.
-/
namespace Sys2Proof.Laws
open Sys2Proof Sys2Proof.Machine Sys2Proof.Safety

/-! ### Icu -/

theorem rel_writeBcnCtl {ps_ : List Part} {z_ : State} {s : State} {c : CrsWrite} (h0_ : Rel ps_ z_ s) (hp_ : Sub [.regs, .counts, .icu, .pwr] ps_) :
    Rel ps_ z_ (writeBcnCtl s c) := by
  unfold writeBcnCtl
  refine iteP (P := Rel ps_ z_) ?_ ?_
  · refine rel_beaconWake ?_ (Sub.trans (by decide) hp_)
    · assumption
  · assumption

theorem rel_execBcnWakeNow {ps_ : List Part} {z_ : State} {w : CrsWrite} {s : State} (h1_ : Rel ps_ z_ s) (hp_ : Sub [.regs, .counts, .icu, .pwr] ps_) :
    Ends ps_ z_ (execBcnWakeNow w s) := by
  unfold execBcnWakeNow
  refine ofNext ?_
  refine rel_writeBcnCtl ?_ (Sub.trans (by decide) hp_)
  · assumption

theorem rel_modIcu {ps_ : List Part} {z_ : State} {s : State} {f : Icu → Icu} (h0_ : Rel ps_ z_ s) (hp_ : Sub [.icu] ps_) :
    Rel ps_ z_ (modIcu s f) := by
  unfold modIcu
  refine rel_icu ?_ (hp_ _ (by decide))
  assumption

theorem rel_stormMask {ps_ : List Part} {z_ : State} {s : State} {n : Nat} (h0_ : Rel ps_ z_ s) (hp_ : Sub [.regs, .counts, .icu, .pwr, .rst] ps_) :
    Rel ps_ z_ (stormMask s n) := by
  unfold stormMask
  extract_lets -merge -underBinder x2_0
  have hx2_0 : Rel ps_ z_ x2_0 := by
    unfold x2_0
    refine rel_modIcu ?_ (Sub.trans (by decide) hp_)
    · refine rel_setPending ?_ (Sub.trans (by decide) hp_)
      · assumption
  clear_value x2_0
  refine rel_fireEdge ?_ (Sub.trans (by decide) hp_)
  · refine rel_logError ?_ (Sub.trans (by decide) hp_)
    · refine rel_count ?_ (Sub.trans (by decide) hp_)
      · assumption

theorem rel_levelRise {ps_ : List Part} {z_ : State} {s : State} {n : Nat} (h0_ : Rel ps_ z_ s) (hp_ : Sub [.regs, .counts, .icu, .pwr, .rst] ps_) :
    Rel ps_ z_ (levelRise s n) := by
  unfold levelRise
  extract_lets -merge -underBinder x2_0 x2_1 x2_2
  have hx2_0 : Rel ps_ z_ x2_0 := by
    unfold x2_0
    refine rel_icuCount ?_ (Sub.trans (by decide) hp_)
    · assumption
  clear_value x2_0 x2_1
  have hx2_2 : Rel ps_ z_ x2_2 := by
    unfold x2_2
    refine rel_modIcu ?_ (Sub.trans (by decide) hp_)
    · assumption
  clear_value x2_2
  refine iteP (P := Rel ps_ z_) ?_ ?_
  · assumption
  · refine iteP (P := Rel ps_ z_) ?_ ?_
    · refine rel_stormMask ?_ (Sub.trans (by decide) hp_)
      · assumption
    · refine rel_setPending ?_ (Sub.trans (by decide) hp_)
      · assumption

theorem rel_softSet {ps_ : List Part} {z_ : State} {s : State} {n : Nat} (h0_ : Rel ps_ z_ s) (hp_ : Sub [.regs, .counts, .icu, .pwr] ps_) :
    Rel ps_ z_ (softSet s n) := by
  unfold softSet
  refine iteP (P := Rel ps_ z_) ?_ ?_
  · refine rel_icuCount ?_ (Sub.trans (by decide) hp_)
    · assumption
  · refine rel_fireEdge ?_ (Sub.trans (by decide) hp_)
    · assumption

theorem rel_levelHold {ps_ : List Part} {z_ : State} {s : State} {n : Nat} (h0_ : Rel ps_ z_ s) (hp_ : Sub [.regs, .counts, .icu, .pwr, .rst] ps_) :
    Rel ps_ z_ (levelHold s n) := by
  unfold levelHold
  refine iteP (P := Rel ps_ z_) ?_ ?_
  · refine rel_levelRise ?_ (Sub.trans (by decide) hp_)
    · assumption
  · assumption

theorem rel_softClear {ps_ : List Part} {z_ : State} {s : State} {n : Nat} (h0_ : Rel ps_ z_ s) (hp_ : Sub [.regs, .counts, .icu, .pwr, .rst] ps_) :
    Rel ps_ z_ (softClear s n) := by
  unfold softClear
  extract_lets -merge -underBinder x2_0
  have hx2_0 : Rel ps_ z_ x2_0 := by
    unfold x2_0
    refine rel_setPending ?_ (Sub.trans (by decide) hp_)
    · assumption
  clear_value x2_0
  refine iteP (P := Rel ps_ z_) ?_ ?_
  · assumption
  · refine rel_levelHold ?_ (Sub.trans (by decide) hp_)
    · assumption

theorem rel_writePend {ps_ : List Part} {z_ : State} {s : State} {n : Nat} {c : CrsWrite} (h0_ : Rel ps_ z_ s) (hp_ : Sub [.regs, .counts, .icu, .pwr, .rst] ps_) :
    Rel ps_ z_ (writePend s n c) := by
  unfold writePend
  refine foldSP ?_ ?_ _
  · assumption
  · intro a4_0 a4_1 h4_0
    extract_lets -merge -underBinder x4_0 x4_1 x4_2
    clear_value x4_0 x4_1 x4_2
    split
    · refine iteP (P := Rel ps_ z_) ?_ ?_
      · refine rel_softSet ?_ (Sub.trans (by decide) hp_)
        · assumption
      · assumption
    · refine iteP (P := Rel ps_ z_) ?_ ?_
      · refine rel_softClear ?_ (Sub.trans (by decide) hp_)
        · assumption
      · assumption
    · refine iteP (P := Rel ps_ z_) ?_ ?_
      · refine rel_softSet ?_ (Sub.trans (by decide) hp_)
        · assumption
      · refine iteP (P := Rel ps_ z_) ?_ ?_
        · refine rel_softClear ?_ (Sub.trans (by decide) hp_)
          · assumption
        · assumption
    · refine iteP (P := Rel ps_ z_) ?_ ?_
      · refine rel_softSet ?_ (Sub.trans (by decide) hp_)
        · assumption
      · refine iteP (P := Rel ps_ z_) ?_ ?_
        · refine rel_softClear ?_ (Sub.trans (by decide) hp_)
          · assumption
        · assumption

theorem rel_endClaim {ps_ : List Part} {z_ : State} {s : State} {k : Nat} {n : Nat} {fast : Bool} (h0_ : Rel ps_ z_ s) (hp_ : Sub [.regs, .counts, .icu, .pwr, .rst] ps_) :
    Rel ps_ z_ (endClaim s k n fast) := by
  unfold endClaim
  extract_lets -merge -underBinder x2_0
  have hx2_0 : Rel ps_ z_ x2_0 := by
    unfold x2_0
    refine rel_modIcu ?_ (Sub.trans (by decide) hp_)
    · assumption
  clear_value x2_0
  refine iteP (P := Rel ps_ z_) ?_ ?_
  · assumption
  · refine rel_levelHold ?_ (Sub.trans (by decide) hp_)
    · assumption

theorem rel_writeEoi {ps_ : List Part} {z_ : State} {s : State} {fast : Bool} {c : CrsWrite} (h0_ : Rel ps_ z_ s) (hp_ : Sub [.regs, .counts, .icu, .pwr, .rst] ps_) :
    Rel ps_ z_ (writeEoi s fast c) := by
  unfold writeEoi
  extract_lets -merge -underBinder x2_0
  clear_value x2_0
  refine iteP (P := Rel ps_ z_) ?_ ?_
  · assumption
  · refine iteP (P := Rel ps_ z_) ?_ ?_
    · refine rel_endClaim ?_ (Sub.trans (by decide) hp_)
      · assumption
    · refine rel_count ?_ (Sub.trans (by decide) hp_)
      · refine rel_wrOr ?_ (Sub.trans (by decide) hp_)
        · assumption

theorem rel_answerWord {ps_ : List Part} {z_ : State} {r : State × Nat} {req : Nat} {off : Nat} (h0_ : Rel1 ps_ z_ r) (hp_ : Sub [.tx, .counts] ps_) :
    Rel ps_ z_ (answerWord r req off) := by
  unfold answerWord
  refine rel_emit ?_ (Sub.trans (by decide) hp_)
  · refine (?_ : Rel1 ps_ z_ _)
    assumption

theorem rel_claimRead {ps_ : List Part} {z_ : State} {s : State} {req : Nat} {al : Alias} {fast : Bool} (h0_ : Rel ps_ z_ s) (hp_ : Sub [.icu] ps_) :
    Rel1 ps_ z_ (claimRead s req al fast) := by
  unfold claimRead
  refine iteP (P := Rel1 ps_ z_) ?_ ?_
  · refine ofPair ?_
    assumption
  · split
    · refine ofPair ?_
      assumption
    · refine ofPair ?_
      refine rel_modIcu ?_ (Sub.trans (by decide) hp_)
      · refine rel_setPending ?_ (Sub.trans (by decide) hp_)
        · assumption

theorem rel_execIcfClaimRead {ps_ : List Part} {z_ : State} {req : Nat} {al : Alias} {s : State} (h2_ : Rel ps_ z_ s) (hp_ : Sub [.tx, .counts, .icu] ps_) :
    Ends ps_ z_ (execIcfClaimRead req al s) := by
  unfold execIcfClaimRead
  refine ofNext ?_
  refine rel_answerWord ?_ (Sub.trans (by decide) hp_)
  · refine rel_claimRead ?_ (Sub.trans (by decide) hp_)
    · assumption

theorem rel_dropClaims {ps_ : List Part} {z_ : State} {s : State} {k : Nat} (h0_ : Rel ps_ z_ s) (hp_ : Sub [.regs, .counts, .icu, .pwr, .rst] ps_) :
    Rel ps_ z_ (dropClaims s k) := by
  unfold dropClaims
  extract_lets -merge -underBinder x2_0
  have hx2_0 : ∀ a0, Rel ps_ z_ a0 → ∀ a1, Rel ps_ z_ (x2_0 a0 a1) := by
    intro a0_ h0_ a1_
    unfold x2_0
    split
    · extract_lets -merge -underBinder x6_0
      have hx6_0 : Rel ps_ z_ x6_0 := by
        unfold x6_0
        refine rel_endClaim ?_ (Sub.trans (by decide) hp_)
        · assumption
      clear_value x6_0
      refine iteP (P := Rel ps_ z_) ?_ ?_
      · refine rel_setPending ?_ (Sub.trans (by decide) hp_)
        · assumption
      · assumption
    · assumption
  clear_value x2_0
  refine hx2_0 _ ?_ _
  refine hx2_0 _ ?_ _
  assumption

theorem rel_execIcuClaimRead {ps_ : List Part} {z_ : State} {req : Nat} {al : Alias} {s : State} (h2_ : Rel ps_ z_ s) (hp_ : Sub [.tx, .counts, .icu] ps_) :
    Ends ps_ z_ (execIcuClaimRead req al s) := by
  unfold execIcuClaimRead
  refine ofNext ?_
  refine rel_answerWord ?_ (Sub.trans (by decide) hp_)
  · refine rel_claimRead ?_ (Sub.trans (by decide) hp_)
    · assumption

theorem rel_execIcuEoiWrite {ps_ : List Part} {z_ : State} {w : CrsWrite} {s : State} (h1_ : Rel ps_ z_ s) (hp_ : Sub [.regs, .counts, .icu, .pwr, .rst] ps_) :
    Ends ps_ z_ (execIcuEoiWrite w s) := by
  unfold execIcuEoiWrite
  refine ofNext ?_
  refine rel_writeEoi ?_ (Sub.trans (by decide) hp_)
  · assumption

theorem rel_execIcfEoiWrite {ps_ : List Part} {z_ : State} {w : CrsWrite} {s : State} (h1_ : Rel ps_ z_ s) (hp_ : Sub [.regs, .counts, .icu, .pwr, .rst] ps_) :
    Ends ps_ z_ (execIcfEoiWrite w s) := by
  unfold execIcfEoiWrite
  refine ofNext ?_
  refine rel_writeEoi ?_ (Sub.trans (by decide) hp_)
  · assumption

theorem rel_levelEvent {ps_ : List Part} {z_ : State} {s : State} {n : Nat} {on : Bool} (h0_ : Rel ps_ z_ s) (hp_ : Sub [.regs, .counts, .icu, .pwr, .rst] ps_) :
    Rel ps_ z_ (levelEvent s n on) := by
  unfold levelEvent
  extract_lets -merge -underBinder x2_0 x2_1 x2_2
  clear_value x2_0
  have hx2_1 : Rel ps_ z_ x2_1 := by
    unfold x2_1
    refine rel_modIcu ?_ (Sub.trans (by decide) hp_)
    · assumption
  clear_value x2_1
  have hx2_2 : Rel ps_ z_ x2_2 := by
    unfold x2_2
    refine iteP (P := Rel ps_ z_) ?_ ?_
    · assumption
    · refine rel_beaconCatch ?_ (Sub.trans (by decide) hp_)
      · assumption
  clear_value x2_2
  refine iteP (P := Rel ps_ z_) ?_ ?_
  · refine rel_setPending ?_ (Sub.trans (by decide) hp_)
    · assumption
  · refine iteP (P := Rel ps_ z_) ?_ ?_
    · refine rel_icuCount ?_ (Sub.trans (by decide) hp_)
      · assumption
    · refine rel_levelHold ?_ (Sub.trans (by decide) hp_)
      · assumption

theorem rel_execBcnTimerExpiry {ps_ : List Part} {z_ : State} {s : State} (h0_ : Rel ps_ z_ s) (hp_ : Sub [.regs, .counts, .icu, .pwr] ps_) :
    Ends ps_ z_ (execBcnTimerExpiry s) := by
  unfold execBcnTimerExpiry
  refine ofNext ?_
  refine iteP (P := Rel ps_ z_) ?_ ?_
  · assumption
  · refine rel_fireEdge ?_ (Sub.trans (by decide) hp_)
    · refine rel_wr ?_ (Sub.trans (by decide) hp_)
      · assumption

theorem rel_writeStorm {ps_ : List Part} {z_ : State} {s : State} {n : Nat} {c : CrsWrite} (h0_ : Rel ps_ z_ s) (hp_ : Sub [.regs, .counts, .icu, .pwr, .rst] ps_) :
    Rel ps_ z_ (writeStorm s n c) := by
  unfold writeStorm
  refine foldSP ?_ ?_ _
  · assumption
  · intro a4_0 a4_1 h4_0
    extract_lets -merge -underBinder x4_0
    clear_value x4_0
    refine iteP (P := Rel ps_ z_) ?_ ?_
    · refine rel_levelHold ?_ (Sub.trans (by decide) hp_)
      · refine rel_modIcu ?_ (Sub.trans (by decide) hp_)
        · assumption
    · assumption

theorem rel_execIcuStormUnmask {ps_ : List Part} {z_ : State} {n : Nat} {w : CrsWrite} {s : State} (h2_ : Rel ps_ z_ s) (hp_ : Sub [.regs, .counts, .icu, .pwr, .rst] ps_) :
    Ends ps_ z_ (execIcuStormUnmask n w s) := by
  unfold execIcuStormUnmask
  refine ofNext ?_
  refine iteP (P := Rel ps_ z_) ?_ ?_
  · refine rel_writeStorm ?_ (Sub.trans (by decide) hp_)
    · assumption
  · assumption

theorem rel_execInterruptSourceEvent {ps_ : List Part} {z_ : State} {source : Nat} {asserted : Bool} {s : State} (h2_ : Rel ps_ z_ s) (hp_ : Sub [.regs, .counts, .icu, .pwr, .rst] ps_) :
    Ends ps_ z_ (execInterruptSourceEvent source asserted s) := by
  unfold execInterruptSourceEvent
  refine ofNext ?_
  refine iteP (P := Rel ps_ z_) ?_ ?_
  · assumption
  · refine iteP (P := Rel ps_ z_) ?_ ?_
    · refine iteP (P := Rel ps_ z_) ?_ ?_
      · refine rel_fireEdge ?_ (Sub.trans (by decide) hp_)
        · assumption
      · assumption
    · refine iteP (P := Rel ps_ z_) ?_ ?_
      · refine rel_levelEvent ?_ (Sub.trans (by decide) hp_)
        · assumption
      · refine rel_levelEvent ?_ (Sub.trans (by decide) hp_)
        · assumption

theorem rel_execIcuPendWrite {ps_ : List Part} {z_ : State} {n : Nat} {w : CrsWrite} {s : State} (h2_ : Rel ps_ z_ s) (hp_ : Sub [.regs, .counts, .icu, .pwr, .rst] ps_) :
    Ends ps_ z_ (execIcuPendWrite n w s) := by
  unfold execIcuPendWrite
  refine ofNext ?_
  refine iteP (P := Rel ps_ z_) ?_ ?_
  · refine rel_writePend ?_ (Sub.trans (by decide) hp_)
    · assumption
  · assumption

/-! ### Lighthouse -/

theorem rel_endTickWork {ps_ : List Part} {z_ : State} {s : State} {k : Nat} {used : Nat} (h0_ : Rel ps_ z_ s) (hp_ : Sub [.lh] ps_) :
    Rel ps_ z_ (endTickWork s k used) := by
  unfold endTickWork
  refine rel_modCore ?_ (Sub.trans (by decide) hp_)
  · assumption

theorem rel_modPwr {ps_ : List Part} {z_ : State} {s : State} {f : Power → Power} (h0_ : Rel ps_ z_ s) (hp_ : Sub [.pwr] ps_) :
    Rel ps_ z_ (modPwr s f) := by
  unfold modPwr
  refine rel_pwr ?_ (hp_ _ (by decide))
  assumption

theorem rel_condition {ps_ : List Part} {z_ : State} {s : State} {f : Power → Power} (h0_ : Rel ps_ z_ s) (hp_ : Sub [.pwr] ps_) :
    Rel ps_ z_ (condition s f) := by
  unfold condition
  extract_lets -merge -underBinder x2_0
  have hx2_0 : Rel ps_ z_ x2_0 := by
    unfold x2_0
    refine rel_modPwr ?_ (Sub.trans (by decide) hp_)
    · assumption
  clear_value x2_0
  refine iteP (P := Rel ps_ z_) ?_ ?_
  · refine rel_modPwr ?_ (Sub.trans (by decide) hp_)
    · assumption
  · assumption

theorem rel_readSensors {ps_ : List Part} {z_ : State} {s : State} {t : TickInputs} (h0_ : Rel ps_ z_ s) (hp_ : Sub [.regs, .pwr] ps_) :
    Rel ps_ z_ (readSensors s t) := by
  unfold readSensors
  extract_lets -merge -underBinder x2_0 x2_1 x2_2
  have hx2_0 : Rel ps_ z_ x2_0 := by
    unfold x2_0
    refine iteP (P := Rel ps_ z_) ?_ ?_
    · assumption
    · refine rel_wrs ?_ (Sub.trans (by decide) hp_)
      · assumption
  clear_value x2_0 x2_1 x2_2
  refine rel_condition ?_ (Sub.trans (by decide) hp_)
  · assumption

theorem rel_startRestart {ps_ : List Part} {z_ : State} {s : State} {k : Nat} (h0_ : Rel ps_ z_ s) (hp_ : Sub [.regs, .counts, .banks, .icu, .clf, .lh, .pwr, .rst] ps_) :
    Rel ps_ z_ (startRestart s k) := by
  unfold startRestart
  extract_lets -merge -underBinder x2_0 x2_1 x2_2 x2_3
  have hx2_0 : Rel ps_ z_ x2_0 := by
    unfold x2_0
    refine rel_dropClaims ?_ (Sub.trans (by decide) hp_)
    · assumption
  clear_value x2_0
  have hx2_1 : Rel ps_ z_ x2_1 := by
    unfold x2_1
    refine rel_modCore ?_ (Sub.trans (by decide) hp_)
    · assumption
  clear_value x2_1
  have hx2_2 : Rel ps_ z_ x2_2 := by
    unfold x2_2
    refine rel_banks ?_ (hp_ _ (by decide))
    assumption
  clear_value x2_2 x2_3
  refine iteP (P := Rel ps_ z_) ?_ ?_
  · refine rel_clf ?_ (hp_ _ (by decide))
    assumption
  · assumption

theorem rel_alwaysOn {ps_ : List Part} {z_ : State} {s : State} (h0_ : Rel ps_ z_ s) (hp_ : Sub [.regs, .counts, .sec] ps_) :
    Rel ps_ z_ (alwaysOn s) := by
  unfold alwaysOn
  extract_lets -merge -underBinder x2_0 x2_1 x2_2
  have hx2_0 : Rel ps_ z_ x2_0 := by
    unfold x2_0
    refine iteP (P := Rel ps_ z_) ?_ ?_
    · refine rel_count ?_ (Sub.trans (by decide) hp_)
      · assumption
    · assumption
  clear_value x2_0
  have hx2_1 : Rel ps_ z_ x2_1 := by
    unfold x2_1
    refine iteP (P := Rel ps_ z_) ?_ ?_
    · refine rel_count ?_ (Sub.trans (by decide) hp_)
      · assumption
    · assumption
  clear_value x2_1
  have hx2_2 : Rel ps_ z_ x2_2 := by
    unfold x2_2
    refine iteP (P := Rel ps_ z_) ?_ ?_
    · refine rel_wr ?_ (Sub.trans (by decide) hp_)
      · assumption
    · assumption
  clear_value x2_2
  refine iteP (P := Rel ps_ z_) ?_ ?_
  · refine rel_modSec ?_ (hp_ _ (by decide)) (by first | exact ⟨rfl, .inl rfl⟩ | (dsimp only; split <;> exact ⟨rfl, .inl rfl⟩))
    assumption
  · assumption

theorem rel_ptpEdge {ps_ : List Part} {z_ : State} {s : State} {t : TickInputs} (h0_ : Rel ps_ z_ s) (hp_ : Sub [.eth] ps_) :
    Rel ps_ z_ (ptpEdge s t) := by
  unfold ptpEdge
  refine iteP (P := Rel ps_ z_) ?_ ?_
  · refine rel_modEth ?_ (Sub.trans (by decide) hp_)
    · assumption
  · refine rel_modEth ?_ (Sub.trans (by decide) hp_)
    · assumption

theorem rel_coreRunsAgain {ps_ : List Part} {z_ : State} {s : State} {k : Nat} (h0_ : Rel ps_ z_ s) (hp_ : Sub [.free, .tx, .regs, .counts, .ofs, .lh] ps_) :
    Rel ps_ z_ (coreRunsAgain s k) := by
  unfold coreRunsAgain
  extract_lets -merge -underBinder x2_0 x2_1
  have hx2_0 : Rel ps_ z_ x2_0 := by
    unfold x2_0
    refine rel_modCore ?_ (Sub.trans (by decide) hp_)
    · assumption
  clear_value x2_0
  have hx2_1 : Rel ps_ z_ x2_1 := by
    unfold x2_1
    refine rel_count ?_ (Sub.trans (by decide) hp_)
    · refine rel_wrOr ?_ (Sub.trans (by decide) hp_)
      · assumption
  clear_value x2_1
  refine iteP (P := Rel ps_ z_) ?_ ?_
  · refine rel_restartHandshakes ?_ (Sub.trans (by decide) hp_)
    · assumption
  · assumption

theorem rel_writeTidRestart {ps_ : List Part} {z_ : State} {s : State} {c : CrsWrite} (h0_ : Rel ps_ z_ s) (hp_ : Sub [.regs, .counts, .banks, .icu, .clf, .lh, .pwr, .rst] ps_) :
    Rel ps_ z_ (writeTidRestart s c) := by
  unfold writeTidRestart
  extract_lets -merge -underBinder x2_0
  clear_value x2_0
  refine foldSP ?_ ?_ _
  · assumption
  · intro a4_0 a4_1 h4_0
    refine iteP (P := Rel ps_ z_) ?_ ?_
    · refine rel_startRestart ?_ (Sub.trans (by decide) hp_)
      · assumption
    · assumption

theorem rel_endClearTick {ps_ : List Part} {z_ : State} {s : State} (h0_ : Rel ps_ z_ s) (hp_ : Sub [.pwr] ps_) :
    Rel ps_ z_ (endClearTick s) := by
  unfold endClearTick
  refine rel_modPwr ?_ (Sub.trans (by decide) hp_)
  · assumption

theorem rel_coreEdge {ps_ : List Part} {z_ : State} {s : State} {k : Nat} (h0_ : Rel ps_ z_ s) (hp_ : Sub [.regs, .counts, .lh] ps_) :
    Rel ps_ z_ (coreEdge s k) := by
  unfold coreEdge
  extract_lets -merge -underBinder x2_0 x2_1 x2_2 x2_3 x2_4
  clear_value x2_0
  have hx2_1 : Rel ps_ z_ x2_1 := by
    unfold x2_1
    refine rel_count ?_ (Sub.trans (by decide) hp_)
    · refine rel_wrOr ?_ (Sub.trans (by decide) hp_)
      · assumption
  clear_value x2_1 x2_2
  have hx2_3 : Rel ps_ z_ x2_3 := by
    unfold x2_3
    refine iteP (P := Rel ps_ z_) ?_ ?_
    · refine rel_wrOr ?_ (Sub.trans (by decide) hp_)
      · assumption
    · assumption
  clear_value x2_3 x2_4
  refine iteP (P := Rel ps_ z_) ?_ ?_
  · assumption
  · refine iteP (P := Rel ps_ z_) ?_ ?_
    · refine rel_modCore ?_ (Sub.trans (by decide) hp_)
      · assumption
    · refine rel_modCore ?_ (Sub.trans (by decide) hp_)
      · assumption

theorem rel_powerLoop {ps_ : List Part} {z_ : State} {s : State} {t : TickInputs} (h0_ : Rel ps_ z_ s) (hp_ : Sub [.regs, .counts] ps_) :
    Rel ps_ z_ (powerLoop s t) := by
  unfold powerLoop
  extract_lets -merge -underBinder x2_0 x2_1
  clear_value x2_0
  have hx2_1 : Rel ps_ z_ x2_1 := by
    unfold x2_1
    refine rel_wr ?_ (Sub.trans (by decide) hp_)
    · assumption
  clear_value x2_1
  refine iteP (P := Rel ps_ z_) ?_ ?_
  · assumption
  · refine iteP (P := Rel ps_ z_) ?_ ?_
    · refine rel_count ?_ (Sub.trans (by decide) hp_)
      · refine rel_wrOr ?_ (Sub.trans (by decide) hp_)
        · assumption
    · assumption

theorem rel_coreWork {ps_ : List Part} {z_ : State} {s : State} (h0_ : Rel ps_ z_ s) (hp_ : Sub [.free, .tx, .regs, .counts, .banks, .icu, .num, .clf, .ofs, .lh, .pwr, .rst] ps_) :
    Rel ps_ z_ (coreWork s) := by
  unfold coreWork
  extract_lets -merge -underBinder x2_0 x2_1
  have hx2_0 : Rel ps_ z_ x2_0 := by
    unfold x2_0
    refine foldSP ?_ ?_ _
    · assumption
    · intro a6_0 a6_1 h6_0
      refine iteP (P := Rel ps_ z_) ?_ ?_
      · refine rel_censusSample ?_ (Sub.trans (by decide) hp_)
        · assumption
      · assumption
  clear_value x2_0
  have hx2_1 : Rel ps_ z_ x2_1 := by
    unfold x2_1
    refine iteP (P := Rel ps_ z_) ?_ ?_
    · refine rel_startRestart ?_ (Sub.trans (by decide) hp_)
      · assumption
    · assumption
  clear_value x2_1
  refine iteP (P := Rel ps_ z_) ?_ ?_
  · refine rel_startRekeys ?_ (Sub.trans (by decide) hp_)
    · assumption
  · assumption

theorem rel_execTideTick {ps_ : List Part} {z_ : State} {t : TickInputs} {s : State} (h1_ : Rel ps_ z_ s) (hp_ : Sub [.free, .tx, .regs, .counts, .banks, .icu, .num, .clf, .ofs, .quay, .eth, .lh, .pwr, .rst, .sec] ps_) :
    Ends ps_ z_ (execTideTick t s) := by
  unfold execTideTick
  extract_lets -merge -underBinder x2_0 x2_1 x2_2 x2_3 x2_4 x2_5 x2_6 x2_7 x2_8
  have hx2_0 : Rel ps_ z_ x2_0 := by
    unfold x2_0
    refine rel_endClearTick ?_ (Sub.trans (by decide) hp_)
    · assumption
  clear_value x2_0 x2_1 x2_2 x2_3
  have hx2_4 : Rel ps_ z_ x2_4 := by
    unfold x2_4
    first | refine rel_many hx2_4 ⟨rfl, rfl, rfl, rfl, rfl, rfl⟩ ?_ | refine rel_many hx2_0 ⟨rfl, rfl, rfl, rfl, rfl, rfl⟩ ?_ | refine rel_many h1_ ⟨rfl, rfl, rfl, rfl, rfl, rfl⟩ ?_
    intro q hq; cases q <;> first | rfl | exact ⟨rfl, .inl rfl⟩ | exact absurd (hp_ _ (by decide)) hq
  clear_value x2_4
  have hx2_5 : Rel ps_ z_ x2_5 := by
    unfold x2_5
    refine rel_readSensors ?_ (Sub.trans (by decide) hp_)
    · assumption
  clear_value x2_5
  have hx2_6 : Rel ps_ z_ x2_6 := by
    unfold x2_6
    refine foldSP ?_ ?_ _
    · assumption
    · intro a6_0 a6_1 h6_0
      refine rel_coreEdge ?_ (Sub.trans (by decide) hp_)
      · assumption
  clear_value x2_6
  have hx2_7 : Rel ps_ z_ x2_7 := by
    unfold x2_7
    refine rel_ptpEdge ?_ (Sub.trans (by decide) hp_)
    · refine rel_alwaysOn ?_ (Sub.trans (by decide) hp_)
      · refine rel_powerLoop ?_ (Sub.trans (by decide) hp_)
        · assumption
  clear_value x2_7
  have hx2_8 : Rel ps_ z_ x2_8 := by
    unfold x2_8
    refine rel_coreWork ?_ (Sub.trans (by decide) hp_)
    · assumption
  clear_value x2_8
  refine ofNext ?_
  refine iteP (P := Rel ps_ z_) ?_ ?_
  · assumption
  · refine rel_sendTicks ?_ (Sub.trans (by decide) hp_)
    · refine rel_slewTick ?_ (Sub.trans (by decide) hp_)
      · assumption

theorem rel_tidUsedRead {ps_ : List Part} {z_ : State} {s : State} {al : Alias} {k : Nat} (h0_ : Rel ps_ z_ s) (hp_ : Sub [.lh] ps_) :
    Rel1 ps_ z_ (tidUsedRead s al k) := by
  unfold tidUsedRead
  extract_lets -merge -underBinder x2_0
  clear_value x2_0
  refine ofPair ?_
  refine iteP (P := Rel ps_ z_) ?_ ?_
  · refine rel_modCore ?_ (Sub.trans (by decide) hp_)
    · assumption
  · assumption

theorem rel_execTidUsedRead {ps_ : List Part} {z_ : State} {req : Nat} {core : Nat} {al : Alias} {s : State} (h3_ : Rel ps_ z_ s) (hp_ : Sub [.tx, .counts, .lh] ps_) :
    Ends ps_ z_ (execTidUsedRead req core al s) := by
  unfold execTidUsedRead
  refine ofNext ?_
  refine iteP (P := Rel ps_ z_) ?_ ?_
  · refine rel_answerWord ?_ (Sub.trans (by decide) hp_)
    · refine rel_tidUsedRead ?_ (Sub.trans (by decide) hp_)
      · assumption
  · assumption

theorem rel_dueRestart {ps_ : List Part} {z_ : State} {s : State} {k : Nat} (h0_ : Rel ps_ z_ s) (hp_ : Sub [.regs, .counts, .banks, .icu, .clf, .lh, .pwr, .rst] ps_) :
    Rel ps_ z_ (dueRestart s k) := by
  unfold dueRestart
  refine iteP (P := Rel ps_ z_) ?_ ?_
  · refine rel_modCore ?_ (Sub.trans (by decide) hp_)
    · assumption
  · refine rel_startRestart ?_ (Sub.trans (by decide) hp_)
    · assumption

theorem rel_execCoreRestartFallback {ps_ : List Part} {z_ : State} {core : Nat} {s : State} (h1_ : Rel ps_ z_ s) (hp_ : Sub [.regs, .counts, .banks, .icu, .clf, .lh, .pwr, .rst] ps_) :
    Ends ps_ z_ (execCoreRestartFallback core s) := by
  unfold execCoreRestartFallback
  refine ofNext ?_
  split
  · refine iteP (P := Rel ps_ z_) ?_ ?_
    · refine rel_dueRestart ?_ (Sub.trans (by decide) hp_)
      · assumption
    · assumption
  · assumption

theorem rel_writeTidDone {ps_ : List Part} {z_ : State} {s : State} {c : CrsWrite} {used : Nat} (h0_ : Rel ps_ z_ s) (hp_ : Sub [.lh] ps_) :
    Rel ps_ z_ (writeTidDone s c used) := by
  unfold writeTidDone
  refine iteP (P := Rel ps_ z_) ?_ ?_
  · refine rel_endTickWork ?_ (Sub.trans (by decide) hp_)
    · assumption
  · assumption

theorem rel_execCoreRestart {ps_ : List Part} {z_ : State} {w : CrsWrite} {s : State} (h1_ : Rel ps_ z_ s) (hp_ : Sub [.regs, .counts, .banks, .icu, .clf, .lh, .pwr, .rst] ps_) :
    Ends ps_ z_ (execCoreRestart w s) := by
  unfold execCoreRestart
  refine ofNext ?_
  refine rel_writeTidRestart ?_ (Sub.trans (by decide) hp_)
  · assumption

theorem rel_execCoreTickDone {ps_ : List Part} {z_ : State} {w : CrsWrite} {used10ns : Nat} {s : State} (h2_ : Rel ps_ z_ s) (hp_ : Sub [.lh] ps_) :
    Ends ps_ z_ (execCoreTickDone w used10ns s) := by
  unfold execCoreTickDone
  refine ofNext ?_
  refine rel_writeTidDone ?_ (Sub.trans (by decide) hp_)
  · assumption

theorem rel_modRst {ps_ : List Part} {z_ : State} {s : State} {f : Resets → Resets} (h0_ : Rel ps_ z_ s) (hp_ : Sub [.rst] ps_) :
    Rel ps_ z_ (modRst s f) := by
  unfold modRst
  refine rel_rst ?_ (hp_ _ (by decide))
  assumption

theorem rel_execCoreWatchdogExpiry {ps_ : List Part} {z_ : State} {core : Nat} {s : State} (h1_ : Rel ps_ z_ s) (hp_ : Sub [.regs, .counts, .icu, .lh, .pwr, .rst] ps_) :
    Ends ps_ z_ (execCoreWatchdogExpiry core s) := by
  unfold execCoreWatchdogExpiry
  extract_lets -merge -underBinder x2_0 x2_1
  clear_value x2_0
  have hx2_1 : Rel ps_ z_ x2_1 := by
    unfold x2_1
    refine rel_modCore ?_ (Sub.trans (by decide) hp_)
    · refine rel_wrOr ?_ (Sub.trans (by decide) hp_)
      · assumption
  clear_value x2_1
  refine ofNext ?_
  refine iteP (P := Rel ps_ z_) ?_ ?_
  · assumption
  · refine rel_logError ?_ (Sub.trans (by decide) hp_)
    · refine rel_fireEdge ?_ (Sub.trans (by decide) hp_)
      · assumption

/-! ### Security -/

theorem rel_extend {ps_ : List Part} {z_ : State} {s : State} {i : Nat} {tag : Nat} {d : List Byte} (h0_ : Rel ps_ z_ s) (hp_ : Sub [.sec] ps_) :
    Rel ps_ z_ (extend s i tag d) := by
  unfold extend
  extract_lets -merge -underBinder x2_0
  clear_value x2_0
  refine rel_modSec ?_ (hp_ _ (by decide)) (by first | exact ⟨rfl, .inl rfl⟩ | (dsimp only; split <;> exact ⟨rfl, .inl rfl⟩))
  assumption

theorem rel_measureRom {ps_ : List Part} {z_ : State} {s : State} (h0_ : Rel ps_ z_ s) (hp_ : Sub [.sec] ps_) :
    Rel ps_ z_ (measureRom s) := by
  unfold measureRom
  extract_lets -merge -underBinder x2_0 x2_1
  have hx2_0 : Rel ps_ z_ x2_0 := by
    unfold x2_0
    refine rel_extend ?_ (Sub.trans (by decide) hp_)
    · assumption
  clear_value x2_0 x2_1
  refine rel_extend ?_ (Sub.trans (by decide) hp_)
  · assumption

theorem rel_jtagOut {ps_ : List Part} {z_ : State} {s : State} {ir : Nat} {v : Nat} (h0_ : Rel ps_ z_ s) (hp_ : Sub [.tx, .counts, .edge] ps_) :
    Rel ps_ z_ (jtagOut s ir v) := by
  unfold jtagOut
  extract_lets -merge -underBinder x2_0
  clear_value x2_0
  refine rel_emit ?_ (Sub.trans (by decide) hp_)
  · refine rel_edge ?_ (hp_ _ (by decide))
    assumption

theorem rel_execJtagBypass {ps_ : List Part} {z_ : State} {s : State} (h0_ : Rel ps_ z_ s) (hp_ : Sub [.tx, .counts, .edge] ps_) :
    Ends ps_ z_ (execJtagBypass s) := by
  unfold execJtagBypass
  refine ofNext ?_
  refine rel_jtagOut ?_ (Sub.trans (by decide) hp_)
  · assumption

theorem rel_dropActivation {ps_ : List Part} {z_ : State} {s : State} (h0_ : Rel ps_ z_ s) (hp_ : Sub [.lh] ps_) :
    Rel ps_ z_ (dropActivation s) := by
  unfold dropActivation
  extract_lets -merge -underBinder x2_0
  clear_value x2_0
  refine rel_lh ?_ (hp_ _ (by decide))
  assumption

theorem rel_execActivationRestartFail {ps_ : List Part} {z_ : State} {s : State} (h0_ : Rel ps_ z_ s) (hp_ : Sub [.tx, .regs, .counts, .banks, .icu, .clf, .quay, .lh, .pwr, .rst, .sec] ps_) :
    Ends ps_ z_ (execActivationRestartFail s) := by
  unfold execActivationRestartFail
  refine ofNext ?_
  split
  · split
    · split
      · extract_lets -merge -underBinder x8_0 x8_1
        have hx8_0 : Rel ps_ z_ x8_0 := by
          unfold x8_0
          refine rel_modSec ?_ (hp_ _ (by decide)) (by first | exact ⟨rfl, .inl rfl⟩ | (dsimp only; split <;> exact ⟨rfl, .inl rfl⟩))
          refine rel_dropActivation ?_ (Sub.trans (by decide) hp_)
          · assumption
        clear_value x8_0 x8_1
        refine iteP (P := Rel ps_ z_) ?_ ?_
        · assumption
        · refine rel_finish ?_ (Sub.trans (by decide) hp_)
          · refine foldSP ?_ ?_ _
            · assumption
            · intro a14_0 a14_1 h14_0
              refine rel_dueRestart ?_ (Sub.trans (by decide) hp_)
              · assumption
      · assumption
    · assumption
  · assumption

theorem rel_openDebug {ps_ : List Part} {z_ : State} {s : State} {t : List Byte} (h0_ : Rel ps_ z_ s) (hp_ : Sub [.regs, .sec] ps_) :
    Rel ps_ z_ (openDebug s t) := by
  unfold openDebug
  refine rel_extend ?_ (Sub.trans (by decide) hp_)
  · refine rel_wrOr ?_ (Sub.trans (by decide) hp_)
    · refine rel_modSec ?_ (hp_ _ (by decide)) (by first | exact ⟨rfl, .inl rfl⟩ | (dsimp only; split <;> exact ⟨rfl, .inl rfl⟩))
      assumption

theorem rel_measureLife {ps_ : List Part} {z_ : State} {s : State} (h0_ : Rel ps_ z_ s) (hp_ : Sub [.sec] ps_) :
    Rel ps_ z_ (measureLife s) := by
  unfold measureLife
  refine rel_extend ?_ (Sub.trans (by decide) hp_)
  · assumption

theorem rel_enterLife {ps_ : List Part} {z_ : State} {s : State} {life : Nat} (h0_ : Rel ps_ z_ s) (hp_ : Sub [.regs, .sec, .life] ps_) :
    Rel ps_ z_ (enterLife s life) := by
  unfold enterLife
  refine rel_measureLife ?_ (Sub.trans (by decide) hp_)
  · refine rel_wrOr ?_ (Sub.trans (by decide) hp_)
    · refine rel_modSecLife ?_ (hp_ _ (by decide)) (hp_ _ (by decide))
      assumption

theorem rel_execActivationDeferTimeout {ps_ : List Part} {z_ : State} {s : State} (h0_ : Rel ps_ z_ s) (hp_ : Sub [.tx, .counts, .quay, .lh] ps_) :
    Ends ps_ z_ (execActivationDeferTimeout s) := by
  unfold execActivationDeferTimeout
  refine ofNext ?_
  split
  · split
    · refine iteP (P := Rel ps_ z_) ?_ ?_
      · refine rel_finish ?_ (Sub.trans (by decide) hp_)
        · refine rel_dropActivation ?_ (Sub.trans (by decide) hp_)
          · assumption
      · assumption
    · assumption
  · assumption

theorem rel_execAttest {ps_ : List Part} {z_ : State} {h : EcpHdr} {nonce : List Byte} {s : State} (h2_ : Rel ps_ z_ s) (hp_ : Sub [.free, .tx, .regs, .counts, .swl, .quay] ps_) :
    Ends ps_ z_ (execAttest h nonce s) := by
  unfold execAttest
  refine ofNext ?_
  refine rel_ecpRun ?_ ?_ (Sub.trans (by decide) hp_)
  · assumption
  · intro a4_0 h4_0
    extract_lets -merge -underBinder x4_0
    clear_value x4_0
    refine iteP (P := Rel1 ps_ z_) ?_ ?_
    · refine ofPair ?_
      assumption
    · refine iteP (P := Rel1 ps_ z_) ?_ ?_
      · refine ofPair ?_
        assumption
      · refine ofPair ?_
        refine rel_count ?_ (Sub.trans (by decide) hp_)
        · assumption

theorem rel_fresh {ps_ : List Part} {z_ : State} {s : State} (h0_ : Rel ps_ z_ s) (hp_ : Sub [.free] ps_) :
    Rel1 ps_ z_ (fresh s) := by
  unfold fresh
  refine ofPair ?_
  refine rel_useFree ?_ (hp_ _ (by decide))
  · assumption

theorem rel_newChallenge {ps_ : List Part} {z_ : State} {s : State} (h0_ : Rel ps_ z_ s) (hp_ : Sub [.free, .sec] ps_) :
    Rel ps_ z_ (newChallenge s) := by
  unfold newChallenge
  extract_lets -merge -underBinder x2_0
  have hx2_0 : Rel1 ps_ z_ x2_0 := by
    unfold x2_0
    refine rel_fresh ?_ (Sub.trans (by decide) hp_)
    · assumption
  clear_value x2_0
  refine rel_modSec ?_ (hp_ _ (by decide)) (by first | exact ⟨rfl, .inl rfl⟩ | (dsimp only; split <;> exact ⟨rfl, .inl rfl⟩))
  refine (?_ : Rel1 ps_ z_ _)
  assumption

theorem rel_checkToken {ps_ : List Part} {z_ : State} {s : State} {target : Nat} {t : List Byte} (h0_ : Rel ps_ z_ s) (hp_ : Sub [.free, .regs, .counts, .sec] ps_) :
    Rel1 ps_ z_ (checkToken s target t) := by
  unfold checkToken
  extract_lets -merge -underBinder x2_0
  have hx2_0 : Rel ps_ z_ x2_0 := by
    unfold x2_0
    refine rel_modSec ?_ (hp_ _ (by decide)) (by first | exact ⟨rfl, .inl rfl⟩ | (dsimp only; split <;> exact ⟨rfl, .inl rfl⟩))
    assumption
  clear_value x2_0
  refine iteP (P := Rel1 ps_ z_) ?_ ?_
  · refine ofPair ?_
    assumption
  · refine iteP (P := Rel1 ps_ z_) ?_ ?_
    · refine ofPair ?_
      refine rel_newChallenge ?_ (Sub.trans (by decide) hp_)
      · assumption
    · refine ofPair ?_
      refine rel_newChallenge ?_ (Sub.trans (by decide) hp_)
      · refine rel_count ?_ (Sub.trans (by decide) hp_)
        · refine rel_wrOr ?_ (Sub.trans (by decide) hp_)
          · assumption

theorem rel_leaveLife {ps_ : List Part} {z_ : State} {s : State} {life : Nat} (h0_ : Rel ps_ z_ s) (hp_ : Sub [.regs, .sec, .life] ps_) :
    Rel ps_ z_ (leaveLife s life) := by
  unfold leaveLife
  refine rel_wrOr ?_ (Sub.trans (by decide) hp_)
  · refine rel_modSecLife ?_ (hp_ _ (by decide)) (hp_ _ (by decide))
    assumption

theorem rel_lifeRequest {ps_ : List Part} {z_ : State} {s : State} {target : Nat} {t : List Byte} (h0_ : Rel ps_ z_ s) (hp_ : Sub [.free, .regs, .counts, .sec, .life] ps_) :
    Rel1 ps_ z_ (lifeRequest s target t) := by
  unfold lifeRequest
  extract_lets -merge -underBinder x0 x1
  clear_value x0
  have hx1 : ∀ f : State → State, (∀ t, Rel ps_ z_ t → Rel ps_ z_ (f t)) → Rel1 ps_ z_ (x1 f) := by
    intro f hf
    have hr := rel_checkToken (target := target) (t := t) h0_ (Sub.trans (by decide) hp_)
    exact iteP (P := Rel1 ps_ z_) (ofPair (hf _ hr)) (ofPair hr)
  clear_value x1
  refine iteP (P := Rel1 ps_ z_) (iteP (P := Rel1 ps_ z_) ?_ h0_) ?_
  · exact ofPair (rel_enterLife h0_ (Sub.trans (by decide) hp_))
  refine iteP (P := Rel1 ps_ z_) (hx1 _ fun t ht => rel_leaveLife ht (Sub.trans (by decide) hp_)) ?_
  refine iteP (P := Rel1 ps_ z_) (iteP (P := Rel1 ps_ z_) h0_ (hx1 _ fun t ht => ?_)) ?_
  · exact rel_enterLife (rel_modSec ht (hp_ _ (by decide)) ⟨rfl, .inl rfl⟩) (Sub.trans (by decide) hp_)
  refine iteP (P := Rel1 ps_ z_) (iteP (P := Rel1 ps_ z_) ?_ h0_) ?_
  · exact ofPair (rel_leaveLife h0_ (Sub.trans (by decide) hp_))
  exact iteP (P := Rel1 ps_ z_) (hx1 _ fun t ht => rel_openDebug ht (Sub.trans (by decide) hp_)) h0_

theorem rel_execLifecycle {ps_ : List Part} {z_ : State} {h : EcpHdr} {target : Nat} {token : List Byte} {s : State} (h3_ : Rel ps_ z_ s) (hp_ : Sub [.free, .tx, .regs, .counts, .swl, .quay, .sec, .life] ps_) :
    Ends ps_ z_ (execLifecycle h target token s) := by
  unfold execLifecycle
  refine ofNext ?_
  refine rel_ecpRun ?_ ?_ (Sub.trans (by decide) hp_)
  · assumption
  · intro a4_0 h4_0
    refine iteP (P := Rel1 ps_ z_) ?_ ?_
    · refine ofPair ?_
      refine rel_wrOr ?_ (Sub.trans (by decide) hp_)
      · assumption
    · refine iteP (P := Rel1 ps_ z_) ?_ ?_
      · refine ofPair ?_
        assumption
      · refine iteP (P := Rel1 ps_ z_) ?_ ?_
        · refine ofPair ?_
          assumption
        · refine rel_lifeRequest ?_ (Sub.trans (by decide) hp_)
          · assumption

theorem rel_runImage {ps_ : List Part} {z_ : State} {s : State} {f : Nat} (h0_ : Rel ps_ z_ s) (hp_ : Sub [.sec] ps_) :
    Rel ps_ z_ (runImage s f) := by
  unfold runImage
  extract_lets -merge -underBinder x2_0
  clear_value x2_0
  refine rel_modSec ?_ (hp_ _ (by decide)) (by first | exact ⟨rfl, .inl rfl⟩ | (dsimp only; split <;> exact ⟨rfl, .inl rfl⟩))
  assumption

theorem rel_putFlash {ps_ : List Part} {z_ : State} {s : State} {f : Nat} {a : Nat} {b : Byte} (h0_ : Rel ps_ z_ s) (hp_ : Sub [.edge] ps_) :
    Rel ps_ z_ (putFlash s f a b) := by
  unfold putFlash
  extract_lets -merge -underBinder x2_0
  clear_value x2_0
  refine rel_edge ?_ (hp_ _ (by decide))
  assumption

theorem rel_execJtagExtest {ps_ : List Part} {z_ : State} {pins : Nat} {s : State} (h1_ : Rel ps_ z_ s) (hp_ : Sub [.tx, .counts, .edge] ps_) :
    Ends ps_ z_ (execJtagExtest pins s) := by
  unfold execJtagExtest
  extract_lets -merge -underBinder x2_0
  clear_value x2_0
  refine ofNext ?_
  refine iteP (P := Rel ps_ z_) ?_ ?_
  · assumption
  · refine rel_jtagOut ?_ (Sub.trans (by decide) hp_)
    · refine rel_edge ?_ (hp_ _ (by decide))
      assumption

theorem rel_beginActivation {ps_ : List Part} {z_ : State} {s : State} {a : Activation} (h0_ : Rel ps_ z_ s) (hp_ : Sub [.regs, .counts, .banks, .icu, .clf, .lh, .pwr, .rst, .sec] ps_) :
    Rel ps_ z_ (beginActivation s a) := by
  unfold beginActivation
  extract_lets -merge -underBinder x2_0 x2_1 x2_2
  have hx2_0 : Rel ps_ z_ x2_0 := by
    unfold x2_0
    refine rel_extend ?_ (Sub.trans (by decide) hp_)
    · assumption
  clear_value x2_0
  have hx2_1 : Rel ps_ z_ x2_1 := by
    unfold x2_1
    refine rel_modSec ?_ (hp_ _ (by decide)) (by first | exact ⟨rfl, .inl rfl⟩ | (dsimp only; split <;> exact ⟨rfl, .inl rfl⟩))
    assumption
  clear_value x2_1 x2_2
  refine rel_startRestart ?_ (Sub.trans (by decide) hp_)
  · refine rel_lh ?_ (hp_ _ (by decide))
    assumption

theorem rel_execActivationProceed {ps_ : List Part} {z_ : State} {s : State} (h0_ : Rel ps_ z_ s) (hp_ : Sub [.regs, .counts, .banks, .icu, .clf, .lh, .pwr, .rst, .sec] ps_) :
    Ends ps_ z_ (execActivationProceed s) := by
  unfold execActivationProceed
  refine ofNext ?_
  split
  · refine iteP (P := Rel ps_ z_) ?_ ?_
    · refine rel_beginActivation ?_ (Sub.trans (by decide) hp_)
      · assumption
    · assumption
  · assumption

theorem rel_execJtagDebugOpen {ps_ : List Part} {z_ : State} {token : List Byte} {s : State} (h1_ : Rel ps_ z_ s) (hp_ : Sub [.free, .regs, .counts, .sec, .life] ps_) :
    Ends ps_ z_ (execJtagDebugOpen token s) := by
  unfold execJtagDebugOpen
  refine ofNext ?_
  refine iteP (P := Rel ps_ z_) ?_ ?_
  · refine (?_ : Rel1 ps_ z_ _)
    refine rel_lifeRequest ?_ (Sub.trans (by decide) hp_)
    · assumption
  · assumption

theorem rel_bootImage {ps_ : List Part} {z_ : State} {s : State} (h0_ : Rel ps_ z_ s) (hp_ : Sub [.regs, .sec] ps_) :
    Rel1 ps_ z_ (bootImage s) := by
  unfold bootImage
  extract_lets -merge -underBinder x2_0 x2_1 x2_2
  have hx2_0 : Rel ps_ z_ x2_0 := by
    unfold x2_0
    refine rel_measureRom ?_ (Sub.trans (by decide) hp_)
    · assumption
  clear_value x2_0 x2_1 x2_2
  split
  · refine ofPair ?_
    assumption
  · extract_lets -merge -underBinder x4_0 x4_1 x4_2 x4_3 x4_4
    clear_value x4_0
    have hx4_1 : Rel ps_ z_ x4_1 := by
      unfold x4_1
      refine rel_extend ?_ (Sub.trans (by decide) hp_)
      · refine rel_extend ?_ (Sub.trans (by decide) hp_)
        · assumption
    clear_value x4_1
    have hx4_2 : Rel ps_ z_ x4_2 := by
      unfold x4_2
      refine foldSP ?_ ?_ _
      · assumption
      · intro a8_0 a8_1 h8_0
        refine rel_extend ?_ (Sub.trans (by decide) hp_)
        · assumption
    clear_value x4_2
    have hx4_3 : Rel ps_ z_ x4_3 := by
      unfold x4_3
      refine rel_runImage ?_ (Sub.trans (by decide) hp_)
      · assumption
    clear_value x4_3
    have hx4_4 : Rel ps_ z_ x4_4 := by
      unfold x4_4
      refine iteP (P := Rel ps_ z_) ?_ ?_
      · refine rel_wrOr ?_ (Sub.trans (by decide) hp_)
        · refine rel_modSec ?_ (hp_ _ (by decide)) (by first | exact ⟨rfl, .inl rfl⟩ | (dsimp only; split <;> exact ⟨rfl, .inl rfl⟩))
          assumption
      · assumption
    clear_value x4_4
    refine ofPair ?_
    assumption

theorem rel_execFwActivate {ps_ : List Part} {z_ : State} {h : EcpHdr} {image : Nat} {s : State} (h2_ : Rel ps_ z_ s) (hp_ : Sub [.free, .tx, .regs, .counts, .banks, .icu, .clf, .swl, .quay, .lh, .pwr, .rst, .sec] ps_) :
    Ends ps_ z_ (execFwActivate h image s) := by
  unfold execFwActivate
  extract_lets -merge -underBinder x2_0
  have hx2_0 : Rel ps_ z_ x2_0 := by
    unfold x2_0
    refine rel_ecpRun ?_ ?_ (Sub.trans (by decide) hp_)
    · assumption
    · intro a6_0 h6_0
      refine iteP (P := Rel1 ps_ z_) ?_ ?_
      · refine ofPair ?_
        assumption
      · refine iteP (P := Rel1 ps_ z_) ?_ ?_
        · refine ofPair ?_
          assumption
        · split
          · refine ofPair ?_
            assumption
          · extract_lets -merge -underBinder x12_0 x12_1 x12_2
            clear_value x12_0 x12_1 x12_2
            refine iteP (P := Rel1 ps_ z_) ?_ ?_
            · refine ofPair ?_
              refine rel_lh ?_ (hp_ _ (by decide))
              assumption
            · refine ofPair ?_
              refine rel_lh ?_ (hp_ _ (by decide))
              assumption
  clear_value x2_0
  refine ofNext ?_
  split
  · refine iteP (P := Rel ps_ z_) ?_ ?_
    · refine rel_beginActivation ?_ (Sub.trans (by decide) hp_)
      · assumption
    · assumption
  · assumption

theorem rel_writeFlash {ps_ : List Part} {z_ : State} {s : State} {f : Nat} {y2 : Nat} {y3 : List Byte} (h0_ : Rel ps_ z_ s) (hp_ : Sub [.sec, .edge] ps_) :
    Rel ps_ z_ (writeFlash s f y2 y3) := by
  induction y3 generalizing s y2 with
  | nil => exact h0_
  | cons b l ih =>
    unfold writeFlash
    extract_lets -merge -underBinder x0 x1
    have h0 : Rel ps_ z_ x0 := rel_putFlash h0_ (Sub.trans (by decide) hp_)
    clear_value x0
    have h1 : Rel ps_ z_ x1 := by
      unfold x1
      exact iteP (P := Rel ps_ z_) (rel_modSec h0 (hp_ _ (by decide)) ⟨rfl, .inl rfl⟩) h0
    clear_value x1
    exact ih h1

theorem rel_execFwStage {ps_ : List Part} {z_ : State} {h : EcpHdr} {offset : Nat} {data : List Byte} {s : State} (h3_ : Rel ps_ z_ s) (hp_ : Sub [.free, .tx, .regs, .counts, .swl, .quay, .sec, .edge] ps_) :
    Ends ps_ z_ (execFwStage h offset data s) := by
  unfold execFwStage
  refine ofNext ?_
  refine rel_ecpRun ?_ ?_ (Sub.trans (by decide) hp_)
  · assumption
  · intro a4_0 h4_0
    refine iteP (P := Rel1 ps_ z_) ?_ ?_
    · refine ofPair ?_
      assumption
    · refine iteP (P := Rel1 ps_ z_) ?_ ?_
      · refine ofPair ?_
        assumption
      · refine iteP (P := Rel1 ps_ z_) ?_ ?_
        · refine ofPair ?_
          refine rel_wrOr ?_ (Sub.trans (by decide) hp_)
          · assumption
        · refine ofPair ?_
          refine rel_writeFlash ?_ (Sub.trans (by decide) hp_)
          · assumption

theorem rel_endActivation {ps_ : List Part} {z_ : State} {s : State} {a : Activation} (h0_ : Rel ps_ z_ s) (hp_ : Sub [.tx, .counts, .shelf, .num, .snd, .slv, .upd, .mem, .bytes, .clf, .lsh, .shg, .swl, .ofs, .quay, .lh, .sec] ps_) :
    Rel ps_ z_ (endActivation s a) := by
  unfold endActivation
  extract_lets -merge -underBinder x2_0 x2_1 x2_2
  clear_value x2_0
  have hx2_1 : Rel ps_ z_ x2_1 := by
    unfold x2_1
    refine rel_runImage ?_ (Sub.trans (by decide) hp_)
    · refine rel_dropActivation ?_ (Sub.trans (by decide) hp_)
      · assumption
  clear_value x2_1
  have hx2_2 : Rel ps_ z_ x2_2 := by
    unfold x2_2
    refine rel_finish ?_ (Sub.trans (by decide) hp_)
    · assumption
  clear_value x2_2
  refine iteP (P := Rel ps_ z_) ?_ ?_
  · refine foldSP ?_ ?_ _
    · assumption
    · intro a6_0 a6_1 h6_0
      refine rel_closeBerth ?_ (Sub.trans (by decide) hp_)
      · assumption
  · assumption

theorem rel_execCoreRestartDone {ps_ : List Part} {z_ : State} {core : Nat} {s : State} (h1_ : Rel ps_ z_ s) (hp_ : Sub [.free, .tx, .regs, .counts, .banks, .icu, .shelf, .num, .snd, .slv, .upd, .mem, .bytes, .clf, .lsh, .shg, .swl, .ofs, .quay, .lh, .pwr, .rst, .sec] ps_) :
    Ends ps_ z_ (execCoreRestartDone core s) := by
  unfold execCoreRestartDone
  extract_lets -merge -underBinder x2_0
  have hx2_0 : Rel ps_ z_ x2_0 := by
    unfold x2_0
    refine rel_coreRunsAgain ?_ (Sub.trans (by decide) hp_)
    · assumption
  clear_value x2_0
  refine ofNext ?_
  refine iteP (P := Rel ps_ z_) ?_ ?_
  · assumption
  · split
    · split
      · refine iteP (P := Rel ps_ z_) ?_ ?_
        · assumption
        · split
          · refine rel_endActivation ?_ (Sub.trans (by decide) hp_)
            · assumption
          · extract_lets -merge -underBinder x12_0
            clear_value x12_0
            refine rel_startRestart ?_ (Sub.trans (by decide) hp_)
            · refine rel_lh ?_ (hp_ _ (by decide))
              assumption
      · assumption
    · assumption

theorem rel_measureLocks {ps_ : List Part} {z_ : State} {s : State} (h0_ : Rel ps_ z_ s) (hp_ : Sub [.sec] ps_) :
    Rel ps_ z_ (measureLocks s) := by
  unfold measureLocks
  extract_lets -merge -underBinder x2_0 x2_1 x2_2
  clear_value x2_0 x2_1 x2_2
  refine rel_extend ?_ (Sub.trans (by decide) hp_)
  · assumption

theorem rel_execJtagSamplePreload {ps_ : List Part} {z_ : State} {pins : Nat} {s : State} (h1_ : Rel ps_ z_ s) (hp_ : Sub [.tx, .counts, .edge] ps_) :
    Ends ps_ z_ (execJtagSamplePreload pins s) := by
  unfold execJtagSamplePreload
  extract_lets -merge -underBinder x2_0
  clear_value x2_0
  refine ofNext ?_
  refine iteP (P := Rel ps_ z_) ?_ ?_
  · assumption
  · refine rel_jtagOut ?_ (Sub.trans (by decide) hp_)
    · refine rel_edge ?_ (hp_ _ (by decide))
      assumption

theorem rel_deriveIdentity {ps_ : List Part} {z_ : State} {s : State} (h0_ : Rel ps_ z_ s) (hp_ : Sub [.sec] ps_) :
    Rel ps_ z_ (deriveIdentity s) := by
  unfold deriveIdentity
  refine rel_modSec ?_ (hp_ _ (by decide)) (by first | exact ⟨rfl, .inl rfl⟩ | (dsimp only; split <;> exact ⟨rfl, .inl rfl⟩))
  assumption

theorem rel_execRollbackCounterRaise {ps_ : List Part} {z_ : State} {s : State} (h0_ : Rel ps_ z_ s) (hp_ : Sub [.regs, .sec] ps_) :
    Ends ps_ z_ (execRollbackCounterRaise s) := by
  unfold execRollbackCounterRaise
  refine ofNext ?_
  refine iteP (P := Rel ps_ z_) ?_ ?_
  · assumption
  · refine rel_wrOr ?_ (Sub.trans (by decide) hp_)
    · refine rel_modSec ?_ (hp_ _ (by decide)) (by first | exact ⟨rfl, .inl rfl⟩ | (dsimp only; split <;> exact ⟨rfl, .inl rfl⟩))
      assumption

theorem rel_execLifecycleErase {ps_ : List Part} {z_ : State} {s : State} (h0_ : Rel ps_ z_ s) (hp_ : Sub [.tx, .regs, .counts, .shelf, .num, .snd, .slv, .upd, .mem, .bytes, .clf, .lsh, .shg, .swl, .ofs, .quay, .rst, .sec, .life] ps_) :
    Ends ps_ z_ (execLifecycleErase s) := by
  unfold execLifecycleErase
  refine ofNext ?_
  split
  · extract_lets -merge -underBinder x4_0 x4_1 x4_2 x4_3
    clear_value x4_0
    have hx4_1 : Rel ps_ z_ x4_1 := by
      unfold x4_1
      refine rel_swl ?_ (hp_ _ (by decide))
      assumption
    clear_value x4_1
    have hx4_2 : Rel ps_ z_ x4_2 := by
      unfold x4_2
      refine foldSP ?_ ?_ _
      · assumption
      · intro a8_0 a8_1 h8_0
        refine rel_closeBerth ?_ (Sub.trans (by decide) hp_)
        · assumption
    clear_value x4_2
    have hx4_3 : Rel ps_ z_ x4_3 := by
      unfold x4_3
      refine rel_modSecLife ?_ (hp_ _ (by decide)) (hp_ _ (by decide))
      assumption
    clear_value x4_3
    refine iteP (P := Rel ps_ z_) ?_ ?_
    · assumption
    · refine rel_enterDevice ?_ (Sub.trans (by decide) hp_)
      · refine rel_measureLife ?_ (Sub.trans (by decide) hp_)
        · assumption
  · assumption

theorem rel_execJtagProvision {ps_ : List Part} {z_ : State} {s : State} (h0_ : Rel ps_ z_ s) (hp_ : Sub [.regs, .sec, .life] ps_) :
    Ends ps_ z_ (execJtagProvision s) := by
  unfold execJtagProvision
  refine ofNext ?_
  refine iteP (P := Rel ps_ z_) ?_ ?_
  · assumption
  · refine iteP (P := Rel ps_ z_) ?_ ?_
    · refine rel_deriveIdentity ?_ (Sub.trans (by decide) hp_)
      · refine rel_enterLife ?_ (Sub.trans (by decide) hp_)
        · refine rel_modSec ?_ (hp_ _ (by decide)) (by first | exact ⟨rfl, .inl rfl⟩ | (dsimp only; split <;> exact ⟨rfl, .inl rfl⟩))
          assumption
    · refine iteP (P := Rel ps_ z_) ?_ ?_
      · refine rel_enterLife ?_ (Sub.trans (by decide) hp_)
        · assumption
      · assumption

theorem rel_execJtagIdcode {ps_ : List Part} {z_ : State} {s : State} (h0_ : Rel ps_ z_ s) (hp_ : Sub [.tx, .counts, .edge] ps_) :
    Ends ps_ z_ (execJtagIdcode s) := by
  unfold execJtagIdcode
  refine ofNext ?_
  refine rel_jtagOut ?_ (Sub.trans (by decide) hp_)
  · assumption

/-! ### Resets -/

theorem rel_startFails {ps_ : List Part} {z_ : State} {s : State} (h0_ : Rel ps_ z_ s) (hp_ : Sub [.tx, .regs, .counts, .rst] ps_) :
    Rel ps_ z_ (startFails s) := by
  unfold startFails
  extract_lets -merge -underBinder x2_0
  have hx2_0 : Rel ps_ z_ x2_0 := by
    unfold x2_0
    refine rel_setAlert ?_ (Sub.trans (by decide) hp_)
    · assumption
  clear_value x2_0
  refine rel_modRst ?_ (Sub.trans (by decide) hp_)
  · assumption

theorem rel_advanceEpoch {ps_ : List Part} {z_ : State} {s : State} (h0_ : Rel ps_ z_ s) (hp_ : Sub [.sec] ps_) :
    Rel ps_ z_ (advanceEpoch s) := by
  unfold advanceEpoch
  refine rel_modSec ?_ (hp_ _ (by decide)) (by first | exact ⟨rfl, .inl rfl⟩ | (dsimp only; split <;> exact ⟨rfl, .inl rfl⟩))
  assumption

theorem rel_bootStep {ps_ : List Part} {z_ : State} {s : State} (h0_ : Rel ps_ z_ s) (hp_ : Sub [.free, .tx, .regs, .counts, .lh, .rst, .sec] ps_) :
    Rel ps_ z_ (bootStep s) := by
  unfold bootStep
  extract_lets -merge -underBinder x2_0 x2_1 x2_2
  have hx2_0 : Rel1 ps_ z_ x2_0 := by
    unfold x2_0
    refine rel_bootImage ?_ (Sub.trans (by decide) hp_)
    · assumption
  clear_value x2_0
  have hx2_1 : Rel ps_ z_ x2_1 := by
    unfold x2_1
    refine rel_newChallenge ?_ (Sub.trans (by decide) hp_)
    · refine rel_deriveIdentity ?_ (Sub.trans (by decide) hp_)
      · refine rel_advanceEpoch ?_ (Sub.trans (by decide) hp_)
        · refine (?_ : Rel1 ps_ z_ _)
          assumption
  clear_value x2_1
  have hx2_2 : Rel ps_ z_ x2_2 := by
    unfold x2_2
    refine foldSP ?_ ?_ _
    · assumption
    · intro a6_0 a6_1 h6_0
      refine rel_modCore ?_ (Sub.trans (by decide) hp_)
      · assumption
  clear_value x2_2
  refine iteP (P := Rel ps_ z_) ?_ ?_
  · refine rel_modRst ?_ (Sub.trans (by decide) hp_)
    · assumption
  · refine rel_setAlert ?_ (Sub.trans (by decide) hp_)
    · refine (?_ : Rel1 ps_ z_ _)
      assumption

theorem rel_trainStep {ps_ : List Part} {z_ : State} {s : State} {detail : Nat} (h0_ : Rel ps_ z_ s) (hp_ : Sub [.regs, .rst] ps_) :
    Rel ps_ z_ (trainStep s detail) := by
  unfold trainStep
  extract_lets -merge -underBinder x2_0 x2_1 x2_2 x2_3
  have hx2_0 : Rel ps_ z_ x2_0 := by
    unfold x2_0
    refine rel_wr ?_ (Sub.trans (by decide) hp_)
    · assumption
  clear_value x2_0 x2_1
  have hx2_2 : Rel ps_ z_ x2_2 := by
    unfold x2_2
    refine rel_wrs ?_ (Sub.trans (by decide) hp_)
    · assumption
  clear_value x2_2
  have hx2_3 : Rel ps_ z_ x2_3 := by
    unfold x2_3
    refine iteP (P := Rel ps_ z_) ?_ ?_
    · refine foldSP ?_ ?_ _
      · assumption
      · intro a8_0 a8_1 h8_0
        refine rel_wr ?_ (Sub.trans (by decide) hp_)
        · assumption
    · assumption
  clear_value x2_3
  refine rel_modRst ?_ (Sub.trans (by decide) hp_)
  · assumption

theorem rel_staysOut {ps_ : List Part} {z_ : State} {s : State} (h0_ : Rel ps_ z_ s) (hp_ : Sub [.tx, .regs, .counts, .rst] ps_) :
    Rel ps_ z_ (staysOut s) := by
  unfold staysOut
  extract_lets -merge -underBinder x2_0
  have hx2_0 : Rel ps_ z_ x2_0 := by
    unfold x2_0
    refine rel_logRaw ?_ (Sub.trans (by decide) hp_)
    · assumption
  clear_value x2_0
  refine rel_setAlert ?_ (Sub.trans (by decide) hp_)
  · refine rel_wrOr ?_ (Sub.trans (by decide) hp_)
    · refine rel_modRst ?_ (Sub.trans (by decide) hp_)
      · assumption

theorem rel_toPhase {ps_ : List Part} {z_ : State} {s : State} {d : Nat} {n : Nat} (h0_ : Rel ps_ z_ s) (hp_ : Sub [.rst] ps_) :
    Rel ps_ z_ (toPhase s d n) := by
  unfold toPhase
  refine rel_modRst ?_ (Sub.trans (by decide) hp_)
  · assumption

theorem rel_serveStep {ps_ : List Part} {z_ : State} {s : State} (h0_ : Rel ps_ z_ s) (hp_ : Sub [.tx, .regs, .counts, .quay, .rst] ps_) :
    Rel ps_ z_ (serveStep s) := by
  unfold serveStep
  extract_lets -merge -underBinder x2_0 x2_1 x2_2
  have hx2_0 : Rel ps_ z_ x2_0 := by
    unfold x2_0
    refine iteP (P := Rel ps_ z_) ?_ ?_
    · refine rel_leaveService ?_ (Sub.trans (by decide) hp_)
      · assumption
    · refine iteP (P := Rel ps_ z_) ?_ ?_
      · refine rel_staysOut ?_ (Sub.trans (by decide) hp_)
        · assumption
      · assumption
  clear_value x2_0
  have hx2_1 : Rel ps_ z_ x2_1 := by
    unfold x2_1
    refine rel_modRst ?_ (Sub.trans (by decide) hp_)
    · assumption
  clear_value x2_1
  have hx2_2 : Rel ps_ z_ x2_2 := by
    unfold x2_2
    refine iteP (P := Rel ps_ z_) ?_ ?_
    · assumption
    · refine rel_wr ?_ (Sub.trans (by decide) hp_)
      · assumption
  clear_value x2_2
  refine iteP (P := Rel ps_ z_) ?_ ?_
  · refine rel_wrOr ?_ (Sub.trans (by decide) hp_)
    · refine rel_toPhase ?_ (Sub.trans (by decide) hp_)
      · assumption
  · assumption

theorem rel_execPowerOnStage {ps_ : List Part} {z_ : State} {ok : Bool} {detail : Nat} {s : State} (h2_ : Rel ps_ z_ s) (hp_ : Sub [.free, .tx, .regs, .counts, .shelf, .mem, .lsh, .quay, .lh, .rst, .sec, .edge] ps_) :
    Ends ps_ z_ (execPowerOnStage ok detail s) := by
  unfold execPowerOnStage
  extract_lets -merge -underBinder x2_0 x2_1 x2_2
  clear_value x2_0 x2_1
  have hx2_2 : Rel ps_ z_ x2_2 := by
    unfold x2_2
    refine rel_edge ?_ (hp_ _ (by decide))
    assumption
  clear_value x2_2
  refine ofNext ?_
  refine iteP (P := Rel ps_ z_) ?_ ?_
  · assumption
  · refine iteP (P := Rel ps_ z_) ?_ ?_
    · refine iteP (P := Rel ps_ z_) ?_ ?_
      · refine rel_startFails ?_ (Sub.trans (by decide) hp_)
        · assumption
      · refine rel_modRst ?_ (Sub.trans (by decide) hp_)
        · refine rel_wr ?_ (Sub.trans (by decide) hp_)
          · assumption
    · refine iteP (P := Rel ps_ z_) ?_ ?_
      · refine iteP (P := Rel ps_ z_) ?_ ?_
        · refine rel_modRst ?_ (Sub.trans (by decide) hp_)
          · assumption
        · assumption
      · refine iteP (P := Rel ps_ z_) ?_ ?_
        · refine iteP (P := Rel ps_ z_) ?_ ?_
          · refine rel_startFails ?_ (Sub.trans (by decide) hp_)
            · assumption
          · refine rel_modRst ?_ (Sub.trans (by decide) hp_)
            · refine iteP (P := Rel ps_ z_) ?_ ?_
              · refine rel_wr ?_ (Sub.trans (by decide) hp_)
                · assumption
              · assumption
        · refine iteP (P := Rel ps_ z_) ?_ ?_
          · refine rel_bootStep ?_ (Sub.trans (by decide) hp_)
            · assumption
          · refine iteP (P := Rel ps_ z_) ?_ ?_
            · refine iteP (P := Rel ps_ z_) ?_ ?_
              · refine rel_trainStep ?_ (Sub.trans (by decide) hp_)
                · assumption
              · refine rel_tileFault ?_ (Sub.trans (by decide) hp_)
                · refine rel_trainStep ?_ (Sub.trans (by decide) hp_)
                  · assumption
            · refine iteP (P := Rel ps_ z_) ?_ ?_
              · refine rel_serveStep ?_ (Sub.trans (by decide) hp_)
                · assumption
              · refine rel_startFails ?_ (Sub.trans (by decide) hp_)
                · assumption

theorem rel_releaseDevice {ps_ : List Part} {z_ : State} {s : State} (h0_ : Rel ps_ z_ s) (hp_ : Sub [.regs, .rst] ps_) :
    Rel ps_ z_ (releaseDevice s) := by
  unfold releaseDevice
  split
  · refine iteP (P := Rel ps_ z_) ?_ ?_
    · refine rel_modRst ?_ (Sub.trans (by decide) hp_)
      · refine iteP (P := Rel ps_ z_) ?_ ?_
        · refine rel_wr ?_ (Sub.trans (by decide) hp_)
          · assumption
        · assumption
    · assumption
  · assumption

theorem rel_execDomainResetRelease {ps_ : List Part} {z_ : State} {domain : Nat} {s : State} (h1_ : Rel ps_ z_ s) (hp_ : Sub [.regs, .rst] ps_) :
    Ends ps_ z_ (execDomainResetRelease domain s) := by
  unfold execDomainResetRelease
  refine ofNext ?_
  refine iteP (P := Rel ps_ z_) ?_ ?_
  · assumption
  · refine iteP (P := Rel ps_ z_) ?_ ?_
    · refine rel_releaseDevice ?_ (Sub.trans (by decide) hp_)
      · assumption
    · refine rel_toPhase ?_ (Sub.trans (by decide) hp_)
      · assumption

theorem rel_readyUnit {ps_ : List Part} {z_ : State} {s : State} {d : Nat} (h0_ : Rel ps_ z_ s) (hp_ : Sub [.free, .tx, .regs, .counts, .shelf, .snd, .slv, .upd, .mem, .bytes, .clf, .lsh, .shg, .swl, .ofs, .quay, .lh, .rst] ps_) :
    Rel ps_ z_ (readyUnit s d) := by
  unfold readyUnit
  refine iteP (P := Rel ps_ z_) ?_ ?_
  · refine iteP (P := Rel ps_ z_) ?_ ?_
    · refine rel_startAttempt ?_ (Sub.trans (by decide) hp_)
      · assumption
    · assumption
  · refine iteP (P := Rel ps_ z_) ?_ ?_
    · refine rel_ofsContinueAll ?_ (Sub.trans (by decide) hp_)
      · assumption
    · refine iteP (P := Rel ps_ z_) ?_ ?_
      · refine rel_resetHandshakes ?_ (Sub.trans (by decide) hp_)
        · refine rel_modSwl ?_ (Sub.trans (by decide) hp_)
          · assumption
      · refine iteP (P := Rel ps_ z_) ?_ ?_
        · refine rel_coreRunsAgain ?_ (Sub.trans (by decide) hp_)
          · assumption
        · assumption

theorem rel_resetEvent {ps_ : List Part} {z_ : State} {s : State} {d : Nat} (h0_ : Rel ps_ z_ s) (hp_ : Sub [.tx, .regs, .counts, .quay] ps_) :
    Rel ps_ z_ (resetEvent s d) := by
  unfold resetEvent
  refine rel_eventAll ?_ (Sub.trans (by decide) hp_)
  · assumption

theorem rel_execDomainReady {ps_ : List Part} {z_ : State} {domain : Nat} {s : State} (h1_ : Rel ps_ z_ s) (hp_ : Sub [.free, .tx, .regs, .counts, .shelf, .snd, .slv, .upd, .mem, .bytes, .clf, .lsh, .shg, .swl, .ofs, .quay, .lh, .rst] ps_) :
    Ends ps_ z_ (execDomainReady domain s) := by
  unfold execDomainReady
  extract_lets -merge -underBinder x2_0 x2_1 x2_2 x2_3 x2_4
  have hx2_0 : Rel ps_ z_ x2_0 := by
    unfold x2_0
    refine rel_modRst ?_ (Sub.trans (by decide) hp_)
    · assumption
  clear_value x2_0
  have hx2_1 : Rel ps_ z_ x2_1 := by
    unfold x2_1
    refine rel_readyUnit ?_ (Sub.trans (by decide) hp_)
    · refine rel_toPhase ?_ (Sub.trans (by decide) hp_)
      · assumption
  clear_value x2_1
  have hx2_2 : Rel ps_ z_ x2_2 := by
    unfold x2_2
    refine rel_resetEvent ?_ (Sub.trans (by decide) hp_)
    · refine rel_wrOr ?_ (Sub.trans (by decide) hp_)
      · assumption
  clear_value x2_2 x2_3
  have hx2_4 : Rel ps_ z_ x2_4 := by
    unfold x2_4
    refine rel_modRst ?_ (Sub.trans (by decide) hp_)
    · assumption
  clear_value x2_4
  refine ofNext ?_
  refine iteP (P := Rel ps_ z_) ?_ ?_
  · assumption
  · refine foldSP ?_ ?_ _
    · assumption
    · intro a6_0 a6_1 h6_0
      refine rel_finish ?_ (Sub.trans (by decide) hp_)
      · assumption

theorem rel_execPllUnlock {ps_ : List Part} {z_ : State} {pll : Nat} {s : State} (h1_ : Rel ps_ z_ s) (hp_ : Sub [.regs, .counts, .rst] ps_) :
    Ends ps_ z_ (execPllUnlock pll s) := by
  unfold execPllUnlock
  extract_lets -merge -underBinder x2_0
  have hx2_0 : Rel ps_ z_ x2_0 := by
    unfold x2_0
    refine rel_count ?_ (Sub.trans (by decide) hp_)
    · refine rel_wrOr ?_ (Sub.trans (by decide) hp_)
      · assumption
  clear_value x2_0
  refine ofNext ?_
  refine iteP (P := Rel ps_ z_) ?_ ?_
  · assumption
  · refine rel_enterDevice ?_ (Sub.trans (by decide) hp_)
    · refine rel_wr ?_ (Sub.trans (by decide) hp_)
      · assumption

theorem rel_deviceState {ps_ : List Part} {z_ : State} {s : State} (h0_ : Rel ps_ z_ s) (hp_ : Sub [.regs, .counts, .banks, .icu, .shelf, .num, .snd, .slv, .upd, .mem, .bytes, .clf, .lsh, .shg, .swl, .ofs, .quay, .eth, .lh, .pwr, .rst, .sec, .edge] ps_) :
    Rel ps_ z_ (deviceState s) := by
  refine ⟨h0_.pending, h0_.variant, h0_.free, h0_.tx, fun c => ⟨rfl, regsOk_filter _ (h0_.canon c).2⟩, fun q hq => ?_⟩
  refine Part.same_trans (h0_.frame q hq) ?_
  cases q <;> first | rfl | exact ⟨rfl, .inr rfl⟩ | exact absurd (hp_ _ (by decide)) hq

theorem rel_assertDevice {ps_ : List Part} {z_ : State} {s : State} (h0_ : Rel ps_ z_ s) (hp_ : Sub [.regs, .counts, .banks, .icu, .shelf, .num, .snd, .slv, .upd, .mem, .bytes, .clf, .lsh, .shg, .swl, .ofs, .quay, .eth, .lh, .pwr, .rst, .sec, .edge] ps_) :
    Rel ps_ z_ (assertDevice s) := by
  unfold assertDevice
  refine rel_deviceState ?_ (Sub.trans (by decide) hp_)
  · assumption

theorem rel_rerunUpdate {ps_ : List Part} {z_ : State} {s : State} {k : Nat} {n : Nat} {b : Nat} (h0_ : Rel ps_ z_ s) (hp_ : Sub [.regs, .shelf, .snd, .slv, .upd, .rst] ps_) :
    Rel ps_ z_ (rerunUpdate s k n b) := by
  unfold rerunUpdate
  split
  · assumption
  · extract_lets -merge -underBinder x4_0 x4_1 x4_2 x4_3 x4_4
    clear_value x4_0
    have hx4_1 : ∀ a0, Rel ps_ z_ a0 → ∀ a1, Rel ps_ z_ (x4_1 a0 a1) := by
      intro a0_ h0_ a1_
      unfold x4_1
      refine iteP (P := Rel ps_ z_) ?_ ?_
      · refine rel_modFs ?_ (Sub.trans (by decide) hp_)
        · assumption
      · assumption
    clear_value x4_1
    have hx4_2 : Rel ps_ z_ x4_2 := by
      unfold x4_2
      refine rel_modUpdate ?_ (Sub.trans (by decide) hp_)
      · assumption
    clear_value x4_2
    have hx4_3 : Rel ps_ z_ x4_3 := by
      unfold x4_3
      refine foldSP ?_ ?_ _
      · assumption
      · intro a8_0 a8_1 h8_0
        refine hx4_1 _ ?_ _
        assumption
    clear_value x4_3
    have hx4_4 : Rel ps_ z_ x4_4 := by
      unfold x4_4
      refine rel_modSlv ?_ (Sub.trans (by decide) hp_)
      · assumption
    clear_value x4_4
    refine iteP (P := Rel ps_ z_) ?_ ?_
    · refine rel_nestedError ?_ (Sub.trans (by decide) hp_)
      · assumption
    · refine rel_modShelf ?_ (Sub.trans (by decide) hp_)
      · assumption

theorem rel_looseSum {ps_ : List Part} {z_ : State} {s : State} {r : RunOp} (h0_ : Rel ps_ z_ s) (hp_ : Sub [.free, .tx, .regs, .counts, .mem, .bytes, .quay, .rst] ps_) :
    Rel ps_ z_ (looseSum s r) := by
  unfold looseSum
  extract_lets -merge -underBinder x2_0 x2_1 x2_2 x2_3
  clear_value x2_0 x2_1 x2_2 x2_3
  refine (?_ : Rel1 ps_ z_ _)
  refine rel_writeRuns ?_ (Sub.trans (by decide) hp_)
  · refine rel_useFree ?_ (hp_ _ (by decide))
    · assumption

theorem rel_interruptShelf {ps_ : List Part} {z_ : State} {s : State} {k : Nat} (h0_ : Rel ps_ z_ s) (hp_ : Sub [.free, .tx, .regs, .counts, .shelf, .num, .snd, .slv, .upd, .mem, .bytes, .lsh, .shg, .swl, .ofs, .quay, .rst] ps_) :
    Rel ps_ z_ (interruptShelf s k) := by
  unfold interruptShelf
  split
  · assumption
  · extract_lets -merge -underBinder x4_0 x4_1 x4_2
    clear_value x4_0
    have hx4_1 : Rel ps_ z_ x4_1 := by
      unfold x4_1
      refine rel_looseSum ?_ (Sub.trans (by decide) hp_)
      · refine rel_leaveArray ?_ (Sub.trans (by decide) hp_)
        · assumption
    clear_value x4_1
    have hx4_2 : Rel ps_ z_ x4_2 := by
      unfold x4_2
      refine rel_opFault ?_ (Sub.trans (by decide) hp_)
      · refine rel_setFlag ?_ (Sub.trans (by decide) hp_)
        · assumption
    clear_value x4_2
    refine iteP (P := Rel ps_ z_) ?_ ?_
    · split
      · refine rel_rerunUpdate ?_ (Sub.trans (by decide) hp_)
        · assumption
      · assumption
    · refine iteP (P := Rel ps_ z_) ?_ ?_
      · refine iteP (P := Rel ps_ z_) ?_ ?_
        · refine rel_clearJob ?_ (Sub.trans (by decide) hp_)
          · refine rel_doneCount ?_ (Sub.trans (by decide) hp_)
            · assumption
        · refine iteP (P := Rel ps_ z_) ?_ ?_
          · assumption
          · refine iteP (P := Rel ps_ z_) ?_ ?_
            · refine rel_modShelf ?_ (Sub.trans (by decide) hp_)
              · assumption
            · refine rel_finishOp ?_ (Sub.trans (by decide) hp_)
              · assumption
      · assumption

theorem rel_resetHarbour {ps_ : List Part} {z_ : State} {s : State} (h0_ : Rel ps_ z_ s) (hp_ : Sub [.shelf, .num, .snd, .slv, .upd, .mem, .bytes, .lsh, .shg, .swl, .ofs, .quay, .rst] ps_) :
    Rel ps_ z_ (resetHarbour s) := by
  unfold resetHarbour
  extract_lets -merge -underBinder x2_0 x2_1
  have hx2_0 : ∀ a0, Rel ps_ z_ a0 → ∀ a1, Rel ps_ z_ (x2_0 a0 a1) := by
    intro a0_ h0_ a1_
    unfold x2_0
    extract_lets -merge -underBinder x4_0 x4_1 x4_2 x4_3
    have hx4_0 : Rel ps_ z_ x4_0 := by
      unfold x4_0
      refine rel_clearShingle ?_ (Sub.trans (by decide) hp_)
      · refine rel_freeObjects ?_ (Sub.trans (by decide) hp_)
        · refine rel_leaveSession ?_ (Sub.trans (by decide) hp_)
          · assumption
    clear_value x4_0
    have hx4_1 : Rel ps_ z_ x4_1 := by
      unfold x4_1
      refine rel_modShelf ?_ (Sub.trans (by decide) hp_)
      · assumption
    clear_value x4_1
    have hx4_2 : Rel ps_ z_ x4_2 := by
      unfold x4_2
      refine rel_clearNumbers ?_ (Sub.trans (by decide) hp_)
      · refine rel_clearEngines ?_ (Sub.trans (by decide) hp_)
        · refine rel_clearShelf ?_ (Sub.trans (by decide) hp_)
          · assumption
    clear_value x4_2
    have hx4_3 : Rel ps_ z_ x4_3 := by
      unfold x4_3
      refine foldSP ?_ ?_ _
      · assumption
      · intro a8_0 a8_1 h8_0
        refine rel_modChan ?_ (Sub.trans (by decide) hp_)
        · assumption
    clear_value x4_3
    refine rel_modBerth ?_ (Sub.trans (by decide) hp_)
    · assumption
  clear_value x2_0
  have hx2_1 : Rel ps_ z_ x2_1 := by
    unfold x2_1
    refine foldSP ?_ ?_ _
    · assumption
    · intro a6_0 a6_1 h6_0
      refine hx2_0 _ ?_ _
      assumption
  clear_value x2_1
  refine rel_modRst ?_ (Sub.trans (by decide) hp_)
  · assumption

theorem rel_resetLongshore {ps_ : List Part} {z_ : State} {s : State} (h0_ : Rel ps_ z_ s) (hp_ : Sub [.lsh] ps_) :
    Rel ps_ z_ (resetLongshore s) := by
  unfold resetLongshore
  extract_lets -merge -underBinder x2_0
  have hx2_0 : ∀ a0, Rel ps_ z_ a0 → ∀ a1, Rel ps_ z_ (x2_0 a0 a1) := by
    intro a0_ h0_ a1_
    unfold x2_0
    extract_lets -merge -underBinder x4_0 x4_1
    clear_value x4_0
    have hx4_1 : Rel ps_ z_ x4_1 := by
      unfold x4_1
      refine foldSP ?_ ?_ _
      · assumption
      · intro a8_0 a8_1 h8_0
        refine rel_modChan ?_ (Sub.trans (by decide) hp_)
        · assumption
    clear_value x4_1
    refine rel_modLsh ?_ (Sub.trans (by decide) hp_)
    · assumption
  clear_value x2_0
  refine rel_modLsh ?_ (Sub.trans (by decide) hp_)
  · refine foldSP ?_ ?_ _
    · assumption
    · intro a6_0 a6_1 h6_0
      refine hx2_0 _ ?_ _
      assumption

theorem rel_resetQuay {ps_ : List Part} {z_ : State} {s : State} (h0_ : Rel ps_ z_ s) (hp_ : Sub [.swl, .quay] ps_) :
    Rel ps_ z_ (resetQuay s) := by
  unfold resetQuay
  refine foldSP ?_ ?_ _
  · assumption
  · intro a4_0 a4_1 h4_0
    refine iteP (P := Rel ps_ z_) ?_ ?_
    · assumption
    · refine rel_modBerth ?_ (Sub.trans (by decide) hp_)
      · refine rel_detach ?_ (Sub.trans (by decide) hp_)
        · assumption

theorem rel_assertUnit {ps_ : List Part} {z_ : State} {s : State} {d : Nat} (h0_ : Rel ps_ z_ s) (hp_ : Sub [.free, .tx, .regs, .counts, .banks, .icu, .shelf, .num, .snd, .slv, .upd, .mem, .bytes, .clf, .lsh, .shg, .swl, .ofs, .quay, .eth, .lh, .pwr, .rst] ps_) :
    Rel ps_ z_ (assertUnit s d) := by
  unfold assertUnit
  extract_lets -merge -underBinder x2_0
  clear_value x2_0
  refine iteP (P := Rel ps_ z_) ?_ ?_
  · refine iteP (P := Rel ps_ z_) ?_ ?_
    · assumption
    · refine rel_interruptShelf ?_ (Sub.trans (by decide) hp_)
      · assumption
  · refine iteP (P := Rel ps_ z_) ?_ ?_
    · refine rel_resetHarbour ?_ (Sub.trans (by decide) hp_)
      · assumption
    · refine iteP (P := Rel ps_ z_) ?_ ?_
      · refine rel_portReset ?_ (Sub.trans (by decide) hp_)
        · assumption
      · refine iteP (P := Rel ps_ z_) ?_ ?_
        · refine rel_resetLongshore ?_ (Sub.trans (by decide) hp_)
          · assumption
        · refine iteP (P := Rel ps_ z_) ?_ ?_
          · refine rel_resetOffshore ?_ (Sub.trans (by decide) hp_)
            · assumption
          · refine iteP (P := Rel ps_ z_) ?_ ?_
            · refine rel_resetSeawall ?_ (Sub.trans (by decide) hp_)
              · assumption
            · refine iteP (P := Rel ps_ z_) ?_ ?_
              · refine rel_resetShingle ?_ (Sub.trans (by decide) hp_)
                · assumption
              · refine iteP (P := Rel ps_ z_) ?_ ?_
                · refine rel_resetQuay ?_ (Sub.trans (by decide) hp_)
                  · assumption
                · refine iteP (P := Rel ps_ z_) ?_ ?_
                  · refine foldSP ?_ ?_ _
                    · assumption
                    · intro a22_0 a22_1 h22_0
                      refine rel_setLink ?_ (Sub.trans (by decide) hp_)
                      · assumption
                  · refine iteP (P := Rel ps_ z_) ?_ ?_
                    · refine rel_startRestart ?_ (Sub.trans (by decide) hp_)
                      · assumption
                    · assumption

theorem rel_assertDomain {ps_ : List Part} {z_ : State} {s : State} {d : Nat} (h0_ : Rel ps_ z_ s) (hp_ : Sub [.free, .tx, .regs, .counts, .banks, .icu, .shelf, .num, .snd, .slv, .upd, .mem, .bytes, .clf, .lsh, .shg, .swl, .ofs, .quay, .eth, .lh, .pwr, .rst, .sec, .edge] ps_) :
    Rel ps_ z_ (assertDomain s d) := by
  unfold assertDomain
  refine iteP (P := Rel ps_ z_) ?_ ?_
  · refine rel_assertDevice ?_ (Sub.trans (by decide) hp_)
    · assumption
  · refine rel_assertUnit ?_ (Sub.trans (by decide) hp_)
    · refine rel_toPhase ?_ (Sub.trans (by decide) hp_)
      · assumption

theorem rel_writeLogAck {ps_ : List Part} {z_ : State} {s : State} {c : CrsWrite} (h0_ : Rel ps_ z_ s) (hp_ : Sub [.regs, .rst] ps_) :
    Rel ps_ z_ (writeLogAck s c) := by
  unfold writeLogAck
  extract_lets -merge -underBinder x2_0 x2_1 x2_2 x2_3 x2_4
  clear_value x2_0 x2_1 x2_2 x2_3
  have hx2_4 : Rel ps_ z_ x2_4 := by
    unfold x2_4
    refine rel_modRst ?_ (Sub.trans (by decide) hp_)
    · assumption
  clear_value x2_4
  refine iteP (P := Rel ps_ z_) ?_ ?_
  · assumption
  · refine iteP (P := Rel ps_ z_) ?_ ?_
    · refine rel_logRaw ?_ (Sub.trans (by decide) hp_)
      · assumption
    · assumption

theorem rel_execHoldoverExpiry {ps_ : List Part} {z_ : State} {s : State} (h0_ : Rel ps_ z_ s) (hp_ : Sub [.tx, .regs, .counts, .quay, .rst] ps_) :
    Ends ps_ z_ (execHoldoverExpiry s) := by
  unfold execHoldoverExpiry
  refine ofNext ?_
  split
  · extract_lets -merge -underBinder x4_0
    have hx4_0 : Rel ps_ z_ x4_0 := by
      unfold x4_0
      refine rel_wrOr ?_ (Sub.trans (by decide) hp_)
      · refine rel_modRst ?_ (Sub.trans (by decide) hp_)
        · assumption
    clear_value x4_0
    refine iteP (P := Rel ps_ z_) ?_ ?_
    · assumption
    · refine iteP (P := Rel ps_ z_) ?_ ?_
      · assumption
      · refine rel_leaveService ?_ (Sub.trans (by decide) hp_)
        · assumption
  · assumption

theorem rel_askReset {ps_ : List Part} {z_ : State} {s : State} {d : Nat} (h0_ : Rel ps_ z_ s) (hp_ : Sub [.regs, .lh, .rst] ps_) :
    Rel ps_ z_ (askReset s d) := by
  unfold askReset
  refine iteP (P := Rel ps_ z_) ?_ ?_
  · assumption
  · refine iteP (P := Rel ps_ z_) ?_ ?_
    · refine rel_nestedError ?_ (Sub.trans (by decide) hp_)
      · assumption
    · refine iteP (P := Rel ps_ z_) ?_ ?_
      · refine rel_modCore ?_ (Sub.trans (by decide) hp_)
        · assumption
      · refine rel_enterReset ?_ (Sub.trans (by decide) hp_)
        · assumption

theorem rel_writeRstReq {ps_ : List Part} {z_ : State} {s : State} {c : CrsWrite} (h0_ : Rel ps_ z_ s) (hp_ : Sub [.regs, .lh, .rst] ps_) :
    Rel ps_ z_ (writeRstReq s c) := by
  unfold writeRstReq
  extract_lets -merge -underBinder x2_0
  clear_value x2_0
  refine iteP (P := Rel ps_ z_) ?_ ?_
  · assumption
  · refine iteP (P := Rel ps_ z_) ?_ ?_
    · refine rel_askReset ?_ (Sub.trans (by decide) hp_)
      · assumption
    · assumption

theorem rel_execRstReqGo {ps_ : List Part} {z_ : State} {w : CrsWrite} {s : State} (h1_ : Rel ps_ z_ s) (hp_ : Sub [.regs, .lh, .rst] ps_) :
    Ends ps_ z_ (execRstReqGo w s) := by
  unfold execRstReqGo
  refine ofNext ?_
  refine rel_writeRstReq ?_ (Sub.trans (by decide) hp_)
  · assumption

theorem rel_execAonPowerLoss {ps_ : List Part} {z_ : State} {s : State} (h0_ : Rel ps_ z_ s) (hp_ : Sub [.regs, .counts, .banks, .icu, .shelf, .num, .snd, .slv, .upd, .mem, .bytes, .clf, .lsh, .shg, .swl, .ofs, .quay, .eth, .lh, .pwr, .rst, .sec, .edge] ps_) :
    Ends ps_ z_ (execAonPowerLoss s) := by
  refine ofNext ⟨h0_.pending, h0_.variant, h0_.free, h0_.tx, fun _ => ⟨rfl, rfl⟩, fun q hq => ?_⟩
  refine Part.same_trans (h0_.frame q hq) ?_
  cases q <;> first | rfl | exact ⟨rfl, .inr rfl⟩ | exact absurd (hp_ _ (by decide)) hq

theorem rel_execHangDetect {ps_ : List Part} {z_ : State} {domain : Nat} {s : State} (h1_ : Rel ps_ z_ s) (hp_ : Sub [.regs, .rst] ps_) :
    Ends ps_ z_ (execHangDetect domain s) := by
  unfold execHangDetect
  extract_lets -merge -underBinder x2_0 x2_1
  clear_value x2_0
  have hx2_1 : Rel ps_ z_ x2_1 := by
    unfold x2_1
    refine rel_logError ?_ (Sub.trans (by decide) hp_)
    · refine rel_wrOr ?_ (Sub.trans (by decide) hp_)
      · assumption
  clear_value x2_1
  refine ofNext ?_
  refine iteP (P := Rel ps_ z_) ?_ ?_
  · assumption
  · refine iteP (P := Rel ps_ z_) ?_ ?_
    · assumption
    · refine iteP (P := Rel ps_ z_) ?_ ?_
      · refine foldSP ?_ ?_ _
        · assumption
        · intro a10_0 a10_1 h10_0
          refine iteP (P := Rel ps_ z_) ?_ ?_
          · assumption
          · refine rel_enterReset ?_ (Sub.trans (by decide) hp_)
            · assumption
      · refine rel_enterReset ?_ (Sub.trans (by decide) hp_)
        · assumption

theorem rel_execErrlogRead {ps_ : List Part} {z_ : State} {h : EcpHdr} {first : W32} {s : State} (h2_ : Rel ps_ z_ s) (hp_ : Sub [.free, .tx, .regs, .counts, .swl, .quay] ps_) :
    Ends ps_ z_ (execErrlogRead h first s) := by
  unfold execErrlogRead
  refine ofNext ?_
  refine rel_ecpRun ?_ ?_ (Sub.trans (by decide) hp_)
  · assumption
  · intro a4_0 h4_0
    refine ofPair ?_
    assumption

theorem rel_execDiag {ps_ : List Part} {z_ : State} {h : EcpHdr} {test : Nat} {argument : W64} {s : State} (h3_ : Rel ps_ z_ s) (hp_ : Sub [.free, .tx, .regs, .counts, .swl, .quay] ps_) :
    Ends ps_ z_ (execDiag h test argument s) := by
  unfold execDiag
  refine ofNext ?_
  refine rel_ecpRun ?_ ?_ (Sub.trans (by decide) hp_)
  · assumption
  · intro a4_0 h4_0
    refine ofPair ?_
    assumption

theorem rel_execModResetRelease {ps_ : List Part} {z_ : State} {s : State} (h0_ : Rel ps_ z_ s) (hp_ : Sub [.regs, .rst] ps_) :
    Ends ps_ z_ (execModResetRelease s) := by
  unfold execModResetRelease
  refine ofNext ?_
  refine iteP (P := Rel ps_ z_) ?_ ?_
  · refine rel_releaseDevice ?_ (Sub.trans (by decide) hp_)
    · refine rel_modRst ?_ (Sub.trans (by decide) hp_)
      · assumption
  · assumption

theorem rel_takeCrash {ps_ : List Part} {z_ : State} {s : State} {d : Nat} (h0_ : Rel ps_ z_ s) (hp_ : Sub [.free, .rst] ps_) :
    Rel ps_ z_ (takeCrash s d) := by
  unfold takeCrash
  extract_lets -merge -underBinder x2_0 x2_1 x2_2 x2_3
  clear_value x2_0
  have hx2_1 : Rel ps_ z_ x2_1 := by
    unfold x2_1
    refine rel_useFree ?_ (hp_ _ (by decide))
    · refine rel_useFree ?_ (hp_ _ (by decide))
      · assumption
  clear_value x2_1 x2_2 x2_3
  refine rel_modRst ?_ (Sub.trans (by decide) hp_)
  · assumption

theorem rel_execDeviceResetDelayed {ps_ : List Part} {z_ : State} {s : State} (h0_ : Rel ps_ z_ s) (hp_ : Sub [.regs, .rst] ps_) :
    Ends ps_ z_ (execDeviceResetDelayed s) := by
  unfold execDeviceResetDelayed
  refine ofNext ?_
  split
  · refine iteP (P := Rel ps_ z_) ?_ ?_
    · refine rel_enterDevice ?_ (Sub.trans (by decide) hp_)
      · refine rel_modRst ?_ (Sub.trans (by decide) hp_)
        · assumption
    · assumption
  · assumption

theorem rel_execRecoveryWindowEnd {ps_ : List Part} {z_ : State} {domain : Nat} {s : State} (h1_ : Rel ps_ z_ s) (hp_ : Sub [.rst] ps_) :
    Ends ps_ z_ (execRecoveryWindowEnd domain s) := by
  unfold execRecoveryWindowEnd
  refine ofNext ?_
  split
  · refine iteP (P := Rel ps_ z_) ?_ ?_
    · refine rel_modRst ?_ (Sub.trans (by decide) hp_)
      · assumption
    · assumption
  · assumption

theorem rel_execDomainReset {ps_ : List Part} {z_ : State} {h : EcpHdr} {domain : Nat} {s : State} (h2_ : Rel ps_ z_ s) (hp_ : Sub [.free, .tx, .regs, .counts, .swl, .quay, .rst] ps_) :
    Ends ps_ z_ (execDomainReset h domain s) := by
  unfold execDomainReset
  refine ofNext ?_
  refine rel_ecpRun ?_ ?_ (Sub.trans (by decide) hp_)
  · assumption
  · intro a4_0 h4_0
    refine iteP (P := Rel1 ps_ z_) ?_ ?_
    · refine ofPair ?_
      assumption
    · refine iteP (P := Rel1 ps_ z_) ?_ ?_
      · refine ofPair ?_
        assumption
      · split
        · refine iteP (P := Rel1 ps_ z_) ?_ ?_
          · refine ofPair ?_
            assumption
          · refine ofPair ?_
            assumption
        · extract_lets -merge -underBinder x10_0 x10_1
          clear_value x10_0
          have hx10_1 : Rel ps_ z_ x10_1 := by
            unfold x10_1
            refine rel_modRst ?_ (Sub.trans (by decide) hp_)
            · assumption
          clear_value x10_1
          refine iteP (P := Rel1 ps_ z_) ?_ ?_
          · refine ofPair ?_
            assumption
          · refine iteP (P := Rel1 ps_ z_) ?_ ?_
            · refine ofPair ?_
              refine rel_modRst ?_ (Sub.trans (by decide) hp_)
              · assumption
            · refine iteP (P := Rel1 ps_ z_) ?_ ?_
              · refine ofPair ?_
                assumption
              · refine iteP (P := Rel1 ps_ z_) ?_ ?_
                · refine ofPair ?_
                  assumption
                · refine ofPair ?_
                  refine rel_enterReset ?_ (Sub.trans (by decide) hp_)
                  · assumption

theorem rel_execStartupStepTimeout {ps_ : List Part} {z_ : State} {s : State} (h0_ : Rel ps_ z_ s) (hp_ : Sub [.tx, .regs, .counts, .rst] ps_) :
    Ends ps_ z_ (execStartupStepTimeout s) := by
  unfold execStartupStepTimeout
  refine ofNext ?_
  refine iteP (P := Rel ps_ z_) ?_ ?_
  · assumption
  · refine rel_startFails ?_ (Sub.trans (by decide) hp_)
    · assumption

theorem rel_execDomainQuiesceDone {ps_ : List Part} {z_ : State} {domain : Nat} {s : State} (h1_ : Rel ps_ z_ s) (hp_ : Sub [.free, .tx, .regs, .counts, .banks, .icu, .shelf, .num, .snd, .slv, .upd, .mem, .bytes, .clf, .lsh, .shg, .swl, .ofs, .quay, .eth, .lh, .pwr, .rst, .sec, .edge] ps_) :
    Ends ps_ z_ (execDomainQuiesceDone domain s) := by
  unfold execDomainQuiesceDone
  refine ofNext ?_
  split
  · refine iteP (P := Rel ps_ z_) ?_ ?_
    · assumption
    · refine iteP (P := Rel ps_ z_) ?_ ?_
      · refine rel_modRst ?_ (Sub.trans (by decide) hp_)
        · refine rel_toPhase ?_ (Sub.trans (by decide) hp_)
          · assumption
      · refine rel_assertDomain ?_ (Sub.trans (by decide) hp_)
        · assumption
  · assumption

theorem rel_execRstLogAckWrite {ps_ : List Part} {z_ : State} {w : CrsWrite} {s : State} (h1_ : Rel ps_ z_ s) (hp_ : Sub [.regs, .rst] ps_) :
    Ends ps_ z_ (execRstLogAckWrite w s) := by
  unfold execRstLogAckWrite
  refine ofNext ?_
  refine rel_writeLogAck ?_ (Sub.trans (by decide) hp_)
  · assumption

theorem rel_resetNow {ps_ : List Part} {z_ : State} {s : State} {counted : Bool} (h0_ : Rel ps_ z_ s) (hp_ : Sub [.regs, .counts, .banks, .icu, .shelf, .num, .snd, .slv, .upd, .mem, .bytes, .clf, .lsh, .shg, .swl, .ofs, .quay, .eth, .lh, .pwr, .rst, .sec, .edge] ps_) :
    Rel ps_ z_ (resetNow s counted) := by
  unfold resetNow
  refine iteP (P := Rel ps_ z_) ?_ ?_
  · assumption
  · refine rel_assertDevice ?_ (Sub.trans (by decide) hp_)
    · refine rel_enterDevice ?_ (Sub.trans (by decide) hp_)
      · assumption

theorem rel_execCrashRecordDone {ps_ : List Part} {z_ : State} {s : State} (h0_ : Rel ps_ z_ s) (hp_ : Sub [.free, .tx, .regs, .counts, .banks, .icu, .shelf, .num, .snd, .slv, .upd, .mem, .bytes, .clf, .lsh, .shg, .swl, .ofs, .quay, .eth, .lh, .pwr, .rst, .sec, .edge] ps_) :
    Ends ps_ z_ (execCrashRecordDone s) := by
  unfold execCrashRecordDone
  refine ofNext ?_
  split
  · assumption
  · extract_lets -merge -underBinder x4_0
    have hx4_0 : Rel ps_ z_ x4_0 := by
      unfold x4_0
      refine rel_modRst ?_ (Sub.trans (by decide) hp_)
      · refine rel_takeCrash ?_ (Sub.trans (by decide) hp_)
        · assumption
    clear_value x4_0
    refine iteP (P := Rel ps_ z_) ?_ ?_
    · refine rel_assertDomain ?_ (Sub.trans (by decide) hp_)
      · assumption
    · assumption

theorem rel_execReturnToService {ps_ : List Part} {z_ : State} {h : EcpHdr} {tilesOk : Bool} {hbmOk : Bool} {ddrOk : Bool} {s : State} (h4_ : Rel ps_ z_ s) (hp_ : Sub [.free, .tx, .regs, .counts, .swl, .quay, .rst] ps_) :
    Ends ps_ z_ (execReturnToService h tilesOk hbmOk ddrOk s) := by
  unfold execReturnToService
  refine ofNext ?_
  refine rel_ecpRun ?_ ?_ (Sub.trans (by decide) hp_)
  · assumption
  · intro a4_0 h4_0
    refine iteP (P := Rel1 ps_ z_) ?_ ?_
    · refine ofPair ?_
      assumption
    · refine iteP (P := Rel1 ps_ z_) ?_ ?_
      · refine ofPair ?_
        assumption
      · refine iteP (P := Rel1 ps_ z_) ?_ ?_
        · refine ofPair ?_
          refine rel_wrOr ?_ (Sub.trans (by decide) hp_)
          · assumption
        · refine iteP (P := Rel1 ps_ z_) ?_ ?_
          · refine ofPair ?_
            refine rel_wr ?_ (Sub.trans (by decide) hp_)
            · refine rel_modRst ?_ (Sub.trans (by decide) hp_)
              · assumption
          · refine ofPair ?_
            assumption

theorem rel_execModResetAssert {ps_ : List Part} {z_ : State} {s : State} (h0_ : Rel ps_ z_ s) (hp_ : Sub [.regs, .counts, .banks, .icu, .shelf, .num, .snd, .slv, .upd, .mem, .bytes, .clf, .lsh, .shg, .swl, .ofs, .quay, .eth, .lh, .pwr, .rst, .sec, .edge] ps_) :
    Ends ps_ z_ (execModResetAssert s) := by
  unfold execModResetAssert
  extract_lets -merge -underBinder x2_0
  have hx2_0 : Rel ps_ z_ x2_0 := by
    unfold x2_0
    refine rel_count ?_ (Sub.trans (by decide) hp_)
    · refine rel_modRst ?_ (Sub.trans (by decide) hp_)
      · assumption
  clear_value x2_0
  refine ofNext ?_
  refine iteP (P := Rel ps_ z_) ?_ ?_
  · assumption
  · refine iteP (P := Rel ps_ z_) ?_ ?_
    · assumption
    · refine iteP (P := Rel ps_ z_) ?_ ?_
      · refine iteP (P := Rel ps_ z_) ?_ ?_
        · refine rel_toPhase ?_ (Sub.trans (by decide) hp_)
          · refine rel_assertDevice ?_ (Sub.trans (by decide) hp_)
            · assumption
        · assumption
      · refine rel_resetNow ?_ (Sub.trans (by decide) hp_)
        · assumption

theorem rel_execCrystalFault {ps_ : List Part} {z_ : State} {s : State} (h0_ : Rel ps_ z_ s) (hp_ : Sub [.tx, .regs, .counts, .quay, .rst] ps_) :
    Ends ps_ z_ (execCrystalFault s) := by
  unfold execCrystalFault
  extract_lets -merge -underBinder x2_0
  have hx2_0 : Rel ps_ z_ x2_0 := by
    unfold x2_0
    refine rel_wrOr ?_ (Sub.trans (by decide) hp_)
    · refine rel_wrs ?_ (Sub.trans (by decide) hp_)
      · assumption
  clear_value x2_0
  refine ofNext ?_
  refine iteP (P := Rel ps_ z_) ?_ ?_
  · assumption
  · refine rel_raiseReplace ?_ (Sub.trans (by decide) hp_)
    · refine rel_logError ?_ (Sub.trans (by decide) hp_)
      · refine rel_modRst ?_ (Sub.trans (by decide) hp_)
        · assumption

theorem rel_execLeakDetect {ps_ : List Part} {z_ : State} {s : State} (h0_ : Rel ps_ z_ s) (hp_ : Sub [.tx, .regs, .counts, .edge] ps_) :
    Ends ps_ z_ (execLeakDetect s) := by
  unfold execLeakDetect
  extract_lets -merge -underBinder x2_0
  clear_value x2_0
  refine ofNext ?_
  refine rel_setAlert ?_ (Sub.trans (by decide) hp_)
  · refine rel_edge ?_ (hp_ _ (by decide))
    assumption

theorem rel_execCrystalRecover {ps_ : List Part} {z_ : State} {s : State} (h0_ : Rel ps_ z_ s) (hp_ : Sub [.regs, .rst] ps_) :
    Ends ps_ z_ (execCrystalRecover s) := by
  unfold execCrystalRecover
  extract_lets -merge -underBinder x2_0
  have hx2_0 : Rel ps_ z_ x2_0 := by
    unfold x2_0
    refine rel_wrOr ?_ (Sub.trans (by decide) hp_)
    · refine rel_wrs ?_ (Sub.trans (by decide) hp_)
      · assumption
  clear_value x2_0
  refine ofNext ?_
  refine iteP (P := Rel ps_ z_) ?_ ?_
  · assumption
  · refine rel_dropReplace ?_ (Sub.trans (by decide) hp_)
    · refine rel_modRst ?_ (Sub.trans (by decide) hp_)
      · assumption

theorem rel_execCrashRead {ps_ : List Part} {z_ : State} {h : EcpHdr} {offset : W32} {length : Nat} {s : State} (h3_ : Rel ps_ z_ s) (hp_ : Sub [.free, .tx, .regs, .counts, .swl, .quay] ps_) :
    Ends ps_ z_ (execCrashRead h offset length s) := by
  unfold execCrashRead
  refine ofNext ?_
  refine rel_ecpRun ?_ ?_ (Sub.trans (by decide) hp_)
  · assumption
  · intro a4_0 h4_0
    extract_lets -merge -underBinder x4_0 x4_1
    clear_value x4_0 x4_1
    refine iteP (P := Rel1 ps_ z_) ?_ ?_
    · refine ofPair ?_
      assumption
    · split
      · refine ofPair ?_
        assumption
      · refine ofPair ?_
        assumption

end Sys2Proof.Laws
end

