-- ==== Sys2Proof/Laws/RelEdge.lean ====
section
/-!
SUPPORT. One lemma for each operation on power, the module edge, the mailbox and register access: it keeps `Rel`, and the parts
listed are all that it can change.
-/
namespace Sys2Proof.Laws
open Sys2Proof Sys2Proof.Machine Sys2Proof.Safety

/-! ### Power -/

theorem rel_execSupplySag30 {ps_ : List Part} {z_ : State} {s : State} (h0_ : Rel ps_ z_ s) (hp_ : Sub [.tx, .regs, .counts, .quay, .pwr] ps_) :
    Ends ps_ z_ (execSupplySag30 s) := by
  unfold execSupplySag30
  refine ofNext ?_
  refine iteP (P := Rel ps_ z_) ?_ ?_
  · assumption
  · refine rel_powerEvent ?_ (Sub.trans (by decide) hp_)
    · refine rel_condition ?_ (Sub.trans (by decide) hp_)
      · assumption

theorem rel_l0Take {ps_ : List Part} {z_ : State} {s : State} {f : State → State × Ans} (h0_ : Rel ps_ z_ s) (h1_ : ∀ a0, Rel ps_ z_ a0 → Rel1 ps_ z_ (f a0)) (hp_ : Sub [.lh] ps_) :
    Rel1 ps_ z_ (l0Take s f) := by
  unfold l0Take
  extract_lets -merge -underBinder x2_0
  clear_value x2_0
  refine iteP (P := Rel1 ps_ z_) ?_ ?_
  · refine ofPair ?_
    assumption
  · refine h1_ _ ?_
    refine rel_lh ?_ (hp_ _ (by decide))
    assumption

theorem rel_execPwrStatus {ps_ : List Part} {z_ : State} {h : EcpHdr} {s : State} (h1_ : Rel ps_ z_ s) (hp_ : Sub [.free, .tx, .regs, .counts, .swl, .quay, .lh] ps_) :
    Ends ps_ z_ (execPwrStatus h s) := by
  unfold execPwrStatus
  refine ofNext ?_
  refine rel_ecpRun ?_ ?_ (Sub.trans (by decide) hp_)
  · assumption
  · intro a4_0 h4_0
    refine rel_l0Take ?_ ?_ (Sub.trans (by decide) hp_)
    · assumption
    · intro a6_0 h6_0
      refine ofPair ?_
      assumption

theorem rel_engageClamp {ps_ : List Part} {z_ : State} {s : State} (h0_ : Rel ps_ z_ s) (hp_ : Sub [.regs, .counts, .pwr] ps_) :
    Rel ps_ z_ (engageClamp s) := by
  unfold engageClamp
  refine iteP (P := Rel ps_ z_) ?_ ?_
  · refine rel_modPwr ?_ (Sub.trans (by decide) hp_)
    · assumption
  · refine rel_condition ?_ (Sub.trans (by decide) hp_)
    · refine rel_count ?_ (Sub.trans (by decide) hp_)
      · refine rel_wrOr ?_ (Sub.trans (by decide) hp_)
        · assumption

theorem rel_beginStop {ps_ : List Part} {z_ : State} {s : State} (h0_ : Rel ps_ z_ s) (hp_ : Sub [.tx, .regs, .counts, .quay, .pwr] ps_) :
    Rel ps_ z_ (beginStop s) := by
  unfold beginStop
  refine iteP (P := Rel ps_ z_) ?_ ?_
  · assumption
  · refine rel_powerEvent ?_ (Sub.trans (by decide) hp_)
    · refine rel_modPwr ?_ (Sub.trans (by decide) hp_)
      · assumption

theorem rel_execSupplySag27 {ps_ : List Part} {z_ : State} {s : State} (h0_ : Rel ps_ z_ s) (hp_ : Sub [.tx, .regs, .counts, .icu, .quay, .pwr] ps_) :
    Ends ps_ z_ (execSupplySag27 s) := by
  unfold execSupplySag27
  refine ofNext ?_
  refine iteP (P := Rel ps_ z_) ?_ ?_
  · assumption
  · refine rel_beginStop ?_ (Sub.trans (by decide) hp_)
    · refine rel_condition ?_ (Sub.trans (by decide) hp_)
      · refine rel_fireEdge ?_ (Sub.trans (by decide) hp_)
        · assumption

theorem rel_execBrakeReminder {ps_ : List Part} {z_ : State} {s : State} (h0_ : Rel ps_ z_ s) (hp_ : Sub [.tx, .regs, .counts, .quay, .pwr] ps_) :
    Ends ps_ z_ (execBrakeReminder s) := by
  unfold execBrakeReminder
  refine ofNext ?_
  refine iteP (P := Rel ps_ z_) ?_ ?_
  · assumption
  · refine rel_powerEvent ?_ (Sub.trans (by decide) hp_)
    · refine rel_setAlert ?_ (Sub.trans (by decide) hp_)
      · refine rel_modPwr ?_ (Sub.trans (by decide) hp_)
        · assumption

theorem rel_execThermClockReturn {ps_ : List Part} {z_ : State} {s : State} (h0_ : Rel ps_ z_ s) (hp_ : Sub [.tx, .regs, .counts, .quay, .pwr] ps_) :
    Ends ps_ z_ (execThermClockReturn s) := by
  unfold execThermClockReturn
  refine ofNext ?_
  refine iteP (P := Rel ps_ z_) ?_ ?_
  · assumption
  · refine rel_powerEvent ?_ (Sub.trans (by decide) hp_)
    · refine rel_wrOr ?_ (Sub.trans (by decide) hp_)
      · refine rel_modPwr ?_ (Sub.trans (by decide) hp_)
        · assumption

theorem rel_execPwrCap {ps_ : List Part} {z_ : State} {h : EcpHdr} {watts : Nat} {s : State} (h2_ : Rel ps_ z_ s) (hp_ : Sub [.free, .tx, .regs, .counts, .swl, .quay, .lh] ps_) :
    Ends ps_ z_ (execPwrCap h watts s) := by
  unfold execPwrCap
  refine ofNext ?_
  refine rel_ecpRun ?_ ?_ (Sub.trans (by decide) hp_)
  · assumption
  · intro a4_0 h4_0
    refine rel_l0Take ?_ ?_ (Sub.trans (by decide) hp_)
    · assumption
    · intro a6_0 h6_0
      refine iteP (P := Rel1 ps_ z_) ?_ ?_
      · refine ofPair ?_
        refine rel_wr ?_ (Sub.trans (by decide) hp_)
        · assumption
      · refine iteP (P := Rel1 ps_ z_) ?_ ?_
        · refine ofPair ?_
          refine rel_wr ?_ (Sub.trans (by decide) hp_)
          · assumption
        · refine ofPair ?_
          assumption

theorem rel_execNvWriteResume {ps_ : List Part} {z_ : State} {s : State} (h0_ : Rel ps_ z_ s) (hp_ : Sub [.pwr, .rst, .sec] ps_) :
    Ends ps_ z_ (execNvWriteResume s) := by
  unfold execNvWriteResume
  extract_lets -merge -underBinder x2_0 x2_1
  have hx2_0 : Rel ps_ z_ x2_0 := by
    unfold x2_0
    refine rel_modPwr ?_ (Sub.trans (by decide) hp_)
    · assumption
  clear_value x2_0
  have hx2_1 : Rel ps_ z_ x2_1 := by
    unfold x2_1
    refine rel_modRst ?_ (Sub.trans (by decide) hp_)
    · assumption
  clear_value x2_1
  refine ofNext ?_
  refine iteP (P := Rel ps_ z_) ?_ ?_
  · assumption
  · refine rel_modSec ?_ (hp_ _ (by decide)) (by first | exact ⟨rfl, .inl rfl⟩ | (dsimp only; split <;> exact ⟨rfl, .inl rfl⟩))
    assumption

theorem rel_enterSleep {ps_ : List Part} {z_ : State} {s : State} (h0_ : Rel ps_ z_ s) (hp_ : Sub [.regs, .clf, .eth, .pwr] ps_) :
    Rel ps_ z_ (enterSleep s) := by
  unfold enterSleep
  extract_lets -merge -underBinder x2_0 x2_1
  have hx2_0 : Rel ps_ z_ x2_0 := by
    unfold x2_0
    refine rel_modPwr ?_ (Sub.trans (by decide) hp_)
    · assumption
  clear_value x2_0
  have hx2_1 : Rel ps_ z_ x2_1 := by
    unfold x2_1
    refine foldSP ?_ ?_ _
    · assumption
    · intro a6_0 a6_1 h6_0
      refine iteP (P := Rel ps_ z_) ?_ ?_
      · refine rel_leaveState ?_ (Sub.trans (by decide) hp_)
        · refine rel_modPort ?_ (Sub.trans (by decide) hp_)
          · assumption
      · assumption
  clear_value x2_1
  refine foldSP ?_ ?_ _
  · assumption
  · intro a4_0 a4_1 h4_0
    refine rel_setLink ?_ (Sub.trans (by decide) hp_)
    · assumption

theorem rel_execInputOvervoltage {ps_ : List Part} {z_ : State} {vinMv : Nat} {overMs : Nat} {s : State} (h2_ : Rel ps_ z_ s) (hp_ : Sub [.tx, .regs, .counts, .quay, .pwr, .rst] ps_) :
    Ends ps_ z_ (execInputOvervoltage vinMv overMs s) := by
  unfold execInputOvervoltage
  extract_lets -merge -underBinder x2_0
  have hx2_0 : Rel ps_ z_ x2_0 := by
    unfold x2_0
    refine rel_modPwr ?_ (Sub.trans (by decide) hp_)
    · assumption
  clear_value x2_0
  refine ofNext ?_
  refine iteP (P := Rel ps_ z_) ?_ ?_
  · assumption
  · refine iteP (P := Rel ps_ z_) ?_ ?_
    · refine rel_modRst ?_ (Sub.trans (by decide) hp_)
      · assumption
    · refine rel_beginStop ?_ (Sub.trans (by decide) hp_)
      · assumption

theorem rel_execSupplyRecover {ps_ : List Part} {z_ : State} {vinMv : Nat} {s : State} (h1_ : Rel ps_ z_ s) (hp_ : Sub [.pwr] ps_) :
    Ends ps_ z_ (execSupplyRecover vinMv s) := by
  unfold execSupplyRecover
  refine ofNext ?_
  refine rel_modPwr ?_ (Sub.trans (by decide) hp_)
  · assumption

theorem rel_execBrakeRelease {ps_ : List Part} {z_ : State} {s : State} (h0_ : Rel ps_ z_ s) (hp_ : Sub [.pwr] ps_) :
    Ends ps_ z_ (execBrakeRelease s) := by
  unfold execBrakeRelease
  refine ofNext ?_
  refine rel_modPwr ?_ (Sub.trans (by decide) hp_)
  · assumption

theorem rel_execTripResetRelease {ps_ : List Part} {z_ : State} {s : State} (h0_ : Rel ps_ z_ s) (hp_ : Sub [.regs, .pwr, .rst] ps_) :
    Ends ps_ z_ (execTripResetRelease s) := by
  unfold execTripResetRelease
  refine ofNext ?_
  refine iteP (P := Rel ps_ z_) ?_ ?_
  · assumption
  · refine rel_releaseDevice ?_ (Sub.trans (by decide) hp_)
    · refine rel_modPwr ?_ (Sub.trans (by decide) hp_)
      · assumption

theorem rel_writePwrCtl {ps_ : List Part} {z_ : State} {s : State} {c : CrsWrite} (h0_ : Rel ps_ z_ s) (hp_ : Sub [.regs, .clf, .eth, .pwr] ps_) :
    Rel ps_ z_ (writePwrCtl s c) := by
  unfold writePwrCtl
  extract_lets -merge -underBinder x2_0 x2_1 x2_2
  clear_value x2_0
  have hx2_1 : Rel ps_ z_ x2_1 := by
    unfold x2_1
    refine rel_storeWrite ?_ (Sub.trans (by decide) hp_)
    · assumption
  clear_value x2_1 x2_2
  refine iteP (P := Rel ps_ z_) ?_ ?_
  · refine iteP (P := Rel ps_ z_) ?_ ?_
    · refine rel_wrOr ?_ (Sub.trans (by decide) hp_)
      · assumption
    · refine rel_enterSleep ?_ (Sub.trans (by decide) hp_)
      · assumption
  · refine iteP (P := Rel ps_ z_) ?_ ?_
    · refine rel_wakeClocks ?_ (Sub.trans (by decide) hp_)
      · assumption
    · assumption

theorem rel_execSleepExit {ps_ : List Part} {z_ : State} {w : CrsWrite} {s : State} (h1_ : Rel ps_ z_ s) (hp_ : Sub [.regs, .clf, .eth, .pwr] ps_) :
    Ends ps_ z_ (execSleepExit w s) := by
  unfold execSleepExit
  refine ofNext ?_
  refine rel_writePwrCtl ?_ (Sub.trans (by decide) hp_)
  · assumption

theorem rel_execBrakeAssert {ps_ : List Part} {z_ : State} {s : State} (h0_ : Rel ps_ z_ s) (hp_ : Sub [.tx, .regs, .counts, .quay, .pwr] ps_) :
    Ends ps_ z_ (execBrakeAssert s) := by
  unfold execBrakeAssert
  extract_lets -merge -underBinder x2_0 x2_1
  have hx2_0 : Rel ps_ z_ x2_0 := by
    unfold x2_0
    refine rel_count ?_ (Sub.trans (by decide) hp_)
    · assumption
  clear_value x2_0
  have hx2_1 : Rel ps_ z_ x2_1 := by
    unfold x2_1
    refine rel_condition ?_ (Sub.trans (by decide) hp_)
    · assumption
  clear_value x2_1
  refine ofNext ?_
  refine iteP (P := Rel ps_ z_) ?_ ?_
  · assumption
  · refine rel_powerEvent ?_ (Sub.trans (by decide) hp_)
    · refine rel_engageClamp ?_ (Sub.trans (by decide) hp_)
      · assumption

theorem rel_execOrderlyStopReset {ps_ : List Part} {z_ : State} {s : State} (h0_ : Rel ps_ z_ s) (hp_ : Sub [.regs, .counts, .banks, .icu, .shelf, .num, .snd, .slv, .upd, .mem, .bytes, .clf, .lsh, .shg, .swl, .ofs, .quay, .eth, .lh, .pwr, .rst, .sec, .edge] ps_) :
    Ends ps_ z_ (execOrderlyStopReset s) := by
  unfold execOrderlyStopReset
  refine ofNext ?_
  split
  · extract_lets -merge -underBinder x4_0
    have hx4_0 : Rel ps_ z_ x4_0 := by
      unfold x4_0
      refine rel_modPwr ?_ (Sub.trans (by decide) hp_)
      · assumption
    clear_value x4_0
    refine iteP (P := Rel ps_ z_) ?_ ?_
    · assumption
    · refine iteP (P := Rel ps_ z_) ?_ ?_
      · refine rel_assertDevice ?_ (Sub.trans (by decide) hp_)
        · assumption
      · refine rel_resetNow ?_ (Sub.trans (by decide) hp_)
        · assumption
  · assumption

theorem rel_execSleepEnter {ps_ : List Part} {z_ : State} {w : CrsWrite} {s : State} (h1_ : Rel ps_ z_ s) (hp_ : Sub [.regs, .clf, .eth, .pwr] ps_) :
    Ends ps_ z_ (execSleepEnter w s) := by
  unfold execSleepEnter
  refine ofNext ?_
  refine rel_writePwrCtl ?_ (Sub.trans (by decide) hp_)
  · assumption

theorem rel_execThermTrip {ps_ : List Part} {z_ : State} {hbm : Bool} {sensor : Nat} {celsius : Nat} {s : State} (h3_ : Rel ps_ z_ s) (hp_ : Sub [.tx, .regs, .counts, .icu, .quay, .pwr, .rst] ps_) :
    Ends ps_ z_ (execThermTrip hbm sensor celsius s) := by
  unfold execThermTrip
  extract_lets -merge -underBinder x2_0
  have hx2_0 : Rel ps_ z_ x2_0 := by
    unfold x2_0
    refine rel_condition ?_ (Sub.trans (by decide) hp_)
    · refine rel_fireEdge ?_ (Sub.trans (by decide) hp_)
      · assumption
  clear_value x2_0
  refine ofNext ?_
  refine iteP (P := Rel ps_ z_) ?_ ?_
  · assumption
  · refine rel_enterDevice ?_ (Sub.trans (by decide) hp_)
    · refine rel_powerEvent ?_ (Sub.trans (by decide) hp_)
      · refine rel_setAlert ?_ (Sub.trans (by decide) hp_)
        · assumption

theorem rel_execClampRelease {ps_ : List Part} {z_ : State} {amps : Nat} {s : State} (h1_ : Rel ps_ z_ s) (hp_ : Sub [.regs, .pwr] ps_) :
    Ends ps_ z_ (execClampRelease amps s) := by
  unfold execClampRelease
  refine ofNext ?_
  refine iteP (P := Rel ps_ z_) ?_ ?_
  · assumption
  · refine rel_wrOr ?_ (Sub.trans (by decide) hp_)
    · refine rel_modPwr ?_ (Sub.trans (by decide) hp_)
      · assumption

theorem rel_execSupplySag32 {ps_ : List Part} {z_ : State} {s : State} (h0_ : Rel ps_ z_ s) (hp_ : Sub [.pwr] ps_) :
    Ends ps_ z_ (execSupplySag32 s) := by
  unfold execSupplySag32
  refine ofNext ?_
  refine rel_condition ?_ (Sub.trans (by decide) hp_)
  · assumption

theorem rel_execSupplyRestore {ps_ : List Part} {z_ : State} {s : State} (h0_ : Rel ps_ z_ s) (hp_ : Sub [.regs, .pwr, .rst] ps_) :
    Ends ps_ z_ (execSupplyRestore s) := by
  unfold execSupplyRestore
  refine ofNext ?_
  refine iteP (P := Rel ps_ z_) ?_ ?_
  · assumption
  · refine rel_releaseDevice ?_ (Sub.trans (by decide) hp_)
    · refine rel_modPwr ?_ (Sub.trans (by decide) hp_)
      · assumption

theorem rel_execOvercurrent {ps_ : List Part} {z_ : State} {amps : Nat} {s : State} (h1_ : Rel ps_ z_ s) (hp_ : Sub [.tx, .regs, .counts, .icu, .quay, .pwr] ps_) :
    Ends ps_ z_ (execOvercurrent amps s) := by
  unfold execOvercurrent
  extract_lets -merge -underBinder x2_0
  have hx2_0 : Rel ps_ z_ x2_0 := by
    unfold x2_0
    refine rel_condition ?_ (Sub.trans (by decide) hp_)
    · refine rel_fireEdge ?_ (Sub.trans (by decide) hp_)
      · assumption
  clear_value x2_0
  refine ofNext ?_
  refine iteP (P := Rel ps_ z_) ?_ ?_
  · assumption
  · refine rel_powerEvent ?_ (Sub.trans (by decide) hp_)
    · refine rel_engageClamp ?_ (Sub.trans (by decide) hp_)
      · assumption

theorem rel_execThermEmergencyClock {ps_ : List Part} {z_ : State} {s : State} (h0_ : Rel ps_ z_ s) (hp_ : Sub [.tx, .regs, .counts, .quay, .pwr] ps_) :
    Ends ps_ z_ (execThermEmergencyClock s) := by
  unfold execThermEmergencyClock
  refine ofNext ?_
  refine iteP (P := Rel ps_ z_) ?_ ?_
  · assumption
  · refine rel_powerEvent ?_ (Sub.trans (by decide) hp_)
    · refine rel_wrOr ?_ (Sub.trans (by decide) hp_)
      · refine rel_condition ?_ (Sub.trans (by decide) hp_)
        · assumption

/-! ### Edge -/

theorem rel_putBuf {ps_ : List Part} {z_ : State} {s : State} {bs : List Byte} (h0_ : Rel ps_ z_ s) (hp_ : Sub [.regs] ps_) :
    Rel ps_ z_ (putBuf s bs) := by
  unfold putBuf
  refine foldSP ?_ ?_ _
  · assumption
  · intro a4_0 a4_1 h4_0
    refine rel_wr ?_ (Sub.trans (by decide) hp_)
    · assumption

theorem rel_execDisec {ps_ : List Part} {z_ : State} {events : Byte} {s : State} (h1_ : Rel ps_ z_ s) (hp_ : Sub [.regs] ps_) :
    Ends ps_ z_ (execDisec events s) := by
  unfold execDisec
  refine ofNext ?_
  refine iteP (P := Rel ps_ z_) ?_ ?_
  · refine rel_wr ?_ (Sub.trans (by decide) hp_)
    · assumption
  · assumption

theorem rel_execRstact {ps_ : List Part} {z_ : State} {action : Byte} {s : State} (h1_ : Rel ps_ z_ s) (hp_ : Sub [.edge] ps_) :
    Ends ps_ z_ (execRstact action s) := by
  unfold execRstact
  extract_lets -merge -underBinder x2_0
  clear_value x2_0
  refine ofNext ?_
  refine rel_edge ?_ (hp_ _ (by decide))
  assumption

theorem rel_eraseFlash {ps_ : List Part} {z_ : State} {s : State} {f : Nat} {a : Nat} {n : Nat} (h0_ : Rel ps_ z_ s) (hp_ : Sub [.sec, .edge] ps_) :
    Rel ps_ z_ (eraseFlash s f a n) := by
  unfold eraseFlash
  extract_lets -merge -underBinder x2_0 x2_1 x2_2
  clear_value x2_0 x2_1
  have hx2_2 : Rel ps_ z_ x2_2 := by
    unfold x2_2
    refine rel_edge ?_ (hp_ _ (by decide))
    assumption
  clear_value x2_2
  refine iteP (P := Rel ps_ z_) ?_ ?_
  · refine rel_modSec ?_ (hp_ _ (by decide)) (by first | exact ⟨rfl, .inl rfl⟩ | (dsimp only; split <;> exact ⟨rfl, .inl rfl⟩))
    assumption
  · assumption

theorem rel_execSetnewda {ps_ : List Part} {z_ : State} {address : BitVec 7} {s : State} (h1_ : Rel ps_ z_ s) (hp_ : Sub [.regs, .counts] ps_) :
    Ends ps_ z_ (execSetnewda address s) := by
  unfold execSetnewda
  refine ofNext ?_
  refine iteP (P := Rel ps_ z_) ?_ ?_
  · refine rel_wr ?_ (Sub.trans (by decide) hp_)
    · refine rel_count ?_ (Sub.trans (by decide) hp_)
      · assumption
  · assumption

theorem rel_execEntdaa {ps_ : List Part} {z_ : State} {address : BitVec 7} {wins : Bool} {s : State} (h2_ : Rel ps_ z_ s) (hp_ : Sub [.tx, .regs, .counts] ps_) :
    Ends ps_ z_ (execEntdaa address wins s) := by
  unfold execEntdaa
  extract_lets -merge -underBinder x2_0
  have hx2_0 : Rel ps_ z_ x2_0 := by
    unfold x2_0
    refine rel_emit ?_ (Sub.trans (by decide) hp_)
    · assumption
  clear_value x2_0
  refine ofNext ?_
  refine iteP (P := Rel ps_ z_) ?_ ?_
  · assumption
  · refine iteP (P := Rel ps_ z_) ?_ ?_
    · refine rel_wrs ?_ (Sub.trans (by decide) hp_)
      · assumption
    · assumption

theorem rel_writeFlCtl {ps_ : List Part} {z_ : State} {s : State} {c : CrsWrite} (h0_ : Rel ps_ z_ s) (hp_ : Sub [.regs, .edge] ps_) :
    Rel ps_ z_ (writeFlCtl s c) := by
  unfold writeFlCtl
  extract_lets -merge -underBinder x2_0 x2_1 x2_2 x2_3 x2_4
  clear_value x2_0
  have hx2_1 : Rel ps_ z_ x2_1 := by
    unfold x2_1
    refine rel_storeWrite ?_ (Sub.trans (by decide) hp_)
    · assumption
  clear_value x2_1 x2_2
  have hx2_3 : Rel ps_ z_ x2_3 := by
    unfold x2_3
    refine rel_wrs ?_ (Sub.trans (by decide) hp_)
    · assumption
  clear_value x2_3 x2_4
  refine iteP (P := Rel ps_ z_) ?_ ?_
  · assumption
  · refine iteP (P := Rel ps_ z_) ?_ ?_
    · refine rel_wr ?_ (Sub.trans (by decide) hp_)
      · assumption
    · refine iteP (P := Rel ps_ z_) ?_ ?_
      · refine rel_wr ?_ (Sub.trans (by decide) hp_)
        · assumption
      · refine rel_edge ?_ (hp_ _ (by decide))
        assumption

theorem rel_execFlashProgram {ps_ : List Part} {z_ : State} {w : CrsWrite} {s : State} (h1_ : Rel ps_ z_ s) (hp_ : Sub [.regs, .edge] ps_) :
    Ends ps_ z_ (execFlashProgram w s) := by
  unfold execFlashProgram
  refine ofNext ?_
  refine rel_writeFlCtl ?_ (Sub.trans (by decide) hp_)
  · assumption

theorem rel_cccAnswer {ps_ : List Part} {z_ : State} {s : State} {code : Nat} {bs : List Byte} (h0_ : Rel ps_ z_ s) (hp_ : Sub [.tx, .counts] ps_) :
    Rel ps_ z_ (cccAnswer s code bs) := by
  unfold cccAnswer
  refine iteP (P := Rel ps_ z_) ?_ ?_
  · refine rel_emit ?_ (Sub.trans (by decide) hp_)
    · refine rel_count ?_ (Sub.trans (by decide) hp_)
      · assumption
  · assumption

theorem rel_execGetpid {ps_ : List Part} {z_ : State} {s : State} (h0_ : Rel ps_ z_ s) (hp_ : Sub [.tx, .counts] ps_) :
    Ends ps_ z_ (execGetpid s) := by
  unfold execGetpid
  refine ofNext ?_
  refine rel_cccAnswer ?_ (Sub.trans (by decide) hp_)
  · assumption

theorem rel_execGetstatus {ps_ : List Part} {z_ : State} {s : State} (h0_ : Rel ps_ z_ s) (hp_ : Sub [.free, .tx, .counts] ps_) :
    Ends ps_ z_ (execGetstatus s) := by
  unfold execGetstatus
  extract_lets -merge -underBinder x2_0
  have hx2_0 : Rel1 ps_ z_ x2_0 := by
    unfold x2_0
    refine rel_fresh ?_ (Sub.trans (by decide) hp_)
    · assumption
  clear_value x2_0
  refine ofNext ?_
  refine rel_cccAnswer ?_ (Sub.trans (by decide) hp_)
  · refine (?_ : Rel1 ps_ z_ _)
    assumption

theorem rel_execRstdaa {ps_ : List Part} {z_ : State} {s : State} (h0_ : Rel ps_ z_ s) (hp_ : Sub [.regs] ps_) :
    Ends ps_ z_ (execRstdaa s) := by
  unfold execRstdaa
  refine ofNext ?_
  refine rel_wrs ?_ (Sub.trans (by decide) hp_)
  · assumption

theorem rel_execEnec {ps_ : List Part} {z_ : State} {events : Byte} {s : State} (h1_ : Rel ps_ z_ s) (hp_ : Sub [.regs] ps_) :
    Ends ps_ z_ (execEnec events s) := by
  unfold execEnec
  refine ofNext ?_
  refine iteP (P := Rel ps_ z_) ?_ ?_
  · refine rel_wr ?_ (Sub.trans (by decide) hp_)
    · assumption
  · assumption

theorem rel_flashEffect {ps_ : List Part} {z_ : State} {s : State} {o : FlashOp} {bad : Bool} (h0_ : Rel ps_ z_ s) (hp_ : Sub [.free, .regs, .counts, .sec, .edge] ps_) :
    Rel ps_ z_ (flashEffect s o bad) := by
  unfold flashEffect
  extract_lets -merge -underBinder x2_0 x2_1 x2_2
  clear_value x2_0
  have hx2_1 : Rel ps_ z_ x2_1 := by
    unfold x2_1
    refine rel_useFree ?_ (hp_ _ (by decide))
    · assumption
  clear_value x2_1 x2_2
  refine iteP (P := Rel ps_ z_) ?_ ?_
  · refine rel_putBuf ?_ (Sub.trans (by decide) hp_)
    · assumption
  · refine iteP (P := Rel ps_ z_) ?_ ?_
    · refine rel_writeFlash ?_ (Sub.trans (by decide) hp_)
      · assumption
    · refine iteP (P := Rel ps_ z_) ?_ ?_
      · refine rel_writeFlash ?_ (Sub.trans (by decide) hp_)
        · assumption
      · refine rel_count ?_ (Sub.trans (by decide) hp_)
        · refine rel_eraseFlash ?_ (Sub.trans (by decide) hp_)
          · assumption

theorem rel_execFlashOpDone {ps_ : List Part} {z_ : State} {deviceError : Bool} {s : State} (h1_ : Rel ps_ z_ s) (hp_ : Sub [.free, .tx, .regs, .counts, .sec, .edge] ps_) :
    Ends ps_ z_ (execFlashOpDone deviceError s) := by
  unfold execFlashOpDone
  refine ofNext ?_
  split
  · assumption
  · extract_lets -merge -underBinder x4_0 x4_1 x4_2
    clear_value x4_0
    have hx4_1 : Rel ps_ z_ x4_1 := by
      unfold x4_1
      refine rel_flashEffect ?_ (Sub.trans (by decide) hp_)
      · refine rel_edge ?_ (hp_ _ (by decide))
        assumption
    clear_value x4_1
    have hx4_2 : Rel ps_ z_ x4_2 := by
      unfold x4_2
      refine rel_wr ?_ (Sub.trans (by decide) hp_)
      · assumption
    clear_value x4_2
    refine iteP (P := Rel ps_ z_) ?_ ?_
    · refine rel_setAlert ?_ (Sub.trans (by decide) hp_)
      · refine rel_wr ?_ (Sub.trans (by decide) hp_)
        · assumption
    · assumption

theorem rel_execGetbcr {ps_ : List Part} {z_ : State} {s : State} (h0_ : Rel ps_ z_ s) (hp_ : Sub [.tx, .counts] ps_) :
    Ends ps_ z_ (execGetbcr s) := by
  unfold execGetbcr
  refine ofNext ?_
  refine rel_cccAnswer ?_ (Sub.trans (by decide) hp_)
  · assumption

theorem rel_writeAttn {ps_ : List Part} {z_ : State} {s : State} {c : CrsWrite} (h0_ : Rel ps_ z_ s) (hp_ : Sub [.regs, .counts, .icu, .pwr] ps_) :
    Rel ps_ z_ (writeAttn s c) := by
  unfold writeAttn
  refine iteP (P := Rel ps_ z_) ?_ ?_
  · refine rel_fireEdge ?_ (Sub.trans (by decide) hp_)
    · refine rel_storeWrite ?_ (Sub.trans (by decide) hp_)
      · assumption
  · assumption

theorem rel_execFlashErase {ps_ : List Part} {z_ : State} {w : CrsWrite} {s : State} (h1_ : Rel ps_ z_ s) (hp_ : Sub [.regs, .edge] ps_) :
    Ends ps_ z_ (execFlashErase w s) := by
  unfold execFlashErase
  refine ofNext ?_
  refine rel_writeFlCtl ?_ (Sub.trans (by decide) hp_)
  · assumption

theorem rel_execMgtAttnWrite {ps_ : List Part} {z_ : State} {w : CrsWrite} {s : State} (h1_ : Rel ps_ z_ s) (hp_ : Sub [.regs, .counts, .icu, .pwr] ps_) :
    Ends ps_ z_ (execMgtAttnWrite w s) := by
  unfold execMgtAttnWrite
  refine ofNext ?_
  refine rel_writeAttn ?_ (Sub.trans (by decide) hp_)
  · assumption

theorem rel_execGetdcr {ps_ : List Part} {z_ : State} {s : State} (h0_ : Rel ps_ z_ s) (hp_ : Sub [.tx, .counts] ps_) :
    Ends ps_ z_ (execGetdcr s) := by
  unfold execGetdcr
  refine ofNext ?_
  refine rel_cccAnswer ?_ (Sub.trans (by decide) hp_)
  · assumption

theorem rel_execFlashRead {ps_ : List Part} {z_ : State} {w : CrsWrite} {s : State} (h1_ : Rel ps_ z_ s) (hp_ : Sub [.regs, .edge] ps_) :
    Ends ps_ z_ (execFlashRead w s) := by
  unfold execFlashRead
  refine ofNext ?_
  refine rel_writeFlCtl ?_ (Sub.trans (by decide) hp_)
  · assumption

/-! ### Mbx -/

theorem rel_modBank {ps_ : List Part} {z_ : State} {s : State} {req : Nat} {f : Bank → Bank} (h0_ : Rel ps_ z_ s) (hp_ : Sub [.banks] ps_) :
    Rel ps_ z_ (modBank s req f) := by
  unfold modBank
  refine rel_banks ?_ (hp_ _ (by decide))
  assumption

theorem rel_writeMbxCtl {ps_ : List Part} {z_ : State} {s : State} {c : CrsWrite} (h0_ : Rel ps_ z_ s) (hp_ : Sub [.banks] ps_) :
    Rel ps_ z_ (writeMbxCtl s c) := by
  unfold writeMbxCtl
  refine iteP (P := Rel ps_ z_) ?_ ?_
  · assumption
  · refine rel_modBank ?_ (Sub.trans (by decide) hp_)
    · assumption

theorem rel_execMbxDiscard {ps_ : List Part} {z_ : State} {w : CrsWrite} {s : State} (h1_ : Rel ps_ z_ s) (hp_ : Sub [.banks] ps_) :
    Ends ps_ z_ (execMbxDiscard w s) := by
  unfold execMbxDiscard
  refine ofNext ?_
  refine rel_writeMbxCtl ?_ (Sub.trans (by decide) hp_)
  · assumption

theorem rel_snapshotReady {ps_ : List Part} {z_ : State} {s : State} {req : Nat} (h0_ : Rel ps_ z_ s) (hp_ : Sub [.banks] ps_) :
    Rel ps_ z_ (snapshotReady s req) := by
  unfold snapshotReady
  refine iteP (P := Rel ps_ z_) ?_ ?_
  · refine rel_modBank ?_ (Sub.trans (by decide) hp_)
    · assumption
  · assumption

theorem rel_clearSource {ps_ : List Part} {z_ : State} {s : State} {id : Nat} (h0_ : Rel ps_ z_ s) (hp_ : Sub [.num] ps_) :
    Rel ps_ z_ (clearSource s id) := by
  unfold clearSource
  extract_lets -merge -underBinder x2_0 x2_1
  clear_value x2_0 x2_1
  refine iteP (P := Rel ps_ z_) ?_ ?_
  · assumption
  · refine rel_modNum ?_ (Sub.trans (by decide) hp_)
    · assumption

theorem rel_writeSel {ps_ : List Part} {z_ : State} {s : State} {c : CrsWrite} (h0_ : Rel ps_ z_ s) (hp_ : Sub [.banks, .num] ps_) :
    Rel ps_ z_ (writeSel s c) := by
  unfold writeSel
  extract_lets -merge -underBinder x2_0 x2_1 x2_2
  clear_value x2_0 x2_1 x2_2
  refine iteP (P := Rel ps_ z_) ?_ ?_
  · assumption
  · refine iteP (P := Rel ps_ z_) ?_ ?_
    · refine rel_modBank ?_ (Sub.trans (by decide) hp_)
      · assumption
    · refine rel_clearSource ?_ (Sub.trans (by decide) hp_)
      · refine rel_modBank ?_ (Sub.trans (by decide) hp_)
        · assumption

theorem rel_d3Read {ps_ : List Part} {z_ : State} {s : State} {req : Nat} {al : Alias} (h0_ : Rel ps_ z_ s) (hp_ : Sub [.banks] ps_) :
    Rel1 ps_ z_ (d3Read s req al) := by
  unfold d3Read
  extract_lets -merge -underBinder x2_0
  clear_value x2_0
  refine ofPair ?_
  refine iteP (P := Rel ps_ z_) ?_ ?_
  · refine rel_modBank ?_ (Sub.trans (by decide) hp_)
    · assumption
  · assumption

theorem rel_hostSequence {ps_ : List Part} {z_ : State} {s : State} {id : Nat} (h0_ : Rel ps_ z_ s) (hp_ : Sub [.banks, .num] ps_) :
    Rel1 ps_ z_ (hostSequence s id) := by
  unfold hostSequence
  extract_lets -merge -underBinder x2_0 x2_1
  have hx2_0 : Rel ps_ z_ x2_0 := by
    unfold x2_0
    refine rel_modBank ?_ (Sub.trans (by decide) hp_)
    · assumption
  clear_value x2_0
  have hx2_1 : Rel ps_ z_ x2_1 := by
    unfold x2_1
    refine rel_snapshotReady ?_ (Sub.trans (by decide) hp_)
    · refine rel_writeSel ?_ (Sub.trans (by decide) hp_)
      · assumption
  clear_value x2_1
  refine ofPair ?_
  refine (?_ : Rel1 ps_ z_ _)
  refine rel_d3Read ?_ (Sub.trans (by decide) hp_)
  · assumption

theorem rel_execMbxRead {ps_ : List Part} {z_ : State} {h : EcpHdr} {source : Nat} {s : State} (h2_ : Rel ps_ z_ s) (hp_ : Sub [.free, .tx, .regs, .counts, .banks, .num, .swl, .quay] ps_) :
    Ends ps_ z_ (execMbxRead h source s) := by
  unfold execMbxRead
  refine ofNext ?_
  refine rel_ecpRun ?_ ?_ (Sub.trans (by decide) hp_)
  · assumption
  · intro a4_0 h4_0
    extract_lets -merge -underBinder x4_0
    have hx4_0 : Rel1 ps_ z_ x4_0 := by
      unfold x4_0
      refine rel_hostSequence ?_ (Sub.trans (by decide) hp_)
      · assumption
    clear_value x4_0
    refine ofPair ?_
    refine (?_ : Rel1 ps_ z_ _)
    assumption

theorem rel_execMbxSnapshotReady {ps_ : List Part} {z_ : State} {req : Nat} {s : State} (h1_ : Rel ps_ z_ s) (hp_ : Sub [.banks] ps_) :
    Ends ps_ z_ (execMbxSnapshotReady req s) := by
  unfold execMbxSnapshotReady
  refine ofNext ?_
  refine rel_snapshotReady ?_ (Sub.trans (by decide) hp_)
  · assumption

theorem rel_execMbxSelWrite {ps_ : List Part} {z_ : State} {w : CrsWrite} {s : State} (h1_ : Rel ps_ z_ s) (hp_ : Sub [.banks, .num] ps_) :
    Ends ps_ z_ (execMbxSelWrite w s) := by
  unfold execMbxSelWrite
  refine ofNext ?_
  refine rel_writeSel ?_ (Sub.trans (by decide) hp_)
  · assumption

theorem rel_execMbxD3Read {ps_ : List Part} {z_ : State} {req : Nat} {al : Alias} {s : State} (h2_ : Rel ps_ z_ s) (hp_ : Sub [.tx, .counts, .banks] ps_) :
    Ends ps_ z_ (execMbxD3Read req al s) := by
  unfold execMbxD3Read
  refine ofNext ?_
  refine iteP (P := Rel ps_ z_) ?_ ?_
  · refine rel_answerWord ?_ (Sub.trans (by decide) hp_)
    · refine rel_d3Read ?_ (Sub.trans (by decide) hp_)
      · assumption
  · assumption

/-! ### Crs -/

theorem rel_writeAdmCtl {ps_ : List Part} {z_ : State} {s : State} {c : CrsWrite} (h0_ : Rel ps_ z_ s) (hp_ : Sub [.tx, .regs, .counts, .shelf, .num, .snd, .slv, .upd, .mem, .bytes, .clf, .lsh, .shg, .swl, .ofs, .quay] ps_) :
    Rel ps_ z_ (writeAdmCtl s c) := by
  unfold writeAdmCtl
  extract_lets -merge -underBinder x2_0 x2_1 x2_2 x2_3 x2_4 x2_5 x2_6
  have hx2_0 : Rel ps_ z_ x2_0 := by
    unfold x2_0
    refine rel_storeWrite ?_ (Sub.trans (by decide) hp_)
    · assumption
  clear_value x2_0 x2_1 x2_2 x2_3
  have hx2_4 : Rel ps_ z_ x2_4 := by
    unfold x2_4
    refine rel_modBerth ?_ (Sub.trans (by decide) hp_)
    · assumption
  clear_value x2_4 x2_5
  have hx2_6 : Rel ps_ z_ x2_6 := by
    unfold x2_6
    refine iteP (P := Rel ps_ z_) ?_ ?_
    · refine rel_wr ?_ (Sub.trans (by decide) hp_)
      · refine rel_quay ?_ (hp_ _ (by decide))
        assumption
    · assumption
  clear_value x2_6
  refine iteP (P := Rel ps_ z_) ?_ ?_
  · refine rel_closeBerth ?_ (Sub.trans (by decide) hp_)
    · assumption
  · assumption

theorem rel_execAdmissionLoad {ps_ : List Part} {z_ : State} {w : CrsWrite} {s : State} (h1_ : Rel ps_ z_ s) (hp_ : Sub [.tx, .regs, .counts, .shelf, .num, .snd, .slv, .upd, .mem, .bytes, .clf, .lsh, .shg, .swl, .ofs, .quay] ps_) :
    Ends ps_ z_ (execAdmissionLoad w s) := by
  unfold execAdmissionLoad
  refine ofNext ?_
  refine rel_writeAdmCtl ?_ (Sub.trans (by decide) hp_)
  · assumption

theorem rel_noteEmpty {ps_ : List Part} {z_ : State} {s : State} {off : Nat} {req : Nat} {write : Bool} (h0_ : Rel ps_ z_ s) (hp_ : Sub [.regs, .counts] ps_) :
    Rel ps_ z_ (noteEmpty s off req write) := by
  unfold noteEmpty
  refine rel_count ?_ (Sub.trans (by decide) hp_)
  · refine rel_wrs ?_ (Sub.trans (by decide) hp_)
    · assumption

theorem rel_crsRead {ps_ : List Part} {z_ : State} {s : State} {req : Nat} {off : Nat} (h0_ : Rel ps_ z_ s) (hp_ : Sub [.regs, .counts, .banks, .icu, .lh] ps_) :
    Rel1 ps_ z_ (crsRead s req off) := by
  unfold crsRead
  extract_lets -merge -underBinder x2_0 x2_1 x2_2 x2_3 x2_4
  clear_value x2_0 x2_1
  have hx2_2 : Rel1 ps_ z_ x2_2 := by
    unfold x2_2
    refine rel_claimRead ?_ (Sub.trans (by decide) hp_)
    · assumption
  clear_value x2_2
  have hx2_3 : Rel1 ps_ z_ x2_3 := by
    unfold x2_3
    refine rel_claimRead ?_ (Sub.trans (by decide) hp_)
    · assumption
  clear_value x2_3
  have hx2_4 : Rel1 ps_ z_ x2_4 := by
    unfold x2_4
    refine rel_d3Read ?_ (Sub.trans (by decide) hp_)
    · assumption
  clear_value x2_4
  refine iteP (P := Rel1 ps_ z_) ?_ ?_
  · refine ofPair ?_
    refine rel_noteEmpty ?_ (Sub.trans (by decide) hp_)
    · assumption
  · refine iteP (P := Rel1 ps_ z_) ?_ ?_
    · refine ofPair ?_
      assumption
    · refine iteP (P := Rel1 ps_ z_) ?_ ?_
      · refine ofPair ?_
        refine (?_ : Rel1 ps_ z_ _)
        assumption
      · refine iteP (P := Rel1 ps_ z_) ?_ ?_
        · refine ofPair ?_
          refine (?_ : Rel1 ps_ z_ _)
          assumption
        · refine iteP (P := Rel1 ps_ z_) ?_ ?_
          · refine ofPair ?_
            refine (?_ : Rel1 ps_ z_ _)
            assumption
          · split
            · extract_lets -merge -underBinder x14_0
              have hx14_0 : Rel1 ps_ z_ x14_0 := by
                unfold x14_0
                refine rel_tidUsedRead ?_ (Sub.trans (by decide) hp_)
                · assumption
              clear_value x14_0
              refine ofPair ?_
              refine (?_ : Rel1 ps_ z_ _)
              assumption
            · refine ofPair ?_
              assumption

theorem rel_crsReads {ps_ : List Part} {z_ : State} {y0 : Nat} {y1 : State} {y2 : Nat} {y3 : Nat} (h1_ : Rel ps_ z_ y1) (hp_ : Sub [.regs, .counts, .banks, .icu, .lh] ps_) :
    Rel1 ps_ z_ (crsReads y0 y1 y2 y3) := by
  induction y0 generalizing y1 y3 with
  | zero => exact h1_
  | succ k ih =>
    unfold crsReads
    exact ih (rel_crsRead h1_ hp_)

theorem rel_writeDone {ps_ : List Part} {z_ : State} {s : State} {c : CrsWrite} (h0_ : Rel ps_ z_ s) (hp_ : Sub [.free, .lh] ps_) :
    Rel ps_ z_ (writeDone s c) := by
  unfold writeDone
  refine iteP (P := Rel ps_ z_) ?_ ?_
  · refine rel_writeTidDone ?_ (Sub.trans (by decide) hp_)
    · refine rel_useFree ?_ (hp_ _ (by decide))
      · assumption
  · assumption

theorem rel_writeCnt {ps_ : List Part} {z_ : State} {s : State} {n : Nat} {c : CrsWrite} (h0_ : Rel ps_ z_ s) (hp_ : Sub [.icu] ps_) :
    Rel ps_ z_ (writeCnt s n c) := by
  unfold writeCnt
  extract_lets -merge -underBinder x2_0 x2_1
  clear_value x2_0 x2_1
  refine rel_modIcu ?_ (Sub.trans (by decide) hp_)
  · assumption

theorem rel_writeIcuLock {ps_ : List Part} {z_ : State} {s : State} {c : CrsWrite} (h0_ : Rel ps_ z_ s) (hp_ : Sub [.regs, .sec] ps_) :
    Rel ps_ z_ (writeIcuLock s c) := by
  unfold writeIcuLock
  extract_lets -merge -underBinder x2_0
  have hx2_0 : Rel ps_ z_ x2_0 := by
    unfold x2_0
    refine rel_storeWrite ?_ (Sub.trans (by decide) hp_)
    · assumption
  clear_value x2_0
  refine iteP (P := Rel ps_ z_) ?_ ?_
  · refine rel_measureLocks ?_ (Sub.trans (by decide) hp_)
    · assumption
  · assumption

theorem rel_writeCntCtl {ps_ : List Part} {z_ : State} {s : State} {c : CrsWrite} (h0_ : Rel ps_ z_ s) (hp_ : Sub [.free, .regs, .shelf] ps_) :
    Rel ps_ z_ (writeCntCtl s c) := by
  unfold writeCntCtl
  extract_lets -merge -underBinder x2_0
  have hx2_0 : Rel ps_ z_ x2_0 := by
    unfold x2_0
    refine rel_storeWrite ?_ (Sub.trans (by decide) hp_)
    · refine rel_countRunning ?_ (Sub.trans (by decide) hp_)
      · assumption
  clear_value x2_0
  refine iteP (P := Rel ps_ z_) ?_ ?_
  · refine rel_modShelf ?_ (Sub.trans (by decide) hp_)
    · assumption
  · assumption

theorem rel_writePop {ps_ : List Part} {z_ : State} {s : State} {b : Nat} {c : CrsWrite} (h0_ : Rel ps_ z_ s) (hp_ : Sub [.num] ps_) :
    Rel ps_ z_ (writePop s b c) := by
  unfold writePop
  refine iteP (P := Rel ps_ z_) ?_ ?_
  · refine rel_modNum ?_ (Sub.trans (by decide) hp_)
    · assumption
  · assumption

theorem rel_writeSeed {ps_ : List Part} {z_ : State} {s : State} {b : Nat} {high : Bool} {c : CrsWrite} (h0_ : Rel ps_ z_ s) (hp_ : Sub [.num] ps_) :
    Rel ps_ z_ (writeSeed s b high c) := by
  unfold writeSeed
  extract_lets -merge -underBinder x2_0 x2_1 x2_2
  clear_value x2_0 x2_1 x2_2
  refine iteP (P := Rel ps_ z_) ?_ ?_
  · assumption
  · refine rel_modNum ?_ (Sub.trans (by decide) hp_)
    · assumption

theorem rel_writeLshCtl {ps_ : List Part} {z_ : State} {s : State} {c : CrsWrite} (h0_ : Rel ps_ z_ s) (hp_ : Sub [.tx, .regs, .counts, .clf, .lsh] ps_) :
    Rel ps_ z_ (writeLshCtl s c) := by
  unfold writeLshCtl
  extract_lets -merge -underBinder x2_0
  have hx2_0 : Rel ps_ z_ x2_0 := by
    unfold x2_0
    refine rel_storeWrite ?_ (Sub.trans (by decide) hp_)
    · assumption
  clear_value x2_0
  refine iteP (P := Rel ps_ z_) ?_ ?_
  · assumption
  · refine foldSP ?_ ?_ _
    · refine rel_lshFlush ?_ (Sub.trans (by decide) hp_)
      · assumption
    · intro a6_0 a6_1 h6_0
      extract_lets -merge -underBinder x6_0
      have hx6_0 : Rel ps_ z_ x6_0 := by
        unfold x6_0
        refine rel_pumpPerm ?_ (Sub.trans (by decide) hp_)
        · refine rel_pumpAll ?_ (Sub.trans (by decide) hp_)
          · assumption
      clear_value x6_0
      split
      · refine iteP (P := Rel ps_ z_) ?_ ?_
        · refine rel_advanceWave ?_ (Sub.trans (by decide) hp_)
          · assumption
        · assumption
      · assumption

theorem rel_writeKey {ps_ : List Part} {z_ : State} {s : State} {i : Nat} {c : CrsWrite} (h0_ : Rel ps_ z_ s) (hp_ : Sub [.swl] ps_) :
    Rel ps_ z_ (writeKey s i c) := by
  unfold writeKey
  refine iteP (P := Rel ps_ z_) ?_ ?_
  · refine rel_modSwl ?_ (Sub.trans (by decide) hp_)
    · assumption
  · assumption

theorem rel_writeSalt {ps_ : List Part} {z_ : State} {s : State} {c : CrsWrite} (h0_ : Rel ps_ z_ s) (hp_ : Sub [.swl] ps_) :
    Rel ps_ z_ (writeSalt s c) := by
  unfold writeSalt
  refine iteP (P := Rel ps_ z_) ?_ ?_
  · refine rel_modSwl ?_ (Sub.trans (by decide) hp_)
    · assumption
  · assumption

theorem rel_writeAlarm {ps_ : List Part} {z_ : State} {s : State} {c : CrsWrite} (h0_ : Rel ps_ z_ s) (hp_ : Sub [.free, .tx, .regs, .counts, .ofs] ps_) :
    Rel ps_ z_ (writeAlarm s c) := by
  unfold writeAlarm
  refine iteP (P := Rel ps_ z_) ?_ ?_
  · refine rel_clearAlarm ?_ (Sub.trans (by decide) hp_)
    · refine rel_useFree ?_ (hp_ _ (by decide))
      · assumption
  · assumption

theorem rel_writeOfsCtl {ps_ : List Part} {z_ : State} {s : State} {c : CrsWrite} (h0_ : Rel ps_ z_ s) (hp_ : Sub [.free, .tx, .regs, .counts, .shelf, .snd, .slv, .upd, .mem, .bytes, .lsh, .shg, .swl, .ofs, .quay, .rst] ps_) :
    Rel ps_ z_ (writeOfsCtl s c) := by
  unfold writeOfsCtl
  extract_lets -merge -underBinder x2_0
  have hx2_0 : Rel ps_ z_ x2_0 := by
    unfold x2_0
    refine rel_storeWrite ?_ (Sub.trans (by decide) hp_)
    · assumption
  clear_value x2_0
  refine iteP (P := Rel ps_ z_) ?_ ?_
  · refine rel_ofsContinueAll ?_ (Sub.trans (by decide) hp_)
    · assumption
  · assumption

theorem rel_writeAdmHash {ps_ : List Part} {z_ : State} {s : State} {i : Nat} {c : CrsWrite} (h0_ : Rel ps_ z_ s) (hp_ : Sub [.quay] ps_) :
    Rel ps_ z_ (writeAdmHash s i c) := by
  unfold writeAdmHash
  extract_lets -merge -underBinder x2_0
  clear_value x2_0
  refine iteP (P := Rel ps_ z_) ?_ ?_
  · refine rel_quay ?_ (hp_ _ (by decide))
    assumption
  · assumption

theorem rel_hooks {ps_ : List Part} {z_ : State} {s : State} {c : CrsWrite} (hp_ : Sub [.free, .tx, .regs, .counts, .banks, .icu, .shelf, .num, .snd, .slv, .upd, .mem, .bytes, .clf, .lsh, .shg, .swl, .ofs, .quay, .eth, .lh, .pwr, .rst, .sec, .edge] ps_) (h_ : Rel ps_ z_ s) :
    ∀ e ∈ writeHooks, ∀ i, Rel ps_ z_ (e.2.2 s i c) := by
  intro e he i
  simp only [writeHooks, List.cons_append, List.nil_append, List.mem_cons, List.not_mem_nil, or_false] at he
  rcases he with rfl | rfl | rfl | rfl | rfl | rfl | rfl | rfl | rfl | rfl | rfl | rfl | rfl | rfl | rfl | rfl | rfl | rfl | rfl | rfl | rfl | rfl | rfl | rfl | rfl | rfl | rfl | rfl | rfl | rfl | rfl
  · dsimp only
    exact rel_writePend h_ (Sub.trans (by decide) hp_)
  · dsimp only
    exact rel_writeStorm h_ (Sub.trans (by decide) hp_)
  · dsimp only
    exact rel_writeCnt h_ (Sub.trans (by decide) hp_)
  · dsimp only
    exact rel_writeEoi h_ (Sub.trans (by decide) hp_)
  · dsimp only
    exact rel_writeEoi h_ (Sub.trans (by decide) hp_)
  · dsimp only
    exact rel_writeIcuLock h_ (Sub.trans (by decide) hp_)
  · dsimp only
    exact rel_writeBcnCtl h_ (Sub.trans (by decide) hp_)
  · dsimp only
    exact rel_writeSel h_ (Sub.trans (by decide) hp_)
  · dsimp only
    exact rel_writeMbxCtl h_ (Sub.trans (by decide) hp_)
  · dsimp only
    exact rel_writeDone h_ (Sub.trans (by decide) hp_)
  · dsimp only
    exact rel_writeTidRestart h_ (Sub.trans (by decide) hp_)
  · dsimp only
    exact rel_writePwrCtl h_ (Sub.trans (by decide) hp_)
  · dsimp only
    exact rel_writeRstReq h_ (Sub.trans (by decide) hp_)
  · dsimp only
    exact rel_writeLogAck h_ (Sub.trans (by decide) hp_)
  · dsimp only
    exact rel_writeFlCtl h_ (Sub.trans (by decide) hp_)
  · dsimp only
    exact rel_writeAttn h_ (Sub.trans (by decide) hp_)
  · dsimp only
    exact rel_writeCntCtl h_ (Sub.trans (by decide) hp_)
  · dsimp only
    exact rel_writePop h_ (Sub.trans (by decide) hp_)
  · dsimp only
    exact rel_writeSeed h_ (Sub.trans (by decide) hp_)
  · dsimp only
    exact rel_writeSeed h_ (Sub.trans (by decide) hp_)
  · dsimp only
    exact rel_writePctl h_ (Sub.trans (by decide) hp_)
  · dsimp only
    exact rel_writeLshCtl h_ (Sub.trans (by decide) hp_)
  · dsimp only
    exact rel_writeKey h_ (Sub.trans (by decide) hp_)
  · dsimp only
    exact rel_writeSalt h_ (Sub.trans (by decide) hp_)
  · dsimp only
    exact rel_writeKctl h_ (Sub.trans (by decide) hp_)
  · dsimp only
    exact rel_writeAlarm h_ (Sub.trans (by decide) hp_)
  · dsimp only
    exact rel_writeOfsCtl h_ (Sub.trans (by decide) hp_)
  · dsimp only
    exact rel_writeEthCtl h_ (Sub.trans (by decide) hp_)
  · dsimp only
    exact rel_writeIpCtl h_ (Sub.trans (by decide) hp_)
  · dsimp only
    exact rel_writeAdmHash h_ (Sub.trans (by decide) hp_)
  · dsimp only
    exact rel_writeAdmCtl h_ (Sub.trans (by decide) hp_)

theorem rel_plainWrite {ps_ : List Part} {z_ : State} {s : State} {o : Nat} {c : CrsWrite} (h0_ : Rel ps_ z_ s) (hp_ : Sub [.free, .tx, .regs, .counts, .banks, .icu, .shelf, .num, .snd, .slv, .upd, .mem, .bytes, .clf, .lsh, .shg, .swl, .ofs, .quay, .eth, .lh, .pwr, .rst, .sec, .edge] ps_) :
    Rel ps_ z_ (plainWrite s o c) := by
  unfold plainWrite
  refine iteP (P := Rel ps_ z_) h0_ ?_
  exact getDO (rangeWriteP h0_ fun e he i => rel_hooks hp_ h0_ e he i) (rel_storeWrite h0_ (Sub.trans (by decide) hp_))

theorem rel_execRegRead {ps_ : List Part} {z_ : State} {h : EcpHdr} {offset : W32} {count : Nat} {s : State} (h3_ : Rel ps_ z_ s) (hp_ : Sub [.free, .tx, .regs, .counts, .banks, .icu, .swl, .quay, .lh] ps_) :
    Ends ps_ z_ (execRegRead h offset count s) := by
  unfold execRegRead
  refine ofNext ?_
  refine rel_ecpRun ?_ ?_ (Sub.trans (by decide) hp_)
  · assumption
  · intro a4_0 h4_0
    extract_lets -merge -underBinder x4_0
    have hx4_0 : Rel1 ps_ z_ x4_0 := by
      unfold x4_0
      refine rel_crsReads ?_ (Sub.trans (by decide) hp_)
      · assumption
    clear_value x4_0
    refine iteP (P := Rel1 ps_ z_) ?_ ?_
    · refine ofPair ?_
      assumption
    · refine iteP (P := Rel1 ps_ z_) ?_ ?_
      · refine ofPair ?_
        assumption
      · refine iteP (P := Rel1 ps_ z_) ?_ ?_
        · refine ofPair ?_
          assumption
        · refine ofPair ?_
          refine (?_ : Rel1 ps_ z_ _)
          assumption

theorem rel_execShfCounterClear {ps_ : List Part} {z_ : State} {w : CrsWrite} {s : State} (h1_ : Rel ps_ z_ s) (hp_ : Sub [.free, .regs, .shelf] ps_) :
    Ends ps_ z_ (execShfCounterClear w s) := by
  unfold execShfCounterClear
  refine ofNext ?_
  refine rel_writeCntCtl ?_ (Sub.trans (by decide) hp_)
  · assumption

theorem rel_crsWrite {ps_ : List Part} {z_ : State} {s : State} {req : Nat} {off : Nat} {v : W32} (h0_ : Rel ps_ z_ s) (hp_ : Sub [.free, .tx, .regs, .counts, .banks, .icu, .shelf, .num, .snd, .slv, .upd, .mem, .bytes, .clf, .lsh, .shg, .swl, .ofs, .quay, .eth, .lh, .pwr, .rst, .sec, .edge] ps_) :
    Rel ps_ z_ (crsWrite s req off v) := by
  unfold crsWrite
  refine iteP (P := Rel ps_ z_) ?_ ?_
  · refine rel_noteEmpty ?_ (Sub.trans (by decide) hp_)
    · assumption
  · refine rel_plainWrite ?_ (Sub.trans (by decide) hp_)
    · assumption

theorem rel_execRegWrite {ps_ : List Part} {z_ : State} {h : EcpHdr} {offset : W32} {value : W32} {s : State} (h3_ : Rel ps_ z_ s) (hp_ : Sub [.free, .tx, .regs, .counts, .banks, .icu, .shelf, .num, .snd, .slv, .upd, .mem, .bytes, .clf, .lsh, .shg, .swl, .ofs, .quay, .eth, .lh, .pwr, .rst, .sec, .edge] ps_) :
    Ends ps_ z_ (execRegWrite h offset value s) := by
  unfold execRegWrite
  refine ofNext ?_
  refine rel_ecpRun ?_ ?_ (Sub.trans (by decide) hp_)
  · assumption
  · intro a4_0 h4_0
    extract_lets -merge -underBinder x4_0
    clear_value x4_0
    refine iteP (P := Rel1 ps_ z_) ?_ ?_
    · refine ofPair ?_
      assumption
    · refine iteP (P := Rel1 ps_ z_) ?_ ?_
      · refine ofPair ?_
        assumption
      · refine iteP (P := Rel1 ps_ z_) ?_ ?_
        · refine ofPair ?_
          assumption
        · refine ofPair ?_
          refine rel_crsWrite ?_ (Sub.trans (by decide) hp_)
          · assumption

theorem rel_execNumDirtyPop {ps_ : List Part} {z_ : State} {berth : Nat} {w : CrsWrite} {s : State} (h2_ : Rel ps_ z_ s) (hp_ : Sub [.num] ps_) :
    Ends ps_ z_ (execNumDirtyPop berth w s) := by
  unfold execNumDirtyPop
  refine ofNext ?_
  refine iteP (P := Rel ps_ z_) ?_ ?_
  · refine rel_writePop ?_ (Sub.trans (by decide) hp_)
    · assumption
  · assumption

theorem rel_execAdmissionClear {ps_ : List Part} {z_ : State} {w : CrsWrite} {s : State} (h1_ : Rel ps_ z_ s) (hp_ : Sub [.tx, .regs, .counts, .shelf, .num, .snd, .slv, .upd, .mem, .bytes, .clf, .lsh, .shg, .swl, .ofs, .quay] ps_) :
    Ends ps_ z_ (execAdmissionClear w s) := by
  unfold execAdmissionClear
  extract_lets -merge -underBinder x2_0
  have hx2_0 : Rel ps_ z_ x2_0 := by
    unfold x2_0
    refine rel_writeAdmCtl ?_ (Sub.trans (by decide) hp_)
    · assumption
  clear_value x2_0
  refine ofNext ?_
  assumption

theorem rel_execRegisterWrite {ps_ : List Part} {z_ : State} {req : Nat} {offset : W32} {value : W32} {s : State} (h3_ : Rel ps_ z_ s) (hp_ : Sub [.free, .tx, .regs, .counts, .banks, .icu, .shelf, .num, .snd, .slv, .upd, .mem, .bytes, .clf, .lsh, .shg, .swl, .ofs, .quay, .eth, .lh, .pwr, .rst, .sec, .edge] ps_) :
    Ends ps_ z_ (execRegisterWrite req offset value s) := by
  unfold execRegisterWrite
  refine ofNext ?_
  refine iteP (P := Rel ps_ z_) ?_ ?_
  · refine rel_crsWrite ?_ (Sub.trans (by decide) hp_)
    · assumption
  · assumption

theorem rel_execShfIssueEnWrite {ps_ : List Part} {z_ : State} {w : CrsWrite} {s : State} (h1_ : Rel ps_ z_ s) (hp_ : Sub [.regs] ps_) :
    Ends ps_ z_ (execShfIssueEnWrite w s) := by
  unfold execShfIssueEnWrite
  refine ofNext ?_
  refine rel_storeWrite ?_ (Sub.trans (by decide) hp_)
  · assumption

/-! ### Sideband -/

theorem rel_sideLost {ps_ : List Part} {z_ : State} {s : State} (h0_ : Rel ps_ z_ s) (hp_ : Sub [.counts] ps_) :
    Rel ps_ z_ (sideLost s) := by
  unfold sideLost
  refine rel_count ?_ (Sub.trans (by decide) hp_)
  · assumption

theorem rel_sideReads {ps_ : List Part} {z_ : State} {y0 : Nat} {y1 : State} {y2 : Nat} (h1_ : Rel ps_ z_ y1) (hp_ : Sub [.regs, .counts, .banks, .icu, .lh] ps_) :
    Rel1 ps_ z_ (sideReads y0 y1 y2) := by
  induction y0 generalizing y1 y2 with
  | zero => exact h1_
  | succ k ih =>
    unfold sideReads
    refine ih ?_
    split
    · exact rel_crsRead h1_ hp_
    · exact h1_

theorem rel_execI3cRegRead {ps_ : List Part} {z_ : State} {n : Nat} {s : State} (h1_ : Rel ps_ z_ s) (hp_ : Sub [.tx, .regs, .counts, .banks, .icu, .lh, .edge] ps_) :
    Ends ps_ z_ (execI3cRegRead n s) := by
  unfold execI3cRegRead
  extract_lets -merge -underBinder x2_0 x2_1 x2_2 x2_3 x2_4
  have hx2_0 : Rel ps_ z_ x2_0 := by
    unfold x2_0
    refine rel_count ?_ (Sub.trans (by decide) hp_)
    · assumption
  clear_value x2_0 x2_1
  have hx2_2 : Rel1 ps_ z_ x2_2 := by
    unfold x2_2
    refine rel_sideReads ?_ (Sub.trans (by decide) hp_)
    · assumption
  clear_value x2_2
  have hx2_3 : Rel ps_ z_ x2_3 := by
    unfold x2_3
    refine (?_ : Rel1 ps_ z_ _)
    assumption
  clear_value x2_3 x2_4
  refine ofNext ?_
  refine iteP (P := Rel ps_ z_) ?_ ?_
  · assumption
  · refine iteP (P := Rel ps_ z_) ?_ ?_
    · refine rel_sideLost ?_ (Sub.trans (by decide) hp_)
      · assumption
    · refine rel_emit ?_ (Sub.trans (by decide) hp_)
      · refine rel_edge ?_ (hp_ _ (by decide))
        assumption

theorem rel_execI3cRegWrite {ps_ : List Part} {z_ : State} {offset : W32} {value : W32} {s : State} (h2_ : Rel ps_ z_ s) (hp_ : Sub [.free, .tx, .regs, .counts, .banks, .icu, .shelf, .num, .snd, .slv, .upd, .mem, .bytes, .clf, .lsh, .shg, .swl, .ofs, .quay, .eth, .lh, .pwr, .rst, .sec, .edge] ps_) :
    Ends ps_ z_ (execI3cRegWrite offset value s) := by
  unfold execI3cRegWrite
  extract_lets -merge -underBinder x2_0
  have hx2_0 : Rel ps_ z_ x2_0 := by
    unfold x2_0
    refine rel_count ?_ (Sub.trans (by decide) hp_)
    · assumption
  clear_value x2_0
  refine ofNext ?_
  refine iteP (P := Rel ps_ z_) ?_ ?_
  · assumption
  · refine iteP (P := Rel ps_ z_) ?_ ?_
    · refine rel_crsWrite ?_ (Sub.trans (by decide) hp_)
      · assumption
    · refine rel_sideLost ?_ (Sub.trans (by decide) hp_)
      · assumption

theorem rel_execI3cSetPointer {ps_ : List Part} {z_ : State} {offset : W32} {s : State} (h1_ : Rel ps_ z_ s) (hp_ : Sub [.counts, .edge] ps_) :
    Ends ps_ z_ (execI3cSetPointer offset s) := by
  unfold execI3cSetPointer
  extract_lets -merge -underBinder x2_0
  clear_value x2_0
  refine ofNext ?_
  refine iteP (P := Rel ps_ z_) ?_ ?_
  · refine rel_count ?_ (Sub.trans (by decide) hp_)
    · refine rel_edge ?_ (hp_ _ (by decide))
      assumption
  · assumption

end Sys2Proof.Laws
end

