-- ==== Sys2Proof/Laws/State.lean ====
section
/-!
SUPPORT. What the shared operations leave of each field of `State`: one small lemma for each field and operation, so that no proof
unfolds an update.
-/
namespace Sys2Proof.Laws
open Sys2Proof Sys2Proof.Machine Sys2Proof.Safety

theorem rd_congr {s t : State} (h : t.regs = s.regs) (hv : t.variant = s.variant) (f : Fld) : rd t f = rd s f := by
  unfold rd regWord; rw [h, hv]

theorem Rel.same_mem {ps : List Part} {s t : State} (h : Rel ps s t) (hm : Part.mem ∉ ps) (hb : Part.bytes ∉ ps) : t.mem = s.mem := by
  have h1 := h.frame .mem hm
  have h2 := h.frame .bytes hb
  simp only [Part.same] at h1 h2
  rw [← h2] at h1
  exact h1

/-! ### setWord -/

@[simp] theorem setWord_pending (s : State) (off : Nat) (w : W32) : (setWord s off w).pending = s.pending := rfl
@[simp] theorem setWord_variant (s : State) (off : Nat) (w : W32) : (setWord s off w).variant = s.variant := rfl
@[simp] theorem setWord_free (s : State) (off : Nat) (w : W32) : (setWord s off w).free = s.free := rfl
@[simp] theorem setWord_tx (s : State) (off : Nat) (w : W32) : (setWord s off w).tx = s.tx := rfl
@[simp] theorem setWord_counts (s : State) (off : Nat) (w : W32) : (setWord s off w).counts = s.counts := rfl
@[simp] theorem setWord_banks (s : State) (off : Nat) (w : W32) : (setWord s off w).banks = s.banks := rfl
@[simp] theorem setWord_icu (s : State) (off : Nat) (w : W32) : (setWord s off w).icu = s.icu := rfl
@[simp] theorem setWord_shelf (s : State) (off : Nat) (w : W32) : (setWord s off w).shelf = s.shelf := rfl
@[simp] theorem setWord_num (s : State) (off : Nat) (w : W32) : (setWord s off w).num = s.num := rfl
@[simp] theorem setWord_snd (s : State) (off : Nat) (w : W32) : (setWord s off w).snd = s.snd := rfl
@[simp] theorem setWord_slv (s : State) (off : Nat) (w : W32) : (setWord s off w).slv = s.slv := rfl
@[simp] theorem setWord_upd (s : State) (off : Nat) (w : W32) : (setWord s off w).upd = s.upd := rfl
@[simp] theorem setWord_mem (s : State) (off : Nat) (w : W32) : (setWord s off w).mem = s.mem := rfl
@[simp] theorem setWord_clf (s : State) (off : Nat) (w : W32) : (setWord s off w).clf = s.clf := rfl
@[simp] theorem setWord_lsh (s : State) (off : Nat) (w : W32) : (setWord s off w).lsh = s.lsh := rfl
@[simp] theorem setWord_shg (s : State) (off : Nat) (w : W32) : (setWord s off w).shg = s.shg := rfl
@[simp] theorem setWord_swl (s : State) (off : Nat) (w : W32) : (setWord s off w).swl = s.swl := rfl
@[simp] theorem setWord_ofs (s : State) (off : Nat) (w : W32) : (setWord s off w).ofs = s.ofs := rfl
@[simp] theorem setWord_quay (s : State) (off : Nat) (w : W32) : (setWord s off w).quay = s.quay := rfl
@[simp] theorem setWord_eth (s : State) (off : Nat) (w : W32) : (setWord s off w).eth = s.eth := rfl
@[simp] theorem setWord_lh (s : State) (off : Nat) (w : W32) : (setWord s off w).lh = s.lh := rfl
@[simp] theorem setWord_pwr (s : State) (off : Nat) (w : W32) : (setWord s off w).pwr = s.pwr := rfl
@[simp] theorem setWord_rst (s : State) (off : Nat) (w : W32) : (setWord s off w).rst = s.rst := rfl
@[simp] theorem setWord_sec (s : State) (off : Nat) (w : W32) : (setWord s off w).sec = s.sec := rfl
@[simp] theorem setWord_edge (s : State) (off : Nat) (w : W32) : (setWord s off w).edge = s.edge := rfl
@[simp] theorem setWord_berthOf (s : State) (off : Nat) (w : W32) (i4 : Nat) : berthOf (setWord s off w) i4 = berthOf s i4 := by simp [berthOf]
@[simp] theorem setWord_now (s : State) (off : Nat) (w : W32) : now (setWord s off w) = now s := by simp [now]

/-! ### wr -/

@[simp] theorem wr_pending (s : State) (f : Fld) (v : Nat) : (wr s f v).pending = s.pending := rfl
@[simp] theorem wr_variant (s : State) (f : Fld) (v : Nat) : (wr s f v).variant = s.variant := rfl
@[simp] theorem wr_free (s : State) (f : Fld) (v : Nat) : (wr s f v).free = s.free := rfl
@[simp] theorem wr_tx (s : State) (f : Fld) (v : Nat) : (wr s f v).tx = s.tx := rfl
@[simp] theorem wr_counts (s : State) (f : Fld) (v : Nat) : (wr s f v).counts = s.counts := rfl
@[simp] theorem wr_banks (s : State) (f : Fld) (v : Nat) : (wr s f v).banks = s.banks := rfl
@[simp] theorem wr_icu (s : State) (f : Fld) (v : Nat) : (wr s f v).icu = s.icu := rfl
@[simp] theorem wr_shelf (s : State) (f : Fld) (v : Nat) : (wr s f v).shelf = s.shelf := rfl
@[simp] theorem wr_num (s : State) (f : Fld) (v : Nat) : (wr s f v).num = s.num := rfl
@[simp] theorem wr_snd (s : State) (f : Fld) (v : Nat) : (wr s f v).snd = s.snd := rfl
@[simp] theorem wr_slv (s : State) (f : Fld) (v : Nat) : (wr s f v).slv = s.slv := rfl
@[simp] theorem wr_upd (s : State) (f : Fld) (v : Nat) : (wr s f v).upd = s.upd := rfl
@[simp] theorem wr_mem (s : State) (f : Fld) (v : Nat) : (wr s f v).mem = s.mem := rfl
@[simp] theorem wr_clf (s : State) (f : Fld) (v : Nat) : (wr s f v).clf = s.clf := rfl
@[simp] theorem wr_lsh (s : State) (f : Fld) (v : Nat) : (wr s f v).lsh = s.lsh := rfl
@[simp] theorem wr_shg (s : State) (f : Fld) (v : Nat) : (wr s f v).shg = s.shg := rfl
@[simp] theorem wr_swl (s : State) (f : Fld) (v : Nat) : (wr s f v).swl = s.swl := rfl
@[simp] theorem wr_ofs (s : State) (f : Fld) (v : Nat) : (wr s f v).ofs = s.ofs := rfl
@[simp] theorem wr_quay (s : State) (f : Fld) (v : Nat) : (wr s f v).quay = s.quay := rfl
@[simp] theorem wr_eth (s : State) (f : Fld) (v : Nat) : (wr s f v).eth = s.eth := rfl
@[simp] theorem wr_lh (s : State) (f : Fld) (v : Nat) : (wr s f v).lh = s.lh := rfl
@[simp] theorem wr_pwr (s : State) (f : Fld) (v : Nat) : (wr s f v).pwr = s.pwr := rfl
@[simp] theorem wr_rst (s : State) (f : Fld) (v : Nat) : (wr s f v).rst = s.rst := rfl
@[simp] theorem wr_sec (s : State) (f : Fld) (v : Nat) : (wr s f v).sec = s.sec := rfl
@[simp] theorem wr_edge (s : State) (f : Fld) (v : Nat) : (wr s f v).edge = s.edge := rfl
@[simp] theorem wr_berthOf (s : State) (f : Fld) (v : Nat) (i4 : Nat) : berthOf (wr s f v) i4 = berthOf s i4 := by simp [berthOf]
@[simp] theorem wr_now (s : State) (f : Fld) (v : Nat) : now (wr s f v) = now s := by simp [now]

/-! ### wrOr -/

@[simp] theorem wrOr_pending (s : State) (f : Fld) (v : Nat) : (wrOr s f v).pending = s.pending := rfl
@[simp] theorem wrOr_variant (s : State) (f : Fld) (v : Nat) : (wrOr s f v).variant = s.variant := rfl
@[simp] theorem wrOr_free (s : State) (f : Fld) (v : Nat) : (wrOr s f v).free = s.free := rfl
@[simp] theorem wrOr_tx (s : State) (f : Fld) (v : Nat) : (wrOr s f v).tx = s.tx := rfl
@[simp] theorem wrOr_counts (s : State) (f : Fld) (v : Nat) : (wrOr s f v).counts = s.counts := rfl
@[simp] theorem wrOr_banks (s : State) (f : Fld) (v : Nat) : (wrOr s f v).banks = s.banks := rfl
@[simp] theorem wrOr_icu (s : State) (f : Fld) (v : Nat) : (wrOr s f v).icu = s.icu := rfl
@[simp] theorem wrOr_shelf (s : State) (f : Fld) (v : Nat) : (wrOr s f v).shelf = s.shelf := rfl
@[simp] theorem wrOr_num (s : State) (f : Fld) (v : Nat) : (wrOr s f v).num = s.num := rfl
@[simp] theorem wrOr_snd (s : State) (f : Fld) (v : Nat) : (wrOr s f v).snd = s.snd := rfl
@[simp] theorem wrOr_slv (s : State) (f : Fld) (v : Nat) : (wrOr s f v).slv = s.slv := rfl
@[simp] theorem wrOr_upd (s : State) (f : Fld) (v : Nat) : (wrOr s f v).upd = s.upd := rfl
@[simp] theorem wrOr_mem (s : State) (f : Fld) (v : Nat) : (wrOr s f v).mem = s.mem := rfl
@[simp] theorem wrOr_clf (s : State) (f : Fld) (v : Nat) : (wrOr s f v).clf = s.clf := rfl
@[simp] theorem wrOr_lsh (s : State) (f : Fld) (v : Nat) : (wrOr s f v).lsh = s.lsh := rfl
@[simp] theorem wrOr_shg (s : State) (f : Fld) (v : Nat) : (wrOr s f v).shg = s.shg := rfl
@[simp] theorem wrOr_swl (s : State) (f : Fld) (v : Nat) : (wrOr s f v).swl = s.swl := rfl
@[simp] theorem wrOr_ofs (s : State) (f : Fld) (v : Nat) : (wrOr s f v).ofs = s.ofs := rfl
@[simp] theorem wrOr_quay (s : State) (f : Fld) (v : Nat) : (wrOr s f v).quay = s.quay := rfl
@[simp] theorem wrOr_eth (s : State) (f : Fld) (v : Nat) : (wrOr s f v).eth = s.eth := rfl
@[simp] theorem wrOr_lh (s : State) (f : Fld) (v : Nat) : (wrOr s f v).lh = s.lh := rfl
@[simp] theorem wrOr_pwr (s : State) (f : Fld) (v : Nat) : (wrOr s f v).pwr = s.pwr := rfl
@[simp] theorem wrOr_rst (s : State) (f : Fld) (v : Nat) : (wrOr s f v).rst = s.rst := rfl
@[simp] theorem wrOr_sec (s : State) (f : Fld) (v : Nat) : (wrOr s f v).sec = s.sec := rfl
@[simp] theorem wrOr_edge (s : State) (f : Fld) (v : Nat) : (wrOr s f v).edge = s.edge := rfl
@[simp] theorem wrOr_berthOf (s : State) (f : Fld) (v : Nat) (i4 : Nat) : berthOf (wrOr s f v) i4 = berthOf s i4 := by simp [berthOf]
@[simp] theorem wrOr_now (s : State) (f : Fld) (v : Nat) : now (wrOr s f v) = now s := by simp [now]

/-! ### count -/

@[simp] theorem count_pending (s : State) (id : Nat) (n : Nat) : (count s id n).pending = s.pending := rfl
@[simp] theorem count_variant (s : State) (id : Nat) (n : Nat) : (count s id n).variant = s.variant := rfl
@[simp] theorem count_free (s : State) (id : Nat) (n : Nat) : (count s id n).free = s.free := rfl
@[simp] theorem count_tx (s : State) (id : Nat) (n : Nat) : (count s id n).tx = s.tx := rfl
@[simp] theorem count_regs (s : State) (id : Nat) (n : Nat) : (count s id n).regs = s.regs := rfl
@[simp] theorem count_banks (s : State) (id : Nat) (n : Nat) : (count s id n).banks = s.banks := rfl
@[simp] theorem count_icu (s : State) (id : Nat) (n : Nat) : (count s id n).icu = s.icu := rfl
@[simp] theorem count_shelf (s : State) (id : Nat) (n : Nat) : (count s id n).shelf = s.shelf := rfl
@[simp] theorem count_num (s : State) (id : Nat) (n : Nat) : (count s id n).num = s.num := rfl
@[simp] theorem count_snd (s : State) (id : Nat) (n : Nat) : (count s id n).snd = s.snd := rfl
@[simp] theorem count_slv (s : State) (id : Nat) (n : Nat) : (count s id n).slv = s.slv := rfl
@[simp] theorem count_upd (s : State) (id : Nat) (n : Nat) : (count s id n).upd = s.upd := rfl
@[simp] theorem count_mem (s : State) (id : Nat) (n : Nat) : (count s id n).mem = s.mem := rfl
@[simp] theorem count_clf (s : State) (id : Nat) (n : Nat) : (count s id n).clf = s.clf := rfl
@[simp] theorem count_lsh (s : State) (id : Nat) (n : Nat) : (count s id n).lsh = s.lsh := rfl
@[simp] theorem count_shg (s : State) (id : Nat) (n : Nat) : (count s id n).shg = s.shg := rfl
@[simp] theorem count_swl (s : State) (id : Nat) (n : Nat) : (count s id n).swl = s.swl := rfl
@[simp] theorem count_ofs (s : State) (id : Nat) (n : Nat) : (count s id n).ofs = s.ofs := rfl
@[simp] theorem count_quay (s : State) (id : Nat) (n : Nat) : (count s id n).quay = s.quay := rfl
@[simp] theorem count_eth (s : State) (id : Nat) (n : Nat) : (count s id n).eth = s.eth := rfl
@[simp] theorem count_lh (s : State) (id : Nat) (n : Nat) : (count s id n).lh = s.lh := rfl
@[simp] theorem count_pwr (s : State) (id : Nat) (n : Nat) : (count s id n).pwr = s.pwr := rfl
@[simp] theorem count_rst (s : State) (id : Nat) (n : Nat) : (count s id n).rst = s.rst := rfl
@[simp] theorem count_sec (s : State) (id : Nat) (n : Nat) : (count s id n).sec = s.sec := rfl
@[simp] theorem count_edge (s : State) (id : Nat) (n : Nat) : (count s id n).edge = s.edge := rfl
@[simp] theorem count_rd (s : State) (id : Nat) (n : Nat) (g : Fld) : rd (count s id n) g = rd s g := rd_congr (by simp) (by simp) g
@[simp] theorem count_berthOf (s : State) (id : Nat) (n : Nat) (i4 : Nat) : berthOf (count s id n) i4 = berthOf s i4 := by simp [berthOf]
@[simp] theorem count_now (s : State) (id : Nat) (n : Nat) : now (count s id n) = now s := by simp [now]

/-! ### useFree -/

@[simp] theorem useFree_pending (s : State) : (useFree s).pending = s.pending := rfl
@[simp] theorem useFree_variant (s : State) : (useFree s).variant = s.variant := rfl
@[simp] theorem useFree_tx (s : State) : (useFree s).tx = s.tx := rfl
@[simp] theorem useFree_regs (s : State) : (useFree s).regs = s.regs := rfl
@[simp] theorem useFree_counts (s : State) : (useFree s).counts = s.counts := rfl
@[simp] theorem useFree_banks (s : State) : (useFree s).banks = s.banks := rfl
@[simp] theorem useFree_icu (s : State) : (useFree s).icu = s.icu := rfl
@[simp] theorem useFree_shelf (s : State) : (useFree s).shelf = s.shelf := rfl
@[simp] theorem useFree_num (s : State) : (useFree s).num = s.num := rfl
@[simp] theorem useFree_snd (s : State) : (useFree s).snd = s.snd := rfl
@[simp] theorem useFree_slv (s : State) : (useFree s).slv = s.slv := rfl
@[simp] theorem useFree_upd (s : State) : (useFree s).upd = s.upd := rfl
@[simp] theorem useFree_mem (s : State) : (useFree s).mem = s.mem := rfl
@[simp] theorem useFree_clf (s : State) : (useFree s).clf = s.clf := rfl
@[simp] theorem useFree_lsh (s : State) : (useFree s).lsh = s.lsh := rfl
@[simp] theorem useFree_shg (s : State) : (useFree s).shg = s.shg := rfl
@[simp] theorem useFree_swl (s : State) : (useFree s).swl = s.swl := rfl
@[simp] theorem useFree_ofs (s : State) : (useFree s).ofs = s.ofs := rfl
@[simp] theorem useFree_quay (s : State) : (useFree s).quay = s.quay := rfl
@[simp] theorem useFree_eth (s : State) : (useFree s).eth = s.eth := rfl
@[simp] theorem useFree_lh (s : State) : (useFree s).lh = s.lh := rfl
@[simp] theorem useFree_pwr (s : State) : (useFree s).pwr = s.pwr := rfl
@[simp] theorem useFree_rst (s : State) : (useFree s).rst = s.rst := rfl
@[simp] theorem useFree_sec (s : State) : (useFree s).sec = s.sec := rfl
@[simp] theorem useFree_edge (s : State) : (useFree s).edge = s.edge := rfl
@[simp] theorem useFree_rd (s : State) (g : Fld) : rd (useFree s) g = rd s g := rd_congr (by simp) (by simp) g
@[simp] theorem useFree_berthOf (s : State) (i4 : Nat) : berthOf (useFree s) i4 = berthOf s i4 := by simp [berthOf]
@[simp] theorem useFree_now (s : State) : now (useFree s) = now s := by simp [now]

/-! ### modBerth -/

@[simp] theorem modBerth_pending (s : State) (b : Nat) (f : Berth → Berth) : (modBerth s b f).pending = s.pending := rfl
@[simp] theorem modBerth_variant (s : State) (b : Nat) (f : Berth → Berth) : (modBerth s b f).variant = s.variant := rfl
@[simp] theorem modBerth_free (s : State) (b : Nat) (f : Berth → Berth) : (modBerth s b f).free = s.free := rfl
@[simp] theorem modBerth_tx (s : State) (b : Nat) (f : Berth → Berth) : (modBerth s b f).tx = s.tx := rfl
@[simp] theorem modBerth_regs (s : State) (b : Nat) (f : Berth → Berth) : (modBerth s b f).regs = s.regs := rfl
@[simp] theorem modBerth_counts (s : State) (b : Nat) (f : Berth → Berth) : (modBerth s b f).counts = s.counts := rfl
@[simp] theorem modBerth_banks (s : State) (b : Nat) (f : Berth → Berth) : (modBerth s b f).banks = s.banks := rfl
@[simp] theorem modBerth_icu (s : State) (b : Nat) (f : Berth → Berth) : (modBerth s b f).icu = s.icu := rfl
@[simp] theorem modBerth_shelf (s : State) (b : Nat) (f : Berth → Berth) : (modBerth s b f).shelf = s.shelf := rfl
@[simp] theorem modBerth_num (s : State) (b : Nat) (f : Berth → Berth) : (modBerth s b f).num = s.num := rfl
@[simp] theorem modBerth_snd (s : State) (b : Nat) (f : Berth → Berth) : (modBerth s b f).snd = s.snd := rfl
@[simp] theorem modBerth_slv (s : State) (b : Nat) (f : Berth → Berth) : (modBerth s b f).slv = s.slv := rfl
@[simp] theorem modBerth_upd (s : State) (b : Nat) (f : Berth → Berth) : (modBerth s b f).upd = s.upd := rfl
@[simp] theorem modBerth_mem (s : State) (b : Nat) (f : Berth → Berth) : (modBerth s b f).mem = s.mem := rfl
@[simp] theorem modBerth_clf (s : State) (b : Nat) (f : Berth → Berth) : (modBerth s b f).clf = s.clf := rfl
@[simp] theorem modBerth_lsh (s : State) (b : Nat) (f : Berth → Berth) : (modBerth s b f).lsh = s.lsh := rfl
@[simp] theorem modBerth_shg (s : State) (b : Nat) (f : Berth → Berth) : (modBerth s b f).shg = s.shg := rfl
@[simp] theorem modBerth_swl (s : State) (b : Nat) (f : Berth → Berth) : (modBerth s b f).swl = s.swl := rfl
@[simp] theorem modBerth_ofs (s : State) (b : Nat) (f : Berth → Berth) : (modBerth s b f).ofs = s.ofs := rfl
@[simp] theorem modBerth_eth (s : State) (b : Nat) (f : Berth → Berth) : (modBerth s b f).eth = s.eth := rfl
@[simp] theorem modBerth_lh (s : State) (b : Nat) (f : Berth → Berth) : (modBerth s b f).lh = s.lh := rfl
@[simp] theorem modBerth_pwr (s : State) (b : Nat) (f : Berth → Berth) : (modBerth s b f).pwr = s.pwr := rfl
@[simp] theorem modBerth_rst (s : State) (b : Nat) (f : Berth → Berth) : (modBerth s b f).rst = s.rst := rfl
@[simp] theorem modBerth_sec (s : State) (b : Nat) (f : Berth → Berth) : (modBerth s b f).sec = s.sec := rfl
@[simp] theorem modBerth_edge (s : State) (b : Nat) (f : Berth → Berth) : (modBerth s b f).edge = s.edge := rfl
@[simp] theorem modBerth_rd (s : State) (b : Nat) (f : Berth → Berth) (g : Fld) : rd (modBerth s b f) g = rd s g := rd_congr (by simp) (by simp) g
@[simp] theorem modBerth_now (s : State) (b : Nat) (f : Berth → Berth) : now (modBerth s b f) = now s := by simp [now]

/-! ### modMem -/

@[simp] theorem modMem_pending (s : State) (f : Memory → Memory) : (modMem s f).pending = s.pending := rfl
@[simp] theorem modMem_variant (s : State) (f : Memory → Memory) : (modMem s f).variant = s.variant := rfl
@[simp] theorem modMem_free (s : State) (f : Memory → Memory) : (modMem s f).free = s.free := rfl
@[simp] theorem modMem_tx (s : State) (f : Memory → Memory) : (modMem s f).tx = s.tx := rfl
@[simp] theorem modMem_regs (s : State) (f : Memory → Memory) : (modMem s f).regs = s.regs := rfl
@[simp] theorem modMem_counts (s : State) (f : Memory → Memory) : (modMem s f).counts = s.counts := rfl
@[simp] theorem modMem_banks (s : State) (f : Memory → Memory) : (modMem s f).banks = s.banks := rfl
@[simp] theorem modMem_icu (s : State) (f : Memory → Memory) : (modMem s f).icu = s.icu := rfl
@[simp] theorem modMem_shelf (s : State) (f : Memory → Memory) : (modMem s f).shelf = s.shelf := rfl
@[simp] theorem modMem_num (s : State) (f : Memory → Memory) : (modMem s f).num = s.num := rfl
@[simp] theorem modMem_snd (s : State) (f : Memory → Memory) : (modMem s f).snd = s.snd := rfl
@[simp] theorem modMem_slv (s : State) (f : Memory → Memory) : (modMem s f).slv = s.slv := rfl
@[simp] theorem modMem_upd (s : State) (f : Memory → Memory) : (modMem s f).upd = s.upd := rfl
@[simp] theorem modMem_mem (s : State) (f : Memory → Memory) : (modMem s f).mem = f s.mem := rfl
@[simp] theorem modMem_clf (s : State) (f : Memory → Memory) : (modMem s f).clf = s.clf := rfl
@[simp] theorem modMem_lsh (s : State) (f : Memory → Memory) : (modMem s f).lsh = s.lsh := rfl
@[simp] theorem modMem_shg (s : State) (f : Memory → Memory) : (modMem s f).shg = s.shg := rfl
@[simp] theorem modMem_swl (s : State) (f : Memory → Memory) : (modMem s f).swl = s.swl := rfl
@[simp] theorem modMem_ofs (s : State) (f : Memory → Memory) : (modMem s f).ofs = s.ofs := rfl
@[simp] theorem modMem_quay (s : State) (f : Memory → Memory) : (modMem s f).quay = s.quay := rfl
@[simp] theorem modMem_eth (s : State) (f : Memory → Memory) : (modMem s f).eth = s.eth := rfl
@[simp] theorem modMem_lh (s : State) (f : Memory → Memory) : (modMem s f).lh = s.lh := rfl
@[simp] theorem modMem_pwr (s : State) (f : Memory → Memory) : (modMem s f).pwr = s.pwr := rfl
@[simp] theorem modMem_rst (s : State) (f : Memory → Memory) : (modMem s f).rst = s.rst := rfl
@[simp] theorem modMem_sec (s : State) (f : Memory → Memory) : (modMem s f).sec = s.sec := rfl
@[simp] theorem modMem_edge (s : State) (f : Memory → Memory) : (modMem s f).edge = s.edge := rfl
@[simp] theorem modMem_rd (s : State) (f : Memory → Memory) (g : Fld) : rd (modMem s f) g = rd s g := rd_congr (by simp) (by simp) g
@[simp] theorem modMem_berthOf (s : State) (f : Memory → Memory) (i4 : Nat) : berthOf (modMem s f) i4 = berthOf s i4 := by simp [berthOf]
@[simp] theorem modMem_now (s : State) (f : Memory → Memory) : now (modMem s f) = now s := by simp [now]

/-! ### modShelf -/

@[simp] theorem modShelf_pending (s : State) (f : Shelf → Shelf) : (modShelf s f).pending = s.pending := rfl
@[simp] theorem modShelf_variant (s : State) (f : Shelf → Shelf) : (modShelf s f).variant = s.variant := rfl
@[simp] theorem modShelf_free (s : State) (f : Shelf → Shelf) : (modShelf s f).free = s.free := rfl
@[simp] theorem modShelf_tx (s : State) (f : Shelf → Shelf) : (modShelf s f).tx = s.tx := rfl
@[simp] theorem modShelf_regs (s : State) (f : Shelf → Shelf) : (modShelf s f).regs = s.regs := rfl
@[simp] theorem modShelf_counts (s : State) (f : Shelf → Shelf) : (modShelf s f).counts = s.counts := rfl
@[simp] theorem modShelf_banks (s : State) (f : Shelf → Shelf) : (modShelf s f).banks = s.banks := rfl
@[simp] theorem modShelf_icu (s : State) (f : Shelf → Shelf) : (modShelf s f).icu = s.icu := rfl
@[simp] theorem modShelf_shelf (s : State) (f : Shelf → Shelf) : (modShelf s f).shelf = f s.shelf := rfl
@[simp] theorem modShelf_num (s : State) (f : Shelf → Shelf) : (modShelf s f).num = s.num := rfl
@[simp] theorem modShelf_snd (s : State) (f : Shelf → Shelf) : (modShelf s f).snd = s.snd := rfl
@[simp] theorem modShelf_slv (s : State) (f : Shelf → Shelf) : (modShelf s f).slv = s.slv := rfl
@[simp] theorem modShelf_upd (s : State) (f : Shelf → Shelf) : (modShelf s f).upd = s.upd := rfl
@[simp] theorem modShelf_mem (s : State) (f : Shelf → Shelf) : (modShelf s f).mem = s.mem := rfl
@[simp] theorem modShelf_clf (s : State) (f : Shelf → Shelf) : (modShelf s f).clf = s.clf := rfl
@[simp] theorem modShelf_lsh (s : State) (f : Shelf → Shelf) : (modShelf s f).lsh = s.lsh := rfl
@[simp] theorem modShelf_shg (s : State) (f : Shelf → Shelf) : (modShelf s f).shg = s.shg := rfl
@[simp] theorem modShelf_swl (s : State) (f : Shelf → Shelf) : (modShelf s f).swl = s.swl := rfl
@[simp] theorem modShelf_ofs (s : State) (f : Shelf → Shelf) : (modShelf s f).ofs = s.ofs := rfl
@[simp] theorem modShelf_quay (s : State) (f : Shelf → Shelf) : (modShelf s f).quay = s.quay := rfl
@[simp] theorem modShelf_eth (s : State) (f : Shelf → Shelf) : (modShelf s f).eth = s.eth := rfl
@[simp] theorem modShelf_lh (s : State) (f : Shelf → Shelf) : (modShelf s f).lh = s.lh := rfl
@[simp] theorem modShelf_pwr (s : State) (f : Shelf → Shelf) : (modShelf s f).pwr = s.pwr := rfl
@[simp] theorem modShelf_rst (s : State) (f : Shelf → Shelf) : (modShelf s f).rst = s.rst := rfl
@[simp] theorem modShelf_sec (s : State) (f : Shelf → Shelf) : (modShelf s f).sec = s.sec := rfl
@[simp] theorem modShelf_edge (s : State) (f : Shelf → Shelf) : (modShelf s f).edge = s.edge := rfl
@[simp] theorem modShelf_rd (s : State) (f : Shelf → Shelf) (g : Fld) : rd (modShelf s f) g = rd s g := rd_congr (by simp) (by simp) g
@[simp] theorem modShelf_berthOf (s : State) (f : Shelf → Shelf) (i4 : Nat) : berthOf (modShelf s f) i4 = berthOf s i4 := by simp [berthOf]
@[simp] theorem modShelf_now (s : State) (f : Shelf → Shelf) : now (modShelf s f) = now s := by simp [now]

/-! ### modNum -/

@[simp] theorem modNum_pending (s : State) (f : Numbers → Numbers) : (modNum s f).pending = s.pending := rfl
@[simp] theorem modNum_variant (s : State) (f : Numbers → Numbers) : (modNum s f).variant = s.variant := rfl
@[simp] theorem modNum_free (s : State) (f : Numbers → Numbers) : (modNum s f).free = s.free := rfl
@[simp] theorem modNum_tx (s : State) (f : Numbers → Numbers) : (modNum s f).tx = s.tx := rfl
@[simp] theorem modNum_regs (s : State) (f : Numbers → Numbers) : (modNum s f).regs = s.regs := rfl
@[simp] theorem modNum_counts (s : State) (f : Numbers → Numbers) : (modNum s f).counts = s.counts := rfl
@[simp] theorem modNum_banks (s : State) (f : Numbers → Numbers) : (modNum s f).banks = s.banks := rfl
@[simp] theorem modNum_icu (s : State) (f : Numbers → Numbers) : (modNum s f).icu = s.icu := rfl
@[simp] theorem modNum_shelf (s : State) (f : Numbers → Numbers) : (modNum s f).shelf = s.shelf := rfl
@[simp] theorem modNum_num (s : State) (f : Numbers → Numbers) : (modNum s f).num = f s.num := rfl
@[simp] theorem modNum_snd (s : State) (f : Numbers → Numbers) : (modNum s f).snd = s.snd := rfl
@[simp] theorem modNum_slv (s : State) (f : Numbers → Numbers) : (modNum s f).slv = s.slv := rfl
@[simp] theorem modNum_upd (s : State) (f : Numbers → Numbers) : (modNum s f).upd = s.upd := rfl
@[simp] theorem modNum_mem (s : State) (f : Numbers → Numbers) : (modNum s f).mem = s.mem := rfl
@[simp] theorem modNum_clf (s : State) (f : Numbers → Numbers) : (modNum s f).clf = s.clf := rfl
@[simp] theorem modNum_lsh (s : State) (f : Numbers → Numbers) : (modNum s f).lsh = s.lsh := rfl
@[simp] theorem modNum_shg (s : State) (f : Numbers → Numbers) : (modNum s f).shg = s.shg := rfl
@[simp] theorem modNum_swl (s : State) (f : Numbers → Numbers) : (modNum s f).swl = s.swl := rfl
@[simp] theorem modNum_ofs (s : State) (f : Numbers → Numbers) : (modNum s f).ofs = s.ofs := rfl
@[simp] theorem modNum_quay (s : State) (f : Numbers → Numbers) : (modNum s f).quay = s.quay := rfl
@[simp] theorem modNum_eth (s : State) (f : Numbers → Numbers) : (modNum s f).eth = s.eth := rfl
@[simp] theorem modNum_lh (s : State) (f : Numbers → Numbers) : (modNum s f).lh = s.lh := rfl
@[simp] theorem modNum_pwr (s : State) (f : Numbers → Numbers) : (modNum s f).pwr = s.pwr := rfl
@[simp] theorem modNum_rst (s : State) (f : Numbers → Numbers) : (modNum s f).rst = s.rst := rfl
@[simp] theorem modNum_sec (s : State) (f : Numbers → Numbers) : (modNum s f).sec = s.sec := rfl
@[simp] theorem modNum_edge (s : State) (f : Numbers → Numbers) : (modNum s f).edge = s.edge := rfl
@[simp] theorem modNum_rd (s : State) (f : Numbers → Numbers) (g : Fld) : rd (modNum s f) g = rd s g := rd_congr (by simp) (by simp) g
@[simp] theorem modNum_berthOf (s : State) (f : Numbers → Numbers) (i4 : Nat) : berthOf (modNum s f) i4 = berthOf s i4 := by simp [berthOf]
@[simp] theorem modNum_now (s : State) (f : Numbers → Numbers) : now (modNum s f) = now s := by simp [now]

/-! ### modSnd -/

@[simp] theorem modSnd_pending (s : State) (f : Sounding → Sounding) : (modSnd s f).pending = s.pending := rfl
@[simp] theorem modSnd_variant (s : State) (f : Sounding → Sounding) : (modSnd s f).variant = s.variant := rfl
@[simp] theorem modSnd_free (s : State) (f : Sounding → Sounding) : (modSnd s f).free = s.free := rfl
@[simp] theorem modSnd_tx (s : State) (f : Sounding → Sounding) : (modSnd s f).tx = s.tx := rfl
@[simp] theorem modSnd_regs (s : State) (f : Sounding → Sounding) : (modSnd s f).regs = s.regs := rfl
@[simp] theorem modSnd_counts (s : State) (f : Sounding → Sounding) : (modSnd s f).counts = s.counts := rfl
@[simp] theorem modSnd_banks (s : State) (f : Sounding → Sounding) : (modSnd s f).banks = s.banks := rfl
@[simp] theorem modSnd_icu (s : State) (f : Sounding → Sounding) : (modSnd s f).icu = s.icu := rfl
@[simp] theorem modSnd_shelf (s : State) (f : Sounding → Sounding) : (modSnd s f).shelf = s.shelf := rfl
@[simp] theorem modSnd_num (s : State) (f : Sounding → Sounding) : (modSnd s f).num = s.num := rfl
@[simp] theorem modSnd_snd (s : State) (f : Sounding → Sounding) : (modSnd s f).snd = f s.snd := rfl
@[simp] theorem modSnd_slv (s : State) (f : Sounding → Sounding) : (modSnd s f).slv = s.slv := rfl
@[simp] theorem modSnd_upd (s : State) (f : Sounding → Sounding) : (modSnd s f).upd = s.upd := rfl
@[simp] theorem modSnd_mem (s : State) (f : Sounding → Sounding) : (modSnd s f).mem = s.mem := rfl
@[simp] theorem modSnd_clf (s : State) (f : Sounding → Sounding) : (modSnd s f).clf = s.clf := rfl
@[simp] theorem modSnd_lsh (s : State) (f : Sounding → Sounding) : (modSnd s f).lsh = s.lsh := rfl
@[simp] theorem modSnd_shg (s : State) (f : Sounding → Sounding) : (modSnd s f).shg = s.shg := rfl
@[simp] theorem modSnd_swl (s : State) (f : Sounding → Sounding) : (modSnd s f).swl = s.swl := rfl
@[simp] theorem modSnd_ofs (s : State) (f : Sounding → Sounding) : (modSnd s f).ofs = s.ofs := rfl
@[simp] theorem modSnd_quay (s : State) (f : Sounding → Sounding) : (modSnd s f).quay = s.quay := rfl
@[simp] theorem modSnd_eth (s : State) (f : Sounding → Sounding) : (modSnd s f).eth = s.eth := rfl
@[simp] theorem modSnd_lh (s : State) (f : Sounding → Sounding) : (modSnd s f).lh = s.lh := rfl
@[simp] theorem modSnd_pwr (s : State) (f : Sounding → Sounding) : (modSnd s f).pwr = s.pwr := rfl
@[simp] theorem modSnd_rst (s : State) (f : Sounding → Sounding) : (modSnd s f).rst = s.rst := rfl
@[simp] theorem modSnd_sec (s : State) (f : Sounding → Sounding) : (modSnd s f).sec = s.sec := rfl
@[simp] theorem modSnd_edge (s : State) (f : Sounding → Sounding) : (modSnd s f).edge = s.edge := rfl
@[simp] theorem modSnd_rd (s : State) (f : Sounding → Sounding) (g : Fld) : rd (modSnd s f) g = rd s g := rd_congr (by simp) (by simp) g
@[simp] theorem modSnd_berthOf (s : State) (f : Sounding → Sounding) (i4 : Nat) : berthOf (modSnd s f) i4 = berthOf s i4 := by simp [berthOf]
@[simp] theorem modSnd_now (s : State) (f : Sounding → Sounding) : now (modSnd s f) = now s := by simp [now]

/-! ### modSlv -/

@[simp] theorem modSlv_pending (s : State) (f : Solver → Solver) : (modSlv s f).pending = s.pending := rfl
@[simp] theorem modSlv_variant (s : State) (f : Solver → Solver) : (modSlv s f).variant = s.variant := rfl
@[simp] theorem modSlv_free (s : State) (f : Solver → Solver) : (modSlv s f).free = s.free := rfl
@[simp] theorem modSlv_tx (s : State) (f : Solver → Solver) : (modSlv s f).tx = s.tx := rfl
@[simp] theorem modSlv_regs (s : State) (f : Solver → Solver) : (modSlv s f).regs = s.regs := rfl
@[simp] theorem modSlv_counts (s : State) (f : Solver → Solver) : (modSlv s f).counts = s.counts := rfl
@[simp] theorem modSlv_banks (s : State) (f : Solver → Solver) : (modSlv s f).banks = s.banks := rfl
@[simp] theorem modSlv_icu (s : State) (f : Solver → Solver) : (modSlv s f).icu = s.icu := rfl
@[simp] theorem modSlv_shelf (s : State) (f : Solver → Solver) : (modSlv s f).shelf = s.shelf := rfl
@[simp] theorem modSlv_num (s : State) (f : Solver → Solver) : (modSlv s f).num = s.num := rfl
@[simp] theorem modSlv_snd (s : State) (f : Solver → Solver) : (modSlv s f).snd = s.snd := rfl
@[simp] theorem modSlv_slv (s : State) (f : Solver → Solver) : (modSlv s f).slv = f s.slv := rfl
@[simp] theorem modSlv_upd (s : State) (f : Solver → Solver) : (modSlv s f).upd = s.upd := rfl
@[simp] theorem modSlv_mem (s : State) (f : Solver → Solver) : (modSlv s f).mem = s.mem := rfl
@[simp] theorem modSlv_clf (s : State) (f : Solver → Solver) : (modSlv s f).clf = s.clf := rfl
@[simp] theorem modSlv_lsh (s : State) (f : Solver → Solver) : (modSlv s f).lsh = s.lsh := rfl
@[simp] theorem modSlv_shg (s : State) (f : Solver → Solver) : (modSlv s f).shg = s.shg := rfl
@[simp] theorem modSlv_swl (s : State) (f : Solver → Solver) : (modSlv s f).swl = s.swl := rfl
@[simp] theorem modSlv_ofs (s : State) (f : Solver → Solver) : (modSlv s f).ofs = s.ofs := rfl
@[simp] theorem modSlv_quay (s : State) (f : Solver → Solver) : (modSlv s f).quay = s.quay := rfl
@[simp] theorem modSlv_eth (s : State) (f : Solver → Solver) : (modSlv s f).eth = s.eth := rfl
@[simp] theorem modSlv_lh (s : State) (f : Solver → Solver) : (modSlv s f).lh = s.lh := rfl
@[simp] theorem modSlv_pwr (s : State) (f : Solver → Solver) : (modSlv s f).pwr = s.pwr := rfl
@[simp] theorem modSlv_rst (s : State) (f : Solver → Solver) : (modSlv s f).rst = s.rst := rfl
@[simp] theorem modSlv_sec (s : State) (f : Solver → Solver) : (modSlv s f).sec = s.sec := rfl
@[simp] theorem modSlv_edge (s : State) (f : Solver → Solver) : (modSlv s f).edge = s.edge := rfl
@[simp] theorem modSlv_rd (s : State) (f : Solver → Solver) (g : Fld) : rd (modSlv s f) g = rd s g := rd_congr (by simp) (by simp) g
@[simp] theorem modSlv_berthOf (s : State) (f : Solver → Solver) (i4 : Nat) : berthOf (modSlv s f) i4 = berthOf s i4 := by simp [berthOf]
@[simp] theorem modSlv_now (s : State) (f : Solver → Solver) : now (modSlv s f) = now s := by simp [now]

/-! ### modUpd -/

@[simp] theorem modUpd_pending (s : State) (f : Updater → Updater) : (modUpd s f).pending = s.pending := rfl
@[simp] theorem modUpd_variant (s : State) (f : Updater → Updater) : (modUpd s f).variant = s.variant := rfl
@[simp] theorem modUpd_free (s : State) (f : Updater → Updater) : (modUpd s f).free = s.free := rfl
@[simp] theorem modUpd_tx (s : State) (f : Updater → Updater) : (modUpd s f).tx = s.tx := rfl
@[simp] theorem modUpd_regs (s : State) (f : Updater → Updater) : (modUpd s f).regs = s.regs := rfl
@[simp] theorem modUpd_counts (s : State) (f : Updater → Updater) : (modUpd s f).counts = s.counts := rfl
@[simp] theorem modUpd_banks (s : State) (f : Updater → Updater) : (modUpd s f).banks = s.banks := rfl
@[simp] theorem modUpd_icu (s : State) (f : Updater → Updater) : (modUpd s f).icu = s.icu := rfl
@[simp] theorem modUpd_shelf (s : State) (f : Updater → Updater) : (modUpd s f).shelf = s.shelf := rfl
@[simp] theorem modUpd_num (s : State) (f : Updater → Updater) : (modUpd s f).num = s.num := rfl
@[simp] theorem modUpd_snd (s : State) (f : Updater → Updater) : (modUpd s f).snd = s.snd := rfl
@[simp] theorem modUpd_slv (s : State) (f : Updater → Updater) : (modUpd s f).slv = s.slv := rfl
@[simp] theorem modUpd_upd (s : State) (f : Updater → Updater) : (modUpd s f).upd = f s.upd := rfl
@[simp] theorem modUpd_mem (s : State) (f : Updater → Updater) : (modUpd s f).mem = s.mem := rfl
@[simp] theorem modUpd_clf (s : State) (f : Updater → Updater) : (modUpd s f).clf = s.clf := rfl
@[simp] theorem modUpd_lsh (s : State) (f : Updater → Updater) : (modUpd s f).lsh = s.lsh := rfl
@[simp] theorem modUpd_shg (s : State) (f : Updater → Updater) : (modUpd s f).shg = s.shg := rfl
@[simp] theorem modUpd_swl (s : State) (f : Updater → Updater) : (modUpd s f).swl = s.swl := rfl
@[simp] theorem modUpd_ofs (s : State) (f : Updater → Updater) : (modUpd s f).ofs = s.ofs := rfl
@[simp] theorem modUpd_quay (s : State) (f : Updater → Updater) : (modUpd s f).quay = s.quay := rfl
@[simp] theorem modUpd_eth (s : State) (f : Updater → Updater) : (modUpd s f).eth = s.eth := rfl
@[simp] theorem modUpd_lh (s : State) (f : Updater → Updater) : (modUpd s f).lh = s.lh := rfl
@[simp] theorem modUpd_pwr (s : State) (f : Updater → Updater) : (modUpd s f).pwr = s.pwr := rfl
@[simp] theorem modUpd_rst (s : State) (f : Updater → Updater) : (modUpd s f).rst = s.rst := rfl
@[simp] theorem modUpd_sec (s : State) (f : Updater → Updater) : (modUpd s f).sec = s.sec := rfl
@[simp] theorem modUpd_edge (s : State) (f : Updater → Updater) : (modUpd s f).edge = s.edge := rfl
@[simp] theorem modUpd_rd (s : State) (f : Updater → Updater) (g : Fld) : rd (modUpd s f) g = rd s g := rd_congr (by simp) (by simp) g
@[simp] theorem modUpd_berthOf (s : State) (f : Updater → Updater) (i4 : Nat) : berthOf (modUpd s f) i4 = berthOf s i4 := by simp [berthOf]
@[simp] theorem modUpd_now (s : State) (f : Updater → Updater) : now (modUpd s f) = now s := by simp [now]

/-! ### modClf -/

@[simp] theorem modClf_pending (s : State) (f : Cliff → Cliff) : (modClf s f).pending = s.pending := rfl
@[simp] theorem modClf_variant (s : State) (f : Cliff → Cliff) : (modClf s f).variant = s.variant := rfl
@[simp] theorem modClf_free (s : State) (f : Cliff → Cliff) : (modClf s f).free = s.free := rfl
@[simp] theorem modClf_tx (s : State) (f : Cliff → Cliff) : (modClf s f).tx = s.tx := rfl
@[simp] theorem modClf_regs (s : State) (f : Cliff → Cliff) : (modClf s f).regs = s.regs := rfl
@[simp] theorem modClf_counts (s : State) (f : Cliff → Cliff) : (modClf s f).counts = s.counts := rfl
@[simp] theorem modClf_banks (s : State) (f : Cliff → Cliff) : (modClf s f).banks = s.banks := rfl
@[simp] theorem modClf_icu (s : State) (f : Cliff → Cliff) : (modClf s f).icu = s.icu := rfl
@[simp] theorem modClf_shelf (s : State) (f : Cliff → Cliff) : (modClf s f).shelf = s.shelf := rfl
@[simp] theorem modClf_num (s : State) (f : Cliff → Cliff) : (modClf s f).num = s.num := rfl
@[simp] theorem modClf_snd (s : State) (f : Cliff → Cliff) : (modClf s f).snd = s.snd := rfl
@[simp] theorem modClf_slv (s : State) (f : Cliff → Cliff) : (modClf s f).slv = s.slv := rfl
@[simp] theorem modClf_upd (s : State) (f : Cliff → Cliff) : (modClf s f).upd = s.upd := rfl
@[simp] theorem modClf_mem (s : State) (f : Cliff → Cliff) : (modClf s f).mem = s.mem := rfl
@[simp] theorem modClf_clf (s : State) (f : Cliff → Cliff) : (modClf s f).clf = f s.clf := rfl
@[simp] theorem modClf_lsh (s : State) (f : Cliff → Cliff) : (modClf s f).lsh = s.lsh := rfl
@[simp] theorem modClf_shg (s : State) (f : Cliff → Cliff) : (modClf s f).shg = s.shg := rfl
@[simp] theorem modClf_swl (s : State) (f : Cliff → Cliff) : (modClf s f).swl = s.swl := rfl
@[simp] theorem modClf_ofs (s : State) (f : Cliff → Cliff) : (modClf s f).ofs = s.ofs := rfl
@[simp] theorem modClf_quay (s : State) (f : Cliff → Cliff) : (modClf s f).quay = s.quay := rfl
@[simp] theorem modClf_eth (s : State) (f : Cliff → Cliff) : (modClf s f).eth = s.eth := rfl
@[simp] theorem modClf_lh (s : State) (f : Cliff → Cliff) : (modClf s f).lh = s.lh := rfl
@[simp] theorem modClf_pwr (s : State) (f : Cliff → Cliff) : (modClf s f).pwr = s.pwr := rfl
@[simp] theorem modClf_rst (s : State) (f : Cliff → Cliff) : (modClf s f).rst = s.rst := rfl
@[simp] theorem modClf_sec (s : State) (f : Cliff → Cliff) : (modClf s f).sec = s.sec := rfl
@[simp] theorem modClf_edge (s : State) (f : Cliff → Cliff) : (modClf s f).edge = s.edge := rfl
@[simp] theorem modClf_rd (s : State) (f : Cliff → Cliff) (g : Fld) : rd (modClf s f) g = rd s g := rd_congr (by simp) (by simp) g
@[simp] theorem modClf_berthOf (s : State) (f : Cliff → Cliff) (i4 : Nat) : berthOf (modClf s f) i4 = berthOf s i4 := by simp [berthOf]
@[simp] theorem modClf_now (s : State) (f : Cliff → Cliff) : now (modClf s f) = now s := by simp [now]

/-! ### modPort -/

@[simp] theorem modPort_pending (s : State) (n : Nat) (f : Port → Port) : (modPort s n f).pending = s.pending := rfl
@[simp] theorem modPort_variant (s : State) (n : Nat) (f : Port → Port) : (modPort s n f).variant = s.variant := rfl
@[simp] theorem modPort_free (s : State) (n : Nat) (f : Port → Port) : (modPort s n f).free = s.free := rfl
@[simp] theorem modPort_tx (s : State) (n : Nat) (f : Port → Port) : (modPort s n f).tx = s.tx := rfl
@[simp] theorem modPort_regs (s : State) (n : Nat) (f : Port → Port) : (modPort s n f).regs = s.regs := rfl
@[simp] theorem modPort_counts (s : State) (n : Nat) (f : Port → Port) : (modPort s n f).counts = s.counts := rfl
@[simp] theorem modPort_banks (s : State) (n : Nat) (f : Port → Port) : (modPort s n f).banks = s.banks := rfl
@[simp] theorem modPort_icu (s : State) (n : Nat) (f : Port → Port) : (modPort s n f).icu = s.icu := rfl
@[simp] theorem modPort_shelf (s : State) (n : Nat) (f : Port → Port) : (modPort s n f).shelf = s.shelf := rfl
@[simp] theorem modPort_num (s : State) (n : Nat) (f : Port → Port) : (modPort s n f).num = s.num := rfl
@[simp] theorem modPort_snd (s : State) (n : Nat) (f : Port → Port) : (modPort s n f).snd = s.snd := rfl
@[simp] theorem modPort_slv (s : State) (n : Nat) (f : Port → Port) : (modPort s n f).slv = s.slv := rfl
@[simp] theorem modPort_upd (s : State) (n : Nat) (f : Port → Port) : (modPort s n f).upd = s.upd := rfl
@[simp] theorem modPort_mem (s : State) (n : Nat) (f : Port → Port) : (modPort s n f).mem = s.mem := rfl
@[simp] theorem modPort_lsh (s : State) (n : Nat) (f : Port → Port) : (modPort s n f).lsh = s.lsh := rfl
@[simp] theorem modPort_shg (s : State) (n : Nat) (f : Port → Port) : (modPort s n f).shg = s.shg := rfl
@[simp] theorem modPort_swl (s : State) (n : Nat) (f : Port → Port) : (modPort s n f).swl = s.swl := rfl
@[simp] theorem modPort_ofs (s : State) (n : Nat) (f : Port → Port) : (modPort s n f).ofs = s.ofs := rfl
@[simp] theorem modPort_quay (s : State) (n : Nat) (f : Port → Port) : (modPort s n f).quay = s.quay := rfl
@[simp] theorem modPort_eth (s : State) (n : Nat) (f : Port → Port) : (modPort s n f).eth = s.eth := rfl
@[simp] theorem modPort_lh (s : State) (n : Nat) (f : Port → Port) : (modPort s n f).lh = s.lh := rfl
@[simp] theorem modPort_pwr (s : State) (n : Nat) (f : Port → Port) : (modPort s n f).pwr = s.pwr := rfl
@[simp] theorem modPort_rst (s : State) (n : Nat) (f : Port → Port) : (modPort s n f).rst = s.rst := rfl
@[simp] theorem modPort_sec (s : State) (n : Nat) (f : Port → Port) : (modPort s n f).sec = s.sec := rfl
@[simp] theorem modPort_edge (s : State) (n : Nat) (f : Port → Port) : (modPort s n f).edge = s.edge := rfl
@[simp] theorem modPort_rd (s : State) (n : Nat) (f : Port → Port) (g : Fld) : rd (modPort s n f) g = rd s g := rd_congr (by simp) (by simp) g
@[simp] theorem modPort_berthOf (s : State) (n : Nat) (f : Port → Port) (i4 : Nat) : berthOf (modPort s n f) i4 = berthOf s i4 := by simp [berthOf]
@[simp] theorem modPort_now (s : State) (n : Nat) (f : Port → Port) : now (modPort s n f) = now s := by simp [now]

/-! ### modLsh -/

@[simp] theorem modLsh_pending (s : State) (f : Longshore → Longshore) : (modLsh s f).pending = s.pending := rfl
@[simp] theorem modLsh_variant (s : State) (f : Longshore → Longshore) : (modLsh s f).variant = s.variant := rfl
@[simp] theorem modLsh_free (s : State) (f : Longshore → Longshore) : (modLsh s f).free = s.free := rfl
@[simp] theorem modLsh_tx (s : State) (f : Longshore → Longshore) : (modLsh s f).tx = s.tx := rfl
@[simp] theorem modLsh_regs (s : State) (f : Longshore → Longshore) : (modLsh s f).regs = s.regs := rfl
@[simp] theorem modLsh_counts (s : State) (f : Longshore → Longshore) : (modLsh s f).counts = s.counts := rfl
@[simp] theorem modLsh_banks (s : State) (f : Longshore → Longshore) : (modLsh s f).banks = s.banks := rfl
@[simp] theorem modLsh_icu (s : State) (f : Longshore → Longshore) : (modLsh s f).icu = s.icu := rfl
@[simp] theorem modLsh_shelf (s : State) (f : Longshore → Longshore) : (modLsh s f).shelf = s.shelf := rfl
@[simp] theorem modLsh_num (s : State) (f : Longshore → Longshore) : (modLsh s f).num = s.num := rfl
@[simp] theorem modLsh_snd (s : State) (f : Longshore → Longshore) : (modLsh s f).snd = s.snd := rfl
@[simp] theorem modLsh_slv (s : State) (f : Longshore → Longshore) : (modLsh s f).slv = s.slv := rfl
@[simp] theorem modLsh_upd (s : State) (f : Longshore → Longshore) : (modLsh s f).upd = s.upd := rfl
@[simp] theorem modLsh_mem (s : State) (f : Longshore → Longshore) : (modLsh s f).mem = s.mem := rfl
@[simp] theorem modLsh_clf (s : State) (f : Longshore → Longshore) : (modLsh s f).clf = s.clf := rfl
@[simp] theorem modLsh_lsh (s : State) (f : Longshore → Longshore) : (modLsh s f).lsh = f s.lsh := rfl
@[simp] theorem modLsh_shg (s : State) (f : Longshore → Longshore) : (modLsh s f).shg = s.shg := rfl
@[simp] theorem modLsh_swl (s : State) (f : Longshore → Longshore) : (modLsh s f).swl = s.swl := rfl
@[simp] theorem modLsh_ofs (s : State) (f : Longshore → Longshore) : (modLsh s f).ofs = s.ofs := rfl
@[simp] theorem modLsh_quay (s : State) (f : Longshore → Longshore) : (modLsh s f).quay = s.quay := rfl
@[simp] theorem modLsh_eth (s : State) (f : Longshore → Longshore) : (modLsh s f).eth = s.eth := rfl
@[simp] theorem modLsh_lh (s : State) (f : Longshore → Longshore) : (modLsh s f).lh = s.lh := rfl
@[simp] theorem modLsh_pwr (s : State) (f : Longshore → Longshore) : (modLsh s f).pwr = s.pwr := rfl
@[simp] theorem modLsh_rst (s : State) (f : Longshore → Longshore) : (modLsh s f).rst = s.rst := rfl
@[simp] theorem modLsh_sec (s : State) (f : Longshore → Longshore) : (modLsh s f).sec = s.sec := rfl
@[simp] theorem modLsh_edge (s : State) (f : Longshore → Longshore) : (modLsh s f).edge = s.edge := rfl
@[simp] theorem modLsh_rd (s : State) (f : Longshore → Longshore) (g : Fld) : rd (modLsh s f) g = rd s g := rd_congr (by simp) (by simp) g
@[simp] theorem modLsh_berthOf (s : State) (f : Longshore → Longshore) (i4 : Nat) : berthOf (modLsh s f) i4 = berthOf s i4 := by simp [berthOf]
@[simp] theorem modLsh_now (s : State) (f : Longshore → Longshore) : now (modLsh s f) = now s := by simp [now]

/-! ### modShg -/

@[simp] theorem modShg_pending (s : State) (f : Shingle → Shingle) : (modShg s f).pending = s.pending := rfl
@[simp] theorem modShg_variant (s : State) (f : Shingle → Shingle) : (modShg s f).variant = s.variant := rfl
@[simp] theorem modShg_free (s : State) (f : Shingle → Shingle) : (modShg s f).free = s.free := rfl
@[simp] theorem modShg_tx (s : State) (f : Shingle → Shingle) : (modShg s f).tx = s.tx := rfl
@[simp] theorem modShg_regs (s : State) (f : Shingle → Shingle) : (modShg s f).regs = s.regs := rfl
@[simp] theorem modShg_counts (s : State) (f : Shingle → Shingle) : (modShg s f).counts = s.counts := rfl
@[simp] theorem modShg_banks (s : State) (f : Shingle → Shingle) : (modShg s f).banks = s.banks := rfl
@[simp] theorem modShg_icu (s : State) (f : Shingle → Shingle) : (modShg s f).icu = s.icu := rfl
@[simp] theorem modShg_shelf (s : State) (f : Shingle → Shingle) : (modShg s f).shelf = s.shelf := rfl
@[simp] theorem modShg_num (s : State) (f : Shingle → Shingle) : (modShg s f).num = s.num := rfl
@[simp] theorem modShg_snd (s : State) (f : Shingle → Shingle) : (modShg s f).snd = s.snd := rfl
@[simp] theorem modShg_slv (s : State) (f : Shingle → Shingle) : (modShg s f).slv = s.slv := rfl
@[simp] theorem modShg_upd (s : State) (f : Shingle → Shingle) : (modShg s f).upd = s.upd := rfl
@[simp] theorem modShg_mem (s : State) (f : Shingle → Shingle) : (modShg s f).mem = s.mem := rfl
@[simp] theorem modShg_clf (s : State) (f : Shingle → Shingle) : (modShg s f).clf = s.clf := rfl
@[simp] theorem modShg_lsh (s : State) (f : Shingle → Shingle) : (modShg s f).lsh = s.lsh := rfl
@[simp] theorem modShg_shg (s : State) (f : Shingle → Shingle) : (modShg s f).shg = f s.shg := rfl
@[simp] theorem modShg_swl (s : State) (f : Shingle → Shingle) : (modShg s f).swl = s.swl := rfl
@[simp] theorem modShg_ofs (s : State) (f : Shingle → Shingle) : (modShg s f).ofs = s.ofs := rfl
@[simp] theorem modShg_quay (s : State) (f : Shingle → Shingle) : (modShg s f).quay = s.quay := rfl
@[simp] theorem modShg_eth (s : State) (f : Shingle → Shingle) : (modShg s f).eth = s.eth := rfl
@[simp] theorem modShg_lh (s : State) (f : Shingle → Shingle) : (modShg s f).lh = s.lh := rfl
@[simp] theorem modShg_pwr (s : State) (f : Shingle → Shingle) : (modShg s f).pwr = s.pwr := rfl
@[simp] theorem modShg_rst (s : State) (f : Shingle → Shingle) : (modShg s f).rst = s.rst := rfl
@[simp] theorem modShg_sec (s : State) (f : Shingle → Shingle) : (modShg s f).sec = s.sec := rfl
@[simp] theorem modShg_edge (s : State) (f : Shingle → Shingle) : (modShg s f).edge = s.edge := rfl
@[simp] theorem modShg_rd (s : State) (f : Shingle → Shingle) (g : Fld) : rd (modShg s f) g = rd s g := rd_congr (by simp) (by simp) g
@[simp] theorem modShg_berthOf (s : State) (f : Shingle → Shingle) (i4 : Nat) : berthOf (modShg s f) i4 = berthOf s i4 := by simp [berthOf]
@[simp] theorem modShg_now (s : State) (f : Shingle → Shingle) : now (modShg s f) = now s := by simp [now]

/-! ### modSwl -/

@[simp] theorem modSwl_pending (s : State) (f : Seawall → Seawall) : (modSwl s f).pending = s.pending := rfl
@[simp] theorem modSwl_variant (s : State) (f : Seawall → Seawall) : (modSwl s f).variant = s.variant := rfl
@[simp] theorem modSwl_free (s : State) (f : Seawall → Seawall) : (modSwl s f).free = s.free := rfl
@[simp] theorem modSwl_tx (s : State) (f : Seawall → Seawall) : (modSwl s f).tx = s.tx := rfl
@[simp] theorem modSwl_regs (s : State) (f : Seawall → Seawall) : (modSwl s f).regs = s.regs := rfl
@[simp] theorem modSwl_counts (s : State) (f : Seawall → Seawall) : (modSwl s f).counts = s.counts := rfl
@[simp] theorem modSwl_banks (s : State) (f : Seawall → Seawall) : (modSwl s f).banks = s.banks := rfl
@[simp] theorem modSwl_icu (s : State) (f : Seawall → Seawall) : (modSwl s f).icu = s.icu := rfl
@[simp] theorem modSwl_shelf (s : State) (f : Seawall → Seawall) : (modSwl s f).shelf = s.shelf := rfl
@[simp] theorem modSwl_num (s : State) (f : Seawall → Seawall) : (modSwl s f).num = s.num := rfl
@[simp] theorem modSwl_snd (s : State) (f : Seawall → Seawall) : (modSwl s f).snd = s.snd := rfl
@[simp] theorem modSwl_slv (s : State) (f : Seawall → Seawall) : (modSwl s f).slv = s.slv := rfl
@[simp] theorem modSwl_upd (s : State) (f : Seawall → Seawall) : (modSwl s f).upd = s.upd := rfl
@[simp] theorem modSwl_mem (s : State) (f : Seawall → Seawall) : (modSwl s f).mem = s.mem := rfl
@[simp] theorem modSwl_clf (s : State) (f : Seawall → Seawall) : (modSwl s f).clf = s.clf := rfl
@[simp] theorem modSwl_lsh (s : State) (f : Seawall → Seawall) : (modSwl s f).lsh = s.lsh := rfl
@[simp] theorem modSwl_shg (s : State) (f : Seawall → Seawall) : (modSwl s f).shg = s.shg := rfl
@[simp] theorem modSwl_swl (s : State) (f : Seawall → Seawall) : (modSwl s f).swl = f s.swl := rfl
@[simp] theorem modSwl_ofs (s : State) (f : Seawall → Seawall) : (modSwl s f).ofs = s.ofs := rfl
@[simp] theorem modSwl_quay (s : State) (f : Seawall → Seawall) : (modSwl s f).quay = s.quay := rfl
@[simp] theorem modSwl_eth (s : State) (f : Seawall → Seawall) : (modSwl s f).eth = s.eth := rfl
@[simp] theorem modSwl_lh (s : State) (f : Seawall → Seawall) : (modSwl s f).lh = s.lh := rfl
@[simp] theorem modSwl_pwr (s : State) (f : Seawall → Seawall) : (modSwl s f).pwr = s.pwr := rfl
@[simp] theorem modSwl_rst (s : State) (f : Seawall → Seawall) : (modSwl s f).rst = s.rst := rfl
@[simp] theorem modSwl_sec (s : State) (f : Seawall → Seawall) : (modSwl s f).sec = s.sec := rfl
@[simp] theorem modSwl_edge (s : State) (f : Seawall → Seawall) : (modSwl s f).edge = s.edge := rfl
@[simp] theorem modSwl_rd (s : State) (f : Seawall → Seawall) (g : Fld) : rd (modSwl s f) g = rd s g := rd_congr (by simp) (by simp) g
@[simp] theorem modSwl_berthOf (s : State) (f : Seawall → Seawall) (i4 : Nat) : berthOf (modSwl s f) i4 = berthOf s i4 := by simp [berthOf]
@[simp] theorem modSwl_now (s : State) (f : Seawall → Seawall) : now (modSwl s f) = now s := by simp [now]

/-! ### modOfs -/

@[simp] theorem modOfs_pending (s : State) (f : Offshore → Offshore) : (modOfs s f).pending = s.pending := rfl
@[simp] theorem modOfs_variant (s : State) (f : Offshore → Offshore) : (modOfs s f).variant = s.variant := rfl
@[simp] theorem modOfs_free (s : State) (f : Offshore → Offshore) : (modOfs s f).free = s.free := rfl
@[simp] theorem modOfs_tx (s : State) (f : Offshore → Offshore) : (modOfs s f).tx = s.tx := rfl
@[simp] theorem modOfs_regs (s : State) (f : Offshore → Offshore) : (modOfs s f).regs = s.regs := rfl
@[simp] theorem modOfs_counts (s : State) (f : Offshore → Offshore) : (modOfs s f).counts = s.counts := rfl
@[simp] theorem modOfs_banks (s : State) (f : Offshore → Offshore) : (modOfs s f).banks = s.banks := rfl
@[simp] theorem modOfs_icu (s : State) (f : Offshore → Offshore) : (modOfs s f).icu = s.icu := rfl
@[simp] theorem modOfs_shelf (s : State) (f : Offshore → Offshore) : (modOfs s f).shelf = s.shelf := rfl
@[simp] theorem modOfs_num (s : State) (f : Offshore → Offshore) : (modOfs s f).num = s.num := rfl
@[simp] theorem modOfs_snd (s : State) (f : Offshore → Offshore) : (modOfs s f).snd = s.snd := rfl
@[simp] theorem modOfs_slv (s : State) (f : Offshore → Offshore) : (modOfs s f).slv = s.slv := rfl
@[simp] theorem modOfs_upd (s : State) (f : Offshore → Offshore) : (modOfs s f).upd = s.upd := rfl
@[simp] theorem modOfs_mem (s : State) (f : Offshore → Offshore) : (modOfs s f).mem = s.mem := rfl
@[simp] theorem modOfs_clf (s : State) (f : Offshore → Offshore) : (modOfs s f).clf = s.clf := rfl
@[simp] theorem modOfs_lsh (s : State) (f : Offshore → Offshore) : (modOfs s f).lsh = s.lsh := rfl
@[simp] theorem modOfs_shg (s : State) (f : Offshore → Offshore) : (modOfs s f).shg = s.shg := rfl
@[simp] theorem modOfs_swl (s : State) (f : Offshore → Offshore) : (modOfs s f).swl = s.swl := rfl
@[simp] theorem modOfs_ofs (s : State) (f : Offshore → Offshore) : (modOfs s f).ofs = f s.ofs := rfl
@[simp] theorem modOfs_quay (s : State) (f : Offshore → Offshore) : (modOfs s f).quay = s.quay := rfl
@[simp] theorem modOfs_eth (s : State) (f : Offshore → Offshore) : (modOfs s f).eth = s.eth := rfl
@[simp] theorem modOfs_lh (s : State) (f : Offshore → Offshore) : (modOfs s f).lh = s.lh := rfl
@[simp] theorem modOfs_pwr (s : State) (f : Offshore → Offshore) : (modOfs s f).pwr = s.pwr := rfl
@[simp] theorem modOfs_rst (s : State) (f : Offshore → Offshore) : (modOfs s f).rst = s.rst := rfl
@[simp] theorem modOfs_sec (s : State) (f : Offshore → Offshore) : (modOfs s f).sec = s.sec := rfl
@[simp] theorem modOfs_edge (s : State) (f : Offshore → Offshore) : (modOfs s f).edge = s.edge := rfl
@[simp] theorem modOfs_rd (s : State) (f : Offshore → Offshore) (g : Fld) : rd (modOfs s f) g = rd s g := rd_congr (by simp) (by simp) g
@[simp] theorem modOfs_berthOf (s : State) (f : Offshore → Offshore) (i4 : Nat) : berthOf (modOfs s f) i4 = berthOf s i4 := by simp [berthOf]
@[simp] theorem modOfs_now (s : State) (f : Offshore → Offshore) : now (modOfs s f) = now s := by simp [now]

/-! ### modEth -/

@[simp] theorem modEth_pending (s : State) (f : Ether → Ether) : (modEth s f).pending = s.pending := rfl
@[simp] theorem modEth_variant (s : State) (f : Ether → Ether) : (modEth s f).variant = s.variant := rfl
@[simp] theorem modEth_free (s : State) (f : Ether → Ether) : (modEth s f).free = s.free := rfl
@[simp] theorem modEth_tx (s : State) (f : Ether → Ether) : (modEth s f).tx = s.tx := rfl
@[simp] theorem modEth_regs (s : State) (f : Ether → Ether) : (modEth s f).regs = s.regs := rfl
@[simp] theorem modEth_counts (s : State) (f : Ether → Ether) : (modEth s f).counts = s.counts := rfl
@[simp] theorem modEth_banks (s : State) (f : Ether → Ether) : (modEth s f).banks = s.banks := rfl
@[simp] theorem modEth_icu (s : State) (f : Ether → Ether) : (modEth s f).icu = s.icu := rfl
@[simp] theorem modEth_shelf (s : State) (f : Ether → Ether) : (modEth s f).shelf = s.shelf := rfl
@[simp] theorem modEth_num (s : State) (f : Ether → Ether) : (modEth s f).num = s.num := rfl
@[simp] theorem modEth_snd (s : State) (f : Ether → Ether) : (modEth s f).snd = s.snd := rfl
@[simp] theorem modEth_slv (s : State) (f : Ether → Ether) : (modEth s f).slv = s.slv := rfl
@[simp] theorem modEth_upd (s : State) (f : Ether → Ether) : (modEth s f).upd = s.upd := rfl
@[simp] theorem modEth_mem (s : State) (f : Ether → Ether) : (modEth s f).mem = s.mem := rfl
@[simp] theorem modEth_clf (s : State) (f : Ether → Ether) : (modEth s f).clf = s.clf := rfl
@[simp] theorem modEth_lsh (s : State) (f : Ether → Ether) : (modEth s f).lsh = s.lsh := rfl
@[simp] theorem modEth_shg (s : State) (f : Ether → Ether) : (modEth s f).shg = s.shg := rfl
@[simp] theorem modEth_swl (s : State) (f : Ether → Ether) : (modEth s f).swl = s.swl := rfl
@[simp] theorem modEth_ofs (s : State) (f : Ether → Ether) : (modEth s f).ofs = s.ofs := rfl
@[simp] theorem modEth_quay (s : State) (f : Ether → Ether) : (modEth s f).quay = s.quay := rfl
@[simp] theorem modEth_eth (s : State) (f : Ether → Ether) : (modEth s f).eth = f s.eth := rfl
@[simp] theorem modEth_lh (s : State) (f : Ether → Ether) : (modEth s f).lh = s.lh := rfl
@[simp] theorem modEth_pwr (s : State) (f : Ether → Ether) : (modEth s f).pwr = s.pwr := rfl
@[simp] theorem modEth_rst (s : State) (f : Ether → Ether) : (modEth s f).rst = s.rst := rfl
@[simp] theorem modEth_sec (s : State) (f : Ether → Ether) : (modEth s f).sec = s.sec := rfl
@[simp] theorem modEth_edge (s : State) (f : Ether → Ether) : (modEth s f).edge = s.edge := rfl
@[simp] theorem modEth_rd (s : State) (f : Ether → Ether) (g : Fld) : rd (modEth s f) g = rd s g := rd_congr (by simp) (by simp) g
@[simp] theorem modEth_berthOf (s : State) (f : Ether → Ether) (i4 : Nat) : berthOf (modEth s f) i4 = berthOf s i4 := by simp [berthOf]
@[simp] theorem modEth_now (s : State) (f : Ether → Ether) : now (modEth s f) = now s := by simp [now]

/-! ### modIcu -/

@[simp] theorem modIcu_pending (s : State) (f : Icu → Icu) : (modIcu s f).pending = s.pending := rfl
@[simp] theorem modIcu_variant (s : State) (f : Icu → Icu) : (modIcu s f).variant = s.variant := rfl
@[simp] theorem modIcu_free (s : State) (f : Icu → Icu) : (modIcu s f).free = s.free := rfl
@[simp] theorem modIcu_tx (s : State) (f : Icu → Icu) : (modIcu s f).tx = s.tx := rfl
@[simp] theorem modIcu_regs (s : State) (f : Icu → Icu) : (modIcu s f).regs = s.regs := rfl
@[simp] theorem modIcu_counts (s : State) (f : Icu → Icu) : (modIcu s f).counts = s.counts := rfl
@[simp] theorem modIcu_banks (s : State) (f : Icu → Icu) : (modIcu s f).banks = s.banks := rfl
@[simp] theorem modIcu_icu (s : State) (f : Icu → Icu) : (modIcu s f).icu = f s.icu := rfl
@[simp] theorem modIcu_shelf (s : State) (f : Icu → Icu) : (modIcu s f).shelf = s.shelf := rfl
@[simp] theorem modIcu_num (s : State) (f : Icu → Icu) : (modIcu s f).num = s.num := rfl
@[simp] theorem modIcu_snd (s : State) (f : Icu → Icu) : (modIcu s f).snd = s.snd := rfl
@[simp] theorem modIcu_slv (s : State) (f : Icu → Icu) : (modIcu s f).slv = s.slv := rfl
@[simp] theorem modIcu_upd (s : State) (f : Icu → Icu) : (modIcu s f).upd = s.upd := rfl
@[simp] theorem modIcu_mem (s : State) (f : Icu → Icu) : (modIcu s f).mem = s.mem := rfl
@[simp] theorem modIcu_clf (s : State) (f : Icu → Icu) : (modIcu s f).clf = s.clf := rfl
@[simp] theorem modIcu_lsh (s : State) (f : Icu → Icu) : (modIcu s f).lsh = s.lsh := rfl
@[simp] theorem modIcu_shg (s : State) (f : Icu → Icu) : (modIcu s f).shg = s.shg := rfl
@[simp] theorem modIcu_swl (s : State) (f : Icu → Icu) : (modIcu s f).swl = s.swl := rfl
@[simp] theorem modIcu_ofs (s : State) (f : Icu → Icu) : (modIcu s f).ofs = s.ofs := rfl
@[simp] theorem modIcu_quay (s : State) (f : Icu → Icu) : (modIcu s f).quay = s.quay := rfl
@[simp] theorem modIcu_eth (s : State) (f : Icu → Icu) : (modIcu s f).eth = s.eth := rfl
@[simp] theorem modIcu_lh (s : State) (f : Icu → Icu) : (modIcu s f).lh = s.lh := rfl
@[simp] theorem modIcu_pwr (s : State) (f : Icu → Icu) : (modIcu s f).pwr = s.pwr := rfl
@[simp] theorem modIcu_rst (s : State) (f : Icu → Icu) : (modIcu s f).rst = s.rst := rfl
@[simp] theorem modIcu_sec (s : State) (f : Icu → Icu) : (modIcu s f).sec = s.sec := rfl
@[simp] theorem modIcu_edge (s : State) (f : Icu → Icu) : (modIcu s f).edge = s.edge := rfl
@[simp] theorem modIcu_rd (s : State) (f : Icu → Icu) (g : Fld) : rd (modIcu s f) g = rd s g := rd_congr (by simp) (by simp) g
@[simp] theorem modIcu_berthOf (s : State) (f : Icu → Icu) (i4 : Nat) : berthOf (modIcu s f) i4 = berthOf s i4 := by simp [berthOf]
@[simp] theorem modIcu_now (s : State) (f : Icu → Icu) : now (modIcu s f) = now s := by simp [now]

/-! ### modCore -/

@[simp] theorem modCore_pending (s : State) (k : Nat) (f : Core → Core) : (modCore s k f).pending = s.pending := rfl
@[simp] theorem modCore_variant (s : State) (k : Nat) (f : Core → Core) : (modCore s k f).variant = s.variant := rfl
@[simp] theorem modCore_free (s : State) (k : Nat) (f : Core → Core) : (modCore s k f).free = s.free := rfl
@[simp] theorem modCore_tx (s : State) (k : Nat) (f : Core → Core) : (modCore s k f).tx = s.tx := rfl
@[simp] theorem modCore_regs (s : State) (k : Nat) (f : Core → Core) : (modCore s k f).regs = s.regs := rfl
@[simp] theorem modCore_counts (s : State) (k : Nat) (f : Core → Core) : (modCore s k f).counts = s.counts := rfl
@[simp] theorem modCore_banks (s : State) (k : Nat) (f : Core → Core) : (modCore s k f).banks = s.banks := rfl
@[simp] theorem modCore_icu (s : State) (k : Nat) (f : Core → Core) : (modCore s k f).icu = s.icu := rfl
@[simp] theorem modCore_shelf (s : State) (k : Nat) (f : Core → Core) : (modCore s k f).shelf = s.shelf := rfl
@[simp] theorem modCore_num (s : State) (k : Nat) (f : Core → Core) : (modCore s k f).num = s.num := rfl
@[simp] theorem modCore_snd (s : State) (k : Nat) (f : Core → Core) : (modCore s k f).snd = s.snd := rfl
@[simp] theorem modCore_slv (s : State) (k : Nat) (f : Core → Core) : (modCore s k f).slv = s.slv := rfl
@[simp] theorem modCore_upd (s : State) (k : Nat) (f : Core → Core) : (modCore s k f).upd = s.upd := rfl
@[simp] theorem modCore_mem (s : State) (k : Nat) (f : Core → Core) : (modCore s k f).mem = s.mem := rfl
@[simp] theorem modCore_clf (s : State) (k : Nat) (f : Core → Core) : (modCore s k f).clf = s.clf := rfl
@[simp] theorem modCore_lsh (s : State) (k : Nat) (f : Core → Core) : (modCore s k f).lsh = s.lsh := rfl
@[simp] theorem modCore_shg (s : State) (k : Nat) (f : Core → Core) : (modCore s k f).shg = s.shg := rfl
@[simp] theorem modCore_swl (s : State) (k : Nat) (f : Core → Core) : (modCore s k f).swl = s.swl := rfl
@[simp] theorem modCore_ofs (s : State) (k : Nat) (f : Core → Core) : (modCore s k f).ofs = s.ofs := rfl
@[simp] theorem modCore_quay (s : State) (k : Nat) (f : Core → Core) : (modCore s k f).quay = s.quay := rfl
@[simp] theorem modCore_eth (s : State) (k : Nat) (f : Core → Core) : (modCore s k f).eth = s.eth := rfl
@[simp] theorem modCore_pwr (s : State) (k : Nat) (f : Core → Core) : (modCore s k f).pwr = s.pwr := rfl
@[simp] theorem modCore_rst (s : State) (k : Nat) (f : Core → Core) : (modCore s k f).rst = s.rst := rfl
@[simp] theorem modCore_sec (s : State) (k : Nat) (f : Core → Core) : (modCore s k f).sec = s.sec := rfl
@[simp] theorem modCore_edge (s : State) (k : Nat) (f : Core → Core) : (modCore s k f).edge = s.edge := rfl
@[simp] theorem modCore_rd (s : State) (k : Nat) (f : Core → Core) (g : Fld) : rd (modCore s k f) g = rd s g := rd_congr (by simp) (by simp) g
@[simp] theorem modCore_berthOf (s : State) (k : Nat) (f : Core → Core) (i4 : Nat) : berthOf (modCore s k f) i4 = berthOf s i4 := by simp [berthOf]

/-! ### modRst -/

@[simp] theorem modRst_pending (s : State) (f : Resets → Resets) : (modRst s f).pending = s.pending := rfl
@[simp] theorem modRst_variant (s : State) (f : Resets → Resets) : (modRst s f).variant = s.variant := rfl
@[simp] theorem modRst_free (s : State) (f : Resets → Resets) : (modRst s f).free = s.free := rfl
@[simp] theorem modRst_tx (s : State) (f : Resets → Resets) : (modRst s f).tx = s.tx := rfl
@[simp] theorem modRst_regs (s : State) (f : Resets → Resets) : (modRst s f).regs = s.regs := rfl
@[simp] theorem modRst_counts (s : State) (f : Resets → Resets) : (modRst s f).counts = s.counts := rfl
@[simp] theorem modRst_banks (s : State) (f : Resets → Resets) : (modRst s f).banks = s.banks := rfl
@[simp] theorem modRst_icu (s : State) (f : Resets → Resets) : (modRst s f).icu = s.icu := rfl
@[simp] theorem modRst_shelf (s : State) (f : Resets → Resets) : (modRst s f).shelf = s.shelf := rfl
@[simp] theorem modRst_num (s : State) (f : Resets → Resets) : (modRst s f).num = s.num := rfl
@[simp] theorem modRst_snd (s : State) (f : Resets → Resets) : (modRst s f).snd = s.snd := rfl
@[simp] theorem modRst_slv (s : State) (f : Resets → Resets) : (modRst s f).slv = s.slv := rfl
@[simp] theorem modRst_upd (s : State) (f : Resets → Resets) : (modRst s f).upd = s.upd := rfl
@[simp] theorem modRst_mem (s : State) (f : Resets → Resets) : (modRst s f).mem = s.mem := rfl
@[simp] theorem modRst_clf (s : State) (f : Resets → Resets) : (modRst s f).clf = s.clf := rfl
@[simp] theorem modRst_lsh (s : State) (f : Resets → Resets) : (modRst s f).lsh = s.lsh := rfl
@[simp] theorem modRst_shg (s : State) (f : Resets → Resets) : (modRst s f).shg = s.shg := rfl
@[simp] theorem modRst_swl (s : State) (f : Resets → Resets) : (modRst s f).swl = s.swl := rfl
@[simp] theorem modRst_ofs (s : State) (f : Resets → Resets) : (modRst s f).ofs = s.ofs := rfl
@[simp] theorem modRst_quay (s : State) (f : Resets → Resets) : (modRst s f).quay = s.quay := rfl
@[simp] theorem modRst_eth (s : State) (f : Resets → Resets) : (modRst s f).eth = s.eth := rfl
@[simp] theorem modRst_lh (s : State) (f : Resets → Resets) : (modRst s f).lh = s.lh := rfl
@[simp] theorem modRst_pwr (s : State) (f : Resets → Resets) : (modRst s f).pwr = s.pwr := rfl
@[simp] theorem modRst_rst (s : State) (f : Resets → Resets) : (modRst s f).rst = f s.rst := rfl
@[simp] theorem modRst_sec (s : State) (f : Resets → Resets) : (modRst s f).sec = s.sec := rfl
@[simp] theorem modRst_edge (s : State) (f : Resets → Resets) : (modRst s f).edge = s.edge := rfl
@[simp] theorem modRst_rd (s : State) (f : Resets → Resets) (g : Fld) : rd (modRst s f) g = rd s g := rd_congr (by simp) (by simp) g
@[simp] theorem modRst_berthOf (s : State) (f : Resets → Resets) (i4 : Nat) : berthOf (modRst s f) i4 = berthOf s i4 := by simp [berthOf]
@[simp] theorem modRst_now (s : State) (f : Resets → Resets) : now (modRst s f) = now s := by simp [now]

/-! ### modSec -/

@[simp] theorem modSec_pending (s : State) (f : Security → Security) : (modSec s f).pending = s.pending := rfl
@[simp] theorem modSec_variant (s : State) (f : Security → Security) : (modSec s f).variant = s.variant := rfl
@[simp] theorem modSec_free (s : State) (f : Security → Security) : (modSec s f).free = s.free := rfl
@[simp] theorem modSec_tx (s : State) (f : Security → Security) : (modSec s f).tx = s.tx := rfl
@[simp] theorem modSec_regs (s : State) (f : Security → Security) : (modSec s f).regs = s.regs := rfl
@[simp] theorem modSec_counts (s : State) (f : Security → Security) : (modSec s f).counts = s.counts := rfl
@[simp] theorem modSec_banks (s : State) (f : Security → Security) : (modSec s f).banks = s.banks := rfl
@[simp] theorem modSec_icu (s : State) (f : Security → Security) : (modSec s f).icu = s.icu := rfl
@[simp] theorem modSec_shelf (s : State) (f : Security → Security) : (modSec s f).shelf = s.shelf := rfl
@[simp] theorem modSec_num (s : State) (f : Security → Security) : (modSec s f).num = s.num := rfl
@[simp] theorem modSec_snd (s : State) (f : Security → Security) : (modSec s f).snd = s.snd := rfl
@[simp] theorem modSec_slv (s : State) (f : Security → Security) : (modSec s f).slv = s.slv := rfl
@[simp] theorem modSec_upd (s : State) (f : Security → Security) : (modSec s f).upd = s.upd := rfl
@[simp] theorem modSec_mem (s : State) (f : Security → Security) : (modSec s f).mem = s.mem := rfl
@[simp] theorem modSec_clf (s : State) (f : Security → Security) : (modSec s f).clf = s.clf := rfl
@[simp] theorem modSec_lsh (s : State) (f : Security → Security) : (modSec s f).lsh = s.lsh := rfl
@[simp] theorem modSec_shg (s : State) (f : Security → Security) : (modSec s f).shg = s.shg := rfl
@[simp] theorem modSec_swl (s : State) (f : Security → Security) : (modSec s f).swl = s.swl := rfl
@[simp] theorem modSec_ofs (s : State) (f : Security → Security) : (modSec s f).ofs = s.ofs := rfl
@[simp] theorem modSec_quay (s : State) (f : Security → Security) : (modSec s f).quay = s.quay := rfl
@[simp] theorem modSec_eth (s : State) (f : Security → Security) : (modSec s f).eth = s.eth := rfl
@[simp] theorem modSec_lh (s : State) (f : Security → Security) : (modSec s f).lh = s.lh := rfl
@[simp] theorem modSec_pwr (s : State) (f : Security → Security) : (modSec s f).pwr = s.pwr := rfl
@[simp] theorem modSec_rst (s : State) (f : Security → Security) : (modSec s f).rst = s.rst := rfl
@[simp] theorem modSec_sec (s : State) (f : Security → Security) : (modSec s f).sec = f s.sec := rfl
@[simp] theorem modSec_edge (s : State) (f : Security → Security) : (modSec s f).edge = s.edge := rfl
@[simp] theorem modSec_rd (s : State) (f : Security → Security) (g : Fld) : rd (modSec s f) g = rd s g := rd_congr (by simp) (by simp) g
@[simp] theorem modSec_berthOf (s : State) (f : Security → Security) (i4 : Nat) : berthOf (modSec s f) i4 = berthOf s i4 := by simp [berthOf]
@[simp] theorem modSec_now (s : State) (f : Security → Security) : now (modSec s f) = now s := by simp [now]

/-! ### modPwr -/

@[simp] theorem modPwr_pending (s : State) (f : Power → Power) : (modPwr s f).pending = s.pending := rfl
@[simp] theorem modPwr_variant (s : State) (f : Power → Power) : (modPwr s f).variant = s.variant := rfl
@[simp] theorem modPwr_free (s : State) (f : Power → Power) : (modPwr s f).free = s.free := rfl
@[simp] theorem modPwr_tx (s : State) (f : Power → Power) : (modPwr s f).tx = s.tx := rfl
@[simp] theorem modPwr_regs (s : State) (f : Power → Power) : (modPwr s f).regs = s.regs := rfl
@[simp] theorem modPwr_counts (s : State) (f : Power → Power) : (modPwr s f).counts = s.counts := rfl
@[simp] theorem modPwr_banks (s : State) (f : Power → Power) : (modPwr s f).banks = s.banks := rfl
@[simp] theorem modPwr_icu (s : State) (f : Power → Power) : (modPwr s f).icu = s.icu := rfl
@[simp] theorem modPwr_shelf (s : State) (f : Power → Power) : (modPwr s f).shelf = s.shelf := rfl
@[simp] theorem modPwr_num (s : State) (f : Power → Power) : (modPwr s f).num = s.num := rfl
@[simp] theorem modPwr_snd (s : State) (f : Power → Power) : (modPwr s f).snd = s.snd := rfl
@[simp] theorem modPwr_slv (s : State) (f : Power → Power) : (modPwr s f).slv = s.slv := rfl
@[simp] theorem modPwr_upd (s : State) (f : Power → Power) : (modPwr s f).upd = s.upd := rfl
@[simp] theorem modPwr_mem (s : State) (f : Power → Power) : (modPwr s f).mem = s.mem := rfl
@[simp] theorem modPwr_clf (s : State) (f : Power → Power) : (modPwr s f).clf = s.clf := rfl
@[simp] theorem modPwr_lsh (s : State) (f : Power → Power) : (modPwr s f).lsh = s.lsh := rfl
@[simp] theorem modPwr_shg (s : State) (f : Power → Power) : (modPwr s f).shg = s.shg := rfl
@[simp] theorem modPwr_swl (s : State) (f : Power → Power) : (modPwr s f).swl = s.swl := rfl
@[simp] theorem modPwr_ofs (s : State) (f : Power → Power) : (modPwr s f).ofs = s.ofs := rfl
@[simp] theorem modPwr_quay (s : State) (f : Power → Power) : (modPwr s f).quay = s.quay := rfl
@[simp] theorem modPwr_eth (s : State) (f : Power → Power) : (modPwr s f).eth = s.eth := rfl
@[simp] theorem modPwr_lh (s : State) (f : Power → Power) : (modPwr s f).lh = s.lh := rfl
@[simp] theorem modPwr_pwr (s : State) (f : Power → Power) : (modPwr s f).pwr = f s.pwr := rfl
@[simp] theorem modPwr_rst (s : State) (f : Power → Power) : (modPwr s f).rst = s.rst := rfl
@[simp] theorem modPwr_sec (s : State) (f : Power → Power) : (modPwr s f).sec = s.sec := rfl
@[simp] theorem modPwr_edge (s : State) (f : Power → Power) : (modPwr s f).edge = s.edge := rfl
@[simp] theorem modPwr_rd (s : State) (f : Power → Power) (g : Fld) : rd (modPwr s f) g = rd s g := rd_congr (by simp) (by simp) g
@[simp] theorem modPwr_berthOf (s : State) (f : Power → Power) (i4 : Nat) : berthOf (modPwr s f) i4 = berthOf s i4 := by simp [berthOf]
@[simp] theorem modPwr_now (s : State) (f : Power → Power) : now (modPwr s f) = now s := by simp [now]

/-! ### modBank -/

@[simp] theorem modBank_pending (s : State) (req : Nat) (f : Bank → Bank) : (modBank s req f).pending = s.pending := rfl
@[simp] theorem modBank_variant (s : State) (req : Nat) (f : Bank → Bank) : (modBank s req f).variant = s.variant := rfl
@[simp] theorem modBank_free (s : State) (req : Nat) (f : Bank → Bank) : (modBank s req f).free = s.free := rfl
@[simp] theorem modBank_tx (s : State) (req : Nat) (f : Bank → Bank) : (modBank s req f).tx = s.tx := rfl
@[simp] theorem modBank_regs (s : State) (req : Nat) (f : Bank → Bank) : (modBank s req f).regs = s.regs := rfl
@[simp] theorem modBank_counts (s : State) (req : Nat) (f : Bank → Bank) : (modBank s req f).counts = s.counts := rfl
@[simp] theorem modBank_icu (s : State) (req : Nat) (f : Bank → Bank) : (modBank s req f).icu = s.icu := rfl
@[simp] theorem modBank_shelf (s : State) (req : Nat) (f : Bank → Bank) : (modBank s req f).shelf = s.shelf := rfl
@[simp] theorem modBank_num (s : State) (req : Nat) (f : Bank → Bank) : (modBank s req f).num = s.num := rfl
@[simp] theorem modBank_snd (s : State) (req : Nat) (f : Bank → Bank) : (modBank s req f).snd = s.snd := rfl
@[simp] theorem modBank_slv (s : State) (req : Nat) (f : Bank → Bank) : (modBank s req f).slv = s.slv := rfl
@[simp] theorem modBank_upd (s : State) (req : Nat) (f : Bank → Bank) : (modBank s req f).upd = s.upd := rfl
@[simp] theorem modBank_mem (s : State) (req : Nat) (f : Bank → Bank) : (modBank s req f).mem = s.mem := rfl
@[simp] theorem modBank_clf (s : State) (req : Nat) (f : Bank → Bank) : (modBank s req f).clf = s.clf := rfl
@[simp] theorem modBank_lsh (s : State) (req : Nat) (f : Bank → Bank) : (modBank s req f).lsh = s.lsh := rfl
@[simp] theorem modBank_shg (s : State) (req : Nat) (f : Bank → Bank) : (modBank s req f).shg = s.shg := rfl
@[simp] theorem modBank_swl (s : State) (req : Nat) (f : Bank → Bank) : (modBank s req f).swl = s.swl := rfl
@[simp] theorem modBank_ofs (s : State) (req : Nat) (f : Bank → Bank) : (modBank s req f).ofs = s.ofs := rfl
@[simp] theorem modBank_quay (s : State) (req : Nat) (f : Bank → Bank) : (modBank s req f).quay = s.quay := rfl
@[simp] theorem modBank_eth (s : State) (req : Nat) (f : Bank → Bank) : (modBank s req f).eth = s.eth := rfl
@[simp] theorem modBank_lh (s : State) (req : Nat) (f : Bank → Bank) : (modBank s req f).lh = s.lh := rfl
@[simp] theorem modBank_pwr (s : State) (req : Nat) (f : Bank → Bank) : (modBank s req f).pwr = s.pwr := rfl
@[simp] theorem modBank_rst (s : State) (req : Nat) (f : Bank → Bank) : (modBank s req f).rst = s.rst := rfl
@[simp] theorem modBank_sec (s : State) (req : Nat) (f : Bank → Bank) : (modBank s req f).sec = s.sec := rfl
@[simp] theorem modBank_edge (s : State) (req : Nat) (f : Bank → Bank) : (modBank s req f).edge = s.edge := rfl
@[simp] theorem modBank_rd (s : State) (req : Nat) (f : Bank → Bank) (g : Fld) : rd (modBank s req f) g = rd s g := rd_congr (by simp) (by simp) g
@[simp] theorem modBank_berthOf (s : State) (req : Nat) (f : Bank → Bank) (i4 : Nat) : berthOf (modBank s req f) i4 = berthOf s i4 := by simp [berthOf]
@[simp] theorem modBank_now (s : State) (req : Nat) (f : Bank → Bank) : now (modBank s req f) = now s := by simp [now]

/-! ### setPending -/

@[simp] theorem setPending_pending (s : State) (n : Nat) (x : Bool) : (setPending s n x).pending = s.pending := rfl
@[simp] theorem setPending_variant (s : State) (n : Nat) (x : Bool) : (setPending s n x).variant = s.variant := rfl
@[simp] theorem setPending_free (s : State) (n : Nat) (x : Bool) : (setPending s n x).free = s.free := rfl
@[simp] theorem setPending_tx (s : State) (n : Nat) (x : Bool) : (setPending s n x).tx = s.tx := rfl
@[simp] theorem setPending_regs (s : State) (n : Nat) (x : Bool) : (setPending s n x).regs = s.regs := rfl
@[simp] theorem setPending_counts (s : State) (n : Nat) (x : Bool) : (setPending s n x).counts = s.counts := rfl
@[simp] theorem setPending_banks (s : State) (n : Nat) (x : Bool) : (setPending s n x).banks = s.banks := rfl
@[simp] theorem setPending_shelf (s : State) (n : Nat) (x : Bool) : (setPending s n x).shelf = s.shelf := rfl
@[simp] theorem setPending_num (s : State) (n : Nat) (x : Bool) : (setPending s n x).num = s.num := rfl
@[simp] theorem setPending_snd (s : State) (n : Nat) (x : Bool) : (setPending s n x).snd = s.snd := rfl
@[simp] theorem setPending_slv (s : State) (n : Nat) (x : Bool) : (setPending s n x).slv = s.slv := rfl
@[simp] theorem setPending_upd (s : State) (n : Nat) (x : Bool) : (setPending s n x).upd = s.upd := rfl
@[simp] theorem setPending_mem (s : State) (n : Nat) (x : Bool) : (setPending s n x).mem = s.mem := rfl
@[simp] theorem setPending_clf (s : State) (n : Nat) (x : Bool) : (setPending s n x).clf = s.clf := rfl
@[simp] theorem setPending_lsh (s : State) (n : Nat) (x : Bool) : (setPending s n x).lsh = s.lsh := rfl
@[simp] theorem setPending_shg (s : State) (n : Nat) (x : Bool) : (setPending s n x).shg = s.shg := rfl
@[simp] theorem setPending_swl (s : State) (n : Nat) (x : Bool) : (setPending s n x).swl = s.swl := rfl
@[simp] theorem setPending_ofs (s : State) (n : Nat) (x : Bool) : (setPending s n x).ofs = s.ofs := rfl
@[simp] theorem setPending_quay (s : State) (n : Nat) (x : Bool) : (setPending s n x).quay = s.quay := rfl
@[simp] theorem setPending_eth (s : State) (n : Nat) (x : Bool) : (setPending s n x).eth = s.eth := rfl
@[simp] theorem setPending_lh (s : State) (n : Nat) (x : Bool) : (setPending s n x).lh = s.lh := rfl
@[simp] theorem setPending_pwr (s : State) (n : Nat) (x : Bool) : (setPending s n x).pwr = s.pwr := rfl
@[simp] theorem setPending_rst (s : State) (n : Nat) (x : Bool) : (setPending s n x).rst = s.rst := rfl
@[simp] theorem setPending_sec (s : State) (n : Nat) (x : Bool) : (setPending s n x).sec = s.sec := rfl
@[simp] theorem setPending_edge (s : State) (n : Nat) (x : Bool) : (setPending s n x).edge = s.edge := rfl
@[simp] theorem setPending_rd (s : State) (n : Nat) (x : Bool) (g : Fld) : rd (setPending s n x) g = rd s g := rd_congr (by simp) (by simp) g
@[simp] theorem setPending_berthOf (s : State) (n : Nat) (x : Bool) (i4 : Nat) : berthOf (setPending s n x) i4 = berthOf s i4 := by simp [berthOf]
@[simp] theorem setPending_now (s : State) (n : Nat) (x : Bool) : now (setPending s n x) = now s := by simp [now]

/-! ### icuCount -/

@[simp] theorem icuCount_pending (s : State) (n : Nat) : (icuCount s n).pending = s.pending := rfl
@[simp] theorem icuCount_variant (s : State) (n : Nat) : (icuCount s n).variant = s.variant := rfl
@[simp] theorem icuCount_free (s : State) (n : Nat) : (icuCount s n).free = s.free := rfl
@[simp] theorem icuCount_tx (s : State) (n : Nat) : (icuCount s n).tx = s.tx := rfl
@[simp] theorem icuCount_regs (s : State) (n : Nat) : (icuCount s n).regs = s.regs := rfl
@[simp] theorem icuCount_counts (s : State) (n : Nat) : (icuCount s n).counts = s.counts := rfl
@[simp] theorem icuCount_banks (s : State) (n : Nat) : (icuCount s n).banks = s.banks := rfl
@[simp] theorem icuCount_shelf (s : State) (n : Nat) : (icuCount s n).shelf = s.shelf := rfl
@[simp] theorem icuCount_num (s : State) (n : Nat) : (icuCount s n).num = s.num := rfl
@[simp] theorem icuCount_snd (s : State) (n : Nat) : (icuCount s n).snd = s.snd := rfl
@[simp] theorem icuCount_slv (s : State) (n : Nat) : (icuCount s n).slv = s.slv := rfl
@[simp] theorem icuCount_upd (s : State) (n : Nat) : (icuCount s n).upd = s.upd := rfl
@[simp] theorem icuCount_mem (s : State) (n : Nat) : (icuCount s n).mem = s.mem := rfl
@[simp] theorem icuCount_clf (s : State) (n : Nat) : (icuCount s n).clf = s.clf := rfl
@[simp] theorem icuCount_lsh (s : State) (n : Nat) : (icuCount s n).lsh = s.lsh := rfl
@[simp] theorem icuCount_shg (s : State) (n : Nat) : (icuCount s n).shg = s.shg := rfl
@[simp] theorem icuCount_swl (s : State) (n : Nat) : (icuCount s n).swl = s.swl := rfl
@[simp] theorem icuCount_ofs (s : State) (n : Nat) : (icuCount s n).ofs = s.ofs := rfl
@[simp] theorem icuCount_quay (s : State) (n : Nat) : (icuCount s n).quay = s.quay := rfl
@[simp] theorem icuCount_eth (s : State) (n : Nat) : (icuCount s n).eth = s.eth := rfl
@[simp] theorem icuCount_lh (s : State) (n : Nat) : (icuCount s n).lh = s.lh := rfl
@[simp] theorem icuCount_pwr (s : State) (n : Nat) : (icuCount s n).pwr = s.pwr := rfl
@[simp] theorem icuCount_rst (s : State) (n : Nat) : (icuCount s n).rst = s.rst := rfl
@[simp] theorem icuCount_sec (s : State) (n : Nat) : (icuCount s n).sec = s.sec := rfl
@[simp] theorem icuCount_edge (s : State) (n : Nat) : (icuCount s n).edge = s.edge := rfl
@[simp] theorem icuCount_rd (s : State) (n : Nat) (g : Fld) : rd (icuCount s n) g = rd s g := rd_congr (by simp) (by simp) g
@[simp] theorem icuCount_berthOf (s : State) (n : Nat) (i4 : Nat) : berthOf (icuCount s n) i4 = berthOf s i4 := by simp [berthOf]
@[simp] theorem icuCount_now (s : State) (n : Nat) : now (icuCount s n) = now s := by simp [now]

/-! ### bumpSlot -/

@[simp] theorem bumpSlot_pending (s : State) (b : Nat) (slot : Nat) (n : Nat) : (bumpSlot s b slot n).pending = s.pending := rfl
@[simp] theorem bumpSlot_variant (s : State) (b : Nat) (slot : Nat) (n : Nat) : (bumpSlot s b slot n).variant = s.variant := rfl
@[simp] theorem bumpSlot_free (s : State) (b : Nat) (slot : Nat) (n : Nat) : (bumpSlot s b slot n).free = s.free := rfl
@[simp] theorem bumpSlot_tx (s : State) (b : Nat) (slot : Nat) (n : Nat) : (bumpSlot s b slot n).tx = s.tx := rfl
@[simp] theorem bumpSlot_regs (s : State) (b : Nat) (slot : Nat) (n : Nat) : (bumpSlot s b slot n).regs = s.regs := rfl
@[simp] theorem bumpSlot_counts (s : State) (b : Nat) (slot : Nat) (n : Nat) : (bumpSlot s b slot n).counts = s.counts := rfl
@[simp] theorem bumpSlot_banks (s : State) (b : Nat) (slot : Nat) (n : Nat) : (bumpSlot s b slot n).banks = s.banks := rfl
@[simp] theorem bumpSlot_icu (s : State) (b : Nat) (slot : Nat) (n : Nat) : (bumpSlot s b slot n).icu = s.icu := rfl
@[simp] theorem bumpSlot_num (s : State) (b : Nat) (slot : Nat) (n : Nat) : (bumpSlot s b slot n).num = s.num := rfl
@[simp] theorem bumpSlot_snd (s : State) (b : Nat) (slot : Nat) (n : Nat) : (bumpSlot s b slot n).snd = s.snd := rfl
@[simp] theorem bumpSlot_slv (s : State) (b : Nat) (slot : Nat) (n : Nat) : (bumpSlot s b slot n).slv = s.slv := rfl
@[simp] theorem bumpSlot_upd (s : State) (b : Nat) (slot : Nat) (n : Nat) : (bumpSlot s b slot n).upd = s.upd := rfl
@[simp] theorem bumpSlot_mem (s : State) (b : Nat) (slot : Nat) (n : Nat) : (bumpSlot s b slot n).mem = s.mem := rfl
@[simp] theorem bumpSlot_clf (s : State) (b : Nat) (slot : Nat) (n : Nat) : (bumpSlot s b slot n).clf = s.clf := rfl
@[simp] theorem bumpSlot_lsh (s : State) (b : Nat) (slot : Nat) (n : Nat) : (bumpSlot s b slot n).lsh = s.lsh := rfl
@[simp] theorem bumpSlot_shg (s : State) (b : Nat) (slot : Nat) (n : Nat) : (bumpSlot s b slot n).shg = s.shg := rfl
@[simp] theorem bumpSlot_swl (s : State) (b : Nat) (slot : Nat) (n : Nat) : (bumpSlot s b slot n).swl = s.swl := rfl
@[simp] theorem bumpSlot_ofs (s : State) (b : Nat) (slot : Nat) (n : Nat) : (bumpSlot s b slot n).ofs = s.ofs := rfl
@[simp] theorem bumpSlot_quay (s : State) (b : Nat) (slot : Nat) (n : Nat) : (bumpSlot s b slot n).quay = s.quay := rfl
@[simp] theorem bumpSlot_eth (s : State) (b : Nat) (slot : Nat) (n : Nat) : (bumpSlot s b slot n).eth = s.eth := rfl
@[simp] theorem bumpSlot_lh (s : State) (b : Nat) (slot : Nat) (n : Nat) : (bumpSlot s b slot n).lh = s.lh := rfl
@[simp] theorem bumpSlot_pwr (s : State) (b : Nat) (slot : Nat) (n : Nat) : (bumpSlot s b slot n).pwr = s.pwr := rfl
@[simp] theorem bumpSlot_rst (s : State) (b : Nat) (slot : Nat) (n : Nat) : (bumpSlot s b slot n).rst = s.rst := rfl
@[simp] theorem bumpSlot_sec (s : State) (b : Nat) (slot : Nat) (n : Nat) : (bumpSlot s b slot n).sec = s.sec := rfl
@[simp] theorem bumpSlot_edge (s : State) (b : Nat) (slot : Nat) (n : Nat) : (bumpSlot s b slot n).edge = s.edge := rfl
@[simp] theorem bumpSlot_rd (s : State) (b : Nat) (slot : Nat) (n : Nat) (g : Fld) : rd (bumpSlot s b slot n) g = rd s g := rd_congr (by simp) (by simp) g
@[simp] theorem bumpSlot_berthOf (s : State) (b : Nat) (slot : Nat) (n : Nat) (i4 : Nat) : berthOf (bumpSlot s b slot n) i4 = berthOf s i4 := by simp [berthOf]
@[simp] theorem bumpSlot_now (s : State) (b : Nat) (slot : Nat) (n : Nat) : now (bumpSlot s b slot n) = now s := by simp [now]

/-! ### setFlag -/

@[simp] theorem setFlag_pending (s : State) (b : Nat) : (setFlag s b).pending = s.pending := rfl
@[simp] theorem setFlag_variant (s : State) (b : Nat) : (setFlag s b).variant = s.variant := rfl
@[simp] theorem setFlag_free (s : State) (b : Nat) : (setFlag s b).free = s.free := rfl
@[simp] theorem setFlag_tx (s : State) (b : Nat) : (setFlag s b).tx = s.tx := rfl
@[simp] theorem setFlag_regs (s : State) (b : Nat) : (setFlag s b).regs = s.regs := rfl
@[simp] theorem setFlag_counts (s : State) (b : Nat) : (setFlag s b).counts = s.counts := rfl
@[simp] theorem setFlag_banks (s : State) (b : Nat) : (setFlag s b).banks = s.banks := rfl
@[simp] theorem setFlag_icu (s : State) (b : Nat) : (setFlag s b).icu = s.icu := rfl
@[simp] theorem setFlag_shelf (s : State) (b : Nat) : (setFlag s b).shelf = s.shelf := rfl
@[simp] theorem setFlag_num (s : State) (b : Nat) : (setFlag s b).num = s.num := rfl
@[simp] theorem setFlag_snd (s : State) (b : Nat) : (setFlag s b).snd = s.snd := rfl
@[simp] theorem setFlag_slv (s : State) (b : Nat) : (setFlag s b).slv = s.slv := rfl
@[simp] theorem setFlag_upd (s : State) (b : Nat) : (setFlag s b).upd = s.upd := rfl
@[simp] theorem setFlag_mem (s : State) (b : Nat) : (setFlag s b).mem = s.mem := rfl
@[simp] theorem setFlag_clf (s : State) (b : Nat) : (setFlag s b).clf = s.clf := rfl
@[simp] theorem setFlag_shg (s : State) (b : Nat) : (setFlag s b).shg = s.shg := rfl
@[simp] theorem setFlag_swl (s : State) (b : Nat) : (setFlag s b).swl = s.swl := rfl
@[simp] theorem setFlag_ofs (s : State) (b : Nat) : (setFlag s b).ofs = s.ofs := rfl
@[simp] theorem setFlag_quay (s : State) (b : Nat) : (setFlag s b).quay = s.quay := rfl
@[simp] theorem setFlag_eth (s : State) (b : Nat) : (setFlag s b).eth = s.eth := rfl
@[simp] theorem setFlag_lh (s : State) (b : Nat) : (setFlag s b).lh = s.lh := rfl
@[simp] theorem setFlag_pwr (s : State) (b : Nat) : (setFlag s b).pwr = s.pwr := rfl
@[simp] theorem setFlag_rst (s : State) (b : Nat) : (setFlag s b).rst = s.rst := rfl
@[simp] theorem setFlag_sec (s : State) (b : Nat) : (setFlag s b).sec = s.sec := rfl
@[simp] theorem setFlag_edge (s : State) (b : Nat) : (setFlag s b).edge = s.edge := rfl
@[simp] theorem setFlag_rd (s : State) (b : Nat) (g : Fld) : rd (setFlag s b) g = rd s g := rd_congr (by simp) (by simp) g
@[simp] theorem setFlag_berthOf (s : State) (b : Nat) (i4 : Nat) : berthOf (setFlag s b) i4 = berthOf s i4 := by simp [berthOf]
@[simp] theorem setFlag_now (s : State) (b : Nat) : now (setFlag s b) = now s := by simp [now]

/-! ### clearKeySlot -/

@[simp] theorem clearKeySlot_pending (s : State) (n : Nat) : (clearKeySlot s n).pending = s.pending := rfl
@[simp] theorem clearKeySlot_variant (s : State) (n : Nat) : (clearKeySlot s n).variant = s.variant := rfl
@[simp] theorem clearKeySlot_free (s : State) (n : Nat) : (clearKeySlot s n).free = s.free := rfl
@[simp] theorem clearKeySlot_tx (s : State) (n : Nat) : (clearKeySlot s n).tx = s.tx := rfl
@[simp] theorem clearKeySlot_regs (s : State) (n : Nat) : (clearKeySlot s n).regs = s.regs := rfl
@[simp] theorem clearKeySlot_counts (s : State) (n : Nat) : (clearKeySlot s n).counts = s.counts := rfl
@[simp] theorem clearKeySlot_banks (s : State) (n : Nat) : (clearKeySlot s n).banks = s.banks := rfl
@[simp] theorem clearKeySlot_icu (s : State) (n : Nat) : (clearKeySlot s n).icu = s.icu := rfl
@[simp] theorem clearKeySlot_shelf (s : State) (n : Nat) : (clearKeySlot s n).shelf = s.shelf := rfl
@[simp] theorem clearKeySlot_num (s : State) (n : Nat) : (clearKeySlot s n).num = s.num := rfl
@[simp] theorem clearKeySlot_snd (s : State) (n : Nat) : (clearKeySlot s n).snd = s.snd := rfl
@[simp] theorem clearKeySlot_slv (s : State) (n : Nat) : (clearKeySlot s n).slv = s.slv := rfl
@[simp] theorem clearKeySlot_upd (s : State) (n : Nat) : (clearKeySlot s n).upd = s.upd := rfl
@[simp] theorem clearKeySlot_mem (s : State) (n : Nat) : (clearKeySlot s n).mem = s.mem := rfl
@[simp] theorem clearKeySlot_clf (s : State) (n : Nat) : (clearKeySlot s n).clf = s.clf := rfl
@[simp] theorem clearKeySlot_lsh (s : State) (n : Nat) : (clearKeySlot s n).lsh = s.lsh := rfl
@[simp] theorem clearKeySlot_shg (s : State) (n : Nat) : (clearKeySlot s n).shg = s.shg := rfl
@[simp] theorem clearKeySlot_ofs (s : State) (n : Nat) : (clearKeySlot s n).ofs = s.ofs := rfl
@[simp] theorem clearKeySlot_quay (s : State) (n : Nat) : (clearKeySlot s n).quay = s.quay := rfl
@[simp] theorem clearKeySlot_eth (s : State) (n : Nat) : (clearKeySlot s n).eth = s.eth := rfl
@[simp] theorem clearKeySlot_lh (s : State) (n : Nat) : (clearKeySlot s n).lh = s.lh := rfl
@[simp] theorem clearKeySlot_pwr (s : State) (n : Nat) : (clearKeySlot s n).pwr = s.pwr := rfl
@[simp] theorem clearKeySlot_rst (s : State) (n : Nat) : (clearKeySlot s n).rst = s.rst := rfl
@[simp] theorem clearKeySlot_sec (s : State) (n : Nat) : (clearKeySlot s n).sec = s.sec := rfl
@[simp] theorem clearKeySlot_edge (s : State) (n : Nat) : (clearKeySlot s n).edge = s.edge := rfl
@[simp] theorem clearKeySlot_rd (s : State) (n : Nat) (g : Fld) : rd (clearKeySlot s n) g = rd s g := rd_congr (by simp) (by simp) g
@[simp] theorem clearKeySlot_berthOf (s : State) (n : Nat) (i4 : Nat) : berthOf (clearKeySlot s n) i4 = berthOf s i4 := by simp [berthOf]
@[simp] theorem clearKeySlot_now (s : State) (n : Nat) : now (clearKeySlot s n) = now s := by simp [now]

/-! ### countFrame -/

@[simp] theorem countFrame_pending (s : State) (i : Nat) (sent : Bool) (ip : Nat) : (countFrame s i sent ip).pending = s.pending := (rel_countFrame Rel.refl fun _ h => h).pending
@[simp] theorem countFrame_variant (s : State) (i : Nat) (sent : Bool) (ip : Nat) : (countFrame s i sent ip).variant = s.variant := (rel_countFrame Rel.refl fun _ h => h).variant
@[simp] theorem countFrame_free (s : State) (i : Nat) (sent : Bool) (ip : Nat) : (countFrame s i sent ip).free = s.free := (rel_countFrame Rel.refl fun _ h => h).frame .free (by decide)
@[simp] theorem countFrame_tx (s : State) (i : Nat) (sent : Bool) (ip : Nat) : (countFrame s i sent ip).tx = s.tx := (rel_countFrame Rel.refl fun _ h => h).frame .tx (by decide)
@[simp] theorem countFrame_regs (s : State) (i : Nat) (sent : Bool) (ip : Nat) : (countFrame s i sent ip).regs = s.regs := (rel_countFrame Rel.refl fun _ h => h).frame .regs (by decide)
@[simp] theorem countFrame_banks (s : State) (i : Nat) (sent : Bool) (ip : Nat) : (countFrame s i sent ip).banks = s.banks := (rel_countFrame Rel.refl fun _ h => h).frame .banks (by decide)
@[simp] theorem countFrame_icu (s : State) (i : Nat) (sent : Bool) (ip : Nat) : (countFrame s i sent ip).icu = s.icu := (rel_countFrame Rel.refl fun _ h => h).frame .icu (by decide)
@[simp] theorem countFrame_shelf (s : State) (i : Nat) (sent : Bool) (ip : Nat) : (countFrame s i sent ip).shelf = s.shelf := (rel_countFrame Rel.refl fun _ h => h).frame .shelf (by decide)
@[simp] theorem countFrame_num (s : State) (i : Nat) (sent : Bool) (ip : Nat) : (countFrame s i sent ip).num = s.num := (rel_countFrame Rel.refl fun _ h => h).frame .num (by decide)
@[simp] theorem countFrame_snd (s : State) (i : Nat) (sent : Bool) (ip : Nat) : (countFrame s i sent ip).snd = s.snd := (rel_countFrame Rel.refl fun _ h => h).frame .snd (by decide)
@[simp] theorem countFrame_slv (s : State) (i : Nat) (sent : Bool) (ip : Nat) : (countFrame s i sent ip).slv = s.slv := (rel_countFrame Rel.refl fun _ h => h).frame .slv (by decide)
@[simp] theorem countFrame_upd (s : State) (i : Nat) (sent : Bool) (ip : Nat) : (countFrame s i sent ip).upd = s.upd := (rel_countFrame Rel.refl fun _ h => h).frame .upd (by decide)
@[simp] theorem countFrame_mem (s : State) (i : Nat) (sent : Bool) (ip : Nat) : (countFrame s i sent ip).mem = s.mem := (rel_countFrame Rel.refl fun _ h => h).same_mem (by decide) (by decide)
@[simp] theorem countFrame_clf (s : State) (i : Nat) (sent : Bool) (ip : Nat) : (countFrame s i sent ip).clf = s.clf := (rel_countFrame Rel.refl fun _ h => h).frame .clf (by decide)
@[simp] theorem countFrame_lsh (s : State) (i : Nat) (sent : Bool) (ip : Nat) : (countFrame s i sent ip).lsh = s.lsh := (rel_countFrame Rel.refl fun _ h => h).frame .lsh (by decide)
@[simp] theorem countFrame_shg (s : State) (i : Nat) (sent : Bool) (ip : Nat) : (countFrame s i sent ip).shg = s.shg := (rel_countFrame Rel.refl fun _ h => h).frame .shg (by decide)
@[simp] theorem countFrame_swl (s : State) (i : Nat) (sent : Bool) (ip : Nat) : (countFrame s i sent ip).swl = s.swl := (rel_countFrame Rel.refl fun _ h => h).frame .swl (by decide)
@[simp] theorem countFrame_ofs (s : State) (i : Nat) (sent : Bool) (ip : Nat) : (countFrame s i sent ip).ofs = s.ofs := (rel_countFrame Rel.refl fun _ h => h).frame .ofs (by decide)
@[simp] theorem countFrame_quay (s : State) (i : Nat) (sent : Bool) (ip : Nat) : (countFrame s i sent ip).quay = s.quay := (rel_countFrame Rel.refl fun _ h => h).frame .quay (by decide)
@[simp] theorem countFrame_eth (s : State) (i : Nat) (sent : Bool) (ip : Nat) : (countFrame s i sent ip).eth = s.eth := (rel_countFrame Rel.refl fun _ h => h).frame .eth (by decide)
@[simp] theorem countFrame_lh (s : State) (i : Nat) (sent : Bool) (ip : Nat) : (countFrame s i sent ip).lh = s.lh := (rel_countFrame Rel.refl fun _ h => h).frame .lh (by decide)
@[simp] theorem countFrame_pwr (s : State) (i : Nat) (sent : Bool) (ip : Nat) : (countFrame s i sent ip).pwr = s.pwr := (rel_countFrame Rel.refl fun _ h => h).frame .pwr (by decide)
@[simp] theorem countFrame_rst (s : State) (i : Nat) (sent : Bool) (ip : Nat) : (countFrame s i sent ip).rst = s.rst := (rel_countFrame Rel.refl fun _ h => h).frame .rst (by decide)
@[simp] theorem countFrame_sec (s : State) (i : Nat) (sent : Bool) (ip : Nat) : (countFrame s i sent ip).sec = s.sec := (rel_countFrame Rel.refl fun _ h => h).frame .sec (by decide)
@[simp] theorem countFrame_edge (s : State) (i : Nat) (sent : Bool) (ip : Nat) : (countFrame s i sent ip).edge = s.edge := (rel_countFrame Rel.refl fun _ h => h).frame .edge (by decide)
@[simp] theorem countFrame_rd (s : State) (i : Nat) (sent : Bool) (ip : Nat) (g : Fld) : rd (countFrame s i sent ip) g = rd s g := rd_congr (by simp) (by simp) g
@[simp] theorem countFrame_berthOf (s : State) (i : Nat) (sent : Bool) (ip : Nat) (i4 : Nat) : berthOf (countFrame s i sent ip) i4 = berthOf s i4 := by simp [berthOf]
@[simp] theorem countFrame_now (s : State) (i : Nat) (sent : Bool) (ip : Nat) : now (countFrame s i sent ip) = now s := by simp [now]

/-! ### emit -/

@[simp] theorem emit_pending (s : State) (t : Tx) : (emit s t).pending = s.pending := (rel_emit Rel.refl fun _ h => h).pending
@[simp] theorem emit_variant (s : State) (t : Tx) : (emit s t).variant = s.variant := (rel_emit Rel.refl fun _ h => h).variant
@[simp] theorem emit_free (s : State) (t : Tx) : (emit s t).free = s.free := (rel_emit Rel.refl fun _ h => h).frame .free (by decide)
@[simp] theorem emit_regs (s : State) (t : Tx) : (emit s t).regs = s.regs := (rel_emit Rel.refl fun _ h => h).frame .regs (by decide)
@[simp] theorem emit_banks (s : State) (t : Tx) : (emit s t).banks = s.banks := (rel_emit Rel.refl fun _ h => h).frame .banks (by decide)
@[simp] theorem emit_icu (s : State) (t : Tx) : (emit s t).icu = s.icu := (rel_emit Rel.refl fun _ h => h).frame .icu (by decide)
@[simp] theorem emit_shelf (s : State) (t : Tx) : (emit s t).shelf = s.shelf := (rel_emit Rel.refl fun _ h => h).frame .shelf (by decide)
@[simp] theorem emit_num (s : State) (t : Tx) : (emit s t).num = s.num := (rel_emit Rel.refl fun _ h => h).frame .num (by decide)
@[simp] theorem emit_snd (s : State) (t : Tx) : (emit s t).snd = s.snd := (rel_emit Rel.refl fun _ h => h).frame .snd (by decide)
@[simp] theorem emit_slv (s : State) (t : Tx) : (emit s t).slv = s.slv := (rel_emit Rel.refl fun _ h => h).frame .slv (by decide)
@[simp] theorem emit_upd (s : State) (t : Tx) : (emit s t).upd = s.upd := (rel_emit Rel.refl fun _ h => h).frame .upd (by decide)
@[simp] theorem emit_mem (s : State) (t : Tx) : (emit s t).mem = s.mem := (rel_emit Rel.refl fun _ h => h).same_mem (by decide) (by decide)
@[simp] theorem emit_clf (s : State) (t : Tx) : (emit s t).clf = s.clf := (rel_emit Rel.refl fun _ h => h).frame .clf (by decide)
@[simp] theorem emit_lsh (s : State) (t : Tx) : (emit s t).lsh = s.lsh := (rel_emit Rel.refl fun _ h => h).frame .lsh (by decide)
@[simp] theorem emit_shg (s : State) (t : Tx) : (emit s t).shg = s.shg := (rel_emit Rel.refl fun _ h => h).frame .shg (by decide)
@[simp] theorem emit_swl (s : State) (t : Tx) : (emit s t).swl = s.swl := (rel_emit Rel.refl fun _ h => h).frame .swl (by decide)
@[simp] theorem emit_ofs (s : State) (t : Tx) : (emit s t).ofs = s.ofs := (rel_emit Rel.refl fun _ h => h).frame .ofs (by decide)
@[simp] theorem emit_quay (s : State) (t : Tx) : (emit s t).quay = s.quay := (rel_emit Rel.refl fun _ h => h).frame .quay (by decide)
@[simp] theorem emit_eth (s : State) (t : Tx) : (emit s t).eth = s.eth := (rel_emit Rel.refl fun _ h => h).frame .eth (by decide)
@[simp] theorem emit_lh (s : State) (t : Tx) : (emit s t).lh = s.lh := (rel_emit Rel.refl fun _ h => h).frame .lh (by decide)
@[simp] theorem emit_pwr (s : State) (t : Tx) : (emit s t).pwr = s.pwr := (rel_emit Rel.refl fun _ h => h).frame .pwr (by decide)
@[simp] theorem emit_rst (s : State) (t : Tx) : (emit s t).rst = s.rst := (rel_emit Rel.refl fun _ h => h).frame .rst (by decide)
@[simp] theorem emit_sec (s : State) (t : Tx) : (emit s t).sec = s.sec := (rel_emit Rel.refl fun _ h => h).frame .sec (by decide)
@[simp] theorem emit_edge (s : State) (t : Tx) : (emit s t).edge = s.edge := (rel_emit Rel.refl fun _ h => h).frame .edge (by decide)
@[simp] theorem emit_rd (s : State) (t : Tx) (g : Fld) : rd (emit s t) g = rd s g := rd_congr (by simp) (by simp) g
@[simp] theorem emit_berthOf (s : State) (t : Tx) (i4 : Nat) : berthOf (emit s t) i4 = berthOf s i4 := by simp [berthOf]
@[simp] theorem emit_now (s : State) (t : Tx) : now (emit s t) = now s := by simp [now]

/-! ### wrs -/

@[simp] theorem wrs_pending (s : State) (y1 : List (Fld × Nat)) : (wrs s y1).pending = s.pending := (rel_wrs Rel.refl fun _ h => h).pending
@[simp] theorem wrs_variant (s : State) (y1 : List (Fld × Nat)) : (wrs s y1).variant = s.variant := (rel_wrs Rel.refl fun _ h => h).variant
@[simp] theorem wrs_free (s : State) (y1 : List (Fld × Nat)) : (wrs s y1).free = s.free := (rel_wrs Rel.refl fun _ h => h).frame .free (by decide)
@[simp] theorem wrs_tx (s : State) (y1 : List (Fld × Nat)) : (wrs s y1).tx = s.tx := (rel_wrs Rel.refl fun _ h => h).frame .tx (by decide)
@[simp] theorem wrs_counts (s : State) (y1 : List (Fld × Nat)) : (wrs s y1).counts = s.counts := (rel_wrs Rel.refl fun _ h => h).frame .counts (by decide)
@[simp] theorem wrs_banks (s : State) (y1 : List (Fld × Nat)) : (wrs s y1).banks = s.banks := (rel_wrs Rel.refl fun _ h => h).frame .banks (by decide)
@[simp] theorem wrs_icu (s : State) (y1 : List (Fld × Nat)) : (wrs s y1).icu = s.icu := (rel_wrs Rel.refl fun _ h => h).frame .icu (by decide)
@[simp] theorem wrs_shelf (s : State) (y1 : List (Fld × Nat)) : (wrs s y1).shelf = s.shelf := (rel_wrs Rel.refl fun _ h => h).frame .shelf (by decide)
@[simp] theorem wrs_num (s : State) (y1 : List (Fld × Nat)) : (wrs s y1).num = s.num := (rel_wrs Rel.refl fun _ h => h).frame .num (by decide)
@[simp] theorem wrs_snd (s : State) (y1 : List (Fld × Nat)) : (wrs s y1).snd = s.snd := (rel_wrs Rel.refl fun _ h => h).frame .snd (by decide)
@[simp] theorem wrs_slv (s : State) (y1 : List (Fld × Nat)) : (wrs s y1).slv = s.slv := (rel_wrs Rel.refl fun _ h => h).frame .slv (by decide)
@[simp] theorem wrs_upd (s : State) (y1 : List (Fld × Nat)) : (wrs s y1).upd = s.upd := (rel_wrs Rel.refl fun _ h => h).frame .upd (by decide)
@[simp] theorem wrs_mem (s : State) (y1 : List (Fld × Nat)) : (wrs s y1).mem = s.mem := (rel_wrs Rel.refl fun _ h => h).same_mem (by decide) (by decide)
@[simp] theorem wrs_clf (s : State) (y1 : List (Fld × Nat)) : (wrs s y1).clf = s.clf := (rel_wrs Rel.refl fun _ h => h).frame .clf (by decide)
@[simp] theorem wrs_lsh (s : State) (y1 : List (Fld × Nat)) : (wrs s y1).lsh = s.lsh := (rel_wrs Rel.refl fun _ h => h).frame .lsh (by decide)
@[simp] theorem wrs_shg (s : State) (y1 : List (Fld × Nat)) : (wrs s y1).shg = s.shg := (rel_wrs Rel.refl fun _ h => h).frame .shg (by decide)
@[simp] theorem wrs_swl (s : State) (y1 : List (Fld × Nat)) : (wrs s y1).swl = s.swl := (rel_wrs Rel.refl fun _ h => h).frame .swl (by decide)
@[simp] theorem wrs_ofs (s : State) (y1 : List (Fld × Nat)) : (wrs s y1).ofs = s.ofs := (rel_wrs Rel.refl fun _ h => h).frame .ofs (by decide)
@[simp] theorem wrs_quay (s : State) (y1 : List (Fld × Nat)) : (wrs s y1).quay = s.quay := (rel_wrs Rel.refl fun _ h => h).frame .quay (by decide)
@[simp] theorem wrs_eth (s : State) (y1 : List (Fld × Nat)) : (wrs s y1).eth = s.eth := (rel_wrs Rel.refl fun _ h => h).frame .eth (by decide)
@[simp] theorem wrs_lh (s : State) (y1 : List (Fld × Nat)) : (wrs s y1).lh = s.lh := (rel_wrs Rel.refl fun _ h => h).frame .lh (by decide)
@[simp] theorem wrs_pwr (s : State) (y1 : List (Fld × Nat)) : (wrs s y1).pwr = s.pwr := (rel_wrs Rel.refl fun _ h => h).frame .pwr (by decide)
@[simp] theorem wrs_rst (s : State) (y1 : List (Fld × Nat)) : (wrs s y1).rst = s.rst := (rel_wrs Rel.refl fun _ h => h).frame .rst (by decide)
@[simp] theorem wrs_sec (s : State) (y1 : List (Fld × Nat)) : (wrs s y1).sec = s.sec := (rel_wrs Rel.refl fun _ h => h).frame .sec (by decide)
@[simp] theorem wrs_edge (s : State) (y1 : List (Fld × Nat)) : (wrs s y1).edge = s.edge := (rel_wrs Rel.refl fun _ h => h).frame .edge (by decide)
@[simp] theorem wrs_berthOf (s : State) (y1 : List (Fld × Nat)) (i4 : Nat) : berthOf (wrs s y1) i4 = berthOf s i4 := by simp [berthOf]
@[simp] theorem wrs_now (s : State) (y1 : List (Fld × Nat)) : now (wrs s y1) = now s := by simp [now]

/-! ### storeWrite -/

@[simp] theorem storeWrite_pending (s : State) (off : Nat) (c : CrsWrite) : (storeWrite s off c).pending = s.pending := (rel_storeWrite Rel.refl fun _ h => h).pending
@[simp] theorem storeWrite_variant (s : State) (off : Nat) (c : CrsWrite) : (storeWrite s off c).variant = s.variant := (rel_storeWrite Rel.refl fun _ h => h).variant
@[simp] theorem storeWrite_free (s : State) (off : Nat) (c : CrsWrite) : (storeWrite s off c).free = s.free := (rel_storeWrite Rel.refl fun _ h => h).frame .free (by decide)
@[simp] theorem storeWrite_tx (s : State) (off : Nat) (c : CrsWrite) : (storeWrite s off c).tx = s.tx := (rel_storeWrite Rel.refl fun _ h => h).frame .tx (by decide)
@[simp] theorem storeWrite_counts (s : State) (off : Nat) (c : CrsWrite) : (storeWrite s off c).counts = s.counts := (rel_storeWrite Rel.refl fun _ h => h).frame .counts (by decide)
@[simp] theorem storeWrite_banks (s : State) (off : Nat) (c : CrsWrite) : (storeWrite s off c).banks = s.banks := (rel_storeWrite Rel.refl fun _ h => h).frame .banks (by decide)
@[simp] theorem storeWrite_icu (s : State) (off : Nat) (c : CrsWrite) : (storeWrite s off c).icu = s.icu := (rel_storeWrite Rel.refl fun _ h => h).frame .icu (by decide)
@[simp] theorem storeWrite_shelf (s : State) (off : Nat) (c : CrsWrite) : (storeWrite s off c).shelf = s.shelf := (rel_storeWrite Rel.refl fun _ h => h).frame .shelf (by decide)
@[simp] theorem storeWrite_num (s : State) (off : Nat) (c : CrsWrite) : (storeWrite s off c).num = s.num := (rel_storeWrite Rel.refl fun _ h => h).frame .num (by decide)
@[simp] theorem storeWrite_snd (s : State) (off : Nat) (c : CrsWrite) : (storeWrite s off c).snd = s.snd := (rel_storeWrite Rel.refl fun _ h => h).frame .snd (by decide)
@[simp] theorem storeWrite_slv (s : State) (off : Nat) (c : CrsWrite) : (storeWrite s off c).slv = s.slv := (rel_storeWrite Rel.refl fun _ h => h).frame .slv (by decide)
@[simp] theorem storeWrite_upd (s : State) (off : Nat) (c : CrsWrite) : (storeWrite s off c).upd = s.upd := (rel_storeWrite Rel.refl fun _ h => h).frame .upd (by decide)
@[simp] theorem storeWrite_mem (s : State) (off : Nat) (c : CrsWrite) : (storeWrite s off c).mem = s.mem := (rel_storeWrite Rel.refl fun _ h => h).same_mem (by decide) (by decide)
@[simp] theorem storeWrite_clf (s : State) (off : Nat) (c : CrsWrite) : (storeWrite s off c).clf = s.clf := (rel_storeWrite Rel.refl fun _ h => h).frame .clf (by decide)
@[simp] theorem storeWrite_lsh (s : State) (off : Nat) (c : CrsWrite) : (storeWrite s off c).lsh = s.lsh := (rel_storeWrite Rel.refl fun _ h => h).frame .lsh (by decide)
@[simp] theorem storeWrite_shg (s : State) (off : Nat) (c : CrsWrite) : (storeWrite s off c).shg = s.shg := (rel_storeWrite Rel.refl fun _ h => h).frame .shg (by decide)
@[simp] theorem storeWrite_swl (s : State) (off : Nat) (c : CrsWrite) : (storeWrite s off c).swl = s.swl := (rel_storeWrite Rel.refl fun _ h => h).frame .swl (by decide)
@[simp] theorem storeWrite_ofs (s : State) (off : Nat) (c : CrsWrite) : (storeWrite s off c).ofs = s.ofs := (rel_storeWrite Rel.refl fun _ h => h).frame .ofs (by decide)
@[simp] theorem storeWrite_quay (s : State) (off : Nat) (c : CrsWrite) : (storeWrite s off c).quay = s.quay := (rel_storeWrite Rel.refl fun _ h => h).frame .quay (by decide)
@[simp] theorem storeWrite_eth (s : State) (off : Nat) (c : CrsWrite) : (storeWrite s off c).eth = s.eth := (rel_storeWrite Rel.refl fun _ h => h).frame .eth (by decide)
@[simp] theorem storeWrite_lh (s : State) (off : Nat) (c : CrsWrite) : (storeWrite s off c).lh = s.lh := (rel_storeWrite Rel.refl fun _ h => h).frame .lh (by decide)
@[simp] theorem storeWrite_pwr (s : State) (off : Nat) (c : CrsWrite) : (storeWrite s off c).pwr = s.pwr := (rel_storeWrite Rel.refl fun _ h => h).frame .pwr (by decide)
@[simp] theorem storeWrite_rst (s : State) (off : Nat) (c : CrsWrite) : (storeWrite s off c).rst = s.rst := (rel_storeWrite Rel.refl fun _ h => h).frame .rst (by decide)
@[simp] theorem storeWrite_sec (s : State) (off : Nat) (c : CrsWrite) : (storeWrite s off c).sec = s.sec := (rel_storeWrite Rel.refl fun _ h => h).frame .sec (by decide)
@[simp] theorem storeWrite_edge (s : State) (off : Nat) (c : CrsWrite) : (storeWrite s off c).edge = s.edge := (rel_storeWrite Rel.refl fun _ h => h).frame .edge (by decide)
@[simp] theorem storeWrite_berthOf (s : State) (off : Nat) (c : CrsWrite) (i4 : Nat) : berthOf (storeWrite s off c) i4 = berthOf s i4 := by simp [berthOf]
@[simp] theorem storeWrite_now (s : State) (off : Nat) (c : CrsWrite) : now (storeWrite s off c) = now s := by simp [now]

/-! ### logRaw -/

@[simp] theorem logRaw_pending (s : State) (domain : Nat) (cls : Nat) (source : Nat) (detail : W64) (berth : Nat) : (logRaw s domain cls source detail berth).pending = s.pending := (rel_logRaw Rel.refl fun _ h => h).pending
@[simp] theorem logRaw_variant (s : State) (domain : Nat) (cls : Nat) (source : Nat) (detail : W64) (berth : Nat) : (logRaw s domain cls source detail berth).variant = s.variant := (rel_logRaw Rel.refl fun _ h => h).variant
@[simp] theorem logRaw_free (s : State) (domain : Nat) (cls : Nat) (source : Nat) (detail : W64) (berth : Nat) : (logRaw s domain cls source detail berth).free = s.free := (rel_logRaw Rel.refl fun _ h => h).frame .free (by decide)
@[simp] theorem logRaw_tx (s : State) (domain : Nat) (cls : Nat) (source : Nat) (detail : W64) (berth : Nat) : (logRaw s domain cls source detail berth).tx = s.tx := (rel_logRaw Rel.refl fun _ h => h).frame .tx (by decide)
@[simp] theorem logRaw_counts (s : State) (domain : Nat) (cls : Nat) (source : Nat) (detail : W64) (berth : Nat) : (logRaw s domain cls source detail berth).counts = s.counts := (rel_logRaw Rel.refl fun _ h => h).frame .counts (by decide)
@[simp] theorem logRaw_banks (s : State) (domain : Nat) (cls : Nat) (source : Nat) (detail : W64) (berth : Nat) : (logRaw s domain cls source detail berth).banks = s.banks := (rel_logRaw Rel.refl fun _ h => h).frame .banks (by decide)
@[simp] theorem logRaw_icu (s : State) (domain : Nat) (cls : Nat) (source : Nat) (detail : W64) (berth : Nat) : (logRaw s domain cls source detail berth).icu = s.icu := (rel_logRaw Rel.refl fun _ h => h).frame .icu (by decide)
@[simp] theorem logRaw_shelf (s : State) (domain : Nat) (cls : Nat) (source : Nat) (detail : W64) (berth : Nat) : (logRaw s domain cls source detail berth).shelf = s.shelf := (rel_logRaw Rel.refl fun _ h => h).frame .shelf (by decide)
@[simp] theorem logRaw_num (s : State) (domain : Nat) (cls : Nat) (source : Nat) (detail : W64) (berth : Nat) : (logRaw s domain cls source detail berth).num = s.num := (rel_logRaw Rel.refl fun _ h => h).frame .num (by decide)
@[simp] theorem logRaw_snd (s : State) (domain : Nat) (cls : Nat) (source : Nat) (detail : W64) (berth : Nat) : (logRaw s domain cls source detail berth).snd = s.snd := (rel_logRaw Rel.refl fun _ h => h).frame .snd (by decide)
@[simp] theorem logRaw_slv (s : State) (domain : Nat) (cls : Nat) (source : Nat) (detail : W64) (berth : Nat) : (logRaw s domain cls source detail berth).slv = s.slv := (rel_logRaw Rel.refl fun _ h => h).frame .slv (by decide)
@[simp] theorem logRaw_upd (s : State) (domain : Nat) (cls : Nat) (source : Nat) (detail : W64) (berth : Nat) : (logRaw s domain cls source detail berth).upd = s.upd := (rel_logRaw Rel.refl fun _ h => h).frame .upd (by decide)
@[simp] theorem logRaw_mem (s : State) (domain : Nat) (cls : Nat) (source : Nat) (detail : W64) (berth : Nat) : (logRaw s domain cls source detail berth).mem = s.mem := (rel_logRaw Rel.refl fun _ h => h).same_mem (by decide) (by decide)
@[simp] theorem logRaw_clf (s : State) (domain : Nat) (cls : Nat) (source : Nat) (detail : W64) (berth : Nat) : (logRaw s domain cls source detail berth).clf = s.clf := (rel_logRaw Rel.refl fun _ h => h).frame .clf (by decide)
@[simp] theorem logRaw_lsh (s : State) (domain : Nat) (cls : Nat) (source : Nat) (detail : W64) (berth : Nat) : (logRaw s domain cls source detail berth).lsh = s.lsh := (rel_logRaw Rel.refl fun _ h => h).frame .lsh (by decide)
@[simp] theorem logRaw_shg (s : State) (domain : Nat) (cls : Nat) (source : Nat) (detail : W64) (berth : Nat) : (logRaw s domain cls source detail berth).shg = s.shg := (rel_logRaw Rel.refl fun _ h => h).frame .shg (by decide)
@[simp] theorem logRaw_swl (s : State) (domain : Nat) (cls : Nat) (source : Nat) (detail : W64) (berth : Nat) : (logRaw s domain cls source detail berth).swl = s.swl := (rel_logRaw Rel.refl fun _ h => h).frame .swl (by decide)
@[simp] theorem logRaw_ofs (s : State) (domain : Nat) (cls : Nat) (source : Nat) (detail : W64) (berth : Nat) : (logRaw s domain cls source detail berth).ofs = s.ofs := (rel_logRaw Rel.refl fun _ h => h).frame .ofs (by decide)
@[simp] theorem logRaw_quay (s : State) (domain : Nat) (cls : Nat) (source : Nat) (detail : W64) (berth : Nat) : (logRaw s domain cls source detail berth).quay = s.quay := (rel_logRaw Rel.refl fun _ h => h).frame .quay (by decide)
@[simp] theorem logRaw_eth (s : State) (domain : Nat) (cls : Nat) (source : Nat) (detail : W64) (berth : Nat) : (logRaw s domain cls source detail berth).eth = s.eth := (rel_logRaw Rel.refl fun _ h => h).frame .eth (by decide)
@[simp] theorem logRaw_lh (s : State) (domain : Nat) (cls : Nat) (source : Nat) (detail : W64) (berth : Nat) : (logRaw s domain cls source detail berth).lh = s.lh := (rel_logRaw Rel.refl fun _ h => h).frame .lh (by decide)
@[simp] theorem logRaw_pwr (s : State) (domain : Nat) (cls : Nat) (source : Nat) (detail : W64) (berth : Nat) : (logRaw s domain cls source detail berth).pwr = s.pwr := (rel_logRaw Rel.refl fun _ h => h).frame .pwr (by decide)
@[simp] theorem logRaw_sec (s : State) (domain : Nat) (cls : Nat) (source : Nat) (detail : W64) (berth : Nat) : (logRaw s domain cls source detail berth).sec = s.sec := (rel_logRaw Rel.refl fun _ h => h).frame .sec (by decide)
@[simp] theorem logRaw_edge (s : State) (domain : Nat) (cls : Nat) (source : Nat) (detail : W64) (berth : Nat) : (logRaw s domain cls source detail berth).edge = s.edge := (rel_logRaw Rel.refl fun _ h => h).frame .edge (by decide)
@[simp] theorem logRaw_berthOf (s : State) (domain : Nat) (cls : Nat) (source : Nat) (detail : W64) (berth : Nat) (i4 : Nat) : berthOf (logRaw s domain cls source detail berth) i4 = berthOf s i4 := by simp [berthOf]
@[simp] theorem logRaw_now (s : State) (domain : Nat) (cls : Nat) (source : Nat) (detail : W64) (berth : Nat) : now (logRaw s domain cls source detail berth) = now s := by simp [now]

/-! ### setAlert -/

@[simp] theorem setAlert_pending (s : State) (i : Nat) : (setAlert s i).pending = s.pending := (rel_setAlert Rel.refl fun _ h => h).pending
@[simp] theorem setAlert_variant (s : State) (i : Nat) : (setAlert s i).variant = s.variant := (rel_setAlert Rel.refl fun _ h => h).variant
@[simp] theorem setAlert_free (s : State) (i : Nat) : (setAlert s i).free = s.free := (rel_setAlert Rel.refl fun _ h => h).frame .free (by decide)
@[simp] theorem setAlert_banks (s : State) (i : Nat) : (setAlert s i).banks = s.banks := (rel_setAlert Rel.refl fun _ h => h).frame .banks (by decide)
@[simp] theorem setAlert_icu (s : State) (i : Nat) : (setAlert s i).icu = s.icu := (rel_setAlert Rel.refl fun _ h => h).frame .icu (by decide)
@[simp] theorem setAlert_shelf (s : State) (i : Nat) : (setAlert s i).shelf = s.shelf := (rel_setAlert Rel.refl fun _ h => h).frame .shelf (by decide)
@[simp] theorem setAlert_num (s : State) (i : Nat) : (setAlert s i).num = s.num := (rel_setAlert Rel.refl fun _ h => h).frame .num (by decide)
@[simp] theorem setAlert_snd (s : State) (i : Nat) : (setAlert s i).snd = s.snd := (rel_setAlert Rel.refl fun _ h => h).frame .snd (by decide)
@[simp] theorem setAlert_slv (s : State) (i : Nat) : (setAlert s i).slv = s.slv := (rel_setAlert Rel.refl fun _ h => h).frame .slv (by decide)
@[simp] theorem setAlert_upd (s : State) (i : Nat) : (setAlert s i).upd = s.upd := (rel_setAlert Rel.refl fun _ h => h).frame .upd (by decide)
@[simp] theorem setAlert_mem (s : State) (i : Nat) : (setAlert s i).mem = s.mem := (rel_setAlert Rel.refl fun _ h => h).same_mem (by decide) (by decide)
@[simp] theorem setAlert_clf (s : State) (i : Nat) : (setAlert s i).clf = s.clf := (rel_setAlert Rel.refl fun _ h => h).frame .clf (by decide)
@[simp] theorem setAlert_lsh (s : State) (i : Nat) : (setAlert s i).lsh = s.lsh := (rel_setAlert Rel.refl fun _ h => h).frame .lsh (by decide)
@[simp] theorem setAlert_shg (s : State) (i : Nat) : (setAlert s i).shg = s.shg := (rel_setAlert Rel.refl fun _ h => h).frame .shg (by decide)
@[simp] theorem setAlert_swl (s : State) (i : Nat) : (setAlert s i).swl = s.swl := (rel_setAlert Rel.refl fun _ h => h).frame .swl (by decide)
@[simp] theorem setAlert_ofs (s : State) (i : Nat) : (setAlert s i).ofs = s.ofs := (rel_setAlert Rel.refl fun _ h => h).frame .ofs (by decide)
@[simp] theorem setAlert_quay (s : State) (i : Nat) : (setAlert s i).quay = s.quay := (rel_setAlert Rel.refl fun _ h => h).frame .quay (by decide)
@[simp] theorem setAlert_eth (s : State) (i : Nat) : (setAlert s i).eth = s.eth := (rel_setAlert Rel.refl fun _ h => h).frame .eth (by decide)
@[simp] theorem setAlert_lh (s : State) (i : Nat) : (setAlert s i).lh = s.lh := (rel_setAlert Rel.refl fun _ h => h).frame .lh (by decide)
@[simp] theorem setAlert_pwr (s : State) (i : Nat) : (setAlert s i).pwr = s.pwr := (rel_setAlert Rel.refl fun _ h => h).frame .pwr (by decide)
@[simp] theorem setAlert_rst (s : State) (i : Nat) : (setAlert s i).rst = s.rst := (rel_setAlert Rel.refl fun _ h => h).frame .rst (by decide)
@[simp] theorem setAlert_sec (s : State) (i : Nat) : (setAlert s i).sec = s.sec := (rel_setAlert Rel.refl fun _ h => h).frame .sec (by decide)
@[simp] theorem setAlert_edge (s : State) (i : Nat) : (setAlert s i).edge = s.edge := (rel_setAlert Rel.refl fun _ h => h).frame .edge (by decide)
@[simp] theorem setAlert_berthOf (s : State) (i : Nat) (i4 : Nat) : berthOf (setAlert s i) i4 = berthOf s i4 := by simp [berthOf]
@[simp] theorem setAlert_now (s : State) (i : Nat) : now (setAlert s i) = now s := by simp [now]

/-! ### sendEvent -/

@[simp] theorem sendEvent_pending (s : State) (b : Nat) (e : Ev) : (sendEvent s b e).pending = s.pending := (rel_sendEvent Rel.refl fun _ h => h).pending
@[simp] theorem sendEvent_variant (s : State) (b : Nat) (e : Ev) : (sendEvent s b e).variant = s.variant := (rel_sendEvent Rel.refl fun _ h => h).variant
@[simp] theorem sendEvent_free (s : State) (b : Nat) (e : Ev) : (sendEvent s b e).free = s.free := (rel_sendEvent Rel.refl fun _ h => h).frame .free (by decide)
@[simp] theorem sendEvent_regs (s : State) (b : Nat) (e : Ev) : (sendEvent s b e).regs = s.regs := (rel_sendEvent Rel.refl fun _ h => h).frame .regs (by decide)
@[simp] theorem sendEvent_banks (s : State) (b : Nat) (e : Ev) : (sendEvent s b e).banks = s.banks := (rel_sendEvent Rel.refl fun _ h => h).frame .banks (by decide)
@[simp] theorem sendEvent_icu (s : State) (b : Nat) (e : Ev) : (sendEvent s b e).icu = s.icu := (rel_sendEvent Rel.refl fun _ h => h).frame .icu (by decide)
@[simp] theorem sendEvent_shelf (s : State) (b : Nat) (e : Ev) : (sendEvent s b e).shelf = s.shelf := (rel_sendEvent Rel.refl fun _ h => h).frame .shelf (by decide)
@[simp] theorem sendEvent_num (s : State) (b : Nat) (e : Ev) : (sendEvent s b e).num = s.num := (rel_sendEvent Rel.refl fun _ h => h).frame .num (by decide)
@[simp] theorem sendEvent_snd (s : State) (b : Nat) (e : Ev) : (sendEvent s b e).snd = s.snd := (rel_sendEvent Rel.refl fun _ h => h).frame .snd (by decide)
@[simp] theorem sendEvent_slv (s : State) (b : Nat) (e : Ev) : (sendEvent s b e).slv = s.slv := (rel_sendEvent Rel.refl fun _ h => h).frame .slv (by decide)
@[simp] theorem sendEvent_upd (s : State) (b : Nat) (e : Ev) : (sendEvent s b e).upd = s.upd := (rel_sendEvent Rel.refl fun _ h => h).frame .upd (by decide)
@[simp] theorem sendEvent_mem (s : State) (b : Nat) (e : Ev) : (sendEvent s b e).mem = s.mem := (rel_sendEvent Rel.refl fun _ h => h).same_mem (by decide) (by decide)
@[simp] theorem sendEvent_clf (s : State) (b : Nat) (e : Ev) : (sendEvent s b e).clf = s.clf := (rel_sendEvent Rel.refl fun _ h => h).frame .clf (by decide)
@[simp] theorem sendEvent_lsh (s : State) (b : Nat) (e : Ev) : (sendEvent s b e).lsh = s.lsh := (rel_sendEvent Rel.refl fun _ h => h).frame .lsh (by decide)
@[simp] theorem sendEvent_shg (s : State) (b : Nat) (e : Ev) : (sendEvent s b e).shg = s.shg := (rel_sendEvent Rel.refl fun _ h => h).frame .shg (by decide)
@[simp] theorem sendEvent_swl (s : State) (b : Nat) (e : Ev) : (sendEvent s b e).swl = s.swl := (rel_sendEvent Rel.refl fun _ h => h).frame .swl (by decide)
@[simp] theorem sendEvent_ofs (s : State) (b : Nat) (e : Ev) : (sendEvent s b e).ofs = s.ofs := (rel_sendEvent Rel.refl fun _ h => h).frame .ofs (by decide)
@[simp] theorem sendEvent_quay (s : State) (b : Nat) (e : Ev) : (sendEvent s b e).quay = s.quay := (rel_sendEvent Rel.refl fun _ h => h).frame .quay (by decide)
@[simp] theorem sendEvent_eth (s : State) (b : Nat) (e : Ev) : (sendEvent s b e).eth = s.eth := (rel_sendEvent Rel.refl fun _ h => h).frame .eth (by decide)
@[simp] theorem sendEvent_lh (s : State) (b : Nat) (e : Ev) : (sendEvent s b e).lh = s.lh := (rel_sendEvent Rel.refl fun _ h => h).frame .lh (by decide)
@[simp] theorem sendEvent_pwr (s : State) (b : Nat) (e : Ev) : (sendEvent s b e).pwr = s.pwr := (rel_sendEvent Rel.refl fun _ h => h).frame .pwr (by decide)
@[simp] theorem sendEvent_rst (s : State) (b : Nat) (e : Ev) : (sendEvent s b e).rst = s.rst := (rel_sendEvent Rel.refl fun _ h => h).frame .rst (by decide)
@[simp] theorem sendEvent_sec (s : State) (b : Nat) (e : Ev) : (sendEvent s b e).sec = s.sec := (rel_sendEvent Rel.refl fun _ h => h).frame .sec (by decide)
@[simp] theorem sendEvent_edge (s : State) (b : Nat) (e : Ev) : (sendEvent s b e).edge = s.edge := (rel_sendEvent Rel.refl fun _ h => h).frame .edge (by decide)
@[simp] theorem sendEvent_rd (s : State) (b : Nat) (e : Ev) (g : Fld) : rd (sendEvent s b e) g = rd s g := rd_congr (by simp) (by simp) g
@[simp] theorem sendEvent_berthOf (s : State) (b : Nat) (e : Ev) (i4 : Nat) : berthOf (sendEvent s b e) i4 = berthOf s i4 := by simp [berthOf]
@[simp] theorem sendEvent_now (s : State) (b : Nat) (e : Ev) : now (sendEvent s b e) = now s := by simp [now]

/-! ### event -/

@[simp] theorem event_pending (s : State) (b : Nat) (code : Nat) (status : Nat) (opSeq : W32) (data : List Byte) : (event s b code status opSeq data).pending = s.pending := (rel_event Rel.refl fun _ h => h).pending
@[simp] theorem event_variant (s : State) (b : Nat) (code : Nat) (status : Nat) (opSeq : W32) (data : List Byte) : (event s b code status opSeq data).variant = s.variant := (rel_event Rel.refl fun _ h => h).variant
@[simp] theorem event_free (s : State) (b : Nat) (code : Nat) (status : Nat) (opSeq : W32) (data : List Byte) : (event s b code status opSeq data).free = s.free := (rel_event Rel.refl fun _ h => h).frame .free (by decide)
@[simp] theorem event_banks (s : State) (b : Nat) (code : Nat) (status : Nat) (opSeq : W32) (data : List Byte) : (event s b code status opSeq data).banks = s.banks := (rel_event Rel.refl fun _ h => h).frame .banks (by decide)
@[simp] theorem event_icu (s : State) (b : Nat) (code : Nat) (status : Nat) (opSeq : W32) (data : List Byte) : (event s b code status opSeq data).icu = s.icu := (rel_event Rel.refl fun _ h => h).frame .icu (by decide)
@[simp] theorem event_shelf (s : State) (b : Nat) (code : Nat) (status : Nat) (opSeq : W32) (data : List Byte) : (event s b code status opSeq data).shelf = s.shelf := (rel_event Rel.refl fun _ h => h).frame .shelf (by decide)
@[simp] theorem event_num (s : State) (b : Nat) (code : Nat) (status : Nat) (opSeq : W32) (data : List Byte) : (event s b code status opSeq data).num = s.num := (rel_event Rel.refl fun _ h => h).frame .num (by decide)
@[simp] theorem event_snd (s : State) (b : Nat) (code : Nat) (status : Nat) (opSeq : W32) (data : List Byte) : (event s b code status opSeq data).snd = s.snd := (rel_event Rel.refl fun _ h => h).frame .snd (by decide)
@[simp] theorem event_slv (s : State) (b : Nat) (code : Nat) (status : Nat) (opSeq : W32) (data : List Byte) : (event s b code status opSeq data).slv = s.slv := (rel_event Rel.refl fun _ h => h).frame .slv (by decide)
@[simp] theorem event_upd (s : State) (b : Nat) (code : Nat) (status : Nat) (opSeq : W32) (data : List Byte) : (event s b code status opSeq data).upd = s.upd := (rel_event Rel.refl fun _ h => h).frame .upd (by decide)
@[simp] theorem event_mem (s : State) (b : Nat) (code : Nat) (status : Nat) (opSeq : W32) (data : List Byte) : (event s b code status opSeq data).mem = s.mem := (rel_event Rel.refl fun _ h => h).same_mem (by decide) (by decide)
@[simp] theorem event_clf (s : State) (b : Nat) (code : Nat) (status : Nat) (opSeq : W32) (data : List Byte) : (event s b code status opSeq data).clf = s.clf := (rel_event Rel.refl fun _ h => h).frame .clf (by decide)
@[simp] theorem event_lsh (s : State) (b : Nat) (code : Nat) (status : Nat) (opSeq : W32) (data : List Byte) : (event s b code status opSeq data).lsh = s.lsh := (rel_event Rel.refl fun _ h => h).frame .lsh (by decide)
@[simp] theorem event_shg (s : State) (b : Nat) (code : Nat) (status : Nat) (opSeq : W32) (data : List Byte) : (event s b code status opSeq data).shg = s.shg := (rel_event Rel.refl fun _ h => h).frame .shg (by decide)
@[simp] theorem event_swl (s : State) (b : Nat) (code : Nat) (status : Nat) (opSeq : W32) (data : List Byte) : (event s b code status opSeq data).swl = s.swl := (rel_event Rel.refl fun _ h => h).frame .swl (by decide)
@[simp] theorem event_ofs (s : State) (b : Nat) (code : Nat) (status : Nat) (opSeq : W32) (data : List Byte) : (event s b code status opSeq data).ofs = s.ofs := (rel_event Rel.refl fun _ h => h).frame .ofs (by decide)
@[simp] theorem event_eth (s : State) (b : Nat) (code : Nat) (status : Nat) (opSeq : W32) (data : List Byte) : (event s b code status opSeq data).eth = s.eth := (rel_event Rel.refl fun _ h => h).frame .eth (by decide)
@[simp] theorem event_lh (s : State) (b : Nat) (code : Nat) (status : Nat) (opSeq : W32) (data : List Byte) : (event s b code status opSeq data).lh = s.lh := (rel_event Rel.refl fun _ h => h).frame .lh (by decide)
@[simp] theorem event_pwr (s : State) (b : Nat) (code : Nat) (status : Nat) (opSeq : W32) (data : List Byte) : (event s b code status opSeq data).pwr = s.pwr := (rel_event Rel.refl fun _ h => h).frame .pwr (by decide)
@[simp] theorem event_rst (s : State) (b : Nat) (code : Nat) (status : Nat) (opSeq : W32) (data : List Byte) : (event s b code status opSeq data).rst = s.rst := (rel_event Rel.refl fun _ h => h).frame .rst (by decide)
@[simp] theorem event_sec (s : State) (b : Nat) (code : Nat) (status : Nat) (opSeq : W32) (data : List Byte) : (event s b code status opSeq data).sec = s.sec := (rel_event Rel.refl fun _ h => h).frame .sec (by decide)
@[simp] theorem event_edge (s : State) (b : Nat) (code : Nat) (status : Nat) (opSeq : W32) (data : List Byte) : (event s b code status opSeq data).edge = s.edge := (rel_event Rel.refl fun _ h => h).frame .edge (by decide)
@[simp] theorem event_now (s : State) (b : Nat) (code : Nat) (status : Nat) (opSeq : W32) (data : List Byte) : now (event s b code status opSeq data) = now s := by simp [now]

/-! ### eventAll -/

@[simp] theorem eventAll_pending (s : State) (code : Nat) (status : Nat) (data : List Byte) : (eventAll s code status data).pending = s.pending := (rel_eventAll Rel.refl fun _ h => h).pending
@[simp] theorem eventAll_variant (s : State) (code : Nat) (status : Nat) (data : List Byte) : (eventAll s code status data).variant = s.variant := (rel_eventAll Rel.refl fun _ h => h).variant
@[simp] theorem eventAll_free (s : State) (code : Nat) (status : Nat) (data : List Byte) : (eventAll s code status data).free = s.free := (rel_eventAll Rel.refl fun _ h => h).frame .free (by decide)
@[simp] theorem eventAll_banks (s : State) (code : Nat) (status : Nat) (data : List Byte) : (eventAll s code status data).banks = s.banks := (rel_eventAll Rel.refl fun _ h => h).frame .banks (by decide)
@[simp] theorem eventAll_icu (s : State) (code : Nat) (status : Nat) (data : List Byte) : (eventAll s code status data).icu = s.icu := (rel_eventAll Rel.refl fun _ h => h).frame .icu (by decide)
@[simp] theorem eventAll_shelf (s : State) (code : Nat) (status : Nat) (data : List Byte) : (eventAll s code status data).shelf = s.shelf := (rel_eventAll Rel.refl fun _ h => h).frame .shelf (by decide)
@[simp] theorem eventAll_num (s : State) (code : Nat) (status : Nat) (data : List Byte) : (eventAll s code status data).num = s.num := (rel_eventAll Rel.refl fun _ h => h).frame .num (by decide)
@[simp] theorem eventAll_snd (s : State) (code : Nat) (status : Nat) (data : List Byte) : (eventAll s code status data).snd = s.snd := (rel_eventAll Rel.refl fun _ h => h).frame .snd (by decide)
@[simp] theorem eventAll_slv (s : State) (code : Nat) (status : Nat) (data : List Byte) : (eventAll s code status data).slv = s.slv := (rel_eventAll Rel.refl fun _ h => h).frame .slv (by decide)
@[simp] theorem eventAll_upd (s : State) (code : Nat) (status : Nat) (data : List Byte) : (eventAll s code status data).upd = s.upd := (rel_eventAll Rel.refl fun _ h => h).frame .upd (by decide)
@[simp] theorem eventAll_mem (s : State) (code : Nat) (status : Nat) (data : List Byte) : (eventAll s code status data).mem = s.mem := (rel_eventAll Rel.refl fun _ h => h).same_mem (by decide) (by decide)
@[simp] theorem eventAll_clf (s : State) (code : Nat) (status : Nat) (data : List Byte) : (eventAll s code status data).clf = s.clf := (rel_eventAll Rel.refl fun _ h => h).frame .clf (by decide)
@[simp] theorem eventAll_lsh (s : State) (code : Nat) (status : Nat) (data : List Byte) : (eventAll s code status data).lsh = s.lsh := (rel_eventAll Rel.refl fun _ h => h).frame .lsh (by decide)
@[simp] theorem eventAll_shg (s : State) (code : Nat) (status : Nat) (data : List Byte) : (eventAll s code status data).shg = s.shg := (rel_eventAll Rel.refl fun _ h => h).frame .shg (by decide)
@[simp] theorem eventAll_swl (s : State) (code : Nat) (status : Nat) (data : List Byte) : (eventAll s code status data).swl = s.swl := (rel_eventAll Rel.refl fun _ h => h).frame .swl (by decide)
@[simp] theorem eventAll_ofs (s : State) (code : Nat) (status : Nat) (data : List Byte) : (eventAll s code status data).ofs = s.ofs := (rel_eventAll Rel.refl fun _ h => h).frame .ofs (by decide)
@[simp] theorem eventAll_eth (s : State) (code : Nat) (status : Nat) (data : List Byte) : (eventAll s code status data).eth = s.eth := (rel_eventAll Rel.refl fun _ h => h).frame .eth (by decide)
@[simp] theorem eventAll_lh (s : State) (code : Nat) (status : Nat) (data : List Byte) : (eventAll s code status data).lh = s.lh := (rel_eventAll Rel.refl fun _ h => h).frame .lh (by decide)
@[simp] theorem eventAll_pwr (s : State) (code : Nat) (status : Nat) (data : List Byte) : (eventAll s code status data).pwr = s.pwr := (rel_eventAll Rel.refl fun _ h => h).frame .pwr (by decide)
@[simp] theorem eventAll_rst (s : State) (code : Nat) (status : Nat) (data : List Byte) : (eventAll s code status data).rst = s.rst := (rel_eventAll Rel.refl fun _ h => h).frame .rst (by decide)
@[simp] theorem eventAll_sec (s : State) (code : Nat) (status : Nat) (data : List Byte) : (eventAll s code status data).sec = s.sec := (rel_eventAll Rel.refl fun _ h => h).frame .sec (by decide)
@[simp] theorem eventAll_edge (s : State) (code : Nat) (status : Nat) (data : List Byte) : (eventAll s code status data).edge = s.edge := (rel_eventAll Rel.refl fun _ h => h).frame .edge (by decide)
@[simp] theorem eventAll_now (s : State) (code : Nat) (status : Nat) (data : List Byte) : now (eventAll s code status data) = now s := by simp [now]

/-! ### powerEvent -/

@[simp] theorem powerEvent_pending (s : State) (cause : Nat) : (powerEvent s cause).pending = s.pending := (rel_powerEvent Rel.refl fun _ h => h).pending
@[simp] theorem powerEvent_variant (s : State) (cause : Nat) : (powerEvent s cause).variant = s.variant := (rel_powerEvent Rel.refl fun _ h => h).variant
@[simp] theorem powerEvent_free (s : State) (cause : Nat) : (powerEvent s cause).free = s.free := (rel_powerEvent Rel.refl fun _ h => h).frame .free (by decide)
@[simp] theorem powerEvent_banks (s : State) (cause : Nat) : (powerEvent s cause).banks = s.banks := (rel_powerEvent Rel.refl fun _ h => h).frame .banks (by decide)
@[simp] theorem powerEvent_icu (s : State) (cause : Nat) : (powerEvent s cause).icu = s.icu := (rel_powerEvent Rel.refl fun _ h => h).frame .icu (by decide)
@[simp] theorem powerEvent_shelf (s : State) (cause : Nat) : (powerEvent s cause).shelf = s.shelf := (rel_powerEvent Rel.refl fun _ h => h).frame .shelf (by decide)
@[simp] theorem powerEvent_num (s : State) (cause : Nat) : (powerEvent s cause).num = s.num := (rel_powerEvent Rel.refl fun _ h => h).frame .num (by decide)
@[simp] theorem powerEvent_snd (s : State) (cause : Nat) : (powerEvent s cause).snd = s.snd := (rel_powerEvent Rel.refl fun _ h => h).frame .snd (by decide)
@[simp] theorem powerEvent_slv (s : State) (cause : Nat) : (powerEvent s cause).slv = s.slv := (rel_powerEvent Rel.refl fun _ h => h).frame .slv (by decide)
@[simp] theorem powerEvent_upd (s : State) (cause : Nat) : (powerEvent s cause).upd = s.upd := (rel_powerEvent Rel.refl fun _ h => h).frame .upd (by decide)
@[simp] theorem powerEvent_mem (s : State) (cause : Nat) : (powerEvent s cause).mem = s.mem := (rel_powerEvent Rel.refl fun _ h => h).same_mem (by decide) (by decide)
@[simp] theorem powerEvent_clf (s : State) (cause : Nat) : (powerEvent s cause).clf = s.clf := (rel_powerEvent Rel.refl fun _ h => h).frame .clf (by decide)
@[simp] theorem powerEvent_lsh (s : State) (cause : Nat) : (powerEvent s cause).lsh = s.lsh := (rel_powerEvent Rel.refl fun _ h => h).frame .lsh (by decide)
@[simp] theorem powerEvent_shg (s : State) (cause : Nat) : (powerEvent s cause).shg = s.shg := (rel_powerEvent Rel.refl fun _ h => h).frame .shg (by decide)
@[simp] theorem powerEvent_swl (s : State) (cause : Nat) : (powerEvent s cause).swl = s.swl := (rel_powerEvent Rel.refl fun _ h => h).frame .swl (by decide)
@[simp] theorem powerEvent_ofs (s : State) (cause : Nat) : (powerEvent s cause).ofs = s.ofs := (rel_powerEvent Rel.refl fun _ h => h).frame .ofs (by decide)
@[simp] theorem powerEvent_eth (s : State) (cause : Nat) : (powerEvent s cause).eth = s.eth := (rel_powerEvent Rel.refl fun _ h => h).frame .eth (by decide)
@[simp] theorem powerEvent_lh (s : State) (cause : Nat) : (powerEvent s cause).lh = s.lh := (rel_powerEvent Rel.refl fun _ h => h).frame .lh (by decide)
@[simp] theorem powerEvent_pwr (s : State) (cause : Nat) : (powerEvent s cause).pwr = s.pwr := (rel_powerEvent Rel.refl fun _ h => h).frame .pwr (by decide)
@[simp] theorem powerEvent_rst (s : State) (cause : Nat) : (powerEvent s cause).rst = s.rst := (rel_powerEvent Rel.refl fun _ h => h).frame .rst (by decide)
@[simp] theorem powerEvent_sec (s : State) (cause : Nat) : (powerEvent s cause).sec = s.sec := (rel_powerEvent Rel.refl fun _ h => h).frame .sec (by decide)
@[simp] theorem powerEvent_edge (s : State) (cause : Nat) : (powerEvent s cause).edge = s.edge := (rel_powerEvent Rel.refl fun _ h => h).frame .edge (by decide)
@[simp] theorem powerEvent_now (s : State) (cause : Nat) : now (powerEvent s cause) = now s := by simp [now]

/-! ### fireEdge -/

@[simp] theorem fireEdge_pending (s : State) (n : Nat) : (fireEdge s n).pending = s.pending := (rel_fireEdge Rel.refl fun _ h => h).pending
@[simp] theorem fireEdge_variant (s : State) (n : Nat) : (fireEdge s n).variant = s.variant := (rel_fireEdge Rel.refl fun _ h => h).variant
@[simp] theorem fireEdge_free (s : State) (n : Nat) : (fireEdge s n).free = s.free := (rel_fireEdge Rel.refl fun _ h => h).frame .free (by decide)
@[simp] theorem fireEdge_tx (s : State) (n : Nat) : (fireEdge s n).tx = s.tx := (rel_fireEdge Rel.refl fun _ h => h).frame .tx (by decide)
@[simp] theorem fireEdge_banks (s : State) (n : Nat) : (fireEdge s n).banks = s.banks := (rel_fireEdge Rel.refl fun _ h => h).frame .banks (by decide)
@[simp] theorem fireEdge_shelf (s : State) (n : Nat) : (fireEdge s n).shelf = s.shelf := (rel_fireEdge Rel.refl fun _ h => h).frame .shelf (by decide)
@[simp] theorem fireEdge_num (s : State) (n : Nat) : (fireEdge s n).num = s.num := (rel_fireEdge Rel.refl fun _ h => h).frame .num (by decide)
@[simp] theorem fireEdge_snd (s : State) (n : Nat) : (fireEdge s n).snd = s.snd := (rel_fireEdge Rel.refl fun _ h => h).frame .snd (by decide)
@[simp] theorem fireEdge_slv (s : State) (n : Nat) : (fireEdge s n).slv = s.slv := (rel_fireEdge Rel.refl fun _ h => h).frame .slv (by decide)
@[simp] theorem fireEdge_upd (s : State) (n : Nat) : (fireEdge s n).upd = s.upd := (rel_fireEdge Rel.refl fun _ h => h).frame .upd (by decide)
@[simp] theorem fireEdge_mem (s : State) (n : Nat) : (fireEdge s n).mem = s.mem := (rel_fireEdge Rel.refl fun _ h => h).same_mem (by decide) (by decide)
@[simp] theorem fireEdge_clf (s : State) (n : Nat) : (fireEdge s n).clf = s.clf := (rel_fireEdge Rel.refl fun _ h => h).frame .clf (by decide)
@[simp] theorem fireEdge_lsh (s : State) (n : Nat) : (fireEdge s n).lsh = s.lsh := (rel_fireEdge Rel.refl fun _ h => h).frame .lsh (by decide)
@[simp] theorem fireEdge_shg (s : State) (n : Nat) : (fireEdge s n).shg = s.shg := (rel_fireEdge Rel.refl fun _ h => h).frame .shg (by decide)
@[simp] theorem fireEdge_swl (s : State) (n : Nat) : (fireEdge s n).swl = s.swl := (rel_fireEdge Rel.refl fun _ h => h).frame .swl (by decide)
@[simp] theorem fireEdge_ofs (s : State) (n : Nat) : (fireEdge s n).ofs = s.ofs := (rel_fireEdge Rel.refl fun _ h => h).frame .ofs (by decide)
@[simp] theorem fireEdge_quay (s : State) (n : Nat) : (fireEdge s n).quay = s.quay := (rel_fireEdge Rel.refl fun _ h => h).frame .quay (by decide)
@[simp] theorem fireEdge_eth (s : State) (n : Nat) : (fireEdge s n).eth = s.eth := (rel_fireEdge Rel.refl fun _ h => h).frame .eth (by decide)
@[simp] theorem fireEdge_lh (s : State) (n : Nat) : (fireEdge s n).lh = s.lh := (rel_fireEdge Rel.refl fun _ h => h).frame .lh (by decide)
@[simp] theorem fireEdge_rst (s : State) (n : Nat) : (fireEdge s n).rst = s.rst := (rel_fireEdge Rel.refl fun _ h => h).frame .rst (by decide)
@[simp] theorem fireEdge_sec (s : State) (n : Nat) : (fireEdge s n).sec = s.sec := (rel_fireEdge Rel.refl fun _ h => h).frame .sec (by decide)
@[simp] theorem fireEdge_edge (s : State) (n : Nat) : (fireEdge s n).edge = s.edge := (rel_fireEdge Rel.refl fun _ h => h).frame .edge (by decide)
@[simp] theorem fireEdge_berthOf (s : State) (n : Nat) (i4 : Nat) : berthOf (fireEdge s n) i4 = berthOf s i4 := by simp [berthOf]
@[simp] theorem fireEdge_now (s : State) (n : Nat) : now (fireEdge s n) = now s := by simp [now]

/-! ### raiseReplace -/

@[simp] theorem raiseReplace_pending (s : State) (i : Nat) : (raiseReplace s i).pending = s.pending := (rel_raiseReplace Rel.refl fun _ h => h).pending
@[simp] theorem raiseReplace_variant (s : State) (i : Nat) : (raiseReplace s i).variant = s.variant := (rel_raiseReplace Rel.refl fun _ h => h).variant
@[simp] theorem raiseReplace_free (s : State) (i : Nat) : (raiseReplace s i).free = s.free := (rel_raiseReplace Rel.refl fun _ h => h).frame .free (by decide)
@[simp] theorem raiseReplace_banks (s : State) (i : Nat) : (raiseReplace s i).banks = s.banks := (rel_raiseReplace Rel.refl fun _ h => h).frame .banks (by decide)
@[simp] theorem raiseReplace_icu (s : State) (i : Nat) : (raiseReplace s i).icu = s.icu := (rel_raiseReplace Rel.refl fun _ h => h).frame .icu (by decide)
@[simp] theorem raiseReplace_shelf (s : State) (i : Nat) : (raiseReplace s i).shelf = s.shelf := (rel_raiseReplace Rel.refl fun _ h => h).frame .shelf (by decide)
@[simp] theorem raiseReplace_num (s : State) (i : Nat) : (raiseReplace s i).num = s.num := (rel_raiseReplace Rel.refl fun _ h => h).frame .num (by decide)
@[simp] theorem raiseReplace_snd (s : State) (i : Nat) : (raiseReplace s i).snd = s.snd := (rel_raiseReplace Rel.refl fun _ h => h).frame .snd (by decide)
@[simp] theorem raiseReplace_slv (s : State) (i : Nat) : (raiseReplace s i).slv = s.slv := (rel_raiseReplace Rel.refl fun _ h => h).frame .slv (by decide)
@[simp] theorem raiseReplace_upd (s : State) (i : Nat) : (raiseReplace s i).upd = s.upd := (rel_raiseReplace Rel.refl fun _ h => h).frame .upd (by decide)
@[simp] theorem raiseReplace_mem (s : State) (i : Nat) : (raiseReplace s i).mem = s.mem := (rel_raiseReplace Rel.refl fun _ h => h).same_mem (by decide) (by decide)
@[simp] theorem raiseReplace_clf (s : State) (i : Nat) : (raiseReplace s i).clf = s.clf := (rel_raiseReplace Rel.refl fun _ h => h).frame .clf (by decide)
@[simp] theorem raiseReplace_lsh (s : State) (i : Nat) : (raiseReplace s i).lsh = s.lsh := (rel_raiseReplace Rel.refl fun _ h => h).frame .lsh (by decide)
@[simp] theorem raiseReplace_shg (s : State) (i : Nat) : (raiseReplace s i).shg = s.shg := (rel_raiseReplace Rel.refl fun _ h => h).frame .shg (by decide)
@[simp] theorem raiseReplace_swl (s : State) (i : Nat) : (raiseReplace s i).swl = s.swl := (rel_raiseReplace Rel.refl fun _ h => h).frame .swl (by decide)
@[simp] theorem raiseReplace_ofs (s : State) (i : Nat) : (raiseReplace s i).ofs = s.ofs := (rel_raiseReplace Rel.refl fun _ h => h).frame .ofs (by decide)
@[simp] theorem raiseReplace_eth (s : State) (i : Nat) : (raiseReplace s i).eth = s.eth := (rel_raiseReplace Rel.refl fun _ h => h).frame .eth (by decide)
@[simp] theorem raiseReplace_lh (s : State) (i : Nat) : (raiseReplace s i).lh = s.lh := (rel_raiseReplace Rel.refl fun _ h => h).frame .lh (by decide)
@[simp] theorem raiseReplace_pwr (s : State) (i : Nat) : (raiseReplace s i).pwr = s.pwr := (rel_raiseReplace Rel.refl fun _ h => h).frame .pwr (by decide)
@[simp] theorem raiseReplace_rst (s : State) (i : Nat) : (raiseReplace s i).rst = s.rst := (rel_raiseReplace Rel.refl fun _ h => h).frame .rst (by decide)
@[simp] theorem raiseReplace_sec (s : State) (i : Nat) : (raiseReplace s i).sec = s.sec := (rel_raiseReplace Rel.refl fun _ h => h).frame .sec (by decide)
@[simp] theorem raiseReplace_edge (s : State) (i : Nat) : (raiseReplace s i).edge = s.edge := (rel_raiseReplace Rel.refl fun _ h => h).frame .edge (by decide)
@[simp] theorem raiseReplace_now (s : State) (i : Nat) : now (raiseReplace s i) = now s := by simp [now]

/-! ### dropReplace -/

@[simp] theorem dropReplace_pending (s : State) (i : Nat) : (dropReplace s i).pending = s.pending := (rel_dropReplace Rel.refl fun _ h => h).pending
@[simp] theorem dropReplace_variant (s : State) (i : Nat) : (dropReplace s i).variant = s.variant := (rel_dropReplace Rel.refl fun _ h => h).variant
@[simp] theorem dropReplace_free (s : State) (i : Nat) : (dropReplace s i).free = s.free := (rel_dropReplace Rel.refl fun _ h => h).frame .free (by decide)
@[simp] theorem dropReplace_tx (s : State) (i : Nat) : (dropReplace s i).tx = s.tx := (rel_dropReplace Rel.refl fun _ h => h).frame .tx (by decide)
@[simp] theorem dropReplace_counts (s : State) (i : Nat) : (dropReplace s i).counts = s.counts := (rel_dropReplace Rel.refl fun _ h => h).frame .counts (by decide)
@[simp] theorem dropReplace_banks (s : State) (i : Nat) : (dropReplace s i).banks = s.banks := (rel_dropReplace Rel.refl fun _ h => h).frame .banks (by decide)
@[simp] theorem dropReplace_icu (s : State) (i : Nat) : (dropReplace s i).icu = s.icu := (rel_dropReplace Rel.refl fun _ h => h).frame .icu (by decide)
@[simp] theorem dropReplace_shelf (s : State) (i : Nat) : (dropReplace s i).shelf = s.shelf := (rel_dropReplace Rel.refl fun _ h => h).frame .shelf (by decide)
@[simp] theorem dropReplace_num (s : State) (i : Nat) : (dropReplace s i).num = s.num := (rel_dropReplace Rel.refl fun _ h => h).frame .num (by decide)
@[simp] theorem dropReplace_snd (s : State) (i : Nat) : (dropReplace s i).snd = s.snd := (rel_dropReplace Rel.refl fun _ h => h).frame .snd (by decide)
@[simp] theorem dropReplace_slv (s : State) (i : Nat) : (dropReplace s i).slv = s.slv := (rel_dropReplace Rel.refl fun _ h => h).frame .slv (by decide)
@[simp] theorem dropReplace_upd (s : State) (i : Nat) : (dropReplace s i).upd = s.upd := (rel_dropReplace Rel.refl fun _ h => h).frame .upd (by decide)
@[simp] theorem dropReplace_mem (s : State) (i : Nat) : (dropReplace s i).mem = s.mem := (rel_dropReplace Rel.refl fun _ h => h).same_mem (by decide) (by decide)
@[simp] theorem dropReplace_clf (s : State) (i : Nat) : (dropReplace s i).clf = s.clf := (rel_dropReplace Rel.refl fun _ h => h).frame .clf (by decide)
@[simp] theorem dropReplace_lsh (s : State) (i : Nat) : (dropReplace s i).lsh = s.lsh := (rel_dropReplace Rel.refl fun _ h => h).frame .lsh (by decide)
@[simp] theorem dropReplace_shg (s : State) (i : Nat) : (dropReplace s i).shg = s.shg := (rel_dropReplace Rel.refl fun _ h => h).frame .shg (by decide)
@[simp] theorem dropReplace_swl (s : State) (i : Nat) : (dropReplace s i).swl = s.swl := (rel_dropReplace Rel.refl fun _ h => h).frame .swl (by decide)
@[simp] theorem dropReplace_ofs (s : State) (i : Nat) : (dropReplace s i).ofs = s.ofs := (rel_dropReplace Rel.refl fun _ h => h).frame .ofs (by decide)
@[simp] theorem dropReplace_quay (s : State) (i : Nat) : (dropReplace s i).quay = s.quay := (rel_dropReplace Rel.refl fun _ h => h).frame .quay (by decide)
@[simp] theorem dropReplace_eth (s : State) (i : Nat) : (dropReplace s i).eth = s.eth := (rel_dropReplace Rel.refl fun _ h => h).frame .eth (by decide)
@[simp] theorem dropReplace_lh (s : State) (i : Nat) : (dropReplace s i).lh = s.lh := (rel_dropReplace Rel.refl fun _ h => h).frame .lh (by decide)
@[simp] theorem dropReplace_pwr (s : State) (i : Nat) : (dropReplace s i).pwr = s.pwr := (rel_dropReplace Rel.refl fun _ h => h).frame .pwr (by decide)
@[simp] theorem dropReplace_rst (s : State) (i : Nat) : (dropReplace s i).rst = s.rst := (rel_dropReplace Rel.refl fun _ h => h).frame .rst (by decide)
@[simp] theorem dropReplace_sec (s : State) (i : Nat) : (dropReplace s i).sec = s.sec := (rel_dropReplace Rel.refl fun _ h => h).frame .sec (by decide)
@[simp] theorem dropReplace_edge (s : State) (i : Nat) : (dropReplace s i).edge = s.edge := (rel_dropReplace Rel.refl fun _ h => h).frame .edge (by decide)
@[simp] theorem dropReplace_berthOf (s : State) (i : Nat) (i4 : Nat) : berthOf (dropReplace s i) i4 = berthOf s i4 := by simp [berthOf]
@[simp] theorem dropReplace_now (s : State) (i : Nat) : now (dropReplace s i) = now s := by simp [now]

/-! ### keepStatus -/

@[simp] theorem keepStatus_pending (s : State) (b : Nat) (op : Nat) (seq : W32) (status : Nat) (detail : Nat) (data : List Byte) : (keepStatus s b op seq status detail data).pending = s.pending := (rel_keepStatus Rel.refl fun _ h => h).pending
@[simp] theorem keepStatus_variant (s : State) (b : Nat) (op : Nat) (seq : W32) (status : Nat) (detail : Nat) (data : List Byte) : (keepStatus s b op seq status detail data).variant = s.variant := (rel_keepStatus Rel.refl fun _ h => h).variant
@[simp] theorem keepStatus_free (s : State) (b : Nat) (op : Nat) (seq : W32) (status : Nat) (detail : Nat) (data : List Byte) : (keepStatus s b op seq status detail data).free = s.free := (rel_keepStatus Rel.refl fun _ h => h).frame .free (by decide)
@[simp] theorem keepStatus_tx (s : State) (b : Nat) (op : Nat) (seq : W32) (status : Nat) (detail : Nat) (data : List Byte) : (keepStatus s b op seq status detail data).tx = s.tx := (rel_keepStatus Rel.refl fun _ h => h).frame .tx (by decide)
@[simp] theorem keepStatus_regs (s : State) (b : Nat) (op : Nat) (seq : W32) (status : Nat) (detail : Nat) (data : List Byte) : (keepStatus s b op seq status detail data).regs = s.regs := (rel_keepStatus Rel.refl fun _ h => h).frame .regs (by decide)
@[simp] theorem keepStatus_counts (s : State) (b : Nat) (op : Nat) (seq : W32) (status : Nat) (detail : Nat) (data : List Byte) : (keepStatus s b op seq status detail data).counts = s.counts := (rel_keepStatus Rel.refl fun _ h => h).frame .counts (by decide)
@[simp] theorem keepStatus_banks (s : State) (b : Nat) (op : Nat) (seq : W32) (status : Nat) (detail : Nat) (data : List Byte) : (keepStatus s b op seq status detail data).banks = s.banks := (rel_keepStatus Rel.refl fun _ h => h).frame .banks (by decide)
@[simp] theorem keepStatus_icu (s : State) (b : Nat) (op : Nat) (seq : W32) (status : Nat) (detail : Nat) (data : List Byte) : (keepStatus s b op seq status detail data).icu = s.icu := (rel_keepStatus Rel.refl fun _ h => h).frame .icu (by decide)
@[simp] theorem keepStatus_shelf (s : State) (b : Nat) (op : Nat) (seq : W32) (status : Nat) (detail : Nat) (data : List Byte) : (keepStatus s b op seq status detail data).shelf = s.shelf := (rel_keepStatus Rel.refl fun _ h => h).frame .shelf (by decide)
@[simp] theorem keepStatus_num (s : State) (b : Nat) (op : Nat) (seq : W32) (status : Nat) (detail : Nat) (data : List Byte) : (keepStatus s b op seq status detail data).num = s.num := (rel_keepStatus Rel.refl fun _ h => h).frame .num (by decide)
@[simp] theorem keepStatus_snd (s : State) (b : Nat) (op : Nat) (seq : W32) (status : Nat) (detail : Nat) (data : List Byte) : (keepStatus s b op seq status detail data).snd = s.snd := (rel_keepStatus Rel.refl fun _ h => h).frame .snd (by decide)
@[simp] theorem keepStatus_slv (s : State) (b : Nat) (op : Nat) (seq : W32) (status : Nat) (detail : Nat) (data : List Byte) : (keepStatus s b op seq status detail data).slv = s.slv := (rel_keepStatus Rel.refl fun _ h => h).frame .slv (by decide)
@[simp] theorem keepStatus_upd (s : State) (b : Nat) (op : Nat) (seq : W32) (status : Nat) (detail : Nat) (data : List Byte) : (keepStatus s b op seq status detail data).upd = s.upd := (rel_keepStatus Rel.refl fun _ h => h).frame .upd (by decide)
@[simp] theorem keepStatus_mem (s : State) (b : Nat) (op : Nat) (seq : W32) (status : Nat) (detail : Nat) (data : List Byte) : (keepStatus s b op seq status detail data).mem = s.mem := (rel_keepStatus Rel.refl fun _ h => h).same_mem (by decide) (by decide)
@[simp] theorem keepStatus_clf (s : State) (b : Nat) (op : Nat) (seq : W32) (status : Nat) (detail : Nat) (data : List Byte) : (keepStatus s b op seq status detail data).clf = s.clf := (rel_keepStatus Rel.refl fun _ h => h).frame .clf (by decide)
@[simp] theorem keepStatus_lsh (s : State) (b : Nat) (op : Nat) (seq : W32) (status : Nat) (detail : Nat) (data : List Byte) : (keepStatus s b op seq status detail data).lsh = s.lsh := (rel_keepStatus Rel.refl fun _ h => h).frame .lsh (by decide)
@[simp] theorem keepStatus_shg (s : State) (b : Nat) (op : Nat) (seq : W32) (status : Nat) (detail : Nat) (data : List Byte) : (keepStatus s b op seq status detail data).shg = s.shg := (rel_keepStatus Rel.refl fun _ h => h).frame .shg (by decide)
@[simp] theorem keepStatus_swl (s : State) (b : Nat) (op : Nat) (seq : W32) (status : Nat) (detail : Nat) (data : List Byte) : (keepStatus s b op seq status detail data).swl = s.swl := (rel_keepStatus Rel.refl fun _ h => h).frame .swl (by decide)
@[simp] theorem keepStatus_ofs (s : State) (b : Nat) (op : Nat) (seq : W32) (status : Nat) (detail : Nat) (data : List Byte) : (keepStatus s b op seq status detail data).ofs = s.ofs := (rel_keepStatus Rel.refl fun _ h => h).frame .ofs (by decide)
@[simp] theorem keepStatus_eth (s : State) (b : Nat) (op : Nat) (seq : W32) (status : Nat) (detail : Nat) (data : List Byte) : (keepStatus s b op seq status detail data).eth = s.eth := (rel_keepStatus Rel.refl fun _ h => h).frame .eth (by decide)
@[simp] theorem keepStatus_lh (s : State) (b : Nat) (op : Nat) (seq : W32) (status : Nat) (detail : Nat) (data : List Byte) : (keepStatus s b op seq status detail data).lh = s.lh := (rel_keepStatus Rel.refl fun _ h => h).frame .lh (by decide)
@[simp] theorem keepStatus_pwr (s : State) (b : Nat) (op : Nat) (seq : W32) (status : Nat) (detail : Nat) (data : List Byte) : (keepStatus s b op seq status detail data).pwr = s.pwr := (rel_keepStatus Rel.refl fun _ h => h).frame .pwr (by decide)
@[simp] theorem keepStatus_rst (s : State) (b : Nat) (op : Nat) (seq : W32) (status : Nat) (detail : Nat) (data : List Byte) : (keepStatus s b op seq status detail data).rst = s.rst := (rel_keepStatus Rel.refl fun _ h => h).frame .rst (by decide)
@[simp] theorem keepStatus_sec (s : State) (b : Nat) (op : Nat) (seq : W32) (status : Nat) (detail : Nat) (data : List Byte) : (keepStatus s b op seq status detail data).sec = s.sec := (rel_keepStatus Rel.refl fun _ h => h).frame .sec (by decide)
@[simp] theorem keepStatus_edge (s : State) (b : Nat) (op : Nat) (seq : W32) (status : Nat) (detail : Nat) (data : List Byte) : (keepStatus s b op seq status detail data).edge = s.edge := (rel_keepStatus Rel.refl fun _ h => h).frame .edge (by decide)
@[simp] theorem keepStatus_rd (s : State) (b : Nat) (op : Nat) (seq : W32) (status : Nat) (detail : Nat) (data : List Byte) (g : Fld) : rd (keepStatus s b op seq status detail data) g = rd s g := rd_congr (by simp) (by simp) g
@[simp] theorem keepStatus_now (s : State) (b : Nat) (op : Nat) (seq : W32) (status : Nat) (detail : Nat) (data : List Byte) : now (keepStatus s b op seq status detail data) = now s := by simp [now]

/-! ### sendStatus -/

@[simp] theorem sendStatus_pending (s : State) (iface : Nat) (peer : Nat) (b : Nat) (op : Nat) (seq : W32) (status : Nat) (retry : Nat) (final : Bool) (detail : Nat) (data : List Byte) : (sendStatus s iface peer b op seq status retry final detail data).pending = s.pending := (rel_sendStatus Rel.refl fun _ h => h).pending
@[simp] theorem sendStatus_variant (s : State) (iface : Nat) (peer : Nat) (b : Nat) (op : Nat) (seq : W32) (status : Nat) (retry : Nat) (final : Bool) (detail : Nat) (data : List Byte) : (sendStatus s iface peer b op seq status retry final detail data).variant = s.variant := (rel_sendStatus Rel.refl fun _ h => h).variant
@[simp] theorem sendStatus_free (s : State) (iface : Nat) (peer : Nat) (b : Nat) (op : Nat) (seq : W32) (status : Nat) (retry : Nat) (final : Bool) (detail : Nat) (data : List Byte) : (sendStatus s iface peer b op seq status retry final detail data).free = s.free := (rel_sendStatus Rel.refl fun _ h => h).frame .free (by decide)
@[simp] theorem sendStatus_regs (s : State) (iface : Nat) (peer : Nat) (b : Nat) (op : Nat) (seq : W32) (status : Nat) (retry : Nat) (final : Bool) (detail : Nat) (data : List Byte) : (sendStatus s iface peer b op seq status retry final detail data).regs = s.regs := (rel_sendStatus Rel.refl fun _ h => h).frame .regs (by decide)
@[simp] theorem sendStatus_banks (s : State) (iface : Nat) (peer : Nat) (b : Nat) (op : Nat) (seq : W32) (status : Nat) (retry : Nat) (final : Bool) (detail : Nat) (data : List Byte) : (sendStatus s iface peer b op seq status retry final detail data).banks = s.banks := (rel_sendStatus Rel.refl fun _ h => h).frame .banks (by decide)
@[simp] theorem sendStatus_icu (s : State) (iface : Nat) (peer : Nat) (b : Nat) (op : Nat) (seq : W32) (status : Nat) (retry : Nat) (final : Bool) (detail : Nat) (data : List Byte) : (sendStatus s iface peer b op seq status retry final detail data).icu = s.icu := (rel_sendStatus Rel.refl fun _ h => h).frame .icu (by decide)
@[simp] theorem sendStatus_shelf (s : State) (iface : Nat) (peer : Nat) (b : Nat) (op : Nat) (seq : W32) (status : Nat) (retry : Nat) (final : Bool) (detail : Nat) (data : List Byte) : (sendStatus s iface peer b op seq status retry final detail data).shelf = s.shelf := (rel_sendStatus Rel.refl fun _ h => h).frame .shelf (by decide)
@[simp] theorem sendStatus_num (s : State) (iface : Nat) (peer : Nat) (b : Nat) (op : Nat) (seq : W32) (status : Nat) (retry : Nat) (final : Bool) (detail : Nat) (data : List Byte) : (sendStatus s iface peer b op seq status retry final detail data).num = s.num := (rel_sendStatus Rel.refl fun _ h => h).frame .num (by decide)
@[simp] theorem sendStatus_snd (s : State) (iface : Nat) (peer : Nat) (b : Nat) (op : Nat) (seq : W32) (status : Nat) (retry : Nat) (final : Bool) (detail : Nat) (data : List Byte) : (sendStatus s iface peer b op seq status retry final detail data).snd = s.snd := (rel_sendStatus Rel.refl fun _ h => h).frame .snd (by decide)
@[simp] theorem sendStatus_slv (s : State) (iface : Nat) (peer : Nat) (b : Nat) (op : Nat) (seq : W32) (status : Nat) (retry : Nat) (final : Bool) (detail : Nat) (data : List Byte) : (sendStatus s iface peer b op seq status retry final detail data).slv = s.slv := (rel_sendStatus Rel.refl fun _ h => h).frame .slv (by decide)
@[simp] theorem sendStatus_upd (s : State) (iface : Nat) (peer : Nat) (b : Nat) (op : Nat) (seq : W32) (status : Nat) (retry : Nat) (final : Bool) (detail : Nat) (data : List Byte) : (sendStatus s iface peer b op seq status retry final detail data).upd = s.upd := (rel_sendStatus Rel.refl fun _ h => h).frame .upd (by decide)
@[simp] theorem sendStatus_mem (s : State) (iface : Nat) (peer : Nat) (b : Nat) (op : Nat) (seq : W32) (status : Nat) (retry : Nat) (final : Bool) (detail : Nat) (data : List Byte) : (sendStatus s iface peer b op seq status retry final detail data).mem = s.mem := (rel_sendStatus Rel.refl fun _ h => h).same_mem (by decide) (by decide)
@[simp] theorem sendStatus_clf (s : State) (iface : Nat) (peer : Nat) (b : Nat) (op : Nat) (seq : W32) (status : Nat) (retry : Nat) (final : Bool) (detail : Nat) (data : List Byte) : (sendStatus s iface peer b op seq status retry final detail data).clf = s.clf := (rel_sendStatus Rel.refl fun _ h => h).frame .clf (by decide)
@[simp] theorem sendStatus_lsh (s : State) (iface : Nat) (peer : Nat) (b : Nat) (op : Nat) (seq : W32) (status : Nat) (retry : Nat) (final : Bool) (detail : Nat) (data : List Byte) : (sendStatus s iface peer b op seq status retry final detail data).lsh = s.lsh := (rel_sendStatus Rel.refl fun _ h => h).frame .lsh (by decide)
@[simp] theorem sendStatus_shg (s : State) (iface : Nat) (peer : Nat) (b : Nat) (op : Nat) (seq : W32) (status : Nat) (retry : Nat) (final : Bool) (detail : Nat) (data : List Byte) : (sendStatus s iface peer b op seq status retry final detail data).shg = s.shg := (rel_sendStatus Rel.refl fun _ h => h).frame .shg (by decide)
@[simp] theorem sendStatus_swl (s : State) (iface : Nat) (peer : Nat) (b : Nat) (op : Nat) (seq : W32) (status : Nat) (retry : Nat) (final : Bool) (detail : Nat) (data : List Byte) : (sendStatus s iface peer b op seq status retry final detail data).swl = s.swl := (rel_sendStatus Rel.refl fun _ h => h).frame .swl (by decide)
@[simp] theorem sendStatus_ofs (s : State) (iface : Nat) (peer : Nat) (b : Nat) (op : Nat) (seq : W32) (status : Nat) (retry : Nat) (final : Bool) (detail : Nat) (data : List Byte) : (sendStatus s iface peer b op seq status retry final detail data).ofs = s.ofs := (rel_sendStatus Rel.refl fun _ h => h).frame .ofs (by decide)
@[simp] theorem sendStatus_quay (s : State) (iface : Nat) (peer : Nat) (b : Nat) (op : Nat) (seq : W32) (status : Nat) (retry : Nat) (final : Bool) (detail : Nat) (data : List Byte) : (sendStatus s iface peer b op seq status retry final detail data).quay = s.quay := (rel_sendStatus Rel.refl fun _ h => h).frame .quay (by decide)
@[simp] theorem sendStatus_eth (s : State) (iface : Nat) (peer : Nat) (b : Nat) (op : Nat) (seq : W32) (status : Nat) (retry : Nat) (final : Bool) (detail : Nat) (data : List Byte) : (sendStatus s iface peer b op seq status retry final detail data).eth = s.eth := (rel_sendStatus Rel.refl fun _ h => h).frame .eth (by decide)
@[simp] theorem sendStatus_lh (s : State) (iface : Nat) (peer : Nat) (b : Nat) (op : Nat) (seq : W32) (status : Nat) (retry : Nat) (final : Bool) (detail : Nat) (data : List Byte) : (sendStatus s iface peer b op seq status retry final detail data).lh = s.lh := (rel_sendStatus Rel.refl fun _ h => h).frame .lh (by decide)
@[simp] theorem sendStatus_pwr (s : State) (iface : Nat) (peer : Nat) (b : Nat) (op : Nat) (seq : W32) (status : Nat) (retry : Nat) (final : Bool) (detail : Nat) (data : List Byte) : (sendStatus s iface peer b op seq status retry final detail data).pwr = s.pwr := (rel_sendStatus Rel.refl fun _ h => h).frame .pwr (by decide)
@[simp] theorem sendStatus_rst (s : State) (iface : Nat) (peer : Nat) (b : Nat) (op : Nat) (seq : W32) (status : Nat) (retry : Nat) (final : Bool) (detail : Nat) (data : List Byte) : (sendStatus s iface peer b op seq status retry final detail data).rst = s.rst := (rel_sendStatus Rel.refl fun _ h => h).frame .rst (by decide)
@[simp] theorem sendStatus_sec (s : State) (iface : Nat) (peer : Nat) (b : Nat) (op : Nat) (seq : W32) (status : Nat) (retry : Nat) (final : Bool) (detail : Nat) (data : List Byte) : (sendStatus s iface peer b op seq status retry final detail data).sec = s.sec := (rel_sendStatus Rel.refl fun _ h => h).frame .sec (by decide)
@[simp] theorem sendStatus_edge (s : State) (iface : Nat) (peer : Nat) (b : Nat) (op : Nat) (seq : W32) (status : Nat) (retry : Nat) (final : Bool) (detail : Nat) (data : List Byte) : (sendStatus s iface peer b op seq status retry final detail data).edge = s.edge := (rel_sendStatus Rel.refl fun _ h => h).frame .edge (by decide)
@[simp] theorem sendStatus_rd (s : State) (iface : Nat) (peer : Nat) (b : Nat) (op : Nat) (seq : W32) (status : Nat) (retry : Nat) (final : Bool) (detail : Nat) (data : List Byte) (g : Fld) : rd (sendStatus s iface peer b op seq status retry final detail data) g = rd s g := rd_congr (by simp) (by simp) g
@[simp] theorem sendStatus_berthOf (s : State) (iface : Nat) (peer : Nat) (b : Nat) (op : Nat) (seq : W32) (status : Nat) (retry : Nat) (final : Bool) (detail : Nat) (data : List Byte) (i4 : Nat) : berthOf (sendStatus s iface peer b op seq status retry final detail data) i4 = berthOf s i4 := by simp [berthOf]
@[simp] theorem sendStatus_now (s : State) (iface : Nat) (peer : Nat) (b : Nat) (op : Nat) (seq : W32) (status : Nat) (retry : Nat) (final : Bool) (detail : Nat) (data : List Byte) : now (sendStatus s iface peer b op seq status retry final detail data) = now s := by simp [now]

/-! ### finish -/

@[simp] theorem finish_pending (s : State) (b : Nat) (op : Nat) (seq : W32) (status : Nat) (detail : Nat) (data : List Byte) : (finish s b op seq status detail data).pending = s.pending := (rel_finish Rel.refl fun _ h => h).pending
@[simp] theorem finish_variant (s : State) (b : Nat) (op : Nat) (seq : W32) (status : Nat) (detail : Nat) (data : List Byte) : (finish s b op seq status detail data).variant = s.variant := (rel_finish Rel.refl fun _ h => h).variant
@[simp] theorem finish_free (s : State) (b : Nat) (op : Nat) (seq : W32) (status : Nat) (detail : Nat) (data : List Byte) : (finish s b op seq status detail data).free = s.free := (rel_finish Rel.refl fun _ h => h).frame .free (by decide)
@[simp] theorem finish_regs (s : State) (b : Nat) (op : Nat) (seq : W32) (status : Nat) (detail : Nat) (data : List Byte) : (finish s b op seq status detail data).regs = s.regs := (rel_finish Rel.refl fun _ h => h).frame .regs (by decide)
@[simp] theorem finish_banks (s : State) (b : Nat) (op : Nat) (seq : W32) (status : Nat) (detail : Nat) (data : List Byte) : (finish s b op seq status detail data).banks = s.banks := (rel_finish Rel.refl fun _ h => h).frame .banks (by decide)
@[simp] theorem finish_icu (s : State) (b : Nat) (op : Nat) (seq : W32) (status : Nat) (detail : Nat) (data : List Byte) : (finish s b op seq status detail data).icu = s.icu := (rel_finish Rel.refl fun _ h => h).frame .icu (by decide)
@[simp] theorem finish_shelf (s : State) (b : Nat) (op : Nat) (seq : W32) (status : Nat) (detail : Nat) (data : List Byte) : (finish s b op seq status detail data).shelf = s.shelf := (rel_finish Rel.refl fun _ h => h).frame .shelf (by decide)
@[simp] theorem finish_num (s : State) (b : Nat) (op : Nat) (seq : W32) (status : Nat) (detail : Nat) (data : List Byte) : (finish s b op seq status detail data).num = s.num := (rel_finish Rel.refl fun _ h => h).frame .num (by decide)
@[simp] theorem finish_snd (s : State) (b : Nat) (op : Nat) (seq : W32) (status : Nat) (detail : Nat) (data : List Byte) : (finish s b op seq status detail data).snd = s.snd := (rel_finish Rel.refl fun _ h => h).frame .snd (by decide)
@[simp] theorem finish_slv (s : State) (b : Nat) (op : Nat) (seq : W32) (status : Nat) (detail : Nat) (data : List Byte) : (finish s b op seq status detail data).slv = s.slv := (rel_finish Rel.refl fun _ h => h).frame .slv (by decide)
@[simp] theorem finish_upd (s : State) (b : Nat) (op : Nat) (seq : W32) (status : Nat) (detail : Nat) (data : List Byte) : (finish s b op seq status detail data).upd = s.upd := (rel_finish Rel.refl fun _ h => h).frame .upd (by decide)
@[simp] theorem finish_mem (s : State) (b : Nat) (op : Nat) (seq : W32) (status : Nat) (detail : Nat) (data : List Byte) : (finish s b op seq status detail data).mem = s.mem := (rel_finish Rel.refl fun _ h => h).same_mem (by decide) (by decide)
@[simp] theorem finish_clf (s : State) (b : Nat) (op : Nat) (seq : W32) (status : Nat) (detail : Nat) (data : List Byte) : (finish s b op seq status detail data).clf = s.clf := (rel_finish Rel.refl fun _ h => h).frame .clf (by decide)
@[simp] theorem finish_lsh (s : State) (b : Nat) (op : Nat) (seq : W32) (status : Nat) (detail : Nat) (data : List Byte) : (finish s b op seq status detail data).lsh = s.lsh := (rel_finish Rel.refl fun _ h => h).frame .lsh (by decide)
@[simp] theorem finish_shg (s : State) (b : Nat) (op : Nat) (seq : W32) (status : Nat) (detail : Nat) (data : List Byte) : (finish s b op seq status detail data).shg = s.shg := (rel_finish Rel.refl fun _ h => h).frame .shg (by decide)
@[simp] theorem finish_swl (s : State) (b : Nat) (op : Nat) (seq : W32) (status : Nat) (detail : Nat) (data : List Byte) : (finish s b op seq status detail data).swl = s.swl := (rel_finish Rel.refl fun _ h => h).frame .swl (by decide)
@[simp] theorem finish_ofs (s : State) (b : Nat) (op : Nat) (seq : W32) (status : Nat) (detail : Nat) (data : List Byte) : (finish s b op seq status detail data).ofs = s.ofs := (rel_finish Rel.refl fun _ h => h).frame .ofs (by decide)
@[simp] theorem finish_eth (s : State) (b : Nat) (op : Nat) (seq : W32) (status : Nat) (detail : Nat) (data : List Byte) : (finish s b op seq status detail data).eth = s.eth := (rel_finish Rel.refl fun _ h => h).frame .eth (by decide)
@[simp] theorem finish_lh (s : State) (b : Nat) (op : Nat) (seq : W32) (status : Nat) (detail : Nat) (data : List Byte) : (finish s b op seq status detail data).lh = s.lh := (rel_finish Rel.refl fun _ h => h).frame .lh (by decide)
@[simp] theorem finish_pwr (s : State) (b : Nat) (op : Nat) (seq : W32) (status : Nat) (detail : Nat) (data : List Byte) : (finish s b op seq status detail data).pwr = s.pwr := (rel_finish Rel.refl fun _ h => h).frame .pwr (by decide)
@[simp] theorem finish_rst (s : State) (b : Nat) (op : Nat) (seq : W32) (status : Nat) (detail : Nat) (data : List Byte) : (finish s b op seq status detail data).rst = s.rst := (rel_finish Rel.refl fun _ h => h).frame .rst (by decide)
@[simp] theorem finish_sec (s : State) (b : Nat) (op : Nat) (seq : W32) (status : Nat) (detail : Nat) (data : List Byte) : (finish s b op seq status detail data).sec = s.sec := (rel_finish Rel.refl fun _ h => h).frame .sec (by decide)
@[simp] theorem finish_edge (s : State) (b : Nat) (op : Nat) (seq : W32) (status : Nat) (detail : Nat) (data : List Byte) : (finish s b op seq status detail data).edge = s.edge := (rel_finish Rel.refl fun _ h => h).frame .edge (by decide)
@[simp] theorem finish_rd (s : State) (b : Nat) (op : Nat) (seq : W32) (status : Nat) (detail : Nat) (data : List Byte) (g : Fld) : rd (finish s b op seq status detail data) g = rd s g := rd_congr (by simp) (by simp) g
@[simp] theorem finish_now (s : State) (b : Nat) (op : Nat) (seq : W32) (status : Nat) (detail : Nat) (data : List Byte) : now (finish s b op seq status detail data) = now s := by simp [now]

/-! ### unauthStatus -/

@[simp] theorem unauthStatus_pending (s : State) (h : EcpHdr) (op : Nat) (status : Nat) (detail : Nat) (data : List Byte) : (unauthStatus s h op status detail data).pending = s.pending := (rel_unauthStatus Rel.refl fun _ h => h).pending
@[simp] theorem unauthStatus_variant (s : State) (h : EcpHdr) (op : Nat) (status : Nat) (detail : Nat) (data : List Byte) : (unauthStatus s h op status detail data).variant = s.variant := (rel_unauthStatus Rel.refl fun _ h => h).variant
@[simp] theorem unauthStatus_free (s : State) (h : EcpHdr) (op : Nat) (status : Nat) (detail : Nat) (data : List Byte) : (unauthStatus s h op status detail data).free = s.free := (rel_unauthStatus Rel.refl fun _ h => h).frame .free (by decide)
@[simp] theorem unauthStatus_regs (s : State) (h : EcpHdr) (op : Nat) (status : Nat) (detail : Nat) (data : List Byte) : (unauthStatus s h op status detail data).regs = s.regs := (rel_unauthStatus Rel.refl fun _ h => h).frame .regs (by decide)
@[simp] theorem unauthStatus_banks (s : State) (h : EcpHdr) (op : Nat) (status : Nat) (detail : Nat) (data : List Byte) : (unauthStatus s h op status detail data).banks = s.banks := (rel_unauthStatus Rel.refl fun _ h => h).frame .banks (by decide)
@[simp] theorem unauthStatus_icu (s : State) (h : EcpHdr) (op : Nat) (status : Nat) (detail : Nat) (data : List Byte) : (unauthStatus s h op status detail data).icu = s.icu := (rel_unauthStatus Rel.refl fun _ h => h).frame .icu (by decide)
@[simp] theorem unauthStatus_shelf (s : State) (h : EcpHdr) (op : Nat) (status : Nat) (detail : Nat) (data : List Byte) : (unauthStatus s h op status detail data).shelf = s.shelf := (rel_unauthStatus Rel.refl fun _ h => h).frame .shelf (by decide)
@[simp] theorem unauthStatus_num (s : State) (h : EcpHdr) (op : Nat) (status : Nat) (detail : Nat) (data : List Byte) : (unauthStatus s h op status detail data).num = s.num := (rel_unauthStatus Rel.refl fun _ h => h).frame .num (by decide)
@[simp] theorem unauthStatus_snd (s : State) (h : EcpHdr) (op : Nat) (status : Nat) (detail : Nat) (data : List Byte) : (unauthStatus s h op status detail data).snd = s.snd := (rel_unauthStatus Rel.refl fun _ h => h).frame .snd (by decide)
@[simp] theorem unauthStatus_slv (s : State) (h : EcpHdr) (op : Nat) (status : Nat) (detail : Nat) (data : List Byte) : (unauthStatus s h op status detail data).slv = s.slv := (rel_unauthStatus Rel.refl fun _ h => h).frame .slv (by decide)
@[simp] theorem unauthStatus_upd (s : State) (h : EcpHdr) (op : Nat) (status : Nat) (detail : Nat) (data : List Byte) : (unauthStatus s h op status detail data).upd = s.upd := (rel_unauthStatus Rel.refl fun _ h => h).frame .upd (by decide)
@[simp] theorem unauthStatus_mem (s : State) (h : EcpHdr) (op : Nat) (status : Nat) (detail : Nat) (data : List Byte) : (unauthStatus s h op status detail data).mem = s.mem := (rel_unauthStatus Rel.refl fun _ h => h).same_mem (by decide) (by decide)
@[simp] theorem unauthStatus_clf (s : State) (h : EcpHdr) (op : Nat) (status : Nat) (detail : Nat) (data : List Byte) : (unauthStatus s h op status detail data).clf = s.clf := (rel_unauthStatus Rel.refl fun _ h => h).frame .clf (by decide)
@[simp] theorem unauthStatus_lsh (s : State) (h : EcpHdr) (op : Nat) (status : Nat) (detail : Nat) (data : List Byte) : (unauthStatus s h op status detail data).lsh = s.lsh := (rel_unauthStatus Rel.refl fun _ h => h).frame .lsh (by decide)
@[simp] theorem unauthStatus_shg (s : State) (h : EcpHdr) (op : Nat) (status : Nat) (detail : Nat) (data : List Byte) : (unauthStatus s h op status detail data).shg = s.shg := (rel_unauthStatus Rel.refl fun _ h => h).frame .shg (by decide)
@[simp] theorem unauthStatus_swl (s : State) (h : EcpHdr) (op : Nat) (status : Nat) (detail : Nat) (data : List Byte) : (unauthStatus s h op status detail data).swl = s.swl := (rel_unauthStatus Rel.refl fun _ h => h).frame .swl (by decide)
@[simp] theorem unauthStatus_ofs (s : State) (h : EcpHdr) (op : Nat) (status : Nat) (detail : Nat) (data : List Byte) : (unauthStatus s h op status detail data).ofs = s.ofs := (rel_unauthStatus Rel.refl fun _ h => h).frame .ofs (by decide)
@[simp] theorem unauthStatus_eth (s : State) (h : EcpHdr) (op : Nat) (status : Nat) (detail : Nat) (data : List Byte) : (unauthStatus s h op status detail data).eth = s.eth := (rel_unauthStatus Rel.refl fun _ h => h).frame .eth (by decide)
@[simp] theorem unauthStatus_lh (s : State) (h : EcpHdr) (op : Nat) (status : Nat) (detail : Nat) (data : List Byte) : (unauthStatus s h op status detail data).lh = s.lh := (rel_unauthStatus Rel.refl fun _ h => h).frame .lh (by decide)
@[simp] theorem unauthStatus_pwr (s : State) (h : EcpHdr) (op : Nat) (status : Nat) (detail : Nat) (data : List Byte) : (unauthStatus s h op status detail data).pwr = s.pwr := (rel_unauthStatus Rel.refl fun _ h => h).frame .pwr (by decide)
@[simp] theorem unauthStatus_rst (s : State) (h : EcpHdr) (op : Nat) (status : Nat) (detail : Nat) (data : List Byte) : (unauthStatus s h op status detail data).rst = s.rst := (rel_unauthStatus Rel.refl fun _ h => h).frame .rst (by decide)
@[simp] theorem unauthStatus_sec (s : State) (h : EcpHdr) (op : Nat) (status : Nat) (detail : Nat) (data : List Byte) : (unauthStatus s h op status detail data).sec = s.sec := (rel_unauthStatus Rel.refl fun _ h => h).frame .sec (by decide)
@[simp] theorem unauthStatus_edge (s : State) (h : EcpHdr) (op : Nat) (status : Nat) (detail : Nat) (data : List Byte) : (unauthStatus s h op status detail data).edge = s.edge := (rel_unauthStatus Rel.refl fun _ h => h).frame .edge (by decide)
@[simp] theorem unauthStatus_rd (s : State) (h : EcpHdr) (op : Nat) (status : Nat) (detail : Nat) (data : List Byte) (g : Fld) : rd (unauthStatus s h op status detail data) g = rd s g := rd_congr (by simp) (by simp) g
@[simp] theorem unauthStatus_now (s : State) (h : EcpHdr) (op : Nat) (status : Nat) (detail : Nat) (data : List Byte) : now (unauthStatus s h op status detail data) = now s := by simp [now]

/-! ### recordReset -/

@[simp] theorem recordReset_pending (s : State) (d : Nat) (counted : Bool) : (recordReset s d counted).pending = s.pending := (rel_recordReset Rel.refl fun _ h => h).pending
@[simp] theorem recordReset_variant (s : State) (d : Nat) (counted : Bool) : (recordReset s d counted).variant = s.variant := (rel_recordReset Rel.refl fun _ h => h).variant
@[simp] theorem recordReset_free (s : State) (d : Nat) (counted : Bool) : (recordReset s d counted).free = s.free := (rel_recordReset Rel.refl fun _ h => h).frame .free (by decide)
@[simp] theorem recordReset_tx (s : State) (d : Nat) (counted : Bool) : (recordReset s d counted).tx = s.tx := (rel_recordReset Rel.refl fun _ h => h).frame .tx (by decide)
@[simp] theorem recordReset_counts (s : State) (d : Nat) (counted : Bool) : (recordReset s d counted).counts = s.counts := (rel_recordReset Rel.refl fun _ h => h).frame .counts (by decide)
@[simp] theorem recordReset_banks (s : State) (d : Nat) (counted : Bool) : (recordReset s d counted).banks = s.banks := (rel_recordReset Rel.refl fun _ h => h).frame .banks (by decide)
@[simp] theorem recordReset_icu (s : State) (d : Nat) (counted : Bool) : (recordReset s d counted).icu = s.icu := (rel_recordReset Rel.refl fun _ h => h).frame .icu (by decide)
@[simp] theorem recordReset_shelf (s : State) (d : Nat) (counted : Bool) : (recordReset s d counted).shelf = s.shelf := (rel_recordReset Rel.refl fun _ h => h).frame .shelf (by decide)
@[simp] theorem recordReset_num (s : State) (d : Nat) (counted : Bool) : (recordReset s d counted).num = s.num := (rel_recordReset Rel.refl fun _ h => h).frame .num (by decide)
@[simp] theorem recordReset_snd (s : State) (d : Nat) (counted : Bool) : (recordReset s d counted).snd = s.snd := (rel_recordReset Rel.refl fun _ h => h).frame .snd (by decide)
@[simp] theorem recordReset_slv (s : State) (d : Nat) (counted : Bool) : (recordReset s d counted).slv = s.slv := (rel_recordReset Rel.refl fun _ h => h).frame .slv (by decide)
@[simp] theorem recordReset_upd (s : State) (d : Nat) (counted : Bool) : (recordReset s d counted).upd = s.upd := (rel_recordReset Rel.refl fun _ h => h).frame .upd (by decide)
@[simp] theorem recordReset_mem (s : State) (d : Nat) (counted : Bool) : (recordReset s d counted).mem = s.mem := (rel_recordReset Rel.refl fun _ h => h).same_mem (by decide) (by decide)
@[simp] theorem recordReset_clf (s : State) (d : Nat) (counted : Bool) : (recordReset s d counted).clf = s.clf := (rel_recordReset Rel.refl fun _ h => h).frame .clf (by decide)
@[simp] theorem recordReset_lsh (s : State) (d : Nat) (counted : Bool) : (recordReset s d counted).lsh = s.lsh := (rel_recordReset Rel.refl fun _ h => h).frame .lsh (by decide)
@[simp] theorem recordReset_shg (s : State) (d : Nat) (counted : Bool) : (recordReset s d counted).shg = s.shg := (rel_recordReset Rel.refl fun _ h => h).frame .shg (by decide)
@[simp] theorem recordReset_swl (s : State) (d : Nat) (counted : Bool) : (recordReset s d counted).swl = s.swl := (rel_recordReset Rel.refl fun _ h => h).frame .swl (by decide)
@[simp] theorem recordReset_ofs (s : State) (d : Nat) (counted : Bool) : (recordReset s d counted).ofs = s.ofs := (rel_recordReset Rel.refl fun _ h => h).frame .ofs (by decide)
@[simp] theorem recordReset_quay (s : State) (d : Nat) (counted : Bool) : (recordReset s d counted).quay = s.quay := (rel_recordReset Rel.refl fun _ h => h).frame .quay (by decide)
@[simp] theorem recordReset_eth (s : State) (d : Nat) (counted : Bool) : (recordReset s d counted).eth = s.eth := (rel_recordReset Rel.refl fun _ h => h).frame .eth (by decide)
@[simp] theorem recordReset_lh (s : State) (d : Nat) (counted : Bool) : (recordReset s d counted).lh = s.lh := (rel_recordReset Rel.refl fun _ h => h).frame .lh (by decide)
@[simp] theorem recordReset_pwr (s : State) (d : Nat) (counted : Bool) : (recordReset s d counted).pwr = s.pwr := (rel_recordReset Rel.refl fun _ h => h).frame .pwr (by decide)
@[simp] theorem recordReset_sec (s : State) (d : Nat) (counted : Bool) : (recordReset s d counted).sec = s.sec := (rel_recordReset Rel.refl fun _ h => h).frame .sec (by decide)
@[simp] theorem recordReset_edge (s : State) (d : Nat) (counted : Bool) : (recordReset s d counted).edge = s.edge := (rel_recordReset Rel.refl fun _ h => h).frame .edge (by decide)
@[simp] theorem recordReset_berthOf (s : State) (d : Nat) (counted : Bool) (i4 : Nat) : berthOf (recordReset s d counted) i4 = berthOf s i4 := by simp [berthOf]
@[simp] theorem recordReset_now (s : State) (d : Nat) (counted : Bool) : now (recordReset s d counted) = now s := by simp [now]

/-! ### releaseObject -/

@[simp] theorem releaseObject_pending (s : State) (b : Nat) (n : Nat) : (releaseObject s b n).pending = s.pending := (rel_releaseObject Rel.refl fun _ h => h).pending
@[simp] theorem releaseObject_variant (s : State) (b : Nat) (n : Nat) : (releaseObject s b n).variant = s.variant := (rel_releaseObject Rel.refl fun _ h => h).variant
@[simp] theorem releaseObject_free (s : State) (b : Nat) (n : Nat) : (releaseObject s b n).free = s.free := (rel_releaseObject Rel.refl fun _ h => h).frame .free (by decide)
@[simp] theorem releaseObject_tx (s : State) (b : Nat) (n : Nat) : (releaseObject s b n).tx = s.tx := (rel_releaseObject Rel.refl fun _ h => h).frame .tx (by decide)
@[simp] theorem releaseObject_regs (s : State) (b : Nat) (n : Nat) : (releaseObject s b n).regs = s.regs := (rel_releaseObject Rel.refl fun _ h => h).frame .regs (by decide)
@[simp] theorem releaseObject_counts (s : State) (b : Nat) (n : Nat) : (releaseObject s b n).counts = s.counts := (rel_releaseObject Rel.refl fun _ h => h).frame .counts (by decide)
@[simp] theorem releaseObject_banks (s : State) (b : Nat) (n : Nat) : (releaseObject s b n).banks = s.banks := (rel_releaseObject Rel.refl fun _ h => h).frame .banks (by decide)
@[simp] theorem releaseObject_icu (s : State) (b : Nat) (n : Nat) : (releaseObject s b n).icu = s.icu := (rel_releaseObject Rel.refl fun _ h => h).frame .icu (by decide)
@[simp] theorem releaseObject_shelf (s : State) (b : Nat) (n : Nat) : (releaseObject s b n).shelf = s.shelf := (rel_releaseObject Rel.refl fun _ h => h).frame .shelf (by decide)
@[simp] theorem releaseObject_num (s : State) (b : Nat) (n : Nat) : (releaseObject s b n).num = s.num := (rel_releaseObject Rel.refl fun _ h => h).frame .num (by decide)
@[simp] theorem releaseObject_snd (s : State) (b : Nat) (n : Nat) : (releaseObject s b n).snd = s.snd := (rel_releaseObject Rel.refl fun _ h => h).frame .snd (by decide)
@[simp] theorem releaseObject_slv (s : State) (b : Nat) (n : Nat) : (releaseObject s b n).slv = s.slv := (rel_releaseObject Rel.refl fun _ h => h).frame .slv (by decide)
@[simp] theorem releaseObject_upd (s : State) (b : Nat) (n : Nat) : (releaseObject s b n).upd = s.upd := (rel_releaseObject Rel.refl fun _ h => h).frame .upd (by decide)
@[simp] theorem releaseObject_clf (s : State) (b : Nat) (n : Nat) : (releaseObject s b n).clf = s.clf := (rel_releaseObject Rel.refl fun _ h => h).frame .clf (by decide)
@[simp] theorem releaseObject_lsh (s : State) (b : Nat) (n : Nat) : (releaseObject s b n).lsh = s.lsh := (rel_releaseObject Rel.refl fun _ h => h).frame .lsh (by decide)
@[simp] theorem releaseObject_shg (s : State) (b : Nat) (n : Nat) : (releaseObject s b n).shg = s.shg := (rel_releaseObject Rel.refl fun _ h => h).frame .shg (by decide)
@[simp] theorem releaseObject_swl (s : State) (b : Nat) (n : Nat) : (releaseObject s b n).swl = s.swl := (rel_releaseObject Rel.refl fun _ h => h).frame .swl (by decide)
@[simp] theorem releaseObject_ofs (s : State) (b : Nat) (n : Nat) : (releaseObject s b n).ofs = s.ofs := (rel_releaseObject Rel.refl fun _ h => h).frame .ofs (by decide)
@[simp] theorem releaseObject_quay (s : State) (b : Nat) (n : Nat) : (releaseObject s b n).quay = s.quay := (rel_releaseObject Rel.refl fun _ h => h).frame .quay (by decide)
@[simp] theorem releaseObject_eth (s : State) (b : Nat) (n : Nat) : (releaseObject s b n).eth = s.eth := (rel_releaseObject Rel.refl fun _ h => h).frame .eth (by decide)
@[simp] theorem releaseObject_lh (s : State) (b : Nat) (n : Nat) : (releaseObject s b n).lh = s.lh := (rel_releaseObject Rel.refl fun _ h => h).frame .lh (by decide)
@[simp] theorem releaseObject_pwr (s : State) (b : Nat) (n : Nat) : (releaseObject s b n).pwr = s.pwr := (rel_releaseObject Rel.refl fun _ h => h).frame .pwr (by decide)
@[simp] theorem releaseObject_rst (s : State) (b : Nat) (n : Nat) : (releaseObject s b n).rst = s.rst := (rel_releaseObject Rel.refl fun _ h => h).frame .rst (by decide)
@[simp] theorem releaseObject_sec (s : State) (b : Nat) (n : Nat) : (releaseObject s b n).sec = s.sec := (rel_releaseObject Rel.refl fun _ h => h).frame .sec (by decide)
@[simp] theorem releaseObject_edge (s : State) (b : Nat) (n : Nat) : (releaseObject s b n).edge = s.edge := (rel_releaseObject Rel.refl fun _ h => h).frame .edge (by decide)
@[simp] theorem releaseObject_rd (s : State) (b : Nat) (n : Nat) (g : Fld) : rd (releaseObject s b n) g = rd s g := rd_congr (by simp) (by simp) g
@[simp] theorem releaseObject_berthOf (s : State) (b : Nat) (n : Nat) (i4 : Nat) : berthOf (releaseObject s b n) i4 = berthOf s i4 := by simp [berthOf]
@[simp] theorem releaseObject_now (s : State) (b : Nat) (n : Nat) : now (releaseObject s b n) = now s := by simp [now]

/-! ### touch -/

@[simp] theorem touch_pending (s : State) (h : Hdl) : (touch s h).pending = s.pending := (rel_touch Rel.refl fun _ h => h).pending
@[simp] theorem touch_variant (s : State) (h : Hdl) : (touch s h).variant = s.variant := (rel_touch Rel.refl fun _ h => h).variant
@[simp] theorem touch_free (s : State) (h : Hdl) : (touch s h).free = s.free := (rel_touch Rel.refl fun _ h => h).frame .free (by decide)
@[simp] theorem touch_tx (s : State) (h : Hdl) : (touch s h).tx = s.tx := (rel_touch Rel.refl fun _ h => h).frame .tx (by decide)
@[simp] theorem touch_regs (s : State) (h : Hdl) : (touch s h).regs = s.regs := (rel_touch Rel.refl fun _ h => h).frame .regs (by decide)
@[simp] theorem touch_counts (s : State) (h : Hdl) : (touch s h).counts = s.counts := (rel_touch Rel.refl fun _ h => h).frame .counts (by decide)
@[simp] theorem touch_banks (s : State) (h : Hdl) : (touch s h).banks = s.banks := (rel_touch Rel.refl fun _ h => h).frame .banks (by decide)
@[simp] theorem touch_icu (s : State) (h : Hdl) : (touch s h).icu = s.icu := (rel_touch Rel.refl fun _ h => h).frame .icu (by decide)
@[simp] theorem touch_shelf (s : State) (h : Hdl) : (touch s h).shelf = s.shelf := (rel_touch Rel.refl fun _ h => h).frame .shelf (by decide)
@[simp] theorem touch_num (s : State) (h : Hdl) : (touch s h).num = s.num := (rel_touch Rel.refl fun _ h => h).frame .num (by decide)
@[simp] theorem touch_snd (s : State) (h : Hdl) : (touch s h).snd = s.snd := (rel_touch Rel.refl fun _ h => h).frame .snd (by decide)
@[simp] theorem touch_slv (s : State) (h : Hdl) : (touch s h).slv = s.slv := (rel_touch Rel.refl fun _ h => h).frame .slv (by decide)
@[simp] theorem touch_upd (s : State) (h : Hdl) : (touch s h).upd = s.upd := (rel_touch Rel.refl fun _ h => h).frame .upd (by decide)
@[simp] theorem touch_clf (s : State) (h : Hdl) : (touch s h).clf = s.clf := (rel_touch Rel.refl fun _ h => h).frame .clf (by decide)
@[simp] theorem touch_lsh (s : State) (h : Hdl) : (touch s h).lsh = s.lsh := (rel_touch Rel.refl fun _ h => h).frame .lsh (by decide)
@[simp] theorem touch_shg (s : State) (h : Hdl) : (touch s h).shg = s.shg := (rel_touch Rel.refl fun _ h => h).frame .shg (by decide)
@[simp] theorem touch_swl (s : State) (h : Hdl) : (touch s h).swl = s.swl := (rel_touch Rel.refl fun _ h => h).frame .swl (by decide)
@[simp] theorem touch_ofs (s : State) (h : Hdl) : (touch s h).ofs = s.ofs := (rel_touch Rel.refl fun _ h => h).frame .ofs (by decide)
@[simp] theorem touch_quay (s : State) (h : Hdl) : (touch s h).quay = s.quay := (rel_touch Rel.refl fun _ h => h).frame .quay (by decide)
@[simp] theorem touch_eth (s : State) (h : Hdl) : (touch s h).eth = s.eth := (rel_touch Rel.refl fun _ h => h).frame .eth (by decide)
@[simp] theorem touch_lh (s : State) (h : Hdl) : (touch s h).lh = s.lh := (rel_touch Rel.refl fun _ h => h).frame .lh (by decide)
@[simp] theorem touch_pwr (s : State) (h : Hdl) : (touch s h).pwr = s.pwr := (rel_touch Rel.refl fun _ h => h).frame .pwr (by decide)
@[simp] theorem touch_rst (s : State) (h : Hdl) : (touch s h).rst = s.rst := (rel_touch Rel.refl fun _ h => h).frame .rst (by decide)
@[simp] theorem touch_sec (s : State) (h : Hdl) : (touch s h).sec = s.sec := (rel_touch Rel.refl fun _ h => h).frame .sec (by decide)
@[simp] theorem touch_edge (s : State) (h : Hdl) : (touch s h).edge = s.edge := (rel_touch Rel.refl fun _ h => h).frame .edge (by decide)
@[simp] theorem touch_rd (s : State) (h : Hdl) (g : Fld) : rd (touch s h) g = rd s g := rd_congr (by simp) (by simp) g
@[simp] theorem touch_berthOf (s : State) (h : Hdl) (i4 : Nat) : berthOf (touch s h) i4 = berthOf s i4 := by simp [berthOf]
@[simp] theorem touch_now (s : State) (h : Hdl) : now (touch s h) = now s := by simp [now]

end Sys2Proof.Laws
end

