-- ==== Sys2Proof/Laws/Ecp.lean ====
section
/-!
SUPPORT. A host command that Quay admits: what its meaning is carried out on, and what its answer leaves.
-/
namespace Sys2Proof.Laws
open Sys2Proof Sys2Proof.Machine Sys2Proof.Safety

theorem arrive_rel (s : State) (h : EcpHdr) : Rel [.free, .counts, .quay, .swl] s (arrive s h) :=
  rel_noteCommand (rel_frameIn Rel.refl (by decide)) (by decide)

@[simp] theorem berthOf_modBerth (s : State) (b : Nat) (f : Berth → Berth) : berthOf (modBerth s b f) b = f (berthOf s b) :=
  fget_fmod_same _ _ _

theorem berthOf_modBerth_other (s : State) {b c : Nat} (f : Berth → Berth) (hb : b < 4) (hc : c < 4) (h : c ≠ b) :
    berthOf (modBerth s b f) c = berthOf s c := by
  simp [berthOf, modBerth, fget_fmod _ _ _ _ hb hc, h]

@[simp] theorem arrive_regs (s : State) (h : EcpHdr) : (arrive s h).regs = s.regs := (arrive_rel s h).frame .regs (by decide)
@[simp] theorem arrive_variant (s : State) (h : EcpHdr) : (arrive s h).variant = s.variant := (arrive_rel s h).variant
@[simp] theorem arrive_tx (s : State) (h : EcpHdr) : (arrive s h).tx = s.tx := (arrive_rel s h).frame .tx (by decide)
@[simp] theorem arrive_pending (s : State) (h : EcpHdr) : (arrive s h).pending = s.pending := (arrive_rel s h).pending
@[simp] theorem arrive_banks (s : State) (h : EcpHdr) : (arrive s h).banks = s.banks := (arrive_rel s h).frame .banks (by decide)
@[simp] theorem arrive_icu (s : State) (h : EcpHdr) : (arrive s h).icu = s.icu := (arrive_rel s h).frame .icu (by decide)
@[simp] theorem arrive_shelf (s : State) (h : EcpHdr) : (arrive s h).shelf = s.shelf := (arrive_rel s h).frame .shelf (by decide)
@[simp] theorem arrive_num (s : State) (h : EcpHdr) : (arrive s h).num = s.num := (arrive_rel s h).frame .num (by decide)
@[simp] theorem arrive_snd (s : State) (h : EcpHdr) : (arrive s h).snd = s.snd := (arrive_rel s h).frame .snd (by decide)
@[simp] theorem arrive_slv (s : State) (h : EcpHdr) : (arrive s h).slv = s.slv := (arrive_rel s h).frame .slv (by decide)
@[simp] theorem arrive_upd (s : State) (h : EcpHdr) : (arrive s h).upd = s.upd := (arrive_rel s h).frame .upd (by decide)
@[simp] theorem arrive_clf (s : State) (h : EcpHdr) : (arrive s h).clf = s.clf := (arrive_rel s h).frame .clf (by decide)
@[simp] theorem arrive_lsh (s : State) (h : EcpHdr) : (arrive s h).lsh = s.lsh := (arrive_rel s h).frame .lsh (by decide)
@[simp] theorem arrive_shg (s : State) (h : EcpHdr) : (arrive s h).shg = s.shg := (arrive_rel s h).frame .shg (by decide)
@[simp] theorem arrive_ofs (s : State) (h : EcpHdr) : (arrive s h).ofs = s.ofs := (arrive_rel s h).frame .ofs (by decide)
@[simp] theorem arrive_eth (s : State) (h : EcpHdr) : (arrive s h).eth = s.eth := (arrive_rel s h).frame .eth (by decide)
@[simp] theorem arrive_lh (s : State) (h : EcpHdr) : (arrive s h).lh = s.lh := (arrive_rel s h).frame .lh (by decide)
@[simp] theorem arrive_pwr (s : State) (h : EcpHdr) : (arrive s h).pwr = s.pwr := (arrive_rel s h).frame .pwr (by decide)
@[simp] theorem arrive_rst (s : State) (h : EcpHdr) : (arrive s h).rst = s.rst := (arrive_rel s h).frame .rst (by decide)
@[simp] theorem arrive_sec (s : State) (h : EcpHdr) : (arrive s h).sec = s.sec := (arrive_rel s h).frame .sec (by decide)
@[simp] theorem arrive_edge (s : State) (h : EcpHdr) : (arrive s h).edge = s.edge := (arrive_rel s h).frame .edge (by decide)
@[simp] theorem arrive_mem (s : State) (h : EcpHdr) : (arrive s h).mem = s.mem := by
  have h1 := (arrive_rel s h).frame .mem (by decide)
  have h2 := (arrive_rel s h).frame .bytes (by decide)
  simp only [Part.same] at h1 h2
  rw [← h2] at h1
  exact h1

@[simp] theorem arrive_rd (s : State) (h : EcpHdr) (f : Fld) : rd (arrive s h) f = rd s f := rd_congr (by simp) (by simp) f

/-- A field of the berth that the arrival of a command does not touch. -/
theorem arrive_field {α : Type} (s : State) (h : EcpHdr) (g : Berth → α)
    (h1 : ∀ (q : Berth) i p l, g { q with iface := i, peer := p, lastCmd := l, authed := true } = g q)
    (h2 : ∀ (q : Berth) e k sl, g { q with keyEpoch := e, keySlot := k, hostSalt := sl, nextKey := none, rekeyAsked := false } = g q) :
    g (berthOf (arrive s h) h.berth) = g (berthOf s h.berth) := by
  unfold arrive noteCommand
  extract_lets q t
  have ht : g (berthOf t h.berth) = g (berthOf s h.berth) := by
    unfold t
    rw [show berthOf (modBerth (frameIn s h.iface) h.berth _) h.berth = _ from fget_fmod_same _ _ _]
    exact h1 _ _ _ _
  clear_value t
  split
  · split
    · rw [show berthOf (modBerth (clearKeySlot t q.keySlot) h.berth _) h.berth = _ from fget_fmod_same _ _ _]
      exact (h2 _ _ _ _).trans ht
    · exact ht
  · exact ht

theorem arrive_other (s : State) (h : EcpHdr) {b : Nat} (hb : b < 4) (hh : h.berth < 4) (hne : b ≠ h.berth) :
    berthOf (arrive s h) b = berthOf s b := by
  have key : ∀ (t : State) (f : Berth → Berth), berthOf (modBerth t h.berth f) b = berthOf t b := fun t f => by
    simp [berthOf, modBerth, fget_fmod _ _ _ _ hh hb, hne]
  unfold arrive noteCommand
  extract_lets q t
  have ht : berthOf t b = berthOf s b := by
    unfold t; rw [key]; rfl
  clear_value t
  split
  · split
    · rw [key]; exact ht
    · exact ht
  · exact ht

theorem arrive_quay (s : State) (h : EcpHdr) : { (arrive s h).quay with berths := s.quay.berths } = s.quay := by
  unfold arrive noteCommand
  dsimp only
  split
  · split <;> rfl
  · rfl

theorem arrive_swl (s : State) (h : EcpHdr) : (arrive s h).swl = { s.swl with slots := slotsAfter s h } := by
  unfold arrive noteCommand slotsAfter
  show State.swl (match (berthOf s h.berth).nextKey with
    | some (e, slot, salt) => _
    | none => _) = _
  split
  · rename_i heq; try rw [heq]
    try dsimp only
    split <;> rfl
  · rename_i heq; try rw [heq]
    rfl

theorem arrive_counts (s : State) (h : EcpHdr) : (arrive s h).counts = (frameIn s h.iface).counts := by
  have : Rel [.quay, .swl] (frameIn s h.iface) (arrive s h) := rel_noteCommand Rel.refl (by decide)
  exact this.frame .counts (by decide)

theorem counts_count (s : State) (id n j : Nat) :
    mgetD (count s id n).counts j 0 = if j = id then mgetD s.counts id 0 + BitVec.ofNat 64 n else mgetD s.counts j 0 := by
  simp [count]

theorem counts_countFrame (s : State) (i : Nat) (sent : Bool) (n j : Nat) (h0 : j ≠ 0x1B00 + 0x10 * i + b2n sent)
    (h1 : j ≠ 0x1B06 + 0x10 * i + b2n sent) : mgetD (countFrame s i sent n).counts j 0 = mgetD s.counts j 0 := by
  unfold countFrame
  rw [counts_count, if_neg h1, counts_count, if_neg h0]

theorem arrive_coreServes (s : State) (h : EcpHdr) (k : Nat) : coreServes (arrive s h) k = coreServes s k := by
  unfold coreServes coreUp coreOf inReset; simp

theorem arrive_check (s : State) (h : EcpHdr) (op : Nat) (cores : List Nat) :
    intakeCheck (arrive s h) h op cores = intakeCheck s h op cores := by
  have h1 := arrive_field s h Berth.inflight (fun _ _ _ _ => rfl) (fun _ _ _ _ => rfl)
  have h2 := arrive_field s h Berth.admin (fun _ _ _ _ => rfl) (fun _ _ _ _ => rfl)
  have hc : coreServes (arrive s h) = coreServes s := funext (arrive_coreServes s h)
  unfold intakeCheck
  rw [hc]
  simp [h1, h2, outOfService, rdb, busyTicks, rd1]

theorem admitted_accepted {s : State} {h : EcpHdr} {op : Nat} {cores : List Nat} (ha : admitted s h op cores = true) :
    accepted s h = true := by
  simp only [admitted, Bool.and_eq_true] at ha
  exact ha.1

theorem accepted_open {s : State} {h : EcpHdr} (ha : accepted s h = true) : (berthOf s h.berth).state = 1 := by
  simp only [accepted, Bool.and_eq_true, decide_eq_true_eq] at ha
  exact ha.1.1.2

theorem accepted_berth {s : State} {h : EcpHdr} (ha : accepted s h = true) : h.berth < 4 := by
  simp only [accepted, Bool.and_eq_true, decide_eq_true_eq] at ha
  exact ha.1.1.1.1.1.2

/-- What an accepted packet is carried out on. -/
theorem ecpWith_accepted {s : State} {h : EcpHdr} {op : Nat} (ha : accepted s h = true) (run : State → State) :
    ecpWith s h op run = run (arrive s h) := by
  simp only [accepted, Bool.and_eq_true, decide_eq_true_eq] at ha
  obtain ⟨⟨⟨⟨⟨⟨⟨⟨-, h0⟩, h1⟩, h2⟩, h3⟩, h4⟩, h5⟩, h6⟩, h7⟩ := ha
  have hv : seqView (berthOf (arrive s h) h.berth) h.seq = .fresh :=
    (arrive_field s h (fun q => seqView q h.seq) (fun _ _ _ _ => rfl) (fun _ _ _ _ => rfl)).trans h7
  have hs : authOk (frameIn s h.iface) (berthOf (frameIn s h.iface) h.berth) h = true := h6
  unfold ecpWith ecpSteps
  rw [h0]
  rw [if_neg (by simp), if_neg (by simpa using h1), if_neg (by omega), if_neg (show ¬ (frameIn s h.iface).sec.life = 4 from h3),
    if_neg (show ¬ h.epoch ≠ (frameIn s h.iface).sec.epoch.toNat from fun x => x h4),
    if_neg (show ¬ (berthOf (frameIn s h.iface) h.berth).state ≠ 1 from fun x => x h5), if_neg (by simp [hs])]
  show (match seqView (berthOf (arrive s h) h.berth) h.seq with
    | .below => _
    | .fresh => _
    | .seen => _) = _
  rw [hv]
  rfl

/-- A command that Quay admits is carried out and concluded. -/
theorem ecpRun_admitted {s : State} {h : EcpHdr} {op : Nat} {cores : List Nat} (ha : admitted s h op cores = true)
    (body : State → State × Ans) :
    ecpRun s h op cores body = conclude (body (arrive s h)).1 h op (body (arrive s h)).2 := by
  simp only [admitted, Bool.and_eq_true, Option.isNone_iff_eq_none] at ha
  unfold ecpRun
  rw [ecpWith_accepted ha.1]
  unfold runAdmitted
  rw [arrive_check, ha.2]

/-! ### A final status -/

theorem seqView_seen {q : Berth} {seq hi : W32} (hh : q.high = some hi) (h1 : ¬ ((seq - hi).toNat ≠ 0 ∧ (seq - hi).toNat < 2 ^ 31))
    (h2 : (hi - seq).toNat < 1024) (hm : seq ∈ q.seen) : seqView q seq = .seen := by
  unfold seqView
  rw [hh]
  dsimp only
  rw [if_neg (by simpa using h1), if_neg (by omega), if_pos hm]

theorem seqView_accept (q : Berth) (seq : W32) (hf : seqView q seq = .fresh) : seqView (acceptSeq q seq) seq = .seen := by
  have self : ∀ l : List W32, seqView { q with high := some seq, seen := (seq :: l).filter fun x => (seq - x).toNat < 1024 } seq = .seen :=
    fun l => seqView_seen rfl (by simp) (by simp) (List.mem_filter.2 ⟨List.mem_cons_self .., by rw [BitVec.sub_self]; decide⟩)
  unfold acceptSeq
  cases hh : q.high with
  | none => exact self _
  | some hi =>
    by_cases h1 : (seq - hi).toNat ≠ 0 ∧ (seq - hi).toNat < 2 ^ 31
    · have : (if (decide ((seq - hi).toNat ≠ 0) && decide ((seq - hi).toNat < 2 ^ 31)) = true then seq else hi) = seq :=
        if_pos (by simpa using h1)
      simp only [this]
      exact self _
    · have : (if (decide ((seq - hi).toNat ≠ 0) && decide ((seq - hi).toNat < 2 ^ 31)) = true then seq else hi) = hi :=
        if_neg (by simpa using h1)
      simp only [this]
      unfold seqView at hf
      rw [hh] at hf
      dsimp only at hf
      rw [if_neg (by simpa using h1)] at hf
      split at hf
      · cases hf
      · rename_i h2
        exact seqView_seen rfl h1 (by omega) (List.mem_filter.2 ⟨List.mem_cons_self .., by rw [decide_eq_true_eq]; omega⟩)

theorem emit_counts_status (s : State) (i p o : Nat) (q : W32) (b : Nat) (au : Bool) (st r : Nat) (f : Bool) (d : Nat) (data : List Byte)
    (j : Nat) (h0 : j ≠ 0x1B01 + 0x10 * i) (h1 : j ≠ 0x1B07 + 0x10 * i) :
    mgetD (emit s (.status i p o q b au st r f d data)).counts j 0 = mgetD s.counts j 0 :=
  counts_countFrame s i true _ j (by simp [b2n]; omega) (by simp [b2n]; omega)

@[simp] theorem emit_tx (s : State) (x : Tx) : (emit s x).tx = x :: s.tx := by
  unfold emit
  dsimp only
  split <;> simp

theorem sendStatus_counts (s : State) (i p b o : Nat) (q : W32) (st r : Nat) (f : Bool) (d : Nat) (data : List Byte) (j : Nat)
    (h0 : j ≠ 0x1B01 + 0x10 * i) (h1 : j ≠ 0x1B07 + 0x10 * i) :
    mgetD (sendStatus s i p b o q st r f d data).counts j 0 =
      mgetD s.counts j 0 + if j = 0x1C01 + 0x10 * b then 1 else 0 := by
  unfold sendStatus
  rw [counts_count]
  split
  · subst_vars
    rw [emit_counts_status _ _ _ _ _ _ _ _ _ _ _ _ _ h0 h1]; rfl
  · rw [emit_counts_status _ _ _ _ _ _ _ _ _ _ _ _ _ h0 h1]; simp

theorem conclude_fin_eq (u : State) (h : EcpHdr) (op st d : Nat) (data : List Byte) : conclude u h op (.fin st d data) =
    sendStatus (keepStatus (count (modBerth u h.berth fun q => acceptSeq q h.seq) (0x1C00 + 0x10 * h.berth) 1) h.berth op h.seq st d data)
      h.iface h.peer h.berth op h.seq st 0 true d data := rfl

@[simp] theorem conclude_pending (u : State) (h : EcpHdr) (op st d : Nat) (data : List Byte) :
    (conclude u h op (.fin st d data)).pending = u.pending := by rw [conclude_fin_eq]; simp
@[simp] theorem conclude_variant (u : State) (h : EcpHdr) (op st d : Nat) (data : List Byte) :
    (conclude u h op (.fin st d data)).variant = u.variant := by rw [conclude_fin_eq]; simp
@[simp] theorem conclude_free (u : State) (h : EcpHdr) (op st d : Nat) (data : List Byte) :
    (conclude u h op (.fin st d data)).free = u.free := by rw [conclude_fin_eq]; simp
@[simp] theorem conclude_regs (u : State) (h : EcpHdr) (op st d : Nat) (data : List Byte) :
    (conclude u h op (.fin st d data)).regs = u.regs := by rw [conclude_fin_eq]; simp
@[simp] theorem conclude_banks (u : State) (h : EcpHdr) (op st d : Nat) (data : List Byte) :
    (conclude u h op (.fin st d data)).banks = u.banks := by rw [conclude_fin_eq]; simp
@[simp] theorem conclude_icu (u : State) (h : EcpHdr) (op st d : Nat) (data : List Byte) :
    (conclude u h op (.fin st d data)).icu = u.icu := by rw [conclude_fin_eq]; simp
@[simp] theorem conclude_shelf (u : State) (h : EcpHdr) (op st d : Nat) (data : List Byte) :
    (conclude u h op (.fin st d data)).shelf = u.shelf := by rw [conclude_fin_eq]; simp
@[simp] theorem conclude_num (u : State) (h : EcpHdr) (op st d : Nat) (data : List Byte) :
    (conclude u h op (.fin st d data)).num = u.num := by rw [conclude_fin_eq]; simp
@[simp] theorem conclude_snd (u : State) (h : EcpHdr) (op st d : Nat) (data : List Byte) :
    (conclude u h op (.fin st d data)).snd = u.snd := by rw [conclude_fin_eq]; simp
@[simp] theorem conclude_slv (u : State) (h : EcpHdr) (op st d : Nat) (data : List Byte) :
    (conclude u h op (.fin st d data)).slv = u.slv := by rw [conclude_fin_eq]; simp
@[simp] theorem conclude_upd (u : State) (h : EcpHdr) (op st d : Nat) (data : List Byte) :
    (conclude u h op (.fin st d data)).upd = u.upd := by rw [conclude_fin_eq]; simp
@[simp] theorem conclude_mem (u : State) (h : EcpHdr) (op st d : Nat) (data : List Byte) :
    (conclude u h op (.fin st d data)).mem = u.mem := by rw [conclude_fin_eq]; simp
@[simp] theorem conclude_clf (u : State) (h : EcpHdr) (op st d : Nat) (data : List Byte) :
    (conclude u h op (.fin st d data)).clf = u.clf := by rw [conclude_fin_eq]; simp
@[simp] theorem conclude_lsh (u : State) (h : EcpHdr) (op st d : Nat) (data : List Byte) :
    (conclude u h op (.fin st d data)).lsh = u.lsh := by rw [conclude_fin_eq]; simp
@[simp] theorem conclude_shg (u : State) (h : EcpHdr) (op st d : Nat) (data : List Byte) :
    (conclude u h op (.fin st d data)).shg = u.shg := by rw [conclude_fin_eq]; simp
@[simp] theorem conclude_swl (u : State) (h : EcpHdr) (op st d : Nat) (data : List Byte) :
    (conclude u h op (.fin st d data)).swl = u.swl := by rw [conclude_fin_eq]; simp
@[simp] theorem conclude_ofs (u : State) (h : EcpHdr) (op st d : Nat) (data : List Byte) :
    (conclude u h op (.fin st d data)).ofs = u.ofs := by rw [conclude_fin_eq]; simp
@[simp] theorem conclude_eth (u : State) (h : EcpHdr) (op st d : Nat) (data : List Byte) :
    (conclude u h op (.fin st d data)).eth = u.eth := by rw [conclude_fin_eq]; simp
@[simp] theorem conclude_lh (u : State) (h : EcpHdr) (op st d : Nat) (data : List Byte) :
    (conclude u h op (.fin st d data)).lh = u.lh := by rw [conclude_fin_eq]; simp
@[simp] theorem conclude_pwr (u : State) (h : EcpHdr) (op st d : Nat) (data : List Byte) :
    (conclude u h op (.fin st d data)).pwr = u.pwr := by rw [conclude_fin_eq]; simp
@[simp] theorem conclude_rst (u : State) (h : EcpHdr) (op st d : Nat) (data : List Byte) :
    (conclude u h op (.fin st d data)).rst = u.rst := by rw [conclude_fin_eq]; simp
@[simp] theorem conclude_sec (u : State) (h : EcpHdr) (op st d : Nat) (data : List Byte) :
    (conclude u h op (.fin st d data)).sec = u.sec := by rw [conclude_fin_eq]; simp
@[simp] theorem conclude_edge (u : State) (h : EcpHdr) (op st d : Nat) (data : List Byte) :
    (conclude u h op (.fin st d data)).edge = u.edge := by rw [conclude_fin_eq]; simp

theorem conclude_fin_rel {ps : List Part} (u : State) (h : EcpHdr) (op st d : Nat) (data : List Byte) (hp : Sub [.tx, .counts, .quay] ps) :
    Rel ps u (conclude u h op (.fin st d data)) := by
  rw [conclude_fin_eq]
  exact rel_sendStatus (rel_keepStatus (rel_count (rel_modBerth Rel.refl (Sub.trans (by decide) hp)) (Sub.trans (by decide) hp))
    (Sub.trans (by decide) hp)) (Sub.trans (by decide) hp)

theorem sameWork_refl (q : Berth) : sameWork q q := rfl

theorem sameWork_trans {p q r : Berth} (h : sameWork p q) (h' : sameWork q r) : sameWork p r := by
  unfold sameWork at *
  rw [← h']at h
  exact h

theorem sameWork_arrive (s : State) (h : EcpHdr) : sameWork (berthOf s h.berth) (berthOf (arrive s h) h.berth) := by
  unfold arrive noteCommand
  extract_lets q t
  have ht : sameWork (berthOf s h.berth) (berthOf t h.berth) := by
    unfold t; rw [berthOf_modBerth]; rfl
  clear_value t
  split
  · split
    · rw [berthOf_modBerth]; exact ht
    · exact ht
  · exact ht

/-- What a final answer leaves, on a state that a meaning made of the arrival. -/
theorem conclude_with {s u : State} {h : EcpHdr} {op : Nat} (ha : accepted s h = true)
    {f : Berth → Berth} {ids : List Nat} {out : List Tx}
    (hb : berthOf u h.berth = f (berthOf (arrive s h) h.berth))
    (hf : ∀ q, (f q).high = q.high ∧ (f q).seen = q.seen) (hw : ∀ q r, sameWork q r → sameWork (f q) (f r))
    (ho : ∀ b, b < 4 → b ≠ h.berth → berthOf u b = berthOf (arrive s h) b)
    (hq : { u.quay with berths := (arrive s h).quay.berths } = (arrive s h).quay) (htx : u.tx = out ++ s.tx)
    (hids : 0x1C00 + 0x10 * h.berth ∉ ids ∧ 0x1C01 + 0x10 * h.berth ∉ ids)
    (hc : ∀ id, id ∉ ids → id ≠ 0x1B01 + 0x10 * h.iface → id ≠ 0x1B07 + 0x10 * h.iface →
      mgetD u.counts id 0 = mgetD (arrive s h).counts id 0) (st d : Nat) (data : List Byte) :
    AnsweredWith f ids out s (conclude u h op (.fin st d data)) h op st d data := by
  simp only [accepted, Bool.and_eq_true, decide_eq_true_eq] at ha
  obtain ⟨⟨⟨⟨⟨⟨⟨⟨hi, h0⟩, h1⟩, h2⟩, h3⟩, h4⟩, h5⟩, h6⟩, h7⟩ := ha
  have he : berthOf (conclude u h op (.fin st d data)) h.berth =
      (if data.length ≤ 256 then
        { acceptSeq (f (berthOf (arrive s h) h.berth)) h.seq with
          cache := (⟨h.seq, op, st, 0, d, data⟩ :: (acceptSeq (f (berthOf (arrive s h) h.berth)) h.seq).cache).take 1024 }
      else acceptSeq (f (berthOf (arrive s h) h.berth)) h.seq) := by
    rw [← hb, conclude_fin_eq]
    unfold keepStatus
    split <;> simp [*]
  have hv : seqView (f (berthOf (arrive s h) h.berth)) h.seq = .fresh := by
    have := (arrive_field s h (fun q => seqView q h.seq) (fun _ _ _ _ => rfl) (fun _ _ _ _ => rfl)).trans h7
    rw [← this]
    unfold seqView
    rw [(hf _).1, (hf _).2]
  have hk : ∀ id, mgetD (keepStatus (count (modBerth u h.berth fun q => acceptSeq q h.seq) (0x1C00 + 0x10 * h.berth) 1)
      h.berth op h.seq st d data).counts id 0 = mgetD u.counts id 0 + if id = 0x1C00 + 0x10 * h.berth then 1 else 0 := fun id => by
    rw [keepStatus_counts, counts_count]
    split
    · subst_vars; simp
    · simp
  have hd : ∀ id, id ∉ ids → id ≠ 0x1B00 + 0x10 * h.iface → id ≠ 0x1B06 + 0x10 * h.iface → id ≠ 0x1B01 + 0x10 * h.iface →
      id ≠ 0x1B07 + 0x10 * h.iface → mgetD u.counts id 0 = mgetD s.counts id 0 := fun id ei e0 e1 e2 e3 => by
    rw [hc id ei e2 e3, arrive_counts]
    exact (counts_countFrame _ _ _ _ _ (by simpa [b2n] using e0) (by simpa [b2n] using e1))
  refine ⟨?_, ?_, ?_, ?_, ?_, ?_, ?_, ?_, ?_⟩
  · rw [conclude_fin_eq]
    simp [sendStatus, htx]
  · rw [he]
    split
    · exact seqView_accept _ _ hv
    · exact seqView_accept _ _ hv
  · intro hl
    rw [he, if_pos hl]
    rfl
  · refine sameWork_trans (hw _ _ (sameWork_arrive s h)) ?_
    rw [he]
    split <;> rfl
  · intro b hb4 hne
    rw [← arrive_other s h hb4 h2 hne, ← ho b hb4 hne, conclude_fin_eq]
    unfold keepStatus
    split <;> simp [berthOf_modBerth_other _ _ h2 hb4 hne]
  · rw [← arrive_quay s h]
    conv_rhs => rw [← hq]
    rw [conclude_fin_eq]
    unfold keepStatus
    split <;> simp [modBerth]
  · rw [conclude_fin_eq, sendStatus_counts _ _ _ _ _ _ _ _ _ _ _ _ (by omega) (by omega), hk,
      hd _ hids.1 (by omega) (by omega) (by omega) (by omega), if_pos rfl, if_neg (by omega)]
    simp
  · rw [conclude_fin_eq, sendStatus_counts _ _ _ _ _ _ _ _ _ _ _ _ (by omega) (by omega), hk,
      hd _ hids.2 (by omega) (by omega) (by omega) (by omega), if_pos rfl, if_neg (by omega)]
    simp
  · intro id hid hii
    simp only [ecpCounts, List.mem_cons, List.not_mem_nil, or_false, not_or] at hid
    obtain ⟨e0, e1, e2, e3, e4, e5⟩ := hid
    rw [conclude_fin_eq, sendStatus_counts _ _ _ _ _ _ _ _ _ _ _ _ e1 e3, hk, hd _ hii e0 e2 e1 e3, if_neg e4, if_neg e5]
    simp

/-- A command that Quay admits and whose meaning answers at once, changing nothing of Quay, Seawall, the counts and the outputs. -/
theorem answered_of {s : State} {h : EcpHdr} {op : Nat} {cores : List Nat} (ha : admitted s h op cores = true)
    {body : State → State × Ans} {st d : Nat} {data : List Byte} {ps : List Part} (hb : (body (arrive s h)).2 = .fin st d data)
    (hr : Rel ps (arrive s h) (body (arrive s h)).1) (hps : Part.quay ∉ ps ∧ Part.swl ∉ ps ∧ Part.tx ∉ ps ∧ Part.counts ∉ ps) :
    Answered s (ecpRun s h op cores body) h op st d data := by
  rw [ecpRun_admitted ha, hb]
  have hq : (body (arrive s h)).1.quay = (arrive s h).quay := hr.frame .quay hps.1
  have hbe : ∀ b, berthOf (body (arrive s h)).1 b = berthOf (arrive s h) b := fun b => by unfold berthOf; rw [hq]
  refine ⟨conclude_with (admitted_accepted ha) (hbe _) (fun _ => ⟨rfl, rfl⟩) (fun _ _ h => h) (fun b _ _ => hbe b) (by rw [hq]) ?_ (by simp)
    (fun id _ _ _ => ?_) st d data, ?_⟩
  · rw [← arrive_tx s h]; exact hr.frame .tx hps.2.2.1
  · rw [show (body (arrive s h)).1.counts = _ from hr.frame .counts hps.2.2.2]
  · rw [conclude_swl, ← arrive_swl]; exact hr.frame .swl hps.2.1

/-- The frame of such a command, when its meaning changes the parts `ps`. -/
theorem answered_frame {s : State} {h : EcpHdr} {op : Nat} {cores : List Nat} (ha : admitted s h op cores = true)
    {body : State → State × Ans} {st d : Nat} {data : List Byte} {ps : List Part} (hb : (body (arrive s h)).2 = .fin st d data)
    (hr : Rel ps (arrive s h) (body (arrive s h)).1) : Frame (ecpParts ++ ps) s (ecpRun s h op cores body) := by
  rw [ecpRun_admitted ha, hb]
  have sub : ∀ {qs : List Part}, Sub qs ecpParts → Sub qs (ecpParts ++ ps) := fun hs p hp => List.mem_append_left _ (hs p hp)
  have h1 : Rel (ecpParts ++ ps) s (arrive s h) :=
    rel_noteCommand (rel_frameIn Rel.refl (sub (by decide))) (sub (by decide))
  have h2 : Frame (ecpParts ++ ps) (arrive s h) (body (arrive s h)).1 := fun p hp =>
    hr.frame p fun hx => hp (List.mem_append_right _ hx)
  have h3 := (conclude_fin_rel (body (arrive s h)).1 h op st d data (sub (by decide) : Sub [.tx, .counts, .quay] _)).frame
  exact fun p hp => Part.same_trans (Part.same_trans (h1.frame p hp) (h2 p hp)) (h3 p hp)

end Sys2Proof.Laws
end

