-- ==== Sys2Proof/Tests/Slice0.lean ====
section
/-!
SUPPORT. Tests: states that meet the hypotheses of the statements, clause by clause; ill-formed commands that WellFormed refuses; worked
examples of the spec.
-/
set_option Elab.async false
namespace Sys2Proof.Tests
open Sys2Proof Sys2Proof.Machine Sys2Proof.Safety

/-! ### States of the witnesses -/

def h0 : EcpHdr := { iface := 0, peer := 7, version := 1, berth := 0, plane := 1, epoch := 0, seq := 5, auth := true, keyEpoch := 0, ivSalt := 0x1234, tagOk := true, extra := false }
def hdr (plane : Nat) : EcpHdr := { h0 with plane := plane }
def key0 : KeySlot := { KeySlot.empty with state := 1, owner := 0, dir := 3, salt := 0x77 }
/-- serving, open berths 0 -/
def sOpen : State :=
  let s := State.reset
  let s := { s with rst := { s.rst with serving := true, running := true, stage := 8 }, lh := { s.lh with tick := 100 } }
  let s := modBerth s 0 fun q => { q with state := 1, keyEpoch := 0, keySlot := 0, hostSalt := 0x1234, authed := true, high := some 4, seen := [4], iface := 0, peer := 7, admin := true, admitted := some 9 }
  let s := { s with swl := { s.swl with slots := [(0, key0)], seeded := true } }
  s

/-- A berth that keeps an answer and has a command in flight. -/
def sKept : State := modBerth sOpen 0 fun q => { q with seen := [4, 3], inflight := [(3, 0x0301)], cache := [⟨4,0x0204,0,0,0,[1]⟩] }

/-- An object of one page in a tier. -/
def obj1 (tier : Nat) : Obj := ⟨pageSize, 1, tier, 0, [], false, false, false, 0, [], 0, 0⟩
/-- Berth 0 with one object, number 1, in T1. -/
def sObj : State := { sOpen with mem := { sOpen.mem with objects := [(1, obj1 1)], nextObj := fset sOpen.mem.nextObj 0 2 } }
/-- Its handle. -/
def hObj1 : Hdl := mkHandle 0 1

/-- Berth 0 with two events queued and three lost. -/
def sEv : State := modBerth sOpen 0 fun q => { q with events := [⟨7, [1]⟩, ⟨8, [2]⟩], evSeq := 9, evLost := 3 }
/-- A closed berth with an admitted identity, and the HELLO that opens it. -/
def sAdm : State := modBerth sOpen 0 fun q => { q with state := 0, admitted := some (Config.sha3 [1]), events := [⟨7, [1]⟩] }
/-- A berth that has kept its answer to HELLO. -/
def sHello : State := modBerth sOpen 0 fun q => { q with authed := false, hello := some (helloPayload 1 0 [1] [2] [3], ⟨1, 0x0201, 0, 0, 0, [9]⟩) }

/-- Berth 0 holds a submission for a gap since tick 1, and has a lease of 50 ticks. -/
def sHold : State := modBerth (wr { sEv with lh := { sEv.lh with tick := 1000000 } } CMD_LEASE 50) 0 fun q =>
  { q with held := [⟨4, 0, 7, none, 9, [[]], 1⟩], inflight := [(4, 0x0401)], lastCmd := 20, evTick := 1 }
/-- The same berth detached. -/
def sDet : State := modBerth sHold 0 fun q => { q with state := 2 }

/-- Berth 0 with quotas and room in every tier. -/
def sRoom : State := wrs { sObj with rst := { sObj.rst with serving := true } }
  [(HBR_PART_pages.at 0, 20), (PGR_T2_QUOTA_pages.at 0, 100), (PGR_T3_QUOTA_pages.at 0, 100), (PGR_SPILL_pages.at 0, 0), (DDR_STAT_in_service, 0xFFF), (DDR_CAP_cap, 0xFFFFFF)]
/-- The same with a freed object. -/
def sFreed : State := modObj sRoom 0 1 fun o => { o with freeing := true }

/-- Two objects of berth 0 in T2: 1 ordinary, 2 coded. -/
def sTwo : State := { sRoom with mem := { sRoom.mem with
  objects := [(1, obj1 2), (2, { obj1 2 with coded := true })], bytes := [(objBase 0 1, 7), (objBase 0 1 + 100, 9)] } }
/-- The same with its first object dropped, and with an uncorrectable codeword. -/
def sDrop : State := modObj sTwo 0 1 fun o => { o with dropped := true }
def sBad : State := { sTwo with mem := { sTwo.mem with bad := [objBase 0 1 + 64] } }

/-- A NOP descriptor, an all-gather with no group, and a state whose stream expects position 10. -/
def nopDesc : List Byte := toLe 1 0x3F ++ zeros 127
def sPos : State := modBerth sTwo 0 fun q => { q with pos := 10 }
/-- A group of one module, a state that holds it as group 1 of berth 0, and a BARRIER of it on channel 3. -/
def grp1 : Group := { entry := zeros 2 ++ [1, 0, 1] ++ zeros 59, members := [0], cseq := 0, close := [], diam := 0 }
def sGrp : State := wr { sPos with lsh := { sPos.lsh with live := [(1, grp1)] } } CLF_COORD_valid 1
def barrier : List Byte := [0x36, 0, 1, 0] ++ zeros 60

/-- A halted stream with two descriptors, a held packet, work on channel 3. -/
def sHalt : State :=
  let s := modBerth sGrp 0 fun q => { q with held := [⟨3, 0, 7, none, 15, [nopDesc], 90⟩, ⟨2, 0, 7, some 5, 15, [barrier], 90⟩], inflight := [(3, 0x0401), (2, 0x0402)] }
  let s := modChan s 0 3 fun c => { c with queue := [barrier], pos := 7 }
  { s with shelf := { s.shelf with
      streams := fset s.shelf.streams 0 [nopDesc, nopDesc], halted := fset s.shelf.halted 0 true, rejected := fset s.shelf.rejected 0 (some nopDesc) } }
/-- A descriptor that writes object 2, and objects with policy 0. -/
def castDesc : List Byte := toLe 1 0x08 ++ zeros 7 ++ toLe 6 (mkHandle 0 1).toNat ++ zeros 12 ++ toLe 6 (mkHandle 0 2).toNat ++ zeros 96
def sSeg : State := sTwo

/-- A state with coordinates, and member lists of group 7 (this module alone) in object 1. -/
def sMem : State := wrs sHalt [(CLF_DIMS_sx, 4), (CLF_DIMS_sy, 1), (CLF_DIMS_sz, 1)]
/-- Entries of group 7 of berth 0 with one member: data axis, close axis, staged. -/
def entry7 (axis staged : Nat) : List Byte := toLe 1 (axis + 32 * staged) ++ [0, 7, 0, 1] ++ zeros 11 ++ toLe 6 (mkHandle 0 1).toNat ++ zeros 42
def sZero : State := { sMem with mem := { sMem.mem with bytes := [] } }

/-- Two large objects of berth 0 in T2, and a descriptor of an AdamW-like factor slot: kind 0, op 1, d 4, P present. -/
def bigObj (pages : Nat) : Obj := { obj1 2 with size := pages * pageSize, pages := pages }
def sBig : State := { sRoom with mem := { sRoom.mem with objects := [(1, bigObj 4), (2, bigObj 4), (3, bigObj 4), (4, bigObj 4)] } }
def sSlot : State := { sBig with snd := { sBig.snd with slots := [(0, FSlot.fresh 0), (1, FSlot.fresh 1)] } }
/-- A factor-slot descriptor of kind 0, op 0, dimension 4, block code 0, β 0.5, F in object 1. -/
def fsDesc (op : Nat) : List Byte := toLe 1 4 ++ toLe 1 op ++ zeros 2 ++ toLe 4 4 ++ zeros 4 ++ toLe 4 0x3F000000 ++ zeros 4 ++ toLe 6 (mkHandle 0 1).toNat ++ zeros 38
/-- The same of op 1 that owns P in object 2: its first write creates the record. -/
def fsDescP : List Byte :=
  toLe 1 4 ++ toLe 1 1 ++ zeros 2 ++ toLe 4 4 ++ zeros 4 ++ toLe 4 0x3F000000 ++ zeros 4 ++ toLe 6 (mkHandle 0 1).toNat ++ toLe 6 (mkHandle 0 2).toNat ++ zeros 32
/-- A slot whose refresh is in progress, and the state that holds it. -/
def slotB : FSlot := { FSlot.fresh 0 with refresh := some ⟨5, fsDesc 0, 0, [0], false, none, 0, 0, 0, 0, false⟩ }
def sSlotB : State := { sBig with snd := { sBig.snd with slots := [(0, slotB)] } }
/-- Every slot is taken. -/
theorem mget_row (x : FSlot) (n a i : Nat) (h1 : a ≤ i) (h2 : i < a + n) :
    (mget ((List.range' a n).map fun k => (k, x)) i).isSome = true := by
  induction n generalizing a with
  | zero => omega
  | succ n ih =>
    simp only [List.range'_succ, List.map_cons, mget]
    split
    · rfl
    · exact ih (a + 1) (by omega) (by omega)
def sNoSlot : State := { sBig with snd := { sBig.snd with slots := (List.range' 0 4096).map fun k => (k, FSlot.fresh 1) } }

/-- An enabled integer-free channel descriptor (constant 0.5), a program of one instruction, a shard descriptor of a program class. -/
def chDesc : List Byte := toLe 1 0x20 ++ zeros 3 ++ toLe 4 0x3F000000 ++ zeros 24
def shDesc : List Byte := toLe 1 1 ++ toLe 1 0 ++ zeros 2 ++ [0, 2, 0xFF, 0xFF] ++ zeros 8 ++ toLe 4 2 ++ toLe 4 8
  ++ toLe 6 (mkHandle 0 1).toNat ++ toLe 6 (mkHandle 0 2).toNat ++ toLe 6 (mkHandle 0 3).toNat ++ zeros 22
def chan0 : Chan := ⟨chDesc, some 0x3F000000, false, 0⟩
/-- A registered shard 5 of berth 0. -/
def shard5 : Shard := ⟨0, shDesc, none, 0, false, 3, 0, false⟩
def sUpd : State := { sBig with upd := { sBig.upd with progs := [(0, ⟨0, [0x01000000]⟩)], chans := [(2, chan0)] } }
def sShard : State := { sUpd with upd := { sUpd.upd with shards := [(5, shard5)] } }
/-- The same with an image of a version slot in object 4. -/
def sImage : State := { sShard with mem := { sShard.mem with bytes := (List.range 192).map fun i => (objBase 0 4 + i, 7) } }

/-- Parameters of a session of sites 1 and 2, berth 0, H = 8; the same joined through donor 2. -/
def ofsP : OfsParams := ⟨5, 0, 1, 6, 8, 1, 9, 0, 0, 0, 0, 0, 0, 4791, [⟨2, 0x22, 0x23, 0x44, 100⟩], 8, 1, 0, none⟩
def ofsJ : OfsParams := { ofsP with join := some (2, 0) }
/-- Seawall slot 8 holds the peer's key; a peer that is up under it; a session in local steps. -/
def key8 : KeySlot := { key0 with owner := 1, epoch := 3 }
def peer2 (s : State) : OfsPeer := { newPeer s ⟨2, 0x22, 0x23, 0x44, 100⟩ 1 1000 with key := some (8, 3), lastE0 := some 900, lastE1 := some 900 }
def sess0 (s : State) : Session :=
  { p := ofsP, phase := 1, round := 0, waitFrom := 0, settled := none, lastRekey := 0, changes := [], streams := [], peers := [(2, peer2 s)]
    recv := [], sending := [], storeT2 := 0, storeT3 := [], joinSeq := none, installed := [], lost := [] }
def sOfs : State :=
  let s := wrs sShard [(OFS_CTL_run, 1)]
  let s := { s with swl := { s.swl with slots := [(0, key0), (8, key8)] } }
  { s with ofs := { s.ofs with sessions := fset s.ofs.sessions 0 (some (sess0 s)) } }
/-- Room for the stores, and for a further session. -/
def sOpn : State := wrs sShard [(PGR_T2_QUOTA_pages.at 0, 2000), (PGR_T3_QUOTA_pages.at 0, 2000)]
def sStr : State := { sOfs with mem := { sOfs.mem with bytes := [(objBase 0 1 + 64 + 3, 0x3F), (objBase 0 1 + 64 + 2, 0x80)] } }

/-- A packet of peer 2 to this site: DATA of round 0, stream 4, 2,000 bytes in all, the first 100 here. -/
def pkt2 : OfsPkt :=
  { magic := 0x4B4F, version := 1, type := 1, route := 0, keyEpoch := 3, srcSite := 2, dstSite := 1, session := 5, device := 0, round := 0, pseq := 0
    stream := 4, offset := 0, objLen := 2000, aux := 0, reset := false, rsv4 := 0, rsv7 := 0, iv := 0, len := 100, tag := 0
    payload := List.replicate 4 1 ++ toLe 8 (codeLen 9 16) ++ List.replicate 88 1 }
/-- The packet with the tag of the peer's key. -/
def tagged (p : OfsPkt) : OfsPkt := { p with tag := Config.gcmTag key8.key p.iv (ofsAad p) (gcmCrypt key8.key p.iv p.payload) }
def snap2 : OfsPkt := { pkt2 with type := 6 }
def str4 : OfsStream := ⟨5, mkHandle 0 2, mkHandle 0 3, mkHandle 0 4, 0, none, false, false, 0, false, 0⟩
/-- Session with stream 4; with two packets sent; joining through site 2; the states that hold them. -/
def sent2 : List OfsSent := [⟨{ pkt2 with pseq := 0 }, [7], 1, 0, 500, 0, false⟩, ⟨{ pkt2 with pseq := 1 }, [8], 1, 0, 600, 0, false⟩]
def sess1 : Session := { sess0 sOfs with streams := [(4, str4)] }
def sess2 : Session := { sess1 with peers := [(2, { peer2 sOfs with sent := sent2, nextPseq := 2, unsacked := 1, unsackUs := some 1000, gotPseq := [(0, 0)], txq := [(1, pkt2)] })] }
def sess3 : Session := { sess1 with phase := 5, p := ofsJ }
def ofsWith (x : Session) : State := { sOfs with ofs := { sOfs.ofs with sessions := fset sOfs.ofs.sessions 0 (some x) } }
def peerOf (x : Session) : OfsPeer := (mget x.peers 2).getD (peer2 sOfs)
/-- A packet with the tag of a live slot with key8's key is genuine. -/
theorem gen_ofs {s : State} {b : Nat} {x : Session} {q : OfsPeer} {p : OfsPkt} (h1 : hasOffshore s.variant = true) (h2 : ofsInReset s = false)
    (h3 : berthOfSession s p.session = some b) (h4 : sessOf s b = some x) (h5 : mget x.peers p.srcSite = some q)
    (h6 : addressed s x p = true) (h7 : swlRuns s = true)
    (h8 : epochSlot s q p.keyEpoch = some 8 ∧ (keySlot s 8).key = key8.key) : OfsGenuine s b x q (tagged p) := by
  refine ⟨h1, h2, h3, h4, h5, ?_, h7, ?_⟩
  · exact h6
  · show (epochSlot s q p.keyEpoch).any _ = true
    rw [h8.1]
    simp [tagFits, tagged, h8.2, ofsAad, headerWith]
def sackPkt : OfsPkt := { pkt2 with type := 2, stream := 0, len := 32, payload := toBe 8 0 ++ toBe 8 0 ++ toBe 4 0 ++ toBe 4 0xFFFFFFFF ++ zeros 8 }

/-- A session in WAIT of round 1 with nothing missing of round 0 but site 2's stream 4. -/
def sess4 : Session := { sess1 with phase := 3, round := 1, waitFrom := 40, streams := [(4, { str4 with closed := true, applied := true })] }
def sess5 : Session := { sess4 with recv := [⟨2, 0, 4, 0, 0, [], false, true, false, false, 0⟩] }
def probePkt (rx : Nat) : OfsPkt := { pkt2 with type := 3, stream := 0, len := 21, payload := toBe 8 1 ++ toBe 8 1 ++ toBe 4 0 ++ toBe 1 rx }

/-- A KEY_INIT of site 2 for epoch 4, a KEY_RESP for it, and the peer with the identity hash of an all-zero key. -/
def initPkt (site e : Nat) : OfsPkt := { pkt2 with type := 4, stream := 0, len := 4917, srcSite := site, keyEpoch := e, payload := BitVec.ofNat 8 e :: zeros 4916 }
def respPkt (e : Nat) : OfsPkt := { pkt2 with type := 5, stream := 0, len := 4821, keyEpoch := e, payload := BitVec.ofNat 8 e :: zeros 4820 }
def hs4 : Handshake := ⟨4, false, true, 1, [9, 9], 0, 500, none⟩
def peerK : OfsPeer := { peer2 sOfs with param := ⟨2, 0x22, 0x23, Config.sha3 (zeros 1312), 100⟩ }
/-- This module as site 3, so that site 2 begins handshakes; and as site 1 with its own handshake. -/
def sess6 : Session := { sess0 sOfs with p := { ofsP with site := 3, members := 12 }, peers := [(2, peerK)] }
def sess7 : Session := { sess0 sOfs with peers := [(2, { peerK with hs := some hs4 })] }
def sess8 : Session := { sess6 with peers := [(2, { peerK with lastInit := (initPkt 2 4).payload, lastResp := [7] })] }
def sess9 : Session := { sess0 sOfs with peers := [(2, { peerK with hs := some { hs4 with failedAt := some 40 } })] }

/-- A request of Quay on slot 0, and Seawall with it queued; a staged key and slot 0 selected. -/
def req0 : SwlParams := ⟨0, 0, false, false, 0, zeros 16, zeros 100, 3, 0⟩
def sQue : State := { wrs sOpen [(SWL_CTL_run, 1)] with swl := { sOpen.swl with queue := [⟨req0, 9⟩, ⟨{ req0 with decrypt := true, tag := 1 }, 8⟩], stageKey := 5, stageSalt := 6 } }
def sIdleSwl : State := { sQue with swl := { sQue.swl with queue := [] } }
def sAlarm : State := wrs sOfs [(SWL_ALARM, 1)]

/-- A berth with the admin right taken away; a snapshot in L0's bank. -/
def leaseSpec : RegSpec := (regSpec .kmz4100 CMD_LEASE.off).getD ⟨0, 0, 0, []⟩
def sPlainHost : State := modBerth sOpen 0 fun q => { q with admin := false }
def sSnap : State := { sOpen with banks := [(0, { Bank.empty with sel := 5, valid := true, err := true, data := (1, 2, 3, 4) }), (1, { Bank.empty with sel := 6, busy := true, coming := (5, 6, 7, 8) })] }

/-- Sources 40 and 240 enabled for core 1; 240 pending; core 2 holds 41 (level) and 241 (edge). -/
def sIcu : State :=
  let s := wrs sOpen [(ICU_CFG_enable.at 240, 1), (ICU_CFG_targets.at 240, 2), (ICU_CFG_fast.at 240, 0), (ICU_CTL_en, 1), (ALM_IRQ_STAT, 1), (ALM_IRQ_EN, 1)]
  { s with icu := { s.icu with pending := putBit s.icu.pending 240 true, active := putBit (putBit s.icu.active 241 true) 40 true,
                               normal := [(2, 241), (3, 40)], storm := putBit 0 243 true } }
def sFast : State := wrs sIcu [(ICU_CFG_fast.at 240, 1)]
def sMask : State := { sIcu with icu := { sIcu.icu with storm := putBit 0 40 true, active := 0, normal := [] } }

/-- Out of service by the flash flag alone; a log entry, a crash record and an entry of the shared log. -/
def entry1 : LogEntry := ⟨7, 50, 4, 2, 1, false, 0, 9, 0xFF⟩
def crash1 : Crash := ⟨4, 2, 1, 50, 7, 0, List.replicate 64 0, [], [entry1], 3⟩
def sLog : State := { sOpen with rst := { sOpen.rst with log := [entry1, { entry1 with seq := 8 }, { entry1 with seq := 9 }], logSeq := 10, shared := [entry1], crashes := [crash1] } }
def sLost : State := { sLog with rst := { sLog.rst with overflow := true, lost := 5 } }
def sOut : State := { sOpen with rst := { sOpen.rst with flashOos := true, history := [(1, 5)] } }

/-- Berth 0 with PWR_PIN and a clamp held by an over-current; the start of an orderly stop. -/
def sPow : State := wrs sEv [(PWR_PIN_watts, 900)]
def sClamp : State := { sPow with pwr := { sPow.pwr with clamp := true, overcur := true, clampGone := 100000 } }
def sStop : State := { sPow with pwr := { sPow.pwr with stopAt := some 40, sag27 := true } }
def sHeld : State := { sPow with pwr := { sPow.pwr with resetHeld := true, vinOk := 100 }, rst := { sPow.rst with domains := [(0x3F, ⟨4, 10, false, false⟩)], stage := 5 } }

/-- A running module that has been hot; tripped and cool again; every berth closed, for sleep; asleep. -/
def sHot : State := { sPow with pwr := { sPow.pwr with warnFor := 100000, coolFor := 0 } }
def sTrip : State := { sPow with pwr := { sPow.pwr with tripped := true, coldFor := 1000 }, rst := { sPow.rst with domains := [(0x3F, ⟨4, 10, true, false⟩)] } }
def sQuiet : State := { wrs sOpen [(CLF_PSTAT_state.at 3, 6), (ETH_STAT_link, 5)] with quay := State.reset.quay }
def sSleep : State := { wr sQuiet PWR_CTL_sleep 1 with pwr := { sQuiet.pwr with asleep := true } }

/-- Provisioned with a certificate; returned; with a transition that waits. -/
def sProv : State := { sOpen with sec := { sOpen.sec with life := 1, certOk := true } }
def sRet : State := { sOpen with sec := { sOpen.sec with life := 3, refurb := 3, certOk := true } }
def sLeave : State := { sRet with sec := { sRet.sec with leaving := some (4, 90) } }
def sClear : State := { sProv with pwr := { sProv.pwr with clear := 2 } }
def act0 : Activation := ⟨0, 4, 1, 0, some 40, []⟩
def sDefer : State := { sProv with lh := { sProv.lh with act := some act0 }, quay := (modBerth sProv 0 fun q => { q with inflight := [(4, 0x0A02)] }).quay }

/-- An activation whose second restart hangs. -/
def sFail : State := { sDefer with lh := { sDefer.lh with
  act := some { act0 with deferred := none, left := [1, 6, 7, 2, 3, 4, 5] }, cores := [(1, { Core.idle with restart := some 80 })] } }

/-- An authenticated request of a berth's admin in SECURED; a module provisioned in the factory; an erasure that is due. -/
def sSec : State := { sProv with sec := { sProv.sec with life := 2 } }
def sErase : State := { sSec with sec := { sSec.sec with leaving := some (3, 90) } }
def sBlank : State := { State.reset with sec := { State.reset.sec with life := 0, certOk := false, idOk := false } }

def sErase2 : State := { sSec with sec := { sSec.sec with leaving := some (3, 92) } }

/-- Core 3 is late with its tick work, core 4 has one over-run behind it, core 5 restarts, core 6 has expired. -/
def sCore : State := { sPow with lh := { sPow.lh with cores :=
  [(3, { Core.idle with busy := true, overruns := 2, used := 5, peak := 9 }), (4, { Core.idle with busy := true, late := true, peak := 40 }),
   (5, { Core.idle with restart := some 90 }), (6, { Core.idle with expired := some 50 })] } }
def sActs : State := { sDefer with lh := { sDefer.lh with
  act := some { act0 with deferred := none, left := [1, 6] }, cores := [(1, { Core.idle with restart := some 80 })] } }
def sActe : State := { sActs with lh := { sActs.lh with act := some { act0 with deferred := none, left := [1] } } }
def sDom : State := { wrs sOpen [(CLF_COORD_valid, 1), (CLF_COORD_x, 2), (CLF_PSTAT_state.at 1, 6), (CLF_TICK_upstream, 1)] with lh := { sOpen.lh with tick := 100 } }
def ins0 : TickInputs := ⟨48000, 3000, 1500, 70, 70, 60, 10, 123⟩

/-- The module at a stage of its start, the boot done at 6 and later; DEVICE reset held; in holdover. -/
def sStage (n : Nat) : State := { State.reset with rst := { State.reset.rst with stage := n }, pwr := { State.reset.pwr with vinOk := 100 } }
def sReady : State := { sStage 7 with rst := { (sStage 7).rst with domains := [(0x3F, ⟨5, 0, false, true⟩)] } }
def sReadyOut : State := { sReady with rst := { sReady.rst with devOos := true } }
def sBoot : State := { sStage 5 with sec := { (sStage 5).sec with epoch := 7, epochNv := 7 } }
def sPin : State := { sOpen with rst := { sOpen.rst with pinHeld := true, domains := [(0x3F, ⟨4, 10, false, false⟩)], stage := 5, serving := false } }
def sXtal : State := { wrs sEv [(CLK_STAT_xtal_ok, 0), (CLK_STAT_holdover, 1)] with rst := { sEv.rst with holdTick := some 50 } }

/-- A domain in a phase of its reset. -/
def sPh (d p : Nat) (crash : Bool) : State := { sObj with rst := { sObj.rst with domains := [(d, ⟨p, 50, false, crash⟩)] } }
def sAns : State := { modBerth (sPh 5 5 false) 0 fun q => { q with inflight := [(3, 0x0905)] } with rst := { (sPh 5 5 false).rst with answers := [(5, 0, 3)] } }
def sCrash (p : Nat) : State := { sPh 4 p true with rst := { (sPh 4 p true).rst with crashing := [4, 1] } }
def sOld : State := { sObj with rst := { sObj.rst with history := [(2, 99), (2, 98), (2, 97)] } }

/-- Sideband writes; a module on the I3C bus; flash operations in progress. -/
def side (v : W32) : CrsWrite := ⟨8, .plain, v⟩
def sDock : State := { wrs sOpen [(CMD_ADM_SEL_berth, 2), (ETH_IP_SEL_interface, 1), (ETH_IP_SEL_index, 2), (ETH_IP.at 0, 0xFE800000), (ETH_IP.at 3, 7), (MGT_FL_ADDR_addr, 0x12345)] with
  quay := { sOpen.quay with stageHash := 77 } }
def sBus : State := wrs sDock [(MGT_I3C_dyn_addr, 0x12), (MGT_I3C_assigned, 1)]
def sFl (op : Nat) (a : Nat) : State := { sDock with edge := { sDock.edge with op := some ⟨op, 1, a⟩, flash := [(2 ^ 26 + a + 3, 5), (2 ^ 26 + a + 70000, 6)] } }

def sBusDown : State := { sBus with rst := { sBus.rst with domains := [(0x3F, ⟨4, 10, false, false⟩)] } }
def sFree : State := { sDock with edge := { sDock.edge with straps := 3 } }

/-- The anchor of a domain, with PTP on; an interface with an address of its own. -/
def sEth : State := { wrs sOpen [(CLF_COORD_valid, 1), (CLF_COORD_anchor, 1), (ETH_STAT_link, 1), (ETH_STAT_fec_lock, 1)] with eth := { sOpen.eth with addrs := [(1, 0xABCD)] } }
def fr0 : FrameInfo := ⟨true, 0x86DD, 0, 0, 200, false, false, false, 17, 0, 47100, 5, true⟩

/-- Descriptors: a WAIT_SIGNAL that is good, and an ELTWISE that copies one FP32 element of object 1 to object 2 and signals slot 3. -/
def waitOp : List Byte := toLe 1 0x3F ++ zeros 3 ++ toLe 4 41 ++ zeros 24 ++ toLe 4 1 ++ toLe 4 1 ++ toLe 4 1 ++ toLe 2 1 ++ zeros 82
def eltOp (flags : Nat) : List Byte := toLe 1 8 ++ toLe 1 flags ++ toLe 2 6 ++ toLe 4 41 ++ toLe 6 (mkHandle 0 1).toNat ++ zeros 12 ++ toLe 6 (mkHandle 0 2).toNat ++ toLe 4 1 ++ toLe 4 1
  ++ toLe 4 1 ++ toLe 2 1 ++ [0, 0, 1, 0x10, 0, 0] ++ toLe 4 1 ++ toLe 4 1 ++ toLe 4 1 ++ zeros 40 ++ toLe 4 (2 ^ 31 + 3) ++ zeros 20
/-- The array free with heads ready; an operation or a pass on the array; a completion held. -/
def sFreeArr (d : List Byte) : State := { wrs sTwo [(SHF_CTL_issue_en, 1), (SHF_BERTH_CTL_enable.at 0, 1), (SHF_BERTH_CTL_enable.at 1, 1)] with
  mem := { sTwo.mem with objects := [(1, obj1 2), (2, obj1 2)] }, shelf := { sTwo.shelf with streams := fset sTwo.shelf.streams 0 [d, nopDesc] } }
def sSegOpen : State := { sFreeArr nopDesc with shelf := { (sFreeArr nopDesc).shelf with segment := fset (sFreeArr nopDesc).shelf.segment 0 [eltOp 0], segSeed := fset (sFreeArr nopDesc).shelf.segSeed 0 9 } }
def pass0 : EngPass := ⟨0x28, 5, 0, 0, 500, 3⟩
def runOp (d : List Byte) : RunOp :=
  { berth := 0, engine := false, filler := false, desc := d, pass := ⟨0, 0, 0, 0, 0, 0⟩, seed := 0, step := 0, mask := [], maskBad := false, active := 64, fixed := 160, turn := 0, tap := none, segment := false, cost := 224, fdesc := [], factor := [] }
def sRun (r : RunOp) : State := { sFreeArr nopDesc with shelf := { (sFreeArr nopDesc).shelf with running := some r } }
def sFullTrig (r : RunOp) : State := { sRun r with shelf := { (sRun r).shelf with triggers := fset (sRun r).shelf.triggers 0 (List.replicate 1024 ⟨0, 1, 0, 0⟩) } }
def sHeldDone : State := { sRun (runOp (eltOp 1)) with shelf := { (sRun (runOp (eltOp 1))).shelf with running := none, heldDone := some (runOp (eltOp 1)) } }
def sPass : State := { sFreeArr nopDesc with shelf := { (sFreeArr nopDesc).shelf with engines := fset sTwo.shelf.engines 0 [pass0], lastEngine := fset sTwo.shelf.lastEngine 0 (some false) } }
def sRunPass : State := sRun { runOp [] with engine := true, pass := ⟨0x22, 0, 0, 0, 500, 3⟩ }
def sUpdRun : State := { sShard with upd := { sShard.upd with shards := sShard.upd.shards.map fun p => (p.1, { p.2 with reduced := 1 }) } }

/-- A tile faults with an operation running and a head waiting; an entry in the dirty queue. -/
def sFaulting : State := wr (sRun (runOp (eltOp 1))) SHF_WDOG_cycles 900
def sDirty : State := { sTwo with num := { sTwo.num with dirty := fset sTwo.num.dirty 1 [7, 9] } }

/-- Berth 0 at its boundary: two triggers posted as UPD_TRIG asks, shard 5 started with a COMPLETE header of step 3, shard 6 of berth 1, a fetch held for step 4. -/
def sBound (st : Nat) : State := { wrs sShard [(UPD_TRIG_triggers.at 0, 2)] with
  shelf := { sShard.shelf with posted := fset sShard.shelf.posted 0 2, triggered := fset sShard.shelf.triggered 0 [4, 5] }
  upd := { sShard.upd with shards := [(5, { shard5 with started := true, reduced := 1 }), (6, { shard5 with berth := 1 })], steps := fset sShard.upd.steps 0 3, skips := fset sShard.upd.skips 0 1, fetches := [⟨5, 4, 9⟩] }
  mem := { sShard.mem with bytes := cellPuts sShard.mem.bytes (addrOf (mkHandle 0 2)) [3, 0, 0, 0, 0, 0, 0, 0, BitVec.ofNat 8 st] } }
def sBoundSkip : State := { wr (sBound 2) UPD_SKIP_LIMIT_limit 2 with lsh := { sShard.lsh with close := fmod sShard.lsh.close 0 fun c => { c with flag := true } } }

/-- An object of berth 0 with page 0 in T3 channel 3 and page 1 in T2; a demand for page 0, or moves in flight. -/
def objSplit : Obj := { obj1 2 with size := 2 * pageSize, pages := 2, moved := [(0, ⟨3, 3⟩)] }
def sPager (ws : List Want) (ms : List Move) : State := { wrs sTwo [(PGR_CTL_run, 1), (PGR_T2_QUOTA_pages.at 0, 50), (DDR_STAT_in_service, 4095)] with
  mem := { sTwo.mem with objects := [(1, objSplit)], wants := ws, moves := ms } }

/-- An object of berth 0 in DDR5 channel 3, and one whose page there has a recompute segment. -/
def sDdr : State := { wrs sTwo [(DDR_STAT_in_service, 4095), (DDR_CE_THRESH_thresh, 10), (HBM_CE_THRESH_thresh, 10)] with
  mem := { sTwo.mem with objects := [(1, objSplit), (2, { objSplit with segment := [waitOp] })], bytes := [(objBase 0 1 + 4, 6), (objBase 0 2 + 4, 7)], window := 5 }
  lh := { sTwo.lh with tick := 2 ^ 20 + 5 } }
def sDdrLost : State := wrs sDdr [(PGR_CTL_run, 1), (DDR_STAT_lost, 8), (DDR_STAT_in_service, 4087)]

/-- Ports in states: port 5 at `st` since tick 40 of 45; its pair UP; waiting and unacknowledged flits. -/
def flit0 : Flit := sealFlit { vc := 1, cls := 0, first := true, last := true, detour := false, dst := 1, hops := 1, src := 0, len := 4, seq := 3, ack := 0, ackV := true, nak := false, crSel := 15, crTotal := 0, hcrc := 0, payload := [1, 2, 3, 4] }
def sPort (st : Nat) (p : Port) : State := { wrs sTwo [(CLF_PSTAT_state.at 5, st), (CLF_PSTAT_state.at 4, 6)] with
  clf := { sTwo.clf with ports := [(4, { Port.idle with serial := 99 }), (5, { p with since := 40, attempt := 40, seated := true, supply := true })] }, lh := { sTwo.lh with tick := 45 } }
def out0 (f : Flit) : OutFlit := ⟨12, none, f⟩
def ident7 : Ident := ⟨99, 7, some 65, 3, 1001⟩

def flit1 : Flit := sealFlit { flit0 with dst := 0, ackV := false, seq := 7 }
def portSent : Port := { Port.idle with rxNext := 7, replay := [out0 flit0, out0 { flit0 with seq := 4 }, out0 { flit0 with seq := 5 }], txSeq := 6 }
/-- A module of a 4 × 4 × 1 domain whose + x port is UP, with a packet for device (2, 1, 0) in transit. -/
def sTransit : State := wrs (sPort 6 portSent) [(CLF_COORD_valid, 1), (CLF_COORD_y, 1), (CLF_DIMS_sx, 4), (CLF_DIMS_sy, 4), (CLF_DIMS_sz, 1), (CLF_PSTAT_state.at 0, 6), (CLF_THRESH_thresh.at 5, 3)]
def flitOn : Flit := sealFlit { flit1 with dst := 66, hops := 9 }

/-- Port 5 (+y) UP with its peer's port 7, before and after a walk; the anchor of one. -/
def sWalkIn : State := { wrs { sPort 6 Port.idle with quay := { sTwo.quay with berths := four ((fget sTwo.quay.berths 3)) } } [(CLF_PSTAT_state.at 0, 6)] with lh := sTwo.lh }
def sPlaced (b : Nat) : State := { wrs sWalkIn [(CLF_COORD_valid, 1), (CLF_COORD_x, 1), (CLF_COORD_y, 2), (CLF_DOMAIN_tag, 9), (CLF_DIMS_sx, 4), (CLF_DIMS_sy, 3), (CLF_DIMS_sz, 1)] with
  quay := { sTwo.quay with berths := fset sWalkIn.quay.berths 0 { fget sTwo.quay.berths 0 with state := b } } }
def sAnch (n : Nat) : State := { wrs (sPlaced 1) [(CLF_COORD_anchor, 1), (CLF_DISC_COUNT_reports, n)] with
  quay := { sTwo.quay with berths := fset sTwo.quay.berths 0 { fget sTwo.quay.berths 0 with state := 1, inflight := [(77, 0x0503)] } }, clf := { sWalkIn.clf with walk := some ⟨0, 77, 40, false⟩ }, lh := { sTwo.lh with tick := 30000 } }

/-- A close group of number 7 and epoch 3 with neighbours 1 and 64 and two rounds; the wave in a round, with flags received. -/
def grpC : Group := { entry := [4, 0, 7, 0, 3, 0, 0, 0, 0, 0, 0, 0, 3, 0, 50, 0] ++ zeros 48, members := [0, 1, 64], cseq := 0, close := [1, 64], diam := 2 }
def sWave (c : Close) : State := { wr (sBound 2) LSH_CTL_run 1 with lsh := { sShard.lsh with live := [(7, grpC)], close := fset sShard.lsh.close 0 c }, lh := { sShard.lh with tick := 500 } }
def wave (r : Nat) (got : List (Nat × Nat × Bool)) : Close := { flag := false, decided := false, skip := false, running := true, round := r, start := 450, got := got }
def idleWave : Close := { wave 0 [] with running := false }
def flagPkt (src round : Nat) (nf : Bool) : LshPkt := { src := src, op := 0, kind := 4, nf := nf, inv := false, retx := false, berth := 0, group := 7, epoch := 3, level := 0, try_ := 0, cseq := 0, step := 3, node := 0, chunk := 0, aux := round, crcOk := true, data := [] }

/-- A code and a decode request of berth 0, each with a slot, in flight; one that waits. -/
def shgReq (dec : Bool) (slot : Option Nat) : ShgReq := ⟨0, 60, dec, mkHandle 0 1, mkHandle 0 2, 0, slot, none⟩
def sShg (rs : List ShgReq) : State := { modBerth sTwo 0 (fun q => { q with inflight := [(60, 0x0306)] }) with shg := { sTwo.shg with reqs := rs, slots := [(0, ⟨1, 4, 2, 0, []⟩)] } }

/-- A template of layer 9 on channel 3 that takes the trigger's handle, a trigger of that layer, and a state with both; a group of three modules, and a collective of it in progress on channel 3. -/
def tmpl9 : List Byte := [0x31, 4, 1, 0, 0x11, 0, 9, 0] ++ zeros 12 ++ [4, 0, 0, 0] ++ zeros 40
def sTrig : State := { sGrp with shelf := { sGrp.shelf with triggers := fset sGrp.shelf.triggers 0 [⟨0, 9, 0, 0x1234⟩] }, lsh := { sGrp.lsh with templates := fset sGrp.lsh.templates 0 [tmpl9] } }
def grp3 : Group := { entry := zeros 2 ++ [1, 0, 3] ++ zeros 59, members := [0, 7, 9], cseq := 2, close := [], diam := 0 }
def onChan (c : LChan) : State := wr { sGrp with lsh := { sGrp.lsh with live := [(1, grp3)], chans := [(3, c)] }, lh := { sGrp.lh with tick := 5000 } } LSH_CTL_run 1
def coll3 (d : List Byte) (ns : List Nat) : Coll := { freshColl sGrp 0 d grp3 with since := 100, nodes := ns.map fun q => (nodeKey 0 q 0, []) }
def chan3 (q : List (List Byte)) (a : List Coll) : LChan := { LChan.none with queue := q, active := a }
def barrierEv : List Byte := [0x36, 0x18, 1, 0] ++ zeros 32 ++ [5, 0, 0, 0] ++ zeros 24
def permD : List Byte := [0x07, 0, 1, 0] ++ zeros 60
/-- Channel 0 of berth 0 with a PERMUTE at its head. -/
def sPermQ : State := { onChan LChan.none with lsh := { (onChan LChan.none).lsh with chans := [(0, chan3 [permD] [])] } }

/-- A sum of four FP32 elements over a DIRECT group of two modules, of which this is rank 0 and holds its own node; the states that have it in progress, and packets of it. -/
def grp2 : Group := { entry := [8, 0, 1, 0, 2] ++ zeros 59, members := [0, 7], cseq := 1, close := [], diam := 0 }
def sumD : List Byte := [0x31, 0, 1, 0, 0x11, 0, 0, 0] ++ toLe 6 (mkHandle 0 1).toNat ++ toLe 6 (mkHandle 0 2).toNat ++ [4] ++ zeros 43
def onLive (g : Group) (c : LChan) : State := { onChan c with lsh := { (onChan c).lsh with live := [(1, g)] } }
def sumC : Coll := { freshColl sGrp 0 sumD { grp2 with cseq := 0 } with since := 100, nodes := [(nodeKey 0 0 0, [0x3F800000, 0x40000000])] }
def sSum : State := onLive grp2 (chan3 [] [sumC])
def collP (kind node : Nat) (data : List Byte) : LshPkt := { src := 7, op := 1, kind := kind, nf := false, inv := false, retx := false, berth := 0, group := 1, epoch := 0, level := 0, try_ := 0, cseq := 0, step := 0, node := node, chunk := 0, aux := 0, crcOk := true, data := data }
def sumP : LshPkt := collP 0 1 [0, 0, 0x40, 0x40, 0, 0, 0x80, 0x40]
/-- The same with a packet that waits for the window. -/
def sWait : State := onLive grp2 (chan3 [] [{ sumC with unacked := [(7, 1)], toSend := [(7, sumP)] }])
/-- A close group of two modules with epoch 3, its staged successor, and a PERMUTE of an empty map in a phase. -/
def grpN (rank e : Nat) : Group := { entry := [4, 0, 2, 0, 2, 0, 0, 0, BitVec.ofNat 8 rank, 0, 0, 0, BitVec.ofNat 8 e, 0] ++ zeros 50, members := [0, 7], cseq := 0, close := [7], diam := 1 }
def permX (ph round : Nat) (w : Bool) (got : NMap (W64 × W64)) : Permute :=
  { Permute.none with phase := ph, desc := permD, entries := [⟨mkHandle 3 1, 0, 1, 0, mkHandle 0 2⟩], sent := 5, accepted := 4, moveSent := 5, moveAcc := 4, got := got, round := round, waiting := w }
def sPerm (rank : Nat) (x : Permute) : State := { sSum with lsh := { sSum.lsh with live := [(2, grpN rank 3)], staged := [(2, grpN rank 4)], permute := fset sSum.lsh.permute 0 x } }
def roleN (rank : Nat) : PermRole := ⟨rank, grpN rank 3, grpN rank 4⟩
def sumsP (level ph node : Nat) (a b : W64) : LshPkt := { collP 5 node (toLe 8 a.toNat ++ toLe 8 b.toNat ++ toLe 1 ph) with op := 7, group := 2, epoch := 3, level := level, chunk := 1 }
def moveP : LshPkt := { collP 0 1 (List.replicate 8 5) with op := 7, group := 2, epoch := 4, chunk := 3 }


/-! ### Witnesses: a state and operands that meet the hypotheses of a clause. A hypothesis on a function that Config leaves open (a hash, a signature) is the
witness's own assumption. -/

theorem wit_EmptyQueueIdles_1 :
    ∃ s : State,
      s.pending = [] :=
  ⟨sOpen, rfl⟩

theorem wit_RefusedBeforeAuthentication_1 :
    ∃ (c : Instr) (s : State) (h : EcpHdr) (op : Nat) (cores : List Nat),
      hostCommand c = some (h, op, cores) ∧ ((op = 0x0202 → (berthOf s h.berth).closing = false)) ∧ intakeUp s h.iface = false :=
  ⟨(.ping h0), State.reset, h0, 0x0204, [], (by decide +kernel), (by decide +kernel), (by decide +kernel)⟩

theorem wit_RefusedBeforeAuthentication_2 :
    ∃ (c : Instr) (s : State) (h : EcpHdr) (op : Nat) (cores : List Nat),
      hostCommand c = some (h, op, cores) ∧ ((op = 0x0202 → (berthOf s h.berth).closing = false)) ∧ intakeUp s h.iface = true ∧ h.iface < 4 :=
  ⟨(.ping h0), sOpen, h0, 0x0204, [], (by decide +kernel), (by decide +kernel), (by decide +kernel), (by decide +kernel)⟩

theorem wit_SequenceWindow_1 :
    ∃ (q : Berth) (hi seq : W32),
      q.high = some hi :=
  ⟨{Berth.reset with high := some 4, seen := [4]}, 4, 5, (by decide +kernel)⟩

theorem wit_SequenceWindow_2 :
    ∃ (c : Instr) (s : State) (h : EcpHdr) (op : Nat) (cores : List Nat) (k : Cached),
      hostCommand c = some (h, op, cores) ∧ ((op = 0x0202 → (berthOf s h.berth).closing = false)) ∧ authentic s h = true ∧ seqView (berthOf s h.berth) h.seq = .seen ∧ (berthOf s h.berth).inflight.any (fun p => p.1 = h.seq) = false ∧ (berthOf s h.berth).cache.find? (fun x => x.seq = h.seq) = some k :=
  ⟨(.ping {hdr 1 with seq := 4}), sKept, {hdr 1 with seq := 4}, 0x0204, [], ⟨4,0x0204,0,0,0,[1]⟩, (by decide +kernel), (by decide +kernel), (by decide +kernel), (by decide +kernel), (by decide +kernel), (by decide +kernel)⟩

theorem wit_SequenceWindow_3 :
    ∃ (c : Instr) (s : State) (h : EcpHdr) (op : Nat) (cores : List Nat),
      hostCommand c = some (h, op, cores) ∧ ((op = 0x0202 → (berthOf s h.berth).closing = false)) ∧ authentic s h = true ∧ seqView (berthOf s h.berth) h.seq = .seen ∧ (berthOf s h.berth).inflight.any (fun p => p.1 = h.seq) = true :=
  ⟨(.ping {hdr 1 with seq := 3}), sKept, {hdr 1 with seq := 3}, 0x0204, [], (by decide +kernel), (by decide +kernel), (by decide +kernel), (by decide +kernel), (by decide +kernel)⟩

theorem wit_SequenceWindow_4 :
    ∃ (c : Instr) (s : State) (h : EcpHdr) (op : Nat) (cores : List Nat),
      hostCommand c = some (h, op, cores) ∧ ((op = 0x0202 → (berthOf s h.berth).closing = false)) ∧ authentic s h = true ∧ seqView (berthOf s h.berth) h.seq = .below :=
  ⟨(.ping {hdr 1 with seq := 4-1024}), sKept, {hdr 1 with seq := 4-1024}, 0x0204, [], (by decide +kernel), (by decide +kernel), (by decide +kernel), (by decide +kernel)⟩

theorem wit_RefusedAfterAuthentication_1 :
    ∃ (c : Instr) (s : State) (h : EcpHdr) (op : Nat) (cores : List Nat),
      hostCommand c = some (h, op, cores) ∧ ((op = 0x0202 → (berthOf s h.berth).closing = false)) ∧ accepted s h = true ∧ (intakeCheck s h op cores).isSome = true :=
  ⟨(.ping {hdr 1 with extra := true}), sOpen, {hdr 1 with extra := true}, 0x0204, [], (by decide +kernel), (by decide +kernel), (by decide +kernel), (by decide +kernel)⟩

theorem wit_MemoryReadAfterWrite_1 :
    ∃ (s : State) (h : Hdl) (off : Nat) (bs : List Byte) (o : Obj),
      objOf s h = some o ∧ hView h * pageSize + off + bs.length ≤ o.pages * pageSize ∧ badWrite s (addrOf h + off) bs.length = false :=
  ⟨sObj, hObj1, 24, [1,0,2], (obj1 1), (by decide +kernel), (by decide +kernel), (by decide +kernel)⟩

theorem wit_MemoryReadAfterWrite_2 :
    ∃ (s : State) (h : Hdl) (off : Nat) (bs : List Byte) (o : Obj),
      objOf s h = some o ∧ hView h * pageSize + off + bs.length ≤ o.pages * pageSize :=
  ⟨sObj, hObj1, 24, [1,0,2], (obj1 1), (by decide +kernel), (by decide +kernel)⟩

theorem wit_MemoryReadAfterWrite_3 :
    ∃ (s : State) (h : Hdl) (off : Nat) (bs : List Byte) (o : Obj) (c : Nat),
      objOf s h = some o ∧ hView h * pageSize + off + bs.length ≤ o.pages * pageSize ∧ c ∈ s.mem.bad :=
  ⟨{sObj with mem := {sObj.mem with bad := [addrOf hObj1 + 24]}}, hObj1, 24, [1,0,2], (obj1 1), (addrOf hObj1 + 24), (by decide +kernel), (by decide +kernel), (by decide +kernel)⟩

theorem wit_AbsentUnits_2 :
    ∃ (s : State) (req off : Nat) (w : W32),
      (((off / 0x4000 = 30 ∧ hasOffshore s.variant = false) ∨ (off / 0x4000 = 23 ∧ hasDdr s.variant = false) ∨
      (off / 0x4000 = 24 ∧ off % 0x4000 / 0x400 < 12 ∧ portPresent s.variant (off % 0x4000 / 0x400) = false))) :=
  ⟨{ sOpen with variant := .kmz4110 }, 9, 0x7800C, 5, (by decide +kernel)⟩

theorem wit_PingEventAckUnsupported_1 :
    ∃ (s : State) (h : EcpHdr),
      admitted s h 0x0204 [] = true :=
  ⟨sOpen, (hdr 1), (by decide +kernel)⟩

theorem wit_PingEventAckUnsupported_2 :
    ∃ (s : State) (h : EcpHdr) (upTo : W32) (left : List Ev) (e : Ev),
      admitted s h 0x0205 [] = true ∧ left = (berthOf s h.berth).events.filter (fun e => (upTo - e.seq).toNat ≥ 2 ^ 31) ∧ e = ⟨(berthOf s h.berth).evSeq, eventPayload s h.berth 0x00FF 0 0 (toBe 4 (berthOf s h.berth).evLost)⟩ :=
  ⟨sEv, (hdr 1), 7, [⟨8, [2]⟩], ⟨9, eventPayload sEv 0 0x00FF 0 0 (toBe 4 3)⟩, (by decide +kernel), (by decide +kernel), (by decide +kernel)⟩

theorem wit_PingEventAckUnsupported_3 :
    ∃ (s : State) (h : EcpHdr) (op : Nat),
      accepted s h = true ∧ knownOpcode op = false ∧ ((outOfService s = true → servedOos op = true)) :=
  ⟨sOpen, (hdr 1), 0x0299, (by decide +kernel), (by decide +kernel), (by decide +kernel)⟩

theorem wit_SessionOpensRekeysCloses_1 :
    ∃ (s : State) (h : EcpHdr),
      intakeUp s h.iface = true ∧ h.version = 1 ∧ ((h.berth < 4 ∨ h.berth = 0xFF)) ∧ s.sec.life ≠ 4 ∧ coreServes s 6 = true ∧ h.extra = false ∧ mgetD s.quay.unauth h.iface 0 < 16 :=
  ⟨sOpen, (hdr 1), (by decide +kernel), (by decide +kernel), (by decide +kernel), (by decide +kernel), (by decide +kernel), (by decide +kernel), (by decide +kernel)⟩

theorem wit_SessionOpensRekeysCloses_3 :
    ∃ (s : State) (h : EcpHdr) (major minor : Nat) (encapKey hostKey sig : List Byte) (k : Cached),
      intakeUp s h.iface = true ∧ h.version = 1 ∧ h.berth < 4 ∧ s.sec.life ≠ 4 ∧ coreServes s (2 + h.berth) = true ∧ coreServes s 1 = true ∧ (berthOf s h.berth).closing = false ∧ h.extra = false ∧ (berthOf s h.berth).state = 1 ∧ (berthOf s h.berth).authed = false ∧ (berthOf s h.berth).hello = some (helloPayload major minor encapKey hostKey sig, k) ∧ mgetD s.quay.unauth h.iface 0 < 16 :=
  ⟨sHello, (hdr 1), 1, 0, [1], [2], [3], ⟨1, 0x0201, 0, 0, 0, [9]⟩, (by decide +kernel), (by decide +kernel), (by decide +kernel), (by decide +kernel), (by decide +kernel), (by decide +kernel), (by decide +kernel), (by decide +kernel), (by decide +kernel), (by decide +kernel), (by decide +kernel), (by decide +kernel)⟩

theorem wit_SessionOpensRekeysCloses_4 :
    ∃ (s : State) (h : EcpHdr) (encapKey ct : List Byte) (slot : Nat),
      admitted s h 0x0203 [1] = true ∧ (berthOf s h.berth).nextKey = none ∧ alarmLatched s = false ∧ swlInReset s = false ∧ slot = (if (berthOf s h.berth).keySlot = 2 * h.berth then 2 * h.berth + 1 else 2 * h.berth) ∧ keyPending s slot = 0 ∧ ct = slice (Config.kemCiphertext encapKey (s.free + 1)) 0 1088 :=
  ⟨sOpen, (hdr 1), [1], (slice (Config.kemCiphertext [1] (0 + 1)) 0 1088), 1, (by decide +kernel), (by decide +kernel), (by decide +kernel), (by decide +kernel), (by decide +kernel), (by decide +kernel), rfl⟩

theorem wit_SessionOpensRekeysCloses_2 (h12 : (fun (s : State) (h : EcpHdr) (major minor : Nat) (encapKey hostKey sig payload : List Byte) => Config.mldsa44Verify hostKey (helloHeader h payload.length ++ payload.take 2504) sig = true) sAdm (hdr 1) 1 0 [1] [1] [3] (helloPayload 1 0 [1] [1] [3])) :
    ∃ (s : State) (h : EcpHdr) (major minor : Nat) (encapKey hostKey sig payload : List Byte),
      payload = helloPayload major minor encapKey hostKey sig ∧ intakeUp s h.iface = true ∧ h.version = 1 ∧ h.berth < 4 ∧ s.sec.life ≠ 4 ∧ coreServes s (2 + h.berth) = true ∧ coreServes s 1 = true ∧ (berthOf s h.berth).closing = false ∧ h.extra = false ∧ (((berthOf s h.berth).state = 1 → (berthOf s h.berth).authed = false → (berthOf s h.berth).hello.all (fun p => p.1 ≠ payload) = true)) ∧ major = 1 ∧ (berthOf s h.berth).admitted = some (Config.sha3 hostKey) ∧ Config.mldsa44Verify hostKey (helloHeader h payload.length ++ payload.take 2504) sig = true ∧ alarmLatched s = false ∧ swlInReset s = false ∧ keyPending s (2 * h.berth) = 0 ∧ mgetD s.quay.unauth h.iface 0 < 16 :=
  ⟨sAdm, (hdr 1), 1, 0, [1], [1], [3], (helloPayload 1 0 [1] [1] [3]), (by decide +kernel), (by decide +kernel), (by decide +kernel), (by decide +kernel), (by decide +kernel), (by decide +kernel), (by decide +kernel), (by decide +kernel), (by decide +kernel), (by decide +kernel), (by decide +kernel), rfl, h12, (by decide +kernel), (by decide +kernel), (by decide +kernel), (by decide +kernel)⟩

theorem wit_SessionOpensRekeysCloses_5 :
    ∃ (s : State) (h : EcpHdr),
      admitted s h 0x0202 [] = true :=
  ⟨sOpen, (hdr 1), (by decide +kernel)⟩

theorem wit_SessionTimers_1 :
    ∃ (s : State) (b : Nat),
      b < 4 ∧ (berthOf s b).state = 1 ∧ rd s CMD_LEASE ≠ 0 ∧ since s (berthOf s b).lastCmd ≥ rd s CMD_LEASE :=
  ⟨sHold, 0, (by decide +kernel), (by decide +kernel), (by decide +kernel), (by decide +kernel)⟩

theorem wit_SessionTimers_2 :
    ∃ (s : State) (b : Nat),
      (((berthOf s b).state ≠ 1 ∨ rd s CMD_LEASE = 0 ∨ since s (berthOf s b).lastCmd < rd s CMD_LEASE)) :=
  ⟨sOpen, 0, (by decide +kernel)⟩

theorem wit_SessionTimers_3 :
    ∃ (s : State) (b : Nat),
      b < 4 ∧ (berthOf s b).state = 1 ∧ (berthOf s b).events ≠ [] ∧ since s (berthOf s b).evTick ≥ rd1 s CMD_EVT_RTO_ticks :=
  ⟨sHold, 0, (by decide +kernel), (by decide +kernel), (by decide +kernel), (by decide +kernel)⟩

theorem wit_SessionTimers_4 :
    ∃ (s : State) (b : Nat) (seq : W32) (x : HeldSub),
      b < 4 ∧ (berthOf s b).held.find? (fun y => y.seq = seq) = some x ∧ since s x.tick ≥ rd1 s CMD_HOLD_ticks :=
  ⟨sHold, 0, 4, ⟨4, 0, 7, none, 9, [[]], 1⟩, (by decide +kernel), (by decide +kernel), (by decide +kernel)⟩

theorem wit_SessionTimers_5 :
    ∃ (s : State) (i udpLen : Nat) (p : List Byte),
      intakeUp s i = true ∧ packetOk udpLen p = false :=
  ⟨sOpen, 0, 64, [1], (by decide +kernel), (by decide +kernel)⟩

theorem wit_SessionTimers_6 :
    ∃ (s : State) (p : Nat),
      p < 2 ∧ portEnabled s p = true ∧ (ifacesOf s p).any (downLong s) = true :=
  ⟨{ sEv with lh := { sEv.lh with tick := 200 } }, 0, (by decide +kernel), (by decide +kernel), (by decide +kernel)⟩

theorem wit_ObjectCommands_1 :
    ∃ (s : State) (h : EcpHdr) (size : W64) (tier policy pages n rot : Nat) (moved : NMap PageLoc),
      admitted s h 0x0301 [] = true ∧ pages = cdiv size.toNat pageSize ∧ size ≠ 0 ∧ size.toNat ≤ 2 ^ 42 ∧ policy ≤ 3 ∧ tableRoom s 1 pages = true ∧ n = nextNumber s h.berth (s.mem.objects.length + 2) (fget s.mem.nextObj h.berth) ∧ (((tier = 1 ∧ policy = 0 ∧ pages ≤ freeT1 s h.berth ∧ moved = [] ∧ rot = s.mem.rotate) ∨
      (tier = 2 ∧ pages ≤ freeT2 s h.berth ∧ moved = [] ∧ rot = s.mem.rotate) ∨
      (tier = 3 ∧ hasDdr s.variant = true ∧ pages ≤ quotaT3 s h.berth ∧ t3Pages s 0 pages = some (moved, rot)))) :=
  ⟨sRoom, (hdr 0), 5000000, 1, 0, 3, 2, 0, [], (by decide +kernel), rfl, (by decide +kernel), (by decide +kernel), (by decide +kernel), (by decide +kernel), (by decide +kernel), (by left; decide +kernel)⟩

theorem wit_ObjectCommands_2 :
    ∃ (s : State) (h : EcpHdr) (size : W64) (policy pages : Nat),
      admitted s h 0x0301 [] = true ∧ pages = cdiv size.toNat pageSize ∧ size ≠ 0 ∧ size.toNat ≤ 2 ^ 42 ∧ policy ≤ 3 ∧ tableRoom s 1 pages = true ∧ freeT2 s h.berth < pages ∧ pages ≤ quotaT2 s h.berth :=
  ⟨(modMem sRoom fun m => { m with zeroing := [(2, 0, 196050)] }), (hdr 0), 100000000, 1, 48, (by decide +kernel), rfl, (by decide +kernel), (by decide +kernel), (by decide +kernel), (by decide +kernel), (by decide +kernel), (by decide +kernel)⟩

theorem wit_ObjectCommands_3 :
    ∃ (s : State) (h : EcpHdr) (size : W64) (tier policy : Nat),
      admitted s h 0x0301 [] = true :=
  ⟨sRoom, (hdr 0), 0, 1, 0, (by decide +kernel)⟩

theorem wit_ObjectCommands_4 :
    ∃ (s : State) (h : EcpHdr) (handle : BitVec 48) (o : Obj),
      admitted s h 0x0302 [] = true ∧ objOf s handle = some o ∧ hBerth handle = h.berth ∧ o.freeing = false ∧ segmentOperand s h.berth (hObj handle) = false :=
  ⟨sRoom, (hdr 0), hObj1, (obj1 1), (by decide +kernel), (by decide +kernel), (by decide +kernel), (by decide +kernel), (by decide +kernel)⟩

theorem wit_ObjectCommands_5 :
    ∃ (s : State) (b n : Nat) (o : Obj),
      objAt s b n = some o ∧ o.freeing = true ∧ stillNamed s b n = false ∧ s.mem.allocs = [] :=
  ⟨sFreed, 0, 1, {obj1 1 with freeing := true}, (by decide +kernel), (by decide +kernel), (by decide +kernel), (by decide +kernel)⟩

theorem wit_ObjectCommands_6 :
    ∃ (s : State) (b n : Nat) (o : Obj),
      objAt s b n = some o ∧ ((o.freeing = false ∨ stillNamed s b n = true)) :=
  ⟨sRoom, 0, 1, (obj1 1), (by decide +kernel), (Or.inl (by decide +kernel))⟩

theorem wit_ObjectCommands_7 :
    ∃ (s : State) (h : EcpHdr) (t1 t2 t3 spill bal : Nat),
      admitted s h 0x0303 [] = true ∧ ((t3 ≠ 0 → hasDdr s.variant = true)) ∧ memConfigOk s h.berth t1 t2 t3 spill bal = true ∧ s.mem.allocs = [] :=
  ⟨sRoom, (hdr 0), 20, 90, 80, 5, 1, (by decide +kernel), (fun _ => (by decide +kernel)), (by decide +kernel), (by decide +kernel)⟩

theorem wit_ObjectCommands_8 :
    ∃ (s : State) (h : EcpHdr) (t1 t2 t3 spill bal : Nat),
      admitted s h 0x0303 [] = true ∧ t3 ≠ 0 ∧ hasDdr s.variant = false :=
  ⟨{sRoom with variant := .kmz4120}, (hdr 0), 20, 90, 80, 5, 1, (by decide +kernel), (by decide +kernel), (by decide +kernel)⟩

theorem wit_TransferCommands_1 :
    ∃ (s : State) (h : EcpHdr) (handle : BitVec 48) (signal : W16) (offset : W64) (data : List Byte) (a : Nat),
      admitted s h 0x0304 [] = true ∧ a = addrOf handle + offset.toNat ∧ data ≠ [] ∧ data.length ≤ 8192 ∧ rangeOk s h.berth handle offset.toNat data.length = true ∧ badWrite s a data.length = false :=
  ⟨sTwo, (hdr 0), hObj1, 0x8005, 100, [1,0,3], (addrOf hObj1 + 100), (by decide +kernel), (by decide +kernel), (by decide +kernel), (by decide +kernel), (by decide +kernel), (by decide +kernel)⟩

theorem wit_TransferCommands_2 :
    ∃ (s : State) (h : EcpHdr) (handle : BitVec 48) (signal : W16) (offset : W64) (data : List Byte) (a : Nat),
      admitted s h 0x0304 [] = true ∧ a = addrOf handle + offset.toNat ∧ data ≠ [] ∧ data.length ≤ 8192 ∧ rangeOk s h.berth handle offset.toNat data.length = true ∧ badWrite s a data.length = true :=
  ⟨sBad, (hdr 0), hObj1, 0x8005, 100, [1,0,3], (addrOf hObj1 + 100), (by decide +kernel), (by decide +kernel), (by decide +kernel), (by decide +kernel), (by decide +kernel), (by decide +kernel)⟩

theorem wit_TransferCommands_3 :
    ∃ (s : State) (h : EcpHdr) (handle : BitVec 48) (offset : W64) (length pace a : Nat),
      admitted s h 0x0305 [] = true ∧ a = addrOf handle + offset.toNat ∧ 1 ≤ length ∧ length ≤ 1048576 ∧ rangeOk s h.berth handle offset.toNat length = true ∧ badRange s a length = false :=
  ⟨sTwo, (hdr 0), hObj1, 90, 20, 0, (addrOf hObj1 + 90), (by decide +kernel), (by decide +kernel), (by decide +kernel), (by decide +kernel), (by decide +kernel), (by decide +kernel)⟩

theorem wit_TransferCommands_4 :
    ∃ (s : State) (h : EcpHdr) (handle : BitVec 48) (offset : W64) (length pace : Nat),
      admitted s h 0x0305 [] = true ∧ ((length = 0 ∨ length > 1048576 ∨ rangeOk s h.berth handle offset.toNat length = false ∨ isDropped s handle = true)) :=
  ⟨sDrop, (hdr 0), hObj1, 90, 20, 0, (by decide +kernel), (by right; right; left; decide +kernel)⟩

theorem wit_TransferCommands_5 :
    ∃ (s : State) (h : EcpHdr) (handle : BitVec 48) (offset : W64) (length pace a : Nat),
      admitted s h 0x0305 [] = true ∧ a = addrOf handle + offset.toNat ∧ 1 ≤ length ∧ length ≤ 1048576 ∧ rangeOk s h.berth handle offset.toNat length = true ∧ badRange s a length = true :=
  ⟨sBad, (hdr 0), hObj1, 0, 65, 0, (addrOf hObj1), (by decide +kernel), (by decide +kernel), (by decide +kernel), (by decide +kernel), (by decide +kernel), (by decide +kernel)⟩

theorem wit_TransferCommands_6 :
    ∃ (s : State) (h : EcpHdr) (slot n : Nat),
      admitted s h 0x0308 [] = true ∧ slot ≤ 1023 ∧ 1 ≤ n ∧ n ≤ 32767 :=
  ⟨sOpen, (hdr 0), 1023, 32767, (by decide +kernel), (by decide +kernel), (by decide +kernel), (by decide +kernel)⟩

theorem wit_TransferCommands_7 :
    ∃ (s : State) (h : EcpHdr) (slot n : Nat),
      admitted s h 0x0308 [] = true ∧ ((slot > 1023 ∨ n = 0 ∨ n > 32767)) :=
  ⟨sOpen, (hdr 0), 1024, 1, (by decide +kernel), (Or.inl (by decide +kernel))⟩

theorem wit_TransferCommands_8 :
    ∃ (s : State) (h : EcpHdr) (src dst : BitVec 48) (fmt : Nat) (o d : Obj),
      admitted s h 0x0306 [] = true ∧ allocated s h.berth src = true ∧ allocated s h.berth dst = true ∧ objOf s src = some o ∧ objOf s dst = some d ∧ o.dropped = false ∧ d.dropped = false ∧ o.coded = false ∧ d.coded = false ∧ d.policy ≤ 1 ∧ hView dst = 0 ∧ codedFmt fmt = true :=
  ⟨sTwo, (hdr 0), hObj1, (mkHandle 0 1), 0, (obj1 2), (obj1 2), (by decide +kernel), (by decide +kernel), (by decide +kernel), (by decide +kernel), (by decide +kernel), (by decide +kernel), (by decide +kernel), (by decide +kernel), (by decide +kernel), (by decide +kernel), (by decide +kernel), (by decide +kernel)⟩

theorem wit_TransferCommands_9 :
    ∃ (s : State) (h : EcpHdr) (src dst : BitVec 48) (o d : Obj),
      admitted s h 0x0307 [] = true ∧ allocated s h.berth src = true ∧ allocated s h.berth dst = true ∧ objOf s src = some o ∧ objOf s dst = some d ∧ o.dropped = false ∧ d.dropped = false ∧ o.coded = true ∧ hView src = 0 :=
  ⟨sTwo, (hdr 0), (mkHandle 0 2), hObj1, { obj1 2 with coded := true }, (obj1 2), (by decide +kernel), (by decide +kernel), (by decide +kernel), (by decide +kernel), (by decide +kernel), (by decide +kernel), (by decide +kernel), (by decide +kernel), (by decide +kernel)⟩

theorem wit_SubmissionOrder_1 :
    ∃ (s : State) (h : EcpHdr) (index : W32) (descs : List (List Byte)),
      admitted s h 0x0401 [] = true ∧ descs ≠ [] ∧ descs.length ≤ 64 ∧ index = (berthOf s h.berth).pos ∧ (berthOf s h.berth).held = [] ∧ (fget s.shelf.streams h.berth).length + descs.length ≤ 16384 :=
  ⟨sPos, (hdr 0), 10, [nopDesc, nopDesc], (by decide +kernel), (by decide +kernel), (by decide +kernel), (by decide +kernel), (by decide +kernel), (by decide +kernel)⟩

theorem wit_SubmissionOrder_2 :
    ∃ (s : State) (h : EcpHdr) (index : W32) (descs : List (List Byte)),
      admitted s h 0x0401 [] = true ∧ descs ≠ [] ∧ descs.length ≤ 64 ∧ 0 < (index - (berthOf s h.berth).pos).toNat ∧ (index - (berthOf s h.berth).pos).toNat < 2 ^ 31 ∧ (berthOf s h.berth).held.length < 8 :=
  ⟨sPos, (hdr 0), 11, [nopDesc, nopDesc], (by decide +kernel), (by decide +kernel), (by decide +kernel), (by decide +kernel), (by decide +kernel), (by decide +kernel)⟩

theorem wit_SubmissionOrder_3 :
    ∃ (s : State) (h : EcpHdr) (index : W32) (descs : List (List Byte)),
      admitted s h 0x0401 [] = true ∧ descs ≠ [] ∧ descs.length ≤ 64 ∧ (((0 < (index - (berthOf s h.berth).pos).toNat ∧ (index - (berthOf s h.berth).pos).toNat < 2 ^ 31 ∧ (berthOf s h.berth).held.length ≥ 8) ∨
      (index = (berthOf s h.berth).pos ∧ (fget s.shelf.streams h.berth).length + descs.length > 16384 ∧ (berthOf s h.berth).held = []))) :=
  ⟨(modBerth sPos 0 fun q => {q with held := List.replicate 8 ⟨4, 0, 7, none, 9, [[]], 1⟩}), (hdr 0), 11, [nopDesc, nopDesc], (by decide +kernel), (by decide +kernel), (by decide +kernel), (Or.inl (by decide +kernel))⟩

theorem wit_SubmissionOrder_4 :
    ∃ (s : State) (h : EcpHdr) (index : W32) (descs : List (List Byte)) (below : Nat),
      admitted s h 0x0401 [] = true ∧ descs ≠ [] ∧ descs.length ≤ 64 ∧ below = ((berthOf s h.berth).pos - index).toNat ∧ 0 < below ∧ below ≤ 2 ^ 31 ∧ (berthOf s h.berth).held = [] :=
  ⟨sPos, (hdr 0), 8, [nopDesc, nopDesc], 2, (by decide +kernel), (by decide +kernel), (by decide +kernel), (by decide +kernel), (by decide +kernel), (by decide +kernel), (by decide +kernel)⟩

theorem wit_SubmissionOrder_6 :
    ∃ (s : State) (h : EcpHdr) (channel : Nat) (index : W32) (descs : List (List Byte)),
      admitted s h 0x0402 [] = true ∧ descs ≠ [] ∧ descs.length ≤ 128 ∧ channel ≤ 15 ∧ 0 < (index - (chanOf s h.berth channel).pos).toNat ∧ (index - (chanOf s h.berth channel).pos).toNat < 2 ^ 31 ∧ (berthOf s h.berth).held.length < 8 :=
  ⟨sPos, (hdr 0), 15, 1, [nopDesc, nopDesc], (by decide +kernel), (by decide +kernel), (by decide +kernel), (by decide +kernel), (by decide +kernel), (by decide +kernel), (by decide +kernel)⟩

theorem wit_SubmissionOrder_5 :
    ∃ (s : State) (h : EcpHdr) (channel : Nat) (index : W32) (descs : List (List Byte)),
      admitted s h 0x0402 [] = true ∧ descs ≠ [] ∧ descs.length ≤ 128 ∧ channel ≤ 15 ∧ index = (chanOf s h.berth channel).pos ∧ (berthOf s h.berth).held = [] ∧ (chanOf s h.berth channel).queue.length + (descs.filter fun d => !(parseColl d).onTrig).length ≤ 256 ∧ ((descs.any (fun d => (parseColl d).op = 7) = true → atBoundary s h.berth = true)) ∧ (postAll h.berth channel descs s).isSome = true :=
  ⟨sGrp, (hdr 0), 3, 0, [barrier, barrier], (by decide +kernel), (by decide +kernel), (by decide +kernel), (by decide +kernel), (by decide +kernel), (by decide +kernel), (by decide +kernel), (fun _ => (by decide +kernel)), (by decide +kernel)⟩

theorem wit_StreamCommands_1 :
    ∃ (s : State) (h : EcpHdr) (mode : Nat),
      admitted s h 0x0403 [] = true ∧ mode ≤ 1 ∧ fget s.shelf.undecided h.berth = false :=
  ⟨sHalt, (hdr 0), 0, (by decide +kernel), (by decide +kernel), (by decide +kernel)⟩

theorem wit_StreamCommands_2 :
    ∃ (s : State) (h : EcpHdr) (mode : Nat),
      admitted s h 0x0403 [] = true ∧ mode ≤ 1 ∧ fget s.shelf.undecided h.berth = true :=
  ⟨{ sHalt with shelf := { sHalt.shelf with undecided := fset sHalt.shelf.undecided 0 true } }, (hdr 0), 1, (by decide +kernel), (by decide +kernel), (by decide +kernel)⟩

theorem wit_StreamCommands_3 :
    ∃ (s : State) (h : EcpHdr) (index : W32) (mask : W16),
      admitted s h 0x0404 [] = true ∧ (((fget s.lsh.permute h.berth).phase = 0 ∨ bit mask.toNat 0 = false)) ∧ fget s.shelf.undecided h.berth = false ∧ ((∀ c ∈ allChans, bit mask.toNat c = false → (chanOf s h.berth c).active = [])) :=
  ⟨sHalt, (hdr 0), 77, 8, (by decide +kernel), (Or.inl (by decide +kernel)), (by decide +kernel), (by decide +kernel)⟩

theorem wit_StreamCommands_4 :
    ∃ (s : State) (h : EcpHdr) (index : W32) (mask : W16),
      admitted s h 0x0404 [] = true ∧ (((fget s.lsh.permute h.berth).phase = 0 ∨ bit mask.toNat 0 = false)) :=
  ⟨sHalt, (hdr 0), 77, 8, (by decide +kernel), (Or.inl (by decide +kernel))⟩

theorem wit_StreamCommands_5 :
    ∃ (s : State) (h : EcpHdr) (handle : BitVec 48) (descs : List (List Byte)) (o : Obj),
      admitted s h 0x0405 [] = true ∧ descs ≠ [] ∧ descs.length ≤ 64 ∧ fget s.mem.balance h.berth = false ∧ objAt s h.berth (hObj handle) = some o ∧ segmentOk s h.berth handle descs = true ∧ (s.mem.objects.filter fun p => !p.2.segment.isEmpty && p.1 ≠ okey h.berth (hObj handle)).length < 1024 :=
  ⟨sSeg, (hdr 0), (mkHandle 0 2), [castDesc], { obj1 2 with coded := true }, (by decide +kernel), (by decide +kernel), (by decide +kernel), (by decide +kernel), (by decide +kernel), (by decide +kernel), (by decide +kernel)⟩

theorem wit_StreamCommands_6 :
    ∃ (s : State) (h : EcpHdr) (layer n : Nat),
      admitted s h 0x0406 [] = true ∧ 1 ≤ n ∧ n ≤ 64 ∧ layer + n ≤ 65536 :=
  ⟨sHalt, (hdr 0), 65534, 2, (by decide +kernel), (by decide +kernel), (by decide +kernel), (by decide +kernel)⟩

theorem wit_StreamCommands_7 :
    ∃ (s : State) (h : EcpHdr) (mode pause : Nat),
      admitted s h 0x0407 [] = true ∧ mode ≤ 1 ∧ pause ≤ 1 :=
  ⟨sHalt, (hdr 0), 1, 0, (by decide +kernel), (by decide +kernel), (by decide +kernel)⟩

theorem wit_MappingCommands_1 :
    ∃ (s : State) (h : EcpHdr) (entry : List Byte) (g : GrpD) (ws : List Nat) (d : Nat),
      admitted s h 0x0501 [] = true ∧ g = parseGrp entry ∧ ws = memberWords s g ∧ allocated s h.berth g.members = true ∧ isCoded s g.members = false ∧ 4 * g.size ≤ extent s g.members ∧ badRange s (addrOf g.members) (4 * g.size) = false ∧ grpFieldsOk h.berth g = true ∧ grpPlaceOk s h.berth g = true ∧ membersOk s g ws = true ∧ (((g.axis ≠ 4 ∧ d = 0) ∨ (g.axis = 4 ∧ closeDiam s ws = some d))) :=
  ⟨sZero, (hdr 0), (entry7 1 0), (parseGrp (entry7 1 0)), [0], 0, (by decide +kernel), (by decide +kernel), (by decide +kernel), (by decide +kernel), (by decide +kernel), (by decide +kernel), (by decide +kernel), (by decide +kernel), (by decide +kernel), (by decide +kernel), (Or.inl (by decide +kernel))⟩

theorem wit_MappingCommands_2 :
    ∃ (s : State) (h : EcpHdr) (entry : List Byte) (g : GrpD),
      admitted s h 0x0501 [] = true ∧ g = parseGrp entry ∧ ((grpFieldsOk h.berth g = false ∨ grpPlaceOk s h.berth g = false)) ∧ badRange s (addrOf g.members) (4 * g.size) = false :=
  ⟨sZero, (hdr 0), (entry7 5 0), (parseGrp (entry7 5 0)), (by decide +kernel), (by decide +kernel), (Or.inl (by decide +kernel)), (by decide +kernel)⟩

theorem wit_MappingCommands_3 :
    ∃ (s : State) (h : EcpHdr) (group k : Nat),
      admitted s h 0x0502 [] = true ∧ k = 65536 * h.berth + group ∧ (((mget s.lsh.live k).isSome = true ∨ (mget s.lsh.staged k).isSome = true)) ∧ (fget s.lsh.templates h.berth).any (fun d => (parseColl d).group = group) = false ∧ groupBusy s h.berth group = false :=
  ⟨sGrp, (hdr 0), 1, 1, (by decide +kernel), (by decide +kernel), (Or.inl (by decide +kernel)), (by decide +kernel), (by decide +kernel)⟩

theorem wit_MappingCommands_4 :
    ∃ (s : State) (h : EcpHdr) (group k : Nat),
      admitted s h 0x0502 [] = true ∧ k = 65536 * h.berth + group :=
  ⟨sGrp, (hdr 0), 2, 2, (by decide +kernel), (by decide +kernel)⟩

theorem wit_MappingCommands_5 :
    ∃ (s : State) (h : EcpHdr) (tag sx sy sz : Nat),
      admitted s h 0x0503 [7] = true ∧ 1 ≤ sx ∧ sx ≤ 64 ∧ 1 ≤ sy ∧ sy ≤ 64 ∧ 1 ≤ sz ∧ sz ≤ 32 ∧ tag < 2 ^ 16 ∧ s.clf.walk = none ∧ discovered s = false :=
  ⟨(wr sOpen CLF_PSTAT_state 6), (hdr 0), 65535, 64, 64, 32, (by decide +kernel), (by decide +kernel), (by decide +kernel), (by decide +kernel), (by decide +kernel), (by decide +kernel), (by decide +kernel), (by decide +kernel), (by decide +kernel), (by decide +kernel)⟩

theorem wit_MappingCommands_6 :
    ∃ (s : State) (h : EcpHdr) (tag sx sy sz : Nat),
      admitted s h 0x0503 [7] = true ∧ ((sx = 0 ∨ 64 < sx ∨ sy = 0 ∨ 64 < sy ∨ sz = 0 ∨ 32 < sz)) :=
  ⟨sOpen, (hdr 0), 5, 65, 1, 1, (by decide +kernel), (Or.inr (Or.inl (by decide +kernel)))⟩

theorem wit_MappingCommands_7 :
    ∃ (s : State) (h : EcpHdr) (layer : Nat),
      admitted s h 0x0504 [] = true :=
  ⟨{ sGrp with lsh := { sGrp.lsh with templates := fset sGrp.lsh.templates 0 [barrier] } }, (hdr 0), 0, (by decide +kernel)⟩

theorem wit_SlotsAndWorkspaces_1 :
    ∃ (s : State) (h : EcpHdr) (n : Nat),
      admitted s h 0x0601 [] = true ∧ n < 4096 ∧ mget s.snd.slots n = none ∧ ((∀ m, m < n → (mget s.snd.slots m).isSome = true)) :=
  ⟨sSlot, (hdr 0), 2, (by decide +kernel), (by decide +kernel), (by decide +kernel), (by decide +kernel)⟩

theorem wit_SlotsAndWorkspaces_2 :
    ∃ (s : State) (h : EcpHdr),
      admitted s h 0x0601 [] = true ∧ ((∀ m, m < 4096 → (mget s.snd.slots m).isSome = true)) :=
  ⟨sNoSlot, (hdr 0), (by decide +kernel), (fun m hm => mget_row _ _ _ m (by omega) (by omega))⟩

theorem wit_SlotsAndWorkspaces_3 :
    ∃ (s : State) (h : EcpHdr) (slot : Nat) (desc : List Byte) (f : FSlot),
      admitted s h 0x0602 [] = true ∧ mget s.snd.slots slot = some f ∧ ((f.desc.isSome = true ∨ (parseFs desc).op = 0 ∨ (parseFs desc).owner = false ∨ f.berth ≠ h.berth ∨ fslotOk s h.berth (parseFs desc) = false)) :=
  ⟨sSlot, (hdr 0), 0, (fsDesc 0), (FSlot.fresh 0), (by decide +kernel), (by decide +kernel), (Or.inr (Or.inl (by decide +kernel)))⟩

theorem wit_SlotsAndWorkspaces_4 :
    ∃ (s : State) (h : EcpHdr) (slot : Nat) (desc : List Byte) (f : FSlot) (d : FsD),
      admitted s h 0x0602 [] = true ∧ mget s.snd.slots slot = some f ∧ f.berth = h.berth ∧ f.desc = none ∧ d = parseFs desc ∧ fslotOk s h.berth d = true ∧ d.op ≠ 0 ∧ d.owner = true ∧ badRange s (addrOf d.hp) (64 + 8 * d.elems) = false :=
  ⟨sSlot, (hdr 0), 0, fsDescP, (FSlot.fresh 0), (parseFs fsDescP), (by decide +kernel), (by decide +kernel), (by decide +kernel), (by decide +kernel), (by decide +kernel), (by decide +kernel), (by decide +kernel), (by decide +kernel), (by decide +kernel)⟩

theorem wit_SlotsAndWorkspaces_5 :
    ∃ (s : State) (h : EcpHdr) (slot : Nat) (f : FSlot),
      admitted s h 0x0603 [] = true ∧ mget s.snd.slots slot = some f ∧ f.berth = h.berth :=
  ⟨sSlot, (hdr 0), 0, (FSlot.fresh 0), (by decide +kernel), (by decide +kernel), (by decide +kernel)⟩

theorem wit_SlotsAndWorkspaces_6 :
    ∃ (s : State) (h : EcpHdr) (handle : BitVec 48),
      admitted s h 0x0604 [] = true :=
  ⟨sBig, (hdr 0), (mkHandle 0 2), (by decide +kernel)⟩

theorem wit_SlotsAndWorkspaces_7 :
    ∃ (s : State) (h : EcpHdr) (handle : BitVec 48),
      admitted s h 0x0608 [] = true :=
  ⟨sBig, (hdr 0), (mkHandle 0 2), (by decide +kernel)⟩

theorem wit_ShardCommands_1 :
    ∃ (s : State) (h : EcpHdr) (n : Nat) (desc : List Byte),
      admitted s h 0x0605 [] = true ∧ shardOk s h.berth n (parseSh desc) = true ∧ shardOf s n = none :=
  ⟨sUpd, (hdr 0), 5, shDesc, (by decide +kernel), (by decide +kernel), (by decide +kernel)⟩

theorem wit_ShardCommands_2 :
    ∃ (s : State) (h : EcpHdr) (n : Nat) (desc : List Byte) (x : Shard),
      admitted s h 0x0605 [] = true ∧ shardOk s h.berth n (parseSh desc) = true ∧ mget s.upd.shards n = some x :=
  ⟨sShard, (hdr 0), 5, shDesc, shard5, (by decide +kernel), (by decide +kernel), (by decide +kernel)⟩

theorem wit_ShardCommands_3 :
    ∃ (s : State) (h : EcpHdr) (n : Nat) (desc : List Byte),
      admitted s h 0x0605 [] = true ∧ shardOk s h.berth n (parseSh desc) = false :=
  ⟨sShard, (hdr 0), 5, (shDesc.drop 1), (by decide +kernel), (by decide +kernel)⟩

theorem wit_ShardCommands_4 :
    ∃ (s : State) (h : EcpHdr) (n : Nat) (x : Shard),
      admitted s h 0x0606 [] = true ∧ mget s.upd.shards n = some x ∧ x.berth = h.berth ∧ shardBusy s n = false ∧ shardStreamed s h.berth n = false :=
  ⟨sShard, (hdr 0), 5, shard5, (by decide +kernel), (by decide +kernel), (by decide +kernel), (by decide +kernel), (by decide +kernel)⟩

theorem wit_ShardCommands_5 :
    ∃ (s : State) (h : EcpHdr) (n : Nat) (step : W64) (handle : BitVec 48) (x : Shard) (len : Nat),
      admitted s h 0x0607 [] = true ∧ mget s.upd.shards n = some x ∧ x.berth = h.berth ∧ allocated s h.berth handle = true ∧ isDropped s handle = false ∧ len = (parseSh x.desc).slotLen ∧ len ≤ extent s handle ∧ shardBusy s n = false ∧ len ≤ 2 ^ 43 ∧ badRange s (addrOf handle) len = false ∧ badWrite s (addrOf (liveH x)) len = false :=
  ⟨sImage, (hdr 0), 5, 77, (mkHandle 0 4), shard5, (parseSh shDesc).slotLen, (by decide +kernel), (by decide +kernel), (by decide +kernel), (by decide +kernel), (by decide +kernel), (by decide +kernel), (by decide +kernel), (by decide +kernel), (by decide +kernel), (by decide +kernel), (by decide +kernel)⟩

theorem wit_ShardCommands_7 :
    ∃ (s : State) (h : EcpHdr) (slot : Nat) (words : List W32) (code i : Nat),
      admitted s h 0x0609 [] = true ∧ slot < 32 ∧ (mget s.upd.progs slot).all (fun p => p.berth = h.berth) = true ∧ progNamed s slot = false ∧ progCheck words = some (code, i) :=
  ⟨sShard, (hdr 0), 5, [0, 0x20000000], 7, 1, (by decide +kernel), (by decide +kernel), (by decide +kernel), (by decide +kernel), (by decide +kernel)⟩

theorem wit_ShardCommands_6 :
    ∃ (s : State) (h : EcpHdr) (slot : Nat) (words : List W32),
      admitted s h 0x0609 [] = true ∧ slot < 32 ∧ (mget s.upd.progs slot).all (fun p => p.berth = h.berth) = true ∧ progNamed s slot = false ∧ progCheck words = none :=
  ⟨sShard, (hdr 0), 31, [0, 0xFC000000], (by decide +kernel), (by decide +kernel), (by decide +kernel), (by decide +kernel), (by decide +kernel)⟩

theorem wit_ShardCommands_8 :
    ∃ (s : State) (h : EcpHdr) (slot : Nat) (words : List W32),
      admitted s h 0x0609 [] = true :=
  ⟨sShard, (hdr 0), 32, [], (by decide +kernel)⟩

theorem wit_ShardCommands_9 :
    ∃ (s : State) (h : EcpHdr) (channel : Nat) (desc : List Byte),
      admitted s h 0x060A [] = true :=
  ⟨sShard, (hdr 0), 2, (chDesc.set 4 9), (by decide +kernel)⟩

theorem wit_ShardCommands_10 :
    ∃ (s : State) (h : EcpHdr) (step : W64),
      admitted s h 0x060B [] = true :=
  ⟨sShard, (hdr 0), 0x100000007, (by decide +kernel)⟩

theorem wit_OffshoreCommands_1 :
    ∃ (s : State) (h : EcpHdr) (p : OfsParams) (n t2 cur : Nat) (t3 : NMap Nat),
      admitted s h 0x0701 [7] = true ∧ sessOf s h.berth = none ∧ ofsParamsOk h.berth p = true ∧ n = (fget s.upd.steps h.berth).toNat / p.h ∧ (fget s.upd.steps h.berth).toNat % p.h = 0 ∧ peersOpen s + p.peers.length ≤ 19 ∧ placeStores s h.berth p = some (t2, t3, cur) :=
  ⟨sOpn, (hdr 0), ofsP, 0, 4, 8, (List.range 12 |>.map fun i => (i, if i < 8 then 43 else 42)), (by decide +kernel), (by decide +kernel), (by decide +kernel), (by decide +kernel), (by decide +kernel), (by decide +kernel), (by decide +kernel)⟩

theorem wit_OffshoreCommands_2 :
    ∃ (s : State) (h : EcpHdr) (p : OfsParams),
      admitted s h 0x0701 [7] = true ∧ (((sessOf s h.berth).isSome = true ∨ (sessOf s h.berth = none ∧ ofsParamsOk h.berth p = false))) :=
  ⟨sOfs, (hdr 0), ofsP, (by decide +kernel), (Or.inl (by decide +kernel))⟩

theorem wit_OffshoreCommands_3 :
    ∃ (s : State) (h : EcpHdr) (stream shard slot e v need : Nat) (x : Session) (sh : Shard) (m : List W32),
      admitted s h 0x0702 [7] = true ∧ sessOf s h.berth = some x ∧ mget s.upd.shards shard = some sh ∧ sh.berth = h.berth ∧ mget x.streams stream = none ∧ stream ≤ 65535 ∧ inRound x = false ∧ shgRuns s = true ∧ streamWaits s h.berth stream = false ∧ freeTslot s = some slot ∧ e = (parseSh sh.desc).size ∧ m = (readF32 s (liveH sh) 64 e).1 ∧ (readF32 s (liveH sh) 64 e).2 = false ∧ v = ((tslot s slot).version + 1) % 16 ∧ need = cdiv (codeElems 1 slot v (m.map (·.toNat))).length pageSize
      + 2 * cdiv (codeElems 0 slot v (List.replicate e 0)).length pageSize ∧ need ≤ freeT2 s h.berth ∧ tableRoom s 3 need = true :=
  ⟨sStr, (hdr 0), 4, 5, 0, 16, 1, 3, (sess0 sOfs), shard5, (readF32 sStr (liveH shard5) 64 16).1, (by decide +kernel), (by decide +kernel), (by decide +kernel), (by decide +kernel), (by decide +kernel), (by decide +kernel), (by decide +kernel), (by decide +kernel), (by decide +kernel), (by decide +kernel), (by decide +kernel), (by decide +kernel), (by decide +kernel), (by decide +kernel), (by decide +kernel), (by decide +kernel), (by decide +kernel)⟩

theorem wit_OffshoreCommands_4 :
    ∃ (s : State) (h : EcpHdr) (stream shard : Nat) (x : Session) (sh : Shard),
      admitted s h 0x0702 [7] = true ∧ sessOf s h.berth = some x ∧ mget s.upd.shards shard = some sh ∧ sh.berth = h.berth ∧ mget x.streams stream = none ∧ stream ≤ 65535 ∧ inRound x = false ∧ streamWaits s h.berth stream = false ∧ ((shgRuns s = false ∨ freeTslot s = none)) :=
  ⟨(wr sStr SHG_CTL_run 0), (hdr 0), 4, 5, (sess0 sOfs), shard5, (by decide +kernel), (by decide +kernel), (by decide +kernel), (by decide +kernel), (by decide +kernel), (by decide +kernel), (by decide +kernel), (by decide +kernel), (Or.inl (by decide +kernel))⟩

theorem wit_OffshoreCommands_5 :
    ∃ (s : State) (h : EcpHdr) (site round : Nat) (add donor : Bool) (x : Session),
      admitted s h 0x0703 [7] = true ∧ sessOf s h.berth = some x ∧ site ≤ 15 ∧ site ≠ x.p.site ∧ curRound s h.berth x + 2 ≤ round ∧ ((add = true → (mget x.peers site).isSome = false → peersOpen s < 19)) :=
  ⟨sOfs, (hdr 0), 3, 2, true, true, (sess0 sOfs), (by decide +kernel), (by decide +kernel), (by decide +kernel), (by decide +kernel), (by decide +kernel), (fun _ _ => (by decide +kernel))⟩

theorem wit_OffshoreCommands_6 :
    ∃ (s : State) (h : EcpHdr) (site round : Nat) (add donor : Bool) (x : Session),
      admitted s h 0x0703 [7] = true ∧ sessOf s h.berth = some x ∧ ((round < curRound s h.berth x + 2 ∨ 15 < site ∨ site = x.p.site)) :=
  ⟨sOfs, (hdr 0), 3, 1, true, true, (sess0 sOfs), (by decide +kernel), (by decide +kernel), (Or.inl (by decide +kernel))⟩

theorem wit_OffshoreCommands_7 :
    ∃ (s : State) (h : EcpHdr) (x : Session),
      admitted s h 0x0704 [7] = true ∧ sessOf s h.berth = some x :=
  ⟨sOfs, (hdr 0), (sess0 sOfs), (by decide +kernel), (by decide +kernel)⟩

theorem wit_OffshoreCommands_8 :
    ∃ (s : State) (h : EcpHdr) (x : Session),
      admitted s h 0x0705 [7] = true ∧ sessOf s h.berth = some x ∧ inRound x = false ∧ x.joinSeq = none :=
  ⟨sOfs, (hdr 0), (sess0 sOfs), (by decide +kernel), (by decide +kernel), (by decide +kernel), (by decide +kernel)⟩

theorem wit_OffshoreCommands_9 :
    ∃ (s : State) (h : EcpHdr) (op : Nat) (c : Instr),
      (((∃ a b, c = .ofsStream h a b ∧ op = 0x0702) ∨ (∃ a b d e, c = .ofsSite h a b d e ∧ op = 0x0703) ∨ (c = .ofsRekey h ∧ op = 0x0704) ∨
      (c = .ofsClose h ∧ op = 0x0705))) ∧ admitted s h op [7] = true ∧ sessOf s h.berth = none :=
  ⟨sShard, (hdr 0), 0x0704, (.ofsRekey (hdr 0)), (Or.inr (Or.inr (Or.inl ⟨rfl, rfl⟩))), (by decide +kernel), (by decide +kernel)⟩

theorem wit_OffshorePackets_1 :
    ∃ (s : State) (c : Instr) (p : OfsPkt) (us b ty : Nat) (x : Session),
      (c, ty) ∈ [(.ofsDataReceive p us, 1), (.ofsSnapReceive p us, 6), (.ofsSackReceive p us, 2), (.ofsProbeReceive p us, 3)] ∧ hasOffshore s.variant = true ∧ ofsInReset s = false ∧ berthOfSession s p.session = some b ∧ sessOf s b = some x ∧ (mget x.peers p.srcSite).all (fun q => !(p.type = ty && addressed s x p) || !epochHeld s q p.keyEpoch) = true :=
  ⟨(ofsWith sess1), (.ofsDataReceive { pkt2 with device := 1 } 1000), { pkt2 with device := 1 }, 1000, 0, 1, sess1, (by decide +kernel), (by decide +kernel), (by decide +kernel), (by decide +kernel), (by decide +kernel), (by decide +kernel)⟩

theorem wit_OffshorePackets_2 (h11 : (fun (s : State) (c : Instr) (p : OfsPkt) (us b ty n : Nat) (x : Session) (q : OfsPeer) => tagFits s n p = false) (ofsWith sess1) (.ofsDataReceive { pkt2 with tag := 1 } 1000) { pkt2 with tag := 1 } 1000 0 1 8 sess1 (peer2 sOfs)) :
    ∃ (s : State) (c : Instr) (p : OfsPkt) (us b ty n : Nat) (x : Session) (q : OfsPeer),
      (c, ty) ∈ [(.ofsDataReceive p us, 1), (.ofsSnapReceive p us, 6), (.ofsSackReceive p us, 2), (.ofsProbeReceive p us, 3)] ∧ hasOffshore s.variant = true ∧ ofsInReset s = false ∧ berthOfSession s p.session = some b ∧ sessOf s b = some x ∧ mget x.peers p.srcSite = some q ∧ p.type = ty ∧ addressed s x p = true ∧ swlRuns s = true ∧ epochSlot s q p.keyEpoch = some n ∧ n < 32 ∧ tagFits s n p = false :=
  ⟨(ofsWith sess1), (.ofsDataReceive { pkt2 with tag := 1 } 1000), { pkt2 with tag := 1 }, 1000, 0, 1, 8, sess1, (peer2 sOfs), (by decide +kernel), (by decide +kernel), (by decide +kernel), (by decide +kernel), (by decide +kernel), (by decide +kernel), (by decide +kernel), (by decide +kernel), (by decide +kernel), (by decide +kernel), (by decide +kernel), h11⟩

theorem wit_OffshorePackets_3 :
    ∃ (s : State) (c : Instr) (p : OfsPkt) (us b ty : Nat) (x : Session) (q : OfsPeer),
      (c, ty) ∈ [(.ofsDataReceive p us, 1), (.ofsSnapReceive p us, 6), (.ofsSackReceive p us, 2), (.ofsProbeReceive p us, 3)] ∧ p.type = ty ∧ OfsGenuine s b x q p ∧ q.state = 2 :=
  ⟨(ofsWith { sess1 with peers := [(2, { peer2 sOfs with state := 2 })] }), (.ofsSackReceive (tagged sackPkt) 1000), (tagged sackPkt), 1000, 0, 2, { sess1 with peers := [(2, { peer2 sOfs with state := 2 })] }, { peer2 sOfs with state := 2 }, (List.mem_cons_of_mem _ (List.mem_cons_of_mem _ (List.mem_cons_self ..))), (by decide +kernel), (gen_ofs (by decide +kernel) (by decide +kernel) (by decide +kernel) (by decide +kernel) (by decide +kernel) (by decide +kernel) (by decide +kernel) (by decide +kernel)), (by decide +kernel)⟩

theorem wit_OffshorePackets_4 :
    ∃ (s : State) (p : OfsPkt) (us b e : Nat) (x : Session) (q : OfsPeer) (st : OfsStream) (sh : Shard) (r : OfsRecv),
      p.type = 1 ∧ OfsGenuine s b x q p ∧ q.state ≠ 2 ∧ q.oldKey = none ∧ q.unsacked < 15 ∧ x.recv.any toDecode = false ∧ x.settled.all (fun j => j < p.round) = true ∧ bit (membersAt x p.round) p.srcSite = true ∧ mget x.streams p.stream = some st ∧ mget s.upd.shards st.shard = some sh ∧ e = (parseSh sh.desc).size ∧ countWrong p (codeLen x.p.fmt e) = false ∧ r = (openRecv x p 0).1 ∧ r.complete = false ∧ r.withheld = false ∧ r.applied = false ∧ r.wrong = false ∧ r.objLen = p.objLen ∧ p.objLen ≠ 0 ∧ p.offset + p.payload.length ≤ p.objLen ∧ ((rangeFrom p.offset p.payload.length).any fun k => (mget r.bytes k).isNone) = true ∧ recvHeld x + p.payload.length ≤ x.p.rxStore * 2 ^ 30 ∧ (putBytes r.bytes p.offset p.payload).length < p.objLen :=
  ⟨(ofsWith sess1), (tagged pkt2), 1000, 0, 16, sess1, (peer2 sOfs), str4, shard5, (openRecv sess1 (tagged pkt2) 0).1, (by decide +kernel), (gen_ofs (by decide +kernel) (by decide +kernel) (by decide +kernel) (by decide +kernel) (by decide +kernel) (by decide +kernel) (by decide +kernel) (by decide +kernel)), (by decide +kernel), (by decide +kernel), (by decide +kernel), (by decide +kernel), (by decide +kernel), (by decide +kernel), (by decide +kernel), (by decide +kernel), (by decide +kernel), (by decide +kernel), (by decide +kernel), (by decide +kernel), (by decide +kernel), (by decide +kernel), (by decide +kernel), (by decide +kernel), (by decide +kernel), (by decide +kernel), (by decide +kernel), (by decide +kernel), (by decide +kernel)⟩

theorem wit_OffshorePackets_5 :
    ∃ (s : State) (p : OfsPkt) (us b : Nat) (x : Session) (q : OfsPeer) (r : OfsRecv),
      p.type = 1 ∧ OfsGenuine s b x q p ∧ q.state ≠ 2 ∧ q.oldKey = none ∧ q.unsacked < 15 ∧ x.settled.all (fun j => j < p.round) = true ∧ bit (membersAt x p.round) p.srcSite = true ∧ (mget x.streams p.stream).isSome = true ∧ r = (openRecv x p 0).1 ∧ r.complete = false ∧ r.withheld = false ∧ r.applied = false ∧ p.objLen = 0 :=
  ⟨(ofsWith sess1), (tagged { pkt2 with objLen := 0, len := 0, payload := [] }), 1000, 0, sess1, (peer2 sOfs), (openRecv sess1 (tagged { pkt2 with objLen := 0, len := 0, payload := [] }) 0).1, (by decide +kernel), (gen_ofs (by decide +kernel) (by decide +kernel) (by decide +kernel) (by decide +kernel) (by decide +kernel) (by decide +kernel) (by decide +kernel) (by decide +kernel)), (by decide +kernel), (by decide +kernel), (by decide +kernel), (by decide +kernel), (by decide +kernel), (by decide +kernel), (by decide +kernel), (by decide +kernel), (by decide +kernel), (by decide +kernel), (by decide +kernel)⟩

theorem wit_OffshorePackets_6 :
    ∃ (s : State) (p : OfsPkt) (us b part : Nat) (x : Session) (q : OfsPeer) (d : Nat) (j : Nat) (r : OfsRecv),
      p.type = 6 ∧ OfsGenuine s b x q p ∧ q.state ≠ 2 ∧ q.oldKey = none ∧ q.unsacked < 15 ∧ (streamsOf s b).any (snapWhole x) = false ∧ part = bits p.aux.toNat 31 24 ∧ x.phase = 5 ∧ x.p.join = some (d, j) ∧ d = p.srcSite ∧ part ≤ 1 ∧ (x.installed.any fun i => i.1 = p.stream) = false ∧ (mget x.streams p.stream).isSome = true ∧ r = (openRecv x p (part + 2)).1 ∧ r.complete = false ∧ r.withheld = false ∧ r.applied = false ∧ r.wrong = false ∧ r.objLen = p.objLen ∧ p.offset + p.payload.length ≤ p.objLen ∧ ((rangeFrom p.offset p.payload.length).any fun k => (mget r.bytes k).isNone) = true ∧ recvHeld x + p.payload.length ≤ x.p.rxStore * 2 ^ 30 ∧ (putBytes r.bytes p.offset p.payload).length < p.objLen :=
  ⟨(ofsWith sess3), (tagged snap2), 1000, 0, 0, sess3, (peer2 sOfs), 2, 0, (openRecv sess3 (tagged snap2) 2).1, (by decide +kernel), (gen_ofs (by decide +kernel) (by decide +kernel) (by decide +kernel) (by decide +kernel) (by decide +kernel) (by decide +kernel) (by decide +kernel) (by decide +kernel)), (by decide +kernel), (by decide +kernel), (by decide +kernel), (by decide +kernel), (by decide +kernel), (by decide +kernel), (by decide +kernel), (by decide +kernel), (by decide +kernel), (by decide +kernel), (by decide +kernel), (by decide +kernel), (by decide +kernel), (by decide +kernel), (by decide +kernel), (by decide +kernel), (by decide +kernel), (by decide +kernel), (by decide +kernel), (by decide +kernel), (by decide +kernel)⟩

theorem wit_OffshorePackets_7 :
    ∃ (s : State) (p : OfsPkt) (us b : Nat) (x : Session) (q : OfsPeer) (k : Sack),
      p.type = 2 ∧ OfsGenuine s b x q p ∧ q.state ≠ 2 ∧ q.oldKey = none ∧ k = parseSack p.payload ∧ x.sending = [] ∧ (q.sent.all fun e => e.missed < 2) = true ∧ (berths.all fun c => (sessOf s c).all fun y => y.phase ≠ 2 && y.phase ≠ 4 && !y.recv.any toDecode && !(streamsOf s c).any (snapWhole y)) = true :=
  ⟨(ofsWith sess2), (tagged sackPkt), 1000, 0, sess2, (peerOf sess2), (parseSack sackPkt.payload), (by decide +kernel), (gen_ofs (by decide +kernel) (by decide +kernel) (by decide +kernel) (by decide +kernel) (by decide +kernel) (by decide +kernel) (by decide +kernel) (by decide +kernel)), (by decide +kernel), (by decide +kernel), (by decide +kernel), (by decide +kernel), (by decide +kernel), (by decide +kernel)⟩

theorem wit_OffshorePackets_8 :
    ∃ (s : State) (b p us at_ : Nat) (x : Session) (q : OfsPeer) (n e : Nat) (r : State × OfsPkt × List Byte),
      sessOf s b = some x ∧ b < 4 ∧ mget x.peers p = some q ∧ q.unsackUs = some at_ ∧ q.state ≠ 2 ∧ ofsInReset s = false ∧ q.key = some (n, e) ∧ keyLive s n = true ∧ canSeal s n = true ∧ 8 ≤ n ∧ (keySlot s n).counter.toNat < 2 ^ 48 ∧ r = sealOfs s n (ofsForm 2 { basePkt s b p x q.route with keyEpoch := e, payload := sackPayload x q us }) :=
  ⟨(ofsWith sess2), 0, 2, 1050, 1000, sess2, (peerOf sess2), 8, 3, (sealOfs (ofsWith sess2) 8 (ofsForm 2 { basePkt (ofsWith sess2) 0 2 sess2 (peerOf sess2).route with keyEpoch := 3, payload := sackPayload sess2 (peerOf sess2) 1050 })), (by decide +kernel), (by decide +kernel), (by decide +kernel), (by decide +kernel), (by decide +kernel), (by decide +kernel), (by decide +kernel), (by decide +kernel), (by decide +kernel), (by decide +kernel), (by decide +kernel), rfl⟩

theorem wit_OffshorePackets_9 :
    ∃ (s : State) (b p us type need : Nat) (x : Session) (q : OfsPeer) (n e : Nat) (pk : OfsPkt) (rest : List (Nat × OfsPkt))
    (r : State × OfsPkt × List Byte),
      sessOf s b = some x ∧ b < 4 ∧ mget x.peers p = some q ∧ q.key = some (n, e) ∧ keyLive s n = true ∧ ((q.state = 1 ∨ q.state = 3)) ∧ rdb s OFS_CTL_run = true ∧ ofsInReset s = false ∧ stopping s = false ∧ q.txq = (type, pk) :: rest ∧ need = 8 * wireBytes pk ∧ canSeal s n = true ∧ 8 ≤ n ∧ (keySlot s n).counter.toNat < 2 ^ 48 ∧ r = sealOfs s n (ofsForm type { pk with pseq := q.nextPseq, keyEpoch := e, route := q.route }) :=
  ⟨(ofsWith sess2), 0, 2, 1049, 1, (8 * wireBytes pkt2), sess2, (peerOf sess2), 8, 3, pkt2, [], (sealOfs (ofsWith sess2) 8 (ofsForm 1 { pkt2 with pseq := 2, keyEpoch := 3, route := 0 })), (by decide +kernel), (by decide +kernel), (by decide +kernel), (by decide +kernel), (by decide +kernel), (by decide +kernel), (by decide +kernel), (by decide +kernel), (by decide +kernel), (by decide +kernel), (by decide +kernel), (by decide +kernel), (by decide +kernel), (by decide +kernel), rfl⟩

theorem wit_OffshoreTimers_1 :
    ∃ (s : State) (b p us : Nat) (x : Session) (q : OfsPeer),
      sessOf s b = some x ∧ b < 4 ∧ mget x.peers p = some q ∧ ofsInReset s = false :=
  ⟨(ofsWith sess2), 0, 2, 1050000, sess2, (peerOf sess2), (by decide +kernel), (by decide +kernel), (by decide +kernel), (by decide +kernel)⟩

theorem wit_OffshoreTimers_2 :
    ∃ (s : State) (b p us : Nat) (x : Session) (q : OfsPeer),
      sessOf s b = some x ∧ b < 4 ∧ mget x.peers p = some q ∧ ofsInReset s = false :=
  ⟨(ofsWith { sess2 with peers := [(2, { peerOf sess2 with rtt0 := ⟨true, 5, 5, 9⟩, rate := 50 })] }), 0, 2, 9000, { sess2 with peers := [(2, { peerOf sess2 with rtt0 := ⟨true, 5, 5, 9⟩, rate := 50 })] }, { peerOf sess2 with rtt0 := ⟨true, 5, 5, 9⟩, rate := 50 }, (by decide +kernel), (by decide +kernel), (by decide +kernel), (by decide +kernel)⟩

theorem wit_OffshoreTimers_3 :
    ∃ (s : State) (b p us n e : Nat) (x : Session) (q : OfsPeer) (r0 r1 : State × OfsPkt × List Byte),
      sessOf s b = some x ∧ b < 4 ∧ mget x.peers p = some q ∧ ofsInReset s = false ∧ q.key = some (n, e) ∧ keyLive s n = true ∧ ((q.state = 1 ∨ q.state = 3)) ∧ canSeal s n = true ∧ 8 ≤ n ∧ (keySlot s n).counter.toNat + 1 < 2 ^ 48 ∧ r0 = sealOfs s n (ofsForm 3 { basePkt s b p x 0 with keyEpoch := e, payload := probePayload q (q.probeTx + 1) 0 us }) ∧ r1 = sealOfs r0.1 n (ofsForm 3 { basePkt s b p x 1 with keyEpoch := e, payload := probePayload q (q.probeTx + 1) 1 us }) :=
  ⟨(ofsWith sess2), 0, 2, 9000, 8, 3, sess2, (peerOf sess2), (sealOfs (ofsWith sess2) 8 (ofsForm 3 { basePkt (ofsWith sess2) 0 2 sess2 0 with keyEpoch := 3, payload := probePayload (peerOf sess2) 1 0 9000 })), (sealOfs (sealOfs (ofsWith sess2) 8 (ofsForm 3 { basePkt (ofsWith sess2) 0 2 sess2 0 with keyEpoch := 3, payload := probePayload (peerOf sess2) 1 0 9000 })).1 8 (ofsForm 3 { basePkt (ofsWith sess2) 0 2 sess2 1 with keyEpoch := 3, payload := probePayload (peerOf sess2) 1 1 9000 })), (by decide +kernel), (by decide +kernel), (by decide +kernel), (by decide +kernel), (by decide +kernel), (by decide +kernel), (Or.inl (by decide +kernel)), (by decide +kernel), (by decide +kernel), (by decide +kernel), rfl, rfl⟩

theorem wit_OffshoreTimers_4 :
    ∃ (s : State) (p : OfsPkt) (b us : Nat) (x : Session) (q r : OfsPeer),
      p.type = 3 ∧ OfsGenuine s b x q p ∧ q.state ≠ 2 ∧ q.oldKey = none ∧ r = takeProbe s (heardPeer s q p us) p us ∧ q.route ≤ 1 :=
  ⟨(ofsWith sess2), (tagged (probePkt 3)), 0, 9000, sess2, (peerOf sess2), (takeProbe (ofsWith sess2) (heardPeer (ofsWith sess2) (peerOf sess2) (tagged (probePkt 3)) 9000) (tagged (probePkt 3)) 9000), (by decide +kernel), (gen_ofs (by decide +kernel) (by decide +kernel) (by decide +kernel) (by decide +kernel) (by decide +kernel) (by decide +kernel) (by decide +kernel) (by decide +kernel)), (by decide +kernel), (by decide +kernel), rfl, (by decide +kernel)⟩

theorem wit_OffshoreTimers_5 :
    ∃ (s : State) (b p us route : Nat) (x : Session) (q : OfsPeer),
      sessOf s b = some x ∧ b < 4 ∧ mget x.peers p = some q ∧ ofsInReset s = false ∧ ((q.state = 1 ∨ q.state = 3)) ∧ route ≤ 1 :=
  ⟨(ofsWith sess2), 0, 2, 2400, 0, sess2, (peerOf sess2), (by decide +kernel), (by decide +kernel), (by decide +kernel), (by decide +kernel), (Or.inl (by decide +kernel)), (by decide +kernel)⟩

theorem wit_OffshoreTimers_6 :
    ∃ (s : State) (b p : Nat) (x : Session) (q : OfsPeer),
      sessOf s b = some x ∧ b < 4 ∧ mget x.peers p = some q ∧ ofsInReset s = false ∧ ((q.state = 1 ∨ q.state = 3)) ∧ (berths.all fun c => (sessOf s c).all fun y => y.phase = 1 && !y.recv.any toDecode && !(streamsOf s c).any (snapWhole y)) = true :=
  ⟨{ ofsWith sess2 with lh := { sOfs.lh with tick := 1000000 } }, 0, 2, sess2, (peerOf sess2), (by decide +kernel), (by decide +kernel), (by decide +kernel), (by decide +kernel), (Or.inl (by decide +kernel)), (by decide +kernel)⟩

theorem wit_OffshoreTimers_7 :
    ∃ (s : State) (b : Nat) (x : Session) (c : Instr),
      sessOf s b = some x ∧ b < 4 ∧ x.phase = 3 ∧ ofsInReset s = false ∧ (((c = .offshoreWaitEnd b ∧ waitMet x = true) ∨ (c = .offshoreWaitTimeout b ∧ since s x.waitFrom ≥ rd1 s OFS_WAIT))) :=
  ⟨(ofsWith sess5), 0, sess5, (.offshoreWaitEnd 0), (by decide +kernel), (by decide +kernel), (by decide +kernel), (by decide +kernel), (Or.inl ⟨rfl, (by decide +kernel)⟩)⟩

theorem wit_OffshoreKeys_1 :
    ∃ (s : State) (c : Instr) (p : OfsPkt) (us b len ty : Nat) (x : Session) (q : OfsPeer),
      (((c = .keyInitReceive p us ∧ len = 4917 ∧ ty = 4) ∨ (c = .keyRespReceive p us ∧ len = 4821 ∧ ty = 5))) ∧ hasOffshore s.variant = true ∧ ofsInReset s = false ∧ berthOfSession s p.session = some b ∧ sessOf s b = some x ∧ mget x.peers p.srcSite = some q ∧ ((p.type ≠ ty ∨ addressed s x p = false ∨ p.payload.length ≠ len)) :=
  ⟨(ofsWith sess6), (.keyRespReceive (initPkt 2 4) 5), (initPkt 2 4), 5, 0, 4821, 5, sess6, peerK, (Or.inr ⟨rfl, rfl, rfl⟩), (by decide +kernel), (by decide +kernel), (by decide +kernel), rfl, rfl, (Or.inl (by decide +kernel))⟩

theorem wit_OffshoreKeys_2 :
    ∃ (s : State) (p : OfsPkt) (us b : Nat) (x : Session) (q : OfsPeer),
      hasOffshore s.variant = true ∧ ofsInReset s = false ∧ berthOfSession s p.session = some b ∧ sessOf s b = some x ∧ mget x.peers p.srcSite = some q ∧ p.type = 4 ∧ addressed s x p = true ∧ p.payload.length = 4917 ∧ q.state ≠ 2 ∧ keysOpen s = true ∧ coreUp s 7 = true ∧ p.payload = q.lastInit :=
  ⟨(ofsWith sess8), { initPkt 2 4 with dstSite := 3 }, 5, 0, sess8, (peerOf sess8), (by decide +kernel), (by decide +kernel), (by decide +kernel), rfl, rfl, (by decide +kernel), (by decide +kernel), (by decide +kernel), (by decide +kernel), (by decide +kernel), (by decide +kernel), rfl⟩

theorem wit_OffshoreKeys_3 (h16 : (fun (s : State) (p : OfsPkt) (us b e n : Nat) (x : Session) (q : OfsPeer) (pk ek : List Byte) => Config.mldsa44Verify pk (pktHeader p ++ toBe 1 e ++ ek) (slice p.payload 2497 2420) = true) (ofsWith sess6) { initPkt 2 4 with dstSite := 3 } 5 0 4 9 sess6 peerK (zeros 1312) (zeros 1184)) :
    ∃ (s : State) (p : OfsPkt) (us b e n : Nat) (x : Session) (q : OfsPeer) (pk ek : List Byte),
      hasOffshore s.variant = true ∧ ofsInReset s = false ∧ berthOfSession s p.session = some b ∧ sessOf s b = some x ∧ mget x.peers p.srcSite = some q ∧ p.type = 4 ∧ addressed s x p = true ∧ p.payload.length = 4917 ∧ q.state ≠ 2 ∧ keysOpen s = true ∧ coreUp s 7 = true ∧ p.payload ≠ q.lastInit ∧ e = beNat (slice p.payload 0 1) ∧ ek = slice p.payload 1 1184 ∧ pk = slice p.payload 1185 1312 ∧ Config.sha3 pk = q.param.idHash ∧ Config.mldsa44Verify pk (pktHeader p ++ toBe 1 e ++ ek) (slice p.payload 2497 2420) = true ∧ p.reset = false ∧ p.srcSite < x.p.site ∧ epochFits q false e = true ∧ keyWaits s b p.srcSite q false = false ∧ freeKeySlot s = some n ∧ q.key.all (fun k => keyLive s k.1) = true ∧ x.sending = [] :=
  ⟨(ofsWith sess6), { initPkt 2 4 with dstSite := 3 }, 5, 0, 4, 9, sess6, peerK, (zeros 1312), (zeros 1184), (by decide +kernel), (by decide +kernel), (by decide +kernel), rfl, rfl, (by decide +kernel), (by decide +kernel), (by decide +kernel), (by decide +kernel), (by decide +kernel), (by decide +kernel), (by decide +kernel), (by decide +kernel), (by decide +kernel), (by decide +kernel), rfl, h16, (by decide +kernel), (by decide +kernel), (by decide +kernel), (by decide +kernel), (by decide +kernel), (by decide +kernel), (by decide +kernel)⟩

theorem wit_OffshoreKeys_4 (h12 : (fun (s : State) (p : OfsPkt) (us b : Nat) (x : Session) (q : OfsPeer) => Config.sha3 (slice p.payload 1185 1312) ≠ q.param.idHash) (ofsWith { sess6 with peers := [(2, { peerK with param := ⟨2, 0x22, 0x23, Config.sha3 (slice ({ initPkt 2 4 with dstSite := 3 } : OfsPkt).payload 1185 1312) + 1, 100⟩ })] }) { initPkt 2 4 with dstSite := 3 } 5 0 { sess6 with peers := [(2, { peerK with param := ⟨2, 0x22, 0x23, Config.sha3 (slice ({ initPkt 2 4 with dstSite := 3 } : OfsPkt).payload 1185 1312) + 1, 100⟩ })] } { peerK with param := ⟨2, 0x22, 0x23, Config.sha3 (slice ({ initPkt 2 4 with dstSite := 3 } : OfsPkt).payload 1185 1312) + 1, 100⟩ }) :
    ∃ (s : State) (p : OfsPkt) (us b : Nat) (x : Session) (q : OfsPeer),
      hasOffshore s.variant = true ∧ ofsInReset s = false ∧ berthOfSession s p.session = some b ∧ sessOf s b = some x ∧ mget x.peers p.srcSite = some q ∧ p.type = 4 ∧ addressed s x p = true ∧ p.payload.length = 4917 ∧ q.state ≠ 2 ∧ keysOpen s = true ∧ coreUp s 7 = true ∧ p.payload ≠ q.lastInit ∧ Config.sha3 (slice p.payload 1185 1312) ≠ q.param.idHash :=
  ⟨(ofsWith { sess6 with peers := [(2, { peerK with param := ⟨2, 0x22, 0x23, Config.sha3 (slice ({ initPkt 2 4 with dstSite := 3 } : OfsPkt).payload 1185 1312) + 1, 100⟩ })] }), { initPkt 2 4 with dstSite := 3 }, 5, 0, { sess6 with peers := [(2, { peerK with param := ⟨2, 0x22, 0x23, Config.sha3 (slice ({ initPkt 2 4 with dstSite := 3 } : OfsPkt).payload 1185 1312) + 1, 100⟩ })] }, { peerK with param := ⟨2, 0x22, 0x23, Config.sha3 (slice ({ initPkt 2 4 with dstSite := 3 } : OfsPkt).payload 1185 1312) + 1, 100⟩ }, (by decide +kernel), (by decide +kernel), (by decide +kernel), rfl, rfl, (by decide +kernel), (by decide +kernel), (by decide +kernel), (by decide +kernel), (by decide +kernel), (by decide +kernel), (by decide +kernel), h12⟩

theorem wit_OffshoreKeys_5 (h20 : (fun (s : State) (p : OfsPkt) (us b e n : Nat) (x : Session) (q : OfsPeer) (h : Handshake) (pk ct : List Byte) => Config.mldsa44Verify pk (pktHeader p ++ toBe 1 e ++ ct ++ toBe 32 (Config.sha3 h.payload).toNat) (slice p.payload 2401 2420) = true) (ofsWith sess7) (respPkt 4) 5 0 4 9 sess7 (peerOf sess7) hs4 (zeros 1312) (zeros 1088)) :
    ∃ (s : State) (p : OfsPkt) (us b e n : Nat) (x : Session) (q : OfsPeer) (h : Handshake) (pk ct : List Byte),
      hasOffshore s.variant = true ∧ ofsInReset s = false ∧ berthOfSession s p.session = some b ∧ sessOf s b = some x ∧ mget x.peers p.srcSite = some q ∧ p.type = 5 ∧ addressed s x p = true ∧ p.payload.length = 4821 ∧ q.state ≠ 2 ∧ keysOpen s = true ∧ coreUp s 7 = true ∧ q.hs = some h ∧ h.initiator = true ∧ h.failedAt = none ∧ h.reset = false ∧ e = beNat (slice p.payload 0 1) ∧ e = h.epoch ∧ ct = slice p.payload 1 1088 ∧ pk = slice p.payload 1089 1312 ∧ Config.sha3 pk = q.param.idHash ∧ Config.mldsa44Verify pk (pktHeader p ++ toBe 1 e ++ ct ++ toBe 32 (Config.sha3 h.payload).toNat) (slice p.payload 2401 2420) = true ∧ freeKeySlot s = some n ∧ q.key.all (fun k => keyLive s k.1) = true ∧ x.sending = [] :=
  ⟨(ofsWith sess7), (respPkt 4), 5, 0, 4, 9, sess7, (peerOf sess7), hs4, (zeros 1312), (zeros 1088), (by decide +kernel), (by decide +kernel), (by decide +kernel), rfl, rfl, (by decide +kernel), (by decide +kernel), (by decide +kernel), (by decide +kernel), (by decide +kernel), (by decide +kernel), (by decide +kernel), (by decide +kernel), (by decide +kernel), (by decide +kernel), (by decide +kernel), (by decide +kernel), (by decide +kernel), (by decide +kernel), rfl, h20, (by decide +kernel), (by decide +kernel), (by decide +kernel)⟩

theorem wit_OffshoreKeys_6 :
    ∃ (s : State) (b p us : Nat) (x : Session) (q : OfsPeer) (h : Handshake),
      sessOf s b = some x ∧ b < 4 ∧ mget x.peers p = some q ∧ q.hs = some h ∧ h.initiator = true ∧ h.failedAt = none ∧ keysOpen s = true ∧ coreUp s 7 = true ∧ ofsInReset s = false :=
  ⟨(ofsWith sess7), 0, 2, 1500, sess7, (peerOf sess7), hs4, rfl, (by decide +kernel), rfl, (by decide +kernel), (by decide +kernel), (by decide +kernel), (by decide +kernel), (by decide +kernel), (by decide +kernel)⟩

theorem wit_OffshoreKeys_7 :
    ∃ (s : State) (b p us : Nat) (x : Session) (q : OfsPeer) (h : Handshake),
      sessOf s b = some x ∧ b < 4 ∧ mget x.peers p = some q ∧ q.hs = some h ∧ h.initiator = true ∧ h.failedAt = none :=
  ⟨(ofsWith sess7), 0, 2, 100000, sess7, (peerOf sess7), hs4, rfl, (by decide +kernel), rfl, (by decide +kernel), (by decide +kernel), (by decide +kernel)⟩

theorem wit_OffshoreKeys_8 :
    ∃ (s : State) (b p : Nat) (x : Session) (q : OfsPeer) (h : Handshake) (at_ : W64),
      sessOf s b = some x ∧ b < 4 ∧ mget x.peers p = some q ∧ q.hs = some h ∧ h.initiator = true ∧ h.failedAt = some at_ ∧ keysOpen s = true ∧ coreUp s 7 = true ∧ ofsInReset s = false :=
  ⟨{ ofsWith sess9 with lh := { sOfs.lh with tick := 1040 } }, 0, 2, sess9, (peerOf sess9), { hs4 with failedAt := some 40 }, 40, rfl, (by decide +kernel), rfl, (by decide +kernel), (by decide +kernel), (by decide +kernel), (by decide +kernel), (by decide +kernel), (by decide +kernel)⟩

theorem wit_SeawallKeysAndRequests_1 :
    ∃ (s : State) (req owner dir epoch n : Nat) (w : CrsWrite),
      ((req = 1 ∨ req = 7)) ∧ owner < 4 ∧ dir < 4 ∧ epoch < 256 ∧ n = rd s SWL_KSEL_slot ∧ w = ⟨req, .plain, BitVec.ofNat 32 (1 + 16 * owner + 64 * dir + 256 * epoch)⟩ ∧ swlInReset s = false :=
  ⟨sQue, 1, 0, 3, 7, 0, ⟨1, .plain, BitVec.ofNat 32 (1 + 16 * 0 + 64 * 3 + 256 * 7)⟩, (Or.inl (by decide +kernel)), (by decide +kernel), (by decide +kernel), (by decide +kernel), (by decide +kernel), (by decide +kernel), (by decide +kernel)⟩

theorem wit_SeawallKeysAndRequests_2 :
    ∃ (s : State) (n owner dir epoch : Nat),
      s.swl.loadWait = some (n, owner, dir, epoch) :=
  ⟨{ sQue with swl := { sQue.swl with loadWait := some (1, 0, 3, 7) } }, 1, 0, 3, 7, (by decide +kernel)⟩

theorem wit_SeawallKeysAndRequests_3 :
    ∃ (s : State) (req n : Nat),
      ((req = 1 ∨ req = 7)) ∧ n = rd s SWL_KSEL_slot ∧ swlInReset s = false :=
  ⟨sQue, 1, 0, (Or.inl (by decide +kernel)), (by decide +kernel), (by decide +kernel)⟩

theorem wit_SeawallKeysAndRequests_4 :
    ∃ (s : State) (p : SwlParams) (k : KeySlot) (iv : BitVec 96),
      swlInReset s = false ∧ swlCheck s p = 0 ∧ k = keySlot s p.slot ∧ iv = (if p.decrypt then p.iv else BitVec.ofNat 96 (k.salt.toNat * 2 ^ 64 + k.counter.toNat)) :=
  ⟨sQue, req0, key0, (BitVec.ofNat 96 (0x77 * 2 ^ 64)), (by decide +kernel), (by decide +kernel), (by decide +kernel), (by decide +kernel)⟩

theorem wit_SeawallKeysAndRequests_5 :
    ∃ (s : State) (p : SwlParams),
      swlInReset s = false ∧ swlCheck s p ≠ 0 :=
  ⟨sQue, { req0 with slot := 33 }, (by decide +kernel), (by decide +kernel)⟩

theorem wit_SeawallKeysAndRequests_6 :
    ∃ (s : State) (cls : Nat) (r : SwlReq) (key : W256),
      swlRuns s = true ∧ s.swl.queue.find? (fun r => r.p.cls = cls) = some r ∧ (keySlot s r.p.slot).state ≠ 0 ∧ key = (keySlot s r.p.slot).key ∧ ((r.p.decrypt = false ∨ r.p.tag = tagOf key r)) :=
  ⟨sQue, 0, ⟨req0, 9⟩, key0.key, (by decide +kernel), (by decide +kernel), (by decide +kernel), (by decide +kernel), (Or.inl (by decide +kernel))⟩

theorem wit_SeawallKeysAndRequests_7 (h4 : (fun (s : State) (cls : Nat) (r : SwlReq) => r.p.tag ≠ tagOf (keySlot s r.p.slot).key r) { sQue with swl := { sQue.swl with queue := sQue.swl.queue.tail } } 0 ⟨{ req0 with decrypt := true, tag := 1 }, 8⟩) :
    ∃ (s : State) (cls : Nat) (r : SwlReq),
      swlRuns s = true ∧ s.swl.queue.find? (fun r => r.p.cls = cls) = some r ∧ (keySlot s r.p.slot).state ≠ 0 ∧ r.p.decrypt = true ∧ r.p.tag ≠ tagOf (keySlot s r.p.slot).key r :=
  ⟨{ sQue with swl := { sQue.swl with queue := sQue.swl.queue.tail } }, 0, ⟨{ req0 with decrypt := true, tag := 1 }, 8⟩, (by decide +kernel), (by decide +kernel), (by decide +kernel), (by decide +kernel), h4⟩

theorem wit_SeawallKeysAndRequests_8 :
    ∃ (s : State) (sensor : Nat),
      sensor < 4 :=
  ⟨(wr sQue SWL_ALARM_EN_arm 15), 3, (by decide +kernel)⟩

theorem wit_SeawallKeysAndRequests_11 :
    ∃ (s : State),
      (s.swl.failTick.all fun x => since s x < 100) = true :=
  ⟨{ sQue with swl := { sQue.swl with failTick := some 1 } }, (by decide +kernel)⟩

theorem wit_SeawallKeysAndRequests_12 :
    ∃ (s : State) (at_ : W64),
      s.swl.failTick = some at_ ∧ since s at_ ≥ 100 :=
  ⟨{ sQue with swl := { sQue.swl with failTick := some 0 } }, 0, (by decide +kernel), (by decide +kernel)⟩

theorem wit_AliasReads_1 :
    ∃ (s : State) (req off : Nat),
      emptyWindow off = false ∧ aliasOf off ≠ .plain :=
  ⟨sSnap, 0, 0x501C, (by decide +kernel), (by decide +kernel)⟩

theorem wit_AliasReads_2 :
    ∃ (s : State) (req : Nat) (al : Alias),
      al ≠ .plain :=
  ⟨sSnap, 0, .set, (by decide +kernel)⟩

theorem wit_FieldWrites_1 :
    ∃ (s : State) (off : Nat) (c : CrsWrite) (r : RegSpec) (f : FieldSpec) (old v new : Nat),
      regSpec s.variant off = some r ∧ f ∈ r.fields ∧ isLockReg off = false ∧ off ≠ SWL_ALARM_EN.off ∧ old = bits (regWord s off).toNat f.hi f.lo ∧ v = bits c.value.toNat f.hi f.lo ∧ new = bits (regWord (storeWrite s off c) off).toNat f.hi f.lo :=
  ⟨sSnap, CMD_LEASE.off, ⟨9, .toggle, 0xFFFFFFFF⟩, leaseSpec, ⟨31, 0, .rwl, 3000000, anyReq⟩, 3000000, 0xFFFFFFFF, 4291967295, (by decide +kernel), (by decide +kernel), (by decide +kernel), (by decide +kernel), (by decide +kernel), (by decide +kernel), (by decide +kernel)⟩

theorem wit_RegisterCommands_1 :
    ∃ (s u : State) (h : EcpHdr) (offset : W32) (n : Nat) (r : State × List W32),
      admitted s h 0x0801 [] = true ∧ offset.toNat % 4 = 0 ∧ 1 ≤ n ∧ n ≤ 64 ∧ offset.toNat % 0x4000 + 4 * n ≤ 0x4000 ∧ u = arrive s h ∧ r = crsReads n u 9 offset.toNat :=
  ⟨sOpen, (arrive sOpen (hdr 1)), (hdr 1), 0x84000, 3, (crsReads 3 (arrive sOpen (hdr 1)) 9 0x84000), (by decide +kernel), (by decide +kernel), (by decide +kernel), (by decide +kernel), (by decide +kernel), rfl, rfl⟩

theorem wit_RegisterCommands_2 :
    ∃ (s : State) (h : EcpHdr) (offset : W32) (n : Nat),
      admitted s h 0x0801 [] = true ∧ ((offset.toNat % 4 ≠ 0 ∨ (1 ≤ n ∧ n ≤ 64 ∧ offset.toNat % 0x4000 + 4 * n > 0x4000))) :=
  ⟨sOpen, (hdr 1), 0x87FFC, 2, (by decide +kernel), (Or.inr (by decide +kernel))⟩

theorem wit_RegisterCommands_3 :
    ∃ (s : State) (h : EcpHdr) (offset value : W32) (o : Nat),
      admitted s h 0x0802 [] = true ∧ offset.toNat % 4 = 0 ∧ o = plainOffset offset.toNat ∧ ((emptyWindow offset.toNat = true ∨ o ≠ MBX_SEL.off)) ∧ (((berthOf s h.berth).admin = true ∨ (emptyWindow offset.toNat = false ∧ ownRegister h.berth o = true))) :=
  ⟨sOpen, (hdr 1), (BitVec.ofNat 32 CMD_LEASE.off), 7, CMD_LEASE.off, (by decide +kernel), (by decide +kernel), (by decide +kernel), (Or.inr (by decide +kernel)), (Or.inl (by decide +kernel))⟩

theorem wit_RegisterCommands_4 :
    ∃ (s : State) (h : EcpHdr) (offset value : W32) (o : Nat),
      admitted s h 0x0802 [] = true ∧ o = plainOffset offset.toNat ∧ ((offset.toNat % 4 ≠ 0 ∨ (emptyWindow offset.toNat = false ∧ o = MBX_SEL.off) ∨
      ((berthOf s h.berth).admin = false ∧ (emptyWindow offset.toNat = true ∨ ownRegister h.berth o = false)))) :=
  ⟨sOpen, (hdr 1), 0x4004, 7, 0x4004, (by decide +kernel), (by decide +kernel), (Or.inr (Or.inl (by decide +kernel)))⟩

theorem wit_RegisterCommands_5 :
    ∃ (s : State) (req : Nat) (offset value : W32) (o : Nat),
      req < 10 ∧ emptyWindow offset.toNat = false ∧ o = plainOffset offset.toNat ∧ (rangeWrite s o ⟨req, aliasOf offset.toNat, value⟩ writeHooks).isNone = true ∧ ((PGR_T3_QUOTA.off ≤ o → o < PGR_T3_QUOTA.off + 16 → hasDdr s.variant = true)) :=
  ⟨sOpen, 1, (BitVec.ofNat 32 (CMD_LEASE.off + 0x1000)), 7, CMD_LEASE.off, (by decide +kernel), (by decide +kernel), (by decide +kernel), (by decide +kernel), (fun _ _ => (by decide +kernel))⟩

theorem wit_RegisterCommands_6 :
    ∃ (s : State) (req : Nat) (offset value : W32),
      req < 10 ∧ emptyWindow offset.toNat = true :=
  ⟨sOpen, 3, 0x94007, 7, (by decide +kernel), (by decide +kernel)⟩

theorem wit_MailboxSequence_3 :
    ∃ (s : State) (req : Nat) (al : Alias),
      req < 10 :=
  ⟨sSnap, 0, .plain, (by decide +kernel)⟩

theorem wit_MailboxSequence_4 :
    ∃ (s : State) (req : Nat),
      req < 10 :=
  ⟨sSnap, 0, (by decide +kernel)⟩

theorem wit_MailboxSequence_5 :
    ∃ (s : State) (h : EcpHdr) (id : Nat) (q : Quad),
      admitted s h 0x0803 [] = true ∧ id < 65536 ∧ q = (mbxSource (arrive s h) id).getD (0, 0, 0, 0) :=
  ⟨sSnap, (hdr 1), 0xFFFF, (0, 0, 0, 0), (by decide +kernel), (by decide +kernel), (by decide +kernel)⟩

theorem wit_InterruptController_1 :
    ∃ (s : State) (k n : Nat) (fast : Bool),
      k < 8 ∧ n < 256 ∧ claimable s k fast n = true ∧ ((∀ m, m < n → claimable s k fast m = false)) :=
  ⟨sIcu, 1, 240, false, (by decide +kernel), (by decide +kernel), (by decide +kernel), (by decide +kernel)⟩

theorem wit_InterruptController_2 :
    ∃ (s : State) (k : Nat) (fast : Bool) (al : Alias),
      ((8 ≤ k ∨ al ≠ .plain ∨ (List.range 256).all (fun n => !claimable s k fast n) = true)) :=
  ⟨sFast, 1, false, .plain, (Or.inr (Or.inr (by decide +kernel)))⟩

theorem wit_InterruptController_3 :
    ∃ (s : State) (k n : Nat) (fast : Bool),
      k < 8 ∧ n < 256 ∧ mget (claims s fast) k = some n ∧ ((edgeSource n = true ∨ levelInput s n = false)) :=
  ⟨sIcu, 2, 241, false, (by decide +kernel), (by decide +kernel), (by decide +kernel), (Or.inl (by decide +kernel))⟩

theorem wit_InterruptController_4 :
    ∃ (s : State) (k n : Nat),
      k < 8 ∧ n < 256 ∧ mget s.icu.normal k = some n ∧ edgeSource n = false ∧ levelInput s n = true ∧ s.icu.storm.getLsbD n = false ∧ mgetD s.icu.rises n 0 < 15 :=
  ⟨sIcu, 3, 40, (by decide +kernel), (by decide +kernel), (by decide +kernel), (by decide +kernel), (by decide +kernel), (by decide +kernel), (by decide +kernel)⟩

theorem wit_InterruptController_5 :
    ∃ (s : State) (w : CrsWrite) (n : Nat) (fast : Bool),
      ((w.al = .plain ∨ w.al = .set)) ∧ n = bits w.value.toNat 9 0 ∧ ((8 ≤ w.req ∨ mget (claims s fast) w.req ≠ some n)) :=
  ⟨sIcu, ⟨1, .set, 241⟩, 241, true, (Or.inr (by decide +kernel)), (by decide +kernel), (Or.inr (by decide +kernel))⟩

theorem wit_InterruptController_6 :
    ∃ (s : State) (n req : Nat) (v : W32),
      n < 8 ∧ s.pwr.asleep = false :=
  ⟨sIcu, 7, 1, 0x000F0001, (by decide +kernel), (by decide +kernel)⟩

theorem wit_InterruptController_8 :
    ∃ (s : State) (n : Nat) (w : CrsWrite),
      n < 8 :=
  ⟨sMask, 1, ⟨1, .plain, 0xFFFFFFFF⟩, (by decide +kernel)⟩

theorem wit_InterruptController_9 :
    ∃ (s : State) (n : Nat) (on : Bool),
      n < 224 ∧ assigned n = true ∧ edgeSource n = false ∧ on = (if n = 13 then on else levelInput s n) ∧ s.pwr.asleep = false ∧ mgetD s.icu.rises n 0 < 15 ∧ s.icu.storm.getLsbD n = false :=
  ⟨{ sMask with icu := { sMask.icu with storm := 0 } }, 40, true, (by decide +kernel), (by decide +kernel), (by decide +kernel), (by decide +kernel), (by decide +kernel), (by decide +kernel), (by decide +kernel)⟩

theorem wit_InterruptController_10 :
    ∃ (s : State) (n : Nat),
      9 ≤ n ∧ n ≤ 11 ∧ s.pwr.asleep = false :=
  ⟨sIcu, 11, (by decide +kernel), (by decide +kernel), (by decide +kernel)⟩

theorem wit_InterruptController_11 :
    ∃ (s : State) (w : CrsWrite),
      woBits s BCN_CTL_wake_now w ≠ 0 ∧ s.pwr.asleep = false :=
  ⟨sIcu, ⟨0, .plain, 1⟩, (by decide +kernel), (by decide +kernel)⟩

theorem wit_InterruptController_12 :
    ∃ (s : State),
      rd s BCN_TIMER ≠ 0 ∧ s.pwr.asleep = false :=
  ⟨(wr sIcu BCN_TIMER 1), (by decide +kernel), (by decide +kernel)⟩

theorem wit_ServiceCommands_1 :
    ∃ (s : State) (h : EcpHdr) (offset : W32) (length : Nat),
      admitted s h 0x0901 [6] = true :=
  ⟨sLog, (hdr 2), 84, 10, (by decide +kernel)⟩

theorem wit_ServiceCommands_2 :
    ∃ (s : State) (h : EcpHdr) (first : W32),
      admitted s h 0x0903 [6] = true :=
  ⟨sLog, (hdr 2), 0xFFFFFFF0, (by decide +kernel)⟩

theorem wit_ServiceCommands_3 :
    ∃ (s : State) (al : Alias) (v : W32) (out : List LogEntry),
      ((al = .plain ∨ al = .set)) ∧ s.rst.log.length ≤ 64 ∧ out = s.rst.log.filter (fun e => (v - e.seq).toNat < 2 ^ 31) :=
  ⟨sLog, .plain, 8, [entry1, { entry1 with seq := 8 }], (Or.inl (by decide +kernel)), (by decide +kernel), (by decide +kernel)⟩

theorem wit_ServiceCommands_4 :
    ∃ (s : State) (w : CrsWrite),
      ((w.req ≠ 6 ∨ w.al = .clear ∨ w.al = .toggle)) :=
  ⟨sLog, ⟨5, .plain, 8⟩, (Or.inl (by decide +kernel))⟩

theorem wit_ServiceCommands_5 :
    ∃ (s : State) (h : EcpHdr) (tiles hbm ddr : Bool),
      admitted s h 0x0902 [6] = true ∧ s.rst.flashOos = true ∧ s.rst.latch = false ∧ nvStopped s = false :=
  ⟨sOut, (hdr 2), true, true, false, (by decide +kernel), (by decide +kernel), (by decide +kernel), (by decide +kernel)⟩

theorem wit_ServiceCommands_6 :
    ∃ (s : State) (h : EcpHdr) (tiles hbm ddr : Bool),
      admitted s h 0x0902 [6] = true ∧ ((s.rst.flashOos = false ∨ s.rst.latch = true)) :=
  ⟨sOpen, (hdr 2), true, true, true, (by decide +kernel), (Or.inl (by decide +kernel))⟩

theorem wit_ServiceCommands_7 :
    ∃ (s : State) (h : EcpHdr) (test : Nat) (argument : W64),
      admitted s h 0x0904 [6] = true :=
  ⟨sOpen, (hdr 2), 3, 4, (by decide +kernel)⟩

theorem wit_ServiceCommands_8 :
    ∃ (s : State) (h : EcpHdr) (d : Nat),
      admitted s h 0x0905 [6] = true ∧ domainExists s.variant d = true ∧ d ≠ 0x3F ∧ s.rst.delayed = none ∧ recovering s d = false ∧ ¬(d = 0x20 ∧ emergency s = true) ∧ d ≠ 0x22 + h.berth ∧ recentResets s d 6000000 < 3 :=
  ⟨sOpen, (hdr 2), 0x14, (by decide +kernel), (by decide +kernel), (by decide +kernel), (by decide +kernel), (by decide +kernel), (by decide +kernel), (by decide +kernel), (by decide +kernel)⟩

theorem wit_ServiceCommands_9 :
    ∃ (s : State) (h : EcpHdr) (d : Nat),
      admitted s h 0x0905 [6] = true :=
  ⟨sOpen, (hdr 2), 7, (by decide +kernel)⟩

theorem wit_ServiceCommands_10 :
    ∃ (s : State) (h : EcpHdr),
      admitted s h 0x0B01 [0] = true :=
  ⟨sOpen, (hdr 2), (by decide +kernel)⟩

theorem wit_ServiceCommands_11 :
    ∃ (s : State) (h : EcpHdr) (watts : Nat),
      admitted s h 0x0B02 [0] = true ∧ s.lh.pwrReqs < 4 :=
  ⟨sOpen, (hdr 2), 0, (by decide +kernel), (by decide +kernel)⟩

theorem wit_PowerConditions_9 :
    ∃ (s : State) (at_ : W64),
      s.pwr.stopAt = some at_ :=
  ⟨sStop, 40, (by decide +kernel)⟩

theorem wit_ThermalAndSleep_5 :
    ∃ (s : State) (req : Nat),
      ((req = 6 ∨ req = 8)) ∧ rdb s PWR_CTL_sleep = false :=
  ⟨sQuiet, 6, (Or.inl (by decide +kernel)), (by decide +kernel)⟩

theorem wit_ThermalAndSleep_6 :
    ∃ (s : State) (req : Nat),
      ((req = 6 ∨ req = 8)) ∧ rdb s PWR_CTL_sleep = true :=
  ⟨sSleep, 8, (Or.inr (by decide +kernel)), (by decide +kernel)⟩

theorem wit_FirmwareCommands_1 :
    ∃ (s : State) (h : EcpHdr) (offset : Nat) (data : List Byte),
      admitted s h 0x0A01 [1] = true ∧ data ≠ [] ∧ data.length ≤ 8192 ∧ offset + data.length ≤ 2 ^ 26 ∧ nvStopped s = false :=
  ⟨sProv, (hdr 2), 100, [1, 255, 3], (by decide +kernel), (by decide +kernel), (by decide +kernel), (by decide +kernel), (by decide +kernel)⟩

theorem wit_FirmwareCommands_2 :
    ∃ (s : State) (h : EcpHdr) (offset : Nat) (data : List Byte),
      admitted s h 0x0A01 [1] = true ∧ ((data = [] ∨ 8192 < data.length ∨ offset + data.length > 2 ^ 26)) :=
  ⟨sProv, (hdr 2), 67108863, [1, 255, 3], (by decide +kernel), (Or.inr (Or.inr (by decide +kernel)))⟩

theorem wit_FirmwareCommands_3 :
    ∃ (s : State) (h : EcpHdr) (image d : Nat),
      admitted s h 0x0A02 [1] = true ∧ s.lh.act = none :=
  ⟨sProv, (hdr 2), 1, 1, (by decide +kernel), (by decide +kernel)⟩

theorem wit_FirmwareCommands_4 (h4 : (fun (s : State) (h : EcpHdr) (image : Nat) => imageFailure s image = none) sProv (hdr 2) 1) :
    ∃ (s : State) (h : EcpHdr) (image : Nat),
      admitted s h 0x0A02 [1] = true ∧ s.lh.act = none ∧ image ≤ 1 ∧ image ≠ s.sec.image ∧ imageFailure s image = none :=
  ⟨sProv, (hdr 2), 1, (by decide +kernel), (by decide +kernel), (by decide +kernel), (by decide +kernel), h4⟩

theorem wit_FirmwareCommands_5 :
    ∃ (s : State) (a : Activation) (at_ : W64),
      s.lh.act = some a ∧ a.deferred = some at_ :=
  ⟨{ sDefer with pwr := { sDefer.pwr with clear := 2 } }, act0, 40, (by decide +kernel), (by decide +kernel)⟩

theorem wit_FirmwareCommands_6 :
    ∃ (s : State) (a : Activation) (k : Nat) (rest : List Nat) (at_ : W64),
      s.lh.act = some a ∧ a.left = k :: rest ∧ (coreOf s k).restart = some at_ :=
  ⟨sFail, { act0 with deferred := none, left := [1, 6, 7, 2, 3, 4, 5] }, 1, [6, 7, 2, 3, 4, 5], 80, (by decide +kernel), (by decide +kernel), (by decide +kernel)⟩

theorem wit_FirmwareCommands_7 :
    ∃ (s : State) (h : EcpHdr) (nonce : List Byte),
      admitted s h 0x0A03 [1] = true :=
  ⟨sProv, (hdr 2), (zeros 32), (by decide +kernel)⟩

theorem wit_LifecycleAndJtag_1 :
    ∃ (s : State) (h : EcpHdr) (target : Nat) (token : List Byte),
      admitted s h 0x0A04 [1] = true ∧ nvStopped s = false ∧ s.sec.leaving = none ∧ s.lh.act = none ∧ token ≠ [] ∧ token.length ≤ 4096 :=
  ⟨sProv, (hdr 2), 2, [1], (by decide +kernel), (by decide +kernel), (by decide +kernel), (by decide +kernel), (by decide +kernel), (by decide +kernel)⟩

theorem wit_LifecycleAndJtag_2 :
    ∃ (s : State) (h : EcpHdr) (target : Nat) (token : List Byte),
      admitted s h 0x0A04 [1] = true :=
  ⟨sLeave, (hdr 2), 3, [1], (by decide +kernel)⟩

theorem wit_LifecycleAndJtag_3 :
    ∃ (s : State) (life : Nat) (at_ : W64),
      s.sec.leaving = some (life, at_) :=
  ⟨sErase, 3, 90, (by decide +kernel)⟩

theorem wit_TickAndCores_3 :
    ∃ (s : State) (req core : Nat) (al : Alias),
      core < 8 :=
  ⟨sCore, 1, 3, .plain, (by decide +kernel)⟩

theorem wit_TickAndCores_8 :
    ∃ (s : State) (a : Activation) (core : Nat) (rest : List Nat),
      s.lh.act = some a ∧ a.left = core :: rest ∧ core < 8 ∧ (coreOf s core).restart.isSome = true :=
  ⟨sActs, { act0 with deferred := none, left := [1, 6] }, 1, [6], (by decide +kernel), (by decide +kernel), (by decide +kernel), (by decide +kernel)⟩

theorem wit_StartOfTheModule_1 :
    ∃ (s : State) (ok : Bool) (d : Nat),
      (s.rst.devHeld = true ∨ 8 ≤ s.rst.stage ∨ (5 ≤ s.rst.stage ∧ (s.rst.pinHeld = true ∨ phaseOf s 0x3F = 4 ∨ phaseOf s 0x3F = 3))) :=
  ⟨(sStage 8), true, 5, (Or.inr (Or.inl (by decide +kernel)))⟩

theorem wit_StartOfTheModule_2 :
    ∃ (s : State) (ok : Bool) (d : Nat),
      s.rst.devHeld = false ∧ s.rst.stage ≤ 4 :=
  ⟨(sStage 0), true, 5, (by decide +kernel), (by decide +kernel)⟩

theorem wit_StartOfTheModule_3 :
    ∃ (s : State) (ok : Bool) (d : Nat),
      s.rst.devHeld = false ∧ s.rst.stage = 5 ∧ s.rst.pinHeld = false ∧ phaseOf s 0x3F ≠ 4 ∧ phaseOf s 0x3F ≠ 3 :=
  ⟨sBoot, true, 0, (by decide +kernel), (by decide +kernel), (by decide +kernel), (by decide +kernel), (by decide +kernel)⟩

theorem wit_StartOfTheModule_4 :
    ∃ (s : State) (d : Nat),
      s.rst.devHeld = false ∧ s.rst.stage = 6 ∧ s.rst.pinHeld = false ∧ phaseOf s 0x3F ≠ 4 ∧ phaseOf s 0x3F ≠ 3 :=
  ⟨(sStage 6), 0xABC123456, (by decide +kernel), (by decide +kernel), (by decide +kernel), (by decide +kernel), (by decide +kernel)⟩

theorem wit_StartOfTheModule_5 :
    ∃ (s : State) (d : Nat),
      s.rst.devHeld = false ∧ s.rst.stage = 7 ∧ s.rst.pinHeld = false ∧ phaseOf s 0x3F ≠ 4 ∧ phaseOf s 0x3F ≠ 3 :=
  ⟨(sStage 7), 0, (by decide +kernel), (by decide +kernel), (by decide +kernel), (by decide +kernel), (by decide +kernel)⟩

theorem wit_DomainResets_1 :
    ∃ (s : State) (w : CrsWrite) (d : Nat),
      d = bits w.value.toNat 5 0 :=
  ⟨sOld, ⟨6, .plain, 0x80000002⟩, 2, (by decide +kernel)⟩

theorem wit_SidebandControls_1 :
    ∃ (s : State) (w : CrsWrite) (b : Nat),
      b = rd s CMD_ADM_SEL_berth ∧ w.al = .plain :=
  ⟨sDock, (side 5), 2, (by decide +kernel), (by decide +kernel)⟩

theorem wit_SidebandControls_2 :
    ∃ (s : State) (w : CrsWrite) (k : Nat),
      k = 4 * rd s ETH_IP_SEL_interface + rd s ETH_IP_SEL_index ∧ w.al = .plain :=
  ⟨sDock, (side 1), 6, (by decide +kernel), (by decide +kernel)⟩

theorem wit_SidebandControls_3 :
    ∃ (s : State) (c : Instr) (w : CrsWrite) (op f a : Nat),
      ((c = .flashRead w ∨ c = .flashProgram w ∨ c = .flashErase w)) ∧ w.al = .plain ∧ ((w.req = 1 ∨ w.req = 8)) ∧ 1 ≤ op ∧ op ≤ 3 ∧ f < 2 ∧ w.value = BitVec.ofNat 32 (op + 16 * f) ∧ a = (if op = 3 then rd s MGT_FL_ADDR_addr / 65536 * 65536 else rd s MGT_FL_ADDR_addr / 128 * 128) :=
  ⟨sDock, (.flashRead (side 17)), (side 17), 1, 1, 0x12300, (Or.inl (by decide +kernel)), (by decide +kernel), (Or.inr (by decide +kernel)), (by decide +kernel), (by decide +kernel), (by decide +kernel), (by decide +kernel), (by decide +kernel)⟩

theorem wit_SidebandControls_4 :
    ∃ (s : State) (o : FlashOp) (bad : Bool),
      s.edge.op = some o ∧ o.flash < 2 ∧ 1 ≤ o.op ∧ o.op ≤ 3 ∧ o.addr + (if o.op = 3 then 65536 else 128) ≤ 2 ^ 26 :=
  ⟨(sFl 1 0x12300), ⟨1, 1, 0x12300⟩, false, (by decide +kernel), (by decide +kernel), (by decide +kernel), (by decide +kernel), (by decide +kernel)⟩

theorem wit_SidebandControls_5 :
    ∃ (s : State) (bad : Bool),
      s.edge.op = none :=
  ⟨sDock, true, (by decide +kernel)⟩

theorem wit_I3cTarget_1 :
    ∃ (s : State) (address : BitVec 7) (wins : Bool) (pid : Nat),
      pid = 0x3A5 * 2 ^ 33 + s.edge.straps.toNat * 2 ^ 26 + (match s.variant with | .kmz4100 => 0x1004 | .kmz4110 => 0x100E | .kmz4120 => 0x1018) * 2 ^ 10 :=
  ⟨sFree, 0x11, true, 0x074A0C401000, (by decide +kernel)⟩

theorem wit_I3cTarget_4 :
    ∃ (s : State) (off v : W32),
      rdb s MGT_I3C_assigned = false :=
  ⟨sFree, 5, 1, (by decide +kernel)⟩

theorem wit_I3cTarget_5 :
    ∃ (s : State) (off v : W32),
      rdb s MGT_I3C_assigned = true :=
  ⟨sBus, 0x80010, 7, (by decide +kernel)⟩

theorem wit_I3cTarget_6 :
    ∃ (s : State) (n : Nat),
      rdb s MGT_I3C_assigned = true ∧ 1 ≤ n ∧ n ≤ 64 :=
  ⟨{ sBus with edge := { sBus.edge with pointer := 0x80000 } }, 64, (by decide +kernel), (by decide +kernel), (by decide +kernel)⟩

theorem wit_I3cTarget_7 :
    ∃ (s : State) (n : Nat),
      rdb s MGT_I3C_assigned = true ∧ ((n = 0 ∨ 64 < n)) :=
  ⟨sBus, 0, (by decide +kernel), (Or.inl (by decide +kernel))⟩

theorem wit_HostPorts_2 :
    ∃ (s : State) (i : Nat) (target source : BitVec 128) (mac : BitVec 48) (dst : BitVec 128),
      dst = (if source = 0 then 0xFF020000000000000000000000000001#128 else source) :=
  ⟨sEth, 0, 0xABCD, 0, 5, allNodes, (by decide +kernel)⟩

theorem wit_ShelfScheduling_2 :
    ∃ (s : State) (idle : CauseCycles),
      ((shelfFree s = false ∨ ∀ b, b < 4 → headOf s b = none)) :=
  ⟨sTwo, [], (Or.inl (by decide +kernel))⟩

theorem wit_ShelfScheduling_3 :
    ∃ (s : State) (idle : CauseCycles) (b : Nat) (d : List Byte),
      shelfFree s = true ∧ (choose (restDeficits s)).2 = some b ∧ headOf s b = some (.stream d) :=
  ⟨(sFreeArr waitOp), [], 0, waitOp, (by decide +kernel), (by decide +kernel), (by decide +kernel)⟩

theorem wit_ShelfScheduling_4 :
    ∃ (s : State) (idle : CauseCycles) (b : Nat) (d : List Byte),
      shelfFree s = true ∧ (choose (restDeficits s)).2 = some b ∧ headOf s b = some (.segment d) ∧ opError s b (parseOp d) true = 0 :=
  ⟨sSegOpen, [], 0, (eltOp 0), (by decide +kernel), (by decide +kernel), (by decide +kernel), (by decide +kernel)⟩

theorem wit_ShelfScheduling_5 :
    ∃ (s : State) (idle : CauseCycles) (b : Nat) (e : EngPass),
      shelfFree s = true ∧ (choose (restDeficits s)).2 = some b ∧ headOf s b = some (.engine e) :=
  ⟨sPass, [], 0, pass0, (by decide +kernel), (by decide +kernel), (by decide +kernel)⟩

theorem wit_ShelfScheduling_7 :
    ∃ (s : State) (stalls : CauseCycles) (r : RunOp) (o : Op) (out : OpOut) (cens : Bool),
      s.shelf.running = some r ∧ r.engine = false ∧ shelfRuns s = true ∧ (berthOf s r.berth).closing = false ∧ r.segment = false ∧ r.maskBad = false ∧ o = parseOp r.desc ∧ expandWaits s o = false ∧ triggerBlocked s r.berth o = false ∧ cens = (o.census && rdb s NUM_CTL_census_en && o.opcode ≠ 0x3F) ∧ out = compute s o (packOf (rdb s SHF_CTL_auto_pack) o.pack o.m o.n) r.mask r.seed r.step cens ∧ out.failed = false ∧ (writeRuns s o.hd out.writes).2 = false :=
  ⟨(sRun (runOp (eltOp 3))), [([6], 5)], (runOp (eltOp 3)), (parseOp (eltOp 3)), (compute (sRun (runOp (eltOp 3))) (parseOp (eltOp 3)) (packOf (rdb (sRun (runOp (eltOp 3))) SHF_CTL_auto_pack) 0 1 1) [] 0 0 false), false, rfl, (by decide +kernel), (by decide +kernel), (by decide +kernel), (by decide +kernel), (by decide +kernel), rfl, (by decide +kernel), (by decide +kernel), (by decide +kernel), (by decide +kernel), (by decide +kernel), (by decide +kernel)⟩

theorem wit_ShelfScheduling_8 :
    ∃ (s : State) (stalls : CauseCycles) (r : RunOp) (o : Op),
      s.shelf.running = some r ∧ r.engine = false ∧ shelfRuns s = true ∧ (berthOf s r.berth).closing = false ∧ r.segment = false ∧ o = parseOp r.desc ∧ expandWaits s o = false :=
  ⟨(sRun { runOp (eltOp 1) with maskBad := true }), [], { runOp (eltOp 1) with maskBad := true }, (parseOp (eltOp 1)), rfl, (by decide +kernel), (by decide +kernel), (by decide +kernel), (by decide +kernel), rfl, (by decide +kernel)⟩

theorem wit_ShelfScheduling_9 :
    ∃ (s : State) (cycles : Nat) (r : RunOp),
      s.shelf.heldDone = some r :=
  ⟨sHeldDone, 7, (runOp (eltOp 1)), rfl⟩

theorem wit_ShelfScheduling_10 :
    ∃ (s : State) (stalls : CauseCycles) (r : RunOp),
      s.shelf.running = some r ∧ r.engine = true ∧ shelfRuns s = true ∧ (berthOf s r.berth).closing = false :=
  ⟨sRunPass, [], { runOp [] with engine := true, pass := ⟨0x22, 0, 0, 0, 500, 3⟩ }, rfl, (by decide +kernel), (by decide +kernel), (by decide +kernel)⟩

theorem wit_ShelfFaults_1 :
    ∃ (s : State) (tile cause : Nat),
      s.shelf.faulted = false ∧ tile < 1024 ∧ cause < 4 :=
  ⟨sFaulting, 600, 1, rfl, (by decide +kernel), (by decide +kernel)⟩

theorem wit_ShelfFaults_2 :
    ∃ (s : State) (tile cause cycles : Nat),
      s.shelf.faulted = true :=
  ⟨{ sTwo with shelf := { sTwo.shelf with faulted := true } }, 3, 1, 900, rfl⟩

theorem wit_ShelfFaults_5 :
    ∃ (s : State) (k : Nat),
      k < 8 ∧ bit (rd s HBM_STAT_failed) k = false :=
  ⟨sFaulting, 7, (by decide +kernel), (by decide +kernel)⟩

theorem wit_ShelfFaults_6 :
    ∃ (s : State) (w : CrsWrite),
      w.al = .plain ∧ w.req < 10 :=
  ⟨sTwo, ⟨6, .plain, 5⟩, rfl, (by decide +kernel)⟩

theorem wit_ShelfFaults_7 :
    ∃ (s : State) (w : CrsWrite),
      (w.al = .plain ∨ w.al = .set) ∧ w.req < 10 :=
  ⟨{ sTwo with shelf := { sTwo.shelf with causes := [(3, 9)] } }, ⟨6, .plain, 3⟩, (Or.inl rfl), (by decide +kernel)⟩

theorem wit_ShelfFaults_8 :
    ∃ (s : State) (b : Nat) (w : CrsWrite),
      b < 4 ∧ w.al = .plain ∧ w.req < 10 :=
  ⟨sDirty, 1, ⟨2, .plain, 1⟩, (by decide +kernel), rfl, (by decide +kernel)⟩

theorem wit_StepBoundaryRows_1 :
    ∃ (s : State) (b : Nat),
      decision s b = none :=
  ⟨sShard, 0, (by decide +kernel)⟩

theorem wit_StepBoundaryRows_2 :
    ∃ (s : State) (b : Nat) (n : W64),
      b < 4 ∧ decision s b = some false ∧ sessOf s b = none ∧ n = fget s.upd.steps b ∧ (s.upd.shards.map fun p => p.1).Nodup ∧ ((∀ p ∈ s.upd.shards, p.2.berth = b → (readH s (pendH p.2) 0 16).2 = false)) :=
  ⟨(sBound 2), 0, 3, (by decide +kernel), (by decide +kernel), (by decide +kernel), rfl, (by decide +kernel), (by decide +kernel)⟩

theorem wit_StepBoundaryRows_3 :
    ∃ (s : State) (b : Nat) (n : W64) (k : Nat),
      b < 4 ∧ decision s b = some true ∧ n = fget s.upd.steps b ∧ k = fget s.upd.skips b + 1 ∧ (s.upd.shards.map fun p => p.1).Nodup :=
  ⟨sBoundSkip, 0, 3, 2, (by decide +kernel), (by decide +kernel), (by decide +kernel), (by decide +kernel), (by decide +kernel)⟩

theorem wit_StepBoundaryRows_4 :
    ∃ (s : State) (b : Nat) (p : Nat × Shard),
      b < 4 ∧ decision s b = some true ∧ s.upd.shards = [p] ∧ p.2.berth = b ∧ (getHeader s p.2).1 = (fget s.upd.steps b).toNat ∧ (readH s (pendH p.2) 0 64).2 = false ∧ allocated s b (pendH p.2) = true :=
  ⟨{ sBoundSkip with upd := { sBoundSkip.upd with shards := [(5, { shard5 with started := true, reduced := 1 })] } }, 0, (5, { shard5 with started := true, reduced := 1 }), (by decide +kernel), (by decide +kernel), (by decide +kernel), (by decide +kernel), (by decide +kernel), (by decide +kernel), (by decide +kernel)⟩

theorem wit_StepBoundaryRows_5 :
    ∃ (s : State) (i req : Nat) (step : W64) (sh : Shard) (n : Nat),
      mget s.upd.shards i = some sh ∧ n = (fget s.upd.steps sh.berth).toNat :=
  ⟨(sBound 2), 5, 9, 4, { shard5 with started := true, reduced := 1 }, 3, rfl, (by decide +kernel)⟩

theorem wit_StepBoundaryRows_6 :
    ∃ (s : State) (i req : Nat) (step : W64),
      mget s.upd.shards i = none :=
  ⟨sTwo, 5, 9, 4, rfl⟩

theorem wit_PagerMoves_1 :
    ∃ (s : State),
      (rdb s PGR_CTL_run = false ∨ 16 ≤ s.mem.moves.length ∨ inReset s 4 = true ∨ stopping s = true) :=
  ⟨(wr sTwo PGR_CTL_run 0), (Or.inl (by decide +kernel))⟩

theorem wit_PagerMoves_2 :
    ∃ (s : State) (idle : CauseCycles) (b : Nat) (d : List Byte),
      shelfFree s = true ∧ (choose (restDeficits s)).2 = some b ∧ headOf s b = some (.stream d) ∧ (fget s.shelf.fetched b = true ∨ opError s b (parseOp d) false = 0) ∧ droppedOf s (parseOp d) = none :=
  ⟨{ sFreeArr (eltOp 0) with mem := { (sFreeArr (eltOp 0)).mem with moves := [⟨0, 2, 0, 1, 5⟩, ⟨1, 2, 0, 1, 5⟩, ⟨0, 2, 0, 0, 0⟩] } }, [], 0, (eltOp 0), (by decide +kernel), (by decide +kernel), (by decide +kernel), (Or.inr (by decide +kernel)), (by decide +kernel)⟩

theorem wit_PagerMoves_3 :
    ∃ (s : State) (w : Want),
      rdb s PGR_CTL_run = true ∧ s.mem.moves.length < 16 ∧ inReset s 4 = false ∧ stopping s = false ∧ s.mem.allocs = [] ∧ ((∀ b, b < 4 → (window s b).length ≤ fget s.mem.entered b)) ∧ (s.mem.objects.all fun p => p.2.segment.isEmpty || !lostPage s p.2) = true ∧ (wantsOf s 1).head? = some w ∧ freeT2 s w.berth > 0 :=
  ⟨(sPager [⟨0, 1, 0, 1, false⟩] []), ⟨0, 1, 0, 1, false⟩, (by decide +kernel), (by decide +kernel), (by decide +kernel), (by decide +kernel), rfl, (by decide +kernel), (by decide +kernel), (by decide +kernel), (by decide +kernel)⟩

theorem wit_PagerMoves_4 :
    ∃ (s : State) (m : Move) (o : Obj),
      s.mem.moves.find? (fun x => x.berth = m.berth && x.object = m.object && x.page = m.page) = some m ∧ m.kind ≤ 1 ∧ objAt s m.berth m.object = some o ∧ badRange s (objBase m.berth m.object + m.page * pageSize) pageSize = false ∧ s.mem.allocs = [] ∧ s.upd.fetches = [] ∧ o.tier = 2 ∧ m.page < 2 ^ 22 ∧ (s.mem.held.any fun h => h.berth == m.berth && h.object == m.object && h.page == m.page) = false :=
  ⟨(sPager [] [⟨0, 1, 1, 1, 5⟩]), ⟨0, 1, 1, 1, 5⟩, objSplit, (by decide +kernel), (by decide +kernel), rfl, (by decide +kernel), rfl, rfl, rfl, (by decide +kernel), (by decide +kernel)⟩

theorem wit_PagerMoves_5 :
    ∃ (s : State) (m : Move) (o : Obj),
      s.mem.moves.find? (fun x => x.berth = m.berth && x.object = m.object && x.page = m.page) = some m ∧ m.kind ≤ 1 ∧ objAt s m.berth m.object = some o ∧ badRange s (objBase m.berth m.object + m.page * pageSize) pageSize = true ∧ s.mem.allocs = [] ∧ s.upd.fetches = [] ∧ tierAt s (objBase m.berth m.object + m.page * pageSize) = 2 ∧ m.berth < 4 :=
  ⟨{ sPager [] [⟨0, 1, 1, 1, 5⟩] with mem := { (sPager [] [⟨0, 1, 1, 1, 5⟩]).mem with bad := [objBase 0 1 + pageSize + 64] } }, ⟨0, 1, 1, 1, 5⟩, objSplit, (by decide +kernel), (by decide +kernel), rfl, (by decide +kernel), rfl, rfl, (by decide +kernel), (by decide +kernel)⟩

theorem wit_PagerMoves_6 :
    ∃ (s : State) (b o p : Nat),
      s.mem.moves.find? (fun x => x.berth = b && x.object = o && x.page = p) = none :=
  ⟨sTwo, 0, 1, 1, rfl⟩

theorem wit_PagerMoves_7 :
    ∃ (s : State) (tier channel ch : Nat),
      ch = (if tier = 3 then channel else 0) ∧ s.mem.allocs = [] ∧ (s.mem.zeroing.map fun z => (z.1, z.2.1)).Nodup ∧ (s.mem.zeroing.all fun z => z.2.2 != 0) = true :=
  ⟨{ sTwo with mem := { sTwo.mem with zeroing := [(2, 0, 1), (3, 4, 2)] } }, 3, 4, 4, (by decide +kernel), rfl, (by decide +kernel), (by decide +kernel)⟩

theorem wit_MemoryErrors_1 :
    ∃ (s : State) (tier unit n : Nat) (bad : List Nat),
      (tier = 0 ∨ 3 < tier ∨ (if tier = 1 then 4 else if tier = 2 then 8 else 12) ≤ unit ∨ (tier = 3 ∧ hasDdr s.variant = false) ∨ inReset s (tierDomain tier) = true) :=
  ⟨sTwo, 4, 0, 1, [], (Or.inr (Or.inl (by decide +kernel)))⟩

theorem wit_MemoryErrors_2 :
    ∃ (s : State) (unit n : Nat),
      unit < 8 ∧ inReset s 5 = false ∧ recovering s 5 = false :=
  ⟨sDdr, 7, 12, (by decide +kernel), (by decide +kernel), (by decide +kernel)⟩

theorem wit_MemoryErrors_3 :
    ∃ (s : State) (unit a c : Nat),
      unit < 8 ∧ inReset s 5 = false ∧ c = a / 64 * 64 ∧ tierAt s c = 2 :=
  ⟨sDdr, 7, (objBase 0 1 + pageSize + 100), (objBase 0 1 + pageSize + 64), (by decide +kernel), (by decide +kernel), rfl, (by decide +kernel)⟩

theorem wit_MemoryErrors_5 :
    ∃ (s : State) (ch : Nat),
      (hasDdr s.variant = false ∨ 12 ≤ ch ∨ bit (rd s DDR_STAT_in_service) ch = false) :=
  ⟨sTwo, 12, (Or.inr (Or.inl (by decide +kernel)))⟩

theorem wit_MemoryErrors_6 :
    ∃ (s : State) (ch : Nat),
      hasDdr s.variant = true ∧ ch < 12 ∧ bit (rd s DDR_STAT_in_service) ch = true ∧ chanLost s ch = false :=
  ⟨sDdr, 3, rfl, (by decide +kernel), (by decide +kernel), (by decide +kernel)⟩

theorem wit_MemoryErrors_7 :
    ∃ (s : State) (k : Nat) (o : Obj),
      rdb s PGR_CTL_run = true ∧ s.mem.moves.length < 16 ∧ inReset s 4 = false ∧ stopping s = false ∧ s.mem.wants = [] ∧ s.mem.allocs = [] ∧ ((∀ b, b < 4 → (window s b).length ≤ fget s.mem.entered b)) ∧ s.mem.objects = [(k, o)] ∧ lostPage s o = true ∧ o.segment ≠ [] ∧ o.dropped = false ∧ (pinnedHandles s).any (namesKey k) = false :=
  ⟨{ sDdrLost with mem := { sDdrLost.mem with objects := [(2, { objSplit with segment := [waitOp] })] } }, 2, { objSplit with segment := [waitOp] }, (by decide +kernel), (by decide +kernel), (by decide +kernel), (by decide +kernel), rfl, rfl, (by decide +kernel), rfl, (by decide +kernel), (by decide +kernel), rfl, (by decide +kernel)⟩

theorem wit_PortTraining_1 :
    ∃ (s : State) (n : Nat) (id : Ident),
      mayTrain s n = false :=
  ⟨{ sPort 2 Port.idle with pwr := { sTwo.pwr with asleep := true } }, 5, ident7, (by decide +kernel)⟩

theorem wit_PortTraining_2 :
    ∃ (s : State) (n k : Nat) (id : Ident),
      n < 12 ∧ mayTrain s n = true ∧ k = pState s n ∧ k < 5 :=
  ⟨(sPort 0 Port.idle), 5, 0, ident7, (by decide +kernel), (by decide +kernel), (by decide +kernel), (by decide +kernel)⟩

theorem wit_PortTraining_3 :
    ∃ (s : State) (n q : Nat) (id : Ident) (p : Port),
      n < 12 ∧ mayTrain s n = true ∧ pState s n = 5 ∧ q = (if n % 2 = 0 then n + 1 else n - 1) ∧ p = portOf s n ∧ id.port = n ^^^ 2 ∧ ((portPresent s.variant q = false ∨ pState s q ≠ 6 ∨ (portOf s q).serial = id.serial)) ∧ p.waiting = [] :=
  ⟨(sPort 5 Port.idle), 5, 4, ident7, (portOf (sPort 5 Port.idle) 5), (by decide +kernel), (by decide +kernel), (by decide +kernel), rfl, rfl, (by decide +kernel), (Or.inr (Or.inr rfl)), rfl⟩

theorem wit_PortTraining_4 :
    ∃ (s : State) (n q : Nat) (id : Ident),
      n < 12 ∧ mayTrain s n = true ∧ pState s n = 5 ∧ q = (if n % 2 = 0 then n + 1 else n - 1) ∧ ((id.port ≠ n ^^^ 2 ∨ (q < n ∧ portPresent s.variant q = true ∧ pState s q = 6 ∧ (portOf s q).serial ≠ id.serial))) :=
  ⟨(sPort 5 Port.idle), 5, 4, { ident7 with port := 6 }, (by decide +kernel), (by decide +kernel), (by decide +kernel), rfl, (Or.inl (by decide +kernel))⟩

theorem wit_PortTraining_5 :
    ∃ (s : State) (n a : Nat),
      n < 12 ∧ portPresent s.variant n = true ∧ 1 ≤ pState s n ∧ pState s n ≤ 5 ∧ ((since s (portOf s n).since ≥ (if pState s n = 1 then 1 else if pState s n = 2 then 2000 else if pState s n = 3 then 10 else if pState s n = 4 then 1 else 2) ∨
      since s (portOf s n).attempt ≥ rd s CLF_TMO_train)) ∧ a = min 15 (rd s (CLF_TRAIN_attempts.at n) + 1) :=
  ⟨(sPort 4 Port.idle), 5, 1, (by decide +kernel), (by decide +kernel), (by decide +kernel), (by decide +kernel), (Or.inl (by decide +kernel)), (by decide +kernel)⟩

theorem wit_PortTraining_6 :
    ∃ (s : State) (n : Nat),
      (portPresent s.variant n = false ∨ pState s n = 0 ∨ 5 < pState s n ∨
      (since s (portOf s n).since < (if pState s n = 1 then 1 else if pState s n = 2 then 2000 else if pState s n = 3 then 10 else if pState s n = 4 then 1 else 2) ∧
        since s (portOf s n).attempt < rd s CLF_TMO_train)) :=
  ⟨(sPort 2 Port.idle), 5, (Or.inr (Or.inr (Or.inr (by decide +kernel))))⟩

theorem wit_PortTraining_7 :
    ∃ (s : State) (n : Nat),
      n < 12 ∧ mayTrain s n = true :=
  ⟨{ sPort 7 Port.idle with lh := { sTwo.lh with tick := 100040 } }, 5, (by decide +kernel), (by decide +kernel)⟩

theorem wit_PortTraining_8 :
    ∃ (s : State) (n ps : Nat),
      n < 12 :=
  ⟨(sPort 6 Port.idle), 5, 5003, (by decide +kernel)⟩

theorem wit_PortTraffic_1 :
    ∃ (s : State) (n ns : Nat) (f : Flit) (c k : Option Nat),
      usable s n = false :=
  ⟨(sPort 5 portSent), 5, 9000, flit1, (some 0), (some 7), (by decide +kernel)⟩

theorem wit_PortTraffic_2 :
    ∃ (s : State) (n : Nat) (f : Flit) (c k : Option Nat) (p : Port),
      n < 12 ∧ usable s n = true ∧ inReset s (8 + n) = false ∧ p = portOf s n ∧ ((∀ e ∈ k, e = 0 ∨ 6 < e)) ∧ (((∃ e ∈ c, 6 < e) ∨ (∃ e ∈ k, 6 < e) ∨ f.hcrc ≠ flitCrc f ∨ (f.ackV = false ∧ f.crSel = 15 ∧ f.len ≠ 0 ∧ f.seq ≠ p.rxNext))) :=
  ⟨(sPort 6 portSent), 5, (sealFlit { flit1 with seq := 8 }), (some 3), none, (portOf (sPort 6 portSent) 5), (by decide +kernel), (by decide +kernel), (by decide +kernel), rfl, (by decide +kernel), (Or.inr (Or.inr (Or.inr (by decide +kernel))))⟩

theorem wit_PortTraffic_3 :
    ∃ (s : State) (n : Nat) (f : Flit) (c k : Option Nat) (p : Port) (b : Nat),
      n < 12 ∧ usable s n = true ∧ inReset s (8 + n) = false ∧ p = portOf s n ∧ f.hcrc = flitCrc f ∧ f.ackV = false ∧ f.crSel = 15 ∧ f.len ≠ 0 ∧ f.seq = p.rxNext ∧ ((∀ e ∈ c, e ≤ 6)) ∧ ((∀ e ∈ k, e ≤ 6)) ∧ min 65535 ((p.symbols + k.getD 0) / 1000) ≤ rd s (CLF_THRESH_thresh.at n) ∧ b = bufOf f.vc f.cls ∧ f.vc < 3 ∧ f.first = true ∧ mget p.partials f.vc = none :=
  ⟨(wr (sPort 6 portSent) (CLF_THRESH_thresh.at 5) 3), 5, flit1, (some 6), (some 6), (portOf (wr (sPort 6 portSent) (CLF_THRESH_thresh.at 5) 3) 5), 3, (by decide +kernel), (by decide +kernel), (by decide +kernel), rfl, (by decide +kernel), rfl, rfl, (by decide +kernel), rfl, (by decide +kernel), (by decide +kernel), (by decide +kernel), rfl, (by decide +kernel), rfl, rfl⟩

theorem wit_PortTraffic_4 :
    ∃ (s : State) (n : Nat) (f : Flit) (c k : Option Nat) (p : Port) (b d q cls : Nat) (plus det : Bool) (x : OutFlit),
      n < 12 ∧ usable s n = true ∧ inReset s (8 + n) = false ∧ p = portOf s n ∧ f.hcrc = flitCrc f ∧ f.ackV = false ∧ f.crSel = 15 ∧ f.len ≠ 0 ∧ f.seq = p.rxNext ∧ ((∀ e ∈ c, e ≤ 6)) ∧ ((∀ e ∈ k, e ≤ 6)) ∧ min 65535 ((p.symbols + k.getD 0) / 1000) ≤ rd s (CLF_THRESH_thresh.at n) ∧ b = bufOf f.vc f.cls ∧ f.vc < 3 ∧ f.first = true ∧ mget p.partials f.vc = none ∧ f.hops < 127 ∧ routePkt s (n / 4) f.dst f.cls f.detour = .out d plus det cls ∧ dirUp s d plus = [q] ∧ q ≠ n ∧ x = ⟨n, some b, { f with cls := cls, detour := f.detour || det }⟩ ∧ nextFlit { portOf s q with waiting := [x] } = some x ∧ (portOf s q).waiting = [] ∧ (portOf s q).replay.length < 512 :=
  ⟨sTransit, 5, flitOn, (some 6), none, (portOf sTransit 5), 3, 0, 0, 0, true, false, ⟨5, some 3, { flitOn with cls := 0 }⟩, (by decide +kernel), (by decide +kernel), (by decide +kernel), rfl, (by decide +kernel), rfl, rfl, (by decide +kernel), rfl, (by decide +kernel), (by decide +kernel), (by decide +kernel), rfl, (by decide +kernel), rfl, rfl, (by decide +kernel), (by decide +kernel), (by decide +kernel), (by decide +kernel), rfl, (by decide +kernel), rfl, (by decide +kernel)⟩

theorem wit_PortTraffic_5 :
    ∃ (s : State) (n : Nat) (f : Flit) (p : Port),
      n < 12 ∧ usable s n = true ∧ inReset s (8 + n) = false ∧ p = portOf s n ∧ f.hcrc = flitCrc f ∧ f.ackV = true ∧ f.nak = false ∧ f.crSel = 15 ∧ f.len = 0 ∧ p.waiting = [] :=
  ⟨(sPort 6 portSent), 5, (sealFlit { flit1 with ackV := true, ack := 4, len := 0 }), (portOf (sPort 6 portSent) 5), (by decide +kernel), (by decide +kernel), (by decide +kernel), rfl, (by decide +kernel), rfl, rfl, rfl, rfl, rfl⟩

theorem wit_PortTraffic_6 :
    ∃ (s : State) (n ns : Nat) (p : Port),
      n < 12 ∧ usable s n = true ∧ p = portOf s n ∧ rd s (CLF_RETRY_timer.at n) ≤ ns ∧ p.replay ≠ [] :=
  ⟨(sPort 6 portSent), 5, 100000, (portOf (sPort 6 portSent) 5), (by decide +kernel), (by decide +kernel), rfl, (by decide +kernel), (by decide +kernel)⟩

theorem wit_PortTraffic_7 :
    ∃ (s : State) (n ns : Nat),
      ((portOf s n).replay = [] ∨ ns < rd s (CLF_RETRY_timer.at n)) :=
  ⟨(sPort 6 Port.idle), 5, 0, (Or.inl rfl)⟩

theorem wit_PortTraffic_8 :
    ∃ (s : State) (n st : Nat),
      n < 12 :=
  ⟨(sPort 6 portSent), 5, 7, (by decide +kernel)⟩

theorem wit_PortTraffic_9 :
    ∃ (s : State) (n : Nat) (w : CrsWrite),
      n < 12 ∧ portPresent s.variant n = true ∧ w.al = .plain ∧ w.req < 10 ∧ bit w.value.toNat 0 = false :=
  ⟨(sPort 6 portSent), 5, ⟨9, .plain, 4⟩, (by decide +kernel), rfl, rfl, (by decide +kernel), rfl⟩

theorem wit_PortTraffic_10 :
    ∃ (s : State) (n : Nat) (w : CrsWrite),
      n < 12 ∧ mayTrain s n = true ∧ w.al = .plain ∧ w.req < 10 ∧ bit w.value.toNat 0 = true ∧ bit w.value.toNat 1 = true :=
  ⟨(sPort 6 portSent), 5, ⟨9, .plain, 3⟩, (by decide +kernel), (by decide +kernel), rfl, (by decide +kernel), rfl, rfl⟩

theorem wit_PortTraffic_11 :
    ∃ (s : State) (n : Nat),
      n < 12 ∧ portPresent s.variant n = true :=
  ⟨(sPort 8 portSent), 5, (by decide +kernel), rfl⟩

theorem wit_CoordinateWalk_1 :
    ∃ (s : State) (n x y z tag sx sy sz p : Nat),
      (usable s n = false ∨ coreUp s 7 = false) :=
  ⟨sTwo, 5, 1, 2, 0, 9, 4, 3, 1, 7, (Or.inl (by decide +kernel))⟩

theorem wit_CoordinateWalk_2 :
    ∃ (s : State) (n x y z tag sx sy sz p : Nat),
      n < 12 ∧ usable s n = true ∧ coreUp s 7 = true ∧ n ≠ p ^^^ 2 :=
  ⟨sWalkIn, 5, 1, 2, 0, 9, 4, 3, 1, 6, (by decide +kernel), (by decide +kernel), (by decide +kernel), (by decide +kernel)⟩

theorem wit_CoordinateWalk_3 :
    ∃ (s : State) (n x y z tag sx sy sz p mx my mz : Nat),
      n < 12 ∧ usable s n = true ∧ coreUp s 7 = true ∧ n = p ^^^ 2 ∧ x < 64 ∧ y < 64 ∧ z < 32 ∧ tag < 65536 ∧ 1 ≤ sx ∧ sx ≤ 64 ∧ 1 ≤ sy ∧ sy ≤ 64 ∧ 1 ≤ sz ∧ sz ≤ 32 ∧ ((discovered s = false ∨ (rd s CLF_DOMAIN_tag ≠ tag ∧ walkRecent s = false ∧ ∀ b, b < 4 → (berthOf s b).state = 0))) ∧ (mx : Int) = (if p / 4 = 0 then ((x : Int) + if p % 4 < 2 then 1 else -1) % sx else x) ∧ (my : Int) = (if p / 4 = 1 then ((y : Int) + if p % 4 < 2 then 1 else -1) % sy else y) ∧ (mz : Int) = (if p / 4 = 2 then ((z : Int) + if p % 4 < 2 then 1 else -1) % sz else z) :=
  ⟨sWalkIn, 5, 1, 2, 0, 9, 4, 3, 1, 7, 1, 1, 0, (by decide +kernel), (by decide +kernel), (by decide +kernel), (by decide +kernel), (by decide +kernel), (by decide +kernel), (by decide +kernel), (by decide +kernel), (by decide +kernel), (by decide +kernel), (by decide +kernel), (by decide +kernel), (by decide +kernel), (by decide +kernel), (Or.inl rfl), rfl, (by decide +kernel), rfl⟩

theorem wit_CoordinateWalk_4 :
    ∃ (s : State) (n x y z tag sx sy sz p mx my mz : Nat),
      n < 12 ∧ usable s n = true ∧ coreUp s 7 = true ∧ n = p ^^^ 2 ∧ 1 ≤ sx ∧ 1 ≤ sy ∧ 1 ≤ sz ∧ discovered s = true ∧ (mx : Int) = (if p / 4 = 0 then ((x : Int) + if p % 4 < 2 then 1 else -1) % sx else x) ∧ (my : Int) = (if p / 4 = 1 then ((y : Int) + if p % 4 < 2 then 1 else -1) % sy else y) ∧ (mz : Int) = (if p / 4 = 2 then ((z : Int) + if p % 4 < 2 then 1 else -1) % sz else z) :=
  ⟨(sPlaced 0), 5, 1, 0, 0, 9, 4, 3, 1, 7, 1, 2, 0, (by decide +kernel), (by decide +kernel), (by decide +kernel), (by decide +kernel), (by decide +kernel), (by decide +kernel), (by decide +kernel), (by decide +kernel), rfl, (by decide +kernel), rfl⟩

theorem wit_CoordinateWalk_6 :
    ∃ (s : State) (dev k : Nat) (w : Walk) (q : Berth),
      rdb s CLF_COORD_anchor = true ∧ dev < 2 ^ 17 ∧ s.clf.walk = some w ∧ w.lost = false ∧ q = berthOf s w.berth ∧ k = min (2 ^ 18 - 1) (rd s CLF_DISC_COUNT_reports + 1) :=
  ⟨(sAnch 10), 5, 11, ⟨0, 77, 40, false⟩, (berthOf (sAnch 10) 0), (by decide +kernel), (by decide +kernel), rfl, rfl, rfl, (by decide +kernel)⟩

theorem wit_CoordinateWalk_7 :
    ∃ (s : State) (k : Nat) (w : Walk) (q : Berth),
      s.clf.walk = some w ∧ q = berthOf s w.berth :=
  ⟨(sAnch 4), 1, ⟨0, 77, 40, false⟩, (berthOf (sAnch 4) 0), rfl, rfl⟩

theorem wit_CloseWave_1 :
    ∃ (s : State) (b : Nat),
      (boundaryMet s b = false ∨ waveless s b = true ∨ (fget s.lsh.close b).running = true ∨ (fget s.lsh.close b).decided = true ∨ rdb s LSH_CTL_run = false ∨ inReset s 0x14 = true) :=
  ⟨sShard, 0, (Or.inl (by decide +kernel))⟩

theorem wit_CloseWave_2 :
    ∃ (s : State) (b n : Nat) (g : Group),
      b < 4 ∧ boundaryMet s b = true ∧ closeGroup s b = some (n, g) ∧ g.diam ≠ 0 ∧ (fget s.lsh.close b).running = false ∧ (fget s.lsh.close b).decided = false ∧ rdb s LSH_CTL_run = true ∧ inReset s 0x14 = false ∧ ((∃ d ∈ g.close, ∀ x ∈ (fget s.lsh.close b).got, x.1 = 1 → x.2.1 ≠ d)) :=
  ⟨(sWave idleWave), 0, 7, grpC, (by decide +kernel), (by decide +kernel), rfl, (by decide +kernel), rfl, rfl, (by decide +kernel), (by decide +kernel), (by decide +kernel)⟩

theorem wit_CloseWave_4 :
    ∃ (s : State) (p : LshPkt) (n : Nat) (g : Group) (c : Close),
      inReset s 0x14 = false ∧ p.crcOk = true ∧ closeGroup s p.berth = some (n, g) ∧ p.group = n ∧ current s p = true ∧ c = fget s.lsh.close p.berth ∧ ((c.running = false ∨ rdb s LSH_CTL_run = false ∨ (∃ d ∈ g.close, d ≠ p.src ∧ ∀ x ∈ c.got, x.1 = c.round + 1 → x.2.1 ≠ d))) :=
  ⟨(sWave (wave 0 [])), (flagPkt 1 1 true), 7, grpC, (wave 0 []), (by decide +kernel), rfl, rfl, rfl, (by decide +kernel), rfl, (Or.inr (Or.inr (by decide +kernel)))⟩

theorem wit_CloseWave_5 :
    ∃ (s : State) (p : LshPkt) (n : Nat) (g : Group) (c : Close),
      inReset s 0x14 = false ∧ p.crcOk = true ∧ closeGroup s p.berth = some (n, g) ∧ p.group = n ∧ current s p = true ∧ c = fget s.lsh.close p.berth ∧ c.running = true ∧ rdb s LSH_CTL_run = true ∧ p.aux = c.round + 1 ∧ ((∀ d ∈ g.close, d = p.src ∨ ∃ x ∈ c.got, x.1 = c.round + 1 ∧ x.2.1 = d)) :=
  ⟨(sWave (wave 1 [(2, 64, true), (1, 1, false)])), (flagPkt 1 2 false), 7, grpC, (wave 1 [(2, 64, true), (1, 1, false)]), (by decide +kernel), rfl, rfl, rfl, (by decide +kernel), rfl, rfl, (by decide +kernel), rfl, (by decide +kernel)⟩

theorem wit_CloseWave_6 :
    ∃ (s : State) (b n : Nat) (g : Group) (c : Close) (miss : List Nat),
      b < 4 ∧ closeGroup s b = some (n, g) ∧ c = fget s.lsh.close b ∧ miss = silent c g :=
  ⟨(sWave (wave 1 [(2, 64, true)])), 0, 7, grpC, (wave 1 [(2, 64, true)]), [1], (by decide +kernel), rfl, rfl, rfl⟩

theorem wit_ShingleRequests_1 :
    ∃ (s : State),
      (rdb s SHG_CTL_run = false ∨ inReset s 0x17 = true ∨ inReset s 0x3F = true ∨ (s.shg.reqs.all fun r => r.slot.isNone) = true) :=
  ⟨sTwo, (Or.inr (Or.inr (Or.inr rfl)))⟩

theorem wit_ShingleRequests_2 :
    ∃ (s : State) (r : ShgReq) (n : Nat) (q : Berth) (src : List Byte × Bool) (bytes : List Byte),
      rdb s SHG_CTL_run = true ∧ inReset s 0x17 = false ∧ inReset s 0x3F = false ∧ s.shg.reqs.find? (fun r => r.slot.isSome) = some r ∧ r.slot = some n ∧ (tslot s n).inflight = 0 ∧ r.decode = false ∧ missingPages s [r.src, r.dst] = [] ∧ q = berthOf s r.berth ∧ q.state = 1 ∧ (r.seq, 0x0306) ∈ q.inflight ∧ src = readH s r.src 0 (extent s r.src) ∧ bytes = encodeObject r.fmt n (tslot s n).version (planesOf r.fmt src.1).1 (planesOf r.fmt src.1).2 :=
  ⟨(sShg [shgReq false (some 0)]), (shgReq false (some 0)), 0, (berthOf (sShg [shgReq false (some 0)]) 0), (readH (sShg [shgReq false (some 0)]) (mkHandle 0 1) 0 (extent (sShg [shgReq false (some 0)]) (mkHandle 0 1))), (encodeObject 0 0 (tslot (sShg [shgReq false (some 0)]) 0).version (planesOf 0 (readH (sShg [shgReq false (some 0)]) (mkHandle 0 1) 0 (extent (sShg [shgReq false (some 0)]) (mkHandle 0 1))).1).1 (planesOf 0 (readH (sShg [shgReq false (some 0)]) (mkHandle 0 1) 0 (extent (sShg [shgReq false (some 0)]) (mkHandle 0 1))).1).2), (by decide +kernel), (by decide +kernel), (by decide +kernel), rfl, rfl, (by decide +kernel), rfl, (by decide +kernel), rfl, (by decide +kernel), (by decide +kernel), rfl, rfl⟩

theorem wit_ShingleRequests_3 :
    ∃ (s : State) (r : ShgReq) (n : Nat) (q : Berth) (src : List Byte × Bool),
      rdb s SHG_CTL_run = true ∧ inReset s 0x17 = false ∧ inReset s 0x3F = false ∧ s.shg.reqs.find? (fun r => r.slot.isSome) = some r ∧ r.slot = some n ∧ (tslot s n).inflight = 0 ∧ r.decode = true ∧ missingPages s [r.src, r.dst] = [] ∧ q = berthOf s r.berth ∧ q.state = 1 ∧ q.inflight.any (fun p => p.1 = r.seq) = true ∧ src = readH s r.src 0 (extent s r.src) ∧ src.2 = false :=
  ⟨(sShg [shgReq true (some 0)]), (shgReq true (some 0)), 0, (berthOf (sShg [shgReq true (some 0)]) 0), (readH (sShg [shgReq true (some 0)]) (mkHandle 0 1) 0 (extent (sShg [shgReq true (some 0)]) (mkHandle 0 1))), (by decide +kernel), (by decide +kernel), (by decide +kernel), rfl, rfl, (by decide +kernel), rfl, (by decide +kernel), rfl, (by decide +kernel), (by decide +kernel), rfl, (by decide +kernel)⟩

theorem wit_ShingleRequests_4 :
    ∃ (s : State) (r : ShgReq),
      rdb s SHG_CTL_run = true ∧ inReset s 0x17 = false ∧ inReset s 0x3F = false ∧ s.shg.reqs.find? (fun r => r.slot.isSome) = some r ∧ missingPages s [r.src, r.dst] ≠ [] :=
  ⟨{ sShg [shgReq true (some 0)] with mem := { (sShg []).mem with objects := [(1, objSplit)] } }, (shgReq true (some 0)), (by decide +kernel), (by decide +kernel), (by decide +kernel), rfl, (by decide +kernel)⟩

theorem wit_ShingleRequests_5 :
    ∃ (s : State) (r : ShgReq) (i n : Nat),
      s.shg.reqs.findIdx? (fun r => r.slot.isNone) = some i ∧ s.shg.reqs[i]? = some r ∧ r.stream = none ∧ ((r.decode = true → missingPages s [r.src] = [])) ∧ n < 64 ∧ (tslot s n).state = 0 ∧ ((∀ k, k < n → (tslot s k).state ≠ 0)) :=
  ⟨(sShg [shgReq false (some 0), shgReq true none]), (shgReq true none), 1, 1, (by decide +kernel), rfl, rfl, (by decide +kernel), (by decide +kernel), (by decide +kernel), (by decide +kernel)⟩

theorem wit_CollectiveRows_1 :
    ∃ (s : State) (b : Nat),
      ((inReset s 0x14 = true ∨ fget s.shelf.triggers b = [] ∨
      1024 ≤ (fget s.lsh.copies b).length)) :=
  ⟨sGrp, 0, (Or.inr (Or.inl (by decide +kernel)))⟩

theorem wit_CollectiveRows_2 :
    ∃ (s : State) (b : Nat) (t : Trigger) (ts : List Trigger) (l : List (List Byte)),
      b < 4 ∧ inReset s 0x14 = false ∧ fget s.shelf.triggers b = t :: ts ∧ (fget s.lsh.copies b).length + ((fget s.lsh.templates b).filter fun d => (parseColl d).layer = t.layer).length ≤ 1024 ∧ l = fget s.lsh.copies b ++ ((fget s.lsh.templates b).filter fun d => (parseColl d).layer = t.layer).map (fun d =>
      let e := d.set 1 (nth d 1 0 &&& 0xFB)
      if (parseColl d).src = 0 then e.take 8 ++ toLe 6 t.handle.toNat ++ e.drop 14 else e) :=
  ⟨sTrig, 0, ⟨0, 9, 0, 0x1234⟩, [], [[0x31, 0, 1, 0, 0x11, 0, 9, 0, 0x34, 0x12] ++ zeros 10 ++ [4, 0, 0, 0] ++ zeros 40], (by decide +kernel), (by decide +kernel), (by decide +kernel), (by decide +kernel), (by decide +kernel)⟩

theorem wit_CollectiveRows_3 :
    ∃ (s : State) (b c : Nat),
      collMayStart s b c = false :=
  ⟨sGrp, 0, 3, (by decide +kernel)⟩

theorem wit_CollectiveRows_4 :
    ∃ (s : State) (b : Nat) (d : List Byte) (rest : List (List Byte)),
      b < 4 ∧ collMayStart s b 0 = true ∧ (chanOf s b 0).queue = d :: rest ∧ (parseColl d).op = 7 :=
  ⟨sPermQ, 0, permD, [], (by decide +kernel), (by decide +kernel), (by decide +kernel), (by decide +kernel)⟩

theorem wit_CollectiveRows_5 :
    ∃ (s : State) (b c n : Nat) (d : List Byte) (rest : List (List Byte)) (g : Group),
      b < 4 ∧ c < 16 ∧ collMayStart s b c = true ∧ (chanOf s b c).queue = d :: rest ∧ (parseColl d).op ≠ 7 ∧ n = (parseColl d).group ∧ groupOf s b n = some g ∧ fget s.lsh.copies b = [] :=
  ⟨(onChan (chan3 [barrier] [])), 0, 3, 1, barrier, [], grp3, (by decide +kernel), (by decide +kernel), (by decide +kernel), (by decide +kernel), (by decide +kernel), (by decide +kernel), (by decide +kernel), (by decide +kernel)⟩

theorem wit_CollectiveRows_6 :
    ∃ (s : State) (b c n : Nat) (d : List Byte) (rest : List (List Byte)) (g : Group),
      b < 4 ∧ c < 16 ∧ collMayStart s b c = true ∧ (chanOf s b c).queue = d :: rest ∧ (parseColl d).op = 6 ∧ n = (parseColl d).group ∧ groupOf s b n = some g ∧ (s.lsh.early.all fun p => !(p.berth = b && p.group = n && p.cseq = g.cseq)) = true ∧ g.members.length = (parseGrp g.entry).size ∧ g.members.Nodup :=
  ⟨(onChan (chan3 [barrier] [])), 0, 3, 1, barrier, [], grp3, (by decide +kernel), (by decide +kernel), (by decide +kernel), (by decide +kernel), (by decide +kernel), (by decide +kernel), (by decide +kernel), (by decide +kernel), (by decide +kernel), (by decide +kernel)⟩

theorem wit_CollectiveRows_7 :
    ∃ (s : State) (b c : Nat) (x : Coll) (rest : List Coll) (g : Geom),
      b < 4 ∧ c < 16 ∧ inReset s 0x14 = false ∧ (chanOf s b c).active = x :: rest ∧ collGeom s b x = some g ∧ unwritten g x = [] :=
  ⟨(onChan (chan3 [] [coll3 barrierEv [1, 2]])), 0, 3, (coll3 barrierEv [1, 2]), [], (geomOf (parseColl barrierEv) grp3), (by decide +kernel), (by decide +kernel), (by decide +kernel), (by decide +kernel), (by decide +kernel), (by decide +kernel)⟩

theorem wit_CollectiveRows_8 :
    ∃ (s : State) (b c : Nat),
      ((inReset s 0x14 = true ∨ (chanOf s b c).active = [])) :=
  ⟨sGrp, 0, 3, (Or.inr (by decide +kernel))⟩

theorem wit_CollectiveRows_9 :
    ∃ (s : State) (b c : Nat),
      ((∀ x ∈ (chanOf s b c).active, x.toSend.isEmpty = false ∨ (collGeom s b x).any (fun g => collDone g x) = true ∨ since s x.since < groupTmo s (parseGrp ((groupOf s b (parseColl x.desc).group).map (·.entry) |>.getD [])))) :=
  ⟨(onChan (chan3 [] [])), 0, 3, (by decide +kernel)⟩

theorem wit_CollectiveRows_10 :
    ∃ (s : State) (b c : Nat) (x : Coll) (rest : List Coll) (g : Geom) (e : Group) (ranks : List Nat),
      b < 4 ∧ c < 16 ∧ (chanOf s b c).active = x :: rest ∧ collGeom s b x = some g ∧ groupOf s b g.d.group = some e ∧ x.toSend = [] ∧ groupTmo s (parseGrp e.entry) ≤ since s x.since ∧ ranks = (missingParts g x).map (fun m => m.2.2.2) ∧ ranks ≠ [] :=
  ⟨(onChan (chan3 [] [coll3 barrier [1]])), 0, 3, (coll3 barrier [1]), [], (geomOf (parseColl barrier) grp3), grp3, [2], (by decide +kernel), (by decide +kernel), (by decide +kernel), (by decide +kernel), (by decide +kernel), (by decide +kernel), (by decide +kernel), (by decide +kernel), (by decide +kernel)⟩

theorem wit_CollectivePackets_1 :
    ∃ (s : State) (p : LshPkt) (c : Instr),
      ((c = .collectiveDataReceive p ∨ c = .collectiveAckReceive p ∨ c = .collectiveReqReceive p ∨ c = .countReceive p)) ∧ inReset s 0x14 = true :=
  ⟨{ sSum with rst := { sSum.rst with domains := [(0x14, ⟨4, 10, false, false⟩)] } }, sumP, (.collectiveAckReceive sumP), (Or.inr (Or.inl rfl)), (by decide +kernel)⟩

theorem wit_CollectivePackets_2 :
    ∃ (s : State) (p : LshPkt) (c : Instr),
      ((c = .collectiveDataReceive p ∨ c = .collectiveAckReceive p ∨ c = .collectiveReqReceive p ∨ c = .countReceive p)) ∧ inReset s 0x14 = false ∧ p.crcOk = false :=
  ⟨sSum, { sumP with crcOk := false }, (.collectiveDataReceive { sumP with crcOk := false }), (Or.inl rfl), (by decide +kernel), (by decide +kernel)⟩

theorem wit_CollectivePackets_3 :
    ∃ (s : State) (p : LshPkt) (r : CRef) (x : Coll) (g : Geom) (m : Nat × Nat × Nat × Nat),
      inReset s 0x14 = false ∧ p.crcOk = false ∧ rdb s LSH_CTL_run = true ∧ r.b < 4 ∧ r.c ∈ allChans ∧ collAt s r = some x ∧ collGeom s r.b x = some g ∧ m ∈ missingParts g x ∧ g.dev m.2.2.2 = p.src :=
  ⟨sSum, { sumP with crcOk := false }, ⟨0, 3, 0⟩, sumC, (geomOf (parseColl sumD) grp2), (0, 1, 0, 1), (by decide +kernel), (by decide +kernel), (by decide +kernel), (by decide +kernel), (by decide +kernel), (by decide +kernel), (by decide +kernel), (by decide +kernel), (by decide +kernel)⟩

theorem wit_CollectivePackets_4 :
    ∃ (s : State) (p : LshPkt) (c : Instr),
      (c = .collectiveDataReceive p ∨ c = .collectiveAckReceive p ∨ c = .collectiveReqReceive p) ∧ inReset s 0x14 = false ∧ p.crcOk = true ∧ (if p.op = 7 then permCurrent s p = none else current s p = false) :=
  ⟨sSum, { sumP with epoch := 1 }, (.collectiveAckReceive { sumP with epoch := 1 }), (Or.inr (Or.inl rfl)), (by decide +kernel), (by decide +kernel), (by decide +kernel)⟩

theorem wit_CollectivePackets_5 :
    ∃ (s : State) (p : LshPkt) (g : Group) (dup : Bool),
      p.berth < 4 ∧ inReset s 0x14 = false ∧ p.crcOk = true ∧ p.op ≠ 7 ∧ current s p = true ∧ findColl s p = none ∧ groupOf s p.berth p.group = some g ∧ dup = (decide (p.cseq < g.cseq) || s.lsh.early.any fun q => (q.src, q.group, q.cseq, q.berth) = (p.src, p.group, p.cseq, p.berth) && (q.level, q.node, q.chunk) = (p.level, p.node, p.chunk)) :=
  ⟨sSum, { sumP with cseq := 1 }, grp2, false, (by decide +kernel), (by decide +kernel), (by decide +kernel), (by decide +kernel), (by decide +kernel), (by decide +kernel), (by decide +kernel), (by decide +kernel)⟩

theorem wit_CollectivePackets_6 :
    ∃ (s : State) (p : LshPkt) (r : CRef) (x : Coll) (g : Geom) (q : Nat),
      p.berth < 4 ∧ inReset s 0x14 = false ∧ p.crcOk = true ∧ p.op ≠ 7 ∧ current s p = true ∧ findColl s p = some r ∧ collAt s r = some x ∧ collGeom s p.berth x = some g ∧ g.rankOf p.src = some q ∧ hasPart g x (p.level, p.node, p.chunk, q) = true :=
  ⟨(onLive grp2 (chan3 [] [{ sumC with nodes := mset sumC.nodes (nodeKey 0 1 0) [1, 2] }])), sumP, ⟨0, 3, 0⟩, { sumC with nodes := mset sumC.nodes (nodeKey 0 1 0) [1, 2] }, (geomOf (parseColl sumD) grp2), 1, (by decide +kernel), (by decide +kernel), (by decide +kernel), (by decide +kernel), (by decide +kernel), (by decide +kernel), (by decide +kernel), (by decide +kernel), (by decide +kernel), (by decide +kernel)⟩

theorem wit_CollectivePackets_7 :
    ∃ (s : State) (p : LshPkt) (r : CRef) (x : Coll) (g : Geom) (gc : Nat) (v w root : List W32) (f : W32 → W32 → W32),
      p.berth < 4 ∧ inReset s 0x14 = false ∧ p.crcOk = true ∧ current s p = true ∧ findColl s p = some r ∧ r.c < 16 ∧ collAt s r = some x ∧ collGeom s p.berth x = some g ∧ g.d.op = 1 ∧ p.op ≠ 7 ∧ g.size = 2 ∧ g.rank < 2 ∧ g.halving = false ∧ p.level = 0 ∧ p.node = 1 - g.rank ∧ g.rankOf p.src = some p.node ∧ gc = g.rank * g.cmax + p.chunk ∧ mget x.nodes (nodeKey 0 g.rank gc) = some v ∧ mget x.nodes (nodeKey 0 p.node gc) = none ∧ w = (chunks 4 p.data).map (fun l => BitVec.ofNat 32 (leNat l)) ∧ f = (if g.d.red = 2 then fmax else if g.d.red = 3 then fmin else fadd) ∧ root = (if g.rank = 0 then List.zipWith f v w else List.zipWith f w v).map (fun y => if g.d.red = 1 then fmul y (fdiv one32 (f32Nat 2)) else y) :=
  ⟨sSum, sumP, ⟨0, 3, 0⟩, sumC, (geomOf (parseColl sumD) grp2), 0, [0x3F800000, 0x40000000], [0x40400000, 0x40800000], [0x40800000, 0x40C00000], fadd, (by decide +kernel), (by decide +kernel), (by decide +kernel), (by decide +kernel), (by decide +kernel), (by decide +kernel), (by decide +kernel), (by decide +kernel), (by decide +kernel), (by decide +kernel), (by decide +kernel), (by decide +kernel), (by decide +kernel), (by decide +kernel), (by decide +kernel), (by decide +kernel), (by decide +kernel), (by decide +kernel), (by decide +kernel), (by decide +kernel), rfl, (by decide +kernel)⟩

theorem wit_CollectivePackets_8 :
    ∃ (s : State) (p : LshPkt) (r : CRef) (x : Coll),
      p.berth < 4 ∧ inReset s 0x14 = false ∧ p.crcOk = true ∧ p.op ≠ 7 ∧ current s p = true ∧ findColl s p = some r ∧ collAt s r = some x :=
  ⟨sWait, { collP 1 0 [] with aux := 1 }, ⟨0, 3, 0⟩, { sumC with unacked := [(7, 1)], toSend := [(7, sumP)] }, (by decide +kernel), (by decide +kernel), (by decide +kernel), (by decide +kernel), (by decide +kernel), (by decide +kernel), (by decide +kernel)⟩

theorem wit_CollectivePackets_9 :
    ∃ (s : State) (p : LshPkt) (r : CRef) (x : Coll) (g : Geom) (q a m : Nat),
      p.berth < 4 ∧ inReset s 0x14 = false ∧ p.crcOk = true ∧ p.op ≠ 7 ∧ rdb s LSH_CTL_run = true ∧ current s p = true ∧ findColl s p = some r ∧ r.c < 16 ∧ collAt s r = some x ∧ collGeom s p.berth x = some g ∧ x.srcRank = g.rank ∧ g.d.op = 1 ∧ 2 ≤ g.size ∧ g.halving = false ∧ p.level = 0 ∧ p.node = g.rank ∧ g.rankOf p.src = some q ∧ mget x.nodes (nodeKey 0 g.rank (q * g.cmax + p.chunk)) = none ∧ a = q * cdiv g.d.count g.size + p.chunk * 1792 ∧ m = min 1792 (g.len q - p.chunk * 1792) :=
  ⟨sSum, (collP 2 0 []), ⟨0, 3, 0⟩, sumC, (geomOf (parseColl sumD) grp2), 1, 2, 2, (by decide +kernel), (by decide +kernel), (by decide +kernel), (by decide +kernel), (by decide +kernel), (by decide +kernel), (by decide +kernel), (by decide +kernel), (by decide +kernel), (by decide +kernel), (by decide +kernel), (by decide +kernel), (by decide +kernel), (by decide +kernel), (by decide +kernel), (by decide +kernel), (by decide +kernel), (by decide +kernel), (by decide +kernel), (by decide +kernel)⟩

theorem wit_CollectivePackets_10 :
    ∃ (s : State) (b : Nat),
      ((fget s.lsh.permute b).phase = 0 ∨ permRole s b = none ∨ inReset s 0x14 = true ∨ rdb s LSH_CTL_run = false) :=
  ⟨sSum, 0, (Or.inl (by decide +kernel))⟩

theorem wit_CollectivePackets_11 :
    ∃ (s : State) (b r size : Nat) (role : PermRole) (x : Permute) (v : W64 × W64),
      b < 4 ∧ x = fget s.lsh.permute b ∧ x.phase ≠ 0 ∧ inReset s 0x14 = false ∧ rdb s LSH_CTL_run = true ∧ permRole s b = some role ∧ size = (parseGrp role.old.entry).size ∧ 2 ≤ size ∧ r = (if x.waiting then x.round else x.round + 1) ∧ ((x.waiting = true → mget x.got (countKey x.phase r 0 role.rank) = some v)) ∧ ((x.waiting = false → v = if x.phase = 1 then (x.sent, x.accepted) else (x.moveSent, x.moveAcc))) ∧ ((role.rank % 2 = 1 ∨ (role.rank + 1 < size ∧ mget x.got (countKey x.phase r 0 (role.rank + 1)) = none))) :=
  ⟨(sPerm 1 (permX 1 0 false [])), 0, 1, 2, (roleN 1), (permX 1 0 false []), (5, 4), (by decide +kernel), (by decide +kernel), (by decide +kernel), (by decide +kernel), (by decide +kernel), (by decide +kernel), rfl, (by decide +kernel), (by decide +kernel), (by decide +kernel), (by decide +kernel), (by decide +kernel)⟩

theorem wit_CollectivePackets_12 :
    ∃ (s : State) (p : LshPkt) (x : Permute),
      inReset s 0x14 = false ∧ p.crcOk = true ∧ x = fget s.lsh.permute p.berth ∧ ((fld p.data 16 1 = 0 ∨ fld p.data 16 1 < x.phase ∨ ((closeGroup s p.berth).any fun g => p.epoch = (parseGrp g.2.entry).epoch) = false ∨
      p.step.toNat ≠ (fget s.upd.steps p.berth).toNat % 2 ^ 32 ∨ p.try_ ≠ tryOf s p.berth)) :=
  ⟨sSum, (sumsP 1 1 0 2 3), Permute.none, (by decide +kernel), (by decide +kernel), (by decide +kernel), (Or.inr (Or.inr (Or.inl (by decide +kernel))))⟩

theorem wit_CollectivePackets_13 :
    ∃ (s : State) (p : LshPkt) (n : Nat) (g : Group) (x : Permute) (role : PermRole) (v : W64 × W64) (k : Nat),
      p.berth < 4 ∧ inReset s 0x14 = false ∧ p.crcOk = true ∧ x = fget s.lsh.permute p.berth ∧ x.phase ≠ 0 ∧ fld p.data 16 1 = x.phase ∧ closeGroup s p.berth = some (n, g) ∧ permRole s p.berth = some role ∧ p.epoch = (parseGrp g.entry).epoch ∧ p.step.toNat = (fget s.upd.steps p.berth).toNat % 2 ^ 32 ∧ p.try_ = tryOf s p.berth ∧ v = (BitVec.ofNat 64 (fld p.data 0 8), BitVec.ofNat 64 (fld p.data 8 8)) ∧ k = countKey x.phase p.chunk p.level p.node ∧ (s.lsh.staged.map fun q => q.1).Nodup :=
  ⟨(sPerm 1 (permX 1 1 true [])), (sumsP 1 1 0 2 3), 2, (grpN 1 3), (permX 1 1 true []), (roleN 1), (2, 3), (countKey 1 1 1 0), (by decide +kernel), (by decide +kernel), (by decide +kernel), (by decide +kernel), (by decide +kernel), (by decide +kernel), (by decide +kernel), (by decide +kernel), (by decide +kernel), (by decide +kernel), (by decide +kernel), (by decide +kernel), rfl, (by decide +kernel)⟩

theorem wit_CollectivePackets_14 :
    ∃ (s : State) (p : LshPkt) (role : PermRole) (x : Permute) (e : MapEnt) (first : Nat) (w : State × Bool),
      p.berth < 4 ∧ inReset s 0x14 = false ∧ p.crcOk = true ∧ p.op = 7 ∧ permCurrent s p = some role ∧ x = fget s.lsh.permute p.berth ∧ entOf x.entries p.chunk = some (e, first) ∧ e.rank = (parseGrp role.new.entry).rank ∧ w = writeH s e.dst ((p.chunk - first) / 293 * 2097152 + (p.chunk - first) % 293 * 7168) p.data :=
  ⟨(sPerm 0 (permX 2 0 false [])), moveP, (roleN 0), (permX 2 0 false []), ⟨mkHandle 3 1, 0, 1, 0, mkHandle 0 2⟩, 0, (writeH (sPerm 0 (permX 2 0 false [])) (mkHandle 0 2) 21504 (List.replicate 8 5)), (by decide +kernel), (by decide +kernel), (by decide +kernel), (by decide +kernel), (by decide +kernel), (by decide +kernel), (by decide +kernel), (by decide +kernel), rfl⟩

theorem wit_MemoryCommandsEnd_1 :
    ∃ (s : State) (h : EcpHdr) (size : W64) (tier policy pages n : Nat),
      admitted s h 0x0301 [] = true ∧ n = nextNumber s h.berth (s.mem.objects.length + 2) (fget s.mem.nextObj h.berth) ∧ pages = cdiv size.toNat pageSize ∧ size ≠ 0 ∧ size.toNat ≤ 2 ^ 42 ∧ policy ≤ 3 ∧ tableRoom s 1 pages = true ∧ (((tier = 1 ∧ policy = 0 ∧ pages ≤ freeT1 s h.berth) ∨ (tier = 2 ∧ pages ≤ freeT2 s h.berth) ∨
      (tier = 3 ∧ hasDdr s.variant = true ∧ pages ≤ quotaT3 s h.berth ∧ (t3Pages s 0 pages).isSome = true))) :=
  ⟨sRoom, (hdr 0), 5000000, 3, 2, 3, 2, (by decide +kernel), rfl, rfl, (by decide +kernel), (by decide +kernel), (by decide +kernel), (by decide +kernel), (by right; right; decide +kernel)⟩

theorem wit_MemoryCommandsEnd_2 :
    ∃ (s : State) (h : EcpHdr) (handle : BitVec 48) (o : Obj),
      admitted s h 0x0302 [] = true ∧ objOf s handle = some o ∧ hBerth handle = h.berth ∧ o.freeing = false ∧ segmentOperand s h.berth (hObj handle) = false :=
  ⟨sRoom, (hdr 0), hObj1, (obj1 1), (by decide +kernel), (by decide +kernel), (by decide +kernel), (by decide +kernel), (by decide +kernel)⟩

theorem wit_MemoryCommandsEnd_3 :
    ∃ (s : State) (b n : Nat),
      ((objAt s b n).any fun o => o.freeing) = true ∧ stillNamed s b n = false ∧ s.mem.allocs = [] :=
  ⟨sFreed, 0, 1, (by decide +kernel), (by decide +kernel), (by decide +kernel)⟩

theorem wit_MemoryCommandsEnd_4 :
    ∃ (s : State) (h : EcpHdr) (t1 t2 t3 spill bal : Nat),
      admitted s h 0x0303 [] = true ∧ ((t3 ≠ 0 → hasDdr s.variant = true)) ∧ memConfigOk s h.berth t1 t2 t3 spill bal = true ∧ s.mem.allocs = [] :=
  ⟨sRoom, (hdr 0), 20, 90, 80, 5, 1, (by decide +kernel), (fun _ => (by decide +kernel)), (by decide +kernel), (by decide +kernel)⟩

theorem wit_MemoryCommandsEnd_5 :
    ∃ (s : State) (h : EcpHdr) (handle : BitVec 48) (signal : W16) (offset : W64) (data : List Byte),
      admitted s h 0x0304 [] = true ∧ data ≠ [] ∧ data.length ≤ 8192 ∧ rangeOk s h.berth handle offset.toNat data.length = true ∧ badWrite s (addrOf handle + offset.toNat) data.length = false :=
  ⟨sTwo, (hdr 0), hObj1, 0x8005, 100, [1,0,3], (by decide +kernel), (by decide +kernel), (by decide +kernel), (by decide +kernel), (by decide +kernel)⟩

theorem wit_MemoryCommandsEnd_6 :
    ∃ (s : State) (h : EcpHdr) (handle : BitVec 48) (offset : W64) (length pace : Nat),
      admitted s h 0x0305 [] = true ∧ 1 ≤ length ∧ length ≤ 1048576 ∧ rangeOk s h.berth handle offset.toNat length = true ∧ badRange s (addrOf handle + offset.toNat) length = false :=
  ⟨sTwo, (hdr 0), hObj1, 0, 9000, 0, (by decide +kernel), (by decide +kernel), (by decide +kernel), (by decide +kernel), (by decide +kernel)⟩

theorem wit_MemoryCommandsEnd_7 :
    ∃ (s : State) (h : EcpHdr) (slot n : Nat),
      admitted s h 0x0308 [] = true ∧ slot ≤ 1023 ∧ 1 ≤ n ∧ n ≤ 32767 :=
  ⟨sOpen, (hdr 0), 1023, 32767, (by decide +kernel), (by decide +kernel), (by decide +kernel), (by decide +kernel)⟩

theorem wit_MemoryCommandsEnd_8 :
    ∃ (s : State) (h : EcpHdr) (src dst : BitVec 48) (fmt : Nat),
      admitted s h 0x0306 [] = true ∧ allocated s h.berth src = true ∧ allocated s h.berth dst = true ∧ isDropped s src = false ∧ isDropped s dst = false ∧ isCoded s src = false ∧ isCoded s dst = false ∧ ((objOf s dst).any fun o => o.policy ≤ 1) = true ∧ hView dst = 0 ∧ codedFmt fmt = true :=
  ⟨sTwo, (hdr 0), hObj1, (mkHandle 0 1), 0, (by decide +kernel), (by decide +kernel), (by decide +kernel), (by decide +kernel), (by decide +kernel), (by decide +kernel), (by decide +kernel), (by decide +kernel), (by decide +kernel), (by decide +kernel)⟩

theorem wit_MemoryCommandsEnd_9 :
    ∃ (s : State) (h : EcpHdr) (src dst : BitVec 48),
      admitted s h 0x0307 [] = true ∧ allocated s h.berth src = true ∧ allocated s h.berth dst = true ∧ isDropped s dst = false ∧ ((objOf s src).any fun o => o.coded && !o.dropped) = true ∧ hView src = 0 :=
  ⟨sTwo, (hdr 0), (mkHandle 0 2), hObj1, (by decide +kernel), (by decide +kernel), (by decide +kernel), (by decide +kernel), (by decide +kernel), (by decide +kernel)⟩


/-! ### Ill-formed commands: one for each check of WellFormed, which refuses it; and well-formed ones of the same constructors -/

def wfBadH : EcpHdr := { h0 with iface := 4 }
def wfW : CrsWrite := ⟨0, .plain, 0⟩
def wfFlit : Flit := { vc := 0, cls := 0, first := true, last := true, detour := false, dst := 0, hops := 0, src := 0, len := 0, seq := 0, ack := 0, ackV := false, nak := false, crSel := 0, crTotal := 0, hcrc := 0, payload := [] }
def wfLsh : LshPkt := flagPkt 0 0 false
def wfOfs : OfsPkt := { magic := 0, version := 1, type := 0, route := 0, keyEpoch := 0, srcSite := 0, dstSite := 0, session := 0, device := 0, round := 0, pseq := 0, stream := 0, offset := 0, objLen := 0, aux := 0, reset := false, rsv4 := 0, rsv7 := 0, iv := 0, len := 0, tag := 0, payload := [] }
def wfSwl : SwlParams := { cls := 0, slot := 0, gmac := false, decrypt := false, iv := 0, aad := [], data := [], buffer := 0, tag := 0 }
def wfPtp : PtpInfo := { iface := 0, domain := 0, kind := 0, offsetNs := 0, timeNs := 0, locks := true }
def wfOfsP : OfsParams := { session := 0, berth := 0, site := 0, members := 0, h := 0, sMax := 0, fmt := 0, etaChan := 0, mu := 0, nesterov := 0, w1 := 0, w2 := 0, w3 := 0, udpPort := 0, peers := [], store := 0, rxStore := 0, rekey := 0, join := none }
def wfFrame : FrameInfo := { fcsOk := true, etherType := 0, tags := 0, vid := 0, size := 0, multicast := false, groupOk := true, extHeader := false, nextHeader := 0, icmpType := 0, udpPort := 0, udpSum := 0, udpSumOk := true }
/-- Every command of a list is refused. -/
def refusedAll (l : List Instr) : Bool := l.all fun i => !i.wf

theorem test_wf_header : [{ h0 with iface := 4 }, { h0 with version := 256 }, { h0 with berth := 256 }, { h0 with plane := 256 }, { h0 with epoch := 65536 }, { h0 with keyEpoch := 256 }].all (fun h => !h.wf) = true ∧ h0.wf = true := by decide
theorem test_wf_flit : [{ wfFlit with vc := 4 }, { wfFlit with cls := 4 }, { wfFlit with dst := 2 ^ 17 }, { wfFlit with hops := 128 }, { wfFlit with src := 2 ^ 17 }, { wfFlit with len := 241 }, { wfFlit with payload := zeros 241 }, { wfFlit with seq := 4096 }, { wfFlit with ack := 4096 }, { wfFlit with crSel := 16 }, { wfFlit with crTotal := 4096 }].all (fun f => !f.wf) = true ∧ wfFlit.wf = true := by decide +kernel
theorem test_wf_lsh : [{ wfLsh with op := 8 }, { wfLsh with kind := 8 }, { wfLsh with berth := 4 }, { wfLsh with chunk := 2 ^ 32 }, { wfLsh with level := 32 }].all (fun p => !p.wf) = true ∧ wfLsh.wf = true := by decide +kernel
theorem test_wf_ofs : [{ wfOfs with route := 2 }, { wfOfs with srcSite := 16 }, { wfOfs with dstSite := 16 }, { wfOfs with payload := zeros 8873 }, { wfOfs with type := 256 }, { wfOfs with len := 2 ^ 16 }].all (fun p => !p.wf) = true ∧ wfOfs.wf = true := by decide +kernel
theorem test_wf_refused_1 : refusedAll [
    .devInfo wfBadH, .hello wfBadH 0 0 (zeros 1184) (zeros 1312) (zeros 2420), .hello h0 0 0 (zeros 1183) (zeros 1312) (zeros 2420), .hello h0 0 0 (zeros 1184) (zeros 1311) (zeros 2420),
    .hello h0 0 0 (zeros 1184) (zeros 1312) (zeros 2419), .berthClose wfBadH, .rekey wfBadH (zeros 1184), .rekey h0 (zeros 1183),
    .ping wfBadH, .eventAck wfBadH 0, .alloc wfBadH 0 0 0, .alloc h0 0 (256) 0,
    .alloc h0 0 0 (256), .free wfBadH 0, .objectRelease (4) 0, .objectRelease 0 (2 ^ 30),
    .memConfig wfBadH 0 0 0 0 0, .memConfig h0 (65536) 0 0 0 0, .memConfig h0 0 (65536) 0 0 0, .memConfig h0 0 0 (65536) 0 0,
    .memConfig h0 0 0 0 (65536) 0, .memConfig h0 0 0 0 0 (65536), .write wfBadH 0 0 0 [], .write h0 0 0 0 (List.replicate 65536 0)] = true := by decide +kernel
theorem test_wf_refused_2 : refusedAll [
    .read wfBadH 0 0 0 0, .read h0 0 0 (2 ^ 32) 0, .read h0 0 0 0 (65536), .code wfBadH 0 0 0,
    .code h0 0 0 (256), .decode wfBadH 0 0, .signal wfBadH 0 0, .signal h0 (65536) 0,
    .signal h0 0 (65536), .submit wfBadH 0 [], .submit h0 0 [zeros 128, zeros 129], .postColl wfBadH 0 0 [],
    .postColl h0 (256) 0 [], .postColl h0 0 0 [zeros 64, zeros 65], .streamResume wfBadH 0, .streamResume h0 (256),
    .streamFlush wfBadH 0 0, .recomputeReg wfBadH 0 [], .recomputeReg h0 0 [zeros 128, zeros 129], .censusRead wfBadH 0 0,
    .censusRead h0 (65536) 0, .censusRead h0 0 (65536), .streamMode wfBadH 0 0, .streamMode h0 (256) 0] = true := by decide +kernel
theorem test_wf_refused_3 : refusedAll [
    .streamMode h0 0 (256), .groupWrite wfBadH (zeros 64), .groupWrite h0 (zeros 63), .groupRelease wfBadH 0,
    .groupRelease h0 (65536), .discover wfBadH 0 0 0 0, .discover h0 (256) 0 0 0, .discover h0 0 (65536) 0 0,
    .discover h0 0 0 (65536) 0, .discover h0 0 0 0 (65536), .templateClear wfBadH 0, .templateClear h0 (65536),
    .fslotAlloc wfBadH, .fslotWrite wfBadH 0 (zeros 64), .fslotWrite h0 (65536) (zeros 64), .fslotWrite h0 0 (zeros 63),
    .fslotRelease wfBadH 0, .fslotRelease h0 (65536), .solverWs wfBadH 0, .shardWrite wfBadH 0 (zeros 64),
    .shardWrite h0 (65536) (zeros 64), .shardWrite h0 0 (zeros 63), .shardRelease wfBadH 0, .shardRelease h0 (65536)] = true := by decide +kernel
theorem test_wf_refused_4 : refusedAll [
    .stateLoad wfBadH 0 0 0, .stateLoad h0 (65536) 0 0, .updWs wfBadH 0, .progLoad wfBadH 0 [],
    .progLoad h0 (256) [], .progLoad h0 0 (List.replicate 65536 0), .schedWrite wfBadH 0 (zeros 32), .schedWrite h0 (256) (zeros 32),
    .schedWrite h0 0 (zeros 31), .stepSet wfBadH 0, .ofsOpen wfBadH wfOfsP, .ofsStream wfBadH 0 0,
    .ofsStream h0 (65536) 0, .ofsStream h0 0 (65536), .ofsSite wfBadH 0 false 0 false, .ofsSite h0 (256) false 0 false,
    .ofsSite h0 0 false (2 ^ 32) false, .ofsRekey wfBadH, .ofsClose wfBadH, .regRead wfBadH 0 0,
    .regRead h0 0 (65536), .regWrite wfBadH 0 0, .mbxRead wfBadH 0, .mbxRead h0 (65536)] = true := by decide +kernel
theorem test_wf_refused_5 : refusedAll [
    .crashRead wfBadH 0 0, .crashRead h0 0 (2 ^ 32), .returnToService wfBadH false false false, .errlogRead wfBadH 0,
    .diag wfBadH 0 0, .diag h0 (65536) 0, .domainReset wfBadH 0, .domainReset h0 (256),
    .fwStage wfBadH 0 [], .fwStage h0 (2 ^ 32) [], .fwStage h0 0 (List.replicate 65536 0), .fwActivate wfBadH 0,
    .fwActivate h0 (256), .attest wfBadH (zeros 32), .attest h0 (zeros 31), .lifecycle wfBadH 0 [],
    .lifecycle h0 (256) [], .pwrStatus wfBadH, .pwrCap wfBadH 0, .pwrCap h0 (65536),
    .ecpPacketInvalid (4) 0 [], .ecpPacketInvalid 0 (65536) [], .frameDiscard (4) wfFrame, .neighbourSolicitation (4) 0 0 0] = true := by decide +kernel
theorem test_wf_refused_6 : refusedAll [
    .neighbourAdvertisement (4) 0 0, .echoRequest (4) 0 0 [], .ptpMessage ({ wfPtp with iface := 4 }), .ptpMessage ({ wfPtp with domain := 256 }),
    .ptpMessage ({ wfPtp with kind := 4 }), .linkChange (4) false, .hostLinkDownTimeout (2), .leaseExpiry (4),
    .eventResend (4), .submitHoldTimeout (4) 0, .opStart [([15], 1)], .opComplete [([15], 1)],
    .enginePassComplete [([15], 1)], .updateStart (4), .tileFault (1024) 0, .tileFault 0 (4),
    .waveWatchdogExpiry (1024) 0, .shfIssueEnWrite ({ wfW with req := 10 }), .shfCounterClear ({ wfW with req := 10 }), .numDirtyPop (4) wfW,
    .numDirtyPop 0 ({ wfW with req := 10 }), .stepBoundary (4), .shardFetch (65536) 0 0, .pagerMoveComplete (4) 0 0] = true := by decide +kernel
theorem test_wf_refused_7 : refusedAll [
    .pagerMoveComplete 0 (2 ^ 30) 0, .pageZeroComplete 0 0, .pageZeroComplete (4) 0, .pageZeroComplete 1 (12),
    .memoryScrub (4) 0 0 [], .ddrChannelLost (12), .hbmStackFail (8), .portTrainingStep (12) ⟨0, 0, none, 0, 0⟩,
    .trainingTimeout (12), .portRetryTimer (12), .latencyProbe (12) 0, .flitReceive (12) wfFlit (some 0) none,
    .flitReceive 0 ({ wfFlit with vc := 4 }) (some 0) none, .flitReceive 0 wfFlit none none, .replayTimerExpiry (12) 0, .portDown (12) 0,
    .portDown 0 (16), .portRetrainWrite (12) wfW, .portRetrainWrite 0 ({ wfW with req := 10 }), .portEnableClear (12) wfW,
    .portEnableClear 0 ({ wfW with req := 10 }), .cableRemoved (12), .cableSupplyOvercurrent (12) 0, .assignReceive (12) 0 0 0 0 0 0 0 0] = true := by decide +kernel
theorem test_wf_refused_8 : refusedAll [
    .assignReceive 0 (64) 0 0 0 0 0 0 0, .assignReceive 0 0 (64) 0 0 0 0 0 0, .assignReceive 0 0 0 (64) 0 0 0 0 0, .assignReceive 0 0 0 0 0 0 0 0 (12),
    .reportReceive (2 ^ 18), .tickFlitReceive (12) 0 0 0, .triggerTake (4), .collectiveStart (4) 0,
    .collectiveStart 0 (16), .collectiveComplete (4) 0, .collectiveComplete 0 (16), .collectiveDataReceive ({ wfLsh with berth := 4 }),
    .collectiveAckReceive ({ wfLsh with berth := 4 }), .collectiveReqReceive ({ wfLsh with berth := 4 }), .collectiveTimeout (4) 0, .collectiveTimeout 0 (16),
    .closeWaveStart (4), .flagReceive ({ wfLsh with berth := 4 }), .closeWaveTimeout (4), .countRound (4),
    .countReceive ({ wfLsh with berth := 4 }), .seawallRequest ({ wfSwl with cls := 8 }), .seawallRequestComplete (8), .keyLoad ({ wfW with req := 10 })] = true := by decide +kernel
theorem test_wf_refused_9 : refusedAll [
    .keyRetire ({ wfW with req := 10 }), .keyErase ({ wfW with req := 10 }), .seawallAlarm (4), .alarmClear ({ wfW with req := 10 }) 0,
    .offshoreWaitEnd (4), .offshoreWaitTimeout (4), .ofsDataReceive ({ wfOfs with route := 2 }) 0, .ofsSnapReceive ({ wfOfs with route := 2 }) 0,
    .ofsSackReceive ({ wfOfs with route := 2 }) 0, .ofsSackSend (4) 0 0, .ofsSackSend 0 (16) 0, .ofsRtoExpiry (4) 0 0,
    .ofsRtoExpiry 0 (16) 0, .pacingRateStep (4) 0 0, .pacingRateStep 0 (16) 0, .ofsProbeSend (4) 0 0,
    .ofsProbeSend 0 (16) 0, .ofsProbeReceive ({ wfOfs with route := 2 }) 0, .routeDown (4) 0 0 0, .routeDown 0 (16) 0 0,
    .routeDown 0 0 (2) 0, .peerLost (4) 0, .peerLost 0 (16), .keyInitReceive ({ wfOfs with route := 2 }) 0] = true := by decide +kernel
theorem test_wf_refused_10 : refusedAll [
    .keyRespReceive ({ wfOfs with route := 2 }) 0, .keyInitResend (4) 0 0, .keyInitResend 0 (16) 0, .handshakeTimeout (4) 0 0,
    .handshakeTimeout 0 (16) 0, .handshakeRetry (4) 0, .handshakeRetry 0 (16), .registerWrite (10) 0 0,
    .mbxSelWrite ({ wfW with req := 10 }), .mbxSnapshotReady (10), .mbxD3Read (10) .plain, .mbxDiscard ({ wfW with req := 10 }),
    .icuClaimRead (10) .plain, .icfClaimRead (10) .plain, .icuEoiWrite ({ wfW with req := 10 }), .icfEoiWrite ({ wfW with req := 10 }),
    .icuPendWrite (8) wfW, .icuPendWrite 0 ({ wfW with req := 10 }), .icuStormUnmask (8) wfW, .icuStormUnmask 0 ({ wfW with req := 10 }),
    .interruptSourceEvent (256) false, .bcnWakeNow ({ wfW with req := 10 }), .tidUsedRead (10) 0 .plain, .tidUsedRead 0 (8) .plain] = true := by decide +kernel
theorem test_wf_refused_11 : refusedAll [
    .coreTickDone ({ wfW with req := 10 }) 0, .coreWatchdogExpiry (8), .coreRestart ({ wfW with req := 10 }), .coreRestartFallback (8),
    .coreRestartDone (8), .sleepEnter ({ wfW with req := 10 }), .sleepExit ({ wfW with req := 10 }), .pllUnlock (8),
    .rstReqGo ({ wfW with req := 10 }), .hangDetect (64), .domainQuiesceDone (64), .domainResetRelease (64),
    .domainReady (64), .recoveryWindowEnd (64), .rstLogAckWrite ({ wfW with req := 10 }), .admissionLoad ({ wfW with req := 10 }),
    .admissionClear ({ wfW with req := 10 }), .ethIpLoad ({ wfW with req := 10 }), .ethIpClear ({ wfW with req := 10 }), .flashRead ({ wfW with req := 10 }),
    .flashProgram ({ wfW with req := 10 }), .flashErase ({ wfW with req := 10 }), .mgtAttnWrite ({ wfW with req := 10 }), .cableSeated (12)] = true := by decide +kernel
theorem test_wf_refused_12 : refusedAll [
    .unsupportedOpcode wfBadH 0, .unsupportedOpcode h0 (65536), .ofsDataSend (4) 0 0, .ofsDataSend 0 (16) 0] = true := by decide +kernel
theorem test_wf_accepted_1 : ([
    .devInfo h0, .hello h0 0 0 (zeros 1184) (zeros 1312) (zeros 2420), .berthClose h0, .rekey h0 (zeros 1184), .ping h0,
    .eventAck h0 0, .alloc h0 0 0 0, .free h0 0, .objectRelease 0 0, .memConfig h0 0 0 0 0 0,
    .write h0 0 0 0 [], .read h0 0 0 0 0, .code h0 0 0 0, .decode h0 0 0, .signal h0 0 0,
    .submit h0 0 [], .postColl h0 0 0 [], .streamResume h0 0, .streamFlush h0 0 0, .recomputeReg h0 0 [],
    .censusRead h0 0 0, .streamMode h0 0 0, .groupWrite h0 (zeros 64), .groupRelease h0 0, .discover h0 0 0 0 0,
    .templateClear h0 0, .fslotAlloc h0, .fslotWrite h0 0 (zeros 64), .fslotRelease h0 0, .solverWs h0 0] : List Instr).all Instr.wf = true := by decide +kernel
theorem test_wf_accepted_2 : ([
    .shardWrite h0 0 (zeros 64), .shardRelease h0 0, .stateLoad h0 0 0 0, .updWs h0 0, .progLoad h0 0 [],
    .schedWrite h0 0 (zeros 32), .stepSet h0 0, .ofsOpen h0 wfOfsP, .ofsStream h0 0 0, .ofsSite h0 0 false 0 false,
    .ofsRekey h0, .ofsClose h0, .regRead h0 0 0, .regWrite h0 0 0, .mbxRead h0 0,
    .crashRead h0 0 0, .returnToService h0 false false false, .errlogRead h0 0, .diag h0 0 0, .domainReset h0 0,
    .fwStage h0 0 [], .fwActivate h0 0, .attest h0 (zeros 32), .lifecycle h0 0 [], .pwrStatus h0,
    .pwrCap h0 0, .ecpPacketInvalid 0 0 [], .frameDiscard 0 wfFrame, .neighbourSolicitation 0 0 0 0, .neighbourAdvertisement 0 0 0] : List Instr).all Instr.wf = true := by decide +kernel
theorem test_wf_accepted_3 : ([
    .echoRequest 0 0 0 [], .ptpMessage wfPtp, .linkChange 0 false, .hostLinkDownTimeout 0, .leaseExpiry 0,
    .eventResend 0, .submitHoldTimeout 0 0, .opStart [], .opComplete [], .enginePassComplete [],
    .updateStart 0, .tileFault 0 0, .waveWatchdogExpiry 0 0, .shfIssueEnWrite wfW, .shfCounterClear wfW,
    .numDirtyPop 0 wfW, .stepBoundary 0, .shardFetch 0 0 0, .pagerMoveComplete 0 0 0, .pageZeroComplete 1 0,
    .memoryScrub 0 0 0 [], .ddrChannelLost 0, .hbmStackFail 0, .portTrainingStep 0 ⟨0, 0, none, 0, 0⟩, .trainingTimeout 0,
    .portRetryTimer 0, .latencyProbe 0 0, .flitReceive 0 wfFlit (some 0) none, .replayTimerExpiry 0 0, .portDown 0 0] : List Instr).all Instr.wf = true := by decide +kernel
theorem test_wf_accepted_4 : ([
    .portRetrainWrite 0 wfW, .portEnableClear 0 wfW, .cableRemoved 0, .cableSupplyOvercurrent 0 0, .assignReceive 0 0 0 0 0 0 0 0 0,
    .reportReceive 0, .tickFlitReceive 0 0 0 0, .triggerTake 0, .collectiveStart 0 0, .collectiveComplete 0 0,
    .collectiveDataReceive wfLsh, .collectiveAckReceive wfLsh, .collectiveReqReceive wfLsh, .collectiveTimeout 0 0, .closeWaveStart 0,
    .flagReceive wfLsh, .closeWaveTimeout 0, .countRound 0, .countReceive wfLsh, .seawallRequest wfSwl,
    .seawallRequestComplete 0, .keyLoad wfW, .keyRetire wfW, .keyErase wfW, .seawallAlarm 0,
    .alarmClear wfW 0, .offshoreWaitEnd 0, .offshoreWaitTimeout 0, .ofsDataReceive wfOfs 0, .ofsSnapReceive wfOfs 0] : List Instr).all Instr.wf = true := by decide +kernel
theorem test_wf_accepted_5 : ([
    .ofsSackReceive wfOfs 0, .ofsSackSend 0 0 0, .ofsRtoExpiry 0 0 0, .pacingRateStep 0 0 0, .ofsProbeSend 0 0 0,
    .ofsProbeReceive wfOfs 0, .routeDown 0 0 0 0, .peerLost 0 0, .keyInitReceive wfOfs 0, .keyRespReceive wfOfs 0,
    .keyInitResend 0 0 0, .handshakeTimeout 0 0 0, .handshakeRetry 0 0, .registerWrite 0 0 0, .mbxSelWrite wfW,
    .mbxSnapshotReady 0, .mbxD3Read 0 .plain, .mbxDiscard wfW, .icuClaimRead 0 .plain, .icfClaimRead 0 .plain,
    .icuEoiWrite wfW, .icfEoiWrite wfW, .icuPendWrite 0 wfW, .icuStormUnmask 0 wfW, .interruptSourceEvent 0 false,
    .bcnWakeNow wfW, .tidUsedRead 0 0 .plain, .coreTickDone wfW 0, .coreWatchdogExpiry 0, .coreRestart wfW] : List Instr).all Instr.wf = true := by decide +kernel
theorem test_wf_accepted_6 : ([
    .coreRestartFallback 0, .coreRestartDone 0, .sleepEnter wfW, .sleepExit wfW, .pllUnlock 0,
    .rstReqGo wfW, .hangDetect 0, .domainQuiesceDone 0, .domainResetRelease 0, .domainReady 0,
    .recoveryWindowEnd 0, .rstLogAckWrite wfW, .admissionLoad wfW, .admissionClear wfW, .ethIpLoad wfW,
    .ethIpClear wfW, .flashRead wfW, .flashProgram wfW, .flashErase wfW, .mgtAttnWrite wfW,
    .cableSeated 0, .unsupportedOpcode h0 0, .ofsDataSend 0 0 0] : List Instr).all Instr.wf = true := by decide +kernel

/-! ### Worked examples of the spec -/

/-- The pieces of 1/3 and 3.0 and their product in BF16x3 (03_numbers_on_the_shelf.md, Split formats). -/
theorem test_split_third : (splitPiece 0x3EAAAAAB 0, splitPiece 0x3EAAAAAB 1, splitPiece 0x3EAAAAAB 2) = (some 0x3EAB0000, some 0xBA2B0000, some 0x35AC0000) ∧
    (splitPiece 0x40400000 0, splitPiece 0x40400000 1, splitPiece 0x40400000 2) = (some 0x40400000, none, none) := by decide +kernel
/-- The sixteen-bit values of the first counter with seed, stream and step 0 (03_numbers_on_the_shelf.md, dropout). -/
theorem test_philox_zero : (List.range 8).map (dropBits 0 0 0) = [0xE8D5, 0x6627, 0xC58D, 0xE169, 0xAC4C, 0xBC57, 0xDBD8, 0x9B00] := by decide +kernel
/-- Hops from (0, 0, 0) to (33, 40, 20) in a torus of 64 by 64 by 32 (08_cliff_links.md). -/
theorem test_hops : hopsOf (wrs State.reset [(CLF_DIMS_sx, 64), (CLF_DIMS_sy, 64), (CLF_DIMS_sz, 32)]) 0 84513 = 67 := by decide +kernel
/-- The PID of a KMZ-4100 with SLOT_ID 3 (17_module_electrical_mechanical.md). -/
theorem test_pid : i3cPid { State.reset with edge := { State.reset.edge with straps := 3 } } = 0x074A0C401000 := by decide +kernel
/-- The DEV_DECODE words of two parts (13_registers_mailboxes_interrupts.md). -/
theorem test_decode_words : (List.range 5).map (devDecode .kmz4100) = [0x88888C88, 0x888A0088, 0x88880088, 0x0888008F, 0x00080088] ∧
    (List.range 5).map (devDecode .kmz4120) = [0x88888C88, 0x888A0088, 0x08880088, 0x0088008F, 0x00080088] := by decide +kernel
def chanEx : ChD := { form := 1, integer := false, enabled := true, base := 0, peak := 0x399D4952, final := 0x37FBA882, w := 2000, h := 0, d := 100000, aux := 0, rsv := false }
/-- An Almanac channel of form 1 at the start, middle and end of its schedule (06_update_engine.md). -/
theorem test_channel_form_1 : [1000, 2000, 52000, 102000].map (chanWord chanEx) = [some 0x391D4952, some 0x399D4952, some 0x392D03DA, some 0x37FBA882] := by decide +kernel

end Sys2Proof.Tests
end

section
/-!
SUPPORT. The rules of the CRS: the bits of a word in which a field was given a value, what a register and a field read after a write of the
hardware, what a requester's write leaves of each field (R12, R435, R439), where an offset lands (R14, R433, R271), and accesses of an empty
window, of an absent unit (R5) and of a register without a behaviour of its own.
-/
namespace Sys2Proof.Laws
open Sys2Proof Sys2Proof.Machine Sys2Proof.Safety

/-! ### Bits of a word -/

theorem bits_lt (v hi lo : Nat) : bits v hi lo < 2 ^ (hi + 1 - lo) := Nat.mod_lt _ (Nat.two_pow_pos _)

@[simp] theorem testBit_bits (v hi lo i : Nat) : (bits v hi lo).testBit i = (decide (i < hi + 1 - lo) && v.testBit (lo + i)) := by
  simp [bits, Nat.testBit_mod_two_pow]

/-- A number as what stands above a field, the field, and what stands below it. -/
theorem eq_bits_split (v hi lo : Nat) :
    v = 2 ^ lo * (2 ^ (hi + 1 - lo) * (v / 2 ^ lo / 2 ^ (hi + 1 - lo)) + bits v hi lo) + v % 2 ^ lo := by
  unfold bits
  rw [Nat.shiftRight_eq_div_pow, Nat.div_add_mod, Nat.div_add_mod]

theorem testBit_split {lo n a b c : Nat} (hb : b < 2 ^ n) (hc : c < 2 ^ lo) (i : Nat) :
    (2 ^ lo * (2 ^ n * a + b) + c).testBit i =
      if i < lo then c.testBit i else if i < lo + n then b.testBit (i - lo) else a.testBit (i - lo - n) := by
  rw [Nat.testBit_two_pow_mul_add _ hc, Nat.testBit_two_pow_mul_add _ hb]
  grind

/-- The bits of a word in which one field was given a value. -/
theorem testBit_putBits {hi : Nat} (h : hi < 32) (w : W32) (lo v i : Nat) :
    (putBits w hi lo v).toNat.testBit i = if lo ≤ i ∧ i ≤ hi then v.testBit (i - lo) else w.toNat.testBit i := by
  have hw := eq_bits_split w.toNat hi lo
  have hv : v % 2 ^ (hi + 1 - lo) < 2 ^ (hi + 1 - lo) := Nat.mod_lt _ (Nat.two_pow_pos _)
  have hc : w.toNat % 2 ^ lo < 2 ^ lo := Nat.mod_lt _ (Nat.two_pow_pos _)
  have hput : w.toNat - bits w.toNat hi lo * 2 ^ lo + v % 2 ^ (hi + 1 - lo) * 2 ^ lo =
      2 ^ lo * (2 ^ (hi + 1 - lo) * (w.toNat / 2 ^ lo / 2 ^ (hi + 1 - lo)) + v % 2 ^ (hi + 1 - lo)) + w.toNat % 2 ^ lo := by
    rw [Nat.mul_comm _ (2 ^ lo), Nat.mul_comm _ (2 ^ lo)]
    rw [Nat.mul_add] at hw ⊢
    omega
  unfold putBits
  rw [BitVec.toNat_ofNat, hput, Nat.testBit_mod_two_pow, testBit_split hv hc, Nat.testBit_mod_two_pow]
  by_cases hi32 : i < 32
  · conv_rhs => rw [hw, testBit_split (bits_lt ..) hc]
    grind
  · have : w.toNat.testBit i = false := Nat.testBit_lt_two_pow (lt_of_lt_of_le w.isLt (Nat.pow_le_pow_right (by omega) (by omega)))
    grind

/-- A field reads the value that it was given. -/
@[simp] theorem bits_putBits {hi : Nat} (h : hi < 32) (w : W32) (lo v : Nat) :
    bits (putBits w hi lo v).toNat hi lo = v % 2 ^ (hi + 1 - lo) := by
  refine Nat.eq_of_testBit_eq fun i => ?_
  rw [testBit_bits, testBit_putBits h, Nat.testBit_mod_two_pow]
  grind

/-- A field that shares no bit with the one that was given a value reads as before. -/
theorem bits_putBits_disjoint {hi lo hi' lo' : Nat} (h : hi < 32) (hd : hi < lo' ∨ hi' < lo) (w : W32) (v : Nat) :
    bits (putBits w hi lo v).toNat hi' lo' = bits w.toNat hi' lo' := by
  refine Nat.eq_of_testBit_eq fun i => ?_
  rw [testBit_bits, testBit_bits, testBit_putBits h]
  grind

/-! ### What a register reads after a write of the hardware -/

theorem regWord_setWord (s : State) (off o : Nat) (w : W32) : regWord (setWord s off w) o = if o = off then w else regWord s o := by
  unfold regWord setWord
  by_cases h : o = off
  · subst h
    exact (mget_msetD ..).trans (if_pos rfl) |>.trans (if_pos rfl).symm
  · simp only [msetD, h, if_false]
    split <;> simp [h]

@[simp] theorem regWord_setWord_same (s : State) (off : Nat) (w : W32) : regWord (setWord s off w) off = w := by
  rw [regWord_setWord, if_pos rfl]

theorem regsBut_setWord (s : State) (off : Nat) (w : W32) : RegsBut [off] s (setWord s off w) := fun o ho => by
  rw [regWord_setWord, if_neg (by simpa using ho)]

theorem regsBut_refl {offs : List Nat} {s : State} : RegsBut offs s s := fun _ _ => rfl

theorem regsBut_trans {offs : List Nat} {s t u : State} (h : RegsBut offs s t) (h' : RegsBut offs t u) : RegsBut offs s u :=
  fun o ho => (h' o ho).trans (h o ho)

theorem regsBut_mono {offs offs' : List Nat} {s t : State} (h : RegsBut offs s t) (hs : offs ⊆ offs') : RegsBut offs' s t :=
  fun o ho => h o fun hx => ho (hs hx)

theorem regWord_congr {s t : State} (h : t.regs = s.regs) (hv : t.variant = s.variant) (off : Nat) : regWord t off = regWord s off := by
  unfold regWord; rw [h, hv]

@[simp] theorem count_regWord (s : State) (id n off : Nat) : regWord (count s id n) off = regWord s off := regWord_congr rfl rfl off

/-- A field reads the value that the hardware gave it. -/
theorem rd_wr_same {f : Fld} (h : f.hi < 32) (s : State) (v : Nat) : rd (wr s f v) f = v % 2 ^ (f.hi + 1 - f.lo) := by
  unfold rd wr
  rw [regWord_setWord_same, bits_putBits h]

/-- A field of another register, or one that shares no bit with the field written, reads as before. -/
theorem rd_wr_other {f g : Fld} (h : f.hi < 32) (hd : g.off ≠ f.off ∨ f.hi < g.lo ∨ g.hi < f.lo) (s : State) (v : Nat) :
    rd (wr s f v) g = rd s g := by
  unfold rd wr
  rw [regWord_setWord]
  split
  · rename_i e
    rw [bits_putBits_disjoint h (hd.resolve_left (not_not.2 e)), e]
  · rfl

theorem regsBut_wr (s : State) (f : Fld) (v : Nat) : RegsBut [f.off] s (wr s f v) := regsBut_setWord s f.off _

theorem regsBut_wrs (s : State) (l : List (Fld × Nat)) : RegsBut (l.map fun p => p.1.off) s (wrs s l) := by
  induction l generalizing s with
  | nil => exact regsBut_refl
  | cons p l ih => exact regsBut_trans (regsBut_mono (regsBut_wr s p.1 p.2) (by simp)) (regsBut_mono (ih _) (by simp))

/-! ### The register tables: the fields of a register lie in its word and share no bit -/

/-- The fields of a register lie within the word, and no two of them share a bit. -/
def FieldsApart (fs : List FieldSpec) : Prop := (∀ f ∈ fs, f.hi < 32) ∧ fs.Pairwise fun f g => f.hi < g.lo ∨ g.hi < f.lo

theorem windowRegs_apart (w : Nat) : ∀ r ∈ windowRegs w, FieldsApart r.fields := by
  unfold FieldsApart windowRegs
  split <;> decide

theorem regsCLFP_apart : ∀ r ∈ regsCLFP, FieldsApart r.fields := by
  unfold FieldsApart
  decide

/-- The rows that serve an offset are those of a window, those of a Cliff port, or none. -/
theorem regRows_cases (v : Variant) (off : Nat) :
    (regRows v off).1 = [] ∨ (regRows v off).1 = regsCLFP ∨ ∃ w, (regRows v off).1 = windowRegs w := by
  unfold regRows
  dsimp only
  split
  · exact .inl rfl
  · split
    · split
      · exact .inr (.inr ⟨24, rfl⟩)
      · split
        · exact .inr (.inl rfl)
        · exact .inl rfl
    · exact .inr (.inr ⟨_, rfl⟩)

theorem regSpec_apart {v : Variant} {off : Nat} {r : RegSpec} (h : regSpec v off = some r) : FieldsApart r.fields := by
  have hm : r ∈ (regRows v off).1 := List.mem_of_find?_eq_some h
  rcases regRows_cases v off with e | e | ⟨w, e⟩ <;> rw [e] at hm
  · cases hm
  · exact regsCLFP_apart r hm
  · exact windowRegs_apart w r hm

/-! ### What a requester's write leaves of each field -/

/-- What a write makes of a field fits in the field. -/
theorem fieldWrite_lt {n old v : Nat} (ho : old < 2 ^ n) (hv : v < 2 ^ n) (ty : RegType) (al : Alias) (locked : Bool) :
    fieldWrite ty al locked old v (2 ^ n - 1) < 2 ^ n := by
  have hor : old ||| v < 2 ^ n := Nat.or_lt_two_pow ho hv
  have hsub : old - (old &&& v) < 2 ^ n := lt_of_le_of_lt (Nat.sub_le ..) ho
  have hmod : (old ^^^ v) % (2 ^ n - 1 + 1) < 2 ^ n := by
    rw [Nat.sub_add_cancel (Nat.two_pow_pos n)]; exact Nat.mod_lt _ (Nat.two_pow_pos n)
  unfold fieldWrite
  split <;> try split
  all_goals assumption

/-- A toggled field keeps to its bits, so that nothing is cut off. -/
theorem xor_mod_field {n old v : Nat} (ho : old < 2 ^ n) (hv : v < 2 ^ n) : (old ^^^ v) % (2 ^ n - 1 + 1) = old ^^^ v := by
  rw [Nat.sub_add_cancel (Nat.two_pow_pos n), Nat.mod_eq_of_lt (Nat.xor_lt_two_pow ho hv)]

section fields
variable {req : Nat} {al : Alias} {value : W32} {locked : FieldSpec → Bool}

/-- Writing fields that share no bit with a field leaves it. -/
theorem bits_writeFields_disjoint {lockBit : Bool} {hi lo : Nat} {fs : List FieldSpec} (h : ∀ f ∈ fs, f.hi < 32)
    (hd : ∀ f ∈ fs, f.hi < lo ∨ hi < f.lo) (w : W32) :
    bits (writeFields req al value lockBit locked fs w).toNat hi lo = bits w.toNat hi lo := by
  induction fs generalizing w with
  | nil => rfl
  | cons f fs ih =>
    rw [writeFields, ih (fun g hg => h g (List.mem_cons_of_mem _ hg)) (fun g hg => hd g (List.mem_cons_of_mem _ hg))]
    split
    · exact bits_putBits_disjoint (h f (List.mem_cons_self ..)) (hd f (List.mem_cons_self ..)) w _
    · rfl

/-- A field of the row becomes what its type makes of the written bits, for a requester that it accepts. -/
theorem bits_writeFields {fs : List FieldSpec} {f : FieldSpec} (h : FieldsApart fs) (hf : f ∈ fs) (w : W32) :
    bits (writeFields req al value false locked fs w).toNat f.hi f.lo =
      if f.writers.testBit req then
        fieldWrite f.ty al (locked f) (bits w.toNat f.hi f.lo) (bits value.toNat f.hi f.lo) (2 ^ (f.hi + 1 - f.lo) - 1)
      else bits w.toNat f.hi f.lo := by
  induction fs generalizing w with
  | nil => cases hf
  | cons g gs ih =>
    obtain ⟨hin, hap⟩ := h
    obtain ⟨hg, hgs⟩ := List.pairwise_cons.1 hap
    have hg32 := hin g (List.mem_cons_self ..)
    have hgs32 : ∀ x ∈ gs, x.hi < 32 := fun x hx => hin x (List.mem_cons_of_mem _ hx)
    rcases List.mem_cons.1 hf with rfl | hf
    · rw [writeFields, bits_writeFields_disjoint hgs32 (fun x hx => (hg x hx).symm)]
      split
      · rw [bits_putBits hg32, if_neg (by simp), Nat.mod_eq_of_lt (fieldWrite_lt (bits_lt ..) (bits_lt ..) ..)]
      · rfl
    · rw [writeFields, ih ⟨hgs32, hgs⟩ hf]
      have hkeep : ∀ v, bits (if g.writers.testBit req then putBits w g.hi g.lo v else w).toNat f.hi f.lo = bits w.toNat f.hi f.lo := fun v => by
        split
        · exact bits_putBits_disjoint hg32 (hg f hf) w v
        · rfl
      rw [hkeep]

end fields

/-- A requester's write stores every field of the row by its type, but for the lock registers and SWL_ALARM_EN, whose bits only set (R343). -/
theorem storeWrite_eq {s : State} {off : Nat} {r : RegSpec} (hr : regSpec s.variant off = some r) (hl : isLockReg off = false)
    (ha : off ≠ SWL_ALARM_EN.off) (c : CrsWrite) :
    storeWrite s off c =
      setWord s off (writeFields c.req c.al c.value false (fun _ => regLocked s off) r.fields (regWord s off)) := by
  unfold storeWrite
  rw [hr]
  simp [hl, ha]

/-- A requester's write, field by field (R12, R435, R439). -/
theorem bits_storeWrite {s : State} {off : Nat} {r : RegSpec} {f : FieldSpec} (hr : regSpec s.variant off = some r) (hf : f ∈ r.fields)
    (hl : isLockReg off = false) (ha : off ≠ SWL_ALARM_EN.off) (c : CrsWrite) :
    bits (regWord (storeWrite s off c) off).toNat f.hi f.lo =
      if f.writers.testBit c.req then
        fieldWrite f.ty c.al (regLocked s off) (bits (regWord s off).toNat f.hi f.lo) (bits c.value.toNat f.hi f.lo) (2 ^ (f.hi + 1 - f.lo) - 1)
      else bits (regWord s off).toNat f.hi f.lo := by
  rw [storeWrite_eq hr hl ha, regWord_setWord_same, bits_writeFields (regSpec_apart hr) hf]

theorem regsBut_storeWrite (s : State) (off : Nat) (c : CrsWrite) : RegsBut [off] s (storeWrite s off c) := by
  unfold storeWrite
  split
  · exact regsBut_refl
  · dsimp only
    split
    · exact regsBut_refl
    · exact regsBut_setWord s off _

/-! ### Where an offset lands -/

theorem decodeWidth_le (w : Nat) : decodeWidth w ≤ 12 := by
  unfold decodeWidth
  split
  · decide
  · split
    · decide
    · split <;> decide

/-- The plain offset of a register lies in the window of the offset. -/
theorem plainOffset_window (off : Nat) : plainOffset off / 0x4000 = off / 0x4000 := by
  unfold plainOffset
  dsimp only
  split
  · omega
  · have : off % 0x4000 / 4 * 4 % 2 ^ decodeWidth (off / 0x4000) < 0x4000 :=
      lt_of_lt_of_le (Nat.mod_lt _ (Nat.two_pow_pos _)) ((Nat.pow_le_pow_right (by decide) (decodeWidth_le _)).trans (by decide : 2 ^ 12 ≤ 0x4000))
    omega

/-- In the CLF window the plain offset lies in the sub-block of the offset. -/
theorem plainOffset_port {off : Nat} (h : off / 0x4000 = 24) : plainOffset off % 0x4000 / 0x400 = off % 0x4000 / 0x400 := by
  simp only [plainOffset, h, if_true]
  omega

theorem emptyWindow_eq_false {off : Nat} (h : off < 0x94000) (hw : decodeWidth (off / 0x4000) ≠ 0) : emptyWindow off = false := by
  simp [emptyWindow, hw, h]

/-! ### Registers that the part does not have -/

/-- The offset lies in the block of a unit that the part lacks: the Offshore engine, the DDR5 tier or a Cliff port (R3, R5). -/
def AbsentAt (v : Variant) (off : Nat) : Prop :=
  (off / 0x4000 = 30 ∧ hasOffshore v = false) ∨ (off / 0x4000 = 23 ∧ hasDdr v = false) ∨
    (off / 0x4000 = 24 ∧ off % 0x4000 / 0x400 < 12 ∧ portPresent v (off % 0x4000 / 0x400) = false)

theorem AbsentAt.not_empty {v : Variant} {off : Nat} (h : AbsentAt v off) : emptyWindow off = false := by
  rcases h with ⟨hw, -⟩ | ⟨hw, -⟩ | ⟨hw, -⟩ <;> exact emptyWindow_eq_false (by omega) (by rw [hw]; decide)

theorem AbsentAt.at_plainOffset {v : Variant} {off : Nat} (h : AbsentAt v off) : AbsentAt v (plainOffset off) := by
  unfold AbsentAt
  rw [plainOffset_window]
  refine h.imp_right (Or.imp_right fun ⟨hw, hp⟩ => ?_)
  rw [plainOffset_port hw]
  exact ⟨hw, hp⟩

/-- The block of an absent unit implements no register. -/
theorem AbsentAt.regSpec_eq_none {v : Variant} {off : Nat} (h : AbsentAt v off) : regSpec v off = none := by
  have hrows : (regRows v off).1 = [] := by
    rcases h with ⟨hw, hu⟩ | ⟨hw, hu⟩ | ⟨hw, hp, hu⟩
    · simp [regRows, absentWindow, hw, hu]
    · simp [regRows, absentWindow, hw, hu]
    · simp [regRows, absentWindow, hw, hu, Nat.ne_of_lt hp]
  simp [regSpec, hrows]

/-- No unit that a part may lack has a register whose read has an effect: those are of ICU, ICF, MBX and TID. -/
theorem AbsentAt.window_ge {v : Variant} {off : Nat} (h : AbsentAt v off) : 23 ≤ off / 0x4000 := by
  rcases h with ⟨hw, -⟩ | ⟨hw, -⟩ | ⟨hw, -⟩ <;> omega

/-! ### Accesses where no register is -/

theorem plainWord_of_none {s : State} {o : Nat} (h : regSpec s.variant o = none) (req : Nat) : plainWord s req o = 0 := by
  simp [plainWord, h]

theorem plainWrite_of_none {s : State} {o : Nat} (h : regSpec s.variant o = none) (c : CrsWrite) : plainWrite s o c = s := by
  simp [plainWrite, h]

theorem idx_eq_none {f : Fld} {n off : Nat} (h : f.off + n * f.step ≤ off) : idx f n off = none := by
  unfold idx
  rw [if_neg (by simp; omega)]

/-- A read above the windows of MBX, ICU, ICF and TID has no effect. -/
theorem crsRead_eq {s : State} {req off : Nat} (he : emptyWindow off = false) (hw : 6 ≤ off / 0x4000) :
    crsRead s req off = (s, plainWord s req (plainOffset off)) := by
  have ho : 0x18000 ≤ plainOffset off := by have := plainOffset_window off; omega
  have hc : plainOffset off ≠ ICU_CLAIM.off := by simp only [ICU_CLAIM]; omega
  have hf : plainOffset off ≠ ICF_CLAIM.off := by simp only [ICF_CLAIM]; omega
  have hd : plainOffset off ≠ (MBX_D.at 3).off := by simp only [MBX_D, Fld.at]; omega
  have hu : idx TID_USED 8 (plainOffset off) = none := idx_eq_none (by simp only [TID_USED]; omega)
  unfold crsRead
  simp [he, hc, hf, hd, hu]

/-! ### Accesses of an empty window -/

/-- An access of an empty window leaves its offset, requester and direction in DEV_ERR (R433). -/
theorem noteEmpty_err (s : State) (off req : Nat) (write : Bool) :
    rd (noteEmpty s off req write) DEV_ERR_offset = off % 2 ^ (DEV_ERR_offset.hi + 1 - DEV_ERR_offset.lo) ∧
      rd (noteEmpty s off req write) DEV_ERR_requester = req % 16 ∧ rdb (noteEmpty s off req write) DEV_ERR_write = write := by
  unfold noteEmpty
  simp only [rdb, count_rd, wrs]
  refine ⟨?_, ?_, ?_⟩
  · rw [rd_wr_other (by decide) (by decide), rd_wr_other (by decide) (by decide), rd_wr_same (by decide)]
  · rw [rd_wr_other (by decide) (by decide), rd_wr_same (by decide)]
    rfl
  · rw [rd_wr_same (by decide)]
    cases write <;> decide

theorem regsBut_count {offs : List Nat} (s : State) (id n : Nat) : RegsBut offs s (count s id n) := fun o _ => count_regWord s id n o

theorem regsBut_noteEmpty (s : State) (off req : Nat) (write : Bool) :
    RegsBut [DEV_ERR_offset.off, DEV_ERR_requester.off] s (noteEmpty s off req write) := by
  have hw : RegsBut [DEV_ERR_offset.off, DEV_ERR_requester.off] s
      (wrs s [(DEV_ERR_offset, off), (DEV_ERR_requester, req), (DEV_ERR_write, b2n write)]) :=
    regsBut_mono (regsBut_wrs s [(DEV_ERR_offset, off), (DEV_ERR_requester, req), (DEV_ERR_write, b2n write)])
      (by simp [DEV_ERR_offset, DEV_ERR_write])
  unfold noteEmpty
  exact regsBut_trans hw (regsBut_count _ _ _)

/-- It is counted once, and no other count changes. -/
theorem noteEmpty_counts (s : State) (off req : Nat) (write : Bool) (id : Nat) :
    mgetD (noteEmpty s off req write).counts id 0 = if id = 0x0010 then mgetD s.counts 0x0010 0 + 1 else mgetD s.counts id 0 := by
  have hw : (wrs s [(DEV_ERR_offset, off), (DEV_ERR_requester, req), (DEV_ERR_write, b2n write)]).counts = s.counts :=
    (rel_wrs Rel.refl fun _ h => h).frame .counts (by decide)
  unfold noteEmpty
  rw [counts_count, hw]
  rfl

theorem crsWrite_empty {off : Nat} (h : emptyWindow off = true) (s : State) (req : Nat) (v : W32) :
    crsWrite s req off v = noteEmpty s (off / 4 * 4) req true := by
  simp [crsWrite, h]

/-! ### Writes of stored registers -/

/-- Whether a register's write has a behaviour of its own does not depend on the state or on what is written. -/
theorem rangeWrite_isNone (s t : State) (o : Nat) (c d : CrsWrite) (l : List (Fld × Nat × (State → Nat → CrsWrite → State))) :
    (rangeWrite s o c l).isNone = (rangeWrite t o d l).isNone := by
  induction l with
  | nil => rfl
  | cons x l ih =>
    simp only [rangeWrite]
    cases idx x.1 x.2.1 o with
    | none => exact ih
    | some i => rfl

theorem idx_isSome {f : Fld} {n off : Nat} (h : (idx f n off).isSome = true) : f.off ≤ off ∧ off < f.off + n * f.step := by
  unfold idx at h
  grind

/-- A write of a register without a behaviour of its own stores by its fields; the T3 quotas are not there without the DDR5 tier. -/
theorem plainWrite_eq {s : State} {o : Nat} {c : CrsWrite} (h : (rangeWrite s o c writeHooks).isNone = true)
    (hd : hasDdr s.variant = true ∨ idx PGR_T3_QUOTA 4 o = none) :
    plainWrite s o c = if (regSpec s.variant o).isSome then storeWrite s o c else s := by
  unfold plainWrite
  rw [Option.isNone_iff_eq_none.1 h, Option.getD_none]
  cases hr : regSpec s.variant o <;> rcases hd with hd | hd <;> simp [hd]

/-- A write of a register without a behaviour of its own changes registers alone. -/
theorem rel_plainWrite_stored {s : State} {o : Nat} {c : CrsWrite} (h : (rangeWrite s o c writeHooks).isNone = true) :
    Rel [.regs] s (plainWrite s o c) := by
  unfold plainWrite
  rw [Option.isNone_iff_eq_none.1 h, Option.getD_none]
  exact iteP (P := Rel [.regs] s) Rel.refl (rel_storeWrite Rel.refl fun _ h => h)

/-! ### Reads and answers of the register commands -/

theorem crsReads_length (n : Nat) (s : State) (req off : Nat) : (crsReads n s req off).2.length = n := by
  induction n generalizing s off with
  | zero => rfl
  | succ n ih => simp [crsReads, ih]

@[simp] theorem conclude_tx (u : State) (h : EcpHdr) (op st d : Nat) (data : List Byte) :
    (conclude u h op (.fin st d data)).tx = .status h.iface h.peer op h.seq h.berth true st 0 true d data :: u.tx := by
  rw [conclude_fin_eq]
  simp [sendStatus]

/-- A command that answers at once with its state as it was: answered, and nothing but Quay's own parts differs. -/
theorem answered_unchanged {s : State} {h : EcpHdr} {op : Nat} {cores : List Nat} (ha : admitted s h op cores = true)
    {body : State → State × Ans} {st d : Nat} {data : List Byte} (hb : body (arrive s h) = (arrive s h, .fin st d data)) :
    Frame ecpParts s (ecpRun s h op cores body) ∧ Answered s (ecpRun s h op cores body) h op st d data := by
  have hr : Rel [] (arrive s h) (body (arrive s h)).1 := by rw [hb]; exact Rel.refl
  have h2 : (body (arrive s h)).2 = .fin st d data := by rw [hb]
  exact ⟨by simpa using answered_frame ha h2 hr, answered_of ha h2 hr (by simp)⟩

theorem arrive_admin (s : State) (h : EcpHdr) : (berthOf (arrive s h) h.berth).admin = (berthOf s h.berth).admin :=
  arrive_field s h Berth.admin (fun _ _ _ _ => rfl) fun _ _ _ _ => rfl

end Sys2Proof.Laws
end

section
/-!
PROOFS. The scope of the register space: absent units (O11), a requester's write field by field (O29), the register commands (O30).
-/
namespace Sys2Proof.Proofs
open Sys2Proof Sys2Proof.Machine Sys2Proof.Safety Sys2Proof.Laws

/-- Settles O11: the block of an absent unit implements no register, and a port, DDR5 or Offshore register has no reading with an effect. -/
theorem absentUnits : Obligations.AbsentUnits := by
  unfold Obligations.AbsentUnits
  refine ⟨fun v => ?_, fun s req off w (h : AbsentAt s.variant off) => ⟨?_, ?_⟩⟩
  · cases v <;> decide
  · rw [crsRead_eq h.not_empty (by have := h.window_ge; omega), plainWord_of_none h.at_plainOffset.regSpec_eq_none]
  · simp [crsWrite, h.not_empty, plainWrite_of_none h.at_plainOffset.regSpec_eq_none]

/-- Settles O29: the fields of a register share no bit, so the write of a row gives each field what `fieldWrite` gives it alone. -/
theorem fieldWrites : Obligations.FieldWrites := by
  unfold Obligations.FieldWrites
  intro s off c r f old v new hr hf hl ha hold hv hnew
  rw [bits_storeWrite hr hf hl ha, ← hold, ← hv] at hnew
  have hxor := xor_mod_field (hold ▸ bits_lt (regWord s off).toNat f.hi f.lo : old < _) (hv ▸ bits_lt c.value.toNat f.hi f.lo : v < _)
  refine ⟨(rel_storeWrite Rel.refl fun _ h => h).frame, regsBut_storeWrite s off c, fun hw => ?_, fun ht => ?_, fun ht hw => ?_,
    fun ht hlk => ?_, fun ht hw => ?_⟩
  · simp [hnew, hw]
  · rcases ht with ht | ht <;> simp [hnew, ht, fieldWrite]
  · simp [hnew, hw, ht, fieldWrite]
  · cases hal : c.al <;> simp [hnew, ht, hlk, hal, fieldWrite]
  · rw [hnew, if_pos hw]
    rcases ht with ht | ⟨ht, hlk⟩
    · cases hal : c.al <;> simp only [ht, fieldWrite, hxor]
    · cases hal : c.al <;> simp [ht, hlk, fieldWrite, hxor]

/-! ### REG_READ and REG_WRITE, as their meanings and not as their packets -/

/-- The meaning of REG_READ (R421). -/
def regReadBody (offset : W32) (n : Nat) (s : State) : State × Ans :=
  if offset.toNat % 4 ≠ 0 then (s, .bad 0x01)
  else if n = 0 || n > 64 then (s, .bad 0)
  else if offset.toNat % 0x4000 + 4 * n > 0x4000 then (s, .bad 0x02)
  else ((crsReads n s 9 offset.toNat).1, .ok ((crsReads n s 9 offset.toNat).2.flatMap fun w => toBe 4 w.toNat))

theorem exec_regRead (h : EcpHdr) (offset : W32) (n : Nat) (s : State) :
    exec (.regRead h offset n) s = .next (ecpRun s h 0x0801 [] (regReadBody offset n)) := rfl

/-- The meaning of REG_WRITE (R421). -/
def regWriteBody (b : Nat) (offset value : W32) (s : State) : State × Ans :=
  if offset.toNat % 4 ≠ 0 then (s, .bad 0x01)
  else if !emptyWindow offset.toNat && plainOffset offset.toNat = MBX_SEL.off then (s, .fin stLOCKED 0 [])
  else if !(berthOf s b).admin && (emptyWindow offset.toNat || !ownRegister b (plainOffset offset.toNat)) then (s, .fin stLOCKED 0 [])
  else (crsWrite s 9 offset.toNat value, .ok [])

theorem exec_regWrite (h : EcpHdr) (offset value : W32) (s : State) :
    exec (.regWrite h offset value) s = .next (ecpRun s h 0x0802 [] (regWriteBody h.berth offset value)) := rfl

theorem exec_registerWrite {req : Nat} (hr : req < 10) (offset value : W32) (s : State) :
    exec (.registerWrite req offset value) s = .next (crsWrite s req offset.toNat value) := by
  show Host.Outcome.next (if req < 10 then crsWrite s req offset.toNat value else s) = _
  rw [if_pos hr]

/-! ### The clauses of the statement -/

theorem regRead_answers {s u : State} {h : EcpHdr} {offset : W32} {n : Nat} {r : State × List W32} (ha : admitted s h 0x0801 [] = true)
    (h4 : offset.toNat % 4 = 0) (h1 : 1 ≤ n) (h64 : n ≤ 64) (hw : offset.toNat % 0x4000 + 4 * n ≤ 0x4000) (hu : u = arrive s h)
    (hr : r = crsReads n u 9 offset.toNat) :
    ∃ t, exec (.regRead h offset n) s = .next t ∧ Frame [.tx, .counts, .quay] r.1 t ∧ r.2.length = n ∧
      t.tx.head? = some (.status h.iface h.peer 0x0801 h.seq h.berth true 0 0 true 0 (r.2.flatMap fun w => toBe 4 w.toNat)) := by
  have hb : regReadBody offset n (arrive s h) = (r.1, .ok (r.2.flatMap fun w => toBe 4 w.toNat)) := by
    unfold regReadBody
    rw [if_neg (by omega), if_neg (by simp; omega), if_neg (by omega), hr, hu]
  refine ⟨_, exec_regRead .., ?_, hr ▸ crsReads_length .., ?_⟩ <;> rw [ecpRun_admitted ha, hb]
  · exact (conclude_fin_rel _ _ _ _ _ _ fun _ h => h).frame
  · simp [Ans.ok]

theorem regRead_refused {s : State} {h : EcpHdr} {offset : W32} {n : Nat} (ha : admitted s h 0x0801 [] = true)
    (hbad : offset.toNat % 4 ≠ 0 ∨ (1 ≤ n ∧ n ≤ 64 ∧ offset.toNat % 0x4000 + 4 * n > 0x4000)) :
    ∃ t, exec (.regRead h offset n) s = .next t ∧ Frame ecpParts s t ∧
      Answered s t h 0x0801 0x0020 (if offset.toNat % 4 ≠ 0 then 1 else 2) [] := by
  refine ⟨_, exec_regRead .., answered_unchanged ha ?_⟩
  unfold regReadBody
  by_cases h4 : offset.toNat % 4 ≠ 0
  · rw [if_pos h4, if_pos h4]
    rfl
  · obtain ⟨h1, h64, hw⟩ := hbad.resolve_left h4
    rw [if_neg h4, if_neg (by simp; omega), if_pos hw, if_neg h4]
    rfl

theorem regWrite_writes {s : State} {h : EcpHdr} {offset value : W32} {o : Nat} (ha : admitted s h 0x0802 [] = true)
    (h4 : offset.toNat % 4 = 0) (ho : o = plainOffset offset.toNat) (hsel : emptyWindow offset.toNat = true ∨ o ≠ MBX_SEL.off)
    (hright : (berthOf s h.berth).admin = true ∨ (emptyWindow offset.toNat = false ∧ ownRegister h.berth o = true)) :
    ∃ t, exec (.regWrite h offset value) s = .next t ∧ Frame [.tx, .counts, .quay] (crsWrite (arrive s h) 9 offset.toNat value) t ∧
      ((rangeWrite s o ⟨9, aliasOf offset.toNat, value⟩ writeHooks).isNone = true → emptyWindow offset.toNat = false →
        Answered s t h 0x0802 0 0 []) := by
  subst ho
  have hb : regWriteBody h.berth offset value (arrive s h) = (crsWrite (arrive s h) 9 offset.toNat value, .fin 0 0 []) := by
    unfold regWriteBody
    rw [arrive_admin, if_neg (by omega), if_neg (by rcases hsel with hs | hs <;> simp [hs]),
      if_neg (by rcases hright with hr | ⟨he, hr⟩ <;> simp [*])]
    rfl
  refine ⟨_, exec_regWrite .., ?_, fun hnone he => ?_⟩
  · rw [ecpRun_admitted ha, hb]
    exact (conclude_fin_rel _ _ _ _ _ _ fun _ h => h).frame
  · refine answered_of (ps := [.regs]) ha (by rw [hb]) ?_ (by decide)
    rw [hb, show crsWrite (arrive s h) 9 offset.toNat value = _ from if_neg (by simp [he])]
    exact rel_plainWrite_stored (by rw [rangeWrite_isNone _ s _ _ _]; exact hnone)

theorem regWrite_refused {s : State} {h : EcpHdr} {offset value : W32} {o : Nat} (ha : admitted s h 0x0802 [] = true)
    (ho : o = plainOffset offset.toNat)
    (hno : offset.toNat % 4 ≠ 0 ∨ (emptyWindow offset.toNat = false ∧ o = MBX_SEL.off) ∨
      ((berthOf s h.berth).admin = false ∧ (emptyWindow offset.toNat = true ∨ ownRegister h.berth o = false))) :
    ∃ t, exec (.regWrite h offset value) s = .next t ∧ Frame ecpParts s t ∧
      if offset.toNat % 4 ≠ 0 then Answered s t h 0x0802 0x0020 1 [] else Answered s t h 0x0802 0x0040 0 [] := by
  subst ho
  refine ⟨_, exec_regWrite .., ?_⟩
  by_cases h4 : offset.toNat % 4 ≠ 0
  · rw [if_pos h4]
    exact answered_unchanged ha (if_pos h4)
  · rw [if_neg h4]
    refine answered_unchanged ha ?_
    unfold regWriteBody
    rw [arrive_admin, if_neg h4]
    rcases hno.resolve_left h4 with ⟨he, hs⟩ | ⟨hadm, hown⟩
    · rw [if_pos (by simp [he, hs])]
      rfl
    · split
      · rfl
      · rw [if_pos (by rcases hown with e | e <;> simp [hadm, e])]
        rfl

theorem registerWrite_stored {s : State} {req : Nat} {offset value : W32} {o : Nat} (hreq : req < 10) (he : emptyWindow offset.toNat = false)
    (ho : o = plainOffset offset.toNat) (hnone : (rangeWrite s o ⟨req, aliasOf offset.toNat, value⟩ writeHooks).isNone = true)
    (hd : PGR_T3_QUOTA.off ≤ o → o < PGR_T3_QUOTA.off + 16 → hasDdr s.variant = true) :
    exec (.registerWrite req offset value) s = .next
      (if (regSpec s.variant o).isSome = true then storeWrite s o ⟨req, aliasOf offset.toNat, value⟩ else s) := by
  subst ho
  have hd' : hasDdr s.variant = true ∨ idx PGR_T3_QUOTA 4 (plainOffset offset.toNat) = none := by
    cases hi : idx PGR_T3_QUOTA 4 (plainOffset offset.toNat) with
    | none => exact .inr rfl
    | some i =>
      obtain ⟨hlo, hhi⟩ := idx_isSome (hi ▸ rfl : (idx PGR_T3_QUOTA 4 (plainOffset offset.toNat)).isSome = true)
      exact .inl (hd hlo hhi)
  rw [exec_registerWrite hreq, ← plainWrite_eq hnone hd', crsWrite, if_neg (by simp [he])]

theorem registerWrite_empty {s : State} {req : Nat} {offset value : W32} (hreq : req < 10) (he : emptyWindow offset.toNat = true) :
    ∃ t, exec (.registerWrite req offset value) s = .next t ∧ Frame [.regs, .counts] s t ∧
      RegsBut [DEV_ERR_offset.off, DEV_ERR_requester.off] s t ∧
      rd t DEV_ERR_offset = offset.toNat / 4 * 4 % 2 ^ (DEV_ERR_offset.hi + 1 - DEV_ERR_offset.lo) ∧ rd t DEV_ERR_requester = req ∧
      rdb t DEV_ERR_write = true ∧ CountsBut [0x0010] s t ∧ mgetD t.counts 0x0010 0 = mgetD s.counts 0x0010 0 + 1 := by
  obtain ⟨hoff, hr, hw⟩ := noteEmpty_err s (offset.toNat / 4 * 4) req true
  refine ⟨_, (exec_registerWrite hreq ..).trans (congrArg _ (crsWrite_empty he ..)), (rel_noteEmpty Rel.refl fun _ h => h).frame,
    regsBut_noteEmpty _ _ _ _, hoff, hr.trans (Nat.mod_eq_of_lt (by omega)), hw, fun id hid => ?_, ?_⟩
  · rw [noteEmpty_counts, if_neg (by simpa using hid)]
  · rw [noteEmpty_counts, if_pos rfl]

/-- Settles O30: the commands read and write as `crsReads` and `crsWrite` do, and a refused one leaves its state to its answer alone. -/
theorem registerCommands : Obligations.RegisterCommands := by
  unfold Obligations.RegisterCommands
  exact ⟨fun _ _ _ _ _ _ => regRead_answers, fun _ _ _ _ => regRead_refused, fun _ _ _ _ _ => regWrite_writes,
    fun _ _ _ _ _ => regWrite_refused, fun _ _ _ _ _ => registerWrite_stored, fun _ _ _ _ => registerWrite_empty⟩

end Sys2Proof.Proofs
end

section
/-!
SUPPORT. What one command can do, whichever it is: `Rel` over its footprint, from the lemma about its own meaning.
-/
namespace Sys2Proof.Laws
open Sys2Proof Sys2Proof.Machine Sys2Proof.Safety

/-- Every command is carried out, and `Rel` over its footprint holds between the state before and the state after. -/
theorem exec_ends (c : Instr) (s : State) : Ends (footprint c) s (exec c s) := by
  cases c with dsimp only [exec, footprint]
  | devInfo => exact rel_execDevInfo .refl fun _ h => h
  | hello => exact rel_execHello .refl fun _ h => h
  | berthClose => exact rel_execBerthClose .refl fun _ h => h
  | rekey => exact rel_execRekey .refl fun _ h => h
  | ping => exact rel_execPing .refl fun _ h => h
  | eventAck => exact rel_execEventAck .refl fun _ h => h
  | alloc => exact rel_execAlloc .refl fun _ h => h
  | free => exact rel_execFree .refl fun _ h => h
  | objectRelease => exact rel_execObjectRelease .refl fun _ h => h
  | memConfig => exact rel_execMemConfig .refl fun _ h => h
  | write => exact rel_execWrite .refl fun _ h => h
  | read => exact rel_execRead .refl fun _ h => h
  | code => exact rel_execCode .refl fun _ h => h
  | decode => exact rel_execDecode .refl fun _ h => h
  | signal => exact rel_execSignal .refl fun _ h => h
  | submit => exact rel_execSubmit .refl fun _ h => h
  | postColl => exact rel_execPostColl .refl fun _ h => h
  | streamResume => exact rel_execStreamResume .refl fun _ h => h
  | streamFlush => exact rel_execStreamFlush .refl fun _ h => h
  | recomputeReg => exact rel_execRecomputeReg .refl fun _ h => h
  | censusRead => exact rel_execCensusRead .refl fun _ h => h
  | streamMode => exact rel_execStreamMode .refl fun _ h => h
  | groupWrite => exact rel_execGroupWrite .refl fun _ h => h
  | groupRelease => exact rel_execGroupRelease .refl fun _ h => h
  | discover => exact rel_execDiscover .refl fun _ h => h
  | templateClear => exact rel_execTemplateClear .refl fun _ h => h
  | fslotAlloc => exact rel_execFslotAlloc .refl fun _ h => h
  | fslotWrite => exact rel_execFslotWrite .refl fun _ h => h
  | fslotRelease => exact rel_execFslotRelease .refl fun _ h => h
  | solverWs => exact rel_execSolverWs .refl fun _ h => h
  | shardWrite => exact rel_execShardWrite .refl fun _ h => h
  | shardRelease => exact rel_execShardRelease .refl fun _ h => h
  | stateLoad => exact rel_execStateLoad .refl fun _ h => h
  | updWs => exact rel_execUpdWs .refl fun _ h => h
  | progLoad => exact rel_execProgLoad .refl fun _ h => h
  | schedWrite => exact rel_execSchedWrite .refl fun _ h => h
  | stepSet => exact rel_execStepSet .refl fun _ h => h
  | ofsOpen => exact rel_execOfsOpen .refl fun _ h => h
  | ofsStream => exact rel_execOfsStream .refl fun _ h => h
  | ofsSite => exact rel_execOfsSite .refl fun _ h => h
  | ofsRekey => exact rel_execOfsRekey .refl fun _ h => h
  | ofsClose => exact rel_execOfsClose .refl fun _ h => h
  | regRead => exact rel_execRegRead .refl fun _ h => h
  | regWrite => exact rel_execRegWrite .refl fun _ h => h
  | mbxRead => exact rel_execMbxRead .refl fun _ h => h
  | crashRead => exact rel_execCrashRead .refl fun _ h => h
  | returnToService => exact rel_execReturnToService .refl fun _ h => h
  | errlogRead => exact rel_execErrlogRead .refl fun _ h => h
  | diag => exact rel_execDiag .refl fun _ h => h
  | domainReset => exact rel_execDomainReset .refl fun _ h => h
  | fwStage => exact rel_execFwStage .refl fun _ h => h
  | fwActivate => exact rel_execFwActivate .refl fun _ h => h
  | attest => exact rel_execAttest .refl fun _ h => h
  | lifecycle => exact rel_execLifecycle .refl fun _ h => h
  | pwrStatus => exact rel_execPwrStatus .refl fun _ h => h
  | pwrCap => exact rel_execPwrCap .refl fun _ h => h
  | ecpPacketInvalid => exact rel_execEcpPacketInvalid .refl fun _ h => h
  | frameDiscard => exact rel_execFrameDiscard .refl fun _ h => h
  | neighbourSolicitation => exact rel_execNeighbourSolicitation .refl fun _ h => h
  | neighbourAdvertisement => exact rel_execNeighbourAdvertisement .refl fun _ h => h
  | echoRequest => exact rel_execEchoRequest .refl fun _ h => h
  | ptpMessage => exact rel_execPtpMessage .refl fun _ h => h
  | ptpAnnounceTimeout => exact rel_execPtpAnnounceTimeout .refl fun _ h => h
  | linkChange => exact rel_execLinkChange .refl fun _ h => h
  | hostLinkDownTimeout => exact rel_execHostLinkDownTimeout .refl fun _ h => h
  | leaseExpiry => exact rel_execLeaseExpiry .refl fun _ h => h
  | eventResend => exact rel_execEventResend .refl fun _ h => h
  | submitHoldTimeout => exact rel_execSubmitHoldTimeout .refl fun _ h => h
  | opStart => exact rel_execOpStart .refl fun _ h => h
  | opComplete => exact rel_execOpComplete .refl fun _ h => h
  | triggerHoldRelease => exact rel_execTriggerHoldRelease .refl fun _ h => h
  | enginePassComplete => exact rel_execEnginePassComplete .refl fun _ h => h
  | updateStart => exact rel_execUpdateStart .refl fun _ h => h
  | tileFault => exact rel_execTileFault .refl fun _ h => h
  | waveWatchdogExpiry => exact rel_execWaveWatchdogExpiry .refl fun _ h => h
  | tileStoreCe => exact rel_execTileStoreCe .refl fun _ h => h
  | shfIssueEnWrite => exact rel_execShfIssueEnWrite .refl fun _ h => h
  | shfCounterClear => exact rel_execShfCounterClear .refl fun _ h => h
  | numDirtyPop => exact rel_execNumDirtyPop .refl fun _ h => h
  | stepBoundary => exact rel_execStepBoundary .refl fun _ h => h
  | shardFetch => exact rel_execShardFetch .refl fun _ h => h
  | pagerMoveStart => exact rel_execPagerMoveStart .refl fun _ h => h
  | pagerMoveComplete => exact rel_execPagerMoveComplete .refl fun _ h => h
  | pageZeroComplete => exact rel_execPageZeroComplete .refl fun _ h => h
  | memoryScrub => exact rel_execMemoryScrub .refl fun _ h => h
  | errorWindowExpiry => exact rel_execErrorWindowExpiry .refl fun _ h => h
  | ddrChannelLost => exact rel_execDdrChannelLost .refl fun _ h => h
  | hbmStackFail => exact rel_execHbmStackFail .refl fun _ h => h
  | portTrainingStep => exact rel_execPortTrainingStep .refl fun _ h => h
  | trainingTimeout => exact rel_execTrainingTimeout .refl fun _ h => h
  | portRetryTimer => exact rel_execPortRetryTimer .refl fun _ h => h
  | latencyProbe => exact rel_execLatencyProbe .refl fun _ h => h
  | flitReceive => exact rel_execFlitReceive .refl fun _ h => h
  | replayTimerExpiry => exact rel_execReplayTimerExpiry .refl fun _ h => h
  | portDown => exact rel_execPortDown .refl fun _ h => h
  | portRetrainWrite => exact rel_execPortRetrainWrite .refl fun _ h => h
  | portEnableClear => exact rel_execPortEnableClear .refl fun _ h => h
  | cableRemoved => exact rel_execCableRemoved .refl fun _ h => h
  | cableSupplyOvercurrent => exact rel_execCableSupplyOvercurrent .refl fun _ h => h
  | assignReceive => exact rel_execAssignReceive .refl fun _ h => h
  | reportReceive => exact rel_execReportReceive .refl fun _ h => h
  | conflictReceive => exact rel_execConflictReceive .refl fun _ h => h
  | walkTimeout => exact rel_execWalkTimeout .refl fun _ h => h
  | tickFlitReceive => exact rel_execTickFlitReceive .refl fun _ h => h
  | tickHoldover => exact rel_execTickHoldover .refl fun _ h => h
  | triggerTake => exact rel_execTriggerTake .refl fun _ h => h
  | collectiveStart => exact rel_execCollectiveStart .refl fun _ h => h
  | collectiveComplete => exact rel_execCollectiveComplete .refl fun _ h => h
  | collectiveDataReceive => exact rel_execCollectiveDataReceive .refl fun _ h => h
  | collectiveAckReceive => exact rel_execCollectiveAckReceive .refl fun _ h => h
  | collectiveReqReceive => exact rel_execCollectiveReqReceive .refl fun _ h => h
  | collectiveTimeout => exact rel_execCollectiveTimeout .refl fun _ h => h
  | closeWaveStart => exact rel_execCloseWaveStart .refl fun _ h => h
  | flagReceive => exact rel_execFlagReceive .refl fun _ h => h
  | closeWaveTimeout => exact rel_execCloseWaveTimeout .refl fun _ h => h
  | countRound => exact rel_execCountRound .refl fun _ h => h
  | countReceive => exact rel_execCountReceive .refl fun _ h => h
  | shingleRequestComplete => exact rel_execShingleRequestComplete .refl fun _ h => h
  | shingleSlotGrant => exact rel_execShingleSlotGrant .refl fun _ h => h
  | seawallRequest => exact rel_execSeawallRequest .refl fun _ h => h
  | seawallRequestComplete => exact rel_execSeawallRequestComplete .refl fun _ h => h
  | keyLoad => exact rel_execKeyLoad .refl fun _ h => h
  | keyLoadResume => exact rel_execKeyLoadResume .refl fun _ h => h
  | keyRetire => exact rel_execKeyRetire .refl fun _ h => h
  | keyErase => exact rel_execKeyErase .refl fun _ h => h
  | seawallAlarm => exact rel_execSeawallAlarm .refl fun _ h => h
  | alarmClear => exact rel_execAlarmClear .refl fun _ h => h
  | entropyFail => exact rel_execEntropyFail .refl fun _ h => h
  | entropyRecover => exact rel_execEntropyRecover .refl fun _ h => h
  | entropyTimeout => exact rel_execEntropyTimeout .refl fun _ h => h
  | offshoreWaitEnd => exact rel_execOffshoreWaitEnd .refl fun _ h => h
  | offshoreWaitTimeout => exact rel_execOffshoreWaitTimeout .refl fun _ h => h
  | ofsDataReceive => exact rel_execOfsDataReceive .refl fun _ h => h
  | ofsSnapReceive => exact rel_execOfsSnapReceive .refl fun _ h => h
  | ofsSackReceive => exact rel_execOfsSackReceive .refl fun _ h => h
  | ofsSackSend => exact rel_execOfsSackSend .refl fun _ h => h
  | ofsRtoExpiry => exact rel_execOfsRtoExpiry .refl fun _ h => h
  | pacingRateStep => exact rel_execPacingRateStep .refl fun _ h => h
  | ofsProbeSend => exact rel_execOfsProbeSend .refl fun _ h => h
  | ofsProbeReceive => exact rel_execOfsProbeReceive .refl fun _ h => h
  | routeDown => exact rel_execRouteDown .refl fun _ h => h
  | peerLost => exact rel_execPeerLost .refl fun _ h => h
  | keyInitReceive => exact rel_execKeyInitReceive .refl fun _ h => h
  | keyRespReceive => exact rel_execKeyRespReceive .refl fun _ h => h
  | keyInitResend => exact rel_execKeyInitResend .refl fun _ h => h
  | handshakeTimeout => exact rel_execHandshakeTimeout .refl fun _ h => h
  | handshakeRetry => exact rel_execHandshakeRetry .refl fun _ h => h
  | registerWrite => exact rel_execRegisterWrite .refl fun _ h => h
  | mbxSelWrite => exact rel_execMbxSelWrite .refl fun _ h => h
  | mbxSnapshotReady => exact rel_execMbxSnapshotReady .refl fun _ h => h
  | mbxD3Read => exact rel_execMbxD3Read .refl fun _ h => h
  | mbxDiscard => exact rel_execMbxDiscard .refl fun _ h => h
  | icuClaimRead => exact rel_execIcuClaimRead .refl fun _ h => h
  | icfClaimRead => exact rel_execIcfClaimRead .refl fun _ h => h
  | icuEoiWrite => exact rel_execIcuEoiWrite .refl fun _ h => h
  | icfEoiWrite => exact rel_execIcfEoiWrite .refl fun _ h => h
  | icuPendWrite => exact rel_execIcuPendWrite .refl fun _ h => h
  | icuStormUnmask => exact rel_execIcuStormUnmask .refl fun _ h => h
  | interruptSourceEvent => exact rel_execInterruptSourceEvent .refl fun _ h => h
  | bcnWakeNow => exact rel_execBcnWakeNow .refl fun _ h => h
  | bcnTimerExpiry => exact rel_execBcnTimerExpiry .refl fun _ h => h
  | tidUsedRead => exact rel_execTidUsedRead .refl fun _ h => h
  | tideTick => exact rel_execTideTick .refl fun _ h => h
  | coreTickDone => exact rel_execCoreTickDone .refl fun _ h => h
  | coreWatchdogExpiry => exact rel_execCoreWatchdogExpiry .refl fun _ h => h
  | coreRestart => exact rel_execCoreRestart .refl fun _ h => h
  | coreRestartFallback => exact rel_execCoreRestartFallback .refl fun _ h => h
  | coreRestartDone => exact rel_execCoreRestartDone .refl fun _ h => h
  | activationProceed => exact rel_execActivationProceed .refl fun _ h => h
  | activationDeferTimeout => exact rel_execActivationDeferTimeout .refl fun _ h => h
  | activationRestartFail => exact rel_execActivationRestartFail .refl fun _ h => h
  | rollbackCounterRaise => exact rel_execRollbackCounterRaise .refl fun _ h => h
  | supplySag32 => exact rel_execSupplySag32 .refl fun _ h => h
  | supplySag30 => exact rel_execSupplySag30 .refl fun _ h => h
  | supplySag27 => exact rel_execSupplySag27 .refl fun _ h => h
  | orderlyStopReset => exact rel_execOrderlyStopReset .refl fun _ h => h
  | supplyRecover => exact rel_execSupplyRecover .refl fun _ h => h
  | nvWriteResume => exact rel_execNvWriteResume .refl fun _ h => h
  | supplyRestore => exact rel_execSupplyRestore .refl fun _ h => h
  | inputOvervoltage => exact rel_execInputOvervoltage .refl fun _ h => h
  | overcurrent => exact rel_execOvercurrent .refl fun _ h => h
  | brakeAssert => exact rel_execBrakeAssert .refl fun _ h => h
  | brakeRelease => exact rel_execBrakeRelease .refl fun _ h => h
  | clampRelease => exact rel_execClampRelease .refl fun _ h => h
  | brakeReminder => exact rel_execBrakeReminder .refl fun _ h => h
  | thermEmergencyClock => exact rel_execThermEmergencyClock .refl fun _ h => h
  | thermClockReturn => exact rel_execThermClockReturn .refl fun _ h => h
  | thermTrip => exact rel_execThermTrip .refl fun _ h => h
  | tripResetRelease => exact rel_execTripResetRelease .refl fun _ h => h
  | sleepEnter => exact rel_execSleepEnter .refl fun _ h => h
  | sleepExit => exact rel_execSleepExit .refl fun _ h => h
  | powerOnStage => exact rel_execPowerOnStage .refl fun _ h => h
  | startupStepTimeout => exact rel_execStartupStepTimeout .refl fun _ h => h
  | modResetAssert => exact rel_execModResetAssert .refl fun _ h => h
  | modResetRelease => exact rel_execModResetRelease .refl fun _ h => h
  | leakDetect => exact rel_execLeakDetect .refl fun _ h => h
  | crystalFault => exact rel_execCrystalFault .refl fun _ h => h
  | crystalRecover => exact rel_execCrystalRecover .refl fun _ h => h
  | holdoverExpiry => exact rel_execHoldoverExpiry .refl fun _ h => h
  | pllUnlock => exact rel_execPllUnlock .refl fun _ h => h
  | rstReqGo => exact rel_execRstReqGo .refl fun _ h => h
  | hangDetect => exact rel_execHangDetect .refl fun _ h => h
  | domainQuiesceDone => exact rel_execDomainQuiesceDone .refl fun _ h => h
  | crashRecordDone => exact rel_execCrashRecordDone .refl fun _ h => h
  | domainResetRelease => exact rel_execDomainResetRelease .refl fun _ h => h
  | domainReady => exact rel_execDomainReady .refl fun _ h => h
  | recoveryWindowEnd => exact rel_execRecoveryWindowEnd .refl fun _ h => h
  | deviceResetDelayed => exact rel_execDeviceResetDelayed .refl fun _ h => h
  | rstLogAckWrite => exact rel_execRstLogAckWrite .refl fun _ h => h
  | lifecycleErase => exact rel_execLifecycleErase .refl fun _ h => h
  | admissionLoad => exact rel_execAdmissionLoad .refl fun _ h => h
  | admissionClear => exact rel_execAdmissionClear .refl fun _ h => h
  | ethIpLoad => exact rel_execEthIpLoad .refl fun _ h => h
  | ethIpClear => exact rel_execEthIpClear .refl fun _ h => h
  | flashRead => exact rel_execFlashRead .refl fun _ h => h
  | flashProgram => exact rel_execFlashProgram .refl fun _ h => h
  | flashErase => exact rel_execFlashErase .refl fun _ h => h
  | flashOpDone => exact rel_execFlashOpDone .refl fun _ h => h
  | mgtAttnWrite => exact rel_execMgtAttnWrite .refl fun _ h => h
  | i3cSetPointer => exact rel_execI3cSetPointer .refl fun _ h => h
  | i3cRegWrite => exact rel_execI3cRegWrite .refl fun _ h => h
  | i3cRegRead => exact rel_execI3cRegRead .refl fun _ h => h
  | entdaa => exact rel_execEntdaa .refl fun _ h => h
  | rstdaa => exact rel_execRstdaa .refl fun _ h => h
  | setnewda => exact rel_execSetnewda .refl fun _ h => h
  | getpid => exact rel_execGetpid .refl fun _ h => h
  | getbcr => exact rel_execGetbcr .refl fun _ h => h
  | getdcr => exact rel_execGetdcr .refl fun _ h => h
  | getstatus => exact rel_execGetstatus .refl fun _ h => h
  | enec => exact rel_execEnec .refl fun _ h => h
  | disec => exact rel_execDisec .refl fun _ h => h
  | rstact => exact rel_execRstact .refl fun _ h => h
  | jtagBypass => exact rel_execJtagBypass .refl fun _ h => h
  | jtagIdcode => exact rel_execJtagIdcode .refl fun _ h => h
  | jtagSamplePreload => exact rel_execJtagSamplePreload .refl fun _ h => h
  | jtagExtest => exact rel_execJtagExtest .refl fun _ h => h
  | jtagProvision => exact rel_execJtagProvision .refl fun _ h => h
  | jtagDebugOpen => exact rel_execJtagDebugOpen .refl fun _ h => h
  | aonPowerLoss => exact rel_execAonPowerLoss .refl fun _ h => h
  | cableSeated => exact rel_execCableSeated .refl fun _ h => h
  | unsupportedOpcode => exact rel_execUnsupportedOpcode .refl fun _ h => h
  | ofsDataSend => exact rel_execOfsDataSend .refl fun _ h => h

theorem rel_of_exec {c : Instr} {s t : State} (h : exec c s = .next t) : Rel (footprint c) s t := by
  obtain ⟨u, hu, hr⟩ := exec_ends c s
  cases h.symm.trans hu
  exact hr

end Sys2Proof.Laws
end

section
/-!
PROOFS. The module at a glance: every command within its footprint (O5).
-/
namespace Sys2Proof.Proofs
open Sys2Proof Sys2Proof.Machine Sys2Proof.Safety Sys2Proof.Laws

/-- Settles O5: `Rel` over the command's footprint holds every clause of the statement. -/
theorem everyCommandKeepsToItsFootprint : Obligations.EveryCommandKeepsToItsFootprint := by
  unfold Obligations.EveryCommandKeepsToItsFootprint
  intro c s
  obtain ⟨t, ht, hr⟩ := exec_ends c s
  exact ⟨t, ht, hr.pending, hr.variant, hr.tx, hr.free, hr.frame⟩

end Sys2Proof.Proofs
end

section
/-!
SUPPORT. What a register reads after an operation that leaves it alone, an incident that is noted and counted, what an event leaves of the
session records (R425), the halt of a berth by Longshore, and a Longshore packet that leaves by the fabric (R285).
-/
namespace Sys2Proof.Laws
open Sys2Proof Sys2Proof.Machine Sys2Proof.Safety

/-! ### Registers that an operation leaves alone -/

theorem rd_of_regsBut {offs : List Nat} {s t : State} (h : RegsBut offs s t) {f : Fld} (hf : f.off ∉ offs) : rd t f = rd s f := by
  unfold rd; rw [h f.off hf]

theorem regsBut_wrOr (s : State) (f : Fld) (v : Nat) : RegsBut [f.off] s (wrOr s f v) := regsBut_wr s f _

theorem regsBut_of_rel {ps : List Part} {offs : List Nat} {s t : State} (h : Rel ps s t) (hp : Part.regs ∉ ps) : RegsBut offs s t :=
  fun off _ => regWord_congr (h.frame .regs hp) h.variant off

/-- A one-bit field that the hardware sets. -/
theorem rdb_wrOr_one {f : Fld} (h : f.hi < 32) (hb : f.hi = f.lo) (s : State) : rdb (wrOr s f 1) f = true := by
  have hw : f.hi + 1 - f.lo = 1 := by omega
  have hodd : (rd s f ||| 1) % 2 = 1 := Nat.or_mod_two_eq_one.2 (.inr rfl)
  unfold rdb wrOr
  rw [rd_wr_same h, hw, pow_one, hodd]
  rfl

/-- An incident that the hardware notes with a status bit and a count: nothing else changes. -/
theorem noted_once {s t : State} {f : Fld} {id : Nat} (ht : t = count (wrOr s f 1) id 1) (hf : f.hi < 32) (hb : f.hi = f.lo) :
    Frame [.regs, .counts] s t ∧ rdb t f = true ∧ mgetD t.counts id 0 = mgetD s.counts id 0 + 1 ∧ CountsBut [id] s t := by
  subst ht
  refine ⟨(rel_count (rel_wrOr .refl (by decide)) (by decide) : Rel _ _ _).frame, ?_, ?_, fun j hj => ?_⟩
  · rw [rdb, count_rd]
    exact rdb_wrOr_one hf hb s
  · rw [counts_count, if_pos rfl]
    rfl
  · rw [counts_count, if_neg (by simpa using hj)]
    rfl

/-! ### Events -/

/-- The record of a berth once an event was queued for it. -/
theorem berthOf_putEvent (s : State) (b : Nat) (payload : List Byte) :
    berthOf (putEvent s b payload) b = queueEvent s.lh.tick (berthOf s b) payload := by
  unfold putEvent queueEvent
  dsimp only
  split
  · rfl
  · split
    · rw [sendEvent_berthOf, berthOf_modBerth]
    · rw [count_berthOf, wrOr_berthOf, berthOf_modBerth]

theorem berthOf_putEvent_other (s : State) {b c : Nat} (payload : List Byte) (hb : b < 4) (hc : c < 4) (hne : c ≠ b) :
    berthOf (putEvent s b payload) c = berthOf s c := by
  unfold putEvent
  dsimp only
  split
  · rfl
  · split
    · rw [sendEvent_berthOf, berthOf_modBerth_other _ _ hb hc hne]
    · rw [count_berthOf, wrOr_berthOf, berthOf_modBerth_other _ _ hb hc hne]

theorem regsBut_putEvent (s : State) (b : Nat) (payload : List Byte) : RegsBut [CMD_IRQ_STAT_evt_lost.off] s (putEvent s b payload) := by
  unfold putEvent
  dsimp only
  split
  · exact regsBut_refl
  · split
    · exact regsBut_of_rel (ps := [.tx, .counts, .quay]) (rel_sendEvent (rel_modBerth .refl (by decide)) (by decide)) (by decide)
    · exact regsBut_trans (regsBut_of_rel (rel_modBerth .refl fun _ h => h) (by decide))
        (regsBut_trans (regsBut_wrOr _ _ _) (regsBut_count _ _ _))

/-- An event told to a berth after changes that touch neither the tick, the step counters nor Quay. -/
theorem eventsTo_of_same {s t u : State} {b code status : Nat} {seq : W32} {data : List Byte} (hlh : u.lh = s.lh) (hupd : u.upd = s.upd)
    (hquay : u.quay = s.quay) (h : EventsTo b [eventPayload u b code status seq data] u t) :
    EventsTo b [eventPayload s b code status seq data] s t := by
  unfold EventsTo eventPayload berthOf now at *
  rwa [hlh, hupd, hquay] at h

/-! ### A berth that Longshore halts (R294, R302) -/

@[simp] theorem haltFor_lsh (s : State) (b : Nat) (seq : W32) (data : List Byte) : (haltFor s b seq data).lsh = s.lsh :=
  (rel_haltFor .refl fun _ h => h).frame .lsh (by decide)

@[simp] theorem haltFor_shelf (s : State) (b : Nat) (seq : W32) (data : List Byte) :
    (haltFor s b seq data).shelf = { s.shelf with halted := fset s.shelf.halted b true } := by
  unfold haltFor; rw [event_shelf]

theorem haltFor_rd (s : State) (b : Nat) (seq : W32) (data : List Byte) {f : Fld} (hf : f.off ≠ CMD_IRQ_STAT_evt_lost.off) :
    rd (haltFor s b seq data) f = rd s f :=
  rd_of_regsBut (regsBut_putEvent _ b _) (by simpa using hf)

/-- The event that goes with the halt, in the berth's record. -/
theorem haltFor_event (s : State) (b : Nat) (seq : W32) (data : List Byte) :
    EventsTo b [eventPayload s b 0x0002 0x0080 seq data] s (haltFor s b seq data) := berthOf_putEvent ..

theorem haltFor_others (s : State) {b : Nat} (seq : W32) (data : List Byte) (hb : b < 4) : OtherBerths b s (haltFor s b seq data) :=
  fun _ hc hne => berthOf_putEvent_other _ _ hb hc hne

/-! ### A Longshore packet on the fabric (R285) -/

theorem regsBut_fabricSend (s : State) (vc dst : Nat) (bytes : List Byte) :
    RegsBut [CLF_IRQ_STAT_unreach.off] s (fabricSend s vc dst bytes) := by
  unfold fabricSend
  split
  · exact regsBut_refl
  · exact regsBut_trans (regsBut_wrOr _ _ _) (regsBut_count _ _ _)
  · exact regsBut_of_rel (ps := [.tx, .counts, .clf]) (rel_enqueueFlits (rel_pickPort .refl (by decide)) (by decide)) (by decide)

/-- The state in which a Longshore packet goes to the fabric: its data or its request is counted (R306). -/
def lshCounted (s : State) (p : LshPkt) : State :=
  if p.kind = 0 then count s (0x1700 + p.berth) p.data.length else if p.kind = 2 then count s 0x1722 1 else s

theorem lshEmit_eq (s : State) (dst : Nat) (p : LshPkt) :
    lshEmit s dst p = fabricSend (emit (lshCounted s p) (.lsh dst p)) (if p.kind ≥ 3 then 2 else 0) dst (lshBytes p) := rfl

theorem rel_lshCounted {ps : List Part} {z s : State} {p : LshPkt} (h : Rel ps z s) (hp : Sub [.counts] ps) :
    Rel ps z (lshCounted s p) := by
  unfold lshCounted
  exact iteP (P := Rel ps z) (rel_count h hp) (iteP (P := Rel ps z) (rel_count h hp) h)

theorem lsh_mem_lshEmit (s : State) (dst : Nat) (p : LshPkt) : Tx.lsh dst p ∈ (lshEmit s dst p).tx := by
  rw [lshEmit_eq]
  exact (rel_fabricSend .refl fun _ h => h).tx.subset (by simp)

theorem regsBut_lshEmit (s : State) (dst : Nat) (p : LshPkt) : RegsBut [CLF_IRQ_STAT_unreach.off] s (lshEmit s dst p) :=
  regsBut_trans (regsBut_of_rel (ps := [.tx, .counts]) (rel_emit (rel_lshCounted .refl (by decide)) (by decide)) (by decide))
    (regsBut_fabricSend _ _ _ _)

/-- While LSH_CTL.run is set a packet leaves at once (R305). -/
theorem lshSend_of_run {s : State} (h : rdb s LSH_CTL_run = true) (dst : Nat) (p : LshPkt) : lshSend s dst p = lshEmit s dst p := by
  unfold lshSend; rw [if_pos h]

theorem lshSend_run {s : State} (h : rdb s LSH_CTL_run = true) (dst : Nat) (p : LshPkt) : rdb (lshSend s dst p) LSH_CTL_run = true := by
  rw [lshSend_of_run h]
  unfold rdb at h ⊢
  rw [rd_of_regsBut (regsBut_lshEmit s dst p) (by decide), h]

/-- One packet sent to each of some devices: every one has left, and nothing of Longshore's own has changed. -/
theorem foldS_lshSend {s : State} (h : rdb s LSH_CTL_run = true) (p : LshPkt) (l : List Nat) :
    Rel [.tx, .regs, .counts, .clf] s (foldS (fun s d => lshSend s d p) s l) ∧
      ∀ d ∈ l, Tx.lsh d p ∈ (foldS (fun s d => lshSend s d p) s l).tx := by
  induction l generalizing s with
  | nil => exact ⟨.refl, by simp⟩
  | cons d l ih =>
    obtain ⟨hrel, hsent⟩ := ih (lshSend_run h d p)
    have hd : Rel [.tx, .regs, .counts, .clf] s (lshSend s d p) := by
      rw [lshSend_of_run h]; exact rel_lshEmit .refl fun _ h => h
    refine ⟨hd.trans hrel, fun e he => ?_⟩
    rcases List.mem_cons.1 he with rfl | he
    · refine hrel.tx.subset ?_
      rw [lshSend_of_run h]
      exact lsh_mem_lshEmit s e p
    · exact hsent e he

end Sys2Proof.Laws
end

section
/-!
SUPPORT. The close wave (R291–R295): the record of a berth's wave, one round, and the commands that start it, move it and end it.
-/
namespace Sys2Proof.Laws
open Sys2Proof Sys2Proof.Machine Sys2Proof.Safety

/-! ### The record of a berth's close wave -/

@[simp] theorem modClose_close (s : State) (b : Nat) (f : Close → Close) : fget (modClose s b f).lsh.close b = f (fget s.lsh.close b) := by
  simp [modClose]

theorem modClose_close_other (s : State) {b c : Nat} (f : Close → Close) (hb : b < 4) (hc : c < 4) (hne : c ≠ b) :
    fget (modClose s b f).lsh.close c = fget s.lsh.close c := by
  simp [modClose, fget_fmod _ _ _ _ hb hc, hne]

@[simp] theorem setFlag_close (s : State) (b : Nat) : fget (setFlag s b).lsh.close b = { fget s.lsh.close b with flag := true } := by
  simp [setFlag]

/-- A step flag joins the berth's when it is set. -/
theorem orFlag_close (s : State) (b : Nat) (p : Bool) :
    fget (if p then setFlag s b else s).lsh.close b = { fget s.lsh.close b with flag := (fget s.lsh.close b).flag || p } := by
  cases p <;> simp

theorem rel_orFlag {ps : List Part} {z s : State} {b : Nat} {p : Bool} (h : Rel ps z s) (hp : Sub [.lsh] ps) :
    Rel ps z (if p then setFlag s b else s) := iteP (P := Rel ps z) (rel_setFlag h hp) h

/-- Whether Longshore runs, after changes of its own structure. -/
theorem run_of_rel {s t : State} (h : Rel [.lsh] s t) : rdb t LSH_CTL_run = rdb s LSH_CTL_run :=
  congrArg (decide <| · ≠ 0) (rd_congr (h.frame .regs (by decide)) h.variant _)

/-! ### One round of a close wave (R292, R293) -/

/-- The flag of a close neighbour for a round has been received. -/
def Heard (c : Close) (r d : Nat) : Prop := ∃ x ∈ c.got, x.1 = r ∧ x.2.1 = d

theorem not_heard {c : Close} {r d : Nat} : ¬ Heard c r d ↔ ∀ x ∈ c.got, x.1 = r → x.2.1 ≠ d := by
  simp only [Heard, not_exists, not_and, ne_eq]

theorem all_isSome_iff_heard {c : Close} {r : Nat} {l : List Nat} :
    (l.all fun d => (c.got.find? fun x => x.1 = r && x.2.1 = d).isSome) = true ↔ ∀ d ∈ l, Heard c r d := by
  simp only [List.all_eq_true, List.find?_isSome, Bool.and_eq_true, decide_eq_true_eq, Heard]

/-- The FLAG packet of a round. -/
def roundFlag (s : State) (b n : Nat) (g : Group) (round : Nat) : LshPkt :=
  { src := ownId s, op := 0, kind := 4, nf := flagOf s b, inv := false, retx := false, berth := b, group := n
    epoch := (parseGrp g.entry).epoch, level := 0, try_ := tryOf s b, cseq := 0
    step := BitVec.ofNat 32 (fget s.upd.steps b).toNat, node := 0, chunk := 0, aux := round, crcOk := true, data := [] }

theorem sendFlags_eq (s : State) (b n : Nat) (g : Group) (round : Nat) :
    sendFlags s b n g round = foldS (fun t d => lshSend t d (roundFlag s b n g round)) s g.close := rfl

/-- The flags of a round have left for every close neighbour. -/
theorem sendFlags_sent {s : State} (h : rdb s LSH_CTL_run = true) (b n : Nat) (g : Group) (round : Nat) :
    ∀ d ∈ g.close, Tx.lsh d (roundFlag s b n g round) ∈ (sendFlags s b n g round).tx :=
  (foldS_lshSend h _ _).2

theorem sendFlags_rel {s : State} (h : rdb s LSH_CTL_run = true) (b n : Nat) (g : Group) (round : Nat) :
    Rel [.tx, .regs, .counts, .clf] s (sendFlags s b n g round) := (foldS_lshSend h _ _).1

theorem sendFlags_lsh {s : State} (h : rdb s LSH_CTL_run = true) (b n : Nat) (g : Group) (round : Nat) :
    (sendFlags s b n g round).lsh = s.lsh := (sendFlags_rel h b n g round).frame .lsh (by decide)

/-- A round that is complete is closed: the flags received join the berth's, the round counts, and its timeout begins anew. -/
def closeRound (s : State) (b : Nat) : State :=
  let r := (fget s.lsh.close b).round + 1
  let t := if (fget s.lsh.close b).got.any fun x => x.1 = r && x.2.2 then setFlag s b else s
  modClose t b fun c => { c with round := r, start := t.lh.tick }

theorem closeRound_close (s : State) (b : Nat) :
    fget (closeRound s b).lsh.close b =
      { fget s.lsh.close b with
        flag := (fget s.lsh.close b).flag || (fget s.lsh.close b).got.any fun x => x.1 = (fget s.lsh.close b).round + 1 && x.2.2
        round := (fget s.lsh.close b).round + 1
        start := s.lh.tick } := by
  unfold closeRound
  rw [modClose_close, orFlag_close, (rel_orFlag .refl fun _ h => h : Rel [.lsh] s _).frame .lh (by decide)]

theorem closeRound_rel (s : State) (b : Nat) : Rel [.lsh] s (closeRound s b) := rel_modClose (rel_orFlag .refl fun _ h => h) fun _ h => h

/-- A wave does not move on while it is not running, Longshore is stopped, or a neighbour's flag is missing. -/
theorem advanceWave_waits {s : State} {b : Nat} {g : Group} {c : Close} (hc : fget s.lsh.close b = c)
    (h : c.running = false ∨ rdb s LSH_CTL_run = false ∨ ∃ d ∈ g.close, ¬ Heard c (c.round + 1) d) (k n : Nat) :
    advanceWave k s b n g = s := by
  subst hc
  cases k with
  | zero => rfl
  | succ k =>
    unfold advanceWave
    refine if_pos ?_
    rcases h with h | h | ⟨d, hd, hn⟩
    · simp [h]
    · simp [h]
    · have hall := all_isSome_iff_heard.not.2 fun hall => hn (hall d hd)
      simp only [Bool.not_eq_true] at hall
      simp [hall]

/-- A round with every neighbour's flag is closed, and then the next one is sent, or after the last one the decision made (R293). -/
theorem advanceWave_closes {s : State} {b : Nat} {g : Group} {c : Close} (hc : fget s.lsh.close b = c) (hrun : c.running = true)
    (hctl : rdb s LSH_CTL_run = true) (hall : ∀ d ∈ g.close, Heard c (c.round + 1) d) (k n : Nat) :
    advanceWave (k + 1) s b n g =
      if c.round + 1 < g.diam then advanceWave k (sendFlags (closeRound s b) b n g (c.round + 2)) b n g
      else modClose (closeRound s b) b fun c => { c with running := false, decided := true, skip := c.flag } := by
  subst hc
  have hflags := all_isSome_iff_heard.2 hall
  conv_lhs => unfold advanceWave
  exact if_neg (by simp [hrun, hctl, hflags])

/-! ### CLOSE_WAVE_START -/

theorem exec_closeWaveStart_unmet {s : State} {b : Nat}
    (h : boundaryMet s b = false ∨ waveless s b = true ∨ (fget s.lsh.close b).running = true ∨ (fget s.lsh.close b).decided = true ∨
      rdb s LSH_CTL_run = false ∨ inReset s 0x14 = true) : exec (.closeWaveStart b) s = .next s := by
  show Host.Outcome.next (if _ then startWave s b else s) = _
  have hstart (h : rdb s LSH_CTL_run = false ∨ inReset s 0x14 = true) : startWave s b = s := by
    unfold startWave
    split
    · rfl
    · exact if_pos (by rcases h with h | h <;> simp [h])
  rcases h with h | h | h | h | h
  · simp [h]
  · simp [h]
  · simp [h]
  · simp [h]
  · rw [hstart h, ite_self]

/-- The state in which round 1 of a wave is sent: the wave runs from now on. -/
def waveArmed (s : State) (b : Nat) : State :=
  modClose s b fun c => { c with running := true, decided := false, round := 0, start := s.lh.tick }

theorem waveArmed_close (s : State) (b : Nat) :
    fget (waveArmed s b).lsh.close b = { fget s.lsh.close b with running := true, decided := false, round := 0, start := s.lh.tick } :=
  modClose_close ..

/-- The first round's packets carry the step flag as it stood. -/
theorem roundFlag_waveArmed (s : State) (b n : Nat) (g : Group) (round : Nat) :
    roundFlag (waveArmed s b) b n g round = roundFlag s b n g round := by
  unfold roundFlag flagOf
  rw [waveArmed_close]
  rfl

theorem exec_closeWaveStart_met {s : State} {b n : Nat} {g : Group} (hmet : boundaryMet s b = true) (hg : closeGroup s b = some (n, g))
    (hdiam : g.diam ≠ 0) (hidle : (fget s.lsh.close b).running = false) (hopen : (fget s.lsh.close b).decided = false)
    (hctl : rdb s LSH_CTL_run = true) (hup : inReset s 0x14 = false) :
    exec (.closeWaveStart b) s = .next (advanceWave (g.diam + 1) (sendFlags (waveArmed s b) b n g 1) b n g) := by
  have hwave : waveless s b = false := by simp [waveless, hg, hdiam]
  show Host.Outcome.next (if _ then startWave s b else s) = _
  rw [if_pos (by simp [hmet, hwave, hidle, hopen])]
  unfold startWave
  rw [hg]
  exact congrArg _ (if_neg (by simp [hdiam, hctl, hup]))

/-! ### FLAG_RECEIVE -/

theorem exec_flagReceive_reset {s : State} (p : LshPkt) (h : inReset s 0x14 = true) : exec (.flagReceive p) s = .next s :=
  congrArg _ (if_pos h)

theorem exec_flagReceive_corrupt {s : State} {p : LshPkt} (h : inReset s 0x14 = false) (hp : p.crcOk = false) :
    exec (.flagReceive p) s = .next (count (wrOr s LSH_IRQ_STAT_crc 1) 0x1723 1) :=
  congrArg _ ((if_neg (by simp [h])).trans (if_pos (by simp [hp])))

theorem exec_flagReceive_stale {s : State} {p : LshPkt} (h : inReset s 0x14 = false) (hp : p.crcOk = true)
    (hs : ((closeGroup s p.berth).all fun q => q.1 != p.group) = true ∨ current s p = false) :
    exec (.flagReceive p) s = .next (staleDrop s) := by
  refine congrArg _ ((if_neg (by simp [h])).trans ((if_neg (by simp [hp])).trans ?_))
  split
  · rfl
  · rename_i n g hg
    refine if_pos ?_
    rcases hs with hs | hs
    · simp only [hg, Option.all_some, bne_iff_ne] at hs
      simp [Ne.symm hs]
    · simp [hs]

/-- The state that a FLAG packet leaves before any round is closed: its flag is kept and joins the berth's (R291, R293). -/
def flagTaken (s : State) (p : LshPkt) : State :=
  modClose (if p.nf then setFlag s p.berth else s) p.berth fun c =>
    { c with got := c.got.filter (fun x => !(x.1 = p.aux && x.2.1 = p.src)) ++ [(p.aux, p.src, p.nf)] }

theorem exec_flagReceive_live {s : State} {p : LshPkt} {g : Group} (h : inReset s 0x14 = false) (hp : p.crcOk = true)
    (hg : closeGroup s p.berth = some (p.group, g)) (hcur : current s p = true) :
    exec (.flagReceive p) s = .next (advanceWave (g.diam + 1) (flagTaken s p) p.berth p.group g) := by
  refine congrArg _ ((if_neg (by simp [h])).trans ((if_neg (by simp [hp])).trans ?_))
  rw [hg]
  exact if_neg (by simp [hcur])

theorem flagTaken_rel (s : State) (p : LshPkt) : Rel [.lsh] s (flagTaken s p) := rel_modClose (rel_orFlag .refl fun _ h => h) fun _ h => h

/-- The record of a wave with one more FLAG packet. -/
def withFlag (c : Close) (p : LshPkt) : Close :=
  { c with flag := c.flag || p.nf, got := c.got.filter (fun x => !(x.1 = p.aux && x.2.1 = p.src)) ++ [(p.aux, p.src, p.nf)] }

theorem flagTaken_close (s : State) (p : LshPkt) : fget (flagTaken s p).lsh.close p.berth = withFlag (fget s.lsh.close p.berth) p := by
  unfold flagTaken
  rw [modClose_close, orFlag_close]
  rfl

/-- The flags held with one more packet: the packet's own, and those of other rounds or devices. -/
theorem mem_withFlag {c : Close} {p : LshPkt} {x : Nat × Nat × Bool} :
    x ∈ (withFlag c p).got ↔ x = (p.aux, p.src, p.nf) ∨ (x ∈ c.got ∧ ¬ (x.1 = p.aux ∧ x.2.1 = p.src)) := by
  simp [withFlag, or_comm, ← not_and_or]

theorem heard_withFlag {c : Close} {p : LshPkt} {r d : Nat} : Heard (withFlag c p) r d ↔ (r = p.aux ∧ d = p.src) ∨ Heard c r d := by
  constructor
  · rintro ⟨x, hx, rfl, rfl⟩
    rcases mem_withFlag.1 hx with rfl | ⟨hx, -⟩
    · exact .inl ⟨rfl, rfl⟩
    · exact .inr ⟨x, hx, rfl, rfl⟩
  · intro h
    by_cases hown : r = p.aux ∧ d = p.src
    · exact ⟨_, mem_withFlag.2 (.inl rfl), hown.1.symm, hown.2.symm⟩
    · obtain ⟨x, hx, rfl, rfl⟩ := h.resolve_left hown
      exact ⟨x, mem_withFlag.2 (.inr ⟨hx, hown⟩), rfl, rfl⟩

/-! ### A round that a packet completes -/

/-- A set flag among those of the round: the berth's own, the packet's, or one held from another neighbour. -/
theorem flag_after_round {c : Close} {p : LshPkt} :
    ((withFlag c p).flag || (withFlag c p).got.any fun x => x.1 = p.aux && x.2.2) = true ↔
      c.flag = true ∨ p.nf = true ∨ ∃ x ∈ c.got, x.1 = p.aux ∧ x.2.1 ≠ p.src ∧ x.2.2 = true := by
  simp only [Bool.or_eq_true, List.any_eq_true, Bool.and_eq_true, decide_eq_true_eq, mem_withFlag]
  rw [show (withFlag c p).flag = (c.flag || p.nf) from rfl, Bool.or_eq_true]
  constructor
  · rintro ((h | h) | ⟨x, rfl | ⟨hx, hne⟩, hr, hf⟩)
    · exact .inl h
    · exact .inr (.inl h)
    · exact .inr (.inl hf)
    · exact .inr (.inr ⟨x, hx, hr, fun hs => hne ⟨hr, hs⟩, hf⟩)
  · rintro (h | h | ⟨x, hx, hr, hs, hf⟩)
    · exact .inl (.inl h)
    · exact .inl (.inr h)
    · exact .inr ⟨x, .inr ⟨hx, fun e => hs e.2⟩, hr, hf⟩

section round
variable {s : State} {p : LshPkt} {g : Group} {c : Close}

/-- The state once the packet is kept and its round closed. -/
def roundClosed (s : State) (p : LshPkt) : State := closeRound (flagTaken s p) p.berth

theorem roundClosed_rel (s : State) (p : LshPkt) : Rel [.lsh] s (roundClosed s p) := (flagTaken_rel s p).trans (closeRound_rel _ _)

theorem roundClosed_close (hc : c = fget s.lsh.close p.berth) (hr : p.aux = c.round + 1) :
    fget (roundClosed s p).lsh.close p.berth =
      { withFlag c p with
        flag := (withFlag c p).flag || (withFlag c p).got.any fun x => x.1 = p.aux && x.2.2
        round := p.aux
        start := s.lh.tick } := by
  subst hc
  unfold roundClosed
  rw [closeRound_close, flagTaken_close, (flagTaken_rel s p).frame .lh (by decide), hr]
  rfl

/-- The packet that completes its round closes it; then the next round is sent, or the decision made. -/
theorem exec_flagReceive_complete (h : inReset s 0x14 = false) (hp : p.crcOk = true) (hg : closeGroup s p.berth = some (p.group, g))
    (hcur : current s p = true) (hc : c = fget s.lsh.close p.berth) (hrun : c.running = true) (hctl : rdb s LSH_CTL_run = true)
    (hr : p.aux = c.round + 1) (hall : ∀ d ∈ g.close, d = p.src ∨ Heard c (c.round + 1) d) :
    exec (.flagReceive p) s = .next (if p.aux < g.diam then
        advanceWave g.diam (sendFlags (roundClosed s p) p.berth p.group g (p.aux + 1)) p.berth p.group g
      else modClose (roundClosed s p) p.berth fun c => { c with running := false, decided := true, skip := c.flag }) := by
  have hheard (d : Nat) (hd : d ∈ g.close) : Heard (withFlag c p) ((withFlag c p).round + 1) d :=
    heard_withFlag.2 ((hall d hd).imp (fun e => ⟨hr.symm, e⟩) id)
  have hclose : fget (flagTaken s p).lsh.close p.berth = withFlag c p := hc ▸ flagTaken_close s p
  rw [exec_flagReceive_live h hp hg hcur,
    advanceWave_closes hclose hrun ((run_of_rel (flagTaken_rel s p)).trans hctl) hheard, hr]
  rfl

/-- While a flag of the next round is missing, the wave stands after that round's packets have left. -/
theorem advanceWave_after_round (hc : c = fget s.lsh.close p.berth) (hctl : rdb s LSH_CTL_run = true) (hr : p.aux = c.round + 1)
    (hmiss : ∃ d ∈ g.close, ¬ Heard c (p.aux + 1) d) (k n : Nat) :
    advanceWave k (sendFlags (roundClosed s p) p.berth n g (p.aux + 1)) p.berth n g =
      sendFlags (roundClosed s p) p.berth n g (p.aux + 1) := by
  have hlsh := sendFlags_lsh ((run_of_rel (roundClosed_rel s p)).trans hctl) p.berth n g (p.aux + 1)
  refine advanceWave_waits ((congrArg (fget ·.close p.berth) hlsh).trans (roundClosed_close hc hr)) (.inr (.inr ?_)) k n
  obtain ⟨d, hd, hn⟩ := hmiss
  exact ⟨d, hd, fun hh => (heard_withFlag.1 hh).elim (fun e => absurd e.1 (Nat.succ_ne_self _)) hn⟩

end round

/-! ### CLOSE_WAVE_TIMEOUT -/

theorem mem_insertBy {α : Type} {key : α → Nat} {x y : α} {l : List α} : y ∈ insertBy key x l ↔ y = x ∨ y ∈ l := by
  induction l with
  | nil => simp [insertBy]
  | cons z l ih =>
    unfold insertBy
    split
    · simp
    · simp [ih, or_left_comm]

theorem mem_sortBy {α : Type} {key : α → Nat} {y : α} {l : List α} : y ∈ sortBy key l ↔ y ∈ l := by
  have h (acc : List α) : y ∈ l.foldl (fun acc x => insertBy key x acc) acc ↔ y ∈ acc ∨ y ∈ l := by
    induction l generalizing acc with
    | nil => simp
    | cons x l ih => rw [List.foldl_cons, ih, mem_insertBy, List.mem_cons]; tauto
  simpa [sortBy] using h []

/-- The silent neighbours are those whose flag of the present round is missing. -/
theorem mem_silent {c : Close} {g : Group} {d : Nat} : d ∈ silent c g ↔ d ∈ g.close ∧ ¬ Heard c (c.round + 1) d := by
  rw [silent, mem_sortBy, List.mem_filter, Bool.not_eq_true', ← Bool.not_eq_true]
  simp only [Heard, List.any_eq_true, Bool.and_eq_true, decide_eq_true_eq]

/-- The halt of a wave that timed out, before its event: no decision, and the failure on record (R294). -/
def waveFailed (s : State) (b n low : Nat) : State :=
  let t := modClose s b fun c => { c with running := false }
  let t := modShelf t fun x => { x with undecided := fset x.undecided b true }
  let t := wrs (wrOr t LSH_IRQ_STAT_close_tmo 1) [(LSH_ERR_group, n), (LSH_ERR_cause, 2), (LSH_ERR_berth, b)]
  modLsh t fun l => { l with failRank := BitVec.ofNat 32 low, failTick := t.lh.tick }

theorem waveFailed_fields (s : State) {b : Nat} (n low : Nat) (hb : b < 4) :
    rdb (waveFailed s b n low) LSH_IRQ_STAT_close_tmo = true ∧ rd (waveFailed s b n low) LSH_ERR_group = n % 65536 ∧
      rd (waveFailed s b n low) LSH_ERR_cause = 2 ∧ rd (waveFailed s b n low) LSH_ERR_berth = b := by
  unfold waveFailed
  simp only [rdb, modLsh_rd, wrs]
  refine ⟨?_, ?_, ?_, ?_⟩
  · rw [rd_wr_other (by decide) (by decide), rd_wr_other (by decide) (by decide), rd_wr_other (by decide) (by decide)]
    exact rdb_wrOr_one (by decide) rfl _
  · rw [rd_wr_other (by decide) (by decide), rd_wr_other (by decide) (by decide), rd_wr_same (by decide)]
    rfl
  · rw [rd_wr_other (by decide) (by decide), rd_wr_same (by decide)]
    rfl
  · rw [rd_wr_same (by decide)]
    exact Nat.mod_eq_of_lt hb

theorem waveFailed_rel (s : State) (b n low : Nat) : Rel [.regs, .shelf, .lsh] s (waveFailed s b n low) := by
  unfold waveFailed
  refine rel_modLsh (rel_wrs (rel_wrOr (rel_modShelf (rel_modClose .refl ?_) ?_) ?_) ?_) ?_ <;> decide

@[simp] theorem waveFailed_shelf (s : State) (b n low : Nat) :
    (waveFailed s b n low).shelf = { s.shelf with undecided := fset s.shelf.undecided b true } := by
  unfold waveFailed
  rw [modLsh_shelf, wrs_shelf, wrOr_shelf, modShelf_shelf]
  rfl

theorem waveFailed_lsh (s : State) (b n low : Nat) :
    (waveFailed s b n low).lsh =
      { (modClose s b fun c => { c with running := false }).lsh with failRank := BitVec.ofNat 32 low, failTick := s.lh.tick } := by
  unfold waveFailed
  rw [modLsh_lsh, wrs_lsh, wrOr_lsh, wrs_lh, wrOr_lh]
  rfl

/-- The wave of a berth has run for the timeout of its group (R302). -/
def WaveExpired (s : State) (b : Nat) (g : Group) : Prop :=
  (fget s.lsh.close b).running = true ∧ groupTmo s (parseGrp g.entry) ≤ since s (fget s.lsh.close b).start

theorem exec_closeWaveTimeout_early {s : State} {b n : Nat} {g : Group} (hg : closeGroup s b = some (n, g)) (h : ¬ WaveExpired s b g) :
    exec (.closeWaveTimeout b) s = .next s := by
  rw [show exec (.closeWaveTimeout b) s = execCloseWaveTimeout b s from rfl, execCloseWaveTimeout, hg]
  refine congrArg _ (if_pos ?_)
  unfold WaveExpired at h
  simp only [Bool.or_eq_true, Bool.not_eq_true', decide_eq_true_eq]
  grind

theorem exec_closeWaveTimeout_expired {s : State} {b n : Nat} {g : Group} (hg : closeGroup s b = some (n, g)) (h : WaveExpired s b g) :
    ∃ low, exec (.closeWaveTimeout b) s = .next (haltFor (waveFailed s b n low) b 0
      (toBe 1 2 ++ toBe 1 (silent (fget s.lsh.close b) g).length ++ zeros 2 ++ (silent (fget s.lsh.close b) g).flatMap (toBe 4 ·))) := by
  refine ⟨lowest ((silent (fget s.lsh.close b) g).filterMap fun d => g.members.findIdx? (· = d)), ?_⟩
  rw [show exec (.closeWaveTimeout b) s = execCloseWaveTimeout b s from rfl, execCloseWaveTimeout, hg]
  refine congrArg _ (if_neg ?_)
  obtain ⟨hrun, hlate⟩ := h
  simp [hrun, hlate]

end Sys2Proof.Laws
end

section
/-!
PROOFS. The close wave (O53).
-/
namespace Sys2Proof.Proofs
open Sys2Proof Sys2Proof.Machine Sys2Proof.Safety Sys2Proof.Laws

theorem closeWaveStart_sends {s : State} {b n : Nat} {g : Group} (hb : b < 4) (hmet : boundaryMet s b = true)
    (hg : closeGroup s b = some (n, g)) (hdiam : g.diam ≠ 0) (hidle : (fget s.lsh.close b).running = false)
    (hopen : (fget s.lsh.close b).decided = false) (hctl : rdb s LSH_CTL_run = true) (hup : inReset s 0x14 = false)
    (hmiss : ∃ d ∈ g.close, ∀ x ∈ (fget s.lsh.close b).got, x.1 = 1 → x.2.1 ≠ d) :
    ∃ t, exec (.closeWaveStart b) s = .next t ∧ Frame (footprint (.closeWaveStart b)) s t ∧
      fget t.lsh.close b = { fget s.lsh.close b with running := true, decided := false, round := 0, start := s.lh.tick } ∧
      (∀ c, c < 4 → c ≠ b → fget t.lsh.close c = fget s.lsh.close c) ∧
      ∀ d ∈ g.close, t.tx.any (fun m => match m with
        | .lsh e p => e == d && p.kind == 4 && p.aux == 1 && p.nf == (fget s.lsh.close b).flag && p.berth == b && p.group == n && p.src == ownId s &&
            p.epoch == (parseGrp g.entry).epoch && p.data.isEmpty && p.step == BitVec.ofNat 32 (fget s.upd.steps b).toNat
        | _ => false) = true := by
  have hctl' : rdb (waveArmed s b) LSH_CTL_run = true := hctl
  have hlsh := sendFlags_lsh hctl' b n g 1
  have hclose : fget (waveArmed s b).lsh.close b =
      { fget s.lsh.close b with running := true, decided := false, round := 0, start := s.lh.tick } := waveArmed_close s b
  have hwaits : advanceWave (g.diam + 1) (sendFlags (waveArmed s b) b n g 1) b n g = sendFlags (waveArmed s b) b n g 1 :=
    advanceWave_waits ((congrArg (fget ·.close b) hlsh).trans hclose)
      (.inr (.inr (hmiss.imp fun d hd => ⟨hd.1, not_heard.2 hd.2⟩))) _ _
  have he := exec_closeWaveStart_met hmet hg hdiam hidle hopen hctl hup
  rw [hwaits] at he
  refine ⟨_, he, (rel_of_exec he).frame, by rw [hlsh, hclose], fun c hc hne => ?_, fun d hd => ?_⟩
  · rw [hlsh]
    exact modClose_close_other _ _ hb hc hne
  · refine List.any_eq_true.2 ⟨_, sendFlags_sent hctl' b n g 1 d hd, ?_⟩
    rw [roundFlag_waveArmed]
    simp [roundFlag, flagOf]

theorem flagReceive_kept {s : State} {p : LshPkt} {g : Group} {c : Close} (h : inReset s 0x14 = false) (hp : p.crcOk = true)
    (hg : closeGroup s p.berth = some (p.group, g)) (hcur : current s p = true) (hc : c = fget s.lsh.close p.berth)
    (hwait : c.running = false ∨ rdb s LSH_CTL_run = false ∨ ∃ d ∈ g.close, d ≠ p.src ∧ ∀ x ∈ c.got, x.1 = c.round + 1 → x.2.1 ≠ d) :
    ∃ t, exec (.flagReceive p) s = .next t ∧ Frame [.lsh] s t ∧ fget t.lsh.close p.berth = withFlag c p := by
  subst hc
  have hclose := flagTaken_close s p
  have hwaits := advanceWave_waits (g := g) hclose (hwait.imp id (.imp (run_of_rel (flagTaken_rel s p)).trans fun ⟨d, hd, hne, hn⟩ =>
    ⟨d, hd, fun hh => (heard_withFlag.1 hh).elim (fun e => hne e.2) (not_heard.2 hn)⟩)) (g.diam + 1) p.group
  exact ⟨_, (exec_flagReceive_live h hp hg hcur).trans (congrArg _ hwaits), (flagTaken_rel s p).frame, hclose⟩

theorem closeWaveTimeout_halts {s : State} {b n : Nat} {g : Group} (hb : b < 4) (hg : closeGroup s b = some (n, g)) (h : WaveExpired s b g) :
    ∃ t, exec (.closeWaveTimeout b) s = .next t ∧ Frame (footprint (.closeWaveTimeout b)) s t ∧ fget t.shelf.undecided b = true ∧
      fget t.shelf.halted b = true ∧ fget t.lsh.close b = { fget s.lsh.close b with running := false } ∧
      rdb t LSH_IRQ_STAT_close_tmo = true ∧ rd t LSH_ERR_group = n % 65536 ∧ rd t LSH_ERR_cause = 2 ∧ rd t LSH_ERR_berth = b ∧
      t.lsh.failTick = s.lh.tick ∧
      EventsTo b [eventPayload s b 0x0002 0x0080 0 (toBe 1 2 ++ toBe 1 (silent (fget s.lsh.close b) g).length ++ zeros 2 ++
        (silent (fget s.lsh.close b) g).flatMap (toBe 4 ·))] s t ∧ OtherBerths b s t := by
  obtain ⟨low, he⟩ := exec_closeWaveTimeout_expired hg h
  obtain ⟨htmo, hgroup, hcause, hberth⟩ := waveFailed_fields s n low hb
  have hframe := (waveFailed_rel s b n low).frame
  have hquay : (waveFailed s b n low).quay = s.quay := hframe .quay (by decide)
  refine ⟨_, he, (rel_of_exec he).frame, ?_, ?_, ?_, ?_, ?_, ?_, ?_, ?_,
    eventsTo_of_same (hframe .lh (by decide)) (hframe .upd (by decide)) hquay (haltFor_event ..), fun c hc hne => ?_⟩
  · rw [haltFor_shelf, waveFailed_shelf]
    exact fget_fset_same ..
  · rw [haltFor_shelf]
    exact fget_fset_same ..
  · rw [haltFor_lsh, waveFailed_lsh]
    exact modClose_close ..
  · rw [rdb, haltFor_rd _ _ _ _ (by decide)]
    exact htmo
  · rw [haltFor_rd _ _ _ _ (by decide), hgroup]
  · rw [haltFor_rd _ _ _ _ (by decide), hcause]
  · rw [haltFor_rd _ _ _ _ (by decide), hberth]
  · rw [haltFor_lsh, waveFailed_lsh]
  · rw [haltFor_others _ _ _ hb c hc hne, berthOf, hquay, berthOf]

/-- Settles O53: a wave stands while a flag of its round is missing (`advanceWave_waits`), a complete round is closed
(`advanceWave_closes`), and one that times out halts its berth (`closeWaveTimeout_halts`). -/
theorem closeWave : Obligations.CloseWave := by
  unfold Obligations.CloseWave
  refine ⟨fun s b h => exec_closeWaveStart_unmet h, fun s b n g hb hmet hg hdiam hidle hopen hctl hup hmiss =>
      closeWaveStart_sends hb hmet hg hdiam hidle hopen hctl hup hmiss,
    fun s p => ⟨exec_flagReceive_reset p, fun h hp => ?_, fun h hp hs => ?_⟩,
    fun s p n g c h hp hg hn hcur hc hwait => ?_, fun s p n g c h hp hg hn hcur hc hrun hctl hr hall => ?_,
    fun s b n g c miss hb hg hc hmiss => ?_⟩
  · exact ⟨_, exec_flagReceive_corrupt h hp, noted_once rfl (by decide) rfl⟩
  · obtain ⟨hframe, hbit, hcount, -⟩ := noted_once (rfl : staleDrop s = count (wrOr s LSH_IRQ_STAT_stale 1) 0x1720 1) (by decide) rfl
    exact ⟨_, exec_flagReceive_stale h hp hs, hframe, hbit, hcount⟩
  · subst hn
    exact flagReceive_kept h hp hg hcur hc hwait
  · subst hn
    have he := exec_flagReceive_complete h hp hg hcur hc hrun hctl hr hall
    have hrel := roundClosed_rel s p
    have hclose := roundClosed_close hc hr
    have hctl' := (run_of_rel hrel).trans hctl
    refine ⟨_, he, (rel_of_exec he).frame, (rel_of_exec he).frame .upd (by dsimp only [footprint]; decide), fun hlast => ?_, fun hlt hmiss => ?_⟩
    · rw [if_neg (by omega), modClose_close, hclose]
      exact ⟨hrel.frame .tx (by decide), rfl, rfl, rfl, flag_after_round⟩
    · rw [if_pos hlt, advanceWave_after_round hc hctl hr (hmiss.imp fun d hd => ⟨hd.1, not_heard.2 hd.2⟩), sendFlags_lsh hctl', hclose]
      refine ⟨hrun, rfl, rfl, rfl, fun d hd => List.any_eq_true.2 ⟨_, sendFlags_sent hctl' _ _ _ _ d hd, ?_⟩⟩
      simp [roundFlag, flagOf, hclose]
  · subst hc hmiss
    by_cases hx : WaveExpired s b g
    · obtain ⟨t, ht, hframe, hund, hhalt, hclose, htmo, hgroup, hcause, hberth, htick, hev, hoth⟩ := closeWaveTimeout_halts hb hg hx
      refine ⟨t, ht, ?_⟩
      rw [if_neg (by obtain ⟨h1, h2⟩ := hx; unfold groupTmo at h2; simp [h1, h2])]
      exact ⟨hframe, hund, hhalt, hclose, htmo, hgroup, hcause, hberth, htick,
        fun d hd => ⟨(mem_silent.1 hd).1, not_heard.1 (mem_silent.1 hd).2⟩, fun d hd hn => mem_silent.2 ⟨hd, not_heard.2 hn⟩, hev, hoth⟩
    · refine ⟨s, exec_closeWaveTimeout_early hg hx, ?_⟩
      rw [if_pos (by unfold WaveExpired groupTmo at hx; grind)]

end Sys2Proof.Proofs
end

section
/-!
PROOFS. Two statements that fail: a held completion whose staging is freed (O45), and a full list of template copies (O55).
-/
namespace Sys2Proof.Proofs
open Sys2Proof Sys2Proof.Machine Sys2Proof.Safety Sys2Proof.Laws

/-! ### A held completion (R116) whose factor slot is gone (R133) -/

/-- A tapping operation of berth 0 that ends layer 0: its tap, for factor slot 5, filled staging entry 0. -/
def tapped : RunOp :=
  { berth := 0, engine := false, filler := false, desc := [0x01, 0x01] ++ zeros 70 ++ [0x51] ++ zeros 55, pass := ⟨0, 0, 0, 0, 0, 0⟩
    seed := 0, step := 0, mask := [], maskBad := false, active := 0, fixed := 0, turn := 0, cost := 0, tap := some 0, segment := false
    fdesc := [], factor := [] }

/-- Its completion is held, its trigger queue has room again, and FSLOT_RELEASE has removed slot 5 in the meantime. -/
def tapHeld : State :=
  { State.reset with
    shelf := { Shelf.reset with heldDone := some tapped }
    snd := { slots := [], stages := [⟨0, 0, 5, 0, false, [[0]], 1⟩], nextId := 1 } }

/-- The completion goes through and frees the staging entry, whose partition page goes to zeroing (R209). -/
theorem tapHeld_release : ∃ t, exec (.triggerHoldRelease 0) tapHeld = .next t ∧ t.mem.zeroing = [(1, 0, 1)] :=
  ⟨_, rfl, by decide⟩

/-- Refutes O45: the clause of TRIGGER_HOLD_RELEASE says that a completion of an open berth leaves memory as it was, but one whose operation
tapped a factor slot that is gone frees its staging, and the page that the staging held waits in memory to be zeroed (`tapHeld_release`). -/
theorem not_shelfScheduling : ¬ Obligations.ShelfScheduling := by
  unfold Obligations.ShelfScheduling
  rintro ⟨-, -, -, -, -, -, -, -, hrelease, -⟩
  obtain ⟨t, ht, h⟩ := hrelease tapHeld 0 tapped rfl
  obtain ⟨u, hu, hz⟩ := tapHeld_release
  cases ht.symm.trans hu
  have hroom : triggerBlocked tapHeld tapped.berth (parseOp tapped.desc) ≠ true := by decide
  have hopen : (berthOf tapHeld tapped.berth).closing ≠ true := by decide
  rw [if_neg hroom, if_neg hopen] at h
  obtain ⟨-, -, hmem, -⟩ := h
  rw [hmem] at hz
  exact absurd hz (by decide)

/-! ### A full list of template copies (R304) -/

/-- With 1,024 copies waiting no trigger is taken, whether or not its layer has a template. -/
theorem exec_triggerTake_full {s : State} {b : Nat} (h : 1024 ≤ (fget s.lsh.copies b).length) : exec (.triggerTake b) s = .next s := by
  refine congrArg Host.Outcome.next ?_
  by_cases hr : inReset s 0x14 = true
  · exact if_pos hr
  · rw [if_neg hr]
    cases fget s.shelf.triggers b with
    | nil => rfl
    | cons t ts => exact if_pos h

/-- Berth 0 with a full list of waiting copies and one trigger, of a layer that no template names. -/
def fullCopies : State :=
  { State.reset with
    lsh := { Longshore.reset with copies := ⟨List.replicate 1024 (zeros 64), [], [], []⟩ }
    shelf := { Shelf.reset with triggers := ⟨[⟨0, 0, 0, 0⟩], [], [], []⟩ } }

/-- Refutes O55: its second clause has TRIGGER_TAKE take the trigger whenever the waiting copies and the new ones are at most 1,024 together, and
so also when 1,024 wait and the layer has no template; but with the list full nothing is taken (`exec_triggerTake_full`, and the statement's own
first clause). -/
theorem not_collectiveRows : ¬ Obligations.CollectiveRows := by
  unfold Obligations.CollectiveRows
  rintro ⟨-, htake, -⟩
  have hfull : (fget fullCopies.lsh.copies 0).length = 1024 := List.length_replicate
  obtain ⟨u, hu, -, hshelf, -⟩ := htake fullCopies 0 ⟨0, 0, 0, 0⟩ [] _ (by decide) rfl rfl (by rw [hfull]; decide) rfl
  rw [exec_triggerTake_full hfull.ge] at hu
  cases hu
  exact absurd (congrArg Shelf.triggers hshelf) (by decide)

end Sys2Proof.Proofs
end

section
/-!
SUPPORT. What an incident leaves: the bits of a status field, events to every berth (R424), alerts (R569), entries of the error log (R523–R526), a
cause of REPLACE_REQUEST (R530), and a module that leaves service (R528).
-/
namespace Sys2Proof.Laws
open Sys2Proof Sys2Proof.Machine Sys2Proof.Safety

/-! ### Bits of a field that the hardware sets -/

theorem rd_lt (s : State) (f : Fld) : rd s f < 2 ^ (f.hi + 1 - f.lo) := bits_lt ..

/-- A field whose bits the hardware sets. -/
theorem rd_wrOr_same {f : Fld} (h : f.hi < 32) (s : State) {v : Nat} (hv : v < 2 ^ (f.hi + 1 - f.lo)) : rd (wrOr s f v) f = rd s f ||| v := by
  unfold wrOr
  rw [rd_wr_same h, Nat.mod_eq_of_lt (Nat.or_lt_two_pow (rd_lt s f) hv)]

theorem bit_or_two_pow (v i : Nat) : bit (v ||| 2 ^ i) i = true := by simp [bit]

/-- A number in which a bit is set already. -/
theorem or_two_pow_of_bit {v i : Nat} (h : bit v i = true) : v ||| 2 ^ i = v := by
  refine Nat.eq_of_testBit_eq fun j => ?_
  rw [Nat.testBit_or, Nat.testBit_two_pow]
  by_cases hj : i = j
  · subst hj
    rw [show v.testBit i = true from h]
    rfl
  · simp [hj]

theorem rdb_of_rd {s t : State} {f g : Fld} (h : rd t f = rd s g) : rdb t f = rdb s g := by unfold rdb; rw [h]

/-! ### An event to every berth (R424) -/

theorem regsBut_event (s : State) (b code status : Nat) (seq : W32) (data : List Byte) :
    RegsBut [CMD_IRQ_STAT_evt_lost.off] s (event s b code status seq data) := regsBut_putEvent _ _ _

theorem regsBut_foldS {α : Type} {offs : List Nat} {f : State → α → State} (hf : ∀ t x, RegsBut offs t (f t x)) (s : State) (l : List α) :
    RegsBut offs s (foldS f s l) := by
  induction l generalizing s with
  | nil => exact regsBut_refl
  | cons x l ih => exact regsBut_trans (hf s x) (ih _)

theorem regsBut_eventAll (s : State) (code status : Nat) (data : List Byte) : RegsBut [CMD_IRQ_STAT_evt_lost.off] s (eventAll s code status data) :=
  regsBut_foldS (fun t b => regsBut_event t b code status 0 data) s berths

/-- Telling the berths of a list, none of them twice: each has the event, the others are as they were. -/
theorem foldS_event (code status : Nat) (data : List Byte) (l : List Nat) (hl : l.Nodup) (h4 : ∀ b ∈ l, b < 4) (s : State) :
    ∀ b, b < 4 → berthOf (foldS (fun s b => event s b code status 0 data) s l) b =
      if b ∈ l then queueEvent s.lh.tick (berthOf s b) (eventPayload s b code status 0 data) else berthOf s b := by
  induction l generalizing s with
  | nil => simp [foldS]
  | cons c l ih =>
    intro b hb
    obtain ⟨hc, hl⟩ := List.nodup_cons.1 hl
    have hpay : ∀ b, eventPayload (event s c code status 0 data) b code status 0 data = eventPayload s b code status 0 data := fun b => by
      unfold eventPayload now; simp
    rw [foldS, ih hl (fun b hb => h4 b (List.mem_cons_of_mem _ hb)) _ b hb, hpay, event_lh]
    by_cases hbc : b = c
    · subst hbc
      rw [if_neg hc, if_pos (List.mem_cons_self ..)]
      exact berthOf_putEvent ..
    · have hkeep : berthOf (event s c code status 0 data) b = berthOf s b :=
        berthOf_putEvent_other _ _ (h4 c (List.mem_cons_self ..)) hb hbc
      rw [hkeep]
      simp [hbc]

theorem eventAll_toAll (s : State) (code status : Nat) (data : List Byte) : EventToAll code status data s (eventAll s code status data) :=
  fun b hb => by
    have h := foldS_event code status data berths (by decide) (by decide) s b hb
    rw [if_pos (by unfold berths; simp; omega)] at h
    exact h

/-! ### Alerts -/

theorem regsBut_emit {offs : List Nat} (s : State) (x : Tx) : RegsBut offs s (emit s x) :=
  regsBut_of_rel (rel_emit .refl fun _ h => h) (by decide)

theorem regsBut_setAlert (s : State) (i : Nat) : RegsBut [MGT_ALERT.off] s (setAlert s i) := by
  unfold setAlert
  dsimp only
  split
  · exact regsBut_trans (regsBut_wrOr _ _ _) (regsBut_emit _ _)
  · exact regsBut_wrOr _ _ _

theorem setAlert_alert (s : State) {i : Nat} (hi : i < 32) : rd (setAlert s i) MGT_ALERT = rd s MGT_ALERT ||| 2 ^ i := by
  have hw : rd (wrOr s MGT_ALERT (2 ^ i)) MGT_ALERT = rd s MGT_ALERT ||| 2 ^ i :=
    rd_wrOr_same (by decide) s (Nat.pow_lt_pow_right (by decide) hi)
  unfold setAlert
  dsimp only
  split
  · rw [rd_of_regsBut (regsBut_emit (offs := []) _ _) (by simp), hw]
  · exact hw

/-! ### The error log -/

theorem regsBut_rst {offs : List Nat} {s t : State} (hr : t.regs = s.regs) (hv : t.variant = s.variant) : RegsBut offs s t :=
  fun off _ => regWord_congr hr hv off

theorem regsBut_logRaw (s : State) (domain cls source : Nat) (detail : W64) (berth : Nat) :
    RegsBut [RST_IRQ_STAT.off] s (logRaw s domain cls source detail berth) := by
  unfold logRaw
  split
  · exact regsBut_rst rfl rfl
  · exact regsBut_trans (regsBut_rst rfl rfl) (regsBut_wrOr _ RST_IRQ_STAT_overflow 1)

theorem regsBut_recordReset (s : State) (d : Nat) (counted : Bool) : RegsBut [RST_IRQ_STAT.off] s (recordReset s d counted) := by
  unfold recordReset
  exact regsBut_trans (regsBut_logRaw _ _ _ _ _ _) (regsBut_rst rfl rfl)

theorem regsBut_noteThird {offs : List Nat} (s : State) : RegsBut offs s (noteThird s) := by
  unfold noteThird
  split
  · exact regsBut_rst rfl rfl
  · exact regsBut_refl

theorem regsBut_countDevice {offs : List Nat} (s : State) : RegsBut offs s (countDevice s) :=
  regsBut_trans (regsBut_rst rfl rfl) (regsBut_noteThird _)

theorem regsBut_enterDevice (s : State) (counted crash : Bool) : RegsBut [RST_IRQ_STAT.off] s (enterDevice s counted crash) := by
  unfold enterDevice
  split
  · split
    · exact regsBut_countDevice s
    · exact regsBut_refl
  · exact regsBut_trans (regsBut_trans (regsBut_recordReset _ _ _) (regsBut_noteThird _)) (regsBut_rst rfl rfl)

theorem regsBut_enterReset (s : State) (d : Nat) (byCmd crash : Bool) : RegsBut [RST_IRQ_STAT.off] s (enterReset s d byCmd crash) := by
  unfold enterReset
  split
  · exact regsBut_enterDevice _ _ _
  · split
    · exact regsBut_trans (regsBut_trans (regsBut_logRaw _ _ _ _ _ _) (regsBut_wrOr _ RST_IRQ_STAT_escalate 1)) (regsBut_enterDevice _ _ _)
    · exact regsBut_trans (regsBut_recordReset s d true) (regsBut_rst rfl rfl)

theorem regsBut_escalateFrom (k : Nat) (s : State) (d : Nat) : RegsBut [RST_IRQ_STAT.off] s (escalateFrom k s d) := by
  induction k generalizing d with
  | zero => exact regsBut_refl
  | succ k ih =>
    unfold escalateFrom
    split
    · exact regsBut_countDevice s
    · split
      · exact ih _
      · exact regsBut_enterReset _ _ _ _

theorem regsBut_logError (s : State) (domain cls source : Nat) (detail : W64) (berth : Nat) :
    RegsBut [RST_IRQ_STAT.off] s (logError s domain cls source detail berth) := by
  unfold logError nestedError
  split
  · exact regsBut_trans (regsBut_trans (regsBut_logRaw _ _ _ _ _ _) (regsBut_wrOr _ RST_IRQ_STAT_nested 1)) (regsBut_escalateFrom _ _ _)
  · exact regsBut_logRaw _ _ _ _ _ _

/-- A number from which the power of two of a bit that stands is taken. -/
theorem testBit_sub_two_pow {v k : Nat} (h : v.testBit k = true) (i : Nat) : (v - 2 ^ k).testBit i = if i = k then false else v.testBit i := by
  have hc : v % 2 ^ k < 2 ^ k := Nat.mod_lt _ (Nat.two_pow_pos k)
  have hodd : v / 2 ^ k % 2 = 1 := by simpa [Nat.testBit, Nat.shiftRight_eq_div_pow] using h
  have hv : v = 2 ^ k * (2 ^ 1 * (v / 2 ^ k / 2) + 1) + v % 2 ^ k := by
    rw [show 2 ^ 1 * (v / 2 ^ k / 2) + 1 = v / 2 ^ k by omega, Nat.div_add_mod]
  have hsub : v - 2 ^ k = 2 ^ k * (2 ^ 1 * (v / 2 ^ k / 2) + 0) + v % 2 ^ k := by
    rw [Nat.mul_add, Nat.mul_one] at hv
    rw [Nat.add_zero]
    omega
  rw [hsub, testBit_split (by decide) hc]
  conv_rhs => rw [hv, testBit_split (by decide) hc]
  by_cases hi : i = k
  · subst hi; simp
  · rw [if_neg hi]
    split
    · rfl
    · rw [if_neg (by omega), if_neg (by omega)]

/-! ### A cause of REPLACE_REQUEST (R530) -/

theorem regsBut_raiseReplace (s : State) (i : Nat) :
    RegsBut [RST_REPLACE_causes.off, RST_IRQ_STAT.off, MGT_ALERT.off, CMD_IRQ_STAT.off] s (raiseReplace s i) := by
  unfold raiseReplace
  split
  · exact regsBut_refl
  · exact regsBut_trans (regsBut_mono (regsBut_wrOr _ _ _) (by decide)) (regsBut_trans (regsBut_mono (regsBut_wrOr _ _ _) (by decide))
      (regsBut_trans (regsBut_mono (regsBut_setAlert _ _) (by decide)) (regsBut_mono (regsBut_eventAll _ _ _ _) (by decide))))

/-- A cause that is raised in a state which has the causes, the tick, the step counters and the sessions of an earlier one. -/
theorem replaceRaised_raiseReplace {s u : State} {i : Nat} (hi : i < 9) (hrd : rd u RST_REPLACE_causes = rd s RST_REPLACE_causes)
    (hlh : u.lh = s.lh) (hupd : u.upd = s.upd) (hquay : u.quay = s.quay) : ReplaceRaised i s (raiseReplace u i) := by
  unfold raiseReplace
  split
  next hset =>
    rw [hrd] at hset
    exact ⟨by rw [hrd, or_two_pow_of_bit hset], fun hclear => by simp [hset] at hclear⟩
  next =>
    dsimp only
    have hcause : ∀ v data, rd (eventAll (setAlert (wrOr (wrOr u RST_REPLACE_causes (2 ^ i)) RST_IRQ_STAT_replace 1) 1) 8 v data) RST_REPLACE_causes =
        rd s RST_REPLACE_causes ||| 2 ^ i := fun v data => by
      rw [rd_of_regsBut (regsBut_eventAll _ _ _ _) (by decide), rd_of_regsBut (regsBut_setAlert _ _) (by decide),
        rd_of_regsBut (regsBut_wrOr _ _ _) (by decide), rd_wrOr_same (by decide) u (Nat.pow_lt_pow_right (by decide) hi), hrd]
    refine ⟨hcause _ _, fun _ => ⟨?_, ?_, fun b hb => ?_⟩⟩
    · rw [rdb_of_rd (rd_of_regsBut (regsBut_eventAll _ _ _ _) (by decide)), rdb_of_rd (rd_of_regsBut (regsBut_setAlert _ _) (by decide))]
      exact rdb_wrOr_one (by decide) rfl _
    · rw [rd_of_regsBut (regsBut_eventAll _ _ _ _) (by decide), setAlert_alert _ (by decide)]
      exact bit_or_two_pow _ 1
    · rw [hcause, ← hcause 0 [], rd_of_regsBut (regsBut_eventAll _ _ _ _) (by decide)]
      exact eventsTo_of_same (by simp [hlh]) (by simp [hupd]) (by simp [hquay]) (eventAll_toAll _ _ _ _ b hb)

/-! ### Crash records that wait (R520) -/

@[simp] theorem crashing_logRaw (s : State) (domain cls source : Nat) (detail : W64) (berth : Nat) :
    (logRaw s domain cls source detail berth).rst.crashing = s.rst.crashing := by
  unfold logRaw; split <;> rfl

@[simp] theorem crashing_recordReset (s : State) (d : Nat) (counted : Bool) : (recordReset s d counted).rst.crashing = s.rst.crashing :=
  crashing_logRaw ..

@[simp] theorem crashing_noteThird (s : State) : (noteThird s).rst.crashing = s.rst.crashing := by
  unfold noteThird; split <;> rfl

@[simp] theorem crashing_countDevice (s : State) : (countDevice s).rst.crashing = s.rst.crashing := crashing_noteThird _

theorem crashing_enterDevice (s : State) (counted crash : Bool) : s.rst.crashing ⊆ (enterDevice s counted crash).rst.crashing := by
  unfold enterDevice
  split
  · split <;> simp
  · dsimp only
    split
    · simp
    · simp

theorem crashing_enterReset (s : State) (d : Nat) (byCmd crash : Bool) : s.rst.crashing ⊆ (enterReset s d byCmd crash).rst.crashing := by
  unfold enterReset
  split
  · exact crashing_enterDevice ..
  · split
    · exact List.Subset.trans (by simp) (crashing_enterDevice ..)
    · simp

theorem crashing_escalateFrom (k : Nat) (s : State) (d : Nat) : s.rst.crashing ⊆ (escalateFrom k s d).rst.crashing := by
  induction k generalizing d with
  | zero => exact List.Subset.refl _
  | succ k ih =>
    unfold escalateFrom
    split
    · simp
    · split
      · exact ih _
      · exact crashing_enterReset ..

theorem crashing_logError (s : State) (domain cls source : Nat) (detail : W64) (berth : Nat) :
    s.rst.crashing ⊆ (logError s domain cls source detail berth).rst.crashing := by
  unfold logError nestedError
  split
  · exact List.Subset.trans (by simp) (crashing_escalateFrom ..)
  · simp

/-! ### The module leaves service (R528) -/

theorem regsBut_leaveService (s : State) (cause domain : Nat) :
    RegsBut [RST_IRQ_STAT.off, PWR_IRQ_STAT.off, MGT_ALERT.off, CMD_IRQ_STAT.off] s (leaveService s cause domain) := by
  unfold leaveService
  extract_lets entry u stop r v w x y
  have hu : RegsBut [RST_IRQ_STAT.off] s u := by
    unfold u entry
    split
    · exact regsBut_logRaw _ _ _ _ _ _
    · exact regsBut_logError _ _ _ _ _ _
  have hw : RegsBut [RST_IRQ_STAT.off] v w := regsBut_wrOr v RST_IRQ_STAT_oos 1
  have hx : RegsBut [PWR_IRQ_STAT.off] w x := by
    unfold x
    split
    · exact regsBut_wrOr w PWR_IRQ_STAT_nv_block 1
    · exact regsBut_refl
  have hv : RegsBut [] u v := regsBut_rst rfl rfl
  exact regsBut_trans (regsBut_mono hu (by decide)) (regsBut_trans (regsBut_mono hv (by decide)) (regsBut_trans (regsBut_mono hw (by decide))
    (regsBut_trans (regsBut_mono hx (by decide)) (regsBut_trans (regsBut_mono (regsBut_setAlert _ _) (by decide))
      (regsBut_mono (regsBut_eventAll _ _ _ _) (by decide))))))

/-- What stands in the latch once the module has left service; no crash record that waits is lost. -/
theorem leaveService_rst (s : State) (cause domain : Nat) :
    (leaveService s cause domain).rst.latch = true ∧ (leaveService s cause domain).rst.oosCause = cause ∧
      s.rst.crashing ⊆ (leaveService s cause domain).rst.crashing := by
  unfold leaveService
  extract_lets entry u stop r v w x y
  have hu : s.rst.crashing ⊆ u.rst.crashing := by
    unfold u entry
    split
    · simp
    · exact crashing_logError ..
  have hx : x.rst = v.rst := by
    unfold x
    split <;> rfl
  have ht : (eventAll y 0x0009 0x0060 (toBe 1 cause)).rst = v.rst := by
    rw [eventAll_rst, setAlert_rst, hx]
  exact ⟨by rw [ht], by rw [ht], by rw [ht]; exact hu⟩

theorem leaveService_alert (s : State) (cause domain : Nat) : bit (rd (leaveService s cause domain) MGT_ALERT) 2 = true := by
  unfold leaveService
  extract_lets entry u stop r v w x y
  rw [rd_of_regsBut (regsBut_eventAll _ _ _ _) (by decide), setAlert_alert _ (by decide)]
  exact bit_or_two_pow _ 2

end Sys2Proof.Laws
end

section
/-!
SUPPORT. What a failure of the array's work leaves (R63, R230), a fold that keeps a part of the state, and the fields of SHF_CTL, SHF_CNT_CTL and
NUM_DIRTY_POP.
-/
namespace Sys2Proof.Laws
open Sys2Proof Sys2Proof.Machine Sys2Proof.Safety

/-- More parts may change. -/
theorem Rel.widen {ps qs : List Part} {s t : State} (h : Rel ps s t) (hs : Sub ps qs) : Rel qs s t :=
  ⟨h.pending, h.variant, h.free, h.tx, h.canon, fun p hp => h.frame p fun hp' => hp (hs p hp')⟩

/-- What every operation of a fold keeps, the fold keeps. -/
theorem foldS_keeps {α β : Type} {f : State → α → State} (g : State → β) (hf : ∀ t x, g (f t x) = g t) (s : State) (l : List α) :
    g (foldS f s l) = g s := by
  induction l generalizing s with
  | nil => rfl
  | cons x l ih => rw [foldS, ih, hf]

/-- A bit that is taken from a number when it stands. -/
theorem bit_taken (v k j : Nat) : bit (v - 2 ^ k * b2n (bit v k)) j = if j = k then false else bit v j := by
  cases h : bit v k with
  | false =>
    rw [show b2n false = 0 from rfl, Nat.mul_zero, Nat.sub_zero]
    split
    next hj => rw [hj, h]
    next => rfl
  | true =>
    rw [show b2n true = 1 from rfl, Nat.mul_one]
    exact testBit_sub_two_pow h j

theorem bit_or_two_pow_other (v : Nat) {i j : Nat} (h : j ≠ i) : bit (v ||| 2 ^ i) j = bit v j := by simp [bit, Ne.symm h]

/-! ### A count of corrected errors at its threshold (R64, R229, R530) -/

theorem satAdd_eq_min (top a b : Nat) : satAdd top a b = min top (a + b) := by unfold satAdd; split <;> omega

/-- The alarm of a count at its threshold: its status bit, an entry of the error log, and a cause of REPLACE_REQUEST. -/
theorem thresholdAlarm {s u : State} (hu : Rel [.regs, .counts] s u) (hcause : rd u RST_REPLACE_causes = rd s RST_REPLACE_causes)
    {irq : Fld} (hhi : irq.hi < 32) (hbit : irq.hi = irq.lo) (hoff : irq.off ∉ [RST_REPLACE_causes.off, RST_IRQ_STAT.off, MGT_ALERT.off, CMD_IRQ_STAT.off])
    {i : Nat} (hi : i < 9) (domain cls source : Nat) (detail : W64) (berth : Nat) :
    ReplaceRaised i s (raiseReplace (logError (wrOr u irq 1) domain cls source detail berth) i) ∧
      rdb (raiseReplace (logError (wrOr u irq 1) domain cls source detail berth) i) irq = true ∧
      RegsBut [irq.off, RST_REPLACE_causes.off, RST_IRQ_STAT.off, MGT_ALERT.off, CMD_IRQ_STAT.off] u
        (raiseReplace (logError (wrOr u irq 1) domain cls source detail berth) i) ∧
      Rel [.tx, .regs, .counts, .quay, .rst] u (raiseReplace (logError (wrOr u irq 1) domain cls source detail berth) i) := by
  have hsv : Rel [.regs, .counts, .rst] s (logError (wrOr u irq 1) domain cls source detail berth) :=
    rel_logError (rel_wrOr (hu.widen (by decide)) (by decide)) (by decide)
  have huv : Rel [.tx, .regs, .counts, .quay, .rst] u (logError (wrOr u irq 1) domain cls source detail berth) :=
    rel_logError (rel_wrOr .refl (by decide)) (by decide)
  have hlog := regsBut_logError (wrOr u irq 1) domain cls source detail berth
  generalize logError (wrOr u irq 1) domain cls source detail berth = v at *
  have hraise := regsBut_raiseReplace v i
  simp only [List.mem_cons, List.not_mem_nil, or_false, not_or] at hoff
  obtain ⟨h1, h2, h3, h4⟩ := hoff
  have hirq : rdb v irq = true := by
    rw [rdb_of_rd (rd_of_regsBut hlog (by simpa using h2))]
    exact rdb_wrOr_one hhi hbit u
  refine ⟨replaceRaised_raiseReplace hi ?_ (hsv.frame .lh (by decide)) (hsv.frame .upd (by decide)) (hsv.frame .quay (by decide)), ?_, ?_,
    rel_raiseReplace huv (by decide)⟩
  · rw [rd_of_regsBut hlog (by decide), rd_of_regsBut (regsBut_wrOr _ _ _) (by simpa using Ne.symm h1), hcause]
  · rw [rdb_of_rd (rd_of_regsBut hraise (by simp [h1, h2, h3, h4])), hirq]
  · exact regsBut_trans (regsBut_mono (regsBut_wrOr u irq 1) (by simp)) (regsBut_trans (regsBut_mono hlog (by simp)) (regsBut_mono hraise (by simp)))

/-! ### The work of the array fails (R63) -/

theorem setFlag_keeps (s : State) (b c : Nat) (h : (fget s.lsh.close b).flag = true) : (fget (setFlag s c).lsh.close b).flag = true := by
  unfold setFlag fmod
  rw [fget_fset]
  split
  · rfl
  · exact h

theorem rel_clearWindows (s : State) : Rel [.mem] s (foldS clearWindow s berths) :=
  foldSP .refl (fun _ _ h => rel_clearWindow h (by decide)) _

/-- The array and every queue of Shelf are empty. -/
theorem failWork_shelf (s : State) (tier : Nat) : (failWork s tier).shelf =
    { s.shelf with running := none, heldDone := none, segment := fourOf [], fetched := fourOf false, streams := fourOf [], engines := fourOf [] } := by
  unfold failWork
  extract_lets fail u v w
  have hfail : ∀ x r, (fail x r).shelf = x.shelf := fun x r => by simp [fail, opFault]
  have hu : u.shelf = s.shelf := by
    unfold u
    split
    · exact hfail _ _
    · rfl
  have hv : v.shelf = u.shelf := by
    unfold v
    split
    · exact hfail _ _
    · rfl
  have hw : w.shelf = v.shelf := (rel_clearWindows v).frame .shelf (by decide)
  rw [modShelf_shelf, hw, hv, hu]

theorem failWork_objects (s : State) (tier : Nat) : (failWork s tier).mem.objects = s.mem.objects := by
  unfold failWork
  extract_lets fail u v w
  have hfail : ∀ x r, (fail x r).mem = x.mem := fun x r => by simp [fail, opFault]
  have hu : u.mem = s.mem := by
    unfold u
    split
    · exact hfail _ _
    · rfl
  have hv : v.mem = u.mem := by
    unfold v
    split
    · exact hfail _ _
    · rfl
  have hw : w.mem.objects = v.mem.objects := foldS_keeps (fun x => x.mem.objects) (fun _ _ => rfl) v berths
  exact hw.trans (by rw [hv, hu])

theorem regsBut_failWork (s : State) (tier : Nat) : RegsBut [CMD_IRQ_STAT.off] s (failWork s tier) := by
  unfold failWork
  extract_lets fail u v w
  have hfail : ∀ x r, RegsBut [CMD_IRQ_STAT.off] x (fail x r) := fun x r =>
    regsBut_trans (regsBut_rst rfl rfl) (regsBut_event (setFlag x r.berth) _ _ _ _ _)
  have hu : RegsBut [CMD_IRQ_STAT.off] s u := by
    unfold u
    split
    · exact hfail _ _
    · exact regsBut_refl
  have hv : RegsBut [CMD_IRQ_STAT.off] u v := by
    unfold v
    split
    · exact hfail _ _
    · exact regsBut_refl
  have hw : RegsBut [CMD_IRQ_STAT.off] v w := regsBut_of_rel (rel_clearWindows v) (by decide)
  exact regsBut_trans hu (regsBut_trans hv (regsBut_trans hw (regsBut_rst rfl rfl)))

/-- The step flag of the berth whose operation held the array is set. -/
theorem failWork_flag {s : State} {r : RunOp} (tier : Nat) (h : s.shelf.running = some r) :
    (fget (failWork s tier).lsh.close r.berth).flag = true := by
  unfold failWork
  extract_lets fail u v w
  have hu : (fget u.lsh.close r.berth).flag = true := by
    unfold u
    rw [h]
    simp [fail, opFault]
  have hv : (fget v.lsh.close r.berth).flag = true := by
    unfold v
    split
    · simpa [fail, opFault] using setFlag_keeps u r.berth _ hu
    · exact hu
  have hw : w.lsh = v.lsh := (rel_clearWindows v).frame .lsh (by decide)
  rw [modShelf_lsh, hw]
  exact hv

theorem fget_fourOf {α : Type} (b : Nat) (x : α) : fget (fourOf x) b = x := by rcases b with _ | _ | _ | b <;> rfl

/-- The array's work has failed: nothing is left in the array and in any queue. -/
theorem failWork_empty (s : State) (tier : Nat) : (failWork s tier).shelf.running = none ∧ (failWork s tier).shelf.heldDone = none ∧
    ∀ b, b < 4 → fget (failWork s tier).shelf.streams b = [] ∧ fget (failWork s tier).shelf.engines b = [] ∧ fget (failWork s tier).shelf.segment b = [] := by
  rw [failWork_shelf]
  exact ⟨rfl, rfl, fun b _ => ⟨fget_fourOf b [], fget_fourOf b [], fget_fourOf b []⟩⟩

/-! ### Registers that requesters write -/

theorem anyReq_accepts {req : Nat} (h : req < 10) : anyReq.testBit req = true := by revert req; decide

theorem regSpec_SHF_CTL (v : Variant) : regSpec v SHF_CTL.off =
    some ⟨0x004, 1, 4, [⟨0, 0, .rw, 0, anyReq⟩, ⟨1, 1, .rw, 0, anyReq⟩, ⟨2, 2, .rw, 1, anyReq⟩]⟩ := by
  cases v <;> decide

theorem regSpec_SHF_CNT_CTL (v : Variant) :
    regSpec v SHF_CNT_CTL.off = some ⟨0x074, 1, 4, [⟨0, 0, .rw, 0, anyReq⟩, ⟨1, 1, .wo, 0, anyReq⟩]⟩ := by
  cases v <;> decide

theorem regSpec_NUM_DIRTY_POP (v : Variant) {b : Nat} (hb : b < 4) :
    regSpec v (NUM_DIRTY_POP_pop.at b).off = some ⟨0x040, 4, 4, [⟨0, 0, .wo, 0, anyReq⟩]⟩ := by
  revert b
  cases v <;> decide

/-- A plain write of a field RW that accepts every requester. -/
theorem rd_storeWrite_plain {s : State} {f : Fld} {r : RegSpec} {reset : Nat} (hr : regSpec s.variant f.off = some r)
    (hf : ⟨f.hi, f.lo, .rw, reset, anyReq⟩ ∈ r.fields) (hl : isLockReg f.off = false) (ha : f.off ≠ SWL_ALARM_EN.off) {w : CrsWrite}
    (hw : w.al = .plain) (hq : w.req < 10) : rd (storeWrite s f.off w) f = bits w.value.toNat f.hi f.lo := by
  have h := bits_storeWrite hr hf hl ha w
  rw [if_pos (anyReq_accepts hq), hw] at h
  exact h

/-- The WO bit of a plain or set write of a requester that the field accepts. -/
theorem woBits_accepted {s : State} {f : Fld} {r : RegSpec} (hr : regSpec s.variant f.off = some r)
    (hf : r.fields.any (fun x => decide (x.lo = f.lo) && decide (x.writers = anyReq)) = true) {w : CrsWrite} (hw : w.al = .plain ∨ w.al = .set)
    (hq : w.req < 10) : woBits s f w = bits w.value.toNat f.hi f.lo := by
  have hany : r.fields.any (fun x => decide (x.lo = f.lo) && x.writers.testBit w.req) = true := by
    obtain ⟨x, hx, hlo⟩ := List.any_eq_true.1 hf
    simp only [Bool.and_eq_true, decide_eq_true_eq] at hlo
    exact List.any_eq_true.2 ⟨x, hx, by rw [hlo.2, anyReq_accepts hq]; simp [hlo.1]⟩
  unfold woBits
  rw [hr]
  dsimp only
  rw [if_pos (by simpa using hw), if_pos hany]

theorem bits_lowest (v : Nat) : bits v 0 0 = v % 2 := by simp [bits]

theorem one_bit_ne_zero {v i : Nat} : bits v i i ≠ 0 ↔ bit v i = true := by
  have h : bits v i i = (v.testBit i).toNat := by
    rw [Nat.toNat_testBit, bits, Nat.add_sub_cancel_left, pow_one, Nat.shiftRight_eq_div_pow]
  rw [h]
  cases hb : v.testBit i <;> simp [bit, hb]

/-! ### The cycles of the running operation (R60) -/

theorem countRunning_idle {s : State} (h : s.shelf.running = none) : countRunning s = s := by unfold countRunning; rw [h]

/-- Counting the cycles of the running operation leaves which operation runs. -/
theorem countRunning_running (s : State) : ((countRunning s).shelf.running.map fun r => (r.berth, r.desc, r.pass, r.cost)) =
    (s.shelf.running.map fun r => (r.berth, r.desc, r.pass, r.cost)) := by
  unfold countRunning
  split
  · rfl
  next r h => rw [h]; rfl

/-! ### The module out of service, with a crash record that waits (R63, R230) -/

/-- Leaving service with a crash record of the domain queued before. -/
theorem leaveService_queueCrash (s : State) (cause d : Nat) :
    d ∈ (leaveService (queueCrash s d) cause d).rst.crashing ∧ (leaveService (queueCrash s d) cause d).rst.latch = true ∧
      (leaveService (queueCrash s d) cause d).rst.oosCause = cause ∧ outOfService (leaveService (queueCrash s d) cause d) = true ∧
      bit (rd (leaveService (queueCrash s d) cause d) MGT_ALERT) 2 = true := by
  obtain ⟨hlatch, hcause, hcrash⟩ := leaveService_rst (queueCrash s d) cause d
  exact ⟨hcrash (by simp [queueCrash]), hlatch, hcause, by simp [outOfService, hlatch], leaveService_alert _ _ _⟩

end Sys2Proof.Laws
end
section
/-!
PROOFS. Faults of Shelf and of the memory stacks, corrected errors of the tile stores, and the commands that write Shelf's registers (O46).
-/
namespace Sys2Proof.Proofs
open Sys2Proof Sys2Proof.Machine Sys2Proof.Safety Sys2Proof.Laws

/-- The parts that a tile fault leaves alone once the work has failed, the fault's record and the fields of SHF_FAULT. -/
theorem tileFault_effect (s : State) {tile cause : Nat} (hf : s.shelf.faulted = false) (htile : tile < 1024) (hcause : cause < 4) :
    (tileFault s tile cause).shelf =
        { s.shelf with
            running := none, heldDone := none, segment := fourOf [], fetched := fourOf false, streams := fourOf [], engines := fourOf []
            faulted := true, faultOp := runningSeq s, faultTick := s.lh.tick } ∧
      (∀ r, s.shelf.running = some r → (fget (tileFault s tile cause).lsh.close r.berth).flag = true) ∧
      (tileFault s tile cause).mem.objects = s.mem.objects ∧
      rd (tileFault s tile cause) SHF_FAULT_tile = tile ∧ rdb (tileFault s tile cause) ⟨SHF_FAULT.off, cause, cause, 4⟩ = true ∧
      tileDie tile ∈ (tileFault s tile cause).rst.crashing ∧ (tileFault s tile cause).rst.latch = true ∧
      (tileFault s tile cause).rst.oosCause = 0x02 ∧ outOfService (tileFault s tile cause) = true ∧
      bit (rd (tileFault s tile cause) MGT_ALERT) 2 = true := by
  unfold tileFault
  rw [if_neg (by simp [hf])]
  extract_lets seq u v w x y
  have hwy : Rel [.tx, .regs, .counts, .quay, .rst] w y := by
    unfold y
    split
    · exact rel_logError (rel_wrOr .refl (by decide)) (by decide)
    · split
      · exact rel_logError (rel_wrOr .refl (by decide)) (by decide)
      · exact rel_wrOr .refl (by decide)
  have hrxy : RegsBut [RST_IRQ_STAT.off] x y := by
    unfold y
    split
    · exact regsBut_logError _ _ _ _ _ _
    · split
      · exact regsBut_logError _ _ _ _ _ _
      · exact regsBut_refl
  obtain ⟨hcrash, hlatch, hoos, hout, halert⟩ := leaveService_queueCrash y 0x02 (tileDie tile)
  have hrt := regsBut_leaveService (queueCrash y (tileDie tile)) 0x02 (tileDie tile)
  have hwt : Rel [.tx, .regs, .counts, .quay, .rst] w (leaveService (queueCrash y (tileDie tile)) 0x02 (tileDie tile)) :=
    rel_leaveService (rel_queueCrash hwy (by decide)) (by decide)
  generalize leaveService (queueCrash y (tileDie tile)) 0x02 (tileDie tile) = t at *
  have htick : v.lh.tick = s.lh.tick := by
    rw [(rel_failWork .refl (by decide) : Rel [.tx, .regs, .counts, .shelf, .mem, .lsh, .quay] u v).frame .lh (by decide)]
    rfl
  have hregs : RegsBut [CMD_IRQ_STAT.off, SHF_IRQ_STAT.off, RST_IRQ_STAT.off, PWR_IRQ_STAT.off, MGT_ALERT.off] u t :=
    regsBut_trans (regsBut_mono (regsBut_failWork u _) (by decide)) (regsBut_trans (regsBut_rst (t := w) rfl rfl)
      (regsBut_trans (regsBut_mono (regsBut_wrOr w SHF_IRQ_STAT_tile_fault 1) (by decide)) (regsBut_trans (regsBut_mono hrxy (by decide))
        (regsBut_trans (regsBut_rst (t := queueCrash y (tileDie tile)) rfl rfl) (regsBut_mono hrt (by decide))))))
  have hrd : ∀ f : Fld, f.off = SHF_FAULT.off → rd t f = rd u f := fun f hoff => rd_of_regsBut hregs (by rw [hoff]; decide)
  refine ⟨?_, fun r hr => ?_, ?_, ?_, ?_, hcrash, hlatch, hoos, hout, halert⟩
  · rw [hwt.frame .shelf (by decide)]
    unfold w
    rw [modShelf_shelf, htick]
    unfold v
    rw [failWork_shelf]
    rfl
  · rw [hwt.frame .lsh (by decide)]
    exact failWork_flag _ (s := u) hr
  · rw [hwt.same_mem (by decide) (by decide)]
    exact failWork_objects u _
  · rw [hrd SHF_FAULT_tile rfl]
    unfold u wrs wrs
    rw [rd_wr_other (by dsimp only; omega) (by dsimp only [SHF_FAULT_tile]; omega), rd_wr_same (by decide)]
    exact Nat.mod_eq_of_lt htile
  · rw [rdb_of_rd (hrd ⟨SHF_FAULT.off, cause, cause, 4⟩ rfl)]
    unfold u wrs wrs rdb
    rw [rd_wr_same (by dsimp only; omega)]
    simp

/-- HBM_STAT once stack `k` has moved from the stacks in service to the failed ones. -/
theorem stackFail_stat {s t : State} {k : Nat} (hfail : rd t HBM_STAT_failed = rd s HBM_STAT_failed ||| 2 ^ k) (hok : rd t HBM_STAT_ok = rd s HBM_STAT_ok - 2 ^ k * b2n (bit (rd s HBM_STAT_ok) k)) :
    bit (rd t HBM_STAT_failed) k = true ∧ bit (rd t HBM_STAT_ok) k = false ∧
      ∀ j, j < 8 → j ≠ k → bit (rd t HBM_STAT_failed) j = bit (rd s HBM_STAT_failed) j ∧ bit (rd t HBM_STAT_ok) j = bit (rd s HBM_STAT_ok) j := by
  refine ⟨by rw [hfail]; exact bit_or_two_pow _ k, by rw [hok, bit_taken, if_pos rfl], fun j _ hj => ⟨?_, by rw [hok, bit_taken, if_neg hj]⟩⟩
  rw [hfail]
  exact bit_or_two_pow_other _ hj

theorem stackFail_effect (s : State) {k : Nat} (hk : k < 8) (hf : bit (rd s HBM_STAT_failed) k = false) :
    ∃ t, exec (.hbmStackFail k) s = .next t ∧ rd t HBM_STAT_failed = rd s HBM_STAT_failed ||| 2 ^ k ∧
      rd t HBM_STAT_ok = rd s HBM_STAT_ok - 2 ^ k * b2n (bit (rd s HBM_STAT_ok) k) ∧
      (∃ u, u.shelf = s.shelf ∧ ∃ tier, t.shelf = { (failWork u tier).shelf with stackStop := true }) ∧
      rdb t HBM_IRQ_STAT_stack_fail = true ∧ t.rst.latch = true ∧ t.rst.oosCause = 0x03 ∧ t.mem.objects = s.mem.objects := by
  refine ⟨_, rfl, ?_⟩
  rw [if_neg (by simp [hf])]
  extract_lets ok u v w
  obtain ⟨-, hlatch, hoos, -, -⟩ := leaveService_queueCrash w 0x03 5
  have hrt := regsBut_leaveService (queueCrash w 5) 0x03 5
  have hwt : Rel [.tx, .regs, .counts, .quay, .rst] w (leaveService (queueCrash w 5) 0x03 5) :=
    rel_leaveService (rel_queueCrash .refl (by decide)) (by decide)
  generalize leaveService (queueCrash w 5) 0x03 5 = t at *
  have hregs : RegsBut [RST_IRQ_STAT.off, PWR_IRQ_STAT.off, MGT_ALERT.off, CMD_IRQ_STAT.off] v t :=
    regsBut_trans (regsBut_rst (t := w) rfl rfl) (regsBut_trans (regsBut_rst (t := queueCrash w 5) rfl rfl) hrt)
  have hstat : ∀ f : Fld, f.off = HBM_STAT_ok.off → rd t f = rd u f := fun f hoff => by
    rw [rd_of_regsBut hregs (by rw [hoff]; decide), rd_of_regsBut (regsBut_wrOr _ _ _) (by rw [hoff]; decide),
      rd_of_regsBut (regsBut_failWork _ _) (by rw [hoff]; decide)]
  refine ⟨?_, ?_, ⟨u, rfl, 0xFF, hwt.frame .shelf (by decide)⟩, ?_, hlatch, hoos, ?_⟩
  · rw [hstat HBM_STAT_failed rfl]
    unfold u wrs wrs wrs
    rw [rd_wr_other (by decide) (by decide), rd_wr_same (by decide)]
    exact Nat.mod_eq_of_lt (Nat.or_lt_two_pow (rd_lt s _) (Nat.pow_lt_pow_right (by decide) hk))
  · rw [hstat HBM_STAT_ok rfl]
    unfold u wrs wrs wrs
    rw [rd_wr_same (by decide)]
    exact Nat.mod_eq_of_lt (lt_of_le_of_lt (Nat.sub_le ..) (rd_lt s HBM_STAT_ok))
  · rw [rdb_of_rd (rd_of_regsBut hregs (by decide))]
    exact rdb_wrOr_one (by decide) rfl _
  · rw [hwt.same_mem (by decide) (by decide)]
    exact failWork_objects u 0xFF

/-- Corrected errors of the tile stores, at the threshold and below it. -/
theorem tileStoreCe_effect (s : State) (n : Nat) :
    ∃ t, exec (.tileStoreCe n) s = .next t ∧ rd t SHF_CE_COUNT_count = min 65535 (rd s SHF_CE_COUNT_count + n) ∧ t.shelf = s.shelf ∧ t.mem = s.mem ∧
      (rd t SHF_CE_COUNT_count < rd s SHF_CE_THRESH_thresh → Frame [.regs] s t ∧ RegsBut [SHF_CE_COUNT.off] s t) ∧
      (rd s SHF_CE_COUNT_count < rd s SHF_CE_THRESH_thresh → rd s SHF_CE_THRESH_thresh ≤ rd t SHF_CE_COUNT_count →
        ReplaceRaised 0 s t ∧ rdb t SHF_IRQ_STAT_ce_thresh = true) := by
  refine ⟨_, rfl, ?_⟩
  extract_lets old u
  have hcount : rd u SHF_CE_COUNT_count = min 65535 (old + n) := by
    refine (rd_wr_same (by decide) s _).trans ?_
    rw [satAdd_eq_min]
    exact Nat.mod_eq_of_lt (lt_of_le_of_lt (Nat.min_le_left ..) (by decide))
  have hregs : RegsBut [SHF_CE_COUNT.off] s u := regsBut_wr s SHF_CE_COUNT_count _
  have hthresh : rd u SHF_CE_THRESH_thresh = rd s SHF_CE_THRESH_thresh := rd_of_regsBut hregs (by decide)
  split
  next hreach =>
    obtain ⟨hraised, hirq, hbut, hrel⟩ := thresholdAlarm (s := s) (u := u) (rel_wr .refl (by decide)) (rd_of_regsBut hregs (by decide))
      (irq := SHF_IRQ_STAT_ce_thresh) (by decide) rfl (by decide) (i := 0) (by decide) 0 0x01 0 0 0xFF
    generalize raiseReplace (logError (wrOr u SHF_IRQ_STAT_ce_thresh 1) 0 0x01 0 0 0xFF) 0 = t at *
    have hce : rd t SHF_CE_COUNT_count = rd u SHF_CE_COUNT_count := rd_of_regsBut hbut (by decide)
    refine ⟨hce.trans hcount, hrel.frame .shelf (by decide), hrel.same_mem (by decide) (by decide), fun hlt => ?_, fun _ _ => ⟨hraised, hirq⟩⟩
    rw [hce] at hlt
    simp only [reaches, hthresh, Bool.and_eq_true, decide_eq_true_eq] at hreach
    omega
  next hno =>
    refine ⟨hcount, rfl, rfl, fun _ => ⟨(rel_wr .refl (by decide) : Rel [.regs] s u).frame, hregs⟩, fun hlt hle => ?_⟩
    refine absurd ?_ hno
    simp only [reaches, hthresh, Bool.and_eq_true, Bool.or_eq_true, decide_eq_true_eq]
    omega

/-- A plain write of SHF_CTL by any requester. -/
theorem issueEn_effect (s : State) {w : CrsWrite} (hw : w.al = .plain) (hq : w.req < 10) :
    ∃ t, exec (.shfIssueEnWrite w) s = .next t ∧ Frame [.regs] s t ∧ RegsBut [SHF_CTL.off] s t ∧ rd t SHF_CTL_issue_en = w.value.toNat % 2 := by
  refine ⟨_, rfl, (rel_storeWrite .refl (by decide) : Rel [.regs] s _).frame, regsBut_storeWrite s _ w, ?_⟩
  have h := rd_storeWrite_plain (s := s) (f := SHF_CTL_issue_en) (regSpec_SHF_CTL s.variant) (reset := 0) (by decide) (by decide) (by decide) hw hq
  exact h.trans (bits_lowest _)

/-- A write of SHF_CNT_CTL: freeze as written, the counters zeroed by clear. -/
theorem counterClear_effect (s : State) {w : CrsWrite} (hw : w.al = .plain ∨ w.al = .set) (hq : w.req < 10) :
    ∃ t, exec (.shfCounterClear w) s = .next t ∧ RegsBut [SHF_CNT_CTL.off] s t ∧
      t.shelf = (if bit w.value.toNat 1 then { (countRunning s).shelf with causes := [] } else (countRunning s).shelf) ∧
      (s.shelf.running = none → Frame [.regs, .shelf] s t) ∧ (w.al = .plain → rd t SHF_CNT_CTL_freeze = w.value.toNat % 2) := by
  have hvar : (storeWrite (countRunning s) SHF_CNT_CTL.off w).variant = s.variant := by
    rw [storeWrite_variant, (rel_countRunning .refl fun _ h => h : Rel [.free, .shelf] s _).variant]
  have hclear : woBits (storeWrite (countRunning s) SHF_CNT_CTL.off w) SHF_CNT_CTL_clear w ≠ 0 ↔ bit w.value.toNat 1 = true := by
    rw [woBits_accepted (by rw [hvar]; exact regSpec_SHF_CNT_CTL s.variant) (by decide) hw hq]
    exact one_bit_ne_zero
  have hregs : RegsBut [SHF_CNT_CTL.off] s (storeWrite (countRunning s) SHF_CNT_CTL.off w) :=
    regsBut_trans (regsBut_of_rel (rel_countRunning .refl fun _ h => h) (by decide)) (regsBut_storeWrite _ _ w)
  have hfreeze : w.al = .plain → rd (storeWrite (countRunning s) SHF_CNT_CTL.off w) SHF_CNT_CTL_freeze = w.value.toNat % 2 := fun hp => by
    have h := rd_storeWrite_plain (s := countRunning s) (f := SHF_CNT_CTL_freeze) (regSpec_SHF_CNT_CTL _) (reset := 0) (by decide) (by decide)
      (by decide) hp hq
    exact h.trans (bits_lowest _)
  have hframe : s.shelf.running = none → Rel [.regs, .shelf] s (storeWrite (countRunning s) SHF_CNT_CTL.off w) := fun hn => by
    rw [countRunning_idle hn]
    exact rel_storeWrite .refl (by decide)
  refine ⟨writeCntCtl s w, rfl, ?_⟩
  unfold writeCntCtl
  dsimp only
  by_cases hb : bit w.value.toNat 1 = true
  · rw [if_pos (hclear.2 hb), if_pos hb]
    exact ⟨regsBut_trans hregs (regsBut_of_rel (rel_modShelf .refl fun _ h => h) (by decide)), by rw [modShelf_shelf, storeWrite_shelf],
      fun hn => (rel_modShelf (hframe hn) (by decide)).frame, fun hp => (modShelf_rd ..).trans (hfreeze hp)⟩
  · rw [if_neg (fun h => hb (hclear.1 h)), if_neg hb]
    exact ⟨hregs, storeWrite_shelf .., fun hn => (hframe hn).frame, hfreeze⟩

/-- A pop of a berth's oldest dirty entry. -/
theorem dirtyPop_effect (s : State) {b : Nat} (hb : b < 4) {w : CrsWrite} (hw : w.al = .plain) (hq : w.req < 10) :
    ∃ t, exec (.numDirtyPop b w) s = .next t ∧ Frame [.num] s t ∧
      t.num = if bit w.value.toNat 0 then { s.num with dirty := fset s.num.dirty b (fget s.num.dirty b).tail } else s.num := by
  have hpop : woBits s (NUM_DIRTY_POP_pop.at b) w ≠ 0 ↔ bit w.value.toNat 0 = true := by
    rw [woBits_accepted (regSpec_NUM_DIRTY_POP s.variant hb) rfl (.inl hw) hq]
    exact one_bit_ne_zero
  refine ⟨_, rfl, ?_⟩
  rw [if_pos hb]
  unfold writePop
  by_cases h : bit w.value.toNat 0 = true
  · rw [if_pos (hpop.2 h), if_pos h]
    exact ⟨(rel_modNum .refl (by decide) : Rel [.num] s _).frame, rfl⟩
  · rw [if_neg (fun h' => h (hpop.1 h')), if_neg h]
    exact ⟨Rel.refl.frame, rfl⟩

/-- Settles O46: each clause from the lemma about its command; the parts that a command leaves alone come from its footprint. -/
theorem shelfFaults : Obligations.ShelfFaults := by
  unfold Obligations.ShelfFaults
  refine ⟨fun s tile cause hf htile hcause => ?_, fun s tile cause cycles hf => ?_, fun s tile cycles => ?_, fun s n => ?_, fun s k hk hf => ?_,
    fun s w hw hq => issueEn_effect s hw hq, fun s w hw hq => ?_, fun s b w hb hw hq => dirtyPop_effect s hb hw hq⟩
  · obtain ⟨hshelf, hflag, hobj, hrd, hcau, hcrash, hlatch, hoos, hout, halert⟩ := tileFault_effect s hf htile hcause
    have hframe : Frame (footprint (.tileFault tile cause)) s (tileFault s tile cause) := (rel_of_exec rfl).frame
    have hseq : runningSeq s = s.shelf.running.elim 0 fun r => if r.engine then 0 else (parseOp r.desc).seq := by
      unfold runningSeq
      cases s.shelf.running <;> rfl
    refine ⟨_, rfl, hframe, ?_, ?_, ?_, ?_, hrd, hcau, ?_, ?_, hflag, hcrash, hlatch, hoos, hout, halert, hframe .bytes (by simp [footprint]), hobj⟩
    all_goals rw [hshelf]
    · exact fun b _ => ⟨fget_fourOf b [], fget_fourOf b [], fget_fourOf b []⟩
    · exact hseq
  · have hsame : ∀ c, tileFault s tile c = s := fun c => by unfold tileFault; rw [if_pos hf]
    have hwatch : exec (.waveWatchdogExpiry tile cycles) s = .next (if tileWorks s tile && cycles ≥ rd s SHF_WDOG_cycles then tileFault s tile 3 else s) := rfl
    exact ⟨congrArg _ (hsame cause), by rw [hwatch, hsame, ite_self]⟩
  · have hwatch : exec (.waveWatchdogExpiry tile cycles) s = .next (if tileWorks s tile && cycles ≥ rd s SHF_WDOG_cycles then tileFault s tile 3 else s) := rfl
    rw [hwatch]
    simp only [Bool.and_eq_true, decide_eq_true_eq, ge_iff_le]
    split <;> rfl
  · obtain ⟨t, ht, hcount, hshelf, hmem, hbelow, habove⟩ := tileStoreCe_effect s n
    exact ⟨t, ht, hcount, hshelf, hmem, hbelow, fun _ hlt hle _ => habove hlt hle⟩
  · obtain ⟨t, ht, hfail, hok, ⟨u, hu, tier, hshelf⟩, hirq, hlatch, hoos, hobj⟩ := stackFail_effect s hk hf
    obtain ⟨h1, h2, h3⟩ := stackFail_stat hfail hok
    have hframe := (rel_of_exec ht).frame
    refine ⟨t, ht, hframe, h1, h2, h3, ?_, ?_, ?_, ?_, hirq, hlatch, hoos, hframe .bytes (by simp [footprint]), hobj⟩
    all_goals rw [hshelf]
    · exact (failWork_empty u tier).1
    · exact (failWork_empty u tier).2.2
    · rw [failWork_shelf, hu]
  · obtain ⟨t, ht, hregs, hshelf, hidle, hfreeze⟩ := counterClear_effect s hw hq
    refine ⟨t, ht, hregs, (rel_of_exec ht).frame, fun hb => ?_, ?_, fun hn => ⟨?_, hidle hn⟩, hfreeze⟩
    · rw [hshelf, if_pos hb]
    · rw [hshelf, ← countRunning_running]
      split <;> rfl
    · rw [hshelf, countRunning_idle hn]

end Sys2Proof.Proofs
end

section
/-!
SUPPORT. Counts that a window zeroes, the stored bytes of a dropped object, a fold that does nothing, and a Pager with nothing to do.
-/
namespace Sys2Proof.Laws
open Sys2Proof Sys2Proof.Machine Sys2Proof.Safety

/-! ### Fields that the hardware zeroes -/

/-- Zeroing a field leaves no other field with more bits set. -/
theorem rd_wr_zero {f g : Fld} (hf : f.hi < 32) (s : State) (h : rd s g = 0) : rd (wr s f 0) g = 0 := by
  unfold rd wr at *
  rw [regWord_setWord]
  split
  next hoff =>
    rw [hoff] at h
    refine Nat.eq_of_testBit_eq fun i => ?_
    have hi := congrArg (Nat.testBit · i) h
    simp only [testBit_bits, Nat.zero_testBit] at hi ⊢
    rw [testBit_putBits hf]
    split
    · simp
    · exact hi
  next => exact h

theorem rd_wrs_zero {g : Fld} (l : List (Fld × Nat)) (hl : ∀ p ∈ l, p.1.hi < 32 ∧ p.2 = 0) (s : State) (h : rd s g = 0) : rd (wrs s l) g = 0 := by
  induction l generalizing s with
  | nil => exact h
  | cons p l ih =>
    obtain ⟨hp, h0⟩ := hl p (List.mem_cons_self ..)
    refine ih (fun q hq => hl q (List.mem_cons_of_mem _ hq)) _ ?_
    rw [h0]
    exact rd_wr_zero hp s h

theorem wrs_append (s : State) (l l' : List (Fld × Nat)) : wrs s (l ++ l') = wrs (wrs s l) l' := by
  induction l generalizing s with
  | nil => rfl
  | cons p l ih => exact ih _

/-- Fields that are written one list after the other, the last only in a module that has them. -/
theorem wrs_append_if (s : State) (l l' l'' : List (Fld × Nat)) (has : Variant → Bool) : wrs s (l ++ l' ++ if has s.variant then l'' else []) =
    if has (wrs (wrs s l) l').variant then wrs (wrs (wrs s l) l') l'' else wrs (wrs s l) l' := by
  rw [wrs_append, wrs_append, wrs_variant, wrs_variant]
  split <;> rfl

/-- A list of fields that are zeroed: each reads 0. -/
theorem rd_wrs_zero_mem {f : Fld} (l : List (Fld × Nat)) (hl : ∀ p ∈ l, p.1.hi < 32 ∧ p.2 = 0) (hf : (f, 0) ∈ l) (s : State) :
    rd (wrs s l) f = 0 := by
  induction l generalizing s with
  | nil => cases hf
  | cons p l ih =>
    have hl' := fun q hq => hl q (List.mem_cons_of_mem _ hq)
    rcases List.mem_cons.1 hf with rfl | hf
    · obtain ⟨hp, -⟩ := hl _ (List.mem_cons_self ..)
      exact rd_wrs_zero l hl' _ (by rw [rd_wr_same hp, Nat.zero_mod])
    · exact ih hl' hf _

/-! ### Bytes -/

theorem cellGet_of_absent {m : List Host.Cell} {a : Nat} (h : ∀ c ∈ m, c.1 ≠ a) : cellGet m a = 0 := by
  induction m with
  | nil => rfl
  | cons c m ih =>
    rw [cellGet, if_neg (h c (List.mem_cons_self ..))]
    exact ih fun d hd => h d (List.mem_cons_of_mem _ hd)

/-- The bytes of a dropped range read 0. -/
theorem cellGet_cellDrop_inside {m : List Host.Cell} {a n x : Nat} (ha : a ≤ x) (hx : x < a + n) : cellGet (cellDrop m a n) x = 0 :=
  cellGet_of_absent fun c hc he => by
    have := (List.mem_filter.1 hc).2
    simp only [Bool.or_eq_true, decide_eq_true_eq] at this
    omega

/-- A fold whose every operation does nothing. -/
theorem foldS_fixed {α : Type} {f : State → α → State} {s : State} {l : List α} (h : ∀ x ∈ l, f s x = s) : foldS f s l = s := by
  induction l with
  | nil => rfl
  | cons x l ih => rw [foldS, h x (List.mem_cons_self ..), ih fun y hy => h y (List.mem_cons_of_mem _ hy)]

theorem fset_fget {α : Type} (q : Four α) (i : Nat) : fset q i (fget q i) = q := by
  rcases i with _ | _ | _ | i <;> rfl

/-! ### A Pager with nothing to do (R213, R214) -/

/-- No descriptor enters a window that has taken in every one. -/
theorem enterWindow_idle {s : State} (h : ∀ b, b < 4 → (window s b).length ≤ fget s.mem.entered b) : enterWindow s = s := by
  have hkeep : ∀ b, (modMem s fun m => { m with entered := fset m.entered b (fget s.mem.entered b) }) = s := fun b => by
    show { s with mem := { s.mem with entered := fset s.mem.entered b (fget s.mem.entered b) } } = s
    rw [fset_fget]
  refine foldS_fixed fun b hb => ?_
  have h4 : b < 4 := by revert b; decide
  dsimp only
  rw [List.drop_eq_nil_of_le (h b h4), foldS, max_eq_left (h b h4), hkeep]

theorem firstOf_none {l : List (Option State)} (h : ∀ x ∈ l, x = none) : firstOf l = none := by
  induction l with
  | nil => rfl
  | cons x l ih =>
    rw [h x (List.mem_cons_self ..), firstOf]
    exact ih fun y hy => h y (List.mem_cons_of_mem _ hy)

/-- Dropped objects give no page. -/
theorem nextVictim_dropped {s : State} (h : ∀ p ∈ s.mem.objects, p.2.dropped = true) (b : Nat) : nextVictim s b = none := by
  have hnone : ∀ p ∈ objsOf s b, (if (pinnedHandles s).any (namesKey p.1) then none
      else (victimOf s b p.1 p.2).map fun v => (victimRank s b p.1 p.2, v)) = none := fun p hp => by
    have hd : p.2.dropped = true := h p (List.mem_of_mem_filter hp)
    unfold victimOf
    simp [hd]
  unfold nextVictim
  dsimp only
  rw [List.filterMap_eq_nil_iff.2 hnone]

/-- Without wants, waiting allocations and objects that could give a page, the Pager has nothing to do. -/
theorem pagerNext_idle {s : State} (hw : s.mem.wants = []) (ha : s.mem.allocs = []) (h : ∀ p ∈ s.mem.objects, p.2.dropped = true) :
    pagerNext s = none := by
  have hwants : ∀ k, wantsOf s k = [] := fun k => by unfold wantsOf; simp [hw]
  have halloc : serveAlloc s = none := by unfold serveAlloc; rw [ha]; rfl
  have hhead : serveHeadroom s = none := firstOf_none fun x hx => by
    obtain ⟨b, -, rfl⟩ := List.mem_map.1 hx
    rw [nextVictim_dropped h]
    exact ite_self none
  unfold pagerNext
  simp only [hwants, halloc, hhead]
  rfl

end Sys2Proof.Laws
end
section
/-!
PROOFS. Scrub of the memory tiers, the windows of error counts, and a DDR5 channel that is lost (O49).
-/
namespace Sys2Proof.Proofs
open Sys2Proof Sys2Proof.Machine Sys2Proof.Safety Sys2Proof.Laws

/-- Nothing is scrubbed of a tier that is no tier, of a unit that the module lacks, or in reset. -/
theorem scrub_none {s : State} {tier unit n : Nat} {bad : List Nat} (h : tier = 0 ∨ 3 < tier ∨ (if tier = 1 then 4 else if tier = 2 then 8 else 12) ≤ unit ∨
    (tier = 3 ∧ hasDdr s.variant = false) ∨ inReset s (tierDomain tier) = true) : exec (.memoryScrub tier unit n bad) s = .next s := by
  refine congrArg _ (if_pos ?_)
  simpa [or_assoc] using h

/-- The scrub of an HBM stack in service: its corrected words counted, then each uncorrectable one. -/
theorem scrub_hbm {s : State} {unit n : Nat} {bad : List Nat} (hu : unit < 8) (hr : inReset s 5 = false) :
    exec (.memoryScrub 2 unit n bad) s = .next (foldS (scrubFind 2 unit) (if n = 0 then s else corrected s 2 unit n) bad) := by
  refine congrArg _ (if_neg ?_)
  have : inReset s (tierDomain 2) = false := hr
  simp [this]
  omega

/-- Counting the corrected words of an HBM stack. -/
theorem corrected_hbm_eq (s : State) (unit n : Nat) : corrected s 2 unit n =
    let u := count (wr s (HBM_CE_COUNT_count.at unit) (satAdd 65535 (rd s (HBM_CE_COUNT_count.at unit)) n)) (0x1300 + unit) n
    if reaches (rd s (HBM_CE_COUNT_count.at unit)) (rd u (HBM_CE_COUNT_count.at unit)) (rd u HBM_CE_THRESH_thresh) then
      raiseReplace (logError (wrOr u HBM_IRQ_STAT_ce_thresh 1) 5 0x01 0 (BitVec.ofNat 64 unit) 0xFF) 2
    else u := rfl

/-- The corrected words of an HBM stack, at the threshold and below it. -/
theorem corrected_hbm (s : State) {unit : Nat} (hu : unit < 8) (n : Nat) :
    rd (corrected s 2 unit n) (HBM_CE_COUNT_count.at unit) = min 65535 (rd s (HBM_CE_COUNT_count.at unit) + n) ∧
      (corrected s 2 unit n).mem = s.mem ∧
      (rd s (HBM_CE_COUNT_count.at unit) < rd s HBM_CE_THRESH_thresh → rd s HBM_CE_THRESH_thresh ≤ rd (corrected s 2 unit n) (HBM_CE_COUNT_count.at unit) →
        ReplaceRaised 2 s (corrected s 2 unit n) ∧ rdb (corrected s 2 unit n) HBM_IRQ_STAT_ce_thresh = true) ∧
      (rd (corrected s 2 unit n) (HBM_CE_COUNT_count.at unit) < rd s HBM_CE_THRESH_thresh →
        (corrected s 2 unit n).quay = s.quay ∧ (corrected s 2 unit n).rst = s.rst) := by
  have hoffs : ∀ o ∈ [HBM_CE_THRESH.off, HBM_IRQ_STAT.off, RST_REPLACE_causes.off, RST_IRQ_STAT.off, MGT_ALERT.off, CMD_IRQ_STAT.off],
      o ≠ (HBM_CE_COUNT_count.at unit).off := by
    revert unit
    decide
  rw [corrected_hbm_eq]
  extract_lets u
  have hrel : Rel [.regs, .counts] s u := rel_count (rel_wr .refl (by decide)) (by decide)
  have hregs : RegsBut [(HBM_CE_COUNT_count.at unit).off] s u := regsBut_trans (regsBut_wr s (HBM_CE_COUNT_count.at unit) _) (regsBut_count _ _ _)
  have hcount : rd u (HBM_CE_COUNT_count.at unit) = min 65535 (rd s (HBM_CE_COUNT_count.at unit) + n) := by
    refine (rd_of_regsBut (offs := []) (regsBut_count _ _ _) (by simp)).trans ((rd_wr_same (f := HBM_CE_COUNT_count.at unit) (show 15 < 32 by decide) s _).trans ?_)
    rw [satAdd_eq_min]
    exact Nat.mod_eq_of_lt (lt_of_le_of_lt (Nat.min_le_left ..) (show 65535 < 2 ^ 16 by decide))
  have hthresh : rd u HBM_CE_THRESH_thresh = rd s HBM_CE_THRESH_thresh := rd_of_regsBut hregs (by simpa using hoffs _ (by decide))
  split
  next hreach =>
    obtain ⟨hraised, hirq, hbut, hut⟩ := thresholdAlarm (s := s) (u := u) hrel (rd_of_regsBut hregs (by simpa using hoffs _ (by decide)))
      (irq := HBM_IRQ_STAT_ce_thresh) (by decide) rfl (by decide) (i := 2) (by decide) 5 0x01 0 (BitVec.ofNat 64 unit) 0xFF
    generalize raiseReplace (logError (wrOr u HBM_IRQ_STAT_ce_thresh 1) 5 0x01 0 (BitVec.ofNat 64 unit) 0xFF) 2 = t at *
    have hce : rd t (HBM_CE_COUNT_count.at unit) = rd u (HBM_CE_COUNT_count.at unit) := rd_of_regsBut hbut fun hm => hoffs _ (List.mem_cons_of_mem _ hm) rfl
    refine ⟨hce.trans hcount, hut.same_mem (by decide) (by decide), fun _ _ => ⟨hraised, hirq⟩, fun hlt => ?_⟩
    rw [hce] at hlt
    simp only [reaches, hthresh, Bool.and_eq_true, decide_eq_true_eq] at hreach
    omega
  next hno =>
    refine ⟨hcount, hrel.same_mem (by decide) (by decide), fun hlt hle => absurd ?_ hno, fun _ => ⟨hrel.frame .quay (by decide), hrel.frame .rst (by decide)⟩⟩
    simp only [reaches, hthresh, Bool.and_eq_true, Bool.or_eq_true, decide_eq_true_eq]
    omega

/-- An uncorrectable error of an HBM stack: the registers of the error, its status bit and its record. -/
theorem noteUeIn_hbm (s : State) (ch a b : Nat) (scrub : Bool) :
    ∃ u w, u.mem = s.mem ∧ noteUeIn s 2 ch a b scrub = modMem (wrOr u HBM_IRQ_STAT_ue 1) fun m => { m with ueT2 := w } := by
  refine ⟨_, _, ?_, rfl⟩
  rw [wrs_mem, (rel_logError .refl (by decide) : Rel [.regs, .rst] (useFree s) _).same_mem (by decide) (by decide), useFree_mem]

/-- An uncorrectable word that the scrub of an HBM stack finds in an object. -/
theorem scrubFind_hbm {s : State} {a : Nat} (unit : Nat) (ht : tierAt s (a / 64 * 64) = 2) : scrubFind 2 unit s a =
    noteUeIn (modMem s fun m => { m with bad := if a / 64 * 64 ∈ m.bad then m.bad else a / 64 * 64 :: m.bad }) 2 (chanAt s (a / 64 * 64))
      (a / 64 * 64) (a / 64 * 64 / 2 ^ 73) true := by
  have hnote : ∀ u, tierAt u (a / 64 * 64) = 2 → noteUe u (a / 64 * 64) true =
      noteUeIn u 2 (chanAt u (a / 64 * 64)) (a / 64 * 64) (a / 64 * 64 / 2 ^ 73) true := fun u hu => by unfold noteUe; rw [hu]
  exact (if_pos ht).trans (hnote _ ht)

/-- An uncorrectable word that the scrub of an HBM stack finds is listed; its bytes and its object stand. -/
theorem scrub_ue (s : State) {unit a : Nat} (hu : unit < 8) (hr : inReset s 5 = false) (ht : tierAt s (a / 64 * 64) = 2) :
    ∃ t, exec (.memoryScrub 2 unit 0 [a]) s = .next t ∧ t.mem.bytes = s.mem.bytes ∧ t.mem.objects = s.mem.objects ∧
      t.mem.bad = (if a / 64 * 64 ∈ s.mem.bad then s.mem.bad else a / 64 * 64 :: s.mem.bad) ∧ rdb t HBM_IRQ_STAT_ue = true := by
  obtain ⟨u, w, hmem, ht'⟩ := noteUeIn_hbm (modMem s fun m => { m with bad := if a / 64 * 64 ∈ m.bad then m.bad else a / 64 * 64 :: m.bad })
    (chanAt s (a / 64 * 64)) (a / 64 * 64) (a / 64 * 64 / 2 ^ 73) true
  refine ⟨_, scrub_hbm hu hr, ?_⟩
  rw [if_pos rfl, foldS, foldS, scrubFind_hbm unit ht, ht', modMem_mem, wrOr_mem, hmem]
  exact ⟨rfl, rfl, rfl, (rdb_of_rd (modMem_rd ..)).trans (rdb_wrOr_one (by decide) rfl u)⟩

/-- A word that is listed is met by a read of it. -/
theorem badRange_of_mem {s : State} {c : Nat} (h : c ∈ s.mem.bad) (ht : tierAt s c = 2) : badRange s c 64 = true := by
  unfold badRange
  rw [Bool.or_eq_true]
  refine .inl (List.any_eq_true.2 ⟨c, h, ?_⟩)
  rw [ht, show cwSize 2 = 64 from rfl]
  simp

theorem tierAt_congr {s t : State} (h : t.mem.objects = s.mem.objects) (a : Nat) : tierAt t a = tierAt s a := by unfold tierAt; rw [h]

/-- The counts that start again with each window, all of them written 0 (R229). -/
def windowedCounts (v : Variant) : List (Fld × Nat) :=
  [(SHF_CE_COUNT_count, 0), (HBR_CE_COUNT_count, 0)] ++ ((List.range 8).map fun i => (HBM_CE_COUNT_count.at i, 0)) ++
    if hasDdr v then (List.range 12).flatMap fun i => [(DDR_CE_COUNT_ce.at i, 0), (DDR_CE_COUNT_ue.at i, 0)] else []

theorem windowedCounts_zero (v : Variant) : ∀ p ∈ windowedCounts v, p.1.hi < 32 ∧ p.2 = 0 := by
  cases v <;> decide

/-- A port whose symbol errors start again. -/
def newWindow (tick : W64) (p : Port) : Port := { p with symbols := 0, window := tick }

/-- A window of error counts that ends. -/
theorem errorWindow_eq {s : State} (h : 2 ^ 20 ≤ since s s.mem.window) : exec .errorWindowExpiry s =
    .next (modMem (modClf (wrs s (windowedCounts s.variant)) fun c => { c with ports := c.ports.map fun p => (p.1, newWindow s.lh.tick p.2) })
      fun m => { m with window := s.lh.tick }) := by
  refine congrArg _ ((if_pos h).trans ?_)
  extract_lets u v w x
  have hw : wrs s (windowedCounts s.variant) = w := wrs_append_if s _ _ _ hasDdr
  have htick : s.lh.tick = w.lh.tick := by rw [← hw, wrs_lh]
  rw [hw, htick]
  rfl

/-- What the end of a window leaves of the counts (R64, R223, R229, R269). -/
theorem errorWindow_ends {s : State} (h : 2 ^ 20 ≤ since s s.mem.window) :
    ∃ t, exec .errorWindowExpiry s = .next t ∧ t.mem = { s.mem with window := s.lh.tick } ∧ (∀ f, (f, 0) ∈ windowedCounts s.variant → rd t f = 0) ∧
      (∀ p ∈ t.clf.ports, p.2.symbols = 0 ∧ p.2.window = s.lh.tick) ∧ rd t SHF_CE_THRESH_thresh = rd s SHF_CE_THRESH_thresh := by
  refine ⟨_, errorWindow_eq h, ?_, fun f hf => ?_, fun p hp => ?_, ?_⟩
  · rw [modMem_mem, modClf_mem, wrs_mem]
  · rw [modMem_rd, modClf_rd]
    exact rd_wrs_zero_mem _ (windowedCounts_zero s.variant) hf s
  · rw [modMem_clf, modClf_clf] at hp
    obtain ⟨q, -, rfl⟩ := List.mem_map.1 hp
    exact ⟨rfl, rfl⟩
  · rw [modMem_rd, modClf_rd]
    refine rd_of_regsBut (regsBut_wrs s _) ?_
    cases s.variant <;> decide

/-- A channel that is not in service, or that the module lacks, cannot be lost. -/
theorem channelLost_none {s : State} {ch : Nat} (h : hasDdr s.variant = false ∨ 12 ≤ ch ∨ bit (rd s DDR_STAT_in_service) ch = false) :
    exec (.ddrChannelLost ch) s = .next s := by
  refine congrArg _ (if_neg ?_)
  rcases h with h | h | h
  · simp [h]
  · simp [Nat.not_lt.2 h]
  · simp [h]

/-- DDR_STAT once channel `ch` is lost. -/
theorem bit_channels {s t : State} {ch : Nat} (hin : rd t DDR_STAT_in_service = rd s DDR_STAT_in_service - 2 ^ ch * b2n (bit (rd s DDR_STAT_in_service) ch))
    (hlost : rd t DDR_STAT_lost = rd s DDR_STAT_lost ||| 2 ^ ch) :
    bit (rd t DDR_STAT_in_service) ch = false ∧ chanLost t ch = true ∧
      ∀ c, c ≠ ch → bit (rd t DDR_STAT_in_service) c = bit (rd s DDR_STAT_in_service) c ∧ chanLost t c = chanLost s c := by
  unfold chanLost
  rw [hin, hlost]
  exact ⟨by rw [bit_taken, if_pos rfl], bit_or_two_pow _ ch, fun c hc => ⟨by rw [bit_taken, if_neg hc], bit_or_two_pow_other _ hc⟩⟩

/-- What the loss of a DDR5 channel leaves. -/
theorem loseChannel_effect {s : State} {ch : Nat} (hch : ch < 12) (hl : chanLost s ch = false) :
    rd (loseChannel s ch) DDR_STAT_in_service = rd s DDR_STAT_in_service - 2 ^ ch * b2n (bit (rd s DDR_STAT_in_service) ch) ∧
      rd (loseChannel s ch) DDR_STAT_lost = rd s DDR_STAT_lost ||| 2 ^ ch ∧ rdb (loseChannel s ch) DDR_IRQ_STAT_chan_lost = true ∧
      ReplaceRaised 4 s (loseChannel s ch) ∧
      (loseChannel s ch).mem = { s.mem with moves := s.mem.moves.filter fun x => !(x.kind = 1 && x.channel = ch) } := by
  unfold loseChannel
  rw [if_neg (by simp [hl])]
  extract_lets u v x _
  have hrx := regsBut_raiseReplace x 4
  have hvx : ∀ f, rd x f = rd v f := fun f => modMem_rd ..
  have hregs : RegsBut [DDR_STAT.off, DDR_IRQ_STAT.off] s v :=
    regsBut_trans (regsBut_mono (regsBut_wr s DDR_STAT_in_service _) (by decide)) (regsBut_trans (regsBut_mono (regsBut_wrOr u DDR_STAT_lost _) (by decide))
      (regsBut_mono (regsBut_wrOr _ DDR_IRQ_STAT_chan_lost 1) (by decide)))
  have hrel : Rel [.regs, .mem] s x := rel_modMem (rel_wrOr (rel_wrOr (rel_wr .refl (by decide)) (by decide)) (by decide)) (by decide) rfl
  have hlt : 2 ^ ch < 2 ^ 12 := Nat.pow_lt_pow_right (by decide) hch
  refine ⟨?_, ?_, ?_, replaceRaised_raiseReplace (by decide) ((hvx _).trans (rd_of_regsBut hregs (by decide))) (hrel.frame .lh (by decide))
    (hrel.frame .upd (by decide)) (hrel.frame .quay (by decide)), ?_⟩
  · rw [rd_of_regsBut hrx (by decide), hvx, rd_of_regsBut (regsBut_wrOr _ _ _) (by decide)]
    unfold wrOr
    rw [rd_wr_other (by decide) (by decide), rd_wr_same (by decide)]
    exact Nat.mod_eq_of_lt (lt_of_le_of_lt (Nat.sub_le ..) (rd_lt s DDR_STAT_in_service))
  · rw [rd_of_regsBut hrx (by decide), hvx, rd_of_regsBut (regsBut_wrOr _ _ _) (by decide), rd_wrOr_same (by decide) u hlt,
      rd_wr_other (by decide) (by decide)]
  · rw [rdb_of_rd ((rd_of_regsBut hrx (by decide)).trans (hvx _))]
    exact rdb_wrOr_one (by decide) rfl _
  · have hmem : v.mem = s.mem := by unfold v; rw [wrOr_mem, wrOr_mem, wr_mem]
    rw [raiseReplace_mem, modMem_mem, hmem]

/-- An object with a page on a lost channel and a segment reads as dropped (R223). -/
theorem isDropped_of_lost {s t : State} {ch : Nat} (hl : chanLost t ch = true) (hobj : t.mem.objects = s.mem.objects) {h : Hdl} {o : Obj}
    (ho : objOf s h = some o) (hp : (o.moved.any fun q => q.2.tier == 3 && q.2.channel == ch) = true) (hs : o.segment ≠ []) : isDropped t h = true := by
  have hpage : lostPage t o = true := by
    obtain ⟨q, hq, hc⟩ := List.any_eq_true.1 hp
    simp only [Bool.and_eq_true, beq_iff_eq] at hc
    exact List.any_eq_true.2 ⟨q, hq, by simp [hc.1, hc.2, hl]⟩
  have ho' : objOf t h = some o := by unfold objOf objAt at *; rwa [hobj]
  unfold isDropped
  rw [ho']
  simp [hpage, hs]

/-- The Pager drops the one object, with a lost page and a segment, that nothing pins (R223). -/
theorem dropLost_single {s : State} {k : Nat} {o : Obj} (hobj : s.mem.objects = [(k, o)]) (hl : lostPage s o = true) (hs : o.segment ≠ [])
    (hd : o.dropped = false) (hp : (pinnedHandles s).any (namesKey k) = false) : dropLost s = dropObject s (k / 2 ^ 30) (k % 2 ^ 30) := by
  unfold dropLost
  rw [hobj, foldS, foldS]
  exact if_pos (by simp [hd, hs, hl, hp])

/-- An object that is dropped, in a memory that holds no other. -/
theorem dropObject_single {s : State} {k : Nat} {o : Obj} (hobj : s.mem.objects = [(k, o)]) : ∃ t, dropObject s (k / 2 ^ 30) (k % 2 ^ 30) = t ∧
    t.mem.objects = [(k, { o with dropped := true, moved := [] })] ∧ t.mem.bytes = cellDrop s.mem.bytes (k * 2 ^ 43) (2 ^ 43) ∧
      t.mem.wants = s.mem.wants ∧ t.mem.allocs = s.mem.allocs := by
  have hkey : okey (k / 2 ^ 30) (k % 2 ^ 30) = k := by unfold okey; omega
  have hat : objAt s (k / 2 ^ 30) (k % 2 ^ 30) = some o := by unfold objAt; rw [hkey, hobj]; simp [mget]
  refine ⟨_, rfl, ?_⟩
  unfold dropObject objBase
  rw [hat, hkey]
  dsimp only
  rw [count_mem, modMem_mem, hobj]
  exact ⟨by simp [mset], rfl, rfl, rfl⟩

/-- The Pager's step with nothing to do but to drop what a lost channel held. -/
theorem pagerMoveStart_dropOnly {s u : State} (hrun : rdb s PGR_CTL_run = true) (hmoves : s.mem.moves.length < 16) (hreset : inReset s 4 = false)
    (hstop : stopping s = false) (hu : dropLost (enterWindow s) = u) (hidle : pagerNext u = none) (halloc : u.mem.allocs = []) :
    exec .pagerMoveStart s = .next u := by
  refine congrArg _ ((if_pos (by simp [hrun, hmoves, hreset, hstop])).trans ?_)
  dsimp only
  rw [hu, hidle]
  unfold tryAllocs
  dsimp only
  rw [halloc, foldS]

/-- An object that a lost channel leaves without a page is dropped with its bytes (R223). -/
theorem pager_drops_lost {s : State} {k : Nat} {o : Obj} (hrun : rdb s PGR_CTL_run = true) (hmoves : s.mem.moves.length < 16)
    (hreset : inReset s 4 = false) (hstop : stopping s = false) (hwants : s.mem.wants = []) (hallocs : s.mem.allocs = [])
    (hwin : ∀ b, b < 4 → (window s b).length ≤ fget s.mem.entered b) (hobj : s.mem.objects = [(k, o)]) (hl : lostPage s o = true)
    (hs : o.segment ≠ []) (hd : o.dropped = false) (hp : (pinnedHandles s).any (namesKey k) = false) :
    ∃ t, exec .pagerMoveStart s = .next t ∧ t.mem.objects = [(k, { o with dropped := true, moved := [] })] ∧ BytesZero (k * 2 ^ 43) 4096 t := by
  obtain ⟨u, hu, huobj, hbytes, huw, hua⟩ := dropObject_single hobj
  have hdrop : dropLost (enterWindow s) = u := by rw [enterWindow_idle hwin, dropLost_single hobj hl hs hd hp, hu]
  have hidle : pagerNext u = none := pagerNext_idle (huw.trans hwants) (hua.trans hallocs) fun p hm => by
    rw [huobj, List.mem_singleton] at hm
    rw [hm]
  refine ⟨u, pagerMoveStart_dropOnly hrun hmoves hreset hstop hdrop hidle (hua.trans hallocs), huobj, fun x hx hlt => ?_⟩
  rw [hbytes]
  exact cellGet_cellDrop_inside hx (hlt.trans_le (Nat.add_le_add_left (by norm_num) _))

/-- Settles O49: each clause from the lemma about its command; the parts that a command leaves alone come from its footprint. -/
theorem memoryErrors : Obligations.MemoryErrors := by
  unfold Obligations.MemoryErrors
  refine ⟨fun s tier unit n bad h => scrub_none h, fun s unit n hu hr _ => ?_, fun s unit a c hu hr hc ht => ?_, fun s => ?_,
    fun s ch h => channelLost_none h, fun s ch hd hch hin hl => ?_,
    fun s k o hrun hmoves hreset hstop hwants hallocs hwin hobj hl hs hdr hp =>
      pager_drops_lost hrun hmoves hreset hstop hwants hallocs hwin hobj hl hs hdr hp⟩
  · have hexec := scrub_hbm (n := n) (bad := []) hu hr
    refine ⟨_, hexec, (rel_of_exec hexec).frame, ?_⟩
    by_cases hn : n = 0
    · have hlt : rd s (HBM_CE_COUNT_count.at unit) < 65536 := rd_lt s (HBM_CE_COUNT_count.at unit)
      rw [if_pos hn, foldS, hn]
      exact ⟨rfl, rfl, by omega, fun h => absurd rfl h, fun _ => ⟨rfl, rfl⟩⟩
    · obtain ⟨hcount, hmem, hat, hbelow⟩ := corrected_hbm s hu n
      rw [if_neg hn, foldS]
      exact ⟨by rw [hmem], by rw [hmem], hcount, fun _ => hat, hbelow⟩
  · subst hc
    obtain ⟨t, hexec, hbytes, hobj, hbad, hirq⟩ := scrub_ue s hu hr ht
    have hin : a / 64 * 64 ∈ t.mem.bad := by rw [hbad]; split <;> simp [*]
    refine ⟨t, hexec, (rel_of_exec hexec).frame, hbytes, hobj, hin, fun x hx => ?_, fun x hx => ?_,
      badRange_of_mem hin ((tierAt_congr hobj _).trans ht), hirq⟩
    · rw [hbad] at hx
      split at hx
      · exact .inr hx
      · exact List.mem_cons.1 hx
    · rw [hbad]
      split
      · exact hx
      · exact List.mem_cons_of_mem _ hx
  · by_cases h : since s s.mem.window < 2 ^ 20
    · exact ⟨s, congrArg _ (if_neg (Nat.not_le.2 h)), by rw [if_pos h]⟩
    · obtain ⟨t, hexec, hmem, hzero, hports, hthresh⟩ := errorWindow_ends (Nat.not_lt.1 h)
      refine ⟨t, hexec, ?_⟩
      rw [if_neg h]
      refine ⟨(rel_of_exec hexec).frame, hmem, hzero _ ?_, hzero _ ?_, fun i hi => hzero _ ?_, fun hd i hi => ⟨hzero _ ?_, hzero _ ?_⟩, hports, hthresh⟩
      all_goals unfold windowedCounts
      · simp
      · simp
      · exact List.mem_append_left _ (List.mem_append_right _ (List.mem_map.2 ⟨i, List.mem_range.2 hi, rfl⟩))
      all_goals rw [if_pos hd]
      · exact List.mem_append_right _ (List.mem_flatMap.2 ⟨i, List.mem_range.2 hi, by simp⟩)
      · exact List.mem_append_right _ (List.mem_flatMap.2 ⟨i, List.mem_range.2 hi, by simp⟩)
  · have hexec : exec (.ddrChannelLost ch) s = .next (loseChannel s ch) := congrArg _ (if_pos (by simp [hd, hch, hin]))
    obtain ⟨hrin, hrlost, hirq, hraised, hmem⟩ := loseChannel_effect hch hl
    obtain ⟨hout, hlost, hothers⟩ := bit_channels hrin hrlost
    have hobj : (loseChannel s ch).mem.objects = s.mem.objects := by rw [hmem]
    refine ⟨_, hexec, (rel_of_exec hexec).frame, hout, hlost, fun c _ hne => hothers c hne, hirq, hraised, hobj, by rw [hmem],
      fun h o ho hpage hs => isDropped_of_lost hlost hobj ho hpage hs, fun m hm => ?_⟩
    rw [hmem] at hm
    obtain ⟨hm, hkeep⟩ := List.mem_filter.1 hm
    exact ⟨fun ⟨hk, hc⟩ => by simp [hk, hc] at hkeep, hm⟩

end Sys2Proof.Proofs
end

section
/-!
SUPPORT. A channel's record after a change (R283), the work that a flush discards (R303, R415), the halt of a stream that is lifted (R42, R415), and
the deficits of resting berths (R54).
-/
namespace Sys2Proof.Laws
open Sys2Proof Sys2Proof.Machine Sys2Proof.Safety

theorem frame_mono {ps qs : List Part} {s t : State} (h : Frame ps s t) (hs : Sub ps qs) : Frame qs s t := fun p hp => h p fun hp' => hp (hs p hp')

/-- What every operation of a fold keeps true, the fold keeps true. -/
theorem foldS_holds {α : Type} {f : State → α → State} {P : State → Prop} (hf : ∀ t x, P t → P (f t x)) {s : State} (h : P s) (l : List α) :
    P (foldS f s l) := by
  induction l generalizing s with
  | nil => exact h
  | cons x l ih => exact ih (hf s x h)

/-! ### The halt of a stream is lifted -/

/-- The halt is lifted: the rejected descriptor goes with its place in the lookahead window when it is dropped. -/
theorem liftHalt_mem (s : State) (b : Nat) (drop : Bool) : (liftHalt s b drop).mem = { s.mem with
    entered := if drop = true ∧ (fget s.shelf.rejected b).isSome = true then fset s.mem.entered b (fget s.mem.entered b - 1) else s.mem.entered } := by
  unfold liftHalt
  dsimp only
  rw [modShelf_mem]
  by_cases h : drop = true ∧ (fget s.shelf.rejected b).isSome = true
  · rw [if_pos (by simp [h]), if_pos h]
    rfl
  · rw [if_neg (by simpa using h), if_neg h]

theorem liftHalt_shelf (s : State) (b : Nat) (drop : Bool) : (liftHalt s b drop).shelf = { s.shelf with
    halted := fset s.shelf.halted b false, rejected := fset s.shelf.rejected b none, fetched := fset s.shelf.fetched b false
    streams := if drop = true ∧ (fget s.shelf.rejected b).isSome = true then fset s.shelf.streams b (fget s.shelf.streams b).tail else s.shelf.streams } := by
  unfold liftHalt
  dsimp only
  rw [modShelf_shelf]
  by_cases h : drop = true ∧ (fget s.shelf.rejected b).isSome = true
  · rw [if_pos (by simp [h]), if_pos h, if_pos (by simp [h])]
    rfl
  · rw [if_neg (by simpa using h), if_neg h, if_neg (by simpa using h)]

/-- A resting berth's deficit is all that changes. -/
theorem restDeficits_shelf (s : State) : ∃ d, (restDeficits s).shelf = { s.shelf with deficit := d } := by
  unfold restDeficits
  split
  · refine foldS_holds (P := fun t => ∃ d, t.shelf = { s.shelf with deficit := d }) (fun t b ⟨d, hd⟩ => ?_) ⟨s.shelf.deficit, rfl⟩ berths
    split
    · exact ⟨fset d b 0, by rw [modShelf_shelf, hd]⟩
    · exact ⟨d, hd⟩
  · exact ⟨s.shelf.deficit, rfl⟩

/-! ### Session records -/

theorem modBerth_quay_congr {s t : State} (h : t.quay = s.quay) {b : Nat} {f : Berth → Berth} : (modBerth t b f).quay = (modBerth s b f).quay := by
  unfold modBerth; rw [h]

theorem fmod_fmod {α : Type} (q : Four α) (i : Nat) (f g : α → α) : fmod (fmod q i f) i g = fmod q i fun x => g (f x) := by
  rcases i with _ | _ | _ | i <;> rfl

theorem modBerth_modBerth (s : State) (b : Nat) (f g : Berth → Berth) : modBerth (modBerth s b f) b g = modBerth s b fun q => g (f q) := by
  unfold modBerth
  dsimp only
  rw [fmod_fmod]

/-- The next index of a berth's stream is no part of what an answer changes. -/
theorem conclude_pos (u : State) (h : EcpHdr) (op st d : Nat) (data : List Byte) :
    (berthOf (conclude u h op (.fin st d data)) h.berth).pos = (berthOf u h.berth).pos := by
  rw [conclude_fin_eq, sendStatus_berthOf]
  unfold keepStatus
  split
  · rw [berthOf_modBerth, count_berthOf, berthOf_modBerth]
    rfl
  · rw [count_berthOf, berthOf_modBerth]
    rfl

/-! ### The records of the channels (R283) -/

/-- The record of a channel after a change of one. -/
theorem chanOf_modChan (s : State) (b c c' : Nat) (f : LChan → LChan) :
    chanOf (modChan s b c f) b c' = if c' = c then f (chanOf s b c) else chanOf s b c' := by
  unfold chanOf modChan
  rw [modLsh_lsh, mgetD_mset]
  by_cases h : c' = c
  · rw [if_pos (by rw [h]), if_pos h]
    rfl
  · rw [if_neg (by omega), if_neg h]

/-- A channel without its work. -/
def flushedChan (x : LChan) : LChan := { x with queue := [], active := [], pos := 0, halted := false }

theorem chanOf_flushChannel (s : State) (b c c' : Nat) :
    chanOf (flushChannel b s c) b c' = if c' = c then flushedChan (chanOf s b c) else chanOf s b c' :=
  chanOf_modChan s b c c' flushedChan

/-- The channels of a list lose their work; the others keep their records. -/
theorem chanOf_flushChannels (b : Nat) (l : List Nat) (s : State) (c : Nat) :
    chanOf (foldS (flushChannel b) s l) b c = if c ∈ l then flushedChan (chanOf s b c) else chanOf s b c := by
  induction l generalizing s with
  | nil => rfl
  | cons d l ih =>
    rw [foldS, ih, chanOf_flushChannel]
    by_cases hcd : c = d
    · subst hcd
      simp [flushedChan]
    · simp [hcd]

/-- No work stands in a channel, nothing halts it, and its next index is 0. -/
def noWork (x : LChan) : Bool := x.queue.isEmpty && x.active.isEmpty && !x.halted && x.pos = 0

theorem noWork_flushedChan (x : LChan) : noWork (flushedChan x) = true := rfl

/-- Changing a collective brings no work. -/
theorem noWork_modColl {s : State} {b c : Nat} (h : noWork (chanOf s b c) = true) (r : CRef) (f : Coll → Coll) :
    noWork (chanOf (modColl s r f) b c) = true := by
  unfold modColl modChan
  rw [chanOf, modLsh_lsh, mgetD_mset]
  split
  next hkey =>
    have h' : noWork (chanOf s r.b r.c) = true := by
      unfold chanOf at h ⊢
      rwa [← hkey]
    simpa [noWork] using h'
  next => exact h

theorem lshSend_chans (s : State) (dst : Nat) (p : LshPkt) : (lshSend s dst p).lsh.chans = s.lsh.chans := by
  unfold lshSend
  split
  · rw [(rel_lshEmit .refl fun _ h => h : Rel [.tx, .regs, .counts, .clf] s (lshEmit s dst p)).frame .lsh (by decide)]
  · rfl

/-- Acknowledgements bring no work. -/
theorem noWork_sendAck {s : State} {b c : Nat} (h : noWork (chanOf s b c) = true) (r : CRef) (g : Geom) (q : Nat) :
    noWork (chanOf (sendAck s r g q) b c) = true := by
  unfold sendAck
  split
  · exact h
  · dsimp only
    split
    · exact h
    · unfold chanOf
      rw [lshSend_chans]
      exact noWork_modColl h r _

theorem noWork_ackAll {s : State} {b c : Nat} (h : noWork (chanOf s b c) = true) (b' : Nat) : noWork (chanOf (ackAll s b') b c) = true := by
  refine foldS_holds (P := fun t => noWork (chanOf t b c) = true) (fun t d ht => ?_) h allChans
  refine foldS_holds (P := fun t => noWork (chanOf t b c) = true) (fun t i ht => ?_) ht _
  unfold sendAcks
  split
  · exact ht
  · split
    · exact ht
    · exact foldS_holds (P := fun t => noWork (chanOf t b c) = true) (fun t p ht => noWork_sendAck ht _ _ _) ht _

/-- Without a collective in progress there is nothing to acknowledge. -/
theorem ackAll_idle {s : State} {b : Nat} (h : ∀ c ∈ allChans, (chanOf s b c).active = []) : ackAll s b = s :=
  foldS_fixed fun c hc => by rw [h c hc]; rfl

/-! ### A skip leaves the mark of an undecided step (R295) -/

theorem discardCov_undecided (s : State) (b : Nat) (step : W64) : (discardCov s b step).shelf.undecided = s.shelf.undecided := by
  unfold discardCov
  extract_lets _ u v
  rw [(rel_modStages .refl fun _ h => h : Rel [.snd, .mem] v _).frame .shelf (by decide)]
  rfl

theorem closeStep_undecided (s : State) (b : Nat) : (closeStep s b).shelf.undecided = s.shelf.undecided := by
  unfold closeStep
  extract_lets u _ v w
  have hw : Rel [.lsh] v w := foldSP .refl (fun _ _ h => rel_modChan h (by decide)) _
  rw [modLsh_shelf, hw.frame .shelf (by decide)]
  rfl

theorem abandonStep_undecided (s : State) (b : Nat) : (abandonStep s b).shelf.undecided = s.shelf.undecided := by
  unfold abandonStep
  extract_lets _ u v
  have hv : Rel [.lsh] u v := foldSP .refl (fun _ _ h => rel_modChan h (by decide)) _
  rw [modLsh_shelf, hv.frame .shelf (by decide)]

theorem skipRows_undecided (s : State) (b : Nat) : (skipRows s b).shelf.undecided = s.shelf.undecided := by
  unfold skipRows
  extract_lets n u v w
  have hu : Rel [.free, .tx, .regs, .counts, .mem, .bytes, .quay, .rst] s u := foldSP .refl (fun _ _ h => rel_abandonShard h (by decide)) _
  have hw : Rel [.tx, .regs, .counts, .upd, .quay] u w := rel_skipLimit (rel_wrOr (rel_modUpd .refl (by decide)) (by decide)) (by decide)
  rw [discardCov_undecided, closeStep_undecided, abandonStep_undecided, hw.frame .shelf (by decide), hu.frame .shelf (by decide)]

/-! ### Recompute segments -/

theorem mmod_of_mget {α : Type} {m : NMap α} {i : Nat} {v : α} (f : α → α) (h : mget m i = some v) : mmod m i f = mset m i (f v) := by
  unfold mmod; rw [h]

/-- A segment is proper or not by the objects of memory alone. -/
theorem segmentOk_congr {s t : State} (h : t.mem = s.mem) (b : Nat) (x : Hdl) (ds : List (List Byte)) : segmentOk t b x ds = segmentOk s b x ds := by
  unfold segmentOk allocated objOf objAt
  rw [h]

end Sys2Proof.Laws
end
section
/-!
PROOFS. STREAM_RESUME, STREAM_FLUSH, RECOMPUTE_REG, CENSUS_READ and STREAM_MODE (O19).
-/
namespace Sys2Proof.Proofs
open Sys2Proof Sys2Proof.Machine Sys2Proof.Safety Sys2Proof.Laws

/-! ### STREAM_RESUME (R415) -/

/-- The meaning of STREAM_RESUME. -/
def resumeBody (b mode : Nat) (s : State) : State × Ans :=
  if mode > 1 then (s, .bad 0)
  else
    let open_ := fget s.shelf.undecided b
    let s := liftHalt s b (mode = 0)
    let s := modShelf s fun x => { x with undecided := fset x.undecided b false }
    (if open_ then startWave s b else s, .ok [])

theorem exec_streamResume (h : EcpHdr) (mode : Nat) (s : State) :
    exec (.streamResume h mode) s = .next (ecpRun s h 0x0403 [] (resumeBody h.berth mode)) := rfl

/-- A stream whose step is decided goes on. -/
theorem resume_decided {s : State} {h : EcpHdr} {mode : Nat} (ha : admitted s h 0x0403 [] = true) (hm : mode ≤ 1)
    (hd : fget s.shelf.undecided h.berth = false) :
    ∃ t, exec (.streamResume h mode) s = .next t ∧ Frame (.shelf :: .mem :: ecpParts) s t ∧ Answered s t h 0x0403 0 0 [] ∧
      t.mem = (liftHalt s h.berth (mode = 0)).mem ∧
      t.shelf = { (liftHalt s h.berth (mode = 0)).shelf with undecided := fset s.shelf.undecided h.berth false } := by
  have hb : resumeBody h.berth mode (arrive s h) =
      (modShelf (liftHalt (arrive s h) h.berth (mode = 0)) fun x => { x with undecided := fset x.undecided h.berth false }, .ok []) := by
    unfold resumeBody
    rw [if_neg (by omega), arrive_shelf, hd]
    rfl
  have hr : Rel [.shelf, .mem] (arrive s h) (resumeBody h.berth mode (arrive s h)).1 := by
    rw [hb]
    dsimp only
    exact rel_modShelf (rel_liftHalt .refl (by decide)) (by decide)
  have h2 : (resumeBody h.berth mode (arrive s h)).2 = .fin 0 0 [] := by rw [hb]; rfl
  refine ⟨_, exec_streamResume .., frame_mono (answered_frame ha h2 hr) (by decide), answered_of ha h2 hr (by decide), ?_, ?_⟩
  · rw [ecpRun_admitted ha, h2, conclude_mem, hb, modShelf_mem, liftHalt_mem, liftHalt_mem, arrive_mem, arrive_shelf]
  · rw [ecpRun_admitted ha, h2, conclude_shelf, hb, modShelf_shelf, liftHalt_shelf, liftHalt_shelf, arrive_shelf]

/-- A stream whose step is undecided starts its close wave again. -/
theorem resume_undecided {s : State} {h : EcpHdr} {mode : Nat} (ha : admitted s h 0x0403 [] = true) (hm : mode ≤ 1)
    (hd : fget s.shelf.undecided h.berth = true) :
    ∃ t, exec (.streamResume h mode) s = .next t ∧ fget t.shelf.undecided h.berth = false ∧
      t.tx.head? = some (.status h.iface h.peer 0x0403 h.seq h.berth true 0 0 true 0 []) := by
  have hb : resumeBody h.berth mode (arrive s h) =
      (startWave (modShelf (liftHalt (arrive s h) h.berth (mode = 0)) fun x => { x with undecided := fset x.undecided h.berth false }) h.berth, .fin 0 0 []) := by
    unfold resumeBody
    rw [if_neg (by omega), arrive_shelf, hd]
    rfl
  refine ⟨_, exec_streamResume .., ?_, ?_⟩ <;> rw [ecpRun_admitted ha, hb]
  · rw [conclude_shelf, (rel_startWave .refl fun _ h => h : Rel [.tx, .regs, .counts, .clf, .lsh] _ (startWave _ h.berth)).frame .shelf (by decide),
      modShelf_shelf]
    exact fget_fset_same ..
  · rw [conclude_tx]
    rfl

/-! ### STREAM_FLUSH (R295, R303, R415) -/

/-- An undecided step of the berth is skipped. -/
def skipUndecided (b : Nat) (s : State) : State :=
  if fget s.shelf.undecided b then skipRows (modShelf s fun x => { x with undecided := fset x.undecided b false }) b else s

/-- The stream is empty, and the held packets of the stream and of the named channels are forgotten. -/
def dropStream (b : Nat) (mask : W16) (s : State) : State :=
  dropHeld (clearWindow (modShelf s fun x => { x with streams := fset x.streams b [], fetched := fset x.fetched b false }) b) b mask

/-- The channels that a flush names. -/
def namedChans (mask : W16) : List Nat := (List.range 16).filter fun c => bit mask.toNat c

/-- The stream goes on with its next index. -/
def reopen (b : Nat) (index : W32) (s : State) : State :=
  restDeficits (liftHalt (modBerth (modLsh s fun l => { l with lost := fset l.lost b false }) b fun q => { q with pos := index }) b false)

/-- The meaning of STREAM_FLUSH. -/
def flushBody (b : Nat) (index : W32) (mask : W16) (s : State) : State × Ans :=
  if (fget s.lsh.permute b).phase ≠ 0 && bit mask.toNat 0 then (s, .busy (busyTicks s))
  else (reopen b index (ackAll (foldS (flushChannel b) (dropStream b mask (skipUndecided b s)) (namedChans mask)) b), .ok [])

theorem exec_streamFlush (h : EcpHdr) (index : W32) (mask : W16) (s : State) :
    exec (.streamFlush h index mask) s = .next (ecpRun s h 0x0404 [] (flushBody h.berth index mask)) := rfl

/-- A flush of no channel that carries a PERMUTE in progress is carried out. -/
theorem flushBody_ok {s : State} {b : Nat} {index : W32} {mask : W16} (hp : (fget s.lsh.permute b).phase = 0 ∨ bit mask.toNat 0 = false) :
    flushBody b index mask s =
      (reopen b index (ackAll (foldS (flushChannel b) (dropStream b mask (skipUndecided b s)) (namedChans mask)) b), .fin 0 0 []) := by
  refine if_neg ?_
  rcases hp with hp | hp <;> simp [hp]

theorem reopen_shelf (b : Nat) (index : W32) (s : State) : ∃ d, (reopen b index s).shelf = { s.shelf with
    halted := fset s.shelf.halted b false, rejected := fset s.shelf.rejected b none, fetched := fset s.shelf.fetched b false, deficit := d } := by
  obtain ⟨d, hd⟩ := restDeficits_shelf (liftHalt (modBerth (modLsh s fun l => { l with lost := fset l.lost b false }) b fun q => { q with pos := index }) b false)
  refine ⟨d, hd.trans ?_⟩
  rw [liftHalt_shelf, if_neg (by simp)]
  rfl

theorem reopen_mem (b : Nat) (index : W32) (s : State) : (reopen b index s).mem = s.mem := by
  unfold reopen
  rw [(rel_restDeficits .refl fun _ h => h : Rel [.shelf] _ (restDeficits _)).same_mem (by decide) (by decide), liftHalt_mem, if_neg (by simp)]
  rfl

theorem rel_reopen_halt (b : Nat) (index : W32) (s : State) :
    Rel [.shelf, .mem] (modBerth (modLsh s fun l => { l with lost := fset l.lost b false }) b fun q => { q with pos := index }) (reopen b index s) :=
  rel_restDeficits (rel_liftHalt .refl fun _ h => h) (by decide)

theorem reopen_lsh (b : Nat) (index : W32) (s : State) : (reopen b index s).lsh = { s.lsh with lost := fset s.lsh.lost b false } :=
  (rel_reopen_halt b index s).frame .lsh (by decide)

theorem reopen_quay (b : Nat) (index : W32) (s : State) : (reopen b index s).quay = (modBerth s b fun q => { q with pos := index }).quay :=
  (rel_reopen_halt b index s).frame .quay (by decide)

theorem rel_reopen (b : Nat) (index : W32) (s : State) : Rel [.shelf, .mem, .lsh, .quay] s (reopen b index s) :=
  rel_restDeficits (rel_liftHalt (rel_modBerth (rel_modLsh .refl (by decide)) (by decide)) (by decide)) (by decide)

theorem rel_flushChannels (b : Nat) (s : State) (l : List Nat) : Rel [.lsh] s (foldS (flushChannel b) s l) :=
  foldSP .refl (fun _ _ h => rel_flushChannel h (by decide)) _

/-- What a flush keeps of Longshore when it discards the work of channels: the groups, the templates. -/
theorem flushChannels_keeps (b : Nat) (s : State) (l : List Nat) :
    (foldS (flushChannel b) s l).lsh.live = s.lsh.live ∧ (foldS (flushChannel b) s l).lsh.templates = s.lsh.templates :=
  ⟨foldS_keeps (f := flushChannel b) (fun t => t.lsh.live) (fun _ _ => rfl) s l,
    foldS_keeps (f := flushChannel b) (fun t => t.lsh.templates) (fun _ _ => rfl) s l⟩

theorem mem_namedChans {mask : W16} {c : Nat} : c ∈ namedChans mask ↔ c < 16 ∧ bit mask.toNat c = true := by
  unfold namedChans
  rw [List.mem_filter, List.mem_range]

/-- A held packet that a flush forgets: one of the stream, or of a named channel. -/
def heldGone (mask : W16) (x : HeldSub) : Bool :=
  match x.channel with
  | none => true
  | some c => bit mask.toNat c

/-- The berth's record after a flush. -/
def flushedBerth (mask : W16) (index : W32) (q : Berth) : Berth :=
  { q with
    inflight := q.inflight.filter fun p => !(q.held.any fun x => heldGone mask x && x.seq = p.1)
    held := q.held.filter fun x => !heldGone mask x, pos := index }

/-- The channels of the berth with work in progress are all named: the flush acknowledges nothing. -/
theorem flush_no_acks {s : State} {b : Nat} {mask : W16} (hrest : ∀ c ∈ allChans, bit mask.toNat c = false → (chanOf s b c).active = []) :
    ackAll (foldS (flushChannel b) s (namedChans mask)) b = foldS (flushChannel b) s (namedChans mask) := by
  refine ackAll_idle fun c hc => ?_
  rw [chanOf_flushChannels]
  split
  · rfl
  next hnot =>
    refine hrest c hc ?_
    by_cases hlt : c < 16
    · simpa [mem_namedChans, hlt] using hnot
    · exact Nat.testBit_lt_two_pow (lt_of_lt_of_le mask.isLt (Nat.pow_le_pow_right (by decide) (Nat.not_lt.1 hlt)))

theorem skipUndecided_undecided (b : Nat) (s : State) : fget (skipUndecided b s).shelf.undecided b = false := by
  unfold skipUndecided
  split
  · rw [skipRows_undecided, modShelf_shelf]
    exact fget_fset_same ..
  next h => simpa using h

theorem dropStream_shelf (b : Nat) (mask : W16) (s : State) :
    (dropStream b mask s).shelf = { s.shelf with streams := fset s.shelf.streams b [], fetched := fset s.shelf.fetched b false } := rfl

theorem rel_dropStream (b : Nat) (mask : W16) (s : State) : Rel [.shelf, .mem, .quay] s (dropStream b mask s) :=
  rel_dropHeld (rel_clearWindow (rel_modShelf .refl (by decide)) (by decide)) (by decide)

/-- The session records after the two changes that a flush makes in the berth's own. -/
theorem flushed_quay (b : Nat) (index : W32) (mask : W16) (s : State) :
    (reopen b index (foldS (flushChannel b) (dropStream b mask s) (namedChans mask))).quay =
      (modBerth s b (flushedBerth mask index)).quay := by
  rw [reopen_quay, modBerth_quay_congr ((rel_flushChannels b (dropStream b mask s) (namedChans mask)).frame .quay (by decide))]
  unfold dropStream dropHeld
  dsimp only
  rw [modBerth_modBerth]
  rfl

/-- A flush of a berth whose step is decided and whose other channels rest. -/
theorem flush_decided {s : State} {h : EcpHdr} {index : W32} {mask : W16} (ha : admitted s h 0x0404 [] = true)
    (hp : (fget s.lsh.permute h.berth).phase = 0 ∨ bit mask.toNat 0 = false) (hd : fget s.shelf.undecided h.berth = false)
    (hrest : ∀ c ∈ allChans, bit mask.toNat c = false → (chanOf s h.berth c).active = []) :
    ∃ t, exec (.streamFlush h index mask) s = .next t ∧ Frame (.shelf :: .lsh :: .mem :: ecpParts) s t ∧
      AnsweredWith (flushedBerth mask index) [] [] s t h 0x0404 0 0 [] ∧ t.mem = (clearWindow s h.berth).mem ∧
      t.shelf.running = s.shelf.running ∧ t.shelf.slots = s.shelf.slots ∧ t.lsh.live = s.lsh.live ∧ t.lsh.templates = s.lsh.templates ∧
      ∀ c, c < 16 → chanOf t h.berth c = if bit mask.toNat c then flushedChan (chanOf s h.berth c) else chanOf s h.berth c := by
  have h4 := accepted_berth (admitted_accepted ha)
  have hskip : skipUndecided h.berth (arrive s h) = arrive s h := if_neg (by rw [arrive_shelf, hd]; decide)
  have hv := rel_dropStream h.berth mask (arrive s h)
  have hvlsh : (dropStream h.berth mask (arrive s h)).lsh = s.lsh := (hv.frame .lsh (by decide)).trans (arrive_lsh s h)
  have hchan : ∀ c, chanOf (dropStream h.berth mask (arrive s h)) h.berth c = chanOf s h.berth c := fun c => by unfold chanOf; rw [hvlsh]
  have hb := flushBody_ok (s := arrive s h) (b := h.berth) (index := index) (mask := mask) (by rwa [arrive_lsh])
  rw [hskip, flush_no_acks fun c hc hbit => by rw [hchan]; exact hrest c hc hbit] at hb
  have hquay := flushed_quay h.berth index mask (arrive s h)
  have hw := rel_flushChannels h.berth (dropStream h.berth mask (arrive s h)) (namedChans mask)
  obtain ⟨hlive, htemp⟩ := flushChannels_keeps h.berth (dropStream h.berth mask (arrive s h)) (namedChans mask)
  have hchans := fun c => chanOf_flushChannels h.berth (namedChans mask) (dropStream h.berth mask (arrive s h)) c
  have hvshelf := dropStream_shelf h.berth mask (arrive s h)
  have hvmem : (dropStream h.berth mask (arrive s h)).mem = (clearWindow s h.berth).mem := by
    unfold dropStream dropHeld clearWindow
    rw [modBerth_mem, modMem_mem, modMem_mem, modShelf_mem, arrive_mem]
  generalize dropStream h.berth mask (arrive s h) = v at *
  generalize foldS (flushChannel h.berth) v (namedChans mask) = w at *
  have hrel : Rel [.shelf, .mem, .lsh, .quay] (arrive s h) (reopen h.berth index w) :=
    ((hv.widen (by decide)).trans (hw.widen (by decide))).trans (rel_reopen h.berth index w)
  obtain ⟨d, hushelf⟩ := reopen_shelf h.berth index w
  have hulsh := reopen_lsh h.berth index w
  have humem := reopen_mem h.berth index w
  generalize reopen h.berth index w = u at *
  have hbe : ∀ b, berthOf u b = berthOf (modBerth (arrive s h) h.berth (flushedBerth mask index)) b := fun b => by unfold berthOf; rw [hquay]
  have h2 : (flushBody h.berth index mask (arrive s h)).2 = .fin 0 0 [] := by rw [hb]
  refine ⟨_, exec_streamFlush .., frame_mono (answered_frame (ps := [.shelf, .mem, .lsh, .quay]) ha h2 (by rw [hb]; exact hrel)) (by decide), ?_⟩
  rw [ecpRun_admitted ha, hb]
  refine ⟨conclude_with (admitted_accepted ha) ((hbe _).trans (berthOf_modBerth ..)) (fun _ => ⟨rfl, rfl⟩) (fun q r hqr => ?_)
    (fun b hb4 hne => (hbe b).trans (berthOf_modBerth_other _ _ h4 hb4 hne)) (by rw [hquay]; rfl)
    (by rw [List.nil_append, ← arrive_tx s h]; exact hrel.frame .tx (by decide)) (by simp) (fun id _ _ _ => by rw [show u.counts = _ from hrel.frame .counts (by decide)]) 0 0 [],
    ?_, ?_, ?_, ?_, ?_, fun c hc => ?_⟩
  · unfold sameWork at hqr ⊢
    rw [← hqr]
    rfl
  · rw [conclude_mem, humem, hw.same_mem (by decide) (by decide), hvmem]
  · rw [conclude_shelf, hushelf, hw.frame .shelf (by decide), hvshelf, arrive_shelf]
  · rw [conclude_shelf, hushelf, hw.frame .shelf (by decide), hvshelf, arrive_shelf]
  · rw [conclude_lsh, hulsh, ← hvlsh]
    exact hlive
  · rw [conclude_lsh, hulsh, ← hvlsh]
    exact htemp
  · have huw : chanOf (conclude u h 0x0404 (.fin 0 0 [])) h.berth c = chanOf w h.berth c := by
      unfold chanOf
      rw [conclude_lsh, hulsh]
    rw [huw, hchans, hchan]
    simp only [mem_namedChans, hc, true_and]

/-- What a flush leaves in every case. -/
theorem flush_any {s : State} {h : EcpHdr} {index : W32} {mask : W16} (ha : admitted s h 0x0404 [] = true)
    (hp : (fget s.lsh.permute h.berth).phase = 0 ∨ bit mask.toNat 0 = false) :
    ∃ t, exec (.streamFlush h index mask) s = .next t ∧
      t.tx.head? = some (.status h.iface h.peer 0x0404 h.seq h.berth true 0 0 true 0 []) ∧ (berthOf t h.berth).pos = index ∧
      fget t.shelf.streams h.berth = [] ∧ fget t.shelf.halted h.berth = false ∧ fget t.shelf.rejected h.berth = none ∧
      fget t.shelf.undecided h.berth = false ∧ fget t.shelf.fetched h.berth = false ∧
      ∀ c, c < 16 → bit mask.toNat c = true → noWork (chanOf t h.berth c) = true := by
  have hb := flushBody_ok (s := arrive s h) (b := h.berth) (index := index) (mask := mask) (by rwa [arrive_lsh])
  have hund := skipUndecided_undecided h.berth (arrive s h)
  generalize skipUndecided h.berth (arrive s h) = v at *
  have hchans := fun c => chanOf_flushChannels h.berth (namedChans mask) (dropStream h.berth mask v) c
  have hw := rel_flushChannels h.berth (dropStream h.berth mask v) (namedChans mask)
  generalize foldS (flushChannel h.berth) (dropStream h.berth mask v) (namedChans mask) = w at *
  have hx : Rel [.tx, .regs, .counts, .clf, .lsh] w (ackAll w h.berth) := rel_ackAll .refl fun _ h => h
  have hshelf : (ackAll w h.berth).shelf = { v.shelf with streams := fset v.shelf.streams h.berth [], fetched := fset v.shelf.fetched h.berth false } := by
    rw [hx.frame .shelf (by decide), hw.frame .shelf (by decide), dropStream_shelf]
  have hnone : ∀ c, c < 16 → bit mask.toNat c = true → noWork (chanOf (ackAll w h.berth) h.berth c) = true := fun c hc hbit => by
    refine noWork_ackAll ?_ _
    rw [hchans, if_pos (mem_namedChans.2 ⟨hc, hbit⟩)]
    exact noWork_flushedChan _
  generalize ackAll w h.berth = x at *
  obtain ⟨d, hushelf⟩ := reopen_shelf h.berth index x
  refine ⟨_, exec_streamFlush .., ?_⟩
  rw [ecpRun_admitted ha, hb, conclude_tx, conclude_shelf, hushelf, hshelf]
  refine ⟨rfl, ?_, fget_fset_same .., fget_fset_same .., fget_fset_same .., hund, fget_fset_same .., fun c hc hbit => ?_⟩
  · have hpos : (berthOf (reopen h.berth index x) h.berth).pos = index := by
      unfold berthOf
      rw [reopen_quay]
      exact congrArg Berth.pos (berthOf_modBerth ..)
    rw [conclude_pos, hpos]
  · unfold chanOf
    rw [conclude_lsh, reopen_lsh]
    exact hnone c hc hbit

/-! ### RECOMPUTE_REG, CENSUS_READ and STREAM_MODE (R120, R99, R194) -/

/-- The meaning of RECOMPUTE_REG. -/
def recomputeBody (b : Nat) (handle : BitVec 48) (descs : List (List Byte)) (s : State) : State × Ans :=
  let used := (s.mem.objects.filter fun p => !p.2.segment.isEmpty && p.1 ≠ okey b (hObj handle)).length
  if descs.isEmpty || descs.length > 64 || fget s.mem.balance b then (s, .bad 0)
  else if !segmentOk s b handle descs then (s, .bad 0x01)
  else if used ≥ 1024 then (s, .bad 0x02)
  else (modObj s b (hObj handle) fun o => { o with segment := descs }, .ok [])

theorem exec_recomputeReg (h : EcpHdr) (handle : BitVec 48) (descs : List (List Byte)) (s : State) :
    exec (.recomputeReg h handle descs) s = .next (ecpRun s h 0x0405 [] (recomputeBody h.berth handle descs)) := rfl

/-- A proper segment is registered for its tensor. -/
theorem recompute_registers {s : State} {h : EcpHdr} {handle : BitVec 48} {descs : List (List Byte)} {o : Obj} (ha : admitted s h 0x0405 [] = true)
    (hne : descs ≠ []) (hlen : descs.length ≤ 64) (hbal : fget s.mem.balance h.berth = false) (ho : objAt s h.berth (hObj handle) = some o)
    (hok : segmentOk s h.berth handle descs = true)
    (hroom : (s.mem.objects.filter fun p => !p.2.segment.isEmpty && p.1 ≠ okey h.berth (hObj handle)).length < 1024) :
    ∃ t, exec (.recomputeReg h handle descs) s = .next t ∧ Frame (.mem :: ecpParts) s t ∧ Answered s t h 0x0405 0 0 [] ∧
      t.mem = { s.mem with objects := mset s.mem.objects (okey h.berth (hObj handle)) { o with segment := descs } } := by
  have hb : recomputeBody h.berth handle descs (arrive s h) = (modObj (arrive s h) h.berth (hObj handle) fun o => { o with segment := descs }, .ok []) := by
    unfold recomputeBody
    dsimp only
    rw [segmentOk_congr (arrive_mem s h), hok, arrive_mem, if_neg (by simp [hne, hlen, hbal]), if_neg (by simp), if_neg (Nat.not_le.2 hroom)]
  have hr : Rel [.mem] (arrive s h) (recomputeBody h.berth handle descs (arrive s h)).1 := by
    rw [hb]
    exact rel_modObj .refl (by decide)
  have h2 : (recomputeBody h.berth handle descs (arrive s h)).2 = .fin 0 0 [] := by rw [hb]; rfl
  refine ⟨_, exec_recomputeReg .., frame_mono (answered_frame ha h2 hr) (by decide), answered_of ha h2 hr (by decide), ?_⟩
  rw [ecpRun_admitted ha, h2, conclude_mem, hb]
  unfold modObj
  rw [modMem_mem, arrive_mem, mmod_of_mget _ ho]

/-- The meaning of CENSUS_READ. -/
def censusBody (b layer count : Nat) (s : State) : State × Ans :=
  if count = 0 || count > 64 || layer + count > 65536 then (s, .bad 0)
  else (s, .ok ((rangeFrom layer count).flatMap fun l => toBe 2 l ++ zeros 6 ++
    ((mget s.num.totals (65536 * b + l)).getD (List.replicate 16 0)).flatMap fun v => toBe 8 v.toNat))

theorem exec_censusRead (h : EcpHdr) (layer count : Nat) (s : State) :
    exec (.censusRead h layer count) s = .next (ecpRun s h 0x0406 [] (censusBody h.berth layer count)) := rfl

theorem census_answers {s : State} {h : EcpHdr} {layer n : Nat} (ha : admitted s h 0x0406 [] = true) (h1 : 1 ≤ n) (h64 : n ≤ 64)
    (hl : layer + n ≤ 65536) :
    ∃ t, exec (.censusRead h layer n) s = .next t ∧ Frame ecpParts s t ∧
      Answered s t h 0x0406 0 0 ((rangeFrom layer n).flatMap fun l => toBe 2 l ++ zeros 6 ++
        ((mget s.num.totals (65536 * h.berth + l)).getD (List.replicate 16 0)).flatMap fun v => toBe 8 v.toNat) := by
  refine ⟨_, exec_censusRead .., answered_unchanged ha ?_⟩
  unfold censusBody
  rw [if_neg (by simp; omega), arrive_num]
  rfl

/-- The meaning of STREAM_MODE. -/
def modeBody (b mode pause : Nat) (s : State) : State × Ans :=
  if mode > 1 || pause > 1 then (s, .bad 0)
  else
    let s := wrs s [(SHF_BERTH_CTL_mode.at b, mode), (SHF_BERTH_CTL_pause.at b, pause)]
    (if pause = 0 then modUpd s fun u => { u with paused := fset u.paused b false } else s, .ok [])

theorem exec_streamMode (h : EcpHdr) (mode pause : Nat) (s : State) :
    exec (.streamMode h mode pause) s = .next (ecpRun s h 0x0407 [] (modeBody h.berth mode pause)) := rfl

/-- Mode and pause of a berth's control register, written one after the other. -/
theorem modeFields (s : State) (b : Nat) {mode pause : Nat} (hm : mode ≤ 1) (hp : pause ≤ 1) :
    RegsBut [(SHF_BERTH_CTL_mode.at b).off] s (wrs s [(SHF_BERTH_CTL_mode.at b, mode), (SHF_BERTH_CTL_pause.at b, pause)]) ∧
      rd (wrs s [(SHF_BERTH_CTL_mode.at b, mode), (SHF_BERTH_CTL_pause.at b, pause)]) (SHF_BERTH_CTL_mode.at b) = mode ∧
      rd (wrs s [(SHF_BERTH_CTL_mode.at b, mode), (SHF_BERTH_CTL_pause.at b, pause)]) (SHF_BERTH_CTL_pause.at b) = pause ∧
      rd (wrs s [(SHF_BERTH_CTL_mode.at b, mode), (SHF_BERTH_CTL_pause.at b, pause)]) (SHF_BERTH_CTL_enable.at b) = rd s (SHF_BERTH_CTL_enable.at b) := by
  have hwrs : wrs s [(SHF_BERTH_CTL_mode.at b, mode), (SHF_BERTH_CTL_pause.at b, pause)] =
      wr (wr s (SHF_BERTH_CTL_mode.at b) mode) (SHF_BERTH_CTL_pause.at b) pause := rfl
  have h1 : (1 : Nat) < 32 := by decide
  have h2 : (2 : Nat) < 32 := by decide
  rw [hwrs]
  refine ⟨regsBut_trans (regsBut_wr s (SHF_BERTH_CTL_mode.at b) _) (regsBut_wr _ (SHF_BERTH_CTL_pause.at b) _), ?_, ?_, ?_⟩
  · rw [rd_wr_other h2 (.inr (.inr (show 1 < 2 by decide))), rd_wr_same h1]
    exact Nat.mod_eq_of_lt (show mode < 2 by omega)
  · rw [rd_wr_same h2]
    exact Nat.mod_eq_of_lt (show pause < 2 by omega)
  · rw [rd_wr_other h2 (.inr (.inr (show 0 < 2 by decide))), rd_wr_other h1 (.inr (.inr (show 0 < 1 by decide)))]

/-- What STREAM_MODE makes of the arrival: the two fields, and no pause of R194 when the host's pause ends. -/
theorem modeBody_ok (s : State) (b : Nat) {mode pause : Nat} (hm : mode ≤ 1) (hp : pause ≤ 1) :
    ∃ t, modeBody b mode pause s = (t, .fin 0 0 []) ∧ Rel [.regs, .upd] s t ∧ RegsBut [(SHF_BERTH_CTL_mode.at b).off] s t ∧
      rd t (SHF_BERTH_CTL_mode.at b) = mode ∧ rd t (SHF_BERTH_CTL_pause.at b) = pause ∧
      rd t (SHF_BERTH_CTL_enable.at b) = rd s (SHF_BERTH_CTL_enable.at b) ∧
      t.upd = { s.upd with paused := (if pause = 0 then fset s.upd.paused b false else s.upd.paused) } := by
  obtain ⟨hregs, hmode, hpause, hen⟩ := modeFields s b hm hp
  have hupd := wrs_upd s [(SHF_BERTH_CTL_mode.at b, mode), (SHF_BERTH_CTL_pause.at b, pause)]
  have hrel : Rel [.regs, .upd] s (wrs s [(SHF_BERTH_CTL_mode.at b, mode), (SHF_BERTH_CTL_pause.at b, pause)]) := rel_wrs .refl (by decide)
  refine ⟨_, if_neg (by simp; omega), ?_⟩
  dsimp only
  generalize wrs s [(SHF_BERTH_CTL_mode.at b, mode), (SHF_BERTH_CTL_pause.at b, pause)] = w at *
  split
  · rw [modUpd_rd, modUpd_rd, modUpd_rd, modUpd_upd, hupd]
    exact ⟨rel_modUpd hrel (by decide), regsBut_trans hregs (regsBut_of_rel (rel_modUpd .refl fun _ h => h) (by decide)), hmode, hpause, hen, rfl⟩
  · exact ⟨hrel, hregs, hmode, hpause, hen, hupd⟩

theorem mode_writes {s : State} {h : EcpHdr} {mode pause : Nat} (ha : admitted s h 0x0407 [] = true) (hm : mode ≤ 1) (hp : pause ≤ 1) :
    ∃ t, exec (.streamMode h mode pause) s = .next t ∧ Frame (.regs :: .upd :: ecpParts) s t ∧ Answered s t h 0x0407 0 0 [] ∧
      RegsBut [(SHF_BERTH_CTL_mode.at h.berth).off] s t ∧ rd t (SHF_BERTH_CTL_mode.at h.berth) = mode ∧
      rd t (SHF_BERTH_CTL_pause.at h.berth) = pause ∧
      rd t (SHF_BERTH_CTL_enable.at h.berth) = rd s (SHF_BERTH_CTL_enable.at h.berth) ∧
      t.upd = { s.upd with paused := (if pause = 0 then fset s.upd.paused h.berth false else s.upd.paused) } := by
  obtain ⟨u, hb, hr, hregs, hmode, hpause, hen, hupd⟩ := modeBody_ok (arrive s h) h.berth hm hp
  have h2 : (modeBody h.berth mode pause (arrive s h)).2 = .fin 0 0 [] := by rw [hb]
  have hr1 : Rel [.regs, .upd] (arrive s h) (modeBody h.berth mode pause (arrive s h)).1 := by rw [hb]; exact hr
  have hcon : ∀ f, rd (conclude u h 0x0407 (.fin 0 0 [])) f = rd u f := fun f => rd_congr (conclude_regs ..) (conclude_variant ..) f
  refine ⟨_, exec_streamMode .., frame_mono (answered_frame ha h2 hr1) (by decide), answered_of ha h2 hr1 (by decide), ?_⟩
  rw [ecpRun_admitted ha, hb]
  dsimp only
  rw [hcon, hcon, hcon, conclude_upd]
  refine ⟨?_, hmode, hpause, hen.trans (arrive_rd ..), hupd.trans (by rw [arrive_upd])⟩
  exact regsBut_trans (regsBut_rst (arrive_regs s h) (arrive_variant s h)) (regsBut_trans hregs (regsBut_rst (conclude_regs ..) (conclude_variant ..)))

/-- Settles O19: each command by the meaning that Quay carries out on the arrival; of a flush, the part that holds while the step is decided and
the other channels rest, and the part that holds always. -/
theorem streamCommands : Obligations.StreamCommands := by
  unfold Obligations.StreamCommands
  refine ⟨fun s h mode ha hm hd => ?_, fun s h mode ha hm hd => ?_, fun s h index mask ha hp hd hrest => ?_, fun s h index mask ha hp => ?_,
    fun s h handle descs o ha hne hlen hbal ho hok hroom => recompute_registers ha hne hlen hbal ho hok hroom,
    fun s h layer n ha h1 h64 hl => census_answers ha h1 h64 hl, fun s h mode pause ha hm hp => mode_writes ha hm hp⟩
  · obtain ⟨t, ht, hframe, hans, hmem, hshelf⟩ := resume_decided ha hm hd
    refine ⟨t, ht, hframe, hans, ?_, ?_⟩
    · rw [hmem, liftHalt_mem]
      simp only [decide_eq_true_eq]
    · rw [hshelf, liftHalt_shelf]
      simp only [decide_eq_true_eq]
  · obtain ⟨t, ht, hdone, htx⟩ := resume_undecided ha hm hd
    exact ⟨t, ht, (rel_of_exec ht).frame, hdone, htx⟩
  · obtain ⟨t, ht, hframe, hans, hmem, hrun, hslots, hlive, htemp, hchans⟩ := flush_decided ha hp hd hrest
    refine ⟨t, ht, hframe, hans, hmem, hrun, hslots, hlive, htemp, List.all_eq_true.2 fun c hc => ?_⟩
    exact decide_eq_true (hchans c (List.mem_range.1 hc))
  · obtain ⟨t, ht, htx, hpos, hstr, hhalt, hrej, hund, hfetch, hnone⟩ := flush_any ha hp
    refine ⟨t, ht, (rel_of_exec ht).frame, htx, hpos, hstr, hhalt, hrej, hund, hfetch, List.all_eq_true.2 fun c hc => ?_⟩
    cases hbit : bit mask.toNat c with
    | false => rfl
    | true => exact hnone c (List.mem_range.1 hc) hbit

end Sys2Proof.Proofs
end

section
/-!
PROOFS. What power-on leaves.
-/
namespace Sys2Proof.Proofs
open Sys2Proof Sys2Proof.Machine Sys2Proof.Safety Sys2Proof.Laws

/-- At power-on the life-cycle code is one of R549. -/
theorem lifeOk_reset : lifeOk State.reset := (by decide : State.reset.sec.life ≤ 4)

/-- Settles O3: each row of four holds the same record for every berth, and each field is read off the reset state. -/
theorem powerOnState : Obligations.PowerOnState := by
  unfold Obligations.PowerOnState
  refine ⟨fun b _ => ?berths, fun n => ?maps, fun _ => ⟨rfl, rfl, rfl, ⟨rfl, rfl⟩, lifeOk_reset⟩⟩
  case berths => rcases b with _ | _ | _ | b <;> exact ⟨rfl, rfl, rfl, rfl, rfl, rfl, rfl, rfl, rfl, rfl, rfl, rfl, rfl⟩
  case maps => exact ⟨rfl, rfl, rfl, rfl, rfl, rfl, rfl, rfl, rfl, rfl, rfl, BitVec.getLsbD_zero, rfl, rfl⟩

end Sys2Proof.Proofs
end

section
/-!
SUPPORT. What Longshore's own work keeps: a packet that leaves or waits (R285, R305), a memory error that is noted (R225), a result that is written
(R219, R284), and the operations of collectives and of PERMUTE. None of them touches the groups, the phase of a PERMUTE, the event slots or the
registers that govern Longshore, and none clears a step flag.
-/
namespace Sys2Proof.Laws
open Sys2Proof Sys2Proof.Machine Sys2Proof.Safety

/-! ### The relation -/

/-- The fields of Longshore's registers that its own work leaves alone. -/
def governing : List Fld := [LSH_CTL_run, LSH_WINDOW_packets, LSH_IRQ_STAT_permute_done]

/-- The part of a PERMUTE's record that only its start, its rounds and its install change. -/
def fence (x : Permute) : Nat × List Byte × Nat × List MapEnt := (x.phase, x.desc, x.round, x.entries)

/-- What Longshore's own work keeps from one state to a later one. -/
structure Works (s t : State) : Prop where
  rd     : ∀ g ∈ governing, rd t g = rd s g
  live   : t.lsh.live = s.lsh.live
  staged : t.lsh.staged = s.lsh.staged
  fence  : ∀ b, fence (fget t.lsh.permute b) = fence (fget s.lsh.permute b)
  flag   : ∀ b, flagOf s b = true → flagOf t b = true
  slots  : t.shelf.slots = s.shelf.slots

theorem Works.refl {s : State} : Works s s := ⟨fun _ _ => rfl, rfl, rfl, fun _ => rfl, fun _ h => h, rfl⟩

theorem Works.trans {s t u : State} (h : Works s t) (h' : Works t u) : Works s u :=
  ⟨fun g hg => (h'.rd g hg).trans (h.rd g hg), h'.live.trans h.live, h'.staged.trans h.staged, fun b => (h'.fence b).trans (h.fence b),
    fun b hb => h'.flag b (h.flag b hb), h'.slots.trans h.slots⟩

theorem Works.fold {α : Type} {f : State → α → State} (hf : ∀ t x, Works t (f t x)) (s : State) (l : List α) : Works s (foldS f s l) :=
  foldS_holds (P := Works s) (fun t x h => h.trans (hf t x)) .refl l

theorem Works.ite {c : Prop} [Decidable c] {s t u : State} (ht : Works s t) (hu : Works s u) : Works s (if c then t else u) := iteP (P := Works s) ht hu

/-- Operations that reach neither Longshore's record nor Shelf's, and no governing register. -/
theorem works_of_rel {ps : List Part} {s t : State} (h : Rel ps s t) (hp : Part.lsh ∉ ps ∧ Part.shelf ∉ ps)
    (hrd : ∀ g ∈ governing, rd t g = rd s g) : Works s t := by
  have hlsh : t.lsh = s.lsh := h.frame .lsh hp.1
  exact ⟨hrd, by rw [hlsh], by rw [hlsh], fun b => by rw [hlsh], fun b hb => by rw [flagOf, hlsh]; exact hb,
    by rw [show t.shelf = s.shelf from h.frame .shelf hp.2]⟩

theorem governing_of_regsBut {offs : List Nat} {s t : State} (h : RegsBut offs s t) (ho : ∀ g ∈ governing, g.off ∉ offs) :
    ∀ g ∈ governing, rd t g = rd s g := fun g hg => rd_of_regsBut h (ho g hg)

theorem works_of_regsBut {ps : List Part} {offs : List Nat} {s t : State} (h : Rel ps s t) (hp : Part.lsh ∉ ps ∧ Part.shelf ∉ ps)
    (hr : RegsBut offs s t) (ho : ∀ g ∈ governing, g.off ∉ offs) : Works s t := works_of_rel h hp (governing_of_regsBut hr ho)

/-- Operations that reach no register either. -/
theorem works_of_frame {ps : List Part} {s t : State} (h : Rel ps s t) (hp : Part.lsh ∉ ps ∧ Part.shelf ∉ ps ∧ Part.regs ∉ ps) : Works s t :=
  works_of_regsBut (offs := []) h ⟨hp.1, hp.2.1⟩ (regsBut_of_rel h hp.2.2) (by simp)

/-- A field that the hardware may set without touching a governing one. -/
abbrev Apart (f : Fld) : Prop := f.hi < 32 ∧ ∀ g ∈ governing, g.off ≠ f.off ∨ f.hi < g.lo ∨ g.hi < f.lo

theorem works_wr {f : Fld} (h : Apart f) (s : State) (v : Nat) : Works s (wr s f v) :=
  works_of_rel (ps := [.regs]) (rel_wr .refl fun _ h => h) (by decide) fun g hg => rd_wr_other h.1 (h.2 g hg) s v

theorem works_wrOr {f : Fld} (h : Apart f) (s : State) (v : Nat) : Works s (wrOr s f v) := works_wr h s _

theorem works_wrs {fs : List Fld} (h : ∀ f ∈ fs, Apart f) (s : State) {l : List (Fld × Nat)} (hl : l.map Prod.fst = fs) : Works s (wrs s l) := by
  subst hl
  induction l generalizing s with
  | nil => exact .refl
  | cons p l ih => exact (works_wr (h p.1 (List.mem_cons_self ..)) s p.2).trans (ih _ fun f hf => h f (List.mem_cons_of_mem _ hf))

theorem works_modMem (s : State) (f : Memory → Memory) : Works s (modMem s f) := ⟨fun _ _ => modMem_rd .., rfl, rfl, fun _ => rfl, fun _ h => h, rfl⟩

theorem works_count (s : State) (id n : Nat) : Works s (count s id n) := works_of_frame (ps := [.counts]) (rel_count .refl fun _ h => h) (by decide)

/-- A change of a channel's record. -/
theorem works_modChan (s : State) (b c : Nat) (f : LChan → LChan) : Works s (modChan s b c f) :=
  ⟨fun _ _ => modLsh_rd .., rfl, rfl, fun _ => rfl, fun _ h => h, rfl⟩

theorem works_modColl (s : State) (r : CRef) (f : Coll → Coll) : Works s (modColl s r f) := works_modChan ..

/-- A row of four has its last entry for every greater index. -/
theorem fget_min {α : Type} (q : Four α) (b : Nat) : fget q (min b 3) = fget q b := by
  rcases b with _ | _ | _ | b
  · rfl
  · rfl
  · rfl
  · rw [Nat.min_eq_right (Nat.le_add_left 3 b)]
    rfl

theorem fget_of_min {α : Type} (q : Four α) {b c : Nat} (h : min b 3 = min c 3) : fget q b = fget q c := by rw [← fget_min, h, fget_min]

/-- What a change of one entry of a row of four leaves of every entry. -/
theorem fget_fmod_keeps {α β : Type} (k : α → β) (q : Four α) (i b : Nat) {f : α → α} (hf : ∀ x, k (f x) = k x) :
    k (fget (fmod q i f) b) = k (fget q b) := by
  unfold fmod
  rw [fget_fset]
  split
  next h => rw [hf, fget_of_min q h]
  next => rfl

theorem works_modPerm (s : State) (b : Nat) {f : Permute → Permute} (hf : ∀ x, fence (f x) = fence x) : Works s (modPerm s b f) :=
  ⟨fun _ _ => modLsh_rd .., rfl, rfl, fun c => fget_fmod_keeps fence s.lsh.permute b c hf, fun _ h => h, rfl⟩

theorem works_setFlag (s : State) (b : Nat) : Works s (setFlag s b) :=
  ⟨fun _ _ => setFlag_rd .., rfl, rfl, fun _ => rfl, fun c h => setFlag_keeps s c b h, rfl⟩

theorem works_flagValues (s : State) (b : Nat) (ok : Bool) : Works s (flagValues s b ok) := .ite .refl (works_setFlag s b)

theorem works_event (s : State) (b code status : Nat) (seq : W32) (data : List Byte) : Works s (event s b code status seq data) :=
  works_of_regsBut (ps := [.tx, .regs, .counts, .quay]) (rel_event .refl fun _ h => h) (by decide)
    (regsBut_event s b code status seq data) (by decide)

/-! ### Packets that leave -/

theorem works_lshSend (s : State) (dst : Nat) (p : LshPkt) : Works s (lshSend s dst p) := by
  unfold lshSend
  refine .ite ?_ ⟨fun _ _ => rfl, rfl, rfl, fun _ => rfl, fun _ h => h, rfl⟩
  exact works_of_regsBut (ps := [.tx, .regs, .counts, .clf]) (rel_lshEmit .refl fun _ h => h) (by decide) (regsBut_lshEmit s dst p) (by decide)

theorem works_pumpColl (s : State) (r : CRef) : Works s (pumpColl s r) := by
  unfold pumpColl
  refine .ite .refl ?_
  split
  · exact .refl
  · extract_lets -underBinder w u
    have hu : Works s u := works_modColl ..
    refine hu.trans (.fold (fun t q => ?_) _ _)
    extract_lets -underBinder _ p v
    have hv : Works t v := works_modPerm t r.b fun _ => rfl
    exact hv.trans (works_lshSend ..)

theorem works_askMissing (s : State) (r : CRef) (dev : Option Nat) : Works s (askMissing s r dev) := by
  unfold askMissing
  split
  · exact .refl
  · split
    · exact .refl
    · exact .fold (fun _ _ => .ite (works_lshSend ..) .refl) _ _

theorem works_sendAck (s : State) (r : CRef) (g : Geom) (q : Nat) : Works s (sendAck s r g q) := by
  unfold sendAck
  split
  · exact .refl
  · exact .ite .refl ((works_modColl ..).trans (works_lshSend ..))

theorem works_ackAll (s : State) (b : Nat) : Works s (ackAll s b) := by
  refine .fold (fun t c => .fold (fun u i => ?_) _ _) _ _
  unfold sendAcks
  split
  · exact .refl
  · split
    · exact .refl
    · exact .fold (fun _ _ => works_sendAck ..) _ _

theorem works_pumpPerm (s : State) (b : Nat) : Works s (pumpPerm s b) := by
  unfold pumpPerm
  refine .ite .refl ?_
  extract_lets -underBinder p w
  exact (works_modPerm s b (f := fun x => { x with toSend := w.2.1, unacked := w.2.2 }) fun _ => rfl).trans (.fold (fun _ _ => works_lshSend ..) _ _)

/-! ### Memory errors (R225) and results (R219, R284) -/

theorem regsBut_loseChannel (s : State) (ch : Nat) :
    RegsBut [DDR_STAT.off, DDR_IRQ_STAT.off, RST_REPLACE_causes.off, RST_IRQ_STAT.off, MGT_ALERT.off, CMD_IRQ_STAT.off] s (loseChannel s ch) := by
  unfold loseChannel
  split
  · exact regsBut_refl
  · exact regsBut_trans (regsBut_mono (regsBut_wr _ DDR_STAT_in_service _) (by decide)) (regsBut_trans
      (regsBut_mono (regsBut_wrOr _ DDR_STAT_lost _) (by decide)) (regsBut_trans (regsBut_mono (regsBut_wrOr _ DDR_IRQ_STAT_chan_lost 1) (by decide))
        (regsBut_trans (regsBut_of_rel (ps := [.mem]) (rel_modMem .refl (by decide) rfl) (by decide)) (regsBut_mono (regsBut_raiseReplace _ 4) (by decide)))))

theorem works_loseChannel (s : State) (ch : Nat) : Works s (loseChannel s ch) :=
  works_of_regsBut (ps := [.tx, .regs, .counts, .mem, .quay]) (rel_loseChannel .refl fun _ h => h) (by decide) (regsBut_loseChannel s ch) (by decide)

/-- The count of uncorrectable errors lies in bits 16 to 23, which no governing field reaches, whatever the channel. -/
theorem apart_ueCount (ch : Nat) : Apart (DDR_CE_COUNT_ue.at ch) := by
  have hlow : ∀ g ∈ governing, g.hi < 16 := by decide
  exact ⟨by exact (by decide : 23 < 32), fun g hg => .inr (.inr (hlow g hg))⟩

theorem works_logError (s : State) (domain cls source : Nat) (detail : W64) (berth : Nat) : Works s (logError s domain cls source detail berth) :=
  works_of_regsBut (ps := [.regs, .rst]) (rel_logError .refl fun _ h => h) (by decide) (regsBut_logError s domain cls source detail berth) (by decide)

theorem works_noteUe (s : State) (a : Nat) (scrub : Bool) : Works s (noteUe s a scrub) := by
  unfold noteUe noteUeIn
  generalize chanAt s a = ch
  extract_lets -underBinder x u v
  have hv : Works s v := (works_of_frame (ps := [.free]) (rel_useFree .refl (by decide)) (by decide)).trans (works_logError u _ _ _ _ _)
  refine hv.trans ?_
  split
  · exact ((works_wrs (fs := [HBR_ERR_segment, HBR_ERR_area, HBR_ERR_berth, HBR_ERR_scrub, HBR_ERR_line]) (by decide) v rfl).trans
      (works_wrOr (f := HBR_IRQ_STAT_ue) (by decide) _ 1)).trans (works_modMem ..)
  · extract_lets -underBinder w y z
    have hy : Works v y := ((works_wrs (fs := [DDR_ERR_channel, DDR_ERR_subchannel, DDR_ERR_scrub]) (by decide) v rfl).trans
      (works_wrOr (f := DDR_IRQ_STAT_ue) (by decide) _ 1)).trans (works_modMem ..)
    have hz : Works v z := hy.trans (works_wr (apart_ueCount ch) y _)
    exact .ite (hz.trans (works_loseChannel ..)) hz
  · exact ((works_wrs (fs := [HBM_ERR_stack, HBM_ERR_channel, HBM_ERR_scrub]) (by decide) v rfl).trans
      (works_wrOr (f := HBM_IRQ_STAT_ue) (by decide) _ 1)).trans (works_modMem ..)

theorem works_noteRead (s : State) (h : Hdl) (off n : Nat) : Works s (noteRead s h off n) := .ite (works_noteUe ..) .refl

theorem works_writeN (s : State) (h : Hdl) (off : Nat) (bs : List Byte) : Works s (writeN s h off bs).1 := by
  have hw : Works s (writeH s h off bs).1 := works_of_frame (ps := [.mem, .bytes]) (rel_writeH .refl fun _ h => h) (by decide)
  exact .ite (hw.trans (works_noteUe ..)) hw

/-- A flag that joins a state's. -/
theorem works_orFlag (s : State) (b : Nat) (x : Bool) : Works s (if x then setFlag s b else s) := .ite (works_setFlag s b) .refl

theorem works_holdBytes {s t : State} {b o p off : Nat} {bs : List Byte} (h : holdBytes s b o p off bs = some t) : Works s t := by
  unfold holdBytes at h
  split at h
  · cases h
    exact works_modMem ..
  · split at h
    · cases h
    · cases h
      refine Works.trans (.ite ?_ .refl) (works_modMem ..)
      exact ((works_wrOr (f := HBR_IRQ_STAT_part_full) (by decide) s 1).trans (works_wrOr (f := PGR_IRQ_STAT_spill) (by decide) _ 1)).trans
        (works_count ..)

theorem foldlOpt_holds {α : Type} {P : State → Prop} {f : Option State → α → Option State} (hf : ∀ o x u, f o x = some u → ∃ t, o = some t ∧ (P t → P u))
    (l : List α) (o : Option State) (u : State) (h : l.foldl f o = some u) : ∃ s, o = some s ∧ (P s → P u) := by
  induction l generalizing o with
  | nil => exact ⟨u, h, id⟩
  | cons x l ih =>
    obtain ⟨t, ht, htu⟩ := ih _ h
    obtain ⟨s, hs, hst⟩ := hf o x t ht
    exact ⟨s, hs, htu ∘ hst⟩

/-- A part of a result is written page by page: held, or written with the flag of what cannot be written. -/
theorem writePart_holds {P : State → Prop} {s t : State} {b : Nat} {h : Hdl} {off : Nat} {bs : List Byte}
    (hhold : ∀ u p o bs v, holdBytes u b (hObj h) p o bs = some v → P u → P v) (hwant : ∀ u p, P u → P (wantPage u h p 2 true))
    (hwrite : ∀ u o bs, P u → P (writeN u h o bs).1) (hflag : ∀ u, P u → P (setFlag u b)) (hs : P s) (hw : writePart s b h off bs = some t) : P t := by
  unfold writePart at hw
  split at hw
  · cases hw
    exact hs
  · refine (foldlOpt_holds (P := P) (fun o q u hu => ?_) _ _ _ hw).elim fun s' h => h.2 (Option.some.inj h.1 ▸ hs)
    cases o with
    | none => cases hu
    | some v =>
      refine ⟨v, rfl, fun hv => ?_⟩
      dsimp only [Option.bind] at hu
      split at hu
      · obtain ⟨w, hw, rfl⟩ := Option.map_eq_some_iff.1 hu
        exact hwant _ _ (hhold _ _ _ _ _ hw hv)
      · cases hu
        exact iteP (P := P) (hflag _ (hwrite _ _ _ hv)) (hwrite _ _ _ hv)

theorem works_writePart {s t : State} {b : Nat} {h : Hdl} {off : Nat} {bs : List Byte} (hw : writePart s b h off bs = some t) : Works s t :=
  writePart_holds (P := Works s) (fun _ _ _ _ _ hv hu => hu.trans (works_holdBytes hv))
    (fun _ _ hu => hu.trans (works_of_frame (ps := [.mem]) (rel_wantPage .refl fun _ h => h) (by decide)))
    (fun _ _ _ hu => hu.trans (works_writeN ..)) (fun _ hu => hu.trans (works_setFlag ..)) .refl hw

/-- No result that is written reaches the channels. -/
theorem chans_writePart {s t : State} {b : Nat} {h : Hdl} {off : Nat} {bs : List Byte} (hw : writePart s b h off bs = some t) :
    t.lsh.chans = s.lsh.chans :=
  writePart_holds (P := fun u => u.lsh.chans = s.lsh.chans)
    (fun u _ _ _ v hv hu => by rw [(rel_holdBytes (z_ := u) .refl (fun _ h => h) v hv).frame .lsh (by decide), hu])
    (fun u p hu => by rw [(rel_wantPage .refl fun _ h => h : Rel [.mem] u (wantPage u h p 2 true)).frame .lsh (by decide), hu])
    (fun u o bs hu => by rw [(rel_writeN (z_ := u) .refl fun _ h => h : Rel1 _ u (writeN u h o bs)).frame .lsh (by decide), hu])
    (fun _ hu => hu) rfl hw

theorem works_writeRoot (s : State) (r : CRef) (g : Geom) (k c : Nat) (v : List W32) : Works s (writeRoot s r g k c v) := by
  unfold writeRoot
  extract_lets -underBinder id
  split
  · exact .refl
  · refine .ite .refl (.ite (works_modColl ..) ?_)
    split
    next hw => exact (works_writePart hw).trans (works_modColl ..)
    next => exact works_wrOr (f := HBR_IRQ_STAT_part_full) (by decide) s 1

/-! ### Nodes, contributions and movements (R281, R288, R289) -/

theorem works_sendTo (s : State) (r : CRef) (g : Geom) (rank level node chunk : Nat) (inv : Bool) (data : List Byte) :
    Works s (sendTo s r g rank level node chunk inv data) := by
  unfold sendTo
  split
  · exact .refl
  · exact works_modColl ..

theorem works_putNode (s : State) (r : CRef) (key : Nat) (v : List W32) (inv : Bool) : Works s (putNode s r key v inv) := works_modColl ..

theorem works_deliverRoot (s : State) (r : CRef) (g : Geom) (k c : Nat) (v : List W32) (inv : Bool) : Works s (deliverRoot s r g k c v inv) :=
  ((works_flagValues ..).trans (works_putNode ..)).trans (.fold (fun _ _ => .ite (works_writeRoot ..) (works_sendTo ..)) _ _)

theorem works_addNode (fuel : Nat) (s : State) (r : CRef) (g : Geom) (level node k c : Nat) (v : List W32) (inv : Bool) :
    Works s (addNode fuel s r g level node k c v inv) := by
  induction fuel generalizing s level node v inv with
  | zero => exact works_deliverRoot ..
  | succ fuel ih =>
    have hv := works_flagValues s r.b (allFinite v)
    have hput := hv.trans (works_putNode _ r (nodeKey level node (k * g.cmax + c)) v inv)
    unfold addNode
    refine .ite (hv.trans (works_deliverRoot ..)) (.ite (hput.trans (works_sendTo ..)) (.ite (hput.trans (ih ..)) ?_))
    split
    · exact hput
    · exact hput.trans (ih ..)

theorem works_contribute (s : State) (r : CRef) (g : Geom) (val : Nat → W32) (invAt : Nat → Nat → Bool) : Works s (contribute s r g val invAt) :=
  .fold (fun _ _ => .fold (fun _ _ => .ite (works_addNode ..) (((works_flagValues ..).trans (works_sendTo ..)).trans (works_putNode ..))) _ _) _ _

theorem works_ownContribution (s : State) (r : CRef) (g : Geom) (src : Hdl) : Works s (ownContribution s r g src) := by
  unfold ownContribution
  extract_lets -underBinder n e raw val u
  have hu : Works s u := .ite ((works_noteRead ..).trans (works_setFlag ..)) .refl
  exact hu.trans (works_contribute ..)

theorem works_writeMove (s : State) (r : CRef) (g : Geom) (q c : Nat) (bs : List Byte) : Works s (writeMove s r g q c bs) := by
  unfold writeMove
  extract_lets -underBinder off id
  split
  · exact .refl
  · refine .ite .refl ?_
    split
    next hw => exact ((works_flagValues ..).trans (works_writePart hw)).trans (works_modColl ..)
    next => exact works_wrOr (f := HBR_IRQ_STAT_part_full) (by decide) s 1

theorem works_ownMovement (s : State) (r : CRef) (g : Geom) (src : Hdl) : Works s (ownMovement s r g src) := by
  unfold ownMovement
  refine .ite (.fold (fun _ _ => works_sendTo ..) _ _) (.ite .refl ?_)
  extract_lets -underBinder n total u
  have hu : Works s u := .ite ((works_noteRead ..).trans (works_setFlag ..)) .refl
  exact hu.trans (.fold (fun _ _ => .fold (fun _ _ => .ite (works_writeMove ..) ((works_flagValues ..).trans (works_sendTo ..))) _ _) _ _)

/-! ### The failure of a collective (R302) -/

theorem works_haltFor (s : State) (b : Nat) (seq : W32) (data : List Byte) : Works s (haltFor s b seq data) := by
  refine Works.trans (t := { s with shelf := { s.shelf with halted := fset s.shelf.halted b true } }) ?_ (works_event ..)
  exact ⟨fun g _ => rd_congr rfl rfl g, rfl, rfl, fun _ => rfl, fun _ h => h, rfl⟩

/-- The step flag and the record of the failure, before its events. -/
def failNoted (s : State) (b group low cause : Nat) : State :=
  let s := wrs (wrOr (setFlag s b) LSH_IRQ_STAT_timeout 1) [(LSH_ERR_group, group), (LSH_ERR_cause, cause), (LSH_ERR_berth, b)]
  modLsh s fun l => { l with failRank := BitVec.ofNat 32 low, failTick := s.lh.tick }

theorem failNamed_eq (s : State) (b group low cause : Nat) (seq : W32) : failNamed s b group low cause seq =
    haltFor (haltChannels (event (failNoted s b group low cause) b 0x0004 stFAULT seq (toBe 2 group ++ toBe 4 low)) b) b seq
      (toBe 1 3 ++ toBe 1 cause ++ toBe 2 group ++ toBe 4 low) := rfl

theorem works_noteFail (s : State) (low : W32) (tick : W64) : Works s (modLsh s fun l => { l with failRank := low, failTick := tick }) :=
  ⟨fun _ _ => modLsh_rd .., rfl, rfl, fun _ => rfl, fun _ h => h, rfl⟩

theorem works_failNoted (s : State) (b group low cause : Nat) : Works s (failNoted s b group low cause) := by
  have hirq := works_wrOr (f := LSH_IRQ_STAT_timeout) (by decide) (setFlag s b) 1
  have herr := works_wrs (fs := [LSH_ERR_group, LSH_ERR_cause, LSH_ERR_berth]) (by decide) (wrOr (setFlag s b) LSH_IRQ_STAT_timeout 1)
    (l := [(LSH_ERR_group, group), (LSH_ERR_cause, cause), (LSH_ERR_berth, b)]) rfl
  exact ((works_setFlag s b).trans (hirq.trans herr)).trans (works_noteFail ..)

theorem works_haltChannels (s : State) (b : Nat) : Works s (haltChannels s b) := .fold (fun _ _ => works_modChan ..) _ _

theorem works_failNamed (s : State) (b group low cause : Nat) (seq : W32) : Works s (failNamed s b group low cause seq) := by
  rw [failNamed_eq]
  exact ((works_failNoted ..).trans (works_event ..)).trans ((works_haltChannels ..).trans (works_haltFor ..))

theorem works_failColl (s : State) (r : CRef) (c : Coll) (g : Geom) (cause : Nat) : Works s (failColl s r c g cause) :=
  ((works_modChan ..).trans (works_failNamed ..)).trans (works_ackAll ..)

/-! ### PERMUTE (R298–R300) -/

theorem works_carryOne (l : List MapEnt) (me : Nat) (old : NMap Group) (s : State) (r : CRef) : Works s (carryOne l me old s r) := by
  unfold carryOne
  split
  · exact .refl
  · extract_lets -underBinder d
    split
    · extract_lets -underBinder o g epoch remap u
      have hu : Works s u := works_modColl ..
      refine .ite hu (hu.trans ?_)
      split
      · exact .ite (works_failColl ..) (works_modColl ..)
      · exact .ite ((works_modColl ..).trans (works_ownContribution ..)) ((works_modColl ..).trans (works_ownMovement ..))
    · exact .refl

theorem works_carryOver (s : State) (b : Nat) (l : List MapEnt) (old : NMap Group) : Works s (carryOver s b l old) :=
  .fold (fun _ _ => .fold (fun _ _ => ((works_carryOne ..).trans (works_askMissing ..)).trans (works_pumpColl ..)) _ _) _ _

theorem works_movePart (s : State) (b fmt : Nat) (e : MapEnt) (k : Nat) : Works s (movePart s b fmt e k).1 := by
  unfold movePart
  extract_lets -underBinder o x u
  have hu : Works s u := .ite ((works_noteRead ..).trans (works_setFlag ..)) .refl
  exact hu.trans (works_flagValues ..)

theorem works_landPart (s : State) (b : Nat) (e : MapEnt) (k : Nat) (bs : List Byte) : Works s (landPart s b e k bs) :=
  .ite ((works_writeN ..).trans (works_setFlag ..)) (works_writeN ..)

theorem works_permMove (s : State) (b : Nat) : Works s (permMove s b) := by
  unfold permMove
  extract_lets -underBinder p fmt
  split
  · exact .refl
  · extract_lets -underBinder me epoch one
    refine Works.trans (.fold (fun t i => ?_) _ _) (works_pumpPerm ..)
    unfold one
    split
    · exact .refl
    · refine .ite .refl (.fold (fun u k => ?_) _ _)
      exact .ite ((works_movePart ..).trans (works_landPart ..)) ((works_movePart ..).trans (works_modPerm _ b fun _ => rfl))

end Sys2Proof.Laws
end

section
/-!
SUPPORT. Packets that leave (R285, R305): what a send leaves of Longshore's record, of the registers and of the counts (R306), and the requests for
data that is missing (R286, R300).
-/
namespace Sys2Proof.Laws
open Sys2Proof Sys2Proof.Machine Sys2Proof.Safety

/-! ### The counts that a packet on the fabric leaves alone -/

theorem counts_emit_flit (s : State) (n : Nat) (f : Flit) : (emit s (.flit n f)).counts = s.counts := rfl

section fabric
variable {k : Nat} (hk : 0x1700 ≤ k)
include hk

theorem counts_emitFlit {n : Nat} (hn : n < 12) (s : State) (cr : Nat) (f : Flit) :
    mgetD (emitFlit s n cr f).counts k 0 = mgetD s.counts k 0 := by
  unfold emitFlit
  rw [counts_count, if_neg (by omega), counts_emit_flit]

theorem counts_freeBuffer (s : State) (n buf : Nat) : mgetD (freeBuffer s n buf).counts k 0 = mgetD s.counts k 0 := by
  unfold freeBuffer
  extract_lets -underBinder t
  split
  next h =>
    have hn : n < 12 := by simp [usable, portPresent] at h; exact h.1.1.1
    exact counts_emitFlit hk hn ..
  next => rfl

theorem counts_sendFlit {n : Nat} (hn : n < 12) (s : State) (x : OutFlit) : mgetD (sendFlit s n x).counts k 0 = mgetD s.counts k 0 := by
  unfold sendFlit
  extract_lets -underBinder p f b g t u
  have hu : mgetD u.counts k 0 = mgetD s.counts k 0 := counts_emitFlit hk hn t _ g
  split
  · rw [counts_freeBuffer hk, hu]
  · exact hu

theorem counts_pumpPort (fuel : Nat) (s : State) (n : Nat) : mgetD (pumpPort fuel s n).counts k 0 = mgetD s.counts k 0 := by
  induction fuel generalizing s with
  | zero => rfl
  | succ fuel ih =>
    unfold pumpPort
    extract_lets -underBinder p
    split
    · rfl
    next h =>
      have hn : n < 12 := by simp [usable, portPresent] at h; exact h.1.1.1.1
      split
      · rw [ih, counts_sendFlit hk hn]
      · rfl

theorem counts_fabricSend (s : State) (vc dst : Nat) (bytes : List Byte) : mgetD (fabricSend s vc dst bytes).counts k 0 = mgetD s.counts k 0 := by
  unfold fabricSend
  split
  · rfl
  · unfold unreachable
    rw [counts_count, if_neg (by omega), wrOr_counts]
  · extract_lets -underBinder r
    have hr : r.1.counts = s.counts := (rel_pickPort .refl fun _ h => h : Rel1 [.clf] s r).frame .counts (by decide)
    unfold enqueueFlits enqueueOut pump
    rw [counts_pumpPort hk, modPort_counts, hr]

/-- A packet that carries no data is counted at most as a request (R306). -/
theorem counts_lshSend (h2 : k ≠ 0x1722) (s : State) (dst : Nat) {p : LshPkt} (hp : p.kind ≠ 0) :
    mgetD (lshSend s dst p).counts k 0 = mgetD s.counts k 0 := by
  unfold lshSend
  split
  · rw [lshEmit_eq, counts_fabricSend hk]
    unfold lshCounted
    rw [if_neg hp]
    split
    · exact (counts_count s 0x1722 1 k).trans (if_neg h2)
    · rfl
  · rfl

theorem counts_askMissing (h2 : k ≠ 0x1722) (s : State) (r : CRef) (dev : Option Nat) :
    mgetD (askMissing s r dev).counts k 0 = mgetD s.counts k 0 := by
  unfold askMissing
  split
  · rfl
  · split
    · rfl
    · refine foldS_keeps (fun t => mgetD t.counts k 0) (fun t m => ?_) _ _
      dsimp only
      split
      · exact counts_lshSend hk h2 _ _ (by exact Nat.succ_ne_zero 1)
      · rfl

theorem counts_askMove (h2 : k ≠ 0x1722) (s : State) (b dev : Nat) : mgetD (askMove s b dev).counts k 0 = mgetD s.counts k 0 := by
  unfold askMove
  split
  · rfl
  · extract_lets -underBinder x
    split
    · rfl
    · split
      · rfl
      · refine foldS_keeps (fun t => mgetD t.counts k 0) (fun t i => ?_) _ _
        split
        · rfl
        · split
          · rfl
          · refine foldS_keeps (fun t => mgetD t.counts k 0) (fun t j => ?_) _ _
            dsimp only
            split
            · rfl
            · exact counts_lshSend hk h2 _ _ (by exact Nat.succ_ne_zero 1)

end fabric

/-! ### What a send leaves -/

/-- Packets leave, or wait in the outbox: nothing else of Longshore changes, and of the registers CLF_IRQ_STAT at most. -/
structure Sends (s t : State) : Prop where
  rel  : Rel [.tx, .regs, .counts, .clf, .lsh] s t
  lsh  : t.lsh = { s.lsh with outbox := t.lsh.outbox }
  regs : RegsBut [CLF_IRQ_STAT_unreach.off] s t

theorem Sends.refl {s : State} : Sends s s := ⟨.refl, rfl, regsBut_refl⟩

theorem Sends.trans {s t u : State} (h : Sends s t) (h' : Sends t u) : Sends s u :=
  ⟨h.rel.trans h'.rel, h'.lsh.trans (congrArg (fun l : Longshore => { l with outbox := u.lsh.outbox }) h.lsh), regsBut_trans h.regs h'.regs⟩

theorem Sends.fold {α : Type} {f : State → α → State} (hf : ∀ t x, Sends t (f t x)) (s : State) (l : List α) : Sends s (foldS f s l) :=
  foldS_holds (P := Sends s) (fun t x h => h.trans (hf t x)) .refl l

theorem Sends.ite {c : Prop} [Decidable c] {s t u : State} (ht : Sends s t) (hu : Sends s u) : Sends s (if c then t else u) := iteP (P := Sends s) ht hu

theorem sends_lshSend (s : State) (dst : Nat) (p : LshPkt) : Sends s (lshSend s dst p) := by
  refine ⟨rel_lshSend .refl fun _ h => h, ?_, ?_⟩ <;> unfold lshSend <;> split
  · rw [(rel_lshEmit .refl fun _ h => h : Rel [.tx, .regs, .counts, .clf] s (lshEmit s dst p)).frame .lsh (by decide)]
  · rfl
  · exact regsBut_lshEmit s dst p
  · exact regsBut_refl

theorem sends_askMissing (s : State) (r : CRef) (dev : Option Nat) : Sends s (askMissing s r dev) := by
  unfold askMissing
  split
  · exact .refl
  · split
    · exact .refl
    · exact .fold (fun _ _ => .ite (sends_lshSend ..) .refl) _ _

theorem sends_askMove (s : State) (b dev : Nat) : Sends s (askMove s b dev) := by
  unfold askMove
  split
  · exact .refl
  · extract_lets -underBinder x
    split
    · exact .refl
    · refine .ite .refl (.fold (fun t i => ?_) _ _)
      split
      · exact .refl
      · exact .ite .refl (.fold (fun _ _ => .ite .refl (sends_lshSend ..)) _ _)

section sends
variable {s t : State} (h : Sends s t)
include h

theorem Sends.chans : t.lsh.chans = s.lsh.chans := (congrArg Longshore.chans h.lsh :)
theorem Sends.close : t.lsh.close = s.lsh.close := (congrArg Longshore.close h.lsh :)
theorem Sends.permute : t.lsh.permute = s.lsh.permute := (congrArg Longshore.permute h.lsh :)
theorem Sends.suspects : t.lsh.suspects = s.lsh.suspects := (congrArg Longshore.suspects h.lsh :)
theorem Sends.live : t.lsh.live = s.lsh.live := (congrArg Longshore.live h.lsh :)
theorem Sends.field {f : Fld} (hf : f.off ≠ CLF_IRQ_STAT_unreach.off) : Machine.rd t f = Machine.rd s f := rd_of_regsBut h.regs (by simpa using hf)
theorem Sends.bit {f : Fld} (hf : f.off ≠ CLF_IRQ_STAT_unreach.off) : rdb t f = rdb s f := by rw [rdb, h.field hf, rdb]
theorem Sends.ownId : ownId t = ownId s := by unfold Machine.ownId; rw [h.field (by decide), h.field (by decide), h.field (by decide)]

end sends

/-! ### What a fold of operations reaches -/

/-- A fold reaches what one of its operations brings about from every state on the way, and what all of them keep. -/
theorem foldS_reaches {α : Type} {f : State → α → State} {I Q : State → Prop} (hI : ∀ t x, I t → I (f t x)) (hQ : ∀ t x, Q t → Q (f t x)) {a : α}
    (hset : ∀ t, I t → Q (f t a)) {l : List α} (ha : a ∈ l) {s : State} (h : I s) : Q (foldS f s l) := by
  induction l generalizing s with
  | nil => cases ha
  | cons x l ih =>
    rcases List.mem_cons.1 ha with rfl | ha
    · exact foldS_holds hQ (hset s h) l
    · exact ih ha (hI s x h)

theorem lsh_mem_lshSend {s : State} (h : rdb s LSH_CTL_run = true) (dst : Nat) (p : LshPkt) : Tx.lsh dst p ∈ (lshSend s dst p).tx := by
  rw [lshSend_of_run h]
  exact lsh_mem_lshEmit s dst p

end Sys2Proof.Laws
end

section
/-!
SUPPORT. A packet of a collective that fails its CRC (R286): the devices that are suspected, and the data that is asked for again.
-/
namespace Sys2Proof.Laws
open Sys2Proof Sys2Proof.Machine Sys2Proof.Safety

/-! ### Data that is asked for again (R286) -/

/-- The request for a part that a collective lacks, as it leaves from a state. -/
def partReq (s : State) (r : CRef) (x : Coll) (m : Nat × Nat × Nat × Nat) : LshPkt :=
  { collPkt s r.b x 2 m.1 m.2.1 m.2.2.1 0 false false [] with kind := 2, data := [], retx := false, inv := false, nf := flagOf s r.b }

/-- Sends change nothing that a request carries. -/
theorem partReq_congr {s t : State} (hid : ownId t = ownId s) (hclose : t.lsh.close = s.lsh.close) (r : CRef) (x : Coll) (m : Nat × Nat × Nat × Nat) :
    partReq t r x m = partReq s r x m := by
  unfold partReq collPkt flagOf
  rw [hid, hclose]

/-- A part that a collective lacks is asked for of the device that owes it. -/
theorem askMissing_sent {s : State} {r : CRef} {x : Coll} {g : Geom} {m : Nat × Nat × Nat × Nat} (hrun : rdb s LSH_CTL_run = true)
    (hx : collAt s r = some x) (hg : collGeom s r.b x = some g) (hm : m ∈ missingParts g x) :
    Tx.lsh (g.dev m.2.2.2) (partReq s r x m) ∈ (askMissing s r (some (g.dev m.2.2.2))).tx := by
  unfold askMissing
  simp only [hx, hg]
  refine foldS_reaches (I := Sends s) (Q := fun t => Tx.lsh (g.dev m.2.2.2) (partReq s r x m) ∈ t.tx) (fun t n ht => ht.trans ?_) (fun t n ht => ?_) (fun t ht => ?_) hm .refl
  · exact .ite (sends_lshSend ..) .refl
  · split
    · exact (sends_lshSend t _ _).rel.tx.subset ht
    · exact ht
  · rw [if_pos (by simp), ← partReq_congr ht.ownId ht.close]
    exact lsh_mem_lshSend ((ht.bit (by decide)).trans hrun) _ _

/-- What the search for missing data leaves: of Longshore's record only the outbox and the suspects differ. -/
structure Asks (s t : State) : Prop where
  tx   : s.tx <:+ t.tx
  lsh  : t.lsh = { s.lsh with outbox := t.lsh.outbox, suspects := t.lsh.suspects }
  regs : RegsBut [CLF_IRQ_STAT_unreach.off] s t

theorem Asks.refl {s : State} : Asks s s := ⟨List.suffix_refl _, rfl, regsBut_refl⟩

theorem Asks.trans {s t u : State} (h : Asks s t) (h' : Asks t u) : Asks s u :=
  ⟨h.tx.trans h'.tx, h'.lsh.trans (congrArg (fun l : Longshore => { l with outbox := u.lsh.outbox, suspects := u.lsh.suspects }) h.lsh),
    regsBut_trans h.regs h'.regs⟩

theorem Sends.asks {s t : State} (h : Sends s t) : Asks s t := ⟨h.rel.tx, by rw [h.lsh], h.regs⟩

section asks
variable {s t : State} (h : Asks s t)
include h

theorem Asks.chans : t.lsh.chans = s.lsh.chans := (congrArg Longshore.chans h.lsh :)
theorem Asks.close : t.lsh.close = s.lsh.close := (congrArg Longshore.close h.lsh :)
theorem Asks.live : t.lsh.live = s.lsh.live := (congrArg Longshore.live h.lsh :)
theorem Asks.early : t.lsh.early = s.lsh.early := (congrArg Longshore.early h.lsh :)
theorem Asks.field {f : Fld} (hf : f.off ≠ CLF_IRQ_STAT_unreach.off) : Machine.rd t f = Machine.rd s f := rd_of_regsBut h.regs (by simpa using hf)
theorem Asks.bit {f : Fld} (hf : f.off ≠ CLF_IRQ_STAT_unreach.off) : rdb t f = rdb s f := by rw [rdb, h.field hf, rdb]
theorem Asks.ownId : ownId t = ownId s := by unfold Machine.ownId; rw [h.field (by decide), h.field (by decide), h.field (by decide)]
theorem Asks.collAt (r : CRef) : collAt t r = collAt s r := by unfold Machine.collAt chanOf; rw [h.chans]
theorem Asks.collGeom (b : Nat) (x : Coll) : collGeom t b x = collGeom s b x := by unfold Machine.collGeom groupOf; rw [h.live]

end asks

/-- The device joins the suspects of a berth. -/
def suspect (dev : Nat) (s : State) (b : Nat) : State :=
  modLsh s fun l => { l with suspects := fmod l.suspects b fun ds => if dev ∈ ds then ds else dev :: ds }

/-- What the collectives of a berth lack of a device is asked for again. -/
def askColls (dev : Nat) (s : State) (b : Nat) : State :=
  foldS (fun s c => foldS (fun s i => askMissing s ⟨b, c, i⟩ (some dev)) s (List.range (chanOf s b c).active.length)) s allChans

/-- The step of a packet that failed its CRC for one berth. -/
def suspectBerth (dev : Nat) (s : State) (b : Nat) : State := askMove (askColls dev (suspect dev s b) b) b dev

theorem crcFailed_eq (s : State) (dev : Nat) : crcFailed s dev = foldS (suspectBerth dev) (count (wrOr s LSH_IRQ_STAT_crc 1) 0x1723 1) berths := rfl

theorem asks_modSuspects (s : State) (f : Four (List Nat) → Four (List Nat)) : Asks s (modLsh s fun l => { l with suspects := f l.suspects }) :=
  ⟨List.suffix_refl _, rfl, fun o _ => regWord_congr rfl rfl o⟩

theorem asks_suspect (dev : Nat) (s : State) (b : Nat) : Asks s (suspect dev s b) :=
  asks_modSuspects s fun q => fmod q b fun ds => if dev ∈ ds then ds else dev :: ds

theorem sends_askColls (dev : Nat) (s : State) (b : Nat) : Sends s (askColls dev s b) :=
  .fold (fun _ _ => .fold (fun _ _ => sends_askMissing ..) _ _) _ _

theorem sends_suspectBerth (dev : Nat) (s : State) (b : Nat) : Sends (suspect dev s b) (suspectBerth dev s b) :=
  (sends_askColls dev (suspect dev s b) b).trans (sends_askMove _ b dev)

theorem asks_suspectBerth (dev : Nat) (s : State) (b : Nat) : Asks s (suspectBerth dev s b) :=
  (asks_suspect dev s b).trans (sends_suspectBerth dev s b).asks

theorem suspectBerth_suspects (dev : Nat) (s : State) (b : Nat) : (suspectBerth dev s b).lsh.suspects =
    fmod s.lsh.suspects b fun ds => if dev ∈ ds then ds else dev :: ds := by
  rw [(sends_suspectBerth dev s b).suspects]
  rfl

/-- After a packet failed its CRC its device is a suspect of every berth. -/
theorem mem_suspects_crcFailed (s : State) (dev : Nat) {b : Nat} (hb : b < 4) : dev ∈ fget (crcFailed s dev).lsh.suspects b := by
  rw [crcFailed_eq]
  refine foldS_reaches (I := fun _ => True) (Q := fun t => dev ∈ fget t.lsh.suspects b) (fun _ _ _ => trivial) (fun t c ht => ?_) (fun t _ => ?_)
    (a := b) (by unfold berths; simp; omega) trivial
  · rw [suspectBerth_suspects, fmod, fget_fset]
    split
    next h =>
      have hbc : fget t.lsh.suspects c = fget t.lsh.suspects b := fget_of_min _ h.symm
      rw [hbc, if_pos ht]
      exact ht
    next => exact ht
  · rw [suspectBerth_suspects, fget_fmod_same]
    split
    next h => exact h
    next => exact List.mem_cons_self ..

/-- A part that a collective of the berth lacks of the device is asked for. -/
theorem askColls_sent {s : State} {r : CRef} {x : Coll} {g : Geom} {m : Nat × Nat × Nat × Nat} (hrun : rdb s LSH_CTL_run = true)
    (hc : r.c ∈ allChans) (hx : collAt s r = some x) (hg : collGeom s r.b x = some g) (hm : m ∈ missingParts g x) :
    Tx.lsh (g.dev m.2.2.2) (partReq s r x m) ∈ (askColls (g.dev m.2.2.2) s r.b).tx := by
  have hstep (t : State) (y : CRef) : Sends t (askMissing t y (some (g.dev m.2.2.2))) := sends_askMissing ..
  refine foldS_reaches (I := Sends s) (Q := fun t => Tx.lsh (g.dev m.2.2.2) (partReq s r x m) ∈ t.tx) (fun t c ht => ht.trans (.fold (fun _ _ => hstep ..) _ _))
    (fun t c ht => foldS_holds (P := fun t => Tx.lsh (g.dev m.2.2.2) (partReq s r x m) ∈ t.tx) (fun u i hu => (hstep u _).rel.tx.subset hu) ht _) (fun t ht => ?_) hc .refl
  refine foldS_reaches (I := Sends s) (Q := fun t => Tx.lsh (g.dev m.2.2.2) (partReq s r x m) ∈ t.tx) (fun u i hu => hu.trans (hstep ..)) (fun u i hu => (hstep u _).rel.tx.subset hu) (fun u hu => ?_)
    (a := r.i) ?_ ht
  · rw [← partReq_congr hu.ownId hu.close]
    exact askMissing_sent ((hu.bit (by decide)).trans hrun) ((hu.asks.collAt r).trans hx) ((hu.asks.collGeom r.b x).trans hg) hm
  · have hlen : r.i < (chanOf s r.b r.c).active.length := (List.getElem?_eq_some_iff.1 hx).1
    rw [List.mem_range, chanOf, ht.chans]
    exact hlen

theorem counts_suspectBerth {k : Nat} (hk : 0x1700 ≤ k) (h2 : k ≠ 0x1722) (dev : Nat) (s : State) (b : Nat) :
    mgetD (suspectBerth dev s b).counts k 0 = mgetD s.counts k 0 := by
  have hcolls : mgetD (askColls dev (suspect dev s b) b).counts k 0 = mgetD (suspect dev s b).counts k 0 :=
    foldS_keeps (fun t => mgetD t.counts k 0) (fun t _ => foldS_keeps (fun t => mgetD t.counts k 0) (fun _ _ => counts_askMissing hk h2 ..) t _) _ _
  rw [suspectBerth, counts_askMove hk h2, hcolls]
  rfl

theorem asks_crcFailed (s : State) (dev : Nat) : Asks (count (wrOr s LSH_IRQ_STAT_crc 1) 0x1723 1) (crcFailed s dev) := by
  rw [crcFailed_eq]
  exact foldS_holds (P := Asks _) (fun t b h => h.trans (asks_suspectBerth dev t b)) .refl berths

theorem counts_crcFailed (s : State) (dev : Nat) : mgetD (crcFailed s dev).counts 0x1723 0 = mgetD s.counts 0x1723 0 + 1 := by
  rw [crcFailed_eq, foldS_keeps (fun t => mgetD t.counts 0x1723 0) (fun t b => counts_suspectBerth (by decide) (by decide) dev t b)]
  exact counts_count ..

/-- Every part that a collective lacks of the device of a packet that failed its CRC is asked for again. -/
theorem crcFailed_sent {s : State} {r : CRef} {x : Coll} {g : Geom} {m : Nat × Nat × Nat × Nat} (hrun : rdb s LSH_CTL_run = true) (hb : r.b < 4)
    (hc : r.c ∈ allChans) (hx : collAt s r = some x) (hg : collGeom s r.b x = some g) (hm : m ∈ missingParts g x) :
    Tx.lsh (g.dev m.2.2.2) (partReq s r x m) ∈ (crcFailed s (g.dev m.2.2.2)).tx := by
  have hnoted : Rel [.regs, .counts] s (count (wrOr s LSH_IRQ_STAT_crc 1) 0x1723 1) := rel_count (rel_wrOr .refl (by decide)) (by decide)
  have hlsh : (count (wrOr s LSH_IRQ_STAT_crc 1) 0x1723 1).lsh = s.lsh := hnoted.frame .lsh (by decide)
  have hregs : RegsBut [LSH_IRQ_STAT_crc.off] s (count (wrOr s LSH_IRQ_STAT_crc 1) 0x1723 1) :=
    regsBut_trans (regsBut_wrOr s LSH_IRQ_STAT_crc 1) (regsBut_count _ _ _)
  rw [crcFailed_eq]
  generalize count (wrOr s LSH_IRQ_STAT_crc 1) 0x1723 1 = z at *
  refine foldS_reaches (I := Asks z) (Q := fun t => Tx.lsh (g.dev m.2.2.2) (partReq s r x m) ∈ t.tx)
    (fun t b h => h.trans (asks_suspectBerth _ t b)) (fun t b h => (asks_suspectBerth _ t b).tx.subset h) (fun t ht => ?_) (a := r.b)
    (by unfold berths; simp; omega) .refl
  have hu : Asks z (suspect (g.dev m.2.2.2) t r.b) := ht.trans (asks_suspect ..)
  have hrun' : rdb (suspect (g.dev m.2.2.2) t r.b) LSH_CTL_run = true :=
    (hu.bit (by decide)).trans ((rdb_of_rd (rd_of_regsBut hregs (by decide))).trans hrun)
  have hid : ownId z = ownId s := by
    unfold ownId
    rw [rd_of_regsBut hregs (by decide), rd_of_regsBut hregs (by decide), rd_of_regsBut hregs (by decide)]
  have hx' : collAt z r = some x := by unfold collAt chanOf; rw [hlsh]; exact hx
  have hg' : collGeom z r.b x = some g := by unfold collGeom groupOf; rw [hlsh]; exact hg
  have hsent := askColls_sent hrun' hc ((hu.collAt r).trans hx') ((hu.collGeom r.b x).trans hg') hm
  rw [partReq_congr (hu.ownId.trans hid) (hu.close.trans (by rw [hlsh]))] at hsent
  exact (sends_askMove _ r.b (g.dev m.2.2.2)).rel.tx.subset hsent

end Sys2Proof.Laws
end

section
/-!
PROOFS. Packets of collectives that are not taken: in reset, with a failed CRC, or stale (O56).
-/
namespace Sys2Proof.Proofs
open Sys2Proof Sys2Proof.Machine Sys2Proof.Safety Sys2Proof.Laws

/-! ### Packets that are not taken (R286) -/

/-- The commands with which a packet of a collective arrives. -/
def Arrival (p : LshPkt) (c : Instr) : Prop :=
  c = .collectiveDataReceive p ∨ c = .collectiveAckReceive p ∨ c = .collectiveReqReceive p ∨ c = .countReceive p

theorem exec_arrival_reset {s : State} {p : LshPkt} {c : Instr} (hc : Arrival p c) (hr : inReset s 0x14 = true) : exec c s = .next s := by
  rcases hc with rfl | rfl | rfl | rfl <;> exact congrArg _ (if_pos hr)

theorem exec_data_corrupt {s : State} {p : LshPkt} (hr : inReset s 0x14 = false) (hp : p.crcOk = false) :
    exec (.collectiveDataReceive p) s = .next (crcFailed s p.src) := by
  rw [show exec (.collectiveDataReceive p) s = execCollectiveDataReceive p s from rfl, execCollectiveDataReceive, if_neg (by simp [hr]),
    if_pos (by simp [hp])]

theorem exec_other_corrupt {s : State} {p : LshPkt} {c : Instr} (hc : c = .collectiveAckReceive p ∨ c = .collectiveReqReceive p ∨ c = .countReceive p)
    (hr : inReset s 0x14 = false) (hp : p.crcOk = false) : exec c s = .next (count (wrOr s LSH_IRQ_STAT_crc 1) 0x1723 1) := by
  rcases hc with rfl | rfl | rfl <;> exact congrArg _ ((if_neg (by simp [hr])).trans (if_pos (by simp [hp])))

theorem arrival_corrupt {s : State} {p : LshPkt} {c : Instr} (hc : Arrival p c) (hr : inReset s 0x14 = false) (hp : p.crcOk = false) :
    ∃ t, exec c s = .next t ∧ Frame (footprint c) s t ∧ rdb t LSH_IRQ_STAT_crc = true ∧ mgetD t.counts 0x1723 0 = mgetD s.counts 0x1723 0 + 1 ∧
      t.lsh.chans = s.lsh.chans ∧ t.lsh.early = s.lsh.early ∧ (c ≠ .collectiveDataReceive p → t.lsh = s.lsh) ∧
      (c = .collectiveDataReceive p → ∀ b, b < 4 → p.src ∈ fget t.lsh.suspects b) := by
  obtain ⟨hframe, hbit, hcount, -⟩ := noted_once (rfl : count (wrOr s LSH_IRQ_STAT_crc 1) 0x1723 1 = _) (by decide) rfl
  have hlsh : (count (wrOr s LSH_IRQ_STAT_crc 1) 0x1723 1).lsh = s.lsh := hframe .lsh (by decide)
  rcases hc with rfl | hc
  · have he := exec_data_corrupt hr hp
    have hasks := asks_crcFailed s p.src
    exact ⟨_, he, (rel_of_exec he).frame, (hasks.bit (by decide)).trans hbit, counts_crcFailed s p.src, hasks.chans.trans (by rw [hlsh]),
      hasks.early.trans (by rw [hlsh]), fun h => absurd rfl h, fun _ b hb => mem_suspects_crcFailed s p.src hb⟩
  · have he := exec_other_corrupt hc hr hp
    exact ⟨_, he, (rel_of_exec he).frame, hbit, hcount, by rw [hlsh], by rw [hlsh], fun _ => hlsh,
      fun h => by subst h; rcases hc with h | h | h <;> cases h⟩

theorem exec_stale {s : State} {p : LshPkt} {c : Instr} (hc : c = .collectiveDataReceive p ∨ c = .collectiveAckReceive p ∨ c = .collectiveReqReceive p)
    (hr : inReset s 0x14 = false) (hp : p.crcOk = true) (hs : if p.op = 7 then permCurrent s p = none else current s p = false) :
    exec c s = .next (staleDrop s) := by
  by_cases h7 : p.op = 7
  · rw [if_pos h7] at hs
    rcases hc with rfl | rfl | rfl <;>
      refine congrArg _ ((if_neg (by simp [hr])).trans ((if_neg (by simp [hp])).trans ((if_pos h7).trans ?_))) <;> simp [hs]
  · rw [if_neg h7] at hs
    rcases hc with rfl | rfl | rfl <;>
      exact congrArg _ ((if_neg (by simp [hr])).trans ((if_neg (by simp [hp])).trans ((if_neg h7).trans (if_pos (by simp [hs])))))

/-- A stale packet leaves its count and its status bit (R286). -/
theorem staleDrop_effect (s : State) : Frame [.regs, .counts] s (staleDrop s) ∧ RegsBut [LSH_IRQ_STAT_stale.off] s (staleDrop s) ∧
    CountsBut [0x1720] s (staleDrop s) ∧ rdb (staleDrop s) LSH_IRQ_STAT_stale = true ∧
    mgetD (staleDrop s).counts 0x1720 0 = mgetD s.counts 0x1720 0 + 1 := by
  obtain ⟨hframe, hbit, hcount, hbut⟩ := noted_once (rfl : staleDrop s = _) (by decide) rfl
  exact ⟨hframe, regsBut_trans (regsBut_wrOr s LSH_IRQ_STAT_stale 1) (regsBut_count _ _ _), hbut, hbit, hcount⟩

end Sys2Proof.Proofs
end

section
/-!
SUPPORT. The record of a collective in progress: where it stands (R286), the window (R287), and acknowledgements (R287, R290).
-/
namespace Sys2Proof.Laws
open Sys2Proof Sys2Proof.Machine Sys2Proof.Safety

/-! ### Where a collective stands -/

theorem chanOf_congr {s t : State} (h : t.lsh.chans = s.lsh.chans) (b c : Nat) : chanOf t b c = chanOf s b c := by unfold chanOf; rw [h]

theorem collAt_congr {s t : State} (h : t.lsh.chans = s.lsh.chans) (r : CRef) : collAt t r = collAt s r := by unfold collAt; rw [chanOf_congr h]

theorem findColl_congr {s t : State} (h : t.lsh.chans = s.lsh.chans) (p : LshPkt) : findColl t p = findColl s p := by
  unfold findColl
  simp only [chanOf_congr h]

theorem collGeom_congr {s t : State} (h : t.lsh.live = s.lsh.live) (b : Nat) (x : Coll) : collGeom t b x = collGeom s b x := by
  unfold collGeom groupOf; rw [h]

/-- A packet names a collective of its own berth. -/
theorem findColl_berth {s : State} {p : LshPkt} {r : CRef} (h : findColl s p = some r) : r.b = p.berth := by
  obtain ⟨c, -, hc⟩ := List.exists_of_findSome?_eq_some h
  obtain ⟨i, -, rfl⟩ := Option.map_eq_some_iff.1 hc
  rfl

@[simp] theorem collAt_modColl (s : State) (r : CRef) (f : Coll → Coll) : collAt (modColl s r f) r = (collAt s r).map f := by
  unfold collAt modColl
  rw [chanOf_modChan, if_pos rfl, List.getElem?_mapIdx]
  simp

/-! ### The window (R287) -/

/-- A channel's record without the counts of packets that are accepted and not yet acknowledged. -/
def ungrant (x : Coll) : Coll := { x with granted := [] }
def bare (x : LChan) : LChan := { x with active := x.active.map ungrant }

theorem eq_of_ungrant {x y : Coll} (h : ungrant y = ungrant x) : ∃ gr, y = { x with granted := gr } := by
  exact ⟨y.granted, congrArg (fun z : Coll => { z with granted := y.granted }) h⟩

/-- Acknowledgements leave of the channels everything but the counts of what is to be acknowledged. -/
structure Acks (s t : State) : Prop where
  tx    : s.tx <:+ t.tx
  close : t.lsh.close = s.lsh.close
  bare  : ∀ b c, bare (chanOf t b c) = bare (chanOf s b c)
  regs  : RegsBut [CLF_IRQ_STAT_unreach.off] s t

theorem Acks.refl {s : State} : Acks s s := ⟨List.suffix_refl _, rfl, fun _ _ => rfl, regsBut_refl⟩

theorem Acks.trans {s t u : State} (h : Acks s t) (h' : Acks t u) : Acks s u :=
  ⟨h.tx.trans h'.tx, h'.close.trans h.close, fun b c => (h'.bare b c).trans (h.bare b c), regsBut_trans h.regs h'.regs⟩

theorem Acks.fold {α : Type} {f : State → α → State} (hf : ∀ t x, Acks t (f t x)) (s : State) (l : List α) : Acks s (foldS f s l) :=
  foldS_holds (P := Acks s) (fun t x h => h.trans (hf t x)) .refl l

theorem Sends.acks {s t : State} (h : Sends s t) : Acks s t := ⟨h.rel.tx, h.close, fun b c => by rw [chanOf_congr h.chans], h.regs⟩

theorem acks_modGranted (s : State) (r : CRef) (f : NMap Nat → NMap Nat) : Acks s (modColl s r fun c => { c with granted := f c.granted }) := by
  refine ⟨List.suffix_refl _, rfl, fun b c => ?_, fun o _ => regWord_congr rfl rfl o⟩
  have hbare (x : LChan) : bare { x with active := x.active.mapIdx fun i y => if i = r.i then { y with granted := f y.granted } else y } = bare x := by
    unfold bare
    refine congrArg (fun l => { x with active := l }) (List.ext_getElem? fun i => ?_)
    rw [List.getElem?_map, List.getElem?_mapIdx, List.getElem?_map]
    cases x.active[i]? with
    | none => rfl
    | some y => by_cases h : i = r.i <;> simp [h, ungrant]
  unfold chanOf modColl modChan
  rw [modLsh_lsh, mgetD_mset]
  split
  next h => rw [hbare, chanOf, h]
  next => rfl

theorem acks_ackAll (s : State) (b : Nat) : Acks s (ackAll s b) := by
  refine .fold (fun t c => .fold (fun u i => ?_) _ _) _ _
  unfold sendAcks
  split
  · exact .refl
  · split
    · exact .refl
    · refine .fold (fun v q => ?_) _ _
      unfold sendAck
      split
      · exact .refl
      · extract_lets -underBinder n last
        split
        · exact .refl
        · exact (acks_modGranted v _ fun gr => mset gr q.1 0).trans (sends_lshSend ..).acks

/-- The record of a collective after acknowledgements. -/
theorem Acks.collAt {s t : State} (h : Acks s t) {r : CRef} {x : Coll} (hx : collAt s r = some x) : ∃ gr, collAt t r = some { x with granted := gr } := by
  have hmap : (Machine.collAt t r).map ungrant = (Machine.collAt s r).map ungrant := by
    unfold Machine.collAt
    rw [← List.getElem?_map, ← List.getElem?_map]
    exact congrArg (fun x : LChan => x.active[r.i]?) (h.bare r.b r.c)
  rw [hx] at hmap
  obtain ⟨y, hy, hyx⟩ := Option.map_eq_some_iff.1 hmap
  obtain ⟨gr, rfl⟩ := eq_of_ungrant hyx
  exact ⟨gr, hy⟩

/-- The collective's record once the packets that the window lets go have gone. -/
def pumped (w : Nat) (tick : W64) (x : Coll) : Coll :=
  let l := splitWindow w x.toSend x.unacked
  { x with toSend := l.2.1, unacked := l.2.2, since := if l.2.1.isEmpty && !x.toSend.isEmpty then tick else x.since }

/-- A packet is counted among those of the fence (R299), unless it is sent again. -/
def noteSent (s : State) (b : Nat) (retx : Bool) : State := modPerm s b fun x => { x with sent := if retx then x.sent else x.sent + 1 }

/-- One packet of a collective leaves with the step flag as it stands. -/
def pumpOne (b : Nat) (s : State) (q : Nat × LshPkt) : State := lshSend (noteSent s b q.2.retx) q.1 { q.2 with nf := flagOf s b }

theorem pumpColl_closed {s : State} {r : CRef} (h : rdb s LSH_CTL_run = false ∨ (fget s.lsh.permute r.b).phase ≠ 0) : pumpColl s r = s := by
  unfold pumpColl
  exact if_pos (by rcases h with h | h <;> simp [h])

theorem pumpColl_open {s : State} {r : CRef} {x : Coll} (hrun : rdb s LSH_CTL_run = true) (hphase : (fget s.lsh.permute r.b).phase = 0)
    (hx : collAt s r = some x) : ∃ u, collAt u r = some (pumped (rd1 s LSH_WINDOW_packets) s.lh.tick x) ∧ Works s u ∧ u.lsh.close = s.lsh.close ∧
      u.tx = s.tx ∧ pumpColl s r = foldS (pumpOne r.b) u (splitWindow (rd1 s LSH_WINDOW_packets) x.toSend x.unacked).1 := by
  have hif : ¬ (!rdb s LSH_CTL_run || (fget s.lsh.permute r.b).phase ≠ 0) = true := by simp [hrun, hphase]
  refine ⟨modColl s r fun c => { c with
      toSend := (splitWindow (rd1 s LSH_WINDOW_packets) x.toSend x.unacked).2.1
      unacked := (splitWindow (rd1 s LSH_WINDOW_packets) x.toSend x.unacked).2.2
      since := if (splitWindow (rd1 s LSH_WINDOW_packets) x.toSend x.unacked).2.1.isEmpty && !c.toSend.isEmpty then s.lh.tick else c.since },
    ?_, works_modColl .., rfl, rfl, ?_⟩
  · rw [collAt_modColl, hx]
    rfl
  · unfold pumpColl
    rw [if_neg hif, hx]
    rfl

theorem works_noteSent (s : State) (b : Nat) (retx : Bool) : Works s (noteSent s b retx) := works_modPerm s b fun _ => rfl

theorem works_pumpOne (b : Nat) (s : State) (q : Nat × LshPkt) : Works s (pumpOne b s q) := (works_noteSent ..).trans (works_lshSend ..)

theorem sends_pumpOne (b : Nat) (s : State) (q : Nat × LshPkt) : Sends (noteSent s b q.2.retx) (pumpOne b s q) := sends_lshSend ..

theorem pumpOne_keeps (b : Nat) (s : State) (q : Nat × LshPkt) : (pumpOne b s q).lsh.close = s.lsh.close ∧ (pumpOne b s q).lsh.chans = s.lsh.chans :=
  ⟨(sends_pumpOne b s q).close, (sends_pumpOne b s q).chans⟩

theorem tx_pumpOne (b : Nat) (s : State) (q : Nat × LshPkt) : s.tx <:+ (pumpOne b s q).tx := (sends_pumpOne b s q).rel.tx

theorem pumpOne_sent {s : State} (hrun : rdb s LSH_CTL_run = true) (b d : Nat) (p : LshPkt) :
    Tx.lsh d { p with nf := flagOf s b } ∈ (pumpOne b s (d, p)).tx :=
  lsh_mem_lshSend ((rdb_of_rd ((works_noteSent s b p.retx).rd _ (by decide))).trans hrun) _ _

theorem pumpColl_close (s : State) (r : CRef) : (pumpColl s r).lsh.close = s.lsh.close := by
  by_cases h : rdb s LSH_CTL_run = false ∨ (fget s.lsh.permute r.b).phase ≠ 0
  · rw [pumpColl_closed h]
  · rw [not_or, not_not, Bool.not_eq_false] at h
    cases hx : collAt s r with
    | none =>
      unfold pumpColl
      rw [hx]
      exact congrArg (fun t : State => t.lsh.close) (ite_self s)
    | some x =>
      obtain ⟨u, -, -, hclose, -, he⟩ := pumpColl_open h.1 h.2 hx
      rw [he, foldS_keeps (fun t => t.lsh.close) (fun t q => (pumpOne_keeps r.b t q).1), hclose]

/-- What the window leaves of the record of a collective. -/
theorem collAt_pumpColl {s : State} {r : CRef} {x : Coll} (hx : collAt s r = some x) :
    ∃ l u k, collAt (pumpColl s r) r = some { x with toSend := l, unacked := u, since := k } := by
  by_cases h : rdb s LSH_CTL_run = false ∨ (fget s.lsh.permute r.b).phase ≠ 0
  · exact ⟨x.toSend, x.unacked, x.since, by rw [pumpColl_closed h, hx]⟩
  · rw [not_or, not_not, Bool.not_eq_false] at h
    obtain ⟨u, hu, -, -, -, he⟩ := pumpColl_open h.1 h.2 hx
    refine ⟨(pumped (rd1 s LSH_WINDOW_packets) s.lh.tick x).toSend, (pumped (rd1 s LSH_WINDOW_packets) s.lh.tick x).unacked,
      (pumped (rd1 s LSH_WINDOW_packets) s.lh.tick x).since, ?_⟩
    rw [he, collAt_congr (foldS_keeps (fun t => t.lsh.chans) (fun t q => (pumpOne_keeps r.b t q).2) u _), hu]
    rfl

/-- Without a packet to send, the window leaves everything as it was. -/
theorem pumpColl_nothing {s : State} {r : CRef} {x : Coll} (hx : collAt s r = some x) (h : x.toSend = []) :
    collAt (pumpColl s r) r = some x ∧ (pumpColl s r).tx = s.tx := by
  by_cases hc : rdb s LSH_CTL_run = false ∨ (fget s.lsh.permute r.b).phase ≠ 0
  · rw [pumpColl_closed hc]
    exact ⟨hx, rfl⟩
  · rw [not_or, not_not, Bool.not_eq_false] at hc
    obtain ⟨u, hu, -, -, htx, he⟩ := pumpColl_open hc.1 hc.2 hx
    rw [he, h]
    refine ⟨hu.trans (congrArg some ?_), htx⟩
    unfold pumped
    rw [h]
    simp only [splitWindow, List.isEmpty_nil, Bool.not_true, Bool.and_false, Bool.false_eq_true, if_false]
    rw [← h]

/-- While the window to its device is open, the oldest packet leaves. -/
theorem pumpColl_sent {s : State} {r : CRef} {x : Coll} {d : Nat} {p : LshPkt} (hx : collAt s r = some x) (hrun : rdb s LSH_CTL_run = true)
    (hphase : (fget s.lsh.permute r.b).phase = 0) (hp : x.toSend.head? = some (d, p)) (hw : mgetD x.unacked d 0 < rd1 s LSH_WINDOW_packets) :
    Tx.lsh d { p with nf := flagOf s r.b } ∈ (pumpColl s r).tx := by
  obtain ⟨u, -, hworks, hclose, -, he⟩ := pumpColl_open hrun hphase hx
  have hmem : (d, p) ∈ (splitWindow (rd1 s LSH_WINDOW_packets) x.toSend x.unacked).1 := by
    obtain ⟨l, hl⟩ := List.head?_eq_some_iff.1 hp
    rw [hl, splitWindow, if_pos hw]
    exact List.mem_cons_self ..
  rw [he]
  refine foldS_reaches (I := fun t => Works s t ∧ t.lsh.close = s.lsh.close) (Q := fun t => Tx.lsh d { p with nf := flagOf s r.b } ∈ t.tx)
    (fun t q ht => ⟨ht.1.trans (works_pumpOne ..), (pumpOne_keeps r.b t q).1.trans ht.2⟩) (fun t q h => (tx_pumpOne r.b t q).subset h)
    (fun t ht => ?_) hmem ⟨hworks, hclose⟩
  have hflag : flagOf t r.b = flagOf s r.b := by unfold flagOf; rw [ht.2]
  rw [← hflag]
  exact pumpOne_sent ((rdb_of_rd (ht.1.rd _ (by decide))).trans hrun) r.b d p

end Sys2Proof.Laws
end

section
/-!
SUPPORT. Packets of collectives that are taken: the flag that they carry (R291), and the commands for a packet of the present epoch, step and try (R286, R287).
-/
namespace Sys2Proof.Laws
open Sys2Proof Sys2Proof.Machine Sys2Proof.Safety

/-! ### The flag in a packet (R291) -/

/-- The step flag of a packet joins its berth's. -/
def flagged (s : State) (p : LshPkt) : State := if p.nf then setFlag s p.berth else s

theorem flagged_lsh (s : State) (p : LshPkt) : (flagged s p).lsh = { s.lsh with close := (flagged s p).lsh.close } := by
  unfold flagged
  split <;> rfl

theorem rel_flagged (s : State) (p : LshPkt) : Rel [.lsh] s (flagged s p) := rel_orFlag .refl fun _ h => h

theorem works_flagged (s : State) (p : LshPkt) : Works s (flagged s p) := works_orFlag ..

@[simp] theorem flagOf_flagged (s : State) (p : LshPkt) : flagOf (flagged s p) p.berth = (flagOf s p.berth || p.nf) := by
  unfold flagOf flagged
  rw [orFlag_close]

theorem flagged_chans (s : State) (p : LshPkt) : (flagged s p).lsh.chans = s.lsh.chans := (congrArg Longshore.chans (flagged_lsh s p) :)
theorem flagged_live (s : State) (p : LshPkt) : (flagged s p).lsh.live = s.lsh.live := (congrArg Longshore.live (flagged_lsh s p) :)
theorem flagged_early (s : State) (p : LshPkt) : (flagged s p).lsh.early = s.lsh.early := (congrArg Longshore.early (flagged_lsh s p) :)
theorem flagged_permute (s : State) (p : LshPkt) : (flagged s p).lsh.permute = s.lsh.permute := (congrArg Longshore.permute (flagged_lsh s p) :)
theorem flagged_counts (s : State) (p : LshPkt) : (flagged s p).counts = s.counts := (rel_flagged s p).frame .counts (by decide)
theorem flagged_tx (s : State) (p : LshPkt) : (flagged s p).tx = s.tx := by unfold flagged; split <;> rfl
theorem flagged_lh (s : State) (p : LshPkt) : (flagged s p).lh = s.lh := (rel_flagged s p).frame .lh (by decide)

theorem flagged_run (s : State) (p : LshPkt) : rdb (flagged s p) LSH_CTL_run = rdb s LSH_CTL_run := run_of_rel (rel_flagged s p)

/-! ### The commands for a packet of the present step -/

/-- A packet of a collective that is whole and belongs to the live epoch and to the present step and try (R286). -/
structure Taken (s : State) (p : LshPkt) : Prop where
  up      : inReset s 0x14 = false
  whole   : p.crcOk = true
  coll    : p.op ≠ 7
  current : current s p = true

section taken
variable {s : State} {p : LshPkt} (h : Taken s p)
include h

theorem exec_data_known {r : CRef} {x : Coll} {g : Geom} (hr : findColl s p = some r) (hx : collAt s r = some x) (hg : collGeom s p.berth x = some g) :
    exec (.collectiveDataReceive p) s = .next (acceptData (flagged s p) r g p false) := by
  have hr' : findColl (flagged s p) p = some r := (findColl_congr (flagged_chans s p) p).trans hr
  have hg' : (collAt (flagged s p) r).bind (collGeom (flagged s p) p.berth) = some g := by
    rw [collAt_congr (flagged_chans s p), hx]
    exact (collGeom_congr (flagged_live s p) p.berth x).trans hg
  refine congrArg _ ((if_neg (by simp [h.up])).trans ((if_neg (by simp [h.whole])).trans ((if_neg h.coll).trans ((if_neg (by simp [h.current])).trans ?_))))
  unfold flagged at hr' hg'
  simp only [hr', hg']
  rfl

/-- Data that comes before its collective has started is accepted and kept (R286). -/
def keepEarly (s : State) (p : LshPkt) : State := modLsh (noteAccept (flagged s p) p) fun l => { l with early := l.early ++ [p] }

/-- The same data has come early already. -/
def cameEarly (s : State) (p : LshPkt) : Bool := s.lsh.early.any fun q =>
  (q.src, q.group, q.cseq, q.berth) = (p.src, p.group, p.cseq, p.berth) && (q.level, q.node, q.chunk) = (p.level, p.node, p.chunk)

theorem exec_data_unknown {g : Group} (hf : findColl s p = none) (hg : groupOf s p.berth p.group = some g) :
    exec (.collectiveDataReceive p) s = .next (if decide (p.cseq < g.cseq) || cameEarly s p then count (flagged s p) 0x1721 1
      else keepEarly s p) := by
  have hf' : findColl (flagged s p) p = none := (findColl_congr (flagged_chans s p) p).trans hf
  have hg' : groupOf (flagged s p) p.berth p.group = some g := by unfold groupOf; rw [flagged_live]; exact hg
  have hearly : ((flagged s p).lsh.early.any fun q => q.src = p.src && q.group = p.group && q.cseq = p.cseq && q.berth = p.berth && q.level = p.level &&
      q.node = p.node && q.chunk = p.chunk) = cameEarly s p := by
    rw [flagged_early, cameEarly]
    refine congrArg (s.lsh.early.any ·) (funext fun q => ?_)
    simp only [Prod.mk.injEq, Bool.decide_and, Bool.and_assoc]
  refine congrArg _ ((if_neg (by simp [h.up])).trans ((if_neg (by simp [h.whole])).trans ((if_neg h.coll).trans ((if_neg (by simp [h.current])).trans ?_))))
  rw [← hearly]
  unfold keepEarly flagged at *
  simp only [hf', hg']

theorem exec_ack_known {r : CRef} (hr : findColl s p = some r) : exec (.collectiveAckReceive p) s = .next (pumpColl (modColl (flagged s p) r fun c =>
    { c with since := (flagged s p).lh.tick, unacked := mset c.unacked p.src (mgetD c.unacked p.src 0 - p.aux) }) r) := by
  have hr' : findColl (flagged s p) p = some r := (findColl_congr (flagged_chans s p) p).trans hr
  refine congrArg _ ((if_neg (by simp [h.up])).trans ((if_neg (by simp [h.whole])).trans ((if_neg h.coll).trans ((if_neg (by simp [h.current])).trans ?_))))
  unfold flagged at hr' ⊢
  simp only [hr']

end taken

/-! ### Data that is accepted (R286, R299, R306) -/

theorem noteAccept_lsh (s : State) (p : LshPkt) : (noteAccept s p).lsh = { s.lsh with
    permute := fmod s.lsh.permute p.berth fun x => { x with accepted := x.accepted + 1 }, close := (noteAccept s p).lsh.close } := by
  unfold noteAccept
  cases p.inv <;> rfl

theorem flagOf_noteAccept (s : State) (p : LshPkt) : flagOf (noteAccept s p) p.berth = (flagOf s p.berth || p.inv) := by
  unfold noteAccept flagOf
  rw [orFlag_close]
  rfl

theorem counts_noteAccept (s : State) (p : LshPkt) (j : Nat) : mgetD (noteAccept s p).counts j 0 =
    if j = 0x1710 + p.berth then mgetD s.counts (0x1710 + p.berth) 0 + BitVec.ofNat 64 p.data.length else mgetD s.counts j 0 := by
  unfold noteAccept
  cases p.inv <;> exact counts_count ..

theorem countsBut_count (s : State) (id n : Nat) : CountsBut [id] s (count s id n) := fun j hj => by
  rw [counts_count, if_neg (by simpa using hj)]

end Sys2Proof.Laws
end

section
/-!
PROOFS. Data that comes early or twice, and acknowledgements (O56).
-/
namespace Sys2Proof.Proofs
open Sys2Proof Sys2Proof.Machine Sys2Proof.Safety Sys2Proof.Laws

/-- A second copy is counted, and nothing else of the collectives changes. -/
theorem duplicate_counted (s : State) (p : LshPkt) : Frame [.counts, .lsh] s (count (flagged s p) 0x1721 1) ∧
    (count (flagged s p) 0x1721 1).lsh = (flagged s p).lsh ∧ mgetD (count (flagged s p) 0x1721 1).counts 0x1721 0 = mgetD s.counts 0x1721 0 + 1 ∧
    CountsBut [0x1721] s (count (flagged s p) 0x1721 1) := by
  refine ⟨(rel_count (rel_orFlag .refl (by decide)) (by decide) : Rel [.counts, .lsh] s _).frame, rfl, ?_, fun j hj => ?_⟩
  · rw [counts_count, if_pos rfl, flagged_counts]
    rfl
  · rw [countsBut_count _ _ _ j hj, flagged_counts]

theorem data_known_duplicate {s : State} {p : LshPkt} {r : CRef} {x : Coll} {g : Geom} {q : Nat} (h : Taken s p) (hr : findColl s p = some r)
    (hx : collAt s r = some x) (hg : collGeom s p.berth x = some g) (hq : g.rankOf p.src = some q) (hpart : hasPart g x (p.level, p.node, p.chunk, q) = true) :
    exec (.collectiveDataReceive p) s = .next (count (flagged s p) 0x1721 1) := by
  rw [exec_data_known h hr hx hg, acceptData, hq, collAt_congr (flagged_chans s p), hx]
  exact congrArg _ (if_pos hpart)

/-- Data of a collective that has not started, which is not a second copy, is kept. -/
theorem keepEarly_effect (s : State) {p : LshPkt} (hb : p.berth < 4) :
    Frame [.counts, .lsh] s (keepEarly s p) ∧ flagOf (keepEarly s p) p.berth = (flagOf s p.berth || p.nf || p.inv) ∧
      (keepEarly s p).lsh.early = s.lsh.early ++ [p] ∧ mgetD (keepEarly s p).counts 0x1721 0 = mgetD s.counts 0x1721 0 ∧
      mgetD (keepEarly s p).counts (0x1710 + p.berth) 0 = mgetD s.counts (0x1710 + p.berth) 0 + BitVec.ofNat 64 p.data.length ∧
      (fget (keepEarly s p).lsh.permute p.berth).accepted = (fget s.lsh.permute p.berth).accepted + 1 ∧
      CountsBut [0x1721, 0x1710 + p.berth] s (keepEarly s p) := by
  have hnote := noteAccept_lsh (flagged s p) p
  have hcounts (j : Nat) : mgetD (keepEarly s p).counts j 0 =
      if j = 0x1710 + p.berth then mgetD s.counts (0x1710 + p.berth) 0 + BitVec.ofNat 64 p.data.length else mgetD s.counts j 0 :=
    (counts_noteAccept (flagged s p) p j).trans (by rw [flagged_counts])
  refine ⟨(rel_modLsh (rel_noteAccept (rel_orFlag .refl (by decide)) (by decide)) (by decide) : Rel [.counts, .lsh] s _).frame, ?_, ?_, ?_, ?_, ?_,
    fun j hj => ?_⟩
  · exact (flagOf_noteAccept (flagged s p) p).trans (by rw [flagOf_flagged])
  · rw [keepEarly, modLsh_lsh, hnote, ← flagged_early s p]
  · rw [hcounts, if_neg (by omega)]
  · rw [hcounts, if_pos rfl]
  · rw [keepEarly, modLsh_lsh, hnote]
    exact (congrArg Permute.accepted (fget_fmod_same ..)).trans (by rw [flagged_permute])
  · rw [hcounts, if_neg (by simp at hj; omega)]

/-- Clause 5: data of a collective that has not started. -/
theorem data_unknown {s : State} {p : LshPkt} {g : Group} {dup : Bool} (h : Taken s p) (hb : p.berth < 4) (hf : findColl s p = none)
    (hg : groupOf s p.berth p.group = some g) (hdup : dup = (decide (p.cseq < g.cseq) || cameEarly s p)) :
    ∃ t, exec (.collectiveDataReceive p) s = .next t ∧ Frame [.counts, .lsh] s t ∧ flagOf t p.berth = (flagOf s p.berth || p.nf || (!dup && p.inv)) ∧
      t.lsh.early = (if dup = true then s.lsh.early else s.lsh.early ++ [p]) ∧
      mgetD t.counts 0x1721 0 = (if dup = true then mgetD s.counts 0x1721 0 + 1 else mgetD s.counts 0x1721 0) ∧
      (dup = false → mgetD t.counts (0x1710 + p.berth) 0 = mgetD s.counts (0x1710 + p.berth) 0 + BitVec.ofNat 64 p.data.length ∧
        (fget t.lsh.permute p.berth).accepted = (fget s.lsh.permute p.berth).accepted + 1) ∧ CountsBut [0x1721, 0x1710 + p.berth] s t := by
  have he := exec_data_unknown h hf hg
  rw [← hdup] at he
  cases dup with
  | true =>
    obtain ⟨hframe, hlsh, hcount, hbut⟩ := duplicate_counted s p
    refine ⟨_, he, hframe, ?_, ?_, hcount, nofun, fun j hj => hbut j (by simp at hj ⊢; exact hj.1)⟩
    · rw [flagOf, if_pos rfl, hlsh, ← flagOf, flagOf_flagged]
      simp
    · rw [if_pos rfl, hlsh, flagged_early]
      rfl
  | false =>
    obtain ⟨hframe, hflag, hearly, hsame, hcount, hacc, hbut⟩ := keepEarly_effect s hb
    exact ⟨_, he, hframe, hflag, hearly, hsame, fun _ => ⟨hcount, hacc⟩, hbut⟩

/-- An acknowledgement opens the window of the device that it comes from (R287). -/
def granted (s : State) (p : LshPkt) (r : CRef) : State :=
  modColl (flagged s p) r fun c => { c with since := (flagged s p).lh.tick, unacked := mset c.unacked p.src (mgetD c.unacked p.src 0 - p.aux) }

theorem collAt_granted {s : State} {r : CRef} {x : Coll} (hx : collAt s r = some x) (p : LshPkt) :
    collAt (granted s p r) r = some { x with since := s.lh.tick, unacked := mset x.unacked p.src (mgetD x.unacked p.src 0 - p.aux) } := by
  rw [granted, collAt_modColl, collAt_congr (flagged_chans s p), hx, flagged_lh]
  rfl

/-- Clause 8: an acknowledgement. -/
theorem ack_known {s : State} {p : LshPkt} {r : CRef} {x : Coll} (h : Taken s p) (hr : findColl s p = some r) (hx : collAt s r = some x) :
    ∃ t, exec (.collectiveAckReceive p) s = .next t ∧ Frame (footprint (.collectiveAckReceive p)) s t ∧ flagOf t p.berth = (flagOf s p.berth || p.nf) ∧
      (x.toSend = [] → collAt t r = some { x with since := s.lh.tick, unacked := mset x.unacked p.src (mgetD x.unacked p.src 0 - p.aux) } ∧ t.tx = s.tx) ∧
      (∀ q ∈ x.toSend.head?, q.1 = p.src → rdb s LSH_CTL_run = true → (fget s.lsh.permute p.berth).phase = 0 →
        mgetD x.unacked p.src 0 - p.aux < rd1 s LSH_WINDOW_packets →
        t.tx.any (fun m => match m with
          | .lsh e y => e == p.src && y == { q.2 with nf := flagOf t p.berth }
          | _ => false) = true) := by
  have he : exec (.collectiveAckReceive p) s = .next (pumpColl (granted s p r) r) := exec_ack_known h hr
  have hworks : Works s (granted s p r) := (works_flagged s p).trans (works_modColl ..)
  have hgranted := collAt_granted hx p
  have hclose : (pumpColl (granted s p r) r).lsh.close = (flagged s p).lsh.close := pumpColl_close ..
  have hberth : r.b = p.berth := findColl_berth hr
  refine ⟨_, he, (rel_of_exec he).frame, ?_, fun hnone => ?_, fun q hq hsrc hrun hphase hwin => ?_⟩
  · rw [flagOf, hclose, ← flagOf, flagOf_flagged]
  · obtain ⟨hcoll, htx⟩ := pumpColl_nothing hgranted hnone
    exact ⟨hcoll, htx.trans (flagged_tx s p)⟩
  · have hopen : (fget (granted s p r).lsh.permute r.b).phase = 0 := by
      rw [hberth]
      exact (congrArg Prod.fst (hworks.fence p.berth)).trans hphase
    have hroom : mgetD (mset x.unacked p.src (mgetD x.unacked p.src 0 - p.aux)) q.1 0 < rd1 (granted s p r) LSH_WINDOW_packets := by
      rw [hsrc, mgetD_mset, if_pos rfl, rd1, hworks.rd _ (by decide)]
      exact hwin
    have hsent := pumpColl_sent (d := q.1) (p := q.2) hgranted ((rdb_of_rd (hworks.rd _ (by decide))).trans hrun) hopen (by simpa using hq) hroom
    refine List.any_eq_true.2 ⟨_, hsent, ?_⟩
    have hflag : flagOf (granted s p r) r.b = flagOf (pumpColl (granted s p r) r) p.berth := by
      rw [flagOf, flagOf, hclose, hberth]
      rfl
    simp [hsrc, hflag]

end Sys2Proof.Proofs
end

section
/-!
SUPPORT. The record of a reduction as nodes arrive (R288): a node that is kept, a packet that is queued, a root that is written, and a DIRECT
reduction of two ranks.
-/
namespace Sys2Proof.Laws
open Sys2Proof Sys2Proof.Machine Sys2Proof.Safety

/-! ### The record after one operation -/

theorem collAt_flagValues (s : State) (b : Nat) (ok : Bool) (r : CRef) : collAt (flagValues s b ok) r = collAt s r := by
  unfold flagValues
  split <;> rfl

theorem flagOf_flagValues {s : State} {b : Nat} {ok : Bool} (h : ok = false) : flagOf (flagValues s b ok) b = true := by
  subst h
  exact congrArg Close.flag (setFlag_close s b)

section record
variable {s : State} {r : CRef} {x : Coll} (hx : collAt s r = some x)
include hx

theorem collAt_modColl_some (f : Coll → Coll) : collAt (modColl s r f) r = some (f x) := by rw [collAt_modColl, hx]; rfl

theorem collAt_putNode (key : Nat) (v : List W32) (inv : Bool) : ∃ is, collAt (putNode s r key v inv) r = some { x with nodes := mset x.nodes key v, invs := is } :=
  ⟨_, collAt_modColl_some hx _⟩

theorem collAt_sendTo (g : Geom) (rank level node chunk : Nat) (inv : Bool) (data : List Byte) : collAt (sendTo s r g rank level node chunk inv data) r =
    some { x with toSend := x.toSend ++ [(g.dev rank, collPkt s r.b x 0 level node chunk 0 inv false data)] } := by
  unfold sendTo
  simp only [hx]
  exact collAt_modColl_some hx _

theorem collAt_writeRoot (g : Geom) (k c : Nat) (v : List W32) : ∃ wr, collAt (writeRoot s r g k c v) r = some { x with written := wr } := by
  unfold writeRoot
  simp only [hx]
  split
  · exact ⟨x.written, hx⟩
  · split
    · exact ⟨_, collAt_modColl_some hx _⟩
    · split
      next hw => exact ⟨_, collAt_modColl_some ((collAt_congr (chans_writePart hw) r).trans hx) _⟩
      next => exact ⟨x.written, hx⟩

end record

/-! ### Siblings that meet, and the root (R288, R289) -/

/-- A node that is no root is kept with the flag of its values. -/
def nodeKept (s : State) (r : CRef) (key : Nat) (v : List W32) (inv : Bool) : State := putNode (flagValues s r.b (allFinite v)) r key v inv

theorem works_nodeKept (s : State) (r : CRef) (key : Nat) (v : List W32) (inv : Bool) : Works s (nodeKept s r key v inv) :=
  (works_flagValues ..).trans (works_putNode ..)

theorem collAt_nodeKept {s : State} {r : CRef} {x : Coll} (hx : collAt s r = some x) (key : Nat) (v : List W32) (inv : Bool) :
    ∃ is, collAt (nodeKept s r key v inv) r = some { x with nodes := mset x.nodes key v, invs := is } :=
  collAt_putNode ((collAt_flagValues s r.b (allFinite v) r).trans hx) key v inv

theorem flagOf_nodeKept {s : State} {r : CRef} {v : List W32} (h : allFinite v = false) (key : Nat) (inv : Bool) : flagOf (nodeKept s r key v inv) r.b = true :=
  (works_putNode ..).flag _ (flagOf_flagValues h)

/-- A node whose sibling is here is combined with it, the even one on the left. -/
theorem addNode_meets {s : State} {r : CRef} {g : Geom} {x : Coll} {level node k c : Nat} {v w : List W32} (hx : collAt s r = some x)
    (hl : level < g.levels) (hh : g.halving = false) (hsib : (node ^^^ 1) * 2 ^ level < g.size) (hne : node ^^^ 1 ≠ node) 
    (hw : mget x.nodes (nodeKey level (node ^^^ 1) (k * g.cmax + c)) = some w) (fuel : Nat) (inv : Bool) :
    ∃ inv', addNode (fuel + 1) s r g level node k c v inv = addNode fuel (nodeKept s r (nodeKey level node (k * g.cmax + c)) v inv) r g (level + 1) (node / 2) k c
      (if node % 2 = 0 then List.zipWith (redOp g.d.red) v w else List.zipWith (redOp g.d.red) w v) inv' := by
  obtain ⟨is, hkept⟩ := collAt_nodeKept hx (nodeKey level node (k * g.cmax + c)) v inv
  have hheld : (collAt (nodeKept s r (nodeKey level node (k * g.cmax + c)) v inv) r).bind (fun x => heldNode x (nodeKey level (node ^^^ 1) (k * g.cmax + c))) =
      some (w, decide (nodeKey level (node ^^^ 1) (k * g.cmax + c) ∈ is)) := by
    rw [hkept]
    show heldNode _ _ = _
    rw [heldNode, mget_mset, if_neg (by unfold nodeKey; omega), hw]
    rfl
  refine ⟨inv || decide (nodeKey level (node ^^^ 1) (k * g.cmax + c) ∈ is), ?_⟩
  unfold nodeKept at *
  rw [addNode]
  simp only [ge_iff_le, if_neg (Nat.not_le.2 hl), hh, Bool.false_and, Bool.false_eq_true, if_false, if_neg (Nat.not_le.2 hsib), hheld]

theorem addNode_root {s : State} {g : Geom} {level : Nat} (hl : g.levels ≤ level) (fuel : Nat) (r : CRef) (node k c : Nat) (v : List W32) (inv : Bool) :
    addNode (fuel + 1) s r g level node k c v inv = deliverRoot (flagValues s r.b (allFinite v)) r g k c v inv := by
  rw [addNode, if_pos hl]

/-! ### A DIRECT reduction of two ranks (R289) -/

/-- A reduction to all, of two ranks, without halving. -/
structure Pair (g : Geom) : Prop where
  op      : g.d.op = 1
  size    : g.size = 2
  levels  : g.levels = 1
  rank    : g.rank < 2
  halving : g.halving = false

/-- The packet that carries the root of a chunk from this rank. -/
def RootPkt (g : Geom) (cseq c : Nat) (root : List W32) (y : LshPkt) : Prop :=
  y.kind = 0 ∧ y.level = 1 ∧ y.node = g.rank ∧ y.chunk = c ∧ y.cseq = cseq ∧ y.data = wordBytes root

/-- What the delivery of a root leaves of the record: the root itself, and its packet for the other rank. -/
structure Delivered (g : Geom) (k c : Nat) (root : List W32) (x y : Coll) : Prop where
  nodes    : y.nodes = mset x.nodes (nodeKey 1 0 (k * g.cmax + c)) root
  accepted : y.accepted = x.accepted
  unacked  : y.unacked = x.unacked
  send     : ∃ p, y.toSend = x.toSend ++ [(g.dev (1 - g.rank), p)] ∧ RootPkt g x.cseq c root p

section pair
variable {g : Geom} (hg : Pair g)
include hg

theorem Pair.unwire (from_ chunk : Nat) : g.unwire 0 from_ chunk = (g.rank, chunk) := by
  unfold Geom.unwire Geom.whole
  simp [hg.levels, hg.halving, hg.op]

theorem Pair.hasPart {x : Coll} {node chunk q : Nat} (h : mget x.nodes (nodeKey 0 node (g.rank * g.cmax + chunk)) = none) :
    hasPart g x (0, node, chunk, q) = false := by
  unfold Machine.hasPart
  simp [hg.unwire, isRed, hg.op, hg.levels, h]

/-- The root is kept, written here, and queued for the other rank. -/
theorem Pair.deliverRoot {s : State} {r : CRef} {x : Coll} (hx : collAt s r = some x) (k c : Nat) (v : List W32) (inv : Bool) :
    ∃ y, collAt (deliverRoot s r g k c v inv) r = some y ∧ Delivered g k c (rootVal g v) x y := by
  have htakers : g.takers k = [0, 1] := by unfold Geom.takers; rw [if_pos hg.op, hg.size]; rfl
  obtain ⟨is, hkept⟩ := collAt_nodeKept hx (nodeKey 1 0 (k * g.cmax + c)) (rootVal g v) inv
  have he : Machine.deliverRoot s r g k c v inv = foldS (fun s q => if q = g.rank then writeRoot s r g k c (rootVal g v)
      else sendTo s r g q 1 g.rank c inv (wordBytes (rootVal g v))) (nodeKept s r (nodeKey 1 0 (k * g.cmax + c)) (rootVal g v) inv) [0, 1] := by
    rw [← htakers, ← hg.levels]
    rfl
  rw [he, foldS, foldS, foldS]
  have hr : g.rank = 0 ∨ g.rank = 1 := by have := hg.rank; omega
  rcases hr with hr | hr
  · obtain ⟨wr, hwr⟩ := collAt_writeRoot hkept g k c (rootVal g v)
    rw [if_pos hr.symm, if_neg (by omega)]
    exact ⟨_, collAt_sendTo hwr .., rfl, rfl, rfl, _, congrArg (fun d => x.toSend ++ [(g.dev d, _)]) (by omega), rfl, rfl, rfl, rfl, rfl, rfl⟩
  · obtain ⟨wr, hwr⟩ := collAt_writeRoot (collAt_sendTo hkept g 0 1 g.rank c inv (wordBytes (rootVal g v))) g k c (rootVal g v)
    rw [if_pos hr.symm, if_neg (by omega)]
    exact ⟨_, hwr, rfl, rfl, rfl, _, congrArg (fun d => x.toSend ++ [(g.dev d, _)]) (by omega), rfl, rfl, rfl, rfl, rfl, rfl⟩

/-- The node of the other rank meets this rank's own, rank 0's on the left. -/
theorem Pair.addNode {s : State} {r : CRef} {x : Coll} (hx : collAt s r = some x) {node c : Nat} {v w u : List W32} (hnode : node = 1 - g.rank)
    (hv : mget x.nodes (nodeKey 0 g.rank (g.rank * g.cmax + c)) = some v)
    (hu : u = if g.rank = 0 then List.zipWith (redOp g.d.red) v w else List.zipWith (redOp g.d.red) w v) (inv : Bool) :
    ∃ y z inv', collAt z r = some y ∧ y.nodes = mset x.nodes (nodeKey 0 node (g.rank * g.cmax + c)) w ∧ y.accepted = x.accepted ∧ y.unacked = x.unacked ∧
      y.toSend = x.toSend ∧ y.cseq = x.cseq ∧ Works (nodeKept s r (nodeKey 0 node (g.rank * g.cmax + c)) w inv) z ∧
      addNode 18 s r g 0 node g.rank c w inv = Machine.deliverRoot z r g g.rank c u inv' := by
  have hsib : node ^^^ 1 = g.rank := by
    have hr : g.rank = 0 ∨ g.rank = 1 := by have := hg.rank; omega
    rcases hr with hr | hr <;> rw [hnode, hr] <;> rfl
  obtain ⟨is, hkept⟩ := collAt_nodeKept hx (nodeKey 0 node (g.rank * g.cmax + c)) w inv
  obtain ⟨inv', hmeet⟩ := addNode_meets (level := 0) (node := node) (k := g.rank) (c := c) (v := w) (w := v) hx (by rw [hg.levels]; decide) hg.halving
    (by have := hg.rank; rw [hsib, hg.size]; omega) (by have := hg.rank; rw [hsib]; omega) (by rw [hsib]; exact hv) 17 inv
  have hu' : (if node % 2 = 0 then List.zipWith (redOp g.d.red) w v else List.zipWith (redOp g.d.red) v w) = u := by
    have := hg.rank
    rw [hu]
    by_cases h : g.rank = 0
    · rw [if_pos h, if_neg (by omega)]
    · rw [if_neg h, if_pos (by omega)]
  rw [hu'] at hmeet
  exact ⟨_, flagValues (nodeKept s r (nodeKey 0 node (g.rank * g.cmax + c)) w inv) r.b (allFinite u), inv', (collAt_flagValues ..).trans hkept, rfl, rfl, rfl,
    rfl, rfl, works_flagValues .., hmeet.trans (addNode_root (level := 0 + 1) (by rw [hg.levels]) 16 ..)⟩

end pair

theorem flagOf_deliverRoot {s : State} {r : CRef} {g : Geom} {v : List W32} (h : allFinite (rootVal g v) = false) (k c : Nat) (inv : Bool) :
    flagOf (deliverRoot s r g k c v inv) r.b = true :=
  (Works.fold (fun _ _ => .ite (works_writeRoot ..) (works_sendTo ..)) _ _).flag _ (flagOf_nodeKept h ..)

/-! ### A data packet that a reduction takes (R286, R287) -/

theorem works_noteAccept (s : State) (p : LshPkt) : Works s (noteAccept s p) :=
  ((works_count s _ _).trans (works_modPerm _ p.berth (f := fun x => { x with accepted := x.accepted + 1 }) fun _ => rfl)).trans (works_orFlag ..)

/-- A data packet of a rank is counted for its item and among those to acknowledge. -/
def dataTaken (s : State) (p : LshPkt) (r : CRef) (q : Nat) : State :=
  modColl (noteAccept s p) r fun c => { c with
    accepted := c.accepted + 1, since := (noteAccept s p).lh.tick, granted := mset c.granted q (mgetD c.granted q 0 + 1) }

theorem works_dataTaken (s : State) (p : LshPkt) (r : CRef) (q : Nat) : Works s (dataTaken s p r q) := (works_noteAccept ..).trans (works_modColl ..)

theorem collAt_dataTaken {s : State} {r : CRef} {x : Coll} (hx : collAt s r = some x) (p : LshPkt) (q : Nat) : ∃ k gr, collAt (dataTaken s p r q) r =
    some { x with accepted := x.accepted + 1, since := k, granted := gr } := by
  have hx' : collAt (noteAccept s p) r = some x := (collAt_congr (by rw [noteAccept_lsh]) r).trans hx
  exact ⟨_, _, collAt_modColl_some hx' _⟩

/-- The words of a packet. -/
def pktWords (p : LshPkt) : List W32 := (chunks 4 p.data).map fun w => BitVec.ofNat 32 (leNat w)

theorem acceptData_node {s : State} {r : CRef} {g : Geom} {p : LshPkt} {q : Nat} {x : Coll} (hq : g.rankOf p.src = some q) (hx : collAt s r = some x)
    (hnew : hasPart g x (p.level, p.node, p.chunk, q) = false) (hred : isRed g.d.op = true) (hl : p.level < g.levels) :
    acceptData s r g p false = pumpColl (ackAll (addNode 18 (dataTaken s p r q) r g p.level p.node (g.unwire p.level q p.chunk).1
      (g.unwire p.level q p.chunk).2 (pktWords p) p.inv) r.b) r := by
  unfold acceptData
  simp only [hq, hx, hnew, hred, Bool.false_eq_true, if_false, if_true, ge_iff_le, if_neg (Nat.not_le.2 hl)]
  rfl

end Sys2Proof.Laws
end

section
/-!
PROOFS. Data in a DIRECT reduction of two ranks (O56).
-/
namespace Sys2Proof.Proofs
open Sys2Proof Sys2Proof.Machine Sys2Proof.Safety Sys2Proof.Laws

/-- What a packet of the other rank leaves in a DIRECT reduction of two ranks, up to the acknowledgements and the window. -/
theorem pair_accepts {s : State} {p : LshPkt} {r : CRef} {x : Coll} {g : Geom} {v u : List W32} (hg : Pair g) (hr : r.b = p.berth) (hx : collAt s r = some x)
    (hq : g.rankOf p.src = some p.node) (hlevel : p.level = 0) (hnode : p.node = 1 - g.rank)
    (hv : mget x.nodes (nodeKey 0 g.rank (g.rank * g.cmax + p.chunk)) = some v)
    (hnew : mget x.nodes (nodeKey 0 p.node (g.rank * g.cmax + p.chunk)) = none)
    (hu : u = if g.rank = 0 then List.zipWith (redOp g.d.red) v (pktWords p) else List.zipWith (redOp g.d.red) (pktWords p) v) :
    ∃ z y, acceptData s r g p false = pumpColl (ackAll z r.b) r ∧ collAt z r = some y ∧ Works s z ∧
      y.nodes = mset (mset x.nodes (nodeKey 0 p.node (g.rank * g.cmax + p.chunk)) (pktWords p)) (nodeKey 1 0 (g.rank * g.cmax + p.chunk)) (rootVal g u) ∧
      y.accepted = x.accepted + 1 ∧ y.unacked = x.unacked ∧
      (∃ m, y.toSend = x.toSend ++ [(g.dev p.node, m)] ∧ RootPkt g x.cseq p.chunk (rootVal g u) m) ∧
      (p.inv = true ∨ allFinite (pktWords p) = false ∨ allFinite (rootVal g u) = false → flagOf z p.berth = true) := by
  obtain ⟨k, gr, htaken⟩ := collAt_dataTaken hx p p.node
  obtain ⟨y, z, inv', hz, hnodes, hacc, hun, hsend, hcseq, hworks, hadd⟩ := hg.addNode htaken hnode hv hu p.inv
  obtain ⟨y', hz', hdel⟩ := hg.deliverRoot hz g.rank p.chunk u inv'
  have hacc' := acceptData_node hq hx (by rw [hlevel]; exact hg.hasPart hnew) (by rw [hg.op]; rfl) (by rw [hlevel, hg.levels]; decide)
  rw [hlevel, hg.unwire, hadd] at hacc'
  obtain ⟨m, hm, hroot⟩ := hdel.send
  refine ⟨_, y', hacc', hz', ((works_dataTaken s p r p.node).trans (works_nodeKept ..)).trans (hworks.trans (works_deliverRoot ..)), ?_, ?_, ?_,
    ⟨m, ?_, ?_⟩, fun h => ?_⟩
  · rw [hdel.nodes, hnodes]
  · rw [hdel.accepted, hacc]
  · rw [hdel.unacked, hun]
  · rw [hm, hsend, hnode]
  · rw [hcseq] at hroot
    exact hroot
  · rw [← hr]
    rcases h with h | h | h
    · refine ((works_nodeKept ..).trans (hworks.trans (works_deliverRoot ..))).flag _ ?_
      have hnote := flagOf_noteAccept s p
      rw [h, Bool.or_true, ← hr] at hnote
      exact hnote
    · exact (hworks.trans (works_deliverRoot ..)).flag _ (flagOf_nodeKept h ..)
    · exact flagOf_deliverRoot h ..

theorem rootVal_two {g : Geom} (hg : Pair g) (u : List W32) :
    rootVal g u = u.map fun y => if g.d.red = 1 then fmul y (fdiv one32 (f32Nat 2)) else y := by
  unfold rootVal
  split <;> simp [hg.size]

/-- Clause 7: data in a DIRECT reduction of two ranks. -/
theorem pair_reduces {s : State} {p : LshPkt} {r : CRef} {x : Coll} {g : Geom} {gc : Nat} {v w root : List W32} {f : W32 → W32 → W32}
    (h : Taken s p) (hr : findColl s p = some r) (hx : collAt s r = some x) (hcg : collGeom s p.berth x = some g) (hg : Pair g)
    (hlevel : p.level = 0) (hnode : p.node = 1 - g.rank) (hq : g.rankOf p.src = some p.node) (hgc : gc = g.rank * g.cmax + p.chunk)
    (hv : mget x.nodes (nodeKey 0 g.rank gc) = some v) (hnew : mget x.nodes (nodeKey 0 p.node gc) = none) (hw : w = pktWords p) (hf : f = redOp g.d.red)
    (hroot : root = (if g.rank = 0 then List.zipWith f v w else List.zipWith f w v).map fun y => if g.d.red = 1 then fmul y (fdiv one32 (f32Nat 2)) else y) :
    ∃ t, exec (.collectiveDataReceive p) s = .next t ∧ Frame (footprint (.collectiveDataReceive p)) s t ∧
      ((collAt t r).bind fun y => mget y.nodes (nodeKey 1 0 gc)) = some root ∧ ((collAt t r).bind fun y => mget y.nodes (nodeKey 0 p.node gc)) = some w ∧
      ((collAt t r).any fun y => y.accepted = x.accepted + 1) = true ∧
      (p.nf = true ∨ p.inv = true ∨ allFinite w = false ∨ allFinite root = false → flagOf t p.berth = true) ∧
      (rdb s LSH_CTL_run = true → (fget s.lsh.permute r.b).phase = 0 → x.toSend = [] → mgetD x.unacked (g.dev p.node) 0 < rd1 s LSH_WINDOW_packets →
        t.tx.any (fun m => match m with
          | .lsh e y => e == g.dev p.node && y.kind == 0 && y.level == 1 && y.node == g.rank && y.chunk == p.chunk && y.cseq == x.cseq && y.data == wordBytes root
          | _ => false) = true) := by
  subst hgc hw hf
  rw [← rootVal_two hg] at hroot
  subst hroot
  obtain ⟨z, y, hacc, hz, hworks, hnodes, haccepted, hun, ⟨m, hsend, hpkt⟩, hflag⟩ :=
    pair_accepts hg (findColl_berth hr) ((collAt_congr (flagged_chans s p) r).trans hx) hq hlevel hnode hv hnew rfl
  obtain ⟨gr, hacks⟩ := (acks_ackAll z r.b).collAt hz
  obtain ⟨l, un, k, hpump⟩ := collAt_pumpColl hacks
  have hall : Works s (ackAll z r.b) := ((works_flagged s p).trans hworks).trans (works_ackAll ..)
  have he := (exec_data_known h hr hx hcg).trans (congrArg _ hacc)
  refine ⟨_, he, (rel_of_exec he).frame, ?_, ?_, ?_, fun h => ?_, fun hrun hphase hnone hwin => ?_⟩
  · rw [hpump]
    show mget y.nodes _ = _
    rw [hnodes, mget_mset, if_pos rfl]
  · rw [hpump]
    show mget y.nodes _ = _
    rw [hnodes, mget_mset, if_neg (by have := hg.rank; unfold nodeKey; omega), mget_mset, if_pos rfl]
  · rw [hpump]
    exact decide_eq_true haccepted
  · rcases h with h | h
    · refine ((hworks.trans (works_ackAll ..)).trans (works_pumpColl ..)).flag _ ?_
      rw [flagOf_flagged, h, Bool.or_true]
    · exact ((works_ackAll ..).trans (works_pumpColl ..)).flag _ (hflag h)
  · have hsent := pumpColl_sent (d := g.dev p.node) (p := m) hacks ((rdb_of_rd (hall.rd _ (by decide))).trans hrun)
      ((congrArg Prod.fst (hall.fence r.b)).trans hphase) (by rw [hsend, hnone]; rfl) (by rw [hun, rd1, hall.rd _ (by decide)]; exact hwin)
    obtain ⟨hkind, hlev, hno, hch, hcs, hdata⟩ := hpkt
    exact List.any_eq_true.2 ⟨_, hsent, by simp [hkind, hlev, hno, hch, hcs, hdata]⟩

end Sys2Proof.Proofs
end

section
/-!
SUPPORT. Requests for data (R300), and the failure of a collective whose source this module lacks (R302).
-/
namespace Sys2Proof.Laws
open Sys2Proof Sys2Proof.Machine Sys2Proof.Safety

/-! ### Numbers in descriptors -/

theorem leNat_lt (bs : List Byte) : leNat bs < 256 ^ bs.length := by
  induction bs with
  | nil => exact Nat.one_pos
  | cons b bs ih =>
    have hb : b.toNat < 256 := b.isLt
    rw [leNat, List.length_cons, Nat.pow_succ]
    omega

theorem fld_lt (bs : List Byte) (o n : Nat) : fld bs o n < 256 ^ n := by
  have h : (slice bs o n).length = n := by
    unfold slice
    simp
  exact (leNat_lt _).trans_eq (by rw [h])

theorem collGeom_group_lt {s : State} {b : Nat} {x : Coll} {g : Geom} (h : collGeom s b x = some g) : g.d.group < 65536 := by
  obtain ⟨grp, -, rfl⟩ := Option.map_eq_some_iff.1 h
  exact fld_lt x.desc 2 2

theorem collGeom_levels {s : State} {b : Nat} {x : Coll} {g : Geom} (h : collGeom s b x = some g) : g.levels = clog2 g.size := by
  obtain ⟨grp, -, rfl⟩ := Option.map_eq_some_iff.1 h
  rfl

theorem clog2_pos {n : Nat} (h : 2 ≤ n) : 0 < clog2 n := Nat.clog_pos (by decide) h

/-! ### What the failure of a collective leaves (R302) -/

theorem failNoted_chans (s : State) (b group low cause : Nat) : (failNoted s b group low cause).lsh.chans = s.lsh.chans := by
  unfold failNoted
  rw [modLsh_lsh, wrs_lsh, wrOr_lsh]
  rfl

theorem failNoted_fields (s : State) (b low cause : Nat) {group : Nat} (hg : group < 65536) (hc : cause < 16) :
    rd (failNoted s b group low cause) LSH_ERR_cause = cause ∧ rd (failNoted s b group low cause) LSH_ERR_group = group := by
  unfold failNoted
  simp only [modLsh_rd, wrs]
  constructor
  · rw [rd_wr_other (by decide) (by decide), rd_wr_same (by decide)]
    exact Nat.mod_eq_of_lt hc
  · rw [rd_wr_other (by decide) (by decide), rd_wr_other (by decide) (by decide), rd_wr_same (by decide)]
    exact Nat.mod_eq_of_lt hg

theorem flagOf_failNoted (s : State) (b group low cause : Nat) : flagOf (failNoted s b group low cause) b = true := by
  unfold flagOf failNoted
  rw [modLsh_lsh, wrs_lsh, wrOr_lsh]
  exact congrArg Close.flag (setFlag_close s b)

theorem chanOf_haltChannels (s : State) (b : Nat) {c : Nat} (hc : c < 16) : chanOf (haltChannels s b) b c = { chanOf s b c with halted := true } := by
  have h (l : List Nat) (t : State) : chanOf (foldS (fun s c => modChan s b c fun x => { x with halted := true }) t l) b c =
      if c ∈ l then { chanOf t b c with halted := true } else chanOf t b c := by
    induction l generalizing t with
    | nil => rfl
    | cons d l ih =>
      rw [foldS, ih, chanOf_modChan]
      by_cases hcd : c = d
      · subst hcd
        simp
      · simp [hcd]
  rw [haltChannels, h, if_pos (List.mem_range.2 hc)]

section failed
variable (s : State) (b low cause : Nat) (seq : W32) {group : Nat}

/-- A failure names its cause and its group, sets the step flag, and halts the berth and its channels. -/
theorem failNamed_record (hg : group < 65536) (hc : cause < 16) : rd (failNamed s b group low cause seq) LSH_ERR_cause = cause ∧
    rd (failNamed s b group low cause seq) LSH_ERR_group = group := by
  obtain ⟨hcause, hgroup⟩ := failNoted_fields s b low cause hg hc
  rw [failNamed_eq]
  have hrd {f : Fld} (hf : f.off ≠ CMD_IRQ_STAT_evt_lost.off) (u : State) (st : Nat) (q : W32) (d : List Byte) (code : Nat) :
      rd (haltChannels (event u b code st q d) b) f = rd u f :=
    (rd_congr ((rel_haltChannels .refl fun _ h => h : Rel [.lsh] _ _).frame .regs (by decide)) (rel_haltChannels .refl fun _ h => h : Rel [.lsh] _ _).variant f).trans
      (rd_of_regsBut (regsBut_event u b code st q d) (by simpa using hf))
  exact ⟨by rw [haltFor_rd _ _ _ _ (by decide), hrd (by decide), hcause], by rw [haltFor_rd _ _ _ _ (by decide), hrd (by decide), hgroup]⟩

theorem chanOf_failNamed {c : Nat} (hc : c < 16) : chanOf (failNamed s b group low cause seq) b c = { chanOf s b c with halted := true } := by
  rw [failNamed_eq, chanOf_congr (congrArg Longshore.chans (haltFor_lsh ..)), chanOf_haltChannels _ _ hc, chanOf_congr (s := s)]
  rw [event_lsh, failNoted_chans]

theorem failNamed_halted : fget (failNamed s b group low cause seq).shelf.halted b = true := by
  rw [failNamed_eq, haltFor_shelf]
  exact fget_fset_same ..

theorem flagOf_failNamed : flagOf (failNamed s b group low cause seq) b = true := by
  rw [failNamed_eq]
  exact ((works_event ..).trans ((works_haltChannels ..).trans (works_haltFor ..))).flag _ (flagOf_failNoted ..)

end failed

theorem bare_halted (x : LChan) : (bare x).halted = x.halted := rfl
theorem bare_active (x : LChan) : (bare x).active = x.active.map ungrant := rfl

section acknowledged
variable (s : State) (b : Nat)

theorem ackAll_field {f : Fld} (hf : f.off ≠ CLF_IRQ_STAT_unreach.off) : rd (ackAll s b) f = rd s f := rd_of_regsBut (acks_ackAll s b).regs (by simpa using hf)

theorem ackAll_shelf : (ackAll s b).shelf = s.shelf :=
  (rel_ackAll .refl fun _ h => h : Rel [.tx, .regs, .counts, .clf, .lsh] s (ackAll s b)).frame .shelf (by decide)

theorem ackAll_halted (k : Nat) : (chanOf (ackAll s b) b k).halted = (chanOf s b k).halted := by
  rw [← bare_halted, (acks_ackAll s b).bare, bare_halted]

theorem ackAll_active (k : Nat) : (chanOf (ackAll s b) b k).active.map ungrant = (chanOf s b k).active.map ungrant := by
  rw [← bare_active, (acks_ackAll s b).bare, bare_active]

end acknowledged

/-- The lowest rank that a collective still waits for. -/
def lowMissing (g : Geom) (x : Coll) : Nat := lowest ((missingParts g x).map fun m => m.2.2.2)

theorem failColl_eq (s : State) (r : CRef) (x : Coll) (g : Geom) (cause : Nat) :
    failColl s r x g cause = ackAll (failNamed (removeColl s r) r.b g.d.group (lowMissing g x) cause g.d.seq) r.b := rfl

theorem failColl_record (s : State) (r : CRef) (x : Coll) {g : Geom} (hg : g.d.group < 65536) {cause : Nat} (hcause : cause < 16) :
    rd (failColl s r x g cause) LSH_ERR_cause = cause ∧ rd (failColl s r x g cause) LSH_ERR_group = g.d.group := by
  obtain ⟨hrec, hgrp⟩ := failNamed_record (removeColl s r) r.b (lowMissing g x) cause g.d.seq hg hcause
  rw [failColl_eq, ackAll_field _ _ (by decide), ackAll_field _ _ (by decide)]
  exact ⟨hrec, hgrp⟩

theorem flagOf_failColl (s : State) (r : CRef) (x : Coll) (g : Geom) (cause : Nat) : flagOf (failColl s r x g cause) r.b = true := by
  rw [failColl_eq]
  exact (works_ackAll ..).flag _ (flagOf_failNamed ..)

theorem failColl_halted (s : State) (r : CRef) (x : Coll) (g : Geom) (cause : Nat) : fget (failColl s r x g cause).shelf.halted r.b = true := by
  rw [failColl_eq, ackAll_shelf, failNamed_halted]

theorem failColl_chan_halted (s : State) (r : CRef) (x : Coll) (g : Geom) (cause : Nat) {k : Nat} (hk : k < 16) :
    (chanOf (failColl s r x g cause) r.b k).halted = true := by
  rw [failColl_eq, ackAll_halted, chanOf_failNamed _ _ _ _ _ hk]

/-- A collective that fails leaves its channel. -/
theorem failColl_active (s : State) {r : CRef} (hc : r.c < 16) (x : Coll) (g : Geom) (cause : Nat) :
    (chanOf (failColl s r x g cause) r.b r.c).active.map ungrant = ((chanOf s r.b r.c).active.eraseIdx r.i).map ungrant := by
  rw [failColl_eq, ackAll_active, chanOf_failNamed _ _ _ _ _ hc, removeColl, chanOf_modChan, if_pos rfl]

/-! ### The data of a node that this module can read again (R300) -/

theorem readH_flagged (s : State) (p : LshPkt) (h : Hdl) (off n : Nat) : readH (flagged s p) h off n = readH s h off n := by
  unfold flagged
  split <;> rfl

theorem allocated_flagged (s : State) (p : LshPkt) (b : Nat) (h : Hdl) : allocated (flagged s p) b h = allocated s b h := by
  unfold flagged
  split <;> rfl

/-- The chunk of the own contribution, read from the source again, with whether it is invalid. -/
def ownChunk (s : State) (x : Coll) (g : Geom) (a m : Nat) : List Byte × Bool :=
  let raw := readH s x.src (a * esz g.d.fin) (m * esz g.d.fin)
  (wordBytes ((chunks (esz g.d.fin) raw.1).map fun l => widen g.d.fin (leNat l)), raw.2)

/-- This rank's own node of a reduction to all, which is not held, comes from the source or not at all. -/
theorem rebuild_own {s : State} {b : Nat} {g : Geom} {x : Coll} {p : LshPkt} {q : Nat} (hsrc : x.srcRank = g.rank) (hop : g.d.op = 1) (hl : 0 < g.levels)
    (hh : g.halving = false) (hlevel : p.level = 0) (hnode : p.node = g.rank) (hq : g.rankOf p.src = some q)
    (hnew : mget x.nodes (nodeKey 0 g.rank (q * g.cmax + p.chunk)) = none) :
    rebuild s b g x p = if allocated s b x.src = true then
      some (ownChunk s x g (q * cdiv g.d.count g.size + p.chunk * 1792) (min 1792 (g.len q - p.chunk * 1792))) else none := by
  have hu : ({ g with rank := q } : Geom).unwire 0 g.rank p.chunk = (q, p.chunk) := by
    unfold Geom.unwire Geom.whole
    simp [hh, hop, Nat.not_le.2 hl]
  have hstart : g.start q = q * cdiv g.d.count g.size := by
    unfold Geom.start Geom.whole Geom.sh
    simp [hop]
  have hred : isRed g.d.op = true := by rw [hop]; rfl
  unfold rebuild
  simp only [hred, hlevel, hnode, hq, hsrc, hu, hstart, Option.getD_some, heldNode, hnew, Option.map_none, ge_iff_le, if_neg (Nat.not_le.2 hl), Bool.not_true,
    Bool.false_eq_true, if_false, decide_true, Bool.true_and]
  cases allocated s b x.src <;> rfl

theorem answerReq_some {s : State} {g : Geom} {x : Coll} {p : LshPkt} {y : List Byte × Bool} (h : rebuild s p.berth g x p = some y) :
    answerReq s g x p = some (lshSend s p.src { collPkt s p.berth x 0 p.level p.node p.chunk 0 y.2 true y.1 with epoch := p.epoch }) := by
  unfold answerReq
  rw [h]

theorem answerReq_none {s : State} {g : Geom} {x : Coll} {p : LshPkt} (h : rebuild s p.berth g x p = none) (hlevel : p.level = 0) (hred : isRed g.d.op = true) :
    answerReq s g x p = none := by
  unfold answerReq
  rw [h]
  exact if_pos (by simp [hlevel, hred])

theorem exec_req_known {s : State} {p : LshPkt} {r : CRef} {x : Coll} {g : Geom} {o : Option State} (h : Taken s p) (hr : findColl s p = some r)
    (hx : collAt s r = some x) (hg : collGeom s p.berth x = some g) (ho : answerReq (flagged s p) g x p = o) : exec (.collectiveReqReceive p) s =
      .next (o.getD (failColl (flagged s p) r x g 3)) := by
  have hr' : findColl (flagged s p) p = some r := (findColl_congr (flagged_chans s p) p).trans hr
  have hx' : collAt (flagged s p) r = some x := (collAt_congr (flagged_chans s p) r).trans hx
  have hg' : collGeom (flagged s p) p.berth x = some g := (collGeom_congr (flagged_live s p) p.berth x).trans hg
  refine congrArg _ ((if_neg (by simp [h.up])).trans ((if_neg (by simp [h.whole])).trans ((if_neg h.coll).trans ((if_neg (by simp [h.current])).trans ?_))))
  unfold flagged at *
  simp only [hr', hx', hg', ho]
  cases o with
  | none => rw [Option.getD_none]
  | some t => rw [Option.getD_some]

end Sys2Proof.Laws
end

section
/-!
PROOFS. A request for this rank's own node (O56).
-/
namespace Sys2Proof.Proofs
open Sys2Proof Sys2Proof.Machine Sys2Proof.Safety Sys2Proof.Laws

/-- Clause 9: a request for this rank's own node. -/
theorem request_own {s : State} {p : LshPkt} {r : CRef} {x : Coll} {g : Geom} {q a m : Nat} (h : Taken s p) (hrun : rdb s LSH_CTL_run = true)
    (hr : findColl s p = some r) (hc : r.c < 16) (hx : collAt s r = some x) (hg : collGeom s p.berth x = some g) (hsrc : x.srcRank = g.rank) (hop : g.d.op = 1)
    (hsize : 2 ≤ g.size) (hh : g.halving = false) (hlevel : p.level = 0) (hnode : p.node = g.rank) (hq : g.rankOf p.src = some q)
    (hnew : mget x.nodes (nodeKey 0 g.rank (q * g.cmax + p.chunk)) = none) (ha : a = q * cdiv g.d.count g.size + p.chunk * 1792)
    (hm : m = min 1792 (g.len q - p.chunk * 1792)) :
    ∃ t, exec (.collectiveReqReceive p) s = .next t ∧ Frame (footprint (.collectiveReqReceive p)) s t ∧
      if allocated s r.b x.src = true then
        t.tx.any (fun y => match y with
          | .lsh e y => e == p.src && y.kind == 0 && y.retx && y.level == 0 && y.node == g.rank && y.chunk == p.chunk && y.cseq == x.cseq &&
              y.inv == (readH s x.src (a * esz g.d.fin) (m * esz g.d.fin)).2 &&
              y.data == wordBytes ((chunks (esz g.d.fin) (readH s x.src (a * esz g.d.fin) (m * esz g.d.fin)).1).map fun l => widen g.d.fin (leNat l))
          | _ => false) = true ∧ t.shelf = s.shelf ∧ t.quay = s.quay
      else rd t LSH_ERR_cause = 3 ∧ rd t LSH_ERR_group = g.d.group ∧ flagOf t r.b = true ∧ fget t.shelf.halted r.b = true ∧ (∀ k, k < 16 → (chanOf t r.b k).halted = true) ∧
        ((chanOf t r.b r.c).active.map fun y => (y.desc, y.cseq, y.nodes)) = (((chanOf s r.b r.c).active.eraseIdx r.i).map fun y => (y.desc, y.cseq, y.nodes)) := by
  have hberth : r.b = p.berth := findColl_berth hr
  have hown := rebuild_own (s := flagged s p) (b := p.berth) hsrc hop (by rw [collGeom_levels hg]; exact clog2_pos hsize) hh hlevel hnode hq hnew
  rw [← ha, ← hm, allocated_flagged, ← hberth] at hown
  cases hall : allocated s r.b x.src with
  | true =>
    rw [hall, if_pos rfl, hberth] at hown
    have he := exec_req_known h hr hx hg (answerReq_some hown)
    have hrel : Rel [.tx, .regs, .counts, .clf, .lsh] s (lshSend (flagged s p) p.src { collPkt (flagged s p) p.berth x 0 p.level p.node p.chunk 0
        (ownChunk (flagged s p) x g a m).2 true (ownChunk (flagged s p) x g a m).1 with epoch := p.epoch }) :=
      rel_lshSend (rel_orFlag .refl (by decide)) (by decide)
    refine ⟨_, he, (rel_of_exec he).frame, ?_⟩
    rw [if_pos rfl]
    refine ⟨List.any_eq_true.2 ⟨_, lsh_mem_lshSend ((flagged_run s p).trans hrun) _ _, ?_⟩, hrel.frame .shelf (by decide), hrel.frame .quay (by decide)⟩
    simp [collPkt, ownChunk, readH_flagged, hlevel, hnode]
  | false =>
    rw [hall, if_neg (by decide), hberth] at hown
    have he := exec_req_known h hr hx hg (answerReq_none hown hlevel (by rw [hop]; rfl))
    rw [Option.getD_none] at he
    obtain ⟨hcause, hgroup⟩ := failColl_record (flagged s p) r x (collGeom_group_lt hg) (cause := 3) (by decide)
    have hnames (l : List Coll) : l.map (fun y => (y.desc, y.cseq, y.nodes)) = (l.map ungrant).map fun y => (y.desc, y.cseq, y.nodes) := by
      rw [List.map_map]
      rfl
    refine ⟨_, he, (rel_of_exec he).frame, ?_⟩
    rw [if_neg (by decide)]
    refine ⟨hcause, hgroup, flagOf_failColl .., failColl_halted .., fun k hk => failColl_chan_halted _ _ _ _ _ hk, ?_⟩
    rw [hnames, hnames (List.eraseIdx ..), ← chanOf_congr (flagged_chans s p), failColl_active _ hc]

end Sys2Proof.Proofs
end

section
/-!
SUPPORT. The rounds of a PERMUTE's fence and move (R299): this member's sums, and the sums that arrive.
-/
namespace Sys2Proof.Laws
open Sys2Proof Sys2Proof.Machine Sys2Proof.Safety

/-! ### Sums in the tree -/

theorem sends_sendSum (s : State) (b : Nat) (role : PermRole) (rank phase round level node : Nat) (v : W64 × W64) :
    Sends s (sendSum s b role rank phase round level node v) := sends_lshSend ..

@[simp] theorem putSum_permute (s : State) (b key : Nat) (v : W64 × W64) :
    (putSum s b key v).lsh.permute = fset s.lsh.permute b { fget s.lsh.permute b with got := mset (fget s.lsh.permute b).got key v } := rfl

/-- The first node of a member in the tree goes to its neighbour when its rank is odd, and waits for its sibling otherwise. -/
theorem climbOwn_first {s : State} {b : Nat} {role : PermRole} {x : Permute} {v : W64 × W64} (hx : fget s.lsh.permute b = x)
    (hv : mget x.got (countKey x.phase x.round 0 role.rank) = some v) (hsize : 2 ≤ (parseGrp role.old.entry).size)
    (hcase : role.rank % 2 = 1 ∨ (role.rank + 1 < (parseGrp role.old.entry).size ∧ mget x.got (countKey x.phase x.round 0 (role.rank + 1)) = none)) :
    climbOwn s b role = if role.rank % 2 = 1 then
      sendSum (putSum s b (countKey x.phase x.round 0 role.rank) v) b role (role.rank - 1) x.phase x.round 0 role.rank v
      else putSum s b (countKey x.phase x.round 0 role.rank) v := by
  have hlow : ¬ 0 ≥ clog2 (parseGrp role.old.entry).size := Nat.not_le.2 (clog2_pos hsize)
  unfold climbOwn
  simp only [hx, hv]
  rw [climb]
  simp only [hx, if_neg hlow, pow_zero, Nat.mul_one]
  by_cases hodd : role.rank % 2 = 1
  · rw [if_pos hodd, if_pos hodd]
  · obtain ⟨hin, hnone⟩ := hcase.resolve_left hodd
    rw [if_neg hodd, if_neg hodd, if_neg (Nat.not_le.2 hin)]
    simp only [hnone]

/-- The packet with a node's sums. -/
def sumPkt (s : State) (b : Nat) (role : PermRole) (phase round level node : Nat) (v : W64 × W64) : LshPkt :=
  { permPkt s b (parseGrp role.old.entry).epoch 5 node round (toLe 8 v.1.toNat ++ toLe 8 v.2.toNat ++ toLe 1 phase) with level := level }

theorem sendSum_sent {s : State} (hrun : rdb s LSH_CTL_run = true) (b : Nat) (role : PermRole) (rank phase round level node : Nat) (v : W64 × W64) :
    Tx.lsh (nth role.old.members rank 0) (sumPkt s b role phase round level node v) ∈ (sendSum s b role rank phase round level node v).tx :=
  lsh_mem_lshSend hrun _ _

/-! ### COUNT_ROUND -/

/-- No round runs. -/
theorem exec_countRound_idle {s : State} {b : Nat}
    (h : (fget s.lsh.permute b).phase = 0 ∨ permRole s b = none ∨ inReset s 0x14 = true ∨ rdb s LSH_CTL_run = false) : exec (.countRound b) s = .next s := by
  rw [show exec (.countRound b) s = execCountRound b s from rfl]
  unfold execCountRound
  cases hrole : permRole s b with
  | none => rfl
  | some role =>
    have hidle : ((fget s.lsh.permute b).phase = 0 || inReset s 0x14 || !rdb s LSH_CTL_run) = true := by simpa [hrole, or_assoc] using h
    exact congrArg _ (if_pos hidle)

/-- The own sums of a phase. -/
def ownSums (x : Permute) : W64 × W64 := if x.phase = 1 then (x.sent, x.accepted) else (x.moveSent, x.moveAcc)

/-- The record of a PERMUTE when a new round begins. -/
def newRound (x : Permute) (rank : Nat) : Permute :=
  { x with round := x.round + 1, waiting := true, got := mset x.got (countKey x.phase (x.round + 1) 0 rank) (ownSums x) }

/-- The state in which a member's sums of a round climb: of the round in hand, or of a new one. -/
def roundBegun (s : State) (b : Nat) (role : PermRole) : State :=
  if (fget s.lsh.permute b).waiting then s else modPerm s b fun _ => newRound (fget s.lsh.permute b) role.rank

theorem exec_countRound {s : State} {b : Nat} {role : PermRole} (hphase : (fget s.lsh.permute b).phase ≠ 0) (hr : inReset s 0x14 = false)
    (hrun : rdb s LSH_CTL_run = true) (hrole : permRole s b = some role) : exec (.countRound b) s = .next (climbOwn (roundBegun s b role) b role) := by
  have hopen : ¬ ((fget s.lsh.permute b).phase = 0 || inReset s 0x14 || !rdb s LSH_CTL_run) = true := by simp [hphase, hr, hrun]
  rw [show exec (.countRound b) s = execCountRound b s from rfl]
  unfold execCountRound roundBegun
  simp only [hrole]
  rw [if_neg hopen]
  by_cases hw : (fget s.lsh.permute b).waiting = true
  · rw [if_pos hw, if_pos hw]
  · rw [if_neg hw, if_neg hw]
    rfl

theorem roundBegun_permute {s : State} {b : Nat} {role : PermRole} {x : Permute} {v : W64 × W64} {r : Nat} (hx : x = fget s.lsh.permute b)
    (hr : r = if x.waiting then x.round else x.round + 1) (hwait : x.waiting = true → mget x.got (countKey x.phase r 0 role.rank) = some v)
    (hown : x.waiting = false → v = ownSums x) : ∃ gt, fget (roundBegun s b role).lsh.permute b = { x with round := r, waiting := true, got := gt } ∧
      mget gt (countKey x.phase r 0 role.rank) = some v ∧
      mget gt (countKey x.phase r 0 (role.rank + 1)) = mget x.got (countKey x.phase r 0 (role.rank + 1)) := by
  unfold roundBegun
  rw [← hx]
  cases hw : x.waiting with
  | true =>
    rw [hw, if_pos rfl] at hr
    subst hr
    exact ⟨x.got, by rw [if_pos rfl, ← hx, ← hw], hwait hw, rfl⟩
  | false =>
    rw [hw, if_neg Bool.false_ne_true] at hr
    subst hr
    refine ⟨mset x.got (countKey x.phase (x.round + 1) 0 role.rank) (ownSums x), ?_, ?_, ?_⟩
    · rw [if_neg Bool.false_ne_true]
      exact fget_fmod_same ..
    · rw [mget_mset, if_pos rfl, hown hw]
    · rw [mget_mset, if_neg (by unfold countKey; omega)]

/-- A round that opens changes nothing but the record of its PERMUTE. -/
theorem roundBegun_keeps (s : State) (b : Nat) (role : PermRole) : (roundBegun s b role).lsh = { s.lsh with permute := (roundBegun s b role).lsh.permute } ∧
    (roundBegun s b role).mem = s.mem ∧ (roundBegun s b role).tx = s.tx ∧ (roundBegun s b role).regs = s.regs ∧ (roundBegun s b role).variant = s.variant := by
  unfold roundBegun
  split <;> exact ⟨rfl, rfl, rfl, rfl, rfl⟩

/-! ### COUNT_RECEIVE -/

/-- A COUNT packet that is whole, of the old epoch, the present step and try, and of the phase in hand. -/
structure Counted (s : State) (p : LshPkt) (n : Nat) (g : Group) : Prop where
  up    : inReset s 0x14 = false
  whole : p.crcOk = true
  group : closeGroup s p.berth = some (n, g)
  runs  : (fget s.lsh.permute p.berth).phase ≠ 0
  phase : fld p.data 16 1 = (fget s.lsh.permute p.berth).phase
  epoch : p.epoch = (parseGrp g.entry).epoch
  step  : p.step.toNat = (fget s.upd.steps p.berth).toNat % 2 ^ 32
  try_  : p.try_ = tryOf s p.berth

theorem exec_count_stale {s : State} {p : LshPkt} (hr : inReset s 0x14 = false) (hp : p.crcOk = true)
    (h : fld p.data 16 1 = 0 ∨ fld p.data 16 1 < (fget s.lsh.permute p.berth).phase ∨
      ((closeGroup s p.berth).any fun g => p.epoch = (parseGrp g.2.entry).epoch) = false ∨
      p.step.toNat ≠ (fget s.upd.steps p.berth).toNat % 2 ^ 32 ∨ p.try_ ≠ tryOf s p.berth) : exec (.countReceive p) s = .next (staleDrop s) := by
  refine congrArg _ ((if_neg (by simp [hr])).trans ((if_neg (by simp [hp])).trans ?_))
  cases hg : closeGroup s p.berth with
  | none => rfl
  | some g =>
    refine if_pos ?_
    simp only [hg, Option.any_some, decide_eq_false_iff_not] at h
    simp only [Bool.or_eq_true, decide_eq_true_eq]
    tauto

end Sys2Proof.Laws
end

section
/-!
PROOFS. The first step of a COUNT round, and stale sums (O56).
-/
namespace Sys2Proof.Proofs
open Sys2Proof Sys2Proof.Machine Sys2Proof.Safety Sys2Proof.Laws

/-- Clause 11: this member's sums of a round. -/
theorem countRound_climbs {s : State} {b r size : Nat} {role : PermRole} {x : Permute} {v : W64 × W64} (hx : x = fget s.lsh.permute b) (hphase : x.phase ≠ 0)
    (hup : inReset s 0x14 = false) (hrun : rdb s LSH_CTL_run = true) (hrole : permRole s b = some role) (hs : size = (parseGrp role.old.entry).size)
    (hsize : 2 ≤ size) (hr : r = if x.waiting then x.round else x.round + 1)
    (hwait : x.waiting = true → mget x.got (countKey x.phase r 0 role.rank) = some v) (hown : x.waiting = false → v = ownSums x)
    (hcase : role.rank % 2 = 1 ∨ (role.rank + 1 < size ∧ mget x.got (countKey x.phase r 0 (role.rank + 1)) = none)) :
    ∃ t, exec (.countRound b) s = .next t ∧ Frame (footprint (.countRound b)) s t ∧ t.mem = s.mem ∧ t.lsh.live = s.lsh.live ∧ t.lsh.chans = s.lsh.chans ∧
      fget t.lsh.permute b = { x with round := r, waiting := true, got := (fget t.lsh.permute b).got } ∧
      mget (fget t.lsh.permute b).got (countKey x.phase r 0 role.rank) = some v ∧
      if role.rank % 2 = 1 then
        t.tx.any (fun m => match m with
          | .lsh e p => e == nth role.old.members (role.rank - 1) 0 && p.kind == 5 && p.op == 7 && p.level == 0 && p.chunk == r && p.node == role.rank &&
              p.epoch == (parseGrp role.old.entry).epoch && p.data == toLe 8 v.1.toNat ++ toLe 8 v.2.toNat ++ toLe 1 x.phase
          | _ => false) = true
      else t.tx = s.tx := by
  subst hs
  obtain ⟨gt, hopen, hgot, hnext⟩ := roundBegun_permute hx hr hwait hown
  obtain ⟨hlsh, hmem, htx, hregs, hvar⟩ := roundBegun_keeps s b role
  have he := exec_countRound (hx ▸ hphase) hup hrun hrole
  have hclimb := climbOwn_first (role := role) (v := v) hopen hgot hsize (hcase.imp_right fun h => ⟨h.1, hnext.trans h.2⟩)
  rw [hclimb] at he
  have hrun' : rdb (roundBegun s b role) LSH_CTL_run = true := (rdb_of_rd (rd_congr hregs hvar _)).trans hrun
  generalize roundBegun s b role = z at *
  have hkept : fget (putSum z b (countKey x.phase r 0 role.rank) v).lsh.permute b =
      { x with round := r, waiting := true, got := mset gt (countKey x.phase r 0 role.rank) v } := by
    rw [putSum_permute, fget_fset_same, hopen]
  have hlive : (putSum z b (countKey x.phase r 0 role.rank) v).lsh.live = s.lsh.live := (congrArg Longshore.live hlsh :)
  have hchans : (putSum z b (countKey x.phase r 0 role.rank) v).lsh.chans = s.lsh.chans := (congrArg Longshore.chans hlsh :)
  by_cases hodd : role.rank % 2 = 1
  · rw [if_pos hodd] at he
    have hsends := sends_sendSum (putSum z b (countKey x.phase r 0 role.rank) v) b role (role.rank - 1) x.phase r 0 role.rank v
    refine ⟨_, he, (rel_of_exec he).frame, (hsends.rel.same_mem (by decide) (by decide)).trans hmem, hsends.live.trans hlive, hsends.chans.trans hchans, ?_, ?_, ?_⟩
    · rw [hsends.permute, hkept]
    · rw [hsends.permute, hkept]
      exact (mget_mset ..).trans (if_pos rfl)
    · rw [if_pos hodd]
      refine List.any_eq_true.2 ⟨_, sendSum_sent ((rdb_of_rd (modLsh_rd ..)).trans hrun') .., ?_⟩
      simp [sumPkt, permPkt]
  · rw [if_neg hodd] at he
    refine ⟨_, he, (rel_of_exec he).frame, hmem, hlive, hchans, ?_, ?_, ?_⟩
    · rw [hkept]
    · rw [hkept]
      exact (mget_mset ..).trans (if_pos rfl)
    · rw [if_neg hodd]
      exact htx

/-- Clause 12: a COUNT packet of another phase, epoch, step or try. -/
theorem count_stale {s : State} {p : LshPkt} (hr : inReset s 0x14 = false) (hp : p.crcOk = true)
    (h : fld p.data 16 1 = 0 ∨ fld p.data 16 1 < (fget s.lsh.permute p.berth).phase ∨
      ((closeGroup s p.berth).any fun g => p.epoch = (parseGrp g.2.entry).epoch) = false ∨
      p.step.toNat ≠ (fget s.upd.steps p.berth).toNat % 2 ^ 32 ∨ p.try_ ≠ tryOf s p.berth) :
    ∃ t, exec (.countReceive p) s = .next t ∧ Frame [.regs, .counts] s t ∧ RegsBut [LSH_IRQ_STAT_stale.off] s t ∧ rdb t LSH_IRQ_STAT_stale = true ∧
      mgetD t.counts 0x1720 0 = mgetD s.counts 0x1720 0 + 1 := by
  obtain ⟨hframe, hregs, -, hbit, hcount⟩ := staleDrop_effect s
  exact ⟨_, exec_count_stale hr hp h, hframe, hregs, hbit, hcount⟩

end Sys2Proof.Proofs
end

section
/-!
SUPPORT. What ends a round (R299): totals that differ, totals that agree after the fence, and the install; the maps that the install makes.
-/
namespace Sys2Proof.Laws
open Sys2Proof Sys2Proof.Machine Sys2Proof.Safety

/-! ### Maps -/

theorem fset_fset {α : Type} (q : Four α) (i : Nat) (a b : α) : fset (fset q i a) i b = fset q i b := by rcases i with _ | _ | _ | i <;> rfl

theorem mget_mfilter {α : Type} (f : Nat → Bool) (m : NMap α) (k : Nat) : mget (mfilter m fun i _ => f i) k = if f k then mget m k else none := by
  induction m with
  | nil => simp [mfilter, mget]
  | cons d m ih =>
    obtain ⟨i, v⟩ := d
    rw [show mfilter ((i, v) :: m) (fun i _ => f i) = if f i then (i, v) :: mfilter m (fun i _ => f i) else mfilter m (fun i _ => f i) from List.filter_cons ..]
    by_cases hi : i = k
    · subst hi
      cases hf : f i <;> simp [mget, hf, ih]
    · cases hf : f i <;> simp [mget, hi, ih]

section foldl
variable {α β : Type} (h : Nat × α → β)

theorem mget_foldl_mset_other (l : List (Nat × α)) (m : NMap β) {k : Nat} (hk : ∀ q ∈ l, q.1 ≠ k) :
    mget (l.foldl (fun m q => mset m q.1 (h q)) m) k = mget m k := by
  induction l generalizing m with
  | nil => rfl
  | cons q l ih => rw [List.foldl_cons, ih _ fun y hy => hk y (List.mem_cons_of_mem _ hy), mget_mset, if_neg (hk q (List.mem_cons_self ..)).symm]

theorem mget_foldl_mset_mem (l : List (Nat × α)) (hl : (l.map Prod.fst).Nodup) (m : NMap β) {q : Nat × α} (hq : q ∈ l) :
    mget (l.foldl (fun m q => mset m q.1 (h q)) m) q.1 = some (h q) := by
  induction l generalizing m with
  | nil => cases hq
  | cons y l ih =>
    rw [List.map_cons, List.nodup_cons] at hl
    rw [List.foldl_cons]
    rcases List.mem_cons.1 hq with rfl | hq
    · rw [mget_foldl_mset_other h l _ fun z hz he => hl.1 (List.mem_map.2 ⟨z, hz, he⟩), mget_mset, if_pos rfl]
    · exact ih hl.2 _ hq

end foldl

/-! ### The install (R299) -/

/-- A staged group with the collective number of the entry that it replaces. -/
def renumbered (s : State) (b : Nat) (q : Nat × Group) : Group :=
  { q.2 with cseq := ((mget (mfilter s.lsh.live fun k _ => k / 65536 = b) q.1).map fun o => o.cseq).getD 0 }

/-- The staged entries of a berth are live, and the PERMUTE is over. -/
def installed (s : State) (b : Nat) : State :=
  wrOr (modLsh s fun l => { l with
    live := (l.staged.filter fun q => q.1 / 65536 = b).foldl (fun m q => mset m q.1 (renumbered s b q)) (mfilter l.live fun k _ => k / 65536 ≠ b)
    staged := mfilter l.staged fun k _ => k / 65536 ≠ b
    permute := fset l.permute b Permute.none }) LSH_IRQ_STAT_permute_done 1

/-- The signal of a collective's end. -/
def signalled (s : State) (b : Nat) (d : CollD) : State := if d.sigEn then bumpSlot s b d.sigSlot 1 else s

/-- The event of a PERMUTE's end. -/
def told (s : State) (b : Nat) (d : CollD) : State := if d.event then event s b 0x0003 stOK d.seq (toBe 2 d.group) else s

theorem permInstall_eq (s : State) (b : Nat) : permInstall s b =
    told (signalled (carryOver (installed s b) b (fget s.lsh.permute b).entries (mfilter s.lsh.live fun k _ => k / 65536 = b)) b
      (parseColl (fget s.lsh.permute b).desc)) b (parseColl (fget s.lsh.permute b).desc) := rfl

theorem works_told (s : State) (b : Nat) (d : CollD) : Works s (told s b d) := .ite (works_event ..) .refl

theorem signalled_lsh (s : State) (b : Nat) (d : CollD) : (signalled s b d).lsh = s.lsh := by unfold signalled; split <;> rfl

theorem signalled_rd (s : State) (b : Nat) (d : CollD) (f : Fld) : rd (signalled s b d) f = rd s f := by
  unfold signalled
  split
  · exact bumpSlot_rd ..
  · rfl

/-- After the install only the signal is more than the work that Longshore does at any time. -/
theorem permInstall_works (s : State) (b : Nat) : ∃ u, Works (installed s b) u ∧ Works (signalled u b (parseColl (fget s.lsh.permute b).desc)) (permInstall s b) := by
  rw [permInstall_eq]
  exact ⟨_, works_carryOver .., works_told ..⟩

theorem permInstall_live (s : State) (b : Nat) : (permInstall s b).lsh.live = (installed s b).lsh.live := by
  obtain ⟨u, hu, ht⟩ := permInstall_works s b
  rw [ht.live, signalled_lsh, hu.live]

theorem permInstall_staged (s : State) (b : Nat) : (permInstall s b).lsh.staged = mfilter s.lsh.staged fun k _ => k / 65536 ≠ b := by
  obtain ⟨u, hu, ht⟩ := permInstall_works s b
  rw [ht.staged, signalled_lsh, hu.staged]
  rfl

theorem permInstall_phase (s : State) (b : Nat) : (fget (permInstall s b).lsh.permute b).phase = 0 := by
  obtain ⟨u, hu, ht⟩ := permInstall_works s b
  have h := ht.fence b
  rw [signalled_lsh, hu.fence b, installed, wrOr_lsh, modLsh_lsh, fget_fset_same] at h
  exact congrArg Prod.fst h

theorem permInstall_done (s : State) (b : Nat) : rdb (permInstall s b) LSH_IRQ_STAT_permute_done = true := by
  obtain ⟨u, hu, ht⟩ := permInstall_works s b
  exact (rdb_of_rd ((ht.rd _ (by decide)).trans ((signalled_rd ..).trans (hu.rd _ (by decide))))).trans (rdb_wrOr_one (by decide) rfl _)

theorem permInstall_flag (s : State) (b c : Nat) (h : flagOf s c = true) : flagOf (permInstall s b) c = true := by
  obtain ⟨u, hu, ht⟩ := permInstall_works s b
  have hinst : flagOf (installed s b) c = true := by
    unfold flagOf installed
    rw [wrOr_lsh]
    exact h
  refine ht.flag c ?_
  rw [flagOf, signalled_lsh]
  exact hu.flag c hinst

theorem permInstall_slot (s : State) (b : Nat) {d : List Byte} (hd : (fget s.lsh.permute b).desc = d) (hsig : (parseColl d).sigEn = true) :
    mgetD (permInstall s b).shelf.slots (1024 * b + (parseColl d).sigSlot) 0 = mgetD s.shelf.slots (1024 * b + (parseColl d).sigSlot) 0 + 1 := by
  obtain ⟨u, hu, ht⟩ := permInstall_works s b
  have hslot : (parseColl d).sigSlot < 1024 := bits_lt _ 9 0
  rw [ht.slots, hd, signalled, if_pos hsig, bumpSlot]
  show mgetD (mset _ _ _) _ _ = _
  rw [Nat.mod_eq_of_lt hslot, mgetD_mset, if_pos rfl, hu.slots, installed, wrOr_shelf]
  rfl

section entries
variable (s : State) (b : Nat)

theorem installed_live : (installed s b).lsh.live =
    (s.lsh.staged.filter fun q => q.1 / 65536 = b).foldl (fun m q => mset m q.1 (renumbered s b q)) (mfilter s.lsh.live fun k _ => k / 65536 ≠ b) := by
  unfold installed
  rw [wrOr_lsh, modLsh_lsh]

/-- A staged entry of the berth is live, with the number of the old one. -/
theorem permInstall_entry (hnd : (s.lsh.staged.map fun q => q.1).Nodup) {q : Nat × Group} (hq : q ∈ s.lsh.staged) (hb : q.1 / 65536 = b) :
    mget (permInstall s b).lsh.live q.1 = some { q.2 with cseq := ((mget s.lsh.live q.1).map fun o => o.cseq).getD 0 } := by
  have hmine : q ∈ s.lsh.staged.filter fun q => q.1 / 65536 = b := List.mem_filter.2 ⟨hq, decide_eq_true hb⟩
  have hkeys : ((s.lsh.staged.filter fun q => q.1 / 65536 = b).map Prod.fst).Nodup := hnd.sublist (List.filter_sublist.map _)
  rw [permInstall_live, installed_live, mget_foldl_mset_mem _ _ hkeys _ hmine, renumbered, mget_mfilter (fun k => decide (k / 65536 = b)), if_pos (by simpa using hb)]

/-- An old entry goes with its berth's PERMUTE unless a staged one takes its place; those of other berths stay. -/
theorem permInstall_old {k : Nat} (hk : k / 65536 = b → ∀ y ∈ s.lsh.staged, y.1 ≠ k) :
    mget (permInstall s b).lsh.live k = if k / 65536 = b then none else mget s.lsh.live k := by
  have hother : ∀ y ∈ s.lsh.staged.filter (fun q => q.1 / 65536 = b), y.1 ≠ k := fun y hy he => by
    obtain ⟨hys, hyb⟩ := List.mem_filter.1 hy
    exact hk (he ▸ of_decide_eq_true hyb) y hys he
  rw [permInstall_live, installed_live, mget_foldl_mset_other _ _ _ hother, mget_mfilter (fun k => decide (k / 65536 ≠ b))]
  by_cases h : k / 65536 = b <;> simp [h]

end entries

/-! ### The step flag while sums climb -/

/-- No step flag is cleared. -/
def FlagsStay (s t : State) : Prop := ∀ b, flagOf s b = true → flagOf t b = true

theorem flagsStay_totalIn (s : State) (b : Nat) (v : W64 × W64) : FlagsStay s (totalIn s b v) := by
  unfold totalIn
  extract_lets -underBinder t
  have ht : FlagsStay s t := fun _ h => h
  clear_value t
  split
  · exact ht
  · split
    · exact fun c h => (works_permMove ..).flag c (ht c h)
    · exact fun c h => permInstall_flag t b c (ht c h)

theorem flagsStay_climb (fuel : Nat) (s : State) (b : Nat) (role : PermRole) (level node : Nat) (v : W64 × W64) :
    FlagsStay s (climb fuel s b role level node v) := by
  induction fuel generalizing s level node v with
  | zero => exact fun _ h => h
  | succ fuel ih =>
    have hput (key : Nat) : FlagsStay s (putSum s b key v) := fun _ h => h
    have hsend (t : State) (rank phase round l n : Nat) : FlagsStay t (sendSum t b role rank phase round l n v) := fun c h => (works_lshSend ..).flag c h
    unfold climb
    extract_lets -underBinder p size t
    have ht : FlagsStay s t := hput _
    clear_value t
    split
    · exact fun c h => flagsStay_totalIn _ b v c (foldS_holds (P := fun u => flagOf u c = true) (fun u q hu => hsend u _ _ _ _ _ c hu) (ht c h) _)
    · split
      · exact fun c h => hsend t _ _ _ _ _ c (ht c h)
      · split
        · exact fun c h => ih _ _ _ _ c (ht c h)
        · split
          · exact fun c h => ih _ _ _ _ c (ht c h)
          · exact ht

theorem flagsStay_climbOwn (s : State) (b : Nat) (role : PermRole) : FlagsStay s (climbOwn s b role) := by
  unfold climbOwn
  extract_lets -underBinder p
  split
  · exact flagsStay_climb 19 s b role 0 role.rank _
  · exact fun _ h => h

/-! ### COUNT_RECEIVE of a round in hand -/

/-- The sums in a packet. -/
def pktSums (p : LshPkt) : W64 × W64 := (BitVec.ofNat 64 (fld p.data 0 8), BitVec.ofNat 64 (fld p.data 8 8))

/-- The sums of a packet are kept, and its flag joins the berth's. -/
def sumIn (s : State) (p : LshPkt) : State :=
  putSum (flagged s p) p.berth (countKey (fget s.lsh.permute p.berth).phase p.chunk p.level p.node) (pktSums p)

theorem sumIn_permute (s : State) (p : LshPkt) : (sumIn s p).lsh.permute = fset s.lsh.permute p.berth { fget s.lsh.permute p.berth with
    got := mset (fget s.lsh.permute p.berth).got (countKey (fget s.lsh.permute p.berth).phase p.chunk p.level p.node) (pktSums p) } := by
  unfold sumIn
  rw [putSum_permute, flagged_permute]

theorem sumIn_live (s : State) (p : LshPkt) : (sumIn s p).lsh.live = s.lsh.live := flagged_live s p
theorem sumIn_staged (s : State) (p : LshPkt) : (sumIn s p).lsh.staged = s.lsh.staged := (congrArg Longshore.staged (flagged_lsh s p) :)
theorem sumIn_tx (s : State) (p : LshPkt) : (sumIn s p).tx = s.tx := flagged_tx s p
theorem sumIn_mem (s : State) (p : LshPkt) : (sumIn s p).mem = s.mem := (rel_flagged s p).same_mem (by decide) (by decide)
theorem sumIn_shelf (s : State) (p : LshPkt) : (sumIn s p).shelf = s.shelf := (rel_flagged s p).frame .shelf (by decide)

theorem flagOf_sumIn {s : State} {p : LshPkt} (h : p.nf = true) : flagOf (sumIn s p) p.berth = true :=
  (flagOf_flagged s p).trans (by rw [h, Bool.or_true])

theorem permRole_congr {s t : State} (hl : t.lsh.live = s.lsh.live) (hs : t.lsh.staged = s.lsh.staged) (b : Nat) : permRole t b = permRole s b := by
  unfold permRole stagedClose closeGroup
  rw [hl, hs]

/-- The round of a packet is the one in hand. -/
def inHand (s : State) (p : LshPkt) : Bool := (fget s.lsh.permute p.berth).waiting && (fget s.lsh.permute p.berth).round = p.chunk

/-- A sum below the top of the tree: answered when the totals of its round are known, and taken into the climb of the round in hand. -/
def sumBelow (s : State) (p : LshPkt) (g : Group) (role : PermRole) : State :=
  match mget (fget s.lsh.permute p.berth).got (countKey (fget s.lsh.permute p.berth).phase p.chunk (clog2 (parseGrp g.entry).size) 0),
      role.old.members.findIdx? (· = p.src) with
  | some w, some q => sendSum (sumIn s p) p.berth role q (fget s.lsh.permute p.berth).phase p.chunk (clog2 (parseGrp g.entry).size) 0 w
  | _, _ => if inHand s p then climbOwn (sumIn s p) p.berth role else sumIn s p

theorem flagsStay_sumBelow (s : State) (p : LshPkt) (g : Group) (role : PermRole) : FlagsStay (sumIn s p) (sumBelow s p g role) := by
  unfold sumBelow
  split
  · exact fun c h => (works_lshSend ..).flag c h
  · split
    · exact flagsStay_climbOwn (sumIn s p) p.berth role
    · exact fun _ h => h

/-- Without known totals, a sum of another round waits. -/
theorem sumBelow_waits {s : State} {p : LshPkt} {g : Group} (hnone : mget (fget s.lsh.permute p.berth).got
    (countKey (fget s.lsh.permute p.berth).phase p.chunk (clog2 (parseGrp g.entry).size) 0) = none) (hw : inHand s p = false) (role : PermRole) :
    sumBelow s p g role = sumIn s p := by
  unfold sumBelow
  simp only [hnone, hw, Bool.false_eq_true, if_false]

section counted
variable {s : State} {p : LshPkt} {n : Nat} {g : Group} {role : PermRole} (h : Counted s p n g) (hrole : permRole s p.berth = some role)
include h hrole

theorem exec_count : exec (.countReceive p) s = .next (if p.level ≥ clog2 (parseGrp g.entry).size then
      if inHand s p then totalIn (sumIn s p) p.berth (pktSums p) else sumIn s p
    else sumBelow s p g role) := by
  obtain ⟨hup, hwhole, hgroup, hruns, hphase, hepoch, hstep, htry⟩ := h
  have hrole' : permRole (sumIn s p) p.berth = some role := (permRole_congr (sumIn_live s p) (sumIn_staged s p) p.berth).trans hrole
  have hfresh : ¬ (p.epoch ≠ (parseGrp g.entry).epoch || fld p.data 16 1 = 0 || fld p.data 16 1 < (fget s.lsh.permute p.berth).phase ||
      p.step.toNat ≠ (fget s.upd.steps p.berth).toNat % 2 ^ 32 || p.try_ ≠ tryOf s p.berth) = true := by
    simp [hphase, hruns, hepoch, hstep, htry]
  refine congrArg _ ((if_neg (by simp [hup])).trans ((if_neg (by simp [hwhole])).trans ?_))
  simp only [hgroup]
  rw [if_neg hfresh]
  unfold sumBelow
  unfold sumIn flagged pktSums at *
  rw [hphase] at *
  simp only [hrole', inHand, decide_true, Bool.and_true]
  rfl

end counted

theorem modPerm_permute (s : State) (b : Nat) (f : Permute → Permute) : (modPerm s b f).lsh.permute = fmod s.lsh.permute b f := rfl

/-- The permute record once the totals are known. -/
theorem totalIn_differ {s : State} {b : Nat} {v : W64 × W64} (hv : v.1 ≠ v.2) : totalIn s b v = modPerm s b fun x => { x with waiting := false } := by
  unfold totalIn
  exact if_pos hv

theorem totalIn_agree {s : State} {b : Nat} {v : W64 × W64} (hv : v.1 = v.2) : totalIn s b v =
    if (fget (modPerm s b fun x => { x with waiting := false }).lsh.permute b).phase = 1 then
      permMove (modPerm (modPerm s b fun x => { x with waiting := false }) b fun x => { x with phase := 2, round := 0 }) b
    else permInstall (modPerm s b fun x => { x with waiting := false }) b := by
  unfold totalIn
  exact if_neg (not_not.2 hv)

end Sys2Proof.Laws
end

section
/-!
PROOFS. Sums and totals of the round in hand (O56).
-/
namespace Sys2Proof.Proofs
open Sys2Proof Sys2Proof.Machine Sys2Proof.Safety Sys2Proof.Laws

/-- The end of a PERMUTE, in the terms of the state in which the last totals came. -/
theorem totals_install {s : State} {p : LshPkt} {x : Permute} (hx : x = fget s.lsh.permute p.berth) (hphase : x.phase ≠ 1)
    (hnd : (s.lsh.staged.map fun q => q.1).Nodup) {v : W64 × W64} (hv : v.1 = v.2) {t : State} (ht : t = totalIn (sumIn s p) p.berth v) :
    (fget t.lsh.permute p.berth).phase = 0 ∧ rdb t LSH_IRQ_STAT_permute_done = true ∧
      (∀ q ∈ s.lsh.staged, q.1 / 65536 = p.berth → mget t.lsh.live q.1 = some { q.2 with cseq := ((mget s.lsh.live q.1).map fun o => o.cseq).getD 0 }) ∧
      (∀ q ∈ t.lsh.staged, q.1 / 65536 ≠ p.berth) ∧
      (∀ q ∈ s.lsh.live, (if q.1 / 65536 = p.berth then (∀ y ∈ s.lsh.staged, y.1 ≠ q.1) → mget t.lsh.live q.1 = none else mget t.lsh.live q.1 = mget s.lsh.live q.1)) ∧
      ((parseColl x.desc).sigEn = true → mgetD t.shelf.slots (1024 * p.berth + (parseColl x.desc).sigSlot) 0 =
        mgetD s.shelf.slots (1024 * p.berth + (parseColl x.desc).sigSlot) 0 + 1) := by
  let u : State := modPerm (sumIn s p) p.berth fun x => { x with waiting := false }
  have hrec : fget u.lsh.permute p.berth = { x with got := mset x.got (countKey x.phase p.chunk p.level p.node) (pktSums p), waiting := false } := by
    rw [hx]
    exact (fget_fmod_same ..).trans (by rw [sumIn_permute, fget_fset_same])
  have hlive : u.lsh.live = s.lsh.live := sumIn_live s p
  have hstaged : u.lsh.staged = s.lsh.staged := sumIn_staged s p
  have hshelf : u.shelf = s.shelf := sumIn_shelf s p
  have hinstall : t = permInstall u p.berth := by
    rw [ht, totalIn_agree hv]
    exact if_neg (by rw [hrec]; exact hphase)
  clear_value u
  subst hinstall
  refine ⟨permInstall_phase .., permInstall_done .., fun q hq hb => ?_, fun q hq => ?_, fun q hq => ?_, fun hsig => ?_⟩
  · rw [permInstall_entry u p.berth (by rw [hstaged]; exact hnd) (by rw [hstaged]; exact hq) hb, hlive]
  · rw [permInstall_staged] at hq
    exact of_decide_eq_true (List.mem_filter.1 hq).2
  · split
    next hb =>
      intro hnone
      rw [permInstall_old u p.berth (fun _ => by rw [hstaged]; exact hnone), if_pos hb]
    next hb => rw [permInstall_old u p.berth (fun h => absurd h hb), if_neg hb, hlive]
  · rw [permInstall_slot u p.berth (d := x.desc) (by rw [hrec]) hsig, hshelf]

/-- The end of a fence. -/
theorem totals_move {s : State} {p : LshPkt} {x : Permute} (hx : x = fget s.lsh.permute p.berth) (hphase : x.phase = 1)
    {v : W64 × W64} (hv : v.1 = v.2) {t : State} (ht : t = totalIn (sumIn s p) p.berth v) :
    (fget t.lsh.permute p.berth).phase = 2 ∧ (fget t.lsh.permute p.berth).round = 0 ∧ (fget t.lsh.permute p.berth).desc = x.desc ∧ t.lsh.live = s.lsh.live := by
  let u : State := modPerm (modPerm (sumIn s p) p.berth fun x => { x with waiting := false }) p.berth fun x => { x with phase := 2, round := 0 }
  have hrec : fget (modPerm (sumIn s p) p.berth fun x => { x with waiting := false }).lsh.permute p.berth =
      { x with got := mset x.got (countKey x.phase p.chunk p.level p.node) (pktSums p), waiting := false } := by
    rw [hx]
    exact (fget_fmod_same ..).trans (by rw [sumIn_permute, fget_fset_same])
  have hfence : fence (fget u.lsh.permute p.berth) = (2, x.desc, 0, x.entries) := by
    refine (congrArg fence (fget_fmod_same ..)).trans ?_
    rw [hrec]
    rfl
  have hlive : u.lsh.live = s.lsh.live := sumIn_live s p
  have hmove : t = permMove u p.berth := by
    rw [ht, totalIn_agree hv]
    exact if_pos (by rw [hrec]; exact hphase)
  clear_value u
  subst hmove
  have hworks := works_permMove u p.berth
  have hend := (hworks.fence p.berth).trans hfence
  exact ⟨congrArg Prod.fst hend, congrArg (fun y => y.2.2.1) hend, congrArg (fun y => y.2.1) hend, hworks.live.trans hlive⟩

/-- Clause 13: sums or totals of a round that runs here. -/
theorem count_current {s : State} {p : LshPkt} {n : Nat} {g : Group} {x : Permute} {role : PermRole} {v : W64 × W64} {k : Nat} (h : Counted s p n g)
    (hrole : permRole s p.berth = some role) (hx : x = fget s.lsh.permute p.berth) (hv : v = pktSums p) (hk : k = countKey x.phase p.chunk p.level p.node)
    (hnd : (s.lsh.staged.map fun q => q.1).Nodup) :
    ∃ t, exec (.countReceive p) s = .next t ∧ Frame (footprint (.countReceive p)) s t ∧ (p.nf = true → flagOf t p.berth = true) ∧
      if p.level < clog2 (parseGrp g.entry).size then
        (mget x.got (countKey x.phase p.chunk (clog2 (parseGrp g.entry).size) 0) = none → x.waiting = false ∨ x.round ≠ p.chunk →
          t.lsh.permute = (fset s.lsh.permute p.berth { x with got := mset x.got k v }) ∧ t.tx = s.tx ∧ t.mem = s.mem ∧ t.lsh.live = s.lsh.live)
      else if x.waiting = false ∨ x.round ≠ p.chunk then t.lsh.permute = (fset s.lsh.permute p.berth { x with got := mset x.got k v }) ∧ t.tx = s.tx ∧ t.mem = s.mem
      else if v.1 ≠ v.2 then t.lsh.permute = (fset s.lsh.permute p.berth { x with got := mset x.got k v, waiting := false }) ∧ t.tx = s.tx ∧ t.mem = s.mem ∧ t.lsh.live = s.lsh.live
      else if x.phase = 1 then (fget t.lsh.permute p.berth).phase = 2 ∧ (fget t.lsh.permute p.berth).round = 0 ∧ (fget t.lsh.permute p.berth).desc = x.desc ∧ t.lsh.live = s.lsh.live
      else (fget t.lsh.permute p.berth).phase = 0 ∧ rdb t LSH_IRQ_STAT_permute_done = true ∧
        (∀ q ∈ s.lsh.staged, q.1 / 65536 = p.berth → mget t.lsh.live q.1 = some { q.2 with cseq := ((mget s.lsh.live q.1).map fun o => o.cseq).getD 0 }) ∧ (∀ q ∈ t.lsh.staged, q.1 / 65536 ≠ p.berth) ∧
        (∀ q ∈ s.lsh.live, (if q.1 / 65536 = p.berth then (∀ y ∈ s.lsh.staged, y.1 ≠ q.1) → mget t.lsh.live q.1 = none else mget t.lsh.live q.1 = mget s.lsh.live q.1)) ∧
        ((parseColl x.desc).sigEn = true → mgetD t.shelf.slots (1024 * p.berth + (parseColl x.desc).sigSlot) 0 = mgetD s.shelf.slots (1024 * p.berth + (parseColl x.desc).sigSlot) 0 + 1) := by
  have he := exec_count h hrole
  have hsum : (sumIn s p).lsh.permute = fset s.lsh.permute p.berth { x with got := mset x.got k v } := by rw [hk, hv, hx, sumIn_permute]
  have hother (hw : x.waiting = false ∨ x.round ≠ p.chunk) : inHand s p = false := by
    unfold inHand
    rw [← hx]
    rcases hw with hw | hw <;> simp [hw]
  by_cases hlev : p.level < clog2 (parseGrp g.entry).size
  · rw [if_neg (Nat.not_le.2 hlev)] at he
    refine ⟨_, he, (rel_of_exec he).frame, fun hnf => flagsStay_sumBelow s p g role _ (flagOf_sumIn hnf), ?_⟩
    rw [if_pos hlev]
    intro hnone hw
    rw [sumBelow_waits (hx ▸ hnone) (hother hw)]
    exact ⟨hsum, sumIn_tx s p, sumIn_mem s p, sumIn_live s p⟩
  · rw [if_pos (Nat.not_lt.1 hlev)] at he
    by_cases hw : x.waiting = false ∨ x.round ≠ p.chunk
    · rw [if_neg (by rw [hother hw]; decide)] at he
      refine ⟨_, he, (rel_of_exec he).frame, fun hnf => flagOf_sumIn hnf, ?_⟩
      rw [if_neg hlev, if_pos hw]
      exact ⟨hsum, sumIn_tx s p, sumIn_mem s p⟩
    · have hhand : inHand s p = true := by
        unfold inHand
        rw [← hx]
        simpa [not_or] using hw
      rw [if_pos hhand, ← hv] at he
      refine ⟨_, he, (rel_of_exec he).frame, fun hnf => flagsStay_totalIn _ _ _ _ (flagOf_sumIn hnf), ?_⟩
      rw [if_neg hlev, if_neg hw]
      by_cases hsame : v.1 = v.2
      · rw [if_neg (not_not.2 hsame)]
        split
        next hphase => exact totals_move hx hphase hsame rfl
        next hphase => exact totals_install hx hphase hnd hsame rfl
      · rw [if_pos hsame, totalIn_differ hsame]
        refine ⟨?_, sumIn_tx s p, sumIn_mem s p, sumIn_live s p⟩
        rw [modPerm_permute, hsum, fmod, fget_fset_same, fset_fset]

end Sys2Proof.Proofs
end

section
/-!
SUPPORT. Data of a move (R286, R298, R299): where it goes, the counts that a memory error and its events leave alone, and the acknowledgement.
-/
namespace Sys2Proof.Laws
open Sys2Proof Sys2Proof.Machine Sys2Proof.Safety

/-! ### Counts below those of the host ports (R429) -/

/-- A count is as it was. -/
def CountKept (k : Nat) (s t : State) : Prop := mgetD t.counts k 0 = mgetD s.counts k 0

theorem CountKept.of_counts {k : Nat} {s t : State} (h : t.counts = s.counts) : CountKept k s t := by unfold CountKept; rw [h]

theorem CountKept.trans {k : Nat} {s t u : State} (h : CountKept k s t) (h' : CountKept k t u) : CountKept k s u := Eq.trans h' h

section host
variable {k : Nat} (hk : k < 0x1B00)
include hk

theorem counts_emit (s : State) (t : Tx) : mgetD (emit s t).counts k 0 = mgetD s.counts k 0 := by
  unfold emit
  cases frameOf t with
  | none => rfl
  | some q => exact counts_countFrame s q.1 true q.2 k (by omega) (by omega)

theorem counts_sendEvent (s : State) (b : Nat) (e : Ev) : mgetD (sendEvent s b e).counts k 0 = mgetD s.counts k 0 := by
  unfold sendEvent
  extract_lets -underBinder q
  split
  · rw [counts_count, if_neg (by omega), counts_emit hk]
  · rfl

theorem counts_putEvent (s : State) (b : Nat) (payload : List Byte) : mgetD (putEvent s b payload).counts k 0 = mgetD s.counts k 0 := by
  unfold putEvent
  extract_lets -underBinder q
  split
  · rfl
  · split
    · rw [counts_sendEvent hk, modBerth_counts]
    · rw [counts_count, if_neg (by omega), wrOr_counts, modBerth_counts]

theorem counts_setAlert (s : State) (i : Nat) : mgetD (setAlert s i).counts k 0 = mgetD s.counts k 0 := by
  unfold setAlert
  extract_lets -underBinder t
  split
  · exact counts_emit hk ..
  · rfl

theorem counts_raiseReplace (s : State) (i : Nat) : mgetD (raiseReplace s i).counts k 0 = mgetD s.counts k 0 := by
  unfold raiseReplace
  split
  · rfl
  · extract_lets -underBinder t u
    have hu : mgetD u.counts k 0 = mgetD s.counts k 0 := by
      unfold u t
      rw [counts_setAlert hk, wrOr_counts, wrOr_counts]
    exact (foldS_keeps (fun t => mgetD t.counts k 0) (fun t b => counts_putEvent hk ..) u berths).trans hu

theorem countKept_loseChannel (s : State) (ch : Nat) : CountKept k s (loseChannel s ch) := by
  unfold loseChannel
  split
  · exact .of_counts rfl
  · extract_lets -underBinder t u v
    have ht : t.counts = s.counts := wr_counts ..
    clear_value t
    have hu : u.counts = t.counts := (wrOr_counts ..).trans (wrOr_counts ..)
    clear_value u
    have hv : v.counts = u.counts := modMem_counts ..
    clear_value v
    exact (CountKept.of_counts (hv.trans (hu.trans ht))).trans (counts_raiseReplace hk v 4)

theorem countKept_noteUe (s : State) (a : Nat) (scrub : Bool) : CountKept k s (noteUe s a scrub) := by
  unfold noteUe noteUeIn
  generalize chanAt s a = ch
  extract_lets -underBinder x u v
  have hu : u.counts = s.counts := useFree_counts s
  clear_value u
  have hv : v.counts = u.counts := (rel_logError .refl fun _ h => h : Rel [.regs, .rst] u v).frame .counts (by decide)
  clear_value v
  refine (CountKept.of_counts (hv.trans hu)).trans ?_
  split
  · extract_lets -underBinder w
    have hw : w.counts = v.counts := wrs_counts ..
    clear_value w
    exact .of_counts ((modMem_counts ..).trans ((wrOr_counts ..).trans hw))
  · extract_lets -underBinder w y z
    have hw : w.counts = v.counts := wrs_counts ..
    clear_value w
    have hy : y.counts = w.counts := (modMem_counts ..).trans (wrOr_counts ..)
    clear_value y
    have hz : z.counts = y.counts := wr_counts ..
    clear_value z
    have hkept : CountKept k v z := .of_counts (hz.trans (hy.trans hw))
    exact iteP (P := CountKept k v) (hkept.trans (countKept_loseChannel hk z ch)) hkept
  · extract_lets -underBinder w
    have hw : w.counts = v.counts := wrs_counts ..
    clear_value w
    exact .of_counts ((modMem_counts ..).trans ((wrOr_counts ..).trans hw))

theorem counts_writeN (s : State) (h : Hdl) (off : Nat) (bs : List Byte) : mgetD (writeN s h off bs).1.counts k 0 = mgetD s.counts k 0 := by
  have hw : (writeH s h off bs).1.counts = s.counts := (rel_writeH .refl fun _ h => h : Rel1 [.mem, .bytes] s (writeH s h off bs)).frame .counts (by decide)
  unfold writeN
  extract_lets -underBinder w
  show mgetD (if w.2 = true then _ else _ : State).counts k 0 = _
  split
  · exact (CountKept.of_counts hw).trans (countKept_noteUe hk w.1 _ false)
  · rw [hw]

theorem counts_landPart (s : State) (b : Nat) (e : MapEnt) (n : Nat) (bs : List Byte) : mgetD (landPart s b e n bs).counts k 0 = mgetD s.counts k 0 := by
  unfold landPart
  extract_lets -underBinder w
  split
  · exact counts_writeN hk ..
  · exact counts_writeN hk ..

end host

/-! ### A write, by what it reads -/

section same
variable {s t : State} (hm : t.mem = s.mem) (hl : ∀ n, chanLost t n = chanLost s n)
include hm

theorem tierAt_same (a : Nat) : tierAt t a = tierAt s a := Proofs.tierAt_congr (by rw [hm]) a

theorem chanAt_same (a : Nat) : chanAt t a = chanAt s a := by unfold chanAt; rw [hm]

theorem partBad_same (a n c : Nat) : partBad t a n c = partBad s a n c := by unfold partBad; rw [tierAt_same hm]

theorem maskWrite_same (a : Nat) (bs : List Byte) : maskWrite t a bs = maskWrite s a bs := by
  unfold maskWrite
  simp only [funext (partBad_same hm a bs.length), hm, tierAt_same hm]

include hl

theorem badWrite_same (a n : Nat) : badWrite t a n = badWrite s a n := by
  unfold badWrite partLost
  simp only [funext (partBad_same hm a n), hm, tierAt_same hm, chanAt_same hm, hl]

/-- A write leaves the same bytes, and fails alike, in states of one memory. -/
theorem writeH_same (h : Hdl) (off : Nat) (bs : List Byte) :
    (writeH t h off bs).1.mem.bytes = (writeH s h off bs).1.mem.bytes ∧ (writeH t h off bs).2 = (writeH s h off bs).2 := by
  have hobj : objOf t h = objOf s h := by unfold objOf objAt; rw [hm]
  unfold writeH
  simp only [hobj, badWrite_same hm hl, maskWrite_same hm]
  split
  · exact ⟨by rw [hm], rfl⟩
  · split
    · exact ⟨by rw [modMem_mem, modMem_mem, hm], rfl⟩
    · exact ⟨by rw [hm], rfl⟩

end same

theorem writeN_bytes (s : State) (h : Hdl) (off : Nat) (bs : List Byte) : (writeN s h off bs).1.mem.bytes = (writeH s h off bs).1.mem.bytes := by
  unfold writeN
  extract_lets -underBinder w
  show (if w.2 = true then noteUe w.1 _ false else w.1 : State).mem.bytes = _
  split
  · exact (rel_noteUe .refl fun _ h => h : Rel [.free, .tx, .regs, .counts, .mem, .quay, .rst] w.1 _).frame .bytes (by decide)
  · rfl

/-! ### A packet's worth of an entry that lands (R298) -/

section land
variable (s : State) (b : Nat) (e : MapEnt) (k : Nat) (bs : List Byte)

theorem landPart_bytes : (landPart s b e k bs).mem.bytes = (writeH s e.dst (entPart k).1 bs).1.mem.bytes := by
  rw [← writeN_bytes]
  unfold landPart
  extract_lets -underBinder w
  split <;> rfl

theorem landPart_permute : (landPart s b e k bs).lsh.permute = s.lsh.permute := by
  have hw : (writeN s e.dst (entPart k).1 bs).1.lsh = s.lsh := (rel_writeN .refl fun _ h => h : Rel1 _ s (writeN s e.dst (entPart k).1 bs)).frame .lsh (by decide)
  unfold landPart
  extract_lets -underBinder w
  split
  · exact (congrArg Longshore.permute hw :)
  · exact (congrArg Longshore.permute hw :)

theorem flagOf_landPart (h : (writeH s e.dst (entPart k).1 bs).2 = true) : flagOf (landPart s b e k bs) b = true := by
  unfold landPart
  extract_lets -underBinder w
  rw [if_pos (show w.2 = true from h)]
  exact congrArg Close.flag (setFlag_close w.1 b)

end land

/-! ### Data of a move -/

/-- Data of a move that carries an invalid byte, or a value that is not finite. -/
def unsound (s : State) (p : LshPkt) : Bool := p.inv || !bytesFinite (parseColl (fget s.lsh.permute p.berth).desc).fin p.data

/-- Data of a move is counted for its item, with the flag of what it carries. -/
def moveCounted (s : State) (p : LshPkt) : State :=
  if unsound s p then setFlag (count s (0x1710 + p.berth) p.data.length) p.berth else count s (0x1710 + p.berth) p.data.length

/-- Data of a move lands in its entry's destination. -/
def landing (s : State) (p : LshPkt) (e : MapEnt) (k : Nat) : State := landPart (moveCounted s p) p.berth e k p.data

theorem works_moveCounted (s : State) (p : LshPkt) : Works s (moveCounted s p) := (works_count s _ _).trans (works_orFlag ..)

theorem moveCounted_mem (s : State) (p : LshPkt) : (moveCounted s p).mem = s.mem := by unfold moveCounted; split <;> rfl

theorem moveCounted_permute (s : State) (p : LshPkt) : (moveCounted s p).lsh.permute = s.lsh.permute := by unfold moveCounted; split <;> rfl

theorem moveCounted_chanLost (s : State) (p : LshPkt) (n : Nat) : chanLost (moveCounted s p) n = chanLost s n := by
  unfold chanLost moveCounted
  split
  · rw [setFlag_rd, count_rd]
  · rw [count_rd]

theorem flagOf_moveCounted {s : State} {p : LshPkt} (h : unsound s p = true) : flagOf (moveCounted s p) p.berth = true := by
  unfold moveCounted
  rw [if_pos h]
  exact congrArg Close.flag (setFlag_close _ p.berth)

theorem counts_moveCounted (s : State) (p : LshPkt) (j : Nat) : mgetD (moveCounted s p).counts j 0 =
    if j = 0x1710 + p.berth then mgetD s.counts (0x1710 + p.berth) 0 + BitVec.ofNat 64 p.data.length else mgetD s.counts j 0 := by
  unfold moveCounted
  split <;> exact counts_count ..

section landing
variable (s : State) (p : LshPkt) (e : MapEnt) (k : Nat)

theorem works_landing : Works s (landing s p e k) := (works_moveCounted ..).trans (works_landPart ..)

theorem landing_bytes : (landing s p e k).mem.bytes = (writeH s e.dst (entPart k).1 p.data).1.mem.bytes :=
  (landPart_bytes ..).trans (writeH_same (moveCounted_mem s p) (moveCounted_chanLost s p) e.dst (entPart k).1 p.data).1

theorem landing_permute : (landing s p e k).lsh.permute = s.lsh.permute := (landPart_permute ..).trans (moveCounted_permute s p)

theorem flagOf_landing (h : p.inv = true ∨ bytesFinite (parseColl (fget s.lsh.permute p.berth).desc).fin p.data = false ∨
    (writeH s e.dst (entPart k).1 p.data).2 = true) : flagOf (landing s p e k) p.berth = true := by
  rcases h with h | h | h
  · exact (works_landPart ..).flag _ (flagOf_moveCounted (by simp [unsound, h]))
  · exact (works_landPart ..).flag _ (flagOf_moveCounted (by simp [unsound, h]))
  · exact flagOf_landPart _ _ _ _ _ ((writeH_same (moveCounted_mem s p) (moveCounted_chanLost s p) e.dst (entPart k).1 p.data).2.trans h)

theorem counts_landing (hb : p.berth < 4) : mgetD (landing s p e k).counts (0x1710 + p.berth) 0 =
    mgetD s.counts (0x1710 + p.berth) 0 + BitVec.ofNat 64 p.data.length := by
  unfold landing
  rw [counts_landPart (by omega), counts_moveCounted, if_pos rfl]

end landing

/-- Data of a move is counted for the rounds and among what is to be acknowledged. -/
def moveTaken (s : State) (p : LshPkt) (n : Nat) : State := modPerm s p.berth fun y =>
  { y with moveAcc := y.moveAcc + 1, seen := (p.node, p.chunk) :: y.seen, granted := mset y.granted p.src n }

/-- Packets of a move are acknowledged. -/
def moveAck (s : State) (p : LshPkt) (n : Nat) : State := lshSend s p.src { permPkt s p.berth p.epoch 1 0 0 [] with aux := n }

theorem permData_seen {s : State} {p : LshPkt} {role : PermRole} {e : MapEnt} {first : Nat} (he : entOf (fget s.lsh.permute p.berth).entries p.chunk = some (e, first))
    (hrank : e.rank = (parseGrp role.new.entry).rank) (hseen : (p.node, p.chunk) ∈ (fget s.lsh.permute p.berth).seen) : permData s p role = count s 0x1721 1 := by
  unfold permData
  simp only [he, hrank, ne_eq, not_true_eq_false, if_false, hseen, if_true]

theorem permData_lands {s : State} {p : LshPkt} {role : PermRole} {e : MapEnt} {first : Nat} (he : entOf (fget s.lsh.permute p.berth).entries p.chunk = some (e, first))
    (hrank : e.rank = (parseGrp role.new.entry).rank) (hnew : (p.node, p.chunk) ∉ (fget s.lsh.permute p.berth).seen) :
    ∃ n m, permData s p role = moveAck (moveTaken (landing s p e (p.chunk - first)) p n) p m ∨ permData s p role = moveTaken (landing s p e (p.chunk - first)) p n := by
  have hsplit : ∃ (ack : Bool) (n m : Nat), permData s p role = if ack then moveAck (moveTaken (landing s p e (p.chunk - first)) p n) p m
      else moveTaken (landing s p e (p.chunk - first)) p n := by
    unfold permData
    simp only [he, hrank, ne_eq, not_true_eq_false, if_false, hnew]
    exact ⟨_, _, _, rfl⟩
  obtain ⟨ack, n, m, h⟩ := hsplit
  refine ⟨n, m, ?_⟩
  cases ack with
  | true => exact .inl h
  | false => exact .inr h

theorem sends_moveAck (s : State) (p : LshPkt) (n : Nat) : Sends s (moveAck s p n) := sends_lshSend ..

theorem counts_moveAck {s : State} {p : LshPkt} (hb : p.berth < 4) (n : Nat) :
    mgetD (moveAck s p n).counts (0x1710 + p.berth) 0 = mgetD s.counts (0x1710 + p.berth) 0 :=
  counts_lshSend (by omega) (by omega) _ _ (by exact Nat.one_ne_zero)

/-- A packet of a move of this berth's new epoch and of the present step and try. -/
structure Moving (s : State) (p : LshPkt) (role : PermRole) : Prop where
  up      : inReset s 0x14 = false
  whole   : p.crcOk = true
  perm    : p.op = 7
  current : permCurrent s p = some role

theorem exec_data_move {s : State} {p : LshPkt} {role : PermRole} (h : Moving s p role) :
    exec (.collectiveDataReceive p) s = .next (permData (flagged s p) p role) := by
  refine congrArg _ ((if_neg (by simp [h.up])).trans ((if_neg (by simp [h.whole])).trans ((if_pos h.perm).trans ?_)))
  simp only [h.current]
  rfl

end Sys2Proof.Laws
end

section
/-!
PROOFS. Data of a move (O56).
-/
namespace Sys2Proof.Proofs
open Sys2Proof Sys2Proof.Machine Sys2Proof.Safety Sys2Proof.Laws

/-- What new data of a move leaves, whether it is acknowledged at once or later. -/
theorem move_lands {s t : State} {p : LshPkt} {e : MapEnt} {k n m : Nat} (hb : p.berth < 4)
    (ht : t = moveAck (moveTaken (landing s p e k) p n) p m ∨ t = moveTaken (landing s p e k) p n) :
    Works s t ∧ t.mem.bytes = (writeH s e.dst (entPart k).1 p.data).1.mem.bytes ∧
      (fget t.lsh.permute p.berth).moveAcc = (fget s.lsh.permute p.berth).moveAcc + 1 ∧ (p.node, p.chunk) ∈ (fget t.lsh.permute p.berth).seen ∧
      mgetD t.counts (0x1710 + p.berth) 0 = mgetD s.counts (0x1710 + p.berth) 0 + BitVec.ofNat 64 p.data.length ∧
      (p.inv = true ∨ bytesFinite (parseColl (fget s.lsh.permute p.berth).desc).fin p.data = false ∨ (writeH s e.dst (entPart k).1 p.data).2 = true →
        flagOf t p.berth = true) := by
  let u := moveTaken (landing s p e k) p n
  have hworks : Works (landing s p e k) u := works_modPerm _ _ fun _ => rfl
  have hrec : fget u.lsh.permute p.berth = { fget s.lsh.permute p.berth with
      moveAcc := (fget s.lsh.permute p.berth).moveAcc + 1
      seen := (p.node, p.chunk) :: (fget s.lsh.permute p.berth).seen
      granted := mset (fget s.lsh.permute p.berth).granted p.src n } := by
    refine (fget_fmod_same ..).trans ?_
    rw [landing_permute]
  have hbytes : u.mem.bytes = (writeH s e.dst (entPart k).1 p.data).1.mem.bytes := landing_bytes ..
  have hcount : mgetD u.counts (0x1710 + p.berth) 0 = mgetD s.counts (0x1710 + p.berth) 0 + BitVec.ofNat 64 p.data.length := counts_landing s p e k hb
  have hlater : Works u t ∧ t.mem.bytes = u.mem.bytes ∧ t.lsh.permute = u.lsh.permute ∧
      mgetD t.counts (0x1710 + p.berth) 0 = mgetD u.counts (0x1710 + p.berth) 0 := by
    rcases ht with rfl | rfl
    · have hsends := sends_moveAck u p m
      exact ⟨works_lshSend .., hsends.rel.frame .bytes (by decide), hsends.permute, counts_moveAck hb m⟩
    · exact ⟨.refl, rfl, rfl, rfl⟩
  obtain ⟨hend, hbytes', hperm, hcount'⟩ := hlater
  refine ⟨((works_landing ..).trans hworks).trans hend, hbytes'.trans hbytes, ?_, ?_, hcount'.trans hcount, fun h =>
    (hworks.trans hend).flag _ (flagOf_landing s p e k h)⟩
  · rw [hperm, hrec]
  · rw [hperm, hrec]
    exact List.mem_cons_self ..

/-- Clause 14: data of a move. -/
theorem move_data {s : State} {p : LshPkt} {role : PermRole} {x : Permute} {e : MapEnt} {first : Nat} {w : State × Bool} (h : Moving s p role) (hb : p.berth < 4)
    (hx : x = fget s.lsh.permute p.berth) (he : entOf x.entries p.chunk = some (e, first)) (hrank : e.rank = (parseGrp role.new.entry).rank)
    (hw : w = writeH s e.dst ((p.chunk - first) / 293 * 2097152 + (p.chunk - first) % 293 * 7168) p.data) :
    ∃ t, exec (.collectiveDataReceive p) s = .next t ∧ Frame (footprint (.collectiveDataReceive p)) s t ∧
      if (p.node, p.chunk) ∈ x.seen then t.mem = s.mem ∧ mgetD t.counts 0x1721 0 = mgetD s.counts 0x1721 0 + 1 ∧ t.lsh.permute = s.lsh.permute
      else t.mem.bytes = w.1.mem.bytes ∧ (fget t.lsh.permute p.berth).moveAcc = x.moveAcc + 1 ∧ (p.node, p.chunk) ∈ (fget t.lsh.permute p.berth).seen ∧
        mgetD t.counts (0x1710 + p.berth) 0 = mgetD s.counts (0x1710 + p.berth) 0 + BitVec.ofNat 64 p.data.length ∧
        (p.nf = true ∨ p.inv = true ∨ w.2 = true ∨ bytesFinite (parseColl x.desc).fin p.data = false → flagOf t p.berth = true) := by
  have hexec := exec_data_move h
  have hperm := flagged_permute s p
  have hmem : (flagged s p).mem = s.mem := (rel_flagged s p).same_mem (by decide) (by decide)
  by_cases hseen : (p.node, p.chunk) ∈ x.seen
  · rw [permData_seen (by rw [hperm, ← hx]; exact he) hrank (by rw [hperm, ← hx]; exact hseen)] at hexec
    refine ⟨_, hexec, (rel_of_exec hexec).frame, ?_⟩
    rw [if_pos hseen]
    refine ⟨hmem, ?_, hperm⟩
    rw [counts_count, if_pos rfl, flagged_counts]
    rfl
  · obtain ⟨n, m, hland⟩ := permData_lands (s := flagged s p) (role := role) (by rw [hperm, ← hx]; exact he) hrank (by rw [hperm, ← hx]; exact hseen)
    obtain ⟨hworks, hbytes, hacc, hin, hcount, hflag⟩ := move_lands hb hland
    have hsame := writeH_same hmem (fun n => by unfold chanLost; rw [rd_congr ((rel_flagged s p).frame .regs (by decide)) (rel_flagged s p).variant])
      e.dst (entPart (p.chunk - first)).1 p.data
    have hoff : (entPart (p.chunk - first)).1 = (p.chunk - first) / 293 * 2097152 + (p.chunk - first) % 293 * 7168 := rfl
    rw [hoff, ← hw] at hsame
    rw [hoff] at hbytes hflag
    refine ⟨_, hexec, (rel_of_exec hexec).frame, ?_⟩
    rw [if_neg hseen]
    refine ⟨hbytes.trans hsame.1, ?_, hin, hcount.trans (by rw [flagged_counts]), fun hbad => ?_⟩
    · rw [hacc, hperm, hx]
    · rcases hbad with hnf | hinv | hfail | hfin
      · exact hworks.flag _ ((flagOf_flagged s p).trans (by rw [hnf, Bool.or_true]))
      · exact hflag (.inl hinv)
      · exact hflag (.inr (.inr (hsame.2.trans hfail)))
      · exact hflag (.inr (.inl (by rw [hperm, ← hx]; exact hfin)))

end Sys2Proof.Proofs
end

section
/-!
PROOFS. Packets of collectives and the rounds of PERMUTE, clause by clause (O56).
-/
namespace Sys2Proof.Proofs
open Sys2Proof Sys2Proof.Machine Sys2Proof.Safety Sys2Proof.Laws

/-- Clause 3: what a device owes is asked for again when a packet of it fails its CRC. -/
theorem corrupt_asks {s : State} {p : LshPkt} {r : CRef} {x : Coll} {g : Geom} {m : Nat × Nat × Nat × Nat} (hr : inReset s 0x14 = false) (hp : p.crcOk = false)
    (hrun : rdb s LSH_CTL_run = true) (hb : r.b < 4) (hc : r.c ∈ allChans) (hx : collAt s r = some x) (hg : collGeom s r.b x = some g)
    (hm : m ∈ missingParts g x) (hdev : g.dev m.2.2.2 = p.src) :
    ∃ t, exec (.collectiveDataReceive p) s = .next t ∧ t.tx.any (fun y => match y with
      | .lsh e q => e == p.src && q.kind == 2 && q.level == m.1 && q.node == m.2.1 && q.chunk == m.2.2.1 && q.cseq == x.cseq && q.berth == r.b && q.group == g.d.group && q.nf == flagOf s r.b &&
          q.data.isEmpty && q.src == ownId s
      | _ => false) = true := by
  have hgroup : (parseColl x.desc).group = g.d.group := by
    obtain ⟨grp, -, rfl⟩ := Option.map_eq_some_iff.1 hg
    rfl
  have hsent := crcFailed_sent hrun hb hc hx hg hm
  rw [hdev] at hsent
  exact ⟨_, exec_data_corrupt hr hp, List.any_eq_true.2 ⟨_, hsent, by simp [partReq, collPkt, hgroup]⟩⟩

/-- Clause 4: a packet of another epoch, step or try. -/
theorem stale_counted {s : State} {p : LshPkt} {c : Instr} (hc : c = .collectiveDataReceive p ∨ c = .collectiveAckReceive p ∨ c = .collectiveReqReceive p)
    (hr : inReset s 0x14 = false) (hp : p.crcOk = true) (hs : if p.op = 7 then permCurrent s p = none else current s p = false) :
    ∃ t, exec c s = .next t ∧ Frame [.regs, .counts] s t ∧ RegsBut [LSH_IRQ_STAT_stale.off] s t ∧ CountsBut [0x1720] s t ∧ rdb t LSH_IRQ_STAT_stale = true ∧
      mgetD t.counts 0x1720 0 = mgetD s.counts 0x1720 0 + 1 := ⟨_, exec_stale hc hr hp hs, staleDrop_effect s⟩

/-- Clause 6: a second copy of what a collective has. -/
theorem duplicate_of_part {s : State} {p : LshPkt} {r : CRef} {x : Coll} {g : Geom} {q : Nat} (h : Taken s p) (hr : findColl s p = some r)
    (hx : collAt s r = some x) (hg : collGeom s p.berth x = some g) (hq : g.rankOf p.src = some q) (hpart : hasPart g x (p.level, p.node, p.chunk, q) = true) :
    ∃ t, exec (.collectiveDataReceive p) s = .next t ∧ Frame [.counts, .lsh] s t ∧ t.lsh.chans = s.lsh.chans ∧ flagOf t p.berth = (flagOf s p.berth || p.nf) ∧
      mgetD t.counts 0x1721 0 = mgetD s.counts 0x1721 0 + 1 ∧ CountsBut [0x1721] s t := by
  obtain ⟨hframe, hlsh, hcount, hbut⟩ := duplicate_counted s p
  refine ⟨_, data_known_duplicate h hr hx hg hq hpart, hframe, ?_, ?_, hcount, hbut⟩
  · rw [hlsh, flagged_chans]
  · rw [flagOf, hlsh, ← flagOf, flagOf_flagged]

/-- Settles O56: one lemma for each clause, over what Longshore's own work keeps (`Works`), what a send leaves (`Sends`), and what acknowledgements leave of a
collective's record (`Acks`). -/
theorem collectivePackets : Obligations.CollectivePackets := by
  unfold Obligations.CollectivePackets
  refine ⟨fun s p c hc hr => exec_arrival_reset hc hr, fun s p c hc hr hp => arrival_corrupt hc hr hp,
    fun s p r x g m hr hp hrun hb hc hx hg hm hdev => corrupt_asks hr hp hrun hb hc hx hg hm hdev,
    fun s p c hc hr hp hs => stale_counted hc hr hp hs,
    fun s p g dup hb hr hp h7 hcur hf hg hdup => data_unknown ⟨hr, hp, h7, hcur⟩ hb hf hg hdup,
    fun s p r x g q _ hr hp h7 hcur hf hx hg hq hpart => duplicate_of_part ⟨hr, hp, h7, hcur⟩ hf hx hg hq hpart,
    fun s p r x g gc v w root f _ hr hp hcur hf _ hx hg hop h7 hsize hrank hh hlevel hnode hq hgc hv hnew hw hred hroot =>
      pair_reduces ⟨hr, hp, h7, hcur⟩ hf hx hg ⟨hop, hsize, ?levels, hrank, hh⟩ hlevel hnode hq hgc hv hnew hw hred hroot,
    fun s p r x _ hr hp h7 hcur hf hx => ack_known ⟨hr, hp, h7, hcur⟩ hf hx,
    fun s p r x g q a m _ hr hp h7 hrun hcur hf hc hx hg hsrc hop hsize hh hlevel hnode hq hnew ha hm =>
      request_own ⟨hr, hp, h7, hcur⟩ hrun hf hc hx hg hsrc hop hsize hh hlevel hnode hq hnew ha hm,
    fun s b h => exec_countRound_idle h,
    fun s b r size role x v _ hx hphase hr hrun hrole hs hsize hround hwait hown hcase =>
      countRound_climbs hx hphase hr hrun hrole hs hsize hround hwait hown hcase,
    fun s p x hr hp hx h => count_stale hr hp (hx ▸ h),
    fun s p n g x role v k _ hr hp hx hphase hfld hg hrole hepoch hstep htry hv hk hnd =>
      count_current ⟨hr, hp, hg, hx ▸ hphase, hfld.trans (congrArg Permute.phase hx), hepoch, hstep, htry⟩ hrole hx hv hk hnd,
    fun s p role x e first w hb hr hp h7 hcur hx he hrank hw => move_data ⟨hr, hp, h7, hcur⟩ hb hx he hrank hw⟩
  case levels => rw [collGeom_levels hg, hsize]; decide

end Sys2Proof.Proofs
end

section
/-!
SUPPORT. The search for an object number (R207): the numbers that it tries, in their order, and that one of them is free.
-/
namespace Sys2Proof.Laws
open Sys2Proof Sys2Proof.Machine Sys2Proof.Safety

/-- The number that the search from `c` tries after passing `k` others: up from `c`, and from 1 again after 2^30 − 1. -/
def numberAfter (c k : Nat) : Nat := (c - 1 + k) % (2 ^ 30 - 1) + 1

theorem numberAfter_range (c k : Nat) : 1 ≤ numberAfter c k ∧ numberAfter c k < 2 ^ 30 := by
  unfold numberAfter; omega

theorem numberAfter_zero {c : Nat} (h1 : 1 ≤ c) (h2 : c < 2 ^ 30) : numberAfter c 0 = c := by
  unfold numberAfter; omega

/-- Where a counter that has passed a number goes on. -/
theorem wrap_numberAfter (c k : Nat) :
    (if numberAfter c k + 1 ≥ 2 ^ 30 || numberAfter c k + 1 = 0 then 1 else numberAfter c k + 1) = numberAfter c (k + 1) := by
  unfold numberAfter
  simp only [Bool.or_eq_true, decide_eq_true_eq]
  split <;> omega

theorem okey_numberAfter_inj {b c i j : Nat} (hi : i < 2 ^ 30 - 1) (hj : j < 2 ^ 30 - 1)
    (h : okey b (numberAfter c i) = okey b (numberAfter c j)) : i = j := by
  unfold okey numberAfter at h; omega

theorem mem_keys_of_mget {α : Type} {m : NMap α} {i : Nat} (h : (mget m i).isSome = true) : i ∈ m.map Prod.fst := by
  induction m with
  | nil => cases h
  | cons d m ih =>
    rw [mget] at h
    split at h
    · simp_all
    · exact List.mem_cons_of_mem _ (ih h)

/-- Among the numbers that the search tries, the objects cannot have taken every one: some number within the table's length is free. -/
theorem exists_free_number (s : State) (b c : Nat) (hlen : s.mem.objects.length < 2 ^ 30 - 1) :
    ∃ k, k ≤ s.mem.objects.length ∧ objAt s b (numberAfter c k) = none := by
  by_contra hall
  have hsome : ∀ k ≤ s.mem.objects.length, (objAt s b (numberAfter c k)).isSome = true := fun k hk =>
    Option.isSome_iff_ne_none.2 fun hn => hall ⟨k, hk, hn⟩
  have hnodup : ((List.range (s.mem.objects.length + 1)).map fun k => okey b (numberAfter c k)).Nodup :=
    List.Nodup.map_on (fun i hi j hj => okey_numberAfter_inj
    (by have := List.mem_range.1 hi; omega) (by have := List.mem_range.1 hj; omega)) List.nodup_range
  have hsub : ((List.range (s.mem.objects.length + 1)).map fun k => okey b (numberAfter c k)) ⊆ s.mem.objects.map Prod.fst := fun x hx => by
    obtain ⟨k, hk, rfl⟩ := List.mem_map.1 hx
    exact mem_keys_of_mget (hsome k (by have := List.mem_range.1 hk; omega))
  have := (hnodup.subperm hsub).length_le
  simp at this

/-- The search stops at the first number that is free. -/
theorem nextNumber_first {s : State} {b c : Nat} (fuel n k d : Nat) (hn : (if n ≥ 2 ^ 30 || n = 0 then 1 else n) = numberAfter c k)
    (hd : d < fuel) (hfree : objAt s b (numberAfter c (k + d)) = none)
    (hused : ∀ j, j < d → (objAt s b (numberAfter c (k + j))).isSome = true) : nextNumber s b fuel n = numberAfter c (k + d) := by
  induction fuel generalizing n k d with
  | zero => omega
  | succ fuel ih =>
    rw [nextNumber]
    simp only [hn]
    cases d with
    | zero => rw [if_neg (by rw [Nat.add_zero] at hfree; simp [hfree])]; rfl
    | succ d =>
      rw [if_pos (by simpa using hused 0 (by omega)), ih _ (k + 1) d (wrap_numberAfter c k) (by omega)
        (by rwa [Nat.add_right_comm, Nat.add_assoc]) fun j hj => by
          rw [Nat.add_right_comm, Nat.add_assoc]; exact hused (j + 1) (by omega)]
      rw [Nat.add_right_comm, Nat.add_assoc]

/-- The number of a new object: the first free one from the berth's counter, found before the fuel is spent. -/
theorem nextNumber_spec {s : State} {b c : Nat} (h1 : 1 ≤ c) (h2 : c < 2 ^ 30) (hlen : s.mem.objects.length < 2 ^ 30 - 1) :
    ∃ k, k ≤ s.mem.objects.length ∧ nextNumber s b (s.mem.objects.length + 2) c = numberAfter c k ∧ objAt s b (numberAfter c k) = none ∧
      ∀ j, j < k → (objAt s b (numberAfter c j)).isSome = true := by
  have hex := exists_free_number s b c hlen
  have hex' : ∃ k, objAt s b (numberAfter c k) = none := hex.imp fun _ h => h.2
  obtain ⟨k, hk, hnone⟩ := hex
  have hmin : Nat.find hex' ≤ s.mem.objects.length := (Nat.find_min' hex' hnone).trans hk
  have hused : ∀ j, j < Nat.find hex' → (objAt s b (numberAfter c j)).isSome = true := fun j hj =>
    Option.isSome_iff_ne_none.2 (Nat.find_min hex' hj)
  have hstart : (if c ≥ 2 ^ 30 || c = 0 then 1 else c) = numberAfter c 0 := by
    rw [numberAfter_zero h1 h2, if_neg (by simp; omega)]
  refine ⟨Nat.find hex', hmin, ?_, Nat.find_spec hex', hused⟩
  have := nextNumber_first (s := s) (b := b) (s.mem.objects.length + 2) c 0 (Nat.find hex') hstart (by omega)
    (by rw [Nat.zero_add]; exact Nat.find_spec hex') fun j hj => by rw [Nat.zero_add]; exact hused j hj
  rwa [Nat.zero_add] at this

end Sys2Proof.Laws
end

section
/-!
PROOFS. Canonical memory and registers along every step (O4), and the numbers of new objects (O15).
-/
namespace Sys2Proof.Proofs
open Sys2Proof Sys2Proof.Machine Sys2Proof.Safety Sys2Proof.Laws

/-- Settles O4: the step idles, or carries out a command, which keeps the form by `rel_of_exec`; the queue is no part of it. -/
theorem stepsKeepCanonicalForm : Obligations.StepsKeepCanonicalForm := by
  unfold Obligations.StepsKeepCanonicalForm
  intro s t hs ht
  unfold step at ht
  cases hq : s.pending with
  | nil =>
    rw [hq] at ht
    cases ht
    exact hs
  | cons c cs =>
    rw [hq] at ht
    have hqueue : Canonical { s with pending := cs } := hs
    exact (rel_of_exec ht).canon hqueue

/-- Settles O15: the search stops at the first free number (`nextNumber_first`), and the table is too short to hold every number that it
tries (`exists_free_number`). -/
theorem objectNumbers : Obligations.ObjectNumbers := by
  unfold Obligations.ObjectNumbers
  intro s b pages tier policy c moved coded t hd hb h1 h2 hc hlen hplace
  obtain ⟨k, hk, hnum, hfree, hused⟩ := nextNumber_spec (s := s) (b := b) h1 h2 (by omega)
  unfold placeObject at hplace
  rw [hc, hnum] at hplace
  obtain ⟨rfl, rfl⟩ := Prod.mk.inj hplace
  have hrange := numberAfter_range c k
  refine ⟨k, hk, hfree, ?_, rfl, hused, ?_, fun m hm => ?_⟩
  · rw [objAt, modMem_mem, mget_mset]
    simp [numberAfter]
  · rw [modMem_mem, fget_fset_same]
    change _ = numberAfter c k % (2 ^ 30 - 1) + 1
    split <;> omega
  · rw [modMem_mem, mget_mset]
    exact if_neg hm

end Sys2Proof.Proofs
end

section
/-!
SUPPORT. A command that waits in flight (R412), the page counts of an allocation (R208), and the release of an object (R210).
-/
namespace Sys2Proof.Laws
open Sys2Proof Sys2Proof.Machine Sys2Proof.Safety

/-! ### A command in flight -/

theorem conclude_later_eq (u : State) (h : EcpHdr) (op : Nat) : conclude u h op .later =
    count (modBerth u h.berth fun q => { acceptSeq q h.seq with inflight := (h.seq, op) :: q.inflight }) (0x1C00 + 0x10 * h.berth) 1 := rfl

theorem accepted_fresh {s : State} {h : EcpHdr} (ha : accepted s h = true) : seqView (berthOf (arrive s h) h.berth) h.seq = .fresh := by
  simp only [accepted, Bool.and_eq_true, decide_eq_true_eq] at ha
  exact (arrive_field s h (fun q => seqView q h.seq) (fun _ _ _ _ => rfl) (fun _ _ _ _ => rfl)).trans ha.2

theorem arrive_counts_other (s : State) (h : EcpHdr) {id : Nat} (h0 : id ≠ 0x1B00 + 0x10 * h.iface) (h1 : id ≠ 0x1B06 + 0x10 * h.iface) :
    mgetD (arrive s h).counts id 0 = mgetD s.counts id 0 := by
  rw [arrive_counts]
  exact counts_countFrame _ _ _ _ _ (by simpa [b2n] using h0) (by simpa [b2n] using h1)

theorem accepted_iface {s : State} {h : EcpHdr} (ha : accepted s h = true) : h.iface < 4 := by
  simp only [accepted, Bool.and_eq_true, decide_eq_true_eq] at ha
  omega

/-- A command that Quay admits and whose meaning leaves it in flight, changing nothing of Quay, the counts and the outputs. -/
theorem taken_of {s : State} {h : EcpHdr} {op : Nat} {cores : List Nat} (ha : admitted s h op cores = true)
    {body : State → State × Ans} {ps : List Part} (hb : (body (arrive s h)).2 = .later)
    (hr : Rel ps (arrive s h) (body (arrive s h)).1) (hps : Part.quay ∉ ps ∧ Part.tx ∉ ps ∧ Part.counts ∉ ps) :
    TakenWith id [] [] s (ecpRun s h op cores body) h op := by
  have hacc := admitted_accepted ha
  have h4 := accepted_berth hacc
  have hi := accepted_iface hacc
  have hq : (body (arrive s h)).1.quay = (arrive s h).quay := hr.frame .quay hps.1
  have htx : (body (arrive s h)).1.tx = (arrive s h).tx := hr.frame .tx hps.2.1
  have hc : (body (arrive s h)).1.counts = (arrive s h).counts := hr.frame .counts hps.2.2
  rw [ecpRun_admitted ha, hb, conclude_later_eq]
  generalize (body (arrive s h)).1 = u at hq htx hc
  have hbe : ∀ b, berthOf u b = berthOf (arrive s h) b := fun b => by unfold berthOf; rw [hq]
  refine ⟨?_, ?_, ?_, fun b hb4 hne => ?_, ?_, ?_, fun id hid _ => ?_⟩
  · rw [count_tx, modBerth_tx, htx, arrive_tx]
    rfl
  · rw [count_berthOf, berthOf_modBerth, hbe]
    exact seqView_accept _ _ (accepted_fresh hacc)
  · rw [count_berthOf, berthOf_modBerth, hbe]
    have hin := arrive_field s h Berth.inflight (fun _ _ _ _ => rfl) fun _ _ _ _ => rfl
    have hw := sameWork_arrive s h
    revert hin hw
    generalize berthOf (arrive s h) h.berth = q
    intro hin hw
    unfold sameWork at hw ⊢
    rw [← hw]
    simp [acceptSeq]
  · rw [count_berthOf, berthOf_modBerth_other _ _ h4 hb4 hne, hbe, arrive_other s h hb4 h4 hne]
  · rw [count_quay, ← arrive_quay s h]
    conv_rhs => rw [← hq]
    rfl
  · rw [counts_count, if_pos rfl, modBerth_counts, hc, arrive_counts_other s h (by omega) (by omega)]
    rfl
  · simp only [ecpCounts, List.mem_cons, List.not_mem_nil, or_false, not_or] at hid
    obtain ⟨e0, -, e2, -, e4, -⟩ := hid
    rw [counts_count, if_neg e4, modBerth_counts, hc, arrive_counts_other s h e0 e2]

/-- The frame of such a command, when its meaning changes the parts `ps`. -/
theorem taken_frame {s : State} {h : EcpHdr} {op : Nat} {cores : List Nat} (ha : admitted s h op cores = true)
    {body : State → State × Ans} {ps : List Part} (hb : (body (arrive s h)).2 = .later)
    (hr : Rel ps (arrive s h) (body (arrive s h)).1) : Frame (ecpParts ++ ps) s (ecpRun s h op cores body) := by
  rw [ecpRun_admitted ha, hb, conclude_later_eq]
  have sub : ∀ {qs : List Part}, Sub qs ecpParts → Sub qs (ecpParts ++ ps) := fun hs p hp => List.mem_append_left _ (hs p hp)
  have h1 : Rel (ecpParts ++ ps) s (body (arrive s h)).1 :=
    ((arrive_rel s h).widen (sub (by decide))).trans (hr.widen fun p hp => List.mem_append_right _ hp)
  exact (rel_count (rel_modBerth h1 (sub (by decide))) (sub (by decide))).frame

theorem conclude_later_mem (u : State) (h : EcpHdr) (op : Nat) : (conclude u h op .later).mem = u.mem := by
  rw [conclude_later_eq, count_mem, modBerth_mem]

/-- A command that answers at once, with the effect `u` on the parts `ps`, leaves a state with every property that follows from its frame, its
answer, and the memory and registers of `u`. -/
theorem answered_exec {s u : State} {h : EcpHdr} {op : Nat} {cores : List Nat} {P : State → Prop} (ha : admitted s h op cores = true)
    {body : State → State × Ans} {st d : Nat} {data : List Byte} (ps : List Part) (hb : body (arrive s h) = (u, .fin st d data))
    (hr : Rel ps (arrive s h) u) (hps : Part.quay ∉ ps ∧ Part.swl ∉ ps ∧ Part.tx ∉ ps ∧ Part.counts ∉ ps)
    (hP : ∀ t, Frame (ps ++ ecpParts) s t → Answered s t h op st d data → t.mem = u.mem → t.regs = u.regs → P t) :
    ∃ t, (Host.Outcome.next (ecpRun s h op cores body) : Host.Outcome State Fault Refusal) = .next t ∧ P t := by
  have hr' : Rel ps (arrive s h) (body (arrive s h)).1 := by rw [hb]; exact hr
  have h2 : (body (arrive s h)).2 = .fin st d data := by rw [hb]
  refine ⟨_, rfl, hP _ (frame_mono (answered_frame ha h2 hr') fun p hp => ?_) (answered_of ha h2 hr' hps) ?_ ?_⟩
  · simpa [or_comm] using hp
  · rw [ecpRun_admitted ha, hb, conclude_mem]
  · rw [ecpRun_admitted ha, hb, conclude_regs]

/-- The same of a command that waits in flight. -/
theorem taken_exec {s u : State} {h : EcpHdr} {op : Nat} {cores : List Nat} {P : State → Prop} (ha : admitted s h op cores = true)
    {body : State → State × Ans} (ps : List Part) (hb : body (arrive s h) = (u, .later)) (hr : Rel ps (arrive s h) u)
    (hps : Part.quay ∉ ps ∧ Part.tx ∉ ps ∧ Part.counts ∉ ps)
    (hP : ∀ t, Frame (ps ++ ecpParts) s t → TakenWith id [] [] s t h op → t.mem = u.mem → P t) :
    ∃ t, (Host.Outcome.next (ecpRun s h op cores body) : Host.Outcome State Fault Refusal) = .next t ∧ P t := by
  have hr' : Rel ps (arrive s h) (body (arrive s h)).1 := by rw [hb]; exact hr
  have h2 : (body (arrive s h)).2 = .later := by rw [hb]
  refine ⟨_, rfl, hP _ (frame_mono (taken_frame ha h2 hr') fun p hp => ?_) (taken_of ha h2 hr' hps) ?_⟩
  · simpa [or_comm] using hp
  · rw [ecpRun_admitted ha, hb, conclude_later_mem]

/-! ### The pages that an allocation finds -/

theorem nextNumber_congr {s t : State} (h : t.mem.objects = s.mem.objects) (b fuel n : Nat) : nextNumber t b fuel n = nextNumber s b fuel n := by
  induction fuel generalizing n with
  | zero => rfl
  | succ fuel ih =>
    have hobj : ∀ i, objAt t b i = objAt s b i := fun i => by rw [objAt, h]; rfl
    rw [nextNumber, nextNumber]
    simp only [ih, hobj]

@[simp] theorem arrive_usedPages (s : State) (h : EcpHdr) (b t : Nat) : usedPages (arrive s h) b t = usedPages s b t := by
  simp [usedPages, storePages, objsOf]

@[simp] theorem arrive_partUsed (s : State) (h : EcpHdr) (b : Nat) : partUsed (arrive s h) b = partUsed s b := by
  simp [partUsed, stagedBytes, heldCount]

@[simp] theorem arrive_freeT1 (s : State) (h : EcpHdr) (b : Nat) : freeT1 (arrive s h) b = freeT1 s b := by
  have hpart : partUsed (arrive s h) = partUsed s := funext (arrive_partUsed s h)
  simp only [freeT1, dirtyPages, arrive_rd, hpart, arrive_mem]

@[simp] theorem arrive_quotaT2 (s : State) (h : EcpHdr) (b : Nat) : quotaT2 (arrive s h) b = quotaT2 s b := by
  simp [quotaT2]

@[simp] theorem arrive_freeT2 (s : State) (h : EcpHdr) (b : Nat) : freeT2 (arrive s h) b = freeT2 s b := by
  simp [freeT2, physT2, spillCount, dirtyPages]

@[simp] theorem arrive_quotaT3 (s : State) (h : EcpHdr) (b : Nat) : quotaT3 (arrive s h) b = quotaT3 s b := by
  simp [quotaT3]

@[simp] theorem arrive_t3Pages (s : State) (h : EcpHdr) (first n : Nat) : t3Pages (arrive s h) first n = t3Pages s first n := by
  have hfree : chanFree (arrive s h) = chanFree s := by
    funext ch
    simp [chanFree, chanCap, chanUsed, storeChan, dirtyPages]
  simp only [t3Pages, hfree, arrive_mem]

@[simp] theorem arrive_tableRoom (s : State) (h : EcpHdr) (n pages : Nat) : tableRoom (arrive s h) n pages = tableRoom s n pages := by
  have hstreams : streamCount (arrive s h) = streamCount s := by rw [streamCount, arrive_ofs]; rfl
  rw [tableRoom, hstreams, arrive_mem]; rfl

/-- What an allocation places: the objects, the berth's number counter and the clock. -/
theorem placeObject_eq (s : State) (b pages tier policy : Nat) (moved : NMap PageLoc) (coded : Bool) {n : Nat}
    (hn : n = nextNumber s b (s.mem.objects.length + 2) (fget s.mem.nextObj b)) :
    placeObject s b pages tier policy moved coded =
      (modMem s fun m => { m with
        objects := mset m.objects (okey b n)
          ⟨pages * pageSize, pages, tier, policy, moved, false, coded, false, s.mem.clock + 1, [], 0, 0⟩
        nextObj := fset m.nextObj b (if n + 1 ≥ 2 ^ 30 then 1 else n + 1)
        clock := m.clock + 1 }, mkHandle b n) := by
  rw [hn]; rfl

theorem cdiv_page_pos {size : Nat} (h : size ≠ 0) : 1 ≤ cdiv size pageSize := by
  unfold cdiv pageSize
  omega

/-- An allocation of T2 pages that are free is placed: its quota is not below the berth's use. -/
theorem allocT2_placed {s : State} {b pages : Nat} (policy : Nat) (hpos : 1 ≤ pages) (hfree : pages ≤ freeT2 s b) :
    allocT2 s b pages policy = .placed (placeObject s b pages 2 policy [] false).1 (placeObject s b pages 2 policy [] false).2 := by
  have hquota : pages ≤ quotaT2 s b := hfree.trans (Nat.min_le_left ..)
  have huse : ¬ rd s (PGR_T2_QUOTA_pages.at b) < usedPages s b 2 := by
    unfold quotaT2 at hquota; omega
  rw [allocT2, if_neg huse, if_pos hfree]

/-- One that the quota has and the zeroed pages of the moment have not waits. -/
theorem allocT2_waits {s : State} {b pages : Nat} (policy : Nat) (hfree : freeT2 s b < pages) (hquota : pages ≤ quotaT2 s b) :
    allocT2 s b pages policy = .wait := by
  have huse : ¬ rd s (PGR_T2_QUOTA_pages.at b) < usedPages s b 2 := by
    unfold quotaT2 at hquota; omega
  rw [allocT2, if_neg huse, if_neg (by omega), if_pos hquota]

theorem allocTry_t1 {s : State} {b pages : Nat} (policy : Nat) (hfree : pages ≤ freeT1 s b) :
    allocTry s b pages 1 policy = .placed (placeObject s b pages 1 policy [] false).1 (placeObject s b pages 1 policy [] false).2 :=
  if_pos hfree

/-- An allocation of T3 pages takes the channels of the rotation, which then stands behind the last. -/
theorem allocTry_t3 {s : State} {b pages rot : Nat} {moved : NMap PageLoc} (policy : Nat) (hquota : pages ≤ quotaT3 s b)
    (hplace : t3Pages s 0 pages = some (moved, rot)) :
    allocTry s b pages 3 policy = .placed (placeObject (modMem s fun m => { m with rotate := rot }) b pages 3 policy moved false).1
      (placeObject (modMem s fun m => { m with rotate := rot }) b pages 3 policy moved false).2 := by
  rw [allocTry, if_pos hquota]
  · simp only [hplace]
  · decide
  · decide

/-- The rows of R208 before the tier's own pass, and the table has room: the check answers what the tier does. -/
theorem allocCheck_ok {s : State} {b size tier policy : Nat} {v : AllocView} (h0 : size ≠ 0) (h1 : size ≤ 2 ^ 42)
    (htier : tier = 1 ∧ policy = 0 ∨ tier = 2 ∨ tier = 3 ∧ hasDdr s.variant = true) (hpolicy : policy ≤ 3)
    (hroom : tableRoom s 1 (cdiv size pageSize) = true) (htry : allocTry s b (cdiv size pageSize) tier policy = v) (hv : ∀ d, v ≠ .refuse d) :
    allocCheck s b size tier policy = .ok v := by
  unfold allocCheck
  rw [if_neg (by simp; omega), if_neg (by rcases htier with h | h | h <;> simp [h]), if_neg (by simp; omega),
    if_neg (by rcases htier with h | h | h <;> simp [h] <;> omega), htry]
  cases v with
  | refuse d => exact absurd rfl (hv d)
  | placed s' h => exact if_pos hroom
  | wait => exact if_pos hroom

/-! The rows of R208 that are refused before the tier is asked. -/

theorem allocCheck_size {s : State} {b size tier policy : Nat} (h : size = 0 ∨ size > 2 ^ 42) :
    allocCheck s b size tier policy = .error (0x20, 1) :=
  if_pos (by simpa using h)

theorem allocCheck_noT3 {s : State} {b size tier policy : Nat} (h0 : size ≠ 0) (h1 : size ≤ 2 ^ 42) (ht : tier = 3)
    (hv : hasDdr s.variant = false) : allocCheck s b size tier policy = .error (0x11, 0) := by
  unfold allocCheck
  rw [if_neg (by simp; omega), if_pos (by simp [ht, hv])]
  rfl

theorem allocCheck_tier {s : State} {b size tier policy : Nat} (h0 : size ≠ 0) (h1 : size ≤ 2 ^ 42) (ht : tier = 0 ∨ tier > 3) :
    allocCheck s b size tier policy = .error (0x20, 2) := by
  unfold allocCheck
  rw [if_neg (by simp; omega), if_neg (by simp; omega), if_pos (by simpa using ht)]
  rfl

theorem allocCheck_policy {s : State} {b size tier policy : Nat} (h0 : size ≠ 0) (h1 : size ≤ 2 ^ 42) (ht : tier = 1) (hp : policy ≠ 0) :
    allocCheck s b size tier policy = .error (0x20, 3) := by
  unfold allocCheck
  rw [if_neg (by simp; omega), if_neg (by simp [ht]), if_neg (by simp [ht]), if_pos (by simp [ht, hp])]
  rfl

/-! ### An object is released -/

theorem tryAllocs_none {s : State} (h : s.mem.allocs = []) : tryAllocs s = s := by
  rw [tryAllocs, h]; rfl

theorem cellGet_cellDrop_outside (m : List Host.Cell) {a n x : Nat} (h : x < a ∨ a + n ≤ x) : cellGet (cellDrop m a n) x = cellGet m x := by
  induction m with
  | nil => rfl
  | cons c m ih =>
    unfold cellDrop at ih ⊢
    rw [List.filter_cons]
    split
    · rw [cellGet, cellGet, ih]
    · next hc =>
      rw [ih, cellGet, if_neg]
      rintro rfl
      exact hc (by simpa using h)

/-- What a release leaves of memory. -/
theorem releaseObject_mem {s : State} {b n : Nat} {o : Obj} (h : objAt s b n = some o) : (releaseObject s b n).mem = { s.mem with
    objects := mdel s.mem.objects (okey b n)
    bytes := cellDrop s.mem.bytes (objBase b n) (2 ^ 43)
    bad := s.mem.bad.filter (fun c => c / 2 ^ 43 ≠ okey b n)
    unread := s.mem.unread.filter (fun c => c / 2 ^ 43 ≠ okey b n)
    zeroing := zeroPages s.mem.zeroing o
    moves := s.mem.moves.filter (fun x => !(x.berth = b && x.object = n))
    wants := s.mem.wants.filter (fun x => !(x.berth = b && x.object = n))
    held := s.mem.held.filter (fun x => !(x.berth = b && x.object = n)) } := by
  unfold releaseObject
  rw [h]
  rfl

theorem arrive_objOf (s : State) (h : EcpHdr) (x : Hdl) : objOf (arrive s h) x = objOf s x := by
  rw [objOf, objAt, arrive_mem]; rfl

/-! ### The quotas of a berth (R211) -/

/-- The quotas that MEM_CONFIG writes; a module without T3 has no T3 quota. -/
def withQuotas (s : State) (b t1 t2 t3 spill : Nat) : State :=
  let s := wrs s [(HBR_PART_pages.at b, t1), (PGR_T2_QUOTA_pages.at b, t2), (PGR_SPILL_pages.at b, spill)]
  if hasDdr s.variant then wr s (PGR_T3_QUOTA_pages.at b) t3 else s

theorem withQuotas_rel (s : State) (b t1 t2 t3 spill : Nat) : Rel [.regs] s (withQuotas s b t1 t2 t3 spill) :=
  iteP (P := Rel [.regs] s) (rel_wr (rel_wrs Rel.refl fun _ h => h) fun _ h => h) (rel_wrs Rel.refl fun _ h => h)

theorem withQuotas_regsBut (s : State) (b t1 t2 t3 spill : Nat) : RegsBut [(HBR_PART_pages.at b).off, (PGR_T2_QUOTA_pages.at b).off,
    (PGR_T3_QUOTA_pages.at b).off, (PGR_SPILL_pages.at b).off] s (withQuotas s b t1 t2 t3 spill) := by
  have hthree := regsBut_wrs s [(HBR_PART_pages.at b, t1), (PGR_T2_QUOTA_pages.at b, t2), (PGR_SPILL_pages.at b, spill)]
  unfold withQuotas
  dsimp only
  split
  · exact regsBut_trans (regsBut_mono hthree (by simp)) (regsBut_mono (regsBut_wr _ _ _) (by simp))
  · exact regsBut_mono hthree (by simp)

/-- Each quota reads what was written. -/
theorem rd_withQuotas (s : State) {b t1 t2 t3 spill : Nat} (h1 : t1 < 2 ^ 9) (h2 : t2 < 2 ^ 18) (hs : spill < 2 ^ 18) :
    rd (withQuotas s b t1 t2 t3 spill) (HBR_PART_pages.at b) = t1 ∧ rd (withQuotas s b t1 t2 t3 spill) (PGR_T2_QUOTA_pages.at b) = t2 ∧
      rd (withQuotas s b t1 t2 t3 spill) (PGR_SPILL_pages.at b) = spill := by
  have hthree : ∀ f : Fld, f.off ≠ (PGR_T3_QUOTA_pages.at b).off → rd (withQuotas s b t1 t2 t3 spill) f =
      rd (wrs s [(HBR_PART_pages.at b, t1), (PGR_T2_QUOTA_pages.at b, t2), (PGR_SPILL_pages.at b, spill)]) f := fun f hf => by
    unfold withQuotas
    dsimp only
    split
    · exact rd_wr_other (by simp [Fld.at, PGR_T3_QUOTA_pages]) (.inl hf) _ _
    · rfl
  have hoffs : (HBR_PART_pages.at b).off = 0x50010 + 4 * b ∧ (PGR_T2_QUOTA_pages.at b).off = 0x54010 + 4 * b ∧
      (PGR_T3_QUOTA_pages.at b).off = 0x54020 + 4 * b ∧ (PGR_SPILL_pages.at b).off = 0x54030 + 4 * b := ⟨rfl, rfl, rfl, rfl⟩
  obtain ⟨o1, o2, o3, o4⟩ := hoffs
  refine ⟨?_, ?_, ?_⟩
  · rw [hthree _ (by omega)]
    simp only [wrs]
    rw [rd_wr_other (by simp [Fld.at, PGR_SPILL_pages]) (.inl (by omega)), rd_wr_other (by simp [Fld.at, PGR_T2_QUOTA_pages]) (.inl (by omega)),
      rd_wr_same (by simp [Fld.at, HBR_PART_pages])]
    exact Nat.mod_eq_of_lt h1
  · rw [hthree _ (by omega)]
    simp only [wrs]
    rw [rd_wr_other (by simp [Fld.at, PGR_SPILL_pages]) (.inl (by omega)), rd_wr_same (by simp [Fld.at, PGR_T2_QUOTA_pages])]
    exact Nat.mod_eq_of_lt h2
  · rw [hthree _ (by omega)]
    simp only [wrs]
    rw [rd_wr_same (by simp [Fld.at, PGR_SPILL_pages])]
    exact Nat.mod_eq_of_lt hs

theorem t3Quota_withQuotas (s : State) {b t1 t2 t3 spill : Nat} (h3 : t3 < 2 ^ 21) :
    t3Quota (withQuotas s b t1 t2 t3 spill) b = if hasDdr s.variant then t3 else 0 := by
  unfold t3Quota
  rw [(withQuotas_rel s b t1 t2 t3 spill).variant]
  by_cases h : hasDdr s.variant = true
  · have hw : hasDdr (wrs s [(HBR_PART_pages.at b, t1), (PGR_T2_QUOTA_pages.at b, t2), (PGR_SPILL_pages.at b, spill)]).variant = true := h
    rw [if_pos h, if_pos h, withQuotas, if_pos hw, rd_wr_same (by simp [Fld.at, PGR_T3_QUOTA_pages])]
    exact Nat.mod_eq_of_lt h3
  · rw [if_neg h, if_neg h]

theorem arrive_memConfigOk (s : State) (h : EcpHdr) (b t1 t2 t3 spill bal : Nat) :
    memConfigOk (arrive s h) b t1 t2 t3 spill bal = memConfigOk s b t1 t2 t3 spill bal := by
  have hquota : t3Quota (arrive s h) = t3Quota s := by
    funext b
    simp [t3Quota]
  have htotal : totalT3 (arrive s h) = totalT3 s := by
    have hcap : chanCap (arrive s h) = chanCap s := funext fun ch => by simp [chanCap]
    rw [totalT3, hcap]; rfl
  simp only [memConfigOk, hquota, htotal, objsOf, arrive_rd, arrive_partUsed, arrive_usedPages, arrive_mem]

theorem chanCap_le (s : State) (ch : Nat) : chanCap s ch ≤ 131072 := by
  unfold chanCap
  split
  · split <;> omega
  · omega

theorem totalT3_le (s : State) : totalT3 s ≤ 12 * 131072 := by
  have h := List.sum_le_card_nsmul ((List.range 12).map (chanCap s)) 131072 (by simp [chanCap_le])
  simpa [totalT3] using h

/-- The quotas of a configuration that keeps R211 fit their fields. -/
theorem memConfigOk_bounds {s : State} {b t1 t2 t3 spill bal : Nat} (h : memConfigOk s b t1 t2 t3 spill bal = true) :
    t1 < 2 ^ 9 ∧ t2 < 2 ^ 18 ∧ t3 < 2 ^ 21 ∧ spill < 2 ^ 18 := by
  have := totalT3_le s
  simp only [memConfigOk, Bool.and_eq_true, decide_eq_true_eq] at h
  omega

theorem failAllocs_none {s : State} (h : s.mem.allocs = []) (b t1 t2 t3 : Nat) : failAllocs s b t1 t2 t3 = s := by
  unfold failAllocs
  dsimp only
  rw [h]
  show modMem s _ = s
  unfold modMem
  dsimp only
  rw [h, List.filter_nil, ← h]

end Sys2Proof.Laws
end

section
/-!
PROOFS. The commands about objects and quotas (O16).
-/
namespace Sys2Proof.Proofs
open Sys2Proof Sys2Proof.Machine Sys2Proof.Safety Sys2Proof.Laws

/-- The tier has the pages of an allocation: of T1, of T2, or of T3 by rotation. -/
def Fits (s : State) (b tier policy pages : Nat) (moved : NMap PageLoc) (rot : Nat) : Prop :=
  (tier = 1 ∧ policy = 0 ∧ pages ≤ freeT1 s b ∧ moved = [] ∧ rot = s.mem.rotate) ∨
    (tier = 2 ∧ pages ≤ freeT2 s b ∧ moved = [] ∧ rot = s.mem.rotate) ∨
    (tier = 3 ∧ hasDdr s.variant = true ∧ pages ≤ quotaT3 s b ∧ t3Pages s 0 pages = some (moved, rot))

theorem fits_arrive {s : State} {h : EcpHdr} {b tier policy pages rot : Nat} {moved : NMap PageLoc} (hfit : Fits s b tier policy pages moved rot) :
    Fits (arrive s h) b tier policy pages moved rot := by
  unfold Fits at hfit ⊢
  simpa using hfit

/-- The try of an allocation that fits places its object. -/
theorem allocTry_placed {s : State} {b pages tier policy rot : Nat} {moved : NMap PageLoc} (hpos : 1 ≤ pages)
    (hfit : Fits s b tier policy pages moved rot) :
    allocTry s b pages tier policy = .placed (placeObject (modMem s fun m => { m with rotate := rot }) b pages tier policy moved false).1
      (placeObject (modMem s fun m => { m with rotate := rot }) b pages tier policy moved false).2 := by
  rcases hfit with ⟨rfl, -, hfree, rfl, rfl⟩ | ⟨rfl, hfree, rfl, rfl⟩ | ⟨rfl, -, hquota, hplace⟩
  · exact allocTry_t1 policy hfree
  · exact allocT2_placed policy hpos hfree
  · exact allocTry_t3 policy hquota hplace

theorem size_ne_zero {size : W64} (h : size ≠ 0) : size.toNat ≠ 0 := fun e => h (BitVec.eq_of_toNat_eq e)

/-- An allocation that fits is placed under the berth's next number. -/
theorem allocCheck_placed {s : State} {b size tier policy rot n : Nat} {moved : NMap PageLoc} (h0 : size ≠ 0) (h1 : size ≤ 2 ^ 42)
    (hpolicy : policy ≤ 3) (hroom : tableRoom s 1 (cdiv size pageSize) = true) (hfit : Fits s b tier policy (cdiv size pageSize) moved rot)
    (hn : n = nextNumber s b (s.mem.objects.length + 2) (fget s.mem.nextObj b)) :
    allocCheck s b size tier policy = .ok (.placed (modMem s fun m => { m with
      objects := mset m.objects (okey b n)
        ⟨cdiv size pageSize * pageSize, cdiv size pageSize, tier, policy, moved, false, false, false, m.clock + 1, [], 0, 0⟩
      nextObj := fset m.nextObj b (if n + 1 ≥ 2 ^ 30 then 1 else n + 1)
      clock := m.clock + 1, rotate := rot }) (mkHandle b n)) := by
  have htry := allocTry_placed (cdiv_page_pos h0) hfit
  have hplace := placeObject_eq (modMem s fun m => { m with rotate := rot }) b (cdiv size pageSize) tier policy moved false
    (hn.trans (nextNumber_congr (s := s) (t := modMem s fun m => { m with rotate := rot }) rfl ..).symm)
  rw [hplace] at htry
  exact allocCheck_ok h0 h1 (by rcases hfit with h | h | h <;> simp [h]) hpolicy hroom htry fun d => by simp

/-- ALLOC: a row of R208 that is broken before the tier's own pass is answered with its reason and changes nothing. -/
theorem alloc_refused {s : State} {h : EcpHdr} {size : W64} {tier policy st d : Nat} (ha : admitted s h 0x0301 [] = true)
    (hcheck : allocCheck (arrive s h) h.berth size.toNat tier policy = .error (st, d)) {t : State}
    (ht : exec (.alloc h size tier policy) s = .next t) : Answered s t h 0x0301 st d [] ∧ Frame ecpParts s t := by
  cases ht
  exact (answered_unchanged ha (by rw [hcheck])).symm

/-- Settles O16: every clause evaluates the command on its arrival, which has the pages, objects and quotas of the state before. -/
theorem objectCommands : Obligations.ObjectCommands := by
  unfold Obligations.ObjectCommands
  refine ⟨?_, ?_, ?_, ?_, ?_, ?_, ?_, ?_⟩
  · intro s h size tier policy pages n rot moved ha hpages h0 h1 hpolicy hroom hn hfit
    subst hpages
    have hcheck := allocCheck_placed (s := arrive s h) (size_ne_zero h0) h1 hpolicy (by simpa using hroom) (fits_arrive hfit)
      (n := n) (by rw [arrive_mem, nextNumber_congr (s := s) (by rw [arrive_mem])]; exact hn)
    refine answered_exec ha [.mem] (by rw [hcheck]; rfl) ?_ (by decide) fun t hframe hans hmem _ => ⟨hframe, hans, ?_⟩
    · exact rel_modMem Rel.refl (by decide) rfl
    · rw [hmem, modMem_mem, arrive_mem]
  · intro s h size policy pages ha hpages h0 h1 hpolicy hroom hfree hquota
    subst hpages
    have hcheck := allocCheck_ok (s := arrive s h) (b := h.berth) (tier := 2) (size_ne_zero h0) h1 (by simp) hpolicy (by simpa using hroom)
      (allocT2_waits policy (by simpa using hfree) (by simpa using hquota)) fun d => by simp
    refine taken_exec ha [.mem] (by rw [hcheck]) ?_ (by decide) fun t hframe htaken hmem => ⟨hframe, htaken, ?_⟩
    · exact rel_modMem Rel.refl (by decide) rfl
    · rw [hmem, modMem_mem, arrive_mem]
  · intro s h size tier policy ha
    refine ⟨_, rfl, fun hrow => ?_, fun hrow => ?_, fun hrow => ?_, fun hrow => ?_⟩
    · exact alloc_refused ha (allocCheck_size (hrow.imp_left fun e => by rw [e]; rfl)) rfl
    · obtain ⟨h0, h1, htier, hddr⟩ := hrow
      exact alloc_refused ha (allocCheck_noT3 (size_ne_zero h0) h1 htier (by simpa using hddr)) rfl
    · obtain ⟨h0, h1, htier⟩ := hrow
      exact alloc_refused ha (allocCheck_tier (size_ne_zero h0) h1 htier) rfl
    · obtain ⟨h0, h1, htier, hpolicy⟩ := hrow
      exact alloc_refused ha (allocCheck_policy (size_ne_zero h0) h1 htier hpolicy) rfl
  · intro s h handle o ha ho hb hfreeing hseg
    have ho' : mget (arrive s h).mem.objects (okey h.berth (hObj handle)) = some o := by rw [← hb, ← ho]; exact arrive_objOf s h handle
    have hseg' : segmentOperand (arrive s h) h.berth (hObj handle) = false := by simpa [segmentOperand] using hseg
    refine answered_exec ha [.mem] (u := modObj (arrive s h) h.berth (hObj handle) fun o => { o with freeing := true }) ?_
      (rel_modObj Rel.refl fun _ h => h) (by decide) fun t hframe hans hmem _ => ⟨hframe, hans, ?_⟩
    · rw [arrive_objOf, ho]
      dsimp only
      rw [if_neg (by simp [hb, hfreeing]), hseg', if_neg (by simp)]
      rfl
    · rw [hmem, modObj, modMem_mem, mmod_of_mget _ ho', arrive_mem]
  · intro s b n o ho hfreeing hnamed hallocs
    have hexec : exec (.objectRelease b n) s = .next (releaseObject s b n) := by
      show execObjectRelease b n s = _
      unfold execObjectRelease
      rw [ho]
      dsimp only
      rw [if_pos (by simp [hfreeing, hnamed]), tryAllocs_none (by rw [releaseObject_mem ho]; exact hallocs)]
    have hmem := releaseObject_mem ho
    refine ⟨_, hexec, (rel_releaseObject Rel.refl fun _ h => h).frame, ?_, by rw [hmem], fun x hx => ?_, fun x h1 h2 => ?_, by rw [hmem]⟩
    · rw [objAt, hmem, mget_mdel, if_pos rfl]
    · rw [hmem]
      exact cellGet_cellDrop_outside _ hx
    · rw [hmem]
      exact cellGet_cellDrop_inside h1 h2
  · intro s b n o ho hstays
    show execObjectRelease b n s = _
    unfold execObjectRelease
    rw [ho]
    dsimp only
    rw [if_neg (by rcases hstays with h | h <;> simp [h])]
  · intro s h t1 t2 t3 spill bal ha hddr hok hallocs
    obtain ⟨h1, h2, h3, hs⟩ := memConfigOk_bounds hok
    obtain ⟨hpart, ht2, hspill⟩ := rd_withQuotas (arrive s h) (b := h.berth) (t3 := t3) h1 h2 hs
    have hkept : (withQuotas (arrive s h) h.berth t1 t2 t3 spill).mem = s.mem :=
      (Rel.same_mem (withQuotas_rel ..) (by decide) (by decide)).trans (arrive_mem s h)
    have hnone : (withQuotas (arrive s h) h.berth t1 t2 t3 spill).mem.allocs = [] := by rw [hkept, hallocs]
    refine answered_exec ha (st := 0) (d := 0) (data := []) [.regs, .mem]
      (u := modMem (withQuotas (arrive s h) h.berth t1 t2 t3 spill) fun m => { m with balance := fset m.balance h.berth (bal = 1) }) ?_
      (rel_modMem ((withQuotas_rel ..).widen (by decide)) (by decide) rfl) (by decide) fun t hframe hans hmem hregs => ?_
    · dsimp only
      rw [if_neg (by simpa using hddr), arrive_memConfigOk, hok, if_neg (by simp), failAllocs_none (by simpa using hallocs)]
      exact congrArg (·, Ans.ok []) (tryAllocs_none hnone)
    · have hvariant : t.variant = s.variant := hframe .variant (by decide)
      have hv : (withQuotas (arrive s h) h.berth t1 t2 t3 spill).variant = s.variant := (withQuotas_rel ..).variant.trans (arrive_variant s h)
      have hreads : ∀ f, rd t f = rd (withQuotas (arrive s h) h.berth t1 t2 t3 spill) f := fun f =>
        rd_congr hregs (hvariant.trans hv.symm) f
      refine ⟨hframe, hans, ?_, (hreads _).trans hpart, (hreads _).trans ht2, (hreads _).trans hspill, ?_, ?_⟩
      · exact fun off hoff => (regWord_congr (s := withQuotas (arrive s h) h.berth t1 t2 t3 spill) hregs (hvariant.trans hv.symm) off).trans
          ((withQuotas_regsBut (arrive s h) h.berth t1 t2 t3 spill off hoff).trans (regWord_congr (arrive_regs s h) (arrive_variant s h) off))
      · rw [← arrive_variant s h, ← t3Quota_withQuotas (arrive s h) (b := h.berth) (t1 := t1) (t2 := t2) (spill := spill) h3, t3Quota, t3Quota,
          hreads, hvariant, hv]
      · rw [hmem, modMem_mem, hkept]
  · intro s h t1 t2 t3 spill bal ha h3 hddr
    refine ⟨_, rfl, answered_unchanged ha ?_⟩
    dsimp only
    rw [if_pos (by simp [h3, hddr])]
    rfl

end Sys2Proof.Proofs
end

section
/-!
PROOFS. The moves that a started operation leaves in flight (O48): the statement fails where the read of its mask loses a channel.
-/
namespace Sys2Proof.Proofs
open Sys2Proof Sys2Proof.Machine Sys2Proof.Safety Sys2Proof.Laws

/-- An uncorrectable error of a DDR5 channel: its registers and record on the way to `y`, and then the channel's count, which may lose the channel. -/
theorem noteUeIn_ddr (s : State) (ch a b : Nat) (scrub : Bool) :
    ∃ y, RegsBut [RST_IRQ_STAT.off, DDR_ERR_channel.off, DDR_IRQ_STAT.off] s y ∧ y.mem.moves = s.mem.moves ∧
      noteUeIn s 3 ch a b scrub =
        if rd (wr y (DDR_CE_COUNT_ue.at ch) (satAdd 255 (rd y (DDR_CE_COUNT_ue.at ch)) 1)) (DDR_CE_COUNT_ue.at ch) ≥
            rd1 (wr y (DDR_CE_COUNT_ue.at ch) (satAdd 255 (rd y (DDR_CE_COUNT_ue.at ch)) 1)) DDR_UE_LIMIT_limit then
          loseChannel (wr y (DDR_CE_COUNT_ue.at ch) (satAdd 255 (rd y (DDR_CE_COUNT_ue.at ch)) 1)) ch
        else wr y (DDR_CE_COUNT_ue.at ch) (satAdd 255 (rd y (DDR_CE_COUNT_ue.at ch)) 1) := by
  refine ⟨_, ?_, ?_, rfl⟩
  · have hlogged := regsBut_logError (useFree s) (tierDomain 3) 2 0 (BitVec.ofNat 64 (Config.freeNat s.free)) b
    have hwritten := regsBut_wrs (logError (useFree s) (tierDomain 3) 2 0 (BitVec.ofNat 64 (Config.freeNat s.free)) b)
      [(DDR_ERR_channel, ch), (DDR_ERR_subchannel, Config.freeNat s.free), (DDR_ERR_scrub, b2n scrub)]
    exact regsBut_trans (regsBut_mono hlogged (by decide)) (regsBut_trans
      (regsBut_mono hwritten (by simp [DDR_ERR_channel, DDR_ERR_subchannel, DDR_ERR_scrub]))
      (regsBut_mono (regsBut_wrOr _ DDR_IRQ_STAT_ue 1) (by decide)))
  · have hlogged : Rel [.regs, .rst] (useFree s) (logError (useFree s) (tierDomain 3) 2 0 (BitVec.ofNat 64 (Config.freeNat s.free)) b) :=
      rel_logError .refl (by decide)
    rw [modMem_mem, wrOr_mem, wrs_mem, hlogged.same_mem (by decide) (by decide), useFree_mem]

/-- One that brings the count to the limit loses the channel, and every demotion to it goes (R223). -/
theorem noteUeIn_limit {s : State} {ch : Nat} (hch : ch < 12) (a b : Nat) (scrub : Bool) (hlost : chanLost s ch = false)
    (hlimit : rd1 s DDR_UE_LIMIT_limit ≤ satAdd 255 (rd s (DDR_CE_COUNT_ue.at ch)) 1) :
    (noteUeIn s 3 ch a b scrub).mem.moves = s.mem.moves.filter fun x => !(x.kind = 1 && x.channel = ch) := by
  obtain ⟨y, hregs, hmoves, heq⟩ := noteUeIn_ddr s ch a b scrub
  have hoff : (DDR_CE_COUNT_ue.at ch).off = 0x5C020 + 4 * ch := rfl
  have hhi : (DDR_CE_COUNT_ue.at ch).hi < 32 := by show 23 < 32; decide
  have hsame : rd y (DDR_CE_COUNT_ue.at ch) = rd s (DDR_CE_COUNT_ue.at ch) :=
    rd_of_regsBut hregs (by rw [hoff]; simp [RST_IRQ_STAT, DDR_ERR_channel, DDR_IRQ_STAT]; omega)
  have hlt : satAdd 255 (rd s (DDR_CE_COUNT_ue.at ch)) 1 < 2 ^ 8 := by unfold satAdd; split <;> omega
  rw [heq, hsame]
  generalize hz : wr y (DDR_CE_COUNT_ue.at ch) (satAdd 255 (rd s (DDR_CE_COUNT_ue.at ch)) 1) = z
  have hcount : rd z (DDR_CE_COUNT_ue.at ch) = satAdd 255 (rd s (DDR_CE_COUNT_ue.at ch)) 1 := by
    rw [← hz, rd_wr_same hhi]
    exact Nat.mod_eq_of_lt hlt
  have hkeep : ∀ f : Fld, f.off ∉ [RST_IRQ_STAT.off, DDR_ERR_channel.off, DDR_IRQ_STAT.off] → f.off < 0x5C020 → rd z f = rd s f :=
    fun f hf hne => by rw [← hz, rd_wr_other hhi (.inl (by omega)), rd_of_regsBut hregs hf]
  have hlim : rd1 z DDR_UE_LIMIT_limit = rd1 s DDR_UE_LIMIT_limit := by
    unfold rd1
    rw [hkeep _ (by decide) (by decide)]
  have hstat : chanLost z ch = false := by
    unfold chanLost at hlost ⊢
    rwa [hkeep _ (by decide) (by decide)]
  obtain ⟨-, -, -, -, hmem⟩ := loseChannel_effect hch hstat
  rw [if_pos (by rw [hcount, hlim]; exact hlimit), hmem, ← hz, wr_mem, hmoves]

/-- A masked operation that is put on the array leaves the moves that the read of its mask leaves. -/
theorem launch_masked_moves (s : State) (b : Nat) (d : List Byte) (inSeg : Bool) (tap : Option Nat) (hmask : (parseOp d).maskMode ≠ 0) :
    (launch s b d inSeg tap).mem.moves = (noteRead s (parseOp d).hmask 0 (cdiv (maskBits (parseOp d)) 8)).mem.moves := by
  unfold launch
  extract_lets o mask u sp c r v w
  have hu : u = noteRead s o.hmask 0 (cdiv (maskBits o) 8) := if_pos hmask
  have hv : v.mem = u.mem := (rel_endFillRun .refl fun _ h => h : Rel _ u v).same_mem (by decide) (by decide)
  rw [foldS_keeps (fun t => t.mem.moves) (fun t h => show (touch t h).mem.moves = t.mem.moves from rfl),
    show w.mem = v.mem from modShelf_mem .., hv, hu]

/-- A one-page object in T2, and one whose page stands on channel 0 of T3. -/
def inT2 : Obj := ⟨pageSize, 1, 2, 0, [], false, false, false, 0, [], 0, 0⟩
def inT3 : Obj := { inT2 with moved := [(0, ⟨3, 0⟩)] }

/-- A product of one element that names objects 1 to 3 of berth 0: A and B are object 1, D is object 2, and the row mask is object 3. -/
def maskedOp : List Byte :=
  [0x01, 0] ++ zeros 6 ++ toLe 6 (mkHandle 0 1).toNat ++ toLe 6 (mkHandle 0 1).toNat ++ zeros 6 ++ toLe 6 (mkHandle 0 2).toNat ++
    toLe 4 1 ++ toLe 4 1 ++ toLe 4 1 ++ toLe 2 1 ++ zeros 6 ++ toLe 4 1 ++ toLe 4 1 ++ toLe 4 1 ++ [1, 0] ++ toLe 6 (mkHandle 0 3).toNat ++ zeros 56

/-- The operation stands at the head of its stream. Its mask has an uncorrectable word on channel 0, for which its promotion was given up (R225);
one such error is the channel's limit; and a page of object 4, which the operation does not name, is on its way to that channel. -/
def maskUnread : State :=
  { State.reset with
    regs := [(SHF_CTL_issue_en.off, 1), (SHF_BERTH_CTL_enable.off, 1), (DDR_STAT_in_service.off, 1), (DDR_UE_LIMIT_limit.off, 1)]
    shelf := { Shelf.reset with streams := ⟨[maskedOp], [], [], []⟩ }
    mem := { Memory.reset with
      objects := [(okey 0 1, inT2), (okey 0 2, inT2), (okey 0 3, inT3), (okey 0 4, inT2)]
      bad := [objBase 0 3], unread := [objBase 0 3], moves := [⟨0, 4, 0, 1, 0⟩] } }

theorem maskUnread_canonical : Canonical maskUnread := by unfold Canonical; decide +kernel

theorem maskUnread_pick : shelfFree maskUnread = true ∧ (choose (restDeficits maskUnread)).2 = some 0 ∧
    headOf maskUnread 0 = some (.stream maskedOp) ∧ opError maskUnread 0 (parseOp maskedOp) false = 0 ∧
    droppedOf maskUnread (parseOp maskedOp) = none := by decide +kernel

/-- A stream head that the scheduler picks is fetched. -/
theorem exec_opStart_stream {s : State} {b : Nat} {d : List Byte} (hfree : shelfFree s = true) (hmerge : noteMergeWait s = s)
    (hpick : (choose (restDeficits s)).2 = some b) (hhead : headOf (choose (restDeficits s)).1 b = some (.stream d)) :
    exec (.opStart []) s = .next (fetchHead (choose (restDeficits s)).1 b d) := by
  show execOpStart [] s = _
  unfold execOpStart
  dsimp only [noteIdle, foldS]
  rw [if_neg (by simp [hfree]), hmerge, show choose (restDeficits s) = ((choose (restDeficits s)).1, some b) from Prod.ext rfl hpick]
  dsimp only
  rw [hhead]

theorem startHead_untapped {s : State} {b : Nat} {d : List Byte} (htap : tapOn s (parseOp d) = false) :
    startHead s b d = launch (popHead s b) b d false none := by
  simp only [startHead, htap, Bool.false_eq_true, if_false]

/-- A good head with nothing to wait for and no tap starts at once. -/
theorem fetchHead_launches {s t : State} {b : Nat} {d : List Byte} (hgood : opError s b (parseOp d) false = 0)
    (ht : t = modShelf s fun x => { x with fetched := fset x.fetched b true }) (hdropped : droppedOf t (parseOp d) = none)
    (hready : (resident t (opHandles (parseOp d))).2 = true) (hexpand : expandWaits (resident t (opHandles (parseOp d))).1 (parseOp d) = false)
    (htap : tapOn (resident t (opHandles (parseOp d))).1 (parseOp d) = false) :
    fetchHead s b d = launch (popHead (resident t (opHandles (parseOp d))).1 b) b d false none := by
  have herr : ¬ (if fget s.shelf.fetched b = true then 0 else opError s b (parseOp d) false) ≠ 0 := by rw [hgood, ite_self]; simp
  unfold fetchHead
  extract_lets o err u r
  have hu : u = t := ht.symm
  have hr : r = resident t (opHandles o) := by unfold r; rw [hu]
  rw [if_neg herr, hu, hdropped]
  dsimp only
  rw [if_pos (by rw [hr, hready, hexpand]; rfl), hr, startHead_untapped htap]

/-- The state after the pick, and the fetched operation's state as it starts. -/
def maskPicked : State := modShelf (choose (restDeficits maskUnread)).1 fun x => { x with fetched := fset x.fetched 0 true }
def maskFetched : State := popHead (resident maskPicked (opHandles (parseOp maskedOp))).1 0

theorem exec_opStart_maskUnread : exec (.opStart []) maskUnread = .next (launch maskFetched 0 maskedOp false none) := by
  obtain ⟨hfree, hpick, -⟩ := maskUnread_pick
  have hhead : headOf (choose (restDeficits maskUnread)).1 0 = some (.stream maskedOp) := by decide +kernel
  have hgood : opError (choose (restDeficits maskUnread)).1 0 (parseOp maskedOp) false = 0 := by decide +kernel
  rw [exec_opStart_stream hfree rfl hpick hhead]
  exact congrArg _ (fetchHead_launches hgood rfl (by decide +kernel) (by decide +kernel) (by decide +kernel) (by decide +kernel))

/-- The read of the mask loses channel 0, and the demotion of object 4 is gone. -/
theorem maskUnread_moves : (launch maskFetched 0 maskedOp false none).mem.moves = [] := by
  have hbad : badRange maskFetched (addrOf (parseOp maskedOp).hmask + 0) (cdiv (maskBits (parseOp maskedOp)) 8) = true := by decide +kernel
  have hplace : badAt maskFetched (addrOf (parseOp maskedOp).hmask + 0) (cdiv (maskBits (parseOp maskedOp)) 8) = objBase 0 3 ∧
      tierAt maskFetched (objBase 0 3) = 3 ∧ chanAt maskFetched (objBase 0 3) = 0 := by decide +kernel
  obtain ⟨hat, htier, hchan⟩ := hplace
  rw [launch_masked_moves _ _ _ _ _ (by decide +kernel), noteRead, if_pos hbad, hat, noteUe, htier, hchan,
    noteUeIn_limit (by decide) _ _ _ (by decide +kernel) (by decide +kernel)]
  decide +kernel

/-- Refutes O48: its second clause says that the start of an operation cancels the demotions of the objects that it names and no other move.
The operation of `maskUnread`, a state in canonical form (`maskUnread_canonical`), names objects 1 to 3; the read of its mask brings the errors of channel 0 to the limit of R223, the channel is lost,
and with it goes the demotion of object 4 (`maskUnread_moves`). -/
theorem not_pagerMoves : ¬ Obligations.PagerMoves := by
  unfold Obligations.PagerMoves
  rintro ⟨-, hstart, -⟩
  obtain ⟨hfree, hpick, hhead, hgood, hdropped⟩ := maskUnread_pick
  obtain ⟨t, ht, -, hmoves⟩ := hstart maskUnread [] 0 maskedOp hfree hpick hhead (.inr hgood) hdropped
  rw [Host.Outcome.next.inj (ht.symm.trans exec_opStart_maskUnread), maskUnread_moves] at hmoves
  exact absurd hmoves (by decide +kernel)

end Sys2Proof.Proofs
end

section
/-!
SUPPORT. What outlives the work on a request: a session's line through a memory error (R425), the final status of a command in flight (R412), the
pages that a unit asks for (R202), table slots (R319), and the failures of blocks (R340).
-/
namespace Sys2Proof.Laws
open Sys2Proof Sys2Proof.Machine Sys2Proof.Safety

/-! ### A session's line: what a final status needs of its record -/

/-- State, address and commands in flight of a session. -/
def lineOf (q : Berth) : Nat × Nat × Nat × List (W32 × Nat) := (q.state, q.iface, q.peer, q.inflight)

/-- No session's line differs. -/
def SameLines (s t : State) : Prop := ∀ b, lineOf (berthOf t b) = lineOf (berthOf s b)

theorem SameLines.of_quay {s t : State} (h : t.quay = s.quay) : SameLines s t := fun b => by unfold berthOf; rw [h]

theorem SameLines.trans {s t u : State} (h : SameLines s t) (h' : SameLines t u) : SameLines s u := fun b => (h' b).trans (h b)

theorem sameLines_modBerth (s : State) (b : Nat) {f : Berth → Berth} (hf : ∀ q, lineOf (f q) = lineOf q) : SameLines s (modBerth s b f) :=
  fun c => fget_fmod_keeps lineOf s.quay.berths b c hf

theorem sameLines_putEvent (s : State) (b : Nat) (payload : List Byte) : SameLines s (putEvent s b payload) := by
  unfold putEvent
  extract_lets q e t u
  have ht : SameLines s t := sameLines_modBerth s b fun _ => rfl
  have hu : SameLines s u := sameLines_modBerth s b fun _ => rfl
  split
  · exact .of_quay rfl
  · split
    · exact ht.trans (.of_quay (sendEvent_quay ..))
    · exact hu.trans (.of_quay ((count_quay ..).trans (wrOr_quay ..)))

theorem sameLines_raiseReplace (s : State) (i : Nat) : SameLines s (raiseReplace s i) := by
  unfold raiseReplace
  split
  · exact .of_quay rfl
  · extract_lets t u
    have hu : SameLines s u := .of_quay (by unfold u t; rw [setAlert_quay, wrOr_quay, wrOr_quay])
    exact foldS_holds (P := SameLines s) (fun v b hv => hv.trans (sameLines_putEvent v b _)) hu berths

theorem sameLines_loseChannel (s : State) (ch : Nat) : SameLines s (loseChannel s ch) := by
  unfold loseChannel
  split
  · exact .of_quay rfl
  · extract_lets t u v
    have hv : SameLines s v := .of_quay (by unfold v u t; rw [modMem_quay, wrOr_quay, wrOr_quay, wr_quay])
    exact hv.trans (sameLines_raiseReplace v 4)

/-- A memory error is told to the sessions as an event at most. -/
theorem sameLines_noteUe (s : State) (a : Nat) (scrub : Bool) : SameLines s (noteUe s a scrub) := by
  unfold noteUe noteUeIn
  generalize chanAt s a = ch
  extract_lets -underBinder x u v
  have hlogged : Rel [.regs, .rst] u v := rel_logError .refl fun _ h => h
  have hv : v.quay = s.quay := (hlogged.frame .quay (by decide)).trans (useFree_quay s)
  split
  · exact .of_quay (by rw [modMem_quay, wrOr_quay, wrs_quay, hv])
  · extract_lets -underBinder w y z
    have hz : SameLines s z := .of_quay (by unfold z y w; rw [wr_quay, modMem_quay, wrOr_quay, wrs_quay, hv])
    exact iteP (P := SameLines s) (hz.trans (sameLines_loseChannel z ch)) hz
  · exact .of_quay (by rw [modMem_quay, wrOr_quay, wrs_quay, hv])

/-! ### A final status of a command in flight -/

/-- It leaves as the last packet, to the session's own address. -/
theorem finish_sent {s t : State} {b op : Nat} {seq : W32} (hline : lineOf (berthOf t b) = lineOf (berthOf s b))
    (hopen : (berthOf s b).state = 1) (hin : (berthOf s b).inflight.any (fun p => p.1 = seq) = true) (st d : Nat) (data : List Byte) :
    (finish t b op seq st d data).tx.head? =
      some (.status (berthOf s b).iface (berthOf s b).peer op seq b true st 0 true d data) := by
  simp only [lineOf, Prod.mk.injEq] at hline
  obtain ⟨hstate, hiface, hpeer, hflight⟩ := hline
  unfold finish
  rw [if_neg (by rw [hflight, hin]; simp)]
  extract_lets u v q
  have hq : lineOf q = lineOf (berthOf u b) := by
    unfold q v keepStatus
    split
    · rw [berthOf_modBerth]
      rfl
    · rfl
  simp only [lineOf, Prod.mk.injEq] at hq
  obtain ⟨h1, h2, h3, -⟩ := hq
  have hu : (berthOf u b).state = 1 ∧ (berthOf u b).iface = (berthOf s b).iface ∧ (berthOf u b).peer = (berthOf s b).peer := by
    unfold u
    rw [berthOf_modBerth]
    exact ⟨hstate.trans hopen, hiface, hpeer⟩
  rw [if_pos (h1.trans hu.1), h2, h3, hu.2.1, hu.2.2, sendStatus, count_tx, emit_tx]
  rfl

theorem counts_finish {k : Nat} (hk : k < 0x1B00) (s : State) (b op : Nat) (seq : W32) (st d : Nat) (data : List Byte) :
    mgetD (finish s b op seq st d data).counts k 0 = mgetD s.counts k 0 := by
  unfold finish
  split
  · rfl
  · extract_lets u v q
    have hv : mgetD v.counts k 0 = mgetD s.counts k 0 := by unfold v u; rw [keepStatus_counts, modBerth_counts]
    split
    · rw [sendStatus_counts _ _ _ _ _ _ _ _ _ _ _ _ (by omega) (by omega), if_neg (by omega), hv]
      exact BitVec.add_zero _
    · exact hv

/-! ### Pages that a unit asks for -/

/-- Cancelled demotions are all that changes. -/
theorem keepResident_fold (s : State) (hs : List Hdl) : ∃ mv, foldS keepResident s hs = modMem s fun m => { m with moves := mv } := by
  induction hs generalizing s with
  | nil => exact ⟨s.mem.moves, rfl⟩
  | cons h hs ih =>
    obtain ⟨mv, hmv⟩ := ih (keepResident s h)
    exact ⟨mv, hmv⟩

theorem residentFor_eq (s : State) (hs : List Hdl) : ∃ mv,
    residentFor s hs = (demand (modMem s fun m => { m with moves := mv }) 2 (missingPages s hs), (missingPages s hs).isEmpty) := by
  obtain ⟨mv, hmv⟩ := keepResident_fold s hs
  refine ⟨mv, ?_⟩
  unfold residentFor residentAt
  rw [hmv]
  rfl

/-- With no page in T3 nothing is asked for. -/
theorem residentFor_ready {s : State} {hs : List Hdl} (h : missingPages s hs = []) :
    ∃ mv, residentFor s hs = (modMem s fun m => { m with moves := mv }, true) := by
  obtain ⟨mv, hmv⟩ := residentFor_eq s hs
  rw [h] at hmv
  exact ⟨mv, hmv⟩

theorem wantPage_mono (s : State) (h : Hdl) (p level : Nat) (rehome : Bool) : s.mem.wants <+: (wantPage s h p level rehome).mem.wants := by
  unfold wantPage
  dsimp only
  split
  · exact List.prefix_refl _
  · exact List.prefix_append ..

theorem demand_mono (s : State) (level : Nat) (l : List (Hdl × Nat)) : s.mem.wants <+: (demand s level l).mem.wants :=
  foldS_holds (P := fun t => s.mem.wants <+: t.mem.wants) (fun t q ht => ht.trans (wantPage_mono t q.1 q.2 level false)) (List.prefix_refl _) l

/-- The page is asked for at a level of R214. -/
def Wanted (s : State) (level : Nat) (x : Hdl × Nat) : Prop :=
  (s.mem.wants.any fun w => w.berth == hBerth x.1 && w.object == hObj x.1 && w.page == x.2 && w.level == level) = true

theorem Wanted.mono {s t : State} {level : Nat} {x : Hdl × Nat} (h : Wanted s level x) (hp : s.mem.wants <+: t.mem.wants) : Wanted t level x := by
  unfold Wanted at *
  rw [List.any_eq_true] at *
  obtain ⟨w, hw, hx⟩ := h
  exact ⟨w, hp.subset hw, hx⟩

theorem wanted_wantPage (s : State) (h : Hdl) (p level : Nat) (rehome : Bool) : Wanted (wantPage s h p level rehome) level (h, p) := by
  unfold Wanted wantPage
  dsimp only
  split
  next hold =>
    simpa [List.any_eq_true, and_assoc] using hold
  next => simp

theorem wanted_demand (s : State) (level : Nat) (l : List (Hdl × Nat)) : ∀ x ∈ l, Wanted (demand s level l) level x := by
  induction l generalizing s with
  | nil => simp
  | cons y l ih =>
    intro x hx
    rcases List.mem_cons.1 hx with rfl | hx
    · exact (wanted_wantPage s x.1 x.2 level false).mono (demand_mono ..)
    · exact ih _ x hx

theorem demand_objects (s : State) (level : Nat) (l : List (Hdl × Nat)) : (demand s level l).mem.objects = s.mem.objects := by
  refine foldS_keeps (fun t => t.mem.objects) (fun t q => ?_) s l
  unfold wantPage
  dsimp only
  split <;> rfl

/-! ### Table slots -/

theorem tslot_modTslot (s : State) (n k : Nat) (f : TSlot → TSlot) : tslot (modTslot s n f) k = if k = n then f (tslot s n) else tslot s k := by
  rw [tslot, modTslot]
  exact mgetD_mset ..

/-- A slot without blocks in flight that is released is FREE at once. -/
theorem tslot_retired {s : State} {n : Nat} (h : (tslot s n).inflight = 0) :
    (tslot (retireTslot s n) n).state = 0 ∧ (tslot (retireTslot s n) n).table = [] := by
  rw [retireTslot, tslot_modTslot, if_pos rfl, if_pos h]
  exact ⟨rfl, rfl⟩

/-- The lowest free slot is the one before which none is free. -/
theorem freeTslot_of_first {s : State} {n : Nat} (hn : n < 64) (hfree : (tslot s n).state = 0) (hused : ∀ k, k < n → (tslot s k).state ≠ 0) :
    freeTslot s = some n := by
  unfold freeTslot
  rw [List.find?_range_eq_some]
  simp [hfree, hn]
  exact hused

/-! ### A write, by the objects, bytes and bad words that it meets -/

section alike
variable {s t : State} (ho : t.mem.objects = s.mem.objects) (hb : t.mem.bytes = s.mem.bytes) (hw : t.mem.bad = s.mem.bad)
  (hl : ∀ n, chanLost t n = chanLost s n)
include ho

theorem chanAt_congr (a : Nat) : chanAt t a = chanAt s a := by unfold chanAt; rw [ho]

theorem partBad_congr (a n c : Nat) : partBad t a n c = partBad s a n c := by unfold partBad; rw [Proofs.tierAt_congr ho]

include hw

theorem maskWrite_congr (hb : t.mem.bytes = s.mem.bytes) (a : Nat) (bs : List Byte) : maskWrite t a bs = maskWrite s a bs := by
  unfold maskWrite
  simp only [funext (partBad_congr ho a bs.length), hw, hb, Proofs.tierAt_congr ho]

include hl

theorem badWrite_congr (a n : Nat) : badWrite t a n = badWrite s a n := by
  unfold badWrite partLost
  simp only [funext (partBad_congr ho a n), hw, Proofs.tierAt_congr ho, chanAt_congr ho, hl]

include hb

/-- A write leaves the same bytes, and fails alike, whatever moves are in flight. -/
theorem writeH_congr (h : Hdl) (off : Nat) (bs : List Byte) :
    (writeH t h off bs).1.mem.bytes = (writeH s h off bs).1.mem.bytes ∧ (writeH t h off bs).2 = (writeH s h off bs).2 := by
  have hobj : objOf t h = objOf s h := by unfold objOf objAt; rw [ho]
  unfold writeH
  simp only [hobj, badWrite_congr ho hw hl, maskWrite_congr ho hw hb]
  split
  · exact ⟨hb, rfl⟩
  · split
    · exact ⟨by rw [modMem_mem, modMem_mem, hb], rfl⟩
    · exact ⟨hb, rfl⟩

end alike

theorem sameLines_noteRead (s : State) (h : Hdl) (off n : Nat) : SameLines s (noteRead s h off n) :=
  iteP (P := SameLines s) (sameLines_noteUe _ _ _) (.of_quay rfl)

theorem sameLines_writeN (s : State) (h : Hdl) (off : Nat) (bs : List Byte) : SameLines s (writeN s h off bs).1 := by
  have hw : (writeH s h off bs).1.quay = s.quay := (rel_writeH .refl fun _ h => h : Rel1 [.mem, .bytes] s (writeH s h off bs)).frame .quay (by decide)
  exact iteP (P := SameLines s) ((SameLines.of_quay hw).trans (sameLines_noteUe _ _ _)) (.of_quay hw)

/-! ### The mark of a coded object -/

theorem mget_mmod {α : Type} (m : NMap α) (i j : Nat) (f : α → α) : mget (mmod m i f) j = if j = i then (mget m i).map f else mget m j := by
  unfold mmod
  cases h : mget m i with
  | none =>
    by_cases e : j = i
    · rw [if_pos e, e]; exact h
    · rw [if_neg e]
  | some v => exact mget_mset ..

/-- A use stamp leaves the mark of every object. -/
theorem coded_touch (s : State) (h x : Hdl) : (objOf (touch s h) x).map Obj.coded = (objOf s x).map Obj.coded := by
  unfold touch objOf objAt modObj
  dsimp only [modMem]
  rw [mget_mmod]
  split
  next e => rw [e, Option.map_map]; rfl
  next => rfl

theorem objOf_modObj_same (s : State) (h : Hdl) (f : Obj → Obj) : objOf (modObj s (hBerth h) (hObj h) f) h = (objOf s h).map f := by
  unfold objOf objAt modObj
  rw [modMem_mem, mget_mmod, if_pos rfl]

/-! ### Failures of blocks -/

/-- A failure that is recorded stands in SHG_ERR; but for a version's, the CRC bit rises. -/
theorem shgFail_regs (s : State) (b slot : Nat) {e : Nat × Nat} (he : e.1 < 16) :
    rd (shgFail s b slot e) SHG_ERR_cause = e.1 ∧ (e.1 ≠ 3 → rdb (shgFail s b slot e) SHG_IRQ_STAT_crc = true) := by
  unfold shgFail shgError
  generalize hu : (if e.1 = 3 then count (wrOr s SHG_IRQ_STAT_version 1) 0x1806 1 else count (wrOr s SHG_IRQ_STAT_crc 1) 0x1805 1) = u
  have hrd : ∀ f, rd (modShg (wrs u [(SHG_ERR_slot, slot), (SHG_ERR_cause, e.1), (SHG_ERR_berth, b)]) fun g =>
      { g with errBlock := BitVec.ofNat 32 e.2, errTick := (wrs u [(SHG_ERR_slot, slot), (SHG_ERR_cause, e.1), (SHG_ERR_berth, b)]).lh.tick }) f =
      rd (wr (wr (wr u SHG_ERR_slot slot) SHG_ERR_cause e.1) SHG_ERR_berth b) f := fun f => modShg_rd ..
  refine ⟨?_, fun h3 => ?_⟩
  · rw [hrd, rd_wr_other (by decide) (by decide), rd_wr_same (by decide)]
    exact Nat.mod_eq_of_lt he
  · have hcrc : rd u SHG_IRQ_STAT_crc = rd (wrOr s SHG_IRQ_STAT_crc 1) SHG_IRQ_STAT_crc := by rw [← hu, if_neg h3, count_rd]
    rw [rdb_of_rd (hrd _), rdb_of_rd (rd_wr_other (by decide) (by decide) _ _), rdb_of_rd (rd_wr_other (by decide) (by decide) _ _),
      rdb_of_rd (rd_wr_other (by decide) (by decide) _ _), rdb_of_rd hcrc]
    exact rdb_wrOr_one (by decide) rfl s

theorem shgFail_slots (s : State) (b slot : Nat) (e : Nat × Nat) :
    (shgFail s b slot e).shg.reqs = s.shg.reqs ∧ (shgFail s b slot e).shg.slots = s.shg.slots := by
  unfold shgFail shgError
  rw [modShg_shg]
  dsimp only
  rw [wrs_shg]
  split
  · rw [count_shg, wrOr_shg]
    exact ⟨rfl, rfl⟩
  · rw [count_shg, wrOr_shg]
    exact ⟨rfl, rfl⟩

theorem shgReport_slots (s : State) (b slot : Nat) (d : Decoded) :
    (shgReport s b slot d).shg.reqs = s.shg.reqs ∧ (shgReport s b slot d).shg.slots = s.shg.slots :=
  foldS_holds (P := fun t => t.shg.reqs = s.shg.reqs ∧ t.shg.slots = s.shg.slots)
    (fun t e ht => ⟨(shgFail_slots t b slot e).1.trans ht.1, (shgFail_slots t b slot e).2.trans ht.2⟩) (s := count s 0x1804 d.blocks) ⟨rfl, rfl⟩ d.fails

theorem foldS_concat {α : Type} (f : State → α → State) (s : State) (l : List α) (x : α) : foldS f s (l ++ [x]) = f (foldS f s l) x := by
  induction l generalizing s with
  | nil => rfl
  | cons y l ih => exact ih (f s y)

/-- The last failure of those recorded stands. -/
theorem shgReport_cause {s : State} {b slot : Nat} {d : Decoded} {e : Nat × Nat} (h : d.fails.getLast? = some e) (he : e.1 < 16) :
    rd (shgReport s b slot d) SHG_ERR_cause = e.1 := by
  obtain ⟨l, hl⟩ := List.getLast?_eq_some_iff.1 h
  unfold shgReport
  rw [hl, foldS_concat]
  exact (shgFail_regs _ b slot he).1

theorem causeOfBlock_lt (x : Except BlockErr (List Byte)) : causeOfBlock x < 16 := by
  rcases x with e | x
  · cases e <;> decide
  · exact (by decide : 0 < 16)

theorem causeOfBlock_zero {x : Except BlockErr (List Byte)} : causeOfBlock x = 0 ↔ ∃ bs, x = .ok bs := by
  rcases x with e | x
  · cases e <;> simp [causeOfBlock, BlockErr.cause]
  · simp [causeOfBlock]

/-- Blocks join when every one of them decodes, and only then. -/
theorem joinBlocks_isSome (l : List (Except BlockErr (List Byte))) : (joinBlocks l).isSome = true ↔ ∀ x ∈ l, causeOfBlock x = 0 := by
  induction l with
  | nil => simp [joinBlocks]
  | cons x l ih =>
    rw [List.forall_mem_cons, ← ih]
    unfold joinBlocks
    rw [List.foldr_cons]
    rcases x with e | bs
    · simpa using fun h => absurd h (by cases e <;> decide)
    · cases List.foldr _ _ l <;> simp [causeOfBlock]

theorem ofBlocks_causes (l : List Nat) : (Decoded.ofBlocks l).fails.map Prod.fst = l.filter (· ≠ 0) := by
  unfold Decoded.ofBlocks
  rw [List.mapIdx_eq_zipIdx_map]
  conv_rhs => rw [← List.zipIdx_map_fst 0 l, List.filter_map]
  rw [List.map_id']
  rfl

theorem ofBlocks_good {l : List Nat} (h : ∀ c ∈ l, c = 0) : Decoded.ofBlocks l = ⟨[], l.length⟩ := by
  have hfails : (Decoded.ofBlocks l).fails = [] := by
    rw [← List.map_eq_nil_iff (f := Prod.fst), ofBlocks_causes, List.filter_eq_nil_iff]
    simpa using h
  have hblocks : (Decoded.ofBlocks l).blocks = l.length := by
    show (l.filter (· = 0)).length = _
    rw [List.filter_eq_self.2 (by simpa using h)]
  rw [← hfails, ← hblocks]

theorem decodeWith_length (version : Nat) (f : List Nat) (h : CodedHead) (bs : List Byte) : (decodeWith version f h bs).length = h.blocks := by
  simp [decodeWith]

theorem headCause_cases (bs : List Byte) : headCause bs = 6 ∨ headCause bs = 2 := by
  unfold headCause
  split
  · exact .inl rfl
  · exact .inr rfl

end Sys2Proof.Laws
end

section
/-!
PROOFS. Shingle's requests (O54): the end of the oldest request that holds a slot, and the grant of a slot.
-/
namespace Sys2Proof.Proofs
open Sys2Proof Sys2Proof.Machine Sys2Proof.Safety Sys2Proof.Laws

/-! ### The request that completes -/

theorem shgRuns_iff {s : State} : shgRuns s = true ↔ rdb s SHG_CTL_run = true ∧ inReset s 0x17 = false ∧ inReset s 0x3F = false := by
  unfold shgRuns
  simp [and_assoc]

/-- Between the taking up of a request and its final status: it has left the queue, its slot has no block in flight, and the sessions are reached
as before. -/
structure Working (s w : State) (r : ShgReq) (n : Nat) : Prop where
  reqs  : w.shg.reqs = s.shg.reqs.erase r
  idle  : (tslot w n).inflight = 0
  lines : SameLines s w

theorem Working.next {s w v : State} {r : ShgReq} {n : Nat} (h : Working s w r n)
    (hshg : v.shg.reqs = w.shg.reqs ∧ v.shg.slots = w.shg.slots) (hlines : SameLines w v) : Working s v r n :=
  ⟨hshg.1.trans h.reqs, by rw [tslot, hshg.2]; exact h.idle, h.lines.trans hlines⟩

/-- The request has ended with a final status, and the state is `w` but for the session, its packet and the freed slot. -/
structure Ended (s w t : State) (r : ShgReq) (n op st d : Nat) (data : List Byte) : Prop where
  reqs   : t.shg.reqs = s.shg.reqs.erase r
  free   : (tslot t n).state = 0
  table  : (tslot t n).table = []
  sent   : t.tx.head? = some (.status (berthOf s r.berth).iface (berthOf s r.berth).peer op r.seq r.berth true st 0 true d data)
  mem    : t.mem = w.mem
  regs   : ∀ f, rd t f = rd w f
  counts : ∀ k, k < 0x1B00 → mgetD t.counts k 0 = mgetD w.counts k 0

theorem Working.ended {s w : State} {r : ShgReq} {n : Nat} (h : Working s w r n) (hopen : (berthOf s r.berth).state = 1)
    (hin : (berthOf s r.berth).inflight.any (fun p => p.1 = r.seq) = true) (op st d : Nat) (data : List Byte) :
    Ended s w (retireTslot (finish w r.berth op r.seq st d data) n) r n op st d data := by
  have hidle : (tslot (finish w r.berth op r.seq st d data) n).inflight = 0 := by rw [tslot, finish_shg]; exact h.idle
  obtain ⟨hfree, htable⟩ := tslot_retired hidle
  refine ⟨?_, hfree, htable, ?_, ?_, fun f => ?_, fun k hk => ?_⟩
  · rw [← h.reqs, ← finish_shg w r.berth op r.seq st d data]
    rfl
  · rw [← finish_sent (h.lines r.berth) hopen hin st d data]
    rfl
  · rw [← finish_mem w r.berth op r.seq st d data]
    rfl
  · rw [← finish_rd w r.berth op r.seq st d data f]
    rfl
  · rw [← counts_finish hk w r.berth op r.seq st d data]
    rfl

/-- A request is taken up: it leaves the queue, and the demotions of its objects are cancelled. -/
def takenUp (s : State) (mv : List Move) (r : ShgReq) : State :=
  modShg (modMem s fun m => { m with moves := mv }) fun g => { g with reqs := g.reqs.erase r }

/-- The oldest request with a slot, its pages in HBM: it is taken up, coded or decoded, and its slot retired. -/
theorem exec_requestComplete {s : State} {r : ShgReq} {n : Nat} (hrun : shgRuns s = true)
    (hfind : s.shg.reqs.find? (fun r => r.slot.isSome) = some r) (hslot : r.slot = some n) (hready : missingPages s [r.src, r.dst] = []) :
    ∃ mv, exec .shingleRequestComplete s =
      .next (retireTslot (if r.decode then finishDecode (takenUp s mv r) r n else finishCode (takenUp s mv r) r n) n) := by
  obtain ⟨mv, hmv⟩ := residentFor_ready hready
  refine ⟨mv, ?_⟩
  show execShingleRequestComplete s = _
  unfold execShingleRequestComplete
  rw [hfind]
  dsimp only
  rw [hrun, hmv, hslot, if_neg (by simp), if_neg (by simp)]
  rfl

section request
variable {s : State} {mv : List Move} {r : ShgReq} {n : Nat}

theorem working_takenUp (hidle : (tslot s n).inflight = 0) : Working s (takenUp s mv r) r n := ⟨rfl, hidle, .of_quay rfl⟩

theorem working_liveTslot {w : State} (h : Working s w r n) (f : List Nat) : Working s (liveTslot w n f) r n :=
  ⟨h.reqs, by unfold liveTslot; rw [tslot_modTslot, if_pos rfl]; exact h.idle, h.lines.trans (.of_quay rfl)⟩

theorem working_noteRead {w : State} (h : Working s w r n) (x : Hdl) (off len : Nat) : Working s (noteRead w x off len) r n := by
  have hshg : (noteRead w x off len).shg = w.shg :=
    (rel_noteRead .refl fun _ h => h : Rel [.free, .tx, .regs, .counts, .mem, .quay, .rst] w _).frame .shg (by decide)
  exact h.next ⟨by rw [hshg], by rw [hshg]⟩ (sameLines_noteRead w x off len)

theorem working_writeN {w : State} (h : Working s w r n) (x : Hdl) (off : Nat) (bs : List Byte) : Working s (writeN w x off bs).1 r n := by
  have hshg : (writeN w x off bs).1.shg = w.shg := (rel_writeN .refl fun _ h => h : Rel1 _ w (writeN w x off bs)).frame .shg (by decide)
  exact h.next ⟨by rw [hshg], by rw [hshg]⟩ (sameLines_writeN w x off bs)

theorem working_shgReport {w : State} (h : Working s w r n) (b slot : Nat) (d : Decoded) : Working s (shgReport w b slot d) r n :=
  h.next (shgReport_slots w b slot d) (.of_quay ((rel_shgReport .refl fun _ h => h : Rel _ w (shgReport w b slot d)).frame .quay (by decide)))

theorem working_shgFail {w : State} (h : Working s w r n) (b slot : Nat) (e : Nat × Nat) : Working s (shgFail w b slot e) r n :=
  h.next (shgFail_slots w b slot e) (.of_quay ((rel_shgFail .refl fun _ h => h : Rel _ w (shgFail w b slot e)).frame .quay (by decide)))

/-! ### A code request -/

/-- The state once a code request has built its table. -/
def built (s : State) (mv : List Move) (r : ShgReq) (n : Nat) (f : List Nat) : State := liveTslot (takenUp s mv r) n f

/-- What was written is marked as coded and counted (R341). -/
def codedState (w : State) (r : ShgReq) (plane bytes : List Byte) : State :=
  touch (touch (countCoded (modObj w (hBerth r.dst) (hObj r.dst) fun o => { o with coded := true }) plane bytes) r.src) r.dst

theorem readH_takenUp (s : State) (mv : List Move) (r : ShgReq) (h : Hdl) (off n : Nat) : readH (takenUp s mv r) h off n = readH s h off n := rfl
theorem extent_takenUp (s : State) (mv : List Move) (r : ShgReq) (h : Hdl) : extent (takenUp s mv r) h = extent s h := rfl
theorem tslot_takenUp (s : State) (mv : List Move) (r : ShgReq) (n : Nat) : tslot (takenUp s mv r) n = tslot s n := rfl

/-- The end of a code request, by what its source and its destination meet. -/
theorem finishCode_eq {src : List Byte × Bool} {bytes : List Byte} (hsrc : src = readH s r.src 0 (extent s r.src))
    (hbytes : bytes = encodeObject r.fmt n (tslot s n).version (planesOf r.fmt src.1).1 (planesOf r.fmt src.1).2) :
    ∃ f, finishCode (takenUp s mv r) r n =
      if src.2 then finish (noteRead (built s mv r n f) r.src 0 (extent s r.src)) r.berth 0x0306 r.seq stFAULT 0 []
      else if bytes.length > 2 ^ 38 || bytes.length > extent s r.dst then finish (built s mv r n f) r.berth 0x0306 r.seq stBAD 0 []
      else if (writeN (built s mv r n f) r.dst 0 bytes).2 then
        finish (writeN (built s mv r n f) r.dst 0 bytes).1 r.berth 0x0306 r.seq stFAULT 0 []
      else finish (codedState (writeN (built s mv r n f) r.dst 0 bytes).1 r (planesOf r.fmt src.1).1 bytes) r.berth 0x0306 r.seq stOK 0
        (toBe 8 bytes.length) := by
  refine ⟨recordTable bytes, ?_⟩
  unfold finishCode
  rw [extent_takenUp, readH_takenUp, tslot_takenUp, ← hsrc]
  dsimp only
  rw [← hbytes]
  rfl

theorem working_codedState {w : State} (h : Working s w r n) (plane bytes : List Byte) : Working s (codedState w r plane bytes) r n := by
  have hshg : (codedState w r plane bytes).shg = w.shg := by
    unfold codedState countCoded modObj
    rw [touch_shg, touch_shg, count_shg, count_shg, count_shg, count_shg, modMem_shg]
  have hquay : (codedState w r plane bytes).quay = w.quay := by
    unfold codedState countCoded modObj
    rw [touch_quay, touch_quay, count_quay, count_quay, count_quay, count_quay, modMem_quay]
  exact h.next ⟨by rw [hshg], by rw [hshg]⟩ (.of_quay hquay)

/-- The object that was written bears the mark. -/
theorem coded_of_mark {w t : State} {x : Hdl} {m : Bool} (ht : (objOf t x).map Obj.coded = ((objOf w x).map fun _ => m)) :
    (objOf t x).all (fun o => o.coded == m) = true := by
  cases ho : objOf t x with
  | none => rfl
  | some o =>
    rw [ho] at ht
    cases hw : objOf w x with
    | none => rw [hw] at ht; cases ht
    | some o' =>
      rw [hw] at ht
      simpa using Option.some.inj ht

theorem coded_codedState (w : State) (r : ShgReq) (plane bytes : List Byte) :
    (objOf (codedState w r plane bytes) r.dst).map Obj.coded = (objOf w r.dst).map fun _ => true := by
  unfold codedState
  rw [coded_touch, coded_touch]
  show (objOf (modObj w (hBerth r.dst) (hObj r.dst) fun o => { o with coded := true }) r.dst).map Obj.coded = _
  rw [objOf_modObj_same, Option.map_map]
  rfl

theorem counts_codedState (w : State) (r : ShgReq) (plane bytes : List Byte) :
    mgetD (codedState w r plane bytes).counts 0x1801 0 = mgetD w.counts 0x1801 0 + BitVec.ofNat 64 bytes.length := by
  unfold codedState countCoded
  rw [touch_counts, touch_counts, counts_count, if_neg (by decide), counts_count, if_neg (by decide), counts_count, if_pos rfl,
    counts_count, if_neg (by decide)]
  rfl

/-- What the write of coded bytes leaves and whether it fails are those of the write in the state before. -/
theorem writeN_built (s : State) (mv : List Move) (r : ShgReq) (n : Nat) (f : List Nat) (x : Hdl) (bs : List Byte) :
    (writeN (built s mv r n f) x 0 bs).1.mem.bytes = (writeH s x 0 bs).1.mem.bytes ∧
      (writeN (built s mv r n f) x 0 bs).2 = (writeH s x 0 bs).2 := by
  have h := writeH_congr (s := s) (t := built s mv r n f) rfl rfl rfl (fun _ => rfl) x 0 bs
  exact ⟨(writeN_bytes ..).trans h.1, h.2⟩

/-! ### A decode request -/

/-- What was written is no coded object any more. -/
def decodedState (w : State) (r : ShgReq) : State :=
  touch (touch (modObj w (hBerth r.dst) (hObj r.dst) fun o => { o with coded := false }) r.src) r.dst

theorem working_decodedState {w : State} (h : Working s w r n) : Working s (decodedState w r) r n := by
  have hshg : (decodedState w r).shg = w.shg := by
    unfold decodedState modObj
    rw [touch_shg, touch_shg, modMem_shg]
  have hquay : (decodedState w r).quay = w.quay := by
    unfold decodedState modObj
    rw [touch_quay, touch_quay, modMem_quay]
  exact h.next ⟨by rw [hshg], by rw [hshg]⟩ (.of_quay hquay)

theorem bytes_decodedState (w : State) (r : ShgReq) : (decodedState w r).mem.bytes = w.mem.bytes := rfl

theorem counts_decodedState (w : State) (r : ShgReq) : (decodedState w r).counts = w.counts := by
  unfold decodedState modObj
  rw [touch_counts, touch_counts, modMem_counts]

theorem coded_decodedState (w : State) (r : ShgReq) : (objOf (decodedState w r) r.dst).map Obj.coded = (objOf w r.dst).map fun _ => false := by
  unfold decodedState
  rw [coded_touch, coded_touch, objOf_modObj_same, Option.map_map]
  rfl

section decode
variable {src : List Byte × Bool} (hsrc : src = readH s r.src 0 (extent s r.src)) (hread : src.2 = false)
include hsrc hread

/-- A head that fails its checks: recorded, and nothing is written. -/
theorem finishDecode_head (hhead : codedHead src.1 = none) : finishDecode (takenUp s mv r) r n =
    finish (shgFail (takenUp s mv r) r.berth n (headCause src.1, 0)) r.berth 0x0307 r.seq stFAULT 0 [] := by
  unfold finishDecode
  rw [extent_takenUp, readH_takenUp, ← hsrc]
  dsimp only
  rw [hread, if_neg (by simp), hhead]

/-- Blocks that do not all decode: recorded, and nothing is written. -/
theorem finishDecode_blocks {h : CodedHead} (hhead : codedHead src.1 = some h)
    (hjoin : joinBlocks (decodeWith (tslot s n).version (tslot s n).table h src.1) = none) : finishDecode (takenUp s mv r) r n =
    finish (shgReport (takenUp s mv r) r.berth n (Decoded.ofBlocks ((decodeWith (tslot s n).version (tslot s n).table h src.1).map causeOfBlock)))
      r.berth 0x0307 r.seq stFAULT 0 [] := by
  unfold finishDecode
  rw [extent_takenUp, readH_takenUp, tslot_takenUp, ← hsrc]
  dsimp only
  rw [hread, if_neg (by simp), hhead]
  dsimp only
  rw [hjoin]

/-- A good object: its blocks are counted, and its planes written where they have room. -/
theorem finishDecode_planes {h : CodedHead} {plane out : List Byte} (hhead : codedHead src.1 = some h)
    (hjoin : joinBlocks (decodeWith (tslot s n).version (tslot s n).table h src.1) = some plane) (hout : out = sidePlane h src.1 ++ plane) :
    finishDecode (takenUp s mv r) r n =
      if out.length > extent s r.dst then finish (count (takenUp s mv r) 0x1804 h.blocks) r.berth 0x0307 r.seq stBAD 0 []
      else if (writeN (count (takenUp s mv r) 0x1804 h.blocks) r.dst 0 out).2 then
        finish (writeN (count (takenUp s mv r) 0x1804 h.blocks) r.dst 0 out).1 r.berth 0x0307 r.seq stFAULT 0 []
      else finish (decodedState (writeN (count (takenUp s mv r) 0x1804 h.blocks) r.dst 0 out).1 r) r.berth 0x0307 r.seq stOK 0 [] := by
  have hgood : ∀ c ∈ (decodeWith (tslot s n).version (tslot s n).table h src.1).map causeOfBlock, c = 0 := by
    simpa using (joinBlocks_isSome _).1 (by rw [hjoin]; rfl)
  have hreport : shgReport (takenUp s mv r) r.berth n (Decoded.ofBlocks
      ((decodeWith (tslot s n).version (tslot s n).table h src.1).map causeOfBlock)) = count (takenUp s mv r) 0x1804 h.blocks := by
    rw [ofBlocks_good hgood, List.length_map, decodeWith_length]
    rfl
  unfold finishDecode
  rw [extent_takenUp, readH_takenUp, tslot_takenUp, ← hsrc]
  dsimp only
  rw [hread, if_neg (by simp), hhead]
  dsimp only
  rw [hjoin, hreport]
  dsimp only
  rw [← hout]
  rfl

end decode

end request

/-- A code request ends. -/
theorem codeRequest_ends {s : State} {r : ShgReq} {n : Nat} {src : List Byte × Bool} {bytes : List Byte} (hrun : shgRuns s = true)
    (hfind : s.shg.reqs.find? (fun r => r.slot.isSome) = some r) (hslot : r.slot = some n) (hidle : (tslot s n).inflight = 0)
    (hdec : r.decode = false) (hready : missingPages s [r.src, r.dst] = []) (hopen : (berthOf s r.berth).state = 1)
    (hin : (r.seq, 0x0306) ∈ (berthOf s r.berth).inflight) (hsrc : src = readH s r.src 0 (extent s r.src))
    (hbytes : bytes = encodeObject r.fmt n (tslot s n).version (planesOf r.fmt src.1).1 (planesOf r.fmt src.1).2) :
    ∃ w t st data, exec .shingleRequestComplete s = .next t ∧ Ended s w t r n 0x0306 st 0 data ∧
      if src.2 = true then st = 0x80 ∧ data = []
      else if 2 ^ 38 < bytes.length ∨ extent s r.dst < bytes.length then
        st = 0x20 ∧ data = [] ∧ w.mem.bytes = s.mem.bytes ∧ w.mem.objects = s.mem.objects
      else w.mem.bytes = (writeH s r.dst 0 bytes).1.mem.bytes ∧
        if (writeH s r.dst 0 bytes).2 = true then st = 0x80 ∧ data = []
        else st = 0 ∧ data = toBe 8 bytes.length ∧ (objOf w r.dst).all (fun o => o.coded) = true ∧
          mgetD w.counts 0x1801 0 = mgetD s.counts 0x1801 0 + BitVec.ofNat 64 bytes.length := by
  obtain ⟨mv, he⟩ := exec_requestComplete hrun hfind hslot hready
  obtain ⟨f, hf⟩ := finishCode_eq (mv := mv) hsrc hbytes
  have hin' : (berthOf s r.berth).inflight.any (fun p => p.1 = r.seq) = true := List.any_eq_true.2 ⟨_, hin, by simp⟩
  have hbuilt : Working s (built s mv r n f) r n := working_liveTslot (working_takenUp hidle) f
  obtain ⟨hwritten, hfails⟩ := writeN_built s mv r n f r.dst bytes
  rw [hdec, if_neg (by simp), hf] at he
  by_cases hread : src.2 = true
  · rw [if_pos hread] at he
    refine ⟨_, _, _, _, he, (working_noteRead hbuilt ..).ended hopen hin' .., ?_⟩
    rw [if_pos hread]
    exact ⟨rfl, rfl⟩
  by_cases hsize : 2 ^ 38 < bytes.length ∨ extent s r.dst < bytes.length
  · rw [if_neg hread, if_pos (by simpa using hsize)] at he
    refine ⟨_, _, _, _, he, hbuilt.ended hopen hin' .., ?_⟩
    rw [if_neg hread, if_pos hsize]
    exact ⟨rfl, rfl, rfl, rfl⟩
  by_cases hfail : (writeH s r.dst 0 bytes).2 = true
  · rw [if_neg hread, if_neg (by simpa using hsize), if_pos (by rw [hfails, hfail])] at he
    refine ⟨_, _, _, _, he, (working_writeN hbuilt ..).ended hopen hin' .., ?_⟩
    rw [if_neg hread, if_neg hsize, if_pos hfail]
    exact ⟨hwritten, rfl, rfl⟩
  · rw [if_neg hread, if_neg (by simpa using hsize), if_neg (by rw [hfails]; exact hfail)] at he
    refine ⟨_, _, _, _, he, (working_codedState (working_writeN hbuilt ..) ..).ended hopen hin' .., ?_⟩
    rw [if_neg hread, if_neg hsize, if_neg hfail]
    refine ⟨hwritten, rfl, rfl, ?_, ?_⟩
    · simpa using coded_of_mark (coded_codedState ..)
    · rw [counts_codedState, counts_writeN (by decide)]
      rfl

section decode
variable {s : State} {r : ShgReq} {n : Nat} {src : List Byte × Bool} (hrun : shgRuns s = true)
  (hfind : s.shg.reqs.find? (fun r => r.slot.isSome) = some r) (hslot : r.slot = some n) (hidle : (tslot s n).inflight = 0)
  (hdec : r.decode = true) (hready : missingPages s [r.src, r.dst] = []) (hopen : (berthOf s r.berth).state = 1)
  (hin : (berthOf s r.berth).inflight.any (fun p => p.1 = r.seq) = true) (hsrc : src = readH s r.src 0 (extent s r.src)) (hread : src.2 = false)
include hrun hfind hslot hidle hdec hready hopen hin hsrc hread

/-- A decode request whose head fails ends. -/
theorem decodeRequest_head (hhead : codedHead src.1 = none) :
    ∃ w t, exec .shingleRequestComplete s = .next t ∧ Ended s w t r n 0x0307 0x80 0 [] ∧ w.mem.bytes = s.mem.bytes ∧
      rd w SHG_ERR_cause = headCause src.1 ∧ rdb w SHG_IRQ_STAT_crc = true := by
  obtain ⟨mv, he⟩ := exec_requestComplete hrun hfind hslot hready
  rw [hdec, if_pos rfl, finishDecode_head hsrc hread hhead] at he
  have hcause : headCause src.1 < 16 ∧ headCause src.1 ≠ 3 := by
    rcases headCause_cases src.1 with h | h <;> rw [h] <;> decide
  obtain ⟨hrd, hcrc⟩ := shgFail_regs (takenUp s mv r) r.berth n (e := (headCause src.1, 0)) hcause.1
  refine ⟨_, _, he, (working_shgFail (working_takenUp hidle) ..).ended hopen hin .., ?_, hrd, hcrc hcause.2⟩
  rw [(rel_shgFail .refl fun _ h => h : Rel _ (takenUp s mv r) _).same_mem (by decide) (by decide)]
  rfl

/-- A decode request with a block that fails ends. -/
theorem decodeRequest_blocks {h : CodedHead} (hhead : codedHead src.1 = some h)
    (hjoin : joinBlocks (decodeWith (tslot s n).version (tslot s n).table h src.1) = none) :
    ∃ w t, exec .shingleRequestComplete s = .next t ∧ Ended s w t r n 0x0307 0x80 0 [] ∧ w.mem.bytes = s.mem.bytes ∧
      some (rd w SHG_ERR_cause) =
        (((decodeWith (tslot s n).version (tslot s n).table h src.1).map causeOfBlock).filter (· ≠ 0)).getLast? := by
  obtain ⟨mv, he⟩ := exec_requestComplete hrun hfind hslot hready
  rw [hdec, if_pos rfl, finishDecode_blocks hsrc hread hhead hjoin] at he
  refine ⟨_, _, he, (working_shgReport (working_takenUp hidle) ..).ended hopen hin .., ?_, ?_⟩
  · rw [(rel_shgReport .refl fun _ h => h : Rel _ (takenUp s mv r) _).same_mem (by decide) (by decide)]
    rfl
  · generalize hl : decodeWith (tslot s n).version (tslot s n).table h src.1 = l at hjoin ⊢
    have hsome : (Decoded.ofBlocks (l.map causeOfBlock)).fails ≠ [] := fun hnil => by
      have hgood : ∀ x ∈ l, causeOfBlock x = 0 := by
        have := ofBlocks_causes (l.map causeOfBlock)
        rw [hnil, List.map_nil, eq_comm, List.filter_eq_nil_iff] at this
        simpa using this
      have := (joinBlocks_isSome l).2 hgood
      rw [hjoin] at this
      cases this
    obtain ⟨e, hlast⟩ : ∃ e, (Decoded.ofBlocks (l.map causeOfBlock)).fails.getLast? = some e := ⟨_, List.getLast?_eq_some_getLast hsome⟩
    have hcauses : ((l.map causeOfBlock).filter (· ≠ 0)).getLast? = some e.1 := by
      rw [← ofBlocks_causes, List.getLast?_map, hlast]
      rfl
    have hmem := List.mem_of_getLast? hcauses
    obtain ⟨x, -, hx⟩ := List.mem_map.1 (List.mem_filter.1 hmem).1
    rw [hcauses, shgReport_cause hlast (by rw [← hx]; exact causeOfBlock_lt x)]

/-- A decode request whose object is good ends. -/
theorem decodeRequest_planes {h : CodedHead} {plane out : List Byte} (hhead : codedHead src.1 = some h)
    (hjoin : joinBlocks (decodeWith (tslot s n).version (tslot s n).table h src.1) = some plane) (hout : out = sidePlane h src.1 ++ plane) :
    ∃ w t st, exec .shingleRequestComplete s = .next t ∧ Ended s w t r n 0x0307 st 0 [] ∧
      mgetD w.counts 0x1804 0 = mgetD s.counts 0x1804 0 + BitVec.ofNat 64 h.blocks ∧
      if extent s r.dst < out.length then w.mem.bytes = s.mem.bytes ∧ st = 0x20
      else w.mem.bytes = (writeH s r.dst 0 out).1.mem.bytes ∧
        ((writeH s r.dst 0 out).2 = false → st = 0 ∧ (objOf w r.dst).all (fun o => !o.coded) = true) := by
  obtain ⟨mv, he⟩ := exec_requestComplete hrun hfind hslot hready
  rw [hdec, if_pos rfl, finishDecode_planes hsrc hread hhead hjoin hout] at he
  have hcounted : Working s (count (takenUp s mv r) 0x1804 h.blocks) r n := (working_takenUp hidle).next ⟨rfl, rfl⟩ (.of_quay rfl)
  have hcount : mgetD (count (takenUp s mv r) 0x1804 h.blocks).counts 0x1804 0 = mgetD s.counts 0x1804 0 + BitVec.ofNat 64 h.blocks := by
    rw [counts_count, if_pos rfl]
    rfl
  obtain ⟨hbytes, hfails⟩ := writeH_congr (s := s) (t := count (takenUp s mv r) 0x1804 h.blocks) rfl rfl rfl (fun _ => rfl) r.dst 0 out
  by_cases hsize : extent s r.dst < out.length
  · rw [if_pos hsize] at he
    refine ⟨_, _, _, he, hcounted.ended hopen hin .., hcount, ?_⟩
    rw [if_pos hsize]
    exact ⟨rfl, rfl⟩
  rw [if_neg hsize] at he
  by_cases hfail : (writeH s r.dst 0 out).2 = true
  · rw [if_pos (show (writeN (count (takenUp s mv r) 0x1804 h.blocks) r.dst 0 out).2 = true from hfails.trans hfail)] at he
    refine ⟨_, _, _, he, (working_writeN hcounted ..).ended hopen hin .., (counts_writeN (by decide) ..).trans hcount, ?_⟩
    rw [if_neg hsize]
    exact ⟨(writeN_bytes ..).trans hbytes, fun hgood => by rw [hfail] at hgood; cases hgood⟩
  · rw [if_neg (show ¬ (writeN (count (takenUp s mv r) 0x1804 h.blocks) r.dst 0 out).2 = true from fun hw => hfail (hfails.symm.trans hw))] at he
    refine ⟨_, _, _, he, (working_decodedState (working_writeN hcounted ..)).ended hopen hin .., ?_, ?_⟩
    · rw [counts_decodedState, counts_writeN (by decide), hcount]
    · rw [if_neg hsize, bytes_decodedState]
      exact ⟨(writeN_bytes ..).trans hbytes, fun _ => ⟨rfl, by simpa using coded_of_mark (coded_decodedState ..)⟩⟩

end decode

/-! ### A request that does not end -/

/-- A request whose pages stand in T3 waits, and each page is asked for. -/
theorem request_waits {s : State} {r : ShgReq} (hrun : shgRuns s = true) (hfind : s.shg.reqs.find? (fun r => r.slot.isSome) = some r)
    (hmiss : missingPages s [r.src, r.dst] ≠ []) :
    ∃ t, exec .shingleRequestComplete s = .next t ∧ Frame [.mem] s t ∧ t.mem.bytes = s.mem.bytes ∧ t.mem.objects = s.mem.objects ∧
      ∀ x ∈ missingPages s [r.src, r.dst], Wanted t 2 x := by
  obtain ⟨mv, hmv⟩ := residentFor_eq s [r.src, r.dst]
  have he : exec .shingleRequestComplete s = .next (demand (modMem s fun m => { m with moves := mv }) 2 (missingPages s [r.src, r.dst])) := by
    show execShingleRequestComplete s = _
    unfold execShingleRequestComplete
    rw [hfind]
    dsimp only
    rw [hrun, hmv, if_neg (by simp), if_pos (by simpa using hmiss)]
  have hrel : Rel [.mem] s (demand (modMem s fun m => { m with moves := mv }) 2 (missingPages s [r.src, r.dst])) :=
    rel_demand (rel_modMem .refl (by decide) rfl) fun _ h => h
  exact ⟨_, he, hrel.frame, hrel.frame .bytes (by decide), demand_objects .., wanted_demand _ 2 _⟩

theorem exec_requestComplete_idle {s : State} (h : rdb s SHG_CTL_run = false ∨ inReset s 0x17 = true ∨ inReset s 0x3F = true ∨
    (s.shg.reqs.all fun r => r.slot.isNone) = true) : exec .shingleRequestComplete s = .next s := by
  show execShingleRequestComplete s = _
  unfold execShingleRequestComplete
  cases hfind : s.shg.reqs.find? (fun r => r.slot.isSome) with
  | none => rfl
  | some r =>
    have hslot : r.slot.isSome = true := by simpa using List.find?_some hfind
    have hstopped : shgRuns s = false := by
      rw [Bool.eq_false_iff]
      intro hrun
      obtain ⟨h1, h2, h3⟩ := shgRuns_iff.1 hrun
      rcases h with h | h | h | h
      · rw [h1] at h; cases h
      · rw [h2] at h; cases h
      · rw [h3] at h; cases h
      · have := List.all_eq_true.1 h r (List.mem_of_find?_eq_some hfind)
        simp [Option.isSome_iff_ne_none.1 hslot] at this
    dsimp only
    rw [hstopped, if_pos (by simp)]

/-! ### The grant of a slot -/

/-- The oldest request that waits. -/
theorem exec_slotGrant {s : State} {r : ShgReq} {i : Nat} (hidx : s.shg.reqs.findIdx? (fun r => r.slot.isNone) = some i)
    (hr : s.shg.reqs[i]? = some r) (hstream : r.stream = none) : exec .shingleSlotGrant s = .next (grantSlot s) := by
  have hfind : s.shg.reqs.find? (fun r => r.slot.isNone) = some r := by
    rw [List.find?_eq_getElem?_findIdx, ← hr]
    rw [List.findIdx?_eq_some_iff_findIdx_eq] at hidx
    rw [hidx.2]
  show execShingleSlotGrant s = _
  unfold execShingleSlotGrant
  rw [hfind]
  dsimp only
  rw [hstream]

/-- A slot `n` that becomes `f` of itself, taken by the request at place `i` of the queue, which is then `r`. -/
def slotGranted (s : State) (n : Nat) (f : TSlot → TSlot) (i : Nat) (r : ShgReq) : State :=
  modShg (modTslot s n f) fun g => { g with reqs := g.reqs.set i r }

theorem tslot_slotGranted (s : State) (n : Nat) (f : TSlot → TSlot) (i : Nat) (r : ShgReq) (k : Nat) :
    tslot (slotGranted s n f i r) k = if k = n then f (tslot s n) else tslot s k := tslot_modTslot s n k f

theorem slotGranted_rel (s : State) (n : Nat) (f : TSlot → TSlot) (i : Nat) (r : ShgReq) : Rel [.shg] s (slotGranted s n f i r) :=
  rel_modShg (rel_modShg .refl fun _ h => h) fun _ h => h

section grant
variable {s : State} {r : ShgReq} {i n : Nat} (hidx : s.shg.reqs.findIdx? (fun r => r.slot.isNone) = some i) (hr : s.shg.reqs[i]? = some r)
  (hfree : freeTslot s = some n)
include hidx hr hfree

theorem grantSlot_taken {u : State} (htake : takeTslot s n r = (u, true)) :
    grantSlot s = modShg u fun g => { g with reqs := g.reqs.set i { r with slot := some n } } := by
  unfold grantSlot
  rw [hfree, hidx]
  dsimp only
  rw [hr]
  dsimp only
  rw [htake, if_pos rfl]

/-- A code request builds a table of the next version. -/
theorem grantSlot_code (hdec : r.decode = false) : grantSlot s = slotGranted s n
    (fun t => { state := 1, version := (t.version + 1) % 16, user := 2, inflight := 0, table := [] }) i { r with slot := some n } :=
  grantSlot_taken hidx hr hfree (u := buildTslot s n 2) (by unfold takeTslot; rw [if_neg (by simp [hdec])])

/-- A decode request loads the table record of its object. -/
theorem grantSlot_decode (hdec : r.decode = true) (hready : missingPages s [r.src] = []) : ∃ mv, grantSlot s =
    slotGranted (modMem s fun m => { m with moves := mv }) n (fun _ =>
      { state := 2, version := recordVersion (peek s (addrOf r.src) 640), user := 0, inflight := 0
        table := recordTable (peek s (addrOf r.src) 640) }) i { r with slot := some n } := by
  obtain ⟨mv, hmv⟩ := residentFor_ready hready
  refine ⟨mv, grantSlot_taken hidx hr hfree
    (u := loadTslot (modMem s fun m => { m with moves := mv }) n 0 (peek s (addrOf r.src) 640)) ?_⟩
  unfold takeTslot
  rw [if_pos hdec, hmv]
  rfl

end grant

/-- Settles O54: a code request ends in one of four ways (`codeRequest_ends`), a decode request with its head, its blocks or its planes
(`decodeRequest_head`, `decodeRequest_blocks`, `decodeRequest_planes`), one with pages in T3 waits (`request_waits`), and a free slot goes to the
oldest request that waits (`exec_slotGrant`). -/
theorem shingleRequests : Obligations.ShingleRequests := by
  unfold Obligations.ShingleRequests
  refine ⟨fun s h => exec_requestComplete_idle h, ?_, ?_, ?_, ?_⟩
  · intro s r n q src bytes hrun h17 h3f hfind hslot hidle hdec hready hq hopen hin hsrc hbytes
    subst hq
    obtain ⟨w, t, st, data, he, hended, hcase⟩ :=
      codeRequest_ends (shgRuns_iff.2 ⟨hrun, h17, h3f⟩) hfind hslot hidle hdec hready hopen hin hsrc hbytes
    refine ⟨t, he, (rel_of_exec he).frame, hended.reqs, hended.free, hended.table, ?_⟩
    have hsent := hended.sent
    split at hcase
    · obtain ⟨rfl, rfl⟩ := hcase
      rwa [if_pos ‹_›]
    · rw [if_neg ‹_›]
      split at hcase
      · obtain ⟨rfl, rfl, hmem, hobj⟩ := hcase
        rw [if_pos ‹_›, hended.mem]
        exact ⟨hsent, hmem, hobj⟩
      · obtain ⟨hmem, hcase⟩ := hcase
        rw [if_neg ‹_›, hended.mem]
        refine ⟨hmem, ?_⟩
        split at hcase
        · obtain ⟨rfl, rfl⟩ := hcase
          rwa [if_pos ‹_›]
        · obtain ⟨rfl, rfl, hcoded, hcount⟩ := hcase
          rw [if_neg ‹_›, hended.counts _ (by decide), objOf, objAt, hended.mem]
          exact ⟨hsent, hcoded, hcount⟩
  · intro s r n q src hrun h17 h3f hfind hslot hidle hdec hready hq hopen hin hsrc hread
    subst hq
    have hruns := shgRuns_iff.2 ⟨hrun, h17, h3f⟩
    cases hhead : codedHead src.1 with
    | none =>
      obtain ⟨w, t, he, hended, hmem, hcause, hcrc⟩ := decodeRequest_head hruns hfind hslot hidle hdec hready hopen hin hsrc hread hhead
      exact ⟨t, he, (rel_of_exec he).frame, hended.reqs, hended.free, by rw [hended.mem, hmem], (hended.regs _).trans hcause,
        (rdb_of_rd (hended.regs _)).trans hcrc, hended.sent⟩
    | some h =>
      cases hjoin : joinBlocks (decodeWith (tslot s n).version (tslot s n).table h src.1) with
      | none =>
        obtain ⟨w, t, he, hended, hmem, hcause⟩ := decodeRequest_blocks hruns hfind hslot hidle hdec hready hopen hin hsrc hread hhead hjoin
        refine ⟨t, he, (rel_of_exec he).frame, hended.reqs, hended.free, ?_⟩
        dsimp only
        rw [hjoin]
        exact ⟨by rw [hended.mem, hmem], by rw [hended.regs, hcause], hended.sent⟩
      | some plane =>
        obtain ⟨w, t, st, he, hended, hcount, hcase⟩ :=
          decodeRequest_planes hruns hfind hslot hidle hdec hready hopen hin hsrc hread hhead hjoin rfl
        refine ⟨t, he, (rel_of_exec he).frame, hended.reqs, hended.free, ?_⟩
        dsimp only
        rw [hjoin]
        refine ⟨(hended.counts _ (by decide)).trans hcount, ?_⟩
        have hsent := hended.sent
        rw [hended.mem]
        split at hcase
        · obtain ⟨hmem, rfl⟩ := hcase
          rw [if_pos ‹_›]
          exact ⟨hmem, hsent⟩
        · obtain ⟨hmem, hgood⟩ := hcase
          rw [if_neg ‹_›]
          refine ⟨hmem, fun hfail => ?_⟩
          obtain ⟨rfl, hplain⟩ := hgood hfail
          rw [objOf, objAt, hended.mem]
          exact ⟨hsent, hplain⟩
  · intro s r hrun h17 h3f hfind hmiss
    exact request_waits (shgRuns_iff.2 ⟨hrun, h17, h3f⟩) hfind hmiss
  · intro s r i n hidx hr hstream hready hn hfree hused
    have hfirst := freeTslot_of_first hn hfree hused
    have he := exec_slotGrant hidx hr hstream
    cases hdec : r.decode with
    | false =>
      rw [grantSlot_code hidx hr hfirst hdec] at he
      refine ⟨_, he, (slotGranted_rel ..).frame, rfl, by rw [← hdec]; rfl, ?_, ?_, ?_, nofun, fun k _ hk => ?_⟩
      · rw [tslot_slotGranted, if_pos rfl]; rfl
      · rw [tslot_slotGranted, if_pos rfl]; rfl
      · rw [tslot_slotGranted, if_pos rfl]; rfl
      · rw [tslot_slotGranted, if_neg hk]
    | true =>
      obtain ⟨mv, hgrant⟩ := grantSlot_decode hidx hr hfirst hdec (hready hdec)
      rw [hgrant] at he
      have hrel : Rel [.shg, .mem] s (modMem s fun m => { m with moves := mv }) := rel_modMem .refl (by decide) rfl
      refine ⟨_, he, (hrel.trans ((slotGranted_rel ..).widen (by decide))).frame, rfl, by rw [← hdec]; rfl, ?_, ?_, ?_, fun _ => ?_,
        fun k _ hk => ?_⟩
      · rw [tslot_slotGranted, if_pos rfl]; rfl
      · rw [tslot_slotGranted, if_pos rfl]; rfl
      · rw [tslot_slotGranted, if_pos rfl]; rfl
      · rw [tslot_slotGranted, if_pos rfl]
      · rw [tslot_slotGranted, if_neg hk]; rfl

end Sys2Proof.Proofs
end

section
/-!
SUPPORT. What a named field reads after the hardware has given fields their values: fields of one register, of the ports of Cliff and of its common
block (R271–R273).
-/
namespace Sys2Proof.Laws
open Sys2Proof Sys2Proof.Machine Sys2Proof.Safety

/-! ### Fields that the hardware gives a value -/

/-- Two fields of the map share no bit. -/
abbrev Fld.Clear (f g : Fld) : Prop := g.off ≠ f.off ∨ f.hi < g.lo ∨ g.hi < f.lo

theorem rd_wr_fits {f : Fld} (h : f.hi < 32) (s : State) {v : Nat} (hv : v < 2 ^ (f.hi + 1 - f.lo)) : rd (wr s f v) f = v := by
  rw [rd_wr_same h, Nat.mod_eq_of_lt hv]

/-- Fields of the ports that share no bit on one port share none on any. -/
theorem Fld.Clear.at {f g : Fld} (hd : Fld.Clear f g) (hs : f.step = g.step) (n : Nat) : Fld.Clear (f.at n) (g.at n) := by
  rcases hd with h | h | h
  · exact .inl fun e => h (by simp only [Fld.at, hs] at e; omega)
  · exact .inr (.inl h)
  · exact .inr (.inr h)

theorem rd_wr_at_other {f g : Fld} (h : f.hi < 32) (hs : f.step = g.step) (hd : Fld.Clear f g) (s : State) (n v : Nat) :
    rd (wr s (f.at n) v) (g.at n) = rd s (g.at n) := rd_wr_other (f := f.at n) (g := g.at n) h (hd.at hs n) s v

theorem rd_wrOr_other {f g : Fld} (h : f.hi < 32) (hd : Fld.Clear f g) (s : State) (v : Nat) : rd (wrOr s f v) g = rd s g :=
  rd_wr_other h hd s _

theorem rd_wrOr_at_other {f g : Fld} (h : f.hi < 32) (hs : f.step = g.step) (hd : Fld.Clear f g) (s : State) (n v : Nat) :
    rd (wrOr s (f.at n) v) (g.at n) = rd s (g.at n) := rd_wrOr_other (f := f.at n) (g := g.at n) h (hd.at hs n) s v

/-- A one-bit field of a port stays set when the hardware sets bits of its register. -/
theorem rdb_wrOr_keeps {f g : Fld} (h : f.hi < 32) (hd : Fld.Clear f g) {s : State} (v : Nat) (hg : rdb s g = true) : rdb (wrOr s f v) g = true := by
  rwa [rdb_of_rd (rd_wrOr_other h hd s v)]

theorem rd_wr_at_fits {f : Fld} (h : f.hi < 32) (s : State) (n : Nat) {v : Nat} (hv : v < 2 ^ (f.hi + 1 - f.lo)) :
    rd (wr s (f.at n) v) (f.at n) = v := rd_wr_fits (f := f.at n) h s hv

theorem rdb_wrOr_at_one {f : Fld} (h : f.hi < 32) (hb : f.hi = f.lo) (s : State) (n : Nat) : rdb (wrOr s (f.at n) 1) (f.at n) = true :=
  rdb_wrOr_one (f := f.at n) h hb s

theorem rdb_wrOr_at_keeps {f g : Fld} (h : f.hi < 32) (hs : f.step = g.step) (hd : Fld.Clear f g) {s : State} (n v : Nat)
    (hg : rdb s (g.at n) = true) : rdb (wrOr s (f.at n) v) (g.at n) = true := rdb_wrOr_keeps (f := f.at n) h (hd.at hs n) v hg

/-! ### Fields of the ports and of the common block -/

/-- A field of the port blocks. -/
abbrev PortFld (f : Fld) : Prop := 0x60000 ≤ f.off ∧ f.off < 0x60400 ∧ f.step = 0x400

/-- Offsets outside the port blocks. -/
abbrev OffPorts (offs : List Nat) : Prop := ∀ o ∈ offs, o < 0x60000 ∨ 0x63000 ≤ o

theorem rd_port_other {f g : Fld} (hf : PortFld f) (hg : PortFld g) (h : f.hi < 32) {n m : Nat} (hnm : m ≠ n) (s : State) (v : Nat) :
    rd (wr s (f.at n) v) (g.at m) = rd s (g.at m) :=
  rd_wr_other (f := f.at n) (g := g.at m) h (.inl (by simp only [Fld.at, hf.2.2, hg.2.2]; omega)) s v

theorem rd_port_of_regsBut {offs : List Nat} {s t : State} (h : RegsBut offs s t) (ho : OffPorts offs) {f : Fld} (hf : PortFld f) {n : Nat}
    (hn : n < 12) : rd t (f.at n) = rd s (f.at n) :=
  rd_of_regsBut h fun hin => by
    have := ho _ hin
    simp only [Fld.at, hf.2.2] at this
    omega

/-- A field outside the port blocks after a write of a port's field. -/
theorem rd_common_wr_port {f g : Fld} (hf : PortFld f) (hg : g.off < 0x60000 ∨ 0x63000 ≤ g.off) (h : f.hi < 32) {n : Nat} (hn : n < 12)
    (s : State) (v : Nat) : rd (wr s (f.at n) v) g = rd s g :=
  rd_wr_other (f := f.at n) h (.inl (by simp only [Fld.at, hf.2.2]; omega)) s v

theorem portPresent_lt {v : Variant} {n : Nat} (h : portPresent v n = true) : n < 12 := by
  simp only [portPresent, Bool.and_eq_true, decide_eq_true_eq] at h
  exact h.1

theorem usable_iff {s : State} {n : Nat} :
    usable s n = true ↔ portPresent s.variant n = true ∧ pState s n = 6 ∧ rdb s (CLF_PCTL_loopback.at n) = false := by
  unfold usable stUP
  rw [Bool.and_eq_true, Bool.and_eq_true, decide_eq_true_iff, Bool.not_eq_true', and_assoc]

theorem usable_lt {s : State} {n : Nat} (h : usable s n = true) : n < 12 := portPresent_lt (usable_iff.1 h).1

/-- Whether a port carries traffic is read off its own registers. -/
theorem usable_of_rd {s t : State} {n : Nat} (hv : t.variant = s.variant) (hstate : pState t n = pState s n)
    (hloop : rd t (CLF_PCTL_loopback.at n) = rd s (CLF_PCTL_loopback.at n)) : usable t n = usable s n := by
  unfold usable; rw [hv, hstate, rdb_of_rd hloop]

theorem pState_of_regsBut {offs : List Nat} {s t : State} (h : RegsBut offs s t) (ho : OffPorts offs) {n : Nat} (hn : n < 12) :
    pState t n = pState s n := rd_port_of_regsBut h ho (by decide) hn

theorem usable_of_regsBut {offs : List Nat} {s t : State} (h : RegsBut offs s t) (ho : OffPorts offs) (hv : t.variant = s.variant) (n : Nat) :
    usable t n = usable s n := by
  by_cases hn : n < 12
  · exact usable_of_rd hv (pState_of_regsBut h ho hn) (rd_port_of_regsBut h ho (by decide) hn)
  · have hno : ∀ v, portPresent v n = false := fun v => by simp [portPresent, hn]
    simp [usable, hno]

theorem usable_congr {s t : State} (hr : t.regs = s.regs) (hv : t.variant = s.variant) : usable t = usable s :=
  funext fun _ => usable_of_rd hv (rd_congr hr hv _) (rd_congr hr hv _)

theorem upPorts_of_regsBut {offs : List Nat} {s t : State} (h : RegsBut offs s t) (ho : OffPorts offs) (hv : t.variant = s.variant) :
    upPorts t = upPorts s := by
  unfold upPorts; rw [funext (usable_of_regsBut h ho hv)]

theorem mem_upPorts {s : State} {n : Nat} : n ∈ upPorts s ↔ usable s n = true := by
  unfold upPorts
  rw [List.mem_filter, List.mem_range]
  exact ⟨And.right, fun h => ⟨usable_lt h, h⟩⟩

/-- The coordinates' own registers give the device ID (R256). -/
theorem ownId_of_regsBut {offs : List Nat} {s t : State} (h : RegsBut offs s t) (ho : CLF_COORD.off ∉ offs) : ownId t = ownId s := by
  unfold ownId
  rw [rd_of_regsBut h (f := CLF_COORD_x) ho, rd_of_regsBut h (f := CLF_COORD_y) ho, rd_of_regsBut h (f := CLF_COORD_z) ho]

theorem discovered_of_regsBut {offs : List Nat} {s t : State} (h : RegsBut offs s t) (ho : CLF_COORD.off ∉ offs) : discovered t = discovered s :=
  rdb_of_rd (rd_of_regsBut h (f := CLF_COORD_valid) ho)

/-- What coordinates, tag and sizes read once they are taken (R258). -/
theorem setCoord_rd (s : State) {x y z tag sx sy sz : Nat} (hx : x < 64) (hy : y < 64) (hz : z < 32) (htag : tag < 65536) (hsx : sx < 128)
    (hsy : sy < 128) (hsz : sz < 64) (anchor : Bool) :
    rd (setCoord s x y z tag sx sy sz anchor) CLF_COORD_x = x ∧ rd (setCoord s x y z tag sx sy sz anchor) CLF_COORD_y = y ∧
      rd (setCoord s x y z tag sx sy sz anchor) CLF_COORD_z = z ∧ rdb (setCoord s x y z tag sx sy sz anchor) CLF_COORD_valid = true ∧
      rdb (setCoord s x y z tag sx sy sz anchor) CLF_COORD_anchor = anchor ∧ rd (setCoord s x y z tag sx sy sz anchor) CLF_DOMAIN_tag = tag ∧
      rd (setCoord s x y z tag sx sy sz anchor) CLF_DIMS_sx = sx ∧ rd (setCoord s x y z tag sx sy sz anchor) CLF_DIMS_sy = sy ∧
      rd (setCoord s x y z tag sx sy sz anchor) CLF_DIMS_sz = sz := by
  unfold setCoord rdb
  simp (disch := decide) only [wrs, rd_wr_other, rd_wr_same]
  refine ⟨Nat.mod_eq_of_lt hx, Nat.mod_eq_of_lt hy, Nat.mod_eq_of_lt hz, rfl, ?_, Nat.mod_eq_of_lt htag, Nat.mod_eq_of_lt hsx,
    Nat.mod_eq_of_lt hsy, Nat.mod_eq_of_lt hsz⟩
  cases anchor <;> rfl

theorem regsBut_setCoord (s : State) (x y z tag sx sy sz : Nat) (anchor : Bool) :
    RegsBut [CLF_COORD.off, CLF_DOMAIN.off, CLF_DIMS.off] s (setCoord s x y z tag sx sy sz anchor) :=
  regsBut_trans (regsBut_of_rel (rel_modClf .refl fun _ h => h) (by decide)) (regsBut_mono (regsBut_wrs _ _) (by simp [CLF_COORD_x, CLF_COORD_y,
    CLF_COORD_z, CLF_COORD_valid, CLF_COORD_anchor, CLF_DOMAIN_tag, CLF_DIMS_sx, CLF_DIMS_sy, CLF_DIMS_sz, CLF_COORD, CLF_DOMAIN, CLF_DIMS]))

end Sys2Proof.Laws
end


section
/-!
SUPPORT. Commands whose meaning sends packets of its own before the answer (R397), the distances of the torus (R241), and the meanings of
GROUP_WRITE, GROUP_RELEASE and DISCOVER on the arrival of their packet.
-/
namespace Sys2Proof.Laws
open Sys2Proof Sys2Proof.Machine Sys2Proof.Safety

/-! ### Commands that Quay admits -/

/-- A command that Quay admits and whose meaning answers at once: its frame, its answer, and the state that the answer is concluded on. -/
theorem admitted_answers {s u : State} {h : EcpHdr} {op : Nat} {cores : List Nat} (ha : admitted s h op cores = true)
    {body : State → State × Ans} {st d : Nat} {data : List Byte} {ps : List Part} (hb : body (arrive s h) = (u, .fin st d data))
    (hr : Rel ps (arrive s h) u) (hps : Part.quay ∉ ps ∧ Part.swl ∉ ps ∧ Part.tx ∉ ps ∧ Part.counts ∉ ps) :
    Frame (ps ++ ecpParts) s (ecpRun s h op cores body) ∧ Answered s (ecpRun s h op cores body) h op st d data ∧
      ecpRun s h op cores body = conclude u h op (.fin st d data) := by
  have hr' : Rel ps (arrive s h) (body (arrive s h)).1 := by rw [hb]; exact hr
  have h2 : (body (arrive s h)).2 = .fin st d data := by rw [hb]
  refine ⟨frame_mono (answered_frame ha h2 hr') fun p hp => ?_, answered_of ha h2 hr' hps, ?_⟩
  · simpa [or_comm] using hp
  · rw [ecpRun_admitted ha, hb]

section sending
variable {s u : State} {h : EcpHdr} {op : Nat} {cores : List Nat} {body : State → State × Ans} {out : List Tx} {ps : List Part}

/-- The same when the meaning sends packets that no count of a host port sees. -/
theorem answered_sending (ha : admitted s h op cores = true) {st d : Nat} {data : List Byte} (hb : body (arrive s h) = (u, .fin st d data))
    (hr : Rel ps (arrive s h) u) (hquay : Part.quay ∉ ps) (htx : u.tx = out ++ s.tx) (hcounts : u.counts = (arrive s h).counts) :
    AnsweredWith id [] out s (ecpRun s h op cores body) h op st d data := by
  have hq : u.quay = (arrive s h).quay := hr.frame .quay hquay
  have hbe : ∀ b, berthOf u b = berthOf (arrive s h) b := fun b => by unfold berthOf; rw [hq]
  rw [ecpRun_admitted ha, hb]
  exact conclude_with (admitted_accepted ha) (hbe _) (fun _ => ⟨rfl, rfl⟩) (fun _ _ h => h) (fun b _ _ => hbe b) (by rw [hq]) htx (by simp)
    (fun id _ _ _ => by rw [hcounts]) st d data

/-- A command that waits in flight after such packets: they are all that its outputs gain. -/
theorem taken_sending (ha : admitted s h op cores = true) (hb : body (arrive s h) = (u, .later)) (hr : Rel ps (arrive s h) u)
    (hquay : Part.quay ∉ ps) (htx : u.tx = out ++ s.tx) (hcounts : u.counts = (arrive s h).counts) :
    TakenWith id [] out s (ecpRun s h op cores body) h op := by
  have hq : u.quay = (arrive s h).quay := hr.frame .quay hquay
  have hstill := taken_of ha (body := fun v => (v, .later)) rfl (Rel.refl (ps := [])) (by decide)
  rw [ecpRun_admitted ha] at hstill ⊢
  rw [hb, conclude_later_eq]
  rw [conclude_later_eq] at hstill
  have hquays : (count (modBerth u h.berth fun q => { acceptSeq q h.seq with inflight := (h.seq, op) :: q.inflight }) (0x1C00 + 0x10 * h.berth) 1).quay =
      (count (modBerth (arrive s h) h.berth fun q => { acceptSeq q h.seq with inflight := (h.seq, op) :: q.inflight }) (0x1C00 + 0x10 * h.berth) 1).quay := by
    rw [count_quay, count_quay, modBerth_quay_congr hq]
  have hcs : (count (modBerth u h.berth fun q => { acceptSeq q h.seq with inflight := (h.seq, op) :: q.inflight }) (0x1C00 + 0x10 * h.berth) 1).counts =
      (count (modBerth (arrive s h) h.berth fun q => { acceptSeq q h.seq with inflight := (h.seq, op) :: q.inflight }) (0x1C00 + 0x10 * h.berth) 1).counts := by
    unfold count; rw [modBerth_counts, modBerth_counts, hcounts]
  obtain ⟨-, hseen, hwork, hothers, hrest, hacc, hcount⟩ := hstill
  unfold berthOf at hseen hwork hothers
  rw [← hquays] at hseen hwork hrest
  simp only [← hquays] at hothers
  rw [← hcs] at hacc
  simp only [← hcs] at hcount
  exact ⟨htx, hseen, hwork, hothers, hrest, hacc, hcount⟩

end sending

/-! ### What the meanings of the mapping commands read on the arrival -/

@[simp] theorem arrive_badRange (s : State) (h : EcpHdr) (a n : Nat) : badRange (arrive s h) a n = badRange s a n := by
  have ht : tierAt (arrive s h) = tierAt s := funext (Proofs.tierAt_congr (by simp))
  have hc : chanAt (arrive s h) = chanAt s := funext (chanAt_congr (by simp))
  simp [badRange, ht, hc, chanLost]

@[simp] theorem arrive_memberWords (s : State) (h : EcpHdr) (g : GrpD) : memberWords (arrive s h) g = memberWords s g := by
  simp [memberWords, readH, peek]

@[simp] theorem arrive_allocated (s : State) (h : EcpHdr) (b : Nat) (x : Hdl) : allocated (arrive s h) b x = allocated s b x := by
  simp [allocated, arrive_objOf]

@[simp] theorem arrive_isCoded (s : State) (h : EcpHdr) (x : Hdl) : isCoded (arrive s h) x = isCoded s x := by simp [isCoded, arrive_objOf]

@[simp] theorem arrive_extent (s : State) (h : EcpHdr) (x : Hdl) : extent (arrive s h) x = extent s x := by simp [extent, arrive_objOf]

@[simp] theorem arrive_ownId (s : State) (h : EcpHdr) : ownId (arrive s h) = ownId s := by simp [ownId]

@[simp] theorem arrive_dimSize (s : State) (h : EcpHdr) (d : Nat) : dimSize (arrive s h) d = dimSize s d := by simp [dimSize]

@[simp] theorem arrive_hopsOf (s : State) (h : EcpHdr) (a b : Nat) : hopsOf (arrive s h) a b = hopsOf s a b := by simp [hopsOf, dimHops]

@[simp] theorem arrive_nbrsIn (s : State) (h : EcpHdr) (ws : List Nat) (a : Nat) : nbrsIn (arrive s h) ws a = nbrsIn s ws a := by simp [nbrsIn]

@[simp] theorem arrive_closeDiam (s : State) (h : EcpHdr) (ws : List Nat) : closeDiam (arrive s h) ws = closeDiam s ws := by
  have hn : nbrsIn (arrive s h) ws = nbrsIn s ws := funext (arrive_nbrsIn s h ws)
  simp only [closeDiam, hn]

@[simp] theorem arrive_planHops (s : State) (h : EcpHdr) (plan : Nat) (ws : List Nat) : planHops (arrive s h) plan ws = planHops s plan ws := by
  simp [planHops]

@[simp] theorem arrive_grpPlaceOk (s : State) (h : EcpHdr) (b : Nat) (g : GrpD) : grpPlaceOk (arrive s h) b g = grpPlaceOk s b g := by
  simp [grpPlaceOk, closeGroup]

@[simp] theorem arrive_membersOk (s : State) (h : EcpHdr) (g : GrpD) (ws : List Nat) : membersOk (arrive s h) g ws = membersOk s g ws := by
  simp [membersOk, rdb]

@[simp] theorem arrive_groupBusy (s : State) (h : EcpHdr) (b group : Nat) : groupBusy (arrive s h) b group = groupBusy s b group := by
  simp [groupBusy, chanOf]

/-! ### GROUP_WRITE (R277–R279) -/

/-- GROUP_WRITE's own meaning. -/
def groupWriteBody (b : Nat) (entry : List Byte) (s : State) : State × Ans :=
  let g := parseGrp entry
  let n := 4 * g.size
  let listed := allocated s b g.members && !isCoded s g.members && n ≤ extent s g.members
  if listed && (readH s g.members 0 n).2 then (noteRead s g.members 0 n, .fin stFAULT 0 [])
  else if !grpFieldsOk b g || !grpPlaceOk s b g || !listed || !membersOk s g (memberWords s g) then (s, .bad 0)
  else if g.axis = 4 then
    (match closeDiam s (memberWords s g) with
      | some d => writeGroup s b entry g (memberWords s g) d
      | none => (s, .bad 0))
  else writeGroup s b entry g (memberWords s g) 0

theorem exec_groupWrite (h : EcpHdr) (entry : List Byte) (s : State) :
    exec (.groupWrite h entry) s = .next (ecpRun s h 0x0501 [] (groupWriteBody h.berth entry)) := rfl

/-- A member list that is read without an error: the rest of the checks decide. -/
theorem groupWriteBody_read {s : State} {b : Nat} {entry : List Byte} {g : GrpD} (hg : g = parseGrp entry)
    (hread : badRange s (addrOf g.members) (4 * g.size) = false) :
    groupWriteBody b entry s =
      if !grpFieldsOk b g || !grpPlaceOk s b g || !(allocated s b g.members && !isCoded s g.members && decide (4 * g.size ≤ extent s g.members)) ||
          !membersOk s g (memberWords s g) then (s, .bad 0)
      else if g.axis = 4 then
        (match closeDiam s (memberWords s g) with
          | some d => writeGroup s b entry g (memberWords s g) d
          | none => (s, .bad 0))
      else writeGroup s b entry g (memberWords s g) 0 := by
  subst hg
  have hok : (readH s (parseGrp entry).members 0 (4 * (parseGrp entry).size)).2 = false := by simpa [readH] using hread
  unfold groupWriteBody
  dsimp only
  rw [hok, Bool.and_false, if_neg (by simp)]

/-- An entry that passes every check is written. -/
theorem groupWriteBody_stores {s : State} {b d : Nat} {entry : List Byte} {g : GrpD} (hg : g = parseGrp entry)
    (hread : badRange s (addrOf g.members) (4 * g.size) = false) (halloc : allocated s b g.members = true) (hcoded : isCoded s g.members = false)
    (hroom : 4 * g.size ≤ extent s g.members) (hfields : grpFieldsOk b g = true) (hplace : grpPlaceOk s b g = true)
    (hmembers : membersOk s g (memberWords s g) = true)
    (hd : (g.axis ≠ 4 ∧ d = 0) ∨ (g.axis = 4 ∧ closeDiam s (memberWords s g) = some d)) :
    groupWriteBody b entry s = writeGroup s b entry g (memberWords s g) d := by
  rw [groupWriteBody_read hg hread, if_neg (by simp [hfields, hplace, halloc, hcoded, hroom, hmembers])]
  rcases hd with ⟨haxis, rfl⟩ | ⟨haxis, hdiam⟩
  · rw [if_neg haxis]
  · rw [if_pos haxis, hdiam]

/-- An entry whose own fields or whose place are refused. -/
theorem groupWriteBody_refuses {s : State} {b : Nat} {entry : List Byte} {g : GrpD} (hg : g = parseGrp entry)
    (hread : badRange s (addrOf g.members) (4 * g.size) = false) (hbad : grpFieldsOk b g = false ∨ grpPlaceOk s b g = false) :
    groupWriteBody b entry s = (s, .bad 0) := by
  rw [groupWriteBody_read hg hread, if_pos (by rcases hbad with h | h <;> simp [h])]

/-! ### GROUP_RELEASE and TEMPLATE_CLEAR (R279, R283) -/

/-- GROUP_RELEASE's own meaning. -/
def groupReleaseBody (b group : Nat) (s : State) : State × Ans :=
  let k := 65536 * b + group
  if (mget s.lsh.live k).isNone && (mget s.lsh.staged k).isNone then (s, .bad 0x01)
  else if (fget s.lsh.templates b).any fun d => (parseColl d).group = group then (s, .bad 0x02)
  else if groupBusy s b group then (s, .busy (busyTicks s))
  else (modLsh s fun l => { l with live := mdel l.live k, staged := mdel l.staged k }, .ok [])

theorem exec_groupRelease (h : EcpHdr) (group : Nat) (s : State) :
    exec (.groupRelease h group) s = .next (ecpRun s h 0x0502 [] (groupReleaseBody h.berth group)) := rfl

/-- TEMPLATE_CLEAR's own meaning. -/
def templateClearBody (b layer : Nat) (s : State) : State × Ans :=
  (modLsh s fun l => { l with templates := fmod l.templates b fun ds => ds.filter fun d => (parseColl d).layer ≠ layer }, .ok [])

theorem exec_templateClear (h : EcpHdr) (layer : Nat) (s : State) :
    exec (.templateClear h layer) s = .next (ecpRun s h 0x0504 [] (templateClearBody h.berth layer)) := rfl

/-! ### DISCOVER (R257, R258) -/

theorem exec_discover (h : EcpHdr) (tag sx sy sz : Nat) (s : State) :
    exec (.discover h tag sx sy sz) s = .next (ecpRun s h 0x0503 [7] fun s => startWalk s h.berth h.seq tag sx sy sz) := rfl

theorem startWalk_refuses {s : State} {b tag sx sy sz : Nat} {seq : W32} (hsize : sx = 0 ∨ 64 < sx ∨ sy = 0 ∨ 64 < sy ∨ sz = 0 ∨ 32 < sz) :
    startWalk s b seq tag sx sy sz = (s, .bad 0) := by
  have hout : (decide (sx = 0) || decide (64 < sx) || decide (sy = 0) || decide (64 < sy) || decide (sz = 0) || decide (32 < sz)) = true := by
    simpa [or_assoc] using hsize
  unfold startWalk
  rw [if_pos hout]

/-- The anchor's state as the walk begins. -/
def anchored (s : State) (tag sx sy sz : Nat) : State :=
  wrs (setCoord s 0 0 0 tag sx sy sz true) [(CLF_DISC_COUNT_reports, 0), (CLF_DISC_COUNT_conflicts, 0)]

/-- The anchor's state once its assign messages have left. -/
def walking (s : State) (tag sx sy sz : Nat) : State := sendAssign (anchored s tag sx sy sz)

/-- A walk that no other one and no coordinates forbid. -/
theorem startWalk_starts {s : State} {tag sx sy sz : Nat} (hx : 1 ≤ sx ∧ sx ≤ 64) (hy : 1 ≤ sy ∧ sy ≤ 64) (hz : 1 ≤ sz ∧ sz ≤ 32)
    (hwalk : s.clf.walk = none) (hnew : discovered s = false) (b : Nat) (seq : W32) :
    startWalk s b seq tag sx sy sz =
      if walkComplete (walking s tag sx sy sz) then (wrOr (walking s tag sx sy sz) CLF_IRQ_STAT_disc_done 1, .ok (zeros 8))
      else (modClf (walking s tag sx sy sz) fun c => { c with walk := some ⟨b, seq, (walking s tag sx sy sz).lh.tick, false⟩ }, .later) := by
  have hin : ¬ (decide (sx = 0) || decide (64 < sx) || decide (sy = 0) || decide (64 < sy) || decide (sz = 0) || decide (32 < sz)) = true := by
    simp only [Bool.or_eq_true, decide_eq_true_eq]
    omega
  unfold startWalk
  rw [if_neg hin, hwalk, hnew]
  rfl

theorem foldS_emit_walk (m : Nat → List Nat) (s : State) (l : List Nat) :
    foldS (fun s r => emit s (.walk r 0 (m r))) s l = { s with tx := (l.map fun r => Tx.walk r 0 (m r)).reverse ++ s.tx } := by
  induction l generalizing s with
  | nil => rfl
  | cons r l ih =>
    rw [foldS, ih]
    simp [emit, frameOf]

/-- The assign messages of a module, one on every UP port. -/
def assigns (s : State) : List Tx :=
  (upPorts s).map fun r => Tx.walk r 0
    [rd s CLF_COORD_x, rd s CLF_COORD_y, rd s CLF_COORD_z, rd s CLF_DOMAIN_tag, rd s CLF_DIMS_sx, rd s CLF_DIMS_sy, rd s CLF_DIMS_sz, r]

/-- Assign messages leave, and nothing else happens. -/
theorem sendAssign_eq (s : State) : sendAssign s = { s with tx := (assigns s).reverse ++ s.tx } := by
  have key : ∀ (l : List Nat) (t : State), t.regs = s.regs → t.variant = s.variant →
      foldS (fun s r => emit s (.walk r 0
        [rd s CLF_COORD_x, rd s CLF_COORD_y, rd s CLF_COORD_z, rd s CLF_DOMAIN_tag, rd s CLF_DIMS_sx, rd s CLF_DIMS_sy, rd s CLF_DIMS_sz, r])) t l =
      foldS (fun t r => emit t (.walk r 0
        [rd s CLF_COORD_x, rd s CLF_COORD_y, rd s CLF_COORD_z, rd s CLF_DOMAIN_tag, rd s CLF_DIMS_sx, rd s CLF_DIMS_sy, rd s CLF_DIMS_sz, r])) t l := by
    intro l
    induction l with
    | nil => exact fun _ _ _ => rfl
    | cons r l ih =>
      intro t hr hv
      have hrd := fun f => rd_congr hr hv f
      simp only [foldS, hrd]
      exact ih _ (by simp [hr]) (by simp [hv])
  unfold sendAssign
  rw [key _ s rfl rfl, foldS_emit_walk]
  rfl

theorem sendAssign_tx (s : State) : (sendAssign s).tx = (assigns s).reverse ++ s.tx := by rw [sendAssign_eq]
@[simp] theorem sendAssign_regs (s : State) : (sendAssign s).regs = s.regs := by rw [sendAssign_eq]
@[simp] theorem sendAssign_variant (s : State) : (sendAssign s).variant = s.variant := by rw [sendAssign_eq]
@[simp] theorem sendAssign_counts (s : State) : (sendAssign s).counts = s.counts := by rw [sendAssign_eq]
@[simp] theorem sendAssign_clf (s : State) : (sendAssign s).clf = s.clf := by rw [sendAssign_eq]
@[simp] theorem sendAssign_lh (s : State) : (sendAssign s).lh = s.lh := by rw [sendAssign_eq]
@[simp] theorem sendAssign_rd (s : State) (f : Fld) : rd (sendAssign s) f = rd s f := rd_congr (sendAssign_regs s) (sendAssign_variant s) f

@[simp] theorem arrive_upPorts (s : State) (h : EcpHdr) : upPorts (arrive s h) = upPorts s := by
  unfold upPorts
  rw [usable_congr (arrive_regs s h) (arrive_variant s h)]

/-- The state holds the anchor's coordinates, tag and sizes, and no other register but the walk's counts and interrupts differs. -/
structure Anchor (s t : State) (tag sx sy sz : Nat) : Prop where
  regs : RegsBut [CLF_COORD_x.off, CLF_DOMAIN_tag.off, CLF_DIMS_sx.off, CLF_DISC_COUNT_reports.off, CLF_IRQ_STAT_disc_done.off] s t
  valid : discovered t = true
  anchor : rdb t CLF_COORD_anchor = true
  own : ownId t = 0
  tag : rd t CLF_DOMAIN_tag = tag
  sx : rd t CLF_DIMS_sx = sx
  sy : rd t CLF_DIMS_sy = sy
  sz : rd t CLF_DIMS_sz = sz

theorem Anchor.of_regsBut {s t u : State} {tag sx sy sz : Nat} (ha : Anchor s t tag sx sy sz) (h : RegsBut [CLF_IRQ_STAT_disc_done.off] t u) :
    Anchor s u tag sx sy sz where
  regs := regsBut_trans ha.regs (regsBut_mono h (by simp))
  valid := (discovered_of_regsBut h (by decide)).trans ha.valid
  anchor := (rdb_of_rd (rd_of_regsBut h (by decide))).trans ha.anchor
  own := (ownId_of_regsBut h (by decide)).trans ha.own
  tag := (rd_of_regsBut h (by decide)).trans ha.tag
  sx := (rd_of_regsBut h (by decide)).trans ha.sx
  sy := (rd_of_regsBut h (by decide)).trans ha.sy
  sz := (rd_of_regsBut h (by decide)).trans ha.sz

theorem anchored_clf (s : State) (tag sx sy sz : Nat) : (anchored s tag sx sy sz).clf = { s.clf with walkAt := s.lh.tick } := by
  simp [anchored, setCoord]

theorem rel_anchored (s : State) (tag sx sy sz : Nat) : Rel [.regs, .clf] s (anchored s tag sx sy sz) :=
  rel_wrs (rel_setCoord .refl (by decide)) (by decide)

theorem anchored_counts (s : State) (tag sx sy sz : Nat) :
    rd (anchored s tag sx sy sz) CLF_DISC_COUNT_reports = 0 ∧ rd (anchored s tag sx sy sz) CLF_DISC_COUNT_conflicts = 0 := by
  unfold anchored
  simp (disch := decide) only [wrs, rd_wr_other, rd_wr_same, Nat.zero_mod, and_self]

theorem anchored_reads (s : State) {tag sx sy sz : Nat} (htag : tag < 65536) (hsx : sx < 128) (hsy : sy < 128) (hsz : sz < 64) :
    Anchor s (anchored s tag sx sy sz) tag sx sy sz := by
  obtain ⟨hx, hy, hz, hvalid, hanchor, hdom, hdx, hdy, hdz⟩ :=
    setCoord_rd s (x := 0) (y := 0) (z := 0) (by decide) (by decide) (by decide) htag hsx hsy hsz true
  have hcount : RegsBut [CLF_DISC_COUNT.off] (setCoord s 0 0 0 tag sx sy sz true) (anchored s tag sx sy sz) :=
    regsBut_mono (regsBut_wrs _ _) (by simp [CLF_DISC_COUNT_reports, CLF_DISC_COUNT_conflicts, CLF_DISC_COUNT])
  exact
    { regs := regsBut_trans (regsBut_mono (regsBut_setCoord s 0 0 0 tag sx sy sz true) (by simp [CLF_COORD, CLF_DOMAIN, CLF_DIMS, CLF_COORD_x,
        CLF_DOMAIN_tag, CLF_DIMS_sx])) (regsBut_mono hcount (by simp [CLF_DISC_COUNT_reports, CLF_DISC_COUNT]))
      valid := (rdb_of_rd (rd_of_regsBut hcount (by decide))).trans hvalid
      anchor := (rdb_of_rd (rd_of_regsBut hcount (by decide))).trans hanchor
      own := (ownId_of_regsBut hcount (by decide)).trans (by unfold ownId; rw [hx, hy, hz])
      tag := (rd_of_regsBut hcount (by decide)).trans hdom
      sx := (rd_of_regsBut hcount (by decide)).trans hdx
      sy := (rd_of_regsBut hcount (by decide)).trans hdy
      sz := (rd_of_regsBut hcount (by decide)).trans hdz }

/-- The anchor's assign messages name coordinate 0 (R257). -/
theorem assigns_of_anchor {s t : State} {tag sx sy sz : Nat} (ha : Anchor s t tag sx sy sz) (hv : t.variant = s.variant) :
    assigns t = (upPorts s).map fun r => Tx.walk r 0 [0, 0, 0, tag, sx, sy, sz, r] := by
  have hown := ha.own
  unfold ownId at hown
  have hx : rd t CLF_COORD_x = 0 := by omega
  have hy : rd t CLF_COORD_y = 0 := by omega
  have hz : rd t CLF_COORD_z = 0 := by omega
  unfold assigns
  rw [upPorts_of_regsBut ha.regs (by decide) hv, hx, hy, hz, ha.tag, ha.sx, ha.sy, ha.sz]

/-- A walk is complete at its start for a ring of one module alone. -/
theorem walkComplete_at_start {s t : State} {tag sx sy sz : Nat} (ha : Anchor s t tag sx sy sz) (hx : 1 ≤ sx) (hy : 1 ≤ sy) (hz : 1 ≤ sz)
    (hreports : rd t CLF_DISC_COUNT_reports = 0) (hconflicts : rd t CLF_DISC_COUNT_conflicts = 0) :
    walkComplete t = decide (sx * sy * sz = 1) := by
  have hpos : 0 < sx * sy * sz := Nat.mul_pos (Nat.mul_pos hx hy) hz
  unfold walkComplete
  rw [hreports, hconflicts, ha.sx, ha.sy, ha.sz, decide_eq_true rfl, Bool.true_and, decide_eq_decide]
  omega

theorem walking_anchor (s : State) {tag sx sy sz : Nat} (htag : tag < 65536) (hsx : sx < 128) (hsy : sy < 128) (hsz : sz < 64) :
    Anchor s (walking s tag sx sy sz) tag sx sy sz :=
  (anchored_reads s htag hsx hsy hsz).of_regsBut (regsBut_rst (sendAssign_regs _) (sendAssign_variant _))

theorem walking_complete (s : State) {tag sx sy sz : Nat} (htag : tag < 65536) (hsx : sx < 128) (hsy : sy < 128) (hsz : sz < 64) (hx : 1 ≤ sx)
    (hy : 1 ≤ sy) (hz : 1 ≤ sz) : walkComplete (walking s tag sx sy sz) = decide (sx * sy * sz = 1) := by
  obtain ⟨hreports, hconflicts⟩ := anchored_counts s tag sx sy sz
  exact walkComplete_at_start (walking_anchor s htag hsx hsy hsz) hx hy hz (by rw [walking, sendAssign_rd, hreports])
    (by rw [walking, sendAssign_rd, hconflicts])

theorem walking_tx (s : State) {tag sx sy sz : Nat} (htag : tag < 65536) (hsx : sx < 128) (hsy : sy < 128) (hsz : sz < 64) :
    (walking s tag sx sy sz).tx = ((upPorts s).map fun r => Tx.walk r 0 [0, 0, 0, tag, sx, sy, sz, r]).reverse ++ s.tx := by
  have hrel := rel_anchored s tag sx sy sz
  rw [walking, sendAssign_tx, assigns_of_anchor (anchored_reads s htag hsx hsy hsz) hrel.variant, hrel.frame .tx (by decide)]

theorem walking_counts (s : State) (tag sx sy sz : Nat) : (walking s tag sx sy sz).counts = s.counts := by
  rw [walking, sendAssign_counts]
  exact (rel_anchored s tag sx sy sz).frame .counts (by decide)

theorem walking_clf (s : State) (tag sx sy sz : Nat) : (walking s tag sx sy sz).clf = { s.clf with walkAt := s.lh.tick } := by
  rw [walking, sendAssign_clf, anchored_clf]

theorem walking_lh (s : State) (tag sx sy sz : Nat) : (walking s tag sx sy sz).lh = s.lh := by
  rw [walking, sendAssign_lh]
  exact (rel_anchored s tag sx sy sz).frame .lh (by decide)

@[simp] theorem conclude_later_regs (u : State) (h : EcpHdr) (op : Nat) : (conclude u h op .later).regs = u.regs := by
  rw [conclude_later_eq, count_regs, modBerth_regs]

@[simp] theorem conclude_later_variant (u : State) (h : EcpHdr) (op : Nat) : (conclude u h op .later).variant = u.variant := by
  rw [conclude_later_eq, count_variant, modBerth_variant]

@[simp] theorem conclude_later_clf (u : State) (h : EcpHdr) (op : Nat) : (conclude u h op .later).clf = u.clf := by
  rw [conclude_later_eq, count_clf, modBerth_clf]

end Sys2Proof.Laws
end

section
/-!
PROOFS. The commands of the mapping group (R256–R258, R277–R283, R296).
-/
namespace Sys2Proof.Proofs
open Sys2Proof Sys2Proof.Machine Sys2Proof.Safety Sys2Proof.Laws

/-- DISCOVER of sizes in range, with no walk and no coordinates: the anchor stands, its assign messages leave, and a module alone ends at once. -/
theorem discover_walks {s : State} {h : EcpHdr} {tag sx sy sz : Nat} (ha : admitted s h 0x0503 [7] = true) (hx : 1 ≤ sx ∧ sx ≤ 64)
    (hy : 1 ≤ sy ∧ sy ≤ 64) (hz : 1 ≤ sz ∧ sz ≤ 32) (htag : tag < 2 ^ 16) (hwalk : s.clf.walk = none) (hnew : discovered s = false) :
    let t := ecpRun s h 0x0503 [7] fun s => startWalk s h.berth h.seq tag sx sy sz
    let out := ((upPorts s).map fun r => Tx.walk r 0 [0, 0, 0, tag, sx, sy, sz, r]).reverse
    Frame (.regs :: .clf :: ecpParts) s t ∧ Anchor s t tag sx sy sz ∧
      if sx * sy * sz = 1 then AnsweredWith id [] out s t h 0x0503 0 0 (zeros 8) ∧ t.clf = { s.clf with walkAt := s.lh.tick }
      else TakenWith id [] out s t h 0x0503 ∧ t.clf = { s.clf with walk := some ⟨h.berth, h.seq, s.lh.tick, false⟩, walkAt := s.lh.tick } := by
  intro t out
  have hstart := startWalk_starts (tag := tag) (s := arrive s h) hx hy hz (by simpa using hwalk) (by simpa [discovered, rdb] using hnew) h.berth h.seq
  have hanch := walking_anchor (arrive s h) (tag := tag) (sx := sx) (sy := sy) (sz := sz) (by omega) (by omega) (by omega) (by omega)
  have hv : Anchor s (walking (arrive s h) tag sx sy sz) tag sx sy sz :=
    { hanch with regs := regsBut_trans (regsBut_rst (arrive_regs s h) (arrive_variant s h)) hanch.regs }
  have htx := walking_tx (arrive s h) (tag := tag) (sx := sx) (sy := sy) (sz := sz) (by omega) (by omega) (by omega) (by omega)
  rw [arrive_upPorts, arrive_tx] at htx
  have hcounts := walking_counts (arrive s h) tag sx sy sz
  have hclf := walking_clf (arrive s h) tag sx sy sz
  have hlh := walking_lh (arrive s h) tag sx sy sz
  rw [arrive_clf, arrive_lh] at hclf
  rw [arrive_lh] at hlh
  rw [walking_complete (arrive s h) (by omega) (by omega) (by omega) (by omega) hx.1 hy.1 hz.1] at hstart
  generalize walking (arrive s h) tag sx sy sz = v at hstart hv htx hcounts hclf hlh
  have hwork : Rel [.tx, .regs, .counts, .clf] (arrive s h) (startWalk (arrive s h) h.berth h.seq tag sx sy sz).1 :=
    rel_startWalk .refl fun _ h => h
  have ht : t = conclude (startWalk (arrive s h) h.berth h.seq tag sx sy sz).1 h 0x0503 (startWalk (arrive s h) h.berth h.seq tag sx sy sz).2 :=
    ecpRun_admitted ha _
  by_cases hone : sx * sy * sz = 1
  · rw [if_pos (decide_eq_true hone)] at hstart
    refine ⟨frame_mono (answered_frame ha (congrArg Prod.snd hstart) hwork) (by decide), ?_, ?_⟩
    · rw [ht, hstart]
      exact hv.of_regsBut (regsBut_trans (regsBut_wrOr _ _ 1) (regsBut_rst (conclude_regs ..) (conclude_variant ..)))
    · rw [if_pos hone]
      refine ⟨answered_sending ha hstart (by rw [hstart] at hwork; exact hwork) (by decide) (by simpa using htx) (by simpa using hcounts), ?_⟩
      rw [ht, hstart]
      exact (conclude_clf ..).trans (by rw [wrOr_clf, hclf])
  · rw [if_neg (by simpa using hone)] at hstart
    refine ⟨frame_mono (taken_frame ha (congrArg Prod.snd hstart) hwork) (by decide), ?_, ?_⟩
    · rw [ht, hstart]
      exact hv.of_regsBut (regsBut_rst (by simp) (by simp))
    · rw [if_neg hone]
      refine ⟨taken_sending ha hstart (by rw [hstart] at hwork; exact hwork) (by decide) (by simpa using htx) (by simpa using hcounts), ?_⟩
      rw [ht, hstart, conclude_later_clf, hlh]
      simp [modClf, hclf]

/-- Settles O20: an entry or a walk that passes every check takes effect on the arrival of its packet, and one that fails a check only gets its answer. -/
theorem mappingCommands : Obligations.MappingCommands := by
  unfold Obligations.MappingCommands
  refine ⟨?_, ?_, ?_, ?_, ?_, ?_, ?_⟩
  · intro s h entry g ws d ha hg hws halloc hcoded hroom hread hfields hplace hmembers hd
    subst hws
    have hb : groupWriteBody h.berth entry (arrive s h) = writeGroup (arrive s h) h.berth entry g (memberWords s g) d := by
      rw [← arrive_memberWords s h g]
      exact groupWriteBody_stores hg (by simpa using hread) (by simpa using halloc) (by simpa using hcoded) (by simpa using hroom) hfields
        (by simpa using hplace) (by simpa using hmembers) (by simpa using hd)
    obtain ⟨hframe, hans, ht⟩ := admitted_answers ha hb (rel_modLsh (ps_ := [.lsh]) .refl fun _ h => h) (by decide)
    refine ⟨_, exec_groupWrite h entry s, hframe, by simpa using hans, ?_⟩
    rw [ht, conclude_lsh]
    cases g.staged <;> simp [modLsh]
  · intro s h entry g ha hg hbad hread
    have hb : groupWriteBody h.berth entry (arrive s h) = (arrive s h, .bad 0) :=
      groupWriteBody_refuses hg (by simpa using hread) (by simpa using hbad)
    obtain ⟨hframe, hans, -⟩ := admitted_answers ha hb (.refl (ps := [])) (by decide)
    exact ⟨_, exec_groupWrite h entry s, hframe, hans⟩
  · intro s h group k ha hk hlisted htemplates hbusy
    subst hk
    have hb : groupReleaseBody h.berth group (arrive s h) = (modLsh (arrive s h) fun l =>
        { l with live := mdel l.live (65536 * h.berth + group), staged := mdel l.staged (65536 * h.berth + group) }, .ok []) := by
      unfold groupReleaseBody
      dsimp only
      rw [if_neg (by rcases hlisted with e | e <;> simp [Option.isNone_eq_false_iff.2, e]),
        if_neg (by simpa using htemplates), if_neg (by simpa using hbusy)]
    obtain ⟨hframe, hans, ht⟩ := admitted_answers ha hb (rel_modLsh (ps_ := [.lsh]) .refl fun _ h => h) (by decide)
    refine ⟨_, exec_groupRelease h group s, hframe, hans, ?_⟩
    rw [ht, conclude_lsh]
    simp [modLsh]
  · intro s h group k ha hk
    subst hk
    refine ⟨_, exec_groupRelease h group s, fun ⟨hlive, hstaged⟩ => ?_, fun ⟨hlive, htemplates⟩ => ?_⟩
    · have hb : groupReleaseBody h.berth group (arrive s h) = (arrive s h, .bad 1) := by
        unfold groupReleaseBody
        dsimp only
        rw [if_pos (by simp [Option.isSome_eq_false_iff.1 hlive, Option.isSome_eq_false_iff.1 hstaged])]
      obtain ⟨hframe, hans, -⟩ := admitted_answers ha hb (.refl (ps := [])) (by decide)
      exact ⟨hans, hframe⟩
    · have hb : groupReleaseBody h.berth group (arrive s h) = (arrive s h, .bad 2) := by
        unfold groupReleaseBody
        dsimp only
        rw [if_neg (by simp [Option.isNone_eq_false_iff.2, hlive]), if_pos (by simpa using htemplates)]
      obtain ⟨hframe, hans, -⟩ := admitted_answers ha hb (.refl (ps := [])) (by decide)
      exact ⟨hans, hframe⟩
  · intro s h tag sx sy sz ha hx1 hx2 hy1 hy2 hz1 hz2 htag hwalk hnew
    obtain ⟨hframe, hanchor, hends⟩ := discover_walks ha ⟨hx1, hx2⟩ ⟨hy1, hy2⟩ ⟨hz1, hz2⟩ htag hwalk hnew
    exact ⟨_, exec_discover h tag sx sy sz s, hframe, hanchor.regs, hanchor.valid, hanchor.anchor, hanchor.own, hanchor.tag, hanchor.sx, hanchor.sy,
      hanchor.sz, hends⟩
  · intro s h tag sx sy sz ha hsize
    have hb : startWalk (arrive s h) h.berth h.seq tag sx sy sz = (arrive s h, .bad 0) := startWalk_refuses hsize
    obtain ⟨hframe, hans, -⟩ := admitted_answers ha (body := fun s => startWalk s h.berth h.seq tag sx sy sz) hb (.refl (ps := [])) (by decide)
    exact ⟨_, exec_discover h tag sx sy sz s, hframe, hans⟩
  · intro s h layer ha
    obtain ⟨hframe, hans, ht⟩ := admitted_answers ha (body := templateClearBody h.berth layer) rfl
      (rel_modLsh (ps_ := [.lsh]) .refl fun _ h => h) (by decide)
    refine ⟨_, exec_templateClear h layer s, hframe, hans, ?_⟩
    rw [ht, conclude_lsh]
    simp [modLsh, fmod]

end Sys2Proof.Proofs
end

section
/-!
SUPPORT. The records of the Cliff ports, what a transmitter hands out (R246–R253), and what the movement of flits leaves of a port (R267).
-/
namespace Sys2Proof.Laws
open Sys2Proof Sys2Proof.Machine Sys2Proof.Safety

/-! ### The records of the ports -/

theorem mdel_mset {α : Type} (m : NMap α) (i : Nat) (v : α) : mdel (mset m i v) i = mdel m i := by
  induction m with
  | nil => simp [mset, mdel]
  | cons d m ih =>
    obtain ⟨k, w⟩ := d
    rw [mset]
    split
    · next hk => subst hk; simp [mdel]
    · split
      · simp [mdel]
      · next hk _ => simpa [mdel, hk] using ih

theorem mset_mset {α : Type} (m : NMap α) (i : Nat) (v w : α) : mset (mset m i v) i w = mset m i w := by
  induction m with
  | nil => simp [mset]
  | cons d m ih =>
    obtain ⟨k, x⟩ := d
    by_cases hk : k = i
    · simp [mset, hk]
    · by_cases hlt : i < k
      · simp [mset, hk, hlt]
      · simp [mset, hk, hlt, ih]

theorem portOf_congr {s t : State} (h : t.clf = s.clf) (m : Nat) : portOf t m = portOf s m := by unfold portOf; rw [h]

theorem portOf_modPort (s : State) (n m : Nat) (f : Port → Port) : portOf (modPort s n f) m = if m = n then f (portOf s n) else portOf s m := by
  unfold modPort modClf
  simp [portOf]

@[simp] theorem portOf_modPort_same (s : State) (n : Nat) (f : Port → Port) : portOf (modPort s n f) n = f (portOf s n) := by
  rw [portOf_modPort, if_pos rfl]

theorem portOf_modPort_other (s : State) {n m : Nat} (h : m ≠ n) (f : Port → Port) : portOf (modPort s n f) m = portOf s m := by
  rw [portOf_modPort, if_neg h]

/-- The records of the other ports stand. -/
@[simp] theorem mdel_modPort (s : State) (n : Nat) (f : Port → Port) : mdel (modPort s n f).clf.ports n = mdel s.clf.ports n := mdel_mset _ _ _

theorem modPort_modPort (s : State) (n : Nat) (f g : Port → Port) : modPort (modPort s n f) n g = modPort s n fun p => g (f p) := by
  have hport := portOf_modPort_same s n f
  unfold modPort modClf at *
  simp only [hport, mset_mset]

@[simp] theorem portOf_wr (s : State) (f : Fld) (v m : Nat) : portOf (wr s f v) m = portOf s m := portOf_congr (wr_clf s f v) m
@[simp] theorem portOf_wrOr (s : State) (f : Fld) (v m : Nat) : portOf (wrOr s f v) m = portOf s m := portOf_congr (wrOr_clf s f v) m
@[simp] theorem portOf_wrs (s : State) (l : List (Fld × Nat)) (m : Nat) : portOf (wrs s l) m = portOf s m := portOf_congr (wrs_clf s l) m
@[simp] theorem portOf_count (s : State) (id k m : Nat) : portOf (count s id k) m = portOf s m := portOf_congr (count_clf s id k) m
@[simp] theorem portOf_emit (s : State) (x : Tx) (m : Nat) : portOf (emit s x) m = portOf s m := portOf_congr (emit_clf s x) m

@[simp] theorem modPort_usable (s : State) (n : Nat) (f : Port → Port) (m : Nat) : usable (modPort s n f) m = usable s m :=
  congrFun (usable_congr (modPort_regs s n f) (modPort_variant s n f)) m

@[simp] theorem modPort_pState (s : State) (n : Nat) (f : Port → Port) (m : Nat) : pState (modPort s n f) m = pState s m := modPort_rd s n f _

/-! ### What a transmitter hands out (R246, R247) -/

/-- A flit with the acknowledgement and the credit total that a port gives as it stands. -/
def withAck (p : Port) (cr : Nat) (f : Flit) : Flit :=
  { f with ack := (p.rxNext + 4095) % 4096, ackV := true, nak := p.nakking, crSel := cr, crTotal := mgetD p.freed cr 0 }

/-- The idle flit before its port's acknowledgement stands in it. -/
def blankFlit : Flit :=
  { vc := 0, cls := 0, first := false, last := false, detour := false, dst := 0, hops := 0, src := 0, len := 0, seq := 0, ack := 0
    ackV := true, nak := false, crSel := 15, crTotal := 0, hcrc := 0, payload := [] }

theorem emitFlit_eq (s : State) (n cr : Nat) (f : Flit) :
    emitFlit s n cr f = count (emit s (.flit n (sealFlit (withAck (portOf s n) cr f)))) (0x1604 + 0x10 * n) 1 := rfl

theorem idleOn_eq (s : State) (n cr : Nat) : idleOn s n cr = emitFlit s n cr blankFlit := rfl

/-- A sealed flit passes its own check. -/
@[simp] theorem hcrcOk_sealFlit (f : Flit) : hcrcOk (sealFlit f) = true := decide_eq_true rfl

@[simp] theorem emitFlit_clf (s : State) (n cr : Nat) (f : Flit) : (emitFlit s n cr f).clf = s.clf := by rw [emitFlit_eq]; simp
@[simp] theorem emitFlit_regs (s : State) (n cr : Nat) (f : Flit) : (emitFlit s n cr f).regs = s.regs := by rw [emitFlit_eq]; simp
@[simp] theorem emitFlit_variant (s : State) (n cr : Nat) (f : Flit) : (emitFlit s n cr f).variant = s.variant := by rw [emitFlit_eq]; simp
@[simp] theorem emitFlit_rd (s : State) (n cr : Nat) (f : Flit) (g : Fld) : rd (emitFlit s n cr f) g = rd s g := by rw [emitFlit_eq]; simp
@[simp] theorem emitFlit_tx (s : State) (n cr : Nat) (f : Flit) :
    (emitFlit s n cr f).tx = .flit n (sealFlit (withAck (portOf s n) cr f)) :: s.tx := by rw [emitFlit_eq]; simp
@[simp] theorem portOf_emitFlit (s : State) (n cr : Nat) (f : Flit) (m : Nat) : portOf (emitFlit s n cr f) m = portOf s m :=
  portOf_congr (emitFlit_clf s n cr f) m
@[simp] theorem emitFlit_usable (s : State) (n cr : Nat) (f : Flit) (m : Nat) : usable (emitFlit s n cr f) m = usable s m :=
  congrFun (usable_congr (emitFlit_regs s n cr f) (emitFlit_variant s n cr f)) m

/-- One flit sent is one more on the port's count. -/
theorem sent_emitFlit (s : State) (n cr : Nat) (f : Flit) (j : Nat) :
    mgetD (emitFlit s n cr f).counts j 0 = if j = 0x1604 + 0x10 * n then mgetD s.counts (0x1604 + 0x10 * n) 0 + 1 else mgetD s.counts j 0 := by
  rw [emitFlit_eq, counts_count, counts_emit_flit]; rfl

theorem countsBut_emitFlit (s : State) (n cr : Nat) (f : Flit) : CountsBut [0x1604 + 0x10 * n] s (emitFlit s n cr f) := fun j hj => by
  rw [sent_emitFlit, if_neg (by simpa using hj)]

/-- A port with nothing to send sends nothing. -/
theorem pump_of_none {s : State} {n : Nat} (h : (portOf s n).waiting = []) : pump s n = s := by
  unfold pump
  rw [h]
  rfl

/-- A port that carries no traffic sends nothing. -/
theorem pump_of_unusable {s : State} {n : Nat} (h : usable s n = false) : pump s n = s := by
  unfold pump
  cases (portOf s n).waiting.length with
  | zero => rfl
  | succ k => simp [pumpPort, h]

/-! ### What the movement of flits leaves of a port -/

/-- A port's record but for its buffers and transmitter. -/
def linkOf (p : Port) : Port :=
  { p with replay := [], txSeq := 0, sent := [], freed := [], waiting := [], wrr := 0, turn := [], partials := [] }

/-- A port's record but for what it receives. -/
def sendOf (p : Port) : Port := { p with freed := [], partials := [] }

theorem linkOf_of_sendOf {p q : Port} (h : sendOf q = sendOf p) : linkOf q = linkOf p :=
  congrArg linkOf (a₁ := sendOf q) (a₂ := sendOf p) h

/-- What the movement of flits leaves: the registers but the interrupt of an unreachable packet, each port's record but for its buffers, the
transmitters of the ports in `quiet`, and the coordinate walk. -/
structure Carries (quiet : Nat → Prop) (s t : State) : Prop where
  regs : RegsBut [CLF_IRQ_STAT.off] s t
  variant : t.variant = s.variant
  link : ∀ m, linkOf (portOf t m) = linkOf (portOf s m)
  still : ∀ m, quiet m → sendOf (portOf t m) = sendOf (portOf s m)
  walk : t.clf.walk = s.clf.walk ∧ t.clf.walkAt = s.clf.walkAt

section carries
variable {quiet : Nat → Prop} {s t u : State}

theorem Carries.refl : Carries quiet s s := ⟨regsBut_refl, rfl, fun _ => rfl, fun _ _ => rfl, rfl, rfl⟩

theorem Carries.trans (h : Carries quiet s t) (h' : Carries quiet t u) : Carries quiet s u :=
  ⟨regsBut_trans h.regs h'.regs, h'.variant.trans h.variant, fun m => (h'.link m).trans (h.link m), fun m hm => (h'.still m hm).trans (h.still m hm),
    h'.walk.1.trans h.walk.1, h'.walk.2.trans h.walk.2⟩

theorem Carries.usable (h : Carries quiet s t) (m : Nat) : usable t m = usable s m := usable_of_regsBut h.regs (by decide) h.variant m

/-- Nothing of Cliff or of the registers is touched. -/
theorem Carries.of_same (hr : t.regs = s.regs) (hv : t.variant = s.variant) (hp : ∀ m, portOf t m = portOf s m)
    (hw : t.clf.walk = s.clf.walk ∧ t.clf.walkAt = s.clf.walkAt) : Carries quiet s t :=
  ⟨regsBut_rst hr hv, hv, fun m => by rw [hp], fun m _ => by rw [hp], hw⟩

/-- A change of a port's buffers. -/
theorem carries_modPort {n : Nat} {f : Port → Port} (hlink : ∀ p, linkOf (f p) = linkOf p) (hn : ¬ quiet n) : Carries quiet s (modPort s n f) where
  regs := regsBut_rst rfl rfl
  variant := rfl
  link m := by
    rw [portOf_modPort]
    split
    · next h => rw [hlink, h]
    · rfl
  still m hm := by rw [portOf_modPort_other s (fun h : m = n => hn (by rwa [h] at hm))]
  walk := ⟨rfl, rfl⟩

/-- A change of what a port receives. -/
theorem carries_modPort_received {n : Nat} {f : Port → Port} (hsend : ∀ p, sendOf (f p) = sendOf p) : Carries quiet s (modPort s n f) where
  regs := regsBut_rst rfl rfl
  variant := rfl
  link m := by
    rw [portOf_modPort]
    split
    · next h => rw [linkOf_of_sendOf (hsend _), h]
    · rfl
  still m _ := by
    rw [portOf_modPort]
    split
    · next h => rw [hsend, h]
    · rfl
  walk := ⟨rfl, rfl⟩

theorem carries_foldS {α : Type} {f : State → α → State} (hf : ∀ t x, Carries quiet s t → Carries quiet s (f t x)) (l : List α)
    (h : Carries quiet s t) : Carries quiet s (foldS f t l) :=
  foldS_holds hf h l

theorem carries_emitFlit (n cr : Nat) (f : Flit) : Carries quiet s (emitFlit s n cr f) :=
  .of_same (emitFlit_regs ..) (emitFlit_variant ..) (portOf_emitFlit s n cr f) (by simp)

theorem carries_freeBuffer (n buf : Nat) : Carries quiet s (freeBuffer s n buf) := by
  have hfree : Carries quiet s (modPort s n fun p => { p with freed := mset p.freed buf ((mgetD p.freed buf 0 + 1) % 4096) }) :=
    carries_modPort_received fun _ => rfl
  unfold freeBuffer
  dsimp only
  split
  · exact hfree.trans (carries_emitFlit _ _ _)
  · exact hfree

theorem carries_sendFlit {n : Nat} (x : OutFlit) (hn : ¬ quiet n) : Carries quiet s (sendFlit s n x) := by
  unfold sendFlit
  extract_lets p f b g v w
  have hv : Carries quiet s v := carries_modPort (fun _ => rfl) hn
  have hw : Carries quiet s w := hv.trans (carries_emitFlit _ _ _)
  split
  · exact hw.trans (carries_freeBuffer _ _)
  · exact hw

theorem carries_pumpPort {n : Nat} (hn : ¬ quiet n) (k : Nat) : Carries quiet s (pumpPort k s n) := by
  induction k generalizing s with
  | zero => exact .refl
  | succ k ih =>
    unfold pumpPort
    extract_lets p
    split
    · exact .refl
    · split
      · exact (carries_sendFlit _ hn).trans ih
      · exact .refl

theorem carries_pump {n : Nat} (hn : ¬ quiet n) : Carries quiet s (pump s n) := carries_pumpPort hn _

theorem carries_enqueueOut {n : Nat} (l : List OutFlit) (hn : ¬ quiet n) : Carries quiet s (enqueueOut s n l) := by
  have hput : Carries quiet s (modPort s n fun p => { p with waiting := p.waiting ++ l }) := carries_modPort (fun _ => rfl) hn
  exact hput.trans (carries_pump hn)

/-- Any port may send as a packet is broken off. -/
theorem carries_abortRoute (n vc : Nat) : Carries (fun _ => False) s (abortRoute s n vc) := by
  unfold abortRoute
  split
  · exact .refl
  · extract_lets u
    have hu : Carries (fun _ => False) s u := carries_modPort_received fun _ => rfl
    split
    · exact hu
    · extract_lets left held v
      have hv : Carries (fun _ => False) u v := carries_modPort (fun _ => rfl) not_false
      exact (hu.trans hv).trans ((carries_foldS (fun t k h => h.trans (carries_freeBuffer _ _)) _ .refl).trans (carries_pump not_false))

theorem carries_abortInput (n : Nat) : Carries (fun _ => False) s (abortInput s n) :=
  carries_foldS (fun _ _ h => h.trans (carries_abortRoute _ _)) _ .refl

theorem carries_releaseInput (n : Nat) : Carries (fun _ => False) s (releaseInput s n) := by
  unfold releaseInput
  refine carries_foldS (fun t q h => h.trans ?_) _ .refl
  exact carries_modPort (fun _ => rfl) not_false

/-! ### New routes -/

theorem carries_unreachable : Carries quiet s (unreachable s) :=
  ⟨regsBut_trans (regsBut_wrOr s CLF_IRQ_STAT_unreach 1) (regsBut_count _ _ 1), by simp [unreachable], fun m => by simp [unreachable], fun m _ => by simp [unreachable],
    by simp [unreachable]⟩

theorem carries_pickPort (d : Nat) (plus : Bool) (vc src dst : Nat) : Carries quiet s (pickPort s d plus vc src dst).1 := by
  unfold pickPort
  split
  · dsimp only
    split
    · exact .of_same rfl rfl (fun _ => rfl) ⟨rfl, rfl⟩
    · exact .refl
  · exact .refl
  · exact .refl

/-- The port that a packet takes is one of the direction's usable ones. -/
theorem pickPort_mem {d : Nat} {plus : Bool} (h : (dirUp s d plus).isEmpty = false) (vc src dst : Nat) :
    (pickPort s d plus vc src dst).2 ∈ dirUp s d plus := by
  unfold pickPort
  split
  · next p q e =>
    have two : ∀ (c : Prop) [Decidable c], (if c then p else q) ∈ [p, q] := fun c _ => by split <;> simp
    rw [e]
    dsimp only
    split
    · exact two _
    · exact two _
  · next p l _ e => simp [e]
  · next e => simp [e] at h

theorem usable_of_mem_dirUp {d : Nat} {plus : Bool} {p : Nat} (h : p ∈ dirUp s d plus) : usable s p = true := (List.mem_filter.1 h).2

/-- A packet's new route leads out on a usable port. -/
theorem newRoute_usable {n q : Nat} {f : Flit} {det : Bool} {cls : Nat} (h : (newRoute s n f).2 = some (q, det, cls)) : usable s q = true := by
  unfold newRoute at h
  dsimp only at h
  split at h
  · next hup =>
    cases h
    exact usable_of_mem_dirUp (pickPort_mem (by simpa using hup) _ _ _)
  · split at h
    · next e p l hside =>
      cases h
      have hmem : (e, p) ∈ sideDirs s (n / 4) := by rw [hside]; exact List.mem_cons_self ..
      exact usable_of_mem_dirUp (pickPort_mem (by simpa using (List.mem_filter.1 hmem).2) _ _ _)
    · cases h

theorem carries_newRoute (n : Nat) (f : Flit) : Carries quiet s (newRoute s n f).1 := by
  unfold newRoute
  dsimp only
  split
  · exact carries_pickPort _ _ _ _ _
  · split
    · exact carries_pickPort _ _ _ _ _
    · exact carries_unreachable

theorem carries_setRoute (i vc : Nat) (out : Option (Nat × Bool × Nat)) : Carries quiet s (setRoute s i vc out) := by
  unfold setRoute
  split
  · exact .refl
  · exact carries_modPort_received fun _ => rfl

/-- A packet of a port that carries no traffic leaves by another port, and its own port is left alone. -/
theorem carries_reroute {n : Nat} (hn : usable s n = false) (pk : List OutFlit) : Carries (· = n) s (reroute n s pk) := by
  unfold reroute
  split
  · next x l z _ =>
    extract_lets r v
    have hv : Carries (· = n) s v := by
      have hr : Carries (· = n) s r.1 := carries_newRoute _ _
      by_cases hlast : (z.flit.last || decide (x.input = localInput)) = true
      · rw [show v = r.1 from if_pos hlast]; exact hr
      · rw [show v = setRoute r.1 x.input x.flit.vc r.2 from if_neg hlast]; exact hr.trans (carries_setRoute _ _ _)
    split
    · next q det cls hq =>
      have hne : q ≠ n := fun h => by simp [newRoute_usable hq, ← h] at hn
      exact hv.trans (carries_enqueueOut _ hne)
    · refine hv.trans (carries_foldS (fun t x h => ?_) _ .refl)
      split
      · exact h.trans (carries_freeBuffer _ _)
      · exact h
  · exact .refl

theorem carries_fabricSend (vc dst : Nat) (bytes : List Byte) : Carries (fun _ => False) s (fabricSend s vc dst bytes) := by
  unfold fabricSend
  split
  · exact .refl
  · exact carries_unreachable
  · exact (carries_pickPort _ _ _ _ _).trans (carries_enqueueOut _ not_false)

theorem carries_reroutes {n : Nat} (hn : usable s n = false) (l : List (List OutFlit)) : Carries (· = n) s (foldS (reroute n) s l) :=
  carries_foldS (fun _ pk h => h.trans (carries_reroute ((h.usable n).trans hn) pk)) l .refl

end carries

end Sys2Proof.Laws
end

section
/-!
SUPPORT. A Cliff port that fails (R267): its state and interrupts, its buffers, its part in REPLACE_REQUEST and the registers that it leaves.
-/
namespace Sys2Proof.Laws
open Sys2Proof Sys2Proof.Machine Sys2Proof.Safety

/-! ### Small facts about what a failure does -/

/-- A cause raised stays raised over a step that touches neither its registers nor the session records. -/
theorem replaceRaised_keep {i : Nat} {offs : List Nat} {s t u : State} (h : ReplaceRaised i s t) (hr : RegsBut offs t u)
    (ho : RST_REPLACE_causes.off ∉ offs ∧ RST_IRQ_STAT_replace.off ∉ offs ∧ MGT_ALERT.off ∉ offs) (hq : u.quay = t.quay) : ReplaceRaised i s u := by
  obtain ⟨hcause, hrise⟩ := h
  have hc : rd u RST_REPLACE_causes = rd t RST_REPLACE_causes := rd_of_regsBut hr ho.1
  refine ⟨hc.trans hcause, fun hclear => ?_⟩
  obtain ⟨hirq, halert, hevent⟩ := hrise hclear
  refine ⟨(rdb_of_rd (rd_of_regsBut hr ho.2.1)).trans hirq, by rw [rd_of_regsBut hr ho.2.2]; exact halert, fun b hb => ?_⟩
  rw [hc]
  unfold EventsTo
  rw [show berthOf u b = berthOf t b by unfold berthOf; rw [hq]]
  exact hevent b hb

/-- Only the first steps' effect on an unchanged cause counts. -/
theorem clearLink_of_linkOf {p q : Port} (h : linkOf q = linkOf p) : clearLink q = clearLink p :=
  congrArg clearLink (a₁ := linkOf q) (a₂ := linkOf p) h

theorem regsBut_logPortFail (s : State) (n st : Nat) : RegsBut [RST_IRQ_STAT.off] s (logPortFail s n st) := by
  unfold logPortFail
  split
  · exact regsBut_logError _ _ _ _ _ _
  · exact regsBut_refl

theorem regsBut_setUpstream (s : State) : RegsBut [CLF_TICK.off] s (setUpstream s) := by
  unfold setUpstream
  split
  · split
    · exact regsBut_wr s CLF_TICK_upstream _
    · exact regsBut_refl
  · exact regsBut_refl

@[simp] theorem portOf_setUpstream (s : State) (m : Nat) : portOf (setUpstream s) m = portOf s m :=
  portOf_congr ((rel_setUpstream (ps_ := [.regs]) .refl fun _ h => h).frame .clf (by decide)) m

/-- Whether a part is raised, no other field of the port differs. -/
theorem portOf_raisePart (s : State) (n : Nat) : ∃ part, portOf (raisePart s n) n = { portOf s n with part := part } := by
  unfold raisePart
  split
  · have hrel : Rel [.tx, .regs, .counts, .quay] (modPort s n fun p => { p with part := true })
        (raiseReplace (modPort s n fun p => { p with part := true }) 5) := rel_raiseReplace .refl fun _ h => h
    exact ⟨true, by rw [portOf_congr (hrel.frame .clf (by decide)), portOf_modPort_same]⟩
  · exact ⟨(portOf s n).part, rfl⟩

theorem regsBut_raisePart (s : State) (n : Nat) :
    RegsBut [RST_REPLACE_causes.off, RST_IRQ_STAT.off, MGT_ALERT.off, CMD_IRQ_STAT.off] s (raisePart s n) := by
  unfold raisePart
  split
  · exact regsBut_trans (regsBut_rst (modPort_regs s n _) (modPort_variant s n _)) (regsBut_raiseReplace _ 5)
  · exact regsBut_refl

/-! ### The steps of a failure (R267) -/

/-- The failing port once it is in the error log, what it received is settled, and its buffers are as at link-up. -/
def emptied (s : State) (n st : Nat) : State := modPort (releaseInput (abortInput (logPortFail s n st) n) n) n clearLink

/-- The failing port in its new state, with the interrupts of that state. -/
def markFailed (s : State) (n st : Nat) : State :=
  let s := leaveState s n st
  let s := if st = stFAILED then wrOr s (CLF_PIRQ_STAT_failed.at n) 1
    else if st = stMISWIRED then wrOr s (CLF_PIRQ_STAT_miswired.at n) 1 else s
  if st = 0 then wrs s [(CLF_PSTAT_signal.at n, 0), (CLF_PSTAT_reversed.at n, 0)] else s

theorem portFail_eq (s : State) (n st : Nat) : portFail s n st =
    foldS (reroute n) (setUpstream (raisePart (markFailed (emptied s n st) n st) n)) (undelivered (portOf s n)) := by
  unfold portFail
  extract_lets l s1 s2 s3 s4
  have hmarked : s4 = markFailed (emptied s n st) n st := by
    unfold markFailed
    extract_lets v
    rfl
  rw [hmarked]

theorem rel_emptied (s : State) (n st : Nat) : Rel [.tx, .regs, .counts, .clf, .rst] s (emptied s n st) :=
  rel_modPort (rel_releaseInput (rel_abortInput (rel_logPortFail .refl (by decide)) (by decide)) (by decide)) (by decide)

theorem regsBut_emptied (s : State) (n st : Nat) : RegsBut [RST_IRQ_STAT.off, CLF_IRQ_STAT.off] s (emptied s n st) := by
  have hlog : RegsBut [RST_IRQ_STAT.off, CLF_IRQ_STAT.off] s (logPortFail s n st) := regsBut_mono (regsBut_logPortFail s n st) (by simp)
  have hmove : RegsBut [RST_IRQ_STAT.off, CLF_IRQ_STAT.off] (logPortFail s n st) (releaseInput (abortInput (logPortFail s n st) n) n) :=
    regsBut_mono ((carries_abortInput n).trans (carries_releaseInput n)).regs (by simp)
  exact regsBut_trans (regsBut_trans hlog hmove) (regsBut_rst (modPort_regs _ n clearLink) (modPort_variant _ n clearLink))

theorem portOf_emptied (s : State) (n st : Nat) : portOf (emptied s n st) n = clearLink (portOf s n) := by
  have hlog : portOf (logPortFail s n st) n = portOf s n :=
    portOf_congr ((rel_logPortFail (ps_ := [.regs, .rst]) .refl fun _ h => h).frame .clf (by decide)) n
  have hmove := ((carries_abortInput (s := logPortFail s n st) n).trans (carries_releaseInput n)).link n
  rw [hlog] at hmove
  rw [emptied, portOf_modPort_same, clearLink_of_linkOf hmove]

theorem rel_markFailed (s : State) (n st : Nat) : Rel [.regs, .clf] s (markFailed s n st) := by
  have hleave : Rel [.regs, .clf] s (leaveState s n st) := rel_leaveState .refl fun _ h => h
  have hirq : Rel [.regs, .clf] s (if st = stFAILED then wrOr (leaveState s n st) (CLF_PIRQ_STAT_failed.at n) 1
      else if st = stMISWIRED then wrOr (leaveState s n st) (CLF_PIRQ_STAT_miswired.at n) 1 else leaveState s n st) := by
    split
    · exact rel_wrOr hleave (by decide)
    · split
      · exact rel_wrOr hleave (by decide)
      · exact hleave
  unfold markFailed
  dsimp only
  split
  · exact rel_wrs hirq (by decide)
  · exact hirq

theorem portOf_markFailed (s : State) (n st : Nat) : portOf (markFailed s n st) n = { portOf s n with since := s.lh.tick } := by
  have hleave : portOf (leaveState s n st) n = { portOf s n with since := s.lh.tick } := by
    unfold leaveState toState
    dsimp only
    split
    · rw [portOf_wrOr, portOf_modPort_same, portOf_wr]
    · rw [portOf_modPort_same, portOf_wr]
  unfold markFailed
  dsimp only
  split <;> split <;> (try split) <;> simp only [portOf_wrOr, portOf_wrs, hleave]

/-- The registers that a port's new state touches. -/
theorem regsBut_toState (s : State) (n st : Nat) : RegsBut [(CLF_PSTAT.at n).off] s (toState s n st) :=
  regsBut_trans (regsBut_wr s (CLF_PSTAT_state.at n) st) (regsBut_rst (modPort_regs _ n _) (modPort_variant _ n _))

@[simp] theorem portOf_toState (s : State) (n st : Nat) : portOf (toState s n st) n = { portOf s n with since := s.lh.tick } := by
  unfold toState
  rw [portOf_modPort_same, portOf_wr]

theorem pState_toState (s : State) (n : Nat) {st : Nat} (h : st < 16) : pState (toState s n st) n = st := by
  unfold toState
  rw [modPort_pState]
  exact rd_wr_at_fits (f := CLF_PSTAT_state) (by decide) s n h

theorem toState_rd (s : State) (n st : Nat) {f : Fld} (hs : f.step = 0x400) (hd : Fld.Clear CLF_PSTAT_state f) :
    rd (toState s n st) (f.at n) = rd s (f.at n) := by
  unfold toState
  rw [modPort_rd]
  exact rd_wr_at_other (f := CLF_PSTAT_state) (by decide) hs.symm hd s n st

theorem regsBut_leaveState (s : State) (n st : Nat) : RegsBut [(CLF_PSTAT.at n).off, (CLF_PIRQ_STAT.at n).off] s (leaveState s n st) := by
  have hstate : RegsBut [(CLF_PSTAT.at n).off, (CLF_PIRQ_STAT.at n).off] s (toState s n st) := regsBut_mono (regsBut_toState s n st) (by simp)
  unfold leaveState
  dsimp only
  split
  · exact regsBut_trans hstate (regsBut_mono (regsBut_wrOr _ (CLF_PIRQ_STAT_down.at n) 1) (by
      simp only [List.cons_subset, List.nil_subset, and_true]
      exact List.mem_cons_of_mem _ (List.mem_cons_self ..)))
  · exact hstate

theorem leaveState_reads (s : State) (n : Nat) {st : Nat} (h : st < 16) :
    pState (leaveState s n st) n = st ∧ (pState s n = 6 → rdb (leaveState s n st) (CLF_PIRQ_STAT_down.at n) = true) := by
  unfold leaveState
  dsimp only
  split
  · next hup =>
    refine ⟨?_, fun _ => rdb_wrOr_at_one (f := CLF_PIRQ_STAT_down) (by decide) rfl _ n⟩
    unfold pState
    rw [rd_wrOr_at_other (f := CLF_PIRQ_STAT_down) (g := CLF_PSTAT_state) (by decide) rfl (by decide)]
    exact pState_toState s n h
  · next hup => exact ⟨pState_toState s n h, fun hup' => absurd hup' hup⟩

/-- The interrupt of the state that a port fails into. -/
def failIrq (s : State) (n st : Nat) : State :=
  if st = stFAILED then wrOr s (CLF_PIRQ_STAT_failed.at n) 1 else if st = stMISWIRED then wrOr s (CLF_PIRQ_STAT_miswired.at n) 1 else s

/-- A port that goes DOWN has no signal (R248). -/
def loseSignal (s : State) (n st : Nat) : State := if st = 0 then wrs s [(CLF_PSTAT_signal.at n, 0), (CLF_PSTAT_reversed.at n, 0)] else s

theorem markFailed_eq (s : State) (n st : Nat) : markFailed s n st = loseSignal (failIrq (leaveState s n st) n st) n st := rfl

theorem regsBut_failIrq (s : State) (n st : Nat) : RegsBut [(CLF_PIRQ_STAT.at n).off] s (failIrq s n st) := by
  unfold failIrq
  split
  · exact regsBut_wrOr s (CLF_PIRQ_STAT_failed.at n) 1
  · split
    · exact regsBut_wrOr s (CLF_PIRQ_STAT_miswired.at n) 1
    · exact regsBut_refl

theorem regsBut_loseSignal (s : State) (n st : Nat) : RegsBut [(CLF_PSTAT.at n).off] s (loseSignal s n st) := by
  unfold loseSignal
  split
  · exact regsBut_mono (regsBut_wrs _ _) (by simp [Fld.at, CLF_PSTAT, CLF_PSTAT_signal, CLF_PSTAT_reversed])
  · exact regsBut_refl

theorem regsBut_markFailed (s : State) (n st : Nat) : RegsBut [(CLF_PSTAT.at n).off, (CLF_PIRQ_STAT.at n).off] s (markFailed s n st) := by
  rw [markFailed_eq]
  exact regsBut_trans (regsBut_trans (regsBut_leaveState s n st) (regsBut_mono (regsBut_failIrq _ n st) (by simp)))
    (regsBut_mono (regsBut_loseSignal _ n st) (by simp))

/-- The interrupts of a port that fails stand. -/
theorem failIrq_reads (s : State) (n st : Nat) : pState (failIrq s n st) n = pState s n ∧
    (rdb s (CLF_PIRQ_STAT_down.at n) = true → rdb (failIrq s n st) (CLF_PIRQ_STAT_down.at n) = true) ∧
    (st = 7 → rdb (failIrq s n st) (CLF_PIRQ_STAT_failed.at n) = true) ∧ (st = 8 → rdb (failIrq s n st) (CLF_PIRQ_STAT_miswired.at n) = true) := by
  unfold failIrq
  split
  · next h7 =>
    exact ⟨rd_wrOr_at_other (f := CLF_PIRQ_STAT_failed) (g := CLF_PSTAT_state) (by decide) rfl (by decide) s n 1,
      rdb_wrOr_at_keeps (f := CLF_PIRQ_STAT_failed) (g := CLF_PIRQ_STAT_down) (by decide) rfl (by decide) n 1,
      fun _ => rdb_wrOr_at_one (f := CLF_PIRQ_STAT_failed) (by decide) rfl s n, fun h8 => absurd (h7.symm.trans h8) (by decide)⟩
  · next h7 =>
    split
    · exact ⟨rd_wrOr_at_other (f := CLF_PIRQ_STAT_miswired) (g := CLF_PSTAT_state) (by decide) rfl (by decide) s n 1,
        rdb_wrOr_at_keeps (f := CLF_PIRQ_STAT_miswired) (g := CLF_PIRQ_STAT_down) (by decide) rfl (by decide) n 1, fun h => absurd h h7,
        fun _ => rdb_wrOr_at_one (f := CLF_PIRQ_STAT_miswired) (by decide) rfl s n⟩
    · next h8 => exact ⟨rfl, id, fun h => absurd h h7, fun h => absurd h h8⟩

theorem loseSignal_rd (s : State) (n st : Nat) {g : Fld} (hs : g.step = 0x400) (h1 : Fld.Clear CLF_PSTAT_signal g)
    (h2 : Fld.Clear CLF_PSTAT_reversed g) : rd (loseSignal s n st) (g.at n) = rd s (g.at n) := by
  unfold loseSignal
  split
  · simp only [wrs]
    rw [rd_wr_at_other (f := CLF_PSTAT_reversed) (by decide) hs.symm h2, rd_wr_at_other (f := CLF_PSTAT_signal) (by decide) hs.symm h1]
  · rfl

theorem markFailed_reads (s : State) (n : Nat) {st : Nat} (h : st < 16) : pState (markFailed s n st) n = st ∧
    (pState s n = 6 → rdb (markFailed s n st) (CLF_PIRQ_STAT_down.at n) = true) ∧
    (st = 7 → rdb (markFailed s n st) (CLF_PIRQ_STAT_failed.at n) = true) ∧ (st = 8 → rdb (markFailed s n st) (CLF_PIRQ_STAT_miswired.at n) = true) := by
  obtain ⟨hstate, hdown⟩ := leaveState_reads s n h
  obtain ⟨histate, hidown, hifailed, himis⟩ := failIrq_reads (leaveState s n st) n st
  have hrd : ∀ g : Fld, g.step = 0x400 → Fld.Clear CLF_PSTAT_signal g → Fld.Clear CLF_PSTAT_reversed g →
      rd (markFailed s n st) (g.at n) = rd (failIrq (leaveState s n st) n st) (g.at n) := fun g hs h1 h2 => loseSignal_rd _ n st hs h1 h2
  refine ⟨(hrd CLF_PSTAT_state rfl (by decide) (by decide)).trans (histate.trans hstate), fun hup => ?_, fun h7 => ?_, fun h8 => ?_⟩
  · rw [rdb_of_rd (hrd CLF_PIRQ_STAT_down rfl (by decide) (by decide))]; exact hidown (hdown hup)
  · rw [rdb_of_rd (hrd CLF_PIRQ_STAT_failed rfl (by decide) (by decide))]; exact hifailed h7
  · rw [rdb_of_rd (hrd CLF_PIRQ_STAT_miswired rfl (by decide) (by decide))]; exact himis h8

/-! ### The whole failure -/

/-- The offsets that a failure of a port writes. -/
def failOffs (n : Nat) : List Nat :=
  [RST_IRQ_STAT.off, RST_REPLACE_causes.off, MGT_ALERT.off, CMD_IRQ_STAT.off, CLF_TICK.off, CLF_IRQ_STAT.off, (CLF_PSTAT.at n).off,
    (CLF_PIRQ_STAT.at n).off]

/-- A port has failed into state `st` (R267): state, interrupts and part in REPLACE_REQUEST, buffers as at link-up. -/
structure PortFailed (n st : Nat) (s t : State) : Prop where
  regs : RegsBut (failOffs n) s t
  state : pState t n = st
  down : pState s n = 6 → rdb t (CLF_PIRQ_STAT_down.at n) = true
  failed : st = 7 → rdb t (CLF_PIRQ_STAT_failed.at n) = true
  miswired : st = 8 → rdb t (CLF_PIRQ_STAT_miswired.at n) = true
  link : ∃ part, sendOf (portOf t n) = sendOf { clearLink (portOf s n) with since := s.lh.tick, part := part }
  replaced : discovered s = true → ReplaceRaised 5 s t
  variant : t.variant = s.variant
  log : t.rst = (logPortFail s n st).rst

theorem PortFailed.replay {n st : Nat} {s t : State} (h : PortFailed n st s t) : (portOf t n).replay = [] := by
  obtain ⟨part, hp⟩ := h.link
  exact congrArg (Port.replay ·) hp

theorem PortFailed.waiting {n st : Nat} {s t : State} (h : PortFailed n st s t) : (portOf t n).waiting = [] := by
  obtain ⟨part, hp⟩ := h.link
  exact congrArg (Port.waiting ·) hp

theorem PortFailed.since {n st : Nat} {s t : State} (h : PortFailed n st s t) : (portOf t n).since = s.lh.tick := by
  obtain ⟨part, hp⟩ := h.link
  exact congrArg (Port.since ·) hp

theorem PortFailed.cable {n st : Nat} {s t : State} (h : PortFailed n st s t) :
    (portOf t n).seated = (portOf s n).seated ∧ (portOf t n).supply = (portOf s n).supply := by
  obtain ⟨part, hp⟩ := h.link
  have hseated := congrArg (fun p : Port => p.seated) hp
  have hsupply := congrArg (fun p : Port => p.supply) hp
  exact ⟨hseated, hsupply⟩

/-- What follows on the port's new state: its part in REPLACE_REQUEST, the upstream port, and the new routes. -/
def settle (s : State) (n : Nat) (l : List (List OutFlit)) : State := foldS (reroute n) (setUpstream (raisePart s n)) l

/-- The registers that the steps after the port's new state write, none of a port's own. -/
def settleOffs : List Nat :=
  [RST_REPLACE_causes.off, RST_IRQ_STAT.off, MGT_ALERT.off, CMD_IRQ_STAT.off, CLF_TICK.off, CLF_IRQ_STAT.off]

theorem regsBut_raised (s : State) (n : Nat) : RegsBut settleOffs s (setUpstream (raisePart s n)) :=
  regsBut_trans (regsBut_mono (regsBut_raisePart s n) (by simp [settleOffs])) (regsBut_mono (regsBut_setUpstream _) (by simp [settleOffs]))

theorem variant_raised (s : State) (n : Nat) : (setUpstream (raisePart s n)).variant = s.variant :=
  (rel_setUpstream (rel_raisePart .refl (by decide)) (by decide) : Rel [.tx, .regs, .counts, .clf, .quay] s _).variant

theorem carries_settle {s : State} {n : Nat} (hn : n < 12) (hdown : pState s n ≠ 6) (l : List (List OutFlit)) :
    Carries (· = n) (setUpstream (raisePart s n)) (settle s n l) := by
  have hstate : pState (setUpstream (raisePart s n)) n = pState s n := pState_of_regsBut (regsBut_raised s n) (by decide) hn
  refine carries_reroutes ?_ l
  rw [← Bool.not_eq_true, usable_iff]
  rintro ⟨-, h6, -⟩
  exact hdown (hstate ▸ h6)

theorem regsBut_settle {s : State} {n : Nat} (hn : n < 12) (hdown : pState s n ≠ 6) (l : List (List OutFlit)) :
    RegsBut settleOffs s (settle s n l) :=
  regsBut_trans (regsBut_raised s n) (regsBut_mono (carries_settle hn hdown l).regs (by simp [settleOffs]))

theorem rel_settle (s : State) (n : Nat) (l : List (List OutFlit)) : Rel [.tx, .regs, .counts, .clf, .quay] s (settle s n l) :=
  foldSP (rel_setUpstream (rel_raisePart .refl (by decide)) (by decide)) (fun _ _ h => rel_reroute h (by decide)) l

/-- The part in REPLACE_REQUEST of a module with coordinates (R530). -/
theorem replaced_settle {s t : State} {n : Nat} (hn : n < 12) (hdown : pState t n ≠ 6) (l : List (List OutFlit)) (hd : discovered t = true)
    (hrd : rd t RST_REPLACE_causes = rd s RST_REPLACE_causes) (hlh : t.lh = s.lh) (hupd : t.upd = s.upd) (hquay : t.quay = s.quay) :
    ReplaceRaised 5 s (settle t n l) := by
  have hraise : ReplaceRaised 5 s (raisePart t n) := by
    rw [raisePart, if_pos hd]
    exact replaceRaised_raiseReplace (by decide) (by rw [modPort_rd, hrd]) (by rw [modPort_lh, hlh]) (by rw [modPort_upd, hupd])
      (by rw [modPort_quay, hquay])
  have hup : ReplaceRaised 5 s (setUpstream (raisePart t n)) :=
    replaceRaised_keep hraise (regsBut_setUpstream _) (by decide) ((rel_setUpstream (ps_ := [.regs]) .refl fun _ h => h).frame .quay (by decide))
  have hrel : Rel [.tx, .regs, .counts, .clf] (setUpstream (raisePart t n)) (settle t n l) :=
    foldSP .refl (fun _ _ h => rel_reroute h (by decide)) l
  exact replaceRaised_keep hup (carries_settle hn hdown l).regs (by decide) (hrel.frame .quay (by decide))

theorem portFail_settles (s : State) (n st : Nat) :
    portFail s n st = settle (markFailed (emptied s n st) n st) n (undelivered (portOf s n)) := portFail_eq s n st

theorem portFailed_portFail (s : State) {n st : Nat} (hn : n < 12) (hst : st < 16) (hup : st ≠ 6) : PortFailed n st s (portFail s n st) := by
  rw [portFail_settles]
  generalize undelivered (portOf s n) = l
  obtain ⟨hstate, hdown, hfailed, hmis⟩ := markFailed_reads (emptied s n st) n hst
  have hempty := regsBut_emptied s n st
  have hmarked := regsBut_markFailed (emptied s n st) n st
  have hrel : Rel [.tx, .regs, .counts, .clf, .rst] s (markFailed (emptied s n st) n st) :=
    (rel_emptied s n st).trans ((rel_markFailed _ n st).widen (by decide))
  have hrst : (markFailed (emptied s n st) n st).rst = (logPortFail s n st).rst := by
    have hmove : Rel [.tx, .counts, .clf] (logPortFail s n st) (emptied s n st) :=
      rel_modPort (rel_releaseInput (rel_abortInput .refl (by decide)) (by decide)) (by decide)
    exact ((rel_markFailed _ n st).frame .rst (by decide)).trans (hmove.frame .rst (by decide))
  have hport := portOf_markFailed (emptied s n st) n st
  rw [portOf_emptied, (rel_emptied s n st).frame .lh (by decide)] at hport
  generalize markFailed (emptied s n st) n st = u at hstate hdown hfailed hmis hmarked hrel hport hrst
  have hoff : pState u n ≠ 6 := hstate ▸ hup
  have hafter := regsBut_settle hn hoff l
  have hfirst : RegsBut [RST_IRQ_STAT.off, CLF_IRQ_STAT.off, (CLF_PSTAT.at n).off, (CLF_PIRQ_STAT.at n).off] s u :=
    regsBut_trans (regsBut_mono hempty (by simp)) (regsBut_mono hmarked (by simp))
  have hkeep : ∀ {f : Fld}, PortFld f → rd (settle u n l) (f.at n) = rd u (f.at n) := fun hf => rd_port_of_regsBut hafter (by decide) hf hn
  exact
    { regs := regsBut_trans (regsBut_mono hfirst (by simp [failOffs])) (regsBut_mono hafter (by simp [failOffs, settleOffs]))
      state := (hkeep (f := CLF_PSTAT_state) (by decide)).trans hstate
      down := fun h6 => by
        rw [rdb_of_rd (hkeep (f := CLF_PIRQ_STAT_down) (by decide))]
        exact hdown ((pState_of_regsBut hempty (by decide) hn).trans h6)
      failed := fun h7 => by rw [rdb_of_rd (hkeep (f := CLF_PIRQ_STAT_failed) (by decide))]; exact hfailed h7
      miswired := fun h8 => by rw [rdb_of_rd (hkeep (f := CLF_PIRQ_STAT_miswired) (by decide))]; exact hmis h8
      link := by
        obtain ⟨part, hpart⟩ := portOf_raisePart u n
        refine ⟨part, ?_⟩
        rw [(carries_settle hn hoff l).still n rfl, portOf_setUpstream, hpart, hport]
      replaced := fun hd => by
        have hcoord : CLF_COORD.off ∉ [RST_IRQ_STAT.off, CLF_IRQ_STAT.off, (CLF_PSTAT.at n).off, (CLF_PIRQ_STAT.at n).off] := by
          simp [CLF_COORD, RST_IRQ_STAT, CLF_IRQ_STAT, CLF_PSTAT, CLF_PIRQ_STAT, Fld.at]; omega
        have hcause : RST_REPLACE_causes.off ∉ [RST_IRQ_STAT.off, CLF_IRQ_STAT.off, (CLF_PSTAT.at n).off, (CLF_PIRQ_STAT.at n).off] := by
          simp [RST_REPLACE_causes, RST_IRQ_STAT, CLF_IRQ_STAT, CLF_PSTAT, CLF_PIRQ_STAT, Fld.at]; omega
        exact replaced_settle hn hoff l ((discovered_of_regsBut hfirst hcoord).trans hd) (rd_of_regsBut hfirst hcause)
          (hrel.frame .lh (by decide)) (hrel.frame .upd (by decide)) (hrel.frame .quay (by decide))
      variant := (rel_settle u n l).variant.trans hrel.variant
      log := ((rel_settle u n l).frame .rst (by decide)).trans hrst }

end Sys2Proof.Laws
end

section
/-!
SUPPORT. Flits sent again (R250, R251), and the training of a Cliff port from DOWN to UP (R248, R249).
-/
namespace Sys2Proof.Laws
open Sys2Proof Sys2Proof.Machine Sys2Proof.Safety

/-! ### Flits sent again -/

/-- A flit of the replay buffer as it leaves again: its header with the present acknowledgement and credit total (R247). -/
def resent (n : Nat) (p : Port) (x : OutFlit) : Tx := .flit n (sealFlit (withAck p (x.flit.seq % 10) x.flit))

/-- The flits of a list leave in its order. -/
def sendAgain (s : State) (n : Nat) (l : List OutFlit) : State := foldS (fun s (x : OutFlit) => emitFlit s n (x.flit.seq % 10) x.flit) s l

theorem resendFlits_eq (s : State) (n : Nat) : resendFlits s n = sendAgain s n (portOf s n).replay := rfl

@[simp] theorem sendAgain_clf (s : State) (n : Nat) (l : List OutFlit) : (sendAgain s n l).clf = s.clf :=
  foldS_keeps State.clf (fun t _ => emitFlit_clf t n _ _) s l

@[simp] theorem sendAgain_regs (s : State) (n : Nat) (l : List OutFlit) : (sendAgain s n l).regs = s.regs :=
  foldS_keeps State.regs (fun t _ => emitFlit_regs t n _ _) s l

@[simp] theorem sendAgain_variant (s : State) (n : Nat) (l : List OutFlit) : (sendAgain s n l).variant = s.variant :=
  foldS_keeps State.variant (fun t _ => emitFlit_variant t n _ _) s l

@[simp] theorem portOf_sendAgain (s : State) (n : Nat) (l : List OutFlit) (m : Nat) : portOf (sendAgain s n l) m = portOf s m :=
  portOf_congr (sendAgain_clf s n l) m

theorem sendAgain_tx (s : State) (n : Nat) (l : List OutFlit) : (sendAgain s n l).tx = (l.map (resent n (portOf s n))).reverse ++ s.tx := by
  induction l generalizing s with
  | nil => rfl
  | cons x l ih =>
    have hstep : sendAgain s n (x :: l) = sendAgain (emitFlit s n (x.flit.seq % 10) x.flit) n l := rfl
    rw [hstep, ih, portOf_emitFlit, emitFlit_tx]
    simp [resent]

theorem sendAgain_sent (s : State) (n : Nat) (l : List OutFlit) :
    mgetD (sendAgain s n l).counts (0x1604 + 0x10 * n) 0 = mgetD s.counts (0x1604 + 0x10 * n) 0 + BitVec.ofNat 64 l.length := by
  induction l generalizing s with
  | nil => simp [sendAgain, foldS]
  | cons x l ih =>
    have hstep : sendAgain s n (x :: l) = sendAgain (emitFlit s n (x.flit.seq % 10) x.flit) n l := rfl
    rw [hstep, ih, sent_emitFlit, if_pos rfl, List.length_cons]
    bv_omega

theorem countsBut_sendAgain (s : State) (n : Nat) (l : List OutFlit) : CountsBut [0x1604 + 0x10 * n] s (sendAgain s n l) := fun j hj =>
  foldS_keeps (fun t => mgetD t.counts j 0) (fun t _ => countsBut_emitFlit t n _ _ j hj) s l

/-! ### The steps below IDENT (R248) -/

/-- PORT_TRAINING_STEP's effect. -/
def trainingStep (port : Nat) (ident : Ident) (s : State) : State :=
  if !mayTrain s port then s
  else match pState s port with
    | 0 => startAttempt s port
    | 1 => toState (wr s (CLF_PSTAT_signal.at port) 0xFF) port 2
    | 2 => toState s port 3
    | 3 => toState (wr (useFree s) (CLF_PSTAT_reversed.at port) (Config.freeNat s.free % 2)) port 4
    | 4 => toState s port 5
    | 5 => identDone s port ident
    | _ => s

theorem exec_portTrainingStep (n : Nat) (id : Ident) (s : State) : exec (.portTrainingStep n id) s = .next (trainingStep n id s) := rfl

theorem trainingStep_refused {n : Nat} {id : Ident} {s : State} (h : mayTrain s n = false) : trainingStep n id s = s := by
  unfold trainingStep
  rw [if_pos (by simp [h])]

/-- A port takes its next state, on a state where at most its own status differs. -/
theorem toState_steps {s u : State} {n st : Nat} (hst : st < 16) (hu : Rel [.free, .regs] s u) (hr : RegsBut [(CLF_PSTAT.at n).off] s u) :
    Frame [.free, .regs, .clf] s (toState u n st) ∧ RegsBut [(CLF_PSTAT.at n).off] s (toState u n st) ∧ pState (toState u n st) n = st ∧
      portOf (toState u n st) n = { portOf s n with since := s.lh.tick } ∧ mdel (toState u n st).clf.ports n = mdel s.clf.ports n ∧
      rd (toState u n st) (CLF_PSTAT_signal.at n) = rd u (CLF_PSTAT_signal.at n) ∧ (toState u n st).free = u.free := by
  have hrel : Rel [.free, .regs, .clf] s (toState u n st) := rel_toState (hu.widen (by decide)) (by decide)
  have hclf : u.clf = s.clf := hu.frame .clf (by decide)
  refine ⟨hrel.frame, regsBut_trans hr (regsBut_toState u n st), pState_toState u n hst, ?_, ?_, toState_rd u n st rfl (by decide), ?_⟩
  · rw [portOf_toState, portOf_congr hclf, hu.frame .lh (by decide)]
  · unfold toState
    rw [mdel_modPort, wr_clf, hclf]
  · simp [toState]

theorem startAttempt_steps (s : State) (n : Nat) :
    Frame [.regs, .clf] s (startAttempt s n) ∧ RegsBut [(CLF_PSTAT.at n).off] s (startAttempt s n) ∧ pState (startAttempt s n) n = 1 ∧
      portOf (startAttempt s n) n = { portOf s n with since := s.lh.tick, attempt := s.lh.tick } ∧
      mdel (startAttempt s n).clf.ports n = mdel s.clf.ports n ∧
      rd (startAttempt s n) (CLF_PSTAT_signal.at n) = rd s (CLF_PSTAT_signal.at n) := by
  obtain ⟨-, hregs, hstate, hport, hothers, hsignal, -⟩ := toState_steps (s := s) (u := s) (n := n) (st := 1) (by decide) .refl regsBut_refl
  have hrel : Rel [.regs, .clf] s (startAttempt s n) := rel_startAttempt .refl fun _ h => h
  unfold startAttempt at hrel ⊢
  refine ⟨hrel.frame, regsBut_trans hregs (regsBut_rst (modPort_regs _ n _) (modPort_variant _ n _)), by rw [modPort_pState, hstate], ?_,
    by rw [mdel_modPort, hothers], by rw [modPort_rd, hsignal]⟩
  rw [portOf_modPort_same, hport]

/-! ### IDENT (R249, R251) -/

/-- The coordinates that the peer gives, if it has any. -/
def notePeer (s : State) (n : Nat) (coord : Option Nat) : State :=
  match coord with
  | some c => wrs s [((CLF_PEER_device.at n), c), ((CLF_PEER_valid.at n), 1)]
  | none => wr s (CLF_PEER_valid.at n) 0

/-- What IDENT records of the peer. -/
def identNoted (s : State) (n : Nat) (id : Ident) : State :=
  modPort (notePeer (wrs s [((CLF_PEER_port.at n), id.port), ((CLF_LAT_ps.at n), min 65535 (id.latPs / 2))]) n id.coord) n fun p =>
    { p with serial := id.serial }

/-- The direction's other port reached another module (R249). -/
def pairDiffers (s : State) (n : Nat) (id : Ident) : Bool :=
  portPresent s.variant (pairOf n) && pState s (pairOf n) = stUP && (portOf s (pairOf n)).serial ≠ id.serial

theorem identDone_eq (s : State) (n : Nat) (id : Ident) : identDone s n id =
    if id.port ≠ n ^^^ 2 || (pairDiffers (identNoted s n id) n id && pairOf n < n) then portFail (identNoted s n id) n stMISWIRED
    else portUp (if pairDiffers (identNoted s n id) n id then portFail (identNoted s n id) (pairOf n) stMISWIRED else identNoted s n id) n id := rfl

theorem rel_notePeer (s : State) (n : Nat) (coord : Option Nat) : Rel [.regs] s (notePeer s n coord) := by
  unfold notePeer
  split
  · exact rel_wrs .refl (by decide)
  · exact rel_wr .refl (by decide)

theorem regsBut_notePeer (s : State) (n : Nat) (coord : Option Nat) : RegsBut [(CLF_PEER.at n).off] s (notePeer s n coord) := by
  unfold notePeer
  split
  · exact regsBut_mono (regsBut_wrs _ _) (by simp [Fld.at, CLF_PEER, CLF_PEER_device, CLF_PEER_valid])
  · exact regsBut_wr s (CLF_PEER_valid.at n) 0

theorem rel_identNoted (s : State) (n : Nat) (id : Ident) : Rel [.regs, .clf] s (identNoted s n id) :=
  rel_modPort (((rel_wrs .refl (by decide) : Rel [.regs, .clf] s _)).trans ((rel_notePeer _ n id.coord).widen (by decide))) (by decide)

theorem regsBut_identNoted (s : State) (n : Nat) (id : Ident) : RegsBut [(CLF_PEER.at n).off, (CLF_LAT.at n).off] s (identNoted s n id) := by
  have hlink : RegsBut [(CLF_PEER.at n).off, (CLF_LAT.at n).off] s (wrs s [((CLF_PEER_port.at n), id.port), ((CLF_LAT_ps.at n), min 65535 (id.latPs / 2))]) :=
    regsBut_mono (regsBut_wrs _ _) (by simp [Fld.at, CLF_PEER, CLF_PEER_port, CLF_LAT, CLF_LAT_ps])
  exact regsBut_trans (regsBut_trans hlink (regsBut_mono (regsBut_notePeer _ n id.coord) (by simp))) (regsBut_rst (modPort_regs _ n _) (modPort_variant _ n _))

theorem portOf_notePeer (s : State) (n : Nat) (coord : Option Nat) (m : Nat) : portOf (notePeer s n coord) m = portOf s m :=
  portOf_congr ((rel_notePeer s n coord).frame .clf (by decide)) m

theorem portOf_identNoted (s : State) (n : Nat) (id : Ident) (m : Nat) :
    portOf (identNoted s n id) m = if m = n then { portOf s n with serial := id.serial } else portOf s m := by
  unfold identNoted
  simp only [portOf_modPort, portOf_notePeer, portOf_wrs]

theorem mdel_identNoted (s : State) (n : Nat) (id : Ident) : mdel (identNoted s n id).clf.ports n = mdel s.clf.ports n := by
  unfold identNoted
  rw [mdel_modPort, (rel_notePeer _ n id.coord).frame .clf (by decide), wrs_clf]

/-- A status is not among what IDENT records. -/
theorem pState_identNoted (s : State) {n m : Nat} (id : Ident) : pState (identNoted s n id) m = pState s m := by
  refine rd_of_regsBut (regsBut_identNoted s n id) (f := CLF_PSTAT_state.at m) ?_
  simp [Fld.at, CLF_PSTAT_state, CLF_PEER, CLF_LAT]
  omega

/-- What the peer's registers read once IDENT has recorded it. -/
theorem notePeer_reads (s : State) (n : Nat) (coord : Option Nat) :
    rd (notePeer s n coord) (CLF_PEER_port.at n) = rd s (CLF_PEER_port.at n) ∧ rd (notePeer s n coord) (CLF_LAT_ps.at n) = rd s (CLF_LAT_ps.at n) ∧
      rdb (notePeer s n coord) (CLF_PEER_valid.at n) = coord.isSome ∧
      ∀ c, coord = some c → c < 2 ^ 17 → rd (notePeer s n coord) (CLF_PEER_device.at n) = c := by
  have hother : ∀ {f g : Fld} (t : State) (v : Nat), f.hi < 32 → f.step = g.step → Fld.Clear f g → rd (wr t (f.at n) v) (g.at n) = rd t (g.at n) :=
    fun t v h hs hd => rd_wr_at_other h hs hd t n v
  cases coord with
  | none =>
    unfold notePeer
    refine ⟨hother (f := CLF_PEER_valid) _ _ (by decide) rfl (by decide), hother (f := CLF_PEER_valid) _ _ (by decide) rfl (by decide), ?_, nofun⟩
    unfold rdb
    rw [rd_wr_at_fits (f := CLF_PEER_valid) (by decide) s n (by decide)]
    rfl
  | some c =>
    unfold notePeer
    simp only [wrs]
    refine ⟨?_, ?_, ?_, ?_⟩
    · rw [hother (f := CLF_PEER_valid) (g := CLF_PEER_port) _ _ (by decide) rfl (by decide),
        hother (f := CLF_PEER_device) (g := CLF_PEER_port) _ _ (by decide) rfl (by decide)]
    · rw [hother (f := CLF_PEER_valid) (g := CLF_LAT_ps) _ _ (by decide) rfl (by decide),
        hother (f := CLF_PEER_device) (g := CLF_LAT_ps) _ _ (by decide) rfl (by decide)]
    · unfold rdb
      rw [rd_wr_at_fits (f := CLF_PEER_valid) (by decide) _ n (by decide)]
      rfl
    · intro d hd hlt
      cases hd
      rw [hother (f := CLF_PEER_valid) (g := CLF_PEER_device) _ _ (by decide) rfl (by decide)]
      exact rd_wr_at_fits (f := CLF_PEER_device) (by decide) s n hlt

theorem identNoted_reads (s : State) (n : Nat) (id : Ident) (hport : id.port < 16) :
    rd (identNoted s n id) (CLF_PEER_port.at n) = id.port ∧ rd (identNoted s n id) (CLF_LAT_ps.at n) = min 65535 (id.latPs / 2) ∧
      rdb (identNoted s n id) (CLF_PEER_valid.at n) = id.coord.isSome ∧
      ∀ c, id.coord = some c → c < 2 ^ 17 → rd (identNoted s n id) (CLF_PEER_device.at n) = c := by
  unfold identNoted rdb
  simp only [modPort_rd]
  obtain ⟨hp, hl, hv, hd⟩ := notePeer_reads (wrs s [((CLF_PEER_port.at n), id.port), ((CLF_LAT_ps.at n), min 65535 (id.latPs / 2))]) n id.coord
  refine ⟨hp.trans ?_, hl.trans ?_, hv, hd⟩
  · simp only [wrs]
    rw [rd_wr_at_other (f := CLF_LAT_ps) (g := CLF_PEER_port) (by decide) rfl (by decide)]
    exact rd_wr_at_fits (f := CLF_PEER_port) (by decide) s n hport
  · exact rd_wr_at_fits (f := CLF_LAT_ps) (by decide) _ n (Nat.lt_of_le_of_lt (Nat.min_le_left _ _) (by decide))

/-! ### UP (R251) -/

/-- A port's record as it comes UP: fresh buffers, or for a retrain the flits that the peer lacks. -/
def linked (id : Ident) (p : Port) : Port :=
  if p.retrain then { dropSent p (fun f => (f.seq + 4096 - id.replay) % 4096 ≥ 2048) with retrain := false, resends := 0, nakking := false }
  else clearLink p

/-- State UP, with its interrupt and a fresh count of attempts. -/
def markUp (s : State) (n : Nat) : State := wr (wrOr (toState s n stUP) (CLF_PIRQ_STAT_up.at n) 1) (CLF_TRAIN_attempts.at n) 0

theorem portUp_eq (s : State) (n : Nat) (id : Ident) : portUp s n id =
    pump (setUpstream (dropPart (if (portOf s n).retrain then resendFlits (markUp (modPort s n (linked id)) n) n
      else markUp (modPort s n (linked id)) n) n)) n := rfl

theorem linked_of_retrain {id : Ident} {p : Port} (h : p.retrain = true) : linked id p =
    { p with
      replay := p.replay.filter (fun x => (x.flit.seq + 4096 - id.replay) % 4096 < 2048)
      acked := openFlits (p.acked ++ p.replay.filter fun x => (x.flit.seq + 4096 - id.replay) % 4096 ≥ 2048)
      retrain := false, resends := 0, nakking := false } := by
  rw [linked, if_pos h]
  simp only [dropSent, ge_iff_le, ← decide_not, Nat.not_le]

theorem linked_waiting {id : Ident} {p : Port} (h : p.waiting = []) : (linked id p).waiting = [] := by
  unfold linked
  split
  · exact h
  · rfl

theorem markUp_reads (s : State) (n : Nat) :
    pState (markUp s n) n = 6 ∧ rdb (markUp s n) (CLF_PIRQ_STAT_up.at n) = true ∧ rd (markUp s n) (CLF_TRAIN_attempts.at n) = 0 := by
  unfold markUp
  refine ⟨?_, ?_, rd_wr_at_fits (f := CLF_TRAIN_attempts) (by decide) _ n (by decide)⟩
  · unfold pState
    rw [rd_wr_at_other (f := CLF_TRAIN_attempts) (g := CLF_PSTAT_state) (by decide) rfl (by decide),
      rd_wrOr_at_other (f := CLF_PIRQ_STAT_up) (g := CLF_PSTAT_state) (by decide) rfl (by decide)]
    exact pState_toState s n (by decide)
  · rw [rdb_of_rd (rd_wr_at_other (f := CLF_TRAIN_attempts) (g := CLF_PIRQ_STAT_up) (by decide) rfl (by decide) _ n 0)]
    exact rdb_wrOr_at_one (f := CLF_PIRQ_STAT_up) (by decide) rfl _ n

theorem regsBut_markUp (s : State) (n : Nat) :
    RegsBut [(CLF_PSTAT.at n).off, (CLF_PIRQ_STAT.at n).off, (CLF_TRAIN.at n).off] s (markUp s n) :=
  regsBut_trans (regsBut_trans (regsBut_mono (regsBut_toState s n stUP) (by simp)) (regsBut_mono (regsBut_wrOr _ (CLF_PIRQ_STAT_up.at n) 1)
    (by simp [Fld.at, CLF_PIRQ_STAT, CLF_PIRQ_STAT_up]))) (regsBut_mono (regsBut_wr _ (CLF_TRAIN_attempts.at n) 0)
    (by simp [Fld.at, CLF_TRAIN, CLF_TRAIN_attempts]))

@[simp] theorem portOf_markUp (s : State) (n : Nat) : portOf (markUp s n) n = { portOf s n with since := s.lh.tick } := by
  unfold markUp
  rw [portOf_wr, portOf_wrOr, portOf_toState]

theorem mdel_markUp (s : State) (n : Nat) : mdel (markUp s n).clf.ports n = mdel s.clf.ports n := by
  unfold markUp toState
  rw [wr_clf, wrOr_clf, mdel_modPort, wr_clf]

theorem dropPart_leaves (s : State) (n : Nat) :
    RegsBut [RST_REPLACE_causes.off] s (dropPart s n) ∧ portOf (dropPart s n) n = { portOf s n with part := false } ∧
      mdel (dropPart s n).clf.ports n = mdel s.clf.ports n := by
  unfold dropPart
  extract_lets had u
  have hregs : RegsBut [RST_REPLACE_causes.off] s u := regsBut_rst (modPort_regs s n _) (modPort_variant s n _)
  split
  · refine ⟨regsBut_trans hregs (regsBut_wr u RST_REPLACE_causes _), ?_, ?_⟩
    · rw [dropReplace, portOf_wr, portOf_modPort_same]
    · rw [dropReplace, wr_clf, mdel_modPort]
  · exact ⟨hregs, portOf_modPort_same s n _, mdel_modPort s n _⟩

/-- The flits that the port sends as it comes UP. -/
def linkedSent (n : Nat) (id : Ident) (p : Port) : List Tx := if p.retrain then ((linked id p).replay.map (resent n (linked id p))).reverse else []

/-- A port with nothing to send has come UP (R251). -/
structure PortUp (n : Nat) (id : Ident) (s t : State) : Prop where
  regs : RegsBut [(CLF_PSTAT.at n).off, (CLF_PIRQ_STAT.at n).off, (CLF_TRAIN.at n).off, RST_REPLACE_causes.off, CLF_TICK.off] s t
  state : pState t n = 6
  up : rdb t (CLF_PIRQ_STAT_up.at n) = true
  attempts : rd t (CLF_TRAIN_attempts.at n) = 0
  port : portOf t n = { linked id (portOf s n) with since := s.lh.tick, part := false }
  others : mdel t.clf.ports n = mdel s.clf.ports n
  tx : t.tx = linkedSent n id (portOf s n) ++ s.tx
  counts : CountsBut [0x1604 + 0x10 * n] s t

/-- The flits that the peer lacks are on their way. -/
theorem resend_markUp (s : State) (n : Nat) (id : Ident) :
    let u := markUp (modPort s n (linked id)) n
    let v := if (portOf s n).retrain then resendFlits u n else u
    v.clf = u.clf ∧ v.regs = u.regs ∧ v.variant = u.variant ∧ v.tx = linkedSent n id (portOf s n) ++ s.tx ∧ CountsBut [0x1604 + 0x10 * n] s v := by
  intro u v
  have hport : portOf u n = { linked id (portOf s n) with since := s.lh.tick } := by rw [portOf_markUp, portOf_modPort_same, modPort_lh]
  have hrel : Rel [.regs, .clf] s u := rel_wr (rel_wrOr (rel_toState (rel_modPort .refl (by decide)) (by decide)) (by decide)) (by decide)
  have htx : u.tx = s.tx := hrel.frame .tx (by decide)
  have hcounts : u.counts = s.counts := hrel.frame .counts (by decide)
  unfold linkedSent
  by_cases hre : (portOf s n).retrain = true
  · have hv : v = sendAgain u n (linked id (portOf s n)).replay := by
      rw [show v = resendFlits u n from if_pos hre, resendFlits_eq, hport]
    rw [hv]
    refine ⟨sendAgain_clf _ _ _, sendAgain_regs _ _ _, sendAgain_variant _ _ _, ?_, fun j hj => ?_⟩
    · rw [sendAgain_tx, if_pos hre, hport, htx]
      rfl
    · rw [countsBut_sendAgain u n _ j hj, hcounts]
  · rw [show v = u from if_neg hre, if_neg hre]
    exact ⟨rfl, rfl, rfl, htx, fun j _ => by rw [hcounts]⟩

theorem portUp_portUp {s : State} {n : Nat} (hn : n < 12) (id : Ident) (h : (portOf s n).waiting = []) : PortUp n id s (portUp s n id) := by
  rw [portUp_eq]
  obtain ⟨hclf, hregs, hvar, htx, hcounts⟩ := resend_markUp s n id
  obtain ⟨hstate, hup, hattempts⟩ := markUp_reads (modPort s n (linked id)) n
  have hmark := regsBut_markUp (modPort s n (linked id)) n
  have hmdel := mdel_markUp (modPort s n (linked id)) n
  have hport : portOf (markUp (modPort s n (linked id)) n) n = { linked id (portOf s n) with since := s.lh.tick } := by
    rw [portOf_markUp, portOf_modPort_same, modPort_lh]
  rw [mdel_modPort] at hmdel
  generalize markUp (modPort s n (linked id)) n = u at *
  generalize (if (portOf s n).retrain = true then resendFlits u n else u) = v at *
  obtain ⟨hdrop, hpart, hothers⟩ := dropPart_leaves v n
  have hv : RegsBut [(CLF_PSTAT.at n).off, (CLF_PIRQ_STAT.at n).off, (CLF_TRAIN.at n).off] s v :=
    regsBut_trans (regsBut_trans (regsBut_rst (modPort_regs s n _) (modPort_variant s n _)) hmark) (regsBut_rst hregs hvar)
  have hafter : RegsBut [RST_REPLACE_causes.off, CLF_TICK.off] v (setUpstream (dropPart v n)) :=
    regsBut_trans (regsBut_mono hdrop (by simp)) (regsBut_mono (regsBut_setUpstream _) (by simp))
  have hrel : Rel [.regs, .clf] v (setUpstream (dropPart v n)) := rel_setUpstream (rel_dropPart .refl (by decide)) (by decide)
  have hkeep : ∀ {f : Fld}, PortFld f → rd (setUpstream (dropPart v n)) (f.at n) = rd u (f.at n) := fun hf =>
    (rd_port_of_regsBut hafter (by decide) hf hn).trans (rd_congr hregs hvar _)
  have hlinked : portOf (setUpstream (dropPart v n)) n = { linked id (portOf s n) with since := s.lh.tick, part := false } := by
    rw [portOf_setUpstream, hpart, portOf_congr hclf, hport]
  rw [pump_of_none (by rw [hlinked]; exact linked_waiting h)]
  exact
    { regs := regsBut_trans (regsBut_mono hv (by simp)) (regsBut_mono hafter (by simp))
      state := (hkeep (f := CLF_PSTAT_state) (by decide)).trans hstate
      up := by rw [rdb_of_rd (hkeep (f := CLF_PIRQ_STAT_up) (by decide))]; exact hup
      attempts := (hkeep (f := CLF_TRAIN_attempts) (by decide)).trans hattempts
      port := hlinked
      others := by
        rw [(rel_setUpstream (ps_ := [.regs]) .refl fun _ h => h).frame .clf (by decide), hothers, hclf, hmdel]
      tx := (hrel.frame .tx (by decide)).trans htx
      counts := fun j hj => by rw [hrel.frame .counts (by decide)]; exact hcounts j hj }

/-! ### IDENT's outcomes -/

/-- No other module than this port's peer on the direction's other port. -/
theorem pairDiffers_iff {s : State} {n : Nat} (hn : n < 12) (id : Ident) : pairDiffers (identNoted s n id) n id = true ↔
    portPresent s.variant (pairOf n) = true ∧ pState s (pairOf n) = 6 ∧ (portOf s (pairOf n)).serial ≠ id.serial := by
  have hne : pairOf n ≠ n := by unfold pairOf; split <;> omega
  unfold pairDiffers
  rw [pState_identNoted, portOf_identNoted, if_neg hne, (rel_identNoted s n id).variant, Bool.and_eq_true, Bool.and_eq_true, decide_eq_true_iff,
    decide_eq_true_iff, and_assoc]
  rfl

theorem xor_two_lt {n : Nat} (hn : n < 12) : n ^^^ 2 < 16 := Nat.xor_lt_two_pow (n := 4) (by omega) (by decide)

/-! ### Attempts that fail (R248, R251) -/

theorem stepLimit_eq (k : Nat) : stepLimit k = if k = 1 then 1 else if k = 2 then 2000 else if k = 3 then 10 else if k = 4 then 1 else 2 := by
  unfold stepLimit
  split
  · rfl
  · rfl
  · rfl
  · rfl
  · next h1 h2 h3 h4 => rw [if_neg h1, if_neg h2, if_neg h3, if_neg h4]

/-- TRAINING_TIMEOUT's effect. -/
def trainingTimeout (port : Nat) (s : State) : State :=
  let st := pState s port
  let p := portOf s port
  if portPresent s.variant port && 1 ≤ st && st ≤ 5
      && (since s p.since ≥ stepLimit st || since s p.attempt ≥ rd s CLF_TMO_train) then attemptFails s port
  else s

theorem exec_trainingTimeout (n : Nat) (s : State) : exec (.trainingTimeout n) s = .next (trainingTimeout n s) := rfl

/-- The registers of a failed attempt: the state that it failed in, and the count. -/
def noteAttempt (s : State) (n : Nat) : State :=
  wrs s [((CLF_TRAIN_cause.at n), pState s n), ((CLF_TRAIN_attempts.at n), satAdd 15 (rd s (CLF_TRAIN_attempts.at n)) 1)]

theorem attemptFails_eq (s : State) (n : Nat) : attemptFails s n =
    if (portOf (noteAttempt s n) n).retrain || satAdd 15 (rd s (CLF_TRAIN_attempts.at n)) 1 ≥ 8 then portFail (noteAttempt s n) n stFAILED
    else toState (noteAttempt s n) n 0 := rfl

theorem noteAttempt_reads (s : State) (n : Nat) :
    rd (noteAttempt s n) (CLF_TRAIN_attempts.at n) = min 15 (rd s (CLF_TRAIN_attempts.at n) + 1) ∧
      rd (noteAttempt s n) (CLF_TRAIN_cause.at n) = pState s n := by
  unfold noteAttempt
  simp only [wrs, satAdd_eq_min]
  refine ⟨rd_wr_at_fits (f := CLF_TRAIN_attempts) (by decide) _ n (Nat.lt_of_le_of_lt (Nat.min_le_left _ _) (by decide)), ?_⟩
  rw [rd_wr_at_other (f := CLF_TRAIN_attempts) (g := CLF_TRAIN_cause) (by decide) rfl (by decide)]
  exact rd_wr_at_fits (f := CLF_TRAIN_cause) (by decide) s n (rd_lt s (CLF_PSTAT_state.at n))

end Sys2Proof.Laws
end

section
/-!
PROOFS. The training of a Cliff port (R242–R254).
-/
namespace Sys2Proof.Proofs
open Sys2Proof Sys2Proof.Machine Sys2Proof.Safety Sys2Proof.Laws

/-- IDENT ends UP: the peer is recorded, and the port sends what the peer lacks. -/
theorem identDone_up {s : State} {n : Nat} (id : Ident) (hn : n < 12) (hport : id.port = n ^^^ 2)
    (hpair : portPresent s.variant (pairOf n) = false ∨ pState s (pairOf n) ≠ 6 ∨ (portOf s (pairOf n)).serial = id.serial)
    (hwait : (portOf s n).waiting = []) :
    identDone s n id = portUp (identNoted s n id) n id ∧ PortUp n id (identNoted s n id) (portUp (identNoted s n id) n id) := by
  have hsame : pairDiffers (identNoted s n id) n id = false := by
    rw [← Bool.not_eq_true, pairDiffers_iff hn]
    rintro ⟨hp, h6, hs⟩
    rcases hpair with h | h | h
    · simp [h] at hp
    · exact h h6
    · exact hs h
  refine ⟨?_, portUp_portUp hn id (by rw [portOf_identNoted, if_pos rfl]; exact hwait)⟩
  rw [identDone_eq, hsame, if_neg (by simp [hport])]
  rfl

/-- IDENT finds the port MISWIRED. -/
theorem identDone_miswired {s : State} {n : Nat} (id : Ident) (hn : n < 12)
    (h : id.port ≠ n ^^^ 2 ∨
      (pairOf n < n ∧ portPresent s.variant (pairOf n) = true ∧ pState s (pairOf n) = 6 ∧ (portOf s (pairOf n)).serial ≠ id.serial)) :
    identDone s n id = portFail (identNoted s n id) n 8 := by
  rw [identDone_eq]
  refine if_pos ?_
  rw [Bool.or_eq_true, decide_eq_true_iff]
  refine h.imp (fun e => e) fun ⟨hlt, hpair⟩ => ?_
  rw [(pairDiffers_iff hn id).2 hpair, Bool.true_and]
  exact decide_eq_true hlt

/-- Another port's status is not among what a failure writes. -/
theorem pState_other_of_failed {s t : State} {n m st : Nat} (h : PortFailed n st s t) (hm : m < 12) (hne : m ≠ n) :
    pState t m = pState s m := by
  refine rd_of_regsBut h.regs (f := CLF_PSTAT_state.at m) ?_
  simp [failOffs, Fld.at, CLF_PSTAT_state, RST_IRQ_STAT, RST_REPLACE_causes, MGT_ALERT, CMD_IRQ_STAT, CLF_TICK, CLF_IRQ_STAT, CLF_PSTAT,
    CLF_PIRQ_STAT]
  omega

/-- A step below IDENT gives the next state; an attempt begins in DETECT, and DETECT ends with the signal of eight lanes. -/
theorem trainingStep_steps {s : State} {n : Nat} (id : Ident) (hmay : mayTrain s n = true) {k : Nat} (hk : k = pState s n) (hlt : k < 5) :
    let t := trainingStep n id s
    Frame [.free, .regs, .clf] s t ∧ RegsBut [(CLF_PSTAT.at n).off] s t ∧ pState t n = k + 1 ∧
      portOf t n = { portOf s n with since := s.lh.tick, attempt := if k = 0 then s.lh.tick else (portOf s n).attempt } ∧
      mdel t.clf.ports n = mdel s.clf.ports n ∧ rd t (CLF_PSTAT_signal.at n) = (if k = 1 then 0xFF else rd s (CLF_PSTAT_signal.at n)) ∧
      (k ≠ 3 → t.free = s.free) := by
  intro t
  have ht : t = match pState s n with
      | 0 => startAttempt s n
      | 1 => toState (wr s (CLF_PSTAT_signal.at n) 0xFF) n 2
      | 2 => toState s n 3
      | 3 => toState (wr (useFree s) (CLF_PSTAT_reversed.at n) (Config.freeNat s.free % 2)) n 4
      | 4 => toState s n 5
      | 5 => identDone s n id
      | _ => s := by
    show trainingStep n id s = _
    unfold trainingStep
    exact if_neg (by simp [hmay])
  clear_value t
  rw [← hk] at ht
  subst ht
  match k, hlt with
  | 0, _ =>
    obtain ⟨hframe, hregs, hstate, hport, hothers, hsignal⟩ := startAttempt_steps s n
    exact ⟨frame_mono hframe (by decide), hregs, hstate, hport, hothers, hsignal, fun _ => hframe .free (by decide)⟩
  | 1, _ =>
    obtain ⟨hframe, hregs, hstate, hport, hothers, hsignal, hfree⟩ := toState_steps (s := s) (u := wr s (CLF_PSTAT_signal.at n) 0xFF) (n := n)
      (st := 2) (by decide) (rel_wr .refl (by decide)) (regsBut_wr s (CLF_PSTAT_signal.at n) 0xFF)
    have hread : rd (wr s (CLF_PSTAT_signal.at n) 0xFF) (CLF_PSTAT_signal.at n) = 0xFF :=
      rd_wr_at_fits (f := CLF_PSTAT_signal) (by decide) s n (by decide)
    rw [hread] at hsignal
    exact ⟨hframe, hregs, hstate, hport, hothers, hsignal, fun _ => hfree.trans (wr_free ..)⟩
  | 2, _ =>
    obtain ⟨hframe, hregs, hstate, hport, hothers, hsignal, hfree⟩ := toState_steps (s := s) (u := s) (n := n) (st := 3) (by decide) .refl regsBut_refl
    exact ⟨hframe, hregs, hstate, hport, hothers, hsignal, fun _ => hfree⟩
  | 3, _ =>
    have hcable : RegsBut [(CLF_PSTAT.at n).off] s (wr (useFree s) (CLF_PSTAT_reversed.at n) (Config.freeNat s.free % 2)) :=
      regsBut_trans (regsBut_of_rel (rel_useFree (ps := [.free]) .refl (by decide)) (by decide)) (regsBut_wr _ (CLF_PSTAT_reversed.at n) _)
    obtain ⟨hframe, hregs, hstate, hport, hothers, hsignal, -⟩ := toState_steps (s := s) (n := n) (st := 4) (by decide)
      (rel_wr (rel_useFree .refl (by decide)) (by decide)) hcable
    refine ⟨hframe, hregs, hstate, hport, hothers, hsignal.trans ?_, fun h => absurd rfl h⟩
    rw [rd_wr_at_other (f := CLF_PSTAT_reversed) (g := CLF_PSTAT_signal) (by decide) rfl (by decide)]
    rfl
  | 4, _ =>
    obtain ⟨hframe, hregs, hstate, hport, hothers, hsignal, hfree⟩ := toState_steps (s := s) (u := s) (n := n) (st := 5) (by decide) .refl regsBut_refl
    exact ⟨hframe, hregs, hstate, hport, hothers, hsignal, fun _ => hfree⟩

/-- At the end of IDENT the step is IDENT's. -/
theorem trainingStep_ident {s : State} {n : Nat} (id : Ident) (hmay : mayTrain s n = true) (h5 : pState s n = 5) :
    trainingStep n id s = identDone s n id := by
  unfold trainingStep
  rw [if_neg (by simp [hmay]), h5]
  rfl

/-- The limits at which TRAINING_TIMEOUT ends an attempt. -/
def attemptOver (s : State) (n : Nat) : Prop :=
  since s (portOf s n).since ≥ (if pState s n = 1 then 1 else if pState s n = 2 then 2000 else if pState s n = 3 then 10 else if pState s n = 4 then 1 else 2) ∨
    since s (portOf s n).attempt ≥ rd s CLF_TMO_train

theorem trainingTimeout_fails {s : State} {n : Nat} (hp : portPresent s.variant n = true) (h1 : 1 ≤ pState s n) (h5 : pState s n ≤ 5)
    (hover : attemptOver s n) : trainingTimeout n s = attemptFails s n := by
  unfold trainingTimeout
  refine if_pos ?_
  simp only [Bool.and_eq_true, Bool.or_eq_true, decide_eq_true_eq, stepLimit_eq]
  exact ⟨⟨⟨hp, h1⟩, h5⟩, hover⟩

theorem trainingTimeout_waits {s : State} {n : Nat}
    (h : portPresent s.variant n = false ∨ pState s n = 0 ∨ 5 < pState s n ∨ ¬ attemptOver s n) : trainingTimeout n s = s := by
  unfold trainingTimeout
  refine if_neg ?_
  simp only [Bool.and_eq_true, Bool.or_eq_true, decide_eq_true_eq, stepLimit_eq]
  rintro ⟨⟨⟨hp, h1⟩, h5⟩, hover⟩
  rcases h with h | h | h | h
  · simp [h] at hp
  · omega
  · omega
  · exact h hover

/-- Settles O50: each step below IDENT gives the next state, IDENT ends UP or MISWIRED, and a failed attempt ends DOWN or FAILED. -/
theorem portTraining : Obligations.PortTraining := by
  unfold Obligations.PortTraining
  refine ⟨?_, ?_, ?_, ?_, ?_, ?_, ?_, ?_⟩
  · intro s n id h
    refine ⟨by rw [exec_portTrainingStep, trainingStep_refused h], ?_⟩
    exact congrArg Host.Outcome.next (if_neg (by simp [h]))
  · intro s n k id hn hmay hk hlt
    exact ⟨_, exec_portTrainingStep n id s, trainingStep_steps id hmay hk hlt⟩
  · intro s n q id p hn hmay h5 hq hp hport hpair hwait
    subst hp
    have hq' : q = pairOf n := hq
    subst hq'
    obtain ⟨hid, hup⟩ := identDone_up id hn hport hpair hwait
    obtain ⟨hpeer, hlat, hvalid, hdevice⟩ := identNoted_reads s n id (by rw [hport]; exact xor_two_lt hn)
    have hrel := rel_identNoted s n id
    have hp : portOf (identNoted s n id) n = { portOf s n with serial := id.serial } := by rw [portOf_identNoted, if_pos rfl]
    have htx : (identNoted s n id).tx = s.tx := hrel.frame .tx (by decide)
    have hkeep : ∀ {f : Fld}, f.step = 0x400 → f.off = CLF_PEER.off ∨ f.off = CLF_LAT.off →
        rd (portUp (identNoted s n id) n id) (f.at n) = rd (identNoted s n id) (f.at n) := fun {f} hs ho => rd_of_regsBut hup.regs (by
      simp only [CLF_PEER, CLF_LAT] at ho
      simp [Fld.at, hs, CLF_PSTAT, CLF_PIRQ_STAT, CLF_TRAIN, RST_REPLACE_causes, CLF_TICK]
      omega)
    refine ⟨_, (exec_portTrainingStep n id s).trans (by rw [trainingStep_ident id hmay h5, hid]), ?_, ?_, hup.state, ?_, ?_, hup.up, hup.attempts, ?_, ?_, ?_,
      fun hre => ?_, fun hre => ?_⟩
    · exact ((hrel.widen (by decide)).trans (rel_portUp .refl (by decide)) : Rel [.tx, .counts, .regs, .clf] s _).frame
    · intro j hj
      rw [hup.counts j hj, hrel.frame .counts (by decide)]
    · rw [hkeep (f := CLF_PEER_port) rfl (by decide), hpeer]
    · rw [hkeep (f := CLF_LAT_ps) rfl (by decide), hlat]
    · rw [rdb_of_rd (hkeep (f := CLF_PEER_valid) rfl (by decide)), hvalid]
    · intro c hc hlt
      rw [hkeep (f := CLF_PEER_device) rfl (by decide), hdevice c hc hlt]
    · rw [hup.others, mdel_identNoted]
    · rw [hup.tx, hup.port, hp, htx, hrel.frame .lh (by decide)]
      simp [linkedSent, linked, hre, clearLink]
    · have hre' : (portOf (identNoted s n id) n).retrain = true := by rw [hp]; exact hre
      rw [hup.tx, hup.port, linkedSent, if_pos hre', linked_of_retrain hre', htx, hp]
      exact ⟨rfl, rfl, rfl, rfl, rfl⟩
  · intro s n q id hn hmay h5 hq h
    have hq' : q = pairOf n := hq
    subst hq'
    have hne : pairOf n ≠ n ∧ pairOf n < 12 := by unfold pairOf; split <;> omega
    have hid := identDone_miswired id hn h
    have hfail := portFailed_portFail (identNoted s n id) (st := 8) hn (by decide) (by decide)
    have hexec : exec (.portTrainingStep n id) s = .next (portFail (identNoted s n id) n 8) := by
      rw [exec_portTrainingStep, trainingStep_ident id hmay h5, hid]
    refine ⟨_, hexec, (rel_of_exec hexec).frame, hfail.state, hfail.miswired rfl, hfail.replay, hfail.waiting, ?_⟩
    rw [pState_other_of_failed hfail hne.2 hne.1, pState_identNoted]
  · intro s n a hn hp h1 h5 hover ha
    have hfails := trainingTimeout_fails hp h1 h5 hover
    obtain ⟨hattempts, hcause⟩ := noteAttempt_reads s n
    rw [attemptFails_eq, satAdd_eq_min, ← ha] at hfails
    rw [← ha] at hattempts
    have hrel : Rel [.regs] s (noteAttempt s n) := rel_wrs .refl (by decide)
    have hport : portOf (noteAttempt s n) n = portOf s n := portOf_wrs _ _ _
    rw [hport] at hfails
    by_cases hend : (portOf s n).retrain = true ∨ 8 ≤ a
    · rw [if_pos (by simpa using hend)] at hfails
      have hfail := portFailed_portFail (noteAttempt s n) (st := 7) hn (by decide) (by decide)
      have hexec : exec (.trainingTimeout n) s = .next (portFail (noteAttempt s n) n 7) := by rw [exec_trainingTimeout, hfails]; rfl
      have hkeep : ∀ {f : Fld}, f.step = 0x400 → f.off = 0x6001C → rd (portFail (noteAttempt s n) n 7) (f.at n) = rd (noteAttempt s n) (f.at n) :=
        fun {f} hs ho => rd_of_regsBut hfail.regs (by
          simp [failOffs, Fld.at, hs, ho, CLF_PSTAT, CLF_PIRQ_STAT, RST_IRQ_STAT, RST_REPLACE_causes, MGT_ALERT, CMD_IRQ_STAT, CLF_TICK, CLF_IRQ_STAT]
          omega)
      refine ⟨_, hexec, (rel_of_exec hexec).frame, (hkeep (f := CLF_TRAIN_attempts) rfl rfl).trans hattempts,
        (hkeep (f := CLF_TRAIN_cause) rfl rfl).trans hcause, by rw [if_pos hend]; exact hfail.state,
        fun _ => ⟨hfail.failed rfl, hfail.replay, hfail.waiting⟩, fun hr hlt => ?_⟩
      rcases hend with h | h
      · simp [hr] at h
      · omega
    · rw [if_neg (by simpa using hend)] at hfails
      have hexec : exec (.trainingTimeout n) s = .next (toState (noteAttempt s n) n 0) := by rw [exec_trainingTimeout, hfails]
      have hkeep : ∀ {f : Fld}, f.step = 0x400 → f.off = 0x6001C → rd (toState (noteAttempt s n) n 0) (f.at n) = rd (noteAttempt s n) (f.at n) :=
        fun hs ho => toState_rd _ n 0 hs (.inl (by rw [ho]; decide))
      have hframe : Frame [.regs, .clf] s (toState (noteAttempt s n) n 0) := (rel_toState (hrel.widen (by decide)) (by decide) : Rel [.regs, .clf] s _).frame
      refine ⟨_, hexec, (rel_of_exec hexec).frame, (hkeep (f := CLF_TRAIN_attempts) rfl rfl).trans hattempts,
        (hkeep (f := CLF_TRAIN_cause) rfl rfl).trans hcause, by rw [if_neg hend]; exact pState_toState _ n (by decide), fun h => absurd h hend,
        fun _ _ => ⟨hframe, ?_, ?_⟩⟩
      · rw [portOf_toState, hport]
      · rw [portOf_toState, hport]
  · intro s n h
    refine (exec_trainingTimeout n s).trans (congrArg Host.Outcome.next (trainingTimeout_waits ?_))
    rcases h with h | h | h | ⟨hs, ha⟩
    · exact .inl h
    · exact .inr (.inl h)
    · exact .inr (.inr (.inl h))
    · exact .inr (.inr (.inr fun ho => ho.elim (fun e => absurd e (by omega)) fun e => absurd e (by omega)))
  · intro s n hn hmay
    by_cases hdue : pState s n = 7 ∧ 100000 ≤ since s (portOf s n).since
    · obtain ⟨hframe, -, hstate, hport, -, -⟩ := startAttempt_steps s n
      refine ⟨startAttempt s n, congrArg Host.Outcome.next (if_pos ?_), ?_⟩
      · rw [Bool.and_eq_true, Bool.and_eq_true, decide_eq_true_iff, decide_eq_true_iff]
        exact ⟨⟨hmay, hdue.1⟩, hdue.2⟩
      · rw [if_pos hdue]
        exact ⟨hstate, hframe, hport⟩
    · refine ⟨s, congrArg Host.Outcome.next (if_neg ?_), by rw [if_neg hdue]⟩
      rw [Bool.and_eq_true, Bool.and_eq_true, decide_eq_true_iff, decide_eq_true_iff]
      exact fun h => hdue ⟨h.1.2, h.2⟩
  · intro s n ps hn
    by_cases hup : usable s n = true
    · refine ⟨wr s (CLF_LAT_ps.at n) (min 65535 (ps / 2)), congrArg Host.Outcome.next (if_pos hup), ?_⟩
      rw [if_pos hup]
      exact ⟨(rel_wr .refl fun _ h => h : Rel [.regs] s _).frame, regsBut_wr s (CLF_LAT_ps.at n) _,
        rd_wr_at_fits (f := CLF_LAT_ps) (by decide) s n (Nat.lt_of_le_of_lt (Nat.min_le_left _ _) (by decide))⟩
    · exact ⟨s, congrArg Host.Outcome.next (if_neg hup), by rw [if_neg hup]⟩

end Sys2Proof.Proofs
end

section
/-!
SUPPORT. A flit that comes in on a Cliff port: its codewords (R245, R269), and the idle flit that answers it (R247, R250).
-/
namespace Sys2Proof.Laws
open Sys2Proof Sys2Proof.Machine Sys2Proof.Safety

/-! ### Codewords (R245, R269) -/

/-- The corrected symbols of codewords, and the codewords that are beyond correction. -/
def cwFixed (l : List Nat) : List Nat := l.filter fun e => 0 < e && e ≤ cwCorrects
def cwLost (l : List Nat) : List Nat := l.filter fun e => cwCorrects < e

/-- Codewords without errors, or beyond correction, have no corrected symbols. -/
theorem cwFixed_none {k : Option Nat} (h : ∀ e ∈ k, e = 0 ∨ 6 < e) : cwFixed k.toList = [] := by
  refine List.filter_eq_nil_iff.2 fun e he => ?_
  have hcase := h e (by simpa using he)
  rw [Bool.and_eq_true, decide_eq_true_iff, decide_eq_true_iff]
  unfold cwCorrects
  omega

/-- A codeword within correction gives all its symbols. -/
theorem cwFixed_sum {k : Option Nat} (h : ∀ e ∈ k, e ≤ 6) : (cwFixed k.toList).sum = k.getD 0 := by
  cases k with
  | none => rfl
  | some e =>
    by_cases h0 : e = 0
    · subst h0; rfl
    · simp [cwFixed, cwCorrects, h e rfl, Nat.pos_of_ne_zero h0]

theorem cwLost_none {k : Option Nat} (h : ∀ e ∈ k, e ≤ 6) : cwLost k.toList = [] :=
  List.filter_eq_nil_iff.2 fun e he => by
    rw [decide_eq_true_iff]
    exact (h e (by simpa using he)).not_gt

/-- A flit has come in, and the codewords that it begins are counted. -/
def counted (s : State) (n : Nat) (l : List Nat) : State :=
  modPort (count (count (count (count s (0x1605 + 0x10 * n) 1) (0x1600 + 0x10 * n) (cwFixed l).length) (0x1601 + 0x10 * n) (cwLost l).length)
    (0x1602 + 0x10 * n) (cwFixed l).sum) n fun p => { p with symbols := p.symbols + (cwFixed l).sum }

/-- Codewords that do not take the window over its threshold are only counted. -/
theorem countCodewords_quiet {s : State} {n : Nat} {l : List Nat}
    (h : (cwFixed l).sum = 0 ∨ min 65535 (((portOf s n).symbols + (cwFixed l).sum) / 1000) ≤ rd s (CLF_THRESH_thresh.at n)) :
    countCodewords (count s (0x1605 + 0x10 * n) 1) n l = counted s n l := by
  have hquiet : (ceOver (counted s n l) n && (cwFixed l).sum ≠ 0) = false := by
    rw [← Bool.not_eq_true, Bool.and_eq_true, decide_eq_true_iff]
    rintro ⟨hover, hne⟩
    refine (h.resolve_left hne).not_gt ?_
    have hover' := of_decide_eq_true hover
    simpa [counted] using hover'
  show (if (ceOver (counted s n l) n && (cwFixed l).sum ≠ 0) = true then _ else counted s n l) = _
  rw [hquiet]
  rfl

theorem rel_counted (s : State) (n : Nat) (l : List Nat) : Rel [.counts, .clf] s (counted s n l) :=
  rel_modPort (rel_count (rel_count (rel_count (rel_count .refl (by decide)) (by decide)) (by decide)) (by decide)) (by decide)

@[simp] theorem portOf_counted_same (s : State) (n : Nat) (l : List Nat) :
    portOf (counted s n l) n = { portOf s n with symbols := (portOf s n).symbols + (cwFixed l).sum } := by
  simp [counted]

theorem portOf_counted_other (s : State) {n m : Nat} (l : List Nat) (h : m ≠ n) : portOf (counted s n l) m = portOf s m := by
  unfold counted
  rw [portOf_modPort_other _ h]
  simp

@[simp] theorem mdel_counted (s : State) (n : Nat) (l : List Nat) : mdel (counted s n l).clf.ports n = mdel s.clf.ports n := by
  unfold counted
  rw [mdel_modPort]
  simp

@[simp] theorem counted_regs (s : State) (n : Nat) (l : List Nat) : (counted s n l).regs = s.regs := (rel_counted s n l).frame .regs (by decide)
@[simp] theorem counted_variant (s : State) (n : Nat) (l : List Nat) : (counted s n l).variant = s.variant := (rel_counted s n l).variant
@[simp] theorem counted_tx (s : State) (n : Nat) (l : List Nat) : (counted s n l).tx = s.tx := (rel_counted s n l).frame .tx (by decide)
@[simp] theorem counted_usable (s : State) (n : Nat) (l : List Nat) (m : Nat) : usable (counted s n l) m = usable s m :=
  congrFun (usable_congr (counted_regs s n l) (counted_variant s n l)) m

theorem counts_count_add (s : State) (id k j : Nat) :
    mgetD (count s id k).counts j 0 = mgetD s.counts j 0 + if j = id then BitVec.ofNat 64 k else 0 := by
  rw [counts_count]
  split
  · next h => rw [h]
  · exact (BitVec.add_zero _).symm

/-- What a flit's arrival and codewords add to the counts. -/
theorem counts_counted (s : State) (n : Nat) (l : List Nat) (j : Nat) : mgetD (counted s n l).counts j 0 = mgetD s.counts j 0 +
    (if j = 0x1605 + 0x10 * n then 1 else 0) + (if j = 0x1600 + 0x10 * n then BitVec.ofNat 64 (cwFixed l).length else 0) +
      (if j = 0x1601 + 0x10 * n then BitVec.ofNat 64 (cwLost l).length else 0) +
      (if j = 0x1602 + 0x10 * n then BitVec.ofNat 64 (cwFixed l).sum else 0) := by
  unfold counted
  rw [modPort_counts, counts_count_add, counts_count_add, counts_count_add, counts_count_add]
  rfl

/-! ### FLIT_RECEIVE (R250) -/

/-- FLIT_RECEIVE's effect. -/
def flitReceive (port : Nat) (flit : Flit) (held begun : Option Nat) (s : State) : State :=
  if !usable s port || inReset s (8 + port) then s
  else
    let s := countCodewords (count s (0x1605 + 0x10 * port) 1) port begun.toList
    if (held.toList ++ begun.toList).any (fun e => cwCorrects < e) || !hcrcOk flit then idleFlit (modPort s port fun p => { p with nakking := true }) port
    else
      let s := if flit.ackV then takeAck s port flit.ack else s
      let s := takeCredit s port flit.crSel flit.crTotal
      let s := if flit.ackV && flit.nak then resendAll s port else s
      if flit.len = 0 then s
      else if flit.seq = (portOf s port).rxNext then idleFlit (acceptFlit s port flit) port
      else idleFlit (modPort s port fun p => { p with nakking := true }) port

theorem exec_flitReceive (n : Nat) (f : Flit) (c k : Option Nat) (s : State) : exec (.flitReceive n f c k) s = .next (flitReceive n f c k s) := rfl

theorem flitReceive_refused {n : Nat} {s : State} (h : usable s n = false) (f : Flit) (c k : Option Nat) : flitReceive n f c k s = s := by
  unfold flitReceive
  rw [if_pos (by simp [h])]

theorem idleFlit_eq (s : State) (n : Nat) : idleFlit s n = emitFlit s n ((portOf s n).rxNext % 10) blankFlit := rfl

section arrival
variable {s : State} {n : Nat} {f : Flit} {c k : Option Nat}

/-- A flit whose codewords or header are bad: it is answered and not taken. -/
theorem flitReceive_bad (hup : usable s n = true) (hreset : inReset s (8 + n) = false) (hquiet : (cwFixed k.toList).sum = 0)
    (hbad : (∃ e ∈ c, 6 < e) ∨ (∃ e ∈ k, 6 < e) ∨ f.hcrc ≠ flitCrc f) :
    flitReceive n f c k s = idleFlit (modPort (counted s n k.toList) n fun p => { p with nakking := true }) n := by
  have hany : ((c.toList ++ k.toList).any (fun e => cwCorrects < e) || !hcrcOk f) = true := by
    rw [Bool.or_eq_true, List.any_eq_true]
    rcases hbad with ⟨e, he, h6⟩ | ⟨e, he, h6⟩ | h
    · exact .inl ⟨e, by simp [Option.mem_def.1 he], decide_eq_true h6⟩
    · exact .inl ⟨e, by simp [Option.mem_def.1 he], decide_eq_true h6⟩
    · exact .inr (by simp [hcrcOk, h])
  unfold flitReceive
  rw [if_neg (by simp [hup, hreset]), countCodewords_quiet (.inl hquiet)]
  dsimp only
  rw [if_pos hany]

/-- A flit without an ack or a credit total, whose codewords and header are good: its sequence number decides. -/
theorem flitReceive_good (hup : usable s n = true) (hreset : inReset s (8 + n) = false)
    (hquiet : (cwFixed k.toList).sum = 0 ∨ min 65535 (((portOf s n).symbols + (cwFixed k.toList).sum) / 1000) ≤ rd s (CLF_THRESH_thresh.at n))
    (hc : ∀ e ∈ c, e ≤ 6) (hk : ∀ e ∈ k, e ≤ 6) (hcrc : f.hcrc = flitCrc f) (hack : f.ackV = false) (hsel : f.crSel = 15) (hlen : f.len ≠ 0) :
    flitReceive n f c k s =
      if f.seq = (portOf s n).rxNext then idleFlit (acceptFlit (counted s n k.toList) n f) n
      else idleFlit (modPort (counted s n k.toList) n fun p => { p with nakking := true }) n := by
  have hany : ¬ ((c.toList ++ k.toList).any (fun e => cwCorrects < e) || !hcrcOk f) = true := by
    rw [Bool.or_eq_true, List.any_eq_true]
    rintro (⟨e, he, h6⟩ | h)
    · have h6' : 6 < e := of_decide_eq_true h6
      rcases List.mem_append.1 he with he | he
      · exact absurd (hc e (by simpa using he)) (by omega)
      · exact absurd (hk e (by simpa using he)) (by omega)
    · simp [hcrcOk, hcrc] at h
  unfold flitReceive
  rw [if_neg (by simp [hup, hreset]), countCodewords_quiet hquiet]
  dsimp only
  rw [if_neg hany, hack, hsel]
  simp only [takeCredit, Bool.false_and, Bool.false_eq_true, if_false, ge_iff_le, Nat.reduceLeDiff, if_true, if_neg hlen, portOf_counted_same]

end arrival

/-! ### A flit that opens a packet (R252–R254, R259) -/

theorem mdel_of_none {α : Type} {m : NMap α} {i : Nat} (h : mget m i = none) : mdel m i = m := by
  induction m with
  | nil => rfl
  | cons d m ih =>
    obtain ⟨k, v⟩ := d
    rw [mget] at h
    split at h
    · cases h
    · next hk =>
      have := ih h
      simpa [mdel, hk] using this

theorem firstDim_congr {s t : State} (hr : t.regs = s.regs) (hv : t.variant = s.variant) (dst : Nat) : firstDim t dst = firstDim s dst := by
  have hsize : dimSize t = dimSize s := funext fun d => by simp only [dimSize, rd_congr hr hv]
  have hown : ownId t = ownId s := by simp only [ownId, rd_congr hr hv]
  unfold firstDim delta
  rw [hsize, hown]

theorem dirUp_congr {s t : State} (hr : t.regs = s.regs) (hv : t.variant = s.variant) (d : Nat) (plus : Bool) : dirUp t d plus = dirUp s d plus := by
  unfold dirUp dirPorts
  rw [usable_congr hr hv, hv]

theorem routePkt_congr {s t : State} (hr : t.regs = s.regs) (hv : t.variant = s.variant) (inDim dst cls : Nat) (detour : Bool) :
    routePkt t inDim dst cls detour = routePkt s inDim dst cls detour := by
  have hup : dirUp t = dirUp s := funext fun d => funext fun plus => dirUp_congr hr hv d plus
  have hsize : dimSize t = dimSize s := funext fun d => by simp only [dimSize, rd_congr hr hv]
  have hown : ownId t = ownId s := by simp only [ownId, rd_congr hr hv]
  unfold routePkt crosses sideDirs
  rw [firstDim_congr hr hv, hup, hsize, hown]

/-- The port has taken a flit that is in order. -/
def taken (s : State) (n : Nat) : State := modPort s n fun p => { p with rxNext := (p.rxNext + 1) % 4096, nakking := false }

/-- A packet's route is kept for its virtual channel. -/
def opened (s : State) (n : Nat) (f : Flit) (out : Option Nat) (cls : Nat) (det : Bool) : State :=
  modPort s n fun p => { p with partials := mset p.partials f.vc ⟨out, cls, det, 0⟩ }

/-- The route of a packet after its first flit: kept for the rest, if there is any. -/
def routed (s : State) (n : Nat) (f : Flit) (out : Option Nat) (cls : Nat) (det : Bool) : State :=
  modPort s n fun p => { p with partials := if f.last then mdel p.partials f.vc else mset p.partials f.vc ⟨out, cls, det, 1⟩ }

/-- A flit goes on by its packet's route: to another port's transmitter, or to this module. -/
def forward (s : State) (n : Nat) (f : Flit) (out : Option Nat) (cls : Nat) (det : Bool) : State :=
  match out with
  | none => freeBuffer (routed s n f none cls det) n (bufOf f.vc f.cls)
  | some q => enqueueOut (count (routed s n f (some q) cls det) 0x16C2 1) q [⟨n, some (bufOf f.vc f.cls), { f with cls := cls, detour := det }⟩]

/-- A first flit of a channel with no packet coming in goes where its route leads. -/
theorem acceptFlit_opens {s u : State} {n : Nat} {f : Flit} {out : Option Nat} {cls : Nat} {det : Bool} (hvc : f.vc < 3) (hfirst : f.first = true)
    (hnone : mget (portOf s n).partials f.vc = none) (hopen : openRoute (taken s n) n f = opened u n f out cls det) :
    acceptFlit s n f = forward u n f out cls det := by
  have habort : abortRoute (taken s n) n f.vc = taken s n := by
    unfold abortRoute
    rw [show (portOf (taken s n) n).partials = (portOf s n).partials by simp [taken], hnone]
  have hroute : mget (portOf (opened u n f out cls det) n).partials f.vc = some ⟨out, cls, det, 0⟩ := by simp [opened]
  have hnext : modPort (opened u n f out cls det) n (fun p => { p with
      partials := if f.last then mdel p.partials f.vc else mset p.partials f.vc ⟨out, cls, det, 1⟩ }) = routed u n f out cls det := by
    unfold opened routed
    rw [modPort_modPort]
    simp only [mdel_mset, mset_mset]
  unfold acceptFlit
  extract_lets buf v w
  have hv : v = taken s n := rfl
  have hw : w = opened u n f out cls det := by rw [show w = openRoute (abortRoute v n f.vc) n f from if_pos hfirst, hv, habort, hopen]
  rw [if_neg (by omega), hw, hroute]
  dsimp only
  rw [if_neg (by decide), hnext]
  cases out <;> rfl

section route
variable {s : State} {n : Nat} {f : Flit}

theorem openRoute_here (hhops : f.hops < 127) (h : routePkt s (n / 4) f.dst f.cls f.detour = .here) :
    openRoute s n f = opened s n f none f.cls f.detour := by
  unfold openRoute
  rw [if_neg (by omega), h]
  rfl

/-- A packet of 127 hops is dropped (R263). -/
theorem openRoute_spent (hhops : 127 ≤ f.hops) :
    openRoute s n f = opened (count (wrOr s CLF_IRQ_STAT_unreach 1) 0x16C1 1) n f none f.cls f.detour := by
  unfold openRoute
  rw [if_pos hhops]
  rfl

theorem openRoute_out {d q cls : Nat} {plus det : Bool} (hhops : f.hops < 127) (h : routePkt s (n / 4) f.dst f.cls f.detour = .out d plus det cls)
    (hq : dirUp s d plus = [q]) : openRoute s n f = opened s n f (some q) cls (f.detour || det) := by
  unfold openRoute
  rw [if_neg (by omega), h]
  have hpick : pickPort s d plus f.vc f.src f.dst = (s, q) := by unfold pickPort; rw [hq]
  simp only [hpick]
  rfl

end route

theorem freeBuffer_usable {s : State} {n : Nat} (h : usable s n = true) (buf : Nat) :
    freeBuffer s n buf = idleOn (modPort s n fun p => { p with freed := mset p.freed buf ((mgetD p.freed buf 0 + 1) % 4096) }) n buf := by
  unfold freeBuffer
  dsimp only
  rw [if_pos (by rw [modPort_usable, h])]

/-- A single flit leaves at once on a port that has nothing else to send, room in its replay buffer, and credit. -/
theorem enqueueOut_one {s : State} {q : Nat} {x : OutFlit} (hup : usable s q = true) (hwait : (portOf s q).waiting = [])
    (hroom : (portOf s q).replay.length < 512) (hnext : nextFlit { portOf s q with waiting := [x] } = some x) :
    enqueueOut s q [x] = sendFlit (modPort s q fun p => { p with waiting := p.waiting ++ [x] }) q x := by
  have hport : portOf (modPort s q fun p => { p with waiting := p.waiting ++ [x] }) q = { portOf s q with waiting := [x] } := by
    rw [portOf_modPort_same, hwait]
    rfl
  unfold enqueueOut pump
  rw [hport]
  show pumpPort 1 _ q = _
  unfold pumpPort
  dsimp only
  rw [hport, modPort_usable, hup, if_neg (by simpa using hroom), hnext]
  rfl

/-- A flit for this module: its place in the receive buffer is free again, and the peer learns of it. -/
theorem forward_here {s : State} {n : Nat} (h : usable s n = true) (f : Flit) (cls : Nat) (det : Bool) :
    forward s n f none cls det = emitFlit (modPort s n fun p => { p with
      partials := if f.last then mdel p.partials f.vc else mset p.partials f.vc ⟨none, cls, det, 1⟩
      freed := mset p.freed (bufOf f.vc f.cls) ((mgetD p.freed (bufOf f.vc f.cls) 0 + 1) % 4096) }) n (bufOf f.vc f.cls) blankFlit := by
  unfold forward
  dsimp only
  rw [freeBuffer_usable (by rw [routed, modPort_usable, h]), routed, modPort_modPort]
  rfl

/-- A port's record once it has sent a flit. -/
def sentPort (x : OutFlit) (p : Port) : Port :=
  { p with
    replay := p.replay ++ [⟨x.input, none, { x.flit with seq := p.txSeq, hops := x.flit.hops + 1 }⟩]
    txSeq := (p.txSeq + 1) % 4096
    sent := mset p.sent (bufOf x.flit.vc x.flit.cls) ((mgetD p.sent (bufOf x.flit.vc x.flit.cls) 0 + 1) % 4096)
    waiting := p.waiting.erase x, turn := mset p.turn x.flit.vc (x.input, !x.flit.last)
    wrr := if x.flit.vc = 1 then 0 else if x.flit.vc = 0 then min 3 (p.wrr + 1) else p.wrr }

/-- The flit itself leaves. -/
def flitSent (s : State) (q : Nat) (x : OutFlit) : State :=
  emitFlit (modPort s q (sentPort x)) q ((portOf s q).txSeq % 10) { x.flit with seq := (portOf s q).txSeq, hops := x.flit.hops + 1 }

theorem sendFlit_buffered {s : State} {q : Nat} {x : OutFlit} {k : Nat} (h : x.buf = some k) :
    sendFlit s q x = freeBuffer (flitSent s q x) x.input k := by
  unfold sendFlit
  rw [h]
  rfl

theorem sendFlit_local {s : State} {q : Nat} {x : OutFlit} (h : x.buf = none) : sendFlit s q x = flitSent s q x := by
  unfold sendFlit
  rw [h]
  rfl

@[simp] theorem flitSent_usable (s : State) (q : Nat) (x : OutFlit) (m : Nat) : usable (flitSent s q x) m = usable s m := by
  rw [flitSent, emitFlit_usable, modPort_usable]

@[simp] theorem portOf_flitSent (s : State) (q : Nat) (x : OutFlit) (m : Nat) :
    portOf (flitSent s q x) m = if m = q then sentPort x (portOf s q) else portOf s m := by
  rw [flitSent, portOf_emitFlit, portOf_modPort]

theorem sent_flitSent (s : State) (q : Nat) (x : OutFlit) {j : Nat} (hj : j ≠ 0x1604 + 0x10 * q) :
    mgetD (flitSent s q x).counts j 0 = mgetD s.counts j 0 := by
  rw [flitSent, sent_emitFlit, if_neg hj, modPort_counts]

end Sys2Proof.Laws
end

section
/-!
SUPPORT. Acknowledgements and resends (R250, R251), the control register of a Cliff port (R272, R276), and its cable (R576, R583).
-/
namespace Sys2Proof.Laws
open Sys2Proof Sys2Proof.Machine Sys2Proof.Safety

/-! ### Acknowledgements (R250) -/

/-- An ack in an idle flit: the flits that it covers leave the replay buffer. -/
theorem flitReceive_ack {s : State} {n : Nat} {f : Flit} (hup : usable s n = true) (hreset : inReset s (8 + n) = false) (hcrc : f.hcrc = flitCrc f)
    (hack : f.ackV = true) (hnak : f.nak = false) (hsel : f.crSel = 15) (hlen : f.len = 0) :
    flitReceive n f (some 0) none s = takeAck (counted s n []) n f.ack := by
  have hok : ¬ (((some 0).toList ++ ([] : List Nat)).any (fun e => cwCorrects < e) || !hcrcOk f) = true := by
    simp [cwCorrects, hcrcOk, hcrc]
  unfold flitReceive
  rw [if_neg (by simp [hup, hreset]), Option.toList_none, countCodewords_quiet (l := []) (.inl rfl)]
  dsimp only
  rw [if_neg hok, hack, hnak, hsel, if_pos hlen]
  rfl

/-- What is left of a replay buffer after an ack, and what an ack makes of the resends. -/
theorem takeAck_leaves {s : State} {n : Nat} (ack : Nat) (hwait : (portOf s n).waiting = []) :
    Rel [.clf] s (takeAck s n ack) ∧
      (portOf (takeAck s n ack) n).replay = (portOf s n).replay.filter (fun x => !acked ack x.flit) ∧
      (portOf (takeAck s n ack) n).txSeq = (portOf s n).txSeq ∧ (portOf (takeAck s n ack) n).rxNext = (portOf s n).rxNext ∧
      (portOf (takeAck s n ack) n).resends =
        if (portOf (takeAck s n ack) n).replay = (portOf s n).replay then (portOf s n).resends else 0 := by
  have hcase : takeAck s n ack = if (portOf s n).replay.any fun x => acked ack x.flit then
      modPort s n fun p => { dropSent p (acked ack) with resends := 0 } else s := by
    unfold takeAck
    rw [pump_of_none (by rw [portOf_modPort_same]; exact hwait)]
  rw [hcase]
  split
  · next hany =>
    obtain ⟨x, hx, hack⟩ := List.any_eq_true.1 hany
    have hreplay : (portOf s n).replay.filter (fun x => !acked ack x.flit) ≠ (portOf s n).replay := fun h => by
      have := List.filter_eq_self.1 h x hx
      simp [hack] at this
    refine ⟨rel_modPort .refl (by decide), ?_⟩
    rw [portOf_modPort_same]
    exact ⟨rfl, rfl, rfl, (if_neg hreplay).symm⟩
  · next hnone =>
    have hall : (portOf s n).replay.filter (fun x => !acked ack x.flit) = (portOf s n).replay := List.filter_eq_self.2 fun x hx => by
      by_contra h
      exact hnone (List.any_eq_true.2 ⟨x, hx, by simpa using h⟩)
    exact ⟨.refl, hall.symm, rfl, rfl, (if_pos rfl).symm⟩

/-! ### Resends and retrains (R250, R251) -/

/-- REPLAY_TIMER_EXPIRY's effect. -/
def replayTimer (port waitedNs : Nat) (s : State) : State :=
  if usable s port && waitedNs ≥ rd s (CLF_RETRY_timer.at port) then resendAll s port else s

theorem exec_replayTimerExpiry (n ns : Nat) (s : State) : exec (.replayTimerExpiry n ns) s = .next (replayTimer n ns s) := rfl

theorem resendAll_empty {s : State} {n : Nat} (h : (portOf s n).replay = []) : resendAll s n = s := by
  unfold resendAll
  dsimp only
  rw [if_pos (by rw [h]; rfl)]

/-- Within the limit, the flits of the replay buffer leave again. -/
theorem resendAll_resends {s : State} {n : Nat} (h : (portOf s n).replay ≠ []) (hlim : (portOf s n).resends < rd1 s (CLF_RETRY_limit.at n)) :
    resendAll s n =
      sendAgain (count (modPort s n fun p => { p with resends := p.resends + 1 }) (0x1603 + 0x10 * n) 1) n (portOf s n).replay := by
  unfold resendAll
  dsimp only
  rw [if_neg (by simpa using h), if_neg (by omega), resendFlits_eq, portOf_count, portOf_modPort_same]

/-- At the limit the port retrains. -/
theorem resendAll_retrains {s : State} {n : Nat} (h : (portOf s n).replay ≠ []) (hlim : rd1 s (CLF_RETRY_limit.at n) ≤ (portOf s n).resends) :
    resendAll s n = portRetrain s n := by
  unfold resendAll
  dsimp only
  rw [if_neg (by simpa using h), if_pos hlim]

/-- A retrain keeps the replay buffer. -/
structure Retrains (n : Nat) (s t : State) : Prop where
  frame : Frame [.regs, .counts, .clf] s t
  state : pState t n = 1
  port : portOf t n =
    { portOf s n with
      retrain := decide (pState s n = 6) || (portOf s n).retrain, nakking := false, resends := 0, since := s.lh.tick, attempt := s.lh.tick }
  others : mdel t.clf.ports n = mdel s.clf.ports n
  down : pState s n = 6 → rdb t (CLF_PIRQ_STAT_down.at n) = true
  counts : mgetD t.counts (0x1606 + 0x10 * n) 0 = mgetD s.counts (0x1606 + 0x10 * n) 0 + 1

/-- The port before its attempt begins: the retrain is counted, and an UP port has left UP. -/
def retraining (s : State) (n : Nat) : State :=
  modPort (if pState s n = 6 then wrOr (count s (0x1606 + 0x10 * n) 1) (CLF_PIRQ_STAT_down.at n) 1 else count s (0x1606 + 0x10 * n) 1) n fun p =>
    { p with retrain := decide (pState s n = 6) || p.retrain, nakking := false, resends := 0 }

theorem portRetrain_eq (s : State) (n : Nat) : portRetrain s n = startAttempt (retraining s n) n := by
  unfold portRetrain retraining
  extract_lets up u v
  have hv : v = if pState s n = 6 then wrOr u (CLF_PIRQ_STAT_down.at n) 1 else u := by
    by_cases h : pState s n = 6
    · rw [if_pos h]; exact if_pos h
    · rw [if_neg h]; exact if_neg h
  rw [hv]
  rfl

theorem retrains_portRetrain (s : State) (n : Nat) : Retrains n s (portRetrain s n) := by
  have hrel : Rel [.regs, .counts, .clf] s (retraining s n) := by
    unfold retraining
    split
    · exact rel_modPort (rel_wrOr (rel_count .refl (by decide)) (by decide)) (by decide)
    · exact rel_modPort (rel_count .refl (by decide)) (by decide)
  have hport : portOf (retraining s n) n =
      { portOf s n with retrain := decide (pState s n = 6) || (portOf s n).retrain, nakking := false, resends := 0 } := by
    unfold retraining
    split <;> simp
  have hothers : mdel (retraining s n).clf.ports n = mdel s.clf.ports n := by
    unfold retraining
    split <;> simp
  have hcount : mgetD (retraining s n).counts (0x1606 + 0x10 * n) 0 = mgetD s.counts (0x1606 + 0x10 * n) 0 + 1 := by
    have hone : mgetD (count s (0x1606 + 0x10 * n) 1).counts (0x1606 + 0x10 * n) 0 = mgetD s.counts (0x1606 + 0x10 * n) 0 + 1 := by
      rw [counts_count, if_pos rfl]; rfl
    unfold retraining
    rw [modPort_counts]
    split
    · rw [wrOr_counts, hone]
    · exact hone
  have hdown : pState s n = 6 → rdb (retraining s n) (CLF_PIRQ_STAT_down.at n) = true := fun h => by
    unfold retraining
    rw [if_pos h]
    exact (rdb_of_rd (modPort_rd _ n _ (CLF_PIRQ_STAT_down.at n))).trans (rdb_wrOr_at_one (f := CLF_PIRQ_STAT_down) (by decide) rfl _ n)
  obtain ⟨hframe, hregs, hstate, hstart, hdel, -⟩ := startAttempt_steps (retraining s n) n
  rw [portRetrain_eq]
  exact
    { frame := (hrel.trans (rel_startAttempt .refl (by decide))).frame
      state := hstate
      port := by rw [hstart, hport, hrel.frame .lh (by decide)]
      others := hdel.trans hothers
      down := fun h => by
        rw [rdb_of_rd (rd_of_regsBut hregs (f := CLF_PIRQ_STAT_down.at n) ?_)]
        · exact hdown h
        · simp [Fld.at, CLF_PSTAT, CLF_PIRQ_STAT_down]
      counts := by
        rw [hframe .counts (by decide)]
        exact hcount }

/-! ### The control register (R272, R276) -/

theorem regSpec_CLF_PCTL {v : Variant} {n : Nat} (h : portPresent v n = true) : regSpec v (CLF_PCTL.at n).off =
    some ⟨0x004, 1, 4, [⟨0, 0, .rw, 1, anyReq⟩, ⟨1, 1, .wo, 0, anyReq⟩, ⟨2, 2, .rw, 0, anyReq⟩]⟩ := by
  have hall : ∀ v : Variant, ∀ n < 12, portPresent v n = true → regSpec v (CLF_PCTL.at n).off =
      some ⟨0x004, 1, 4, [⟨0, 0, .rw, 1, anyReq⟩, ⟨1, 1, .wo, 0, anyReq⟩, ⟨2, 2, .rw, 0, anyReq⟩]⟩ := by
    intro v
    cases v <;> decide
  exact hall v n (portPresent_lt h) h

theorem pctl_plain {n : Nat} (hn : n < 12) : isLockReg (CLF_PCTL.at n).off = false ∧ (CLF_PCTL.at n).off ≠ SWL_ALARM_EN.off := by
  revert n
  decide

/-- CLF_PCTLn once a plain write is stored. -/
def pctlWritten (s : State) (n : Nat) (w : CrsWrite) : State := storeWrite s (CLF_PCTL.at n).off w

theorem pctlWritten_enable {s : State} {n : Nat} (hp : portPresent s.variant n = true) {w : CrsWrite} (hw : w.al = .plain) (hq : w.req < 10) :
    rdb (pctlWritten s n w) (CLF_PCTL_enable.at n) = bit w.value.toNat 0 := by
  obtain ⟨hl, ha⟩ := pctl_plain (portPresent_lt hp)
  have h : rd (pctlWritten s n w) (CLF_PCTL_enable.at n) = bits w.value.toNat 0 0 :=
    rd_storeWrite_plain (f := CLF_PCTL_enable.at n) (regSpec_CLF_PCTL hp) (reset := 1) (List.mem_cons_self ..) hl ha hw hq
  unfold rdb
  rw [h]
  rw [Bool.eq_iff_iff, decide_eq_true_iff]
  exact one_bit_ne_zero

theorem pctl_retrain {s : State} {n : Nat} (hp : portPresent s.variant n = true) {w : CrsWrite} (hw : w.al = .plain) (hq : w.req < 10) :
    woBits s (CLF_PCTL_retrain.at n) w = bits w.value.toNat 1 1 :=
  woBits_accepted (f := CLF_PCTL_retrain.at n) (regSpec_CLF_PCTL hp) (by simp [CLF_PCTL_retrain, Fld.at]) (.inl hw) hq

theorem regsBut_pctlWritten (s : State) (n : Nat) (w : CrsWrite) : RegsBut [(CLF_PCTL.at n).off] s (pctlWritten s n w) :=
  regsBut_storeWrite s _ w

theorem rel_pctlWritten (s : State) (n : Nat) (w : CrsWrite) : Rel [.regs] s (pctlWritten s n w) := rel_storeWrite .refl (by decide)

theorem exec_portRetrainWrite (n : Nat) (w : CrsWrite) (s : State) : exec (.portRetrainWrite n w) s = .next (writePctl s n w) := rfl

theorem exec_portEnableClear (n : Nat) (w : CrsWrite) (s : State) : exec (.portEnableClear n w) s = .next (writePctl s n w) := rfl

theorem pState_pctlWritten (s : State) (n : Nat) (w : CrsWrite) (m : Nat) : pState (pctlWritten s n w) m = pState s m :=
  rd_of_regsBut (regsBut_pctlWritten s n w) (f := CLF_PSTAT_state.at m) (by simp [Fld.at, CLF_PSTAT_state, CLF_PCTL]; omega)

/-- A write that clears enable takes an enabled port down, and leaves one that is not enabled as it is (R276). -/
theorem writePctl_disables {s : State} {n : Nat} {w : CrsWrite} (hp : portPresent s.variant n = true) (hw : w.al = .plain) (hq : w.req < 10)
    (h0 : bit w.value.toNat 0 = false) :
    rdb (writePctl s n w) (CLF_PCTL_enable.at n) = false ∧
      (rdb s (CLF_PCTL_enable.at n) = true →
        pState (writePctl s n w) n = 0 ∧ (portOf (writePctl s n w) n).replay = [] ∧ (portOf (writePctl s n w) n).waiting = []) ∧
      (rdb s (CLF_PCTL_enable.at n) = false → Frame [.regs] s (writePctl s n w) ∧ pState (writePctl s n w) n = pState s n) := by
  have hen : rdb (pctlWritten s n w) (CLF_PCTL_enable.at n) = false := (pctlWritten_enable hp hw hq).trans h0
  have ht : writePctl s n w = if rdb s (CLF_PCTL_enable.at n) = false then pctlWritten s n w else portFail (pctlWritten s n w) n 0 := by
    unfold writePctl
    extract_lets u
    have hu : u = pctlWritten s n w := rfl
    rw [if_neg (by simp [hp]), hu, if_pos (by simp [hen])]
    simp only [Bool.not_eq_true']
  rw [ht]
  by_cases hon : rdb s (CLF_PCTL_enable.at n) = false
  · rw [if_pos hon]
    exact ⟨hen, fun h => by simp [hon] at h, fun _ => ⟨(rel_pctlWritten s n w).frame, pState_pctlWritten s n w n⟩⟩
  · rw [if_neg hon]
    have hfail := portFailed_portFail (pctlWritten s n w) (n := n) (st := 0) (portPresent_lt hp) (by decide) (by decide)
    have hkeep : rd (portFail (pctlWritten s n w) n 0) (CLF_PCTL_enable.at n) = rd (pctlWritten s n w) (CLF_PCTL_enable.at n) :=
      rd_of_regsBut hfail.regs (by
        simp [failOffs, Fld.at, CLF_PCTL_enable, CLF_PSTAT, CLF_PIRQ_STAT, RST_IRQ_STAT, RST_REPLACE_causes, MGT_ALERT, CMD_IRQ_STAT, CLF_TICK,
          CLF_IRQ_STAT]
        omega)
    exact ⟨(rdb_of_rd hkeep).trans hen, fun _ => ⟨hfail.state, hfail.replay, hfail.waiting⟩, fun h => absurd h hon⟩

/-- A write of retrain to a port that stays enabled begins an attempt (R272). -/
theorem writePctl_retrains {s : State} {n : Nat} {w : CrsWrite} (hmay : mayTrain s n = true) (hw : w.al = .plain) (hq : w.req < 10)
    (h0 : bit w.value.toNat 0 = true) (h1 : bit w.value.toNat 1 = true) : writePctl s n w = portRetrain (pctlWritten s n w) n := by
  have hp : portPresent s.variant n = true := by
    unfold mayTrain at hmay
    simp only [Bool.and_eq_true] at hmay
    exact hmay.1.1.1.1
  have hrel := rel_pctlWritten s n w
  have hen : rdb (pctlWritten s n w) (CLF_PCTL_enable.at n) = true := (pctlWritten_enable hp hw hq).trans h0
  have hbit : woBits (pctlWritten s n w) (CLF_PCTL_retrain.at n) w ≠ 0 := by
    rw [pctl_retrain (by rw [hrel.variant]; exact hp) hw hq]
    exact one_bit_ne_zero.2 h1
  have hmay' : mayTrain (pctlWritten s n w) n = true := by
    unfold mayTrain inReset at *
    rw [hrel.variant, hrel.frame .pwr (by decide), hrel.frame .rst (by decide), hen]
    simp only [Bool.and_eq_true] at hmay ⊢
    exact ⟨⟨⟨⟨hp, trivial⟩, hmay.1.1.2⟩, hmay.1.2⟩, hmay.2⟩
  unfold writePctl
  extract_lets u
  have hu : u = pctlWritten s n w := rfl
  rw [if_neg (by simp [hp]), hu, if_neg (by simp [hen]), if_pos (by simp [hbit, hmay'])]

/-! ### A port that is taken down (R267, R523, R524) -/

/-- PORT_DOWN's effect. -/
def portDown (port state : Nat) (s : State) : State :=
  if portPresent s.variant port && pState s port = stUP && (state = 0 || state = stFAILED || state = stMISWIRED) then portFail s port state else s

theorem exec_portDown (n st : Nat) (s : State) : exec (.portDown n st) s = .next (portDown n st s) := rfl

/-- The entry of a port that leaves UP, while its domain is neither in reset nor in its recovery window and the log has room. -/
theorem logPortFail_entry {s : State} {n : Nat} (st : Nat) (hup : pState s n = 6) (hrec : recovering s (8 + n) = false) (hroom : s.rst.log.length < 64) :
    (logPortFail s n st).rst.log = s.rst.log ++ [⟨s.rst.logSeq, s.lh.tick, 8 + n, 9, genOf s (8 + n), false, 0, BitVec.ofNat 64 n, 0xFF⟩] := by
  unfold logPortFail logError logRaw
  rw [if_pos (by simp [hup, stUP]), if_neg (by simp [hrec]), if_pos hroom, hrec]

theorem portDown_fails {s : State} {n st : Nat} (hp : portPresent s.variant n = true) (h6 : pState s n = 6) (hst : st = 0 ∨ st = 7 ∨ st = 8) :
    portDown n st s = portFail s n st := by
  unfold portDown
  refine if_pos ?_
  simp only [Bool.and_eq_true, Bool.or_eq_true, decide_eq_true_eq]
  exact ⟨⟨hp, h6⟩, or_assoc.2 hst⟩

theorem portDown_refused {s : State} {n st : Nat} (h : ¬ (portPresent s.variant n = true ∧ pState s n = 6 ∧ (st = 0 ∨ st = 7 ∨ st = 8))) :
    portDown n st s = s := by
  unfold portDown
  refine if_neg fun hc => h ?_
  simp only [Bool.and_eq_true, Bool.or_eq_true, decide_eq_true_eq] at hc
  obtain ⟨⟨hp, h6⟩, hst⟩ := hc
  exact ⟨hp, h6, or_assoc.1 hst⟩

/-! ### The cable (R576, R583) -/

/-- CABLE_REMOVED's effect. -/
def cableRemoved (port : Nat) (s : State) : State :=
  if !portPresent s.variant port then s
  else
    let s := modPort s port fun p => { p with seated := false, supply := false }
    if pState s port = 0 then s else portFail s port 0

theorem exec_cableRemoved (n : Nat) (s : State) : exec (.cableRemoved n) s = .next (cableRemoved n s) := rfl

/-- CABLE_SEATED's effect. -/
def cableSeated (port : Nat) (s : State) : State :=
  if !portPresent s.variant port then s
  else
    let s := modPort s port fun p => { p with seated := true, supply := true }
    if mayTrain s port && pState s port = stMISWIRED then startAttempt s port else s

theorem exec_cableSeated (n : Nat) (s : State) : exec (.cableSeated n) s = .next (cableSeated n s) := rfl

@[simp] theorem modPort_mayTrain (s : State) (n : Nat) (f : Port → Port) (m : Nat) : mayTrain (modPort s n f) m = mayTrain s m := by
  unfold mayTrain rdb inReset
  rw [modPort_rd, modPort_variant, modPort_pwr, modPort_rst]

/-- A port whose cable is out has no supply, and is DOWN with its buffers cleared (R583). -/
theorem cableRemoved_ends {s : State} {n : Nat} (hn : n < 12) (hp : portPresent s.variant n = true) :
    pState (cableRemoved n s) n = 0 ∧ (portOf (cableRemoved n s) n).seated = false ∧ (portOf (cableRemoved n s) n).supply = false ∧
      (pState s n ≠ 0 → (portOf (cableRemoved n s) n).replay = []) := by
  have ht : cableRemoved n s = if pState s n = 0 then modPort s n fun p => { p with seated := false, supply := false }
      else portFail (modPort s n fun p => { p with seated := false, supply := false }) n 0 := by
    unfold cableRemoved
    rw [if_neg (by simp [hp])]
    dsimp only
    rw [modPort_pState]
  rw [ht]
  by_cases h0 : pState s n = 0
  · rw [if_pos h0]
    exact ⟨by rw [modPort_pState, h0], by rw [portOf_modPort_same], by rw [portOf_modPort_same], fun h => absurd h0 h⟩
  · rw [if_neg h0]
    have hfail := portFailed_portFail (modPort s n fun p => { p with seated := false, supply := false }) (n := n) (st := 0) hn (by decide) (by decide)
    obtain ⟨hseat, hsupply⟩ := hfail.cable
    rw [portOf_modPort_same] at hseat hsupply
    exact ⟨hfail.state, hseat, hsupply, fun _ => hfail.replay⟩

/-- A port whose cable is in is supplied, and a MISWIRED one tries again (R249, R576). -/
theorem cableSeated_supplies {s : State} {n : Nat} (hp : portPresent s.variant n = true) :
    (portOf (cableSeated n s) n).seated = true ∧ (portOf (cableSeated n s) n).supply = true ∧ Frame [.regs, .clf] s (cableSeated n s) ∧
      pState (cableSeated n s) n = if pState s n = 8 ∧ mayTrain s n = true then 1 else pState s n := by
  have ht : cableSeated n s =
      if mayTrain s n && pState s n = stMISWIRED then startAttempt (modPort s n fun p => { p with seated := true, supply := true }) n
      else modPort s n fun p => { p with seated := true, supply := true } := by
    unfold cableSeated
    rw [if_neg (by simp [hp])]
    dsimp only
    rw [modPort_mayTrain, modPort_pState]
  have hput : Rel [.regs, .clf] s (modPort s n fun p => { p with seated := true, supply := true }) := rel_modPort .refl (by decide)
  have hretry : (mayTrain s n && decide (pState s n = stMISWIRED)) = true ↔ pState s n = 8 ∧ mayTrain s n = true := by
    rw [Bool.and_eq_true, decide_eq_true_iff, and_comm]
    rfl
  rw [ht]
  by_cases h : pState s n = 8 ∧ mayTrain s n = true
  · obtain ⟨hframe, -, hstate, hport, -, -⟩ := startAttempt_steps (modPort s n fun p => { p with seated := true, supply := true }) n
    rw [portOf_modPort_same] at hport
    rw [if_pos (hretry.2 h), if_pos h, hport]
    exact ⟨rfl, rfl, (hput.trans (rel_startAttempt .refl (by decide))).frame, hstate⟩
  · rw [if_neg (fun e => h (hretry.1 e)), if_neg h, portOf_modPort_same]
    exact ⟨rfl, rfl, hput.frame, modPort_pState s n _ n⟩

end Sys2Proof.Laws
end

section
/-!
PROOFS. The traffic of a Cliff port (R247–R252, R267, R272, R276, R524, R576, R583).
-/
namespace Sys2Proof.Proofs
open Sys2Proof Sys2Proof.Machine Sys2Proof.Safety Sys2Proof.Laws

/-- A flit that is not taken: the port asks for it again, and keeps what it has. -/
theorem refusal {s t : State} {n : Nat} {l : List Nat} (ht : t = idleFlit (modPort (counted s n l) n fun p => { p with nakking := true }) n)
    (hsum : (cwFixed l).sum = 0) (hnone : cwFixed l = []) :
    Frame [.tx, .counts, .clf] s t ∧ portOf t n = { portOf s n with nakking := true } ∧ mdel t.clf.ports n = mdel s.clf.ports n ∧
      t.tx.tail = s.tx ∧
      (∃ g, t.tx.head? = some (.flit n g) ∧ g.nak = true ∧ g.len = 0 ∧ g.ackV = true ∧ g.ack = ((portOf s n).rxNext + 4095) % 4096 ∧ hcrcOk g = true) ∧
      CountsBut [0x1601 + 0x10 * n, 0x1604 + 0x10 * n, 0x1605 + 0x10 * n] s t ∧
      mgetD t.counts (0x1605 + 0x10 * n) 0 = mgetD s.counts (0x1605 + 0x10 * n) 0 + 1 := by
  rw [idleFlit_eq] at ht
  subst ht
  refine ⟨?_, ?_, ?_, ?_, ?_, ?_, ?_⟩
  · exact (((rel_counted s n l).widen (by decide)).trans (rel_emitFlit (rel_modPort .refl (by decide)) (by decide)) : Rel [.tx, .counts, .clf] s _).frame
  · simp [hsum]
  · rw [emitFlit_clf, mdel_modPort, mdel_counted]
  · rw [emitFlit_tx]
    simp
  · rw [emitFlit_tx]
    refine ⟨_, rfl, ?_⟩
    simp [sealFlit, withAck, blankFlit, hcrcOk, flitCrc, flitHead]
  · intro j hj
    simp only [List.mem_cons, List.not_mem_nil, or_false, not_or] at hj
    rw [sent_emitFlit, if_neg hj.2.1, modPort_counts, counts_counted, if_neg hj.2.2, if_neg hj.1, hsum, hnone]
    simp
  · rw [sent_emitFlit, if_neg (by omega), modPort_counts, counts_counted, hnone]
    simp

/-- A flit for this module, or one that is dropped: its place is free again, and it is acknowledged. -/
theorem answered_here {u t : State} {n : Nat} {f : Flit} {cls : Nat} {det : Bool} (hup : usable u n = true)
    (ht : t = idleFlit (forward u n f none cls det) n) :
    portOf t n = { portOf u n with
      partials := if f.last then mdel (portOf u n).partials f.vc else mset (portOf u n).partials f.vc ⟨none, cls, det, 1⟩
      freed := mset (portOf u n).freed (bufOf f.vc f.cls) ((mgetD (portOf u n).freed (bufOf f.vc f.cls) 0 + 1) % 4096) } ∧
      mdel t.clf.ports n = mdel u.clf.ports n ∧ t.regs = u.regs ∧ t.variant = u.variant ∧ t.tx.drop 2 = u.tx ∧
      (∃ g, t.tx.head? = some (.flit n g) ∧ g.nak = (portOf u n).nakking ∧ g.len = 0 ∧ g.ack = ((portOf u n).rxNext + 4095) % 4096 ∧ hcrcOk g = true) ∧
      (∀ j, j ≠ 0x1604 + 0x10 * n → mgetD t.counts j 0 = mgetD u.counts j 0) ∧ Rel [.tx, .counts, .clf] u t := by
  have hrel : Rel [.tx, .counts, .clf] u t := by
    rw [ht, idleFlit_eq, forward_here hup]
    exact rel_emitFlit (rel_emitFlit (rel_modPort .refl (by decide)) (by decide)) (by decide)
  rw [idleFlit_eq, forward_here hup] at ht
  subst ht
  refine ⟨?_, ?_, ?_, ?_, ?_, ?_, ?_, hrel⟩
  · simp only [portOf_emitFlit, portOf_modPort_same]
  · rw [emitFlit_clf, emitFlit_clf, mdel_modPort]
  · simp
  · simp
  · rw [emitFlit_tx, emitFlit_tx]
    simp
  · rw [emitFlit_tx]
    refine ⟨_, rfl, ?_⟩
    simp [sealFlit, withAck, blankFlit, hcrcOk, flitCrc, flitHead]
  · intro j hj
    rw [sent_emitFlit, if_neg hj, sent_emitFlit, if_neg hj, modPort_counts]

/-- A flit in transit: it leaves on its output at once, and then its place is free and it is acknowledged. -/
theorem answered_transit {u t : State} {n q : Nat} {f : Flit} {cls : Nat} {det : Bool} {x : OutFlit} (hup : usable u n = true) (hq : usable u q = true)
    (hne : q ≠ n) (hx : x = ⟨n, some (bufOf f.vc f.cls), { f with cls := cls, detour := det }⟩)
    (hnext : nextFlit { portOf u q with waiting := [x] } = some x) (hwait : (portOf u q).waiting = []) (hroom : (portOf u q).replay.length < 512)
    (ht : t = idleFlit (forward u n f (some q) cls det) n) :
    Rel [.tx, .counts, .clf] u t ∧ (portOf t q).waiting = [] ∧
      (portOf t q).replay = (portOf u q).replay ++ [⟨n, none, { x.flit with seq := (portOf u q).txSeq, hops := f.hops + 1 }⟩] ∧
      (portOf t q).txSeq = ((portOf u q).txSeq + 1) % 4096 ∧
      mget (portOf t n).freed (bufOf f.vc f.cls) = some ((mgetD (portOf u n).freed (bufOf f.vc f.cls) 0 + 1) % 4096) ∧
      (∀ j, j ≠ 0x1604 + 0x10 * n → j ≠ 0x1604 + 0x10 * q → mgetD t.counts j 0 = mgetD u.counts j 0 + if j = 0x16C2 then 1 else 0) ∧
      ∃ g, Tx.flit q g ∈ t.tx ∧ g.hops = f.hops + 1 ∧ g.dst = f.dst ∧ g.src = f.src ∧ g.cls = cls ∧ g.payload = f.payload ∧ hcrcOk g = true := by
  have hout : forward u n f (some q) cls det = enqueueOut (count (routed u n f (some q) cls det) 0x16C2 1) q [x] := by rw [hx]; rfl
  have hport : portOf (count (routed u n f (some q) cls det) 0x16C2 1) q = portOf u q := by
    rw [portOf_count, routed, portOf_modPort_other _ hne]
  have hupv : usable (count (routed u n f (some q) cls det) 0x16C2 1) = usable u := usable_congr (by simp [routed]) (by simp [routed])
  rw [hout, enqueueOut_one (by rw [hupv, hq]) (by rw [hport, hwait]) (by rw [hport]; exact hroom) (by rw [hport]; exact hnext),
    sendFlit_buffered (by rw [hx]), show x.input = n by rw [hx]] at ht
  have hrel : Rel [.tx, .counts, .clf] u (count (routed u n f (some q) cls det) 0x16C2 1) :=
    rel_count (rel_modPort .refl (by decide)) (by decide)
  have hown : (portOf (count (routed u n f (some q) cls det) 0x16C2 1) n).freed = (portOf u n).freed := by
    rw [portOf_count, routed, portOf_modPort_same]
  have hcount : ∀ j, mgetD (count (routed u n f (some q) cls det) 0x16C2 1).counts j 0 = mgetD u.counts j 0 + if j = 0x16C2 then 1 else 0 :=
    fun j => by rw [counts_count_add, routed, modPort_counts]; rfl
  generalize count (routed u n f (some q) cls det) 0x16C2 1 = v at *
  rw [freeBuffer_usable (by rw [flitSent_usable, modPort_usable, hupv, hup]), idleFlit_eq, idleOn_eq] at ht
  have hflit : Tx.flit q (sealFlit (withAck (sentPort x (portOf (modPort v q fun p => { p with waiting := p.waiting ++ [x] }) q))
      ((portOf (modPort v q fun p => { p with waiting := p.waiting ++ [x] }) q).txSeq % 10)
      { x.flit with
        seq := (portOf (modPort v q fun p => { p with waiting := p.waiting ++ [x] }) q).txSeq, hops := x.flit.hops + 1 })) ∈ t.tx := by
    rw [ht, emitFlit_tx, emitFlit_tx, modPort_tx, flitSent, emitFlit_tx, portOf_modPort_same _ q (sentPort x)]
    exact List.mem_cons_of_mem _ (List.mem_cons_of_mem _ (List.mem_cons_self ..))
  have hportq : portOf t q = sentPort x { portOf u q with waiting := [x] } := by
    rw [ht, portOf_emitFlit, portOf_emitFlit, portOf_modPort_other _ hne, portOf_flitSent, if_pos rfl, portOf_modPort_same, hport, hwait]
    rfl
  refine ⟨?_, ?_, ?_, ?_, ?_, ?_, ⟨_, hflit, ?_⟩⟩
  · rw [ht]
    have hsent : Rel [.tx, .counts, .clf] v (flitSent (modPort v q fun p => { p with waiting := p.waiting ++ [x] }) q x) :=
      rel_emitFlit (rel_modPort (rel_modPort .refl (by decide)) (by decide)) (by decide)
    exact rel_emitFlit (rel_emitFlit (rel_modPort (hrel.trans hsent) (by decide)) (by decide)) (by decide)
  · rw [hportq]
    simp [sentPort]
  · rw [hportq, hx]
    rfl
  · rw [hportq]
    rfl
  · rw [ht, portOf_emitFlit, portOf_emitFlit, portOf_modPort_same, portOf_flitSent, if_neg (Ne.symm hne), portOf_modPort_other _ (Ne.symm hne)]
    simp [hown]
  · intro j hj hjq
    rw [ht, sent_emitFlit, if_neg hj, sent_emitFlit, if_neg hj, modPort_counts, sent_flitSent _ _ _ hjq, modPort_counts, hcount]
  · rw [hx]
    simp [sealFlit, withAck, hcrcOk, flitCrc, flitHead]

/-- A flit that is not taken, for bad codewords, a bad header or its place in the sequence. -/
theorem flitReceive_refuses {s : State} {n : Nat} {f : Flit} {c k : Option Nat} (hup : usable s n = true) (hreset : inReset s (8 + n) = false)
    (hk : ∀ e ∈ k, e = 0 ∨ 6 < e)
    (hbad : (∃ e ∈ c, 6 < e) ∨ (∃ e ∈ k, 6 < e) ∨ f.hcrc ≠ flitCrc f ∨
      (f.ackV = false ∧ f.crSel = 15 ∧ f.len ≠ 0 ∧ f.seq ≠ (portOf s n).rxNext)) :
    flitReceive n f c k s = idleFlit (modPort (counted s n k.toList) n fun p => { p with nakking := true }) n := by
  have hsum : (cwFixed k.toList).sum = 0 := by rw [cwFixed_none hk]; rfl
  by_cases hb : (∃ e ∈ c, 6 < e) ∨ (∃ e ∈ k, 6 < e) ∨ f.hcrc ≠ flitCrc f
  · exact flitReceive_bad hup hreset hsum hb
  · simp only [not_or, not_exists, not_and, not_lt, not_not] at hb
    obtain ⟨hc, hk6, hcrc⟩ := hb
    rcases hbad with ⟨e, he, h6⟩ | ⟨e, he, h6⟩ | h | ⟨hack, hsel, hlen, hseq⟩
    · exact absurd (hc e he) (by omega)
    · exact absurd (hk6 e he) (by omega)
    · exact absurd hcrc h
    · rw [flitReceive_good hup hreset (.inl hsum) hc hk6 hcrc hack hsel hlen, if_neg hseq]

section inOrder
variable {s : State} {n : Nat} {f : Flit} {c k : Option Nat} (hn : n < 12) (hup : usable s n = true) (hreset : inReset s (8 + n) = false)
  (hcrc : f.hcrc = flitCrc f) (hack : f.ackV = false) (hsel : f.crSel = 15) (hlen : f.len ≠ 0) (hseq : f.seq = (portOf s n).rxNext)
  (hc : ∀ e ∈ c, e ≤ 6) (hk : ∀ e ∈ k, e ≤ 6)
  (hthresh : min 65535 (((portOf s n).symbols + k.getD 0) / 1000) ≤ rd s (CLF_THRESH_thresh.at n)) (hvc : f.vc < 3) (hfirst : f.first = true)
  (hnone : mget (portOf s n).partials f.vc = none)

include hup hreset hcrc hack hsel hlen hseq hc hk hthresh in
/-- A good flit in order is taken, and answered. -/
theorem flitReceive_takes : flitReceive n f c k s = idleFlit (acceptFlit (counted s n k.toList) n f) n := by
  rw [flitReceive_good hup hreset (.inr (by rw [cwFixed_sum hk]; exact hthresh)) hc hk hcrc hack hsel hlen, if_pos hseq]

include hn hup hreset hcrc hack hsel hlen hseq hc hk hthresh hvc hfirst hnone

omit hn in
/-- A packet of one flit for this module: the expected number and the credit move by one. -/
theorem flitReceive_here (hlast : f.last = true) (hhops : f.hops < 127) (hroute : routePkt s (n / 4) f.dst f.cls f.detour = .here) :
    let t := flitReceive n f c k s
    let p := portOf s n
    let b := bufOf f.vc f.cls
    Frame [.tx, .counts, .clf] s t ∧
      portOf t n = { p with rxNext := (p.rxNext + 1) % 4096, nakking := false, freed := mset p.freed b ((mgetD p.freed b 0 + 1) % 4096), symbols := p.symbols + k.getD 0 } ∧
      (∃ g, t.tx.head? = some (.flit n g) ∧ g.nak = false ∧ g.len = 0 ∧ g.ack = ((p.rxNext + 1) % 4096 + 4095) % 4096 ∧ hcrcOk g = true) ∧
      t.tx.drop 2 = s.tx ∧ CountsBut [0x1600 + 0x10 * n, 0x1602 + 0x10 * n, 0x1604 + 0x10 * n, 0x1605 + 0x10 * n] s t ∧
      mgetD t.counts (0x1602 + 0x10 * n) 0 = mgetD s.counts (0x1602 + 0x10 * n) 0 + BitVec.ofNat 64 (k.getD 0) := by
  intro t p b
  have hsum := cwFixed_sum hk
  have hgood := flitReceive_takes hup hreset hcrc hack hsel hlen hseq hc hk hthresh
  have hopen : openRoute (taken (counted s n k.toList) n) n f = opened (taken (counted s n k.toList) n) n f none f.cls f.detour :=
    openRoute_here hhops (by rw [routePkt_congr (s := s) (by simp [taken]) (by simp [taken]), hroute])
  rw [acceptFlit_opens hvc hfirst (by rw [portOf_counted_same]; exact hnone) hopen] at hgood
  obtain ⟨hport, -, -, -, htx, ⟨g, hhead, hnak, hglen, hnum, hok⟩, hcounts, hrel⟩ :=
    answered_here (u := taken (counted s n k.toList) n) (by simp [taken, hup]) hgood
  have hall : Rel [.tx, .counts, .clf] s t :=
    Rel.trans ((rel_counted s n k.toList).widen (by decide)) (Rel.trans (rel_modPort .refl (by decide)) hrel)
  refine ⟨hall.frame, ?_, ⟨g, hhead, by rw [hnak]; simp [taken], hglen, by rw [hnum]; simp [taken, p], hok⟩, ?_, ?_, ?_⟩
  · rw [hport]
    simp [taken, hlast, mdel_of_none hnone, hsum, p, b]
  · rw [htx]
    simp [taken]
  · intro j hj
    simp only [List.mem_cons, List.not_mem_nil, or_false, not_or] at hj
    obtain ⟨h0, h2, h4, h5⟩ := hj
    rw [hcounts j h4, taken, modPort_counts, counts_counted, if_neg h0, if_neg h2, if_neg h5, cwLost_none hk]
    simp
  · rw [hcounts _ (by omega), taken, modPort_counts, counts_counted, if_pos rfl, hsum, cwLost_none hk]
    simp

/-- A packet that has spent its hops is dropped. -/
theorem flitReceive_spent (hhops : 127 ≤ f.hops) :
    let t := flitReceive n f c k s
    rdb t CLF_IRQ_STAT_unreach = true ∧ mgetD t.counts 0x16C1 0 = mgetD s.counts 0x16C1 0 + 1 ∧
      mdel t.clf.ports n = mdel s.clf.ports n ∧ (portOf t n).rxNext = ((portOf s n).rxNext + 1) % 4096 := by
  intro t
  have hgood := flitReceive_takes hup hreset hcrc hack hsel hlen hseq hc hk hthresh
  have hopen := openRoute_spent (s := taken (counted s n k.toList) n) (n := n) hhops
  rw [acceptFlit_opens hvc hfirst (by rw [portOf_counted_same]; exact hnone) hopen] at hgood
  have hregs : RegsBut [CLF_IRQ_STAT.off] (taken (counted s n k.toList) n)
      (count (wrOr (taken (counted s n k.toList) n) CLF_IRQ_STAT_unreach 1) 0x16C1 1) :=
    regsBut_trans (regsBut_wrOr _ CLF_IRQ_STAT_unreach 1) (regsBut_count _ _ _)
  have hupu : usable (count (wrOr (taken (counted s n k.toList) n) CLF_IRQ_STAT_unreach 1) 0x16C1 1) n = true := by
    rw [usable_of_regsBut hregs (by decide) (by simp) n]
    simp [taken, hup]
  obtain ⟨hport, hothers, hsame, hvar, -, -, hcounts, -⟩ := answered_here hupu hgood
  refine ⟨?_, ?_, ?_, ?_⟩
  · rw [rdb_of_rd (rd_congr hsame hvar CLF_IRQ_STAT_unreach), rdb_of_rd (count_rd _ _ _ _)]
    exact rdb_wrOr_one (by decide) rfl _
  · rw [hcounts _ (by omega), counts_count, if_pos rfl, wrOr_counts, taken, modPort_counts, counts_counted, if_neg (by omega), if_neg (by omega),
      if_neg (by omega), if_neg (by omega)]
    simp
  · rw [hothers]
    simp [taken]
  · rw [hport]
    simp [taken]

/-- A flit in transit leaves at once with one hop more, where its output has room and credit and nothing else to send. -/
theorem flitReceive_transit {d q cls : Nat} {plus det : Bool} {x : OutFlit} (hhops : f.hops < 127)
    (hroute : routePkt s (n / 4) f.dst f.cls f.detour = .out d plus det cls) (hdir : dirUp s d plus = [q]) (hne : q ≠ n)
    (hx : x = ⟨n, some (bufOf f.vc f.cls), { f with cls := cls, detour := f.detour || det }⟩)
    (hnext : nextFlit { portOf s q with waiting := [x] } = some x) (hwait : (portOf s q).waiting = []) (hroom : (portOf s q).replay.length < 512) :
    let t := flitReceive n f c k s
    Frame [.tx, .counts, .clf] s t ∧ (portOf t q).waiting = [] ∧
      (portOf t q).replay = (portOf s q).replay ++ [⟨n, none, { x.flit with seq := (portOf s q).txSeq, hops := f.hops + 1 }⟩] ∧
      (portOf t q).txSeq = ((portOf s q).txSeq + 1) % 4096 ∧
      mget (portOf t n).freed (bufOf f.vc f.cls) = some ((mgetD (portOf s n).freed (bufOf f.vc f.cls) 0 + 1) % 4096) ∧
      mgetD t.counts 0x16C2 0 = mgetD s.counts 0x16C2 0 + 1 ∧
      ∃ g, Tx.flit q g ∈ t.tx ∧ g.hops = f.hops + 1 ∧ g.dst = f.dst ∧ g.src = f.src ∧ g.cls = cls ∧ g.payload = f.payload ∧ hcrcOk g = true := by
  intro t
  have hgood := flitReceive_takes hup hreset hcrc hack hsel hlen hseq hc hk hthresh
  have hopen : openRoute (taken (counted s n k.toList) n) n f = opened (taken (counted s n k.toList) n) n f (some q) cls (f.detour || det) :=
    openRoute_out hhops (by rw [routePkt_congr (s := s) (by simp [taken]) (by simp [taken]), hroute])
      (by rw [dirUp_congr (s := s) (by simp [taken]) (by simp [taken]), hdir])
  rw [acceptFlit_opens hvc hfirst (by rw [portOf_counted_same]; exact hnone) hopen] at hgood
  have huq : usable s q = true := usable_of_mem_dirUp (d := d) (plus := plus) (by rw [hdir]; exact List.mem_cons_self ..)
  have hqlt := usable_lt huq
  have hportq : portOf (taken (counted s n k.toList) n) q = portOf s q := by rw [taken, portOf_modPort_other _ hne, portOf_counted_other s _ hne]
  obtain ⟨hrel, hempty, hreplay, hseqq, hfreed, hcounts, hsent⟩ :=
    answered_transit (u := taken (counted s n k.toList) n) (by simp [taken, hup]) (by simp [taken, huq]) hne hx (by rw [hportq]; exact hnext)
      (by rw [hportq]; exact hwait) (by rw [hportq]; exact hroom) hgood
  have hall : Rel [.tx, .counts, .clf] s t :=
    Rel.trans ((rel_counted s n k.toList).widen (by decide)) (Rel.trans (rel_modPort .refl (by decide)) hrel)
  refine ⟨hall.frame, hempty, by rw [hreplay, hportq], by rw [hseqq, hportq], ?_, ?_, hsent⟩
  · rw [hfreed]
    simp [taken]
  · rw [hcounts _ (by omega) (by omega), if_pos rfl, taken, modPort_counts, counts_counted, if_neg (by omega), if_neg (by omega), if_neg (by omega),
      if_neg (by omega)]
    simp

end inOrder

/-- The replay timer sends every flit of the replay buffer again, and at the limit the port retrains with them. -/
theorem replayTimer_due {s : State} {n ns : Nat} (hup : usable s n = true) (htimer : rd s (CLF_RETRY_timer.at n) ≤ ns) (hne : (portOf s n).replay ≠ []) :
    let t := replayTimer n ns s
    let p := portOf s n
    (portOf t n).replay = p.replay ∧ mdel t.clf.ports n = mdel s.clf.ports n ∧
      (p.resends < rd1 s (CLF_RETRY_limit.at n) →
        t.tx = (p.replay.map (resent n p)).reverse ++ s.tx ∧ t.regs = s.regs ∧ (portOf t n).resends = p.resends + 1 ∧
        mgetD t.counts (0x1603 + 0x10 * n) 0 = mgetD s.counts (0x1603 + 0x10 * n) 0 + 1 ∧
        mgetD t.counts (0x1604 + 0x10 * n) 0 = mgetD s.counts (0x1604 + 0x10 * n) 0 + BitVec.ofNat 64 p.replay.length) ∧
      (rd1 s (CLF_RETRY_limit.at n) ≤ p.resends →
        t.tx = s.tx ∧ pState t n = 1 ∧ (portOf t n).retrain = true ∧ (portOf t n).attempt = s.lh.tick ∧ rdb t (CLF_PIRQ_STAT_down.at n) = true) := by
  intro t p
  have hdue : t = resendAll s n := if_pos (by simpa [hup] using htimer)
  rw [hdue]
  rcases Nat.lt_or_ge p.resends (rd1 s (CLF_RETRY_limit.at n)) with hlim | hlim
  · rw [resendAll_resends hne hlim]
    have hport : portOf (count (modPort s n fun p => { p with resends := p.resends + 1 }) (0x1603 + 0x10 * n) 1) n =
        { p with resends := p.resends + 1 } := by rw [portOf_count, portOf_modPort_same]
    refine ⟨?_, ?_, fun _ => ⟨?_, ?_, ?_, ?_, ?_⟩, fun h => absurd hlim (by omega)⟩
    · rw [portOf_sendAgain, hport]
    · rw [sendAgain_clf, count_clf, mdel_modPort]
    · rw [sendAgain_tx, hport, count_tx, modPort_tx]
      rfl
    · rw [sendAgain_regs, count_regs, modPort_regs]
    · rw [portOf_sendAgain, hport]
    · rw [countsBut_sendAgain _ _ _ _ (by simp), counts_count, if_pos rfl, modPort_counts]
      rfl
    · rw [sendAgain_sent, counts_count, if_neg (by omega), modPort_counts]
  · have hretrain := retrains_portRetrain s n
    rw [resendAll_retrains hne hlim]
    have h6 : pState s n = 6 := (usable_iff.1 hup).2.1
    exact ⟨by rw [hretrain.port], hretrain.others, fun h => absurd hlim (by omega), fun _ =>
      ⟨hretrain.frame .tx (by decide), hretrain.state, by rw [hretrain.port]; simp [h6], by rw [hretrain.port], hretrain.down h6⟩⟩

/-- The replay timer of a port with nothing to acknowledge, or before its time. -/
theorem replayTimer_waits {s : State} {n ns : Nat} (h : (portOf s n).replay = [] ∨ ns < rd s (CLF_RETRY_timer.at n)) : replayTimer n ns s = s := by
  unfold replayTimer
  rcases h with h | h
  · rw [resendAll_empty h, ite_self]
  · exact if_neg (by simp; omega)

/-- Settles O51: every flit is answered by the acknowledgement that stands, and a port that fails or retrains leaves its buffers as R267 and R251 say. -/
theorem portTraffic : Obligations.PortTraffic := by
  unfold Obligations.PortTraffic
  refine ⟨?_, ?_, ?_, ?_, ?_, ?_, ?_, ?_, ?_, ?_, ?_, ?_⟩
  · intro s n ns f c k h
    exact ⟨by rw [exec_flitReceive, flitReceive_refused h], by rw [exec_replayTimerExpiry, replayTimer, if_neg (by simp [h])]⟩
  · intro s n f c k p _ hup hreset hp hk hbad
    subst hp
    have hnone := cwFixed_none hk
    obtain ⟨hframe, hport, hothers, htail, ⟨g, hhead, hnak, hlen, hack, hnum, hok⟩, hcounts, hone⟩ :=
      refusal (flitReceive_refuses hup hreset hk hbad) (by rw [hnone]; rfl) hnone
    exact ⟨_, exec_flitReceive n f c k s, hframe, hport, hothers, ⟨htail, by rw [hhead]; simp [hnak, hlen, hack, hnum, hok]⟩, hcounts, hone⟩
  · intro s n f c k p b hn hup hreset hp hcrc hack hsel hlen hseq hc hk hthresh hb hvc hfirst hnone
    subst hp hb
    refine ⟨fun hlast hhops hroute => ?_, fun hhops =>
      ⟨_, exec_flitReceive n f c k s, flitReceive_spent hn hup hreset hcrc hack hsel hlen hseq hc hk hthresh hvc hfirst hnone hhops⟩⟩
    obtain ⟨hframe, hport, ⟨g, hhead, hnak, hglen, hnum, hok⟩, hdrop, hcounts, hfixed⟩ :=
      flitReceive_here hup hreset hcrc hack hsel hlen hseq hc hk hthresh hvc hfirst hnone hlast hhops hroute
    exact ⟨_, exec_flitReceive n f c k s, hframe, hport, by rw [hhead]; simp [hnak, hglen, hnum, hok], hdrop, hcounts, hfixed⟩
  · intro s n f c k p b d q cls plus det x hn hup hreset hp hcrc hack hsel hlen hseq hc hk hthresh hb hvc hfirst hnone hhops hroute hdir hne hx hnext
      hwait hroom
    subst hp hb
    obtain ⟨hframe, hempty, hreplay, hseqq, hfreed, hcount, g, hg, hghops, hdst, hsrc, hcls, hpay, hok⟩ :=
      flitReceive_transit hn hup hreset hcrc hack hsel hlen hseq hc hk hthresh hvc hfirst hnone hhops hroute hdir hne hx hnext hwait hroom
    exact ⟨_, exec_flitReceive n f c k s, hframe, hempty, hreplay, hseqq, hfreed, hcount,
      List.any_eq_true.2 ⟨_, hg, by simp [hghops, hdst, hsrc, hcls, hpay, hok]⟩⟩
  · intro s n f p _ hup hreset hp hcrc hack hnak hsel hlen hwait
    subst hp
    have ht := flitReceive_ack hup hreset hcrc hack hnak hsel hlen
    have hport : portOf (counted s n []) n = portOf s n := by rw [portOf_counted_same]; rfl
    obtain ⟨hrel, hreplay, hseq, hnext, hresends⟩ := takeAck_leaves (s := counted s n []) (n := n) f.ack (by rw [hport]; exact hwait)
    rw [← ht, hport] at hreplay hseq hnext
    rw [← ht, hport] at hresends
    have hall : Rel [.counts, .clf] s (flitReceive n f (some 0) none s) := by
      rw [ht]
      exact (rel_counted s n []).trans (hrel.widen (by decide))
    exact ⟨_, exec_flitReceive n f (some 0) none s, hall.frame, hreplay, hseq, hnext, hresends⟩
  · intro s n ns p _ hup hp htimer hne
    subst hp
    have hexec := exec_replayTimerExpiry n ns s
    exact ⟨_, hexec, (rel_of_exec hexec).frame, replayTimer_due hup htimer hne⟩
  · intro s n ns h
    rw [exec_replayTimerExpiry, replayTimer_waits h]
  · intro s n st hn
    have hexec := exec_portDown n st s
    refine ⟨_, hexec, ?_⟩
    by_cases hdown : portPresent s.variant n = true ∧ pState s n = 6 ∧ (st = 0 ∨ st = 7 ∨ st = 8)
    · rw [if_pos hdown]
      obtain ⟨hp, h6, hst⟩ := hdown
      have hfail := portFailed_portFail s (n := n) (st := st) hn (by omega) (by omega)
      rw [← portDown_fails hp h6 hst] at hfail
      exact ⟨(rel_of_exec hexec).frame, hfail.state, hfail.down h6, hfail.replay, hfail.waiting, hfail.since, hfail.replaced,
        fun hrec hroom => by rw [hfail.log]; exact logPortFail_entry st h6 hrec hroom⟩
    · rw [if_neg hdown]
      exact portDown_refused hdown
  · intro s n w _ hp hw hq h0
    exact ⟨_, exec_portEnableClear n w s, writePctl_disables hp hw hq h0⟩
  · intro s n w _ hmay hw hq h0 h1
    have hrel := rel_pctlWritten s n w
    have hretrain := retrains_portRetrain (pctlWritten s n w) n
    rw [← writePctl_retrains hmay hw hq h0 h1] at hretrain
    have hport := hretrain.port
    rw [portOf_congr (hrel.frame .clf (by decide)), pState_pctlWritten, hrel.frame .lh (by decide)] at hport
    refine ⟨_, exec_portRetrainWrite n w s, ?_, hretrain.state, by rw [hport], by rw [hport], by rw [hport], ?_⟩
    · exact fun part hpart => Part.same_trans (hrel.frame part fun h => hpart (by simp at h; simp [h])) (hretrain.frame part hpart)
    · rw [hretrain.counts, hrel.frame .counts (by decide)]
  · intro s n hn hp
    exact ⟨⟨_, exec_cableRemoved n s, cableRemoved_ends hn hp⟩, ⟨_, exec_cableSeated n s, cableSeated_supplies hp⟩⟩
  · intro s n ma
    by_cases hover : portPresent s.variant n = true ∧ 1200 < ma
    · refine ⟨modPort s n fun p => { p with supply := false }, congrArg Host.Outcome.next (if_pos (by simpa using hover)), ?_⟩
      rw [if_pos hover]
      exact ⟨(rel_modPort .refl (by decide) : Rel [.clf] s _).frame, portOf_modPort_same s n _, mdel_modPort s n _⟩
    · exact ⟨s, congrArg Host.Outcome.next (if_neg (by simpa using hover)), by rw [if_neg hover]⟩

end Sys2Proof.Proofs
end

section
/-!
SUPPORT. The coordinate walk away from its anchor and at it (R256–R258): the place that an assign message gives, the messages that answer it, and the
walk's end.
-/
namespace Sys2Proof.Laws
open Sys2Proof Sys2Proof.Machine Sys2Proof.Safety

/-! ### The place that an assign message gives (R257) -/

/-- One step along a ring of `n` modules, from the port of a sender. -/
def stepAlong (p c n : Nat) : Nat := (c + n + (if p % 4 < 2 then 1 else n - 1)) % max n 1

theorem stepAlong_eq {p c n m : Nat} (hn : 1 ≤ n) (hm : (m : Int) = ((c : Int) + if p % 4 < 2 then 1 else -1) % n) : stepAlong p c n = m := by
  unfold stepAlong
  rw [max_eq_left hn, ← Int.natCast_inj, hm, Int.natCast_mod]
  split
  · rw [show ((c + n + 1 : Nat) : Int) = (c + 1) + n by push_cast; ring, Int.add_emod_right]
  · rw [show ((c + n + (n - 1) : Nat) : Int) = (c + -1) + n * 2 by push_cast [hn]; ring, Int.add_mul_emod_self_left]

theorem stepAlong_lt {p c n : Nat} (hn : 1 ≤ n) : stepAlong p c n < n := by
  unfold stepAlong
  rw [max_eq_left hn]
  exact Nat.mod_lt _ hn

/-- A coordinate of the receiver: the sender's, moved by one in the port's dimension. -/
def placeIn (d p c n : Nat) : Nat := if p / 4 = d then stepAlong p c n else c

theorem placeIn_eq {d p c n m : Nat} (hn : 1 ≤ n)
    (hm : (m : Int) = if p / 4 = d then ((c : Int) + if p % 4 < 2 then 1 else -1) % n else c) : placeIn d p c n = m := by
  unfold placeIn
  split
  · next h => rw [if_pos h] at hm; exact stepAlong_eq hn hm
  · next h => rw [if_neg h] at hm; exact_mod_cast hm.symm

theorem placeIn_lt {d p c n w : Nat} (hn : 1 ≤ n) (hw : n ≤ w) (hc : c < w) : placeIn d p c n < w := by
  unfold placeIn
  split
  · exact Nat.lt_of_lt_of_le (stepAlong_lt hn) hw
  · exact hc

/-! ### ASSIGN_RECEIVE (R257, R258) -/

/-- The module takes the place and tells device 0 and its neighbours. -/
def takePlace (s : State) (mx my mz tag sx sy sz : Nat) : State := sendAssign (sendReport (setUpstream (setCoord s mx my mz tag sx sy sz false)))

/-- What an assign message on a usable port gives, once the port's number fits. -/
def placed (port mx my mz tag sx sy sz : Nat) (s : State) : State :=
  if (anyBerth s || (walkRecent s && rd s CLF_DOMAIN_tag ≠ tag)) && discovered s &&
      !(ownId s = mx + 64 * my + 4096 * mz && rd s CLF_DOMAIN_tag = tag : Bool) then sendConflict s port
  else if discovered s && rd s CLF_DOMAIN_tag = tag then
    if ownId s ≠ mx + 64 * my + 4096 * mz || rd s CLF_DIMS_sx ≠ sx || rd s CLF_DIMS_sy ≠ sy || rd s CLF_DIMS_sz ≠ sz then sendConflict s port else s
  else takePlace s mx my mz tag sx sy sz

/-- ASSIGN_RECEIVE's effect. -/
def assignReceive (port x y z tag sx sy sz peerPort : Nat) (s : State) : State :=
  if !usable s port || !coreUp s 7 then s
  else if port ≠ peerPort ^^^ 2 then portFail s port stMISWIRED
  else placed port (placeIn 0 peerPort x sx) (placeIn 1 peerPort y sy) (placeIn 2 peerPort z sz) tag sx sy sz s

theorem exec_assignReceive (port x y z tag sx sy sz peerPort : Nat) (s : State) :
    exec (.assignReceive port x y z tag sx sy sz peerPort) s = .next (assignReceive port x y z tag sx sy sz peerPort s) := by
  show execAssignReceive port x y z tag sx sy sz peerPort s = _
  unfold execAssignReceive assignReceive placed takePlace
  rfl

/-- The registers that a place once taken can still see written: the upstream port, and a report that finds no direction. -/
theorem regsBut_takePlace (s : State) (mx my mz tag sx sy sz : Nat) :
    RegsBut [CLF_TICK.off, CLF_IRQ_STAT.off] (setCoord s mx my mz tag sx sy sz false) (takePlace s mx my mz tag sx sy sz) := by
  have hup := regsBut_setUpstream (setCoord s mx my mz tag sx sy sz false)
  generalize hu : setUpstream (setCoord s mx my mz tag sx sy sz false) = u at hup
  have hreport : RegsBut [CLF_IRQ_STAT.off] u (sendReport u) := regsBut_trans (regsBut_emit u (.walk 12 1 [ownId u])) (regsBut_fabricSend _ _ _ _)
  unfold takePlace
  rw [hu]
  exact regsBut_trans (regsBut_mono hup (by simp)) (regsBut_trans (regsBut_mono hreport (by simp))
    (regsBut_rst (sendAssign_regs _) (sendAssign_variant _)))

theorem rel_takePlace (s : State) (mx my mz tag sx sy sz : Nat) : Rel [.tx, .regs, .counts, .clf] s (takePlace s mx my mz tag sx sy sz) :=
  rel_sendAssign (rel_sendReport (rel_setUpstream (rel_setCoord .refl (by decide)) (by decide)) (by decide)) (by decide)

/-- The coordinates, tag and sizes that a module reads once it has taken its place. -/
theorem takePlace_reads (s : State) {mx my mz tag sx sy sz : Nat} (hx : mx < 64) (hy : my < 64) (hz : mz < 32) (htag : tag < 65536) (hsx : sx < 128)
    (hsy : sy < 128) (hsz : sz < 64) :
    let t := takePlace s mx my mz tag sx sy sz
    (rd t CLF_COORD_x = mx ∧ rd t CLF_COORD_y = my ∧ rd t CLF_COORD_z = mz) ∧ discovered t = true ∧ rdb t CLF_COORD_anchor = false ∧
      rd t CLF_DOMAIN_tag = tag ∧ rd t CLF_DIMS_sx = sx ∧ rd t CLF_DIMS_sy = sy ∧ rd t CLF_DIMS_sz = sz := by
  intro t
  have hregs := regsBut_takePlace s mx my mz tag sx sy sz
  obtain ⟨h1, h2, h3, h4, h5, h6, h7, h8, h9⟩ := setCoord_rd s hx hy hz htag hsx hsy hsz false
  refine ⟨⟨?_, ?_, ?_⟩, ?_, ?_, ?_, ?_, ?_, ?_⟩
  · exact (rd_of_regsBut hregs (by decide)).trans h1
  · exact (rd_of_regsBut hregs (by decide)).trans h2
  · exact (rd_of_regsBut hregs (by decide)).trans h3
  · exact (rdb_of_rd (rd_of_regsBut hregs (by decide))).trans h4
  · exact (rdb_of_rd (rd_of_regsBut hregs (by decide))).trans h5
  · exact (rd_of_regsBut hregs (by decide)).trans h6
  · exact (rd_of_regsBut hregs (by decide)).trans h7
  · exact (rd_of_regsBut hregs (by decide)).trans h8
  · exact (rd_of_regsBut hregs (by decide)).trans h9

/-- The report of the module's own place, and the assign message of each UP port. -/
theorem takePlace_tx (s : State) (mx my mz tag sx sy sz : Nat) :
    let t := takePlace s mx my mz tag sx sy sz
    Tx.walk 12 1 [ownId t] ∈ t.tx ∧ ∀ r, usable s r = true → Tx.walk r 0
      [rd t CLF_COORD_x, rd t CLF_COORD_y, rd t CLF_COORD_z, rd t CLF_DOMAIN_tag, rd t CLF_DIMS_sx, rd t CLF_DIMS_sy, rd t CLF_DIMS_sz, r] ∈ t.tx := by
  intro t
  have hcoord := regsBut_setCoord s mx my mz tag sx sy sz false
  have hafter := regsBut_takePlace s mx my mz tag sx sy sz
  have hrel := rel_takePlace s mx my mz tag sx sy sz
  have hport : ∀ r, usable t r = usable s r := fun r =>
    usable_of_regsBut (offs := [CLF_COORD.off, CLF_DOMAIN.off, CLF_DIMS.off, CLF_TICK.off, CLF_IRQ_STAT.off])
      (regsBut_trans (regsBut_mono hcoord (by simp)) (regsBut_mono hafter (by simp))) (by decide) hrel.variant r
  have hup := regsBut_setUpstream (setCoord s mx my mz tag sx sy sz false)
  have ht : t = sendAssign (sendReport (setUpstream (setCoord s mx my mz tag sx sy sz false))) := rfl
  generalize setUpstream (setCoord s mx my mz tag sx sy sz false) = u at hup ht
  have hsend : Rel [.tx, .regs, .counts, .clf] (emit u (.walk 12 1 [ownId u])) (sendReport u) := rel_fabricSend .refl (by decide)
  have hreport : RegsBut [CLF_IRQ_STAT.off] u (sendReport u) := regsBut_trans (regsBut_emit u (.walk 12 1 [ownId u])) (regsBut_fabricSend _ _ _ _)
  have hown : ownId t = ownId u := by
    rw [ht]
    exact (ownId_of_regsBut (offs := []) (regsBut_rst (sendAssign_regs _) (sendAssign_variant _)) (by simp)).trans (ownId_of_regsBut hreport (by decide))
  have htx : t.tx = (assigns (sendReport u)).reverse ++ (sendReport u).tx := by rw [ht, sendAssign_tx]
  have hassigns : assigns (sendReport u) = assigns t := by
    unfold assigns upPorts
    rw [ht, usable_congr (sendAssign_regs (sendReport u)) (sendAssign_variant (sendReport u))]
    simp only [sendAssign_rd]
  refine ⟨?_, fun r hr => ?_⟩
  · rw [htx, hown]
    exact List.mem_append_right _ (hsend.tx.subset (by rw [emit_tx]; exact List.mem_cons_self ..))
  · rw [htx, hassigns]
    exact List.mem_append_left _ (List.mem_reverse.2 (List.mem_map.2 ⟨r, mem_upPorts.2 (by rw [hport, hr]), rfl⟩))

theorem takePlace_walk (s : State) (mx my mz tag sx sy sz : Nat) :
    (takePlace s mx my mz tag sx sy sz).clf.walk = s.clf.walk ∧ (takePlace s mx my mz tag sx sy sz).clf.walkAt = s.lh.tick := by
  have hup : (setUpstream (setCoord s mx my mz tag sx sy sz false)).clf = { s.clf with walkAt := s.lh.tick } := by
    rw [(rel_setUpstream (ps_ := [.regs]) .refl fun _ h => h).frame .clf (by decide)]
    simp [setCoord]
  have hsend := (carries_fabricSend (s := emit (setUpstream (setCoord s mx my mz tag sx sy sz false))
    (.walk 12 1 [ownId (setUpstream (setCoord s mx my mz tag sx sy sz false))])) 1 0
    (walkBody (emit (setUpstream (setCoord s mx my mz tag sx sy sz false)) (.walk 12 1 [ownId (setUpstream (setCoord s mx my mz tag sx sy sz false))])) 1)).walk
  unfold takePlace sendReport
  rw [sendAssign_clf]
  rw [emit_clf, hup] at hsend
  exact hsend

/-! ### Conflicts (R257) -/

/-- The conflict's flit, and the state in which it is handed to its port. -/
def conflictFlit (s : State) : Flit :=
  { vc := 1, cls := 0, first := true, last := true, detour := false, dst := 0, hops := 0, src := ownId s, len := 5, seq := 0, ack := 0
    ackV := true, nak := false, crSel := 15, crTotal := 0, hcrc := 0, payload := walkBody s 2 }

def conflictNoted (s : State) (q : Nat) : State := emit (wrOr s CLF_IRQ_STAT_conflict 1) (.walk q 2 [ownId s])

theorem sendConflict_eq (s : State) (q : Nat) :
    sendConflict s q = enqueueOut (conflictNoted s q) q [⟨localInput, none, conflictFlit (conflictNoted s q)⟩] := rfl

theorem rel_enqueued (s : State) (q : Nat) (l : List OutFlit) : Rel [.tx, .counts, .clf] s (enqueueOut s q l) := rel_enqueueOut .refl fun _ h => h

/-- What a conflict leaves: the interrupt, its packet, and the module's own place. -/
theorem sendConflict_leaves (s : State) (q : Nat) :
    ownId (sendConflict s q) = ownId s ∧ rd (sendConflict s q) CLF_DOMAIN_tag = rd s CLF_DOMAIN_tag ∧
      rdb (sendConflict s q) CLF_IRQ_STAT_conflict = true ∧ (∃ out, (sendConflict s q).tx = out ++ Tx.walk q 2 [ownId s] :: s.tx) ∧
      (sendConflict s q).quay = s.quay := by
  have hrel := rel_enqueued (conflictNoted s q) q [⟨localInput, none, conflictFlit (conflictNoted s q)⟩]
  rw [← sendConflict_eq] at hrel
  have hregs : RegsBut [CLF_IRQ_STAT.off] s (sendConflict s q) :=
    regsBut_trans (regsBut_trans (regsBut_wrOr s CLF_IRQ_STAT_conflict 1) (regsBut_emit _ _)) (regsBut_of_rel hrel (by decide))
  have hirq : rd (sendConflict s q) CLF_IRQ_STAT_conflict = rd (wrOr s CLF_IRQ_STAT_conflict 1) CLF_IRQ_STAT_conflict :=
    (rd_congr (hrel.frame .regs (by decide)) hrel.variant _).trans (emit_rd _ _ _)
  obtain ⟨out, hout⟩ := hrel.tx
  refine ⟨ownId_of_regsBut hregs (by decide), rd_of_regsBut hregs (by decide), ?_, ⟨out, ?_⟩, ?_⟩
  · rw [rdb_of_rd hirq]
    exact rdb_wrOr_one (by decide) rfl s
  · rw [← hout, conflictNoted, emit_tx, wrOr_tx]
  · rw [hrel.frame .quay (by decide), conflictNoted, emit_quay, wrOr_quay]

/-- A port that has sent nothing and has nothing else to send has credit for a point flit of this module. -/
theorem nextFlit_fresh {p : Port} {x : OutFlit} (hwait : p.waiting = [x]) (hsent : p.sent = []) (hcredit : p.credit = []) (hturn : p.turn = [])
    (hwrr : p.wrr = 0) (hin : x.input = localInput) (hvc : x.flit.vc = 1) : nextFlit p = some x := by
  have hnext : ∀ vc, nextOn p vc = if vc = 1 then some x else none := fun vc => by
    have hof : ∀ i, [x].find? (fun y => y.input = i && y.flit.vc = vc) = if i = 12 ∧ vc = 1 then some x else none := fun i => by
      have hx : (decide (x.input = i) && decide (x.flit.vc = vc)) = decide (i = 12 ∧ vc = 1) := by
        rw [hin, hvc, Bool.eq_iff_iff, Bool.and_eq_true, decide_eq_true_iff, decide_eq_true_iff, decide_eq_true_iff, eq_comm, eq_comm (a := 1)]
        rfl
      rw [List.find?_cons, hx]
      by_cases h : i = 12 ∧ vc = 1
      · rw [if_pos h, decide_eq_true h]
      · rw [if_neg h, decide_eq_false h]
        rfl
    have hscan : nextOn p vc = (List.range 13).findSome? fun i => [x].find? (fun y => y.input = i && y.flit.vc = vc) := by
      unfold nextOn
      rw [hturn, hwait]
      rfl
    rw [hscan, funext hof]
    by_cases h : vc = 1
    · subst h
      rfl
    · rw [if_neg h]
      exact List.findSome?_eq_none_iff.2 fun i _ => if_neg fun e => h e.2
  have hready : ∀ vc, readyOn p vc = if vc = 1 then some x else none := fun vc => by
    unfold readyOn
    rw [hnext]
    by_cases h : vc = 1
    · simp [h, hasCredit, hsent, hcredit, mgetD, mget, bufSize, hvc]
    · simp [h]
  unfold nextFlit
  rw [hwrr]
  simp [hready]

/-- The conflict leaves at once on such a port. -/
theorem sendConflict_sent {s : State} {q : Nat} (hup : usable s q = true) (hwait : (portOf s q).waiting = []) (hreplay : (portOf s q).replay = [])
    (hsent : (portOf s q).sent = []) (hcredit : (portOf s q).credit = []) (hturn : (portOf s q).turn = []) (hwrr : (portOf s q).wrr = 0) :
    (portOf (sendConflict s q) q).replay.length = 1 ∧ (portOf (sendConflict s q) q).waiting = [] := by
  have hport : portOf (conflictNoted s q) q = portOf s q := by rw [conflictNoted, portOf_emit, portOf_wrOr]
  have hupn : usable (conflictNoted s q) q = true := by
    have hregs : RegsBut [CLF_IRQ_STAT.off] s (conflictNoted s q) :=
      regsBut_trans (regsBut_wrOr s CLF_IRQ_STAT_conflict 1) (regsBut_emit _ _)
    rw [usable_of_regsBut hregs (by decide) (by simp [conflictNoted]) q, hup]
  rw [sendConflict_eq, enqueueOut_one hupn (by rw [hport, hwait]) (by rw [hport, hreplay]; decide)
    (nextFlit_fresh rfl (by rw [hport]; exact hsent) (by rw [hport]; exact hcredit) (by rw [hport]; exact hturn) (by rw [hport]; exact hwrr) rfl rfl),
    sendFlit_local rfl, portOf_flitSent, if_pos rfl, portOf_modPort_same, hport]
  simp [sentPort, hreplay, hwait]

/-! ### The walk's end (R258) -/

/-- The walk's answer, and what the end leaves. -/
theorem endWalk_leaves {s : State} {w : Walk} {q : Berth} (ok : Bool) (hq : q = berthOf s w.berth) :
    (endWalk s w ok).clf.walk = none ∧ rdb (endWalk s w ok) CLF_IRQ_STAT_disc_done = true ∧
      (∀ f : Fld, Fld.Clear CLF_IRQ_STAT_disc_done f → rd (endWalk s w ok) f = rd s f) ∧
      (q.state = 1 → (w.seq, 0x0503) ∈ q.inflight → (endWalk s w ok).tx.head? = some (.status q.iface q.peer 0x0503 w.seq w.berth true
        (if ok then 0 else 0x0080) 0 true 0 (toBe 4 (rd s CLF_DISC_COUNT_reports) ++ toBe 4 (rd s CLF_DISC_COUNT_conflicts)))) := by
  subst hq
  have hread : ∀ f : Fld, Fld.Clear CLF_IRQ_STAT_disc_done f →
      rd (wrOr (modClf s fun c => { c with walk := none }) CLF_IRQ_STAT_disc_done 1) f = rd s f := fun f hf => by
    rw [rd_wrOr_other (f := CLF_IRQ_STAT_disc_done) (by decide) hf]
    simp
  unfold endWalk
  dsimp only
  refine ⟨?_, ?_, fun f hf => ?_, fun hopen hin => ?_⟩
  · rw [finish_clf, wrOr_clf]
    rfl
  · rw [rdb_of_rd (finish_rd _ _ _ _ _ _ _ _)]
    exact rdb_wrOr_one (by decide) rfl _
  · rw [finish_rd, hread f hf]
  · rw [hread _ (by decide), hread _ (by decide)]
    rw [finish_sent (s := s) (by simp) hopen (List.any_eq_true.2 ⟨_, hin, by simp⟩)]
    cases ok <;> rfl

end Sys2Proof.Laws
end

section
/-!
PROOFS. The coordinate walk (R256–R261, R265).
-/
namespace Sys2Proof.Proofs
open Sys2Proof Sys2Proof.Machine Sys2Proof.Safety Sys2Proof.Laws

/-! ### Assign messages -/

theorem anyBerth_iff {s : State} : anyBerth s = true ↔ ∃ b, b < 4 ∧ (berthOf s b).state ≠ 0 := by
  unfold anyBerth berths
  rw [List.any_eq_true]
  constructor
  · rintro ⟨b, hb, h⟩
    exact ⟨b, by simp at hb; omega, of_decide_eq_true h⟩
  · rintro ⟨b, hb, h⟩
    exact ⟨b, by simp; omega, decide_eq_true h⟩

section assign
variable {s : State} {n x y z tag sx sy sz p mx my mz : Nat}

theorem assignReceive_ignored (h : usable s n = false ∨ coreUp s 7 = false) : assignReceive n x y z tag sx sy sz p s = s := by
  unfold assignReceive
  refine if_pos ?_
  rcases h with h | h <;> simp [h]

theorem assignReceive_miswired (hup : usable s n = true) (hcore : coreUp s 7 = true) (hport : n ≠ p ^^^ 2) :
    assignReceive n x y z tag sx sy sz p s = portFail s n 8 := by
  unfold assignReceive
  rw [if_neg (by simp [hup, hcore]), if_pos hport]
  rfl

theorem assignReceive_fits (hup : usable s n = true) (hcore : coreUp s 7 = true) (hport : n = p ^^^ 2) (hx : placeIn 0 p x sx = mx)
    (hy : placeIn 1 p y sy = my) (hz : placeIn 2 p z sz = mz) : assignReceive n x y z tag sx sy sz p s = placed n mx my mz tag sx sy sz s := by
  unfold assignReceive
  rw [if_neg (by simp [hup, hcore]), if_neg (by simpa using hport), hx, hy, hz]

/-- A module with no coordinates, or free to leave another domain, takes the place. -/
theorem placed_takes
    (hfree : discovered s = false ∨ (rd s CLF_DOMAIN_tag ≠ tag ∧ walkRecent s = false ∧ ∀ b, b < 4 → (berthOf s b).state = 0)) :
    placed n mx my mz tag sx sy sz s = takePlace s mx my mz tag sx sy sz := by
  unfold placed
  rcases hfree with hd | ⟨htag, hrecent, hidle⟩
  · rw [if_neg (by simp [hd]), if_neg (by simp [hd])]
  · have hany : anyBerth s = false := by
      rw [← Bool.not_eq_true, anyBerth_iff]
      rintro ⟨b, hb, h⟩
      exact h (hidle b hb)
    rw [if_neg (by simp [hany, hrecent]), if_neg (by simp [htag])]

/-- The place that the module has is confirmed. -/
theorem placed_same (hd : discovered s = true) (htag : rd s CLF_DOMAIN_tag = tag) (hown : ownId s = mx + 64 * my + 4096 * mz)
    (hx : rd s CLF_DIMS_sx = sx) (hy : rd s CLF_DIMS_sy = sy) (hz : rd s CLF_DIMS_sz = sz) : placed n mx my mz tag sx sy sz s = s := by
  unfold placed
  rw [if_neg (by simp [hown, htag]), if_pos (by simp [hd, htag])]
  exact if_neg (by simp [hown, hx, hy, hz])

/-- A module that keeps its coordinates against the message sends a conflict. -/
theorem placed_conflicts (hd : discovered s = true)
    (h : ((∃ b, b < 4 ∧ (berthOf s b).state ≠ 0) ∧ (rd s CLF_DOMAIN_tag ≠ tag ∨ ownId s ≠ mx + 64 * my + 4096 * mz)) ∨
      (walkRecent s = true ∧ rd s CLF_DOMAIN_tag ≠ tag) ∨
      (rd s CLF_DOMAIN_tag = tag ∧
        (ownId s ≠ mx + 64 * my + 4096 * mz ∨ rd s CLF_DIMS_sx ≠ sx ∨ rd s CLF_DIMS_sy ≠ sy ∨ rd s CLF_DIMS_sz ≠ sz))) :
    placed n mx my mz tag sx sy sz s = sendConflict s n := by
  unfold placed
  rcases h with ⟨hopen, hdiff⟩ | ⟨hrecent, htag⟩ | ⟨htag, hdiff⟩
  · refine if_pos ?_
    rw [anyBerth_iff.2 hopen, hd]
    rcases hdiff with h | h <;> simp [h]
  · refine if_pos ?_
    simp [hrecent, htag, hd]
  · have hchanged : (decide (ownId s ≠ mx + 64 * my + 4096 * mz) || decide (rd s CLF_DIMS_sx ≠ sx) || decide (rd s CLF_DIMS_sy ≠ sy) ||
        decide (rd s CLF_DIMS_sz ≠ sz)) = true := by
      simpa only [Bool.or_eq_true, decide_eq_true_eq, or_assoc] using hdiff
    have hdomain : (discovered s && decide (rd s CLF_DOMAIN_tag = tag)) = true := by simp [hd, htag]
    rw [if_pos hdomain, if_pos hchanged, ite_self]

end assign

/-! ### The anchor -/

/-- REPORT_RECEIVE's effect. -/
def reportReceive (device : Nat) (s : State) : State :=
  if !rdb s CLF_COORD_anchor || device ≥ 2 ^ 17 then s
  else
    let s := wr s CLF_DISC_COUNT_reports (satAdd (2 ^ 18 - 1) (rd s CLF_DISC_COUNT_reports) 1)
    match s.clf.walk with
    | some w => if walkComplete s && !w.lost then endWalk s w true else s
    | none => s

/-- CONFLICT_RECEIVE's effect. -/
def conflictReceive (s : State) : State :=
  if !rdb s CLF_COORD_anchor then s
  else
    let s := wr s CLF_DISC_COUNT_conflicts (satAdd 16383 (rd s CLF_DISC_COUNT_conflicts) 1)
    let s := wrOr s CLF_IRQ_STAT_conflict 1
    match s.clf.walk with
    | some w => if w.lost then s else endWalk s w false
    | none => s

/-- WALK_TIMEOUT's effect. -/
def walkTimeout (s : State) : State :=
  match s.clf.walk with
  | some w => if since s w.start ≥ rd s CLF_TMO_disc then endWalk s w false else s
  | none => s

theorem exec_reportReceive (dev : Nat) (s : State) : exec (.reportReceive dev) s = .next (reportReceive dev s) := rfl
theorem exec_conflictReceive (s : State) : exec .conflictReceive s = .next (conflictReceive s) := rfl
theorem exec_walkTimeout (s : State) : exec .walkTimeout s = .next (walkTimeout s) := rfl

section anchor
variable {s : State} {w : Walk}

/-- A report is counted, and the last one ends the walk. -/
theorem reportReceive_counts {dev : Nat} (ha : rdb s CLF_COORD_anchor = true) (hdev : dev < 2 ^ 17) (hw : s.clf.walk = some w) (hlost : w.lost = false) :
    reportReceive dev s =
      if walkComplete (wr s CLF_DISC_COUNT_reports (min (2 ^ 18 - 1) (rd s CLF_DISC_COUNT_reports + 1))) then
        endWalk (wr s CLF_DISC_COUNT_reports (min (2 ^ 18 - 1) (rd s CLF_DISC_COUNT_reports + 1))) w true
      else wr s CLF_DISC_COUNT_reports (min (2 ^ 18 - 1) (rd s CLF_DISC_COUNT_reports + 1)) := by
  unfold reportReceive
  rw [if_neg (by simp [ha]; omega), satAdd_eq_min]
  dsimp only
  rw [wr_clf, hw]
  simp only [hlost, Bool.not_false, Bool.and_true]

theorem conflictReceive_ends (ha : rdb s CLF_COORD_anchor = true) (hw : s.clf.walk = some w) (hlost : w.lost = false) :
    conflictReceive s =
      endWalk (wrOr (wr s CLF_DISC_COUNT_conflicts (min 16383 (rd s CLF_DISC_COUNT_conflicts + 1))) CLF_IRQ_STAT_conflict 1) w false := by
  unfold conflictReceive
  rw [if_neg (by simp [ha]), satAdd_eq_min]
  dsimp only
  rw [wrOr_clf, wr_clf, hw]
  simp only [hlost, Bool.false_eq_true, if_false]

theorem walkTimeout_ends (hw : s.clf.walk = some w) (h : rd s CLF_TMO_disc ≤ since s w.start) : walkTimeout s = endWalk s w false := by
  unfold walkTimeout
  rw [hw]
  exact if_pos h

theorem walkTimeout_waits (hw : s.clf.walk = some w) (h : since s w.start < rd s CLF_TMO_disc) : walkTimeout s = s := by
  unfold walkTimeout
  rw [hw]
  exact if_neg (by omega)

end anchor

/-- Settles O52: a place is taken exactly when nothing that the module keeps speaks against it, and the anchor's counts end its walk. -/
theorem coordinateWalk : Obligations.CoordinateWalk := by
  unfold Obligations.CoordinateWalk
  refine ⟨?_, ?_, ?_, ?_, ?_, ?_, ?_⟩
  · intro s n x y z tag sx sy sz p h
    rw [exec_assignReceive, assignReceive_ignored h]
  · intro s n x y z tag sx sy sz p hn hup hcore hport
    have hexec := exec_assignReceive n x y z tag sx sy sz p s
    have hfail := portFailed_portFail s (n := n) (st := 8) hn (by decide) (by decide)
    rw [← assignReceive_miswired (x := x) (y := y) (z := z) (tag := tag) (sx := sx) (sy := sy) (sz := sz) hup hcore hport] at hfail
    refine ⟨_, hexec, (rel_of_exec hexec).frame, hfail.state, hfail.miswired rfl, ownId_of_regsBut hfail.regs ?_⟩
    simp [failOffs, Fld.at, CLF_COORD, CLF_PSTAT, CLF_PIRQ_STAT, RST_IRQ_STAT, RST_REPLACE_causes, MGT_ALERT, CMD_IRQ_STAT, CLF_TICK, CLF_IRQ_STAT]
    omega
  · intro s n x y z tag sx sy sz p mx my mz hn hup hcore hport hx hy hz htag hx1 hx64 hy1 hy64 hz1 hz32 hfree hmx hmy hmz
    have hpx := placeIn_eq hx1 hmx
    have hpy := placeIn_eq hy1 hmy
    have hpz := placeIn_eq hz1 hmz
    have hlx : mx < 64 := hpx ▸ placeIn_lt hx1 hx64 hx
    have hly : my < 64 := hpy ▸ placeIn_lt hy1 hy64 hy
    have hlz : mz < 32 := hpz ▸ placeIn_lt hz1 hz32 hz
    have hexec := exec_assignReceive n x y z tag sx sy sz p s
    rw [assignReceive_fits hup hcore hport hpx hpy hpz, placed_takes hfree] at hexec
    obtain ⟨⟨hrx, hry, hrz⟩, hdisc, hanchor, hdom, hdx, hdy, hdz⟩ :=
      takePlace_reads s (mx := mx) (my := my) (mz := mz) (tag := tag) (sx := sx) (sy := sy) (sz := sz) hlx hly hlz htag (by omega) (by omega) (by omega)
    obtain ⟨hreport, hassign⟩ := takePlace_tx s mx my mz tag sx sy sz
    obtain ⟨hwalk, hat⟩ := takePlace_walk s mx my mz tag sx sy sz
    rw [hrx, hry, hrz, hdom, hdx, hdy, hdz] at hassign
    refine ⟨_, hexec, (rel_of_exec hexec).frame, hdisc, ?_, hdom, hdx, hdy, hdz, hanchor, ?_, fun r _ hr => hassign r hr, ?_, hwalk, hat⟩
    · unfold ownId
      rw [hrx, hry, hrz]
    · exact List.any_eq_true.2 ⟨_, hreport, beq_self_eq_true _⟩
    · exact (rel_takePlace s mx my mz tag sx sy sz).frame .quay (by decide)
  · intro s n x y z tag sx sy sz p mx my mz hn hup hcore hport hx1 hy1 hz1 hd hmx hmy hmz
    have hexec := exec_assignReceive n x y z tag sx sy sz p s
    rw [assignReceive_fits hup hcore hport (placeIn_eq hx1 hmx) (placeIn_eq hy1 hmy) (placeIn_eq hz1 hmz)] at hexec
    refine ⟨fun ⟨htag, hown, hx, hy, hz⟩ => by rw [hexec, placed_same hd htag hown hx hy hz], fun h => ?_⟩
    rw [placed_conflicts hd h] at hexec
    obtain ⟨hown, htag, hirq, ⟨out, htx⟩, hquay⟩ := sendConflict_leaves s n
    refine ⟨_, hexec, hown, htag, hirq, ⟨out ++ [Tx.walk n 2 [ownId s]], by rw [htx]; simp⟩, ?_, hquay, fun hu hw hr hs hc ht hr0 =>
      sendConflict_sent hu hw hr hs hc ht hr0⟩
    refine List.any_eq_true.2 ⟨Tx.walk n 2 [ownId s], ?_, by simp⟩
    rw [htx, show (out ++ Tx.walk n 2 [ownId s] :: s.tx).length - s.tx.length = out.length + 1 by simp; omega, List.take_append]
    simp
  · intro s dev
    refine ⟨fun ha => ⟨?_, ?_⟩, fun hw => ?_⟩
    · exact congrArg Host.Outcome.next (if_pos (by simp [ha]))
    · exact congrArg Host.Outcome.next (if_pos (by simp [ha]))
    · rw [exec_walkTimeout, walkTimeout, hw]
  · intro s dev k w q ha hdev hw hlost hq hk
    have hexec := exec_reportReceive dev s
    have hframe := (rel_of_exec hexec).frame
    rw [reportReceive_counts ha hdev hw hlost, ← hk] at hexec hframe
    have hreports : rd (wr s CLF_DISC_COUNT_reports k) CLF_DISC_COUNT_reports = k :=
      rd_wr_fits (by decide) s (by rw [hk]; exact Nat.lt_of_le_of_lt (Nat.min_le_left _ _) (by decide))
    have hother : ∀ f : Fld, Fld.Clear CLF_DISC_COUNT_reports f → rd (wr s CLF_DISC_COUNT_reports k) f = rd s f := fun f hf => rd_wr_other (by decide) hf s k
    have hdone : walkComplete (wr s CLF_DISC_COUNT_reports k) = true ↔
        rd s CLF_DISC_COUNT_conflicts = 0 ∧ rd s CLF_DIMS_sx * rd s CLF_DIMS_sy * rd s CLF_DIMS_sz ≤ k + 1 := by
      unfold walkComplete
      rw [hreports, hother _ (by decide), hother _ (by decide), hother _ (by decide), hother _ (by decide), Bool.and_eq_true, decide_eq_true_iff,
        decide_eq_true_iff]
    refine ⟨_, hexec, hframe, ?_, ?_⟩
    · split
      · rw [(endWalk_leaves true rfl).2.2.1 _ (by decide), hreports]
      · exact hreports
    · by_cases hc : rd s CLF_DISC_COUNT_conflicts = 0 ∧ rd s CLF_DIMS_sx * rd s CLF_DIMS_sy * rd s CLF_DIMS_sz ≤ k + 1
      · rw [if_pos (hdone.2 hc), if_pos hc]
        obtain ⟨hnone, hirq, -, hsent⟩ := endWalk_leaves (s := wr s CLF_DISC_COUNT_reports k) (w := w) (q := q) true (by rw [wr_berthOf, hq])
        rw [hreports, hother _ (by decide), hc.1] at hsent
        exact ⟨hnone, hirq, hsent⟩
      · rw [if_neg (fun e => hc (hdone.1 e)), if_neg hc]
        exact ⟨wr_clf _ _ _, wr_quay _ _ _, wr_tx _ _ _⟩
  · intro s k w q hw hq
    refine ⟨fun ha hlost hk => ?_, fun h => ?_, fun h => ?_⟩
    · have hexec := exec_conflictReceive s
      have hframe := (rel_of_exec hexec).frame
      rw [conflictReceive_ends ha hw hlost, ← hk] at hexec hframe
      obtain ⟨hnone, -, hread, hsent⟩ := endWalk_leaves (s := wrOr (wr s CLF_DISC_COUNT_conflicts k) CLF_IRQ_STAT_conflict 1) (w := w) (q := q) false
        (by rw [wrOr_berthOf, wr_berthOf, hq])
      have hconflicts : rd (wrOr (wr s CLF_DISC_COUNT_conflicts k) CLF_IRQ_STAT_conflict 1) CLF_DISC_COUNT_conflicts = k := by
        rw [rd_wrOr_other (f := CLF_IRQ_STAT_conflict) (by decide) (by decide)]
        exact rd_wr_fits (by decide) s (by rw [hk]; exact Nat.lt_of_le_of_lt (Nat.min_le_left _ _) (by decide))
      have hreports : rd (wrOr (wr s CLF_DISC_COUNT_conflicts k) CLF_IRQ_STAT_conflict 1) CLF_DISC_COUNT_reports = rd s CLF_DISC_COUNT_reports := by
        rw [rd_wrOr_other (f := CLF_IRQ_STAT_conflict) (by decide) (by decide), rd_wr_other (f := CLF_DISC_COUNT_conflicts) (by decide) (by decide)]
      rw [hconflicts, hreports] at hsent
      refine ⟨_, hexec, hframe, (hread _ (by decide)).trans hconflicts, hnone, ?_, hsent⟩
      rw [rdb_of_rd (hread CLF_IRQ_STAT_conflict (by decide))]
      exact rdb_wrOr_one (by decide) rfl _
    · rw [exec_walkTimeout, walkTimeout_waits hw h]
    · have hexec := exec_walkTimeout s
      have hframe := (rel_of_exec hexec).frame
      rw [walkTimeout_ends hw h] at hexec hframe
      obtain ⟨hnone, hirq, -, hsent⟩ := endWalk_leaves (s := s) (w := w) (q := q) false hq
      exact ⟨_, hexec, hframe, hnone, hirq, hsent⟩

end Sys2Proof.Proofs
end

section
/-!
SUPPORT. The cores (R470–R475): their records, what the end of a core's claims and a restart leave alone, and what every later stage of a tick keeps.
-/
namespace Sys2Proof.Laws
open Sys2Proof Sys2Proof.Machine Sys2Proof.Safety

/-! ### The records of the cores -/

theorem coreOf_of_lh {s t : State} (h : t.lh = s.lh) (k : Nat) : coreOf t k = coreOf s k := by unfold coreOf; rw [h]

theorem coreOf_modCore (s : State) (k : Nat) (f : Core → Core) (j : Nat) :
    coreOf (modCore s k f) j = if j = k then f (coreOf s k) else coreOf s j := mgetD_mset ..

theorem coreOf_modCore_same (s : State) (k : Nat) (f : Core → Core) : coreOf (modCore s k f) k = f (coreOf s k) :=
  (coreOf_modCore ..).trans (if_pos rfl)

theorem coreOf_modCore_other (s : State) {k j : Nat} (f : Core → Core) (h : j ≠ k) : coreOf (modCore s k f) j = coreOf s j :=
  (coreOf_modCore ..).trans (if_neg h)

theorem coreRuns_iff {s : State} {k : Nat} : coreRuns s k = true ↔
    k < 8 ∧ s.rst.running = true ∧ s.pwr.asleep = false ∧ inReset s 0x3F = false ∧ coreUp s k = true := by
  simp [coreRuns, and_assoc]

/-- Whether a core runs is read off the resets, the sleep and its own restart (R22, R474). -/
theorem coreRuns_congr {s t : State} {k : Nat} (hrst : t.rst = s.rst) (hsleep : t.pwr.asleep = s.pwr.asleep)
    (hrestart : (coreOf t k).restart = (coreOf s k).restart) : coreRuns t k = coreRuns s k := by
  unfold coreRuns coreUp inReset
  rw [hrst, hsleep, hrestart]

/-! ### What the stages of a tick after the cores' edges keep -/

/-- Registers that the monitors and L0's loop set at a tick (R485, R490). -/
abbrev TickReg (off : Nat) : Prop := 0x2000C ≤ off ∧ off < 0x20020

/-- The tick, the cores but L0, the power conditions but sleep, the monitors' registers and Lighthouse's counts are as they were. -/
structure TickKept (s t : State) : Prop where
  tick : t.lh.tick = s.lh.tick
  reqs : t.lh.pwrReqs = s.lh.pwrReqs
  cores : ∀ k, k ≠ 0 → coreOf t k = coreOf s k
  power : t.pwr = { s.pwr with asleep := t.pwr.asleep }
  regs : ∀ off, TickReg off → regWord t off = regWord s off
  counts : ∀ k, 0x0300 ≤ k → k < 0x0400 → mgetD t.counts k 0 = mgetD s.counts k 0

section kept
variable {s t u : State}

theorem TickKept.refl : TickKept s s := ⟨rfl, rfl, fun _ _ => rfl, rfl, fun _ _ => rfl, fun _ _ _ => rfl⟩

theorem TickKept.trans (h : TickKept s t) (h' : TickKept t u) : TickKept s u where
  tick := h'.tick.trans h.tick
  reqs := h'.reqs.trans h.reqs
  cores k hk := (h'.cores k hk).trans (h.cores k hk)
  power := by rw [h'.power, h.power]
  regs off ho := (h'.regs off ho).trans (h.regs off ho)
  counts k hlo hhi := (h'.counts k hlo hhi).trans (h.counts k hlo hhi)

theorem TickKept.ite {c : Prop} [Decidable c] (h : TickKept s t) (h' : TickKept s u) : TickKept s (if c then t else u) := by
  split
  · exact h
  · exact h'

theorem TickKept.fold {α : Type} {f : State → α → State} (hf : ∀ t x, TickKept t (f t x)) (s : State) (l : List α) : TickKept s (foldS f s l) :=
  foldS_holds (P := TickKept s) (fun t x h => h.trans (hf t x)) .refl l

/-- An operation outside Lighthouse and the power conditions. -/
theorem TickKept.of_regs {offs : List Nat} (hlh : t.lh = s.lh) (hpwr : t.pwr = s.pwr) (hregs : RegsBut offs s t) (ho : ∀ o ∈ offs, ¬ TickReg o)
    (hcounts : ∀ k, 0x0300 ≤ k → k < 0x0400 → mgetD t.counts k 0 = mgetD s.counts k 0) : TickKept s t where
  tick := by rw [hlh]
  reqs := by rw [hlh]
  cores k _ := coreOf_of_lh hlh k
  power := by rw [hpwr]
  regs off hoff := hregs off fun hin => ho off hin hoff
  counts := hcounts

theorem TickKept.of_rel {ps : List Part} (h : Rel ps s t) (hlh : Part.lh ∉ ps) (hpwr : Part.pwr ∉ ps) (hregs : Part.regs ∉ ps)
    (hcounts : Part.counts ∉ ps) : TickKept s t :=
  .of_regs (h.frame .lh hlh) (h.frame .pwr hpwr) (regsBut_of_rel (offs := []) h hregs) (by simp) fun k _ _ => by
    rw [show t.counts = s.counts from h.frame .counts hcounts]

/-- An operation that counts, but not for Lighthouse. -/
theorem TickKept.of_counting {ps : List Part} (h : Rel ps s t) (hlh : Part.lh ∉ ps) (hpwr : Part.pwr ∉ ps) (hregs : Part.regs ∉ ps)
    (hcounts : ∀ k, 0x0300 ≤ k → k < 0x0400 → mgetD t.counts k 0 = mgetD s.counts k 0) : TickKept s t :=
  .of_regs (h.frame .lh hlh) (h.frame .pwr hpwr) (regsBut_of_rel (offs := []) h hregs) (by simp) hcounts

theorem TickKept.rd (h : TickKept s t) {f : Fld} (hf : TickReg f.off) : rd t f = rd s f := by
  unfold Machine.rd; rw [h.regs _ hf]

/-- Sleep is no emergency (R484). -/
theorem TickKept.emergency (h : TickKept s t) : emergency t = emergency s := by
  unfold Machine.emergency; rw [h.power]

end kept

theorem tickKept_wr (s : State) {f : Fld} (v : Nat) (hf : ¬ TickReg f.off) : TickKept s (wr s f v) :=
  .of_regs (wr_lh s f v) (wr_pwr s f v) (regsBut_wr s f v) (by simpa using hf) fun k _ _ => by rw [wr_counts]

theorem tickKept_wrOr (s : State) {f : Fld} (v : Nat) (hf : ¬ TickReg f.off) : TickKept s (wrOr s f v) := tickKept_wr s _ hf

theorem tickKept_count (s : State) {id : Nat} (n : Nat) (h : id < 0x0300 ∨ 0x0400 ≤ id) : TickKept s (count s id n) :=
  .of_counting (rel_count .refl fun _ h => h) (by decide) (by decide) (by decide) fun k _ _ => by
    rw [counts_count, if_neg (by omega)]

/-! ### The claims of a core end (R449–R461) -/

theorem tickKept_wakeClocks (s : State) : TickKept s (wakeClocks s) := by
  unfold wakeClocks
  extract_lets -underBinder present t
  have hsleep : TickKept s { s with pwr := { s.pwr with asleep := false } } :=
    ⟨rfl, rfl, fun _ _ => rfl, rfl, fun _ _ => rfl, fun _ _ _ => rfl⟩
  exact (hsleep.trans (tickKept_wr _ _ (by decide))).trans (.fold (fun u p => .ite (tickKept_wr u _ (by
    simp only [TickReg, Fld.at, CLF_PSTAT_state]; omega)) .refl) t _)

theorem tickKept_beaconCatch (s : State) (n : Nat) : TickKept s (beaconCatch s n) := by
  unfold beaconCatch
  refine .ite ?_ .refl
  unfold beaconWake
  extract_lets -underBinder t cause u
  have ht : TickKept s t := (tickKept_wrOr s _ (by decide)).trans (tickKept_count _ _ (by decide))
  have hu : TickKept t u := .of_rel (rel_icu .refl (List.mem_singleton_self _)) (by decide) (by decide) (by decide) (by decide)
  exact (ht.trans hu).trans (.ite (tickKept_wakeClocks u) .refl)

/-- An operation on the interrupt controller alone. -/
theorem tickKept_of_icu {s t : State} (h : Rel [.icu] s t) : TickKept s t := .of_rel h (by decide) (by decide) (by decide) (by decide)

theorem tickKept_setPending (s : State) (n : Nat) (x : Bool) : TickKept s (setPending s n x) :=
  tickKept_of_icu (rel_setPending .refl fun _ h => h)

theorem tickKept_modIcu (s : State) (f : Icu → Icu) : TickKept s (modIcu s f) := tickKept_of_icu (rel_modIcu .refl fun _ h => h)

theorem tickKept_icuCount (s : State) (n : Nat) : TickKept s (icuCount s n) := tickKept_of_icu (rel_icuCount .refl fun _ h => h)

theorem tickKept_fireEdge (s : State) (n : Nat) : TickKept s (fireEdge s n) :=
  ((tickKept_setPending s n true).trans (tickKept_icuCount _ n)).trans (tickKept_beaconCatch _ n)

theorem tickKept_logError (s : State) (domain cls source : Nat) (detail : W64) (berth : Nat) :
    TickKept s (logError s domain cls source detail berth) := by
  have hrel : Rel [.regs, .rst] s (logError s domain cls source detail berth) := rel_logError .refl fun _ h => h
  exact .of_regs (hrel.frame .lh (by decide)) (hrel.frame .pwr (by decide)) (regsBut_logError s domain cls source detail berth) (by decide) fun k _ _ => by
    rw [show (logError s domain cls source detail berth).counts = s.counts from hrel.frame .counts (by decide)]

theorem tickKept_stormMask (s : State) (n : Nat) : TickKept s (stormMask s n) := by
  unfold stormMask
  extract_lets -underBinder t
  have ht : TickKept s t := (tickKept_setPending s n false).trans (tickKept_modIcu _ _)
  exact ((ht.trans (tickKept_count t 1 (by decide))).trans (tickKept_logError ..)).trans (tickKept_fireEdge ..)

theorem tickKept_levelHold (s : State) (n : Nat) : TickKept s (levelHold s n) := by
  unfold levelHold
  refine .ite ?_ .refl
  unfold levelRise
  extract_lets -underBinder t k u
  have ht : TickKept s t := tickKept_icuCount s n
  have hu : TickKept s u := ht.trans (tickKept_modIcu t _)
  exact .ite ht (.ite (hu.trans (tickKept_stormMask u n)) (hu.trans (tickKept_setPending u n true)))

theorem tickKept_endClaim (s : State) (k n : Nat) (fast : Bool) : TickKept s (endClaim s k n fast) := by
  unfold endClaim
  extract_lets -underBinder t
  have ht : TickKept s t := tickKept_modIcu s _
  exact .ite ht (ht.trans (tickKept_levelHold t n))

theorem tickKept_dropClaims (s : State) (k : Nat) : TickKept s (dropClaims s k) := by
  unfold dropClaims
  extract_lets -underBinder one
  have hone : ∀ t fast, TickKept t (one t fast) := fun t fast => by
    unfold one
    split
    · extract_lets -underBinder u
      have hu : TickKept t u := tickKept_endClaim ..
      exact .ite (hu.trans (tickKept_setPending ..)) hu
    · exact .refl
  exact (hone s false).trans (hone _ true)

/-! ### A restart begins (R474) -/

/-- The record of a core whose restart begins at a tick. -/
def restarted (tick : W64) (c : Core) : Core := { c with busy := false, late := false, expired := none, restart := some tick, waiting := false }

theorem startRestart_lh (s : State) (k : Nat) : (startRestart s k).lh = (modCore s k (restarted s.lh.tick)).lh := by
  have hrel : Rel [.regs, .counts, .icu, .pwr, .rst] s (dropClaims s k) := rel_dropClaims .refl fun _ h => h
  have hlh : (dropClaims s k).lh = s.lh := hrel.frame .lh (by decide)
  have hmod : (modCore (dropClaims s k) k (restarted (dropClaims s k).lh.tick)).lh = (modCore s k (restarted s.lh.tick)).lh := by
    unfold modCore coreOf; rw [hlh]
  unfold startRestart
  extract_lets -underBinder t u v w
  exact (apply_ite State.lh ..).trans ((ite_self _).trans hmod)

theorem startRestart_banks (s : State) (k : Nat) : (startRestart s k).banks = mdel s.banks k := by
  have hrel : Rel [.regs, .counts, .icu, .pwr, .rst] s (dropClaims s k) := rel_dropClaims .refl fun _ h => h
  unfold startRestart
  extract_lets -underBinder t u v w
  refine (apply_ite State.banks ..).trans ((ite_self _).trans ?_)
  exact congrArg (mdel · k) (hrel.frame .banks (by decide))

theorem coreOf_startRestart (s : State) (k j : Nat) :
    coreOf (startRestart s k) j = if j = k then restarted s.lh.tick (coreOf s k) else coreOf s j :=
  (coreOf_of_lh (startRestart_lh s k) j).trans (coreOf_modCore ..)

theorem mget_banks_startRestart (s : State) (k j : Nat) : mget (startRestart s k).banks j = if j = k then none else mget s.banks j := by
  rw [startRestart_banks, mget_mdel]

theorem tick_startRestart (s : State) (k : Nat) : (startRestart s k).lh.tick = s.lh.tick := by rw [startRestart_lh]; rfl

theorem act_startRestart (s : State) (k : Nat) : (startRestart s k).lh.act = s.lh.act := by rw [startRestart_lh]; rfl

/-- The other parts of a restart's beginning: the claims end. -/
theorem startRestart_claims (s : State) (k : Nat) : (startRestart s k).pwr = (dropClaims s k).pwr ∧ (startRestart s k).counts = (dropClaims s k).counts ∧
    ∀ off, regWord (startRestart s k) off = regWord (dropClaims s k) off := by
  unfold startRestart
  extract_lets -underBinder t u v w
  split <;> exact ⟨rfl, rfl, fun _ => rfl⟩

/-- The restart of L0 leaves what the other stages of a tick leave. -/
theorem tickKept_startRestart_zero (s : State) : TickKept s (startRestart s 0) := by
  have h := tickKept_dropClaims s 0
  obtain ⟨hpwr, hcounts, hregs⟩ := startRestart_claims s 0
  exact ⟨tick_startRestart s 0, by rw [startRestart_lh]; rfl, fun k hk => (coreOf_startRestart s 0 k).trans (if_neg hk), by rw [hpwr]; exact h.power,
    fun off ho => (hregs off).trans (h.regs off ho), fun k hlo hhi => by rw [hcounts]; exact h.counts k hlo hhi⟩

theorem emergency_startRestart (s : State) (k : Nat) : emergency (startRestart s k) = emergency s := by
  rw [← (tickKept_dropClaims s k).emergency]
  unfold emergency
  rw [(startRestart_claims s k).1]

end Sys2Proof.Laws
end

section
/-!
SUPPORT. The tick edge (R264, R470–R472, R485, R490–R496): the sensors, the work or over-run of each core, L0's gating, and what the stages after it
keep.
-/
namespace Sys2Proof.Laws
open Sys2Proof Sys2Proof.Machine Sys2Proof.Safety

/-! ### Stages that keep what a tick has set -/

section flits
variable {k : Nat} (hk : k < 0x1600)
include hk

theorem countBelow_emitFlit (s : State) (n cr : Nat) (f : Flit) : mgetD (emitFlit s n cr f).counts k 0 = mgetD s.counts k 0 := by
  unfold emitFlit
  rw [counts_count, if_neg (by omega), counts_emit_flit]

theorem countBelow_freeBuffer (s : State) (n buf : Nat) : mgetD (freeBuffer s n buf).counts k 0 = mgetD s.counts k 0 := by
  unfold freeBuffer
  extract_lets -underBinder t
  split
  · exact countBelow_emitFlit hk t n buf _
  · rfl

theorem countBelow_sendFlit (s : State) (n : Nat) (x : OutFlit) : mgetD (sendFlit s n x).counts k 0 = mgetD s.counts k 0 := by
  unfold sendFlit
  extract_lets -underBinder p f b g t u
  have hu : mgetD u.counts k 0 = mgetD s.counts k 0 := countBelow_emitFlit hk t n _ g
  split
  · exact (countBelow_freeBuffer hk ..).trans hu
  · exact hu

theorem countBelow_pumpPort (fuel : Nat) (s : State) (n : Nat) : mgetD (pumpPort fuel s n).counts k 0 = mgetD s.counts k 0 := by
  induction fuel generalizing s with
  | zero => rfl
  | succ fuel ih =>
    unfold pumpPort
    extract_lets -underBinder p
    split
    · rfl
    · split
      · exact (ih _).trans (countBelow_sendFlit hk ..)
      · rfl

end flits

theorem tickKept_enqueueFlits (s : State) (n : Nat) (l : List Flit) : TickKept s (enqueueFlits s n l) :=
  .of_counting (rel_enqueueFlits .refl fun _ h => h) (by decide) (by decide) (by decide) fun _ _ hhi =>
    countBelow_pumpPort (by omega) _ _ n

theorem tickKept_sendTicks (s : State) : TickKept s (sendTicks s) := by
  unfold sendTicks
  refine .fold (fun t q => ?_) s _
  split
  · extract_lets -underBinder body
    have hfree : TickKept t (useFree t) := .of_rel (rel_useFree .refl (List.mem_singleton_self _) : Rel [.free] t _) (by decide) (by decide) (by decide) (by decide)
    exact hfree.trans (tickKept_enqueueFlits ..)
  · exact .refl

/-- An operation on Cliff's records alone. -/
theorem tickKept_modClf (s : State) (f : Cliff → Cliff) : TickKept s (modClf s f) :=
  .of_rel (rel_modClf .refl fun _ h => h) (by decide) (by decide) (by decide) (by decide)

theorem tickKept_slewTick (s : State) : TickKept s (slewTick s) := by
  unfold slewTick
  refine .ite .refl ?_
  unfold applySlew
  extract_lets -underBinder a
  exact (tickKept_wr s (f := CLF_TICK_offset) _ (by decide)).trans (tickKept_modClf ..)

theorem countBelow_beginHandshake {k : Nat} (hk : k < 0x1A00) (s : State) (b p epoch : Nat) (reset : Bool) :
    mgetD (beginHandshake s b p epoch reset).counts k 0 = mgetD s.counts k 0 := by
  unfold beginHandshake
  split
  · extract_lets -underBinder n ek body h
    unfold sendInit sendOfs ofsCount
    rw [counts_count, if_neg (by omega), counts_emit (by omega)]
    have hrel : Rel [.free, .ofs] s (modPeer (useFree s) b p fun q => { q with hs := some h }) :=
      rel_modPeer (rel_useFree .refl (by decide)) (by decide)
    rw [show (modPeer (useFree s) b p fun q => { q with hs := some h }).counts = s.counts from hrel.frame .counts (by decide)]
  · rfl

theorem tickKept_beginHandshake (s : State) (b p epoch : Nat) (reset : Bool) : TickKept s (beginHandshake s b p epoch reset) :=
  .of_counting (rel_beginHandshake .refl fun _ h => h) (by decide) (by decide) (by decide) fun _ _ _ =>
    countBelow_beginHandshake (by omega) ..

theorem tickKept_startRekeys (s : State) : TickKept s (startRekeys s) := by
  unfold startRekeys
  refine .ite .refl ?_
  extract_lets -underBinder due
  split
  · exact .refl
  · extract_lets -underBinder e
    have hofs : ∀ f, TickKept s (modOfs s f) := fun f => .of_rel (rel_modOfs .refl fun _ h => h) (by decide) (by decide) (by decide) (by decide)
    exact (hofs _).trans (tickKept_beginHandshake ..)

theorem tickKept_coreWork (s : State) : TickKept s (coreWork s) := by
  unfold coreWork
  extract_lets -underBinder t u
  have hcensus : ∀ w b, TickKept w (censusSample w b) := fun w b =>
    .of_rel (rel_censusSample .refl fun _ h => h) (by decide) (by decide) (by decide) (by decide)
  have ht : TickKept s t := .fold (fun w b => .ite (hcensus w b) .refl) s _
  have hu : TickKept s u := .ite (ht.trans (tickKept_startRestart_zero t)) ht
  exact .ite (hu.trans (tickKept_startRekeys u)) hu

theorem tickKept_alwaysOn (s : State) : TickKept s (alwaysOn s) := by
  unfold alwaysOn
  extract_lets -underBinder t u v
  have ht : TickKept s t := .ite (tickKept_count s 1 (by decide)) .refl
  have hu : TickKept s u := .ite (ht.trans (tickKept_count t 1 (by decide))) ht
  have hv : TickKept s v := .ite (hu.trans (tickKept_wr u _ (by decide))) hu
  exact .ite (hv.trans ⟨rfl, rfl, fun _ _ => rfl, rfl, fun _ _ => rfl, fun _ _ _ => rfl⟩) hv

/-- The stages after L0's loop. -/
def tickRest (s : State) (i : TickInputs) : State :=
  let t := coreWork (ptpEdge (alwaysOn s) i)
  if t.pwr.asleep || inReset t 0x3F then t else sendTicks (slewTick t)

theorem tickKept_tickRest (s : State) (i : TickInputs) : TickKept s (tickRest s i) := by
  unfold tickRest
  extract_lets -underBinder t
  have hptp : ∀ u, TickKept u (ptpEdge u i) := fun u =>
    .of_rel (rel_ptpEdge .refl fun _ h => h) (by decide) (by decide) (by decide) (by decide)
  have ht : TickKept s t := ((tickKept_alwaysOn s).trans (hptp _)).trans (tickKept_coreWork _)
  exact .ite ht ((ht.trans (tickKept_slewTick t)).trans (tickKept_sendTicks _))

theorem rel_tickRest (s : State) (i : TickInputs) :
    Rel [.free, .tx, .regs, .counts, .banks, .icu, .num, .clf, .ofs, .eth, .lh, .pwr, .rst, .sec] s (tickRest s i) := by
  unfold tickRest
  extract_lets -underBinder t
  have ht : Rel [.free, .tx, .regs, .counts, .banks, .icu, .num, .clf, .ofs, .eth, .lh, .pwr, .rst, .sec] s t :=
    rel_coreWork (rel_ptpEdge (rel_alwaysOn .refl (by decide)) (by decide)) (by decide)
  exact iteP (P := Rel _ s) ht (rel_sendTicks (rel_slewTick ht (by decide)) (by decide))

/-! ### The edge of a core (R470–R472) -/

/-- The record of a running core at a tick edge: new work, or an over-run. -/
def edgeRecord (budget : Nat) (c : Core) : Core :=
  if c.busy then
    { c with late := true, overran := true, clean := 0, overruns := if c.overruns + 1 ≥ 3 then 0 else c.overruns + 1
             telem := if c.overruns + 1 ≥ 3 then min 6 (c.telem + 1) else c.telem }
  else
    let n := if c.used ≤ budget then c.clean + 1 else 0
    { c with busy := true, overran := false, overruns := 0, clean := if n ≥ 1000 then 0 else n, telem := if n ≥ 1000 then c.telem - 1 else c.telem }

theorem edgeRecord_restart (budget : Nat) (c : Core) : (edgeRecord budget c).restart = c.restart := by unfold edgeRecord; split <;> rfl

theorem edgeRecord_busy (budget : Nat) (c : Core) : (edgeRecord budget c).busy = true := by
  unfold edgeRecord
  split
  next h => exact h
  next => rfl

theorem edgeRecord_overrun {budget : Nat} {c : Core} (h : c.busy = true) : (edgeRecord budget c).late = true ∧ (edgeRecord budget c).overran = true ∧
    (edgeRecord budget c).telem = if c.overruns ≥ 2 then min 6 (c.telem + 1) else c.telem := by
  unfold edgeRecord
  rw [if_pos h]
  exact ⟨rfl, rfl, if_congr (by omega) rfl rfl⟩

theorem coreEdge_stopped {s : State} {k : Nat} (h : coreRuns s k = false) : coreEdge s k = s := by
  unfold coreEdge
  exact if_pos (by rw [h]; rfl)

/-- What the edge of a running core does to its record and to the counts of over-runs. -/
theorem coreEdge_runs {s : State} {k : Nat} (h : coreRuns s k = true) :
    (coreEdge s k).lh = (modCore s k (edgeRecord (rd s (TID_BUDGET_budget.at k)))).lh ∧
    RegsBut [TID_IRQ_STAT.off] s (coreEdge s k) ∧
    ∀ j, mgetD (coreEdge s k).counts j 0 = mgetD s.counts j 0 + if (coreOf s k).busy = true ∧ j = 0x0310 + k then 1 else 0 := by
  unfold coreEdge
  rw [if_neg (by rw [h]; decide)]
  extract_lets -underBinder c t n u m
  by_cases hb : c.busy = true
  · rw [if_pos hb]
    have hrecord : edgeRecord (rd s (TID_BUDGET_budget.at k)) c = { c with
        late := true, overran := true, clean := 0, overruns := if n ≥ 3 then 0 else n, telem := if n ≥ 3 then min 6 (c.telem + 1) else c.telem } := by
      unfold edgeRecord; exact if_pos hb
    have ht : t.lh = s.lh := (count_lh ..).trans (wrOr_lh ..)
    have hu : u.lh = s.lh := (apply_ite State.lh ..).trans ((ite_congr rfl (fun _ => (wrOr_lh t TID_IRQ_STAT_telem 1).trans ht) fun _ => ht).trans (ite_self _))
    have htr : RegsBut [TID_IRQ_STAT.off] s t := regsBut_trans (regsBut_wrOr s TID_IRQ_STAT_overrun 1) (regsBut_count _ _ _)
    have hur : RegsBut [TID_IRQ_STAT.off] s u := by
      unfold u
      split
      · exact regsBut_trans htr (regsBut_wrOr t TID_IRQ_STAT_telem 1)
      · exact htr
    have huc : u.counts = t.counts := (apply_ite State.counts ..).trans ((ite_congr rfl (fun _ => wrOr_counts t TID_IRQ_STAT_telem 1) fun _ => rfl).trans (ite_self _))
    refine ⟨?_, fun o ho => hur o ho, fun j => ?_⟩
    · unfold modCore coreOf
      rw [hu]
      exact congrArg (fun x => { s.lh with cores := mset s.lh.cores k x }) hrecord.symm
    · rw [modCore_counts, huc, counts_count, wrOr_counts]
      by_cases hj : j = 0x0310 + k
      · rw [if_pos hj, if_pos ⟨hb, hj⟩, hj]
        rfl
      · rw [if_neg hj, if_neg fun e => hj e.2]
        exact (BitVec.add_zero _).symm
  · rw [if_neg hb]
    have hrecord : edgeRecord (rd s (TID_BUDGET_budget.at k)) c = { c with
        busy := true, overran := false, overruns := 0, clean := if m ≥ 1000 then 0 else m, telem := if m ≥ 1000 then c.telem - 1 else c.telem } := by
      unfold edgeRecord; exact if_neg hb
    refine ⟨congrArg (fun x => { s.lh with cores := mset s.lh.cores k x }) hrecord.symm, regsBut_refl, fun j => ?_⟩
    rw [modCore_counts, if_neg fun e => hb e.1]
    exact (BitVec.add_zero _).symm

/-- What the edge of one core leaves: the tick, its running, and the records and counts of the others. -/
theorem coreEdge_leaves (s : State) (k : Nat) : RegsBut [TID_IRQ_STAT.off] s (coreEdge s k) ∧ { (coreEdge s k).lh with cores := s.lh.cores } = s.lh ∧
    (∀ j, coreRuns (coreEdge s k) j = coreRuns s j) ∧
    (∀ j, j ≠ k → coreOf (coreEdge s k) j = coreOf s j ∧ mgetD (coreEdge s k).counts (0x0310 + j) 0 = mgetD s.counts (0x0310 + j) 0) := by
  have hrel : Rel [.regs, .counts, .lh] s (coreEdge s k) := rel_coreEdge .refl fun _ h => h
  cases h : coreRuns s k with
  | false => rw [coreEdge_stopped h]; exact ⟨regsBut_refl, rfl, fun _ => rfl, fun _ _ => ⟨rfl, rfl⟩⟩
  | true =>
    obtain ⟨hlh, hregs, hcounts⟩ := coreEdge_runs h
    have hcore : ∀ j, coreOf (coreEdge s k) j = coreOf (modCore s k (edgeRecord (rd s (TID_BUDGET_budget.at k)))) j := coreOf_of_lh hlh
    refine ⟨hregs, by rw [hlh]; rfl, fun j => ?_, fun j hj => ⟨(hcore j).trans (coreOf_modCore_other s _ hj), ?_⟩⟩
    · refine coreRuns_congr (hrel.frame .rst (by decide)) (by rw [show (coreEdge s k).pwr = s.pwr from hrel.frame .pwr (by decide)]) ?_
      rw [hcore, coreOf_modCore]
      split
      next e => rw [edgeRecord_restart, e]
      next => rfl
    · rw [hcounts, if_neg fun e => hj (by omega)]
      exact BitVec.add_zero _

/-- A fold in which one operation occurs once: what it brings about, when the others keep what it starts from and what it brings about. -/
theorem foldS_once {α : Type} {f : State → α → State} {I Q : State → Prop} {a : α} (hI : ∀ t x, x ≠ a → I t → I (f t x))
    (hQ : ∀ t x, x ≠ a → Q t → Q (f t x)) (hset : ∀ t, I t → Q (f t a)) {l : List α} (hl : l.Nodup) (ha : a ∈ l) {s : State} (h : I s) :
    Q (foldS f s l) := by
  induction l generalizing s with
  | nil => cases ha
  | cons x l ih =>
    obtain ⟨hx, hl⟩ := List.nodup_cons.1 hl
    by_cases hxa : x = a
    · subst hxa
      have hrest : ∀ (m : List α) (t : State), x ∉ m → Q t → Q (foldS f t m) := fun m => by
        induction m with
        | nil => exact fun _ _ hq => hq
        | cons y m ihm => exact fun t hm hq => ihm _ (fun e => hm (List.mem_cons_of_mem _ e)) (hQ t y (fun e => hm (e ▸ List.mem_cons_self)) hq)
      exact hrest l _ hx (hset s h)
    · exact ih hl (List.mem_of_ne_of_mem (Ne.symm hxa) ha) (hI s x hxa h)

/-- The edges of the eight cores. -/
def coresTicked (s : State) : State := foldS coreEdge s (List.range 8)

theorem coresTicked_core (s : State) {k : Nat} (hk : k < 8) :
    ∃ budget, coreOf (coresTicked s) k = (if coreRuns s k = true then edgeRecord budget (coreOf s k) else coreOf s k) ∧
      mgetD (coresTicked s).counts (0x0310 + k) 0 =
        mgetD s.counts (0x0310 + k) 0 + if coreRuns s k = true ∧ (coreOf s k).busy = true then 1 else 0 := by
  refine foldS_once (f := coreEdge) (a := k)
    (I := fun t => coreOf t k = coreOf s k ∧ mgetD t.counts (0x0310 + k) 0 = mgetD s.counts (0x0310 + k) 0 ∧ coreRuns t k = coreRuns s k)
    (Q := fun t => ∃ budget, coreOf t k = (if coreRuns s k = true then edgeRecord budget (coreOf s k) else coreOf s k) ∧
      mgetD t.counts (0x0310 + k) 0 = mgetD s.counts (0x0310 + k) 0 + if coreRuns s k = true ∧ (coreOf s k).busy = true then 1 else 0)
    ?_ ?_ ?_ List.nodup_range (List.mem_range.2 hk) ⟨rfl, rfl, rfl⟩
  · intro t x hx ⟨hcore, hcount, hruns⟩
    obtain ⟨-, -, hr, hother⟩ := coreEdge_leaves t x
    obtain ⟨hc, hn⟩ := hother k (Ne.symm hx)
    exact ⟨hc.trans hcore, hn.trans hcount, (hr k).trans hruns⟩
  · intro t x hx ⟨budget, hcore, hcount⟩
    obtain ⟨-, -, -, hother⟩ := coreEdge_leaves t x
    obtain ⟨hc, hn⟩ := hother k (Ne.symm hx)
    exact ⟨budget, hc.trans hcore, hn.trans hcount⟩
  · intro t ⟨hcore, hcount, hruns⟩
    cases h : coreRuns s k with
    | false =>
      rw [coreEdge_stopped (hruns.trans h)]
      exact ⟨0, hcore.trans (if_neg (by decide)).symm, by rw [hcount, if_neg (by simp)]; exact (BitVec.add_zero _).symm⟩
    | true =>
      obtain ⟨hlh, -, hcounts⟩ := coreEdge_runs (hruns.trans h)
      refine ⟨rd t (TID_BUDGET_budget.at k), ?_, ?_⟩
      · rw [if_pos rfl, coreOf_of_lh hlh, coreOf_modCore_same, hcore]
      · rw [hcounts, hcore, hcount]
        simp

/-- What the edges of the cores leave of the rest. -/
theorem coresTicked_leaves (s : State) : Rel [.regs, .counts, .lh] s (coresTicked s) ∧ RegsBut [TID_IRQ_STAT.off] s (coresTicked s) ∧
    { (coresTicked s).lh with cores := s.lh.cores } = s.lh ∧ ∀ j, coreRuns (coresTicked s) j = coreRuns s j := by
  refine ⟨foldSP .refl (fun _ _ h => rel_coreEdge h fun _ h => h) _, regsBut_foldS (fun t k => (coreEdge_leaves t k).1) s _, ?_, fun j => ?_⟩
  · refine foldS_holds (P := fun t : State => { t.lh with cores := s.lh.cores } = s.lh) (fun t k h => ?_) rfl _
    rw [← (coreEdge_leaves t k).2.1] at h
    exact h
  · exact foldS_keeps (fun t => coreRuns t j) (fun t k => (coreEdge_leaves t k).2.2.1 j) s _

/-! ### Sensors and gating (R485, R490–R496) -/

/-- A change of the power conditions: what it gives, but for the notes of an emergency (R484, R502). -/
theorem condition_pwr (s : State) (f : Power → Power) : (condition s f).pwr = { f s.pwr with
    emergTick := (condition s f).pwr.emergTick, lastEmerg := (condition s f).pwr.lastEmerg, lastWatts := (condition s f).pwr.lastWatts
    lastTick := (condition s f).pwr.lastTick } := by
  unfold condition
  extract_lets -underBinder t
  split
  · unfold modPwr
    split <;> rfl
  · rfl

/-- The counter rises, and every limit by the tick starts afresh. -/
def tickRisen (s : State) : State :=
  let t := endClearTick s
  { t with lh := { t.lh with tick := t.lh.tick + 1, pwrReqs := 0 }, icu := { t.icu with rises := [] }, quay := { t.quay with unauth := [] } }

/-- The begin of a tick: counters and limits, then the sensors. -/
def tickBegun (s : State) (i : TickInputs) : State := readSensors (tickRisen s) i

theorem exec_tideTick (s : State) (i : TickInputs) : exec (.tideTick i) s = .next (tickRest (powerLoop (coresTicked (tickBegun s i)) i) i) := by
  show execTideTick i s = _
  unfold execTideTick tickRest coresTicked tickBegun tickRisen
  rfl

/-- The monitors' values in the registers, while the block has its clock. -/
def sensed (s : State) (i : TickInputs) : State :=
  if s.pwr.asleep || inReset s 0x3F then s
  else wrs s [(PWR_VIN_mv, min 65535 i.vinMv), (PWR_VIN_iin, min 65535 i.iin10mA), (PWR_PIN_watts, min 65535 i.watts),
    (PWR_TEMP_logic, min 255 i.logicC), (PWR_TEMP_hbm, min 255 i.hbmC), (PWR_TEMP_board, min 255 i.boardC)]

theorem rel_sensed (s : State) (i : TickInputs) : Rel [.regs] s (sensed s i) :=
  iteP (P := Rel [.regs] s) .refl (rel_wrs .refl fun _ h => h)

theorem rd_sensed (s : State) (i : TickInputs) : rd (sensed s i) PWR_GATE_g = rd s PWR_GATE_g ∧
    (s.pwr.asleep = false → inReset s 0x3F = false → rd (sensed s i) PWR_PIN_watts = min 65535 i.watts ∧
      rd (sensed s i) PWR_TEMP_board = min 255 i.boardC) := by
  unfold sensed
  cases h : s.pwr.asleep || inReset s 0x3F with
  | true =>
    refine ⟨rfl, fun hs hr => ?_⟩
    rw [hs, hr] at h
    cases h
  | false =>
    rw [if_neg (by decide)]
    simp (disch := decide) only [wrs, rd_wr_other, rd_wr_same]
    exact ⟨trivial, fun _ _ => ⟨Nat.mod_eq_of_lt (by show _ < 65536; omega), Nat.mod_eq_of_lt (by show _ < 256; omega)⟩⟩

/-- What the begin of a tick gives (R264, R484, R490). -/
theorem tickBegun_gives (s : State) (i : TickInputs) : (tickBegun s i).lh = { s.lh with tick := s.lh.tick + 1, pwrReqs := 0 } ∧
    (tickBegun s i).quay.unauth = [] ∧ (tickBegun s i).pwr.energy = s.pwr.energy + BitVec.ofNat 64 i.watts ∧
    (tickBegun s i).pwr.clear = (if s.pwr.emergTick = true ∨ emergency s = true then 0 else s.pwr.clear + 1) ∧
    (tickBegun s i).counts = s.counts ∧ (∀ k, coreRuns (tickBegun s i) k = coreRuns s k) ∧ rd (tickBegun s i) PWR_GATE_g = rd s PWR_GATE_g ∧
    (s.pwr.asleep = false → inReset s 0x3F = false → rd (tickBegun s i) PWR_PIN_watts = min 65535 i.watts ∧
      rd (tickBegun s i) PWR_TEMP_board = min 255 i.boardC) := by
  have hrel : Rel [.regs, .pwr] (tickRisen s) (tickBegun s i) := rel_readSensors .refl fun _ h => h
  obtain ⟨f, hf, henergy, hclear, hasleep⟩ : ∃ f, tickBegun s i = condition (sensed (tickRisen s) i) f ∧ (∀ p, (f p).energy = p.energy + BitVec.ofNat 64 i.watts) ∧
      (∀ p, (f p).clear = p.clear) ∧ ∀ p, (f p).asleep = p.asleep := ⟨_, rfl, fun _ => rfl, fun _ => rfl, fun _ => rfl⟩
  have hsensed : (sensed (tickRisen s) i).pwr = (tickRisen s).pwr := (rel_sensed (tickRisen s) i).frame .pwr (by decide)
  have hpwr := condition_pwr (sensed (tickRisen s) i) f
  rw [← hf, hsensed] at hpwr
  have hregs : ∀ g, rd (tickBegun s i) g = rd (sensed (tickRisen s) i) g := fun g => by
    rw [hf]
    exact rd_of_regsBut (offs := []) (regsBut_of_rel (rel_condition .refl fun _ h => h : Rel [.pwr] _ _) (by decide)) (by simp)
  obtain ⟨hgate, hmonitors⟩ := rd_sensed (tickRisen s) i
  have hlh : (tickBegun s i).lh = { s.lh with tick := s.lh.tick + 1, pwrReqs := 0 } := hrel.frame .lh (by decide)
  refine ⟨hlh, congrArg Quay.unauth (hrel.frame .quay (by decide)), ?_, ?_, ?_, fun k => ?_, (hregs _).trans hgate,
    fun hs hr => ⟨(hregs _).trans (hmonitors hs hr).1, (hregs _).trans (hmonitors hs hr).2⟩⟩
  · rw [hpwr]
    exact henergy (tickRisen s).pwr
  · rw [hpwr]
    refine (hclear (tickRisen s).pwr).trans (if_congr ?_ rfl rfl)
    rw [Bool.or_eq_true]
  · exact hrel.frame .counts (by decide)
  · refine coreRuns_congr (hrel.frame .rst (by decide)) ?_ (congrArg Core.restart ?_)
    · rw [hpwr]
      exact hasleep (tickRisen s).pwr
    · unfold coreOf
      rw [hlh]

/-- The gating that L0's firmware chooses, lowered by at most 4. -/
def gated (s : State) (i : TickInputs) : State := wr s PWR_GATE_g (if i.gate ≥ gL0 s then min 64 i.gate else max i.gate (gL0 s - 4))

theorem powerLoop_stopped {s : State} {i : TickInputs} (h : coreRuns s 0 = false) : powerLoop s i = s := by
  unfold powerLoop
  exact if_pos (by rw [h]; rfl)

theorem powerLoop_runs {s : State} {i : TickInputs} (h : coreRuns s 0 = true) : powerLoop s i =
    if i.watts > powerLimit (gated s i) then count (wrOr (gated s i) PWR_IRQ_STAT_cap 1) 0x0601 1 else gated s i := by
  unfold powerLoop
  exact if_neg (by rw [h]; decide)

/-- L0's loop: the gating that it sets, and what it leaves (R485). -/
theorem powerLoop_gives (s : State) (i : TickInputs) : (powerLoop s i).lh = s.lh ∧ (powerLoop s i).pwr = s.pwr ∧
    (powerLoop s i).quay = s.quay ∧ (∀ k, 0x0300 ≤ k → k < 0x0400 → mgetD (powerLoop s i).counts k 0 = mgetD s.counts k 0) ∧
    (∀ f : Fld, f.off ∉ [PWR_GATE.off, PWR_IRQ_STAT.off] → rd (powerLoop s i) f = rd s f) ∧
    (coreRuns s 0 = true → rd (powerLoop s i) PWR_GATE_g = if i.gate ≥ gL0 s then min 64 i.gate else max i.gate (gL0 s - 4)) := by
  have hrel : Rel [.regs, .counts] s (powerLoop s i) := rel_powerLoop .refl fun _ h => h
  refine ⟨hrel.frame .lh (by decide), hrel.frame .pwr (by decide), hrel.frame .quay (by decide), ?_⟩
  cases h : coreRuns s 0 with
  | false => rw [powerLoop_stopped h]; exact ⟨fun _ _ _ => rfl, fun _ _ => rfl, fun e => nomatch e⟩
  | true =>
    rw [powerLoop_runs h]
    have hcur : gL0 s ≤ 64 := Nat.min_le_left _ _
    have hgate : rd (gated s i) PWR_GATE_g = if i.gate ≥ gL0 s then min 64 i.gate else max i.gate (gL0 s - 4) :=
      rd_wr_fits (by decide) s (by show _ < 128; split <;> omega)
    have hregs : RegsBut [PWR_GATE.off, PWR_IRQ_STAT.off] s (gated s i) := regsBut_mono (regsBut_wr s PWR_GATE_g _) (by decide)
    have hkept : (gated s i).counts = s.counts := wr_counts ..
    have hcount : ∀ u n k, 0x0300 ≤ k → k < 0x0400 → mgetD (count u 0x0601 n).counts k 0 = mgetD u.counts k 0 := fun u n k _ _ => by
      rw [counts_count, if_neg (by omega)]
    split
    · refine ⟨fun k hlo hhi => (hcount _ 1 k hlo hhi).trans (by rw [wrOr_counts, hkept]), fun f hf => ?_, fun _ => ?_⟩
      · exact rd_of_regsBut (regsBut_trans (regsBut_trans hregs (regsBut_mono (regsBut_wrOr (gated s i) PWR_IRQ_STAT_cap 1) (by decide)))
          (regsBut_count _ 0x0601 1)) hf
      · rw [rd_of_regsBut (offs := []) (regsBut_count _ 0x0601 1) (by simp), rd_wrOr_other (by decide) (by decide), hgate]
    · exact ⟨fun k _ _ => by rw [hkept], fun f hf => rd_of_regsBut hregs hf, fun _ => hgate⟩

end Sys2Proof.Laws
end

section
/-!
SUPPORT. Tick work, watchdogs and restarts of the cores (R471–R475), the end of an activation (R477), and tick flits (R265, R266, R482).
-/
namespace Sys2Proof.Laws
open Sys2Proof Sys2Proof.Machine Sys2Proof.Safety

/-! ### The watchdog of a core expires (R473, R523) -/

/-- The watchdog of a core has counted TID_WDOG ticks without a TID_DONE. -/
abbrev WatchdogDue (s : State) (core : Nat) : Prop :=
  coreRuns s core = true ∧ (coreOf s core).expired = none ∧ (coreOf s core).waiting = false ∧ rd1 s TID_WDOG_ticks ≤ since s (coreOf s core).lastDone

/-- The core is marked. -/
def watchdogNoted (s : State) (core : Nat) : State :=
  modCore (wrOr s TID_WD_CAUSE_cores (2 ^ core)) core fun c => { c with expired := some s.lh.tick }

/-- Source 15 fires, and the error log holds the expiry. -/
def watchdogExpired (s : State) (core : Nat) : State :=
  logError (fireEdge (watchdogNoted s core) 15) (0x20 + core) 8 15 (BitVec.ofNat 64 core) 0xFF

theorem exec_coreWatchdogExpiry (s : State) (core : Nat) :
    exec (.coreWatchdogExpiry core) s = .next (if WatchdogDue s core then watchdogExpired s core else s) := by
  show execCoreWatchdogExpiry core s = _
  have hdue : (!coreRuns s core || (coreOf s core).expired.isSome || (coreOf s core).waiting ||
      decide (since s (coreOf s core).lastDone < rd1 s TID_WDOG_ticks)) = true ↔ ¬ WatchdogDue s core := by
    simp only [Bool.or_eq_true, Bool.not_eq_true', decide_eq_true_eq, ← Option.not_isNone, WatchdogDue]
    cases coreRuns s core <;> cases (coreOf s core).waiting <;> cases (coreOf s core).expired <;> simp
  unfold execCoreWatchdogExpiry
  refine congrArg Host.Outcome.next ?_
  by_cases h : WatchdogDue s core
  · exact (if_neg fun e => hdue.1 e h).trans (if_pos h).symm
  · exact (if_pos (hdue.2 h)).trans (if_neg h).symm

/-- A source that fires while the module is awake changes the interrupt controller alone (R449, R450). -/
theorem fireEdge_awake {s : State} (n : Nat) (h : s.pwr.asleep = false) : fireEdge s n = icuCount (setPending s n true) n := by
  unfold fireEdge beaconCatch
  exact if_neg (by rw [show (icuCount (setPending s n true) n).pwr = s.pwr from rfl, h]; simp)

theorem watchdogExpired_gives {s : State} {core : Nat} (hruns : coreRuns s core = true) :
    bit (rd (watchdogExpired s core) TID_WD_CAUSE_cores) core = true ∧ FiredEdge 15 s (watchdogExpired s core) ∧
      coreOf (watchdogExpired s core) core = { coreOf s core with expired := some s.lh.tick } ∧
      ∀ k, k ≠ core → coreOf (watchdogExpired s core) k = coreOf s k := by
  obtain ⟨hlt, -, hawake, -, -⟩ := coreRuns_iff.1 hruns
  set u := fireEdge (watchdogNoted s core) 15
  have hfire : u = icuCount (setPending (watchdogNoted s core) 15 true) 15 := fireEdge_awake 15 hawake
  have hrel : Rel [.regs, .rst] u (watchdogExpired s core) := rel_logError .refl fun _ h => h
  have hlh : (watchdogExpired s core).lh = (watchdogNoted s core).lh := (hrel.frame .lh (by decide)).trans (fireEdge_lh ..)
  refine ⟨?_, ?_, (coreOf_of_lh hlh core).trans (coreOf_modCore_same ..), fun k hk => (coreOf_of_lh hlh k).trans (coreOf_modCore_other _ _ hk)⟩
  · have hnoted : rd (watchdogNoted s core) TID_WD_CAUSE_cores = rd s TID_WD_CAUSE_cores ||| 2 ^ core :=
      (modCore_rd ..).trans (rd_wrOr_same (f := TID_WD_CAUSE_cores) (by decide) s (Nat.pow_lt_pow_right (by decide) hlt))
    have hlog : rd (watchdogExpired s core) TID_WD_CAUSE_cores = rd u TID_WD_CAUSE_cores :=
      rd_of_regsBut (regsBut_logError u (0x20 + core) 8 15 (BitVec.ofNat 64 core) 0xFF) (by decide)
    have hquiet : rd u TID_WD_CAUSE_cores = rd (watchdogNoted s core) TID_WD_CAUSE_cores := by
      rw [hfire]
      exact rd_of_regsBut (offs := []) (regsBut_of_rel (rel_icuCount (rel_setPending .refl fun _ h => h) fun _ h => h : Rel [.icu] _ _) (by decide)) (by simp)
    rw [hlog, hquiet, hnoted, bit_or_two_pow]
  · have hicu : (watchdogExpired s core).icu = u.icu := hrel.frame .icu (by decide)
    unfold FiredEdge
    rw [hicu, hfire, ← satAdd_eq_min]
    rfl

/-! ### Restarts (R474, R475) -/

/-- A write of TID_RESTART restarts core Lk. -/
abbrev RestartAsked (s : State) (w : CrsWrite) (k : Nat) : Prop :=
  bit (woBits s TID_RESTART_cores w) k = true ∧ (w.req = 6 ∨ (w.req = 1 ∧ k = 6)) ∧ ¬ (k = 0 ∧ emergency s = true)

/-- One core of a write of TID_RESTART, by the bits `m` written. -/
def restartOne (m : Nat) (w : CrsWrite) (s : State) (k : Nat) : State :=
  if bit m k && (w.req = 6 || (w.req = 1 && k = 6)) && !(k = 0 && emergency s) then startRestart s k else s

theorem writeTidRestart_eq (s : State) (w : CrsWrite) :
    writeTidRestart s w = foldS (restartOne (woBits s TID_RESTART_cores w) w) s (List.range 8) := rfl

theorem restartOne_asked {s t : State} {w : CrsWrite} {k : Nat} (he : emergency t = emergency s) :
    restartOne (woBits s TID_RESTART_cores w) w t k = if RestartAsked s w k then startRestart t k else t := by
  unfold restartOne
  refine if_congr ?_ rfl rfl
  rw [he]
  simp only [Bool.and_eq_true, Bool.or_eq_true, decide_eq_true_eq, Bool.not_eq_true', Bool.and_eq_false_imp, RestartAsked, and_assoc, not_and,
    Bool.not_eq_true]

theorem emergency_restartOne (m : Nat) (w : CrsWrite) (s : State) (k : Nat) : emergency (restartOne m w s k) = emergency s := by
  unfold restartOne
  split
  · exact emergency_startRestart s k
  · rfl

/-- What a write of TID_RESTART leaves of the cores that it does not restart. -/
theorem restartOne_other (m : Nat) (w : CrsWrite) (s : State) {k j : Nat} (h : j ≠ k) :
    coreOf (restartOne m w s k) j = coreOf s j ∧ mget (restartOne m w s k).banks j = mget s.banks j := by
  unfold restartOne
  split
  · exact ⟨(coreOf_startRestart ..).trans (if_neg h), (mget_banks_startRestart ..).trans (if_neg h)⟩
  · exact ⟨rfl, rfl⟩

theorem tick_restartOne (m : Nat) (w : CrsWrite) (s : State) (k : Nat) : (restartOne m w s k).lh.tick = s.lh.tick := by
  unfold restartOne
  split
  · exact tick_startRestart s k
  · rfl

theorem writeTidRestart_core (s : State) (w : CrsWrite) {k : Nat} (hk : k < 8) :
    coreOf (writeTidRestart s w) k = (if RestartAsked s w k then restarted s.lh.tick (coreOf s k) else coreOf s k) ∧
      mget (writeTidRestart s w).banks k = if RestartAsked s w k then none else mget s.banks k := by
  rw [writeTidRestart_eq]
  refine foldS_once (a := k)
    (I := fun t => coreOf t k = coreOf s k ∧ mget t.banks k = mget s.banks k ∧ t.lh.tick = s.lh.tick ∧ emergency t = emergency s)
    (Q := fun t => coreOf t k = (if RestartAsked s w k then restarted s.lh.tick (coreOf s k) else coreOf s k) ∧
      mget t.banks k = if RestartAsked s w k then none else mget s.banks k)
    ?_ ?_ ?_ List.nodup_range (List.mem_range.2 hk) ⟨rfl, rfl, rfl, rfl⟩
  · intro t x hx ⟨hcore, hbank, htick, he⟩
    obtain ⟨hc, hb⟩ := restartOne_other (woBits s TID_RESTART_cores w) w t (Ne.symm hx)
    exact ⟨hc.trans hcore, hb.trans hbank, (tick_restartOne ..).trans htick, (emergency_restartOne ..).trans he⟩
  · intro t x hx ⟨hcore, hbank⟩
    obtain ⟨hc, hb⟩ := restartOne_other (woBits s TID_RESTART_cores w) w t (Ne.symm hx)
    exact ⟨hc.trans hcore, hb.trans hbank⟩
  · intro t ⟨hcore, hbank, htick, he⟩
    rw [restartOne_asked he]
    by_cases h : RestartAsked s w k
    · rw [if_pos h, if_pos h, if_pos h, coreOf_startRestart, if_pos rfl, hcore, htick, mget_banks_startRestart, if_pos rfl]
      exact ⟨rfl, rfl⟩
    · rw [if_neg h, if_neg h, if_neg h]
      exact ⟨hcore, hbank⟩

/-- TID_WDOG ticks have passed since the expiry, and no restart has begun (R473). -/
abbrev FallbackDue (s : State) (core : Nat) : Prop :=
  core < 8 ∧ ((coreOf s core).expired.any fun at_ => rd1 s TID_WDOG_ticks ≤ since s at_) = true ∧ (coreOf s core).restart = none ∧
    (coreOf s core).waiting = false

theorem exec_coreRestartFallback (s : State) (core : Nat) :
    exec (.coreRestartFallback core) s = .next (if FallbackDue s core then dueRestart s core else s) := by
  show execCoreRestartFallback core s = _
  unfold execCoreRestartFallback
  refine congrArg Host.Outcome.next ?_
  split
  next at_ he =>
    refine if_congr ?_ rfl rfl
    simp only [FallbackDue, he, Option.any_some, Bool.and_eq_true, decide_eq_true_eq, Bool.not_eq_true', Option.isNone_iff_eq_none, ge_iff_le, and_assoc]
  next he => exact (if_neg fun h => by simp [FallbackDue, he] at h).symm

/-- What a core's restart that is due gives: it begins, or L0 waits (R473, R475). -/
theorem dueRestart_gives (s : State) (core : Nat) : (∀ k, k ≠ core → coreOf (dueRestart s core) k = coreOf s k) ∧
    (if core = 0 ∧ emergency s = true then coreOf (dueRestart s core) 0 = { coreOf s 0 with waiting := true }
      else coreOf (dueRestart s core) core = restarted s.lh.tick (coreOf s core) ∧ mget (dueRestart s core).banks core = none) := by
  unfold dueRestart
  by_cases h : core = 0 ∧ emergency s = true
  · rw [if_pos (by simpa using h), if_pos h]
    exact ⟨fun k hk => coreOf_modCore_other s _ (h.1 ▸ hk), coreOf_modCore_same ..⟩
  · rw [if_neg (by simpa using h), if_neg h]
    exact ⟨fun k hk => (coreOf_startRestart ..).trans (if_neg hk), (coreOf_startRestart ..).trans (if_pos rfl),
      (mget_banks_startRestart ..).trans (if_pos rfl)⟩

/-! ### A core runs again (R474, R477) -/

/-- The record of a core that runs again from a tick on. -/
def runsAgain (tick : W64) (c : Core) : Core := { c with restart := none, busy := false, late := false, lastDone := tick }

theorem countBelow_restartHandshakes {k : Nat} (hk : k < 0x1A00) (s : State) : mgetD (restartHandshakes s).counts k 0 = mgetD s.counts k 0 := by
  unfold restartHandshakes
  refine foldS_keeps (fun t => mgetD t.counts k 0) (fun t b => ?_) s _
  split
  · refine foldS_keeps (fun t => mgetD t.counts k 0) (fun u p => ?_) t _
    split
    · split
      · exact countBelow_beginHandshake hk ..
      · rfl
    · rfl
  · rfl

/-- An answered word leaves the block: nothing else of the block changes. -/
theorem frame_answerWord {s u : State} (h : Rel [.lh] s u) (n req off : Nat) : Frame [.tx, .lh] s (answerWord (u, n) req off) := fun p hp => by
  by_cases hc : p = .counts
  · subst hc
    exact h.frame .counts (by decide)
  · refine (rel_answerWord (h.widen (by decide)) (by decide) : Rel [.tx, .counts, .lh] s (answerWord (u, n) req off)).frame p fun hin => hp ?_
    simpa [hc] using hin

/-- The core's record, the status bit and the count of a core that runs again, before L7's handshakes. -/
def coreResumed (s : State) (k : Nat) : State :=
  count (wrOr (modCore s k (runsAgain s.lh.tick)) TID_IRQ_STAT_restart 1) (0x0320 + k) 1

theorem coreRunsAgain_eq (s : State) (k : Nat) :
    coreRunsAgain s k = if k = 7 then restartHandshakes (coreResumed s k) else coreResumed s k := rfl

theorem coreRunsAgain_gives (s : State) (k : Nat) : (coreRunsAgain s k).lh = (modCore s k (runsAgain s.lh.tick)).lh ∧
    rdb (coreRunsAgain s k) TID_IRQ_STAT_restart = true ∧
    mgetD (coreRunsAgain s k).counts (0x0320 + k) 0 = mgetD s.counts (0x0320 + k) 0 + 1 := by
  have hirq : rdb (coreResumed s k) TID_IRQ_STAT_restart = true := by
    unfold coreResumed
    rw [rdb_of_rd (count_rd ..)]
    exact rdb_wrOr_one (by decide) rfl _
  have hcount : mgetD (coreResumed s k).counts (0x0320 + k) 0 = mgetD s.counts (0x0320 + k) 0 + 1 := by
    unfold coreResumed
    rw [counts_count, if_pos rfl, wrOr_counts, modCore_counts]
    rfl
  rw [coreRunsAgain_eq]
  split
  · have hrel : Rel [.free, .tx, .counts, .ofs] (coreResumed s k) (restartHandshakes (coreResumed s k)) := rel_restartHandshakes .refl fun _ h => h
    refine ⟨hrel.frame .lh (by decide), ?_, (countBelow_restartHandshakes (by omega) _).trans hcount⟩
    rwa [rdb_of_rd (rd_of_regsBut (offs := []) (regsBut_of_rel hrel (by decide)) (by simp))]
  · exact ⟨rfl, hirq, hcount⟩

/-- During an activation the core that runs again hands on to the next, or ends it (R477). -/
def restartNext (s : State) (core : Nat) : State :=
  match s.lh.act with
  | some a =>
    (match a.left with
      | k :: rest =>
        if k ≠ core then s
        else match rest with
          | [] => endActivation s a
          | j :: _ => startRestart { s with lh := { s.lh with act := some { a with left := rest } } } j
      | [] => s)
  | none => s

theorem exec_coreRestartDone (s : State) (core : Nat) : exec (.coreRestartDone core) s =
    .next (if core < 8 ∧ (coreOf s core).restart.isSome = true then restartNext (coreRunsAgain s core) core else s) := by
  have hc : (decide (core ≥ 8) || (coreOf s core).restart.isNone) = true ↔ ¬ (core < 8 ∧ (coreOf s core).restart.isSome = true) := by
    cases (coreOf s core).restart <;> simp
  have hexec : exec (.coreRestartDone core) s =
      .next (if core ≥ 8 || (coreOf s core).restart.isNone then s else restartNext (coreRunsAgain s core) core) := rfl
  rw [hexec]
  by_cases h : core < 8 ∧ (coreOf s core).restart.isSome = true
  · rw [if_pos h, if_neg fun e => hc.1 e h]
  · rw [if_neg h, if_pos (hc.2 h)]

theorem restartNext_idle {s : State} {core : Nat} (h : s.lh.act = none) : restartNext s core = s := by
  unfold restartNext
  simp only [h]

theorem restartNext_last {s : State} {core : Nat} {a : Activation} (h : s.lh.act = some a) (hl : a.left = [core]) :
    restartNext s core = endActivation s a := by
  unfold restartNext
  simp only [h, hl, ne_eq, not_true_eq_false, if_false]

theorem restartNext_next {s : State} {core j : Nat} {a : Activation} {l : List Nat} (h : s.lh.act = some a) (hl : a.left = core :: j :: l) :
    restartNext s core = startRestart { s with lh := { s.lh with act := some { a with left := j :: l } } } j := by
  unfold restartNext
  simp only [h, hl, ne_eq, not_true_eq_false, if_false]

/-- What the end of an activation gives: the new image runs (R477, R480). -/
theorem endActivation_gives (s : State) (a : Activation) : (endActivation s a).lh = { s.lh with act := none } ∧
    (endActivation s a).sec.image = a.image ∧ (endActivation s a).sec.header = imageHeader s a.image ∧ (endActivation s a).sec.ranFor = 0 := by
  set r := runImage (dropActivation s) a.image
  set u := finish r a.berth 0x0A02 a.seq 0 0 []
  have hfinish : Rel [.tx, .counts, .quay] r u := rel_finish .refl fun _ h => h
  have hclose : ∀ v b, (closeBerth v b true).lh = v.lh ∧ (closeBerth v b true).sec = v.sec := fun v b => by
    have hrel : Rel _ v (closeBerth v b true) := rel_closeBerth .refl fun _ h => h
    exact ⟨hrel.frame .lh (by decide), hrel.frame .sec (by decide)⟩
  have hfold : (foldS (fun v b => closeBerth v b true) u berths).lh = u.lh ∧ (foldS (fun v b => closeBerth v b true) u berths).sec = u.sec :=
    ⟨foldS_keeps State.lh (fun v b => (hclose v b).1) u _, foldS_keeps State.sec (fun v b => (hclose v b).2) u _⟩
  have hend : (endActivation s a).lh = u.lh ∧ (endActivation s a).sec = u.sec := by
    unfold endActivation
    extract_lets -underBinder old
    split
    · exact hfold
    · exact ⟨rfl, rfl⟩
  obtain ⟨hlh, hsec⟩ := hend
  have hlh' : u.lh = r.lh := hfinish.frame .lh (by decide)
  have hsec' : u.sec = r.sec := hfinish.frame .sec (by decide)
  rw [hsec, hsec', hlh, hlh']
  exact ⟨rfl, rfl, rfl, rfl⟩

/-! ### Tick flits (R265, R266, R482) -/

theorem rdb_wr_one {f : Fld} (h : f.hi < 32) (hb : f.hi = f.lo) (s : State) : rdb (wr s f 1) f = true := by
  have hv : 1 < 2 ^ (f.hi + 1 - f.lo) := by rw [show f.hi + 1 - f.lo = 1 by omega]; decide
  unfold rdb
  rw [rd_wr_fits h s hv]
  rfl

theorem rdb_wr_zero {f : Fld} (h : f.hi < 32) (s : State) : rdb (wr s f 0) f = false := by
  unfold rdb
  rw [rd_wr_fits h s (Nat.two_pow_pos _)]
  rfl

/-- A correction of the edge leaves at most 10 ns beyond what it applies (R266). -/
theorem applySlew_slew (s : State) (e : Int) : -1000 ≤ e - (applySlew s e).clf.slew ∧ e - (applySlew s e).clf.slew ≤ 1000 := by
  have hslew : (applySlew s e).clf.slew = e - (if e > 1000 then 1000 else if e < -1000 then -1000 else e) := rfl
  rw [hslew]
  split
  · omega
  · split <;> omega

theorem regsBut_applySlew (s : State) (e : Int) : RegsBut [CLF_TICK.off] s (applySlew s e) :=
  regsBut_wr s CLF_TICK_offset _

/-- The correction that a tick flit asks for: the edge's error, less link delay and residence. -/
def tickError (s : State) (port ps : Nat) (e : Int) : Int := e - ((rd s (CLF_LAT_ps.at port) + ps) / 10 : Nat)

/-- The counter is raised to a higher count (R482). -/
def tickRaised (s : State) (n : W64) : State := if n.toNat > now s then { s with lh := { s.lh with tick := n } } else s

/-- The edge is realigned, and the tick is locked. -/
def tickLocked (s : State) (e : Int) : State := wr (applySlew s e) CLF_TICK_locked 1

/-- A tick flit of the upstream port is taken. -/
def tickTaken (s : State) (port : Nat) (n : W64) (ps : Nat) (e : Int) : State :=
  modClf (tickRaised (tickLocked s (tickError s port ps e)) n) fun c =>
    { c with lastTick := (tickRaised (tickLocked s (tickError s port ps e)) n).lh.tick }

theorem exec_tickFlitReceive (s : State) (port : Nat) (n : W64) (ps : Nat) (e : Int) : exec (.tickFlitReceive port n ps e) s = .next
    (if usable s port = true ∧ discovered s = true ∧ rdb s CLF_COORD_anchor = false ∧ rd s CLF_TICK_upstream = port then tickTaken s port n ps e
      else s) := by
  show execTickFlitReceive port n ps e s = _
  unfold execTickFlitReceive
  refine congrArg Host.Outcome.next ?_
  have hc : (!usable s port || !discovered s || rdb s CLF_COORD_anchor || decide (rd s CLF_TICK_upstream ≠ port)) = true ↔
      ¬ (usable s port = true ∧ discovered s = true ∧ rdb s CLF_COORD_anchor = false ∧ rd s CLF_TICK_upstream = port) := by
    simp only [Bool.or_eq_true, Bool.not_eq_true', decide_eq_true_eq]
    cases usable s port <;> cases discovered s <;> cases rdb s CLF_COORD_anchor <;> simp
  by_cases h : usable s port = true ∧ discovered s = true ∧ rdb s CLF_COORD_anchor = false ∧ rd s CLF_TICK_upstream = port
  · exact (if_neg fun x => hc.1 x h).trans (if_pos h).symm
  · exact (if_pos (hc.2 h)).trans (if_neg h).symm

theorem tickTaken_gives (s : State) (port : Nat) (n : W64) (ps : Nat) (e : Int) : Frame [.regs, .clf, .lh] s (tickTaken s port n ps e) ∧
    RegsBut [CLF_TICK.off] s (tickTaken s port n ps e) ∧ rdb (tickTaken s port n ps e) CLF_TICK_locked = true ∧
    (tickTaken s port n ps e).lh = { s.lh with tick := if s.lh.tick < n then n else s.lh.tick } ∧
    (tickTaken s port n ps e).clf.lastTick = (tickTaken s port n ps e).lh.tick ∧
    (tickTaken s port n ps e).clf.slew = (applySlew s (tickError s port ps e)).clf.slew := by
  set t := tickLocked s (tickError s port ps e) with ht
  have hrel : Rel [.regs, .clf, .lh] s t := rel_wr (rel_applySlew .refl (by decide)) (by decide)
  have hregs : RegsBut [CLF_TICK.off] s t := regsBut_trans (regsBut_applySlew _ _) (regsBut_wr _ CLF_TICK_locked 1)
  have hlocked : rdb t CLF_TICK_locked = true := rdb_wr_one (by decide) rfl _
  have hlh : t.lh = s.lh := wr_lh ..
  have hslew : t.clf.slew = (applySlew s (tickError s port ps e)).clf.slew := congrArg Cliff.slew (wr_clf ..)
  have hlt : n.toNat > now t ↔ s.lh.tick < n := by
    unfold now
    rw [hlh, BitVec.lt_def]
  unfold tickTaken
  rw [← ht]
  by_cases h : s.lh.tick < n
  · have hu : tickRaised t n = { t with lh := { t.lh with tick := n } } := if_pos (hlt.2 h)
    rw [hu, if_pos h]
    exact ⟨(rel_modClf (rel_lh hrel (by decide)) (by decide)).frame, hregs, hlocked, by rw [← hlh]; rfl, rfl, hslew⟩
  · have hu : tickRaised t n = t := if_neg fun x => h (hlt.1 x)
    rw [hu, if_neg h]
    exact ⟨(rel_modClf hrel (by decide)).frame, hregs, hlocked, hlh, rfl, hslew⟩

/-- The lock is dropped, and the loss noted. -/
def tickUnlocked (s : State) : State := wr (wrOr s CLF_IRQ_STAT_tick_lost 1) CLF_TICK_locked 0

/-- Three ticks without a tick flit: the lock is dropped, and the next nearer port is upstream. -/
def tickLost (s : State) : State :=
  match nearerPorts (tickUnlocked s) (rd (tickUnlocked s) CLF_TICK_upstream) with
  | p :: _ => modClf (wr (tickUnlocked s) CLF_TICK_upstream p) fun c => { c with lastTick := (tickUnlocked s).lh.tick }
  | [] => tickUnlocked s

theorem exec_tickHoldover (s : State) : exec .tickHoldover s = .next
    (if discovered s = true ∧ rdb s CLF_COORD_anchor = false ∧ 3 ≤ since s s.clf.lastTick then tickLost s else s) := by
  show execTickHoldover s = _
  unfold execTickHoldover
  refine congrArg Host.Outcome.next ?_
  have hc : (!discovered s || rdb s CLF_COORD_anchor || decide (since s s.clf.lastTick < 3)) = true ↔
      ¬ (discovered s = true ∧ rdb s CLF_COORD_anchor = false ∧ 3 ≤ since s s.clf.lastTick) := by
    simp only [Bool.or_eq_true, Bool.not_eq_true', decide_eq_true_eq]
    cases discovered s <;> cases rdb s CLF_COORD_anchor <;> simp
  by_cases h : discovered s = true ∧ rdb s CLF_COORD_anchor = false ∧ 3 ≤ since s s.clf.lastTick
  · exact (if_neg fun x => hc.1 x h).trans (if_pos h).symm
  · exact (if_pos (hc.2 h)).trans (if_neg h).symm

theorem nearerPorts_usable {s : State} {cur p : Nat} (h : p ∈ nearerPorts s cur) : usable s p = true := by
  unfold nearerPorts at h
  have hp := (List.mem_filter.1 h).2
  simp only [Bool.and_eq_true] at hp
  exact hp.1.1

/-- What a port is nearer to rests on the coordinates and the ports alone. -/
theorem nearerPorts_of_regsBut {offs : List Nat} {s t : State} (h : RegsBut offs s t) (ho : OffPorts offs) (hc : CLF_COORD.off ∉ offs)
    (hd : CLF_DIMS.off ∉ offs) (hv : t.variant = s.variant) (cur : Nat) : nearerPorts t cur = nearerPorts s cur := by
  have hsize : dimSize t = dimSize s := funext fun d => by
    unfold dimSize
    rw [rd_of_regsBut h (f := CLF_DIMS_sx) hd, rd_of_regsBut h (f := CLF_DIMS_sy) hd, rd_of_regsBut h (f := CLF_DIMS_sz) hd]
  unfold nearerPorts
  rw [hsize, ownId_of_regsBut h hc, funext (usable_of_regsBut h ho hv)]

theorem tickUnlocked_gives (s : State) : Frame [.regs] s (tickUnlocked s) ∧
    RegsBut [CLF_TICK.off, CLF_IRQ_STAT_tick_lost.off] s (tickUnlocked s) ∧ rdb (tickUnlocked s) CLF_IRQ_STAT_tick_lost = true ∧
    rdb (tickUnlocked s) CLF_TICK_locked = false ∧ rd (tickUnlocked s) CLF_TICK_upstream = rd s CLF_TICK_upstream := by
  unfold tickUnlocked
  refine ⟨(rel_wr (rel_wrOr .refl fun _ h => h) fun _ h => h).frame, ?_, ?_, ?_, ?_⟩
  · exact regsBut_trans (regsBut_mono (regsBut_wrOr s CLF_IRQ_STAT_tick_lost 1) (by decide)) (regsBut_mono (regsBut_wr _ CLF_TICK_locked 0) (by decide))
  · rw [rdb_of_rd (rd_wr_other (f := CLF_TICK_locked) (by decide) (by decide) _ _)]
    exact rdb_wrOr_one (by decide) rfl _
  · exact rdb_wr_zero (by decide) _
  · rw [rd_wr_other (f := CLF_TICK_locked) (by decide) (by decide), rd_wrOr_other (f := CLF_IRQ_STAT_tick_lost) (by decide) (by decide)]

theorem tickLost_gives (s : State) : Frame [.regs, .clf] s (tickLost s) ∧
    RegsBut [CLF_TICK.off, CLF_IRQ_STAT_tick_lost.off] s (tickLost s) ∧ rdb (tickLost s) CLF_IRQ_STAT_tick_lost = true ∧
    rdb (tickLost s) CLF_TICK_locked = false ∧
    (rd (tickLost s) CLF_TICK_upstream = rd s CLF_TICK_upstream ∨ usable s (rd (tickLost s) CLF_TICK_upstream) = true) ∧
    (tickLost s).clf = if (nearerPorts s (rd s CLF_TICK_upstream)).isEmpty then s.clf else { s.clf with lastTick := s.lh.tick } := by
  obtain ⟨hframe, hregs, hirq, hlock, hup⟩ := tickUnlocked_gives s
  have hnear : nearerPorts (tickUnlocked s) (rd (tickUnlocked s) CLF_TICK_upstream) = nearerPorts s (rd s CLF_TICK_upstream) := by
    rw [hup]
    exact nearerPorts_of_regsBut hregs (by decide) (by decide) (by decide) rfl _
  unfold tickLost
  rw [hnear]
  cases hl : nearerPorts s (rd s CLF_TICK_upstream) with
  | nil => exact ⟨frame_mono hframe (by decide), hregs, hirq, hlock, .inl hup, rfl⟩
  | cons p l =>
    have hp : usable s p = true := nearerPorts_usable (hl ▸ List.mem_cons_self)
    have hto : rd (wr (tickUnlocked s) CLF_TICK_upstream p) CLF_TICK_upstream = p :=
      rd_wr_fits (by decide) _ (Nat.lt_trans (usable_lt hp) (by decide))
    have hwr : Frame [.regs, .clf] (tickUnlocked s) (modClf (wr (tickUnlocked s) CLF_TICK_upstream p) fun c => { c with lastTick := (tickUnlocked s).lh.tick }) :=
      (rel_modClf (rel_wr .refl (by decide)) (by decide)).frame
    refine ⟨fun p hp => Part.same_trans (frame_mono hframe (by decide) p hp) (hwr p hp), ?_, ?_, ?_, .inr ?_, rfl⟩
    · exact regsBut_trans hregs (regsBut_mono (regsBut_wr (tickUnlocked s) CLF_TICK_upstream p) (by decide))
    · exact (rdb_of_rd (rd_wr_other (f := CLF_TICK_upstream) (by decide) (by decide) (tickUnlocked s) p)).trans hirq
    · exact (rdb_of_rd (rd_wr_other (f := CLF_TICK_upstream) (by decide) (by decide) (tickUnlocked s) p)).trans hlock
    · exact (congrArg (usable s ·) hto).trans hp

end Sys2Proof.Laws
end

section
/-!
PROOFS. The tide tick, tick work, watchdogs and restarts of the cores, and tick flits (R264–R266, R470–R482).
-/
namespace Sys2Proof.Proofs
open Sys2Proof Sys2Proof.Machine Sys2Proof.Safety Sys2Proof.Laws

/-! ### Each clause -/

/-- What a tick gives each core but L0 (R470–R472). -/
theorem tideTick_core (s : State) (i : TickInputs) {t : State} (ht : t = tickRest (powerLoop (coresTicked (tickBegun s i)) i) i) {k : Nat} (hk : k < 8)
    (hpos : 0 < k) :
    if coreRuns s k = false then coreOf t k = coreOf s k
    else (coreOf t k).busy = true ∧ ((coreOf s k).busy = true → (coreOf t k).late = true ∧ (coreOf t k).overran = true ∧
      mgetD t.counts (0x0310 + k) 0 = mgetD s.counts (0x0310 + k) 0 + 1 ∧
      (coreOf t k).telem = if (coreOf s k).overruns ≥ 2 then min 6 ((coreOf s k).telem + 1) else (coreOf s k).telem) := by
  have hrest : TickKept (powerLoop (coresTicked (tickBegun s i)) i) t := ht ▸ tickKept_tickRest _ i
  obtain ⟨hlhP, -, -, hcountP, -⟩ := powerLoop_gives (coresTicked (tickBegun s i)) i
  obtain ⟨hlhB, -, -, -, hcountB, hrunsB, -⟩ := tickBegun_gives s i
  obtain ⟨budget, hcore, hcount⟩ := coresTicked_core (tickBegun s i) hk
  have hbegun : coreOf (tickBegun s i) k = coreOf s k := by unfold coreOf; rw [hlhB]
  rw [hbegun, hrunsB] at hcore hcount
  rw [hcountB] at hcount
  have hend : coreOf t k = coreOf (coresTicked (tickBegun s i)) k := (hrest.cores k (by omega)).trans (coreOf_of_lh hlhP k)
  have hcounted : mgetD t.counts (0x0310 + k) 0 = mgetD (coresTicked (tickBegun s i)).counts (0x0310 + k) 0 :=
    (hrest.counts _ (by omega) (by omega)).trans (hcountP _ (by omega) (by omega))
  rw [hend, hcounted, hcore, hcount]
  cases coreRuns s k with
  | false => rw [if_pos rfl, if_neg (by decide)]
  | true =>
    rw [if_neg (by decide), if_pos rfl]
    refine ⟨edgeRecord_busy _ _, fun hbusy => ?_⟩
    obtain ⟨hlate, hoverran, htelem⟩ := edgeRecord_overrun (budget := budget) hbusy
    exact ⟨hlate, hoverran, by rw [if_pos ⟨rfl, hbusy⟩], htelem⟩

theorem tideTick_gives (s : State) (i : TickInputs) :
    ∃ t, exec (.tideTick i) s = .next t ∧ Frame (footprint (.tideTick i)) s t ∧
      t.lh.tick = s.lh.tick + 1 ∧ t.lh.pwrReqs = 0 ∧ t.quay.unauth = [] ∧ t.pwr.energy = s.pwr.energy + BitVec.ofNat 64 i.watts ∧
      t.pwr.clear = (if s.pwr.emergTick = true ∨ emergency s = true then 0 else s.pwr.clear + 1) ∧
      (s.pwr.asleep = false → inReset s 0x3F = false → rd t PWR_PIN_watts = min 65535 i.watts ∧ rd t PWR_TEMP_board = min 255 i.boardC) ∧
      (coreRuns s 0 = true → rd t PWR_GATE_g = if i.gate ≥ gL0 s then min 64 i.gate else max i.gate (gL0 s - 4)) ∧
      (∀ k, k < 8 → 0 < k →
        if coreRuns s k = false then coreOf t k = coreOf s k
        else (coreOf t k).busy = true ∧ ((coreOf s k).busy = true → (coreOf t k).late = true ∧ (coreOf t k).overran = true ∧
          mgetD t.counts (0x0310 + k) 0 = mgetD s.counts (0x0310 + k) 0 + 1 ∧
          (coreOf t k).telem = if (coreOf s k).overruns ≥ 2 then min 6 ((coreOf s k).telem + 1) else (coreOf s k).telem)) := by
  have hexec := exec_tideTick s i
  have hrest := tickKept_tickRest (powerLoop (coresTicked (tickBegun s i)) i) i
  have hrel := rel_tickRest (powerLoop (coresTicked (tickBegun s i)) i) i
  obtain ⟨hlhP, hpwrP, hquayP, -, hrdP, hgateP⟩ := powerLoop_gives (coresTicked (tickBegun s i)) i
  obtain ⟨hrelC, hregsC, hlhC, hrunsC⟩ := coresTicked_leaves (tickBegun s i)
  obtain ⟨hlhB, hunauth, henergy, hclear, -, hrunsB, hgateB, hmonitors⟩ := tickBegun_gives s i
  have hpwrC : (coresTicked (tickBegun s i)).pwr = (tickBegun s i).pwr := hrelC.frame .pwr (by decide)
  have hquayC : (coresTicked (tickBegun s i)).quay = (tickBegun s i).quay := hrelC.frame .quay (by decide)
  have hgate : gL0 (coresTicked (tickBegun s i)) = gL0 s := by
    unfold gL0
    rw [rd_of_regsBut hregsC (by decide), hgateB]
  have hread : ∀ f : Fld, TickReg f.off → f.off ∉ [PWR_GATE.off, PWR_IRQ_STAT.off] → f.off ∉ [TID_IRQ_STAT.off] →
      rd (tickRest (powerLoop (coresTicked (tickBegun s i)) i) i) f = rd (tickBegun s i) f := fun f hf hp hc =>
    (hrest.rd hf).trans ((hrdP f hp).trans (rd_of_regsBut hregsC hc))
  refine ⟨_, hexec, (rel_of_exec hexec).frame, ?_, ?_, ?_, ?_, ?_, fun hs hr => ?_, fun h0 => ?_, fun k hk hpos => tideTick_core s i rfl hk hpos⟩
  · rw [hrest.tick, hlhP]
    exact (congrArg Lighthouse.tick hlhC).trans (congrArg Lighthouse.tick hlhB)
  · rw [hrest.reqs, hlhP]
    exact (congrArg Lighthouse.pwrReqs hlhC).trans (congrArg Lighthouse.pwrReqs hlhB)
  · rw [show (tickRest (powerLoop (coresTicked (tickBegun s i)) i) i).quay = _ from hrel.frame .quay (by decide), hquayP, hquayC, hunauth]
  · rw [hrest.power, hpwrP, hpwrC]
    exact henergy
  · rw [hrest.power, hpwrP, hpwrC]
    exact hclear
  · obtain ⟨hwatts, hboard⟩ := hmonitors hs hr
    exact ⟨(hread _ (by decide) (by decide) (by decide)).trans hwatts, (hread _ (by decide) (by decide) (by decide)).trans hboard⟩
  · rw [hrest.rd (by decide), hgateP ((hrunsC 0).trans ((hrunsB 0).trans h0)), hgate]

theorem coreTickDone_gives (s : State) (w : CrsWrite) (used : Nat) :
    ∃ t, exec (.coreTickDone w used) s = .next t ∧ Frame [.lh] s t ∧ { t.lh with cores := s.lh.cores } = s.lh ∧
      if w.req < 8 ∧ woBits s TID_DONE_done w ≠ 0 ∧ coreRuns s w.req = true then
        (∀ k, k < 8 → k ≠ w.req → coreOf t k = coreOf s k) ∧ (coreOf t w.req).lastDone = s.lh.tick ∧
        ((coreOf s w.req).busy = true → (coreOf t w.req).used = min 65535 used ∧ (coreOf t w.req).peak = max (coreOf s w.req).peak (min 65535 used) ∧
          (coreOf t w.req).busy = (coreOf s w.req).late ∧ (coreOf t w.req).late = false)
      else t = s := by
  refine ⟨writeTidDone s w used, rfl, (rel_writeTidDone .refl fun _ h => h).frame, ?_⟩
  unfold writeTidDone
  by_cases h : w.req < 8 ∧ woBits s TID_DONE_done w ≠ 0 ∧ coreRuns s w.req = true
  · rw [if_pos h, if_pos (by simpa [and_assoc] using h)]
    unfold endTickWork
    refine ⟨rfl, fun k _ hk => coreOf_modCore_other _ _ hk, ?_⟩
    rw [coreOf_modCore_same]
    cases hb : (coreOf s w.req).busy with
    | false => exact ⟨rfl, fun e => nomatch e⟩
    | true => exact ⟨rfl, fun _ => ⟨rfl, rfl, rfl, rfl⟩⟩
  · rw [if_neg h, if_neg (by simpa [and_assoc] using h)]
    exact ⟨rfl, rfl⟩

theorem tidUsedRead_gives (s : State) (req core : Nat) (al : Alias) (hcore : core < 8) :
    ∃ t, exec (.tidUsedRead req core al) s = .next t ∧ Frame [.tx, .lh] s t ∧
      t.tx = .words req (TID_USED.off + 4 * core) [BitVec.ofNat 32 ((coreOf s core).used + 65536 * (coreOf s core).peak)] :: s.tx ∧
      (if al = .plain then coreOf t core = { coreOf s core with peak := 0 } else t.lh = s.lh) := by
  have hexec : exec (.tidUsedRead req core al) s = .next (answerWord (tidUsedRead s al core) req (TID_USED.off + 4 * core)) :=
    congrArg Host.Outcome.next (if_pos hcore)
  refine ⟨_, hexec, ?_⟩
  by_cases h : al = .plain
  · have hread : tidUsedRead s al core =
        (modCore s core fun c => { c with peak := 0 }, (coreOf s core).used + 65536 * (coreOf s core).peak) := by
      unfold tidUsedRead
      exact Prod.ext (if_pos h) rfl
    rw [hread, if_pos h]
    exact ⟨frame_answerWord (rel_modCore .refl fun _ h => h) _ req _, rfl,
      (coreOf_of_lh (s := modCore s core fun c => { c with peak := 0 }) rfl core).trans (coreOf_modCore_same s core _)⟩
  · have hread : tidUsedRead s al core = (s, (coreOf s core).used + 65536 * (coreOf s core).peak) := by
      unfold tidUsedRead
      exact Prod.ext (if_neg h) rfl
    rw [hread, if_neg h]
    exact ⟨frame_answerWord .refl _ req _, rfl, rfl⟩

section activation
variable {s : State} {a : Activation} {core : Nat} (ha : s.lh.act = some a) (hc : core < 8) (hr : (coreOf s core).restart.isSome = true)

theorem coreRunsAgain_act (hact : s.lh.act = some a) : (coreRunsAgain s core).lh.act = some a := by
  rw [(coreRunsAgain_gives s core).1]
  exact hact

theorem coreOf_coreRunsAgain : coreOf (coreRunsAgain s core) core = runsAgain s.lh.tick (coreOf s core) :=
  (coreOf_of_lh (coreRunsAgain_gives s core).1 core).trans (coreOf_modCore_same ..)

include hc hr in
theorem exec_coreRestartDone_due : exec (.coreRestartDone core) s = .next (restartNext (coreRunsAgain s core) core) := by
  rw [exec_coreRestartDone, if_pos ⟨hc, hr⟩]

include ha hc hr

/-- The last core of an activation runs again: the new image runs (R477). -/
theorem coreRestartDone_last (hl : a.left = [core]) : ∃ t, exec (.coreRestartDone core) s = .next t ∧ (coreOf t core).restart = none ∧
    t.lh.act = none ∧ t.sec.image = a.image ∧ t.sec.header = imageHeader s a.image ∧ t.sec.ranFor = 0 := by
  have hexec := exec_coreRestartDone_due hc hr
  rw [restartNext_last (coreRunsAgain_act ha) hl] at hexec
  obtain ⟨hend, himage, hheader, hran⟩ := endActivation_gives (coreRunsAgain s core) a
  have hkept : coreOf (endActivation (coreRunsAgain s core) a) core = coreOf (coreRunsAgain s core) core := by unfold coreOf; rw [hend]
  have hrel : Rel [.free, .tx, .regs, .counts, .ofs, .lh] s (coreRunsAgain s core) := rel_coreRunsAgain .refl fun _ h => h
  have hflash : imageHeader (coreRunsAgain s core) a.image = imageHeader s a.image := by
    unfold imageHeader flashBytes flashByte
    rw [show (coreRunsAgain s core).edge = s.edge from hrel.frame .edge (by decide)]
  exact ⟨_, hexec, by rw [hkept, coreOf_coreRunsAgain]; rfl, by rw [hend], himage, hheader.trans hflash, hran⟩

/-- Another core of the activation follows (R474, R477). -/
theorem coreRestartDone_next {j : Nat} {l : List Nat} (hl : a.left = core :: j :: l) : ∃ t, exec (.coreRestartDone core) s = .next t ∧
    (coreOf t core).restart = (if some j = some core then some s.lh.tick else none) ∧ t.lh.act = some { a with left := j :: l } ∧
    (coreOf t j).restart = some s.lh.tick ∧ t.sec = s.sec := by
  have hexec := exec_coreRestartDone_due hc hr
  rw [restartNext_next (coreRunsAgain_act ha) hl] at hexec
  have hrel : Rel [.free, .tx, .regs, .counts, .ofs, .lh] s (coreRunsAgain s core) := rel_coreRunsAgain .refl fun _ h => h
  set u : State := { coreRunsAgain s core with lh := { (coreRunsAgain s core).lh with act := some { a with left := j :: l } } }
  have htick : u.lh.tick = s.lh.tick := by
    show (coreRunsAgain s core).lh.tick = s.lh.tick
    rw [(coreRunsAgain_gives s core).1]
    rfl
  have hsec : (startRestart u j).sec = u.sec := (rel_startRestart .refl fun _ h => h : Rel _ u (startRestart u j)).frame .sec (by decide)
  refine ⟨_, hexec, ?_, act_startRestart u j, ?_, hsec.trans (hrel.frame .sec (by decide))⟩
  · rw [coreOf_startRestart]
    by_cases hj : core = j
    · rw [if_pos hj, if_pos (congrArg some hj.symm), htick]
      rfl
    · rw [if_neg hj, if_neg fun e => hj (Option.some.inj e).symm]
      exact congrArg Core.restart (coreOf_coreRunsAgain)
  · rw [coreOf_startRestart, if_pos rfl, htick]
    rfl

end activation

/-! ### The obligation -/

/-- Settles O38, clause by clause: each event's own effect on the cores' records, and for the tick the stages one after another. -/
theorem tickAndCores : Obligations.TickAndCores := by
  unfold Obligations.TickAndCores
  refine ⟨tideTick_gives, coreTickDone_gives, tidUsedRead_gives, fun s core => ?_, fun s w => ?_, fun s core => ?_, fun s core => ?_,
    fun s a core rest ha hl hc hr => ?_, fun s port n ps e => ?_, fun s => ?_⟩
  · have hexec := exec_coreWatchdogExpiry s core
    refine ⟨_, hexec, ?_⟩
    by_cases h : WatchdogDue s core
    · have hframe := (rel_of_exec hexec).frame
      rw [if_pos h] at hframe ⊢
      obtain ⟨hcause, hfired, hcore, hothers⟩ := watchdogExpired_gives h.1
      rw [if_pos h]
      exact ⟨hframe, hcause, hfired, hcore, fun k _ hk => hothers k hk⟩
    · rw [if_neg h, if_neg h]
  · have hexec : exec (.coreRestart w) s = .next (writeTidRestart s w) := rfl
    refine ⟨_, hexec, (rel_of_exec hexec).frame, fun k hk => ?_⟩
    obtain ⟨hcore, hbank⟩ := writeTidRestart_core s w hk
    by_cases h : RestartAsked s w k
    · rw [if_pos h] at hcore hbank
      rw [if_pos h, hcore]
      exact ⟨rfl, rfl, rfl, hbank⟩
    · rw [if_neg h] at hcore hbank
      rw [if_neg h]
      exact ⟨hcore, hbank⟩
  · have hexec := exec_coreRestartFallback s core
    refine ⟨_, hexec, ?_⟩
    by_cases h : FallbackDue s core
    · have hframe := (rel_of_exec hexec).frame
      obtain ⟨hothers, hown⟩ := dueRestart_gives s core
      rw [if_pos h] at hframe ⊢
      rw [if_pos h]
      refine ⟨hframe, fun k _ hk => hothers k hk, ?_⟩
      by_cases h0 : core = 0 ∧ emergency s = true
      · rw [if_pos h0] at hown ⊢
        exact hown
      · rw [if_neg h0] at hown ⊢
        obtain ⟨hcore, hbank⟩ := hown
        exact ⟨by rw [hcore]; rfl, by rw [hcore]; rfl, hbank⟩
    · rw [if_neg h, if_neg h]
  · have hexec := exec_coreRestartDone s core
    refine ⟨_, hexec, ?_⟩
    by_cases h : core < 8 ∧ (coreOf s core).restart.isSome = true
    · have hframe := (rel_of_exec hexec).frame
      obtain ⟨hlh, hirq, hcount⟩ := coreRunsAgain_gives s core
      rw [if_pos h] at hframe ⊢
      rw [if_pos h]
      refine ⟨hframe, fun hact => ?_⟩
      rw [restartNext_idle (by rw [hlh]; exact hact)]
      exact ⟨(coreOf_of_lh hlh core).trans (coreOf_modCore_same ..), hirq, hcount,
        fun k _ hk => (coreOf_of_lh hlh k).trans (coreOf_modCore_other _ _ hk)⟩
    · rw [if_neg h, if_neg h]
  · cases rest with
    | nil =>
      obtain ⟨t, hexec, hcore, hend⟩ := coreRestartDone_last ha hc hr hl
      exact ⟨t, hexec, hcore, hend⟩
    | cons j l =>
      obtain ⟨t, hexec, hcore, hnext⟩ := coreRestartDone_next ha hc hr hl
      exact ⟨t, hexec, hcore, hnext⟩
  · refine ⟨_, exec_tickFlitReceive s port n ps e, ?_⟩
    by_cases h : usable s port = true ∧ discovered s = true ∧ rdb s CLF_COORD_anchor = false ∧ rd s CLF_TICK_upstream = port
    · rw [if_pos h, if_pos h]
      obtain ⟨hframe, hregs, hlocked, hlh, hlast, hslew⟩ := tickTaken_gives s port n ps e
      refine ⟨hframe, hregs, hlocked, hlh, hlast, ?_⟩
      rw [hslew]
      exact applySlew_slew s (tickError s port ps e)
    · rw [if_neg h, if_neg h]
  · refine ⟨_, exec_tickHoldover s, ?_⟩
    by_cases h : discovered s = true ∧ rdb s CLF_COORD_anchor = false ∧ 3 ≤ since s s.clf.lastTick
    · rw [if_pos h, if_pos h]
      exact tickLost_gives s
    · rw [if_neg h, if_neg h]

end Sys2Proof.Proofs
end
